-- ==== Sys2Proof/Word.lean ====
section
/-! DEFINITION. The words of the AE9632: bytes, 32-bit registers, 64-bit core words, and the plain sorted
association list in which every sparse collection of the machine is held. -/

namespace Sys2Proof

/-- One byte. -/
abbrev Byte := BitVec 8

/-- A string of bytes, byte 0 first (00_scope.md: byte 0 is the lowest address, little-endian). -/
abbrev Bytes := List Byte

/-- A register of BAR0 (00_scope.md: every register is 32 bits). -/
abbrev Word := BitVec 32

/-- A Goley register or a doubleword of memory. -/
abbrev DWord := BitVec 64

/-- A sparse collection by number: (key, value) pairs with strictly rising keys. -/
abbrev Tab (α : Type) := List (Nat × α)

end Sys2Proof
end

