-- ==== Sys2Proof/Syntax.lean ====
section
/-! DEFINITION. Syntax: the commands that the device takes (one constructor per row of the opcode table), with the
operands that come from outside it: addresses, values, bytes, and what sensors, dies and links answer. -/

namespace Sys2Proof

/-- What the power manager measures at an epoch start (R212, R218, R219): PEAT_SNS, and the slot, charger and die
power averaged over the last 1 ms. -/
structure EpochEnv where
  vMv : Nat
  vinMv : Nat
  iinMa : Nat
  inMw : Nat
  chgMw : Nat
  dieMw : Nat
  /-- The power of each fen's domain over the last epoch, by f, in mW (R128, R141). -/
  fenMw : List Nat := []
  /-- For each FLUSH-line portion and sluice write that ended in the last epoch, in the order of their ends: the energy in nJ that
  each power domain of its stations drew meanwhile, the bytes it moved there, and the bytes moved there in all (R213). -/
  flushNj : List (List (Nat × Nat × Nat)) := []
deriving DecidableEq, Repr

/-- The prefixes of a Goley instruction (R502): REP, W32, REV, and MOD0–MOD3. -/
structure GPre where
  rep : Bool := false
  w32 : Bool := false
  rev : Bool := false
  mod : Option (Fin 4) := none
deriving DecidableEq, Repr

/-- The operands of a Goley instruction, by format (R506). Registers are 5-bit numbers; an immediate or displacement
carries its size code (R507) and its bytes. -/
inductive GArgs where
  | n
  | g2 (d a : Fin 32)
  | g3 (d a b : Fin 32)
  | g4 (d e a b : Fin 32)
  | i (d : Fin 32) (size : Fin 8) (imm : BitVec 64)
  | gi (d a : Fin 32) (size : Fin 8) (imm : BitVec 64)
  | m (d b : Fin 32) (size : Fin 8) (disp : BitVec 64)
  | c (r : Fin 32) (crn : BitVec 8)
  | k (a : Fin 32) (size : Fin 8) (lo hi : BitVec 64)
  | b (a : Fin 32) (cc : Fin 8) (b : Fin 32) (size : Fin 8) (disp : BitVec 64)
  | j (d : Fin 32) (size : Fin 8) (disp : BitVec 64)
deriving DecidableEq, Repr

/-- A Goley instruction as its bytes spell it: prefixes, opcode (0xE000 + second byte after the escape), operands. -/
structure GIns where
  pre : GPre
  op : Nat
  args : GArgs
deriving DecidableEq, Repr

/-- A frame that arrives at Uaser port `port` (R617): its bytes from the destination address to the end of the payload,
whether its FCS is good, and the codewords that FEC corrected and could not correct while it came (R643). -/
structure WireFrame where
  port : Nat
  bytes : Bytes
  fcsOk : Bool
  corrected : Nat := 0
  uncorrected : Nat := 0
deriving DecidableEq, Repr

/-- A TDISP request for the VF of an instance (R670). -/
inductive TdispMsg where
  | getVersion | getCapabilities
  | lockInterface (stream : Nat)
  | getInterfaceReport | getInterfaceState | startInterface | stopInterface
deriving DecidableEq, Repr

/-- Public keys and signatures that a request carries (R61, R661, R664). -/
structure KeySigs where
  mldsaPub : Bytes
  ecdsaPub : Bytes
  mldsaSig : Bytes
  ecdsaSig : Bytes := []
deriving DecidableEq, Repr

/-- What a start's probe and training of a DRAM channel find (R532, R544, R545, R685): the installed GiB (0 where no device
answers), two ranks, the highest rate that the devices report, the rate that full training settles on, its settings,
whether the verify pass of the saved settings succeeds, and the refresh interval in ns. -/
structure DramProbe where
  sizeGib : Nat
  ranks2 : Bool := false
  devRate : Nat := 7
  rate : Option Nat := some 7
  settings : Nat := 0
  verifyOk : Bool := true
  refreshNs : Nat := 0
deriving DecidableEq, Repr

/-- What a die answers at the probe (R236, R238, R255): the user and spare bytes of its page, its page geometry and parameter
page revision, its highest rate code, bytes 160 to 164 of its parameter page, and whether it can suspend an operation. -/
structure DieParam where
  die : Nat
  user : Nat := 16384
  spare : Nat := 2048
  geometry : Nat := 0
  revision : Nat := 0
  rate : Nat := 6
  vendor : List (BitVec 8) := [0x53, 0x58, 0x34, 0x38, 0x01]
  suspend : Bool := true
deriving DecidableEq, Repr

/-- What a start's probe and training of a flash channel find (R236–R242, R685): the dies that answer, as a mask, and what they
answer; the rate that full training settles on, its settings, and whether the verify pass of the saved settings succeeds. -/
structure FlashProbe where
  present : Nat
  dies : List DieParam := []
  rate : Option Nat := some 6
  settings : Nat := 0
  verifyOk : Bool := true
deriving DecidableEq, Repr

/-- How the source of a relocation answers: the channels on which its erase fails (R294), and the tier that decoded each page of a
copy, by page key (R254). -/
structure SourceEnv where
  eraseFails : List Nat := []
  tiers : List (Nat × Nat) := []
deriving DecidableEq, Repr

/-- The result of a built-in test, with the failed tiles that a fen's test found (R103, R734). -/
structure TestResult where
  passed : Bool
  tiles : Nat := 0
deriving DecidableEq, Repr

/-- How the media answer a secure discard: the retired blocks (page key / 4,096) that neither an erase nor zeroing clears (R335), the blocks
of S whose erase fails (R323), and the tier that decodes each page of a copy, by page key (R254). -/
structure SecureEnv where
  lost : List Nat := []
  eraseFails : List Nat := []
  tiers : List (Nat × Nat) := []
deriving DecidableEq, Repr

/-- What a search finds in the array (R455): faults of the ternary storage since the last one, as the global index and the
match bits (VALUE, CARE) that its entry now has, and what the SRAM word of each record's winner gives: 1 a corrected symbol, 2 one
that cannot be corrected. -/
structure SearchEnv where
  ternary : List (Nat × Nat × Nat) := []
  sram : List Nat := []
deriving DecidableEq, Repr

/-- The search port that serves, and what its search finds in the array. -/
structure SearchAt where
  unit : Nat
  faults : SearchEnv := {}
deriving DecidableEq, Repr

/-- Where a memory-mapped access of the host's software arrives: the register, or the instance or controller whose page it is, and the
IDE stream on which it travels, if any (R670). -/
structure Mmio where
  place : Nat
  ide : Option Nat := none
deriving DecidableEq, Repr

/-- What a training of a host link reached: the rate code, and whether the link runs at reduced width in L0p (R557, R559, R587). -/
structure LinkRate where
  code : Nat
  l0p : Bool := false
deriving DecidableEq, Repr

/-- What a start finds outside the model (R684): the device-unique secret, the bifurcation strap, units with an unrepairable
memory, an unrepairable fault in a system region (R46), failed tiles by fen, the probes by channel, pages of a block in each
mode, blocks of a die, bad blocks and those of the journal band as (channel, die, block), the check of the save (R288), the JSEQs of journal
pages that neither copy yields (R307), the mirrors of the anchor that lack it or its valid mark (R282, R305), blocks whose summary
fails every tier or reads as erased (R284, R308), torn NOR records, the sensors in °C, and the ms of the phases. -/
structure StartEnv where
  dusOk : Bool := true
  x8x8 : Bool := false
  faults : List Nat := []
  systemFault : Bool := false
  fenTiles : List (Nat × Nat) := []
  dram : List DramProbe := []
  flash : List (Nat × FlashProbe) := []
  sluicePages : Nat := 0
  densePages : Nat := 0
  dieBlocks : Nat := 0
  badBlocks : List (Nat × Nat × Nat) := []
  reserved : List (Nat × Nat × Nat) := []
  saveOk : Bool := true
  lostJseqs : List Nat := []
  lostMirrors : List Nat := []
  badSummaries : List (Nat × Nat × Nat) := []
  torn : Nat := 0
  readings : List Int := []
  phaseMs : List Nat := []
deriving DecidableEq, Repr

/-- The commands of the AE9632: one constructor for each row of the table of operations and events. `ide`, where an access can be to an
instance's page: the IDE stream it travels on, none outside every stream (R670). -/
inductive Instr where
  /-- REGISTER_WRITE (R9): a write of `size` bytes at offset `addr` (instance pages at 0x1000_0000 + i × 0x1_0000). -/
  | registerWrite (addr : Mmio) (size : Nat) (value : BitVec 64)
  /-- READ_LO_LATCH (R7): a read of the _LO half at `addr`. -/
  | readLoLatch (addr : Mmio)
  /-- UNIT_ROLE_READ (R29): A read of DEV_UNIT_ROLE[n] latches DEV_UNIT_GEN[n]. -/
  | unitRoleRead (unit : Nat)
  /-- READ_CLEAR (R9): a read of the register at `addr` with its RC fields. -/
  | readClear (addr : Mmio)
  /-- KEY_SLOT_STATUS_READ (R408): A read of KEY_SLOT_STATUS[s] latches KEY_SLOT_GEN[s] and KEY_SLOT_USE[s]. -/
  | keySlotStatusRead (slot : Nat)
  /-- COMMIT_GO (R13): a write of `value`, with GO 1, to the COMMIT register at `addr`. -/
  | commitGo (addr : Mmio) (value : Word)
  /-- COMMIT_DISCARD (R13): a write of `value`, with DISCARD 1, to the COMMIT register at `addr`. -/
  | commitDiscard (addr : Mmio) (value : Word)
  /-- COMMIT_TAKES_EFFECT (R12): the safe point of the group whose COMMIT register is at `addr`. -/
  | commitTakesEffect (addr : Nat)
  /-- PACKET_ARRIVE (R32): the oldest packet in flight from `src` to `dest` in that class and route order. -/
  | packetArrive (src : Nat) (dest : Nat) (cls : Nat) (route : Nat)
  /-- FLIT_ARRIVE (R44): flit `flit` (0 the header) of that packet reaches router (x, y) over link `link` of the router of unit `up`; `errors` are the symbols in error at the first arrival and at each replay. -/
  | flitArrive (src : Nat) (dest : Nat) (cls : Nat) (route : Nat) (x : Nat) (y : Nat) (up : Nat) (link : Nat) (flit : Nat) (errors : List Nat)
  /-- GEN_HELD_EVENT_APPLY (R31): An event held because GEN already incremented twice within 1 ms takes effect when the window allows. -/
  | genHeldEventApply (unit : Nat)
  /-- CFG_LOAD_REQUEST (R93): The LOAD group takes effect when the instance-0 queue entry is free and becomes the instance-0 load request. -/
  | cfgLoadRequest
  /-- LOADER_FETCH_HEAD (R74): The idle loader takes the next request from its queue and fetches the container header. -/
  | loaderFetchHead
  /-- LOADER_HEADER_ARRIVED (R77): the fixed header as the source delivers it; `undelivered`: a transfer error left bytes undelivered. -/
  | loaderHeaderArrived (head : Bytes) (undelivered : Bool)
  /-- LOADER_AUTHENTICATE (R76): the bytes from 256 to BLOCKS_OFFSET as the source delivers them. -/
  | loaderAuthenticate (rest : Bytes) (undelivered : Bool)
  /-- LOADER_BLOCK_ARRIVED (R76): the next block's stored bytes. -/
  | loaderBlockArrived (block : Bytes) (undelivered : Bool)
  /-- SCREEN_COMPLETE (R80): `netlist`: breaches of rules 0x01 to 0x03 and 0x05 that the walk of the netlist finds: rule, TILE_X, TILE_Y, ELEMENT. -/
  | screenComplete (netlist : List (Nat × Nat × Nat × Nat))
  /-- FEN_APPLY_START (R82): The loader checks the target fen's GEN, service state and role and stops admission to its lines. -/
  | fenApplyStart
  /-- FEN_DRAIN_TIMEOUT (R82): After 1 ms of draining, tickets still inside the fen complete with ROLE_STALE and safe point A follows. -/
  | fenDrainTimeout
  /-- FEN_SAFE_POINT_A (R82): The drained fen leaves ACTIVE, GEN increments and the fen is held in reset for writing. -/
  | fenSafePointA
  /-- FEN_SAFE_POINT_B (R82): The written image is loaded, STATE enters ACTIVE, GEN increments, the measurement is extended and the load completes. -/
  | fenSafePointB
  /-- LOADER_KEY_REVOKED (R86): A load not fully decrypted 10 ms after its unwrapping slot is rewritten completes with KEY_REVOKED. -/
  | loaderKeyRevoked
  /-- STRUCTURE_STREAM_STORED (R87): A checked structure stream is written to the candidate area and its valid mark written, completing with DONE. -/
  | structureStreamStored
  /-- FEN_OUTPUT_BEAT (R109): the beats of one output transfer (at most 4 KiB) that the fen logic drives on `port`. -/
  | fenOutputBeat (fen : Nat) (port : Nat) (tag : Nat) (offset : Nat) (data : Bytes)
  /-- FEN_LAST (R107): A fen asserts LAST for a ticket, ending its output and reporting its STATUS. -/
  | fenLast (fen : Nat) (port : Nat) (tag : Nat) (status : Nat)
  /-- FEN_CTLWIN_ACCESS (R111): an access to register `reg` of window C, by instance `via` (`none`: through FAB_FEN_CTLWIN); `answer` is what the fen logic returns to a read. -/
  | fenCtlwinAccess (fen : Nat) (reg : Mmio) (via : Option Nat) (write : Option Word) (answer : Word)
  /-- CTLWIN_TIMEOUT (R111): an access that the fen logic did not answer or accept within 2 µs. -/
  | ctlwinTimeout (fen : Nat) (write : Bool)
  /-- FEN_FENCING_DONE (R125): Every port of a fencing fen reaches its boundary and the fen enters HELD. -/
  | fenFencingDone (fen : Nat)
  /-- FENCING_TIMEOUT (R125): 100 µs after a hold request the fen enters HELD and cuts incomplete transfers with INSTANCE_RESET. -/
  | fencingTimeout (fen : Nat)
  /-- HOLD_RELEASE (R602): Writing RELEASE releases every HELD fen and core of the instance. -/
  | holdRelease (inst : Nat)
  /-- FEN_OVERPOWER (R128): the fen's measured power over three consecutive epochs. -/
  | fenOverpower (fen : Nat) (milliwatts : Nat)
  /-- FEN_SCRUB_DONE (R123): A scrubbing fen's configuration and block memory are zero and it goes to EMPTY. -/
  | fenScrubDone (fen : Nat)
  /-- TICKET_SUBMIT (R148): the core `unit` (190: the junction) offers the 64 bytes of a ticket. -/
  | ticketSubmit (unit : Nat) (ticket : Bytes)
  /-- EPOCH_START (R160): At each 10 µs epoch start the power manager publishes A and gates and the signal box refills credit, applies R155 and scans portions. -/
  | epochStart (env : EpochEnv)
  /-- PORTION_CONSIDER (R160): Between epoch starts a newly waiting portion is considered for admission within 1 µs. -/
  | portionConsider (tag : Nat)
  /-- DEADLINE_EXPIRE (R168): A ticket that has spent its DEADLINE budget epochs completes with DEADLINE. -/
  | deadlineExpire (tag : Nat)
  /-- END_TOKEN_ARRIVE (R172): the end token of ticket `tag` in flight from `src` to `dest`. -/
  | endTokenArrive (src : Nat) (dest : Nat) (tag : Nat)
  /-- REVOKE_TOKEN_ARRIVE (R173): the revoke token of ticket `tag` in flight from `src` to `dest`. -/
  | revokeTokenArrive (src : Nat) (dest : Nat) (tag : Nat)
  /-- SIDING_POP (R190): writing POP in the registers (instance 0) or in the page of instance `inst`. -/
  | sidingPop (inst : Nat)
  /-- BASE_MW_UPDATE (R219): the slot input energy and the charger's share of it in the last 1 ms, in µJ. -/
  | baseMwUpdate (eIn : Nat) (eCharge : Nat)
  /-- DOMAIN_RETENTION (R201): A domain group idle for IDLE consecutive epochs enters RET. -/
  | domainRetention (group : Nat)
  /-- DOMAIN_GATE_OFF (R201): A group in RET for GATE ms with every unit idle goes OFF. -/
  | domainGateOff (group : Nat)
  /-- DOMAIN_WAKE (R201): the unit that a request reaches, and the verify pass of a flash channel's saved settings (R243) -/
  | domainWake (unit : Nat) (failed : List Nat)
  /-- OPERATING_POINT_CHANGE (R199): the island with that key goes to operating point `point` and frequency `mhz`. -/
  | operatingPointChange (island : Nat) (point : Nat) (mhz : Nat)
  /-- PEAT_RAMP_ELAPSED (R209): RAMP_MS after entering RAMP the peat state goes to CHARGING. -/
  | peatRampElapsed
  /-- PEAT_TARGET_REACHED (R209): PEAT_SNS in mV. -/
  | peatTargetReached (mv : Nat)
  /-- PEAT_OVERVOLTAGE (R206): PEAT_SNS in mV. -/
  | peatOvervoltage (mv : Nat)
  /-- PEAT_FLOOR_TIMEOUT (R209): PEAT_SNS in mV. -/
  | peatFloorTimeout (mv : Nat)
  /-- MEAS_REQUEST (R231): Writing MEAS_REQUEST requests a capacitance measurement. -/
  | measRequest
  /-- MEASUREMENT_DUE (R210): A capacitance measurement falls due and starts or is postponed for 10 minutes. -/
  | measurementDue
  /-- MEASUREMENT_DONE (R210): the charge drawn, in µC, and the fall in voltage, in mV. -/
  | measurementDone (chargeUc : Nat) (fallMv : Nat)
  /-- MEASUREMENT_TIMEOUT (R210): A discharge unfinished after 2 s is abandoned as INVALID and retried in 10 minutes. -/
  | measurementTimeout
  /-- VIN12_LOW (R208): VIN12_SNS in mV. -/
  | vin12Low (mv : Nat)
  /-- PWRDIS_ASSERT (R208): PWRDIS asserted for 1 µs declares power loss. -/
  | pwrdisAssert
  /-- FLUSH_DIRTY_FENCE_TIMEOUT (R223): 1 ms after the declaration, admitted DIRTY portions not yet in staging are fenced. -/
  | flushDirtyFenceTimeout
  /-- FLUSH_END (R223): the bank voltage in mV at the power-loss record -/
  | flushEnd (mv : Nat)
  /-- INPUT_RETURN (R223): VIN12 in range for 100 ms after a completed flush starts a warm start with peat state RAMP. -/
  | inputReturn
  /-- BROWN_OUT (R766): VDD_AON below 0.74 V for 1 µs or the bank below VFLOOR turns the device off. -/
  | brownOut
  /-- SENSOR_SAMPLE (R220): the sixteen sensors, in °C. -/
  | sensorSample (readings : List Int)
  /-- FLASH_TRAIN_PASS_DONE (R242): FLASH_TRAIN_PASS_DONE (R242): the pass at the rate being tried ends; `ok`: a setting works; `settings`: what the pass found. -/
  | flashTrainPassDone (channel : Nat) (ok : Bool) (settings : Nat)
  /-- FLASH_RETRAIN_BEGIN (R244): FLASH_RETRAIN_BEGIN (R244): Once every issued operation has finished, a due retraining begins. -/
  | flashRetrainBegin (channel : Nat)
  /-- CODEWORD_DECODE (R251): CODEWORD_DECODE (R251): the codeword in progress of read `op` of the channel decodes at its tier, or fails it. -/
  | codewordDecode (channel : Nat) (op : Nat) (ok : Bool)
  /-- PARTIAL_PARITY_TIMEOUT (R258): PARTIAL_PARITY_TIMEOUT (R258): the stripe of page `page` of block group `group`. -/
  | partialParityTimeout (group : Nat) (page : Nat)
  /-- PROGRAM_STATUS (R291): PROGRAM_STATUS (R291): the status of the oldest page being programmed on the channel. -/
  | programStatus (channel : Nat) (pass : Bool)
  /-- PAGE_SEAL_TIMEOUT (R275): PAGE_SEAL_TIMEOUT (R275): the page that the channel fills in that mode has received no unit for 50 µs. -/
  | pageSealTimeout (channel : Nat) (dense : Bool)
  /-- JOURNAL_PAGE_PROGRAMMED (R302): JOURNAL_PAGE_PROGRAMMED (R302): journal page `jseq` passes program status on die 0 or 1 of its pair. -/
  | journalPageProgrammed (jseq : Nat) (die : Nat)
  /-- CHECKPOINT_BEGIN (R304): A checkpoint begins on page count, time, request or shutdown and runs its steps to the anchor. -/
  | checkpointBegin
  /-- CKPT_REQUEST (R316): Writing CKPT_REQUEST begins a checkpoint unless one is running. -/
  | ckptRequest
  /-- CKPT_SECONDS_EXPIRE (R303): CKPT_SECONDS after the last checkpoint began, a checkpoint begins. -/
  | ckptSecondsExpire
  /-- RELOCATE_GROUP (R294): RELOCATE_GROUP (R294): `failing`: target blocks whose program or verify fails, by page key ÷ 4096; `answer`: how the source reads and erases. -/
  | relocateGroup (source : Nat) (failing : List Nat) (answer : SourceEnv)
  /-- PATROL_READ (R322): PATROL_READ (R322): a codeword of that page; the tier that decoded it, 5 when it is lost. -/
  | patrolRead (channel : Nat) (group : Nat) (page : Nat) (tier : Nat)
  /-- STATIC_LEVELLING (R321): At most every 100 ms a garbage-collection ticket takes the least-worn closed dense group. -/
  | staticLevelling
  /-- MINUTE_TICK (R327): Each operating minute a temperature histogram bin and the operating minute count advance. -/
  | minuteTick
  /-- READ_WRITE_BACK (R289): READ_WRITE_BACK (R289): the staging buffer `unit` takes the next work of its queue in mode 0. -/
  | readWriteBack (unit : Nat)
  /-- WRITE_THROUGH (R289): WRITE_THROUGH (R289): the staging buffer `unit`, mode 1. -/
  | writeThrough (unit : Nat)
  /-- DRAIN (R780): DRAIN (R780): the staging buffer `unit`, mode 2. -/
  | drain (unit : Nat)
  /-- DEALLOCATE (R330): The map engine sets every unit of the range UNMAPPED and holds DEALLOCATE records. -/
  | deallocate
  /-- SECURE_DEALLOCATE (R333): SECURE_DEALLOCATE (R333): `failing` as in RELOCATE_GROUP; `lost`: a retired block that neither erases nor programs to zeros, by page key ÷ 4096. -/
  | secureDeallocate (failing : List Nat) (answer : SecureEnv)
  /-- DURABLE (R289): The map engine completes once every unit staged before admission is programmed and committed. -/
  | durable
  /-- MAP_WRITE (R289): The map engine emits map, directory and root pages to be written to the sluice. -/
  | mapWrite
  /-- READ (R246): READ (R246): flash channel `unit` (or a staging buffer, or the map engine, R159) takes the next work of its queue in mode 0. -/
  | read (unit : Nat)
  /-- WRITE_SLUICE (R246): WRITE_SLUICE (R246): mode 1. -/
  | writeSluice (channel : Nat)
  /-- WRITE_DENSE (R246): WRITE_DENSE (R246): mode 2. -/
  | writeDense (channel : Nat)
  /-- READ_RAW (R246): READ_RAW (R246): mode 3; `raw`: the codewords as the die gives them. -/
  | readRaw (unit : Nat) (raw : Bytes)
  /-- PARITY_ENGINE_STEP (R256): PARITY_ENGINE_STEP (R256): the parity engine `unit` takes the page of stripe member (group, page, channel), or the next work of its queue. -/
  | parityEngineStep (unit : Nat) (member : Option (Nat × Nat × Nat))
  /-- SLOT_COMPRESS (R348): the engine `unit` takes the next work of its queue; `verified`: the first decoder gave the original back. -/
  | slotCompress (unit : Nat) (verified : Bool)
  /-- SLOT_DECOMPRESS (R352): `first`, `second`: what the decoders answer for the slot where one fails. -/
  | slotDecompress (unit : Nat) (first : Option Bytes) (second : Option Bytes)
  /-- STREAM_COMPRESS (R355): as SLOT_COMPRESS. -/
  | streamCompress (unit : Nat) (verified : Bool)
  /-- STREAM_DECOMPRESS (R357): as SLOT_DECOMPRESS; `answers`: what the decoders answer for each record that the packet completes, in order. -/
  | streamDecompress (unit : Nat) (first : List (Option Bytes)) (second : List (Option Bytes))
  /-- XTS_ENC (R388): the engine `unit` takes the next packet of its queue; `mismatch`: the 16-byte block at which the two datapaths disagree, if they do. -/
  | xtsEnc (unit : Nat) (mismatch : Option Nat)
  /-- XTS_DEC (R388): as XTS_ENC. -/
  | xtsDec (unit : Nat) (mismatch : Option Nat)
  /-- GCM_ENC (R392): as XTS_ENC. -/
  | gcmEnc (unit : Nat) (mismatch : Option Nat)
  /-- GCM_DEC (R396): as XTS_ENC. -/
  | gcmDec (unit : Nat) (mismatch : Option Nat)
  /-- GCM_HOLD_ROOM_FREE (R396): Hold buffer room frees and the earliest waiting mode 3 ticket takes its reservation. -/
  | gcmHoldRoomFree (unit : Nat)
  /-- PASS (R416): the engine `unit` takes the next work of its queue. -/
  | pass (unit : Nat)
  /-- SINK (R416): as PASS. -/
  | sink (unit : Nat)
  /-- SEARCH4 (R441): the port of group `unit` takes the next work of its queue; `faults`: what it finds in the array. -/
  | search4 (unit : SearchAt)
  /-- SEARCH16 (R441): as SEARCH4. -/
  | search16 (unit : SearchAt)
  /-- SEARCH64 (R441): as SEARCH4. -/
  | search64 (unit : SearchAt)
  /-- UPDATE (R451): as SEARCH4. -/
  | update (unit : Nat)
  /-- ASU_HOLD_ROOM_FREE (R458): Hold-region room frees for a waiting provisional search ticket. -/
  | asuHoldRoomFree (port : Nat)
  /-- SCRUB_READ (R454): `word`: 0 clean, 1 corrected, 2 uncorrectable; `found`: the entry record that the array gives where it is not what was stored; `copies`: of each shadow copy, whether it is clean and the record it gives where not what was stored. -/
  | scrubRead (bank : Nat) (entry : Nat) (word : Nat) (found : Option Bytes) (copies : List (Bool × Option Bytes))
  /-- BANK_COPY_DONE (R457): A bank copy from the shadow completes and serving hardware changes between two slots. -/
  | bankCopyDone (bank : Nat)
  /-- SEND (R621): the step at Uaser port `unit` -/
  | send (unit : Nat)
  /-- RECEIVE (R625): the step at Uaser port `unit` -/
  | receive (unit : Nat)
  /-- HOST_PORT_FETCH (R574): the next 4 KiB of a portion: the SGL as host memory holds it, segment by segment (16-byte descriptors), and the bytes that the read of host memory returned (fewer after a completion timeout or a poisoned completion). -/
  | hostPortFetch (unit : Nat) (sgl : List (List Bytes)) (data : Bytes)
  /-- HOST_PORT_WRITE (R574): the next packet: the destination SGL as host memory holds it. -/
  | hostPortWrite (unit : Nat) (sgl : List (List Bytes))
  /-- DRAM_STATION (R542): `raw`: reads of the transfer that waited for a queued write (R539). -/
  | dramStation (unit : Nat) (raw : Nat)
  /-- PROGRAM (R482): A core's port interface writes an arriving transfer into an input ring slot and queues an entry. -/
  | program (unit : Nat)
  /-- LOAD (R481): A core step writes its input into a stopped core's local memory. -/
  | load (unit : Nat)
  /-- KEY_GRANT (R376): Instance 0 grants a FREE key slot to an instance with KIND and ATTR. -/
  | keyGrant
  /-- KEY_LOAD (R378): the LEN bytes at ADDR. -/
  | keyLoad (blob : Bytes)
  /-- KEY_ERASE (R379): The owner or instance 0 destroys a slot's key. -/
  | keyErase
  /-- KEY_WITHDRAW (R379): Instance 0 erases a slot and returns it to FREE. -/
  | keyWithdraw
  /-- CTX_EXPORT (R400): A handle's GCM context is written out wrapped, or clear with EXPORT_CTX. -/
  | ctxExport
  /-- CTX_IMPORT (R400): the 128 bytes at ADDR. -/
  | ctxImport (record : Bytes)
  /-- CTX_FREE (R376): A context handle is zeroed and freed. -/
  | ctxFree
  /-- KEY_USE_ZERO (R379): A PENDING slot's users reach 0 and the waiting request takes effect. -/
  | keyUseZero (slot : Nat)
  /-- KEY_FENCE_TIMEOUT (R379): 10 ms after a slot enters PENDING the key store raises a fence on the slot. -/
  | keyFenceTimeout (slot : Nat)
  /-- KEY_FENCE_COMPLETE (R379): The slot fence completes and the key is zeroed, GEN increments and the request completes. -/
  | keyFenceComplete (slot : Nat)
  /-- FEED_START (R424): A feed START opens a digest computation with ALG, KEY_SLOT and LEN. -/
  | feedStart (engine : Nat)
  /-- SAVE (R428): A feed SAVE writes the save record and frees the context. -/
  | save (engine : Nat)
  /-- RESTORE (R428): the 512 bytes at ADDR. -/
  | restore (engine : Nat) (rcd : Bytes)
  /-- ABANDON (R424): A feed ABANDON zeroes and frees the context. -/
  | abandon (engine : Nat)
  /-- FEED_W0 (R425): A write to DGT_FEED_W0 stages bytes 0–3 of a word. -/
  | feedW0 (engine : Nat) (value : Word)
  /-- FEED_W1 (R425): A write to DGT_FEED_W1 stages bytes 4–7 and pushes the word, ending the message if marked last. -/
  | feedW1 (engine : Nat) (value : Word)
  /-- FEED_LAST (R425): A write to DGT_FEED_LAST marks the next word last or ends the message at once. -/
  | feedLast (engine : Nat) (value : Word)
  /-- NOP (R510): No operation. -/
  | gNop (core : Nat) (pre : GPre)
  /-- SYSCALL (R510): Traps SYSCALL. -/
  | gSyscall (core : Nat) (pre : GPre)
  /-- BREAK (R510): Traps BREAK. -/
  | gBreak (core : Nat) (pre : GPre)
  /-- RFT (R510): Returns from trap, restoring STATUS and resuming at EPC or a REP. -/
  | gRft (core : Nat) (pre : GPre)
  /-- WAIT (R480): Stops the core as WAITING until IPEND AND IMASK is not 0. -/
  | gWait (core : Nat) (pre : GPre)
  /-- CRR (R510): Reads a control register into a general register. -/
  | gCrr (core : Nat) (pre : GPre) (r : Fin 32) (crn : BitVec 8)
  /-- CRW (R510): Writes a general register into a control register. -/
  | gCrw (core : Nat) (pre : GPre) (r : Fin 32) (crn : BitVec 8)
  /-- INQ_POP (R482): Reading INQ_POP pops the oldest input queue entry. -/
  | inqPop (core : Nat) (d : Fin 32)
  /-- INQ_FREE (R482): Writing INQ_FREE releases an input ring slot. -/
  | inqFree (core : Nat) (a : Fin 32)
  /-- EMIT (R484): Writing EMIT queues an output transfer, stalling while the emit queue is full. -/
  | emit (core : Nat) (a : Fin 32)
  /-- SUBMIT (R485): Writing SUBMIT offers a ticket to the signal box and sets SUB_RESULT. -/
  | submit (core : Nat) (a : Fin 32)
  /-- TIMER_RAISE (R471): TIME reaches the TIMER value and raises TIMER in IPEND. -/
  | timerRaise (core : Nat)
  /-- INTERRUPT (R480): With IE 1 and IPEND AND IMASK not 0 the core takes an interrupt at a boundary. -/
  | interrupt (core : Nat)
  /-- ADD (R514): Register add. -/
  | gAdd (core : Nat) (pre : GPre) (d : Fin 32) (a : Fin 32) (b : Fin 32)
  /-- SUB (R514): Register subtract. -/
  | gSub (core : Nat) (pre : GPre) (d : Fin 32) (a : Fin 32) (b : Fin 32)
  /-- AND (R514): Register bitwise and. -/
  | gAnd (core : Nat) (pre : GPre) (d : Fin 32) (a : Fin 32) (b : Fin 32)
  /-- OR (R514): Register bitwise or. -/
  | gOr (core : Nat) (pre : GPre) (d : Fin 32) (a : Fin 32) (b : Fin 32)
  /-- XOR (R514): Register bitwise xor. -/
  | gXor (core : Nat) (pre : GPre) (d : Fin 32) (a : Fin 32) (b : Fin 32)
  /-- SHL (R514): Shift left. -/
  | gShl (core : Nat) (pre : GPre) (d : Fin 32) (a : Fin 32) (b : Fin 32)
  /-- SHR (R514): Shift right with zero fill. -/
  | gShr (core : Nat) (pre : GPre) (d : Fin 32) (a : Fin 32) (b : Fin 32)
  /-- SAR (R514): Shift right with sign fill. -/
  | gSar (core : Nat) (pre : GPre) (d : Fin 32) (a : Fin 32) (b : Fin 32)
  /-- MUL (R514): Low half of the product. -/
  | gMul (core : Nat) (pre : GPre) (d : Fin 32) (a : Fin 32) (b : Fin 32)
  /-- MULH (R514): High half of the signed product. -/
  | gMulh (core : Nat) (pre : GPre) (d : Fin 32) (a : Fin 32) (b : Fin 32)
  /-- MULHU (R514): High half of the unsigned product. -/
  | gMulhu (core : Nat) (pre : GPre) (d : Fin 32) (a : Fin 32) (b : Fin 32)
  /-- DIV (R516): Signed division, trapping DIVZERO on zero divisor. -/
  | gDiv (core : Nat) (pre : GPre) (d : Fin 32) (e : Fin 32) (a : Fin 32) (b : Fin 32)
  /-- DIVU (R516): Unsigned division, trapping DIVZERO on zero divisor. -/
  | gDivu (core : Nat) (pre : GPre) (d : Fin 32) (e : Fin 32) (a : Fin 32) (b : Fin 32)
  /-- DIVN (R516): Signed division that never traps. -/
  | gDivn (core : Nat) (pre : GPre) (d : Fin 32) (e : Fin 32) (a : Fin 32) (b : Fin 32)
  /-- NEG (R514): Negate. -/
  | gNeg (core : Nat) (pre : GPre) (d : Fin 32) (a : Fin 32)
  /-- NOT (R514): Bitwise not. -/
  | gNot (core : Nat) (pre : GPre) (d : Fin 32) (a : Fin 32)
  /-- CLZ (R514): Count leading zeros. -/
  | gClz (core : Nat) (pre : GPre) (d : Fin 32) (a : Fin 32)
  /-- CTZ (R514): Count trailing zeros. -/
  | gCtz (core : Nat) (pre : GPre) (d : Fin 32) (a : Fin 32)
  /-- POPC (R514): Count one bits. -/
  | gPopc (core : Nat) (pre : GPre) (d : Fin 32) (a : Fin 32)
  /-- BSWAP (R514): Reverse byte order. -/
  | gBswap (core : Nat) (pre : GPre) (d : Fin 32) (a : Fin 32)
  /-- SEQ (R518): Set if equal. -/
  | gSeq (core : Nat) (pre : GPre) (d : Fin 32) (a : Fin 32) (b : Fin 32)
  /-- SNE (R518): Set if not equal. -/
  | gSne (core : Nat) (pre : GPre) (d : Fin 32) (a : Fin 32) (b : Fin 32)
  /-- SLT (R518): Set if less, signed. -/
  | gSlt (core : Nat) (pre : GPre) (d : Fin 32) (a : Fin 32) (b : Fin 32)
  /-- SLTU (R518): Set if less, unsigned. -/
  | gSltu (core : Nat) (pre : GPre) (d : Fin 32) (a : Fin 32) (b : Fin 32)
  /-- SGE (R518): Set if greater or equal, signed. -/
  | gSge (core : Nat) (pre : GPre) (d : Fin 32) (a : Fin 32) (b : Fin 32)
  /-- SGEU (R518): Set if greater or equal, unsigned. -/
  | gSgeu (core : Nat) (pre : GPre) (d : Fin 32) (a : Fin 32) (b : Fin 32)
  /-- ADDI (R519): Add immediate. -/
  | gAddi (core : Nat) (pre : GPre) (d : Fin 32) (a : Fin 32) (size : Fin 8) (imm : BitVec 64)
  /-- ANDI (R519): And immediate. -/
  | gAndi (core : Nat) (pre : GPre) (d : Fin 32) (a : Fin 32) (size : Fin 8) (imm : BitVec 64)
  /-- ORI (R519): Or immediate. -/
  | gOri (core : Nat) (pre : GPre) (d : Fin 32) (a : Fin 32) (size : Fin 8) (imm : BitVec 64)
  /-- XORI (R519): Xor immediate. -/
  | gXori (core : Nat) (pre : GPre) (d : Fin 32) (a : Fin 32) (size : Fin 8) (imm : BitVec 64)
  /-- SHLI (R519): Shift left by immediate. -/
  | gShli (core : Nat) (pre : GPre) (d : Fin 32) (a : Fin 32) (size : Fin 8) (imm : BitVec 64)
  /-- SHRI (R519): Shift right by immediate, zero fill. -/
  | gShri (core : Nat) (pre : GPre) (d : Fin 32) (a : Fin 32) (size : Fin 8) (imm : BitVec 64)
  /-- SARI (R519): Shift right by immediate, sign fill. -/
  | gSari (core : Nat) (pre : GPre) (d : Fin 32) (a : Fin 32) (size : Fin 8) (imm : BitVec 64)
  /-- MULI (R519): Multiply by immediate. -/
  | gMuli (core : Nat) (pre : GPre) (d : Fin 32) (a : Fin 32) (size : Fin 8) (imm : BitVec 64)
  /-- SEQI (R519): Set if equal to immediate. -/
  | gSeqi (core : Nat) (pre : GPre) (d : Fin 32) (a : Fin 32) (size : Fin 8) (imm : BitVec 64)
  /-- SNEI (R519): Set if not equal to immediate. -/
  | gSnei (core : Nat) (pre : GPre) (d : Fin 32) (a : Fin 32) (size : Fin 8) (imm : BitVec 64)
  /-- SLTI (R519): Set if less than immediate, signed. -/
  | gSlti (core : Nat) (pre : GPre) (d : Fin 32) (a : Fin 32) (size : Fin 8) (imm : BitVec 64)
  /-- SLTUI (R519): Set if less than immediate, unsigned. -/
  | gSltui (core : Nat) (pre : GPre) (d : Fin 32) (a : Fin 32) (size : Fin 8) (imm : BitVec 64)
  /-- SGEI (R519): Set if greater or equal to immediate, signed. -/
  | gSgei (core : Nat) (pre : GPre) (d : Fin 32) (a : Fin 32) (size : Fin 8) (imm : BitVec 64)
  /-- SGEUI (R519): Set if greater or equal to immediate, unsigned. -/
  | gSgeui (core : Nat) (pre : GPre) (d : Fin 32) (a : Fin 32) (size : Fin 8) (imm : BitVec 64)
  /-- LI (R519): Load sign-extended immediate. -/
  | gLi (core : Nat) (pre : GPre) (d : Fin 32) (size : Fin 8) (imm : BitVec 64)
  /-- LDB (R520): Load byte, sign-extended. -/
  | gLdb (core : Nat) (pre : GPre) (d : Fin 32) (b : Fin 32) (size : Fin 8) (disp : BitVec 64)
  /-- LDBU (R520): Load byte, zero-extended. -/
  | gLdbu (core : Nat) (pre : GPre) (d : Fin 32) (b : Fin 32) (size : Fin 8) (disp : BitVec 64)
  /-- LDH (R520): Load halfword, sign-extended. -/
  | gLdh (core : Nat) (pre : GPre) (d : Fin 32) (b : Fin 32) (size : Fin 8) (disp : BitVec 64)
  /-- LDHU (R520): Load halfword, zero-extended. -/
  | gLdhu (core : Nat) (pre : GPre) (d : Fin 32) (b : Fin 32) (size : Fin 8) (disp : BitVec 64)
  /-- LDW (R520): Load word, sign-extended. -/
  | gLdw (core : Nat) (pre : GPre) (d : Fin 32) (b : Fin 32) (size : Fin 8) (disp : BitVec 64)
  /-- LDWU (R520): Load word, zero-extended. -/
  | gLdwu (core : Nat) (pre : GPre) (d : Fin 32) (b : Fin 32) (size : Fin 8) (disp : BitVec 64)
  /-- LDD (R520): Load doubleword. -/
  | gLdd (core : Nat) (pre : GPre) (d : Fin 32) (b : Fin 32) (size : Fin 8) (disp : BitVec 64)
  /-- STB (R520): Store byte. -/
  | gStb (core : Nat) (pre : GPre) (d : Fin 32) (b : Fin 32) (size : Fin 8) (disp : BitVec 64)
  /-- STH (R520): Store halfword. -/
  | gSth (core : Nat) (pre : GPre) (d : Fin 32) (b : Fin 32) (size : Fin 8) (disp : BitVec 64)
  /-- STW (R520): Store word. -/
  | gStw (core : Nat) (pre : GPre) (d : Fin 32) (b : Fin 32) (size : Fin 8) (disp : BitVec 64)
  /-- STD (R520): Store doubleword. -/
  | gStd (core : Nat) (pre : GPre) (d : Fin 32) (b : Fin 32) (size : Fin 8) (disp : BitVec 64)
  /-- LDB_U (R520): Load byte signed, then update base. -/
  | gLdbU (core : Nat) (pre : GPre) (d : Fin 32) (b : Fin 32) (size : Fin 8) (disp : BitVec 64)
  /-- LDBU_U (R520): Load byte unsigned, then update base. -/
  | gLdbuU (core : Nat) (pre : GPre) (d : Fin 32) (b : Fin 32) (size : Fin 8) (disp : BitVec 64)
  /-- LDH_U (R520): Load halfword signed, then update base. -/
  | gLdhU (core : Nat) (pre : GPre) (d : Fin 32) (b : Fin 32) (size : Fin 8) (disp : BitVec 64)
  /-- LDHU_U (R520): Load halfword unsigned, then update base. -/
  | gLdhuU (core : Nat) (pre : GPre) (d : Fin 32) (b : Fin 32) (size : Fin 8) (disp : BitVec 64)
  /-- LDW_U (R520): Load word signed, then update base. -/
  | gLdwU (core : Nat) (pre : GPre) (d : Fin 32) (b : Fin 32) (size : Fin 8) (disp : BitVec 64)
  /-- LDWU_U (R520): Load word unsigned, then update base. -/
  | gLdwuU (core : Nat) (pre : GPre) (d : Fin 32) (b : Fin 32) (size : Fin 8) (disp : BitVec 64)
  /-- LDD_U (R520): Load doubleword, then update base. -/
  | gLddU (core : Nat) (pre : GPre) (d : Fin 32) (b : Fin 32) (size : Fin 8) (disp : BitVec 64)
  /-- STB_U (R520): Store byte, then update base. -/
  | gStbU (core : Nat) (pre : GPre) (d : Fin 32) (b : Fin 32) (size : Fin 8) (disp : BitVec 64)
  /-- STH_U (R520): Store halfword, then update base. -/
  | gSthU (core : Nat) (pre : GPre) (d : Fin 32) (b : Fin 32) (size : Fin 8) (disp : BitVec 64)
  /-- STW_U (R520): Store word, then update base. -/
  | gStwU (core : Nat) (pre : GPre) (d : Fin 32) (b : Fin 32) (size : Fin 8) (disp : BitVec 64)
  /-- STD_U (R520): Store doubleword, then update base. -/
  | gStdU (core : Nat) (pre : GPre) (d : Fin 32) (b : Fin 32) (size : Fin 8) (disp : BitVec 64)
  /-- CAS (R522): Atomic compare-and-swap of a doubleword. -/
  | gCas (core : Nat) (pre : GPre) (d : Fin 32) (a : Fin 32) (b : Fin 32)
  /-- FENCE_INSTRUCTION (R523): Waits for earlier accesses and discards fetched bytes beyond itself. -/
  | gFenceInstruction (core : Nat) (pre : GPre)
  /-- CPX (R522): Copies a doubleword from a linear source to a MOD-formed destination. -/
  | gCpx (core : Nat) (pre : GPre) (d : Fin 32) (b : Fin 32) (size : Fin 8) (disp : BitVec 64)
  /-- CHK (R524): Signed bounds check against registers. -/
  | gChk (core : Nat) (pre : GPre) (d : Fin 32) (a : Fin 32) (b : Fin 32)
  /-- CHKU (R524): Unsigned bounds check against registers. -/
  | gChku (core : Nat) (pre : GPre) (d : Fin 32) (a : Fin 32) (b : Fin 32)
  /-- CHKI (R524): Signed bounds check against immediates. -/
  | gChki (core : Nat) (pre : GPre) (a : Fin 32) (size : Fin 8) (lo : BitVec 64) (hi : BitVec 64)
  /-- BC (R525): Conditional branch with delay slot. -/
  | gBc (core : Nat) (pre : GPre) (a : Fin 32) (cc : Fin 8) (b : Fin 32) (size : Fin 8) (disp : BitVec 64)
  /-- JAL (R525): Jump and link with delay slot. -/
  | gJal (core : Nat) (pre : GPre) (d : Fin 32) (size : Fin 8) (disp : BitVec 64)
  /-- JALR (R525): Jump to register and link with delay slot. -/
  | gJalr (core : Nat) (pre : GPre) (d : Fin 32) (a : Fin 32)
  /-- CORE_START (R489): START sets PC to ENTRY and STATUS to 0 and runs a stopped core. -/
  | coreStart (core : Nat) (entry : BitVec 64)
  /-- CORE_STOP (R489): STOP stops the core at the next allowed boundary within 1 µs. -/
  | coreStop (core : Nat)
  /-- CORE_SCRUB_DONE (R488): A scrubbing core's memory and registers are zero and it goes to STOPPED. -/
  | coreScrubDone (core : Nat)
  /-- CORE_IDLE_SLOWDOWN (R492): A tenant core idle for IDLE_LIMIT epochs runs at the LOW frequency. -/
  | coreIdleSlowdown (core : Nat)
  /-- DRAM_REFRESH (R541): `waiting`: a read waits on the channel. -/
  | dramRefresh (channel : Nat) (bank : Nat) (waiting : Bool)
  /-- DRAM_TEMP_READ (R541): The refresh interval that the devices' temperature register sets. -/
  | dramTempRead (channel : Nat) (intervalNs : Nat)
  /-- DRAM_PATROL (R536): The patrol reads the group that holds code word `word` of an instance's local memory; `symbols` in error were found in it. -/
  | dramPatrol (channel : Nat) (inst : Nat) (word : Nat) (symbols : Nat)
  /-- DRAM_TRAIN_PASS_DONE (R545): Whether the pass found settings that work, and which. -/
  | dramTrainPassDone (channel : Nat) (ok : Bool) (settings : Nat)
  /-- DRAM_TRAIN_WINDOW_END (R546): A drift-retraining window closes and any held rate change is applied. -/
  | dramTrainWindowEnd (channel : Nat)
  /-- SQ_DOORBELL (R564): a doorbell write of `tail` to submission queue `sq` of controller `ctrl` (0 and 1 the physical functions, 1 + i the virtual function of instance i); `entries` are the 64-byte entries that host memory holds there. -/
  | sqDoorbell (ctrl : Mmio) (sq : Nat) (tail : Nat) (entries : List Bytes)
  /-- CREATE_IO_SQ (R565): the entry at the front of the admin queue. -/
  | createIoSq (ctrl : Nat)
  /-- DELETE_IO_SQ (R565): the entry at the front of the admin queue. -/
  | deleteIoSq (ctrl : Nat)
  /-- CREATE_IO_CQ (R565): the entry at the front of the admin queue. -/
  | createIoCq (ctrl : Nat)
  /-- DELETE_IO_CQ (R565): the entry at the front of the admin queue. -/
  | deleteIoCq (ctrl : Nat)
  /-- GET_LOG_PAGE (R567): the entry at the front of the admin queue. -/
  | getLogPage (ctrl : Nat)
  /-- IDENTIFY (R565): the entry at the front of the admin queue. -/
  | identify (ctrl : Nat)
  /-- ABORT (R572): the entry at the front of the admin queue. -/
  | abort (ctrl : Nat)
  /-- SET_FEATURES (R568): the entry at the front of the admin queue, with its data. -/
  | setFeatures (ctrl : Nat) (data : Bytes)
  /-- GET_FEATURES (R568): the entry at the front of the admin queue. -/
  | getFeatures (ctrl : Nat)
  /-- ASYNCHRONOUS_EVENT_REQUEST (R565): the entry at the front of the admin queue. -/
  | asynchronousEventRequest (ctrl : Nat)
  /-- NAMESPACE_MANAGEMENT (R565): the entry at the front of the admin queue, with its data. -/
  | namespaceManagement (ctrl : Nat) (data : Bytes)
  /-- NAMESPACE_ATTACHMENT (R598): the entry at the front of the admin queue, with its controller list. -/
  | namespaceAttachment (ctrl : Nat) (data : Bytes)
  /-- FIRMWARE_COMMIT (R714): the entry at the front of the admin queue. -/
  | firmwareCommit (ctrl : Nat)
  /-- FIRMWARE_IMAGE_DOWNLOAD (R707): the entry at the front of the admin queue, with the piece's bytes. -/
  | firmwareImageDownload (ctrl : Nat) (data : Bytes)
  /-- DEVICE_SELF_TEST (R739): the entry at the front of the admin queue. -/
  | deviceSelfTest (ctrl : Nat)
  /-- VIRTUALIZATION_MANAGEMENT (R565): the entry at the front of the admin queue. -/
  | virtualizationManagement (ctrl : Nat)
  /-- NVME_MI_SEND (R565): the entry at the front of the admin queue. -/
  | nvmeMiSend (ctrl : Nat)
  /-- NVME_MI_RECEIVE (R565): the entry at the front of the admin queue. -/
  | nvmeMiReceive (ctrl : Nat)
  /-- FORMAT_NVM (R566): the entry at the front of the admin queue. -/
  | formatNvm (ctrl : Nat)
  /-- SANITIZE (R565): the entry at the front of the admin queue. -/
  | sanitize (ctrl : Nat)
  /-- INVALID_COMMAND_OPCODE (R565): the entry at the front of a queue whose opcode is not supported. -/
  | invalidCommandOpcode (ctrl : Nat) (sq : Nat)
  /-- NVME_READ (R566): the entry at the front of an I/O queue. -/
  | nvmeRead (ctrl : Nat) (sq : Nat)
  /-- NVME_WRITE (R566): the entry at the front of an I/O queue. -/
  | nvmeWrite (ctrl : Nat) (sq : Nat)
  /-- FLUSH (R566): the entry at the front of an I/O queue. -/
  | flush (ctrl : Nat) (sq : Nat)
  /-- WRITE_ZEROES (R566): the entry at the front of an I/O queue. -/
  | writeZeroes (ctrl : Nat) (sq : Nat)
  /-- DATASET_MANAGEMENT (R571): the entry at the front of an I/O queue, with its 16-byte ranges. -/
  | datasetManagement (ctrl : Nat) (sq : Nat) (ranges : Bytes)
  /-- ZONE_APPEND (R577): the entry at the front of an I/O queue. -/
  | zoneAppend (ctrl : Nat) (sq : Nat)
  /-- ZONE_OPEN (R576): the entry at the front of an I/O queue. -/
  | zoneOpen (ctrl : Nat) (sq : Nat)
  /-- ZONE_CLOSE (R576): the entry at the front of an I/O queue. -/
  | zoneClose (ctrl : Nat) (sq : Nat)
  /-- ZONE_FINISH (R577): the entry at the front of an I/O queue. -/
  | zoneFinish (ctrl : Nat) (sq : Nat)
  /-- ZONE_RESET (R577): the entry at the front of an I/O queue. -/
  | zoneReset (ctrl : Nat) (sq : Nat)
  /-- REPORT_ZONES (R576): the entry at the front of an I/O queue. -/
  | reportZones (ctrl : Nat) (sq : Nat)
  /-- LOAD_PROGRAM (R579): the entry at the front of a queue: a program of `type` for compute engine `unit`, of `offered` bytes, and the first 64 bytes of its data. -/
  | loadProgram (ctrl : Nat) (sq : Nat) (unit : Nat) (type : Nat) (offered : Nat) (head : Bytes)
  /-- PROGRAM_ACTIVATION (R580): the entry at the front of a queue. -/
  | programActivation (ctrl : Nat) (sq : Nat) (unit : Nat)
  /-- EXECUTE_PROGRAM (R580): the entry at the front of a queue, with its 64-byte ticket. -/
  | executeProgram (ctrl : Nat) (sq : Nat) (ticket : Bytes)
  /-- MEMORY_WRITE (R581): the entry at the front of a queue. -/
  | memoryWrite (ctrl : Nat) (sq : Nat) (offset : Nat) (length : Nat)
  /-- MEMORY_READ (R581): the entry at the front of a queue. -/
  | memoryRead (ctrl : Nat) (sq : Nat) (offset : Nat) (length : Nat)
  /-- MEMORY_COPY (R581): the entry at the front of a queue: between the namespace it names and local memory. -/
  | memoryCopy (ctrl : Nat) (sq : Nat) (toLocal : Bool) (slba : Nat) (units : Nat) (offset : Nat)
  /-- FUNCTION_LEVEL_RESET (R561): a function level reset, or CC.EN set to 0. -/
  | functionLevelReset (ctrl : Nat) (flr : Bool)
  /-- LINK_DOWN (R562): A port's link goes down and its functions are reset. -/
  | linkDown (port : Nat)
  /-- LINK_RETRAIN (R559): the working lanes, and the highest rate code that the port reached. -/
  | linkRetrain (port : Nat) (lanes : Nat) (rate : LinkRate)
  /-- NVME_MI_COMMAND (R583): over SMBus at 0x6A (0), SMBus MCTP (1), or VDM at port A (2) or B (3); `admin`: a tunnelled admin command, with its Dwords 10 and NSID. -/
  | nvmeMiCommand (transport : Nat) (op : Nat) (dword0 : Nat) (dword1 : Nat) (admin : Bool)
  /-- CREATE (R596): the set-up request in progress; `vfEnabled`: the VF that it names is enabled through SR-IOV. -/
  | create (vfEnabled : Bool)
  /-- DESTROY (R597): Resets an instance, withdraws all its resources and frees it. -/
  | destroy
  /-- GRANT_FEN (R596): Grants a TENANT_POOL fen to an instance. -/
  | grantFen
  /-- WITHDRAW_FEN (R597): Withdraws a fen from an instance and scrubs it. -/
  | withdrawFen
  /-- GRANT_CORE (R596): Grants a TENANT_POOL core and sets its windows. -/
  | grantCore
  /-- WITHDRAW_CORE (R597): Withdraws a core from an instance and scrubs it. -/
  | withdrawCore
  /-- DEDICATE (R596): Dedicates a SHARED engine or bank group to an instance. -/
  | dedicate
  /-- UNDEDICATE (R596): Returns a DEDICATED unit to SHARED. -/
  | undedicate
  /-- WITHDRAW_DRAIN_TIMEOUT (R597): 1 ms after admission stops, tickets still inside a withdrawn unit complete with ROLE_STALE. -/
  | withdrawDrainTimeout (unit : Nat)
  /-- INSTANCE_RESET (R604): `flr`: the trigger was a function level reset. -/
  | instanceReset (inst : Nat) (flr : Bool)
  /-- LOG_SWITCH (R613): Writing SWITCH swaps the dirty-page log buffers and completes the old one's header. -/
  | logSwitch (inst : Nat)
  /-- LMEM_LOST_POP (R602): A read of VFP_LMEM_LOST removes the oldest lost page from the list. -/
  | lmemLostPop (inst : Mmio)
  /-- DATA (R623): a DATA frame arrives -/
  | data (wire : WireFrame)
  /-- ACK (R623): an ACK frame arrives -/
  | ack (wire : WireFrame)
  /-- OUTCOME (R626): an OUTCOME frame arrives -/
  | outcome (wire : WireFrame)
  /-- HEARTBEAT (R630): a HEARTBEAT frame arrives -/
  | heartbeat (wire : WireFrame)
  /-- LOSS (R633): a LOSS frame arrives -/
  | loss (wire : WireFrame)
  /-- PROMOTED (R636): a PROMOTED frame arrives -/
  | promoted (wire : WireFrame)
  /-- STALE_PEER (R623): a STALE_PEER frame arrives -/
  | stalePeer (wire : WireFrame)
  /-- FRAME_FORWARD (R628): a frame for another node arrives -/
  | frameForward (wire : WireFrame)
  /-- HEARTBEAT_TICK (R630): the heartbeat interval has passed -/
  | heartbeatTick
  /-- NEIGHBOUR_TIMEOUT (R631): no heartbeat of the neighbour for 500 µs -/
  | neighbourTimeout (node : Nat)
  /-- UASER_LINK_DOWN (R631): port 0–3 -/
  | uaserLinkDown (port : Nat)
  /-- RETRANSMIT_TIMEOUT (R623): the message of a connection whose RTO_US has passed -/
  | retransmitTimeout (node : Nat) (tenant : Nat) (seq : Nat)
  /-- CONNECTION_IDLE_CLOSE (R622): the connection -/
  | connectionIdleClose (node : Nat) (tenant : Nat)
  /-- PRIMARY_CLAIM_TIMEOUT (R636): the device has been joined for 5 ms -/
  | primaryClaimTimeout
  /-- FED_TABLE_LOAD (R641): the bytes that the junction reads at ADDR -/
  | fedTableLoad (table : Bytes)
  /-- GET_VERSION (R658): `fn`: the function whose DOE it comes on, as a controller number, or 0xFFFF for MCTP -/
  | getVersion (fn : Nat)
  /-- GET_CAPABILITIES (R658): the function -/
  | getCapabilities (fn : Nat)
  /-- NEGOTIATE_ALGORITHMS (R658): what the requester offers, as SPDM's bit masks -/
  | negotiateAlgorithms (fn : Nat) (hash : Nat) (asym : Nat) (dhe : Nat) (aead : Nat) (reqAsym : Nat)
  /-- GET_DIGESTS (R658): the function -/
  | getDigests (fn : Nat)
  /-- GET_CERTIFICATE (R658): the slot and the part of its chain asked for -/
  | getCertificate (fn : Nat) (slot : Nat) (offset : Nat) (len : Nat)
  /-- CHALLENGE (R658): the transcript that CHALLENGE_AUTH signs -/
  | challenge (fn : Nat) (slot : Nat) (transcript : Bytes)
  /-- GET_MEASUREMENTS (R660): `index` 0 asks for the count and 0xFF for all; the transcript that a signed response signs -/
  | getMeasurements (fn : Nat) (index : Nat) (sign : Bool) (transcript : Bytes)
  /-- KEY_EXCHANGE (R658): the transcript that KEY_EXCHANGE_RSP signs -/
  | keyExchange (fn : Nat) (transcript : Bytes)
  /-- FINISH (R658): the requester's P-384 key where authentication is mutual, whether the standard's verification succeeds, and the session's transcript hash -/
  | finish (fn : Nat) (session : Nat) (reqKey : Option Bytes) (ok : Bool) (th : Bytes)
  /-- SPDM_HEARTBEAT (R658): the session -/
  | spdmHeartbeat (fn : Nat) (session : Nat)
  /-- KEY_UPDATE (R658): the session -/
  | keyUpdate (fn : Nat) (session : Nat)
  /-- END_SESSION (R668): the session -/
  | endSession (fn : Nat) (session : Nat)
  /-- UNSUPPORTED_REQUEST (R658): the function -/
  | unsupportedRequest (fn : Nat)
  /-- PQ_CHAIN (R661): the function and the session, where it comes in one -/
  | pqChain (fn : Nat) (session : Option Nat)
  /-- PQ_QUOTE (R661): the SPDM transcript hash so far -/
  | pqQuote (fn : Nat) (session : Option Nat) (transcript : Bytes)
  /-- BIND (R662): the requester's keys and its ML-DSA-87 signature over the session's transcript hash -/
  | bind (fn : Nat) (session : Option Nat) (keys : KeySigs)
  /-- REG_UPDATE (R664): the entry, its new hash, VERSION, SIGNER_INDEX, and that key with its signatures -/
  | regUpdate (fn : Nat) (session : Option Nat) (keyIndex : Nat) (hash : Bytes) (version : Nat) (signer : Nat) (keys : KeySigs)
  /-- RELEASE (R661): the function and session -/
  | release (fn : Nat) (session : Option Nat)
  /-- TEST_OPEN (R668): the function and session -/
  | testOpen (fn : Nat) (session : Option Nat)
  /-- TEST_CLOSE (R668): the function and session -/
  | testClose (fn : Nat) (session : Option Nat)
  /-- DECOMMISSION (R652): the function and session -/
  | decommission (fn : Nat) (session : Option Nat)
  /-- IDE_KM (R669): the stream of the PF's port, and its key material, or none to stop it -/
  | ideKm (fn : Nat) (session : Option Nat) (stream : Nat) (key : Option Bytes)
  /-- IDE_INTEGRITY_FAILURE (R669): the stream -/
  | ideIntegrityFailure (port : Nat) (stream : Nat)
  /-- TDISP_MESSAGE (R670): the instance whose VF is the TDI -/
  | tdispMessage (fn : Nat) (session : Option Nat) (inst : Nat) (msg : TdispMsg)
  /-- MEAS_SELECT (R675): the word written to TRU_MEAS_SEL -/
  | measSelect (value : Nat)
  /-- POWER_ON (R683): VIN12 at 11.0 V for 10 ms with PWRDIS negated begins a cold start. -/
  | powerOn
  /-- COLD_START (R684): what the start finds -/
  | coldStart (env : StartEnv)
  /-- WARM_START (R684): what the start finds -/
  | warmStart (env : StartEnv)
  /-- WARM (R697): Writing WARM in READY begins the entry sequence of a warm start. -/
  | warm
  /-- ENTRY_CUTOFF (R682): Steps 3 and 4 unfinished 2 s after step 2 are cut off and the warm start begins. -/
  | entryCutoff
  /-- WATCHDOG_EXPIRE (R698): WDT_MS without service after READY begins a warm start with cause WATCHDOG. -/
  | watchdogExpire
  /-- START_READY (R687): RESTORE ended and peat not RAMP, the start enters READY. -/
  | startReady
  /-- PERST_ASSERT (R680): the port whose PERST_N is asserted -/
  | perstAssert (port : Nat)
  /-- PERST_RELEASE (R683): the port whose PERST_N is released -/
  | perstRelease (port : Nat)
  /-- SELF_OK (R709): 10 s of healthy system cores after READY sets SELF_OK and may confirm a TRIAL image. -/
  | selfOk
  /-- CONFIRM_TIMEOUT (R710): A TRIAL image unconfirmed 120 s after READY is abandoned and a warm start begins. -/
  | confirmTimeout
  /-- STAGE (R707): the bytes that the host delivers, and whether some are not delivered. -/
  | stage (data : Bytes) (undelivered : Bool)
  /-- UPD_WRITE_SLOT (R708): Verifies staging and writes it into a slot, as CA 000. -/
  | updWriteSlot
  /-- UPD_WRITE_ACTIVATE (R708): Writes a slot and activates it for the next start, as CA 001. -/
  | updWriteActivate
  /-- UPD_ACTIVATE_SLOT (R708): Activates an existing valid slot, as CA 010. -/
  | updActivateSlot
  /-- ACTIVATE (R718): Writing ACTIVATE begins a warm start while TRIAL with BOOTS 0. -/
  | activate
  /-- CONFIRM (R709): Writing CONFIRM gives the operator's confirmation of a TRIAL image. -/
  | confirm
  /-- MIRROR_PAGE_FLUSH (R724): 1 s after its first record, a mirror page is written with its valid mark. -/
  | mirrorPageFlush
  /-- SUPPRESSED (R724): At the end of a second with over 64 records of one event and unit, a SUPPRESSED record is written. -/
  | suppressed
  /-- EVR_READ (R730): The selected record is copied into EVR_READ_DATA as a snapshot. -/
  | evrRead
  /-- EVR_CLEAR (R727): An accepted clear erases the ring and writes a CLEAR record. -/
  | evrClear
  /-- UNIT_TEST_REQUEST (R747): A requested unit is queued and taken out for built-in test. -/
  | unitTestRequest
  /-- ROTATE (R733): Every ROTATE_H hours the next unit is taken out for test. -/
  | rotate
  /-- TEST_DRAIN_TIMEOUT (R735): the unit that was taken out, or whose spare gives its binding back. -/
  | testDrainTimeout (unit : Nat)
  /-- UNIT_TEST_DONE (R734): the unit's built-in test ends. -/
  | unitTestDone (unit : Nat) (result : TestResult)
  /-- SRAM_SYMBOL (R741): Injects symbol errors into the next SRAM code words written. -/
  | sramSymbol
  /-- TRUNK_SYMBOL (R741): Injects symbol errors into the next flits on a link. -/
  | trunkSymbol
  /-- DRAM_SYMBOL (R741): Injects symbol errors into the next DRAM code words written. -/
  | dramSymbol
  /-- FLASH_BITS (R741): Injects raw bit errors into the next codeword reads of a die. -/
  | flashBits
  /-- FLASH_FAIL (R741): Makes the next program or erase operations of a die fail. -/
  | flashFail
  /-- CAUSEWAY_DELAY (R741): Adds delay to every acknowledgement into an island. -/
  | causewayDelay
  /-- BACKPRESSURE (R741): Holds a trunk link for a number of windows. -/
  | backpressure
  /-- CLOCK (R741): Stretches and jitters an island's clock cycles. -/
  | clock
  /-- INJECTION_WINDOW_END (R741): the window of the active injection of that KIND on that TARGET ends. -/
  | injectionWindowEnd (kind : Nat) (target : Nat)
  /-- STOP (R749): Writing STOP cancels every active injection. -/
  | stop
  /-- SMBUS_TIMEOUT (R775): SCL held low for 25 to 35 ms resets the SMBus interface and releases both lines. -/
  | smbusTimeout
  /-- ERASE_STATUS (R323): ERASE_STATUS (R323): a block erase issued by the map engine reports its status. -/
  | eraseStatus (channel : Nat) (die : Nat) (block : Nat) (pass : Bool)
  /-- UNDEFINED_ENCODING (R504): the 16 bytes at the pc of a core, which spell no instruction it executes. -/
  | undefinedEncoding (core : Nat) (bytes : Bytes)
  /-- UASER_LINK_UP (R616): port 0–3, and whether it negotiated CR1 -/
  | uaserLinkUp (port : Nat) (cr1 : Bool)
  /-- TEST_PORT_INSTRUCTION (R777): 0 BYPASS, 1 SAMPLE/PRELOAD, 2 EXTEST; any other instruction is none of the three. -/
  | testPortInstruction (ir : Nat)
deriving DecidableEq, Repr

end Sys2Proof
end

