-- ==== Sys2Proof/Config.lean ====
section
/-! DEFINITION. Config: what the spec leaves open or takes from a standard that it does not restate, as opaque
constants: nothing in Lean can evaluate them, so a statement holds whatever they are. -/

namespace Sys2Proof.Config

/-- AES-256 encryption of one 16-byte block under a 32-byte key (R388, R392). -/
opaque aesEnc : Bytes → Bytes → Bytes

/-- AES-256 decryption of one 16-byte block under a 32-byte key (R388). -/
opaque aesDec : Bytes → Bytes → Bytes

/-- The initial chaining or sponge state of an ALG (R415, R427). -/
opaque hashInit : Nat → Bytes

/-- The state of an ALG after one more block. -/
opaque hashStep : Nat → Bytes → Bytes → Bytes

/-- The digest of an ALG from its state, the last bytes (less than a block) and the message's length in bytes. -/
opaque hashFinal : Nat → Bytes → Bytes → Nat → Bytes

/-- ML-DSA-87 verification of a signature under a public key (R60, R61): key, message, signature. -/
opaque mldsaOk : Bytes → Bytes → Bytes → Bool

/-- ECDSA P-384 verification over SHA-384 (R60, R61): key, message, signature. -/
opaque ecdsaOk : Bytes → Bytes → Bytes → Bool

/-- An ML-DSA-87 signature by the ALIAS key of a context (the hash of the firmware record) over a message (R650, R661). -/
opaque mldsaSign : Bytes → Bytes → Bytes

/-- An ECDSA P-384 signature by the ALIAS key of a context over a message (R650, R658). -/
opaque ecdsaSign : Bytes → Bytes → Bytes

/-- The slot 0 certificate chain, and the ML-DSA-87 chain that matches it, with the ALIAS key of a context (R658, R661). -/
opaque certChain : Bytes → Bytes

/-- The ML-DSA-87 chain of a context. -/
opaque pqChain : Bytes → Bytes

/-- The public key agreement key of an instance and INST_EPOCH: ML-KEM-1024 and P-384 (R650, R659). -/
opaque kakPublic : Nat → Nat → Bytes × Bytes

/-- The content of SPDM CAPABILITIES, which the spec leaves to the standard (R658). -/
opaque spdmCaps : Bytes

/-- A port's address from the device serial number (R617). -/
opaque macOf : Nat → Nat → Nat

/-- RFC 5649 unwrap of a wrapped key under a key; `none` when its integrity check fails (R59, R69). -/
opaque unwrap5649 : Bytes → Bytes → Option Bytes

/-- Keys that the trust unit derives from the device-unique secret, by purpose (R648): 0 the device stream key (R69),
1 the slot-table key (R383), 2 the context key (R399), 3 the digest save key (R428). -/
opaque deviceKey : Nat → Bytes

/-- The wrapping key that the trust unit derives from bytes 0–1,699 of a key blob under the key agreement key of
(instance, epoch), or `none` where the decapsulation or the point fails (R666 steps 2 and 3). -/
opaque kakWrap : Nat → Nat → Bytes → Option Bytes

/-- The LDPC parity bytes of a codeword under a CODE of R249, from its data and spare field: the spec states how many they
are, not the code (log 175). -/
opaque ldpcParity : Nat → Bytes → Bytes

/-- What the LZ coder with its table-based entropy stage, METHOD 0x01, makes of some bytes (R273, R344). -/
opaque lzCode : Bytes → Bytes

/-- What a METHOD 0x01 decoder makes of compressed bytes, unbounded (R352, R354). -/
opaque lzDecode : Bytes → Bytes

/-- The n-th candidate that the loader stores rereads with its CHECKs: what the media gave back is not the spec's to say (R87,
log 174). -/
opaque rereadHolds : Nat → Bool

/-- The n-th free byte: an undefined value (log 9). -/
opaque freeByte : Nat → Byte

/-- Whether the NOR device fails at its n-th use that the model asks about (R725): a free value (log 130). -/
opaque norFails : Nat → Bool

/-- The n-th free number: an undefined value (log 9). -/
opaque freeNat : Nat → Nat

/-- The SEVERITY of the record numbered n, before it is cut to 0–2, where the spec states none for its event (R720, log 91). -/
opaque freeSeverity : Nat → Nat

/-- The registered Stebeun key hash of an index, held in boot ROM (R62). -/
opaque stebeunHash : Nat → Bytes

/-- The data offset within its channel of a page of an instance's local memory (R542, log 50). -/
opaque dramOffset : Nat → Nat → Nat

/-- Where a 4 KiB page of the usable device DRAM lies that holds local memory: its instance and page (R543 gives the order in which
the areas are carved, and no address of any of them). A free value. -/
opaque dramPage : Nat → Nat × Nat

/-- What host memory holds, as a 64-bit little-endian number, at an address of a function's address space (the key of a port
and an instance, then the address), where the device reads it for its own lists (PRP lists, segments: log 42). -/
opaque hostWord : Nat → Nat → Nat

/-- SHA-384 of the fuse image, whose layout the spec does not give, from the fuse values (R654). -/
opaque fuseDigest : Bytes → Bytes

/-- The ROM version that measurement index 1 carries (R655). -/
opaque romVersion : Nat

/-- Where a system core builds the data block list of a command with PRP addressing, in units of 4 bytes, by the command's
number (R569, log 42). -/
opaque coreList : Nat → Nat

/-- CAP of an NVMe controller but for the fields that the manual gives, and VS (R560, log 41). -/
opaque nvmeCap : Nat

/-- VS of an NVMe controller (log 41). -/
opaque nvmeVersion : Nat

end Sys2Proof.Config
end

