-- ==== Sys2Proof/Machine/Bits.lean ====
section
/-! DEFINITION. Bit fields of numbers, little-endian bytes, and CRC-32C: the helpers that every family uses. -/

namespace Sys2Proof

/-- Bits [hi:lo] of the number `n` (00_scope.md: bit 0 is the least significant). -/
def fld (n hi lo : Nat) : Nat := n / 2 ^ lo % 2 ^ (hi - lo + 1)

/-- Bit `b` of `n`. -/
def bitOf (n b : Nat) : Bool := n.testBit b

/-- `n` with bits [hi:lo] replaced by `v`. -/
def setFld (n hi lo v : Nat) : Nat :=
  n - fld n hi lo * 2 ^ lo + v % 2 ^ (hi - lo + 1) * 2 ^ lo

/-- 1 or 0. -/
def b2n (b : Bool) : Nat := if b then 1 else 0

/-- The number that bytes spell, byte 0 least significant. -/
def leNat : Bytes → Nat
  | [] => 0
  | b :: t => b.toNat + 256 * leNat t

/-- `n` bytes of the number `v`, byte 0 least significant. -/
def natLe : Nat → Nat → Bytes
  | 0, _ => []
  | n + 1, v => BitVec.ofNat 8 v :: natLe n (v / 256)

/-- `n` bytes from offset `off`; bytes beyond the end read 0. -/
def slice (bs : Bytes) (off n : Nat) : Bytes :=
  let t := (bs.drop off).take n
  t ++ List.replicate (n - t.length) 0#8

/-- The little-endian number of `n` bytes at offset `off`. -/
def leAt (bs : Bytes) (off n : Nat) : Nat := leNat (slice bs off n)

/-- Exactly `n` bytes: cut, or filled up with zeros. -/
def fit (n : Nat) (bs : Bytes) : Bytes := slice bs 0 n

/-- `n` zero bytes. -/
def zeros (n : Nat) : Bytes := List.replicate n 0#8

/-- Every byte of `bs` at [off, off+n) is 0. -/
def isZero (bs : Bytes) (off n : Nat) : Bool := (slice bs off n).all (· == 0#8)

/-- Replace the bytes of `bs` from `off` on by `new`. -/
def patch (bs : Bytes) (off : Nat) (new : Bytes) : Bytes :=
  slice bs 0 off ++ new ++ bs.drop (off + new.length)

/-- Cut into pieces of `n` bytes (the last may be shorter), at most `fuel` pieces. -/
def chunks (n : Nat) : Nat → Bytes → List Bytes
  | 0, _ => []
  | fuel + 1, bs => if bs.isEmpty then [] else bs.take n :: chunks n fuel (bs.drop n)

/-- Bytewise exclusive or. -/
def xorBytes : Bytes → Bytes → Bytes
  | a :: s, b :: t => (a ^^^ b) :: xorBytes s t
  | _, _ => []

/-- Started units of `d`. -/
def ceilDiv (n d : Nat) : Nat := (n + d - 1) / d

/-- A saturating sum in `w` bits. -/
def satAdd (w n k : Nat) : Nat := min (n + k) (2 ^ w - 1)

/-- Insert `x` before the first element of a sorted list that `le` puts at or after it. -/
def insertBy {α : Type} (le : α → α → Bool) (x : α) : List α → List α
  | [] => [x]
  | y :: t => if le x y then x :: y :: t else y :: insertBy le x t

/-- The list sorted by `le`; elements that `le` holds equal keep their order. -/
def sortBy {α : Type} (le : α → α → Bool) : List α → List α
  | [] => []
  | x :: t => insertBy le x (sortBy le t)

/-- Eight shifts of the reflected CRC-32C register. -/
def crcShift : Nat → BitVec 32 → BitVec 32
  | 0, c => c
  | n + 1, c => crcShift n (if c.getLsbD 0 then (c >>> 1) ^^^ 0x82F63B78#32 else c >>> 1)

/-- CRC-32C (Castagnoli): initial value and final exclusive or all ones, reflected. -/
def crc32c (bs : Bytes) : BitVec 32 :=
  ~~~ (bs.foldl (fun c b => crcShift 8 (c ^^^ b.setWidth 32)) 0xFFFFFFFF#32)

/-- Bytes of an ASCII string. -/
def ascii (s : String) : Bytes := s.toList.map (fun c => BitVec.ofNat 8 c.toNat)

end Sys2Proof
end

