-- ==== Sys2Proof/Machine/Crypto.lean ====
section
/-! DEFINITION. The modes that the engines compute over the opaque AES and hash functions of Config: AES-XTS with
ciphertext stealing (R388), AES-GCM (R392), HMAC (R421). -/

namespace Sys2Proof

/-- AES-256 of one block, as 16 bytes. -/
def aesE (k b : Bytes) : Bytes := fit 16 (Config.aesEnc k b)

/-- The inverse of AES-256 on one block, as 16 bytes. -/
def aesD (k b : Bytes) : Bytes := fit 16 (Config.aesDec k b)

/-- The XTS tweak of the next block: a doubling in GF(2^128), little-endian (IEEE 1619). -/
def xtsDouble (t : Bytes) : Bytes :=
  let n := leNat t
  natLe 16 (if n < 2 ^ 127 then 2 * n else (2 * n - 2 ^ 128).xor 0x87)

/-- One XTS block under Key1 and a tweak. -/
def xtsBlock (enc : Bool) (k1 t b : Bytes) : Bytes :=
  xorBytes (if enc then aesE k1 (xorBytes b t) else aesD k1 (xorBytes b t)) t

/-- The blocks of one data unit: whole blocks in turn, the last two with ciphertext stealing where the last is short. -/
def xtsBlocks (enc : Bool) (k1 : Bytes) : Nat → Bytes → Bytes → Bytes
  | 0, _, _ => []
  | f + 1, t, bs =>
    if bs.isEmpty then []
    else if bs.length < 32 ∧ bs.length ≠ 16 ∧ 16 < bs.length then
      let r := bs.length - 16
      let t1 := if enc then t else xtsDouble t
      let t2 := if enc then xtsDouble t else t
      let c := xtsBlock enc k1 t1 (bs.take 16)
      xtsBlock enc k1 t2 (bs.drop 16 ++ c.drop r) ++ c.take r
    else xtsBlock enc k1 t (bs.take 16) ++ xtsBlocks enc k1 f (xtsDouble t) (bs.drop 16)

/-- AES-256-XTS of one data unit under a 64-byte key (Key1, then Key2 for the tweak), by its number (R370, R388). -/
def xts (enc : Bool) (key : Bytes) (dun : Nat) (bs : Bytes) : Bytes :=
  xtsBlocks enc (slice key 0 32) (bs.length / 16 + 1) (aesE (slice key 32 32) (natLe 16 dun)) bs

/-- The number that 16 bytes spell, byte 0 most significant. -/
def beNat (bs : Bytes) : Nat := leNat bs.reverse

/-- `n` bytes of a number, most significant first. -/
def natBe (n v : Nat) : Bytes := (natLe n v).reverse

/-- Multiplication in GHASH's GF(2^128): `x` bit by bit from its most significant bit, `v` halved each time. -/
def ghashMul : Nat → Nat → Nat → Nat → Nat
  | 0, _, _, z => z
  | f + 1, x, v, z =>
    ghashMul f x (if v % 2 = 1 then (v / 2).xor (0xE1 * 2 ^ 120) else v / 2) (if x.testBit f then z.xor v else z)

/-- GHASH over whole or short blocks from an accumulator (NIST SP 800-38D). -/
def ghash (h : Nat) (acc : Nat) (bs : Bytes) : Nat :=
  (chunks 16 (bs.length / 16 + 1) bs).foldl (fun y b => ghashMul 128 (y.xor (beNat (fit 16 b))) h 0) acc

/-- The counter block after `c`: the low 32 bits, big-endian, plus `k`. -/
def ctrAdd (c : Bytes) (k : Nat) : Bytes := c.take 12 ++ natBe 4 ((beNat (c.drop 12) + k) % 2 ^ 32)

/-- Counter mode from counter block `c`. -/
def gctr (key : Bytes) : Nat → Bytes → Bytes → Bytes
  | 0, _, _ => []
  | f + 1, c, bs =>
    if bs.isEmpty then []
    else xorBytes (bs.take 16) (aesE key c) ++ gctr key f (ctrAdd c 1) (bs.drop 16)

/-- The hash subkey H. -/
def gcmH (key : Bytes) : Nat := beNat (aesE key (zeros 16))

/-- J0 of a 96-bit IV. -/
def gcmJ0 (iv : Bytes) : Bytes := fit 12 iv ++ natBe 4 1

/-- The tag from the GHASH accumulator over data and text, and their lengths in bytes. -/
def gcmTag (key j0 : Bytes) (acc aadLen textLen : Nat) : Bytes :=
  let y := ghashMul 128 (acc.xor (aadLen * 8 * 2 ^ 64 + textLen * 8)) (gcmH key) 0
  xorBytes (natBe 16 y) (aesE key j0)

/-- AES-256-GCM encryption: ciphertext and tag. -/
def gcmSeal (key iv aad text : Bytes) : Bytes × Bytes :=
  let j0 := gcmJ0 iv
  let c := gctr key (text.length / 16 + 1) (ctrAdd j0 1) text
  let acc := ghash (gcmH key) (ghash (gcmH key) 0 aad) c
  (c, gcmTag key j0 acc aad.length text.length)

/-- AES-256-GCM decryption: the text where the tag is right. -/
def gcmOpen (key iv aad c tag : Bytes) : Option Bytes :=
  let j0 := gcmJ0 iv
  let acc := ghash (gcmH key) (ghash (gcmH key) 0 aad) c
  if gcmTag key j0 acc aad.length c.length = tag then
    some (gctr key (c.length / 16 + 1) (ctrAdd j0 1) c)
  else none

/-- Digest bytes and block bytes of an ALG (R415); (0, 0) where it is reserved. -/
def algSizes (alg : Nat) : Nat × Nat :=
  match alg with
  | 0x01 | 0x11 => (32, 64)
  | 0x02 | 0x12 => (48, 128)
  | 0x03 | 0x13 => (64, 128)
  | 0x04 => (32, 136)
  | 0x05 => (64, 72)
  | _ => (0, 0)

/-- The plain algorithm under an HMAC code. -/
def algBase (alg : Nat) : Nat := alg % 16

/-- Bytes of the chaining or sponge state of a plain algorithm (PRESUMED of the standards that R415 names, log 221). -/
def stateSize (alg : Nat) : Nat := match alg with | 0x01 => 32 | 0x02 | 0x03 => 64 | _ => 200

/-- The initial state of a plain algorithm. -/
def hashSeed (alg : Nat) : Bytes := fit (stateSize alg) (Config.hashInit alg)

/-- The state after one more block. -/
def hashNext (alg : Nat) (st blk : Bytes) : Bytes := fit (stateSize alg) (Config.hashStep alg st blk)

/-- Absorb whole blocks of `buf` into a state: the state and what is left. -/
def hashAbsorb (alg : Nat) : Nat → Bytes → Bytes → Bytes × Bytes
  | 0, st, buf => (st, buf)
  | f + 1, st, buf =>
    let n := (algSizes alg).2
    if n = 0 ∨ buf.length < n then (st, buf) else hashAbsorb alg f (hashNext alg st (buf.take n)) (buf.drop n)

/-- The digest from a state that has absorbed `before` bytes, and the rest of the message. -/
def hashRest (alg : Nat) (st : Bytes) (before : Nat) (bs : Bytes) : Bytes :=
  let r := hashAbsorb alg (bs.length + 1) st bs
  fit (algSizes alg).1 (Config.hashFinal alg r.1 r.2 (before + bs.length))

/-- The digest of a message (R415). -/
def hashOf (alg : Nat) (bs : Bytes) : Bytes := hashRest alg (hashSeed alg) 0 bs

/-- A key padded to the block, hashed first where it is longer (RFC 2104). -/
def hmacKey (alg : Nat) (key : Bytes) : Bytes :=
  let b := (algSizes alg).2
  fit b (if b < key.length then hashOf (algBase alg) key else key)

/-- The inner (0x36) or outer (0x5C) key state (R421). -/
def hmacState (alg pad : Nat) (key : Bytes) : Bytes :=
  hashNext (algBase alg) (hashSeed (algBase alg))
    ((hmacKey alg key).map (fun b => b ^^^ BitVec.ofNat 8 pad))

/-- The HMAC from the outer key state and the inner digest. -/
def hmacClose (alg : Nat) (outer inner : Bytes) : Bytes := hashRest (algBase alg) outer (algSizes alg).2 inner

/-- HMAC of a message (R415, R421). -/
def hmacOf (alg : Nat) (key bs : Bytes) : Bytes :=
  hmacClose alg (hmacState alg 0x5C key)
    (hashRest (algBase alg) (hmacState alg 0x36 key) (algSizes alg).2 bs)

/-- SHA-384. -/
def sha384 (bs : Bytes) : Bytes := hashOf 2 bs

end Sys2Proof
end

