-- ==== Sys2Proof/Machine/GoleyCode.lean ====
section
/-! DEFINITION. The bytes of Goley instructions: formats, prefixes, sizes, decoding with its traps, and the encoder
(14_goley_instructions.md, R501–R508, R528, R529). -/

namespace Sys2Proof

/-- The operand formats of R506. -/
inductive GFmt where
  | n | g2 | g3 | g4 | i | gi | m | c | k | b | j
deriving DecidableEq, Repr

/-- The format of an opcode (the escaped ones as 0xE000 + second byte); none where it is reserved (R504, R505). -/
def gFmt (op : Nat) : Option GFmt :=
  if op < 0x01 then none
  else if op ≤ 0x05 then some .n
  else if op ≤ 0x07 then some .c
  else if op < 0x10 then none
  else if op ≤ 0x1A then some .g3
  else if op ≤ 0x1D then some .g4
  else if op ≤ 0x1F then some .g2
  else if op < 0x30 then none
  else if op ≤ 0x35 then some .g3
  else if op < 0x40 then none
  else if op ≤ 0x4D then some .gi
  else if op = 0x4E then some .i
  else if op < 0x60 then none
  else if op ≤ 0x66 then some .m
  else if op = 0x67 then none
  else if op ≤ 0x6B then some .m
  else if op < 0x70 then none
  else if op ≤ 0x76 then some .m
  else if op = 0x77 then none
  else if op ≤ 0x7B then some .m
  else if op < 0x80 then none
  else if op ≤ 0x81 then some .g3
  else if op = 0x82 then some .k
  else if op < 0x90 then none
  else if op = 0x90 then some .b
  else if op = 0x91 then some .j
  else if op = 0x92 then some .g2
  else if op < 0xE001 then none
  else if op ≤ 0xE004 then some .g2
  else if op = 0xE010 then some .g3
  else if op = 0xE011 then some .n
  else if op = 0xE012 then some .m
  else none

/-- An update form (0x70–0x7B): the base register receives ea (R520). -/
def gUpdates (op : Nat) : Bool := decide (0x70 ≤ op) && decide (op ≤ 0x7B)

/-- A store form: its first register is a source (R506, R520). -/
def gStores (op : Nat) : Bool :=
  (decide (0x68 ≤ op) && decide (op ≤ 0x6B)) || (decide (0x78 ≤ op) && decide (op ≤ 0x7B))

/-- The general registers that the instruction would write (R529). -/
def gWrites (op : Nat) : GArgs → List Nat
  | .n => []
  | .g2 d _ => [d.val]
  | .g3 d _ _ => if op = 0x80 ∨ op = 0x81 then [] else [d.val]
  | .g4 d e _ _ => [d.val, e.val]
  | .i d _ _ => [d.val]
  | .gi d _ _ _ => [d.val]
  | .m d b _ _ =>
    (if gStores op then [] else [d.val]) ++ (if gUpdates op || op == 0xE012 then [b.val] else [])
  | .c r _ => if op = 0x06 then [r.val] else []
  | .k _ _ _ _ => []
  | .b _ _ _ _ _ => []
  | .j d _ _ => [d.val]

/-- The prefixes that the instruction's class accepts (R528). -/
def gPrefixOk (op : Nat) (p : GPre) : Bool :=
  let rep := (decide (0x10 ≤ op) && decide (op ≤ 0x7B)) || (decide (0xE001 ≤ op) && decide (op ≤ 0xE004)) ||
    op == 0xE012
  let w32 := (decide (0x10 ≤ op) && decide (op ≤ 0x4E)) || (decide (0x80 ≤ op) && decide (op ≤ 0x82)) ||
    (decide (0xE001 ≤ op) && decide (op ≤ 0xE004))
  let mem := (decide (0x60 ≤ op) && decide (op ≤ 0x7B)) || op == 0xE012
  (!p.rep || rep) && (!p.w32 || w32) && (p.mod.isNone || mem) && (!p.rev || (mem && p.mod.isSome))

/-- The size code is one that the format allows (R506, R507). -/
def gSizeOk : GArgs → Bool
  | .i _ z _ => decide (z.val ≤ 4)
  | .gi _ _ z _ => decide (z.val ≤ 4)
  | .m _ _ z _ => decide (z.val ≤ 4)
  | .k _ z _ _ => decide (z.val ≤ 3)
  | .b _ cc _ z _ => decide (cc.val ≤ 5) && decide (1 ≤ z.val) && decide (z.val ≤ 3)
  | .j _ z _ => decide (1 ≤ z.val) && decide (z.val ≤ 3)
  | _ => true

/-- d = b in an update-form load or in CPX (R508 step 3). -/
def gSameBase (i : GIns) : Bool :=
  match i.args with
  | .m d b _ _ => ((decide (0x70 ≤ i.op) && decide (i.op ≤ 0x76)) || i.op == 0xE012) && d == b
  | _ => false

/-- The trap that decoding raises for a defined encoding, if any (R508 steps 2 to 4 and R529): ILLEGAL 0x01,
ILLEGAL_PREFIX 0x02. `inSlot`: the instruction stands in a delay slot. -/
def gDecodeTrap (i : GIns) (inSlot : Bool) : Option Nat :=
  if gFmt i.op = none || !gSizeOk i.args then some 0x01
  else if gSameBase i then some 0x01
  else if !gPrefixOk i.op i.pre then some 0x02
  else if i.pre.rep && ((gWrites i.op i.args).contains 29 || inSlot) then some 0x02
  else none

/-- Immediate bytes of a size code (R507). -/
def gImmBytes (z : Nat) : Nat := if z = 0 then 0 else 2 ^ (z - 1)

/-- An immediate of `n` bytes, sign-extended (R507). -/
def gImm (n : Nat) (bs : Bytes) : BitVec 64 :=
  let v := leAt bs 0 n
  if n = 0 then 0 else if v < 2 ^ (8 * n - 1) then BitVec.ofNat 64 v
  else BitVec.ofInt 64 ((v : Int) - 2 ^ (8 * n))

/-- The value a size code gives an immediate: what its bytes hold, sign-extended (R507). -/
def gImmFits (z : Nat) (v : BitVec 64) : Bool := gImm (gImmBytes z) (natLe (gImmBytes z) v.toNat) == v

/-- Prefix bytes in one order: REP, W32, REV, MOD (R502). -/
def gPreBytes (p : GPre) : Bytes :=
  (if p.rep then [0xF0#8] else []) ++ (if p.w32 then [0xF1#8] else []) ++ (if p.rev then [0xF2#8] else []) ++
  (match p.mod with | some n => [BitVec.ofNat 8 (0xF4 + n.val)] | none => [])

/-- Opcode bytes (R501). -/
def gOpBytes (op : Nat) : Bytes :=
  if 0xE000 ≤ op then [0xE0#8, BitVec.ofNat 8 (op - 0xE000)] else [BitVec.ofNat 8 op]

/-- A register byte. -/
def gReg (r : Fin 32) : Byte := BitVec.ofNat 8 r.val

/-- A register byte with a size or condition code in [7:5]. -/
def gRegZ (r : Fin 32) (z : Fin 8) : Byte := BitVec.ofNat 8 (r.val + 32 * z.val)

/-- Operand bytes (R506). -/
def gArgBytes : GArgs → Bytes
  | .n => []
  | .g2 d a => [gReg d, gReg a]
  | .g3 d a b => [gReg d, gReg a, gReg b]
  | .g4 d e a b => [gReg d, gReg e, gReg a, gReg b]
  | .i d z v => gRegZ d z :: natLe (gImmBytes z.val) v.toNat
  | .gi d a z v => gReg d :: gRegZ a z :: natLe (gImmBytes z.val) v.toNat
  | .m d b z v => gReg d :: gRegZ b z :: natLe (gImmBytes z.val) v.toNat
  | .c r n => [gReg r, n]
  | .k a z lo hi => gRegZ a z :: (natLe (gImmBytes z.val) lo.toNat ++ natLe (gImmBytes z.val) hi.toNat)
  | .b a cc b z v => gRegZ a cc :: gRegZ b z :: natLe (gImmBytes z.val) v.toNat
  | .j d z v => gRegZ d z :: natLe (gImmBytes z.val) v.toNat

/-- The bytes of an instruction (R501). -/
def gEncode (i : GIns) : Bytes := gPreBytes i.pre ++ gOpBytes i.op ++ gArgBytes i.args

/-- The length of an instruction in bytes. -/
def gLen (i : GIns) : Nat := (gEncode i).length

/-- What decoding answers: an instruction with its length, or the trap (R508 steps 2 to 4). -/
inductive GDec where
  | ok (i : GIns) (len : Nat)
  | trap (code : Nat)
deriving DecidableEq, Repr

/-- The prefix bytes: the prefixes seen, whether one stood twice, the bytes after them; a reserved prefix byte is
ILLEGAL, a fifth prefix byte is a repetition (R502, R503). -/
def gPrefixes : Nat → GPre → Bool → Bytes → Option (GPre × Bool × Bytes)
  | 0, p, twice, bs =>
    match bs with
    | b :: _ =>
      if b.toNat < 0xF0 then some (p, twice, bs)
      else if b.toNat = 0xF3 ∨ 0xF8 ≤ b.toNat then none
      else some (p, true, [])
    | [] => some (p, twice, [])
  | f + 1, p, twice, bs =>
    match bs with
    | [] => some (p, twice, [])
    | b :: t =>
      let v := b.toNat
      if v < 0xF0 then some (p, twice, bs)
      else if v = 0xF0 then gPrefixes f { p with rep := true } (twice || p.rep) t
      else if v = 0xF1 then gPrefixes f { p with w32 := true } (twice || p.w32) t
      else if v = 0xF2 then gPrefixes f { p with rev := true } (twice || p.rev) t
      else if h : 0xF4 ≤ v ∧ v ≤ 0xF7 then
        gPrefixes f { p with mod := some ⟨v - 0xF4, by omega⟩ } (twice || p.mod.isSome) t
      else none

/-- The register of a byte. -/
def gRegOf (b : Byte) : Fin 32 := ⟨b.toNat % 32, by omega⟩

/-- The code in bits [7:5] of a byte. -/
def gZOf (b : Byte) : Fin 8 := ⟨b.toNat / 32 % 8, by omega⟩

/-- The operands of a format, read from the bytes after the opcode; none where a reserved bit is 1. -/
def gArgs (f : GFmt) (bs : Bytes) : Option GArgs :=
  let byte := fun k => (slice bs k 1).headD 0#8
  let plain := fun k => decide ((byte k).toNat < 32)
  let z1 := (gZOf (byte 1)).val
  let z0 := (gZOf (byte 0)).val
  match f with
  | .n => some .n
  | .g2 => if plain 0 && plain 1 then some (.g2 (gRegOf (byte 0)) (gRegOf (byte 1))) else none
  | .g3 =>
    if plain 0 && plain 1 && plain 2 then some (.g3 (gRegOf (byte 0)) (gRegOf (byte 1)) (gRegOf (byte 2))) else none
  | .g4 =>
    if plain 0 && plain 1 && plain 2 && plain 3 then
      some (.g4 (gRegOf (byte 0)) (gRegOf (byte 1)) (gRegOf (byte 2)) (gRegOf (byte 3))) else none
  | .i => some (.i (gRegOf (byte 0)) (gZOf (byte 0)) (gImm (gImmBytes z0) (bs.drop 1)))
  | .gi =>
    if plain 0 then some (.gi (gRegOf (byte 0)) (gRegOf (byte 1)) (gZOf (byte 1)) (gImm (gImmBytes z1) (bs.drop 2)))
    else none
  | .m =>
    if plain 0 then some (.m (gRegOf (byte 0)) (gRegOf (byte 1)) (gZOf (byte 1)) (gImm (gImmBytes z1) (bs.drop 2)))
    else none
  | .c => if plain 0 then some (.c (gRegOf (byte 0)) (byte 1)) else none
  | .k =>
    let n := gImmBytes z0
    some (.k (gRegOf (byte 0)) (gZOf (byte 0)) (gImm n (bs.drop 1)) (gImm n (bs.drop (1 + n))))
  | .b =>
    some (.b (gRegOf (byte 0)) (gZOf (byte 0)) (gRegOf (byte 1)) (gZOf (byte 1)) (gImm (gImmBytes z1) (bs.drop 2)))
  | .j => some (.j (gRegOf (byte 0)) (gZOf (byte 0)) (gImm (gImmBytes z0) (bs.drop 1)))

/-- The operand bytes of a format before its immediates (R506). -/
def gFixed : GFmt → Nat
  | .n => 0
  | .i | .j | .k => 1
  | .g2 | .gi | .m | .c | .b => 2
  | .g3 => 3
  | .g4 => 4

/-- The bytes fetched to find the length of an instruction, as far as its bytes tell it (R507, R508 step 1): a reserved prefix,
a fifth prefix, a reserved opcode or size code ends the search. -/
def gNeed (bs : Bytes) : Nat :=
  let n := (bs.takeWhile (fun b => decide (0xF0 ≤ b.toNat))).length
  if 4 < n then 5
  else match (bs.take n).findIdx? (fun b => b.toNat == 0xF3 || decide (0xF8 ≤ b.toNat)) with
    | some i => i + 1
    | none =>
      let esc := leAt bs n 1 == 0xE0
      let at0 := n + 1 + (if esc then 1 else 0)
      match gFmt (if esc then 0xE000 + leAt bs (n + 1) 1 else leAt bs n 1) with
      | none => at0
      | some f =>
        let z := leAt bs (at0 + gFixed f - 1) 1 / 32
        at0 + gFixed f +
          (match f with
          | .i | .j | .gi | .m | .b => if z ≤ 4 then gImmBytes z else 0
          | .k => if z ≤ 3 then 2 * gImmBytes z else 0
          | _ => 0)

/-- Decode the 16 bytes at pc (R501–R508); `inSlot` as for `gDecodeTrap`. -/
def gDecode (bs : Bytes) (inSlot : Bool) : GDec :=
  match gPrefixes 4 {} false bs with
  | none => .trap 0x01
  | some (p, twice, rest) =>
    match rest with
    | [] => .trap (if twice then 0x02 else 0x01)
    | b :: t =>
      let esc := decide (b.toNat = 0xE0)
      let op := if esc then 0xE000 + leAt t 0 1 else b.toNat
      match gFmt op with
      | none => .trap 0x01
      | some f =>
        match gArgs f (if esc then t.drop 1 else t) with
        | none => .trap 0x01
        | some a =>
          let i : GIns := { pre := p, op := op, args := a }
          if !gSizeOk a || gSameBase i then .trap 0x01
          else if twice then .trap 0x02
          else match gDecodeTrap i inSlot with
            | some c => .trap c
            | none => .ok i (gLen i)

end Sys2Proof
end

