-- ==== Sys2Proof/Machine/RegMap.lean ====
section
/-! DEFINITION. The register map of the AE9632: every register of BAR0 (and of the instance page) as data, from the
register tables of the chapters: its address, arrays, commit group and fields with their access types and reset
values. The page of instance i stands at 0x1000_0000 + i × 0x1_0000 (a key of the model, R601). -/

namespace Sys2Proof

/-- The access types of R9. -/
inductive Access where
  | ro | rw | wo | w1c | rc | rws
deriving DecidableEq, Repr

/-- One field: bits [hi:lo], access type and reset value. Bits of no field are reserved (R10). -/
structure RegField where
  name : String
  hi : Nat
  lo : Nat
  acc : Access
  reset : Nat
deriving DecidableEq, Repr

/-- A register or an array of registers: element (i, j) stands at base + i × stride + j × stride2, and the COMMIT
register of its group at commit + i × commitStride (0: no group). -/
structure RegRow where
  name : String
  base : Nat
  count : Nat
  stride : Nat
  count2 : Nat
  stride2 : Nat
  commit : Nat
  commitStride : Nat
  fields : List RegField
deriving DecidableEq, Repr

/-! The addresses of the registers (of element 0 of an array). -/

abbrev Reg.DEV_UNIT_ROLE : Nat := 0x1000
abbrev Reg.DEV_UNIT_GEN : Nat := 0x1004
abbrev Reg.DEV_IDENT : Nat := 0
abbrev Reg.DEV_REVISION : Nat := 4
abbrev Reg.DEV_SERIAL_LO : Nat := 8
abbrev Reg.DEV_SERIAL_HI : Nat := 12
abbrev Reg.DEV_LEVEL : Nat := 0x10
abbrev Reg.DEV_COUNTS : Nat := 0x14
abbrev Reg.CFG_STATUS : Nat := 0x100000
abbrev Reg.CFG_LOAD_ADDR_LO : Nat := 0x100010
abbrev Reg.CFG_LOAD_ADDR_HI : Nat := 0x100014
abbrev Reg.CFG_LOAD_LEN : Nat := 0x100018
abbrev Reg.CFG_LOAD_TARGET : Nat := 0x10001c
abbrev Reg.CFG_LOAD_COOKIE : Nat := 0x100020
abbrev Reg.CFG_RESULT : Nat := 0x100030
abbrev Reg.CFG_RESULT_COOKIE : Nat := 0x100034
abbrev Reg.CFG_REJECT : Nat := 0x100040
abbrev Reg.CFG_REJECT_DETAIL : Nat := 0x100044
abbrev Reg.CFG_ACTIVE_SEQ_LO : Nat := 0x100050
abbrev Reg.CFG_ACTIVE_SEQ_HI : Nat := 0x100054
abbrev Reg.CFG_CANDIDATE_SEQ_LO : Nat := 0x100058
abbrev Reg.CFG_CANDIDATE_SEQ_HI : Nat := 0x10005c
abbrev Reg.CFG_FLOOR_LO : Nat := 0x100060
abbrev Reg.CFG_FLOOR_HI : Nat := 0x100064
abbrev Reg.FAB_STATUS : Nat := 0x200000
abbrev Reg.FAB_FEN_STATUS : Nat := 0x201000
abbrev Reg.FAB_FEN_CFG : Nat := 0x201004
abbrev Reg.FAB_FEN_CLOCK : Nat := 0x20100c
abbrev Reg.FAB_FEN_ALIAS : Nat := 0x201010
abbrev Reg.FAB_FEN_USAGE : Nat := 0x201014
abbrev Reg.FAB_FEN_MEM : Nat := 0x201018
abbrev Reg.FAB_FEN_POWER : Nat := 0x20101c
abbrev Reg.FAB_FEN_PORTERR : Nat := 0x201020
abbrev Reg.FAB_FEN_IMAGE_ID0 : Nat := 0x201024
abbrev Reg.FAB_FEN_IMAGE_ID1 : Nat := 0x201028
abbrev Reg.FAB_FEN_IMAGE_ID2 : Nat := 0x20102c
abbrev Reg.FAB_FEN_IMAGE_ID3 : Nat := 0x201030
abbrev Reg.FAB_FEN_CTLWIN : Nat := 0x208000
abbrev Reg.SBX_EPOCH_CTL : Nat := 0x300000
abbrev Reg.SBX_SMALL_LIMIT : Nat := 0x300004
abbrev Reg.SBX_EPOCH_COUNT_LO : Nat := 0x300010
abbrev Reg.SBX_EPOCH_COUNT_HI : Nat := 0x300014
abbrev Reg.SBX_ALLOWANCE : Nat := 0x300018
abbrev Reg.SBX_REMAINING : Nat := 0x30001c
abbrev Reg.SBX_CLASS_GATE : Nat := 0x300020
abbrev Reg.SBX_WB_LIMIT : Nat := 0x300024
abbrev Reg.SBX_DIRTY : Nat := 0x300028
abbrev Reg.SBX_TICKETS : Nat := 0x30002c
abbrev Reg.SBX_WAITING : Nat := 0x300030
abbrev Reg.SBX_EVENTS : Nat := 0x300034
abbrev Reg.SBX_SIDING_STATUS : Nat := 0x300040
abbrev Reg.SBX_SIDING_POP : Nat := 0x300044
abbrev Reg.SBX_SIDING_HEAD : Nat := 0x300060
abbrev Reg.SBX_SIDING_DATA : Nat := 0x306000
abbrev Reg.SBX_SHARE : Nat := 0x301000
abbrev Reg.SBX_TICKET_LIMIT : Nat := 0x302000
abbrev Reg.SBX_CREDIT : Nat := 0x303000
abbrev Reg.SBX_INST_STATUS : Nat := 0x304000
abbrev Reg.SBX_STATION : Nat := 0x305000
abbrev Reg.PWR_STATUS : Nat := 0x400000
abbrev Reg.PWR_PEAT_FUSE : Nat := 0x400004
abbrev Reg.PWR_PEAT_CFG : Nat := 0x400010
abbrev Reg.PWR_CHARGER_CFG : Nat := 0x400014
abbrev Reg.PWR_LEDGER_CFG : Nat := 0x400020
abbrev Reg.PWR_FLUSH_NJ : Nat := 0x400024
abbrev Reg.PWR_WB_CAP : Nat := 0x400028
abbrev Reg.PWR_SLOT_CFG : Nat := 0x400030
abbrev Reg.PWR_THERM_CFG : Nat := 0x400038
abbrev Reg.PWR_GATE_POLICY : Nat := 0x400040
abbrev Reg.PWR_MEAS_CTL : Nat := 0x400048
abbrev Reg.PWR_MEAS_STATUS : Nat := 0x40004c
abbrev Reg.PWR_VIN : Nat := 0x400050
abbrev Reg.PWR_PEAT_MV : Nat := 0x400054
abbrev Reg.PWR_CAP_UF : Nat := 0x400058
abbrev Reg.PWR_USABLE_MJ : Nat := 0x40005c
abbrev Reg.PWR_FULL_MJ : Nat := 0x400060
abbrev Reg.PWR_RESERVE_MJ : Nat := 0x400064
abbrev Reg.PWR_WB_KIB : Nat := 0x400068
abbrev Reg.PWR_FLUSH_NJ_MEAS : Nat := 0x40006c
abbrev Reg.PWR_IN_MW : Nat := 0x400070
abbrev Reg.PWR_CHG_MW : Nat := 0x400074
abbrev Reg.PWR_BASE_MW : Nat := 0x400078
abbrev Reg.PWR_TICK_MW : Nat := 0x40007c
abbrev Reg.PWR_DIE_MW : Nat := 0x400080
abbrev Reg.PWR_TEMP : Nat := 0x400100
abbrev Reg.PWR_CLASS_MJ : Nat := 0x400204
abbrev Reg.PWR_ISLAND : Nat := 0x401000
abbrev Reg.FCH_STATUS : Nat := 0x500000
abbrev Reg.FCH_PARITY_STATUS : Nat := 0x500010
abbrev Reg.FCH_REBUILD : Nat := 0x500014
abbrev Reg.FCH_STRIPE : Nat := 0x500018
abbrev Reg.FCH_CH_STATUS : Nat := 0x501000
abbrev Reg.FCH_CH_CFG : Nat := 0x501004
abbrev Reg.FCH_CH_DIES : Nat := 0x50100c
abbrev Reg.FCH_CH_DIE_OFFLINE : Nat := 0x501010
abbrev Reg.FCH_CH_TRAIN : Nat := 0x501014
abbrev Reg.FCH_CH_RETRY : Nat := 0x501018
abbrev Reg.FCH_CH_RECOVER : Nat := 0x50101c
abbrev Reg.FCH_CH_UNCORR : Nat := 0x501020
abbrev Reg.FTL_STATUS : Nat := 0x600000
abbrev Reg.FTL_SLUICE_CFG : Nat := 0x600010
abbrev Reg.FTL_CKPT_CFG : Nat := 0x600018
abbrev Reg.FTL_CACHE_CFG : Nat := 0x600020
abbrev Reg.FTL_CKPT_CTL : Nat := 0x600028
abbrev Reg.FTL_SEQ_LO : Nat := 0x600030
abbrev Reg.FTL_SEQ_HI : Nat := 0x600034
abbrev Reg.FTL_CKPT_S0_LO : Nat := 0x600038
abbrev Reg.FTL_CKPT_S0_HI : Nat := 0x60003c
abbrev Reg.FTL_CKPT_NUM_LO : Nat := 0x600040
abbrev Reg.FTL_CKPT_NUM_HI : Nat := 0x600044
abbrev Reg.FTL_SPACE : Nat := 0x600050
abbrev Reg.FTL_SLUICE_STATUS : Nat := 0x600054
abbrev Reg.FTL_JOURNAL : Nat := 0x600058
abbrev Reg.FTL_RECOVERY : Nat := 0x60005c
abbrev Reg.FTL_MAP_HITS : Nat := 0x600060
abbrev Reg.FTL_MAP_MISSES : Nat := 0x600064
abbrev Reg.FTL_PACK : Nat := 0x600068
abbrev Reg.FTL_EVENTS : Nat := 0x60006c
abbrev Reg.FTL_WEAR_CFG : Nat := 0x600100
abbrev Reg.FTL_WEAR_LEVEL : Nat := 0x600104
abbrev Reg.FTL_HEALTH : Nat := 0x600110
abbrev Reg.FTL_SPARE : Nat := 0x600114
abbrev Reg.FTL_WEAR_SPAN : Nat := 0x600118
abbrev Reg.FTL_DISCARD : Nat := 0x60011c
abbrev Reg.FTL_LIFE_TIER1_LO : Nat := 0x600120
abbrev Reg.FTL_LIFE_TIER1_HI : Nat := 0x600124
abbrev Reg.FTL_LIFE_TIER2_LO : Nat := 0x600128
abbrev Reg.FTL_LIFE_TIER2_HI : Nat := 0x60012c
abbrev Reg.FTL_LIFE_TIER3_LO : Nat := 0x600130
abbrev Reg.FTL_LIFE_TIER3_HI : Nat := 0x600134
abbrev Reg.FTL_LIFE_TIER4_LO : Nat := 0x600138
abbrev Reg.FTL_LIFE_TIER4_HI : Nat := 0x60013c
abbrev Reg.FTL_LIFE_LOST_LO : Nat := 0x600140
abbrev Reg.FTL_LIFE_LOST_HI : Nat := 0x600144
abbrev Reg.FTL_LIFE_MLOST_LO : Nat := 0x600148
abbrev Reg.FTL_LIFE_MLOST_HI : Nat := 0x60014c
abbrev Reg.FTL_LIFE_MINUTES_LO : Nat := 0x600150
abbrev Reg.FTL_LIFE_MINUTES_HI : Nat := 0x600154
abbrev Reg.FTL_TEMP_HIST : Nat := 0x600180
abbrev Reg.CMP_STATUS : Nat := 0x700000
abbrev Reg.CMP_CFG : Nat := 0x700010
abbrev Reg.CMP_ENG_STATUS : Nat := 0x701000
abbrev Reg.CMP_ENG_IN_LO : Nat := 0x701004
abbrev Reg.CMP_ENG_IN_HI : Nat := 0x701008
abbrev Reg.CMP_ENG_OUT_LO : Nat := 0x70100c
abbrev Reg.CMP_ENG_OUT_HI : Nat := 0x701010
abbrev Reg.CMP_ENG_CLASS01 : Nat := 0x701014
abbrev Reg.CMP_ENG_CLASS23 : Nat := 0x701018
abbrev Reg.CMP_ENG_ERR : Nat := 0x70101c
abbrev Reg.CIP_STATUS : Nat := 0x800000
abbrev Reg.CIP_CFG : Nat := 0x800010
abbrev Reg.CIP_ENG_STATUS : Nat := 0x801000
abbrev Reg.CIP_ENG_IN_LO : Nat := 0x801004
abbrev Reg.CIP_ENG_IN_HI : Nat := 0x801008
abbrev Reg.CIP_ENG_OUT_LO : Nat := 0x80100c
abbrev Reg.CIP_ENG_OUT_HI : Nat := 0x801010
abbrev Reg.CIP_ENG_RELEASE : Nat := 0x801014
abbrev Reg.CIP_ENG_ERR : Nat := 0x801018
abbrev Reg.KEY_STATUS : Nat := 0x900000
abbrev Reg.KEY_REQ_OP : Nat := 0x900010
abbrev Reg.KEY_REQ_ARG : Nat := 0x900014
abbrev Reg.KEY_REQ_ADDR_LO : Nat := 0x900018
abbrev Reg.KEY_REQ_ADDR_HI : Nat := 0x90001c
abbrev Reg.KEY_REQ_LEN : Nat := 0x900020
abbrev Reg.KEY_REQ_COOKIE : Nat := 0x900024
abbrev Reg.KEY_RESULT : Nat := 0x900030
abbrev Reg.KEY_RESULT_COOKIE : Nat := 0x900034
abbrev Reg.KEY_SLOT_STATUS : Nat := 0x901000
abbrev Reg.KEY_SLOT_GEN : Nat := 0x901004
abbrev Reg.KEY_SLOT_USE : Nat := 0x901008
abbrev Reg.DGT_STATUS : Nat := 0xa00000
abbrev Reg.DGT_RESULT : Nat := 0xa02000
abbrev Reg.DGT_FEED_CTL : Nat := 0xa01000
abbrev Reg.DGT_FEED_LEN_LO : Nat := 0xa01004
abbrev Reg.DGT_FEED_LEN_HI : Nat := 0xa01008
abbrev Reg.DGT_FEED_ADDR_LO : Nat := 0xa0100c
abbrev Reg.DGT_FEED_ADDR_HI : Nat := 0xa01010
abbrev Reg.DGT_FEED_W0 : Nat := 0xa01018
abbrev Reg.DGT_FEED_W1 : Nat := 0xa0101c
abbrev Reg.DGT_FEED_LAST : Nat := 0xa01020
abbrev Reg.DGT_FEED_RESULT : Nat := 0xa01024
abbrev Reg.DGT_ENG_COUNTS : Nat := 0xa01028
abbrev Reg.DGT_FEED_DIGEST : Nat := 0xa01040
abbrev Reg.ASU_STATUS : Nat := 0xb00000
abbrev Reg.ASU_CFG : Nat := 0xb00010
abbrev Reg.ASU_SCRUB : Nat := 0xb00020
abbrev Reg.ASU_SCRUB_COUNTS : Nat := 0xb00024
abbrev Reg.ASU_PORT_SEARCHES : Nat := 0xb00100
abbrev Reg.ASU_PORT_WAITS : Nat := 0xb00104
abbrev Reg.ASU_BANK : Nat := 0xb01000
abbrev Reg.GLY_STATUS : Nat := 0xc00000
abbrev Reg.GLY_CORE_STATUS : Nat := 0xc01000
abbrev Reg.GLY_CORE_CTL : Nat := 0xc01004
abbrev Reg.GLY_CORE_CFG : Nat := 0xc01008
abbrev Reg.GLY_CORE_WIN_BASE : Nat := 0xc01010
abbrev Reg.GLY_CORE_WIN_LIMIT : Nat := 0xc01014
abbrev Reg.GLY_CORE_COUNTS : Nat := 0xc01034
abbrev Reg.DRC_STATUS : Nat := 0xd00000
abbrev Reg.DRC_BANK_SEL : Nat := 0xd00010
abbrev Reg.DRC_CH_STATUS : Nat := 0xd01000
abbrev Reg.DRC_CH_CFG : Nat := 0xd01004
abbrev Reg.DRC_CH_TRAIN : Nat := 0xd0100c
abbrev Reg.DRC_CH_ERR : Nat := 0xd01010
abbrev Reg.DRC_CH_PAGE : Nat := 0xd01014
abbrev Reg.DRC_CH_WAITS : Nat := 0xd01018
abbrev Reg.DRC_CH_USABLE : Nat := 0xd0101c
abbrev Reg.HIF_STATUS : Nat := 0xe00000
abbrev Reg.HIF_PORT_STATUS : Nat := 0xe00010
abbrev Reg.HIF_PORT_CFG : Nat := 0xe00020
abbrev Reg.HIF_PS : Nat := 0xe00030
abbrev Reg.HIF_MI : Nat := 0xe00038
abbrev Reg.HIF_COUNTS : Nat := 0xe00040
abbrev Reg.HIF_COUNTS2 : Nat := 0xe00044
abbrev Reg.HIF_MEM_LINES : Nat := 0xe01000
abbrev Reg.HIF_NS_LINES0 : Nat := 0xe04020
abbrev Reg.HIF_NS_LINES1 : Nat := 0xe04024
abbrev Reg.HIF_NS_LINES2 : Nat := 0xe04028
abbrev Reg.HIF_NS_LINES3 : Nat := 0xe0402c
abbrev Reg.HIF_NS_KEY : Nat := 0xe04030
abbrev Reg.TEN_STATUS : Nat := 0xf00000
abbrev Reg.TEN_REQ_OP : Nat := 0xf00010
abbrev Reg.TEN_REQ_ARG : Nat := 0xf00014
abbrev Reg.TEN_REQ_WIN2_BASE : Nat := 0xf00018
abbrev Reg.TEN_REQ_WIN2_LIMIT : Nat := 0xf0001c
abbrev Reg.TEN_REQ_WIN3_BASE : Nat := 0xf00020
abbrev Reg.TEN_REQ_WIN3_LIMIT : Nat := 0xf00024
abbrev Reg.TEN_REQ_COOKIE : Nat := 0xf00028
abbrev Reg.TEN_RESULT : Nat := 0xf00030
abbrev Reg.TEN_RESULT_COOKIE : Nat := 0xf00034
abbrev Reg.TEN_INST_STATUS : Nat := 0xf01040
abbrev Reg.TEN_INST_OWNS : Nat := 0xf01044
abbrev Reg.TEN_LOG_CFG : Nat := 0xf01048
abbrev Reg.TEN_LOG_BASE_LO : Nat := 0xf0104c
abbrev Reg.TEN_LOG_BASE_HI : Nat := 0xf01050
abbrev Reg.TEN_LOG_BUF0_LO : Nat := 0xf01054
abbrev Reg.TEN_LOG_BUF0_HI : Nat := 0xf01058
abbrev Reg.TEN_LOG_BUF1_LO : Nat := 0xf0105c
abbrev Reg.TEN_LOG_BUF1_HI : Nat := 0xf01060
abbrev Reg.TEN_LOG_CTL : Nat := 0xf01068
abbrev Reg.TEN_LOG_STATUS : Nat := 0xf0106c
abbrev Reg.FED_STATUS : Nat := 0x1000000
abbrev Reg.FED_NODE_CFG : Nat := 0x1000010
abbrev Reg.FED_ID : Nat := 0x1000014
abbrev Reg.FED_ETHERTYPE : Nat := 0x1000018
abbrev Reg.FED_LINK_CFG : Nat := 0x1000020
abbrev Reg.FED_TABLE_CTL : Nat := 0x1000030
abbrev Reg.FED_TABLE_ADDR_LO : Nat := 0x1000034
abbrev Reg.FED_TABLE_ADDR_HI : Nat := 0x1000038
abbrev Reg.FED_TABLE_LEN : Nat := 0x100003c
abbrev Reg.FED_INCARNATION : Nat := 0x1000044
abbrev Reg.FED_COUNTS : Nat := 0x1000048
abbrev Reg.FED_DROPS : Nat := 0x100004c
abbrev Reg.FED_PLACE : Nat := 0x1000050
abbrev Reg.FED_PORT_STATUS : Nat := 0x1000100
abbrev Reg.FED_PORT_MAC_LO : Nat := 0x1000104
abbrev Reg.FED_PORT_MAC_HI : Nat := 0x1000108
abbrev Reg.FED_PORT_FEC : Nat := 0x100010c
abbrev Reg.FED_NEIGHBOUR : Nat := 0x1000400
abbrev Reg.FED_NEIGHBOUR_AGE : Nat := 0x1000404
abbrev Reg.FED_INST_TAG : Nat := 0x1001000
abbrev Reg.FED_RX_LINE : Nat := 0x1002000
abbrev Reg.TRU_STATUS : Nat := 0x1100000
abbrev Reg.TRU_COUNTS : Nat := 0x1100004
abbrev Reg.TRU_MEAS_SEL : Nat := 0x1100010
abbrev Reg.TRU_MEAS_VALUE : Nat := 0x1100040
abbrev Reg.TRU_REG_SEL : Nat := 0x1100080
abbrev Reg.TRU_REG_HASH : Nat := 0x11000c0
abbrev Reg.TRU_FUSE_PEAT : Nat := 0x1100100
abbrev Reg.TRU_FUSE_CTL : Nat := 0x1100104
abbrev Reg.TRU_INST_EPOCH : Nat := 0x1101000
abbrev Reg.BOOT_STATUS : Nat := 0x1200000
abbrev Reg.BOOT_CTL : Nat := 0x1200004
abbrev Reg.BOOT_WDT_CFG : Nat := 0x1200008
abbrev Reg.BOOT_CYCLES : Nat := 0x1200010
abbrev Reg.BOOT_WARM : Nat := 0x1200014
abbrev Reg.BOOT_KEPT : Nat := 0x1200018
abbrev Reg.BOOT_KEPT_FLASH : Nat := 0x120001c
abbrev Reg.BOOT_PHASE_MS : Nat := 0x1200040
abbrev Reg.BOOT_ENTRY_MS : Nat := 0x1200060
abbrev Reg.BOOT_READY_MS : Nat := 0x1200064
abbrev Reg.UPD_STATUS : Nat := 0x1300000
abbrev Reg.UPD_STAGE_ADDR_LO : Nat := 0x1300010
abbrev Reg.UPD_STAGE_ADDR_HI : Nat := 0x1300014
abbrev Reg.UPD_STAGE_LEN : Nat := 0x1300018
abbrev Reg.UPD_STAGE_OP : Nat := 0x130001c
abbrev Reg.UPD_RESULT : Nat := 0x1300030
abbrev Reg.UPD_RESULT_DETAIL : Nat := 0x1300034
abbrev Reg.UPD_CTL : Nat := 0x1300038
abbrev Reg.UPD_CFG : Nat := 0x130003c
abbrev Reg.UPD_FLOOR : Nat := 0x1300044
abbrev Reg.UPD_SLOT_SEQ_LO : Nat := 0x1300050
abbrev Reg.UPD_SLOT_SEQ_HI : Nat := 0x1300054
abbrev Reg.UPD_SLOT_INFO : Nat := 0x1300058
abbrev Reg.EVR_STATUS : Nat := 0x1400000
abbrev Reg.EVR_NEXT_SEQ_LO : Nat := 0x1400010
abbrev Reg.EVR_NEXT_SEQ_HI : Nat := 0x1400014
abbrev Reg.EVR_OLDEST_SEQ_LO : Nat := 0x1400018
abbrev Reg.EVR_OLDEST_SEQ_HI : Nat := 0x140001c
abbrev Reg.EVR_OPTIME_LO : Nat := 0x1400020
abbrev Reg.EVR_OPTIME_HI : Nat := 0x1400024
abbrev Reg.EVR_READ_SEL_LO : Nat := 0x1400030
abbrev Reg.EVR_READ_SEL_HI : Nat := 0x1400034
abbrev Reg.EVR_READ_RESULT : Nat := 0x140003c
abbrev Reg.EVR_READ_DATA : Nat := 0x1400040
abbrev Reg.EVR_CLEAR_CTL : Nat := 0x1400080
abbrev Reg.EVR_COUNTS : Nat := 0x1400088
abbrev Reg.EVR_INST_AREA : Nat := 0x1401000
abbrev Reg.TST_STATUS : Nat := 0x1500000
abbrev Reg.TST_CFG : Nat := 0x1500010
abbrev Reg.TST_UNIT_REQ : Nat := 0x1500020
abbrev Reg.TST_UNIT_RESULT : Nat := 0x1500028
abbrev Reg.TST_INJ_CTL : Nat := 0x1500040
abbrev Reg.TST_INJ_PARAM : Nat := 0x1500044
abbrev Reg.TST_INJ_COUNT : Nat := 0x1500048
abbrev Reg.TST_INJ_WINDOW : Nat := 0x150004c
abbrev Reg.TST_INJ_STOP : Nat := 0x1500054
abbrev Reg.TST_QUAD_ERR : Nat := 0x1500100
abbrev Reg.TST_UNIT_ERR : Nat := 0x1501000
abbrev Reg.TST_UNIT_TEST : Nat := 0x1501004
abbrev Reg.VFP_DGT_RESULT : Nat := 0x10002080
abbrev Reg.VFP_CORE_CMD : Nat := 0x10002090
abbrev Reg.VFP_CORE_ENTRY_LO : Nat := 0x10002094
abbrev Reg.VFP_CORE_ENTRY_HI : Nat := 0x10002098
abbrev Reg.VFP_HOLD : Nat := 0x100020a0
abbrev Reg.VFP_STATUS : Nat := 0x100020a4
abbrev Reg.VFP_LMEM : Nat := 0x100020b0
abbrev Reg.VFP_LMEM_LOST : Nat := 0x100020b4
abbrev Reg.VFP_FEN_APERTURE : Nat := 0x10002100
abbrev Reg.VFP_KEY_REQ_OP : Nat := 0x10002010
abbrev Reg.VFP_KEY_REQ_ARG : Nat := 0x10002014
abbrev Reg.VFP_KEY_REQ_ADDR_LO : Nat := 0x10002018
abbrev Reg.VFP_KEY_REQ_ADDR_HI : Nat := 0x1000201c
abbrev Reg.VFP_KEY_REQ_LEN : Nat := 0x10002020
abbrev Reg.VFP_KEY_REQ_COOKIE : Nat := 0x10002024
abbrev Reg.VFP_KEY_RESULT : Nat := 0x10002030
abbrev Reg.VFP_KEY_RESULT_COOKIE : Nat := 0x10002034

/-- The registers of the DEV block (their offsets, arrays, fields, access types and reset values: rules R26, R27, R47, R48, R49, R50, R51). -/
def regRowsDev : List RegRow :=
[
  ⟨"DEV_UNIT_ROLE", 0x1000, 218, 8, 1, 0, 0, 0, [⟨"ROLE", 24, 17, .ro, 0⟩, ⟨"OWNER", 16, 8, .ro, 0⟩, ⟨"STATE", 7, 5, .ro, 0⟩, ⟨"KIND", 4, 0, .ro, 0⟩]⟩,
  ⟨"DEV_UNIT_GEN", 0x1004, 218, 8, 1, 0, 0, 0, [⟨"SERVES", 23, 16, .ro, 0xff⟩, ⟨"GEN", 15, 0, .ro, 0⟩]⟩,
  ⟨"DEV_IDENT", 0, 1, 0, 1, 0, 0, 0, [⟨"PART", 31, 16, .ro, 0x9632⟩, ⟨"FAMILY", 15, 8, .ro, 0xae⟩, ⟨"VENDOR", 7, 0, .ro, 0x5e⟩]⟩,
  ⟨"DEV_REVISION", 4, 1, 0, 1, 0, 0, 0, [⟨"PACKAGE", 23, 8, .ro, 0x3872⟩, ⟨"STEP_MAJOR", 7, 4, .ro, 11⟩, ⟨"STEP_MINOR", 3, 0, .ro, 0⟩]⟩,
  ⟨"DEV_SERIAL_LO", 8, 1, 0, 1, 0, 0, 0, [⟨"SERIAL", 31, 0, .ro, 0⟩]⟩,
  ⟨"DEV_SERIAL_HI", 12, 1, 0, 1, 0, 0, 0, [⟨"SERIAL", 31, 0, .ro, 0⟩]⟩,
  ⟨"DEV_LEVEL", 0x10, 1, 0, 1, 0, 0, 0, [⟨"JOINED", 16, 16, .ro, 0⟩, ⟨"NODE", 15, 0, .ro, 0⟩]⟩,
  ⟨"DEV_COUNTS", 0x14, 1, 0, 1, 0, 0, 0, [⟨"FENS", 31, 24, .ro, 0x28⟩, ⟨"DOMAINS", 23, 16, .ro, 0xb0⟩, ⟨"ISLANDS", 15, 8, .ro, 0xb8⟩, ⟨"UNITS", 7, 0, .ro, 0xda⟩]⟩]

/-- The registers of the CFG block (their offsets, arrays, fields, access types and reset values: rules R88, R89, R90, R91, R92, R94, R95, R96, R97, R98). -/
def regRowsCfg : List RegRow :=
[
  ⟨"CFG_STATUS", 0x100000, 1, 0, 1, 0, 0, 0, [⟨"CURRENT_UNIT", 23, 16, .ro, 0xff⟩, ⟨"QUEUED", 15, 8, .ro, 0⟩, ⟨"STATE", 3, 0, .ro, 0⟩]⟩,
  ⟨"CFG_LOAD_ADDR_LO", 0x100010, 1, 0, 1, 0, 0x100024, 0, [⟨"ADDR", 31, 0, .rws, 0⟩]⟩,
  ⟨"CFG_LOAD_ADDR_HI", 0x100014, 1, 0, 1, 0, 0x100024, 0, [⟨"ADDR", 31, 0, .rws, 0⟩]⟩,
  ⟨"CFG_LOAD_LEN", 0x100018, 1, 0, 1, 0, 0x100024, 0, [⟨"LEN", 31, 0, .rws, 0⟩]⟩,
  ⟨"CFG_LOAD_TARGET", 0x10001c, 1, 0, 1, 0, 0x100024, 0, [⟨"TARGET_UNIT", 15, 8, .rws, 0⟩, ⟨"KIND", 1, 0, .rws, 0⟩]⟩,
  ⟨"CFG_LOAD_COOKIE", 0x100020, 1, 0, 1, 0, 0x100024, 0, [⟨"COOKIE", 31, 0, .rws, 0⟩]⟩,
  ⟨"CFG_RESULT", 0x100030, 1, 0, 1, 0, 0, 0, [⟨"VALID", 8, 8, .w1c, 0⟩, ⟨"STATUS", 7, 0, .ro, 0⟩]⟩,
  ⟨"CFG_RESULT_COOKIE", 0x100034, 1, 0, 1, 0, 0, 0, [⟨"COOKIE", 31, 0, .ro, 0⟩]⟩,
  ⟨"CFG_REJECT", 0x100040, 1, 0, 1, 0, 0, 0, [⟨"COUNT", 31, 24, .ro, 0⟩, ⟨"TILE_Y", 23, 16, .ro, 0⟩, ⟨"TILE_X", 15, 8, .ro, 0⟩, ⟨"RULE", 7, 0, .ro, 0⟩]⟩,
  ⟨"CFG_REJECT_DETAIL", 0x100044, 1, 0, 1, 0, 0, 0, [⟨"DETAIL", 31, 0, .ro, 0⟩]⟩,
  ⟨"CFG_ACTIVE_SEQ_LO", 0x100050, 1, 0, 1, 0, 0, 0, [⟨"SEQ", 31, 0, .ro, 0⟩]⟩,
  ⟨"CFG_ACTIVE_SEQ_HI", 0x100054, 1, 0, 1, 0, 0, 0, [⟨"SEQ", 31, 0, .ro, 0⟩]⟩]
  ++ [
  ⟨"CFG_CANDIDATE_SEQ_LO", 0x100058, 1, 0, 1, 0, 0, 0, [⟨"SEQ", 31, 0, .ro, 0⟩]⟩,
  ⟨"CFG_CANDIDATE_SEQ_HI", 0x10005c, 1, 0, 1, 0, 0, 0, [⟨"SEQ", 31, 0, .ro, 0⟩]⟩,
  ⟨"CFG_FLOOR_LO", 0x100060, 1, 0, 1, 0, 0, 0, [⟨"FLOOR", 31, 0, .ro, 0⟩]⟩,
  ⟨"CFG_FLOOR_HI", 0x100064, 1, 0, 1, 0, 0, 0, [⟨"FLOOR", 31, 0, .ro, 0⟩]⟩]

/-- The registers of the FAB block (their offsets, arrays, fields, access types and reset values: rules R132, R134, R135, R137, R138, R139, R140, R141, R142, R143, R144). -/
def regRowsFab : List RegRow :=
[
  ⟨"FAB_STATUS", 0x200000, 1, 0, 1, 0, 0, 0, [⟨"OFFLINE", 21, 16, .ro, 0⟩, ⟨"HELD", 13, 8, .ro, 0⟩, ⟨"RUNNING", 5, 0, .ro, 0⟩]⟩,
  ⟨"FAB_FEN_STATUS", 0x201000, 32, 0x40, 1, 0, 0, 0, [⟨"ALIAS_TARGET", 22, 22, .ro, 0⟩, ⟨"ALIASED", 21, 21, .ro, 0⟩, ⟨"OVERPOWER", 20, 20, .ro, 0⟩, ⟨"SPARE_TILES_LEFT", 19, 16, .ro, 1⟩, ⟨"TICKETS", 15, 8, .ro, 0⟩, ⟨"STATE", 3, 0, .ro, 0⟩]⟩,
  ⟨"FAB_FEN_STATUS", 0x201800, 8, 0x40, 1, 0, 0, 0, [⟨"ALIAS_TARGET", 22, 22, .ro, 0⟩, ⟨"ALIASED", 21, 21, .ro, 0⟩, ⟨"OVERPOWER", 20, 20, .ro, 0⟩, ⟨"SPARE_TILES_LEFT", 19, 16, .ro, 4⟩, ⟨"TICKETS", 15, 8, .ro, 0⟩, ⟨"STATE", 3, 0, .ro, 0⟩]⟩,
  ⟨"FAB_FEN_CFG", 0x201004, 40, 0x40, 1, 0, 0x201008, 0x40, [⟨"MEM_POLICY", 16, 16, .rws, 0⟩, ⟨"FMAX_CAP_MHZ", 9, 0, .rws, 0⟩]⟩,
  ⟨"FAB_FEN_CLOCK", 0x20100c, 40, 0x40, 1, 0, 0, 0, [⟨"PLAN_MHZ", 29, 20, .ro, 0⟩, ⟨"FMAX_MHZ", 19, 10, .ro, 0⟩, ⟨"RUN_MHZ", 9, 0, .ro, 0⟩]⟩,
  ⟨"FAB_FEN_ALIAS", 0x201010, 40, 0x40, 1, 0, 0x200010, 0, [⟨"ENABLE", 31, 31, .rws, 0⟩, ⟨"OWNER", 24, 16, .ro, 0⟩, ⟨"TARGET_UNIT", 7, 0, .rws, 0⟩]⟩,
  ⟨"FAB_FEN_USAGE", 0x201014, 40, 0x40, 1, 0, 0, 0, [⟨"MACS", 25, 18, .ro, 0⟩, ⟨"CELLS", 17, 0, .ro, 0⟩]⟩,
  ⟨"FAB_FEN_MEM", 0x201018, 40, 0x40, 1, 0, 0, 0, [⟨"TILES_USED", 23, 16, .ro, 0⟩, ⟨"MEM_KIB", 11, 0, .ro, 0⟩]⟩,
  ⟨"FAB_FEN_POWER", 0x20101c, 40, 0x40, 1, 0, 0, 0, [⟨"MEASURED_MW", 31, 16, .ro, 0⟩, ⟨"DECLARED_MW", 15, 0, .ro, 0⟩]⟩,
  ⟨"FAB_FEN_PORTERR", 0x201020, 40, 0x40, 1, 0, 0, 0, [⟨"BAD_STATUS", 31, 24, .rc, 0⟩, ⟨"CTL_TIMEOUT", 23, 16, .rc, 0⟩, ⟨"FOREIGN_TICKET", 15, 0, .rc, 0⟩]⟩,
  ⟨"FAB_FEN_IMAGE_ID0", 0x201024, 40, 0x40, 1, 0, 0, 0, [⟨"IMAGE_ID", 31, 0, .ro, 0⟩]⟩,
  ⟨"FAB_FEN_IMAGE_ID1", 0x201028, 40, 0x40, 1, 0, 0, 0, [⟨"IMAGE_ID", 31, 0, .ro, 0⟩]⟩]
  ++ [
  ⟨"FAB_FEN_IMAGE_ID2", 0x20102c, 40, 0x40, 1, 0, 0, 0, [⟨"IMAGE_ID", 31, 0, .ro, 0⟩]⟩,
  ⟨"FAB_FEN_IMAGE_ID3", 0x201030, 40, 0x40, 1, 0, 0, 0, [⟨"IMAGE_ID", 31, 0, .ro, 0⟩]⟩,
  ⟨"FAB_FEN_CTLWIN", 0x208000, 40, 0x1000, 1024, 4, 0, 0, [⟨"DATA", 31, 0, .rw, 0⟩]⟩]

/-- The registers of the SBX block (their offsets, arrays, fields, access types and reset values: rules R183, R184, R187, R188, R189, R190, R191, R192, R193, R194, R195, R196, R197). -/
def regRowsSbx : List RegRow :=
[
  ⟨"SBX_EPOCH_CTL", 0x300000, 1, 0, 1, 0, 0x300008, 0, [⟨"AGE_LIMIT", 7, 0, .rws, 8⟩]⟩,
  ⟨"SBX_SMALL_LIMIT", 0x300004, 1, 0, 1, 0, 0x300008, 0, [⟨"SMALL_LIMIT", 31, 0, .rws, 0x7d00⟩]⟩,
  ⟨"SBX_EPOCH_COUNT_LO", 0x300010, 1, 0, 1, 0, 0, 0, [⟨"COUNT", 31, 0, .ro, 0⟩]⟩,
  ⟨"SBX_EPOCH_COUNT_HI", 0x300014, 1, 0, 1, 0, 0, 0, [⟨"COUNT", 31, 0, .ro, 0⟩]⟩,
  ⟨"SBX_ALLOWANCE", 0x300018, 1, 0, 1, 0, 0, 0, [⟨"A", 31, 0, .ro, 0⟩]⟩,
  ⟨"SBX_REMAINING", 0x30001c, 1, 0, 1, 0, 0, 0, [⟨"REMAINING", 31, 0, .ro, 0⟩]⟩,
  ⟨"SBX_CLASS_GATE", 0x300020, 1, 0, 1, 0, 0, 0, [⟨"OPEN", 15, 1, .ro, 0⟩]⟩,
  ⟨"SBX_WB_LIMIT", 0x300024, 1, 0, 1, 0, 0, 0, [⟨"KIB", 31, 0, .ro, 0⟩]⟩,
  ⟨"SBX_DIRTY", 0x300028, 1, 0, 1, 0, 0, 0, [⟨"KIB", 31, 0, .ro, 0⟩]⟩,
  ⟨"SBX_TICKETS", 0x30002c, 1, 0, 1, 0, 0, 0, [⟨"IN_FLIGHT", 16, 0, .ro, 0⟩]⟩,
  ⟨"SBX_WAITING", 0x300030, 1, 0, 1, 0, 0, 0, [⟨"WAITING", 16, 0, .ro, 0⟩]⟩,
  ⟨"SBX_EVENTS", 0x300034, 1, 0, 1, 0, 0, 0, [⟨"OVERSIZE", 31, 16, .rc, 0⟩, ⟨"DEADLINES", 15, 0, .rc, 0⟩]⟩]
  ++ [
  ⟨"SBX_SIDING_STATUS", 0x300040, 1, 0, 1, 0, 0, 0, [⟨"DROPPED", 31, 16, .rc, 0⟩, ⟨"ENTRIES", 12, 0, .ro, 0⟩]⟩,
  ⟨"SBX_SIDING_POP", 0x300044, 1, 0, 1, 0, 0, 0, [⟨"POP", 0, 0, .wo, 0⟩]⟩,
  ⟨"SBX_SIDING_HEAD", 0x300060, 8, 4, 1, 0, 0, 0, [⟨"HEADER", 31, 0, .ro, 0⟩]⟩,
  ⟨"SBX_SIDING_DATA", 0x306000, 2048, 4, 1, 0, 0, 0, [⟨"PAYLOAD", 31, 0, .ro, 0⟩]⟩,
  ⟨"SBX_SHARE", 0x301000, 1, 4, 1, 0, 0x30000c, 0, [⟨"SHARE", 16, 0, .rws, 0x10000⟩]⟩,
  ⟨"SBX_SHARE", 0x301004, 511, 4, 1, 0, 0x30000c, 0, [⟨"SHARE", 16, 0, .rws, 0⟩]⟩,
  ⟨"SBX_TICKET_LIMIT", 0x302000, 1, 4, 1, 0, 0, 0, [⟨"LIMIT", 16, 0, .ro, 0x10000⟩]⟩,
  ⟨"SBX_TICKET_LIMIT", 0x302004, 511, 4, 1, 0, 0x30000c, 0, [⟨"LIMIT", 16, 0, .rws, 0⟩]⟩,
  ⟨"SBX_CREDIT", 0x303000, 512, 4, 1, 0, 0, 0, [⟨"CREDIT", 31, 0, .ro, 0⟩]⟩,
  ⟨"SBX_INST_STATUS", 0x304000, 1, 4, 1, 0, 0, 0, [⟨"SUSPENDED", 17, 17, .ro, 0⟩, ⟨"IN_FLIGHT", 16, 0, .ro, 0⟩]⟩,
  ⟨"SBX_INST_STATUS", 0x304004, 511, 4, 1, 0, 0, 0, [⟨"SUSPENDED", 17, 17, .ro, 1⟩, ⟨"IN_FLIGHT", 16, 0, .ro, 0⟩]⟩,
  ⟨"SBX_STATION", 0x305000, 218, 4, 1, 0, 0, 0, [⟨"CAPACITY", 15, 8, .ro, 0⟩, ⟨"FREE", 7, 0, .ro, 0⟩]⟩]

/-- The registers of the PWR block (their offsets, arrays, fields, access types and reset values: rules R224, R225, R226, R228, R230, R231, R232, R233, R234). -/
def regRowsPwr : List RegRow :=
[
  ⟨"PWR_STATUS", 0x400000, 1, 0, 1, 0, 0, 0, [⟨"T_MODEL", 24, 16, .ro, 0⟩, ⟨"POWER_LOSS", 10, 10, .ro, 0⟩, ⟨"CAP_HIT", 9, 9, .ro, 0⟩, ⟨"HEAT_LIMITED", 8, 8, .ro, 0⟩, ⟨"THERM_STAGE", 7, 6, .ro, 0⟩, ⟨"PEAT_STAGE", 5, 4, .ro, 3⟩, ⟨"PEAT_STATE", 3, 0, .ro, 0⟩]⟩,
  ⟨"PWR_PEAT_FUSE", 0x400004, 1, 0, 1, 0, 0, 0, [⟨"CMAX_MF", 31, 18, .ro, 0⟩, ⟨"VMAX_DV", 17, 8, .ro, 0⟩, ⟨"CEIL_QJ", 7, 0, .ro, 0⟩]⟩,
  ⟨"PWR_PEAT_CFG", 0x400010, 1, 0, 1, 0, 0x400018, 0, [⟨"EFF_PCT", 16, 10, .rws, 0x55⟩, ⟨"VFLOOR_DV", 9, 0, .rws, 0x50⟩]⟩,
  ⟨"PWR_CHARGER_CFG", 0x400014, 1, 0, 1, 0, 0x400018, 0, [⟨"RAMP_MS", 21, 12, .rws, 0xc8⟩, ⟨"ICHG_MA", 11, 0, .rws, 0x3e8⟩]⟩,
  ⟨"PWR_LEDGER_CFG", 0x400020, 1, 0, 1, 0, 0x40002c, 0, [⟨"FLUSH_W", 22, 16, .rws, 0x1e⟩, ⟨"FIXED_MJ", 15, 0, .rws, 0x190⟩]⟩,
  ⟨"PWR_FLUSH_NJ", 0x400024, 1, 0, 1, 0, 0x40002c, 0, [⟨"NJ_4K", 15, 0, .rws, 0x2710⟩]⟩,
  ⟨"PWR_WB_CAP", 0x400028, 1, 0, 1, 0, 0x40002c, 0, [⟨"KIB", 31, 0, .rws, 0x1000000⟩]⟩,
  ⟨"PWR_SLOT_CFG", 0x400030, 1, 0, 1, 0, 0x400034, 0, [⟨"CAP", 1, 0, .rws, 0⟩]⟩,
  ⟨"PWR_THERM_CFG", 0x400038, 1, 0, 1, 0, 0x40003c, 0, [⟨"GAIN_MW", 23, 8, .rws, 0xbb8⟩, ⟨"T_LIMIT", 7, 0, .rws, 0x69⟩]⟩,
  ⟨"PWR_GATE_POLICY", 0x400040, 1, 0, 1, 0, 0x400044, 0, [⟨"CLASS15", 11, 8, .rws, 2⟩, ⟨"CLASS14", 7, 4, .rws, 2⟩, ⟨"CLASS13", 3, 0, .rws, 2⟩]⟩,
  ⟨"PWR_MEAS_CTL", 0x400048, 1, 0, 1, 0, 0, 0, [⟨"MEAS_REQUEST", 0, 0, .wo, 0⟩]⟩,
  ⟨"PWR_MEAS_STATUS", 0x40004c, 1, 0, 1, 0, 0, 0, [⟨"RESULT", 25, 24, .ro, 0⟩, ⟨"POSTPONED", 23, 16, .rc, 0⟩, ⟨"HOURS_SINCE", 15, 0, .ro, 0⟩]⟩]
  ++ [
  ⟨"PWR_VIN", 0x400050, 1, 0, 1, 0, 0, 0, [⟨"IIN_MA", 31, 16, .ro, 0⟩, ⟨"VIN_MV", 15, 0, .ro, 0⟩]⟩,
  ⟨"PWR_PEAT_MV", 0x400054, 1, 0, 1, 0, 0, 0, [⟨"VT_MV", 31, 16, .ro, 0⟩, ⟨"V_MV", 15, 0, .ro, 0⟩]⟩,
  ⟨"PWR_CAP_UF", 0x400058, 1, 0, 1, 0, 0, 0, [⟨"C_MEAS", 31, 0, .ro, 0⟩]⟩,
  ⟨"PWR_USABLE_MJ", 0x40005c, 1, 0, 1, 0, 0, 0, [⟨"MJ", 31, 0, .ro, 0⟩]⟩,
  ⟨"PWR_FULL_MJ", 0x400060, 1, 0, 1, 0, 0, 0, [⟨"MJ", 31, 0, .ro, 0⟩]⟩,
  ⟨"PWR_RESERVE_MJ", 0x400064, 1, 0, 1, 0, 0, 0, [⟨"MJ", 31, 0, .ro, 0⟩]⟩,
  ⟨"PWR_WB_KIB", 0x400068, 1, 0, 1, 0, 0, 0, [⟨"KIB", 31, 0, .ro, 0⟩]⟩,
  ⟨"PWR_FLUSH_NJ_MEAS", 0x40006c, 1, 0, 1, 0, 0, 0, [⟨"NJ", 31, 0, .ro, 0⟩]⟩,
  ⟨"PWR_IN_MW", 0x400070, 1, 0, 1, 0, 0, 0, [⟨"MW", 31, 0, .ro, 0⟩]⟩,
  ⟨"PWR_CHG_MW", 0x400074, 1, 0, 1, 0, 0, 0, [⟨"MW", 31, 0, .ro, 0⟩]⟩,
  ⟨"PWR_BASE_MW", 0x400078, 1, 0, 1, 0, 0, 0, [⟨"MW", 31, 0, .ro, 0x7d0⟩]⟩,
  ⟨"PWR_TICK_MW", 0x40007c, 1, 0, 1, 0, 0, 0, [⟨"MW", 31, 0, .ro, 0⟩]⟩]
  ++ [
  ⟨"PWR_DIE_MW", 0x400080, 1, 0, 1, 0, 0, 0, [⟨"MW", 31, 0, .ro, 0⟩]⟩,
  ⟨"PWR_TEMP", 0x400100, 16, 4, 1, 0, 0, 0, [⟨"MAX", 23, 16, .ro, 0⟩, ⟨"OFFSET", 15, 8, .ro, 0⟩, ⟨"TEMP", 7, 0, .ro, 0⟩]⟩,
  ⟨"PWR_CLASS_MJ", 0x400204, 15, 4, 1, 0, 0, 0, [⟨"MJ", 31, 0, .rc, 0⟩]⟩,
  ⟨"PWR_ISLAND", 0x401000, 256, 4, 1, 0, 0, 0, [⟨"MHZ", 31, 21, .ro, 0⟩, ⟨"GROUP", 18, 14, .ro, 0⟩, ⟨"DOMAIN", 13, 12, .ro, 0⟩, ⟨"POINT", 2, 0, .ro, 0⟩]⟩]

/-- The registers of the FCH block (their offsets, arrays, fields, access types and reset values: rules R261, R262, R263, R264, R265, R266, R268, R269, R270). -/
def regRowsFch : List RegRow :=
[
  ⟨"FCH_STATUS", 0x500000, 1, 0, 1, 0, 0, 0, [⟨"OFFLINE", 29, 24, .ro, 0⟩, ⟨"TRAINING", 21, 16, .ro, 0⟩, ⟨"EXTENDED", 13, 8, .ro, 0⟩, ⟨"READY", 5, 0, .ro, 0⟩]⟩,
  ⟨"FCH_PARITY_STATUS", 0x500010, 1, 0, 1, 0, 0, 0, [⟨"REBUILDING", 31, 31, .ro, 0⟩, ⟨"QUEUED", 30, 24, .ro, 0⟩, ⟨"WHOLE_CHANNEL", 16, 16, .ro, 0⟩, ⟨"CHANNEL", 15, 8, .ro, 0xff⟩, ⟨"DIE", 4, 0, .ro, 0⟩]⟩,
  ⟨"FCH_REBUILD", 0x500014, 1, 0, 1, 0, 0, 0, [⟨"UNITS_LEFT", 31, 0, .ro, 0⟩]⟩,
  ⟨"FCH_STRIPE", 0x500018, 1, 0, 1, 0, 0, 0, [⟨"OPEN", 13, 8, .ro, 0⟩, ⟨"WIDTH", 5, 0, .ro, 0x20⟩]⟩,
  ⟨"FCH_CH_STATUS", 0x501000, 32, 0x40, 1, 0, 0, 0, [⟨"DIES_ONLINE", 21, 16, .ro, 0⟩, ⟨"BELOW_TARGET", 12, 12, .ro, 0⟩, ⟨"CODE", 10, 8, .ro, 0⟩, ⟨"RATE", 6, 4, .ro, 0⟩, ⟨"STATE", 2, 0, .ro, 1⟩]⟩,
  ⟨"FCH_CH_CFG", 0x501004, 32, 0x40, 1, 0, 0x501008, 0x40, [⟨"DRIFT_C", 20, 16, .rws, 10⟩, ⟨"RETRY_ENTRIES", 11, 8, .rws, 4⟩, ⟨"RATE_CAP", 2, 0, .rws, 6⟩]⟩,
  ⟨"FCH_CH_DIES", 0x50100c, 32, 0x40, 1, 0, 0, 0, [⟨"PRESENT", 31, 0, .ro, 0⟩]⟩,
  ⟨"FCH_CH_DIE_OFFLINE", 0x501010, 32, 0x40, 1, 0, 0, 0, [⟨"OFFLINE", 31, 0, .ro, 0⟩]⟩,
  ⟨"FCH_CH_TRAIN", 0x501014, 32, 0x40, 1, 0, 0, 0, [⟨"TRAIN_TEMP", 31, 24, .ro, 0⟩, ⟨"TRAININGS", 15, 8, .ro, 0⟩, ⟨"LAST_RATE", 2, 0, .ro, 0⟩]⟩,
  ⟨"FCH_CH_RETRY", 0x501018, 32, 0x40, 1, 0, 0, 0, [⟨"TIER2", 31, 16, .ro, 0⟩, ⟨"TIER1", 15, 0, .ro, 0⟩]⟩,
  ⟨"FCH_CH_RECOVER", 0x50101c, 32, 0x40, 1, 0, 0, 0, [⟨"TIER4", 31, 16, .ro, 0⟩, ⟨"TIER3", 15, 0, .ro, 0⟩]⟩,
  ⟨"FCH_CH_UNCORR", 0x501020, 32, 0x40, 1, 0, 0, 0, [⟨"LOST", 31, 0, .ro, 0⟩]⟩]

/-- The registers of the FTL block (their offsets, arrays, fields, access types and reset values: rules R309, R310, R312, R314, R316, R317, R318, R319, R338, R339, R341, R342, R343). -/
def regRowsFtl : List RegRow :=
[
  ⟨"FTL_STATUS", 0x600000, 1, 0, 1, 0, 0, 0, [⟨"WRITES_HELD", 9, 9, .ro, 0⟩, ⟨"CKPT_RUNNING", 8, 8, .ro, 0⟩, ⟨"LAST_PATH", 7, 4, .ro, 0⟩, ⟨"STATE", 3, 0, .ro, 0⟩]⟩,
  ⟨"FTL_SLUICE_CFG", 0x600010, 1, 0, 1, 0, 0x600014, 0, [⟨"FOLD_HIGH", 22, 16, .rws, 0x50⟩, ⟨"FOLD_LOW", 14, 8, .rws, 0x28⟩, ⟨"SLUICE_PCT", 2, 0, .rws, 3⟩]⟩,
  ⟨"FTL_CKPT_CFG", 0x600018, 1, 0, 1, 0, 0x60001c, 0, [⟨"CKPT_SECONDS", 31, 16, .rws, 0x3c⟩, ⟨"CKPT_KPAGES", 12, 0, .rws, 0x800⟩]⟩,
  ⟨"FTL_CACHE_CFG", 0x600020, 1, 0, 1, 0, 0x600024, 0, [⟨"GC_LOW", 31, 24, .rws, 0x40⟩, ⟨"STAGE_DRAM_GIB", 14, 8, .rws, 8⟩, ⟨"MAP_DRAM_GIB", 6, 0, .rws, 0x20⟩]⟩,
  ⟨"FTL_CKPT_CTL", 0x600028, 1, 0, 1, 0, 0, 0, [⟨"CKPT_REQUEST", 0, 0, .wo, 0⟩]⟩,
  ⟨"FTL_SEQ_LO", 0x600030, 1, 0, 1, 0, 0, 0, [⟨"SEQ", 31, 0, .ro, 0⟩]⟩,
  ⟨"FTL_SEQ_HI", 0x600034, 1, 0, 1, 0, 0, 0, [⟨"SEQ", 31, 0, .ro, 0⟩]⟩,
  ⟨"FTL_CKPT_S0_LO", 0x600038, 1, 0, 1, 0, 0, 0, [⟨"S0", 31, 0, .ro, 0⟩]⟩,
  ⟨"FTL_CKPT_S0_HI", 0x60003c, 1, 0, 1, 0, 0, 0, [⟨"S0", 31, 0, .ro, 0⟩]⟩,
  ⟨"FTL_CKPT_NUM_LO", 0x600040, 1, 0, 1, 0, 0, 0, [⟨"NUM", 31, 0, .ro, 0⟩]⟩,
  ⟨"FTL_CKPT_NUM_HI", 0x600044, 1, 0, 1, 0, 0, 0, [⟨"NUM", 31, 0, .ro, 0⟩]⟩,
  ⟨"FTL_SPACE", 0x600050, 1, 0, 1, 0, 0, 0, [⟨"FREE_SLUICE", 31, 16, .ro, 0⟩, ⟨"FREE_DENSE", 15, 0, .ro, 0⟩]⟩]
  ++ [
  ⟨"FTL_SLUICE_STATUS", 0x600054, 1, 0, 1, 0, 0, 0, [⟨"FILL_PCT", 7, 0, .ro, 0⟩]⟩,
  ⟨"FTL_JOURNAL", 0x600058, 1, 0, 1, 0, 0, 0, [⟨"HELD_PAGES", 11, 0, .ro, 0⟩]⟩,
  ⟨"FTL_RECOVERY", 0x60005c, 1, 0, 1, 0, 0, 0, [⟨"TIME_MS", 31, 16, .ro, 0⟩]⟩,
  ⟨"FTL_MAP_HITS", 0x600060, 1, 0, 1, 0, 0, 0, [⟨"HITS", 31, 0, .rc, 0⟩]⟩,
  ⟨"FTL_MAP_MISSES", 0x600064, 1, 0, 1, 0, 0, 0, [⟨"MISSES", 31, 0, .rc, 0⟩]⟩,
  ⟨"FTL_PACK", 0x600068, 1, 0, 1, 0, 0, 0, [⟨"NOFIT", 31, 16, .rc, 0⟩, ⟨"SHORT_SEALS", 15, 0, .rc, 0⟩]⟩,
  ⟨"FTL_EVENTS", 0x60006c, 1, 0, 1, 0, 0, 0, [⟨"RETIRED", 31, 16, .rc, 0⟩, ⟨"MISMATCH", 15, 0, .rc, 0⟩]⟩,
  ⟨"FTL_WEAR_CFG", 0x600100, 1, 0, 1, 0, 0x600108, 0, [⟨"DENSE_PE", 31, 16, .rws, 0xbb8⟩, ⟨"SLUICE_RATIO", 15, 8, .rws, 10⟩, ⟨"SPARE_THRESH", 6, 0, .rws, 10⟩]⟩,
  ⟨"FTL_WEAR_LEVEL", 0x600104, 1, 0, 1, 0, 0x600108, 0, [⟨"PATROL_DAYS", 23, 16, .rws, 7⟩, ⟨"WEAR_GAP", 15, 0, .rws, 0xc8⟩]⟩,
  ⟨"FTL_HEALTH", 0x600110, 1, 0, 1, 0, 0, 0, [⟨"CRIT_WARN", 23, 16, .ro, 0⟩, ⟨"PCT_USED", 15, 8, .ro, 0⟩, ⟨"AVAIL_SPARE", 7, 0, .ro, 0⟩]⟩,
  ⟨"FTL_SPARE", 0x600114, 1, 0, 1, 0, 0, 0, [⟨"GROUPS_RETIRED", 31, 16, .ro, 0⟩, ⟨"WORST_POOL", 15, 0, .ro, 0⟩]⟩,
  ⟨"FTL_WEAR_SPAN", 0x600118, 1, 0, 1, 0, 0, 0, [⟨"W_MAX", 31, 16, .ro, 0⟩, ⟨"W_MIN", 15, 0, .ro, 0⟩]⟩]
  ++ [
  ⟨"FTL_DISCARD", 0x60011c, 1, 0, 1, 0, 0, 0, [⟨"SECURE_PENDING", 15, 0, .ro, 0⟩]⟩,
  ⟨"FTL_LIFE_TIER1_LO", 0x600120, 1, 0, 1, 0, 0, 0, [⟨"COUNT", 31, 0, .ro, 0⟩]⟩,
  ⟨"FTL_LIFE_TIER1_HI", 0x600124, 1, 0, 1, 0, 0, 0, [⟨"COUNT", 31, 0, .ro, 0⟩]⟩,
  ⟨"FTL_LIFE_TIER2_LO", 0x600128, 1, 0, 1, 0, 0, 0, [⟨"COUNT", 31, 0, .ro, 0⟩]⟩,
  ⟨"FTL_LIFE_TIER2_HI", 0x60012c, 1, 0, 1, 0, 0, 0, [⟨"COUNT", 31, 0, .ro, 0⟩]⟩,
  ⟨"FTL_LIFE_TIER3_LO", 0x600130, 1, 0, 1, 0, 0, 0, [⟨"COUNT", 31, 0, .ro, 0⟩]⟩,
  ⟨"FTL_LIFE_TIER3_HI", 0x600134, 1, 0, 1, 0, 0, 0, [⟨"COUNT", 31, 0, .ro, 0⟩]⟩,
  ⟨"FTL_LIFE_TIER4_LO", 0x600138, 1, 0, 1, 0, 0, 0, [⟨"COUNT", 31, 0, .ro, 0⟩]⟩,
  ⟨"FTL_LIFE_TIER4_HI", 0x60013c, 1, 0, 1, 0, 0, 0, [⟨"COUNT", 31, 0, .ro, 0⟩]⟩,
  ⟨"FTL_LIFE_LOST_LO", 0x600140, 1, 0, 1, 0, 0, 0, [⟨"COUNT", 31, 0, .ro, 0⟩]⟩,
  ⟨"FTL_LIFE_LOST_HI", 0x600144, 1, 0, 1, 0, 0, 0, [⟨"COUNT", 31, 0, .ro, 0⟩]⟩,
  ⟨"FTL_LIFE_MLOST_LO", 0x600148, 1, 0, 1, 0, 0, 0, [⟨"COUNT", 31, 0, .ro, 0⟩]⟩]
  ++ [
  ⟨"FTL_LIFE_MLOST_HI", 0x60014c, 1, 0, 1, 0, 0, 0, [⟨"COUNT", 31, 0, .ro, 0⟩]⟩,
  ⟨"FTL_LIFE_MINUTES_LO", 0x600150, 1, 0, 1, 0, 0, 0, [⟨"COUNT", 31, 0, .ro, 0⟩]⟩,
  ⟨"FTL_LIFE_MINUTES_HI", 0x600154, 1, 0, 1, 0, 0, 0, [⟨"COUNT", 31, 0, .ro, 0⟩]⟩,
  ⟨"FTL_TEMP_HIST", 0x600180, 16, 4, 1, 0, 0, 0, [⟨"MINUTES", 31, 0, .ro, 0⟩]⟩]

/-- The registers of the CMP block (their offsets, arrays, fields, access types and reset values: rules R363, R364, R366, R367, R368). -/
def regRowsCmp : List RegRow :=
[
  ⟨"CMP_STATUS", 0x700000, 1, 0, 1, 0, 0, 0, [⟨"SPARE_SERVES", 31, 24, .ro, 0xff⟩, ⟨"OFFLINE", 20, 16, .ro, 0⟩, ⟨"IN_TEST", 12, 8, .ro, 0⟩, ⟨"ACTIVE", 4, 0, .ro, 0⟩]⟩,
  ⟨"CMP_CFG", 0x700010, 1, 0, 1, 0, 0x700014, 0, [⟨"MISMATCH_LIMIT", 3, 0, .rws, 2⟩]⟩,
  ⟨"CMP_ENG_STATUS", 0x701000, 17, 0x40, 1, 0, 0, 0, [⟨"LAST_FAIL", 23, 16, .ro, 0⟩, ⟨"CONTEXTS", 12, 8, .ro, 0⟩]⟩,
  ⟨"CMP_ENG_IN_LO", 0x701004, 17, 0x40, 1, 0, 0, 0, [⟨"BYTES", 31, 0, .ro, 0⟩]⟩,
  ⟨"CMP_ENG_IN_HI", 0x701008, 17, 0x40, 1, 0, 0, 0, [⟨"BYTES", 31, 0, .ro, 0⟩]⟩,
  ⟨"CMP_ENG_OUT_LO", 0x70100c, 17, 0x40, 1, 0, 0, 0, [⟨"BYTES", 31, 0, .ro, 0⟩]⟩,
  ⟨"CMP_ENG_OUT_HI", 0x701010, 17, 0x40, 1, 0, 0, 0, [⟨"BYTES", 31, 0, .ro, 0⟩]⟩,
  ⟨"CMP_ENG_CLASS01", 0x701014, 17, 0x40, 1, 0, 0, 0, [⟨"CLASS1", 31, 16, .rc, 0⟩, ⟨"CLASS0", 15, 0, .rc, 0⟩]⟩,
  ⟨"CMP_ENG_CLASS23", 0x701018, 17, 0x40, 1, 0, 0, 0, [⟨"NOFIT", 31, 16, .rc, 0⟩, ⟨"CLASS2", 15, 0, .rc, 0⟩]⟩,
  ⟨"CMP_ENG_ERR", 0x70101c, 17, 0x40, 1, 0, 0, 0, [⟨"VERIFY_MISMATCH", 31, 24, .rc, 0⟩, ⟨"DECODE_RETRY", 23, 16, .rc, 0⟩, ⟨"EXPAND_LIMIT", 15, 8, .rc, 0⟩, ⟨"NO_SPACE", 7, 0, .rc, 0⟩]⟩]

/-- The registers of the CIP block (their offsets, arrays, fields, access types and reset values: rules R409, R410, R412, R413, R414). -/
def regRowsCip : List RegRow :=
[
  ⟨"CIP_STATUS", 0x800000, 1, 0, 1, 0, 0, 0, [⟨"SPARE_SERVES", 31, 24, .ro, 0xff⟩, ⟨"OFFLINE", 19, 16, .ro, 0⟩, ⟨"IN_TEST", 11, 8, .ro, 0⟩, ⟨"ACTIVE", 3, 0, .ro, 0⟩]⟩,
  ⟨"CIP_CFG", 0x800010, 1, 0, 1, 0, 0x800014, 0, [⟨"MISMATCH_LIMIT", 3, 0, .rws, 2⟩]⟩,
  ⟨"CIP_ENG_STATUS", 0x801000, 9, 0x40, 1, 0, 0, 0, [⟨"HOLD_KIB", 24, 16, .ro, 0⟩, ⟨"CONTEXTS", 12, 8, .ro, 0⟩, ⟨"KEYS_CACHED", 3, 0, .ro, 0⟩]⟩,
  ⟨"CIP_ENG_IN_LO", 0x801004, 9, 0x40, 1, 0, 0, 0, [⟨"BYTES", 31, 0, .ro, 0⟩]⟩,
  ⟨"CIP_ENG_IN_HI", 0x801008, 9, 0x40, 1, 0, 0, 0, [⟨"BYTES", 31, 0, .ro, 0⟩]⟩,
  ⟨"CIP_ENG_OUT_LO", 0x80100c, 9, 0x40, 1, 0, 0, 0, [⟨"BYTES", 31, 0, .ro, 0⟩]⟩,
  ⟨"CIP_ENG_OUT_HI", 0x801010, 9, 0x40, 1, 0, 0, 0, [⟨"BYTES", 31, 0, .ro, 0⟩]⟩,
  ⟨"CIP_ENG_RELEASE", 0x801014, 9, 0x40, 1, 0, 0, 0, [⟨"PROVISIONAL", 31, 16, .rc, 0⟩, ⟨"HELD", 15, 0, .rc, 0⟩]⟩,
  ⟨"CIP_ENG_ERR", 0x801018, 9, 0x40, 1, 0, 0, 0, [⟨"VERIFY_MISMATCH", 31, 24, .rc, 0⟩, ⟨"AUTH_FAIL", 23, 16, .rc, 0⟩, ⟨"KEY_REVOKED", 15, 8, .rc, 0⟩, ⟨"FORMAT", 7, 0, .rc, 0⟩]⟩]

/-- The registers of the KEY block (their offsets, arrays, fields, access types and reset values: rules R402, R403, R404, R405, R407, R408). -/
def regRowsKey : List RegRow :=
[
  ⟨"KEY_STATUS", 0x900000, 1, 0, 1, 0, 0, 0, [⟨"PENDING", 31, 26, .ro, 0⟩, ⟨"FREE", 25, 13, .ro, 0⟩, ⟨"LOADED", 12, 0, .ro, 0⟩]⟩,
  ⟨"KEY_REQ_OP", 0x900010, 1, 0, 1, 0, 0x900028, 0, [⟨"SLOT", 27, 16, .rws, 0⟩, ⟨"ATTR", 11, 8, .rws, 0⟩, ⟨"KIND", 7, 4, .rws, 0⟩, ⟨"OP", 3, 0, .rws, 0⟩]⟩,
  ⟨"KEY_REQ_ARG", 0x900014, 1, 0, 1, 0, 0x900028, 0, [⟨"HANDLE", 20, 16, .rws, 0⟩, ⟨"INSTANCE", 8, 0, .rws, 0⟩]⟩,
  ⟨"KEY_REQ_ADDR_LO", 0x900018, 1, 0, 1, 0, 0x900028, 0, [⟨"ADDR", 31, 0, .rws, 0⟩]⟩,
  ⟨"KEY_REQ_ADDR_HI", 0x90001c, 1, 0, 1, 0, 0x900028, 0, [⟨"ADDR", 31, 0, .rws, 0⟩]⟩,
  ⟨"KEY_REQ_LEN", 0x900020, 1, 0, 1, 0, 0x900028, 0, [⟨"LEN", 12, 0, .rws, 0⟩]⟩,
  ⟨"KEY_REQ_COOKIE", 0x900024, 1, 0, 1, 0, 0x900028, 0, [⟨"COOKIE", 31, 0, .rws, 0⟩]⟩,
  ⟨"KEY_RESULT", 0x900030, 1, 0, 1, 0, 0, 0, [⟨"VALID", 8, 8, .w1c, 0⟩, ⟨"STATUS", 7, 0, .ro, 0⟩]⟩,
  ⟨"KEY_RESULT_COOKIE", 0x900034, 1, 0, 1, 0, 0, 0, [⟨"COOKIE", 31, 0, .ro, 0⟩]⟩,
  ⟨"KEY_SLOT_STATUS", 0x901000, 4096, 0x10, 1, 0, 0, 0, [⟨"STATE", 26, 24, .ro, 0⟩, ⟨"KIND", 22, 20, .ro, 0⟩, ⟨"ATTR", 19, 16, .ro, 0⟩, ⟨"OWNER", 8, 0, .ro, 0⟩]⟩,
  ⟨"KEY_SLOT_GEN", 0x901004, 4096, 0x10, 1, 0, 0, 0, [⟨"GEN", 31, 0, .ro, 0⟩]⟩,
  ⟨"KEY_SLOT_USE", 0x901008, 4096, 0x10, 1, 0, 0, 0, [⟨"HANDLES", 22, 17, .ro, 0⟩, ⟨"USERS", 16, 0, .ro, 0⟩]⟩]

/-- The registers of the DGT block (their offsets, arrays, fields, access types and reset values: rules R431, R432, R433, R434). -/
def regRowsDgt : List RegRow :=
[
  ⟨"DGT_STATUS", 0xa00000, 1, 0, 1, 0, 0, 0, [⟨"HMAC_ENTRIES", 23, 12, .ro, 0⟩, ⟨"OFFLINE", 11, 8, .ro, 0⟩, ⟨"IN_TEST", 7, 4, .ro, 0⟩, ⟨"ACTIVE", 3, 0, .ro, 0⟩]⟩,
  ⟨"DGT_RESULT", 0xa02000, 512, 4, 1, 0, 0xa00010, 0, [⟨"EN", 31, 31, .rws, 0⟩, ⟨"BASE", 27, 0, .rws, 0⟩]⟩,
  ⟨"DGT_FEED_CTL", 0xa01000, 8, 0x80, 1, 0, 0xa01014, 0x80, [⟨"KEY_SLOT", 27, 16, .rws, 0⟩, ⟨"ALG", 15, 8, .rws, 0⟩, ⟨"OP", 2, 0, .rws, 0⟩]⟩,
  ⟨"DGT_FEED_LEN_LO", 0xa01004, 8, 0x80, 1, 0, 0xa01014, 0x80, [⟨"LEN", 31, 0, .rws, 0⟩]⟩,
  ⟨"DGT_FEED_LEN_HI", 0xa01008, 8, 0x80, 1, 0, 0xa01014, 0x80, [⟨"LEN", 31, 0, .rws, 0⟩]⟩,
  ⟨"DGT_FEED_ADDR_LO", 0xa0100c, 8, 0x80, 1, 0, 0xa01014, 0x80, [⟨"ADDR", 31, 0, .rws, 0⟩]⟩,
  ⟨"DGT_FEED_ADDR_HI", 0xa01010, 8, 0x80, 1, 0, 0xa01014, 0x80, [⟨"ADDR", 31, 0, .rws, 0⟩]⟩,
  ⟨"DGT_FEED_W0", 0xa01018, 8, 0x80, 1, 0, 0, 0, [⟨"BYTES", 31, 0, .wo, 0⟩]⟩,
  ⟨"DGT_FEED_W1", 0xa0101c, 8, 0x80, 1, 0, 0, 0, [⟨"BYTES", 31, 0, .wo, 0⟩]⟩,
  ⟨"DGT_FEED_LAST", 0xa01020, 8, 0x80, 1, 0, 0, 0, [⟨"VALID", 3, 0, .wo, 0⟩]⟩,
  ⟨"DGT_FEED_RESULT", 0xa01024, 8, 0x80, 1, 0, 0, 0, [⟨"CTX", 17, 16, .ro, 0⟩, ⟨"VALID", 8, 8, .w1c, 0⟩, ⟨"STATUS", 7, 0, .ro, 0⟩]⟩,
  ⟨"DGT_ENG_COUNTS", 0xa01028, 8, 0x80, 1, 0, 0, 0, [⟨"TRUNCATED", 31, 24, .rc, 0⟩, ⟨"SHORT", 23, 16, .rc, 0⟩, ⟨"FALLBACK", 15, 8, .rc, 0⟩, ⟨"IGNORED", 7, 0, .rc, 0⟩]⟩]
  ++ [
  ⟨"DGT_FEED_DIGEST", 0xa01040, 8, 0x80, 16, 4, 0, 0, [⟨"DIGEST", 31, 0, .ro, 0⟩]⟩]

/-- The registers of the ASU block (their offsets, arrays, fields, access types and reset values: rules R462, R463, R465, R466, R467). -/
def regRowsAsu : List RegRow :=
[
  ⟨"ASU_STATUS", 0xb00000, 1, 0, 1, 0, 0, 0, [⟨"SPARE1_SERVES", 31, 24, .ro, 0xff⟩, ⟨"SPARE0_SERVES", 23, 16, .ro, 0xff⟩, ⟨"SHADOW", 9, 8, .ro, 0⟩, ⟨"OFFLINE_BANKS", 6, 0, .ro, 0⟩]⟩,
  ⟨"ASU_CFG", 0xb00010, 1, 0, 1, 0, 0xb00014, 0, [⟨"SCRUB_MS", 26, 16, .rws, 0x3e8⟩, ⟨"UPD_WAIT", 3, 0, .rws, 8⟩]⟩,
  ⟨"ASU_SCRUB", 0xb00020, 1, 0, 1, 0, 0, 0, [⟨"LAST_PASS_MS", 31, 16, .ro, 0⟩]⟩,
  ⟨"ASU_SCRUB_COUNTS", 0xb00024, 1, 0, 1, 0, 0, 0, [⟨"CORRECTED", 31, 24, .rc, 0⟩, ⟨"REWRITTEN", 23, 16, .rc, 0⟩, ⟨"SHADOW_FIXED", 15, 8, .rc, 0⟩, ⟨"LOST", 7, 0, .rc, 0⟩]⟩,
  ⟨"ASU_PORT_SEARCHES", 0xb00100, 4, 8, 1, 0, 0, 0, [⟨"KEYS", 31, 0, .rc, 0⟩]⟩,
  ⟨"ASU_PORT_WAITS", 0xb00104, 4, 8, 1, 0, 0, 0, [⟨"CONFLICT", 31, 16, .rc, 0⟩, ⟨"WIDE", 15, 0, .rc, 0⟩]⟩,
  ⟨"ASU_BANK", 0xb01000, 64, 4, 1, 0, 0, 0, [⟨"LOST", 31, 31, .ro, 0⟩, ⟨"STATE", 26, 24, .ro, 0⟩, ⟨"SPARE", 21, 20, .ro, 0⟩, ⟨"VALID_ENTRIES", 13, 0, .ro, 0⟩]⟩]

/-- The registers of the GLY block (their offsets, arrays, fields, access types and reset values: rules R494, R495, R496, R497, R498, R500). -/
def regRowsGly : List RegRow :=
[
  ⟨"GLY_STATUS", 0xc00000, 1, 0, 1, 0, 0, 0, [⟨"SPARE1_SERVES", 31, 24, .ro, 0xff⟩, ⟨"SPARE0_SERVES", 23, 16, .ro, 0xff⟩, ⟨"FAULTED", 11, 6, .ro, 0⟩, ⟨"RUNNING", 5, 0, .ro, 0⟩]⟩,
  ⟨"GLY_CORE_STATUS", 0xc01000, 50, 0x40, 1, 0, 0, 0, [⟨"LAST_TRAP", 23, 16, .ro, 0⟩, ⟨"TICKETS", 15, 8, .ro, 0⟩, ⟨"STATE", 2, 0, .ro, 0⟩]⟩,
  ⟨"GLY_CORE_CTL", 0xc01004, 50, 0x40, 1, 0, 0, 0, [⟨"STOP", 0, 0, .wo, 0⟩]⟩,
  ⟨"GLY_CORE_CFG", 0xc01008, 16, 0x40, 1, 0, 0xc0100c, 0x40, [⟨"IDLE_LIMIT", 31, 24, .rws, 0x64⟩, ⟨"NJ_4K", 15, 0, .rws, 0xc8⟩]⟩,
  ⟨"GLY_CORE_CFG", 0xc01408, 32, 0x40, 1, 0, 0xc0140c, 0x40, [⟨"IDLE_LIMIT", 31, 24, .rws, 0x64⟩, ⟨"NJ_4K", 15, 0, .rws, 0x3e8⟩]⟩,
  ⟨"GLY_CORE_CFG", 0xc01c08, 2, 0x40, 1, 0, 0xc01c0c, 0x40, [⟨"IDLE_LIMIT", 31, 24, .rws, 0x64⟩, ⟨"NJ_4K", 15, 0, .rws, 0x3e8⟩]⟩,
  ⟨"GLY_CORE_WIN_BASE", 0xc01010, 50, 0x40, 4, 8, 0xc01030, 0x40, [⟨"EN", 31, 31, .rws, 0⟩, ⟨"X", 30, 30, .rws, 0⟩, ⟨"W", 29, 29, .rws, 0⟩, ⟨"R", 28, 28, .rws, 0⟩, ⟨"BASE_PAGE", 27, 0, .rws, 0⟩]⟩,
  ⟨"GLY_CORE_WIN_LIMIT", 0xc01014, 50, 0x40, 4, 8, 0xc01030, 0x40, [⟨"LAST_PAGE", 27, 0, .rws, 0⟩]⟩,
  ⟨"GLY_CORE_COUNTS", 0xc01034, 50, 0x40, 1, 0, 0, 0, [⟨"TRAPS", 31, 16, .rc, 0⟩, ⟨"BAD_STATUS", 15, 8, .rc, 0⟩, ⟨"FOREIGN_TICKET", 7, 0, .rc, 0⟩]⟩]

/-- The registers of the DRC block (their offsets, arrays, fields, access types and reset values: rules R550, R551, R553, R554, R556). -/
def regRowsDrc : List RegRow :=
[
  ⟨"DRC_STATUS", 0xd00000, 1, 0, 1, 0, 0, 0, [⟨"ALL_LOST", 12, 12, .ro, 0⟩, ⟨"TRAINING", 11, 8, .ro, 0⟩, ⟨"OFFLINE", 7, 4, .ro, 0⟩, ⟨"IN_SERVICE", 3, 0, .ro, 0⟩]⟩,
  ⟨"DRC_BANK_SEL", 0xd00010, 1, 4, 1, 0, 0xd00020, 0, [⟨"SEL4", 24, 20, .rws, 0x1f⟩, ⟨"SEL3", 19, 15, .rws, 0x1f⟩, ⟨"SEL2", 14, 10, .rws, 0x1f⟩, ⟨"SEL1", 9, 5, .rws, 4⟩, ⟨"SEL0", 4, 0, .rws, 0⟩]⟩,
  ⟨"DRC_BANK_SEL", 0xd00014, 1, 4, 1, 0, 0xd00020, 0, [⟨"SEL4", 24, 20, .rws, 0x1f⟩, ⟨"SEL3", 19, 15, .rws, 0x1f⟩, ⟨"SEL2", 14, 10, .rws, 0x1f⟩, ⟨"SEL1", 9, 5, .rws, 5⟩, ⟨"SEL0", 4, 0, .rws, 1⟩]⟩,
  ⟨"DRC_BANK_SEL", 0xd00018, 1, 4, 1, 0, 0xd00020, 0, [⟨"SEL4", 24, 20, .rws, 0x1f⟩, ⟨"SEL3", 19, 15, .rws, 0x1f⟩, ⟨"SEL2", 14, 10, .rws, 0x1f⟩, ⟨"SEL1", 9, 5, .rws, 6⟩, ⟨"SEL0", 4, 0, .rws, 2⟩]⟩,
  ⟨"DRC_BANK_SEL", 0xd0001c, 1, 4, 1, 0, 0xd00020, 0, [⟨"SEL4", 24, 20, .rws, 0x1f⟩, ⟨"SEL3", 19, 15, .rws, 0x1f⟩, ⟨"SEL2", 14, 10, .rws, 0x1f⟩, ⟨"SEL1", 9, 5, .rws, 7⟩, ⟨"SEL0", 4, 0, .rws, 3⟩]⟩,
  ⟨"DRC_CH_STATUS", 0xd01000, 4, 0x40, 1, 0, 0, 0, [⟨"SIZE_GIB", 21, 16, .ro, 0⟩, ⟨"BELOW_TARGET", 12, 12, .ro, 0⟩, ⟨"RANKS2", 8, 8, .ro, 0⟩, ⟨"RATE", 6, 4, .ro, 0⟩, ⟨"STATE", 2, 0, .ro, 1⟩]⟩,
  ⟨"DRC_CH_CFG", 0xd01004, 4, 0x40, 1, 0, 0xd01008, 0x40, [⟨"DRIFT_C", 20, 16, .rws, 10⟩, ⟨"PAGE_THRESH", 10, 8, .rws, 2⟩, ⟨"THERM_RATE", 6, 4, .rws, 7⟩, ⟨"RATE_CAP", 2, 0, .rws, 7⟩]⟩,
  ⟨"DRC_CH_TRAIN", 0xd0100c, 4, 0x40, 1, 0, 0, 0, [⟨"TRAIN_TEMP", 31, 24, .ro, 0⟩, ⟨"TRAININGS", 15, 8, .ro, 0⟩, ⟨"LAST_RATE", 2, 0, .ro, 0⟩]⟩,
  ⟨"DRC_CH_ERR", 0xd01010, 4, 0x40, 1, 0, 0, 0, [⟨"CORRECTED", 31, 16, .rc, 0⟩, ⟨"UNCORR", 15, 0, .rc, 0⟩]⟩,
  ⟨"DRC_CH_PAGE", 0xd01014, 4, 0x40, 1, 0, 0, 0, [⟨"HITS", 31, 16, .rc, 0⟩, ⟨"MISSES", 15, 0, .rc, 0⟩]⟩,
  ⟨"DRC_CH_WAITS", 0xd01018, 4, 0x40, 1, 0, 0, 0, [⟨"RAW", 31, 16, .rc, 0⟩, ⟨"POSTPONED", 15, 0, .rc, 0⟩]⟩,
  ⟨"DRC_CH_USABLE", 0xd0101c, 4, 0x40, 1, 0, 0, 0, [⟨"MIB", 31, 0, .ro, 0⟩]⟩]

/-- The registers of the HIF block (their offsets, arrays, fields, access types and reset values: rules R585, R586, R587, R588, R589, R590, R591). -/
def regRowsHif : List RegRow :=
[
  ⟨"HIF_STATUS", 0xe00000, 1, 0, 1, 0, 0, 0, [⟨"X8X8", 2, 2, .ro, 0⟩, ⟨"B_UP", 1, 1, .ro, 0⟩, ⟨"A_UP", 0, 0, .ro, 0⟩]⟩,
  ⟨"HIF_PORT_STATUS", 0xe00010, 2, 4, 1, 0, 0, 0, [⟨"IDE", 12, 12, .ro, 0⟩, ⟨"L0P", 11, 11, .ro, 0⟩, ⟨"RATE", 10, 8, .ro, 0⟩, ⟨"WIDTH", 4, 0, .ro, 0⟩]⟩,
  ⟨"HIF_PORT_CFG", 0xe00020, 2, 8, 1, 0, 0xe00024, 8, [⟨"L0P_EN", 8, 8, .rws, 1⟩, ⟨"RATE_CAP", 2, 0, .rws, 5⟩]⟩,
  ⟨"HIF_PS", 0xe00030, 1, 0, 1, 0, 0xe00034, 0, [⟨"MIN_PS", 1, 0, .rws, 0⟩]⟩,
  ⟨"HIF_MI", 0xe00038, 1, 0, 1, 0, 0xe0003c, 0, [⟨"MI_EN", 8, 8, .rws, 1⟩, ⟨"SMB_ADDR", 6, 0, .rws, 0x1d⟩]⟩,
  ⟨"HIF_COUNTS", 0xe00040, 1, 0, 1, 0, 0, 0, [⟨"LONG", 31, 16, .rc, 0⟩, ⟨"SHORT", 15, 0, .rc, 0⟩]⟩,
  ⟨"HIF_COUNTS2", 0xe00044, 1, 0, 1, 0, 0, 0, [⟨"NOT_READY", 31, 16, .rc, 0⟩, ⟨"ABORTED", 15, 0, .rc, 0⟩]⟩,
  ⟨"HIF_MEM_LINES", 0xe01000, 512, 4, 1, 0, 0xe00048, 0, [⟨"MEM_OUT_LINE", 27, 16, .rws, 0⟩, ⟨"MEM_IN_LINE", 11, 0, .rws, 0⟩]⟩,
  ⟨"HIF_NS_LINES0", 0xe04020, 1024, 0x20, 1, 0, 0xe04034, 0x20, [⟨"WRITE_LINE", 27, 16, .rws, 0⟩, ⟨"READ_LINE", 11, 0, .rws, 0⟩]⟩,
  ⟨"HIF_NS_LINES1", 0xe04024, 1024, 0x20, 1, 0, 0xe04034, 0x20, [⟨"FLUSH_LINE", 27, 16, .rws, 0⟩, ⟨"FUA_LINE", 11, 0, .rws, 0⟩]⟩,
  ⟨"HIF_NS_LINES2", 0xe04028, 1024, 0x20, 1, 0, 0xe04034, 0x20, [⟨"SECURE_LINE", 27, 16, .rws, 0⟩, ⟨"DISCARD_LINE", 11, 0, .rws, 0⟩]⟩,
  ⟨"HIF_NS_LINES3", 0xe0402c, 1024, 0x20, 1, 0, 0xe04034, 0x20, [⟨"LOCAL_WRITE_LINE", 27, 16, .rws, 0⟩, ⟨"LOCAL_READ_LINE", 11, 0, .rws, 0⟩]⟩]
  ++ [
  ⟨"HIF_NS_KEY", 0xe04030, 1024, 0x20, 1, 0, 0xe04034, 0x20, [⟨"KEYED", 31, 31, .rws, 0⟩, ⟨"ZONED", 30, 30, .ro, 0⟩, ⟨"OWNER", 24, 16, .ro, 0⟩, ⟨"KEY_SLOT", 11, 0, .rws, 0⟩]⟩]

/-- The registers of the TEN block (their offsets, arrays, fields, access types and reset values: rules R614, R615). -/
def regRowsTen : List RegRow :=
[
  ⟨"TEN_STATUS", 0xf00000, 1, 0, 1, 0, 0, 0, [⟨"INSTANCES", 24, 16, .ro, 0⟩, ⟨"RESETTING", 8, 0, .ro, 0⟩]⟩,
  ⟨"TEN_REQ_OP", 0xf00010, 1, 0, 1, 0, 0xf0002c, 0, [⟨"UNIT", 31, 24, .rws, 0⟩, ⟨"INSTANCE", 16, 8, .rws, 0⟩, ⟨"OP", 3, 0, .rws, 0⟩]⟩,
  ⟨"TEN_REQ_ARG", 0xf00014, 1, 0, 1, 0, 0xf0002c, 0, [⟨"LMEM_64M", 31, 21, .rws, 0⟩, ⟨"PORT", 16, 16, .rws, 0⟩, ⟨"VF", 8, 0, .rws, 0⟩]⟩,
  ⟨"TEN_REQ_WIN2_BASE", 0xf00018, 1, 0, 1, 0, 0xf0002c, 0, [⟨"EN", 31, 31, .rws, 0⟩, ⟨"X", 30, 30, .rws, 0⟩, ⟨"W", 29, 29, .rws, 0⟩, ⟨"R", 28, 28, .rws, 0⟩, ⟨"BASE_PAGE", 27, 0, .rws, 0⟩]⟩,
  ⟨"TEN_REQ_WIN2_LIMIT", 0xf0001c, 1, 0, 1, 0, 0xf0002c, 0, [⟨"LAST_PAGE", 27, 0, .rws, 0⟩]⟩,
  ⟨"TEN_REQ_WIN3_BASE", 0xf00020, 1, 0, 1, 0, 0xf0002c, 0, [⟨"EN", 31, 31, .rws, 0⟩, ⟨"X", 30, 30, .rws, 0⟩, ⟨"W", 29, 29, .rws, 0⟩, ⟨"R", 28, 28, .rws, 0⟩, ⟨"BASE_PAGE", 27, 0, .rws, 0⟩]⟩,
  ⟨"TEN_REQ_WIN3_LIMIT", 0xf00024, 1, 0, 1, 0, 0xf0002c, 0, [⟨"LAST_PAGE", 27, 0, .rws, 0⟩]⟩,
  ⟨"TEN_REQ_COOKIE", 0xf00028, 1, 0, 1, 0, 0xf0002c, 0, [⟨"COOKIE", 31, 0, .rws, 0⟩]⟩,
  ⟨"TEN_RESULT", 0xf00030, 1, 0, 1, 0, 0, 0, [⟨"VALID", 8, 8, .w1c, 0⟩, ⟨"STATUS", 7, 0, .ro, 0⟩]⟩,
  ⟨"TEN_RESULT_COOKIE", 0xf00034, 1, 0, 1, 0, 0, 0, [⟨"COOKIE", 31, 0, .ro, 0⟩]⟩,
  ⟨"TEN_INST_STATUS", 0xf01040, 511, 0x40, 1, 0, 0, 0, [⟨"RESETS", 31, 24, .ro, 0⟩, ⟨"VF", 16, 8, .ro, 0⟩, ⟨"PORT", 4, 4, .ro, 0⟩, ⟨"STATE", 1, 0, .ro, 0⟩]⟩,
  ⟨"TEN_INST_OWNS", 0xf01044, 511, 0x40, 1, 0, 0, 0, [⟨"LMEM_64M", 31, 21, .ro, 0⟩, ⟨"DEDICATED", 20, 15, .ro, 0⟩, ⟨"CORES", 13, 8, .ro, 0⟩, ⟨"FENS", 5, 0, .ro, 0⟩]⟩]
  ++ [
  ⟨"TEN_LOG_CFG", 0xf01048, 511, 0x40, 1, 0, 0xf01064, 0x40, [⟨"EN", 31, 31, .rws, 0⟩, ⟨"COVER_GIB", 12, 0, .rws, 0⟩]⟩,
  ⟨"TEN_LOG_BASE_LO", 0xf0104c, 511, 0x40, 1, 0, 0xf01064, 0x40, [⟨"BASE", 31, 0, .rws, 0⟩]⟩,
  ⟨"TEN_LOG_BASE_HI", 0xf01050, 511, 0x40, 1, 0, 0xf01064, 0x40, [⟨"BASE", 31, 0, .rws, 0⟩]⟩,
  ⟨"TEN_LOG_BUF0_LO", 0xf01054, 511, 0x40, 1, 0, 0xf01064, 0x40, [⟨"ADDR", 31, 0, .rws, 0⟩]⟩,
  ⟨"TEN_LOG_BUF0_HI", 0xf01058, 511, 0x40, 1, 0, 0xf01064, 0x40, [⟨"ADDR", 31, 0, .rws, 0⟩]⟩,
  ⟨"TEN_LOG_BUF1_LO", 0xf0105c, 511, 0x40, 1, 0, 0xf01064, 0x40, [⟨"ADDR", 31, 0, .rws, 0⟩]⟩,
  ⟨"TEN_LOG_BUF1_HI", 0xf01060, 511, 0x40, 1, 0, 0xf01064, 0x40, [⟨"ADDR", 31, 0, .rws, 0⟩]⟩,
  ⟨"TEN_LOG_CTL", 0xf01068, 511, 0x40, 1, 0, 0, 0, [⟨"SWITCH", 0, 0, .wo, 0⟩]⟩,
  ⟨"TEN_LOG_STATUS", 0xf0106c, 511, 0x40, 1, 0, 0, 0, [⟨"PERIOD", 31, 16, .ro, 0⟩, ⟨"OVERFLOW", 2, 2, .ro, 0⟩, ⟨"SWITCHING", 1, 1, .ro, 0⟩, ⟨"ACTIVE_BUF", 0, 0, .ro, 0⟩]⟩]

/-- The registers of the FED block (their offsets, arrays, fields, access types and reset values: rules R638, R639, R640, R641, R642, R643, R644, R645, R646). -/
def regRowsFed : List RegRow :=
[
  ⟨"FED_STATUS", 0x1000000, 1, 0, 1, 0, 0, 0, [⟨"DUPLICATE", 31, 31, .ro, 0⟩, ⟨"ISOLATED", 30, 30, .ro, 0⟩, ⟨"NEIGHBOURS", 22, 16, .ro, 0⟩, ⟨"PORTS_UP", 3, 0, .ro, 0⟩]⟩,
  ⟨"FED_NODE_CFG", 0x1000010, 1, 0, 1, 0, 0x100001c, 0, [⟨"EN", 31, 31, .rws, 0⟩, ⟨"NODE", 15, 0, .rws, 0⟩]⟩,
  ⟨"FED_ID", 0x1000014, 1, 0, 1, 0, 0x100001c, 0, [⟨"FED_ID", 31, 0, .rws, 0⟩]⟩,
  ⟨"FED_ETHERTYPE", 0x1000018, 1, 0, 1, 0, 0x100001c, 0, [⟨"ETHERTYPE", 15, 0, .rws, 0x88b5⟩]⟩,
  ⟨"FED_LINK_CFG", 0x1000020, 1, 0, 1, 0, 0x1000024, 0, [⟨"HOP_LIMIT", 27, 24, .rws, 8⟩, ⟨"RETRY_MAX", 19, 16, .rws, 15⟩, ⟨"RTO_US", 15, 0, .rws, 0x64⟩]⟩,
  ⟨"FED_TABLE_CTL", 0x1000030, 1, 0, 1, 0, 0x1000040, 0, [⟨"TABLE", 1, 0, .rws, 0⟩]⟩,
  ⟨"FED_TABLE_ADDR_LO", 0x1000034, 1, 0, 1, 0, 0x1000040, 0, [⟨"ADDR", 31, 0, .rws, 0⟩]⟩,
  ⟨"FED_TABLE_ADDR_HI", 0x1000038, 1, 0, 1, 0, 0x1000040, 0, [⟨"ADDR", 31, 0, .rws, 0⟩]⟩,
  ⟨"FED_TABLE_LEN", 0x100003c, 1, 0, 1, 0, 0x1000040, 0, [⟨"LEN", 31, 0, .rws, 0⟩]⟩,
  ⟨"FED_INCARNATION", 0x1000044, 1, 0, 1, 0, 0, 0, [⟨"INC", 31, 0, .ro, 0⟩]⟩,
  ⟨"FED_COUNTS", 0x1000048, 1, 0, 1, 0, 0, 0, [⟨"RETRANSMITS", 31, 16, .rc, 0⟩, ⟨"RETURNED", 15, 0, .rc, 0⟩]⟩,
  ⟨"FED_DROPS", 0x100004c, 1, 0, 1, 0, 0, 0, [⟨"FWD_DROPPED", 31, 16, .rc, 0⟩, ⟨"BAD_CHECK", 15, 8, .rc, 0⟩, ⟨"FOREIGN", 7, 0, .rc, 0⟩]⟩]
  ++ [
  ⟨"FED_PLACE", 0x1000050, 1, 0, 1, 0, 0, 0, [⟨"TERM_KEPT", 31, 24, .rc, 0⟩, ⟨"PROMOTIONS", 23, 16, .rc, 0⟩, ⟨"PRIMARY", 15, 0, .ro, 0⟩]⟩,
  ⟨"FED_PORT_STATUS", 0x1000100, 4, 0x10, 1, 0, 0, 0, [⟨"CR1", 3, 3, .ro, 0⟩, ⟨"LINK", 1, 0, .ro, 0⟩]⟩,
  ⟨"FED_PORT_MAC_LO", 0x1000104, 4, 0x10, 1, 0, 0, 0, [⟨"MAC", 31, 0, .ro, 0⟩]⟩,
  ⟨"FED_PORT_MAC_HI", 0x1000108, 4, 0x10, 1, 0, 0, 0, [⟨"MAC", 15, 0, .ro, 0⟩]⟩,
  ⟨"FED_PORT_FEC", 0x100010c, 4, 0x10, 1, 0, 0, 0, [⟨"UNCORRECTED", 31, 16, .rc, 0⟩, ⟨"CORRECTED", 15, 0, .rc, 0⟩]⟩,
  ⟨"FED_NEIGHBOUR", 0x1000400, 64, 8, 1, 0, 0, 0, [⟨"VALID", 31, 31, .ro, 0⟩, ⟨"PORTS", 19, 16, .ro, 0⟩, ⟨"NODE", 15, 0, .ro, 0⟩]⟩,
  ⟨"FED_NEIGHBOUR_AGE", 0x1000404, 64, 8, 1, 0, 0, 0, [⟨"AGE_US", 9, 0, .ro, 0⟩]⟩,
  ⟨"FED_INST_TAG", 0x1001000, 1, 4, 1, 0, 0, 0, [⟨"TAG", 31, 0, .ro, 0⟩]⟩,
  ⟨"FED_INST_TAG", 0x1001004, 511, 4, 1, 0, 0x1000058, 0, [⟨"TAG", 31, 0, .rws, 0⟩]⟩,
  ⟨"FED_RX_LINE", 0x1002000, 218, 4, 1, 0, 0x100005c, 0, [⟨"EN", 31, 31, .rws, 0⟩, ⟨"LINE", 11, 0, .rws, 0⟩]⟩]

/-- The registers of the TRU block (their offsets, arrays, fields, access types and reset values: rules R672, R673, R674, R675, R676, R677, R678, R679). -/
def regRowsTru : List RegRow :=
[
  ⟨"TRU_STATUS", 0x1100000, 1, 0, 1, 0, 0, 0, [⟨"LIFECYCLE", 31, 30, .ro, 0⟩, ⟨"DUS_OK", 29, 29, .ro, 0⟩, ⟨"TEST_ACTIVE", 28, 28, .ro, 0⟩, ⟨"CLAIMED", 27, 27, .ro, 0⟩, ⟨"REVOKED", 23, 16, .ro, 0⟩, ⟨"SESSIONS", 6, 0, .ro, 0⟩]⟩,
  ⟨"TRU_COUNTS", 0x1100004, 1, 0, 1, 0, 0, 0, [⟨"UNWRAP_FAIL", 31, 16, .rc, 0⟩, ⟨"REG_UPDATES", 15, 8, .rc, 0⟩, ⟨"ATTEST_FAIL", 7, 0, .rc, 0⟩]⟩,
  ⟨"TRU_MEAS_SEL", 0x1100010, 1, 0, 1, 0, 0, 0, [⟨"INSTANCE", 24, 16, .rw, 0⟩, ⟨"INDEX", 7, 0, .rw, 0⟩]⟩,
  ⟨"TRU_MEAS_VALUE", 0x1100040, 12, 4, 1, 0, 0, 0, [⟨"VALUE", 31, 0, .ro, 0⟩]⟩,
  ⟨"TRU_REG_SEL", 0x1100080, 1, 0, 1, 0, 0, 0, [⟨"INSTANCE", 24, 16, .rw, 0⟩, ⟨"KEY_INDEX", 2, 0, .rw, 0⟩]⟩,
  ⟨"TRU_REG_HASH", 0x11000c0, 12, 4, 1, 0, 0, 0, [⟨"HASH", 31, 0, .ro, 0⟩]⟩,
  ⟨"TRU_FUSE_PEAT", 0x1100100, 1, 0, 1, 0, 0x1100108, 0, [⟨"CMAX_MF", 31, 18, .rws, 0⟩, ⟨"VMAX_DV", 17, 8, .rws, 0⟩, ⟨"CEIL_QJ", 7, 0, .rws, 0⟩]⟩,
  ⟨"TRU_FUSE_CTL", 0x1100104, 1, 0, 1, 0, 0x1100108, 0, [⟨"DEPLOY", 0, 0, .rws, 0⟩]⟩,
  ⟨"TRU_INST_EPOCH", 0x1101000, 512, 4, 1, 0, 0, 0, [⟨"EPOCH", 31, 0, .ro, 0⟩]⟩]

/-- The registers of the BOOT block (their offsets, arrays, fields, access types and reset values: rules R695, R697, R698, R699, R700). -/
def regRowsBoot : List RegRow :=
[
  ⟨"BOOT_STATUS", 0x1200000, 1, 0, 1, 0, 0, 0, [⟨"CAUSE", 23, 16, .ro, 0⟩, ⟨"ABANDONED", 13, 13, .ro, 0⟩, ⟨"KIND", 9, 8, .ro, 0⟩, ⟨"PHASE", 3, 0, .ro, 0⟩]⟩,
  ⟨"BOOT_CTL", 0x1200004, 1, 0, 1, 0, 0, 0, [⟨"WARM", 0, 0, .wo, 0⟩]⟩,
  ⟨"BOOT_WDT_CFG", 0x1200008, 1, 0, 1, 0, 0x120000c, 0, [⟨"WDT_MS", 15, 0, .rws, 0x7d0⟩]⟩,
  ⟨"BOOT_CYCLES", 0x1200010, 1, 0, 1, 0, 0, 0, [⟨"CYCLES", 31, 0, .ro, 0⟩]⟩,
  ⟨"BOOT_WARM", 0x1200014, 1, 0, 1, 0, 0, 0, [⟨"ABANDONED", 31, 16, .ro, 0⟩, ⟨"WARM", 15, 0, .ro, 0⟩]⟩,
  ⟨"BOOT_KEPT", 0x1200018, 1, 0, 1, 0, 0, 0, [⟨"MAP_KEPT", 4, 4, .ro, 0⟩, ⟨"DRAM", 3, 0, .ro, 0⟩]⟩,
  ⟨"BOOT_KEPT_FLASH", 0x120001c, 1, 0, 1, 0, 0, 0, [⟨"FLASH", 31, 0, .ro, 0⟩]⟩,
  ⟨"BOOT_PHASE_MS", 0x1200040, 7, 4, 1, 0, 0, 0, [⟨"MS", 15, 0, .ro, 0⟩]⟩,
  ⟨"BOOT_ENTRY_MS", 0x1200060, 1, 0, 1, 0, 0, 0, [⟨"MS", 15, 0, .ro, 0⟩]⟩,
  ⟨"BOOT_READY_MS", 0x1200064, 1, 0, 1, 0, 0, 0, [⟨"MS", 15, 0, .ro, 0⟩]⟩]

/-- The registers of the UPD block (their offsets, arrays, fields, access types and reset values: rules R716, R717, R718, R719). -/
def regRowsUpd : List RegRow :=
[
  ⟨"UPD_STATUS", 0x1300000, 1, 0, 1, 0, 0, 0, [⟨"CONFIRM_LEFT_S", 31, 24, .ro, 0⟩, ⟨"FORMAT_CHANGED", 13, 13, .ro, 0⟩, ⟨"FELL_BACK", 12, 12, .ro, 0⟩, ⟨"SELF_OK", 11, 11, .ro, 0⟩, ⟨"BOOTS", 10, 9, .ro, 0⟩, ⟨"TRIAL", 8, 8, .ro, 0⟩, ⟨"ACTIVE", 4, 4, .ro, 0⟩, ⟨"STAGE", 1, 0, .ro, 0⟩]⟩,
  ⟨"UPD_STAGE_ADDR_LO", 0x1300010, 1, 0, 1, 0, 0x1300020, 0, [⟨"ADDR", 31, 0, .rws, 0⟩]⟩,
  ⟨"UPD_STAGE_ADDR_HI", 0x1300014, 1, 0, 1, 0, 0x1300020, 0, [⟨"ADDR", 31, 0, .rws, 0⟩]⟩,
  ⟨"UPD_STAGE_LEN", 0x1300018, 1, 0, 1, 0, 0x1300020, 0, [⟨"LEN", 31, 0, .rws, 0⟩]⟩,
  ⟨"UPD_STAGE_OP", 0x130001c, 1, 0, 1, 0, 0x1300020, 0, [⟨"SLOT", 9, 8, .rws, 0⟩, ⟨"OP", 2, 0, .rws, 0⟩]⟩,
  ⟨"UPD_RESULT", 0x1300030, 1, 0, 1, 0, 0, 0, [⟨"VALID", 8, 8, .w1c, 0⟩, ⟨"STATUS", 7, 0, .ro, 0⟩]⟩,
  ⟨"UPD_RESULT_DETAIL", 0x1300034, 1, 0, 1, 0, 0, 0, [⟨"BLOCK", 31, 0, .ro, 0⟩]⟩,
  ⟨"UPD_CTL", 0x1300038, 1, 0, 1, 0, 0, 0, [⟨"ACTIVATE", 1, 1, .wo, 0⟩, ⟨"CONFIRM", 0, 0, .wo, 0⟩]⟩,
  ⟨"UPD_CFG", 0x130003c, 1, 0, 1, 0, 0x1300040, 0, [⟨"HOLD_CONFIRM", 0, 0, .rws, 0⟩]⟩,
  ⟨"UPD_FLOOR", 0x1300044, 1, 0, 1, 0, 0, 0, [⟨"FLOOR", 7, 0, .ro, 0⟩]⟩,
  ⟨"UPD_SLOT_SEQ_LO", 0x1300050, 2, 0x10, 1, 0, 0, 0, [⟨"SEQ", 31, 0, .ro, 0⟩]⟩,
  ⟨"UPD_SLOT_SEQ_HI", 0x1300054, 2, 0x10, 1, 0, 0, 0, [⟨"SEQ", 31, 0, .ro, 0⟩]⟩]
  ++ [
  ⟨"UPD_SLOT_INFO", 0x1300058, 2, 0x10, 1, 0, 0, 0, [⟨"REFUSED", 9, 9, .ro, 0⟩, ⟨"VALID", 8, 8, .ro, 0⟩, ⟨"SVN", 7, 0, .ro, 0⟩]⟩]

/-- The registers of the EVR block (their offsets, arrays, fields, access types and reset values: rules R728, R729, R730, R731, R732). -/
def regRowsEvr : List RegRow :=
[
  ⟨"EVR_STATUS", 0x1400000, 1, 0, 1, 0, 0, 0, [⟨"CLEARING", 31, 31, .ro, 0⟩, ⟨"NOR_FAIL", 30, 30, .ro, 0⟩, ⟨"RECORDS", 17, 0, .ro, 0⟩]⟩,
  ⟨"EVR_NEXT_SEQ_LO", 0x1400010, 1, 0, 1, 0, 0, 0, [⟨"SEQ", 31, 0, .ro, 0⟩]⟩,
  ⟨"EVR_NEXT_SEQ_HI", 0x1400014, 1, 0, 1, 0, 0, 0, [⟨"SEQ", 31, 0, .ro, 0⟩]⟩,
  ⟨"EVR_OLDEST_SEQ_LO", 0x1400018, 1, 0, 1, 0, 0, 0, [⟨"SEQ", 31, 0, .ro, 0⟩]⟩,
  ⟨"EVR_OLDEST_SEQ_HI", 0x140001c, 1, 0, 1, 0, 0, 0, [⟨"SEQ", 31, 0, .ro, 0⟩]⟩,
  ⟨"EVR_OPTIME_LO", 0x1400020, 1, 0, 1, 0, 0, 0, [⟨"MS", 31, 0, .ro, 0⟩]⟩,
  ⟨"EVR_OPTIME_HI", 0x1400024, 1, 0, 1, 0, 0, 0, [⟨"MS", 31, 0, .ro, 0⟩]⟩,
  ⟨"EVR_READ_SEL_LO", 0x1400030, 1, 0, 1, 0, 0x1400038, 0, [⟨"SEQ", 31, 0, .rws, 0⟩]⟩,
  ⟨"EVR_READ_SEL_HI", 0x1400034, 1, 0, 1, 0, 0x1400038, 0, [⟨"SEQ", 31, 0, .rws, 0⟩]⟩,
  ⟨"EVR_READ_RESULT", 0x140003c, 1, 0, 1, 0, 0, 0, [⟨"FOUND", 0, 0, .ro, 0⟩]⟩,
  ⟨"EVR_READ_DATA", 0x1400040, 16, 4, 1, 0, 0, 0, [⟨"DATA", 31, 0, .ro, 0⟩]⟩,
  ⟨"EVR_CLEAR_CTL", 0x1400080, 1, 0, 1, 0, 0x1400084, 0, [⟨"CLEAR", 0, 0, .rws, 0⟩]⟩]
  ++ [
  ⟨"EVR_COUNTS", 0x1400088, 1, 0, 1, 0, 0, 0, [⟨"DROPPED", 31, 16, .rc, 0⟩, ⟨"SUPPRESSED", 15, 8, .rc, 0⟩, ⟨"TORN", 7, 0, .rc, 0⟩]⟩,
  ⟨"EVR_INST_AREA", 0x1401000, 512, 4, 1, 0, 0x1400090, 0, [⟨"EN", 31, 31, .rws, 0⟩, ⟨"BASE", 27, 0, .rws, 0⟩]⟩]

/-- The registers of the TST block (their offsets, arrays, fields, access types and reset values: rules R745, R746, R747, R748, R749, R750, R751). -/
def regRowsTst : List RegRow :=
[
  ⟨"TST_STATUS", 0x1500000, 1, 0, 1, 0, 0, 0, [⟨"QUEUED", 23, 16, .ro, 0⟩, ⟨"IN_TEST", 15, 8, .ro, 0⟩, ⟨"AUTO_HELD", 2, 2, .ro, 0⟩, ⟨"INJECTING", 1, 1, .ro, 0⟩, ⟨"SESSION", 0, 0, .ro, 0⟩]⟩,
  ⟨"TST_CFG", 0x1500010, 1, 0, 1, 0, 0x1500014, 0, [⟨"ECC_LIMIT", 31, 16, .rws, 0x40⟩, ⟨"ROTATE_H", 7, 0, .rws, 0⟩]⟩,
  ⟨"TST_UNIT_REQ", 0x1500020, 1, 0, 1, 0, 0x1500024, 0, [⟨"TEST", 8, 8, .rws, 0⟩, ⟨"UNIT", 7, 0, .rws, 0⟩]⟩,
  ⟨"TST_UNIT_RESULT", 0x1500028, 1, 0, 1, 0, 0, 0, [⟨"VALID", 16, 16, .w1c, 0⟩, ⟨"UNIT", 15, 8, .ro, 0⟩, ⟨"OUTCOME", 1, 0, .ro, 0⟩]⟩,
  ⟨"TST_INJ_CTL", 0x1500040, 1, 0, 1, 0, 0x1500050, 0, [⟨"TARGET", 15, 8, .rws, 0⟩, ⟨"SUPPRESS_AUTO", 4, 4, .rws, 0⟩, ⟨"KIND", 3, 0, .rws, 0⟩]⟩,
  ⟨"TST_INJ_PARAM", 0x1500044, 1, 0, 1, 0, 0x1500050, 0, [⟨"PARAM", 31, 0, .rws, 0⟩]⟩,
  ⟨"TST_INJ_COUNT", 0x1500048, 1, 0, 1, 0, 0x1500050, 0, [⟨"COUNT", 15, 0, .rws, 0⟩]⟩,
  ⟨"TST_INJ_WINDOW", 0x150004c, 1, 0, 1, 0, 0x1500050, 0, [⟨"WINDOW_US", 31, 0, .rws, 0⟩]⟩,
  ⟨"TST_INJ_STOP", 0x1500054, 1, 0, 1, 0, 0x1500050, 0, [⟨"STOP", 0, 0, .wo, 0⟩]⟩,
  ⟨"TST_QUAD_ERR", 0x1500100, 4, 4, 1, 0, 0, 0, [⟨"CORRECTED", 31, 16, .rc, 0⟩, ⟨"UNCORR", 15, 8, .rc, 0⟩, ⟨"REPLAYS", 7, 0, .rc, 0⟩]⟩,
  ⟨"TST_UNIT_ERR", 0x1501000, 218, 8, 1, 0, 0, 0, [⟨"CORRECTED", 31, 16, .rc, 0⟩, ⟨"UNCORR", 15, 8, .rc, 0⟩, ⟨"REPLAYS", 7, 0, .rc, 0⟩]⟩,
  ⟨"TST_UNIT_TEST", 0x1501004, 218, 8, 1, 0, 0, 0, [⟨"TESTS", 15, 8, .ro, 0⟩, ⟨"LAST", 1, 0, .ro, 0⟩]⟩]

/-- The registers of the VFP block (their offsets, arrays, fields, access types and reset values: rules R403, R404, R405, R407, R602). -/
def regRowsVfp : List RegRow :=
[
  ⟨"VFP_DGT_RESULT", 0x10002080, 512, 0x10000, 1, 0, 0x10002084, 0x10000, [⟨"EN", 31, 31, .rws, 0⟩, ⟨"BASE", 27, 0, .rws, 0⟩]⟩,
  ⟨"VFP_CORE_CMD", 0x10002090, 512, 0x10000, 1, 0, 0x1000209c, 0x10000, [⟨"CMD", 9, 8, .rws, 0⟩, ⟨"UNIT", 7, 0, .rws, 0⟩]⟩,
  ⟨"VFP_CORE_ENTRY_LO", 0x10002094, 512, 0x10000, 1, 0, 0x1000209c, 0x10000, [⟨"ENTRY", 31, 0, .rws, 0⟩]⟩,
  ⟨"VFP_CORE_ENTRY_HI", 0x10002098, 512, 0x10000, 1, 0, 0x1000209c, 0x10000, [⟨"ENTRY", 31, 0, .rws, 0⟩]⟩,
  ⟨"VFP_HOLD", 0x100020a0, 512, 0x10000, 1, 0, 0, 0, [⟨"RELEASE", 0, 0, .wo, 0⟩]⟩,
  ⟨"VFP_STATUS", 0x100020a4, 512, 0x10000, 1, 0, 0, 0, [⟨"RESETS", 31, 24, .ro, 0⟩, ⟨"HELD_CORES", 23, 18, .ro, 0⟩, ⟨"HELD_FENS", 17, 12, .ro, 0⟩, ⟨"SUSPENDED", 2, 2, .ro, 1⟩, ⟨"STATE", 1, 0, .ro, 1⟩]⟩,
  ⟨"VFP_LMEM", 0x100020b0, 512, 0x10000, 1, 0, 0, 0, [⟨"OVERFLOW", 31, 31, .w1c, 0⟩, ⟨"LOST", 17, 11, .ro, 0⟩, ⟨"SIZE_64M", 10, 0, .ro, 0⟩]⟩,
  ⟨"VFP_LMEM_LOST", 0x100020b4, 512, 0x10000, 1, 0, 0, 0, [⟨"PAGE", 31, 0, .rc, 0xffffffff⟩]⟩,
  ⟨"VFP_FEN_APERTURE", 0x10002100, 512, 0x10000, 8, 4, 0, 0, [⟨"UNIT", 7, 0, .rw, 0xff⟩]⟩,
  ⟨"VFP_KEY_REQ_OP", 0x10002010, 512, 0x10000, 1, 0, 0x10002028, 0x10000, [⟨"SLOT", 27, 16, .rws, 0⟩, ⟨"ATTR", 11, 8, .rws, 0⟩, ⟨"KIND", 7, 4, .rws, 0⟩, ⟨"OP", 3, 0, .rws, 0⟩]⟩,
  ⟨"VFP_KEY_REQ_ARG", 0x10002014, 512, 0x10000, 1, 0, 0x10002028, 0x10000, [⟨"HANDLE", 20, 16, .rws, 0⟩, ⟨"INSTANCE", 8, 0, .rws, 0⟩]⟩,
  ⟨"VFP_KEY_REQ_ADDR_LO", 0x10002018, 512, 0x10000, 1, 0, 0x10002028, 0x10000, [⟨"ADDR", 31, 0, .rws, 0⟩]⟩]
  ++ [
  ⟨"VFP_KEY_REQ_ADDR_HI", 0x1000201c, 512, 0x10000, 1, 0, 0x10002028, 0x10000, [⟨"ADDR", 31, 0, .rws, 0⟩]⟩,
  ⟨"VFP_KEY_REQ_LEN", 0x10002020, 512, 0x10000, 1, 0, 0x10002028, 0x10000, [⟨"LEN", 12, 0, .rws, 0⟩]⟩,
  ⟨"VFP_KEY_REQ_COOKIE", 0x10002024, 512, 0x10000, 1, 0, 0x10002028, 0x10000, [⟨"COOKIE", 31, 0, .rws, 0⟩]⟩,
  ⟨"VFP_KEY_RESULT", 0x10002030, 512, 0x10000, 1, 0, 0, 0, [⟨"VALID", 8, 8, .w1c, 0⟩, ⟨"STATUS", 7, 0, .ro, 0⟩]⟩,
  ⟨"VFP_KEY_RESULT_COOKIE", 0x10002034, 512, 0x10000, 1, 0, 0, 0, [⟨"COOKIE", 31, 0, .ro, 0⟩]⟩]

/-- The registers of one block, by the 1 MiB window of R52 (22 and above: the instance pages). -/
def regBlock : Nat → List RegRow
  | 0 => regRowsDev
  | 1 => regRowsCfg
  | 2 => regRowsFab
  | 3 => regRowsSbx
  | 4 => regRowsPwr
  | 5 => regRowsFch
  | 6 => regRowsFtl
  | 7 => regRowsCmp
  | 8 => regRowsCip
  | 9 => regRowsKey
  | 10 => regRowsDgt
  | 11 => regRowsAsu
  | 12 => regRowsGly
  | 13 => regRowsDrc
  | 14 => regRowsHif
  | 15 => regRowsTen
  | 16 => regRowsFed
  | 17 => regRowsTru
  | 18 => regRowsBoot
  | 19 => regRowsUpd
  | 20 => regRowsEvr
  | 21 => regRowsTst
  | n => if n < 256 then [] else regRowsVfp

/-- The element of a row that stands at address `a`: its first index, and whether it exists (R11). -/
def RegRow.index (r : RegRow) (a : Nat) : Option (Nat × Nat) :=
  if a < r.base then none else
    let d := a - r.base
    let i := if r.stride = 0 then 0 else d / r.stride
    let e := d - i * r.stride
    let j := if r.stride2 = 0 then 0 else e / r.stride2
    if i < r.count ∧ j < r.count2 ∧ e = j * r.stride2 then some (i, j) else none

/-- The row and index of the register at address `a`. -/
def findReg (a : Nat) : Option (RegRow × Nat × Nat) :=
  (regBlock (a / 0x100000)).findSome? (fun r => (r.index a).map (fun ij => (r, ij.1, ij.2)))

/-- The COMMIT registers: base, count and stride (the groups of the chapters). -/
def commitRows : List (Nat × Nat × Nat) := [
  (0x100024, 1, 0x0) /- CFG_LOAD -/,
  (0x201008, 40, 0x40) /- FAB_FEN[f] -/,
  (0x200010, 1, 0x0) /- FAB_ALIAS -/,
  (0x300008, 1, 0x0) /- SBX_ADMIT -/,
  (0x30000c, 1, 0x0) /- SBX_SHARE -/,
  (0x400018, 1, 0x0) /- PWR_PEAT -/,
  (0x40002c, 1, 0x0) /- PWR_LEDGER -/,
  (0x400034, 1, 0x0) /- PWR_CAP -/,
  (0x40003c, 1, 0x0) /- PWR_THERM -/,
  (0x400044, 1, 0x0) /- PWR_GATES -/,
  (0x501008, 32, 0x40) /- FCH_CH[k] -/,
  (0x600014, 1, 0x0) /- FTL_SLUICE -/,
  (0x60001c, 1, 0x0) /- FTL_CKPT -/,
  (0x600024, 1, 0x0) /- FTL_CACHE -/,
  (0x600108, 1, 0x0) /- FTL_WEAR -/,
  (0x700014, 1, 0x0) /- CMP_CHECK -/,
  (0x800014, 1, 0x0) /- CIP_CHECK -/,
  (0x900028, 1, 0x0) /- KEY_REQ -/,
  (0xa00010, 1, 0x0) /- DGT_RESULT -/,
  (0xa01014, 8, 0x80) /- DGT_FEED[e] -/,
  (0xb00014, 1, 0x0) /- ASU_CFG -/,
  (0xc0100c, 50, 0x40) /- GLY_CFG[c] -/,
  (0xc01030, 50, 0x40) /- GLY_WIN[c] -/,
  (0xd00020, 1, 0x0) /- DRC_MAP -/,
  (0xd01008, 4, 0x40) /- DRC_CH[c] -/,
  (0xe00024, 2, 0x8) /- HIF_PORT[p] -/,
  (0xe00034, 1, 0x0) /- HIF_PS -/,
  (0xe0003c, 1, 0x0) /- HIF_MI -/,
  (0xe00048, 1, 0x0) /- HIF_MEMLINES -/,
  (0xe04034, 1024, 0x20) /- HIF_NS[n] -/,
  (0xf0002c, 1, 0x0) /- TEN_REQ -/,
  (0xf01064, 511, 0x40) /- TEN_LOG[i] -/,
  (0x100001c, 1, 0x0) /- FED_NODE -/,
  (0x1000024, 1, 0x0) /- FED_LINK -/,
  (0x1000040, 1, 0x0) /- FED_TABLE -/,
  (0x1000058, 1, 0x0) /- FED_TAGS -/,
  (0x100005c, 1, 0x0) /- FED_RX -/,
  (0x1100108, 1, 0x0) /- TRU_FUSE -/,
  (0x120000c, 1, 0x0) /- BOOT_WDT -/,
  (0x1300020, 1, 0x0) /- UPD_STAGE -/,
  (0x1300040, 1, 0x0) /- UPD_CFG -/,
  (0x1400038, 1, 0x0) /- EVR_READ -/,
  (0x1400084, 1, 0x0) /- EVR_CLEAR -/,
  (0x1400090, 1, 0x0) /- EVR_AREA -/,
  (0x1500014, 1, 0x0) /- TST_AUTO -/,
  (0x1500024, 1, 0x0) /- TST_UNIT -/,
  (0x1500050, 1, 0x0) /- TST_INJ -/,
  (0x10002084, 512, 0x10000) /- VFP_RESULT -/,
  (0x1000209c, 512, 0x10000) /- VFP_CORE -/,
  (0x10002028, 512, 0x10000) /- VFP_REQ -/]

/-- Is there a COMMIT register at address `a`? -/
def isCommit (a : Nat) : Bool :=
  commitRows.any (fun r => decide (r.1 ≤ a) && decide ((a - r.1) / max r.2.2 1 < r.2.1) &&
    decide ((a - r.1) % max r.2.2 1 = 0))

/-- The value that the fields' reset values give a register. -/
def RegRow.resetWord (r : RegRow) : Nat :=
  r.fields.foldl (fun n f => n + f.reset % 2 ^ (f.hi - f.lo + 1) * 2 ^ f.lo) 0

end Sys2Proof
end

