-- ==== Sys2Proof/Machine/State.lean ====
section
/-! DEFINITION. State of the AE9632 as plain data: everything the spec gives the device, block by block, the queue of
waiting commands, and State.reset. Each field's default is its value right after reset; a value that the spec does
not give is marked with its log entry. -/

namespace Sys2Proof.Machine

/-! ## Units and the trunk (01_architecture.md) -/

/-- The STATE field of a unit (R26). -/
inductive UState where
  | absent | idle | active | test | offline | bound
deriving DecidableEq, Repr

/-- A change of ROLE, OWNER, image or STATE that takes effect with its GEN increment (R30, R31). -/
structure UnitChange where
  role : Option Nat := none
  owner : Option Nat := none
  state : Option UState := none
  loaded : Bool := false
deriving DecidableEq, Repr

/-- One of the 218 numbered units (R22–R27). Each default is the field's reset value. -/
structure UnitRec where
  /-- ROLE, 8 bits (R26, R66). -/
  role : Nat := 0
  /-- OWNER, 9 bits (R26). -/
  owner : Nat := 0
  /-- STATE (R26): ABSENT for reserved numbers, IDLE for the others, until the start has probed the unit. -/
  state : UState := .idle
  /-- GEN, 16 bits (R27, R31). DESIGN CHOICE 0 right after reset (log 2). -/
  gen : Nat := 0
  /-- The generation recorded in the flash system area (R31). DESIGN CHOICE 0 (log 2). -/
  recordedGen : Nat := 0
  /-- SERVES: the unit a bound spare serves, 0xFF otherwise (R27). -/
  serves : Nat := 0xFF
  /-- The times of this unit's GEN increments, newest first (R31). -/
  incs : List Nat := []
  /-- Changes that wait with their held increment, oldest first (R31). -/
  held : List UnitChange := []
deriving DecidableEq, Repr

/-- A trunk packet: the header flit of R40, its payload, and what the model carries with it. -/
structure Packet where
  dest : Nat
  destGen : Nat
  src : Nat
  inst : Nat
  /-- ROUTE: 0 XY, 1 YX. -/
  route : Nat := 0
  /-- CLASS: 0 request, 1 response. -/
  cls : Nat := 0
  prov : Bool := false
  revoke : Bool := false
  /-- PAYLOAD_FLITS as the header carries it (R40, R41). -/
  flits : Nat := 0
  tag : Nat
  /-- BYTE_OFFSET (R40). -/
  off : Nat := 0
  /-- STATION, 128 bits, as the destination's kind defines it. -/
  station : Nat := 0
  data : Bytes := []
  /-- The poison mark carried beside a code word (R44). -/
  poison : Bool := false
  /-- An end token (R172). -/
  endTok : Bool := false
  /-- The step of the ticket's line that this packet goes to (the model's own, log 12). -/
  step : Nat := 0
deriving DecidableEq, Repr

/-- The device level: units, the trunk and the identity (01_architecture.md). -/
structure Dev where
  /-- Units by number; an absent number is as `UnitRec.initial` gives it. -/
  units : Tab UnitRec := []
  /-- Packets in flight, oldest first (R38, R39). -/
  trunk : List Packet := []
  /-- DEV_UNIT_GEN words latched by reads of DEV_UNIT_ROLE (R29). -/
  genLatch : Tab Nat := []
  /-- The fused 64-bit serial number (R49). DESIGN CHOICE 0 (log 3). -/
  serial : Nat := 0
deriving DecidableEq, Repr

/-! ## Registers (00_scope.md) -/

/-- The state of one commit group (R12–R17): the pending set, and the bits of its COMMIT register. -/
structure Group where
  pending : Option (Tab Nat) := none
  rejected : Bool := false
  superseded : Bool := false
  /-- A signal box epoch has begun since GO: the safe point of a group of kind EPOCH (R100). -/
  due : Bool := false
deriving DecidableEq, Repr

/-- The register values, sparse: a register not listed holds its reset value. -/
structure Regs where
  /-- Values of fields that are not RWS (R9). -/
  live : Tab Nat := []
  /-- Staged values of RWS fields (R9, R12). -/
  staged : Tab Nat := []
  /-- Effective values of RWS fields (R12). -/
  eff : Tab Nat := []
  /-- Commit groups, by the address of their COMMIT register (R13). -/
  groups : Tab Group := []
  /-- _HI halves latched by reads of _LO, by the address of _LO (R7). -/
  loLatch : Tab Nat := []
  /-- What the last register read returned (the model's own, log 10). -/
  readData : Nat := 0
deriving DecidableEq, Repr

/-! ## Event recorder (22_event_recorder.md) -/

/-- One event record (R720); CHECK is computed from the other fields. -/
structure EventRec where
  seq : Nat
  opTime : Nat
  flags : Nat := 0
  inst : Nat := 0
  cycles : Nat := 0
  event : Nat
  sev : Nat := 0
  status : Nat := 0
  unit : Nat := 0xFF
  wallMs : Nat := 0
  detail : Bytes := []
deriving DecidableEq, Repr

/-- A clear in progress (R727): the first and last SEQ and the step reached. -/
structure EvrClear where
  first : Nat
  last : Nat
  session : Nat := 0
  step : Nat := 1
deriving DecidableEq, Repr

/-- The event recorder. -/
structure Evr where
  /-- The NOR ring, oldest first (R725). DESIGN CHOICE empty (log 4). -/
  nor : List EventRec := []
  /-- The mirror in the flash system area: records of the pages written, oldest first (R724). -/
  mirror : List EventRec := []
  /-- The mirror page being filled, oldest first, and when its first record came (R724). -/
  page : List EventRec := []
  pageSince : Nat := 0
  /-- SEQ of the next record (R720). DESIGN CHOICE 0 (log 4). -/
  nextSeq : Nat := 0
  /-- Operating time in ms at the last start (R722). DESIGN CHOICE 0 (log 4). -/
  opBase : Nat := 0
  /-- Operating time as the last checkpoint or clean shutdown saved it (R722). DESIGN CHOICE 0 (log 4). -/
  opSaved : Nat := 0
  /-- The model time at which `opBase` held (log 1). -/
  opSince : Nat := 0
  /-- The wall clock: value set and OP_TIME_MS at the set (R723). -/
  wall : Option (Nat × Nat) := none
  /-- WALL_MS of the most recent record with WALL_VALID (R723). -/
  lastWall : Option Nat := none
  /-- Records of the running second by EVENT × 256 + UNIT, and when the second began (R724). -/
  second : Tab Nat := []
  secondSince : Nat := 0
  /-- NOR_FAIL (R725). -/
  norFail : Bool := false
  clear : Option EvrClear := none
  /-- Records that wait during a clear, oldest first (R727). -/
  waiting : List EventRec := []
  /-- WRITTEN of each instance's delivery area (R726). -/
  written : Tab Nat := []
  /-- The snapshot of EVR_READ_DATA, `none` while FOUND is 0 (R730). -/
  snap : Option Bytes := none
  /-- A read of the READ group is in progress (R730). -/
  reading : Bool := false
deriving DecidableEq, Repr

/-! ## Lines, tickets and the signal box (04_lines_and_signal_box.md) -/

/-- A descriptor of a ticket (R146): its KIND, the number in bytes 1–7 and that in bytes 8–15. -/
structure Desc where
  kind : Nat := 0
  mid : Nat := 0
  addr : Nat := 0
deriving DecidableEq, Repr

/-- A ticket (R145), read from its 64 bytes. -/
structure Ticket where
  inst : Nat
  line : Nat
  len : Nat
  keySlot : Nat := 0xFFFF
  eclass : Nat := 0
  ordered : Bool := false
  deadline : Nat := 0
  cookie : Nat := 0
  source : Desc := {}
  dest : Desc := {}
  param : Nat := 0
deriving DecidableEq, Repr

/-- One step of a line (R150). -/
structure LStep where
  /-- 0 FIXED, 1 POOL, 2 MAPPED_CHANNEL, 3 CHANNEL_FEN. -/
  sel : Nat
  target : Nat
  scale : Nat
  mode : Nat
deriving DecidableEq, Repr

/-- A line (R149); a line with no steps is undefined. -/
structure Line where
  dirty : Bool := false
  sysOnly : Bool := false
  flush : Bool := false
  cls : Nat := 0
  steps : List LStep := []
deriving DecidableEq, Repr

/-- Who submitted a ticket: a core, the junction (for a message), or the system firmware that serves an NVMe
command, by controller, submission queue and command identifier; or the device itself (R148, R585). -/
inductive Submitter where
  | core (unit : Nat)
  | junction (msg : Nat)
  | nvme (ctrl sq cid : Nat)
  | device
deriving DecidableEq, Repr

/-- What a unit of a read resolved to at admission (R154, R278): nothing, a staged slot, or a place in flash. -/
inductive Ref where
  | unmapped (idx : Nat)
  | staged (idx cls : Nat) (bytes : Bytes)
  | flash (idx page quarter cls seqTail : Nat)
  | page (kind idx : Nat)
deriving DecidableEq, Repr

/-- A ticket store entry (R147): the ticket, where it stands, and what stations have reported. -/
structure Entry where
  t : Ticket
  sub : Submitter
  /-- Portions admitted (R153). -/
  admitted : Nat := 0
  /-- A portion waits for admission (R153). -/
  waiting : Bool := true
  /-- Arrival number of the waiting portion (R162). -/
  order : Nat := 0
  /-- Epoch starts the waiting portion has waited (R162). -/
  age : Nat := 0
  /-- Budget epochs of the first portion (R168), and whether the running epoch is one. -/
  budget : Nat := 0
  passed : Bool := false
  /-- GENs captured, by unit (R154). -/
  captured : Tab Nat := []
  /-- The unit chosen for each FIXED and POOL step, by step (R150). -/
  units : Tab Nat := []
  /-- The unit that each 4 KiB unit of the ticket reaches at a MAPPED_CHANNEL step, and the channel fen at a
  CHANNEL_FEN step, by step × 131072 + unit number (R154). -/
  places : Tab Nat := []
  /-- What each unit read at that step resolved to (R154). -/
  refs : Tab Ref := []
  /-- Units of a durable step whose program or journal record is still awaited (R291). -/
  left : Nat := 0
  /-- The next staged number when the latest portion was admitted (R289, DURABLE). -/
  mark : Nat := 0
  /-- The end token has reached a durable last station. -/
  ended : Bool := false
  /-- First failure and first warning reported, with the unit (R181). -/
  fail : Option (Nat × Nat) := none
  warn : Option (Nat × Nat) := none
  keyRevoked : Bool := false
  instReset : Bool := false
  /-- A fence stopped the ticket (R171). -/
  fenced : Bool := false
  /-- A host SGL ended too early (R573, R574). -/
  sglShort : Bool := false
  /-- A revoke token is under way (R173). -/
  revoking : Bool := false
  /-- The last station has acknowledged (R175). -/
  acked : Bool := false
  /-- Staging bytes reserved (R152). -/
  room : Nat := 0
  /-- KiB counted in dirty and not yet removed (R163). -/
  dirtyKib : Nat := 0
  /-- Bytes taken from SOURCE, and OUT_LEN as the last station reports it (R182, R782). -/
  taken : Nat := 0
  out : Nat := 0
  /-- Whether the use of KEY_SLOT is counted (R374). -/
  keyUsed : Bool := false
deriving DecidableEq, Repr

/-- A completion record (R179) with the submitter it goes to. -/
structure Completion where
  cookie : Nat
  outLen : Nat
  tag : Nat
  status : Nat
  unit : Nat
  inst : Nat
  line : Nat
  sub : Submitter
deriving DecidableEq, Repr

/-- A siding entry (R176, R177). -/
structure Siding where
  inst : Nat
  /-- 1 QUARANTINE, 2 RETURN. -/
  disp : Nat
  status : Nat
  unit : Nat
  src : Nat
  tag : Nat
  destGen : Nat
  cookie : Nat := 0
  time : Nat := 0
  node : Nat := 0
  payload : Bytes := []
deriving DecidableEq, Repr

/-- What a fence covers (R171). -/
inductive FenceOf where
  | inst (i : Nat)
  | slot (s : Nat)
deriving DecidableEq, Repr

/-- The signal box. -/
structure Sbx where
  /-- The ticket store by tag (R147). -/
  store : Tab Entry := []
  /-- Completions posted, oldest first (R179). -/
  posted : List Completion := []
  /-- Next arrival number of a waiting portion (R162). -/
  arrivals : Nat := 0
  /-- Allowance A, and remaining (signed) (R160, R164). -/
  allowance : Nat := 0
  remaining : Int := 0
  /-- Class gates: bit c while class c is open (R166, R188). -/
  gates : Nat := 0
  /-- The write-back allowance and dirty, in KiB (R162, R188). -/
  wbLimit : Nat := 0
  dirty : Nat := 0
  /-- Credit of each instance, signed nJ (R165). -/
  credit : Tab Int := []
  /-- The instance last served in each group of R162. DESIGN CHOICE 0 (log 5). -/
  lastServed : Nat × Nat × Nat := (0, 0, 0)
  /-- An admission of this epoch has been made (R164). -/
  firstDone : Bool := false
  epochs : Nat := 0
  /-- Staging bytes reserved (R152). -/
  stagingRoom : Nat := 0
  /-- Fences in force (R171). -/
  fences : List FenceOf := []
  /-- The siding, oldest first (R176). -/
  siding : List Siding := []
  /-- Only FLUSH lines are admitted (R167). -/
  flushMode : Bool := false
deriving DecidableEq, Repr

/-! ## Stations (R156–R159): what waits at each unit and what each ticket left there -/

/-- A thing in a station's input queue: a portion that starts at its first station (its first byte and length), or a
packet delivered by the trunk. -/
inductive Work where
  | start (tag step first len : Nat)
  | pkt (p : Packet)
deriving DecidableEq, Repr

/-- A GCM encryption saved in a context handle (R394, R399). -/
structure GcmSave where
  slot : Nat
  gen : Nat
  textDone : Nat := 0
  aadLen : Nat := 0
  textLen : Option Nat := none
  j0 : Bytes := []
  ctr : Bytes := []
  ghash : Bytes := []
deriving DecidableEq, Repr

/-- The context that a station keeps for a ticket (R158; R361, R397, R430). -/
structure Ctx where
  inBytes : Nat := 0
  outBytes : Nat := 0
  /-- The unfinished piece, record, block or held input. -/
  buf : Bytes := []
  prov : Bool := false
  /-- STATION of the packet that holds the first byte of `buf`. -/
  station : Nat := 0
  /-- Index of the next piece, part or unit. -/
  count : Nat := 0
  /-- A failure was already reported. -/
  failed : Bool := false
  /-- Packets held: not yet committed or waiting for hold room (R174, R396, R458). -/
  held : List Packet := []
  /-- Bytes of a hash, a GHASH input or a parity accumulated so far. -/
  acc : Bytes := []
  /-- Address ranges written at the destination: (address, length) (R174). -/
  wrote : List (Nat × Nat) := []
  /-- Units whose output for the ticket has ended, where a step has several (R150, R172). -/
  ends : List Nat := []
  /-- The total of the end token that has come, with its PROV, while it waits (R172). -/
  endTok : Option (Nat × Bool) := none
  /-- Waits for hold room, in order of arrival of its header (R396). -/
  waitsHold : Bool := false
  /-- What a MIDDLE or LAST ticket of a GCM message goes on from, loaded from its handle at its first data (R394, R397). -/
  gcm : Option GcmSave := none
deriving DecidableEq, Repr

/-- The stations' queues and contexts. -/
structure Stn where
  /-- Input of each unit, oldest first (R156). -/
  inbox : Tab (List Work) := []
  /-- Context by tag × 16 + step. -/
  ctx : Tab Ctx := []
deriving DecidableEq, Repr

/-! ## Configuration loader (02_configuration_stream.md) -/

/-- A load request (R73). -/
structure LoadReq where
  inst : Nat
  /-- 1 structure stream, 2 fen image; 0 until the header of an instance-0 load ticket says (R70). -/
  kind : Nat
  target : Nat
  /-- The target's GEN when the request was made. -/
  gen : Nat
  /-- Bytes offered (R77). -/
  offered : Nat
  addr : Nat := 0
  cookie : Nat := 0
  /-- The command that a tenant's load answers. -/
  sub : Submitter := .device
  /-- The load ticket, where one carries it. -/
  tag : Option Nat := none
deriving DecidableEq, Repr

/-- CFG_STATUS.STATE (R74). -/
inductive LState where
  | idle | fetchHead | authenticate | fetchBlocks | screen | apply | store
deriving DecidableEq, Repr

/-- The step of R82 that an APPLY has reached. -/
inductive ApplyStage where
  | none | draining | loading
deriving DecidableEq, Repr

/-- A structure stream as the device holds it in the flash system area (R87): its container's parts that matter. -/
structure Stream where
  seq : Nat
  setFloor : Bool := false
  imageId : Bytes := []
  /-- The container up to BLOCKS_OFFSET, and SHA-384 of its signed range, held in the valid mark (R87). -/
  head : Bytes := []
  mark : Bytes := []
  /-- The payload of each section, by type (R64). -/
  sections : List (Nat × Bytes) := []
  /-- The stored blocks of the container, as they came (R87). -/
  blocks : List Bytes := []
deriving DecidableEq, Repr

/-- The configuration loader and screener, unit 191. -/
structure Cfg where
  state : LState := .idle
  /-- Requests waiting, oldest first (R73). -/
  queue : List LoadReq := []
  cur : Option LoadReq := none
  /-- The header and block table of the container in progress (R55). -/
  head : Bytes := []
  /-- The blocks in the loader region, decrypted, in order (R75). -/
  blocks : List Bytes := []
  /-- The stored blocks as they came, of a structure stream (R87). -/
  raw : List Bytes := []
  /-- The unwrapping key's slot took its rewrite or erase while the loader used it: the load ends with KEY_REVOKED (R86). -/
  keyLost : Bool := false
  /-- The content key's bytes while it is unwrapped (R69), and the slot whose user the loader is (R86). -/
  content : Bytes := []
  keyUse : Option Nat := none
  stage : ApplyStage := .none
  /-- An instance reset arrived during steps 3 to 5 (R85). -/
  resetMet : Bool := false
  /-- The DRAM channel of the loader region has gone OFFLINE (R548). -/
  regionLost : Bool := false
  /-- The active stream, the candidate with its valid mark, and the floor. DESIGN CHOICE none, none, 0 (log 4). -/
  active : Option Stream := none
  candidate : Option Stream := none
  floor : Nat := 0
  /-- The stream in force is the candidate (R87 step 5). -/
  fromCandidate : Bool := false
  /-- The line table in force (R149). -/
  lines : Tab Line := []
  /-- Pairs routed YX, as SRC_UNIT × 256 + DEST_UNIT (R67). -/
  routesYX : List Nat := []
deriving DecidableEq, Repr

/-! ## Fens (03_fabric_and_fens.md) -/

/-- FAB_FEN_STATUS.STATE (R122). -/
inductive FState where
  | empty | loading | running | draining | fencing | held | scrubbing | test | offline
deriving DecidableEq, Repr

/-- One entry of an image's PORT_MAP (R119). -/
structure FPort where
  port : Nat
  width : Nat
  line : Bool
deriving DecidableEq, Repr

/-- A loaded image (R115, R119). -/
structure FImage where
  imageId : Bytes := []
  cells : Nat := 0
  macs : Nat := 0
  memKib : Nat := 0
  fmax : Nat := 0
  power : Nat := 0
  tiles : Nat := 0
  ports : List FPort := []
deriving DecidableEq, Repr

/-- A ticket inside a fen (R106–R110). -/
structure FIn where
  tag : Nat
  step : Nat
  port : Nat
  prov : Bool := false
  revoked : Bool := false
  /-- Input ranges: (offset, length, STATION), oldest first (R110). -/
  ranges : List (Nat × Nat × Nat) := []
  out : Nat := 0
  /-- The end token has arrived, with its PROV. -/
  ended : Option Bool := none
deriving DecidableEq, Repr

/-- One fen. -/
structure Fen where
  state : FState := .empty
  image : Option FImage := none
  /-- Block memory, sparse by TILE_Y × 2^24 + TILE_X × 2^20 + BANK × 4096 + byte; unlisted bytes are 0 (R102, R120). -/
  mem : List Host.Cell := []
  inside : List FIn := []
  /-- RUN_MHZ as halved by R128. -/
  halved : Option Nat := none
  overpower : Bool := false
  failedTiles : Nat := 0
  /-- The control window registers as the fen logic last set them (R111). -/
  window : Tab Nat := []
  /-- The limit that the power manager's policy sets, in MHz; none: no limit (R112). -/
  policyMhz : Option Nat := none
  /-- Consecutive epochs of power above the declared power (R128). -/
  hot : Nat := 0
deriving DecidableEq, Repr

/-- The fabric. -/
structure Fab where
  /-- Fens by f = unit − 32. -/
  fens : Tab Fen := []
  /-- OWNER captured for each alias entry (R130). -/
  aliasOwner : Tab Nat := []
deriving DecidableEq, Repr

/-! ## Power manager (05_energy_and_heat.md) -/

/-- PWR_STATUS.PEAT_STATE (R209). -/
inductive PeatState where
  | unfused | ramp | charging | ready | measuring | holdup | fault
deriving DecidableEq, Repr

/-- A power domain's state (R201). -/
inductive DomState where
  | on | ret | off
deriving DecidableEq, Repr

/-- An island (R198, R234): its operating point (0 OFF, 1 RET, 2 LOW, 3 NOM, 4 HIGH), its frequency, and its domain
with the grouping of R203. -/
structure Island where
  point : Nat := 0
  mhz : Nat := 0
  minPoint : Nat := 2
  planMhz : Nat := 0
  dom : DomState := .on
  group : Nat := 0
  idleLimit : Nat := 0
  gateMs : Nat := 0
  /-- Consecutive epochs of idleness (R201). -/
  idle : Nat := 0
  /-- The model time at which the domain entered RET. -/
  retSince : Nat := 0
deriving DecidableEq, Repr

/-- The power manager, unit 192. -/
structure Pwr where
  peat : PeatState := .unfused
  /-- Fuses CEIL_QJ, VMAX_DV, CMAX_MF and the hot-spot offsets (R205, R220). DESIGN CHOICE 0 (log 3). -/
  ceilQj : Nat := 0
  vmaxDv : Nat := 0
  cmaxMf : Nat := 0
  offsets : List Nat := List.replicate 16 0
  /-- PEAT_SNS as last sampled, mV; VIN12 and the slot current likewise. -/
  vMv : Nat := 0
  vinMv : Nat := 0
  /-- Output signals (R204): CHG_EN, RB_GATE, HOLDUP_EN, DIS_EN, and THERM_TRIP_N asserted. -/
  chgEn : Bool := false
  rbGate : Bool := false
  holdupEn : Bool := false
  disEn : Bool := false
  thermTrip : Bool := false
  /-- c_meas in µF, 0 before the first measurement (R206, R210). -/
  cMeas : Nat := 0
  /-- A measurement request waits, or is postponed (R210). -/
  measAsked : Bool := false
  /-- The ledger (R212). -/
  usable : Nat := 0
  full : Nat := 0
  reserve : Nat := 0
  wbKib : Nat := 0
  peatStage : Nat := 3
  /-- The measurements behind FLUSH_NJ_MEAS: operating time in ms and nJ (R213). DESIGN CHOICE none (log 4). -/
  flushNj : List (Nat × Nat) := []
  /-- The same as the last checkpoint or flush recorded it in the flash system area (R213). DESIGN CHOICE none (log 4). -/
  flushNjSaved : List (Nat × Nat) := []
  /-- Started 4 KiB units of the FLUSH-line portions and sluice writes that ended in this epoch, in that order (R213). -/
  flushEnds : List Nat := []
  /-- RAMP_MS as it stood at the latest entry to RAMP, and when that was (R207, R227). -/
  rampMs : Nat := 0
  rampSince : Nat := 0
  baseMw : Nat := 2000
  chgMw : Nat := 0
  tickMw : Nat := 0
  inMw : Nat := 0
  dieMw : Nat := 0
  capHit : Bool := false
  heatLimited : Bool := false
  /-- Estimates admitted in each of the last 100 epochs, newest first (R218). -/
  ests : List Nat := []
  /-- nJ booked to each class since PWR_CLASS_MJ was last read (R233). -/
  booked : Tab Nat := []
  islands : Tab Island := []
  /-- The last sensor readings, °C (R232). -/
  temps : List Int := List.replicate 16 0
  /-- The highest reading of each sensor since the last start, once one has come (R232). -/
  maxTemps : List Int := []
  /-- The slot input current in mA (R231), and OP_TIME_MS at the last OK measurement (R210). -/
  iinMa : Nat := 0
  measAt : Option Nat := none
  tModel : Int := 0
  thermStage : Nat := 0
  powerLoss : Bool := false
  /-- The step of R223 that the flush has reached, 0 when none runs. -/
  flushStep : Nat := 0
  /-- Every switched domain is held OFF after a thermal shutdown (R222). -/
  thermHold : Bool := false
deriving DecidableEq, Repr

/-! ## Start and reset (20_start_and_reset.md) -/

/-- BOOT_STATUS.PHASE (R684, R695). -/
inductive Phase where
  | rom | sram | firmware | train | stream | recover | restore | ready | halted | entry
deriving DecidableEq, Repr

/-- The start and the sideband pins. -/
structure Boot where
  phase : Phase := .rom
  /-- CAUSE and KIND of this start (R695). DESIGN CHOICE 0 until the first start (log 8). -/
  cause : Nat := 0
  kind : Nat := 0
  /-- A start has begun and has not reached READY; it was abandoned; the previous start did not reach READY (R692). -/
  begun : Bool := false
  abandoned : Bool := false
  prevAbandoned : Bool := false
  /-- The last mark written before the power went (R696): 0 none, 1 clean-shutdown checkpoint, 2 power-loss record, 3 new
  media. DESIGN CHOICE 3 (log 4). -/
  mark : Nat := 3
  /-- The step of R682 that the entry sequence has reached, the cause it was begun with, and when it began. -/
  entryStep : Nat := 0
  entryCause : Nat := 0
  entrySince : Nat := 0
  /-- Channels that kept their settings, and MAP_KEPT (R699). -/
  keptDram : Nat := 0
  keptFlash : Nat := 0
  mapKept : Bool := false
  /-- Times in ms: of the phases, of the entry sequence, to READY (R700). -/
  phaseMs : List Nat := []
  entryMs : Nat := 0
  readyMs : Nat := 0
  /-- When READY was reached (R710), and when the watchdog was last serviced, while it is armed (R698). -/
  readyAt : Nat := 0
  wdt : Option Nat := none
  /-- The case of R693 that halted the start: 1 DUS, 2 no firmware image, 3 SRAM. -/
  halt : Nat := 0
  /-- The device is off: brown-out or hardware thermal trip (R680, R766). -/
  off : Bool := false
  /-- The settings record: SFORMAT and the effective values (R713). DESIGN CHOICE none (log 4). -/
  settings : Option (Nat × Tab Nat) := none
  /-- Pins (R757): PWRDIS, PERST0_N and PERST1_N asserted, and whether VIN12 is in range. DESIGN CHOICE (log 7). -/
  vinOk : Bool := false
  pwrdis : Bool := false
  perst : Bool × Bool := (false, false)
  /-- SB_READY high; SB_PRESENT_N low (R681, R689). -/
  sbReady : Bool := false
  sbPresent : Bool := false
  /-- LED_ACT_N is low until then (R757), and SMB_ALERT_N is low. -/
  ledUntil : Nat := 0
  smbAlert : Bool := false
  /-- The test port's instruction (R777): 0 BYPASS, 1 SAMPLE/PRELOAD, 2 EXTEST. DESIGN CHOICE BYPASS (log 7). -/
  testIr : Nat := 0
deriving DecidableEq, Repr

/-! ## Firmware update (21_firmware_update.md) -/

/-- A pointer record of NOR (R705). -/
structure FwPtr where
  count : Nat := 0
  active : Nat := 0
  trial : Bool := false
  boots : Nat := 0
  floor : Nat := 0
deriving DecidableEq, Repr

/-- A firmware slot of NOR (R704): the image, and its mark: SEQUENCE, SVN and SHA-384 of the signed range. -/
structure FwSlot where
  image : Bytes := []
  mark : Option (Nat × Nat × Bytes) := none
deriving DecidableEq, Repr

/-- A staged operation in progress (R708, R714, R717): OP, the slot (0 A, 1 B), and the command that it answers. -/
structure UpdReq where
  op : Nat
  slot : Nat
  addr : Nat := 0
  len : Nat := 0
  via : Option Submitter := none
deriving DecidableEq, Repr

/-- The update block, UPD. -/
structure Upd where
  /-- Slots A and B, and the valid records of the two pointer sectors (R704, R705). DESIGN CHOICE empty, none (log 4). -/
  slotA : FwSlot := {}
  slotB : FwSlot := {}
  ptrs : Option FwPtr × Option FwPtr := (none, none)
  /-- The staging area, and that a download is in progress there or has wholly arrived (R707). -/
  staging : Bytes := []
  loading : Bool := false
  req : Option UpdReq := none
  /-- The running slot, its SFORMAT, and its components as (COMPONENT, CORES, VERSION) (R702). -/
  running : Nat := 0
  sformat : Nat := 0
  comps : List (Nat × Nat × Nat) := []
  /-- SELF_OK, the operator's confirmation, FELL_BACK and FORMAT_CHANGED (R709, R710, R713). -/
  selfOk : Bool := false
  confirm : Bool := false
  fellBack : Bool := false
  formatChanged : Bool := false
deriving DecidableEq, Repr

/-! ## Key store and cipher engines (10_keys_and_cipher.md) -/

/-- The state of a key slot (R372). -/
inductive KState where
  | free | empty | loaded | pending
deriving DecidableEq, Repr

/-- A request to the key store (R376, R403–R405). -/
structure KeyReq where
  inst : Nat
  op : Nat
  slot : Nat
  attr : Nat := 0
  kind : Nat := 0
  handle : Nat := 0
  grantee : Nat := 0
  addr : Nat := 0
  len : Nat := 0
  cookie : Nat := 0
  /-- The request is the device's own: for a command (R566), or for DESTROY (R597); it has no result register. -/
  via : Option Submitter := none
  /-- Its instance was reset after it had reached step 1 of R379: its completion is not posted (R382). -/
  silent : Bool := false
deriving DecidableEq, Repr

/-- A key slot (R369). After reset: DESIGN CHOICE FREE with GEN 0 (log 4). -/
structure KeySlot where
  owner : Nat := 0
  kind : Nat := 0
  attr : Nat := 0
  state : KState := .free
  gen : Nat := 0
  recordedGen : Nat := 0
  key : Bytes := []
  /-- Users but context handles (R374). -/
  users : Nat := 0
  /-- The request that waits while the slot is PENDING, with the new key of a LOAD (R379). -/
  waits : Option (KeyReq × Bytes) := none
  /-- The fence of R379 step 3 has been raised. -/
  fencing : Bool := false
deriving DecidableEq, Repr

/-- A context handle: what it holds, and the admitted ticket that is using it (R394). -/
structure Handle where
  save : Option GcmSave := none
  user : Option Nat := none
deriving DecidableEq, Repr

/-- The key store, unit 188, and what the engines cache of it. -/
structure Key where
  slots : Tab KeySlot := []
  /-- GEN and USE words latched by reads of KEY_SLOT_STATUS (R408). -/
  latch : Tab (Nat × Nat) := []
  /-- Requests in arrival order, the one in progress first (R377). -/
  reqs : List KeyReq := []
  /-- Context handles by instance × 32 + handle (R394). -/
  handles : Tab Handle := []
  /-- The slot table of the flash system area: grants, and the keys of PERSIST slots (R383). DESIGN CHOICE none (log 4). -/
  table : Tab KeySlot := []
  /-- Keys cached by each cipher engine, by the number of its hardware: (slot, GEN), newest first (R387). -/
  caches : Tab (List (Nat × Nat)) := []
  /-- Hold-buffer bytes reserved in each cipher engine, by ticket (R396). -/
  hold : Tab (Tab Nat) := []
  /-- Tickets that wait for hold-buffer room in each engine, in order of their headers (R396). -/
  holdWait : Tab (List Nat) := []
  /-- Cached HMAC states of the digest engines: (slot, GEN), least recently used first (R421). -/
  hmac : List (Nat × Nat) := []
  /-- Times of the disagreements that count towards MISMATCH_LIMIT, by unit (R349, R395, R420). -/
  mismatch : Tab (List Nat) := []
deriving DecidableEq, Repr

/-! ## Goley cores (13_goley_programming_model.md, 14_goley_instructions.md) -/

/-- GLY_CORE_STATUS.STATE (R487). -/
inductive CState where
  | scrubbing | stopped | running | waiting | faulted | held | test | offline
deriving DecidableEq, Repr

/-- What becomes of a flit on its way (R42, R44): it arrives good, was miscorrected, or carries its poison mark. -/
inductive FlitEnd where
  | good | altered | poisoned
deriving DecidableEq, Repr

/-- A branch whose delay slot is next (R526): its address, its target when taken, and the link register. -/
structure Delay where
  branch : DWord
  target : Option DWord
  link : Option Nat
deriving DecidableEq, Repr

/-- A ticket inside a core (R482–R484). -/
structure CIn where
  tag : Nat
  step : Nat
  prov : Bool := false
  revoked : Bool := false
  /-- Input ranges: (offset, length, STATION), oldest first (R110, R484). -/
  ranges : List (Nat × Nat × Nat) := []
  out : Nat := 0
  /-- The end token has arrived, with its PROV. -/
  ended : Option Bool := none
deriving DecidableEq, Repr

/-- One Goley core. After reset every core is in SCRUBBING, and scrubbing zeroes its registers (R487, R488). -/
structure Core where
  state : CState := .scrubbing
  /-- g1 to g31; a register not listed is 0 (R470). -/
  gpr : Tab DWord := []
  /-- The program counter. DESIGN CHOICE 0 (log 6). -/
  pc : DWord := 0
  /-- Control registers that hold a value, by number (R471): STATUS, TBASE, EPC, ECAUSE, EADDR, EREP, ESTATUS,
  SCRATCH0–1, TIMER, IMASK, CBn_BASE/CBn_LEN, IN_RING, TKT_SEL, CQ_RING, CQ_HEAD, CQ_TAIL, SUB_RESULT, CYCLES. -/
  ctrl : Tab DWord := []
  /-- TIMER of IPEND (R471). -/
  timerUp : Bool := false
  delay : Option Delay := none
  /-- Iterations left of a repetition in progress or resumed (R529, R530). -/
  rep : Option Nat := none
  /-- Local memory, 512 KiB; an unlisted byte is 0 (R468, R488). -/
  mem : Tab Byte := []
  /-- Symbols in error of local-memory code words, by address ÷ 32 (R45, R493, R741). -/
  marks : Tab Nat := []
  /-- INQ_POP entries, oldest first (R482). -/
  inq : List Nat := []
  /-- Ring slots held by the program: (slot, tag) (R482). -/
  slots : List (Nat × Nat) := []
  inside : List CIn := []
  /-- Tickets still in the ticket store of which an input entry was queued here (R482, FIRST). -/
  entered : List Nat := []
  /-- What became of a flit that answers the core's next access through the trunk (R45, R477). -/
  flit : FlitEnd := .good
  /-- EMIT values not yet taken, oldest first, at most 8 (R484). -/
  emitq : List Nat := []
  /-- Completions that wait for room in the completion ring (R486). -/
  backlog : List Completion := []
  /-- Epochs with no ticket inside and no input queued, and whether the core is slowed (R492). -/
  idle : Nat := 0
  slowed : Bool := false
  /-- The program entry of the last image loaded for the core (R580). DESIGN CHOICE 0 (log 6). -/
  entry : Nat := 0
  /-- STOP waits for the delay slot to execute (R480, R489). -/
  stopAsked : Bool := false
  /-- A hold waits for the delay slot to execute (R480, R491). -/
  holdAsked : Bool := false
deriving DecidableEq, Repr

/-! ## Tenant instances (17_tenant_instances.md) -/

/-- TEN_INST_STATUS.STATE (R594). -/
inductive IState where
  | free | ready | resetting | teardown
deriving DecidableEq, Repr

/-- The dirty-page log of an instance (R609–R613). -/
structure DLog where
  en : Bool := false
  base : Nat := 0
  cover : Nat := 0
  bufs : Nat × Nat := (0, 0)
  active : Nat := 0
  period : Nat := 0
  /-- Pages marked in the period, whose bits are cached, and the bits changed from 0 to 1. -/
  marks : List Nat := []
  marked : Nat := 0
  startUs : Nat := 0
  overflow : Bool := false
  resetMet : Bool := false
deriving DecidableEq, Repr

/-- One instance (R592–R604). -/
structure Inst where
  state : IState := .free
  port : Nat := 0
  vf : Nat := 0
  /-- Local memory in units of 64 MiB (R599), and the DRAM channels over which its pages rotate (R542). -/
  lmem64 : Nat := 0
  chans : List Nat := []
  /-- Lost pages not yet read, oldest first, and OVERFLOW (R599). -/
  lost : List Nat := []
  overflow : Bool := false
  /-- Resets completed since the last start (R615). -/
  resets : Nat := 0
  log : DLog := {}
  /-- The fen shown in each aperture (R602). -/
  apertures : List Nat := List.replicate 8 0xFF
deriving DecidableEq, Repr

/-- A set-up request (R595, R596), with the step of R597 that it has reached: 0 waiting, 1 draining, 2 scrubbing. -/
structure TenReq where
  op : Nat
  inst : Nat
  unit : Nat := 0
  port : Nat := 0
  vf : Nat := 0
  lmem64 : Nat := 0
  wins : List Nat := []
  cookie : Nat := 0
  stage : Nat := 0
deriving DecidableEq, Repr

/-- Tenancy. -/
structure Ten where
  insts : Tab Inst := []
  /-- Set-up requests in order, the one in progress first (R595). -/
  reqs : List TenReq := []
  /-- Units of a DESTROY or a withdrawal that runs beside a reset: (unit, instance) (R597, R607). -/
  withdrawing : List (Nat × Nat) := []
deriving DecidableEq, Repr

/-! ## Test controller (23_test_and_availability.md) -/

/-- A unit that is to be taken out for test (R733, R737). -/
structure Taking where
  unit : Nat
  /-- 0 report, 1 request, 2 rotation, 3 self-test. -/
  cause : Nat
  /-- The bank of a search bank group (R456). -/
  bank : Nat := 0
  /-- The ticket whose end reported the unit (R735). -/
  tag : Option Nat := none
  /-- The report found the queue full: the unit is taken out at once, without a spare (R737). -/
  atOnce : Bool := false
deriving DecidableEq, Repr

/-- A unit in test: the spare that serves for it, if any, and whether it still drains (R735). -/
structure InTest where
  unit : Nat
  cause : Nat
  bank : Nat := 0
  spare : Option Nat := none
  draining : Bool := false
  /-- The tickets that had started in the unit's own hardware when a spare took its number (R735). -/
  tags : List Nat := []
  /-- The test has passed, and the spare gives the binding back (R736). -/
  back : Bool := false
deriving DecidableEq, Repr

/-- An active injection or perturbation (R740, R741). -/
structure Inj where
  kind : Nat
  target : Nat
  param : Nat
  /-- COUNT left. -/
  count : Nat
  windowUs : Nat
  /-- A held trunk link is in its hold, not in its release (BACKPRESSURE). -/
  holding : Bool := true
deriving DecidableEq, Repr

/-- The test controller, unit 195. -/
structure Tst where
  /-- Takings that wait, next first (R737). -/
  queue : List Taking := []
  /-- Reports that found the queue full (R737). -/
  urgent : List Taking := []
  inTest : List InTest := []
  /-- Times of corrected symbols within 1 s, newest first, by unit (R738). -/
  ecc : Tab (List Nat) := []
  /-- Times of CORRECTED and REWRITTEN findings within 1 s, by search bank (R455). -/
  findings : Tab (List Nat) := []
  injections : List Inj := []
  /-- Accepted sets of the INJ group that have not begun, with SUPPRESS_AUTO (R740, R749). -/
  injAsked : List (Inj × Bool) := []
  /-- SUPPRESS_AUTO is in force (R743). -/
  autoHeld : Bool := false
  /-- Unit last taken by the rotation (R733). DESIGN CHOICE 0 (log 5). -/
  lastRotated : Nat := 0
  /-- The self-test in progress (1 short, 2 extended), the units it still waits for, and the result of each kind:
  units tested and units failed (R739). -/
  selfTest : Nat := 0
  selfLeft : List Nat := []
  selfResult : Tab (Nat × Nat) := []
  selfSkipped : List Nat := []
  /-- The unit of each kind that the last short self-test chose (R739). DESIGN CHOICE none (log 5). -/
  selfTurn : Tab Nat := []
  /-- The Device Self-test log, newest first, at most 20: self-test and result codes, and the first segment that failed. -/
  selfLog : List (Nat × Nat) := []
deriving DecidableEq, Repr

/-! ## Trust (19_trust_and_attestation.md) -/

/-- A TDI state (R670). -/
inductive TdiState where
  | unlocked | locked | run | error
deriving DecidableEq, Repr

/-- A registry of signing key hashes (R663): VERSION and the eight entries, an empty list for an empty entry. -/
structure KeyReg where
  version : Nat := 0
  entries : List Bytes := List.replicate 8 []
deriving DecidableEq, Repr

/-- An SPDM session (R658, R662): its function (a controller number, 0xFFFF for MCTP), whether FINISH has established it,
the requester's P-384 key where authentication was mutual, its transcript hash, and what a BIND that succeeded in it bound: SHA-384
of MLDSA_PUB ‖ ECDSA_PUB, and ECDSA_PUB (R662). -/
structure Sess where
  id : Nat
  fn : Nat
  established : Bool := false
  reqKey : Option Bytes := none
  th : Bytes := []
  bound : Option (Bytes × Bytes) := none
deriving DecidableEq, Repr

/-- The last SPDM response: its response code (0x7F ERROR with `err`), and the content that the spec gives. -/
structure SpdmReply where
  code : Nat
  err : Nat := 0
  fn : Nat := 0
  session : Option Nat := none
  data : Bytes := []
deriving DecidableEq, Repr

/-- The trust unit, unit 194. -/
structure Tru where
  /-- The LIFECYCLE fuse and the revoked Stebeun keys (R652, R672). DESIGN CHOICE 0 (log 3). -/
  lifecycle : Nat := 0
  revoked : Nat := 0
  /-- The peat fuses as burned: CEIL_QJ, VMAX_DV, CMAX_MF (R653). DESIGN CHOICE 0 (log 3). -/
  peatFuses : Nat × Nat × Nat := (0, 0, 0)
  /-- The device-unique secret has been reconstructed (R648). -/
  dusOk : Bool := false
  /-- Open sessions, the number of the next one, and the session that opened the test session (R658, R668). -/
  sessions : List Sess := []
  nextSess : Nat := 1
  testBy : Option Nat := none
  /-- HISTORY by index; CURRENT of a fen's index; the record of each extended index as last extended (R655). -/
  history : Tab Bytes := []
  current : Tab Bytes := []
  /-- The registries by instance (R663). DESIGN CHOICE empty, VERSION 0 (log 4). -/
  registries : Tab KeyReg := []
  /-- The snapshot that TRU_MEAS_VALUE shows (R675). -/
  snap : Bytes := []
  reply : Option SpdmReply := none
  /-- IDE streams established, by port × 4 + stream: key material as programmed (R669). -/
  ide : Tab Bytes := []
  /-- The selective stream bound at LOCK_INTERFACE, by instance (R670). -/
  tdiStream : Tab Nat := []
  /-- INST_EPOCH of each instance (R651). DESIGN CHOICE 0 (log 4). -/
  instEpoch : Tab Nat := []
  /-- The TDI of each instance's VF; CONFIG_UNLOCKED where none is listed (R670). -/
  tdi : Tab TdiState := []
deriving DecidableEq, Repr

/-! ## Digest engines (11_digest.md) -/

/-- The feed context of an engine (R424–R427). -/
structure Feed where
  /-- The operation in progress (R424), 0 when none. -/
  op : Nat := 0
  opened : Bool := false
  alg : Nat := 0
  /-- Slot and generation of a keyed computation. -/
  key : Option (Nat × Nat) := none
  /-- Declared length, 0 none. -/
  len : Nat := 0
  /-- Bytes pushed so far. -/
  done : Nat := 0
  /-- Chaining or sponge state, the unhashed bytes of the block, and the outer key state (R427). -/
  st : Bytes := []
  buf : Bytes := []
  outer : Bytes := []
  /-- Bytes 0–3 of the word being staged, and the valid bytes of the next word when it is marked last (R425). -/
  w0 : Nat := 0
  last : Option Nat := none
  digest : Bytes := []
deriving DecidableEq, Repr

/-- The digest engines' feed contexts, by engine. -/
structure Dgt where
  feeds : Tab Feed := []
deriving DecidableEq, Repr

/-! ## Associative search unit (12_associative_search.md) -/

/-- A stored entry (R438). An entry not listed has the invalid form (R439). -/
structure SEntry where
  value : Nat
  care : Nat
  prio : Nat
  result : Nat
deriving DecidableEq, Repr

/-- The state of a bank (R456). -/
inductive BState where
  | service | copying | spared | test | returning | offline
deriving DecidableEq, Repr

/-- One bank: its state, the serving or loading spare (184, 185), and why it was taken out. -/
structure Bank where
  state : BState := .service
  spare : Option Nat := none
  failed : Bool := false
deriving DecidableEq, Repr

/-- What waits for a slot of a bank (R446, R448). -/
structure SlotBook where
  /-- By port, the slots that its keys still need: each number holds the banks of one group of four as a bit mask. -/
  ports : Tab (List Nat) := []
  /-- By bank, the updates that wait for it, oldest first: the slots that each has waited. -/
  updates : Tab (List Nat) := []
deriving DecidableEq, Repr

/-- The associative search unit. -/
structure Asu where
  /-- The array, by global index G (R440). -/
  entries : Tab SEntry := []
  /-- The shadow, by global index G; the DRAM channels that hold a copy (R453). -/
  shadow : Tab SEntry := []
  copies : List Nat := []
  /-- When the running scrub pass began, and the length of the last complete one in ms (R465). -/
  passSince : Option Nat := none
  lastPass : Nat := 0
  /-- Entries marked LOST (R454). -/
  lost : List Nat := []
  banks : Tab Bank := []
  /-- Hold-region bytes reserved at each port, by ticket, and the tickets that wait (R458). -/
  hold : Tab (Tab Nat) := []
  holdWait : Tab (List Nat) := []
  /-- What the ports and banks still have to serve (R448). -/
  slots : SlotBook := {}
deriving DecidableEq, Repr

/-! ## Flash channels (06_flash_channels.md) -/

/-- FCH_CH_STATUS.STATE (R241). -/
inductive FlState where
  | absent | probing | training | ready | retraining | offline | test
deriving DecidableEq, Repr

/-- A slot on a page, or waiting to be put on one: its first quarter, CLASS, KIND and INDEX of its spare entry, its
sequence number and RELOCATED (R280), and its bytes. -/
structure FSlot where
  quarter : Nat := 0
  cls : Nat
  kind : Nat := 1
  idx : Nat
  seq : Nat := 0
  relocated : Bool := false
  bytes : Bytes
  /-- The staging slot that the unit came from, and the ticket that carries it. -/
  stg : Option Nat := none
  tag : Option Nat := none
  /-- The place (page key and quarter) of the source of a relocation (R294). -/
  source : Option (Nat × Nat) := none
deriving DecidableEq, Repr

/-- A page that a channel fills, or one sealed and being programmed: its group, page number and slots (R275). -/
structure OPage where
  group : Nat
  page : Nat
  dense : Bool := false
  used : Nat := 0
  slots : List FSlot := []
  /-- When the latest unit arrived. -/
  since : Nat := 0
deriving DecidableEq, Repr

/-- A unit being read: its ticket, the codeword in progress and those left, and its tier (R251). -/
structure RdOp where
  tag : Nat
  step : Nat
  n : Nat
  idx : Nat
  page : Nat
  quarter : Nat
  cls : Nat
  seqTail : Nat
  left : Nat
  tier : Nat := 0
  /-- Tier 1 reads of the codeword in progress (R251). -/
  retries : Nat := 0
  /-- The highest tier that a codeword of the unit has needed. -/
  worst : Nat := 0
deriving DecidableEq, Repr

/-- One flash channel, units 0 to 31. -/
structure FChan where
  state : FlState := .probing
  /-- Rate codes: current, being tried, highest of the dies; extended support (R237–R239). -/
  rate : Nat := 0
  tryRate : Nat := 0
  dieRate : Nat := 6
  extended : Bool := true
  /-- CODE and TRAIN_TEMP, kept in the flash system area (R250, R269). DESIGN CHOICE 0 (log 4). -/
  code : Nat := 0
  trainTemp : Int := 0
  /-- P1 of feature address 0x8A, as the channel last set it on its dies: 1 in extended mode (R238). -/
  feature8A : Nat := 0
  /-- Dies that report program and erase suspend, as a mask (R255). -/
  suspendable : Nat := 0xFFFFFFFF
  /-- Saved settings, by rate code (R242, R243). -/
  saved : List Nat := List.replicate 7 0
  present : Nat := 0
  /-- Dies offline, kept in the flash system area (R236). DESIGN CHOICE 0 (log 4). -/
  dieOffline : Nat := 0
  /-- A retraining is due (R244), and the channel runs below its target rate (R242). -/
  due : Bool := false
  drift : Bool := false
  below : Bool := false
  /-- User and spare bytes of a page, as the dies report them. DESIGN CHOICE 17,408, the least that R236 admits (log 4). -/
  pageBytes : Nat := 17408
  /-- Operations issued to the dies that have not finished. -/
  reads : List RdOp := []
  /-- The pages being filled: sluice and dense. -/
  sluicePage : Option OPage := none
  densePage : Option OPage := none
  /-- Sealed pages being programmed, oldest first. -/
  programs : List OPage := []
  /-- Block erases in progress: die and block. -/
  erasing : List (Nat × Nat) := []
  /-- Suspends of the operation on each LUN (R255). -/
  suspends : Tab Nat := []
deriving DecidableEq, Repr

/-- An open stripe: its member channels, those written, its running parity, and when its first member came (R256, R258). -/
structure Stripe where
  chans : List Nat := []
  members : List Nat := []
  /-- Members whose data the parity engine has taken, and those that have none because their program failed (R298). -/
  summed : List Nat := []
  failed : List Nat := []
  parity : Bytes := []
  since : Nat := 0
deriving DecidableEq, Repr

/-- The flash array and its channels. -/
structure Fch where
  chans : Tab FChan := []
  /-- Programmed pages by page key: ((channel × 32 + die) × 65536 + block) × 4096 + page. DESIGN CHOICE none (log 4). -/
  pages : Tab (List FSlot) := []
  /-- Open stripes by group × 4096 + page. -/
  stripes : Tab Stripe := []
  /-- Losses to be rebuilt, the one in progress first: channel, die (32: the whole channel) (R259). -/
  losses : List (Nat × Nat) := []
  /-- Pages whose program failed and that no group takes yet: the channel and the page (R291, R298). -/
  stalled : List (Nat × OPage) := []
deriving DecidableEq, Repr

/-! ## Translation layer and media health (07, 08) -/

/-- FTL_STATUS.STATE (R309). -/
inductive TState where
  | starting | recovering | ready | readOnly
deriving DecidableEq, Repr

/-- A MAPPED entry of the map (R277): page key, quarter, CLASS and SEQ_TAIL. -/
structure MEntry where
  page : Nat
  quarter : Nat
  cls : Nat
  seqTail : Nat
deriving DecidableEq, Repr

/-- A staged slot (R278, R291). -/
structure Staged where
  idx : Nat
  buffer : Nat
  cls : Nat
  bytes : Bytes
  /-- Its 4 KiB counts in SBX_DIRTY (R163). -/
  dirty : Bool := true
  /-- It has been sealed into a page. -/
  isSealed : Bool := false
  /-- A later slot replaced it (R291). -/
  superseded : Bool := false
  /-- A WRITE_THROUGH ticket that waits for it. -/
  tag : Option Nat := none
  /-- The DRAIN ticket that carries it. -/
  sent : Option Nat := none
  /-- Staging bytes that it holds (R152). -/
  room : Nat := 0
  /-- Its offset in KiB within its buffer's staging space (R278). -/
  kib : Nat := 0
deriving DecidableEq, Repr

/-- The state of a block group (R281, R284). -/
inductive GState where
  | free | opened | closed | retired
deriving DecidableEq, Repr

/-- A block group (d, b), by d × 65536 + b. -/
structure BGroup where
  dense : Bool := true
  state : GState := .free
  lastSeq : Nat := 0
  reads : Nat := 0
  ecDense : Nat := 0
  ecSluice : Nat := 0
  /-- Namespaces present (R332). -/
  present : List Nat := []
  /-- Taken for relocation ahead of others: 1 by static levelling (R321), 2 read weakly or too often (R322), 3 open
  across a start (R284) or holding copies of a retired block (R298). -/
  takeFirst : Nat := 0
  /-- Open at a start, or without a summary that reads: it counts as open until it is erased (R284). -/
  crossed : Bool := false
  /-- Operating time in ms at which the patrol last finished the group (R322). DESIGN CHOICE 0 (log 4). -/
  patrolAt : Nat := 0
  /-- Free since before the last start: it is erased again before its first program (R294). -/
  stale : Bool := false
  /-- A ticket has been charged for its erase (R247). -/
  erasePaid : Bool := false
deriving DecidableEq, Repr

/-- A journal record (R300). -/
structure JRec where
  /-- 1 WRITE, 2 RELOCATE, 3 DEALLOCATE, 4 BLOCK_RETIRE, 5 CLOSE. -/
  type : Nat
  idx : Nat := 0
  entry : Option MEntry := none
  tag : Option Nat := none
  /-- The staged slot whose unit the record commits. -/
  stg : Option Nat := none
deriving DecidableEq, Repr

/-- A journal page being programmed, with the program status of each die of its pair (R301, R302). -/
structure JPage where
  jseq : Nat
  recs : List JRec
  first : Bool := false
  second : Bool := false
deriving DecidableEq, Repr

/-- A complete checkpoint (R304, R305). -/
structure Anchor where
  num : Nat
  s0 : Nat
  j0 : Nat
  /-- The JSEQ after the checkpoint's own records. -/
  jend : Nat
  map : Tab MEntry
  /-- The map, directory and root pages that it refers to, by KIND × 2^40 + page number (R297, R305). -/
  places : Tab MEntry := []
deriving DecidableEq, Repr

/-- A zone (R576–R578). -/
structure Zone where
  /-- 0 empty, 1 implicitly open, 2 explicitly open, 3 closed, 4 full, 5 read only, 6 offline. -/
  state : Nat := 0
  wp : Nat := 0
deriving DecidableEq, Repr

/-- A namespace (R271, R565, R591, R598). -/
structure Ns where
  /-- First map page and logical units. -/
  base : Nat
  units : Nat
  owner : Nat := 0
  /-- Units of a zone, 0 where it is not zoned. -/
  zoneUnits : Nat := 0
  zones : Tab Zone := []
  /-- The zone state table as last written to the flash system area (R578). -/
  zonesSaved : Tab Zone := []
  /-- Controllers attached. -/
  attached : List Nat := []
  line : Nat := 0
deriving DecidableEq, Repr

/-- A pending secure discard (R333). -/
structure Secure where
  ns : Nat
  first : Nat
  units : Nat
  step : Nat := 1
  tag : Option Nat := none
  /-- The set S of step 2. -/
  groups : List Nat := []
  /-- How the media answer it: retired blocks that stay, blocks whose erase fails (R323, R335). -/
  lost : List Nat := []
  eraseFails : List Nat := []
deriving DecidableEq, Repr

/-- The map engine, unit 189, and the flash system area records it keeps. -/
structure Ftl where
  state : TState := .starting
  lastPath : Nat := 0
  /-- The map: MAPPED entries that are durable or whose record is held. DESIGN CHOICE none: new media (log 4). -/
  map : Tab MEntry := []
  /-- The staged slot that each STAGED map index points to, by index. -/
  stagedAt : Tab Nat := []
  /-- Staged slots by arrival number (R278, R291). -/
  staging : Tab Staged := []
  nextStaged : Nat := 0
  /-- Map (2), directory (3) and root (4) pages changed since they were last written, as (KIND, page number) (R287), and
  the place of each page as last written, by KIND × 2^40 + page number. -/
  mapDirty : List (Nat × Nat) := []
  mapAt : Tab MEntry := []
  /-- Map pages marked unverified after a rebuild. -/
  unverified : List Nat := []
  /-- Next sequence number (R276) and next JSEQ. DESIGN CHOICE 0 (log 4). -/
  nextSeq : Nat := 0
  nextJseq : Nat := 0
  groups : Tab BGroup := []
  /-- Next page of each member, by group × 32 + channel. -/
  nextPage : Tab Nat := []
  /-- Blocks that replaced a member, by group × 32 + channel; spare pools by channel × 32 + die; retired blocks as
  (channel, die, block) (R323). -/
  members : Tab Nat := []
  pools : Tab (List Nat) := []
  retired : List (Nat × Nat × Nat) := []
  /-- The group that each retired block belonged to, by page key / 4,096. -/
  retiredIn : Tab Nat := []
  /-- The offline sets, oldest first: the sequence number from which each is in force, and its (channel, die) pairs, die 32 for a
  whole channel (R281, R282). -/
  offlineSets : List (Nat × List (Nat × Nat)) := []
  spareAtFormat : Nat := 0
  /-- Pages of a block in each mode, as the dies report them. -/
  sluicePages : Nat := 0
  densePages : Nat := 0
  /-- Group used last for a page, in rotation (R281). DESIGN CHOICE 0 (log 5). -/
  lastGroup : Nat := 0
  /-- The journal (R300–R302): records held, pages being programmed, and committed records from J0 on with their JSEQ;
  CLOSE written. -/
  held : List JRec := []
  jpages : List JPage := []
  journal : List (Nat × JRec) := []
  closed : Bool := false
  /-- The running checkpoint: S0 and J0 (R304), and whether it is of a clean shutdown. -/
  ckpt : Option (Nat × Nat) := none
  ckptSince : Nat := 0
  anchor : Option Anchor := none
  /-- Pages programmed since the S0 of the last complete checkpoint, and since that of the running one (R303). -/
  pagesSinceS0 : Nat := 0
  pagesSinceCkpt : Nat := 0
  /-- The S0 recorded with the root pages of each checkpoint number (R308). -/
  rootS0 : Tab Nat := []
  /-- Map indexes whose unit a relocation found lost (R252). -/
  lostUnits : List Nat := []
  folding : Bool := false
  /-- The image that a warm start reloads (R288). -/
  warmImage : Option (Tab MEntry) := none
  /-- GiB of the DRAM tier and of the DRAM staging extension in use, as the last start reduced them (R287, R315). -/
  mapGib : Nat := 0
  stageGib : Nat := 0
  /-- Frames of the on-die tier and of the DRAM tier, as KIND × 2^40 + page number, most recent first; the channels that hold the
  DRAM tier, as the start found them in service (R286, R287). -/
  cached : List Nat := []
  dramTier : List Nat := []
  cacheChans : List Nat := []
  /-- The epoch in which a fold ticket was last offered (R293). -/
  foldEpoch : Option Nat := none
  /-- Namespaces by identifier. DESIGN CHOICE none (log 4). -/
  ns : Tab Ns := []
  secures : List Secure := []
  /-- When static levelling last issued a ticket (R321). -/
  lastLevel : Nat := 0
  /-- Lifetime totals (R326) as last written: tiers 1–4, lost, MEDIA_LOST, minutes; and those since the last start.
  DESIGN CHOICE 0 (log 4). -/
  totals : List Nat := [0, 0, 0, 0, 0, 0, 0]
  since : List Nat := [0, 0, 0, 0, 0, 0, 0]
  /-- The temperature histogram (R327) and its copy in the flash system area; the highest t_model of this minute.
  DESIGN CHOICE 0 (log 4). -/
  hist : List Nat := List.replicate 16 0
  histSaved : List Nat := List.replicate 16 0
  maxTemp : Option Int := none
  /-- Minutes at thermal stages 1 and 2 (R329). -/
  hotMinutes : Nat × Nat := (0, 0)
  /-- Per instance: 512-byte units read and written, commands read and written, media errors (R329). -/
  reads : Tab Nat := []
  writes : Tab Nat := []
  readCmds : Tab Nat := []
  writeCmds : Tab Nat := []
  mediaErrors : Tab Nat := []
  /-- Whole operating minutes since the histogram was last written. -/
  minutesUnsaved : Nat := 0
  /-- Erase counts as the last checkpoint wrote them (R320). -/
  wearSaved : Tab (Nat × Nat) := []
  /-- Presence bitmaps as the last checkpoint wrote them (R332). -/
  presentSaved : Tab (List Nat) := []
deriving DecidableEq, Repr

/-! ## DRAM channels (15_dram.md) -/

/-- DRC_CH_STATUS.STATE (R544). -/
inductive DState where
  | absent | training | ready | retraining | selfRefresh | offline | test
deriving DecidableEq, Repr

/-- The page history of a bank (R540): HIST, the row remembered, whether it is open, and whether the last access opened it. -/
structure DBank where
  hist : Nat := 0
  row : Option Nat := none
  isOpen : Bool := false
  opened : Bool := false
deriving DecidableEq, Repr

/-- One DRAM channel, units 168 to 171. -/
structure DChan where
  state : DState := .training
  /-- Rate codes: current, being tried, highest that the devices report (R533). -/
  rate : Nat := 0
  tryRate : Nat := 0
  devRate : Nat := 7
  /-- Saved settings: rate code to (TRAIN_TEMP, settings) (R545). -/
  saved : Tab (Int × Nat) := []
  trainTemp : Int := 0
  below : Bool := false
  /-- Installed GiB and whether two ranks are fitted (R532). DESIGN CHOICE 0 until the probe (log 4). -/
  sizeGib : Nat := 0
  ranks2 : Bool := false
  /-- A drift-retraining window is open, and a rate change waits for its end (R546, R547). -/
  window : Bool := false
  heldRate : Bool := false
  banks : Tab DBank := []
  /-- The retraining under way is a drift retraining, and when its next window opens (R546). -/
  drift : Bool := false
  windowAt : Nat := 0
  /-- Refreshes postponed, by bank, and the interval that the temperature register sets (R541). DESIGN CHOICE 0. -/
  postponed : Tab Nat := []
  refreshNs : Nat := 0
deriving DecidableEq, Repr

/-- The DRAM controller. -/
structure Drc where
  chans : Tab DChan := []
  /-- The channel of each local memory page that a write placed anew, by instance × 2^24 + page (R548). -/
  placed : Tab Nat := []
  /-- Symbols in error of local memory code words, by instance × 2^35 + address ÷ 32 (R741). -/
  marks : Tab Nat := []
deriving DecidableEq, Repr

/-! ## Host interface and NVMe (16_host_interface.md) -/

/-- A port's link (R557, R559, R586): the working lanes as the last training found them. -/
structure Link where
  up : Bool := false
  rate : Nat := 0
  width : Nat := 0
  l0p : Bool := false
  ide : Bool := false
deriving DecidableEq, Repr

/-- A submission queue: its base address, entries, completion queue, the tail, and the entries that the port has fetched
and no core has translated yet, each with its ring index (R564). -/
structure NSq where
  base : Nat := 0
  size : Nat := 0
  cq : Nat := 0
  tail : Nat := 0
  head : Nat := 0
  fetched : List (Nat × Bytes) := []
deriving DecidableEq, Repr

/-- A completion queue: its base address, entries, interrupt vector, tail and phase. -/
structure NCq where
  base : Nat := 0
  size : Nat := 0
  iv : Option Nat := none
  tail : Nat := 0
  phase : Bool := true
deriving DecidableEq, Repr

/-- A ticket still to be formed for a command (R566, R571): line, namespace, first unit and bytes; `after` where it waits
for every earlier ticket of the command. -/
structure NTodo where
  line : Nat
  ns : Nat
  first : Nat
  bytes : Nat
  after : Bool := false
deriving DecidableEq, Repr

/-- A command translated and not yet completed (R566, R571). -/
structure NCmd where
  ctrl : Nat
  sq : Nat
  cid : Nat
  op : Nat
  admin : Bool := false
  nsid : Nat := 0
  arg : Nat := 0
  /-- Tickets (or key requests) submitted and not yet ended, how many have been submitted, and those still to be formed. -/
  left : Nat := 0
  formed : Nat := 0
  todo : List NTodo := []
  /-- Zones that a Reset empties at its end (R577). -/
  zones : List Nat := []
  /-- First failure and first warning of its tickets: SCT × 256 + SC + 65536 when DNR, and the device status and unit. -/
  fail : Option (Nat × Nat × Nat) := none
  dw0 : Nat := 0
  dw1 : Nat := 0
  /-- The entry and its ring index, and the ENTRY of a Goley image (R580). -/
  entry : Bytes := []
  index : Nat := 0
  prog : DWord := 0
deriving DecidableEq, Repr

/-- An NVMe controller: 0 and 1 the physical functions, 1 + i the virtual function of instance i. -/
structure NCtrl where
  sqs : Tab NSq := []
  cqs : Tab NCq := []
  /-- CC as last written; the admin queues are queue 0 (R560). -/
  cc : Nat := 0
  /-- AQA, ASQ and ACQ: sizes and addresses of the admin queues. DESIGN CHOICE 0 (log 41). -/
  aqa : Nat := 0
  asq : Nat := 0
  acq : Nat := 0
  /-- Outstanding Asynchronous Event Requests, by CID, oldest first. -/
  aer : List Nat := []
  /-- Features as set: identifier to Dword 11 (R568). -/
  feats : Tab Nat := []
  /-- The volatile write cache is enabled. DESIGN CHOICE true (log 40). -/
  vwc : Bool := true
  /-- I/O queue pairs that Virtualization Management has given it (R564). -/
  queues : Nat := 0
  online : Bool := false
  /-- Error Information entries, newest first, at most 64; changed namespaces and zones (R567). -/
  errors : List Bytes := []
  errCount : Nat := 0
  changedNs : List Nat := []
  changedZones : List (Nat × Nat) := []
  /-- The Timestamp: value and operating time at its set (R723). -/
  stamp : Option (Nat × Nat) := none
deriving DecidableEq, Repr

/-- The host interface. -/
structure Hif where
  /-- The bifurcation strap as sampled at cold start: two x8 ports (R558). DESIGN CHOICE false (log 7). -/
  x8x8 : Bool := false
  links : Tab Link := []
  ctrls : Tab NCtrl := []
  cmds : List NCmd := []
  /-- MSI-X messages sent: (controller, vector), oldest first. -/
  msix : List (Nat × Nat) := []
  /-- Temperature Threshold, as last set from any function. -/
  tempThresh : Tab Nat := []
  /-- NVMe-MI: the response that an NVMe-MI Receive returns, and the last response on a transport (R583). -/
  miReply : Bytes := []
  miOut : Bytes := []
  /-- NVMe-MI configuration: identifier to value. -/
  miConf : Tab Nat := []
  /-- The SMBus interface has been reset and its lines released (R775): how many times. -/
  smbResets : Nat := 0
deriving DecidableEq, Repr

/-! ## The junction (18_federation.md) -/

/-- A junction frame: the header of R618 without CHECK and FED_ID's copy, and the payload. -/
structure Frame where
  type : Nat
  flags : Nat := 0
  hops : Nat := 0
  status : Nat := 0
  dest : Nat := 0
  src : Nat := 0
  fedId : Nat := 0
  srcInc : Nat := 0
  destInc : Nat := 0
  tenant : Nat := 0
  seq : Nat := 0
  ack : Nat := 0
  destUnit : Nat := 0
  srcUnit : Nat := 0
  destGen : Nat := 0
  window : Nat := 0
  param : Nat := 0
  payload : Bytes := []
deriving DecidableEq, Repr

/-- A message sent that has no outcome yet (R621–R623, R626). -/
structure FMsg where
  /-- Its number in the connection, once it has been transmitted. -/
  seq : Nat := 0
  sent : Bool := false
  tag : Nat
  inst : Nat
  cookie : Nat
  destUnit : Nat
  srcUnit : Nat
  destGen : Nat
  param : Nat
  payload : Bytes
  acked : Bool := false
  /-- When the frame was last sent, and the retransmissions that count (R623). -/
  sentAt : Nat := 0
  retries : Nat := 0
deriving DecidableEq, Repr

/-- A connection at its sender, to one node and tenant (R622). -/
structure FConn where
  node : Nat
  tenant : Nat
  /-- DEST_INC once the first ACK has returned it. -/
  inc : Option Nat := none
  nextSeq : Nat := 0
  msgs : List FMsg := []
  window : Nat := 64
  /-- When it last had something outstanding. -/
  since : Nat := 0
deriving DecidableEq, Repr

/-- A connection at its receiver: the next SEQ expected, and frames stored out of order (R623). -/
structure FIncoming where
  node : Nat
  inc : Nat
  tenant : Nat
  expect : Nat := 0
  stored : List Frame := []
  /-- When its last frame arrived. -/
  since : Nat := 0
deriving DecidableEq, Repr

/-- A message in the receive buffer until its receive ticket has ended and its outcome has been sent (R624, R625): its
frame, the instance matched, the ticket, its outcome once it is known, whether that has been sent, and whether the ticket
has ended. -/
structure FRecv where
  id : Nat
  frame : Frame
  inst : Nat := 0
  tag : Option Nat := none
  status : Option Nat := none
  outcome : Bool := false
  done : Bool := false
  /-- A local message's own ticket (R621). -/
  own : Option Nat := none
deriving DecidableEq, Repr

/-- A neighbour (R630, R631): its incarnation, serial number, when it was last heard on each port. -/
structure FNeighbour where
  node : Nat
  inc : Nat
  serial : Nat := 0
  heard : Tab Nat := []
  /-- The source address of its last heartbeat on each port (R617). -/
  macs : Tab Nat := []
deriving DecidableEq, Repr

/-- A placement group (R635), with this node's role. -/
structure FGroup where
  group : Nat
  term : Nat
  nsid : Nat := 0
  nodes : List Nat := []
  primary : Bool := false
  /-- This node may still claim the group after its start (R636). -/
  claim : Bool := true
  /-- The node whose PROMOTED raised TERM last, the group's primary as far as this node knows; none: NODES[0] (R637, log 189). -/
  holder : Option Nat := none
deriving DecidableEq, Repr

/-- The junction, unit 190. -/
structure Jct where
  /-- The incarnation (R619). DESIGN CHOICE 0 (log 4). -/
  inc : Nat := 0
  /-- The federation has been joined at this start; DUPLICATE; frames are no longer sent (R632). -/
  joined : Bool := false
  duplicate : Bool := false
  left : Bool := false
  /-- Links of the four ports: 0 DOWN, 1 TRAINING, 2 UP; negotiated as CR1 (R643). -/
  links : List Nat := [0, 0, 0, 0]
  cr1 : List Bool := [false, false, false, false]
  neighbours : List FNeighbour := []
  /-- Nodes held as lost; losses and promotions already forwarded: (node, incarnation) and (group, TERM) (R633, R637). -/
  lost : List Nat := []
  losses : List (Nat × Nat) := []
  promotions : List (Nat × Nat) := []
  conns : List FConn := []
  incoming : List FIncoming := []
  recv : List FRecv := []
  nextRecv : Nat := 0
  /-- The route table: node to (NEXT, ALT); a node not listed has none (R628). -/
  routes : Tab (Nat × Nat) := []
  /-- The placement table (R635) and the terms kept in the flash system area (R637). DESIGN CHOICE none (log 4). -/
  groups : List FGroup := []
  terms : Tab Nat := []
  /-- Groups whose promotion has begun here and waits for step 2 of R637. -/
  promoting : List Nat := []
  /-- Outcomes of this node's messages to itself that have not reached their tickets: (tag, status) (R621). -/
  arrived : List (Nat × Nat) := []
  /-- Frames given to the ports and not yet transmitted: (port, next hop, frame), oldest first. -/
  out : List (Nat × Nat × Frame) := []
deriving DecidableEq, Repr



/-! ## The machine -/

/-- The AE9632 as a block: the commands that wait, and the state of every block of the device. -/
structure State where
  /-- Commands that wait, first in, first out. -/
  pending : List Instr := []
  /-- The model's clock in µs: it advances by one at a step on an empty queue (log 1). -/
  now : Nat := 0
  /-- The number of free values drawn so far (log 9). DESIGN CHOICE 0; no statement rests on it. -/
  freeCount : Nat := 0
  dev : Dev := {}
  regs : Regs := {}
  evr : Evr := {}
  sbx : Sbx := {}
  stn : Stn := {}
  cfg : Cfg := {}
  fab : Fab := {}
  pwr : Pwr := {}
  /-- Subsystem local memory of each instance, by byte; an unlisted byte reads 0 (R599, R688). -/
  lmem : Tab (Tab Byte) := []
  key : Key := {}
  /-- What the device wrote to host memory, by function key (port × 512 + instance) and address (log 11). -/
  host : Tab (Tab Byte) := []
  /-- Goley cores by c: unit − 72, and 48, 49 for the spares 182, 183 (R494). -/
  cores : Tab Core := []
  /-- Usable device DRAM, by byte; an unlisted byte reads 0 (R472, R688). -/
  dram : Tab Byte := []
  ten : Ten := {}
  boot : Boot := {}
  upd : Upd := {}
  tst : Tst := {}
  tru : Tru := {}
  dgt : Dgt := {}
  asu : Asu := {}
  fch : Fch := {}
  ftl : Ftl := {}
  drc : Drc := {}
  hif : Hif := {}
  jct : Jct := {}
deriving DecidableEq, Repr

/-- The machine right after reset: every field at its default (the defaults above give the spec's reset values, and
name the log entry where the spec gives none). -/
def State.reset : State := {}

/-- Why the machine stops with a fault. No command of this block does. -/
inductive Fault where
  /-- Raised by no meaning: the block has no behaviour that the spec calls a stop. Safe. -/
  | none
deriving DecidableEq, Repr

/-- Why a command has no meaning. -/
inductive Refusal where
  /-- Raised by exec's arm of a command whose meaning is not written yet, with its mnemonic. Safe. -/
  | notModelled (mnemonic : String)
deriving DecidableEq, Repr

/-- What a step answers. -/
abbrev Out := Host.Outcome State Fault Refusal

end Sys2Proof.Machine
end

