-- ==== Sys2Proof/Machine/Tab.lean ====
section
/-! DEFINITION. Operations over sparse collections (`Tab`): lookup, insertion that keeps the keys strictly rising,
removal; and their canonical form. -/

namespace Sys2Proof.Tab

variable {α : Type}

/-- The value at key `k`, if there is one. -/
def get? : Tab α → Nat → Option α
  | [], _ => none
  | (j, v) :: t, k => if j = k then some v else get? t k

/-- The value at key `k`, `d` where there is none. -/
def getD (t : Tab α) (k : Nat) (d : α) : α := (get? t k).getD d

/-- Put `v` at key `k`, keeping the keys in rising order. -/
def set : Tab α → Nat → α → Tab α
  | [], k, v => [(k, v)]
  | (j, w) :: t, k, v =>
    if k < j then (k, v) :: (j, w) :: t
    else if k = j then (k, v) :: t
    else (j, w) :: set t k v

/-- Remove key `k`, wherever it is listed. -/
def erase : Tab α → Nat → Tab α
  | [], _ => []
  | (j, w) :: t, k => if j = k then erase t k else (j, w) :: erase t k

/-- Put `v` at key `k`, listing nothing where `v` is what an unlisted key reads as. -/
def put [DecidableEq α] (d : α) (t : Tab α) (k : Nat) (v : α) : Tab α :=
  if v = d then erase t k else set t k v

/-- Change the value at `k` (`d` where there is none). -/
def upd (t : Tab α) (k : Nat) (d : α) (f : α → α) : Tab α := set t k (f (getD t k d))

/-- Change the value at `k` where there is one. -/
def mod (t : Tab α) (k : Nat) (f : α → α) : Tab α :=
  match get? t k with
  | some v => set t k (f v)
  | none => t

/-- The keys rise strictly and every key is at least `lo`. -/
def sortedFrom (lo : Nat) : Tab α → Bool
  | [] => true
  | (j, _) :: t => decide (lo ≤ j) && sortedFrom (j + 1) t

/-- The canonical form of a sparse collection. -/
def sorted (t : Tab α) : Bool := sortedFrom 0 t

/-- The canonical form with default `d`: keys strictly rising, nothing listed that equals `d`. -/
def canon [DecidableEq α] (d : α) (t : Tab α) : Bool :=
  sorted t && t.all (fun p => decide (p.2 ≠ d))

/-- The keys at which something is listed. -/
def keys (t : Tab α) : List Nat := t.map (·.1)

/-- The values listed. -/
def vals (t : Tab α) : List α := t.map (·.2)

/-- Keep the entries that satisfy `p`. -/
def keep (t : Tab α) (p : Nat → α → Bool) : Tab α := t.filter (fun e => p e.1 e.2)

/-- Change every value. -/
def mapVals (t : Tab α) (f : Nat → α → α) : Tab α := t.map (fun e => (e.1, f e.1 e.2))

/-- The lowest key from `i` upward, of `n` keys, that is free. -/
def freeKey (t : Tab α) : Nat → Nat → Option Nat
  | _, 0 => none
  | i, n + 1 => if (get? t i).isNone then some i else freeKey t (i + 1) n

end Sys2Proof.Tab
end

