-- ==== Sys2Proof/Machine/Ops.lean ====
section
/-! DEFINITION. The named operations over the machine that every family uses: register values, byte memories, units and
their generations, the event recorder, the siding and the trunk. -/

namespace Sys2Proof.Machine

/-! ## Register values (R7–R17, R778) -/

/-- The reset value of the register at `a` (0 where nothing is implemented, R11). -/
def resetOf (a : Nat) : Nat :=
  match findReg a with
  | some (r, _, _) => r.resetWord
  | none => 0

/-- The effective value of the RWS fields of the register at `a` (R12). -/
def effWord (s : State) (a : Nat) : Nat := (Tab.get? s.regs.eff a).getD (resetOf a)

/-- Bits [hi:lo] of the effective value of the register at `a`. -/
def eff (s : State) (a hi lo : Nat) : Nat := fld (effWord s a) hi lo

/-- The staged value of the RWS fields of the register at `a` (R9). -/
def stagedWord (s : State) (a : Nat) : Nat := (Tab.get? s.regs.staged a).getD (resetOf a)

/-- The stored value of the fields at `a` that are not RWS. -/
def liveWord (s : State) (a : Nat) : Nat := (Tab.get? s.regs.live a).getD (resetOf a)

/-- Bits [hi:lo] of the stored value at `a`. -/
def live (s : State) (a hi lo : Nat) : Nat := fld (liveWord s a) hi lo

/-- The device sets the stored field [hi:lo] at `a`. -/
def setLive (s : State) (a hi lo v : Nat) : State :=
  { s with regs := { s.regs with live := Tab.set s.regs.live a (setFld (liveWord s a) hi lo v) } }

/-- The device counts `k` in the saturating counter [hi:lo] at `a`. -/
def bump (s : State) (a hi lo k : Nat) : State :=
  setLive s a hi lo (satAdd (hi - lo + 1) (live s a hi lo) k)

/-- The 64-bit number of a _LO and _HI pair whose _LO stands at `a` and _HI four above. -/
def live64 (s : State) (a : Nat) : Nat := liveWord s a + liveWord s (a + 4) * 2 ^ 32

/-- The device sets the 64-bit number of a pair. -/
def setLive64 (s : State) (a v : Nat) : State := setLive (setLive s a 31 0 v) (a + 4) 31 0 (v / 2 ^ 32)

/-- The device counts `k` in the 64-bit counter of a pair. -/
def bump64 (s : State) (a k : Nat) : State := setLive64 s a (live64 s a + k)

/-- The device itself changes the effective value of an RWS field outside a commit: the staged value follows (R778). -/
def setEff (s : State) (a hi lo v : Nat) : State :=
  { s with regs := { s.regs with
      eff := Tab.set s.regs.eff a (setFld (effWord s a) hi lo v),
      staged := Tab.set s.regs.staged a (setFld (stagedWord s a) hi lo v) } }

/-- An access to an instance's page takes effect: while the instance's TDI is in RUN, only on the IDE stream bound at its lock; outside it
it completes as Unsupported Request (R670). `on`: the stream it travels on, none outside every stream. -/
def mmioTravels (s : State) (inst on : Option Nat) : Bool :=
  match inst with
  | none => true
  | some i => Tab.getD s.tru.tdi i .unlocked != .run || on == Tab.get? s.tru.tdiStream i

/-- An access to an instance's page: without effect where it does not travel as R670 asks. -/
def onPage (s : State) (inst on : Option Nat) (f : State → State) : Host.Outcome State Fault Refusal :=
  .next (if mmioTravels s inst on then f s else s)

/-- The address of the COMMIT register of the group of the register at `a`, 0 where it has none. -/
def commitOf (a : Nat) : Nat :=
  match findReg a with
  | some (r, i, _) => if r.commit = 0 then 0 else r.commit + i * r.commitStride
  | none => 0

/-- The state of the commit group whose COMMIT register is at `c`. -/
def groupAt (s : State) (c : Nat) : Group := Tab.getD s.regs.groups c {}

/-- Set the state of a commit group. -/
def setGroup (s : State) (c : Nat) (g : Group) : State :=
  { s with regs := { s.regs with groups := Tab.put {} s.regs.groups c g } }

/-- The staged values of the group at `c` as one set (R13). The set holds a value for every register of the group: one that is
not listed is staged at its reset value. -/
def stagedSet (s : State) (c : Nat) : Tab Nat :=
  let listed := (Tab.keys s.regs.staged ++ Tab.keys s.regs.eff).filter (fun a => commitOf a == c)
  listed.foldl (fun t a => Tab.set t a (stagedWord s a)) []

/-- The value that a set gives the register at `a`: a set is whole, and a register that it does not list has its reset value
in it, so nothing that the device does after GO changes the set (R778). -/
def inSet (set : Tab Nat) (a : Nat) : Nat := (Tab.get? set a).getD (resetOf a)

/-- A device key of R650; after DECOMMISSIONED no derivation is made (R652). -/
def deviceKey (s : State) (n : Nat) : Option Bytes := if s.tru.lifecycle = 2 then none else some (Config.deviceKey n)

/-! ## Byte memories -/

/-- The byte at `a` of a sparse memory; an unlisted byte reads 0. -/
def memByte (m : Tab Byte) (a : Nat) : Byte := Tab.getD m a 0#8

/-- `n` bytes from `a`. -/
def memRead (m : Tab Byte) (a : Nat) : Nat → Bytes
  | 0 => []
  | n + 1 => memByte m a :: memRead m (a + 1) n

/-- Write bytes from `a` on, listing no zero byte. -/
def memWrite (m : Tab Byte) (a : Nat) : Bytes → Tab Byte
  | [] => m
  | b :: t => memWrite (Tab.put 0#8 m a b) (a + 1) t

/-- Write bytes from `a` on, listing every byte written (what the device wrote to host memory). -/
def memStore (m : Tab Byte) (a : Nat) : Bytes → Tab Byte
  | [] => m
  | b :: t => memStore (Tab.set m a b) (a + 1) t

/-- The canonical form of a byte memory: addresses strictly rising and no zero byte listed. -/
def memWf (m : Tab Byte) : Bool := Tab.canon 0#8 m

/-- DRAM channel `c` (0 to 3). -/
def dramOf (s : State) (c : Nat) : DChan := Tab.getD s.drc.chans c {}

/-- DRAM channel `c` is in service: READY or RETRAINING (R550). -/
def dramIn (s : State) (c : Nat) : Bool :=
  match (dramOf s c).state with
  | .ready | .retraining => true
  | _ => false

/-- The DRAM channels in service, in ascending order. -/
def dramLive (s : State) : List Nat := (List.range 4).filter (dramIn s)

/-- Every DRAM channel is OFFLINE or ABSENT (R549). -/
def dramAllLost (s : State) : Bool :=
  (List.range 4).all (fun c => decide ((dramOf s c).state = .offline) || decide ((dramOf s c).state = .absent))

/-- The key of page `p` of instance `i`'s local memory. -/
def lpage (i p : Nat) : Nat := i * 16777216 + p

/-- The key of a code word of instance `i`'s local memory. -/
def lword (i w : Nat) : Nat := i * 2 ^ 35 + w

/-- The code words of [a, a + n). -/
def wordSpan (a n : Nat) : List Nat :=
  if n = 0 then [] else (List.range ((a + n - 1) / 32 - a / 32 + 1)).map (· + a / 32)

/-- The channel that holds page `p` of instance `i`'s local memory: consecutive pages rotate over the channels that were
in service when the memory was carved (R542, R599), but for pages that a write has placed since (R548). -/
def pageChan (s : State) (i p : Nat) : Nat :=
  let l := (Tab.getD s.ten.insts i {}).chans
  (Tab.get? s.drc.placed (lpage i p)).getD (l.getD (p % max 1 l.length) 4)

/-- Page `p` is lost: its channel was in service when it was placed and is no longer (R548). -/
def pageGone (s : State) (i p : Nat) : Bool := decide (pageChan s i p < 4) && !dramIn s (pageChan s i p)

/-- The pages of [a, a + n). -/
def pageSpan (a n : Nat) : List Nat :=
  if n = 0 then [] else (List.range ((a + n - 1) / 4096 - a / 4096 + 1)).map (· + a / 4096)

/-- Of `n` pages in rotation over `l`, those on channel `c` (R542). -/
def rotated (l : List Nat) (n c : Nat) : Nat :=
  if l.contains c then n / l.length + b2n (decide (l.idxOf c < n % l.length)) else 0

/-- The pages of instances' local memory on channel `c`. -/
def pagesOn (s : State) (c : Nat) : Nat :=
  let chans : Nat → List Nat := fun i => (Tab.getD s.ten.insts i {}).chans
  let homes := (s.ten.insts.map (fun p => rotated p.2.chans (p.2.lmem64 * 16384) c)).sum
  let here := (s.drc.placed.filter (fun p => p.2 == c)).length
  let away := (s.drc.placed.filter (fun p =>
    let l := chans (p.1 / 2 ^ 24)
    l.contains c && l.idxOf c == p.1 % 2 ^ 24 % l.length)).length
  homes - away + here

/-- Channel `c` has room for one more page of local memory: the areas of steps 1 to 4 and 6 of R543 lie on the channels in service in
equal shares (log 188). -/
def chanRoom (s : State) (c : Nat) : Bool :=
  let usable := live s (0xD0101C + 0x40 * c) 31 0 * 256
  let shared := (912 + 2048 * (s.ftl.mapGib + s.ftl.stageGib)) * 256
  decide (pagesOn s c + ceilDiv shared (max 1 (dramLive s).length) < usable)

/-- A write places each lost page of its range on a channel in service that has room, in rotation (R548). -/
def placePages (s : State) (i a n : Nat) : State :=
  (pageSpan a n).foldl (fun s p =>
    if pageGone s i p then
      let l := dramLive s
      let k := p % max 1 l.length
      match ((l.drop k ++ l.take k).filter (chanRoom s)).head? with
      | some c => { s with drc := { s.drc with placed := Tab.set s.drc.placed (lpage i p) c } }
      | none => s
    else s) s

/-- `n` bytes of instance `i`'s subsystem local memory. -/
def lmemRead (s : State) (i a n : Nat) : Bytes := memRead (Tab.getD s.lmem i []) a n

/-- Write instance `i`'s subsystem local memory. -/
def lmemWrite (s : State) (i a : Nat) (bs : Bytes) : State :=
  let s := placePages s i a bs.length
  { s with lmem := Tab.put [] s.lmem i (memWrite (Tab.getD s.lmem i []) a bs) }

/-! ## Free values (log 9) -/

/-- Advance the counter of free values. -/
def drawn (s : State) : State := { s with freeCount := s.freeCount + 1 }

/-- `n` free bytes of the draw numbered `k`. -/
def freeBytes (k : Nat) (n : Nat) : Bytes := (List.range n).map (fun i => Config.freeByte (k * 65536 + i))

/-- The failures of R180, class F. -/
def failures : List Nat := [1, 5, 6, 7, 8, 9, 10, 11, 12, 13, 14, 15, 16, 17]

/-- A refusal whose status the spec does not state reports a free one of the failures of R180 (R20, log 9). -/
def freeFailure (s : State) : Nat := failures.getD (Config.freeNat s.freeCount % 14) 0x10

/-! ## The event recorder (R720–R726) -/

/-- OP_TIME_MS now (R722). -/
def opTime (s : State) : Nat := s.evr.opBase + (s.now - s.evr.opSince) / 1000

/-- Operating time in µs (R471 TIME, R612). -/
def timeUs (s : State) : Nat := s.evr.opBase * 1000 + (s.now - s.evr.opSince)

/-- BOOT_CYCLES, the power-cycle count (R699, R722). -/
def powerCycles (s : State) : Nat := live s Reg.BOOT_CYCLES 31 0

/-- The 64 bytes of a record, CHECK last (R720). -/
def recordBytes (r : EventRec) : Bytes :=
  let b := natLe 8 r.seq ++ natLe 5 r.opTime ++ natLe 1 r.flags ++ natLe 2 r.inst ++ natLe 4 r.cycles ++
    natLe 2 r.event ++ natLe 1 r.sev ++ natLe 1 r.status ++ natLe 1 r.unit ++ zeros 3 ++ natLe 8 r.wallMs ++
    fit 20 r.detail ++ zeros 4
  b ++ natLe 4 (crc32c b).toNat

/-- Append a record to a copy of the ring, discarding the oldest 1,024 when the copy is full (R725, log 130). -/
def ringPush (ring : List EventRec) (r : EventRec) : List EventRec :=
  (if 229376 ≤ ring.length then ring.drop 1024 else ring) ++ [r]

/-- Deliver a record to the area of its instance while EN is 1 (R726). -/
def deliver (s : State) (i : Nat) (bs : Bytes) : State :=
  let a := Reg.EVR_INST_AREA + 4 * i
  if i = 0 ∨ eff s a 31 31 = 0 then s
  else
    let base := eff s a 27 0 * 4096
    let n := Tab.getD s.evr.written i 0
    let s := lmemWrite s i (base + 64 * (1 + n % 1023)) bs
    let s := { s with evr := { s.evr with written := Tab.set s.evr.written i (n + 1) } }
    lmemWrite s i base (fit 64 ([0x45#8, 0x56#8, 0x52#8, 0x41#8] ++ natLe 8 (n + 1)))

/-- Write the mirror page being filled to the flash system area (R724). -/
def flushMirror (s : State) : State :=
  { s with evr := { s.evr with
      mirror := s.evr.page.foldl ringPush s.evr.mirror, page := [] } }

/-- The mark of a record for whose event the spec states no SEVERITY: it is written with a free one of 0–2 (log 91). -/
abbrev sevFree : Nat := 3

/-- Program one record, in NOR and into the mirror page, and deliver it (R724, R725). -/
def writeRecord (s : State) (r : EventRec) : State :=
  let e := s.evr
  let valid := e.wall.isSome
  let wallMs := match e.wall with
    | some (v, t0) => v + (r.opTime - t0)
    | none => 0
  let back := match e.lastWall with
    | some w => valid && decide (wallMs < w)
    | none => false
  let sev := if r.sev < 3 then r.sev else Config.freeSeverity e.nextSeq % 3
  let r := { r with seq := e.nextSeq, sev, wallMs, flags := r.flags + b2n valid + 2 * b2n back }
  let s := { s with evr := { e with
      nor := if e.norFail then e.nor else ringPush e.nor r,
      page := e.page ++ [r],
      pageSince := if e.page.isEmpty then s.now else e.pageSince,
      nextSeq := e.nextSeq + 1,
      lastWall := if valid then some wallMs else e.lastWall } }
  let s := if 64 ≤ s.evr.page.length then flushMirror s else s
  deliver s r.inst (recordBytes r)

/-- The records held, oldest first: those of NOR, or of the mirror once NOR has failed (R725). -/
def heldRecords (s : State) : List EventRec := if s.evr.norFail then s.evr.mirror ++ s.evr.page else s.evr.nor

/-- A record is written, or during a clear waits (at most 4,096; R727). -/
def putRecord (s : State) (r : EventRec) : State :=
  match s.evr.clear with
  | some _ =>
    if s.evr.waiting.length < 4096 then { s with evr := { s.evr with waiting := s.evr.waiting ++ [r] } }
    else bump s Reg.EVR_COUNTS 31 16 1
  | none => writeRecord s r

/-- The end of a second: one SUPPRESSED record for each EVENT and UNIT of which more than 64 records came (R724). -/
def endSecond (s : State) : State :=
  let tooMany := s.evr.second.filter (fun p => decide (64 < p.2))
  let s := { s with evr := { s.evr with second := [] } }
  tooMany.foldl (fun s p =>
    let s := bump s Reg.EVR_COUNTS 15 8 1
    putRecord s {
      seq := 0, opTime := opTime s, cycles := powerCycles s, event := 0x0005, sev := sevFree, unit := p.1 % 256,
      detail := natLe 2 (p.1 / 256) ++ natLe 4 (p.2 - 64) }) s

/-- A block hands an event to the recorder: the record waits during a clear (at most 4,096, R727), is left out when it
is the 65th of its EVENT and UNIT in a second (R724), and is written otherwise. -/
def record (s : State) (event sev status unit inst : Nat) (detail : Bytes) : State :=
  let r : EventRec := {
    seq := 0, opTime := opTime s, cycles := powerCycles s, event := event, sev := sev,
    status := status, unit := unit, inst := inst, detail := detail }
  match s.evr.clear with
  | some _ => putRecord s r
  | none =>
    let k := event * 256 + unit
    let fresh := s.now - s.evr.secondSince ≥ 1000000
    let s := if fresh then endSecond s else s
    let n := Tab.getD s.evr.second k 0
    let s := { s with evr := { s.evr with
      second := Tab.set s.evr.second k (n + 1),
      secondSince := if fresh then s.now else s.evr.secondSince } }
    if n < 64 then writeRecord s r else s

/-- COMMIT_REFUSED (R16, R721): SEVERITY 0, STATUS FORMAT, the group's COMMIT register at `c`, the owning block's unit. -/
def recordRefused (s : State) (c unit : Nat) : State :=
  let page := 0x10000000 ≤ c
  let inst := if page then (c - 0x10000000) / 0x10000 else 0
  let off := if page then (c - 0x10000000) % 0x10000 else c
  record s 0x0022 0 0x10 unit inst (natLe 4 off ++ [BitVec.ofNat 8 (b2n page)])

/-- The pending set of the group at `c` is refused (R16). -/
def refuseSet (s : State) (c unit : Nat) : State :=
  recordRefused (setGroup s c { groupAt s c with pending := none, rejected := true, due := false }) c unit

/-- The pending set of the group at `c` takes effect, whole (R12). -/
def takeSet (s : State) (c : Nat) : State :=
  match (groupAt s c).pending with
  | none => s
  | some set =>
    let others := Tab.keep s.regs.eff (fun a _ => commitOf a != c)
    let eff := set.foldl (fun t p => Tab.set t p.1 p.2) others
    let s := setGroup s c { groupAt s c with pending := none, due := false }
    { s with regs := { s.regs with eff := eff } }

/-! ## Units and role generations (R22–R31) -/

/-- KIND of unit `n` (R22, R23, R28). -/
def kindOf (n : Nat) : Nat :=
  if n < 32 then 0x01 else if n < 64 then 0x02 else if n < 72 then 0x03 else if n < 88 then 0x04
  else if n < 120 then 0x05 else if n < 136 then 0x06 else if n < 144 then 0x07 else if n < 152 then 0x08
  else if n < 168 then 0x09 else if n < 172 then 0x0A else if n < 174 then 0x0B else if n < 178 then 0x0C
  else if n < 180 then 0x0D else if n < 186 then 0x0E else if n < 188 then 0x0F
  else if n < 197 then 0x10 + (n - 188) else 0x00

/-- A unit before anything has changed it: reserved numbers are ABSENT, every other unit is IDLE (R26). -/
def initialUnit (n : Nat) : UnitRec := if n < 197 then {} else { state := .absent }

/-- Unit `n`. -/
def unitOf (s : State) (n : Nat) : UnitRec := Tab.getD s.dev.units n (initialUnit n)

/-- Replace the record of unit `n`. -/
def setUnit (s : State) (n : Nat) (r : UnitRec) : State :=
  { s with dev := { s.dev with units := Tab.set s.dev.units n r } }

/-- The code of a STATE (R26). -/
def UState.code : UState → Nat
  | .absent => 0 | .idle => 1 | .active => 2 | .test => 3 | .offline => 4 | .bound => 5

/-- Does the change raise GEN (R30)? -/
def UnitChange.isEvent (r : UnitRec) (c : UnitChange) : Bool :=
  c.loaded ||
  (match c.role with | some x => decide (x ≠ r.role) | none => false) ||
  (match c.owner with | some x => decide (x ≠ r.owner) | none => false) ||
  (match c.state with
    | some x => decide (x ≠ r.state) && (decide (x = .active) || decide (r.state = .active))
    | none => false)

/-- The increments of the last 1 ms (R31). -/
def recentIncs (s : State) (r : UnitRec) : List Nat := r.incs.filter (fun t => s.now < t + 1000)

/-- An event at the unit may happen now: no earlier one is held, and it would not make a third increment within 1 ms (R31). -/
def windowOpen (s : State) (n : Nat) : Bool :=
  (unitOf s n).held.isEmpty && decide ((recentIncs s (unitOf s n)).length < 2)

/-- Put a change into effect, with GEN's increment where it is an event of R30; GEN is recorded in the flash system
area at multiples of 256 (R31); a change of STATE to or from TEST, OFFLINE or BOUND is recorded (R721). -/
def doChange (s : State) (n : Nat) (c : UnitChange) : State :=
  let r := unitOf s n
  let ev := c.isEvent r
  let gen := if ev then (r.gen + 1) % 65536 else r.gen
  let st := c.state.getD r.state
  let notable : UState → Bool := fun x => x = .test || x = .offline || x = .bound
  let s' := setUnit s n { r with
    role := c.role.getD r.role, owner := c.owner.getD r.owner, state := st, gen := gen,
    recordedGen := if ev && gen % 256 == 0 then gen else r.recordedGen,
    serves := if st = .bound then r.serves else 0xFF,
    incs := if ev then s.now :: recentIncs s r else r.incs }
  if decide (st ≠ r.state) && (notable st || notable r.state) then
    record s' 0x0011 sevFree 0 n r.owner (natLe 1 r.state.code ++ natLe 1 st.code)
  else s'

/-- A change of R30 arrives at the unit: it takes effect, or is held when it would make a third increment within 1 ms
or an earlier change is still held (R31). -/
def changeUnit (s : State) (n : Nat) (c : UnitChange) : State :=
  let r := unitOf s n
  if r.held.isEmpty && (!c.isEvent r || decide ((recentIncs s r).length < 2)) then doChange s n c
  else setUnit s n { r with held := r.held ++ [c] }

/-- Put the STATE of unit `n`, as an event of R30 where it enters or leaves ACTIVE. -/
def unitState (s : State) (n : Nat) (st : UState) : State := changeUnit s n { state := some st }

/-- What the start does to a unit: no event of R30 (R31). -/
def startUnit (s : State) (n : Nat) (f : UnitRec → UnitRec) : State := setUnit s n (f (unitOf s n))

/-- Units whose hardware is in service under their number: not ABSENT, OFFLINE, TEST or BOUND. -/
def inService (s : State) (n : Nat) : Bool :=
  match (unitOf s n).state with
  | .idle | .active => true
  | _ => false

/-! ## The siding (R176–R178) -/

/-- RETURN payload bytes held. -/
def sidingBytes (l : List Siding) : Nat := (l.map (fun e => e.payload.length)).sum

/-- Remove the oldest entry that satisfies `p`. -/
def dropFirst {α : Type} (p : α → Bool) : List α → List α
  | [] => []
  | x :: t => if p x then t else x :: dropFirst p t

/-- Remove oldest entries until the list and `e` fit the device-wide limits; the count removed. -/
def sidingFit (e : Siding) : Nat → List Siding → List Siding × Nat
  | 0, l => (l, 0)
  | _ + 1, [] => ([], 0)
  | f + 1, x :: t =>
    if (x :: t).length < 4096 ∧ sidingBytes (x :: t) + e.payload.length ≤ 2097152 then (x :: t, 0)
    else let r := sidingFit e f t; (r.1, r.2 + 1)

/-- SBX_SIDING_STATUS as the page of instance `i` has it (R190, R601). -/
def pageSiding (i : Nat) : Nat := 0x10002040 + 0x10000 * i

/-- An entry is parked; it replaces its instance's oldest beyond 64, and the oldest on the device beyond the
device-wide limits; replacements are counted in DROPPED, of the device and of the entry's instance (R178, R190). -/
def park (s : State) (e : Siding) : State :=
  let l := s.sbx.siding
  let tooMany := decide (64 ≤ (l.filter (fun x => x.inst == e.inst)).length)
  let first := if tooMany then (l.find? (fun x => x.inst == e.inst)).toList else []
  let l := if tooMany then dropFirst (fun x => x.inst == e.inst) l else l
  let r := sidingFit e (l.length + 1) l
  let s := { s with sbx := { s.sbx with siding := r.1 ++ [e] } }
  (first ++ l.take r.2).foldl (fun s x =>
    let s := if x.inst = 0 then s else bump s (pageSiding x.inst) 31 16 1
    bump s Reg.SBX_SIDING_STATUS 31 16 1) s

/-! ## The trunk (R38–R40) -/

/-- The route order of a pair of units (R38, R67): 0 XY, 1 YX. -/
def routeOf (s : State) (src dest : Nat) : Nat := b2n (s.cfg.routesYX.contains (src * 256 + dest))

/-- Put a packet on the trunk. -/
def emit (s : State) (p : Packet) : State :=
  { s with dev := { s.dev with trunk := s.dev.trunk ++ [p] } }

/-- Take the oldest packet that satisfies `p` off the trunk. -/
def takePacket (s : State) (p : Packet → Bool) : Option (Packet × State) :=
  (s.dev.trunk.find? p).map (fun x => (x, { s with dev := { s.dev with trunk := dropFirst p s.dev.trunk } }))

end Sys2Proof.Machine
end

