-- ==== Sys2Proof/Machine/Tickets.lean ====
section
/-! DEFINITION. Tickets on their way down a line (04_lines_and_signal_box.md): reading a ticket's bytes, the store, the
packets and tokens that stations send, statuses and completion. -/

namespace Sys2Proof.Machine

/-! ## The ticket's bytes (R145, R146) -/

/-- A descriptor of 16 bytes. -/
def parseDesc (bs : Bytes) : Desc := { kind := leAt bs 0 1, mid := leAt bs 1 7, addr := leAt bs 8 8 }

/-- A ticket of 64 bytes. -/
def parseTicket (bs : Bytes) : Ticket where
  inst := fld (leAt bs 0 2) 8 0
  line := fld (leAt bs 2 2) 11 0
  len := leAt bs 4 4
  keySlot := leAt bs 8 2
  eclass := leAt bs 10 1
  ordered := bitOf (leAt bs 11 1) 0
  deadline := leAt bs 12 4
  cookie := leAt bs 16 4
  source := parseDesc (slice bs 24 16)
  dest := parseDesc (slice bs 40 16)
  param := leAt bs 56 8

/-- The reserved fields of a ticket are 0, and its values are not reserved ones (R145, R148 step 1). -/
def ticketReservedOk (bs : Bytes) : Bool :=
  let ks := leAt bs 8 2
  decide (leAt bs 0 2 < 512) && decide (leAt bs 2 2 < 4096) && (decide (ks < 4096) || ks == 0xFFFF) &&
  decide (leAt bs 10 1 < 16) && decide (leAt bs 11 1 < 2) && isZero bs 20 4

/-- A descriptor's kind is defined and its reserved bytes are 0 (R146). -/
def descOk (d : Desc) : Bool :=
  match d.kind with
  | 0 => d.mid == 0 && d.addr == 0
  | 1 | 2 => decide (d.mid < 2) && d.addr % 4 == 0
  | 3 => d.mid % 2 ^ 24 == 0
  | 4 => d.mid == 0 && d.addr % 64 == 0
  | 5 => decide (72 ≤ d.mid) && decide (d.mid ≤ 119) && decide (d.addr < 524288)
  | 6 => d.mid % 256 == 0 && decide (d.mid < 2 ^ 48)
  | _ => false

/-- NAMESPACE of a LOGICAL descriptor: bytes 4–7. -/
def Desc.ns (d : Desc) : Nat := fld d.mid 55 24

/-! ## Lines and the store -/

/-- Line `n` of the structure in force; an entry not listed is undefined (R149). -/
def lineOf (s : State) (n : Nat) : Line := Tab.getD s.cfg.lines n {}

/-- The entry of ticket `tag`. -/
def entryOf (s : State) (tag : Nat) : Option Entry := Tab.get? s.sbx.store tag

/-- Replace the entry of ticket `tag`. -/
def setEntry (s : State) (tag : Nat) (e : Entry) : State :=
  { s with sbx := { s.sbx with store := Tab.set s.sbx.store tag e } }

/-- Change the entry of ticket `tag`, if it is in the store. -/
def modEntry (s : State) (tag : Nat) (f : Entry → Entry) : State :=
  match entryOf s tag with
  | some e => setEntry s tag (f e)
  | none => s

/-- The KIND of the unit that a step names (MAPPED_CHANNEL: a flash channel; CHANNEL_FEN: a channel fen). -/
def stepKind (st : LStep) : Nat :=
  match st.sel with
  | 0 => kindOf st.target
  | 1 => st.target
  | 2 => 0x01
  | _ => 0x02

/-- The steps of a ticket's line. -/
def stepsOf (s : State) (e : Entry) : List LStep := (lineOf s e.t.line).steps

/-- Is `step` the last step of the ticket's line? -/
def isLast (s : State) (e : Entry) (step : Nat) : Bool := decide ((stepsOf s e).length ≤ step + 1)

/-- Bytes that one portion covers (R153). -/
def portionBytes : Nat := 262144

/-- The number of portions of a ticket (R153). -/
def portionsOf (t : Ticket) : Nat := ceilDiv t.len portionBytes

/-- The bytes of portion `k`. -/
def portionLen (t : Ticket) (k : Nat) : Nat := min portionBytes (t.len - k * portionBytes)

/-- The unit to which an alias delivers the tickets of fen `u` (R129). -/
def aliasTarget (s : State) (u : Nat) : Nat :=
  if 32 ≤ u ∧ u < 72 then
    let a := Reg.FAB_FEN_ALIAS + 0x40 * (u - 32)
    if eff s a 31 31 = 1 then eff s a 7 0 else u
  else u

/-- The key of the `n`-th unit at a mapped step. -/
def placeKey (step n : Nat) : Nat := step * 131072 + n

/-- The unit of step `step` for the ticket's `n`-th 4 KiB unit (R150, R154). -/
def unitAt (s : State) (e : Entry) (step n : Nat) : Option Nat :=
  match (stepsOf s e)[step]? with
  | none => none
  | some st =>
    if st.sel = 2 ∨ st.sel = 3 then Tab.get? e.places (placeKey step n) else Tab.get? e.units step

/-- Every unit that step `step` of the ticket reaches. -/
def unitsAt (s : State) (e : Entry) (step : Nat) : List Nat :=
  match (stepsOf s e)[step]? with
  | none => []
  | some st =>
    if st.sel = 2 ∨ st.sel = 3 then (Tab.vals (Tab.keep e.places (fun k _ => k / 131072 == step))).eraseDups
    else (Tab.get? e.units step).toList

/-- The units of step `step` that portion `k` of the ticket reaches. -/
def portionUnits (s : State) (e : Entry) (k step : Nat) : List Nat :=
  match (stepsOf s e)[step]? with
  | none => []
  | some st =>
    if st.sel = 2 ∨ st.sel = 3 then
      (Tab.vals (Tab.keep e.places (fun x _ => x / 131072 == step && x % 131072 / 64 == k))).eraseDups
    else (Tab.get? e.units step).toList

/-! ## Contexts and input queues of the stations (R156, R158) -/

/-- The context of ticket `tag` at step `step`. -/
def ctxOf (s : State) (tag step : Nat) : Ctx := Tab.getD s.stn.ctx (tag * 16 + step) {}

/-- Replace the context. -/
def setCtx (s : State) (tag step : Nat) (c : Ctx) : State :=
  { s with stn := { s.stn with ctx := Tab.put {} s.stn.ctx (tag * 16 + step) c } }

/-- The input queue of unit `u`. -/
def inboxOf (s : State) (u : Nat) : List Work := Tab.getD s.stn.inbox u []

/-- Replace the input queue of unit `u`. -/
def setInbox (s : State) (u : Nat) (l : List Work) : State :=
  { s with stn := { s.stn with inbox := Tab.put [] s.stn.inbox u l } }

/-- Append to the input queue of unit `u`. -/
def enqueue (s : State) (u : Nat) (w : Work) : State := setInbox s u (inboxOf s u ++ [w])

/-- Take the oldest thing from the input queue of unit `u`. -/
def dequeue (s : State) (u : Nat) : Option (Work × State) :=
  match inboxOf s u with
  | [] => none
  | w :: t => some (w, setInbox s u t)

/-- The ticket of a queued thing. -/
def Work.tag : Work → Nat
  | .start t _ _ _ => t
  | .pkt p => p.tag

/-- Queue entries of a station kind (R156). -/
def queueCap (n : Nat) : Nat :=
  match kindOf n with
  | 0x01 => 32 | 0x02 => 16 | 0x03 => 32 | 0x04 => 16 | 0x05 => 16 | 0x06 => 16 | 0x07 => 16 | 0x08 => 16
  | 0x0D => 16 | 0x09 => 64 | 0x0A => 64 | 0x0B => 128 | 0x0C => 64 | 0x0F => 128 | 0x11 => 128 | 0x13 => 33
  | _ => 0

/-- The core that serves unit `u`: the spare bound to it, or its own (R25). -/
def coreIndex (s : State) (u : Nat) : Nat :=
  if (unitOf s 182).state = .bound ∧ (unitOf s 182).serves = u then 48
  else if (unitOf s 183).state = .bound ∧ (unitOf s 183).serves = u then 49
  else u - 72

/-- The portion whose bytes a queued thing carries: its ticket and number; an end token carries none. -/
def Work.portion : Work → Option (Nat × Nat)
  | .start t _ first _ => some (t, first / portionBytes)
  | .pkt p => if p.endTok then none else some (p.tag, p.off / portionBytes)

/-- The portion that a ticket inside a fen or a core is giving bytes of. -/
def insidePortion (tag : Nat) (ranges : List (Nat × Nat × Nat)) : Nat × Nat :=
  (tag, ((ranges.getLast?.map (·.1)).getD 0) / portionBytes)

/-- Bytes that a context holds back: an unfinished piece, and packets held. -/
def heldBytes (c : Ctx) : Nat := c.buf.length + (c.held.map (·.data.length)).sum

/-- The portions of ticket `tag` of which a context holds bytes, or of which more bytes are to come. -/
def ctxPortions (tag : Nat) (c : Ctx) : List (Nat × Nat) :=
  let first := (c.inBytes - heldBytes c) / portionBytes
  if c.inBytes % portionBytes = 0 ∧ heldBytes c = 0 then []
  else (List.range ((c.inBytes - 1) / portionBytes + 1 - first)).map (fun i => (tag, first + i))

/-- The portions whose bytes unit `u` has taken into a context, a fen, a core or a die and has not yet passed on. At a step that
has several units each unit counts only what stands at it. -/
def portionsInside (s : State) (u : Nat) : List (Nat × Nat) :=
  let ctxs := s.stn.ctx.flatMap (fun p =>
    match entryOf s (p.1 / 16) with
    | none => []
    | some e =>
      match (stepsOf s e)[p.1 % 16]? with
      | none => []
      | some st =>
        if st.sel = 2 ∨ st.sel = 3 then
          (p.2.held.filter (fun q => q.dest == u && !q.endTok)).map (fun q => (q.tag, q.off / portionBytes))
        else if Tab.get? e.units (p.1 % 16) = some u then ctxPortions (p.1 / 16) p.2 else [])
  let fen := if 32 ≤ u ∧ u < 72 then (Tab.getD s.fab.fens (u - 32) {}).inside.map (fun t => insidePortion t.tag t.ranges) else []
  let core := if 72 ≤ u ∧ u < 120 then
      (Tab.getD s.cores (coreIndex s u) {}).inside.map (fun t => insidePortion t.tag t.ranges) else []
  let reads := if u < 32 then (Tab.getD s.fch.chans u {}).reads.map (fun r => (r.tag, r.n / 64)) else []
  ctxs ++ fen ++ core ++ reads

/-- The portions that hold an entry of unit `u`'s queue (R156): each from its admission to the first station, or its first packet at
a later one, until its last byte leaves. -/
def portionsAt (s : State) (u : Nat) : List (Nat × Nat) :=
  ((inboxOf s u).filterMap Work.portion ++ portionsInside s u).eraseDups

/-- The hardware that serves ticket `tag` at engine `u`: the spare's while it is bound there, but for tickets that had started in the
unit's own before (R25, R735). -/
def engineHw (s : State) (spare u tag : Nat) : Nat :=
  if (unitOf s spare).state = .bound ∧ (unitOf s spare).serves = u ∧
      !s.tst.inTest.any (fun x => x.unit == u && x.draining && x.tags.contains tag) then spare
  else u

/-- The contexts that the hardware `hw` of engine `u` keeps (R361, R397). -/
def hwContexts (s : State) (spare u hw : Nat) : Nat :=
  (s.stn.ctx.filter (fun p => match entryOf s (p.1 / 16) with
    | some e => (unitsAt s e (p.1 % 16)).contains u && engineHw s spare u (p.1 / 16) == hw
    | none => false)).length

/-- Contexts that unit `u` keeps, one for each ticket (R361, R397, R430). -/
def contextsAt (s : State) (u : Nat) : Nat :=
  (s.stn.ctx.filter (fun p => match entryOf s (p.1 / 16) with
    | some e => (unitsAt s e (p.1 % 16)).contains u
    | none => false)).length

/-- Load tickets that have been admitted and have not yet become a request of the loader (R156). -/
def loadsComing (s : State) : Nat :=
  (Tab.keep s.sbx.store (fun tag e => decide (0 < e.admitted) && !e.revoking && !e.fenced && !e.acked &&
    (Tab.vals e.units).contains 191 && !(s.cfg.queue ++ s.cfg.cur.toList).any (fun r => r.tag == some tag))).length

/-- Queue entries in use at unit `u` (R156): one for each portion; the loader counts requests. -/
def queueUse (s : State) (u : Nat) : Nat :=
  if kindOf u = 0x13 then s.cfg.queue.length + b2n s.cfg.cur.isSome + loadsComing s
  else (portionsAt s u).length

/-- Free queue entries of unit `u` (R197). -/
def queueFree (s : State) (u : Nat) : Nat := queueCap u - queueUse s u

/-! ## Packets and tokens down the line (R158, R172, R173) -/

/-- Send a packet of ticket `tag` from unit `src`, which serves `step`, to the next step's unit for the ticket's `n`-th
unit. A fenced or revoked ticket sends no byte (R171, R173). -/
def sendData (s : State) (tag step src n off : Nat) (data : Bytes) (station : Nat) (prov : Bool) : State :=
  match entryOf s tag with
  | none => s
  | some e =>
    if e.fenced || e.revoking then s
    else match unitAt s e (step + 1) n with
      | none => s
      | some d => emit s {
          dest := d, destGen := Tab.getD e.captured d 0, src := src, inst := e.t.inst, route := routeOf s src d,
          prov := prov, flits := ceilDiv data.length 32, tag := tag, off := off, station := station, data := data,
          step := step + 1 }

/-- A header-only token to every unit of the next step. -/
def sendToken (s : State) (e : Entry) (tag step src total : Nat) (prov revoke : Bool) : State :=
  (unitsAt s e (step + 1)).foldl (fun s d => emit s {
    dest := d, destGen := Tab.getD e.captured d 0, src := src, inst := e.t.inst, route := routeOf s src d,
    prov := prov, revoke := revoke, tag := tag, off := total, endTok := !revoke, step := step + 1 }) s

/-- Report a status for the ticket: the first failure and the first warning stand (R181); a reserved code counts as
FORMAT (R180). Class W: LONG, TRUNCATED, NO_FIT. -/
def report (s : State) (tag unit status : Nat) : State :=
  let st := if status < 0x12 then status else 0x10
  if st = 0 then s
  else modEntry s tag (fun e =>
    if st = 2 ∨ st = 3 ∨ st = 4 then (if e.warn.isNone then { e with warn := some (st, unit) } else e)
    else if e.fail.isNone then { e with fail := some (st, unit) } else e)

/-- The final status of a ticket and the unit that set it (R179, R181). -/
def finalStatus (e : Entry) : Nat × Nat :=
  if e.instReset then (0x0C, 0xFF)
  else if e.keyRevoked then (0x0A, 188)
  else match e.fail, e.warn with
    | some f, _ => f
    | none, some w => w
    | none, none => (0, 0xFF)

end Sys2Proof.Machine
end

