-- ==== Sys2Proof/Machine/Goley.lean ====
section
/-! DEFINITION. Goley cores (13_goley_programming_model.md): registers, the memory view, windows, circular buffers, and
taking a trap or an interrupt as one shared operation, with the return from one beside it. -/

namespace Sys2Proof.Machine

/-! ## Cores, units and registers -/

/-- Core `c`. -/
def coreOf (s : State) (c : Nat) : Core := Tab.getD s.cores c {}

/-- Replace core `c`. -/
def setCore (s : State) (c : Nat) (k : Core) : State := { s with cores := Tab.set s.cores c k }

/-- The unit number that core `c` serves: its own, or on a bound spare the served unit (R25, R471, R493). -/
def coreUnit (s : State) (c : Nat) : Nat := if c < 48 then 72 + c else (unitOf s (182 + (c - 48))).serves

/-- The register of an array of R494 at which core `c` stands: software addressing follows the served unit (R25, R493). -/
def coreRegs (s : State) (a c : Nat) : Nat := a + 0x40 * (if coreUnit s c < 120 then coreUnit s c - 72 else c)

/-- The core that answers at element `c` of the register arrays of R494: the one that serves unit 72 + c, or the spare. -/
def regCore (s : State) (c : Nat) : Nat := if c < 48 then coreIndex s (72 + c) else c

/-- Is the core a tenant core (R468)? -/
def isTenantCore (s : State) (c : Nat) : Bool := decide (88 ≤ coreUnit s c) && decide (coreUnit s c < 120)

/-- General register `n`: g0 reads 0 (R470). -/
def Core.g (k : Core) (n : Nat) : DWord := if n = 0 then 0 else Tab.getD k.gpr n 0

/-- Write general register `n`: a write to g0 is discarded (R470). -/
def Core.setG (k : Core) (n : Nat) (v : DWord) : Core :=
  if n = 0 then k else { k with gpr := Tab.put 0 k.gpr n v }

/-- A stored control register (R471). -/
def Core.cr (k : Core) (n : Nat) : DWord := Tab.getD k.ctrl n 0

/-- Store a control register. -/
def Core.setCr (k : Core) (n : Nat) (v : DWord) : Core := { k with ctrl := Tab.put 0 k.ctrl n v }

/-- Entries of the completion ring: 16 bytes each in PAGES pages (R471, R486). -/
def Core.cqEntries (k : Core) : Nat := fld (k.cr 0x28).toNat 14 8 * 256

/-- IPEND (R471, R480): INQ, CQ, TIMER, EMIT. -/
def Core.ipend (k : Core) : Nat :=
  b2n (!k.inq.isEmpty) + 2 * b2n (decide (k.cr 0x29 ≠ k.cr 0x2A)) + 4 * b2n k.timerUp +
    8 * b2n (decide (k.emitq.length < 8))

/-- IPEND AND IMASK is not 0 (R480). -/
def Core.irq (k : Core) : Bool := decide (k.ipend &&& ((k.cr 0x0E).toNat % 16) ≠ 0)

/-! ## Windows and regions (R472–R475) -/

/-- The local memory of an instance in bytes (R592, R599). -/
def lmemSize (s : State) (i : Nat) : Nat := (Tab.getD s.ten.insts i {}).lmem64 * 67108864

/-- Window `w` of the core as GLY_CORE_WIN gives it: (BASE word, LIMIT word) (R498). -/
def coreWin (s : State) (c w : Nat) : Nat × Nat :=
  let a := coreRegs s Reg.GLY_CORE_WIN_BASE c + 8 * w
  (effWord s a, effWord s (a + 4))

/-- Does some enabled window grant the byte at `a`? `right`: bit 30 X, 29 W, 28 R (R474). -/
def winGrants (s : State) (c right a : Nat) : Bool :=
  (List.range 4).any (fun w =>
    let p := coreWin s c w
    bitOf p.1 31 && bitOf p.1 right && decide (fld p.1 27 0 ≤ a / 4096) && decide (a / 4096 ≤ fld p.2 27 0))

/-- The region of an address (R472): 0 none, 1 LOCAL, 2 LMEM, 3 REGS, 4 DRAM. -/
def regionOf (s : State) (c a : Nat) : Nat :=
  let tenant := isTenantCore s c
  if a < 0x80000 then 1
  else if tenant && decide (0x1000000000 ≤ a) &&
      decide (a < 0x1000000000 + lmemSize s (unitOf s (coreUnit s c)).owner) then 2
  else if !tenant && decide (0x3000000000 ≤ a) && decide (a < 0x3010000000) then 3
  else if !tenant && decide (0x4000000000 ≤ a) && decide (a < 0x8000000000) &&
      decide (a - 0x4000000000 < (live s Reg.DRC_CH_USABLE 31 0 + live s (Reg.DRC_CH_USABLE + 0x40) 31 0 +
        live s (Reg.DRC_CH_USABLE + 0x80) 31 0 + live s (Reg.DRC_CH_USABLE + 0xC0) 31 0) * 1048576) then 4
  else 0

/-- The byte at `a` may be accessed: it lies in a region and, on a tenant core, in a window that grants it. -/
def byteOk (s : State) (c right a : Nat) : Bool :=
  decide (regionOf s c a ≠ 0) && (!isTenantCore s c || winGrants s c right a)

/-- The first of `n` bytes from `a` that may not be accessed. -/
def firstRefused (s : State) (c right a : Nat) : Nat → Option Nat
  | 0 => none
  | n + 1 => if byteOk s c right a then firstRefused s c right (a + 1) n else some a

/-- A trap: its CODE and EADDR (R477, R478). -/
structure Trap where
  code : Nat
  eaddr : DWord := 0
  /-- The bytes that gave no data, for MEDIA: address and number (R45). -/
  media : Option (Nat × Nat) := none
deriving DecidableEq, Repr

/-- Region, then windows, of an access of `n` bytes (R508 step 8): BOUNDS with EADDR the first refused byte. -/
def checkAccess (s : State) (c right a n : Nat) : Option Trap :=
  (firstRefused s c right a n).map (fun x => { code := 0x04, eaddr := BitVec.ofNat 64 x })

/-- Alignment of an access of `n` bytes (R473). -/
def checkAlign (a n : Nat) : Option Trap :=
  if a % n = 0 then none else some { code := 0x05, eaddr := BitVec.ofNat 64 a }

/-- Some code word of a list, by its symbols in error, gives no data: two symbols, or three or more that are detected (R42; the
outcome is free, log 9). -/
def wordsBad (s : State) (l : List Nat) : Bool :=
  (l.foldl (fun (r : Bool × Nat) n =>
    if n < 3 then (r.1 || n == 2, r.2) else (r.1 || Config.freeNat (s.freeCount + r.2) % 2 == 0, r.2 + 1)) (false, 0)).1

/-- A word of core `c`'s memory under the bytes gives no data (R45, R493). -/
def poisoned (s : State) (c a n : Nat) : Bool :=
  decide (a < 0x80000) && wordsBad s ((wordSpan a n).map (fun w => Tab.getD (coreOf s c).marks w 0))

/-- A page of the bytes of instance `i`'s local memory is lost, or a word gives no data (R45, R548). -/
def lmemBad (s : State) (i a n : Nat) : Bool :=
  (pageSpan a n).any (pageGone s i) || wordsBad s ((wordSpan a n).map (fun w => Tab.getD s.drc.marks (lword i w) 0))

/-- The local memory that lies at byte `off` of the usable device DRAM: the instance and the offset (R472, R543). `none`: no local
memory lies there. The places are a free value (log 226). -/
def dramHome (s : State) (off : Nat) : Option (Nat × Nat) :=
  let h := Config.dramPage (off / 4096)
  if h.2 * 4096 + 4096 ≤ lmemSize s h.1 then some (h.1, h.2 * 4096 + off % 4096) else none

/-- The local memory that an access of core `c` at `a` reaches through the trunk, in LMEM or as the device DRAM that holds it. -/
def lmemAt (s : State) (c a : Nat) : Option (Nat × Nat) :=
  match regionOf s c a with
  | 2 => some ((unitOf s (coreUnit s c)).owner, a - 0x1000000000)
  | 4 => dramHome s (a - 0x4000000000)
  | _ => none

/-- An access beyond LOCAL goes through the trunk: its answer carries a poisoned flit, or the local memory gives no data. -/
def remoteBad (s : State) (c a n : Nat) : Bool :=
  decide ((coreOf s c).flit = .poisoned) || (lmemAt s c a).any (fun h => lmemBad s h.1 h.2 n)

/-- The bytes that core `c` reads at `a` give no data: MEDIA (R477). -/
def mediaTrap (s : State) (c a n : Nat) : Option Trap :=
  if (if regionOf s c a = 1 then poisoned s c a n else remoteBad s c a n) then
    some { code := 0x07, eaddr := BitVec.ofNat 64 a, media := some (a, n) }
  else none

/-- The bytes of an instruction at `a` are fetched: windows with X, then MEDIA (R508 step 1). -/
def fetchTrap (s : State) (c a n : Nat) : Option Trap :=
  match checkAccess s c 30 a n with
  | some t => some t
  | none => mediaTrap s c a n

/-! ## Circular buffers and effective addresses (R476, R521) -/

/-- Reverse the low `k` bits of `n`. -/
def revBits : Nat → Nat → Nat
  | 0, _ => 0
  | k + 1, n => (n % 2) * 2 ^ k + revBits k (n / 2)

/-- The base-2 logarithm of `n`, by at most `f` halvings. -/
def log2Of : Nat → Nat → Nat
  | 0, _ => 0
  | f + 1, n => if n < 2 then 0 else 1 + log2Of f (n / 2)

/-- Descriptor `n`: CBn_BASE and CBn_LEN. -/
def Core.cb (k : Core) (n : Nat) : DWord × DWord := (k.cr (0x10 + 2 * n), k.cr (0x11 + 2 * n))

/-- The MOD descriptor meets R476; REV needs a power of two. -/
def cbOk (k : Core) (p : GPre) : Bool :=
  match p.mod with
  | none => true
  | some n =>
    let base := (k.cb n.val).1.toNat
    let len := (k.cb n.val).2.toNat
    base % 8 == 0 && len % 8 == 0 && decide (8 ≤ len) && decide (len ≤ 2 ^ 31) &&
      (!p.rev || 2 ^ log2Of 64 len == len)

/-- ea of `b` plus a displacement (R521). -/
def effAddr (k : Core) (p : GPre) (b disp : DWord) : DWord :=
  match p.mod with
  | none => b + disp
  | some n =>
    let base := (k.cb n.val).1
    let len := (k.cb n.val).2.toNat
    if !p.rev then base + BitVec.ofNat 64 ((b + disp - base).toInt.emod len).toNat
    else
      let kk := log2Of 64 len
      let o := ((b - base).toInt.emod len).toNat
      let t := (revBits kk o + revBits kk ((disp.toInt).emod len).toNat) % len
      base + BitVec.ofNat 64 (revBits kk t)

/-! ## Tickets inside a core -/

/-- Tickets inside the core, with its station step. -/
def coreTicket (k : Core) (tag : Nat) : Option CIn := k.inside.find? (·.tag == tag)

/-- Change the ticket `tag` inside the core. -/
def modCoreTicket (k : Core) (tag : Nat) (f : CIn → CIn) : Core :=
  { k with inside := k.inside.map (fun t => if t.tag == tag then f t else t) }

/-- The local-memory address of a ring slot: IN_RING's BASE_PAGE and the slot (R471, R482). -/
def Core.slotAddr (k : Core) (slot : Nat) : Nat := (fld (k.cr 0x20).toNat 6 0 + slot) * 4096

/-- Zero and free the ring slots of ticket `tag` that the program still holds (R483, R491). -/
def dropSlots (k : Core) (tag : Nat) : Core :=
  let mine := k.slots.filter (fun x => x.2 == tag)
  { k with
    mem := mine.foldl (fun m x => memWrite m (k.slotAddr x.1) (List.replicate 4096 0#8)) k.mem,
    slots := k.slots.filter (fun x => x.2 != tag) }

/-! ## Traps, interrupts and the return from one (R478–R480, R510, R512) -/

/-- The core enters FAULTED (R479, R490); LAST_TRAP records the code. What becomes of its tickets is
`endCoreTickets`. -/
def faultCore (s : State) (c code : Nat) : State :=
  let s := setLive s (coreRegs s Reg.GLY_CORE_STATUS c) 23 16 code
  setCore s c { coreOf s c with state := .faulted, rep := none, delay := none }

/-- The status with which a faulted core's tickets complete (R490). -/
def faultStatus (code : Nat) : Nat := if code = 0x04 ∨ code = 0x05 then 0x0E else if code = 0x07 then 0x0F else 0x10

/-- Taking a trap or an interrupt, as R478 gives it: EPC, ECAUSE, EADDR and ESTATUS are saved, and EREP where a repetition is under
way; STATUS becomes IE 0 and IN_TRAP 1, and the pc goes to TBASE + 64 × CODE. A trap raised while IN_TRAP is 1 faults the core in
place of all this, and a refused vector fetch after it (R479); the faulting trap is the one being taken (DEDUCED, log 223). TRAPS
counts every trap taken but INTERRUPT (R500). `epc`: the address saved; `rep`: iterations remaining where a repetition is under
way. -/
def takeTrap (s : State) (c : Nat) (t : Trap) (epc : DWord) (ds : Bool) (rep : Option Nat) : State :=
  let k := coreOf s c
  let vector := (k.cr 0x02).toNat + 64 * t.code
  if bitOf (k.cr 0x01).toNat 1 then faultCore s c t.code
  else
    let refused := (firstRefused s c 30 vector 1).isSome
    let s := if t.code = 0x10 then s else bump s (coreRegs s Reg.GLY_CORE_COUNTS c) 31 16 1
    let cause := t.code + 256 * b2n ds + 512 * b2n rep.isSome
    let k' := ((k.setCr 0x03 epc).setCr 0x04 (BitVec.ofNat 64 cause)).setCr 0x05 t.eaddr
    let k' := match rep with
      | some n => k'.setCr 0x06 (BitVec.ofNat 64 n)
      | none => k'
    let k' := (k'.setCr 0x07 (k.cr 0x01)).setCr 0x01 2
    let s := setCore s c { k' with pc := BitVec.ofNat 64 vector, delay := none, rep := none }
    if refused then faultCore s c t.code else s

/-- The return from a trap: STATUS is restored from ESTATUS, the pc from EPC, and with ECAUSE.REP 1 the repetition
resumes with EREP iterations (R478, R510, R530). -/
def returnFromTrap (k : Core) : Core :=
  { (k.setCr 0x01 (k.cr 0x07 &&& 3)) with
    pc := k.cr 0x03,
    rep := if bitOf (k.cr 0x04).toNat 9 then some (k.cr 0x06).toNat else none }

end Sys2Proof.Machine
end

