-- ==== Sys2Proof/Machine/HostBase.lean ====
section
/-! DEFINITION. The host side that other blocks use (16_host_interface.md, 17_tenant_instances.md): writes to host memory
with the dirty-page log, controllers, asynchronous events, completion queue entries, and the end of a command's
tickets. The layouts of NVMe's own structures are the standard's (log 41). -/

namespace Sys2Proof.Machine

/-- Change the host interface's state. -/
def setHif (s : State) (h : Hif) : State := { s with hif := h }

/-- Instance `i` (R592). -/
def instOf (s : State) (i : Nat) : Inst := Tab.getD s.ten.insts i {}

/-- Replace instance `i`. -/
def setInst (s : State) (i : Nat) (x : Inst) : State :=
  { s with ten := { s.ten with insts := Tab.set s.ten.insts i x } }

/-! ## Host memory and the dirty-page log (R609–R611) -/

/-- The model's key of a function's address space: the port and the instance (log 11). -/
def hostKey (port inst : Nat) : Nat := port * 512 + inst

/-- Mark the pages of a write at [a, a + n) of the VF's address space (R610). -/
def markPages (l : DLog) (a n : Nat) : DLog :=
  if !l.en || n == 0 then l
  else
    let first := a / 4096
    let count := (a + n - 1) / 4096 - first + 1
    (List.range count).foldl (fun l i =>
      let addr := (first + i) * 4096
      if addr < l.base ∨ l.base + l.cover * 1073741824 ≤ addr then { l with overflow := true }
      else
        let p := (addr - l.base) / 4096
        if l.marks.contains p then l else { l with marks := l.marks ++ [p], marked := l.marked + 1 }) l

/-- Write host memory without marking (the log's own writes). -/
def hostRaw (s : State) (port inst a : Nat) (bs : Bytes) : State :=
  let k := hostKey port inst
  { s with host := Tab.set s.host k (memStore (Tab.getD s.host k []) a bs) }

/-- The device writes host memory through a port for an instance's function; the pages are marked first (R610). While the
TDI is in ERROR the write is discarded (R670). -/
def hostWrite (s : State) (port inst a : Nat) (bs : Bytes) : State :=
  if Tab.getD s.tru.tdi inst .unlocked = .error then s
  else
    let s := if inst = 0 then s
      else setInst s inst { instOf s inst with log := markPages (instOf s inst).log a bs.length }
    hostRaw s port inst a bs

/-! ## Controllers -/

/-- The controller of an instance's function. -/
def ctrlOfInst (i port : Nat) : Nat := if i = 0 then port else i + 1

/-- The instance of a controller. -/
def ctrlInst (c : Nat) : Nat := if c < 2 then 0 else c - 1

/-- The port of a controller (in x16 mode port A). -/
def ctrlPort (s : State) (c : Nat) : Nat := if c < 2 then c else (instOf s (c - 1)).port

/-- Controller `c`. -/
def ctrlOf (s : State) (c : Nat) : NCtrl := Tab.getD s.hif.ctrls c {}

/-- Replace controller `c`. -/
def setCtrl (s : State) (c : Nat) (x : NCtrl) : State :=
  setHif s { s.hif with ctrls := Tab.set s.hif.ctrls c x }

/-! ## Completion queue entries (R566–R573) -/

/-- An NVMe status: SCT × 256 + SC, with 65536 when DNR is 1. -/
def nstat (sct sc : Nat) (dnr : Bool) : Nat := sct * 256 + sc + b2n dnr * 65536

/-- Success. -/
def nOk : Nat := 0

/-- The 16 bytes of a completion queue entry. -/
def cqeBytes (dw0 dw1 head sq cid : Nat) (phase : Bool) (st : Nat) : Bytes :=
  natLe 4 dw0 ++ natLe 4 dw1 ++ natLe 2 head ++ natLe 2 sq ++ natLe 2 cid ++
    natLe 2 (b2n phase + (st % 256) * 2 + (st / 256 % 8) * 512 + (st / 65536 % 2) * 32768)

/-- An Error Information entry (R567), with the device status and unit. -/
def errorEntry (count sq cid st nsid dev unit : Nat) : Bytes :=
  natLe 8 count ++ natLe 2 sq ++ natLe 2 cid ++ natLe 2 ((st % 256) * 2 + (st / 256 % 8) * 512 + (st / 65536 % 2) * 32768) ++
    natLe 2 0xFFFF ++ zeros 8 ++ natLe 4 nsid ++ natLe 1 dev ++ natLe 1 unit ++ zeros 34

/-- A command of controller `c` completes: its completion queue entry is written at the tail of the queue's completion
queue, with the phase, and its interrupt is sent; an error is logged. Nothing is posted in flush mode (R223 step 2). -/
def postCqe (s : State) (c sq cid st dw0 dw1 nsid dev unit : Nat) : State :=
  if s.sbx.flushMode then s else
  let x := ctrlOf s c
  let q := Tab.getD x.sqs sq {}
  let k := Tab.getD x.cqs q.cq {}
  let s := hostWrite s (ctrlPort s c) (ctrlInst c) (k.base + 16 * k.tail) (cqeBytes dw0 dw1 q.head sq cid k.phase st)
  let x := ctrlOf s c
  let wrap := decide (k.size ≤ k.tail + 1)
  let errs := if st % 65536 = 0 then x.errors
    else (errorEntry (x.errCount + 1) sq cid st nsid dev unit :: x.errors).take 64
  let s := { s with boot := { s.boot with ledUntil := s.now + 50000 } }
  let s := setCtrl s c { x with
    cqs := Tab.set x.cqs q.cq { k with tail := if wrap then 0 else k.tail + 1, phase := if wrap then !k.phase else k.phase },
    errors := errs,
    errCount := if st % 65536 = 0 then x.errCount else x.errCount + 1 }
  match k.iv with
  | some v => setHif s { s.hif with msix := s.hif.msix ++ [(c, v)] }
  | none => s

/-- An asynchronous event: it completes the oldest outstanding request, and is lost where none is outstanding. -/
def asyncEvent (s : State) (c type info log : Nat) : State :=
  match (ctrlOf s c).aer with
  | [] => s
  | cid :: t =>
    postCqe (setCtrl s c { ctrlOf s c with aer := t }) c 0 cid nOk (type + info * 256 + log * 65536) 0 0 0 0xFF

/-- The host status of a device status (R573). -/
def hostStatus (s : State) (status unit : Nat) (sglShort : Bool) : Nat :=
  match status with
  | 0x00 | 0x02 | 0x03 | 0x04 => nOk
  | 0x01 => if sglShort then nstat 0 0x0F true else nstat 0 0x04 false
  | 0x05 =>
    if s.ftl.state = .readOnly then nstat 0 0x20 true
    else if sglShort then nstat 0 0x0F true else nstat 0 0x81 true
  | 0x06 => nstat 7 0x86 true
  | 0x07 => nstat 0 0x06 false
  | 0x08 | 0x0A | 0x11 => nstat 2 0x86 true
  | 0x09 | 0x0B | 0x0D => nstat 0 0x21 false
  | 0x0E => if unit = 189 then nstat 0 0x80 true else nstat 7 0x8E true
  | 0x0F => nstat 2 0x81 true
  | _ => nstat 0 0x02 true

/-! ## The end of a command's tickets (R571, R573) -/

/-- The command of a controller, queue and identifier. -/
def cmdOf (s : State) (c sq cid : Nat) : Option NCmd :=
  s.hif.cmds.find? (fun x => x.ctrl == c && x.sq == sq && x.cid == cid)

/-- Replace (or, with none, remove) a command. -/
def setCmd (s : State) (c sq cid : Nat) (y : Option NCmd) : State :=
  let same : NCmd → Bool := fun x => x.ctrl == c && x.sq == sq && x.cid == cid
  setHif s { s.hif with cmds := match y with
    | some y => s.hif.cmds.map (fun x => if same x then y else x)
    | none => s.hif.cmds.filter (fun x => !same x) }

/-- Set a zone's record. -/
def setZone (s : State) (ns z : Nat) (x : Zone) : State :=
  match Tab.get? s.ftl.ns ns with
  | none => s
  | some n => { s with ftl := { s.ftl with ns := Tab.set s.ftl.ns ns { n with zones := Tab.set n.zones z x } } }

/-- The zone state table of a namespace is written to the flash system area (R578). -/
def saveZones (s : State) (ns : Nat) : State :=
  { s with ftl := { s.ftl with ns := Tab.mod s.ftl.ns ns (fun n => { n with zonesSaved := n.zones }) } }

/-- Post a command's completion: its first failure by the order of R181, and Dwords 0 and 1. -/
def endCmd (s : State) (y : NCmd) : State :=
  let s := setCmd s y.ctrl y.sq y.cid none
  match y.fail with
  | some (st, dev, unit) => postCqe s y.ctrl y.sq y.cid st y.dw0 y.dw1 y.nsid dev unit
  | none => postCqe s y.ctrl y.sq y.cid nOk y.dw0 y.dw1 y.nsid 0 0xFF

/-- A part of a command ends: a ticket, or a key request. The status is the first by the order of R181: KEY_REVOKED, then the first
failure. With its last part the command completes, unless tickets are still
to be formed and nothing has failed (R566, R571); a zone's Reset (R577), the entry of a Goley image (R580) and the host
counts of R329 take effect here. Dword 0 of Execute Program returns OUT_LEN (R580). -/
def cmdPart (s : State) (c sq cid status unit out : Nat) (sglShort : Bool) : State :=
  match cmdOf s c sq cid with
  | none => s
  | some y =>
    let st := hostStatus s status unit sglShort
    let y := { y with
      left := y.left - 1,
      fail := match y.fail with
        | some f => some (if status = 0x0A ∧ f.2.1 ≠ 0x0A then (st, status, unit) else f)
        | none => if st = nOk then none else some (st, status, unit),
      dw0 := if y.op = 0x101 then out else y.dw0 }
    if y.left ≠ 0 ∨ (!y.todo.isEmpty ∧ y.fail.isNone) then setCmd s c sq cid (some y)
    else
      let s := if y.fail.isNone && !y.zones.isEmpty then saveZones (y.zones.foldl (fun s z => setZone s y.nsid z {}) s) y.nsid
        else s
      let s := if y.op = 0x1C1 ∧ y.fail.isNone then
          setCore s (coreIndex s y.arg) { coreOf s (coreIndex s y.arg) with entry := y.prog.toNat }
        else s
      let f := s.ftl
      let rd := b2n (y.op == 0x02 && !y.admin)
      let wr := b2n (y.op == 0x01 && !y.admin)
      let i := ctrlInst c
      let s := { s with ftl := { f with
        readCmds := Tab.upd f.readCmds i 0 (· + rd), writeCmds := Tab.upd f.writeCmds i 0 (· + wr) } }
      endCmd s y

/-- A ticket of a command ends. -/
def nvmeTicketDone (s : State) (e : Entry) (x : Completion) : State :=
  match e.sub with
  | .nvme c sq cid => cmdPart s c sq cid x.status x.unit x.outLen e.sglShort
  | _ => s

end Sys2Proof.Machine
end

