-- ==== Sys2Proof/Machine/FedBase.lean ====
section
/-! DEFINITION. What the signal box and the stations ask of the junction (18_federation.md): frames and routes, outcomes of
messages received, and where a receive ticket stands. -/

namespace Sys2Proof.Machine

/-- Change the junction's state. -/
def setJct (s : State) (j : Jct) : State := { s with jct := j }

/-- This device's node number and federation identifier (R639). -/
def nodeOf (s : State) : Nat := eff s Reg.FED_NODE_CFG 15 0

/-- FED_ID. -/
def fedId (s : State) : Nat := eff s Reg.FED_ID 31 0

/-- HOP_LIMIT. -/
def hopLimit (s : State) : Nat := eff s Reg.FED_LINK_CFG 27 24

/-- The device sends frames: it is joined, not after a LEAVING (R632), and no duplicate is known (R619). -/
def mayFrame (s : State) : Bool := s.jct.joined && !s.jct.left && !s.jct.duplicate

/-- A live neighbour. -/
def neighbourOf (s : State) (node : Nat) : Option FNeighbour := s.jct.neighbours.find? (fun n => n.node == node)

/-- The next hop for a node (R628): the node itself if it is a live neighbour, else NEXT, else ALT. -/
def nextHop (s : State) (node : Nat) : Option Nat :=
  if (neighbourOf s node).isSome then some node
  else match Tab.get? s.jct.routes node with
    | none => none
    | some (a, b) =>
      if a ≠ 0xFFFF ∧ (neighbourOf s a).isSome then some a
      else if b ≠ 0xFFFF ∧ (neighbourOf s b).isSome then some b
      else none

/-- A port on which a neighbour was heard last, whose link is up. -/
def portOf (s : State) (node : Nat) : Option Nat :=
  match neighbourOf s node with
  | none => none
  | some n => (sortBy (fun a b => decide (b.2 ≤ a.2)) (n.heard.filter (fun p => s.jct.links.getD p.1 0 == 2))).head?.map (·.1)

/-- Give a frame to the port towards its destination; without a live hop it is not sent (R628). -/
def sendFrame (s : State) (f : Frame) : State :=
  if !mayFrame s then s
  else match (nextHop s f.dest).bind (fun h => (portOf s h).map (fun p => (p, h))) with
    | some (p, h) => setJct s { s.jct with out := s.jct.out ++ [(p, h, f)] }
    | none => s

/-- Send a frame on every port whose link is up (R630, R633). -/
def floodFrame (s : State) (f : Frame) : State :=
  setJct s { s.jct with out := s.jct.out ++
    ((List.range 4).filter (fun p => s.jct.links.getD p 0 == 2)).map (fun p => (p, 0xFFFF, f)) }

/-- A frame of this node. -/
def ownFrame (s : State) (type dest destInc : Nat) : Frame := {
  type := type, hops := hopLimit s, dest := dest, src := nodeOf s, fedId := fedId s, srcInc := s.jct.inc,
  destInc := destInc }

/-- The outcome of a received message goes to its sender (R624, R626). -/
def sendOutcome (s : State) (f : Frame) (status : Nat) : State :=
  sendFrame s { ownFrame s 3 f.src f.srcInc with
    status := status, tenant := f.tenant, seq := f.seq, destUnit := f.destUnit, srcUnit := f.srcUnit, destGen := f.destGen }

/-- Change a received message. -/
def modRecv (s : State) (id : Nat) (g : FRecv → FRecv) : State :=
  setJct s { s.jct with recv := s.jct.recv.map (fun r => if r.id = id then g r else r) }

/-- The connection of a received message. -/
def recvKey (r : FRecv) : Nat × Nat × Nat := (r.frame.src, r.frame.srcInc, r.frame.tenant)

/-- Outcomes of a connection's messages go out in SEQ order, up to the first that is not known (R624); the outcome of a
message to this node itself waits for its ticket (R621). Messages whose ticket has ended and whose outcome is sent leave
the receive buffer. -/
def flushOutcomes (s : State) (k : Nat × Nat × Nat) : State :=
  let mine := s.jct.recv.filter (fun r => recvKey r == k)
  let known := (mine.takeWhile (fun r => r.status.isSome)).filter (fun r => !r.outcome)
  let s := known.foldl (fun s r =>
    match r.own with
    | some tag => setJct s { s.jct with arrived := s.jct.arrived ++ [(tag, r.status.getD 0)] }
    | none => sendOutcome s r.frame (r.status.getD 0)) s
  let sent := s.jct.recv.map (fun r => if known.any (fun x => x.id == r.id) then { r with outcome := true } else r)
  setJct s { s.jct with recv := sent.filter (fun r => !(r.done && r.outcome)) }

/-- The outcome of a received message is known, and perhaps its ticket has ended. -/
def recvStatus (s : State) (id status : Nat) (done : Bool) : State :=
  match s.jct.recv.find? (fun r => r.id == id) with
  | none => s
  | some r =>
    flushOutcomes (modRecv s id (fun r => { r with status := some (r.status.getD status), done := r.done || done })) (recvKey r)

/-- The receive ticket's portion has been admitted: OUTCOME DONE (R624). -/
def junctionAdmitted (s : State) (id : Nat) : State := recvStatus s id 0 false

/-- A receive ticket ends (R624, R625): INSTANCE_RESET before its admission makes it be submitted again; another status
before its admission is the message's outcome. -/
def junctionDone (s : State) (id status : Nat) : State :=
  match s.jct.recv.find? (fun r => r.id == id) with
  | none => s
  | some r =>
    if status = 0x0C ∧ r.status.isNone then modRecv s id (fun r => { r with tag := none })
    else recvStatus s id status true

end Sys2Proof.Machine
end

