-- ==== Sys2Proof/Machine/Finish.lean ====
section
/-! DEFINITION. Ending a ticket (04_lines_and_signal_box.md): what a destination zeroes, how a ticket leaves its
stations, how its completion reaches the submitter, fences, and what stations do at tokens. -/

namespace Sys2Proof.Machine

/-! ## Destinations (R146, R174) -/

/-- Write a core's local memory: the bytes alone. -/
def coreMemWrite (s : State) (c a : Nat) (bs : Bytes) : State :=
  let k := coreOf s c
  setCore s c { k with mem := memWrite k.mem a bs }

/-- Zero a range that the ticket wrote at its destination: host memory, local memory or a core (R174). -/
def zeroDest (s : State) (e : Entry) (r : Nat × Nat) : State :=
  match e.t.dest.kind with
  | 1 | 2 => hostWrite s (e.t.dest.mid % 2) e.t.inst r.1 (zeros r.2)
  | 4 => lmemWrite s e.t.inst r.1 (zeros r.2)
  | 5 => coreMemWrite s (coreIndex s e.t.dest.mid) r.1 (zeros r.2)
  | _ => s

/-- Zero every destination byte that the ticket wrote (R174). -/
def zeroWritten (s : State) (tag : Nat) (e : Entry) : State :=
  ((List.range 12).flatMap (fun st => (ctxOf s tag st).wrote)).foldl (fun s r => zeroDest s e r) s

/-- Erase every context of the ticket and its hold-buffer space (R361, R398, R430). -/
def dropCtx (s : State) (tag : Nat) : State :=
  { s with
    stn := { s.stn with ctx := Tab.keep s.stn.ctx (fun k _ => k / 16 != tag) },
    key := { s.key with
      hold := Tab.mapVals s.key.hold (fun _ h => Tab.erase h tag),
      holdWait := Tab.mapVals s.key.holdWait (fun _ l => l.filter (· != tag)) },
    asu := { s.asu with
      hold := Tab.mapVals s.asu.hold (fun _ h => Tab.erase h tag),
      holdWait := Tab.mapVals s.asu.holdWait (fun _ l => l.filter (· != tag)) } }

/-! ## Users of key slots (R374) -/

/-- Slot `n`. -/
def slotOf (s : State) (n : Nat) : KeySlot := Tab.getD s.key.slots n {}

/-- Replace slot `n`. -/
def setSlot (s : State) (n : Nat) (k : KeySlot) : State :=
  { s with key := { s.key with slots := Tab.put {} s.key.slots n k } }

/-- One more user of slot `n`. -/
def useSlot (s : State) (n : Nat) : State := setSlot s n { slotOf s n with users := (slotOf s n).users + 1 }

/-- One user of slot `n` less. -/
def releaseSlot (s : State) (n : Nat) : State := setSlot s n { slotOf s n with users := (slotOf s n).users - 1 }

/-- Context handles that the ticket was using are free for other tickets again (R394). -/
def releaseHandles (s : State) (tag : Nat) : State :=
  { s with key := { s.key with
    handles := Tab.mapVals s.key.handles (fun _ h => if h.user = some tag then { h with user := none } else h) } }

/-! ## Completion (R175, R179–R181, R486) -/

/-- The 16 bytes of a completion record (R179). -/
def completionBytes (c : Completion) : Bytes :=
  natLe 4 c.cookie ++ natLe 4 c.outLen ++ natLe 2 c.tag ++ natLe 1 c.status ++ natLe 1 c.unit ++ natLe 2 c.inst ++
    natLe 2 c.line

/-- The completion record of a ticket that ends now. -/
def completionOf (tag : Nat) (e : Entry) : Completion where
  cookie := e.t.cookie
  outLen := if (finalStatus e).1 ∈ [0, 2, 3, 4] && !e.revoking then e.out else 0
  tag := tag
  status := (finalStatus e).1
  unit := (finalStatus e).2
  inst := e.t.inst
  line := e.t.line
  sub := e.sub

/-- The completion ring of a core is full (R486). -/
def cqFull (k : Core) : Bool :=
  k.cqEntries == 0 || decide (((k.cr 0x2A).toNat + 1) % k.cqEntries = (k.cr 0x29).toNat % k.cqEntries)

/-- Write a completion to the core's ring at CQ_TAIL (R486). -/
def cqWrite (s : State) (c : Nat) (x : Completion) : State :=
  let k := coreOf s c
  let tail := (k.cr 0x2A).toNat
  let base := fld (k.cr 0x28).toNat 6 0 * 4096
  let s := coreMemWrite s c (base + 16 * tail) (completionBytes x)
  setCore s c ((coreOf s c).setCr 0x2A (BitVec.ofNat 64 ((tail + 1) % k.cqEntries)))

/-- The ticket leaves every core and fen. In a core that is HELD, or whose hold waits for a delay slot, the ring slots of a fenced
ticket are zeroed and freed (R491). -/
def leaveInside (s : State) (tag : Nat) (fenced : Bool) : State :=
  let core : Core → Core := fun k =>
    let k := { k with inside := k.inside.filter (fun t => t.tag != tag), entered := k.entered.filter (· != tag) }
    if fenced ∧ (k.state = .held ∨ k.holdAsked) then dropSlots k tag else k
  { s with
    cores := Tab.mapVals s.cores (fun _ k => core k),
    fab := { s.fab with fens := Tab.mapVals s.fab.fens (fun _ f =>
      { f with inside := f.inside.filter (fun t => t.tag != tag) }) } }

/-- A message of the ticket that has no outcome leaves the send buffer: its ticket has ended (R627). -/
def dropMessages (s : State) (tag : Nat) : State :=
  let conn : FConn → FConn := fun c =>
    if c.msgs.any (fun m => m.tag == tag) then { c with msgs := c.msgs.filter (fun m => m.tag != tag), since := s.now } else c
  setJct s { s.jct with conns := s.jct.conns.map conn }

/-- Remove a ticket from the store, with what its end gives back: staging room (R152), the dirty KiB of units that
never became STAGED (R163), its use of the key slot (R374) and of handles (R394), and its contexts. -/
def freeTicket (s : State) (tag : Nat) (e : Entry) : State :=
  let s := { s with sbx := { s.sbx with
    store := Tab.erase s.sbx.store tag,
    stagingRoom := s.sbx.stagingRoom - e.room,
    dirty := s.sbx.dirty - e.dirtyKib } }
  let kept := Tab.keep s.ftl.staging (fun _ x => x.tag != some tag || x.isSealed)
  let staging := Tab.mapVals kept (fun _ x => if x.sent = some tag ∧ !x.isSealed then { x with sent := none } else x)
  let s := { s with ftl := { s.ftl with staging := staging } }
  let s := if e.keyUsed then releaseSlot s e.t.keySlot else s
  let s := dropMessages s tag
  let s := leaveInside s tag e.fenced
  dropCtx (releaseHandles s tag) tag

/-- Is a completion posted for the ticket? Not after power loss is declared (R167, R223 step 2), and after an instance
reset only to the junction (R604). -/
def posts (s : State) (e : Entry) : Bool :=
  !s.sbx.flushMode && (!e.instReset || (match e.sub with | .junction _ => true | _ => false))

/-- A ticket's end counts MEDIA_LOST completions (R326, R329) and the 512-byte units that its LOGICAL descriptors moved; a discard
moves none (R329). -/
def countEnd (s : State) (e : Entry) : State :=
  let f := s.ftl
  let i := e.t.inst
  let lost := (finalStatus e).1 == 0x0F
  { s with ftl := { f with
    since := if lost then f.since.set 5 (f.since.getD 5 0 + 1) else f.since,
    mediaErrors := if lost then Tab.upd f.mediaErrors i 0 (· + 1) else f.mediaErrors,
    reads := if e.t.source.kind = 3 ∧ !(stepsOf s e).any (fun st => stepKind st == 0x11) then Tab.upd f.reads i 0 (· + e.taken / 512) else f.reads,
    writes := if e.t.dest.kind = 3 then Tab.upd f.writes i 0 (· + e.out / 512) else f.writes } }

/-- The ticket ends: its completion record is posted to a core's ring (the ticket keeps its entry while the ring is
full or earlier completions wait, R486; its staging room and dirty KiB are given back all the same, R152, R163) or handed to the submitter, and its entry is
freed. -/
def finishPlain (s : State) (tag : Nat) : State :=
  match entryOf s tag with
  | none => s
  | some e =>
    let x := completionOf tag e
    let s := countEnd s e
    if !posts s e then freeTicket s tag e
    else
      let s := { s with sbx := { s.sbx with posted := s.sbx.posted ++ [x] } }
      match e.sub with
      | .core u =>
        let c := coreIndex s u
        if 88 ≤ u ∧ u < 120 ∧ (unitOf s u).owner ≠ e.t.inst then freeTicket s tag e
        else if cqFull (coreOf s c) || !(coreOf s c).backlog.isEmpty || (coreOf s c).state == .scrubbing then
          let s := { s with sbx := { s.sbx with stagingRoom := s.sbx.stagingRoom - e.room, dirty := s.sbx.dirty - e.dirtyKib } }
          let s := setEntry s tag { e with acked := true, waiting := false, room := 0, dirtyKib := 0 }
          setCore s c { coreOf s c with backlog := (coreOf s c).backlog ++ [x] }
        else freeTicket (cqWrite s c x) tag e
      | .nvme _ _ _ => nvmeTicketDone (freeTicket s tag e) e x
      | .junction m => junctionDone (freeTicket s tag e) m x.status
      | .device => freeTicket s tag e

/-- A message's outcome ends its sending ticket with the outcome's status; one that is ROLE_STALE is parked as a RETURN
entry (R626). -/
def messageOutcome (s : State) (node : Nat) (m : FMsg) (status : Nat) : State :=
  match entryOf s m.tag with
  | none => s
  | some _ =>
    let s := if status = 0x0B then bump (park s {
        inst := m.inst, disp := 2, status := 0x0B, unit := m.destUnit, src := m.srcUnit, tag := 0xFFFF,
        destGen := m.destGen, cookie := m.cookie, time := opTime s, node := node, payload := m.payload })
        Reg.FED_COUNTS 15 0 1
      else s
    let out := if status = 0 then m.payload.length else 0
    finishPlain (modEntry (report s m.tag m.srcUnit status) m.tag (fun e => { e with acked := true, out := out })) m.tag

/-- The ticket ends. -/
def finishTicket (s : State) (tag : Nat) : State := finishPlain s tag

/-- A receive ticket's portion is admitted: its message's outcome is DONE (R624). -/
def admitJunction (s : State) (e : Entry) : State :=
  match e.sub with
  | .junction id => junctionAdmitted s id
  | _ => s

/-- Room in a core's completion ring: waiting completions are written in order (R486). -/
def drainBacklog : Nat → State → Nat → State
  | 0, s, _ => s
  | f + 1, s, c =>
    match (coreOf s c).backlog with
    | [] => s
    | x :: t =>
      if cqFull (coreOf s c) || (coreOf s c).state == .scrubbing then s
      else
        let s := setCore s c { coreOf s c with backlog := t }
        let s := cqWrite s c x
        let s := match entryOf s x.tag with
          | some e => freeTicket s x.tag e
          | none => s
        drainBacklog f s c

/-- A ticket that is waiting and was never admitted completes at once with a status of the signal box (R148, R155,
R168): UNIT reads 0xFF. -/
def endWaiting (s : State) (tag status : Nat) : State :=
  finishTicket (report s tag 0xFF status) tag

/-! ## What stations do at the end of a ticket (R172–R175) -/

/-- A FLUSH-line portion or a sluice write of `units` units has ended: its energy is measured (R213). -/
def flushEnded (s : State) (units : Nat) : State :=
  { s with pwr := { s.pwr with flushEnds := s.pwr.flushEnds ++ [units] } }

/-- The last station of the line acknowledges: OUT_LEN as it reports it, and the ticket ends (R175, R782). -/
def ackTicket (s : State) (tag out : Nat) : State :=
  let s := match entryOf s tag with
    | some e => if (lineOf s e.t.line).flush then flushEnded s (ceilDiv e.t.len 4096) else s
    | none => s
  finishTicket (modEntry s tag (fun e => { e with acked := true, out := out })) tag

/-- Packets of the ticket in flight and waiting at stations leave the line as QUARANTINE entries (R171, R176). -/
def quarantine (s : State) (tag status : Nat) : State :=
  match entryOf s tag with
  | none => s
  | some e =>
    let isIt : Packet → Bool := fun p => p.tag == tag
    let flying := s.dev.trunk.filter isIt
    let s := { s with dev := { s.dev with trunk := s.dev.trunk.filter (fun p => !isIt p) } }
    let boxes := Tab.mapVals s.stn.inbox (fun _ l => l.filter (fun w => w.tag != tag))
    let s := { s with stn := { s.stn with inbox := boxes.filter (fun p => !p.2.isEmpty) } }
    flying.foldl (fun s p => if p.data.isEmpty then s else park s {
      inst := p.inst, disp := 1, status := status, unit := p.dest, src := p.src, tag := tag, destGen := p.destGen,
      cookie := e.t.cookie, time := opTime s }) s

/-- Data of a ticket that stations hold goes to the siding at a key fence (R380): each packet that waits at a station or is
held there, then one entry for what a station has taken into its context and not passed on. -/
def parkHeld (s : State) (tag status : Nat) : State :=
  match entryOf s tag with
  | none => s
  | some e =>
    let parked (unit src gen : Nat) : Siding := {
      inst := e.t.inst, disp := 1, status := status, unit := unit, src := src, tag := tag, destGen := gen,
      cookie := e.t.cookie, time := opTime s }
    let boxed := s.stn.inbox.flatMap (fun q => q.2.filterMap (fun w => match w with
      | .pkt p => if p.tag = tag ∧ p.data ≠ [] then some (parked q.1 p.src p.destGen) else none
      | .start _ _ _ _ => none))
    let kept := s.stn.ctx.flatMap (fun q =>
      if q.1 / 16 ≠ tag then []
      else
        let u := (unitsAt s e (q.1 % 16)).headD 0xFF
        let src := if q.1 % 16 = 0 then u else (unitsAt s e (q.1 % 16 - 1)).headD 0xFF
        (q.2.held.filter (fun p => !p.data.isEmpty)).map (fun p => parked p.dest p.src p.destGen) ++
          (if q.2.buf.isEmpty && (q.2.acc.isEmpty || kindOf u != 0x07) then [] else [parked u src (Tab.getD e.captured u 0)]))
    (boxed ++ kept).foldl park s

/-- The register index of the hardware that serves ticket `tag` at compression engine `u` (R363). -/
def cmpIndex (s : State) (u tag : Nat) : Nat :=
  let h := engineHw s 180 u tag
  if h = 180 then 16 else h - 120

/-- Register `a` (of element 0) of that hardware. -/
def cmpReg (s : State) (u tag a : Nat) : Nat := a + 0x40 * cmpIndex s u tag

/-- What a failure leaves in the engine that reports it: a compression engine's LAST_FAIL (R366). -/
def engineFailed (s : State) (u tag status : Nat) : State :=
  if kindOf u = 0x06 then setLive s (cmpReg s u tag Reg.CMP_ENG_STATUS) 23 16 status else s

/-- An engine zeroes the context of a ticket that it has failed, or whose revoke token has come (R362, R398, R430). -/
def engineCleared (s : State) (u tag step : Nat) : State :=
  match kindOf u with
  | 0x06 | 0x07 | 0x08 => setCtx s tag step {}
  | _ => s

/-- A station ends the ticket with a failure: it reports the status and sends a revoke token down the line in place of
its end token; the last station itself zeroes what the ticket wrote and acknowledges (R173–R175). -/
def failAt (s : State) (tag step unit status : Nat) : State :=
  match entryOf s tag with
  | none => s
  | some e =>
    if e.revoking then s
    else
      let s := engineFailed (report s tag unit status) unit tag status
      let last := isLast s e step
      let s := if last then s else engineCleared (sendToken s e tag step unit 0 false true) unit tag step
      let s := modEntry s tag (fun e => { e with revoking := true, waiting := false })
      if last then ackTicket (zeroWritten s tag e) tag 0 else s

/-- A fence stops the ticket (R171): waiting portions are removed, packets go to the siding, no byte leaves a station,
and destination bytes already written are zeroed. -/
def fenceTicket (s : State) (tag status : Nat) (mark : Entry → Entry) : State :=
  match entryOf s tag with
  | none => s
  | some e =>
    let s := zeroWritten s tag e
    let s := quarantine s tag status
    dropCtx (modEntry s tag (fun e => { mark e with fenced := true, waiting := false })) tag

/-- The tags of the tickets that satisfy `p`. -/
def tagsWhere (s : State) (p : Entry → Bool) : List Nat := Tab.keys (Tab.keep s.sbx.store (fun _ e => p e))

end Sys2Proof.Machine
end

