-- ==== Sys2Proof/Machine/Power.lean ====
section
/-! DEFINITION. The power manager (05_energy_and_heat.md): the peat bank and its ledger, the allowance, the class gates,
power domains, operating points and heat. The power-loss flush stands in PowerLoss.lean. -/

namespace Sys2Proof.Machine

/-- A sample of the sixteen sensors, with the highest reading of each since the start (R220, R232). -/
def sampled (p : Pwr) (readings : List Int) : Pwr :=
  { p with temps := readings, maxTemps := if p.maxTemps.isEmpty then readings else List.zipWith max p.maxTemps readings }

/-- Change the power manager's state. -/
def setPwr (s : State) (p : Pwr) : State := { s with pwr := p }

/-! ## Critical warnings (R328, R341) -/

/-- Set or clear a critical warning bit; each setting is logged as a HEALTH record (bits 0 and 1 warnings, 2 to 4
critical). -/
def setHealth (s : State) (b : Nat) (on : Bool) : State :=
  let old := live s Reg.FTL_HEALTH 23 16
  if bitOf old b = on then s
  else
    let new := if on then old + 2 ^ b else old - 2 ^ b
    let s := setLive s Reg.FTL_HEALTH 23 16 new
    if on then record s 0x0010 (if b < 2 then 1 else 2) 0 0xFF 0 [BitVec.ofNat 8 new] else s

/-! ## The peat bank (R205, R206, R212) -/

/-- The integer square root of `n`, one bit of the root at a time. -/
def isqrt : Nat → Nat → Nat → Nat
  | 0, _, r => r
  | b + 1, n, r =>
    let t := r + 2 ^ b
    isqrt b n (if t * t ≤ n then t else r)

/-- v_t in mV (R206): rounded down once, at the square root; `cBound100` is c_bound in hundredths of a µF. -/
def vTarget (p : Pwr) : Nat :=
  let cBound100 := if p.cMeas ≠ 0 then p.cMeas * 103 else p.cmaxMf * 100000
  if cBound100 = 0 then 0
  else min (p.vmaxDv * 100) (isqrt 32 (2000000000 * p.ceilQj * 25000 / cBound100) 0)

/-- VFLOOR, EFF_PCT and the ledger's settings (R226, R228). -/
def vfloorMv (s : State) : Nat := eff s Reg.PWR_PEAT_CFG 9 0 * 100

/-- usable_mj at a bank voltage (R212): rounded down once, at the end; `cLow100` is c_low in hundredths of a µF. -/
def usableAt (s : State) (v : Nat) : Nat :=
  let p := s.pwr
  let cLow100 := if p.cMeas ≠ 0 then p.cMeas * 97 else p.cmaxMf * 50000
  let f := vfloorMv s
  if v ≤ f then 0 else cLow100 * (v * v - f * f) * eff s Reg.PWR_PEAT_CFG 16 10 / 20000000000000

/-- FLUSH_NJ_MEAS: the highest of the measurements that are not 24 h of operating time old (R213). -/
def flushNjMeas (s : State) : Nat :=
  ((s.pwr.flushNj.filter (fun m => opTime s < m.1 + 86400000)).map (·.2)).foldl max 0

/-- The power manager records the measurements behind FLUSH_NJ_MEAS in the flash system area, at a checkpoint and in step 6 of
the flush (R213). -/
def saveFlushNj (s : State) : State := setPwr s { s.pwr with flushNjSaved := s.pwr.flushNj }

/-- nj_4k (R212). -/
def nj4k (s : State) : Nat := max (eff s Reg.PWR_FLUSH_NJ 15 0) (flushNjMeas s)

/-- fixed_mj and journal_mj together (R212). -/
def fixedMj (s : State) : Nat := eff s Reg.PWR_LEDGER_CFG 15 0 + ceilDiv (8192 * nj4k s) 4000000

/-- reserve_mj for the present dirty data (R212). -/
def reserveMj (s : State) : Nat := ceilDiv (125 * (fixedMj s + ceilDiv (s.sbx.dirty * nj4k s) 4000000)) 100

/-- The peat state is UNFUSED or FAULT. -/
def peatDown (p : PeatState) : Bool := p = .unfused || p = .fault

/-- The ledger at an epoch start (R212–R214). -/
def ledger (s : State) : State :=
  let usable := usableAt s s.pwr.vMv
  let full := usableAt s (vTarget s.pwr)
  let reserve := reserveMj s
  let spare := usable * 100 / 125 - fixedMj s
  let wb := if peatDown s.pwr.peat then 0
    else min (eff s Reg.PWR_WB_CAP 31 0) (4 * (spare * 1000000 / max 1 (nj4k s)))
  let stage :=
    if usable < reserve ∨ s.pwr.peat = .ramp ∨ peatDown s.pwr.peat then 3
    else if usable * 100 < full * 60 then 2
    else if usable * 100 < full * 80 then 1
    else 0
  setPwr { s with sbx := { s.sbx with wbLimit := wb } } { s.pwr with
    usable := usable, full := full, reserve := reserve, wbKib := wb, peatStage := stage }

/-- The peat state enters RAMP: the charger is on, and RAMP_MS as it stands now holds for this ramp (R207, R227). -/
def enterRamp (s : State) : State :=
  setPwr s { s.pwr with peat := .ramp, chgEn := true, rampMs := eff s Reg.PWR_CHARGER_CFG 21 12, rampSince := s.now }

/-- CHG_ILIM, the charger's input current limit in mA (R204, R207): it rises linearly from zero over RAMP_MS, and is ICHG_MA from
then on; 0 while the charger is off. -/
def chgIlim (s : State) : Nat :=
  let i := eff s Reg.PWR_CHARGER_CFG 11 0
  if !s.pwr.chgEn then 0
  else if s.pwr.peat = .ramp then i * min (s.now - s.pwr.rampSince) (s.pwr.rampMs * 1000) / max 1 (s.pwr.rampMs * 1000)
  else i

/-- Enter FAULT: the charger is off, and the critical health bit 4 is raised (R209, R328). -/
def peatFault (s : State) : State :=
  setHealth (setPwr s { s.pwr with peat := .fault, chgEn := false, disEn := false }) 4 true

/-! ## Class gates and the allowance (R215, R218, R219) -/

/-- What a stage does to a class: 0 open, 1 even epochs only, 2 closed (R215). -/
def peatGate (s : State) (c stage : Nat) : Nat :=
  let policy : Nat → Nat := fun lo => fld (effWord s Reg.PWR_GATE_POLICY) (lo + 3) lo
  let byPolicy : Nat → Nat := fun lo => if policy lo ≠ 0 ∧ policy lo ≤ stage then 2 else 0
  match c with
  | 1 => 0
  | 13 => byPolicy 0
  | 14 => byPolicy 4
  | 15 => byPolicy 8
  | 3 | 5 | 7 | 10 => if stage = 3 then 2 else 0
  | 4 | 11 => if stage = 1 then 1 else if 2 ≤ stage then 2 else 0
  | _ => if 2 ≤ stage then 2 else 0

/-- The thermal column of R215. -/
def thermGate (c stage : Nat) : Nat :=
  match c with
  | 2 => if stage = 2 then 2 else 0
  | 6 | 8 | 9 => if stage = 1 then 1 else if 2 ≤ stage then 2 else 0
  | _ => 0

/-- Is the gate of class `c` open in the epoch numbered `n` (R215)? -/
def gateOpen (s : State) (c n : Nat) : Bool :=
  let g := max (peatGate s c s.pwr.peatStage) (thermGate c s.pwr.thermStage)
  g = 0 || (g = 1 && n % 2 == 0)

/-- cap_mw of PWR_SLOT_CFG (R230). -/
def capMw (s : State) : Nat :=
  match eff s Reg.PWR_SLOT_CFG 1 0 with
  | 0 => 25000 | 1 => 40000 | 2 => 55000 | _ => 70000

/-- The energy per 4 KiB of a FLUSH-line portion or sluice write of `units` units: what each domain drew, apportioned by bytes moved
(R213); rounded down (DESIGN CHOICE, log 213). -/
def njPerUnit (units : Nat) (draws : List (Nat × Nat × Nat)) : Nat :=
  (draws.map (fun d => d.1 * d.2.1 / max 1 d.2.2)).sum / max 1 units

/-- The measurements of those that ended in the last epoch (R213). -/
def flushMeasured (s : State) (env : EpochEnv) : List (Nat × Nat) :=
  (s.pwr.flushEnds.zip env.flushNj).map (fun x => (opTime s, njPerUnit x.1 x.2))

/-- What the power manager publishes at an epoch start: the ledger, A and the class gates (R212–R219). -/
def publish (s : State) (env : EpochEnv) : State :=
  let s := setPwr s { s.pwr with
    vMv := env.vMv, vinMv := env.vinMv, iinMa := env.iinMa, inMw := env.inMw, chgMw := env.chgMw, dieMw := env.dieMw,
    tickMw := (s.pwr.ests.drop 1).sum / 1000,
    flushNj := s.pwr.flushNj.filter (fun m => opTime s < m.1 + 86400000) ++ flushMeasured s env, flushEnds := [] }
  let s := ledger s
  let p := s.pwr
  let pCap : Int := (capMw s : Int) - p.chgMw - p.baseMw
  let pHeat : Int := (p.tickMw : Int) +
    ((eff s Reg.PWR_THERM_CFG 7 0 : Int) - p.tModel) * (eff s Reg.PWR_THERM_CFG 23 8 : Int)
  let hit := decide (capMw s < env.inMw) || decide (58000 < env.dieMw)
  let a := if hit then 0 else 10 * (max 0 (min pCap pHeat)).toNat
  let n := s.sbx.epochs
  let gates := (List.range 15).foldl (fun g c => g + b2n (gateOpen s (c + 1) n) * 2 ^ (c + 1)) 0
  let s := setPwr s { p with capHit := hit, heatLimited := decide (pHeat < pCap) }
  { s with sbx := { s.sbx with allowance := a, remaining := a, gates := gates, firstDone := false } }

/-- Charge an estimate in nJ: the running epoch's sum and the class's counter (R218, R233). -/
def book (s : State) (cls nj : Nat) : State :=
  setPwr s { s.pwr with
    ests := match s.pwr.ests with | [] => [nj] | e :: t => (e + nj) :: t,
    booked := Tab.set s.pwr.booked cls (Tab.getD s.pwr.booked cls 0 + nj) }

/-! ## Islands and domains (R33, R198–R203) -/

/-- The island of unit `u`, by its key: the lowest unit in it, or a system island (R33, R202). -/
def islandOf (u : Nat) : Nat :=
  if 152 ≤ u ∧ u < 168 then 152 + 4 * ((u - 152) / 4)
  else if u = 184 then 152 else if u = 185 then 160
  else if u = 192 then 0xE9 else if u = 188 ∨ u = 194 then 0xEA else if u = 189 then 0xEB
  else if u = 186 ∨ u = 187 ∨ u = 196 then 0xEC else if u = 190 then 0xED else if u = 191 then 0xEE
  else if u = 193 ∨ u = 195 then 0xEF
  else u

/-- Is `k` an island key (R202)? -/
def isIslandKey (k : Nat) : Bool :=
  (decide (k < 184) && islandOf k == k) || (decide (0xE0 ≤ k) && decide (k ≤ 0xE3)) ||
    (decide (0xE8 ≤ k) && decide (k ≤ 0xEF))

/-- The units of an island. -/
def islandUnits (k : Nat) : List Nat := (List.range 197).filter (fun u => islandOf u == k)

/-- Island `k`. -/
def islandAt (s : State) (k : Nat) : Island := Tab.getD s.pwr.islands k {}

/-- Replace island `k`. -/
def setIsland (s : State) (k : Nat) (i : Island) : State :=
  setPwr s { s.pwr with islands := Tab.set s.pwr.islands k i }

/-- The highest frequency of an island at a point, in MHz (R198): 0 and 1 stop the clock. -/
def pointMhz (k point : Nat) : Nat :=
  let row : Nat × Nat × Nat :=
    if 32 ≤ k ∧ k < 64 then (300, 450, 600)
    else if 64 ≤ k ∧ k < 72 then (250, 400, 500)
    else if (72 ≤ k ∧ k < 120) ∨ k = 182 ∨ k = 183 then (800, 1500, 2000)
    else if k < 32 ∨ (120 ≤ k ∧ k < 168) ∨ k = 178 ∨ k = 179 ∨ k = 180 ∨ k = 181 then (600, 900, 1200)
    else if 0xE0 ≤ k ∧ k ≤ 0xE3 then (1000, 1600, 2000)
    else (500, 800, 1000)
  match point with
  | 2 => row.1 | 3 => row.2.1 | 4 => row.2.2 | _ => 0

/-- The lowest point, not below MIN_POINT, that allows a frequency (R199). -/
def pointFor (k min mhz : Nat) : Nat :=
  if min ≤ 2 ∧ mhz ≤ pointMhz k 2 then 2 else if min ≤ 3 ∧ mhz ≤ pointMhz k 3 then 3 else 4

/-- The islands of a domain group; the system islands and the power manager have no switched domain (R200). -/
def groupIslands (s : State) (g : Nat) : List Nat :=
  Tab.keys (Tab.keep s.pwr.islands (fun k i => i.group == g && decide (k < 0xE8)))

/-- Put every domain of a group into a state. -/
def setGroupDom (s : State) (g : Nat) (f : Nat → Island → Island) : State :=
  (groupIslands s g).foldl (fun s k => setIsland s k (f k (islandAt s k))) s

/-- The search islands, which change operating point together (R437). -/
def searchIslands : List Nat := [152, 156, 160, 164]

/-- The point and frequency that island `k` wakes with: those of a search island that is ON, for a search island (R437), and the
planned frequency otherwise. -/
def wakePoint (s : State) (k : Nat) (i : Island) : Nat × Nat :=
  match searchIslands.find? (fun j => searchIslands.contains k && decide ((islandAt s j).dom = .on)) with
  | some j => ((islandAt s j).point, (islandAt s j).mhz)
  | none => (pointFor k i.minPoint i.planMhz, i.planMhz)

/-- Wake the domain group of island `k` if it is in RET or OFF (R201). -/
def wakeIsland (s : State) (k : Nat) : State :=
  let i := islandAt s k
  if i.dom = .on then s
  else setGroupDom s i.group (fun k i =>
    let w := wakePoint s k i
    { i with dom := .on, idle := 0, point := w.1, mhz := w.2 })

/-- The hardware that serves as unit `u`: a spare bound to it counts under its own number (R738), as an injection aimed at the unit
acts on it (R740). -/
def hwUnit (s : State) (u : Nat) : Nat :=
  ([180, 181, 182, 183].find? (fun p => decide ((unitOf s p).state = .bound) && (unitOf s p).serves == u)).getD u

/-- The domains that go OFF at step 4 of R223. -/
def step4Unit (s : State) (u : Nat) : Bool :=
  match kindOf u with
  | 0x02 | 0x03 | 0x05 | 0x06 | 0x07 | 0x08 | 0x09 | 0x0B | 0x0C => true
  | 0x0E => decide ((unitOf s u).serves < 72) || decide (88 ≤ (unitOf s u).serves)
  | _ => false

/-- No request wakes island `k`: the device is off, holds every domain OFF after a thermal shutdown (R222), or has gated the domain
in a power loss or an entry sequence (R223 steps 4 and 8, R682). -/
def wakeBarred (s : State) (k : Nat) : Bool :=
  let p := s.pwr
  s.boot.off || (p.thermHold && !p.powerLoss) ||
    (p.powerLoss && (decide (8 ≤ p.flushStep) || (decide (4 ≤ p.flushStep) && step4Unit s k))) ||
    (decide (s.boot.phase = .entry) && step4Unit s k && decide ((islandAt s k).dom = .off))

/-- A request arrives at unit `u`: it wakes the domain of the hardware that serves there (R25, R36, R201). -/
def wakeFor (s : State) (u : Nat) : State :=
  let k := islandOf (hwUnit s u)
  if wakeBarred s k then s else wakeIsland s k

/-! ## The commands -/

/-- BASE_MW_UPDATE (R219): base_mw from measured and booked energy, never below 2,000 mW. The estimates of the window are those of
its 100 epochs, the running one not counted. -/
def execBaseMwUpdate (eIn eCharge : Nat) (s : State) : Out :=
  let new : Int := (eIn : Int) - eCharge - ((s.pwr.ests.drop 1).sum / 1000 : Nat)
  .next (setPwr s { s.pwr with baseMw := (max 2000 ((7 * (s.pwr.baseMw : Int) + new) / 8)).toNat })

/-- DOMAIN_RETENTION (R201): a group whose every domain has been idle for its IDLE epochs enters RET. -/
def execDomainRetention (group : Nat) (s : State) : Out :=
  let l := groupIslands s group
  if l.all (fun k => let i := islandAt s k; decide (i.dom = .on) && decide (i.idleLimit ≠ 0) && decide (i.idleLimit ≤ i.idle))
  then .next (setGroupDom s group (fun _ i => { i with dom := .ret, point := 1, mhz := 0, retSince := s.now }))
  else .next s

/-- DOMAIN_GATE_OFF (R201): a group in RET whose every unit has STATE IDLE, ABSENT or OFFLINE goes OFF. -/
def execDomainGateOff (group : Nat) (s : State) : Out :=
  let l := groupIslands s group
  let quiet : Nat → Bool := fun u => match (unitOf s u).state with
    | .idle | .absent | .offline => true
    | _ => false
  if l.all (fun k => let i := islandAt s k
      decide (i.dom = .ret) && decide (i.gateMs ≠ 0) && (islandUnits k).all quiet)
  then .next (setGroupDom s group (fun _ i => { i with dom := .off, point := 0, mhz := 0 }))
  else .next s

/-- The islands that change operating point with island `k` (R437). -/
def changesWith (k : Nat) : List Nat := if searchIslands.contains k then searchIslands else [k]

/-- OPERATING_POINT_CHANGE (R199): the frequency changes, and with it the point, to the lowest that allows the frequency and is
not below MIN_POINT. Any other point is not entered. The four search islands change together (R437). -/
def execOperatingPointChange (island point mhz : Nat) (s : State) : Out :=
  let i := islandAt s island
  if isIslandKey island && point == pointFor island i.minPoint mhz && decide (mhz ≤ pointMhz island point) &&
      decide (i.dom = .on)
  then .next ((changesWith island).foldl (fun s k =>
    if (islandAt s k).dom = .on then setIsland s k { islandAt s k with point := point, mhz := mhz } else s) s)
  else .next s

/-- PEAT_RAMP_ELAPSED (R209): RAMP goes to CHARGING. -/
def execPeatRampElapsed (s : State) : Out :=
  if s.pwr.peat = .ramp then .next (setPwr s { s.pwr with peat := .charging, chgEn := true }) else .next s

/-- PEAT_TARGET_REACHED (R209): in CHARGING, PEAT_SNS at v_t goes to READY; on first reaching READY after a cold start a
measurement falls due (R210). -/
def execPeatTargetReached (mv : Nat) (s : State) : Out :=
  if s.pwr.peat = .charging ∧ vTarget s.pwr ≤ mv then
    .next (setPwr s { s.pwr with
      peat := .ready, chgEn := true, vMv := mv, measAsked := s.pwr.measAsked || s.pwr.cMeas == 0 })
  else .next s

/-- PEAT_OVERVOLTAGE (R206, R209): 2 % above v_t the comparator stops the charger; above VMAX × 105 % the state is
FAULT. -/
def execPeatOvervoltage (mv : Nat) (s : State) : Out :=
  let p := s.pwr
  let s := setPwr s { p with vMv := mv, chgEn := p.chgEn && decide (mv * 100 ≤ vTarget p * 102) }
  if p.vmaxDv ≠ 0 ∧ p.vmaxDv * 100 * 105 < mv * 100 ∧ p.peat ≠ .unfused then .next (peatFault s) else .next s

/-- PEAT_FLOOR_TIMEOUT (R209): PEAT_SNS below VFLOOR 10 s after CHARGING began goes to FAULT. -/
def execPeatFloorTimeout (mv : Nat) (s : State) : Out :=
  if s.pwr.peat = .charging ∧ mv < vfloorMv s then .next (peatFault (setPwr s { s.pwr with vMv := mv })) else .next s

/-- A measurement is requested (R210, R231). -/
def askMeasurement (s : State) : State := setPwr s { s.pwr with measAsked := true }

/-- MEAS_REQUEST (R231). -/
def execMeasRequest (s : State) : Out := .next (askMeasurement s)

/-- MEASUREMENT_DUE (R210): it starts in READY with reserve_mj at most 92 % of usable_mj, and is postponed otherwise. -/
def execMeasurementDue (s : State) : Out :=
  if s.pwr.peat = .ready ∧ reserveMj s * 100 ≤ usableAt s s.pwr.vMv * 92 then
    .next (setPwr s { s.pwr with peat := .measuring, chgEn := false, disEn := true, measAsked := false })
  else .next (bump (setPwr s { s.pwr with measAsked := true }) Reg.PWR_MEAS_STATUS 23 16 1)

/-- MEASUREMENT_DONE (R210): c_meas := charge ÷ fall in voltage, in whole µF (rounded down: DESIGN CHOICE,
log 164); the state returns to CHARGING, and full_mj is judged
(R209). -/
def execMeasurementDone (chargeUc fallMv : Nat) (s : State) : Out :=
  if s.pwr.peat = .measuring ∧ fallMv ≠ 0 then
    let s := setPwr s { s.pwr with
      peat := .charging, chgEn := true, disEn := false, cMeas := chargeUc * 1000 / fallMv, measAt := some (opTime s) }
    let s := setLive s Reg.PWR_MEAS_STATUS 25 24 1
    let s := setPwr s { s.pwr with full := usableAt s (vTarget s.pwr) }
    if s.pwr.full * 100 / 125 ≤ fixedMj s then .next (peatFault s) else .next s
  else .next s

/-- MEASUREMENT_TIMEOUT (R210): a discharge unfinished after 2 s is INVALID; the previous c_meas is kept. -/
def execMeasurementTimeout (s : State) : Out :=
  if s.pwr.peat = .measuring then
    .next (setLive (setPwr s { s.pwr with peat := .charging, chgEn := true, disEn := false, measAsked := true })
      Reg.PWR_MEAS_STATUS 25 24 2)
  else .next s

end Sys2Proof.Machine
end

