-- ==== Sys2Proof/Machine/FtlBase.lean ====
section
/-! DEFINITION. The map engine's view of flash (07_translation_and_recovery.md): namespaces, the map, block groups and
their pages, and how a unit of a MAPPED_CHANNEL step is resolved. -/

namespace Sys2Proof.Machine

/-- Change the map engine's state. -/
def setFtl (s : State) (f : Ftl) : State := { s with ftl := f }

/-- Change the flash array's state. -/
def setFch (s : State) (f : Fch) : State := { s with fch := f }

/-- Flash channel `k`. -/
def chanOf (s : State) (k : Nat) : FChan := Tab.getD s.fch.chans k {}

/-- Replace flash channel `k`. -/
def setChan (s : State) (k : Nat) (c : FChan) : State := setFch s { s.fch with chans := Tab.set s.fch.chans k c }

/-! ## Namespaces and map indexes (R271) -/

/-- The map index of the `u`-th unit of a namespace. -/
def mapIndex (n : Ns) (u : Nat) : Nat := n.base * 512 + u

/-- The checks of R271 on one LOGICAL descriptor for units [u, u + count): ownership, then bounds. -/
def logicalOne (s : State) (inst : Nat) (d : Desc) (u count : Nat) : Option Nat :=
  if d.kind ≠ 3 then none
  else match Tab.get? s.ftl.ns d.ns with
    | none => some (if inst = 0 then 0x0E else 0x11)
    | some n =>
      if inst ≠ 0 ∧ n.owner ≠ inst then some 0x11
      else if n.units < d.addr + u + count then some 0x0E
      else none

/-- The checks of R271 on portion `k` of a ticket. -/
def logicalCheck (s : State) (t : Ticket) (k : Nat) : Option Nat :=
  let u := k * 64
  let count := ceilDiv (portionLen t k) 4096
  match logicalOne s t.inst t.source u count with
  | some st => some st
  | none => logicalOne s t.inst t.dest u count

/-- The map index of a ticket's `n`-th unit under a LOGICAL descriptor. -/
def descIndex (s : State) (d : Desc) (n : Nat) : Nat :=
  match Tab.get? s.ftl.ns d.ns with
  | some x => mapIndex x (d.addr + n)
  | none => 0

/-- The namespace that holds a map index. -/
def nsOfIndex (s : State) (idx : Nat) : Option Nat :=
  (s.ftl.ns.find? (fun p => decide (mapIndex p.2 0 ≤ idx) && decide (idx < mapIndex p.2 p.2.units))).map (·.1)

/-! ## Pages and block groups (R235, R277, R281) -/

/-- The key of a page: channel, die, block, page. -/
def pageKey (ch die block page : Nat) : Nat := ((ch * 32 + die) * 65536 + block) * 4096 + page
/-- CHANNEL of a page key. -/
def keyCh (k : Nat) : Nat := k / 8589934592
/-- DIE. -/
def keyDie (k : Nat) : Nat := k / 268435456 % 32
/-- BLOCK. -/
def keyBlock (k : Nat) : Nat := k / 4096 % 65536
/-- PAGE. -/
def keyPage (k : Nat) : Nat := k % 4096

/-- Group `g` = d × 65536 + b. -/
def bgOf (s : State) (g : Nat) : BGroup := Tab.getD s.ftl.groups g { state := .retired }

/-- Replace group `g`. -/
def setBg (s : State) (g : Nat) (x : BGroup) : State := setFtl s { s.ftl with groups := Tab.set s.ftl.groups g x }

/-- The block of group `g` on channel `ch`: block b of die d, or the block that replaced it (R281, R323). -/
def memberBlock (s : State) (g ch : Nat) : Nat := Tab.getD s.ftl.members (g * 32 + ch) (g % 65536)

/-- The group that a page belongs to, or that its retired block belonged to. -/
def groupOf (s : State) (key : Nat) : Nat :=
  match Tab.get? s.ftl.retiredIn (key / 4096) with
  | some g => g
  | none =>
  match s.ftl.members.find? (fun p => p.1 % 32 == keyCh key && p.1 / 32 / 65536 == keyDie key && p.2 == keyBlock key) with
  | some p => p.1 / 32
  | none => keyDie key * 65536 + keyBlock key

/-- The page key of page `p` of group `g` on channel `ch`. -/
def groupPage (s : State) (g ch p : Nat) : Nat := pageKey ch (g / 65536) (memberBlock s g ch) p

/-- A channel takes part in new stripes: it is neither ABSENT nor OFFLINE, nor in TEST (R257, R734). -/
def inStripes (s : State) (ch : Nat) : Bool :=
  match (chanOf s ch).state with
  | .absent | .offline | .test => false
  | _ => true

/-- The member channels of new stripes, in ascending order (R256, R257). -/
def stripeChans (s : State) : List Nat := (List.range 32).filter (inStripes s)

/-- The member channels of a new stripe of group `g`: those in service whose die of the group is not offline (R257, R281). -/
def groupChans (s : State) (g : Nat) : List Nat :=
  (stripeChans s).filter (fun k => !bitOf (chanOf s k).dieOffline (g / 65536))

/-- The (channel, die) pairs that are offline now, die 32 for a whole channel (R282). -/
def offlineNow (s : State) : List (Nat × Nat) :=
  (List.range 32).flatMap (fun k =>
    if inStripes s k then ((List.range 32).filter (bitOf (chanOf s k).dieOffline)).map (fun d => (k, d)) else [(k, 32)])

/-- The offline set that now holds is written with the sequence number from which it is in force, where it differs from the
last one; with none, nothing is offline (R282; log 176). -/
def noteOffline (s : State) : State :=
  let now := offlineNow s
  if (s.ftl.offlineSets.getLast?.map (·.2)).getD [] = now then s
  else setFtl s { s.ftl with
    offlineSets := s.ftl.offlineSets ++ [(s.ftl.nextSeq, now)], nextSeq := s.ftl.nextSeq + 1 }

/-- The lowest sequence number among the data pages of page `p` of group `g`. -/
def stripeSeq (s : State) (g p : Nat) : Option Nat :=
  ((List.range 32).flatMap (fun k => ((Tab.get? s.fch.pages (groupPage s g k p)).getD []).filterMap (fun x =>
    if x.kind = 0 ∨ x.kind = 6 then none else some x.seq))).min?

/-- The member channels of a stripe, in ascending order: of an open one those it was formed with; of a written one those that
the offline set in force leaves; otherwise those of a new stripe (R256, R281, R282). -/
def membersOf (s : State) (g p : Nat) : List Nat :=
  match Tab.get? s.fch.stripes (g * 4096 + p) with
  | some st => if st.chans.isEmpty then groupChans s g else st.chans
  | none =>
    match stripeSeq s g p with
    | none => groupChans s g
    | some n =>
      match (s.ftl.offlineSets.filter (fun x => decide (x.1 < n))).getLast? with
      | none => List.range 32
      | some x => (List.range 32).filter (fun k => !x.2.contains (k, 32) && !x.2.contains (k, g / 65536))

/-- The stripe number of page `p` of group `g` (R256). -/
def stripeNo (g p : Nat) : Nat := g / 65536 + g % 65536 + p

/-- The channel that carries the parity page (R256, R281). -/
def parityCh (s : State) (g p : Nat) : Nat :=
  let l := membersOf s g p
  l.getD (stripeNo g p % max 1 l.length) 32

/-- Wear of a group (R320). -/
def wearOf (s : State) (x : BGroup) : Nat := x.ecDense + x.ecSluice / max 1 (eff s Reg.FTL_WEAR_CFG 15 8)

/-- Free groups of a mode. -/
def freeGroups (s : State) (dense : Bool) : List Nat :=
  Tab.keys (Tab.keep s.ftl.groups (fun _ x => decide (x.state = .free) && x.dense == dense))

/-- Sluice fill in % (R318): the sluice groups in use that are not free, an open one counted whole, rounded down (DESIGN CHOICE,
log 208). -/
def sluiceFill (s : State) : Nat :=
  let l := s.ftl.groups.filter (fun p => !p.2.dense && decide (p.2.state ≠ .retired))
  100 * (l.filter (fun p => decide (p.2.state ≠ .free))).length / max 1 l.length

/-- The map entries that point into group `g`: the map index and its entry. -/
def validIn (s : State) (g : Nat) : Tab MEntry :=
  Tab.keep s.ftl.map (fun idx m => groupOf s m.page == g && (Tab.get? s.ftl.stagedAt idx).isNone)

/-- The first of a list by a measure, the earliest on a tie. -/
def leastBy {α : Type} (f : α → Nat) (l : List α) : Option α :=
  l.foldl (fun b x => match b with
    | none => some x
    | some y => if f x < f y then some x else some y) none

/-- A closed group: it was not open at a start (R284). -/
def BGroup.isClosed (x : BGroup) : Bool := decide (x.state = .closed) && !x.crossed

/-- The wear of the closed dense groups spreads over more than WEAR_GAP (R321). -/
def wearSpreads (s : State) : Bool :=
  let l := (s.ftl.groups.filter (fun p => p.2.dense && p.2.isClosed)).map (fun p => wearOf s p.2)
  decide (eff s Reg.FTL_WEAR_LEVEL 15 0 < l.foldl max 0 - (leastBy id l).getD 0)

/-- How early garbage collection takes a group (R298, R299, R321, R322): 3 open across a start or holding copies of a retired block,
2 weak or often read, 1 the least worn while the wear spreads; 0 in its turn. -/
def takeRank (s : State) (g : Nat) (x : BGroup) : Nat :=
  let may := decide (x.state = .closed) || (decide (x.state = .retired) && !(validIn s g).isEmpty)
  if !may then 0
  else if x.crossed then 3
  else if x.takeFirst = 1 then b2n (wearSpreads s && x.dense)
  else x.takeFirst

/-- PATROL_DAYS of operating time have passed since the patrol last finished the group (R322). -/
def patrolDue (s : State) (x : BGroup) : Bool :=
  x.isClosed && decide (x.patrolAt + eff s Reg.FTL_WEAR_LEVEL 23 16 * 86400000 ≤ opTime s)

/-- The next source of garbage collection (R299, R321, R322): groups to be taken first, of either mode; else the closed dense
group with the fewest valid units, the lowest wear on a tie. -/
def gcSource (s : State) : Option Nat :=
  match leastBy (fun p => 3 - takeRank s p.1 p.2) (Tab.keep s.ftl.groups (fun g x => takeRank s g x != 0)) with
  | some p => some p.1
  | none =>
    (leastBy (fun p => (validIn s p.1).length * 4294967296 + wearOf s p.2)
      (Tab.keep s.ftl.groups (fun _ x => x.isClosed && x.dense))).map (·.1)

/-- The next source of folding: the closed sluice group with the lowest LAST_SEQ (R293). -/
def foldSource (s : State) : Option Nat :=
  (leastBy (fun p => p.2.lastSeq) (Tab.keep s.ftl.groups (fun _ x => x.isClosed && !x.dense))).map (·.1)

/-- The next relocation source of line 4,094 (`gc`) or of line 4,093. -/
def relocSource (s : State) (gc : Bool) : Option Nat := if gc then gcSource s else foldSource s

/-! ## Resolving the units of a MAPPED_CHANNEL step (R150, R154, R278, R279) -/

/-- What map index `idx` holds now. -/
def refOf (s : State) (idx : Nat) : Ref :=
  match Tab.get? s.ftl.stagedAt idx with
  | some n =>
    match Tab.get? s.ftl.staging n with
    | some x => .staged idx x.cls x.bytes
    | none => .unmapped idx
  | none =>
    match Tab.get? s.ftl.map idx with
    | some m => .flash idx m.page m.quarter m.cls m.seqTail
    | none => .unmapped idx

/-- The map index that a reading step's `n`-th unit names: by the ticket's SOURCE, or, on the map engine's own lines,
the `n`-th valid unit of the relocation source (R780). -/
def readIndex (s : State) (e : Entry) (n : Nat) : Option Nat :=
  if e.t.source.kind = 3 then some (descIndex s e.t.source n)
  else match relocSource s (e.t.line != 4093) with
    | some g => (Tab.keys (validIn s g))[n]?
    | none => none

/-- The unit that serves a reference: its flash channel, the staging buffer, or the map engine (R156). -/
def refUnit (s : State) : Ref → Nat
  | .unmapped _ => 189
  | .staged idx _ _ =>
    match (Tab.get? s.ftl.stagedAt idx).bind (Tab.get? s.ftl.staging) with
    | some x => 186 + x.buffer % 2
    | none => 186
  | .flash _ page _ _ _ => keyCh page
  | .page _ _ => 189

/-- The map index of a reference. -/
def Ref.index : Ref → Nat
  | .unmapped i => i
  | .staged i _ _ => i
  | .flash i _ _ _ _ => i
  | .page _ i => i

/-- The channel to which the map engine gives a written unit (R150): the channels in service in rotation (log 30). -/
def writeChannel (s : State) (e : Entry) (n : Nat) : Nat :=
  let l := (List.range 32).filter (fun k => decide ((chanOf s k).state = .ready) || decide ((chanOf s k).state = .retraining))
  l.getD ((e.order + n) % max 1 l.length) 0

/-- Resolve units [n0, n0 + len) of the mapped step `j`: the unit that each reaches, what a read of it resolved to, and
the channel fen of a CHANNEL_FEN step that follows, with R129 applied (R150, R154, R279). -/
def resolveStep (s : State) (e : Entry) (j n0 len : Nat) : Entry :=
  let steps := stepsOf s e
  let mode := (steps[j]?.map (·.mode)).getD 0
  let fen := (steps[j + 1]?.map (·.sel)) == some 3
  (List.range len).foldl (fun e i =>
    let n := n0 + i
    if mode = 1 ∨ mode = 2 then { e with places := Tab.set e.places (placeKey j n) (writeChannel s e n) }
    else match readIndex s e n with
      | none => { e with places := Tab.set e.places (placeKey j n) 189 }
      | some idx =>
        let r := refOf s idx
        let u := refUnit s r
        let places := Tab.set e.places (placeKey j n) u
        let f := match r with | .flash _ page _ _ _ => keyCh page | _ => idx % 32
        { e with
          places := if fen then Tab.set places (placeKey (j + 1) n) (aliasTarget s (32 + f)) else places,
          refs := Tab.set e.refs n r }) e

/-! ## Map pages and the two tiers of their cache (R280, R285–R287, R319) -/

/-- Page number of a map, directory or root page, of its spare INDEX: a root page's carries the checkpoint number above bit 10
(R280). -/
def FSlot.pageNo (x : FSlot) : Nat := if x.kind = 4 then x.idx % 2048 else x.idx

/-- KIND × 2^40 + page number. -/
def mapKey (kind n : Nat) : Nat := kind * 2 ^ 40 + n

/-- Map pages of an extent of `units` units (R271). -/
def nsPages (units : Nat) : Nat := ceilDiv units 512

/-- Root pages: as many as the highest extent end requires, 262,144 map pages each (R285). -/
def rootPages (s : State) : Nat :=
  ceilDiv ((s.ftl.ns.map (fun p => p.2.base + nsPages p.2.units)).foldl max 0) 262144

/-- 4 KiB frames of the on-die tier: 32 MiB (R46). -/
def dieFrames : Nat := 8192

/-- Frames left for map and directory pages: the root is pinned (R286). -/
def dieRoom (s : State) : Nat := dieFrames - rootPages s

/-- Frames of the DRAM tier: MAP_DRAM_GIB, less the shares of channels that have left service since the start (R286, R287). -/
def dramFrames (s : State) : Nat :=
  let n := s.ftl.cacheChans.length
  s.ftl.mapGib * 262144 * (s.ftl.cacheChans.filter (dramIn s)).length / max 1 n

/-- A cached page has changed since its last write to flash (R287). -/
def isDirtyPage (s : State) (k : Nat) : Bool := s.ftl.mapDirty.contains (k / 2 ^ 40, k % 2 ^ 40)

/-- A cached page holds what flash does not: it is dirty, or an entry of it is STAGED (R278, R287). -/
def onlyCached (s : State) (k : Nat) : Bool :=
  isDirtyPage s k || (k / 2 ^ 40 == 2 && s.ftl.stagedAt.any (fun p => p.1 / 512 == k % 2 ^ 40))

/-- The DRAM tier may take page `k`: one that flash does not hold is kept on two channels, and never pushes another out (R287). -/
def dramTakes (s : State) (k : Nat) : Bool :=
  decide (0 < dramFrames s) && (!onlyCached s k ||
    (decide (2 ≤ (dramLive s).length) && decide ((s.ftl.dramTier.filter (onlyCached s)).length < dramFrames s)))

/-- Page `k` enters the DRAM tier, from which the least recent page that flash holds too makes room (R286, R287). -/
def enterDram (s : State) (k : Nat) : State :=
  let d := k :: s.ftl.dramTier.filter (· != k)
  let d := if d.length ≤ dramFrames s then d
    else match d.reverse.find? (fun x => !onlyCached s x) with
      | some x => d.filter (· != x)
      | none => d
  setFtl s { s.ftl with dramTier := d }

/-- The least recent frame of the on-die tier that may leave goes to the DRAM tier, or leaves (R286). A page that neither flash nor
the DRAM tier would hold stays (R287). -/
def evictOne (s : State) : State :=
  match s.ftl.cached.reverse.find? (fun x => !onlyCached s x || dramTakes s x) with
  | none => s
  | some x =>
    let t := setFtl s { s.ftl with cached := s.ftl.cached.filter (· != x) }
    if dramTakes s x then enterDram t x else t

/-- Page `k` becomes the most recent frame of the on-die tier, and the least recent ones beyond its room go (R286). While no other
frame may leave, a page that flash holds gets none itself (DESIGN CHOICE, log 214). -/
def cachePage (s : State) (k : Nat) : State :=
  let s := setFtl s { s.ftl with cached := k :: s.ftl.cached.filter (· != k) }
  (List.range (s.ftl.cached.length - dieRoom s)).foldl (fun s _ => evictOne s) s

/-- Either tier holds page `k`. -/
def isCached (s : State) (k : Nat) : Bool := s.ftl.cached.contains k || s.ftl.dramTier.contains k

/-- One resolution of a map index (R286, R319): a hit where either tier holds the map page; otherwise each level that is not
cached is read from flash, and enters the on-die tier. A page that flash does not hold needs no read. -/
def resolveMap (s : State) (idx : Nat) : State :=
  let m := mapKey 2 (idx / 512)
  let d := mapKey 3 (idx / 262144)
  if isCached s m then cachePage (bump s Reg.FTL_MAP_HITS 31 0 1) m
  else
    let reads := (Tab.get? s.ftl.mapAt m).isSome || (!isCached s d && (Tab.get? s.ftl.mapAt d).isSome)
    cachePage (cachePage (bump s (if reads then Reg.FTL_MAP_MISSES else Reg.FTL_MAP_HITS) 31 0 1) d) m

end Sys2Proof.Machine
end

