-- ==== Sys2Proof/Machine/SignalBox.lean ====
section
/-! DEFINITION. The signal box (04_lines_and_signal_box.md): acceptance, estimates, admission, the epoch, tokens and the
siding. -/

namespace Sys2Proof.Machine

/-! ## Fens at admission (R112, R127, R128) -/

/-- Fen `f` = unit − 32. -/
def fenOf (s : State) (f : Nat) : Fen := Tab.getD s.fab.fens f {}

/-- Replace fen `f`. -/
def setFen (s : State) (f : Nat) (x : Fen) : State :=
  { s with fab := { s.fab with fens := Tab.set s.fab.fens f x } }

/-- RUN_MHZ of fen `f`: the lowest of the plan, the image's FMAX, the cap and the policy's limit, halved under R128. -/
def runMhz (s : State) (f : Nat) : Nat :=
  let x := fenOf s f
  let plan := (islandAt s (32 + f)).planMhz
  let cap := eff s (Reg.FAB_FEN_CFG + 0x40 * f) 9 0
  let m := min plan ((x.image.map (·.fmax)).getD 0)
  let m := if cap = 0 then m else min m cap
  let m := match x.policyMhz with | some q => min m q | none => m
  match x.halved with | some h => min m h | none => m

/-- The width in bits of a port of an image. -/
def portWidth (i : FImage) (port : Nat) : Nat :=
  match (i.ports.find? (·.port == port)).map (·.width) with
  | some 1 => 64 | some 2 => 128 | some 3 => 256 | some 4 => 32 | _ => 0

/-- The port through which a ticket enters fen `u`: D for the channel fen of the step's own flash channel, otherwise
the first trunk port that carries line traffic (R104, R129; log 13). -/
def inputPort (i : FImage) (direct : Bool) : Nat :=
  if direct then 0 else ((i.ports.filter (fun p => p.line && decide (1 ≤ p.port) && decide (p.port ≤ 4))).map (·.port)).headD 1

/-- The charge of a fen per started 4 KiB, in tenths of a nJ, rounded down (R127); 0 where its input port has WIDTH 0, no image stands or
its clock is 0 (log 195). -/
def fenCharge10 (s : State) (u : Nat) (direct : Bool) : Nat :=
  match (fenOf s (u - 32)).image with
  | none => 0
  | some i =>
    let w := portWidth i (inputPort i direct)
    let m := runMhz s (u - 32)
    if w = 0 ∨ m = 0 then 0 else 10 * i.power * (128 * 256 / w) / m

/-! ## Who may use a unit (R151) -/

/-- A unit's role and owner let it serve tickets of instance `i`. -/
def serves (s : State) (u i : Nat) : Bool :=
  let r := unitOf s u
  match r.role with
  | 1 => true
  | 2 | 3 => i == 0
  | 5 | 6 | 7 => i != 0 && r.owner == i
  | _ => false

/-- The instance's state (R594); instance 0 is the device itself. -/
def instState (s : State) (i : Nat) : IState := if i = 0 then .ready else (Tab.getD s.ten.insts i {}).state

/-! ## Acceptance (R145–R152) -/

/-- Descriptor kinds that a first station takes as SOURCE (R146): a host port HOST and HOST_SGL (R563), a flash channel LOGICAL, the map
engine LOGICAL in modes 0 and 1 and NONE otherwise (R330, R566), a DRAM channel LOCAL (R550), a Uaser port REMOTE (R625), a core
CORE and NONE; a station whose chapter names no descriptor NONE alone (DEDUCED, log 163). `own`: one of the lines 4,092 to 4,095,
whose first and last stations take NONE (R780). -/
def sourceKindOk (own : Bool) (kind mode d : Nat) : Bool :=
  if own then d == 0
  else match kind with
    | 0x0B => d == 1 || d == 2
    | 0x01 => d == 3
    | 0x11 => if mode < 2 then d == 3 else d == 0
    | 0x0A => d == 4
    | 0x0C => d == 6
    | 0x04 | 0x05 => d == 5 || d == 0
    | _ => d == 0

/-- Descriptor kinds that a last station takes as DEST (R146): a flash channel and a staging buffer LOGICAL, the map engine NONE, and
in modes 0 and 1 only with a LOGICAL SOURCE (R330, R566), a Uaser port REMOTE (R620), a core CORE for LOAD (R481), a digest step NONE
(R417); a station whose chapter names none NONE alone (DEDUCED, log 163). -/
def destKindOk (own : Bool) (kind mode source d : Nat) : Bool :=
  if own then d == 0
  else match kind with
    | 0x0B => d == 1 || d == 2
    | 0x01 | 0x0F => d == 3
    | 0x11 => d == 0 && (decide (2 ≤ mode) || source == 3)
    | 0x0A => d == 4
    | 0x0C => d == 6
    | 0x04 | 0x05 => d == 5 || (mode != 1 && d == 0)
    | _ => d == 0

/-- In x16 mode a HOST descriptor with PORT 1 fails acceptance (R558). -/
def portOk (s : State) (d : Desc) : Bool := s.hif.x8x8 || !((d.kind == 1 || d.kind == 2) && d.mid % 2 == 1)

/-- A durable line moves data into staging or writes flash (R152): its tickets carry at most 16 MiB. -/
def stagesData (l : Line) : Bool :=
  l.steps.any (fun st => stepKind st == 0x0F || (st.sel == 2 && (st.mode == 1 || st.mode == 2)))

/-- The acceptance checks of R148, in order: the status of the first that fails. `core`: the submitting core's unit, or
none for the device and the junction. `allowed`: the submitter may act for the instance. -/
def acceptance (s : State) (bs : Bytes) (allowed : Bool) : Option Nat :=
  let t := parseTicket bs
  let l := lineOf s t.line
  let own := decide (4092 ≤ t.line)
  let first := (l.steps.head?.map (fun st => sourceKindOk own (stepKind st) st.mode t.source.kind)).getD false
  let last := (l.steps.getLast?.map (fun st => destKindOk own (stepKind st) st.mode t.source.kind t.dest.kind)).getD false
  let logical := t.source.kind = 3 ∨ t.dest.kind = 3
  if !ticketReservedOk bs || l.steps.isEmpty || t.len == 0 || decide (268435456 < t.len) ||
      !descOk t.source || !descOk t.dest || !portOk s t.source || !portOk s t.dest || !first || !last ||
      (decide logical && t.len % 4096 != 0) || (stagesData l && decide (16777216 < t.len)) then some 0x10
  else if !allowed then some 0x11
  else if t.inst ≠ 0 && (l.sysOnly || (t.eclass != 0 && t.eclass != l.cls)) then some 0x11
  else if l.steps.any (fun st => st.sel == 0 && !serves s (aliasTarget s st.target) t.inst) then some 0x11
  else
    let k := slotOf s t.keySlot
    let held := k.owner == t.inst && (k.state = .loaded || k.state = .pending)
    if t.keySlot ≠ 0xFFFF && !held then some 0x11
    else if t.keySlot ≠ 0xFFFF && decide (k.state = .pending) then some 0x09
    else none

/-- The submitter may act for the instance: a system core for any, a tenant core for its OWNER (R148 step 2), the junction for
the instance that its message matched (R624). -/
def mayActFor (s : State) (sub : Submitter) (i : Nat) : Bool :=
  match sub with
  | .core u => kindOf u == 0x04 || ((unitOf s u).owner == i && i != 0)
  | .junction m => s.jct.recv.any (fun r => r.id == m && r.inst == i)
  | _ => true

/-- Entries held by an instance (R147, R196). -/
def entriesOf (s : State) (i : Nat) : Nat := (Tab.keep s.sbx.store (fun _ e => e.t.inst == i)).length

/-- There is an entry that the instance may take (R147). -/
def entryFree (s : State) (i : Nat) : Option Nat :=
  let limit := if i = 0 then 65536 else eff s (Reg.SBX_TICKET_LIMIT + 4 * i) 16 0
  let tenants := (Tab.keep s.sbx.store (fun _ e => e.t.inst != 0)).length
  if limit ≤ entriesOf s i ∨ (i ≠ 0 ∧ 61440 ≤ tenants) then none else Tab.freeKey s.sbx.store 0 65536

/-- A ticket is offered: it takes an entry (the tag is answered), passes or fails the acceptance checks, and waits; a
ticket of an instance in RESETTING or TEARDOWN completes at once with INSTANCE_RESET (R147, R148). -/
def submitTicket (s : State) (sub : Submitter) (bs : Bytes) : Option Nat × State :=
  let t := parseTicket bs
  match entryFree s t.inst with
  | none => (none, s)
  | some tag =>
    let e : Entry := { t := t, sub := sub, order := s.sbx.arrivals }
    let s := { s with sbx := { s.sbx with arrivals := s.sbx.arrivals + 1 } }
    match instState s t.inst with
    | .resetting | .teardown => (some tag, finishTicket (setEntry s tag { e with instReset := true }) tag)
    | _ =>
      match acceptance s bs (mayActFor s sub t.inst) with
      | some st => (some tag, endWaiting (setEntry s tag e) tag st)
      | none =>
        if t.keySlot = 0xFFFF then (some tag, setEntry s tag e)
        else (some tag, setEntry (useSlot s t.keySlot) tag { e with keyUsed := true })

/-! ## Estimates (R161, R217 and the stations' charges) -/

/-- The energy class of a station kind (R215). -/
def classOf (kind : Nat) : Nat :=
  match kind with
  | 0x01 | 0x0D => 2 | 0x0B | 0x0A => 3 | 0x02 => 5 | 0x03 => 6 | 0x06 | 0x07 | 0x08 => 7
  | 0x05 => 8 | 0x09 => 9 | 0x0C | 0x12 => 10 | _ => 1

/-- A digest step's charges by ALG: per started 4 KiB and per ticket; a reserved ALG takes the highest (R415). -/
def digestCharge (alg : Nat) : Nat × Nat :=
  match alg with
  | 1 | 2 | 3 => (200, 0)
  | 4 | 5 => (240, 0)
  | 0x11 | 0x12 | 0x13 => (200, 150)
  | _ => (240, 150)

/-- A station's charge per started 4 KiB in tenths of a nJ, by the unit (or kind) and mode of the step. `direct`: the ticket comes to a
channel fen from the fen's own flash channel. -/
def charge10 (s : State) (e : Entry) (st : LStep) (u : Nat) (direct : Bool) : Nat :=
  let kind := stepKind st
  match kind with
  | 0x01 => match st.mode with | 0 => 6000 | 1 => 24000 | 2 => 40000 | _ => 5000
  | 0x0D => 1500
  | 0x02 | 0x03 => fenCharge10 s u direct
  | 0x04 | 0x05 => if st.mode = 1 then 600 else eff s (Reg.GLY_CORE_CFG + 0x40 * (u - 72)) 15 0 * 10
  | 0x06 => if st.mode % 2 = 0 then 4000 else 3000
  | 0x07 => if st.mode ≤ 1 then 2500 else 3000
  | 0x08 => (digestCharge (e.t.param / 2 ^ 32 % 256)).1 * 10
  | 0x09 => match st.mode with | 0 => 6400 | 1 => 25600 | 2 => 102400 | _ => 3200
  | 0x0A => 400
  | 0x0B => 600
  | 0x0C => if st.mode = 0 then 2500 else 1500
  | 0x0F => 300
  | 0x11 => match st.mode with | 0 | 1 => 80 | 2 => 0 | _ => 300
  | 0x13 => 1250
  | _ => 0

/-- The per-ticket charge of a step, in nJ; a load ticket's PARAM names the target fen (R217, log 14). -/
def ticketCharge (e : Entry) (st : LStep) : Nat :=
  match stepKind st with
  | 0x07 => if 2 ≤ st.mode then 200 else 0
  | 0x08 => (digestCharge (e.t.param / 2 ^ 32 % 256)).2
  | 0x0C => if st.mode = 0 then 400 else 0
  | 0x13 =>
    let u := e.t.param % 256
    if 64 ≤ u ∧ u < 72 then 300000 else if 32 ≤ u ∧ u < 64 then 40000 else 0
  | _ => 0

/-- Groups whose erase a ticket causes at a step: the relocation source that it empties on lines 4,093 and 4,094, and every group
that a secure discard erases (R247, R333). -/
def erasedBy (s : State) (e : Entry) (st : LStep) : List Nat :=
  if stepKind st = 0x01 ∧ st.mode = 2 then
    match relocSource s (e.t.line != 4093) with
    | some g => if (validIn s g).length ≤ ceilDiv e.t.len 4096 then [g] else []
    | none => []
  else if stepKind st = 0x11 ∧ st.mode = 1 then
    Tab.keys (Tab.keep s.ftl.groups (fun _ x => x.present.contains e.t.source.ns))
  else []

/-- The erase charge in the fixed term of the ticket that causes it: 120,000 nJ per block (R247). -/
def eraseCharge (s : State) (e : Entry) (st : LStep) : Nat :=
  let l := erasedBy s e st
  let old := if stepKind st = 0x11 then (s.ftl.retiredIn.filter (fun p => l.contains p.2)).length else 0
  120000 * ((l.map (fun g => (groupChans s g).length)).sum + old)

/-- The ticket has been charged for the erases that it causes. -/
def payErases (s : State) (e : Entry) : State :=
  ((stepsOf s e).flatMap (erasedBy s e)).foldl (fun s g => setBg s g { bgOf s g with erasePaid := true }) s

/-- The estimates of portion `k` of a ticket: nJ by station class, and its erases in class MEDIA (R161, R247). -/
def estimate (s : State) (e : Entry) (k : Nat) : List (Nat × Nat) :=
  let len := portionLen e.t k
  let steps := stepsOf s e
  (if k = 0 then ((steps.map (eraseCharge s e)).filter (0 < ·)).map (fun nj => (2, nj)) else []) ++
  (List.range steps.length).filterMap (fun j => steps[j]?.map (fun st =>
    let units := ceilDiv (len * st.scale) 65536
    let nj :=
      if st.sel = 3 then
        let n0 := k * portionBytes / 4096
        let cs := (List.range (ceilDiv len 4096)).map (fun n =>
          let u := Tab.getD e.places (placeKey j (n0 + n)) 0
          fenCharge10 s u (u == 32 + Tab.getD e.places (placeKey (j - 1) (n0 + n)) 0))
        ceilDiv (cs.sum * st.scale) 160
      else if 0 < j ∧ (stepKind st = 0x02 ∨ stepKind st = 0x03) ∧ (steps[j - 1]?.map (·.sel)) = some 2 then
        let u := (unitAt s e j 0).getD st.target
        let cs := (List.range (ceilDiv len 4096)).map (fun n =>
          fenCharge10 s u (u < 64 && Tab.getD e.places (placeKey (j - 1) (k * portionBytes / 4096 + n)) 0 + 32 == u))
        ceilDiv (cs.sum * st.scale) 160
      else
        let u := (unitAt s e j 0).getD st.target
        ceilDiv (charge10 s e st u (decide (0 < j) && u < 64 && (unitAt s e (j - 1) 0) == some (u - 32)) * units) 10
    (classOf (stepKind st), nj + if k = 0 then ticketCharge e st else 0)))

/-! ## Admission (R150–R154, R162–R164) -/

/-- A unit of a POOL kind qualifies: in service, its role and owner allow the instance, a fen runs, and a host port is
the one that the ticket's descriptor names (R150, R151, R563). -/
def poolFits (s : State) (e : Entry) (kind u : Nat) : Bool :=
  kindOf u == kind && inService s u && serves s u e.t.inst &&
  (if kind = 0x02 ∨ kind = 0x03 then (fenOf s (u - 32)).state = .running else true) &&
  (if kind = 0x0B then
    let d := if e.t.source.kind = 1 ∨ e.t.source.kind = 2 then e.t.source else e.t.dest
    u == 172 + d.mid % 2
  else true)

/-- POOL chooses the qualifying unit with the most free queue entries, the lowest number on a tie (R150). -/
def poolPick (s : State) (e : Entry) (kind : Nat) : Option Nat :=
  ((List.range 218).filter (poolFits s e kind)).foldl (fun b u =>
    match b with
    | none => some u
    | some v => if queueFree s v < queueFree s u then some u else b) none

/-- The units of the FIXED and POOL steps at the ticket's first admission; none while a POOL step has no unit. -/
def pickUnits (s : State) (e : Entry) : Option (Tab Nat) :=
  let steps := stepsOf s e
  (List.range steps.length).foldl (fun acc j =>
    match acc, steps[j]? with
    | some t, some st =>
      if st.sel = 0 then some (Tab.set t j (aliasTarget s st.target))
      else if st.sel = 1 then (poolPick s e st.target).map (fun u => Tab.set t j u)
      else some t
    | a, _ => a) (some [])

/-- The entry with its step units chosen and portion `k`'s units resolved (R150, R154); none while a pool is empty. -/
def resolve (s : State) (e : Entry) (k : Nat) : Option Entry :=
  let units := if k = 0 then pickUnits s e else some e.units
  units.map (fun us =>
    let e := { e with units := us }
    let n0 := k * portionBytes / 4096
    let steps := stepsOf s e
    let len := ceilDiv (portionLen e.t k) 4096
    (List.range steps.length).foldl (fun e j => if (steps[j]?.map (·.sel)) == some 2 then resolveStep s e j n0 len else e) e)

/-- The units that portion `k` reaches, of every step (R154). -/
def reached (s : State) (e : Entry) (k : Nat) : List Nat :=
  ((List.range (stepsOf s e).length).flatMap (portionUnits s e k)).eraseDups

/-- The units that portion `k` reaches at steps whose unit is chosen at admission: POOL, MAPPED_CHANNEL and CHANNEL_FEN (R151). -/
def chosen (s : State) (e : Entry) (k : Nat) : List Nat :=
  let steps := stepsOf s e
  ((List.range steps.length).flatMap (fun j =>
    if (steps[j]?.map (·.sel)).getD 0 = 0 then [] else portionUnits s e k j)).eraseDups

/-- The first station (or every station that a mapped first step reaches) has a free entry for portion `k` (R156). -/
def firstRoom (s : State) (e : Entry) (k : Nat) : Bool := (portionUnits s e k 0).all (fun u => decide (0 < queueFree s u))

/-- Staging room that the ticket needs: its whole length scaled by the staging step (R152); a DRAIN step is a source and
reserves none (R780). -/
def stagingNeed (s : State) (e : Entry) : Nat :=
  ((stepsOf s e).filter (fun st => stepKind st == 0x0F && st.mode != 2)).foldl
    (fun a st => max a (ceilDiv (e.t.len * st.scale) 16)) 0

/-- Staging buffers 0 and 1 hold 32 MiB together (R46), of which each open stripe's running parity takes 20 KiB (R258); the DRAM
staging extension adds its size while two DRAM channels are in service (R287). -/
def stagingBytes (s : State) : Nat :=
  33554432 - 20480 * s.fch.stripes.length + if 2 ≤ (dramLive s).length then s.ftl.stageGib * 1073741824 else 0

/-- Why the budget holds a portion back, if it does: its gate, credit, remaining or the write-back allowance (R162,
R164). -/
def budgetHolds (s : State) (e : Entry) (est dirty : Nat) : Bool :=
  let l := lineOf s e.t.line
  let cls := if e.t.eclass = 0 then l.cls else e.t.eclass
  let gate := bitOf s.sbx.gates cls
  let credit := decide (0 < Tab.getD s.sbx.credit e.t.inst 0)
  let fits := decide ((est : Int) ≤ s.sbx.remaining) ||
    (decide (s.sbx.allowance < est) && !s.sbx.firstDone && decide (0 < s.sbx.allowance) &&
      decide (s.sbx.remaining = s.sbx.allowance))
  let wb := !l.dirty || decide (s.sbx.dirty + dirty ≤ s.sbx.wbLimit)
  !(gate && credit && fits && wb)

/-- An earlier ORDERED ticket of the same instance and line has not had its first portion admitted (R153). -/
def orderHolds (s : State) (e : Entry) : Bool :=
  e.t.ordered && e.admitted == 0 && s.sbx.store.any (fun p =>
    p.2.t.ordered && p.2.t.inst == e.t.inst && p.2.t.line == e.t.line && p.2.admitted == 0 && p.2.waiting &&
      decide (p.2.order < e.order))

/-- End a ticket for a check at admission (R151, R154, R271): with nothing admitted it completes at once, otherwise a revoke
token follows what was admitted. -/
def endAtAdmission (s : State) (tag : Nat) (e : Entry) (unit status : Nat) : State :=
  if e.admitted = 0 then finishTicket (report s tag unit status) tag
  else failAt (report s tag unit status) tag 0 ((unitsAt s e 0).headD 0xFF) status

/-- A fen that a load drains or fills: no ticket is admitted to a line that passes through it (R82 step 2); nor to a unit that
is being withdrawn or dedicated (R597). -/
def fenBusy (s : State) (u : Nat) : Bool :=
  s.ten.withdrawing.any (fun p => p.1 == u) || decide (32 ≤ u) && decide (u < 72) && (match (fenOf s (u - 32)).state with
    | .draining | .loading => true
    | _ => false)

/-- A unit that the line fixes or chose, or a fen that the portion reaches, is in TEST: the ticket keeps waiting (R155). -/
def testHolds (s : State) (e : Entry) (us : List Nat) : Bool :=
  us.any (fun u => decide ((unitOf s u).state = .test) &&
    ((Tab.vals e.units).contains u || (decide (32 ≤ u) && decide (u < 72))))

/-- Work of an admitted portion reaches its first station, and wakes the station's domain (R36, R201). -/
def startAt (s : State) (u : Nat) (w : Work) : State := wakeFor (enqueue s u w) u

/-- Admit the waiting portion of ticket `tag` if every condition holds (R151–R154, R162–R164, R167, R170). -/
def tryAdmit (s : State) (tag : Nat) : State :=
  match entryOf s tag with
  | none => s
  | some e0 =>
    let k := e0.admitted
    let l := lineOf s e0.t.line
    let flush := s.sbx.flushMode
    if !e0.waiting || e0.fenced || e0.revoking || decide (portionsOf e0.t ≤ k) || (flush && !l.flush) ||
        (!flush && e0.t.inst ≠ 0 && eff s (Reg.SBX_SHARE + 4 * e0.t.inst) 16 0 == 0) ||
        (e0.admitted == 0 && e0.t.deadline != 0 && decide (e0.t.deadline ≤ e0.budget)) then s
    else match resolve s e0 k with
      | none => s
      | some e =>
        let ests := estimate s e k
        let est := (ests.map (·.2)).sum
        let dirty := if l.dirty then ceilDiv (portionLen e.t k) 4096 * 4 else 0
        let room := if k = 0 then stagingNeed s e else 0
        if !flush && budgetHolds s e est dirty then setEntry s tag { e0 with passed := true }
        else if !firstRoom s e k || orderHolds s e || decide (stagingBytes s < s.sbx.stagingRoom + room) then s
        else
          let us := reached s e k
          if us.any (fenBusy s) || testHolds s e us then s
          else if (chosen s e k).any (fun u => !serves s u e.t.inst) then endAtAdmission s tag e0 0xFF 0x11
          else if us.any (fun u => match Tab.get? e.captured u with
              | some g => g != (unitOf s u).gen
              | none => false) then endAtAdmission s tag e0 0xFF 0x0B
          else if (logicalCheck s e.t k).isSome then endAtAdmission s tag e0 189 ((logicalCheck s e.t k).getD 0)
          else
            let n := s.sbx.arrivals
            let cap := us.foldl (fun t u => Tab.set t u (unitOf s u).gen) e.captured
            let tooMany := decide (s.sbx.allowance < est) && !flush
            let s := ests.foldl (fun s p => book s p.1 p.2) (if k = 0 then payErases s e else s)
            let s := if tooMany then bump s Reg.SBX_EVENTS 31 16 1 else s
            let s := (Tab.keep e.refs (fun n _ => decide (k * portionBytes / 4096 ≤ n))).foldl (fun s p => resolveMap s p.2.index) s
            let s := { s with sbx := { s.sbx with
              remaining := s.sbx.remaining - est,
              credit := Tab.put 0 s.sbx.credit e.t.inst (Tab.getD s.sbx.credit e.t.inst 0 - est),
              dirty := s.sbx.dirty + dirty,
              stagingRoom := s.sbx.stagingRoom + room,
              firstDone := true,
              arrivals := n + 1 } }
            let e' := { e with
              admitted := k + 1, captured := cap, room := e.room + room, dirtyKib := e.dirtyKib + dirty,
              mark := s.ftl.nextStaged,
              waiting := decide (k + 1 < portionsOf e.t), order := n, age := 0, passed := false }
            let s := admitJunction (setEntry s tag e') e'
            let first := k * portionBytes
            match (stepsOf s e').head? with
            | none => s
            | some st =>
              if st.sel = 2 then
                (List.range (ceilDiv (portionLen e.t k) 4096)).foldl (fun s n =>
                  startAt s (Tab.getD e'.places (placeKey 0 (first / 4096 + n)) 0) (.start tag 0 (first + 4096 * n) 4096)) s
              else startAt s (Tab.getD e'.units 0 0) (.start tag 0 first (portionLen e.t k))

/-- The waiting portions of one group in the order of R162: round the instances, starting after the one last served,
each instance's in arrival order. -/
def groupOrder (s : State) (last : Nat) (tags : List Nat) : List Nat :=
  let ents := tags.filterMap (fun t => (entryOf s t).map (fun e => (t, e)))
  let insts := (ents.map (fun p => p.2.t.inst)).eraseDups
  let key : Nat → Nat := fun i => (i + 511 - last) % 512
  let insts := sortBy (fun a b => decide (key a ≤ key b)) insts
  let lists := insts.map (fun i =>
    (sortBy (fun a b => decide (a.2.order ≤ b.2.order)) (ents.filter (fun p => p.2.t.inst == i))).map (·.1))
  let rounds := (lists.map List.length).foldl max 0
  (List.range rounds).flatMap (fun r => lists.filterMap (fun l => l[r]?))

/-- Try one portion: the state, and its instance where the portion was admitted, else `last` (R162). -/
def admitOne (s : State) (last tag : Nat) : State × Nat :=
  let before := ((entryOf s tag).map (·.admitted)).getD 0
  let inst := ((entryOf s tag).map (·.t.inst)).getD 0
  let t := tryAdmit s tag
  (t, if ((entryOf t tag).map (·.admitted)).getD 0 = before + 1 then inst else last)

/-- Try the portions of one group in order, remembering the instance last served. Once `remaining` is negative none is admitted,
and each is passed over (R164, R168). -/
def admitGroup (s : State) (last : Nat) (tags : List Nat) : State × Nat :=
  (groupOrder s last tags).foldl (fun (st : State × Nat) tag => admitOne st.1 st.2 tag) (s, last)

/-- The waiting portion's estimate is at most SMALL_LIMIT (R162). -/
def isSmall (s : State) (e : Entry) : Bool :=
  match resolve s e e.admitted with
  | some e' => decide (((estimate s e' e.admitted).map (·.2)).sum ≤ eff s Reg.SBX_SMALL_LIMIT 31 0)
  | none => false

/-- The portion has waited at least AGE_LIMIT epoch starts (R162). -/
def isAged (s : State) (e : Entry) : Bool := decide (eff s Reg.SBX_EPOCH_CTL 7 0 ≤ e.age)

/-- Scan the waiting portions (R162): aged ones, other small ones, other large ones. -/
def scan (s : State) : State :=
  let waiting := tagsWhere s (fun e => e.waiting && !e.revoking && !e.fenced)
  let isAged : Nat → Bool := fun t => ((entryOf s t).map (isAged s)).getD false
  let smalls := waiting.filter (fun t => !isAged t && ((entryOf s t).map (isSmall s)).getD false)
  let larges := waiting.filter (fun t => !isAged t && !smalls.contains t)
  let r := admitGroup s s.sbx.lastServed.1 (waiting.filter isAged)
  let r2 := admitGroup r.1 s.sbx.lastServed.2.1 smalls
  let r3 := admitGroup r2.1 s.sbx.lastServed.2.2 larges
  { r3.1 with sbx := { r3.1.sbx with lastServed := (r.2, r2.2, r3.2) } }

/-! ## The epoch (R155, R160, R165, R168, R170) -/

/-- Credit refill of instance `i` (R165); with a SHARE of 0 the credit falls to at most 0 (R170). -/
def refill (s : State) (i : Nat) : State :=
  let share := eff s (Reg.SBX_SHARE + 4 * i) 16 0
  let c := Tab.getD s.sbx.credit i 0
  let a := s.sbx.allowance
  let new : Int := if share = 0 then min c 0
    else min (c + (share * a / 65536 : Nat)) ((16 * share * a / 65536 : Nat) : Int)
  { s with sbx := { s.sbx with credit := Tab.put 0 s.sbx.credit i new } }

/-- A waiting ticket completes with ROLE_STALE when a FIXED step's unit is OFFLINE or ABSENT or no longer serves it
(R155). -/
def staleWaiting (s : State) : State :=
  (tagsWhere s (fun e => e.waiting)).foldl (fun s tag =>
    match entryOf s tag with
    | none => s
    | some e =>
      let bad := (stepsOf s e).any (fun st => st.sel == 0 &&
        (let u := aliasTarget s st.target
         (unitOf s u).state = .offline || (unitOf s u).state = .absent || !serves s u e.t.inst))
      if bad then endAtAdmission s tag e 0xFF 0x0B else s) s

/-- Waiting portions age, and a passed first portion has spent a budget epoch (R162, R168). -/
def ageWaiting (s : State) : State :=
  { s with sbx := { s.sbx with store := Tab.mapVals s.sbx.store (fun _ e =>
      if e.waiting then { e with
        age := e.age + 1, budget := e.budget + b2n (e.passed && e.admitted == 0), passed := false }
      else e) } }

/-- Credit is refilled for the epoch (R160 step 2, R165, R170). -/
def epochRefill (s : State) : State :=
  (List.range 512).foldl (fun s i => if eff s (Reg.SBX_SHARE + 4 * i) 16 0 = 0 ∧ Tab.getD s.sbx.credit i 0 ≤ 0
    then s else refill s i) s

/-- The credit of instance `i` is cut to its cap under a reduced share (R169); with a share of 0 it is at most 0 (R170). -/
def capCredit (s : State) (i : Nat) : State :=
  let cap : Int := ((16 * eff s (Reg.SBX_SHARE + 4 * i) 16 0 * s.sbx.allowance / 65536 : Nat) : Int)
  let c := Tab.getD s.sbx.credit i 0
  if c ≤ cap then s else { s with sbx := { s.sbx with credit := Tab.put 0 s.sbx.credit i cap } }

/-- A new epoch: it is counted (R195), and the power manager's sums roll on; the last 100 completed epochs are the last 1 ms
(R218). -/
def rollEpoch (s : State) : State :=
  let s := { s with sbx := { s.sbx with epochs := s.sbx.epochs + 1 } }
  setPwr s { s.pwr with ests := (0 :: s.pwr.ests).take 101 }

/-- PORTION_CONSIDER (R160): between epoch starts, one newly waiting portion; its group's round goes on after it (R162). -/
def execPortionConsider (tag : Nat) (s : State) : Out :=
  match entryOf s tag with
  | none => .next s
  | some e =>
    let l := s.sbx.lastServed
    let g := if isAged s e then 0 else if isSmall s e then 1 else 2
    let r := admitOne s (if g = 0 then l.1 else if g = 1 then l.2.1 else l.2.2) tag
    let l := if g = 0 then (r.2, l.2) else if g = 1 then (l.1, r.2, l.2.2) else (l.1, l.2.1, r.2)
    .next { r.1 with sbx := { r.1.sbx with lastServed := l } }

/-- DEADLINE_EXPIRE (R168): a first portion that has spent its DEADLINE budget epochs completes with DEADLINE. -/
def execDeadlineExpire (tag : Nat) (s : State) : Out :=
  match entryOf s tag with
  | some e =>
    if e.waiting ∧ e.admitted = 0 ∧ e.t.deadline ≠ 0 ∧ e.t.deadline ≤ e.budget ∧ !s.sbx.flushMode then
      .next (endWaiting (bump s Reg.SBX_EVENTS 15 0 1) tag 0x0D)
    else .next s
  | none => .next s

/-- The map engine issues no drain, fold or garbage-collection ticket while 2 × CKPT_PAGES pages have been programmed
and a checkpoint still runs (R303, R309). -/
def writesHeld (s : State) : Bool :=
  s.ftl.ckpt.isSome && decide (2 * (eff s Reg.FTL_CKPT_CFG 12 0 * 1024) ≤ s.ftl.pagesSinceS0)

/-- The form of the map engine's tickets (R780): lines 4,092 to 4,095, INSTANCE 0, KEY_SLOT 0xFFFF, ECLASS 0, FLAGS 0, SOURCE and
DEST of KIND NONE, and whole units of at most 16 MiB. -/
def engineForm (bs : Bytes) : Bool :=
  let t := parseTicket bs
  decide (t.inst = 0) && decide (4092 ≤ t.line) && t.keySlot == 0xFFFF && t.eclass == 0 && isZero bs 11 1 &&
    t.source.kind == 0 && t.dest.kind == 0 && t.len % 4096 == 0 && decide (t.len ≤ 16777216)

/-- The map engine has such work to offer: folding runs, and below FOLD_HIGH one fold ticket is offered in an epoch (R293); garbage
collection runs while free dense groups are below GC_LOW, and for groups to be taken first, the patrol and rebuilds (R259, R299, R321, R322);
and no checkpoint holds drains, folds and collections back (R303). -/
def engineOffers (s : State) (line : Nat) : Bool :=
  let fold := s.ftl.folding && (decide (eff s Reg.FTL_SLUICE_CFG 22 16 ≤ sluiceFill s) || s.ftl.foldEpoch != some s.sbx.epochs)
  let gc := decide ((freeGroups s true).length < eff s Reg.FTL_CACHE_CFG 31 24) || !s.fch.losses.isEmpty ||
    s.ftl.groups.any (fun p => takeRank s p.1 p.2 != 0 || patrolDue s p.2)
  match line with
  | 4092 => !writesHeld s
  | 4093 => !writesHeld s && fold
  | 4094 => !writesHeld s && gc
  | _ => true

/-- TICKET_SUBMIT (R148): a core, the map engine (unit 189), or the junction (unit 190), offers a ticket; with no entry
to take it keeps it. The map engine offers only tickets of its own form, while it has such work (R293, R299, R303, R780). -/
def execTicketSubmit (unit : Nat) (ticket : Bytes) (s : State) : Out :=
  if unit = 189 then
    let bs := fit 64 ticket
    let line := (parseTicket bs).line
    if engineForm bs && engineOffers s line then
      let s := if line = 4093 then setFtl s { s.ftl with foldEpoch := some s.sbx.epochs } else s
      .next (submitTicket s .device bs).2
    else .next s
  else .next (submitTicket s (if unit = 190 then .junction 0xFFFFFFFF else .core unit) (fit 64 ticket)).2

/-! ## The siding (R176, R190) -/

/-- POP releases the oldest entry: the device's oldest for instance 0, otherwise the instance's own (R176, R190). -/
def popSiding (s : State) (i : Nat) : State :=
  { s with sbx := { s.sbx with siding :=
      if i = 0 then s.sbx.siding.drop 1 else dropFirst (fun e => e.inst == i) s.sbx.siding } }

/-- SIDING_POP (R190). -/
def execSidingPop (inst : Nat) (s : State) : Out := .next (popSiding s inst)

end Sys2Proof.Machine
end

