-- ==== Sys2Proof/Machine/TestBase.lean ====
section
/-! DEFINITION. What every block asks of the test controller (23_test_and_availability.md): the code counters, reports,
active injections, and ending the tickets inside a unit. -/

namespace Sys2Proof.Machine

/-- Change the test controller's state. -/
def setTst (s : State) (t : Tst) : State := { s with tst := t }

/-- Kinds that can be taken out for test (R734): compression, cipher, digest, Goley cores, search bank groups, fens,
flash and DRAM channels. -/
def testable (n : Nat) : Bool :=
  match kindOf n with
  | 0x01 | 0x02 | 0x03 | 0x04 | 0x05 | 0x06 | 0x07 | 0x08 | 0x09 | 0x0A => true
  | _ => false

/-- An engine of R734 and R735: compression, cipher, digest. -/
def isEngine (n : Nat) : Bool := kindOf n == 0x06 || kindOf n == 0x07 || kindOf n == 0x08

/-! ## Tickets inside a unit -/

/-- Ticket `tag` is inside unit `u` at a step: a packet of it waits there, or it left a context there. -/
def stepInside (s : State) (u tag : Nat) : Option Nat :=
  match entryOf s tag with
  | none => none
  | some e => (List.range (stepsOf s e).length).find? (fun j =>
      (unitsAt s e j).contains u &&
        ((inboxOf s u).any (fun w => match w with | .pkt p => p.tag == tag && p.step == j | _ => false) ||
          decide (ctxOf s tag j ≠ {})))

/-- The tickets inside unit `u`. -/
def insideOf (s : State) (u : Nat) : List Nat :=
  (Tab.keys s.sbx.store).filter (fun t => (stepInside s u t).isSome)

/-- End every ticket inside unit `u` but `except` with ROLE_STALE and a revoke token (R735). -/
def endInside (s : State) (u : Nat) (except : Option Nat) : State :=
  ((insideOf s u).filter (fun t => some t != except)).foldl (fun s t =>
    match stepInside s u t with
    | some j => failAt s t j u 0x0B
    | none => s) s

/-! ## Reports (R733, R735, R737) -/

/-- A report goes ahead of requests, rotation and self-test in the queue of 16, behind earlier reports; one that finds the queue full
does not wait in it (R737). -/
def queueReport (s : State) (x : Taking) : State :=
  let t := s.tst
  if 16 ≤ t.queue.length then setTst s { t with urgent := t.urgent ++ [{ x with atOnce := true }] }
  else setTst s { t with
    queue := t.queue.filter (fun y => y.cause == 0) ++ [x] ++ t.queue.filter (fun y => y.cause != 0) }

/-- A unit is reported for test: it goes ahead of every request in the queue; an engine that finds the queue full is
taken out at once, without a spare, and any other unit as soon as its conditions hold (R734, R737). Nothing while SUPPRESS_AUTO is in force (R743), nor for a unit already
reported or in test. -/
def reportUnit (s : State) (u : Nat) (tag : Option Nat) : State :=
  let t := s.tst
  if t.autoHeld || t.inTest.any (fun x => x.unit == u) || (t.queue ++ t.urgent).any (fun x => x.unit == u && x.cause == 0) then s
  else if 16 ≤ t.queue.length ∧ isEngine u then
    let s := endInside (setTst s { t with inTest := t.inTest ++ [{ unit := u, cause := 0 }] }) u tag
    unitState s u .test
  else queueReport s { unit := u, cause := 0, tag := tag }

/-! ## The code counters (R738, R750, R751) -/

/-- The quadrant of a router (R781). -/
def quadOf (x y : Nat) : Nat :=
  if y < 8 then (if x < 8 then 0 else 1) else (if x < 8 then 3 else 2)

/-- The unit attached to a router (R781). -/
def routerUnit (x y : Nat) : Option Nat :=
  if y = 0 then some x
  else if y = 1 then some (32 + x)
  else if y = 2 ∨ y = 3 then some (88 + (y - 2) * 16 + x)
  else if y = 4 then some (if x < 8 then 136 + x else 144 + (x - 8))
  else if y = 5 then some (152 + x)
  else if 6 ≤ y ∧ y ≤ 9 ∧ 4 ≤ x ∧ x < 12 then some (64 + 4 * ((y - 6) / 2) + (x - 4) / 2)
  else if y = 6 then some ([168, 169, 172, 172, 0, 0, 0, 0, 0, 0, 0, 0, 170, 171, 173, 173].getD x 0)
  else if y = 7 then some ([186, 187, 189, 178, 0, 0, 0, 0, 0, 0, 0, 0, 174, 175, 176, 177].getD x 0)
  else if y = 8 then some ([188, 190, 191, 179, 0, 0, 0, 0, 0, 0, 0, 0, 196, 180, 181, 182].getD x 0)
  else if y = 9 ∧ x < 4 then some ([192, 193, 194, 195].getD x 0)
  else if y = 9 ∧ x = 12 then some 183
  else if y = 12 then some (72 + x)
  else if y = 13 then some (120 + x)
  else if y = 14 then some (48 + x)
  else if y = 15 then some (16 + x)
  else none

/-- The numbers from `a` to `b`, both included, in the order passed. -/
def span (a b : Nat) : List Nat :=
  if a ≤ b then (List.range (b - a + 1)).map (a + ·) else (List.range (a - b + 1)).map (a - ·)

/-- The routers of the dimension-ordered route from `a` to `b` (R38, R781): XY (0) passes along x first, YX (1) along y. -/
def routeRouters (route : Nat) (a b : Nat × Nat) : List (Nat × Nat) :=
  if route = 0 then (span a.1 b.1).map (fun x => (x, a.2)) ++ ((span a.2 b.2).drop 1).map (fun y => (b.1, y))
  else (span a.2 b.2).map (fun y => (a.1, y)) ++ ((span a.1 b.1).drop 1).map (fun x => (x, b.2))

/-- The hops of a route: the routers that it passes (R37, R781). -/
def routeHops (route : Nat) (a b : Nat × Nat) : Nat := (routeRouters route a b).length

/-- Passes between two quadrants along a list of routers. -/
def crossings : List (Nat × Nat) → Nat
  | a :: b :: t => b2n (quadOf a.1 a.2 != quadOf b.1 b.2) + crossings (b :: t)
  | _ => 0

/-- The routers. -/
def routers : List (Nat × Nat) := (List.range 16).flatMap (fun y => (List.range 16).map (fun x => (x, y)))

/-- The routers to which unit `u`'s trunk links attach (R781): T0 to T3 of a bulk fen, the two links of a host port and, in x16
mode, unit 172's use of unit 173's two links (R24); a bound spare's link serves the unit that it stands for (R25). -/
def attachOf (s : State) (u : Nat) : List (Nat × Nat) :=
  routers.filter (fun p =>
    match routerUnit p.1 p.2 with
    | some n => n == u || (u == 172 && n == 173 && !s.hif.x8x8) ||
        (decide (180 ≤ n) && decide ((unitOf s n).state = .bound) && (unitOf s n).serves == u)
    | none => false)

/-- The trunk quadrants that packet `p` crosses on its way (R781). -/
def routeQuads (s : State) (p : Packet) : List Nat :=
  ((attachOf s p.src).flatMap (fun a => (attachOf s p.dest).flatMap (fun b =>
    (routeRouters p.route a b).map (fun r => quadOf r.1 r.2)))).eraseDups

/-- Islands whose clock packet `p` needs and that do not run: trunk quadrants on its way, and the island of the hardware that serves
its destination (R25, R36). -/
def stoppedOn (s : State) (p : Packet) : List Nat :=
  let quads := [0, 1, 2, 3].filter (fun q => decide ((islandAt s (0xE0 + q)).dom ≠ .on))
  let k := islandOf (hwUnit s p.dest)
  (if quads.isEmpty then [] else (quads.filter (fun q => (routeQuads s p).contains q)).map (0xE0 + ·)) ++
    (if (islandAt s k).dom = .on then [] else [k])

/-- A domain on the way of packet `p` is held OFF: the packet waits (R36, R222). -/
def pathBarred (s : State) (p : Packet) : Bool := (stoppedOn s p).any (wakeBarred s)

/-- Packet `p` wakes the domains that it needs (R36, R201). -/
def wakePath (s : State) (p : Packet) : State := (stoppedOn s p).foldl wakeIsland s

/-- Router `q` is on a route of packet `p`: from a link of its source to a link of its destination, in its ROUTE order. -/
def onRoute (s : State) (p : Packet) (q : Nat × Nat) : Bool :=
  (attachOf s p.src).any (fun a => (attachOf s p.dest).any (fun b => (routeRouters p.route a b).contains q))

/-- TST_UNIT_ERR of unit `n`. -/
def unitErr (n : Nat) : Nat := Reg.TST_UNIT_ERR + 8 * n

/-- Unit `u` corrected `k` symbols: they are counted, and more than ECC_LIMIT within 1 s report the unit, or raise a
warning health event for a kind that is not in R734 (R738). Search banks follow R455. -/
def countCorrected (s : State) (u k : Nat) (tag : Option Nat) : State :=
  if k = 0 then s
  else
    let s := bump s (unitErr u) 31 16 k
    let times := (List.replicate k s.now ++ Tab.getD s.tst.ecc u []).filter (fun t => s.now < t + 1000000)
    let tooMany := decide (eff s Reg.TST_CFG 31 16 < times.length) && kindOf u != 0x09
    let s := setTst s { s.tst with ecc := Tab.put [] s.tst.ecc u (if tooMany then [] else times) }
    if !tooMany then s
    else if testable u then reportUnit s u tag
    else record s 0x0010 1 0 u 0 [BitVec.ofNat 8 (live s Reg.FTL_HEALTH 23 16)]

/-- Unit `u` found `k` uncorrectable words or flits (R738). -/
def countUncorr (s : State) (u k : Nat) : State := bump s (unitErr u) 15 8 k

/-- MEDIA_LOST is logged at the unit where the code word failed (R45, R721). -/
def recordLost (s : State) (u inst : Nat) (detail : Bytes) : State := record s 0x0012 sevFree 0x0F u inst detail

/-- The detail of a MEDIA_LOST record: map index, channel, die, block. -/
def lostDetail (idx ch die block : Nat) : Bytes := natLe 5 idx ++ natLe 1 ch ++ natLe 1 die ++ natLe 2 block

/-- The detail of a code word failure on the die: nothing of it is known. -/
def lostUnknown : Bytes := List.replicate 9 0xFF#8

/-! ## Injections (R740–R743) -/

/-- The active injection of a kind on a target, under its own number or that of the spare that serves it (R740), that satisfies `p` and
has COUNT left. -/
def injOf (s : State) (kind target : Nat) (p : Nat → Bool) : Option Inj :=
  s.tst.injections.find? (fun i => i.kind == kind && (i.target == target || i.target == hwUnit s target) && p i.param && decide (0 < i.count))

/-- Use one of an injection's COUNT; it ends when none is left. -/
def useInj (s : State) (i : Inj) : State :=
  let l := s.tst.injections.map (fun x => if x = i then { x with count := x.count - 1 } else x)
  setTst s { s.tst with injections := l.filter (fun x => decide (5 < x.kind) || decide (0 < x.count)) }

/-- Use up to `n` of an injection's COUNT: how many there were, and the state. -/
def useInjs (s : State) (i : Inj) (n : Nat) : Nat × State :=
  let k := min n i.count
  let l := s.tst.injections.map (fun x => if x = i then { x with count := x.count - k } else x)
  (k, setTst s { s.tst with injections := l.filter (fun x => decide (5 < x.kind) || decide (0 < x.count)) })

/-- Every active injection and perturbation is cancelled (R740). -/
def cancelInjections (s : State) : State := setTst s { s.tst with injections := [], injAsked := [] }

/-- Symbols that an SRAM_SYMBOL or DRAM_SYMBOL injection (kind 1 or 3) puts into the next code word that the unit
writes, and the state with the injection used. -/
def injectedSymbols (s : State) (kind u : Nat) : Nat × State :=
  match injOf s kind u (fun _ => true) with
  | some i => (i.param % 4, useInj s i)
  | none => (0, s)

end Sys2Proof.Machine
end

