-- ==== Sys2Proof/Machine/Station.lean ====
section
/-! DEFINITION. What every station shares (R156–R159, R172–R175): taking the front of its input queue, counting a
ticket's bytes, and its end tokens. -/

namespace Sys2Proof.Machine

/-- A station command acts on the front of unit `u`'s queue when that is work for a step that `fits`; work of a ticket that has ended or has been revoked or fenced is discarded (R171, R173). `f` gets the
state with the work taken, the ticket's tag and entry, the step and its number, and the work. -/
def serveAt (s : State) (u : Nat) (fits : LStep → Bool)
    (f : State → Nat → Entry → Nat → LStep → Work → State) : State :=
  match dequeue s u with
  | none => s
  | some (w, s') =>
    match entryOf s w.tag with
    | none => s'
    | some e =>
      let j := match w with | .start _ st _ _ => st | .pkt p => p.step
      if e.fenced || e.revoking then s'
      else match (stepsOf s e)[j]? with
        | none => s'
        | some st => if fits st then f s' w.tag e j st w else s

/-- A unit that works: in service, or taken out for test and still draining (R735). -/
def worksNow (s : State) (u : Nat) : Bool := inService s u || s.tst.inTest.any (fun x => x.unit == u && x.draining)

/-- The same for a unit of KIND `kind` that works and a step whose mode satisfies `ok`. -/
def serveFront (s : State) (u kind : Nat) (ok : Nat → Bool)
    (f : State → Nat → Entry → Nat → LStep → Work → State) : State :=
  serveAt s u (fun st => stepKind st == kind && ok st.mode && worksNow s u) f

/-- Count bytes in and out of the ticket at its step. -/
def countCtx (s : State) (tag step inB outB : Nat) : State :=
  let c := ctxOf s tag step
  setCtx s tag step { c with inBytes := c.inBytes + inB, outBytes := c.outBytes + outB }

/-- Send output bytes of the ticket in packets of at most 4 KiB, counted in OFFSET order from what the station has
sent so far (R158, R40). -/
def sendOut (s : State) (tag step u : Nat) (bs : Bytes) (station : Nat) (prov : Bool) : State :=
  (chunks 4096 (bs.length / 4096 + 1) bs).foldl (fun s p =>
    let off := (ctxOf s tag step).outBytes
    let s := sendData s tag step u (off / 4096) off p station prov
    countCtx s tag step 0 p.length) s

/-- Send one packet on in the place of packet `p`, with its offset (R158, R159). -/
def sendUnit (s : State) (tag step u : Nat) (p : Packet) (bs : Bytes) (station : Nat) (prov : Bool) : State :=
  countCtx (sendData s tag step u (p.off / 4096) p.off bs station prov) tag step 0 bs.length

/-- An end token reaches the last station with PROV 1: provisional data was never confirmed, so what was written is
zeroed, FORMAT is reported and the token acknowledged (R172). -/
def endProvisional (s : State) (tag u : Nat) : State :=
  match entryOf s tag with
  | none => s
  | some e => ackTicket (engineFailed (report (zeroWritten s tag e) tag u 0x10) u tag 0x10) tag 0

/-- The station ends its output for the ticket with an end token that carries its total, and its context of the ticket ends
(R172). The last station acknowledges, with `out` as OUT_LEN (R175, R782); it treats a token with PROV 1 as a revoke token. -/
def endOut (s : State) (tag step u out : Nat) (prov : Bool) : State :=
  match entryOf s tag with
  | none => s
  | some e =>
    if isLast s e step then (if prov then endProvisional s tag u else ackTicket s tag out)
    else setCtx (sendToken s e tag step u (ctxOf s tag step).outBytes prov false) tag step {}

/-- Bytes of the ticket that its first step has still to take, and whether every portion has been admitted. -/
def allTaken (s : State) (e : Entry) (tag step : Nat) : Bool :=
  decide (portionsOf e.t ≤ e.admitted) && decide (e.t.len ≤ (ctxOf s tag step).inBytes)

/-- A first station has taken `n` bytes of the ticket from SOURCE (R182). -/
def countTaken (s : State) (tag n : Nat) : State := modEntry s tag (fun e => { e with taken := e.taken + n })

/-- The bytes of the packets of ticket `tag` that wait in unit `u`'s queue. -/
def queuedBytes (s : State) (u tag : Nat) : Nat :=
  ((inboxOf s u).map (fun w => match w with
    | .pkt p => if p.tag = tag ∧ !p.endTok then p.data.length else 0
    | .start t _ _ n => if t = tag then n else 0)).sum

/-- An end token may be acted on once the bytes that it counts have come and have been taken (R172). -/
def tokenReady (s : State) (p : Packet) (step : Nat) : Bool := decide (p.off ≤ (ctxOf s p.tag step).inBytes)

/-- The ticket still runs here. -/
def stillRuns (s : State) (tag : Nat) : Bool :=
  match entryOf s tag with
  | some e => !e.revoking && !e.fenced
  | none => false

/-- Disagreements within 1 s are counted; `limit` of them report the engine (R349, R395, R420). -/
def countMismatch (s : State) (u limit : Nat) (tag : Option Nat) : State :=
  let times := (s.now :: Tab.getD s.key.mismatch u []).filter (fun t => s.now < t + 1000000)
  let tooMany := decide (limit ≤ times.length)
  let s := { s with key := { s.key with mismatch := Tab.put [] s.key.mismatch u (if tooMany then [] else times) } }
  if tooMany then reportUnit s u tag else s

end Sys2Proof.Machine
end

