-- ==== Sys2Proof/Machine/KeyStore.lean ====
section
/-! DEFINITION. The key store, unit 188 (10_keys_and_cipher.md): requests, rewriting and erasing a slot in use, the slot
table, and context handles. -/

namespace Sys2Proof.Machine

/-- Change the key store's state. -/
def setKey (s : State) (k : Key) : State := { s with key := k }

/-! ## Requests (R376, R377, R407) -/

/-- The page offset of an instance's registers; instance 0's stand in BAR0. -/
def pageOf (i : Nat) : Nat := i * 0x10000

/-- The result of a request: KEY_RESULT for instance 0, the page's for a tenant; not while the instance resets
(R382). -/
def keyResult (s : State) (i status cookie : Nat) : State :=
  let a := if i = 0 then Reg.KEY_RESULT else Reg.VFP_KEY_RESULT + pageOf i
  if instState s i = .resetting then s
  else setLive (setLive (setLive s a 8 8 1) a 7 0 status) (a + 4) 31 0 cookie

/-- The status of a request goes to the registers, but after a reset of its instance (R382), or to the command that needed it. -/
def keyAnswer (s : State) (r : KeyReq) (status : Nat) : State :=
  match r.via with
  | none => if r.silent then s else keyResult s r.inst status r.cookie
  | some (.nvme c sq cid) => cmdPart s c sq cid status 188 0 false
  | some _ => s

/-- The request in progress completes (R377). -/
def keyDone (s : State) (r : KeyReq) (status : Nat) : State :=
  keyAnswer (setKey s { s.key with reqs := s.key.reqs.drop 1 }) r status

/-- A key request as the registers of an instance hold it (R403–R405). -/
def keyReqFrom (set : Tab Nat) (i : Nat) : KeyReq :=
  let b := if i = 0 then Reg.KEY_REQ_OP else Reg.VFP_KEY_REQ_OP + pageOf i
  let op := inSet set b
  let arg := inSet set (b + 4)
  {
    inst := i, op := fld op 3 0, kind := fld op 7 4, attr := fld op 11 8, slot := fld op 27 16,
    handle := fld arg 20 16, grantee := fld arg 8 0,
    addr := inSet set (b + 8) + inSet set (b + 12) * 2 ^ 32,
    len := fld (inSet set (b + 16)) 12 0, cookie := inSet set (b + 20) }

/-- Issuer and state, as the table of R376 has them: the status of the first that fails. -/
def keyStateCheck (s : State) (r : KeyReq) : Option Nat :=
  let k := slotOf s r.slot
  let issuer :=
    match r.op with
    | 1 | 4 => r.inst == 0
    | 3 => r.inst == 0 || r.inst == k.owner
    | _ => r.inst == k.owner
  let state :=
    match r.op with
    | 1 => decide (k.state = .free)
    | 2 | 4 => decide (k.state = .empty) || decide (k.state = .loaded)
    | 7 => true
    | _ => decide (k.state = .loaded)
  if !issuer then some 0x11
  else if decide (k.state = .pending) && r.op != 7 then some 0x09
  else if !state then some 0x10
  else if r.op ≤ 4 ∧ 0xFFFFFEFF < k.gen + 1 then some 0x05
  else none

/-- A request arrives. A second one of its instance completes at once with NO_SPACE (R377); a LOAD, ERASE, WITHDRAW or CTX_IMPORT
that names a PENDING slot completes at once, with KEY_PENDING where its issuer may make it (R376, R381); so does a GRANT or CTX_EXPORT
(R376; DEDUCED, log 220). The device's own requests
wait in order. -/
def keyAsk (s : State) (r : KeyReq) : State :=
  if r.via.isNone && s.key.reqs.any (fun q => q.inst == r.inst && q.via.isNone) then keyAnswer s r 0x05
  else if decide ((slotOf s r.slot).state = .pending) && (decide (1 ≤ r.op) && decide (r.op ≤ 6)) then
    keyAnswer s r ((keyStateCheck s r).getD 0x09)
  else setKey s { s.key with reqs := s.key.reqs ++ [r] }

/-! ## A request takes effect (R375, R379, R384) -/

/-- The slot table as it is written whole: grants of all slots, and the keys of PERSIST slots (R383). -/
def writeTable (s : State) : State :=
  let granted := s.key.slots.filter (fun p => decide (p.2.state ≠ .free))
  setKey s { s.key with table := granted.map (fun p =>
    (p.1, { p.2 with key := if bitOf p.2.attr 0 then p.2.key else [], users := 0, waits := none })) }

/-- The next generation of a slot, recorded at multiples of 256 (R375). -/
def nextGen (k : KeySlot) : KeySlot :=
  { k with gen := k.gen + 1, recordedGen := if (k.gen + 1) % 256 = 0 then k.gen + 1 else k.recordedGen }

/-- Every copy of a slot's key outside the slot is zeroed: engine caches, HMAC states, and the handles bound to it
(R379 step 4). -/
def dropKeyCopies (s : State) (n : Nat) : State :=
  setKey s { s.key with
    caches := Tab.mapVals s.key.caches (fun _ l => l.filter (fun p => p.1 != n)),
    hmac := s.key.hmac.filter (fun p => p.1 != n),
    handles := Tab.keep s.key.handles (fun _ h =>
      match h.save with
      | some g => g.slot != n
      | none => true) }

/-- LOAD, ERASE or WITHDRAW takes effect on its slot (R379 step 4): the request completes with DONE. -/
def keyEffect (s : State) (r : KeyReq) (new : Bytes) : State :=
  let s := dropKeyCopies s r.slot
  let k := nextGen (slotOf s r.slot)
  let k := { k with
    key := if r.op = 2 then new else [], waits := none, fencing := false,
    state := if r.op = 2 then .loaded else if r.op = 3 then .empty else .free }
  let s := setSlot s r.slot k
  let s := if r.op = 4 ∨ bitOf k.attr 0 then writeTable s else s
  keyDone s r 0

/-- A LOAD to a LOADED slot, an ERASE or a WITHDRAW (R379 step 1): at once where no user but handles is left, otherwise
the slot is PENDING. -/
def keyRewrite (s : State) (r : KeyReq) (new : Bytes) : State :=
  let k := slotOf s r.slot
  if k.users = 0 ∨ k.state ≠ .loaded then keyEffect s r new
  else setSlot s r.slot { k with state := .pending, waits := some (r, new) }

/-- The TDI of an instance's VF is moved to ERROR by a change under R671 while it is CONFIG_LOCKED or RUN. -/
def tdiDisturb (s : State) (i : Nat) : State :=
  match Tab.getD s.tru.tdi i .unlocked with
  | .locked | .run => { s with tru := { s.tru with tdi := Tab.set s.tru.tdi i .error } }
  | _ => s

/-- The request in progress, if its OP is this one. -/
def keyHead (s : State) (op : Nat) : Option KeyReq :=
  match s.key.reqs with
  | r :: _ => if r.op = op then some r else none
  | [] => none

/-- The request in progress has already reached step 1 of R379. -/
def keyStarted (s : State) (r : KeyReq) : Bool := (slotOf s r.slot).waits.map (·.1) == some r

/-- KEY_GRANT (R376): OWNER, KIND and ATTR are set and the slot goes to EMPTY. -/
def execKeyGrant (s : State) : Out :=
  match keyHead s 1 with
  | none => .next s
  | some r =>
    match keyStateCheck s r with
    | some st => .next (keyDone s r st)
    | none =>
      if r.kind < 1 ∨ 4 < r.kind ∨ r.grantee = 0 then .next (keyDone s r 0x10)
      else
        let k := nextGen (slotOf s r.slot)
        let s := setSlot s r.slot { k with owner := r.grantee, kind := r.kind, attr := r.attr, state := .empty }
        .next (keyDone (writeTable (tdiDisturb s r.grantee)) r 0)

/-! ## LOAD, ERASE and WITHDRAW -/

/-- The trust unit unwraps a key blob for the requester and slot (R665, R666): KIND and key bytes. -/
def blobUnwrap (s : State) (i slot : Nat) (blob : Bytes) : Option (Nat × Bytes) :=
  let n := leAt blob 6 2
  if slice blob 0 4 = [0x4B#8, 0x42#8, 0x4C#8, 0x42#8] ∧ leAt blob 4 1 = 1 ∧ blob.length = 1728 + n ∧
      leAt blob 8 2 = i ∧ leAt blob 10 2 = slot ∧ leAt blob 12 4 = Tab.getD s.tru.instEpoch i 0 ∧
      isZero blob 16 16 ∧ isZero blob 1697 3 ∧ s.tru.lifecycle ≠ 2 then
    match Config.kakWrap i (leAt blob 12 4) (slice blob 0 1700) with
    | none => none
    | some w => (gcmOpen (fit 32 w) (slice blob 1700 12) (slice blob 0 32) (slice blob 1728 n) (slice blob 1712 16)).map
        (fun k => (leAt blob 5 1, k))
  else none

/-- The key's kind and length match KIND, and XTS halves differ (R370, R378 step 4). -/
def keyFits (kind k : Nat) (key : Bytes) : Bool :=
  k == kind &&
  match kind with
  | 1 => key.length == 64 && decide (slice key 0 32 ≠ slice key 32 32)
  | 2 | 3 => key.length == 32
  | 4 => decide (1 ≤ key.length) && decide (key.length ≤ 128)
  | _ => false

/-- KEY_LOAD (R378, R379): the checks in order, then the key is placed, at once or when the slot's users are done. A
failed unwrap is counted at the trust unit. -/
def execKeyLoad (blob : Bytes) (s : State) : Out :=
  match keyHead s 2 with
  | none => .next s
  | some r =>
    if keyStarted s r then .next s
    else match keyStateCheck s r with
    | some st => .next (keyDone s r st)
    | none =>
      if r.len < 64 ∨ 4096 < r.len then .next (keyDone s r 0x10)
      else match blobUnwrap s r.inst r.slot (fit r.len blob) with
        | none => .next (keyDone (bump s Reg.TRU_COUNTS 31 16 1) r 0x08)
        | some (kind, key) =>
          if keyFits (slotOf s r.slot).kind kind key then .next (keyRewrite s r key)
          else .next (keyDone s r 0x10)

/-- KEY_ERASE (R376, R379). -/
def execKeyErase (s : State) : Out :=
  match keyHead s 3 with
  | none => .next s
  | some r =>
    if keyStarted s r then .next s
    else match keyStateCheck s r with
      | some st => .next (keyDone s r st)
      | none => .next (keyRewrite s r [])

/-- KEY_WITHDRAW (R376, R379). -/
def execKeyWithdraw (s : State) : Out :=
  match keyHead s 4 with
  | none => .next s
  | some r =>
    if keyStarted s r then .next s
    else match keyStateCheck s r with
      | some st => .next (keyDone s r st)
      | none => .next (keyRewrite (tdiDisturb s (slotOf s r.slot).owner) r [])

/-- KEY_USE_ZERO (R379 step 3): USE, not counting handles, is 0, and the waiting request takes effect. -/
def execKeyUseZero (slot : Nat) (s : State) : Out :=
  let k := slotOf s slot
  match k.waits with
  | some (r, new) => if k.state = .pending ∧ k.users = 0 then .next (keyEffect s r new) else .next s
  | none => .next s

/-- The register index of the hardware that serves ticket `tag` at cipher engine `u` (R409). -/
def cipIndex (s : State) (u tag : Nat) : Nat :=
  let h := engineHw s 181 u tag
  if h = 181 then 8 else h - 136

/-- Cipher engines at which the ticket has a step count it as ended by a slot fence (R414). -/
def countSlotFence (s : State) (tag : Nat) : State :=
  match entryOf s tag with
  | none => s
  | some e => (List.range (stepsOf s e).length).foldl (fun s j =>
      (unitsAt s e j).foldl (fun s u =>
        if kindOf u = 0x07 ∧ ctxOf s tag j ≠ {} then bump s (Reg.CIP_ENG_ERR + 0x40 * cipIndex s u tag) 15 8 1 else s) s) s

/-- Open feed computations on the slot are abandoned with KEY_REVOKED (R423). -/
def revokeFeeds (s : State) (slot : Nat) : State :=
  (Tab.keys s.dgt.feeds).foldl (fun s i =>
    let f := Tab.getD s.dgt.feeds i {}
    if f.opened ∧ f.key.map (·.1) = some slot then
      let a := Reg.DGT_FEED_RESULT + 0x80 * i
      let s := releaseSlot s slot
      setLive (setLive { s with dgt := { s.dgt with feeds := Tab.put {} s.dgt.feeds i {} } } a 8 8 1) a 7 0 0x0A
    else s) s

/-- KEY_FENCE_TIMEOUT (R379 step 3, R380): 10 ms after PENDING the fence is raised on the slot: its tickets are stopped,
and those that only waited complete with KEY_REVOKED. -/
def execKeyFenceTimeout (slot : Nat) (s : State) : Out :=
  let k := slotOf s slot
  if k.state ≠ .pending ∨ k.fencing then .next s
  else
    let tags := tagsWhere s (fun e => e.keyUsed && e.t.keySlot == slot)
    let s := setSlot s slot { k with fencing := true }
    let s := { s with sbx := { s.sbx with fences := s.sbx.fences ++ [.slot slot] } }
    let s := revokeFeeds (record s 0x0030 sevFree 0 188 k.owner (natLe 2 slot ++ natLe 4 k.gen)) slot
    .next (tags.foldl (fun s t =>
      let s := fenceTicket (parkHeld (countSlotFence s t) t 0x0A) t 0x0A (fun e => { e with keyRevoked := true, fail := some (0x0A, 188) })
      if ((entryOf s t).map (·.admitted)).getD 0 = 0 then finishTicket s t else s) s)

/-- KEY_FENCE_COMPLETE (R379 steps 3 and 4): the fenced tickets complete, and the request takes effect. A load that still uses the
slot has not decrypted every block: nothing of it takes effect (R86). -/
def execKeyFenceComplete (slot : Nat) (s : State) : Out :=
  let k := slotOf s slot
  match k.waits with
  | some (r, new) =>
    if k.fencing then
      let s := (tagsWhere s (fun e => e.keyRevoked && e.t.keySlot == slot)).foldl finishTicket s
      let s := { s with sbx := { s.sbx with fences := s.sbx.fences.filter (fun f => f ≠ .slot slot) } }
      let s := if s.cfg.keyUse = some slot then
          let s := releaseSlot s slot
          { s with cfg := { s.cfg with keyUse := none, content := [], keyLost := true } }
        else s
      .next (keyEffect s r new)
    else .next s
  | none => .next s

/-! ## Context handles (R376, R394, R399, R400) -/

/-- Handle `h` of instance `i`. -/
def handleOf (s : State) (i h : Nat) : Handle := Tab.getD s.key.handles (i * 32 + h) {}

/-- Replace a handle. -/
def setHandle (s : State) (i h : Nat) (x : Handle) : State :=
  setKey s { s.key with handles := Tab.put {} s.key.handles (i * 32 + h) x }

/-- Bytes 16–79 of a saved context record. -/
def ctxBody (g : GcmSave) : Bytes :=
  natLe 8 g.textDone ++ natLe 4 g.aadLen ++ zeros 4 ++ fit 16 g.j0 ++ fit 16 g.ctr ++ fit 16 g.ghash

/-- Bytes 0–15 of a saved context record. -/
def ctxHead (form i : Nat) (g : GcmSave) : Bytes :=
  natLe 1 form ++ natLe 1 2 ++ natLe 2 g.slot ++ natLe 2 i ++ zeros 2 ++ natLe 4 g.gen ++ zeros 4

/-- The saved context record of 128 bytes: clear with EXPORT_CTX, otherwise wrapped under the context key with a fresh
IV (R399, R400); none where the context key is refused (R652). -/
def ctxRecord (s : State) (i : Nat) (g : GcmSave) (clear : Bool) (iv : Bytes) : Option Bytes :=
  if clear then some (ctxHead 2 i g ++ ctxBody g ++ zeros 48)
  else (deviceKey s 2).map (fun k =>
    let w := gcmSeal (fit 32 k) iv (ctxHead 1 i g) (ctxBody g)
    ctxHead 1 i g ++ fit 64 w.1 ++ iv ++ zeros 4 ++ fit 16 w.2 ++ zeros 16)

/-- The port and function at which an instance's addresses lie: its VF's, or port 0 for instance 0 (log 24). -/
def portOfInst (s : State) (i : Nat) : Nat := (Tab.getD s.ten.insts i {}).port

/-- CTX_EXPORT (R376, R400): the handle's context is written to ADDR, clear where the slot that it is bound to has EXPORT_CTX. A handle
with no context gives FORMAT; the status where the context key is refused is a free value (log 53). -/
def execCtxExport (s : State) : Out :=
  match keyHead s 5 with
  | none => .next s
  | some r =>
    match keyStateCheck s r with
    | some st => .next (keyDone s r st)
    | none =>
      match (handleOf s r.inst r.handle).save with
      | none => .next (keyDone s r 0x10)
      | some g =>
        match ctxRecord s r.inst g (bitOf (slotOf s g.slot).attr 1) (freeBytes s.freeCount 12) with
        | none => .next (keyDone (drawn s) r (freeFailure s))
        | some bs => .next (keyDone (hostWrite (drawn s) (portOfInst s r.inst) r.inst r.addr bs) r 0)

/-- The checks of CTX_IMPORT in order (R400): the context, or a status. -/
def ctxParse (s : State) (i : Nat) (rec : Bytes) : Except Nat GcmSave :=
  let form := leAt rec 0 1
  let slot := leAt rec 2 2
  let k := slotOf s slot
  let held := decide (k.owner = i) && (decide (k.state = .loaded) || decide (k.state = .pending))
  let zeros1 := isZero rec 6 2 && isZero rec 12 4 && isZero rec 92 4 && isZero rec 112 16
  let zeros2 := form == 1 || isZero rec 28 4
  if !(form == 1 || form == 2) || !zeros1 || !zeros2 then .error 0x10
  else if !held || leAt rec 4 2 != i then .error 0x11
  else if form == 2 && !bitOf k.attr 1 then .error 0x11
  else if leAt rec 8 4 != k.gen then .error 0x0A
  else
    let body := if form = 2 then some (slice rec 16 64)
      else (deviceKey s 2).bind (fun k =>
        gcmOpen (fit 32 k) (slice rec 80 12) (slice rec 0 16) (slice rec 16 64) (slice rec 96 16))
    match body with
    | none => .error 0x08
    | some b => .ok {
        slot := slot, gen := k.gen, textDone := leAt b 0 8, aadLen := leAt b 8 4, j0 := slice b 16 16,
        ctr := slice b 32 16, ghash := slice b 48 16 }

/-- CTX_IMPORT (R376, R400): a record is read into a free handle, one that holds no context and that no ticket uses. -/
def execCtxImport (rec : Bytes) (s : State) : Out :=
  match keyHead s 6 with
  | none => .next s
  | some r =>
    match keyStateCheck s r with
    | some st => .next (keyDone s r st)
    | none =>
      let h := handleOf s r.inst r.handle
      if h.save.isSome || h.user.isSome then .next (keyDone s r 0x10)
      else match ctxParse s r.inst (fit 128 rec) with
        | .error st => .next (keyDone s r st)
        | .ok g => .next (keyDone (setHandle s r.inst r.handle { save := some g }) r 0)

/-- CTX_FREE (R376): the handle is zeroed and freed. -/
def execCtxFree (s : State) : Out :=
  match keyHead s 7 with
  | none => .next s
  | some r =>
    match keyStateCheck s r with
    | some st => .next (keyDone s r st)
    | none => .next (keyDone (setHandle s r.inst r.handle {}) r 0)

end Sys2Proof.Machine
end

