-- ==== Sys2Proof/Machine/Cipher.lean ====
section
/-! DEFINITION. The cipher engines (10_keys_and_cipher.md): the checks of a ticket's first data, XTS, GCM, dual
computation and the release of decrypted text. -/

namespace Sys2Proof.Machine

/-! ## An engine's registers, keys and checks -/

/-- Count an ending of CIP_ENG_ERR (R414). -/
def cipErr (s : State) (u tag status : Nat) : State :=
  let a := Reg.CIP_ENG_ERR + 0x40 * cipIndex s u tag
  match status with
  | 0x07 => bump s a 31 24 1
  | 0x08 => bump s a 23 16 1
  | 0x0A => bump s a 15 8 1
  | 0x10 | 0x11 => bump s a 7 0 1
  | _ => s

/-- The engine ends the ticket with a failure (R386, R389, R393). -/
def cipFail (s : State) (u tag step status : Nat) : State := failAt (cipErr s u tag status) tag step u status

/-- Count bytes in and out of the engine (R413). -/
def cipCount (s : State) (u tag inB outB : Nat) : State :=
  let e := 0x40 * cipIndex s u tag
  bump64 (bump64 s (Reg.CIP_ENG_IN_LO + e) inB) (Reg.CIP_ENG_OUT_LO + e) outB

/-- The hardware of engine `u` that works for ticket `tag` uses a key: it stands first among the at most 8 that its cache holds
(R387); a ninth takes the place of the one used longest ago (DESIGN CHOICE, log 212). -/
def cacheKey (s : State) (u tag slot gen : Nat) : State :=
  let h := engineHw s 181 u tag
  let l := (Tab.getD s.key.caches h []).filter (fun p => p.1 != slot)
  setKey s { s.key with caches := Tab.set s.key.caches h (((slot, gen) :: l).take 8) }

/-- The checks of a ticket's first data, in order (R386): the status of the first that fails. -/
def cipCheck (s : State) (e : Entry) (mode : Nat) : Option Nat :=
  let k := slotOf s e.t.keySlot
  let held := decide (k.owner = e.t.inst) && (decide (k.state = .loaded) || decide (k.state = .pending))
  if e.t.keySlot = 0xFFFF then some 0x10
  else if !held then some 0x0A
  else if k.kind ≠ (if mode ≤ 1 then 1 else 2) then some 0x10
  else if !bitOf k.attr (if mode % 2 = 0 then 2 else 3) then some 0x11
  else none

/-- Nothing of the ticket has reached this step yet. -/
def firstData (s : State) (tag step : Nat) : Bool := ctxOf s tag step == {}

/-- The key bytes that the ticket uses. -/
def keyOf (s : State) (e : Entry) : Bytes := (slotOf s e.t.keySlot).key

/-- A disagreement of the two datapaths at a 16-byte block of what is to be released (R395): the blocks before it are
released, the ticket ends with VERIFY_MISMATCH, and disagreements are counted towards MISMATCH_LIMIT. -/
def cipMismatch (s : State) (u tag step : Nat) : State :=
  countMismatch (cipFail s u tag step 0x07) u (eff s Reg.CIP_CFG 3 0) (some tag)

/-! ## XTS (R388, R389) -/

/-- DUN_START and DU_LEN of PARAM. -/
def duLen (e : Entry) : Nat := fld e.t.param 63 40

/-- One data unit in the index form: a packet in, a packet out, STATION copied. -/
def xtsPacket (s : State) (u tag step : Nat) (e : Entry) (enc : Bool) (p : Packet) (mm : Option Nat) : State :=
  let bs := xts enc (keyOf s e) (fld p.station 39 0) p.data
  if p.data.length < 512 then cipFail (cipCount s u tag p.data.length 0) u tag step 0x10
  else
    let s := countCtx s tag step p.data.length 0
    let out := match mm with | some b => bs.take (16 * b) | none => bs
    let s := if out.isEmpty then s else sendUnit s tag step u p out p.station p.prov
    let s := cipCount s u tag p.data.length out.length
    if mm.isSome then cipMismatch s u tag step else s

/-- What `k` whole data units of the stream form become, the first of them number `n` of the ticket (R388). -/
def xtsUnits (s : State) (e : Entry) (enc : Bool) (n k : Nat) (bs : Bytes) : Bytes :=
  ((chunks (duLen e) k bs).zip (List.range k)).flatMap (fun p => xts enc (keyOf s e) (fld e.t.param 39 0 + n + p.2) p.1)

/-- Release output, in the stream form with STATION 0; on a disagreement at block `b` of it the blocks before that (R395). -/
def release (s : State) (u tag step : Nat) (out : Bytes) (prov : Bool) (mm : Option Nat) : State :=
  let out := match mm with | some b => out.take (16 * b) | none => out
  let s := cipCount (if out.isEmpty then s else sendOut s tag step u out 0 prov) u tag 0 out.length
  if mm.isSome then cipMismatch s u tag step else s

/-- A packet in the stream form: its bytes join the buffer, and whole units leave. -/
def xtsStream (s : State) (u tag step : Nat) (e : Entry) (enc : Bool) (p : Packet) (mm : Option Nat) : State :=
  let c := ctxOf s tag step
  let buf := c.buf ++ p.data
  let k := buf.length / max 1 (duLen e)
  let prov := c.prov || p.prov
  let s := setCtx s tag step { c with
    inBytes := c.inBytes + p.data.length, buf := buf.drop (duLen e * k), count := c.count + k, prov := prov }
  release (cipCount s u tag p.data.length 0) u tag step (xtsUnits s e enc c.count k buf) prov mm

/-- The end of an XTS ticket's input: a last unit, at least 512 bytes long, leaves; then the end token (R388, R389). -/
def xtsEnd (s : State) (u tag step : Nat) (e : Entry) (enc : Bool) (prov : Bool) (mm : Option Nat) : State :=
  let c := ctxOf s tag step
  if 0 < c.buf.length ∧ c.buf.length < 512 then cipFail s u tag step 0x10
  else
    let bs := if c.buf.isEmpty then []
      else xts enc (keyOf s e) (fld e.t.param 39 0 + c.count) c.buf
    let s := release s u tag step bs c.prov (if bs.isEmpty then none else mm)
    if stillRuns s tag then endOut s tag step u (ctxOf s tag step).inBytes prov else s

/-! ## GCM (R390–R394) -/

/-- PART and HANDLE of PARAM. -/
def gcmPart (e : Entry) : Nat := fld e.t.param 23 16
/-- HANDLE of PARAM. -/
def gcmHandle (e : Entry) : Nat := fld e.t.param 15 0

/-- PARAM meets R390 and R393. -/
def gcmParamOk (mode : Nat) (e : Entry) : Bool :=
  let part := gcmPart e
  let h := gcmHandle e
  fld e.t.param 63 24 == 0 && decide (part ≤ 3) && (mode != 3 || part == 0) &&
    (if part = 0 then h == 0xFFFF else decide (h < 32))

/-- Does the input begin with a message header (R391)? -/
def gcmHasHeader (e : Entry) : Bool := decide (gcmPart e ≤ 1)

/-- The header's fields, from the first 32 bytes of the input. -/
def gcmAadLen (acc : Bytes) : Nat := leAt acc 16 4
/-- TEXT_LEN of the header. -/
def gcmTextLen (acc : Bytes) : Nat := leAt acc 24 8

/-- The header meets R391 and R393. -/
def gcmHeaderOk (acc : Bytes) : Bool :=
  isZero acc 12 4 && isZero acc 20 4 && decide (gcmAadLen acc ≤ 65536) &&
    decide (gcmAadLen acc + gcmTextLen acc ≤ 16777216)

/-- The handle that the ticket names is fit for its PART (R394): the status where it is not. -/
def gcmHandleCheck (s : State) (tag : Nat) (e : Entry) : Option Nat :=
  let part := gcmPart e
  let h := handleOf s e.t.inst (gcmHandle e)
  if part = 0 then none
  else if h.user.isSome && h.user != some tag then some 0x10
  else match h.save with
    | none => if part = 1 then none else some 0x10
    | some g =>
      if part = 1 ∨ g.slot ≠ e.t.keySlot then some 0x10
      else if g.gen ≠ (slotOf s e.t.keySlot).gen then some 0x0A
      else none

/-- What an encryption starts from: J0, counter block, GHASH accumulator, text done, AAD_LEN and TEXT_LEN; from the
header, or from what the engine's context took from the handle (R397). -/
def gcmStart (s : State) (e : Entry) (c : Ctx) : GcmSave :=
  if gcmHasHeader e then
    let key := keyOf s e
    let acc := c.acc
    let j0 := gcmJ0 (slice acc 0 12)
    { slot := e.t.keySlot, gen := (slotOf s e.t.keySlot).gen, textDone := 0, aadLen := gcmAadLen acc,
      textLen := some (gcmTextLen acc), j0 := j0, ctr := ctrAdd j0 1,
      ghash := natBe 16 (ghash (gcmH key) 0 (slice acc 32 (gcmAadLen acc))) }
  else c.gcm.getD { slot := e.t.keySlot, gen := 0 }

/-- Bytes of the input before the text. -/
def gcmSkip (e : Entry) (acc : Bytes) : Nat := if gcmHasHeader e then 32 + gcmAadLen acc else 0

/-- What mode 2 emits for the input so far, without the tag (R392). -/
def gcmEncOut (s : State) (e : Entry) (c : Ctx) : Bytes :=
  let n := gcmSkip e c.acc
  let text := c.acc.drop n
  c.acc.take n ++ gctr (keyOf s e) (text.length / 16 + 1) (gcmStart s e c).ctr text

/-- The plaintext of mode 3 for the input so far, at most TEXT_LEN bytes. -/
def gcmDecOut (s : State) (e : Entry) (acc : Bytes) : Bytes :=
  let text := (acc.drop (gcmSkip e acc)).take (gcmTextLen acc)
  gctr (keyOf s e) (text.length / 16 + 1) (ctrAdd (gcmJ0 (slice acc 0 12)) 1) text

/-- Emit what is new of `out`, in whole packets of 4 KiB, or all of it at the end; on a disagreement the blocks before it. -/
def gcmEmit (s : State) (u tag step : Nat) (out : Bytes) (all prov : Bool) (mm : Option Nat) : State :=
  let done := (ctxOf s tag step).outBytes
  let fresh := out.drop done
  let n := if all || mm.isSome then fresh.length else fresh.length / 4096 * 4096
  release s u tag step (fresh.take n) prov mm

/-- Hold-buffer bytes reserved in the hardware `h` of an engine (R396). -/
def holdUsed (s : State) (h : Nat) : Nat := (Tab.vals (Tab.getD s.key.hold h [])).sum

/-- TEXT_LEN rounded up to 4 KiB. -/
def holdNeed (textLen : Nat) : Nat := ceilDiv textLen 4096 * 4096

/-- A mode 3 ticket is held, not provisional (R396). -/
def gcmHeld (acc : Bytes) : Bool := decide (gcmTextLen acc ≤ 262144)

/-- Reserve hold-buffer room for the ticket. -/
def reserveHold (s : State) (h tag n : Nat) : State :=
  setKey s { s.key with hold := Tab.set s.key.hold h (Tab.set (Tab.getD s.key.hold h []) tag n) }

/-- Does the ticket hold its room in hardware `h`? -/
def hasHold (s : State) (h tag : Nat) : Bool := (Tab.get? (Tab.getD s.key.hold h []) tag).isSome

/-- A packet of mode 2. -/
def gcmEncData (s : State) (u tag step : Nat) (e : Entry) (p : Packet) (mm : Option Nat) : State :=
  let c := ctxOf s tag step
  let had := gcmHasHeader e && decide (32 ≤ c.acc.length)
  let acc := c.acc ++ p.data
  let s := setCtx s tag step { c with inBytes := c.inBytes + p.data.length, acc := acc, prov := c.prov || p.prov }
  let s := cipCount s u tag p.data.length 0
  if gcmHasHeader e && !had && decide (32 ≤ acc.length) && !gcmHeaderOk acc then cipFail s u tag step 0x10
  else if gcmHasHeader e && decide (acc.length < 32) then s
  else gcmEmit s u tag step (gcmEncOut s e { c with acc := acc }) false (c.prov || p.prov) mm

/-- The end of a mode 2 ticket's input (R392–R394): lengths are judged, the tag of a WHOLE or LAST part follows, a FIRST
or MIDDLE part's context is saved in its handle, and LAST frees it. -/
def gcmEncEnd (s : State) (u tag step : Nat) (e : Entry) (prov : Bool) (mm : Option Nat) : State :=
  let c := ctxOf s tag step
  let part := gcmPart e
  let g := gcmStart s e c
  let text := c.acc.drop (gcmSkip e c.acc)
  let done := g.textDone + text.length
  let bad := (gcmHasHeader e && decide (c.acc.length < 32 + gcmAadLen c.acc)) ||
    (part == 0 && decide (some done ≠ g.textLen)) ||
    (part == 3 && (match g.textLen with | some n => n != done | none => false)) ||
    ((part == 1 || part == 2) && text.length % 16 != 0)
  if bad then cipFail s u tag step 0x10
  else
    let key := keyOf s e
    let out := gcmEncOut s e c
    let gh := ghash (gcmH key) (beNat g.ghash) (out.drop (gcmSkip e c.acc))
    let tagBytes := if part = 0 ∨ part = 3 then gcmTag key g.j0 gh g.aadLen done else []
    let s := gcmEmit s u tag step (out ++ fit tagBytes.length tagBytes) true c.prov mm
    if mm.isSome then s
    else
    let s := if part = 0 then s
      else if part = 3 then setHandle s e.t.inst (gcmHandle e) {}
      else setHandle s e.t.inst (gcmHandle e) {
        save := some { g with textDone := done, ctr := ctrAdd g.ctr (text.length / 16), ghash := natBe 16 gh } }
    endOut s tag step u (ctxOf s tag step).inBytes prov

/-- A packet of mode 3, its hold room (if it needs any) reserved: plaintext stays in the hold buffer, or leaves with
PROV set (R396); a ticket counts as released provisionally from its header on (R414; log 184). -/
def gcmDecData (s : State) (u tag step : Nat) (e : Entry) (p : Packet) (mm : Option Nat) : State :=
  let c := ctxOf s tag step
  let acc := c.acc ++ p.data
  let s := setCtx s tag step { c with inBytes := c.inBytes + p.data.length, acc := acc, prov := c.prov || p.prov }
  let s := cipCount s u tag p.data.length 0
  if acc.length < 32 ∨ gcmHeld acc then (if mm.isSome then cipMismatch s u tag step else s)
  else
    let s := if c.acc.length < 32 then bump s (Reg.CIP_ENG_RELEASE + 0x40 * cipIndex s u tag) 31 16 1 else s
    gcmEmit s u tag step (gcmDecOut s e acc) false true mm

/-- The end of a mode 3 ticket's input: lengths and the tag are checked; held text leaves with PROV 0, provisional text
is confirmed by the end token, and a failing tag gives AUTH_FAIL; a tag on which the datapaths disagree is not accepted (R393, R395,
R396). -/
def gcmDecEnd (s : State) (u tag step : Nat) (e : Entry) (prov : Bool) (mm : Option Nat) : State :=
  let c := ctxOf s tag step
  let n := gcmSkip e c.acc + gcmTextLen c.acc
  if c.acc.length < 32 ∨ c.acc.length ≠ n + 16 then cipFail s u tag step 0x10
  else if mm.isSome then cipMismatch s u tag step
  else match gcmOpen (keyOf s e) (slice c.acc 0 12) (slice c.acc 32 (gcmAadLen c.acc))
      (slice c.acc (gcmSkip e c.acc) (gcmTextLen c.acc)) (slice c.acc n 16) with
    | none => cipFail s u tag step 0x08
    | some text =>
      let held := gcmHeld c.acc
      let s := gcmEmit s u tag step text true (if held then c.prov else true) none
      let s := if held then bump s (Reg.CIP_ENG_RELEASE + 0x40 * cipIndex s u tag) 15 0 1 else s
      endOut s tag step u (ctxOf s tag step).inBytes prov

/-- Judge the header of a mode 3 ticket and find its hold room: it waits behind every ticket that already waits
(R396). -/
def gcmAdmit (s : State) (u tag step : Nat) (acc : Bytes) : State :=
  let h := engineHw s 181 u tag
  let need := holdNeed (gcmTextLen acc)
  let waiting := Tab.getD s.key.holdWait h []
  if !gcmHeld acc || hasHold s h tag || waiting.contains tag then s
  else if waiting.isEmpty && decide (holdUsed s h + need ≤ 262144) then reserveHold s h tag need
  else
    let s := setKey s { s.key with holdWait := Tab.set s.key.holdWait h (waiting ++ [tag]) }
    setCtx s tag step { ctxOf s tag step with waitsHold := true }

/-- A packet or end token of a mode 3 ticket. Its input stalls at the engine while it waits for room. -/
def gcmDecTake (s : State) (u tag step : Nat) (e : Entry) (p : Packet) (mm : Option Nat) : State :=
  let c := ctxOf s tag step
  if c.waitsHold then setCtx s tag step { c with held := c.held ++ [p] }
  else if p.endTok then gcmDecEnd s u tag step e p.prov mm
  else
    let acc := c.acc ++ p.data
    if c.acc.length < 32 ∧ 32 ≤ acc.length ∧ !gcmHeaderOk acc then
      cipFail (cipCount s u tag p.data.length 0) u tag step 0x10
    else
      let s := if 32 ≤ acc.length then gcmAdmit s u tag step acc else s
      let c := ctxOf s tag step
      if c.waitsHold then setCtx s tag step { c with held := c.held ++ [p] }
      else gcmDecData s u tag step e p mm

/-! ## The station -/

/-- A ticket's first data reaches the engine: the checks, the key, and the handle of a part, whose context the engine takes into its own
(R386, R387, R394, R397). -/
def cipBegin (s : State) (u tag : Nat) (e : Entry) (step mode : Nat) : Except Nat State :=
  match cipCheck s e mode with
  | some st => .error st
  | none =>
    if mode ≤ 1 then
      if duLen e = 0 ∨ (512 ≤ duLen e ∧ duLen e ≤ 65536) then .ok (cacheKey s u tag e.t.keySlot (slotOf s e.t.keySlot).gen)
      else .error 0x10
    else if !gcmParamOk mode e then .error 0x10
    else match gcmHandleCheck s tag e with
      | some st => .error st
      | none =>
        let s := cacheKey s u tag e.t.keySlot (slotOf s e.t.keySlot).gen
        if gcmPart e = 0 then .ok s
        else
          let x := handleOf s e.t.inst (gcmHandle e)
          let s := setCtx s tag step { ctxOf s tag step with gcm := x.save }
          .ok (setHandle s e.t.inst (gcmHandle e) { x with user := some tag })

/-- A packet or end token of a ticket is taken by engine `u` in its mode. -/
def cipTake (s : State) (u tag : Nat) (e : Entry) (step mode : Nat) (p : Packet) (mm : Option Nat) : State :=
  let begun := if firstData s tag step then cipBegin s u tag e step mode else .ok s
  match begun with
  | .error st => cipFail (cipCount s u tag p.data.length 0) u tag step st
  | .ok s =>
    if mode = 3 then gcmDecTake s u tag step e p mm
    else if p.endTok then
      if mode = 2 then gcmEncEnd s u tag step e p.prov mm else xtsEnd s u tag step e (mode == 0) p.prov mm
    else if mode = 2 then gcmEncData s u tag step e p mm
    else if duLen e = 0 then xtsPacket s u tag step e (mode == 0) p mm
    else xtsStream s u tag step e (mode == 0) p mm

/-- The engine takes the front of its queue for a step in `mode`. An end token waits until every byte it counts has
come. -/
def cipServe (s : State) (u mode : Nat) (mm : Option Nat) : State :=
  serveFront s u 0x07 (· == mode) (fun s tag e j _ w =>
    match w with
    | .start _ _ _ _ => failAt s tag j u 0x01
    | .pkt p =>
      if p.endTok && !(ctxOf s tag j).waitsHold && !tokenReady s p j then enqueue s u w
      else cipTake s u tag e j mode p mm)

/-- XTS_ENC (R388): engine `unit` takes the next work of its queue in mode 0. -/
def execXtsEnc (unit : Nat) (mismatch : Option Nat) (s : State) : Out := .next (cipServe s unit 0 mismatch)

/-- XTS_DEC (R388): mode 1. -/
def execXtsDec (unit : Nat) (mismatch : Option Nat) (s : State) : Out := .next (cipServe s unit 1 mismatch)

/-- GCM_ENC (R392): mode 2. -/
def execGcmEnc (unit : Nat) (mismatch : Option Nat) (s : State) : Out := .next (cipServe s unit 2 mismatch)

/-- GCM_DEC (R396): mode 3. -/
def execGcmDec (unit : Nat) (mismatch : Option Nat) (s : State) : Out := .next (cipServe s unit 3 mismatch)

/-- The earliest ticket that waits for room in hardware `h` of engine `unit` takes its reservation when it fits, and its stalled input
comes to the front of the engine's queue. -/
def holdRoomFree (unit : Nat) (s : State) (h : Nat) : State :=
  match Tab.getD s.key.holdWait h [] with
  | [] => s
  | tag :: rest =>
    match entryOf s tag, stepInside s unit tag with
    | some _, some j =>
      let c := ctxOf s tag j
      let acc := c.acc ++ c.held.flatMap (·.data)
      let need := holdNeed (gcmTextLen acc)
      if 262144 < holdUsed s h + need then s
      else
        let s := setKey s { s.key with holdWait := Tab.put [] s.key.holdWait h rest }
        let s := reserveHold s h tag need
        let s := setCtx s tag j { c with waitsHold := false, held := [] }
        setInbox s unit (c.held.map Work.pkt ++ inboxOf s unit)
    | _, _ => setKey s { s.key with holdWait := Tab.put [] s.key.holdWait h rest }

/-- GCM_HOLD_ROOM_FREE (R396): in the engine's own hardware and in the spare's that serves for it. -/
def execGcmHoldRoomFree (unit : Nat) (s : State) : Out :=
  let spare := (unitOf s 181).state = .bound ∧ (unitOf s 181).serves = unit
  .next ((if spare then [unit, 181] else [unit]).foldl (holdRoomFree unit) s)

end Sys2Proof.Machine
end

