-- ==== Sys2Proof/Machine/Compress.lean ====
section
/-! DEFINITION. The compression engines (09_compression.md): slots and streams, self-verify and the second decoder. The LZ
coder itself is Config's; a command says whether a datapath failed. -/

namespace Sys2Proof.Machine

/-! ## Slot packets (R272–R274, R347) -/

/-- The STATION field of a unit or slot packet: INDEX, CLASS, SLOT, NOFIT (R347; bit 0 here is bit 128 of the header). -/
def slotStation (idx cls : Nat) (slot nofit : Bool) : Nat :=
  idx % 2 ^ 40 + cls % 4 * 2 ^ 40 + b2n slot * 2 ^ 42 + b2n nofit * 2 ^ 43

/-- INDEX of a STATION field. -/
def stIndex (st : Nat) : Nat := fld st 39 0
/-- CLASS. -/
def stClass (st : Nat) : Nat := fld st 41 40
/-- SLOT. -/
def stSlot (st : Nat) : Bool := bitOf st 42
/-- NOFIT. -/
def stNofit (st : Nat) : Bool := bitOf st 43

/-- Bytes of a slot of a class (R272). -/
def classBytes (c : Nat) : Nat := 1024 * (c + 1)

/-- The class of a compressed length (R274): 3 where it does not fit. -/
def classFor (clen : Nat) : Nat :=
  if 8 + clen ≤ 1024 then 0 else if 8 + clen ≤ 2048 then 1 else if 8 + clen ≤ 3072 then 2 else 3

/-- The slot of a class 0–2 unit: header, compressed data, zeros (R273). -/
def slotBytes (cls : Nat) (code unit : Bytes) : Bytes :=
  fit (classBytes cls) (natLe 2 code.length ++ [1#8, 0#8] ++ natLe 4 (crc32c unit).toNat ++ code)

/-! ## An engine's registers and failures -/

/-- Count bytes in and out (R367). -/
def cmpCount (s : State) (u tag inB outB : Nat) : State :=
  bump64 (bump64 s (cmpReg s u tag Reg.CMP_ENG_IN_LO) inB) (cmpReg s u tag Reg.CMP_ENG_OUT_LO) outB

/-- The engine ends the ticket with a failure, and its counter (R368). -/
def cmpFail (s : State) (u tag step status : Nat) : State :=
  let s := match status with
    | 0x07 => bump s (cmpReg s u tag Reg.CMP_ENG_ERR) 31 24 1
    | 0x06 => bump s (cmpReg s u tag Reg.CMP_ENG_ERR) 15 8 1
    | 0x05 => bump s (cmpReg s u tag Reg.CMP_ENG_ERR) 7 0 1
    | _ => s
  failAt s tag step u status

/-- A disagreement under R349 or R353: VERIFY_MISMATCH, counted towards MISMATCH_LIMIT. -/
def cmpMismatch (s : State) (u tag step : Nat) : State :=
  countMismatch (cmpFail s u tag step 0x07) u (eff s Reg.CMP_CFG 3 0) (some tag)

/-- A later step of the line is a staging buffer (R274, R350). -/
def feedsStaging (s : State) (e : Entry) (step : Nat) : Bool :=
  ((stepsOf s e).drop (step + 1)).any (fun st => stepKind st == 0x0F)

/-! ## Self-verify (R349) -/

/-- Self-verify agrees: the first decoder gives the original back from the code, as its datapath does (`ok`); the CRC of the same bytes
then agrees too. -/
def verifies (code original : Bytes) (ok : Bool) : Bool := ok && Config.lzDecode code == original

/-! ## Mode 0: slots from units (R348–R351) -/

/-- One unit becomes a slot (R348–R350). `ok`: no datapath of the self-verify failed. -/
def compressUnit (s : State) (u tag step : Nat) (e : Entry) (unit : Bytes) (station : Nat) (prov ok : Bool) : State :=
  let code := Config.lzCode unit
  let cls := classFor code.length
  let c := ctxOf s tag step
  let s := setCtx s tag step { c with count := c.count + 1 }
  let emitSlot : State → Bytes → Nat → State := fun s bs st =>
    cmpCount (countCtx (sendData s tag step u c.count (4096 * c.count) bs st prov) tag step 0 bs.length) u tag 0 bs.length
  if cls = 3 then
    let s := bump s (cmpReg s u tag Reg.CMP_ENG_CLASS23) 31 16 1
    let s := if feedsStaging s e step then bump s Reg.FTL_PACK 31 16 1
      else if (ctxOf s tag step).failed then s
      else report s tag u 0x04
    emitSlot s unit (slotStation (stIndex station) 3 true true)
  else if !verifies code unit ok then cmpMismatch s u tag step
  else
    let s := match cls with
      | 0 => bump s (cmpReg s u tag Reg.CMP_ENG_CLASS01) 15 0 1
      | 1 => bump s (cmpReg s u tag Reg.CMP_ENG_CLASS01) 31 16 1
      | _ => bump s (cmpReg s u tag Reg.CMP_ENG_CLASS23) 15 0 1
    emitSlot s (slotBytes cls code unit) (slotStation (stIndex station) cls true false)

/-- Whole units in the buffer are compressed (R348); a unit whose first byte came in packet `p` takes its STATION. -/
def compressUnits : Nat → State → Nat → Nat → Nat → Entry → Packet → Bool → State
  | 0, s, _, _, _, _, _, _ => s
  | f + 1, s, u, tag, step, e, p, ok =>
    let c := ctxOf s tag step
    if c.buf.length < 4096 ∨ !stillRuns s tag then s
    else
      let s := setCtx s tag step { c with buf := c.buf.drop 4096, station := p.station }
      let s := compressUnit s u tag step e (c.buf.take 4096) c.station c.prov ok
      compressUnits f s u tag step e p ok

/-- A packet of mode 0. -/
def slotCompressData (s : State) (u tag step : Nat) (e : Entry) (p : Packet) (ok : Bool) : State :=
  let c := ctxOf s tag step
  let s := setCtx s tag step { c with
    inBytes := c.inBytes + p.data.length, buf := c.buf ++ p.data, prov := c.prov || p.prov,
    station := if c.buf.isEmpty then p.station else c.station }
  compressUnits 3 (cmpCount s u tag p.data.length 0) u tag step e p ok

/-! ## The decoders (R352, R353, R358) -/

/-- What decoding came to: the bytes, whether the second decoder recovered them, or a status. -/
inductive Decoded where
  | ok (bs : Bytes) (retried : Bool)
  | fail (status : Nat)
  | lost
  | differ

/-- Decode compressed data to exactly `n` bytes against a CRC. A short result is FORMAT before its CRC is looked at (DESIGN CHOICE,
log 210). `faults`: what the first and the second decoder answer
where one of them fails (`none`: what the data decodes to). -/
def decodeData (data : Bytes) (n check : Nat) (faults : Option Bytes × Option Bytes) : Decoded :=
  let o1 := faults.1.getD (Config.lzDecode data)
  let o2 := faults.2.getD (Config.lzDecode data)
  let good : Bytes → Bool := fun o => o.length == n && (crc32c o).toNat == check
  if n < o1.length then .fail 0x06
  else if o1.length < n then .fail 0x10
  else if good o1 then .ok o1 false
  else if good o2 then .ok o2 true
  else if o1 = o2 then .lost
  else .differ

/-! ## Mode 1: units from slots (R352, R353) -/

/-- A slot packet of mode 1. -/
def slotDecompressData (s : State) (u tag step : Nat) (e : Entry) (p : Packet)
    (faults : Option Bytes × Option Bytes) : State :=
  let cls := stClass p.station
  let s := cmpCount (countCtx s tag step p.data.length 0) u tag p.data.length 0
  let put : State → Bytes → State := fun s bs =>
    cmpCount (sendUnit s tag step u p bs (slotStation (stIndex p.station) 0 false false) p.prov) u tag 0 bs.length
  let clen := leAt p.data 0 2
  if !stSlot p.station || p.data.length != classBytes cls then cmpFail s u tag step 0x10
  else if cls = 3 then put s p.data
  else if leAt p.data 2 1 ≠ 1 ∨ leAt p.data 3 1 ≠ 0 ∨ clen < 1 ∨ classBytes cls < 8 + clen then cmpFail s u tag step 0x10
  else match decodeData (slice p.data 8 clen) 4096 (leAt p.data 4 4) faults with
    | .ok bs retried => put (if retried then bump s (cmpReg s u tag Reg.CMP_ENG_ERR) 23 16 1 else s) bs
    | .fail st => cmpFail s u tag step st
    | .lost => cmpFail (recordLost s u e.t.inst (lostDetail (stIndex p.station) 0xFF 0xFF 0xFFFF)) u tag step 0x0F
    | .differ => cmpMismatch s u tag step

/-! ## Mode 2: stream records from bytes (R354–R356) -/

/-- A record of R354: header, data, zeros to a multiple of 64 bytes. -/
def streamRecord (piece : Bytes) : Bytes × Bool :=
  let code := Config.lzCode piece
  let up : Nat → Nat := fun n => ceilDiv (16 + n) 64 * 64
  let packed := decide (up code.length < up piece.length) && decide (code.length < 65536)
  let data := if packed then code else piece
  (fit (up data.length) (natLe 2 piece.length ++ natLe 2 data.length ++ natLe 1 (b2n packed) ++ zeros 3 ++
    natLe 4 (crc32c piece).toNat ++ zeros 4 ++ data), packed)

/-- LIMIT of PARAM (R346). -/
def limitOf (e : Entry) : Nat := fld e.t.param 63 32

/-- One piece becomes a record; output that would exceed LIMIT ends the ticket with NO_SPACE (R356). -/
def compressPiece (s : State) (u tag step : Nat) (e : Entry) (piece : Bytes) (ok : Bool) : State :=
  let r := streamRecord piece
  let out := (ctxOf s tag step).outBytes
  if r.2 && !verifies (Config.lzCode piece) piece ok then cmpMismatch s u tag step
  else if limitOf e ≠ 0 ∧ limitOf e < out + r.1.length then cmpFail s u tag step 0x05
  else cmpCount (sendOut s tag step u r.1 0 true) u tag 0 r.1.length

/-- A packet of mode 2: whole pieces become records. -/
def streamCompressData (s : State) (u tag step : Nat) (e : Entry) (p : Packet) (ok : Bool) : State :=
  let c := ctxOf s tag step
  let buf := c.buf ++ p.data
  let n := buf.length / 4096
  let s := setCtx s tag step { c with
    inBytes := c.inBytes + p.data.length, buf := buf.drop (4096 * n), prov := c.prov || p.prov }
  (chunks 4096 n buf).foldl (fun s piece => if stillRuns s tag then compressPiece s u tag step e piece ok else s)
    (cmpCount s u tag p.data.length 0)

/-! ## Mode 3: bytes from stream records (R357, R358) -/

/-- The output bound (R357). -/
def streamBound (e : Entry) (inBytes : Nat) : Nat :=
  min (if limitOf e = 0 then 268435456 else limitOf e) (64 * inBytes)

/-- A record's original bytes, or how it fails (R358). -/
def decodeRecord (rcd : Bytes) (faults : Option Bytes × Option Bytes) : Decoded :=
  let olen := leAt rcd 0 2
  let clen := leAt rcd 2 2
  let data := slice rcd 16 clen
  if leAt rcd 4 1 = 0 then
    if (crc32c data).toNat = leAt rcd 8 4 then .ok data false else .fail 0x10
  else match decodeData data olen (leAt rcd 8 4) faults with
    | .fail _ => .fail 0x10
    | .lost => .fail 0x10
    | d => d

/-- The header of a record is well formed (R358). -/
def recordHeadOk (h : Bytes) : Bool :=
  decide (1 ≤ leAt h 0 2) && decide (leAt h 0 2 ≤ 4096) && decide (leAt h 4 1 ≤ 1) && isZero h 5 3 && isZero h 12 4 &&
    (leAt h 4 1 != 0 || leAt h 2 2 == leAt h 0 2)

/-- The bytes of a whole record. -/
def recordSize (h : Bytes) : Nat := ceilDiv (16 + leAt h 2 2) 64 * 64

/-- Whole records in the buffer are decoded and their bytes sent on with PROV set (R357). `answers`: what the decoders answer for each
record in turn. -/
def decodeRecords : Nat → State → Nat → Nat → Nat → Entry → List (Option Bytes × Option Bytes) → State
  | 0, s, _, _, _, _, _ => s
  | f + 1, s, u, tag, step, e, answers =>
    let c := ctxOf s tag step
    if c.buf.length < 16 ∨ !stillRuns s tag then s
    else if !recordHeadOk c.buf then cmpFail s u tag step 0x10
    else
      let n := recordSize c.buf
      if c.buf.length < n then s
      else
        let rcd := c.buf.take n
        let s := setCtx s tag step { c with buf := c.buf.drop n }
        if !isZero rcd (16 + leAt rcd 2 2) (n - 16 - leAt rcd 2 2) then cmpFail s u tag step 0x10
        else match decodeRecord rcd (answers.headD (none, none)) with
          | .ok bs retried =>
            let s := if retried then bump s (cmpReg s u tag Reg.CMP_ENG_ERR) 23 16 1 else s
            if streamBound e c.inBytes < c.outBytes + bs.length then cmpFail s u tag step 0x06
            else decodeRecords f (cmpCount (sendOut s tag step u bs 0 true) u tag 0 bs.length) u tag step e (answers.drop 1)
          | .fail st => cmpFail s u tag step st
          | .lost => cmpFail s u tag step 0x10
          | .differ => cmpMismatch s u tag step

/-- A packet of mode 3. -/
def streamDecompressData (s : State) (u tag step : Nat) (e : Entry) (p : Packet)
    (answers : List (Option Bytes × Option Bytes)) : State :=
  let c := ctxOf s tag step
  let s := setCtx s tag step { c with
    inBytes := c.inBytes + p.data.length, buf := c.buf ++ p.data, prov := c.prov || p.prov }
  decodeRecords (c.buf.length + p.data.length) (cmpCount s u tag p.data.length 0) u tag step e answers

/-! ## The end of a ticket's input -/

/-- What an engine does at the end token, by mode (R351, R355–R358). -/
def cmpEnd (s : State) (u tag step : Nat) (e : Entry) (mode : Nat) (prov ok : Bool) : State :=
  let c := ctxOf s tag step
  match mode with
  | 0 => if c.buf.isEmpty then endOut s tag step u c.inBytes prov else cmpFail s u tag step 0x10
  | 2 =>
    let s := if c.buf.isEmpty then s
      else compressPiece (setCtx s tag step { c with buf := [] }) u tag step e c.buf ok
    if stillRuns s tag then endOut s tag step u (ctxOf s tag step).inBytes prov else s
  | 3 =>
    if !c.buf.isEmpty then cmpFail s u tag step 0x10
    else if streamBound e c.inBytes < c.outBytes then cmpFail s u tag step 0x06
    else endOut s tag step u c.inBytes prov
  | _ => endOut s tag step u c.inBytes prov

/-- Engine `u` takes the front of its queue for a step in `mode`. -/
def cmpServe (s : State) (u mode : Nat) (ok : Bool) (answers : List (Option Bytes × Option Bytes)) : State :=
  serveFront s u 0x06 (· == mode) (fun s tag e j _ w =>
    match w with
    | .start _ _ _ _ => failAt s tag j u 0x01
    | .pkt p =>
      if p.endTok then
        if tokenReady s p j then cmpEnd s u tag j e mode p.prov ok else enqueue s u w
      else match mode with
        | 0 => slotCompressData s u tag j e p ok
        | 1 => slotDecompressData s u tag j e p (answers.headD (none, none))
        | 2 => streamCompressData s u tag j e p ok
        | _ => streamDecompressData s u tag j e p answers)

/-- SLOT_COMPRESS (R348): engine `unit` takes the next work of its queue in mode 0; `verified`: self-verify agreed. -/
def execSlotCompress (unit : Nat) (verified : Bool) (s : State) : Out := .next (cmpServe s unit 0 verified [])

/-- SLOT_DECOMPRESS (R352): mode 1; `first` and `second`: what a failing decoder answers. -/
def execSlotDecompress (unit : Nat) (first second : Option Bytes) (s : State) : Out :=
  .next (cmpServe s unit 1 true [(first, second)])

/-- STREAM_COMPRESS (R355): mode 2. -/
def execStreamCompress (unit : Nat) (verified : Bool) (s : State) : Out :=
  .next (cmpServe s unit 2 verified [])

/-- STREAM_DECOMPRESS (R357): mode 3. `first`, `second`: what the two decoders answer for each record in turn. -/
def execStreamDecompress (unit : Nat) (first second : List (Option Bytes)) (s : State) : Out :=
  .next (cmpServe s unit 3 true (first.zip second))

end Sys2Proof.Machine
end

