-- ==== Sys2Proof/Machine/Digest.lean ====
section
/-! DEFINITION. The digest engines (11_digest.md): PASS and SINK steps, the HMAC cache, and the feed port. -/

namespace Sys2Proof.Machine

/-! ## Line tickets (R416–R422) -/

/-- ALG and MSG_LEN of PARAM (R417). -/
def dgtAlg (e : Entry) : Nat := fld e.t.param 39 32
/-- MSG_LEN of PARAM (R417). -/
def dgtLen (e : Entry) : Nat := fld e.t.param 31 0

/-- An HMAC code (R415). -/
def isHmac (alg : Nat) : Bool := decide (0x11 ≤ alg) && decide (alg ≤ 0x13)

/-- The register of engine `u` (R433). -/
def dgtReg (u a : Nat) : Nat := a + 0x80 * (u - 144)

/-- The result area of an instance (R432): its entry, at DGT_RESULT[i]. -/
def resultArea (s : State) (i : Nat) : Nat := effWord s (Reg.DGT_RESULT + 4 * i)

/-- The checks of R417, in order: the status of the first that fails. -/
def dgtCheck (s : State) (e : Entry) (mode : Nat) (last : Bool) : Option Nat :=
  let alg := dgtAlg e
  let needsArea := mode = 0 ∨ last
  if (algSizes alg).1 = 0 ∨ fld e.t.param 63 40 ≠ 0 then some 0x10
  else if isHmac alg && !(e.t.keySlot != 0xFFFF && (slotOf s e.t.keySlot).kind == 4) then some 0x10
  else if decide needsArea && !bitOf (resultArea s e.t.inst) 31 then some 0x10
  else if mode = 1 ∧ last ∧ e.t.dest.kind ≠ 0 then some 0x10
  else none

/-- A computation in flight uses the slot's HMAC entry: a digest step with an HMAC code that has begun and not fallen back, or an open
feed computation (R421). -/
def hmacInUse (s : State) (slot : Nat) : Bool :=
  s.stn.ctx.any (fun p => match entryOf s (p.1 / 16) with
    | some e => e.t.keySlot == slot && isHmac (dgtAlg e) && p.2.count != 1 && !e.fenced && !e.revoking &&
        (((stepsOf s e)[p.1 % 16]?).map stepKind) == some 0x08
    | none => false) ||
    s.dgt.feeds.any (fun p => p.2.opened && p.2.key.map (·.1) == some slot)

/-- The use of a slot's HMAC key states (R421, R422): the cache with the entry most recently used, and whether the
computation falls back because every entry is in use. -/
def hmacUse (s : State) (slot gen : Nat) : State × Bool :=
  let l := s.key.hmac.filter (fun p => p.1 != slot)
  if s.key.hmac.contains (slot, gen) ∨ l.length < 256 then
    (setKey s { s.key with hmac := l ++ [(slot, gen)] }, false)
  else match l.find? (fun p => !hmacInUse s p.1) with
    | some x => (setKey s { s.key with hmac := l.filter (· != x) ++ [(slot, gen)] }, false)
    | none => (s, true)

/-- The engine ends the ticket with a failure. -/
def dgtFail (s : State) (u tag step status : Nat) : State :=
  failAt (if status = 0x01 then bump s (dgtReg u Reg.DGT_ENG_COUNTS) 23 16 1 else s) tag step u status

/-- A ticket's first data: the checks, and the HMAC entry. `count` of the context holds FALLBACK. -/
def dgtBegin (s : State) (u tag : Nat) (e : Entry) (step mode : Nat) : Except Nat State :=
  match dgtCheck s e mode (isLast s e step) with
  | some st => .error st
  | none =>
    if !isHmac (dgtAlg e) then .ok s
    else
      let r := hmacUse s e.t.keySlot (slotOf s e.t.keySlot).gen
      if r.2 then
        let s := bump r.1 (dgtReg u Reg.DGT_ENG_COUNTS) 15 8 1
        .ok (setCtx s tag step { ctxOf s tag step with count := 1 })
      else .ok r.1

/-- The digest of the bytes hashed. -/
def dgtDigest (s : State) (e : Entry) (bs : Bytes) : Bytes :=
  if isHmac (dgtAlg e) then hmacOf (dgtAlg e) (slotOf s e.t.keySlot).key bs else hashOf (dgtAlg e) bs

/-- The result record (R419). -/
def resultRecord (tag : Nat) (e : Entry) (status hashed : Nat) (fallback : Bool) (digest : Bytes) : Bytes :=
  natLe 2 tag ++ natLe 1 (dgtAlg e) ++ natLe 1 status ++ natLe 4 e.t.cookie ++ natLe 8 hashed ++
    natLe 1 (b2n fallback) ++ zeros 15 ++ fit 64 digest ++ zeros 32

/-- Write a result record to the instance's result area (R420). -/
def writeResult (s : State) (tag : Nat) (e : Entry) (bs : Bytes) : State :=
  lmemWrite s e.t.inst (fld (resultArea s e.t.inst) 27 0 * 4096 + 128 * tag) bs

/-- A packet: its bytes are hashed, at most MSG_LEN of them, and pass on in mode 0. -/
def dgtData (s : State) (u tag step : Nat) (e : Entry) (mode : Nat) (p : Packet) : State :=
  let c := ctxOf s tag step
  let all := c.acc ++ p.data
  let acc := if dgtLen e = 0 then all else all.take (dgtLen e)
  let s := setCtx s tag step { c with inBytes := c.inBytes + p.data.length, acc := acc, prov := c.prov || p.prov }
  if mode = 0 then sendUnit s tag step u p p.data p.station p.prov else s

/-- The end of the ticket's input (R418, R420): at the last step a token with PROV 1 is a revoke token (R172); SHORT ends it; otherwise the result is written once it is confirmed, or
leaves as the output of a SINK step that is not the last. -/
def dgtEnd (s : State) (u tag step : Nat) (e : Entry) (mode : Nat) (prov : Bool) : State :=
  let c := ctxOf s tag step
  let n := dgtLen e
  if isLast s e step && prov then endProvisional s tag u
  else if n ≠ 0 ∧ c.inBytes < n then dgtFail s u tag step 0x01
  else
    let trunc := decide (n ≠ 0 ∧ n < c.inBytes)
    let s := if trunc then report (bump s (dgtReg u Reg.DGT_ENG_COUNTS) 31 24 1) tag u 0x03 else s
    let bs := resultRecord tag e (if trunc then 3 else 0) c.acc.length (c.count == 1) (dgtDigest s e c.acc)
    let last := isLast s e step
    if mode = 0 ∨ last then
      let s := if prov then s else writeResult s tag e bs
      endOut s tag step u (if mode = 1 then 128 else c.inBytes) prov
    else endOut (sendOut s tag step u bs 0 c.prov) tag step u 128 prov

/-- Engine `u` takes the front of its queue for a step in `mode`. -/
def dgtServe (s : State) (u mode : Nat) : State :=
  serveFront s u 0x08 (· == mode) (fun s tag e j _ w =>
    match w with
    | .start _ _ _ _ => failAt s tag j u 0x01
    | .pkt p =>
      if p.endTok && !tokenReady s p j then enqueue s u w
      else
        let begun := if ctxOf s tag j == {} then dgtBegin s u tag e j mode else .ok s
        match begun with
        | .error st => dgtFail s u tag j st
        | .ok s => if p.endTok then dgtEnd s u tag j e mode p.prov else dgtData s u tag j e mode p)

/-- PASS (R416): engine `unit` takes the next work of its queue in mode 0. -/
def execPass (unit : Nat) (s : State) : Out := .next (dgtServe s unit 0)

/-- SINK (R416): mode 1. -/
def execSink (unit : Nat) (s : State) : Out := .next (dgtServe s unit 1)

/-! ## The feed port (R424–R428, R434) -/

/-- The feed context of engine `i`. -/
def feedOf (s : State) (i : Nat) : Feed := Tab.getD s.dgt.feeds i {}

/-- Replace a feed context. -/
def setFeed (s : State) (i : Nat) (f : Feed) : State :=
  { s with dgt := { s.dgt with feeds := Tab.put {} s.dgt.feeds i f } }

/-- An operation or a message completes with a status (R434). -/
def feedDone (s : State) (i status : Nat) : State :=
  let a := Reg.DGT_FEED_RESULT + 0x80 * i
  setLive (setLive (setFeed s i { feedOf s i with op := 0 }) a 8 8 1) a 7 0 status

/-- The context returns to FREE; a slot that it used has one user less (R374). -/
def feedClose (s : State) (i : Nat) : State :=
  let f := feedOf s i
  let s := match f.key with | some k => releaseSlot s k.1 | none => s
  setFeed s i { op := f.op, digest := f.digest }

/-- A register of the FEED group of engine `i`. -/
def feedReg (s : State) (i a : Nat) : Nat := effWord s (a + 0x80 * i)

/-- ADDR of the FEED group. -/
def feedAddr (s : State) (i : Nat) : Nat :=
  feedReg s i Reg.DGT_FEED_ADDR_LO + feedReg s i Reg.DGT_FEED_ADDR_HI * 2 ^ 32

/-- The state with which a computation opens: the algorithm's, or the inner key state (R421). -/
def feedStartState (alg : Nat) (key : Option Bytes) : Bytes × Bytes :=
  match key with
  | some k => (hmacState alg 0x36 k, hmacState alg 0x5C k)
  | none => (hashSeed alg, [])

/-- FEED_START (R424): opens a computation with ALG, KEY_SLOT and LEN; an HMAC needs a slot that instance 0 holds. -/
def execFeedStart (engine : Nat) (s : State) : Out :=
  let f := feedOf s engine
  if f.op ≠ 1 ∨ f.opened then .next s
  else
    let ctl := feedReg s engine Reg.DGT_FEED_CTL
    let alg := fld ctl 15 8
    let slot := fld ctl 27 16
    let k := slotOf s slot
    let len := feedReg s engine Reg.DGT_FEED_LEN_LO + feedReg s engine Reg.DGT_FEED_LEN_HI * 2 ^ 32
    if (algSizes alg).1 = 0 then .next (feedDone s engine 0x10)
    else if !isHmac alg then
      .next (feedDone (setFeed s engine {
        opened := true, alg := alg, len := len, st := (feedStartState alg none).1 }) engine 0)
    else if k.owner ≠ 0 ∨ (k.state ≠ .loaded ∧ k.state ≠ .pending) then .next (feedDone s engine 0x11)
    else if k.state = .pending then .next (feedDone s engine 0x09)
    else if k.kind ≠ 4 then .next (feedDone s engine 0x10)
    else
      let r := hmacUse s slot k.gen
      let st := feedStartState alg (some k.key)
      .next (feedDone (setFeed (useSlot r.1 slot) engine {
        opened := true, alg := alg, len := len, key := some (slot, k.gen), st := st.1, outer := st.2 }) engine 0)

/-- Bytes 32–431 of a save record (R427). -/
def saveBody (f : Feed) : Bytes := fit 200 f.st ++ fit 136 f.buf ++ fit 64 f.outer

/-- Bytes 0–31 of a save record. -/
def saveHead (form : Nat) (f : Feed) : Bytes :=
  natLe 1 form ++ natLe 1 f.alg ++ natLe 2 ((f.key.map (·.1)).getD 0xFFFF) ++ natLe 4 ((f.key.map (·.2)).getD 0) ++
    natLe 8 f.done ++ natLe 8 f.len ++ natLe 2 f.buf.length ++ zeros 6

/-- The save record: a keyed computation wrapped, a plain one clear (R427, R428); none where the
context key is refused (R652). -/
def saveRecord (s : State) (f : Feed) (iv : Bytes) : Option Bytes :=
  if f.key.isNone then some (saveHead 2 f ++ saveBody f ++ zeros 80)
  else (deviceKey s 2).map (fun k =>
    let w := gcmSeal (fit 32 k) iv (saveHead 1 f) (saveBody f)
    saveHead 1 f ++ fit 400 w.1 ++ iv ++ zeros 4 ++ fit 16 w.2 ++ zeros 48)

/-- SAVE (R424, R428): the save record is written to ADDR and the context freed; the status where the context key is
refused is a free one of the failures of R180 (log 53). -/
def execSave (engine : Nat) (s : State) : Out :=
  let f := feedOf s engine
  if f.op ≠ 2 ∨ !f.opened then .next s
  else match saveRecord s f (freeBytes s.freeCount 12) with
    | none => .next (feedDone (drawn s) engine (freeFailure s))
    | some bs => .next (feedDone (feedClose (hostWrite (drawn s) 0 0 (feedAddr s engine) bs) engine) engine 0)

/-- The checks of RESTORE in order (R428): the computation, or a status. Of BUFFER at most one byte less than a block is taken (DESIGN
CHOICE, log 222). -/
def restoreParse (s : State) (rcd : Bytes) : Except Nat Feed :=
  let form := leAt rcd 0 1
  let alg := leAt rcd 1 1
  let slot := leAt rcd 2 2
  let keyed := isHmac alg
  let k := slotOf s slot
  let ok := (form == 1 || form == 2) && decide ((algSizes alg).1 ≠ 0) && isZero rcd 26 6 && isZero rcd 444 4 &&
    isZero rcd 464 48
  let held := decide (k.owner = 0) && (decide (k.state = .loaded) || decide (k.state = .pending))
  if !ok then .error 0x10
  else if keyed && (form != 1 || !held) then .error 0x11
  else if keyed && leAt rcd 4 4 != k.gen then .error 0x0A
  else
    let body := if form = 2 then some (slice rcd 32 400)
      else (deviceKey s 2).bind (fun k =>
        gcmOpen (fit 32 k) (slice rcd 432 12) (slice rcd 0 32) (slice rcd 32 400) (slice rcd 448 16))
    match body with
    | none => .error 0x08
    | some b => .ok {
        opened := true, alg := alg, key := if keyed then some (slot, k.gen) else none, len := leAt rcd 16 8,
        done := leAt rcd 8 8, st := slice b 0 (stateSize (algBase alg)),
        buf := slice b 200 (min (leAt rcd 24 2) ((algSizes alg).2 - 1)),
        outer := if keyed then slice b 336 (stateSize (algBase alg)) else [] }

/-- RESTORE (R424, R428): the record at ADDR is checked and the computation reopened. -/
def execRestore (engine : Nat) (rcd : Bytes) (s : State) : Out :=
  let f := feedOf s engine
  if f.op ≠ 3 ∨ f.opened then .next s
  else match restoreParse s (fit 512 rcd) with
    | .error st => .next (feedDone s engine st)
    | .ok g =>
      let s := match g.key with | some k => useSlot s k.1 | none => s
      .next (feedDone (setFeed s engine g) engine 0)

/-- ABANDON (R424): the context is zeroed and freed. -/
def execAbandon (engine : Nat) (s : State) : Out :=
  let f := feedOf s engine
  if f.op ≠ 4 ∨ !f.opened then .next s else .next (feedDone (feedClose s engine) engine 0)

/-- A feed write that is ignored (R425). -/
def feedIgnored (s : State) (i : Nat) : State := bump s (Reg.DGT_ENG_COUNTS + 0x80 * i) 7 0 1

/-- Bytes enter the computation: those up to LEN are hashed. -/
def feedPush (f : Feed) (bs : Bytes) : Feed :=
  let take := if f.len = 0 then bs.length else min bs.length (f.len - f.done)
  let r := hashAbsorb (algBase f.alg) 2 f.st (f.buf ++ bs.take take)
  { f with done := f.done + bs.length, st := r.1, buf := r.2 }

/-- The last word has arrived (R426): DONE, TRUNCATED or SHORT, and the context returns to FREE. -/
def feedEnd (s : State) (i : Nat) : State :=
  let f := feedOf s i
  let n := if f.len = 0 then f.done else min f.done f.len
  let keyedBytes := if isHmac f.alg then (algSizes f.alg).2 else 0
  let inner := fit (algSizes f.alg).1 (Config.hashFinal (algBase f.alg) f.st f.buf (keyedBytes + n))
  let short := decide (f.len ≠ 0 ∧ f.done < f.len)
  let trunc := decide (f.len ≠ 0 ∧ f.len < f.done)
  let digest := if short then [] else if isHmac f.alg then hmacClose f.alg f.outer inner else inner
  let a := Reg.DGT_ENG_COUNTS + 0x80 * i
  let s := if short then bump s a 23 16 1 else if trunc then bump s a 31 24 1 else s
  feedDone (feedClose (setFeed s i { f with digest := digest }) i) i (if short then 1 else if trunc then 3 else 0)

/-- A write of FEED_W0 (R425): bytes 0–3 of a word are staged. -/
def feedW0 (s : State) (i v : Nat) : State :=
  let f := feedOf s i
  if f.opened then setFeed s i { f with w0 := v } else feedIgnored s i

/-- A write of FEED_W1 (R425): bytes 4–7, and the whole word is pushed; a word marked last ends the message. -/
def feedW1 (s : State) (i v : Nat) : State :=
  let f := feedOf s i
  if !f.opened then feedIgnored s i
  else
    let bs := natLe 4 f.w0 ++ natLe 4 v
    match f.last with
    | none => setFeed s i (feedPush f bs)
    | some n => feedEnd (setFeed s i (feedPush f (bs.take n))) i

/-- A write of FEED_LAST (R425): VALID 1 to 8 marks the next pushed word, 0 ends the message at once, others are ignored. -/
def feedLast (s : State) (i v : Nat) : State :=
  let f := feedOf s i
  let n := v % 16
  if !f.opened ∨ 8 < n then feedIgnored s i
  else if n = 0 then feedEnd s i
  else setFeed s i { f with last := some n }

/-- FEED_W0 (R425). -/
def execFeedW0 (engine : Nat) (value : Word) (s : State) : Out := .next (feedW0 s engine value.toNat)

/-- FEED_W1 (R425). -/
def execFeedW1 (engine : Nat) (value : Word) (s : State) : Out := .next (feedW1 s engine value.toNat)

/-- FEED_LAST (R425). -/
def execFeedLast (engine : Nat) (value : Word) (s : State) : Out := .next (feedLast s engine value.toNat)

end Sys2Proof.Machine
end

