-- ==== Sys2Proof/Machine/DramBase.lean ====
section
/-! DEFINITION. The code words that stations and cores read and write (R42, R45, R536, R742): the address map and page history of
a DRAM channel (R534–R540), the code words of local memory, and those of a core's own memory. -/

namespace Sys2Proof.Machine

/-- Change the DRAM controller's state. -/
def setDrc (s : State) (d : Drc) : State := { s with drc := d }

/-- Replace DRAM channel `c`. -/
def setDram (s : State) (c : Nat) (x : DChan) : State := setDrc s { s.drc with chans := Tab.set s.drc.chans c x }

/-- The address of channel `c`'s copy of register `a`. -/
def drcReg (a c : Nat) : Nat := a + 0x40 * c

/-! ## Addresses (R534–R538) -/

/-- Usable bytes of an installed capacity (R535). -/
def dramUsable (capacity : Nat) : Nat := capacity / 576 * 512

/-- The physical address of a data offset (R535). -/
def dramPhys (d : Nat) : Nat := d / 512 * 576 + d % 512

/-- The row of a physical address (R537). -/
def dramRow (p : Nat) : Nat := fld p 34 16

/-- Bank bit `j` of a physical address (R538): the base bit and the selected row bits. -/
def bankBit (s : State) (p j : Nat) : Bool :=
  let w := effWord s (Reg.DRC_BANK_SEL + 4 * j)
  (List.range 5).foldl (fun b i =>
    let v := fld w (5 * i + 4) (5 * i)
    xor b (decide (v ≤ 18) && bitOf p (16 + v))) (bitOf p (12 + j))

/-- The bank of a physical address: BA0, BA1, BG0, BG1 from bit 0 on (R537, R538). -/
def dramBank (s : State) (p : Nat) : Nat :=
  b2n (bankBit s p 0) + 2 * b2n (bankBit s p 1) + 4 * b2n (bankBit s p 2) + 8 * b2n (bankBit s p 3)

/-- Bits set in a 4-bit history. -/
def histOnes (h : Nat) : Nat := h % 2 + h / 2 % 2 + h / 4 % 2 + h / 8 % 2

/-- What an access to `row` makes of a bank: the history shifts at the first access after a row was opened, in by 1 where it
names the same row; the bank stays open by PAGE_THRESH (R540). -/
def bankAccess (b : DBank) (row thresh : Nat) : DBank :=
  let hist := if b.opened then (b.hist * 2 + b2n (b.row == some row)) % 16 else b.hist
  { hist := hist, row := some row, isOpen := decide (thresh ≤ histOnes hist),
    opened := !(b.isOpen && b.row == some row) }

/-- An access to the bank and row of `p` on channel `c`; shifts count as HITS and MISSES (R540). -/
def pageAccess (s : State) (c p : Nat) : State :=
  let x := dramOf s c
  let k := dramBank s p
  let b := Tab.getD x.banks k {}
  let s := setDram s c { x with
    banks := Tab.set x.banks k (bankAccess b (dramRow p) (eff s (drcReg Reg.DRC_CH_CFG c) 10 8)) }
  if !b.opened then s
  else if b.row == some (dramRow p) then bump s (drcReg Reg.DRC_CH_PAGE c) 31 16 1
  else bump s (drcReg Reg.DRC_CH_PAGE c) 15 0 1

/-- The access to the group at data offset `d`: its bursts and its check burst. A group that crosses a 4 KiB row boundary needs two
activates (R534). -/
def groupAccess (s : State) (c d : Nat) : State :=
  let g := dramPhys (d / 512 * 512)
  let s := pageAccess s c g
  if (g + 512) / 4096 = g / 4096 then s else pageAccess s c (g + 512)

/-- The accesses to the groups of a range of an instance's local memory. -/
def rangeAccess (s : State) (i a n : Nat) : State :=
  (List.range (if n = 0 then 0 else (a + n - 1) / 512 - a / 512 + 1)).foldl (fun s k =>
    let g := a / 512 + k
    let c := pageChan s i (g / 8)
    if c < 4 then groupAccess s c (Config.dramOffset i (g / 8) + g % 8 * 512) else s) s

/-! ## Code words (R42, R45) -/

/-- What reading a code word with `n` symbols in error gives: 0 good, 1 corrected, 2 uncorrectable; three or more may be
miscorrected, which is free: 2, or 3 for bytes altered without a report (log 9). -/
def symbolRead (s : State) (n : Nat) : Nat × State :=
  if n < 3 then (n, s) else (if Config.freeNat s.freeCount % 2 = 0 then 2 else 3, drawn s)

/-- The symbols in error of a code word after `len` bytes of it are written with `n` symbols injected: what is not written over
stays as it was (log 197). -/
def markAfter (old len n : Nat) : Nat := if len = 32 then n else max old n

/-- The bytes of [a, a + n) that lie in word `w`. -/
def inWord (a n w : Nat) : Nat := min (a + n) (32 * w + 32) - max a (32 * w)

/-! ### Local memory of instances (R536, R548) -/

/-- Set the symbols in error of a code word. -/
def setMark (s : State) (i w n : Nat) : State := setDrc s { s.drc with marks := Tab.put 0 s.drc.marks (lword i w) n }

/-- A code word of channel `c` is read with `n` symbols in error (R42, R45, R536): one is corrected, written back and
counted. `true`: the data may be used. -/
def readWord (s : State) (c i w n : Nat) (tag : Option Nat) : Bool × State :=
  let a := drcReg Reg.DRC_CH_ERR c
  let r := symbolRead s n
  match r.1 with
  | 0 => (true, s)
  | 1 => (true, countCorrected (bump (setMark s i w 0) a 31 16 1) (168 + c) 1 tag)
  | 2 => (false, recordLost (countUncorr (bump (setMark r.2 i w 2) a 15 0 1) (168 + c) 1) (168 + c) i lostUnknown)
  | _ =>
    let t := setMark r.2 i w 0
    (true, { t with lmem := Tab.put [] t.lmem i (memWrite (Tab.getD t.lmem i []) (32 * w) (freeBytes s.freeCount 32)) })

/-- Every code word of a range is read; `false` where one gives no data. -/
def readWords (s : State) (i a n : Nat) (tag : Option Nat) : Bool × State :=
  (wordSpan a n).foldl (fun (r : Bool × State) w =>
    let m := Tab.getD r.2.drc.marks (lword i w) 0
    if m = 0 then r
    else
      let x := readWord r.2 (pageChan r.2 i (w / 128)) i w m tag
      (r.1 && x.1, x.2)) (true, s)

/-- The code words of a range are written: an active DRAM_SYMBOL injection on the channel puts its symbols into the next
ones (R741). -/
def writeWords (s : State) (i a n : Nat) : State :=
  (wordSpan a n).foldl (fun s w =>
    let r := injectedSymbols s 3 (168 + pageChan s i (w / 128))
    let old := Tab.getD s.drc.marks (lword i w) 0
    if r.1 = 0 ∧ old = 0 then s else setMark r.2 i w (markAfter old (inWord a n w) r.1)) s

/-- A range of local memory is read: the banks are accessed, and each code word is checked. A lost page gives no data (R548). -/
def lmemTake (s : State) (i a n : Nat) (tag : Option Nat) : Bool × State :=
  match (pageSpan a n).find? (pageGone s i) with
  | some p => (false, recordLost s (168 + pageChan s i p) i lostUnknown)
  | none => readWords (rangeAccess s i a n) i a n tag

/-- A range of local memory is written. -/
def lmemPut (s : State) (i a : Nat) (bs : Bytes) : State :=
  rangeAccess (writeWords (lmemWrite s i a bs) i a bs.length) i a bs.length

/-! ### The memory of a core (R45, R493) -/

/-- The unit number of core hardware `c`. -/
def coreHw (c : Nat) : Nat := if c < 48 then 72 + c else 182 + (c - 48)

/-- Set the symbols in error of a code word of a core's memory. -/
def setCoreMark (s : State) (c w n : Nat) : State := setCore s c { coreOf s c with marks := Tab.put 0 (coreOf s c).marks w n }

/-- A code word of core `c`'s memory is read with `n` symbols in error, as `readWord`. -/
def readCoreWord (s : State) (c w n : Nat) : Bool × State :=
  let r := symbolRead s n
  match r.1 with
  | 0 => (true, s)
  | 1 => (true, countCorrected (setCoreMark s c w 0) (coreHw c) 1 none)
  | 2 => (false, recordLost (countUncorr (setCoreMark r.2 c w 2) (coreHw c) 1) (coreHw c) (unitOf s (coreUnit s c)).owner lostUnknown)
  | _ => (true, coreMemWrite (setCoreMark r.2 c w 0) c (32 * w) (freeBytes s.freeCount 32))

/-- Every code word of a range of core `c`'s memory is read. -/
def readCore (s : State) (c a n : Nat) : Bool × State :=
  (wordSpan a n).foldl (fun (r : Bool × State) w =>
    let m := Tab.getD (coreOf r.2 c).marks w 0
    if m = 0 then r
    else
      let x := readCoreWord r.2 c w m
      (r.1 && x.1, x.2)) (true, s)

/-- A range of core `c`'s memory is written: an active SRAM_SYMBOL injection on the unit puts its symbols into the next code
words (R741). -/
def writeCore (s : State) (c a : Nat) (bs : Bytes) : State :=
  (wordSpan a bs.length).foldl (fun s w =>
    let r := injectedSymbols s 1 (coreUnit s c)
    let old := Tab.getD (coreOf s c).marks w 0
    if r.1 = 0 ∧ old = 0 then s else setCoreMark r.2 c w (markAfter old (inWord a bs.length w) r.1)) (coreMemWrite s c a bs)

end Sys2Proof.Machine
end

