-- ==== Sys2Proof/Machine/FtlMap.lean ====
section
/-! DEFINITION. The map engine's write side (07_translation_and_recovery.md, 08_media_health_and_discard.md): journal
records, staged slots, pages being filled, program status, retirement and spare space. -/

namespace Sys2Proof.Machine

/-! ## Lifetime counts (R254, R326) -/

/-- Add to the `i`-th count since the last start (tiers 1 to 4, lost, MEDIA_LOST, minutes). -/
def countSince (s : State) (i k : Nat) : State :=
  setFtl s { s.ftl with since := s.ftl.since.set i (s.ftl.since.getD i 0 + k) }

/-! ## Spare space, read-only and health bits (R324, R325, R328) -/

/-- spare_groups (R324). -/
def spareGroups (s : State) : Int :=
  let usable := Tab.keep s.ftl.groups (fun _ x => decide (x.state ≠ .retired))
  let dense := (usable.filter (fun p => p.2.dense)).length
  let sluice := (usable.filter (fun p => !p.2.dense)).length
  let units := (s.ftl.ns.map (fun p => ceilDiv p.2.units 512 * 512)).sum
  let need := ceilDiv (units * 4096) (max 1 ((stripeChans s).length * s.ftl.densePages * 16384)) + sluice + 16 +
    eff s Reg.FTL_CACHE_CFG 31 24
  (dense : Int) - need

/-- avail_spare (R324). -/
def availSpare (s : State) : Nat :=
  let g := spareGroups s
  if g ≤ 0 then 0
  else
    let blocks := (s.ftl.pools.map (fun p => p.2.length)).sum + 32 * g.toNat
    min 100 (100 * blocks / max 1 s.ftl.spareAtFormat)

/-- The device enters READ_ONLY when spare_groups reaches 0 (R325), and warning bits 0 and 3 follow (R328). -/
def judgeSpare (s : State) : State :=
  let s := setHealth s 0 (decide (availSpare s < eff s Reg.FTL_WEAR_CFG 6 0))
  if s.ftl.state = .ready ∧ spareGroups s ≤ 0 then setHealth (setFtl s { s.ftl with state := .readOnly }) 3 true
  else s

/-- A channel or die is offline, a rebuild is queued or running, or a codeword was lost since the last start. -/
def degraded (s : State) : Bool :=
  s.fch.chans.any (fun p => decide (p.2.state = .offline) || decide (p.2.dieOffline ≠ 0)) || !s.fch.losses.isEmpty ||
    (List.range 32).any (fun k => decide (live s (Reg.FCH_CH_UNCORR + 0x40 * k) 31 0 ≠ 0))

/-- Warning bit 2 follows (R328). -/
def judgeDegraded (s : State) : State := setHealth s 2 (degraded s)

/-! ## The map and the journal (R300–R302) -/

/-- A map (2), directory (3) or root (4) page becomes dirty. It is the most recent frame of the on-die tier, and the DRAM tier's copy of
it is stale (R286, R287). -/
def dirtyPage (s : State) (kind n : Nat) : State :=
  let k := mapKey kind n
  let f := s.ftl
  let s := setFtl s { f with
    mapDirty := if f.mapDirty.contains (kind, n) then f.mapDirty else f.mapDirty ++ [(kind, n)],
    dramTier := f.dramTier.filter (· != k) }
  if kind = 4 then s else cachePage s k

/-- The map, directory and root page of an index become dirty (R287). -/
def markDirty (s : State) (idx : Nat) : State :=
  dirtyPage (dirtyPage (dirtyPage s 4 (idx / 134217728)) 3 (idx / 262144)) 2 (idx / 512)

/-- Set or clear the map entry of an index. -/
def mapSet (s : State) (idx : Nat) (m : Option MEntry) : State :=
  let map := match m with
    | some x => Tab.set s.ftl.map idx x
    | none => Tab.erase s.ftl.map idx
  markDirty (setFtl s { s.ftl with map := map, lostUnits := s.ftl.lostUnits.filter (· != idx) }) idx

/-- A unit of ticket `tag` has been programmed: it counts in the OUT_LEN of the writing step (R782). -/
def unitWritten (s : State) (tag : Option Nat) : State :=
  match tag with
  | some t => modEntry s t (fun e => { e with out := e.out + 4096 })
  | none => s

/-- A unit of a durable step is done: programmed and committed, or dropped (R291). The ticket ends with the last unit
once its end token has come. -/
def unitDone (s : State) (tag : Option Nat) : State :=
  match tag with
  | none => s
  | some t =>
    match entryOf s t with
    | none => s
    | some e =>
      let s := setEntry s t { e with left := e.left - 1 }
      if e.ended && decide (e.left ≤ 1) then ackTicket s t e.out else s

/-- Journal pages commit in JSEQ order once both dies have passed (R302). -/
def commitJournal : Nat → State → State
  | 0, s => s
  | f + 1, s =>
    match s.ftl.jpages with
    | [] => s
    | p :: t =>
      if p.first && p.second then
        let s := setFtl s { s.ftl with jpages := t, journal := s.ftl.journal ++ p.recs.map (fun r => (p.jseq, r)) }
        commitJournal f (p.recs.foldl (fun s r => unitDone s r.tag) s)
      else s

/-- The next journal page takes up to 252 held records (R301). -/
def formJournal (s : State) : State :=
  setFtl s { s.ftl with
    jpages := s.ftl.jpages ++ [{ jseq := s.ftl.nextJseq, recs := s.ftl.held.take 252 }],
    held := s.ftl.held.drop 252,
    nextJseq := s.ftl.nextJseq + 1,
    closed := false }

/-- Every held record is committed: its pages pass on both dies (R294 step 3, R304 step 4). -/
def commitAll : Nat → State → State
  | 0, s => s
  | f + 1, s =>
    let s := if s.ftl.held.isEmpty || decide (8 ≤ s.ftl.jpages.length) then s else formJournal s
    let s := setFtl s { s.ftl with jpages := s.ftl.jpages.map (fun p => { p with first := true, second := true }) }
    let s := commitJournal (s.ftl.jpages.length + 1) s
    if s.ftl.held.isEmpty then s else commitAll f s

/-- Commit the journal through its last held record. -/
def commitHeld (s : State) : State := commitAll (s.ftl.held.length + 2) s

/-- A record is held (R302). The 8 MiB journal buffer takes 2,048 pages (R318): what it holds is committed before a record that finds it
full (DESIGN CHOICE, log 215). -/
def hold (s : State) (r : JRec) : State :=
  let s := if 2048 < s.ftl.jpages.length + ceilDiv (s.ftl.held.length + 1) 252 then commitHeld s else s
  setFtl s { s.ftl with held := s.ftl.held ++ [r] }

/-- Every held record is committed, and a CLOSE record after them (R300, R302, R306). -/
def closeJournal (s : State) : State :=
  let s := commitHeld (hold (commitHeld s) { type := 5 })
  setFtl s { s.ftl with closed := true }

/-- JOURNAL_PAGE_PROGRAMMED (R302): page `jseq` passes program status on one die of its pair; the next page to be
formed is formed here (log 31). -/
def execJournalPageProgrammed (jseq die : Nat) (s : State) : Out :=
  let s := if jseq = s.ftl.nextJseq ∧ !s.ftl.held.isEmpty ∧ s.ftl.jpages.length < 8 then formJournal s else s
  let s := setFtl s { s.ftl with jpages := s.ftl.jpages.map (fun p =>
    if p.jseq = jseq then { p with first := p.first || die == 0, second := p.second || die == 1 } else p) }
  .next (commitJournal (s.ftl.jpages.length + 1) s)

/-! ## Staged slots (R163, R278, R291, R331) -/

/-- Take a staged slot out of staging: its room is released, and its 4 KiB leaves SBX_DIRTY. -/
def freeStaged (s : State) (n : Nat) : State :=
  match Tab.get? s.ftl.staging n with
  | none => s
  | some x =>
    let s := setFtl s { s.ftl with staging := Tab.erase s.ftl.staging n }
    { s with sbx := { s.sbx with
      stagingRoom := s.sbx.stagingRoom - x.room, dirty := s.sbx.dirty - (if x.dirty then 4 else 0) } }

/-- A discard takes the units of its index that write-through tickets keep in the buffers: a sealed one's copy becomes garbage (R331,
R336). -/
def dropThrough (s : State) (idx : Nat) : State :=
  (Tab.keys (Tab.keep s.ftl.staging (fun _ x => x.idx == idx && x.tag.isSome))).foldl (fun s n =>
    match Tab.get? s.ftl.staging n with
    | some x =>
      if x.isSealed then setFtl s { s.ftl with staging := Tab.set s.ftl.staging n { x with superseded := true } } else freeStaged s n
    | none => s) s

/-- The staged slot of an index is replaced or discarded: it is zeroed and leaves, or, sealed already, its copy becomes
garbage; a discard takes its 4 KiB out of SBX_DIRTY at once (R291, R331). -/
def dropStaged (s : State) (idx : Nat) (discard : Bool) : State :=
  match Tab.get? s.ftl.stagedAt idx with
  | none => s
  | some n =>
    let s := setFtl s { s.ftl with stagedAt := Tab.erase s.ftl.stagedAt idx }
    match Tab.get? s.ftl.staging n with
    | none => s
    | some x =>
      if !x.isSealed then freeStaged s n
      else
        let fall := discard && x.dirty
        let s := setFtl s { s.ftl with
          staging := Tab.set s.ftl.staging n { x with superseded := true, dirty := x.dirty && !discard } }
        if fall then { s with sbx := { s.sbx with dirty := s.sbx.dirty - 4 } } else s

/-- The lowest 4 KiB place of buffer `b`'s staging space that no slot holds (log 177), in KiB. -/
def freePlace (s : State) (b : Nat) : Nat :=
  let l := s.ftl.staging.filterMap (fun p => if p.2.buffer = b then some p.2.kib else none)
  ((List.range (l.length + 1)).map (· * 4)).find? (fun k => !l.contains k) |>.getD 0

/-- A unit becomes STAGED in buffer `b`. -/
def stageUnit (s : State) (b idx cls : Nat) (bs : Bytes) (room : Nat) (dirty : Bool) : State :=
  let s := dropStaged s idx false
  let n := s.ftl.nextStaged
  let x : Staged := {
    idx := idx, buffer := b, cls := cls, bytes := bs, room := room, dirty := dirty, kib := freePlace s b }
  setFtl s { s.ftl with
    staging := Tab.set s.ftl.staging n x,
    stagedAt := Tab.set s.ftl.stagedAt idx n,
    nextStaged := n + 1 }

/-- A unit becomes STAGED in buffer `b`, its map page in the on-die tier (R278, R286). -/
def stageCached (s : State) (b idx cls : Nat) (bs : Bytes) (room : Nat) (dirty : Bool) : State :=
  cachePage (stageUnit s b idx cls bs room dirty) (mapKey 2 (idx / 512))

/-! ## Pages being filled (R275, R281) -/

/-- Pages of a block that carry data: all but the summary page (R283). -/
def dataPages (s : State) (dense : Bool) : Nat := (if dense then s.ftl.densePages else s.ftl.sluicePages) - 1

/-- The first page from `p` on of group `g` of which channel `ch` is not the parity member. -/
def skipParity (s : State) (g ch : Nat) : Nat → Nat → Nat
  | 0, p => p
  | f + 1, p => if parityCh s g p = ch then skipParity s g ch f (p + 1) else p

/-- The next data page of group `g` on channel `ch`. -/
def nextData (s : State) (g ch : Nat) : Nat :=
  skipParity s g ch 33 (Tab.getD s.ftl.nextPage (g * 32 + ch) 0)

/-- Stripes that are open, and those of the pages being filled (R258). -/
def stripesOpen (s : State) : List Nat :=
  (Tab.keys s.fch.stripes ++ s.fch.chans.flatMap (fun (p : Nat × FChan) =>
    ([p.2.sluicePage, p.2.densePage].filterMap id).map (fun (x : OPage) => x.group * 4096 + x.page))).eraseDups

/-- Root pages in the block of group `g` on channel `ch`, those being filled and programmed included (R283). -/
def rootsIn (s : State) (ch g : Nat) : Nat :=
  let c := chanOf s ch
  let held := ([c.sluicePage, c.densePage].filterMap id ++ c.programs).filter (fun p => p.group == g)
  ((s.fch.pages.filter (fun p => p.1 / 4096 == groupPage s g ch 0 / 4096)).flatMap (·.2) ++
    held.flatMap (·.slots)).countP (fun x => x.kind == 4)

/-- Group `g` has a page for channel `ch`: it is open in the mode, its die is in use there, pages are left, and the page joins
an open stripe or one more may be open: at most `most`, 128 (R258). -/
def hasPage (s : State) (ch : Nat) (dense : Bool) (g : Nat) (most : Nat := 128) : Bool :=
  let x := bgOf s g
  let c := (chanOf s ch).state
  (c = .ready || c = .retraining) && decide (x.state = .opened) && x.dense == dense && !bitOf (chanOf s ch).dieOffline (g / 65536) &&
    decide (nextData s g ch < dataPages s dense) &&
    ((stripesOpen s).contains (g * 4096 + nextData s g ch) || decide ((stripesOpen s).length < most))

/-- The open groups of a mode in rotation, after the one used last (R281). -/
def openGroups (s : State) (dense : Bool) : List Nat :=
  let l := Tab.keys (Tab.keep s.ftl.groups (fun _ x => decide (x.state = .opened) && x.dense == dense))
  l.filter (fun g => decide (s.ftl.lastGroup < g)) ++ l.filter (fun g => decide (g ≤ s.ftl.lastGroup))

/-- The sluice share of the groups (R292), rounded down (DESIGN CHOICE, log 206). -/
def sluiceTarget (s : State) : Nat :=
  eff s Reg.FTL_SLUICE_CFG 2 0 * (s.ftl.groups.filter (fun p => decide (p.2.state ≠ .retired))).length / 100

/-- Sluice groups in use or free. -/
def sluiceGroups (s : State) : Nat := (s.ftl.groups.filter (fun p => !p.2.dense && decide (p.2.state ≠ .retired))).length

/-- Folding starts at FOLD_HIGH and stops at FOLD_LOW; a lowered SLUICE_PCT folds the surplus groups; it stops while fewer than
2 dense groups are free (R292, R293, R299). -/
def judgeFold (s : State) : State :=
  let fill := sluiceFill s
  setFtl s { s.ftl with folding :=
    (decide (eff s Reg.FTL_SLUICE_CFG 22 16 ≤ fill) ||
      (decide (eff s Reg.FTL_SLUICE_CFG 14 8 < fill) && s.ftl.folding) ||
      decide (sluiceTarget s < sluiceGroups s)) && decide (2 ≤ (freeGroups s true).length) }

/-- The erases of group `g` are under way on its channels but those that have failed: a read suspends them (R255), and no page
of the group is taken before their status has come (ERASE_STATUS). -/
def beginErase (s : State) (g : Nat) (fails : List Nat) : State :=
  ((groupChans s g).filter (fun ch => !fails.contains ch)).foldl (fun s ch =>
    let c := chanOf s ch
    setChan s ch { c with erasing := (c.erasing ++ [(g / 65536, memberBlock s g ch)]).eraseDups }) s

/-- The erase of a block on channel `ch` has ended. -/
def endErase (s : State) (ch die block : Nat) : State :=
  let c := chanOf s ch
  setChan s ch { c with erasing := c.erasing.filter (· != (die, block)), suspends := Tab.erase c.suspends die }

/-- A free group that a start found is erased again before its first program (R294; log 178): its counts and the charge of the
erase (R247, R320); reads suspend it, and no program of it ends before it (R255). -/
def eraseAgain (s : State) (g : Nat) : State :=
  let x := bgOf s g
  if x.stale then
    setBg (beginErase (book s 2 (120000 * (groupChans s g).length)) g []) g { x with
      stale := false, ecDense := x.ecDense + b2n x.dense, ecSluice := x.ecSluice + b2n !x.dense }
  else s

/-- No block of group `g` is being erased. -/
def eraseOver (s : State) (g : Nat) : Bool :=
  (groupChans s g).all (fun ch => !(chanOf s ch).erasing.contains (g / 65536, memberBlock s g ch))

/-- Open a free group of the mode: the lowest wear, the lowest (d, b) on a tie; at most 16 of a mode are open, and no two
open groups share a die number (R281, R321). -/
def openGroup (s : State) (dense : Bool) (except : List Nat) : State :=
  let opened := Tab.keys (Tab.keep s.ftl.groups (fun _ x => decide (x.state = .opened)))
  if 16 ≤ (openGroups s dense).length then s
  else
    let free := (freeGroups s dense).filter (fun g =>
      !except.contains g && eraseOver s g && !opened.any (fun h => h / 65536 == g / 65536))
    match leastBy (fun g => wearOf s (bgOf s g)) free with
    | none => s
    | some g =>
      let s := eraseAgain s g
      judgeFold (setBg s g { bgOf s g with state := .opened })

/-- Take a page for channel `ch`: its group and page number. -/
def allocPage (s : State) (ch : Nat) (dense : Bool) (except : List Nat) (most : Nat := 128) : Option (Nat × Nat × State) :=
  let pick : State → Option Nat := fun s => (openGroups s dense).find? (fun g => !except.contains g && hasPage s ch dense g most)
  let s := if (pick s).isSome then s else openGroup s dense except
  (pick s).map (fun g =>
    let p := nextData s g ch
    (g, p, setFtl s { s.ftl with nextPage := Tab.set s.ftl.nextPage (g * 32 + ch) (p + 1), lastGroup := g }))

/-- The page that channel `ch` fills in a mode. -/
def curPage (s : State) (ch : Nat) (dense : Bool) : Option OPage :=
  if dense then (chanOf s ch).densePage else (chanOf s ch).sluicePage

/-- Replace the page that channel `ch` fills. -/
def setCur (s : State) (ch : Nat) (dense : Bool) (p : Option OPage) : State :=
  let c := chanOf s ch
  setChan s ch (if dense then { c with densePage := p } else { c with sluicePage := p })

/-- A copy whose map entry no longer equals its source entry, or whose index a sealed write-through unit is about to write, and a
staged slot that nothing points at, are left out of a page at its sealing (R291, R295). -/
def stillWanted (s : State) (x : FSlot) : Bool :=
  match x.stg, x.source with
  | some n, _ => match Tab.get? s.ftl.staging n with
    | some y => !y.superseded
    | none => false
  | none, some (page, q) =>
    if x.kind = 1 then
      (match Tab.get? s.ftl.map x.idx with
        | some m => m.page == page && m.quarter == q
        | none => false) && (Tab.get? s.ftl.stagedAt x.idx).isNone &&
        !s.ftl.staging.any (fun p => p.2.idx == x.idx && p.2.tag.isSome && p.2.isSealed)
    else match Tab.get? s.ftl.mapAt (mapKey x.kind x.pageNo) with
      | some m => m.page == page && m.quarter == q
      | none => false
  | none, none => true

/-- A page whose stripe has become one in which `ch` carries the parity, because the offline set changed before any member was
sealed, moves to another page of the channel (R281). -/
def movePage (s : State) (ch : Nat) (pg : OPage) : State × OPage :=
  if parityCh s pg.group pg.page = ch then
    match allocPage s ch pg.dense [] with
    | some (g, p, s) => (s, { pg with group := g, page := p })
    | none => (s, pg)
  else (s, pg)

/-- What a slot left out at a sealing leaves behind: a sealed slot whose page failed and that a later one replaced since leaves
staging here, its 4 KiB with it (R291). -/
def slotGone (s : State) (x : FSlot) : State :=
  unitDone (match x.stg with
    | some n => freeStaged s n
    | none => s) x.tag

/-- The namespaces of the data units of a list of slots. -/
def namesOf (s : State) (l : List FSlot) : List Nat := l.filterMap (fun x => if x.kind = 1 then nsOfIndex s x.idx else none)

/-- Group `g` takes the presence bits of namespaces (R332). -/
def notePresent (s : State) (g : Nat) (names : List Nat) : State :=
  let x := bgOf s g
  setBg s g { x with present := (x.present ++ names).eraseDups }

/-- Seal a page of channel `ch`: its units take one contiguous run of sequence numbers (R276), it joins its stripe
(R256), its group the presence bits of its units (R332), and it waits for its program status. -/
def sealWith (s : State) (ch : Nat) (pg : OPage) : State :=
  let r := movePage s ch pg
  let s := r.1
  let pg := r.2
  let gone := pg.slots.filter (fun x => !stillWanted s x)
  let kept := pg.slots.filter (stillWanted s)
  let n := s.ftl.nextSeq
  let slots := (List.range kept.length).filterMap (fun i => kept[i]?.map (fun x => { x with seq := n + i }))
  let s := setFtl s { s.ftl with
    nextSeq := n + kept.length,
    staging := Tab.mapVals s.ftl.staging (fun k x => if kept.any (fun y => y.stg == some k) then { x with isSealed := true } else x) }
  let key := pg.group * 4096 + pg.page
  let st := Tab.getD s.fch.stripes key { chans := groupChans s pg.group, since := s.now }
  let s := setFch s { s.fch with stripes := Tab.set s.fch.stripes key { st with members := st.members ++ [ch] } }
  let s := notePresent s pg.group (namesOf s slots)
  let s := setChan s ch { chanOf s ch with programs := (chanOf s ch).programs ++ [{ pg with slots := slots }] }
  gone.foldl slotGone s

/-- Seal the page that channel `ch` fills. -/
def sealPage (s : State) (ch : Nat) (dense : Bool) : State :=
  match curPage s ch dense with
  | none => s
  | some pg => sealWith (setCur s ch dense none) ch pg

/-- Put a slot into the page of channel `ch`, at its next free quarter; a page that it does not fit is sealed first, and
one whose quarter 15 it fills is sealed after it (R275). A block takes at most 252 root pages (R283). None where no page can be placed (the sluice is full). -/
def placeSlot (s : State) (ch : Nat) (dense : Bool) (x : FSlot) (except : List Nat := []) : Option State :=
  let fits := match curPage s ch dense with
    | some pg => decide (pg.used + x.cls + 1 ≤ 16) && !(x.kind == 4 && decide (252 ≤ rootsIn s ch pg.group))
    | none => true
  let s := if fits then s else sealPage s ch dense
  let r : Option (OPage × State) := match curPage s ch dense with
    | some pg => some (pg, s)
    | none =>
      let full := if x.kind = 4 then (openGroups s dense).filter (fun g => decide (252 ≤ rootsIn s ch g)) else []
      (allocPage s ch dense (full ++ except)).map (fun r => ({ group := r.1, page := r.2.1, dense := dense }, r.2.2))
  r.map (fun r =>
    let pg := r.1
    let pg := { pg with
      slots := pg.slots ++ [{ x with quarter := pg.used }], used := pg.used + x.cls + 1, since := s.now }
    if pg.used = 16 then sealWith (setCur r.2 ch dense none) ch pg else setCur r.2 ch dense (some pg))

/-- Seal the page that channel `ch` fills, no unit having arrived for 50 µs: it counts in SHORT_SEALS (R275, R319). The
power-loss flush seals pages too, and they are not counted. -/
def sealShort (s : State) (ch : Nat) (dense : Bool) : State :=
  match curPage s ch dense with
  | none => s
  | some _ =>
    let s := sealPage s ch dense
    if s.pwr.powerLoss then s else bump s Reg.FTL_PACK 15 0 1

/-- A channel issues operations to its dies: no retraining is due or running (R244). -/
def mayIssue (c : FChan) : Bool := decide (c.state = .ready) && !c.due

/-- PAGE_SEAL_TIMEOUT (R275): a page that has received no unit for 50 µs is sealed; what waits for a retraining stays (R244). -/
def execPageSealTimeout (channel : Nat) (dense : Bool) (s : State) : Out :=
  if mayIssue (chanOf s channel) then .next (sealShort s channel dense) else .next s

/-- The channels in service from the `i`-th on, in rotation. -/
def chansFrom (s : State) (i : Nat) : List Nat :=
  let l := (List.range 32).filter (fun k => decide ((chanOf s k).state = .ready))
  l.drop (i % max 1 l.length) ++ l.take (i % max 1 l.length)

/-- Place the `i`-th slot of a run on the first channel in rotation that has room, in no group of `except`. -/
def placeAny (s : State) (i : Nat) (dense : Bool) (x : FSlot) (except : List Nat := []) : Option State :=
  ((chansFrom s i).filter (fun ch => !(curPage s ch dense).any (fun p => except.contains p.group))).findSome?
    (fun ch => placeSlot s ch dense x except)

/-- Place a run of slots; the count placed. -/
def placeRun (s : State) (dense : Bool) (l : List FSlot) (except : List Nat := []) : State × Nat :=
  l.foldl (fun (r : State × Nat) x =>
    match placeAny r.1 r.2 dense x except with
    | some s => (s, r.2 + 1)
    | none => r) (s, 0)

/-! ## Retirement (R298, R323) -/

/-- A page lies in a retired block: it is never programmed or read again (R323). -/
def blockRetired (s : State) (key : Nat) : Bool := s.ftl.retired.contains (keyCh key, keyDie key, keyBlock key)

/-- The good blocks of a whole group that is retired join the pools of their dies (R323). -/
def poolGroup (s : State) (g : Nat) : State :=
  let l := (stripeChans s).filter (fun k => !blockRetired s (groupPage s g k 0))
  setFtl s { s.ftl with
    pools := l.foldl (fun t k => Tab.upd t (k * 32 + g / 65536) [] (fun b => b ++ [memberBlock s g k])) s.ftl.pools }

/-- Copies in block `b` (a page key / 4,096) of group `g` whose RELOCATE record is not yet committed are copied again, to another group, with
a fresh sequence number (R298). -/
def recopy (s : State) (g b : Nat) : State :=
  let open_ := (s.ftl.held ++ s.ftl.jpages.flatMap (·.recs)).filter (fun r => r.type == 2)
  let l := (s.fch.pages.filter (fun p => p.1 / 4096 == b)).flatMap (fun p => p.2.filterMap (fun x =>
    match Tab.get? s.ftl.map x.idx with
    | some m =>
      if x.kind = 1 ∧ m.page = p.1 ∧ m.quarter = x.quarter ∧ open_.any (fun r => r.entry == some m) then
        some { x with relocated := true, stg := none, tag := none, source := some (p.1, x.quarter) }
      else none
    | none => none))
  (placeRun s true l [g]).1

/-- Retire a block: a BLOCK_RETIRE record; it leaves its die's pool if it was there, and otherwise the lowest-numbered block of the pool takes its place, or the whole group
retired, its good blocks in the pools of their dies once nothing valid is left there (log 179); uncommitted copies are copied
again, committed ones make the group a relocation source ahead of any other (R298); spare space is judged again. -/
def retireBlock (s : State) (ch die block : Nat) : State :=
  if s.ftl.retired.contains (ch, die, block) then s
  else
    let key := pageKey ch die block 0
    let g := groupOf s key
    let committed := s.ftl.map.any (fun p => p.2.page / 4096 == key / 4096)
    let s := bump (hold s { type := 4, entry := some { page := key, quarter := 0, cls := 0, seqTail := 0 } }) Reg.FTL_EVENTS 31 16 1
    let s := setFtl s { s.ftl with
      retired := s.ftl.retired ++ [(ch, die, block)], retiredIn := Tab.set s.ftl.retiredIn (key / 4096) g }
    let pool := (Tab.getD s.ftl.pools (ch * 32 + die) []).filter (· != block)
    let s := setFtl s { s.ftl with pools := Tab.set s.ftl.pools (ch * 32 + die) pool }
    let x := bgOf s g
    let x := { x with takeFirst := if committed then 3 else x.takeFirst }
    let s := match leastBy id (if x.state = .retired then [] else pool) with
      | some b =>
        setBg (setFtl s { s.ftl with
          members := Tab.set s.ftl.members (g * 32 + ch) b,
          pools := Tab.set s.ftl.pools (ch * 32 + die) (pool.filter (· != b)) }) g x
      | none =>
        if (Tab.get? s.ftl.groups g).isNone || decide (x.state = .retired) then s
        else
          let empty := (validIn s g).isEmpty
          let s := setBg (bump s Reg.FTL_SPARE 31 16 1) g { x with
            state := .retired, takeFirst := if empty then x.takeFirst else 3 }
          if empty then poolGroup s g else s
    judgeSpare (recopy s g (key / 4096))

/-- A program that failed is issued again, to another group, with fresh sequence numbers; on another channel where this
one has no page (R245, R291, R298). A partial parity takes its presence bits along (R332). Where no channel has one, it waits. -/
def reissue (s : State) (ch : Nat) (pg : OPage) : State :=
  let tries := ch :: (stripeChans s).filter (· != ch)
  match tries.findSome? (fun k => (allocPage s k pg.dense [pg.group]).map (fun r => (k, r))) with
  | some (k, g, p, s) =>
    let bits := if pg.slots.any (fun x => x.kind == 7) then (bgOf s pg.group).present else []
    sealWith (notePresent s g bits) k { pg with group := g, page := p }
  | none => setFch s { s.fch with stalled := s.fch.stalled ++ [(ch, pg)] }

/-- The pages that wait for a group are offered again. -/
def retryStalled (s : State) : State :=
  s.fch.stalled.foldl (fun s p => reissue s p.1 p.2) (setFch s { s.fch with stalled := [] })

/-! ## Program status (R291, R294, R302, R332) -/

/-- A map, directory or root page has its new place, and the page above it changes (R287, R304); a copy whose page has been written
anew since is garbage (R295). -/
def mapPagePassed (s : State) (x : FSlot) (m : MEntry) : State :=
  if !stillWanted s x then s
  else
    let s := unitWritten (setFtl s { s.ftl with mapAt := Tab.set s.ftl.mapAt (mapKey x.kind x.pageNo) m }) x.tag
    if x.kind = 2 ∨ x.kind = 3 then dirtyPage s (x.kind + 1) (x.pageNo / 512) else s

/-- One slot of a page that passed. -/
def slotPassed (s : State) (key : Nat) (x : FSlot) : State :=
  let m : MEntry := { page := key, quarter := x.quarter, cls := x.cls, seqTail := x.seq % 65536 }
  if x.kind = 7 then s
  else if x.kind ≠ 1 then unitDone (mapPagePassed s x m) x.tag
  else
    match x.stg, x.source with
    | some n, _ =>
      match Tab.get? s.ftl.staging n with
      | none => unitDone s x.tag
      | some y =>
        let s := freeStaged s n
        if y.superseded then unitDone s x.tag
        else
          let newer := ((Tab.get? s.ftl.stagedAt x.idx).map (fun k => decide (n < k))).getD false
          let s := if newer then s
            else if y.tag.isSome then dropStaged s x.idx false
            else setFtl s { s.ftl with stagedAt := Tab.erase s.ftl.stagedAt x.idx }
          hold (mapSet (unitWritten s x.tag) x.idx (some m)) { type := 1, idx := x.idx, entry := some m, tag := x.tag, stg := some n }
    | none, some _ =>
      if stillWanted s x then
        hold (mapSet (unitWritten s x.tag) x.idx (some m)) { type := 2, idx := x.idx, entry := some m, tag := x.tag }
      else unitDone s x.tag
    | none, none =>
      hold (mapSet (dropStaged (unitWritten s x.tag) x.idx false) x.idx (some m)) { type := 1, idx := x.idx, entry := some m, tag := x.tag }

/-- A map entry as its 8 bytes (R277). -/
def entryBytes (m : MEntry) : Bytes :=
  natLe 8 (m.quarter + keyPage m.page * 2 ^ 4 + keyBlock m.page * 2 ^ 16 + keyDie m.page * 2 ^ 32 +
    keyCh m.page * 2 ^ 37 + m.cls * 2 ^ 42 + 2 ^ 44 + m.seqTail * 2 ^ 48)

/-- A journal record as its 16 bytes (R300). -/
def recBytes (r : JRec) : Bytes :=
  (match r.entry with
    | some m => if r.type = 4 then natLe 8 (keyBlock m.page * 2 ^ 16 + keyDie m.page * 2 ^ 32 + keyCh m.page * 2 ^ 37)
      else entryBytes m
    | none => zeros 8) ++ natLe 5 r.idx ++ natLe 1 r.type ++ zeros 2

/-- A journal page as its 4,096 bytes: the header, with the number of the last complete checkpoint, and up to 252 records (R301). -/
def journalBytes (p : JPage) (ckpt : Nat) : Bytes :=
  fit 4096 (natLe 4 0x4C4E524A ++ natLe 2 p.recs.length ++ zeros 2 ++ natLe 8 p.jseq ++ natLe 8 ckpt ++ zeros 40 ++
    p.recs.flatMap recBytes)

/-- The stream of the journal band that takes page `jseq`: the 8 streams in rotation (R301). -/
def journalStream (jseq : Nat) : Nat := jseq % 8

/-- A checkpoint's anchor page (R305). -/
def anchorBytes (a : Anchor) : Bytes :=
  let roots := Tab.vals (Tab.keep a.places (fun k _ => k / 2 ^ 40 == 4))
  natLe 4 0x48434E41 ++ natLe 4 roots.length ++ natLe 8 a.num ++ natLe 8 a.s0 ++ natLe 8 a.j0 ++ zeros 32 ++
    roots.flatMap entryBytes

/-- The valid mark of an anchor: the checkpoint number and SHA-384 of the anchor page (R305). -/
def markBytes (a : Anchor) : Bytes := natLe 8 a.num ++ sha384 (fit 16384 (anchorBytes a))

/-- A flash page of four 4,096-byte parts, each a class 3 unit of one KIND: four journal pages (5) or a page of
the flash system area (8) (R280, R301). -/
def wholePage (kind : Nat) (bs : Bytes) : List FSlot :=
  (List.range 4).map (fun c => { quarter := 4 * c, cls := 3, kind := kind, idx := 0, bytes := slice (fit 16384 bs) (4096 * c) 4096 })

/-- The flash page that four journal pages fill (R301). -/
def journalFlash (l : List JPage) (ckpt : Nat) : List FSlot := wholePage 5 (l.flatMap (fun p => journalBytes p ckpt))

/-- The anchor page and its valid mark, as each of the four mirrors of the flash system area takes them, in this order (R282, R304
step 5, R305). -/
def anchorPages (a : Anchor) : List (List FSlot) := [wholePage 8 (anchorBytes a), wholePage 8 (markBytes a)]

/-- A map entry as the map cache holds it: UNMAPPED, MAPPED, or STAGED with its buffer and offset (R277, R278). -/
def entryWord (s : State) (idx : Nat) : Nat :=
  match (Tab.get? s.ftl.stagedAt idx).bind (Tab.get? s.ftl.staging) with
  | some x => x.kib % 2 ^ 24 + x.buffer * 2 ^ 24 + x.cls * 2 ^ 42 + 2 * 2 ^ 44
  | none => match Tab.get? s.ftl.map idx with
    | some m => leNat (entryBytes m)
    | none => 0

/-- Codeword 0 of the summary page of a block: its mode, root pages, pages programmed, lowest and highest sequence number and
address (R283). -/
def summaryBytes (dense : Bool) (pages : Tab (List FSlot)) (key : Nat) : Bytes :=
  let slots := pages.flatMap (fun p => (p.2.filter (fun x => x.kind != 0 && x.kind != 6)).map (fun x => (keyPage p.1, x)))
  let roots := slots.filter (fun p => p.2.kind == 4)
  let seqs := slots.map (fun p => p.2.seq)
  natLe 4 0x594D5553 ++ natLe 1 (b2n dense) ++ natLe 1 roots.length ++ natLe 2 pages.length ++
    natLe 8 (seqs.min?.getD 0) ++ natLe 8 (seqs.foldl max 0) ++
    natLe 8 (keyBlock key * 2 ^ 16 + keyDie key * 2 ^ 32 + keyCh key * 2 ^ 37) ++ zeros 32 ++
    roots.flatMap (fun p => natLe 2 p.1 ++ natLe 1 p.2.quarter ++ zeros 1 ++ natLe 4 (p.2.idx % 2 ^ 32) ++ natLe 8 p.2.seq)

/-- The slots of a summary page: every spare entry carries KIND SUMMARY (R283). -/
def summarySlots (bs : Bytes) : List FSlot :=
  (List.range 16).map (fun q => { quarter := q, cls := 0, kind := 6, idx := 0, bytes := slice (fit 16384 bs) (1024 * q) 1024 })

/-- The summary page of group `g` on channel `ch`, its last page (R283). -/
def writeSummary (g : Nat) (s : State) (ch : Nat) : State :=
  let x := bgOf s g
  let key := groupPage s g ch 0
  let bs := summaryBytes x.dense (s.fch.pages.filter (fun p => p.1 / 4096 == key / 4096)) key
  setFch s { s.fch with
    pages := Tab.set s.fch.pages (groupPage s g ch (dataPages s x.dense)) (summarySlots bs) }

/-- Group `g` is closed by the summary pages of its blocks (R283). -/
def closeGroup (s : State) (g : Nat) : State :=
  let s := (groupChans s g).foldl (writeSummary g) s
  setBg s g { bgOf s g with state := .closed, patrolAt := opTime s }

/-- A group whose every member has written its data pages is closed. -/
def closeIfFull (s : State) (g : Nat) : State :=
  let x := bgOf s g
  let busy := (stripeChans s).any (fun ch => hasPage s ch x.dense g ||
    (chanOf s ch).programs.any (fun p => p.group == g) ||
    [curPage s ch true, curPage s ch false].any (fun p => (p.map (·.group)) == some g))
  let left := (groupChans s g).any (fun ch => decide (nextData s g ch < dataPages s x.dense))
  if x.state = .opened ∧ !busy ∧ !left then closeGroup s g else s

/-- A checkpoint begins: S0 is the lowest sequence number sealed whose record is not yet held, or the next; J0 is the
next JSEQ (R304 step 1). Nothing where one is running. -/
def beginCkpt (s : State) : State :=
  if s.ftl.ckpt.isSome then s
  else
    let seqs := s.fch.chans.flatMap (fun p => p.2.programs.flatMap (fun g => g.slots.map (·.seq)))
    setFtl s { s.ftl with
      ckpt := some ((leastBy id seqs).getD s.ftl.nextSeq, s.ftl.nextJseq), ckptSince := s.now, pagesSinceCkpt := 0 }

/-- CKPT_PAGES (R312). -/
def ckptPages (s : State) : Nat := eff s Reg.FTL_CKPT_CFG 12 0 * 1024

/-- A page's program passed: a sluice page's energy is measured (R213), and the group counts its reads anew (R322). -/
def programPassed (s : State) (ch : Nat) (pg : OPage) : State :=
  let key := groupPage s pg.group ch pg.page
  let s := setFch s { s.fch with pages := Tab.set s.fch.pages key pg.slots }
  let x := bgOf s pg.group
  let s := setBg s pg.group { x with lastSeq := (pg.slots.map (·.seq)).foldl max x.lastSeq, reads := 0 }
  let s := pg.slots.foldl (fun s y => slotPassed s key y) s
  let s := if pg.dense then s else flushEnded s pg.slots.length
  let s := setFtl s { s.ftl with pagesSinceS0 := s.ftl.pagesSinceS0 + 1, pagesSinceCkpt := s.ftl.pagesSinceCkpt + 1 }
  let s := if ckptPages s ≤ s.ftl.pagesSinceS0 then beginCkpt s else s
  judgeFold (closeIfFull s pg.group)

/-- The page of channel `ch` is no data of its stripe: its program failed. The stripe keeps its width and its parity member (R256). -/
def leaveStripe (s : State) (ch : Nat) (pg : OPage) : State :=
  setFch s { s.fch with stripes := Tab.mod s.fch.stripes (pg.group * 4096 + pg.page) (fun x =>
    { x with members := x.members.filter (· != ch), failed := (x.failed ++ [ch]).eraseDups }) }

/-- The program of page `pg` on channel `ch` failed: its block is retired, and that page and every other page of the block still to
be programmed are issued again elsewhere (R291, R298). -/
def programFailed (s : State) (ch : Nat) (pg : OPage) : State :=
  let c := chanOf s ch
  let pages := pg :: c.programs.filter (fun p => p.group == pg.group)
  let s := setChan s ch { c with programs := c.programs.filter (fun p => p.group != pg.group) }
  let s := pages.foldl (fun s p => leaveStripe s ch p) s
  let s := retireBlock s ch (pg.group / 65536) (memberBlock s pg.group ch)
  judgeFold (pages.foldl (fun s p => reissue s ch p) s)

/-- Valid units that had a member on a loss: a channel and die, die 32 for the whole channel (R259). -/
def unitsOn (s : State) (l : Nat × Nat) : Tab MEntry :=
  s.ftl.map.filter (fun p => keyCh p.2.page == l.1 && (l.2 == 32 || keyDie p.2.page == l.2))

/-- Losses whose last unit has been rewritten leave the list (R259). -/
def clearLosses (s : State) : State :=
  if s.fch.losses.isEmpty then s
  else judgeDegraded (setFch s { s.fch with losses := s.fch.losses.dropWhile (fun l => (unitsOn s l).isEmpty) })

/-- PROGRAM_STATUS (R291, R298): the status of the oldest page being programmed on the channel; of a page of copies, whether it
passed and was verified (R294 step 2; log 180). A FLASH_FAIL injection makes it fail (R741). A block that is still being erased
is programmed after it. -/
def execProgramStatus (channel : Nat) (pass : Bool) (s : State) : Out :=
  let c := chanOf s channel
  match c.programs with
  | [] => .next s
  | pg :: t =>
    let die := pg.group / 65536
    if c.erasing.contains (die, memberBlock s pg.group channel) then .next s
    else
      let inj := injOf s 5 channel (fun p => p % 32 == die && fld p 9 8 == 1)
      let s := match inj with | some i => useInj s i | none => s
      let s := setChan s channel { chanOf s channel with
        programs := t, suspends := Tab.erase (chanOf s channel).suspends die }
      if pass && inj.isNone then .next (clearLosses (retryStalled (programPassed s channel pg)))
      else .next (programFailed s channel pg)

/-- ERASE_STATUS (R323): a block erase fails, by its status or by a FLASH_FAIL injection, and the block is retired; a
passed erase leaves the block without pages. Reads suspend the operation no more (R255). -/
def execEraseStatus (channel die block : Nat) (pass : Bool) (s : State) : Out :=
  let inj := injOf s 5 channel (fun p => p % 32 == die && fld p 9 8 == 2)
  let s := match inj with | some i => useInj s i | none => s
  let s := endErase s channel die block
  if pass && inj.isNone then
    let k := pageKey channel die block 0 / 4096
    if s.ftl.map.any (fun p => p.2.page / 4096 == k) then .next s
    else .next (setFch s { s.fch with pages := Tab.keep s.fch.pages (fun j _ => j / 4096 != k) })
  else .next (retireBlock s channel die block)

end Sys2Proof.Machine
end

