-- ==== Sys2Proof/Machine/FtlMedia.lean ====
section
/-! DEFINITION. The map engine's own work (07_translation_and_recovery.md, 08_media_health_and_discard.md): map pages and
checkpoints, relocation and erase, the patrol, levelling and the minute tick; parity (06_flash_channels.md). -/

namespace Sys2Proof.Machine

/-! ## Programming at once -/

/-- No further unit comes for 50 µs: the pages that the channels fill in a mode are sealed. -/
def sealAll (s : State) (dense : Bool) : State := (List.range 32).foldl (fun s ch => sealShort s ch dense) s

/-- The oldest page being programmed on a channel gets its status: it fails where its block is among `bad`. -/
def passOne (bad : List Nat) (s : State) (ch : Nat) : State :=
  match (chanOf s ch).programs with
  | [] => s
  | pg :: t =>
    let s := endErase (setChan s ch { chanOf s ch with programs := t }) ch (pg.group / 65536) (memberBlock s pg.group ch)
    let key := groupPage s pg.group ch pg.page
    if bad.contains (key / 4096) && !blockRetired s key then programFailed s ch pg else programPassed s ch pg

/-- Every page being programmed gets its status (the longest queue decides the rounds). -/
def passAll (bad : List Nat) : Nat → State → State
  | 0, s => s
  | f + 1, s =>
    if s.fch.chans.all (fun p => p.2.programs.isEmpty) then s
    else passAll bad f ((List.range 32).foldl (passOne bad) s)

/-- Seal and program everything that the channels fill in a mode. -/
def flushPages (s : State) (dense : Bool) (bad : List Nat) : State :=
  let s := sealAll s dense
  passAll bad ((s.fch.chans.map (fun p => p.2.programs.length)).sum + bad.length + 1) s

/-! ## Map, directory and root pages (R285, R287, R304) -/

/-- The 4,096 bytes of a map (2), directory (3) or root (4) page: for a STAGED unit the entry that was durable before it
(R278). -/
def mapPageBytes (s : State) (kind n : Nat) : Bytes :=
  (List.range 512).flatMap (fun i =>
    let m := if kind = 2 then Tab.get? s.ftl.map (512 * n + i)
      else Tab.get? s.ftl.mapAt (mapKey (kind - 1) (512 * n + i))
    match m with
    | some m => entryBytes m
    | none => zeros 8)

/-- The dirty pages in the order of R304 steps 2 and 3: map, directory, root. -/
def dirtyPages (s : State) : List (Nat × Nat) :=
  let l := s.ftl.mapDirty
  l.filter (fun p => p.1 == 2) ++ l.filter (fun p => p.1 == 3) ++ l.filter (fun p => p.1 == 4)

/-- The spare INDEX of a map, directory or root page: a root page's carries the number of the checkpoint that it is written for
(R280). -/
def mapIdx (s : State) (kind n : Nat) : Nat :=
  if kind = 4 then n + 2048 * (((s.ftl.anchor.map (·.num)).getD 0 + 1) % 2 ^ 29) else n

/-- The slot of a map, directory or root page. -/
def mapSlot (s : State) (kind n : Nat) (tag : Option Nat) : FSlot :=
  { cls := 3, kind := kind, idx := mapIdx s kind n, bytes := mapPageBytes s kind n, tag := tag }

/-- Write map, directory or root pages to the sluice; those that find no place stay dirty, and are answered. -/
def writePages (s : State) (l : List (Nat × Nat)) : State × List (Nat × Nat) :=
  let r := l.foldl (fun (r : State × List (Nat × Nat)) p =>
    match placeAny r.1 p.2 false (mapSlot r.1 p.1 p.2 none) with
    | some t => (setFtl t { t.ftl with mapDirty := t.ftl.mapDirty.filter (· != p) }, r.2)
    | none => (r.1, r.2 ++ [p])) (s, [])
  (flushPages r.1 false [], r.2)

/-- The dirty pages of one level. -/
def dirtyOf (s : State) (kind : Nat) : List (Nat × Nat) := s.ftl.mapDirty.filter (fun p => p.1 == kind)

/-- Steps 2 and 3 of R304: the map pages, the directory pages and every root page are written; the pages that found no place. -/
def writeMap (s : State) : State × List (Nat × Nat) :=
  let a := writePages s (dirtyOf s 2)
  let b := writePages a.1 (dirtyOf a.1 3)
  let c := writePages b.1 ((List.range (rootPages s)).map (fun n => (4, n)))
  (c.1, a.2 ++ b.2 ++ c.2)

/-! ## Checkpoints (R303–R305) -/

/-- The counts of R326 and R327 and the operating time are written to the flash system area. -/
def saveCounts (s : State) : State :=
  let f := s.ftl
  setFtl { s with evr := { s.evr with opSaved := opTime s } } { f with
    histSaved := f.hist,
    minutesUnsaved := 0,
    totals := (List.range 7).map (fun i => f.totals.getD i 0 + f.since.getD i 0),
    since := List.replicate 7 0 }

/-- The anchor of a checkpoint that began with S0 and J0 takes force: `map` is what its pages hold. Earlier journal pages are garbage,
and the erase counts (R320), the presence bitmaps (R332), the zone states and the counts of R326 and R327 are written. -/
def setAnchor (s : State) (s0 j0 : Nat) (map : Tab MEntry) : State :=
  let s := saveCounts (saveFlushNj s)
  let f := s.ftl
  let num := (f.anchor.map (·.num)).getD 0 + 1
  setFtl s { f with
    anchor := some { num := num, s0 := s0, j0 := j0, jend := f.nextJseq, map := map, places := f.mapAt },
    rootS0 := Tab.set f.rootS0 (num % 2 ^ 29) s0,
    ns := Tab.mapVals f.ns (fun _ n => { n with zonesSaved := n.zones }),
    ckpt := none,
    journal := f.journal.filter (fun r => decide (j0 ≤ r.1)),
    pagesSinceS0 := f.pagesSinceCkpt,
    unverified := [],
    wearSaved := f.groups.map (fun p => (p.1, (p.2.ecDense, p.2.ecSluice))),
    presentSaved := f.groups.map (fun p => (p.1, p.2.present)) }

/-- Run the checkpoint to its anchor (R304 steps 2 to 6): map, directory and root pages, the held records, the anchor with its
mark. A clean shutdown appends CLOSE (R306). A page that finds no place leaves the previous checkpoint standing. -/
def runCkpt (s : State) (clean : Bool) : State :=
  let s := beginCkpt s
  let map := s.ftl.map
  let r := writeMap s
  let s := commitHeld r.1
  match s.ftl.ckpt with
  | none => s
  | some (s0, j0) =>
    if !r.2.isEmpty || s.fch.stalled.any (fun p => p.2.slots.any (fun x => x.kind != 1)) then s
    else
      let s := setAnchor s s0 j0 map
      if clean then closeJournal s else s

/-- CKPT_REQUEST (R316). -/
def execCkptRequest (s : State) : Out := .next (beginCkpt s)

/-- CKPT_SECONDS_EXPIRE (R303). -/
def execCkptSecondsExpire (s : State) : Out := .next (beginCkpt s)

/-! ## Relocation (R294–R299) -/

/-- A read in progress names group `g` (R296): an operation on a channel, or a ticket that resolved to it. -/
def readsName (s : State) (g : Nat) : Bool :=
  s.fch.chans.any (fun p => p.2.reads.any (fun r => groupOf s r.page == g)) ||
    s.sbx.store.any (fun p => p.2.refs.any (fun r => match r.2 with
      | .flash _ page _ _ _ => groupOf s page == g
      | _ => false))

/-- The pages of group `g`. -/
def pagesOf (s : State) (g : Nat) : Tab (List FSlot) := Tab.keep s.fch.pages (fun k _ => groupOf s k == g)

/-- The slots of group `g` that the map still points at, and the map pages last written there (R294 step 1). -/
def sourceSlots (s : State) (g : Nat) : List FSlot :=
  (pagesOf s g).flatMap (fun p => p.2.filterMap (fun x =>
    let cur := if x.kind = 1 then
        (if (Tab.get? s.ftl.stagedAt x.idx).isNone then Tab.get? s.ftl.map x.idx else none)
      else Tab.get? s.ftl.mapAt (mapKey x.kind x.pageNo)
    match cur with
    | some m => if m.page = p.1 ∧ m.quarter = x.quarter then
        some { x with relocated := true, stg := none, tag := none, source := some (p.1, x.quarter) } else none
    | none => none))

/-- Erase group `g` (R294 step 4): its pages go, those of its retired blocks and of blocks whose erase fails apart, its wear is counted (R320), its presence is
cleared (R332), and it is free, in the mode that SLUICE_PCT asks for (R292). The charge is booked where no ticket has paid it
(R247). Blocks whose erase fails are retired; a retired group's good blocks then join their pools. The new mode changes spare space
(R324, R325). -/
def eraseGroup (s : State) (g : Nat) (fails : List Nat) : State :=
  let x := bgOf s g
  let s := if x.erasePaid then s else book s 2 (120000 * (groupChans s g).length)
  let s := setFch s { s.fch with
    pages := Tab.keep s.fch.pages (fun k _ => groupOf s k != g || blockRetired s k || fails.contains (keyCh k)),
    stripes := Tab.keep s.fch.stripes (fun k _ => k / 4096 != g) }
  let s := setFtl s { s.ftl with nextPage := Tab.keep s.ftl.nextPage (fun k _ => k / 32 != g) }
  let dense := if x.dense then decide (sluiceTarget s ≤ sluiceGroups s) else decide (sluiceTarget s < sluiceGroups s)
  let s := setBg s g { x with
    state := if x.state = .retired then .retired else .free,
    dense := dense, reads := 0, present := [], takeFirst := 0, crossed := false, lastSeq := 0, stale := false, erasePaid := false,
    ecDense := x.ecDense + b2n x.dense, ecSluice := x.ecSluice + b2n !x.dense }
  let s := fails.foldl (fun s ch => retireBlock s ch (g / 65536) (memberBlock s g ch)) s
  let s := if x.state = .retired then poolGroup s g else s
  judgeSpare (judgeFold s)

/-- A page lies on an offline die or channel (R252). -/
def pageLost (s : State) (key : Nat) : Bool :=
  let c := chanOf s (keyCh key)
  decide (c.state = .offline) || decide (c.state = .test) || bitOf c.dieOffline (keyDie key)

/-- Tier 4 can rebuild: no other member of the page's stripe is missing (R260). -/
def parityHolds (s : State) (key : Nat) : Bool :=
  let g := groupOf s key
  (membersOf s g (keyPage key)).all (fun k => k == keyCh key || !pageLost s (groupPage s g k (keyPage key)))

/-- Codewords that a slot covers (R249, R275). -/
def codewordsOf (quarter cls : Nat) : Nat := (quarter + cls) / 4 - quarter / 4 + 1

/-- Count a codeword at the tier that decoded it (R254), 5 for a lost one; a weak one makes its group a relocation
source (R322). -/
def countTier (s : State) (ch key tier : Nat) : State :=
  let a : Nat := 0x40 * ch
  let s := match tier with
    | 1 => bump s (Reg.FCH_CH_RETRY + a) 15 0 1
    | 2 => bump s (Reg.FCH_CH_RETRY + a) 31 16 1
    | 3 => bump s (Reg.FCH_CH_RECOVER + a) 15 0 1
    | 4 => bump s (Reg.FCH_CH_RECOVER + a) 31 16 1
    | 0 => s
    | _ => bump s (Reg.FCH_CH_UNCORR + a) 31 0 1
  let s := if tier = 0 then s else countSince s (min 4 (tier - 1)) 1
  let g := groupOf s key
  let s := if 2 ≤ tier && (Tab.get? s.ftl.groups g).isSome then
      setBg s g { bgOf s g with takeFirst := max 2 (bgOf s g).takeFirst } else s
  if 5 ≤ tier then judgeDegraded s else s

/-- A read of group `g`: one read 1,000,000 times since it was last programmed becomes a relocation source (R322). -/
def countRead (s : State) (g : Nat) : State :=
  match Tab.get? s.ftl.groups g with
  | some x => setBg s g { x with
      reads := x.reads + 1, takeFirst := if 1000000 ≤ x.reads + 1 then max 2 x.takeFirst else x.takeFirst }
  | none => s

/-- The tier that decodes the codewords of a page during a relocation: 4 on a lost die or channel, 5 where a second member of
the stripe is missing too (R252, R260); otherwise the one of `tiers`, by page key, tier 0 where it names none. -/
def relocTier (s : State) (tiers : List (Nat × Nat)) (key : Nat) : Nat :=
  if pageLost s key then (if parityHolds s key then 4 else 5)
  else
    let t := ((tiers.find? (fun p => p.1 == key)).map (·.2)).getD 0
    if t = 4 ∧ !parityHolds s key then 5 else min t 5

/-- A slot of a relocation source is read: each of its codewords counts at its tier; a lost one is recorded (R252, R254). No copy of
the unit can be made: its entry keeps naming the source, where its reads fail, and it holds up no erase (DESIGN CHOICE, log 216). A
lost map page is written anew by the next checkpoint. -/
def readSource (tiers : List (Nat × Nat)) (s : State) (x : FSlot) : State :=
  match x.source with
  | none => s
  | some (key, q) =>
    let t := relocTier s tiers key
    let s := (List.range (codewordsOf q x.cls)).foldl (fun s _ => countTier s (keyCh key) key t) (countRead s (groupOf s key))
    if t < 5 then s
    else
      let s := recordLost s (keyCh key) 0 (lostDetail x.idx (keyCh key) (keyDie key) (keyBlock key))
      if x.kind = 1 then setFtl s { s.ftl with lostUnits := (x.idx :: s.ftl.lostUnits).eraseDups } else dirtyPage s x.kind x.pageNo

/-- Steps 1 to 3 of R294 for group `g`: copy, verify, commit; target blocks among `bad` fail and are retired. Each unit copied is charged
as the read and the dense program of a SYSTEM line's steps in class MEDIA (R246, R259). -/
def copyGroup (s : State) (g : Nat) (bad : List Nat) (tiers : List (Nat × Nat)) : State :=
  let l := sourceSlots s g
  let ok := l.filter (fun x => match x.source with
    | some p => decide (relocTier s tiers p.1 < 5)
    | none => true)
  let r := placeRun (book (l.foldl (readSource tiers) s) 2 (4600 * ok.length)) true ok
  commitHeld (flushPages r.1 true bad)

/-- Step 4 may begin: nothing valid is left but units that are lost, the RELOCATE records are committed, no read names the group
(R296), and the last complete checkpoint refers to no map, directory or root page in it (R297). -/
def eraseReady (s : State) (g : Nat) : Bool :=
  ((sourceSlots s g).filter (fun x => x.kind != 1 || !s.ftl.lostUnits.contains x.idx)).isEmpty &&
    !(s.ftl.held ++ s.ftl.jpages.flatMap (·.recs)).any (fun r => r.type == 2) && !readsName s g &&
    !((s.ftl.anchor.map (·.places)).getD []).any (fun p => groupOf s p.2.page == g)

/-- A group with units on a lost die or channel, none of them on the loss being rebuilt, waits for its turn (R259). -/
def waitsTurn (s : State) (g : Nat) : Bool :=
  let here : Nat × Nat → Bool := fun l => (unitsOn s l).any (fun p => groupOf s p.2.page == g)
  match s.fch.losses with
  | [] => false
  | l :: t => !here l && t.any here

/-- The loss that is being rebuilt has units in group `g` (R259). -/
def rebuilds (s : State) (g : Nat) : Bool :=
  match s.fch.losses with
  | [] => false
  | l :: _ => (unitsOn s l).any (fun p => groupOf s p.2.page == g)

/-- A group that a relocation takes next (R259, R293, R299): garbage collection's source while free dense groups are below GC_LOW or
where it is to be taken first, folding's source while folding runs, or a group of the loss being rebuilt. -/
def mayRelocate (s : State) (g : Nat) : Bool :=
  let low := decide ((freeGroups s true).length < eff s Reg.FTL_CACHE_CFG 31 24)
  !waitsTurn s g &&
    ((gcSource s == some g && (low || takeRank s g (bgOf s g) != 0)) ||
      (s.ftl.folding && foldSource s == some g) || rebuilds s g)

/-- RELOCATE_GROUP (R294): a closed group is copied, verified, committed and erased; `answer.tiers` are the tiers that its pages
need. -/
def execRelocateGroup (source : Nat) (failing : List Nat) (answer : SourceEnv) (s : State) : Out :=
  if mayRelocate s source then
    let s := clearLosses (copyGroup s source failing answer.tiers)
    if eraseReady s source then
      .next (retryStalled (beginErase (eraseGroup s source answer.eraseFails) source answer.eraseFails))
    else .next (setBg s source { bgOf s source with takeFirst := max 2 (bgOf s source).takeFirst })
  else .next s

/-! ## Patrol, levelling, minutes (R321, R322, R327) -/

/-- The patrol has finished a group with the last page of its highest channel (R322). -/
def patrolled (s : State) (channel group page : Nat) : State :=
  let x := bgOf s group
  if page = dataPages s x.dense ∧ (groupChans s group).getLast? = some channel then setBg s group { x with patrolAt := opTime s }
  else s

/-- PATROL_READ (R322): one codeword of a page of a closed group is read, charged in class MEDIA (R246). A page that is not programmed
reads as all 0xFF, and counts as erased (R284). -/
def execPatrolRead (channel group page tier : Nat) (s : State) : Out :=
  let key := groupPage s group channel page
  if !(bgOf s group).isClosed || (Tab.get? s.fch.pages key).isNone then .next s
  else
    let s := patrolled (countTier (countRead (book s 2 600) group) channel key (min tier 5)) channel group page
    if 5 ≤ tier then
      .next (recordLost s channel 0 (List.replicate 5 0xFF#8 ++ natLe 1 channel ++ natLe 1 (keyDie key) ++ natLe 2 (keyBlock key)))
    else .next s

/-- STATIC_LEVELLING (R321): while the wear of the closed dense groups spreads over more than WEAR_GAP, the least worn is
taken next; at most once in 100 ms. -/
def execStaticLevelling (s : State) : Out :=
  let closed := Tab.keep s.ftl.groups (fun _ x => x.isClosed && x.dense)
  match leastBy (fun p => wearOf s p.2) closed with
  | none => .next s
  | some (g, x) =>
    if wearSpreads s ∧ s.ftl.lastLevel + 100000 ≤ s.now then
      let s := setFtl s { s.ftl with lastLevel := s.now }
      .next (setBg s g { x with takeFirst := max 1 x.takeFirst })
    else .next s

/-- The bin of a temperature (R327). -/
def tempBin (t : Int) : Nat := if t < 0 then 0 else min 15 (t.toNat / 10 + 1)

/-- MINUTE_TICK (R327, R329): a bin of the histogram, by the highest sample of the minute or, without one, the last t_model, and the operating minutes count; the histogram is written every
60 minutes. -/
def execMinuteTick (s : State) : Out :=
  let f := s.ftl
  let b := tempBin (f.maxTemp.getD s.pwr.tModel)
  let hist := f.hist.set b (min 0xFFFFFFFF (f.hist.getD b 0 + 1))
  let save := decide (60 ≤ f.minutesUnsaved + 1)
  let stage := s.pwr.thermStage
  .next (countSince (setFtl s { f with
    hist := hist,
    histSaved := if save then hist else f.histSaved,
    minutesUnsaved := if save then 0 else f.minutesUnsaved + 1,
    hotMinutes := (f.hotMinutes.1 + b2n (decide (1 ≤ stage)), f.hotMinutes.2 + b2n (decide (2 ≤ stage))),
    maxTemp := none }) 6 1)

/-! ## Parity (R256–R258) -/

/-- The 16 KiB user area of a page: its slots at their quarters, zeros elsewhere (R275). -/
def pageBytes (l : List FSlot) : Bytes := l.foldl (fun bs x => patch bs (1024 * x.quarter) x.bytes) (zeros 16384)

/-- The 16-byte spare entry of a slot's first quarter (R280). -/
def spareEntry (x : FSlot) : Bytes :=
  natLe 5 x.idx ++ natLe 1 (x.kind % 16 + x.cls % 4 * 16 + b2n x.relocated * 64) ++ zeros 2 ++ natLe 8 x.seq

/-- The 64-byte spare field of codeword `c`: an entry for each of its quarters, EMPTY where no slot begins (R280). -/
def spareField (l : List FSlot) (c : Nat) : Bytes :=
  (List.range 4).flatMap (fun e => match l.find? (fun x => x.quarter == 4 * c + e) with
    | some x => spareEntry x
    | none => zeros 16)

/-- Codeword bytes of a CODE (R249). -/
def codewordBytes (code : Nat) : Nat := [4352, 4448, 4552, 4656, 4816].getD code 4352

/-- The four codewords of a page: data, spare field and parity bits each (R249). A page of running parity is the exclusive or of its
members' codewords as it stands (R256, R258). -/
def pageCodewords (code : Nat) (l : List FSlot) : Bytes :=
  match l.find? (fun x => x.kind == 0 || x.kind == 7) with
  | some x => fit (4 * codewordBytes code) x.bytes
  | none =>
    let u := pageBytes l
    (List.range 4).flatMap (fun c =>
      let d := slice u (4096 * c) 4096 ++ spareField l c
      d ++ fit (codewordBytes code - 4160) (Config.ldpcParity code d))

/-- The user and spare areas of a page of channel `ch`: its codewords, the remaining bytes 0xFF; a page that is not programmed reads as all
0xFF (R249, R284). -/
def pageImage (s : State) (ch : Nat) (l : Option (List FSlot)) : Bytes :=
  let c := chanOf s ch
  let bs := (l.map (pageCodewords c.code)).getD []
  bs ++ List.replicate (c.pageBytes - bs.length) 0xFF#8

/-- The slots of a page that is sealed or programmed. -/
def memberSlots (s : State) (g p ch : Nat) : Option (List FSlot) :=
  match (chanOf s ch).programs.find? (fun x => x.group == g && x.page == p) with
  | some x => some x.slots
  | none => Tab.get? s.fch.pages (groupPage s g ch p)

/-- A stripe whose parity engine has the data of every member still in service is complete: its parity page is written, where its
parity channel is in service (R256). -/
def finishStripe (s : State) (g p : Nat) : State :=
  let key := g * 4096 + p
  match Tab.get? s.fch.stripes key with
  | none => s
  | some st =>
    let par := parityCh s g p
    if (membersOf s g p).all (fun k => k == par || st.summed.contains k || st.failed.contains k || !(groupChans s g).contains k) then
      let s := setFch s { s.fch with stripes := Tab.erase s.fch.stripes key }
      if (groupChans s g).contains par then
        setFch s { s.fch with
          pages := Tab.set s.fch.pages (groupPage s g par p) [{ cls := 3, kind := 0, idx := 0, bytes := st.parity }] }
      else s
    else s

/-- The parity engine takes the page of one member of a stripe, all 4 codewords and their parity bits, into its running parity of at
most 19,264 bytes; each started 4 KiB of member data is charged in class MEDIA (R247, R256, R258). -/
def sumMember (s : State) (g p ch : Nat) : State :=
  let key := g * 4096 + p
  match Tab.get? s.fch.stripes key, memberSlots s g p ch with
  | some st, some l =>
    if !st.members.contains ch || st.summed.contains ch then s
    else
      let bs := fit 19264 (pageCodewords (chanOf s ch).code l)
      let st := { st with
        summed := st.summed ++ [ch], parity := if st.parity.isEmpty then bs else xorBytes st.parity bs }
      finishStripe (book (setFch s { s.fch with stripes := Tab.set s.fch.stripes key st }) 2 600) g p
  | _, _ => s

/-- A station that holds provisional input sends it on, confirmed, once the end token has come with PROV 0 (R174). -/
def sendHeld (s : State) (u tag step : Nat) : State :=
  let held := (ctxOf s tag step).held
  let s := setCtx s tag step { ctxOf s tag step with held := [] }
  held.foldl (fun s p => sendUnit s tag step u p p.data p.station false) s

/-- A parity engine as a station passes the ticket's bytes on, with their exclusive or kept for the ticket (log 32); it holds
provisional input, and everything behind it, until the end token confirms it (R174). -/
def parityWork (s : State) (u tag step : Nat) (w : Work) : State :=
  match w with
  | .start _ _ _ _ => failAt s tag step u 0x01
  | .pkt p =>
    let c := ctxOf s tag step
    if p.endTok then
      if !tokenReady s p step then enqueue s u w
      else match entryOf s tag with
        | some _ => endOut (if p.prov then s else sendHeld s u tag step) tag step u c.inBytes p.prov
        | none => s
    else
      let s := setCtx s tag step { c with
        inBytes := c.inBytes + p.data.length, acc := if c.acc.isEmpty then p.data else xorBytes c.acc p.data }
      if p.prov || !c.held.isEmpty then setCtx s tag step { ctxOf s tag step with held := c.held ++ [p] }
      else sendUnit s tag step u p p.data p.station false

/-- PARITY_ENGINE_STEP (R256): engine 178 takes stripes with an even number, 179 those with an odd one. -/
def execParityEngineStep (unit : Nat) (member : Option (Nat × Nat × Nat)) (s : State) : Out :=
  match member with
  | some (g, p, ch) => if unit = 178 + stripeNo g p % 2 then .next (sumMember s g p ch) else .next s
  | none => .next (serveFront s unit 0x0D (· == 0) (fun s tag _ j _ w => parityWork s unit tag j w))

/-- Write the running parity of an open stripe to the sluice as a partial-parity page (R258), a page like any other of its own
stripe, which may be one more than 128 (DESIGN CHOICE, log 217); the group that takes it gets the bits of every namespace of the
members (R332). -/
def partialParity (s : State) (g p : Nat) : State :=
  let key := g * 4096 + p
  match Tab.get? s.fch.stripes key with
  | none => s
  | some st =>
    let names := namesOf s (st.members.filterMap (memberSlots s g p)).flatten
    match (chansFrom s g).findSome? (fun k => (allocPage s k false [] 256).map (fun r => (k, r))) with
    | none => s
    | some (k, h, q, s) =>
      let s := setFch s { s.fch with stripes := Tab.set s.fch.stripes key { st with since := s.now } }
      sealWith (notePresent s h names) k { group := h, page := q, slots := [{ cls := 3, kind := 7, idx := 0, bytes := st.parity }] }

/-- PARTIAL_PARITY_TIMEOUT (R258). -/
def execPartialParityTimeout (group page : Nat) (s : State) : Out := .next (partialParity s group page)

/-! ## Training (R241–R245) -/

/-- The target rate of channel `k` (R239). -/
def targetRate (s : State) (k : Nat) : Nat :=
  let c := chanOf s k
  min (min (eff s (Reg.FCH_CH_CFG + 0x40 * k) 2 0) c.dieRate) (if c.extended then 6 else 5)

/-- The units of a page that channel `k` was filling go to pages that other channels fill; those that find no place wait (R245,
R275). -/
def moveFill (s : State) (k : Nat) (pg : OPage) : State :=
  let r := pg.slots.foldl (fun (r : State × List FSlot) x =>
    match placeAny r.1 k pg.dense x with
    | some s => (s, r.2)
    | none => (r.1, r.2 ++ [x])) (s, [])
  if r.2.isEmpty then r.1 else setFch r.1 { r.1.fch with stalled := r.1.fch.stalled ++ [(k, { pg with slots := r.2 })] }

/-- A channel leaves service in state `st`: the offline set changes, its programs and the units of the pages it fills go to other
channels, its reads to tier 4 (R245, R282, R734). -/
def channelLeaves (s : State) (k : Nat) (st : FlState) : State :=
  let c := chanOf s k
  let s := noteOffline (setChan s k { c with
    state := st, programs := [], erasing := [], suspends := [], sluicePage := none, densePage := none,
    reads := c.reads.map (fun r => { r with tier := 4 }) })
  let s := c.programs.foldl (fun s pg => reissue (leaveStripe s k pg) k pg) s
  ([c.sluicePage, c.densePage].filterMap id).foldl (fun s pg => moveFill s k pg) s

/-- A channel goes OFFLINE (R245): its unit leaves ACTIVE, its programs go to other channels, its reads to tier 4, the
rebuild of its units is queued, and the critical health event is raised. -/
def channelOffline (s : State) (k : Nat) : State :=
  let s := setFch s { s.fch with losses := s.fch.losses ++ [(k, 32)] }
  let old := bitOf (live s Reg.FTL_HEALTH 23 16) 2
  let s := clearLosses (judgeDegraded (unitState (channelLeaves s k .offline) k .offline))
  if old then record s 0x0010 2 0 k 0 [BitVec.ofNat 8 (live s Reg.FTL_HEALTH 23 16)] else s

/-- FLASH_TRAIN_PASS_DONE (R242): the pass at the rate tried ends. A setting that works takes the channel to READY;
otherwise the next lower rate is tried, and below code 0 the channel goes OFFLINE. -/
def execFlashTrainPassDone (channel : Nat) (ok : Bool) (settings : Nat) (s : State) : Out :=
  let c := chanOf s channel
  if c.state ≠ .training ∧ c.state ≠ .retraining then .next s
  else if ok then
    let below := decide (c.tryRate < targetRate s channel)
    let a := Reg.FCH_CH_TRAIN + 0x40 * channel
    let s := setChan s channel { c with
      state := .ready, rate := c.tryRate, feature8A := b2n (c.tryRate == 6), saved := c.saved.set c.tryRate settings, trainTemp := s.pwr.tModel,
      below := below, drift := false }
    let s := setLive (bump s a 15 8 1) a 2 0 c.tryRate
    let s := if c.state = .training ∧ (unitOf s channel).role ≠ 0 then unitState s channel .active else s
    let s := noteOffline s
    .next (if below then record s 0x0010 1 0 channel 0 [BitVec.ofNat 8 (live s Reg.FTL_HEALTH 23 16)] else s)
  else if c.tryRate = 0 then .next (channelOffline (bump s (Reg.FCH_CH_TRAIN + 0x40 * channel) 15 8 1) channel)
  else .next (setChan s channel { c with tryRate := c.tryRate - 1 })

/-- FLASH_RETRAIN_BEGIN (R243, R244): once nothing issued is left, a due retraining begins; at most 4 channels retrain
for drift at one time. -/
def execFlashRetrainBegin (channel : Nat) (s : State) : Out :=
  let c := chanOf s channel
  let drifting := (s.fch.chans.filter (fun p => decide (p.2.state = .retraining) && p.2.drift)).length
  if c.state = .ready ∧ c.due ∧ c.reads.isEmpty ∧ c.programs.isEmpty ∧ c.erasing.isEmpty ∧ (c.drift = false ∨ drifting < 4) then
    .next (setChan s channel { c with state := .retraining, due := false, tryRate := targetRate s channel })
  else .next s

end Sys2Proof.Machine
end

