-- ==== Sys2Proof/Machine/FtlStations.lean ====
section
/-! DEFINITION. Flash channels, staging buffers and the map engine as stations (R246, R251–R255, R278, R279, R289–R291,
R330–R336). -/

namespace Sys2Proof.Machine

/-! ## Reading (R246, R251–R255, R278, R279) -/

/-- A unit read leaves the station of a reading step as one packet (R159); the ticket's output ends with its last unit. -/
def readOut (s : State) (u tag step n station : Nat) (bs : Bytes) : State :=
  let s := countTaken (countCtx (sendData s tag step u n (4096 * n) bs station false) tag step 4096 bs.length) tag 4096
  match entryOf s tag with
  | none => s
  | some e => if allTaken s e tag step then endOut s tag step u (ctxOf s tag step).outBytes false else s

/-- A read goes to the die: the LUN's erase, or its program in dense mode, is suspended, where the die supports it and at most 4
times; otherwise the read waits (R255). -/
def issueRead (s : State) (ch : Nat) (r : RdOp) : Option State :=
  let c := chanOf s ch
  let die := keyDie r.page
  let busy := c.programs.any (fun p => p.dense && p.group / 65536 == die) || c.erasing.any (fun p => p.1 == die)
  let n := Tab.getD c.suspends die 0
  if busy ∧ (4 ≤ n ∨ bitOf c.suspendable die = false) then none
  else some (setChan s ch { c with
    reads := c.reads ++ [r], suspends := if busy then Tab.set c.suspends die (n + 1) else c.suspends })

/-- What a reading step does with the unit at the front of a station's queue. -/
def readUnit (s : State) (u tag : Nat) (e : Entry) (step n : Nat) (w : Work) : State :=
  match Tab.get? e.refs n with
  | none => failAt s tag step u 0x01
  | some (.unmapped idx) => readOut s u tag step n (slotStation idx 3 true false) (zeros 4096)
  | some (.staged idx cls bs) => readOut s u tag step n (slotStation idx cls true false) bs
  | some (.page _ _) => failAt s tag step u 0x10
  | some (.flash idx page quarter cls seqTail) =>
    let lost := pageLost s page
    match issueRead s u {
        tag := tag, step := step, n := n, idx := idx, page := page, quarter := quarter, cls := cls, seqTail := seqTail,
        left := codewordsOf quarter cls, tier := if lost then 4 else 0 } with
    | some s => s
    | none => setInbox s u (w :: inboxOf s u)

/-- A unit serves reads: a channel that is not training, with no retraining due (R244), one that is offline or in test, whose reads
go to tier 4, or a staging buffer or the map engine. -/
def readsNow (s : State) (u : Nat) : Bool :=
  if u < 32 then (match (chanOf s u).state with
    | .ready => !(chanOf s u).due
    | .offline | .test => true
    | _ => false) else inService s u

/-- READ (R246): the front of the queue of flash channel `unit`, or of the staging buffer or the map engine that serves
a unit of such a step (R159), in mode 0. -/
def execRead (unit : Nat) (s : State) : Out :=
  .next (serveAt s unit (fun st => stepKind st == 0x01 && st.mode == 0 && readsNow s unit) (fun s tag e j _ w =>
    match w with
    | .start _ _ first _ => readUnit s unit tag e j (first / 4096) w
    | .pkt _ => failAt s tag j unit 0x10))

/-- READ_RAW (R246): mode 3 returns the codewords undecoded. -/
def execReadRaw (unit : Nat) (raw : Bytes) (s : State) : Out :=
  .next (serveAt s unit (fun st => stepKind st == 0x01 && st.mode == 3 && readsNow s unit) (fun s tag e j _ w =>
    match w with
    | .pkt _ => failAt s tag j unit 0x10
    | .start _ _ first _ =>
      match Tab.get? e.refs (first / 4096) with
      | none => failAt s tag j unit 0x01
      | some (.flash _ page quarter cls _) =>
        let s := countRead s (groupOf s page)
        let bs := fit (codewordBytes (chanOf s unit).code * codewordsOf quarter cls) raw
        let cuts := chunks 4096 (bs.length / 4096 + 1) bs
        let s := (cuts.dropLast).foldl (fun s p =>
          countCtx (sendData s tag j unit (first / 4096) (ctxOf s tag j).outBytes p 0 false) tag j 0 p.length) s
        readOut s unit tag j (first / 4096) 0 (cuts.getLastD [])
      | some (.staged _ _ bs) => readOut s unit tag j (first / 4096) 0 bs
      | some _ => readOut s unit tag j (first / 4096) 0 (zeros 4096)))

/-- A unit is decoded: the spare-area entry of its first quarter is checked (R279), and the unit leaves the channel. -/
def finishRead (s : State) (ch : Nat) (r : RdOp) : State :=
  let s := countRead s (groupOf s r.page)
  let found := ((Tab.get? s.fch.pages r.page).getD []).find? (fun y =>
    y.quarter == r.quarter && y.kind == 1 && y.idx == r.idx && y.seq % 65536 == r.seqTail)
  let detail := lostDetail r.idx ch (keyDie r.page) (keyBlock r.page)
  let inst := ((entryOf s r.tag).map (·.t.inst)).getD 0
  match found with
  | some y => readOut s ch r.tag r.step r.n (slotStation r.idx r.cls true false) y.bytes
  | none =>
    let s := recordLost (bump s Reg.FTL_EVENTS 15 0 1) ch inst detail
    if s.ftl.unverified.contains (r.idx / 512) then
      let s := hold (mapSet s r.idx none) { type := 3, idx := r.idx }
      readOut s ch r.tag r.step r.n (slotStation r.idx 3 true false) (zeros 4096)
    else failAt s r.tag r.step ch 0x0F

/-- A codeword is lost (R252). -/
def codewordLost (s : State) (ch : Nat) (r : RdOp) : State :=
  let s := countTier s ch r.page 5
  let inst := ((entryOf s r.tag).map (·.t.inst)).getD 0
  let s := recordLost s ch inst (lostDetail r.idx ch (keyDie r.page) (keyBlock r.page))
  failAt s r.tag r.step ch 0x0F

/-! ## Writing (R246, R274, R275, R291, R325) -/

/-- The payload that a slot or unit packet must carry (R274). -/
def packetFits (p : Packet) : Bool :=
  if stSlot p.station then p.data.length == classBytes (stClass p.station) else p.data.length == 4096

/-- The class of a packet's slot. -/
def packetClass (p : Packet) : Nat := if stSlot p.station then stClass p.station else 3

/-- Hold a packet of a durable step until its end token (R172, R174). -/
def holdPacket (s : State) (tag step : Nat) (p : Packet) : State :=
  let c := ctxOf s tag step
  setCtx s tag step { c with inBytes := c.inBytes + p.data.length, held := c.held ++ [p] }

/-- What a durable station does with a packet before its end token: NO_SPACE while READ_ONLY, FORMAT for a wrong length,
or it is held. -/
def durableData (s : State) (u tag step : Nat) (p : Packet) : State :=
  if s.ftl.state = .readOnly then failAt s tag step 189 0x05
  else if !packetFits p then failAt s tag step u 0x10
  else holdPacket s tag step p

/-- A ticket whose units a staging buffer holds: DRAIN, or WRITE_THROUGH on an earlier step. -/
def fromStaging (s : State) (e : Entry) (n : Nat) : Bool :=
  (match Tab.get? e.refs n with
    | some (.staged _ _ _) => true
    | _ => false) || (stepsOf s e).any (fun st => stepKind st == 0x0F && st.mode == 1)

/-- The slot that a packet becomes on a page: of a staged slot that a DRAIN or WRITE_THROUGH ticket carries, of a map
page, or of a copy with its source (R291, R294). None where the staged slot has been replaced or discarded meanwhile: the drain
skips it (R291, R331, R336). -/
def slotOfPacket (s : State) (e : Entry) (p : Packet) : Option FSlot :=
  let idx := stIndex p.station
  let stg := (s.ftl.staging.find? (fun x => x.2.idx == idx && !x.2.superseded &&
    (x.2.sent == some p.tag || x.2.tag == some p.tag))).map (·.1)
  let base : FSlot := { cls := packetClass p, idx := idx, bytes := p.data, tag := some p.tag }
  match Tab.get? e.refs (p.off / 4096) with
  | some (.page kind n) => some { base with kind := kind, idx := mapIdx s kind n }
  | some (.flash _ page quarter _ _) => some { base with relocated := true, source := some (page, quarter) }
  | _ => if fromStaging s e (p.off / 4096) && stg.isNone then none else some { base with stg := stg }

/-- Place the held packets of channel `ch`, in order, while pages can be placed. -/
def placeHeld (ch : Nat) (dense : Bool) : Nat → State → Nat → Nat → State
  | 0, s, _, _ => s
  | f + 1, s, tag, step =>
    let c := ctxOf s tag step
    match c.held.find? (fun p => p.dest == ch), entryOf s tag with
    | some p, some e =>
      let placed := match slotOfPacket s e p with
        | none => some s
        | some x => placeSlot (setEntry s tag { e with left := e.left + 1 }) ch dense x
      match placed with
      | none => s
      | some s => placeHeld ch dense f (setCtx s tag step { ctxOf s tag step with held := dropFirst (fun x => x.dest == ch) (ctxOf s tag step).held }) tag step
    | _, _ => s

/-- The end token at a writing channel: its held packets are placed; where no page can be placed the rest waits with the
token. The ticket ends when every unit is programmed and its record committed (R291, R302). -/
def writeEnd (s : State) (ch tag step : Nat) (dense : Bool) (w : Work) : State :=
  let s := placeHeld ch dense ((ctxOf s tag step).held.length + 1) s tag step
  let c := ctxOf s tag step
  if c.held.any (fun p => p.dest == ch) then enqueue s ch w
  else
    let s := setCtx s tag step { c with ends := (c.ends ++ [ch]).eraseDups }
    match entryOf s tag with
    | none => s
    | some e =>
      if (unitsAt s e step).all (fun u => (ctxOf s tag step).ends.contains u) then
        let s := setEntry s tag { e with ended := true }
        if e.left = 0 then ackTicket s tag e.out else s
      else s

/-- A writing channel takes the front of its queue. -/
def writeServe (s : State) (ch mode : Nat) : State :=
  serveAt s ch (fun st => stepKind st == 0x01 && st.mode == mode && mayIssue (chanOf s ch))
    (fun s tag _ j _ w =>
      match w with
      | .start _ _ _ _ => failAt s tag j ch 0x10
      | .pkt p =>
        if !p.endTok then durableData s ch tag j p
        else if !tokenReady s p j then enqueue s ch w
        else if p.prov then endProvisional s tag ch
        else writeEnd s ch tag j (mode == 2) w)

/-- WRITE_SLUICE (R246): mode 1. -/
def execWriteSluice (channel : Nat) (s : State) : Out := .next (writeServe s channel 1)

/-- WRITE_DENSE (R246): mode 2. -/
def execWriteDense (channel : Nat) (s : State) : Out := .next (writeServe s channel 2)

/-! ## Staging (R289–R291) -/

/-- Every unit of a WRITE_BACK ticket becomes STAGED: its room and its dirty KiB go with it (R152, R163, R291). -/
def stageHeld (s : State) (u tag step : Nat) : State :=
  match entryOf s tag with
  | none => s
  | some e =>
    let held := (ctxOf s tag step).held
    let share := e.room / max 1 (ceilDiv e.t.len 4096)
    let dirty := (lineOf s e.t.line).dirty
    let s := held.foldl (fun s p => stageCached s (u - 186) (stIndex p.station) (packetClass p) p.data share dirty) s
    setEntry s tag { e with
      room := e.room - share * held.length,
      dirtyKib := e.dirtyKib - (if dirty then 4 * held.length else 0),
      out := 4096 * held.length }

/-- READ_WRITE_BACK (R289): staging buffer `unit` in mode 0. -/
def execReadWriteBack (unit : Nat) (s : State) : Out :=
  .next (serveFront s unit 0x0F (· == 0) (fun s tag e j _ w =>
    match w with
    | .start _ _ _ _ => failAt s tag j unit 0x10
    | .pkt p =>
      if !p.endTok then durableData s unit tag j p
      else if !tokenReady s p j then enqueue s unit w
      else if p.prov then (if isLast s e j then endProvisional s tag unit else endOut s tag j unit 0 true)
      else
        let n := (ctxOf s tag j).held.length
        endOut (stageHeld s unit tag j) tag j unit (4096 * n) false))

/-- One unit of a write-through ticket is kept in the buffer for the ticket and goes on to its channel. -/
def throughUnit (s : State) (unit tag step : Nat) (p : Packet) : State :=
  let f := s.ftl
  let x : Staged := {
    idx := stIndex p.station, buffer := unit - 186, cls := packetClass p, bytes := p.data, dirty := false, tag := some tag }
  let s := setFtl s { f with staging := Tab.set f.staging f.nextStaged x, nextStaged := f.nextStaged + 1 }
  sendUnit s tag step unit p p.data p.station false

/-- WRITE_THROUGH (R289): mode 1: each unit is kept in the buffer for the ticket and goes on to its channel. Provisional input, and
everything behind it, is held until the end token confirms it (R174). -/
def execWriteThrough (unit : Nat) (s : State) : Out :=
  .next (serveFront s unit 0x0F (· == 1) (fun s tag _ j _ w =>
    match w with
    | .start _ _ _ _ => failAt s tag j unit 0x10
    | .pkt p =>
      if p.endTok then
        if !tokenReady s p j then enqueue s unit w
        else
          let held := (ctxOf s tag j).held
          let s := if p.prov then s
            else held.foldl (fun s q => throughUnit s unit tag j q) (setCtx s tag j { ctxOf s tag j with held := [] })
          endOut s tag j unit (ctxOf s tag j).outBytes p.prov
      else if s.ftl.state = .readOnly then failAt s tag j 189 0x05
      else if !packetFits p then failAt s tag j unit 0x10
      else
        let c := ctxOf s tag j
        let s := countCtx s tag j p.data.length 0
        if p.prov || !c.held.isEmpty then setCtx s tag j { ctxOf s tag j with held := c.held ++ [p] }
        else throughUnit s unit tag j p))

/-- DRAIN (R780): mode 2 supplies the oldest staged units that no drain carries yet, from whichever buffer holds them. -/
def execDrain (unit : Nat) (s : State) : Out :=
  .next (serveFront s unit 0x0F (· == 2) (fun s tag _ j _ w =>
    match w with
    | .pkt _ => failAt s tag j unit 0x10
    | .start _ _ first len =>
      let n := ceilDiv len 4096
      let l := (Tab.keep s.ftl.staging (fun _ x => !x.superseded && !x.isSealed && x.sent.isNone && x.tag.isNone)).take n
      if l.length < n then failAt s tag j unit 0x01
      else (List.range n).foldl (fun s i =>
        match l[i]? with
        | none => s
        | some (k, x) =>
          let s := setFtl s { s.ftl with staging := Tab.set s.ftl.staging k { x with sent := some tag } }
          let s := modEntry s tag (fun e => { e with refs := Tab.set e.refs (first / 4096 + i) (.staged x.idx x.cls x.bytes) })
          readOut s unit tag j (first / 4096 + i) (slotStation x.idx x.cls true false) x.bytes) s))

/-! ## The map engine as a station (R289, R330–R336) -/

/-- One unit is deallocated (R330, R331). -/
def deallocUnit (s : State) (idx : Nat) : State :=
  hold (mapSet (dropThrough (dropStaged s idx true) idx) idx none) { type := 3, idx := idx }

/-- Deallocate units [u, u + n) of the ticket's SOURCE. -/
def deallocRange (s : State) (e : Entry) (u n : Nat) : State :=
  (List.range n).foldl (fun s i => deallocUnit s (descIndex s e.t.source (u + i))) s

/-- A map engine step takes a portion of its ticket: `act` does its work on the units of the portion, and `fin` on the
ticket when all is taken; a token that comes from an earlier station stands for the whole range (log 33). -/
def mapStep (s : State) (tag : Nat) (e : Entry) (step : Nat) (w : Work) (act : State → Nat → Nat → State)
    (fin : State → State) : State :=
  match w with
  | .start _ _ first len =>
    let s := countTaken (countCtx (act s (first / 4096) (ceilDiv len 4096)) tag step len 0) tag len
    if allTaken s e tag step then fin s else s
  | .pkt p =>
    if !p.endTok then countCtx s tag step p.data.length 0
    else if !tokenReady s p step then enqueue s 189 w
    else if p.prov then (if isLast s e step then endProvisional s tag 189 else endOut s tag step 189 0 true)
    else
      let own := ((stepsOf s e).take step).any (fun st => stepKind st == 0x11)
      fin (if own then s else act s 0 (ceilDiv e.t.len 4096))

/-- DEALLOCATE (R330): mode 0 sets every unit UNMAPPED and holds the records. -/
def execDeallocate (s : State) : Out :=
  .next (serveFront s 189 0x11 (· == 0) (fun s tag e j _ w =>
    mapStep s tag e j w (fun s u n => deallocRange s e u n) (fun s =>
      endOut (clearLosses s) tag j 189 (4096 * ceilDiv e.t.len 4096) false)))

/-- Retired blocks of the groups of S (R333). -/
def retiredOf (s : State) (groups : List Nat) : List (Nat × Nat × Nat) :=
  s.ftl.retired.filter (fun r => match Tab.get? s.ftl.retiredIn (pageKey r.1 r.2.1 r.2.2 0 / 4096) with
    | some g => groups.contains g
    | none => false)

/-- Erase or zero the retired blocks of the groups of S (R335): those among `lost` take neither, each is recorded, and the discard's
status is MEDIA_LOST. Their erases are booked where no ticket has been charged for them (R247). -/
def secureRetired (s : State) (groups lost : List Nat) (paid : Bool) : State × Option Nat :=
  let mine := retiredOf s groups
  let keyOf : Nat × Nat × Nat → Nat := fun r => pageKey r.1 r.2.1 r.2.2 0 / 4096
  let s := if paid then s else book s 2 (120000 * mine.length)
  let bad := mine.filter (fun r => lost.contains (keyOf r))
  let good := mine.filter (fun r => !lost.contains (keyOf r))
  let s := setFch s { s.fch with pages := Tab.keep s.fch.pages (fun k _ => !good.any (fun r => keyOf r == k / 4096)) }
  let s := bad.foldl (fun s r => recordLost s 189 0 (List.replicate 5 0xFF#8 ++ natLe 1 r.1 ++ natLe 1 r.2.1 ++ natLe 2 r.2.2)) s
  (s, if bad.isEmpty then none else some 0x0F)

/-- Groups whose presence bitmap names namespace `ns` (R332, R333 step 2). -/
def secureGroups (s : State) (ns : Nat) : List Nat := Tab.keys (Tab.keep s.ftl.groups (fun _ x => x.present.contains ns))

/-- Steps 2 to 4 of R333: S is taken, its open groups are sealed and closed, its valid units are relocated to groups outside S, and
a checkpoint runs. The discard then stands at step 5. -/
def secureBegin (s : State) (x : Secure) (failing : List Nat) (tiers : List (Nat × Nat)) : State :=
  let s := flushPages (flushPages s false []) true []
  let groups := secureGroups s x.ns
  let s := groups.foldl (fun s g => if (bgOf s g).state = .opened then closeGroup s g else s) s
  let s := groups.foldl (fun s g => copyGroup s g failing tiers) s
  let s := runCkpt s false
  setFtl s { s.ftl with secures := s.ftl.secures.map (fun y => if y = x then { x with step := 5, groups := groups } else y) }

/-- The map engine step of a secure discard's ticket. -/
def secureStep (s : State) (e : Entry) : Nat :=
  ((stepsOf s e).findIdx? (fun st => stepKind st == 0x11 && st.mode == 1)).getD 0

/-- Step 5 of R333 erases group `g`: blocks whose erase fails are retired, and so are among the retired blocks of S. -/
def secureEraseGroup (x : Secure) (s : State) (g : Nat) : State :=
  let fails := (groupChans s g).filter (fun ch => x.eraseFails.contains (groupPage s g ch 0 / 4096))
  beginErase (eraseGroup s g fails) g fails

/-- Steps 5 and 6 of R333, once every group of S may be erased: S is erased with its retired blocks, the pending record is cleared,
and the ticket completes. Until then the discard waits (R296, R297). -/
def secureErase (s : State) (x : Secure) : State :=
  if x.step = 5 ∧ x.groups.all (eraseReady s) then
    let s := x.groups.foldl (secureEraseGroup x) s
    let r := secureRetired s x.groups x.lost x.tag.isSome
    let s := retryStalled (setFtl r.1 { r.1.ftl with secures := r.1.ftl.secures.filter (· != x) })
    match x.tag with
    | none => s
    | some tag =>
      match entryOf s tag with
      | none => s
      | some e =>
        match r.2 with
        | some st => failAt s tag (secureStep s e) 189 st
        | none => endOut s tag (secureStep s e) 189 (4096 * ceilDiv e.t.len 4096) false
  else s

/-- Every secure discard that may go on does. -/
def resumeSecures (s : State) : State := s.ftl.secures.foldl secureErase s

/-- CHECKPOINT_BEGIN (R304). A secure discard that waited for it goes on (R333). -/
def execCheckpointBegin (s : State) : Out := .next (resumeSecures (runCkpt s false))

/-- CODEWORD_DECODE (R251): the codeword in progress of the channel's `op`-th read decodes at its tier, or passes to the
next one, tier 1 after RETRY_ENTRIES reads; at most 8 codewords are at tier 2 or 3 (R253). -/
def execCodewordDecode (channel op : Nat) (ok : Bool) (s : State) : Out :=
  let c := chanOf s channel
  match c.reads[op]? with
  | none => .next s
  | some r =>
    let without := c.reads.eraseIdx op
    if !stillRuns s r.tag then .next (setChan s channel { c with reads := without })
    else
      let inj := if r.tier = 0 then injOf s 4 channel (fun p => p % 32 == keyDie r.page) else none
      let s := match inj with | some i => useInj s i | none => s
      let ok := ok && (r.tier != 4 || parityHolds s r.page)
      let put : State → RdOp → State := fun s r => setChan s channel { c with reads := c.reads.set op r }
      if ok then
        let s := countTier s channel r.page r.tier
        let r := { r with left := r.left - 1, retries := 0, tier := if pageLost s r.page then 4 else 0, worst := max r.worst r.tier }
        if r.left = 0 then .next (resumeSecures (finishRead (setChan s channel { c with reads := without }) channel r))
        else .next (put s r)
      else if r.tier = 4 then .next (codewordLost (setChan s channel { c with reads := without }) channel r)
      else if pageLost s r.page then .next (put s { r with tier := 4 })
      else
        let soft := (c.reads.filter (fun x => x.tier == 2 || x.tier == 3)).length
        let entries := eff s (Reg.FCH_CH_CFG + 0x40 * channel) 11 8
        if r.tier = 1 ∧ r.retries + 1 < entries then .next (put s { r with retries := r.retries + 1 })
        else if r.tier = 1 ∧ 8 ≤ soft then .next s
        else .next (put s { r with tier := r.tier + 1 })

/-- SECURE_DEALLOCATE (R333): mode 1. -/
def execSecureDeallocate (failing : List Nat) (answer : SecureEnv) (s : State) : Out :=
  .next (serveFront s 189 0x11 (· == 1) (fun s tag e j _ w =>
    mapStep s tag e j w (fun s u n => deallocRange s e u n) (fun s =>
      let x : Secure := {
        ns := e.t.source.ns, first := e.t.source.addr, units := ceilDiv e.t.len 4096, step := 2, tag := some tag,
        lost := answer.lost, eraseFails := answer.eraseFails }
      let s := commitHeld s
      let s := setFtl s { s.ftl with secures := s.ftl.secures ++ [x] }
      if s.ftl.state = .readOnly ∧ (freeGroups s true).isEmpty then failAt s tag j 189 0x05
      else resumeSecures (secureBegin s x failing answer.tiers))))

/-- Everything staged before number `n` is programmed and its record committed (R289). -/
def durableTo (s : State) (n : Nat) : Bool :=
  !s.ftl.staging.any (fun p => decide (p.1 < n) && !p.2.superseded && p.2.tag.isNone) &&
    !(s.ftl.held ++ s.ftl.jpages.flatMap (·.recs)).any (fun r => match r.stg with
      | some k => decide (k < n)
      | none => false)

/-- DURABLE (R289): mode 2 completes when every unit staged before admission is programmed and committed; until then
its work stays in the queue. -/
def execDurable (s : State) : Out :=
  .next (serveFront s 189 0x11 (· == 2) (fun s tag e j _ w =>
    if durableTo s e.mark then mapStep s tag e j w (fun s _ _ => s) (fun s => endOut s tag j 189 0 false)
    else enqueue s 189 w))

/-- MAP_WRITE (R289): mode 3 emits the map, directory and root pages that must be written to the sluice. -/
def execMapWrite (s : State) : Out :=
  .next (serveFront s 189 0x11 (· == 3) (fun s tag _ j _ w =>
    match w with
    | .pkt _ => failAt s tag j 189 0x10
    | .start _ _ first len =>
      let n := ceilDiv len 4096
      let l := (dirtyPages s).take n
      if l.length < n then failAt s tag j 189 0x01
      else (List.range n).foldl (fun s i =>
        match l[i]? with
        | none => s
        | some (kind, page) =>
          let k := first / 4096 + i
          let s := setFtl s { s.ftl with mapDirty := s.ftl.mapDirty.filter (· != (kind, page)) }
          let s := modEntry s tag (fun e => { e with refs := Tab.set e.refs k (.page kind page) })
          readOut s 189 tag j k (slotStation page 3 true false) (mapPageBytes s kind page)) s))

end Sys2Proof.Machine
end

