-- ==== Sys2Proof/Machine/Dram.lean ====
section
/-! DEFINITION. The DRAM controller (15_dram.md): training and rate changes, what a
channel that goes OFFLINE takes with it, refresh and patrol, and the DRAM station. -/

namespace Sys2Proof.Machine

/-! ## Health of a channel (R244, R545–R549) -/

/-- A HEALTH record of a channel: severity `sev`, with the critical warning bits as they stand. -/
def dramHealth (s : State) (c sev : Nat) : State :=
  record s 0x0010 sev 0 (168 + c) 0 [BitVec.ofNat 8 (live s Reg.FTL_HEALTH 23 16)]

/-- The target rate of channel `c` (R533). -/
def dramTarget (s : State) (c : Nat) : Nat :=
  let a := drcReg Reg.DRC_CH_CFG c
  let r := min (eff s a 2 0) (dramOf s c).devRate
  if s.pwr.thermStage = 2 then min r (eff s a 6 4) else r

/-- The distance of a temperature from t_model now. -/
def driftFrom (s : State) (t : Int) : Nat := (s.pwr.tModel - t).natAbs

/-- DRIFT_C of channel `c`. -/
def driftC (s : State) (c : Nat) : Nat := eff s (drcReg Reg.DRC_CH_CFG c) 20 16

/-- The channel takes up its target rate (R546, R547): with settings saved within DRIFT_C of t_model it runs at once,
otherwise it trains (R545). -/
def applyRate (s : State) (c : Nat) : State :=
  let x := dramOf s c
  let t := dramTarget s c
  let x := { x with window := false, heldRate := false, drift := false }
  match x.state with
  | .ready | .retraining =>
    if x.state = .ready ∧ x.rate = t then setDram s c x
    else match Tab.get? x.saved t with
      | some p =>
        if driftFrom s p.1 ≤ driftC s c then
          setDram s c { x with state := .ready, rate := t, trainTemp := p.1, below := false }
        else setDram s c { x with state := .retraining, tryRate := t }
      | none => setDram s c { x with state := .retraining, tryRate := t }
  | _ => setDram s c x

/-- A rate change arrives (R547): while a window is open it is held until the window closes. -/
def rateChange (s : State) (c : Nat) : State :=
  let x := dramOf s c
  if x.window then setDram s c { x with heldRate := true } else applyRate s c

/-- A channel whose t_model has drifted by at least DRIFT_C begins drift retraining (R545, R546). -/
def dramDrift (s : State) (c : Nat) : State :=
  let x := dramOf s c
  if x.state = .ready ∧ driftC s c ≤ driftFrom s x.trainTemp then
    setDram s c { x with state := .retraining, tryRate := dramTarget s c, drift := true, window := true }
  else s

/-- Windows of drift retraining open again 40 µs after the last one closed (R546). -/
def openWindows (s : State) : State :=
  (List.range 4).foldl (fun s c =>
    let x := dramOf s c
    if x.state = .retraining ∧ x.drift ∧ !x.window ∧ x.windowAt ≤ s.now then setDram s c { x with window := true } else s) s

/-- The instance's lost list takes a page (R599). -/
def losePage (s : State) (i p : Nat) : State :=
  let x := instOf s i
  if x.lost.length < 64 then setInst s i { x with lost := x.lost ++ [p] } else setInst s i { x with overflow := true }

/-- The pages of instance `i`'s local memory on channel `c` are lost; their owner is told (R548, R599). -/
def loseChannel (s : State) (c i : Nat) : State :=
  let l := (List.range (lmemSize s i / 4096)).filter (fun p => pageChan s i p == c)
  if l.isEmpty ∨ i = 0 then s
  else asyncEvent (l.foldl (fun s p => losePage s i p) s) (i + 1) 7 0xC0 0

/-- Without a shadow no copy of a bank goes on: a failed bank in COPYING goes OFFLINE (R456), and any other stays as
it is, served by its own hardware or by its spare. -/
def shadowGone (s : State) : State :=
  if s.asu.copies.isEmpty then
    { s with asu := { s.asu with banks := Tab.mapVals s.asu.banks (fun _ b =>
      if b.state = .copying ∧ b.failed then { state := .offline, failed := true } else b) } }
  else s

/-- The shadow copies of the search unit after a channel loss, one on a channel (R453, R549; log 186). -/
def shadowMoves (s : State) (c : Nat) : State :=
  let kept := s.asu.copies.filter (· != c)
  let free := (dramLive s).filter (fun k => !kept.contains k)
  let copies := if kept.isEmpty then [] else if kept.length < s.asu.copies.length then kept ++ free.take 1 else kept
  shadowGone { s with asu := { s.asu with copies := copies } }

/-- A channel comes into service while the search unit has one shadow copy: the second is built on it (R453). -/
def shadowReturns (s : State) (c : Nat) : State :=
  if s.asu.copies.length = 1 ∧ !s.asu.copies.contains c then { s with asu := { s.asu with copies := s.asu.copies ++ [c] } } else s

/-- A load in progress has lost its region, which lies on every channel (log 186): it completes with MEDIA_LOST (R548); the loader's own file ends the load at
its next step. -/
def loadLosesRegion (s : State) : State := { s with cfg := { s.cfg with regionLost := s.cfg.cur.isSome } }

/-- The channel of the DRAM tier that holds frame `k`: the frames go to the channels in turn (log 181). -/
def frameChan (s : State) (k : Nat) : Nat := s.ftl.cacheChans.getD (k % max 1 s.ftl.cacheChans.length) 4

/-- Dirty frames are written to the sluice: those that find no place stay dirty. -/
def writeFrames (s : State) (l : List Nat) : State :=
  let s := l.foldl (fun s k => match placeAny s k false (mapSlot s (k / 2 ^ 40) (k % 2 ^ 40) none) with
    | some s => setFtl s { s.ftl with mapDirty := s.ftl.mapDirty.filter (· != (k / 2 ^ 40, k % 2 ^ 40)) }
    | none => s) s
  flushPages s false []

/-- Staged slots beyond what the on-die buffers hold, the newest ones (log 181). -/
def stagedBeyond (s : State) : List Nat :=
  let l := (Tab.keep s.ftl.staging (fun _ x => !x.isSealed && !x.superseded && x.tag.isNone && x.sent.isNone))
  ((l.foldl (fun (r : Nat × List Nat) p =>
    let sum := r.1 + p.2.room
    (sum, if stagingBytes s < sum then r.2 ++ [p.1] else r.2)) (0, []))).2

/-- Staged slots are written to the sluice. -/
def writeStaged (s : State) (l : List Nat) : State :=
  let s := l.foldl (fun s n => match Tab.get? s.ftl.staging n with
    | some x =>
      match placeAny s n false { cls := x.cls, idx := x.idx, bytes := x.bytes, stg := some n } with
      | some s => s
      | none => s
    | none => s) s
  flushPages s false []

/-- The DRAM tier and the staging extension lose channel `c`'s share (R287): its clean frames leave. Dirty frames and staged slots are
copied to another channel while two are in service; with fewer they are written to flash, and the extension is 0 from then on. -/
def tierLoses (s : State) (c : Nat) : State :=
  let dirty := s.ftl.dramTier.filter (isDirtyPage s)
  let s := setFtl s { s.ftl with dramTier := s.ftl.dramTier.filter (fun k => frameChan s k != c || onlyCached s k) }
  if 2 ≤ (dramLive s).length then s
  else
    let s := writeFrames (setFtl s { s.ftl with stageGib := 0 }) dirty
    let s := writeStaged s (stagedBeyond s)
    if (dramLive s).isEmpty then setFtl s { s.ftl with dramTier := s.ftl.dramTier.filter (onlyCached s) } else s

/-- Channel `c` leaves service in state `st`, with what it holds (R287, R548). -/
def dramLeaves (s : State) (c : Nat) (st : DState) : State :=
  let s := setDram s c { dramOf s c with state := st, window := false, heldRate := false }
  let s := tierLoses s c
  let s := (Tab.keys s.ten.insts).foldl (fun s i => loseChannel s c i) s
  loadLosesRegion (shadowMoves s c)

/-- Channel `c`, which has left service, is OFFLINE: a critical health event, and READ_ONLY where it was the last (R548, R549). -/
def dramDead (s : State) (c : Nat) : State :=
  let s := dramHealth (unitState s (168 + c) .offline) c 2
  if dramAllLost s ∧ s.ftl.state = .ready then
    setHealth (setFtl s { s.ftl with state := .readOnly }) 3 true
  else s

/-- No rate works on channel `c` (R548): it leaves service. -/
def dramOffline (s : State) (c : Nat) : State := dramDead (dramLeaves s c .offline) c

/-! ## The commands -/

/-- DRAM_REFRESH (R541): a refresh is postponed at most 8 times, and only while a read waits; otherwise it is issued, and
the bank's row is closed. -/
def execDramRefresh (channel bank : Nat) (waiting : Bool) (s : State) : Out :=
  let x := dramOf s channel
  let n := Tab.getD x.postponed bank 0
  if !dramIn s channel then .next s
  else if waiting ∧ n < 8 then
    .next (bump (setDram s channel { x with postponed := Tab.put 0 x.postponed bank (n + 1) })
      (drcReg Reg.DRC_CH_WAITS channel) 15 0 1)
  else
    let b := Tab.getD x.banks bank {}
    .next (setDram s channel { x with
      postponed := Tab.put 0 x.postponed bank 0, banks := Tab.put {} x.banks bank { b with isOpen := false } })

/-- DRAM_TEMP_READ (R541): the temperature register sets the refresh interval. -/
def execDramTempRead (channel intervalNs : Nat) (s : State) : Out :=
  if dramIn s channel then .next (setDram s channel { dramOf s channel with refreshNs := intervalNs }) else .next s

/-- DRAM_PATROL (R536): the patrol reads a code word of the local memory on a channel in service. -/
def execDramPatrol (channel inst word symbols : Nat) (s : State) : Out :=
  if dramIn s channel ∧ pageChan s inst (word / 128) = channel then
    .next (readWord s channel inst word (max symbols (Tab.getD s.drc.marks (lword inst word) 0)) none).2
  else .next s

/-- DRAM_TRAIN_PASS_DONE (R545): a rate that works takes the channel to READY; otherwise the next lower code is tried, and
below code 0 the channel goes OFFLINE. -/
def execDramTrainPassDone (channel : Nat) (ok : Bool) (settings : Nat) (s : State) : Out :=
  let x := dramOf s channel
  if x.state ≠ .training ∧ x.state ≠ .retraining then .next s
  else if ok then
    let below := decide (x.tryRate < dramTarget s channel)
    let a := drcReg Reg.DRC_CH_TRAIN channel
    let s := setDram s channel { x with
      state := .ready, rate := x.tryRate, saved := Tab.set x.saved x.tryRate (s.pwr.tModel, settings),
      trainTemp := s.pwr.tModel, below := below, drift := false, window := false, heldRate := false }
    let s := shadowReturns s channel
    let s := setLive (bump s a 15 8 1) a 2 0 x.tryRate
    let s := if x.state = .training then unitState s (168 + channel) .active else s
    let s := if x.heldRate then applyRate s channel else s
    .next (if below then dramHealth s channel 1 else s)
  else if x.tryRate = 0 then .next (dramOffline (bump s (drcReg Reg.DRC_CH_TRAIN channel) 15 8 1) channel)
  else .next (setDram s channel { x with tryRate := x.tryRate - 1 })

/-- DRAM_TRAIN_WINDOW_END (R546, R547): the window closes and a held rate change is applied; the next window opens 40 µs
later. -/
def execDramTrainWindowEnd (channel : Nat) (s : State) : Out :=
  let x := dramOf s channel
  if !x.window then .next s
  else if x.heldRate then .next (applyRate s channel)
  else .next (setDram s channel { x with window := false, windowAt := s.now + 40 })

/-! ## The DRAM station (R542) -/

/-- A LOCAL range lies in the instance's local memory. -/
def localOk (s : State) (i a n : Nat) : Bool := decide (a + n ≤ lmemSize s i)

/-- One 4 KiB transfer of a DRAM step that reads SOURCE. -/
def dramFetch (s : State) (u tag : Nat) (e : Entry) (step first len raw : Nat) : State :=
  let n := min 4096 len
  let a := e.t.source.addr + first
  let i := e.t.inst
  if e.t.source.kind ≠ 4 then failAt s tag step u 0x10
  else if !localOk s i a n then failAt s tag step u 0x0E
  else
    let r := lmemTake (bump s (drcReg Reg.DRC_CH_WAITS (pageChan s i (a / 4096))) 31 16 raw) i a n (some tag)
    if !r.1 then failAt r.2 tag step u 0x0F
    else
      let s := r.2
      let s := if n < len then setInbox s u (.start tag step (first + n) (len - n) :: inboxOf s u) else s
      let st := if e.t.dest.kind = 3 then slotStation (descIndex s e.t.dest (first / 4096)) 0 false false else 0
      let data := lmemRead s i a n
      let s := sendData s tag step u (first / 4096) first data st false
      let s := countTaken (countCtx s tag step n n) tag n
      match entryOf s tag with
      | none => s
      | some e => if allTaken s e tag step then endOut s tag step u (ctxOf s tag step).outBytes false else s

/-- A packet at a DRAM step that writes DEST. -/
def dramPut (s : State) (u tag : Nat) (e : Entry) (step raw : Nat) (p : Packet) : State :=
  let c := ctxOf s tag step
  if p.endTok then
    if !tokenReady s p step then enqueue s u (.pkt p)
    else if p.prov then endProvisional s tag u
    else endOut s tag step u c.outBytes false
  else
    let a := e.t.dest.addr + p.off
    let n := p.data.length
    let i := e.t.inst
    if e.t.dest.kind ≠ 4 then failAt s tag step u 0x10
    else if !localOk s i a n then failAt s tag step u 0x0E
    else if (pageSpan a n).any (pageGone (placePages s i a n) i) then failAt s tag step u 0x05
    else
      let s := bump s (drcReg Reg.DRC_CH_WAITS (pageChan s i (a / 4096))) 31 16 raw
      let s := lmemPut s i a p.data
      setCtx s tag step { c with
        inBytes := c.inBytes + n, outBytes := c.outBytes + n, wrote := c.wrote ++ [(a, n)], prov := p.prov }

/-- Channel `c` is stalled: in training, and in a drift retraining while its window is open (R545, R546). -/
def dramStalled (s : State) (c : Nat) : Bool :=
  let x := dramOf s c
  match x.state with
  | .training => true
  | .retraining => !x.drift || x.window
  | _ => false

/-- The local memory that the work's next transfer moves: address and bytes. -/
def transferOf (e : Entry) (w : Work) : Nat × Nat :=
  match w with
  | .start _ _ first len => (e.t.source.addr + first, min 4096 len)
  | .pkt p => (e.t.dest.addr + p.off, p.data.length)

/-- DRAM_STATION (R542): one 4 KiB transfer of a portion, or one packet, at DRAM channel `unit`; it waits while a channel that
holds a page of it is stalled (R546). `raw`: its reads that were held behind a queued write to their group (R539). -/
def execDramStation (unit raw : Nat) (s : State) : Out :=
  .next (serveFront s unit 0x0A (· == 0) (fun s tag e j _ w =>
    let r := transferOf e w
    if (pageSpan r.1 r.2).any (fun p => dramStalled s (pageChan s e.t.inst p)) then setInbox s unit (w :: inboxOf s unit)
    else match w with
    | .start _ _ first len => dramFetch s unit tag e j first len raw
    | .pkt p => dramPut s unit tag e j raw p))

end Sys2Proof.Machine
end

