-- ==== Sys2Proof/Machine/CoreOps.lean ====
section
/-! DEFINITION. What happens around a Goley core besides its instructions (13_goley_programming_model.md): start, stop, hold
and scrub, the input ring, and the port interface that takes the emit queue. -/

namespace Sys2Proof.Machine

/-! ## States (R487–R491) -/

/-- START (R489): from STOPPED, PC := ENTRY and STATUS := 0. A tenant core must hold TENANT_CORE (R469); a system core is started
only by the start sequence, and an unbound spare serves no one. -/
def coreStartOp (s : State) (c : Nat) (entry : DWord) : State :=
  let k := coreOf s c
  if k.state = .stopped ∧ isTenantCore s c ∧ (unitOf s (coreUnit s c)).role = 6 then
    setCore s c { ((k.setCr 0x01 0).setCr 0x0A 0) with state := .running, pc := entry, delay := none, rep := none }
  else s

/-- STOP (R489): at the next boundary that R480 allows; an unfinished REP is discarded. -/
def coreStopOp (s : State) (c : Nat) : State :=
  let k := coreOf s c
  match k.state with
  | .running =>
    if k.delay.isSome then setCore s c { k with stopAsked := true }
    else setCore s c { k with state := .stopped, rep := none }
  | .waiting | .faulted => setCore s c { k with state := .stopped, rep := none }
  | _ => s

/-- A hold from states 1 to 4 (R487, R491): it stops the core as STOP does. -/
def coreHold (s : State) (c : Nat) : State :=
  let k := coreOf s c
  match k.state with
  | .running =>
    if k.delay.isSome then setCore s c { k with stopAsked := true, holdAsked := true }
    else setCore s c { k with state := .held, rep := none }
  | .stopped | .waiting | .faulted => setCore s c { k with state := .held, rep := none }
  | _ => s

/-- Release from HELD (R491). A hold that still waits for a delay slot is left a STOP. -/
def coreRelease (s : State) (c : Nat) : State :=
  let k := coreOf s c
  if k.state = .held then setCore s c { k with state := .stopped }
  else if k.holdAsked then setCore s c { k with holdAsked := false }
  else s

/-- ROLE or OWNER changes: the core goes to SCRUBBING, which an OFFLINE core never leaves its state for (R487). -/
def coreScrub (s : State) (c : Nat) : State :=
  let k := coreOf s c
  if k.state = .offline then s
  else setCore s c { k with
    state := .scrubbing, inside := [], entered := [], inq := [], emitq := [], slots := [], delay := none, rep := none,
    stopAsked := false, holdAsked := false, entry := 0, flit := .good }

/-- WAITING ends as soon as IPEND AND IMASK is not 0 (R480). -/
def wakeCore (s : State) (c : Nat) : State :=
  let k := coreOf s c
  if k.state = .waiting ∧ k.irq then setCore s c { k with state := .running } else s

/-- Every waiting core whose condition holds runs again. -/
def wakeCores (s : State) : State := (Tab.keys s.cores).foldl wakeCore s

/-! ## Input (R482, R483) -/

/-- The lowest free slot of the input ring. -/
def freeSlot (k : Core) : Option Nat :=
  (List.range (fld (k.cr 0x20).toNat 14 8)).find? (fun i => !k.slots.any (fun x => x.1 == i))

/-- An INQ_POP entry (R482). -/
def inqEntry (first last prov revoke : Bool) (slot bytes tag : Nat) : Nat :=
  2 ^ 63 + b2n first * 2 ^ 62 + b2n last * 2 ^ 61 + b2n prov * 2 ^ 60 + b2n revoke * 2 ^ 59 + slot % 64 * 2 ^ 32 +
    bytes % 8192 * 2 ^ 16 + tag % 65536

/-- The ticket enters the core with its first input, once; a slowed core runs again at its planned frequency (R492). -/
def enterCore (k : Core) (tag step : Nat) : Core :=
  if k.entered.contains tag then k
  else { k with
    inside := k.inside ++ [{ tag := tag, step := step }], entered := k.entered ++ [tag], idle := 0, slowed := false }

/-- The island of a slowed core returns to its planned frequency (R492). -/
def unslow (s : State) (c : Nat) : State :=
  let k := coreOf s c
  if !k.slowed then s
  else
    let key := coreHw c
    let i := islandAt s key
    setIsland (setCore s c { k with slowed := false }) key { i with point := pointFor key i.minPoint i.planMhz, mhz := i.planMhz }

/-- A transfer is written into a free slot of the input ring, and its entry queued; with no free slot nothing is taken
(R482). `none`: nothing was taken. -/
def ringPut (s : State) (c tag step : Nat) (p : Packet) : Option State :=
  let k := coreOf s c
  match freeSlot k with
  | none => none
  | some slot =>
    let first := !k.entered.contains tag
    let s := unslow s c
    let k := enterCore (coreOf s c) tag step
    let k := modCoreTicket k tag (fun t => { t with
      prov := t.prov || p.prov, ranges := t.ranges ++ [(p.off, p.data.length, p.station)] })
    let k := { k with
      slots := k.slots ++ [(slot, tag)],
      inq := k.inq ++ [inqEntry first false p.prov false slot p.data.length tag] }
    some (wakeCore (writeCore (setCore s c k) c (k.slotAddr slot) p.data) c)

/-- The end token's entry (R482). -/
def ringEnd (s : State) (c tag step : Nat) (prov : Bool) : State :=
  let s := unslow s c
  let first := !(coreOf s c).entered.contains tag
  let k := modCoreTicket (enterCore (coreOf s c) tag step) tag (fun t => { t with ended := some prov })
  wakeCore (setCore s c { k with inq := k.inq ++ [inqEntry first true prov false 0 0 tag] }) c

/-- A revoke token at a core that runs the ticket in mode PROGRAM (R483): the slots that the program still holds are zeroed and
freed, and the REVOKE entry is queued; it is the ticket's first one where no input came before. -/
def coreRevoke (s : State) (c tag : Nat) : State :=
  let k := coreOf s c
  let first := !k.entered.contains tag
  let k := modCoreTicket (dropSlots k tag) tag (fun t => { t with revoked := true })
  wakeCore (setCore s c { k with
    inq := k.inq ++ [inqEntry first false false true 0 0 tag], entered := if first then k.entered ++ [tag] else k.entered }) c

/-! ## Output (R109, R110, R484) -/

/-- The STATION that an output packet starting at `off` carries: of the input range that contains it, else of the last
input packet (R110). -/
def stationFor (ranges : List (Nat × Nat × Nat)) (off : Nat) : Nat :=
  match ranges.find? (fun r => decide (r.1 ≤ off) && decide (off < r.1 + r.2.1)) with
  | some r => r.2.2
  | none => (ranges.getLast?.map (fun r => r.2.2)).getD 0

/-- The STATUS that a core gives with LAST: DONE, NO_SPACE, BOUNDS and FORMAT pass (R484). -/
def coreStatusOk (st : Nat) : Bool := st == 0 || st == 0x05 || st == 0x0E || st == 0x10

/-- The interface takes one EMIT value. -/
def takeEmit (s : State) (c v : Nat) : State :=
  let k := coreOf s c
  let u := coreUnit s c
  let tag := fld v 15 0
  match coreTicket k tag with
  | none => bump s (coreRegs s Reg.GLY_CORE_COUNTS c) 7 0 1
  | some t =>
    if t.revoked || !stillRuns s tag then s
    else
      let n := fld v 28 16
      let src := fld v 58 40
      let r := readCore s c src n
      if !r.1 then failAt r.2 tag t.step u 0x0F
      else
        let s := r.2
        let k := coreOf s c
        let s := if n = 0 then s
          else sendOut s tag t.step u (memRead k.mem src n) (stationFor t.ranges t.out) t.prov
        let s := setCore s c (modCoreTicket (coreOf s c) tag (fun t => { t with out := t.out + n }))
        if !bitOf v 29 then s
        else
          let st := fld v 39 32
          let ok := coreStatusOk st
          let s := if ok then s else bump s (coreRegs s Reg.GLY_CORE_COUNTS c) 15 8 1
          let k := coreOf s c
          let s := setCore s c { k with inside := k.inside.filter (fun x => x.tag != tag) }
          if st = 0 then endOut s tag t.step u (ctxOf s tag t.step).inBytes (t.ended.getD t.prov)
          else failAt s tag t.step u (if ok then st else 0x10)

/-- The interface takes everything that is queued, oldest first. -/
def drainEmit : Nat → State → Nat → State
  | 0, s, _ => s
  | f + 1, s, c =>
    match (coreOf s c).emitq with
    | [] => s
    | v :: t => drainEmit f (takeEmit (setCore s c { coreOf s c with emitq := t }) c v) c

/-- The emit queues of all cores are taken. -/
def drainEmits (s : State) : State := (Tab.keys s.cores).foldl (fun s c => drainEmit 8 s c) s

/-- One microsecond of core cycles: a running core counts its island's MHz (R471). -/
def countCycles (s : State) : State :=
  { s with cores := Tab.mapVals s.cores (fun c k =>
      if k.state = .running ∨ k.state = .waiting then
        k.setCr 0x0A (k.cr 0x0A + BitVec.ofNat 64 (islandAt s (coreHw c)).mhz)
      else k) }

end Sys2Proof.Machine
end

