-- ==== Sys2Proof/Machine/TrustBase.lean ====
section
/-! DEFINITION. What other blocks ask of the trust unit (19_trust_and_attestation.md): measurements, registries, and signer
keys. -/

namespace Sys2Proof.Machine

/-- Change the trust unit's state. -/
def setTru (s : State) (t : Tru) : State := { s with tru := t }

/-- A measurement record (R654). -/
def measRecord (index kind unit owner gen seq : Nat) (imageId digest : Bytes) (signer key : Nat) : Bytes :=
  natLe 1 index ++ natLe 1 kind ++ natLe 2 unit ++ natLe 2 owner ++ natLe 2 gen ++ natLe 8 seq ++ fit 16 imageId ++
    fit 48 digest ++ natLe 1 signer ++ natLe 1 key ++ zeros 14

/-- HISTORY of an index, 0 until it is first extended (R655). -/
def historyOf (s : State) (i : Nat) : Bytes := (Tab.get? s.tru.history i).getD (zeros 48)

/-- HISTORY := SHA-384(HISTORY ‖ record), and CURRENT is the record (R655). -/
def extendMeas (s : State) (i : Nat) (rcd : Bytes) : State :=
  setTru s { s.tru with
    history := Tab.set s.tru.history i (sha384 (historyOf s i ++ rcd)), current := Tab.set s.tru.current i rcd }

/-- Both are zeroed (R655: when SCRUBBING ends). -/
def zeroMeas (s : State) (i : Nat) : State :=
  setTru s { s.tru with history := Tab.erase s.tru.history i, current := Tab.erase s.tru.current i }

/-- The registry of an instance (R663). -/
def registryOf (s : State) (i : Nat) : KeyReg := Tab.getD s.tru.registries i {}

/-- CLAIMED (R663). -/
def claimed (s : State) : Bool := (registryOf s 0).entries.any (fun e => !e.isEmpty)

/-- The instance that a function answers as (R660): a PF's DOE and MCTP as instance 0. -/
def fnInst (fn : Nat) : Nat := if fn < 2 ∨ fn = 0xFFFF then 0 else fn - 1

/-- A PF's DOE or MCTP: the operator's side (R660, R667). -/
def isOperator (fn : Nat) : Bool := decide (fn < 2) || decide (fn = 0xFFFF)

/-- A session is attested (R662): mutual, bound, its keys' hash stands in the registry that its function may use now, and the P-384 key is
the requester's. -/
def isAttested (s : State) (x : Sess) : Bool :=
  match x.bound with
  | none => false
  | some b => x.established && x.reqKey == some b.2 && (registryOf s (fnInst x.fn)).entries.contains b.1

/-- A test session is open (R668). -/
def testActive (s : State) : Bool := s.tru.testBy.isSome

/-- The state word of KIND 4 (R656). -/
def secState (s : State) : Nat :=
  s.tru.lifecycle % 4 + 4 * b2n (testActive s) + 8 * b2n (claimed s) + 256 * (s.tru.revoked % 256)

/-- The security state is measured into index 4 (R655). -/
def measSecurity (s : State) : State := extendMeas s 4 (measRecord 4 4 0xFFFF 0 0 (secState s) [] [] 0 0)

/-- The key hash of R62 for a signer, key index and instance: Stebeun from boot ROM unless revoked, operator and tenant from
the registries. -/
def signerHash (s : State) (signer key inst : Nat) : Option Bytes :=
  match signer with
  | 1 => if bitOf s.tru.revoked key then none else some (Config.stebeunHash key)
  | 2 => ((registryOf s 0).entries[key]?).bind (fun e => if e.isEmpty then none else some e)
  | 3 => if inst = 0 then none else ((registryOf s inst).entries[key]?).bind (fun e => if e.isEmpty then none else some e)
  | _ => none

end Sys2Proof.Machine
end

