-- ==== Sys2Proof/Machine/Fens.lean ====
section
/-! DEFINITION. Fens (03_fabric_and_fens.md): the port interface, the control window, holds, scrubbing, overpower and the
alias table. Loading an image stands in Loader.lean. -/

namespace Sys2Proof.Machine

/-- The address of fen `f`'s copy of register `a`. -/
def fenReg (a f : Nat) : Nat := a + 0x40 * f

/-- The fen's logic is clocked: RUNNING, DRAINING or FENCING (R111). -/
def fenClocked (x : Fen) : Bool :=
  match x.state with
  | .running | .draining | .fencing => true
  | _ => false

/-! ## The port interface (R107–R110) -/

/-- A transfer or end token reaches fen `f` on an input port: the ticket is inside from then on (R107, R110). `direct`: over
the causeway from the fen's own flash channel. -/
def fenInput (s : State) (f : Nat) (direct : Bool) (p : Packet) : State :=
  let x := fenOf s f
  let port := match x.image with
    | some i => inputPort i direct
    | none => 1
  let inside := if x.inside.any (fun t => t.tag == p.tag) then x.inside
    else x.inside ++ [{ tag := p.tag, step := p.step, port := port }]
  let inside := inside.map (fun t => if t.tag ≠ p.tag then t
    else if p.endTok then { t with ended := some p.prov }
    else { t with prov := t.prov || p.prov, ranges := t.ranges ++ [(p.off, p.data.length, p.station)] })
  let s := setFen s f { x with inside := inside }
  countCtx s p.tag p.step p.data.length 0

/-- The output port of a ticket: that of its input, T0 for one that entered on D (R107). -/
def outPort (t : FIn) : Nat := if t.port = 0 then 1 else t.port

/-- Output beats of a ticket that is not inside are discarded and counted in FOREIGN_TICKET (R109); so are those of a ticket that
is inside, on a port other than its own: R107 forbids them and names no outcome (DESIGN CHOICE, log 165). -/
def fenTicket (x : Fen) (port tag : Nat) : Option FIn := x.inside.find? (fun t => t.tag == tag && outPort t == port)

/-- Bits of one beat on an output port: WIDTH of the port map, 64 where the map gives the port none (R105). -/
def beatBits (x : Fen) (port : Nat) : Nat :=
  let w := match x.image with
    | some i => portWidth i port
    | none => 0
  if w = 0 then 64 else w

/-- FEN_OUTPUT_BEAT (R109, R110): one output transfer goes to the next step with PROV and STATION as the interface gives
them. -/
def execFenOutputBeat (fen port tag offset : Nat) (data : Bytes) (s : State) : Out :=
  let x := fenOf s fen
  if !fenClocked x then .next s
  else match fenTicket x port tag with
    | none => .next (bump s (fenReg Reg.FAB_FEN_PORTERR fen) 15 0 (max 1 (ceilDiv (data.length * 8) (beatBits x port))))
    | some t =>
      if t.revoked || !stillRuns s tag then .next s
      else
        let data := data.take 4096
        let s := sendData s tag t.step (32 + fen) (offset / 4096) offset data (stationFor t.ranges offset) t.prov
        let s := countCtx s tag t.step 0 data.length
        .next (setFen s fen { x with inside := x.inside.map (fun y =>
          if y.tag = tag then { y with out := y.out + data.length } else y) })

/-- FEN_LAST (R107, R108): the fen ends its output for a ticket; as the last station it reports the byte count of the end token
that it took (R782). -/
def execFenLast (fen port tag status : Nat) (s : State) : Out :=
  let x := fenOf s fen
  if !fenClocked x then .next s
  else match fenTicket x port tag with
    | none => .next (bump s (fenReg Reg.FAB_FEN_PORTERR fen) 15 0 1)
    | some t =>
      let s := setFen s fen { x with inside := x.inside.filter (fun y => y.tag != tag) }
      let ok := status == 0 || status == 0x0E || status == 0x10
      let s := if ok || t.revoked then s else bump s (fenReg Reg.FAB_FEN_PORTERR fen) 31 24 1
      if t.revoked || !stillRuns s tag then .next s
      else if status = 0 then .next (endOut s tag t.step (32 + fen) (ctxOf s tag t.step).inBytes (t.ended.getD t.prov))
      else .next (failAt s tag t.step (32 + fen) (if ok then status else 0x10))

/-- A revoke token at a fen: REVOKE is passed to the fen logic, and every later output beat is discarded (R109). -/
def fenRevoke (s : State) (f tag : Nat) : State :=
  let x := fenOf s f
  setFen s f { x with inside := x.inside.map (fun t => if t.tag = tag then { t with revoked := true } else t) }

/-! ## The control window (R111) -/

/-- Window C may be reached on this path: a DEVICE_FEN through FAB_FEN_CTLWIN, a TENANT_FEN by its owner. -/
def winPath (s : State) (f : Nat) (via : Option Nat) : Bool :=
  let r := unitOf s (32 + f)
  match via with
  | none => r.role == 3
  | some i => r.role == 5 && r.owner == i && i != 0

/-- The fen logic answers: it is clocked and its PORT_MAP gives port C a width. -/
def winAnswers (x : Fen) : Bool :=
  fenClocked x && (match x.image with
    | some i => i.ports.any (fun p => p.port == 5 && p.width == 4)
    | none => false)

/-- An access to register `reg` of window C of fen `f`; `answer` is what the fen logic returns to a read. The value read, and
the state. -/
def winAccess (s : State) (f reg : Nat) (via : Option Nat) (write : Option Word) (answer : Nat) : Nat × State :=
  let x := fenOf s f
  if !winPath s f via || !winAnswers x then (0, s)
  else match write with
    | some v => (0, setFen s f { x with window := Tab.set x.window (reg % 1024) v.toNat })
    | none => (answer % 2 ^ 32, setFen s f { x with window := Tab.set x.window (reg % 1024) (answer % 2 ^ 32) })

/-- FEN_CTLWIN_ACCESS (R111, R144). -/
def execFenCtlwinAccess (fen : Nat) (reg : Mmio) (via : Option Nat) (write : Option Word) (answer : Word) (s : State) : Out :=
  onPage s via reg.ide (fun s =>
    let r := winAccess s fen reg.place via write answer.toNat
    if write.isNone then { r.2 with regs := { r.2.regs with readData := r.1 } } else r.2)

/-- CTLWIN_TIMEOUT (R111): an access that the clocked fen logic did not answer or accept within 2 µs is counted; the read
returns 0, the write is dropped. -/
def execCtlwinTimeout (fen : Nat) (write : Bool) (s : State) : Out :=
  let s := if winAnswers (fenOf s fen) then bump s (fenReg Reg.FAB_FEN_PORTERR fen) 23 16 1 else s
  .next (if write then s else { s with regs := { s.regs with readData := 0 } })

/-! ## Holds (R125, R126) -/

/-- A hold is requested: RUNNING goes to FENCING. -/
def fenHold (s : State) (f : Nat) : State :=
  let x := fenOf s f
  if x.state = .running then setFen s f { x with state := .fencing } else s

/-- FENCING ends in HELD. -/
def fenHeld (s : State) (f : Nat) : State :=
  let x := fenOf s f
  if x.state = .fencing then setFen s f { x with state := .held } else s

/-- FEN_FENCING_DONE (R125): every port is at a boundary. -/
def execFenFencingDone (fen : Nat) (s : State) : Out := .next (fenHeld s fen)

/-- FENCING_TIMEOUT (R125): 100 µs after the request a transfer still incomplete is cut, and its ticket completes with
INSTANCE_RESET. -/
def execFencingTimeout (fen : Nat) (s : State) : Out :=
  let x := fenOf s fen
  if x.state ≠ .fencing then .next s
  else
    let s := fenHeld (setFen s fen { x with inside := [] }) fen
    .next (x.inside.foldl (fun s t =>
      finishTicket (fenceTicket s t.tag 0x0C (fun e => { e with instReset := true })) t.tag) s)

/-- Release from HELD: every storage element starts from its image value, block memory by MEM_POLICY (R126). -/
def fenRelease (s : State) (f : Nat) : State :=
  let x := fenOf s f
  if x.state ≠ .held then s
  else setFen s f { x with
    state := .running, inside := [], window := [],
    mem := if eff s (fenReg Reg.FAB_FEN_CFG f) 16 16 = 1 then [] else x.mem }

/-- RELEASE of R602: every HELD fen and core of the instance, while its STATE is READY. -/
def releaseHolds (s : State) (i : Nat) : State :=
  if instState s i ≠ .ready ∨ i = 0 then s
  else
    let s := ((List.range 40).filter (fun f => (unitOf s (32 + f)).owner == i)).foldl fenRelease s
    ((List.range 32).filter (fun c => (unitOf s (88 + c)).owner == i)).foldl
      (fun s c => coreRelease s (coreIndex s (88 + c))) s

/-- HOLD_RELEASE (R126, R491, R602). -/
def execHoldRelease (inst : Nat) (s : State) : Out := .next (releaseHolds s inst)

/-! ## Scrubbing and overpower (R123, R128) -/

/-- The fen goes to SCRUBBING: its image leaves service; DEV STATE is IDLE (R122, R123). A fen in TEST scrubs when its test has
passed. The reduction of R128 stays in force until the next image load. -/
def fenScrub (s : State) (f : Nat) : State :=
  let x := fenOf s f
  if x.state = .offline ∨ x.state = .test then s
  else
    let s := setFen s f { x with state := .scrubbing, image := none, mem := [], inside := [], window := [] }
    if (unitOf s (32 + f)).state = .active then unitState s (32 + f) .idle else s

/-- FEN_SCRUB_DONE (R122, R123): configuration and block memory are zero; the measurements are zeroed (R655). -/
def execFenScrubDone (fen : Nat) (s : State) : Out :=
  let x := fenOf s fen
  if x.state = .scrubbing then
    .next (zeroMeas (setFen s fen { x with state := .empty, image := none, mem := [], window := [], inside := [] }) (16 + fen))
  else .next s

/-- FEN_OVERPOWER (R128): power above 1.25 × POWER_MW over three consecutive epochs, as EPOCH_START has counted them, halves
RUN_MHZ, rounded down, as a fixed cap (DESIGN CHOICE, log 203), not below 25 MHz. The reading is the third epoch's. -/
def execFenOverpower (fen milliwatts : Nat) (s : State) : Out :=
  let x := fenOf s fen
  let s := setLive s (fenReg Reg.FAB_FEN_POWER fen) 31 16 (min milliwatts 65535)
  match x.image with
  | none => .next s
  | some i =>
    if fenClocked x ∧ 3 ≤ x.hot ∧ 5 * i.power < 4 * milliwatts then
      let s := setFen s fen { x with halved := some (max 25 (runMhz s fen / 2)), overpower := true, hot := 0 }
      .next (record s 0x0031 sevFree 0 (32 + fen) (unitOf s (32 + fen)).owner (natLe 2 milliwatts ++ natLe 2 i.power))
    else .next s

/-! ## Aliases (R129–R131) -/

/-- Enabled alias entries whose target is unit `v` are disabled (R131). -/
def dropAlias (s : State) (v : Nat) : State :=
  (List.range 40).foldl (fun s f =>
    let a := fenReg Reg.FAB_FEN_ALIAS f
    if eff s a 31 31 = 1 ∧ eff s a 7 0 = v then setEff s a 31 31 0 else s) s

/-- Fen `f` is the source of an enabled alias. -/
def isAliased (s : State) (f : Nat) : Bool := eff s (fenReg Reg.FAB_FEN_ALIAS f) 31 31 == 1

/-- Unit `v` is the target of an enabled alias. -/
def isAliasTarget (s : State) (v : Nat) : Bool :=
  (List.range 40).any (fun f => isAliased s f && eff s (fenReg Reg.FAB_FEN_ALIAS f) 7 0 == v)

/-- Why the ALIAS group's set is refused (R130): `enable` and `target` of each entry as the set gives them. -/
def aliasRefused (s : State) (en : Nat → Bool) (target : Nat → Nat) : Bool :=
  (List.range 40).any (fun f => en f &&
    (let v := target f
     let g := v - 32
     let y := fenOf s g
     decide ((fenOf s f).state = .loading) || decide (v < 32) || decide (72 ≤ v) || kindOf v != kindOf (32 + f) ||
       decide (y.state ≠ .running) || (unitOf s v).owner != (unitOf s (32 + f)).owner || (decide (v < 72) && en g) ||
       (List.range 40).any (fun h => h != f && en h && target h == v) ||
       (decide (f < 32) && !(match y.image with
         | some i => i.ports.any (fun p => p.port == 1 && p.line && p.width != 0)
         | none => false))))

end Sys2Proof.Machine
end

