-- ==== Sys2Proof/Machine/Container.lean ====
section
/-! DEFINITION. Heray containers (02_configuration_stream.md): the layout of R55–R63, the sections of a structure stream
(R64–R72, R149, R150, R202, R203), and the screener's walk of a fen image (R79, R80, R115–R121). -/

namespace Sys2Proof.Machine

/-! ## The header (R55–R60) -/

/-- Header fields of R56. -/
def hKind (h : Bytes) : Nat := leAt h 6 1
/-- ENCRYPTED. -/
def hEnc (h : Bytes) : Bool := bitOf (leAt h 7 1) 0
/-- SET_FLOOR. -/
def hSetFloor (h : Bytes) : Bool := bitOf (leAt h 7 1) 1
/-- TOTAL_LENGTH. -/
def hTotal (h : Bytes) : Nat := leAt h 8 8
/-- SEQUENCE. -/
def hSeq (h : Bytes) : Nat := leAt h 16 8
/-- TARGET_KIND. -/
def hTargetKind (h : Bytes) : Nat := leAt h 27 1
/-- SECTION_COUNT. -/
def hSections (h : Bytes) : Nat := leAt h 28 2
/-- SIG_SETS. -/
def hSets (h : Bytes) : Nat := leAt h 30 2
/-- BLOCK_COUNT. -/
def hBlocks (h : Bytes) : Nat := leAt h 32 4
/-- BLOCKS_OFFSET. -/
def hOffset (h : Bytes) : Nat := leAt h 36 4
/-- IMAGE_ID. -/
def hImageId (h : Bytes) : Bytes := slice h 40 16
/-- Where the block table starts. -/
def blkAt (h : Bytes) : Nat := 256 + 32 * hSections h
/-- Where the key-wrap record starts. -/
def wrapAt (h : Bytes) : Nat := blkAt h + 80 * hBlocks h
/-- Where the signature area starts: the end of the signed range. -/
def sigAt (h : Bytes) : Nat := wrapAt h + 64 * b2n (hEnc h)
/-- The signed range (R55). -/
def signedRange (h : Bytes) : Bytes := slice h 0 (sigAt h)
/-- Signature set `k`. -/
def sigSet (h : Bytes) (k : Nat) : Bytes := slice h (sigAt h + 8192 * k) 8192

/-- A section table entry (R57): TYPE, FIRST_BLOCK, BLOCKS, LENGTH. -/
structure Section where
  type : Nat
  first : Nat
  blocks : Nat
  len : Nat
deriving DecidableEq, Repr

/-- Section table entry `k`. -/
def sectionAt (h : Bytes) (k : Nat) : Section :=
  let b := slice h (256 + 32 * k) 32
  { type := leAt b 0 2, first := leAt b 4 4, blocks := leAt b 8 4, len := leAt b 16 8 }

/-- The section table. -/
def sectionsOf (h : Bytes) : List Section := (List.range (hSections h)).map (sectionAt h)

/-- The section that owns block `n`, by index. -/
def ownerOf (h : Bytes) (n : Nat) : Option (Nat × Section) :=
  ((List.range (hSections h)).map (fun k => (k, sectionAt h k))).find?
    (fun p => decide (p.2.first ≤ n) && decide (n < p.2.first + p.2.blocks))

/-- VALID_LENGTH that R58 gives block `n`. -/
def validLen (h : Bytes) (n : Nat) : Nat :=
  match ownerOf h n with
  | some (_, x) => if n + 1 = x.first + x.blocks then x.len - 65536 * (x.blocks - 1) else 65536
  | none => 0

/-- Reserved bytes of the section table, the block table, the key-wrap record and the signature sets are 0, and the padding
up to BLOCKS_OFFSET. A KEY_INDEX above 7 fails here too (R60; DESIGN CHOICE, log 201). -/
def reservedOk (h : Bytes) : Bool :=
  isZero h 56 200 &&
  (List.range (hSections h)).all (fun k =>
    let a := 256 + 32 * k
    isZero h (a + 2) 2 && isZero h (a + 12) 4 && isZero h (a + 24) 8) &&
  (List.range (hBlocks h)).all (fun n =>
    let a := blkAt h + 80 * n
    isZero h (a + 2) 2 && isZero h (a + 8) 8 && (hEnc h || isZero h (a + 64) 16)) &&
  (!hEnc h || (
    let a := wrapAt h
    isZero h (a + 1) 1 && isZero h (a + 4) 4 && isZero h (a + 48) 16 &&
      (leAt h a 1 == 2 || (leAt h a 1 == 1 && leAt h (a + 2) 2 == 0)) && decide (leAt h (a + 2) 2 < 4096))) &&
  (List.range (hSets h)).all (fun k =>
    let b := sigSet h k
    isZero b 2 6 && isZero b 7420 772 && decide (leAt b 1 1 < 8)) &&
  isZero h (sigAt h + 8192 * hSets h) (hOffset h - (sigAt h + 8192 * hSets h))

/-- The section types of a kind, the required ones, and the longest payload of each (R64). MEMORY_INIT's bound is taken of its whole
payload, record heads and padding among it (DESIGN CHOICE, log 168). -/
def typesOk (h : Bytes) : Bool :=
  let ts := (sectionsOf h).map (·.type)
  let fen := hKind h == 2
  let bulk := hTargetKind h == 3
  let rising := (ts.zip (ts.drop 1)).all (fun p => decide (p.1 < p.2))
  let allowed : Nat → Bool := fun t =>
    if fen then decide (0x101 ≤ t) && decide (t ≤ 0x103) else decide (1 ≤ t) && decide (t ≤ 6)
  let need := if fen then [0x101, 0x102] else [1, 2, 4, 5, 6]
  rising && ts.all allowed && need.all (fun t => ts.contains t) &&
    (sectionsOf h).all (fun x =>
      match x.type with
      | 0x101 => decide (x.len ≤ if bulk then 25165824 else 2097152)
      | 0x103 => decide (x.len ≤ if bulk then 2097152 else 262144)
      | 1 => decide (x.len ≤ 262144)
      | _ => true)

/-- The chain of sections and blocks (R57, R58, R63). -/
def chainOk (h : Bytes) : Bool :=
  let l := sectionsOf h
  let r := l.foldl (fun (p : Nat × Bool) x =>
    (p.1 + x.blocks, p.2 && x.first == p.1 && decide (1 ≤ x.len) && x.blocks == ceilDiv x.len 65536)) (0, true)
  r.2 && r.1 == hBlocks h && hTotal h == hOffset h + 65536 * hBlocks h &&
    (List.range (hBlocks h)).all (fun n =>
      let a := blkAt h + 80 * n
      (match ownerOf h n with
        | some (k, _) => leAt h a 2 == k
        | none => false) && leAt h (a + 4) 4 == validLen h n)

/-- Step 2 of R76: the fixed header, the section table and R63, as far as the bytes before the blocks show. -/
def headerOk (h : Bytes) : Bool :=
  let kind := hKind h
  slice h 0 4 == ascii "HRAY" && leAt h 4 2 == 1 && (kind == 1 || kind == 2) && decide (leAt h 7 1 < 4) &&
  (!hSetFloor h || kind == 1) && decide (hTotal h ≤ 268435456) && leAt h 24 2 == 0x9632 && leAt h 26 1 == 0xB0 &&
  (if kind = 1 then hTargetKind h == 0 else hTargetKind h == 2 || hTargetKind h == 3) &&
  decide (1 ≤ hSections h) && decide (hSections h ≤ 16) && hSets h == (if kind = 1 then 2 else 1) &&
  decide (1 ≤ hBlocks h) && decide (hBlocks h ≤ 4000) &&
  hOffset h == ceilDiv (sigAt h + 8192 * hSets h) 4096 * 4096 && reservedOk h && typesOk h && chainOk h

/-- The signer of a set and its registered hash: the key is accepted (R62). -/
def setAccepted (s : State) (h : Bytes) (k inst : Nat) : Bool :=
  let b := sigSet h k
  signerHash s (leAt b 0 1) (leAt b 1 1) inst == some (sha384 (slice b 8 2592 ++ slice b 2600 97))

/-- Both signatures of set `k` verify over a message (R61). -/
def setVerifies (h : Bytes) (k : Nat) (msg : Bytes) : Bool :=
  let b := sigSet h k
  Config.mldsaOk (slice b 8 2592) msg (slice b 2697 4627) && Config.ecdsaOk (slice b 2600 97) msg (slice b 7324 96)

/-- Steps 3 of R76 for a structure stream: signers and the floor (R70, R71). -/
def streamAuthority (s : State) (h : Bytes) : Bool :=
  leAt (sigSet h 0) 0 1 == 1 && leAt (sigSet h 1) 0 1 == 2 && setAccepted s h 0 0 && setAccepted s h 1 0 &&
    decide (s.cfg.floor ≤ hSeq h)

/-- Step 4 for any container: every signature (R61). -/
def signaturesOk (h : Bytes) : Bool :=
  setVerifies h 0 (signedRange h) && (hSets h == 1 || setVerifies h 1 (signedRange h ++ sigSet h 0))

/-! ## Line tables (R149, R150, R779 and the stations' chapters) -/

/-- A line entry of 64 bytes. -/
def parseLine (b : Bytes) : Line where
  dirty := bitOf (leAt b 3 1) 0
  sysOnly := bitOf (leAt b 3 1) 1
  flush := bitOf (leAt b 3 1) 2
  cls := leAt b 4 1
  steps := (List.range (leAt b 2 1)).map (fun k => {
    sel := leAt b (16 + 4 * k) 1, target := leAt b (17 + 4 * k) 1, scale := leAt b (18 + 4 * k) 1,
    mode := leAt b (19 + 4 * k) 1 })

/-- KINDs that act as stations (R779). -/
def stationKind (k : Nat) : Bool :=
  (decide (1 ≤ k) && decide (k ≤ 0x0D)) || k == 0x0F || k == 0x11 || k == 0x13

/-- The highest MODE that a station kind defines. -/
def modeMax (k : Nat) : Nat :=
  match k with
  | 0x01 | 0x06 | 0x07 | 0x09 | 0x11 => 3
  | 0x04 | 0x05 | 0x08 | 0x0C => 1
  | 0x0F => 2
  | _ => 0

/-- A step on its own: selector, target, scale and mode (R150, R779). -/
def stepOk (st : LStep) : Bool :=
  decide (st.sel < 4) && decide (1 ≤ st.scale) &&
  (match st.sel with
    | 0 => stationKind (kindOf st.target) && decide (st.target < 218)
    | 1 => stationKind st.target
    | _ => st.target == 0) &&
  decide (st.mode ≤ modeMax (stepKind st))

/-- Where a step stands in its line: `first`, `last`, the steps before and after it. -/
def placeOk (l : Line) (n k : Nat) (st : LStep) : Bool :=
  let first := k == 0
  let last := k + 1 == l.steps.length
  let next := l.steps[k + 1]?
  let before := if k = 0 then none else l.steps[k - 1]?
  let kind := stepKind st
  (st.sel != 3 || (before.map (·.sel)) == some 2) &&
  (match kind with
    | 0x01 => l.sysOnly || decide (st.mode ≤ 1)
    | 0x0F =>
      (match st.mode with
        | 0 => last
        | 1 => !l.dirty && k + 2 == l.steps.length && (match next with
            | some x => x.sel == 2 && x.mode == 1
            | none => false)
        | _ => n == 4092)
    | 0x11 => st.mode != 3 || (first && n == 4095)
    | 0x09 => !first && (if st.mode = 3 then last else !last)
    | 0x0A | 0x0B => first || last
    | 0x0C => if st.mode = 0 then last else first && st.sel == 1
    | 0x04 | 0x05 => st.mode == 0 || last
    | 0x06 => st.mode != 0 || (l.steps.drop (k + 1)).all (fun x => stepKind x != 0x0F || decide (st.scale ≤ x.scale))
    | _ => true)

/-- The four lines of R290: their steps (selector, target, mode), class and attributes. -/
def fixedLine (n : Nat) (l : Line) : Bool :=
  let shape := l.steps.map (fun st => (st.sel, st.mode))
  match n with
  | 4092 => shape.length == 2 && (l.steps.map stepKind) == [0x0F, 0x01] && (l.steps.map (·.mode)) == [2, 1] &&
      (l.steps[1]?.map (·.sel)) == some 2 && l.cls == 1 && l.sysOnly && l.flush && !l.dirty
  | 4093 | 4094 => shape == [(2, 0), (2, 2)] && l.cls == 2 && l.sysOnly && !l.flush && !l.dirty
  | 4095 => shape == [(0, 3), (2, 1)] && (l.steps.head?.map (·.target)) == some 189 && l.cls == 1 && l.sysOnly && l.flush &&
      !l.dirty
  | _ => true

/-- Line entry `n` (R149, R150, R216, R289, R290). An undefined entry meets R149 too: LINE, DEFAULT_CLASS 1 to 15, and zeros where
the rule has them; its DEFAULT_CLASS may be 1 without SYSTEM_ONLY (DESIGN CHOICE, log 205). -/
def lineOk (n : Nat) (b : Bytes) : Bool :=
  let steps := leAt b 2 1
  let l := parseLine b
  leAt b 0 2 == n && isZero b 5 11 && decide (leAt b 3 1 < 8) && fixedLine n l &&
  isZero b (16 + 4 * steps) (48 - 4 * steps) && decide (1 ≤ l.cls) && decide (l.cls ≤ 15) && (!l.flush || l.sysOnly) &&
  (if steps = 0 then true
    else decide (2 ≤ steps) && decide (steps ≤ 12) && (l.sysOnly || l.cls != 1) &&
      (!l.dirty || (match l.steps.getLast? with
        | some x => stepKind x == 0x0F && x.mode == 0
        | none => false)) &&
      (List.range steps).all (fun k => match l.steps[k]? with
        | some st => stepOk st && placeOk l n k st
        | none => false))

/-- The LINE_TABLE section: all 4,096 entries, the four fixed lines among them (log 149). -/
def linesOk (b : Bytes) : Bool :=
  b.length % 64 == 0 && b.length == 262144 && (List.range 4096).all (fun n => lineOk n (slice b (64 * n) 64))

/-- The line table in force after a LINE_TABLE section is applied. -/
def parseLines (b : Bytes) : Tab Line :=
  (List.range (b.length / 64)).foldl (fun t n =>
    let l := parseLine (slice b (64 * n) 64)
    if l.steps.isEmpty then t else Tab.set t n l) []

/-! ## The other sections of a structure stream (R65–R68, R202, R203, R437) -/

/-- A role that UNIT_ROLES may give to a unit (R65, R66). -/
def roleOk (u role : Nat) : Bool :=
  let k := kindOf u
  if k = 0x00 ∨ k = 0x0E then role == 0
  else if u = 186 ∨ u = 187 ∨ u = 189 then role == 1
  else if 188 ≤ u then role == 2
  else match role with
    | 0 => true
    | 1 => [0x01, 0x06, 0x07, 0x08, 0x09, 0x0A, 0x0B, 0x0C, 0x0D].contains k
    | 2 => k == 0x04
    | 3 => k == 0x02 || k == 0x03
    | 4 => k == 0x02 || k == 0x03 || k == 0x05
    | _ => false

/-- R72: a unit that holds a tenant grant may only get TENANT_POOL, or SHARED for an engine. -/
def grantKept (s : State) (u role : Nat) : Bool :=
  match (unitOf s u).role with
  | 5 | 6 => role == 4
  | 7 => role == 1
  | _ => true

/-- The UNIT_ROLES section. -/
def rolesOk (s : State) (b : Bytes) : Bool :=
  b.length == 218 * 8 && (List.range 218).all (fun u =>
    let role := leAt b (8 * u) 1
    isZero b (8 * u + 1) 7 && roleOk u role && grantKept s u role)

/-- The TRUNK_ROUTES section (R67). -/
def routesOk (b : Bytes) : Bool :=
  let n := b.length / 4
  let pairs := (List.range n).map (fun k => leAt b (4 * k) 2)
  b.length % 4 == 0 && pairs.eraseDups.length == n &&
    (List.range n).all (fun k => decide (leAt b (4 * k + 2) 1 ≤ 1) && leAt b (4 * k + 3) 1 == 0)

/-- The pairs that route YX. -/
def parseRoutes (b : Bytes) : List Nat :=
  (List.range (b.length / 4)).filterMap (fun k =>
    if leAt b (4 * k + 2) 1 = 1 then some (leAt b (4 * k) 1 * 256 + leAt b (4 * k + 1) 1) else none)

/-- The CLOCK_PLAN section (R202, R437). -/
def clocksOk (b : Bytes) : Bool :=
  let keys := (List.range 184).map (fun k => leAt b (8 * k) 1)
  let planOf : Nat → Option Nat := fun key =>
    ((List.range 184).find? (fun k => leAt b (8 * k) 1 == key)).map (fun k => leAt b (8 * k + 1) 3)
  b.length == 184 * 8 && keys.eraseDups.length == 184 &&
  (List.range 184).all (fun k =>
    let key := leAt b (8 * k) 1
    let mhz := leAt b (8 * k + 2) 2
    isIslandKey key && decide (2 ≤ leAt b (8 * k + 1) 1) && decide (leAt b (8 * k + 1) 1 ≤ 4) && decide (25 ≤ mhz) &&
      decide (mhz ≤ pointMhz key 4) && isZero b (8 * k + 4) 4) &&
  planOf 156 == planOf 152 && planOf 160 == planOf 152 && planOf 164 == planOf 152

/-- The POWER_DOMAINS section (R203). -/
def domainsOk (b : Bytes) : Bool :=
  let keys := (List.range 176).map (fun k => leAt b (4 * k) 1)
  b.length == 176 * 4 && keys.eraseDups.length == 176 &&
  (List.range 176).all (fun k =>
    isIslandKey (leAt b (4 * k) 1) && decide (leAt b (4 * k) 1 < 0xE8) && decide (leAt b (4 * k + 1) 1 ≤ 31))

/-- The FIRMWARE_REFS section (R68). -/
def refsOk (b : Bytes) : Bool :=
  b.length % 8 == 0 && (List.range (b.length / 8)).all (fun k =>
    decide (72 ≤ leAt b (8 * k) 1) && decide (leAt b (8 * k) 1 ≤ 87) && leAt b (8 * k + 1) 1 == 0)

/-- The payload of a section in a list of sections. -/
def payloadOf (l : List (Nat × Bytes)) (type : Nat) : Bytes := ((l.find? (fun p => p.1 == type)).map (·.2)).getD []

/-- Step 8 of R76 for a structure stream. -/
def streamOk (s : State) (l : List (Nat × Bytes)) : Bool :=
  linesOk (payloadOf l 1) && clocksOk (payloadOf l 2) && routesOk (payloadOf l 3) && rolesOk s (payloadOf l 4) &&
    domainsOk (payloadOf l 5) && refsOk (payloadOf l 6)

/-! ## Fen images (R115–R121) -/

/-- Tiles of a fen kind (R102). -/
def tilesX (kind : Nat) : Nat := if kind = 3 then 12 else 4
/-- Rows. -/
def tilesY (kind : Nat) : Nat := if kind = 3 then 16 else 4
/-- Block memory banks of a tile (R102). -/
def needBanks (kind x : Nat) : Nat := if kind = 3 then (if x % 3 = 2 then 8 else 0) else 4
/-- The tile has a multiply-accumulate block. -/
def hasMac (kind x : Nat) : Bool := kind != 3 || x % 3 != 2
/-- The tile stands at the fen's edge. -/
def edgeTile (kind x y : Nat) : Bool := x == 0 || y == 0 || x + 1 == tilesX kind || y + 1 == tilesY kind

/-- One element record (R117): ELEMENT, SETTING, VALUE. -/
abbrev ERec := Nat × Nat × Nat

/-- The records of tile (x, y). -/
def tileRecs (b : Bytes) (kind x y : Nat) : List ERec :=
  let d := 64 + 8 * (y * tilesX kind + x)
  let off := leAt b d 4
  let len := leAt b (d + 4) 4
  (List.range (len / 8)).map (fun k => (leAt b (off + 8 * k) 2, leAt b (off + 8 * k + 2) 2, leAt b (off + 8 * k + 4) 4))

/-- Every tile in the walk's order (R80). -/
def tilesOf (kind : Nat) : List (Nat × Nat) :=
  (List.range (tilesY kind)).flatMap (fun y => (List.range (tilesX kind)).map (fun x => (x, y)))

/-- The frames of the directory: multiples of 8, at most 122,880 bytes, inside the section, without overlap (R116). -/
def directoryOk (b : Bytes) (kind : Nat) : Bool :=
  let n := tilesX kind * tilesY kind
  let fr := ((List.range n).map (fun k => (leAt b (64 + 8 * k) 4, leAt b (64 + 8 * k + 4) 4))).filter (fun p => p.2 != 0)
  let sorted := sortBy (fun p q => decide (p.1 ≤ q.1)) fr
  decide (64 + 8 * n ≤ b.length) &&
  fr.all (fun p => p.2 % 8 == 0 && decide (p.2 ≤ 122880) && decide (64 + 8 * n ≤ p.1) && decide (p.1 + p.2 ≤ b.length)) &&
    (sorted.zip (sorted.drop 1)).all (fun p => decide (p.1.1 + p.1.2 ≤ p.2.1))

/-- Records stand in ascending ELEMENT and SETTING order, no pair twice (R117). -/
def recsOrdered (l : List ERec) : Bool :=
  (l.zip (l.drop 1)).all (fun p => decide (p.1.1 * 65536 + p.1.2.1 < p.2.1 * 65536 + p.2.2.1))

/-- Pin table entries of a PORT_MAP. -/
def pinCount (b : Bytes) : Nat := (b.length - 64 - 64 * leAt b 0 1) / 4

/-- The structure of a PORT_MAP (R119, R121). -/
def portMapOk (b : Bytes) : Bool :=
  let n := leAt b 0 1
  let ports := (List.range n).map (fun k => leAt b (64 + 64 * k) 1)
  decide (64 + 64 * n ≤ b.length) && (b.length - 64 - 64 * n) % 4 == 0 && isZero b 1 63 && ports.eraseDups.length == n &&
  (List.range n).all (fun k =>
    let a := 64 + 64 * k
    isZero b (a + 3) 1 && isZero b (a + 12) 52 && decide (leAt b (a + 4) 4 + leAt b (a + 8) 4 ≤ pinCount b)) &&
  (List.range (pinCount b)).all (fun k => leAt b (64 + 64 * n + 4 * k + 3) 1 == 0)

/-- The ports of a PORT_MAP. -/
def parsePorts (b : Bytes) : List FPort :=
  (List.range (leAt b 0 1)).map (fun k =>
    let a := 64 + 64 * k
    { port := leAt b a 1, width := leAt b (a + 1) 1, line := leAt b (a + 2) 1 == 1 })

/-- A MEMORY_INIT record (R120): TILE_X, TILE_Y, BANK, BYTE_OFFSET and its data. -/
structure MRec where
  x : Nat
  y : Nat
  bank : Nat
  off : Nat
  data : Bytes
deriving DecidableEq, Repr

/-- The records of a MEMORY_INIT section; none where they do not fill it exactly or a reserved byte is not 0. Padding after a
record's data that is not 0 is treated so too (R120 gives zeros, R121 names no fault: DESIGN CHOICE, log 169). -/
def parseInit : Nat → Bytes → Option (List MRec)
  | 0, b => if b.isEmpty then some [] else none
  | f + 1, b =>
    if b.isEmpty then some []
    else
      let n := leAt b 8 4
      let whole := 16 + ceilDiv n 8 * 8
      if b.length < whole ∨ !isZero b 3 1 ∨ !isZero b 12 4 ∨ !isZero b (16 + n) (whole - 16 - n) then none
      else (parseInit f (b.drop whole)).map (fun t =>
        { x := leAt b 0 1, y := leAt b 1 1, bank := leAt b 2 1, off := leAt b 4 4, data := slice b 16 n } :: t)

/-- R121 and the content header (R115): what rejects the container at step 8 of R76. -/
def fenFormatOk (kind : Nat) (content ports init : Bytes) : Bool :=
  let fmax := leAt content 16 2
  let power := leAt content 18 2
  slice content 0 4 == ascii "OBFN" && leAt content 4 1 == kind && leAt content 5 1 == tilesX kind &&
  leAt content 6 1 == tilesY kind && isZero content 7 1 && isZero content 20 44 &&
  decide (25 ≤ fmax) && decide (fmax ≤ if kind = 3 then 500 else 600) && decide (1 ≤ power) &&
  decide (power ≤ if kind = 3 then 4000 else 600) && directoryOk content kind &&
  (tilesOf kind).all (fun p => recsOrdered (tileRecs content kind p.1 p.2)) && portMapOk ports &&
  (parseInit (init.length / 16 + 1) init).isSome

/-! ## The screener (R79, R80, R118–R121) -/

/-- A breach: rule, TILE_X, TILE_Y, ELEMENT. -/
abbrev Breach := Nat × Nat × Nat × Nat

/-- The value of a setting in a tile's records, 0 where no record gives it (R117). -/
def setting (l : List ERec) (e k : Nat) : Nat := ((l.find? (fun r => r.1 == e && r.2.1 == k)).map (·.2.2)).getD 0

/-- Rule 0x09 for one record (R118). -/
def recReserved (kind x y : Nat) (r : ERec) : Bool :=
  let e := r.1
  let k := r.2.1
  let v := r.2.2
  if e ≤ 0x3FF then
    (match k with
      | 1 | 2 => false
      | 3 => v / 2 ^ 30 != 0
      | 4 => v % 4 == 3 || fld v 6 5 == 3 || v / 2 ^ 13 != 0 || (fld v 6 5 != 2 && fld v 12 8 != 0)
      | _ => true)
  else if e = 0x400 then !hasMac kind x || k != 1 || v % 4 == 3 || decide (4 < fld v 5 2) || v / 2 ^ 7 != 0
  else if 0x500 ≤ e ∧ e ≤ 0x507 then decide (needBanks kind x ≤ e - 0x500) || k != 1 || decide (3 < v % 8) || v / 2 ^ 6 != 0
  else if 0x1000 ≤ e ∧ e ≤ 0x1FDF then k != 1 || decide (4065 < v % 4096) || v / 2 ^ 13 != 0
  else if e = 0x2000 ∨ e = 0x2001 then k != 1 || decide (1 < v)
  else if e = 0x2100 ∨ e = 0x2101 then false
  else if 0x3000 ≤ e ∧ e ≤ 0x30FF then !edgeTile kind x y || k != 1 || v / 2 ^ 9 != 0
  else true

/-- Rule 0x08 for a logic cell's MODE record: clock select 2 takes a local track that an enabled switch drives from an
enabled clock tap of the same tile (R118). -/
def clockBreach (l : List ERec) (r : ERec) : Bool :=
  if r.1 ≤ 0x3FF ∧ r.2.1 = 4 ∧ fld r.2.2 6 5 = 2 then
    let sw := setting l (0x1000 + fld r.2.2 12 8) 1
    let src := sw % 4096
    !(bitOf sw 12 && ((src == 0xFE0 && setting l 0x2000 1 % 2 == 1) || (src == 0xFE1 && setting l 0x2001 1 % 2 == 1)))
  else false

/-- The track that an enabled routing switch puts on track `t` of its tile: a switch is combinational (R118). -/
def driver (l : List ERec) (t : Nat) : Option Nat :=
  let sw := setting l (0x1000 + t) 1
  if t < 4064 ∧ bitOf sw 12 then some (sw % 4096) else none

/-- The tracks behind track `t`, each the driver of the one before, until `t` comes again (the loop) or a track has no switch
(none). -/
def loopFrom (l : List ERec) (t : Nat) : Nat → Nat → Option (List Nat)
  | 0, _ => none
  | f + 1, u =>
    match driver l u with
    | none => none
    | some v => if v = t then some [u] else (loopFrom l t f v).map (u :: ·)

/-- Rule 0x01 within a tile: a loop made of enabled routing switches alone, named by its lowest switch. A loop that passes through
logic cells or tiles is an operand of SCREEN_COMPLETE, since the spec gives no cell's output a track (log 149). -/
def switchLoops (l : List ERec) : List Nat :=
  let on := (l.map (·.1)).filter (fun e => decide (0x1000 ≤ e) && decide (e ≤ 0x1FDF))
  on.eraseDups.filter (fun e => match loopFrom l (e - 0x1000) (on.length + 1) (e - 0x1000) with
    | some c => c.all (fun u => decide (e - 0x1000 ≤ u))
    | none => false)

/-- The breaches of one tile: rule codes ascending. `net`: breaches of the netlist rules 0x01 to 0x03 and 0x05; another code names no
netlist rule and is no breach (R96). -/
def tileBreaches (content : Bytes) (kind x y : Nat) (net : List Breach) : List Breach :=
  let l := tileRecs content kind x y
  let loops : List Breach := (switchLoops l).map (fun e => (1, x, y, e))
  let given := net.filter (fun b => b.2.1 == x && b.2.2.1 == y && [1, 2, 3, 5].contains b.1 && !loops.contains b)
  let own := loops ++ given
  let four := (l.filter (fun r => r.1 == 0x2100 || r.1 == 0x2101)).map (fun r => (4, x, y, r.1))
  let eight := (l.filter (clockBreach l)).map (fun r => (8, x, y, r.1))
  let nine := (l.filter (recReserved kind x y)).map (fun r => (9, x, y, r.1))
  sortBy (fun a b => decide (a.1 ≤ b.1)) (own ++ four ++ eight ++ nine)

/-- Breaches of rule 0x06 in a PORT_MAP (R119). DETAIL, which has no element here, is 0 (DESIGN CHOICE, log 166). -/
def portBreaches (kind : Nat) (b : Bytes) : List Breach :=
  let bad := (parsePorts b).filter (fun p =>
    let has := if kind = 3 then decide (1 ≤ p.port) && decide (p.port ≤ 5) else p.port == 0 || p.port == 1 || p.port == 5
    !has || (if p.port = 5 then p.width != 0 && p.width != 4 else decide (3 < p.width)))
  let n := leAt b 0 1
  let pins := (List.range (pinCount b)).filter (fun k =>
    let a := 64 + 64 * n + 4 * k
    let x := leAt b a 1
    let y := leAt b (a + 1) 1
    decide (tilesX kind ≤ x) || decide (tilesY kind ≤ y) || !edgeTile kind x y)
  bad.map (fun _ => (6, 0xFF, 0xFF, 0)) ++ pins.map (fun _ => (6, 0xFF, 0xFF, 0))

/-- Breaches of rule 0x07: usage fields below the count in the frames or above the fen's capacity (R79, R121). A record past its
bank is judged with the records (`initBreaches`). DETAIL, which has no element here, is 0 (DESIGN CHOICE, log 166). -/
def capacityBreaches (kind : Nat) (content : Bytes) : List Breach :=
  let recs := (tilesOf kind).map (fun p => ((tileRecs content kind p.1 p.2).map (·.1)).eraseDups)
  let cells := (recs.map (fun l => (l.filter (fun e => decide (e ≤ 0x3FF))).length)).sum
  let macs := (recs.map (fun l => (l.filter (· == 0x400)).length)).sum
  let kib := (recs.map (fun l => 4 * (l.filter (fun e => decide (0x500 ≤ e) && decide (e ≤ 0x507))).length)).sum
  let uc := leAt content 8 4
  let um := leAt content 12 2
  let uk := leAt content 14 2
  let cap : Nat × Nat × Nat := if kind = 3 then (196608, 128, 2048) else (16384, 16, 256)
  let one : Bool → List Breach := fun b => if b then [(7, 0xFF, 0xFF, 0)] else []
  one (decide (uc < cells) || decide (cap.1 < uc)) ++ one (decide (um < macs) || decide (cap.2.1 < um)) ++
    one (decide (uk < kib) || decide (cap.2.2 < uk))

/-- Breaches of MEMORY_INIT records in record order, after the tile walk, with the record's TILE_X and TILE_Y (R120); of one record
in ascending rule code. R80 puts rule 0x07 first, with 0xFF for the tile: of a record past its bank R120's order and tile are taken
(DESIGN CHOICE, log 167). DETAIL is 0 for rules 0x05 and 0x07, which name no element (log 166). -/
def initBreaches (kind : Nat) (init : List MRec) : List Breach :=
  init.flatMap (fun r =>
    let outside := decide (tilesX kind ≤ r.x) || decide (tilesY kind ≤ r.y)
    let five : List Breach := if outside then [(5, r.x, r.y, 0)] else []
    let seven : List Breach := if 4096 < r.off + r.data.length then [(7, r.x, r.y, 0)] else []
    let nine : List Breach := if !outside && decide (needBanks kind r.x ≤ r.bank) then [(9, r.x, r.y, 0x500 + r.bank)] else []
    five ++ seven ++ nine)

/-- Every breach, in the order of R80: rules 0x06 and 0x07, the tile walk, MEMORY_INIT. -/
def screen (kind : Nat) (content ports init : Bytes) (net : List Breach) : List Breach :=
  let recs := (parseInit (init.length / 16 + 1) init).getD []
  portBreaches kind ports ++ capacityBreaches kind content ++
    (tilesOf kind).flatMap (fun p => tileBreaches content kind p.1 p.2 net) ++ initBreaches kind recs

/-- Block memory after MEMORY_INIT (R120). -/
def initMem (init : Bytes) : List Host.Cell :=
  let recs := (parseInit (init.length / 16 + 1) init).getD []
  recs.foldl (fun m r => memWrite m (r.y * 2 ^ 24 + r.x * 2 ^ 20 + r.bank * 4096 + r.off) r.data) []

/-- The image that a screened container leaves in the fen (R115). -/
def imageOf (h content ports : Bytes) (kind : Nat) : FImage where
  imageId := hImageId h
  cells := leAt content 8 4
  macs := leAt content 12 2
  memKib := leAt content 14 2
  fmax := leAt content 16 2
  power := leAt content 18 2
  tiles := ((List.range (tilesX kind * tilesY kind)).filter (fun k => leAt content (64 + 8 * k + 4) 4 != 0)).length
  ports := parsePorts ports

end Sys2Proof.Machine
end

