-- ==== Sys2Proof/Machine/Loader.lean ====
section
/-! DEFINITION. The configuration loader and screener, unit 191 (02_configuration_stream.md): requests, the states of R74,
the checks of R76 in order, applying a fen image (R82–R86) and storing a structure stream (R87). -/

namespace Sys2Proof.Machine

/-- Change the loader's state. -/
def setCfg (s : State) (c : Cfg) : State := { s with cfg := c }

/-! ## Requests and their end (R73–R75, R85, R94) -/

/-- An NVMe command that waits for one status of the device ends with it (R573). -/
def cmdStatus (s : State) (c sq cid status unit : Nat) : State :=
  match cmdOf s c sq cid with
  | none => s
  | some y =>
    let st := hostStatus s status unit false
    endCmd s { y with fail := if st = nOk then none else some (st, status, unit) }

/-- CFG_RESULT and CFG_RESULT_COOKIE of an instance-0 load (R94, R95). -/
def cfgResult (s : State) (r : LoadReq) (status : Nat) : State :=
  if r.inst = 0 then
    setLive (setLive (setLive s Reg.CFG_RESULT 7 0 status) Reg.CFG_RESULT 8 8 1) Reg.CFG_RESULT_COOKIE 31 0 r.cookie
  else s

/-- The outcome of a load reaches whoever asked for it: CFG_RESULT, the command, or the ticket. -/
def loadResult (s : State) (r : LoadReq) (status : Nat) : State :=
  match r.tag with
  | some tag =>
    (match entryOf s tag with
    | some e =>
      let s := report (cfgResult s r status) tag 191 status
      ackTicket s tag (if status = 0 then e.t.len else 0)
    | none => cfgResult s r status)
  | none =>
    if status = 0x0C then s
    else match r.sub with
      | .nvme c sq cid => cmdStatus s c sq cid status 191
      | _ => cfgResult s r status

/-- The loader's use of the key slot ends (R86). -/
def dropKeyUse (s : State) : State :=
  match s.cfg.keyUse with
  | some k => setCfg (releaseSlot s k) { (releaseSlot s k).cfg with keyUse := none }
  | none => s

/-- The container in progress ends: the loader returns to IDLE (R74). -/
def loadEnd (s : State) (status : Nat) : State :=
  match s.cfg.cur with
  | none => s
  | some r =>
    let s := dropKeyUse s
    let s := setCfg s { s.cfg with
      state := .idle, cur := none, head := [], blocks := [], raw := [], content := [], stage := .none, resetMet := false,
      regionLost := false, keyLost := false }
    loadResult s r status

/-- A rejection is reported: in CFG_REJECT for instance 0, as a record under the instance otherwise (R81). -/
def loadReject (s : State) (status rule x y count detail : Nat) : State :=
  match s.cfg.cur with
  | none => s
  | some r =>
    let s := if r.inst = 0 then
        setLive (setLive s Reg.CFG_REJECT 31 0 (rule + x * 2 ^ 8 + y * 2 ^ 16 + min count 255 * 2 ^ 24))
          Reg.CFG_REJECT_DETAIL 31 0 detail
      else record s 0x0020 sevFree status r.target r.inst
        (natLe 1 rule ++ natLe 1 x ++ natLe 1 y ++ natLe 1 (min count 255) ++ natLe 4 detail ++
          slice (hImageId s.cfg.head) 0 8)
    loadEnd s status

/-- A check of R76 before the screener fails. -/
def loadFail (s : State) (status : Nat) : State := loadReject s status 0 0 0 0 0

/-- A load request arrives (R73, R75): with no DRAM channel in service, with 32 tenant requests queued or with the
instance's request already present, it completes at once with NO_SPACE. -/
def loaderAsk (s : State) (r : LoadReq) : State :=
  let mine := s.cfg.queue.any (fun x => x.inst == r.inst) || (s.cfg.cur.map (·.inst)) == some r.inst
  let tenants := (s.cfg.queue.filter (fun x => x.inst != 0)).length
  if (dramLive s).isEmpty ∨ mine ∨ (r.inst ≠ 0 ∧ 32 ≤ tenants) then loadResult s r 0x05
  else setCfg s { s.cfg with queue := s.cfg.queue ++ [r] }

/-- The instance-0 entry is free: the safe point of the LOAD group (R93). -/
def loadEntryFree (s : State) : Bool := !s.cfg.queue.any (fun x => x.inst == 0) && (s.cfg.cur.map (·.inst)) != some 0

/-- The instance-0 request that the LOAD group's values make (R93). -/
def cfgRequest (s : State) : State :=
  let t := eff s Reg.CFG_LOAD_TARGET 15 8
  loaderAsk s {
    inst := 0, kind := eff s Reg.CFG_LOAD_TARGET 1 0, target := t, gen := (unitOf s t).gen,
    offered := effWord s Reg.CFG_LOAD_LEN, addr := effWord s Reg.CFG_LOAD_ADDR_LO + effWord s Reg.CFG_LOAD_ADDR_HI * 2 ^ 32,
    cookie := effWord s Reg.CFG_LOAD_COOKIE }

/-- Why the LOAD group's set is refused (R93). -/
def loadSetRefused (lo len target : Nat) : Bool :=
  let kind := target % 4
  let u := fld target 15 8
  lo % 64 != 0 || decide (len < 256) || decide (268435456 < len) || kind == 0 || kind == 3 ||
    (if kind = 1 then u != 0 else decide (u < 32) || decide (71 < u))

/-- The bytes of the container at `off`: of a load ticket what its packets have brought, otherwise what the source delivers
to the loader's own fetch. -/
def fetched (s : State) (off n : Nat) (given : Bytes) : Bytes :=
  match s.cfg.cur.bind (·.tag) with
  | some tag =>
    (match entryOf s tag with
    | some e => slice (ctxOf s tag ((stepsOf s e).length - 1)).buf off n
    | none => zeros n)
  | none => fit n given

/-- The context of the load ticket at the loader's step. -/
def loadCtx (s : State) : Option Ctx :=
  match s.cfg.cur.bind (·.tag) with
  | some tag => (entryOf s tag).map (fun e => ctxOf s tag ((stepsOf s e).length - 1))
  | none => none

/-- Bytes of a load ticket are missing at its end. -/
def missing (s : State) (upTo : Nat) : Bool :=
  match loadCtx s with
  | some c => decide (c.buf.length < upTo)
  | none => (s.cfg.cur.bind (·.tag)).isSome

/-- The bytes asked for are still on their way, or are provisional until the end token confirms them (R174). -/
def awaited (s : State) (upTo : Nat) : Bool :=
  match loadCtx s with
  | some c => c.endTok.isNone && (c.prov || decide (c.buf.length < upTo))
  | none => false

/-- An instance reset reached the request (R85): before safe point A the load is abandoned. -/
def abandoned (s : State) : Bool := s.cfg.resetMet && decide (s.cfg.stage ≠ .loading)

/-- Run one step of the loader in state `st`: nothing in another state; a lost region (R548), an abandoned load (R85) or a
lost unwrapping key (R86) ends it. The fen then stays DRAINING or LOADING where steps 2 to 5 had brought it there (R82; DESIGN CHOICE,
log 202). -/
def inState (s : State) (st : LState) (f : LoadReq → State) : Out :=
  match s.cfg.cur with
  | none => .next s
  | some r =>
    if s.cfg.state ≠ st then .next s
    else if s.cfg.regionLost then .next (loadEnd s 0x0F)
    else if abandoned s then .next (loadEnd s 0x0C)
    else if s.cfg.keyLost then .next (loadEnd s 0x0A)
    else .next (f r)

/-! ## Fetching and authentication (R74–R77) -/

/-- LOADER_FETCH_HEAD (R74): the oldest request is taken. -/
def execLoaderFetchHead (s : State) : Out :=
  match s.cfg.queue with
  | [] => .next s
  | r :: t =>
    if s.cfg.state ≠ .idle then .next s
    else if (dramLive s).isEmpty then .next (loadResult (setCfg s { s.cfg with queue := t }) r 0x05)
    else
      let s := setCfg s { s.cfg with queue := t, cur := some r, state := .fetchHead, resetMet := false, regionLost := false }
      if r.inst = 0 then .next (setLive (setLive s Reg.CFG_REJECT 31 0 0) Reg.CFG_REJECT_DETAIL 31 0 0) else .next s

/-- The end of the block table as the fixed header places it, within the bytes offered. -/
def tableEnd (h : Bytes) (offered : Nat) : Nat := max 256 (min offered (blkAt h + 80 * hBlocks h))

/-- LOADER_HEADER_ARRIVED (R74, R77, R78): step 1 of R76 on the fixed header; AUTHENTICATE is entered once the section table and the
block table are fetched too. `head`: the bytes from 0 to the end of the block table. The kind of an instance-0 load ticket is the
header's (R70). -/
def execLoaderHeaderArrived (head : Bytes) (undelivered : Bool) (s : State) : Out :=
  inState s .fetchHead (fun r =>
    let h := fetched s 0 256 head
    if awaited s 256 then s
    else if undelivered ∨ missing s 256 ∨ r.offered < hTotal h then loadFail s 0x01
    else if hTotal h < r.offered then loadFail s 0x10
    else
      let n := tableEnd h r.offered
      if awaited s n then s
      else if missing s n then loadFail s 0x01
      else
        let r := if r.kind = 0 then { r with kind := hKind h } else r
        setCfg s { s.cfg with cur := some r, head := fetched s 0 n head, state := .authenticate })

/-- Steps 3 of R76 for a fen image: requester, kind and signer (R70), the signer's registered key (R62). -/
def fenAuthority (s : State) (r : LoadReq) (h : Bytes) : Bool :=
  leAt (sigSet h 0) 0 1 == (if r.inst = 0 then 2 else 3) && setAccepted s h 0 r.inst

/-- The unwrapping key: the device stream key, or the key of a WRAP slot of the requester (R59, R69). -/
def wrapKey (s : State) (r : LoadReq) (h : Bytes) : Except Nat (Bytes × Option Nat) :=
  let a := wrapAt h
  if leAt h a 1 = 1 then match deviceKey s 0 with
    | some k => .ok (k, none)
    | none => .error 0x08
  else
    let n := leAt h (a + 2) 2
    let k := slotOf s n
    if k.owner ≠ r.inst ∨ k.kind ≠ 3 then .error 0x11
    else match k.state with
      | .loaded => .ok (k.key, some n)
      | .pending => .error 0x09
      | _ => .error 0x11

/-- LOADER_AUTHENTICATE (R76 steps 2 to 6): `rest` are the bytes from the end of the block table to BLOCKS_OFFSET. A BLOCKS_OFFSET
beyond the bytes offered, whose number step 1 has found right, fails step 2. Non-zero padding before BLOCKS_OFFSET leaves RULE at 0x00:
0x81 is taken of the blocks alone (DESIGN CHOICE, log 170). A content key that is not 32 bytes long is cut or filled with zeros
(DESIGN CHOICE, log 171). -/
def execLoaderAuthenticate (rest : Bytes) (undelivered : Bool) (s : State) : Out :=
  inState s .authenticate (fun r =>
    let h0 := s.cfg.head
    let upTo := min (hOffset h0) r.offered
    let h := h0 ++ fetched s h0.length (upTo - h0.length) rest
    if awaited s upTo then s
    else if undelivered ∨ missing s upTo then loadFail s 0x01
    else if !headerOk h then loadFail s 0x10
    else if hKind h ≠ r.kind ∨ (r.kind = 1 ∧ r.inst ≠ 0) ∨
        !(if r.kind = 1 then streamAuthority s h else fenAuthority s r h) then loadFail s 0x11
    else if !signaturesOk h then loadFail s 0x08
    else if !hEnc h then setCfg s { s.cfg with head := h, state := .fetchBlocks }
    else match wrapKey s r h with
      | .error st => loadFail s st
      | .ok (key, slot) =>
        match Config.unwrap5649 key (slice h (wrapAt h + 8) 40) with
        | none => loadFail s 0x08
        | some content =>
          let s := match slot with | some k => useSlot s k | none => s
          setCfg s { s.cfg with head := h, state := .fetchBlocks, content := fit 32 content, keyUse := slot })

/-! ## Blocks and sections (R58, R63, R69, R76 steps 7 and 8) -/

/-- The sections' payloads from the blocks (R57). -/
def sectionData (h : Bytes) (blocks : List Bytes) : List (Nat × Bytes) :=
  (sectionsOf h).map (fun x => (x.type, ((blocks.drop x.first).take x.blocks).flatten))

/-- One stored block: CHECK, the padding, then TAG (R58, R63, R69, R76 step 7): its payload, or the status and rule of the check that
fails. R76 names CHECK and TAG alone; the padding stands between them (DESIGN CHOICE, log 172). -/
def openBlock (h content b : Bytes) (n : Nat) : Except (Nat × Nat) Bytes :=
  let a := blkAt h + 80 * n
  let v := validLen h n
  if sha384 b ≠ slice h (a + 16) 48 then .error (0x08, 0x80)
  else if !isZero b v (65536 - v) then .error (0x10, 0x81)
  else if hEnc h then
    match gcmOpen content (zeros 8 ++ natBe 4 n) (slice h a 16) (slice b 0 v) (slice h (a + 64) 16) with
    | none => .error (0x08, 0x80)
    | some p => .ok p
  else .ok (slice b 0 v)

/-- A load that no ticket carries is not estimated by the signal box: its energy per 64 KiB block verified and per reconfiguration is
booked to class SYSTEM (R78, R217; DESIGN CHOICE, log 173). -/
def loadBook (s : State) (r : LoadReq) (nj : Nat) : State := if r.tag.isNone then book s 1 nj else s

/-- The fixed charge of a fen's reconfiguration, in nJ (R78, R217). -/
def reconfigNj (target : Nat) : Nat := if 64 ≤ target then 300000 else 40000

/-- Every block is checked: step 8, then SCREEN or STORE, which clears the valid mark of a stored candidate (R87 step 2). -/
def blocksDone (s : State) (r : LoadReq) : State :=
  let s := setCfg (dropKeyUse s) { (dropKeyUse s).cfg with content := [] }
  let h := s.cfg.head
  let l := sectionData h s.cfg.blocks
  if r.kind = 1 then
    (if streamOk s l then setCfg s { s.cfg with state := .store, candidate := none } else loadFail s 0x10)
  else
    let kind := hTargetKind h
    if kind = kindOf r.target ∧ fenFormatOk kind (payloadOf l 0x101) (payloadOf l 0x102) (payloadOf l 0x103) then
      setCfg s { s.cfg with state := .screen }
    else loadFail s 0x10

/-- LOADER_BLOCK_ARRIVED (R76 steps 7 and 8): the next block is checked; with the last one the sections are. -/
def execLoaderBlockArrived (block : Bytes) (undelivered : Bool) (s : State) : Out :=
  inState s .fetchBlocks (fun r =>
    let h := s.cfg.head
    let n := s.cfg.blocks.length
    let off := hOffset h + 65536 * n
    let b := fetched s off 65536 block
    if awaited s (off + 65536) then s
    else if undelivered ∨ missing s (off + 65536) then loadFail s 0x01
    else match openBlock h s.cfg.content b n with
      | .error (status, rule) => loadReject s status rule 0 0 0 n
      | .ok p =>
        let s := loadBook s r 2000
        let s := setCfg s { s.cfg with blocks := s.cfg.blocks ++ [p], raw := if r.kind = 1 then s.cfg.raw ++ [b] else [] }
        if n + 1 < hBlocks h then s else blocksDone s r)

/-- LOADER_KEY_REVOKED (R86): every block is not decrypted 10 ms after the rewrite of the unwrapping key slot. -/
def execLoaderKeyRevoked (s : State) : Out :=
  match s.cfg.keyUse with
  | some k => if (slotOf s k).state = .pending then .next (loadEnd s 0x0A) else .next s
  | none => .next s

/-! ## Screening and applying (R79–R85) -/

/-- SCREEN_COMPLETE (R79–R81): the first breach is reported, with their count; otherwise the loader goes to APPLY. -/
def execScreenComplete (netlist : List (Nat × Nat × Nat × Nat)) (s : State) : Out :=
  inState s .screen (fun _ =>
    let h := s.cfg.head
    let l := sectionData h s.cfg.blocks
    match screen (hTargetKind h) (payloadOf l 0x101) (payloadOf l 0x102) (payloadOf l 0x103) netlist with
    | [] => setCfg s { s.cfg with state := .apply, stage := .none }
    | b :: t => loadReject s 0x10 b.1 b.2.1 b.2.2.1 (t.length + 1) b.2.2.2)

/-- FEN_APPLY_START (R82 steps 1 and 2): the three checks on the target; a RUNNING fen drains, an EMPTY one is loaded at
once. -/
def execFenApplyStart (s : State) : Out :=
  inState s .apply (fun r =>
    let f := r.target - 32
    let x := fenOf s f
    let u := unitOf s r.target
    if s.cfg.stage ≠ .none then s
    else if u.gen ≠ r.gen then loadFail s 0x0B
    else match x.state with
      | .empty | .running =>
        if (if r.inst = 0 then u.role ≠ 3 else u.role ≠ 5 ∨ u.owner ≠ r.inst) then loadFail s 0x11
        else if x.state = .running then
          setCfg (setFen s f { x with state := .draining }) { s.cfg with stage := .draining }
        else setCfg (setFen s f { x with state := .loading }) { s.cfg with stage := .loading }
      | _ => loadFail s 0x0B)

/-- FEN_DRAIN_TIMEOUT (R82 step 2): 1 ms on, any ticket still inside completes with ROLE_STALE. -/
def execFenDrainTimeout (s : State) : Out :=
  inState s .apply (fun r =>
    let f := r.target - 32
    let x := fenOf s f
    if x.state ≠ .draining then s
    else x.inside.foldl (fun s t => failAt s t.tag t.step r.target 0x0B) (setFen s f { x with inside := [] }))

/-- FEN_SAFE_POINT_A (R82 step 3): nothing is inside; STATE leaves ACTIVE and GEN increments. The safe point comes once the window of
R31 allows the increment, so that it is never held. -/
def execFenSafePointA (s : State) : Out :=
  inState s .apply (fun r =>
    let f := r.target - 32
    let x := fenOf s f
    if x.state = .draining ∧ x.inside.isEmpty ∧ windowOpen s r.target then
      let s := setFen s f { x with state := .loading, image := none }
      unitState (setCfg s { s.cfg with stage := .loading }) r.target .idle
    else s)

/-- FEN_SAFE_POINT_B (R82 steps 4 and 5, R85): the image stands, STATE enters ACTIVE, GEN increments once, and the
measurement is extended. After an instance reset the fen enters FENCING and no completion is posted. The safe point comes once the window of
R31 allows the increment. -/
def execFenSafePointB (s : State) : Out :=
  inState s .apply (fun r =>
    let f := r.target - 32
    let x := fenOf s f
    if s.cfg.stage ≠ .loading ∨ x.state ≠ .loading ∨ !windowOpen s r.target then s
    else
      let h := s.cfg.head
      let l := sectionData h s.cfg.blocks
      let met := s.cfg.resetMet
      let s := setFen s f {
        state := if met then .fencing else .running, failedTiles := x.failedTiles,
        image := some (imageOf h (payloadOf l 0x101) (payloadOf l 0x102) (hTargetKind h)),
        mem := initMem (payloadOf l 0x103), policyMhz := x.policyMhz }
      let s := changeUnit s r.target { state := some .active, loaded := true }
      let u := unitOf s r.target
      let b := sigSet h 0
      let s := extendMeas s (16 + f) (measRecord (16 + f) 5 r.target u.owner u.gen (hSeq h) (hImageId h)
        (sha384 (signedRange h)) (leAt b 0 1) (leAt b 1 1))
      loadEnd (loadBook s r (reconfigNj r.target)) (if met then 0x0C else 0))

/-- An instance reset meets the loader (R85, R604): a queued request is removed with INSTANCE_RESET, and a load in progress
is marked. -/
def loaderReset (s : State) (i : Nat) : State :=
  let gone := s.cfg.queue.filter (fun r => r.inst == i)
  let s := setCfg s { s.cfg with
    queue := s.cfg.queue.filter (fun r => r.inst != i),
    resetMet := s.cfg.resetMet || (s.cfg.cur.map (·.inst)) == some i }
  let s := gone.foldl (fun s r => loadResult s r 0x0C) s
  match s.cfg.cur with
  | some r =>
    if r.inst ≠ i ∨ s.cfg.stage = .loading then s
    else
      let f := r.target - 32
      let s := if (fenOf s f).state = .draining then setFen s f { fenOf s f with state := .fencing } else s
      loadEnd s 0x0C
  | none => s

/-! ## Structure streams (R87) -/

/-- STRUCTURE_STREAM_STORED (R87 steps 2 and 3): the container is written and reread, and where every block's CHECK holds the valid
mark is written and the load completes with DONE. Where one fails, the candidate keeps no mark; the spec states no status of it, and a
free failure is reported (log 174). -/
def execStructureStreamStored (s : State) : Out :=
  inState s .store (fun _ =>
    let held := Config.rereadHolds s.freeCount
    let s := drawn s
    if !held then loadFail (drawn s) (freeFailure s) else
    let h := s.cfg.head
    let st : Stream := {
      seq := hSeq h, setFloor := hSetFloor h, imageId := hImageId h, head := h, mark := sha384 (signedRange h),
      sections := sectionData h s.cfg.blocks, blocks := s.cfg.raw }
    loadEnd (setCfg s { s.cfg with candidate := some st }) 0)

end Sys2Proof.Machine
end

