-- ==== Sys2Proof/Machine/Firmware.lean ====
section
/-! DEFINITION. Firmware images and their slots (21_firmware_update.md): the checks of R701–R703, the pointer record (R705),
and the choice of an image at a start (R706). -/

namespace Sys2Proof.Machine

/-- Change the update unit's state. -/
def setUpd (s : State) (u : Upd) : State := { s with upd := u }

/-! ## Images (R701–R703) -/

/-- Stored block `n` of an image. -/
def imgBlock (img : Bytes) (n : Nat) : Bytes := slice img (hOffset img + 65536 * n) 65536

/-- The payload of section `type` of an image. -/
def imgSection (img : Bytes) (type : Nat) : Bytes :=
  payloadOf (sectionData img ((List.range (hBlocks img)).map (fun n => slice (imgBlock img n) 0 (validLen img n)))) type

/-- MANIFEST. -/
def manifestOf (img : Bytes) : Bytes := imgSection img 0x201

/-- SVN, RAISE, SFORMAT and COUNT of a manifest (R702). -/
def mSvn (m : Bytes) : Nat := leAt m 4 2
/-- RAISE. -/
def mRaise (m : Bytes) : Bool := bitOf (leAt m 6 1) 0
/-- SFORMAT. -/
def mFormat (m : Bytes) : Nat := leAt m 8 2
/-- The components of a manifest, in order: (COMPONENT, CORES, VERSION). -/
def mComps (m : Bytes) : List (Nat × Nat × Nat) :=
  (List.range (leAt m 10 2)).map (fun k => (leAt m (32 + 16 * k) 2, leAt m (34 + 16 * k) 2, leAt m (36 + 16 * k) 4))

/-- R701 and R63 for the header of an image. -/
def fwHeaderOk (h : Bytes) : Bool :=
  slice h 0 4 == ascii "HRAY" && leAt h 4 2 == 1 && hKind h == 3 && leAt h 7 1 == 0 && decide (hTotal h ≤ 25165824) &&
  leAt h 24 2 == 0x9632 && leAt h 26 1 == 0xB0 && hTargetKind h == 0 && decide (1 ≤ hSets h) && decide (hSets h ≤ 2) &&
  decide (1 ≤ hBlocks h) && decide (hBlocks h ≤ 4000) && (sectionsOf h).map (·.type) == [0x201, 0x202] &&
  hOffset h == ceilDiv (sigAt h + 8192 * hSets h) 4096 * 4096 && reservedOk h && chainOk h

/-- R702, with every system core named by at least one entry. -/
def manifestOk (m : Bytes) (code : Nat) : Bool :=
  let n := leAt m 10 2
  slice m 0 4 == ascii "FWMN" && decide (mSvn m ≤ 255) && decide (leAt m 6 1 < 2) && leAt m 7 1 == 0 &&
  decide (1 ≤ n) && decide (n ≤ 64) && isZero m 12 20 && decide (32 + 16 * n ≤ m.length) &&
  (List.range n).all (fun k =>
    let a := 32 + 16 * k
    decide (1 ≤ leAt m (a + 12) 4) && decide (leAt m (a + 8) 4 + leAt m (a + 12) 4 ≤ code)) &&
  (List.range 16).all (fun c => (mComps m).any (fun x => bitOf x.2.1 c))

/-- Block `n`'s CHECK holds and its padding is 0 (R58, R63). -/
def blockGood (img : Bytes) (n : Nat) : Bool :=
  let b := imgBlock img n
  sha384 b == slice img (blkAt img + 80 * n + 16) 48 && isZero b (validLen img n) (65536 - validLen img n)

/-- The first block of an image that fails its CHECK. -/
def badBlock (img : Bytes) : Option Nat := (List.range (hBlocks img)).find? (fun n => !blockGood img n)

/-- The manifest's components meet the references of a structure stream (R68, R703 step 6). -/
def meetsRefs (comps : List (Nat × Nat × Nat)) (refs : Bytes) : Bool :=
  (List.range (refs.length / 8)).all (fun k =>
    comps.any (fun x => x.1 == leAt refs (8 * k + 2) 2 && bitOf x.2.1 (leAt refs (8 * k) 1 - 72) &&
      decide (leAt refs (8 * k + 4) 4 ≤ x.2.2)))

/-- The SVN floor. -/
def fwFloor (p : FwPtr) : Nat := p.floor

/-- The checks of R703 in order; `verify`: at verification, with the operator's set and step 6. None where the image is
accepted. A SIGNER of set 0 that is not Stebeun gives NOT_AUTHORISED (R701, R703; DEDUCED, log 228). -/
def imageCheck (s : State) (img : Bytes) (floor : Nat) (verify : Bool) : Option Nat :=
  let h := img
  let m := manifestOf img
  let b := sigSet h 1
  if !fwHeaderOk h || decide (img.length ≠ hTotal h) || !manifestOk m (imgSection img 0x202).length then some 0x10
  else if leAt (sigSet h 0) 0 1 ≠ 1 ∨ !setAccepted s h 0 0 then some 0x11
  else if verify && claimed s && !(hSets h == 2 && leAt b 0 1 == 2 && setAccepted s h 1 0) then some 0x11
  else if !setVerifies h 0 (signedRange h) then some 0x08
  else if verify && hSets h == 2 && !setVerifies h 1 (signedRange h ++ sigSet h 0) then some 0x08
  else if (badBlock img).isSome then some 0x08
  else if mSvn m < floor then some 0x11
  else if verify && !meetsRefs (mComps m) (payloadOf ((s.cfg.active.map (·.sections)).getD []) 6) then some 0x10
  else none

/-! ## Slots and the pointer record (R704, R705) -/

/-- Slot 0 (A) or 1 (B). -/
def slotFw (s : State) (n : Nat) : FwSlot := if n = 0 then s.upd.slotA else s.upd.slotB

/-- Replace a slot. -/
def setSlotFw (s : State) (n : Nat) (x : FwSlot) : State :=
  setUpd s (if n = 0 then { s.upd with slotA := x } else { s.upd with slotB := x })

/-- The slot mark of an image: SEQUENCE, SVN and SHA-384 of the signed range (R704). -/
def markOf (img : Bytes) : Nat × Nat × Bytes := (hSeq img, mSvn (manifestOf img), sha384 (signedRange img))

/-- A slot is valid when its mark agrees with its image (R704). -/
def slotValid (s : State) (n : Nat) : Bool :=
  let x := slotFw s n
  !x.image.isEmpty && x.mark == some (markOf x.image)

/-- The valid record with the highest COUNT; with none: ACTIVE 0, CONFIRMED, FLOOR 0 (R705, R706). -/
def fwPtr (s : State) : FwPtr :=
  match s.upd.ptrs with
  | (some a, some b) => if a.count < b.count then b else a
  | (some a, none) => a
  | (none, some b) => b
  | (none, none) => {}

/-- Write a pointer record: COUNT one higher, into the sector that its parity names (R705). -/
def writePtr (s : State) (p : FwPtr) : State :=
  let n := (fwPtr s).count + 1
  let p := some { p with count := n }
  setUpd s { s.upd with ptrs := if n % 2 = 0 then (p, s.upd.ptrs.2) else (s.upd.ptrs.1, p) }

/-- A record that the boot ROM writes: FLAGS [2] is 1 (R720). -/
def recordRom (s : State) (event sev status unit : Nat) (detail : Bytes) : State :=
  writeRecord s {
    seq := 0, opTime := opTime s, cycles := powerCycles s, event := event, sev := sev, status := status, unit := unit,
    flags := 4, detail := detail }

/-- The fall-back record of R706: the other slot, CONFIRMED, BOOTS 0. -/
def fallBackPtr (s : State) : State :=
  let p := fwPtr s
  let s := writePtr s { p with active := 1 - p.active, trial := false, boots := 0 }
  setUpd s { s.upd with fellBack := true }

/-- The boot ROM falls back (R706), and records it. -/
def fallBack (s : State) : State :=
  recordRom (fallBackPtr s) 0x0021 sevFree 0 0xFF (natLe 1 1 ++ natLe 1 (fwPtr (fallBackPtr s)).active)

/-- A slot that the boot ROM refused is recorded (R706). -/
def recordSlot (s : State) (n : Nat) : State := recordRom s 0x0021 sevFree 0 0xFF (natLe 1 2 ++ natLe 1 n)

/-- The boot ROM accepts slot `n`. -/
def slotBoots (s : State) (n : Nat) : Bool :=
  slotValid s n && (imageCheck s (slotFw s n).image (fwPtr s).floor false).isNone

/-- The accepted image runs: its components are measured into index 2 in load order, and the system cores are loaded
(R684, R655). The SEQUENCE of a component's record is the image version (R654, R701). -/
def bootSlot (s : State) (n : Nat) : State :=
  let img := (slotFw s n).image
  let m := manifestOf img
  let b := sigSet img 0
  let r := measRecord 2 2 0xFFFF 0 0 (hSeq img) (hImageId img) (sha384 (signedRange img)) (leAt b 0 1) (leAt b 1 1)
  let s := (mComps m).foldl (fun s _ => extendMeas s 2 r) s
  setUpd s { s.upd with running := n, sformat := mFormat m, comps := mComps m }

/-- Phase FIRMWARE (R706): the state after the choice, and whether an image boots. -/
def chooseImage (s : State) : State × Bool :=
  let p := fwPtr s
  let s := if p.trial ∧ p.boots = 3 then fallBack s else if p.trial then writePtr s { p with boots := p.boots + 1 } else s
  let p := fwPtr s
  if slotBoots s p.active then (bootSlot s p.active, true)
  else
    let other := 1 - p.active
    let s := recordSlot s p.active
    if slotBoots s other then (bootSlot (writePtr s { p with active := other, trial := false, boots := 0 }) other, true)
    else (recordSlot s other, false)

end Sys2Proof.Machine
end

