-- ==== Sys2Proof/Machine/RegBase.lean ====
section
/-! DEFINITION. Staging and commit groups (00_scope.md, R12–R15): what every block that stages a value or commits a group
uses. -/

namespace Sys2Proof.Machine

/-- Replace the fields of access type `acc` of a register's word by those of `v`. -/
def putFields (r : RegRow) (acc : Access) (old v : Nat) : Nat :=
  (r.fields.filter (fun f => f.acc = acc)).foldl (fun w f => setFld w f.hi f.lo (fld v f.hi f.lo)) old

/-- The fields of access type `acc` of a word; every other bit 0. -/
def onlyFields (r : RegRow) (acc : Access) (v : Nat) : Nat := putFields r acc 0 v

/-- A write stages the RWS fields of the register at `a` (R9, R12). -/
def stageReg (s : State) (a v : Nat) : State :=
  match findReg a with
  | none => s
  | some (r, _, _) =>
    let w := putFields r .rws (stagedWord s a) v
    if w = stagedWord s a then s
    else { s with regs := { s.regs with staged := Tab.set s.regs.staged a w } }

/-- GO: the staged values of the group at `c`, as one set, become its pending set; a set that was pending is superseded
(R13, R15). -/
def groupGo (s : State) (c : Nat) : State :=
  let g := groupAt s c
  setGroup s c { g with pending := some (stagedSet s c), superseded := g.superseded || g.pending.isSome, due := false }

/-- DISCARD: every staged value of the group goes back to its effective value (R13). -/
def groupDiscard (s : State) (c : Nat) : State :=
  { s with regs := { s.regs with staged := (stagedSet s c).foldl (fun t p => Tab.set t p.1 (effWord s p.1)) s.regs.staged } }

/-- A write to the COMMIT register at `c` (R13–R15): SUPERSEDED and REJECTED are write-one-to-clear as they stood before, and
GO and DISCARD together make the device ignore the write. -/
def commitWrite (s : State) (c v : Nat) : State :=
  if bitOf v 0 && bitOf v 1 then s
  else
    let g := groupAt s c
    let s := setGroup s c { g with superseded := g.superseded && !bitOf v 4, rejected := g.rejected && !bitOf v 3 }
    if bitOf v 0 then groupGo s c else if bitOf v 1 then groupDiscard s c else s

/-- A read of the COMMIT register at `c` (R13). -/
def commitRead (s : State) (c : Nat) : Nat :=
  let g := groupAt s c
  16 * b2n g.superseded + 8 * b2n g.rejected + 4 * b2n g.pending.isSome

end Sys2Proof.Machine
end

