-- ==== Sys2Proof/Machine/Nvme.lean ====
section
/-! DEFINITION. How NVMe commands become tickets (16_host_interface.md): the front entry of a submission queue, completing a
command, forming its tickets, and the data of admin commands. The layouts of NVMe's own structures are the standard's
(log 41). -/

namespace Sys2Proof.Machine

/-! ## Submission queue entries -/

/-- Opcode of an entry. -/
def eOp (e : Bytes) : Nat := leAt e 0 1

/-- PSDT of an entry: 0 PRP. -/
def ePsdt (e : Bytes) : Nat := leAt e 1 1 / 64

/-- Command Dword `k` of an entry. -/
def eDw (e : Bytes) (k : Nat) : Nat := leAt e (4 * k) 4

/-- The 64-bit number of Dwords `k` and `k + 1`. -/
def eQw (e : Bytes) (k : Nat) : Nat := leAt e (4 * k) 8

/-- A queue of a controller. -/
def sqOf (s : State) (c q : Nat) : NSq := Tab.getD (ctrlOf s c).sqs q {}

/-- Replace a queue of a controller. -/
def setSq (s : State) (c q : Nat) (x : NSq) : State :=
  setCtrl s c { ctrlOf s c with sqs := Tab.set (ctrlOf s c).sqs q x }

/-- The controller's queues are served: CC.EN is 1 in READY (R689), a virtual function's instance is READY (R561, R604 step 1) and its TDI is not in
ERROR (R670). -/
def ctrlRuns (s : State) (c : Nat) : Bool :=
  !s.sbx.flushMode && bitOf (ctrlOf s c).cc 0 && decide (s.boot.phase = .ready) && (decide (c < 2) || (decide ((instOf s (c - 1)).state = .ready) && decide (Tab.getD s.tru.tdi (c - 1) .unlocked ≠ .error)))

/-- A system core takes the front entry of a queue, if the queue and the entry are of the kind asked for; a command that
finds no ticket store entry stays in its queue (R147, R564). -/
def nvmeCmd (s : State) (c q : Nat) (admin ticket : Bool) (ok : Bytes → Bool) (f : State → NCmd → State) : Out :=
  match (sqOf s c q).fetched with
  | [] => .next s
  | (idx, e) :: t =>
    if admin ≠ (q == 0) ∨ !ok e ∨ !ctrlRuns s c ∨ (ticket ∧ (entryFree s (ctrlInst c)).isNone) then .next s
    else
      let x := sqOf s c q
      let s := setSq s c q { x with fetched := t, head := (idx + 1) % max 1 x.size }
      .next (f s {
        ctrl := c, sq := q, cid := leAt e 2 2, op := eOp e, admin := admin, nsid := eDw e 1, entry := e, index := idx })

/-- The command completes at once. -/
def cqe (s : State) (y : NCmd) (st dw0 dw1 : Nat) : State := postCqe s y.ctrl y.sq y.cid st dw0 dw1 y.nsid 0 0xFF

/-- Success. -/
def cqeOk (s : State) (y : NCmd) : State := cqe s y nOk 0 0

/-- Invalid Field in Command. -/
def badField (s : State) (y : NCmd) : State := cqe s y (nstat 0 0x02 true) 0 0

/-- Invalid Command Opcode (R565). -/
def badOpcode (s : State) (y : NCmd) : State := cqe s y (nstat 0 0x01 true) 0 0

/-- Invalid Namespace or Format. -/
def badNs (s : State) (y : NCmd) : State := cqe s y (nstat 0 0x0B true) 0 0

/-- The command is translated and waits for its tickets. -/
def addCmd (s : State) (y : NCmd) : State := setHif s { s.hif with cmds := s.hif.cmds ++ [y] }

/-! ## Tickets (R566, R569) -/

/-- The 64 bytes of a ticket (R145). -/
def ticketBytes (t : Ticket) : Bytes :=
  let desc : Desc → Bytes := fun d => natLe 1 d.kind ++ natLe 7 d.mid ++ natLe 8 d.addr
  natLe 2 t.inst ++ natLe 2 t.line ++ natLe 4 t.len ++ natLe 2 t.keySlot ++ natLe 1 t.eclass ++ natLe 1 (b2n t.ordered) ++
    natLe 4 t.deadline ++ natLe 4 t.cookie ++ zeros 4 ++ desc t.source ++ desc t.dest ++ natLe 8 t.param

/-- The register of namespace `n` whose entry for namespace 1 is at `a` (R591). -/
def nsReg (a n : Nat) : Nat := a + 0x20 * (n - 1)

/-- The lines that a namespace is bound to (R591). -/
def readLine (s : State) (n : Nat) : Nat := eff s (nsReg Reg.HIF_NS_LINES0 n) 11 0
/-- WRITE_LINE. -/
def writeLine (s : State) (n : Nat) : Nat := eff s (nsReg Reg.HIF_NS_LINES0 n) 27 16
/-- FUA_LINE. -/
def fuaLine (s : State) (n : Nat) : Nat := eff s (nsReg Reg.HIF_NS_LINES1 n) 11 0
/-- FLUSH_LINE. -/
def flushLine (s : State) (n : Nat) : Nat := eff s (nsReg Reg.HIF_NS_LINES1 n) 27 16
/-- DISCARD_LINE. -/
def discardLine (s : State) (n : Nat) : Nat := eff s (nsReg Reg.HIF_NS_LINES2 n) 11 0
/-- SECURE_LINE. -/
def secureLine (s : State) (n : Nat) : Nat := eff s (nsReg Reg.HIF_NS_LINES2 n) 27 16
/-- LOCAL_READ_LINE. -/
def localReadLine (s : State) (n : Nat) : Nat := eff s (nsReg Reg.HIF_NS_LINES3 n) 11 0
/-- LOCAL_WRITE_LINE. -/
def localWriteLine (s : State) (n : Nat) : Nat := eff s (nsReg Reg.HIF_NS_LINES3 n) 27 16

/-- KEY_SLOT of a namespace's tickets (R569). -/
def nsSlot (s : State) (n : Nat) : Nat :=
  if n = 0 then 0xFFFF
  else if eff s (nsReg Reg.HIF_NS_KEY n) 31 31 = 1 then eff s (nsReg Reg.HIF_NS_KEY n) 11 0 else 0xFFFF

/-- The line is defined. -/
def lineDefined (s : State) (l : Nat) : Bool := !(lineOf s l).steps.isEmpty

/-- The command forms a ticket on a DIRTY line while the write-back allowance is below 256 KiB (R575). -/
def notReady (s : State) (l : Nat) : Bool := (lineOf s l).dirty && decide (s.sbx.wbLimit < 256)

/-- The ticket that a command's system core forms, with its line, namespace (0: none) and descriptors (R569). -/
def formTicket (s : State) (y : NCmd) (line ns len : Nat) (ordered : Bool) (source dest : Desc) : Ticket := {
  inst := ctrlInst y.ctrl, line := line, len := len, keySlot := nsSlot s ns, ordered := ordered,
  cookie := y.cid + y.sq * 65536, source := source, dest := dest }

/-- A LOGICAL descriptor. -/
def logicalDesc (ns first : Nat) : Desc := { kind := 3, mid := ns * 2 ^ 24, addr := first }

/-- A LOCAL descriptor. -/
def localDesc (a : Nat) : Desc := { kind := 4, addr := a }

/-- The HOST_SGL descriptor of a command's data: its SGL1 field, or, for PRP addressing, the data block list that the core
builds (R146, R569). -/
def hostDesc (s : State) (y : NCmd) : Desc := {
  kind := 2, mid := ctrlPort s y.ctrl,
  addr := if ePsdt y.entry = 0 then Config.coreList (y.ctrl * 4294967296 + y.sq * 65536 + y.cid) % 2 ^ 62 * 4
    else ((sqOf s y.ctrl y.sq).base + 64 * y.index + 24) % 2 ^ 64 }

/-- A command that forms one ticket submits it and waits; an undefined line gives Invalid Field in Command (R569), a DIRTY
one may be turned away (R575). -/
def submitOne (s : State) (y : NCmd) (t : Ticket) : State :=
  if !lineDefined s t.line then badField s y
  else if notReady s t.line then cqe (bump s Reg.HIF_COUNTS2 31 16 1) y (nstat 0 0x82 false) 0 0
  else
    let s := addCmd s { y with left := 1, formed := 1 }
    (submitTicket s (.nvme y.ctrl y.sq y.cid) (ticketBytes t)).2

/-- A command forms its tickets still to be formed, in order, as far as entries are free (R147, R566, R571). -/
def formTodo : Nat → State → Nat → Nat → Nat → State
  | 0, s, _, _, _ => s
  | f + 1, s, c, q, cid =>
    match cmdOf s c q cid with
    | none => s
    | some y =>
      match y.todo with
      | [] => s
      | x :: t =>
        if y.fail.isSome ∨ (x.after ∧ y.left ≠ 0) ∨ (entryFree s (ctrlInst c)).isNone then s
        else
          let s := setCmd s c q cid (some { y with todo := t, left := y.left + 1, formed := y.formed + 1 })
          let tk := formTicket s y x.line x.ns x.bytes false (logicalDesc x.ns x.first) {}
          formTodo f (submitTicket s (.nvme c q cid) (ticketBytes tk)).2 c q cid

/-- A command with tickets to form starts; with none it completes at once. -/
def submitAll (s : State) (y : NCmd) (items : List NTodo) : State :=
  if items.isEmpty then cqeOk s y
  else if items.any (fun x => !lineDefined s x.line) then badField s y
  else if items.any (fun x => notReady s x.line) then
    cqe (bump s Reg.HIF_COUNTS2 31 16 1) y (nstat 0 0x82 false) 0 0
  else formTodo items.length (addCmd s { y with todo := items }) y.ctrl y.sq y.cid

/-- Every command that waits to form tickets goes on (the model's tick does it: log 43). -/
def pumpCmds (s : State) : State :=
  s.hif.cmds.foldl (fun s y => formTodo y.todo.length s y.ctrl y.sq y.cid) s

/-- A range cut into tickets of at most 268,435,456 bytes, in ascending order (R566). -/
def splitRange (line ns : Nat) : Nat → Nat → Nat → List NTodo
  | 0, _, _ => []
  | f + 1, first, units =>
    if units = 0 then []
    else { line := line, ns := ns, first := first, bytes := min units 65536 * 4096 } ::
      splitRange line ns f (first + min units 65536) (units - min units 65536)

/-- The namespace, if it exists and is attached to the controller. -/
def nsFor (s : State) (c n : Nat) : Option Ns :=
  match Tab.get? s.ftl.ns n with
  | some x => if x.attached.contains c then some x else none
  | none => none

/-- A command on an attached namespace; on another it completes with Invalid Namespace or Format. -/
def withNs (s : State) (y : NCmd) (f : Ns → State) : State :=
  match nsFor s y.ctrl y.nsid with
  | some n => f n
  | none => badNs s y

/-- The namespace is this node's copy of a placement group that it holds as replica or demoted primary (R636). -/
def replicaNs (s : State) (n : Nat) : Bool := s.jct.groups.any (fun g => g.nsid == n && !g.primary)

/-- Namespace Not Ready, DNR 0 (R636). -/
def notReadyNs (s : State) (y : NCmd) : State := cqe s y (nstat 0 0x82 false) 0 0

/-- A write to an attached namespace that this node may write (R636). -/
def withWrite (s : State) (y : NCmd) (f : Ns → State) : State :=
  withNs s y (fun n => if replicaNs s y.nsid then notReadyNs s y else f n)

/-! ## The data of admin commands -/

/-- Write bytes through a list of (address, length) pieces. -/
def putPieces (s : State) (c : Nat) : List (Nat × Nat) → Bytes → State
  | [], _ => s
  | (a, n) :: t, bs =>
    if bs.isEmpty then s
    else putPieces (hostWrite s (ctrlPort s c) (ctrlInst c) a (bs.take n)) c t (bs.drop n)

/-- The pieces of host memory that a command's data pointer names: PRP entries (pages of 4 KiB), or SGL data blocks. -/
def dataPieces (s : State) (y : NCmd) (len : Nat) : List (Nat × Nat) :=
  let e := y.entry
  let key := hostKey (ctrlPort s y.ctrl) (ctrlInst y.ctrl)
  let a := leAt e 24 8
  let b := leAt e 32 8
  if ePsdt e = 0 then
    let n0 := 4096 - a % 4096
    let more := ceilDiv (len - n0) 4096
    (a, n0) :: (if more ≤ 1 then [(b, 4096)]
      else (List.range more).map (fun i => (Config.hostWord key (b + 8 * i), 4096)))
  else if leAt e 39 1 / 16 = 0 then [(a, leAt e 32 4)]
  else (List.range (leAt e 32 4 / 16)).map (fun i =>
    (Config.hostWord key (a + 16 * i), Config.hostWord key (a + 16 * i + 8) % 2 ^ 32))

/-- An admin command's data goes to the host. -/
def hostPut (s : State) (y : NCmd) (bs : Bytes) : State := putPieces s y.ctrl (dataPieces s y bs.length) bs

end Sys2Proof.Machine
end

