-- ==== Sys2Proof/Machine/NvmeIo.lean ====
section
/-! DEFINITION. NVMe I/O commands (16_host_interface.md): reads, writes, discards, zones, and computational programs and
local memory. -/

namespace Sys2Proof.Machine

/-! ## Fetching (R564, R604, R608) -/

/-- SQ_DOORBELL (R564): the entries that the new tail exposes are fetched. An invalid doorbell write is an asynchronous event
(R608); doorbell writes to a function that resets are dropped (R604). -/
def execSqDoorbell (ctrl : Mmio) (sq tail : Nat) (entries : List Bytes) (s : State) : Out :=
  let ide := ctrl.ide
  let ctrl := ctrl.place
  let x := sqOf s ctrl sq
  if !mmioTravels s (if 2 ≤ ctrl then some (ctrlInst ctrl) else none) ide ∨ !ctrlRuns s ctrl then .next s
  else if x.size = 0 then .next (asyncEvent s ctrl 0 0 1)
  else if x.size ≤ tail then .next (asyncEvent s ctrl 0 1 1)
  else
    let n := (tail + x.size - x.tail) % x.size
    let new := (List.range n).map (fun i => ((x.tail + i) % x.size, fit 64 (entries.getD i [])))
    .next (setSq s ctrl sq { x with tail := tail, fetched := x.fetched ++ new })

/-! ## Reads, writes, flush, discard (R566) -/

/-- NVME_READ (R566): LOGICAL to the host on READ_LINE. -/
def execNvmeRead (ctrl sq : Nat) (s : State) : Out :=
  nvmeCmd s ctrl sq false true (fun e => eOp e == 0x02) (fun s y => withNs s y (fun _ =>
    let n := eDw y.entry 12 % 65536 + 1
    if 1024 < n then badField s y
    else submitOne s y (formTicket s y (readLine s y.nsid) y.nsid (n * 4096) false
      (logicalDesc y.nsid (eQw y.entry 10)) (hostDesc s y))))

/-- The line of a Write: WRITE_LINE with FUA 0 and the volatile write cache enabled, FUA_LINE otherwise (R566). -/
def lineOfWrite (s : State) (y : NCmd) : Nat :=
  if (ctrlOf s y.ctrl).vwc && !bitOf (eDw y.entry 12) 30 then writeLine s y.nsid else fuaLine s y.nsid

/-- The write of `n` units from unit `first`. -/
def submitWrite (s : State) (y : NCmd) (first n : Nat) (ordered : Bool) : State :=
  submitOne s y (formTicket s y (lineOfWrite s y) y.nsid (n * 4096) ordered (hostDesc s y) (logicalDesc y.nsid first))

/-- A zone of a namespace. -/
def zoneOf (n : Ns) (z : Nat) : Zone := Tab.getD n.zones z {}

/-- Zones in an open state, and in an active one (R576). -/
def openZones (n : Ns) : Nat := (Tab.keep n.zones (fun _ x => x.state == 1 || x.state == 2)).length

/-- Active zones: open or closed. -/
def activeZones (n : Ns) : Nat := (Tab.keep n.zones (fun _ x => x.state == 1 || x.state == 2 || x.state == 3)).length

/-- Why a zone may not be opened: the limits of 1,024 (R576). -/
def openLimit (n : Ns) (x : Zone) : Option Nat :=
  if x.state = 1 ∨ x.state = 2 then none
  else if x.state = 0 ∧ 1024 ≤ activeZones n then some (nstat 1 0xBD true)
  else if 1024 ≤ openZones n then some (nstat 1 0xBE true)
  else none

/-- Why a write of `cnt` units at `slba` is refused (R577). -/
def zoneRefuses (n : Ns) (slba cnt : Nat) : Option Nat :=
  let x := zoneOf n (slba / n.zoneUnits)
  let at_ := slba % n.zoneUnits
  if x.state = 4 then some (nstat 1 0xB9 true)
  else if n.zoneUnits < at_ + cnt then some (nstat 1 0xB8 true)
  else if at_ ≠ x.wp then some (nstat 1 0xBC true)
  else openLimit n x

/-- The write pointer advances by `cnt` (R577): a zone written becomes implicitly open, or full at its end. -/
def advanceZone (s : State) (ns : Nat) (n : Ns) (z cnt : Nat) : State :=
  let x := zoneOf n z
  let wp := x.wp + cnt
  setZone s ns z {
    wp := wp, state := if n.zoneUnits ≤ wp then 4 else if x.state = 0 ∨ x.state = 3 then 1 else x.state }

/-- A write to a zone: checked, the write pointer advanced when the command is translated, its ticket ORDERED (R577). -/
def zoneWrite (s : State) (y : NCmd) (n : Ns) (slba cnt : Nat) : State :=
  let l := lineOfWrite s y
  match zoneRefuses n slba cnt with
  | some st => cqe s y st 0 0
  | none =>
    let s := if lineDefined s l && !notReady s l then advanceZone s y.nsid n (slba / n.zoneUnits) cnt else s
    submitWrite s y slba cnt true

/-- NVME_WRITE (R566, R575, R577). -/
def execNvmeWrite (ctrl sq : Nat) (s : State) : Out :=
  nvmeCmd s ctrl sq false true (fun e => eOp e == 0x01) (fun s y => withWrite s y (fun ns =>
    let n := eDw y.entry 12 % 65536 + 1
    let slba := eQw y.entry 10
    if 1024 < n then badField s y
    else if ns.zoneUnits = 0 then submitWrite s y slba n false
    else if ns.units < slba + n then cqe s y (nstat 0 0x80 true) 0 0
    else zoneWrite s y ns slba n))

/-- FLUSH (R566). -/
def execFlush (ctrl sq : Nat) (s : State) : Out :=
  nvmeCmd s ctrl sq false true (fun e => eOp e == 0x00) (fun s y => withNs s y (fun _ =>
    submitOne s y (formTicket s y (flushLine s y.nsid) y.nsid 1 false {} {})))

/-- WRITE_ZEROES (R566): the range is deallocated; not on a zoned namespace (R576). -/
def execWriteZeroes (ctrl sq : Nat) (s : State) : Out :=
  nvmeCmd s ctrl sq false true (fun e => eOp e == 0x08) (fun s y => withWrite s y (fun ns =>
    let n := eDw y.entry 12 % 65536 + 1
    if ns.zoneUnits ≠ 0 then badOpcode s y
    else submitOne s y (formTicket s y (discardLine s y.nsid) y.nsid (n * 4096) false
      (logicalDesc y.nsid (eQw y.entry 10)) {})))

/-- DATASET_MANAGEMENT (R566, R571): one ticket per range for Deallocate, other attributes ignored. -/
def execDatasetManagement (ctrl sq : Nat) (ranges : Bytes) (s : State) : Out :=
  nvmeCmd s ctrl sq false true (fun e => eOp e == 0x09) (fun s y => withWrite s y (fun ns =>
    let nr := eDw y.entry 10 % 256 + 1
    let l := discardLine s y.nsid
    if ns.zoneUnits ≠ 0 then badOpcode s y
    else if !bitOf (eDw y.entry 11) 2 then cqeOk s y
    else submitAll s y ((List.range nr).flatMap (fun i =>
      splitRange l y.nsid 65537 (leAt ranges (16 * i + 8) 8) (leAt ranges (16 * i + 4) 4)))))

/-! ## Zones (R576–R578) -/

/-- ZONE_APPEND (R577): assigned the write pointer, which its completion returns in Dwords 0 and 1. -/
def execZoneAppend (ctrl sq : Nat) (s : State) : Out :=
  nvmeCmd s ctrl sq false true (fun e => eOp e == 0x7D) (fun s y => withWrite s y (fun ns =>
    let n := eDw y.entry 12 % 65536 + 1
    let z0 := eQw y.entry 10
    if ns.zoneUnits = 0 then badOpcode s y
    else if 1024 < n ∨ z0 % ns.zoneUnits ≠ 0 then badField s y
    else if ns.units ≤ z0 then cqe s y (nstat 0 0x80 true) 0 0
    else
      let lba := z0 + (zoneOf ns (z0 / ns.zoneUnits)).wp
      if (zoneOf ns (z0 / ns.zoneUnits)).state = 4 then cqe s y (nstat 1 0xB9 true) 0 0
      else zoneWrite s { y with dw0 := lba % 2 ^ 32, dw1 := lba / 2 ^ 32 } ns lba n))

/-- The zones of a Zone Management Send: the one named, or with Select All those in the states `all`; Offline, Set Zone
Descriptor Extension and reserved actions give Invalid Field in Command (R576). -/
def zoneSend (s : State) (ctrl sq act : Nat) (all : List Nat) (f : State → NCmd → Ns → List Nat → State) : Out :=
  nvmeCmd s ctrl sq false (act == 4) (fun e =>
      eOp e == 0x79 && (eDw e 13 % 256 == act || decide (eDw e 13 % 256 = 0) || decide (4 < eDw e 13 % 256)))
    (fun s y => withNs s y (fun ns =>
      let z0 := eQw y.entry 10
      if ns.zoneUnits = 0 then badOpcode s y
      else if eDw y.entry 13 % 256 ≠ act then badField s y
      else if bitOf (eDw y.entry 13) 8 then
        f s y ns ((List.range (ns.units / ns.zoneUnits)).filter (fun z => all.contains (zoneOf ns z).state))
      else if ns.units ≤ z0 ∨ z0 % ns.zoneUnits ≠ 0 then badField s y
      else f s y ns [z0 / ns.zoneUnits]))

/-- Invalid Zone State Transition. -/
def badTransition (s : State) (y : NCmd) : State := cqe s y (nstat 1 0xBF true) 0 0

/-- ZONE_OPEN (R576). -/
def execZoneOpen (ctrl sq : Nat) (s : State) : Out :=
  zoneSend s ctrl sq 3 [3] (fun s y ns zs =>
    if zs.any (fun z => (zoneOf ns z).state == 4) then badTransition s y
    else
      let fresh := (zs.filter (fun z => (zoneOf ns z).state == 0)).length
      let newly := (zs.filter (fun z => (zoneOf ns z).state == 0 || (zoneOf ns z).state == 3)).length
      if 1024 < activeZones ns + fresh then cqe s y (nstat 1 0xBD true) 0 0
      else if 1024 < openZones ns + newly then cqe s y (nstat 1 0xBE true) 0 0
      else cqeOk (zs.foldl (fun s z => setZone s y.nsid z { zoneOf ns z with state := 2 }) s) y)

/-- ZONE_CLOSE (R576). -/
def execZoneClose (ctrl sq : Nat) (s : State) : Out :=
  zoneSend s ctrl sq 1 [1, 2] (fun s y ns zs =>
    if zs.any (fun z => (zoneOf ns z).state == 0 || (zoneOf ns z).state == 4) then badTransition s y
    else cqeOk (zs.foldl (fun s z => setZone s y.nsid z { zoneOf ns z with state := 3 }) s) y)

/-- ZONE_FINISH (R577, R578): the write pointer moves to the zone end. -/
def execZoneFinish (ctrl sq : Nat) (s : State) : Out :=
  zoneSend s ctrl sq 2 [1, 2, 3] (fun s y ns zs =>
    cqeOk (saveZones (zs.foldl (fun s z => setZone s y.nsid z { state := 4, wp := ns.zoneUnits }) s) y.nsid) y)

/-- ZONE_RESET (R577): each zone is deallocated through DISCARD_LINE before the command completes. -/
def execZoneReset (ctrl sq : Nat) (s : State) : Out :=
  zoneSend s ctrl sq 4 [1, 2, 3, 4] (fun s y ns zs =>
    if replicaNs s y.nsid then notReadyNs s y else submitAll s { y with zones := zs } (zs.flatMap (fun z =>
      splitRange (discardLine s y.nsid) y.nsid 2 (z * ns.zoneUnits) ns.zoneUnits)))

/-- The standard's code of a zone state. -/
def zoneCode (st : Nat) : Nat :=
  match st with
  | 0 => 1 | 1 => 2 | 2 => 3 | 3 => 4 | 4 => 0xE | 5 => 0xD | _ => 0xF

/-- A zone descriptor. -/
def zoneDescriptor (ns : Ns) (z : Nat) : Bytes :=
  let x := zoneOf ns z
  natLe 1 2 ++ natLe 1 (zoneCode x.state * 16) ++ zeros 6 ++ natLe 8 ns.zoneUnits ++ natLe 8 (z * ns.zoneUnits) ++
    natLe 8 (z * ns.zoneUnits + x.wp) ++ zeros 32

/-- REPORT_ZONES (R576): Zone Management Receive; another action gives Invalid Field in Command. -/
def execReportZones (ctrl sq : Nat) (s : State) : Out :=
  nvmeCmd s ctrl sq false false (fun e => eOp e == 0x7A) (fun s y => withNs s y (fun ns =>
    let e := y.entry
    let want := eDw e 13 / 256 % 256
    if ns.zoneUnits = 0 then badOpcode s y
    else if eDw e 13 % 256 ≠ 0 ∨ 7 < want then badField s y
    else
      let z0 := eQw e 10 / ns.zoneUnits
      let zs := (List.range (ns.units / ns.zoneUnits)).filter (fun z =>
        decide (z0 ≤ z) && (want == 0 || zoneCode (zoneOf ns z).state == [0, 1, 2, 3, 4, 0xE, 0xD, 0xF].getD want 0))
      let len := (eDw e 12 + 1) * 4
      let room := (len - 64) / 64
      let count := if bitOf (eDw e 13) 16 then min room zs.length else zs.length
      let bs := natLe 8 count ++ zeros 56 ++ ((zs.take room).map (zoneDescriptor ns)).flatten
      cqeOk (hostPut s y (bs.take len)) y))

/-! ## Computational programs and local memory (R579–R581) -/

/-- Unit `u` is a compute engine of the controller (R579): a fen or tenant core granted to its instance. -/
def engineOf (s : State) (c u : Nat) : Bool :=
  let x := unitOf s u
  decide (2 ≤ c) && x.owner == ctrlInst c && (x.role == 5 || x.role == 6)

/-- LOAD_PROGRAM (R579): a Heray fen image goes to the configuration loader with the fen's GEN; a Goley image is written to
local memory through MEM_IN_LINE. -/
def execLoadProgram (ctrl sq unit type offered : Nat) (head : Bytes) (s : State) : Out :=
  nvmeCmd s ctrl sq (sq == 0) (type == 0xC1) (fun _ => true) (fun s y =>
    if !engineOf s ctrl unit then badField s y
    else if type = 0xC0 ∧ unit < 72 then
      loaderAsk (addCmd s { y with op := 0x1C0, left := 1, formed := 1, arg := unit }) {
        inst := ctrlInst ctrl, kind := 2, target := unit, gen := (unitOf s unit).gen, offered := offered,
        addr := (hostDesc s y).addr, sub := .nvme ctrl sq y.cid }
    else if type = 0xC1 ∧ 72 ≤ unit then
      let h := fit 64 head
      let len := leAt h 4 4
      let off := leAt h 8 8
      if slice h 0 4 ≠ [0x47#8, 0x4F#8, 0x4C#8, 0x59#8] ∨ !isZero h 24 40 ∨ off % 4096 ≠ 0 ∨ len = 0 ∨ 268435456 < len then
        badField s y
      else
        let src : Desc := { kind := 2, mid := ctrlPort s ctrl, addr := Config.coreList (ctrl * 4294967296 + sq * 65536 + y.cid) % 2 ^ 62 * 4 }
        let line := eff s (Reg.HIF_MEM_LINES + 4 * ctrlInst ctrl) 11 0
        submitOne s { y with op := 0x1C1, arg := unit, prog := BitVec.ofNat 64 (leAt h 16 8) }
          (formTicket s y line 0 len false src (localDesc off))
    else badField s y)

/-- PROGRAM_ACTIVATION (R580): START of a tenant core at the ENTRY of the last image loaded for it; success at once for a
fen. -/
def execProgramActivation (ctrl sq unit : Nat) (s : State) : Out :=
  nvmeCmd s ctrl sq (sq == 0) false (fun _ => true) (fun s y =>
    if !engineOf s ctrl unit then badField s y
    else if unit < 72 then cqeOk s y
    else
      let c := coreIndex s unit
      if (coreOf s c).state ≠ .stopped then badField s y
      else cqeOk (coreStartOp s c (BitVec.ofNat 64 (coreOf s c).entry)) y)

/-- EXECUTE_PROGRAM (R580): the ticket carried is submitted under R148. -/
def execExecuteProgram (ctrl sq : Nat) (ticket : Bytes) (s : State) : Out :=
  nvmeCmd s ctrl sq (sq == 0) true (fun _ => true) (fun s y =>
    let bs := fit 64 ticket
    if leAt bs 0 2 ≠ ctrlInst ctrl then cqe s y (hostStatus s 0x11 0xFF false) 0 0
    else if lineDefined s (parseTicket bs).line && notReady s (parseTicket bs).line then
      cqe (bump s Reg.HIF_COUNTS2 31 16 1) y (nstat 0 0x82 false) 0 0
    else (submitTicket (addCmd s { y with op := 0x101, left := 1, formed := 1 }) (.nvme ctrl sq y.cid) bs).2)

/-- MEMORY_WRITE (R581): host data to local memory on MEM_IN_LINE. -/
def execMemoryWrite (ctrl sq offset length : Nat) (s : State) : Out :=
  nvmeCmd s ctrl sq (sq == 0) true (fun _ => true) (fun s y =>
    let line := eff s (Reg.HIF_MEM_LINES + 4 * ctrlInst ctrl) 11 0
    let y := { y with op := 0x1D0 }
    submitOne s y (formTicket s y line 0 length false (hostDesc s y) (localDesc offset)))

/-- MEMORY_READ (R581): local memory to the host on MEM_OUT_LINE. -/
def execMemoryRead (ctrl sq offset length : Nat) (s : State) : Out :=
  nvmeCmd s ctrl sq (sq == 0) true (fun _ => true) (fun s y =>
    let line := eff s (Reg.HIF_MEM_LINES + 4 * ctrlInst ctrl) 27 16
    let y := { y with op := 0x1D1 }
    submitOne s y (formTicket s y line 0 length false (localDesc offset) (hostDesc s y)))

/-- MEMORY_COPY (R581): between a namespace and local memory on the namespace's LOCAL lines. -/
def execMemoryCopy (ctrl sq : Nat) (toLocal : Bool) (slba units offset : Nat) (s : State) : Out :=
  nvmeCmd s ctrl sq (sq == 0) true (fun _ => true) (fun s y => withNs s y (fun _ =>
    let y := { y with op := 0x1D2 }
    if !toLocal && replicaNs s y.nsid then notReadyNs s y
    else
    let line := if toLocal then localReadLine s y.nsid else localWriteLine s y.nsid
    let a := logicalDesc y.nsid slba
    let b := localDesc offset
    submitOne s y (formTicket s y line y.nsid (units * 4096) false (if toLocal then a else b) (if toLocal then b else a))))

end Sys2Proof.Machine
end

