-- ==== Sys2Proof/Machine/NvmeAdmin.lean ====
section
/-! DEFINITION. NVMe admin commands (16_host_interface.md): queues, Identify, log pages, features, namespaces, Format and
Sanitize, Abort. Fields of a structure that the spec does not state are free values (log 41). -/

namespace Sys2Proof.Machine

/-- An admin command at the front of the admin queue; `pfOnly` where a virtual function gets Invalid Command Opcode
(R565). -/
def adminCmd (s : State) (c op : Nat) (pfOnly : Bool) (f : State → NCmd → State) : Out :=
  nvmeCmd s c 0 true false (fun e => eOp e == op) (fun s y => if pfOnly ∧ 2 ≤ c then badOpcode s y else f s y)

/-- Free bytes with the fields that the spec gives put in their places. -/
def structOf (k n : Nat) (fields : List (Nat × Bytes)) : Bytes := fields.foldl (fun b p => patch b p.1 p.2) (freeBytes k n)

/-! ## Queues (R564, R565) -/

/-- I/O queue pairs that the controller may have (R564). -/
def queueLimit (s : State) (c : Nat) : Nat := if c < 2 then 64 else (ctrlOf s c).queues

/-- MSI-X vectors of the function (R557). -/
def vectors (c : Nat) : Nat := if c < 2 then 65 else 17

/-- CREATE_IO_CQ (R565). -/
def execCreateIoCq (ctrl : Nat) (s : State) : Out :=
  adminCmd s ctrl 0x05 false (fun s y =>
    let d := eDw y.entry 10
    let q := d % 65536
    let n := d / 65536 + 1
    let m := eDw y.entry 11
    let x := ctrlOf s ctrl
    if q = 0 ∨ queueLimit s ctrl < q ∨ (Tab.get? x.cqs q).isSome then cqe s y (nstat 1 0x01 true) 0 0
    else if n < 2 ∨ 4096 < n then cqe s y (nstat 1 0x02 true) 0 0
    else if bitOf m 1 ∧ vectors ctrl ≤ m / 65536 then cqe s y (nstat 1 0x08 true) 0 0
    else
      let iv := if bitOf m 1 then some (m / 65536) else none
      cqeOk (setCtrl s ctrl { x with cqs := Tab.set x.cqs q { base := leAt y.entry 24 8, size := n, iv := iv } }) y)

/-- CREATE_IO_SQ (R565). -/
def execCreateIoSq (ctrl : Nat) (s : State) : Out :=
  adminCmd s ctrl 0x01 false (fun s y =>
    let d := eDw y.entry 10
    let q := d % 65536
    let n := d / 65536 + 1
    let cq := eDw y.entry 11 / 65536
    let x := ctrlOf s ctrl
    if q = 0 ∨ queueLimit s ctrl < q ∨ (Tab.get? x.sqs q).isSome then cqe s y (nstat 1 0x01 true) 0 0
    else if n < 2 ∨ 4096 < n then cqe s y (nstat 1 0x02 true) 0 0
    else if cq = 0 ∨ (Tab.get? x.cqs cq).isNone then cqe s y (nstat 1 0x00 true) 0 0
    else cqeOk (setSq s ctrl q { base := leAt y.entry 24 8, size := n, cq := cq }) y)

/-- DELETE_IO_SQ (R565): commands of the queue that have not completed receive no completion; their tickets run on
(log 44). -/
def execDeleteIoSq (ctrl : Nat) (s : State) : Out :=
  adminCmd s ctrl 0x00 false (fun s y =>
    let q := eDw y.entry 10 % 65536
    let x := ctrlOf s ctrl
    if q = 0 ∨ (Tab.get? x.sqs q).isNone then cqe s y (nstat 1 0x01 true) 0 0
    else
      let s := setHif s { s.hif with cmds := s.hif.cmds.filter (fun z => z.ctrl != ctrl || z.sq != q) }
      cqeOk (setCtrl s ctrl { x with sqs := Tab.erase x.sqs q }) y)

/-- DELETE_IO_CQ (R565): not while a submission queue uses it. -/
def execDeleteIoCq (ctrl : Nat) (s : State) : Out :=
  adminCmd s ctrl 0x04 false (fun s y =>
    let q := eDw y.entry 10 % 65536
    let x := ctrlOf s ctrl
    if q = 0 ∨ (Tab.get? x.cqs q).isNone then cqe s y (nstat 1 0x01 true) 0 0
    else if x.sqs.any (fun p => p.2.cq == q) then cqe s y (nstat 1 0x0C true) 0 0
    else cqeOk (setCtrl s ctrl { x with cqs := Tab.erase x.cqs q }) y)

/-- VIRTUALIZATION_MANAGEMENT (R564, R565): queue pairs of a virtual function's controller, and its going on and off line;
actions on the primary's own resources take effect without a change of state here. -/
def execVirtualizationManagement (ctrl : Nat) (s : State) : Out :=
  adminCmd s ctrl 0x1C true (fun s y =>
    let d := eDw y.entry 10
    let id := d / 65536
    let nr := eDw y.entry 11 % 65536
    let x := ctrlOf s id
    let second := decide (2 ≤ id) && decide (id < 513)
    match d % 16 with
    | 1 => cqe s y nOk nr 0
    | 7 => if second then cqeOk (setCtrl s id { x with online := false }) y else cqe s y (nstat 1 0x1F true) 0 0
    | 8 =>
      if !second then cqe s y (nstat 1 0x1F true) 0 0
      else if x.online then cqe s y (nstat 1 0x20 true) 0 0
      else if d / 256 % 8 = 0 then
        (if 16 < nr then cqe s y (nstat 1 0x21 true) 0 0 else cqe (setCtrl s id { x with queues := nr }) y nOk nr 0)
      else if d / 256 % 8 = 1 then (if 17 < nr then cqe s y (nstat 1 0x21 true) 0 0 else cqe s y nOk nr 0)
      else cqe s y (nstat 1 0x22 true) 0 0
    | 9 => if second then cqeOk (setCtrl s id { x with online := true }) y else cqe s y (nstat 1 0x1F true) 0 0
    | _ => badField s y)

/-- ASYNCHRONOUS_EVENT_REQUEST (R565): up to 8 outstanding. -/
def execAsynchronousEventRequest (ctrl : Nat) (s : State) : Out :=
  adminCmd s ctrl 0x0C false (fun s y =>
    let x := ctrlOf s ctrl
    if 8 ≤ x.aer.length then cqe s y (nstat 1 0x05 true) 0 0
    else setCtrl s ctrl { x with aer := x.aer ++ [y.cid] })

/-! ## Abort (R572) -/

/-- Remove a translated command none of whose tickets has ended or been admitted: its tickets leave the store. -/
def abortCmd (s : State) (z : NCmd) : Option State :=
  let tags := tagsWhere s (fun e => e.sub == .nvme z.ctrl z.sq z.cid)
  let fresh := tags.all (fun t => match entryOf s t with
    | some e => e.admitted == 0 && e.waiting
    | none => false)
  if tags.length == z.formed && z.left == z.formed && fresh then
    some (setCmd (tags.foldl (fun s t => match entryOf s t with
      | some e => freeTicket s t e
      | none => s) s) z.ctrl z.sq z.cid none)
  else none

/-- ABORT (R572): the named command, fetched or translated, is removed when its first portion has not been admitted. -/
def execAbort (ctrl : Nat) (s : State) : Out :=
  adminCmd s ctrl 0x08 false (fun s y =>
    let q := eDw y.entry 10 % 65536
    let cid := eDw y.entry 10 / 65536
    let gone : State → State := fun s =>
      let s := postCqe (bump s Reg.HIF_COUNTS2 15 0 1) ctrl q cid (nstat 0 0x07 false) 0 0 0 0 0xFF
      cqe s y nOk 0 0
    let x := sqOf s ctrl q
    if x.fetched.any (fun p => leAt p.2 2 2 == cid) then
      gone (setSq s ctrl q { x with fetched := dropFirst (fun p => leAt p.2 2 2 == cid) x.fetched })
    else match cmdOf s ctrl q cid with
      | none => cqe s y nOk 1 0
      | some z =>
        match abortCmd s z with
        | some s => gone s
        | none => cqe s y nOk 1 0)

/-! ## Identify -/

/-- Namespaces attached to a controller; a physical function sees every namespace that exists. -/
def nsSeen (s : State) (c : Nat) (all : Bool) : List Nat :=
  Tab.keys (Tab.keep s.ftl.ns (fun _ n => n.attached.contains c || (all && decide (c < 2))))

/-- Optional admin commands of a function (OACS), from R565. -/
def oacs (c : Nat) : Nat := if c < 2 then 0x00DE else 0x0002

/-- The Identify Controller data that the spec gives. -/
def identifyCtrl (s : State) (c : Nat) : Bytes :=
  let ps : Nat → List (Nat × Bytes) := fun k =>
    [(2048 + 32 * k, natLe 2 ([7000, 5500, 4000, 2500].getD k 0)), (2052 + 32 * k, natLe 4 10), (2056 + 32 * k, natLe 4 10)]
  structOf s.freeCount 4096 ([
    (77, natLe 1 10), (78, natLe 2 c), (256, natLe 2 (oacs c)), (259, natLe 1 7), (260, natLe 1 0x04), (262, natLe 1 63),
    (263, natLe 1 3), (319, natLe 1 1), (328, natLe 4 (if c < 2 then 3 else 0)), (516, natLe 4 1024),
    (520, natLe 2 0x004C), (525, natLe 1 1)] ++ (List.range 4).flatMap ps)

/-- The Identify Namespace data: one LBA format of 4,096 bytes without metadata or protection (R564). -/
def identifyNs (s : State) (n : Option Ns) : Bytes :=
  match n with
  | none => zeros 4096
  | some n => structOf s.freeCount 4096 [
      (0, natLe 8 n.units), (8, natLe 8 n.units), (25, zeros 5), (128, natLe 2 0 ++ natLe 1 12)]

/-- A list of 32-bit identifiers above `after`, in ascending order. -/
def idList (l : List Nat) (after : Nat) : Bytes := fit 4096 (((l.filter (after < ·)).take 1024).flatMap (natLe 4))

/-- A controller list from `from_` upward. -/
def ctrlList (l : List Nat) (first : Nat) : Bytes :=
  let l := (sortBy (fun a b => decide (a ≤ b)) (l.filter (first ≤ ·))).take 2047
  fit 4096 (natLe 2 l.length ++ l.flatMap (natLe 2))

/-- Every controller: the physical functions and those of the instances that exist. -/
def allCtrls (s : State) : List Nat :=
  [0, 1] ++ (Tab.keys (Tab.keep s.ten.insts (fun _ x => decide (x.state ≠ .free)))).map (· + 1)

/-- The Identify data by CNS; what the spec gives nothing of is free. -/
def identifyData (s : State) (c cns cntid nsid csi : Nat) : Bytes :=
  let shown := if (nsSeen s c true).contains nsid then Tab.get? s.ftl.ns nsid else none
  match cns with
  | 0x00 => identifyNs s (nsFor s c nsid)
  | 0x01 => identifyCtrl s c
  | 0x02 => idList (nsSeen s c false) nsid
  | 0x10 => idList (nsSeen s c true) nsid
  | 0x11 => identifyNs s shown
  | 0x12 => ctrlList ((shown.map (·.attached)).getD []) cntid
  | 0x13 => ctrlList (allCtrls s) cntid
  | 0x05 =>
    if csi = 2 then
      (match nsFor s c nsid with
      | some n => structOf s.freeCount 4096 [(4, natLe 4 1023), (8, natLe 4 1023), (2816, natLe 8 n.zoneUnits)]
      | none => zeros 4096)
    else freeBytes s.freeCount 4096
  | 0x06 => if csi = 2 then structOf s.freeCount 4096 [(0, natLe 1 0)] else freeBytes s.freeCount 4096
  | _ => freeBytes s.freeCount 4096

/-- IDENTIFY (R565): a virtual function sees only its own namespaces. -/
def execIdentify (ctrl : Nat) (s : State) : Out :=
  adminCmd s ctrl 0x06 false (fun s y =>
    let d := eDw y.entry 10
    let bs := identifyData s ctrl (d % 256) (d / 65536) y.nsid (eDw y.entry 11 / 16777216)
    cqeOk (hostPut (drawn s) y bs) y)

/-! ## Log pages (R567) -/

/-- Mean wear of the usable groups as a percentage of DENSE_PE, at most 255 (R329). -/
def pctUsed (s : State) : Nat :=
  let l := Tab.vals (Tab.keep s.ftl.groups (fun _ x => decide (x.state ≠ .retired)))
  min 255 (100 * (l.map (wearOf s)).sum / max 1 (l.length * eff s Reg.FTL_WEAR_CFG 31 16))

/-- A temperature in kelvin, 0 where it would be negative. -/
def kelvin (t : Int) : Nat := (t + 273).toNat

/-- SMART / Health Information as R329 gives it. -/
def smartLog (s : State) (i : Nat) : Bytes :=
  let f := s.ftl
  let t : Nat → Int := fun k => s.pwr.temps.getD k 0
  let units : Tab Nat → Bytes := fun x => natLe 16 (ceilDiv (Tab.getD x i 0) 1000)
  structOf s.freeCount 512 ([
    (0, natLe 1 (live s Reg.FTL_HEALTH 20 16)), (1, natLe 2 (kelvin s.pwr.tModel)), (3, natLe 1 (availSpare s)),
    (4, natLe 1 (eff s Reg.FTL_WEAR_CFG 6 0)), (5, natLe 1 (pctUsed s)), (32, units f.reads), (48, units f.writes),
    (64, natLe 16 (Tab.getD f.readCmds i 0)), (80, natLe 16 (Tab.getD f.writeCmds i 0)),
    (160, natLe 16 (Tab.getD f.mediaErrors i 0)), (192, natLe 4 f.hotMinutes.1), (196, natLe 4 f.hotMinutes.2)] ++
    (List.range 8).map (fun n => (200 + 2 * n, natLe 2 (kelvin (max (t (2 * n)) (t (2 * n + 1)))))))

/-- The slot that the next start will try first (R706). -/
def fwNext (s : State) : Nat :=
  let p := fwPtr s
  if p.trial ∧ p.boots = 3 then 1 - p.active else p.active

/-- 8 ASCII hex digits of SEQUENCE [31:0], or 0 for an invalid slot (R714). -/
def fwRevision (s : State) (k : Nat) : Bytes :=
  if slotValid s k then
    let n := hSeq (slotFw s k).image
    (List.range 8).map (fun i =>
      let d := n / 16 ^ (7 - i) % 16
      BitVec.ofNat 8 (if d < 10 then 0x30 + d else 0x37 + d))
  else zeros 8

/-- Firmware Slot Information (R714). -/
def firmwareLog (s : State) : Bytes :=
  let run := s.upd.running
  let next := fwNext s
  natLe 1 (run + 1 + (if next = run then 0 else (next + 1) * 16)) ++ zeros 7 ++ fwRevision s 0 ++
    fwRevision s 1 ++ zeros 488

/-- Admin and I/O opcodes that a function supports (R565, R566, R576). -/
def adminOps (c : Nat) : List Nat :=
  [0x00, 0x01, 0x02, 0x04, 0x05, 0x06, 0x08, 0x09, 0x0A, 0x0C, 0x80] ++
    (if c < 2 then [0x0D, 0x10, 0x11, 0x14, 0x15, 0x1C, 0x1D, 0x1E, 0x84] else [])

/-- I/O opcodes supported. -/
def ioOps : List Nat := [0x00, 0x01, 0x02, 0x08, 0x09, 0x79, 0x7A, 0x7D]

/-- Commands Supported and Effects: CSUPP of each opcode; the effects that the spec does not state are free. -/
def effectsLog (s : State) (c : Nat) : Bytes :=
  let one : Bool → Nat → Bytes := fun on k =>
    if on then natLe 4 (Config.freeNat (s.freeCount * 512 + k) % 2 ^ 31 * 2 + 1) else zeros 4
  (List.range 256).flatMap (fun k => one ((adminOps c).contains k) k) ++
    (List.range 256).flatMap (fun k => one (ioOps.contains k) (256 + k)) ++ zeros 2048

/-- Device Self-test log (R739). -/
def selfTestLog (s : State) : Bytes :=
  let entry : Nat → Bytes := fun k =>
    match s.tst.selfLog[k]? with
    | some (code, seg) => natLe 1 code ++ natLe 1 seg ++ freeBytes (s.freeCount + k) 26
    | none => natLe 1 0x0F ++ zeros 27
  natLe 1 s.tst.selfTest ++ freeBytes s.freeCount 1 ++ zeros 2 ++ (List.range 20).flatMap entry

/-- Changed Zone List of a namespace. -/
def changedZonesLog (s : State) (c ns : Nat) : Bytes :=
  let l := ((ctrlOf s c).changedZones.filter (fun p => p.1 == ns)).map (·.2)
  fit 4096 (natLe 2 l.length ++ zeros 6 ++ l.flatMap (natLe 8))

/-- Lifetime total `k` of R326: as last written plus the counts since. -/
def lifeTotal (s : State) (k : Nat) : Nat := s.ftl.totals.getD k 0 + s.ftl.since.getD k 0

/-- The bytes of a log page; none for an identifier that the function does not have (R567). -/
def logPage (s : State) (c id ns : Nat) : Option Bytes :=
  match id with
  | 0x01 => some (fit 4096 (ctrlOf s c).errors.flatten)
  | 0x02 => some (smartLog s (ctrlInst c))
  | 0x03 => some (firmwareLog s)
  | 0x04 => some (fit 4096 (((ctrlOf s c).changedNs).flatMap (natLe 4)))
  | 0x05 => some (effectsLog s c)
  | 0x06 => if c < 2 then some (selfTestLog s) else none
  | 0xBF => match nsFor s c ns with
    | some n => if n.zoneUnits = 0 then none else some (changedZonesLog s c ns)
    | none => none
  | 0xC0 =>
    if c < 2 then some ((List.range 7).flatMap (fun k => natLe 8 (lifeTotal s k)) ++ s.ftl.hist.flatMap (natLe 4))
    else none
  | _ => none

/-- Reading a Changed list empties it. -/
def logRead (s : State) (c id ns : Nat) : State :=
  let x := ctrlOf s c
  match id with
  | 0x04 => setCtrl s c { x with changedNs := [] }
  | 0xBF => setCtrl s c { x with changedZones := x.changedZones.filter (fun p => p.1 != ns) }
  | _ => s

/-- GET_LOG_PAGE (R567). -/
def execGetLogPage (ctrl : Nat) (s : State) : Out :=
  adminCmd s ctrl 0x02 false (fun s y =>
    let e := y.entry
    let id := eDw e 10 % 256
    let len := (eDw e 10 / 65536 + eDw e 11 % 65536 * 65536 + 1) * 4
    match logPage s ctrl id y.nsid with
    | none => cqe s y (nstat 1 0x09 true) 0 0
    | some bs =>
      let s := logRead (drawn s) ctrl id y.nsid
      cqeOk (hostPut s y (slice bs (eQw e 12) (min len bs.length))) y)

/-! ## Features (R568, R582) -/

/-- Features that are stored as Dword 11. -/
def plainFeature (f : Nat) : Bool := f == 0x01 || f == 0x08 || f == 0x09 || f == 0x0B

/-- The wall clock is set from a physical function; a virtual function's Timestamp is its own (R723). -/
def setStamp (s : State) (c v : Nat) : State :=
  let s := setCtrl s c { ctrlOf s c with stamp := some (v, opTime s) }
  if c < 2 then { s with evr := { s.evr with wall := some (v, opTime s) } } else s

/-- SET_FEATURES (R568, R582). Of Arbitration only the burst (bits 2:0 of the standard's Dword 11, log 41) is kept. -/
def execSetFeatures (ctrl : Nat) (data : Bytes) (s : State) : Out :=
  adminCmd s ctrl 0x09 false (fun s y =>
    let f := eDw y.entry 10 % 256
    let v := eDw y.entry 11
    let x := ctrlOf s ctrl
    if plainFeature f then
      let v := if f = 0x01 then v % 8 else v
      cqeOk (setCtrl s ctrl { x with feats := Tab.set x.feats (if f = 0x09 then 0x900 + v % 65536 else f) v }) y
    else if f = 0x02 then
      (if 2 ≤ ctrl then cqe s y (nstat 1 0x0E true) 0 0
      else
        let ps := v % 32
        if 3 < ps ∨ ps < eff s Reg.HIF_PS 1 0 then badField s y
        else
          let s := addCmd s { y with left := 1, formed := 1, arg := 2 }
          let s := stageReg s Reg.PWR_SLOT_CFG (setFld (stagedWord s Reg.PWR_SLOT_CFG) 1 0 (3 - ps))
          groupGo s (commitOf Reg.PWR_SLOT_CFG))
    else if f = 0x04 then
      cqeOk (setHif s { s.hif with tempThresh := Tab.set s.hif.tempThresh (v / 65536 % 64) (v % 65536) }) y
    else if f = 0x06 then cqeOk (setCtrl s ctrl { x with vwc := bitOf v 0 }) y
    else if f = 0x07 then
      let n := queueLimit s ctrl - 1
      cqe (setCtrl s ctrl { x with feats := Tab.set x.feats 0x07 v }) y nOk (n + n * 65536) 0
    else if f = 0x0E then cqeOk (setStamp s ctrl (leAt data 0 6)) y
    else badField s y)

/-- The current value of a feature: Dword 0, and the data of a Timestamp (R568, R582). -/
def featureNow (s : State) (c f dw11 : Nat) : Option (Nat × Bytes) :=
  let x := ctrlOf s c
  let n := queueLimit s c - 1
  match f with
  | 0x02 => some (3 - eff s Reg.PWR_SLOT_CFG 1 0, [])
  | 0x04 => some (Tab.getD s.hif.tempThresh (dw11 / 65536 % 64) 0, [])
  | 0x06 => some (b2n x.vwc, [])
  | 0x07 => some (n + n * 65536, [])
  | 0x09 => some (Tab.getD x.feats (0x900 + dw11 % 65536) (dw11 % 65536), [])
  | 0x01 | 0x08 | 0x0B => some (Tab.getD x.feats f 0, [])
  | 0x0E =>
    let v := match x.stamp with
      | some (v, t) => v + (opTime s - t)
      | none => opTime s - s.evr.opBase
    some (0, natLe 6 v ++ natLe 1 (2 * b2n x.stamp.isSome) ++ zeros 1)
  | _ => none

/-- GET_FEATURES (R568). -/
def execGetFeatures (ctrl : Nat) (s : State) : Out :=
  adminCmd s ctrl 0x0A false (fun s y =>
    match featureNow s ctrl (eDw y.entry 10 % 256) (eDw y.entry 11) with
    | none => badField s y
    | some (v, bs) => cqe (if bs.isEmpty then s else hostPut s y bs) y nOk v 0)

/-! ## Namespaces (R271, R565, R598) -/

/-- Map pages of all extents, at most (R271). -/
def maxMapPages : Nat := 534773760

/-- The lowest place with room for an extent of `pages` map pages (log 45). -/
def freeExtent (s : State) (pages : Nat) : Option Nat :=
  let l := Tab.vals s.ftl.ns
  let ends := 0 :: l.map (fun n => n.base + nsPages n.units)
  let fits : Nat → Bool := fun b => decide (b + pages ≤ maxMapPages) &&
    l.all (fun n => decide (b + pages ≤ n.base) || decide (n.base + nsPages n.units ≤ b))
  if maxMapPages < pages + (l.map (fun n => nsPages n.units)).sum then none
  else (sortBy (fun a b => decide (a ≤ b)) (ends.filter fits)).head?

/-- A namespace attribute change is an event on a controller (its Changed Namespace List). -/
def nsChanged (s : State) (c n : Nat) : State :=
  let x := ctrlOf s c
  let s := setCtrl s c { x with changedNs := if x.changedNs.contains n then x.changedNs else x.changedNs ++ [n] }
  asyncEvent s c 2 0 4

/-- Every unit of a namespace is deallocated and its extent freed (R271). -/
def deleteNs (s : State) (n : Nat) : State :=
  match Tab.get? s.ftl.ns n with
  | none => s
  | some x =>
    let lo := x.base * 512
    let inRange : Nat → Bool := fun i => decide (lo ≤ i) && decide (i < lo + nsPages x.units * 512)
    let idxs := ((Tab.keys s.ftl.map ++ Tab.keys s.ftl.stagedAt).filter inRange).eraseDups
    let s := idxs.foldl deallocUnit s
    let s := setFtl s { s.ftl with ns := Tab.erase s.ftl.ns n }
    judgeSpare (x.attached.foldl (fun s c => nsChanged s c n) s)

/-- NAMESPACE_MANAGEMENT (R565): create (SEL 0) or delete (SEL 1). -/
def execNamespaceManagement (ctrl : Nat) (data : Bytes) (s : State) : Out :=
  adminCmd s ctrl 0x0D true (fun s y =>
    let sel := eDw y.entry 10 % 16
    if sel = 0 then
      let units := leAt data 0 8
      let zoned := eDw y.entry 11 / 16777216 == 2
      let zu := if zoned then 65536 else 0
      if leAt data 26 1 % 16 ≠ 0 then cqe s y (nstat 1 0x0A true) 0 0
      else if units = 0 ∨ leAt data 8 8 ≠ units ∨ leAt data 29 1 ≠ 0 ∨ (zoned ∧ units % 65536 ≠ 0) then badField s y
      else match Tab.freeKey s.ftl.ns 1 1024, freeExtent s (nsPages units) with
        | none, _ => cqe s y (nstat 1 0x16 true) 0 0
        | _, none => cqe s y (nstat 1 0x15 true) 0 0
        | some n, some b =>
          let s := setFtl s { s.ftl with ns := Tab.set s.ftl.ns n { base := b, units := units, zoneUnits := zu } }
          cqe (judgeSpare s) y nOk n 0
    else if sel = 1 then
      (if y.nsid = 0xFFFFFFFF then cqeOk ((Tab.keys s.ftl.ns).foldl deleteNs s) y
      else if (Tab.get? s.ftl.ns y.nsid).isNone then badNs s y
      else cqeOk (deleteNs s y.nsid) y)
    else badField s y)

/-- Attach a namespace to a controller, setting OWNER (R598, R671). -/
def attachNs (s : State) (n c : Nat) : State :=
  match Tab.get? s.ftl.ns n with
  | none => s
  | some x =>
    let s := setFtl s { s.ftl with ns := Tab.set s.ftl.ns n { x with
      attached := x.attached ++ [c], owner := if 2 ≤ c then ctrlInst c else x.owner } }
    nsChanged (if 2 ≤ c then tdiDisturb s (ctrlInst c) else s) c n

/-- Detach it (R598). -/
def detachNs (s : State) (n c : Nat) : State :=
  match Tab.get? s.ftl.ns n with
  | none => s
  | some x =>
    let s := setFtl s { s.ftl with ns := Tab.set s.ftl.ns n { x with
      attached := x.attached.filter (· != c), owner := if 2 ≤ c then 0 else x.owner } }
    nsChanged (if 2 ≤ c then tdiDisturb s (ctrlInst c) else s) c n

/-- NAMESPACE_ATTACHMENT (R598): a namespace attached to a virtual function's controller is attached to no other. -/
def execNamespaceAttachment (ctrl : Nat) (data : Bytes) (s : State) : Out :=
  adminCmd s ctrl 0x15 true (fun s y =>
    let sel := eDw y.entry 10 % 16
    let ids := (List.range (min (leAt data 0 2) 2047)).map (fun i => leAt data (2 + 2 * i) 2)
    match Tab.get? s.ftl.ns y.nsid with
    | none => badNs s y
    | some x =>
      if ids.isEmpty ∨ ids.any (fun c => !(allCtrls s).contains c) ∨ ids.eraseDups.length ≠ ids.length then
        cqe s y (nstat 1 0x1C true) 0 0
      else if sel = 0 then
        let vfs := (x.attached ++ ids).filter (2 ≤ ·)
        if ids.any (fun c => x.attached.contains c) ∨ (!vfs.isEmpty ∧ 2 ≤ (x.attached ++ ids).length) then
          cqe s y (nstat 1 0x18 true) 0 0
        else cqeOk (ids.foldl (fun s c => attachNs s y.nsid c) s) y
      else if sel = 1 then
        (if ids.any (fun c => !x.attached.contains c) then cqe s y (nstat 1 0x1A true) 0 0
        else cqeOk (ids.foldl (fun s c => detachNs s y.nsid c) s) y)
      else badField s y)

/-! ## Format and Sanitize (R565, R566) -/

/-- The tickets of a Format: the whole namespace on DISCARD_LINE, then one over its first unit on SECURE_LINE. `first` waits
where an earlier namespace's tickets come before. -/
def formatItems (s : State) (n : Nat) (x : Ns) (wait : Bool) : List NTodo :=
  let l := splitRange (discardLine s n) n (x.units / 65536 + 1) 0 x.units
  (match l with
    | a :: t => { a with after := wait } :: t
    | [] => []) ++ [{ line := secureLine s n, ns := n, first := 0, bytes := 4096, after := true }]

/-- The device erases a key slot for a command (R337, R376). -/
def eraseFor (y : NCmd) (slot : Nat) : KeyReq :=
  { inst := 0, op := 3, slot := slot, via := some (.nvme y.ctrl y.sq y.cid) }

/-- FORMAT_NVM (R566, R337): SES 0 and 1 discard and erase the namespace; SES 2 erases its KEY_SLOT first. -/
def execFormatNvm (ctrl : Nat) (s : State) : Out :=
  adminCmd s ctrl 0x80 false (fun s y =>
    let d := eDw y.entry 10
    let ses := d / 512 % 8
    let seen := nsSeen s ctrl true
    let l := if y.nsid = 0xFFFFFFFF then seen else [y.nsid]
    if d % 16 ≠ 0 ∨ d / 4096 % 4 ≠ 0 then cqe s y (nstat 1 0x0A true) 0 0
    else if 2 < ses then badField s y
    else if l.any (fun n => !seen.contains n) then badNs s y
    else
      let items := l.flatMap (fun n => match Tab.get? s.ftl.ns n with
        | some x => formatItems s n x true
        | none => [])
      let slots := (l.map (nsSlot s)).eraseDups
      if ses ≠ 2 then submitAll s y items
      else if slots.contains 0xFFFF ∨ items.any (fun x => !lineDefined s x.line) then badField s y
      else
        let s := addCmd s { y with left := slots.length, formed := slots.length, todo := items }
        slots.foldl (fun s k => keyAsk s (eraseFor y k)) s)

/-- SANITIZE (R565): block erase, crypto erase; overwrite is refused; Exit Failure Mode has nothing to leave. -/
def execSanitize (ctrl : Nat) (s : State) : Out :=
  adminCmd s ctrl 0x84 true (fun s y =>
    match eDw y.entry 10 % 8 with
    | 1 => cqeOk s y
    | 2 => submitAll s y (s.ftl.ns.flatMap (fun p => formatItems s p.1 p.2 true))
    | 4 =>
      let slots := Tab.keys (Tab.keep s.key.slots (fun _ k => decide (k.state = .loaded)))
      if slots.isEmpty then cqeOk s y
      else
        let s := addCmd s { y with left := slots.length, formed := slots.length }
        slots.foldl (fun s k => keyAsk s (eraseFor y k)) s
    | _ => badField s y)

/-- INVALID_COMMAND_OPCODE (R565, R566): an opcode that the tables mark No, or do not list. -/
def execInvalidCommandOpcode (ctrl sq : Nat) (s : State) : Out :=
  nvmeCmd s ctrl sq (sq == 0) false
    (fun e => if sq = 0 then !(adminOps ctrl).contains (eOp e) else !ioOps.contains (eOp e)) badOpcode

end Sys2Proof.Machine
end

