-- ==== Sys2Proof/Machine/Federation.lean ====
section
/-! DEFINITION. The junction and the Uaser ports (18_federation.md): messages and connections, frames that arrive, routes,
heartbeats and peer loss, and placement groups. -/

namespace Sys2Proof.Machine

/-! ## Frames (R617, R618) -/

/-- A frame's header and payload from its bytes, the header at offset 14. -/
def frameOf (bs : Bytes) : Frame where
  type := leAt bs 14 1
  flags := leAt bs 15 1
  hops := leAt bs 16 1
  status := leAt bs 17 1
  dest := leAt bs 18 2
  src := leAt bs 20 2
  fedId := leAt bs 22 4
  srcInc := leAt bs 26 4
  destInc := leAt bs 30 4
  tenant := leAt bs 34 4
  seq := leAt bs 38 4
  ack := leAt bs 42 4
  destUnit := leAt bs 46 1
  srcUnit := leAt bs 47 1
  destGen := leAt bs 48 2
  window := leAt bs 52 2
  param := leAt bs 54 8
  payload := bs.drop 78

/-- The header of a frame with CHECK as given (R618). -/
def headerBytes (f : Frame) (check : Nat) : Bytes :=
  natLe 1 f.type ++ natLe 1 f.flags ++ natLe 1 f.hops ++ natLe 1 f.status ++ natLe 2 f.dest ++ natLe 2 f.src ++
    natLe 4 f.fedId ++ natLe 4 f.srcInc ++ natLe 4 f.destInc ++ natLe 4 f.tenant ++ natLe 4 f.seq ++ natLe 4 f.ack ++
    natLe 1 f.destUnit ++ natLe 1 f.srcUnit ++ natLe 2 f.destGen ++ natLe 2 f.payload.length ++ natLe 2 f.window ++
    natLe 8 f.param ++ natLe 4 check ++ zeros 12

/-- The junction part of a frame as it is sent: header with its CHECK, and payload. -/
def frameBytes (f : Frame) : Bytes :=
  headerBytes f (crc32c (headerBytes f 0 ++ f.payload)).toNat ++ f.payload

/-- CHECK holds, and PAYLOAD_LEN gives the payload's length (R618). -/
def checkOk (bs : Bytes) : Bool :=
  decide (leAt bs 50 2 = bs.length - 78) && decide (78 ≤ bs.length) && decide (bs.length ≤ 8270) &&
    decide ((crc32c (patch (bs.drop 14) 48 (zeros 4))).toNat = leAt bs 62 4)

/-- The device takes in frames of a type: it is joined; once DUPLICATE has ended that, heartbeats only (R619, log 190). -/
def takesFrames (s : State) (type : Nat) : Bool := s.jct.joined && (!s.jct.duplicate || type == 4)

/-- The EtherType of a VLAN tag, as IEEE 802.1Q gives it (R617; PRESUMED, log 229). -/
def vlanTag (etype : Nat) : Bool := etype == 0x8100 || etype == 0x88A8

/-- What the port makes of a frame: discarded and counted (R617, R618), or taken in. -/
def frameIn (s : State) (w : WireFrame) : Option Frame × State :=
  let s := bump s (Reg.FED_PORT_FEC + 0x10 * w.port) 15 0 w.corrected
  let s := bump s (Reg.FED_PORT_FEC + 0x10 * w.port) 31 16 w.uncorrected
  let f := frameOf w.bytes
  let etype := leAt w.bytes 12 1 * 256 + leAt w.bytes 13 1
  if s.jct.links.getD w.port 0 ≠ 2 ∨ !takesFrames s f.type then (none, s)
  else if !w.fcsOk ∨ vlanTag etype ∨ etype ≠ eff s Reg.FED_ETHERTYPE 15 0 ∨ f.fedId ≠ fedId s then (none, bump s Reg.FED_DROPS 7 0 1)
  else if !checkOk w.bytes then (none, bump s Reg.FED_DROPS 15 8 1)
  else if f.type = 0 ∨ 7 < f.type then (none, bump s Reg.FED_DROPS 7 0 1)
  else (some f, s)

/-- Act on a frame of type `t` that is taken in. -/
def onFrame (s : State) (w : WireFrame) (t : Nat) (g : State → Frame → State) : State :=
  match frameIn s w with
  | (some f, s) => if f.type = t then g s f else s
  | (none, s) => s

/-- A frame addressed to this node; one whose DEST_INC names another incarnation is answered with STALE_PEER (R623). -/
def onOwn (s : State) (w : WireFrame) (t : Nat) (g : State → Frame → State) : State :=
  onFrame s w t (fun s f =>
    if f.dest ≠ nodeOf s then s
    else if f.destInc ≠ 0 ∧ f.destInc ≠ s.jct.inc then
      sendFrame s { ownFrame s 7 f.src f.srcInc with tenant := f.tenant, seq := f.seq }
    else g s f)

/-! ## Receiving messages (R623–R627) -/

/-- The instance that carries a tenant tag (R624 step 1, R629). -/
def tenantInst (s : State) (tag : Nat) : Option Nat :=
  if tag = 0 then some 0
  else (List.range 512).find? (fun i =>
    i != 0 && decide (eff s (Reg.FED_INST_TAG + 4 * i) 31 0 = tag) && decide ((instOf s i).state ≠ .free))

/-- The receive ticket of a message (R625). -/
def receiveTicket (inst line : Nat) (f : Frame) : Bytes :=
  natLe 2 inst ++ natLe 2 line ++ natLe 4 f.payload.length ++ natLe 2 0xFFFF ++ natLe 1 0 ++ natLe 1 1 ++ natLe 4 0 ++
    natLe 4 0 ++ zeros 4 ++ (natLe 2 6 ++ natLe 2 f.src ++ natLe 1 f.srcUnit ++ zeros 3 ++ natLe 8 f.seq) ++ zeros 16 ++
    natLe 8 f.param

/-- The checks of R624 on a received message that waits, and its receive ticket; where the signal box has no entry, or its
instance is not READY, it goes on waiting (R147, R604). -/
def submitRecv (s : State) (r : FRecv) : State :=
  let f := r.frame
  let rx := Reg.FED_RX_LINE + 4 * f.destUnit
  let line := eff s rx 11 0
  match tenantInst s f.tenant with
  | none => recvStatus s r.id 0x11 true
  | some i =>
    if 218 ≤ f.destUnit ∨ eff s rx 31 31 ≠ 1 then recvStatus s r.id 0x11 true
    else if f.destGen ≠ (unitOf s f.destUnit).gen then recvStatus s r.id 0x0B true
    else if !(lineOf s line).steps.any (fun st => st.sel == 0 && st.target == f.destUnit) then
      recvStatus s r.id 0x10 true
    else if instState s i ≠ .ready then s
    else match submitTicket (modRecv s r.id (fun r => { r with inst := i })) (.junction r.id) (receiveTicket i line f) with
      | (some tag, s) => modRecv s r.id (fun r => { r with tag := some tag })
      | (none, s) => s

/-- Messages received and not yet submitted are submitted, in the order of each connection (R623, R624). -/
def submitRecvs (s : State) : State :=
  (s.jct.recv.map (·.id)).foldl (fun s id =>
    match s.jct.recv.find? (fun r => r.id == id) with
    | none => s
    | some r =>
      let before := s.jct.recv.takeWhile (fun x => x.id != id)
      let blocked := before.any (fun x => recvKey x == recvKey r && x.tag.isNone && x.status.isNone)
      if r.tag.isSome ∨ r.status.isSome ∨ blocked then s else submitRecv s r) s

/-- A message enters the receive buffer. -/
def addRecv (s : State) (f : Frame) (own : Option Nat) : State :=
  setJct s { s.jct with
    recv := s.jct.recv ++ [{ id := s.jct.nextRecv, frame := f, own := own }], nextRecv := s.jct.nextRecv + 1 }

/-- Bytes of the receive buffer in use: of a connection, and in all (R627). -/
def recvUse (s : State) (k : Nat × Nat × Nat) : Nat × Nat :=
  let size : Frame → Nat := fun f => f.payload.length
  let mine := (s.jct.recv.filter (fun r => recvKey r == k)).map (fun r => size r.frame)
  let kept := (s.jct.incoming.filter (fun c => (c.node, c.inc, c.tenant) == k)).flatMap (fun c => c.stored.map size)
  let all := s.jct.recv.map (fun r => size r.frame)
  let stored := s.jct.incoming.flatMap (fun c => c.stored.map size)
  (mine.sum + kept.sum, all.sum + stored.sum)

/-- Room in the receive buffer for a connection: at most 1 MiB of the 64 MiB, none while no DRAM channel is in service. -/
def recvRoom (s : State) (k : Nat × Nat × Nat) : Nat :=
  let u := recvUse s k
  if (dramLive s).isEmpty then 0 else min (1048576 - u.1) (67108864 - u.2)

/-- A connection at its receiver. -/
def incomingOf (s : State) (k : Nat × Nat × Nat) : Option FIncoming :=
  s.jct.incoming.find? (fun c => (c.node, c.inc, c.tenant) == k)

/-- Replace a connection at its receiver. -/
def setIncoming (s : State) (c : FIncoming) : State :=
  let others := s.jct.incoming.filter (fun x => (x.node, x.inc, x.tenant) != (c.node, c.inc, c.tenant))
  setJct s { s.jct with incoming := others ++ [c] }

/-- The cumulative ACK of a connection (R623): WINDOW counts the largest messages that still have room. -/
def sendAck (s : State) (k : Nat × Nat × Nat) (noRoom : Bool) : State :=
  let expect := ((incomingOf s k).map (·.expect)).getD 0
  sendFrame s { ownFrame s 2 k.1 k.2.1 with
    tenant := k.2.2, ack := expect, window := if noRoom then 0 else min 64 (recvRoom s k / 8192) }

/-- Messages stored out of order that have become next are received (R623). -/
def drainStored : Nat → State → Nat × Nat × Nat → State
  | 0, s, _ => s
  | n + 1, s, k =>
    match incomingOf s k with
    | none => s
    | some c =>
      match c.stored.find? (fun f => f.seq == c.expect) with
      | none => s
      | some f =>
        let stored := c.stored.filter (fun x => x.seq != c.expect)
        drainStored n (addRecv (setIncoming s { c with expect := c.expect + 1, stored := stored }) f none) k

/-- A DATA frame at its destination: stored, acknowledged, and received in SEQ order (R622, R623, R627). An OPEN that comes
when the connection has been idle for 10 ms begins a new one (log 51). -/
def dataArrives (s : State) (f : Frame) : State :=
  let k := (f.src, f.srcInc, f.tenant)
  let opens := bitOf f.flags 0
  let new : FIncoming := { node := f.src, inc := f.srcInc, tenant := f.tenant }
  let c? := match incomingOf s k with
    | some c => some (if opens ∧ c.since + 10000 ≤ s.now then new else c)
    | none => if opens then some new else none
  match c? with
  | none => s
  | some c =>
    let c := { c with since := s.now }
    let room := decide (f.payload.length ≤ recvRoom s k)
    if f.seq < c.expect then sendAck (setIncoming s c) k false
    else if !room then sendAck (setIncoming s c) k true
    else if f.seq = c.expect then
      let s := addRecv (setIncoming s { c with expect := c.expect + 1 }) f none
      submitRecvs (sendAck (drainStored 64 s k) k false)
    else if f.seq < c.expect + 64 ∧ !c.stored.any (fun x => x.seq == f.seq) then
      sendAck (setIncoming s { c with stored := c.stored ++ [f] }) k false
    else sendAck (setIncoming s c) k false

/-! ## Sending messages (R621–R623, R626) -/

/-- A connection at its sender. -/
def connOf (s : State) (node tenant : Nat) : Option FConn :=
  s.jct.conns.find? (fun c => c.node == node && c.tenant == tenant)

/-- Replace a connection at its sender. -/
def setConn (s : State) (c : FConn) : State :=
  setJct s { s.jct with conns := s.jct.conns.map (fun x => if x.node = c.node ∧ x.tenant = c.tenant then c else x) }

/-- The DATA frame of a message (R618, R621, R622). -/
def dataFrame (s : State) (c : FConn) (m : FMsg) : Frame :=
  let back := s.jct.incoming.find? (fun x => x.node == c.node && some x.inc == c.inc && x.tenant == c.tenant)
  { ownFrame s 1 c.node (if m.seq = 0 then 0 else c.inc.getD 0) with
    flags := if m.seq = 0 then 1 else 0, tenant := c.tenant, seq := m.seq, ack := (back.map (·.expect)).getD 0,
    destUnit := m.destUnit, srcUnit := m.srcUnit, destGen := m.destGen, param := m.param, payload := m.payload }

/-- Messages of a connection are transmitted: at most 64 unacknowledged, and after the first only once its ACK has given
DEST_INC (R622). -/
def pumpConn : Nat → State → Nat → Nat → State
  | 0, s, _, _ => s
  | n + 1, s, node, tenant =>
    match connOf s node tenant with
    | none => s
    | some c =>
      let open_ := (c.msgs.filter (fun m => m.sent && !m.acked)).length
      match c.msgs.find? (fun m => !m.sent) with
      | none => s
      | some m =>
        if 64 ≤ open_ ∨ (c.nextSeq ≠ 0 ∧ c.inc.isNone) then s
        else
          let m' := { m with seq := c.nextSeq, sent := true, sentAt := s.now }
          let s := sendFrame s (dataFrame s c m')
          let msgs := c.msgs.map (fun x => if x.tag = m.tag ∧ !x.sent then m' else x)
          pumpConn n (setConn s { c with msgs := msgs, nextSeq := c.nextSeq + 1 }) node tenant

/-- Every message up to `upTo` is acknowledged by incarnation `inc` of the node (R622, R623). -/
def ackUpTo (s : State) (node inc tenant upTo : Nat) (window : Option Nat) : State :=
  match connOf s node tenant with
  | none => s
  | some c =>
    if c.inc.isSome ∧ c.inc ≠ some inc then s
    else
      let msgs := c.msgs.map (fun m => if m.sent ∧ m.seq < upTo then { m with acked := true } else m)
      let s := setConn s { c with inc := some inc, msgs := msgs, window := window.getD c.window }
      pumpConn 64 s node tenant

/-- A message leaves its connection with an outcome, which ends its ticket (R626). -/
def msgOutcome (s : State) (node tenant : Nat) (p : FMsg → Bool) (status : Nat) : State :=
  match connOf s node tenant with
  | none => s
  | some c =>
    let gone := c.msgs.filter p
    let s := setConn s { c with msgs := c.msgs.filter (fun m => !p m), since := s.now }
    pumpConn 64 (gone.foldl (fun s m => messageOutcome s node m status) s) node tenant

/-- A connection is closed and its messages end as if OUTCOME ROLE_STALE had arrived (R633). -/
def closeConn (s : State) (node tenant : Nat) : State :=
  match connOf s node tenant with
  | none => s
  | some c =>
    let s := setJct s { s.jct with conns := s.jct.conns.filter (fun x => !(x.node == node && x.tenant == tenant)) }
    c.msgs.foldl (fun s m => messageOutcome s node m 0x0B) s

/-- Bytes in the send buffer (R627). -/
def sendUse (s : State) : Nat := (s.jct.conns.flatMap (fun c => c.msgs.map (fun m => m.payload.length))).sum

/-- The junction takes a message from a port, or has no room for it: no connection free, or a full buffer (R621, R622, R627).
A message to this node itself is received at once (R621). -/
def takeMessage (s : State) (tag : Nat) (e : Entry) (u : Nat) (payload : Bytes) : Option State :=
  let node := fld e.t.dest.mid 23 8
  let tenant := if e.t.inst = 0 then 0 else eff s (Reg.FED_INST_TAG + 4 * e.t.inst) 31 0
  let m : FMsg := {
    tag := tag, inst := e.t.inst, cookie := e.t.cookie, destUnit := fld e.t.dest.mid 31 24, srcUnit := u,
    destGen := fld e.t.dest.mid 47 32, param := e.t.dest.addr, payload := payload }
  if node = nodeOf s then
    let f := { ownFrame s 1 node s.jct.inc with
      tenant := tenant, destUnit := m.destUnit, srcUnit := u, destGen := m.destGen, param := m.param, payload := payload }
    if recvRoom s (node, s.jct.inc, tenant) < payload.length then none
    else some (submitRecvs (addRecv s f (some tag)))
  else if 67108864 < sendUse s + payload.length then none
  else match connOf s node tenant with
    | some c => some (pumpConn 64 (setConn s { c with msgs := c.msgs ++ [m], since := s.now }) node tenant)
    | none =>
      if 1024 ≤ s.jct.conns.length then none
      else
        let c : FConn := { node := node, tenant := tenant, msgs := [m], since := s.now }
        some (pumpConn 64 (setJct s { s.jct with conns := s.jct.conns ++ [c] }) node tenant)

/-- The SEND step takes in one packet, or ends (R621). `s0`: the state with the work still at the front. -/
def sendWork (s0 : State) (u : Nat) (s : State) (tag : Nat) (e : Entry) (j : Nat) (w : Work) : State :=
  match w with
  | .start _ _ _ _ => failAt s tag j u 0x01
  | .pkt p =>
    if !p.endTok then
      let c := ctxOf s tag j
      if 8192 < c.buf.length + p.data.length then failAt s tag j u 0x10
      else setCtx s tag j { c with buf := c.buf ++ p.data, inBytes := c.inBytes + p.data.length }
    else if !tokenReady s p j then s0
    else if p.prov then endProvisional s tag u
    else
      let bs := (ctxOf s tag j).buf
      if bs.isEmpty then failAt s tag j u 0x10
      else if e.t.inst ≠ 0 ∧ eff s (Reg.FED_INST_TAG + 4 * e.t.inst) 31 0 = 0 then failAt s tag j u 0x11
      else (takeMessage s tag e u bs).getD s0

/-- SEND (R621). -/
def execSend (unit : Nat) (s : State) : Out :=
  .next (serveFront s unit 0x0C (· == 0) (fun s' tag e j _ w => sendWork s unit s' tag e j w))

/-- RECEIVE (R625): the message's payload enters its receive line. -/
def execReceive (unit : Nat) (s : State) : Out :=
  .next (serveFront s unit 0x0C (· == 1) (fun s tag e j _ w =>
    match w, e.sub with
    | .start _ _ first n, .junction id =>
      match s.jct.recv.find? (fun r => r.id == id) with
      | none => failAt s tag j unit 0x01
      | some r =>
        let bs := (r.frame.payload.drop first).take n
        let s := countTaken (countCtx s tag j bs.length 0) tag bs.length
        let s := sendOut s tag j unit bs 0 false
        if allTaken s e tag j then endOut s tag j unit (ctxOf s tag j).outBytes false else s
    | .start _ _ _ _, _ => failAt s tag j unit 0x11
    | .pkt _, _ => failAt s tag j unit 0x10))

/-- DATA (R623, R624). -/
def execData (wire : WireFrame) (s : State) : Out :=
  .next (onOwn s wire 1 (fun s f => dataArrives (ackUpTo s f.src f.srcInc f.tenant f.ack none) f))

/-- ACK (R623). -/
def execAck (wire : WireFrame) (s : State) : Out :=
  .next (onOwn s wire 2 (fun s f => ackUpTo s f.src f.srcInc f.tenant f.ack (some f.window)))

/-- A frame comes from the incarnation a connection leads to, or may: none has acknowledged it yet (R622). -/
def fromPeer (s : State) (f : Frame) : Bool :=
  match (connOf s f.src f.tenant).bind (·.inc) with
  | some inc => f.srcInc == inc
  | none => true

/-- OUTCOME (R626); one of an incarnation the connection does not lead to is of no message of it (R622). -/
def execOutcome (wire : WireFrame) (s : State) : Out :=
  .next (onOwn s wire 3 (fun s f =>
    if fromPeer s f then msgOutcome s f.src f.tenant (fun m => m.sent && m.seq == f.seq) f.status else s))

/-- STALE_PEER ends the connection whose frame named an earlier incarnation (R623, R633). -/
def execStalePeer (wire : WireFrame) (s : State) : Out :=
  .next (onOwn s wire 7 (fun s f => if fromPeer s f then s else closeConn s f.src f.tenant))

/-- A frame to a node can be sent now (R628, R632). -/
def canSend (s : State) (node : Nat) : Bool := mayFrame s && ((nextHop s node).bind (portOf s)).isSome

/-- RETRANSMIT_TIMEOUT (R623, R633). RETRANSMITS counts a frame that is sent again (R642); a try for which no hop is live sends none
and counts as a retransmission of the message all the same (DEDUCED, log 227). -/
def execRetransmitTimeout (node tenant seq : Nat) (s : State) : Out :=
  match connOf s node tenant with
  | none => .next s
  | some c =>
    match c.msgs.find? (fun m => m.sent && !m.acked && m.seq == seq) with
    | none => .next s
    | some m =>
      if c.window ≠ 0 ∧ eff s Reg.FED_LINK_CFG 19 16 ≤ m.retries then
        .next (msgOutcome s node tenant (fun x => x.sent && x.seq == seq) 0x0B)
      else
        let m' := { m with sentAt := s.now, retries := if c.window = 0 then m.retries else m.retries + 1 }
        let s := sendFrame (if canSend s node then bump s Reg.FED_COUNTS 31 16 1 else s) (dataFrame s c m)
        .next (setConn s { c with msgs := c.msgs.map (fun x => if x.sent ∧ x.seq = seq then m' else x) })

/-- CONNECTION_IDLE_CLOSE (R622). -/
def execConnectionIdleClose (node tenant : Nat) (s : State) : Out :=
  match connOf s node tenant with
  | none => .next s
  | some c =>
    .next (if c.msgs.isEmpty then
      setJct s { s.jct with conns := s.jct.conns.filter (fun x => !(x.node == node && x.tenant == tenant)) } else s)

/-! ## Forwarding (R628) -/

/-- Bytes of a frame on the wire (R617). -/
def wireLen (f : Frame) : Nat := 82 + f.payload.length

/-- The bytes in a port's queue. -/
def portQueue (s : State) (p : Nat) : Nat := ((s.jct.out.filter (fun x => x.1 == p)).map (fun x => wireLen x.2.2)).sum

/-- A frame for another node goes on, with one hop less, or is dropped (R628). -/
def forward (s : State) (f : Frame) : State :=
  let drop := bump s Reg.FED_DROPS 31 16 1
  if f.hops ≤ 1 then drop
  else match (nextHop s f.dest).bind (portOf s) with
    | none => s
    | some p => if 4194304 < portQueue s p + wireLen f then drop else sendFrame s { f with hops := f.hops - 1 }

/-- FRAME_FORWARD (R628): DATA, ACK, OUTCOME and STALE_PEER frames addressed to another node. -/
def execFrameForward (wire : WireFrame) (s : State) : Out :=
  match frameIn s wire with
  | (some f, s) => .next (if f.dest ≠ nodeOf s ∧ (f.type ≤ 3 ∨ f.type = 7) then forward s f else s)
  | (none, s) => .next s

/-- A flooded frame goes on once, with one hop less (R633). -/
def floodOn (s : State) (f : Frame) : State := if f.hops ≤ 1 ∨ !mayFrame s then s else floodFrame s { f with hops := f.hops - 1 }

/-! ## Placement groups (R635–R637) -/

/-- Change placement group `g`. -/
def modGroup (s : State) (g : Nat) (h : FGroup → FGroup) : State :=
  setJct s { s.jct with groups := s.jct.groups.map (fun x => if x.group = g then h x else x) }

/-- A PROMOTED frame of a group at its TERM (R618). -/
def promotedFrame (s : State) (g term : Nat) : Frame :=
  { ownFrame s 6 0xFFFF 0 with param := g + term * 2 ^ 32 }

/-- Receive tickets of replica lines that have been admitted (R637 step 2). -/
def replicaBusy (s : State) : Bool :=
  (Tab.vals s.sbx.store).any (fun e =>
    (lineOf s e.t.line).cls == 11 && decide (0 < e.admitted) && (match e.sub with | .junction _ => true | _ => false))

/-- Steps 3 to 5 of R637. -/
def promote (s : State) (g : Nat) : State :=
  match s.jct.groups.find? (fun x => x.group == g) with
  | none => s
  | some x =>
    let term := (x.term + 1) % 65536
    let s := modGroup s g (fun x => { x with term := term, primary := true, claim := false, holder := some (nodeOf s) })
    let s := setJct s { s.jct with
      terms := Tab.set s.jct.terms g term, promotions := s.jct.promotions ++ [(g, term)],
      promoting := s.jct.promoting.filter (· != g) }
    let s := bump s Reg.FED_PLACE 23 16 1
    let at_ := ((Tab.get? s.ftl.ns x.nsid).map (·.attached)).getD []
    let s := at_.foldl (fun s c => nsChanged s c x.nsid) s
    if mayFrame s then floodFrame s (promotedFrame s g term) else s

/-- Promotions that have begun go on once step 2 of R637 holds. -/
def settlePromotions (s : State) : State := if replicaBusy s then s else s.jct.promoting.foldl promote s

/-- This node is the first of a group's NODES that it does not hold as lost (R637). -/
def firstAlive (s : State) (x : FGroup) : Bool :=
  x.nodes.find? (fun n => n != 0xFFFF && !s.jct.lost.contains n) == some (nodeOf s)

/-- The primary of a group, as far as this node knows (R635, R637). -/
def holderOf (x : FGroup) : Nat := x.holder.getD (x.nodes.headD 0xFFFF)

/-- The groups that a loss makes this node promote: the group's primary is lost (R637 step 1). -/
def beginPromotions (s : State) (node : Nat) : State :=
  let mine := s.jct.groups.filter (fun x =>
    x.nodes.contains node && !x.primary && s.jct.lost.contains (holderOf x) && firstAlive s x)
  let new := (mine.map (·.group)).filter (fun g => !s.jct.promoting.contains g)
  settlePromotions (setJct s { s.jct with promoting := s.jct.promoting ++ new })

/-- Every group that this node holds as primary is demoted (R634, R636). -/
def demoteAll (s : State) : State :=
  setJct s { s.jct with groups := s.jct.groups.map (fun x => { x with primary := false }) }

/-- PROMOTED (R636, R637): a higher TERM demotes the group; the frame is flooded on once. -/
def execPromoted (wire : WireFrame) (s : State) : Out :=
  .next (onFrame s wire 6 (fun s f =>
    let g := f.param % 2 ^ 32
    let term := f.param / 2 ^ 32 % 65536
    let seen := s.jct.promotions.contains (g, term)
    let s := if seen then s else floodOn (setJct s { s.jct with promotions := s.jct.promotions ++ [(g, term)] }) f
    match s.jct.groups.find? (fun x => x.group == g) with
    | none => s
    | some x =>
      if x.term < term then
        let s := modGroup s g (fun x => { x with term := term, primary := false, claim := false, holder := some f.src })
        setJct s { s.jct with terms := Tab.set s.jct.terms g term, promoting := s.jct.promoting.filter (· != g) }
      else s))

/-- PRIMARY_CLAIM_TIMEOUT (R636). -/
def execPrimaryClaimTimeout (s : State) : Out :=
  let claims : FGroup → Bool := fun x => x.claim && x.nodes.head? == some (nodeOf s) && x.nsid != 0
  .next (if s.jct.joined && !s.jct.duplicate then setJct s { s.jct with
      groups := s.jct.groups.map (fun x => if claims x then { x with primary := true, claim := false } else x) }
    else s)

/-! ## Heartbeats and peer loss (R630–R634) -/

/-- What a node does on learning that an incarnation of a node is lost (R633, R637). -/
def learnLoss (s : State) (node inc : Nat) : State :=
  let conns := s.jct.conns.filter (fun c => c.node == node && c.inc == some inc)
  let s := setJct s { s.jct with
    incoming := s.jct.incoming.filter (fun c => !(c.node == node && c.inc == inc)),
    recv := s.jct.recv.filter (fun r => !(r.frame.src == node && r.frame.srcInc == inc && r.tag.isNone && r.status.isNone)) }
  let s := conns.foldl (fun s c => closeConn s c.node c.tenant) s
  let newer := ((neighbourOf s node).map (fun n => n.inc != inc)).getD false
  if newer ∨ node = nodeOf s then s
  else
    let lost := if s.jct.lost.contains node then s.jct.lost else s.jct.lost ++ [node]
    beginPromotions (setJct s { s.jct with lost := lost }) node

/-- A neighbour is declared lost: LOSS is flooded, and with the last neighbour the device is ISOLATED (R631, R633, R634). -/
def loseNeighbour (s : State) (n : FNeighbour) : State :=
  let s := setJct s { s.jct with
    neighbours := s.jct.neighbours.filter (fun x => x.node != n.node), losses := s.jct.losses ++ [(n.node, n.inc)] }
  let s := if mayFrame s then floodFrame s { ownFrame s 5 0xFFFF 0 with param := n.node + n.inc * 65536 } else s
  let s := learnLoss s n.node n.inc
  if s.jct.neighbours.isEmpty then demoteAll s else s

/-- A new neighbour appears: it is sent the highest TERM held for every group (R630, R636). -/
def newNeighbour (s : State) (n : FNeighbour) : State :=
  if 64 ≤ s.jct.neighbours.length then bump s Reg.FED_DROPS 31 16 1
  else
    let s := setJct s { s.jct with
      neighbours := s.jct.neighbours ++ [n], lost := s.jct.lost.filter (· != n.node) }
    if !mayFrame s then s
    else match portOf s n.node with
      | none => s
      | some p => setJct s { s.jct with
          out := s.jct.out ++ s.jct.groups.map (fun g => (p, n.node, promotedFrame s g.group g.term)) }

/-- HEARTBEAT (R619, R630, R631). -/
def execHeartbeat (wire : WireFrame) (s : State) : Out :=
  .next (onFrame s wire 4 (fun s f =>
    let mac := leNat (slice wire.bytes 6 6).reverse
    let fresh : FNeighbour := {
      node := f.src, inc := f.srcInc, serial := f.param, heard := [(wire.port, s.now)], macs := [(wire.port, mac)] }
    if f.src = nodeOf s then
      if f.param = s.dev.serial ∨ s.jct.duplicate then s
      else record (setJct s { s.jct with duplicate := true }) 0x0050 sevFree 0 190 0 [3#8]
    else match neighbourOf s f.src with
      | none => if bitOf f.flags 1 then s else newNeighbour s fresh
      | some n =>
        if n.inc ≠ f.srcInc then
          let s := loseNeighbour s n
          if bitOf f.flags 1 then s else newNeighbour s fresh
        else if bitOf f.flags 1 then loseNeighbour s n
        else
          let n := { n with heard := Tab.set n.heard wire.port s.now, macs := Tab.set n.macs wire.port mac }
          setJct s { s.jct with
            neighbours := s.jct.neighbours.map (fun x => if x.node = n.node then n else x),
            lost := s.jct.lost.filter (· != n.node) }))

/-- LOSS (R633): forwarded once, and acted on. -/
def execLoss (wire : WireFrame) (s : State) : Out :=
  .next (onFrame s wire 5 (fun s f =>
    let node := f.param % 65536
    let inc := f.param / 65536 % 2 ^ 32
    if s.jct.losses.contains (node, inc) then s
    else learnLoss (floodOn (setJct s { s.jct with losses := s.jct.losses ++ [(node, inc)] }) f) node inc))

/-- A heartbeat of this node on every port whose link is up. -/
def sendHeartbeats (s : State) (flags : Nat) : State :=
  floodFrame s { ownFrame s 4 0xFFFF 0 with flags := flags, param := s.dev.serial }

/-- HEARTBEAT_TICK (R619, R630): also while the node is a duplicate. -/
def execHeartbeatTick (s : State) : Out := .next (if s.jct.joined && !s.jct.left then sendHeartbeats s 0 else s)

/-- The device leaves the federation: one heartbeat with LEAVING, and no frame from then on (R632). -/
def leaveFed (s : State) : State :=
  if s.jct.joined && !s.jct.left then
    let s := sendHeartbeats s 2
    setJct s { s.jct with left := true }
  else s

/-- NEIGHBOUR_TIMEOUT (R631). -/
def execNeighbourTimeout (node : Nat) (s : State) : Out :=
  match neighbourOf s node with
  | none => .next s
  | some n => .next (loseNeighbour s n)

/-- UASER_LINK_DOWN (R631): a neighbour is lost when every port on which it was heard within 500 µs has lost link. -/
def execUaserLinkDown (port : Nat) (s : State) : Out :=
  let s := setJct s { s.jct with links := s.jct.links.set port 0, cr1 := s.jct.cr1.set port false }
  let gone := s.jct.neighbours.filter (fun n =>
    (n.heard.filter (fun p => decide (s.now ≤ p.2 + 500))).all (fun p => s.jct.links.getD p.1 0 != 2))
  .next (gone.foldl loseNeighbour s)

/-- UASER_LINK_UP (R616). -/
def execUaserLinkUp (port : Nat) (cr1 : Bool) (s : State) : Out :=
  .next (setJct s { s.jct with links := s.jct.links.set port 2, cr1 := s.jct.cr1.set port cr1 })

/-! ## Tables (R628, R635, R641) -/

/-- The entries of a route table. -/
def parseNextHops (bs : Bytes) : Tab (Nat × Nat) :=
  ((List.range 65536).map (fun n => (n, leAt bs (4 * n) 2, leAt bs (4 * n + 2) 2))).filter
    (fun p => p.2.1 != 0xFFFF || p.2.2 != 0xFFFF)

/-- The entries of a placement table (R635). -/
def parseGroups (bs : Bytes) : List FGroup :=
  (chunks 16 (bs.length / 16) bs).map (fun b => {
    group := leAt b 0 4, term := leAt b 4 2, nsid := leAt b 6 2,
    nodes := [leAt b 8 2, leAt b 10 2, leAt b 12 2, leAt b 14 2] })

/-- A placement table that R635 accepts. -/
def groupsOk (s : State) (l : List FGroup) : Bool :=
  decide ((l.map (·.group)).Nodup) && l.all (fun x =>
    let named := x.nodes.filter (· != 0xFFFF)
    x.group != 0 && decide (x.nsid ≤ 1024) && !(x.nsid == 0 && x.nodes.contains (nodeOf s)) &&
      decide named.Nodup && x.nodes.head? != some 0xFFFF)

/-- A loaded entry stands if its TERM is at least the TERM held; otherwise the held TERM and role are kept (R637). -/
def loadGroup (s : State) (x : FGroup) : FGroup × Bool :=
  let held := s.jct.groups.find? (fun y => y.group == x.group)
  let term := max (Tab.getD s.jct.terms x.group 0) ((held.map (·.term)).getD 0)
  let was := (held.map (·.primary)).getD false
  if term ≤ x.term then ({ x with primary := was && x.nodes.head? == some (nodeOf s) }, false)
  else ({ x with term := term, primary := was, claim := (held.map (·.claim)).getD false, holder := held.bind (·.holder) }, true)

/-- The conditions of R641 on the TABLE set itself. -/
def tableCtlOk (set : Tab Nat) : Bool :=
  let t := fld (inSet set Reg.FED_TABLE_CTL) 1 0
  let len := inSet set Reg.FED_TABLE_LEN
  inSet set Reg.FED_TABLE_ADDR_LO % 64 == 0 &&
    ((t == 1 && len == 262144) || (t == 2 && len % 16 == 0 && decide (16 ≤ len) && decide (len ≤ 65536)))

/-- FED_TABLE_LOAD (R641): the TABLE set reaches its safe point; a placement table waits for a promotion that is running. -/
def execFedTableLoad (table : Bytes) (s : State) : Out :=
  let c := commitOf Reg.FED_TABLE_CTL
  match (groupAt s c).pending with
  | none => .next s
  | some set =>
    let t := fld (inSet set Reg.FED_TABLE_CTL) 1 0
    let bs := fit (inSet set Reg.FED_TABLE_LEN) table
    if !tableCtlOk set then .next (refuseSet s c 190)
    else if t = 1 then .next (setJct (takeSet s c) { s.jct with routes := parseNextHops bs })
    else if !s.jct.promoting.isEmpty then .next s
    else if !groupsOk s (parseGroups bs) then .next (refuseSet s c 190)
    else
      let l := (parseGroups bs).map (loadGroup s)
      let terms := l.foldl (fun t x => Tab.set t x.1.group x.1.term) s.jct.terms
      let s := setJct (takeSet s c) { s.jct with groups := l.map (·.1), terms := terms }
      .next (bump s Reg.FED_PLACE 31 24 (l.filter (·.2)).length)

/-! ## What the tick and a start do -/

/-- Outcomes of this node's messages to itself reach their tickets (R621). -/
def localOutcomes (s : State) : State :=
  let l := s.jct.arrived
  l.foldl (fun s p =>
    match entryOf s p.1 with
    | none => s
    | some e => messageOutcome s (nodeOf s) {
        tag := p.1, inst := e.t.inst, cookie := e.t.cookie, destUnit := fld e.t.dest.mid 31 24,
        srcUnit := ((unitsAt s e ((stepsOf s e).length - 1)).head?).getD 174,
        destGen := fld e.t.dest.mid 47 32, param := e.t.dest.addr,
        payload := (ctxOf s p.1 ((stepsOf s e).length - 1)).buf } p.2)
    (setJct s { s.jct with arrived := [] })

/-- At a tick the ports transmit what they were given, and what waits in the junction goes on (log 47). -/
def fedSettle (s : State) : State :=
  let s := settlePromotions (submitRecvs (localOutcomes s))
  setJct s { s.jct with out := [] }

/-- A start's step 2 (R619): the incarnation is incremented; nothing of the previous incarnation is left; every group is
demoted (R636). The tables stay (log 52). -/
def fedStart (j : Jct) : Jct := {
  inc := (j.inc + 1) % 2 ^ 32, routes := j.routes, terms := j.terms,
  groups := j.groups.map (fun x => { x with primary := false, claim := true, holder := none, term := Tab.getD j.terms x.group x.term }) }

/-- The device is joined while the effective EN is 1 (R619). -/
def fedJoin (s : State) : State :=
  if eff s Reg.FED_NODE_CFG 31 31 = 1 then setJct s { s.jct with joined := true } else s

end Sys2Proof.Machine
end

