-- ==== Sys2Proof/Machine/Search.lean ====
section
/-! DEFINITION. The associative search unit (12_associative_search.md): matching, searches, updates, provisional holds, the
scrubber and bank copies. -/

namespace Sys2Proof.Machine

/-! ## Entries (R438–R440) -/

/-- Change the search unit's state. -/
def setAsu (s : State) (a : Asu) : State := { s with asu := a }

/-- Bank `b`. -/
def bankOf (s : State) (b : Nat) : Bank := Tab.getD s.asu.banks b {}

/-- Replace bank `b`. -/
def setBank (s : State) (b : Nat) (x : Bank) : State := setAsu s { s.asu with banks := Tab.put {} s.asu.banks b x }

/-- A key matches an entry (R439). -/
def matchesKey (e : SEntry) (k : Nat) : Bool :=
  decide (e.value &&& (2 ^ 128 - 1 - e.care) = 0) && decide (e.value &&& e.care = k &&& e.care)

/-- The entries of the selected banks that match, with their global index. -/
def matching (s : State) (banks k : Nat) : List (Nat × SEntry) :=
  s.asu.entries.filter (fun p => bitOf banks (p.1 / 8192) && matchesKey p.2 k)

/-- The winner among matching entries: the highest PRIORITY, then the lowest G (R440). The list is in rising G. -/
def winner (l : List (Nat × SEntry)) : Option (Nat × SEntry) :=
  l.foldl (fun b p =>
    match b with
    | none => some p
    | some w => if w.2.prio < p.2.prio then some p else some w) none

/-- The result record of a key record (R442, R443). -/
def resultOf (s : State) (rcd : Bytes) : Bytes :=
  let l := matching s (leAt rcd 16 8) (leAt rcd 0 16)
  let user := slice rcd 24 4
  match winner l with
  | none => natLe 4 0xFFFFFFFF ++ natLe 2 0 ++ [0#8, 0xFF#8] ++ natLe 2 0xFFFF ++ zeros 2 ++ user
  | some w =>
    let multi := decide (2 ≤ (l.filter (fun p => p.2.prio == w.2.prio)).length)
    natLe 4 w.2.result ++ natLe 2 w.2.prio ++ natLe 1 (1 + 2 * b2n multi) ++ natLe 1 (w.1 / 8192) ++
      natLe 2 (w.1 % 8192) ++ zeros 2 ++ user

/-- The global index that an entry record locates (R438). -/
def locationOf (rcd : Bytes) : Nat := fld (leAt rcd 40 4) 18 13 * 8192 + fld (leAt rcd 40 4) 12 0

/-- The entry that a record stores: `none` is the invalid form (R439). -/
def entryOfRecord (rcd : Bytes) : Option SEntry :=
  if bitOf (leAt rcd 34 1) 0 then
    some { value := leAt rcd 0 16, care := leAt rcd 16 16, prio := leAt rcd 32 2, result := leAt rcd 36 4 }
  else none

/-- List or unlist an entry. -/
def putEntry (t : Tab SEntry) (g : Nat) (e : Option SEntry) : Tab SEntry :=
  match e with
  | some x => Tab.set t g x
  | none => Tab.erase t g

/-- An update takes effect in every shadow copy and in its bank, and ends LOST (R451, R453, R455). -/
def storeEntry (s : State) (g : Nat) (e : Option SEntry) : State :=
  setAsu s { s.asu with
    entries := putEntry s.asu.entries g e,
    shadow := if s.asu.copies.isEmpty then s.asu.shadow else putEntry s.asu.shadow g e,
    lost := s.asu.lost.filter (· != g) }

/-- Every entry of a group's banks takes the invalid form, and LOST is cleared (R460). -/
def clearGroup (s : State) (u : Nat) : State :=
  let mine : Nat → Bool := fun g => g / 32768 == u - 152
  setAsu s { s.asu with
    entries := Tab.keep s.asu.entries (fun g _ => !mine g),
    shadow := Tab.keep s.asu.shadow (fun g _ => !mine g),
    lost := s.asu.lost.filter (fun g => !mine g) }

/-! ## The checks of a packet (R444, R445) -/

/-- The banks selected by a bit mask. -/
def banksIn (mask : Nat) : List Nat := (List.range 64).filter (bitOf mask)

/-- Banks per key that a mode allows. -/
def maxBanks (mode : Nat) : Nat := match mode with | 0 => 4 | 1 => 16 | _ => 64

/-- Step 1: format. -/
def recordOk (mode : Nat) (rcd : Bytes) : Bool :=
  if mode = 3 then
    let value := leAt rcd 0 16
    let care := leAt rcd 16 16
    decide (leAt rcd 34 1 < 2) && isZero rcd 35 1 && decide (fld (leAt rcd 40 4) 31 19 = 0) && isZero rcd 44 20 &&
      (!bitOf (leAt rcd 34 1) 0 || decide (value &&& (2 ^ 128 - 1 - care) = 0))
  else
    let n := (banksIn (leAt rcd 16 8)).length
    isZero rcd 28 4 && decide (1 ≤ n) && decide (n ≤ maxBanks mode)

/-- The banks that a record reaches. -/
def banksOf (mode : Nat) (rcd : Bytes) : List Nat :=
  if mode = 3 then [locationOf rcd / 8192] else banksIn (leAt rcd 16 8)

/-- The instance may use the bank (R445). -/
def bankAllowed (s : State) (mode i b : Nat) : Bool :=
  let u := 152 + b / 4
  serves s u i && (mode != 3 || i == 0 || (unitOf s u).role != 1)

/-- The bank serves the packet (R444 step 4). -/
def bankGood (s : State) (mode b : Nat) : Bool :=
  decide ((bankOf s b).state ≠ .offline) && (mode == 3 || !s.asu.lost.any (fun g => g / 8192 == b))

/-- The records of a packet. -/
def recordsOf (mode : Nat) (bs : Bytes) : List Bytes :=
  chunks (if mode = 3 then 64 else 32) 128 bs

/-- The checks of R444 in order: a status, or the entry with the GENs of the groups reached captured. -/
def searchCheck (s : State) (e : Entry) (mode : Nat) (bs : Bytes) : Except Nat Entry :=
  let rs := recordsOf mode bs
  let banks := (rs.flatMap (banksOf mode)).eraseDups
  let groups := (banks.map (fun b => 152 + b / 4)).eraseDups
  if bs.length % (if mode = 3 then 64 else 32) ≠ 0 ∨ !rs.all (recordOk mode) then .error 0x10
  else if !banks.all (bankAllowed s mode e.t.inst) then .error 0x11
  else if groups.any (fun u => match Tab.get? e.captured u with
      | some g => g != (unitOf s u).gen
      | none => false) then .error 0x0B
  else if !banks.all (bankGood s mode) then .error 0x0F
  else .ok { e with captured := groups.foldl (fun t u => Tab.set t u (unitOf s u).gen) e.captured }

/-! ## The station -/

/-- The port of a group: its island (R435, R436). -/
def asuPort (u : Nat) : Nat := (u - 152) / 4

/-! ### Slots (R446, R448)

What a search answers and what an update stores is settled when the port takes the packet (R451 orders them); the slots that
the operations then take at the banks, one operation of a bank in each, are counted here (log 185). -/

/-- A set of banks, as a bit mask. -/
def bankMask (bs : List Nat) : Nat := bs.foldl (fun m b => m ||| 2 ^ b) 0

/-- The slots that a key needs: its banks in ascending order, four in each (R446). -/
def keySlots (mask : Nat) : List Nat :=
  let bs := banksIn mask
  (List.range (ceilDiv bs.length 4)).map (fun i => bankMask ((bs.drop (4 * i)).take 4))

/-- Slots of the search islands in one microsecond: a slot is 4.0 ns × 1,200 ÷ f, with the frequency of the islands that run (R437,
R446). -/
def slotsPerUs (s : State) : Nat := (searchIslands.map (fun k => (islandAt s k).mhz)).foldl max 0 * 5 / 24

/-- Slots that UPD_WAIT lets an update wait (R448, R463). -/
def updWait (s : State) : Nat := eff s Reg.ASU_CFG 3 0

/-- The banks at which an update has waited `wait` slots. -/
def urgentBanks (wait : Nat) (q : SlotBook) : Nat :=
  bankMask ((q.updates.filter (fun p => p.2.head?.any (wait ≤ ·))).map (·.1))

/-- Port `p` asks for the banks of its next slot, `taken` being those that went to others: it has them all, or waits one whole
slot with the group of four. Answers the banks taken, what the port still needs, and whether it lost a bank. -/
def askBanks (taken : Nat) (need : List Nat) : Nat × List Nat × Bool :=
  match need with
  | [] => (taken, [], false)
  | m :: rest => if m &&& taken = 0 then (taken ||| m, rest, false) else (taken, need, true)

/-- One slot: updates that have waited, then searches by port, then the other updates (R448). A scrub read takes a slot that
none of them wants, so it delays none of them. Answers the ports that lost a bank. -/
def slotStep (wait : Nat) (q : SlotBook) : SlotBook × List Nat :=
  let urgent := urgentBanks wait q
  let r := (List.range 4).foldl (fun (a : Nat × Tab (List Nat) × List Nat) p =>
    let x := askBanks a.1 (Tab.getD q.ports p [])
    (x.1, Tab.put [] a.2.1 p x.2.1, if x.2.2 then a.2.2 ++ [p] else a.2.2)) (urgent, q.ports, [])
  let serve := fun (b : Nat) (l : List Nat) =>
    (if bitOf urgent b || !bitOf r.1 b then l.drop 1 else l).map (· + 1)
  ({ ports := r.2.1, updates := (Tab.mapVals q.updates serve).filter (fun p => !p.2.isEmpty) }, r.2.2)

/-- Up to `n` slots, while anything waits. Answers every loss of a bank, by port. -/
def slotsRun (wait : Nat) : Nat → SlotBook → SlotBook × List Nat
  | 0, q => (q, [])
  | n + 1, q =>
    if q.ports.isEmpty && q.updates.isEmpty then (q, [])
    else
      let r := slotStep wait q
      let rest := slotsRun wait n r.1
      (rest.1, r.2 ++ rest.2)

/-- A microsecond's slots pass; each wait of a search counts in its port's CONFLICT (R448, R466). -/
def passSlots (s : State) : State :=
  if s.asu.slots = {} then s
  else
    let r := slotsRun (updWait s) (slotsPerUs s) s.asu.slots
    r.2.foldl (fun s p => bump s (Reg.ASU_PORT_WAITS + 8 * p) 31 16 1) (setAsu s { s.asu with slots := r.1 })

/-- The keys of a packet come to their port. -/
def presentKeys (s : State) (port : Nat) (masks : List Nat) : State :=
  let q := s.asu.slots
  setAsu s { s.asu with slots := { q with
    ports := Tab.put [] q.ports port (Tab.getD q.ports port [] ++ masks.flatMap keySlots) } }

/-- Updates come to their banks. -/
def presentUpdates (s : State) (banks : List Nat) : State :=
  let q := s.asu.slots
  setAsu s { s.asu with slots := { q with
    updates := banks.foldl (fun t b => Tab.set t b (Tab.getD t b [] ++ [0])) q.updates } }

/-- A fault of the ternary storage gives an entry other match bits; nothing checks them before the scrubber's next visit
(R455). -/
def ternaryFault (t : Tab SEntry) (x : Nat × Nat × Nat) : Tab SEntry :=
  Tab.set t x.1 { Tab.getD t x.1 { value := 0, care := 0, prio := 0, result := 0 } with value := x.2.1, care := x.2.2 }

/-- The faults of the ternary storage that have come since the last search, in the array only (R455). -/
def ternaryFaults (s : State) (l : List (Nat × Nat × Nat)) : State :=
  let l := l.filter (fun x => x.1 < 524288 && x.2.1 < 2 ^ 128 && x.2.2 < 2 ^ 128)
  setAsu s { s.asu with entries := l.foldl ternaryFault s.asu.entries }

/-- The key record finds a winner, whose SRAM word is then read (R455). -/
def hasWinner (s : State) (rcd : Bytes) : Bool := (winner (matching s (leAt rcd 16 8) (leAt rcd 0 16))).isSome

/-- What the winners' SRAM words of a packet's key records gave, in order of the records (R455). -/
def winnerWords (s : State) (rs : List Bytes) (sram : List Nat) : List Nat :=
  ((rs.zipIdx).filter (fun r => hasWinner s r.1)).map (fun r => sram.getD r.2 0)

/-- The SRAM words of the winners are read with their code (R44, R45, R455): each corrected symbol is counted, and each word
that cannot be corrected is counted and logged. -/
def countWords (s : State) (u inst tag : Nat) (words : List Nat) : State :=
  let s := countCorrected s u (words.count 1) (some tag)
  if words.contains 2 then recordLost (countUncorr s u (words.count 2)) u inst lostUnknown else s

/-- A packet that may be acted on: searched or written (R443, R450–R452); `sram`: what the SRAM word of each record's winner
gives, 1 corrected, 2 uncorrectable, whose ticket completes with MEDIA_LOST (R45, R455). `count` of the context counts the
record bytes that took effect. -/
def searchPacket (s : State) (u tag step : Nat) (mode : Nat) (sram : List Nat) (p : Packet) : State :=
  match entryOf s tag with
  | none => s
  | some e =>
    match searchCheck s e mode p.data with
    | .error st => failAt s tag step u st
    | .ok e' =>
      let s := setEntry s tag e'
      let rs := recordsOf mode p.data
      if mode = 3 then
        let s := presentUpdates s (rs.map (fun r => locationOf r / 8192))
        let s := rs.foldl (fun s r => storeEntry s (locationOf r) (entryOfRecord r)) s
        setCtx s tag step { ctxOf s tag step with count := (ctxOf s tag step).count + p.data.length }
      else
        let wide := (rs.filter (fun r => decide (4 < (banksIn (leAt r 16 8)).length))).length
        let a := 8 * asuPort u
        let s := presentKeys s (asuPort u) (rs.map (fun r => leAt r 16 8))
        let s := bump s (Reg.ASU_PORT_SEARCHES + a) 31 0 rs.length
        let s := bump s (Reg.ASU_PORT_WAITS + a) 15 0 wide
        let words := winnerWords s rs sram
        let s := countWords s u e.t.inst tag words
        if words.contains 2 then failAt s tag step u 0x0F else sendOut s tag step u (rs.flatMap (resultOf s)) 0 false

/-- The packets of a held input, one after another; `sram` goes on over their records. -/
def searchHeld (s : State) (u tag step mode : Nat) (sram : List Nat) (l : List Packet) : State :=
  (l.foldl (fun (r : State × List Nat) p =>
    (if stillRuns r.1 tag then searchPacket r.1 u tag step mode r.2 p else r.1,
      r.2.drop (recordsOf mode p.data).length)) (s, sram)).1

/-- The end of the ticket's input: held input is searched or written after PROV 0, discarded after PROV 1 (R458). -/
def searchEnd (s : State) (u tag step : Nat) (mode : Nat) (sram : List Nat) (prov : Bool) : State :=
  let c := ctxOf s tag step
  let s := setCtx s tag step { c with held := [] }
  let s := if prov then s else searchHeld s u tag step mode sram c.held
  match entryOf s tag with
  | none => s
  | some e =>
    if e.revoking then s
    else if prov && isLast s e step then endProvisional s tag u
    else endOut s tag step u (ctxOf s tag step).count prov

/-- Bytes that the ticket reserves in the hold region: DECLARED_LEN × SCALE ÷ 16 (R458). -/
def searchHoldNeed (e : Entry) (st : LStep) : Nat := ceilDiv (e.t.len * st.scale) 16

/-- Hold-region bytes reserved at a port. -/
def searchHoldUsed (s : State) (p : Nat) : Nat := (Tab.vals (Tab.getD s.asu.hold p [])).sum

/-- The ticket's first provisional byte: it reserves its room, waits for it, or ends with NO_SPACE (R458). -/
def searchHold (s : State) (u tag step : Nat) (e : Entry) (st : LStep) : State :=
  let p := asuPort u
  let need := searchHoldNeed e st
  if (Tab.get? (Tab.getD s.asu.hold p []) tag).isSome ∨ (Tab.getD s.asu.holdWait p []).contains tag then s
  else if 4194304 < need then failAt s tag step u 0x05
  else if searchHoldUsed s p + need ≤ 4194304 then
    setAsu s { s.asu with hold := Tab.set s.asu.hold p (Tab.set (Tab.getD s.asu.hold p []) tag need) }
  else
    let s := setAsu s { s.asu with holdWait := Tab.set s.asu.holdWait p (Tab.getD s.asu.holdWait p [] ++ [tag]) }
    setCtx s tag step { ctxOf s tag step with waitsHold := true }

/-- The port serves the front of group `u`'s queue in `mode`; `env`: the faults that the array shows it (R455). -/
def searchServe (s : State) (u mode : Nat) (env : SearchEnv) : State :=
  serveFront (ternaryFaults s env.ternary) u 0x09 (· == mode) (fun s tag e j st w =>
    match w with
    | .start _ _ _ _ => failAt s tag j u 0x01
    | .pkt p =>
      let c := ctxOf s tag j
      if p.endTok then
        if c.waitsHold || !tokenReady s p j then enqueue s u w else searchEnd s u tag j mode env.sram p.prov
      else
        let s := countCtx s tag j p.data.length 0
        if p.prov || !c.held.isEmpty then
          let s := searchHold s u tag j e st
          if stillRuns s tag then setCtx s tag j { ctxOf s tag j with held := (ctxOf s tag j).held ++ [p] } else s
        else searchPacket s u tag j mode env.sram p)

/-- SEARCH4 (R441): the port of group `unit` takes the next work of its queue in mode 0. -/
def execSearch4 (unit : SearchAt) (s : State) : Out := .next (searchServe s unit.unit 0 unit.faults)

/-- SEARCH16 (R441): mode 1. -/
def execSearch16 (unit : SearchAt) (s : State) : Out := .next (searchServe s unit.unit 1 unit.faults)

/-- SEARCH64 (R441): mode 2. -/
def execSearch64 (unit : SearchAt) (s : State) : Out := .next (searchServe s unit.unit 2 unit.faults)

/-- UPDATE (R451): mode 3. -/
def execUpdate (unit : Nat) (s : State) : Out := .next (searchServe s unit 3 {})

/-- ASU_HOLD_ROOM_FREE (R458): the earliest waiting ticket of the port takes its reservation when it fits. -/
def execAsuHoldRoomFree (port : Nat) (s : State) : Out :=
  match Tab.getD s.asu.holdWait port [] with
  | [] => .next s
  | tag :: rest =>
    match entryOf s tag with
    | none => .next (setAsu s { s.asu with holdWait := Tab.put [] s.asu.holdWait port rest })
    | some e =>
      let step := (List.range (stepsOf s e).length).find? (fun j => (ctxOf s tag j).waitsHold)
      match step with
      | none => .next (setAsu s { s.asu with holdWait := Tab.put [] s.asu.holdWait port rest })
      | some j =>
        let need := ((stepsOf s e)[j]?.map (searchHoldNeed e)).getD 0
        if 4194304 < searchHoldUsed s port + need then .next s
        else
          let s := setAsu s { s.asu with
            holdWait := Tab.put [] s.asu.holdWait port rest,
            hold := Tab.set s.asu.hold port (Tab.set (Tab.getD s.asu.hold port []) tag need) }
          .next (setCtx s tag j { ctxOf s tag j with waitsHold := false })

/-! ## The scrubber (R454, R455) -/

/-- A finding is logged under the owning instance (R454, R721 SCRUB). -/
def recordScrub (s : State) (finding g : Nat) : State :=
  let u := 152 + g / 32768
  record s 0x0032 sevFree 0 u (unitOf s u).owner (natLe 1 finding ++ natLe 1 (g / 8192) ++ natLe 2 (g % 8192))

/-- A CORRECTED or REWRITTEN finding of a bank; more than 16 in 1 s report the bank (R455). -/
def countFinding (s : State) (b : Nat) : State :=
  let times := (s.now :: Tab.getD s.tst.findings b []).filter (fun t => s.now < t + 1000000)
  let tooMany := decide (16 < times.length)
  let s := setTst s { s.tst with findings := Tab.put [] s.tst.findings b (if tooMany then [] else times) }
  if !tooMany || s.tst.autoHeld || (s.tst.queue ++ s.tst.urgent).any (fun t => t.unit == 152 + b / 4 && t.bank == b) then s
  else queueReport s { unit := 152 + b / 4, cause := 0, bank := b }

/-- A scrub pass runs from the read of the first entry of bank 0 to that of the last entry of bank 63 (R465). -/
def scrubPass (s : State) (g : Nat) : State :=
  if g = 0 then setAsu s { s.asu with passSince := some s.now }
  else if g = 524287 then
    match s.asu.passSince with
    | some t => setAsu s { s.asu with passSince := none, lastPass := (s.now - t) / 1000 }
    | none => s
  else s

/-- The entry that the scrubber takes as the shadow (R454): of the clean copies, each with the record it gives where that is
not what was stored, the one that equals the array word, where that can be read, else the first. `none` where no copy is
clean. -/
def cleanShadow (s : State) (g : Nat) (array : Option (Option SEntry)) (copies : List (Bool × Option Bytes)) :
    Option (Option SEntry) :=
  let clean := ((copies.take s.asu.copies.length).filter (·.1)).map (fun c =>
    match c.2 with | some r => entryOfRecord r | none => Tab.get? s.asu.shadow g)
  match array with
  | some x => if clean.contains x then some x else clean.head?
  | none => clean.head?

/-- An update of the bank of entry `g` waits for its slot (R448): the scrubber does not compare an entry whose update is in
flight (R454). -/
def updateInFlight (s : State) (g : Nat) : Bool := !(Tab.getD s.asu.slots.updates (g / 8192) []).isEmpty

/-- SCRUB_READ (R454): the scrubber reads an entry. `word`: 0 clean, 1 a corrected symbol, 2 uncorrectable; `found`: the
entry record that the array gives where it is not what was stored; `copies`: of each shadow copy, whether it is clean and the
record it gives where that is not what was stored. -/
def execScrubRead (bank entry word : Nat) (found : Option Bytes) (copies : List (Bool × Option Bytes)) (s : State) : Out :=
  let g := 8192 * bank + entry
  let s := if bank < 64 ∧ entry < 8192 then scrubPass s g else s
  let stored := Tab.get? s.asu.entries g
  let array := match found with | some r => entryOfRecord r | none => stored
  let shadow := cleanShadow s g (if word = 2 then none else some array) copies
  if 64 ≤ bank ∨ 8192 ≤ entry ∨ s.asu.lost.contains g ∨ updateInFlight s g then .next s
  else if word = 2 ∧ shadow = none then
    .next (recordScrub (bump (setAsu s { s.asu with lost := s.asu.lost ++ [g] }) Reg.ASU_SCRUB_COUNTS 7 0 1) 4 g)
  else if shadow ≠ none ∧ (word = 2 ∨ shadow ≠ some array) then
    let s := setAsu s { s.asu with
      entries := putEntry s.asu.entries g shadow.join, shadow := putEntry s.asu.shadow g shadow.join }
    .next (countFinding (recordScrub (bump s Reg.ASU_SCRUB_COUNTS 23 16 1) 2 g) bank)
  else
    let s := setAsu s { s.asu with
      entries := putEntry s.asu.entries g array,
      shadow := if s.asu.copies.isEmpty then s.asu.shadow else putEntry s.asu.shadow g array }
    if word = 1 then .next (countFinding (recordScrub (bump s Reg.ASU_SCRUB_COUNTS 31 24 1) 1 g) bank)
    else if !s.asu.copies.isEmpty ∧ shadow = none then .next (recordScrub (bump s Reg.ASU_SCRUB_COUNTS 15 8 1) 3 g)
    else .next s

/-! ## Bank copies (R456, R457) -/

/-- BANK_COPY_DONE (R457): a copy from the shadow, of which one must be left, completes and the serving hardware changes. The spare's unit reports
BOUND and the group it serves while a spare serves. -/
def execBankCopyDone (bank : Nat) (s : State) : Out :=
  let b := bankOf s bank
  let u := 152 + bank / 4
  if s.asu.copies.isEmpty then .next s
  else match b.state, b.spare with
  | .copying, some sp =>
    let s := setBank s bank { b with state := if b.failed then .spared else .test }
    .next (setUnit s sp { unitOf s sp with state := .bound, serves := u })
  | .returning, some sp =>
    let s := setBank s bank {}
    .next (setUnit s sp { unitOf s sp with state := .idle, serves := 0xFF })
  | _, _ => .next s

end Sys2Proof.Machine
end

