-- ==== Sys2Proof/Machine/TenBase.lean ====
section
/-! DEFINITION. Tenant instances as other blocks use them (17_tenant_instances.md): the instance reset (R603, R604), the
dirty-page log (R609–R613), the lost list, and set-up requests. -/

namespace Sys2Proof.Machine

/-- Change the tenancy state. -/
def setTen (s : State) (t : Ten) : State := { s with ten := t }

/-! ## Instance reset (R603–R607) -/

/-- Cores and fens of an instance are held, but for a unit that is being withdrawn (R604 step 3, R607). -/
def holdInstance (s : State) (i : Nat) : State :=
  let mine : Nat → Bool := fun u => (unitOf s u).owner == i && !s.ten.withdrawing.any (fun p => p.1 == u)
  let s := ((List.range 40).filter (fun f => mine (32 + f))).foldl fenHold s
  ((List.range 32).filter (fun k => mine (88 + k))).foldl (fun s k => coreHold s (coreIndex s (88 + k))) s

/-- Every ticket of the instance is fenced and ends with INSTANCE_RESET (R604 steps 3 to 6, R171). -/
def endInstance (s : State) (i : Nat) : State :=
  (tagsWhere s (fun e => e.t.inst == i)).foldl (fun s tag =>
    finishTicket (fenceTicket s tag 0x0C (fun e => { e with instReset := true })) tag) s

/-- A controller's queues are deleted and its commands get no completion; `admin`: the admin queue as well (R561, R604). -/
def dropController (s : State) (c : Nat) (admin : Bool) : State :=
  let x := ctrlOf s c
  let keep : Nat → Bool := fun k => !admin && k == 0
  let s := setHif s { s.hif with cmds := s.hif.cmds.filter (fun y => y.ctrl != c) }
  setCtrl s c { x with
    sqs := Tab.mapVals (Tab.keep x.sqs (fun k _ => keep k)) (fun _ q => { q with tail := 0, head := 0, fetched := [] }),
    cqs := Tab.mapVals (Tab.keep x.cqs (fun k _ => keep k)) (fun _ q => { q with tail := 0, phase := true }),
    aer := [], cc := if admin then 0 else x.cc / 2 * 2,
    aqa := if admin then 0 else x.aqa, asq := if admin then 0 else x.asq, acq := if admin then 0 else x.acq }

/-- The key requests of an instance that is reset (R382): one that has not reached step 1 of R379 is abandoned, one that has runs
on without a completion. -/
def dropKeyReqs (s : State) (i : Nat) : State :=
  let quiet : KeyReq → KeyReq := fun r => if r.inst = i ∧ r.via = none then { r with silent := true } else r
  setKey s { s.key with
    reqs := (s.key.reqs.filter (fun r => r.inst != i || r.via.isSome || keyStarted s r)).map quiet,
    slots := Tab.mapVals s.key.slots (fun _ k => { k with waits := k.waits.map (fun p => (quiet p.1, p.2)) }) }

/-- The reset of R604 as one step: the key request and load of the instance (R85, R382), the fence, contexts and handles,
the siding, the controller, RESETS. After a function level reset the TDI is unlocked (R670). -/
def resetInstance (s : State) (i : Nat) (flr : Bool) : State :=
  let s := setInst s i { instOf s i with state := .resetting }
  let s := dropKeyReqs s i
  let s := loaderReset s i
  let s := endInstance (holdInstance s i) i
  let s := setKey s { s.key with handles := Tab.keep s.key.handles (fun k _ => k / 32 != i) }
  let s := { s with sbx := { s.sbx with siding := s.sbx.siding.filter (fun e => e.inst != i || e.disp != 1) } }
  let s := dropController s (ctrlOfInst i (instOf s i).port) flr
  let s := if flr then { s with tru := { s.tru with tdi := Tab.erase s.tru.tdi i, tdiStream := Tab.erase s.tru.tdiStream i } }
    else s
  let x := instOf s i
  setInst s i { x with
    state := .ready, resets := satAdd 8 x.resets 1, log := { x.log with resetMet := x.log.resetMet || x.log.en } }

/-- An instance reset from one of the triggers of R603: of an instance that is READY. -/
def instanceReset (s : State) (i : Nat) (flr : Bool) : State :=
  if i = 0 ∨ (instOf s i).state ≠ .ready then s else resetInstance s i flr

/-! ## The dirty-page log (R609–R613, R615) -/

/-- The header of a buffer that stops being active (R612). -/
def logHeader (s : State) (i : Nat) (l : DLog) : Bytes :=
  [0x44#8, 0x4C#8, 0x4F#8, 0x47#8] ++ natLe 2 i ++ natLe 1 l.active ++
    natLe 1 (b2n l.overflow + 2 * b2n l.resetMet + 4) ++ natLe 8 l.period ++ natLe 8 l.marked ++ natLe 8 l.startUs ++
    natLe 8 (timeUs s) ++ zeros 24

/-- Every cached word of the active buffer is written back, then the buffer's header, in the port's physical function's
address space (R609, R613 steps 2 and 3). The host has zeroed the buffer (log 46). -/
def logClose (s : State) (i : Nat) : State :=
  let x := instOf s i
  let l := x.log
  let base := if l.active = 0 then l.bufs.1 else l.bufs.2
  let words := (l.marks.map (· / 64)).eraseDups
  let s := words.foldl (fun s w =>
    let v := ((l.marks.filter (fun p => p / 64 == w)).map (fun p => 2 ^ (p % 64))).sum
    hostRaw s x.port 0 (base + 64 + 8 * w) (natLe 8 v)) s
  hostRaw s x.port 0 base (logHeader s i l)

/-- A switch (R613). -/
def logSwitch (s : State) (i : Nat) : State :=
  let l := (instOf s i).log
  if !l.en then s
  else
    let s := logClose s i
    setInst s i { instOf s i with log := { l with
      active := 1 - l.active, period := l.period + 1, marks := [], marked := 0, startUs := timeUs s,
      overflow := false, resetMet := false } }

/-- The log is enabled: buffer 0, PERIOD 0 (R615). Enabling it disturbs a locked TDI (R671). -/
def logStart (s : State) (i base cover b0 b1 : Nat) : State :=
  let s := tdiDisturb s i
  setInst s i { instOf s i with log := {
    en := true, base := base, cover := cover, bufs := (b0, b1), startUs := timeUs s } }

/-- The log is disabled: the active buffer's header is written (R615). -/
def logStop (s : State) (i : Nat) : State :=
  if !(instOf s i).log.en then s
  else
    let s := logClose s i
    setInst s i { instOf s i with log := {} }

/-- LOG_SWITCH (R613). -/
def execLogSwitch (inst : Nat) (s : State) : Out := .next (logSwitch s inst)

/-! ## The lost list (R599, R602) -/

/-- A read of VFP_LMEM_LOST: the oldest lost page, removed from the list. -/
def popLost (s : State) (i : Nat) : Nat × State :=
  match (instOf s i).lost with
  | [] => (0xFFFFFFFF, s)
  | p :: t => (p, setInst s i { instOf s i with lost := t })

/-- LMEM_LOST_POP (R602): not while the instance is FREE or RESETTING, when reads return 0 (R601). -/
def execLmemLostPop (inst : Mmio) (s : State) : Out :=
  let ide := inst.ide
  let inst := inst.place
  onPage s (some inst) ide (fun s =>
    match (instOf s inst).state with
    | .free | .resetting => { s with regs := { s.regs with readData := 0 } }
    | _ =>
      let r := popLost s inst
      { r.2 with regs := { r.2.regs with readData := r.1 } })

/-- INSTANCE_RESET (R604). -/
def execInstanceReset (inst : Nat) (flr : Bool) (s : State) : Out := .next (instanceReset s inst flr)

end Sys2Proof.Machine
end

