-- ==== Sys2Proof/Machine/HostLinks.lean ====
section
/-! DEFINITION. Resets of functions and of ports, and link training (16_host_interface.md, R559–R562; R680). -/

namespace Sys2Proof.Machine

/-- Port `p`'s link (R586). -/
def linkOf (s : State) (p : Nat) : Link := Tab.getD s.hif.links p {}

/-- Replace port `p`'s link. -/
def setLink (s : State) (p : Nat) (x : Link) : State := setHif s { s.hif with links := Tab.set s.hif.links p x }

/-- The instances whose virtual function is on port `p` (R560). -/
def portInsts (s : State) (p : Nat) : List Nat :=
  (Tab.keys s.ten.insts).filter (fun i => i != 0 && (instOf s i).port == p && decide ((instOf s i).state ≠ .free))

/-- A port reset: every virtual function of the port has an instance reset, and the physical function loses its queues
(R562, R680, in either mode). -/
def portReset (s : State) (p : Nat) : State :=
  dropController ((portInsts s p).foldl (fun s i => instanceReset s i false) s) p true

/-- Whether port `p` exists: port B only in 2 × x8 mode (R24). -/
def portExists (s : State) (p : Nat) : Bool := p == 0 || (p == 1 && s.hif.x8x8)

/-- The widest width that `lanes` working lanes of port `p` allow (R557, R559). -/
def widthFor (s : State) (lanes : Nat) : Nat :=
  if 16 ≤ lanes ∧ !s.hif.x8x8 then 16 else if 8 ≤ lanes then 8 else if 4 ≤ lanes then 4 else if 2 ≤ lanes then 2
  else lanes

/-- The link goes down (R562, R680). -/
def linkLost (s : State) (p : Nat) : State :=
  if portExists s p then portReset (setLink s p { linkOf s p with up := false, width := 0, l0p := false }) p else s

/-- FUNCTION_LEVEL_RESET (R561): a function level reset, or CC.EN set to 0. -/
def execFunctionLevelReset (ctrl : Nat) (flr : Bool) (s : State) : Out :=
  .next (if ctrl < 2 then dropController s ctrl flr else instanceReset s (ctrlInst ctrl) flr)

/-- LINK_DOWN (R562, R680). -/
def execLinkDown (port : Nat) (s : State) : Out := .next (linkLost s port)

/-- LINK_RETRAIN (R559, R587): the widest width of the working lanes at the highest rate that it reached, at most RATE_CAP.
With no working lane WIDTH is 0 and the port's functions behave as when its link goes down. The link may run at reduced width then,
which L0P_EN permits (R557, R587); that this is known at a training is the model's choice (DESIGN CHOICE, log 225). -/
def execLinkRetrain (port lanes : Nat) (rate : LinkRate) (s : State) : Out :=
  .next (if !portExists s port then s
    else if lanes = 0 then linkLost s port
    else setLink s port { linkOf s port with
      l0p := rate.l0p && bitOf (effWord s (Reg.HIF_PORT_CFG + 8 * port)) 8, up := true, width := widthFor s lanes, rate := min rate.code (min 5 (eff s (Reg.HIF_PORT_CFG + 8 * port) 2 0)) })

end Sys2Proof.Machine
end

