-- ==== Sys2Proof/Machine/PowerLoss.lean ====
section
/-! DEFINITION. Power loss, heat and the way into a warm start (05_energy_and_heat.md, 20_start_and_reset.md): the
declaration of R208, the flush of R223, the entry sequence of R682, the sensors (R220–R222), and waking domains (R201). -/

namespace Sys2Proof.Machine

/-- Change the start's state. -/
def setBoot (s : State) (b : Boot) : State := { s with boot := b }

/-! ## What a reset does at once (R681, R632, R223 steps 2 and 3) -/

/-- The sideband drops, the LEAVING heartbeat is sent, and both host links go down (R681). -/
def dropOutside (s : State) : State :=
  let s := leaveFed (setBoot s { s.boot with sbReady := false, sbPresent := false, wdt := none })
  let down : State → Nat → State := fun s p => setLink s p { linkOf s p with up := false, width := 0, l0p := false }
  down (down s 0) 1

/-- A fence that the flush puts on a ticket: it ends with no completion (R223 step 3, R167). The STATUS of the siding
entries is a free value (log 98). -/
def flushFence (s : State) (tag : Nat) : State :=
  finishTicket (fenceTicket (drawn s) tag (freeFailure s) id) tag

/-- The signal box enters flush mode, and admitted tickets of lines that are not DIRTY are fenced (R223 steps 2 and 3). -/
def enterFlush (s : State) : State :=
  let s := cancelInjections { s with sbx := { s.sbx with flushMode := true } }
  (tagsWhere s (fun e => decide (0 < e.admitted) && !(lineOf s e.t.line).dirty)).foldl flushFence s

/-- At 1 ms, DIRTY portions whose data is not yet in a staging buffer are fenced (R223 step 3). -/
def fenceDirty (s : State) : State :=
  (tagsWhere s (fun e => decide (0 < e.admitted) && (lineOf s e.t.line).dirty)).foldl flushFence s

/-- Every switched domain among `keys` that satisfies `p` goes OFF (R200, R201). -/
def gateOff (s : State) (p : Nat → Bool) : State :=
  setPwr s { s.pwr with islands := Tab.mapVals s.pwr.islands (fun k i =>
    if p k && decide (k < 0xE8) then { i with dom := .off, point := 0, mhz := 0 } else i) }

/-- Step 4 of R223. -/
def gateStep4 (s : State) : State := gateOff s (step4Unit s)

/-! ## The flush itself (R223 steps 5 to 7) -/

/-- Staged slots that are in no page yet, oldest first. -/
def toFlush (s : State) : List FSlot :=
  let filling := s.fch.chans.flatMap (fun p =>
    ((p.2.sluicePage.map (·.slots)).getD [] ++ (p.2.densePage.map (·.slots)).getD []).filterMap (·.stg))
  s.ftl.staging.filterMap (fun p =>
    if p.2.isSealed || p.2.superseded || filling.contains p.1 then none
    else some { cls := p.2.cls, idx := p.2.idx, bytes := p.2.bytes, stg := some p.1, tag := p.2.tag })

/-- Step 5: the dirty data goes into the sluice, oldest first, with its journal records. -/
def flushStaging (s : State) : State :=
  flushPages (placeRun s false (toFlush s)).1 false []

/-- Step 6: open stripes write their partial parity (R258), the journal is closed (R302), and the GENs of units and key
slots are recorded (R31, R375); alias entries are kept as they stand (R131). -/
def flushClose (s : State) : State :=
  let s := (Tab.keys s.fch.stripes).foldl (fun s k => partialParity s (k / 4096) (k % 4096)) s
  let s := saveFlushNj (closeJournal (flushPages s false []))
  let s := { s with dev := { s.dev with units := Tab.mapVals s.dev.units (fun _ r => { r with recordedGen := r.gen }) } }
  { s with key := { s.key with slots := Tab.mapVals s.key.slots (fun _ k => { k with recordedGen := k.gen }) } }

/-- Step 7: the power-loss record with usable_mj at this moment, the mirror page being filled, and the mark (R696, R724). -/
def flushRecord (s : State) (mv : Nat) : State :=
  let s := flushMirror (record s 0x0002 sevFree 0 0xFF 0 (natLe 4 (usableAt s mv)))
  setBoot s { s.boot with mark := 2 }

/-- The DRAM channels in service enter self-refresh (R541, R544). -/
def selfRefresh (s : State) : State :=
  (dramLive s).foldl (fun s c => setDram s c { dramOf s c with state := .selfRefresh, window := false, drift := false }) s

/-- Steps 5 to 7. -/
def flushAll (s : State) (mv : Nat) : State := flushRecord (flushClose (flushStaging (fenceDirty s))) mv

/-- Step 8: every domain but those of DRAM channels and the power manager goes OFF; in a thermal shutdown every switched domain
(R222). -/
def gateAll (s : State) : State :=
  selfRefresh (gateOff s (fun k => s.pwr.thermHold || decide (k < 168) || decide (171 < k)))

/-! ## Declaring power loss (R208, R692, R694) -/

/-- Power loss is declared: the peat outputs switch, the peat state becomes HOLDUP from states 1 to 4, and a start in
progress is abandoned. Nothing where it stands declared already or the device is off. -/
def declareLoss (s : State) : State :=
  if s.boot.off || s.pwr.powerLoss then s
  else
    let p := s.pwr
    let live := !peatDown p.peat
    let starting := s.boot.begun
    let s := setPwr s { p with
      powerLoss := true, rbGate := false, chgEn := false, disEn := false, holdupEn := true,
      peat := if live then .holdup else p.peat, flushStep := 3 }
    let s := if starting then
        bump (setBoot s { s.boot with abandoned := true }) Reg.BOOT_WARM 31 16 1
      else s
    dropOutside (enterFlush s)

/-- VIN12_LOW (R208): VIN12_SNS below 10.2 V for 1 µs. -/
def execVin12Low (mv : Nat) (s : State) : Out :=
  let s := setPwr s { s.pwr with vinMv := mv }
  .next (if mv < 10200 then declareLoss (setBoot s { s.boot with vinOk := false }) else s)

/-- PWRDIS_ASSERT (R208). -/
def execPwrdisAssert (s : State) : Out := .next (declareLoss (setBoot s { s.boot with pwrdis := true }))

/-- FLUSH_DIRTY_FENCE_TIMEOUT (R223 steps 3 and 4): 1 ms after the declaration, or in an entry sequence. -/
def execFlushDirtyFenceTimeout (s : State) : Out :=
  if s.pwr.powerLoss ∧ s.pwr.flushStep = 3 then
    .next (gateStep4 (setPwr (fenceDirty s) { (fenceDirty s).pwr with flushStep := 4 }))
  else if s.boot.phase = .entry ∧ s.boot.entryStep = 2 then .next (gateStep4 (fenceDirty s))
  else .next s

/-- FLUSH_END (R223 steps 4 to 8): what step 5 has still to write is written, and step 8 is reached. An abandoned start
leaves no mark of a completed flush (R696). -/
def execFlushEnd (mv : Nat) (s : State) : Out :=
  if !s.pwr.powerLoss || decide (8 ≤ s.pwr.flushStep) || s.boot.off then .next s
  else
    let mark := s.boot.mark
    let s := gateAll (flushAll (gateStep4 s) mv)
    let s := if s.boot.abandoned then setBoot s { s.boot with mark := mark } else s
    .next (setPwr s { s.pwr with vMv := mv, flushStep := 8 })

/-! ## Brown-out and the thermal trip (R222, R766) -/

/-- The clocks of the system islands stop too, but for the power manager's (R222). -/
def stopClocks (s : State) : State :=
  setPwr s { s.pwr with islands := Tab.mapVals s.pwr.islands (fun k i =>
    if decide (0xE8 ≤ k) && k != 0xE9 then { i with mhz := 0 } else i) }

/-- The device is off: its outputs are low or Hi-Z, and nothing runs. -/
def turnOff (s : State) : State :=
  let s := setPwr s { s.pwr with
    rbGate := false, chgEn := false, disEn := false, holdupEn := false, flushStep := 0, powerLoss := false }
  let s := stopClocks (gateOff s (fun _ => true))
  let s := (List.range 4).foldl (fun s c => setDram s c { dramOf s c with state := .absent }) s
  setBoot s { s.boot with off := true, sbReady := false, sbPresent := false, wdt := none }

/-- BROWN_OUT (R766): VDD_AON below 0.74 V for 1 µs, or the bank below VFLOOR. A thermal trip's latch is released with
VDD_AON (R774). -/
def execBrownOut (s : State) : Out :=
  let s := setJct s { s.jct with left := true }
  let s := if s.boot.begun && !s.boot.off && !s.boot.abandoned then
      bump (setBoot s { s.boot with abandoned := true }) Reg.BOOT_WARM 31 16 1 else s
  .next (turnOff (setPwr s { s.pwr with thermTrip := false }))

/-! ## The sensors (R220–R222) -/

/-- t_model of readings and the fused offsets (R220). -/
def modelTemp (s : State) (readings : List Int) : Int :=
  let l := (List.range 16).map (fun k => readings.getD k 0 + (s.pwr.offsets.getD k 0 : Nat))
  l.foldl max (l.headD 0)

/-- The thermal stage after a sample (R221). -/
def stageAfter (s : State) (t : Int) : Nat :=
  let limit : Int := eff s Reg.PWR_THERM_CFG 7 0
  let meets : Nat → Bool := fun k =>
    decide (limit + 3 * k ≤ t) || (decide (k ≤ s.pwr.thermStage) && decide (limit + 3 * k - 2 < t))
  if meets 2 then 2 else if meets 1 then 1 else 0

/-- The thermal limit of the bulk fens: 75 % and 50 % of PLAN_MHZ in stages 1 and 2, rounded down
(DESIGN CHOICE, log 204), and never below 25 MHz (R112, R221). -/
def bulkLimits (s : State) (stage : Nat) : State :=
  (List.range 8).foldl (fun s k =>
    let f := 32 + k
    let plan := (islandAt s (32 + f)).planMhz
    let m := if stage = 0 then none else some (max 25 (plan * (if stage = 1 then 75 else 50) / 100))
    if (fenOf s f).policyMhz = m then s else setFen s f { fenOf s f with policyMhz := m }) s

/-- Flash channels whose t_model has drifted by at least DRIFT_C retrain (R243). -/
def flashDrift (s : State) : State :=
  (List.range 32).foldl (fun s k =>
    let c := chanOf s k
    let drift := eff s (Reg.FCH_CH_CFG + 0x40 * k) 20 16
    if c.state = .ready ∧ !c.due ∧ (drift : Int) ≤ (s.pwr.tModel - c.trainTemp).natAbs then
      setChan s k { c with due := true, drift := true }
    else s) s

/-- A sample's t_model and stage take effect: limits, health, drift, and the rates of stage 2 (R221, R243, R327, R328,
R533, R545). -/
def takeSample (s : State) (readings : List Int) : State :=
  let t := modelTemp s readings
  let old := s.pwr.thermStage
  let stage := stageAfter s t
  let s := setPwr s { sampled s.pwr readings with tModel := t, thermStage := stage }
  let s := setFtl s { s.ftl with maxTemp := some (max (s.ftl.maxTemp.getD t) t) }
  let s := setHealth s 1 (decide (1 ≤ stage) || readings.any (fun r => decide (r < -5)))
  let s := bulkLimits s stage
  let s := if decide (stage = 2) = decide (old = 2) then s else (List.range 4).foldl rateChange s
  flashDrift ((List.range 4).foldl dramDrift s)

/-- SENSOR_SAMPLE (R220): from 120 °C power loss is declared, where it is not already, and every switched domain is held OFF after
the flush; a reading
of 130 °C stops the device and asserts THERM_TRIP_N (R222). While the device is off only the readings are taken. -/
def execSensorSample (readings : List Int) (s : State) : Out :=
  if s.boot.off then .next (setPwr s { sampled s.pwr readings with tModel := modelTemp s readings })
  else if readings.any (fun r => decide (130 ≤ r)) then
    let s := setJct s { s.jct with left := true }
    let s := if s.boot.begun && !s.boot.abandoned then
        bump (setBoot s { s.boot with abandoned := true }) Reg.BOOT_WARM 31 16 1 else s
    .next (turnOff (setPwr s { sampled s.pwr readings with tModel := modelTemp s readings, thermTrip := true }))
  else
    let s := takeSample s readings
    if 120 ≤ s.pwr.tModel then
      let s := declareLoss (setPwr s { s.pwr with thermHold := true })
      .next (if s.pwr.flushStep = 8 then gateAll s else s)
    else .next s

/-! ## The entry sequence (R681, R682, R694) -/

/-- A warm start is triggered: the entry sequence begins with its cause, or a further trigger joins the one in progress
(R694). Only a device in READY has work to flush. -/
def beginEntry (s : State) (cause : Nat) : State :=
  if s.boot.off || s.pwr.powerLoss || decide (s.boot.phase ≠ .ready) then s
  else
    let s := setBoot s { s.boot with phase := .entry, entryStep := 2, entryCause := cause, entrySince := s.now }
    dropOutside (enterFlush s)

/-- The phase ROM of a warm start (`kind` 2) or a cold start (1) is reached. -/
def toRom (s : State) (kind cause : Nat) : State :=
  setBoot s { s.boot with
    phase := .rom, kind := kind, cause := cause, begun := true, entryStep := 0,
    prevAbandoned := s.boot.abandoned, abandoned := false }

/-- Steps 2 to 4 of R682: the flush on slot power, with the counts of R326 and R327, which only an unclean loss loses; the save of R288,
self-refresh. -/
def finishEntry (s : State) (save : Bool) : State :=
  let s := saveCounts (flushAll (gateStep4 s) s.pwr.vMv)
  let s := setFtl s { s.ftl with warmImage := if save then some s.ftl.map else none }
  let s := gateAll s
  toRom (setBoot s { s.boot with entryMs := (s.now - s.boot.entrySince + 999) / 1000 }) 2 s.boot.entryCause

/-- WARM (R697): BOOT_CTL acts only in READY. -/
def execWarm (s : State) : Out := .next (beginEntry s 0x11)

/-- WATCHDOG_EXPIRE (R698): WDT_MS has passed after READY without service. -/
def execWatchdogExpire (s : State) : Out :=
  if s.boot.wdt.isSome then .next (beginEntry s 0x12) else .next s

/-- ENTRY_CUTOFF (R682): steps 3 and 4 are cut off 2 s after step 2, and the warm start begins with no valid save. -/
def execEntryCutoff (s : State) : Out :=
  if s.boot.phase = .entry then .next (finishEntry s false) else .next s

/-! ## Input returning, and PERST_N (R222, R223, R680, R683) -/

/-- INPUT_RETURN (R223): after step 8, with VIN12 in range for 100 ms, a warm start begins with the peat state in RAMP; after
an abandoned start it is a cold start (R692). A thermal shutdown is held until t_model is below 100 °C (R222). -/
def execInputReturn (s : State) : Out :=
  if !s.pwr.powerLoss || decide (s.pwr.flushStep ≠ 8) || s.boot.off || (s.pwr.thermHold && decide (100 ≤ s.pwr.tModel)) then .next s
  else
    let s := setFtl s { s.ftl with warmImage := none }
    let s := setBoot s { s.boot with vinOk := true, pwrdis := false, entryMs := 0 }
    let p := s.pwr
    let s := setPwr s { p with
      thermHold := false, powerLoss := false, flushStep := 0, holdupEn := false, rbGate := true, chgEn := false }
    let s := if p.peat = .holdup then enterRamp s else s
    .next (toRom s (if s.boot.abandoned then 1 else 2) (if s.boot.abandoned then 0x03 else 0x10))

/-- PERST_ASSERT (R222, R680, R683): during a thermal hold below 100 °C, on slot power, a warm start begins, at or above 100 °C the
assertion is ignored; otherwise it resets its port after READY, and only the port's link before. In x16 mode PERST1_N is
ignored. -/
def execPerstAssert (port : Nat) (s : State) : Out :=
  let s := setBoot s { s.boot with perst := if port = 0 then (true, s.boot.perst.2) else (s.boot.perst.1, true) }
  if s.boot.off then .next s
  else if s.pwr.thermHold then
    if s.pwr.tModel < 100 ∧ s.pwr.flushStep = 8 ∧ s.boot.vinOk then
      let p := s.pwr
      let s := setFtl s { s.ftl with warmImage := none }
      let s := setPwr s { p with
        thermHold := false, powerLoss := false, flushStep := 0, holdupEn := false, rbGate := true, chgEn := false }
      let s := if p.peat = .holdup then enterRamp s else s
      .next (toRom (setBoot s { s.boot with entryMs := 0 }) 2 0x13)
    else .next s
  else if s.pwr.powerLoss ∨ !portExists s port then .next s
  else if s.boot.phase = .ready then .next (linkLost s port)
  else .next (setLink s port { linkOf s port with up := false, width := 0, l0p := false })

/-- PERST_RELEASE (R683): the port may train its link; LINK_RETRAIN says what it finds. -/
def execPerstRelease (port : Nat) (s : State) : Out :=
  .next (setBoot s { s.boot with perst := if port = 0 then (false, s.boot.perst.2) else (s.boot.perst.1, false) })

/-! ## Waking a domain (R201, R243) -/

/-- DOMAIN_WAKE (R201): a request that arrives at a unit wakes its domain's group. A flash channel that returns from OFF and
whose saved settings fail their verify pass, one of `failed`, falls due for retraining (R243). -/
def execDomainWake (unit : Nat) (failed : List Nat) (s : State) : Out :=
  let k := islandOf (hwUnit s unit)
  if wakeBarred s k then .next s
  else
    let back := groupIslands s (islandAt s k).group
    let fell := back.filter (fun j => failed.contains j && decide (j < 32) && decide ((islandAt s j).dom = .off))
    let woken := decide ((islandAt s k).dom ≠ .on)
    let s := wakeIsland s k
    .next (if !woken then s else fell.foldl (fun s j => setChan s j { chanOf s j with due := true }) s)

end Sys2Proof.Machine
end

