-- ==== Sys2Proof/Machine/Groups.lean ====
section
/-! DEFINITION. Commit groups: the ranges of their fields, the groups whose safe point is a start (R100), and the settings
record (R713). -/

namespace Sys2Proof.Machine

/-- The range of a field of a group: register, bits [hi:lo], lowest and highest value. -/
structure Range where
  addr : Nat
  hi : Nat
  lo : Nat
  least : Nat
  most : Nat
deriving DecidableEq, Repr

/-- The element of an array of groups whose COMMIT registers start at `base`, `stride` apart, `n` of them. -/
def groupIndex (c base stride n : Nat) : Option Nat :=
  if base ≤ c ∧ (c - base) % stride = 0 ∧ (c - base) / stride < n then some ((c - base) / stride) else none

/-- Ranges of the groups of one element. -/
def rangesOne : Nat → List Range
  | 0x300008 => [⟨Reg.SBX_EPOCH_CTL, 7, 0, 1, 255⟩, ⟨Reg.SBX_SMALL_LIMIT, 31, 0, 1, 0xFFFFFFFF⟩]
  | 0x400018 => [⟨Reg.PWR_PEAT_CFG, 16, 10, 50, 98⟩, ⟨Reg.PWR_PEAT_CFG, 9, 0, 40, 200⟩,
      ⟨Reg.PWR_CHARGER_CFG, 21, 12, 100, 1000⟩, ⟨Reg.PWR_CHARGER_CFG, 11, 0, 100, 3000⟩]
  | 0x40002C => [⟨Reg.PWR_LEDGER_CFG, 22, 16, 10, 58⟩, ⟨Reg.PWR_LEDGER_CFG, 15, 0, 100, 10000⟩,
      ⟨Reg.PWR_FLUSH_NJ, 15, 0, 1000, 60000⟩, ⟨Reg.PWR_WB_CAP, 31, 0, 0, 0x4000000⟩]
  | 0x40003C => [⟨Reg.PWR_THERM_CFG, 23, 8, 100, 20000⟩, ⟨Reg.PWR_THERM_CFG, 7, 0, 85, 110⟩]
  | 0x400044 => [⟨Reg.PWR_GATE_POLICY, 11, 8, 0, 3⟩, ⟨Reg.PWR_GATE_POLICY, 7, 4, 0, 3⟩, ⟨Reg.PWR_GATE_POLICY, 3, 0, 0, 3⟩]
  | 0x600014 => [⟨Reg.FTL_SLUICE_CFG, 22, 16, 20, 95⟩, ⟨Reg.FTL_SLUICE_CFG, 14, 8, 5, 90⟩, ⟨Reg.FTL_SLUICE_CFG, 2, 0, 1, 6⟩]
  | 0x60001C => [⟨Reg.FTL_CKPT_CFG, 31, 16, 10, 3600⟩, ⟨Reg.FTL_CKPT_CFG, 12, 0, 1024, 4096⟩]
  | 0x600024 => [⟨Reg.FTL_CACHE_CFG, 31, 24, 8, 255⟩, ⟨Reg.FTL_CACHE_CFG, 14, 8, 0, 16⟩, ⟨Reg.FTL_CACHE_CFG, 6, 0, 0, 96⟩]
  | 0x600108 => [⟨Reg.FTL_WEAR_CFG, 31, 16, 500, 60000⟩, ⟨Reg.FTL_WEAR_CFG, 15, 8, 1, 100⟩, ⟨Reg.FTL_WEAR_CFG, 6, 0, 1, 50⟩,
      ⟨Reg.FTL_WEAR_LEVEL, 23, 16, 1, 60⟩, ⟨Reg.FTL_WEAR_LEVEL, 15, 0, 50, 5000⟩]
  | 0x700014 => [⟨Reg.CMP_CFG, 3, 0, 1, 15⟩]
  | 0x800014 => [⟨Reg.CIP_CFG, 3, 0, 1, 15⟩]
  | 0xB00014 => [⟨Reg.ASU_CFG, 26, 16, 250, 2000⟩, ⟨Reg.ASU_CFG, 3, 0, 2, 15⟩]
  | 0x1000024 => [⟨Reg.FED_LINK_CFG, 27, 24, 1, 15⟩, ⟨Reg.FED_LINK_CFG, 19, 16, 1, 15⟩, ⟨Reg.FED_LINK_CFG, 15, 0, 20, 2000⟩]
  | 0x120000C => [⟨Reg.BOOT_WDT_CFG, 15, 0, 100, 60000⟩]
  | 0x1500014 => [⟨Reg.TST_CFG, 31, 16, 1, 65535⟩, ⟨Reg.TST_CFG, 7, 0, 0, 168⟩]
  | _ => []

/-- The ranges of the group whose COMMIT register is at `c` (R135, R184–R186, R226–R230, R266, R310–R314, R338, R339, R364,
R410, R463, R497, R554, R587, R640, R698, R746). -/
def rangesOf (c : Nat) : List Range :=
  match groupIndex c 0x501008 0x40 32, groupIndex c 0xD01008 0x40 4, groupIndex c 0xC0100C 0x40 50,
    groupIndex c 0xE00024 8 2 with
  | some _, _, _, _ => [⟨c - 4, 20, 16, 5, 20⟩, ⟨c - 4, 11, 8, 1, 8⟩, ⟨c - 4, 2, 0, 0, 6⟩]
  | _, some _, _, _ => [⟨c - 4, 20, 16, 5, 20⟩, ⟨c - 4, 10, 8, 0, 5⟩]
  | _, _, some _, _ => [⟨c - 4, 15, 0, 100, 20000⟩]
  | _, _, _, some _ => [⟨c - 4, 2, 0, 0, 5⟩]
  | _, _, _, _ => rangesOne c

/-- Every field of the set stands in its range. -/
def rangesOk (c : Nat) (set : Tab Nat) : Bool :=
  (rangesOf c).all (fun r =>
    let v := fld (inSet set r.addr) r.hi r.lo
    decide (r.least ≤ v) && decide (v ≤ r.most))

/-! ## Groups whose safe point is a start (R100, R315, R552, R587, R588, R639) -/

/-- Usable DRAM installed, in MiB (R535). -/
def installedMib (s : State) : Nat :=
  ((List.range 4).map (fun c => dramUsable ((dramOf s c).sizeGib * 2 ^ 30))).sum / 2 ^ 20

/-- The fixed areas of steps 1 to 5 of R543, in MiB. -/
def fixedMib : Nat := 512 + 64 + 80 + 256 + 512

/-- Five bank selectors of a register: no value from 19 to 30, and no row bit twice (R552). -/
def bankSelOk (w : Nat) : Bool :=
  let l := (List.range 5).map (fun i => fld w (5 * i + 4) (5 * i))
  l.all (fun v => decide (v ≤ 18) || v == 31) &&
    (List.range 5).all (fun i => (List.range i).all (fun j => decide (l.getD i 31 ≠ l.getD j 31) || l.getD i 31 == 31))

/-- An SMBus address that R588 allows. -/
def smbAddrOk (a : Nat) : Bool := decide (8 ≤ a) && a != 0x6A && decide (a < 0x78)

/-- Why a set whose safe point is a start is refused. -/
def startRefused (s : State) (c : Nat) (set : Tab Nat) : Bool :=
  if !rangesOk c set then true
  else if c = 0x600024 then
    let w := inSet set Reg.FTL_CACHE_CFG
    decide (installedMib s < 2 * 1024 * (fld w 6 0 + fld w 14 8) + fixedMib)
  else if c = 0xD00020 then (List.range 4).any (fun j => !bankSelOk (inSet set (Reg.DRC_BANK_SEL + 4 * j)))
  else if c = 0xE0003C then !smbAddrOk (fld (inSet set Reg.HIF_MI) 6 0)
  else if c = 0x100001C then
    decide (fld (inSet set Reg.FED_ETHERTYPE) 15 0 < 0x600) ||
      (bitOf (inSet set Reg.FED_NODE_CFG) 31 && inSet set Reg.FED_ID == 0)
  else false

/-- The groups whose safe point is of kind START, with the unit of the block that owns each, 0xFF where it has none (R721). -/
def startGroups : List (Nat × Nat) := [
  (0x600024, 189), (0xD00020, 0xFF), (0xE00024, 172), (0xE0002C, 173), (0xE0003C, 0xFF), (0x100001C, 190)]

/-- Is the safe point of the group at `c` a start? -/
def isStartGroup (c : Nat) : Bool := startGroups.any (fun p => p.1 == c)

/-! ## The settings record (R713) -/

/-- The groups whose effective values the settings record holds. -/
def isSetting (c : Nat) : Bool :=
  [0x300008, 0x400018, 0x40002C, 0x400034, 0x40003C, 0x400044, 0x600014, 0x60001C, 0x600024, 0x600108, 0x700014, 0x800014,
    0xB00014, 0x120000C, 0xE00034, 0xE0003C, 0xE00024, 0xE0002C, 0x1000024, 0x1300040].contains c ||
  (groupIndex c 0x501008 0x40 32).isSome || (groupIndex c 0xD01008 0x40 4).isSome || (groupIndex c 0xC0100C 0x40 50).isSome

/-- Firmware rewrites the record after one of its groups has taken effect: SFORMAT and the effective values. -/
def saveSettings (s : State) : State :=
  { s with boot := { s.boot with
    settings := some (s.upd.sformat, Tab.keep s.regs.eff (fun a _ => isSetting (commitOf a))) } }

end Sys2Proof.Machine
end

