-- ==== Sys2Proof/Machine/StartBase.lean ====
section
/-! DEFINITION. What a start finds again (20_start_and_reset.md): the state that the fuses, the NOR flash and the flash system
area keep; everything else takes its reset value (R17, R686). -/

namespace Sys2Proof.Machine

/-! ## Units and registers (R17, R31) -/

/-- A unit as a start begins: GEN resumes at its recorded value plus 256, and that value is recorded at once (R31). -/
def unitAgain (o : State) (n : Nat) : UnitRec :=
  let g := ((unitOf o n).recordedGen + 256) % 65536
  { initialUnit n with gen := g, recordedGen := g }

/-- A register of `n` at `base`, 4 apart. -/
def among (a base n : Nat) : Bool := decide (base ≤ a) && decide (a < base + 4 * n) && (a - base) % 4 == 0

/-- RWS registers whose reset value is "Restored": federation, tags, receive lines, delivery areas, shares and ticket limits
(R600, R639, R645, R646, R732; instance 0's share among them, log 196), and enabled alias entries (R131). -/
def isRestored (a v : Nat) : Bool :=
  a == Reg.FED_NODE_CFG || a == Reg.FED_ID || among a Reg.FED_INST_TAG 512 || among a Reg.FED_RX_LINE 218 ||
    among a Reg.EVR_INST_AREA 512 || among a Reg.SBX_SHARE 512 || among a Reg.SBX_TICKET_LIMIT 512 ||
    ((List.range 40).any (fun f => a == fenReg Reg.FAB_FEN_ALIAS f) && bitOf v 31)

/-- The valid records of the NOR ring: its newest `torn` were torn (R724). -/
def norValid (o : State) (torn : Nat) : List EventRec := o.evr.nor.take (o.evr.nor.length - torn)

/-- The highest POWER_CYCLES in any valid record of the NOR ring (R722). -/
def topCycles (o : State) (torn : Nat) : Nat := ((norValid o torn).map (·.cycles)).foldl max 0

/-- The registers as a start begins. BOOT_CYCLES rises at a cold start (R722); WARM counts warm starts since the last cold
start, ABANDONED is kept (R699); TORN counts the torn records found (R731). -/
def regsAgain (o : State) (torn : Nat) (warm : Bool) : Regs :=
  let eff := Tab.keep o.regs.eff isRestored
  let bw := live o Reg.BOOT_WARM 31 16 * 65536 + (if warm then satAdd 16 (live o Reg.BOOT_WARM 15 0) 1 else 0)
  let live0 : Tab Nat := [(Reg.FTL_SPARE, live o Reg.FTL_SPARE 31 16 * 65536)]
  let live2 := Tab.set live0 Reg.BOOT_CYCLES (if warm then powerCycles o else topCycles o torn + 1)
  { eff := eff, staged := eff, live := Tab.set (Tab.set live2 Reg.BOOT_WARM bw) Reg.EVR_COUNTS (min 255 (min torn o.evr.nor.length)) }

/-! ## The event recorder (R722, R725, R727) -/

/-- Both copies of the ring after the start has completed each from the other; the newest `torn` records of NOR were torn. -/
def ringAgain (o : State) (torn : Nat) : List EventRec :=
  let all := Tab.vals ((o.evr.mirror ++ norValid o torn).foldl (fun t r => Tab.set t r.seq r) [])
  all.drop (all.length - 229376)

/-- The recorder as a start begins. A pending clear goes on at its step (R727). -/
def evrAgain (o : State) (torn : Nat) : Evr :=
  let ring := ringAgain o torn
  let top := ring.foldl (fun m r => max m r.opTime) o.evr.opSaved
  let next := ring.foldl (fun m r => max m (r.seq + 1)) o.evr.nextSeq
  let lastWall := (ring.filter (fun r => r.flags % 2 == 1)).foldl (fun _ r => some r.wallMs) o.evr.lastWall
  {
    nor := ring, mirror := ring, nextSeq := next, opBase := top + 1, opSaved := o.evr.opSaved, opSince := o.now,
    lastWall := lastWall, secondSince := o.now,
    clear := o.evr.clear.bind (fun c => if c.step = 1 then none else some { c with step := if c.step = 4 then 4 else 2 }) }

/-! ## Keys, instances and flash (R375, R383, R600, R282) -/

/-- Every slot: its GEN resumes at its recorded value plus 256, which is recorded at once (DESIGN CHOICE, log 211); what the table holds of
it is loaded in RESTORE (R375, R383).
-/
def slotsAgain (o : State) : Tab KeySlot :=
  (List.range 4096).map (fun n =>
    let g := (slotOf o n).recordedGen + 256
    (n, { gen := g, recordedGen := g }))

/-- Instances that exist: bindings and sizes; one whose DESTROY has taken effect exists no longer (R592, R600). -/
def instsAgain (o : State) : Tab Inst :=
  (o.ten.insts.filter (fun p => p.1 != 0 && (decide (p.2.state = .ready) || decide (p.2.state = .resetting)))).map (fun p =>
    (p.1, { state := .ready, port := p.2.port, vf := p.2.vf, lmem64 := p.2.lmem64, chans := p.2.chans }))

/-- A flash channel: what the flash system area keeps of it (R236, R250, R269). -/
def chanAgain (c : FChan) : FChan :=
  { code := c.code, trainTemp := c.trainTemp, feature8A := 0, pageBytes := c.pageBytes, saved := c.saved, dieOffline := c.dieOffline }

/-- Journal pages that a start can read: those that passed on at least one die, up to the first that neither yields (R302,
R307). -/
def readJournal (o : State) : List (Nat × JRec) :=
  o.ftl.journal ++
    (o.ftl.jpages.takeWhile (fun p => p.first || p.second)).flatMap (fun p => p.recs.map (fun r =>
      (p.jseq, { r with tag := none, stg := none })))

/-- The map engine's records in flash. The counts behind the SMART log live through every start (R329; log 218). -/
def ftlAgain (o : State) : Ftl :=
  let f := o.ftl
  {
    nextSeq := f.nextSeq, nextJseq := f.nextJseq, groups := f.groups, nextPage := [], members := f.members, pools := f.pools,
    retired := f.retired, retiredIn := f.retiredIn, offlineSets := f.offlineSets, spareAtFormat := f.spareAtFormat, sluicePages := f.sluicePages, densePages := f.densePages,
    journal := readJournal o, closed := f.closed, anchor := f.anchor, rootS0 := f.rootS0, unverified := f.unverified,
    lostUnits := f.lostUnits, reads := f.reads, writes := f.writes, readCmds := f.readCmds, writeCmds := f.writeCmds,
    mediaErrors := f.mediaErrors, hotMinutes := f.hotMinutes, wearSaved := f.wearSaved,
    presentSaved := f.presentSaved,
    ns := Tab.mapVals f.ns (fun _ n => { n with zones := n.zonesSaved }),
    secures := f.secures.map (fun x => { x with step := 2, tag := none, groups := [] }),
    totals := f.totals, hist := f.histSaved, histSaved := f.histSaved, ckptSince := o.now }

/-- What the power manager keeps: fuses (R205), the flush measurements (R213) and what the sensors and inputs show; across a
warm start the peat state, the charger and c_meas too (R206, R209). -/
def pwrAgain (o : State) (warm : Bool) : Pwr :=
  let p := o.pwr
  let f := o.tru.peatFuses
  {
    ceilQj := f.1, vmaxDv := f.2.1, cmaxMf := f.2.2, offsets := p.offsets, flushNj := p.flushNjSaved, flushNjSaved := p.flushNjSaved, temps := p.temps,
    tModel := p.tModel, vMv := p.vMv, vinMv := p.vinMv, iinMa := p.iinMa, rbGate := true, rampMs := p.rampMs, rampSince := p.rampSince, disEn := warm && p.disEn,
    measAt := if warm then p.measAt else none,
    peat := if warm then p.peat else .unfused, cMeas := if warm then p.cMeas else 0, chgEn := warm && p.chgEn }

/-- The state in which phase ROM begins. -/
def again (o : State) (env : StartEnv) (warm : Bool) : State := {
  pending := o.pending, now := o.now, freeCount := o.freeCount, host := o.host,
  dev := { serial := o.dev.serial, units := (List.range 218).map (fun n => (n, unitAgain o n)) },
  regs := regsAgain o env.torn warm,
  evr := evrAgain o env.torn,
  cfg := { active := o.cfg.active, candidate := o.cfg.candidate, floor := o.cfg.floor },
  pwr := pwrAgain o warm,
  key := {
    slots := slotsAgain o, table := o.key.table, latch := (slotsAgain o).map (fun p => (p.1, (p.2.gen % 2 ^ 32, 0))) },
  ten := { insts := instsAgain o },
  boot := { o.boot with
    keptDram := 0, keptFlash := 0, mapKept := false, phaseMs := env.phaseMs, halt := 0, wdt := none,
    sbReady := false, sbPresent := false, readyMs := 0, ledUntil := 0, smbAlert := false,
    entryMs := if warm then o.boot.entryMs else 0 },
  upd := { slotA := o.upd.slotA, slotB := o.upd.slotB, ptrs := o.upd.ptrs, fellBack := o.upd.fellBack },
  tst := { selfLog := o.tst.selfLog },
  tru := {
    lifecycle := o.tru.lifecycle, revoked := o.tru.revoked, peatFuses := o.tru.peatFuses,
    registries := o.tru.registries, instEpoch := o.tru.instEpoch },
  fch := {
    chans := Tab.mapVals o.fch.chans (fun _ c => chanAgain c), pages := o.fch.pages, losses := o.fch.losses },
  ftl := ftlAgain o,
  drc := { chans := Tab.mapVals o.drc.chans (fun _ c => { trainTemp := c.trainTemp }) },
  hif := {
    x8x8 := if warm then o.hif.x8x8 else env.x8x8,
    ctrls := Tab.mapVals o.hif.ctrls (fun _ c => { queues := c.queues, online := c.online }) },
  jct := fedStart o.jct }

end Sys2Proof.Machine
end

