-- ==== Sys2Proof/Machine/Tenancy.lean ====
section
/-! DEFINITION. Set-up requests of the tenancy block (17_tenant_instances.md, R595–R597). A request whose units drain or scrub
advances at its own command, at the commands that end the drain or the scrub's wait, or at a tick of the clock (log 47). -/

namespace Sys2Proof.Machine

/-- The request in progress completes: TEN_RESULT. -/
def tenDone (s : State) (r : TenReq) (status : Nat) : State :=
  let s := setTen s { s.ten with reqs := s.ten.reqs.drop 1 }
  setLive (setLive (setLive s Reg.TEN_RESULT 8 8 1) Reg.TEN_RESULT 7 0 status) Reg.TEN_RESULT_COOKIE 31 0 r.cookie

/-- The request in progress goes to another stage. -/
def tenStage (s : State) (n : Nat) : State :=
  match s.ten.reqs with
  | r :: t => setTen s { s.ten with reqs := { r with stage := n } :: t }
  | [] => s

/-- A stored candidate stream does not mark the unit TENANT_POOL or SHARED (R72). -/
def candidateBars (s : State) (u : Nat) : Bool :=
  match s.cfg.candidate with
  | none => false
  | some c =>
    let role := leAt (payloadOf c.sections 4) (8 * u) 1
    role != 4 && role != 1

/-- MiB of local memory that CREATE may still carve (R543 step 7, R599, R315). -/
def lmemLeft (s : State) : Nat :=
  let total := ((dramLive s).map (fun c => live s (Reg.DRC_CH_USABLE + 0x40 * c) 31 0)).sum
  let rest := total - 1424
  let tier := 2 * 1024 * (s.ftl.mapGib + s.ftl.stageGib)
  let used := (s.ten.insts.filter (fun p => p.1 != 0 && decide (p.2.state ≠ .free))).map (fun p => 64 * p.2.lmem64)
  rest - min tier rest - used.sum

/-- Tickets that have been admitted to a line through the unit and have not ended. -/
def usersOf (s : State) (u : Nat) : List Nat :=
  tagsWhere s (fun e => decide (0 < e.admitted) && (Tab.get? e.captured u).isSome)

/-- ROLE and OWNER of a unit change at its safe point, and STATE with them where it leaves ACTIVE; the unit is scrubbed or
cleared (R597, R460, R123, R488). -/
def giveUnit (s : State) (u role owner : Nat) : State :=
  let idle := decide (kindOf u = 0x02 ∨ kindOf u = 0x03) && decide ((unitOf s u).state = .active)
  let s := changeUnit s u { role := some role, owner := some owner, state := if idle then some .idle else none }
  if 32 ≤ u ∧ u < 72 then fenScrub s (u - 32)
  else if 88 ≤ u ∧ u < 120 then coreScrub s (coreIndex s u)
  else if 152 ≤ u ∧ u < 168 then clearGroup s u
  else s

/-- The unit may be given now: the window of R31 is open, and a fen is not in the middle of a load (R82) or of a hold (R125), which
end first. -/
def givable (s : State) (u : Nat) : Bool :=
  windowOpen s u && (if 32 ≤ u ∧ u < 72 then
    (match (fenOf s (u - 32)).state with
      | .draining | .loading | .fencing => false
      | _ => true)
    else true)

/-- The unit's scrub has ended, or it needs none. A fen in TEST scrubs once its test has passed (R122). -/
def unitClean (s : State) (u : Nat) : Bool :=
  if 32 ≤ u ∧ u < 72 then decide ((fenOf s (u - 32)).state = .empty ∨ (fenOf s (u - 32)).state = .offline)
  else if 88 ≤ u ∧ u < 120 then decide ((coreOf s (coreIndex s u)).state ≠ .scrubbing)
  else true

/-- Windows of a granted core: 0 LOCAL with R, W and X, 1 the owner's LMEM with R and W, 2 and 3 as the request names them
(R475, R596). -/
def grantWindows (s : State) (u i : Nat) (wins : List Nat) : State :=
  let a := Reg.GLY_CORE_WIN_BASE + 0x40 * (u - 72)
  let put : State → Nat → Nat → State := fun s k v => setEff s (a + 4 * k) 31 0 v
  let s := put (put s 0 0xF0000000) 1 127
  let s := put (put s 2 (0xB0000000 + 0x1000000)) 3 (0x1000000 + (instOf s i).lmem64 * 16384 - 1)
  (List.range 4).foldl (fun s k => put s (4 + k) (wins.getD k 0)) s

/-- What a request does to its unit once nothing is left inside and the unit may be given (R131, R596, R597). -/
def tenGive (s : State) (r : TenReq) : State :=
  let s := setTen s { s.ten with withdrawing := s.ten.withdrawing.filter (fun p => p.1 != r.unit) }
  match r.op with
  | 3 => giveUnit (dropAlias s r.unit) r.unit 5 r.inst
  | 4 => giveUnit (dropAlias s r.unit) r.unit 4 0
  | 5 => grantWindows (giveUnit s r.unit 6 r.inst) r.unit r.inst r.wins
  | 6 => giveUnit s r.unit 4 0
  | 7 => giveUnit s r.unit 7 r.inst
  | 8 => giveUnit s r.unit 1 0
  | _ => s

/-- Each unit of an instance that is being destroyed is given back once nothing is left inside and it may be given (R597). -/
def destroyGive (s : State) (i : Nat) : State :=
  (s.ten.withdrawing.filter (fun p => p.2 == i)).foldl (fun s p =>
    if (unitOf s p.1).owner = i ∧ i ≠ 0 ∧ givable s p.1 ∧ (insideOf s p.1).isEmpty then
      giveUnit (dropAlias s p.1) p.1 (if (unitOf s p.1).role = 7 then 1 else 4) 0
    else s) s

/-- The registers of an instance's page return to their reset values (R17, R601). -/
def dropPage (s : State) (i : Nat) : State :=
  let out {α : Type} (t : Tab α) : Tab α := Tab.keep t (fun a _ => a / 0x10000 != 0x1000 + i)
  let r := s.regs
  { s with regs := { r with
      live := out r.live, staged := out r.staged, eff := out r.eff, groups := out r.groups, loLatch := out r.loLatch } }

/-- DESTROY's last acts (R597): local memory, siding entries, result area, migration log, delivery area, share and limit,
key registry (R663); the VF is unbound. -/
def freeInstance (s : State) (i : Nat) : State :=
  let s := { s with
    lmem := Tab.erase s.lmem i,
    drc := { s.drc with placed := Tab.keep s.drc.placed (fun k _ => k / 2 ^ 24 != i),
                        marks := Tab.keep s.drc.marks (fun k _ => k / 2 ^ 35 != i) },
    sbx := { s.sbx with siding := s.sbx.siding.filter (fun e => e.inst != i), credit := Tab.erase s.sbx.credit i },
    evr := { s.evr with written := Tab.erase s.evr.written i },
    tru := { s.tru with registries := Tab.erase s.tru.registries i } }
  let s := setEff s (Reg.DGT_RESULT + 4 * i) 31 31 0
  let s := setEff s (Reg.EVR_INST_AREA + 4 * i) 31 31 0
  let s := setEff s (Reg.TEN_LOG_CFG + 0x40 * (i - 1)) 31 31 0
  let s := setEff (setEff s (Reg.SBX_SHARE + 4 * i) 16 0 0) (Reg.SBX_TICKET_LIMIT + 4 * i) 16 0 0
  setInst (logStop (dropPage s i) i) i { resets := 0 }

/-- Slots that an instance still holds. -/
def slotsOf (s : State) (i : Nat) : List Nat :=
  Tab.keys (Tab.keep s.key.slots (fun _ k => k.owner == i && decide (k.state ≠ .free)))

/-- Everything that a DESTROY waits for is done: its units are clean and its key slots withdrawn. -/
def destroyReady (s : State) (i : Nat) : Bool :=
  (slotsOf s i).isEmpty && (s.ten.withdrawing.filter (fun p => p.2 == i)).all (fun p =>
    (unitOf s p.1).owner != i && unitClean s p.1)

/-- The request in progress goes on if it can: a drain that is empty is followed by the change at the unit's safe point, a scrub
that has ended by the completion. -/
def tenSettle (s : State) : State :=
  match s.ten.reqs with
  | [] => s
  | r :: _ =>
    let s := if r.stage = 2 ∧ r.op = 2 then destroyGive s r.inst else s
    let s := if r.stage = 1 ∧ givable s r.unit ∧ (if r.op = 7 then usersOf s r.unit else insideOf s r.unit).isEmpty then
        tenStage (tenGive s r) 2
      else s
    match s.ten.reqs with
    | r :: _ =>
      if r.stage ≠ 2 then s
      else if r.op = 2 then
        (if destroyReady s r.inst then
          let s := setTen s { s.ten with withdrawing := s.ten.withdrawing.filter (fun p => p.2 != r.inst) }
          tenDone (freeInstance s r.inst) r 0
        else s)
      else if unitClean s r.unit then tenDone s r 0
      else s
    | [] => s

/-- A command of operation `op` works on the request in progress, if it is one: its checks and start while it waits, its
progress afterwards. Any such request disturbs a locked TDI (R671). -/
def tenRun (s : State) (op : Nat) (f : State → TenReq → State) : Out :=
  match s.ten.reqs with
  | [] => .next s
  | r :: _ =>
    if r.op ≠ op then .next s
    else if r.stage ≠ 0 then .next (tenSettle s)
    else if r.inst ≠ 0 ∧ (instOf s r.inst).state = .resetting ∧ op ≠ 2 then .next s
    else .next (tenSettle (f (tdiDisturb s r.inst) r))

/-- A request of an instance that does not exist, or is being destroyed, gives FORMAT. -/
def instLives (s : State) (i : Nat) : Bool := decide ((instOf s i).state = .ready)

/-- CREATE (R592, R596, R599). -/
def execCreate (vfEnabled : Bool) (s : State) : Out :=
  tenRun s 1 (fun s r =>
    let bound := s.ten.insts.any (fun p => p.1 != 0 && decide (p.2.state ≠ .free) && p.2.port == r.port && p.2.vf == r.vf)
    if (instOf s r.inst).state ≠ .free ∨ r.inst = 0 ∨ !vfEnabled ∨ bound ∨ (r.port = 1 ∧ !s.hif.x8x8) ∨ r.lmem64 = 0 ∨
        1024 < r.lmem64 then tenDone s r 0x10
    else if lmemLeft s < 64 * r.lmem64 then tenDone s r 0x05
    else
      let s := setInst s r.inst { state := .ready, port := r.port, vf := r.vf, lmem64 := r.lmem64, chans := dramLive s }
      let epochs := Tab.upd s.tru.instEpoch r.inst 0 (fun n => n + 1)
      let s := { s with tru := { s.tru with instEpoch := epochs } }
      tenDone (setCtrl s (r.inst + 1) {}) r 0)

/-- DESTROY (R597): the reset of R604, then every grant and dedication is withdrawn and every key slot. -/
def execDestroy (s : State) : Out :=
  tenRun s 2 (fun s r =>
    let i := r.inst
    let attached := s.ftl.ns.any (fun p => p.2.attached.contains (i + 1))
    if i = 0 ∨ attached ∨ !(decide ((instOf s i).state = .ready) || decide ((instOf s i).state = .resetting)) then
      tenDone s r 0x10
    else
      let s := resetInstance s i false
      let s := setInst s i { instOf s i with state := .teardown }
      let mine := (List.range 218).filter (fun u => (unitOf s u).owner == i)
      let others := s.ten.withdrawing.filter (fun p => p.2 != i)
      let s := setTen s { s.ten with withdrawing := others ++ mine.map (fun u => (u, i)) }
      let s := (slotsOf s i).foldl (fun s k => keyAsk s { inst := 0, op := 4, slot := k, via := some .device }) s
      tenStage s 2)

/-- GRANT_FEN (R596). -/
def execGrantFen (s : State) : Out :=
  tenRun s 3 (fun s r =>
    let u := r.unit
    if !instLives s r.inst ∨ u < 32 ∨ 72 ≤ u ∨ (unitOf s u).role ≠ 4 then tenDone s r 0x10
    else if candidateBars s u ∨ isAliased s (u - 32) then tenDone s r 0x11
    else tenStage s 1)

/-- The start of a withdrawal: nothing more is admitted to the unit (R597). -/
def beginDrain (s : State) (r : TenReq) : State :=
  tenStage (setTen s { s.ten with withdrawing := s.ten.withdrawing ++ [(r.unit, r.inst)] }) 1

/-- WITHDRAW_FEN (R596, R597). -/
def execWithdrawFen (s : State) : Out :=
  tenRun s 4 (fun s r =>
    let u := r.unit
    if !instLives s r.inst ∨ u < 32 ∨ 72 ≤ u then tenDone s r 0x10
    else if (unitOf s u).role ≠ 5 ∨ (unitOf s u).owner ≠ r.inst then tenDone s r 0x11
    else beginDrain s r)

/-- GRANT_CORE (R596). -/
def execGrantCore (s : State) : Out :=
  tenRun s 5 (fun s r =>
    let u := r.unit
    if !instLives s r.inst ∨ u < 88 ∨ 120 ≤ u ∨ (unitOf s u).role ≠ 4 then tenDone s r 0x10
    else if candidateBars s u then tenDone s r 0x11
    else tenStage s 1)

/-- WITHDRAW_CORE (R596, R597): the core is stopped first. -/
def execWithdrawCore (s : State) : Out :=
  tenRun s 6 (fun s r =>
    let u := r.unit
    if !instLives s r.inst ∨ u < 88 ∨ 120 ≤ u then tenDone s r 0x10
    else if (unitOf s u).role ≠ 6 ∨ (unitOf s u).owner ≠ r.inst then tenDone s r 0x11
    else beginDrain (coreStopOp s (coreIndex s u)) r)

/-- A kind that may be dedicated: compression, cipher or digest engine, search bank group. -/
def dedicable (u : Nat) : Bool := decide (0x06 ≤ kindOf u) && decide (kindOf u ≤ 0x09)

/-- DEDICATE (R596, R597): portions already admitted run to their end first. -/
def execDedicate (s : State) : Out :=
  tenRun s 7 (fun s r =>
    let u := r.unit
    if !instLives s r.inst ∨ !dedicable u ∨ (unitOf s u).role ≠ 1 then tenDone s r 0x10
    else if candidateBars s u then tenDone s r 0x11
    else if !(List.range 218).any (fun v => v != u && kindOf v == kindOf u && (unitOf s v).role == 1) then tenDone s r 0x05
    else beginDrain s r)

/-- UNDEDICATE (R596, R597). -/
def execUndedicate (s : State) : Out :=
  tenRun s 8 (fun s r =>
    let u := r.unit
    if !instLives s r.inst ∨ !dedicable u then tenDone s r 0x10
    else if (unitOf s u).role ≠ 7 ∨ (unitOf s u).owner ≠ r.inst then tenDone s r 0x11
    else beginDrain s r)

/-- The request in progress drains the unit: a withdrawal of it, or a DESTROY that still has to give it back (R597). -/
def drains (s : State) (r : TenReq) (unit : Nat) : Bool :=
  if r.op = 2 then r.stage == 2 && s.ten.withdrawing.contains (unit, r.inst) && (unitOf s unit).owner == r.inst
  else r.unit == unit && r.stage == 1 && r.op != 7

/-- WITHDRAW_DRAIN_TIMEOUT (R597): 1 ms on, tickets still inside complete with ROLE_STALE. -/
def execWithdrawDrainTimeout (unit : Nat) (s : State) : Out :=
  match s.ten.reqs with
  | r :: _ => if drains s r unit then .next (tenSettle (endInside s unit none)) else .next s
  | [] => .next s

end Sys2Proof.Machine
end

