-- ==== Sys2Proof/Machine/Start.lean ====
section
/-! DEFINITION. The start (20_start_and_reset.md): power on, the phases ROM to RESTORE, and READY. A start's commands run the
phases up to RESTORE whole; START_READY ends it. -/

namespace Sys2Proof.Machine

/-! ## Power on and the cause (R683, R696) -/

/-- The cause of a start at power on, from the last mark written (R696). -/
def powerOnCause (s : State) : Nat :=
  let b := s.boot
  if b.abandoned then 3
  else match b.mark with
    | 1 => if s.ftl.closed then 1 else 3
    | 2 => 2
    | 3 => 1
    | _ => 3

/-- POWER_ON (R683): VIN12 has stayed at 11.0 V for 10 ms with PWRDIS negated; a cold start begins. A thermal shutdown is held
until t_model is below 100 °C (R222). -/
def execPowerOn (s : State) : Out :=
  if s.pwr.thermHold ∧ 100 ≤ s.pwr.tModel then .next s
  else if s.boot.off || (decide (s.boot.phase = .rom) && !s.boot.begun) then
    let cause := powerOnCause s
    let s := setPwr s { s.pwr with rbGate := true, thermHold := false }
    .next (setBoot s { s.boot with
      phase := .rom, begun := true, kind := 1, cause := cause, off := false, vinOk := true, pwrdis := false,
      prevAbandoned := s.boot.abandoned, abandoned := false, entryMs := 0 })
  else .next s

/-! ## Phase ROM (R205, R648, R655) -/

/-- The peat state that a cold start enters (R205, R209). -/
def peatAtStart (p : Pwr) : PeatState :=
  if p.ceilQj = 0 then .unfused
  else if 16 ≤ p.ceilQj ∧ p.ceilQj ≤ 192 ∧ 120 ≤ p.vmaxDv ∧ p.vmaxDv ≤ 600 ∧ p.cmaxMf ≠ 0 then .ramp
  else .fault

/-- The fuse values, for the fuse image's digest (R654). -/
def fuseBytes (s : State) : Bytes :=
  let f := s.tru.peatFuses
  natLe 1 s.tru.lifecycle ++ natLe 1 s.tru.revoked ++ natLe 1 f.1 ++ natLe 2 f.2.1 ++ natLe 2 f.2.2 ++ natLe 8 s.dev.serial ++
    s.pwr.offsets.flatMap (natLe 1)

/-- Phase ROM: fuses, the charger (R209), the device-unique secret, and measurement indices 1 and 4 (R655). -/
def romPhase (s : State) (env : StartEnv) (warm : Bool) : State :=
  let p := s.pwr
  let s := if warm then s
    else if peatAtStart p = .ramp then enterRamp s
    else setPwr s { p with peat := peatAtStart p, chgEn := false }
  let s := setHealth s 4 (peatDown s.pwr.peat)
  let s := if env.readings.isEmpty then s
    else
      let t := modelTemp s env.readings
      setPwr s { sampled s.pwr env.readings with tModel := t, thermStage := stageAfter s t }
  let s := setTru s { s.tru with dusOk := env.dusOk }
  let s := extendMeas s 1 (measRecord 1 1 0xFFFF 0 0 Config.romVersion [] (Config.fuseDigest (fuseBytes s)) 0 0)
  measSecurity s

/-! ## Phases SRAM and FIRMWARE (R684, R487, R122) -/

/-- Every core leaves SCRUBBING; the system cores run the firmware (R487, R684). -/
def startCores (s : State) (env : StartEnv) : State :=
  { s with cores := (List.range 50).map (fun c =>
      let u := if c < 48 then 72 + c else 182 + (c - 48)
      let st : CState := if env.faults.contains u then .offline else if c < 16 then .running else .stopped
      (c, { state := st })) }

/-- Every fen starts EMPTY, but for one whose failed tiles outnumber its spares (R103, R124). -/
def startFens (s : State) (env : StartEnv) : State :=
  { s with fab := { s.fab with fens := (List.range 40).map (fun f =>
      let bad := ((env.fenTiles.filter (fun p => p.1 == f)).map (·.2)).sum
      let st : FState := if (if f < 32 then 1 else 4) < bad || env.faults.contains (32 + f) then .offline else .empty
      (f, { state := st, failedTiles := bad })) } }

/-! ## Phase TRAIN (R236–R243, R544, R545, R685) -/

/-- The settings saved at a temperature may be kept (R685). -/
def keepsAt (s : State) (t : Int) : Bool := decide ((s.pwr.tModel - t).natAbs ≤ 10)

/-- Train DRAM channel `c` (R545, R685): `o` is the state before the start. One whose unit has an unrepairable memory fault goes OFFLINE
(R686). -/
def trainDram (o : State) (env : StartEnv) (warm : Bool) (s : State) (c : Nat) : State :=
  let old := dramOf o c
  let a := drcReg Reg.DRC_CH_TRAIN c
  let p := env.dram.getD c { sizeGib := 0 }
  let mib : State → Nat → State := fun s gib => setLive s (drcReg Reg.DRC_CH_USABLE c) 31 0 (dramUsable (gib * 2 ^ 30) / 2 ^ 20)
  if warm ∧ old.state = .selfRefresh ∧ keepsAt s old.trainTemp ∧ p.verifyOk ∧ !env.faults.contains (168 + c) then
    let s := setDram s c { old with state := .ready, banks := [], postponed := [], window := false, heldRate := false, drift := false }
    let s := setBoot s { s.boot with keptDram := s.boot.keptDram + 2 ^ c }
    mib (setLive s a 2 0 old.rate) old.sizeGib
  else if p.sizeGib = 0 then setDram s c { state := .absent, trainTemp := old.trainTemp }
  else if env.faults.contains (168 + c) then dramHealth (setDram s c { sizeGib := p.sizeGib, trainTemp := old.trainTemp, state := .offline }) c 2
  else
    let x : DChan := {
      sizeGib := p.sizeGib, ranks2 := p.ranks2, devRate := p.devRate, refreshNs := p.refreshNs, trainTemp := old.trainTemp,
      saved := if warm then old.saved else [] }
    let s := mib (setDram s c x) p.sizeGib
    match p.rate with
    | none => dramHealth (setDram (bump s a 15 8 1) c { x with state := .offline }) c 2
    | some r =>
      let target := dramTarget s c
      let r := min r target
      let s := setDram s c { x with
        state := .ready, rate := r, tryRate := r, below := decide (r < target), trainTemp := s.pwr.tModel,
        saved := Tab.set x.saved r (s.pwr.tModel, p.settings) }
      let s := setLive (bump s a 15 8 1) a 2 0 r
      if r < target then dramHealth s c 1 else s

/-- What die `d` answers at the probe. -/
def paramOf (p : FlashProbe) (d : Nat) : DieParam := (p.dies.find? (fun x => x.die == d)).getD { die := d }

/-- Dies that answered the probe. -/
def answering (p : FlashProbe) : List Nat := (List.range 32).filter (bitOf p.present)

/-- A die breaks R236: its user or spare area, or a geometry or revision other than the lowest responding die's. -/
def dieBreaks (p : FlashProbe) (d : Nat) : Bool :=
  let x := paramOf p d
  let y := paramOf p ((answering p).headD d)
  x.user != 16384 || decide (x.spare < 1024) || x.geometry != y.geometry || x.revision != y.revision

/-- A die supports extended mode: "SX48" in its vendor bytes, and bit 0 after them (R238). -/
def dieExtended (x : DieParam) : Bool :=
  x.vendor.take 4 == [0x53#8, 0x58#8, 0x34#8, 0x38#8] && bitOf (x.vendor.getD 4 0#8).toNat 0

/-- A mask of dies. -/
def dieMask (l : List Nat) : Nat := (l.map (2 ^ ·)).sum

/-- The highest CODE whose 4 codewords fit a page of `bytes` (R250). -/
def codeFor (bytes : Nat) : Nat :=
  ((List.range 5).filter (fun c => decide (4 * codewordBytes c ≤ bytes))).foldl max 0

/-- Train flash channel `k` (R236, R238, R241, R242, R250, R685). A die or channel that the start finds lost is queued for its
rebuild, and one whose rebuild is still to be done stays offline (R259; log 182); so is one whose unit has an unrepairable memory fault
(R686). -/
def trainFlash (o : State) (env : StartEnv) (warm : Bool) (s : State) (k : Nat) : State :=
  let old := chanOf o k
  let kept := chanOf s k
  let a := Reg.FCH_CH_TRAIN + 0x40 * k
  let was := decide (old.state = .ready) || decide (old.state = .retraining)
  let lose : State → Nat → State := fun s d =>
    if s.fch.losses.contains (k, d) then s else setFch s { s.fch with losses := s.fch.losses ++ [(k, d)] }
  match env.flash.find? (fun p => p.1 == k) with
  | none => setChan s k { kept with state := .absent }
  | some (_, p) =>
    let gone : State → State := fun s => setChan s k { kept with state := .offline, present := p.present }
    if s.fch.losses.contains (k, 32) then gone s
    else if env.faults.contains k then
      record (lose (gone s) 32) 0x0010 2 0 k 0 [BitVec.ofNat 8 (live s Reg.FTL_HEALTH 23 16)]
    else if warm ∧ was ∧ keepsAt s old.trainTemp ∧ p.verifyOk then
      let s := setChan s k { kept with
        state := .ready, rate := old.rate, dieRate := old.dieRate, extended := old.extended, present := old.present,
        below := old.below, feature8A := old.feature8A, suspendable := old.suspendable }
      setLive (setBoot s { s.boot with keptFlash := s.boot.keptFlash + 2 ^ k }) a 2 0 old.rate
    else if p.present = 0 then setChan s k { kept with state := .absent }
    else
      let breaks := (answering p).filter (dieBreaks p)
      let offline := kept.dieOffline ||| dieMask breaks
      let usable := (answering p).filter (fun d => !bitOf offline d)
      let fresh := breaks.filter (fun d => !bitOf kept.dieOffline d)
      let least : (DieParam → Nat) → Nat := fun g => (leastBy id (usable.map (fun d => g (paramOf p d)))).getD 0
      let x := { kept with
        present := p.present, dieOffline := offline, dieRate := least (·.rate),
        extended := usable.all (fun d => dieExtended (paramOf p d)),
        suspendable := dieMask (usable.filter (fun d => (paramOf p d).suspend)),
        pageBytes := 16384 + least (·.spare),
        code := if s.ftl.groups.isEmpty then codeFor (16384 + least (·.spare)) else kept.code }
      let s := fresh.foldl lose (setChan s k x)
      let fail : State → State := fun s =>
        record (lose (setChan s k { x with state := .offline }) 32) 0x0010 2 0 k 0 [BitVec.ofNat 8 (live s Reg.FTL_HEALTH 23 16)]
      if usable.isEmpty then fail s
      else match p.rate with
        | none => fail (bump s a 15 8 1)
        | some r =>
          let target := targetRate s k
          let r := min r target
          let s := setChan s k { x with
            state := .ready, rate := r, tryRate := r, feature8A := b2n (r == 6), below := decide (r < target),
            trainTemp := s.pwr.tModel, saved := x.saved.set r p.settings }
          let s := setLive (bump s a 15 8 1) a 2 0 r
          if r < target then record s 0x0010 1 0 k 0 [BitVec.ofNat 8 (live s Reg.FTL_HEALTH 23 16)] else s

/-- Phase TRAIN: DRAM, flash with the offline set that it leaves (R282), the Uaser links, and the search shadow's channels (R453). -/
def trainPhase (o : State) (env : StartEnv) (warm : Bool) (s : State) : State :=
  let s := (List.range 4).foldl (trainDram o env warm) s
  let s := noteOffline ((List.range 32).foldl (trainFlash o env warm) s)
  let s := setJct s { s.jct with links := [1, 1, 1, 1] }
  { s with asu := { s.asu with copies := (dramLive s).take 2 } }

/-! ## Phase STREAM (R68, R87, R711) -/

/-- The content key of a stored candidate: none needed, or unwrapped under the device stream key or a key of instance 0 that the
slot table keeps (R59, R69, R383); none where an unwrap fails. -/
def candidateKey (s : State) (h : Bytes) : Option Bytes :=
  if !hEnc h then some []
  else
    let a := wrapAt h
    let slot := Tab.getD s.key.table (leAt h (a + 2) 2) {}
    let key := if leAt h a 1 = 1 then deviceKey s 0 else if slot.owner = 0 ∧ slot.kind = 3 then some slot.key else none
    (key.bind (fun k => Config.unwrap5649 k (slice h (a + 8) 40))).map (fit 32)

/-- The payloads of a stored candidate's blocks, where every block passes its checks (R76 step 7). -/
def candidateBlocks (s : State) (c : Stream) : Option (List Bytes) :=
  match candidateKey s c.head with
  | none => none
  | some k =>
    if c.blocks.length ≠ hBlocks c.head then none
    else (List.range c.blocks.length).foldl (fun l n =>
      match l, openBlock c.head k (c.blocks.getD n []) n with
      | some l, .ok p => some (l ++ [p])
      | _, _ => none) (some [])

/-- The checks of a stored candidate at a start (R87 step 4): the mark, R76 steps 2 to 8, and R68. `o` holds the grants that
R72 protects. -/
def candidateOk (o s : State) (c : Stream) : Bool :=
  c.mark == sha384 (signedRange c.head) && headerOk c.head && streamAuthority s c.head && signaturesOk c.head &&
    (candidateBlocks s c).map (sectionData c.head) == some c.sections && streamOk o c.sections && meetsRefs s.upd.comps (payloadOf c.sections 6)

/-- Islands and domains of a stream (R202, R203). -/
def streamIslands (st : Stream) : Tab Island :=
  let plan := payloadOf st.sections 2
  let dom := payloadOf st.sections 5
  let islands : Tab Island := (List.range (plan.length / 8)).foldl (fun t i =>
    let k := leAt plan (8 * i) 1
    let least := leAt plan (8 * i + 1) 1
    let mhz := leAt plan (8 * i + 2) 2
    Tab.set t k { point := pointFor k least mhz, mhz := mhz, minPoint := least, planMhz := mhz }) []
  (List.range (dom.length / 4)).foldl (fun t i =>
    Tab.mod t (leAt dom (4 * i) 1) (fun x => { x with
      group := leAt dom (4 * i + 1) 1, idleLimit := leAt dom (4 * i + 2) 1, gateMs := leAt dom (4 * i + 3) 1 })) islands

/-- A stream is applied: lines, routes, roles, islands and domains; index 3 is extended (R655). -/
def applyStream (s : State) (st : Stream) (candidate : Bool) : State :=
  let roles := payloadOf st.sections 4
  let s := (List.range 218).foldl (fun s n => startUnit s n (fun r => { r with role := leAt roles (8 * n) 1 })) s
  let s := setPwr s { s.pwr with islands := streamIslands st }
  let s := { s with cfg := { s.cfg with
    lines := parseLines (payloadOf st.sections 1), routesYX := parseRoutes (payloadOf st.sections 3), fromCandidate := candidate } }
  let b := sigSet st.head 0
  extendMeas s 3 (measRecord 3 3 0xFFFF 0 0 st.seq st.imageId st.mark (leAt b 0 1) (leAt b 1 1))

/-- A stream that the boot sequence does not apply is recorded (R68, R87). -/
def recordStream (s : State) (st : Stream) : State :=
  record s 0x0020 sevFree 0x10 191 0 (zeros 8 ++ slice st.imageId 0 8)

/-- Phase STREAM: the candidate if its checks hold, unless the image is TRIAL (R711); otherwise the active stream. -/
def streamPhase (o s : State) : State :=
  let active : State → State := fun s =>
    match s.cfg.active with
    | some a => if meetsRefs s.upd.comps (payloadOf a.sections 6) then applyStream s a false else recordStream s a
    | none => s
  match s.cfg.candidate with
  | none => active s
  | some c =>
    if (fwPtr s).trial then active s
    else if candidateOk o s c then applyStream s c true
    else active (recordStream s c)

/-! ## Phase RECOVER (R284, R306–R308, R320, R323, R332) -/

/-- The die of channel `k` on which a mirror of the flash system area lies: the lowest usable one of channels 0, 8, 16 and 24
(R282). -/
def systemDie (s : State) (k : Nat) : Option Nat :=
  if k % 8 = 0 ∧ k < 32 then (List.range 32).find? (fun d => bitOf (chanOf s k).present d && !bitOf (chanOf s k).dieOffline d)
  else none

/-- Good blocks of die (k, d) that are not reserved (R282): the scratch block, which is the highest-numbered one, the 64 blocks of the flash
system area, the lowest-numbered ones (DESIGN CHOICE, log 219), and the journal band are. -/
def formatBlocks (s : State) (env : StartEnv) (k d : Nat) : List Nat :=
  let good := (List.range env.dieBlocks).filter (fun b => !env.badBlocks.contains (k, d, b))
  let rest := (good.take (good.length - 1)).drop (if systemDie s k = some d then 64 else 0)
  rest.filter (fun b => !env.reserved.contains (k, d, b))

/-- Usable channels of die number `d`. -/
def formatChans (s : State) (d : Nat) : List Nat :=
  (stripeChans s).filter (fun k => bitOf (chanOf s k).present d && !bitOf (chanOf s k).dieOffline d)

/-- Groups of die number `d` at first format: 98 % of the fewest good blocks on any usable channel (R323). -/
def formatCount (s : State) (env : StartEnv) (d : Nat) : Nat :=
  let goods := (formatChans s d).map (fun k => ((List.range env.dieBlocks).filter (fun b => !env.badBlocks.contains (k, d, b))).length)
  98 * (goods.foldl min (goods.headD 0)) / 100

/-- The blocks that replace members of die (k, d) whose own number cannot serve, and the pool that is left (R323). -/
def formatDie (s : State) (env : StartEnv) (n k d : Nat) : Tab Nat × List Nat :=
  let usable := formatBlocks s env k d
  let gone := (List.range n).filter (fun b => !usable.contains b)
  let rest := usable.filter (fun b => decide (n ≤ b))
  (((gone.zip rest).map (fun p => ((d * 65536 + p.1) * 32 + k, p.2))), rest.drop gone.length)

/-- First format (R292, R323): block groups, spare pools, the sluice share on the lowest block numbers, and the spare blocks at
format (R324). -/
def formatMedia (s : State) (env : StartEnv) : State :=
  let dies := (List.range 32).map (fun d => (d, formatCount s env d))
  let most := (dies.map (·.2)).foldl max 0
  let order := (List.range most).flatMap (fun b => (dies.filter (fun p => decide (b < p.2))).map (fun p => p.1 * 65536 + b))
  let share := eff s Reg.FTL_SLUICE_CFG 2 0 * order.length / 100
  let sluice := order.take share
  let groups : Tab BGroup := dies.flatMap (fun p => (List.range p.2).map (fun b =>
    (p.1 * 65536 + b, { dense := !sluice.contains (p.1 * 65536 + b) })))
  let parts := dies.flatMap (fun p => (formatChans s p.1).map (fun k => (k * 32 + p.1, formatDie s env p.2 k p.1)))
  let members : Tab Nat := (parts.flatMap (·.2.1)).foldl (fun t x => Tab.set t x.1 x.2) []
  let pools : Tab (List Nat) := parts.foldl (fun t x => Tab.set t x.1 x.2.2) []
  let s := setFtl s { s.ftl with
    groups := groups, members := members, pools := pools, sluicePages := env.sluicePages, densePages := env.densePages }
  let spare := (pools.map (fun p => p.2.length)).sum + 32 * (spareGroups s).toNat
  setFtl s { s.ftl with spareAtFormat := spare }

/-- The first JSEQ from J0 on that neither copy of the journal yields (R307). -/
def journalEnd (s : State) (env : StartEnv) : Nat :=
  let j0 := (s.ftl.anchor.map (·.j0)).getD 0
  let l := s.ftl.journal.map (·.1)
  let top := l.foldl (fun m j => max m (j + 1)) j0
  ((List.range (top - j0)).map (j0 + ·)).find? (fun j => env.lostJseqs.contains j || !l.contains j) |>.getD top

/-- The journal from J0 on is readable: no page 8 or more beyond a missing one, no missing page before a CLOSE record, and no
record of a reserved TYPE (R307). -/
def journalOk (s : State) (env : StartEnv) : Bool :=
  let e := journalEnd s env
  let l := s.ftl.journal.filter (fun r => !env.lostJseqs.contains r.1)
  !l.any (fun r => decide (e + 8 ≤ r.1) || (r.2.type == 5 && decide (e ≤ r.1))) &&
    l.all (fun r => decide (1 ≤ r.2.type) && decide (r.2.type ≤ 5))

/-- The journal ends in CLOSE directly after the records of checkpoint `a` (R306). -/
def endsClean (s : State) (a : Anchor) : Bool :=
  (s.ftl.journal.getLast?.map (fun r => r.2.type)) == some 5 &&
    s.ftl.journal.all (fun r => decide (r.1 < a.jend) || r.2.type == 5)

/-- The recovery path (R306, R309): 0 new media, 1 CLEAN, 2 REPLAY, 3 REBUILD, 4 the save of R288. -/
def recoveryPath (o s : State) (env : StartEnv) (warm : Bool) : Nat :=
  if warm && o.ftl.warmImage.isSome && env.saveOk then 4
  else if s.ftl.groups.isEmpty then 0
  else match s.ftl.anchor with
    | none => 3
    | some a =>
      if !journalOk s env then 3
      else if endsClean s a then 1
      else 2

/-- A journal record applied to a map (R307). -/
def replayRec (m : Tab MEntry) (r : JRec) : Tab MEntry :=
  match r.type, r.entry with
  | 1, some x => Tab.set m r.idx x
  | 2, some x => Tab.set m r.idx x
  | 3, _ => Tab.erase m r.idx
  | _, _ => m

/-- The newest DATA unit of each map index with a sequence number of at least `s0`, over every page but those of retired blocks
(R308 step 3, R323). -/
def scanPages (s : State) (s0 : Nat) : Tab (Nat × MEntry) :=
  s.fch.pages.foldl (fun t p => p.2.foldl (fun t x =>
    if x.kind ≠ 1 ∨ x.seq < s0 ∨ blockRetired s p.1 then t
    else match Tab.get? t x.idx with
      | some y => if y.1 < x.seq then Tab.set t x.idx (x.seq, ⟨p.1, x.quarter, x.cls, x.seq % 65536⟩) else t
      | none => Tab.set t x.idx (x.seq, ⟨p.1, x.quarter, x.cls, x.seq % 65536⟩)) t) []

/-- A map entry of 8 bytes (R277): none for UNMAPPED. One of a reserved STATE, or STAGED, which flash never holds, names no
quarter of its page, so that every check of it fails (R278, R279). -/
def wordEntry (w : Nat) : Option MEntry :=
  let x : MEntry := {
    page := pageKey (w / 2 ^ 37 % 32) (w / 2 ^ 32 % 32) (w / 2 ^ 16 % 65536) (w / 16 % 4096), quarter := w % 16,
    cls := w / 2 ^ 42 % 4, seqTail := w / 2 ^ 48 % 65536 }
  match w / 2 ^ 44 % 16 with
  | 0 => none
  | 1 => some x
  | _ => some { x with quarter := 16 }

/-- The entries that pages of one level hold, read from flash: `l` is their page numbers and places. -/
def loadLevel (s : State) (l : Tab MEntry) : Tab MEntry :=
  l.flatMap (fun p => match ((Tab.get? s.fch.pages p.2.page).getD []).find? (fun x => x.quarter == p.2.quarter) with
    | some x => (List.range 512).filterMap (fun i => (wordEntry (leNat (slice x.bytes (8 * i) 8))).map (fun m => (512 * p.1 + i, m)))
    | none => [])

/-- The root pages named in ROOT_LIST, by checkpoint number and root page number, with their places (R283, R308): those of closed
blocks. -/
def listedRoots (s : State) : List (Nat × Nat × Nat × MEntry) :=
  s.fch.pages.flatMap (fun p => if (bgOf s (groupOf s p.1)).isClosed then p.2.filterMap (fun x =>
    if x.kind = 4 then some (x.idx / 2048, x.idx % 2048, x.seq, ⟨p.1, x.quarter, x.cls, x.seq % 65536⟩) else none) else [])

/-- The root pages of the highest checkpoint number whose root pages were all found (R308 step 2). -/
def bestRoots (s : State) : Option (Nat × Tab MEntry) :=
  let l := listedRoots s
  let need := rootPages s
  let full := (l.map (·.1)).filter (fun k => (List.range need).all (fun n => l.any (fun r => r.1 == k && r.2.1 == n)))
  if full.isEmpty then none
  else
    let k := full.foldl max 0
    some (k, (List.range need).filterMap (fun n =>
      (leastBy (fun r => 2 ^ 64 - r.2.2.1) (l.filter (fun r => r.1 == k && r.2.1 == n))).map (fun r => (n, r.2.2.2))))

/-- What a rebuild starts from: the map, the places of its pages, and S0; those of the anchor, or, where none is valid, of the newest complete
set of root pages (R308 step 2). -/
def rebuildBase (s : State) : Tab MEntry × Tab MEntry × Nat :=
  match s.ftl.anchor with
  | some a => (a.map, a.places, a.s0)
  | none =>
    match bestRoots s with
    | none => ([], [], 0)
    | some (k, roots) =>
      let dirs := loadLevel s roots
      let maps := loadLevel s dirs
      let at_ : Nat → Tab MEntry → Tab MEntry → Tab MEntry := fun kind l t => l.foldl (fun t p => Tab.set t (mapKey kind p.1) p.2) t
      ((loadLevel s maps).foldl (fun t p => Tab.set t p.1 p.2) [], at_ 4 roots (at_ 3 dirs (at_ 2 maps [])), Tab.getD s.ftl.rootS0 k 0)

/-- A rebuild (R308): the overlay is written as records, RELOCATE where the map it starts from has the index and WRITE elsewhere
(DESIGN CHOICE, log 207), and a checkpoint begins; every map page is unverified. -/
def rebuildMap (s : State) : State :=
  let b := rebuildBase s
  let s := setFtl s { s.ftl with map := b.1, mapAt := b.2.1, closed := false }
  let s := (scanPages s b.2.2).foldl (fun s p =>
    hold (mapSet s p.1 (some p.2.2)) { type := if (Tab.get? b.1 p.1).isSome then 2 else 1, idx := p.1, entry := some p.2.2 }) s
  let s := setFtl s { s.ftl with unverified := (s.ftl.unverified ++ (Tab.keys s.ftl.map).map (· / 512)).eraseDups }
  beginCkpt s

/-- Groups across a start: open ones, and those with a block whose summary fails every tier or reads as erased, count as open until they are
erased and are taken first (R284), and free ones are erased again before they are programmed (R294); on the REPLAY and REBUILD paths
the counts are those last written, one more for a free or open group (R320), and presence is as last written, or full where R332
says. -/
def groupsAgain (s : State) (env : StartEnv) (path : Nat) : Tab BGroup :=
  let s0 := (s.ftl.anchor.map (·.s0)).getD 0
  Tab.mapVals s.ftl.groups (fun g x =>
    let failed := decide (x.state = .closed) &&
      env.badSummaries.any (fun b => groupOf s (pageKey b.1 b.2.1 b.2.2 0) == g)
    let opened := decide (x.state = .opened) || failed || x.crossed
    let w := Tab.getD s.ftl.wearSaved g (0, 0)
    let more := b2n (opened || decide (x.state = .free))
    let x := { x with
      state := if x.state = .opened then .closed else x.state, crossed := opened,
      stale := x.stale || decide (x.state = .free) }
    if path = 2 ∨ path = 3 then
      { x with
        ecDense := w.1 + (if x.dense then more else 0), ecSluice := w.2 + (if x.dense then 0 else more),
        present := if opened || decide (s0 ≤ x.lastSeq) then (List.range 1024).map (· + 1)
          else Tab.getD s.ftl.presentSaved g [] }
    else x)

/-- The highest sequence number found, in the anchor, in the journal pages that were read (`recs`), in the offline sets or in the scan,
which reads no retired block (R276, R323). -/
def highestSeq (s : State) (path : Nat) (recs : List JRec) : Nat :=
  let anchor := (s.ftl.anchor.map (·.s0)).getD 0
  let journal := recs.filterMap (fun r => r.entry.bind (fun m =>
    (((Tab.get? s.fch.pages m.page).getD []).find? (fun x => x.quarter == m.quarter)).map (·.seq)))
  let scan := if path = 3 then (s.fch.pages.filter (fun p => !blockRetired s p.1)).flatMap (fun p => p.2.map (·.seq)) else []
  let sets := s.ftl.offlineSets.map (·.1)
  (journal ++ scan ++ sets).foldl max anchor

/-- Pages programmed since the S0 of the last complete checkpoint (R303). -/
def pagesSince (s : State) : Nat :=
  match s.ftl.anchor with
  | some a => s.fch.pages.countP (fun p => p.2.any (fun x => (x.kind != 0 && x.kind != 6) && decide (a.s0 ≤ x.seq)))
  | none => 0

/-- Phase RECOVER. An anchor is valid while any one of the four mirrors holds it with its mark (R282). The next journal page after a
replay is one higher than the last that it read (R301). After a recovery the next sequence number is the highest found plus 1,048,576 (R276); a warm start that keeps the
map cache recovers nothing (R306). -/
def recoverPhase (o : State) (env : StartEnv) (warm : Bool) (s : State) : State :=
  let s := if (List.range 4).all env.lostMirrors.contains then setFtl s { s.ftl with anchor := none } else s
  let path := recoveryPath o s env warm
  let s := setFtl s { s.ftl with state := .recovering, groups := groupsAgain s env path, lastPath := path, pagesSinceS0 := pagesSince s }
  let f := s.ftl
  let last := journalEnd s env
  let recs := (f.journal.filter (fun r => decide (r.1 < last))).map (·.2)
  let places := (f.anchor.map (·.places)).getD []
  let s := match path with
    | 4 => setBoot (setFtl s { f with
        map := o.ftl.warmImage.getD [], mapAt := o.ftl.mapAt, mapDirty := o.ftl.mapDirty, cached := o.ftl.cached.take dieFrames,
        dramTier := o.ftl.dramTier })
        { s.boot with mapKept := true }
    | 0 => formatMedia s env
    | 1 => setFtl s { f with map := (f.anchor.map (·.map)).getD [], mapAt := places }
    | 2 =>
      let s := setFtl s { f with
        map := recs.foldl replayRec ((f.anchor.map (·.map)).getD []), mapAt := places, nextJseq := last,
        journal := f.journal.filter (fun r => decide (r.1 < last)) }
      recs.foldl (fun s r => if 1 ≤ r.type ∧ r.type ≤ 3 then markDirty s r.idx else s) s
    | _ => rebuildMap (setFtl s { f with journal := f.journal.filter (fun r => !env.lostJseqs.contains r.1) })
  if 1 ≤ path ∧ path ≤ 3 then setFtl s { s.ftl with nextSeq := highestSeq s path recs + 1048576 } else s

/-! ## Phase RESTORE (R383, R600, R686, R713) -/

/-- The slot table is loaded (R383): PERSIST slots return LOADED, other granted slots EMPTY. After DECOMMISSIONED its key is
not derived (R652). -/
def restoreKeys (s : State) : State :=
  if (deviceKey s 1).isNone then s
  else s.key.table.foldl (fun s p =>
    if p.2.owner ≠ 0 ∧ (instOf s p.2.owner).state = .free then s
    else
      let k := slotOf s p.1
      let kept := bitOf p.2.attr 0 && !p.2.key.isEmpty
      setSlot s p.1 { k with
        owner := p.2.owner, kind := p.2.kind, attr := p.2.attr, state := if kept then .loaded else .empty,
        key := if kept then p.2.key else [] }) s

/-- Grants and dedications are restored (R600): roles 5 to 7 with their owner. -/
def restoreGrants (o s : State) : State :=
  (List.range 218).foldl (fun s n =>
    let r := unitOf o n
    if 5 ≤ r.role ∧ r.role ≤ 7 ∧ (instOf s r.owner).state ≠ .free then
      startUnit s n (fun x => { x with role := r.role, owner := r.owner })
    else s) s

/-- Windows of the granted tenant cores (R475): those of the grant. -/
def restoreWindows (o s : State) : State :=
  (List.range 32).foldl (fun s i =>
    let u := 88 + i
    if (unitOf s u).role ≠ 6 then s
    else
      let a := Reg.GLY_CORE_WIN_BASE + 0x40 * (u - 72)
      grantWindows s u (unitOf s u).owner ((List.range 4).map (fun k => effWord o (a + 16 + 4 * k)))) s

/-- The settings record is applied where its SFORMAT is the running image's; otherwise the reset values stand and the
replacement is recorded (R713). Applying acts as a commit: a changed rate is taken up (R243, R546). -/
def restoreSettings (s : State) : State :=
  match s.boot.settings with
  | none => s
  | some (fmt, vals) =>
    if fmt ≠ s.upd.sformat then
      recordRom (setUpd s { s.upd with formatChanged := true }) 0x0021 sevFree 0 0xFF (natLe 1 3 ++ natLe 1 s.upd.running)
    else
      let before := s
      let s := { s with regs := { s.regs with
        eff := vals.foldl (fun t p => Tab.set t p.1 p.2) s.regs.eff,
        staged := vals.foldl (fun t p => Tab.set t p.1 p.2) s.regs.staged } }
      let s := (List.range 32).foldl (fun s k =>
        let c := chanOf s k
        let a := Reg.FCH_CH_CFG + 0x40 * k
        if c.state = .ready ∧ eff s a 2 0 ≠ eff before a 2 0 then setChan s k { c with due := true } else s) s
      (List.range 4).foldl rateChange s

/-- Sets whose safe point is this start are judged and take effect, or are refused (R100). A refused set leaves its staged values as the
start put them: reset or restored (log 194). -/
def startSets (o s : State) : State :=
  startGroups.foldl (fun s g =>
    match (groupAt o g.1).pending with
    | none => s
    | some set =>
      if startRefused s g.1 set then recordRefused (setGroup s g.1 { groupAt s g.1 with rejected := true }) g.1 g.2
      else
        let s := { s with regs := { s.regs with
          eff := set.foldl (fun t p => Tab.set t p.1 p.2) s.regs.eff,
          staged := set.foldl (fun t p => Tab.set t p.1 p.2) s.regs.staged } }
        if isSetting g.1 then saveSettings s else s) s

/-- The DRAM tier and the staging extension are reduced to what the channels in service can hold twice over; the extension is
0 with fewer than two channels (R287, R315). The effective and staged sizes become the reduced ones (R778). -/
def reduceCache (s : State) : State :=
  let total := ((dramLive s).map (fun c => live s (drcReg Reg.DRC_CH_USABLE c) 31 0)).sum
  let room := (total - fixedMib) / 2 / 1024
  let map := min (eff s Reg.FTL_CACHE_CFG 6 0) room
  let stage := if (dramLive s).length < 2 then 0 else min (eff s Reg.FTL_CACHE_CFG 14 8) (room - map)
  let a := Reg.FTL_CACHE_CFG
  setFtl (setEff (setEff s a 6 0 map) a 14 8 stage) { s.ftl with mapGib := map, stageGib := stage, cacheChans := dramLive s }

/-- The zones of a namespace after a start (R578): open ones are closed; the write pointer of a zone that is not full is the
higher of its recorded value and one past its highest mapped unit. -/
def zonesAgain (s : State) (n : Ns) : Tab Zone :=
  if n.zoneUnits = 0 then n.zones
  else (List.range (n.units / n.zoneUnits)).foldl (fun t z =>
    let x := Tab.getD t z {}
    if 4 ≤ x.state then t
    else
      let first := mapIndex n (z * n.zoneUnits)
      let used := (Tab.keys s.ftl.map).foldl (fun m i => if first ≤ i ∧ i < first + n.zoneUnits then max m (i - first + 1) else m) 0
      let wp := max x.wp used
      Tab.put {} t z { state := if n.zoneUnits ≤ wp then 4 else if wp = 0 ∧ x.state = 0 then 0 else 3, wp := wp }) n.zones

/-- The STATE that the start finds a unit in (R24, R26, R122, R241, R487, R544). -/
def foundState (s : State) (env : StartEnv) (n : Nat) : UState :=
  let byRole : UState := if (unitOf s n).role = 0 then .idle else .active
  if 197 ≤ n then .absent
  else if n < 32 then
    match (chanOf s n).state with
    | .absent => .absent
    | .offline => .offline
    | _ => byRole
  else if n < 72 then (if (fenOf s (n - 32)).state = .offline then .offline else .idle)
  else if 168 ≤ n ∧ n < 172 then
    match (dramOf s (n - 168)).state with
    | .absent => .absent
    | .offline => .offline
    | _ => .active
  else if env.faults.contains n then .offline
  else if 180 ≤ n ∧ n < 186 then .idle
  else if n = 173 ∧ !s.hif.x8x8 then .idle
  else byRole

/-- The start establishes the STATE of every unit; it raises no GEN (R31). -/
def restoreStates (s : State) (env : StartEnv) : State :=
  (List.range 218).foldl (fun s n =>
    let st := foundState s env n
    let none_ := decide (n = 173) && !s.hif.x8x8
    let s := startUnit s n (fun r => { r with state := st, role := if none_ then 0 else r.role })
    if st = .offline then record s 0x0011 sevFree 0 n (unitOf s n).owner (natLe 1 1 ++ natLe 1 4) else s) s

/-- The delivery area of instance `i` begins anew with its newest 1,023 records (R726). -/
def redeliver (s : State) (i : Nat) : State :=
  let mine := (heldRecords s).filter (fun r => r.inst == i)
  let s := { s with evr := { s.evr with written := Tab.erase s.evr.written i } }
  (mine.drop (mine.length - 1023)).foldl (fun s r => deliver s i (recordBytes r)) s

/-- Local memory keeps its contents across a warm start at which the same DRAM channels come into service; otherwise it reads
as zero (R600, R688). Instance 0's is 512 MiB, or what the areas before it leave of the DRAM (R543). -/
def restoreLmem (o s : State) (warm : Bool) : State :=
  let before := (List.range 4).filter (fun c => decide ((dramOf o c).state = .selfRefresh))
  let total := ((dramLive s).map (fun c => live s (drcReg Reg.DRC_CH_USABLE c) 31 0)).sum
  let kept := decide (warm ∧ before = dramLive s)
  let s := setInst s 0 { instOf s 0 with
    state := .ready, lmem64 := min 8 ((total - 912) / 64), chans := if kept then (instOf o 0).chans else dramLive s }
  if kept then
    { s with lmem := o.lmem, dram := o.dram, drc := { s.drc with placed := o.drc.placed, marks := o.drc.marks } }
  else { s with ten := { s.ten with insts := Tab.mapVals s.ten.insts (fun _ x => { x with chans := dramLive s }) } }

/-- Search bank groups whose memory failed leave service (R686). -/
def restoreBanks (s : State) (env : StartEnv) : State :=
  (List.range 64).foldl (fun s b =>
    if env.faults.contains (152 + b / 4) then { s with asu := { s.asu with banks := Tab.set s.asu.banks b { state := .offline, failed := true } } }
    else s) s

/-- Phase RESTORE. -/
def restorePhase (o : State) (env : StartEnv) (warm : Bool) (s : State) : State :=
  let s := restoreGrants o (restoreKeys s)
  let s := restoreLmem o s warm
  let s := restoreWindows o s
  let s := setFtl s { s.ftl with ns := Tab.mapVals s.ftl.ns (fun _ n => { n with zones := zonesAgain s n }) }
  let s := reduceCache (startSets o (restoreSettings s))
  let s := { s with fab := { s.fab with aliasOwner := o.fab.aliasOwner } }
  let s := restoreStates (restoreBanks s env) env
  let s := (Tab.keys s.ten.insts).foldl (fun s i => if eff s (Reg.EVR_INST_AREA + 4 * i) 31 31 = 1 then redeliver s i else s) s
  let s := if s.boot.cause = 3 then record s 0x0003 sevFree 0 0xFF 0 [] else s
  let s := judgeFold (judgeSpare (setFtl s { s.ftl with state := .ready }))
  let s := setHealth (clearLosses (judgeDegraded s)) 1 (decide (1 ≤ s.pwr.thermStage) || env.readings.any (fun t => decide (t < -5)))
  let s := if (dramLive s).isEmpty ∧ s.ftl.state = .ready then setHealth (setFtl s { s.ftl with state := .readOnly }) 3 true
    else s
  setBoot s { s.boot with phase := .restore }

/-! ## The commands -/

/-- The start stops in HALTED (R693): 1 no device-unique secret, 2 no firmware image, 3 an SRAM fault in a system region (for the third
R721 has no event, log 112). -/
def haltStart (s : State) (why : Nat) : State :=
  setBoot s { s.boot with phase := .halted, halt := why, begun := false, sbPresent := decide (why ≠ 1) }

/-- The phases from ROM to RESTORE. -/
def runStart (o : State) (env : StartEnv) (warm : Bool) : State :=
  let s := romPhase (again o env warm) env warm
  if !env.dusOk then haltStart (recordRom s 0x0050 sevFree 0 194 (natLe 1 1)) 1
  else
    let s := setBoot s { s.boot with sbPresent := true }
    let s := startFens s env
    if env.systemFault then haltStart s 3
    else
      let r := chooseImage s
      if !r.2 then haltStart r.1 2
      else
        let s := trainPhase o env warm (startCores r.1 env)
        restorePhase o env warm (recoverPhase o env warm (streamPhase o s))

/-- A test session that was open when the start came ends (R668). -/
def endTestSession (o s : State) : State :=
  if o.tru.testBy.isSome then record s 0x0040 sevFree 0 194 0 (natLe 1 2) else s

/-- COLD_START (R684): the start that POWER_ON began runs its phases. -/
def execColdStart (env : StartEnv) (s : State) : Out :=
  if s.boot.phase = .rom ∧ s.boot.begun ∧ s.boot.kind = 1 ∧ !s.boot.off then
    .next (endTestSession s (runStart s env false))
  else .next s

/-- WARM_START (R684): the entry sequence ends (R682) and the start runs its phases. -/
def execWarmStart (env : StartEnv) (s : State) : Out :=
  let s := if s.boot.phase = .entry then finishEntry s true else s
  if s.boot.phase = .rom ∧ s.boot.begun ∧ s.boot.kind = 2 ∧ !s.boot.off then
    .next (endTestSession s (runStart s env true))
  else .next s

/-- Step 5 of R87: the candidate that was applied becomes the active stream, and raises the floor where SET_FLOOR is 1. -/
def takeCandidate (s : State) : State :=
  match s.cfg.candidate, s.cfg.fromCandidate with
  | some c, true =>
    { s with cfg := { s.cfg with
        active := some c, candidate := none, floor := if c.setFloor then c.seq else s.cfg.floor, fromCandidate := false } }
  | _, _ => s

/-- Milliseconds of a list of phases. -/
def sumMs (l : List Nat) : Nat := l.foldl (· + ·) 0

/-- START_READY (R687): RESTORE has ended and the peat state is not RAMP. -/
def execStartReady (s : State) : Out :=
  if s.boot.phase ≠ .restore ∨ s.pwr.peat = .ramp ∨ s.pwr.powerLoss then .next s
  else
    let b := s.boot
    let s := setBoot s { b with
      phase := .ready, begun := false, mark := 0, sbReady := true, readyAt := s.now, readyMs := sumMs b.phaseMs, wdt := some s.now }
    let s := fedJoin (takeCandidate s)
    let s := resumeSecures (s.ftl.secures.foldl (fun s x => secureBegin s x [] []) s)
    .next (record s 0x0001 sevFree 0 0xFF 0 (natLe 1 b.cause ++ natLe 1 b.kind ++
      (List.range 7).flatMap (fun p => natLe 2 (min 65535 (b.phaseMs.getD p 0)))))

end Sys2Proof.Machine
end

