-- ==== Sys2Proof/Machine/Update.lean ====
section
/-! DEFINITION. Firmware update (21_firmware_update.md): staging, the stages of R708, confirmation (R709, R710), and the
NVMe commands of R714. -/

namespace Sys2Proof.Machine

/-! ## The pointer (R705, R708–R711) -/

/-- A slot as SLOT and FS name it: 0 the one that is not ACTIVE, 1 A, 2 B (R714, R717). -/
def namedSlot (s : State) (raw : Nat) : Nat := if raw = 0 then 1 - (fwPtr s).active else raw - 1

/-- Stage 3: the record that names the slot, TRIAL, BOOTS 0 (R708). FELL_BACK ends (R710). -/
def activateSlot (s : State) (n : Nat) : State :=
  let s := writePtr s { fwPtr s with active := n, trial := true, boots := 0 }
  setUpd s { s.upd with fellBack := false }

/-- The running image is the TRIAL one. -/
def onTrial (s : State) : Bool :=
  let p := fwPtr s
  p.trial && decide (1 ≤ p.boots) && p.active == s.upd.running

/-- A TRIAL image confirms itself once SELF_OK is 1 and HOLD_CONFIRM is 0 or CONFIRM has been written; with RAISE the floor
becomes SVN (R709, R712). -/
def confirmImage (s : State) : State :=
  if onTrial s && s.upd.selfOk && (eff s Reg.UPD_CFG 0 0 == 0 || s.upd.confirm) then
    let p := fwPtr s
    let m := manifestOf (slotFw s p.active).image
    writePtr s { p with trial := false, boots := 0, floor := if mRaise m then mSvn m else p.floor }
  else s

/-- SELF_OK (R709): 10 s after READY, every system core that is not OFFLINE is RUNNING or WAITING. -/
def execSelfOk (s : State) : Out :=
  let healthy := (List.range 16).all (fun c =>
    match (coreOf s c).state with
    | .running | .waiting | .offline => true
    | _ => false)
  if s.boot.phase = .ready ∧ healthy then .next (confirmImage (setUpd s { s.upd with selfOk := true })) else .next s

/-- CONFIRM (R709). -/
def execConfirm (s : State) : Out := .next (confirmImage (setUpd s { s.upd with confirm := true }))

/-- ACTIVATE (R718): while TRIAL with BOOTS 0; otherwise ignored. -/
def activateNow (s : State) : State :=
  let p := fwPtr s
  if p.trial ∧ p.boots = 0 then beginEntry s 0x14 else s

/-- ACTIVATE. -/
def execActivate (s : State) : Out := .next (activateNow s)

/-- A write of UPD_CTL (R718). -/
def updCtl (s : State) (v : Nat) : State :=
  let s := if bitOf v 0 then confirmImage (setUpd s { s.upd with confirm := true }) else s
  if bitOf v 1 then activateNow s else s

/-- CONFIRM_TIMEOUT (R710): 120 s after READY the unconfirmed image is given up, and a warm start begins. -/
def execConfirmTimeout (s : State) : Out :=
  if s.boot.phase = .ready ∧ onTrial s then
    let s := fallBackPtr s
    .next (beginEntry (record s 0x0021 sevFree 0 0xFF 0 (natLe 1 1 ++ natLe 1 (fwPtr s).active)) 0x14)
  else .next s

/-! ## Staging and the stages (R703, R707, R708, R715) -/

/-- UPD_STATUS.STAGE: 0 IDLE, 1 DOWNLOADING, 2 VERIFYING, 3 ACTIVATING (R716). -/
def updStage (s : State) : Nat :=
  match s.upd.req with
  | some r => if r.op = 1 then 1 else if r.op = 4 then 3 else 2
  | none => b2n s.upd.loading

/-- A staged operation of the registers ends (R718). -/
def updDone (s : State) (status : Nat) : State :=
  let s := setUpd s { s.upd with req := none }
  setLive (setLive s Reg.UPD_RESULT 7 0 status) Reg.UPD_RESULT 8 8 1

/-- The status of a refusal that the spec does not state is a free one of the failures of R180 (log 56). -/
def updDoneFree (s : State) : State := updDone (drawn s) (freeFailure s)

/-- Whether `bs` holds the header and the block table, and the first block among those from `from_` on that has wholly
arrived and fails its CHECK (R707). -/
def failingBlock (bs : Bytes) (from_ : Nat) : Option Nat :=
  if bs.length < 256 ∨ bs.length < hOffset bs ∨ !fwHeaderOk bs then none
  else ((List.range (min (hBlocks bs) ((bs.length - hOffset bs) / 65536))).drop from_).find? (fun n => !blockGood bs n)

/-- Blocks of an image that have wholly arrived. -/
def arrivedBlocks (bs : Bytes) : Nat :=
  if bs.length < 256 ∨ bs.length < hOffset bs then 0 else (bs.length - hOffset bs) / 65536

/-- A failing block ends staging with AUTH_FAIL, and its index is reported. -/
def badStaging (s : State) (n : Nat) : State :=
  setLive (setUpd s { s.upd with staging := [], loading := false }) Reg.UPD_RESULT_DETAIL 31 0 n

/-- R715: in HALTED the image goes straight into slot A; accepted, a CONFIRMED record names A and a cold start begins. -/
def haltedStage (s : State) (img : Bytes) : State :=
  let s := setSlotFw s 0 { image := img }
  match imageCheck s img (fwPtr s).floor false with
  | some st => updDone s st
  | none =>
    let s := setSlotFw s 0 { image := img, mark := some (markOf img) }
    let s := updDone (writePtr s { fwPtr s with active := 0, trial := false, boots := 0 }) 0
    toRom (setBoot s { s.boot with halt := 0 }) 1 (powerOnCause s)

/-- STAGE (R707): `data` are the bytes that the host delivers; LEN is the bytes offered (R77, R78). -/
def execStage (data : Bytes) (undelivered : Bool) (s : State) : Out :=
  match s.upd.req with
  | none => .next s
  | some r =>
    let img := fit r.len data
    if r.op ≠ 1 then .next s
    else if s.boot.phase ≠ .halted ∧ s.ftl.state ≠ .ready then .next (updDone s 0x05)
    else if undelivered ∨ r.len < hTotal img then .next (updDone s 0x01)
    else if hTotal img < r.len then .next (updDone s 0x10)
    else match failingBlock img 0 with
      | some n => .next (updDone (badStaging s n) 0x08)
      | none =>
        if s.boot.phase = .halted then .next (haltedStage s img)
        else .next (updDone (setUpd s { s.upd with staging := img, loading := false }) 0)

/-- Stage 2: all of R703 over staging; the mark is cleared, the image written, and the mark written last. The status of
the check that fails, with the state. -/
def writeSlot (s : State) (n : Nat) : State × Option Nat :=
  let img := s.upd.staging
  match imageCheck s img (fwPtr s).floor true with
  | some st => (s, some st)
  | none => (setSlotFw (setSlotFw s n { image := img }) n { image := img, mark := some (markOf img) }, none)

/-- REFUSED of a slot: its SVN is below the floor or R703 fails (R719). -/
def slotRefused (s : State) (n : Nat) : Bool := (imageCheck s (slotFw s n).image (fwPtr s).floor false).isSome

/-- A staged operation that would write or activate a slot runs: refused while TRIAL with NOT_AUTHORISED, and on the ACTIVE
slot (R708, R711). -/
def slotOp (s : State) (op : Nat) (f : State → Nat → State) : Out :=
  match s.upd.req with
  | none => .next s
  | some r =>
    let n := namedSlot s r.slot
    if r.op ≠ op ∨ s.boot.phase = .halted then .next s
    else if (fwPtr s).trial then .next (updDone s 0x11)
    else if n = (fwPtr s).active then .next (updDoneFree s)
    else .next (f s n)

/-- UPD_WRITE_SLOT (R708), as CA 000. -/
def execUpdWriteSlot (s : State) : Out :=
  slotOp s 2 (fun s n => updDone (writeSlot s n).1 ((writeSlot s n).2.getD 0))

/-- UPD_WRITE_ACTIVATE (R708), as CA 001. -/
def execUpdWriteActivate (s : State) : Out :=
  slotOp s 3 (fun s n =>
    match writeSlot s n with
    | (s, some st) => updDone s st
    | (s, none) => updDone (activateSlot s n) 0)

/-- UPD_ACTIVATE_SLOT (R708), as CA 010: a slot that R703 refuses gives that check's status. -/
def execUpdActivateSlot (s : State) : Out :=
  slotOp s 4 (fun s n =>
    match imageCheck s (slotFw s n).image (fwPtr s).floor false with
    | some st => updDone s st
    | none => if slotValid s n then updDone (activateSlot s n) 0 else updDoneFree s)

/-! ## NVMe (R707, R714) -/

/-- FIRMWARE_IMAGE_DOWNLOAD (R707): `data` are the bytes of the piece. -/
def execFirmwareImageDownload (ctrl : Nat) (data : Bytes) (s : State) : Out :=
  adminCmd s ctrl 0x11 true (fun s y =>
    let n := (eDw y.entry 10 + 1) * 4
    let off := eDw y.entry 11 * 4
    let old := if off = 0 then [] else s.upd.staging
    if s.ftl.state ≠ .ready then badField s y
    else if off ≠ old.length then cqe s y (nstat 1 0x14 true) 0 0
    else if off % 4096 ≠ 0 ∨ 33554432 < off + n then badField s y
    else
      let img := old ++ fit n data
      match failingBlock img (arrivedBlocks old) with
      | some b => cqe (badStaging s b) y (hostStatus s 0x08 0xFF false) 0 0
      | none =>
        let more := decide (img.length < 256) || decide (img.length < hTotal img)
        cqeOk (setUpd s { s.upd with staging := img, loading := more }) y)

/-- FIRMWARE_COMMIT (R714). -/
def execFirmwareCommit (ctrl : Nat) (s : State) : Out :=
  adminCmd s ctrl 0x10 true (fun s y =>
    let d := eDw y.entry 10
    let fs := d % 8
    let ca := d / 8 % 8
    let n := namedSlot s fs
    if 2 < ca then badField s y
    else if 2 < fs then cqe s y (nstat 1 0x06 true) 0 0
    else if (fwPtr s).trial then cqe s y (nstat 1 0x13 true) 0 0
    else if n = (fwPtr s).active then cqe s y (nstat 1 0x06 true) 0 0
    else if ca = 2 then
      (if slotValid s n && !slotRefused s n then cqeOk (activateSlot s n) y else cqe s y (nstat 1 0x07 true) 0 0)
    else match writeSlot s n with
      | (s, some _) => cqe s y (nstat 1 0x07 true) 0 0
      | (s, none) => cqeOk (if ca = 1 then activateSlot s n else s) y)

end Sys2Proof.Machine
end

