-- ==== Sys2Proof/Machine/RegViews.lean ====
section
/-! DEFINITION. What the read-only registers of the device, the loader, the fabric, the signal box, the power manager, the
flash channels and the map engine show: words computed from State (the register maps of 01 to 08). A register that is not
named here shows its stored value. -/

namespace Sys2Proof.Machine

/-- A register word from its fields (hi, lo, value); reserved bits are 0 (R10). -/
def wordOf (l : List (Nat × Nat × Nat)) : Nat := l.foldl (fun w f => w + f.2.2 % 2 ^ (f.1 - f.2.1 + 1) * 2 ^ f.2.1) 0

/-- A count that saturates at `w` bits. -/
def satN (w n : Nat) : Nat := min n (2 ^ w - 1)

/-- A number in two's complement of `w` bits. -/
def twos (w : Nat) (i : Int) : Nat := (i % ((2 ^ w : Nat) : Int)).toNat

/-- One half of a 64-bit quantity: the low half at the address of _LO, the high half four above (R7). -/
def half (hi : Bool) (v : Nat) : Nat := if hi then v / 2 ^ 32 % 2 ^ 32 else v % 2 ^ 32

/-- How many of the first `n` satisfy `p`. -/
def countN (n : Nat) (p : Nat → Bool) : Nat := ((List.range n).filter p).length

/-- How many units of a list are in a state. -/
def unitsIn (s : State) (l : List Nat) (st : UState) : Nat := (l.filter (fun u => decide ((unitOf s u).state = st))).length

/-! ## DEV (R26, R27, R49, R50) -/

/-- DEV_UNIT_ROLE of unit `n` (R26). -/
def unitRoleWord (s : State) (n : Nat) : Nat :=
  let r := unitOf s n
  wordOf [(24, 17, r.role), (16, 8, r.owner), (7, 5, r.state.code), (4, 0, kindOf n)]

/-- DEV_UNIT_GEN of unit `n` as it is now (R27). -/
def unitGenWord (s : State) (n : Nat) : Nat :=
  let r := unitOf s n
  wordOf [(23, 16, if r.state = .bound then r.serves else 0xFF), (15, 0, r.gen)]

/-- The device is a member of a federation (R632). -/
def isMember (s : State) : Bool := s.jct.joined && !s.jct.duplicate

/-- The DEV block. -/
def viewDev (s : State) (r : RegRow) (i a : Nat) : Nat :=
  if r.base = Reg.DEV_UNIT_ROLE then unitRoleWord s i
  else if r.base = Reg.DEV_UNIT_GEN then Tab.getD s.dev.genLatch i 0
  else if r.base = Reg.DEV_SERIAL_LO then half false s.dev.serial
  else if r.base = Reg.DEV_SERIAL_HI then half true s.dev.serial
  else if r.base = Reg.DEV_LEVEL then wordOf [(16, 16, b2n (isMember s)), (15, 0, if isMember s then nodeOf s else 0)]
  else liveWord s a

/-! ## CFG (R88, R98) -/

/-- The code of a loader state (R74). -/
def lStateCode (x : LState) : Nat :=
  match x with
  | .idle => 0 | .fetchHead => 1 | .authenticate => 2 | .fetchBlocks => 3 | .screen => 4 | .apply => 5 | .store => 6

/-- The CFG block. -/
def viewCfg (s : State) (r : RegRow) (a : Nat) : Nat :=
  let c := s.cfg
  let seq : Option Stream → Nat := fun x => (x.map (·.seq)).getD 0
  if r.base = Reg.CFG_STATUS then
    let target := match c.cur with
      | some q =>
        if q.kind = 2 ∨ (q.kind = 0 ∧ c.state = .fetchHead ∧ q.tag.isSome ∧ 32 ≤ q.target ∧ q.target < 72) then q.target else 0xFF
      | none => 0xFF
    wordOf [(23, 16, target), (15, 8, c.queue.length), (3, 0, lStateCode c.state)]
  else if r.base = Reg.CFG_ACTIVE_SEQ_LO then half false (seq c.active)
  else if r.base = Reg.CFG_ACTIVE_SEQ_HI then half true (seq c.active)
  else if r.base = Reg.CFG_CANDIDATE_SEQ_LO then half false (seq c.candidate)
  else if r.base = Reg.CFG_CANDIDATE_SEQ_HI then half true (seq c.candidate)
  else if r.base = Reg.CFG_FLOOR_LO then half false c.floor
  else if r.base = Reg.CFG_FLOOR_HI then half true c.floor
  else liveWord s a

/-! ## FAB (R132–R143) -/

/-- The code of a fen state (R122). -/
def fStateCode (x : FState) : Nat :=
  match x with
  | .empty => 0 | .loading => 1 | .running => 2 | .draining => 3 | .fencing => 4 | .held => 5 | .scrubbing => 6
  | .test => 7 | .offline => 8

/-- FAB_FEN_STATUS of fen `f` (R134); a channel fen has one spare tile, a bulk fen four (R103). -/
def fenStatusWord (s : State) (f : Nat) : Nat :=
  let x := fenOf s f
  wordOf [(22, 22, b2n (isAliasTarget s (32 + f))), (21, 21, b2n (isAliased s f)), (20, 20, b2n x.overpower),
    (19, 16, (if f < 32 then 1 else 4) - x.failedTiles), (15, 8, satN 8 x.inside.length), (3, 0, fStateCode x.state)]

/-- Word `k` of the IMAGE_ID of the image that fen `f` holds (R143). -/
def imageIdWord (s : State) (f k : Nat) : Nat := ((fenOf s f).image.map (fun m => leAt m.imageId (4 * k) 4)).getD 0

/-- The FCLK0 frequency of fen `f` now: RUN_MHZ while its logic is clocked and its domain is ON, 0 while the clock is stopped
(R112, R137, R198); a fen's island follows it (R199, R234). -/
def fenMhz (s : State) (f : Nat) : Nat :=
  if fenClocked (fenOf s f) && decide ((islandAt s (32 + f)).dom = .on) then runMhz s f else 0

/-- The FAB block but for the control windows. -/
def viewFab (s : State) (r : RegRow) (i a : Nat) : Nat :=
  let im : (FImage → Nat) → Nat := fun g => ((fenOf s i).image.map g).getD 0
  if r.base = Reg.FAB_STATUS then
    wordOf [(21, 16, countN 40 (fun f => decide ((fenOf s f).state = .offline))),
      (13, 8, countN 40 (fun f => decide ((fenOf s f).state = .fencing) || decide ((fenOf s f).state = .held))),
      (5, 0, countN 40 (fun f => decide ((fenOf s f).state = .running)))]
  else if (a - Reg.FAB_FEN_STATUS) % 0x40 = 0 ∧ a < Reg.FAB_FEN_STATUS + 40 * 0x40 then fenStatusWord s ((a - Reg.FAB_FEN_STATUS) / 0x40)
  else if r.base = Reg.FAB_FEN_CLOCK then
    wordOf [(29, 20, (islandAt s (32 + i)).planMhz), (19, 10, im (·.fmax)),
      (9, 0, fenMhz s i)]
  else if r.base = Reg.FAB_FEN_ALIAS then wordOf [(24, 16, Tab.getD s.fab.aliasOwner i 0)]
  else if r.base = Reg.FAB_FEN_USAGE then wordOf [(25, 18, im (·.macs)), (17, 0, im (·.cells))]
  else if r.base = Reg.FAB_FEN_MEM then wordOf [(23, 16, im (·.tiles)), (11, 0, im (·.memKib))]
  else if r.base = Reg.FAB_FEN_POWER then wordOf [(31, 16, live s a 31 16), (15, 0, im (·.power))]
  else if r.base = Reg.FAB_FEN_IMAGE_ID0 then imageIdWord s i 0
  else if r.base = Reg.FAB_FEN_IMAGE_ID1 then imageIdWord s i 1
  else if r.base = Reg.FAB_FEN_IMAGE_ID2 then imageIdWord s i 2
  else if r.base = Reg.FAB_FEN_IMAGE_ID3 then imageIdWord s i 3
  else liveWord s a

/-! ## SBX (R187–R197) -/

/-- The oldest siding entry that a function sees: the device's oldest for instance 0, otherwise the instance's own
(R176, R190). -/
def sidingOldest (s : State) (i : Nat) : Option Siding :=
  if i = 0 then s.sbx.siding.head? else s.sbx.siding.find? (fun e => e.inst == i)

/-- The 32 bytes of an entry's header (R177). -/
def sidingHeader (e : Siding) : Bytes :=
  natLe 2 e.inst ++ natLe 1 e.disp ++ natLe 1 e.status ++ natLe 1 e.unit ++ natLe 1 e.src ++ natLe 2 e.tag ++
    natLe 2 e.destGen ++ natLe 2 e.payload.length ++ natLe 4 e.cookie ++ natLe 8 (e.time % 2 ^ 40) ++ natLe 2 e.node ++ zeros 6

/-- Siding entries that a function sees. -/
def sidingCount (s : State) (i : Nat) : Nat :=
  if i = 0 then s.sbx.siding.length else (s.sbx.siding.filter (fun e => e.inst == i)).length

/-- SBX_SIDING_STATUS as a function sees it (R190): the device's, or the instance's own. -/
def sidingStatus (s : State) (i : Nat) : Nat :=
  wordOf [(31, 16, live s (if i = 0 then Reg.SBX_SIDING_STATUS else pageSiding i) 31 16), (12, 0, sidingCount s i)]

/-- SBX_SIDING_HEAD `k` (R191). -/
def sidingHeadWord (s : State) (i k : Nat) : Nat := ((sidingOldest s i).map (fun e => leAt (sidingHeader e) (4 * k) 4)).getD 0

/-- SBX_SIDING_DATA `w` (R192). -/
def sidingDataWord (s : State) (i w : Nat) : Nat := ((sidingOldest s i).map (fun e => leAt e.payload (4 * w) 4)).getD 0

/-- Portions that wait. -/
def waitingPortions (s : State) : Nat := (s.sbx.store.filter (fun p => p.2.waiting)).length

/-- SUSPENDED of R196. -/
def isSuspended (s : State) (i : Nat) : Bool := eff s (Reg.SBX_SHARE + 4 * i) 16 0 == 0

/-- The SBX block. -/
def viewSbx (s : State) (r : RegRow) (i a : Nat) : Nat :=
  let b := s.sbx
  if r.base = Reg.SBX_EPOCH_COUNT_LO then half false b.epochs
  else if r.base = Reg.SBX_EPOCH_COUNT_HI then half true b.epochs
  else if r.base = Reg.SBX_ALLOWANCE then satN 32 b.allowance
  else if r.base = Reg.SBX_REMAINING then twos 32 b.remaining
  else if r.base = Reg.SBX_CLASS_GATE then wordOf [(15, 1, b.gates / 2)]
  else if r.base = Reg.SBX_WB_LIMIT then satN 32 b.wbLimit
  else if r.base = Reg.SBX_DIRTY then satN 32 b.dirty
  else if r.base = Reg.SBX_TICKETS then satN 17 b.store.length
  else if r.base = Reg.SBX_WAITING then satN 17 (waitingPortions s)
  else if r.base = Reg.SBX_SIDING_STATUS then sidingStatus s 0
  else if r.base = Reg.SBX_SIDING_HEAD then sidingHeadWord s 0 i
  else if r.base = Reg.SBX_SIDING_DATA then sidingDataWord s 0 i
  else if r.base = Reg.SBX_CREDIT then twos 32 (Tab.getD b.credit i 0)
  else if Reg.SBX_INST_STATUS ≤ a ∧ a < Reg.SBX_INST_STATUS + 4 * 512 then
    let k := (a - Reg.SBX_INST_STATUS) / 4
    wordOf [(17, 17, b2n (isSuspended s k)), (16, 0, satN 17 (entriesOf s k))]
  else if r.base = Reg.SBX_STATION then wordOf [(15, 8, queueCap i), (7, 0, queueFree s i)]
  else liveWord s a

/-! ## PWR (R224–R234) -/

/-- The code of a peat state (R209). -/
def peatCode (x : PeatState) : Nat :=
  match x with
  | .unfused => 0 | .ramp => 1 | .charging => 2 | .ready => 3 | .measuring => 4 | .holdup => 5 | .fault => 6

/-- The code of a domain state (R234). -/
def domCode (x : DomState) : Nat := match x with | .on => 0 | .ret => 1 | .off => 2

/-- HOURS_SINCE the last OK measurement (R231). -/
def hoursSince (s : State) : Nat := (s.pwr.measAt.map (fun t => satN 16 ((opTime s - t) / 3600000))).getD 0

/-- The PWR block. -/
def viewPwr (s : State) (r : RegRow) (i a : Nat) : Nat :=
  let p := s.pwr
  if r.base = Reg.PWR_STATUS then
    wordOf [(24, 16, twos 9 p.tModel), (10, 10, b2n p.powerLoss), (9, 9, b2n p.capHit), (8, 8, b2n p.heatLimited),
      (7, 6, p.thermStage), (5, 4, p.peatStage), (3, 0, peatCode p.peat)]
  else if r.base = Reg.PWR_PEAT_FUSE then wordOf [(31, 18, p.cmaxMf), (17, 8, p.vmaxDv), (7, 0, p.ceilQj)]
  else if r.base = Reg.PWR_MEAS_STATUS then
    wordOf [(25, 24, live s a 25 24), (23, 16, live s a 23 16), (15, 0, hoursSince s)]
  else if r.base = Reg.PWR_VIN then wordOf [(31, 16, satN 16 p.iinMa), (15, 0, satN 16 p.vinMv)]
  else if r.base = Reg.PWR_PEAT_MV then wordOf [(31, 16, satN 16 (vTarget p)), (15, 0, satN 16 p.vMv)]
  else if r.base = Reg.PWR_CAP_UF then satN 32 p.cMeas
  else if r.base = Reg.PWR_USABLE_MJ then satN 32 p.usable
  else if r.base = Reg.PWR_FULL_MJ then satN 32 p.full
  else if r.base = Reg.PWR_RESERVE_MJ then satN 32 p.reserve
  else if r.base = Reg.PWR_WB_KIB then satN 32 s.sbx.wbLimit
  else if r.base = Reg.PWR_FLUSH_NJ_MEAS then satN 32 (flushNjMeas s)
  else if r.base = Reg.PWR_IN_MW then satN 32 p.inMw
  else if r.base = Reg.PWR_CHG_MW then satN 32 p.chgMw
  else if r.base = Reg.PWR_BASE_MW then satN 32 p.baseMw
  else if r.base = Reg.PWR_TICK_MW then satN 32 p.tickMw
  else if r.base = Reg.PWR_DIE_MW then satN 32 p.dieMw
  else if r.base = Reg.PWR_TEMP then
    wordOf [(23, 16, twos 8 (p.maxTemps.getD i 0)), (15, 8, p.offsets.getD i 0), (7, 0, twos 8 (p.temps.getD i 0))]
  else if r.base = Reg.PWR_CLASS_MJ then satN 32 (Tab.getD p.booked (i + 1) 0 / 1000000)
  else if r.base = Reg.PWR_ISLAND then
    let x := islandAt s i
    let now : Nat × Nat :=
      if 32 ≤ i ∧ i < 72 then (fenMhz s (i - 32), if fenMhz s (i - 32) = 0 then x.point else pointFor i x.minPoint (fenMhz s (i - 32)))
      else (x.mhz, x.point)
    if isIslandKey i then wordOf [(31, 21, now.1), (18, 14, x.group), (13, 12, domCode x.dom), (2, 0, now.2)] else 0
  else liveWord s a

/-! ## FCH (R261–R270) -/

/-- The code of a channel state (R241). -/
def flStateCode (x : FlState) : Nat :=
  match x with
  | .absent => 0 | .probing => 1 | .training => 2 | .ready => 3 | .retraining => 4 | .offline => 5 | .test => 6

/-- Dies that a channel can use: present and not offline, while the channel is in service. -/
def diesOnline (c : FChan) : Nat :=
  if c.state = .absent ∨ c.state = .offline then 0
  else countN 32 (fun d => bitOf c.present d && !bitOf c.dieOffline d)

/-- Units that the rebuild in progress has still to rewrite (R263). -/
def rebuildLeft (s : State) : Nat :=
  match s.fch.losses with
  | [] => 0
  | l :: _ => (unitsOn s l).length

/-- The FCH block. -/
def viewFch (s : State) (r : RegRow) (i a : Nat) : Nat :=
  let c := chanOf s i
  let inState : FlState → Nat := fun st => countN 32 (fun k => decide ((chanOf s k).state = st))
  if r.base = Reg.FCH_STATUS then
    wordOf [(29, 24, inState .offline), (21, 16, inState .training + inState .retraining),
      (13, 8, countN 32 (fun k => decide ((chanOf s k).state = .ready) && decide ((chanOf s k).rate = 6))), (5, 0, inState .ready)]
  else if r.base = Reg.FCH_PARITY_STATUS then
    match s.fch.losses with
    | [] => wordOf [(15, 8, 0xFF)]
    | l :: t =>
      wordOf [(31, 31, 1), (30, 24, satN 7 t.length), (16, 16, b2n (l.2 == 32)), (15, 8, l.1),
        (4, 0, if l.2 = 32 then 0 else l.2)]
  else if r.base = Reg.FCH_REBUILD then satN 32 (rebuildLeft s)
  else if r.base = Reg.FCH_STRIPE then wordOf [(13, 8, satN 6 s.fch.stripes.length), (5, 0, (stripeChans s).length)]
  else if r.base = Reg.FCH_CH_STATUS then
    wordOf [(21, 16, diesOnline c), (12, 12, b2n c.below), (10, 8, c.code), (6, 4, c.rate), (2, 0, flStateCode c.state)]
  else if r.base = Reg.FCH_CH_DIES then c.present % 2 ^ 32
  else if r.base = Reg.FCH_CH_DIE_OFFLINE then
    (if c.state = .offline then c.dieOffline ||| c.present else c.dieOffline) % 2 ^ 32
  else if r.base = Reg.FCH_CH_TRAIN then
    wordOf [(31, 24, twos 8 c.trainTemp), (15, 8, live s a 15 8), (2, 0, live s a 2 0)]
  else liveWord s a

/-! ## FTL (R309, R317, R318, R341–R343) -/

/-- The code of the map engine's state (R309). -/
def tStateCode (x : TState) : Nat := match x with | .starting => 0 | .recovering => 1 | .ready => 2 | .readOnly => 3

/-- W_MAX and W_MIN: the highest and lowest wear of a closed dense group; 0 while there is none (R341; DESIGN CHOICE, log 209). -/
def wearSpan (s : State) : Nat × Nat :=
  let l := (s.ftl.groups.filter (fun p => p.2.dense && p.2.isClosed)).map (fun p => wearOf s p.2)
  (l.foldl max 0, (leastBy id l).getD 0)

/-- Fewest blocks left in the pool of any usable die; 0 while there is none (R341; DESIGN CHOICE, log 209). -/
def worstPool (s : State) : Nat :=
  let l := s.ftl.pools.filter (fun p =>
    let c := chanOf s (p.1 / 32)
    decide (c.state ≠ .absent) && decide (c.state ≠ .offline) && bitOf c.present (p.1 % 32) && !bitOf c.dieOffline (p.1 % 32))
  (leastBy id (l.map (fun p => p.2.length))).getD 0

/-- The FTL block. -/
def viewFtl (s : State) (r : RegRow) (i a : Nat) : Nat :=
  let f := s.ftl
  let an : (Anchor → Nat) → Nat := fun g => (f.anchor.map g).getD 0
  let life : Nat → Nat := fun k => f.totals.getD k 0 + f.since.getD k 0
  if r.base = Reg.FTL_STATUS then
    wordOf [(9, 9, b2n (writesHeld s)), (8, 8, b2n f.ckpt.isSome), (7, 4, f.lastPath), (3, 0, tStateCode f.state)]
  else if r.base = Reg.FTL_SEQ_LO then half false f.nextSeq
  else if r.base = Reg.FTL_SEQ_HI then half true f.nextSeq
  else if r.base = Reg.FTL_CKPT_S0_LO then half false (an (·.s0))
  else if r.base = Reg.FTL_CKPT_S0_HI then half true (an (·.s0))
  else if r.base = Reg.FTL_CKPT_NUM_LO then half false (an (·.num))
  else if r.base = Reg.FTL_CKPT_NUM_HI then half true (an (·.num))
  else if r.base = Reg.FTL_SPACE then
    wordOf [(31, 16, satN 16 (freeGroups s false).length), (15, 0, satN 16 (freeGroups s true).length)]
  else if r.base = Reg.FTL_SLUICE_STATUS then wordOf [(7, 0, sluiceFill s)]
  else if r.base = Reg.FTL_JOURNAL then wordOf [(11, 0, satN 12 (f.jpages.length + ceilDiv f.held.length 252))]
  else if r.base = Reg.FTL_RECOVERY then wordOf [(31, 16, satN 16 (s.boot.phaseMs.getD 5 0))]
  else if r.base = Reg.FTL_HEALTH then
    wordOf [(23, 16, live s a 23 16), (15, 8, satN 8 (pctUsed s)), (7, 0, availSpare s)]
  else if r.base = Reg.FTL_SPARE then wordOf [(31, 16, live s a 31 16), (15, 0, satN 16 (worstPool s))]
  else if r.base = Reg.FTL_WEAR_SPAN then wordOf [(31, 16, satN 16 (wearSpan s).1), (15, 0, satN 16 (wearSpan s).2)]
  else if r.base = Reg.FTL_DISCARD then wordOf [(15, 0, satN 16 f.secures.length)]
  else if decide (Reg.FTL_LIFE_TIER1_LO ≤ r.base) && decide (r.base ≤ Reg.FTL_LIFE_MINUTES_HI) then
    half ((r.base / 4) % 2 == 1) (life ((r.base - Reg.FTL_LIFE_TIER1_LO) / 8))
  else if r.base = Reg.FTL_TEMP_HIST then satN 32 (f.hist.getD i 0)
  else liveWord s a

end Sys2Proof.Machine
end

