-- ==== Sys2Proof/Machine/EngineViews.lean ====
section
/-! DEFINITION. What the read-only registers of the engines, the key store, the search unit, the cores and the DRAM channels
show: words computed from State (the register maps of 09 to 15). A register that is not named here shows its stored
value. -/

namespace Sys2Proof.Machine

/-! ## Engines (R363, R366, R409, R412, R431) -/

/-- Contexts in the hardware of element `e`: of its own unit, or, for the spare (index `n`), of the unit that it is bound to (R25,
R361, R397). -/
def engineContexts (s : State) (first n spare e : Nat) : Nat :=
  let b := unitOf s spare
  if e < n then hwContexts s spare (first + e) (first + e)
  else if b.state = .bound then hwContexts s spare b.serves spare else 0

/-- SERVES of a spare: the unit served while BOUND, 0xFF otherwise (R25). -/
def spareServes (s : State) (u : Nat) : Nat := if (unitOf s u).state = .bound then (unitOf s u).serves else 0xFF

/-- Units `first` to `first + n − 1`. -/
def unitRange (first n : Nat) : List Nat := (List.range n).map (· + first)

/-- The CMP block. -/
def viewCmp (s : State) (r : RegRow) (i a : Nat) : Nat :=
  let l := unitRange 120 16 ++ [180]
  if r.base = Reg.CMP_STATUS then
    wordOf [(31, 24, spareServes s 180), (20, 16, unitsIn s l .offline), (12, 8, unitsIn s l .test), (4, 0, unitsIn s l .active)]
  else if r.base = Reg.CMP_ENG_STATUS then
    wordOf [(23, 16, live s a 23 16), (12, 8, min 16 (engineContexts s 120 16 180 i))]
  else liveWord s a

/-- The CIP block. -/
def viewCip (s : State) (r : RegRow) (i a : Nat) : Nat :=
  let l := unitRange 136 8 ++ [181]
  if r.base = Reg.CIP_STATUS then
    wordOf [(31, 24, spareServes s 181), (19, 16, unitsIn s l .offline), (11, 8, unitsIn s l .test), (3, 0, unitsIn s l .active)]
  else if r.base = Reg.CIP_ENG_STATUS then
    let h := if i < 8 then 136 + i else 181
    wordOf [(24, 16, holdUsed s h / 1024), (12, 8, min 16 (engineContexts s 136 8 181 i)),
      (3, 0, (Tab.getD s.key.caches h []).length)]
  else liveWord s a

/-! ## KEY (R402, R408) -/

/-- The code of a key slot's state (R372). -/
def kStateCode (x : KState) : Nat := match x with | .free => 0 | .empty => 1 | .loaded => 2 | .pending => 3

/-- KEY_SLOT_STATUS of a slot (R408). -/
def slotStatusWord (s : State) (n : Nat) : Nat :=
  let k := slotOf s n
  wordOf [(26, 24, kStateCode k.state), (22, 20, k.kind), (19, 16, k.attr), (8, 0, k.owner)]

/-- Context handles bound to a slot (R374). -/
def slotHandles (s : State) (n : Nat) : Nat :=
  (s.key.handles.filter (fun p => (p.2.save.map (·.slot)) == some n)).length

/-- KEY_SLOT_USE of a slot as it is now. -/
def slotUseWord (s : State) (n : Nat) : Nat :=
  wordOf [(22, 17, satN 6 (slotHandles s n)), (16, 0, satN 17 (slotOf s n).users)]

/-- Slots in a state. -/
def slotsIn (s : State) (st : KState) : Nat := countN 4096 (fun n => decide ((slotOf s n).state = st))

/-- The KEY block. -/
def viewKey (s : State) (r : RegRow) (i a : Nat) : Nat :=
  if r.base = Reg.KEY_STATUS then
    wordOf [(31, 26, satN 6 (slotsIn s .pending)), (25, 13, slotsIn s .free), (12, 0, slotsIn s .loaded)]
  else if r.base = Reg.KEY_SLOT_STATUS then slotStatusWord s i
  else if r.base = Reg.KEY_SLOT_GEN then (Tab.getD s.key.latch i (0, 0)).1
  else if r.base = Reg.KEY_SLOT_USE then (Tab.getD s.key.latch i (0, 0)).2
  else liveWord s a

/-! ## DGT (R431, R434) -/

/-- The DGT block. -/
def viewDgt (s : State) (r : RegRow) (i j a : Nat) : Nat :=
  let l := unitRange 144 8
  if r.base = Reg.DGT_STATUS then
    wordOf [(23, 12, s.key.hmac.length), (11, 8, unitsIn s l .offline), (7, 4, unitsIn s l .test), (3, 0, unitsIn s l .active)]
  else if r.base = Reg.DGT_FEED_RESULT then
    wordOf [(17, 16, b2n (feedOf s i).opened), (8, 8, live s a 8 8), (7, 0, live s a 7 0)]
  else if r.base = Reg.DGT_FEED_DIGEST then leAt (feedOf s i).digest (4 * j) 4
  else liveWord s a

/-! ## ASU (R462, R465, R467) -/

/-- The code of a bank's state (R456). -/
def bStateCode (x : BState) : Nat :=
  match x with
  | .service => 0 | .copying => 1 | .spared => 2 | .test => 3 | .returning => 4 | .offline => 5

/-- A bank is served by its spare (R456). -/
def spareBank (b : Bank) : Bool := match b.state with | .spared | .test | .returning => b.spare.isSome | _ => false

/-- The bank that a search spare serves, 0xFF when none (R462). -/
def bankServed (s : State) (spare : Nat) : Nat :=
  ((List.range 64).find? (fun b => spareBank (bankOf s b) && (bankOf s b).spare == some spare)).getD 0xFF

/-- Entries of a bank. -/
def inBank (g b : Nat) : Bool := g / 8192 == b

/-- The ASU block. -/
def viewAsu (s : State) (r : RegRow) (i a : Nat) : Nat :=
  if r.base = Reg.ASU_STATUS then
    wordOf [(31, 24, bankServed s 185), (23, 16, bankServed s 184), (9, 8, min 2 s.asu.copies.length),
      (6, 0, countN 64 (fun b => decide ((bankOf s b).state = .offline)))]
  else if r.base = Reg.ASU_SCRUB then wordOf [(31, 16, satN 16 s.asu.lastPass)]
  else if r.base = Reg.ASU_BANK then
    let b := bankOf s i
    wordOf [(31, 31, b2n (s.asu.lost.any (inBank · i))), (26, 24, bStateCode b.state),
      (21, 20, if spareBank b then (b.spare.getD 183) - 183 else 0),
      (13, 0, (s.asu.entries.filter (fun p => inBank p.1 i)).length)]
  else liveWord s a

/-! ## GLY (R494, R495) -/

/-- The code of a core's state (R487). -/
def cStateCode (x : CState) : Nat :=
  match x with
  | .scrubbing => 0 | .stopped => 1 | .running => 2 | .waiting => 3 | .faulted => 4 | .held => 5 | .test => 6 | .offline => 7

/-- Cores, the spares among them, in a state. -/
def coresIn (s : State) (st : CState) : Nat := countN 50 (fun c => decide ((coreOf s c).state = st))

/-- The GLY block. -/
def viewGly (s : State) (r : RegRow) (i a : Nat) : Nat :=
  if r.base = Reg.GLY_STATUS then
    wordOf [(31, 24, spareServes s 183), (23, 16, spareServes s 182), (11, 6, coresIn s .faulted),
      (5, 0, coresIn s .running + coresIn s .waiting)]
  else if r.base = Reg.GLY_CORE_STATUS then
    let k := coreOf s (regCore s i)
    wordOf [(23, 16, live s a 23 16), (15, 8, satN 8 k.inside.length), (2, 0, cStateCode k.state)]
  else liveWord s a

/-! ## DRC (R550, R553, R556) -/

/-- The code of a DRAM channel's state (R544). -/
def dStateCode (x : DState) : Nat :=
  match x with
  | .absent => 0 | .training => 1 | .ready => 2 | .retraining => 3 | .selfRefresh => 4 | .offline => 5 | .test => 6

/-- One bit for each DRAM channel that satisfies `p`. -/
def dramBits (p : Nat → Bool) : Nat := (List.range 4).foldl (fun w c => w + b2n (p c) * 2 ^ c) 0

/-- The DRC block. -/
def viewDrc (s : State) (r : RegRow) (i a : Nat) : Nat :=
  let st : DState → Nat → Bool := fun x c => decide ((dramOf s c).state = x)
  let c := dramOf s i
  if r.base = Reg.DRC_STATUS then
    wordOf [(12, 12, b2n (dramAllLost s)), (11, 8, dramBits (fun c => st .training c || st .retraining c)),
      (7, 4, dramBits (st .offline)), (3, 0, dramBits (dramIn s))]
  else if r.base = Reg.DRC_CH_STATUS then
    wordOf [(21, 16, c.sizeGib), (12, 12, b2n c.below), (8, 8, b2n c.ranks2), (6, 4, c.rate), (2, 0, dStateCode c.state)]
  else if r.base = Reg.DRC_CH_TRAIN then
    wordOf [(31, 24, twos 8 c.trainTemp), (15, 8, live s a 15 8), (2, 0, live s a 2 0)]
  else liveWord s a

end Sys2Proof.Machine
end

