-- ==== Sys2Proof/Machine/Recorder.lean ====
section
/-! DEFINITION. The event recorder's commands (22_event_recorder.md): the mirror page, the end of a second, reading a record
and clearing the ring. -/

namespace Sys2Proof.Machine

/-- Change the recorder's state. -/
def setEvr (s : State) (e : Evr) : State := { s with evr := e }

/-- The NOR device programs or erases, and may fail: NOR_FAIL is set then, and recording goes on in the mirror alone (R725). That it
fails is a free value. -/
def useNor (s : State) : State :=
  drawn (setEvr s { s.evr with norFail := s.evr.norFail || Config.norFails s.freeCount })

/-- MIRROR_PAGE_FLUSH (R724): 1 s after its first record the page is written. Whether the NOR device failed to program one of its records is
known then (R725; DESIGN CHOICE, log 130). -/
def execMirrorPageFlush (s : State) : Out :=
  .next (if s.evr.page.isEmpty then s else flushMirror (useNor s))

/-- SUPPRESSED (R724): the end of the second. -/
def execSuppressed (s : State) : Out := .next (setEvr (endSecond s) { (endSecond s).evr with secondSince := s.now })

/-- The record of a SEQ, from NOR, else from the mirror or the page being filled (R725); none in a range that a clear is
removing from step 2 on (R727). -/
def recordOf (s : State) (seq : Nat) : Option EventRec :=
  let e := s.evr
  let hidden := match e.clear with
    | some c => decide (2 ≤ c.step) && decide (c.first ≤ seq) && decide (seq ≤ c.last)
    | none => false
  if hidden then none else (e.nor ++ e.mirror ++ e.page).find? (fun r => r.seq == seq)

/-- EVR_READ (R730): the record that EVR_READ_SEL names is copied as one snapshot. -/
def execEvrRead (s : State) : Out :=
  if !s.evr.reading then .next s
  else
    let seq := effWord s Reg.EVR_READ_SEL_LO + effWord s Reg.EVR_READ_SEL_HI * 2 ^ 32
    .next (setEvr s { s.evr with reading := false, snap := (recordOf s seq).map recordBytes })

/-- An operator-attested session that is open, by its ID (R667, R731). -/
def clearSession (s : State) : Option Nat := (s.tru.sessions.find? (fun x => isOperator x.fn && isAttested s x)).map (·.id)

/-- An accepted set of the CLEAR group starts R727. -/
def startClear (s : State) : State :=
  let seqs := (s.evr.nor ++ s.evr.mirror ++ s.evr.page).map (·.seq)
  let first := seqs.foldl min s.evr.nextSeq
  setEvr s { s.evr with clear := some { first := first, last := s.evr.nextSeq - 1, session := (clearSession s).getD 0 } }

/-- The CLEAR record goes to both copies, then the records that waited (R727 step 3). -/
def writeCleared (s : State) (c : EvrClear) : State :=
  let l := s.evr.waiting
  let s := writeRecord (setEvr s { s.evr with waiting := [] }) {
    seq := 0, opTime := opTime s, cycles := powerCycles s, event := 0x0004, sev := sevFree,
    detail := natLe 8 c.first ++ natLe 8 c.last ++ natLe 2 c.session }
  flushMirror (l.foldl writeRecord s)

/-- EVR_CLEAR (R727): the step of the clear in progress is carried out. Records that arrive between steps 3 and 4 wait too and are
written at its end. Step 2 erases the NOR ring (R725). -/
def execEvrClear (s : State) : Out :=
  match s.evr.clear with
  | none => .next s
  | some c =>
    match c.step with
    | 1 => .next (setEvr s { s.evr with clear := some { c with step := 2 } })
    | 2 =>
      let s := useNor s
      .next (setEvr s { s.evr with clear := some { c with step := 3 }, nor := [], mirror := [], page := [] })
    | 3 =>
      let s := writeCleared s c
      .next (setEvr s { s.evr with clear := some { c with step := 4 } })
    | _ => .next (s.evr.waiting.foldl writeRecord (setEvr s { s.evr with clear := none, waiting := [] }))

end Sys2Proof.Machine
end

