-- ==== Sys2Proof/Machine/Test.lean ====
section
/-! DEFINITION. The test controller, unit 195 (23_test_and_availability.md): taking a unit out for test and returning it
(R733–R737), the rotation, the device self-test (R739), and injections (R740–R743). -/

namespace Sys2Proof.Machine

/-! ## Spares and conditions (R734, R737) -/

/-- The spares that may serve unit `u` (R22, R734). -/
def sparesFor (u bank : Nat) : List Nat :=
  match kindOf u with
  | 0x06 => [180]
  | 0x07 => [181]
  | 0x04 | 0x05 => [182, 183]
  | 0x09 => [if bank < 32 then 184 else 185]
  | _ => []

/-- A free spare for unit `u`. -/
def spareFree (s : State) (u bank : Nat) : Option Nat :=
  (sparesFor u bank).find? (fun p => decide ((unitOf s p).state = .idle) && !s.asu.banks.any (fun b => b.2.spare == some p))

/-- The spare that takes over with a taking: none where its report found the queue full (R737). -/
def spareForTaking (s : State) (t : Taking) : Option Nat := if t.atOnce then none else spareFree s t.unit t.bank

/-- The own core of unit `u` may be taken out: STOPPED or HELD; a system core is parked by system firmware and counts as
STOPPED (R493, R734). -/
def coreParked (s : State) (u : Nat) : Bool :=
  match (coreOf s (coreIndex s u)).state with
  | .stopped | .held => true
  | .running | .waiting => decide (u < 88)
  | _ => false

/-- The conditions of R734 on taking unit `u` out. -/
def mayTake (s : State) (t : Taking) : Bool :=
  let u := t.unit
  match kindOf u with
  | 0x06 | 0x07 | 0x08 => inService s u
  | 0x04 | 0x05 => coreIndex s u == u - 72 && coreParked s u && (t.cause == 0 || (spareFree s u 0).isSome)
  | 0x09 => decide ((bankOf s t.bank).state = .service) && (t.cause == 0 ||
      ((spareFree s u t.bank).isSome && !s.asu.copies.isEmpty))
  | 0x02 | 0x03 => decide ((fenOf s (u - 32)).state = .empty)
  | 0x01 => decide ((chanOf s u).state = .ready) && s.fch.losses.isEmpty &&
      (List.range 32).all (fun k => k == u || (decide ((chanOf s k).state ≠ .offline) && decide ((chanOf s k).state ≠ .test)))
  | 0x0A => decide ((dramOf s (u - 168)).state = .ready) && (dramLive s).any (· != u - 168)
  | _ => false

/-- At most 4 units are in test at once, and at most one of each kind that has a spare (R737). -/
def testRoom (s : State) (t : Taking) : Bool :=
  decide (s.tst.inTest.length < 4) && ((sparesFor t.unit t.bank).isEmpty || t.cause == 0 ||
    !s.tst.inTest.any (fun x => kindOf x.unit == kindOf t.unit))

/-! ## Taking a unit out (R735) -/

/-- Bind a spare to the unit that it serves (R25, R27). -/
def bindSpare (s : State) (p u : Nat) : State := setUnit s p { unitOf s p with state := .bound, serves := u }

/-- The key cache and the hold buffer of an engine's hardware are empty: it passes on no context and no key (R398). -/
def clearHw (s : State) (h : Nat) : State :=
  { s with key := { s.key with
    caches := Tab.erase s.key.caches h, hold := Tab.erase s.key.hold h, holdWait := Tab.erase s.key.holdWait h } }

/-- The spare is free again. -/
def freeSpare (s : State) (p : Nat) : State := clearHw (setUnit s p { unitOf s p with state := .idle, serves := 0xFF }) p

/-- A search bank leaves its hardware: a copy from the shadow to a free spare begins; a failed bank without a spare or a
shadow goes OFFLINE (R456). -/
def takeBank (s : State) (t : Taking) : State :=
  match spareForTaking s t with
  | some p =>
    if s.asu.copies.isEmpty then setBank s t.bank { state := .offline, failed := true }
    else setBank s t.bank { state := .copying, spare := some p, failed := t.cause == 0 }
  | none => setBank s t.bank { state := .offline, failed := true }

/-- A core leaves its hardware: with a spare its state moves there unchanged (R493). -/
def takeCore (s : State) (t : Taking) : State :=
  let c := t.unit - 72
  match spareForTaking s t with
  | some p =>
    let s := setCore s (48 + (p - 182)) (coreOf s c)
    bindSpare (setCore s c { state := .test }) p t.unit
  | none => unitState (setCore s c { coreOf s c with state := .test }) t.unit .test

/-- An engine leaves its hardware, with a spare or without one. -/
def takeEngine (s : State) (t : Taking) : State :=
  match spareForTaking s t with
  | some p => bindSpare s p t.unit
  | none => unitState s t.unit .test

/-- The unit is taken out: what waits inside follows R735. -/
def takeOut (s : State) (t : Taking) : State :=
  let u := t.unit
  let spare := spareForTaking s t
  let k := kindOf u
  let drains := t.cause != 0 && (isEngine u || k == 0x01 || k == 0x0A)
  let x : InTest := {
    unit := u, cause := t.cause, bank := t.bank, spare := spare, draining := drains,
    tags := if isEngine u then insideOf s u else [] }
  if k = 0x09 ∧ t.cause = 0 then takeBank s t
  else
    let s := setTst s { s.tst with inTest := s.tst.inTest ++ [x] }
    match k with
    | 0x09 => takeBank s t
    | 0x04 | 0x05 => takeCore s t
    | 0x02 | 0x03 => unitState (setFen s (u - 32) { fenOf s (u - 32) with state := .test }) u .test
    | 0x01 => unitState (channelLeaves s u .test) u .test
    | 0x0A => unitState (dramLeaves s (u - 168) .test) u .test
    | _ => takeEngine (if t.cause = 0 then endInside s u t.tag else s) t

/-! ## Results (R739, R748, R751) -/

/-- The row of R734 that a unit belongs to: one segment of the self-test. -/
def segmentOf (u : Nat) : Nat :=
  match kindOf u with
  | 0x06 | 0x07 => 1
  | 0x08 => 2
  | 0x04 | 0x05 => 3
  | 0x09 => 4
  | 0x02 | 0x03 => 5
  | 0x01 => 6
  | _ => 7

/-- A requested test ends (R748): 1 passed, 2 failed, 3 not taken. -/
def reportTest (s : State) (u outcome : Nat) : State :=
  setLive (setLive (setLive s Reg.TST_UNIT_RESULT 15 8 u) Reg.TST_UNIT_RESULT 1 0 outcome) Reg.TST_UNIT_RESULT 16 16 1

/-- The self-test ends once nothing of it is left: its result joins the log, newest first (R739). -/
def selfSettle (s : State) : State :=
  let t := s.tst
  if t.selfTest = 0 ∨ !t.selfLeft.isEmpty ∨ t.queue.any (fun x => x.cause == 3) ∨ t.inTest.any (fun x => x.cause == 3) then s
  else
    let bad := (t.selfResult.find? (fun p => decide (0 < p.2.2))).map (·.1)
    let code := t.selfTest * 16 + (if bad.isSome then 7 else 0)
    setTst s { t with selfTest := 0, selfLog := ((code, bad.getD 0) :: t.selfLog).take 20 }

/-- The outcome of a taking reaches whoever asked for it. -/
def testOutcome (s : State) (cause u outcome : Nat) : State :=
  if cause = 1 then reportTest s u outcome
  else if cause = 3 ∧ s.tst.selfTest ≠ 0 then
    let k := segmentOf u
    let r := Tab.getD s.tst.selfResult k (0, 0)
    let t := s.tst
    selfSettle (setTst s (if outcome = 3 then { t with selfSkipped := t.selfSkipped ++ [u] }
      else { t with selfResult := Tab.set t.selfResult k (r.1 + 1, r.2 + b2n (outcome == 2)) }))
  else s

/-! ## The queue (R733, R737, R747) -/

/-- Units of the self-test move into the queue while it has room (R739). -/
def feedQueue (s : State) : State :=
  let t := s.tst
  let room := 16 - t.queue.length
  setTst s { t with
    queue := t.queue ++ (t.selfLeft.take room).map (fun u => { unit := u, cause := 3, bank := 4 * (u - 152) }),
    selfLeft := t.selfLeft.drop room }

/-- The queue without its taking number `n`. -/
def dropTaking (s : State) (n : Nat) : State := setTst s { s.tst with queue := s.tst.queue.take n ++ s.tst.queue.drop (n + 1) }

/-- A taking cannot be carried out yet: no room (R737), a report on a unit that is not ready to leave, or a change of STATE that
the window of R31 does not allow. -/
def mustWait (s : State) (t : Taking) : Bool :=
  !testRoom s t || (t.cause == 0 && !mayTake s t) || !windowOpen s t.unit

/-- The reports that found the queue full take their units out, once their conditions hold (R734, R737). -/
def takeUrgent (s : State) : State :=
  s.tst.urgent.foldl (fun s t =>
    if mayTake s t && windowOpen s t.unit then
      takeOut (setTst s { s.tst with urgent := dropFirst (· == t) s.tst.urgent }) t
    else s) s

/-- UNIT_TEST_REQUEST (R747): the test controller serves its queue: the first taking that need not wait is taken out, or,
where its conditions are not met, reported as not taken. -/
def execUnitTestRequest (s : State) : Out :=
  if s.boot.phase ≠ .ready ∨ s.pwr.powerLoss then .next s
  else
    let s := feedQueue (takeUrgent s)
    match (List.range s.tst.queue.length).find? (fun n => match s.tst.queue[n]? with
        | some t => !mustWait s t
        | none => false) with
    | none => .next s
    | some n =>
      match s.tst.queue[n]? with
      | none => .next s
      | some t =>
        let s := dropTaking s n
        .next (if mayTake s t then takeOut s t else testOutcome s t.cause t.unit 3)

/-- ROTATE (R733): the next unit of a kind in R734, while ROTATE_H is not 0; it waits for the next turn where the queue is
full. -/
def execRotate (s : State) : Out :=
  if eff s Reg.TST_CFG 7 0 = 0 ∨ 16 ≤ s.tst.queue.length ∨ s.boot.phase ≠ .ready then .next s
  else
    let units := (List.range 180).filter testable
    let u := ((units.find? (s.tst.lastRotated < ·)).getD 0)
    .next (setTst s { s.tst with
      lastRotated := u, queue := s.tst.queue ++ [{ unit := u, cause := 2, bank := 4 * (u - 152) }] })

/-! ## The end of a test (R734, R736) -/

/-- The entry of unit `u` in test. -/
def testEntry (s : State) (u : Nat) : Option InTest := s.tst.inTest.find? (fun x => x.unit == u)

/-- Remove it. -/
def dropTest (s : State) (u : Nat) : State := setTst s { s.tst with inTest := dropFirst (fun x => x.unit == u) s.tst.inTest }

/-- Replace it. -/
def setTest (s : State) (x : InTest) : State :=
  setTst s { s.tst with inTest := s.tst.inTest.map (fun y => if y.unit = x.unit then x else y) }

/-- A unit without a spare is back in service. -/
def backInService (s : State) (u : Nat) : State := unitState s u (if (unitOf s u).role = 0 then .idle else .active)

/-- The spare of a unit gives its binding back, once nothing is inside an engine and a core stands still (R736). -/
def giveBack (s : State) (x : InTest) : State :=
  match x.spare with
  | none => s
  | some p =>
    if isEngine x.unit then
      (if (insideOf s x.unit).isEmpty then dropTest (freeSpare s p) x.unit else s)
    else
      let n := 48 + (p - 182)
      if coreParked s x.unit then
        let s := setCore s (x.unit - 72) (coreOf s n)
        dropTest (freeSpare (setCore s n { coreOf s n with state := .scrubbing }) p) x.unit
      else s

/-- Units that drain are done with it once nothing is inside; spares that are due give their bindings back. -/
def tstSettle (s : State) : State :=
  let s := if s.tst.urgent.isEmpty ∨ s.pwr.powerLoss then s else takeUrgent s
  s.tst.inTest.foldl (fun s x =>
    let s := if x.draining ∧ (insideOf s x.unit).isEmpty then setTest s { x with draining := false } else s
    if x.back then giveBack s { x with draining := false } else s) s

/-- TEST_DRAIN_TIMEOUT (R735): 10 ms on, the tickets still inside complete with ROLE_STALE. -/
def execTestDrainTimeout (unit : Nat) (s : State) : Out :=
  match testEntry s unit with
  | some x => if x.draining then .next (tstSettle (setTest (endInside s unit none) { x with draining := false })) else .next s
  | none => .next s

/-- What a unit that has passed does (R734, R736). -/
def testPassed (s : State) (x : InTest) : State :=
  let u := x.unit
  match kindOf u with
  | 0x02 | 0x03 => dropTest (unitState (setFen s (u - 32) { fenOf s (u - 32) with state := .scrubbing }) u .idle) u
  | 0x01 =>
    let c := chanOf s u
    dropTest (unitState (noteOffline (setChan s u { c with state := .training, tryRate := targetRate s u })) u .idle) u
  | 0x0A =>
    let c := dramOf s (u - 168)
    dropTest (unitState (setDram s (u - 168) { c with state := .training, tryRate := dramTarget s (u - 168) }) u .idle) u
  | 0x09 => dropTest (setBank s x.bank { bankOf s x.bank with state := .returning }) u
  | 0x04 | 0x05 =>
    if x.spare.isSome then tstSettle (setTest s { x with back := true })
    else dropTest (backInService (setCore s (u - 72) { coreOf s (u - 72) with state := .stopped }) u) u
  | _ =>
    let s := clearHw s u
    if x.spare.isSome then tstSettle (setTest s { x with back := true, draining := true, tags := [] })
    else dropTest (backInService s u) u

/-- What a unit that has failed does (R734): a bound spare stays bound. -/
def testFailed (s : State) (x : InTest) : State :=
  let u := x.unit
  let s := dropTest s u
  match kindOf u with
  | 0x02 | 0x03 => unitState (setFen s (u - 32) { fenOf s (u - 32) with state := .offline }) u .offline
  | 0x01 => channelOffline s u
  | 0x0A => dramDead (setDram s (u - 168) { dramOf s (u - 168) with state := .offline }) (u - 168)
  | 0x09 => setBank s x.bank { bankOf s x.bank with state := .spared }
  | 0x04 | 0x05 => if x.spare.isSome then s else unitState (setCore s (u - 72) { coreOf s (u - 72) with state := .offline }) u .offline
  | _ => if x.spare.isSome then s else unitState s u .offline

/-- A bank group's test goes on with its next bank (log 57). -/
def nextBank (s : State) (x : InTest) (passed : Bool) : State × Bool :=
  if kindOf x.unit = 0x09 ∧ x.bank % 4 < 3 ∧ passed then
    (setTst s { s.tst with queue := { unit := x.unit, cause := x.cause, bank := x.bank + 1 } :: s.tst.queue }, false)
  else (s, true)

/-- Spare tiles of fen `f` (R103). -/
def spareTiles (f : Nat) : Nat := if f < 32 then 1 else 4

/-- The tiles that a fen's built-in test finds failed are marked (R103). -/
def tilesFound (s : State) (u tiles : Nat) : State :=
  if 32 ≤ u ∧ u < 72 then setFen s (u - 32) { fenOf s (u - 32) with failedTiles := tiles } else s

/-- UNIT_TEST_DONE (R734): the built-in test of a unit that has drained (of a bank, once its copy has ended) ends; a fen whose
failed tiles outnumber its spares has failed (R103). A test in progress at a declaration of power loss never does. -/
def unitTested (s : State) (unit : Nat) (passed : Bool) (tiles : Nat) : State :=
  match testEntry s unit with
  | none => s
  | some x =>
    if x.draining ∨ x.back ∨ s.pwr.powerLoss ∨ (kindOf unit = 0x09 ∧ (bankOf s x.bank).state ≠ .test) then s
    else
      let passed := passed && !(decide (32 ≤ unit) && decide (unit < 72) && decide (spareTiles (unit - 32) < tiles))
      let s := tilesFound s unit tiles
      let a := Reg.TST_UNIT_TEST + 8 * unit
      let s := setLive (bump s a 15 8 1) a 1 0 (if passed then 1 else 2)
      let s := if passed then testPassed s x else testFailed s x
      let r := nextBank s x passed
      if r.2 then testOutcome r.1 x.cause unit (if passed then 1 else 2) else r.1

/-! ## Device Self-test (R739) -/

/-- The kinds of R734 that a self-test covers, all except DRAM channels, by the KINDs of R22: compression, cipher, digest, Goley cores,
search banks, fens, flash channels. -/
def selfKinds : List (List Nat) := [[0x06], [0x07], [0x08], [0x04, 0x05], [0x09], [0x02, 0x03], [0x01]]

/-- The kind of R734 that unit `u` is of, by its first KIND. -/
def selfKind (u : Nat) : Nat := ((selfKinds.find? (·.contains (kindOf u))).getD []).headD 0

/-- The units of a short test: one of each kind, in rotation; of an extended one: every unit of those kinds, one kind at a time (R739; that
DRAM channels are in neither is DEDUCED, log 94). -/
def selfUnits (s : State) (short : Bool) : List Nat :=
  selfKinds.flatMap (fun ks =>
    let l := (List.range 180).filter (fun u => ks.contains (kindOf u))
    if short then [((l.find? (Tab.getD s.tst.selfTurn (ks.headD 0) 0 < ·)).getD (l.headD 0))] else l)

/-- DEVICE_SELF_TEST (R739): STC 1, 2 or 0xF, from a physical function; one already in progress is left as it is. -/
def execDeviceSelfTest (ctrl : Nat) (s : State) : Out :=
  adminCmd s ctrl 0x14 true (fun s y =>
    let stc := eDw y.entry 10 % 16
    let t := s.tst
    if stc = 1 ∨ stc = 2 then
      if t.selfTest ≠ 0 then cqe s y (nstat 1 0x1D true) 0 0
      else
        let l := selfUnits s (stc == 1)
        let s := setTst s { t with
          selfTest := stc, selfLeft := l, selfResult := [], selfSkipped := [],
          selfTurn := if stc = 1 then l.foldl (fun m u => Tab.set m (selfKind u) u) t.selfTurn else t.selfTurn }
        cqeOk (feedQueue s) y
    else if stc = 0xF then
      let log := if t.selfTest = 0 then t.selfLog else ((t.selfTest * 16 + 1, 0) :: t.selfLog).take 20
      cqeOk (setTst s { t with
        selfTest := 0, selfLeft := [], queue := t.queue.filter (fun x => x.cause != 3), selfLog := log }) y
    else badField s y)

/-! ## Injections (R740–R743, R749) -/

/-- The unit is attached to a router of the trunk (R781). -/
def hasRouter (u : Nat) : Bool := routers.any (fun p => routerUnit p.1 p.2 == some u)

/-- TARGET fits KIND, and names no unit in TEST or OFFLINE (R741, R749). -/
def injTargetOk (s : State) (kind target : Nat) : Bool :=
  let usable := decide ((unitOf s target).state ≠ .test) && decide ((unitOf s target).state ≠ .offline)
  match kind with
  | 1 => decide (target < 197) && usable
  | 2 | 7 => hasRouter target && usable
  | 3 => decide (168 ≤ target) && decide (target < 172) && usable
  | 4 | 5 => decide (target < 32) && usable
  | 6 | 8 => isIslandKey target
  | _ => false

/-- PARAM of R741 is in its range. -/
def injParamOk (kind p : Nat) : Bool :=
  match kind with
  | 1 | 3 => decide (1 ≤ p % 4) && decide (p / 4 % 64 ≤ 34) && decide (p < 256)
  | 2 => decide (1 ≤ fld p 2 0) && decide (fld p 2 0 ≤ 4) && decide (1 ≤ fld p 4 3)
  | 4 => decide (1 ≤ fld p 15 8)
  | 5 => fld p 9 8 == 1 || fld p 9 8 == 2
  | 6 => true
  | 7 => decide (1 ≤ fld p 2 0) && decide (fld p 2 0 ≤ 4)
  | 8 => decide (fld p 6 0 ≤ 100) && decide (fld p 14 8 ≤ 50)
  | _ => false

/-- Kinds whose COUNT is used (R741). -/
def injCounts (kind : Nat) : Bool := decide (1 ≤ kind) && (decide (kind ≤ 5) || kind == 7)

/-- Why a set of the INJ group is refused (R749). -/
def injRefused (s : State) (kind target param count : Nat) : Bool :=
  s.tru.testBy.isNone || !injTargetOk s kind target || !injParamOk kind param || (injCounts kind && count == 0) ||
    decide (4 ≤ s.tst.injections.length + s.tst.injAsked.length)

/-- An accepted set of KIND `kind` begins: it is active and recorded (R740). -/
def injectNow (s : State) (kind : Nat) : State :=
  match s.tst.injAsked.find? (fun p => p.1.kind == kind) with
  | none => s
  | some (i, auto) =>
    let s := setTst s { s.tst with
      injAsked := dropFirst (fun p => p.1.kind == kind) s.tst.injAsked, injections := s.tst.injections ++ [i],
      autoHeld := auto }
    record s 0x0041 sevFree 0 i.target 0
      (natLe 1 i.kind ++ natLe 1 i.target ++ natLe 4 i.param ++ natLe 2 i.count ++ natLe 4 i.windowUs)

/-- SRAM_SYMBOL (R741). -/
def execSramSymbol (s : State) : Out := .next (injectNow s 1)
/-- TRUNK_SYMBOL (R741). -/
def execTrunkSymbol (s : State) : Out := .next (injectNow s 2)
/-- DRAM_SYMBOL (R741). -/
def execDramSymbol (s : State) : Out := .next (injectNow s 3)
/-- FLASH_BITS (R741). -/
def execFlashBits (s : State) : Out := .next (injectNow s 4)
/-- FLASH_FAIL (R741). -/
def execFlashFail (s : State) : Out := .next (injectNow s 5)
/-- CAUSEWAY_DELAY (R741). -/
def execCausewayDelay (s : State) : Out := .next (injectNow s 6)
/-- BACKPRESSURE (R741). -/
def execBackpressure (s : State) : Out := .next (injectNow s 7)
/-- CLOCK (R741). -/
def execClock (s : State) : Out := .next (injectNow s 8)

/-- What is left of a perturbation when its window ends: CAUSEWAY_DELAY and CLOCK last WINDOW_US, or until stopped where it
is 0; BACKPRESSURE holds the link COUNT times, with a release between holds (R741). -/
def windowEnds (i : Inj) : Option Inj :=
  if i.kind = 7 then
    (if !i.holding then some { i with holding := true }
    else if i.count ≤ 1 then none
    else some { i with holding := false, count := i.count - 1 })
  else if (i.kind = 6 ∨ i.kind = 8) ∧ i.windowUs ≠ 0 then none
  else some i

/-- INJECTION_WINDOW_END (R741). -/
def execInjectionWindowEnd (kind target : Nat) (s : State) : Out :=
  match s.tst.injections.find? (fun i => i.kind == kind && i.target == target) with
  | none => .next s
  | some i =>
    let l := s.tst.injections
    match windowEnds i with
    | none => .next (setTst s { s.tst with injections := dropFirst (· == i) l })
    | some j => .next (setTst s { s.tst with injections := l.map (fun x => if x = i then j else x) })

/-- STOP (R749): every active injection is cancelled. -/
def execStop (s : State) : Out := .next (cancelInjections s)

end Sys2Proof.Machine
end

