-- ==== Sys2Proof/Machine/Trust.lean ====
section
/-! DEFINITION. Requests to the trust unit (19_trust_and_attestation.md): SPDM, the vendor requests, IDE, TDISP and the
measurement registers. The codes of SPDM's own messages are the standard's (log 54). -/

namespace Sys2Proof.Machine

/-! ## Replies and arrival (R658, R660) -/

/-- The trust unit answers. -/
def respond (s : State) (fn : Nat) (session : Option Nat) (code : Nat) (data : Bytes) : State :=
  setTru s { s.tru with reply := some { code := code, fn := fn, session := session, data := data } }

/-- The trust unit answers with SPDM's ERROR. -/
def respondErr (s : State) (fn : Nat) (err : Nat) : State :=
  setTru s { s.tru with reply := some { code := 0x7F, err := err, fn := fn } }

/-- A vendor response that carries a status of R180 and, where it is DONE, content (R661). -/
def respondVendor (s : State) (fn : Nat) (session : Option Nat) (status : Nat) (data : Bytes) : State :=
  respond s fn session 0x7E (natLe 1 status ++ data)

/-- A VF whose instance is FREE or RESETTING (R660). -/
def fnBusy (s : State) (fn : Nat) : Bool :=
  !isOperator fn && (match (instOf s (fnInst fn)).state with | .free | .resetting => true | _ => false)

/-- A request other than the first three: Busy on a VF that is FREE or RESETTING (R660). -/
def onFn (s : State) (fn : Nat) (f : State → State) : Out := .next (if fnBusy s fn then respondErr s fn 0x03 else f s)

/-- An open session of a function. -/
def sessOf (s : State) (fn id : Nat) : Option Sess := s.tru.sessions.find? (fun x => x.id == id && x.fn == fn)

/-- A session that FINISH has established, as a request names it. -/
def secureSess (s : State) (fn : Nat) (session : Option Nat) : Option Sess :=
  (session.bind (sessOf s fn)).bind (fun x => if x.established then some x else none)

/-- The session is attested and on the operator's side (R667). -/
def operatorAttested (s : State) (fn : Nat) (session : Option Nat) : Bool :=
  isOperator fn && ((secureSess s fn session).map (isAttested s)).getD false

/-- Change a session. -/
def modSess (s : State) (id : Nat) (f : Sess → Sess) : State :=
  setTru s { s.tru with sessions := s.tru.sessions.map (fun x => if x.id = id then f x else x) }

/-- The context of the ALIAS keys: the hash of the firmware measurement record (R650). -/
def aliasCtx (s : State) : Bytes := sha384 ((Tab.get? s.tru.current 2).getD (zeros 96))

/-! ## Measurements as reported (R655, R657, R659, R660) -/

/-- The KAK record of an instance (R659). -/
def kakRecord (s : State) (i : Nat) : Bytes :=
  let epoch := Tab.getD s.tru.instEpoch i 0
  let k := Config.kakPublic i epoch
  natLe 2 i ++ zeros 2 ++ natLe 4 epoch ++ fit 1568 k.1 ++ fit 97 k.2 ++ zeros 7

/-- The key registry of an instance as index 9 reports it. -/
def registryBytes (s : State) (i : Nat) : Bytes := (registryOf s i).entries.flatMap (fit 48)

/-- The trust unit still derives keys other than DEVID's (R652). -/
def derives (s : State) : Bool := s.tru.lifecycle != 2

/-- The value of an index for instance `i`, if the index exists; a DECOMMISSIONED device has no KAK to report (R652). -/
def measValue (s : State) (i index : Nat) : Option Bytes :=
  if 1 ≤ index ∧ index ≤ 4 then some (historyOf s index)
  else if index = 8 then (if derives s then some (kakRecord s i) else none)
  else if index = 9 then some (registryBytes s i)
  else if 16 ≤ index ∧ index ≤ 55 then some ((Tab.get? s.tru.current index).getD (zeros 96) ++ historyOf s index)
  else none

/-- The indices that a response on a function covers (R660). -/
def coveredIndices (s : State) (fn : Nat) : List Nat :=
  let i := fnInst fn
  let mine : Nat → Bool := fun f =>
    let u := unitOf s (32 + f)
    isOperator fn || u.role == 3 || (u.role == 5 && u.owner == i)
  [1, 2, 3, 4, 8, 9] ++ ((List.range 40).filter mine).map (· + 16)

/-- A response that the ALIAS key signs: once the device is DECOMMISSIONED its derivation is refused, and the request fails (R652, log
191). -/
def signing (s : State) (fn : Nat) (f : State → State) : State := if derives s then f s else respondErr s fn 0x05

/-- A measurement block: index, size and value. -/
def measBlock (s : State) (i index : Nat) : Bytes :=
  let v := (measValue s i index).getD []
  natLe 1 index ++ natLe 2 v.length ++ v

/-- What the snapshot of TRU_MEAS_SEL shows: HISTORY, or SHA-384 of the value for 8 and 9 (R675). -/
def measSnap (s : State) (i index : Nat) : Bytes :=
  if index = 8 ∨ index = 9 then ((measValue s i index).map sha384).getD []
  else if (1 ≤ index ∧ index ≤ 4) ∨ (16 ≤ index ∧ index ≤ 55) then historyOf s index
  else []

/-- A write to TRU_MEAS_SEL (R674, R675). -/
def measSelect (s : State) (v : Nat) : State :=
  let s := setLive (setLive s Reg.TRU_MEAS_SEL 24 16 (fld v 24 16)) Reg.TRU_MEAS_SEL 7 0 (fld v 7 0)
  setTru s { s.tru with snap := measSnap s (fld v 24 16) (fld v 7 0) }

/-- MEAS_SELECT (R675). -/
def execMeasSelect (value : Nat) (s : State) : Out := .next (measSelect s value)

/-! ## SPDM (R658) -/

/-- GET_VERSION: versions 1.2 and 1.3. -/
def execGetVersion (fn : Nat) (s : State) : Out := .next (respond s fn none 0x04 [0x12#8, 0x13#8])

/-- GET_CAPABILITIES. -/
def execGetCapabilities (fn : Nat) (s : State) : Out := .next (respond s fn none 0x61 Config.spdmCaps)

/-- NEGOTIATE_ALGORITHMS: SHA-384, ECDSA P-384, secp384r1, AES-256-GCM, ECDSA P-384 for the requester, each where it is
offered; measurement hash SHA-384. -/
def execNegotiateAlgorithms (fn hash asym dhe aead reqAsym : Nat) (s : State) : Out :=
  let pick : Nat → Nat → Nat := fun offer bit => if bitOf offer bit then 2 ^ bit else 0
  .next (respond s fn none 0x63 (natLe 4 (pick hash 1) ++ natLe 4 (pick asym 7) ++ natLe 2 (pick dhe 4) ++
    natLe 2 (pick aead 1) ++ natLe 2 (pick reqAsym 7) ++ natLe 4 4))

/-- GET_DIGESTS: slot 0 alone holds a chain. -/
def execGetDigests (fn : Nat) (s : State) : Out :=
  onFn s fn (fun s => respond s fn none 0x01 (sha384 (Config.certChain (aliasCtx s))))

/-- GET_CERTIFICATE: a part of the slot 0 chain; slots 1–7 are empty. -/
def execGetCertificate (fn slot offset len : Nat) (s : State) : Out :=
  onFn s fn (fun s =>
    if slot ≠ 0 then respondErr s fn 0x01
    else respond s fn none 0x02 (((Config.certChain (aliasCtx s)).drop offset).take len))

/-- CHALLENGE: signed by the ALIAS key. -/
def execChallenge (fn slot : Nat) (transcript : Bytes) (s : State) : Out :=
  onFn s fn (fun s =>
    if slot ≠ 0 then respondErr s fn 0x01
    else signing s fn (fun s => respond s fn none 0x03 (Config.ecdsaSign (aliasCtx s) (sha384 transcript))))

/-- GET_MEASUREMENTS (R657, R660): the indices that the function may see, in one snapshot. -/
def execGetMeasurements (fn index : Nat) (sign : Bool) (transcript : Bytes) (s : State) : Out :=
  onFn s fn (fun s =>
    let all := coveredIndices s fn
    let sig := if sign then Config.ecdsaSign (aliasCtx s) (sha384 transcript) else []
    if sign && !derives s then respondErr s fn 0x05
    else if index = 0 then respond s fn none 0x60 (natLe 1 all.length ++ sig)
    else if index = 0xFF then respond s fn none 0x60 (all.flatMap (measBlock s (fnInst fn)) ++ sig)
    else if all.contains index ∧ (measValue s (fnInst fn) index).isSome then
      respond s fn none 0x60 (measBlock s (fnInst fn) index ++ sig)
    else respondErr s fn 0x01)

/-- KEY_EXCHANGE: at most 2 sessions per function and 64 per device. -/
def execKeyExchange (fn : Nat) (transcript : Bytes) (s : State) : Out :=
  onFn s fn (fun s =>
    let l := s.tru.sessions
    if 2 ≤ (l.filter (fun x => x.fn == fn)).length ∨ 64 ≤ l.length then respondErr s fn 0x0A
    else signing s fn (fun s =>
      let id := s.tru.nextSess
      let s := setTru s { s.tru with sessions := l ++ [{ id := id, fn := fn }], nextSess := id + 1 }
      respond s fn none 0x64 (natLe 2 id ++ Config.ecdsaSign (aliasCtx s) (sha384 transcript))))

/-- The test session closes: TEST_ACTIVE is extended into index 4 and logged, and every injection is cancelled (R668,
R740, R743). -/
def closeTest (s : State) : State :=
  if !testActive s then s
  else
    let s := setTru s { s.tru with testBy := none }
    let s := record (measSecurity s) 0x0040 sevFree 0 0xFF 0 [2#8]
    let s := cancelInjections s
    setTst s { s.tst with autoHeld := false }

/-- A session ends, with its attestation and a test session that it opened (R662, R668). -/
def endSess (s : State) (id : Nat) : State :=
  let s := setTru s { s.tru with sessions := s.tru.sessions.filter (fun x => x.id != id) }
  if s.tru.testBy = some id then closeTest s else s

/-- FINISH: the session is established where the standard's checks succeed; a failed mutual authentication is counted
(R673). -/
def execFinish (fn session : Nat) (reqKey : Option Bytes) (ok : Bool) (th : Bytes) (s : State) : Out :=
  onFn s fn (fun s =>
    match sessOf s fn session with
    | none => respondErr s fn 0x02
    | some _ =>
      if ok then
        respond (modSess s session (fun x => { x with established := true, reqKey := reqKey, th := th })) fn (some session) 0x65 []
      else
        let s := if reqKey.isSome then bump s Reg.TRU_COUNTS 7 0 1 else s
        respondErr (endSess s session) fn 0x06)

/-- A request that only a session takes. -/
def inSession (s : State) (fn id : Nat) (f : State → State) : Out :=
  onFn s fn (fun s => if (secureSess s fn (some id)).isSome then f s else respondErr s fn 0x02)

/-- HEARTBEAT of a session. -/
def execSpdmHeartbeat (fn session : Nat) (s : State) : Out :=
  inSession s fn session (fun s => respond s fn (some session) 0x68 [])

/-- KEY_UPDATE. -/
def execKeyUpdate (fn session : Nat) (s : State) : Out :=
  inSession s fn session (fun s => respond s fn (some session) 0x69 [])

/-- END_SESSION (R662, R668). -/
def execEndSession (fn session : Nat) (s : State) : Out :=
  inSession s fn session (fun s => respond (endSess s session) fn (some session) 0x6C [])

/-- Any other request: ERROR UnsupportedRequest. -/
def execUnsupportedRequest (fn : Nat) (s : State) : Out := onFn s fn (fun s => respondErr s fn 0x07)

/-! ## Vendor requests (R661–R664, R668) -/

/-- PQ_CHAIN. -/
def execPqChain (fn : Nat) (session : Option Nat) (s : State) : Out :=
  onFn s fn (fun s => respondVendor s fn session 0 (Config.pqChain (aliasCtx s)))

/-- PQ_QUOTE. -/
def execPqQuote (fn : Nat) (session : Option Nat) (transcript : Bytes) (s : State) : Out :=
  onFn s fn (fun s => signing s fn (fun s => respondVendor s fn session 0 (Config.mldsaSign (aliasCtx s) transcript)))

/-- BIND (R662): it succeeds where the signature over the session's transcript hash verifies; a failure is counted (R673). -/
def execBind (fn : Nat) (session : Option Nat) (keys : KeySigs) (s : State) : Out :=
  onFn s fn (fun s =>
    match secureSess s fn session with
    | none => respondVendor s fn session 0x11 []
    | some x =>
      if keys.mldsaPub.length ≠ 2592 ∨ keys.ecdsaPub.length ≠ 97 then
        respondVendor (bump s Reg.TRU_COUNTS 7 0 1) fn session 0x10 []
      else if !Config.mldsaOk keys.mldsaPub x.th keys.mldsaSig then
        respondVendor (bump s Reg.TRU_COUNTS 7 0 1) fn session 0x11 []
      else
        let b := (sha384 (keys.mldsaPub ++ keys.ecdsaPub), keys.ecdsaPub)
        respondVendor (modSess s x.id (fun x => { x with bound := some b })) fn session 0 [])

/-- What the signatures of a REG_UPDATE cover (R664). -/
def regMessage (s : State) (i keyIndex : Nat) (hash : Bytes) (version : Nat) : Bytes :=
  ascii "AE96REG" ++ natLe 8 s.dev.serial ++ natLe 2 i ++ natLe 4 (Tab.getD s.tru.instEpoch i 0) ++ natLe 1 keyIndex ++
    hash ++ natLe 4 version

/-- The signatures of a REG_UPDATE verify under the registered key SIGNER_INDEX (R664). -/
def regSigned (s : State) (i keyIndex : Nat) (hash : Bytes) (version signer : Nat) (keys : KeySigs) : Bool :=
  let m := regMessage s i keyIndex hash version
  (registryOf s i).entries[signer]? == some (sha384 (keys.mldsaPub ++ keys.ecdsaPub)) &&
    Config.mldsaOk keys.mldsaPub m keys.mldsaSig && Config.ecdsaOk keys.ecdsaPub m keys.ecdsaSig

/-- REG_UPDATE (R664): the first entry of an empty registry in any secure session, any other in an attested one (R667). -/
def execRegUpdate (fn : Nat) (session : Option Nat) (keyIndex : Nat) (hash : Bytes) (version signer : Nat)
    (keys : KeySigs) (s : State) : Out :=
  onFn s fn (fun s =>
    let i := fnInst fn
    let r := registryOf s i
    let empty := r.entries.all (·.isEmpty)
    let new := r.entries.set keyIndex (if isZero hash 0 48 then [] else hash)
    match secureSess s fn session with
    | none => respondVendor s fn session 0x11 []
    | some x =>
      if 8 ≤ keyIndex ∨ hash.length ≠ 48 ∨ 8 ≤ signer then respondVendor s fn session 0x10 []
      else if (!empty && !isAttested s x) || version != r.version + 1 || (!empty && !regSigned s i keyIndex hash version signer keys) ||
          new.all (·.isEmpty) then respondVendor s fn session 0x11 []
      else
        let regs := Tab.set s.tru.registries i { version := version, entries := new }
        respondVendor (bump (setTru s { s.tru with registries := regs }) Reg.TRU_COUNTS 15 8 1) fn session 0 [])

/-- A vendor request that needs the operator, attested (R661, R667). -/
def attested (s : State) (fn : Nat) (session : Option Nat) (f : State → State) : Out :=
  onFn s fn (fun s => if operatorAttested s fn session then f s else respondVendor s fn session 0x11 [])

/-- RELEASE (R651, R661): refused while an instance 1–511 exists; the status of that refusal is a free one of the failures of R180 (log 55). -/
def execRelease (fn : Nat) (session : Option Nat) (s : State) : Out :=
  attested s fn session (fun s =>
    if s.ten.insts.any (fun p => p.1 != 0 && decide (p.2.state ≠ .free)) then
      respondVendor (drawn s) fn session (freeFailure s) []
    else
      let epochs := Tab.upd s.tru.instEpoch 0 0 (· + 1)
      let regs := Tab.set s.tru.registries 0 { registryOf s 0 with entries := List.replicate 8 [] }
      respondVendor (setTru s { s.tru with instEpoch := epochs, registries := regs }) fn session 0 [])

/-- TEST_OPEN (R668). -/
def execTestOpen (fn : Nat) (session : Option Nat) (s : State) : Out :=
  attested s fn session (fun s =>
    if testActive s then respondVendor s fn session 0 []
    else
      let s := measSecurity (setTru s { s.tru with testBy := session })
      respondVendor (record s 0x0040 sevFree 0 0xFF 0 [1#8]) fn session 0 [])

/-- TEST_CLOSE (R668, R740). -/
def execTestClose (fn : Nat) (session : Option Nat) (s : State) : Out :=
  attested s fn session (fun s => respondVendor (closeTest s) fn session 0 [])

/-- DECOMMISSION (R652, R655). -/
def execDecommission (fn : Nat) (session : Option Nat) (s : State) : Out :=
  attested s fn session (fun s =>
    respondVendor (measSecurity (setTru s { s.tru with lifecycle := 2 })) fn session 0 [])

/-! ## IDE and TDISP (R669–R671) -/

/-- The port's link shows an active IDE stream (R586). -/
def judgeIde (s : State) (port : Nat) : State :=
  let l := Tab.getD s.hif.links port {}
  let on := (Tab.keys s.tru.ide).any (fun k => k / 4 == port)
  setHif s { s.hif with links := Tab.set s.hif.links port { l with ide := on } }

/-- IDE_KM (R669): in a secure session on a PF's DOE; a port holds 4 streams. -/
def execIdeKm (fn : Nat) (session : Option Nat) (stream : Nat) (key : Option Bytes) (s : State) : Out :=
  onFn s fn (fun s =>
    if 2 ≤ fn ∨ (secureSess s fn session).isNone then respondVendor s fn session 0x11 []
    else if 4 ≤ stream then respondVendor s fn session 0x10 []
    else
      let k := fn * 4 + stream
      let ide := match key with | some b => Tab.set s.tru.ide k b | none => Tab.erase s.tru.ide k
      respondVendor (judgeIde (setTru s { s.tru with ide := ide }) fn) fn session 0 [])

/-- IDE_INTEGRITY_FAILURE (R669): the stream is torn down and the failure logged. -/
def execIdeIntegrityFailure (port stream : Nat) (s : State) : Out :=
  let k := port * 4 + stream
  if 4 ≤ stream ∨ (Tab.get? s.tru.ide k).isNone then .next s
  else .next (record (judgeIde (setTru s { s.tru with ide := Tab.erase s.tru.ide k }) port) 0x0050 sevFree 0 194 0 [2#8])

/-- The code of a TDI state. -/
def tdiCode (t : TdiState) : Nat := match t with | .unlocked => 0 | .locked => 1 | .run => 2 | .error => 3

/-- TDISP_MESSAGE (R670): in a secure session on the DOE of the VF's port's PF; a request that the TDI's state does not take
changes nothing. -/
def execTdispMessage (fn : Nat) (session : Option Nat) (inst : Nat) (msg : TdispMsg) (s : State) : Out :=
  onFn s fn (fun s =>
    let x := instOf s inst
    let st := Tab.getD s.tru.tdi inst .unlocked
    let bad := respondVendor s fn session 0x10 []
    let set : TdiState → State := fun t => setTru s { s.tru with tdi := Tab.put .unlocked s.tru.tdi inst t }
    if 2 ≤ fn ∨ (secureSess s fn session).isNone ∨ inst = 0 ∨ x.state = .free ∨ x.port ≠ fn then
      respondVendor s fn session 0x11 []
    else match msg with
      | .getVersion => respondVendor s fn session 0 [0x10#8]
      | .getCapabilities => respondVendor s fn session 0 []
      | .lockInterface stream =>
        if st ≠ .unlocked ∨ (Tab.get? s.tru.ide (fn * 4 + stream)).isNone ∨ 4 ≤ stream then bad
        else respondVendor (setTru (set .locked) { (set .locked).tru with tdiStream := Tab.set s.tru.tdiStream inst stream })
          fn session 0 []
      | .getInterfaceReport =>
        if st = .locked ∨ st = .run then respondVendor s fn session 0 (natLe 4 1 ++ natLe 4 65536) else bad
      | .getInterfaceState => respondVendor s fn session 0 (natLe 1 (tdiCode st))
      | .startInterface => if st = .locked then respondVendor (set .run) fn session 0 [] else bad
      | .stopInterface =>
        let s := set .unlocked
        respondVendor (setTru s { s.tru with tdiStream := Tab.erase s.tru.tdiStream inst }) fn session 0 [])

end Sys2Proof.Machine
end

