-- ==== Sys2Proof/Machine/FunctionViews.lean ====
section
/-! DEFINITION. What the read-only registers of the host interface, tenancy, the junction, trust, the start, the update, the
recorder, the test controller and the instance page show: words computed from State (the register maps of 16 to 23). A
register that is not named here shows its stored value. -/

namespace Sys2Proof.Machine

/-! ## HIF (R585, R586, R591) -/

/-- The HIF block. -/
def viewHif (s : State) (r : RegRow) (i a : Nat) : Nat :=
  let l := linkOf s i
  if r.base = Reg.HIF_STATUS then
    wordOf [(2, 2, b2n s.hif.x8x8), (1, 1, b2n (linkOf s 1).up), (0, 0, b2n (linkOf s 0).up)]
  else if r.base = Reg.HIF_PORT_STATUS then
    wordOf [(12, 12, b2n l.ide), (11, 11, b2n l.l0p), (10, 8, l.rate), (4, 0, l.width)]
  else if r.base = Reg.HIF_NS_KEY then
    match Tab.get? s.ftl.ns (i + 1) with
    | some n => wordOf [(30, 30, b2n (n.zoneUnits != 0)), (24, 16, n.owner)]
    | none => 0
  else liveWord s a

/-! ## TEN (R614, R615) -/

/-- The code of an instance's state (R594). -/
def iStateCode (x : IState) : Nat := match x with | .free => 0 | .ready => 1 | .resetting => 2 | .teardown => 3

/-- Instances 1 to 511 in a state. -/
def instsIn (s : State) (st : IState) : Nat := countN 511 (fun k => decide ((instOf s (k + 1)).state = st))

/-- Units that instance `i` holds in a role. -/
def heldUnits (s : State) (i role : Nat) : Nat :=
  countN 218 (fun u => (unitOf s u).role == role && (unitOf s u).owner == i)

/-- The TEN block; element `k` of a per-instance array is instance `k + 1`. -/
def viewTen (s : State) (r : RegRow) (k a : Nat) : Nat :=
  let i := k + 1
  let x := instOf s i
  if r.base = Reg.TEN_STATUS then
    wordOf [(24, 16, 511 - instsIn s .free), (8, 0, instsIn s .resetting + instsIn s .teardown)]
  else if r.base = Reg.TEN_INST_STATUS then
    wordOf [(31, 24, satN 8 x.resets), (16, 8, x.vf), (4, 4, x.port), (1, 0, iStateCode x.state)]
  else if r.base = Reg.TEN_INST_OWNS then
    wordOf [(31, 21, x.lmem64), (20, 15, heldUnits s i 7), (13, 8, heldUnits s i 6), (5, 0, heldUnits s i 5)]
  else if r.base = Reg.TEN_LOG_STATUS then
    wordOf [(31, 16, x.log.period), (2, 2, b2n x.log.overflow), (0, 0, x.log.active)]
  else liveWord s a

/-! ## FED (R638, R642–R644) -/

/-- The ports on which a neighbour is heard (R644): within the last 500 µs, on a link that is up. -/
def heardPorts (s : State) (n : FNeighbour) : Nat :=
  (List.range 4).foldl (fun w p => match Tab.get? n.heard p with
    | some t => w + b2n (decide (s.now < t + 500) && s.jct.links.getD p 0 == 2) * 2 ^ p
    | none => w) 0

/-- When a neighbour was last heard. -/
def lastHeard (n : FNeighbour) : Nat := (Tab.vals n.heard).foldl max 0

/-- The FED block. -/
def viewFed (s : State) (r : RegRow) (i a : Nat) : Nat :=
  let j := s.jct
  let mac := Config.macOf s.dev.serial i
  if r.base = Reg.FED_STATUS then
    wordOf [(31, 31, b2n j.duplicate), (30, 30, b2n (isMember s && j.neighbours.isEmpty)), (22, 16, j.neighbours.length),
      (3, 0, (List.range 4).foldl (fun w p => w + b2n (j.links.getD p 0 == 2) * 2 ^ p) 0)]
  else if r.base = Reg.FED_INCARNATION then j.inc % 2 ^ 32
  else if r.base = Reg.FED_PLACE then
    wordOf [(31, 24, live s a 31 24), (23, 16, live s a 23 16), (15, 0, satN 16 (j.groups.filter (·.primary)).length)]
  else if r.base = Reg.FED_PORT_STATUS then wordOf [(3, 3, b2n (j.cr1.getD i false)), (1, 0, j.links.getD i 0)]
  else if r.base = Reg.FED_PORT_MAC_LO then mac % 2 ^ 32
  else if r.base = Reg.FED_PORT_MAC_HI then mac / 2 ^ 32 % 65536
  else if r.base = Reg.FED_NEIGHBOUR then
    match j.neighbours[i]? with
    | some n => wordOf [(31, 31, 1), (19, 16, heardPorts s n), (15, 0, n.node)]
    | none => 0
  else if r.base = Reg.FED_NEIGHBOUR_AGE then
    match j.neighbours[i]? with
    | some n => satN 10 (s.now - lastHeard n)
    | none => 0
  else liveWord s a

/-! ## TRU (R672, R675, R677, R679) -/

/-- The TRU block. -/
def viewTru (s : State) (r : RegRow) (i a : Nat) : Nat :=
  let t := s.tru
  if r.base = Reg.TRU_STATUS then
    wordOf [(31, 30, t.lifecycle), (29, 29, b2n t.dusOk), (28, 28, b2n (testActive s)), (27, 27, b2n (claimed s)),
      (23, 16, t.revoked), (6, 0, t.sessions.length)]
  else if r.base = Reg.TRU_MEAS_VALUE then leAt t.snap (4 * i) 4
  else if r.base = Reg.TRU_REG_HASH then
    let sel := liveWord s Reg.TRU_REG_SEL
    leAt ((registryOf s (fld sel 24 16)).entries.getD (fld sel 2 0) []) (4 * i) 4
  else if r.base = Reg.TRU_INST_EPOCH then Tab.getD t.instEpoch i 0 % 2 ^ 32
  else liveWord s a

/-! ## BOOT (R695, R699, R700) -/

/-- The code of a phase (R684). -/
def phaseCode (x : Phase) : Nat :=
  match x with
  | .rom => 0 | .sram => 1 | .firmware => 2 | .train => 3 | .stream => 4 | .recover => 5 | .restore => 6
  | .ready => 7 | .halted => 8 | .entry => 9

/-- The BOOT block. -/
def viewBoot (s : State) (r : RegRow) (i a : Nat) : Nat :=
  let b := s.boot
  if r.base = Reg.BOOT_STATUS then
    wordOf [(23, 16, b.cause), (13, 13, b2n b.prevAbandoned), (9, 8, b.kind), (3, 0, phaseCode b.phase)]
  else if r.base = Reg.BOOT_KEPT then wordOf [(4, 4, b2n b.mapKept), (3, 0, b.keptDram)]
  else if r.base = Reg.BOOT_KEPT_FLASH then b.keptFlash % 2 ^ 32
  else if r.base = Reg.BOOT_PHASE_MS then satN 16 (b.phaseMs.getD i 0)
  else if r.base = Reg.BOOT_ENTRY_MS then satN 16 b.entryMs
  else if r.base = Reg.BOOT_READY_MS then satN 16 b.readyMs
  else liveWord s a

/-! ## UPD (R716, R718, R719) -/

/-- CONFIRM_LEFT_S: whole seconds, rounded up, of the 120 s from READY, while the running image is on trial (R710). -/
def confirmLeft (s : State) : Nat :=
  if onTrial s && decide (s.boot.phase = .ready) then ceilDiv (s.boot.readyAt + 120000000 - s.now) 1000000 else 0

/-- The UPD block. -/
def viewUpd (s : State) (r : RegRow) (i a : Nat) : Nat :=
  let p := fwPtr s
  let u := s.upd
  let m := ((slotFw s i).mark).getD (0, 0, [])
  if r.base = Reg.UPD_STATUS then
    wordOf [(31, 24, confirmLeft s), (13, 13, b2n u.formatChanged), (12, 12, b2n u.fellBack), (11, 11, b2n u.selfOk),
      (10, 9, p.boots), (8, 8, b2n p.trial), (4, 4, p.active), (1, 0, updStage s)]
  else if r.base = Reg.UPD_FLOOR then wordOf [(7, 0, p.floor)]
  else if r.base = Reg.UPD_SLOT_SEQ_LO then half false (if slotValid s i then m.1 else 0)
  else if r.base = Reg.UPD_SLOT_SEQ_HI then half true (if slotValid s i then m.1 else 0)
  else if r.base = Reg.UPD_SLOT_INFO then
    wordOf [(9, 9, b2n (slotRefused s i)), (8, 8, b2n (slotValid s i)), (7, 0, m.2.1)]
  else liveWord s a

/-! ## EVR (R728–R730) -/

/-- EVR_OLDEST_SEQ: the oldest SEQ held; while none is held a free value (the spec gives none). -/
def oldestSeq (s : State) : Nat := ((heldRecords s).head?.map (·.seq)).getD (Config.freeNat s.freeCount % 2 ^ 64)

/-- The EVR block. -/
def viewEvr (s : State) (r : RegRow) (i a : Nat) : Nat :=
  let e := s.evr
  if r.base = Reg.EVR_STATUS then
    wordOf [(31, 31, b2n e.clear.isSome), (30, 30, b2n e.norFail), (17, 0, min 229376 (heldRecords s).length)]
  else if r.base = Reg.EVR_NEXT_SEQ_LO then half false e.nextSeq
  else if r.base = Reg.EVR_NEXT_SEQ_HI then half true e.nextSeq
  else if r.base = Reg.EVR_OLDEST_SEQ_LO then half false (oldestSeq s)
  else if r.base = Reg.EVR_OLDEST_SEQ_HI then half true (oldestSeq s)
  else if r.base = Reg.EVR_OPTIME_LO then half false (opTime s % 2 ^ 40)
  else if r.base = Reg.EVR_OPTIME_HI then half true (opTime s % 2 ^ 40)
  else if r.base = Reg.EVR_READ_RESULT then b2n e.snap.isSome
  else if r.base = Reg.EVR_READ_DATA then (e.snap.map (fun bs => leAt bs (4 * i) 4)).getD 0
  else liveWord s a

/-! ## TST (R745) -/

/-- The TST block. -/
def viewTst (s : State) (r : RegRow) (a : Nat) : Nat :=
  let t := s.tst
  if r.base = Reg.TST_STATUS then
    wordOf [(23, 16, t.queue.length), (15, 8, t.inTest.length), (2, 2, b2n t.autoHeld), (1, 1, b2n (!t.injections.isEmpty)),
      (0, 0, b2n (testActive s))]
  else liveWord s a

/-! ## The instance page (R602) -/

/-- Fens of instance `i` in FENCING or HELD. -/
def heldFens (s : State) (i : Nat) : Nat :=
  countN 40 (fun f => (unitOf s (32 + f)).owner == i && (unitOf s (32 + f)).role == 5 &&
    (decide ((fenOf s f).state = .fencing) || decide ((fenOf s f).state = .held)))

/-- Cores of instance `i` in HELD. -/
def heldCores (s : State) (i : Nat) : Nat :=
  countN 32 (fun k => (unitOf s (88 + k)).owner == i && (unitOf s (88 + k)).role == 6 &&
    decide ((coreOf s (coreIndex s (88 + k))).state = .held))

/-- The fen that aperture `a` of instance `i` shows: 0xFF where the instance does not hold the unit as TENANT_FEN (R602). -/
def apertureUnit (s : State) (i a : Nat) : Nat :=
  let u := (instOf s i).apertures.getD a 0xFF
  if 32 ≤ u ∧ u < 72 ∧ (unitOf s u).role = 5 ∧ (unitOf s u).owner = i then u else 0xFF

/-- The page of instance `i`. -/
def viewVfp (s : State) (r : RegRow) (i j a : Nat) : Nat :=
  let x := instOf s i
  if r.base = Reg.VFP_STATUS then
    wordOf [(31, 24, satN 8 x.resets), (23, 18, heldCores s i), (17, 12, heldFens s i), (2, 2, b2n (isSuspended s i)),
      (1, 0, iStateCode x.state)]
  else if r.base = Reg.VFP_LMEM then
    wordOf [(31, 31, b2n x.overflow), (17, 11, x.lost.length), (10, 0, x.lmem64)]
  else if r.base = Reg.VFP_LMEM_LOST then x.lost.headD 0xFFFFFFFF
  else if r.base = Reg.VFP_FEN_APERTURE then apertureUnit s i j
  else liveWord s a

end Sys2Proof.Machine
end

