-- ==== Sys2Proof/Machine/Commit.lean ====
section
/-! DEFINITION. A pending set at its safe point (00_scope.md, R12, R16; the safe points of R100): whether the safe point has
come, whether the owning block refuses the set, and what the set's taking effect brings with it. -/

namespace Sys2Proof.Machine

/-! ## The groups (the COMMIT registers of the chapters) -/

/-- Instance `i`'s COMMIT register at offset `off` of its page. -/
def pageGroup (c off : Nat) : Option Nat := groupIndex c (0x10000000 + off) 0x10000 512

/-- The unit whose registers stand at element `k` of the arrays of R494. -/
def regUnit (k : Nat) : Nat := if k < 48 then 72 + k else 182 + (k - 48)

/-- The unit of the block that owns a group, 0xFF where the block has none (R721 COMMIT_REFUSED). -/
def commitUnit (c : Nat) : Nat :=
  match groupIndex c 0x201008 0x40 40, groupIndex c 0x501008 0x40 32, groupIndex c 0xA01014 0x80 8,
    groupIndex c 0xD01008 0x40 4 with
  | some f, _, _, _ => 32 + f
  | _, some k, _, _ => k
  | _, _, some e, _ => 144 + e
  | _, _, _, some d => 168 + d
  | none, none, none, none =>
    match groupIndex c 0xC0100C 0x40 50, groupIndex c 0xC01030 0x40 50, groupIndex c 0xE00024 8 2,
      pageGroup c 0x2028 with
    | some k, _, _, _ => regUnit k
    | _, some k, _, _ => regUnit k
    | _, _, some p, _ => 172 + p
    | _, _, _, some _ => 188
    | none, none, none, none =>
      match c / 0x100000 with
      | 1 => 191
      | 4 => 192
      | 6 => 189
      | 9 => 188
      | 16 => 190
      | 17 => 194
      | 20 => 193
      | 21 => 195
      | _ => 0xFF

/-! ## Safe points (R100, R101) -/

/-- No request of instance `i` through registers waits or runs in the key store (R406). -/
def keyEntryFree (s : State) (i : Nat) : Bool := !s.key.reqs.any (fun r => r.inst == i && r.via.isNone)

/-- The safe point of the group at `c` is of kind EPOCH (R100): every group but those whose chapter names another kind. -/
def epochKind (c : Nat) : Bool :=
  let other := [0x100024, 0x900028, 0xF0002C, 0x1000040, 0x1100108, 0x1300020, 0x1400038, 0x1400084, 0x1500024]
  !other.contains c && !isStartGroup c && (groupIndex c 0x201008 0x40 40).isNone && (groupIndex c 0xA01014 0x80 8).isNone &&
    (groupIndex c 0xC01030 0x40 50).isNone && (groupIndex c 0xD01008 0x40 4).isNone && (groupIndex c 0x501008 0x40 32).isNone &&
    (pageGroup c 0x2028).isNone && (pageGroup c 0x209C).isNone

/-- The safe point of a group of one block. The TABLE group's is FED_TABLE_LOAD's (R641), that of a START group a start, and that
of a group of kind EPOCH has come once an epoch has begun since GO (R100). That of FEN[f], of kind BOUNDARY, has come at every
moment between two commands: a command moves whole transfers of at most 4 KiB (log 79). -/
def blockPoint (s : State) (c : Nat) : Bool :=
  match c with
  | 0x100024 => loadEntryFree s
  | 0x900028 => keyEntryFree s 0
  | 0xF0002C => s.ten.reqs.isEmpty
  | 0x1000040 => false
  | 0x1300020 => updStage s == 0
  | 0x1400038 => !s.evr.reading
  | 0x1400084 => s.evr.clear.isNone
  | 0x1500024 => decide (s.tst.queue.length < 16)
  | _ => !isStartGroup c

/-- The safe point of a group of an array. -/
def arrayPoint (s : State) (c : Nat) : Bool :=
  match groupIndex c 0xA01014 0x80 8, groupIndex c 0xC01030 0x40 50, groupIndex c 0xD01008 0x40 4,
    groupIndex c 0x501008 0x40 32, pageGroup c 0x2028 with
  | some e, _, _, _, _ => (feedOf s e).op == 0
  | _, some k, _, _, _ =>
    (match (coreOf s (regCore s k)).state with
    | .running | .waiting => false
    | _ => true)
  | _, _, some d, _, _ => !(dramOf s d).window && decide ((dramOf s d).state ≠ .training)
  | _, _, _, some k, _ =>
    (match (chanOf s k).state with
    | .training | .retraining => false
    | _ => true)
  | _, _, _, _, some i => keyEntryFree s i
  | none, none, none, none, none => true

/-- The group's safe point has come; a set whose unit is in TEST or OFFLINE stays pending (R101). -/
def atSafePoint (s : State) (c : Nat) : Bool :=
  let u := commitUnit c
  let away := match (unitOf s u).state with
    | .test | .offline => decide (u < 197)
    | _ => false
  !away && blockPoint s c && arrayPoint s c && (!epochKind c || (groupAt s c).due)

/-! ## Judgement (R16) -/

/-- R186. -/
def shareRefused (set : Tab Nat) : Bool :=
  let share : Nat → Nat := fun i => fld (inSet set (Reg.SBX_SHARE + 4 * i)) 16 0
  decide (share 0 < 4096) || (List.range 512).any (fun i => decide (65536 < share i) ||
    (i != 0 && decide (61440 < fld (inSet set (Reg.SBX_TICKET_LIMIT + 4 * i)) 16 0)))

/-- R432: an entry of the result areas. -/
def resultRefused (s : State) (i w : Nat) : Bool :=
  bitOf w 31 && (decide (i ≠ 0 ∧ (instOf s i).state = .free) || decide (lmemSize s i < fld w 27 0 * 4096 + 8388608))

/-- Why a line that a binding names is refused: it is undefined, or `bad` holds of it. Line 0 that is undefined is no line
named: every binding resets to 0 (log 58). -/
def namedBad (s : State) (n : Nat) (bad : Line → Bool) : Bool :=
  if lineDefined s n then bad (lineOf s n) else n != 0

/-- R590: the local-memory end of both lines of an instance that exists (log 58). -/
def memLinesRefused (s : State) (set : Tab Nat) : Bool :=
  (List.range 512).any (fun i =>
    let w := inSet set (Reg.HIF_MEM_LINES + 4 * i)
    let kindAt : Option LStep → Bool := fun st => (st.map stepKind) != some 0x0A
    decide (i = 0 ∨ (instOf s i).state ≠ .free) &&
      (namedBad s (fld w 27 16) (fun l => kindAt l.steps.head?) || namedBad s (fld w 11 0) (fun l => kindAt l.steps.getLast?)))

/-- The last step of a line is the map engine in mode `mode`. -/
def endsInMap (l : Line) (mode : Nat) : Bool :=
  match l.steps.getLast? with
  | some st => stepKind st == 0x11 && st.mode == mode
  | none => false

/-- R591: the bindings of namespace `n`. -/
def nsRefused (s : State) (set : Tab Nat) (n : Nat) : Bool :=
  let w : Nat → Nat := fun k => inSet set (nsReg (Reg.HIF_NS_LINES0 + 4 * k) n)
  let key := inSet set (nsReg Reg.HIF_NS_KEY n)
  let owner := ((Tab.get? s.ftl.ns n).map (·.owner)).getD 0
  let slot := slotOf s (fld key 11 0)
  namedBad s (fld (w 0) 11 0) (fun l => l.cls != 3) ||
  namedBad s (fld (w 0) 27 16) (fun l => l.cls != 4 || !l.dirty) ||
  namedBad s (fld (w 1) 11 0) (fun l => l.cls != 4 || !l.steps.any (fun st => stepKind st == 0x0F && st.mode == 1)) ||
  namedBad s (fld (w 1) 27 16) (fun l => !endsInMap l 2) ||
  namedBad s (fld (w 2) 11 0) (fun l => l.cls != 12 || !endsInMap l 0) ||
  namedBad s (fld (w 2) 27 16) (fun l => l.cls != 12 || !endsInMap l 1) ||
  namedBad s (fld (w 3) 11 0) (fun _ => false) || namedBad s (fld (w 3) 27 16) (fun _ => false) ||
  (bitOf key 31 && (decide (slot.state = .free) || slot.owner != owner))

/-- R499: the windows of the core at element `k`. -/
def winRefused (set : Tab Nat) (k : Nat) : Bool :=
  let a := Reg.GLY_CORE_WIN_BASE + 0x40 * k
  decide (k < 16) || (List.range 4).any (fun w =>
    let b := inSet set (a + 8 * w)
    bitOf b 31 && decide (fld (inSet set (a + 8 * w + 4)) 27 0 < fld b 27 0))

/-- R424: the operation does not meet the table. -/
def feedRefused (s : State) (set : Tab Nat) (e : Nat) : Bool :=
  let op := fld (inSet set (Reg.DGT_FEED_CTL + 0x80 * e)) 2 0
  !((op == 1 || op == 3) && !(feedOf s e).opened) && !((op == 2 || op == 4) && (feedOf s e).opened)

/-- R406: the key request of instance `i`. -/
def keySetRefused (set : Tab Nat) (i : Nat) : Bool :=
  let r := keyReqFrom set i
  r.op == 0 || decide (7 < r.op) || r.addr % 64 != 0

/-- R614. -/
def tenSetRefused (set : Tab Nat) : Bool :=
  let op := inSet set Reg.TEN_REQ_OP
  fld op 3 0 == 0 || decide (8 < fld op 3 0) || fld op 16 8 == 0 ||
    (fld op 3 0 == 1 && fld (inSet set Reg.TEN_REQ_ARG) 31 21 == 0)

/-- A register of the LOG group of instance `i`: bits 63 to 0 of the pair at `a`. -/
def logPair (set : Tab Nat) (a i : Nat) : Nat :=
  let b := a + 0x40 * (i - 1)
  inSet set b + inSet set (b + 4) * 2 ^ 32

/-- Bytes of a log buffer: its header, and one bit for each page covered (R609). -/
def logBytes (coverGib : Nat) : Nat := 64 + coverGib * 32768

/-- R615. -/
def logRefused (s : State) (set : Tab Nat) (i : Nat) : Bool :=
  let cfg := inSet set (Reg.TEN_LOG_CFG + 0x40 * (i - 1))
  let cover := fld cfg 12 0
  let p : Nat → Nat := fun a => logPair set a i
  let old : Nat → Nat := fun a => logPair s.regs.eff a i
  let b0 := p Reg.TEN_LOG_BUF0_LO
  let b1 := p Reg.TEN_LOG_BUF1_LO
  let kept := bitOf cfg 31 && eff s (Reg.TEN_LOG_CFG + 0x40 * (i - 1)) 31 31 == 1
  decide ((instOf s i).state = .free) || (bitOf cfg 31 && (cover == 0 || decide (4096 < cover))) ||
    [Reg.TEN_LOG_BASE_LO, Reg.TEN_LOG_BUF0_LO, Reg.TEN_LOG_BUF1_LO].any (fun a => p a % 4096 != 0) ||
    decide (b0 < b1 + logBytes cover ∧ b1 < b0 + logBytes cover) ||
    (kept && (cover != eff s (Reg.TEN_LOG_CFG + 0x40 * (i - 1)) 12 0 ||
      [Reg.TEN_LOG_BASE_LO, Reg.TEN_LOG_BUF0_LO, Reg.TEN_LOG_BUF1_LO].any (fun a => p a != old a)))

/-- R645: two instances carry the same non-zero tag. -/
def tagsRefused (set : Tab Nat) : Bool :=
  let l := ((List.range 512).map (fun i => if i = 0 then 0 else inSet set (Reg.FED_INST_TAG + 4 * i))).filter (· != 0)
  decide (l.eraseDups.length ≠ l.length)

/-- R646. -/
def rxRefused (s : State) (set : Tab Nat) : Bool :=
  (List.range 218).any (fun n =>
    let w := inSet set (Reg.FED_RX_LINE + 4 * n)
    let l := lineOf s (fld w 11 0)
    bitOf w 31 && !(match l.steps.head? with
      | some st => stepKind st == 0x0C && st.mode == 1
      | none => false))

/-- The peat fields of a FUSE set: CEIL_QJ, VMAX_DV, CMAX_MF. -/
def fuseSet (set : Tab Nat) : Nat × Nat × Nat :=
  let w := inSet set Reg.TRU_FUSE_PEAT
  (fld w 7 0, fld w 17 8, fld w 31 18)

/-- R653. -/
def fuseRefused (s : State) (set : Tab Nat) : Bool :=
  let f := fuseSet set
  let burned := decide (s.tru.peatFuses ≠ (0, 0, 0))
  let inRange := decide (16 ≤ f.1) && decide (f.1 ≤ 192) && decide (120 ≤ f.2.1) && decide (f.2.1 ≤ 600) && f.2.2 != 0
  decide (s.tru.lifecycle ≠ 0) ||
    (decide (f ≠ (0, 0, 0)) && (if burned then decide (f ≠ s.tru.peatFuses) else !inRange))

/-- R717; in HALTED the boot ROM takes STAGE alone (R715). -/
def stageRefused (s : State) (set : Tab Nat) : Bool :=
  let w := inSet set Reg.UPD_STAGE_OP
  let len := inSet set Reg.UPD_STAGE_LEN
  fld w 2 0 == 0 || decide (4 < fld w 2 0) || fld w 9 8 == 3 || inSet set Reg.UPD_STAGE_ADDR_LO % 64 != 0 ||
    decide (len < 256) || decide (25165824 < len) || (decide (s.boot.phase = .halted) && fld w 2 0 != 1)

/-- R732: the delivery areas; the size is judged of an entry that is enabled (log 59). -/
def areaRefused (s : State) (set : Tab Nat) : Bool :=
  (List.range 512).any (fun i =>
    let a := Reg.EVR_INST_AREA + 4 * i
    let w := inSet set a
    (i == 0 && bitOf w 31) || (bitOf w 31 && decide (lmemSize s i < fld w 27 0 * 4096 + 65536)))

/-- R602: the core command of instance `i`. -/
def coreSetRefused (s : State) (set : Tab Nat) (i : Nat) : Bool :=
  let w := inSet set (Reg.VFP_CORE_CMD + pageOf i)
  let u := fld w 7 0
  let cmd := fld w 9 8
  !(decide (88 ≤ u) && decide (u < 120) && (unitOf s u).role == 6 && (unitOf s u).owner == i) || cmd == 0 || cmd == 3 ||
    (cmd == 1 && decide ((coreOf s (coreIndex s u)).state ≠ .stopped))

/-- R136: FMAX_CAP_MHZ of fen `f`. -/
def fmaxRefused (set : Tab Nat) (f : Nat) : Bool :=
  let m := fld (inSet set (fenReg Reg.FAB_FEN_CFG f)) 9 0
  m != 0 && (decide (m < 25) || decide ((if f < 32 then 600 else 500) < m))

/-- What refuses the set of a group of one block. -/
def blockRefused (s : State) (c : Nat) (set : Tab Nat) : Bool :=
  match c with
  | 0x100024 =>
    loadSetRefused (inSet set Reg.CFG_LOAD_ADDR_LO) (inSet set Reg.CFG_LOAD_LEN) (inSet set Reg.CFG_LOAD_TARGET)
  | 0x200010 =>
    aliasRefused s (fun f => bitOf (inSet set (fenReg Reg.FAB_FEN_ALIAS f)) 31)
      (fun f => fld (inSet set (fenReg Reg.FAB_FEN_ALIAS f)) 7 0)
  | 0x30000C => shareRefused set
  | 0x600014 =>
    decide (fld (inSet set Reg.FTL_SLUICE_CFG) 22 16 ≤ fld (inSet set Reg.FTL_SLUICE_CFG) 14 8)
  | 0x900028 => keySetRefused set 0
  | 0xA00010 => (List.range 512).any (fun i => resultRefused s i (inSet set (Reg.DGT_RESULT + 4 * i)))
  | 0xE00048 => memLinesRefused s set
  | 0xF0002C => tenSetRefused set
  | 0x1000058 => tagsRefused set
  | 0x100005C => rxRefused s set
  | 0x1100108 => fuseRefused s set
  | 0x1300020 => stageRefused s set
  | 0x1400084 => fld (inSet set Reg.EVR_CLEAR_CTL) 0 0 == 0 || (clearSession s).isNone
  | 0x1400090 => areaRefused s set
  | 0x1500024 =>
    let w := inSet set Reg.TST_UNIT_REQ
    !bitOf w 8 || !testable (fld w 7 0)
  | 0x1500050 =>
    let w := inSet set Reg.TST_INJ_CTL
    injRefused s (fld w 3 0) (fld w 15 8) (inSet set Reg.TST_INJ_PARAM) (fld (inSet set Reg.TST_INJ_COUNT) 15 0)
  | _ => false

/-- What refuses the set of a group of an array. -/
def arrayRefused (s : State) (c : Nat) (set : Tab Nat) : Bool :=
  match groupIndex c 0x201008 0x40 40, groupIndex c 0xA01014 0x80 8, groupIndex c 0xC01030 0x40 50,
    groupIndex c 0xE04034 0x20 1024, groupIndex c 0xF01064 0x40 511 with
  | some f, _, _, _, _ => fmaxRefused set f
  | _, some e, _, _, _ => feedRefused s set e
  | _, _, some k, _, _ => winRefused set k
  | _, _, _, some n, _ => nsRefused s set (n + 1)
  | _, _, _, _, some k => logRefused s set (k + 1)
  | none, none, none, none, none =>
    match pageGroup c 0x2028, pageGroup c 0x2084, pageGroup c 0x209C with
    | some i, _, _ => keySetRefused set i
    | _, some i, _ => resultRefused s i (inSet set (Reg.VFP_DGT_RESULT + pageOf i))
    | _, _, some i => coreSetRefused s set i
    | none, none, none => false

/-- The owning block refuses the set (R16). -/
def setRefused (s : State) (c : Nat) (set : Tab Nat) : Bool :=
  !rangesOk c set || blockRefused s c set || arrayRefused s c set

/-! ## Effects -/

/-- The fabric captures OWNER into each enabled alias entry (R130). -/
def captureAliases (s : State) : State :=
  { s with fab := { s.fab with aliasOwner := (List.range 40).foldl (fun t f =>
      if isAliased s f then Tab.set t f (unitOf s (32 + f)).owner else Tab.erase t f) s.fab.aliasOwner } }

/-- The power state that a host set is in force: its commands complete (R582). -/
def powerCmdsDone (s : State) : State :=
  (s.hif.cmds.filter (fun y => y.op == 0x09 && y.arg == 2)).foldl (fun s y => endCmd s y) s

/-- The set-up request that the REQ group holds (R614). -/
def tenRequest (s : State) : State :=
  let op := effWord s Reg.TEN_REQ_OP
  let arg := effWord s Reg.TEN_REQ_ARG
  let r : TenReq := {
    op := fld op 3 0, inst := fld op 16 8, unit := fld op 31 24, port := fld arg 16 16, vf := fld arg 8 0,
    lmem64 := fld arg 31 21, cookie := effWord s Reg.TEN_REQ_COOKIE,
    wins := [Reg.TEN_REQ_WIN2_BASE, Reg.TEN_REQ_WIN2_LIMIT, Reg.TEN_REQ_WIN3_BASE, Reg.TEN_REQ_WIN3_LIMIT].map (effWord s) }
  setTen s { s.ten with reqs := s.ten.reqs ++ [r] }

/-- Turning EN of instance `i`'s log on or off (R615); `was`: EN before. -/
def logTurn (s : State) (was : Bool) (i : Nat) : State :=
  let cfg := effWord s (Reg.TEN_LOG_CFG + 0x40 * (i - 1))
  let p : Nat → Nat := fun a => logPair s.regs.eff a i
  if bitOf cfg 31 && !was then
    logStart s i (p Reg.TEN_LOG_BASE_LO) (fld cfg 12 0) (p Reg.TEN_LOG_BUF0_LO) (p Reg.TEN_LOG_BUF1_LO)
  else if was && !bitOf cfg 31 then logStop s i
  else s

/-- The fuses that a FUSE set burns (R653); the lifecycle is measured anew (R655). -/
def burnFuses (s : State) : State :=
  let f := fuseSet s.regs.eff
  let s := if f = (0, 0, 0) then s else setTru s { s.tru with peatFuses := f }
  if eff s Reg.TRU_FUSE_CTL 0 0 = 1 then measSecurity (setTru s { s.tru with lifecycle := 1 }) else s

/-- The update operation that the STAGE group holds (R717). -/
def stageRequest (s : State) : State :=
  let w := effWord s Reg.UPD_STAGE_OP
  setUpd s { s.upd with req := some {
    op := fld w 2 0, slot := fld w 9 8, len := effWord s Reg.UPD_STAGE_LEN,
    addr := effWord s Reg.UPD_STAGE_ADDR_LO + effWord s Reg.UPD_STAGE_ADDR_HI * 2 ^ 32 } }

/-- A delivery area that is enabled anew, or moved, begins with the instance's records (R726). -/
def areasBegin (o s : State) : State :=
  (List.range 512).foldl (fun s i =>
    let a := Reg.EVR_INST_AREA + 4 * i
    if eff s a 31 31 = 1 ∧ eff o a 31 31 = 0 then redeliver s i else s) s

/-- Instances whose federation tag changes, or that own a unit whose receive line changes, are disturbed (R671). -/
def tagsDisturb (o s : State) : State :=
  (List.range 512).foldl (fun s i =>
    if i ≠ 0 ∧ effWord o (Reg.FED_INST_TAG + 4 * i) ≠ effWord s (Reg.FED_INST_TAG + 4 * i) then tdiDisturb s i else s) s

/-- As `tagsDisturb`, for the receive lines of units. -/
def rxDisturb (o s : State) : State :=
  (List.range 218).foldl (fun s n =>
    let i := (unitOf s n).owner
    if i ≠ 0 ∧ effWord o (Reg.FED_RX_LINE + 4 * n) ≠ effWord s (Reg.FED_RX_LINE + 4 * n) then tdiDisturb s i else s) s

/-- The injection that the INJ group holds waits for its kind's command (R740, R749). -/
def injRequest (s : State) : State :=
  let w := effWord s Reg.TST_INJ_CTL
  let i : Inj := {
    kind := fld w 3 0, target := fld w 15 8, param := effWord s Reg.TST_INJ_PARAM,
    count := fld (effWord s Reg.TST_INJ_COUNT) 15 0, windowUs := effWord s Reg.TST_INJ_WINDOW }
  setTst s { s.tst with injAsked := s.tst.injAsked ++ [(i, bitOf w 4)] }

/-- A result area has one effective value, which the operator's register and the instance's own both show (R432, R602,
R778). -/
def sameResults (s : State) : State :=
  (List.range 512).foldl (fun s i =>
    let w := effWord s (Reg.DGT_RESULT + 4 * i)
    let a := Reg.VFP_DGT_RESULT + pageOf i
    if effWord s a = w then s else setEff s a 31 0 w) s

/-- What the taking effect of a set of one block brings with it; `o` is the state before it. -/
def blockEffect (o s : State) (c : Nat) : State :=
  match c with
  | 0x100024 => cfgRequest s
  | 0x200010 => captureAliases s
  | 0x400034 => powerCmdsDone s
  | 0x600014 => judgeFold s
  | 0x600108 => judgeSpare s
  | 0x900028 => keyAsk s (keyReqFrom s.regs.eff 0)
  | 0xA00010 => sameResults s
  | 0xF0002C => tenRequest s
  | 0x1000058 => tagsDisturb o s
  | 0x100005C => rxDisturb o s
  | 0x1100108 => burnFuses s
  | 0x1300020 => stageRequest s
  | 0x1300040 => confirmImage s
  | 0x1400038 => setEvr s { s.evr with reading := true }
  | 0x1400084 => startClear s
  | 0x1400090 => areasBegin o s
  | 0x1500024 =>
    let u := eff s Reg.TST_UNIT_REQ 7 0
    setTst s { s.tst with queue := s.tst.queue ++ [{ unit := u, cause := 1, bank := 4 * (u - 152) }] }
  | 0x1500050 => injRequest s
  | _ => s

/-- The command of instance `i`'s CORE group (R489, R602). -/
def coreCommand (s : State) (i : Nat) : State :=
  let w := effWord s (Reg.VFP_CORE_CMD + pageOf i)
  let c := coreIndex s (fld w 7 0)
  let entry := effWord s (Reg.VFP_CORE_ENTRY_LO + pageOf i) + effWord s (Reg.VFP_CORE_ENTRY_HI + pageOf i) * 2 ^ 32
  if fld w 9 8 = 1 then coreStartOp s c (BitVec.ofNat 64 entry) else coreStopOp s c

/-- What the taking effect of a set of an array brings with it. -/
def arrayEffect (o s : State) (c : Nat) : State :=
  match groupIndex c 0xA01014 0x80 8, groupIndex c 0xD01008 0x40 4, groupIndex c 0x501008 0x40 32,
    groupIndex c 0xF01064 0x40 511 with
  | some e, _, _, _ => setFeed s e { feedOf s e with op := fld (feedReg s e Reg.DGT_FEED_CTL) 2 0 }
  | _, some d, _, _ => if dramTarget o d = dramTarget s d then s else rateChange s d
  | _, _, some k, _ =>
    let a := Reg.FCH_CH_CFG + 0x40 * k
    if eff o a 2 0 = eff s a 2 0 then s else setChan s k { chanOf s k with due := true }
  | _, _, _, some k => logTurn s (eff o (Reg.TEN_LOG_CFG + 0x40 * k) 31 31 == 1) (k + 1)
  | none, none, none, none =>
    match pageGroup c 0x2028, pageGroup c 0x2084, pageGroup c 0x209C with
    | some i, _, _ => keyAsk s (keyReqFrom s.regs.eff i)
    | _, some i, _ => setEff s (Reg.DGT_RESULT + 4 * i) 31 0 (effWord s (Reg.VFP_DGT_RESULT + pageOf i))
    | _, _, some i => coreCommand s i
    | none, none, none => s

/-- A pending set is judged and becomes effective together, or is refused (R12, R16). -/
def judgeSet (s : State) (c : Nat) (set : Tab Nat) : State :=
  if setRefused s c set then refuseSet s c (commitUnit c)
  else
    let t := takeSet s c
    let t := if isSetting c then saveSettings t else t
    arrayEffect s (blockEffect s t c) c

/-- The pending set of the group at `c` reaches its safe point. Nothing happens where no set is pending or the safe point has
not come. -/
def commitEffect (s : State) (c : Nat) : State :=
  match (groupAt s c).pending with
  | none => s
  | some set => if atSafePoint s c then judgeSet s c set else s

end Sys2Proof.Machine
end

