-- ==== Sys2Proof/Machine/Epoch.lean ====
section
/-! DEFINITION. The start of an epoch (R160), with everything that falls due there: idle domains (R201), the sets of commit groups
whose safe point it is (R100, R169), the fens' measured power (R128, R141); and the sets that wait for a unit's return (R101). -/

namespace Sys2Proof.Machine

/-! ## Idle domains (R201, R492) -/

/-- No ticket is inside unit `u`: none has a context, a read or a program there, nor stands in its fen or core. -/
def noneInside (s : State) (u : Nat) : Bool :=
  (insideOf s u).isEmpty && (portionsInside s u).isEmpty && (decide (32 ≤ u) || (chanOf s u).programs.isEmpty)

/-- The work under number `u` is idle for R201: its queue is empty and no ticket is inside. A core counts as idle only while it is
STOPPED, HELD, or WAITING with IPEND AND IMASK at 0 (R492). -/
def workQuiet (s : State) (u : Nat) : Bool :=
  (inboxOf s u).isEmpty && noneInside s u &&
  (if kindOf u = 0x04 ∨ kindOf u = 0x05 then
    let k := coreOf s (coreIndex s u)
    k.state = .stopped || k.state = .held || (k.state = .waiting && !k.irq)
  else true)

/-- Hardware unit `u` is idle: a bound spare by the work of the number it serves (R25), a unit that a spare stands for by not being
in test, and any other by the work of its own number. -/
def unitQuiet (s : State) (u : Nat) : Bool :=
  let r := unitOf s u
  if r.state = .bound then workQuiet s r.serves
  else if hwUnit s u ≠ u then decide (r.state ≠ .test)
  else workQuiet s u

/-- No packet in flight takes a route through trunk quadrant `q` (R781). -/
def quadQuiet (s : State) (q : Nat) : Bool :=
  s.dev.trunk.all (fun p => routers.all (fun r => quadOf r.1 r.2 != q || !onRoute s p r))

/-- Island `k` is idle. -/
def islandQuiet (s : State) (k : Nat) : Bool :=
  if 0xE0 ≤ k ∧ k ≤ 0xE3 then quadQuiet s (k - 0xE0) else (islandUnits k).all (unitQuiet s)

/-- Idle epochs of the domains (R201) and of the cores (R492) are counted at each epoch start. -/
def countIdle (s : State) : State :=
  let s := { s with cores := Tab.mapVals s.cores (fun c k =>
    { k with idle := if k.inside.isEmpty && k.inq.isEmpty && (inboxOf s (coreUnit s c)).isEmpty then k.idle + 1 else 0 }) }
  setPwr s { s.pwr with islands := Tab.mapVals s.pwr.islands (fun k i =>
    { i with idle := if islandQuiet s k then i.idle + 1 else 0 }) }

/-! ## The fens' power (R128, R141) -/

/-- The power that fen `f`'s domain drew in the last epoch: MEASURED_MW, and the count of consecutive epochs above 1.25 × POWER_MW. -/
def measureFen (s : State) (f mw : Nat) : State :=
  let x := fenOf s f
  let above := fenClocked x && (match x.image with
    | some i => decide (5 * i.power < 4 * mw)
    | none => false)
  let s := setLive s (fenReg Reg.FAB_FEN_POWER f) 31 16 (min mw 65535)
  if above || x.hot != 0 then setFen s f { x with hot := if above then x.hot + 1 else 0 } else s

/-- Every fen's domain is measured in every epoch. -/
def measureFens (s : State) (mw : List Nat) : State :=
  (List.range (min 40 mw.length)).foldl (fun s f => measureFen s f (mw.getD f 0)) s

/-! ## Sets that fall due (R100, R101, R169) -/

/-- An epoch begins: the safe point of every set that is pending in a group of kind EPOCH has come. -/
def markDue (s : State) : State :=
  let groups := Tab.mapVals s.regs.groups (fun c g => if epochKind c && g.pending.isSome then { g with due := true } else g)
  { s with regs := { s.regs with groups := groups } }

/-- The signal box's own sets take effect at the epoch's start, between the refill and the scan (R160 step 3, R169): ADMIT
and SHARE; a credit above its new cap is cut to it. -/
def epochSets (s : State) : State := (List.range 512).foldl capCredit (commitEffect (commitEffect s 0x300008) 0x30000C)

/-- The groups whose block is unit `u` and that have a pending set. -/
def pendingOf (s : State) (u : Nat) : List Nat :=
  Tab.keys (Tab.keep s.regs.groups (fun c g => commitUnit c == u && !isStartGroup c && c != 0x1000040 && g.pending.isSome))

/-- Unit `u` has come back into service: a set that stayed pending takes effect before the unit's first ticket (R101). -/
def backSets (s : State) (u : Nat) : State :=
  if u < 197 ∧ inService s u then
    (pendingOf s u).foldl (fun s c => match (groupAt s c).pending with
      | some set => judgeSet s c set
      | none => s) s
  else s

/-- GEN_HELD_EVENT_APPLY (R31): the oldest held change takes effect once the window allows it; a unit that comes back into
service by it takes its pending sets first (R101). -/
def execGenHeldEventApply (unit : Nat) (s : State) : Out :=
  let r := unitOf s unit
  match r.held with
  | [] => .next s
  | c :: t =>
    if c.isEvent r ∧ 2 ≤ (recentIncs s r).length then .next s
    else
      let away := !inService s unit
      let s := doChange (setUnit s unit { r with held := t }) unit c
      .next (if away then backSets s unit else s)

/-- UNIT_TEST_DONE (R734, R736, R101). -/
def execUnitTestDone (unit : Nat) (result : TestResult) (s : State) : Out :=
  .next (backSets (unitTested s unit result.passed result.tiles) unit)

/-! ## The epoch (R160) -/

/-- EPOCH_START (R160): the power manager measures and publishes A, the gates and the write-back allowance; the signal box refills
credit, applies R155 and R169, and scans the waiting portions. -/
def execEpochStart (env : EpochEnv) (s : State) : Out :=
  let s := epochRefill (publish (measureFens (countIdle (rollEpoch (markDue s))) env.fenMw) env)
  .next (scan (epochSets (ageWaiting (staleWaiting s))))

end Sys2Proof.Machine
end

