-- ==== Sys2Proof/Machine/NvmeRegs.lean ====
section
/-! DEFINITION. The registers of the NVMe controllers (R560, R561, R689): of a physical function in its BAR2, of a virtual
function in the first 8 KiB of its page. Their places are those of the NVM Express standard (PRESUMED, log 41). -/

namespace Sys2Proof.Machine

/-- The keys under which the model holds BAR2 of the physical function of port 0; port 1's stands 16 KiB above (R560). -/
def bar2 : Nat := 0x30000000

/-- The controller whose register stands at `a`, and its offset. -/
def nvmeReg (a : Nat) : Option (Nat × Nat) :=
  if bar2 ≤ a ∧ a < bar2 + 0x8000 then some ((a - bar2) / 0x4000, a % 0x4000)
  else if 0x10010000 ≤ a ∧ a < 0x12000000 ∧ a % 0x10000 < 0x2000 then some ((a - 0x10000000) / 0x10000 + 1, a % 0x10000)
  else none

/-- A controller answers: a physical function of a port that exists from phase TRAIN on, a virtual function in READY
(R689). -/
def nvmeAnswers (s : State) (c : Nat) : Bool :=
  !s.boot.off && (match s.boot.phase with
    | .ready => decide (2 ≤ c) || portExists s c
    | .train | .stream | .recover | .restore => decide (c < 2) && portExists s c
    | _ => false)

/-- CAP: MQES 4,095, TO 20, DSTRD 0, MPSMIN 4 KiB, MPSMAX 64 KiB (R560, R689); its other fields are free. -/
def nvmeCap : Nat :=
  setFld (setFld (setFld (setFld (setFld (Config.nvmeCap % 2 ^ 64) 15 0 4095) 31 24 20) 35 32 0) 51 48 0) 55 52 4

/-- CSTS: RDY follows CC.EN in READY (R689), and SHST says that a shutdown notified in CC has completed. -/
def nvmeCsts (s : State) (c : Nat) : Nat :=
  let cc := (ctrlOf s c).cc
  wordOf [(0, 0, b2n (bitOf cc 0 && decide (s.boot.phase = .ready))), (3, 2, if fld cc 15 14 = 0 then 0 else 2)]

/-- A read of a controller's register. -/
def nvmeRead (s : State) (c off : Nat) : Nat :=
  let x := ctrlOf s c
  if !nvmeAnswers s c then 0
  else match off with
    | 0x00 => half false nvmeCap
    | 0x04 => half true nvmeCap
    | 0x08 => Config.nvmeVersion % 2 ^ 32
    | 0x14 => x.cc % 2 ^ 32
    | 0x1C => nvmeCsts s c
    | 0x24 => x.aqa
    | 0x28 => half false x.asq
    | 0x2C => half true x.asq
    | 0x30 => half false x.acq
    | 0x34 => half true x.acq
    | _ => 0

/-- CC.EN goes from 0 to 1: the admin queues stand where AQA, ASQ and ACQ say. -/
def nvmeEnable (s : State) (c : Nat) : State :=
  let x := ctrlOf s c
  setCtrl s c { x with
    sqs := Tab.set x.sqs 0 { base := x.asq, size := fld x.aqa 11 0 + 1 },
    cqs := Tab.set x.cqs 0 { base := x.acq, size := fld x.aqa 27 16 + 1, iv := some 0 } }

/-- CC.EN goes from 1 to 0 (R561, R603). -/
def nvmeDisable (s : State) (c : Nat) : State :=
  if c < 2 then dropController s c false else instanceReset s (ctrlInst c) false

/-- A physical function's CC.SHN notifies a shutdown: what is staged is written, and the clean-shutdown checkpoint (R303) is
the last mark (R696); that CC is its trigger is PRESUMED (log 60). -/
def nvmeShutdown (s : State) : State :=
  let s := runCkpt (flushStaging s) true
  if s.ftl.closed then setBoot s { s.boot with mark := 1 } else s

/-- A write of CC. -/
def nvmeConfigure (s : State) (c v : Nat) : State :=
  let old := (ctrlOf s c).cc
  let s := if bitOf v 0 && !bitOf old 0 then nvmeEnable s c
    else if bitOf old 0 && !bitOf v 0 then nvmeDisable s c
    else s
  let s := setCtrl s c { ctrlOf s c with cc := v }
  if c < 2 ∧ fld old 15 14 = 0 ∧ fld v 15 14 ≠ 0 ∧ s.boot.phase = .ready then nvmeShutdown s else s

/-- A write of a controller's register; doorbells are SQ_DOORBELL's, and a completion queue's head is not needed (log 41). -/
def nvmeWrite (s : State) (c off v : Nat) : State :=
  let x := ctrlOf s c
  if !nvmeAnswers s c then s
  else match off with
    | 0x14 => nvmeConfigure s c v
    | 0x24 => setCtrl s c { x with aqa := v }
    | 0x28 => setCtrl s c { x with asq := x.asq / 2 ^ 32 * 2 ^ 32 + v }
    | 0x2C => setCtrl s c { x with asq := x.asq % 2 ^ 32 + v * 2 ^ 32 }
    | 0x30 => setCtrl s c { x with acq := x.acq / 2 ^ 32 * 2 ^ 32 + v }
    | 0x34 => setCtrl s c { x with acq := x.acq % 2 ^ 32 + v * 2 ^ 32 }
    | _ => s

end Sys2Proof.Machine
end

