-- ==== Sys2Proof/Machine/Registers.lean ====
section
/-! DEFINITION. Register accesses (00_scope.md, R6–R17; R29, R408, R601, R602, R689): what a read returns and does, and what a
write does, for BAR0 of the physical functions, the pages of the instances and the NVMe controllers' registers. -/

namespace Sys2Proof.Machine

/-! ## Which registers answer (R689, R601) -/

/-- The address lies in an instance's page: the instance. -/
def pageInst (a : Nat) : Option Nat :=
  if 0x10010000 ≤ a ∧ a < 0x12000000 then some ((a - 0x10000000) / 0x10000) else none

/-- The block at the 1 MiB window of `a` answers in this phase (R689, R693). -/
def blockAnswers (s : State) (a : Nat) : Bool :=
  let blk := a / 0x100000
  match s.boot.phase with
  | .ready => true
  | .train | .stream | .recover | .restore => [0, 4, 17, 18, 19, 20].contains blk
  | .halted => s.boot.halt != 1 && [0, 18, 19, 20].contains blk
  | _ => false

/-- The register at `a` answers: a page only in READY, and not while its instance is FREE or RESETTING (R601). -/
def regAnswers (s : State) (a : Nat) : Bool :=
  !s.boot.off && (match pageInst a with
    | some i => decide (s.boot.phase = .ready) && (match (instOf s i).state with
        | .free | .resetting => false
        | _ => true)
    | none => decide (a < 0x10000000) && blockAnswers s a)

/-! ## What a register shows -/

/-- The _LO registers of pairs: base, count and stride of each array (R7). -/
def loRows : List (Nat × Nat × Nat) := [
  (0x8, 1, 0), (0x100010, 1, 0), (0x100050, 1, 0), (0x100058, 1, 0), (0x100060, 1, 0), (0x300010, 1, 0), (0x600030, 1, 0),
  (0x600038, 1, 0), (0x600040, 1, 0), (0x600120, 1, 0), (0x600128, 1, 0), (0x600130, 1, 0), (0x600138, 1, 0),
  (0x600140, 1, 0), (0x600148, 1, 0), (0x600150, 1, 0), (0x701004, 17, 0x40), (0x70100C, 17, 0x40), (0x801004, 9, 0x40),
  (0x80100C, 9, 0x40), (0x900018, 1, 0), (0xA01004, 8, 0x80), (0xA0100C, 8, 0x80), (0xF0104C, 511, 0x40),
  (0xF01054, 511, 0x40), (0xF0105C, 511, 0x40), (0x1000034, 1, 0), (0x1000104, 4, 0x10), (0x1300010, 1, 0),
  (0x1300050, 2, 0x10), (0x1400010, 1, 0), (0x1400018, 1, 0), (0x1400020, 1, 0), (0x1400030, 1, 0),
  (0x10002094, 512, 0x10000), (0x10002018, 512, 0x10000)]

/-- The register at `a` is the _LO half of a pair. -/
def isLo (a : Nat) : Bool := loRows.any (fun r => (groupIndex a r.1 (max 1 r.2.2) r.2.1).isSome)

/-- The value of the fields of a register that the device keeps, as its block shows them. -/
def view (s : State) (r : RegRow) (i j a : Nat) : Nat :=
  match a / 0x100000 with
  | 0 => viewDev s r i a
  | 1 => viewCfg s r a
  | 2 => viewFab s r i a
  | 3 => viewSbx s r i a
  | 4 => viewPwr s r i a
  | 5 => viewFch s r i a
  | 6 => viewFtl s r i a
  | 7 => viewCmp s r i a
  | 8 => viewCip s r i a
  | 9 => viewKey s r i a
  | 10 => viewDgt s r i j a
  | 11 => viewAsu s r i a
  | 12 => viewGly s r i a
  | 13 => viewDrc s r i a
  | 14 => viewHif s r i a
  | 15 => viewTen s r i a
  | 16 => viewFed s r i a
  | 17 => viewTru s r i a
  | 18 => viewBoot s r i a
  | 19 => viewUpd s r i a
  | 20 => viewEvr s r i a
  | 21 => viewTst s r a
  | _ => viewVfp s r i j a

/-- The word of a register, field by field: an RWS field shows its staged value, a WO field 0, every other the current value;
reserved bits are 0 (R9, R10). -/
def shownWord (s : State) (r : RegRow) (i j a : Nat) : Nat :=
  r.fields.foldl (fun w f =>
    match f.acc with
    | .rws => setFld w f.hi f.lo (fld (stagedWord s a) f.hi f.lo)
    | .wo => w
    | _ => setFld w f.hi f.lo (fld (view s r i j a) f.hi f.lo)) 0

/-- The siding registers of the page of instance `i` at offset `off` (R601). -/
def pageSidingWord (s : State) (i off : Nat) : Nat :=
  if off = 0x2040 then sidingStatus s i
  else if 0x2060 ≤ off ∧ off < 0x2080 then sidingHeadWord s i ((off - 0x2060) / 4)
  else if 0x4000 ≤ off ∧ off < 0x6000 then sidingDataWord s i ((off - 0x4000) / 4)
  else 0

/-- A _HI half returns what the last read of its _LO latched (R7); every other register shows its word; a page's siding is
its own (R601); an offset that is not implemented reads 0 (R11). -/
def shownAt (s : State) (a : Nat) : Nat :=
  if 4 ≤ a ∧ isLo (a - 4) then Tab.getD s.regs.loLatch (a - 4) 0
  else if isCommit a then commitRead s a
  else match findReg a with
    | some (r, i, j) => shownWord s r i j a
    | none => (pageInst a).elim 0 (fun i => pageSidingWord s i (a % 0x10000))

/-- The fen and register of a control window that the address names: the operator's FAB_FEN_CTLWIN (R144), or an aperture of
an instance's page (R601, R602). -/
def windowAt (s : State) (a : Nat) : Option (Nat × Nat × Option Nat) :=
  if 0x208000 ≤ a ∧ a < 0x208000 + 40 * 0x1000 then some ((a - 0x208000) / 0x1000, a % 0x1000 / 4, none)
  else match pageInst a with
    | some i =>
      if 0x8000 ≤ a % 0x10000 then
        some (apertureUnit s i ((a % 0x10000 - 0x8000) / 0x1000) - 32, a % 0x1000 / 4, some i)
      else none
    | none => none

/-! ## What a read does -/

/-- The RC fields of the register are cleared (R9); the energy booked to a class keeps what is below 1 mJ (log 61). -/
def clearRc (s : State) (r : RegRow) (i a : Nat) : State :=
  if r.base = Reg.PWR_CLASS_MJ then
    setPwr s { s.pwr with booked := Tab.upd s.pwr.booked (i + 1) 0 (fun n => n % 1000000) }
  else if r.base = Reg.VFP_LMEM_LOST then (popLost s i).2
  else (r.fields.filter (fun f => f.acc = .rc)).foldl (fun s f => setLive s a f.hi f.lo 0) s

/-- KEY_SLOT_GEN or KEY_SLOT_USE of the slot at `a`, as the read of KEY_SLOT_STATUS latches them (R408). -/
def latchSlot (s : State) (n : Nat) : State :=
  setKey s { s.key with latch := Tab.set s.key.latch n ((slotOf s n).gen % 2 ^ 32, slotUseWord s n) }

/-- What a read of an implemented register leaves behind: latches (R7, R29, R408) and cleared fields (R9). -/
def readEffect (s : State) (r : RegRow) (i j a : Nat) : State :=
  if r.base = Reg.DEV_UNIT_ROLE then
    { s with dev := { s.dev with genLatch := Tab.set s.dev.genLatch i (unitGenWord s i) } }
  else if r.base = Reg.KEY_SLOT_STATUS then latchSlot s i
  else
    let s := if isLo a then
        (match findReg (a + 4) with
        | some (h, i', j') =>
          let w := shownWord s h i' j' (a + 4)
          { s with regs := { s.regs with loLatch := Tab.set s.regs.loLatch a w } }
        | none => s)
      else s
    let s := if r.base = Reg.EVR_OLDEST_SEQ_LO ∧ (heldRecords s).isEmpty then drawn s else s
    if j = 0 then clearRc s r i a else s

/-- A 32-bit read of BAR0 or of a page (R6, R9, R11, R689): the value, and the state after it. -/
def barRead (s : State) (a : Nat) : Nat × State :=
  if a % 4 ≠ 0 ∨ !regAnswers s a then (0, s)
  else match windowAt s a with
    | some (f, k, via) =>
      let r := winAccess s f k via none (Config.freeNat s.freeCount)
      (r.1, drawn r.2)
    | none =>
      match findReg a with
      | some (r, i, j) => (shownAt s a, readEffect s r i j a)
      | none =>
        let v := shownAt s a
        match pageInst a with
        | some _ => (v, if a % 0x10000 = 0x2040 then setLive s a 31 16 0 else s)
        | none => (v, s)

/-- A 32-bit read of any register. -/
def regRead (s : State) (a : Nat) : Nat × State :=
  match nvmeReg a with
  | some (c, off) => if a % 4 = 0 then (nvmeRead s c off, s) else (0, s)
  | none => barRead s a

/-! ## What a write does -/

/-- The W1C fields: each 1 clears its bit (R9). -/
def clearOnes (s : State) (r : RegRow) (i a v : Nat) : State :=
  if r.base = Reg.VFP_LMEM then
    (if bitOf v 31 then setInst s i { instOf s i with overflow := false } else s)
  else (r.fields.filter (fun f => f.acc = .w1c)).foldl (fun s f =>
    if bitOf v f.lo then setLive s a f.hi f.lo 0 else s) s

/-- The RW and WO fields of the operator's registers take effect at once (R9). -/
def writeNow (s : State) (r : RegRow) (i a v : Nat) : State :=
  match r.base with
  | 0x300044 => if bitOf v 0 then popSiding s 0 else s
  | 0x400048 => if bitOf v 0 then askMeasurement s else s
  | 0x600028 => if bitOf v 0 then beginCkpt s else s
  | 0xA01018 => feedW0 s i v
  | 0xA0101C => feedW1 s i v
  | 0xA01020 => feedLast s i v
  | 0xC01004 => if bitOf v 0 && isTenantCore s (regCore s i) then coreStopOp s (regCore s i) else s
  | 0xF01068 => if bitOf v 0 then logSwitch s (i + 1) else s
  | 0x1100010 => measSelect s v
  | 0x1100080 => setLive (setLive s a 24 16 (fld v 24 16)) a 2 0 (fld v 2 0)
  | 0x1200004 => if bitOf v 0 then beginEntry s 0x11 else s
  | 0x1300038 => updCtl s v
  | 0x1500054 => if bitOf v 0 then cancelInjections s else s
  | _ => s

/-- The RW and WO fields of a page's registers (R602). -/
def pageNow (s : State) (r : RegRow) (i j v : Nat) : State :=
  if r.base = Reg.VFP_HOLD then (if bitOf v 0 then releaseHolds s i else s)
  else if r.base = Reg.VFP_FEN_APERTURE then
    setInst s i { instOf s i with apertures := (instOf s i).apertures.set j (v % 256) }
  else s

/-- A write of the register `r` at `a` (R9, R12). -/
def writeReg (s : State) (r : RegRow) (i j a v : Nat) : State :=
  let s := stageReg s a v
  let s := clearOnes s r i a v
  match pageInst a with
  | some _ => pageNow s r i j v
  | none => writeNow s r i a v

/-- A 32-bit write of BAR0 or of a page (R6, R9, R11–R15, R689). -/
def barWrite (s : State) (a v : Nat) : State :=
  if a % 4 ≠ 0 ∨ !regAnswers s a then s
  else match windowAt s a with
    | some (f, k, via) => (winAccess s f k via (some (BitVec.ofNat 32 v)) 0).2
    | none =>
      if isCommit a then commitWrite s a v
      else match findReg a with
        | some (r, i, j) => writeReg s r i j a v
        | none =>
          match pageInst a with
          | some i => if a % 0x10000 = 0x2044 ∧ bitOf v 0 then popSiding s i else s
          | none => s

/-- A 32-bit write of any register. -/
def regWrite (s : State) (a v : Nat) : State :=
  match nvmeReg a with
  | some (c, off) => if a % 4 = 0 then nvmeWrite s c off (v % 2 ^ 32) else s
  | none => barWrite s a (v % 2 ^ 32)

/-! ## Wider accesses (R6) -/

/-- An aligned 64-bit access covers a pair: it acts on _LO, then on _HI. -/
def coversPair (a : Nat) : Bool :=
  a % 8 == 0 && (isLo a || (match nvmeReg a with
    | some (_, off) => off == 0 || off == 0x28 || off == 0x30
    | none => false))

/-- A read of `n` bytes at `a`. -/
def regLoad (s : State) (a n : Nat) : Nat × State :=
  if n = 4 then regRead s a
  else if n = 8 ∧ coversPair a then
    let lo := regRead s a
    let hi := regRead lo.2 (a + 4)
    (lo.1 + hi.1 * 2 ^ 32, hi.2)
  else (0, s)

/-- A write of the low `n` bytes of `v` at `a`. -/
def regStore (s : State) (a n v : Nat) : State :=
  if n = 4 then regWrite s a (v % 2 ^ 32)
  else if n = 8 ∧ coversPair a then regWrite (regWrite s a (v % 2 ^ 32)) (a + 4) (v / 2 ^ 32 % 2 ^ 32)
  else s

/-! ## The commands -/

/-- A read of one register: what it returns stands in `readData` (log 10). -/
def readReg (s : State) (a : Nat) : State :=
  let r := regRead s a
  { r.2 with regs := { r.2.regs with readData := r.1 } }

/-- REGISTER_WRITE (R9): a write of `size` bytes. -/
def execRegisterWrite (addr : Mmio) (size : Nat) (value : BitVec 64) (s : State) : Out :=
  onPage s (pageInst addr.place) addr.ide (fun s => regStore s addr.place size value.toNat)

/-- READ_LO_LATCH (R7). -/
def execReadLoLatch (addr : Mmio) (s : State) : Out :=
  onPage s (pageInst addr.place) addr.ide (fun s => readReg s addr.place)

/-- UNIT_ROLE_READ (R29). -/
def execUnitRoleRead (unit : Nat) (s : State) : Out := .next (readReg s (Reg.DEV_UNIT_ROLE + 8 * unit))

/-- READ_CLEAR (R9). -/
def execReadClear (addr : Mmio) (s : State) : Out :=
  onPage s (pageInst addr.place) addr.ide (fun s => readReg s addr.place)

/-- KEY_SLOT_STATUS_READ (R408). -/
def execKeySlotStatusRead (slot : Nat) (s : State) : Out := .next (readReg s (Reg.KEY_SLOT_STATUS + 0x10 * slot))

/-- COMMIT_GO (R13–R15): a write of a COMMIT register with GO. -/
def execCommitGo (addr : Mmio) (value : Word) (s : State) : Out :=
  onPage s (pageInst addr.place) addr.ide (fun s => if isCommit addr.place then barWrite s addr.place (setFld value.toNat 0 0 1) else s)

/-- COMMIT_DISCARD (R13, R14): a write of a COMMIT register with DISCARD. -/
def execCommitDiscard (addr : Mmio) (value : Word) (s : State) : Out :=
  onPage s (pageInst addr.place) addr.ide (fun s => if isCommit addr.place then barWrite s addr.place (setFld value.toNat 1 1 1) else s)

/-- COMMIT_TAKES_EFFECT (R12, R16). -/
def execCommitTakesEffect (addr : Nat) (s : State) : Out := .next (commitEffect s addr)

/-- CFG_LOAD_REQUEST (R93): the LOAD group at its safe point. -/
def execCfgLoadRequest (s : State) : Out := .next (commitEffect s 0x100024)

end Sys2Proof.Machine
end

