-- ==== Sys2Proof/Machine/GoleyExec.lean ====
section
/-! DEFINITION. Running one Goley instruction (14_goley_instructions.md): the order of checks of R508, repetition, delay
slots, data accesses, control registers; the meanings of the instructions stand in the files that import this one. -/

namespace Sys2Proof.Machine

/-- The result of an instruction's own effect: the state with its writes, or the trap (R509: a trapping instruction
writes nothing). -/
abbrev GRes := Except Trap State

/-! ## Data accesses (R472–R474, R508 steps 8 and 9) -/

/-- The bytes of local memory that an access reads through the trunk. -/
def homeLoad (s : State) (h : Nat × Nat) (n : Nat) : Nat × State :=
  let t := (lmemTake s h.1 h.2 n none).2
  (leNat (lmemRead t h.1 h.2 n), t)

/-- The bytes that a core reads at `a`: LOCAL, LMEM, REGS (aligned 32- and 64-bit accesses act, R6) or DRAM, which holds the local
memories too (R472). -/
def regionLoad (s : State) (c a n : Nat) : Nat × State :=
  match regionOf s c a with
  | 1 => let t := (readCore s c a n).2
    (leNat (memRead (coreOf t c).mem a n), t)
  | 2 => homeLoad s ((unitOf s (coreUnit s c)).owner, a - 0x1000000000) n
  | 3 => regLoad s (a - 0x3000000000) n
  | 4 =>
    match dramHome s (a - 0x4000000000) with
    | some h => homeLoad s h n
    | none => (leNat (memRead s.dram (a - 0x4000000000) n), s)
  | _ => (0, s)

/-- A load of a core. An answer that a miscorrected flit brought through the trunk is free (R42). -/
def coreLoad (s : State) (c a n : Nat) : Nat × State :=
  let r := regionLoad s c a n
  if regionOf s c a ≠ 1 ∧ (coreOf s c).flit = .altered then
    (leNat (freeBytes r.2.freeCount n),
      { setCore r.2 c { coreOf r.2 c with flit := .good } with freeCount := r.2.freeCount + 1 })
  else r

/-- A core stores the low `n` bytes of `v` at `a`. -/
def coreStore (s : State) (c a n v : Nat) : State :=
  match regionOf s c a with
  | 1 => writeCore s c a (natLe n v)
  | 2 => lmemPut s (unitOf s (coreUnit s c)).owner (a - 0x1000000000) (natLe n v)
  | 3 => regStore s (a - 0x3000000000) n v
  | 4 =>
    match dramHome s (a - 0x4000000000) with
    | some h => lmemPut s h.1 h.2 (natLe n v)
    | none => { s with dram := memWrite s.dram (a - 0x4000000000) (natLe n v) }
  | _ => s

/-- The checks of a data access: alignment, then region and windows (28 R, 29 W), then for a load MEDIA. -/
def dataTrap (s : State) (c right a n : Nat) : Option Trap :=
  match checkAlign a n with
  | some t => some t
  | none => match checkAccess s c right a n with
    | some t => some t
    | none => if right = 28 then mediaTrap s c a n else none

/-! ## One instruction -/

/-- R508 steps 1 to 5 for the instruction `i` at the pc of core `c`: the first trap that applies. -/
def decodeTrap (s : State) (c : Nat) (i : GIns) : Option Trap :=
  let k := coreOf s c
  match fetchTrap s c k.pc.toNat (gLen i) with
  | some t => some t
  | none => match gDecodeTrap i k.delay.isSome with
    | some code => some { code := code }
    | none =>
      if k.delay.isSome && (decide (0x02 ≤ i.op && i.op ≤ 0x05) || decide (0x90 ≤ i.op && i.op ≤ 0x92)) then
        some { code := 0x03 }
      else none

/-- R508 steps 1 to 7: the first trap that applies. The control-register access of step 6 is judged by `crTrap`. -/
def issueTrap (s : State) (c : Nat) (i : GIns) (crTrap : Option Trap) : Option Trap :=
  match decodeTrap s c i with
  | some t => some t
  | none => match crTrap with
    | some t => some t
    | none => if cbOk (coreOf s c) i.pre then none else some { code := 0x02 }

/-- The address that a trap saves in EPC: the branch, when the instruction stands in its delay slot (R478). -/
def epcOf (k : Core) : DWord :=
  match k.delay with
  | some d => d.branch
  | none => k.pc

/-- What follows an instruction that ran: the next iteration of a repetition stays at the instruction; a delay slot
ends in its branch's link write and target; otherwise the pc passes the instruction (R526, R530). -/
def retire (k : Core) (len left : Nat) : Core :=
  if left ≠ 0 then { k with rep := some left }
  else
    let k := { k with rep := none }
    let next := k.pc + BitVec.ofNat 64 len
    match k.delay with
    | none => { k with pc := next }
    | some d =>
      let k := match d.link with
        | some r => k.setG r next
        | none => k
      { k with pc := d.target.getD next, delay := none }

/-- The read that gave no data counts and is recorded at the unit where the code word failed (R45, R738). -/
def mediaRead (s : State) (c : Nat) (t : Trap) : State :=
  match t.media with
  | none => s
  | some (a, n) =>
    if regionOf s c a = 1 then (readCore s c a n).2
    else if (coreOf s c).flit = .poisoned then setCore s c { coreOf s c with flit := .good }
    else match lmemAt s c a with
      | some h => (lmemTake s h.1 h.2 n none).2
      | none => s

/-- A trap of the instruction at the pc, with `rep` iterations remaining where it is repeated (R478, R530). A core that
it faults ends every ticket inside with a revoke token (R490). -/
def trapNow (s : State) (c : Nat) (t : Trap) (rep : Option Nat) : State :=
  let k := coreOf s c
  let s := takeTrap (mediaRead s c t) c t (epcOf k) k.delay.isSome rep
  if (coreOf s c).state = .faulted then
    (coreOf s c).inside.foldl (fun s x => failAt s x.tag x.step (coreUnit s c) (faultStatus t.code))
      (setCore s c { coreOf s c with inside := [], inq := [], emitq := [] })
  else s

/-- A STOP or hold that waited for a delay slot takes effect once the slot has executed (R480, R489, R491). -/
def settle (s : State) (c : Nat) : State :=
  let k := coreOf s c
  if k.stopAsked ∧ k.delay.isNone then
    setCore s c { k with
      state := if k.holdAsked then .held else .stopped, stopAsked := false, holdAsked := false, rep := none }
  else s

/-- Run the instruction `i` on core `c`, whose own effect is `f`: one execution, or one iteration under REP (log 20).
Nothing acts unless the core is RUNNING. With a count of 0 only the traps of decoding are raised (R529). A trap of decoding
is no trap of an iteration: it saves a repetition only where one was under way (log 63). -/
def runIns (s : State) (c : Nat) (i : GIns) (crTrap : Option Trap) (f : State → GRes) : Out :=
  let k := coreOf s c
  if k.state ≠ .running then .next s
  else
    let left := if i.pre.rep then k.rep.getD (k.g 29).toNat else 1
    let rep := if i.pre.rep then some left else none
    match decodeTrap s c i with
    | some t => .next (settle (trapNow s c t k.rep) c)
    | none =>
      if left = 0 then .next (setCore s c (retire k (gLen i) 0))
      else match (match issueTrap s c i crTrap with | some t => .error t | none => f s : GRes) with
        | .error t => .next (settle (trapNow s c t rep) c)
        | .ok s' => .next (settle (setCore s' c (retire (coreOf s' c) (gLen i) (left - 1))) c)

/-- Write a general register of core `c`. -/
def putG (s : State) (c : Nat) (d : Fin 32) (v : DWord) : State := setCore s c ((coreOf s c).setG d.val v)

/-! ## Arithmetic (R514–R519) -/

/-- The operation width: 32 under W32, otherwise 64. -/
def gWidth (p : GPre) : Nat := if p.w32 then 32 else 64

/-- A source as the instruction takes it: bits [31:0] under W32 (R515), unsigned. -/
def gSrc (p : GPre) (v : DWord) : Nat := v.toNat % 2 ^ gWidth p

/-- A source as a signed number of the operation width. -/
def gSigned (p : GPre) (v : DWord) : Int := (BitVec.ofNat (gWidth p) (gSrc p v)).toInt

/-- A result of the operation width, sign-extended from bit 31 under W32 (R515). -/
def gResult (p : GPre) (v : Int) : DWord := BitVec.ofInt 64 (BitVec.ofInt (gWidth p) v).toInt

/-- The operations of R514: they take the sources `a` and `b` as 64-bit registers. -/
def gAlu (op : Nat) (p : GPre) (a b : DWord) : DWord :=
  let w := gWidth p
  let x := gSrc p a
  let y := gSrc p b
  let n := b.toNat
  match op with
  | 0x10 => gResult p (x + y)
  | 0x11 => gResult p ((x : Int) - y)
  | 0x12 => gResult p (x &&& y : Nat)
  | 0x13 => gResult p (x ||| y : Nat)
  | 0x14 => gResult p (x ^^^ y : Nat)
  | 0x15 => gResult p (if w ≤ n then 0 else (x * 2 ^ n : Nat))
  | 0x16 => gResult p (if w ≤ n then 0 else (x / 2 ^ n : Nat))
  | 0x17 => gResult p (if w ≤ n then (if gSigned p a < 0 then -1 else 0) else gSigned p a / 2 ^ n)
  | 0x18 => gResult p ((x * y : Nat))
  | 0x19 => gResult p (gSigned p a * gSigned p b / 2 ^ w)
  | 0x1A => gResult p ((x * y / 2 ^ w : Nat))
  | _ => 0

/-- The conditions of R518 and R525 by number: equal, not equal, less and greater or equal, signed and unsigned. -/
def gCond (n : Nat) (p : GPre) (a b : DWord) : Bool :=
  match n with
  | 0 => gSrc p a == gSrc p b
  | 1 => gSrc p a != gSrc p b
  | 2 => decide (gSigned p a < gSigned p b)
  | 3 => decide (gSrc p a < gSrc p b)
  | 4 => decide (gSigned p b ≤ gSigned p a)
  | 5 => decide (gSrc p b ≤ gSrc p a)
  | _ => false

/-- Leading zero bits of the low `w` bits. -/
def gClz : Nat → Nat → Nat
  | 0, _ => 0
  | w + 1, n => if n.testBit w then 0 else 1 + gClz w n

/-- Trailing zero bits of the low `w` bits. -/
def gCtz : Nat → Nat → Nat
  | 0, _ => 0
  | w + 1, n => if n % 2 = 1 then 0 else 1 + gCtz w (n / 2)

/-- The number of 1 bits of the low `w` bits. -/
def gPopc : Nat → Nat → Nat
  | 0, _ => 0
  | w + 1, n => n % 2 + gPopc w (n / 2)

/-- The one-source operations of R514. -/
def gUnary (op : Nat) (p : GPre) (a : DWord) : DWord :=
  let w := gWidth p
  let x := gSrc p a
  match op with
  | 0x1E => gResult p (0 - (x : Int))
  | 0x1F => gResult p (2 ^ w - 1 - (x : Int))
  | 0xE001 => gResult p (gClz w x : Nat)
  | 0xE002 => gResult p (gCtz w x : Nat)
  | 0xE003 => gResult p (gPopc w x : Nat)
  | 0xE004 => gResult p (leNat (natLe (w / 8) x).reverse : Nat)
  | _ => 0

/-- Division under R516: quotient and remainder, or DIVZERO (0x1B signed, 0x1C unsigned, 0x1D signed without a trap). -/
def gDivide (op : Nat) (p : GPre) (a b : DWord) : Except Trap (DWord × DWord) :=
  if gSrc p b = 0 then
    if op = 0x1D then .ok (gResult p (-1), gResult p (gSigned p a)) else .error { code := 0x06 }
  else if op = 0x1C then .ok (gResult p (gSrc p a / gSrc p b : Nat), gResult p (gSrc p a % gSrc p b : Nat))
  else .ok (gResult p ((gSigned p a).tdiv (gSigned p b)), gResult p ((gSigned p a).tmod (gSigned p b)))

/-- A register arithmetic instruction with two sources. -/
def runAlu3 (op c : Nat) (p : GPre) (d a b : Fin 32) (s : State) : Out :=
  runIns s c { pre := p, op := op, args := .g3 d a b } none (fun s =>
    .ok (putG s c d (gAlu op p ((coreOf s c).g a.val) ((coreOf s c).g b.val))))

/-- A register arithmetic instruction with one source. -/
def runAlu2 (op c : Nat) (p : GPre) (d a : Fin 32) (s : State) : Out :=
  runIns s c { pre := p, op := op, args := .g2 d a } none (fun s => .ok (putG s c d (gUnary op p ((coreOf s c).g a.val))))

/-- A division: the quotient to d, then the remainder to e (R516). -/
def runDiv (op c : Nat) (p : GPre) (d e a b : Fin 32) (s : State) : Out :=
  runIns s c { pre := p, op := op, args := .g4 d e a b } none (fun s =>
    match gDivide op p ((coreOf s c).g a.val) ((coreOf s c).g b.val) with
    | .error t => .error t
    | .ok (q, r) => .ok (putG (putG s c d q) c e r))

/-- A set-on-compare instruction (R518). -/
def runSet3 (op c : Nat) (p : GPre) (d a b : Fin 32) (s : State) : Out :=
  runIns s c { pre := p, op := op, args := .g3 d a b } none (fun s =>
    .ok (putG s c d (BitVec.ofNat 64 (b2n (gCond (op - 0x30) p ((coreOf s c).g a.val) ((coreOf s c).g b.val))))))

/-- The register opcode that an immediate opcode 0x40–0x47 acts as (R519). -/
def gImmAs (op : Nat) : Nat :=
  match op with
  | 0x40 => 0x10 | 0x41 => 0x12 | 0x42 => 0x13 | 0x43 => 0x14
  | 0x44 => 0x15 | 0x45 => 0x16 | 0x46 => 0x17 | _ => 0x18

/-- An immediate arithmetic instruction 0x40–0x47 (R519). -/
def runAluI (op c : Nat) (p : GPre) (d a : Fin 32) (z : Fin 8) (v : DWord) (s : State) : Out :=
  runIns s c { pre := p, op := op, args := .gi d a z v } none (fun s =>
    .ok (putG s c d (gAlu (gImmAs op) p ((coreOf s c).g a.val) v)))

/-- An immediate set-on-compare instruction 0x48–0x4D (R519). -/
def runSetI (op c : Nat) (p : GPre) (d a : Fin 32) (z : Fin 8) (v : DWord) (s : State) : Out :=
  runIns s c { pre := p, op := op, args := .gi d a z v } none (fun s =>
    .ok (putG s c d (BitVec.ofNat 64 (b2n (gCond (op - 0x48) p ((coreOf s c).g a.val) v)))))

/-! ## Loads and stores (R520–R522) -/

/-- The bytes of an access by opcode: 0x60–0x66 and 0x68–0x6B, and their update forms 16 above. -/
def gBytes (op : Nat) : Nat :=
  match op % 16 with
  | 0 | 1 | 8 => 1
  | 2 | 3 | 9 => 2
  | 4 | 5 | 10 => 4
  | _ => 8

/-- What a load writes: sign- or zero-extended (R520). -/
def gExtend (op v : Nat) : DWord :=
  match op % 16 with
  | 0 => BitVec.ofInt 64 (BitVec.ofNat 8 v).toInt
  | 2 => BitVec.ofInt 64 (BitVec.ofNat 16 v).toInt
  | 4 => BitVec.ofInt 64 (BitVec.ofNat 32 v).toInt
  | _ => BitVec.ofNat 64 v

/-- A load, then in an update form the base register receives ea (R520, R521). -/
def runLoad (op c : Nat) (p : GPre) (d b : Fin 32) (z : Fin 8) (v : DWord) (s : State) : Out :=
  runIns s c { pre := p, op := op, args := .m d b z v } none (fun s =>
    let ea := effAddr (coreOf s c) p ((coreOf s c).g b.val) v
    match dataTrap s c 28 ea.toNat (gBytes op) with
    | some t => .error t
    | none =>
      let r := coreLoad s c ea.toNat (gBytes op)
      let s := putG r.2 c d (gExtend op r.1)
      .ok (if gUpdates op then putG s c b ea else s))

/-- A store of the old g[s], then in an update form the base register receives ea (R520, R521). -/
def runStore (op c : Nat) (p : GPre) (d b : Fin 32) (z : Fin 8) (v : DWord) (s : State) : Out :=
  runIns s c { pre := p, op := op, args := .m d b z v } none (fun s =>
    let ea := effAddr (coreOf s c) p ((coreOf s c).g b.val) v
    match dataTrap s c 29 ea.toNat (gBytes op) with
    | some t => .error t
    | none =>
      let s' := coreStore s c ea.toNat (gBytes op) ((coreOf s c).g d.val).toNat
      .ok (if gUpdates op then putG s' c b ea else s'))

end Sys2Proof.Machine
end

