-- ==== Sys2Proof/Machine/GoleyArith.lean ====
section
/-! DEFINITION. Goley arithmetic and logic, counts, division, set-on-compare and immediate forms: the meanings of 0x10–0x1F, 0x30–0x35, 0x40–0x4E and the escaped counts (R514–R519). -/

namespace Sys2Proof.Machine

/-- ADD (R514): Register add. -/
def execGAdd (core : Nat) (pre : GPre) (d a b : Fin 32) (s : State) : Out := runAlu3 0x10 core pre d a b s

/-- SUB (R514): Register subtract. -/
def execGSub (core : Nat) (pre : GPre) (d a b : Fin 32) (s : State) : Out := runAlu3 0x11 core pre d a b s

/-- AND (R514): Register bitwise and. -/
def execGAnd (core : Nat) (pre : GPre) (d a b : Fin 32) (s : State) : Out := runAlu3 0x12 core pre d a b s

/-- OR (R514): Register bitwise or. -/
def execGOr (core : Nat) (pre : GPre) (d a b : Fin 32) (s : State) : Out := runAlu3 0x13 core pre d a b s

/-- XOR (R514): Register bitwise xor. -/
def execGXor (core : Nat) (pre : GPre) (d a b : Fin 32) (s : State) : Out := runAlu3 0x14 core pre d a b s

/-- SHL (R514): Shift left. -/
def execGShl (core : Nat) (pre : GPre) (d a b : Fin 32) (s : State) : Out := runAlu3 0x15 core pre d a b s

/-- SHR (R514): Shift right with zero fill. -/
def execGShr (core : Nat) (pre : GPre) (d a b : Fin 32) (s : State) : Out := runAlu3 0x16 core pre d a b s

/-- SAR (R514): Shift right with sign fill. -/
def execGSar (core : Nat) (pre : GPre) (d a b : Fin 32) (s : State) : Out := runAlu3 0x17 core pre d a b s

/-- MUL (R514): Low half of the product. -/
def execGMul (core : Nat) (pre : GPre) (d a b : Fin 32) (s : State) : Out := runAlu3 0x18 core pre d a b s

/-- MULH (R514): High half of the signed product. -/
def execGMulh (core : Nat) (pre : GPre) (d a b : Fin 32) (s : State) : Out := runAlu3 0x19 core pre d a b s

/-- MULHU (R514): High half of the unsigned product. -/
def execGMulhu (core : Nat) (pre : GPre) (d a b : Fin 32) (s : State) : Out := runAlu3 0x1A core pre d a b s

/-- DIV (R516): Signed division, trapping DIVZERO on zero divisor. -/
def execGDiv (core : Nat) (pre : GPre) (d e a b : Fin 32) (s : State) : Out := runDiv 0x1B core pre d e a b s

/-- DIVU (R516): Unsigned division, trapping DIVZERO on zero divisor. -/
def execGDivu (core : Nat) (pre : GPre) (d e a b : Fin 32) (s : State) : Out := runDiv 0x1C core pre d e a b s

/-- DIVN (R516): Signed division that never traps. -/
def execGDivn (core : Nat) (pre : GPre) (d e a b : Fin 32) (s : State) : Out := runDiv 0x1D core pre d e a b s

/-- NEG (R514): Negate. -/
def execGNeg (core : Nat) (pre : GPre) (d a : Fin 32) (s : State) : Out := runAlu2 0x1E core pre d a s

/-- NOT (R514): Bitwise not. -/
def execGNot (core : Nat) (pre : GPre) (d a : Fin 32) (s : State) : Out := runAlu2 0x1F core pre d a s

/-- CLZ (R514): Count leading zeros. -/
def execGClz (core : Nat) (pre : GPre) (d a : Fin 32) (s : State) : Out := runAlu2 0xE001 core pre d a s

/-- CTZ (R514): Count trailing zeros. -/
def execGCtz (core : Nat) (pre : GPre) (d a : Fin 32) (s : State) : Out := runAlu2 0xE002 core pre d a s

/-- POPC (R514): Count one bits. -/
def execGPopc (core : Nat) (pre : GPre) (d a : Fin 32) (s : State) : Out := runAlu2 0xE003 core pre d a s

/-- BSWAP (R514): Reverse byte order. -/
def execGBswap (core : Nat) (pre : GPre) (d a : Fin 32) (s : State) : Out := runAlu2 0xE004 core pre d a s

/-- SEQ (R518): Set if equal. -/
def execGSeq (core : Nat) (pre : GPre) (d a b : Fin 32) (s : State) : Out := runSet3 0x30 core pre d a b s

/-- SNE (R518): Set if not equal. -/
def execGSne (core : Nat) (pre : GPre) (d a b : Fin 32) (s : State) : Out := runSet3 0x31 core pre d a b s

/-- SLT (R518): Set if less, signed. -/
def execGSlt (core : Nat) (pre : GPre) (d a b : Fin 32) (s : State) : Out := runSet3 0x32 core pre d a b s

/-- SLTU (R518): Set if less, unsigned. -/
def execGSltu (core : Nat) (pre : GPre) (d a b : Fin 32) (s : State) : Out := runSet3 0x33 core pre d a b s

/-- SGE (R518): Set if greater or equal, signed. -/
def execGSge (core : Nat) (pre : GPre) (d a b : Fin 32) (s : State) : Out := runSet3 0x34 core pre d a b s

/-- SGEU (R518): Set if greater or equal, unsigned. -/
def execGSgeu (core : Nat) (pre : GPre) (d a b : Fin 32) (s : State) : Out := runSet3 0x35 core pre d a b s

/-- ADDI (R519): Add immediate. -/
def execGAddi (core : Nat) (pre : GPre) (d a : Fin 32) (size : Fin 8) (imm : BitVec 64) (s : State) : Out :=
  runAluI 0x40 core pre d a size imm s

/-- ANDI (R519): And immediate. -/
def execGAndi (core : Nat) (pre : GPre) (d a : Fin 32) (size : Fin 8) (imm : BitVec 64) (s : State) : Out :=
  runAluI 0x41 core pre d a size imm s

/-- ORI (R519): Or immediate. -/
def execGOri (core : Nat) (pre : GPre) (d a : Fin 32) (size : Fin 8) (imm : BitVec 64) (s : State) : Out :=
  runAluI 0x42 core pre d a size imm s

/-- XORI (R519): Xor immediate. -/
def execGXori (core : Nat) (pre : GPre) (d a : Fin 32) (size : Fin 8) (imm : BitVec 64) (s : State) : Out :=
  runAluI 0x43 core pre d a size imm s

/-- SHLI (R519): Shift left by immediate. -/
def execGShli (core : Nat) (pre : GPre) (d a : Fin 32) (size : Fin 8) (imm : BitVec 64) (s : State) : Out :=
  runAluI 0x44 core pre d a size imm s

/-- SHRI (R519): Shift right by immediate, zero fill. -/
def execGShri (core : Nat) (pre : GPre) (d a : Fin 32) (size : Fin 8) (imm : BitVec 64) (s : State) : Out :=
  runAluI 0x45 core pre d a size imm s

/-- SARI (R519): Shift right by immediate, sign fill. -/
def execGSari (core : Nat) (pre : GPre) (d a : Fin 32) (size : Fin 8) (imm : BitVec 64) (s : State) : Out :=
  runAluI 0x46 core pre d a size imm s

/-- MULI (R519): Multiply by immediate. -/
def execGMuli (core : Nat) (pre : GPre) (d a : Fin 32) (size : Fin 8) (imm : BitVec 64) (s : State) : Out :=
  runAluI 0x47 core pre d a size imm s

/-- SEQI (R519): Set if equal to immediate. -/
def execGSeqi (core : Nat) (pre : GPre) (d a : Fin 32) (size : Fin 8) (imm : BitVec 64) (s : State) : Out :=
  runSetI 0x48 core pre d a size imm s

/-- SNEI (R519): Set if not equal to immediate. -/
def execGSnei (core : Nat) (pre : GPre) (d a : Fin 32) (size : Fin 8) (imm : BitVec 64) (s : State) : Out :=
  runSetI 0x49 core pre d a size imm s

/-- SLTI (R519): Set if less than immediate, signed. -/
def execGSlti (core : Nat) (pre : GPre) (d a : Fin 32) (size : Fin 8) (imm : BitVec 64) (s : State) : Out :=
  runSetI 0x4A core pre d a size imm s

/-- SLTUI (R519): Set if less than immediate, unsigned. -/
def execGSltui (core : Nat) (pre : GPre) (d a : Fin 32) (size : Fin 8) (imm : BitVec 64) (s : State) : Out :=
  runSetI 0x4B core pre d a size imm s

/-- SGEI (R519): Set if greater or equal to immediate, signed. -/
def execGSgei (core : Nat) (pre : GPre) (d a : Fin 32) (size : Fin 8) (imm : BitVec 64) (s : State) : Out :=
  runSetI 0x4C core pre d a size imm s

/-- SGEUI (R519): Set if greater or equal to immediate, unsigned. -/
def execGSgeui (core : Nat) (pre : GPre) (d a : Fin 32) (size : Fin 8) (imm : BitVec 64) (s : State) : Out :=
  runSetI 0x4D core pre d a size imm s

/-- LI (R519): Load sign-extended immediate. -/
def execGLi (core : Nat) (pre : GPre) (d : Fin 32) (size : Fin 8) (imm : BitVec 64) (s : State) : Out :=
  runIns s core { pre := pre, op := 0x4E, args := .i d size imm } none (fun s =>
    .ok (putG s core d (gResult pre (gSigned pre imm))))

end Sys2Proof.Machine
end

