-- ==== Sys2Proof/Machine/GoleyControl.lean ====
section
/-! DEFINITION. Goley control instructions and control registers (R471, R510–R513), interrupts, timers, core states, and
the core as a station (R480–R492). -/

namespace Sys2Proof.Machine

/-! ## Control registers (R471, R513) -/

/-- Numbers that R471 lists. -/
def crListed (n : Nat) : Bool := decide (n ≤ 0x0E) || (decide (0x10 ≤ n) && decide (n ≤ 0x2C))

/-- Registers marked RO, or "Read 0". -/
def crReadOnly (n : Nat) : Bool :=
  [0x00, 0x05, 0x0A, 0x0B, 0x0D, 0x21, 0x24, 0x25, 0x27, 0x2A, 0x2C].contains n ||
    (decide (0x18 ≤ n) && decide (n ≤ 0x1F))

/-- The trap of a read, or of a write, of control register `n` on core `c` (R513). -/
def crTrap (s : State) (c n : Nat) (write : Bool) : Option Trap :=
  if !crListed n then some { code := 0x01 }
  else if write && crReadOnly n then some { code := if isTenantCore s c then 0x08 else 0x01 }
  else none

/-- TKT_INFO of the selected ticket (R471, R482). -/
def tktInfo (s : State) (k : Core) : DWord :=
  let tag := (k.cr 0x23).toNat
  match coreTicket k tag, entryOf s tag with
  | some _, some e => BitVec.ofNat 64 (e.t.len + e.t.inst * 2 ^ 32 + e.t.line * 2 ^ 41 + 2 ^ 53)
  | _, _ => 0

/-- TKT_PARAM. -/
def tktParam (s : State) (k : Core) : DWord :=
  let tag := (k.cr 0x23).toNat
  match coreTicket k tag, entryOf s tag with
  | some _, some e => BitVec.ofNat 64 e.t.param
  | _, _ => 0

/-- What a CRR of register `n` returns, and the state after it (INQ_POP pops). A WO register returns 0. -/
def crRead (s : State) (c n : Nat) : DWord × State :=
  let k := coreOf s c
  let u := coreUnit s c
  let w := coreWin s c ((n - 0x18) / 2)
  if 0x18 ≤ n ∧ n ≤ 0x1F then
    (if isTenantCore s c then BitVec.ofNat 64 (if n % 2 = 0 then w.1 else w.2) else 0, s)
  else match n with
    | 0x00 => (BitVec.ofNat 64 (u + 256 * b2n (isTenantCore s c) + (unitOf s u).owner * 65536), s)
    | 0x0B => (BitVec.ofNat 64 (timeUs s), s)
    | 0x0D => (BitVec.ofNat 64 k.ipend, s)
    | 0x21 =>
      match k.inq with
      | [] => (0, s)
      | x :: t => (BitVec.ofNat 64 x, setCore s c { k with inq := t })
    | 0x22 | 0x26 | 0x2B => (0, s)
    | 0x24 => (tktParam s k, s)
    | 0x25 => (tktInfo s k, s)
    | 0x27 => (BitVec.ofNat 64 k.emitq.length, s)
    | _ => (k.cr n, s)

/-- The bits of a control register that a write keeps (R471). -/
def crMask (n : Nat) : Nat :=
  match n with
  | 0x01 | 0x07 => 3
  | 0x04 => 0x3FF
  | 0x0E => 0xF
  | 0x20 | 0x28 => 0x7F7F
  | 0x23 => 0xFFFF
  | _ => 2 ^ 64 - 1

/-- A ring value is good: PAGES within its range and the ring within local memory. -/
def ringOk (v lo hi : Nat) : Bool :=
  decide (lo ≤ fld v 14 8) && decide (fld v 14 8 ≤ hi) && decide (fld v 6 0 + fld v 14 8 ≤ 128)

/-- An EMIT value is good (R484). -/
def emitOk (v : Nat) : Bool :=
  decide (v / 2 ^ 59 = 0) && decide (fld v 31 30 = 0) && decide (fld v 28 16 ≤ 4096) && fld v 58 40 % 32 == 0 &&
    (decide (fld v 28 16 ≠ 0) || bitOf v 29) && decide (fld v 58 40 + fld v 28 16 ≤ 524288)

/-- SUBMIT (R485): the 64 bytes at the offset are offered as a ticket of this core. -/
def coreSubmit (s : State) (c v : Nat) : GRes :=
  let a := v % 524288 / 64 * 64
  if poisoned s c a 64 then .error { code := 0x07, eaddr := BitVec.ofNat 64 a, media := some (a, 64) }
  else
    let s := (readCore s c a 64).2
    let r := submitTicket s (.core (coreUnit s c)) (memRead (coreOf s c).mem a 64)
    let res := match r.1 with
      | some tag => tag + 65536
      | none => 131072
    .ok (setCore r.2 c ((coreOf r.2 c).setCr 0x2C (BitVec.ofNat 64 res)))

/-- A CRW of register `n` (R471, R482–R486). -/
def crWrite (s : State) (c n : Nat) (v : DWord) : GRes :=
  let k := coreOf s c
  let x := v.toNat
  match n with
  | 0x02 => .ok (setCore s c (k.setCr 0x02 (BitVec.ofNat 64 (x / 2048 * 2048))))
  | 0x0C => .ok (setCore s c { (k.setCr 0x0C v) with timerUp := false })
  | 0x20 =>
    if !k.inside.isEmpty || !ringOk x 4 64 then .error { code := 0x01 }
    else .ok (setCore s c (k.setCr 0x20 (BitVec.ofNat 64 (x &&& 0x7F7F))))
  | 0x22 => .ok (setCore s c { k with slots := k.slots.filter (fun y => y.1 != x % 64) })
  | 0x26 => if emitOk x then .ok (setCore s c { k with emitq := k.emitq ++ [x] }) else .error { code := 0x01 }
  | 0x28 =>
    if !ringOk x 1 16 then .error { code := 0x01 }
    else .ok (drainBacklog 65536 (setCore s c (k.setCr 0x28 (BitVec.ofNat 64 (x &&& 0x7F7F)))) c)
  | 0x29 => .ok (drainBacklog 65536 (setCore s c (k.setCr 0x29 v)) c)
  | 0x2B => coreSubmit s c x
  | _ => .ok (setCore s c (k.setCr n (BitVec.ofNat 64 (x &&& crMask n))))

/-- CRR d, c. -/
def runCrr (c : Nat) (pre : GPre) (d : Fin 32) (n : BitVec 8) (s : State) : Out :=
  runIns s c { pre := pre, op := 0x06, args := .c d n } (crTrap s c n.toNat false) (fun s =>
    let r := crRead s c n.toNat
    .ok (putG r.2 c d r.1))

/-- CRW c, a. A write of EMIT to a full queue stalls the core at the instruction (R484). -/
def runCrw (c : Nat) (pre : GPre) (a : Fin 32) (n : BitVec 8) (s : State) : Out :=
  let i : GIns := { pre := pre, op := 0x07, args := .c a n }
  let k := coreOf s c
  let v := k.g a.val
  if n = 0x26 ∧ k.state = .running ∧ 8 ≤ k.emitq.length ∧ emitOk v.toNat ∧ (issueTrap s c i none).isNone then .next s
  else runIns s c i (crTrap s c n.toNat true) (fun s => crWrite s c n.toNat v)

/-- A control instruction without operands. -/
def ctlIns (pre : GPre) (op : Nat) : GIns := { pre := pre, op := op, args := .n }

/-! ## Control instructions (R510–R512) -/

/-- NOP (R510). -/
def execGNop (core : Nat) (pre : GPre) (s : State) : Out := runIns s core (ctlIns pre 0x01) none (fun s => .ok s)

/-- SYSCALL (R510): trap SYSCALL. -/
def execGSyscall (core : Nat) (pre : GPre) (s : State) : Out :=
  runIns s core (ctlIns pre 0x02) none (fun _ => .error { code := 0x09 })

/-- BREAK (R510): trap BREAK. -/
def execGBreak (core : Nat) (pre : GPre) (s : State) : Out :=
  runIns s core (ctlIns pre 0x03) none (fun _ => .error { code := 0x0A })

/-- RFT (R478, R510): the return from a trap. -/
def execGRft (core : Nat) (pre : GPre) (s : State) : Out :=
  let i := ctlIns pre 0x04
  let k := coreOf s core
  if k.state = .running ∧ (issueTrap s core i none).isNone then .next (setCore s core (returnFromTrap k))
  else runIns s core i none (fun s => .ok s)

/-- WAIT (R480): the core stops, as WAITING, until IPEND AND IMASK is not 0. -/
def execGWait (core : Nat) (pre : GPre) (s : State) : Out :=
  runIns s core (ctlIns pre 0x05) none (fun s =>
    let k := coreOf s core
    .ok (if k.irq then s else setCore s core { k with state := .waiting }))

/-- CRR (R510). -/
def execGCrr (core : Nat) (pre : GPre) (r : Fin 32) (crn : BitVec 8) (s : State) : Out := runCrr core pre r crn s

/-- CRW (R510). -/
def execGCrw (core : Nat) (pre : GPre) (r : Fin 32) (crn : BitVec 8) (s : State) : Out := runCrw core pre r crn s

/-- INQ_POP (R482): a CRR of register 0x21. -/
def execInqPop (core : Nat) (d : Fin 32) (s : State) : Out := runCrr core {} d 0x21 s

/-- INQ_FREE (R482): a CRW of register 0x22. -/
def execInqFree (core : Nat) (a : Fin 32) (s : State) : Out := runCrw core {} a 0x22 s

/-- EMIT (R484): a CRW of register 0x26. -/
def execEmit (core : Nat) (a : Fin 32) (s : State) : Out := runCrw core {} a 0x26 s

/-- SUBMIT (R485): a CRW of register 0x2B. -/
def execSubmit (core : Nat) (a : Fin 32) (s : State) : Out := runCrw core {} a 0x2B s

/-- UNDEFINED_ENCODING (R504–R508): the core decodes the bytes at its pc and takes the trap of the first check that they
fail; bytes that decode raise none. -/
def execUndefinedEncoding (core : Nat) (bytes : Bytes) (s : State) : Out :=
  let k := coreOf s core
  if k.state ≠ .running then .next s
  else match fetchTrap s core k.pc.toNat (gNeed (fit 16 bytes)) with
    | some t => .next (settle (trapNow s core t none) core)
    | none => match gDecode (fit 16 bytes) k.delay.isSome with
      | .trap code => .next (settle (trapNow s core { code := code } none) core)
      | .ok _ _ => .next s

/-! ## Interrupts and timers (R471, R480) -/

/-- TIMER_RAISE (R471): TIME has reached a TIMER that is not 0. -/
def execTimerRaise (core : Nat) (s : State) : Out :=
  let k := coreOf s core
  let t := (k.cr 0x0C).toNat
  if t ≠ 0 ∧ t ≤ timeUs s then .next (wakeCore (setCore s core { k with timerUp := true }) core) else .next s

/-- INTERRUPT (R480): taken when IE is 1 and IPEND AND IMASK is not 0, never between a branch and its delay slot; EPC is
the next instruction, or the repeated one with the iterations not yet started (R512, R530). -/
def execInterrupt (core : Nat) (s : State) : Out :=
  let k := coreOf s core
  if (k.state = .running ∨ k.state = .waiting) ∧ k.delay.isNone ∧ bitOf (k.cr 0x01).toNat 0 ∧ k.irq then
    .next (trapNow (setCore s core { k with state := .running }) core { code := 0x10 } k.rep)
  else .next s

/-! ## Core states (R487–R492) -/

/-- CORE_START (R489). -/
def execCoreStart (core : Nat) (entry : BitVec 64) (s : State) : Out := .next (coreStartOp s core entry)

/-- CORE_STOP (R489, R496). -/
def execCoreStop (core : Nat) (s : State) : Out := .next (coreStopOp s core)

/-- CORE_SCRUB_DONE (R488): local memory, the registers and every control register are 0; the core is STOPPED. Completions that wait
for the core's present owner go on waiting (R486); those of an earlier owner have nobody left to read them, and their tickets leave
the store (DEDUCED, log 224). -/
def execCoreScrubDone (core : Nat) (s : State) : Out :=
  let k := coreOf s core
  if k.state = .scrubbing then
    let owner := (unitOf s (coreUnit s core)).owner
    let gone := k.backlog.filter (fun x => isTenantCore s core && x.inst != owner)
    let s := gone.foldl (fun s x => match entryOf s x.tag with
      | some e => freeTicket s x.tag e
      | none => s) s
    .next (setLive (setCore s core { state := .stopped, backlog := k.backlog.filter (fun x => !gone.contains x) })
      (coreRegs s Reg.GLY_CORE_STATUS core) 23 16 0)
  else .next s

/-- CORE_IDLE_SLOWDOWN (R492): a tenant core with no ticket inside and no input queued for IDLE_LIMIT epochs runs at LOW. -/
def execCoreIdleSlowdown (core : Nat) (s : State) : Out :=
  let k := coreOf s core
  let limit := eff s (coreRegs s Reg.GLY_CORE_CFG core) 31 24
  if isTenantCore s core ∧ !k.slowed ∧ limit ≠ 0 ∧ limit ≤ k.idle ∧ k.inside.isEmpty ∧ k.inq.isEmpty then
    let key := coreHw core
    let i := islandAt s key
    let mhz := min i.planMhz (pointMhz key 2)
    .next (setIsland (setCore s core { k with slowed := true }) key { i with point := pointFor key i.minPoint mhz, mhz := mhz })
  else .next s

/-! ## The core as a station (R481, R482) -/

/-- A unit is a core. -/
def isCoreKind (st : LStep) : Bool := stepKind st == 0x04 || stepKind st == 0x05

/-- The port interface of the core takes input: not while its clock is stopped or it is out of service (R487, R491). -/
def coreTakes (k : Core) : Bool :=
  match k.state with
  | .stopped | .running | .waiting | .faulted => true
  | _ => false

/-- PROGRAM (R482): the transfer or end token at the front of the core's queue. -/
def execProgram (unit : Nat) (s : State) : Out :=
  let c := coreIndex s unit
  .next (serveAt s unit (fun st => isCoreKind st && st.mode == 0 && coreTakes (coreOf s c)) (fun s tag _ j _ w =>
    match w with
    | .start _ _ _ _ => failAt s tag j unit 0x01
    | .pkt p =>
      let x := ctxOf s tag j
      if p.endTok then (if tokenReady s p j then ringEnd s c tag j p.prov else enqueue s unit w)
      else match ringPut s c tag j p with
        | some s => setCtx s tag j { x with inBytes := x.inBytes + p.data.length }
        | none => setInbox s unit (w :: inboxOf s unit)))

/-- A LOAD may run: in the last step, while the core is STOPPED, with DEST the CORE descriptor of the step's unit (R481). -/
def loadOk (s : State) (e : Entry) (c unit step : Nat) : Bool :=
  decide ((coreOf s c).state = .stopped) && e.t.dest.kind == 5 && e.t.dest.mid == unit && isLast s e step

/-- LOAD (R481): the input goes to local memory at DEST's CORE offset, while the core is STOPPED. -/
def execLoad (unit : Nat) (s : State) : Out :=
  let c := coreIndex s unit
  .next (serveAt s unit (fun st => isCoreKind st && st.mode == 1) (fun s tag e j _ w =>
    match w with
    | .start _ _ _ _ => failAt s tag j unit 0x01
    | .pkt p =>
      let x := ctxOf s tag j
      if p.endTok then
        if !tokenReady s p j then enqueue s unit w
        else if !loadOk s e c unit j then failAt s tag j unit 0x10
        else if p.prov then endProvisional s tag unit
        else endOut s tag j unit x.outBytes false
      else if !loadOk s e c unit j then failAt s tag j unit 0x10
      else if 524288 < e.t.dest.addr + p.off + p.data.length then failAt s tag j unit 0x0E
      else
        let a := e.t.dest.addr + p.off
        let n := p.data.length
        setCtx (writeCore s c a p.data) tag j { x with
          inBytes := x.inBytes + n, outBytes := x.outBytes + n, wrote := x.wrote ++ [(a, n)] }))

end Sys2Proof.Machine
end

