-- ==== Sys2Proof/Machine/GoleyFlow.lean ====
section
/-! DEFINITION. Goley bounds checks and branches with delay slots (R524–R527). -/

namespace Sys2Proof.Machine

/-- A bounds check with two inclusive bounds: BOUNDS with EADDR 0 outside them (R524). -/
def boundsTrap (inside : Bool) (s : State) : GRes := if inside then .ok s else .error { code := 0x04 }

/-- CHK (R524): Signed bounds check against registers. -/
def execGChk (core : Nat) (pre : GPre) (d a b : Fin 32) (s : State) : Out :=
  runIns s core { pre := pre, op := 0x80, args := .g3 d a b } none (fun s =>
    let k := coreOf s core
    boundsTrap (gCond 4 pre (k.g d.val) (k.g a.val) && gCond 4 pre (k.g b.val) (k.g d.val)) s)

/-- CHKU (R524): Unsigned bounds check against registers. -/
def execGChku (core : Nat) (pre : GPre) (d a b : Fin 32) (s : State) : Out :=
  runIns s core { pre := pre, op := 0x81, args := .g3 d a b } none (fun s =>
    let k := coreOf s core
    boundsTrap (gCond 5 pre (k.g d.val) (k.g a.val) && gCond 5 pre (k.g b.val) (k.g d.val)) s)

/-- CHKI (R524): Signed bounds check against immediates. -/
def execGChki (core : Nat) (pre : GPre) (a : Fin 32) (size : Fin 8) (lo hi : BitVec 64) (s : State) : Out :=
  runIns s core { pre := pre, op := 0x82, args := .k a size lo hi } none (fun s =>
    let k := coreOf s core
    boundsTrap (gCond 4 pre (k.g a.val) lo && gCond 4 pre hi (k.g a.val)) s)

/-- The condition of a condition code (R525): 0 EQ, 1 NE, 2 LT, 3 GE, 4 LTU, 5 GEU. -/
def gCc (cc : Nat) (a b : DWord) : Bool :=
  gCond (match cc with | 3 => 4 | 4 => 3 | n => n) {} a b

/-- A branch issues: its operands are read now, and its delay slot stands next (R526). -/
def runBranch (c : Nat) (i : GIns) (target : Core → Option DWord) (link : Option (Fin 32)) (s : State) : Out :=
  let pc := (coreOf s c).pc
  match runIns s c i none (fun s => .ok s) with
  | .next s' =>
    let k := coreOf s c
    if k.state = .running ∧ (issueTrap s c i none).isNone then
      .next (setCore s' c { coreOf s' c with
        delay := some { branch := pc, target := target k, link := link.map (·.val) } })
    else .next s'
  | o => o

/-- BC (R525): Conditional branch with delay slot. -/
def execGBc (core : Nat) (pre : GPre) (a : Fin 32) (cc : Fin 8) (b : Fin 32) (size : Fin 8) (disp : BitVec 64)
    (s : State) : Out :=
  runBranch core { pre := pre, op := 0x90, args := .b a cc b size disp }
    (fun k => if gCc cc.val (k.g a.val) (k.g b.val) then some (k.pc + disp) else none) none s

/-- JAL (R525): Jump and link with delay slot. -/
def execGJal (core : Nat) (pre : GPre) (d : Fin 32) (size : Fin 8) (disp : BitVec 64) (s : State) : Out :=
  runBranch core { pre := pre, op := 0x91, args := .j d size disp } (fun k => some (k.pc + disp)) (some d) s

/-- JALR (R525): Jump to register and link with delay slot. -/
def execGJalr (core : Nat) (pre : GPre) (d a : Fin 32) (s : State) : Out :=
  runBranch core { pre := pre, op := 0x92, args := .g2 d a } (fun k => some (k.g a.val)) (some d) s

end Sys2Proof.Machine
end

