-- ==== Sys2Proof/Machine/GoleyMemory.lean ====
section
/-! DEFINITION. Goley memory instructions: loads, stores, their update forms, CAS, FENCE and CPX (R520–R523). -/

namespace Sys2Proof.Machine

/-- LDB (R520): Load byte, sign-extended. -/
def execGLdb (core : Nat) (pre : GPre) (d b : Fin 32) (size : Fin 8) (disp : BitVec 64) (s : State) : Out :=
  runLoad 0x60 core pre d b size disp s

/-- LDBU (R520): Load byte, zero-extended. -/
def execGLdbu (core : Nat) (pre : GPre) (d b : Fin 32) (size : Fin 8) (disp : BitVec 64) (s : State) : Out :=
  runLoad 0x61 core pre d b size disp s

/-- LDH (R520): Load halfword, sign-extended. -/
def execGLdh (core : Nat) (pre : GPre) (d b : Fin 32) (size : Fin 8) (disp : BitVec 64) (s : State) : Out :=
  runLoad 0x62 core pre d b size disp s

/-- LDHU (R520): Load halfword, zero-extended. -/
def execGLdhu (core : Nat) (pre : GPre) (d b : Fin 32) (size : Fin 8) (disp : BitVec 64) (s : State) : Out :=
  runLoad 0x63 core pre d b size disp s

/-- LDW (R520): Load word, sign-extended. -/
def execGLdw (core : Nat) (pre : GPre) (d b : Fin 32) (size : Fin 8) (disp : BitVec 64) (s : State) : Out :=
  runLoad 0x64 core pre d b size disp s

/-- LDWU (R520): Load word, zero-extended. -/
def execGLdwu (core : Nat) (pre : GPre) (d b : Fin 32) (size : Fin 8) (disp : BitVec 64) (s : State) : Out :=
  runLoad 0x65 core pre d b size disp s

/-- LDD (R520): Load doubleword. -/
def execGLdd (core : Nat) (pre : GPre) (d b : Fin 32) (size : Fin 8) (disp : BitVec 64) (s : State) : Out :=
  runLoad 0x66 core pre d b size disp s

/-- STB (R520): Store byte. -/
def execGStb (core : Nat) (pre : GPre) (d b : Fin 32) (size : Fin 8) (disp : BitVec 64) (s : State) : Out :=
  runStore 0x68 core pre d b size disp s

/-- STH (R520): Store halfword. -/
def execGSth (core : Nat) (pre : GPre) (d b : Fin 32) (size : Fin 8) (disp : BitVec 64) (s : State) : Out :=
  runStore 0x69 core pre d b size disp s

/-- STW (R520): Store word. -/
def execGStw (core : Nat) (pre : GPre) (d b : Fin 32) (size : Fin 8) (disp : BitVec 64) (s : State) : Out :=
  runStore 0x6A core pre d b size disp s

/-- STD (R520): Store doubleword. -/
def execGStd (core : Nat) (pre : GPre) (d b : Fin 32) (size : Fin 8) (disp : BitVec 64) (s : State) : Out :=
  runStore 0x6B core pre d b size disp s

/-- LDB_U (R520): Load byte signed, then update base. -/
def execGLdbU (core : Nat) (pre : GPre) (d b : Fin 32) (size : Fin 8) (disp : BitVec 64) (s : State) : Out :=
  runLoad 0x70 core pre d b size disp s

/-- LDBU_U (R520): Load byte unsigned, then update base. -/
def execGLdbuU (core : Nat) (pre : GPre) (d b : Fin 32) (size : Fin 8) (disp : BitVec 64) (s : State) : Out :=
  runLoad 0x71 core pre d b size disp s

/-- LDH_U (R520): Load halfword signed, then update base. -/
def execGLdhU (core : Nat) (pre : GPre) (d b : Fin 32) (size : Fin 8) (disp : BitVec 64) (s : State) : Out :=
  runLoad 0x72 core pre d b size disp s

/-- LDHU_U (R520): Load halfword unsigned, then update base. -/
def execGLdhuU (core : Nat) (pre : GPre) (d b : Fin 32) (size : Fin 8) (disp : BitVec 64) (s : State) : Out :=
  runLoad 0x73 core pre d b size disp s

/-- LDW_U (R520): Load word signed, then update base. -/
def execGLdwU (core : Nat) (pre : GPre) (d b : Fin 32) (size : Fin 8) (disp : BitVec 64) (s : State) : Out :=
  runLoad 0x74 core pre d b size disp s

/-- LDWU_U (R520): Load word unsigned, then update base. -/
def execGLdwuU (core : Nat) (pre : GPre) (d b : Fin 32) (size : Fin 8) (disp : BitVec 64) (s : State) : Out :=
  runLoad 0x75 core pre d b size disp s

/-- LDD_U (R520): Load doubleword, then update base. -/
def execGLddU (core : Nat) (pre : GPre) (d b : Fin 32) (size : Fin 8) (disp : BitVec 64) (s : State) : Out :=
  runLoad 0x76 core pre d b size disp s

/-- STB_U (R520): Store byte, then update base. -/
def execGStbU (core : Nat) (pre : GPre) (d b : Fin 32) (size : Fin 8) (disp : BitVec 64) (s : State) : Out :=
  runStore 0x78 core pre d b size disp s

/-- STH_U (R520): Store halfword, then update base. -/
def execGSthU (core : Nat) (pre : GPre) (d b : Fin 32) (size : Fin 8) (disp : BitVec 64) (s : State) : Out :=
  runStore 0x79 core pre d b size disp s

/-- STW_U (R520): Store word, then update base. -/
def execGStwU (core : Nat) (pre : GPre) (d b : Fin 32) (size : Fin 8) (disp : BitVec 64) (s : State) : Out :=
  runStore 0x7A core pre d b size disp s

/-- STD_U (R520): Store doubleword, then update base. -/
def execGStdU (core : Nat) (pre : GPre) (d b : Fin 32) (size : Fin 8) (disp : BitVec 64) (s : State) : Out :=
  runStore 0x7B core pre d b size disp s

/-- CAS (R520, R522): Atomic compare-and-swap of a doubleword at g[b] with the new value g[a], the fields in the order of
G3 (log 62). It reads and writes, so the access needs R and W. -/
def execGCas (core : Nat) (pre : GPre) (d a b : Fin 32) (s : State) : Out :=
  runIns s core { pre := pre, op := 0xE010, args := .g3 d a b } none (fun s =>
    let ea := ((coreOf s core).g b.val).toNat
    match dataTrap s core 29 ea 8 with
    | some t => .error t
    | none => match dataTrap s core 28 ea 8 with
      | some t => .error t
      | none =>
        let r := coreLoad s core ea 8
        let s := r.2
        let s := if r.1 = ((coreOf s core).g d.val).toNat then coreStore s core ea 8 ((coreOf s core).g a.val).toNat else s
        .ok (putG s core d (BitVec.ofNat 64 r.1)))

/-- FENCE_INSTRUCTION (R523): Waits for earlier accesses and discards fetched bytes beyond itself. In this model every earlier access has completed and no byte is fetched ahead (log 21), so it only passes. -/
def execGFenceInstruction (core : Nat) (pre : GPre) (s : State) : Out :=
  runIns s core { pre := pre, op := 0xE011, args := .n } none (fun s => .ok s)

/-- CPX (R522): Copies a doubleword from a linear source to a MOD-formed destination. Alignment of the source, then of ea, then region and window of each, then MEDIA of the source (R522). -/
def execGCpx (core : Nat) (pre : GPre) (d b : Fin 32) (size : Fin 8) (disp : BitVec 64) (s : State) : Out :=
  runIns s core { pre := pre, op := 0xE012, args := .m d b size disp } none (fun s =>
    let k := coreOf s core
    let src := k.g d.val
    let ea := effAddr k pre (k.g b.val) disp
    match checkAlign src.toNat 8, checkAlign ea.toNat 8, checkAccess s core 28 src.toNat 8,
        checkAccess s core 29 ea.toNat 8 with
    | some t, _, _, _ => .error t
    | none, some t, _, _ => .error t
    | none, none, some t, _ => .error t
    | none, none, none, some t => .error t
    | none, none, none, none =>
      match mediaTrap s core src.toNat 8 with
      | some t => .error t
      | none =>
        let r := coreLoad s core src.toNat 8
        let s := coreStore r.2 core ea.toNat 8 r.1
        .ok (putG (putG s core d (src + 8)) core b ea))

end Sys2Proof.Machine
end

