-- ==== Sys2Proof/Machine/HostPorts.lean ====
section
/-! DEFINITION. The host port station (16_host_interface.md, R563, R574): fetching a source from host memory, writing a
destination, scatter-gather lists; and NVMe-MI (R583). -/

namespace Sys2Proof.Machine

/-! ## Scatter-gather lists (R146, R574) -/

/-- Type of an SGL descriptor: 0 data block, 2 segment, 3 last segment. -/
def sglType (d : Bytes) : Nat := leAt d 15 1 / 16

/-- Address of an SGL descriptor. -/
def sglAddr (d : Bytes) : Nat := leAt d 0 8

/-- Length of an SGL descriptor. -/
def sglLen (d : Bytes) : Nat := leAt d 8 4

/-- A descriptor's type is allowed, its subtype and reserved fields are 0, and its address is a multiple of 4. -/
def sglDescOk (d : Bytes) : Bool :=
  (sglType d == 0 || sglType d == 2 || sglType d == 3) && leAt d 15 1 % 16 == 0 && isZero d 12 3 && sglAddr d % 4 == 0

/-- The segments as far as they are well formed (R574): `afterLast` where the segment was pointed to by a last segment
descriptor. Answers the data blocks, and whether a malformed segment ended the walk. -/
def sglWalk : List (List Bytes) → Bool → List (Nat × Nat) × Bool
  | [], _ => ([], false)
  | seg :: rest, afterLast =>
    let isSeg : Bytes → Bool := fun d => sglType d != 0
    let inner := seg.dropLast
    let blocks := (seg.filter (fun d => sglType d == 0)).map (fun d => (sglAddr d, sglLen d))
    if seg.isEmpty || !seg.all sglDescOk || inner.any isSeg || (afterLast && seg.any isSeg) then ([], true)
    else match seg.getLast? with
      | none => (blocks, false)
      | some d =>
        if !isSeg d then (blocks, false)
        else if sglLen d = 0 then (blocks, true)
        else
          let r := sglWalk rest (sglType d == 3)
          (blocks ++ r.1, r.2)

/-- Bytes that a list of data blocks describes. -/
def sglTotal (l : List (Nat × Nat)) : Nat := (l.map (·.2)).sum

/-- The pieces of [off, off + n) in a list of data blocks. -/
def sglPieces : List (Nat × Nat) → Nat → Nat → List (Nat × Nat)
  | [], _, _ => []
  | (a, len) :: t, off, n =>
    if len ≤ off then sglPieces t (off - len) n
    else if n = 0 then []
    else
      let k := min n (len - off)
      (a + off, k) :: sglPieces t 0 (n - k)

/-! ## The first station (R563, R574, R182) -/

/-- SHORT is reported by a host port (R589). -/
def portShort (s : State) (u tag step : Nat) (sgl : Bool) : State :=
  let s := bump s Reg.HIF_COUNTS 15 0 1
  failAt (modEntry s tag (fun e => { e with sglShort := e.sglShort || sgl })) tag step u 0x01

/-- The next 4 KiB of a portion is fetched; a completion timeout or poisoned completion leaves fewer bytes. -/
def portTake (s : State) (u tag : Nat) (e : Entry) (step first len : Nat) (data : Bytes) : State :=
  let n := min 4096 len
  let bs := data.take n
  let s := if n < len then setInbox s u (.start tag step (first + n) (len - n) :: inboxOf s u) else s
  let st := if e.t.dest.kind = 3 then slotStation (descIndex s e.t.dest (first / 4096)) 0 false false else 0
  let s := if bs.isEmpty then s else sendData s tag step u (first / 4096) first bs st false
  let s := countTaken (countCtx s tag step bs.length bs.length) tag bs.length
  if bs.length < n then portShort s u tag step false
  else match entryOf s tag with
    | none => s
    | some e => if allTaken s e tag step then endOut s tag step u (ctxOf s tag step).outBytes false else s

/-- A portion, or the rest of one, at a host port that is the first station. With HOST_SGL the whole list is read and
checked before any data is fetched. -/
def portFetch (s : State) (u tag : Nat) (e : Entry) (step first len : Nat) (sgl : List (List Bytes)) (data : Bytes) :
    State :=
  if e.t.source.kind = 1 then portTake s u tag e step first len data
  else if e.t.source.kind ≠ 2 then failAt s tag step u 0x10
  else if first ≠ 0 ∨ (ctxOf s tag step).inBytes ≠ 0 then portTake s u tag e step first len data
  else
    let r := sglWalk sgl false
    if r.2 ∨ (sgl.headD []).length ≠ 1 then failAt s tag step u 0x10
    else if sglTotal r.1 < e.t.len then portShort s u tag step true
    else
      let s := if e.t.len < sglTotal r.1 then report (bump s Reg.HIF_COUNTS 31 16 1) tag u 0x02 else s
      portTake s u tag e step first len data

/-- HOST_PORT_FETCH (R563, R574). -/
def execHostPortFetch (unit : Nat) (sgl : List (List Bytes)) (data : Bytes) (s : State) : Out :=
  .next (serveFront s unit 0x0B (· == 0) (fun s tag e j _ w =>
    match w with
    | .start _ _ first len => portFetch s unit tag e j first len sgl data
    | .pkt _ => setInbox s unit (w :: inboxOf s unit)))

/-! ## The last station (R563, R574, R174) -/

/-- Write pieces of a packet through the port. -/
def portWrite (s : State) (e : Entry) : List (Nat × Nat) → Bytes → State
  | [], _ => s
  | (a, n) :: t, bs => portWrite (hostWrite s (e.t.dest.mid % 2) e.t.inst a (bs.take n)) e t (bs.drop n)

/-- A packet at a host port that is the last station. -/
def portPut (s : State) (u tag : Nat) (e : Entry) (step : Nat) (sgl : List (List Bytes)) (p : Packet) : State :=
  let c := ctxOf s tag step
  if p.endTok then
    (if !tokenReady s p step then enqueue s u (.pkt p)
    else if p.prov then endProvisional s tag u
    else endOut s tag step u c.outBytes false)
  else
    let n := p.data.length
    let put : List (Nat × Nat) → State := fun l =>
      setCtx (portWrite s e l p.data) tag step { c with
        inBytes := c.inBytes + n, outBytes := c.outBytes + n, wrote := c.wrote ++ l, prov := p.prov }
    if e.t.dest.kind = 1 then put [(e.t.dest.addr + p.off, n)]
    else if e.t.dest.kind ≠ 2 then failAt s tag step u 0x10
    else
      let r := sglWalk sgl false
      if (sgl.headD []).length ≠ 1 then failAt s tag step u 0x10
      else if p.off + n ≤ sglTotal r.1 then put (sglPieces r.1 p.off n)
      else if r.2 then failAt s tag step u 0x10
      else failAt (modEntry s tag (fun e => { e with sglShort := true })) tag step u 0x05

/-- HOST_PORT_WRITE (R563, R574). -/
def execHostPortWrite (unit : Nat) (sgl : List (List Bytes)) (s : State) : Out :=
  .next (serveFront s unit 0x0B (· == 0) (fun s tag e j _ w =>
    match w with
    | .pkt p => portPut s unit tag e j sgl p
    | .start _ _ _ _ => setInbox s unit (w :: inboxOf s unit)))

/-! ## NVMe-MI (R583, R584) -/

/-- System firmware is running: from phase TRAIN on, and not in HALTED or ENTRY (R583, R689). -/
def fwRunning (s : State) : Bool :=
  match s.boot.phase with
  | .train | .stream | .recover | .restore | .ready => true
  | _ => false

/-- The answer to an NVMe-MI command: its status byte (0 Success, 3 Invalid Opcode, 4 Invalid Parameter) and data. What the
spec does not state of the data is free (log 41). -/
def miAnswer (s : State) (op d0 d1 : Nat) : Bytes × State :=
  let warn := live s Reg.FTL_HEALTH 20 16
  let temp := natLe 1 (min 127 s.pwr.tModel.toNat)
  match op with
  | 0x00 => (natLe 1 0 ++ freeBytes s.freeCount 32, drawn s)
  | 0x01 => (natLe 1 0 ++ structOf s.freeCount 8 [(1, natLe 1 (255 - warn)), (2, temp), (3, natLe 1 (pctUsed s))], drawn s)
  | 0x02 => (natLe 1 0 ++ structOf s.freeCount 16 [(4, natLe 2 (kelvin s.pwr.tModel)), (6, natLe 1 (pctUsed s)),
      (7, natLe 1 (availSpare s)), (8, natLe 1 warn)], drawn s)
  | 0x03 => (natLe 1 0, setHif s { s.hif with miConf := Tab.set s.hif.miConf (d0 % 256) d1 })
  | 0x04 => (natLe 1 0 ++ natLe 4 (Tab.getD s.hif.miConf (d0 % 256) 0), s)
  | 0x05 => (natLe 1 0 ++ freeBytes s.freeCount (min 256 (d1 % 65536)), drawn s)
  | _ => (natLe 1 3, s)

/-- A tunnelled admin command reaches a physical function's controller: Identify, Get Features, and Get Log Page 0x01 to
0x03; another gets Invalid Opcode. -/
def miAdmin (s : State) (c op d10 nsid : Nat) : Bytes × State :=
  match op with
  | 0x06 => (natLe 1 0 ++ identifyData s c (d10 % 256) (d10 / 65536) nsid 0, drawn s)
  | 0x0A => match featureNow s c (d10 % 256) 0 with
    | some (v, bs) => (natLe 1 0 ++ natLe 4 v ++ bs, s)
    | none => (natLe 1 4, s)
  | 0x02 =>
    let id := d10 % 256
    if 1 ≤ id ∧ id ≤ 3 then (natLe 1 0 ++ (logPage s c id nsid).getD [], drawn s) else (natLe 1 4, s)
  | _ => (natLe 1 3, s)

/-- The transport answers (R583, R588, R689): SMBus once system firmware runs, VDM while its port's link is up; NVMe-MI only
while MI_EN is 1. The basic management command needs no MI_EN. -/
def miReaches (s : State) (transport : Nat) : Bool :=
  fwRunning s && (match transport with
    | 0 => true
    | 1 => eff s Reg.HIF_MI 8 8 == 1
    | t => eff s Reg.HIF_MI 8 8 == 1 && (Tab.getD s.hif.links (t - 2) {}).up)

/-- NVME_MI_COMMAND (R583): the response appears on its transport. The basic management command answers the subsystem's
health. -/
def execNvmeMiCommand (transport op dword0 dword1 : Nat) (admin : Bool) (s : State) : Out :=
  if !miReaches s transport then .next s
  else
    let c := if transport = 3 then 1 else 0
    let r := if transport = 0 then miAnswer s 0x01 0 0
      else if admin then miAdmin s c op dword0 dword1 else miAnswer s op dword0 dword1
    .next (setHif r.2 { r.2.hif with miOut := r.1 })

/-- NVME_MI_SEND (R565, R584): an NVMe-MI command from a host; its response is kept for NVMe-MI Receive. -/
def execNvmeMiSend (ctrl : Nat) (s : State) : Out :=
  adminCmd s ctrl 0x1D true (fun s y =>
    let r := miAnswer s (eDw y.entry 11 % 256) (eDw y.entry 12) (eDw y.entry 13)
    cqe (setHif r.2 { r.2.hif with miReply := r.1 }) y nOk (leAt r.1 0 1) 0)

/-- NVME_MI_RECEIVE (R565): an NVMe-MI command whose response data goes to the host. -/
def execNvmeMiReceive (ctrl : Nat) (s : State) : Out :=
  adminCmd s ctrl 0x1E true (fun s y =>
    let r := miAnswer s (eDw y.entry 11 % 256) (eDw y.entry 12) (eDw y.entry 13)
    let s := setHif r.2 { r.2.hif with miReply := r.1 }
    cqe (hostPut s y (r.1.drop 1)) y nOk (leAt r.1 0 1) 0)

end Sys2Proof.Machine
end

