-- ==== Sys2Proof/Machine/Package.lean ====
section
/-! DEFINITION. The package's own ports (24_package_and_electrical.md): the SMBus interface and the test port. -/

namespace Sys2Proof.Machine

/-- SMBUS_TIMEOUT (R775): the interface is reset and both lines are released. -/
def execSmbusTimeout (s : State) : Out := .next (setHif s { s.hif with smbResets := s.hif.smbResets + 1 })

/-- TEST_PORT_INSTRUCTION (R777): EXTEST only while LIFECYCLE is MANUFACTURE; every other instruction selects BYPASS. -/
def execTestPortInstruction (ir : Nat) (s : State) : Out :=
  let sel := if ir = 1 then 1 else if ir = 2 ∧ s.tru.lifecycle = 0 then 2 else 0
  .next { s with boot := { s.boot with testIr := sel } }

end Sys2Proof.Machine
end

