-- ==== Sys2Proof/Machine/Trunk.lean ====
section
/-! DEFINITION. Packets and tokens that the trunk delivers (R30–R45, R172–R174): the trunk interface of a unit, the routers'
check of a flit, and what a station does at an end token and at a revoke token. -/

namespace Sys2Proof.Machine

/-! ## Order on the trunk (R39) -/

/-- The packets that share source, destination, class and route order with `p` (R39). -/
def sameWay (p q : Packet) : Bool := p.src == q.src && p.dest == q.dest && p.cls == q.cls && p.route == q.route

/-- The oldest packet in flight on that way. -/
def oldest (s : State) (src dest cls route : Nat) : Option Packet :=
  s.dev.trunk.find? (fun p => p.src == src && p.dest == dest && p.cls == cls && p.route == route)

/-- A packet that satisfies `p` and has no older one on its way. -/
def arriving (s : State) (p : Packet → Bool) : Option Packet :=
  s.dev.trunk.find? (fun q => p q && s.dev.trunk.find? (sameWay q) == some q)

/-- The packet leaves the trunk. -/
def offTrunk (s : State) (p : Packet) : State := { s with dev := { s.dev with trunk := dropFirst (· == p) s.dev.trunk } }

/-! ## A station's end for a revoked ticket (R173, R174) -/

/-- The loader drops a load that its ticket's revoke token ends, up to the loading of a fen; the load of instance 0 completes with the
ticket's status (R94, R95). The target fen stays as step 1 or 2 of R82 left it (DESIGN CHOICE, log 202). -/
def loaderRevoke (s : State) (tag : Nat) : State :=
  let mine := s.cfg.queue.filter (fun r => r.tag == some tag) ++
    (s.cfg.cur.toList.filter (fun r => r.tag == some tag && decide (s.cfg.stage ≠ .loading)))
  let status := ((entryOf s tag).map (fun e => (finalStatus e).1)).getD 0x10
  let s := mine.foldl (fun s r => cfgResult s r status) s
  let s := setCfg s { s.cfg with queue := s.cfg.queue.filter (fun r => r.tag != some tag) }
  if (s.cfg.cur.bind (·.tag)) = some tag ∧ s.cfg.stage ≠ .loading then
    let s := dropKeyUse s
    setCfg s { s.cfg with state := .idle, cur := none, head := [], blocks := [], raw := [], content := [], keyLost := false, stage := .none }
  else s

/-- What unit `u` does with a ticket's data at its revoke token: fens and cores pass REVOKE on, an engine zeroes its context
(R362, R398, R430), every other station drops what it holds. -/
def stationRevoke (s : State) (u tag step : Nat) : State :=
  let s := setInbox s u ((inboxOf s u).filter (fun w => w.tag != tag))
  match kindOf u with
  | 0x02 | 0x03 => fenRevoke s (u - 32) tag
  | 0x04 | 0x05 =>
    let prog := ((entryOf s tag).bind (fun e => (stepsOf s e)[step]?)).all (fun st => st.mode == 0)
    if prog then coreRevoke s (coreIndex s u) tag else s
  | 0x13 => loaderRevoke s tag
  | 0x06 | 0x07 | 0x08 => engineCleared s u tag step
  | _ => setCtx s tag step { ctxOf s tag step with buf := [], held := [], acc := [] }

/-- A revoke token at step `step`: it goes on at once; the last station zeroes what the ticket wrote and acknowledges. -/
def revokeAt (s : State) (u tag step : Nat) : State :=
  match entryOf s tag with
  | none => s
  | some e =>
    let s := modEntry s tag (fun e => { e with revoking := true, waiting := false })
    if isLast s e step then ackTicket (zeroWritten (stationRevoke s u tag step) tag e) tag 0
    else stationRevoke (sendToken s e tag step u 0 false true) u tag step

/-! ## The trunk interface (R32, R41, R45, R157, R742) -/

/-- A packet whose DEST_GEN is not the unit's GEN goes to the siding, and its ticket completes with ROLE_STALE (R32). -/
def bounce (s : State) (p : Packet) : State :=
  let cookie := ((entryOf s p.tag).map (·.t.cookie)).getD 0
  let s := park s {
    inst := p.inst, disp := 1, status := 0x0B, unit := p.dest, src := p.src, tag := p.tag, destGen := p.destGen,
    cookie := cookie, time := opTime s }
  match entryOf s p.tag with
  | none => s
  | some e => if e.revoking then revokeAt s p.dest p.tag p.step else failAt s p.tag p.step p.dest 0x0B

/-- A packet of a fenced ticket goes to the siding on arrival (R171). -/
def arriveFenced (s : State) (p : Packet) (e : Entry) : State :=
  park s {
    inst := p.inst, disp := 1, status := (finalStatus e).1, unit := p.dest, src := p.src, tag := p.tag, destGen := p.destGen,
    cookie := e.t.cookie, time := opTime s }

/-- Unit `p.dest` has an entry of its input queue for the packet's portion: the one that the portion holds already, or a free one
(R156, R157). An engine opens no more contexts than it has entries (R361, R430). A token needs no entry. -/
def hasRoom (s : State) (p : Packet) : Bool :=
  let u := p.dest
  match kindOf u with
  | 0x02 | 0x03 =>
    let l := (fenOf s (u - 32)).inside
    l.any (fun t => t.tag == p.tag) || decide (l.length < queueCap u)
  | 0x13 => true
  | k =>
    p.endTok || (portionsAt s u).contains (p.tag, p.off / portionBytes) ||
      (decide (0 < queueFree s u) &&
        (!(k == 0x06 || k == 0x07 || k == 0x08) || decide (contextsAt s u < queueCap u) ||
          decide (ctxOf s p.tag p.step ≠ {})))

/-- A fen takes input while its logic is clocked; a draining one only for the tickets that it has inside (R107, R122). -/
def fenTakes (s : State) (f tag : Nat) : Bool :=
  let x := fenOf s f
  x.state == .running || (fenClocked x && x.inside.any (fun t => t.tag == tag))

/-- The first bytes of a load ticket make its request (R73, log 14); instance 0 may load a structure stream so too (R70). -/
def loadTicket (s : State) (e : Entry) (p : Packet) : State :=
  let c := ctxOf s p.tag p.step
  let fresh := c.inBytes == 0 && c.buf.isEmpty
  let s := setCtx s p.tag p.step { c with
    buf := c.buf ++ p.data, inBytes := c.inBytes + p.data.length, prov := c.prov || p.prov }
  let target := e.t.param % 256
  if fresh then loaderAsk s {
    inst := e.t.inst, kind := if e.t.inst = 0 then 0 else 2, target := target, gen := (unitOf s target).gen, offered := e.t.len,
    cookie := e.t.cookie, tag := some p.tag }
  else s

/-- The packet reaches its station's queue, a fen's port, or the loader. -/
def deliverPkt (s : State) (e : Entry) (p : Packet) : State :=
  match kindOf p.dest with
  | 0x02 | 0x03 => fenInput s (p.dest - 32) (p.dest < 64 && p.src == p.dest - 32) p
  | 0x13 => loadTicket s e p
  | _ => enqueue s p.dest (.pkt p)

/-- Symbols that an injection puts into the code words of the packet as the unit stores it: 1 is corrected and counted, 2
make a word uncorrectable, 3 may be miscorrected, which leaves the words' bytes free (R42, R742). A core's words are written by
its port interface and read by its program (R482), so their symbols stay in its memory. The packet as stored, or
none where it is lost. -/
def storeWords (s : State) (p : Packet) : Option Packet × State :=
  match (if kindOf p.dest = 0x04 ∨ kindOf p.dest = 0x05 then none else injOf s 1 p.dest (fun _ => true)) with
  | none => (some p, s)
  | some i =>
    if p.data.isEmpty then (some p, s)
    else
      let (k, s) := useInjs s i (ceilDiv p.data.length 32)
      match i.param % 4 with
      | 1 => (some p, countCorrected s (hwUnit s p.dest) k (some p.tag))
      | 3 =>
        let n := min p.data.length (32 * k)
        if Config.freeNat s.freeCount % 2 = 0 then (none, countUncorr (drawn s) (hwUnit s p.dest) 1)
        else (some { p with data := freeBytes s.freeCount n ++ p.data.drop n }, drawn s)
      | _ => (none, countUncorr s (hwUnit s p.dest) k)

/-- The packet passes its unit's trunk interface. -/
def takeArrival (s : State) (p : Packet) : State :=
  match entryOf s p.tag with
  | none => s
  | some e =>
    if e.fenced then arriveFenced s p e
    else if e.revoking then s
    else if 128 < p.flits then failAt s p.tag p.step p.dest 0x10
    else if p.poison then failAt s p.tag p.step p.dest 0x0F
    else match storeWords s p with
      | (some p, s) => deliverPkt s e p
      | (none, s) => failAt (recordLost s p.dest p.inst lostUnknown) p.tag p.step p.dest 0x0F

/-- The unit can take the packet now: back-pressure holds it on the trunk otherwise (R157). -/
def canTake (s : State) (p : Packet) : Bool :=
  hasRoom s p &&
    (match kindOf p.dest with
    | 0x02 | 0x03 => fenTakes s (p.dest - 32) p.tag
    | _ => true)

/-- PACKET_ARRIVE (R32): the oldest packet on its way; a token arrives by the command of its own. It wakes the domains that it
passes and the unit's, and waits while one of them is held OFF (R36). -/
def execPacketArrive (src dest cls route : Nat) (s : State) : Out :=
  match oldest s src dest cls route with
  | none => .next s
  | some p =>
    if p.endTok || p.revoke || pathBarred s p then .next s
    else
      let s := wakePath s p
      if (unitOf s dest).gen ≠ p.destGen then .next (bounce (offTrunk s p) p)
      else if (entryOf s p.tag).isSome ∧ !canTake s p then .next s else .next (takeArrival (offTrunk s p) p)

/-! ## A router's check of a flit (R44) -/

/-- One arrival of a flit with `n` symbols in error: how many there are with the injection on the link, and the state. -/
def linkSymbols (s : State) (up link n : Nat) : Nat × State :=
  match injOf s 2 up (fun p => p % 8 == link) with
  | some i => (n + fld i.param 4 3, (useInjs s i 1).2)
  | none => (n, s)

/-- Count at the router's unit, or at its quadrant where it has none (R738, R750). -/
def routerCount (s : State) (x y hi lo : Nat) : State :=
  match routerUnit x y with
  | some u => bump s (unitErr u) hi lo 1
  | none => bump s (Reg.TST_QUAD_ERR + 4 * quadOf x y) hi lo 1

/-- A symbol is corrected in place. -/
def routerFixes (s : State) (x y : Nat) (tag : Option Nat) : State :=
  match routerUnit x y with
  | some u => countCorrected s u 1 tag
  | none => routerCount s x y 31 16

/-- The arrivals of a flit, the first and up to 3 replays: one symbol is corrected, two ask for a replay, and three or more
may be miscorrected (R42, R44). -/
def flitTries (x y up link : Nat) (tag : Option Nat) : Nat → List Nat → State → FlitEnd × State
  | left, errs, s =>
    match left with
    | 0 => (.poisoned, s)
    | f + 1 =>
      let r := linkSymbols s up link (errs.headD 0)
      match r.1 with
      | 0 => (.good, r.2)
      | 1 => (.good, routerFixes r.2 x y tag)
      | n =>
        if 3 ≤ n ∧ Config.freeNat r.2.freeCount % 2 = 1 then (.altered, drawn r.2)
        else
          let s := if 3 ≤ n then drawn r.2 else r.2
          let s := if f = 0 then s else routerCount s x y 7 0
          flitTries x y up link tag f (errs.drop 1) s

/-- A miscorrected flit: the payload bytes of the flit, or STATION in a header, are free. -/
def alterFlit (p : Packet) (flit k : Nat) : Packet :=
  if flit = 0 then { p with station := Config.freeNat k % 2 ^ 128 }
  else
    let a := 32 * (flit - 1)
    let n := min 32 (p.data.length - a)
    { p with data := p.data.take a ++ freeBytes k n ++ p.data.drop (a + n) }

/-- Replace the packet in flight. -/
def setPacket (s : State) (p q : Packet) : State :=
  { s with dev := { s.dev with trunk := s.dev.trunk.map (fun x => if x = p then q else x) } }

/-- A flit of class response that answers a core's own access to memory or registers: it belongs to no packet of a ticket. `none`:
no running core is the destination. -/
def accessFlit (s : State) (src dest cls route : Nat) : Option (Nat × Packet) :=
  let c := coreIndex s dest
  if cls = 1 ∧ 72 ≤ dest ∧ dest < 120 ∧ (coreOf s c).state = .running then
    some (c, { dest := dest, destGen := (unitOf s dest).gen, src := src, inst := (unitOf s dest).owner, route := route, cls := 1, tag := 0, step := 0 })
  else none

/-- An answer's flit reaches a router on its way to core `c`: what has become of it is found at the access (R45, R477). -/
def accessFlitArrive (s : State) (c : Nat) (p : Packet) (x y up link : Nat) (errors : List Nat) : State :=
  match flitTries x y up link none 4 errors (wakeIsland s (0xE0 + quadOf x y)) with
  | (.good, s) => s
  | (.altered, s) => setCore s c { coreOf s c with flit := .altered }
  | (.poisoned, s) =>
    let s := recordLost (routerCount s x y 15 8) ((routerUnit x y).getD 0xFF) p.inst lostUnknown
    setCore s c { coreOf s c with flit := .poisoned }

/-- FLIT_ARRIVE (R36, R38, R44): a flit passes only the routers of its dimension-ordered route, and wakes the trunk quadrant of
each. The outcome of the third replay that is still uncorrectable goes on with its poison mark, and the recorder names the router's
unit (R45). With no packet in flight that way, the flit is of the answer to a core's own access. -/
def execFlitArrive (src dest cls route x y up link flit : Nat) (errors : List Nat) (s : State) : Out :=
  let q := 0xE0 + quadOf x y
  match oldest s src dest cls route with
  | none => .next (match accessFlit s src dest cls route with
    | none => s
    | some (c, p) => if !onRoute s p (x, y) || wakeBarred s q then s else accessFlitArrive s c p x y up link errors)
  | some p =>
    if !onRoute s p (x, y) || wakeBarred s q then .next s
    else match flitTries x y up link (some p.tag) 4 errors (wakeIsland s q) with
    | (.good, s) => .next s
    | (.altered, s) => .next (setPacket (drawn s) p (alterFlit p flit s.freeCount))
    | (.poisoned, s) =>
      let s := routerCount s x y 15 8
      .next (setPacket (recordLost s ((routerUnit x y).getD 0xFF) p.inst lostUnknown) p { p with poison := true })

/-! ## Held events (R31) -/

/-! ## End tokens and revoke tokens (R172, R173) -/

/-- The state that a station's command answers. -/
def answered (s : State) (o : Out) : State :=
  match o with
  | .next t => t
  | _ => s

/-- The station takes the token that stands alone in its queue: what its own command does with it. What a stream compressor and a cipher
engine still compute at the token is checked, and waits for their own command (R349, R395). -/
def serveToken (s : State) (u mode : Nat) : State :=
  match kindOf u, mode with
  | 0x01, 1 => writeServe s u 1
  | 0x01, _ => writeServe s u 2
  | 0x04, 0 | 0x05, 0 => answered s (execProgram u s)
  | 0x04, _ | 0x05, _ => answered s (execLoad u s)
  | 0x06, 2 | 0x07, _ => s
  | 0x06, _ => cmpServe s u mode true []
  | 0x08, _ => dgtServe s u mode
  | 0x09, _ => searchServe s u mode {}
  | 0x0A, _ => answered s (execDramStation u 0 s)
  | 0x0B, _ => answered s (execHostPortWrite u [] s)
  | 0x0C, _ => answered s (execSend u s)
  | 0x0D, _ => answered s (execParityEngineStep u none s)
  | 0x0F, 0 => answered s (execReadWriteBack u s)
  | 0x0F, _ => answered s (execWriteThrough u s)
  | 0x11, 0 => answered s (execDeallocate s)
  | 0x11, 2 => answered s (execDurable s)
  | 0x11, 3 => answered s (execMapWrite s)
  | _, _ => s

/-- The load ticket's end: the loader knows that no more bytes come; a token with PROV 1 is a revoke (R172). -/
def loadEnds (s : State) (p : Packet) : State :=
  let c := ctxOf s p.tag p.step
  if p.prov then
    match entryOf s p.tag with
    | some e => ackTicket (zeroWritten (stationRevoke (report s p.tag p.dest 0x10) p.dest p.tag p.step) p.tag e) p.tag 0
    | none => s
  else setCtx s p.tag p.step { c with endTok := some (p.off, p.prov) }

/-- The token passes the trunk interface: fens take it on their port, the loader notes it, and every other station serves
it in its turn, at once where nothing stands before it. -/
def takeToken (s : State) (e : Entry) (p : Packet) : State :=
  match kindOf p.dest with
  | 0x02 | 0x03 => fenInput s (p.dest - 32) (p.dest < 64 && p.src == p.dest - 32) p
  | 0x13 => loadEnds s p
  | _ =>
    let s := enqueue s p.dest (.pkt p)
    if (inboxOf s p.dest).length = 1 then
      serveToken s p.dest ((((stepsOf s e)[p.step]?).map (·.mode)).getD 0)
    else s

/-- At a fen or the loader the token is taken once the bytes that it counts have come. -/
def tokenDue (s : State) (p : Packet) : Bool :=
  match kindOf p.dest with
  | 0x02 | 0x03 | 0x13 => tokenReady s p p.step
  | _ => true

/-- END_TOKEN_ARRIVE (R172). A poisoned token is never acted on: its ticket fails with MEDIA_LOST (R45). -/
def execEndTokenArrive (src dest tag : Nat) (s : State) : Out :=
  match arriving s (fun p => p.src == src && p.dest == dest && p.tag == tag && p.endTok) with
  | none => .next s
  | some p =>
    if pathBarred s p then .next s
    else
      let s := wakePath s p
      if (unitOf s dest).gen ≠ p.destGen then .next (bounce (offTrunk s p) p)
      else match entryOf s tag with
      | none => .next (offTrunk s p)
      | some e =>
        if e.fenced || e.revoking then .next (offTrunk s p)
        else if p.poison then .next (failAt (offTrunk s p) tag p.step dest 0x0F)
        else if !canTake s p || !tokenDue s p then .next s
        else .next (takeToken (offTrunk s p) e p)

/-- REVOKE_TOKEN_ARRIVE (R173). A poisoned one revokes too, and MEDIA_LOST is reported (R45). -/
def execRevokeTokenArrive (src dest tag : Nat) (s : State) : Out :=
  match arriving s (fun p => p.src == src && p.dest == dest && p.tag == tag && p.revoke) with
  | none => .next s
  | some p =>
    if pathBarred s p then .next s
    else
      let s := wakePath s p
      if (unitOf s dest).gen ≠ p.destGen then .next (bounce (offTrunk s p) p)
      else
        let s := offTrunk s p
        .next (revokeAt (if p.poison then report s tag dest 0x0F else s) dest tag p.step)

end Sys2Proof.Machine
end

