-- ==== Sys2Proof/Machine/Dispatch.lean ====
section
/-! DEFINITION. Dispatch: the command to its meaning, one arm for each row of the table. -/

namespace Sys2Proof.Machine

/-- The effect of a command on everything but the queue. -/
def exec (i : Instr) (s : State) : Host.Outcome State Fault Refusal :=
  match i with
  | .registerWrite addr size value => Sys2Proof.Machine.execRegisterWrite addr size value s
  | .readLoLatch addr => Sys2Proof.Machine.execReadLoLatch addr s
  | .unitRoleRead unit => Sys2Proof.Machine.execUnitRoleRead unit s
  | .readClear addr => Sys2Proof.Machine.execReadClear addr s
  | .keySlotStatusRead slot => Sys2Proof.Machine.execKeySlotStatusRead slot s
  | .commitGo addr value => Sys2Proof.Machine.execCommitGo addr value s
  | .commitDiscard addr value => Sys2Proof.Machine.execCommitDiscard addr value s
  | .commitTakesEffect addr => Sys2Proof.Machine.execCommitTakesEffect addr s
  | .packetArrive src dest cls route => Sys2Proof.Machine.execPacketArrive src dest cls route s
  | .flitArrive src dest cls route x y up link flit errors => Sys2Proof.Machine.execFlitArrive src dest cls route x y up link flit errors s
  | .genHeldEventApply unit => Sys2Proof.Machine.execGenHeldEventApply unit s
  | .cfgLoadRequest => Sys2Proof.Machine.execCfgLoadRequest s
  | .loaderFetchHead => Sys2Proof.Machine.execLoaderFetchHead s
  | .loaderHeaderArrived head undelivered => Sys2Proof.Machine.execLoaderHeaderArrived head undelivered s
  | .loaderAuthenticate rest undelivered => Sys2Proof.Machine.execLoaderAuthenticate rest undelivered s
  | .loaderBlockArrived block undelivered => Sys2Proof.Machine.execLoaderBlockArrived block undelivered s
  | .screenComplete netlist => Sys2Proof.Machine.execScreenComplete netlist s
  | .fenApplyStart => Sys2Proof.Machine.execFenApplyStart s
  | .fenDrainTimeout => Sys2Proof.Machine.execFenDrainTimeout s
  | .fenSafePointA => Sys2Proof.Machine.execFenSafePointA s
  | .fenSafePointB => Sys2Proof.Machine.execFenSafePointB s
  | .loaderKeyRevoked => Sys2Proof.Machine.execLoaderKeyRevoked s
  | .structureStreamStored => Sys2Proof.Machine.execStructureStreamStored s
  | .fenOutputBeat fen port tag offset data => Sys2Proof.Machine.execFenOutputBeat fen port tag offset data s
  | .fenLast fen port tag status => Sys2Proof.Machine.execFenLast fen port tag status s
  | .fenCtlwinAccess fen reg via write answer => Sys2Proof.Machine.execFenCtlwinAccess fen reg via write answer s
  | .ctlwinTimeout fen write => Sys2Proof.Machine.execCtlwinTimeout fen write s
  | .fenFencingDone fen => Sys2Proof.Machine.execFenFencingDone fen s
  | .fencingTimeout fen => Sys2Proof.Machine.execFencingTimeout fen s
  | .holdRelease inst => Sys2Proof.Machine.execHoldRelease inst s
  | .fenOverpower fen milliwatts => Sys2Proof.Machine.execFenOverpower fen milliwatts s
  | .fenScrubDone fen => Sys2Proof.Machine.execFenScrubDone fen s
  | .ticketSubmit unit ticket => Sys2Proof.Machine.execTicketSubmit unit ticket s
  | .epochStart env => Sys2Proof.Machine.execEpochStart env s
  | .portionConsider tag => Sys2Proof.Machine.execPortionConsider tag s
  | .deadlineExpire tag => Sys2Proof.Machine.execDeadlineExpire tag s
  | .endTokenArrive src dest tag => Sys2Proof.Machine.execEndTokenArrive src dest tag s
  | .revokeTokenArrive src dest tag => Sys2Proof.Machine.execRevokeTokenArrive src dest tag s
  | .sidingPop inst => Sys2Proof.Machine.execSidingPop inst s
  | .baseMwUpdate eIn eCharge => Sys2Proof.Machine.execBaseMwUpdate eIn eCharge s
  | .domainRetention group => Sys2Proof.Machine.execDomainRetention group s
  | .domainGateOff group => Sys2Proof.Machine.execDomainGateOff group s
  | .domainWake unit failed => Sys2Proof.Machine.execDomainWake unit failed s
  | .operatingPointChange island point mhz => Sys2Proof.Machine.execOperatingPointChange island point mhz s
  | .peatRampElapsed => Sys2Proof.Machine.execPeatRampElapsed s
  | .peatTargetReached mv => Sys2Proof.Machine.execPeatTargetReached mv s
  | .peatOvervoltage mv => Sys2Proof.Machine.execPeatOvervoltage mv s
  | .peatFloorTimeout mv => Sys2Proof.Machine.execPeatFloorTimeout mv s
  | .measRequest => Sys2Proof.Machine.execMeasRequest s
  | .measurementDue => Sys2Proof.Machine.execMeasurementDue s
  | .measurementDone chargeUc fallMv => Sys2Proof.Machine.execMeasurementDone chargeUc fallMv s
  | .measurementTimeout => Sys2Proof.Machine.execMeasurementTimeout s
  | .vin12Low mv => Sys2Proof.Machine.execVin12Low mv s
  | .pwrdisAssert => Sys2Proof.Machine.execPwrdisAssert s
  | .flushDirtyFenceTimeout => Sys2Proof.Machine.execFlushDirtyFenceTimeout s
  | .flushEnd mv => Sys2Proof.Machine.execFlushEnd mv s
  | .inputReturn => Sys2Proof.Machine.execInputReturn s
  | .brownOut => Sys2Proof.Machine.execBrownOut s
  | .sensorSample readings => Sys2Proof.Machine.execSensorSample readings s
  | .flashTrainPassDone channel ok settings => Sys2Proof.Machine.execFlashTrainPassDone channel ok settings s
  | .flashRetrainBegin channel => Sys2Proof.Machine.execFlashRetrainBegin channel s
  | .codewordDecode channel op ok => Sys2Proof.Machine.execCodewordDecode channel op ok s
  | .partialParityTimeout group page => Sys2Proof.Machine.execPartialParityTimeout group page s
  | .programStatus channel pass => Sys2Proof.Machine.execProgramStatus channel pass s
  | .pageSealTimeout channel dense => Sys2Proof.Machine.execPageSealTimeout channel dense s
  | .journalPageProgrammed jseq die => Sys2Proof.Machine.execJournalPageProgrammed jseq die s
  | .checkpointBegin => Sys2Proof.Machine.execCheckpointBegin s
  | .ckptRequest => Sys2Proof.Machine.execCkptRequest s
  | .ckptSecondsExpire => Sys2Proof.Machine.execCkptSecondsExpire s
  | .relocateGroup source failing answer => Sys2Proof.Machine.execRelocateGroup source failing answer s
  | .patrolRead channel group page tier => Sys2Proof.Machine.execPatrolRead channel group page tier s
  | .staticLevelling => Sys2Proof.Machine.execStaticLevelling s
  | .minuteTick => Sys2Proof.Machine.execMinuteTick s
  | .readWriteBack unit => Sys2Proof.Machine.execReadWriteBack unit s
  | .writeThrough unit => Sys2Proof.Machine.execWriteThrough unit s
  | .drain unit => Sys2Proof.Machine.execDrain unit s
  | .deallocate => Sys2Proof.Machine.execDeallocate s
  | .secureDeallocate failing answer => Sys2Proof.Machine.execSecureDeallocate failing answer s
  | .durable => Sys2Proof.Machine.execDurable s
  | .mapWrite => Sys2Proof.Machine.execMapWrite s
  | .read unit => Sys2Proof.Machine.execRead unit s
  | .writeSluice channel => Sys2Proof.Machine.execWriteSluice channel s
  | .writeDense channel => Sys2Proof.Machine.execWriteDense channel s
  | .readRaw unit raw => Sys2Proof.Machine.execReadRaw unit raw s
  | .parityEngineStep unit member => Sys2Proof.Machine.execParityEngineStep unit member s
  | .slotCompress unit verified => Sys2Proof.Machine.execSlotCompress unit verified s
  | .slotDecompress unit first second => Sys2Proof.Machine.execSlotDecompress unit first second s
  | .streamCompress unit verified => Sys2Proof.Machine.execStreamCompress unit verified s
  | .streamDecompress unit first second => Sys2Proof.Machine.execStreamDecompress unit first second s
  | .xtsEnc unit mismatch => Sys2Proof.Machine.execXtsEnc unit mismatch s
  | .xtsDec unit mismatch => Sys2Proof.Machine.execXtsDec unit mismatch s
  | .gcmEnc unit mismatch => Sys2Proof.Machine.execGcmEnc unit mismatch s
  | .gcmDec unit mismatch => Sys2Proof.Machine.execGcmDec unit mismatch s
  | .gcmHoldRoomFree unit => Sys2Proof.Machine.execGcmHoldRoomFree unit s
  | .pass unit => Sys2Proof.Machine.execPass unit s
  | .sink unit => Sys2Proof.Machine.execSink unit s
  | .search4 unit => Sys2Proof.Machine.execSearch4 unit s
  | .search16 unit => Sys2Proof.Machine.execSearch16 unit s
  | .search64 unit => Sys2Proof.Machine.execSearch64 unit s
  | .update unit => Sys2Proof.Machine.execUpdate unit s
  | .asuHoldRoomFree port => Sys2Proof.Machine.execAsuHoldRoomFree port s
  | .scrubRead bank entry word found copies => Sys2Proof.Machine.execScrubRead bank entry word found copies s
  | .bankCopyDone bank => Sys2Proof.Machine.execBankCopyDone bank s
  | .send unit => Sys2Proof.Machine.execSend unit s
  | .receive unit => Sys2Proof.Machine.execReceive unit s
  | .hostPortFetch unit sgl data => Sys2Proof.Machine.execHostPortFetch unit sgl data s
  | .hostPortWrite unit sgl => Sys2Proof.Machine.execHostPortWrite unit sgl s
  | .dramStation unit raw => Sys2Proof.Machine.execDramStation unit raw s
  | .program unit => Sys2Proof.Machine.execProgram unit s
  | .load unit => Sys2Proof.Machine.execLoad unit s
  | .keyGrant => Sys2Proof.Machine.execKeyGrant s
  | .keyLoad blob => Sys2Proof.Machine.execKeyLoad blob s
  | .keyErase => Sys2Proof.Machine.execKeyErase s
  | .keyWithdraw => Sys2Proof.Machine.execKeyWithdraw s
  | .ctxExport => Sys2Proof.Machine.execCtxExport s
  | .ctxImport record => Sys2Proof.Machine.execCtxImport record s
  | .ctxFree => Sys2Proof.Machine.execCtxFree s
  | .keyUseZero slot => Sys2Proof.Machine.execKeyUseZero slot s
  | .keyFenceTimeout slot => Sys2Proof.Machine.execKeyFenceTimeout slot s
  | .keyFenceComplete slot => Sys2Proof.Machine.execKeyFenceComplete slot s
  | .feedStart engine => Sys2Proof.Machine.execFeedStart engine s
  | .save engine => Sys2Proof.Machine.execSave engine s
  | .restore engine rcd => Sys2Proof.Machine.execRestore engine rcd s
  | .abandon engine => Sys2Proof.Machine.execAbandon engine s
  | .feedW0 engine value => Sys2Proof.Machine.execFeedW0 engine value s
  | .feedW1 engine value => Sys2Proof.Machine.execFeedW1 engine value s
  | .feedLast engine value => Sys2Proof.Machine.execFeedLast engine value s
  | .gNop core pre => Sys2Proof.Machine.execGNop core pre s
  | .gSyscall core pre => Sys2Proof.Machine.execGSyscall core pre s
  | .gBreak core pre => Sys2Proof.Machine.execGBreak core pre s
  | .gRft core pre => Sys2Proof.Machine.execGRft core pre s
  | .gWait core pre => Sys2Proof.Machine.execGWait core pre s
  | .gCrr core pre r crn => Sys2Proof.Machine.execGCrr core pre r crn s
  | .gCrw core pre r crn => Sys2Proof.Machine.execGCrw core pre r crn s
  | .inqPop core d => Sys2Proof.Machine.execInqPop core d s
  | .inqFree core a => Sys2Proof.Machine.execInqFree core a s
  | .emit core a => Sys2Proof.Machine.execEmit core a s
  | .submit core a => Sys2Proof.Machine.execSubmit core a s
  | .timerRaise core => Sys2Proof.Machine.execTimerRaise core s
  | .interrupt core => Sys2Proof.Machine.execInterrupt core s
  | .gAdd core pre d a b => Sys2Proof.Machine.execGAdd core pre d a b s
  | .gSub core pre d a b => Sys2Proof.Machine.execGSub core pre d a b s
  | .gAnd core pre d a b => Sys2Proof.Machine.execGAnd core pre d a b s
  | .gOr core pre d a b => Sys2Proof.Machine.execGOr core pre d a b s
  | .gXor core pre d a b => Sys2Proof.Machine.execGXor core pre d a b s
  | .gShl core pre d a b => Sys2Proof.Machine.execGShl core pre d a b s
  | .gShr core pre d a b => Sys2Proof.Machine.execGShr core pre d a b s
  | .gSar core pre d a b => Sys2Proof.Machine.execGSar core pre d a b s
  | .gMul core pre d a b => Sys2Proof.Machine.execGMul core pre d a b s
  | .gMulh core pre d a b => Sys2Proof.Machine.execGMulh core pre d a b s
  | .gMulhu core pre d a b => Sys2Proof.Machine.execGMulhu core pre d a b s
  | .gDiv core pre d e a b => Sys2Proof.Machine.execGDiv core pre d e a b s
  | .gDivu core pre d e a b => Sys2Proof.Machine.execGDivu core pre d e a b s
  | .gDivn core pre d e a b => Sys2Proof.Machine.execGDivn core pre d e a b s
  | .gNeg core pre d a => Sys2Proof.Machine.execGNeg core pre d a s
  | .gNot core pre d a => Sys2Proof.Machine.execGNot core pre d a s
  | .gClz core pre d a => Sys2Proof.Machine.execGClz core pre d a s
  | .gCtz core pre d a => Sys2Proof.Machine.execGCtz core pre d a s
  | .gPopc core pre d a => Sys2Proof.Machine.execGPopc core pre d a s
  | .gBswap core pre d a => Sys2Proof.Machine.execGBswap core pre d a s
  | .gSeq core pre d a b => Sys2Proof.Machine.execGSeq core pre d a b s
  | .gSne core pre d a b => Sys2Proof.Machine.execGSne core pre d a b s
  | .gSlt core pre d a b => Sys2Proof.Machine.execGSlt core pre d a b s
  | .gSltu core pre d a b => Sys2Proof.Machine.execGSltu core pre d a b s
  | .gSge core pre d a b => Sys2Proof.Machine.execGSge core pre d a b s
  | .gSgeu core pre d a b => Sys2Proof.Machine.execGSgeu core pre d a b s
  | .gAddi core pre d a size imm => Sys2Proof.Machine.execGAddi core pre d a size imm s
  | .gAndi core pre d a size imm => Sys2Proof.Machine.execGAndi core pre d a size imm s
  | .gOri core pre d a size imm => Sys2Proof.Machine.execGOri core pre d a size imm s
  | .gXori core pre d a size imm => Sys2Proof.Machine.execGXori core pre d a size imm s
  | .gShli core pre d a size imm => Sys2Proof.Machine.execGShli core pre d a size imm s
  | .gShri core pre d a size imm => Sys2Proof.Machine.execGShri core pre d a size imm s
  | .gSari core pre d a size imm => Sys2Proof.Machine.execGSari core pre d a size imm s
  | .gMuli core pre d a size imm => Sys2Proof.Machine.execGMuli core pre d a size imm s
  | .gSeqi core pre d a size imm => Sys2Proof.Machine.execGSeqi core pre d a size imm s
  | .gSnei core pre d a size imm => Sys2Proof.Machine.execGSnei core pre d a size imm s
  | .gSlti core pre d a size imm => Sys2Proof.Machine.execGSlti core pre d a size imm s
  | .gSltui core pre d a size imm => Sys2Proof.Machine.execGSltui core pre d a size imm s
  | .gSgei core pre d a size imm => Sys2Proof.Machine.execGSgei core pre d a size imm s
  | .gSgeui core pre d a size imm => Sys2Proof.Machine.execGSgeui core pre d a size imm s
  | .gLi core pre d size imm => Sys2Proof.Machine.execGLi core pre d size imm s
  | .gLdb core pre d b size disp => Sys2Proof.Machine.execGLdb core pre d b size disp s
  | .gLdbu core pre d b size disp => Sys2Proof.Machine.execGLdbu core pre d b size disp s
  | .gLdh core pre d b size disp => Sys2Proof.Machine.execGLdh core pre d b size disp s
  | .gLdhu core pre d b size disp => Sys2Proof.Machine.execGLdhu core pre d b size disp s
  | .gLdw core pre d b size disp => Sys2Proof.Machine.execGLdw core pre d b size disp s
  | .gLdwu core pre d b size disp => Sys2Proof.Machine.execGLdwu core pre d b size disp s
  | .gLdd core pre d b size disp => Sys2Proof.Machine.execGLdd core pre d b size disp s
  | .gStb core pre d b size disp => Sys2Proof.Machine.execGStb core pre d b size disp s
  | .gSth core pre d b size disp => Sys2Proof.Machine.execGSth core pre d b size disp s
  | .gStw core pre d b size disp => Sys2Proof.Machine.execGStw core pre d b size disp s
  | .gStd core pre d b size disp => Sys2Proof.Machine.execGStd core pre d b size disp s
  | .gLdbU core pre d b size disp => Sys2Proof.Machine.execGLdbU core pre d b size disp s
  | .gLdbuU core pre d b size disp => Sys2Proof.Machine.execGLdbuU core pre d b size disp s
  | .gLdhU core pre d b size disp => Sys2Proof.Machine.execGLdhU core pre d b size disp s
  | .gLdhuU core pre d b size disp => Sys2Proof.Machine.execGLdhuU core pre d b size disp s
  | .gLdwU core pre d b size disp => Sys2Proof.Machine.execGLdwU core pre d b size disp s
  | .gLdwuU core pre d b size disp => Sys2Proof.Machine.execGLdwuU core pre d b size disp s
  | .gLddU core pre d b size disp => Sys2Proof.Machine.execGLddU core pre d b size disp s
  | .gStbU core pre d b size disp => Sys2Proof.Machine.execGStbU core pre d b size disp s
  | .gSthU core pre d b size disp => Sys2Proof.Machine.execGSthU core pre d b size disp s
  | .gStwU core pre d b size disp => Sys2Proof.Machine.execGStwU core pre d b size disp s
  | .gStdU core pre d b size disp => Sys2Proof.Machine.execGStdU core pre d b size disp s
  | .gCas core pre d a b => Sys2Proof.Machine.execGCas core pre d a b s
  | .gFenceInstruction core pre => Sys2Proof.Machine.execGFenceInstruction core pre s
  | .gCpx core pre d b size disp => Sys2Proof.Machine.execGCpx core pre d b size disp s
  | .gChk core pre d a b => Sys2Proof.Machine.execGChk core pre d a b s
  | .gChku core pre d a b => Sys2Proof.Machine.execGChku core pre d a b s
  | .gChki core pre a size lo hi => Sys2Proof.Machine.execGChki core pre a size lo hi s
  | .gBc core pre a cc b size disp => Sys2Proof.Machine.execGBc core pre a cc b size disp s
  | .gJal core pre d size disp => Sys2Proof.Machine.execGJal core pre d size disp s
  | .gJalr core pre d a => Sys2Proof.Machine.execGJalr core pre d a s
  | .coreStart core entry => Sys2Proof.Machine.execCoreStart core entry s
  | .coreStop core => Sys2Proof.Machine.execCoreStop core s
  | .coreScrubDone core => Sys2Proof.Machine.execCoreScrubDone core s
  | .coreIdleSlowdown core => Sys2Proof.Machine.execCoreIdleSlowdown core s
  | .dramRefresh channel bank waiting => Sys2Proof.Machine.execDramRefresh channel bank waiting s
  | .dramTempRead channel intervalNs => Sys2Proof.Machine.execDramTempRead channel intervalNs s
  | .dramPatrol channel inst word symbols => Sys2Proof.Machine.execDramPatrol channel inst word symbols s
  | .dramTrainPassDone channel ok settings => Sys2Proof.Machine.execDramTrainPassDone channel ok settings s
  | .dramTrainWindowEnd channel => Sys2Proof.Machine.execDramTrainWindowEnd channel s
  | .sqDoorbell ctrl sq tail entries => Sys2Proof.Machine.execSqDoorbell ctrl sq tail entries s
  | .createIoSq ctrl => Sys2Proof.Machine.execCreateIoSq ctrl s
  | .deleteIoSq ctrl => Sys2Proof.Machine.execDeleteIoSq ctrl s
  | .createIoCq ctrl => Sys2Proof.Machine.execCreateIoCq ctrl s
  | .deleteIoCq ctrl => Sys2Proof.Machine.execDeleteIoCq ctrl s
  | .getLogPage ctrl => Sys2Proof.Machine.execGetLogPage ctrl s
  | .identify ctrl => Sys2Proof.Machine.execIdentify ctrl s
  | .abort ctrl => Sys2Proof.Machine.execAbort ctrl s
  | .setFeatures ctrl data => Sys2Proof.Machine.execSetFeatures ctrl data s
  | .getFeatures ctrl => Sys2Proof.Machine.execGetFeatures ctrl s
  | .asynchronousEventRequest ctrl => Sys2Proof.Machine.execAsynchronousEventRequest ctrl s
  | .namespaceManagement ctrl data => Sys2Proof.Machine.execNamespaceManagement ctrl data s
  | .namespaceAttachment ctrl data => Sys2Proof.Machine.execNamespaceAttachment ctrl data s
  | .firmwareCommit ctrl => Sys2Proof.Machine.execFirmwareCommit ctrl s
  | .firmwareImageDownload ctrl data => Sys2Proof.Machine.execFirmwareImageDownload ctrl data s
  | .deviceSelfTest ctrl => Sys2Proof.Machine.execDeviceSelfTest ctrl s
  | .virtualizationManagement ctrl => Sys2Proof.Machine.execVirtualizationManagement ctrl s
  | .nvmeMiSend ctrl => Sys2Proof.Machine.execNvmeMiSend ctrl s
  | .nvmeMiReceive ctrl => Sys2Proof.Machine.execNvmeMiReceive ctrl s
  | .formatNvm ctrl => Sys2Proof.Machine.execFormatNvm ctrl s
  | .sanitize ctrl => Sys2Proof.Machine.execSanitize ctrl s
  | .invalidCommandOpcode ctrl sq => Sys2Proof.Machine.execInvalidCommandOpcode ctrl sq s
  | .nvmeRead ctrl sq => Sys2Proof.Machine.execNvmeRead ctrl sq s
  | .nvmeWrite ctrl sq => Sys2Proof.Machine.execNvmeWrite ctrl sq s
  | .flush ctrl sq => Sys2Proof.Machine.execFlush ctrl sq s
  | .writeZeroes ctrl sq => Sys2Proof.Machine.execWriteZeroes ctrl sq s
  | .datasetManagement ctrl sq ranges => Sys2Proof.Machine.execDatasetManagement ctrl sq ranges s
  | .zoneAppend ctrl sq => Sys2Proof.Machine.execZoneAppend ctrl sq s
  | .zoneOpen ctrl sq => Sys2Proof.Machine.execZoneOpen ctrl sq s
  | .zoneClose ctrl sq => Sys2Proof.Machine.execZoneClose ctrl sq s
  | .zoneFinish ctrl sq => Sys2Proof.Machine.execZoneFinish ctrl sq s
  | .zoneReset ctrl sq => Sys2Proof.Machine.execZoneReset ctrl sq s
  | .reportZones ctrl sq => Sys2Proof.Machine.execReportZones ctrl sq s
  | .loadProgram ctrl sq unit type offered head => Sys2Proof.Machine.execLoadProgram ctrl sq unit type offered head s
  | .programActivation ctrl sq unit => Sys2Proof.Machine.execProgramActivation ctrl sq unit s
  | .executeProgram ctrl sq ticket => Sys2Proof.Machine.execExecuteProgram ctrl sq ticket s
  | .memoryWrite ctrl sq offset length => Sys2Proof.Machine.execMemoryWrite ctrl sq offset length s
  | .memoryRead ctrl sq offset length => Sys2Proof.Machine.execMemoryRead ctrl sq offset length s
  | .memoryCopy ctrl sq toLocal slba units offset => Sys2Proof.Machine.execMemoryCopy ctrl sq toLocal slba units offset s
  | .functionLevelReset ctrl flr => Sys2Proof.Machine.execFunctionLevelReset ctrl flr s
  | .linkDown port => Sys2Proof.Machine.execLinkDown port s
  | .linkRetrain port lanes rate => Sys2Proof.Machine.execLinkRetrain port lanes rate s
  | .nvmeMiCommand transport op dword0 dword1 admin => Sys2Proof.Machine.execNvmeMiCommand transport op dword0 dword1 admin s
  | .create vfEnabled => Sys2Proof.Machine.execCreate vfEnabled s
  | .destroy => Sys2Proof.Machine.execDestroy s
  | .grantFen => Sys2Proof.Machine.execGrantFen s
  | .withdrawFen => Sys2Proof.Machine.execWithdrawFen s
  | .grantCore => Sys2Proof.Machine.execGrantCore s
  | .withdrawCore => Sys2Proof.Machine.execWithdrawCore s
  | .dedicate => Sys2Proof.Machine.execDedicate s
  | .undedicate => Sys2Proof.Machine.execUndedicate s
  | .withdrawDrainTimeout unit => Sys2Proof.Machine.execWithdrawDrainTimeout unit s
  | .instanceReset inst flr => Sys2Proof.Machine.execInstanceReset inst flr s
  | .logSwitch inst => Sys2Proof.Machine.execLogSwitch inst s
  | .lmemLostPop inst => Sys2Proof.Machine.execLmemLostPop inst s
  | .data wire => Sys2Proof.Machine.execData wire s
  | .ack wire => Sys2Proof.Machine.execAck wire s
  | .outcome wire => Sys2Proof.Machine.execOutcome wire s
  | .heartbeat wire => Sys2Proof.Machine.execHeartbeat wire s
  | .loss wire => Sys2Proof.Machine.execLoss wire s
  | .promoted wire => Sys2Proof.Machine.execPromoted wire s
  | .stalePeer wire => Sys2Proof.Machine.execStalePeer wire s
  | .frameForward wire => Sys2Proof.Machine.execFrameForward wire s
  | .heartbeatTick => Sys2Proof.Machine.execHeartbeatTick s
  | .neighbourTimeout node => Sys2Proof.Machine.execNeighbourTimeout node s
  | .uaserLinkDown port => Sys2Proof.Machine.execUaserLinkDown port s
  | .retransmitTimeout node tenant seq => Sys2Proof.Machine.execRetransmitTimeout node tenant seq s
  | .connectionIdleClose node tenant => Sys2Proof.Machine.execConnectionIdleClose node tenant s
  | .primaryClaimTimeout => Sys2Proof.Machine.execPrimaryClaimTimeout s
  | .fedTableLoad table => Sys2Proof.Machine.execFedTableLoad table s
  | .getVersion fn => Sys2Proof.Machine.execGetVersion fn s
  | .getCapabilities fn => Sys2Proof.Machine.execGetCapabilities fn s
  | .negotiateAlgorithms fn hash asym dhe aead reqAsym => Sys2Proof.Machine.execNegotiateAlgorithms fn hash asym dhe aead reqAsym s
  | .getDigests fn => Sys2Proof.Machine.execGetDigests fn s
  | .getCertificate fn slot offset len => Sys2Proof.Machine.execGetCertificate fn slot offset len s
  | .challenge fn slot transcript => Sys2Proof.Machine.execChallenge fn slot transcript s
  | .getMeasurements fn index sign transcript => Sys2Proof.Machine.execGetMeasurements fn index sign transcript s
  | .keyExchange fn transcript => Sys2Proof.Machine.execKeyExchange fn transcript s
  | .finish fn session reqKey ok th => Sys2Proof.Machine.execFinish fn session reqKey ok th s
  | .spdmHeartbeat fn session => Sys2Proof.Machine.execSpdmHeartbeat fn session s
  | .keyUpdate fn session => Sys2Proof.Machine.execKeyUpdate fn session s
  | .endSession fn session => Sys2Proof.Machine.execEndSession fn session s
  | .unsupportedRequest fn => Sys2Proof.Machine.execUnsupportedRequest fn s
  | .pqChain fn session => Sys2Proof.Machine.execPqChain fn session s
  | .pqQuote fn session transcript => Sys2Proof.Machine.execPqQuote fn session transcript s
  | .bind fn session keys => Sys2Proof.Machine.execBind fn session keys s
  | .regUpdate fn session keyIndex hash version signer keys => Sys2Proof.Machine.execRegUpdate fn session keyIndex hash version signer keys s
  | .release fn session => Sys2Proof.Machine.execRelease fn session s
  | .testOpen fn session => Sys2Proof.Machine.execTestOpen fn session s
  | .testClose fn session => Sys2Proof.Machine.execTestClose fn session s
  | .decommission fn session => Sys2Proof.Machine.execDecommission fn session s
  | .ideKm fn session stream key => Sys2Proof.Machine.execIdeKm fn session stream key s
  | .ideIntegrityFailure port stream => Sys2Proof.Machine.execIdeIntegrityFailure port stream s
  | .tdispMessage fn session inst msg => Sys2Proof.Machine.execTdispMessage fn session inst msg s
  | .measSelect value => Sys2Proof.Machine.execMeasSelect value s
  | .powerOn => Sys2Proof.Machine.execPowerOn s
  | .coldStart env => Sys2Proof.Machine.execColdStart env s
  | .warmStart env => Sys2Proof.Machine.execWarmStart env s
  | .warm => Sys2Proof.Machine.execWarm s
  | .entryCutoff => Sys2Proof.Machine.execEntryCutoff s
  | .watchdogExpire => Sys2Proof.Machine.execWatchdogExpire s
  | .startReady => Sys2Proof.Machine.execStartReady s
  | .perstAssert port => Sys2Proof.Machine.execPerstAssert port s
  | .perstRelease port => Sys2Proof.Machine.execPerstRelease port s
  | .selfOk => Sys2Proof.Machine.execSelfOk s
  | .confirmTimeout => Sys2Proof.Machine.execConfirmTimeout s
  | .stage data undelivered => Sys2Proof.Machine.execStage data undelivered s
  | .updWriteSlot => Sys2Proof.Machine.execUpdWriteSlot s
  | .updWriteActivate => Sys2Proof.Machine.execUpdWriteActivate s
  | .updActivateSlot => Sys2Proof.Machine.execUpdActivateSlot s
  | .activate => Sys2Proof.Machine.execActivate s
  | .confirm => Sys2Proof.Machine.execConfirm s
  | .mirrorPageFlush => Sys2Proof.Machine.execMirrorPageFlush s
  | .suppressed => Sys2Proof.Machine.execSuppressed s
  | .evrRead => Sys2Proof.Machine.execEvrRead s
  | .evrClear => Sys2Proof.Machine.execEvrClear s
  | .unitTestRequest => Sys2Proof.Machine.execUnitTestRequest s
  | .rotate => Sys2Proof.Machine.execRotate s
  | .testDrainTimeout unit => Sys2Proof.Machine.execTestDrainTimeout unit s
  | .unitTestDone unit result => Sys2Proof.Machine.execUnitTestDone unit result s
  | .sramSymbol => Sys2Proof.Machine.execSramSymbol s
  | .trunkSymbol => Sys2Proof.Machine.execTrunkSymbol s
  | .dramSymbol => Sys2Proof.Machine.execDramSymbol s
  | .flashBits => Sys2Proof.Machine.execFlashBits s
  | .flashFail => Sys2Proof.Machine.execFlashFail s
  | .causewayDelay => Sys2Proof.Machine.execCausewayDelay s
  | .backpressure => Sys2Proof.Machine.execBackpressure s
  | .clock => Sys2Proof.Machine.execClock s
  | .injectionWindowEnd kind target => Sys2Proof.Machine.execInjectionWindowEnd kind target s
  | .stop => Sys2Proof.Machine.execStop s
  | .smbusTimeout => Sys2Proof.Machine.execSmbusTimeout s
  | .eraseStatus channel die block pass => Sys2Proof.Machine.execEraseStatus channel die block pass s
  | .undefinedEncoding core bytes => Sys2Proof.Machine.execUndefinedEncoding core bytes s
  | .uaserLinkUp port cr1 => Sys2Proof.Machine.execUaserLinkUp port cr1 s
  | .testPortInstruction ir => Sys2Proof.Machine.execTestPortInstruction ir s

end Sys2Proof.Machine
end

