-- ==== Sys2Proof/Machine/Tick.lean ====
section
/-! DEFINITION. What one tick of the model's clock does on an empty queue (log 1): one microsecond passes, and what the blocks
do of themselves without a command of their own goes on. -/

namespace Sys2Proof.Machine

/-- The clock advances, and running cores count core cycles at the frequency of their island (R471). -/
def tickClock (s : State) : State := countCycles { s with now := s.now + 1 }

/-- Cores: a waiting core whose condition holds runs again (R480); the port interfaces take the emit queues (R485). -/
def tickCores (s : State) : State := drainEmits (wakeCores s)

/-- Host commands that wait for a ticket store entry form their tickets (log 43); set-up requests, the junction and the test
controller go on (log 47). -/
def tickQueues (s : State) : State := tstSettle (fedSettle (tenSettle (pumpCmds s)))

/-- One microsecond: the clock, the banks' slots (R448), the cores and the queues. -/
def tick (s : State) : State :=
  let s := tickClock s
  if s.boot.off then s else tickQueues (tickCores (openWindows (passSlots s)))

end Sys2Proof.Machine
end

