-- ==== Sys2Proof/WellFormed.lean ====
section
/-! DEFINITION. WellFormed: the ranges that the spec gives the numbers in a command. A meaning does not rest on them: a
command whose numbers name nothing finds nothing to act on. -/

namespace Sys2Proof

/-- Unit numbers (R18). -/
def Wf.unit (n : Nat) : Bool := decide (n < 218)
/-- Goley cores and the two spares (R494). -/
def Wf.core (n : Nat) : Bool := decide (n < 50)
/-- NVMe controllers: two physical functions, then those of instances 1 to 511 (R560). -/
def Wf.ctrl (n : Nat) : Bool := decide (n < 513)
/-- Instances (R19). -/
def Wf.inst (n : Nat) : Bool := decide (n < 512)
/-- Fens by unit − 32 (R134). -/
def Wf.fen (n : Nat) : Bool := decide (n < 40)
/-- Digest engines (R431). -/
def Wf.engine (n : Nat) : Bool := decide (n < 8)
/-- Tickets' tags (R147). -/
def Wf.tag (n : Nat) : Bool := decide (n < 65536)
/-- Flash channels (R264). -/
def Wf.flash (n : Nat) : Bool := decide (n < 32)
/-- DRAM channels (R553). -/
def Wf.dram (n : Nat) : Bool := decide (n < 4)
/-- Key slots (R408). -/
def Wf.keySlot (n : Nat) : Bool := decide (n < 4096)
/-- Certificate slots of SPDM (R658). -/
def Wf.spdmSlot (n : Nat) : Bool := decide (n < 8)
/-- Functions that speak SPDM: a controller, or MCTP (R658). -/
def Wf.fn (n : Nat) : Bool := decide (n < 513) || n == 0xFFFF
/-- Ports of a fen (R105). -/
def Wf.fenPort (n : Nat) : Bool := decide (n < 6)
/-- Host ports (R557). -/
def Wf.hostPort (n : Nat) : Bool := decide (n < 2)
/-- Uaser ports and search ports (R616, R467). -/
def Wf.uaserPort (n : Nat) : Bool := decide (n < 4)
/-- Search banks and their entries (R436). -/
def Wf.bank (n : Nat) : Bool := decide (n < 64)
/-- Entries of a search bank (R436). -/
def Wf.bankEntry (n : Nat) : Bool := decide (n < 8192)
/-- Widths of an access: a byte to a double word. -/
def Wf.access (n : Nat) : Bool := n == 1 || n == 2 || n == 4 || n == 8
/-- Register addresses. -/
def Wf.addr (n : Nat) : Bool := decide (n < 2 ^ 32)
/-- Links of a router: 1 N, 2 E, 3 S, 4 W (R741). -/
def Wf.link (n : Nat) : Bool := decide (1 ≤ n) && decide (n ≤ 4)
/-- Island keys (R202). -/
def Wf.island (n : Nat) : Bool := decide (n < 0xF0)
/-- The two dies of a journal page (R302). -/
def Wf.pairDie (n : Nat) : Bool := decide (n < 2)
/-- Registers of a control window (R111). -/
def Wf.ctlReg (n : Nat) : Bool := decide (n < 1024)
/-- Nodes of a federation (R18). -/
def Wf.node (n : Nat) : Bool := decide (n < 65536)
/-- Submission queues (R564). -/
def Wf.queue (n : Nat) : Bool := decide (n < 65536)
/-- Entries of a key registry (R663). -/
def Wf.keyIndex (n : Nat) : Bool := decide (n < 8)
/-- Route orders (R38). -/
def Wf.route (n : Nat) : Bool := decide (n < 2)
/-- IDE streams of a port (R669). -/
def Wf.stream (n : Nat) : Bool := decide (n < 4)
/-- An immediate or displacement of a Goley instruction: a size code of its format, and a value that it holds (R507). -/
def Wf.imm (least most : Nat) (z : Fin 8) (v : BitVec 64) : Bool :=
  decide (least ≤ z.val) && decide (z.val ≤ most) && gImmFits z.val v

/-- The numbers of a command stand in their ranges. -/
def Instr.wf : Instr → Bool
  | .registerWrite addr size _ => Wf.addr addr.place && Wf.access size
  | .readLoLatch addr => Wf.addr addr.place
  | .unitRoleRead unit => Wf.unit unit
  | .readClear addr => Wf.addr addr.place
  | .keySlotStatusRead slot => Wf.keySlot slot
  | .commitGo addr _ => Wf.addr addr.place
  | .commitDiscard addr _ => Wf.addr addr.place
  | .commitTakesEffect addr => Wf.addr addr
  | .packetArrive src dest _ route => Wf.unit src && Wf.unit dest && Wf.route route
  | .flitArrive src dest _ route _ _ up link _ _ => Wf.unit src && Wf.unit dest && Wf.route route && Wf.unit up && Wf.link link
  | .genHeldEventApply unit => Wf.unit unit
  | .cfgLoadRequest => true
  | .loaderFetchHead => true
  | .loaderHeaderArrived _ _ => true
  | .loaderAuthenticate _ _ => true
  | .loaderBlockArrived _ _ => true
  | .screenComplete _ => true
  | .fenApplyStart => true
  | .fenDrainTimeout => true
  | .fenSafePointA => true
  | .fenSafePointB => true
  | .loaderKeyRevoked => true
  | .structureStreamStored => true
  | .fenOutputBeat fen port tag _ _ => Wf.fen fen && Wf.fenPort port && Wf.tag tag
  | .fenLast fen port tag _ => Wf.fen fen && Wf.fenPort port && Wf.tag tag
  | .fenCtlwinAccess fen reg _ _ _ => Wf.fen fen && Wf.ctlReg reg.place
  | .ctlwinTimeout fen _ => Wf.fen fen
  | .fenFencingDone fen => Wf.fen fen
  | .fencingTimeout fen => Wf.fen fen
  | .holdRelease inst => Wf.inst inst
  | .fenOverpower fen _ => Wf.fen fen
  | .fenScrubDone fen => Wf.fen fen
  | .ticketSubmit unit _ => Wf.unit unit
  | .epochStart _ => true
  | .portionConsider tag => Wf.tag tag
  | .deadlineExpire tag => Wf.tag tag
  | .endTokenArrive src dest tag => Wf.unit src && Wf.unit dest && Wf.tag tag
  | .revokeTokenArrive src dest tag => Wf.unit src && Wf.unit dest && Wf.tag tag
  | .sidingPop inst => Wf.inst inst
  | .baseMwUpdate _ _ => true
  | .domainRetention _ => true
  | .domainGateOff _ => true
  | .domainWake unit _ => Wf.unit unit
  | .operatingPointChange island _ _ => Wf.island island
  | .peatRampElapsed => true
  | .peatTargetReached _ => true
  | .peatOvervoltage _ => true
  | .peatFloorTimeout _ => true
  | .measRequest => true
  | .measurementDue => true
  | .measurementDone _ _ => true
  | .measurementTimeout => true
  | .vin12Low _ => true
  | .pwrdisAssert => true
  | .flushDirtyFenceTimeout => true
  | .flushEnd _ => true
  | .inputReturn => true
  | .brownOut => true
  | .sensorSample _ => true
  | .flashTrainPassDone channel _ _ => Wf.flash channel
  | .flashRetrainBegin channel => Wf.flash channel
  | .codewordDecode channel _ _ => Wf.flash channel
  | .partialParityTimeout _ _ => true
  | .programStatus channel _ => Wf.flash channel
  | .pageSealTimeout channel _ => Wf.flash channel
  | .journalPageProgrammed _ die => Wf.pairDie die
  | .checkpointBegin => true
  | .ckptRequest => true
  | .ckptSecondsExpire => true
  | .relocateGroup _ _ _ => true
  | .patrolRead channel _ _ _ => Wf.flash channel
  | .staticLevelling => true
  | .minuteTick => true
  | .readWriteBack unit => Wf.unit unit
  | .writeThrough unit => Wf.unit unit
  | .drain unit => Wf.unit unit
  | .deallocate => true
  | .secureDeallocate _ _ => true
  | .durable => true
  | .mapWrite => true
  | .read unit => Wf.unit unit
  | .writeSluice channel => Wf.flash channel
  | .writeDense channel => Wf.flash channel
  | .readRaw unit _ => Wf.unit unit
  | .parityEngineStep unit _ => Wf.unit unit
  | .slotCompress unit _ => Wf.unit unit
  | .slotDecompress unit _ _ => Wf.unit unit
  | .streamCompress unit _ => Wf.unit unit
  | .streamDecompress unit _ _ => Wf.unit unit
  | .xtsEnc unit _ => Wf.unit unit
  | .xtsDec unit _ => Wf.unit unit
  | .gcmEnc unit _ => Wf.unit unit
  | .gcmDec unit _ => Wf.unit unit
  | .gcmHoldRoomFree unit => Wf.unit unit
  | .pass unit => Wf.unit unit
  | .sink unit => Wf.unit unit
  | .search4 unit => Wf.unit unit.unit
  | .search16 unit => Wf.unit unit.unit
  | .search64 unit => Wf.unit unit.unit
  | .update unit => Wf.unit unit
  | .asuHoldRoomFree port => Wf.uaserPort port
  | .scrubRead bank entry _ _ _ => Wf.bank bank && Wf.bankEntry entry
  | .bankCopyDone bank => Wf.bank bank
  | .send unit => Wf.unit unit
  | .receive unit => Wf.unit unit
  | .hostPortFetch unit _ _ => Wf.unit unit
  | .hostPortWrite unit _ => Wf.unit unit
  | .dramStation unit _ => Wf.unit unit
  | .program unit => Wf.unit unit
  | .load unit => Wf.unit unit
  | .keyGrant => true
  | .keyLoad _ => true
  | .keyErase => true
  | .keyWithdraw => true
  | .ctxExport => true
  | .ctxImport _ => true
  | .ctxFree => true
  | .keyUseZero slot => Wf.keySlot slot
  | .keyFenceTimeout slot => Wf.keySlot slot
  | .keyFenceComplete slot => Wf.keySlot slot
  | .feedStart engine => Wf.engine engine
  | .save engine => Wf.engine engine
  | .restore engine _ => Wf.engine engine
  | .abandon engine => Wf.engine engine
  | .feedW0 engine _ => Wf.engine engine
  | .feedW1 engine _ => Wf.engine engine
  | .feedLast engine _ => Wf.engine engine
  | .gNop core _ => Wf.core core
  | .gSyscall core _ => Wf.core core
  | .gBreak core _ => Wf.core core
  | .gRft core _ => Wf.core core
  | .gWait core _ => Wf.core core
  | .gCrr core _ _ _ => Wf.core core
  | .gCrw core _ _ _ => Wf.core core
  | .inqPop core _ => Wf.core core
  | .inqFree core _ => Wf.core core
  | .emit core _ => Wf.core core
  | .submit core _ => Wf.core core
  | .timerRaise core => Wf.core core
  | .interrupt core => Wf.core core
  | .gAdd core _ _ _ _ => Wf.core core
  | .gSub core _ _ _ _ => Wf.core core
  | .gAnd core _ _ _ _ => Wf.core core
  | .gOr core _ _ _ _ => Wf.core core
  | .gXor core _ _ _ _ => Wf.core core
  | .gShl core _ _ _ _ => Wf.core core
  | .gShr core _ _ _ _ => Wf.core core
  | .gSar core _ _ _ _ => Wf.core core
  | .gMul core _ _ _ _ => Wf.core core
  | .gMulh core _ _ _ _ => Wf.core core
  | .gMulhu core _ _ _ _ => Wf.core core
  | .gDiv core _ _ _ _ _ => Wf.core core
  | .gDivu core _ _ _ _ _ => Wf.core core
  | .gDivn core _ _ _ _ _ => Wf.core core
  | .gNeg core _ _ _ => Wf.core core
  | .gNot core _ _ _ => Wf.core core
  | .gClz core _ _ _ => Wf.core core
  | .gCtz core _ _ _ => Wf.core core
  | .gPopc core _ _ _ => Wf.core core
  | .gBswap core _ _ _ => Wf.core core
  | .gSeq core _ _ _ _ => Wf.core core
  | .gSne core _ _ _ _ => Wf.core core
  | .gSlt core _ _ _ _ => Wf.core core
  | .gSltu core _ _ _ _ => Wf.core core
  | .gSge core _ _ _ _ => Wf.core core
  | .gSgeu core _ _ _ _ => Wf.core core
  | .gAddi core _ _ _ size imm => Wf.core core && Wf.imm 0 4 size imm
  | .gAndi core _ _ _ size imm => Wf.core core && Wf.imm 0 4 size imm
  | .gOri core _ _ _ size imm => Wf.core core && Wf.imm 0 4 size imm
  | .gXori core _ _ _ size imm => Wf.core core && Wf.imm 0 4 size imm
  | .gShli core _ _ _ size imm => Wf.core core && Wf.imm 0 4 size imm
  | .gShri core _ _ _ size imm => Wf.core core && Wf.imm 0 4 size imm
  | .gSari core _ _ _ size imm => Wf.core core && Wf.imm 0 4 size imm
  | .gMuli core _ _ _ size imm => Wf.core core && Wf.imm 0 4 size imm
  | .gSeqi core _ _ _ size imm => Wf.core core && Wf.imm 0 4 size imm
  | .gSnei core _ _ _ size imm => Wf.core core && Wf.imm 0 4 size imm
  | .gSlti core _ _ _ size imm => Wf.core core && Wf.imm 0 4 size imm
  | .gSltui core _ _ _ size imm => Wf.core core && Wf.imm 0 4 size imm
  | .gSgei core _ _ _ size imm => Wf.core core && Wf.imm 0 4 size imm
  | .gSgeui core _ _ _ size imm => Wf.core core && Wf.imm 0 4 size imm
  | .gLi core _ _ size imm => Wf.core core && Wf.imm 0 4 size imm
  | .gLdb core _ _ _ size disp => Wf.core core && Wf.imm 0 4 size disp
  | .gLdbu core _ _ _ size disp => Wf.core core && Wf.imm 0 4 size disp
  | .gLdh core _ _ _ size disp => Wf.core core && Wf.imm 0 4 size disp
  | .gLdhu core _ _ _ size disp => Wf.core core && Wf.imm 0 4 size disp
  | .gLdw core _ _ _ size disp => Wf.core core && Wf.imm 0 4 size disp
  | .gLdwu core _ _ _ size disp => Wf.core core && Wf.imm 0 4 size disp
  | .gLdd core _ _ _ size disp => Wf.core core && Wf.imm 0 4 size disp
  | .gStb core _ _ _ size disp => Wf.core core && Wf.imm 0 4 size disp
  | .gSth core _ _ _ size disp => Wf.core core && Wf.imm 0 4 size disp
  | .gStw core _ _ _ size disp => Wf.core core && Wf.imm 0 4 size disp
  | .gStd core _ _ _ size disp => Wf.core core && Wf.imm 0 4 size disp
  | .gLdbU core _ _ _ size disp => Wf.core core && Wf.imm 0 4 size disp
  | .gLdbuU core _ _ _ size disp => Wf.core core && Wf.imm 0 4 size disp
  | .gLdhU core _ _ _ size disp => Wf.core core && Wf.imm 0 4 size disp
  | .gLdhuU core _ _ _ size disp => Wf.core core && Wf.imm 0 4 size disp
  | .gLdwU core _ _ _ size disp => Wf.core core && Wf.imm 0 4 size disp
  | .gLdwuU core _ _ _ size disp => Wf.core core && Wf.imm 0 4 size disp
  | .gLddU core _ _ _ size disp => Wf.core core && Wf.imm 0 4 size disp
  | .gStbU core _ _ _ size disp => Wf.core core && Wf.imm 0 4 size disp
  | .gSthU core _ _ _ size disp => Wf.core core && Wf.imm 0 4 size disp
  | .gStwU core _ _ _ size disp => Wf.core core && Wf.imm 0 4 size disp
  | .gStdU core _ _ _ size disp => Wf.core core && Wf.imm 0 4 size disp
  | .gCas core _ _ _ _ => Wf.core core
  | .gFenceInstruction core _ => Wf.core core
  | .gCpx core _ _ _ size disp => Wf.core core && Wf.imm 0 4 size disp
  | .gChk core _ _ _ _ => Wf.core core
  | .gChku core _ _ _ _ => Wf.core core
  | .gChki core _ _ size lo hi => Wf.core core && Wf.imm 0 3 size lo && Wf.imm 0 3 size hi
  | .gBc core _ _ cc _ size disp => Wf.core core && Wf.imm 1 3 size disp && decide (cc.val ≤ 5)
  | .gJal core _ _ size disp => Wf.core core && Wf.imm 1 3 size disp
  | .gJalr core _ _ _ => Wf.core core
  | .coreStart core _ => Wf.core core
  | .coreStop core => Wf.core core
  | .coreScrubDone core => Wf.core core
  | .coreIdleSlowdown core => Wf.core core
  | .dramRefresh channel _ _ => Wf.dram channel
  | .dramTempRead channel _ => Wf.dram channel
  | .dramPatrol channel inst _ _ => Wf.dram channel && Wf.inst inst
  | .dramTrainPassDone channel _ _ => Wf.dram channel
  | .dramTrainWindowEnd channel => Wf.dram channel
  | .sqDoorbell ctrl sq _ _ => Wf.ctrl ctrl.place && Wf.queue sq
  | .createIoSq ctrl => Wf.ctrl ctrl
  | .deleteIoSq ctrl => Wf.ctrl ctrl
  | .createIoCq ctrl => Wf.ctrl ctrl
  | .deleteIoCq ctrl => Wf.ctrl ctrl
  | .getLogPage ctrl => Wf.ctrl ctrl
  | .identify ctrl => Wf.ctrl ctrl
  | .abort ctrl => Wf.ctrl ctrl
  | .setFeatures ctrl _ => Wf.ctrl ctrl
  | .getFeatures ctrl => Wf.ctrl ctrl
  | .asynchronousEventRequest ctrl => Wf.ctrl ctrl
  | .namespaceManagement ctrl _ => Wf.ctrl ctrl
  | .namespaceAttachment ctrl _ => Wf.ctrl ctrl
  | .firmwareCommit ctrl => Wf.ctrl ctrl
  | .firmwareImageDownload ctrl _ => Wf.ctrl ctrl
  | .deviceSelfTest ctrl => Wf.ctrl ctrl
  | .virtualizationManagement ctrl => Wf.ctrl ctrl
  | .nvmeMiSend ctrl => Wf.ctrl ctrl
  | .nvmeMiReceive ctrl => Wf.ctrl ctrl
  | .formatNvm ctrl => Wf.ctrl ctrl
  | .sanitize ctrl => Wf.ctrl ctrl
  | .invalidCommandOpcode ctrl sq => Wf.ctrl ctrl && Wf.queue sq
  | .nvmeRead ctrl sq => Wf.ctrl ctrl && Wf.queue sq
  | .nvmeWrite ctrl sq => Wf.ctrl ctrl && Wf.queue sq
  | .flush ctrl sq => Wf.ctrl ctrl && Wf.queue sq
  | .writeZeroes ctrl sq => Wf.ctrl ctrl && Wf.queue sq
  | .datasetManagement ctrl sq _ => Wf.ctrl ctrl && Wf.queue sq
  | .zoneAppend ctrl sq => Wf.ctrl ctrl && Wf.queue sq
  | .zoneOpen ctrl sq => Wf.ctrl ctrl && Wf.queue sq
  | .zoneClose ctrl sq => Wf.ctrl ctrl && Wf.queue sq
  | .zoneFinish ctrl sq => Wf.ctrl ctrl && Wf.queue sq
  | .zoneReset ctrl sq => Wf.ctrl ctrl && Wf.queue sq
  | .reportZones ctrl sq => Wf.ctrl ctrl && Wf.queue sq
  | .loadProgram ctrl sq unit _ _ _ => Wf.ctrl ctrl && Wf.queue sq && Wf.unit unit
  | .programActivation ctrl sq unit => Wf.ctrl ctrl && Wf.queue sq && Wf.unit unit
  | .executeProgram ctrl sq _ => Wf.ctrl ctrl && Wf.queue sq
  | .memoryWrite ctrl sq _ _ => Wf.ctrl ctrl && Wf.queue sq
  | .memoryRead ctrl sq _ _ => Wf.ctrl ctrl && Wf.queue sq
  | .memoryCopy ctrl sq _ _ _ _ => Wf.ctrl ctrl && Wf.queue sq
  | .functionLevelReset ctrl _ => Wf.ctrl ctrl
  | .linkDown port => Wf.hostPort port
  | .linkRetrain port _ _ => Wf.hostPort port
  | .nvmeMiCommand _ _ _ _ _ => true
  | .create _ => true
  | .destroy => true
  | .grantFen => true
  | .withdrawFen => true
  | .grantCore => true
  | .withdrawCore => true
  | .dedicate => true
  | .undedicate => true
  | .withdrawDrainTimeout unit => Wf.unit unit
  | .instanceReset inst _ => Wf.inst inst
  | .logSwitch inst => Wf.inst inst
  | .lmemLostPop inst => Wf.inst inst.place
  | .data _ => true
  | .ack _ => true
  | .outcome _ => true
  | .heartbeat _ => true
  | .loss _ => true
  | .promoted _ => true
  | .stalePeer _ => true
  | .frameForward _ => true
  | .heartbeatTick => true
  | .neighbourTimeout node => Wf.node node
  | .uaserLinkDown port => Wf.uaserPort port
  | .retransmitTimeout node _ _ => Wf.node node
  | .connectionIdleClose node _ => Wf.node node
  | .primaryClaimTimeout => true
  | .fedTableLoad _ => true
  | .getVersion fn => Wf.fn fn
  | .getCapabilities fn => Wf.fn fn
  | .negotiateAlgorithms fn _ _ _ _ _ => Wf.fn fn
  | .getDigests fn => Wf.fn fn
  | .getCertificate fn slot _ _ => Wf.fn fn && Wf.spdmSlot slot
  | .challenge fn slot _ => Wf.fn fn && Wf.spdmSlot slot
  | .getMeasurements fn _ _ _ => Wf.fn fn
  | .keyExchange fn _ => Wf.fn fn
  | .finish fn _ _ _ _ => Wf.fn fn
  | .spdmHeartbeat fn _ => Wf.fn fn
  | .keyUpdate fn _ => Wf.fn fn
  | .endSession fn _ => Wf.fn fn
  | .unsupportedRequest fn => Wf.fn fn
  | .pqChain fn _ => Wf.fn fn
  | .pqQuote fn _ _ => Wf.fn fn
  | .bind fn _ _ => Wf.fn fn
  | .regUpdate fn _ keyIndex _ _ _ _ => Wf.fn fn && Wf.keyIndex keyIndex
  | .release fn _ => Wf.fn fn
  | .testOpen fn _ => Wf.fn fn
  | .testClose fn _ => Wf.fn fn
  | .decommission fn _ => Wf.fn fn
  | .ideKm fn _ stream _ => Wf.fn fn && Wf.stream stream
  | .ideIntegrityFailure port stream => Wf.hostPort port && Wf.stream stream
  | .tdispMessage fn _ inst _ => Wf.fn fn && Wf.inst inst
  | .measSelect _ => true
  | .powerOn => true
  | .coldStart _ => true
  | .warmStart _ => true
  | .warm => true
  | .entryCutoff => true
  | .watchdogExpire => true
  | .startReady => true
  | .perstAssert port => Wf.hostPort port
  | .perstRelease port => Wf.hostPort port
  | .selfOk => true
  | .confirmTimeout => true
  | .stage _ _ => true
  | .updWriteSlot => true
  | .updWriteActivate => true
  | .updActivateSlot => true
  | .activate => true
  | .confirm => true
  | .mirrorPageFlush => true
  | .suppressed => true
  | .evrRead => true
  | .evrClear => true
  | .unitTestRequest => true
  | .rotate => true
  | .testDrainTimeout unit => Wf.unit unit
  | .unitTestDone unit _ => Wf.unit unit
  | .sramSymbol => true
  | .trunkSymbol => true
  | .dramSymbol => true
  | .flashBits => true
  | .flashFail => true
  | .causewayDelay => true
  | .backpressure => true
  | .clock => true
  | .injectionWindowEnd _ _ => true
  | .stop => true
  | .smbusTimeout => true
  | .eraseStatus channel _ _ _ => Wf.flash channel
  | .undefinedEncoding core _ => Wf.core core
  | .uaserLinkUp port _ => Wf.uaserPort port
  | .testPortInstruction _ => true

end Sys2Proof
end

