-- ==== Sys2Proof/Safety.lean ====
section
/-! DEFINITION. What counts as a safe run, and the terms in which claims are stated: the outcomes of a step, the canonical
forms of memory, what a Goley core does around an instruction, and work that stands at the front of a station's queue. -/

namespace Sys2Proof.Machine

/-! ## Outcomes -/

/-- The step answers a next state with `p`. -/
def Nexts (o : Out) (p : State → Prop) : Prop := ∃ t, o = .next t ∧ p t

/-- The same as a Bool, for tests. -/
def nextsB (o : Out) (p : State → Bool) : Bool :=
  match o with
  | .next t => p t
  | _ => false

/-- A safe run of `n` steps: every step answers a next state. -/
def safeRun : Nat → State → Prop
  | 0, _ => True
  | n + 1, s => Nexts (step s) (safeRun n)

/-! ## Memory -/

/-- Every byte memory of the machine stands in its canonical form: keys strictly rising, no zero byte listed. -/
def memsWf (s : State) : Bool :=
  memWf s.dram && Tab.sorted s.lmem && s.lmem.all (fun p => memWf p.2) && s.cores.all (fun p => memWf p.2.mem)

/-! ## Registers (R6-R16) -/

/-- The address `a` names the element (i, j) of register row `r`, which answers and is no COMMIT register, control window
or register of an NVMe controller. -/
abbrev plainReg (s : State) (a : Nat) (r : RegRow) (i j : Nat) : Prop :=
  nvmeReg a = none ∧ a % 4 = 0 ∧ a < 2 ^ 29 ∧ regAnswers s a = true ∧ windowAt s a = none ∧ isCommit a = false ∧
    findReg a = some (r, i, j)

/-- The COMMIT register at `c` answers. -/
abbrev commitReg (s : State) (c : Nat) : Prop :=
  isCommit c = true ∧ c % 4 = 0 ∧ regAnswers s c = true ∧ windowAt s c = none

/-- Nothing but the stored registers has changed. -/
def onlyRegs (s t : State) : Prop := { t with regs := s.regs } = s

/-! ## Goley cores (R508–R530) -/

/-- Iterations that an instruction still has: 1 without REP, otherwise what is left of the count latched from g29 (R529). -/
def rounds (s : State) (c : Nat) (i : GIns) : Nat :=
  if i.pre.rep then (coreOf s c).rep.getD ((coreOf s c).g 29).toNat else 1

/-- Core `c` is RUNNING, no check of R508 steps 1 to 7 refuses `i`, and an iteration is left. -/
abbrev issues (s : State) (c : Nat) (i : GIns) : Prop :=
  (coreOf s c).state = .running ∧ issueTrap s c i none = none ∧ rounds s c i ≠ 0

/-- `s'` holds the writes of one iteration of `i`, which then retires on core `c` (`retire`, `settle`). -/
def retired (s : State) (c : Nat) (i : GIns) (s' : State) : State :=
  settle (setCore s' c (retire (coreOf s' c) (gLen i) (rounds s c i - 1))) c

/-- The trap that an instruction's own effect raises on core `c` (R478, R530). -/
def trapped (s : State) (c : Nat) (i : GIns) (t : Trap) : State :=
  settle (trapNow s c t (if i.pre.rep then some (rounds s c i) else none)) c

/-- A result of the operation width: sign-extended from bit 31 under W32 (R515). -/
def byWidth (p : GPre) (v32 : BitVec 32) (v64 : BitVec 64) : DWord := if p.w32 then v32.signExtend 64 else v64

/-- The two-source operations of R514 in bit-vector arithmetic of 64 bits and, under W32, of 32 bits. -/
def aluResult (op : Nat) (p : GPre) (x y : DWord) : DWord :=
  let x' := x.setWidth 32
  let y' := y.setWidth 32
  match op with
  | 0x10 => byWidth p (x' + y') (x + y)
  | 0x11 => byWidth p (x' - y') (x - y)
  | 0x12 => byWidth p (x' &&& y') (x &&& y)
  | 0x13 => byWidth p (x' ||| y') (x ||| y)
  | 0x14 => byWidth p (x' ^^^ y') (x ^^^ y)
  | 0x15 => byWidth p (x' <<< y.toNat) (x <<< y.toNat)
  | 0x16 => byWidth p (x' >>> y.toNat) (x >>> y.toNat)
  | 0x17 => byWidth p (x'.sshiftRight y.toNat) (x.sshiftRight y.toNat)
  | 0x18 => byWidth p (x' * y') (x * y)
  | 0x19 => byWidth p (((x'.signExtend 64 * y'.signExtend 64) >>> 32).setWidth 32)
      (((x.signExtend 128 * y.signExtend 128) >>> 64).setWidth 64)
  | _ => byWidth p (((x'.setWidth 64 * y'.setWidth 64) >>> 32).setWidth 32)
      (((x.setWidth 128 * y.setWidth 128) >>> 64).setWidth 64)

/-- The conditions of R518 in bit-vector comparisons: 0 SEQ, 1 SNE, 2 SLT, 3 SLTU, 4 SGE, 5 SGEU. -/
def setHolds (n : Nat) (p : GPre) (x y : DWord) : Bool :=
  let x' := x.setWidth 32
  let y' := y.setWidth 32
  match n with
  | 0 => if p.w32 then x' == y' else x == y
  | 1 => if p.w32 then x' != y' else x != y
  | 2 => if p.w32 then x'.slt y' else x.slt y
  | 3 => if p.w32 then x'.ult y' else x.ult y
  | 4 => if p.w32 then y'.sle x' else y.sle x
  | _ => if p.w32 then y'.ule x' else y.ule x

/-- 1 when the condition holds and 0 otherwise (R518). -/
def setResult (n : Nat) (p : GPre) (x y : DWord) : DWord := if setHolds n p x y then 1 else 0

/-- What a load writes (R520): the bytes read, sign-extended for LDB, LDH and LDW, zero-extended otherwise. -/
def loadedValue (op v : Nat) : DWord :=
  match op with
  | 0x60 | 0x70 => (BitVec.ofNat 8 v).signExtend 64
  | 0x61 | 0x71 => (BitVec.ofNat 8 v).setWidth 64
  | 0x62 | 0x72 => (BitVec.ofNat 16 v).signExtend 64
  | 0x63 | 0x73 => (BitVec.ofNat 16 v).setWidth 64
  | 0x64 | 0x74 => (BitVec.ofNat 32 v).signExtend 64
  | 0x65 | 0x75 => (BitVec.ofNat 32 v).setWidth 64
  | _ => BitVec.ofNat 64 v

/-- Bytes of an access by its opcode (R520). -/
def accessBytes (op : Nat) : Nat :=
  match op with
  | 0x60 | 0x61 | 0x68 | 0x70 | 0x71 | 0x78 => 1
  | 0x62 | 0x63 | 0x69 | 0x72 | 0x73 | 0x79 => 2
  | 0x64 | 0x65 | 0x6A | 0x74 | 0x75 | 0x7A => 4
  | _ => 8

/-! ## Stations, the trunk and the loader -/

/-- A data packet of a running ticket stands at the front of unit `u`'s queue, at step `st` of its line; `rest` waits
behind it. -/
abbrev packetWaits (s : State) (u : Nat) (p : Packet) (e : Entry) (st : LStep) (rest : List Work) : Prop :=
  inboxOf s u = .pkt p :: rest ∧ p.endTok = false ∧ entryOf s p.tag = some e ∧ e.fenced = false ∧ e.revoking = false ∧
    (stepsOf s e)[p.step]? = some st

/-- The same for a portion that starts at its first station. -/
abbrev startWaits (s : State) (u tag j first len : Nat) (e : Entry) (st : LStep) (rest : List Work) : Prop :=
  inboxOf s u = .start tag j first len :: rest ∧ entryOf s tag = some e ∧ e.fenced = false ∧ e.revoking = false ∧
    (stepsOf s e)[j]? = some st

/-- The packet that unit `u` sends of ticket `tag` from step `step` to unit `d`. -/
def sentTo (s : State) (e : Entry) (tag step u d off : Nat) (data : Bytes) (station : Nat) (prov : Bool) : Packet := {
  dest := d, destGen := Tab.getD e.captured d 0, src := u, inst := e.t.inst, route := routeOf s u d,
  prov := prov, flits := ceilDiv data.length 32, tag := tag, off := off, station := station, data := data,
  step := step + 1 }

/-- The QUARANTINE entry of a packet whose DEST_GEN is not the unit's GEN (R32, R177). -/
def staleEntry (s : State) (p : Packet) (e : Entry) (unit : Nat) : Siding := {
  inst := p.inst, disp := 1, status := 0x0B, unit := unit, src := p.src, tag := p.tag, destGen := p.destGen,
  cookie := e.t.cookie, time := opTime s }

/-- The ticket's entry has failed with `status`, set by `unit`, unless it had failed before, and it is being revoked. -/
def failedWith (t : State) (e : Entry) (tag status unit : Nat) : Prop :=
  ∃ e', entryOf t tag = some e' ∧ e'.revoking = true ∧ e'.fail = (if e.fail.isNone then some (status, unit) else e.fail)

/-- Packet `q` is the first that the step puts on the trunk. -/
def sends (s t : State) (q : Packet) : Prop := ∃ l, t.dev.trunk = s.dev.trunk ++ q :: l

/-- A ticket of the device itself that nothing has failed, fenced or ended. -/
abbrev cleanTicket (s : State) (e : Entry) : Prop :=
  e.sub = .device ∧ e.fail = none ∧ e.warn = none ∧ e.instReset = false ∧ e.keyRevoked = false ∧ s.sbx.flushMode = false

/-- The ticket has left the store, and its completion carries `status` and `out`. -/
def endedWith (s t : State) (tag status out : Nat) : Prop :=
  entryOf t tag = none ∧ ∃ x, t.sbx.posted = s.sbx.posted ++ [x] ∧ x.tag = tag ∧ x.status = status ∧ x.outLen = out

/-! ## NVMe commands -/

/-- Entry `e` at index `idx` stands at the front of submission queue `q` of controller `c`, which is served. -/
abbrev cmdWaits (s : State) (c q idx : Nat) (e : Bytes) (rest : List (Nat × Bytes)) : Prop :=
  (sqOf s c q).fetched = (idx, e) :: rest ∧ ctrlRuns s c = true ∧ Tab.getD s.tru.tdi (ctrlInst c) .unlocked ≠ .error

/-- The command that entry `e` is. -/
def cmdRec (c q idx : Nat) (e : Bytes) : NCmd := {
  ctrl := c, sq := q, cid := leAt e 2 2, op := eOp e, admin := q == 0, nsid := eDw e 1, entry := e, index := idx }

/-- Where the next completion of submission queue `q` is written. -/
def cqeAt (s : State) (c q : Nat) : Nat :=
  let k := Tab.getD (ctrlOf s c).cqs (sqOf s c q).cq {}
  k.base + 16 * k.tail

/-- The completion entry of command `e` stands in host memory: its status, Dwords 0 and 1, and the queue's phase. -/
def completed (s t : State) (c q idx : Nat) (e : Bytes) (st dw0 dw1 : Nat) : Prop :=
  memRead (Tab.getD t.host (hostKey (ctrlPort s c) (ctrlInst c)) []) (cqeAt s c q) 16 =
    cqeBytes dw0 dw1 ((idx + 1) % max 1 (sqOf s c q).size) q (leAt e 2 2)
      (Tab.getD (ctrlOf s c).cqs (sqOf s c q).cq {}).phase st

/-- The data of command `e` (PRP, one page) stands in host memory, where the completion entry does not overlap it. -/
def dataGiven (s t : State) (c : Nat) (e : Bytes) (bs : Bytes) : Prop :=
  ePsdt e = 0 → leAt e 24 8 % 4096 = 0 → bs.length ≤ 4096 →
    (cqeAt s c 0 + 16 ≤ leAt e 24 8 ∨ leAt e 24 8 + 4096 ≤ cqeAt s c 0) →
    memRead (Tab.getD t.host (hostKey (ctrlPort s c) (ctrlInst c)) []) (leAt e 24 8) bs.length = bs

/-- Controller `c` may make ticket `tk` now, under tag `tag`. -/
abbrev mayMake (s : State) (c tag : Nat) (tk : Ticket) : Prop :=
  entryFree s (ctrlInst c) = some tag ∧ lineDefined s tk.line = true ∧ notReady s tk.line = false ∧
    acceptance s (ticketBytes tk) true = none ∧ (parseTicket (ticketBytes tk)).inst = ctrlInst c

/-- The ticket waits in the store for command `e`, which waits for it. -/
def ticketMade (t : State) (c q tag : Nat) (e : Bytes) (tk : Ticket) : Prop :=
  (∃ x, entryOf t tag = some x ∧ x.t = parseTicket (ticketBytes tk) ∧ x.sub = .nvme c q (leAt e 2 2) ∧
    x.waiting = true ∧ x.admitted = 0) ∧ (cmdOf t c q (leAt e 2 2)).isSome = true

/-! ## The loader and the cores -/

/-- The loader works on a request of instance 0 made through its registers, in state `st`, which nothing has disturbed. -/
abbrev loaderAt (s : State) (st : LState) (r : LoadReq) : Prop :=
  s.cfg.cur = some r ∧ s.cfg.state = st ∧ s.cfg.regionLost = false ∧ abandoned s = false ∧ s.cfg.keyLost = false ∧
    r.tag = none ∧ r.inst = 0 ∧
    r.sub = .device

/-- Everything of the machine but core `c` is as before. -/
def onlyCore (s t : State) (c : Nat) : Prop :=
  { t with cores := s.cores } = s ∧ ∀ c', c' ≠ c → coreOf t c' = coreOf s c'

end Sys2Proof.Machine
end

