-- ==== Sys2Proof/Certificates/Slice0/Obligations.lean ====
section
/-! DEFINITION. The statements for the provers: what the numbered rules of the spec say the device does, family by family. -/

open Sys2Proof
open Sys2Proof.Machine

/-- R514, R515: the register forms, division apart. `aluResult` gives the results in bit-vector arithmetic. -/
def Obligations.GoleyArithmeticWritesTheSpecsResult : Prop :=
  ∀ (s : State) (c : Nat) (p : GPre) (d a b : Fin 32),
    let x := (coreOf s c).g a.val
    let y := (coreOf s c).g b.val
    (issues s c ⟨p, 0x10, .g3 d a b⟩ → exec (.gAdd c p d a b) s =
      .next (retired s c ⟨p, 0x10, .g3 d a b⟩ (putG s c d (aluResult 0x10 p x y)))) ∧
    (issues s c ⟨p, 0x11, .g3 d a b⟩ → exec (.gSub c p d a b) s =
      .next (retired s c ⟨p, 0x11, .g3 d a b⟩ (putG s c d (aluResult 0x11 p x y)))) ∧
    (issues s c ⟨p, 0x12, .g3 d a b⟩ → exec (.gAnd c p d a b) s =
      .next (retired s c ⟨p, 0x12, .g3 d a b⟩ (putG s c d (aluResult 0x12 p x y)))) ∧
    (issues s c ⟨p, 0x13, .g3 d a b⟩ → exec (.gOr c p d a b) s =
      .next (retired s c ⟨p, 0x13, .g3 d a b⟩ (putG s c d (aluResult 0x13 p x y)))) ∧
    (issues s c ⟨p, 0x14, .g3 d a b⟩ → exec (.gXor c p d a b) s =
      .next (retired s c ⟨p, 0x14, .g3 d a b⟩ (putG s c d (aluResult 0x14 p x y)))) ∧
    (issues s c ⟨p, 0x15, .g3 d a b⟩ → exec (.gShl c p d a b) s =
      .next (retired s c ⟨p, 0x15, .g3 d a b⟩ (putG s c d (aluResult 0x15 p x y)))) ∧
    (issues s c ⟨p, 0x16, .g3 d a b⟩ → exec (.gShr c p d a b) s =
      .next (retired s c ⟨p, 0x16, .g3 d a b⟩ (putG s c d (aluResult 0x16 p x y)))) ∧
    (issues s c ⟨p, 0x17, .g3 d a b⟩ → exec (.gSar c p d a b) s =
      .next (retired s c ⟨p, 0x17, .g3 d a b⟩ (putG s c d (aluResult 0x17 p x y)))) ∧
    (issues s c ⟨p, 0x18, .g3 d a b⟩ → exec (.gMul c p d a b) s =
      .next (retired s c ⟨p, 0x18, .g3 d a b⟩ (putG s c d (aluResult 0x18 p x y)))) ∧
    (issues s c ⟨p, 0x19, .g3 d a b⟩ → exec (.gMulh c p d a b) s =
      .next (retired s c ⟨p, 0x19, .g3 d a b⟩ (putG s c d (aluResult 0x19 p x y)))) ∧
    (issues s c ⟨p, 0x1A, .g3 d a b⟩ → exec (.gMulhu c p d a b) s =
      .next (retired s c ⟨p, 0x1A, .g3 d a b⟩ (putG s c d (aluResult 0x1A p x y)))) ∧
    (issues s c ⟨p, 0x1E, .g2 d a⟩ → exec (.gNeg c p d a) s =
      .next (retired s c ⟨p, 0x1E, .g2 d a⟩ (putG s c d (byWidth p (-x.setWidth 32) (-x))))) ∧
    (issues s c ⟨p, 0x1F, .g2 d a⟩ → exec (.gNot c p d a) s =
      .next (retired s c ⟨p, 0x1F, .g2 d a⟩ (putG s c d (byWidth p (~~~x.setWidth 32) (~~~x))))) ∧
    (issues s c ⟨p, 0xE001, .g2 d a⟩ → exec (.gClz c p d a) s =
      .next (retired s c ⟨p, 0xE001, .g2 d a⟩ (putG s c d (byWidth p (x.setWidth 32).clz x.clz)))) ∧
    (issues s c ⟨p, 0xE002, .g2 d a⟩ → exec (.gCtz c p d a) s =
      .next (retired s c ⟨p, 0xE002, .g2 d a⟩ (putG s c d (byWidth p (x.setWidth 32).ctz x.ctz)))) ∧
    (issues s c ⟨p, 0xE003, .g2 d a⟩ → exec (.gPopc c p d a) s =
      .next (retired s c ⟨p, 0xE003, .g2 d a⟩ (putG s c d (byWidth p (x.setWidth 32).cpop x.cpop)))) ∧
    (issues s c ⟨p, 0xE004, .g2 d a⟩ → exec (.gBswap c p d a) s =
      .next (retired s c ⟨p, 0xE004, .g2 d a⟩ (putG s c d (byWidth p
        (x.extractLsb' 0 8 ++ x.extractLsb' 8 8 ++ x.extractLsb' 16 8 ++ x.extractLsb' 24 8)
        (x.extractLsb' 0 8 ++ x.extractLsb' 8 8 ++ x.extractLsb' 16 8 ++ x.extractLsb' 24 8 ++ x.extractLsb' 32 8 ++
          x.extractLsb' 40 8 ++ x.extractLsb' 48 8 ++ x.extractLsb' 56 8)))))

/-- R515, R516: division in the operation width, with its edges. -/
def Obligations.GoleyDivisionFollowsItsEdges : Prop :=
  ∀ (s : State) (c : Nat) (p : GPre) (d e a b : Fin 32),
    let x := (coreOf s c).g a.val
    let y := (coreOf s c).g b.val
    let zero : Bool := if p.w32 then y.setWidth 32 == 0 else y == 0
    let done := fun (op : Nat) (q r : DWord) => retired s c ⟨p, op, .g4 d e a b⟩ (putG (putG s c d q) c e r)
    let sq := byWidth p ((x.setWidth 32).sdiv (y.setWidth 32)) (x.sdiv y)
    let sr := byWidth p ((x.setWidth 32).srem (y.setWidth 32)) (x.srem y)
    (issues s c ⟨p, 0x1B, .g4 d e a b⟩ → exec (.gDiv c p d e a b) s =
      .next (if zero then trapped s c ⟨p, 0x1B, .g4 d e a b⟩ { code := 0x06 } else done 0x1B sq sr)) ∧
    (issues s c ⟨p, 0x1C, .g4 d e a b⟩ → exec (.gDivu c p d e a b) s =
      .next (if zero then trapped s c ⟨p, 0x1C, .g4 d e a b⟩ { code := 0x06 }
        else done 0x1C (byWidth p (x.setWidth 32 / y.setWidth 32) (x / y))
          (byWidth p (x.setWidth 32 % y.setWidth 32) (x % y)))) ∧
    (issues s c ⟨p, 0x1D, .g4 d e a b⟩ → exec (.gDivn c p d e a b) s =
      .next (if zero then done 0x1D (-1) (byWidth p (x.setWidth 32) x) else done 0x1D sq sr))

/-- R518, R519 (with R515): set-on-compare and immediate forms. -/
def Obligations.GoleyComparesAndImmediatesWriteTheSpecsResult : Prop :=
  ∀ (s : State) (c : Nat) (p : GPre) (d a b : Fin 32) (z : Fin 8) (v : DWord),
    let x := (coreOf s c).g a.val
    let y := (coreOf s c).g b.val
    (issues s c ⟨p, 0x30, .g3 d a b⟩ → exec (.gSeq c p d a b) s =
      .next (retired s c ⟨p, 0x30, .g3 d a b⟩ (putG s c d (setResult 0 p x y)))) ∧
    (issues s c ⟨p, 0x31, .g3 d a b⟩ → exec (.gSne c p d a b) s =
      .next (retired s c ⟨p, 0x31, .g3 d a b⟩ (putG s c d (setResult 1 p x y)))) ∧
    (issues s c ⟨p, 0x32, .g3 d a b⟩ → exec (.gSlt c p d a b) s =
      .next (retired s c ⟨p, 0x32, .g3 d a b⟩ (putG s c d (setResult 2 p x y)))) ∧
    (issues s c ⟨p, 0x33, .g3 d a b⟩ → exec (.gSltu c p d a b) s =
      .next (retired s c ⟨p, 0x33, .g3 d a b⟩ (putG s c d (setResult 3 p x y)))) ∧
    (issues s c ⟨p, 0x34, .g3 d a b⟩ → exec (.gSge c p d a b) s =
      .next (retired s c ⟨p, 0x34, .g3 d a b⟩ (putG s c d (setResult 4 p x y)))) ∧
    (issues s c ⟨p, 0x35, .g3 d a b⟩ → exec (.gSgeu c p d a b) s =
      .next (retired s c ⟨p, 0x35, .g3 d a b⟩ (putG s c d (setResult 5 p x y)))) ∧
    (issues s c ⟨p, 0x48, .gi d a z v⟩ → exec (.gSeqi c p d a z v) s =
      .next (retired s c ⟨p, 0x48, .gi d a z v⟩ (putG s c d (setResult 0 p x v)))) ∧
    (issues s c ⟨p, 0x49, .gi d a z v⟩ → exec (.gSnei c p d a z v) s =
      .next (retired s c ⟨p, 0x49, .gi d a z v⟩ (putG s c d (setResult 1 p x v)))) ∧
    (issues s c ⟨p, 0x4A, .gi d a z v⟩ → exec (.gSlti c p d a z v) s =
      .next (retired s c ⟨p, 0x4A, .gi d a z v⟩ (putG s c d (setResult 2 p x v)))) ∧
    (issues s c ⟨p, 0x4B, .gi d a z v⟩ → exec (.gSltui c p d a z v) s =
      .next (retired s c ⟨p, 0x4B, .gi d a z v⟩ (putG s c d (setResult 3 p x v)))) ∧
    (issues s c ⟨p, 0x4C, .gi d a z v⟩ → exec (.gSgei c p d a z v) s =
      .next (retired s c ⟨p, 0x4C, .gi d a z v⟩ (putG s c d (setResult 4 p x v)))) ∧
    (issues s c ⟨p, 0x4D, .gi d a z v⟩ → exec (.gSgeui c p d a z v) s =
      .next (retired s c ⟨p, 0x4D, .gi d a z v⟩ (putG s c d (setResult 5 p x v)))) ∧
    (issues s c ⟨p, 0x40, .gi d a z v⟩ → exec (.gAddi c p d a z v) s =
      .next (retired s c ⟨p, 0x40, .gi d a z v⟩ (putG s c d (aluResult 0x10 p x v)))) ∧
    (issues s c ⟨p, 0x41, .gi d a z v⟩ → exec (.gAndi c p d a z v) s =
      .next (retired s c ⟨p, 0x41, .gi d a z v⟩ (putG s c d (aluResult 0x12 p x v)))) ∧
    (issues s c ⟨p, 0x42, .gi d a z v⟩ → exec (.gOri c p d a z v) s =
      .next (retired s c ⟨p, 0x42, .gi d a z v⟩ (putG s c d (aluResult 0x13 p x v)))) ∧
    (issues s c ⟨p, 0x43, .gi d a z v⟩ → exec (.gXori c p d a z v) s =
      .next (retired s c ⟨p, 0x43, .gi d a z v⟩ (putG s c d (aluResult 0x14 p x v)))) ∧
    (issues s c ⟨p, 0x44, .gi d a z v⟩ → exec (.gShli c p d a z v) s =
      .next (retired s c ⟨p, 0x44, .gi d a z v⟩ (putG s c d (aluResult 0x15 p x v)))) ∧
    (issues s c ⟨p, 0x45, .gi d a z v⟩ → exec (.gShri c p d a z v) s =
      .next (retired s c ⟨p, 0x45, .gi d a z v⟩ (putG s c d (aluResult 0x16 p x v)))) ∧
    (issues s c ⟨p, 0x46, .gi d a z v⟩ → exec (.gSari c p d a z v) s =
      .next (retired s c ⟨p, 0x46, .gi d a z v⟩ (putG s c d (aluResult 0x17 p x v)))) ∧
    (issues s c ⟨p, 0x47, .gi d a z v⟩ → exec (.gMuli c p d a z v) s =
      .next (retired s c ⟨p, 0x47, .gi d a z v⟩ (putG s c d (aluResult 0x18 p x v)))) ∧
    (issues s c ⟨p, 0x4E, .i d z v⟩ → exec (.gLi c p d z v) s =
      .next (retired s c ⟨p, 0x4E, .i d z v⟩ (putG s c d (byWidth p (v.setWidth 32) v))))

/-- R520, R521: loads and their update forms, with every prefix. -/
def Obligations.GoleyLoadsWriteWhatMemoryHolds : Prop :=
  ∀ (s : State) (c : Nat) (p : GPre) (d b : Fin 32) (z : Fin 8) (v : DWord),
    let ea := effAddr (coreOf s c) p ((coreOf s c).g b.val) v
    let loads := fun (op : Nat) => issues s c ⟨p, op, .m d b z v⟩ ∧ dataTrap s c 28 ea.toNat (accessBytes op) = none
    let loaded := fun (op : Nat) =>
      putG (coreLoad s c ea.toNat (accessBytes op)).2 c d (loadedValue op (coreLoad s c ea.toNat
        (accessBytes op)).1)
    (loads 0x60 → exec (.gLdb c p d b z v) s =
      .next (retired s c ⟨p, 0x60, .m d b z v⟩ (loaded 0x60))) ∧
    (loads 0x70 → exec (.gLdbU c p d b z v) s =
      .next (retired s c ⟨p, 0x70, .m d b z v⟩ (putG (loaded 0x70) c b ea))) ∧
    (loads 0x61 → exec (.gLdbu c p d b z v) s =
      .next (retired s c ⟨p, 0x61, .m d b z v⟩ (loaded 0x61))) ∧
    (loads 0x71 → exec (.gLdbuU c p d b z v) s =
      .next (retired s c ⟨p, 0x71, .m d b z v⟩ (putG (loaded 0x71) c b ea))) ∧
    (loads 0x62 → exec (.gLdh c p d b z v) s =
      .next (retired s c ⟨p, 0x62, .m d b z v⟩ (loaded 0x62))) ∧
    (loads 0x72 → exec (.gLdhU c p d b z v) s =
      .next (retired s c ⟨p, 0x72, .m d b z v⟩ (putG (loaded 0x72) c b ea))) ∧
    (loads 0x63 → exec (.gLdhu c p d b z v) s =
      .next (retired s c ⟨p, 0x63, .m d b z v⟩ (loaded 0x63))) ∧
    (loads 0x73 → exec (.gLdhuU c p d b z v) s =
      .next (retired s c ⟨p, 0x73, .m d b z v⟩ (putG (loaded 0x73) c b ea))) ∧
    (loads 0x64 → exec (.gLdw c p d b z v) s =
      .next (retired s c ⟨p, 0x64, .m d b z v⟩ (loaded 0x64))) ∧
    (loads 0x74 → exec (.gLdwU c p d b z v) s =
      .next (retired s c ⟨p, 0x74, .m d b z v⟩ (putG (loaded 0x74) c b ea))) ∧
    (loads 0x65 → exec (.gLdwu c p d b z v) s =
      .next (retired s c ⟨p, 0x65, .m d b z v⟩ (loaded 0x65))) ∧
    (loads 0x75 → exec (.gLdwuU c p d b z v) s =
      .next (retired s c ⟨p, 0x75, .m d b z v⟩ (putG (loaded 0x75) c b ea))) ∧
    (loads 0x66 → exec (.gLdd c p d b z v) s =
      .next (retired s c ⟨p, 0x66, .m d b z v⟩ (loaded 0x66))) ∧
    (loads 0x76 → exec (.gLddU c p d b z v) s =
      .next (retired s c ⟨p, 0x76, .m d b z v⟩ (putG (loaded 0x76) c b ea)))

/-- R520, R521: stores and their update forms, with every prefix. -/
def Obligations.GoleyStoresPutTheOldRegisterAtEa : Prop :=
  ∀ (s : State) (c : Nat) (p : GPre) (r b : Fin 32) (z : Fin 8) (v : DWord),
    let ea := effAddr (coreOf s c) p ((coreOf s c).g b.val) v
    let stores := fun (op : Nat) => issues s c ⟨p, op, .m r b z v⟩ ∧
      dataTrap s c 29 ea.toNat (accessBytes op) = none
    let stored := fun (op : Nat) => coreStore s c ea.toNat (accessBytes op) ((coreOf s c).g r.val).toNat
    (stores 0x68 → exec (.gStb c p r b z v) s = .next (retired s c ⟨p, 0x68, .m r b z v⟩ (stored 0x68))) ∧
    (stores 0x78 → exec (.gStbU c p r b z v) s =
      .next (retired s c ⟨p, 0x78, .m r b z v⟩ (putG (stored 0x78) c b ea))) ∧
    (stores 0x69 → exec (.gSth c p r b z v) s = .next (retired s c ⟨p, 0x69, .m r b z v⟩ (stored 0x69))) ∧
    (stores 0x79 → exec (.gSthU c p r b z v) s =
      .next (retired s c ⟨p, 0x79, .m r b z v⟩ (putG (stored 0x79) c b ea))) ∧
    (stores 0x6A → exec (.gStw c p r b z v) s = .next (retired s c ⟨p, 0x6A, .m r b z v⟩ (stored 0x6A))) ∧
    (stores 0x7A → exec (.gStwU c p r b z v) s =
      .next (retired s c ⟨p, 0x7A, .m r b z v⟩ (putG (stored 0x7A) c b ea))) ∧
    (stores 0x6B → exec (.gStd c p r b z v) s = .next (retired s c ⟨p, 0x6B, .m r b z v⟩ (stored 0x6B))) ∧
    (stores 0x7B → exec (.gStdU c p r b z v) s =
      .next (retired s c ⟨p, 0x7B, .m r b z v⟩ (putG (stored 0x7B) c b ea)))

/-- R472, R520: what a data access of a core reads and writes, byte by byte; the frame of every store. -/
def Obligations.CoreAccessesReachOneMemoryAndNoOtherByte : Prop :=
  ∀ (s : State) (c a n v : Nat),
    let o := (unitOf s (coreUnit s c)).owner
    let m := fun (t : State) (i : Nat) => Tab.getD t.lmem i []
    let t := coreStore s c a n v
    (a + n ≤ 0x80000 → 0 < n →
      ((∀ w, Tab.getD (coreOf s c).marks w 0 = 0) →
        coreLoad s c a n = (leNat (memRead (coreOf s c).mem a n), s)) ∧
      memRead (coreOf t c).mem a n = natLe n v ∧
      (∀ x, x < a ∨ a + n ≤ x → memByte (coreOf t c).mem x = memByte (coreOf s c).mem x) ∧
      (∀ c', c' ≠ c → (coreOf t c').mem = (coreOf s c').mem) ∧ t.lmem = s.lmem ∧ t.dram = s.dram) ∧
    (regionOf s c a = 2 →
      ((∀ p, pageGone s o p = false) → (∀ w, Tab.getD s.drc.marks (lword o w) 0 = 0) →
        (coreOf s c).flit ≠ .altered →
        (coreLoad s c a n).1 = leNat (memRead (m s o) (a - 0x1000000000) n) ∧
        (coreLoad s c a n).2.lmem = s.lmem ∧ (coreLoad s c a n).2.cores = s.cores ∧
          (coreLoad s c a n).2.dram = s.dram) ∧
      memRead (m t o) (a - 0x1000000000) n = natLe n v ∧
      (∀ x, x < a - 0x1000000000 ∨ a - 0x1000000000 + n ≤ x → memByte (m t o) x = memByte (m s o) x) ∧
      (∀ i, i ≠ o → m t i = m s i) ∧ t.cores = s.cores ∧ t.dram = s.dram) ∧
    (∀ i b, regionOf s c a = 4 → dramHome s (a - 0x4000000000) = some (i, b) →
      ((∀ p, pageGone s i p = false) → (∀ w, Tab.getD s.drc.marks (lword i w) 0 = 0) →
        (coreOf s c).flit ≠ .altered →
        (coreLoad s c a n).1 = leNat (memRead (m s i) b n) ∧ (coreLoad s c a n).2.lmem = s.lmem ∧
          (coreLoad s c a n).2.cores = s.cores ∧ (coreLoad s c a n).2.dram = s.dram) ∧
      memRead (m t i) b n = natLe n v ∧
      (∀ x, x < b ∨ b + n ≤ x → memByte (m t i) x = memByte (m s i) x) ∧
      (∀ j, j ≠ i → m t j = m s j) ∧ t.cores = s.cores ∧ t.dram = s.dram) ∧
    (regionOf s c a = 4 → dramHome s (a - 0x4000000000) = none →
      ((coreOf s c).flit ≠ .altered → coreLoad s c a n = (leNat (memRead s.dram (a - 0x4000000000) n), s)) ∧
      memRead t.dram (a - 0x4000000000) n = natLe n v ∧
      (∀ x, x < a - 0x4000000000 ∨ a - 0x4000000000 + n ≤ x → memByte t.dram x = memByte s.dram x) ∧
      t.cores = s.cores ∧ t.lmem = s.lmem)

/-- R520, R522 (R523 as the model has it: log 21, log 62): CAS, CPX and FENCE. -/
def Obligations.GoleyCasCpxAndFenceActAsR522 : Prop :=
  ∀ (s : State) (c : Nat) (p : GPre) (d a b : Fin 32) (z : Fin 8) (v : DWord),
    let k := coreOf s c
    let at8 := (k.g b.val).toNat
    let old := (coreLoad s c at8 8).1
    let s1 := (coreLoad s c at8 8).2
    let ea := effAddr k p (k.g b.val) v
    let src := k.g d.val
    (issues s c ⟨p, 0xE010, .g3 d a b⟩ → dataTrap s c 28 at8 8 = none → dataTrap s c 29 at8 8 = none →
      exec (.gCas c p d a b) s = .next (retired s c ⟨p, 0xE010, .g3 d a b⟩
        (putG (if old = ((coreOf s1 c).g d.val).toNat then coreStore s1 c at8 8
          ((coreOf s1 c).g a.val).toNat else s1)
          c d (BitVec.ofNat 64 old)))) ∧
    (issues s c ⟨p, 0xE011, .n⟩ → exec (.gFenceInstruction c p) s = .next (retired s c ⟨p, 0xE011, .n⟩ s)) ∧
    (issues s c ⟨p, 0xE012, .m d b z v⟩ → dataTrap s c 28 src.toNat 8 = none → dataTrap s c 29 ea.toNat 8 = none →
      exec (.gCpx c p d b z v) s = .next (retired s c ⟨p, 0xE012, .m d b z v⟩
        (putG (putG (coreStore (coreLoad s c src.toNat 8).2 c ea.toNat 8 (coreLoad s c src.toNat 8).1) c d
          (src + 8))
          c b ea)))

/-- R524: bounds checks. R525, R526: branches; the delay slot itself is in `RetirementStepsThePc`. -/
def Obligations.GoleyChecksAndBranchesAct : Prop :=
  ∀ (s : State) (c : Nat) (p : GPre) (x a b : Fin 32) (z : Fin 8) (lo hi v : DWord) (cc : Fin 8),
    let k := coreOf s c
    let chk := fun (i : GIns) (ok : Bool) =>
      if ok then retired s c i s else trapped s c i { code := 0x04, eaddr := 0 }
    let br := fun (i : GIns) (target : Option DWord) (link : Option Nat) =>
      setCore (retired s c i s) c { coreOf (retired s c i s) c with
        delay := some { branch := k.pc, target := target, link := link } }
    let holds : Bool := match cc.val with
      | 0 => k.g a.val == k.g b.val
      | 1 => k.g a.val != k.g b.val
      | 2 => (k.g a.val).slt (k.g b.val)
      | 3 => (k.g b.val).sle (k.g a.val)
      | 4 => (k.g a.val).ult (k.g b.val)
      | _ => (k.g b.val).ule (k.g a.val)
    (issues s c ⟨p, 0x80, .g3 x a b⟩ → exec (.gChk c p x a b) s = .next (chk ⟨p, 0x80, .g3 x a b⟩
      (setHolds 4 p (k.g x.val) (k.g a.val) && setHolds 4 p (k.g b.val) (k.g x.val)))) ∧
    (issues s c ⟨p, 0x81, .g3 x a b⟩ → exec (.gChku c p x a b) s = .next (chk ⟨p, 0x81, .g3 x a b⟩
      (setHolds 5 p (k.g x.val) (k.g a.val) && setHolds 5 p (k.g b.val) (k.g x.val)))) ∧
    (issues s c ⟨p, 0x82, .k x z lo hi⟩ → exec (.gChki c p x z lo hi) s = .next (chk ⟨p, 0x82, .k x z lo hi⟩
      (setHolds 4 p (k.g x.val) lo && setHolds 4 p hi (k.g x.val)))) ∧
    (issues s c ⟨p, 0x90, .b a cc b z v⟩ → exec (.gBc c p a cc b z v) s =
      .next (br ⟨p, 0x90, .b a cc b z v⟩ (if holds then some (k.pc + v) else none) none)) ∧
    (issues s c ⟨p, 0x91, .j x z v⟩ → exec (.gJal c p x z v) s =
      .next (br ⟨p, 0x91, .j x z v⟩ (some (k.pc + v)) (some x.val))) ∧
    (issues s c ⟨p, 0x92, .g2 x a⟩ → exec (.gJalr c p x a) s =
      .next (br ⟨p, 0x92, .g2 x a⟩ (some (k.g a.val)) (some x.val)))

/-- R526, R530: `retire` on every core. -/
def Obligations.RetirementStepsThePc : Prop :=
  ∀ (k : Core) (len left : Nat),
    (left ≠ 0 → (retire k len left).pc = k.pc ∧ (retire k len left).rep = some left ∧
      (∀ r, (retire k len left).g r = k.g r) ∧ (retire k len left).delay = k.delay) ∧
    (left = 0 → (retire k len left).rep = none ∧ (retire k len left).delay = none ∧
      (retire k len left).mem = k.mem ∧ (retire k len left).ctrl = k.ctrl) ∧
    (left = 0 → k.delay = none → (retire k len left).pc = k.pc + BitVec.ofNat 64 len ∧
      ∀ r, (retire k len left).g r = k.g r) ∧
    (∀ b, left = 0 → k.delay = some b →
      (retire k len left).pc = b.target.getD (k.pc + BitVec.ofNat 64 len) ∧
      (∀ r, b.link = some r → r ≠ 0 → (retire k len left).g r = k.pc + BitVec.ofNat 64 len) ∧
      (∀ r, b.link ≠ some r ∨ r = 0 → (retire k len left).g r = k.g r))

/-- R478 (R510 RFT): taking a trap and returning from one. -/
def Obligations.TakingATrapSavesWhatR478Says : Prop :=
  ∀ (s : State) (c : Nat) (t : Trap) (epc : DWord) (ds : Bool) (rep : Option Nat),
    c < 50 → t.code < 256 →
    ((coreOf s c).cr 0x01).toNat.testBit 1 = false →
    firstRefused s c 30 (((coreOf s c).cr 0x02).toNat + 64 * t.code) 1 = none →
    let k := coreOf s c
    let k' := coreOf (takeTrap s c t epc ds rep) c
    k'.cr 0x03 = epc ∧
    k'.cr 0x04 = BitVec.ofNat 64 (t.code + 256 * b2n ds + 512 * b2n rep.isSome) ∧
    k'.cr 0x05 = t.eaddr ∧ (∀ n, rep = some n → k'.cr 0x06 = BitVec.ofNat 64 n) ∧
    (rep = none → k'.cr 0x06 = k.cr 0x06) ∧ k'.cr 0x07 = k.cr 0x01 ∧ k'.cr 0x01 = 2 ∧
    k'.pc = BitVec.ofNat 64 ((k.cr 0x02).toNat + 64 * t.code) ∧ k'.delay = none ∧ k'.rep = none ∧
    (∀ r, k'.g r = k.g r) ∧ k'.mem = k.mem ∧ k'.state = k.state ∧
    (returnFromTrap k').pc = epc ∧ (returnFromTrap k').cr 0x01 = k.cr 0x01 &&& 3 ∧
    (∀ n, rep = some n → n < 2 ^ 64 → (returnFromTrap k').rep = some n) ∧
    (rep = none → (returnFromTrap k').rep = none)

/-- R479, R490. -/
def Obligations.ATrapInAHandlerFaultsTheCore : Prop :=
  ∀ (s : State) (c : Nat) (t : Trap) (epc : DWord) (ds : Bool) (rep : Option Nat),
    c < 50 → t.code < 256 →
    let u := takeTrap s c t epc ds rep
    let k := coreOf s c
    let k' := coreOf u c
    let vector := (k.cr 0x02).toNat + 64 * t.code
    ((k.cr 0x01).toNat.testBit 1 = true → k'.pc = k.pc ∧ ∀ n, k'.cr n = k.cr n) ∧
    ((k.cr 0x01).toNat.testBit 1 = false → (firstRefused s c 30 vector 1).isSome = true →
      k'.pc = BitVec.ofNat 64 vector ∧ k'.cr 0x03 = epc ∧
      k'.cr 0x04 = BitVec.ofNat 64 (t.code + 256 * b2n ds + 512 * b2n rep.isSome) ∧ k'.cr 0x05 = t.eaddr ∧
      k'.cr 0x07 = k.cr 0x01 ∧ k'.cr 0x01 = 2) ∧
    ((k.cr 0x01).toNat.testBit 1 = true ∨ (firstRefused s c 30 vector 1).isSome = true →
    k'.state = .faulted ∧ k'.rep = none ∧ k'.delay = none ∧ (∀ r, k'.g r = k.g r) ∧ k'.mem = k.mem ∧
    live u (coreRegs s Reg.GLY_CORE_STATUS c) 23 16 = t.code) ∧
    (∀ n, faultStatus n = if n = 4 ∨ n = 5 then 0x0E else if n = 7 then 0x0F else 0x10)

/-- R510, R480, R513: the control instructions. -/
def Obligations.GoleyControlInstructionsAct : Prop :=
  ∀ (s : State) (c : Nat) (p : GPre) (r : Fin 32) (n : BitVec 8),
    let k := coreOf s c
    let i := fun (op : Nat) => (⟨p, op, .n⟩ : GIns)
    (issues s c (i 0x01) → exec (.gNop c p) s = .next (retired s c (i 0x01) s)) ∧
    (issues s c (i 0x02) → exec (.gSyscall c p) s = .next (trapped s c (i 0x02) { code := 0x09 })) ∧
    (issues s c (i 0x03) → exec (.gBreak c p) s = .next (trapped s c (i 0x03) { code := 0x0A })) ∧
    (issues s c (i 0x04) → exec (.gRft c p) s = .next (setCore s c (returnFromTrap k))) ∧
    (issues s c (i 0x05) → exec (.gWait c p) s = .next (retired s c (i 0x05)
      (if k.ipend &&& ((k.cr 0x0E).toNat % 16) ≠ 0 then s else setCore s c { k with state := .waiting }))) ∧
    (issues s c ⟨p, 0x06, .c r n⟩ → crTrap s c n.toNat false = none → exec (.gCrr c p r n) s =
      .next (retired s c ⟨p, 0x06, .c r n⟩ (putG (crRead s c n.toNat).2 c r (crRead s c n.toNat).1))) ∧
    (∀ t, issues s c ⟨p, 0x07, .c r n⟩ → crTrap s c n.toNat true = none →
      (n ≠ 0x26 ∨ k.emitq.length < 8) → crWrite s c n.toNat (k.g r.val) = .ok t →
      exec (.gCrw c p r n) s = .next (retired s c ⟨p, 0x07, .c r n⟩ t))

/-- R482 to R485: the core as its program sees it. -/
def Obligations.CoreQueuesAndTicketsThroughControlRegisters : Prop :=
  ∀ (s : State) (c : Nat) (a : Fin 32),
    let k := coreOf s c
    let v := (k.g a.val).toNat
    let i := fun (n : BitVec 8) => (⟨{}, 0x07, .c a n⟩ : GIns)
    (issues s c ⟨{}, 0x06, .c a 0x21⟩ → exec (.inqPop c a) s = .next (retired s c ⟨{}, 0x06, .c a 0x21⟩
      (putG (setCore s c { k with inq := k.inq.tail }) c a (BitVec.ofNat 64 (k.inq.headD 0))))) ∧
    (issues s c (i 0x22) → exec (.inqFree c a) s = .next (retired s c (i 0x22)
      (setCore s c { k with slots := k.slots.filter (fun y => y.1 != v % 64) }))) ∧
    (issues s c (i 0x26) → k.emitq.length < 8 → exec (.emit c a) s =
      .next (if emitOk v then retired s c (i 0x26) (setCore s c { k with emitq := k.emitq ++ [v] })
        else trapped s c (i 0x26) { code := 0x01 })) ∧
    (issues s c (i 0x2B) → poisoned s c (v % 524288 / 64 * 64) 64 = false →
      let s1 := (readCore s c (v % 524288 / 64 * 64) 64).2
      let r := submitTicket s1 (.core (coreUnit s1 c)) (memRead (coreOf s1 c).mem (v % 524288 / 64 * 64) 64)
      let res := match r.1 with
        | some tag => tag + 65536
        | none => 131072
      exec (.submit c a) s = .next (retired s c (i 0x2B)
        (setCore r.2 c ((coreOf r.2 c).setCr 0x2C (BitVec.ofNat 64 res)))))

/-- R471, R480, R487 to R492, R508: core states, timers, interrupts, undefined encodings. -/
def Obligations.CoreStatesMoveAsR487 : Prop :=
  ∀ (s : State) (c : Nat) (entry : DWord) (bytes : Bytes),
    let k := coreOf s c
    (k.state = .stopped → isTenantCore s c = true → (unitOf s (coreUnit s c)).role = 6 →
      Nexts (exec (.coreStart c entry) s) (fun t => (coreOf t c).state = .running ∧ (coreOf t c).pc = entry ∧
        (coreOf t c).cr 0x01 = 0 ∧ (∀ r, (coreOf t c).g r = k.g r) ∧ (coreOf t c).mem = k.mem ∧ onlyCore s t c)) ∧
    ((k.state = .running ∧ k.delay = none) ∨ k.state = .waiting ∨ k.state = .faulted →
      exec (.coreStop c) s = .next (setCore s c { k with state := .stopped, rep := none })) ∧
    (k.state = .scrubbing → Nexts (exec (.coreScrubDone c) s) (fun t => (coreOf t c).state = .stopped ∧
      (∀ r, (coreOf t c).g r = 0) ∧ (∀ n, (coreOf t c).cr n = 0) ∧ (∀ a, memByte (coreOf t c).mem a = 0) ∧
      ∀ c', c' ≠ c → (coreOf t c').gpr = (coreOf s c').gpr ∧ (coreOf t c').mem = (coreOf s c').mem)) ∧
    (k.state = .stopped → isTenantCore s c = false ∨ (unitOf s (coreUnit s c)).role ≠ 6 →
      exec (.coreStart c entry) s = .next s) ∧
    ((k.cr 0x0C).toNat ≠ 0 → (k.cr 0x0C).toNat ≤ timeUs s → Nexts (exec (.timerRaise c) s) (fun t =>
      (coreOf t c).timerUp = true ∧ (coreOf t c).ipend.testBit 2 = true)) ∧
    (k.state = .running ∨ k.state = .waiting → k.delay = none → (k.cr 0x01).toNat.testBit 0 = true →
      k.ipend &&& ((k.cr 0x0E).toNat % 16) ≠ 0 →
      exec (.interrupt c) s = .next (trapNow (setCore s c { k with state := .running }) c { code := 0x10 } k.rep)) ∧
    (isTenantCore s c = true → k.slowed = false → k.inside = [] → k.inq = [] →
      eff s (coreRegs s Reg.GLY_CORE_CFG c) 31 24 ≠ 0 →
      eff s (coreRegs s Reg.GLY_CORE_CFG c) 31 24 ≤ k.idle → c < 48 →
      Nexts (exec (.coreIdleSlowdown c) s) (fun t => (coreOf t c).slowed = true ∧
        (islandAt t (72 + c)).mhz = min (islandAt s (72 + c)).planMhz (pointMhz (72 + c) 2))) ∧
    (∀ code, k.state = .running → fetchTrap s c k.pc.toNat (gNeed (fit 16 bytes)) = none →
      gDecode (fit 16 bytes) k.delay.isSome = .trap code →
      exec (.undefinedEncoding c bytes) s = .next (settle (trapNow s c { code := code } none) c))

/-- R481 to R483: the core as a station (front-of-queue form of `serveAt`). -/
def Obligations.CoreStationTakesTransfers : Prop :=
  ∀ (s : State) (u tag : Nat) (e : Entry) (st : LStep) (p : Packet) (rest : List Work),
    let c := coreIndex s u
    inboxOf s u = .pkt p :: rest → p.endTok = false → p.tag = tag → entryOf s tag = some e →
    e.fenced = false → e.revoking = false → (stepsOf s e)[p.step]? = some st → isCoreKind st = true →
    coreIndex (setInbox s u rest) u = c →
    (∀ slot, st.mode = 0 → freeSlot (coreOf s c) = some slot → coreTakes (coreOf s c) = true →
      (coreOf s c).slowed = false →
      Nexts (exec (.program u) s) (fun t =>
        memRead (coreOf t c).mem ((coreOf s c).slotAddr slot) p.data.length = p.data ∧
        (slot, tag) ∈ (coreOf t c).slots ∧
        (∃ first, (coreOf t c).inq =
          (coreOf s c).inq ++ [inqEntry first false p.prov false slot p.data.length tag]) ∧
        inboxOf t u = rest)) ∧
    (st.mode = 1 → (coreOf s c).state = .stopped → e.t.dest.kind = 5 → e.t.dest.mid = u → isLast s e p.step = true →
      e.t.dest.addr + p.off + p.data.length ≤ 524288 →
      Nexts (exec (.load u) s) (fun t =>
        memRead (coreOf t c).mem (e.t.dest.addr + p.off) p.data.length = p.data ∧ inboxOf t u = rest ∧
        ∀ x, x < e.t.dest.addr + p.off ∨ e.t.dest.addr + p.off + p.data.length ≤ x →
          memByte (coreOf t c).mem x = memByte (coreOf s c).mem x))

/-- Frame of the register forms, stated through the writes `putG` and `retired` (the result statements above give the next state). -/
def Obligations.GoleyRegisterFormsTouchNothingElse : Prop :=
  ∀ (s : State) (c : Nat) (i : GIns) (d e : Fin 32) (q r : DWord),
    let t := retired s c i (putG (putG s c d q) c e r)
    onlyCore s t c ∧
    { coreOf t c with
      gpr := (coreOf s c).gpr, pc := (coreOf s c).pc, rep := (coreOf s c).rep, delay := (coreOf s c).delay,
      state := (coreOf s c).state, stopAsked := (coreOf s c).stopAsked,
      holdAsked := (coreOf s c).holdAsked } = coreOf s c ∧
    (∀ n, n ≠ d.val → n ≠ e.val → (∀ b, (coreOf s c).delay = some b → b.link ≠ some n) →
      (coreOf t c).g n = (coreOf s c).g n) ∧
    ((∀ b, (coreOf s c).delay = some b → b.link ≠ some e.val) → e.val ≠ 0 → (coreOf t c).g e.val = r) ∧
    (coreOf t c).g 0 = 0

/-- R501 to R508: the decoder reads back every instruction that the encoder writes; no operand bit is dropped. -/
def Obligations.GoleyDecodeOfEncodeIsTheInstruction : Prop :=
  ∀ (i : GIns) (inSlot : Bool) (more : Bytes),
    (match i.args with
      | .n => gFmt i.op = some .n
      | .g2 _ _ => gFmt i.op = some .g2
      | .g3 _ _ _ => gFmt i.op = some .g3
      | .g4 _ _ _ _ => gFmt i.op = some .g4
      | .i _ z v => gFmt i.op = some .i ∧ gImmFits z.val v = true
      | .gi _ _ z v => gFmt i.op = some .gi ∧ gImmFits z.val v = true
      | .m _ _ z v => gFmt i.op = some .m ∧ gImmFits z.val v = true
      | .c _ _ => gFmt i.op = some .c
      | .k _ z lo hi => gFmt i.op = some .k ∧ gImmFits z.val lo = true ∧ gImmFits z.val hi = true
      | .b _ _ _ z v => gFmt i.op = some .b ∧ gImmFits z.val v = true
      | .j _ z v => gFmt i.op = some .j ∧ gImmFits z.val v = true) →
    gDecodeTrap i inSlot = none →
    gDecode (gEncode i ++ more) inSlot = .ok i (gLen i) ∧ gLen i ≤ 15

/-- R501 to R507: sample encodings of every format. -/
def Obligations.GoleyWordsDecodeAsTheSpecWritesThem : Prop :=
  gDecode [0x10, 3, 1, 2] false = .ok ⟨{}, 0x10, .g3 3 1 2⟩ 4 ∧
    gDecode [0x1E, 4, 5] false = .ok ⟨{}, 0x1E, .g2 4 5⟩ 3 ∧
    gDecode [0x1B, 1, 2, 3, 4] false = .ok ⟨{}, 0x1B, .g4 1 2 3 4⟩ 5 ∧
    gDecode [0x4E, 0x27, 0xFF] false = .ok ⟨{}, 0x4E, .i 7 1 (-1)⟩ 3 ∧
    gDecode [0x40, 1, 0x42, 0x00, 0x01] false = .ok ⟨{}, 0x40, .gi 1 2 2 256⟩ 5 ∧
    gDecode [0x64, 5, 0x26, 0x08] false = .ok ⟨{}, 0x64, .m 5 6 1 8⟩ 4 ∧
    gDecode [0x06, 9, 0x0B] false = .ok ⟨{}, 0x06, .c 9 0x0B⟩ 3 ∧
    gDecode [0x82, 0x23, 0xFE, 0x05] false = .ok ⟨{}, 0x82, .k 3 1 (-2) 5⟩ 4 ∧
    gDecode [0x90, 0x21, 0x42, 0xF0, 0xFF] false = .ok ⟨{}, 0x90, .b 1 1 2 2 (-16)⟩ 5 ∧
    gDecode [0x91, 0x3F, 0x10] false = .ok ⟨{}, 0x91, .j 31 1 16⟩ 3 ∧
    gDecode [0xF0, 0xF1, 0x10, 3, 1, 2] false = .ok ⟨{ rep := true, w32 := true }, 0x10, .g3 3 1 2⟩ 6 ∧
    gDecode [0x01] false = .ok ⟨{}, 0x01, .n⟩ 1 ∧
    gDecode [0xF6, 0xE0, 0x12, 8, 0x29, 0x08] false = .ok ⟨{ mod := some 2 }, 0xE012, .m 8 9 1 8⟩ 6 ∧
    gDecode [0x00] false = .trap 0x01 ∧ gDecode [0xF3, 0x01] false = .trap 0x01 ∧
    gDecode [0xF1, 0xF1, 0x10, 3, 1, 2] false = .trap 0x02

/-- R6, R9, R12: REGISTER_WRITE. -/
def Obligations.RegisterWriteStagesAndClearsByAccessType : Prop :=
  ∀ (s : State) (a : Nat) (r : RegRow) (i j : Nat) (v : BitVec 64) (ide : Option Nat),
    (plainReg s a r i j → mmioTravels s (pageInst a) ide = true → (∀ f ∈ r.fields, f.acc = .rws ∨ f.acc = .ro ∨
      f.acc = .rc) →
      Nexts (exec (.registerWrite ⟨a, ide⟩ 4 v) s) (fun t =>
        stagedWord t a = putFields r .rws (stagedWord s a) (v.toNat % 2 ^ 32) ∧
        (∀ b, b ≠ a → stagedWord t b = stagedWord s b) ∧ (∀ b, effWord t b = effWord s b) ∧
        (∀ b, liveWord t b = liveWord s b) ∧ onlyRegs s t)) ∧
    (plainReg s a r i j → pageInst a = none → (∀ f ∈ r.fields, f.acc = .w1c ∨ f.acc = .ro ∨ f.acc = .rc) →
      Nexts (exec (.registerWrite ⟨a, ide⟩ 4 v) s) (fun t =>
        (∀ f ∈ r.fields, f.acc = .w1c → v.toNat.testBit f.lo = true → live t a f.hi f.lo = 0) ∧
        (∀ b, stagedWord t b = stagedWord s b ∧ effWord t b = effWord s b) ∧
        (∀ b, b ≠ a → liveWord t b = liveWord s b) ∧ onlyRegs s t)) ∧
    (∀ n, n ≠ 4 → n ≠ 8 → exec (.registerWrite ⟨a, ide⟩ n v) s = .next s) ∧
    (mmioTravels s (pageInst a) ide = false → ∀ n, exec (.registerWrite ⟨a, ide⟩ n v) s = .next s) ∧
    (mmioTravels s (pageInst a) ide = true → coversPair a = true → exec (.registerWrite ⟨a, ide⟩ 8 v) s =
      .next (regWrite (regWrite s a (v.toNat % 2 ^ 32)) (a + 4) (v.toNat / 2 ^ 32 % 2 ^ 32)))

/-- R7, R9, R29, R408: the reads that have an effect. -/
def Obligations.ReadsLatchAndClearWhatTheirRulesSay : Prop :=
  ∀ (s : State) (a n : Nat) (r h : RegRow) (i j i' j' : Nat) (ide : Option Nat),
    (plainReg s a r i j → mmioTravels s (pageInst a) ide = true → isLo a = true →
      findReg (a + 4) = some (h, i', j') → r.base ≠ Reg.EVR_OLDEST_SEQ_LO →
      (∀ f ∈ r.fields, f.acc = .ro ∨ f.acc = .rws) →
      r.base ≠ Reg.DEV_UNIT_ROLE → r.base ≠ Reg.KEY_SLOT_STATUS → r.base ≠ Reg.PWR_CLASS_MJ →
      r.base ≠ Reg.VFP_LMEM_LOST →
      Nexts (exec (.readLoLatch ⟨a, ide⟩) s) (fun t => t.regs.readData = shownAt s a ∧
        shownAt t (a + 4) = shownWord s h i' j' (a + 4) ∧ onlyRegs s t)) ∧
    (n < 218 → regAnswers s (Reg.DEV_UNIT_ROLE + 8 * n) = true →
      Nexts (exec (.unitRoleRead n) s) (fun t => t.regs.readData = shownAt s (Reg.DEV_UNIT_ROLE + 8 * n) ∧
        Tab.get? t.dev.genLatch n = some (unitGenWord s n) ∧ t.dev.units = s.dev.units)) ∧
    (n < 4096 → regAnswers s (Reg.KEY_SLOT_STATUS + 0x10 * n) = true →
      Nexts (exec (.keySlotStatusRead n) s) (fun t => t.regs.readData = shownAt s (Reg.KEY_SLOT_STATUS + 0x10 * n) ∧
        Tab.get? t.key.latch n = some ((slotOf s n).gen % 2 ^ 32, slotUseWord s n) ∧ t.key.slots = s.key.slots)) ∧
    (plainReg s a r i 0 → pageInst a = none → isLo a = false → (∀ f ∈ r.fields, f.acc = .rc ∨ f.acc = .ro) →
      r.base ≠ Reg.PWR_CLASS_MJ → r.base ≠ Reg.DEV_UNIT_ROLE → r.base ≠ Reg.KEY_SLOT_STATUS →
      r.base ≠ Reg.EVR_OLDEST_SEQ_LO → r.base ≠ Reg.VFP_LMEM_LOST →
      Nexts (exec (.readClear ⟨a, ide⟩) s) (fun t => t.regs.readData = shownAt s a ∧
        (∀ f ∈ r.fields, f.acc = .rc → live t a f.hi f.lo = 0) ∧ onlyRegs s t))

/-- R12 to R16: COMMIT_GO, COMMIT_DISCARD, COMMIT_TAKES_EFFECT. -/
def Obligations.CommitGroupsPendDiscardAndTakeEffectWhole : Prop :=
  ∀ (s : State) (c : Nat) (w : Word) (set : Tab Nat) (ide : Option Nat),
    let g := groupAt s c
    let v := w.toNat
    (commitReg s c → mmioTravels s (pageInst c) ide = true → v.testBit 1 = false →
      Nexts (exec (.commitGo ⟨c, ide⟩ w) s) (fun t =>
      (groupAt t c).pending = some (stagedSet s c) ∧
      (∀ a, commitOf a = c → inSet (stagedSet s c) a = stagedWord s a) ∧
      (groupAt t c).superseded = ((g.superseded && !v.testBit 4) || g.pending.isSome) ∧
      (groupAt t c).rejected = (g.rejected && !v.testBit 3) ∧
      (∀ a, effWord t a = effWord s a ∧ stagedWord t a = stagedWord s a) ∧ onlyRegs s t)) ∧
    (commitReg s c → mmioTravels s (pageInst c) ide = true → v.testBit 0 = false →
      Nexts (exec (.commitDiscard ⟨c, ide⟩ w) s) (fun t =>
      (groupAt t c).pending = g.pending ∧ (∀ a, commitOf a = c → stagedWord t a = effWord s a) ∧
      (∀ a, effWord t a = effWord s a) ∧ onlyRegs s t)) ∧
    (commitReg s c → v.testBit 1 = true → exec (.commitGo ⟨c, ide⟩ w) s = .next s) ∧
    (commitReg s c → v.testBit 0 = true → exec (.commitDiscard ⟨c, ide⟩ w) s = .next s) ∧
    (g.pending = some set → atSafePoint s c = false → exec (.commitTakesEffect c) s = .next s) ∧
    (g.pending = some set → atSafePoint s c = true → setRefused s c set = true →
      Nexts (exec (.commitTakesEffect c) s) (fun t => (groupAt t c).pending = none ∧ (groupAt t c).rejected = true ∧
        ∀ a, effWord t a = effWord s a ∧ stagedWord t a = stagedWord s a)) ∧
    (g.pending = some set → atSafePoint s c = true → setRefused s c set = false → (Tab.keys set).Nodup →
      c ∈ [0x300008, 0x30000C, 0x400018, 0x40002C, 0x40003C, 0x400044, 0x600014, 0x60001C, 0x600108, 0x700014,
        0x800014, 0xB00014, 0x120000C, 0xE00048] →
      Nexts (exec (.commitTakesEffect c) s) (fun t => (groupAt t c).pending = none ∧
        (∀ a, commitOf a = c → effWord t a = inSet set a) ∧
        (∀ a, commitOf a ≠ c → Tab.get? set a = none → effWord t a = effWord s a)))

/-- R32, R39, R157: PACKET_ARRIVE. -/
def Obligations.TrunkDeliversOrParksByGeneration : Prop :=
  ∀ (s : State) (src dest cls route : Nat) (p : Packet) (e : Entry),
    (oldest s src dest cls route = none → exec (.packetArrive src dest cls route) s = .next s) ∧
    (oldest s src dest cls route = some p → p.endTok = false → p.revoke = false → (unitOf s dest).gen = p.destGen →
      entryOf s p.tag = some e → e.fenced = false → e.revoking = false → p.flits ≤ 128 → p.poison = false →
      s.tst.injections = [] → kindOf dest ≠ 0x02 → kindOf dest ≠ 0x03 → kindOf dest ≠ 0x13 →
        pathBarred s p = false → canTake (wakePath s p) p = true →
      Nexts (exec (.packetArrive src dest cls route) s) (fun t =>
        inboxOf t dest = inboxOf s dest ++ [.pkt p] ∧ t.dev.trunk = dropFirst (· == p) s.dev.trunk ∧
        t.sbx = s.sbx ∧ (islandOf (hwUnit s dest) < 0xE8 → (islandAt t (islandOf (hwUnit s dest))).dom = .on))) ∧
    (oldest s src dest cls route = some p → p.endTok = false → p.revoke = false → (unitOf s dest).gen ≠ p.destGen →
      entryOf s p.tag = some e → e.revoking = false → isLast s e p.step = false → s.sbx.siding = [] →
      pathBarred s p = false →
      Nexts (exec (.packetArrive src dest cls route) s) (fun t =>
        t.sbx.siding = [staleEntry s p e dest] ∧
        failedWith t e p.tag 0x0B dest ∧ ∀ u, inboxOf t u = inboxOf s u)) ∧
    (oldest s src dest cls route = some p → pathBarred s p = true →
      exec (.packetArrive src dest cls route) s = .next s)

/-- R38, R44: FLIT_ARRIVE (three or more symbols in error: R45, a free outcome). -/
def Obligations.RoutersCorrectReplayAndPoisonFlits : Prop :=
  ∀ (s : State) (src dest cls route x y up link flit : Nat) (p : Packet),
    let q := 0xE0 + quadOf x y
    let s1 := wakeIsland s q
    oldest s src dest cls route = some p →
    (onRoute s p (x, y) = false ∨ wakeBarred s q = true →
      ∀ errs, exec (.flitArrive src dest cls route x y up link flit errs) s = .next s) ∧
    (onRoute s p (x, y) = true → wakeBarred s q = false → s.tst.injections = [] →
    exec (.flitArrive src dest cls route x y up link flit []) s = .next s1 ∧
    exec (.flitArrive src dest cls route x y up link flit [1]) s = .next (routerFixes s1 x y (some p.tag)) ∧
    Nexts (exec (.flitArrive src dest cls route x y up link flit [2, 2, 2, 2]) s) (fun t =>
      t.dev.trunk = s.dev.trunk.map (fun q => if q = p then { p with poison := true } else q) ∧
      t.sbx.store = s.sbx.store ∧ t.stn = s.stn))

/-- R30, R31: `changeUnit`, GEN_HELD_EVENT_APPLY. -/
def Obligations.HeldEventsTakeEffectAndCountGen : Prop :=
  ∀ (s : State) (u : Nat) (c : UnitChange) (rest : List UnitChange),
    let r := unitOf s u
    let done := fun (t : State) =>
      (unitOf t u).gen = (if c.isEvent r then (r.gen + 1) % 65536 else r.gen) ∧
      (unitOf t u).role = c.role.getD r.role ∧ (unitOf t u).owner = c.owner.getD r.owner ∧
      (unitOf t u).state = c.state.getD r.state ∧ ∀ v, v ≠ u → unitOf t v = unitOf s v
    (r.held = [] → (c.isEvent r = false ∨ (recentIncs s r).length < 2) → done (changeUnit s u c)) ∧
    (c.isEvent r = true → 2 ≤ (recentIncs s r).length →
      unitOf (changeUnit s u c) u = { r with held := r.held ++ [c] }) ∧
    (r.held = c :: rest → c.isEvent r = true → 2 ≤ (recentIncs s r).length →
      exec (.genHeldEventApply u) s = .next s) ∧
    (r.held = c :: rest → (c.isEvent r = false ∨ (recentIncs s r).length < 2) →
      inService s u = true ∨ (∀ c, (groupAt s c).pending = none) →
      Nexts (exec (.genHeldEventApply u) s) (fun t => done t ∧ (unitOf t u).held = rest))

/-- R172, R173: END_TOKEN_ARRIVE, REVOKE_TOKEN_ARRIVE. -/
def Obligations.EndAndRevokeTokensTravelTheLine : Prop :=
  ∀ (s : State) (src dest tag : Nat) (p : Packet) (e : Entry),
    kindOf dest ≠ 0x02 → kindOf dest ≠ 0x03 → kindOf dest ≠ 0x13 → (unitOf s dest).gen = p.destGen →
    entryOf s tag = some e →
    (arriving s (fun q => q.src == src && q.dest == dest && q.tag == tag && q.endTok) = some p → e.fenced = false →
      e.revoking = false → p.poison = false → pathBarred s p = false → inboxOf s dest ≠ [] →
      Nexts (exec (.endTokenArrive src dest tag) s) (fun t =>
        inboxOf t dest = inboxOf s dest ++ [.pkt p] ∧ t.dev.trunk = dropFirst (· == p) s.dev.trunk)) ∧
    (arriving s (fun q => q.src == src && q.dest == dest && q.tag == tag && q.revoke) = some p →
      kindOf dest ≠ 0x04 → kindOf dest ≠ 0x05 → isLast s e p.step = false → pathBarred s p = false →
      Nexts (exec (.revokeTokenArrive src dest tag) s) (fun t =>
        (∃ e', entryOf t tag = some e' ∧ e'.revoking = true ∧ e'.waiting = false) ∧
        (∀ d ∈ unitsAt s e (p.step + 1), ∃ q ∈ t.dev.trunk, q.dest = d ∧ q.tag = tag ∧ q.revoke = true ∧
          q.data = []) ∧
        (∀ w ∈ inboxOf t dest, w.tag ≠ tag) ∧ (ctxOf t tag p.step).buf = [] ∧ (ctxOf t tag p.step).held = []))

/-- R73 to R77, R93: CFG_LOAD_REQUEST, LOADER_FETCH_HEAD, LOADER_HEADER_ARRIVED, LOADER_AUTHENTICATE, LOADER_BLOCK_ARRIVED. -/
def Obligations.LoaderTakesChecksAndFetchesInOrder : Prop :=
  ∀ (s : State) (r : LoadReq) (q : List LoadReq) (set : Tab Nat) (b : Bytes),
    let h := s.cfg.head
    let full := h ++ fit (min (hOffset h) r.offered - h.length) b
    let ended := fun (st : Nat) (t : State) => t.cfg.state = .idle ∧ t.cfg.cur = none ∧
      live t Reg.CFG_RESULT 7 0 = st ∧ live t Reg.CFG_RESULT 8 8 = 1 ∧ t.cfg.active = s.cfg.active ∧
      t.cfg.candidate = s.cfg.candidate ∧ t.fab = s.fab
    ((groupAt s 0x100024).pending = some set → atSafePoint s 0x100024 = true → setRefused s 0x100024 set = false →
      dramLive s ≠ [] → Nexts (exec .cfgLoadRequest s) (fun t => ∃ x, t.cfg.queue = s.cfg.queue ++ [x] ∧
        x.inst = 0 ∧
        x.kind = eff t Reg.CFG_LOAD_TARGET 1 0 ∧ x.target = eff t Reg.CFG_LOAD_TARGET 15 8 ∧
        x.gen = (unitOf s x.target).gen ∧ x.offered = effWord t Reg.CFG_LOAD_LEN ∧ x.tag = none ∧
        x.cookie = effWord t Reg.CFG_LOAD_COOKIE ∧ (groupAt t 0x100024).pending = none)) ∧
    (s.cfg.queue = r :: q → s.cfg.state = .idle → dramLive s ≠ [] → Nexts (exec .loaderFetchHead s) (fun t =>
      t.cfg.queue = q ∧ t.cfg.cur = some r ∧ t.cfg.state = .fetchHead)) ∧
    (loaderAt s .fetchHead r → r.kind ≠ 0 → hTotal (fit 256 b) = r.offered →
      Nexts (exec (.loaderHeaderArrived b false) s) (fun t => t.cfg.state = .authenticate ∧
        t.cfg.head = fit (tableEnd (fit 256 b) r.offered) b ∧ t.cfg.cur = some r)) ∧
    (loaderAt s .fetchHead r → s.cfg.keyUse = none → r.offered < hTotal (fit 256 b) →
      Nexts (exec (.loaderHeaderArrived b false) s) (ended 0x01)) ∧
    (loaderAt s .fetchHead r → s.cfg.keyUse = none → hTotal (fit 256 b) < r.offered →
      Nexts (exec (.loaderHeaderArrived b false) s) (ended 0x10)) ∧
    (loaderAt s .authenticate r → headerOk full = true → hKind full = r.kind →
      (if r.kind = 1 then streamAuthority s full else fenAuthority s r full) = true → signaturesOk full = true →
      hEnc full = false → Nexts (exec (.loaderAuthenticate b false) s) (fun t =>
        t.cfg.state = .fetchBlocks ∧ t.cfg.head = full)) ∧
    (loaderAt s .authenticate r → s.cfg.keyUse = none → headerOk full = false →
      Nexts (exec (.loaderAuthenticate b false) s) (ended 0x10)) ∧
    (loaderAt s .authenticate r → s.cfg.keyUse = none → headerOk full = true → hKind full ≠ r.kind →
      Nexts (exec (.loaderAuthenticate b false) s) (ended 0x11)) ∧
    (loaderAt s .fetchBlocks r → hEnc h = false → s.cfg.blocks.length + 1 < hBlocks h →
      sha384 (fit 65536 b) = slice h (blkAt h + 80 * s.cfg.blocks.length + 16) 48 →
      isZero (fit 65536 b) (validLen h s.cfg.blocks.length) (65536 - validLen h s.cfg.blocks.length) = true →
      Nexts (exec (.loaderBlockArrived b false) s) (fun t =>
        t.cfg.blocks = s.cfg.blocks ++ [slice (fit 65536 b) 0 (validLen h s.cfg.blocks.length)] ∧
        t.cfg.state = .fetchBlocks)) ∧
    (loaderAt s .fetchBlocks r → s.cfg.keyUse = none →
      sha384 (fit 65536 b) ≠ slice h (blkAt h + 80 * s.cfg.blocks.length + 16) 48 →
      Nexts (exec (.loaderBlockArrived b false) s) (fun t => ended 0x08 t ∧
        live t Reg.CFG_REJECT_DETAIL 31 0 = s.cfg.blocks.length % 2 ^ 32))

/-- R79 to R87: SCREEN_COMPLETE, FEN_APPLY_START, FEN_DRAIN_TIMEOUT, FEN_SAFE_POINT_A/B, LOADER_KEY_REVOKED, STRUCTURE_STREAM_STORED. -/
def Obligations.FenImagesAreScreenedAndAppliedAtSafePoints : Prop :=
  ∀ (s : State) (r : LoadReq) (net : List (Nat × Nat × Nat × Nat)) (k : Nat),
    let h := s.cfg.head
    let l := sectionData h s.cfg.blocks
    let f := r.target - 32
    let x := fenOf s f
    let u := unitOf s r.target
    let result := fun (st : Nat) (t : State) => t.cfg.state = .idle ∧ t.cfg.cur = none ∧
      live t Reg.CFG_RESULT 7 0 = st
    (loaderAt s .screen r →
      screen (hTargetKind h) (payloadOf l 0x101) (payloadOf l 0x102) (payloadOf l 0x103) net = [] →
      Nexts (exec (.screenComplete net) s) (fun t => t.cfg.state = .apply ∧ t.cfg.stage = .none ∧
        t.cfg.cur = some r)) ∧
    (loaderAt s .apply r → s.cfg.stage = .none → u.gen = r.gen → u.role = 3 → x.state = .running →
      Nexts (exec .fenApplyStart s) (fun t => (fenOf t f).state = .draining ∧ t.cfg.stage = .draining)) ∧
    (loaderAt s .apply r → s.cfg.stage = .none → u.gen = r.gen → u.role = 3 → x.state = .empty →
      Nexts (exec .fenApplyStart s) (fun t => (fenOf t f).state = .loading ∧ t.cfg.stage = .loading)) ∧
    (loaderAt s .apply r → s.cfg.stage = .none → s.cfg.keyUse = none → u.gen ≠ r.gen →
      Nexts (exec .fenApplyStart s) (fun t => result 0x0B t ∧ t.fab = s.fab)) ∧
    (loaderAt s .apply r → x.state = .draining → Nexts (exec .fenDrainTimeout s) (fun t =>
      (fenOf t f).state = .draining ∧ (fenOf t f).inside = [])) ∧
    (loaderAt s .apply r → x.state = .draining → x.inside = [] → u.state = .active → u.held = [] →
      (recentIncs s u).length < 2 → Nexts (exec .fenSafePointA s) (fun t => (fenOf t f).state = .loading ∧
        (fenOf t f).image = none ∧ t.cfg.stage = .loading ∧ (unitOf t r.target).state = .idle ∧
        (unitOf t r.target).gen = (u.gen + 1) % 65536)) ∧
    (loaderAt s .apply r → s.cfg.keyUse = none → s.cfg.stage = .loading → s.cfg.resetMet = false →
      x.state = .loading →
      u.held = [] → (recentIncs s u).length < 2 → Nexts (exec .fenSafePointB s) (fun t =>
        (fenOf t f).state = .running ∧ (fenOf t f).inside = [] ∧ (fenOf t f).mem = initMem (payloadOf l 0x103) ∧
        (fenOf t f).image = some (imageOf h (payloadOf l 0x101) (payloadOf l 0x102) (hTargetKind h)) ∧
        (unitOf t r.target).state = .active ∧ (unitOf t r.target).gen = (u.gen + 1) % 65536 ∧ result 0 t)) ∧
    (loaderAt s .fetchBlocks r → s.cfg.keyUse = some k → (slotOf s k).state = .pending →
      Nexts (exec .loaderKeyRevoked s) (fun t => result 0x0A t ∧ t.cfg.keyUse = none ∧ t.fab = s.fab)) ∧
    (loaderAt s .store r → s.cfg.keyUse = none → Nexts (exec .structureStreamStored s) (fun t =>
      t.cfg.state = .idle ∧ t.cfg.cur = none ∧ t.cfg.active = s.cfg.active ∧
      (Config.rereadHolds s.freeCount = true → result 0 t ∧ ∃ st, t.cfg.candidate = some st ∧ st.seq = hSeq h ∧
        st.head = h ∧ st.mark = sha384 (signedRange h) ∧ st.sections = l ∧ st.blocks = s.cfg.raw) ∧
      (Config.rereadHolds s.freeCount = false → t.cfg.candidate = s.cfg.candidate)))

/-- R107 to R111, R125, R126, R128: the fen commands. -/
def Obligations.FenPortsHoldsAndWindowsAct : Prop :=
  ∀ (s : State) (f port tag off reg i mw d : Nat) (via ide : Option Nat) (data : Bytes) (v ans : Word) (y : FIn)
  (e : Entry)
      (im : FImage),
    let x := fenOf s f
    (fenClocked x = true → fenTicket x port tag = some y → y.revoked = false → entryOf s tag = some e →
      e.fenced = false → e.revoking = false → unitAt s e (y.step + 1) (off / 4096) = some d →
      Nexts (exec (.fenOutputBeat f port tag off data) s) (fun t => t.dev.trunk = s.dev.trunk ++
        [sentTo s e tag y.step (32 + f) d off (data.take 4096) (stationFor y.ranges off) y.prov])) ∧
    (fenClocked x = true → fenTicket x port tag = none → exec (.fenOutputBeat f port tag off data) s =
      .next (bump s (fenReg Reg.FAB_FEN_PORTERR f) 15 0 (max 1 (ceilDiv (data.length * 8) (beatBits x port))))) ∧
    (fenClocked x = true → fenTicket x port tag = none → exec (.fenLast f port tag 0) s =
      .next (bump s (fenReg Reg.FAB_FEN_PORTERR f) 15 0 1)) ∧
    (fenClocked x = true → fenTicket x port tag = some y → y.revoked = false → entryOf s tag = some e →
      e.fenced = false → e.revoking = false → isLast s e y.step = false →
        Nexts (exec (.fenLast f port tag 0) s) (fun t =>
        (∀ z ∈ (fenOf t f).inside, z.tag ≠ tag) ∧ ∀ d ∈ unitsAt s e (y.step + 1), ∃ q ∈ t.dev.trunk,
          q.dest = d ∧ q.tag = tag ∧ q.endTok = true ∧ q.off = (ctxOf s tag y.step).outBytes)) ∧
    (mmioTravels s via ide = true → winPath s f via = true → winAnswers x = true →
      Nexts (exec (.fenCtlwinAccess f ⟨reg, ide⟩ via (some v) ans) s) (fun t =>
      Tab.get? (fenOf t f).window (reg % 1024) = some v.toNat ∧ t.regs = s.regs)) ∧
    (mmioTravels s via ide = true → winPath s f via = true → winAnswers x = true →
      Nexts (exec (.fenCtlwinAccess f ⟨reg, ide⟩ via none ans) s) (fun t =>
      t.regs.readData = ans.toNat)) ∧
    (mmioTravels s via ide = true → winPath s f via = false ∨ winAnswers x = false →
      Nexts (exec (.fenCtlwinAccess f ⟨reg, ide⟩ via none ans) s) (fun t =>
      t.regs.readData = 0 ∧ t.fab = s.fab)) ∧
    (winAnswers x = true → Nexts (exec (.ctlwinTimeout f false) s) (fun t => t.regs.readData = 0 ∧
      live t (fenReg Reg.FAB_FEN_PORTERR f) 23 16 = min (live s (fenReg Reg.FAB_FEN_PORTERR f) 23 16 + 1) 255 ∧
      t.fab = s.fab)) ∧
    (x.state = .fencing → Nexts (exec (.fenFencingDone f) s) (fun t => (fenOf t f).state = .held ∧
      (fenOf t f).image = x.image ∧ (fenOf t f).mem = x.mem)) ∧
    (x.state = .fencing → Nexts (exec (.fencingTimeout f) s) (fun t => (fenOf t f).state = .held ∧
      (fenOf t f).inside = [])) ∧
    (i ≠ 0 → instState s i = .ready → f < 40 → (unitOf s (32 + f)).owner = i → x.state = .held →
      Nexts (exec (.holdRelease i) s) (fun t => (fenOf t f).state = .running ∧ (fenOf t f).inside = [] ∧
        (fenOf t f).image = x.image ∧
        (fenOf t f).mem = (if eff s (fenReg Reg.FAB_FEN_CFG f) 16 16 = 1 then [] else x.mem))) ∧
    (fenClocked x = true → x.image = some im → 3 ≤ x.hot →
      5 * im.power < 4 * mw → Nexts (exec (.fenOverpower f mw) s) (fun t =>
      (fenOf t f).halved = some (max 25 (runMhz s f / 2)) ∧ (fenOf t f).overpower = true)) ∧
    (x.state = .scrubbing → Nexts (exec (.fenScrubDone f) s) (fun t => (fenOf t f).state = .empty ∧
      (fenOf t f).image = none ∧ (fenOf t f).mem = [] ∧ (fenOf t f).window = []))

/-- R147, R148, R780: TICKET_SUBMIT. -/
def Obligations.TicketsAreTakenCheckedAndRefused : Prop :=
  ∀ (s : State) (u tag st : Nat) (bs : Bytes),
    let t := parseTicket (fit 64 bs)
    let sub : Submitter := if u = 189 then .device else if u = 190 then .junction 0xFFFFFFFF else .core u
    (u = 189 → (engineForm (fit 64 bs) && engineOffers s t.line) = false → exec (.ticketSubmit u bs) s = .next s) ∧
    (u ≠ 189 ∨ (engineForm (fit 64 bs) && engineOffers s t.line) = true →
    (entryFree s t.inst = none → Nexts (exec (.ticketSubmit u bs) s) (fun r => { r with ftl := s.ftl } = s)) ∧
    (entryFree s t.inst = some tag → instState s t.inst = .ready →
      acceptance s (fit 64 bs) (mayActFor s sub t.inst) = none → Nexts (exec (.ticketSubmit u bs) s) (fun r =>
        (∃ e, entryOf r tag = some e ∧ e.t = t ∧ e.sub = sub ∧ e.waiting = true ∧ e.admitted = 0 ∧
          e.order = s.sbx.arrivals ∧ e.keyUsed = decide (t.keySlot ≠ 0xFFFF)) ∧
        (t.keySlot ≠ 0xFFFF → (slotOf r t.keySlot).users = (slotOf s t.keySlot).users + 1) ∧
        (∀ g, g ≠ tag → entryOf r g = entryOf s g) ∧ r.stn = s.stn ∧ r.dev = s.dev)) ∧
    (entryFree s t.inst = some tag → instState s t.inst = .ready → u = 189 → s.sbx.flushMode = false →
      acceptance s (fit 64 bs) (mayActFor s sub t.inst) = some st → Nexts (exec (.ticketSubmit u bs) s) (fun r =>
        entryOf r tag = none ∧ ∃ x, r.sbx.posted = s.sbx.posted ++ [x] ∧ x.tag = tag ∧ x.cookie = t.cookie ∧
          x.outLen = 0 ∧ x.status = st ∧ x.unit = 0xFF)))

/-- R150 to R154, R162 to R164: PORTION_CONSIDER. -/
def Obligations.PortionsAreAdmittedWithinTheBudget : Prop :=
  ∀ (s : State) (tag : Nat) (e0 e : Entry) (st : LStep),
    let est := ((estimate s e 0).map (·.2)).sum
    let dirty := if (lineOf s e0.t.line).dirty then ceilDiv (portionLen e.t 0) 4096 * 4 else 0
    s.sbx.flushMode = false → entryOf s tag = some e0 → e0.waiting = true → e0.fenced = false →
    e0.revoking = false → e0.admitted = 0 → 0 < e0.t.len → e0.t.deadline = 0 →
    (e0.t.inst = 0 ∨ eff s (Reg.SBX_SHARE + 4 * e0.t.inst) 16 0 ≠ 0) → resolve s e0 0 = some e →
    (budgetHolds s e est dirty = true →
      exec (.portionConsider tag) s = .next (setEntry s tag { e0 with passed := true })) ∧
    (budgetHolds s e est dirty = false → firstRoom s e 0 = true → orderHolds s e = false →
      s.sbx.stagingRoom + stagingNeed s e ≤ stagingBytes s →
      (∀ u ∈ reached s e 0, fenBusy s u = false) →
      testHolds s e (reached s e 0) = false → (∀ u ∈ reached s e 0, serves s u e.t.inst = true) →
        e.captured = [] → logicalCheck s e.t 0 = none →
      e0.sub = .device → e.refs = [] → (stepsOf s e).head? = some st → st.sel = 0 ∨ st.sel = 1 →
      Nexts (exec (.portionConsider tag) s) (fun t =>
        (∃ e', entryOf t tag = some e' ∧ e'.admitted = 1 ∧ e'.t = e0.t ∧
          e'.waiting = decide (1 < portionsOf e0.t) ∧
          ∀ u ∈ reached s e 0, Tab.get? e'.captured u = some (unitOf s u).gen) ∧
        t.sbx.remaining = s.sbx.remaining - est ∧
        Tab.getD t.sbx.credit e.t.inst 0 = Tab.getD s.sbx.credit e.t.inst 0 - est ∧
          t.sbx.dirty = s.sbx.dirty + dirty ∧
        inboxOf t (Tab.getD e.units 0 0) =
          inboxOf s (Tab.getD e.units 0 0) ++ [.start tag 0 0 (portionLen e.t 0)]))

/-- R141, R160, R165, R168, R169, R190, R218, R219: EPOCH_START, DEADLINE_EXPIRE, SIDING_POP. -/
def Obligations.EpochsPublishTheAllowanceAndRefillCredit : Prop :=
  ∀ (s : State) (env : EpochEnv) (i tag : Nat) (e : Entry),
    let tick : Nat := (s.pwr.ests.take 100).sum / 1000
    let pCap : Int := (capMw s : Int) - env.chgMw - s.pwr.baseMw
    let pHeat : Int := (tick : Int) +
      ((eff s Reg.PWR_THERM_CFG 7 0 : Int) - s.pwr.tModel) * (eff s Reg.PWR_THERM_CFG 23 8 : Int)
    let a : Nat := if capMw s < env.inMw ∨ 58000 < env.dieMw then 0 else 10 * (max 0 (min pCap pHeat)).toNat
    let share := eff s (Reg.SBX_SHARE + 4 * i) 16 0
    let top : Int := ((16 * share * a / 65536 : Nat) : Int)
    (s.sbx.store = [] → i < 512 → Nexts (exec (.epochStart env) s) (fun t =>
      t.sbx.allowance = a ∧ t.sbx.remaining = a ∧ t.sbx.epochs = s.sbx.epochs + 1 ∧
      (i < 40 → i < env.fenMw.length →
        live t (fenReg Reg.FAB_FEN_POWER i) 31 16 = min (env.fenMw.getD i 0) 65535) ∧
      (share ≠ 0 → (groupAt s 0x300008).pending = none → (groupAt s 0x30000C).pending = none →
        Tab.getD t.sbx.credit i 0 = min (Tab.getD s.sbx.credit i 0 + ((share * a / 65536 : Nat) : Int)) top) ∧
      Tab.getD t.sbx.credit i 0 ≤ ((16 * eff t (Reg.SBX_SHARE + 4 * i) 16 0 * a / 65536 : Nat) : Int) ∧
      (∀ set, (groupAt s 0x300008).pending = none → (groupAt s 0x30000C).pending = some set → (Tab.keys set).Nodup →
        setRefused s 0x30000C set = false → (groupAt t 0x30000C).pending = none ∧
        ∀ b, commitOf b = 0x30000C → effWord t b = inSet set b))) ∧
    (entryOf s tag = some e → e.waiting = true → e.admitted = 0 → e.t.deadline ≠ 0 → e.t.deadline ≤ e.budget →
      s.sbx.flushMode = false → e.sub = .device → e.fail = none → e.instReset = false → e.keyRevoked = false →
      Nexts (exec (.deadlineExpire tag) s) (fun t => entryOf t tag = none ∧
        ∃ x, t.sbx.posted = s.sbx.posted ++ [x] ∧ x.tag = tag ∧ x.status = 0x0D ∧ x.outLen = 0)) ∧
    (Nexts (exec (.sidingPop i) s) (fun t => t.sbx.siding =
      (if i = 0 then s.sbx.siding.drop 1 else dropFirst (fun x => x.inst == i) s.sbx.siding) ∧
      t.sbx.store = s.sbx.store))

/-- R206 to R210, R219, R231: the peat commands and BASE_MW_UPDATE. -/
def Obligations.ThePeatBankMovesAsItsStateTableSays : Prop :=
  ∀ (s : State) (mv q fall eIn eCh : Nat),
    let p := s.pwr
    (p.peat = .ramp → Nexts (exec .peatRampElapsed s) (fun t => t.pwr.peat = .charging ∧ t.pwr.chgEn = true)) ∧
    (p.peat = .charging → vTarget p ≤ mv → Nexts (exec (.peatTargetReached mv) s) (fun t => t.pwr.peat = .ready ∧
      t.pwr.measAsked = (p.measAsked || p.cMeas == 0))) ∧
    (p.peat ≠ .unfused → 0 < p.vmaxDv → p.vmaxDv * 100 * 105 < mv * 100 →
      Nexts (exec (.peatOvervoltage mv) s) (fun t =>
      t.pwr.peat = .fault ∧ t.pwr.chgEn = false ∧ (live t Reg.FTL_HEALTH 23 16).testBit 4 = true)) ∧
    (mv * 100 ≤ p.vmaxDv * 100 * 105 → vTarget p * 102 < mv * 100 → Nexts (exec (.peatOvervoltage mv) s) (fun t =>
      t.pwr.peat = p.peat ∧ t.pwr.chgEn = false)) ∧
    (p.peat = .charging → mv < vfloorMv s → Nexts (exec (.peatFloorTimeout mv) s) (fun t => t.pwr.peat = .fault ∧
      t.pwr.chgEn = false)) ∧
    (Nexts (exec .measRequest s) (fun t => t.pwr = { p with measAsked := true })) ∧
    (p.peat = .ready → reserveMj s * 100 ≤ usableAt s p.vMv * 92 → Nexts (exec .measurementDue s) (fun t =>
      t.pwr.peat = .measuring ∧ t.pwr.chgEn = false ∧ t.pwr.disEn = true)) ∧
    (p.peat ≠ .ready ∨ usableAt s p.vMv * 92 < reserveMj s * 100 → Nexts (exec .measurementDue s) (fun t =>
      t.pwr.peat = p.peat ∧ t.pwr.measAsked = true ∧
      live t Reg.PWR_MEAS_STATUS 23 16 = min (live s Reg.PWR_MEAS_STATUS 23 16 + 1) 255)) ∧
    (p.peat = .measuring → 0 < fall → Nexts (exec (.measurementDone q fall) s) (fun t =>
      t.pwr.cMeas = q * 1000 / fall ∧ t.pwr.disEn = false ∧
      t.pwr.peat = if t.pwr.full * 100 / 125 ≤ fixedMj s then .fault else .charging)) ∧
    (p.peat = .measuring → Nexts (exec .measurementTimeout s) (fun t => t.pwr.peat = .charging ∧
      t.pwr.cMeas = p.cMeas ∧ t.pwr.disEn = false ∧ live t Reg.PWR_MEAS_STATUS 25 24 = 2)) ∧
    (Nexts (exec (.baseMwUpdate eIn eCh) s) (fun t => 2000 ≤ t.pwr.baseMw ∧ (t.pwr.baseMw : Int) =
      max 2000 ((7 * (p.baseMw : Int) + ((eIn : Int) - eCh - ((p.ests.drop 1).sum / 1000 : Nat))) / 8)))

/-- R199 to R201, R220 to R222: the domain commands, OPERATING_POINT_CHANGE, SENSOR_SAMPLE. -/
def Obligations.DomainsPointsAndTheThermalStageFollowTheirRules : Prop :=
  ∀ (s : State) (g k u point mhz : Nat) (ok : List Nat) (temps : List Int),
    let i := islandAt s k
    let limit : Int := eff s Reg.PWR_THERM_CFG 7 0
    let hot : Int → Prop := fun t => ∀ n < 16, temps.getD n 0 + (s.pwr.offsets.getD n 0 : Nat) ≤ t
    (k ∈ groupIslands s g → (∀ j ∈ groupIslands s g, (islandAt s j).dom = .on ∧ (islandAt s j).idleLimit ≠ 0 ∧
        (islandAt s j).idleLimit ≤ (islandAt s j).idle) →
      Nexts (exec (.domainRetention g) s) (fun t => (islandAt t k).dom = .ret ∧ (islandAt t k).mhz = 0 ∧
        (islandAt t k).retSince = s.now)) ∧
    (k ∈ groupIslands s g → (∀ j ∈ groupIslands s g, (islandAt s j).dom = .ret ∧ (islandAt s j).gateMs ≠ 0 ∧
        ∀ v ∈ islandUnits j, (unitOf s v).state = .idle ∨ (unitOf s v).state = .absent ∨
          (unitOf s v).state = .offline) →
      Nexts (exec (.domainGateOff g) s) (fun t => (islandAt t k).dom = .off ∧ (islandAt t k).mhz = 0)) ∧
    (islandOf (hwUnit s u) = k → i.dom ≠ .on → k ∈ groupIslands s i.group → wakeBarred s k = false →
      Nexts (exec (.domainWake u ok) s) (fun t => ∀ j ∈ groupIslands s i.group,
        (islandAt t j).dom = .on ∧
        (searchIslands.contains j = false → (islandAt t j).mhz = (islandAt s j).planMhz))) ∧
    (wakeBarred s (islandOf (hwUnit s u)) = true → exec (.domainWake u ok) s = .next s) ∧
    (isIslandKey k = true → i.dom = .on → point = pointFor k i.minPoint mhz → mhz ≤ pointMhz k point →
      Nexts (exec (.operatingPointChange k point mhz) s) (fun t =>
        (∀ j ∈ changesWith k, (islandAt s j).dom = .on → (islandAt t j).point = point ∧ (islandAt t j).mhz = mhz) ∧
        ∀ j, j ∉ changesWith k → islandAt t j = islandAt s j)) ∧
    (s.boot.off = false → (∀ r ∈ temps, r < 130) →
      (∀ n < 16, temps.getD n 0 + (s.pwr.offsets.getD n 0 : Nat) < 120) →
      Nexts (exec (.sensorSample temps) s) (fun t => hot t.pwr.tModel ∧
        (∃ n < 16, t.pwr.tModel = temps.getD n 0 + (s.pwr.offsets.getD n 0 : Nat)) ∧
        (limit + 6 ≤ t.pwr.tModel → t.pwr.thermStage = 2) ∧ (limit + 3 ≤ t.pwr.tModel → 1 ≤ t.pwr.thermStage) ∧
        (t.pwr.tModel ≤ limit + 1 → t.pwr.thermStage = 0) ∧ t.pwr.powerLoss = s.pwr.powerLoss)) ∧
    (s.boot.off = false → s.pwr.powerLoss = false → (∀ r ∈ temps, r < 130) →
      (∃ n < 16, 120 ≤ temps.getD n 0 + (s.pwr.offsets.getD n 0 : Nat)) →
      Nexts (exec (.sensorSample temps) s) (fun t => t.pwr.powerLoss = true ∧ t.pwr.thermHold = true)) ∧
    (s.boot.off = false → (∃ r ∈ temps, 130 ≤ r) → Nexts (exec (.sensorSample temps) s) (fun t =>
      t.boot.off = true ∧ t.pwr.thermTrip = true ∧ t.pwr.holdupEn = false))

/-- R208, R223, R766: VIN12_LOW, PWRDIS_ASSERT, FLUSH_DIRTY_FENCE_TIMEOUT, FLUSH_END, INPUT_RETURN, BROWN_OUT. -/
def Obligations.PowerLossRunsItsFlushInOrder : Prop :=
  ∀ (s : State) (mv k c : Nat),
    let declared := fun (t : State) => t.pwr.powerLoss = true ∧ t.pwr.rbGate = false ∧ t.pwr.chgEn = false ∧
      t.pwr.holdupEn = true ∧ (peatDown s.pwr.peat = false → t.pwr.peat = .holdup) ∧ t.sbx.flushMode = true ∧
      (linkOf t 0).up = false ∧ (linkOf t 1).up = false
    (s.boot.off = false → s.pwr.powerLoss = false → mv < 10200 → Nexts (exec (.vin12Low mv) s) declared) ∧
    (s.boot.off = false → s.pwr.powerLoss = false → Nexts (exec .pwrdisAssert s) declared) ∧
    (s.pwr.powerLoss = true → s.pwr.flushStep = 3 → Nexts (exec .flushDirtyFenceTimeout s) (fun t =>
      t.pwr.flushStep = 4 ∧ (k < 0xE8 → step4Unit s k = true → (Tab.get? s.pwr.islands k).isSome = true →
        (islandAt t k).dom = .off))) ∧
    (s.pwr.powerLoss = true → s.pwr.flushStep < 8 → s.boot.off = false → s.boot.abandoned = false →
      Nexts (exec (.flushEnd mv) s) (fun t => t.pwr.flushStep = 8 ∧ t.boot.mark = 2 ∧ t.ftl.closed = true ∧
        (∀ u r, Tab.get? t.dev.units u = some r → r.recordedGen = r.gen) ∧
        (c < 4 → dramIn t c = false) ∧ ((Tab.get? s.pwr.islands 0).isSome = true → (islandAt t 0).dom = .off))) ∧
    (s.pwr.powerLoss = true → s.pwr.flushStep = 8 → s.pwr.thermHold = false → s.boot.off = false →
      s.boot.abandoned = false → Nexts (exec .inputReturn s) (fun t => t.pwr.powerLoss = false ∧
        t.boot.phase = .rom ∧
        t.boot.kind = 2 ∧ t.boot.cause = 0x10 ∧ (s.pwr.peat = .holdup → t.pwr.peat = .ramp))) ∧
    (Nexts (exec .brownOut s) (fun t => t.boot.off = true ∧ t.pwr.holdupEn = false ∧ t.pwr.rbGate = false ∧
      t.pwr.chgEn = false ∧ t.pwr.disEn = false ∧ t.boot.sbReady = false ∧
      (k < 0xE8 → (Tab.get? s.pwr.islands k).isSome = true → (islandAt t k).dom = .off)))

/-- R241 to R254, R275, R276, R291, R298, R322, R323: the flash channel commands outside lines. -/
def Obligations.FlashChannelsTrainDecodeProgramAndErase : Prop :=
  ∀ (s : State) (k v op g p tier die block : Nat) (r : RdOp) (pg : OPage) (rest : List OPage) (e : Entry)
  (dense : Bool),
    let c := chanOf s k
    let a := 0x40 * k
    let u := unitOf s k
    let entries := eff s (Reg.FCH_CH_CFG + a) 11 8
    ((c.state = .training ∨ c.state = .retraining) → Nexts (exec (.flashTrainPassDone k true v) s) (fun t =>
      (chanOf t k).state = .ready ∧ (chanOf t k).rate = c.tryRate ∧ (chanOf t k).trainTemp = s.pwr.tModel ∧
      (chanOf t k).saved = c.saved.set c.tryRate v ∧ (chanOf t k).below = decide (c.tryRate < targetRate s k))) ∧
    ((c.state = .training ∨ c.state = .retraining) → c.tryRate ≠ 0 →
      exec (.flashTrainPassDone k false v) s = .next (setChan s k { c with tryRate := c.tryRate - 1 })) ∧
    ((c.state = .training ∨ c.state = .retraining) → c.tryRate = 0 → c.programs = [] → c.sluicePage = none →
      c.densePage = none → u.held = [] → (recentIncs s u).length < 2 →
      Nexts (exec (.flashTrainPassDone k false v) s) (fun t => (chanOf t k).state = .offline ∧
        (unitsOn s ((s.fch.losses ++ [(k, 32)]).headD (k, 32)) ≠ [] → t.fch.losses = s.fch.losses ++ [(k, 32)]) ∧
          (unitOf t k).state = .offline ∧
        (u.state = .active → (unitOf t k).gen = (u.gen + 1) % 65536))) ∧
    (c.state = .ready → c.due = true → c.reads = [] → c.programs = [] → c.erasing = [] → c.drift = false →
      exec (.flashRetrainBegin k) s = .next (setChan s k
        { c with state := .retraining, due := false, tryRate := targetRate s k })) ∧
    (c.reads[op]? = some r → stillRuns s r.tag = true → s.tst.injections = [] → r.tier < 4 →
      pageLost s r.page = false →
      (r.tier ≠ 1 ∨ ((c.reads.filter (fun x => x.tier == 2 || x.tier == 3)).length < 8 ∧
        entries ≤ r.retries + 1)) →
      exec (.codewordDecode k op false) s =
        .next (setChan s k { c with reads := c.reads.set op { r with tier := r.tier + 1 } })) ∧
    (c.reads[op]? = some r → stillRuns s r.tag = true → s.tst.injections = [] → r.tier = 1 →
      pageLost s r.page = false →
      r.retries + 1 < entries → exec (.codewordDecode k op false) s =
        .next (setChan s k { c with reads := c.reads.set op { r with retries := r.retries + 1 } })) ∧
    (c.reads[op]? = some r → stillRuns s r.tag = true → s.tst.injections = [] → r.tier < 4 →
      pageLost s r.page = false →
      1 < r.left → Nexts (exec (.codewordDecode k op true) s) (fun t =>
        (chanOf t k).reads = c.reads.set op { r with
          left := r.left - 1, retries := 0, tier := 0, worst := max r.worst r.tier } ∧
        (r.tier = 1 → live t (Reg.FCH_CH_RETRY + a) 15 0 = satAdd 16 (live s (Reg.FCH_CH_RETRY + a) 15 0) 1))) ∧
    (k < 32 → c.reads[op]? = some r → stillRuns s r.tag = true → s.tst.injections = [] → r.tier = 4 →
      entryOf s r.tag = some e → isLast s e r.step = false → Nexts (exec (.codewordDecode k op false) s) (fun t =>
        failedWith t e r.tag 0x0F k ∧ (chanOf t k).reads = c.reads.eraseIdx op)) ∧
    (curPage s k dense = some pg → mayIssue c = true → parityCh s pg.group pg.page ≠ k → s.pwr.powerLoss = false →
      (∀ x ∈ pg.slots, stillWanted s x = true) →
      Nexts (exec (.pageSealTimeout k dense) s) (fun t => curPage t k dense = none ∧
        t.ftl.nextSeq = s.ftl.nextSeq + pg.slots.length ∧
        live t Reg.FTL_PACK 15 0 = satAdd 16 (live s Reg.FTL_PACK 15 0) 1 ∧
        ∃ l, (chanOf t k).programs = c.programs ++ [{ pg with slots := l }] ∧
          l.map (·.seq) = List.range' s.ftl.nextSeq pg.slots.length)) ∧
    (c.programs = pg :: rest → c.erasing.contains (pg.group / 65536, memberBlock s pg.group k) = false →
      s.tst.injections = [] → s.fch.stalled = [] →
      pg.page < dataPages s (bgOf s pg.group).dense → dataPages s (bgOf s pg.group).dense < 4096 →
      Nexts (exec (.programStatus k true) s) (fun t => (chanOf t k).programs = rest ∧
        Tab.get? t.fch.pages (groupPage s pg.group k pg.page) = some pg.slots)) ∧
    (∀ (x : FSlot) (n : Nat) (y : Staged), c.programs = pg :: rest →
      c.erasing.contains (pg.group / 65536, memberBlock s pg.group k) = false → s.tst.injections = [] →
      s.ftl.jpages.length + ceilDiv (s.ftl.held.length + 1) 252 ≤ 2048 →
      (∀ j, Tab.get? s.ftl.stagedAt x.idx = some j → j ≤ n) →
      s.fch.stalled = [] → pg.slots = [x] →
      x.kind = 1 → x.stg = some n → Tab.get? s.ftl.staging n = some y → y.superseded = false → y.tag = none →
      let m : MEntry := {
        page := groupPage s pg.group k pg.page, quarter := x.quarter, cls := x.cls, seqTail := x.seq % 65536 }
      Nexts (exec (.programStatus k true) s) (fun t => Tab.get? t.ftl.map x.idx = some m ∧
        Tab.get? t.ftl.staging n = none ∧ Tab.get? t.ftl.stagedAt x.idx = none ∧
        t.ftl.held = s.ftl.held ++ [{ type := 1, idx := x.idx, entry := some m, tag := x.tag, stg := some n }])) ∧
    (c.programs = pg :: rest → c.erasing.contains (pg.group / 65536, memberBlock s pg.group k) = true →
      ∀ b, exec (.programStatus k b) s = .next s) ∧
    (c.programs = pg :: rest → c.erasing.contains (pg.group / 65536, memberBlock s pg.group k) = false →
      s.tst.injections = [] →
      Nexts (exec (.programStatus k false) s) (fun t =>
      (k, pg.group / 65536, memberBlock s pg.group k) ∈ t.ftl.retired)) ∧
    (Nexts (exec (.eraseStatus k die block false) s) (fun t => (k, die, block) ∈ t.ftl.retired)) ∧
    (s.tst.injections = [] → s.ftl.map = [] → Nexts (exec (.eraseStatus k die block true) s) (fun t =>
      t.fch.pages = Tab.keep s.fch.pages (fun j _ => j / 4096 != pageKey k die block 0 / 4096) ∧
      (die, block) ∉ (chanOf t k).erasing)) ∧
    (1 ≤ tier → tier ≤ 4 → (bgOf s g).isClosed = true → (Tab.get? s.fch.pages (groupPage s g k p)).isSome = true →
      Nexts (exec (.patrolRead k g p tier) s) (fun t =>
      let w := (if tier ≤ 2 then Reg.FCH_CH_RETRY else Reg.FCH_CH_RECOVER) + a
      (tier % 2 = 1 → live t w 15 0 = satAdd 16 (live s w 15 0) 1) ∧
      (tier % 2 = 0 → live t w 31 16 = satAdd 16 (live s w 31 16) 1)))

/-- R256, R258, R294 to R304, R316, R320, R321, R327: the map engine and the parity engines. -/
def Obligations.MapEngineJournalsCheckpointsAndRelocates : Prop :=
  ∀ (s : State) (j g p ch : Nat) (q : JPage) (bad fails : List Nat) (tiers : List (Nat × Nat)) (st : Stripe)
  (l : List FSlot) (x : BGroup),
    (s.ftl.jpages = [q] → q.jseq = j → j ≠ s.ftl.nextJseq → q.first = true → q.second = false →
      Nexts (exec (.journalPageProgrammed j 1) s) (fun t => t.ftl.jpages = [] ∧
        t.ftl.journal = s.ftl.journal ++ q.recs.map (fun r => (j, r)))) ∧
    (s.ftl.jpages = [] → s.ftl.held ≠ [] → Nexts (exec (.journalPageProgrammed s.ftl.nextJseq 0) s) (fun t =>
      t.ftl.jpages = [{ jseq := s.ftl.nextJseq, recs := s.ftl.held.take 252, first := true }] ∧
      t.ftl.held = s.ftl.held.drop 252 ∧ t.ftl.nextJseq = s.ftl.nextJseq + 1 ∧ t.ftl.journal = s.ftl.journal)) ∧
    (let began := fun (t : State) =>
        t.ftl.ckpt = some (s.ftl.nextSeq, s.ftl.nextJseq) ∧ t.ftl.ckptSince = s.now;
      (s.ftl.ckpt = none → (∀ y ∈ s.fch.chans, y.2.programs = []) →
        Nexts (exec .ckptRequest s) began ∧ Nexts (exec .ckptSecondsExpire s) began) ∧
      (s.ftl.ckpt ≠ none → exec .ckptRequest s = .next s ∧ exec .ckptSecondsExpire s = .next s)) ∧
    (∀ s0 j0, let w := writeMap (beginCkpt s);
      let u := commitHeld w.1;
      u.ftl.ckpt = some (s0, j0) → w.2 = [] → u.fch.stalled = [] → u.ftl.secures = [] →
        Nexts (exec .checkpointBegin s) (fun t =>
        t.ftl.anchor = some {
          num := (u.ftl.anchor.map
            (·.num)).getD 0 + 1, s0 := s0, j0 := j0, jend := u.ftl.nextJseq, map := s.ftl.map,
          places := u.ftl.mapAt } ∧
        t.ftl.ckpt = none ∧ t.ftl.journal = u.ftl.journal.filter (fun r => decide (j0 ≤ r.1)) ∧
        t.ftl.map = u.ftl.map ∧ t.ftl.histSaved = u.ftl.hist)) ∧
    (let u := clearLosses (copyGroup s g bad tiers);
      mayRelocate s g = true → eraseReady u g = true → u.fch.stalled = [] →
      Nexts (exec (.relocateGroup g bad { tiers := tiers }) s) (fun t =>
        t.fch.pages = Tab.keep u.fch.pages (fun k _ => groupOf u k != g || blockRetired u k) ∧
          (bgOf t g).reads = 0 ∧
        (bgOf t g).present = [] ∧ (bgOf t g).state = (if (bgOf u g).state = .retired then .retired else .free) ∧
        (bgOf t g).ecDense + (bgOf t g).ecSluice = (bgOf u g).ecDense + (bgOf u g).ecSluice + 1)) ∧
    (let u := clearLosses (copyGroup s g bad tiers);
      mayRelocate s g = true → eraseReady u g = false →
        exec (.relocateGroup g bad { eraseFails := fails, tiers := tiers }) s =
        .next (setBg u g { bgOf u g with takeFirst := max 2 (bgOf u g).takeFirst })) ∧
    (mayRelocate s g = false → exec (.relocateGroup g bad { eraseFails := fails, tiers := tiers }) s = .next s) ∧
    (let closed := Tab.keep s.ftl.groups (fun _ x => x.isClosed && x.dense);
      leastBy (fun p => wearOf s p.2) closed = some (g, x) → s.ftl.lastLevel + 100000 ≤ s.now →
      wearSpreads s = true →
      Nexts (exec .staticLevelling s) (fun t => bgOf t g = { x with takeFirst := max 1 x.takeFirst } ∧
        t.ftl.lastLevel = s.now)) ∧
    (let b := tempBin (s.ftl.maxTemp.getD s.pwr.tModel);
      s.ftl.hist.length = 16 → s.ftl.since.length = 7 → Nexts (exec .minuteTick s) (fun t =>
        t.ftl.hist = s.ftl.hist.set b (min 0xFFFFFFFF (s.ftl.hist.getD b 0 + 1)) ∧
        t.ftl.since.getD 6 0 = s.ftl.since.getD 6 0 + 1 ∧ t.ftl.maxTemp = none ∧
        t.ftl.minutesUnsaved = (if 60 ≤ s.ftl.minutesUnsaved + 1 then 0 else s.ftl.minutesUnsaved + 1))) ∧
    (let key := g * 4096 + p
      let par := parityCh s g p
      let bs := fit 19264 (pageCodewords (chanOf s ch).code l)
      let st' : Stripe := { st with
        summed := st.summed ++ [ch], parity := if st.parity.isEmpty then bs else xorBytes st.parity bs }
      let whole := (membersOf s g p).all (fun k =>
        k == par || st'.summed.contains k || st.failed.contains k || !(groupChans s g).contains k);
      Tab.get? s.fch.stripes key = some st → memberSlots s g p ch = some l → ch ∈ st.members → ch ∉ st.summed →
      (whole = true → (groupChans s g).contains par = true →
        Nexts (exec (.parityEngineStep (178 + stripeNo g p % 2) (some (g, p, ch))) s) (fun t =>
          Tab.get? t.fch.stripes key = none ∧ Tab.get? t.fch.pages (groupPage s g par p) =
            some [{ cls := 3, kind := 0, idx := 0, bytes := st'.parity }])) ∧
      (whole = false → Nexts (exec (.parityEngineStep (178 + stripeNo g p % 2) (some (g, p, ch))) s) (fun t =>
          Tab.get? t.fch.stripes key = some st' ∧ t.fch.pages = s.fch.pages))) ∧
    (∀ k h n s1, Tab.get? s.fch.stripes (g * 4096 + p) = some st →
      (chansFrom s g).findSome? (fun k => (allocPage s k false [] 256).map (fun r => (k, r))) = some (k, h, n, s1) →
      h * 4096 + n ≠ g * 4096 + p → parityCh s1 h n ≠ k →
      Nexts (exec (.partialParityTimeout g p) s) (fun t =>
        (∃ pg, (chanOf t k).programs = (chanOf s1 k).programs ++ [pg] ∧ pg.group = h ∧ pg.page = n ∧
          pg.slots.map (fun x => (x.kind, x.bytes)) = [(7, st.parity)]) ∧
        Tab.get? t.fch.stripes (g * 4096 + p) = some { st with since := s.now })) ∧
    (∀ (u d : Nat) (pk : Packet) (e : Entry) (y : LStep) (rest : List Work), packetWaits s u pk e y rest →
      stepKind y = 0x0D → y.mode = 0 → worksNow s u = true → pk.prov = false → (ctxOf s pk.tag pk.step).held = [] →
      unitAt s e (pk.step + 1) (pk.off / 4096) = some d →
      Nexts (exec (.parityEngineStep u none) s) (fun t => inboxOf t u = rest ∧
        t.dev.trunk = s.dev.trunk ++ [sentTo s e pk.tag pk.step u d pk.off pk.data pk.station pk.prov]))

/-- R246, R278, R279, R289 to R291, R330, R331, R333: flash channels, staging buffers and the map engine as stations. -/
def Obligations.FlashStationsReadStageWriteAndDiscard : Prop :=
  ∀ (s : State) (u ch tag j n first len d idx q cls tail : Nat) (e : Entry) (y : LStep) (rest : List Work)
  (pk : Packet)
      (raw bs : Bytes) (failing : List Nat) (lost : SecureEnv),
    (startWaits s u tag j first len e y rest → stepKind y = 0x01 → y.mode = 0 → readsNow s u = true →
      first / 4096 = n →
      unitAt s e (j + 1) n = some d →
      (Tab.get? e.refs n = some (.unmapped idx) → Nexts (exec (.read u) s) (fun t =>
        sends s t (sentTo s e tag j u d (4096 * n) (zeros 4096) (slotStation idx 3 true false) false))) ∧
      (Tab.get? e.refs n = some (.staged idx cls bs) → Nexts (exec (.read u) s) (fun t =>
        sends s t (sentTo s e tag j u d (4096 * n) bs (slotStation idx cls true false) false)))) ∧
    (startWaits s u tag j first len e y rest → stepKind y = 0x01 → y.mode = 0 → readsNow s u = true →
      first / 4096 = n →
      Tab.get? e.refs n = some (.flash idx q 0 cls tail) → (chanOf s u).programs = [] → (chanOf s u).erasing = [] →
      Nexts (exec (.read u) s) (fun t => inboxOf t u = rest ∧ (chanOf t u).reads = (chanOf s u).reads ++ [{
        tag := tag, step := j, n := n, idx := idx, page := q, quarter := 0, cls := cls, seqTail := tail,
        left := codewordsOf 0 cls, tier := if pageLost s q then 4 else 0 }])) ∧
    (startWaits s u tag j first len e y rest → stepKind y = 0x01 → y.mode = 3 → readsNow s u = true →
      first / 4096 = n →
      unitAt s e (j + 1) n = some d → Tab.get? e.refs n = some (.flash idx q 0 cls tail) →
      Nexts (exec (.readRaw u raw) s) (fun t => ∃ l, t.dev.trunk = s.dev.trunk ++ l ∧
        ((l.filter (fun x => !x.endTok)).map (·.data)).flatten =
          fit (codewordBytes (chanOf s u).code * codewordsOf 0 cls) raw)) ∧
    (let held := fun (t : State) => inboxOf t ch = rest ∧
        (ctxOf t pk.tag pk.step).held = (ctxOf s pk.tag pk.step).held ++ [pk];
      packetWaits s ch pk e y rest → s.ftl.state ≠ .readOnly → packetFits pk = true →
      (stepKind y = 0x01 → y.mode = 1 → mayIssue (chanOf s ch) = true → Nexts (exec (.writeSluice ch) s) held) ∧
      (stepKind y = 0x01 → y.mode = 2 → mayIssue (chanOf s ch) = true → Nexts (exec (.writeDense ch) s) held) ∧
      (stepKind y = 0x0F → y.mode = 0 → worksNow s ch = true → Nexts (exec (.readWriteBack ch) s) held)) ∧
    (∀ (pg : OPage) (h : Packet) (x : FSlot),
      let placed := fun (dense : Bool) (t : State) => curPage t ch dense = some { pg with
          slots := pg.slots ++ [{ x with quarter := pg.used }],
          used := pg.used + x.cls + 1, since := s.now } ∧
        ∃ e', entryOf t pk.tag = some e' ∧ e'.left = e.left + 1 ∧ e'.out = e.out;
      inboxOf s ch = .pkt pk :: rest →
      pk.endTok = true → pk.prov = false → entryOf s pk.tag = some e → e.fenced = false → e.revoking = false →
      (stepsOf s e)[pk.step]? = some y → stepKind y = 0x01 → mayIssue (chanOf s ch) = true →
      tokenReady s pk pk.step = true → (ctxOf s pk.tag pk.step).held = [h] → h.dest = ch →
      slotOfPacket s e h = some x → x.kind ≠ 4 → pg.used + x.cls + 1 < 16 →
      (y.mode = 1 → curPage s ch false = some pg → Nexts (exec (.writeSluice ch) s) (placed false)) ∧
      (y.mode = 2 → curPage s ch true = some pg → Nexts (exec (.writeDense ch) s) (placed true))) ∧
    (∀ (h : Packet), u = 186 ∨ u = 187 → inboxOf s u = .pkt pk :: rest → pk.endTok = true → pk.prov = false →
      entryOf s pk.tag = some e → e.fenced = false → e.revoking = false → (stepsOf s e)[pk.step]? = some y →
      stepKind y = 0x0F → y.mode = 0 → worksNow s u = true → isLast s e pk.step = true →
      tokenReady s pk pk.step = true → (ctxOf s pk.tag pk.step).held = [h] → cleanTicket s e →
      Nexts (exec (.readWriteBack u) s) (fun t => endedWith s t pk.tag 0 4096 ∧
        Tab.get? t.ftl.stagedAt (stIndex h.station) = some s.ftl.nextStaged ∧
        ∃ x, Tab.get? t.ftl.staging s.ftl.nextStaged = some x ∧ x.idx = stIndex h.station ∧ x.buffer = u - 186 ∧
          x.cls = packetClass h ∧ x.bytes = h.data ∧ x.dirty = (lineOf s e.t.line).dirty)) ∧
    (packetWaits s u pk e y rest → stepKind y = 0x0F → y.mode = 1 → worksNow s u = true → s.ftl.state ≠ .readOnly →
      packetFits pk = true → pk.prov = false → (ctxOf s pk.tag pk.step).held = [] →
      unitAt s e (pk.step + 1) (pk.off / 4096) = some d → Nexts (exec (.writeThrough u) s) (fun t =>
        t.dev.trunk = s.dev.trunk ++ [sentTo s e pk.tag pk.step u d pk.off pk.data pk.station pk.prov] ∧
        Tab.get? t.ftl.staging s.ftl.nextStaged = some {
          idx := stIndex pk.station, buffer := u - 186, cls := packetClass pk, bytes := pk.data, dirty := false,
          tag := some pk.tag })) ∧
    (∀ (k : Nat) (x : Staged) (l : Tab Staged), startWaits s u tag j first len e y rest → stepKind y = 0x0F →
      y.mode = 2 →
      worksNow s u = true → 0 < len → len ≤ 4096 → unitAt s e (j + 1) (first / 4096) = some d →
      Tab.keep s.ftl.staging (fun _ x => !x.superseded && !x.isSealed && x.sent.isNone && x.tag.isNone) =
        (k, x) :: l →
      Nexts (exec (.drain u) s) (fun t => sends s t
        (sentTo s e tag j u d (4096 * (first / 4096)) x.bytes (slotStation x.idx x.cls true false) false))) ∧
    (let unmapped := fun (t : State) =>
        (∀ i < ceilDiv len 4096, Tab.get? t.ftl.map (descIndex s e.t.source (first / 4096 + i)) = none ∧
          Tab.get? t.ftl.stagedAt (descIndex s e.t.source (first / 4096 + i)) = none) ∧
        t.ftl.held = s.ftl.held ++ (List.range (ceilDiv len 4096)).map (fun i =>
          { type := 3, idx := descIndex s e.t.source (first / 4096 + i) });
      startWaits s 189 tag j first len e y rest → stepKind y = 0x11 → worksNow s 189 = true →
      s.ftl.jpages.length + ceilDiv (s.ftl.held.length + ceilDiv len 4096) 252 ≤ 2048 →
      (y.mode = 0 → Nexts (exec .deallocate s) unmapped) ∧
      (y.mode = 1 → (ctxOf s tag j).inBytes + len < e.t.len →
        Nexts (exec (.secureDeallocate failing lost) s) unmapped)) ∧
    (startWaits s 189 tag j first len e y rest → stepKind y = 0x11 → y.mode = 1 → worksNow s 189 = true →
      s.ftl.state ≠ .readOnly → portionsOf e.t ≤ e.admitted → e.t.len ≤ (ctxOf s tag j).inBytes + len →
      s.ftl.secures = [] → Nexts (exec (.secureDeallocate failing lost) s) (fun t => ∀ x ∈ t.ftl.secures,
        x.ns = e.t.source.ns ∧ x.tag = some tag ∧ x.step = 5 ∧ x.groups.all (eraseReady t) = false)) ∧
    (startWaits s 189 tag j first len e y rest → stepKind y = 0x11 → y.mode = 2 → worksNow s 189 = true →
      (durableTo s e.mark = true → portionsOf e.t ≤ e.admitted → e.t.len ≤ (ctxOf s tag j).inBytes + len →
        isLast s e j = true → cleanTicket s e → Nexts (exec .durable s) (fun t => endedWith s t tag 0 0)) ∧
      (durableTo s e.mark = false → Nexts (exec .durable s) (fun t => entryOf t tag = some e ∧
        inboxOf t 189 = rest ++ [.start tag j first len]))) ∧
    (∀ (kind page : Nat) (l : List (Nat × Nat)), startWaits s 189 tag j first len e y rest → stepKind y = 0x11 →
      y.mode = 3 → worksNow s 189 = true → 0 < len → len ≤ 4096 → unitAt s e (j + 1) (first / 4096) = some d →
      dirtyPages s = (kind, page) :: l → Nexts (exec .mapWrite s) (fun t => sends s t
        (sentTo s e tag j 189 d (4096 * (first / 4096)) (mapPageBytes s kind page)
          (slotStation page 3 true false) false)))

/-- R272 to R274, R348 to R358: SLOT_COMPRESS, SLOT_DECOMPRESS, STREAM_COMPRESS, STREAM_DECOMPRESS. -/
def Obligations.CompressionEnginesMakeAndOpenSlotsAndRecords : Prop :=
  ∀ (s : State) (u d : Nat) (p : Packet) (e : Entry) (y : LStep) (rest : List Work) (ok : Bool),
    let c := ctxOf s p.tag p.step
    let code := Config.lzCode p.data
    let cls := classFor code.length
    let idx := stIndex p.station
    let all := fun (t : State) (bs : Bytes) => ∃ l, t.dev.trunk = s.dev.trunk ++ l ∧ (l.map (·.data)).flatten = bs ∧
      ∀ q ∈ l, q.dest = d ∧ q.src = u ∧ q.tag = p.tag ∧ q.prov = true
    packetWaits s u p e y rest → stepKind y = 0x06 → worksNow s u = true → isLast s e p.step = false →
    (∀ n, unitAt s e (p.step + 1) n = some d) → c.buf = [] →
    (y.mode = 0 → p.data.length = 4096 → cls ≠ 3 → Config.lzDecode code = p.data →
      Nexts (exec (.slotCompress u true) s) (fun t => inboxOf t u = rest ∧
      t.dev.trunk = s.dev.trunk ++ [sentTo s e p.tag p.step u d (4096 * c.count) (slotBytes cls code p.data)
        (slotStation idx cls true false) (c.prov || p.prov)])) ∧
    (y.mode = 0 → p.data.length = 4096 → cls = 3 → Nexts (exec (.slotCompress u ok) s) (fun t =>
      t.dev.trunk = s.dev.trunk ++ [sentTo s e p.tag p.step u d (4096 * c.count) p.data
        (slotStation idx 3 true true)
        (c.prov || p.prov)])) ∧
    (y.mode = 0 → p.data.length = 4096 → cls ≠ 3 → ok = false ∨ Config.lzDecode code ≠ p.data →
      Nexts (exec (.slotCompress u ok) s) (fun t =>
      failedWith t e p.tag 0x07 u)) ∧
    (y.mode = 1 → stSlot p.station = true → stClass p.station = 3 → p.data.length = 4096 →
      Nexts (exec (.slotDecompress u none none) s) (fun t => t.dev.trunk = s.dev.trunk ++
        [sentTo s e p.tag p.step u d p.off p.data (slotStation idx 0 false false) p.prov])) ∧
    (y.mode = 1 → stSlot p.station = true → stClass p.station ≠ 3 → p.data.length = classBytes (stClass p.station) →
      leAt p.data 2 1 = 1 → leAt p.data 3 1 = 0 → 1 ≤ leAt p.data 0 2 →
      8 + leAt p.data 0 2 ≤ classBytes (stClass p.station) →
      let bs := Config.lzDecode (slice p.data 8 (leAt p.data 0 2))
      bs.length = 4096 → (crc32c bs).toNat = leAt p.data 4 4 →
        Nexts (exec (.slotDecompress u none none) s) (fun t =>
        t.dev.trunk = s.dev.trunk ++ [sentTo s e p.tag p.step u d p.off bs
          (slotStation idx 0 false false) p.prov])) ∧
    (y.mode = 1 → p.data.length ≠ classBytes (stClass p.station) →
      Nexts (exec (.slotDecompress u none none) s) (fun t =>
      failedWith t e p.tag 0x10 u ∧
        t.dev.trunk.filter (fun q => !q.revoke) = s.dev.trunk.filter (fun q => !q.revoke))) ∧
    (y.mode = 2 → p.data.length = 4096 → Config.lzDecode code = p.data → (limitOf e = 0 ∨
      c.outBytes + (streamRecord p.data).1.length ≤ limitOf e) →
      Nexts (exec (.streamCompress u true) s) (fun t => all t (streamRecord p.data).1)) ∧
    (∀ bs, y.mode = 3 → 16 ≤ p.data.length → recordHeadOk p.data = true → p.data.length = recordSize p.data →
      isZero p.data (16 + leAt p.data 2 2) (p.data.length - 16 - leAt p.data 2 2) = true →
      decodeRecord p.data (none, none) = .ok bs false →
        c.outBytes + bs.length ≤ streamBound e (c.inBytes + p.data.length) →
      Nexts (exec (.streamDecompress u [] []) s) (fun t => all t bs)) ∧
    (y.mode = 3 → 16 ≤ p.data.length → recordHeadOk p.data = false →
      Nexts (exec (.streamDecompress u [] []) s) (fun t => failedWith t e p.tag 0x10 u))

/-- R386 to R396: XTS_ENC, XTS_DEC, GCM_ENC, GCM_DEC, GCM_HOLD_ROOM_FREE. -/
def Obligations.CipherEnginesEncryptDecryptAndAuthenticate : Prop :=
  ∀ (s : State) (u d tag j st : Nat) (p : Packet) (e : Entry) (y : LStep) (rest : List Work) (waiting : List Nat),
    let c := ctxOf s p.tag p.step
    let key := keyOf s e
    let bs := xts (y.mode == 0) key (fld p.station 39 0) p.data
    let turned := fun (t : State) => inboxOf t u = rest ∧
      t.dev.trunk = s.dev.trunk ++ [sentTo s e p.tag p.step u d p.off bs p.station p.prov]
    let data := fun (l : List Packet) => ((l.filter (fun q => !q.endTok && !q.revoke)).map (·.data)).flatten
    (packetWaits s u p e y rest → stepKind y = 0x07 → worksNow s u = true → isLast s e p.step = false →
      (∀ n, unitAt s e (p.step + 1) n = some d) →
      c = {} →
      (y.mode = 0 → cipCheck s e 0 = none → duLen e = 0 → 512 ≤ p.data.length → bs ≠ [] →
        Nexts (exec (.xtsEnc u none) s) turned) ∧
      (y.mode = 1 → cipCheck s e 1 = none → duLen e = 0 → 512 ≤ p.data.length → bs ≠ [] →
        Nexts (exec (.xtsDec u none) s) turned) ∧
      (y.mode = 0 → cipCheck s e 0 = some st →
        Nexts (exec (.xtsEnc u none) s) (fun t => failedWith t e p.tag st u)) ∧
      (y.mode = 1 → cipCheck s e 1 = some st →
        Nexts (exec (.xtsDec u none) s) (fun t => failedWith t e p.tag st u))) ∧
    (inboxOf s u = .pkt p :: rest → p.endTok = true → entryOf s p.tag = some e → e.fenced = false →
      e.revoking = false →
      (stepsOf s e)[p.step]? = some y → stepKind y = 0x07 → worksNow s u = true → isLast s e p.step = false →
      (∀ n, unitAt s e (p.step + 1) n = some d) → tokenReady s p p.step = true → c.waitsHold = false →
        c.outBytes = 0 →
      gcmPart e = 0 → 32 ≤ c.acc.length →
      let text := slice c.acc (32 + gcmAadLen c.acc) (gcmTextLen c.acc)
      let aad := slice c.acc 32 (gcmAadLen c.acc)
      let j0 := gcmJ0 (slice c.acc 0 12)
      (y.mode = 2 → c.acc.length = 32 + gcmAadLen c.acc + gcmTextLen c.acc →
        Nexts (exec (.gcmEnc u none) s) (fun t =>
        let ct := gctr key (text.length / 16 + 1) (ctrAdd j0 1) text
        ∃ l, t.dev.trunk = s.dev.trunk ++ l ∧ data l = c.acc.take (32 + gcmAadLen c.acc) ++ ct ++
          fit (gcmTag key j0 (ghash (gcmH key) (beNat (natBe 16 (ghash (gcmH key) 0 aad))) ct) (gcmAadLen c.acc)
            text.length).length
          (gcmTag key j0 (ghash (gcmH key) (beNat (natBe 16 (ghash (gcmH key) 0 aad))) ct)
            (gcmAadLen c.acc) text.length))) ∧
      (∀ out, y.mode = 3 → c.acc.length = 32 + gcmAadLen c.acc + gcmTextLen c.acc + 16 → gcmHeld c.acc = true →
        gcmOpen key (slice c.acc 0 12) aad text (slice c.acc
          (32 + gcmAadLen c.acc + gcmTextLen c.acc) 16) = some out →
        Nexts (exec (.gcmDec u none) s) (fun t => ∃ l, t.dev.trunk = s.dev.trunk ++ l ∧ data l = out ∧
          ∀ q ∈ l, q.endTok = false → q.prov = c.prov)) ∧
      (y.mode = 3 → c.acc.length = 32 + gcmAadLen c.acc + gcmTextLen c.acc + 16 →
        gcmOpen key (slice c.acc 0 12) aad text (slice c.acc (32 + gcmAadLen c.acc + gcmTextLen c.acc) 16) = none →
        Nexts (exec (.gcmDec u none) s) (fun t => failedWith t e p.tag 0x08 u ∧
          ∃ l, t.dev.trunk = s.dev.trunk ++ l ∧ data l = []))) ∧
    ((unitOf s 181).state ≠ .bound → Tab.getD s.key.holdWait u [] = tag :: waiting → entryOf s tag = some e →
      stepInside s u tag = some j →
      (ctxOf s tag j).held = [] → holdUsed s u + holdNeed (gcmTextLen (ctxOf s tag j).acc) ≤ 262144 →
      Nexts (exec (.gcmHoldRoomFree u) s) (fun t => Tab.getD t.key.holdWait u [] = waiting ∧
        Tab.get? (Tab.getD t.key.hold u []) tag = some (holdNeed (gcmTextLen (ctxOf s tag j).acc)) ∧
        (ctxOf t tag j).waitsHold = false)) ∧
    ((unitOf s 181).state ≠ .bound → Tab.getD s.key.holdWait u [] = [] → exec (.gcmHoldRoomFree u) s = .next s)

/-- R416 to R428, R434: PASS, SINK and the feed commands. -/
def Obligations.DigestStationsAndTheFeedPortHash : Prop :=
  ∀ (s : State) (u d i : Nat) (p : Packet) (e : Entry) (y : LStep) (rest : List Work) (v : Word) (rcd : Bytes)
  (g : Feed),
    let c := ctxOf s p.tag p.step
    let f := feedOf s i
    let r := Reg.DGT_FEED_RESULT + 0x80 * i
    let done := fun (st : Nat) (t : State) => live t r 7 0 = st ∧ live t r 8 8 = 1 ∧ (feedOf t i).op = 0
    let hashed := (if dgtLen e = 0 then c.acc ++ p.data else (c.acc ++ p.data).take (dgtLen e))
    (packetWaits s u p e y rest → stepKind y = 0x08 → worksNow s u = true → c ≠ {} →
      (y.mode = 0 → unitAt s e (p.step + 1) (p.off / 4096) = some d → Nexts (exec (.pass u) s) (fun t =>
        inboxOf t u = rest ∧ (ctxOf t p.tag p.step).acc = hashed ∧ t.dev.trunk = s.dev.trunk ++
          [sentTo s e p.tag p.step u d p.off p.data p.station p.prov])) ∧
      (y.mode = 1 → Nexts (exec (.sink u) s) (fun t => inboxOf t u = rest ∧ (ctxOf t p.tag p.step).acc = hashed ∧
        t.dev.trunk = s.dev.trunk))) ∧
    (inboxOf s u = .pkt p :: rest → p.endTok = true → p.prov = false → entryOf s p.tag = some e → e.fenced = false →
      e.revoking = false → (stepsOf s e)[p.step]? = some y → stepKind y = 0x08 → y.mode = 1 → worksNow s u = true →
      isLast s e p.step = true → tokenReady s p p.step = true → c ≠ {} → (dgtLen e = 0 ∨ dgtLen e = c.inBytes) →
      cleanTicket s e → Nexts (exec (.sink u) s) (fun t => endedWith s t p.tag 0 128 ∧
        lmemRead t e.t.inst (fld (resultArea s e.t.inst) 27 0 * 4096 + 128 * p.tag) 128 =
          resultRecord p.tag e 0 c.acc.length (c.count == 1) (dgtDigest s e c.acc))) ∧
    (f.op = 1 → f.opened = false → (algSizes (fld (feedReg s i Reg.DGT_FEED_CTL) 15 8)).1 ≠ 0 →
      isHmac (fld (feedReg s i Reg.DGT_FEED_CTL) 15 8) = false → Nexts (exec (.feedStart i) s) (fun t => done 0 t ∧
        (feedOf t i).opened = true ∧ (feedOf t i).alg = fld (feedReg s i Reg.DGT_FEED_CTL) 15 8 ∧
          (feedOf t i).done = 0 ∧
        (feedOf t i).st = hashSeed (fld (feedReg s i Reg.DGT_FEED_CTL) 15 8) ∧ (feedOf t i).buf = [])) ∧
    (f.op = 1 → f.opened = false → (algSizes (fld (feedReg s i Reg.DGT_FEED_CTL) 15 8)).1 = 0 →
      Nexts (exec (.feedStart i) s) (fun t => done 0x10 t ∧ (feedOf t i).opened = false)) ∧
    (f.opened = true → exec (.feedW0 i v) s = .next (setFeed s i { f with w0 := v.toNat })) ∧
    (f.opened = true → f.last = none → exec (.feedW1 i v) s =
      .next (setFeed s i (feedPush f (natLe 4 f.w0 ++ natLe 4 v.toNat)))) ∧
    (f.opened = true → 1 ≤ v.toNat % 16 → v.toNat % 16 ≤ 8 → exec (.feedLast i v) s =
      .next (setFeed s i { f with last := some (v.toNat % 16) })) ∧
    (f.opened = true → f.key = none → f.len = 0 → v.toNat % 16 = 0 → isHmac f.alg = false →
      Nexts (exec (.feedLast i v) s) (fun t => done 0 t ∧ (feedOf t i).opened = false ∧ (feedOf t i).digest =
        fit (algSizes f.alg).1 (Config.hashFinal (algBase f.alg) f.st f.buf f.done))) ∧
    (f.opened = false → ∀ x ∈ [Instr.feedW0 i v, Instr.feedW1 i v, Instr.feedLast i v],
      exec x s = .next (bump s (Reg.DGT_ENG_COUNTS + 0x80 * i) 7 0 1)) ∧
    (f.op = 2 → f.opened = true → f.key = none → Tab.getD s.tru.tdi 0 .unlocked ≠ .error →
      Nexts (exec (.save i) s) (fun t => done 0 t ∧ (feedOf t i).opened = false ∧
        memRead (Tab.getD t.host 0 []) (feedAddr s i) 512 = saveHead 2 f ++ saveBody f ++ zeros 80)) ∧
    (f.op = 3 → f.opened = false → restoreParse s (fit 512 rcd) = .ok g → Nexts (exec (.restore i rcd) s) (fun t =>
      done 0 t ∧ feedOf t i = { g with op := 0 })) ∧
    (f.op = 4 → f.opened = true → Nexts (exec (.abandon i) s) (fun t => done 0 t ∧ (feedOf t i).opened = false ∧
      (feedOf t i).st = [] ∧ (feedOf t i).buf = []))

/-- R439 to R448, R451 to R458: the search unit. -/
def Obligations.SearchMatchesUpdatesScrubsAndCopies : Prop :=
  ∀ (s : State) (u d b n tag j g : Nat) (p : Packet) (e e' : Entry) (y : LStep) (rest : List Work)
      (l : List (Nat × SEntry)) (w : Nat × SEntry) (waiting : List Nat) (sp st : Nat) (rcd : Bytes)
      (copies : List (Bool × Option Bytes))
      (q : SlotBook) (m m' p1 p2 wait old : Nat) (r1 r2 : List Nat),
    let c := ctxOf s p.tag p.step
    let port := fun (t : State) => Tab.getD t.asu.slots.ports (asuPort u) []
    let comes := fun (mode : Nat) => packetWaits s u p e y rest ∧ stepKind y = 0x09 ∧ y.mode = mode ∧
      worksNow s u = true ∧ p.prov = false ∧ c.held = []
    let asks := fun (mode : Nat) => comes mode ∧ searchCheck s e mode p.data = .ok e' ∧ p.data.length = 32 ∧
      unitAt s e (p.step + 1) (c.outBytes / 4096) = some d
    let answers := fun (t : State) => inboxOf t u = rest ∧ t.asu.entries = s.asu.entries ∧
      port t = port s ++ keySlots (leAt p.data 16 8) ∧ ∃ q, t.dev.trunk = s.dev.trunk ++ [q] ∧
      q.dest = d ∧ q.src = u ∧ q.tag = p.tag ∧ q.off = c.outBytes ∧ q.data = resultOf s p.data
    let bad := fun (mode : Nat) => comes mode ∧ isLast s e p.step = false ∧ searchCheck s e mode p.data = .error st
    let fails := fun (t : State) => failedWith t e p.tag st u ∧ t.asu.entries = s.asu.entries
    (l.Pairwise (fun x z => x.1 < z.1) → winner l = some w →
      w ∈ l ∧ ∀ x ∈ l, x.2.prio < w.2.prio ∨ x.2.prio = w.2.prio ∧ w.1 ≤ x.1) ∧
    (winner l = none → l = []) ∧
    (asks 0 → Nexts (exec (.search4 ⟨u, {}⟩) s) answers) ∧
    (asks 1 → Nexts (exec (.search16 ⟨u, {}⟩) s) answers) ∧
    (asks 2 → Nexts (exec (.search64 ⟨u, {}⟩) s) answers) ∧
    (comes 3 → searchCheck s e 3 p.data = .ok e' → p.data.length = 64 → Nexts (exec (.update u) s) (fun t =>
        Tab.get? t.asu.entries (locationOf p.data) = entryOfRecord p.data ∧
        (∀ g', g' ≠ locationOf p.data → Tab.get? t.asu.entries g' = Tab.get? s.asu.entries g') ∧
        locationOf p.data ∉ t.asu.lost)) ∧
    (bad 0 → Nexts (exec (.search4 ⟨u, {}⟩) s) fails) ∧ (bad 1 → Nexts (exec (.search16 ⟨u, {}⟩) s) fails) ∧
    (bad 2 → Nexts (exec (.search64 ⟨u, {}⟩) s) fails) ∧ (bad 3 → Nexts (exec (.update u) s) fails) ∧
    (p1 < p2 → p2 < 4 → m &&& m' ≠ 0 → q.updates = [] → q.ports = [(p1, m :: r1), (p2, m' :: r2)] →
      (slotStep wait q).2 = [p2] ∧ Tab.getD (slotStep wait q).1.ports p1 [] = r1 ∧
      Tab.getD (slotStep wait q).1.ports p2 [] = m' :: r2) ∧
    (p1 < 4 → bitOf m b = true → q.ports = [(p1, m :: r1)] → q.updates = [(b, [old])] →
      (wait ≤ old → (slotStep wait q).2 = [p1] ∧ (slotStep wait q).1.updates = [] ∧
        Tab.getD (slotStep wait q).1.ports p1 [] = m :: r1) ∧
      (old < wait → (slotStep wait q).2 = [] ∧ (slotStep wait q).1.updates = [(b, [old + 1])] ∧
        Tab.getD (slotStep wait q).1.ports p1 [] = r1)) ∧
    (Tab.getD s.asu.holdWait n [] = tag :: waiting → entryOf s tag = some e → (stepsOf s e)[j]? = some y →
      (List.range (stepsOf s e).length).find? (fun j => (ctxOf s tag j).waitsHold) = some j →
      searchHoldUsed s n + searchHoldNeed e y ≤ 4194304 → Nexts (exec (.asuHoldRoomFree n) s) (fun t =>
        Tab.getD t.asu.holdWait n [] = waiting ∧
        Tab.get? (Tab.getD t.asu.hold n []) tag = some (searchHoldNeed e y) ∧ (ctxOf t tag j).waitsHold = false)) ∧
    (b < 64 → n < 8192 → g = 8192 * b + n → g ∉ s.asu.lost → updateInFlight s g = false →
      (∀ v, cleanShadow s g none copies = some v → Nexts (exec (.scrubRead b n 2 none copies) s) (fun t =>
        Tab.get? t.asu.entries g = v ∧ Tab.get? t.asu.shadow g = v ∧ t.asu.lost = s.asu.lost)) ∧
      (cleanShadow s g none copies = none → Nexts (exec (.scrubRead b n 2 none copies) s) (fun t =>
        t.asu.lost = s.asu.lost ++ [g] ∧ t.asu.entries = s.asu.entries)) ∧
      (∀ v, cleanShadow s g (some (entryOfRecord rcd)) copies = some v →
        Nexts (exec (.scrubRead b n 0 (some rcd) copies) s) (fun t => Tab.get? t.asu.entries g = v)) ∧
      (cleanShadow s g (some (entryOfRecord rcd)) copies = none →
        Nexts (exec (.scrubRead b n 0 (some rcd) copies) s) (fun t =>
          Tab.get? t.asu.entries g = entryOfRecord rcd))) ∧
    (s.asu.copies = [] → ∀ a, cleanShadow s g a copies = none) ∧
    (∀ a, (true, none) ∈ copies.take s.asu.copies.length → a = Tab.get? s.asu.shadow g →
      cleanShadow s g (some a) copies = some a) ∧
    (s.asu.copies ≠ [] → (bankOf s b).state = .copying → (bankOf s b).spare = some sp →
      Nexts (exec (.bankCopyDone b) s) (fun t =>
      (bankOf t b).state = (if (bankOf s b).failed then .spared else .test) ∧ (unitOf t sp).state = .bound ∧
      (unitOf t sp).serves = 152 + b / 4)) ∧
    (s.asu.copies ≠ [] → (bankOf s b).state = .returning → (bankOf s b).spare = some sp →
      Nexts (exec (.bankCopyDone b) s) (fun t =>
      bankOf t b = {} ∧ (unitOf t sp).state = .idle ∧ (unitOf t sp).serves = 0xFF))

/-- R146, R536, R541 to R548, R563, R574: HOST_PORT_FETCH, HOST_PORT_WRITE, DRAM_STATION and the DRAM channel commands. -/
def Obligations.HostPortsAndDramChannelsMoveTicketData : Prop :=
  ∀ (s : State) (u d tag j first len k v bank i word : Nat) (p : Packet) (e : Entry) (y : LStep) (rest : List Work)
      (data : Bytes) (sgl : List (List Bytes)),
    let c := ctxOf s p.tag p.step
    let x := dramOf s k
    let a := e.t.dest.addr + p.off
    let err := drcReg Reg.DRC_CH_ERR k
    let flows := fun (a n : Nat) => ∀ q ∈ pageSpan a n, dramStalled s (pageChan s e.t.inst q) = false
    let from_ := e.t.source.addr + first
    let lost := (pageSpan a p.data.length).any (pageGone (placePages s e.t.inst a p.data.length) e.t.inst)
    (startWaits s u tag j first len e y rest → stepKind y = 0x0B → y.mode = 0 → worksNow s u = true →
      e.t.source.kind = 1 → e.t.dest.kind ≠ 3 → 0 < len → len ≤ 4096 →
      (len ≤ data.length → unitAt s e (j + 1) (first / 4096) = some d →
        Nexts (exec (.hostPortFetch u sgl data) s) (fun t =>
        inboxOf t u = rest ∧ sends s t (sentTo s e tag j u d first (data.take len) 0 false))) ∧
      (data.length < len → isLast s e j = false → Nexts (exec (.hostPortFetch u sgl data) s) (fun t =>
        failedWith t e tag 0x01 u))) ∧
    (packetWaits s u p e y rest → stepKind y = 0x0B → y.mode = 0 → worksNow s u = true → e.t.dest.kind = 1 →
      Tab.getD s.tru.tdi e.t.inst .unlocked ≠ .error → Nexts (exec (.hostPortWrite u sgl) s) (fun t =>
        memRead (Tab.getD t.host (hostKey (e.t.dest.mid % 2) e.t.inst) []) a p.data.length = p.data ∧
        (ctxOf t p.tag p.step).wrote = c.wrote ++ [(a, p.data.length)] ∧
        (ctxOf t p.tag p.step).outBytes = c.outBytes + p.data.length)) ∧
    (startWaits s u tag j first len e y rest → stepKind y = 0x0A → y.mode = 0 → worksNow s u = true →
      e.t.source.kind = 4 → e.t.dest.kind ≠ 3 → 0 < len → len ≤ 4096 → unitAt s e (j + 1) (first / 4096) = some d →
      localOk s e.t.inst from_ len = true → flows from_ len →
      (∀ q ∈ pageSpan from_ len, pageGone s e.t.inst q = false) →
      (∀ w ∈ wordSpan from_ len, Tab.getD s.drc.marks (lword e.t.inst w) 0 = 0) →
      Nexts (exec (.dramStation u v) s) (fun t => t.lmem = s.lmem ∧ sends s t
        (sentTo s e tag j u d first (lmemRead s e.t.inst from_ len) 0 false))) ∧
    (startWaits s u tag j first len e y rest → stepKind y = 0x0A → y.mode = 0 → worksNow s u = true →
      e.t.source.kind = 4 → len ≤ 4096 → flows from_ len → localOk s e.t.inst from_ len = false →
      isLast s e j = false → Nexts (exec (.dramStation u v) s) (fun t => failedWith t e tag 0x0E u ∧
        t.lmem = s.lmem)) ∧
    (packetWaits s u p e y rest → stepKind y = 0x0A → y.mode = 0 → worksNow s u = true → e.t.dest.kind = 4 →
      localOk s e.t.inst a p.data.length = true → flows a p.data.length →
      (lost = true → isLast s e p.step = true → cleanTicket s e → (∀ n, (ctxOf s p.tag n).wrote = []) →
        Nexts (exec (.dramStation u v) s) (fun t => endedWith s t p.tag 0x05 0 ∧ t.lmem = s.lmem)) ∧
      (lost = true → isLast s e p.step = false → Nexts (exec (.dramStation u v) s) (fun t =>
        failedWith t e p.tag 0x05 u ∧ t.lmem = s.lmem)) ∧
      (lost = false → Nexts (exec (.dramStation u v) s) (fun t => lmemRead t e.t.inst a p.data.length = p.data ∧
        (ctxOf t p.tag p.step).wrote = c.wrote ++ [(a, p.data.length)] ∧
        ∀ i, i ≠ e.t.inst → Tab.getD t.lmem i [] = Tab.getD s.lmem i []))) ∧
    (startWaits s u tag j first len e y rest → stepKind y = 0x0A → y.mode = 0 → worksNow s u = true → len ≤ 4096 →
      ¬ flows from_ len → Nexts (exec (.dramStation u v) s) (fun t => inboxOf t u = inboxOf s u ∧ t.lmem = s.lmem ∧
        t.dev.trunk = s.dev.trunk)) ∧
    (dramIn s k = true → Tab.getD x.postponed bank 0 < 8 → Nexts (exec (.dramRefresh k bank true) s) (fun t =>
      Tab.getD (dramOf t k).postponed bank 0 = Tab.getD x.postponed bank 0 + 1 ∧ (dramOf t k).banks = x.banks)) ∧
    (∀ waiting, dramIn s k = true → (waiting = false ∨ 8 ≤ Tab.getD x.postponed bank 0) →
      Nexts (exec (.dramRefresh k bank waiting) s) (fun t => Tab.getD (dramOf t k).postponed bank 0 = 0 ∧
        (Tab.getD (dramOf t k).banks bank {}).isOpen = false)) ∧
    (dramIn s k = true → Nexts (exec (.dramTempRead k v) s) (fun t => (dramOf t k).refreshNs = v)) ∧
    (k < 4 → dramIn s k = true → pageChan s i (word / 128) = k → Tab.getD s.drc.marks (lword i word) 0 = 0 →
      exec (.dramPatrol k i word 0) s = .next s ∧
      Nexts (exec (.dramPatrol k i word 1) s) (fun t => live t err 31 16 = satAdd 16 (live s err 31 16) 1 ∧
        Tab.getD t.drc.marks (lword i word) 0 = 0) ∧
      Nexts (exec (.dramPatrol k i word 2) s) (fun t => live t err 15 0 = satAdd 16 (live s err 15 0) 1 ∧
        Tab.getD t.drc.marks (lword i word) 0 = 2)) ∧
    ((x.state = .training ∨ x.state = .retraining) → x.heldRate = false →
      Nexts (exec (.dramTrainPassDone k true v) s)
      (fun t => (dramOf t k).state = .ready ∧ (dramOf t k).rate = x.tryRate ∧
        (dramOf t k).trainTemp = s.pwr.tModel ∧
        Tab.get? (dramOf t k).saved x.tryRate = some (s.pwr.tModel, v))) ∧
    ((x.state = .training ∨ x.state = .retraining) → x.tryRate ≠ 0 →
      exec (.dramTrainPassDone k false v) s = .next (setDram s k { x with tryRate := x.tryRate - 1 })) ∧
    ((x.state = .training ∨ x.state = .retraining) → x.tryRate = 0 → (unitOf s (168 + k)).held = [] →
      (recentIncs s (unitOf s (168 + k))).length < 2 → Nexts (exec (.dramTrainPassDone k false v) s) (fun t =>
        (dramOf t k).state = .offline ∧ (unitOf t (168 + k)).state = .offline)) ∧
    (x.window = true → x.heldRate = false → exec (.dramTrainWindowEnd k) s =
      .next (setDram s k { x with window := false, windowAt := s.now + 40 })) ∧
    (x.window = false → exec (.dramTrainWindowEnd k) s = .next s)

/-- R375 to R380, R399, R400: the key store commands. -/
def Obligations.TheKeyStoreGrantsLoadsErasesFencesAndKeepsContexts : Prop :=
  ∀ (s : State) (r : KeyReq) (k st kind : Nat) (key blob : Bytes) (g : GcmSave),
    let x := slotOf s r.slot
    let res := if r.inst = 0 then Reg.KEY_RESULT else Reg.VFP_KEY_RESULT + pageOf r.inst
    let done := fun (st : Nat) (t : State) => t.key.reqs = s.key.reqs.drop 1 ∧ live t res 7 0 = st ∧
      live t res 8 8 = 1
    let taken := fun (k : Nat) (r : KeyReq) (new : Bytes) (t : State) =>
      (slotOf t k).state = (if r.op = 2 then .loaded else if r.op = 3 then .empty else .free) ∧
      (slotOf t k).key = (if r.op = 2 then new else []) ∧ (slotOf t k).gen = (slotOf s k).gen + 1 ∧
      (slotOf t k).waits = none
    let waits := fun (new : Bytes) (t : State) => (slotOf t r.slot).state = .pending ∧
      (slotOf t r.slot).waits = some (r, new) ∧ (slotOf t r.slot).key = x.key ∧ t.key.reqs = s.key.reqs
    let heads := fun (op : Nat) => keyHead s op = some r ∧ keyStarted s r = false
    let kept := fun (t : State) => done st t ∧ t.key.slots = s.key.slots ∧ t.key.handles = s.key.handles
    let empties := fun (op : Nat) => heads op ∧ keyStateCheck s r = none
    let used : Prop := x.users ≠ 0 ∧ x.state = .loaded
    (r.via = none → r.silent = false → instState s r.inst ≠ .resetting → r.slot < 4096 →
      (keyStateCheck s r = some st → (heads 1 → Nexts (exec .keyGrant s) kept) ∧
        (heads 2 → Nexts (exec (.keyLoad blob) s) kept) ∧ (heads 3 → Nexts (exec .keyErase s) kept) ∧
        (heads 4 → Nexts (exec .keyWithdraw s) kept) ∧ (heads 5 → Nexts (exec .ctxExport s) kept) ∧
        (heads 6 → Nexts (exec (.ctxImport blob) s) kept) ∧ (heads 7 → Nexts (exec .ctxFree s) kept)) ∧
      (keyHead s 1 = some r → keyStateCheck s r = none → 1 ≤ r.kind → r.kind ≤ 4 → r.grantee ≠ 0 →
        Nexts (exec .keyGrant s) (fun t => done 0 t ∧ (slotOf t r.slot).owner = r.grantee ∧
          (slotOf t r.slot).kind = r.kind ∧ (slotOf t r.slot).attr = r.attr ∧ (slotOf t r.slot).state = .empty ∧
          (slotOf t r.slot).gen = x.gen + 1)) ∧
      (keyHead s 2 = some r → keyStarted s r = false → keyStateCheck s r = none → 64 ≤ r.len → r.len ≤ 4096 →
        blobUnwrap s r.inst r.slot (fit r.len blob) = some (kind, key) → keyFits x.kind kind key = true →
        ((x.users = 0 ∨ x.state ≠ .loaded) → Nexts (exec (.keyLoad blob) s) (fun t => done 0 t ∧
          taken r.slot r key t)) ∧
        (x.users ≠ 0 → x.state = .loaded → Nexts (exec (.keyLoad blob) s) (waits key))) ∧
      (keyHead s 2 = some r → keyStarted s r = false → keyStateCheck s r = none → 64 ≤ r.len → r.len ≤ 4096 →
        blobUnwrap s r.inst r.slot (fit r.len blob) = none → Nexts (exec (.keyLoad blob) s) (fun t =>
          done 0x08 t ∧ t.key.slots = s.key.slots)) ∧
      (empties 3 → ¬ used → Nexts (exec .keyErase s) (fun t => done 0 t ∧ taken r.slot r [] t)) ∧
      (empties 4 → ¬ used → Nexts (exec .keyWithdraw s) (fun t => done 0 t ∧ taken r.slot r [] t)) ∧
      (empties 3 → used → Nexts (exec .keyErase s) (waits [])) ∧
      (empties 4 → used → Nexts (exec .keyWithdraw s) (waits [])) ∧
      (keyHead s 5 = some r → keyStateCheck s r = none → (handleOf s r.inst r.handle).save = some g →
        bitOf (slotOf s g.slot).attr 1 = true →
        Tab.getD s.tru.tdi r.inst .unlocked ≠ .error → Nexts (exec .ctxExport s) (fun t => done 0 t ∧
          memRead (Tab.getD t.host (hostKey (portOfInst s r.inst) r.inst) []) r.addr 128 =
            ctxHead 2 r.inst g ++ ctxBody g ++ zeros 48)) ∧
      (keyHead s 6 = some r → keyStateCheck s r = none → (handleOf s r.inst r.handle).save = none →
        (handleOf s r.inst r.handle).user = none → ctxParse s r.inst (fit 128 blob) = .ok g →
          Nexts (exec (.ctxImport blob) s) (fun t => done 0 t ∧
          handleOf t r.inst r.handle = { save := some g })) ∧
      (keyHead s 7 = some r → keyStateCheck s r = none → Nexts (exec .ctxFree s) (fun t => done 0 t ∧
        handleOf t r.inst r.handle = {}))) ∧
    ((slotOf s k).state = .pending → (slotOf s k).users = 0 → (slotOf s k).waits = some (r, key) → r.slot = k →
      Nexts (exec (.keyUseZero k) s) (taken k r key)) ∧
    ((slotOf s k).state = .pending → (slotOf s k).fencing = false → Nexts (exec (.keyFenceTimeout k) s) (fun t =>
      (slotOf t k).fencing = true ∧ (slotOf t k).state = .pending ∧
      ∀ tag e, entryOf t tag = some e → e.keyUsed = true → e.t.keySlot = k → e.fenced = true)) ∧
    ((slotOf s k).fencing = true → (slotOf s k).waits = some (r, key) → r.slot = k →
      Nexts (exec (.keyFenceComplete k) s) (fun t => taken k r key t ∧ (slotOf t k).fencing = false))

/-- R559 to R565, R572, R583, R584: queues, Abort, Virtualization Management, NVMe-MI, resets and links. -/
def Obligations.NvmeQueuesResetsAndManagementAct : Prop :=
  ∀ (s : State) (c q tail idx k : Nat) (e : Bytes) (rest : List (Nat × Bytes)) (es : List Bytes) (ide : Option Nat),
    let x := ctrlOf s c
    let d := eDw e 10
    let id := d % 65536
    let n := d / 65536 + 1
    let ask := fun (op : Nat) => cmdWaits s c 0 idx e rest ∧ eOp e = op
    let done := fun (t : State) (st dw0 : Nat) => completed s t c 0 idx e st dw0 0
    (ctrlRuns s c = true → mmioTravels s (if 2 ≤ c then some (ctrlInst c) else none) ide = true →
      tail < (sqOf s c q).size → Nexts (exec (.sqDoorbell ⟨c, ide⟩ q tail es) s) (fun t =>
      (sqOf t c q).tail = tail ∧ (sqOf t c q).fetched = (sqOf s c q).fetched ++
        (List.range ((tail + (sqOf s c q).size - (sqOf s c q).tail) % (sqOf s c q).size)).map (fun i =>
          (((sqOf s c q).tail + i) % (sqOf s c q).size, fit 64 (es.getD i []))))) ∧
    (ask 5 → id ≠ 0 → id ≤ queueLimit s c → Tab.get? x.cqs id = none → 2 ≤ n → n ≤ 4096 →
      (bitOf (eDw e 11) 1 = true → eDw e 11 / 65536 < vectors c) → (sqOf s c 0).cq = 0 →
      Nexts (exec (.createIoCq c) s) (fun t => done t nOk 0 ∧ Tab.get? (ctrlOf t c).cqs id = some {
        base := leAt e 24 8, size := n, iv := if bitOf (eDw e 11) 1 then some (eDw e 11 / 65536) else none })) ∧
    (ask 1 → id ≠ 0 → id ≤ queueLimit s c → Tab.get? x.sqs id = none → 2 ≤ n → n ≤ 4096 → eDw e 11 / 65536 ≠ 0 →
      (Tab.get? x.cqs (eDw e 11 / 65536)).isSome = true → Nexts (exec (.createIoSq c) s) (fun t => done t nOk 0 ∧
        Tab.get? (ctrlOf t c).sqs id = some { base := leAt e 24 8, size := n, cq := eDw e 11 / 65536 })) ∧
    (ask 0 → id ≠ 0 → (Tab.get? x.sqs id).isSome = true → Nexts (exec (.deleteIoSq c) s) (fun t => done t nOk 0 ∧
      Tab.get? (ctrlOf t c).sqs id = none ∧ ∀ z ∈ t.hif.cmds, z.ctrl ≠ c ∨ z.sq ≠ id)) ∧
    (ask 4 → id ≠ 0 → (Tab.get? x.cqs id).isSome = true → (sqOf s c 0).cq = 0 →
      ((∀ p ∈ x.sqs, p.2.cq ≠ id) → Nexts (exec (.deleteIoCq c) s) (fun t => done t nOk 0 ∧
        Tab.get? (ctrlOf t c).cqs id = none)) ∧
      (∀ j y, j ≠ 0 → Tab.get? x.sqs j = some y → y.cq = id → Nexts (exec (.deleteIoCq c) s) (fun t =>
        done t (nstat 1 0x0C true) 0 ∧ (Tab.get? (ctrlOf t c).cqs id).isSome = true))) ∧
    (∀ i ∈ [(Instr.createIoCq c, 5), (Instr.createIoSq c, 1), (Instr.deleteIoSq c, 0), (Instr.deleteIoCq c, 4)],
      ask i.2 → id = 0 → Nexts (exec i.1 s) (fun t => done t (nstat 1 1 true) 0)) ∧
    (ask 0x0C → x.aer.length < 8 → Nexts (exec (.asynchronousEventRequest c) s) (fun t =>
      (ctrlOf t c).aer = x.aer ++ [leAt e 2 2] ∧ t.host = s.host)) ∧
    (ask 0x0C → 8 ≤ x.aer.length →
      Nexts (exec (.asynchronousEventRequest c) s) (fun t => done t (nstat 1 5 true) 0)) ∧
    (ask 8 → id ≠ 0 → (sqOf s c id).fetched.any (fun p => leAt p.2 2 2 == d / 65536) = true →
      Nexts (exec (.abort c) s) (fun t =>
        (sqOf t c id).fetched = dropFirst (fun p => leAt p.2 2 2 == d / 65536) (sqOf s c id).fetched ∧
        live t Reg.HIF_COUNTS2 15 0 = satAdd 16 (live s Reg.HIF_COUNTS2 15 0) 1)) ∧
    (ask 8 → id ≠ 0 → (sqOf s c id).fetched.any (fun p => leAt p.2 2 2 == d / 65536) = false →
      cmdOf s c id (d / 65536) = none → Nexts (exec (.abort c) s) (fun t => done t nOk 1)) ∧
    (ask 0x1C → c < 2 → d % 16 = 8 → d / 256 % 8 = 0 → 2 ≤ d / 65536 → d / 65536 < 513 →
      (ctrlOf s (d / 65536)).online = false → eDw e 11 % 65536 ≤ 16 →
      Nexts (exec (.virtualizationManagement c) s) (fun t => done t nOk (eDw e 11 % 65536) ∧
        (ctrlOf t (d / 65536)).queues = eDw e 11 % 65536)) ∧
    (ask 0x1D → c < 2 → Nexts (exec (.nvmeMiSend c) s) (fun t => ∃ a, t.hif.miReply = a ∧
      done t nOk (leAt a 0 1))) ∧
    (ask 0x1E → c < 2 → Nexts (exec (.nvmeMiReceive c) s) (fun t => ∃ a, t.hif.miReply = a ∧
      done t nOk (leAt a 0 1))) ∧
    (∀ i ∈ [(Instr.virtualizationManagement c, 0x1C), (Instr.nvmeMiSend c, 0x1D), (Instr.nvmeMiReceive c, 0x1E)],
      ask i.2 → 2 ≤ c → Nexts (exec i.1 s) (fun t => done t (nstat 0 1 true) 0)) ∧
    (cmdWaits s c 0 idx e rest → eOp e ∉ adminOps c → Nexts (exec (.invalidCommandOpcode c 0) s) (fun t =>
      done t (nstat 0 1 true) 0)) ∧
    (q ≠ 0 → cmdWaits s c q idx e rest → eOp e ∉ ioOps → Nexts (exec (.invalidCommandOpcode c q) s) (fun t =>
      completed s t c q idx e (nstat 0 1 true) 0 0)) ∧
    (∀ tr d0 d1, tr = 1 ∨ tr = 2 → miReaches s tr = true →
      Nexts (exec (.nvmeMiCommand tr 3 d0 d1 false) s) (fun t => t.hif.miOut = [0#8] ∧
        Tab.get? t.hif.miConf (d0 % 256) = some d1) ∧
      Nexts (exec (.nvmeMiCommand tr 4 d0 d1 false) s) (fun t =>
        t.hif.miOut = [0#8] ++ natLe 4 (Tab.getD s.hif.miConf (d0 % 256) 0))) ∧
    (c < 2 → Nexts (exec (.functionLevelReset c true) s) (fun t => (ctrlOf t c).sqs = [] ∧ (ctrlOf t c).cqs = [] ∧
      (ctrlOf t c).cc = 0 ∧ (ctrlOf t c).aer = [] ∧ ∀ z ∈ t.hif.cmds, z.ctrl ≠ c)) ∧
    (portExists s k = true → Nexts (exec (.linkDown k) s) (fun t => (linkOf t k).up = false ∧
      (linkOf t k).width = 0 ∧
      (ctrlOf t k).sqs = [])) ∧
    (∀ lanes r b, portExists s k = true → lanes ≠ 0 → Nexts (exec (.linkRetrain k lanes ⟨r, b⟩) s) (fun t =>
      (linkOf t k).up = true ∧ (linkOf t k).width = widthFor s lanes ∧
      (linkOf t k).rate = min r (min 5 (eff s (Reg.HIF_PORT_CFG + 8 * k) 2 0))))

/-- R271, R337, R565 to R568, R598: admin commands with data, features, namespaces, Format, Sanitize. -/
def Obligations.NvmeAdminDataFeaturesAndNamespacesAct : Prop :=
  ∀ (s : State) (c idx v n b tag : Nat) (e data : Bytes) (rest : List (Nat × Bytes)) (x : Ns) (y : NTodo)
  (ys : List NTodo),
    let d := eDw e 10
    let ns := eDw e 1
    let ask := fun (op : Nat) => cmdWaits s c 0 idx e rest ∧ eOp e = op
    let done := fun (t : State) (st dw0 : Nat) => completed s t c 0 idx e st dw0 0
    let tk := formTicket s (cmdRec c 0 idx e) y.line y.ns y.bytes false (logicalDesc y.ns y.first) {}
    (ask 6 → Nexts (exec (.identify c) s) (fun t => done t nOk 0 ∧
      dataGiven s t c e (identifyData s c (d % 256) (d / 65536) ns (eDw e 11 / 16777216)))) ∧
    (ask 2 → ∀ bs, logPage s c (d % 256) ns = some bs → eQw e 12 = 0 →
      Nexts (exec (.getLogPage c) s) (fun t => done t nOk 0 ∧
        dataGiven s t c e (slice bs 0 (min ((d / 65536 + eDw e 11 % 65536 * 65536 + 1) * 4) bs.length)))) ∧
    (ask 2 → logPage s c (d % 256) ns = none →
      Nexts (exec (.getLogPage c) s) (fun t => done t (nstat 1 9 true) 0)) ∧
    (ask 9 → (d % 256 = 1 ∨ d % 256 = 8 ∨ d % 256 = 0x0B) →
      Nexts (exec (.setFeatures c data) s) (fun t => done t nOk 0 ∧
      Tab.get? (ctrlOf t c).feats (d % 256) = some (if d % 256 = 1 then eDw e 11 % 8 else eDw e 11))) ∧
    (ask 9 → d % 256 = 6 → Nexts (exec (.setFeatures c data) s) (fun t => done t nOk 0 ∧
      (ctrlOf t c).vwc = bitOf (eDw e 11) 0)) ∧
    (ask 0x0A → featureNow s c (d % 256) (eDw e 11) = some (v, []) → Nexts (exec (.getFeatures c) s) (fun t =>
      done t nOk v)) ∧
    (ask 0x0A → featureNow s c (d % 256) (eDw e 11) = none → Nexts (exec (.getFeatures c) s) (fun t =>
      done t (nstat 0 2 true) 0)) ∧
    (ask 0x0D → c < 2 → d % 16 = 0 → leAt data 26 1 % 16 = 0 → leAt data 0 8 ≠ 0 → leAt data 8 8 = leAt data 0 8 →
      leAt data 29 1 = 0 → eDw e 11 / 16777216 ≠ 2 → Tab.freeKey s.ftl.ns 1 1024 = some n →
      freeExtent s (nsPages (leAt data 0 8)) = some b → Nexts (exec (.namespaceManagement c data) s) (fun t =>
        done t nOk n ∧ Tab.get? t.ftl.ns n = some { base := b, units := leAt data 0 8, zoneUnits := 0 })) ∧
    (ask 0x0D → c < 2 → d % 16 = 1 → ns ≠ 0xFFFFFFFF → Tab.get? s.ftl.ns ns = some x → x.attached = [] →
      Nexts (exec (.namespaceManagement c data) s) (fun t => done t nOk 0 ∧ Tab.get? t.ftl.ns ns = none ∧
        ∀ m, m ≠ ns → Tab.get? t.ftl.ns m = Tab.get? s.ftl.ns m)) ∧
    (ask 0x15 → c < 2 → d % 16 = 0 → Tab.get? s.ftl.ns ns = some x → x.attached = [] → leAt data 0 2 = 1 →
      leAt data 2 2 = v → v ∈ allCtrls s → Nexts (exec (.namespaceAttachment c data) s) (fun t =>
        Tab.get? t.ftl.ns ns = some { x with attached := [v], owner := if 2 ≤ v then v - 1 else x.owner })) ∧
    (ask 0x15 → c < 2 → d % 16 = 1 → Tab.get? s.ftl.ns ns = some x → x.attached = [v] → leAt data 0 2 = 1 →
      leAt data 2 2 = v → v ∈ allCtrls s → Nexts (exec (.namespaceAttachment c data) s) (fun t =>
        Tab.get? t.ftl.ns ns = some { x with attached := [], owner := if 2 ≤ v then 0 else x.owner })) ∧
    (ask 0x80 → d % 16 = 0 → d / 4096 % 4 = 0 → d / 512 % 8 < 2 → ns ≠ 0xFFFFFFFF → ns ∈ nsSeen s c true →
      Tab.get? s.ftl.ns ns = some x → formatItems s ns x true = y :: ys →
      (∀ z ∈ y :: ys, lineDefined s z.line = true ∧ notReady s z.line = false) → cmdOf s c 0 (leAt e 2 2) = none →
      mayMake s c tag tk → Nexts (exec (.formatNvm c) s) (fun t => ticketMade t c 0 tag e tk)) ∧
    (ask 0x84 → c < 2 → d % 8 = 1 → Nexts (exec (.sanitize c) s) (fun t => done t nOk 0)) ∧
    (ask 0x84 → c < 2 → d % 8 = 2 → s.ftl.ns = [(n, x)] → formatItems s n x true = y :: ys →
      (∀ z ∈ y :: ys, lineDefined s z.line = true ∧ notReady s z.line = false) → cmdOf s c 0 (leAt e 2 2) = none →
      mayMake s c tag tk → Nexts (exec (.sanitize c) s) (fun t => ticketMade t c 0 tag e tk)) ∧
    (ask 0x84 → c < 2 → d % 8 = 4 →
      let slots := Tab.keys (Tab.keep s.key.slots (fun _ k => decide (k.state = .loaded)))
      slots ≠ [] → Nexts (exec (.sanitize c) s) (fun t => t.key.reqs = s.key.reqs ++ slots.map (fun k =>
        ({ inst := 0, op := 3, slot := k, via := some (.nvme c 0 (leAt e 2 2)) } : KeyReq))))

/-- R566, R569, R571, R575, R579 to R581: I/O commands and computational programs. -/
def Obligations.NvmeIoCommandsBecomeTheirTickets : Prop :=
  ∀ (s : State) (c q idx tag unit len off : Nat) (e head bs : Bytes) (rest : List (Nat × Bytes)) (ns : Ns),
    let n := eDw e 1
    let y := cmdRec c q idx e
    let units := eDw e 12 % 65536 + 1
    let lba := eQw e 10
    let here := cmdWaits s c q idx e rest ∧ cmdOf s c q (leAt e 2 2) = none
    let host := hostDesc s y
    let mem := Reg.HIF_MEM_LINES + 4 * ctrlInst c
    let tk := fun (line ns len : Nat) (a b : Desc) => formTicket s y line ns len false a b
    let may := fun (t : Ticket) => mayMake s c tag t
    let gives := fun (t : Ticket) (r : State) => ticketMade r c q tag e t
    let onCache := (ctrlOf s c).vwc && !bitOf (eDw e 12) 30
    let read := tk (readLine s n) n (units * 4096) (logicalDesc n lba) host
    let write := tk (if onCache then writeLine s n else fuaLine s n) n (units * 4096) host (logicalDesc n lba)
    let flush := tk (flushLine s n) n 1 {} {}
    let zero := tk (discardLine s n) n (units * 4096) (logicalDesc n lba) {}
    let range := tk (discardLine s n) n (leAt bs 4 4 * 4096) (logicalDesc n (leAt bs 8 8)) {}
    let toLocal := tk (localReadLine s n) n (unit * 4096) (logicalDesc n len) (localDesc off)
    let fromLocal := tk (localWriteLine s n) n (unit * 4096) (localDesc off) (logicalDesc n len)
    let memPut := tk (eff s mem 11 0) 0 len host (localDesc off)
    let memGet := tk (eff s mem 27 16) 0 len (localDesc off) host
    let list := Config.coreList (c * 4294967296 + q * 65536 + leAt e 2 2) % 2 ^ 62 * 4
    let image := tk (eff s mem 11 0) 0 len { kind := 2, mid := ctrlPort s c, addr := list } (localDesc off)
    (here → q ≠ 0 → nsFor s c n = some ns → replicaNs s n = false → units ≤ 1024 →
      (eOp e = 2 → may read → Nexts (exec (.nvmeRead c q) s) (gives read)) ∧
      (eOp e = 1 → ns.zoneUnits = 0 → may write → Nexts (exec (.nvmeWrite c q) s) (gives write)) ∧
      (eOp e = 0 → may flush → Nexts (exec (.flush c q) s) (gives flush)) ∧
      (eOp e = 8 → ns.zoneUnits = 0 → may zero → Nexts (exec (.writeZeroes c q) s) (gives zero)) ∧
      (eOp e = 9 → ns.zoneUnits = 0 → bitOf (eDw e 11) 2 = true → eDw e 10 % 256 = 0 → 0 < leAt bs 4 4 →
        leAt bs 4 4 ≤ 65536 → may range → Nexts (exec (.datasetManagement c q bs) s) (gives range)) ∧
      (eOp e = 9 → ns.zoneUnits = 0 → bitOf (eDw e 11) 2 = false → (entryFree s (ctrlInst c)).isSome = true →
        Nexts (exec (.datasetManagement c q bs) s) (fun t => completed s t c q idx e nOk 0 0)) ∧
      (eOp e = 2 → lineDefined s (readLine s n) = false → (entryFree s (ctrlInst c)).isSome = true →
        Nexts (exec (.nvmeRead c q) s) (fun t => completed s t c q idx e (nstat 0 2 true) 0 0)) ∧
      (may toLocal → Nexts (exec (.memoryCopy c q true len unit off) s) (gives toLocal)) ∧
      (may fromLocal → Nexts (exec (.memoryCopy c q false len unit off) s) (gives fromLocal))) ∧
    (here → q ≠ 0 → (may memPut → Nexts (exec (.memoryWrite c q off len) s) (gives memPut)) ∧
      (may memGet → Nexts (exec (.memoryRead c q off len) s) (gives memGet))) ∧
    (here → leAt (fit 64 bs) 0 2 = ctrlInst c → entryFree s (parseTicket (fit 64 bs)).inst = some tag →
      (parseTicket (fit 64 bs)).inst = ctrlInst c → notReady s (parseTicket (fit 64 bs)).line = false →
      acceptance s (fit 64 bs) true = none → Nexts (exec (.executeProgram c q bs) s) (fun t =>
        ∃ x, entryOf t tag = some x ∧ x.t = parseTicket (fit 64 bs) ∧ x.sub = .nvme c q (leAt e 2 2) ∧
          x.waiting = true)) ∧
    (here → engineOf s c unit = true → 72 ≤ unit → leAt (fit 64 head) 4 4 = len → leAt (fit 64 head) 8 8 = off →
      slice (fit 64 head) 0 4 = [0x47#8, 0x4F#8, 0x4C#8, 0x59#8] → isZero (fit 64 head) 24 40 = true →
        off % 4096 = 0 →
      0 < len → len ≤ 268435456 → may image → Nexts (exec (.loadProgram c q unit 0xC1 0 head) s) (gives image)) ∧
    (here → engineOf s c unit = true → unit < 72 → dramLive s ≠ [] → s.cfg.queue = [] → s.cfg.cur = none →
      Nexts (exec (.loadProgram c q unit 0xC0 len head) s) (fun t => ∃ r, t.cfg.queue = [r] ∧ r.inst = ctrlInst c ∧
        r.kind = 2 ∧ r.target = unit ∧ r.gen = (unitOf s unit).gen ∧ r.offered = len)) ∧
    (here → engineOf s c unit = true → unit < 72 → Nexts (exec (.programActivation c q unit) s) (fun t =>
      completed s t c q idx e nOk 0 0)) ∧
    (here → engineOf s c unit = true → 88 ≤ unit → unit < 120 → (unitOf s unit).role = 6 →
      (coreOf s (coreIndex s unit)).state = .stopped → coreUnit s (coreIndex s unit) = unit →
      Nexts (exec (.programActivation c q unit) s) (fun t => completed s t c q idx e nOk 0 0 ∧
        (coreOf t (coreIndex s unit)).state = .running ∧
        (coreOf t (coreIndex s unit)).pc = BitVec.ofNat 64 (coreOf s (coreIndex s unit)).entry)) ∧
    (here → engineOf s c unit = false → Nexts (exec (.programActivation c q unit) s) (fun t =>
      completed s t c q idx e (nstat 0 2 true) 0 0))

/-- R576 to R578: zones. -/
def Obligations.ZonesOpenCloseFinishResetAndAppend : Prop :=
  ∀ (s : State) (c q idx tag z : Nat) (e : Bytes) (rest : List (Nat × Bytes)) (ns : Ns),
    let n := eDw e 1
    let y := cmdRec c q idx e
    let x := zoneOf ns z
    let units := eDw e 12 % 65536 + 1
    let at0 := z * ns.zoneUnits
    let line := if (ctrlOf s c).vwc && !bitOf (eDw e 12) 30 then writeLine s n else fuaLine s n
    let zone := fun (t : State) => (Tab.get? t.ftl.ns n).map (fun m => zoneOf m z)
    let tk := fun (lba : Nat) => formTicket s y line n (units * 4096) true (hostDesc s y) (logicalDesc n lba)
    let moved : Zone := {
      wp := x.wp + units,
      state := if ns.zoneUnits ≤ x.wp + units then 4 else if x.state = 0 ∨ x.state = 3 then 1 else x.state }
    let refused := fun (st : Nat) (t : State) => completed s t c q idx e st 0 0 ∧ t.ftl = s.ftl
    q ≠ 0 → cmdWaits s c q idx e rest → cmdOf s c q (leAt e 2 2) = none → nsFor s c n = some ns →
      replicaNs s n = false →
    0 < ns.zoneUnits → at0 < ns.units → (entryFree s (ctrlInst c)).isSome = true →
    (eOp e = 1 → units ≤ 1024 → eQw e 10 = at0 + x.wp → x.wp + units ≤ ns.zoneUnits → x.wp < ns.zoneUnits →
      eQw e 10 + units ≤ ns.units → x.state ≠ 4 → openLimit ns x = none → mayMake s c tag (tk (at0 + x.wp)) →
      Nexts (exec (.nvmeWrite c q) s) (fun t => zone t = some moved ∧ ticketMade t c q tag e (tk (at0 + x.wp)))) ∧
    (eOp e = 1 → units ≤ 1024 → eQw e 10 / ns.zoneUnits = z → eQw e 10 + units ≤ ns.units → x.state = 4 →
      Nexts (exec (.nvmeWrite c q) s) (refused (nstat 1 0xB9 true))) ∧
    (eOp e = 1 → units ≤ 1024 → eQw e 10 / ns.zoneUnits = z → eQw e 10 + units ≤ ns.units → x.state ≠ 4 →
      eQw e 10 % ns.zoneUnits + units ≤ ns.zoneUnits → eQw e 10 % ns.zoneUnits ≠ x.wp →
      Nexts (exec (.nvmeWrite c q) s) (refused (nstat 1 0xBC true))) ∧
    (eOp e = 0x7D → units ≤ 1024 → eQw e 10 = at0 → x.wp + units ≤ ns.zoneUnits → x.wp < ns.zoneUnits →
      x.state ≠ 4 →
      openLimit ns x = none → mayMake s c tag (tk (at0 + x.wp)) → Nexts (exec (.zoneAppend c q) s) (fun t =>
        zone t = some moved ∧ ticketMade t c q tag e (tk (at0 + x.wp)) ∧
        (cmdOf t c q (leAt e 2 2)).map (fun m => (m.dw0, m.dw1)) =
          some ((at0 + x.wp) % 2 ^ 32, (at0 + x.wp) / 2 ^ 32))) ∧
    (eOp e = 0x7D → units ≤ 1024 → eQw e 10 = at0 → x.state = 4 →
      Nexts (exec (.zoneAppend c q) s) (refused (nstat 1 0xB9 true))) ∧
    (eOp e = 0x79 → bitOf (eDw e 13) 8 = false → eQw e 10 = at0 →
      (eDw e 13 % 256 = 3 → x.state = 3 → openZones ns < 1024 → activeZones ns ≤ 1024 →
        Nexts (exec (.zoneOpen c q) s) (fun t => completed s t c q idx e nOk 0 0 ∧
          zone t = some { x with state := 2 })) ∧
      (eDw e 13 % 256 = 1 → (x.state = 1 ∨ x.state = 2) → Nexts (exec (.zoneClose c q) s) (fun t =>
        completed s t c q idx e nOk 0 0 ∧ zone t = some { x with state := 3 })) ∧
      (eDw e 13 % 256 = 1 → (x.state = 0 ∨ x.state = 4) →
        Nexts (exec (.zoneClose c q) s) (refused (nstat 1 0xBF true))) ∧
      (eDw e 13 % 256 = 2 → Nexts (exec (.zoneFinish c q) s) (fun t => completed s t c q idx e nOk 0 0 ∧
        zone t = some { state := 4, wp := ns.zoneUnits })) ∧
      (eDw e 13 % 256 = 4 → ns.zoneUnits ≤ 65536 →
        let r := formTicket s y (discardLine s n) n (ns.zoneUnits * 4096) false (logicalDesc n at0) {}
        mayMake s c tag r → Nexts (exec (.zoneReset c q) s) (fun t => ticketMade t c q tag e r ∧
          (cmdOf t c q (leAt e 2 2)).map (·.zones) = some [z]))) ∧
    (eOp e = 0x7A → eDw e 13 % 256 = 0 → eDw e 13 / 256 % 256 ≤ 7 → Nexts (exec (.reportZones c q) s) (fun t =>
      completed s t c q idx e nOk 0 0 ∧ t.ftl = s.ftl))

/-- R592 to R613: the tenancy commands. -/
def Obligations.TenancyRequestsGiveAndTakeUnits : Prop :=
  ∀ (s : State) (r : TenReq) (i : Nat) (vf : Bool) (p : Nat) (l : List Nat) (ide : Option Nat),
    let u := r.unit
    let x := unitOf s u
    let asks := fun (op : Nat) => s.ten.reqs = [r] ∧ r.op = op ∧ r.stage = 0 ∧ 0 < r.inst ∧ r.inst < 512
    let fresh := x.held = [] ∧ (recentIncs s x).length < 2
    let given := fun (role owner : Nat) (t : State) => (unitOf t u).role = role ∧ (unitOf t u).owner = owner ∧
      (unitOf t u).gen = (x.gen + 1) % 65536
    let ended := fun (st : Nat) (t : State) => t.ten.reqs = [] ∧
      live t Reg.TEN_RESULT 7 0 = st ∧ live t Reg.TEN_RESULT 8 8 = 1
    let has := fun (role : Nat) => x.role = role ∧ x.owner = r.inst
    let idle := insideOf s u = [] ∧ givable s u = true
    let waits := fun (t : State) => t.ten.reqs = [{ r with stage := 1 }] ∧
      t.ten.withdrawing = s.ten.withdrawing ++ [(u, r.inst)] ∧ t.dev = s.dev
    let turned := fun (t : State) => ended 0x11 t ∧ t.dev = s.dev
    (asks 1 → vf = true → (instOf s r.inst).state = .free → (r.port = 0 ∨ s.hif.x8x8 = true) → 0 < r.lmem64 →
      r.lmem64 ≤ 1024 → 64 * r.lmem64 ≤ lmemLeft s →
      (∀ q ∈ s.ten.insts, q.1 = 0 ∨ q.2.state = .free ∨ q.2.port ≠ r.port ∨ q.2.vf ≠ r.vf) →
      Nexts (exec (.create vf) s) (fun t => ended 0 t ∧ instOf t r.inst = {
        state := .ready, port := r.port, vf := r.vf, lmem64 := r.lmem64, chans := dramLive s })) ∧
    (asks 1 → ((instOf s r.inst).state ≠ .free ∧ (instOf s r.inst).state ≠ .resetting ∨
        vf = false ∧ (instOf s r.inst).state ≠ .resetting) →
      Nexts (exec (.create vf) s) (fun t => ended 0x10 t ∧ t.ten.insts = s.ten.insts)) ∧
    ((instOf s r.inst).state = .ready → fresh →
      (asks 3 → 32 ≤ u → u < 72 → x.role = 4 → candidateBars s u = false → isAliased s (u - 32) = false →
        givable s u = true → insideOf s u = [] → (fenOf s (u - 32)).state ≠ .offline →
        (fenOf s (u - 32)).state ≠ .test → Nexts (exec .grantFen s) (fun t => given 5 r.inst t ∧
          (fenOf t (u - 32)).state = .scrubbing ∧ t.ten.reqs = [{ r with stage := 2 }])) ∧
      (asks 3 → (u < 32 ∨ 72 ≤ u ∨ x.role ≠ 4) → Nexts (exec .grantFen s) (fun t => ended 0x10 t ∧ t.dev = s.dev)) ∧
      (asks 5 → 88 ≤ u → u < 120 → x.role = 4 → candidateBars s u = false → insideOf s u = [] →
        (coreOf s (coreIndex s u)).state ≠ .offline → Nexts (exec .grantCore s) (fun t => given 6 r.inst t ∧
          (coreOf t (coreIndex s u)).state = .scrubbing)) ∧
      (asks 4 → 32 ≤ u → u < 72 → (has 5 → idle → Nexts (exec .withdrawFen s) (given 4 0)) ∧
        (has 5 → insideOf s u ≠ [] → Nexts (exec .withdrawFen s) waits) ∧
        (¬ has 5 → Nexts (exec .withdrawFen s) turned)) ∧
      (asks 6 → 88 ≤ u → u < 120 → (has 6 → idle → Nexts (exec .withdrawCore s) (given 4 0)) ∧
        (has 6 → insideOf s u ≠ [] → Nexts (exec .withdrawCore s) waits) ∧
        (¬ has 6 → Nexts (exec .withdrawCore s) turned)) ∧
      (asks 8 → dedicable u = true → (has 7 → idle → Nexts (exec .undedicate s) (given 1 0)) ∧
        (has 7 → insideOf s u ≠ [] → Nexts (exec .undedicate s) waits) ∧
        (¬ has 7 → Nexts (exec .undedicate s) turned)) ∧
      (asks 7 → dedicable u = true → x.role = 1 → candidateBars s u = false → usersOf s u = [] →
        (∃ v, v < 218 ∧ v ≠ u ∧ kindOf v = kindOf u ∧ (unitOf s v).role = 1) →
        Nexts (exec .dedicate s) (fun t => given 7 r.inst t ∧ ended 0 t))) ∧
    (s.ten.reqs = [r] → (r.op ≠ 2 ∧ r.op ≠ 7 ∧ r.unit = p ∧ r.stage = 1) ∨ (r.op = 2 ∧ r.stage = 2 ∧
        (p, r.inst) ∈ s.ten.withdrawing ∧ (unitOf s p).owner = r.inst) →
          Nexts (exec (.withdrawDrainTimeout p) s) (fun t =>
      ∀ tag ∈ insideOf s p, ∀ e, entryOf t tag = some e → e.revoking = true)) ∧
    (0 < i → (instOf s i).state = .ready → Nexts (exec (.instanceReset i false) s) (fun t =>
      (instOf t i).state = .ready ∧ (instOf t i).resets = satAdd 8 (instOf s i).resets 1 ∧
      (∀ tag e, entryOf t tag = some e → e.t.inst ≠ i) ∧ (ctrlOf t (i + 1)).aer = [])) ∧
    (asks 2 → (instOf s r.inst).state = .ready → (∀ q ∈ s.ftl.ns, r.inst + 1 ∉ q.2.attached) →
      Nexts (exec .destroy s) (fun t => ((instOf t r.inst).state = .teardown ∨ (instOf t r.inst).state = .free) ∧
        ∀ tag e, entryOf t tag = some e → e.t.inst ≠ r.inst)) ∧
    ((instOf s i).log.en = true → Nexts (exec (.logSwitch i) s) (fun t =>
      (instOf t i).log.active = 1 - (instOf s i).log.active ∧
      (instOf t i).log.period = (instOf s i).log.period + 1 ∧ (instOf t i).log.marks = [] ∧
      (instOf t i).log.overflow = false)) ∧
    ((instOf s i).log.en = false → exec (.logSwitch i) s = .next s) ∧
    ((instOf s i).state = .ready → mmioTravels s (some i) ide = true → (instOf s i).lost = p :: l →
      Nexts (exec (.lmemLostPop ⟨i, ide⟩) s) (fun t =>
      t.regs.readData = p ∧ (instOf t i).lost = l)) ∧
    ((instOf s i).state = .ready → mmioTravels s (some i) ide = true → (instOf s i).lost = [] →
      Nexts (exec (.lmemLostPop ⟨i, ide⟩) s) (fun t =>
      t.regs.readData = 0xFFFFFFFF ∧ t.ten = s.ten))

/-- R621 to R628, R633: the junction and the Uaser ports as stations, and frames of messages. -/
def Obligations.FederationMessagesTravelAndEndTheirTickets : Prop :=
  ∀ (s : State) (u d tag j first len node ten seq : Nat) (w : WireFrame) (f : Frame) (p : Packet) (e : Entry)
  (y : LStep)
      (rest : List Work) (c : FConn) (x : FIncoming) (m : FMsg) (r : FRecv),
    let k := (f.src, f.srcInc, f.tenant)
    let gets := fun (n : Nat) => w.port < 4 ∧ (frameIn s w).1 = some f ∧ f.type = n ∧ f.dest = nodeOf s ∧
      (f.destInc = 0 ∨ f.destInc = s.jct.inc)
    (packetWaits s u p e y rest → stepKind y = 0x0C → y.mode = 0 → worksNow s u = true →
      (ctxOf s p.tag p.step).buf.length + p.data.length ≤ 8192 →
        Nexts (exec (.send u) s) (fun t => inboxOf t u = rest ∧
        (ctxOf t p.tag p.step).buf = (ctxOf s p.tag p.step).buf ++ p.data)) ∧
    (inboxOf s u = .pkt p :: rest → p.endTok = true → p.prov = false → entryOf s p.tag = some e → e.fenced = false →
      e.revoking = false → (stepsOf s e)[p.step]? = some y → stepKind y = 0x0C → y.mode = 0 → worksNow s u = true →
      tokenReady s p p.step = true → (ctxOf s p.tag p.step).buf ≠ [] → e.t.inst = 0 → fld e.t.dest.mid 23 8 = node →
      node ≠ nodeOf s → connOf s node 0 = none → s.jct.conns.length < 1024 →
      sendUse s + (ctxOf s p.tag p.step).buf.length ≤ 67108864 → Nexts (exec (.send u) s) (fun t =>
        ∃ c', connOf t node 0 = some c' ∧ ∃ m ∈ c'.msgs, m.tag = p.tag ∧ m.payload = (ctxOf s p.tag p.step).buf ∧
          m.destUnit = fld e.t.dest.mid 31 24 ∧ m.destGen = fld e.t.dest.mid 47 32)) ∧
    (startWaits s u tag j first len e y rest → stepKind y = 0x0C → y.mode = 1 → worksNow s u = true →
      e.sub = .junction r.id → s.jct.recv.find? (fun z => z.id == r.id) = some r → 0 < len → len ≤ 4096 →
      first + len ≤ r.frame.payload.length → unitAt s e (j + 1) ((ctxOf s tag j).outBytes / 4096) = some d →
      Nexts (exec (.receive u) s) (fun t => ∃ q, sends s t q ∧ q.dest = d ∧ q.off = (ctxOf s tag j).outBytes ∧
        q.data = (r.frame.payload.drop first).take len)) ∧
    (gets 1 → incomingOf s k = some x → (bitOf f.flags 0 = false ∨ s.now < x.since + 10000) →
      f.payload.length ≤ recvRoom s k →
      (f.seq = x.expect → x.stored = [] → Nexts (exec (.data w) s) (fun t =>
        (incomingOf t k).map (·.expect) = some (x.expect + 1) ∧ t.jct.nextRecv = s.jct.nextRecv + 1)) ∧
      (f.seq < x.expect → Nexts (exec (.data w) s) (fun t => t.jct.nextRecv = s.jct.nextRecv ∧
        t.jct.recv = s.jct.recv ∧
        (incomingOf t k).map (·.expect) = some x.expect)) ∧
      (x.expect < f.seq → f.seq < x.expect + 64 → (∀ z ∈ x.stored, z.seq ≠ f.seq) →
        Nexts (exec (.data w) s) (fun t =>
        t.jct.recv = s.jct.recv ∧
          (incomingOf t k).map (fun z => (z.expect, z.stored)) = some (x.expect, x.stored ++ [f])))) ∧
    (gets 2 → connOf s f.src f.tenant = some c → (c.inc = none ∨ c.inc = some f.srcInc) →
      Nexts (exec (.ack w) s) (fun t => ∃ c', connOf t f.src f.tenant = some c' ∧ c'.inc = some f.srcInc ∧
        c'.window = f.window ∧ ∀ m ∈ c.msgs, m.sent = true → m.seq < f.ack →
          ∃ m' ∈ c'.msgs, m'.tag = m.tag ∧ m'.seq = m.seq ∧ m'.acked = true)) ∧
    (gets 3 → connOf s f.src f.tenant = some c → (c.inc = none ∨ c.inc = some f.srcInc) → c.msgs = [m] →
      m.sent = true → m.seq = f.seq → f.status < 0x12 →
      entryOf s m.tag = some e → cleanTicket s e → e.revoking = false → Nexts (exec (.outcome w) s) (fun t =>
        endedWith s t m.tag f.status (if f.status = 0 then m.payload.length else 0) ∧
        (connOf t f.src f.tenant).map (·.msgs) = some [])) ∧
    (gets 7 → connOf s f.src f.tenant = some c → (c.inc ≠ none ∧ c.inc ≠ some f.srcInc) →
      Nexts (exec (.stalePeer w) s) (fun t => connOf t f.src f.tenant = none)) ∧
    (connOf s node ten = some c → c.msgs.find? (fun z => z.sent && !z.acked && z.seq == seq) = some m →
      ((c.window = 0 ∨ m.retries < eff s Reg.FED_LINK_CFG 19 16) → canSend s node = true →
        Nexts (exec (.retransmitTimeout node ten seq) s) (fun t =>
        live t Reg.FED_COUNTS 31 16 = satAdd 16 (live s Reg.FED_COUNTS 31 16) 1 ∧
        ∃ c', connOf t node ten = some c' ∧ ∃ m' ∈ c'.msgs, m'.seq = seq ∧ m'.sentAt = s.now ∧
          m'.retries = (if c.window = 0 then m.retries else m.retries + 1))) ∧
      (c.window ≠ 0 → eff s Reg.FED_LINK_CFG 19 16 ≤ m.retries → c.msgs = [m] → entryOf s m.tag = some e →
        cleanTicket s e → e.revoking = false → Nexts (exec (.retransmitTimeout node ten seq) s) (fun t =>
          endedWith s t m.tag 0x0B 0))) ∧
    (connOf s node ten = some c → c.msgs = [] → Nexts (exec (.connectionIdleClose node ten) s) (fun t =>
      connOf t node ten = none)) ∧
    (connOf s node ten = some c → c.msgs ≠ [] → exec (.connectionIdleClose node ten) s = .next s) ∧
    (w.port < 4 → (frameIn s w).1 = some f → f.dest ≠ nodeOf s → f.type ≤ 3 →
      (1 < f.hops → nextHop s f.dest = some node → portOf s node = some d → mayFrame s = true →
        portQueue s d + wireLen f ≤ 4194304 → Nexts (exec (.frameForward w) s) (fun t =>
          t.jct.out = s.jct.out ++ [(d, node, { f with hops := f.hops - 1 })])) ∧
      (f.hops ≤ 1 → Nexts (exec (.frameForward w) s) (fun t => t.jct = s.jct ∧
        live t Reg.FED_DROPS 31 16 = satAdd 16 (live s Reg.FED_DROPS 31 16) 1)))

/-- R616, R619, R630 to R637, R641: neighbours, placement groups and tables. -/
def Obligations.FederationMembershipAndPlacementMove : Prop :=
  ∀ (s : State) (port node g term inc : Nat) (cr1 : Bool) (w : WireFrame) (f : Frame) (n : FNeighbour) (x : FGroup)
      (set : Tab Nat) (table : Bytes),
    let mac := leNat (slice w.bytes 6 6).reverse
    let gets := fun (n : Nat) => w.port < 4 ∧ (frameIn s w).1 = some f ∧ f.type = n
    let c := commitOf Reg.FED_TABLE_CTL
    let bs := fit (inSet set Reg.FED_TABLE_LEN) table
    (gets 4 → f.src ≠ nodeOf s → neighbourOf s f.src = none → bitOf f.flags 1 = false →
      s.jct.neighbours.length < 64 →
      Nexts (exec (.heartbeat w) s) (fun t => t.jct.lost = s.jct.lost.filter (· != f.src) ∧
        t.jct.neighbours = s.jct.neighbours ++ [{
          node := f.src, inc := f.srcInc, serial := f.param, heard := [(w.port, s.now)], macs := [(w.port, mac)] }])) ∧
    (gets 4 → f.src ≠ nodeOf s → neighbourOf s f.src = some n → n.inc = f.srcInc → bitOf f.flags 1 = true →
      Nexts (exec (.heartbeat w) s) (fun t => neighbourOf t f.src = none ∧ f.src ∈ t.jct.lost)) ∧
    (gets 4 → f.src = nodeOf s → f.param ≠ s.dev.serial →
      Nexts (exec (.heartbeat w) s) (fun t => t.jct.duplicate = true)) ∧
    (gets 5 → (f.param % 65536, f.param / 65536 % 2 ^ 32) ∉ s.jct.losses → Nexts (exec (.loss w) s) (fun t =>
      (f.param % 65536, f.param / 65536 % 2 ^ 32) ∈ t.jct.losses)) ∧
    (gets 5 → (f.param % 65536, f.param / 65536 % 2 ^ 32) ∈ s.jct.losses → Nexts (exec (.loss w) s) (fun t =>
      t.jct = s.jct)) ∧
    (gets 6 → f.param % 2 ^ 32 = g → f.param / 2 ^ 32 % 65536 = term → s.jct.groups = [x] → x.group = g →
      x.term < term →
      Nexts (exec (.promoted w) s) (fun t => t.jct.groups = [{ x with
        term := term, primary := false, claim := false, holder := some f.src }] ∧
        Tab.get? t.jct.terms g = some term)) ∧
    (s.jct.joined = true → s.jct.left = false → exec .heartbeatTick s =
      .next (floodFrame s { ownFrame s 4 0xFFFF 0 with flags := 0, param := s.dev.serial })) ∧
    (s.jct.joined = false → exec .heartbeatTick s = .next s) ∧
    (neighbourOf s node = some n → node ≠ nodeOf s → Nexts (exec (.neighbourTimeout node) s) (fun t =>
      neighbourOf t node = none ∧ node ∈ t.jct.lost ∧
      (s.jct.neighbours = [n] → ∀ y ∈ t.jct.groups, y.primary = false))) ∧
    (port < 4 → s.jct.links.length = 4 → s.jct.neighbours = [n] → n.heard = [(port, inc)] →
      Nexts (exec (.uaserLinkDown port) s) (fun t => t.jct.links.getD port 0 = 0 ∧ t.jct.neighbours = [])) ∧
    (port < 4 → s.jct.links.length = 4 →
      Nexts (exec (.uaserLinkUp port cr1) s) (fun t => t.jct.links.getD port 0 = 2 ∧
      t.jct.neighbours = s.jct.neighbours)) ∧
    (s.jct.joined = true → s.jct.duplicate = false → Nexts (exec .primaryClaimTimeout s) (fun t =>
      t.jct.groups = s.jct.groups.map (fun x =>
        if x.claim && x.nodes.head? == some
          (nodeOf s) && x.nsid != 0 then { x with primary := true, claim := false }
        else x))) ∧
    ((groupAt s c).pending = some set →
      (tableCtlOk set = true → fld (inSet set Reg.FED_TABLE_CTL) 1 0 = 1 →
        Nexts (exec (.fedTableLoad table) s) (fun t =>
        t.jct.routes = parseNextHops bs ∧ (groupAt t c).pending = none)) ∧
      (tableCtlOk set = true → fld (inSet set Reg.FED_TABLE_CTL) 1 0 = 2 → s.jct.promoting = [] →
        groupsOk s (parseGroups bs) = true → Nexts (exec (.fedTableLoad table) s) (fun t =>
          t.jct.groups = (parseGroups bs).map (fun y => (loadGroup s y).1) ∧ t.jct.routes = s.jct.routes)) ∧
      (tableCtlOk set = false → Nexts (exec (.fedTableLoad table) s) (fun t => t.jct = s.jct ∧
        (groupAt t c).pending = none ∧ (groupAt t c).rejected = true)))

/-- R655, R657, R658, R660, R661: SPDM requests. The message codes are those of the standard (log 54). -/
def Obligations.SpdmRequestsAreAnswered : Prop :=
  ∀ (s : State) (fn slot off len index id hash asym dhe aead req : Nat) (sign ok : Bool) (tr th : Bytes)
      (key : Option Bytes) (x : Sess) (ses : Option Nat),
    let only := fun (t : State) => { t with tru := { t.tru with reply := s.tru.reply } } = s
    let replies := fun (code : Nat) (ses : Option Nat) (data : Bytes) (t : State) => only t ∧
      t.tru.reply = some { code := code, fn := fn, session := ses, data := data }
    let errs := fun (n : Nat) (t : State) => only t ∧ t.tru.reply = some { code := 0x7F, err := n, fn := fn }
    let chain := Config.certChain (aliasCtx s)
    let sig := Config.ecdsaSign (aliasCtx s) (sha384 tr)
    let covered := coveredIndices s fn
    Nexts (exec (.getVersion fn) s) (replies 0x04 none [0x12#8, 0x13#8]) ∧
    Nexts (exec (.getCapabilities fn) s) (replies 0x61 none Config.spdmCaps) ∧
    (bitOf hash 1 = true → bitOf asym 7 = true → bitOf dhe 4 = true → bitOf aead 1 = true → bitOf req 7 = true →
      Nexts (exec (.negotiateAlgorithms fn hash asym dhe aead req) s) (replies 0x63 none
        (natLe 4 2 ++ natLe 4 128 ++ natLe 2 16 ++ natLe 2 2 ++ natLe 2 128 ++ natLe 4 4))) ∧
    (fnBusy s fn = true → ∀ c ∈ [Instr.getDigests fn, .getCertificate fn slot off len, .challenge fn slot tr,
        .getMeasurements fn index sign tr, .keyExchange fn tr, .finish fn id key ok th, .spdmHeartbeat fn id,
        .keyUpdate fn id, .endSession fn id, .unsupportedRequest fn, .pqChain fn ses, .pqQuote fn ses tr],
      Nexts (exec c s) (errs 0x03)) ∧
    (fnBusy s fn = false →
      Nexts (exec (.getDigests fn) s) (replies 0x01 none (sha384 chain)) ∧
      Nexts (exec (.getCertificate fn 0 off len) s) (replies 0x02 none ((chain.drop off).take len)) ∧
      (derives s = true → Nexts (exec (.challenge fn 0 tr) s) (replies 0x03 none sig) ∧
        Nexts (exec (.pqQuote fn ses tr) s) (replies 0x7E ses (natLe 1 0 ++ Config.mldsaSign (aliasCtx s) tr))) ∧
      (derives s = false → Nexts (exec (.challenge fn 0 tr) s) (errs 0x05) ∧
        Nexts (exec (.getMeasurements fn index true tr) s) (errs 0x05) ∧
          Nexts (exec (.pqQuote fn ses tr) s) (errs 0x05)) ∧
      (slot ≠ 0 → Nexts (exec (.getCertificate fn slot off len) s) (errs 0x01) ∧
        Nexts (exec (.challenge fn slot tr) s) (errs 0x01)) ∧
      (sign = false ∨ derives s = true →
        Nexts (exec (.getMeasurements fn 0 sign tr) s)
          (replies 0x60 none (natLe 1 covered.length ++ if sign then sig else [])) ∧
        Nexts (exec (.getMeasurements fn 0xFF sign tr) s)
          (replies 0x60 none (covered.flatMap (measBlock s (fnInst fn)) ++ if sign then sig else [])) ∧
        (index ≠ 0 → index ≠ 0xFF → index ∈ covered → (measValue s (fnInst fn) index).isSome = true →
          Nexts (exec (.getMeasurements fn index sign tr) s)
            (replies 0x60 none (measBlock s (fnInst fn) index ++ if sign then sig else []))) ∧
        (index ≠ 0 → index ≠ 0xFF → index ∉ covered ∨ (measValue s (fnInst fn) index).isNone = true →
          Nexts (exec (.getMeasurements fn index sign tr) s) (errs 0x01))) ∧
      ((s.tru.sessions.filter (fun y => y.fn == fn)).length < 2 → s.tru.sessions.length < 64 → derives s = true →
        Nexts (exec (.keyExchange fn tr) s) (fun t =>
          t.tru.sessions = s.tru.sessions ++ [{ id := s.tru.nextSess, fn := fn }] ∧
          t.tru.reply = some { code := 0x64, fn := fn, session := none, data := natLe 2 s.tru.nextSess ++ sig })) ∧
      (2 ≤ (s.tru.sessions.filter (fun y => y.fn == fn)).length ∨ 64 ≤ s.tru.sessions.length →
        Nexts (exec (.keyExchange fn tr) s) (errs 0x0A)) ∧
      (sessOf s fn id = some x → Nexts (exec (.finish fn id key true th) s) (fun t =>
        sessOf t fn id = some { x with established := true, reqKey := key, th := th } ∧
        t.tru.reply = some { code := 0x65, fn := fn, session := some id, data := [] })) ∧
      (sessOf s fn id = some x → Nexts (exec (.finish fn id key false th) s) (fun t => sessOf t fn id = none ∧
        t.tru.reply = some { code := 0x7F, err := 0x06, fn := fn } ∧ live t Reg.TRU_COUNTS 7 0 =
          if key.isSome then satAdd 8 (live s Reg.TRU_COUNTS 7 0) 1 else live s Reg.TRU_COUNTS 7 0)) ∧
      (sessOf s fn id = none → Nexts (exec (.finish fn id key ok th) s) (errs 0x02)) ∧
      (secureSess s fn (some id) = some x →
        Nexts (exec (.spdmHeartbeat fn id) s) (replies 0x68 (some id) []) ∧
        Nexts (exec (.keyUpdate fn id) s) (replies 0x69 (some id) []) ∧
        Nexts (exec (.endSession fn id) s) (fun t => sessOf t fn id = none ∧
          (s.tru.testBy = some id → testActive t = false ∧ t.tst.injections = []) ∧
          t.tru.reply = some { code := 0x6C, fn := fn, session := some id, data := [] })) ∧
      (secureSess s fn (some id) = none → ∀ c ∈ [Instr.spdmHeartbeat fn id, .keyUpdate fn id, .endSession fn id],
        Nexts (exec c s) (errs 0x02)) ∧
      Nexts (exec (.unsupportedRequest fn) s) (errs 0x07) ∧
      Nexts (exec (.pqChain fn ses) s) (replies 0x7E ses (natLe 1 0 ++ Config.pqChain (aliasCtx s))))

/-- R652, R655, R656, R661 to R664, R667 to R670, R675: vendor requests, IDE, TDISP and MEAS_SELECT. -/
def Obligations.VendorRequestsAndTdispActUnderTheirAuthority : Prop :=
  ∀ (s : State) (fn inst k v keyIndex version signer port : Nat) (ses : Option Nat) (hash b : Bytes) (keys : KeySigs)
      (x : Sess),
    let only := fun (t : State) => { t with tru := { t.tru with reply := s.tru.reply } } = s
    let told := fun (data : Bytes)
      (t : State) => t.tru.reply = some { code := 0x7E, fn := fn, session := ses, data := data }
    let h := sha384 (keys.mldsaPub ++ keys.ecdsaPub)
    let i := fnInst fn
    let r := registryOf s i
    let empty := r.entries.all (·.isEmpty)
    let failed := fun (n : Nat) (t : State) => told (natLe 1 n) t ∧ t.tru.sessions = s.tru.sessions ∧
      live t Reg.TRU_COUNTS 7 0 = satAdd 8 (live s Reg.TRU_COUNTS 7 0) 1
    let new := r.entries.set keyIndex (if isZero hash 0 48 then [] else hash)
    let word := fun (t : State) => historyOf t 4 =
      sha384 (historyOf s 4 ++ measRecord 4 4 0xFFFF 0 0 (secState t) [] [] 0 0)
    let st := Tab.getD s.tru.tdi inst .unlocked
    let tdi := fun (t : State) => Tab.getD t.tru.tdi inst .unlocked
    let tdiOk := fn < 2 ∧ (secureSess s fn ses).isSome = true ∧ inst ≠ 0 ∧ (instOf s inst).state ≠ .free ∧
      (instOf s inst).port = fn
    (fnBusy s fn = false →
      (secureSess s fn ses = some x → keys.mldsaPub.length = 2592 → keys.ecdsaPub.length = 97 →
        (Config.mldsaOk keys.mldsaPub x.th keys.mldsaSig = true → Nexts (exec (.bind fn ses keys) s) (fun t =>
          told (natLe 1 0) t ∧ sessOf t fn x.id =
            some { x with bound := some (h, keys.ecdsaPub) })) ∧
        (Config.mldsaOk keys.mldsaPub x.th keys.mldsaSig = false →
          Nexts (exec (.bind fn ses keys) s) (failed 0x11))) ∧
      (secureSess s fn ses = some x → keys.mldsaPub.length ≠ 2592 ∨ keys.ecdsaPub.length ≠ 97 →
        Nexts (exec (.bind fn ses keys) s) (failed 0x10)) ∧
      (isAttested s x = true ↔ x.established = true ∧ ∃ b, x.bound = some b ∧ x.reqKey = some b.2 ∧
        b.1 ∈ (registryOf s (fnInst x.fn)).entries) ∧
      (secureSess s fn ses = none →
        ∀ c ∈ [Instr.bind fn ses keys, .regUpdate fn ses keyIndex hash version signer keys],
        Nexts (exec c s) (fun t => only t ∧ told (natLe 1 0x11) t)) ∧
      (secureSess s fn ses = some x → keyIndex < 8 → hash.length = 48 → signer < 8 → version = r.version + 1 →
        (empty = true ∨ isAttested s x = true ∧ regSigned s i keyIndex hash version signer keys = true) →
        new.all (·.isEmpty) = false →
        Nexts (exec (.regUpdate fn ses keyIndex hash version signer keys) s) (fun t => told (natLe 1 0) t ∧
          registryOf t i = { version := version, entries := new } ∧ (∀ j, j ≠ i → registryOf t j = registryOf s j) ∧
          live t Reg.TRU_COUNTS 15 8 = satAdd 8 (live s Reg.TRU_COUNTS 15 8) 1)) ∧
      (secureSess s fn ses = some x → keyIndex < 8 → hash.length = 48 → signer < 8 →
        (version ≠ r.version + 1 ∨ new.all (·.isEmpty) = true ∨ empty = false ∧
          (isAttested s x = false ∨ regSigned s i keyIndex hash version signer keys = false)) →
        Nexts (exec (.regUpdate fn ses keyIndex hash version signer keys) s) (fun t => only t ∧
          told (natLe 1 0x11) t)) ∧
      (operatorAttested s fn ses = true →
        ((∀ q ∈ s.ten.insts, q.1 = 0 ∨ q.2.state = .free) → Nexts (exec (.release fn ses) s) (fun t =>
          told (natLe 1 0) t ∧ claimed t = false ∧
            Tab.getD t.tru.instEpoch 0 0 = Tab.getD s.tru.instEpoch 0 0 + 1)) ∧
        ((∃ q ∈ s.ten.insts, q.1 ≠ 0 ∧ q.2.state ≠ .free) → Nexts (exec (.release fn ses) s) (fun t =>
          (∃ n ∈ failures, told (natLe 1 n) t) ∧ t.tru.registries = s.tru.registries ∧
          t.tru.instEpoch = s.tru.instEpoch)) ∧
        (testActive s = false → Nexts (exec (.testOpen fn ses) s) (fun t => told (natLe 1 0) t ∧
          t.tru.testBy = ses ∧
          testActive t = true ∧ word t)) ∧
        (testActive s = true → Nexts (exec (.testClose fn ses) s) (fun t => told (natLe 1 0) t ∧
          testActive t = false ∧
          t.tst.injections = [] ∧ word t)) ∧
        Nexts (exec (.decommission fn ses) s) (fun t => told (natLe 1 0) t ∧ t.tru.lifecycle = 2 ∧ word t ∧
          ∀ n, deviceKey t n = none)) ∧
      (operatorAttested s fn ses = false →
        ∀ c ∈ [Instr.release fn ses, .testOpen fn ses, .testClose fn ses, .decommission fn ses],
          Nexts (exec c s) (fun t => only t ∧ told (natLe 1 0x11) t)) ∧
      (fn < 2 → (secureSess s fn ses).isSome = true → k < 4 →
        Nexts (exec (.ideKm fn ses k (some b)) s) (fun t => told (natLe 1 0) t ∧
          Tab.get? t.tru.ide (fn * 4 + k) = some b ∧ (Tab.getD t.hif.links fn {}).ide = true) ∧
        Nexts (exec (.ideKm fn ses k none) s) (fun t => told (natLe 1 0) t ∧
          Tab.get? t.tru.ide (fn * 4 + k) = none)) ∧
      (2 ≤ fn ∨ (secureSess s fn ses).isNone = true → Nexts (exec (.ideKm fn ses k (some b)) s) (fun t => only t ∧
        told (natLe 1 0x11) t)) ∧
      (tdiOk →
        (st = .unlocked → (Tab.get? s.tru.ide (fn * 4 + k)).isSome = true → k < 4 →
          Nexts (exec (.tdispMessage fn ses inst (.lockInterface k)) s) (fun t => told (natLe 1 0) t ∧
            tdi t = .locked ∧
            Tab.get? t.tru.tdiStream inst = some k)) ∧
        (st ≠ .unlocked → Nexts (exec (.tdispMessage fn ses inst (.lockInterface k)) s) (fun t => only t ∧
          told (natLe 1 0x10) t)) ∧
        (st = .locked → Nexts (exec (.tdispMessage fn ses inst .startInterface) s) (fun t => told (natLe 1 0) t ∧
          tdi t = .run)) ∧
        (st ≠ .locked → Nexts (exec (.tdispMessage fn ses inst .startInterface) s) (fun t => only t ∧
          told (natLe 1 0x10) t)) ∧
        Nexts (exec (.tdispMessage fn ses inst .stopInterface) s) (fun t => told (natLe 1 0) t ∧ tdi t = .unlocked ∧
          Tab.get? t.tru.tdiStream inst = none) ∧
        Nexts (exec (.tdispMessage fn ses inst .getInterfaceState) s) (fun t => only t ∧
          told (natLe 1 0 ++ natLe 1 (tdiCode st)) t) ∧
        (st = .locked ∨ st = .run →
          Nexts (exec (.tdispMessage fn ses inst .getInterfaceReport) s) (fun t => only t ∧
          told (natLe 1 0 ++ (natLe 4 1 ++ natLe 4 65536)) t))) ∧
      (¬ tdiOk → Nexts (exec (.tdispMessage fn ses inst .stopInterface) s) (fun t => only t ∧
        told (natLe 1 0x11) t))) ∧
    (k < 4 → (Tab.get? s.tru.ide (port * 4 + k)).isSome = true →
      Nexts (exec (.ideIntegrityFailure port k) s) (fun t =>
      Tab.get? t.tru.ide (port * 4 + k) = none ∧ ∀ n, n ≠ port * 4 + k →
        Tab.get? t.tru.ide n = Tab.get? s.tru.ide n)) ∧
    (Tab.get? s.tru.ide (port * 4 + k) = none → exec (.ideIntegrityFailure port k) s = .next s) ∧
    Nexts (exec (.measSelect v) s) (fun t => t.tru.snap = measSnap s (fld v 24 16) (fld v 7 0) ∧
      live t Reg.TRU_MEAS_SEL 24 16 = fld v 24 16 ∧ live t Reg.TRU_MEAS_SEL 7 0 = fld v 7 0)

/-- R651, R652, R680 to R699, R722: the start. -/
def Obligations.StartsBeginRunTheirPhasesAndReachReady : Prop :=
  ∀ (s : State) (env : StartEnv) (port : Nat),
    let b := s.boot
    let enters := fun (cause : Nat) (t : State) => t.boot.phase = .entry ∧ t.boot.entryCause = cause ∧
      t.boot.entrySince = s.now ∧ t.boot.sbReady = false ∧ t.sbx.flushMode = true ∧ t.tst.injections = [] ∧
      (linkOf t 0).up = false ∧ (linkOf t 1).up = false ∧ (s.jct.joined = true → t.jct.left = true) ∧
      ∀ tag e, entryOf t tag = some e → 0 < e.admitted → (lineOf t e.t.line).dirty = true
    let triggers := b.off = false ∧ s.pwr.powerLoss = false ∧ b.phase = .ready
    let ends := fun (t : State) => (env.dusOk = false → t.boot.phase = .halted ∧ t.boot.halt = 1) ∧
      (env.dusOk = true → env.systemFault = true → t.boot.phase = .halted ∧ t.boot.halt = 3) ∧
      (env.dusOk = true → env.systemFault = false → t.boot.phase = .restore ∨ t.boot.phase = .halted ∧
        t.boot.halt = 2)
    let keeps := fun (t : State) => t.pending = s.pending ∧ t.sbx.store = [] ∧ t.stn.inbox = [] ∧
      t.tru.sessions = [] ∧
      t.tru.testBy = none ∧ t.tru.lifecycle = s.tru.lifecycle ∧ t.tru.registries = s.tru.registries ∧
      t.tru.instEpoch = s.tru.instEpoch ∧ t.dev.serial = s.dev.serial ∧
      ∀ n, n < 218 → (unitOf t n).gen = ((unitOf s n).recordedGen + 256) % 65536
    (triggers → Nexts (exec .warm s) (enters 0x11)) ∧
    (triggers → b.wdt.isSome = true → Nexts (exec .watchdogExpire s) (enters 0x12)) ∧
    (b.phase ≠ .ready → exec .warm s = .next s ∧ exec .watchdogExpire s = .next s) ∧
    (b.wdt = none → exec .watchdogExpire s = .next s) ∧
    (b.phase = .entry → Nexts (exec .entryCutoff s) (fun t => t.boot.phase = .rom ∧ t.boot.begun = true ∧
      t.boot.kind = 2 ∧
      t.boot.cause = b.entryCause ∧ t.boot.mark = 2 ∧ t.ftl.warmImage = none)) ∧
    (b.phase ≠ .entry → exec .entryCutoff s = .next s) ∧
    (s.pwr.thermHold = false ∨ s.pwr.tModel < 100 → b.off = true ∨ b.phase = .rom ∧ b.begun = false →
      Nexts (exec .powerOn s) (fun t => t.boot.phase = .rom ∧ t.pwr.thermHold = false ∧
      t.boot.begun = true ∧ t.boot.kind = 1 ∧ t.boot.off = false ∧ t.pwr.rbGate = true ∧ t.boot.cause =
        if b.abandoned then 3 else if b.mark = 2 then 2
        else if b.mark = 3 ∨ b.mark = 1 ∧ s.ftl.closed = true then 1 else 3)) ∧
    (s.pwr.thermHold = true → 100 ≤ s.pwr.tModel → exec .powerOn s = .next s) ∧
    (b.off = false → (b.phase ≠ .rom ∨ b.begun = true) → exec .powerOn s = .next s) ∧
    (b.phase = .rom → b.begun = true → b.off = false →
      (b.kind = 1 → Nexts (exec (.coldStart env) s) (fun t => ends t ∧ keeps t ∧
        live t Reg.BOOT_CYCLES 31 0 = (topCycles s env.torn + 1) % 2 ^ 32)) ∧
      (b.kind = 2 → Nexts (exec (.warmStart env) s) (fun t => ends t ∧ keeps t ∧
        live t Reg.BOOT_CYCLES 31 0 = live s Reg.BOOT_CYCLES 31 0 ∧
        live t Reg.BOOT_WARM 15 0 = satAdd 16 (live s Reg.BOOT_WARM 15 0) 1))) ∧
    (b.phase = .entry → b.off = false → Nexts (exec (.warmStart env) s) ends) ∧
    (b.phase ≠ .rom ∨ b.begun = false → exec (.coldStart env) s = .next s) ∧
    (b.phase = .restore → s.pwr.peat ≠ .ramp → s.pwr.powerLoss = false → Nexts (exec .startReady s) (fun t =>
      t.boot.phase = .ready ∧ t.boot.begun = false ∧ t.boot.sbReady = true ∧ t.boot.wdt = some s.now ∧
      (eff s Reg.FED_NODE_CFG 31 31 = 1 → t.jct.joined = true))) ∧
    (b.phase ≠ .restore ∨ s.pwr.peat = .ramp → exec .startReady s = .next s) ∧
    (b.off = true →
      Nexts (exec (.perstAssert port) s) (fun t => { t with boot := { t.boot with perst := b.perst } } = s ∧
      (if port = 0 then t.boot.perst.1 else t.boot.perst.2) = true)) ∧
    (b.off = false → b.vinOk = true → s.pwr.thermHold = true → s.pwr.tModel < 100 → s.pwr.flushStep = 8 →
      Nexts (exec (.perstAssert port) s) (fun t => t.boot.phase = .rom ∧ t.boot.kind = 2 ∧ t.boot.cause = 0x13 ∧
        t.pwr.thermHold = false ∧ t.pwr.powerLoss = false)) ∧
    (b.off = false → s.pwr.thermHold = true → 100 ≤ s.pwr.tModel → Nexts (exec (.perstAssert port) s) (fun t =>
      { t with boot := { t.boot with perst := b.perst } } = s)) ∧
    (b.off = false → s.pwr.thermHold = false → s.pwr.powerLoss = false → portExists s port = true →
      b.phase = .ready →
      Nexts (exec (.perstAssert port) s) (fun t => (linkOf t port).up = false ∧ (ctrlOf t port).aer = [] ∧
        (ctrlOf t port).cc = 0)) ∧
    Nexts (exec (.perstRelease port) s) (fun t => { t with boot := { t.boot with perst := b.perst } } = s ∧
      (if port = 0 then t.boot.perst.1 else t.boot.perst.2) = false)

/-- R704 to R718: firmware update. -/
def Obligations.FirmwareIsStagedWrittenTriedAndConfirmed : Prop :=
  ∀ (s : State) (data : Bytes) (r : UpdReq) (c idx n : Nat) (e : Bytes) (rest : List (Nat × Bytes)),
    let p := fwPtr s
    let u := s.upd
    let done := fun (st : Nat) (t : State) => t.upd.req = none ∧ live t Reg.UPD_RESULT 7 0 = st ∧
      live t Reg.UPD_RESULT 8 8 = 1
    let same := fun (t : State) => t.upd.slotA = u.slotA ∧ t.upd.slotB = u.slotB ∧ t.upd.ptrs = u.ptrs
    let img := fit r.len data
    let check := imageCheck s u.staging p.floor true
    let written := fun (t : State) => slotFw t n = { image := u.staging, mark := some (markOf u.staging) } ∧
      slotFw t (1 - n) = slotFw s (1 - n)
    let tries := fun
      (t : State) => fwPtr t = { p with count := p.count + 1, active := n, trial := true, boots := 0 } ∧
      t.upd.fellBack = false
    let ptrOk := (∀ a, u.ptrs.1 = some a → a.count % 2 = 0) ∧ (∀ a, u.ptrs.2 = some a → a.count % 2 = 1)
    let asks := fun (op : Nat) => u.req = some r ∧ r.op = op ∧ s.boot.phase ≠ .halted ∧ namedSlot s r.slot = n ∧
      n < 2
    let man := manifestOf (slotFw s p.active).image
    let floor := if mRaise man then mSvn man else p.floor
    let confirmed := fun (t : State) =>
      fwPtr t = { p with count := p.count + 1, trial := false, boots := 0, floor := floor }
    let healthy := ∀ k < 16, (coreOf s k).state = .running ∨ (coreOf s k).state = .waiting ∨
      (coreOf s k).state = .offline
    let down := (eDw e 10 + 1) * 4
    let off := eDw e 11 * 4
    let sends := fun (op : Nat) => cmdWaits s c 0 idx e rest ∧ c < 2 ∧ eOp e = op
    let cqes := fun (st : Nat) (t : State) => completed s t c 0 idx e st 0 0
    (u.req = some r → r.op = 1 → s.boot.phase ≠ .halted → s.ftl.state = .ready →
      (hTotal img = r.len → failingBlock img 0 = none → Nexts (exec (.stage data false) s) (fun t => done 0 t ∧
        t.upd.staging = img ∧ t.upd.loading = false ∧ same t)) ∧
      (hTotal img = r.len → failingBlock img 0 = some n → n < 2 ^ 32 → Nexts (exec (.stage data false) s) (fun t =>
        done 0x08 t ∧ t.upd.staging = [] ∧ live t Reg.UPD_RESULT_DETAIL 31 0 = n ∧ same t)) ∧
      (r.len < hTotal img → Nexts (exec (.stage data false) s) (done 0x01)) ∧
      Nexts (exec (.stage data true) s) (done 0x01)) ∧
    (∀ o ∈ [(Instr.updWriteSlot, 2), (Instr.updWriteActivate, 3), (Instr.updActivateSlot, 4)], asks o.2 →
      p.trial = true →
      Nexts (exec o.1 s) (fun t => done 0x11 t ∧ same t)) ∧
    (ptrOk → p.trial = false → n ≠ p.active →
      (∀ st, check = some st → st < 256 → (asks 2 → Nexts (exec .updWriteSlot s) (fun t => done st t ∧ same t)) ∧
        (asks 3 → Nexts (exec .updWriteActivate s) (fun t => done st t ∧ same t))) ∧
      (check = none → (asks 2 → Nexts (exec .updWriteSlot s) (fun t => done 0 t ∧ written t ∧
        t.upd.ptrs = u.ptrs)) ∧
        (asks 3 → Nexts (exec .updWriteActivate s) (fun t => done 0 t ∧ written t ∧ tries t))) ∧
      (asks 4 → imageCheck s (slotFw s n).image p.floor false = none → slotValid s n = true →
        Nexts (exec .updActivateSlot s) (fun t => done 0 t ∧ tries t ∧ t.upd.slotA = u.slotA ∧
          t.upd.slotB = u.slotB)) ∧
      (sends 0x10 → namedSlot s (eDw e 10 % 8) = n → eDw e 10 % 8 < 3 → check = none →
        (eDw e 10 / 8 % 8 = 0 → Nexts (exec (.firmwareCommit c) s) (fun t => cqes 0 t ∧ written t ∧
          t.upd.ptrs = u.ptrs)) ∧
        (eDw e 10 / 8 % 8 = 1 → Nexts (exec (.firmwareCommit c) s) (fun t => cqes 0 t ∧ written t ∧ tries t)))) ∧
    (sends 0x11 → s.ftl.state = .ready → off = (if off = 0 then [] else u.staging).length → off % 4096 = 0 →
      off + down ≤ 33554432 → (let all := (if off = 0 then [] else u.staging) ++ fit down data
        failingBlock all (arrivedBlocks (if off = 0 then [] else u.staging)) = none →
        Nexts (exec (.firmwareImageDownload c data) s) (fun t => cqes 0 t ∧ t.upd.staging = all ∧ same t))) ∧
    (p.trial = true → p.boots = 0 → s.boot.off = false → s.pwr.powerLoss = false → s.boot.phase = .ready →
      Nexts (exec .activate s) (fun t => t.boot.phase = .entry ∧ t.boot.entryCause = 0x14)) ∧
    (p.trial = false ∨ p.boots ≠ 0 → exec .activate s = .next s) ∧
    (ptrOk → onTrial s = true → s.boot.phase = .ready → healthy → (eff s Reg.UPD_CFG 0 0 = 0 ∨ u.confirm = true) →
      Nexts (exec .selfOk s) (fun t => t.upd.selfOk = true ∧ confirmed t)) ∧
    (s.boot.phase = .ready → healthy → (onTrial s = false ∨ eff s Reg.UPD_CFG 0 0 ≠ 0 ∧ u.confirm = false) →
      Nexts (exec .selfOk s) (fun t => t.upd.selfOk = true ∧ t.upd.ptrs = u.ptrs)) ∧
    (¬ healthy → exec .selfOk s = .next s) ∧
    (ptrOk → onTrial s = true → u.selfOk = true → Nexts (exec .confirm s) (fun t => t.upd.confirm = true ∧
      confirmed t)) ∧
    (onTrial s = false ∨ u.selfOk = false → Nexts (exec .confirm s) (fun t => { t with upd := u } = s ∧
      t.upd = { u with confirm := true })) ∧
    (ptrOk → s.boot.phase = .ready → onTrial s = true → s.boot.off = false → s.pwr.powerLoss = false →
      Nexts (exec .confirmTimeout s) (fun t => t.upd.fellBack = true ∧ t.boot.phase = .entry ∧
        t.boot.entryCause = 0x14 ∧
        fwPtr t = { p with count := p.count + 1, active := 1 - p.active, trial := false, boots := 0 })) ∧
    (onTrial s = false → exec .confirmTimeout s = .next s)

/-- R724, R725, R727, R730, R775, R777: the event recorder, SMBus and the test port. -/
def Obligations.TheRecorderMirrorsSuppressesReadsAndClears : Prop :=
  ∀ (s : State) (k n ir : Nat) (c : EvrClear),
    let b := Config.norFails s.freeCount
    let v := s.evr
    let seq := effWord s Reg.EVR_READ_SEL_LO + effWord s Reg.EVR_READ_SEL_HI * 2 ^ 32
    (v.page ≠ [] → exec .mirrorPageFlush s =
      .next { s with
        freeCount := s.freeCount + 1,
        evr := { v with norFail := v.norFail || b, mirror := v.page.foldl ringPush v.mirror, page := [] } }) ∧
    (v.page = [] → exec .mirrorPageFlush s = .next s) ∧
    ((∀ q ∈ v.second, q.2 ≤ 64) → exec .suppressed s =
      .next { s with evr := { v with second := [], secondSince := s.now } }) ∧
    (v.second = [(k, n)] → 64 < n → v.norFail = false → v.clear = none →
      Nexts (exec .suppressed s) (fun t => t.evr.second = [] ∧
      t.evr.secondSince = s.now ∧ t.evr.nextSeq = v.nextSeq + 1 ∧
      live t Reg.EVR_COUNTS 15 8 = satAdd 8 (live s Reg.EVR_COUNTS 15 8) 1 ∧
      ∃ r, t.evr.nor = ringPush v.nor r ∧ r.seq = v.nextSeq ∧ r.event = 0x0005 ∧ r.unit = k % 256 ∧
        r.detail = natLe 2 (k / 256) ++ natLe 4 (n - 64))) ∧
    (v.reading = true → exec .evrRead s =
      .next { s with evr := { v with reading := false, snap := (recordOf s seq).map recordBytes } }) ∧
    (v.reading = false → exec .evrRead s = .next s) ∧
    (v.clear = none → exec .evrClear s = .next s) ∧
    (v.clear = some c →
      (c.step = 1 → Nexts (exec .evrClear s) (fun t => t.evr = { v with clear := some { c with step := 2 } } ∧
        ∀ j, c.first ≤ j → j ≤ c.last → recordOf t j = none)) ∧
      (c.step = 2 → exec .evrClear s = .next { s with
        freeCount := s.freeCount + 1, evr := { v with
          norFail := v.norFail || b, clear := some { c with step := 3 }, nor := [], mirror := [], page := [] } }) ∧
      (c.step = 3 → Nexts (exec .evrClear s) (fun t => t.evr.clear = some { c with step := 4 } ∧
        t.evr.waiting = [] ∧
        t.evr.page = [] ∧ t.evr.nextSeq = v.nextSeq + 1 + v.waiting.length ∧
        (v.waiting = [] → v.norFail = false → ∃ r, t.evr.nor = ringPush v.nor r ∧ r.event = 0x0004 ∧
          r.detail = natLe 8 c.first ++ natLe 8 c.last ++ natLe 2 c.session))) ∧
      (c.step = 4 → Nexts (exec .evrClear s) (fun t => t.evr.clear = none ∧ t.evr.waiting = [] ∧
        t.evr.nextSeq = v.nextSeq + v.waiting.length ∧
        (v.waiting = [] → t = { s with evr := { v with clear := none } })))) ∧
    exec .smbusTimeout s = .next { s with hif := { s.hif with smbResets := s.hif.smbResets + 1 } } ∧
    Nexts (exec (.testPortInstruction ir) s)
      (fun t => { t with boot := { t.boot with testIr := s.boot.testIr } } = s ∧
      (ir = 1 → t.boot.testIr = 1) ∧ (ir = 2 → s.tru.lifecycle = 0 → t.boot.testIr = 2) ∧
      (ir = 2 → s.tru.lifecycle ≠ 0 → t.boot.testIr = 0) ∧ (ir ≠ 1 → ir ≠ 2 → t.boot.testIr = 0))

/-- R733 to R741, R747 to R749: tests, the self-test and injections. -/
def Obligations.UnitsAreTestedAndInjectionsBeginAndEnd : Prop :=
  ∀ (s : State) (z : Taking) (u p tl cc idx kind target : Nat) (pass auto : Bool) (x : InTest) (i : Inj) (e : Bytes)
      (rest : List (Nat × Bytes)),
    let m := s.tst
    let r := unitOf s u
    let calm := r.held = [] ∧ (recentIncs s r).length < 2
    let alone := s.boot.phase = .ready ∧ s.pwr.powerLoss = false ∧ m.selfLeft = [] ∧ m.queue = [z] ∧
      m.urgent = [] ∧ z.atOnce = false ∧ mustWait s z = false ∧ z.unit = u
    let bound := fun (t : State) => (unitOf t p).state = .bound ∧ (unitOf t p).serves = u
    let told := fun (n : Nat) (t : State) => live t Reg.TST_UNIT_RESULT 1 0 = n ∧
      live t Reg.TST_UNIT_RESULT 15 8 = u ∧ live t Reg.TST_UNIT_RESULT 16 16 = 1
    let ready := testEntry s u = some x ∧ x.draining = false ∧ x.back = false ∧ s.pwr.powerLoss = false ∧
      u < 180 ∧ x.unit = u ∧ pendingOf s u = []
    let good := pass = true ∧ (32 ≤ u → u < 72 → tl ≤ if u < 64 then 1 else 4)
    let asked := fun (n : Nat) => m.injAsked.find? (fun q => q.1.kind == n)
    let begun := fun (n : Nat) (t : State) => t.tst = { m with
      injAsked := dropFirst
        (fun q => q.1.kind == n) m.injAsked, injections := m.injections ++ [i], autoHeld := auto }
    let stc := eDw e 10 % 16
    let asks := cmdWaits s cc 0 idx e rest ∧ cc < 2 ∧ eOp e = 0x14
    let done := fun (st : Nat) (t : State) => completed s t cc 0 idx e st 0 0
    (alone → mayTake s z = true → Nexts (exec .unitTestRequest s) (fun t => t.tst.queue = [] ∧
      (z.cause ≠ 0 → kindOf u = 6 ∨ kindOf u = 7 → spareFree s u 0 = some p → bound t ∧
        t.tst.inTest = m.inTest ++ [{
        unit := u, cause := z.cause, bank := z.bank, spare := some p, draining := true,
        tags := insideOf s u }]) ∧
      (kindOf u = 8 → calm → (unitOf t u).state = .test) ∧
      (kindOf u = 5 → spareFree s u 0 = some p → bound t ∧ coreOf t (48 + (p - 182)) = coreOf s (u - 72) ∧
        (coreOf t (u - 72)).state = .test) ∧
      (kindOf u = 2 → calm → (unitOf t u).state = .test ∧ (fenOf t (u - 32)).state = .test))) ∧
    (alone → mayTake s z = false → z.cause = 1 → u < 256 →
      Nexts (exec .unitTestRequest s) (fun t => t.tst.queue = [] ∧
      told 3 t ∧ t.tst.inTest = m.inTest ∧ t.dev = s.dev)) ∧
    (s.boot.phase ≠ .ready → exec .unitTestRequest s = .next s) ∧
    (eff s Reg.TST_CFG 7 0 ≠ 0 → m.queue.length < 16 → s.boot.phase = .ready → Nexts (exec .rotate s) (fun t =>
      ∃ v, testable v = true ∧ (m.lastRotated < v ∨ ∀ w, w < 180 → testable w = true → w ≤ m.lastRotated) ∧
        t.tst = { m with lastRotated := v, queue := m.queue ++
          [{ unit := v, cause := 2, bank := 4 * (v - 152) }] })) ∧
    (eff s Reg.TST_CFG 7 0 = 0 → exec .rotate s = .next s) ∧
    (testEntry s u = some x → x.draining = true → m.urgent = [] → Nexts (exec (.testDrainTimeout u) s) (fun t =>
      (∀ tag ∈ insideOf s u, ∀ e, entryOf t tag = some e → e.revoking = true) ∧
      ∀ y ∈ t.tst.inTest, y.unit = u → y.draining = false)) ∧
    (testEntry s u = none → exec (.testDrainTimeout u) s = .next s ∧
      (pendingOf s u = [] → exec (.unitTestDone u { passed := pass, tiles := tl }) s = .next s)) ∧
    (ready → kindOf u ≠ 9 → Nexts (exec (.unitTestDone u { passed := pass, tiles := tl }) s) (fun t =>
      (good → live t (Reg.TST_UNIT_TEST + 8 * u) 1 0 = 1) ∧ (¬ good → live t (Reg.TST_UNIT_TEST + 8 * u) 1 0 = 2) ∧
      live t (Reg.TST_UNIT_TEST + 8 * u) 15 8 = satAdd 8 (live s (Reg.TST_UNIT_TEST + 8 * u) 15 8) 1 ∧
      (x.cause = 1 → (good → told 1 t) ∧ (¬ good → told 2 t)) ∧
      (kindOf u = 8 → x.spare = none → calm → (unitOf t u).state =
        if pass then (if r.role = 0 then .idle else .active) else .offline) ∧
      (pass = false → kindOf u = 6 ∨ kindOf u = 7 → x.spare = some p → unitOf t p = unitOf s p ∧
        t.tst.inTest = dropFirst (fun y => y.unit == u) m.inTest) ∧
      (kindOf u = 2 ∨ kindOf u = 3 → (fenOf t (u - 32)).failedTiles = tl ∧
        (good → (fenOf t (u - 32)).state = .scrubbing) ∧ (¬ good → (fenOf t (u - 32)).state = .offline)))) ∧
    (asks → m.selfTest = 0 → stc = 1 ∨ stc = 2 → Nexts (exec (.deviceSelfTest cc) s) (fun t => done nOk t ∧
      t.tst.selfTest = stc ∧ t.tst.selfResult = [])) ∧
    (asks → m.selfTest ≠ 0 → stc = 1 ∨ stc = 2 → Nexts (exec (.deviceSelfTest cc) s) (fun t =>
      done (nstat 1 0x1D true) t ∧ t.tst = m)) ∧
    (asks → stc = 0xF → Nexts (exec (.deviceSelfTest cc) s) (fun t => done nOk t ∧ t.tst.selfTest = 0 ∧
      t.tst.selfLeft = [] ∧ ∀ y ∈ t.tst.queue, y.cause ≠ 3)) ∧
    (asks → stc ≠ 1 → stc ≠ 2 → stc ≠ 0xF → Nexts (exec (.deviceSelfTest cc) s) (fun t =>
      done (nstat 0 2 true) t ∧ t.tst = m)) ∧
    (asked 1 = some (i, auto) → Nexts (exec .sramSymbol s) (begun 1)) ∧
    (asked 2 = some (i, auto) → Nexts (exec .trunkSymbol s) (begun 2)) ∧
    (asked 3 = some (i, auto) → Nexts (exec .dramSymbol s) (begun 3)) ∧
    (asked 4 = some (i, auto) → Nexts (exec .flashBits s) (begun 4)) ∧
    (asked 5 = some (i, auto) → Nexts (exec .flashFail s) (begun 5)) ∧
    (asked 6 = some (i, auto) → Nexts (exec .causewayDelay s) (begun 6)) ∧
    (asked 7 = some (i, auto) → Nexts (exec .backpressure s) (begun 7)) ∧
    (asked 8 = some (i, auto) → Nexts (exec .clock s) (begun 8)) ∧
    (asked 1 = none → exec .sramSymbol s = .next s) ∧
    (asked 2 = none → exec .trunkSymbol s = .next s) ∧
    (asked 3 = none → exec .dramSymbol s = .next s) ∧
    (asked 4 = none → exec .flashBits s = .next s) ∧
    (asked 5 = none → exec .flashFail s = .next s) ∧
    (asked 6 = none → exec .causewayDelay s = .next s) ∧
    (asked 7 = none → exec .backpressure s = .next s) ∧
    (asked 8 = none → exec .clock s = .next s) ∧
    (m.injections.find? (fun j => j.kind == kind && j.target == target) = some i →
      ((kind = 6 ∨ kind = 8) → i.windowUs ≠ 0 → Nexts (exec (.injectionWindowEnd kind target) s) (fun t =>
        t.tst.injections = dropFirst (· == i) m.injections)) ∧
      ((kind = 6 ∨ kind = 8) → i.windowUs = 0 → Nexts (exec (.injectionWindowEnd kind target) s) (fun t =>
        t.tst.injections = m.injections)) ∧
      (kind = 7 → i.holding = false → Nexts (exec (.injectionWindowEnd kind target) s) (fun t =>
        t.tst.injections = m.injections.map (fun j => if j = i then { i with holding := true } else j))) ∧
      (kind = 7 → i.holding = true → i.count ≤ 1 → Nexts (exec (.injectionWindowEnd kind target) s) (fun t =>
        t.tst.injections = dropFirst (· == i) m.injections))) ∧
    (m.injections.find? (fun j => j.kind == kind && j.target == target) = none →
      exec (.injectionWindowEnd kind target) s = .next s) ∧
    exec .stop s = .next { s with tst := { m with injections := [], injAsked := [] } }

/-- A step takes the command at the front of the queue. The tick on an empty queue is the model's choice (log 1). -/
def Obligations.AStepRunsTheCommandAtTheFront : Prop :=
  ∀ (c : Instr) (s : State) (rest : List Instr) (nbits w : Nat),
    step { s with pending := c :: rest } = exec c { s with pending := rest } ∧
    (∃ t, exec c s = .next t ∧ t.pending = s.pending) ∧
    (s.pending = [] → step s = .next (tick s)) ∧ s.withFetchWord nbits w = s

/-- The reset values that the spec's register tables give; the choices are those of logs 2, 4 and 8. -/
def Obligations.ResetLeavesTheSpecsValues : Prop :=
  let s := State.reset
  (∀ a, liveWord s a = resetOf a ∧ stagedWord s a = resetOf a ∧ effWord s a = resetOf a) ∧
  eff s Reg.SBX_SMALL_LIMIT 31 0 = 0x7D00 ∧ eff s Reg.SBX_EPOCH_CTL 7 0 = 8 ∧ eff s Reg.SBX_SHARE 16 0 = 0x10000 ∧
  eff s (Reg.SBX_SHARE + 4) 16 0 = 0 ∧ eff s Reg.PWR_THERM_CFG 7 0 = 105 ∧ eff s Reg.PWR_THERM_CFG 23 8 = 3000 ∧
  eff s (Reg.FCH_CH_CFG + 0x40 * 31) 20 16 = 10 ∧ eff s Reg.FTL_SLUICE_CFG 22 16 = 80 ∧
  eff s Reg.FTL_CKPT_CFG 31 16 = 60 ∧ eff s Reg.FTL_WEAR_CFG 31 16 = 3000 ∧ eff s Reg.CIP_CFG 3 0 = 2 ∧
  eff s (Reg.DRC_CH_CFG + 0x40 * 3) 6 4 = 7 ∧ eff s Reg.FED_ETHERTYPE 15 0 = 0x88B5 ∧ hopLimit s = 8 ∧
  eff s Reg.FED_LINK_CFG 19 16 = 15 ∧ eff s Reg.BOOT_WDT_CFG 15 0 = 2000 ∧ eff s Reg.TST_CFG 31 16 = 64 ∧
  (∀ n, n < 218 → (unitOf s n).state = if n < 197 then .idle else .absent) ∧
  (∀ c, groupAt s c = {}) ∧ s.pending = [] ∧ s.sbx.store = [] ∧ s.dev.trunk = [] ∧ s.tru.sessions = [] ∧
  testActive s = false ∧ s.tst.injections = [] ∧ s.pwr.powerLoss = false ∧ s.boot.phase = .rom ∧ memsWf s = true

/-- Every step keeps the canonical form of the byte memories (R472, R599, R688). -/
def Obligations.EveryStepKeepsTheMemoriesCanonical : Prop :=
  ∀ (s t : State), memsWf s = true → step s = .next t → memsWf t = true

/-- R652: LIFECYCLE only ever advances, and the step to DECOMMISSIONED is taken only by the vendor request. -/
def Obligations.TheLifeCycleOnlyAdvances : Prop :=
  ∀ (s t : State), s.tru.lifecycle ≤ 2 → step s = .next t →
    s.tru.lifecycle ≤ t.tru.lifecycle ∧ t.tru.lifecycle ≤ 2 ∧
    (t.tru.lifecycle = 2 → s.tru.lifecycle ≠ 2 → ∃ fn ses rest, s.pending = Instr.decommission fn ses :: rest) ∧
    (s.tru.lifecycle = 1 → t.tru.lifecycle = 1 ∨ t.tru.lifecycle = 2)
end

