-- ==== Sys2Proof/Laws/Bits.lean ====
section
/-! SUPPORT. Laws of bit fields, saturating sums and little-endian bytes. -/

namespace Sys2Proof

/-- A number, taken apart at the field [hi:lo]: what lies above, the field, and what lies below. -/
theorem fld_split (n hi lo : Nat) :
    n = 2 ^ lo * (2 ^ (hi - lo + 1) * (n / 2 ^ lo / 2 ^ (hi - lo + 1))) + fld n hi lo * 2 ^ lo + n % 2 ^ lo := by
  have h1 := Nat.div_add_mod n (2 ^ lo)
  have h2 := Nat.div_add_mod (n / 2 ^ lo) (2 ^ (hi - lo + 1))
  unfold fld
  calc n = 2 ^ lo * (n / 2 ^ lo) + n % 2 ^ lo := h1.symm
    _ = 2 ^ lo * (2 ^ (hi - lo + 1) * (n / 2 ^ lo / 2 ^ (hi - lo + 1)) + n / 2 ^ lo % 2 ^ (hi - lo + 1)) + n % 2 ^ lo := by
        rw [h2]
    _ = _ := by ring

/-- What replacing a field leaves above and below it. -/
theorem setFld_split (n hi lo v : Nat) :
    setFld n hi lo v
      = 2 ^ lo * (2 ^ (hi - lo + 1) * (n / 2 ^ lo / 2 ^ (hi - lo + 1)) + v % 2 ^ (hi - lo + 1)) + n % 2 ^ lo := by
  have h := fld_split n hi lo
  have e : n - fld n hi lo * 2 ^ lo = 2 ^ lo * (2 ^ (hi - lo + 1) * (n / 2 ^ lo / 2 ^ (hi - lo + 1))) + n % 2 ^ lo := by
    omega
  unfold setFld
  rw [e, Nat.mul_add, Nat.mul_comm (v % 2 ^ (hi - lo + 1)) (2 ^ lo)]
  omega

/-- A field is narrower than its width says. -/
theorem fld_lt (n hi lo : Nat) : fld n hi lo < 2 ^ (hi - lo + 1) := Nat.mod_lt _ (by positivity)

/-- Below the field. -/
theorem setFld_mod (n hi lo v : Nat) : setFld n hi lo v % 2 ^ lo = n % 2 ^ lo := by
  rw [setFld_split, Nat.mul_add_mod, Nat.mod_mod]

/-- From the field on. -/
theorem setFld_div (n hi lo v : Nat) :
    setFld n hi lo v / 2 ^ lo = 2 ^ (hi - lo + 1) * (n / 2 ^ lo / 2 ^ (hi - lo + 1)) + v % 2 ^ (hi - lo + 1) := by
  rw [setFld_split, Nat.mul_add_div (by positivity), Nat.div_eq_of_lt (Nat.mod_lt _ (by positivity)), Nat.add_zero]

/-- The field that was replaced reads as the new value, cut to its width. -/
theorem fld_setFld_same (w : Nat) {hi lo : Nat} (_h : lo ≤ hi) (v : Nat) :
    fld (setFld w hi lo v) hi lo = v % 2 ^ (hi - lo + 1) := by
  unfold fld
  rw [setFld_div, Nat.mul_add_mod, Nat.mod_mod]

/-- A field reads the low bits of the number up to its top bit. -/
theorem fld_eq_mod (n : Nat) {h l : Nat} (hl : l ≤ h) : fld n h l = n % 2 ^ (h + 1) / 2 ^ l := by
  unfold fld
  rw [show h + 1 = l + (h - l + 1) by omega, Nat.pow_add 2 l, Nat.mod_mul_right_div_self]

/-- A field apart from the replaced one reads as before. -/
theorem fld_setFld_apart (w : Nat) {hi lo h l : Nat} (hl : lo ≤ hi) (ol : l ≤ h) (n : h < lo ∨ hi < l) (v : Nat) :
    fld (setFld w hi lo v) h l = fld w h l := by
  rcases n with n | n
  · have e : ∀ x : Nat, x % 2 ^ (h + 1) = x % 2 ^ lo % 2 ^ (h + 1) := fun x =>
      (Nat.mod_mod_of_dvd x (Nat.pow_dvd_pow 2 (by omega))).symm
    rw [fld_eq_mod _ ol, fld_eq_mod _ ol, e, e w, setFld_mod]
  · have e : ∀ x : Nat, x / 2 ^ l = x / 2 ^ lo / 2 ^ (hi - lo + 1) / 2 ^ (l - hi - 1) := fun x => by
      rw [Nat.div_div_eq_div_mul, Nat.div_div_eq_div_mul, ← Nat.pow_add, ← Nat.pow_add]
      congr 2; omega
    unfold fld
    rw [e, e w, setFld_div, Nat.mul_add_div (by positivity), Nat.div_eq_of_lt (Nat.mod_lt v (by positivity)), Nat.add_zero]

/-- A saturating sum stays within its width. -/
theorem satAdd_lt (w n k : Nat) : satAdd w n k < 2 ^ w := by
  have : 0 < 2 ^ w := by positivity
  unfold satAdd; omega

@[simp] theorem natLe_length : ∀ (n v : Nat), (natLe n v).length = n
  | 0, _ => rfl
  | n + 1, v => by simp [natLe, natLe_length n]

/-- Writing a number as bytes and reading it back cuts it to that many bytes. -/
theorem leNat_natLe : ∀ (n v : Nat), leNat (natLe n v) = v % 256 ^ n
  | 0, v => by simp [natLe, leNat, Nat.mod_one]
  | n + 1, v => by
      rw [natLe, leNat, leNat_natLe n, Nat.pow_succ', Nat.mod_mul]
      simp

/-- Reading bytes as a number and writing it back. -/
theorem natLe_leNat : ∀ (bs : Bytes), natLe bs.length (leNat bs) = bs
  | [] => rfl
  | b :: t => by
      have hb : b.toNat < 256 := b.isLt
      have h1 : (b.toNat + 256 * leNat t) / 256 = leNat t := by omega
      rw [List.length_cons, leNat, natLe, h1, natLe_leNat t]
      congr 1
      apply BitVec.eq_of_toNat_eq
      rw [BitVec.toNat_ofNat]; omega

@[simp] theorem slice_length (bs : Bytes) (off n : Nat) : (slice bs off n).length = n := by
  simp [slice]

@[simp] theorem fit_length (bs : Bytes) (n : Nat) : (fit n bs).length = n := slice_length bs 0 n

/-- A slice of everything is everything. -/
theorem fit_self (bs : Bytes) : fit bs.length bs = bs := by simp [fit, slice]

/-- Exclusive or is as long as the shorter of its operands. -/
@[simp] theorem xorBytes_length : ∀ a b : Bytes, (xorBytes a b).length = min a.length b.length
  | [], _ => by simp [xorBytes]
  | _ :: _, [] => by simp [xorBytes]
  | _ :: s, _ :: t => by simp [xorBytes, xorBytes_length s t]

end Sys2Proof
end

