-- ==== Sys2Proof/Laws/Tab.lean ====
section
/-! SUPPORT. Laws of sparse collections: a read after a write, erasure, and the canonical form, which every operation
keeps. -/

namespace Sys2Proof.Tab

variable {α β : Type}

/-! ## Reading back -/

@[simp] theorem get?_nil (k : Nat) : get? ([] : Tab α) k = none := rfl

@[simp] theorem getD_nil (k : Nat) (d : α) : getD ([] : Tab α) k d = d := rfl

/-- What was put at a key is read there, and every other key reads as before. -/
theorem get?_set (t : Tab α) (k j : Nat) (v : α) : get? (set t k v) j = if j = k then some v else get? t j := by
  induction t with
  | nil => simp [set, get?, eq_comm]
  | cons p t ih =>
    obtain ⟨i, w⟩ := p
    simp only [set]
    split
    · simp only [get?]; grind
    · split
      · simp only [get?]; grind
      · simp only [get?, ih]; grind

@[simp] theorem get?_set_same (t : Tab α) (k : Nat) (v : α) : get? (set t k v) k = some v := by simp [get?_set]

theorem get?_set_other (t : Tab α) {k j : Nat} (v : α) (h : j ≠ k) : get? (set t k v) j = get? t j := by
  simp [get?_set, h]

@[simp] theorem getD_set_same (t : Tab α) (k : Nat) (v d : α) : getD (set t k v) k d = v := by simp [getD]

theorem getD_set (t : Tab α) (k j : Nat) (v d : α) : getD (set t k v) j d = if j = k then v else getD t j d := by
  simp only [getD, get?_set]; split <;> rfl

theorem getD_set_other (t : Tab α) {k j : Nat} (v d : α) (h : j ≠ k) : getD (set t k v) j d = getD t j d := by
  simp [getD_set, h]

/-- Erasing a key removes it, and every other key reads as before. -/
theorem get?_erase (t : Tab α) (k j : Nat) : get? (erase t k) j = if j = k then none else get? t j := by
  induction t with
  | nil => simp [erase]
  | cons p t ih =>
    obtain ⟨i, w⟩ := p
    simp only [erase]
    split
    · simp only [ih, get?]; grind
    · simp only [get?, ih]; grind

@[simp] theorem get?_erase_same (t : Tab α) (k : Nat) : get? (erase t k) k = none := by simp [get?_erase]

theorem getD_erase (t : Tab α) (k j : Nat) (d : α) : getD (erase t k) j d = if j = k then d else getD t j d := by
  simp only [getD, get?_erase]; split <;> rfl

/-- `put` reads back as `set` does where an unlisted key reads as the default. -/
theorem getD_put [DecidableEq α] (t : Tab α) (k j : Nat) (v d : α) :
    getD (put d t k v) j d = if j = k then v else getD t j d := by
  unfold put
  split
  · subst_vars; simp [getD_erase]
  · simp [getD_set]

@[simp] theorem getD_put_same [DecidableEq α] (t : Tab α) (k : Nat) (v d : α) : getD (put d t k v) k d = v := by
  simp [getD_put]

theorem getD_put_other [DecidableEq α] (t : Tab α) {k j : Nat} (v d : α) (h : j ≠ k) :
    getD (put d t k v) j d = getD t j d := by simp [getD_put, h]

theorem getD_upd (t : Tab α) (k j : Nat) (d : α) (f : α → α) :
    getD (upd t k d f) j d = if j = k then f (getD t k d) else getD t j d := by simp [upd, getD_set]

theorem get?_mapVals (t : Tab α) (f : Nat → α → β) (k : Nat) :
    get? (t.map (fun e => (e.1, f e.1 e.2))) k = (get? t k).map (f k) := by
  induction t with
  | nil => rfl
  | cons p t ih =>
    obtain ⟨i, w⟩ := p
    simp only [List.map_cons, get?, ih]
    split
    · subst_vars; rfl
    · rfl

theorem get?_mapVals' (t : Tab α) (f : Nat → α → α) (k : Nat) : get? (mapVals t f) k = (get? t k).map (f k) :=
  get?_mapVals t f k

/-- A key that is listed has an entry there. -/
theorem mem_keys_iff (t : Tab α) (k : Nat) : k ∈ keys t ↔ (get? t k).isSome = true := by
  induction t with
  | nil => simp [keys]
  | cons p t ih =>
    obtain ⟨i, w⟩ := p
    simp only [keys, List.map_cons, List.mem_cons, get?] at ih ⊢
    split
    · subst_vars; simp
    · rw [← ih]; grind

/-! ## The canonical form -/

theorem sortedFrom_mono {t : Tab α} {a b : Nat} (h : b ≤ a) (hs : sortedFrom a t = true) : sortedFrom b t = true := by
  cases t with
  | nil => rfl
  | cons p t =>
    simp [sortedFrom] at hs ⊢
    exact ⟨by omega, hs.2⟩

theorem sortedFrom_set {t : Tab α} {lo k : Nat} (v : α) (h : sortedFrom lo t = true) (hk : lo ≤ k) :
    sortedFrom lo (set t k v) = true := by
  induction t generalizing lo with
  | nil => simp [set, sortedFrom, hk]
  | cons p t ih =>
    obtain ⟨i, w⟩ := p
    simp [sortedFrom] at h
    simp only [set]
    split
    · simp [sortedFrom, hk, h.2]; omega
    · split
      · simp_all [sortedFrom]
      · simp only [sortedFrom, Bool.and_eq_true, decide_eq_true_eq]
        exact ⟨h.1, ih h.2 (by omega)⟩

/-- Putting a value keeps the keys strictly rising. -/
theorem sorted_set {t : Tab α} (k : Nat) (v : α) (h : sorted t = true) : sorted (set t k v) = true :=
  sortedFrom_set v h (Nat.zero_le k)

theorem sortedFrom_erase {t : Tab α} {lo : Nat} (k : Nat) (h : sortedFrom lo t = true) :
    sortedFrom lo (erase t k) = true := by
  induction t generalizing lo with
  | nil => rfl
  | cons p t ih =>
    obtain ⟨i, w⟩ := p
    simp [sortedFrom] at h
    simp only [erase]
    split
    · exact sortedFrom_mono (by omega) (ih h.2)
    · simp [sortedFrom, h.1, ih h.2]

/-- Erasing keeps the keys strictly rising. -/
theorem sorted_erase {t : Tab α} (k : Nat) (h : sorted t = true) : sorted (erase t k) = true := sortedFrom_erase k h

theorem sorted_put [DecidableEq α] {t : Tab α} (d : α) (k : Nat) (v : α) (h : sorted t = true) :
    sorted (put d t k v) = true := by
  unfold put; split
  · exact sorted_erase k h
  · exact sorted_set k v h

theorem mem_set {t : Tab α} {k : Nat} {v : α} {e : Nat × α} (h : e ∈ set t k v) : e = (k, v) ∨ e ∈ t := by
  induction t with
  | nil => simpa [set] using h
  | cons p t ih =>
    obtain ⟨i, w⟩ := p
    simp only [set] at h
    split at h
    · simpa using h
    · split at h
      · simp at h ⊢; grind
      · simp at h ⊢; grind

theorem mem_erase {t : Tab α} {k : Nat} {e : Nat × α} (h : e ∈ erase t k) : e ∈ t := by
  induction t with
  | nil => simp [erase] at h
  | cons p t ih =>
    obtain ⟨i, w⟩ := p
    simp only [erase] at h
    split at h
    · exact List.mem_cons_of_mem _ (ih h)
    · simp at h ⊢; grind

theorem mem_put [DecidableEq α] {t : Tab α} {d : α} {k : Nat} {v : α} {e : Nat × α} (h : e ∈ put d t k v) :
    e = (k, v) ∨ e ∈ t := by
  unfold put at h; split at h
  · exact .inr (mem_erase h)
  · exact mem_set h

/-- `put` keeps the canonical form: keys strictly rising, nothing listed that equals the default. -/
theorem canon_put [DecidableEq α] {t : Tab α} (d : α) (k : Nat) (v : α) (h : canon d t = true) :
    canon d (put d t k v) = true := by
  simp only [canon, Bool.and_eq_true, List.all_eq_true, decide_eq_true_eq] at h ⊢
  refine ⟨sorted_put d k v h.1, fun e he => ?_⟩
  unfold put at he
  split at he
  · exact h.2 e (mem_erase he)
  · rcases mem_set he with rfl | he'
    · assumption
    · exact h.2 e he'

/-- An entry that is found is listed. -/
theorem mem_of_get? {t : Tab α} {k : Nat} {v : α} (h : get? t k = some v) : (k, v) ∈ t := by
  induction t with
  | nil => simp at h
  | cons p t ih =>
    obtain ⟨i, w⟩ := p
    simp only [get?] at h
    split at h
    · simp_all
    · exact List.mem_cons_of_mem _ (ih h)

/-- A property of every value listed holds of the value read, where it holds of the default. -/
theorem all_getD {t : Tab α} {P : α → Prop} {d : α} (k : Nat) (h : ∀ e ∈ t, P e.2) (hd : P d) : P (getD t k d) := by
  unfold getD
  cases hg : get? t k with
  | none => exact hd
  | some v => exact h _ (mem_of_get? hg)

end Sys2Proof.Tab
end

