-- ==== Sys2Proof/Laws/Memory.lean ====
section
/-! SUPPORT. Laws of the byte memories: a read after a write, a write leaves every other byte alone, and every write keeps
the canonical form. -/

namespace Sys2Proof.Machine

open Sys2Proof

@[simp] theorem memByte_nil (a : Nat) : memByte [] a = 0#8 := rfl

theorem memByte_put (m : Tab Byte) (a x : Nat) (b : Byte) :
    memByte (Tab.put 0#8 m a b) x = if x = a then b else memByte m x := Tab.getD_put m a x b 0#8

theorem memByte_set (m : Tab Byte) (a x : Nat) (b : Byte) :
    memByte (Tab.set m a b) x = if x = a then b else memByte m x := Tab.getD_set m a x b 0#8

/-- The byte at `x` after a write of `bs` from `a` on. -/
theorem memByte_memWrite (bs : Bytes) : ∀ (m : Tab Byte) (a x : Nat),
    memByte (memWrite m a bs) x = if a ≤ x ∧ x < a + bs.length then bs.getD (x - a) 0#8 else memByte m x := by
  induction bs with
  | nil => intro m a x; rw [if_neg (by simp only [List.length_nil]; omega)]; rfl
  | cons b t ih =>
    intro m a x
    simp only [memWrite, ih, memByte_put, List.length_cons]
    by_cases hx : x = a
    · subst hx
      rw [if_neg (by omega), if_pos rfl, if_pos (by omega)]
      simp
    · by_cases h1 : a + 1 ≤ x ∧ x < a + 1 + t.length
      · have e : x - a = (x - (a + 1)) + 1 := by omega
        have h2 : a ≤ x ∧ x < a + (t.length + 1) := by omega
        simp [h1, h2, e]
      · have h2 : ¬ (a ≤ x ∧ x < a + (t.length + 1)) := by omega
        rw [if_neg h1, if_neg h2, if_neg hx]

/-- A write leaves every byte outside its range alone. -/
theorem memByte_memWrite_other {bs : Bytes} {m : Tab Byte} {a x : Nat} (h : x < a ∨ a + bs.length ≤ x) :
    memByte (memWrite m a bs) x = memByte m x := by
  rw [memByte_memWrite, if_neg (by omega)]

/-- Every byte of a write is read back. -/
theorem memByte_memStore (bs : Bytes) : ∀ (m : Tab Byte) (a x : Nat),
    memByte (memStore m a bs) x = if a ≤ x ∧ x < a + bs.length then bs.getD (x - a) 0#8 else memByte m x := by
  induction bs with
  | nil => intro m a x; rw [if_neg (by simp only [List.length_nil]; omega)]; rfl
  | cons b t ih =>
    intro m a x
    simp only [memStore, ih, memByte_set, List.length_cons]
    by_cases hx : x = a
    · subst hx
      rw [if_neg (by omega), if_pos rfl, if_pos (by omega)]
      simp
    · by_cases h1 : a + 1 ≤ x ∧ x < a + 1 + t.length
      · have e : x - a = (x - (a + 1)) + 1 := by omega
        have h2 : a ≤ x ∧ x < a + (t.length + 1) := by omega
        simp [h1, h2, e]
      · have h2 : ¬ (a ≤ x ∧ x < a + (t.length + 1)) := by omega
        rw [if_neg h1, if_neg h2, if_neg hx]

@[simp] theorem memRead_length (m : Tab Byte) (n : Nat) : ∀ a, (memRead m a n).length = n := by
  induction n with
  | zero => intro a; rfl
  | succ n ih => intro a; simp [memRead, ih]

/-- Reading bytes is determined by the bytes. -/
theorem memRead_congr {m m' : Tab Byte} (n : Nat) : ∀ {a : Nat},
    (∀ x, a ≤ x → x < a + n → memByte m x = memByte m' x) → memRead m a n = memRead m' a n := by
  induction n with
  | zero => intro a _; rfl
  | succ n ih =>
    intro a h
    simp only [memRead]
    rw [h a (by omega) (by omega), ih (fun x h1 h2 => h x (by omega) (by omega))]

theorem memRead_of_bytes (bs : Bytes) : ∀ {m : Tab Byte} {a : Nat},
    (∀ i, i < bs.length → memByte m (a + i) = bs.getD i 0#8) → memRead m a bs.length = bs := by
  induction bs with
  | nil => intro m a _; rfl
  | cons b t ih =>
    intro m a h
    simp only [List.length_cons, memRead]
    rw [show memByte m a = b by simpa using h 0 (by simp)]
    rw [ih (fun i hi => by
      have := h (i + 1) (by simpa using hi)
      rw [show a + 1 + i = a + (i + 1) by omega]
      simpa using this)]

/-- A read of what was just written gives it back. -/
@[simp] theorem memRead_memWrite (m : Tab Byte) (a : Nat) (bs : Bytes) : memRead (memWrite m a bs) a bs.length = bs :=
  memRead_of_bytes bs (fun i hi => by rw [memByte_memWrite, if_pos (by omega)]; simp)

@[simp] theorem memRead_memStore (m : Tab Byte) (a : Nat) (bs : Bytes) : memRead (memStore m a bs) a bs.length = bs :=
  memRead_of_bytes bs (fun i hi => by rw [memByte_memStore, if_pos (by omega)]; simp)

/-- A read outside a write's range gives what it gave before. -/
theorem memRead_memWrite_other {m : Tab Byte} {a b n : Nat} {bs : Bytes} (h : b + n ≤ a ∨ a + bs.length ≤ b) :
    memRead (memWrite m a bs) b n = memRead m b n :=
  memRead_congr n (fun x h1 h2 => memByte_memWrite_other (by omega))

theorem memRead_memStore_other {m : Tab Byte} {a b n : Nat} {bs : Bytes} (h : b + n ≤ a ∨ a + bs.length ≤ b) :
    memRead (memStore m a bs) b n = memRead m b n :=
  memRead_congr n (fun x h1 h2 => by rw [memByte_memStore, if_neg (by omega)])

@[simp] theorem memWf_nil : memWf [] = true := rfl

/-- Every write keeps the canonical form. -/
theorem memWf_memWrite (bs : Bytes) : ∀ {m : Tab Byte} (a : Nat), memWf m = true → memWf (memWrite m a bs) = true := by
  induction bs with
  | nil => intro m a h; exact h
  | cons b t ih => intro m a h; exact ih (a + 1) (Tab.canon_put 0#8 a b h)

/-- A memory that is canonical read by read is determined by its bytes at every address. -/
theorem memByte_eq_of_not_listed {m : Tab Byte} {a : Nat} (h : Tab.get? m a = none) : memByte m a = 0#8 := by
  simp [memByte, Tab.getD, h]

end Sys2Proof.Machine
end

