-- ==== Sys2Proof/Laws/State.lean ====
section
/-! SUPPORT. What each update of the state leaves alone: one lemma for each update and each field that it does not touch, and
what the whole-field updates put. -/

namespace Sys2Proof.Machine

/-! `setFeed` changes `dgt` only. -/

section
variable (s : State) (i : Nat) (f : Feed)
@[simp] theorem setFeed_pending : (setFeed s i f).pending = s.pending := rfl
@[simp] theorem setFeed_now : (setFeed s i f).now = s.now := rfl
@[simp] theorem setFeed_freeCount : (setFeed s i f).freeCount = s.freeCount := rfl
@[simp] theorem setFeed_dev : (setFeed s i f).dev = s.dev := rfl
@[simp] theorem setFeed_regs : (setFeed s i f).regs = s.regs := rfl
@[simp] theorem setFeed_evr : (setFeed s i f).evr = s.evr := rfl
@[simp] theorem setFeed_sbx : (setFeed s i f).sbx = s.sbx := rfl
@[simp] theorem setFeed_stn : (setFeed s i f).stn = s.stn := rfl
@[simp] theorem setFeed_cfg : (setFeed s i f).cfg = s.cfg := rfl
@[simp] theorem setFeed_fab : (setFeed s i f).fab = s.fab := rfl
@[simp] theorem setFeed_pwr : (setFeed s i f).pwr = s.pwr := rfl
@[simp] theorem setFeed_lmem : (setFeed s i f).lmem = s.lmem := rfl
@[simp] theorem setFeed_key : (setFeed s i f).key = s.key := rfl
@[simp] theorem setFeed_host : (setFeed s i f).host = s.host := rfl
@[simp] theorem setFeed_cores : (setFeed s i f).cores = s.cores := rfl
@[simp] theorem setFeed_dram : (setFeed s i f).dram = s.dram := rfl
@[simp] theorem setFeed_ten : (setFeed s i f).ten = s.ten := rfl
@[simp] theorem setFeed_boot : (setFeed s i f).boot = s.boot := rfl
@[simp] theorem setFeed_upd : (setFeed s i f).upd = s.upd := rfl
@[simp] theorem setFeed_tst : (setFeed s i f).tst = s.tst := rfl
@[simp] theorem setFeed_tru : (setFeed s i f).tru = s.tru := rfl
@[simp] theorem setFeed_asu : (setFeed s i f).asu = s.asu := rfl
@[simp] theorem setFeed_fch : (setFeed s i f).fch = s.fch := rfl
@[simp] theorem setFeed_ftl : (setFeed s i f).ftl = s.ftl := rfl
@[simp] theorem setFeed_drc : (setFeed s i f).drc = s.drc := rfl
@[simp] theorem setFeed_hif : (setFeed s i f).hif = s.hif := rfl
@[simp] theorem setFeed_jct : (setFeed s i f).jct = s.jct := rfl
end

/-! `setDrc` changes `drc` only. -/

section
variable (s : State) (d : Drc)
@[simp] theorem setDrc_pending : (setDrc s d).pending = s.pending := rfl
@[simp] theorem setDrc_now : (setDrc s d).now = s.now := rfl
@[simp] theorem setDrc_freeCount : (setDrc s d).freeCount = s.freeCount := rfl
@[simp] theorem setDrc_dev : (setDrc s d).dev = s.dev := rfl
@[simp] theorem setDrc_regs : (setDrc s d).regs = s.regs := rfl
@[simp] theorem setDrc_evr : (setDrc s d).evr = s.evr := rfl
@[simp] theorem setDrc_sbx : (setDrc s d).sbx = s.sbx := rfl
@[simp] theorem setDrc_stn : (setDrc s d).stn = s.stn := rfl
@[simp] theorem setDrc_cfg : (setDrc s d).cfg = s.cfg := rfl
@[simp] theorem setDrc_fab : (setDrc s d).fab = s.fab := rfl
@[simp] theorem setDrc_pwr : (setDrc s d).pwr = s.pwr := rfl
@[simp] theorem setDrc_lmem : (setDrc s d).lmem = s.lmem := rfl
@[simp] theorem setDrc_key : (setDrc s d).key = s.key := rfl
@[simp] theorem setDrc_host : (setDrc s d).host = s.host := rfl
@[simp] theorem setDrc_cores : (setDrc s d).cores = s.cores := rfl
@[simp] theorem setDrc_dram : (setDrc s d).dram = s.dram := rfl
@[simp] theorem setDrc_ten : (setDrc s d).ten = s.ten := rfl
@[simp] theorem setDrc_boot : (setDrc s d).boot = s.boot := rfl
@[simp] theorem setDrc_upd : (setDrc s d).upd = s.upd := rfl
@[simp] theorem setDrc_tst : (setDrc s d).tst = s.tst := rfl
@[simp] theorem setDrc_tru : (setDrc s d).tru = s.tru := rfl
@[simp] theorem setDrc_dgt : (setDrc s d).dgt = s.dgt := rfl
@[simp] theorem setDrc_asu : (setDrc s d).asu = s.asu := rfl
@[simp] theorem setDrc_fch : (setDrc s d).fch = s.fch := rfl
@[simp] theorem setDrc_ftl : (setDrc s d).ftl = s.ftl := rfl
@[simp] theorem setDrc_hif : (setDrc s d).hif = s.hif := rfl
@[simp] theorem setDrc_jct : (setDrc s d).jct = s.jct := rfl
@[simp] theorem setDrc_drc : (setDrc s d).drc = d := rfl
end

/-! `setDram` changes `drc` only. -/

section
variable (s : State) (c : Nat) (x : DChan)
@[simp] theorem setDram_pending : (setDram s c x).pending = s.pending := rfl
@[simp] theorem setDram_now : (setDram s c x).now = s.now := rfl
@[simp] theorem setDram_freeCount : (setDram s c x).freeCount = s.freeCount := rfl
@[simp] theorem setDram_dev : (setDram s c x).dev = s.dev := rfl
@[simp] theorem setDram_regs : (setDram s c x).regs = s.regs := rfl
@[simp] theorem setDram_evr : (setDram s c x).evr = s.evr := rfl
@[simp] theorem setDram_sbx : (setDram s c x).sbx = s.sbx := rfl
@[simp] theorem setDram_stn : (setDram s c x).stn = s.stn := rfl
@[simp] theorem setDram_cfg : (setDram s c x).cfg = s.cfg := rfl
@[simp] theorem setDram_fab : (setDram s c x).fab = s.fab := rfl
@[simp] theorem setDram_pwr : (setDram s c x).pwr = s.pwr := rfl
@[simp] theorem setDram_lmem : (setDram s c x).lmem = s.lmem := rfl
@[simp] theorem setDram_key : (setDram s c x).key = s.key := rfl
@[simp] theorem setDram_host : (setDram s c x).host = s.host := rfl
@[simp] theorem setDram_cores : (setDram s c x).cores = s.cores := rfl
@[simp] theorem setDram_dram : (setDram s c x).dram = s.dram := rfl
@[simp] theorem setDram_ten : (setDram s c x).ten = s.ten := rfl
@[simp] theorem setDram_boot : (setDram s c x).boot = s.boot := rfl
@[simp] theorem setDram_upd : (setDram s c x).upd = s.upd := rfl
@[simp] theorem setDram_tst : (setDram s c x).tst = s.tst := rfl
@[simp] theorem setDram_tru : (setDram s c x).tru = s.tru := rfl
@[simp] theorem setDram_dgt : (setDram s c x).dgt = s.dgt := rfl
@[simp] theorem setDram_asu : (setDram s c x).asu = s.asu := rfl
@[simp] theorem setDram_fch : (setDram s c x).fch = s.fch := rfl
@[simp] theorem setDram_ftl : (setDram s c x).ftl = s.ftl := rfl
@[simp] theorem setDram_hif : (setDram s c x).hif = s.hif := rfl
@[simp] theorem setDram_jct : (setDram s c x).jct = s.jct := rfl
end

/-! `setMark` changes `drc` only. -/

section
variable (s : State) (i w n : Nat)
@[simp] theorem setMark_pending : (setMark s i w n).pending = s.pending := rfl
@[simp] theorem setMark_now : (setMark s i w n).now = s.now := rfl
@[simp] theorem setMark_freeCount : (setMark s i w n).freeCount = s.freeCount := rfl
@[simp] theorem setMark_dev : (setMark s i w n).dev = s.dev := rfl
@[simp] theorem setMark_regs : (setMark s i w n).regs = s.regs := rfl
@[simp] theorem setMark_evr : (setMark s i w n).evr = s.evr := rfl
@[simp] theorem setMark_sbx : (setMark s i w n).sbx = s.sbx := rfl
@[simp] theorem setMark_stn : (setMark s i w n).stn = s.stn := rfl
@[simp] theorem setMark_cfg : (setMark s i w n).cfg = s.cfg := rfl
@[simp] theorem setMark_fab : (setMark s i w n).fab = s.fab := rfl
@[simp] theorem setMark_pwr : (setMark s i w n).pwr = s.pwr := rfl
@[simp] theorem setMark_lmem : (setMark s i w n).lmem = s.lmem := rfl
@[simp] theorem setMark_key : (setMark s i w n).key = s.key := rfl
@[simp] theorem setMark_host : (setMark s i w n).host = s.host := rfl
@[simp] theorem setMark_cores : (setMark s i w n).cores = s.cores := rfl
@[simp] theorem setMark_dram : (setMark s i w n).dram = s.dram := rfl
@[simp] theorem setMark_ten : (setMark s i w n).ten = s.ten := rfl
@[simp] theorem setMark_boot : (setMark s i w n).boot = s.boot := rfl
@[simp] theorem setMark_upd : (setMark s i w n).upd = s.upd := rfl
@[simp] theorem setMark_tst : (setMark s i w n).tst = s.tst := rfl
@[simp] theorem setMark_tru : (setMark s i w n).tru = s.tru := rfl
@[simp] theorem setMark_dgt : (setMark s i w n).dgt = s.dgt := rfl
@[simp] theorem setMark_asu : (setMark s i w n).asu = s.asu := rfl
@[simp] theorem setMark_fch : (setMark s i w n).fch = s.fch := rfl
@[simp] theorem setMark_ftl : (setMark s i w n).ftl = s.ftl := rfl
@[simp] theorem setMark_hif : (setMark s i w n).hif = s.hif := rfl
@[simp] theorem setMark_jct : (setMark s i w n).jct = s.jct := rfl
end

/-! `setCoreMark` changes `cores` only. -/

section
variable (s : State) (c w n : Nat)
@[simp] theorem setCoreMark_pending : (setCoreMark s c w n).pending = s.pending := rfl
@[simp] theorem setCoreMark_now : (setCoreMark s c w n).now = s.now := rfl
@[simp] theorem setCoreMark_freeCount : (setCoreMark s c w n).freeCount = s.freeCount := rfl
@[simp] theorem setCoreMark_dev : (setCoreMark s c w n).dev = s.dev := rfl
@[simp] theorem setCoreMark_regs : (setCoreMark s c w n).regs = s.regs := rfl
@[simp] theorem setCoreMark_evr : (setCoreMark s c w n).evr = s.evr := rfl
@[simp] theorem setCoreMark_sbx : (setCoreMark s c w n).sbx = s.sbx := rfl
@[simp] theorem setCoreMark_stn : (setCoreMark s c w n).stn = s.stn := rfl
@[simp] theorem setCoreMark_cfg : (setCoreMark s c w n).cfg = s.cfg := rfl
@[simp] theorem setCoreMark_fab : (setCoreMark s c w n).fab = s.fab := rfl
@[simp] theorem setCoreMark_pwr : (setCoreMark s c w n).pwr = s.pwr := rfl
@[simp] theorem setCoreMark_lmem : (setCoreMark s c w n).lmem = s.lmem := rfl
@[simp] theorem setCoreMark_key : (setCoreMark s c w n).key = s.key := rfl
@[simp] theorem setCoreMark_host : (setCoreMark s c w n).host = s.host := rfl
@[simp] theorem setCoreMark_dram : (setCoreMark s c w n).dram = s.dram := rfl
@[simp] theorem setCoreMark_ten : (setCoreMark s c w n).ten = s.ten := rfl
@[simp] theorem setCoreMark_boot : (setCoreMark s c w n).boot = s.boot := rfl
@[simp] theorem setCoreMark_upd : (setCoreMark s c w n).upd = s.upd := rfl
@[simp] theorem setCoreMark_tst : (setCoreMark s c w n).tst = s.tst := rfl
@[simp] theorem setCoreMark_tru : (setCoreMark s c w n).tru = s.tru := rfl
@[simp] theorem setCoreMark_dgt : (setCoreMark s c w n).dgt = s.dgt := rfl
@[simp] theorem setCoreMark_asu : (setCoreMark s c w n).asu = s.asu := rfl
@[simp] theorem setCoreMark_fch : (setCoreMark s c w n).fch = s.fch := rfl
@[simp] theorem setCoreMark_ftl : (setCoreMark s c w n).ftl = s.ftl := rfl
@[simp] theorem setCoreMark_drc : (setCoreMark s c w n).drc = s.drc := rfl
@[simp] theorem setCoreMark_hif : (setCoreMark s c w n).hif = s.hif := rfl
@[simp] theorem setCoreMark_jct : (setCoreMark s c w n).jct = s.jct := rfl
end

/-! `setJct` changes `jct` only. -/

section
variable (s : State) (j : Jct)
@[simp] theorem setJct_pending : (setJct s j).pending = s.pending := rfl
@[simp] theorem setJct_now : (setJct s j).now = s.now := rfl
@[simp] theorem setJct_freeCount : (setJct s j).freeCount = s.freeCount := rfl
@[simp] theorem setJct_dev : (setJct s j).dev = s.dev := rfl
@[simp] theorem setJct_regs : (setJct s j).regs = s.regs := rfl
@[simp] theorem setJct_evr : (setJct s j).evr = s.evr := rfl
@[simp] theorem setJct_sbx : (setJct s j).sbx = s.sbx := rfl
@[simp] theorem setJct_stn : (setJct s j).stn = s.stn := rfl
@[simp] theorem setJct_cfg : (setJct s j).cfg = s.cfg := rfl
@[simp] theorem setJct_fab : (setJct s j).fab = s.fab := rfl
@[simp] theorem setJct_pwr : (setJct s j).pwr = s.pwr := rfl
@[simp] theorem setJct_lmem : (setJct s j).lmem = s.lmem := rfl
@[simp] theorem setJct_key : (setJct s j).key = s.key := rfl
@[simp] theorem setJct_host : (setJct s j).host = s.host := rfl
@[simp] theorem setJct_cores : (setJct s j).cores = s.cores := rfl
@[simp] theorem setJct_dram : (setJct s j).dram = s.dram := rfl
@[simp] theorem setJct_ten : (setJct s j).ten = s.ten := rfl
@[simp] theorem setJct_boot : (setJct s j).boot = s.boot := rfl
@[simp] theorem setJct_upd : (setJct s j).upd = s.upd := rfl
@[simp] theorem setJct_tst : (setJct s j).tst = s.tst := rfl
@[simp] theorem setJct_tru : (setJct s j).tru = s.tru := rfl
@[simp] theorem setJct_dgt : (setJct s j).dgt = s.dgt := rfl
@[simp] theorem setJct_asu : (setJct s j).asu = s.asu := rfl
@[simp] theorem setJct_fch : (setJct s j).fch = s.fch := rfl
@[simp] theorem setJct_ftl : (setJct s j).ftl = s.ftl := rfl
@[simp] theorem setJct_drc : (setJct s j).drc = s.drc := rfl
@[simp] theorem setJct_hif : (setJct s j).hif = s.hif := rfl
@[simp] theorem setJct_jct : (setJct s j).jct = j := rfl
end

/-! `setConn` changes `jct` only. -/

section
variable (s : State) (c : FConn)
@[simp] theorem setConn_pending : (setConn s c).pending = s.pending := rfl
@[simp] theorem setConn_now : (setConn s c).now = s.now := rfl
@[simp] theorem setConn_freeCount : (setConn s c).freeCount = s.freeCount := rfl
@[simp] theorem setConn_dev : (setConn s c).dev = s.dev := rfl
@[simp] theorem setConn_regs : (setConn s c).regs = s.regs := rfl
@[simp] theorem setConn_evr : (setConn s c).evr = s.evr := rfl
@[simp] theorem setConn_sbx : (setConn s c).sbx = s.sbx := rfl
@[simp] theorem setConn_stn : (setConn s c).stn = s.stn := rfl
@[simp] theorem setConn_cfg : (setConn s c).cfg = s.cfg := rfl
@[simp] theorem setConn_fab : (setConn s c).fab = s.fab := rfl
@[simp] theorem setConn_pwr : (setConn s c).pwr = s.pwr := rfl
@[simp] theorem setConn_lmem : (setConn s c).lmem = s.lmem := rfl
@[simp] theorem setConn_key : (setConn s c).key = s.key := rfl
@[simp] theorem setConn_host : (setConn s c).host = s.host := rfl
@[simp] theorem setConn_cores : (setConn s c).cores = s.cores := rfl
@[simp] theorem setConn_dram : (setConn s c).dram = s.dram := rfl
@[simp] theorem setConn_ten : (setConn s c).ten = s.ten := rfl
@[simp] theorem setConn_boot : (setConn s c).boot = s.boot := rfl
@[simp] theorem setConn_upd : (setConn s c).upd = s.upd := rfl
@[simp] theorem setConn_tst : (setConn s c).tst = s.tst := rfl
@[simp] theorem setConn_tru : (setConn s c).tru = s.tru := rfl
@[simp] theorem setConn_dgt : (setConn s c).dgt = s.dgt := rfl
@[simp] theorem setConn_asu : (setConn s c).asu = s.asu := rfl
@[simp] theorem setConn_fch : (setConn s c).fch = s.fch := rfl
@[simp] theorem setConn_ftl : (setConn s c).ftl = s.ftl := rfl
@[simp] theorem setConn_drc : (setConn s c).drc = s.drc := rfl
@[simp] theorem setConn_hif : (setConn s c).hif = s.hif := rfl
end

/-! `setSlot` changes `key` only. -/

section
variable (s : State) (n : Nat) (k : KeySlot)
@[simp] theorem setSlot_pending : (setSlot s n k).pending = s.pending := rfl
@[simp] theorem setSlot_now : (setSlot s n k).now = s.now := rfl
@[simp] theorem setSlot_freeCount : (setSlot s n k).freeCount = s.freeCount := rfl
@[simp] theorem setSlot_dev : (setSlot s n k).dev = s.dev := rfl
@[simp] theorem setSlot_regs : (setSlot s n k).regs = s.regs := rfl
@[simp] theorem setSlot_evr : (setSlot s n k).evr = s.evr := rfl
@[simp] theorem setSlot_sbx : (setSlot s n k).sbx = s.sbx := rfl
@[simp] theorem setSlot_stn : (setSlot s n k).stn = s.stn := rfl
@[simp] theorem setSlot_cfg : (setSlot s n k).cfg = s.cfg := rfl
@[simp] theorem setSlot_fab : (setSlot s n k).fab = s.fab := rfl
@[simp] theorem setSlot_pwr : (setSlot s n k).pwr = s.pwr := rfl
@[simp] theorem setSlot_lmem : (setSlot s n k).lmem = s.lmem := rfl
@[simp] theorem setSlot_host : (setSlot s n k).host = s.host := rfl
@[simp] theorem setSlot_cores : (setSlot s n k).cores = s.cores := rfl
@[simp] theorem setSlot_dram : (setSlot s n k).dram = s.dram := rfl
@[simp] theorem setSlot_ten : (setSlot s n k).ten = s.ten := rfl
@[simp] theorem setSlot_boot : (setSlot s n k).boot = s.boot := rfl
@[simp] theorem setSlot_upd : (setSlot s n k).upd = s.upd := rfl
@[simp] theorem setSlot_tst : (setSlot s n k).tst = s.tst := rfl
@[simp] theorem setSlot_tru : (setSlot s n k).tru = s.tru := rfl
@[simp] theorem setSlot_dgt : (setSlot s n k).dgt = s.dgt := rfl
@[simp] theorem setSlot_asu : (setSlot s n k).asu = s.asu := rfl
@[simp] theorem setSlot_fch : (setSlot s n k).fch = s.fch := rfl
@[simp] theorem setSlot_ftl : (setSlot s n k).ftl = s.ftl := rfl
@[simp] theorem setSlot_drc : (setSlot s n k).drc = s.drc := rfl
@[simp] theorem setSlot_hif : (setSlot s n k).hif = s.hif := rfl
@[simp] theorem setSlot_jct : (setSlot s n k).jct = s.jct := rfl
end

/-! `setUpd` changes `upd` only. -/

section
variable (s : State) (u : Upd)
@[simp] theorem setUpd_pending : (setUpd s u).pending = s.pending := rfl
@[simp] theorem setUpd_now : (setUpd s u).now = s.now := rfl
@[simp] theorem setUpd_freeCount : (setUpd s u).freeCount = s.freeCount := rfl
@[simp] theorem setUpd_dev : (setUpd s u).dev = s.dev := rfl
@[simp] theorem setUpd_regs : (setUpd s u).regs = s.regs := rfl
@[simp] theorem setUpd_evr : (setUpd s u).evr = s.evr := rfl
@[simp] theorem setUpd_sbx : (setUpd s u).sbx = s.sbx := rfl
@[simp] theorem setUpd_stn : (setUpd s u).stn = s.stn := rfl
@[simp] theorem setUpd_cfg : (setUpd s u).cfg = s.cfg := rfl
@[simp] theorem setUpd_fab : (setUpd s u).fab = s.fab := rfl
@[simp] theorem setUpd_pwr : (setUpd s u).pwr = s.pwr := rfl
@[simp] theorem setUpd_lmem : (setUpd s u).lmem = s.lmem := rfl
@[simp] theorem setUpd_key : (setUpd s u).key = s.key := rfl
@[simp] theorem setUpd_host : (setUpd s u).host = s.host := rfl
@[simp] theorem setUpd_cores : (setUpd s u).cores = s.cores := rfl
@[simp] theorem setUpd_dram : (setUpd s u).dram = s.dram := rfl
@[simp] theorem setUpd_ten : (setUpd s u).ten = s.ten := rfl
@[simp] theorem setUpd_boot : (setUpd s u).boot = s.boot := rfl
@[simp] theorem setUpd_tst : (setUpd s u).tst = s.tst := rfl
@[simp] theorem setUpd_tru : (setUpd s u).tru = s.tru := rfl
@[simp] theorem setUpd_dgt : (setUpd s u).dgt = s.dgt := rfl
@[simp] theorem setUpd_asu : (setUpd s u).asu = s.asu := rfl
@[simp] theorem setUpd_fch : (setUpd s u).fch = s.fch := rfl
@[simp] theorem setUpd_ftl : (setUpd s u).ftl = s.ftl := rfl
@[simp] theorem setUpd_drc : (setUpd s u).drc = s.drc := rfl
@[simp] theorem setUpd_hif : (setUpd s u).hif = s.hif := rfl
@[simp] theorem setUpd_jct : (setUpd s u).jct = s.jct := rfl
@[simp] theorem setUpd_upd : (setUpd s u).upd = u := rfl
end

/-! `setSlotFw` changes `upd` only. -/

section
variable (s : State) (n : Nat) (x : FwSlot)
@[simp] theorem setSlotFw_pending : (setSlotFw s n x).pending = s.pending := rfl
@[simp] theorem setSlotFw_now : (setSlotFw s n x).now = s.now := rfl
@[simp] theorem setSlotFw_freeCount : (setSlotFw s n x).freeCount = s.freeCount := rfl
@[simp] theorem setSlotFw_dev : (setSlotFw s n x).dev = s.dev := rfl
@[simp] theorem setSlotFw_regs : (setSlotFw s n x).regs = s.regs := rfl
@[simp] theorem setSlotFw_evr : (setSlotFw s n x).evr = s.evr := rfl
@[simp] theorem setSlotFw_sbx : (setSlotFw s n x).sbx = s.sbx := rfl
@[simp] theorem setSlotFw_stn : (setSlotFw s n x).stn = s.stn := rfl
@[simp] theorem setSlotFw_cfg : (setSlotFw s n x).cfg = s.cfg := rfl
@[simp] theorem setSlotFw_fab : (setSlotFw s n x).fab = s.fab := rfl
@[simp] theorem setSlotFw_pwr : (setSlotFw s n x).pwr = s.pwr := rfl
@[simp] theorem setSlotFw_lmem : (setSlotFw s n x).lmem = s.lmem := rfl
@[simp] theorem setSlotFw_key : (setSlotFw s n x).key = s.key := rfl
@[simp] theorem setSlotFw_host : (setSlotFw s n x).host = s.host := rfl
@[simp] theorem setSlotFw_cores : (setSlotFw s n x).cores = s.cores := rfl
@[simp] theorem setSlotFw_dram : (setSlotFw s n x).dram = s.dram := rfl
@[simp] theorem setSlotFw_ten : (setSlotFw s n x).ten = s.ten := rfl
@[simp] theorem setSlotFw_boot : (setSlotFw s n x).boot = s.boot := rfl
@[simp] theorem setSlotFw_tst : (setSlotFw s n x).tst = s.tst := rfl
@[simp] theorem setSlotFw_tru : (setSlotFw s n x).tru = s.tru := rfl
@[simp] theorem setSlotFw_dgt : (setSlotFw s n x).dgt = s.dgt := rfl
@[simp] theorem setSlotFw_asu : (setSlotFw s n x).asu = s.asu := rfl
@[simp] theorem setSlotFw_fch : (setSlotFw s n x).fch = s.fch := rfl
@[simp] theorem setSlotFw_ftl : (setSlotFw s n x).ftl = s.ftl := rfl
@[simp] theorem setSlotFw_drc : (setSlotFw s n x).drc = s.drc := rfl
@[simp] theorem setSlotFw_hif : (setSlotFw s n x).hif = s.hif := rfl
@[simp] theorem setSlotFw_jct : (setSlotFw s n x).jct = s.jct := rfl
end

/-! `setFtl` changes `ftl` only. -/

section
variable (s : State) (f : Ftl)
@[simp] theorem setFtl_pending : (setFtl s f).pending = s.pending := rfl
@[simp] theorem setFtl_now : (setFtl s f).now = s.now := rfl
@[simp] theorem setFtl_freeCount : (setFtl s f).freeCount = s.freeCount := rfl
@[simp] theorem setFtl_dev : (setFtl s f).dev = s.dev := rfl
@[simp] theorem setFtl_regs : (setFtl s f).regs = s.regs := rfl
@[simp] theorem setFtl_evr : (setFtl s f).evr = s.evr := rfl
@[simp] theorem setFtl_sbx : (setFtl s f).sbx = s.sbx := rfl
@[simp] theorem setFtl_stn : (setFtl s f).stn = s.stn := rfl
@[simp] theorem setFtl_cfg : (setFtl s f).cfg = s.cfg := rfl
@[simp] theorem setFtl_fab : (setFtl s f).fab = s.fab := rfl
@[simp] theorem setFtl_pwr : (setFtl s f).pwr = s.pwr := rfl
@[simp] theorem setFtl_lmem : (setFtl s f).lmem = s.lmem := rfl
@[simp] theorem setFtl_key : (setFtl s f).key = s.key := rfl
@[simp] theorem setFtl_host : (setFtl s f).host = s.host := rfl
@[simp] theorem setFtl_cores : (setFtl s f).cores = s.cores := rfl
@[simp] theorem setFtl_dram : (setFtl s f).dram = s.dram := rfl
@[simp] theorem setFtl_ten : (setFtl s f).ten = s.ten := rfl
@[simp] theorem setFtl_boot : (setFtl s f).boot = s.boot := rfl
@[simp] theorem setFtl_upd : (setFtl s f).upd = s.upd := rfl
@[simp] theorem setFtl_tst : (setFtl s f).tst = s.tst := rfl
@[simp] theorem setFtl_tru : (setFtl s f).tru = s.tru := rfl
@[simp] theorem setFtl_dgt : (setFtl s f).dgt = s.dgt := rfl
@[simp] theorem setFtl_asu : (setFtl s f).asu = s.asu := rfl
@[simp] theorem setFtl_fch : (setFtl s f).fch = s.fch := rfl
@[simp] theorem setFtl_drc : (setFtl s f).drc = s.drc := rfl
@[simp] theorem setFtl_hif : (setFtl s f).hif = s.hif := rfl
@[simp] theorem setFtl_jct : (setFtl s f).jct = s.jct := rfl
@[simp] theorem setFtl_ftl : (setFtl s f).ftl = f := rfl
end

/-! `setFch` changes `fch` only. -/

section
variable (s : State) (f : Fch)
@[simp] theorem setFch_pending : (setFch s f).pending = s.pending := rfl
@[simp] theorem setFch_now : (setFch s f).now = s.now := rfl
@[simp] theorem setFch_freeCount : (setFch s f).freeCount = s.freeCount := rfl
@[simp] theorem setFch_dev : (setFch s f).dev = s.dev := rfl
@[simp] theorem setFch_regs : (setFch s f).regs = s.regs := rfl
@[simp] theorem setFch_evr : (setFch s f).evr = s.evr := rfl
@[simp] theorem setFch_sbx : (setFch s f).sbx = s.sbx := rfl
@[simp] theorem setFch_stn : (setFch s f).stn = s.stn := rfl
@[simp] theorem setFch_cfg : (setFch s f).cfg = s.cfg := rfl
@[simp] theorem setFch_fab : (setFch s f).fab = s.fab := rfl
@[simp] theorem setFch_pwr : (setFch s f).pwr = s.pwr := rfl
@[simp] theorem setFch_lmem : (setFch s f).lmem = s.lmem := rfl
@[simp] theorem setFch_key : (setFch s f).key = s.key := rfl
@[simp] theorem setFch_host : (setFch s f).host = s.host := rfl
@[simp] theorem setFch_cores : (setFch s f).cores = s.cores := rfl
@[simp] theorem setFch_dram : (setFch s f).dram = s.dram := rfl
@[simp] theorem setFch_ten : (setFch s f).ten = s.ten := rfl
@[simp] theorem setFch_boot : (setFch s f).boot = s.boot := rfl
@[simp] theorem setFch_upd : (setFch s f).upd = s.upd := rfl
@[simp] theorem setFch_tst : (setFch s f).tst = s.tst := rfl
@[simp] theorem setFch_tru : (setFch s f).tru = s.tru := rfl
@[simp] theorem setFch_dgt : (setFch s f).dgt = s.dgt := rfl
@[simp] theorem setFch_asu : (setFch s f).asu = s.asu := rfl
@[simp] theorem setFch_ftl : (setFch s f).ftl = s.ftl := rfl
@[simp] theorem setFch_drc : (setFch s f).drc = s.drc := rfl
@[simp] theorem setFch_hif : (setFch s f).hif = s.hif := rfl
@[simp] theorem setFch_jct : (setFch s f).jct = s.jct := rfl
@[simp] theorem setFch_fch : (setFch s f).fch = f := rfl
end

/-! `setChan` changes `fch` only. -/

section
variable (s : State) (k : Nat) (c : FChan)
@[simp] theorem setChan_pending : (setChan s k c).pending = s.pending := rfl
@[simp] theorem setChan_now : (setChan s k c).now = s.now := rfl
@[simp] theorem setChan_freeCount : (setChan s k c).freeCount = s.freeCount := rfl
@[simp] theorem setChan_dev : (setChan s k c).dev = s.dev := rfl
@[simp] theorem setChan_regs : (setChan s k c).regs = s.regs := rfl
@[simp] theorem setChan_evr : (setChan s k c).evr = s.evr := rfl
@[simp] theorem setChan_sbx : (setChan s k c).sbx = s.sbx := rfl
@[simp] theorem setChan_stn : (setChan s k c).stn = s.stn := rfl
@[simp] theorem setChan_cfg : (setChan s k c).cfg = s.cfg := rfl
@[simp] theorem setChan_fab : (setChan s k c).fab = s.fab := rfl
@[simp] theorem setChan_pwr : (setChan s k c).pwr = s.pwr := rfl
@[simp] theorem setChan_lmem : (setChan s k c).lmem = s.lmem := rfl
@[simp] theorem setChan_key : (setChan s k c).key = s.key := rfl
@[simp] theorem setChan_host : (setChan s k c).host = s.host := rfl
@[simp] theorem setChan_cores : (setChan s k c).cores = s.cores := rfl
@[simp] theorem setChan_dram : (setChan s k c).dram = s.dram := rfl
@[simp] theorem setChan_ten : (setChan s k c).ten = s.ten := rfl
@[simp] theorem setChan_boot : (setChan s k c).boot = s.boot := rfl
@[simp] theorem setChan_upd : (setChan s k c).upd = s.upd := rfl
@[simp] theorem setChan_tst : (setChan s k c).tst = s.tst := rfl
@[simp] theorem setChan_tru : (setChan s k c).tru = s.tru := rfl
@[simp] theorem setChan_dgt : (setChan s k c).dgt = s.dgt := rfl
@[simp] theorem setChan_asu : (setChan s k c).asu = s.asu := rfl
@[simp] theorem setChan_ftl : (setChan s k c).ftl = s.ftl := rfl
@[simp] theorem setChan_drc : (setChan s k c).drc = s.drc := rfl
@[simp] theorem setChan_hif : (setChan s k c).hif = s.hif := rfl
@[simp] theorem setChan_jct : (setChan s k c).jct = s.jct := rfl
end

/-! `setBg` changes `ftl` only. -/

section
variable (s : State) (g : Nat) (x : BGroup)
@[simp] theorem setBg_pending : (setBg s g x).pending = s.pending := rfl
@[simp] theorem setBg_now : (setBg s g x).now = s.now := rfl
@[simp] theorem setBg_freeCount : (setBg s g x).freeCount = s.freeCount := rfl
@[simp] theorem setBg_dev : (setBg s g x).dev = s.dev := rfl
@[simp] theorem setBg_regs : (setBg s g x).regs = s.regs := rfl
@[simp] theorem setBg_evr : (setBg s g x).evr = s.evr := rfl
@[simp] theorem setBg_sbx : (setBg s g x).sbx = s.sbx := rfl
@[simp] theorem setBg_stn : (setBg s g x).stn = s.stn := rfl
@[simp] theorem setBg_cfg : (setBg s g x).cfg = s.cfg := rfl
@[simp] theorem setBg_fab : (setBg s g x).fab = s.fab := rfl
@[simp] theorem setBg_pwr : (setBg s g x).pwr = s.pwr := rfl
@[simp] theorem setBg_lmem : (setBg s g x).lmem = s.lmem := rfl
@[simp] theorem setBg_key : (setBg s g x).key = s.key := rfl
@[simp] theorem setBg_host : (setBg s g x).host = s.host := rfl
@[simp] theorem setBg_cores : (setBg s g x).cores = s.cores := rfl
@[simp] theorem setBg_dram : (setBg s g x).dram = s.dram := rfl
@[simp] theorem setBg_ten : (setBg s g x).ten = s.ten := rfl
@[simp] theorem setBg_boot : (setBg s g x).boot = s.boot := rfl
@[simp] theorem setBg_upd : (setBg s g x).upd = s.upd := rfl
@[simp] theorem setBg_tst : (setBg s g x).tst = s.tst := rfl
@[simp] theorem setBg_tru : (setBg s g x).tru = s.tru := rfl
@[simp] theorem setBg_dgt : (setBg s g x).dgt = s.dgt := rfl
@[simp] theorem setBg_asu : (setBg s g x).asu = s.asu := rfl
@[simp] theorem setBg_fch : (setBg s g x).fch = s.fch := rfl
@[simp] theorem setBg_drc : (setBg s g x).drc = s.drc := rfl
@[simp] theorem setBg_hif : (setBg s g x).hif = s.hif := rfl
@[simp] theorem setBg_jct : (setBg s g x).jct = s.jct := rfl
end

/-! `setCore` changes `cores` only. -/

section
variable (s : State) (c : Nat) (k : Core)
@[simp] theorem setCore_pending : (setCore s c k).pending = s.pending := rfl
@[simp] theorem setCore_now : (setCore s c k).now = s.now := rfl
@[simp] theorem setCore_freeCount : (setCore s c k).freeCount = s.freeCount := rfl
@[simp] theorem setCore_dev : (setCore s c k).dev = s.dev := rfl
@[simp] theorem setCore_regs : (setCore s c k).regs = s.regs := rfl
@[simp] theorem setCore_evr : (setCore s c k).evr = s.evr := rfl
@[simp] theorem setCore_sbx : (setCore s c k).sbx = s.sbx := rfl
@[simp] theorem setCore_stn : (setCore s c k).stn = s.stn := rfl
@[simp] theorem setCore_cfg : (setCore s c k).cfg = s.cfg := rfl
@[simp] theorem setCore_fab : (setCore s c k).fab = s.fab := rfl
@[simp] theorem setCore_pwr : (setCore s c k).pwr = s.pwr := rfl
@[simp] theorem setCore_lmem : (setCore s c k).lmem = s.lmem := rfl
@[simp] theorem setCore_key : (setCore s c k).key = s.key := rfl
@[simp] theorem setCore_host : (setCore s c k).host = s.host := rfl
@[simp] theorem setCore_dram : (setCore s c k).dram = s.dram := rfl
@[simp] theorem setCore_ten : (setCore s c k).ten = s.ten := rfl
@[simp] theorem setCore_boot : (setCore s c k).boot = s.boot := rfl
@[simp] theorem setCore_upd : (setCore s c k).upd = s.upd := rfl
@[simp] theorem setCore_tst : (setCore s c k).tst = s.tst := rfl
@[simp] theorem setCore_tru : (setCore s c k).tru = s.tru := rfl
@[simp] theorem setCore_dgt : (setCore s c k).dgt = s.dgt := rfl
@[simp] theorem setCore_asu : (setCore s c k).asu = s.asu := rfl
@[simp] theorem setCore_fch : (setCore s c k).fch = s.fch := rfl
@[simp] theorem setCore_ftl : (setCore s c k).ftl = s.ftl := rfl
@[simp] theorem setCore_drc : (setCore s c k).drc = s.drc := rfl
@[simp] theorem setCore_hif : (setCore s c k).hif = s.hif := rfl
@[simp] theorem setCore_jct : (setCore s c k).jct = s.jct := rfl
end

/-! `setHif` changes `hif` only. -/

section
variable (s : State) (h : Hif)
@[simp] theorem setHif_pending : (setHif s h).pending = s.pending := rfl
@[simp] theorem setHif_now : (setHif s h).now = s.now := rfl
@[simp] theorem setHif_freeCount : (setHif s h).freeCount = s.freeCount := rfl
@[simp] theorem setHif_dev : (setHif s h).dev = s.dev := rfl
@[simp] theorem setHif_regs : (setHif s h).regs = s.regs := rfl
@[simp] theorem setHif_evr : (setHif s h).evr = s.evr := rfl
@[simp] theorem setHif_sbx : (setHif s h).sbx = s.sbx := rfl
@[simp] theorem setHif_stn : (setHif s h).stn = s.stn := rfl
@[simp] theorem setHif_cfg : (setHif s h).cfg = s.cfg := rfl
@[simp] theorem setHif_fab : (setHif s h).fab = s.fab := rfl
@[simp] theorem setHif_pwr : (setHif s h).pwr = s.pwr := rfl
@[simp] theorem setHif_lmem : (setHif s h).lmem = s.lmem := rfl
@[simp] theorem setHif_key : (setHif s h).key = s.key := rfl
@[simp] theorem setHif_host : (setHif s h).host = s.host := rfl
@[simp] theorem setHif_cores : (setHif s h).cores = s.cores := rfl
@[simp] theorem setHif_dram : (setHif s h).dram = s.dram := rfl
@[simp] theorem setHif_ten : (setHif s h).ten = s.ten := rfl
@[simp] theorem setHif_boot : (setHif s h).boot = s.boot := rfl
@[simp] theorem setHif_upd : (setHif s h).upd = s.upd := rfl
@[simp] theorem setHif_tst : (setHif s h).tst = s.tst := rfl
@[simp] theorem setHif_tru : (setHif s h).tru = s.tru := rfl
@[simp] theorem setHif_dgt : (setHif s h).dgt = s.dgt := rfl
@[simp] theorem setHif_asu : (setHif s h).asu = s.asu := rfl
@[simp] theorem setHif_fch : (setHif s h).fch = s.fch := rfl
@[simp] theorem setHif_ftl : (setHif s h).ftl = s.ftl := rfl
@[simp] theorem setHif_drc : (setHif s h).drc = s.drc := rfl
@[simp] theorem setHif_jct : (setHif s h).jct = s.jct := rfl
@[simp] theorem setHif_hif : (setHif s h).hif = h := rfl
end

/-! `setInst` changes `ten` only. -/

section
variable (s : State) (i : Nat) (x : Inst)
@[simp] theorem setInst_pending : (setInst s i x).pending = s.pending := rfl
@[simp] theorem setInst_now : (setInst s i x).now = s.now := rfl
@[simp] theorem setInst_freeCount : (setInst s i x).freeCount = s.freeCount := rfl
@[simp] theorem setInst_dev : (setInst s i x).dev = s.dev := rfl
@[simp] theorem setInst_regs : (setInst s i x).regs = s.regs := rfl
@[simp] theorem setInst_evr : (setInst s i x).evr = s.evr := rfl
@[simp] theorem setInst_sbx : (setInst s i x).sbx = s.sbx := rfl
@[simp] theorem setInst_stn : (setInst s i x).stn = s.stn := rfl
@[simp] theorem setInst_cfg : (setInst s i x).cfg = s.cfg := rfl
@[simp] theorem setInst_fab : (setInst s i x).fab = s.fab := rfl
@[simp] theorem setInst_pwr : (setInst s i x).pwr = s.pwr := rfl
@[simp] theorem setInst_lmem : (setInst s i x).lmem = s.lmem := rfl
@[simp] theorem setInst_key : (setInst s i x).key = s.key := rfl
@[simp] theorem setInst_host : (setInst s i x).host = s.host := rfl
@[simp] theorem setInst_cores : (setInst s i x).cores = s.cores := rfl
@[simp] theorem setInst_dram : (setInst s i x).dram = s.dram := rfl
@[simp] theorem setInst_boot : (setInst s i x).boot = s.boot := rfl
@[simp] theorem setInst_upd : (setInst s i x).upd = s.upd := rfl
@[simp] theorem setInst_tst : (setInst s i x).tst = s.tst := rfl
@[simp] theorem setInst_tru : (setInst s i x).tru = s.tru := rfl
@[simp] theorem setInst_dgt : (setInst s i x).dgt = s.dgt := rfl
@[simp] theorem setInst_asu : (setInst s i x).asu = s.asu := rfl
@[simp] theorem setInst_fch : (setInst s i x).fch = s.fch := rfl
@[simp] theorem setInst_ftl : (setInst s i x).ftl = s.ftl := rfl
@[simp] theorem setInst_drc : (setInst s i x).drc = s.drc := rfl
@[simp] theorem setInst_hif : (setInst s i x).hif = s.hif := rfl
@[simp] theorem setInst_jct : (setInst s i x).jct = s.jct := rfl
end

/-! `setCtrl` changes `hif` only. -/

section
variable (s : State) (c : Nat) (x : NCtrl)
@[simp] theorem setCtrl_pending : (setCtrl s c x).pending = s.pending := rfl
@[simp] theorem setCtrl_now : (setCtrl s c x).now = s.now := rfl
@[simp] theorem setCtrl_freeCount : (setCtrl s c x).freeCount = s.freeCount := rfl
@[simp] theorem setCtrl_dev : (setCtrl s c x).dev = s.dev := rfl
@[simp] theorem setCtrl_regs : (setCtrl s c x).regs = s.regs := rfl
@[simp] theorem setCtrl_evr : (setCtrl s c x).evr = s.evr := rfl
@[simp] theorem setCtrl_sbx : (setCtrl s c x).sbx = s.sbx := rfl
@[simp] theorem setCtrl_stn : (setCtrl s c x).stn = s.stn := rfl
@[simp] theorem setCtrl_cfg : (setCtrl s c x).cfg = s.cfg := rfl
@[simp] theorem setCtrl_fab : (setCtrl s c x).fab = s.fab := rfl
@[simp] theorem setCtrl_pwr : (setCtrl s c x).pwr = s.pwr := rfl
@[simp] theorem setCtrl_lmem : (setCtrl s c x).lmem = s.lmem := rfl
@[simp] theorem setCtrl_key : (setCtrl s c x).key = s.key := rfl
@[simp] theorem setCtrl_host : (setCtrl s c x).host = s.host := rfl
@[simp] theorem setCtrl_cores : (setCtrl s c x).cores = s.cores := rfl
@[simp] theorem setCtrl_dram : (setCtrl s c x).dram = s.dram := rfl
@[simp] theorem setCtrl_ten : (setCtrl s c x).ten = s.ten := rfl
@[simp] theorem setCtrl_boot : (setCtrl s c x).boot = s.boot := rfl
@[simp] theorem setCtrl_upd : (setCtrl s c x).upd = s.upd := rfl
@[simp] theorem setCtrl_tst : (setCtrl s c x).tst = s.tst := rfl
@[simp] theorem setCtrl_tru : (setCtrl s c x).tru = s.tru := rfl
@[simp] theorem setCtrl_dgt : (setCtrl s c x).dgt = s.dgt := rfl
@[simp] theorem setCtrl_asu : (setCtrl s c x).asu = s.asu := rfl
@[simp] theorem setCtrl_fch : (setCtrl s c x).fch = s.fch := rfl
@[simp] theorem setCtrl_ftl : (setCtrl s c x).ftl = s.ftl := rfl
@[simp] theorem setCtrl_drc : (setCtrl s c x).drc = s.drc := rfl
@[simp] theorem setCtrl_jct : (setCtrl s c x).jct = s.jct := rfl
end

/-! `setLink` changes `hif` only. -/

section
variable (s : State) (p : Nat) (x : Link)
@[simp] theorem setLink_pending : (setLink s p x).pending = s.pending := rfl
@[simp] theorem setLink_now : (setLink s p x).now = s.now := rfl
@[simp] theorem setLink_freeCount : (setLink s p x).freeCount = s.freeCount := rfl
@[simp] theorem setLink_dev : (setLink s p x).dev = s.dev := rfl
@[simp] theorem setLink_regs : (setLink s p x).regs = s.regs := rfl
@[simp] theorem setLink_evr : (setLink s p x).evr = s.evr := rfl
@[simp] theorem setLink_sbx : (setLink s p x).sbx = s.sbx := rfl
@[simp] theorem setLink_stn : (setLink s p x).stn = s.stn := rfl
@[simp] theorem setLink_cfg : (setLink s p x).cfg = s.cfg := rfl
@[simp] theorem setLink_fab : (setLink s p x).fab = s.fab := rfl
@[simp] theorem setLink_pwr : (setLink s p x).pwr = s.pwr := rfl
@[simp] theorem setLink_lmem : (setLink s p x).lmem = s.lmem := rfl
@[simp] theorem setLink_key : (setLink s p x).key = s.key := rfl
@[simp] theorem setLink_host : (setLink s p x).host = s.host := rfl
@[simp] theorem setLink_cores : (setLink s p x).cores = s.cores := rfl
@[simp] theorem setLink_dram : (setLink s p x).dram = s.dram := rfl
@[simp] theorem setLink_ten : (setLink s p x).ten = s.ten := rfl
@[simp] theorem setLink_boot : (setLink s p x).boot = s.boot := rfl
@[simp] theorem setLink_upd : (setLink s p x).upd = s.upd := rfl
@[simp] theorem setLink_tst : (setLink s p x).tst = s.tst := rfl
@[simp] theorem setLink_tru : (setLink s p x).tru = s.tru := rfl
@[simp] theorem setLink_dgt : (setLink s p x).dgt = s.dgt := rfl
@[simp] theorem setLink_asu : (setLink s p x).asu = s.asu := rfl
@[simp] theorem setLink_fch : (setLink s p x).fch = s.fch := rfl
@[simp] theorem setLink_ftl : (setLink s p x).ftl = s.ftl := rfl
@[simp] theorem setLink_drc : (setLink s p x).drc = s.drc := rfl
@[simp] theorem setLink_jct : (setLink s p x).jct = s.jct := rfl
end

/-! `setKey` changes `key` only. -/

section
variable (s : State) (k : Key)
@[simp] theorem setKey_pending : (setKey s k).pending = s.pending := rfl
@[simp] theorem setKey_now : (setKey s k).now = s.now := rfl
@[simp] theorem setKey_freeCount : (setKey s k).freeCount = s.freeCount := rfl
@[simp] theorem setKey_dev : (setKey s k).dev = s.dev := rfl
@[simp] theorem setKey_regs : (setKey s k).regs = s.regs := rfl
@[simp] theorem setKey_evr : (setKey s k).evr = s.evr := rfl
@[simp] theorem setKey_sbx : (setKey s k).sbx = s.sbx := rfl
@[simp] theorem setKey_stn : (setKey s k).stn = s.stn := rfl
@[simp] theorem setKey_cfg : (setKey s k).cfg = s.cfg := rfl
@[simp] theorem setKey_fab : (setKey s k).fab = s.fab := rfl
@[simp] theorem setKey_pwr : (setKey s k).pwr = s.pwr := rfl
@[simp] theorem setKey_lmem : (setKey s k).lmem = s.lmem := rfl
@[simp] theorem setKey_host : (setKey s k).host = s.host := rfl
@[simp] theorem setKey_cores : (setKey s k).cores = s.cores := rfl
@[simp] theorem setKey_dram : (setKey s k).dram = s.dram := rfl
@[simp] theorem setKey_ten : (setKey s k).ten = s.ten := rfl
@[simp] theorem setKey_boot : (setKey s k).boot = s.boot := rfl
@[simp] theorem setKey_upd : (setKey s k).upd = s.upd := rfl
@[simp] theorem setKey_tst : (setKey s k).tst = s.tst := rfl
@[simp] theorem setKey_tru : (setKey s k).tru = s.tru := rfl
@[simp] theorem setKey_dgt : (setKey s k).dgt = s.dgt := rfl
@[simp] theorem setKey_asu : (setKey s k).asu = s.asu := rfl
@[simp] theorem setKey_fch : (setKey s k).fch = s.fch := rfl
@[simp] theorem setKey_ftl : (setKey s k).ftl = s.ftl := rfl
@[simp] theorem setKey_drc : (setKey s k).drc = s.drc := rfl
@[simp] theorem setKey_hif : (setKey s k).hif = s.hif := rfl
@[simp] theorem setKey_jct : (setKey s k).jct = s.jct := rfl
@[simp] theorem setKey_key : (setKey s k).key = k := rfl
end

/-! `setHandle` changes `key` only. -/

section
variable (s : State) (i h : Nat) (x : Handle)
@[simp] theorem setHandle_pending : (setHandle s i h x).pending = s.pending := rfl
@[simp] theorem setHandle_now : (setHandle s i h x).now = s.now := rfl
@[simp] theorem setHandle_freeCount : (setHandle s i h x).freeCount = s.freeCount := rfl
@[simp] theorem setHandle_dev : (setHandle s i h x).dev = s.dev := rfl
@[simp] theorem setHandle_regs : (setHandle s i h x).regs = s.regs := rfl
@[simp] theorem setHandle_evr : (setHandle s i h x).evr = s.evr := rfl
@[simp] theorem setHandle_sbx : (setHandle s i h x).sbx = s.sbx := rfl
@[simp] theorem setHandle_stn : (setHandle s i h x).stn = s.stn := rfl
@[simp] theorem setHandle_cfg : (setHandle s i h x).cfg = s.cfg := rfl
@[simp] theorem setHandle_fab : (setHandle s i h x).fab = s.fab := rfl
@[simp] theorem setHandle_pwr : (setHandle s i h x).pwr = s.pwr := rfl
@[simp] theorem setHandle_lmem : (setHandle s i h x).lmem = s.lmem := rfl
@[simp] theorem setHandle_host : (setHandle s i h x).host = s.host := rfl
@[simp] theorem setHandle_cores : (setHandle s i h x).cores = s.cores := rfl
@[simp] theorem setHandle_dram : (setHandle s i h x).dram = s.dram := rfl
@[simp] theorem setHandle_ten : (setHandle s i h x).ten = s.ten := rfl
@[simp] theorem setHandle_boot : (setHandle s i h x).boot = s.boot := rfl
@[simp] theorem setHandle_upd : (setHandle s i h x).upd = s.upd := rfl
@[simp] theorem setHandle_tst : (setHandle s i h x).tst = s.tst := rfl
@[simp] theorem setHandle_tru : (setHandle s i h x).tru = s.tru := rfl
@[simp] theorem setHandle_dgt : (setHandle s i h x).dgt = s.dgt := rfl
@[simp] theorem setHandle_asu : (setHandle s i h x).asu = s.asu := rfl
@[simp] theorem setHandle_fch : (setHandle s i h x).fch = s.fch := rfl
@[simp] theorem setHandle_ftl : (setHandle s i h x).ftl = s.ftl := rfl
@[simp] theorem setHandle_drc : (setHandle s i h x).drc = s.drc := rfl
@[simp] theorem setHandle_hif : (setHandle s i h x).hif = s.hif := rfl
@[simp] theorem setHandle_jct : (setHandle s i h x).jct = s.jct := rfl
end

/-! `setCfg` changes `cfg` only. -/

section
variable (s : State) (c : Cfg)
@[simp] theorem setCfg_pending : (setCfg s c).pending = s.pending := rfl
@[simp] theorem setCfg_now : (setCfg s c).now = s.now := rfl
@[simp] theorem setCfg_freeCount : (setCfg s c).freeCount = s.freeCount := rfl
@[simp] theorem setCfg_dev : (setCfg s c).dev = s.dev := rfl
@[simp] theorem setCfg_regs : (setCfg s c).regs = s.regs := rfl
@[simp] theorem setCfg_evr : (setCfg s c).evr = s.evr := rfl
@[simp] theorem setCfg_sbx : (setCfg s c).sbx = s.sbx := rfl
@[simp] theorem setCfg_stn : (setCfg s c).stn = s.stn := rfl
@[simp] theorem setCfg_fab : (setCfg s c).fab = s.fab := rfl
@[simp] theorem setCfg_pwr : (setCfg s c).pwr = s.pwr := rfl
@[simp] theorem setCfg_lmem : (setCfg s c).lmem = s.lmem := rfl
@[simp] theorem setCfg_key : (setCfg s c).key = s.key := rfl
@[simp] theorem setCfg_host : (setCfg s c).host = s.host := rfl
@[simp] theorem setCfg_cores : (setCfg s c).cores = s.cores := rfl
@[simp] theorem setCfg_dram : (setCfg s c).dram = s.dram := rfl
@[simp] theorem setCfg_ten : (setCfg s c).ten = s.ten := rfl
@[simp] theorem setCfg_boot : (setCfg s c).boot = s.boot := rfl
@[simp] theorem setCfg_upd : (setCfg s c).upd = s.upd := rfl
@[simp] theorem setCfg_tst : (setCfg s c).tst = s.tst := rfl
@[simp] theorem setCfg_tru : (setCfg s c).tru = s.tru := rfl
@[simp] theorem setCfg_dgt : (setCfg s c).dgt = s.dgt := rfl
@[simp] theorem setCfg_asu : (setCfg s c).asu = s.asu := rfl
@[simp] theorem setCfg_fch : (setCfg s c).fch = s.fch := rfl
@[simp] theorem setCfg_ftl : (setCfg s c).ftl = s.ftl := rfl
@[simp] theorem setCfg_drc : (setCfg s c).drc = s.drc := rfl
@[simp] theorem setCfg_hif : (setCfg s c).hif = s.hif := rfl
@[simp] theorem setCfg_jct : (setCfg s c).jct = s.jct := rfl
@[simp] theorem setCfg_cfg : (setCfg s c).cfg = c := rfl
end

/-! `setSq` changes `hif` only. -/

section
variable (s : State) (c q : Nat) (x : NSq)
@[simp] theorem setSq_pending : (setSq s c q x).pending = s.pending := rfl
@[simp] theorem setSq_now : (setSq s c q x).now = s.now := rfl
@[simp] theorem setSq_freeCount : (setSq s c q x).freeCount = s.freeCount := rfl
@[simp] theorem setSq_dev : (setSq s c q x).dev = s.dev := rfl
@[simp] theorem setSq_regs : (setSq s c q x).regs = s.regs := rfl
@[simp] theorem setSq_evr : (setSq s c q x).evr = s.evr := rfl
@[simp] theorem setSq_sbx : (setSq s c q x).sbx = s.sbx := rfl
@[simp] theorem setSq_stn : (setSq s c q x).stn = s.stn := rfl
@[simp] theorem setSq_cfg : (setSq s c q x).cfg = s.cfg := rfl
@[simp] theorem setSq_fab : (setSq s c q x).fab = s.fab := rfl
@[simp] theorem setSq_pwr : (setSq s c q x).pwr = s.pwr := rfl
@[simp] theorem setSq_lmem : (setSq s c q x).lmem = s.lmem := rfl
@[simp] theorem setSq_key : (setSq s c q x).key = s.key := rfl
@[simp] theorem setSq_host : (setSq s c q x).host = s.host := rfl
@[simp] theorem setSq_cores : (setSq s c q x).cores = s.cores := rfl
@[simp] theorem setSq_dram : (setSq s c q x).dram = s.dram := rfl
@[simp] theorem setSq_ten : (setSq s c q x).ten = s.ten := rfl
@[simp] theorem setSq_boot : (setSq s c q x).boot = s.boot := rfl
@[simp] theorem setSq_upd : (setSq s c q x).upd = s.upd := rfl
@[simp] theorem setSq_tst : (setSq s c q x).tst = s.tst := rfl
@[simp] theorem setSq_tru : (setSq s c q x).tru = s.tru := rfl
@[simp] theorem setSq_dgt : (setSq s c q x).dgt = s.dgt := rfl
@[simp] theorem setSq_asu : (setSq s c q x).asu = s.asu := rfl
@[simp] theorem setSq_fch : (setSq s c q x).fch = s.fch := rfl
@[simp] theorem setSq_ftl : (setSq s c q x).ftl = s.ftl := rfl
@[simp] theorem setSq_drc : (setSq s c q x).drc = s.drc := rfl
@[simp] theorem setSq_jct : (setSq s c q x).jct = s.jct := rfl
end

/-! `setLive` changes `regs` only. -/

section
variable (s : State) (a hi lo v : Nat)
@[simp] theorem setLive_pending : (setLive s a hi lo v).pending = s.pending := rfl
@[simp] theorem setLive_now : (setLive s a hi lo v).now = s.now := rfl
@[simp] theorem setLive_freeCount : (setLive s a hi lo v).freeCount = s.freeCount := rfl
@[simp] theorem setLive_dev : (setLive s a hi lo v).dev = s.dev := rfl
@[simp] theorem setLive_evr : (setLive s a hi lo v).evr = s.evr := rfl
@[simp] theorem setLive_sbx : (setLive s a hi lo v).sbx = s.sbx := rfl
@[simp] theorem setLive_stn : (setLive s a hi lo v).stn = s.stn := rfl
@[simp] theorem setLive_cfg : (setLive s a hi lo v).cfg = s.cfg := rfl
@[simp] theorem setLive_fab : (setLive s a hi lo v).fab = s.fab := rfl
@[simp] theorem setLive_pwr : (setLive s a hi lo v).pwr = s.pwr := rfl
@[simp] theorem setLive_lmem : (setLive s a hi lo v).lmem = s.lmem := rfl
@[simp] theorem setLive_key : (setLive s a hi lo v).key = s.key := rfl
@[simp] theorem setLive_host : (setLive s a hi lo v).host = s.host := rfl
@[simp] theorem setLive_cores : (setLive s a hi lo v).cores = s.cores := rfl
@[simp] theorem setLive_dram : (setLive s a hi lo v).dram = s.dram := rfl
@[simp] theorem setLive_ten : (setLive s a hi lo v).ten = s.ten := rfl
@[simp] theorem setLive_boot : (setLive s a hi lo v).boot = s.boot := rfl
@[simp] theorem setLive_upd : (setLive s a hi lo v).upd = s.upd := rfl
@[simp] theorem setLive_tst : (setLive s a hi lo v).tst = s.tst := rfl
@[simp] theorem setLive_tru : (setLive s a hi lo v).tru = s.tru := rfl
@[simp] theorem setLive_dgt : (setLive s a hi lo v).dgt = s.dgt := rfl
@[simp] theorem setLive_asu : (setLive s a hi lo v).asu = s.asu := rfl
@[simp] theorem setLive_fch : (setLive s a hi lo v).fch = s.fch := rfl
@[simp] theorem setLive_ftl : (setLive s a hi lo v).ftl = s.ftl := rfl
@[simp] theorem setLive_drc : (setLive s a hi lo v).drc = s.drc := rfl
@[simp] theorem setLive_hif : (setLive s a hi lo v).hif = s.hif := rfl
@[simp] theorem setLive_jct : (setLive s a hi lo v).jct = s.jct := rfl
end

/-! `setEff` changes `regs` only. -/

section
variable (s : State) (a hi lo v : Nat)
@[simp] theorem setEff_pending : (setEff s a hi lo v).pending = s.pending := rfl
@[simp] theorem setEff_now : (setEff s a hi lo v).now = s.now := rfl
@[simp] theorem setEff_freeCount : (setEff s a hi lo v).freeCount = s.freeCount := rfl
@[simp] theorem setEff_dev : (setEff s a hi lo v).dev = s.dev := rfl
@[simp] theorem setEff_evr : (setEff s a hi lo v).evr = s.evr := rfl
@[simp] theorem setEff_sbx : (setEff s a hi lo v).sbx = s.sbx := rfl
@[simp] theorem setEff_stn : (setEff s a hi lo v).stn = s.stn := rfl
@[simp] theorem setEff_cfg : (setEff s a hi lo v).cfg = s.cfg := rfl
@[simp] theorem setEff_fab : (setEff s a hi lo v).fab = s.fab := rfl
@[simp] theorem setEff_pwr : (setEff s a hi lo v).pwr = s.pwr := rfl
@[simp] theorem setEff_lmem : (setEff s a hi lo v).lmem = s.lmem := rfl
@[simp] theorem setEff_key : (setEff s a hi lo v).key = s.key := rfl
@[simp] theorem setEff_host : (setEff s a hi lo v).host = s.host := rfl
@[simp] theorem setEff_cores : (setEff s a hi lo v).cores = s.cores := rfl
@[simp] theorem setEff_dram : (setEff s a hi lo v).dram = s.dram := rfl
@[simp] theorem setEff_ten : (setEff s a hi lo v).ten = s.ten := rfl
@[simp] theorem setEff_boot : (setEff s a hi lo v).boot = s.boot := rfl
@[simp] theorem setEff_upd : (setEff s a hi lo v).upd = s.upd := rfl
@[simp] theorem setEff_tst : (setEff s a hi lo v).tst = s.tst := rfl
@[simp] theorem setEff_tru : (setEff s a hi lo v).tru = s.tru := rfl
@[simp] theorem setEff_dgt : (setEff s a hi lo v).dgt = s.dgt := rfl
@[simp] theorem setEff_asu : (setEff s a hi lo v).asu = s.asu := rfl
@[simp] theorem setEff_fch : (setEff s a hi lo v).fch = s.fch := rfl
@[simp] theorem setEff_ftl : (setEff s a hi lo v).ftl = s.ftl := rfl
@[simp] theorem setEff_drc : (setEff s a hi lo v).drc = s.drc := rfl
@[simp] theorem setEff_hif : (setEff s a hi lo v).hif = s.hif := rfl
@[simp] theorem setEff_jct : (setEff s a hi lo v).jct = s.jct := rfl
end

/-! `setGroup` changes `regs` only. -/

section
variable (s : State) (c : Nat) (g : Group)
@[simp] theorem setGroup_pending : (setGroup s c g).pending = s.pending := rfl
@[simp] theorem setGroup_now : (setGroup s c g).now = s.now := rfl
@[simp] theorem setGroup_freeCount : (setGroup s c g).freeCount = s.freeCount := rfl
@[simp] theorem setGroup_dev : (setGroup s c g).dev = s.dev := rfl
@[simp] theorem setGroup_evr : (setGroup s c g).evr = s.evr := rfl
@[simp] theorem setGroup_sbx : (setGroup s c g).sbx = s.sbx := rfl
@[simp] theorem setGroup_stn : (setGroup s c g).stn = s.stn := rfl
@[simp] theorem setGroup_cfg : (setGroup s c g).cfg = s.cfg := rfl
@[simp] theorem setGroup_fab : (setGroup s c g).fab = s.fab := rfl
@[simp] theorem setGroup_pwr : (setGroup s c g).pwr = s.pwr := rfl
@[simp] theorem setGroup_lmem : (setGroup s c g).lmem = s.lmem := rfl
@[simp] theorem setGroup_key : (setGroup s c g).key = s.key := rfl
@[simp] theorem setGroup_host : (setGroup s c g).host = s.host := rfl
@[simp] theorem setGroup_cores : (setGroup s c g).cores = s.cores := rfl
@[simp] theorem setGroup_dram : (setGroup s c g).dram = s.dram := rfl
@[simp] theorem setGroup_ten : (setGroup s c g).ten = s.ten := rfl
@[simp] theorem setGroup_boot : (setGroup s c g).boot = s.boot := rfl
@[simp] theorem setGroup_upd : (setGroup s c g).upd = s.upd := rfl
@[simp] theorem setGroup_tst : (setGroup s c g).tst = s.tst := rfl
@[simp] theorem setGroup_tru : (setGroup s c g).tru = s.tru := rfl
@[simp] theorem setGroup_dgt : (setGroup s c g).dgt = s.dgt := rfl
@[simp] theorem setGroup_asu : (setGroup s c g).asu = s.asu := rfl
@[simp] theorem setGroup_fch : (setGroup s c g).fch = s.fch := rfl
@[simp] theorem setGroup_ftl : (setGroup s c g).ftl = s.ftl := rfl
@[simp] theorem setGroup_drc : (setGroup s c g).drc = s.drc := rfl
@[simp] theorem setGroup_hif : (setGroup s c g).hif = s.hif := rfl
@[simp] theorem setGroup_jct : (setGroup s c g).jct = s.jct := rfl
end

/-! `setUnit` changes `dev` only. -/

section
variable (s : State) (n : Nat) (r : UnitRec)
@[simp] theorem setUnit_pending : (setUnit s n r).pending = s.pending := rfl
@[simp] theorem setUnit_now : (setUnit s n r).now = s.now := rfl
@[simp] theorem setUnit_freeCount : (setUnit s n r).freeCount = s.freeCount := rfl
@[simp] theorem setUnit_regs : (setUnit s n r).regs = s.regs := rfl
@[simp] theorem setUnit_evr : (setUnit s n r).evr = s.evr := rfl
@[simp] theorem setUnit_sbx : (setUnit s n r).sbx = s.sbx := rfl
@[simp] theorem setUnit_stn : (setUnit s n r).stn = s.stn := rfl
@[simp] theorem setUnit_cfg : (setUnit s n r).cfg = s.cfg := rfl
@[simp] theorem setUnit_fab : (setUnit s n r).fab = s.fab := rfl
@[simp] theorem setUnit_pwr : (setUnit s n r).pwr = s.pwr := rfl
@[simp] theorem setUnit_lmem : (setUnit s n r).lmem = s.lmem := rfl
@[simp] theorem setUnit_key : (setUnit s n r).key = s.key := rfl
@[simp] theorem setUnit_host : (setUnit s n r).host = s.host := rfl
@[simp] theorem setUnit_cores : (setUnit s n r).cores = s.cores := rfl
@[simp] theorem setUnit_dram : (setUnit s n r).dram = s.dram := rfl
@[simp] theorem setUnit_ten : (setUnit s n r).ten = s.ten := rfl
@[simp] theorem setUnit_boot : (setUnit s n r).boot = s.boot := rfl
@[simp] theorem setUnit_upd : (setUnit s n r).upd = s.upd := rfl
@[simp] theorem setUnit_tst : (setUnit s n r).tst = s.tst := rfl
@[simp] theorem setUnit_tru : (setUnit s n r).tru = s.tru := rfl
@[simp] theorem setUnit_dgt : (setUnit s n r).dgt = s.dgt := rfl
@[simp] theorem setUnit_asu : (setUnit s n r).asu = s.asu := rfl
@[simp] theorem setUnit_fch : (setUnit s n r).fch = s.fch := rfl
@[simp] theorem setUnit_ftl : (setUnit s n r).ftl = s.ftl := rfl
@[simp] theorem setUnit_drc : (setUnit s n r).drc = s.drc := rfl
@[simp] theorem setUnit_hif : (setUnit s n r).hif = s.hif := rfl
@[simp] theorem setUnit_jct : (setUnit s n r).jct = s.jct := rfl
end

/-! `setPwr` changes `pwr` only. -/

section
variable (s : State) (p : Pwr)
@[simp] theorem setPwr_pending : (setPwr s p).pending = s.pending := rfl
@[simp] theorem setPwr_now : (setPwr s p).now = s.now := rfl
@[simp] theorem setPwr_freeCount : (setPwr s p).freeCount = s.freeCount := rfl
@[simp] theorem setPwr_dev : (setPwr s p).dev = s.dev := rfl
@[simp] theorem setPwr_regs : (setPwr s p).regs = s.regs := rfl
@[simp] theorem setPwr_evr : (setPwr s p).evr = s.evr := rfl
@[simp] theorem setPwr_sbx : (setPwr s p).sbx = s.sbx := rfl
@[simp] theorem setPwr_stn : (setPwr s p).stn = s.stn := rfl
@[simp] theorem setPwr_cfg : (setPwr s p).cfg = s.cfg := rfl
@[simp] theorem setPwr_fab : (setPwr s p).fab = s.fab := rfl
@[simp] theorem setPwr_lmem : (setPwr s p).lmem = s.lmem := rfl
@[simp] theorem setPwr_key : (setPwr s p).key = s.key := rfl
@[simp] theorem setPwr_host : (setPwr s p).host = s.host := rfl
@[simp] theorem setPwr_cores : (setPwr s p).cores = s.cores := rfl
@[simp] theorem setPwr_dram : (setPwr s p).dram = s.dram := rfl
@[simp] theorem setPwr_ten : (setPwr s p).ten = s.ten := rfl
@[simp] theorem setPwr_boot : (setPwr s p).boot = s.boot := rfl
@[simp] theorem setPwr_upd : (setPwr s p).upd = s.upd := rfl
@[simp] theorem setPwr_tst : (setPwr s p).tst = s.tst := rfl
@[simp] theorem setPwr_tru : (setPwr s p).tru = s.tru := rfl
@[simp] theorem setPwr_dgt : (setPwr s p).dgt = s.dgt := rfl
@[simp] theorem setPwr_asu : (setPwr s p).asu = s.asu := rfl
@[simp] theorem setPwr_fch : (setPwr s p).fch = s.fch := rfl
@[simp] theorem setPwr_ftl : (setPwr s p).ftl = s.ftl := rfl
@[simp] theorem setPwr_drc : (setPwr s p).drc = s.drc := rfl
@[simp] theorem setPwr_hif : (setPwr s p).hif = s.hif := rfl
@[simp] theorem setPwr_jct : (setPwr s p).jct = s.jct := rfl
@[simp] theorem setPwr_pwr : (setPwr s p).pwr = p := rfl
end

/-! `setIsland` changes `pwr` only. -/

section
variable (s : State) (k : Nat) (i : Island)
@[simp] theorem setIsland_pending : (setIsland s k i).pending = s.pending := rfl
@[simp] theorem setIsland_now : (setIsland s k i).now = s.now := rfl
@[simp] theorem setIsland_freeCount : (setIsland s k i).freeCount = s.freeCount := rfl
@[simp] theorem setIsland_dev : (setIsland s k i).dev = s.dev := rfl
@[simp] theorem setIsland_regs : (setIsland s k i).regs = s.regs := rfl
@[simp] theorem setIsland_evr : (setIsland s k i).evr = s.evr := rfl
@[simp] theorem setIsland_sbx : (setIsland s k i).sbx = s.sbx := rfl
@[simp] theorem setIsland_stn : (setIsland s k i).stn = s.stn := rfl
@[simp] theorem setIsland_cfg : (setIsland s k i).cfg = s.cfg := rfl
@[simp] theorem setIsland_fab : (setIsland s k i).fab = s.fab := rfl
@[simp] theorem setIsland_lmem : (setIsland s k i).lmem = s.lmem := rfl
@[simp] theorem setIsland_key : (setIsland s k i).key = s.key := rfl
@[simp] theorem setIsland_host : (setIsland s k i).host = s.host := rfl
@[simp] theorem setIsland_cores : (setIsland s k i).cores = s.cores := rfl
@[simp] theorem setIsland_dram : (setIsland s k i).dram = s.dram := rfl
@[simp] theorem setIsland_ten : (setIsland s k i).ten = s.ten := rfl
@[simp] theorem setIsland_boot : (setIsland s k i).boot = s.boot := rfl
@[simp] theorem setIsland_upd : (setIsland s k i).upd = s.upd := rfl
@[simp] theorem setIsland_tst : (setIsland s k i).tst = s.tst := rfl
@[simp] theorem setIsland_tru : (setIsland s k i).tru = s.tru := rfl
@[simp] theorem setIsland_dgt : (setIsland s k i).dgt = s.dgt := rfl
@[simp] theorem setIsland_asu : (setIsland s k i).asu = s.asu := rfl
@[simp] theorem setIsland_fch : (setIsland s k i).fch = s.fch := rfl
@[simp] theorem setIsland_ftl : (setIsland s k i).ftl = s.ftl := rfl
@[simp] theorem setIsland_drc : (setIsland s k i).drc = s.drc := rfl
@[simp] theorem setIsland_hif : (setIsland s k i).hif = s.hif := rfl
@[simp] theorem setIsland_jct : (setIsland s k i).jct = s.jct := rfl
end

/-! `setBoot` changes `boot` only. -/

section
variable (s : State) (b : Boot)
@[simp] theorem setBoot_pending : (setBoot s b).pending = s.pending := rfl
@[simp] theorem setBoot_now : (setBoot s b).now = s.now := rfl
@[simp] theorem setBoot_freeCount : (setBoot s b).freeCount = s.freeCount := rfl
@[simp] theorem setBoot_dev : (setBoot s b).dev = s.dev := rfl
@[simp] theorem setBoot_regs : (setBoot s b).regs = s.regs := rfl
@[simp] theorem setBoot_evr : (setBoot s b).evr = s.evr := rfl
@[simp] theorem setBoot_sbx : (setBoot s b).sbx = s.sbx := rfl
@[simp] theorem setBoot_stn : (setBoot s b).stn = s.stn := rfl
@[simp] theorem setBoot_cfg : (setBoot s b).cfg = s.cfg := rfl
@[simp] theorem setBoot_fab : (setBoot s b).fab = s.fab := rfl
@[simp] theorem setBoot_pwr : (setBoot s b).pwr = s.pwr := rfl
@[simp] theorem setBoot_lmem : (setBoot s b).lmem = s.lmem := rfl
@[simp] theorem setBoot_key : (setBoot s b).key = s.key := rfl
@[simp] theorem setBoot_host : (setBoot s b).host = s.host := rfl
@[simp] theorem setBoot_cores : (setBoot s b).cores = s.cores := rfl
@[simp] theorem setBoot_dram : (setBoot s b).dram = s.dram := rfl
@[simp] theorem setBoot_ten : (setBoot s b).ten = s.ten := rfl
@[simp] theorem setBoot_upd : (setBoot s b).upd = s.upd := rfl
@[simp] theorem setBoot_tst : (setBoot s b).tst = s.tst := rfl
@[simp] theorem setBoot_tru : (setBoot s b).tru = s.tru := rfl
@[simp] theorem setBoot_dgt : (setBoot s b).dgt = s.dgt := rfl
@[simp] theorem setBoot_asu : (setBoot s b).asu = s.asu := rfl
@[simp] theorem setBoot_fch : (setBoot s b).fch = s.fch := rfl
@[simp] theorem setBoot_ftl : (setBoot s b).ftl = s.ftl := rfl
@[simp] theorem setBoot_drc : (setBoot s b).drc = s.drc := rfl
@[simp] theorem setBoot_hif : (setBoot s b).hif = s.hif := rfl
@[simp] theorem setBoot_jct : (setBoot s b).jct = s.jct := rfl
@[simp] theorem setBoot_boot : (setBoot s b).boot = b := rfl
end

/-! `setEvr` changes `evr` only. -/

section
variable (s : State) (e : Evr)
@[simp] theorem setEvr_pending : (setEvr s e).pending = s.pending := rfl
@[simp] theorem setEvr_now : (setEvr s e).now = s.now := rfl
@[simp] theorem setEvr_freeCount : (setEvr s e).freeCount = s.freeCount := rfl
@[simp] theorem setEvr_dev : (setEvr s e).dev = s.dev := rfl
@[simp] theorem setEvr_regs : (setEvr s e).regs = s.regs := rfl
@[simp] theorem setEvr_sbx : (setEvr s e).sbx = s.sbx := rfl
@[simp] theorem setEvr_stn : (setEvr s e).stn = s.stn := rfl
@[simp] theorem setEvr_cfg : (setEvr s e).cfg = s.cfg := rfl
@[simp] theorem setEvr_fab : (setEvr s e).fab = s.fab := rfl
@[simp] theorem setEvr_pwr : (setEvr s e).pwr = s.pwr := rfl
@[simp] theorem setEvr_lmem : (setEvr s e).lmem = s.lmem := rfl
@[simp] theorem setEvr_key : (setEvr s e).key = s.key := rfl
@[simp] theorem setEvr_host : (setEvr s e).host = s.host := rfl
@[simp] theorem setEvr_cores : (setEvr s e).cores = s.cores := rfl
@[simp] theorem setEvr_dram : (setEvr s e).dram = s.dram := rfl
@[simp] theorem setEvr_ten : (setEvr s e).ten = s.ten := rfl
@[simp] theorem setEvr_boot : (setEvr s e).boot = s.boot := rfl
@[simp] theorem setEvr_upd : (setEvr s e).upd = s.upd := rfl
@[simp] theorem setEvr_tst : (setEvr s e).tst = s.tst := rfl
@[simp] theorem setEvr_tru : (setEvr s e).tru = s.tru := rfl
@[simp] theorem setEvr_dgt : (setEvr s e).dgt = s.dgt := rfl
@[simp] theorem setEvr_asu : (setEvr s e).asu = s.asu := rfl
@[simp] theorem setEvr_fch : (setEvr s e).fch = s.fch := rfl
@[simp] theorem setEvr_ftl : (setEvr s e).ftl = s.ftl := rfl
@[simp] theorem setEvr_drc : (setEvr s e).drc = s.drc := rfl
@[simp] theorem setEvr_hif : (setEvr s e).hif = s.hif := rfl
@[simp] theorem setEvr_jct : (setEvr s e).jct = s.jct := rfl
@[simp] theorem setEvr_evr : (setEvr s e).evr = e := rfl
end

/-! `setAsu` changes `asu` only. -/

section
variable (s : State) (a : Asu)
@[simp] theorem setAsu_pending : (setAsu s a).pending = s.pending := rfl
@[simp] theorem setAsu_now : (setAsu s a).now = s.now := rfl
@[simp] theorem setAsu_freeCount : (setAsu s a).freeCount = s.freeCount := rfl
@[simp] theorem setAsu_dev : (setAsu s a).dev = s.dev := rfl
@[simp] theorem setAsu_regs : (setAsu s a).regs = s.regs := rfl
@[simp] theorem setAsu_evr : (setAsu s a).evr = s.evr := rfl
@[simp] theorem setAsu_sbx : (setAsu s a).sbx = s.sbx := rfl
@[simp] theorem setAsu_stn : (setAsu s a).stn = s.stn := rfl
@[simp] theorem setAsu_cfg : (setAsu s a).cfg = s.cfg := rfl
@[simp] theorem setAsu_fab : (setAsu s a).fab = s.fab := rfl
@[simp] theorem setAsu_pwr : (setAsu s a).pwr = s.pwr := rfl
@[simp] theorem setAsu_lmem : (setAsu s a).lmem = s.lmem := rfl
@[simp] theorem setAsu_key : (setAsu s a).key = s.key := rfl
@[simp] theorem setAsu_host : (setAsu s a).host = s.host := rfl
@[simp] theorem setAsu_cores : (setAsu s a).cores = s.cores := rfl
@[simp] theorem setAsu_dram : (setAsu s a).dram = s.dram := rfl
@[simp] theorem setAsu_ten : (setAsu s a).ten = s.ten := rfl
@[simp] theorem setAsu_boot : (setAsu s a).boot = s.boot := rfl
@[simp] theorem setAsu_upd : (setAsu s a).upd = s.upd := rfl
@[simp] theorem setAsu_tst : (setAsu s a).tst = s.tst := rfl
@[simp] theorem setAsu_tru : (setAsu s a).tru = s.tru := rfl
@[simp] theorem setAsu_dgt : (setAsu s a).dgt = s.dgt := rfl
@[simp] theorem setAsu_fch : (setAsu s a).fch = s.fch := rfl
@[simp] theorem setAsu_ftl : (setAsu s a).ftl = s.ftl := rfl
@[simp] theorem setAsu_drc : (setAsu s a).drc = s.drc := rfl
@[simp] theorem setAsu_hif : (setAsu s a).hif = s.hif := rfl
@[simp] theorem setAsu_jct : (setAsu s a).jct = s.jct := rfl
@[simp] theorem setAsu_asu : (setAsu s a).asu = a := rfl
end

/-! `setBank` changes `asu` only. -/

section
variable (s : State) (b : Nat) (x : Bank)
@[simp] theorem setBank_pending : (setBank s b x).pending = s.pending := rfl
@[simp] theorem setBank_now : (setBank s b x).now = s.now := rfl
@[simp] theorem setBank_freeCount : (setBank s b x).freeCount = s.freeCount := rfl
@[simp] theorem setBank_dev : (setBank s b x).dev = s.dev := rfl
@[simp] theorem setBank_regs : (setBank s b x).regs = s.regs := rfl
@[simp] theorem setBank_evr : (setBank s b x).evr = s.evr := rfl
@[simp] theorem setBank_sbx : (setBank s b x).sbx = s.sbx := rfl
@[simp] theorem setBank_stn : (setBank s b x).stn = s.stn := rfl
@[simp] theorem setBank_cfg : (setBank s b x).cfg = s.cfg := rfl
@[simp] theorem setBank_fab : (setBank s b x).fab = s.fab := rfl
@[simp] theorem setBank_pwr : (setBank s b x).pwr = s.pwr := rfl
@[simp] theorem setBank_lmem : (setBank s b x).lmem = s.lmem := rfl
@[simp] theorem setBank_key : (setBank s b x).key = s.key := rfl
@[simp] theorem setBank_host : (setBank s b x).host = s.host := rfl
@[simp] theorem setBank_cores : (setBank s b x).cores = s.cores := rfl
@[simp] theorem setBank_dram : (setBank s b x).dram = s.dram := rfl
@[simp] theorem setBank_ten : (setBank s b x).ten = s.ten := rfl
@[simp] theorem setBank_boot : (setBank s b x).boot = s.boot := rfl
@[simp] theorem setBank_upd : (setBank s b x).upd = s.upd := rfl
@[simp] theorem setBank_tst : (setBank s b x).tst = s.tst := rfl
@[simp] theorem setBank_tru : (setBank s b x).tru = s.tru := rfl
@[simp] theorem setBank_dgt : (setBank s b x).dgt = s.dgt := rfl
@[simp] theorem setBank_fch : (setBank s b x).fch = s.fch := rfl
@[simp] theorem setBank_ftl : (setBank s b x).ftl = s.ftl := rfl
@[simp] theorem setBank_drc : (setBank s b x).drc = s.drc := rfl
@[simp] theorem setBank_hif : (setBank s b x).hif = s.hif := rfl
@[simp] theorem setBank_jct : (setBank s b x).jct = s.jct := rfl
end

/-! `setFen` changes `fab` only. -/

section
variable (s : State) (f : Nat) (x : Fen)
@[simp] theorem setFen_pending : (setFen s f x).pending = s.pending := rfl
@[simp] theorem setFen_now : (setFen s f x).now = s.now := rfl
@[simp] theorem setFen_freeCount : (setFen s f x).freeCount = s.freeCount := rfl
@[simp] theorem setFen_dev : (setFen s f x).dev = s.dev := rfl
@[simp] theorem setFen_regs : (setFen s f x).regs = s.regs := rfl
@[simp] theorem setFen_evr : (setFen s f x).evr = s.evr := rfl
@[simp] theorem setFen_sbx : (setFen s f x).sbx = s.sbx := rfl
@[simp] theorem setFen_stn : (setFen s f x).stn = s.stn := rfl
@[simp] theorem setFen_cfg : (setFen s f x).cfg = s.cfg := rfl
@[simp] theorem setFen_pwr : (setFen s f x).pwr = s.pwr := rfl
@[simp] theorem setFen_lmem : (setFen s f x).lmem = s.lmem := rfl
@[simp] theorem setFen_key : (setFen s f x).key = s.key := rfl
@[simp] theorem setFen_host : (setFen s f x).host = s.host := rfl
@[simp] theorem setFen_cores : (setFen s f x).cores = s.cores := rfl
@[simp] theorem setFen_dram : (setFen s f x).dram = s.dram := rfl
@[simp] theorem setFen_ten : (setFen s f x).ten = s.ten := rfl
@[simp] theorem setFen_boot : (setFen s f x).boot = s.boot := rfl
@[simp] theorem setFen_upd : (setFen s f x).upd = s.upd := rfl
@[simp] theorem setFen_tst : (setFen s f x).tst = s.tst := rfl
@[simp] theorem setFen_tru : (setFen s f x).tru = s.tru := rfl
@[simp] theorem setFen_dgt : (setFen s f x).dgt = s.dgt := rfl
@[simp] theorem setFen_asu : (setFen s f x).asu = s.asu := rfl
@[simp] theorem setFen_fch : (setFen s f x).fch = s.fch := rfl
@[simp] theorem setFen_ftl : (setFen s f x).ftl = s.ftl := rfl
@[simp] theorem setFen_drc : (setFen s f x).drc = s.drc := rfl
@[simp] theorem setFen_hif : (setFen s f x).hif = s.hif := rfl
@[simp] theorem setFen_jct : (setFen s f x).jct = s.jct := rfl
end

/-! `setTen` changes `ten` only. -/

section
variable (s : State) (t : Ten)
@[simp] theorem setTen_pending : (setTen s t).pending = s.pending := rfl
@[simp] theorem setTen_now : (setTen s t).now = s.now := rfl
@[simp] theorem setTen_freeCount : (setTen s t).freeCount = s.freeCount := rfl
@[simp] theorem setTen_dev : (setTen s t).dev = s.dev := rfl
@[simp] theorem setTen_regs : (setTen s t).regs = s.regs := rfl
@[simp] theorem setTen_evr : (setTen s t).evr = s.evr := rfl
@[simp] theorem setTen_sbx : (setTen s t).sbx = s.sbx := rfl
@[simp] theorem setTen_stn : (setTen s t).stn = s.stn := rfl
@[simp] theorem setTen_cfg : (setTen s t).cfg = s.cfg := rfl
@[simp] theorem setTen_fab : (setTen s t).fab = s.fab := rfl
@[simp] theorem setTen_pwr : (setTen s t).pwr = s.pwr := rfl
@[simp] theorem setTen_lmem : (setTen s t).lmem = s.lmem := rfl
@[simp] theorem setTen_key : (setTen s t).key = s.key := rfl
@[simp] theorem setTen_host : (setTen s t).host = s.host := rfl
@[simp] theorem setTen_cores : (setTen s t).cores = s.cores := rfl
@[simp] theorem setTen_dram : (setTen s t).dram = s.dram := rfl
@[simp] theorem setTen_boot : (setTen s t).boot = s.boot := rfl
@[simp] theorem setTen_upd : (setTen s t).upd = s.upd := rfl
@[simp] theorem setTen_tst : (setTen s t).tst = s.tst := rfl
@[simp] theorem setTen_tru : (setTen s t).tru = s.tru := rfl
@[simp] theorem setTen_dgt : (setTen s t).dgt = s.dgt := rfl
@[simp] theorem setTen_asu : (setTen s t).asu = s.asu := rfl
@[simp] theorem setTen_fch : (setTen s t).fch = s.fch := rfl
@[simp] theorem setTen_ftl : (setTen s t).ftl = s.ftl := rfl
@[simp] theorem setTen_drc : (setTen s t).drc = s.drc := rfl
@[simp] theorem setTen_hif : (setTen s t).hif = s.hif := rfl
@[simp] theorem setTen_jct : (setTen s t).jct = s.jct := rfl
@[simp] theorem setTen_ten : (setTen s t).ten = t := rfl
end

/-! `setTest` changes `tst` only. -/

section
variable (s : State) (x : InTest)
@[simp] theorem setTest_pending : (setTest s x).pending = s.pending := rfl
@[simp] theorem setTest_now : (setTest s x).now = s.now := rfl
@[simp] theorem setTest_freeCount : (setTest s x).freeCount = s.freeCount := rfl
@[simp] theorem setTest_dev : (setTest s x).dev = s.dev := rfl
@[simp] theorem setTest_regs : (setTest s x).regs = s.regs := rfl
@[simp] theorem setTest_evr : (setTest s x).evr = s.evr := rfl
@[simp] theorem setTest_sbx : (setTest s x).sbx = s.sbx := rfl
@[simp] theorem setTest_stn : (setTest s x).stn = s.stn := rfl
@[simp] theorem setTest_cfg : (setTest s x).cfg = s.cfg := rfl
@[simp] theorem setTest_fab : (setTest s x).fab = s.fab := rfl
@[simp] theorem setTest_pwr : (setTest s x).pwr = s.pwr := rfl
@[simp] theorem setTest_lmem : (setTest s x).lmem = s.lmem := rfl
@[simp] theorem setTest_key : (setTest s x).key = s.key := rfl
@[simp] theorem setTest_host : (setTest s x).host = s.host := rfl
@[simp] theorem setTest_cores : (setTest s x).cores = s.cores := rfl
@[simp] theorem setTest_dram : (setTest s x).dram = s.dram := rfl
@[simp] theorem setTest_ten : (setTest s x).ten = s.ten := rfl
@[simp] theorem setTest_boot : (setTest s x).boot = s.boot := rfl
@[simp] theorem setTest_upd : (setTest s x).upd = s.upd := rfl
@[simp] theorem setTest_tru : (setTest s x).tru = s.tru := rfl
@[simp] theorem setTest_dgt : (setTest s x).dgt = s.dgt := rfl
@[simp] theorem setTest_asu : (setTest s x).asu = s.asu := rfl
@[simp] theorem setTest_fch : (setTest s x).fch = s.fch := rfl
@[simp] theorem setTest_ftl : (setTest s x).ftl = s.ftl := rfl
@[simp] theorem setTest_drc : (setTest s x).drc = s.drc := rfl
@[simp] theorem setTest_hif : (setTest s x).hif = s.hif := rfl
@[simp] theorem setTest_jct : (setTest s x).jct = s.jct := rfl
end

/-! `setTst` changes `tst` only. -/

section
variable (s : State) (t : Tst)
@[simp] theorem setTst_pending : (setTst s t).pending = s.pending := rfl
@[simp] theorem setTst_now : (setTst s t).now = s.now := rfl
@[simp] theorem setTst_freeCount : (setTst s t).freeCount = s.freeCount := rfl
@[simp] theorem setTst_dev : (setTst s t).dev = s.dev := rfl
@[simp] theorem setTst_regs : (setTst s t).regs = s.regs := rfl
@[simp] theorem setTst_evr : (setTst s t).evr = s.evr := rfl
@[simp] theorem setTst_sbx : (setTst s t).sbx = s.sbx := rfl
@[simp] theorem setTst_stn : (setTst s t).stn = s.stn := rfl
@[simp] theorem setTst_cfg : (setTst s t).cfg = s.cfg := rfl
@[simp] theorem setTst_fab : (setTst s t).fab = s.fab := rfl
@[simp] theorem setTst_pwr : (setTst s t).pwr = s.pwr := rfl
@[simp] theorem setTst_lmem : (setTst s t).lmem = s.lmem := rfl
@[simp] theorem setTst_key : (setTst s t).key = s.key := rfl
@[simp] theorem setTst_host : (setTst s t).host = s.host := rfl
@[simp] theorem setTst_cores : (setTst s t).cores = s.cores := rfl
@[simp] theorem setTst_dram : (setTst s t).dram = s.dram := rfl
@[simp] theorem setTst_ten : (setTst s t).ten = s.ten := rfl
@[simp] theorem setTst_boot : (setTst s t).boot = s.boot := rfl
@[simp] theorem setTst_upd : (setTst s t).upd = s.upd := rfl
@[simp] theorem setTst_tru : (setTst s t).tru = s.tru := rfl
@[simp] theorem setTst_dgt : (setTst s t).dgt = s.dgt := rfl
@[simp] theorem setTst_asu : (setTst s t).asu = s.asu := rfl
@[simp] theorem setTst_fch : (setTst s t).fch = s.fch := rfl
@[simp] theorem setTst_ftl : (setTst s t).ftl = s.ftl := rfl
@[simp] theorem setTst_drc : (setTst s t).drc = s.drc := rfl
@[simp] theorem setTst_hif : (setTst s t).hif = s.hif := rfl
@[simp] theorem setTst_jct : (setTst s t).jct = s.jct := rfl
@[simp] theorem setTst_tst : (setTst s t).tst = t := rfl
end

/-! `setEntry` changes `sbx` only. -/

section
variable (s : State) (tag : Nat) (e : Entry)
@[simp] theorem setEntry_pending : (setEntry s tag e).pending = s.pending := rfl
@[simp] theorem setEntry_now : (setEntry s tag e).now = s.now := rfl
@[simp] theorem setEntry_freeCount : (setEntry s tag e).freeCount = s.freeCount := rfl
@[simp] theorem setEntry_dev : (setEntry s tag e).dev = s.dev := rfl
@[simp] theorem setEntry_regs : (setEntry s tag e).regs = s.regs := rfl
@[simp] theorem setEntry_evr : (setEntry s tag e).evr = s.evr := rfl
@[simp] theorem setEntry_stn : (setEntry s tag e).stn = s.stn := rfl
@[simp] theorem setEntry_cfg : (setEntry s tag e).cfg = s.cfg := rfl
@[simp] theorem setEntry_fab : (setEntry s tag e).fab = s.fab := rfl
@[simp] theorem setEntry_pwr : (setEntry s tag e).pwr = s.pwr := rfl
@[simp] theorem setEntry_lmem : (setEntry s tag e).lmem = s.lmem := rfl
@[simp] theorem setEntry_key : (setEntry s tag e).key = s.key := rfl
@[simp] theorem setEntry_host : (setEntry s tag e).host = s.host := rfl
@[simp] theorem setEntry_cores : (setEntry s tag e).cores = s.cores := rfl
@[simp] theorem setEntry_dram : (setEntry s tag e).dram = s.dram := rfl
@[simp] theorem setEntry_ten : (setEntry s tag e).ten = s.ten := rfl
@[simp] theorem setEntry_boot : (setEntry s tag e).boot = s.boot := rfl
@[simp] theorem setEntry_upd : (setEntry s tag e).upd = s.upd := rfl
@[simp] theorem setEntry_tst : (setEntry s tag e).tst = s.tst := rfl
@[simp] theorem setEntry_tru : (setEntry s tag e).tru = s.tru := rfl
@[simp] theorem setEntry_dgt : (setEntry s tag e).dgt = s.dgt := rfl
@[simp] theorem setEntry_asu : (setEntry s tag e).asu = s.asu := rfl
@[simp] theorem setEntry_fch : (setEntry s tag e).fch = s.fch := rfl
@[simp] theorem setEntry_ftl : (setEntry s tag e).ftl = s.ftl := rfl
@[simp] theorem setEntry_drc : (setEntry s tag e).drc = s.drc := rfl
@[simp] theorem setEntry_hif : (setEntry s tag e).hif = s.hif := rfl
@[simp] theorem setEntry_jct : (setEntry s tag e).jct = s.jct := rfl
end

/-! `setCtx` changes `stn` only. -/

section
variable (s : State) (tag step : Nat) (c : Ctx)
@[simp] theorem setCtx_pending : (setCtx s tag step c).pending = s.pending := rfl
@[simp] theorem setCtx_now : (setCtx s tag step c).now = s.now := rfl
@[simp] theorem setCtx_freeCount : (setCtx s tag step c).freeCount = s.freeCount := rfl
@[simp] theorem setCtx_dev : (setCtx s tag step c).dev = s.dev := rfl
@[simp] theorem setCtx_regs : (setCtx s tag step c).regs = s.regs := rfl
@[simp] theorem setCtx_evr : (setCtx s tag step c).evr = s.evr := rfl
@[simp] theorem setCtx_sbx : (setCtx s tag step c).sbx = s.sbx := rfl
@[simp] theorem setCtx_cfg : (setCtx s tag step c).cfg = s.cfg := rfl
@[simp] theorem setCtx_fab : (setCtx s tag step c).fab = s.fab := rfl
@[simp] theorem setCtx_pwr : (setCtx s tag step c).pwr = s.pwr := rfl
@[simp] theorem setCtx_lmem : (setCtx s tag step c).lmem = s.lmem := rfl
@[simp] theorem setCtx_key : (setCtx s tag step c).key = s.key := rfl
@[simp] theorem setCtx_host : (setCtx s tag step c).host = s.host := rfl
@[simp] theorem setCtx_cores : (setCtx s tag step c).cores = s.cores := rfl
@[simp] theorem setCtx_dram : (setCtx s tag step c).dram = s.dram := rfl
@[simp] theorem setCtx_ten : (setCtx s tag step c).ten = s.ten := rfl
@[simp] theorem setCtx_boot : (setCtx s tag step c).boot = s.boot := rfl
@[simp] theorem setCtx_upd : (setCtx s tag step c).upd = s.upd := rfl
@[simp] theorem setCtx_tst : (setCtx s tag step c).tst = s.tst := rfl
@[simp] theorem setCtx_tru : (setCtx s tag step c).tru = s.tru := rfl
@[simp] theorem setCtx_dgt : (setCtx s tag step c).dgt = s.dgt := rfl
@[simp] theorem setCtx_asu : (setCtx s tag step c).asu = s.asu := rfl
@[simp] theorem setCtx_fch : (setCtx s tag step c).fch = s.fch := rfl
@[simp] theorem setCtx_ftl : (setCtx s tag step c).ftl = s.ftl := rfl
@[simp] theorem setCtx_drc : (setCtx s tag step c).drc = s.drc := rfl
@[simp] theorem setCtx_hif : (setCtx s tag step c).hif = s.hif := rfl
@[simp] theorem setCtx_jct : (setCtx s tag step c).jct = s.jct := rfl
end

/-! `setInbox` changes `stn` only. -/

section
variable (s : State) (u : Nat) (l : List Work)
@[simp] theorem setInbox_pending : (setInbox s u l).pending = s.pending := rfl
@[simp] theorem setInbox_now : (setInbox s u l).now = s.now := rfl
@[simp] theorem setInbox_freeCount : (setInbox s u l).freeCount = s.freeCount := rfl
@[simp] theorem setInbox_dev : (setInbox s u l).dev = s.dev := rfl
@[simp] theorem setInbox_regs : (setInbox s u l).regs = s.regs := rfl
@[simp] theorem setInbox_evr : (setInbox s u l).evr = s.evr := rfl
@[simp] theorem setInbox_sbx : (setInbox s u l).sbx = s.sbx := rfl
@[simp] theorem setInbox_cfg : (setInbox s u l).cfg = s.cfg := rfl
@[simp] theorem setInbox_fab : (setInbox s u l).fab = s.fab := rfl
@[simp] theorem setInbox_pwr : (setInbox s u l).pwr = s.pwr := rfl
@[simp] theorem setInbox_lmem : (setInbox s u l).lmem = s.lmem := rfl
@[simp] theorem setInbox_key : (setInbox s u l).key = s.key := rfl
@[simp] theorem setInbox_host : (setInbox s u l).host = s.host := rfl
@[simp] theorem setInbox_cores : (setInbox s u l).cores = s.cores := rfl
@[simp] theorem setInbox_dram : (setInbox s u l).dram = s.dram := rfl
@[simp] theorem setInbox_ten : (setInbox s u l).ten = s.ten := rfl
@[simp] theorem setInbox_boot : (setInbox s u l).boot = s.boot := rfl
@[simp] theorem setInbox_upd : (setInbox s u l).upd = s.upd := rfl
@[simp] theorem setInbox_tst : (setInbox s u l).tst = s.tst := rfl
@[simp] theorem setInbox_tru : (setInbox s u l).tru = s.tru := rfl
@[simp] theorem setInbox_dgt : (setInbox s u l).dgt = s.dgt := rfl
@[simp] theorem setInbox_asu : (setInbox s u l).asu = s.asu := rfl
@[simp] theorem setInbox_fch : (setInbox s u l).fch = s.fch := rfl
@[simp] theorem setInbox_ftl : (setInbox s u l).ftl = s.ftl := rfl
@[simp] theorem setInbox_drc : (setInbox s u l).drc = s.drc := rfl
@[simp] theorem setInbox_hif : (setInbox s u l).hif = s.hif := rfl
@[simp] theorem setInbox_jct : (setInbox s u l).jct = s.jct := rfl
end

/-! `setPacket` changes `dev` only. -/

section
variable (s : State) (p q : Packet)
@[simp] theorem setPacket_pending : (setPacket s p q).pending = s.pending := rfl
@[simp] theorem setPacket_now : (setPacket s p q).now = s.now := rfl
@[simp] theorem setPacket_freeCount : (setPacket s p q).freeCount = s.freeCount := rfl
@[simp] theorem setPacket_regs : (setPacket s p q).regs = s.regs := rfl
@[simp] theorem setPacket_evr : (setPacket s p q).evr = s.evr := rfl
@[simp] theorem setPacket_sbx : (setPacket s p q).sbx = s.sbx := rfl
@[simp] theorem setPacket_stn : (setPacket s p q).stn = s.stn := rfl
@[simp] theorem setPacket_cfg : (setPacket s p q).cfg = s.cfg := rfl
@[simp] theorem setPacket_fab : (setPacket s p q).fab = s.fab := rfl
@[simp] theorem setPacket_pwr : (setPacket s p q).pwr = s.pwr := rfl
@[simp] theorem setPacket_lmem : (setPacket s p q).lmem = s.lmem := rfl
@[simp] theorem setPacket_key : (setPacket s p q).key = s.key := rfl
@[simp] theorem setPacket_host : (setPacket s p q).host = s.host := rfl
@[simp] theorem setPacket_cores : (setPacket s p q).cores = s.cores := rfl
@[simp] theorem setPacket_dram : (setPacket s p q).dram = s.dram := rfl
@[simp] theorem setPacket_ten : (setPacket s p q).ten = s.ten := rfl
@[simp] theorem setPacket_boot : (setPacket s p q).boot = s.boot := rfl
@[simp] theorem setPacket_upd : (setPacket s p q).upd = s.upd := rfl
@[simp] theorem setPacket_tst : (setPacket s p q).tst = s.tst := rfl
@[simp] theorem setPacket_tru : (setPacket s p q).tru = s.tru := rfl
@[simp] theorem setPacket_dgt : (setPacket s p q).dgt = s.dgt := rfl
@[simp] theorem setPacket_asu : (setPacket s p q).asu = s.asu := rfl
@[simp] theorem setPacket_fch : (setPacket s p q).fch = s.fch := rfl
@[simp] theorem setPacket_ftl : (setPacket s p q).ftl = s.ftl := rfl
@[simp] theorem setPacket_drc : (setPacket s p q).drc = s.drc := rfl
@[simp] theorem setPacket_hif : (setPacket s p q).hif = s.hif := rfl
@[simp] theorem setPacket_jct : (setPacket s p q).jct = s.jct := rfl
end

/-! `setTru` changes `tru` only. -/

section
variable (s : State) (t : Tru)
@[simp] theorem setTru_pending : (setTru s t).pending = s.pending := rfl
@[simp] theorem setTru_now : (setTru s t).now = s.now := rfl
@[simp] theorem setTru_freeCount : (setTru s t).freeCount = s.freeCount := rfl
@[simp] theorem setTru_dev : (setTru s t).dev = s.dev := rfl
@[simp] theorem setTru_regs : (setTru s t).regs = s.regs := rfl
@[simp] theorem setTru_evr : (setTru s t).evr = s.evr := rfl
@[simp] theorem setTru_sbx : (setTru s t).sbx = s.sbx := rfl
@[simp] theorem setTru_stn : (setTru s t).stn = s.stn := rfl
@[simp] theorem setTru_cfg : (setTru s t).cfg = s.cfg := rfl
@[simp] theorem setTru_fab : (setTru s t).fab = s.fab := rfl
@[simp] theorem setTru_pwr : (setTru s t).pwr = s.pwr := rfl
@[simp] theorem setTru_lmem : (setTru s t).lmem = s.lmem := rfl
@[simp] theorem setTru_key : (setTru s t).key = s.key := rfl
@[simp] theorem setTru_host : (setTru s t).host = s.host := rfl
@[simp] theorem setTru_cores : (setTru s t).cores = s.cores := rfl
@[simp] theorem setTru_dram : (setTru s t).dram = s.dram := rfl
@[simp] theorem setTru_ten : (setTru s t).ten = s.ten := rfl
@[simp] theorem setTru_boot : (setTru s t).boot = s.boot := rfl
@[simp] theorem setTru_upd : (setTru s t).upd = s.upd := rfl
@[simp] theorem setTru_tst : (setTru s t).tst = s.tst := rfl
@[simp] theorem setTru_dgt : (setTru s t).dgt = s.dgt := rfl
@[simp] theorem setTru_asu : (setTru s t).asu = s.asu := rfl
@[simp] theorem setTru_fch : (setTru s t).fch = s.fch := rfl
@[simp] theorem setTru_ftl : (setTru s t).ftl = s.ftl := rfl
@[simp] theorem setTru_drc : (setTru s t).drc = s.drc := rfl
@[simp] theorem setTru_hif : (setTru s t).hif = s.hif := rfl
@[simp] theorem setTru_jct : (setTru s t).jct = s.jct := rfl
@[simp] theorem setTru_tru : (setTru s t).tru = t := rfl
end

/-! `bump` changes `regs` only. -/

section
variable (s : State) (a hi lo k : Nat)
@[simp] theorem bump_pending : (bump s a hi lo k).pending = s.pending := rfl
@[simp] theorem bump_now : (bump s a hi lo k).now = s.now := rfl
@[simp] theorem bump_freeCount : (bump s a hi lo k).freeCount = s.freeCount := rfl
@[simp] theorem bump_dev : (bump s a hi lo k).dev = s.dev := rfl
@[simp] theorem bump_evr : (bump s a hi lo k).evr = s.evr := rfl
@[simp] theorem bump_sbx : (bump s a hi lo k).sbx = s.sbx := rfl
@[simp] theorem bump_stn : (bump s a hi lo k).stn = s.stn := rfl
@[simp] theorem bump_cfg : (bump s a hi lo k).cfg = s.cfg := rfl
@[simp] theorem bump_fab : (bump s a hi lo k).fab = s.fab := rfl
@[simp] theorem bump_pwr : (bump s a hi lo k).pwr = s.pwr := rfl
@[simp] theorem bump_lmem : (bump s a hi lo k).lmem = s.lmem := rfl
@[simp] theorem bump_key : (bump s a hi lo k).key = s.key := rfl
@[simp] theorem bump_host : (bump s a hi lo k).host = s.host := rfl
@[simp] theorem bump_cores : (bump s a hi lo k).cores = s.cores := rfl
@[simp] theorem bump_dram : (bump s a hi lo k).dram = s.dram := rfl
@[simp] theorem bump_ten : (bump s a hi lo k).ten = s.ten := rfl
@[simp] theorem bump_boot : (bump s a hi lo k).boot = s.boot := rfl
@[simp] theorem bump_upd : (bump s a hi lo k).upd = s.upd := rfl
@[simp] theorem bump_tst : (bump s a hi lo k).tst = s.tst := rfl
@[simp] theorem bump_tru : (bump s a hi lo k).tru = s.tru := rfl
@[simp] theorem bump_dgt : (bump s a hi lo k).dgt = s.dgt := rfl
@[simp] theorem bump_asu : (bump s a hi lo k).asu = s.asu := rfl
@[simp] theorem bump_fch : (bump s a hi lo k).fch = s.fch := rfl
@[simp] theorem bump_ftl : (bump s a hi lo k).ftl = s.ftl := rfl
@[simp] theorem bump_drc : (bump s a hi lo k).drc = s.drc := rfl
@[simp] theorem bump_hif : (bump s a hi lo k).hif = s.hif := rfl
@[simp] theorem bump_jct : (bump s a hi lo k).jct = s.jct := rfl
end

/-! `drawn` changes `freeCount` only. -/

section
variable (s : State)
@[simp] theorem drawn_pending : (drawn s).pending = s.pending := rfl
@[simp] theorem drawn_now : (drawn s).now = s.now := rfl
@[simp] theorem drawn_dev : (drawn s).dev = s.dev := rfl
@[simp] theorem drawn_regs : (drawn s).regs = s.regs := rfl
@[simp] theorem drawn_evr : (drawn s).evr = s.evr := rfl
@[simp] theorem drawn_sbx : (drawn s).sbx = s.sbx := rfl
@[simp] theorem drawn_stn : (drawn s).stn = s.stn := rfl
@[simp] theorem drawn_cfg : (drawn s).cfg = s.cfg := rfl
@[simp] theorem drawn_fab : (drawn s).fab = s.fab := rfl
@[simp] theorem drawn_pwr : (drawn s).pwr = s.pwr := rfl
@[simp] theorem drawn_lmem : (drawn s).lmem = s.lmem := rfl
@[simp] theorem drawn_key : (drawn s).key = s.key := rfl
@[simp] theorem drawn_host : (drawn s).host = s.host := rfl
@[simp] theorem drawn_cores : (drawn s).cores = s.cores := rfl
@[simp] theorem drawn_dram : (drawn s).dram = s.dram := rfl
@[simp] theorem drawn_ten : (drawn s).ten = s.ten := rfl
@[simp] theorem drawn_boot : (drawn s).boot = s.boot := rfl
@[simp] theorem drawn_upd : (drawn s).upd = s.upd := rfl
@[simp] theorem drawn_tst : (drawn s).tst = s.tst := rfl
@[simp] theorem drawn_tru : (drawn s).tru = s.tru := rfl
@[simp] theorem drawn_dgt : (drawn s).dgt = s.dgt := rfl
@[simp] theorem drawn_asu : (drawn s).asu = s.asu := rfl
@[simp] theorem drawn_fch : (drawn s).fch = s.fch := rfl
@[simp] theorem drawn_ftl : (drawn s).ftl = s.ftl := rfl
@[simp] theorem drawn_drc : (drawn s).drc = s.drc := rfl
@[simp] theorem drawn_hif : (drawn s).hif = s.hif := rfl
@[simp] theorem drawn_jct : (drawn s).jct = s.jct := rfl
end

/-! `emit` changes `dev` only. -/

section
variable (s : State) (p : Packet)
@[simp] theorem emit_pending : (emit s p).pending = s.pending := rfl
@[simp] theorem emit_now : (emit s p).now = s.now := rfl
@[simp] theorem emit_freeCount : (emit s p).freeCount = s.freeCount := rfl
@[simp] theorem emit_regs : (emit s p).regs = s.regs := rfl
@[simp] theorem emit_evr : (emit s p).evr = s.evr := rfl
@[simp] theorem emit_sbx : (emit s p).sbx = s.sbx := rfl
@[simp] theorem emit_stn : (emit s p).stn = s.stn := rfl
@[simp] theorem emit_cfg : (emit s p).cfg = s.cfg := rfl
@[simp] theorem emit_fab : (emit s p).fab = s.fab := rfl
@[simp] theorem emit_pwr : (emit s p).pwr = s.pwr := rfl
@[simp] theorem emit_lmem : (emit s p).lmem = s.lmem := rfl
@[simp] theorem emit_key : (emit s p).key = s.key := rfl
@[simp] theorem emit_host : (emit s p).host = s.host := rfl
@[simp] theorem emit_cores : (emit s p).cores = s.cores := rfl
@[simp] theorem emit_dram : (emit s p).dram = s.dram := rfl
@[simp] theorem emit_ten : (emit s p).ten = s.ten := rfl
@[simp] theorem emit_boot : (emit s p).boot = s.boot := rfl
@[simp] theorem emit_upd : (emit s p).upd = s.upd := rfl
@[simp] theorem emit_tst : (emit s p).tst = s.tst := rfl
@[simp] theorem emit_tru : (emit s p).tru = s.tru := rfl
@[simp] theorem emit_dgt : (emit s p).dgt = s.dgt := rfl
@[simp] theorem emit_asu : (emit s p).asu = s.asu := rfl
@[simp] theorem emit_fch : (emit s p).fch = s.fch := rfl
@[simp] theorem emit_ftl : (emit s p).ftl = s.ftl := rfl
@[simp] theorem emit_drc : (emit s p).drc = s.drc := rfl
@[simp] theorem emit_hif : (emit s p).hif = s.hif := rfl
@[simp] theorem emit_jct : (emit s p).jct = s.jct := rfl
end

/-! `startUnit` changes `dev` only. -/

section
variable (s : State) (n : Nat) (f : UnitRec → UnitRec)
@[simp] theorem startUnit_pending : (startUnit s n f).pending = s.pending := rfl
@[simp] theorem startUnit_now : (startUnit s n f).now = s.now := rfl
@[simp] theorem startUnit_freeCount : (startUnit s n f).freeCount = s.freeCount := rfl
@[simp] theorem startUnit_regs : (startUnit s n f).regs = s.regs := rfl
@[simp] theorem startUnit_evr : (startUnit s n f).evr = s.evr := rfl
@[simp] theorem startUnit_sbx : (startUnit s n f).sbx = s.sbx := rfl
@[simp] theorem startUnit_stn : (startUnit s n f).stn = s.stn := rfl
@[simp] theorem startUnit_cfg : (startUnit s n f).cfg = s.cfg := rfl
@[simp] theorem startUnit_fab : (startUnit s n f).fab = s.fab := rfl
@[simp] theorem startUnit_pwr : (startUnit s n f).pwr = s.pwr := rfl
@[simp] theorem startUnit_lmem : (startUnit s n f).lmem = s.lmem := rfl
@[simp] theorem startUnit_key : (startUnit s n f).key = s.key := rfl
@[simp] theorem startUnit_host : (startUnit s n f).host = s.host := rfl
@[simp] theorem startUnit_cores : (startUnit s n f).cores = s.cores := rfl
@[simp] theorem startUnit_dram : (startUnit s n f).dram = s.dram := rfl
@[simp] theorem startUnit_ten : (startUnit s n f).ten = s.ten := rfl
@[simp] theorem startUnit_boot : (startUnit s n f).boot = s.boot := rfl
@[simp] theorem startUnit_upd : (startUnit s n f).upd = s.upd := rfl
@[simp] theorem startUnit_tst : (startUnit s n f).tst = s.tst := rfl
@[simp] theorem startUnit_tru : (startUnit s n f).tru = s.tru := rfl
@[simp] theorem startUnit_dgt : (startUnit s n f).dgt = s.dgt := rfl
@[simp] theorem startUnit_asu : (startUnit s n f).asu = s.asu := rfl
@[simp] theorem startUnit_fch : (startUnit s n f).fch = s.fch := rfl
@[simp] theorem startUnit_ftl : (startUnit s n f).ftl = s.ftl := rfl
@[simp] theorem startUnit_drc : (startUnit s n f).drc = s.drc := rfl
@[simp] theorem startUnit_hif : (startUnit s n f).hif = s.hif := rfl
@[simp] theorem startUnit_jct : (startUnit s n f).jct = s.jct := rfl
end

/-! `putG` changes `cores` only. -/

section
variable (s : State) (c : Nat) (d : Fin 32) (v : DWord)
@[simp] theorem putG_pending : (putG s c d v).pending = s.pending := rfl
@[simp] theorem putG_now : (putG s c d v).now = s.now := rfl
@[simp] theorem putG_freeCount : (putG s c d v).freeCount = s.freeCount := rfl
@[simp] theorem putG_dev : (putG s c d v).dev = s.dev := rfl
@[simp] theorem putG_regs : (putG s c d v).regs = s.regs := rfl
@[simp] theorem putG_evr : (putG s c d v).evr = s.evr := rfl
@[simp] theorem putG_sbx : (putG s c d v).sbx = s.sbx := rfl
@[simp] theorem putG_stn : (putG s c d v).stn = s.stn := rfl
@[simp] theorem putG_cfg : (putG s c d v).cfg = s.cfg := rfl
@[simp] theorem putG_fab : (putG s c d v).fab = s.fab := rfl
@[simp] theorem putG_pwr : (putG s c d v).pwr = s.pwr := rfl
@[simp] theorem putG_lmem : (putG s c d v).lmem = s.lmem := rfl
@[simp] theorem putG_key : (putG s c d v).key = s.key := rfl
@[simp] theorem putG_host : (putG s c d v).host = s.host := rfl
@[simp] theorem putG_dram : (putG s c d v).dram = s.dram := rfl
@[simp] theorem putG_ten : (putG s c d v).ten = s.ten := rfl
@[simp] theorem putG_boot : (putG s c d v).boot = s.boot := rfl
@[simp] theorem putG_upd : (putG s c d v).upd = s.upd := rfl
@[simp] theorem putG_tst : (putG s c d v).tst = s.tst := rfl
@[simp] theorem putG_tru : (putG s c d v).tru = s.tru := rfl
@[simp] theorem putG_dgt : (putG s c d v).dgt = s.dgt := rfl
@[simp] theorem putG_asu : (putG s c d v).asu = s.asu := rfl
@[simp] theorem putG_fch : (putG s c d v).fch = s.fch := rfl
@[simp] theorem putG_ftl : (putG s c d v).ftl = s.ftl := rfl
@[simp] theorem putG_drc : (putG s c d v).drc = s.drc := rfl
@[simp] theorem putG_hif : (putG s c d v).hif = s.hif := rfl
@[simp] theorem putG_jct : (putG s c d v).jct = s.jct := rfl
end

/-! `enqueue` changes `stn` only. -/

section
variable (s : State) (u : Nat) (w : Work)
@[simp] theorem enqueue_pending : (enqueue s u w).pending = s.pending := rfl
@[simp] theorem enqueue_now : (enqueue s u w).now = s.now := rfl
@[simp] theorem enqueue_freeCount : (enqueue s u w).freeCount = s.freeCount := rfl
@[simp] theorem enqueue_dev : (enqueue s u w).dev = s.dev := rfl
@[simp] theorem enqueue_regs : (enqueue s u w).regs = s.regs := rfl
@[simp] theorem enqueue_evr : (enqueue s u w).evr = s.evr := rfl
@[simp] theorem enqueue_sbx : (enqueue s u w).sbx = s.sbx := rfl
@[simp] theorem enqueue_cfg : (enqueue s u w).cfg = s.cfg := rfl
@[simp] theorem enqueue_fab : (enqueue s u w).fab = s.fab := rfl
@[simp] theorem enqueue_pwr : (enqueue s u w).pwr = s.pwr := rfl
@[simp] theorem enqueue_lmem : (enqueue s u w).lmem = s.lmem := rfl
@[simp] theorem enqueue_key : (enqueue s u w).key = s.key := rfl
@[simp] theorem enqueue_host : (enqueue s u w).host = s.host := rfl
@[simp] theorem enqueue_cores : (enqueue s u w).cores = s.cores := rfl
@[simp] theorem enqueue_dram : (enqueue s u w).dram = s.dram := rfl
@[simp] theorem enqueue_ten : (enqueue s u w).ten = s.ten := rfl
@[simp] theorem enqueue_boot : (enqueue s u w).boot = s.boot := rfl
@[simp] theorem enqueue_upd : (enqueue s u w).upd = s.upd := rfl
@[simp] theorem enqueue_tst : (enqueue s u w).tst = s.tst := rfl
@[simp] theorem enqueue_tru : (enqueue s u w).tru = s.tru := rfl
@[simp] theorem enqueue_dgt : (enqueue s u w).dgt = s.dgt := rfl
@[simp] theorem enqueue_asu : (enqueue s u w).asu = s.asu := rfl
@[simp] theorem enqueue_fch : (enqueue s u w).fch = s.fch := rfl
@[simp] theorem enqueue_ftl : (enqueue s u w).ftl = s.ftl := rfl
@[simp] theorem enqueue_drc : (enqueue s u w).drc = s.drc := rfl
@[simp] theorem enqueue_hif : (enqueue s u w).hif = s.hif := rfl
@[simp] theorem enqueue_jct : (enqueue s u w).jct = s.jct := rfl
end

/-! `offTrunk` changes `dev` only. -/

section
variable (s : State) (p : Packet)
@[simp] theorem offTrunk_pending : (offTrunk s p).pending = s.pending := rfl
@[simp] theorem offTrunk_now : (offTrunk s p).now = s.now := rfl
@[simp] theorem offTrunk_freeCount : (offTrunk s p).freeCount = s.freeCount := rfl
@[simp] theorem offTrunk_regs : (offTrunk s p).regs = s.regs := rfl
@[simp] theorem offTrunk_evr : (offTrunk s p).evr = s.evr := rfl
@[simp] theorem offTrunk_sbx : (offTrunk s p).sbx = s.sbx := rfl
@[simp] theorem offTrunk_stn : (offTrunk s p).stn = s.stn := rfl
@[simp] theorem offTrunk_cfg : (offTrunk s p).cfg = s.cfg := rfl
@[simp] theorem offTrunk_fab : (offTrunk s p).fab = s.fab := rfl
@[simp] theorem offTrunk_pwr : (offTrunk s p).pwr = s.pwr := rfl
@[simp] theorem offTrunk_lmem : (offTrunk s p).lmem = s.lmem := rfl
@[simp] theorem offTrunk_key : (offTrunk s p).key = s.key := rfl
@[simp] theorem offTrunk_host : (offTrunk s p).host = s.host := rfl
@[simp] theorem offTrunk_cores : (offTrunk s p).cores = s.cores := rfl
@[simp] theorem offTrunk_dram : (offTrunk s p).dram = s.dram := rfl
@[simp] theorem offTrunk_ten : (offTrunk s p).ten = s.ten := rfl
@[simp] theorem offTrunk_boot : (offTrunk s p).boot = s.boot := rfl
@[simp] theorem offTrunk_upd : (offTrunk s p).upd = s.upd := rfl
@[simp] theorem offTrunk_tst : (offTrunk s p).tst = s.tst := rfl
@[simp] theorem offTrunk_tru : (offTrunk s p).tru = s.tru := rfl
@[simp] theorem offTrunk_dgt : (offTrunk s p).dgt = s.dgt := rfl
@[simp] theorem offTrunk_asu : (offTrunk s p).asu = s.asu := rfl
@[simp] theorem offTrunk_fch : (offTrunk s p).fch = s.fch := rfl
@[simp] theorem offTrunk_ftl : (offTrunk s p).ftl = s.ftl := rfl
@[simp] theorem offTrunk_drc : (offTrunk s p).drc = s.drc := rfl
@[simp] theorem offTrunk_hif : (offTrunk s p).hif = s.hif := rfl
@[simp] theorem offTrunk_jct : (offTrunk s p).jct = s.jct := rfl
end

/-! `addCmd` changes `hif` only. -/

section
variable (s : State) (y : NCmd)
@[simp] theorem addCmd_pending : (addCmd s y).pending = s.pending := rfl
@[simp] theorem addCmd_now : (addCmd s y).now = s.now := rfl
@[simp] theorem addCmd_freeCount : (addCmd s y).freeCount = s.freeCount := rfl
@[simp] theorem addCmd_dev : (addCmd s y).dev = s.dev := rfl
@[simp] theorem addCmd_regs : (addCmd s y).regs = s.regs := rfl
@[simp] theorem addCmd_evr : (addCmd s y).evr = s.evr := rfl
@[simp] theorem addCmd_sbx : (addCmd s y).sbx = s.sbx := rfl
@[simp] theorem addCmd_stn : (addCmd s y).stn = s.stn := rfl
@[simp] theorem addCmd_cfg : (addCmd s y).cfg = s.cfg := rfl
@[simp] theorem addCmd_fab : (addCmd s y).fab = s.fab := rfl
@[simp] theorem addCmd_pwr : (addCmd s y).pwr = s.pwr := rfl
@[simp] theorem addCmd_lmem : (addCmd s y).lmem = s.lmem := rfl
@[simp] theorem addCmd_key : (addCmd s y).key = s.key := rfl
@[simp] theorem addCmd_host : (addCmd s y).host = s.host := rfl
@[simp] theorem addCmd_cores : (addCmd s y).cores = s.cores := rfl
@[simp] theorem addCmd_dram : (addCmd s y).dram = s.dram := rfl
@[simp] theorem addCmd_ten : (addCmd s y).ten = s.ten := rfl
@[simp] theorem addCmd_boot : (addCmd s y).boot = s.boot := rfl
@[simp] theorem addCmd_upd : (addCmd s y).upd = s.upd := rfl
@[simp] theorem addCmd_tst : (addCmd s y).tst = s.tst := rfl
@[simp] theorem addCmd_tru : (addCmd s y).tru = s.tru := rfl
@[simp] theorem addCmd_dgt : (addCmd s y).dgt = s.dgt := rfl
@[simp] theorem addCmd_asu : (addCmd s y).asu = s.asu := rfl
@[simp] theorem addCmd_fch : (addCmd s y).fch = s.fch := rfl
@[simp] theorem addCmd_ftl : (addCmd s y).ftl = s.ftl := rfl
@[simp] theorem addCmd_drc : (addCmd s y).drc = s.drc := rfl
@[simp] theorem addCmd_jct : (addCmd s y).jct = s.jct := rfl
end

/-! `extendMeas` changes `tru` only. -/

section
variable (s : State) (i : Nat) (rcd : Bytes)
@[simp] theorem extendMeas_pending : (extendMeas s i rcd).pending = s.pending := rfl
@[simp] theorem extendMeas_now : (extendMeas s i rcd).now = s.now := rfl
@[simp] theorem extendMeas_freeCount : (extendMeas s i rcd).freeCount = s.freeCount := rfl
@[simp] theorem extendMeas_dev : (extendMeas s i rcd).dev = s.dev := rfl
@[simp] theorem extendMeas_regs : (extendMeas s i rcd).regs = s.regs := rfl
@[simp] theorem extendMeas_evr : (extendMeas s i rcd).evr = s.evr := rfl
@[simp] theorem extendMeas_sbx : (extendMeas s i rcd).sbx = s.sbx := rfl
@[simp] theorem extendMeas_stn : (extendMeas s i rcd).stn = s.stn := rfl
@[simp] theorem extendMeas_cfg : (extendMeas s i rcd).cfg = s.cfg := rfl
@[simp] theorem extendMeas_fab : (extendMeas s i rcd).fab = s.fab := rfl
@[simp] theorem extendMeas_pwr : (extendMeas s i rcd).pwr = s.pwr := rfl
@[simp] theorem extendMeas_lmem : (extendMeas s i rcd).lmem = s.lmem := rfl
@[simp] theorem extendMeas_key : (extendMeas s i rcd).key = s.key := rfl
@[simp] theorem extendMeas_host : (extendMeas s i rcd).host = s.host := rfl
@[simp] theorem extendMeas_cores : (extendMeas s i rcd).cores = s.cores := rfl
@[simp] theorem extendMeas_dram : (extendMeas s i rcd).dram = s.dram := rfl
@[simp] theorem extendMeas_ten : (extendMeas s i rcd).ten = s.ten := rfl
@[simp] theorem extendMeas_boot : (extendMeas s i rcd).boot = s.boot := rfl
@[simp] theorem extendMeas_upd : (extendMeas s i rcd).upd = s.upd := rfl
@[simp] theorem extendMeas_tst : (extendMeas s i rcd).tst = s.tst := rfl
@[simp] theorem extendMeas_dgt : (extendMeas s i rcd).dgt = s.dgt := rfl
@[simp] theorem extendMeas_asu : (extendMeas s i rcd).asu = s.asu := rfl
@[simp] theorem extendMeas_fch : (extendMeas s i rcd).fch = s.fch := rfl
@[simp] theorem extendMeas_ftl : (extendMeas s i rcd).ftl = s.ftl := rfl
@[simp] theorem extendMeas_drc : (extendMeas s i rcd).drc = s.drc := rfl
@[simp] theorem extendMeas_hif : (extendMeas s i rcd).hif = s.hif := rfl
@[simp] theorem extendMeas_jct : (extendMeas s i rcd).jct = s.jct := rfl
end

/-! `zeroMeas` changes `tru` only. -/

section
variable (s : State) (i : Nat)
@[simp] theorem zeroMeas_pending : (zeroMeas s i).pending = s.pending := rfl
@[simp] theorem zeroMeas_now : (zeroMeas s i).now = s.now := rfl
@[simp] theorem zeroMeas_freeCount : (zeroMeas s i).freeCount = s.freeCount := rfl
@[simp] theorem zeroMeas_dev : (zeroMeas s i).dev = s.dev := rfl
@[simp] theorem zeroMeas_regs : (zeroMeas s i).regs = s.regs := rfl
@[simp] theorem zeroMeas_evr : (zeroMeas s i).evr = s.evr := rfl
@[simp] theorem zeroMeas_sbx : (zeroMeas s i).sbx = s.sbx := rfl
@[simp] theorem zeroMeas_stn : (zeroMeas s i).stn = s.stn := rfl
@[simp] theorem zeroMeas_cfg : (zeroMeas s i).cfg = s.cfg := rfl
@[simp] theorem zeroMeas_fab : (zeroMeas s i).fab = s.fab := rfl
@[simp] theorem zeroMeas_pwr : (zeroMeas s i).pwr = s.pwr := rfl
@[simp] theorem zeroMeas_lmem : (zeroMeas s i).lmem = s.lmem := rfl
@[simp] theorem zeroMeas_key : (zeroMeas s i).key = s.key := rfl
@[simp] theorem zeroMeas_host : (zeroMeas s i).host = s.host := rfl
@[simp] theorem zeroMeas_cores : (zeroMeas s i).cores = s.cores := rfl
@[simp] theorem zeroMeas_dram : (zeroMeas s i).dram = s.dram := rfl
@[simp] theorem zeroMeas_ten : (zeroMeas s i).ten = s.ten := rfl
@[simp] theorem zeroMeas_boot : (zeroMeas s i).boot = s.boot := rfl
@[simp] theorem zeroMeas_upd : (zeroMeas s i).upd = s.upd := rfl
@[simp] theorem zeroMeas_tst : (zeroMeas s i).tst = s.tst := rfl
@[simp] theorem zeroMeas_dgt : (zeroMeas s i).dgt = s.dgt := rfl
@[simp] theorem zeroMeas_asu : (zeroMeas s i).asu = s.asu := rfl
@[simp] theorem zeroMeas_fch : (zeroMeas s i).fch = s.fch := rfl
@[simp] theorem zeroMeas_ftl : (zeroMeas s i).ftl = s.ftl := rfl
@[simp] theorem zeroMeas_drc : (zeroMeas s i).drc = s.drc := rfl
@[simp] theorem zeroMeas_hif : (zeroMeas s i).hif = s.hif := rfl
@[simp] theorem zeroMeas_jct : (zeroMeas s i).jct = s.jct := rfl
end

/-! `respond` changes `tru` only. -/

section
variable (s : State) (fn : Nat) (session : Option Nat) (code : Nat) (data : Bytes)
@[simp] theorem respond_pending : (respond s fn session code data).pending = s.pending := rfl
@[simp] theorem respond_now : (respond s fn session code data).now = s.now := rfl
@[simp] theorem respond_freeCount : (respond s fn session code data).freeCount = s.freeCount := rfl
@[simp] theorem respond_dev : (respond s fn session code data).dev = s.dev := rfl
@[simp] theorem respond_regs : (respond s fn session code data).regs = s.regs := rfl
@[simp] theorem respond_evr : (respond s fn session code data).evr = s.evr := rfl
@[simp] theorem respond_sbx : (respond s fn session code data).sbx = s.sbx := rfl
@[simp] theorem respond_stn : (respond s fn session code data).stn = s.stn := rfl
@[simp] theorem respond_cfg : (respond s fn session code data).cfg = s.cfg := rfl
@[simp] theorem respond_fab : (respond s fn session code data).fab = s.fab := rfl
@[simp] theorem respond_pwr : (respond s fn session code data).pwr = s.pwr := rfl
@[simp] theorem respond_lmem : (respond s fn session code data).lmem = s.lmem := rfl
@[simp] theorem respond_key : (respond s fn session code data).key = s.key := rfl
@[simp] theorem respond_host : (respond s fn session code data).host = s.host := rfl
@[simp] theorem respond_cores : (respond s fn session code data).cores = s.cores := rfl
@[simp] theorem respond_dram : (respond s fn session code data).dram = s.dram := rfl
@[simp] theorem respond_ten : (respond s fn session code data).ten = s.ten := rfl
@[simp] theorem respond_boot : (respond s fn session code data).boot = s.boot := rfl
@[simp] theorem respond_upd : (respond s fn session code data).upd = s.upd := rfl
@[simp] theorem respond_tst : (respond s fn session code data).tst = s.tst := rfl
@[simp] theorem respond_dgt : (respond s fn session code data).dgt = s.dgt := rfl
@[simp] theorem respond_asu : (respond s fn session code data).asu = s.asu := rfl
@[simp] theorem respond_fch : (respond s fn session code data).fch = s.fch := rfl
@[simp] theorem respond_ftl : (respond s fn session code data).ftl = s.ftl := rfl
@[simp] theorem respond_drc : (respond s fn session code data).drc = s.drc := rfl
@[simp] theorem respond_hif : (respond s fn session code data).hif = s.hif := rfl
@[simp] theorem respond_jct : (respond s fn session code data).jct = s.jct := rfl
end

/-! `respondErr` changes `tru` only. -/

section
variable (s : State) (fn : Nat) (err : Nat)
@[simp] theorem respondErr_pending : (respondErr s fn err).pending = s.pending := rfl
@[simp] theorem respondErr_now : (respondErr s fn err).now = s.now := rfl
@[simp] theorem respondErr_freeCount : (respondErr s fn err).freeCount = s.freeCount := rfl
@[simp] theorem respondErr_dev : (respondErr s fn err).dev = s.dev := rfl
@[simp] theorem respondErr_regs : (respondErr s fn err).regs = s.regs := rfl
@[simp] theorem respondErr_evr : (respondErr s fn err).evr = s.evr := rfl
@[simp] theorem respondErr_sbx : (respondErr s fn err).sbx = s.sbx := rfl
@[simp] theorem respondErr_stn : (respondErr s fn err).stn = s.stn := rfl
@[simp] theorem respondErr_cfg : (respondErr s fn err).cfg = s.cfg := rfl
@[simp] theorem respondErr_fab : (respondErr s fn err).fab = s.fab := rfl
@[simp] theorem respondErr_pwr : (respondErr s fn err).pwr = s.pwr := rfl
@[simp] theorem respondErr_lmem : (respondErr s fn err).lmem = s.lmem := rfl
@[simp] theorem respondErr_key : (respondErr s fn err).key = s.key := rfl
@[simp] theorem respondErr_host : (respondErr s fn err).host = s.host := rfl
@[simp] theorem respondErr_cores : (respondErr s fn err).cores = s.cores := rfl
@[simp] theorem respondErr_dram : (respondErr s fn err).dram = s.dram := rfl
@[simp] theorem respondErr_ten : (respondErr s fn err).ten = s.ten := rfl
@[simp] theorem respondErr_boot : (respondErr s fn err).boot = s.boot := rfl
@[simp] theorem respondErr_upd : (respondErr s fn err).upd = s.upd := rfl
@[simp] theorem respondErr_tst : (respondErr s fn err).tst = s.tst := rfl
@[simp] theorem respondErr_dgt : (respondErr s fn err).dgt = s.dgt := rfl
@[simp] theorem respondErr_asu : (respondErr s fn err).asu = s.asu := rfl
@[simp] theorem respondErr_fch : (respondErr s fn err).fch = s.fch := rfl
@[simp] theorem respondErr_ftl : (respondErr s fn err).ftl = s.ftl := rfl
@[simp] theorem respondErr_drc : (respondErr s fn err).drc = s.drc := rfl
@[simp] theorem respondErr_hif : (respondErr s fn err).hif = s.hif := rfl
@[simp] theorem respondErr_jct : (respondErr s fn err).jct = s.jct := rfl
end

/-! `toRom` changes `boot` only. -/

section
variable (s : State) (kind cause : Nat)
@[simp] theorem toRom_pending : (toRom s kind cause).pending = s.pending := rfl
@[simp] theorem toRom_now : (toRom s kind cause).now = s.now := rfl
@[simp] theorem toRom_freeCount : (toRom s kind cause).freeCount = s.freeCount := rfl
@[simp] theorem toRom_dev : (toRom s kind cause).dev = s.dev := rfl
@[simp] theorem toRom_regs : (toRom s kind cause).regs = s.regs := rfl
@[simp] theorem toRom_evr : (toRom s kind cause).evr = s.evr := rfl
@[simp] theorem toRom_sbx : (toRom s kind cause).sbx = s.sbx := rfl
@[simp] theorem toRom_stn : (toRom s kind cause).stn = s.stn := rfl
@[simp] theorem toRom_cfg : (toRom s kind cause).cfg = s.cfg := rfl
@[simp] theorem toRom_fab : (toRom s kind cause).fab = s.fab := rfl
@[simp] theorem toRom_pwr : (toRom s kind cause).pwr = s.pwr := rfl
@[simp] theorem toRom_lmem : (toRom s kind cause).lmem = s.lmem := rfl
@[simp] theorem toRom_key : (toRom s kind cause).key = s.key := rfl
@[simp] theorem toRom_host : (toRom s kind cause).host = s.host := rfl
@[simp] theorem toRom_cores : (toRom s kind cause).cores = s.cores := rfl
@[simp] theorem toRom_dram : (toRom s kind cause).dram = s.dram := rfl
@[simp] theorem toRom_ten : (toRom s kind cause).ten = s.ten := rfl
@[simp] theorem toRom_upd : (toRom s kind cause).upd = s.upd := rfl
@[simp] theorem toRom_tst : (toRom s kind cause).tst = s.tst := rfl
@[simp] theorem toRom_tru : (toRom s kind cause).tru = s.tru := rfl
@[simp] theorem toRom_dgt : (toRom s kind cause).dgt = s.dgt := rfl
@[simp] theorem toRom_asu : (toRom s kind cause).asu = s.asu := rfl
@[simp] theorem toRom_fch : (toRom s kind cause).fch = s.fch := rfl
@[simp] theorem toRom_ftl : (toRom s kind cause).ftl = s.ftl := rfl
@[simp] theorem toRom_drc : (toRom s kind cause).drc = s.drc := rfl
@[simp] theorem toRom_hif : (toRom s kind cause).hif = s.hif := rfl
@[simp] theorem toRom_jct : (toRom s kind cause).jct = s.jct := rfl
end

/-! `cancelInjections` changes `tst` only. -/

section
variable (s : State)
@[simp] theorem cancelInjections_pending : (cancelInjections s).pending = s.pending := rfl
@[simp] theorem cancelInjections_now : (cancelInjections s).now = s.now := rfl
@[simp] theorem cancelInjections_freeCount : (cancelInjections s).freeCount = s.freeCount := rfl
@[simp] theorem cancelInjections_dev : (cancelInjections s).dev = s.dev := rfl
@[simp] theorem cancelInjections_regs : (cancelInjections s).regs = s.regs := rfl
@[simp] theorem cancelInjections_evr : (cancelInjections s).evr = s.evr := rfl
@[simp] theorem cancelInjections_sbx : (cancelInjections s).sbx = s.sbx := rfl
@[simp] theorem cancelInjections_stn : (cancelInjections s).stn = s.stn := rfl
@[simp] theorem cancelInjections_cfg : (cancelInjections s).cfg = s.cfg := rfl
@[simp] theorem cancelInjections_fab : (cancelInjections s).fab = s.fab := rfl
@[simp] theorem cancelInjections_pwr : (cancelInjections s).pwr = s.pwr := rfl
@[simp] theorem cancelInjections_lmem : (cancelInjections s).lmem = s.lmem := rfl
@[simp] theorem cancelInjections_key : (cancelInjections s).key = s.key := rfl
@[simp] theorem cancelInjections_host : (cancelInjections s).host = s.host := rfl
@[simp] theorem cancelInjections_cores : (cancelInjections s).cores = s.cores := rfl
@[simp] theorem cancelInjections_dram : (cancelInjections s).dram = s.dram := rfl
@[simp] theorem cancelInjections_ten : (cancelInjections s).ten = s.ten := rfl
@[simp] theorem cancelInjections_boot : (cancelInjections s).boot = s.boot := rfl
@[simp] theorem cancelInjections_upd : (cancelInjections s).upd = s.upd := rfl
@[simp] theorem cancelInjections_tru : (cancelInjections s).tru = s.tru := rfl
@[simp] theorem cancelInjections_dgt : (cancelInjections s).dgt = s.dgt := rfl
@[simp] theorem cancelInjections_asu : (cancelInjections s).asu = s.asu := rfl
@[simp] theorem cancelInjections_fch : (cancelInjections s).fch = s.fch := rfl
@[simp] theorem cancelInjections_ftl : (cancelInjections s).ftl = s.ftl := rfl
@[simp] theorem cancelInjections_drc : (cancelInjections s).drc = s.drc := rfl
@[simp] theorem cancelInjections_hif : (cancelInjections s).hif = s.hif := rfl
@[simp] theorem cancelInjections_jct : (cancelInjections s).jct = s.jct := rfl
end

/-! `flushMirror` changes `evr` only. -/

section
variable (s : State)
@[simp] theorem flushMirror_pending : (flushMirror s).pending = s.pending := rfl
@[simp] theorem flushMirror_now : (flushMirror s).now = s.now := rfl
@[simp] theorem flushMirror_freeCount : (flushMirror s).freeCount = s.freeCount := rfl
@[simp] theorem flushMirror_dev : (flushMirror s).dev = s.dev := rfl
@[simp] theorem flushMirror_regs : (flushMirror s).regs = s.regs := rfl
@[simp] theorem flushMirror_sbx : (flushMirror s).sbx = s.sbx := rfl
@[simp] theorem flushMirror_stn : (flushMirror s).stn = s.stn := rfl
@[simp] theorem flushMirror_cfg : (flushMirror s).cfg = s.cfg := rfl
@[simp] theorem flushMirror_fab : (flushMirror s).fab = s.fab := rfl
@[simp] theorem flushMirror_pwr : (flushMirror s).pwr = s.pwr := rfl
@[simp] theorem flushMirror_lmem : (flushMirror s).lmem = s.lmem := rfl
@[simp] theorem flushMirror_key : (flushMirror s).key = s.key := rfl
@[simp] theorem flushMirror_host : (flushMirror s).host = s.host := rfl
@[simp] theorem flushMirror_cores : (flushMirror s).cores = s.cores := rfl
@[simp] theorem flushMirror_dram : (flushMirror s).dram = s.dram := rfl
@[simp] theorem flushMirror_ten : (flushMirror s).ten = s.ten := rfl
@[simp] theorem flushMirror_boot : (flushMirror s).boot = s.boot := rfl
@[simp] theorem flushMirror_upd : (flushMirror s).upd = s.upd := rfl
@[simp] theorem flushMirror_tst : (flushMirror s).tst = s.tst := rfl
@[simp] theorem flushMirror_tru : (flushMirror s).tru = s.tru := rfl
@[simp] theorem flushMirror_dgt : (flushMirror s).dgt = s.dgt := rfl
@[simp] theorem flushMirror_asu : (flushMirror s).asu = s.asu := rfl
@[simp] theorem flushMirror_fch : (flushMirror s).fch = s.fch := rfl
@[simp] theorem flushMirror_ftl : (flushMirror s).ftl = s.ftl := rfl
@[simp] theorem flushMirror_drc : (flushMirror s).drc = s.drc := rfl
@[simp] theorem flushMirror_hif : (flushMirror s).hif = s.hif := rfl
@[simp] theorem flushMirror_jct : (flushMirror s).jct = s.jct := rfl
end

end Sys2Proof.Machine
end

