-- ==== Sys2Proof/Laws/Access.lean ====
section
/-! SUPPORT. Reading back what an update put: each unit, core, fen, instance, controller, channel, slot, queue, ticket and
register field, and that the accessors read one field of the state only. -/

namespace Sys2Proof.Machine

open Sys2Proof

/-- `unitOf` reads `dev` only. -/
theorem unitOf_congr {s t : State} (h : t.dev = s.dev) (n : Nat) : unitOf t n = unitOf s n := by simp only [unitOf, h]

/-- What `setUnit` put is read back, and every other number reads as before. -/
theorem unitOf_setUnit (s : State) (n n' : Nat) (x : UnitRec) : unitOf (setUnit s n x) n' = if n' = n then x else unitOf s n' := by
  simp only [unitOf, setUnit]; exact Tab.getD_set _ _ _ _ _

@[simp] theorem unitOf_setUnit_same (s : State) (n : Nat) (x : UnitRec) : unitOf (setUnit s n x) n = x := by simp [unitOf_setUnit]

theorem unitOf_setUnit_other (s : State) {n n' : Nat} (x : UnitRec) (h : n' ≠ n) : unitOf (setUnit s n x) n' = unitOf s n' := by
  simp [unitOf_setUnit, h]

/-- `coreOf` reads `cores` only. -/
theorem coreOf_congr {s t : State} (h : t.cores = s.cores) (c : Nat) : coreOf t c = coreOf s c := by simp only [coreOf, h]

/-- What `setCore` put is read back, and every other number reads as before. -/
theorem coreOf_setCore (s : State) (c c' : Nat) (x : Core) : coreOf (setCore s c x) c' = if c' = c then x else coreOf s c' := by
  simp only [coreOf, setCore]; exact Tab.getD_set _ _ _ _ _

@[simp] theorem coreOf_setCore_same (s : State) (c : Nat) (x : Core) : coreOf (setCore s c x) c = x := by simp [coreOf_setCore]

theorem coreOf_setCore_other (s : State) {c c' : Nat} (x : Core) (h : c' ≠ c) : coreOf (setCore s c x) c' = coreOf s c' := by
  simp [coreOf_setCore, h]

/-- `fenOf` reads `fab` only. -/
theorem fenOf_congr {s t : State} (h : t.fab = s.fab) (f : Nat) : fenOf t f = fenOf s f := by simp only [fenOf, h]

/-- What `setFen` put is read back, and every other number reads as before. -/
theorem fenOf_setFen (s : State) (f f' : Nat) (x : Fen) : fenOf (setFen s f x) f' = if f' = f then x else fenOf s f' := by
  simp only [fenOf, setFen]; exact Tab.getD_set _ _ _ _ _

@[simp] theorem fenOf_setFen_same (s : State) (f : Nat) (x : Fen) : fenOf (setFen s f x) f = x := by simp [fenOf_setFen]

theorem fenOf_setFen_other (s : State) {f f' : Nat} (x : Fen) (h : f' ≠ f) : fenOf (setFen s f x) f' = fenOf s f' := by
  simp [fenOf_setFen, h]

/-- `instOf` reads `ten` only. -/
theorem instOf_congr {s t : State} (h : t.ten = s.ten) (i : Nat) : instOf t i = instOf s i := by simp only [instOf, h]

/-- What `setInst` put is read back, and every other number reads as before. -/
theorem instOf_setInst (s : State) (i i' : Nat) (x : Inst) : instOf (setInst s i x) i' = if i' = i then x else instOf s i' := by
  simp only [instOf, setInst]; exact Tab.getD_set _ _ _ _ _

@[simp] theorem instOf_setInst_same (s : State) (i : Nat) (x : Inst) : instOf (setInst s i x) i = x := by simp [instOf_setInst]

theorem instOf_setInst_other (s : State) {i i' : Nat} (x : Inst) (h : i' ≠ i) : instOf (setInst s i x) i' = instOf s i' := by
  simp [instOf_setInst, h]

/-- `ctrlOf` reads `hif` only. -/
theorem ctrlOf_congr {s t : State} (h : t.hif = s.hif) (c : Nat) : ctrlOf t c = ctrlOf s c := by simp only [ctrlOf, h]

/-- What `setCtrl` put is read back, and every other number reads as before. -/
theorem ctrlOf_setCtrl (s : State) (c c' : Nat) (x : NCtrl) : ctrlOf (setCtrl s c x) c' = if c' = c then x else ctrlOf s c' := by
  simp only [ctrlOf, setCtrl]; exact Tab.getD_set _ _ _ _ _

@[simp] theorem ctrlOf_setCtrl_same (s : State) (c : Nat) (x : NCtrl) : ctrlOf (setCtrl s c x) c = x := by simp [ctrlOf_setCtrl]

theorem ctrlOf_setCtrl_other (s : State) {c c' : Nat} (x : NCtrl) (h : c' ≠ c) : ctrlOf (setCtrl s c x) c' = ctrlOf s c' := by
  simp [ctrlOf_setCtrl, h]

/-- `linkOf` reads `hif` only. -/
theorem linkOf_congr {s t : State} (h : t.hif = s.hif) (p : Nat) : linkOf t p = linkOf s p := by simp only [linkOf, h]

/-- What `setLink` put is read back, and every other number reads as before. -/
theorem linkOf_setLink (s : State) (p p' : Nat) (x : Link) : linkOf (setLink s p x) p' = if p' = p then x else linkOf s p' := by
  simp only [linkOf, setLink]; exact Tab.getD_set _ _ _ _ _

@[simp] theorem linkOf_setLink_same (s : State) (p : Nat) (x : Link) : linkOf (setLink s p x) p = x := by simp [linkOf_setLink]

theorem linkOf_setLink_other (s : State) {p p' : Nat} (x : Link) (h : p' ≠ p) : linkOf (setLink s p x) p' = linkOf s p' := by
  simp [linkOf_setLink, h]

/-- `chanOf` reads `fch` only. -/
theorem chanOf_congr {s t : State} (h : t.fch = s.fch) (k : Nat) : chanOf t k = chanOf s k := by simp only [chanOf, h]

/-- What `setChan` put is read back, and every other number reads as before. -/
theorem chanOf_setChan (s : State) (k k' : Nat) (x : FChan) : chanOf (setChan s k x) k' = if k' = k then x else chanOf s k' := by
  simp only [chanOf, setChan]; exact Tab.getD_set _ _ _ _ _

@[simp] theorem chanOf_setChan_same (s : State) (k : Nat) (x : FChan) : chanOf (setChan s k x) k = x := by simp [chanOf_setChan]

theorem chanOf_setChan_other (s : State) {k k' : Nat} (x : FChan) (h : k' ≠ k) : chanOf (setChan s k x) k' = chanOf s k' := by
  simp [chanOf_setChan, h]

/-- `dramOf` reads `drc` only. -/
theorem dramOf_congr {s t : State} (h : t.drc = s.drc) (c : Nat) : dramOf t c = dramOf s c := by simp only [dramOf, h]

/-- What `setDram` put is read back, and every other number reads as before. -/
theorem dramOf_setDram (s : State) (c c' : Nat) (x : DChan) : dramOf (setDram s c x) c' = if c' = c then x else dramOf s c' := by
  simp only [dramOf, setDram]; exact Tab.getD_set _ _ _ _ _

@[simp] theorem dramOf_setDram_same (s : State) (c : Nat) (x : DChan) : dramOf (setDram s c x) c = x := by simp [dramOf_setDram]

theorem dramOf_setDram_other (s : State) {c c' : Nat} (x : DChan) (h : c' ≠ c) : dramOf (setDram s c x) c' = dramOf s c' := by
  simp [dramOf_setDram, h]

/-- `bgOf` reads `ftl` only. -/
theorem bgOf_congr {s t : State} (h : t.ftl = s.ftl) (g : Nat) : bgOf t g = bgOf s g := by simp only [bgOf, h]

/-- What `setBg` put is read back, and every other number reads as before. -/
theorem bgOf_setBg (s : State) (g g' : Nat) (x : BGroup) : bgOf (setBg s g x) g' = if g' = g then x else bgOf s g' := by
  simp only [bgOf, setBg]; exact Tab.getD_set _ _ _ _ _

@[simp] theorem bgOf_setBg_same (s : State) (g : Nat) (x : BGroup) : bgOf (setBg s g x) g = x := by simp [bgOf_setBg]

theorem bgOf_setBg_other (s : State) {g g' : Nat} (x : BGroup) (h : g' ≠ g) : bgOf (setBg s g x) g' = bgOf s g' := by
  simp [bgOf_setBg, h]

/-- `bankOf` reads `asu` only. -/
theorem bankOf_congr {s t : State} (h : t.asu = s.asu) (b : Nat) : bankOf t b = bankOf s b := by simp only [bankOf, h]

/-- What `setBank` put is read back, and every other number reads as before. -/
theorem bankOf_setBank (s : State) (b b' : Nat) (x : Bank) : bankOf (setBank s b x) b' = if b' = b then x else bankOf s b' := by
  simp only [bankOf, setBank]; exact Tab.getD_put _ _ _ _ _

@[simp] theorem bankOf_setBank_same (s : State) (b : Nat) (x : Bank) : bankOf (setBank s b x) b = x := by simp [bankOf_setBank]

theorem bankOf_setBank_other (s : State) {b b' : Nat} (x : Bank) (h : b' ≠ b) : bankOf (setBank s b x) b' = bankOf s b' := by
  simp [bankOf_setBank, h]

/-- `feedOf` reads `dgt` only. -/
theorem feedOf_congr {s t : State} (h : t.dgt = s.dgt) (i : Nat) : feedOf t i = feedOf s i := by simp only [feedOf, h]

/-- What `setFeed` put is read back, and every other number reads as before. -/
theorem feedOf_setFeed (s : State) (i i' : Nat) (x : Feed) : feedOf (setFeed s i x) i' = if i' = i then x else feedOf s i' := by
  simp only [feedOf, setFeed]; exact Tab.getD_put _ _ _ _ _

@[simp] theorem feedOf_setFeed_same (s : State) (i : Nat) (x : Feed) : feedOf (setFeed s i x) i = x := by simp [feedOf_setFeed]

theorem feedOf_setFeed_other (s : State) {i i' : Nat} (x : Feed) (h : i' ≠ i) : feedOf (setFeed s i x) i' = feedOf s i' := by
  simp [feedOf_setFeed, h]

/-- `slotOf` reads `key` only. -/
theorem slotOf_congr {s t : State} (h : t.key = s.key) (n : Nat) : slotOf t n = slotOf s n := by simp only [slotOf, h]

/-- What `setSlot` put is read back, and every other number reads as before. -/
theorem slotOf_setSlot (s : State) (n n' : Nat) (x : KeySlot) : slotOf (setSlot s n x) n' = if n' = n then x else slotOf s n' := by
  simp only [slotOf, setSlot]; exact Tab.getD_put _ _ _ _ _

@[simp] theorem slotOf_setSlot_same (s : State) (n : Nat) (x : KeySlot) : slotOf (setSlot s n x) n = x := by simp [slotOf_setSlot]

theorem slotOf_setSlot_other (s : State) {n n' : Nat} (x : KeySlot) (h : n' ≠ n) : slotOf (setSlot s n x) n' = slotOf s n' := by
  simp [slotOf_setSlot, h]

/-- `islandAt` reads `pwr` only. -/
theorem islandAt_congr {s t : State} (h : t.pwr = s.pwr) (k : Nat) : islandAt t k = islandAt s k := by simp only [islandAt, h]

/-- What `setIsland` put is read back, and every other number reads as before. -/
theorem islandAt_setIsland (s : State) (k k' : Nat) (x : Island) : islandAt (setIsland s k x) k' = if k' = k then x else islandAt s k' := by
  simp only [islandAt, setIsland]; exact Tab.getD_set _ _ _ _ _

@[simp] theorem islandAt_setIsland_same (s : State) (k : Nat) (x : Island) : islandAt (setIsland s k x) k = x := by simp [islandAt_setIsland]

theorem islandAt_setIsland_other (s : State) {k k' : Nat} (x : Island) (h : k' ≠ k) : islandAt (setIsland s k x) k' = islandAt s k' := by
  simp [islandAt_setIsland, h]

/-- `groupAt` reads `regs` only. -/
theorem groupAt_congr {s t : State} (h : t.regs = s.regs) (c : Nat) : groupAt t c = groupAt s c := by simp only [groupAt, h]

/-- What `setGroup` put is read back, and every other number reads as before. -/
theorem groupAt_setGroup (s : State) (c c' : Nat) (x : Group) : groupAt (setGroup s c x) c' = if c' = c then x else groupAt s c' := by
  simp only [groupAt, setGroup]; exact Tab.getD_put _ _ _ _ _

@[simp] theorem groupAt_setGroup_same (s : State) (c : Nat) (x : Group) : groupAt (setGroup s c x) c = x := by simp [groupAt_setGroup]

theorem groupAt_setGroup_other (s : State) {c c' : Nat} (x : Group) (h : c' ≠ c) : groupAt (setGroup s c x) c' = groupAt s c' := by
  simp [groupAt_setGroup, h]

/-- `inboxOf` reads `stn` only. -/
theorem inboxOf_congr {s t : State} (h : t.stn = s.stn) (u : Nat) : inboxOf t u = inboxOf s u := by simp only [inboxOf, h]

/-- What `setInbox` put is read back, and every other number reads as before. -/
theorem inboxOf_setInbox (s : State) (u u' : Nat) (x : List Work) : inboxOf (setInbox s u x) u' = if u' = u then x else inboxOf s u' := by
  simp only [inboxOf, setInbox]; exact Tab.getD_put _ _ _ _ _

@[simp] theorem inboxOf_setInbox_same (s : State) (u : Nat) (x : List Work) : inboxOf (setInbox s u x) u = x := by simp [inboxOf_setInbox]

theorem inboxOf_setInbox_other (s : State) {u u' : Nat} (x : List Work) (h : u' ≠ u) : inboxOf (setInbox s u x) u' = inboxOf s u' := by
  simp [inboxOf_setInbox, h]

/-! ## Tickets and contexts -/

theorem entryOf_congr {s t : State} (h : t.sbx = s.sbx) (tag : Nat) : entryOf t tag = entryOf s tag := by simp only [entryOf, h]

theorem entryOf_setEntry (s : State) (tag tag' : Nat) (e : Entry) :
    entryOf (setEntry s tag e) tag' = if tag' = tag then some e else entryOf s tag' := Tab.get?_set _ _ _ _

@[simp] theorem entryOf_setEntry_same (s : State) (tag : Nat) (e : Entry) : entryOf (setEntry s tag e) tag = some e := by
  simp [entryOf_setEntry]

/-- `modEntry` changes the ticket's entry, if it is there, and no other. -/
theorem entryOf_modEntry (s : State) (tag tag' : Nat) (f : Entry → Entry) :
    entryOf (modEntry s tag f) tag' = if tag' = tag then (entryOf s tag).map f else entryOf s tag' := by
  unfold modEntry
  cases h : entryOf s tag with
  | none => by_cases e : tag' = tag <;> simp [e, h]
  | some x => simp [entryOf_setEntry]

/-- `modEntry` changes the ticket store only. -/
theorem modEntry_eq (s : State) (tag : Nat) (f : Entry → Entry) :
    ∃ x, modEntry s tag f = { s with sbx := { s.sbx with store := x } } := by
  unfold modEntry
  split
  · exact ⟨_, rfl⟩
  · exact ⟨s.sbx.store, rfl⟩

theorem ctxOf_congr {s t : State} (h : t.stn = s.stn) (tag j : Nat) : ctxOf t tag j = ctxOf s tag j := by
  simp only [ctxOf, h]

@[simp] theorem ctxOf_setCtx_same (s : State) (tag j : Nat) (c : Ctx) : ctxOf (setCtx s tag j c) tag j = c :=
  Tab.getD_put_same _ _ _ _

theorem ctxOf_setCtx_other (s : State) {tag j tag' j' : Nat} (c : Ctx) (h : tag' * 16 + j' ≠ tag * 16 + j) :
    ctxOf (setCtx s tag j c) tag' j' = ctxOf s tag' j' := Tab.getD_put_other _ _ _ h

@[simp] theorem inboxOf_setCtx (s : State) (tag j : Nat) (c : Ctx) (u : Nat) : inboxOf (setCtx s tag j c) u = inboxOf s u := rfl

@[simp] theorem ctxOf_setInbox (s : State) (u : Nat) (l : List Work) (tag j : Nat) :
    ctxOf (setInbox s u l) tag j = ctxOf s tag j := rfl

theorem stepsOf_congr {s t : State} (h : t.cfg = s.cfg) (e : Entry) : stepsOf t e = stepsOf s e := by
  simp only [stepsOf, lineOf, h]

/-! ## Registers -/

theorem effWord_congr {s t : State} (h : t.regs = s.regs) (a : Nat) : effWord t a = effWord s a := by simp only [effWord, h]

theorem eff_congr {s t : State} (h : t.regs = s.regs) (a hi lo : Nat) : eff t a hi lo = eff s a hi lo := by
  simp only [eff, effWord, h]

theorem live_congr {s t : State} (h : t.regs = s.regs) (a hi lo : Nat) : live t a hi lo = live s a hi lo := by
  simp only [live, liveWord, h]

theorem liveWord_setLive (s : State) (a b hi lo v : Nat) :
    liveWord (setLive s a hi lo v) b = if b = a then setFld (liveWord s a) hi lo v else liveWord s b := by
  simp only [liveWord, setLive, Tab.get?_set]
  split <;> simp_all

@[simp] theorem effWord_setLive (s : State) (a b hi lo v : Nat) : effWord (setLive s a hi lo v) b = effWord s b := rfl

@[simp] theorem eff_setLive (s : State) (a b hi lo v h l : Nat) : eff (setLive s a hi lo v) b h l = eff s b h l := rfl

@[simp] theorem stagedWord_setLive (s : State) (a b hi lo v : Nat) : stagedWord (setLive s a hi lo v) b = stagedWord s b := rfl

@[simp] theorem groupAt_setLive (s : State) (a hi lo v c : Nat) : groupAt (setLive s a hi lo v) c = groupAt s c := rfl

@[simp] theorem eff_bump (s : State) (a b hi lo k h l : Nat) : eff (bump s a hi lo k) b h l = eff s b h l := rfl

/-- A field that was set reads as the value that was set, cut to the field. -/
theorem live_setLive_same (s : State) (a hi lo v : Nat) (h : lo ≤ hi) :
    live (setLive s a hi lo v) a hi lo = v % 2 ^ (hi - lo + 1) := by
  simp only [live, liveWord_setLive, if_pos]
  exact fld_setFld_same _ h v

/-- Setting a register leaves every other register. -/
theorem live_setLive_other (s : State) {a b : Nat} (hi lo v h l : Nat) (n : b ≠ a) :
    live (setLive s a hi lo v) b h l = live s b h l := by
  simp only [live, liveWord_setLive, if_neg n]

/-- Setting a field leaves the fields above and below it. -/
theorem live_setLive_apart (s : State) (a hi lo v : Nat) {h l : Nat} (hl : lo ≤ hi) (ol : l ≤ h) (n : h < lo ∨ hi < l) :
    live (setLive s a hi lo v) a h l = live s a h l := by
  simp only [live, liveWord_setLive, if_pos]
  exact fld_setFld_apart _ hl ol n v

/-- A saturating counter after it has counted `k`. -/
theorem live_bump_same (s : State) (a hi lo k : Nat) (h : lo ≤ hi) :
    live (bump s a hi lo k) a hi lo = satAdd (hi - lo + 1) (live s a hi lo) k := by
  unfold bump
  rw [live_setLive_same s a hi lo _ h, Nat.mod_eq_of_lt (satAdd_lt _ _ _)]

theorem live_bump_other (s : State) {a b : Nat} (hi lo k h l : Nat) (n : b ≠ a) :
    live (bump s a hi lo k) b h l = live s b h l := live_setLive_other s _ _ _ _ _ n

theorem effWord_setEff (s : State) (a b hi lo v : Nat) :
    effWord (setEff s a hi lo v) b = if b = a then setFld (effWord s a) hi lo v else effWord s b := by
  simp only [effWord, setEff, Tab.get?_set]
  split <;> simp_all

@[simp] theorem liveWord_setEff (s : State) (a b hi lo v : Nat) : liveWord (setEff s a hi lo v) b = liveWord s b := rfl

@[simp] theorem live_setEff (s : State) (a b hi lo v h l : Nat) : live (setEff s a hi lo v) b h l = live s b h l := rfl

@[simp] theorem effWord_setGroup (s : State) (c : Nat) (g : Group) (a : Nat) : effWord (setGroup s c g) a = effWord s a := rfl

@[simp] theorem stagedWord_setGroup (s : State) (c : Nat) (g : Group) (a : Nat) :
    stagedWord (setGroup s c g) a = stagedWord s a := rfl

@[simp] theorem liveWord_setGroup (s : State) (c : Nat) (g : Group) (a : Nat) : liveWord (setGroup s c g) a = liveWord s a := rfl

end Sys2Proof.Machine
end

