-- ==== Sys2Proof/Laws/Keeps.lean ====
section
/-! SUPPORT. `Keeps m s t`: of the parts of State, `t` differs from `s` at most in those whose bit is set in `m`. One such fact
for each operation says what it may touch; facts compose (`trans`, `mono`, `via`, `ite`, `foldl`), and a field whose bit
is clear is then equal (`Keeps.key` and so on). The bits, from 0: pending, now, freeCount, dev, regs, evr, sbx, stn, cfg, fab, pwr, lmem, key, host, cores, dram, ten, boot, upd, tst, tru, dgt, asu, fch, ftl, drc, hif, jct. -/

namespace Sys2Proof.Machine

/-- The state without the parts whose bit is set. -/
def blank (m : Nat) (s : State) : State where
  pending := bif m.testBit 0 then [] else s.pending
  now := bif m.testBit 1 then 0 else s.now
  freeCount := bif m.testBit 2 then 0 else s.freeCount
  dev := bif m.testBit 3 then {} else s.dev
  regs := bif m.testBit 4 then {} else s.regs
  evr := bif m.testBit 5 then {} else s.evr
  sbx := bif m.testBit 6 then {} else s.sbx
  stn := bif m.testBit 7 then {} else s.stn
  cfg := bif m.testBit 8 then {} else s.cfg
  fab := bif m.testBit 9 then {} else s.fab
  pwr := bif m.testBit 10 then {} else s.pwr
  lmem := bif m.testBit 11 then [] else s.lmem
  key := bif m.testBit 12 then {} else s.key
  host := bif m.testBit 13 then [] else s.host
  cores := bif m.testBit 14 then [] else s.cores
  dram := bif m.testBit 15 then [] else s.dram
  ten := bif m.testBit 16 then {} else s.ten
  boot := bif m.testBit 17 then {} else s.boot
  upd := bif m.testBit 18 then {} else s.upd
  tst := bif m.testBit 19 then {} else s.tst
  tru := bif m.testBit 20 then {} else s.tru
  dgt := bif m.testBit 21 then {} else s.dgt
  asu := bif m.testBit 22 then {} else s.asu
  fch := bif m.testBit 23 then {} else s.fch
  ftl := bif m.testBit 24 then {} else s.ftl
  drc := bif m.testBit 25 then {} else s.drc
  hif := bif m.testBit 26 then {} else s.hif
  jct := bif m.testBit 27 then {} else s.jct

/-- `t` differs from `s` at most in the parts whose bit is set in `m`. -/
def Keeps (m : Nat) (s t : State) : Prop := blank m t = blank m s

namespace Keeps

variable {m n : Nat} {s t u : State}

theorem refl (m : Nat) (s : State) : Keeps m s s := rfl

theorem trans (h : Keeps m s t) (k : Keeps m t u) : Keeps m s u := Eq.trans k h

theorem blank_blank (h : m ||| n = n) (s : State) : blank n (blank m s) = blank n s := by
  have hb : ∀ j, m.testBit j = true → n.testBit j = true := by
    intro j hj
    rw [← h, Nat.testBit_or, hj, Bool.true_or]
  have hc : ∀ {α : Type} (j : Nat) (d x : α),
      (bif n.testBit j then d else bif m.testBit j then d else x) = bif n.testBit j then d else x := by
    intro α j d x
    cases hn : n.testBit j with
    | true => rfl
    | false =>
      cases hm : m.testBit j with
      | true => rw [hb j hm] at hn; cases hn
      | false => rfl
  unfold blank
  simp only [hc]

theorem mono (h : Keeps m s t) (hm : m ||| n = n) : Keeps n s t := by
  unfold Keeps at *
  rw [← blank_blank hm t, ← blank_blank hm s, h]

/-- After an operation that keeps `m`, from a state reached by keeping `n`. -/
theorem via (k : Keeps m t u) (hm : m ||| n = n) (h : Keeps n s t) : Keeps n s u := h.trans (k.mono hm)

theorem ite {c : Prop} [Decidable c] (h : Keeps m s t) (k : Keeps m s u) : Keeps m s (if c then t else u) := by
  split <;> assumption

theorem foldl {α : Type} {f : State → α → State} {l : List α} (hf : ∀ x a, Keeps m x (f x a)) :
    ∀ {t : State}, Keeps m s t → Keeps m s (l.foldl f t) := by
  induction l with
  | nil => exact fun h => h
  | cons a l ih => exact fun h => ih (h.trans (hf _ _))

theorem pending (h : Keeps m s t) (hm : m.testBit 0 = false) : t.pending = s.pending := by
  have k := congrArg State.pending h
  simpa only [blank, hm, cond_false] using k

theorem put_pending (h : Keeps m s t) (hm : m.testBit 0 = true) (v) : Keeps m s { t with pending := v } := by
  refine Eq.trans ?_ h
  simp only [blank, hm, cond_true]

theorem now (h : Keeps m s t) (hm : m.testBit 1 = false) : t.now = s.now := by
  have k := congrArg State.now h
  simpa only [blank, hm, cond_false] using k

theorem put_now (h : Keeps m s t) (hm : m.testBit 1 = true) (v) : Keeps m s { t with now := v } := by
  refine Eq.trans ?_ h
  simp only [blank, hm, cond_true]

theorem freeCount (h : Keeps m s t) (hm : m.testBit 2 = false) : t.freeCount = s.freeCount := by
  have k := congrArg State.freeCount h
  simpa only [blank, hm, cond_false] using k

theorem put_freeCount (h : Keeps m s t) (hm : m.testBit 2 = true) (v) : Keeps m s { t with freeCount := v } := by
  refine Eq.trans ?_ h
  simp only [blank, hm, cond_true]

theorem dev (h : Keeps m s t) (hm : m.testBit 3 = false) : t.dev = s.dev := by
  have k := congrArg State.dev h
  simpa only [blank, hm, cond_false] using k

theorem put_dev (h : Keeps m s t) (hm : m.testBit 3 = true) (v) : Keeps m s { t with dev := v } := by
  refine Eq.trans ?_ h
  simp only [blank, hm, cond_true]

theorem regs (h : Keeps m s t) (hm : m.testBit 4 = false) : t.regs = s.regs := by
  have k := congrArg State.regs h
  simpa only [blank, hm, cond_false] using k

theorem put_regs (h : Keeps m s t) (hm : m.testBit 4 = true) (v) : Keeps m s { t with regs := v } := by
  refine Eq.trans ?_ h
  simp only [blank, hm, cond_true]

theorem evr (h : Keeps m s t) (hm : m.testBit 5 = false) : t.evr = s.evr := by
  have k := congrArg State.evr h
  simpa only [blank, hm, cond_false] using k

theorem put_evr (h : Keeps m s t) (hm : m.testBit 5 = true) (v) : Keeps m s { t with evr := v } := by
  refine Eq.trans ?_ h
  simp only [blank, hm, cond_true]

theorem sbx (h : Keeps m s t) (hm : m.testBit 6 = false) : t.sbx = s.sbx := by
  have k := congrArg State.sbx h
  simpa only [blank, hm, cond_false] using k

theorem put_sbx (h : Keeps m s t) (hm : m.testBit 6 = true) (v) : Keeps m s { t with sbx := v } := by
  refine Eq.trans ?_ h
  simp only [blank, hm, cond_true]

theorem stn (h : Keeps m s t) (hm : m.testBit 7 = false) : t.stn = s.stn := by
  have k := congrArg State.stn h
  simpa only [blank, hm, cond_false] using k

theorem put_stn (h : Keeps m s t) (hm : m.testBit 7 = true) (v) : Keeps m s { t with stn := v } := by
  refine Eq.trans ?_ h
  simp only [blank, hm, cond_true]

theorem cfg (h : Keeps m s t) (hm : m.testBit 8 = false) : t.cfg = s.cfg := by
  have k := congrArg State.cfg h
  simpa only [blank, hm, cond_false] using k

theorem put_cfg (h : Keeps m s t) (hm : m.testBit 8 = true) (v) : Keeps m s { t with cfg := v } := by
  refine Eq.trans ?_ h
  simp only [blank, hm, cond_true]

theorem fab (h : Keeps m s t) (hm : m.testBit 9 = false) : t.fab = s.fab := by
  have k := congrArg State.fab h
  simpa only [blank, hm, cond_false] using k

theorem put_fab (h : Keeps m s t) (hm : m.testBit 9 = true) (v) : Keeps m s { t with fab := v } := by
  refine Eq.trans ?_ h
  simp only [blank, hm, cond_true]

theorem pwr (h : Keeps m s t) (hm : m.testBit 10 = false) : t.pwr = s.pwr := by
  have k := congrArg State.pwr h
  simpa only [blank, hm, cond_false] using k

theorem put_pwr (h : Keeps m s t) (hm : m.testBit 10 = true) (v) : Keeps m s { t with pwr := v } := by
  refine Eq.trans ?_ h
  simp only [blank, hm, cond_true]

theorem lmem (h : Keeps m s t) (hm : m.testBit 11 = false) : t.lmem = s.lmem := by
  have k := congrArg State.lmem h
  simpa only [blank, hm, cond_false] using k

theorem put_lmem (h : Keeps m s t) (hm : m.testBit 11 = true) (v) : Keeps m s { t with lmem := v } := by
  refine Eq.trans ?_ h
  simp only [blank, hm, cond_true]

theorem key (h : Keeps m s t) (hm : m.testBit 12 = false) : t.key = s.key := by
  have k := congrArg State.key h
  simpa only [blank, hm, cond_false] using k

theorem put_key (h : Keeps m s t) (hm : m.testBit 12 = true) (v) : Keeps m s { t with key := v } := by
  refine Eq.trans ?_ h
  simp only [blank, hm, cond_true]

theorem host (h : Keeps m s t) (hm : m.testBit 13 = false) : t.host = s.host := by
  have k := congrArg State.host h
  simpa only [blank, hm, cond_false] using k

theorem put_host (h : Keeps m s t) (hm : m.testBit 13 = true) (v) : Keeps m s { t with host := v } := by
  refine Eq.trans ?_ h
  simp only [blank, hm, cond_true]

theorem cores (h : Keeps m s t) (hm : m.testBit 14 = false) : t.cores = s.cores := by
  have k := congrArg State.cores h
  simpa only [blank, hm, cond_false] using k

theorem put_cores (h : Keeps m s t) (hm : m.testBit 14 = true) (v) : Keeps m s { t with cores := v } := by
  refine Eq.trans ?_ h
  simp only [blank, hm, cond_true]

theorem dram (h : Keeps m s t) (hm : m.testBit 15 = false) : t.dram = s.dram := by
  have k := congrArg State.dram h
  simpa only [blank, hm, cond_false] using k

theorem put_dram (h : Keeps m s t) (hm : m.testBit 15 = true) (v) : Keeps m s { t with dram := v } := by
  refine Eq.trans ?_ h
  simp only [blank, hm, cond_true]

theorem ten (h : Keeps m s t) (hm : m.testBit 16 = false) : t.ten = s.ten := by
  have k := congrArg State.ten h
  simpa only [blank, hm, cond_false] using k

theorem put_ten (h : Keeps m s t) (hm : m.testBit 16 = true) (v) : Keeps m s { t with ten := v } := by
  refine Eq.trans ?_ h
  simp only [blank, hm, cond_true]

theorem boot (h : Keeps m s t) (hm : m.testBit 17 = false) : t.boot = s.boot := by
  have k := congrArg State.boot h
  simpa only [blank, hm, cond_false] using k

theorem put_boot (h : Keeps m s t) (hm : m.testBit 17 = true) (v) : Keeps m s { t with boot := v } := by
  refine Eq.trans ?_ h
  simp only [blank, hm, cond_true]

theorem upd (h : Keeps m s t) (hm : m.testBit 18 = false) : t.upd = s.upd := by
  have k := congrArg State.upd h
  simpa only [blank, hm, cond_false] using k

theorem put_upd (h : Keeps m s t) (hm : m.testBit 18 = true) (v) : Keeps m s { t with upd := v } := by
  refine Eq.trans ?_ h
  simp only [blank, hm, cond_true]

theorem tst (h : Keeps m s t) (hm : m.testBit 19 = false) : t.tst = s.tst := by
  have k := congrArg State.tst h
  simpa only [blank, hm, cond_false] using k

theorem put_tst (h : Keeps m s t) (hm : m.testBit 19 = true) (v) : Keeps m s { t with tst := v } := by
  refine Eq.trans ?_ h
  simp only [blank, hm, cond_true]

theorem tru (h : Keeps m s t) (hm : m.testBit 20 = false) : t.tru = s.tru := by
  have k := congrArg State.tru h
  simpa only [blank, hm, cond_false] using k

theorem put_tru (h : Keeps m s t) (hm : m.testBit 20 = true) (v) : Keeps m s { t with tru := v } := by
  refine Eq.trans ?_ h
  simp only [blank, hm, cond_true]

theorem dgt (h : Keeps m s t) (hm : m.testBit 21 = false) : t.dgt = s.dgt := by
  have k := congrArg State.dgt h
  simpa only [blank, hm, cond_false] using k

theorem put_dgt (h : Keeps m s t) (hm : m.testBit 21 = true) (v) : Keeps m s { t with dgt := v } := by
  refine Eq.trans ?_ h
  simp only [blank, hm, cond_true]

theorem asu (h : Keeps m s t) (hm : m.testBit 22 = false) : t.asu = s.asu := by
  have k := congrArg State.asu h
  simpa only [blank, hm, cond_false] using k

theorem put_asu (h : Keeps m s t) (hm : m.testBit 22 = true) (v) : Keeps m s { t with asu := v } := by
  refine Eq.trans ?_ h
  simp only [blank, hm, cond_true]

theorem fch (h : Keeps m s t) (hm : m.testBit 23 = false) : t.fch = s.fch := by
  have k := congrArg State.fch h
  simpa only [blank, hm, cond_false] using k

theorem put_fch (h : Keeps m s t) (hm : m.testBit 23 = true) (v) : Keeps m s { t with fch := v } := by
  refine Eq.trans ?_ h
  simp only [blank, hm, cond_true]

theorem ftl (h : Keeps m s t) (hm : m.testBit 24 = false) : t.ftl = s.ftl := by
  have k := congrArg State.ftl h
  simpa only [blank, hm, cond_false] using k

theorem put_ftl (h : Keeps m s t) (hm : m.testBit 24 = true) (v) : Keeps m s { t with ftl := v } := by
  refine Eq.trans ?_ h
  simp only [blank, hm, cond_true]

theorem drc (h : Keeps m s t) (hm : m.testBit 25 = false) : t.drc = s.drc := by
  have k := congrArg State.drc h
  simpa only [blank, hm, cond_false] using k

theorem put_drc (h : Keeps m s t) (hm : m.testBit 25 = true) (v) : Keeps m s { t with drc := v } := by
  refine Eq.trans ?_ h
  simp only [blank, hm, cond_true]

theorem hif (h : Keeps m s t) (hm : m.testBit 26 = false) : t.hif = s.hif := by
  have k := congrArg State.hif h
  simpa only [blank, hm, cond_false] using k

theorem put_hif (h : Keeps m s t) (hm : m.testBit 26 = true) (v) : Keeps m s { t with hif := v } := by
  refine Eq.trans ?_ h
  simp only [blank, hm, cond_true]

theorem jct (h : Keeps m s t) (hm : m.testBit 27 = false) : t.jct = s.jct := by
  have k := congrArg State.jct h
  simpa only [blank, hm, cond_false] using k

theorem put_jct (h : Keeps m s t) (hm : m.testBit 27 = true) (v) : Keeps m s { t with jct := v } := by
  refine Eq.trans ?_ h
  simp only [blank, hm, cond_true]


theorem snd {α : Type} {p : α × State} {a : α} {x : State} (h : p = (a, x)) (k : Keeps m s p.2) : Keeps m s x := by
  subst h; exact k

theorem fst {α : Type} {p : State × α} {a : α} {x : State} (h : p = (x, a)) (k : Keeps m s p.1) : Keeps m s x := by
  subst h; exact k

theorem ite2 {α : Type} {c : Prop} [Decidable c] {p q : α × State} (h : Keeps m s p.2) (k : Keeps m s q.2) :
    Keeps m s (if c then p else q).2 := by
  split <;> assumption

theorem ite1 {α : Type} {c : Prop} [Decidable c] {p q : State × α} (h : Keeps m s p.1) (k : Keeps m s q.1) :
    Keeps m s (if c then p else q).1 := by
  split <;> assumption

theorem foldl1 {α β : Type} {f : State × β → α → State × β} {l : List α} (hf : ∀ x a, Keeps m x.1 (f x a).1) :
    ∀ {t : State × β}, Keeps m s t.1 → Keeps m s (l.foldl f t).1 := by
  induction l with
  | nil => exact fun h => h
  | cons a l ih => exact fun h => ih (h.trans (hf _ _))

theorem foldl2 {α β : Type} {f : β × State → α → β × State} {l : List α} (hf : ∀ x a, Keeps m x.2 (f x a).2) :
    ∀ {t : β × State}, Keeps m s t.2 → Keeps m s (l.foldl f t).2 := by
  induction l with
  | nil => exact fun h => h
  | cons a l ih => exact fun h => ih (h.trans (hf _ _))

end Keeps

/-- A state that is answered, if one is, keeps all but `m` of `s`. -/
def KeepsM (m : Nat) (s : State) (o : Option State) : Prop := ∀ t, o = some t → Keeps m s t

/-- The next state, where the outcome is one, keeps all but `m` of `s`. -/
def KeepsO (m : Nat) (s : State) (o : Out) : Prop := ∀ t, o = .next t → Keeps m s t

/-- The state of a result, where it is one, keeps all but `m` of `s`. -/
def KeepsE {ε : Type} (m : Nat) (s : State) (o : Except ε State) : Prop := ∀ t, o = .ok t → Keeps m s t

namespace KeepsE

variable {ε : Type} {m n : Nat} {s t : State} {o p : Except ε State}

theorem error (e : ε) : KeepsE m s (.error e : Except ε State) := by intro t h; cases h

theorem ok (h : Keeps m s t) : KeepsE m s (.ok t : Except ε State) := by intro u k; cases k; exact h

theorem ite {c : Prop} [Decidable c] (h : KeepsE m s o) (k : KeepsE m s p) : KeepsE m s (if c then o else p) := by
  split <;> assumption

theorem via (k : KeepsE m t o) (hm : m ||| n = n) (h : Keeps n s t) : KeepsE n s o :=
  fun u hu => Keeps.via (k u hu) hm h

theorem of (h : o = .ok t) (k : KeepsE m s o) : Keeps m s t := k t h

end KeepsE

namespace KeepsM

variable {m : Nat} {s t : State} {o p : Option State}

theorem none : KeepsM m s none := by intro t h; cases h

theorem some (h : Keeps m s t) : KeepsM m s (some t) := by intro u k; cases k; exact h

theorem ite {c : Prop} [Decidable c] (h : KeepsM m s o) (k : KeepsM m s p) : KeepsM m s (if c then o else p) := by
  split <;> assumption

theorem via {n : Nat} (k : KeepsM m t o) (hm : m ||| n = n) (h : Keeps n s t) : KeepsM n s o :=
  fun u hu => Keeps.via (k u hu) hm h

theorem of (h : o = .some t) (k : KeepsM m s o) : Keeps m s t := k t h

theorem map {α : Type} {x : Option α} {f : α → State} (h : ∀ a, x = .some a → Keeps m s (f a)) :
    KeepsM m s (x.map f) := by
  intro t k
  cases x with
  | none => cases k
  | some a => cases k; exact h a rfl

theorem findSome {α : Type} {l : List α} {f : α → Option State} (h : ∀ a, KeepsM m s (f a)) :
    KeepsM m s (l.findSome? f) := by
  intro t k
  obtain ⟨a, -, hf⟩ := List.exists_of_findSome?_eq_some k
  exact h a t hf

end KeepsM

namespace KeepsO

variable {m n : Nat} {s t : State} {o p : Out}

theorem next (h : Keeps m s t) : KeepsO m s (.next t) := by intro u k; cases k; exact h

theorem ite {c : Prop} [Decidable c] (h : KeepsO m s o) (k : KeepsO m s p) : KeepsO m s (if c then o else p) := by
  split <;> assumption

theorem via (k : KeepsO m t o) (hm : m ||| n = n) (h : Keeps n s t) : KeepsO n s o :=
  fun u hu => Keeps.via (k u hu) hm h

theorem of (h : o = .next t) (k : KeepsO m s o) : Keeps m s t := k t h

end KeepsO

end Sys2Proof.Machine
end

