-- ==== Sys2Proof/Laws/KeepsOps.lean ====
section
/-! SUPPORT. What each operation and each command may touch: `<op>_keeps` says that its result differs from the state it was
given at most in the parts of State whose bit is set (the bits are listed in Laws/Keeps.lean; 4096 is the key unit alone).
For a command, `KeepsO` says it of the next state, when there is one. A proof cites these instead of unfolding the operation. -/

namespace Sys2Proof.Machine


theorem State.withFetchWord_keeps : ∀ a0 a1 a2, Keeps 1 a0 (State.withFetchWord a0 a1 a2) := by
  intro a0 a1 a2
  unfold State.withFetchWord
  split
  · refine Keeps.put_pending ?_ rfl _
    exact Keeps.refl _ _
  · exact Keeps.refl _ _

theorem releaseHandles_keeps : ∀ a0 a1, Keeps 4096 a0 (releaseHandles a0 a1) := by
  intro a0 a1
  unfold releaseHandles
  refine Keeps.put_key ?_ rfl _
  exact Keeps.refl _ _

theorem dropCtx_keeps : ∀ a0 a1, Keeps 4198528 a0 (dropCtx a0 a1) := by
  intro a0 a1
  unfold dropCtx
  refine Keeps.put_stn (Keeps.put_key (Keeps.put_asu ?_ rfl _) rfl _) rfl _
  exact Keeps.refl _ _

theorem leaveInside_keeps : ∀ a0 a1 a2, Keeps 16896 a0 (leaveInside a0 a1 a2) := by
  intro a0 a1 a2
  unfold leaveInside
  refine Keeps.put_fab (Keeps.put_cores ?_ rfl _) rfl _
  exact Keeps.refl _ _

theorem setJct_keeps : ∀ a0 a1, Keeps 134217728 a0 (setJct a0 a1) := by
  intro a0 a1
  unfold setJct
  refine Keeps.put_jct ?_ rfl _
  exact Keeps.refl _ _

theorem dropMessages_keeps : ∀ a0 a1, Keeps 134217728 a0 (dropMessages a0 a1) := by
  intro a0 a1
  unfold dropMessages
  refine Keeps.via (setJct_keeps _ _) rfl ?_
  exact Keeps.refl _ _

theorem setSlot_keeps : ∀ a0 a1 a2, Keeps 4096 a0 (setSlot a0 a1 a2) := by
  intro a0 a1 a2
  unfold setSlot
  refine Keeps.put_key ?_ rfl _
  exact Keeps.refl _ _

theorem releaseSlot_keeps : ∀ a0 a1, Keeps 4096 a0 (releaseSlot a0 a1) := by
  intro a0 a1
  unfold releaseSlot
  refine Keeps.via (setSlot_keeps _ _ _) rfl ?_
  exact Keeps.refl _ _

theorem freeTicket_keeps : ∀ a0 a1 a2, Keeps 155210432 a0 (freeTicket a0 a1 a2) := by
  intro a0 a1 a2
  unfold freeTicket
  refine Keeps.via (dropCtx_keeps _ _) rfl ?_
  refine Keeps.via (releaseHandles_keeps _ _) rfl ?_
  refine Keeps.via (leaveInside_keeps _ _ _) rfl ?_
  refine Keeps.via (dropMessages_keeps _ _) rfl ?_
  refine Keeps.ite ?_ ?_
  · refine Keeps.via (releaseSlot_keeps _ _) rfl ?_
    refine Keeps.put_ftl ?_ rfl _
    refine Keeps.put_sbx ?_ rfl _
    exact Keeps.refl _ _
  · refine Keeps.put_ftl ?_ rfl _
    refine Keeps.put_sbx ?_ rfl _
    exact Keeps.refl _ _

theorem setHif_keeps : ∀ a0 a1, Keeps 67108864 a0 (setHif a0 a1) := by
  intro a0 a1
  unfold setHif
  refine Keeps.put_hif ?_ rfl _
  exact Keeps.refl _ _

theorem setCmd_keeps : ∀ a0 a1 a2 a3 a4, Keeps 67108864 a0 (setCmd a0 a1 a2 a3 a4) := by
  intro a0 a1 a2 a3 a4
  unfold setCmd
  refine Keeps.via (setHif_keeps _ _) rfl ?_
  exact Keeps.refl _ _

theorem abortCmd_keeps : ∀ a0 a1, KeepsM 222319296 a0 (abortCmd a0 a1) := by
  intro a0 a1
  unfold abortCmd
  refine KeepsM.ite ?_ ?_
  · refine KeepsM.some ?_
    refine Keeps.via (setCmd_keeps _ _ _ _ _) rfl ?_
    refine Keeps.foldl (fun x1 _ => ?_) ?_
    · split
      · refine Keeps.via (freeTicket_keeps _ _ _) rfl ?_
        exact Keeps.refl _ _
      · exact Keeps.refl _ _
    · exact Keeps.refl _ _
  · exact KeepsM.none

theorem setLive_keeps : ∀ a0 a1 a2 a3 a4, Keeps 16 a0 (setLive a0 a1 a2 a3 a4) := by
  intro a0 a1 a2 a3 a4
  unfold setLive
  refine Keeps.put_regs ?_ rfl _
  exact Keeps.refl _ _

theorem bump_keeps : ∀ a0 a1 a2 a3 a4, Keeps 16 a0 (bump a0 a1 a2 a3 a4) := by
  intro a0 a1 a2 a3 a4
  unfold bump
  refine Keeps.via (setLive_keeps _ _ _ _ _) rfl ?_
  exact Keeps.refl _ _

theorem routerCount_keeps : ∀ a0 a1 a2 a3 a4, Keeps 16 a0 (routerCount a0 a1 a2 a3 a4) := by
  intro a0 a1 a2 a3 a4
  unfold routerCount
  split
  · refine Keeps.via (bump_keeps _ _ _ _ _) rfl ?_
    exact Keeps.refl _ _
  · refine Keeps.via (bump_keeps _ _ _ _ _) rfl ?_
    exact Keeps.refl _ _

theorem placePages_keeps : ∀ a0 a1 a2 a3, Keeps 33554432 a0 (placePages a0 a1 a2 a3) := by
  intro a0 a1 a2 a3
  unfold placePages
  refine Keeps.foldl (fun x1 _ => ?_) ?_
  · refine Keeps.ite ?_ ?_
    · try dsimp -proj only
      split
      · refine Keeps.put_drc ?_ rfl _
        exact Keeps.refl _ _
      · exact Keeps.refl _ _
    · exact Keeps.refl _ _
  · exact Keeps.refl _ _

theorem lmemWrite_keeps : ∀ a0 a1 a2 a3, Keeps 33556480 a0 (lmemWrite a0 a1 a2 a3) := by
  intro a0 a1 a2 a3
  unfold lmemWrite
  refine Keeps.put_lmem ?_ rfl _
  refine Keeps.via (placePages_keeps _ _ _ _) rfl ?_
  exact Keeps.refl _ _

theorem deliver_keeps : ∀ a0 a1 a2, Keeps 33556512 a0 (deliver a0 a1 a2) := by
  intro a0 a1 a2
  unfold deliver
  refine Keeps.ite ?_ ?_
  · exact Keeps.refl _ _
  · refine Keeps.via (lmemWrite_keeps _ _ _ _) rfl ?_
    refine Keeps.put_evr ?_ rfl _
    refine Keeps.via (lmemWrite_keeps _ _ _ _) rfl ?_
    exact Keeps.refl _ _

theorem flushMirror_keeps : ∀ a0, Keeps 32 a0 (flushMirror a0) := by
  intro a0
  unfold flushMirror
  refine Keeps.put_evr ?_ rfl _
  exact Keeps.refl _ _

theorem writeRecord_keeps : ∀ a0 a1, Keeps 33556512 a0 (writeRecord a0 a1) := by
  intro a0 a1
  unfold writeRecord
  refine Keeps.via (deliver_keeps _ _ _) rfl ?_
  refine Keeps.ite ?_ ?_
  · refine Keeps.via (flushMirror_keeps _) rfl ?_
    refine Keeps.put_evr ?_ rfl _
    exact Keeps.refl _ _
  · refine Keeps.put_evr ?_ rfl _
    exact Keeps.refl _ _

theorem putRecord_keeps : ∀ a0 a1, Keeps 33556528 a0 (putRecord a0 a1) := by
  intro a0 a1
  unfold putRecord
  split
  · refine Keeps.ite ?_ ?_
    · refine Keeps.put_evr ?_ rfl _
      exact Keeps.refl _ _
    · refine Keeps.via (bump_keeps _ _ _ _ _) rfl ?_
      exact Keeps.refl _ _
  · refine Keeps.via (writeRecord_keeps _ _) rfl ?_
    exact Keeps.refl _ _

theorem endSecond_keeps : ∀ a0, Keeps 33556528 a0 (endSecond a0) := by
  intro a0
  unfold endSecond
  refine Keeps.foldl (fun x1 _ => ?_) ?_
  · refine Keeps.via (putRecord_keeps _ _) rfl ?_
    refine Keeps.via (bump_keeps _ _ _ _ _) rfl ?_
    exact Keeps.refl _ _
  · refine Keeps.put_evr ?_ rfl _
    exact Keeps.refl _ _

theorem record_keeps : ∀ a0 a1 a2 a3 a4 a5 a6, Keeps 33556528 a0 (record a0 a1 a2 a3 a4 a5 a6) := by
  intro a0 a1 a2 a3 a4 a5 a6
  unfold record
  try dsimp -proj only
  split
  · refine Keeps.via (putRecord_keeps _ _) rfl ?_
    exact Keeps.refl _ _
  · refine Keeps.ite ?_ ?_
    · refine Keeps.via (writeRecord_keeps _ _) rfl ?_
      refine Keeps.put_evr ?_ rfl _
      refine Keeps.ite ?_ ?_
      · refine Keeps.via (endSecond_keeps _) rfl ?_
        exact Keeps.refl _ _
      · exact Keeps.refl _ _
    · refine Keeps.put_evr ?_ rfl _
      refine Keeps.ite ?_ ?_
      · refine Keeps.via (endSecond_keeps _) rfl ?_
        exact Keeps.refl _ _
      · exact Keeps.refl _ _

theorem recordLost_keeps : ∀ a0 a1 a2 a3, Keeps 33556528 a0 (recordLost a0 a1 a2 a3) := by
  intro a0 a1 a2 a3
  unfold recordLost
  refine Keeps.via (record_keeps _ _ _ _ _ _ _) rfl ?_
  exact Keeps.refl _ _

theorem setCore_keeps : ∀ a0 a1 a2, Keeps 16384 a0 (setCore a0 a1 a2) := by
  intro a0 a1 a2
  unfold setCore
  refine Keeps.put_cores ?_ rfl _
  exact Keeps.refl _ _

theorem setPwr_keeps : ∀ a0 a1, Keeps 1024 a0 (setPwr a0 a1) := by
  intro a0 a1
  unfold setPwr
  refine Keeps.put_pwr ?_ rfl _
  exact Keeps.refl _ _

theorem setIsland_keeps : ∀ a0 a1 a2, Keeps 1024 a0 (setIsland a0 a1 a2) := by
  intro a0 a1 a2
  unfold setIsland
  refine Keeps.via (setPwr_keeps _ _) rfl ?_
  exact Keeps.refl _ _

theorem setGroupDom_keeps : ∀ a0 a1 a2, Keeps 1024 a0 (setGroupDom a0 a1 a2) := by
  intro a0 a1 a2
  unfold setGroupDom
  refine Keeps.foldl (fun x1 _ => ?_) ?_
  · refine Keeps.via (setIsland_keeps _ _ _) rfl ?_
    exact Keeps.refl _ _
  · exact Keeps.refl _ _

theorem wakeIsland_keeps : ∀ a0 a1, Keeps 1024 a0 (wakeIsland a0 a1) := by
  intro a0 a1
  unfold wakeIsland
  refine Keeps.ite ?_ ?_
  · exact Keeps.refl _ _
  · refine Keeps.via (setGroupDom_keeps _ _ _) rfl ?_
    exact Keeps.refl _ _

theorem drawn_keeps : ∀ a0, Keeps 4 a0 (drawn a0) := by
  intro a0
  unfold drawn
  refine Keeps.put_freeCount ?_ rfl _
  exact Keeps.refl _ _

theorem setTst_keeps : ∀ a0 a1, Keeps 524288 a0 (setTst a0 a1) := by
  intro a0 a1
  unfold setTst
  refine Keeps.put_tst ?_ rfl _
  exact Keeps.refl _ _

theorem queueReport_keeps : ∀ a0 a1, Keeps 524288 a0 (queueReport a0 a1) := by
  intro a0 a1
  unfold queueReport
  refine Keeps.ite ?_ ?_
  · refine Keeps.via (setTst_keeps _ _) rfl ?_
    exact Keeps.refl _ _
  · refine Keeps.via (setTst_keeps _ _) rfl ?_
    exact Keeps.refl _ _

theorem setUnit_keeps : ∀ a0 a1 a2, Keeps 8 a0 (setUnit a0 a1 a2) := by
  intro a0 a1 a2
  unfold setUnit
  refine Keeps.put_dev ?_ rfl _
  exact Keeps.refl _ _

theorem doChange_keeps : ∀ a0 a1 a2, Keeps 33556536 a0 (doChange a0 a1 a2) := by
  intro a0 a1 a2
  unfold doChange
  refine Keeps.ite ?_ ?_
  · refine Keeps.via (record_keeps _ _ _ _ _ _ _) rfl ?_
    refine Keeps.via (setUnit_keeps _ _ _) rfl ?_
    exact Keeps.refl _ _
  · refine Keeps.via (setUnit_keeps _ _ _) rfl ?_
    exact Keeps.refl _ _

theorem changeUnit_keeps : ∀ a0 a1 a2, Keeps 33556536 a0 (changeUnit a0 a1 a2) := by
  intro a0 a1 a2
  unfold changeUnit
  refine Keeps.ite ?_ ?_
  · refine Keeps.via (doChange_keeps _ _ _) rfl ?_
    exact Keeps.refl _ _
  · refine Keeps.via (setUnit_keeps _ _ _) rfl ?_
    exact Keeps.refl _ _

theorem unitState_keeps : ∀ a0 a1 a2, Keeps 33556536 a0 (unitState a0 a1 a2) := by
  intro a0 a1 a2
  unfold unitState
  refine Keeps.via (changeUnit_keeps _ _ _) rfl ?_
  exact Keeps.refl _ _

theorem coreMemWrite_keeps : ∀ a0 a1 a2 a3, Keeps 16384 a0 (coreMemWrite a0 a1 a2 a3) := by
  intro a0 a1 a2 a3
  unfold coreMemWrite
  refine Keeps.via (setCore_keeps _ _ _) rfl ?_
  exact Keeps.refl _ _

theorem hostRaw_keeps : ∀ a0 a1 a2 a3 a4, Keeps 8192 a0 (hostRaw a0 a1 a2 a3 a4) := by
  intro a0 a1 a2 a3 a4
  unfold hostRaw
  refine Keeps.put_host ?_ rfl _
  exact Keeps.refl _ _

theorem setInst_keeps : ∀ a0 a1 a2, Keeps 65536 a0 (setInst a0 a1 a2) := by
  intro a0 a1 a2
  unfold setInst
  refine Keeps.put_ten ?_ rfl _
  exact Keeps.refl _ _

theorem hostWrite_keeps : ∀ a0 a1 a2 a3 a4, Keeps 73728 a0 (hostWrite a0 a1 a2 a3 a4) := by
  intro a0 a1 a2 a3 a4
  unfold hostWrite
  refine Keeps.ite ?_ ?_
  · exact Keeps.refl _ _
  · refine Keeps.via (hostRaw_keeps _ _ _ _ _) rfl ?_
    refine Keeps.ite ?_ ?_
    · exact Keeps.refl _ _
    · refine Keeps.via (setInst_keeps _ _ _) rfl ?_
      exact Keeps.refl _ _

theorem zeroDest_keeps : ∀ a0 a1 a2, Keeps 33646592 a0 (zeroDest a0 a1 a2) := by
  intro a0 a1 a2
  unfold zeroDest
  split
  · refine Keeps.via (hostWrite_keeps _ _ _ _ _) rfl ?_
    exact Keeps.refl _ _
  · refine Keeps.via (hostWrite_keeps _ _ _ _ _) rfl ?_
    exact Keeps.refl _ _
  · refine Keeps.via (lmemWrite_keeps _ _ _ _) rfl ?_
    exact Keeps.refl _ _
  · refine Keeps.via (coreMemWrite_keeps _ _ _ _) rfl ?_
    exact Keeps.refl _ _
  · exact Keeps.refl _ _

theorem zeroWritten_keeps : ∀ a0 a1 a2, Keeps 33646592 a0 (zeroWritten a0 a1 a2) := by
  intro a0 a1 a2
  unfold zeroWritten
  refine Keeps.foldl (fun x1 _ => ?_) ?_
  · refine Keeps.via (zeroDest_keeps _ _ _) rfl ?_
    exact Keeps.refl _ _
  · exact Keeps.refl _ _

theorem setEntry_keeps : ∀ a0 a1 a2, Keeps 64 a0 (setEntry a0 a1 a2) := by
  intro a0 a1 a2
  unfold setEntry
  refine Keeps.put_sbx ?_ rfl _
  exact Keeps.refl _ _

theorem modEntry_keeps : ∀ a0 a1 a2, Keeps 64 a0 (modEntry a0 a1 a2) := by
  intro a0 a1 a2
  unfold modEntry
  split
  · refine Keeps.via (setEntry_keeps _ _ _) rfl ?_
    exact Keeps.refl _ _
  · exact Keeps.refl _ _

theorem modRecv_keeps : ∀ a0 a1 a2, Keeps 134217728 a0 (modRecv a0 a1 a2) := by
  intro a0 a1 a2
  unfold modRecv
  refine Keeps.via (setJct_keeps _ _) rfl ?_
  exact Keeps.refl _ _

theorem sendFrame_keeps : ∀ a0 a1, Keeps 134217728 a0 (sendFrame a0 a1) := by
  intro a0 a1
  unfold sendFrame
  refine Keeps.ite ?_ ?_
  · exact Keeps.refl _ _
  · split
    · refine Keeps.via (setJct_keeps _ _) rfl ?_
      exact Keeps.refl _ _
    · exact Keeps.refl _ _

theorem sendOutcome_keeps : ∀ a0 a1 a2, Keeps 134217728 a0 (sendOutcome a0 a1 a2) := by
  intro a0 a1 a2
  unfold sendOutcome
  refine Keeps.via (sendFrame_keeps _ _) rfl ?_
  exact Keeps.refl _ _

theorem flushOutcomes_keeps : ∀ a0 a1, Keeps 134217728 a0 (flushOutcomes a0 a1) := by
  intro a0 a1
  unfold flushOutcomes
  refine Keeps.via (setJct_keeps _ _) rfl ?_
  refine Keeps.foldl (fun x1 _ => ?_) ?_
  · split
    · refine Keeps.via (setJct_keeps _ _) rfl ?_
      exact Keeps.refl _ _
    · refine Keeps.via (sendOutcome_keeps _ _ _) rfl ?_
      exact Keeps.refl _ _
  · exact Keeps.refl _ _

theorem recvStatus_keeps : ∀ a0 a1 a2 a3, Keeps 134217728 a0 (recvStatus a0 a1 a2 a3) := by
  intro a0 a1 a2 a3
  unfold recvStatus
  split
  · exact Keeps.refl _ _
  · refine Keeps.via (flushOutcomes_keeps _ _) rfl ?_
    refine Keeps.via (modRecv_keeps _ _ _) rfl ?_
    exact Keeps.refl _ _

theorem junctionDone_keeps : ∀ a0 a1 a2, Keeps 134217728 a0 (junctionDone a0 a1 a2) := by
  intro a0 a1 a2
  unfold junctionDone
  split
  · exact Keeps.refl _ _
  · refine Keeps.ite ?_ ?_
    · refine Keeps.via (modRecv_keeps _ _ _) rfl ?_
      exact Keeps.refl _ _
    · refine Keeps.via (recvStatus_keeps _ _ _ _) rfl ?_
      exact Keeps.refl _ _

theorem setCtrl_keeps : ∀ a0 a1 a2, Keeps 67108864 a0 (setCtrl a0 a1 a2) := by
  intro a0 a1 a2
  unfold setCtrl
  refine Keeps.via (setHif_keeps _ _) rfl ?_
  exact Keeps.refl _ _

theorem postCqe_keeps : ∀ a0 a1 a2 a3 a4 a5 a6 a7 a8 a9, Keeps 67313664 a0 (postCqe a0 a1 a2 a3 a4 a5 a6 a7 a8 a9) := by
  intro a0 a1 a2 a3 a4 a5 a6 a7 a8 a9
  unfold postCqe
  refine Keeps.ite ?_ ?_
  · exact Keeps.refl _ _
  · try dsimp -proj only
    split
    · refine Keeps.via (setHif_keeps _ _) rfl ?_
      refine Keeps.via (setCtrl_keeps _ _ _) rfl ?_
      refine Keeps.put_boot ?_ rfl _
      refine Keeps.via (hostWrite_keeps _ _ _ _ _) rfl ?_
      exact Keeps.refl _ _
    · refine Keeps.via (setCtrl_keeps _ _ _) rfl ?_
      refine Keeps.put_boot ?_ rfl _
      refine Keeps.via (hostWrite_keeps _ _ _ _ _) rfl ?_
      exact Keeps.refl _ _

theorem endCmd_keeps : ∀ a0 a1, Keeps 67313664 a0 (endCmd a0 a1) := by
  intro a0 a1
  unfold endCmd
  try dsimp -proj only
  split
  · refine Keeps.via (postCqe_keeps _ _ _ _ _ _ _ _ _ _) rfl ?_
    refine Keeps.via (setCmd_keeps _ _ _ _ _) rfl ?_
    exact Keeps.refl _ _
  · refine Keeps.via (postCqe_keeps _ _ _ _ _ _ _ _ _ _) rfl ?_
    refine Keeps.via (setCmd_keeps _ _ _ _ _) rfl ?_
    exact Keeps.refl _ _

theorem setZone_keeps : ∀ a0 a1 a2 a3, Keeps 16777216 a0 (setZone a0 a1 a2 a3) := by
  intro a0 a1 a2 a3
  unfold setZone
  split
  · exact Keeps.refl _ _
  · refine Keeps.put_ftl ?_ rfl _
    exact Keeps.refl _ _

theorem saveZones_keeps : ∀ a0 a1, Keeps 16777216 a0 (saveZones a0 a1) := by
  intro a0 a1
  unfold saveZones
  refine Keeps.put_ftl ?_ rfl _
  exact Keeps.refl _ _

theorem cmdPart_keeps : ∀ a0 a1 a2 a3 a4 a5 a6 a7, Keeps 84107264 a0 (cmdPart a0 a1 a2 a3 a4 a5 a6 a7) := by
  intro a0 a1 a2 a3 a4 a5 a6 a7
  unfold cmdPart
  split
  · exact Keeps.refl _ _
  · refine Keeps.ite ?_ ?_
    · refine Keeps.via (setCmd_keeps _ _ _ _ _) rfl ?_
      exact Keeps.refl _ _
    · refine Keeps.via (endCmd_keeps _ _) rfl ?_
      refine Keeps.put_ftl ?_ rfl _
      refine Keeps.ite ?_ ?_
      · refine Keeps.via (setCore_keeps _ _ _) rfl ?_
        refine Keeps.ite ?_ ?_
        · refine Keeps.via (saveZones_keeps _ _) rfl ?_
          refine Keeps.foldl (fun x1 _ => ?_) ?_
          · refine Keeps.via (setZone_keeps _ _ _ _) rfl ?_
            exact Keeps.refl _ _
          · exact Keeps.refl _ _
        · exact Keeps.refl _ _
      · refine Keeps.ite ?_ ?_
        · refine Keeps.via (saveZones_keeps _ _) rfl ?_
          refine Keeps.foldl (fun x2 _ => ?_) ?_
          · refine Keeps.via (setZone_keeps _ _ _ _) rfl ?_
            exact Keeps.refl _ _
          · exact Keeps.refl _ _
        · exact Keeps.refl _ _

theorem nvmeTicketDone_keeps : ∀ a0 a1 a2, Keeps 84107264 a0 (nvmeTicketDone a0 a1 a2) := by
  intro a0 a1 a2
  unfold nvmeTicketDone
  split
  · refine Keeps.via (cmdPart_keeps _ _ _ _ _ _ _ _) rfl ?_
    exact Keeps.refl _ _
  · exact Keeps.refl _ _

theorem cqWrite_keeps : ∀ a0 a1 a2, Keeps 16384 a0 (cqWrite a0 a1 a2) := by
  intro a0 a1 a2
  unfold cqWrite
  refine Keeps.via (setCore_keeps _ _ _) rfl ?_
  refine Keeps.via (coreMemWrite_keeps _ _ _ _) rfl ?_
  exact Keeps.refl _ _

theorem countEnd_keeps : ∀ a0 a1, Keeps 16777216 a0 (countEnd a0 a1) := by
  intro a0 a1
  unfold countEnd
  refine Keeps.put_ftl ?_ rfl _
  exact Keeps.refl _ _

theorem finishPlain_keeps : ∀ a0 a1, Keeps 222524096 a0 (finishPlain a0 a1) := by
  intro a0 a1
  unfold finishPlain
  split
  · exact Keeps.refl _ _
  · refine Keeps.ite ?_ ?_
    · refine Keeps.via (freeTicket_keeps _ _ _) rfl ?_
      refine Keeps.via (countEnd_keeps _ _) rfl ?_
      exact Keeps.refl _ _
    · try dsimp -proj only
      split
      · refine Keeps.ite ?_ ?_
        · refine Keeps.via (freeTicket_keeps _ _ _) rfl ?_
          refine Keeps.put_sbx ?_ rfl _
          refine Keeps.via (countEnd_keeps _ _) rfl ?_
          exact Keeps.refl _ _
        · refine Keeps.ite ?_ ?_
          · refine Keeps.via (setCore_keeps _ _ _) rfl ?_
            refine Keeps.via (setEntry_keeps _ _ _) rfl ?_
            refine Keeps.put_sbx ?_ rfl _
            refine Keeps.put_sbx ?_ rfl _
            refine Keeps.via (countEnd_keeps _ _) rfl ?_
            exact Keeps.refl _ _
          · refine Keeps.via (freeTicket_keeps _ _ _) rfl ?_
            refine Keeps.via (cqWrite_keeps _ _ _) rfl ?_
            refine Keeps.put_sbx ?_ rfl _
            refine Keeps.via (countEnd_keeps _ _) rfl ?_
            exact Keeps.refl _ _
      · refine Keeps.via (nvmeTicketDone_keeps _ _ _) rfl ?_
        refine Keeps.via (freeTicket_keeps _ _ _) rfl ?_
        refine Keeps.put_sbx ?_ rfl _
        refine Keeps.via (countEnd_keeps _ _) rfl ?_
        exact Keeps.refl _ _
      · refine Keeps.via (junctionDone_keeps _ _ _) rfl ?_
        refine Keeps.via (freeTicket_keeps _ _ _) rfl ?_
        refine Keeps.put_sbx ?_ rfl _
        refine Keeps.via (countEnd_keeps _ _) rfl ?_
        exact Keeps.refl _ _
      · refine Keeps.via (freeTicket_keeps _ _ _) rfl ?_
        refine Keeps.put_sbx ?_ rfl _
        refine Keeps.via (countEnd_keeps _ _) rfl ?_
        exact Keeps.refl _ _

theorem finishTicket_keeps : ∀ a0 a1, Keeps 222524096 a0 (finishTicket a0 a1) := by
  intro a0 a1
  unfold finishTicket
  refine Keeps.via (finishPlain_keeps _ _) rfl ?_
  exact Keeps.refl _ _

theorem flushEnded_keeps : ∀ a0 a1, Keeps 1024 a0 (flushEnded a0 a1) := by
  intro a0 a1
  unfold flushEnded
  refine Keeps.put_pwr ?_ rfl _
  exact Keeps.refl _ _

theorem ackTicket_keeps : ∀ a0 a1 a2, Keeps 222525120 a0 (ackTicket a0 a1 a2) := by
  intro a0 a1 a2
  unfold ackTicket
  refine Keeps.via (finishTicket_keeps _ _) rfl ?_
  refine Keeps.via (modEntry_keeps _ _ _) rfl ?_
  split
  · refine Keeps.ite ?_ ?_
    · refine Keeps.via (flushEnded_keeps _ _) rfl ?_
      exact Keeps.refl _ _
    · exact Keeps.refl _ _
  · exact Keeps.refl _ _

theorem emit_keeps : ∀ a0 a1, Keeps 8 a0 (emit a0 a1) := by
  intro a0 a1
  unfold emit
  refine Keeps.put_dev ?_ rfl _
  exact Keeps.refl _ _

theorem sendToken_keeps : ∀ a0 a1 a2 a3 a4 a5 a6 a7, Keeps 8 a0 (sendToken a0 a1 a2 a3 a4 a5 a6 a7) := by
  intro a0 a1 a2 a3 a4 a5 a6 a7
  unfold sendToken
  refine Keeps.foldl (fun x1 _ => ?_) ?_
  · refine Keeps.via (emit_keeps _ _) rfl ?_
    exact Keeps.refl _ _
  · exact Keeps.refl _ _

theorem setCtx_keeps : ∀ a0 a1 a2 a3, Keeps 128 a0 (setCtx a0 a1 a2 a3) := by
  intro a0 a1 a2 a3
  unfold setCtx
  refine Keeps.put_stn ?_ rfl _
  exact Keeps.refl _ _

theorem engineCleared_keeps : ∀ a0 a1 a2 a3, Keeps 128 a0 (engineCleared a0 a1 a2 a3) := by
  intro a0 a1 a2 a3
  unfold engineCleared
  split
  · refine Keeps.via (setCtx_keeps _ _ _ _) rfl ?_
    exact Keeps.refl _ _
  · refine Keeps.via (setCtx_keeps _ _ _ _) rfl ?_
    exact Keeps.refl _ _
  · refine Keeps.via (setCtx_keeps _ _ _ _) rfl ?_
    exact Keeps.refl _ _
  · exact Keeps.refl _ _

theorem report_keeps : ∀ a0 a1 a2 a3, Keeps 64 a0 (report a0 a1 a2 a3) := by
  intro a0 a1 a2 a3
  unfold report
  refine Keeps.ite ?_ ?_
  · exact Keeps.refl _ _
  · refine Keeps.via (modEntry_keeps _ _ _) rfl ?_
    exact Keeps.refl _ _

theorem engineFailed_keeps : ∀ a0 a1 a2 a3, Keeps 16 a0 (engineFailed a0 a1 a2 a3) := by
  intro a0 a1 a2 a3
  unfold engineFailed
  refine Keeps.ite ?_ ?_
  · refine Keeps.via (setLive_keeps _ _ _ _ _) rfl ?_
    exact Keeps.refl _ _
  · exact Keeps.refl _ _

theorem failAt_keeps : ∀ a0 a1 a2 a3 a4, Keeps 256081624 a0 (failAt a0 a1 a2 a3 a4) := by
  intro a0 a1 a2 a3 a4
  unfold failAt
  split
  · exact Keeps.refl _ _
  · refine Keeps.ite ?_ ?_
    · exact Keeps.refl _ _
    · refine Keeps.ite ?_ ?_
      · refine Keeps.via (ackTicket_keeps _ _ _) rfl ?_
        refine Keeps.via (zeroWritten_keeps _ _ _) rfl ?_
        refine Keeps.via (modEntry_keeps _ _ _) rfl ?_
        refine Keeps.ite ?_ ?_
        · refine Keeps.via (engineFailed_keeps _ _ _ _) rfl ?_
          refine Keeps.via (report_keeps _ _ _ _) rfl ?_
          exact Keeps.refl _ _
        · refine Keeps.via (engineCleared_keeps _ _ _ _) rfl ?_
          refine Keeps.via (sendToken_keeps _ _ _ _ _ _ _ _) rfl ?_
          refine Keeps.via (engineFailed_keeps _ _ _ _) rfl ?_
          refine Keeps.via (report_keeps _ _ _ _) rfl ?_
          exact Keeps.refl _ _
      · refine Keeps.via (modEntry_keeps _ _ _) rfl ?_
        refine Keeps.ite ?_ ?_
        · refine Keeps.via (engineFailed_keeps _ _ _ _) rfl ?_
          refine Keeps.via (report_keeps _ _ _ _) rfl ?_
          exact Keeps.refl _ _
        · refine Keeps.via (engineCleared_keeps _ _ _ _) rfl ?_
          refine Keeps.via (sendToken_keeps _ _ _ _ _ _ _ _) rfl ?_
          refine Keeps.via (engineFailed_keeps _ _ _ _) rfl ?_
          refine Keeps.via (report_keeps _ _ _ _) rfl ?_
          exact Keeps.refl _ _

theorem endInside_keeps : ∀ a0 a1 a2, Keeps 256081624 a0 (endInside a0 a1 a2) := by
  intro a0 a1 a2
  unfold endInside
  refine Keeps.foldl (fun x1 _ => ?_) ?_
  · split
    · refine Keeps.via (failAt_keeps _ _ _ _ _) rfl ?_
      exact Keeps.refl _ _
    · exact Keeps.refl _ _
  · exact Keeps.refl _ _

theorem reportUnit_keeps : ∀ a0 a1 a2, Keeps 256605944 a0 (reportUnit a0 a1 a2) := by
  intro a0 a1 a2
  unfold reportUnit
  refine Keeps.ite ?_ ?_
  · exact Keeps.refl _ _
  · refine Keeps.ite ?_ ?_
    · refine Keeps.via (unitState_keeps _ _ _) rfl ?_
      refine Keeps.via (endInside_keeps _ _ _) rfl ?_
      refine Keeps.via (setTst_keeps _ _) rfl ?_
      exact Keeps.refl _ _
    · refine Keeps.via (queueReport_keeps _ _) rfl ?_
      exact Keeps.refl _ _

theorem countCorrected_keeps : ∀ a0 a1 a2 a3, Keeps 256605944 a0 (countCorrected a0 a1 a2 a3) := by
  intro a0 a1 a2 a3
  unfold countCorrected
  refine Keeps.ite ?_ ?_
  · exact Keeps.refl _ _
  · refine Keeps.ite ?_ ?_
    · refine Keeps.via (setTst_keeps _ _) rfl ?_
      refine Keeps.via (bump_keeps _ _ _ _ _) rfl ?_
      exact Keeps.refl _ _
    · refine Keeps.ite ?_ ?_
      · refine Keeps.via (reportUnit_keeps _ _ _) rfl ?_
        refine Keeps.via (setTst_keeps _ _) rfl ?_
        refine Keeps.via (bump_keeps _ _ _ _ _) rfl ?_
        exact Keeps.refl _ _
      · refine Keeps.via (record_keeps _ _ _ _ _ _ _) rfl ?_
        refine Keeps.via (setTst_keeps _ _) rfl ?_
        refine Keeps.via (bump_keeps _ _ _ _ _) rfl ?_
        exact Keeps.refl _ _

theorem routerFixes_keeps : ∀ a0 a1 a2 a3, Keeps 256605944 a0 (routerFixes a0 a1 a2 a3) := by
  intro a0 a1 a2 a3
  unfold routerFixes
  split
  · refine Keeps.via (countCorrected_keeps _ _ _ _) rfl ?_
    exact Keeps.refl _ _
  · refine Keeps.via (routerCount_keeps _ _ _ _ _) rfl ?_
    exact Keeps.refl _ _

theorem useInjs_keeps : ∀ a0 a1 a2, Keeps 524288 a0 (useInjs a0 a1 a2).2 := by
  intro a0 a1 a2
  unfold useInjs
  refine Keeps.via (setTst_keeps _ _) rfl ?_
  exact Keeps.refl _ _

theorem linkSymbols_keeps : ∀ a0 a1 a2 a3, Keeps 524288 a0 (linkSymbols a0 a1 a2 a3).2 := by
  intro a0 a1 a2 a3
  unfold linkSymbols
  split
  · refine Keeps.via (useInjs_keeps _ _ _) rfl ?_
    exact Keeps.refl _ _
  · exact Keeps.refl _ _

theorem flitTries_keeps : ∀ a0 a1 a2 a3 a4 a5 a6 a7, Keeps 256605948 a7 (flitTries a0 a1 a2 a3 a4 a5 a6 a7).2 := by
  intro a0 a1 a2 a3 a4 a5 a6 a7
  induction a5 generalizing a0 a1 a2 a3 a4 a6 a7 with
  | zero =>
    rw [flitTries.eq_1]
    exact Keeps.refl _ _
  | succ n ih =>
    rw [flitTries.eq_2]
    split
    · refine Keeps.via (linkSymbols_keeps _ _ _ _) rfl ?_
      exact Keeps.refl _ _
    · refine Keeps.via (routerFixes_keeps _ _ _ _) rfl ?_
      refine Keeps.via (linkSymbols_keeps _ _ _ _) rfl ?_
      exact Keeps.refl _ _
    · refine Keeps.ite2 ?_ ?_
      · refine Keeps.via (drawn_keeps _) rfl ?_
        refine Keeps.via (linkSymbols_keeps _ _ _ _) rfl ?_
        exact Keeps.refl _ _
      · refine Keeps.via (ih _ _ _ _ _ _ _) rfl ?_
        refine Keeps.ite ?_ ?_
        · refine Keeps.ite ?_ ?_
          · refine Keeps.via (drawn_keeps _) rfl ?_
            refine Keeps.via (linkSymbols_keeps _ _ _ _) rfl ?_
            exact Keeps.refl _ _
          · refine Keeps.via (linkSymbols_keeps _ _ _ _) rfl ?_
            exact Keeps.refl _ _
        · refine Keeps.via (routerCount_keeps _ _ _ _ _) rfl ?_
          refine Keeps.ite ?_ ?_
          · refine Keeps.via (drawn_keeps _) rfl ?_
            refine Keeps.via (linkSymbols_keeps _ _ _ _) rfl ?_
            exact Keeps.refl _ _
          · refine Keeps.via (linkSymbols_keeps _ _ _ _) rfl ?_
            exact Keeps.refl _ _

theorem accessFlitArrive_keeps : ∀ a0 a1 a2 a3 a4 a5 a6 a7, Keeps 256605948 a0 (accessFlitArrive a0 a1 a2 a3 a4 a5 a6 a7) := by
  intro a0 a1 a2 a3 a4 a5 a6 a7
  unfold accessFlitArrive
  split
  · rename_i y1_0 h1
    have k1 : Keeps 256605948 a0 y1_0 := by
      refine Keeps.snd h1 ?_
      refine Keeps.via (flitTries_keeps _ _ _ _ _ _ _ _) rfl ?_
      refine Keeps.via (wakeIsland_keeps _ _) rfl ?_
      exact Keeps.refl _ _
    exact k1
  · rename_i y2_0 h2
    have k2 : Keeps 256605948 a0 y2_0 := by
      refine Keeps.snd h2 ?_
      refine Keeps.via (flitTries_keeps _ _ _ _ _ _ _ _) rfl ?_
      refine Keeps.via (wakeIsland_keeps _ _) rfl ?_
      exact Keeps.refl _ _
    refine Keeps.via (setCore_keeps _ _ _) rfl ?_
    exact k2
  · rename_i y3_0 h3
    have k3 : Keeps 256605948 a0 y3_0 := by
      refine Keeps.snd h3 ?_
      refine Keeps.via (flitTries_keeps _ _ _ _ _ _ _ _) rfl ?_
      refine Keeps.via (wakeIsland_keeps _ _) rfl ?_
      exact Keeps.refl _ _
    refine Keeps.via (setCore_keeps _ _ _) rfl ?_
    refine Keeps.via (recordLost_keeps _ _ _ _) rfl ?_
    refine Keeps.via (routerCount_keeps _ _ _ _ _) rfl ?_
    exact k3

theorem setConn_keeps : ∀ a0 a1, Keeps 134217728 a0 (setConn a0 a1) := by
  intro a0 a1
  unfold setConn
  refine Keeps.via (setJct_keeps _ _) rfl ?_
  exact Keeps.refl _ _

theorem pumpConn_keeps : ∀ a0 a1 a2 a3, Keeps 134217728 a1 (pumpConn a0 a1 a2 a3) := by
  intro a0 a1 a2 a3
  induction a0 generalizing a1 a2 a3 with
  | zero =>
    rw [pumpConn.eq_1]
    exact Keeps.refl _ _
  | succ n ih =>
    rw [pumpConn.eq_2]
    split
    · exact Keeps.refl _ _
    · try dsimp -proj only
      split
      · exact Keeps.refl _ _
      · refine Keeps.ite ?_ ?_
        · exact Keeps.refl _ _
        · refine Keeps.via (ih _ _ _) rfl ?_
          refine Keeps.via (setConn_keeps _ _) rfl ?_
          refine Keeps.via (sendFrame_keeps _ _) rfl ?_
          exact Keeps.refl _ _

theorem ackUpTo_keeps : ∀ a0 a1 a2 a3 a4 a5, Keeps 134217728 a0 (ackUpTo a0 a1 a2 a3 a4 a5) := by
  intro a0 a1 a2 a3 a4 a5
  unfold ackUpTo
  split
  · exact Keeps.refl _ _
  · refine Keeps.ite ?_ ?_
    · exact Keeps.refl _ _
    · refine Keeps.via (pumpConn_keeps _ _ _ _) rfl ?_
      refine Keeps.via (setConn_keeps _ _) rfl ?_
      exact Keeps.refl _ _

theorem park_keeps : ∀ a0 a1, Keeps 80 a0 (park a0 a1) := by
  intro a0 a1
  unfold park
  refine Keeps.foldl (fun x1 _ => ?_) ?_
  · refine Keeps.via (bump_keeps _ _ _ _ _) rfl ?_
    refine Keeps.ite ?_ ?_
    · exact Keeps.refl _ _
    · refine Keeps.via (bump_keeps _ _ _ _ _) rfl ?_
      exact Keeps.refl _ _
  · refine Keeps.put_sbx ?_ rfl _
    exact Keeps.refl _ _

theorem quarantine_keeps : ∀ a0 a1 a2, Keeps 216 a0 (quarantine a0 a1 a2) := by
  intro a0 a1 a2
  unfold quarantine
  split
  · exact Keeps.refl _ _
  · refine Keeps.foldl (fun x1 _ => ?_) ?_
    · refine Keeps.ite ?_ ?_
      · exact Keeps.refl _ _
      · refine Keeps.via (park_keeps _ _) rfl ?_
        exact Keeps.refl _ _
    · refine Keeps.put_stn ?_ rfl _
      refine Keeps.put_dev ?_ rfl _
      exact Keeps.refl _ _

theorem fenceTicket_keeps : ∀ a0 a1 a2 a3, Keeps 37845208 a0 (fenceTicket a0 a1 a2 a3) := by
  intro a0 a1 a2 a3
  unfold fenceTicket
  split
  · exact Keeps.refl _ _
  · refine Keeps.via (dropCtx_keeps _ _) rfl ?_
    refine Keeps.via (modEntry_keeps _ _ _) rfl ?_
    refine Keeps.via (quarantine_keeps _ _ _) rfl ?_
    refine Keeps.via (zeroWritten_keeps _ _ _) rfl ?_
    exact Keeps.refl _ _

theorem flushFence_keeps : ∀ a0 a1, Keeps 256080604 a0 (flushFence a0 a1) := by
  intro a0 a1
  unfold flushFence
  refine Keeps.via (finishTicket_keeps _ _) rfl ?_
  refine Keeps.via (fenceTicket_keeps _ _ _ _) rfl ?_
  refine Keeps.via (drawn_keeps _) rfl ?_
  exact Keeps.refl _ _

theorem cancelInjections_keeps : ∀ a0, Keeps 524288 a0 (cancelInjections a0) := by
  intro a0
  unfold cancelInjections
  refine Keeps.via (setTst_keeps _ _) rfl ?_
  exact Keeps.refl _ _

theorem enterFlush_keeps : ∀ a0, Keeps 256604892 a0 (enterFlush a0) := by
  intro a0
  unfold enterFlush
  refine Keeps.foldl (fun x1 _ => ?_) ?_
  · refine Keeps.via (flushFence_keeps _ _) rfl ?_
    exact Keeps.refl _ _
  · refine Keeps.via (cancelInjections_keeps _) rfl ?_
    refine Keeps.put_sbx ?_ rfl _
    exact Keeps.refl _ _

theorem setLink_keeps : ∀ a0 a1 a2, Keeps 67108864 a0 (setLink a0 a1 a2) := by
  intro a0 a1 a2
  unfold setLink
  refine Keeps.via (setHif_keeps _ _) rfl ?_
  exact Keeps.refl _ _

theorem setBoot_keeps : ∀ a0 a1, Keeps 131072 a0 (setBoot a0 a1) := by
  intro a0 a1
  unfold setBoot
  refine Keeps.put_boot ?_ rfl _
  exact Keeps.refl _ _

theorem floodFrame_keeps : ∀ a0 a1, Keeps 134217728 a0 (floodFrame a0 a1) := by
  intro a0 a1
  unfold floodFrame
  refine Keeps.via (setJct_keeps _ _) rfl ?_
  exact Keeps.refl _ _

theorem sendHeartbeats_keeps : ∀ a0 a1, Keeps 134217728 a0 (sendHeartbeats a0 a1) := by
  intro a0 a1
  unfold sendHeartbeats
  refine Keeps.via (floodFrame_keeps _ _) rfl ?_
  exact Keeps.refl _ _

theorem leaveFed_keeps : ∀ a0, Keeps 134217728 a0 (leaveFed a0) := by
  intro a0
  unfold leaveFed
  refine Keeps.ite ?_ ?_
  · refine Keeps.via (setJct_keeps _ _) rfl ?_
    refine Keeps.via (sendHeartbeats_keeps _ _) rfl ?_
    exact Keeps.refl _ _
  · exact Keeps.refl _ _

theorem dropOutside_keeps : ∀ a0, Keeps 201457664 a0 (dropOutside a0) := by
  intro a0
  unfold dropOutside
  refine Keeps.via (setLink_keeps _ _ _) rfl ?_
  refine Keeps.via (setLink_keeps _ _ _) rfl ?_
  refine Keeps.via (leaveFed_keeps _) rfl ?_
  refine Keeps.via (setBoot_keeps _ _) rfl ?_
  exact Keeps.refl _ _

theorem beginEntry_keeps : ∀ a0 a1, Keeps 256604892 a0 (beginEntry a0 a1) := by
  intro a0 a1
  unfold beginEntry
  refine Keeps.ite ?_ ?_
  · exact Keeps.refl _ _
  · refine Keeps.via (dropOutside_keeps _) rfl ?_
    refine Keeps.via (enterFlush_keeps _) rfl ?_
    refine Keeps.via (setBoot_keeps _ _) rfl ?_
    exact Keeps.refl _ _

theorem activateNow_keeps : ∀ a0, Keeps 256604892 a0 (activateNow a0) := by
  intro a0
  unfold activateNow
  refine Keeps.ite ?_ ?_
  · refine Keeps.via (beginEntry_keeps _ _) rfl ?_
    exact Keeps.refl _ _
  · exact Keeps.refl _ _

theorem setUpd_keeps : ∀ a0 a1, Keeps 262144 a0 (setUpd a0 a1) := by
  intro a0 a1
  unfold setUpd
  refine Keeps.put_upd ?_ rfl _
  exact Keeps.refl _ _

theorem writePtr_keeps : ∀ a0 a1, Keeps 262144 a0 (writePtr a0 a1) := by
  intro a0 a1
  unfold writePtr
  refine Keeps.via (setUpd_keeps _ _) rfl ?_
  exact Keeps.refl _ _

theorem activateSlot_keeps : ∀ a0 a1, Keeps 262144 a0 (activateSlot a0 a1) := by
  intro a0 a1
  unfold activateSlot
  refine Keeps.via (setUpd_keeps _ _) rfl ?_
  refine Keeps.via (writePtr_keeps _ _) rfl ?_
  exact Keeps.refl _ _

theorem addCmd_keeps : ∀ a0 a1, Keeps 67108864 a0 (addCmd a0 a1) := by
  intro a0 a1
  unfold addCmd
  refine Keeps.via (setHif_keeps _ _) rfl ?_
  exact Keeps.refl _ _

theorem addRecv_keeps : ∀ a0 a1 a2, Keeps 134217728 a0 (addRecv a0 a1 a2) := by
  intro a0 a1 a2
  unfold addRecv
  refine Keeps.via (setJct_keeps _ _) rfl ?_
  exact Keeps.refl _ _

theorem setInbox_keeps : ∀ a0 a1 a2, Keeps 128 a0 (setInbox a0 a1 a2) := by
  intro a0 a1 a2
  unfold setInbox
  refine Keeps.put_stn ?_ rfl _
  exact Keeps.refl _ _

theorem enqueue_keeps : ∀ a0 a1 a2, Keeps 128 a0 (enqueue a0 a1 a2) := by
  intro a0 a1 a2
  unfold enqueue
  refine Keeps.via (setInbox_keeps _ _ _) rfl ?_
  exact Keeps.refl _ _

theorem wakeFor_keeps : ∀ a0 a1, Keeps 1024 a0 (wakeFor a0 a1) := by
  intro a0 a1
  unfold wakeFor
  refine Keeps.ite ?_ ?_
  · exact Keeps.refl _ _
  · refine Keeps.via (wakeIsland_keeps _ _) rfl ?_
    exact Keeps.refl _ _

theorem startAt_keeps : ∀ a0 a1 a2, Keeps 1152 a0 (startAt a0 a1 a2) := by
  intro a0 a1 a2
  unfold startAt
  refine Keeps.via (wakeFor_keeps _ _) rfl ?_
  refine Keeps.via (enqueue_keeps _ _ _) rfl ?_
  exact Keeps.refl _ _

theorem junctionAdmitted_keeps : ∀ a0 a1, Keeps 134217728 a0 (junctionAdmitted a0 a1) := by
  intro a0 a1
  unfold junctionAdmitted
  refine Keeps.via (recvStatus_keeps _ _ _ _) rfl ?_
  exact Keeps.refl _ _

theorem admitJunction_keeps : ∀ a0 a1, Keeps 134217728 a0 (admitJunction a0 a1) := by
  intro a0 a1
  unfold admitJunction
  split
  · refine Keeps.via (junctionAdmitted_keeps _ _) rfl ?_
    exact Keeps.refl _ _
  · exact Keeps.refl _ _

theorem setFtl_keeps : ∀ a0 a1, Keeps 16777216 a0 (setFtl a0 a1) := by
  intro a0 a1
  unfold setFtl
  refine Keeps.put_ftl ?_ rfl _
  exact Keeps.refl _ _

theorem enterDram_keeps : ∀ a0 a1, Keeps 16777216 a0 (enterDram a0 a1) := by
  intro a0 a1
  unfold enterDram
  refine Keeps.via (setFtl_keeps _ _) rfl ?_
  exact Keeps.refl _ _

theorem evictOne_keeps : ∀ a0, Keeps 16777216 a0 (evictOne a0) := by
  intro a0
  unfold evictOne
  split
  · exact Keeps.refl _ _
  · refine Keeps.ite ?_ ?_
    · refine Keeps.via (enterDram_keeps _ _) rfl ?_
      refine Keeps.via (setFtl_keeps _ _) rfl ?_
      exact Keeps.refl _ _
    · refine Keeps.via (setFtl_keeps _ _) rfl ?_
      exact Keeps.refl _ _

theorem cachePage_keeps : ∀ a0 a1, Keeps 16777216 a0 (cachePage a0 a1) := by
  intro a0 a1
  unfold cachePage
  refine Keeps.foldl (fun x1 _ => ?_) ?_
  · refine Keeps.via (evictOne_keeps _) rfl ?_
    exact Keeps.refl _ _
  · refine Keeps.via (setFtl_keeps _ _) rfl ?_
    exact Keeps.refl _ _

theorem resolveMap_keeps : ∀ a0 a1, Keeps 16777232 a0 (resolveMap a0 a1) := by
  intro a0 a1
  unfold resolveMap
  refine Keeps.ite ?_ ?_
  · refine Keeps.via (cachePage_keeps _ _) rfl ?_
    refine Keeps.via (bump_keeps _ _ _ _ _) rfl ?_
    exact Keeps.refl _ _
  · refine Keeps.via (cachePage_keeps _ _) rfl ?_
    refine Keeps.via (cachePage_keeps _ _) rfl ?_
    refine Keeps.via (bump_keeps _ _ _ _ _) rfl ?_
    exact Keeps.refl _ _

theorem setBg_keeps : ∀ a0 a1 a2, Keeps 16777216 a0 (setBg a0 a1 a2) := by
  intro a0 a1 a2
  unfold setBg
  refine Keeps.via (setFtl_keeps _ _) rfl ?_
  exact Keeps.refl _ _

theorem payErases_keeps : ∀ a0 a1, Keeps 16777216 a0 (payErases a0 a1) := by
  intro a0 a1
  unfold payErases
  refine Keeps.foldl (fun x1 _ => ?_) ?_
  · refine Keeps.via (setBg_keeps _ _ _) rfl ?_
    exact Keeps.refl _ _
  · exact Keeps.refl _ _

theorem book_keeps : ∀ a0 a1 a2, Keeps 1024 a0 (book a0 a1 a2) := by
  intro a0 a1 a2
  unfold book
  refine Keeps.via (setPwr_keeps _ _) rfl ?_
  exact Keeps.refl _ _

theorem endAtAdmission_keeps : ∀ a0 a1 a2 a3 a4, Keeps 256081624 a0 (endAtAdmission a0 a1 a2 a3 a4) := by
  intro a0 a1 a2 a3 a4
  unfold endAtAdmission
  refine Keeps.ite ?_ ?_
  · refine Keeps.via (finishTicket_keeps _ _) rfl ?_
    refine Keeps.via (report_keeps _ _ _ _) rfl ?_
    exact Keeps.refl _ _
  · refine Keeps.via (failAt_keeps _ _ _ _ _) rfl ?_
    refine Keeps.via (report_keeps _ _ _ _) rfl ?_
    exact Keeps.refl _ _

theorem tryAdmit_keeps : ∀ a0 a1, Keeps 256081624 a0 (tryAdmit a0 a1) := by
  intro a0 a1
  unfold tryAdmit
  split
  · exact Keeps.refl _ _
  · refine Keeps.ite ?_ ?_
    · exact Keeps.refl _ _
    · split
      · exact Keeps.refl _ _
      · refine Keeps.ite ?_ ?_
        · refine Keeps.via (setEntry_keeps _ _ _) rfl ?_
          exact Keeps.refl _ _
        · refine Keeps.ite ?_ ?_
          · exact Keeps.refl _ _
          · refine Keeps.ite ?_ ?_
            · exact Keeps.refl _ _
            · refine Keeps.ite ?_ ?_
              · refine Keeps.via (endAtAdmission_keeps _ _ _ _ _) rfl ?_
                exact Keeps.refl _ _
              · refine Keeps.ite ?_ ?_
                · refine Keeps.via (endAtAdmission_keeps _ _ _ _ _) rfl ?_
                  exact Keeps.refl _ _
                · refine Keeps.ite ?_ ?_
                  · refine Keeps.via (endAtAdmission_keeps _ _ _ _ _) rfl ?_
                    exact Keeps.refl _ _
                  · try dsimp -proj only
                    split
                    · refine Keeps.via (admitJunction_keeps _ _) rfl ?_
                      refine Keeps.via (setEntry_keeps _ _ _) rfl ?_
                      refine Keeps.put_sbx ?_ rfl _
                      refine Keeps.foldl (fun x1 _ => ?_) ?_
                      · refine Keeps.via (resolveMap_keeps _ _) rfl ?_
                        exact Keeps.refl _ _
                      · refine Keeps.ite ?_ ?_
                        · refine Keeps.via (bump_keeps _ _ _ _ _) rfl ?_
                          refine Keeps.foldl (fun x2 _ => ?_) ?_
                          · refine Keeps.via (book_keeps _ _ _) rfl ?_
                            exact Keeps.refl _ _
                          · refine Keeps.ite ?_ ?_
                            · refine Keeps.via (payErases_keeps _ _) rfl ?_
                              exact Keeps.refl _ _
                            · exact Keeps.refl _ _
                        · refine Keeps.foldl (fun x3 _ => ?_) ?_
                          · refine Keeps.via (book_keeps _ _ _) rfl ?_
                            exact Keeps.refl _ _
                          · refine Keeps.ite ?_ ?_
                            · refine Keeps.via (payErases_keeps _ _) rfl ?_
                              exact Keeps.refl _ _
                            · exact Keeps.refl _ _
                    · refine Keeps.ite ?_ ?_
                      · refine Keeps.foldl (fun x4 _ => ?_) ?_
                        · refine Keeps.via (startAt_keeps _ _ _) rfl ?_
                          exact Keeps.refl _ _
                        · refine Keeps.via (admitJunction_keeps _ _) rfl ?_
                          refine Keeps.via (setEntry_keeps _ _ _) rfl ?_
                          refine Keeps.put_sbx ?_ rfl _
                          refine Keeps.foldl (fun x5 _ => ?_) ?_
                          · refine Keeps.via (resolveMap_keeps _ _) rfl ?_
                            exact Keeps.refl _ _
                          · refine Keeps.ite ?_ ?_
                            · refine Keeps.via (bump_keeps _ _ _ _ _) rfl ?_
                              refine Keeps.foldl (fun x6 _ => ?_) ?_
                              · refine Keeps.via (book_keeps _ _ _) rfl ?_
                                exact Keeps.refl _ _
                              · refine Keeps.ite ?_ ?_
                                · refine Keeps.via (payErases_keeps _ _) rfl ?_
                                  exact Keeps.refl _ _
                                · exact Keeps.refl _ _
                            · refine Keeps.foldl (fun x7 _ => ?_) ?_
                              · refine Keeps.via (book_keeps _ _ _) rfl ?_
                                exact Keeps.refl _ _
                              · refine Keeps.ite ?_ ?_
                                · refine Keeps.via (payErases_keeps _ _) rfl ?_
                                  exact Keeps.refl _ _
                                · exact Keeps.refl _ _
                      · refine Keeps.via (startAt_keeps _ _ _) rfl ?_
                        refine Keeps.via (admitJunction_keeps _ _) rfl ?_
                        refine Keeps.via (setEntry_keeps _ _ _) rfl ?_
                        refine Keeps.put_sbx ?_ rfl _
                        refine Keeps.foldl (fun x8 _ => ?_) ?_
                        · refine Keeps.via (resolveMap_keeps _ _) rfl ?_
                          exact Keeps.refl _ _
                        · refine Keeps.ite ?_ ?_
                          · refine Keeps.via (bump_keeps _ _ _ _ _) rfl ?_
                            refine Keeps.foldl (fun x9 _ => ?_) ?_
                            · refine Keeps.via (book_keeps _ _ _) rfl ?_
                              exact Keeps.refl _ _
                            · refine Keeps.ite ?_ ?_
                              · refine Keeps.via (payErases_keeps _ _) rfl ?_
                                exact Keeps.refl _ _
                              · exact Keeps.refl _ _
                          · refine Keeps.foldl (fun x10 _ => ?_) ?_
                            · refine Keeps.via (book_keeps _ _ _) rfl ?_
                              exact Keeps.refl _ _
                            · refine Keeps.ite ?_ ?_
                              · refine Keeps.via (payErases_keeps _ _) rfl ?_
                                exact Keeps.refl _ _
                              · exact Keeps.refl _ _

theorem admitOne_keeps : ∀ a0 a1 a2, Keeps 256081624 a0 (admitOne a0 a1 a2).1 := by
  intro a0 a1 a2
  unfold admitOne
  refine Keeps.via (tryAdmit_keeps _ _) rfl ?_
  exact Keeps.refl _ _

theorem admitGroup_keeps : ∀ a0 a1 a2, Keeps 256081624 a0 (admitGroup a0 a1 a2).1 := by
  intro a0 a1 a2
  unfold admitGroup
  refine Keeps.foldl1 (fun x1 _ => ?_) ?_
  · refine Keeps.via (admitOne_keeps _ _ _) rfl ?_
    exact Keeps.refl _ _
  · exact Keeps.refl _ _

theorem advanceZone_keeps : ∀ a0 a1 a2 a3 a4, Keeps 16777216 a0 (advanceZone a0 a1 a2 a3 a4) := by
  intro a0 a1 a2 a3 a4
  unfold advanceZone
  refine Keeps.via (setZone_keeps _ _ _ _) rfl ?_
  exact Keeps.refl _ _

theorem ageWaiting_keeps : ∀ a0, Keeps 64 a0 (ageWaiting a0) := by
  intro a0
  unfold ageWaiting
  refine Keeps.put_sbx ?_ rfl _
  exact Keeps.refl _ _

theorem judgeFold_keeps : ∀ a0, Keeps 16777216 a0 (judgeFold a0) := by
  intro a0
  unfold judgeFold
  refine Keeps.via (setFtl_keeps _ _) rfl ?_
  exact Keeps.refl _ _

theorem setFch_keeps : ∀ a0 a1, Keeps 8388608 a0 (setFch a0 a1) := by
  intro a0 a1
  unfold setFch
  refine Keeps.put_fch ?_ rfl _
  exact Keeps.refl _ _

theorem setChan_keeps : ∀ a0 a1 a2, Keeps 8388608 a0 (setChan a0 a1 a2) := by
  intro a0 a1 a2
  unfold setChan
  refine Keeps.via (setFch_keeps _ _) rfl ?_
  exact Keeps.refl _ _

theorem beginErase_keeps : ∀ a0 a1 a2, Keeps 8388608 a0 (beginErase a0 a1 a2) := by
  intro a0 a1 a2
  unfold beginErase
  refine Keeps.foldl (fun x1 _ => ?_) ?_
  · refine Keeps.via (setChan_keeps _ _ _) rfl ?_
    exact Keeps.refl _ _
  · exact Keeps.refl _ _

theorem eraseAgain_keeps : ∀ a0 a1, Keeps 25166848 a0 (eraseAgain a0 a1) := by
  intro a0 a1
  unfold eraseAgain
  refine Keeps.ite ?_ ?_
  · refine Keeps.via (setBg_keeps _ _ _) rfl ?_
    refine Keeps.via (beginErase_keeps _ _ _) rfl ?_
    refine Keeps.via (book_keeps _ _ _) rfl ?_
    exact Keeps.refl _ _
  · exact Keeps.refl _ _

theorem openGroup_keeps : ∀ a0 a1 a2, Keeps 25166848 a0 (openGroup a0 a1 a2) := by
  intro a0 a1 a2
  unfold openGroup
  refine Keeps.ite ?_ ?_
  · exact Keeps.refl _ _
  · try dsimp -proj only
    split
    · exact Keeps.refl _ _
    · refine Keeps.via (judgeFold_keeps _) rfl ?_
      refine Keeps.via (setBg_keeps _ _ _) rfl ?_
      refine Keeps.via (eraseAgain_keeps _ _) rfl ?_
      exact Keeps.refl _ _

theorem allocPage_keeps : ∀ s ch d x y g p t, allocPage s ch d x y = some (g, p, t) → Keeps 25166848 s t := by
  intro s ch d x y g p t h
  unfold allocPage at h
  obtain ⟨k, -, hk⟩ := Option.map_eq_some_iff.1 h
  cases hk
  refine Keeps.via (setFtl_keeps _ _) rfl ?_
  refine Keeps.ite ?_ ?_
  · exact Keeps.refl _ _
  · exact (openGroup_keeps _ _ _).mono rfl

theorem setDrc_keeps : ∀ a0 a1, Keeps 33554432 a0 (setDrc a0 a1) := by
  intro a0 a1
  unfold setDrc
  refine Keeps.put_drc ?_ rfl _
  exact Keeps.refl _ _

theorem setDram_keeps : ∀ a0 a1 a2, Keeps 33554432 a0 (setDram a0 a1 a2) := by
  intro a0 a1 a2
  unfold setDram
  refine Keeps.via (setDrc_keeps _ _) rfl ?_
  exact Keeps.refl _ _

theorem applyRate_keeps : ∀ a0 a1, Keeps 33554432 a0 (applyRate a0 a1) := by
  intro a0 a1
  unfold applyRate
  try dsimp -proj only
  split
  · refine Keeps.ite ?_ ?_
    · refine Keeps.via (setDram_keeps _ _ _) rfl ?_
      exact Keeps.refl _ _
    · split
      · refine Keeps.ite ?_ ?_
        · refine Keeps.via (setDram_keeps _ _ _) rfl ?_
          exact Keeps.refl _ _
        · refine Keeps.via (setDram_keeps _ _ _) rfl ?_
          exact Keeps.refl _ _
      · refine Keeps.via (setDram_keeps _ _ _) rfl ?_
        exact Keeps.refl _ _
  · refine Keeps.ite ?_ ?_
    · refine Keeps.via (setDram_keeps _ _ _) rfl ?_
      exact Keeps.refl _ _
    · split
      · refine Keeps.ite ?_ ?_
        · refine Keeps.via (setDram_keeps _ _ _) rfl ?_
          exact Keeps.refl _ _
        · refine Keeps.via (setDram_keeps _ _ _) rfl ?_
          exact Keeps.refl _ _
      · refine Keeps.via (setDram_keeps _ _ _) rfl ?_
        exact Keeps.refl _ _
  · refine Keeps.via (setDram_keeps _ _ _) rfl ?_
    exact Keeps.refl _ _

theorem setTru_keeps : ∀ a0 a1, Keeps 1048576 a0 (setTru a0 a1) := by
  intro a0 a1
  unfold setTru
  refine Keeps.put_tru ?_ rfl _
  exact Keeps.refl _ _

theorem extendMeas_keeps : ∀ a0 a1 a2, Keeps 1048576 a0 (extendMeas a0 a1 a2) := by
  intro a0 a1 a2
  unfold extendMeas
  refine Keeps.via (setTru_keeps _ _) rfl ?_
  exact Keeps.refl _ _

theorem startUnit_keeps : ∀ a0 a1 a2, Keeps 8 a0 (startUnit a0 a1 a2) := by
  intro a0 a1 a2
  unfold startUnit
  refine Keeps.via (setUnit_keeps _ _ _) rfl ?_
  exact Keeps.refl _ _

theorem applyStream_keeps : ∀ a0 a1 a2, Keeps 1049864 a0 (applyStream a0 a1 a2) := by
  intro a0 a1 a2
  unfold applyStream
  refine Keeps.via (extendMeas_keeps _ _ _) rfl ?_
  refine Keeps.put_cfg ?_ rfl _
  refine Keeps.via (setPwr_keeps _ _) rfl ?_
  refine Keeps.foldl (fun x1 _ => ?_) ?_
  · refine Keeps.via (startUnit_keeps _ _ _) rfl ?_
    exact Keeps.refl _ _
  · exact Keeps.refl _ _

theorem redeliver_keeps : ∀ a0 a1, Keeps 33556512 a0 (redeliver a0 a1) := by
  intro a0 a1
  unfold redeliver
  refine Keeps.foldl (fun x1 _ => ?_) ?_
  · refine Keeps.via (deliver_keeps _ _ _) rfl ?_
    exact Keeps.refl _ _
  · refine Keeps.put_evr ?_ rfl _
    exact Keeps.refl _ _

theorem areasBegin_keeps : ∀ a0 a1, Keeps 33556512 a1 (areasBegin a0 a1) := by
  intro a0 a1
  unfold areasBegin
  refine Keeps.foldl (fun x1 _ => ?_) ?_
  · refine Keeps.ite ?_ ?_
    · refine Keeps.via (redeliver_keeps _ _) rfl ?_
      exact Keeps.refl _ _
    · exact Keeps.refl _ _
  · exact Keeps.refl _ _

theorem coreStopOp_keeps : ∀ a0 a1, Keeps 16384 a0 (coreStopOp a0 a1) := by
  intro a0 a1
  unfold coreStopOp
  try dsimp -proj only
  split
  · refine Keeps.ite ?_ ?_
    · refine Keeps.via (setCore_keeps _ _ _) rfl ?_
      exact Keeps.refl _ _
    · refine Keeps.via (setCore_keeps _ _ _) rfl ?_
      exact Keeps.refl _ _
  · refine Keeps.via (setCore_keeps _ _ _) rfl ?_
    exact Keeps.refl _ _
  · refine Keeps.via (setCore_keeps _ _ _) rfl ?_
    exact Keeps.refl _ _
  · exact Keeps.refl _ _

theorem coreStartOp_keeps : ∀ a0 a1 a2, Keeps 16384 a0 (coreStartOp a0 a1 a2) := by
  intro a0 a1 a2
  unfold coreStartOp
  refine Keeps.ite ?_ ?_
  · refine Keeps.via (setCore_keeps _ _ _) rfl ?_
    exact Keeps.refl _ _
  · exact Keeps.refl _ _

theorem coreCommand_keeps : ∀ a0 a1, Keeps 16384 a0 (coreCommand a0 a1) := by
  intro a0 a1
  unfold coreCommand
  refine Keeps.ite ?_ ?_
  · refine Keeps.via (coreStartOp_keeps _ _ _) rfl ?_
    exact Keeps.refl _ _
  · refine Keeps.via (coreStopOp_keeps _ _) rfl ?_
    exact Keeps.refl _ _

theorem setEff_keeps : ∀ a0 a1 a2 a3 a4, Keeps 16 a0 (setEff a0 a1 a2 a3 a4) := by
  intro a0 a1 a2 a3 a4
  unfold setEff
  refine Keeps.put_regs ?_ rfl _
  exact Keeps.refl _ _

theorem setKey_keeps : ∀ a0 a1, Keeps 4096 a0 (setKey a0 a1) := by
  intro a0 a1
  unfold setKey
  refine Keeps.put_key ?_ rfl _
  exact Keeps.refl _ _

theorem keyResult_keeps : ∀ a0 a1 a2 a3, Keeps 16 a0 (keyResult a0 a1 a2 a3) := by
  intro a0 a1 a2 a3
  unfold keyResult
  refine Keeps.ite ?_ ?_
  · exact Keeps.refl _ _
  · refine Keeps.via (setLive_keeps _ _ _ _ _) rfl ?_
    refine Keeps.via (setLive_keeps _ _ _ _ _) rfl ?_
    refine Keeps.via (setLive_keeps _ _ _ _ _) rfl ?_
    exact Keeps.refl _ _

theorem keyAnswer_keeps : ∀ a0 a1 a2, Keeps 84107280 a0 (keyAnswer a0 a1 a2) := by
  intro a0 a1 a2
  unfold keyAnswer
  split
  · refine Keeps.ite ?_ ?_
    · exact Keeps.refl _ _
    · refine Keeps.via (keyResult_keeps _ _ _ _) rfl ?_
      exact Keeps.refl _ _
  · refine Keeps.via (cmdPart_keeps _ _ _ _ _ _ _ _) rfl ?_
    exact Keeps.refl _ _
  · exact Keeps.refl _ _

theorem keyAsk_keeps : ∀ a0 a1, Keeps 84111376 a0 (keyAsk a0 a1) := by
  intro a0 a1
  unfold keyAsk
  refine Keeps.ite ?_ ?_
  · refine Keeps.via (keyAnswer_keeps _ _ _) rfl ?_
    exact Keeps.refl _ _
  · refine Keeps.ite ?_ ?_
    · refine Keeps.via (keyAnswer_keeps _ _ _) rfl ?_
      exact Keeps.refl _ _
    · refine Keeps.via (setKey_keeps _ _) rfl ?_
      exact Keeps.refl _ _

theorem logClose_keeps : ∀ a0 a1, Keeps 8192 a0 (logClose a0 a1) := by
  intro a0 a1
  unfold logClose
  refine Keeps.via (hostRaw_keeps _ _ _ _ _) rfl ?_
  refine Keeps.foldl (fun x1 _ => ?_) ?_
  · refine Keeps.via (hostRaw_keeps _ _ _ _ _) rfl ?_
    exact Keeps.refl _ _
  · exact Keeps.refl _ _

theorem logStop_keeps : ∀ a0 a1, Keeps 73728 a0 (logStop a0 a1) := by
  intro a0 a1
  unfold logStop
  refine Keeps.ite ?_ ?_
  · exact Keeps.refl _ _
  · refine Keeps.via (setInst_keeps _ _ _) rfl ?_
    refine Keeps.via (logClose_keeps _ _) rfl ?_
    exact Keeps.refl _ _

theorem tdiDisturb_keeps : ∀ a0 a1, Keeps 1048576 a0 (tdiDisturb a0 a1) := by
  intro a0 a1
  unfold tdiDisturb
  split
  · refine Keeps.put_tru ?_ rfl _
    exact Keeps.refl _ _
  · refine Keeps.put_tru ?_ rfl _
    exact Keeps.refl _ _
  · exact Keeps.refl _ _

theorem logStart_keeps : ∀ a0 a1 a2 a3 a4 a5, Keeps 1114112 a0 (logStart a0 a1 a2 a3 a4 a5) := by
  intro a0 a1 a2 a3 a4 a5
  unfold logStart
  refine Keeps.via (setInst_keeps _ _ _) rfl ?_
  refine Keeps.via (tdiDisturb_keeps _ _) rfl ?_
  exact Keeps.refl _ _

theorem logTurn_keeps : ∀ a0 a1 a2, Keeps 1122304 a0 (logTurn a0 a1 a2) := by
  intro a0 a1 a2
  unfold logTurn
  refine Keeps.ite ?_ ?_
  · refine Keeps.via (logStart_keeps _ _ _ _ _ _) rfl ?_
    exact Keeps.refl _ _
  · refine Keeps.ite ?_ ?_
    · refine Keeps.via (logStop_keeps _ _) rfl ?_
      exact Keeps.refl _ _
    · exact Keeps.refl _ _

theorem rateChange_keeps : ∀ a0 a1, Keeps 33554432 a0 (rateChange a0 a1) := by
  intro a0 a1
  unfold rateChange
  refine Keeps.ite ?_ ?_
  · refine Keeps.via (setDram_keeps _ _ _) rfl ?_
    exact Keeps.refl _ _
  · refine Keeps.via (applyRate_keeps _ _) rfl ?_
    exact Keeps.refl _ _

theorem setFeed_keeps : ∀ a0 a1 a2, Keeps 2097152 a0 (setFeed a0 a1 a2) := by
  intro a0 a1 a2
  unfold setFeed
  refine Keeps.put_dgt ?_ rfl _
  exact Keeps.refl _ _

theorem arrayEffect_keeps : ∀ a0 a1 a2, Keeps 129200144 a1 (arrayEffect a0 a1 a2) := by
  intro a0 a1 a2
  unfold arrayEffect
  split
  · refine Keeps.via (setFeed_keeps _ _ _) rfl ?_
    exact Keeps.refl _ _
  · refine Keeps.ite ?_ ?_
    · exact Keeps.refl _ _
    · refine Keeps.via (rateChange_keeps _ _) rfl ?_
      exact Keeps.refl _ _
  · refine Keeps.ite ?_ ?_
    · exact Keeps.refl _ _
    · refine Keeps.via (setChan_keeps _ _ _) rfl ?_
      exact Keeps.refl _ _
  · refine Keeps.via (logTurn_keeps _ _ _) rfl ?_
    exact Keeps.refl _ _
  · split
    · refine Keeps.via (keyAsk_keeps _ _) rfl ?_
      exact Keeps.refl _ _
    · refine Keeps.via (setEff_keeps _ _ _ _ _) rfl ?_
      exact Keeps.refl _ _
    · refine Keeps.via (coreCommand_keeps _ _) rfl ?_
      exact Keeps.refl _ _
    · exact Keeps.refl _ _

theorem arriveFenced_keeps : ∀ a0 a1 a2, Keeps 80 a0 (arriveFenced a0 a1 a2) := by
  intro a0 a1 a2
  unfold arriveFenced
  refine Keeps.via (park_keeps _ _) rfl ?_
  exact Keeps.refl _ _

theorem askMeasurement_keeps : ∀ a0, Keeps 1024 a0 (askMeasurement a0) := by
  intro a0
  unfold askMeasurement
  refine Keeps.via (setPwr_keeps _ _) rfl ?_
  exact Keeps.refl _ _

theorem asyncEvent_keeps : ∀ a0 a1 a2 a3 a4, Keeps 67313664 a0 (asyncEvent a0 a1 a2 a3 a4) := by
  intro a0 a1 a2 a3 a4
  unfold asyncEvent
  split
  · exact Keeps.refl _ _
  · refine Keeps.via (postCqe_keeps _ _ _ _ _ _ _ _ _ _) rfl ?_
    refine Keeps.via (setCtrl_keeps _ _ _) rfl ?_
    exact Keeps.refl _ _

theorem nsChanged_keeps : ∀ a0 a1 a2, Keeps 67313664 a0 (nsChanged a0 a1 a2) := by
  intro a0 a1 a2
  unfold nsChanged
  refine Keeps.via (asyncEvent_keeps _ _ _ _ _) rfl ?_
  refine Keeps.via (setCtrl_keeps _ _ _) rfl ?_
  exact Keeps.refl _ _

theorem attachNs_keeps : ∀ a0 a1 a2, Keeps 85139456 a0 (attachNs a0 a1 a2) := by
  intro a0 a1 a2
  unfold attachNs
  split
  · exact Keeps.refl _ _
  · refine Keeps.via (nsChanged_keeps _ _ _) rfl ?_
    refine Keeps.ite ?_ ?_
    · refine Keeps.via (tdiDisturb_keeps _ _) rfl ?_
      refine Keeps.via (setFtl_keeps _ _) rfl ?_
      exact Keeps.refl _ _
    · refine Keeps.via (setFtl_keeps _ _) rfl ?_
      exact Keeps.refl _ _

theorem backInService_keeps : ∀ a0 a1, Keeps 33556536 a0 (backInService a0 a1) := by
  intro a0 a1
  unfold backInService
  refine Keeps.via (unitState_keeps _ _ _) rfl ?_
  exact Keeps.refl _ _

theorem injRequest_keeps : ∀ a0, Keeps 524288 a0 (injRequest a0) := by
  intro a0
  unfold injRequest
  refine Keeps.via (setTst_keeps _ _) rfl ?_
  exact Keeps.refl _ _

theorem setEvr_keeps : ∀ a0 a1, Keeps 32 a0 (setEvr a0 a1) := by
  intro a0 a1
  unfold setEvr
  refine Keeps.put_evr ?_ rfl _
  exact Keeps.refl _ _

theorem startClear_keeps : ∀ a0, Keeps 32 a0 (startClear a0) := by
  intro a0
  unfold startClear
  refine Keeps.via (setEvr_keeps _ _) rfl ?_
  exact Keeps.refl _ _

theorem confirmImage_keeps : ∀ a0, Keeps 262144 a0 (confirmImage a0) := by
  intro a0
  unfold confirmImage
  refine Keeps.ite ?_ ?_
  · refine Keeps.via (writePtr_keeps _ _) rfl ?_
    exact Keeps.refl _ _
  · exact Keeps.refl _ _

theorem stageRequest_keeps : ∀ a0, Keeps 262144 a0 (stageRequest a0) := by
  intro a0
  unfold stageRequest
  refine Keeps.via (setUpd_keeps _ _) rfl ?_
  exact Keeps.refl _ _

theorem measSecurity_keeps : ∀ a0, Keeps 1048576 a0 (measSecurity a0) := by
  intro a0
  unfold measSecurity
  refine Keeps.via (extendMeas_keeps _ _ _) rfl ?_
  exact Keeps.refl _ _

theorem burnFuses_keeps : ∀ a0, Keeps 1048576 a0 (burnFuses a0) := by
  intro a0
  unfold burnFuses
  refine Keeps.ite ?_ ?_
  · refine Keeps.via (measSecurity_keeps _) rfl ?_
    refine Keeps.via (setTru_keeps _ _) rfl ?_
    refine Keeps.ite ?_ ?_
    · exact Keeps.refl _ _
    · refine Keeps.via (setTru_keeps _ _) rfl ?_
      exact Keeps.refl _ _
  · refine Keeps.ite ?_ ?_
    · exact Keeps.refl _ _
    · refine Keeps.via (setTru_keeps _ _) rfl ?_
      exact Keeps.refl _ _

theorem rxDisturb_keeps : ∀ a0 a1, Keeps 1048576 a1 (rxDisturb a0 a1) := by
  intro a0 a1
  unfold rxDisturb
  refine Keeps.foldl (fun x1 _ => ?_) ?_
  · refine Keeps.ite ?_ ?_
    · refine Keeps.via (tdiDisturb_keeps _ _) rfl ?_
      exact Keeps.refl _ _
    · exact Keeps.refl _ _
  · exact Keeps.refl _ _

theorem tagsDisturb_keeps : ∀ a0 a1, Keeps 1048576 a1 (tagsDisturb a0 a1) := by
  intro a0 a1
  unfold tagsDisturb
  refine Keeps.foldl (fun x1 _ => ?_) ?_
  · refine Keeps.ite ?_ ?_
    · refine Keeps.via (tdiDisturb_keeps _ _) rfl ?_
      exact Keeps.refl _ _
    · exact Keeps.refl _ _
  · exact Keeps.refl _ _

theorem setTen_keeps : ∀ a0 a1, Keeps 65536 a0 (setTen a0 a1) := by
  intro a0 a1
  unfold setTen
  refine Keeps.put_ten ?_ rfl _
  exact Keeps.refl _ _

theorem tenRequest_keeps : ∀ a0, Keeps 65536 a0 (tenRequest a0) := by
  intro a0
  unfold tenRequest
  refine Keeps.via (setTen_keeps _ _) rfl ?_
  exact Keeps.refl _ _

theorem sameResults_keeps : ∀ a0, Keeps 16 a0 (sameResults a0) := by
  intro a0
  unfold sameResults
  refine Keeps.foldl (fun x1 _ => ?_) ?_
  · refine Keeps.ite ?_ ?_
    · exact Keeps.refl _ _
    · refine Keeps.via (setEff_keeps _ _ _ _ _) rfl ?_
      exact Keeps.refl _ _
  · exact Keeps.refl _ _

theorem setHealth_keeps : ∀ a0 a1 a2, Keeps 33556528 a0 (setHealth a0 a1 a2) := by
  intro a0 a1 a2
  unfold setHealth
  refine Keeps.ite ?_ ?_
  · exact Keeps.refl _ _
  · refine Keeps.ite ?_ ?_
    · refine Keeps.via (record_keeps _ _ _ _ _ _ _) rfl ?_
      refine Keeps.via (setLive_keeps _ _ _ _ _) rfl ?_
      exact Keeps.refl _ _
    · refine Keeps.via (setLive_keeps _ _ _ _ _) rfl ?_
      exact Keeps.refl _ _

theorem judgeSpare_keeps : ∀ a0, Keeps 50333744 a0 (judgeSpare a0) := by
  intro a0
  unfold judgeSpare
  refine Keeps.ite ?_ ?_
  · refine Keeps.via (setHealth_keeps _ _ _) rfl ?_
    refine Keeps.via (setFtl_keeps _ _) rfl ?_
    refine Keeps.via (setHealth_keeps _ _ _) rfl ?_
    exact Keeps.refl _ _
  · refine Keeps.via (setHealth_keeps _ _ _) rfl ?_
    exact Keeps.refl _ _

theorem powerCmdsDone_keeps : ∀ a0, Keeps 67313664 a0 (powerCmdsDone a0) := by
  intro a0
  unfold powerCmdsDone
  refine Keeps.foldl (fun x1 _ => ?_) ?_
  · refine Keeps.via (endCmd_keeps _ _) rfl ?_
    exact Keeps.refl _ _
  · exact Keeps.refl _ _

theorem captureAliases_keeps : ∀ a0, Keeps 512 a0 (captureAliases a0) := by
  intro a0
  unfold captureAliases
  refine Keeps.put_fab ?_ rfl _
  exact Keeps.refl _ _

theorem setCfg_keeps : ∀ a0 a1, Keeps 256 a0 (setCfg a0 a1) := by
  intro a0 a1
  unfold setCfg
  refine Keeps.put_cfg ?_ rfl _
  exact Keeps.refl _ _

theorem cmdStatus_keeps : ∀ a0 a1 a2 a3 a4 a5, Keeps 67313664 a0 (cmdStatus a0 a1 a2 a3 a4 a5) := by
  intro a0 a1 a2 a3 a4 a5
  unfold cmdStatus
  split
  · exact Keeps.refl _ _
  · refine Keeps.via (endCmd_keeps _ _) rfl ?_
    exact Keeps.refl _ _

theorem cfgResult_keeps : ∀ a0 a1 a2, Keeps 16 a0 (cfgResult a0 a1 a2) := by
  intro a0 a1 a2
  unfold cfgResult
  refine Keeps.ite ?_ ?_
  · refine Keeps.via (setLive_keeps _ _ _ _ _) rfl ?_
    refine Keeps.via (setLive_keeps _ _ _ _ _) rfl ?_
    refine Keeps.via (setLive_keeps _ _ _ _ _) rfl ?_
    exact Keeps.refl _ _
  · exact Keeps.refl _ _

theorem loadResult_keeps : ∀ a0 a1 a2, Keeps 222525136 a0 (loadResult a0 a1 a2) := by
  intro a0 a1 a2
  unfold loadResult
  split
  · split
    · refine Keeps.via (ackTicket_keeps _ _ _) rfl ?_
      refine Keeps.via (report_keeps _ _ _ _) rfl ?_
      refine Keeps.via (cfgResult_keeps _ _ _) rfl ?_
      exact Keeps.refl _ _
    · refine Keeps.via (cfgResult_keeps _ _ _) rfl ?_
      exact Keeps.refl _ _
  · refine Keeps.ite ?_ ?_
    · exact Keeps.refl _ _
    · split
      · refine Keeps.via (cmdStatus_keeps _ _ _ _ _ _) rfl ?_
        exact Keeps.refl _ _
      · refine Keeps.via (cfgResult_keeps _ _ _) rfl ?_
        exact Keeps.refl _ _

theorem loaderAsk_keeps : ∀ a0 a1, Keeps 222525392 a0 (loaderAsk a0 a1) := by
  intro a0 a1
  unfold loaderAsk
  refine Keeps.ite ?_ ?_
  · refine Keeps.via (loadResult_keeps _ _ _) rfl ?_
    exact Keeps.refl _ _
  · refine Keeps.via (setCfg_keeps _ _) rfl ?_
    exact Keeps.refl _ _

theorem cfgRequest_keeps : ∀ a0, Keeps 222525392 a0 (cfgRequest a0) := by
  intro a0
  unfold cfgRequest
  refine Keeps.via (loaderAsk_keeps _ _) rfl ?_
  exact Keeps.refl _ _

theorem blockEffect_keeps : ∀ a0 a1 a2, Keeps 257916912 a1 (blockEffect a0 a1 a2) := by
  intro a0 a1 a2
  unfold blockEffect
  split
  · refine Keeps.via (cfgRequest_keeps _) rfl ?_
    exact Keeps.refl _ _
  · refine Keeps.via (captureAliases_keeps _) rfl ?_
    exact Keeps.refl _ _
  · refine Keeps.via (powerCmdsDone_keeps _) rfl ?_
    exact Keeps.refl _ _
  · refine Keeps.via (judgeFold_keeps _) rfl ?_
    exact Keeps.refl _ _
  · refine Keeps.via (judgeSpare_keeps _) rfl ?_
    exact Keeps.refl _ _
  · refine Keeps.via (keyAsk_keeps _ _) rfl ?_
    exact Keeps.refl _ _
  · refine Keeps.via (sameResults_keeps _) rfl ?_
    exact Keeps.refl _ _
  · refine Keeps.via (tenRequest_keeps _) rfl ?_
    exact Keeps.refl _ _
  · refine Keeps.via (tagsDisturb_keeps _ _) rfl ?_
    exact Keeps.refl _ _
  · refine Keeps.via (rxDisturb_keeps _ _) rfl ?_
    exact Keeps.refl _ _
  · refine Keeps.via (burnFuses_keeps _) rfl ?_
    exact Keeps.refl _ _
  · refine Keeps.via (stageRequest_keeps _) rfl ?_
    exact Keeps.refl _ _
  · refine Keeps.via (confirmImage_keeps _) rfl ?_
    exact Keeps.refl _ _
  · refine Keeps.via (setEvr_keeps _ _) rfl ?_
    exact Keeps.refl _ _
  · refine Keeps.via (startClear_keeps _) rfl ?_
    exact Keeps.refl _ _
  · refine Keeps.via (areasBegin_keeps _ _) rfl ?_
    exact Keeps.refl _ _
  · refine Keeps.via (setTst_keeps _ _) rfl ?_
    exact Keeps.refl _ _
  · refine Keeps.via (injRequest_keeps _) rfl ?_
    exact Keeps.refl _ _
  · exact Keeps.refl _ _

theorem saveSettings_keeps : ∀ a0, Keeps 131072 a0 (saveSettings a0) := by
  intro a0
  unfold saveSettings
  refine Keeps.put_boot ?_ rfl _
  exact Keeps.refl _ _

theorem setGroup_keeps : ∀ a0 a1 a2, Keeps 16 a0 (setGroup a0 a1 a2) := by
  intro a0 a1 a2
  unfold setGroup
  refine Keeps.put_regs ?_ rfl _
  exact Keeps.refl _ _

theorem takeSet_keeps : ∀ a0 a1, Keeps 16 a0 (takeSet a0 a1) := by
  intro a0 a1
  unfold takeSet
  split
  · exact Keeps.refl _ _
  · refine Keeps.put_regs ?_ rfl _
    refine Keeps.via (setGroup_keeps _ _ _) rfl ?_
    exact Keeps.refl _ _

theorem recordRefused_keeps : ∀ a0 a1 a2, Keeps 33556528 a0 (recordRefused a0 a1 a2) := by
  intro a0 a1 a2
  unfold recordRefused
  refine Keeps.via (record_keeps _ _ _ _ _ _ _) rfl ?_
  exact Keeps.refl _ _

theorem refuseSet_keeps : ∀ a0 a1 a2, Keeps 33556528 a0 (refuseSet a0 a1 a2) := by
  intro a0 a1 a2
  unfold refuseSet
  refine Keeps.via (recordRefused_keeps _ _ _) rfl ?_
  refine Keeps.via (setGroup_keeps _ _ _) rfl ?_
  exact Keeps.refl _ _

theorem judgeSet_keeps : ∀ a0 a1 a2, Keeps 268402672 a0 (judgeSet a0 a1 a2) := by
  intro a0 a1 a2
  unfold judgeSet
  refine Keeps.ite ?_ ?_
  · refine Keeps.via (refuseSet_keeps _ _ _) rfl ?_
    exact Keeps.refl _ _
  · refine Keeps.via (arrayEffect_keeps _ _ _) rfl ?_
    refine Keeps.via (blockEffect_keeps _ _ _) rfl ?_
    refine Keeps.ite ?_ ?_
    · refine Keeps.via (saveSettings_keeps _) rfl ?_
      refine Keeps.via (takeSet_keeps _ _) rfl ?_
      exact Keeps.refl _ _
    · refine Keeps.via (takeSet_keeps _ _) rfl ?_
      exact Keeps.refl _ _

theorem backSets_keeps : ∀ a0 a1, Keeps 268402672 a0 (backSets a0 a1) := by
  intro a0 a1
  unfold backSets
  refine Keeps.ite ?_ ?_
  · refine Keeps.foldl (fun x1 _ => ?_) ?_
    · split
      · refine Keeps.via (judgeSet_keeps _ _ _) rfl ?_
        exact Keeps.refl _ _
      · exact Keeps.refl _ _
    · exact Keeps.refl _ _
  · exact Keeps.refl _ _

theorem cqe_keeps : ∀ a0 a1 a2 a3 a4, Keeps 67313664 a0 (cqe a0 a1 a2 a3 a4) := by
  intro a0 a1 a2 a3 a4
  unfold cqe
  refine Keeps.via (postCqe_keeps _ _ _ _ _ _ _ _ _ _) rfl ?_
  exact Keeps.refl _ _

theorem badField_keeps : ∀ a0 a1, Keeps 67313664 a0 (badField a0 a1) := by
  intro a0 a1
  unfold badField
  refine Keeps.via (cqe_keeps _ _ _ _ _) rfl ?_
  exact Keeps.refl _ _

theorem badNs_keeps : ∀ a0 a1, Keeps 67313664 a0 (badNs a0 a1) := by
  intro a0 a1
  unfold badNs
  refine Keeps.via (cqe_keeps _ _ _ _ _) rfl ?_
  exact Keeps.refl _ _

theorem badOpcode_keeps : ∀ a0 a1, Keeps 67313664 a0 (badOpcode a0 a1) := by
  intro a0 a1
  unfold badOpcode
  refine Keeps.via (cqe_keeps _ _ _ _ _) rfl ?_
  exact Keeps.refl _ _

theorem badStaging_keeps : ∀ a0 a1, Keeps 262160 a0 (badStaging a0 a1) := by
  intro a0 a1
  unfold badStaging
  refine Keeps.via (setLive_keeps _ _ _ _ _) rfl ?_
  refine Keeps.via (setUpd_keeps _ _) rfl ?_
  exact Keeps.refl _ _

theorem badTransition_keeps : ∀ a0 a1, Keeps 67313664 a0 (badTransition a0 a1) := by
  intro a0 a1
  unfold badTransition
  refine Keeps.via (cqe_keeps _ _ _ _ _) rfl ?_
  exact Keeps.refl _ _

theorem popLost_keeps : ∀ a0 a1, Keeps 65536 a0 (popLost a0 a1).2 := by
  intro a0 a1
  unfold popLost
  split
  · exact Keeps.refl _ _
  · refine Keeps.via (setInst_keeps _ _ _) rfl ?_
    exact Keeps.refl _ _

theorem clearRc_keeps : ∀ a0 a1 a2 a3, Keeps 66576 a0 (clearRc a0 a1 a2 a3) := by
  intro a0 a1 a2 a3
  unfold clearRc
  refine Keeps.ite ?_ ?_
  · refine Keeps.via (setPwr_keeps _ _) rfl ?_
    exact Keeps.refl _ _
  · refine Keeps.ite ?_ ?_
    · refine Keeps.via (popLost_keeps _ _) rfl ?_
      exact Keeps.refl _ _
    · refine Keeps.foldl (fun x1 _ => ?_) ?_
      · refine Keeps.via (setLive_keeps _ _ _ _ _) rfl ?_
        exact Keeps.refl _ _
      · exact Keeps.refl _ _

theorem latchSlot_keeps : ∀ a0 a1, Keeps 4096 a0 (latchSlot a0 a1) := by
  intro a0 a1
  unfold latchSlot
  refine Keeps.via (setKey_keeps _ _) rfl ?_
  exact Keeps.refl _ _

theorem readEffect_keeps : ∀ a0 a1 a2 a3 a4, Keeps 70684 a0 (readEffect a0 a1 a2 a3 a4) := by
  intro a0 a1 a2 a3 a4
  unfold readEffect
  refine Keeps.ite ?_ ?_
  · refine Keeps.put_dev ?_ rfl _
    exact Keeps.refl _ _
  · refine Keeps.ite ?_ ?_
    · refine Keeps.via (latchSlot_keeps _ _) rfl ?_
      exact Keeps.refl _ _
    · refine Keeps.ite ?_ ?_
      · refine Keeps.via (clearRc_keeps _ _ _ _) rfl ?_
        refine Keeps.ite ?_ ?_
        · refine Keeps.via (drawn_keeps _) rfl ?_
          refine Keeps.ite ?_ ?_
          · split
            · refine Keeps.put_regs ?_ rfl _
              exact Keeps.refl _ _
            · exact Keeps.refl _ _
          · exact Keeps.refl _ _
        · refine Keeps.ite ?_ ?_
          · split
            · refine Keeps.put_regs ?_ rfl _
              exact Keeps.refl _ _
            · exact Keeps.refl _ _
          · exact Keeps.refl _ _
      · refine Keeps.ite ?_ ?_
        · refine Keeps.via (drawn_keeps _) rfl ?_
          refine Keeps.ite ?_ ?_
          · split
            · refine Keeps.put_regs ?_ rfl _
              exact Keeps.refl _ _
            · exact Keeps.refl _ _
          · exact Keeps.refl _ _
        · refine Keeps.ite ?_ ?_
          · split
            · refine Keeps.put_regs ?_ rfl _
              exact Keeps.refl _ _
            · exact Keeps.refl _ _
          · exact Keeps.refl _ _

theorem setFen_keeps : ∀ a0 a1 a2, Keeps 512 a0 (setFen a0 a1 a2) := by
  intro a0 a1 a2
  unfold setFen
  refine Keeps.put_fab ?_ rfl _
  exact Keeps.refl _ _

theorem winAccess_keeps : ∀ a0 a1 a2 a3 a4 a5, Keeps 512 a0 (winAccess a0 a1 a2 a3 a4 a5).2 := by
  intro a0 a1 a2 a3 a4 a5
  unfold winAccess
  refine Keeps.ite2 ?_ ?_
  · exact Keeps.refl _ _
  · split
    · refine Keeps.via (setFen_keeps _ _ _) rfl ?_
      exact Keeps.refl _ _
    · refine Keeps.via (setFen_keeps _ _ _) rfl ?_
      exact Keeps.refl _ _

theorem barRead_keeps : ∀ a0 a1, Keeps 71196 a0 (barRead a0 a1).2 := by
  intro a0 a1
  unfold barRead
  refine Keeps.ite2 ?_ ?_
  · exact Keeps.refl _ _
  · split
    · refine Keeps.via (drawn_keeps _) rfl ?_
      refine Keeps.via (winAccess_keeps _ _ _ _ _ _) rfl ?_
      exact Keeps.refl _ _
    · split
      · refine Keeps.via (readEffect_keeps _ _ _ _ _) rfl ?_
        exact Keeps.refl _ _
      · try dsimp -proj only
        split
        · refine Keeps.ite ?_ ?_
          · refine Keeps.via (setLive_keeps _ _ _ _ _) rfl ?_
            exact Keeps.refl _ _
          · exact Keeps.refl _ _
        · exact Keeps.refl _ _

theorem popSiding_keeps : ∀ a0 a1, Keeps 64 a0 (popSiding a0 a1) := by
  intro a0 a1
  unfold popSiding
  refine Keeps.put_sbx ?_ rfl _
  exact Keeps.refl _ _

theorem updCtl_keeps : ∀ a0 a1, Keeps 256867036 a0 (updCtl a0 a1) := by
  intro a0 a1
  unfold updCtl
  refine Keeps.ite ?_ ?_
  · refine Keeps.via (activateNow_keeps _) rfl ?_
    refine Keeps.ite ?_ ?_
    · refine Keeps.via (confirmImage_keeps _) rfl ?_
      refine Keeps.via (setUpd_keeps _ _) rfl ?_
      exact Keeps.refl _ _
    · exact Keeps.refl _ _
  · refine Keeps.ite ?_ ?_
    · refine Keeps.via (confirmImage_keeps _) rfl ?_
      refine Keeps.via (setUpd_keeps _ _) rfl ?_
      exact Keeps.refl _ _
    · exact Keeps.refl _ _

theorem measSelect_keeps : ∀ a0 a1, Keeps 1048592 a0 (measSelect a0 a1) := by
  intro a0 a1
  unfold measSelect
  refine Keeps.via (setTru_keeps _ _) rfl ?_
  refine Keeps.via (setLive_keeps _ _ _ _ _) rfl ?_
  refine Keeps.via (setLive_keeps _ _ _ _ _) rfl ?_
  exact Keeps.refl _ _

theorem logSwitch_keeps : ∀ a0 a1, Keeps 73728 a0 (logSwitch a0 a1) := by
  intro a0 a1
  unfold logSwitch
  refine Keeps.ite ?_ ?_
  · exact Keeps.refl _ _
  · refine Keeps.via (setInst_keeps _ _ _) rfl ?_
    refine Keeps.via (logClose_keeps _ _) rfl ?_
    exact Keeps.refl _ _

theorem feedClose_keeps : ∀ a0 a1, Keeps 2101248 a0 (feedClose a0 a1) := by
  intro a0 a1
  unfold feedClose
  refine Keeps.via (setFeed_keeps _ _ _) rfl ?_
  split
  · refine Keeps.via (releaseSlot_keeps _ _) rfl ?_
    exact Keeps.refl _ _
  · exact Keeps.refl _ _

theorem feedDone_keeps : ∀ a0 a1 a2, Keeps 2097168 a0 (feedDone a0 a1 a2) := by
  intro a0 a1 a2
  unfold feedDone
  refine Keeps.via (setLive_keeps _ _ _ _ _) rfl ?_
  refine Keeps.via (setLive_keeps _ _ _ _ _) rfl ?_
  refine Keeps.via (setFeed_keeps _ _ _) rfl ?_
  exact Keeps.refl _ _

theorem feedEnd_keeps : ∀ a0 a1, Keeps 2101264 a0 (feedEnd a0 a1) := by
  intro a0 a1
  unfold feedEnd
  refine Keeps.via (feedDone_keeps _ _ _) rfl ?_
  refine Keeps.via (feedClose_keeps _ _) rfl ?_
  refine Keeps.via (setFeed_keeps _ _ _) rfl ?_
  refine Keeps.ite ?_ ?_
  · refine Keeps.via (bump_keeps _ _ _ _ _) rfl ?_
    exact Keeps.refl _ _
  · refine Keeps.ite ?_ ?_
    · refine Keeps.via (bump_keeps _ _ _ _ _) rfl ?_
      exact Keeps.refl _ _
    · exact Keeps.refl _ _

theorem feedIgnored_keeps : ∀ a0 a1, Keeps 16 a0 (feedIgnored a0 a1) := by
  intro a0 a1
  unfold feedIgnored
  refine Keeps.via (bump_keeps _ _ _ _ _) rfl ?_
  exact Keeps.refl _ _

theorem feedLast_keeps : ∀ a0 a1 a2, Keeps 2101264 a0 (feedLast a0 a1 a2) := by
  intro a0 a1 a2
  unfold feedLast
  refine Keeps.ite ?_ ?_
  · refine Keeps.via (feedIgnored_keeps _ _) rfl ?_
    exact Keeps.refl _ _
  · refine Keeps.ite ?_ ?_
    · refine Keeps.via (feedEnd_keeps _ _) rfl ?_
      exact Keeps.refl _ _
    · refine Keeps.via (setFeed_keeps _ _ _) rfl ?_
      exact Keeps.refl _ _

theorem feedW1_keeps : ∀ a0 a1 a2, Keeps 2101264 a0 (feedW1 a0 a1 a2) := by
  intro a0 a1 a2
  unfold feedW1
  refine Keeps.ite ?_ ?_
  · refine Keeps.via (feedIgnored_keeps _ _) rfl ?_
    exact Keeps.refl _ _
  · try dsimp -proj only
    split
    · refine Keeps.via (setFeed_keeps _ _ _) rfl ?_
      exact Keeps.refl _ _
    · refine Keeps.via (feedEnd_keeps _ _) rfl ?_
      refine Keeps.via (setFeed_keeps _ _ _) rfl ?_
      exact Keeps.refl _ _

theorem feedW0_keeps : ∀ a0 a1 a2, Keeps 2097168 a0 (feedW0 a0 a1 a2) := by
  intro a0 a1 a2
  unfold feedW0
  refine Keeps.ite ?_ ?_
  · refine Keeps.via (setFeed_keeps _ _ _) rfl ?_
    exact Keeps.refl _ _
  · refine Keeps.via (feedIgnored_keeps _ _) rfl ?_
    exact Keeps.refl _ _

theorem beginCkpt_keeps : ∀ a0, Keeps 16777216 a0 (beginCkpt a0) := by
  intro a0
  unfold beginCkpt
  refine Keeps.ite ?_ ?_
  · exact Keeps.refl _ _
  · refine Keeps.via (setFtl_keeps _ _) rfl ?_
    exact Keeps.refl _ _

theorem writeNow_keeps : ∀ a0 a1 a2 a3 a4, Keeps 260013788 a0 (writeNow a0 a1 a2 a3 a4) := by
  intro a0 a1 a2 a3 a4
  unfold writeNow
  split
  · refine Keeps.ite ?_ ?_
    · refine Keeps.via (popSiding_keeps _ _) rfl ?_
      exact Keeps.refl _ _
    · exact Keeps.refl _ _
  · refine Keeps.ite ?_ ?_
    · refine Keeps.via (askMeasurement_keeps _) rfl ?_
      exact Keeps.refl _ _
    · exact Keeps.refl _ _
  · refine Keeps.ite ?_ ?_
    · refine Keeps.via (beginCkpt_keeps _) rfl ?_
      exact Keeps.refl _ _
    · exact Keeps.refl _ _
  · refine Keeps.via (feedW0_keeps _ _ _) rfl ?_
    exact Keeps.refl _ _
  · refine Keeps.via (feedW1_keeps _ _ _) rfl ?_
    exact Keeps.refl _ _
  · refine Keeps.via (feedLast_keeps _ _ _) rfl ?_
    exact Keeps.refl _ _
  · refine Keeps.ite ?_ ?_
    · refine Keeps.via (coreStopOp_keeps _ _) rfl ?_
      exact Keeps.refl _ _
    · exact Keeps.refl _ _
  · refine Keeps.ite ?_ ?_
    · refine Keeps.via (logSwitch_keeps _ _) rfl ?_
      exact Keeps.refl _ _
    · exact Keeps.refl _ _
  · refine Keeps.via (measSelect_keeps _ _) rfl ?_
    exact Keeps.refl _ _
  · refine Keeps.via (setLive_keeps _ _ _ _ _) rfl ?_
    refine Keeps.via (setLive_keeps _ _ _ _ _) rfl ?_
    exact Keeps.refl _ _
  · refine Keeps.ite ?_ ?_
    · refine Keeps.via (beginEntry_keeps _ _) rfl ?_
      exact Keeps.refl _ _
    · exact Keeps.refl _ _
  · refine Keeps.via (updCtl_keeps _ _) rfl ?_
    exact Keeps.refl _ _
  · refine Keeps.ite ?_ ?_
    · refine Keeps.via (cancelInjections_keeps _) rfl ?_
      exact Keeps.refl _ _
    · exact Keeps.refl _ _
  · exact Keeps.refl _ _

theorem coreRelease_keeps : ∀ a0 a1, Keeps 16384 a0 (coreRelease a0 a1) := by
  intro a0 a1
  unfold coreRelease
  refine Keeps.ite ?_ ?_
  · refine Keeps.via (setCore_keeps _ _ _) rfl ?_
    exact Keeps.refl _ _
  · refine Keeps.ite ?_ ?_
    · refine Keeps.via (setCore_keeps _ _ _) rfl ?_
      exact Keeps.refl _ _
    · exact Keeps.refl _ _

theorem fenRelease_keeps : ∀ a0 a1, Keeps 512 a0 (fenRelease a0 a1) := by
  intro a0 a1
  unfold fenRelease
  refine Keeps.ite ?_ ?_
  · exact Keeps.refl _ _
  · refine Keeps.via (setFen_keeps _ _ _) rfl ?_
    exact Keeps.refl _ _

theorem releaseHolds_keeps : ∀ a0 a1, Keeps 16896 a0 (releaseHolds a0 a1) := by
  intro a0 a1
  unfold releaseHolds
  refine Keeps.ite ?_ ?_
  · exact Keeps.refl _ _
  · refine Keeps.foldl (fun x1 _ => ?_) ?_
    · refine Keeps.via (coreRelease_keeps _ _) rfl ?_
      exact Keeps.refl _ _
    · refine Keeps.foldl (fun x2 _ => ?_) ?_
      · refine Keeps.via (fenRelease_keeps _ _) rfl ?_
        exact Keeps.refl _ _
      · exact Keeps.refl _ _

theorem pageNow_keeps : ∀ a0 a1 a2 a3 a4, Keeps 82432 a0 (pageNow a0 a1 a2 a3 a4) := by
  intro a0 a1 a2 a3 a4
  unfold pageNow
  refine Keeps.ite ?_ ?_
  · refine Keeps.ite ?_ ?_
    · refine Keeps.via (releaseHolds_keeps _ _) rfl ?_
      exact Keeps.refl _ _
    · exact Keeps.refl _ _
  · refine Keeps.ite ?_ ?_
    · refine Keeps.via (setInst_keeps _ _ _) rfl ?_
      exact Keeps.refl _ _
    · exact Keeps.refl _ _

theorem clearOnes_keeps : ∀ a0 a1 a2 a3 a4, Keeps 65552 a0 (clearOnes a0 a1 a2 a3 a4) := by
  intro a0 a1 a2 a3 a4
  unfold clearOnes
  refine Keeps.ite ?_ ?_
  · refine Keeps.ite ?_ ?_
    · refine Keeps.via (setInst_keeps _ _ _) rfl ?_
      exact Keeps.refl _ _
    · exact Keeps.refl _ _
  · refine Keeps.foldl (fun x1 _ => ?_) ?_
    · refine Keeps.ite ?_ ?_
      · refine Keeps.via (setLive_keeps _ _ _ _ _) rfl ?_
        exact Keeps.refl _ _
      · exact Keeps.refl _ _
    · exact Keeps.refl _ _

theorem stageReg_keeps : ∀ a0 a1 a2, Keeps 16 a0 (stageReg a0 a1 a2) := by
  intro a0 a1 a2
  unfold stageReg
  split
  · exact Keeps.refl _ _
  · refine Keeps.ite ?_ ?_
    · exact Keeps.refl _ _
    · refine Keeps.put_regs ?_ rfl _
      exact Keeps.refl _ _

theorem writeReg_keeps : ∀ a0 a1 a2 a3 a4 a5, Keeps 260013788 a0 (writeReg a0 a1 a2 a3 a4 a5) := by
  intro a0 a1 a2 a3 a4 a5
  unfold writeReg
  try dsimp -proj only
  split
  · refine Keeps.via (pageNow_keeps _ _ _ _ _) rfl ?_
    refine Keeps.via (clearOnes_keeps _ _ _ _ _) rfl ?_
    refine Keeps.via (stageReg_keeps _ _ _) rfl ?_
    exact Keeps.refl _ _
  · refine Keeps.via (writeNow_keeps _ _ _ _ _) rfl ?_
    refine Keeps.via (clearOnes_keeps _ _ _ _ _) rfl ?_
    refine Keeps.via (stageReg_keeps _ _ _) rfl ?_
    exact Keeps.refl _ _

theorem groupDiscard_keeps : ∀ a0 a1, Keeps 16 a0 (groupDiscard a0 a1) := by
  intro a0 a1
  unfold groupDiscard
  refine Keeps.put_regs ?_ rfl _
  exact Keeps.refl _ _

theorem groupGo_keeps : ∀ a0 a1, Keeps 16 a0 (groupGo a0 a1) := by
  intro a0 a1
  unfold groupGo
  refine Keeps.via (setGroup_keeps _ _ _) rfl ?_
  exact Keeps.refl _ _

theorem commitWrite_keeps : ∀ a0 a1 a2, Keeps 16 a0 (commitWrite a0 a1 a2) := by
  intro a0 a1 a2
  unfold commitWrite
  refine Keeps.ite ?_ ?_
  · exact Keeps.refl _ _
  · refine Keeps.ite ?_ ?_
    · refine Keeps.via (groupGo_keeps _ _) rfl ?_
      refine Keeps.via (setGroup_keeps _ _ _) rfl ?_
      exact Keeps.refl _ _
    · refine Keeps.ite ?_ ?_
      · refine Keeps.via (groupDiscard_keeps _ _) rfl ?_
        refine Keeps.via (setGroup_keeps _ _ _) rfl ?_
        exact Keeps.refl _ _
      · refine Keeps.via (setGroup_keeps _ _ _) rfl ?_
        exact Keeps.refl _ _

theorem barWrite_keeps : ∀ a0 a1 a2, Keeps 260013788 a0 (barWrite a0 a1 a2) := by
  intro a0 a1 a2
  unfold barWrite
  refine Keeps.ite ?_ ?_
  · exact Keeps.refl _ _
  · split
    · refine Keeps.via (winAccess_keeps _ _ _ _ _ _) rfl ?_
      exact Keeps.refl _ _
    · refine Keeps.ite ?_ ?_
      · refine Keeps.via (commitWrite_keeps _ _ _) rfl ?_
        exact Keeps.refl _ _
      · split
        · refine Keeps.via (writeReg_keeps _ _ _ _ _ _) rfl ?_
          exact Keeps.refl _ _
        · split
          · refine Keeps.ite ?_ ?_
            · refine Keeps.via (popSiding_keeps _ _) rfl ?_
              exact Keeps.refl _ _
            · exact Keeps.refl _ _
          · exact Keeps.refl _ _

theorem tenStage_keeps : ∀ a0 a1, Keeps 65536 a0 (tenStage a0 a1) := by
  intro a0 a1
  unfold tenStage
  split
  · refine Keeps.via (setTen_keeps _ _) rfl ?_
    exact Keeps.refl _ _
  · exact Keeps.refl _ _

theorem beginDrain_keeps : ∀ a0 a1, Keeps 65536 a0 (beginDrain a0 a1) := by
  intro a0 a1
  unfold beginDrain
  refine Keeps.via (tenStage_keeps _ _) rfl ?_
  refine Keeps.via (setTen_keeps _ _) rfl ?_
  exact Keeps.refl _ _

theorem modGroup_keeps : ∀ a0 a1 a2, Keeps 134217728 a0 (modGroup a0 a1 a2) := by
  intro a0 a1 a2
  unfold modGroup
  refine Keeps.via (setJct_keeps _ _) rfl ?_
  exact Keeps.refl _ _

theorem promote_keeps : ∀ a0 a1, Keeps 201531408 a0 (promote a0 a1) := by
  intro a0 a1
  unfold promote
  split
  · exact Keeps.refl _ _
  · refine Keeps.ite ?_ ?_
    · refine Keeps.via (floodFrame_keeps _ _) rfl ?_
      refine Keeps.foldl (fun x1 _ => ?_) ?_
      · refine Keeps.via (nsChanged_keeps _ _ _) rfl ?_
        exact Keeps.refl _ _
      · refine Keeps.via (bump_keeps _ _ _ _ _) rfl ?_
        refine Keeps.via (setJct_keeps _ _) rfl ?_
        refine Keeps.via (modGroup_keeps _ _ _) rfl ?_
        exact Keeps.refl _ _
    · refine Keeps.foldl (fun x2 _ => ?_) ?_
      · refine Keeps.via (nsChanged_keeps _ _ _) rfl ?_
        exact Keeps.refl _ _
      · refine Keeps.via (bump_keeps _ _ _ _ _) rfl ?_
        refine Keeps.via (setJct_keeps _ _) rfl ?_
        refine Keeps.via (modGroup_keeps _ _ _) rfl ?_
        exact Keeps.refl _ _

theorem settlePromotions_keeps : ∀ a0, Keeps 201531408 a0 (settlePromotions a0) := by
  intro a0
  unfold settlePromotions
  refine Keeps.ite ?_ ?_
  · exact Keeps.refl _ _
  · refine Keeps.foldl (fun x1 _ => ?_) ?_
    · refine Keeps.via (promote_keeps _ _) rfl ?_
      exact Keeps.refl _ _
    · exact Keeps.refl _ _

theorem beginPromotions_keeps : ∀ a0 a1, Keeps 201531408 a0 (beginPromotions a0 a1) := by
  intro a0 a1
  unfold beginPromotions
  refine Keeps.via (settlePromotions_keeps _) rfl ?_
  refine Keeps.via (setJct_keeps _ _) rfl ?_
  exact Keeps.refl _ _

theorem bindSpare_keeps : ∀ a0 a1 a2, Keeps 8 a0 (bindSpare a0 a1 a2) := by
  intro a0 a1 a2
  unfold bindSpare
  refine Keeps.via (setUnit_keeps _ _ _) rfl ?_
  exact Keeps.refl _ _

theorem dropKeyUse_keeps : ∀ a0, Keeps 4352 a0 (dropKeyUse a0) := by
  intro a0
  unfold dropKeyUse
  split
  · refine Keeps.via (setCfg_keeps _ _) rfl ?_
    refine Keeps.via (releaseSlot_keeps _ _) rfl ?_
    exact Keeps.refl _ _
  · exact Keeps.refl _ _

theorem loadEnd_keeps : ∀ a0 a1, Keeps 222525392 a0 (loadEnd a0 a1) := by
  intro a0 a1
  unfold loadEnd
  split
  · exact Keeps.refl _ _
  · refine Keeps.via (loadResult_keeps _ _ _) rfl ?_
    refine Keeps.via (setCfg_keeps _ _) rfl ?_
    refine Keeps.via (dropKeyUse_keeps _) rfl ?_
    exact Keeps.refl _ _

theorem loadReject_keeps : ∀ a0 a1 a2 a3 a4 a5 a6, Keeps 256081904 a0 (loadReject a0 a1 a2 a3 a4 a5 a6) := by
  intro a0 a1 a2 a3 a4 a5 a6
  unfold loadReject
  split
  · exact Keeps.refl _ _
  · refine Keeps.via (loadEnd_keeps _ _) rfl ?_
    refine Keeps.ite ?_ ?_
    · refine Keeps.via (setLive_keeps _ _ _ _ _) rfl ?_
      refine Keeps.via (setLive_keeps _ _ _ _ _) rfl ?_
      exact Keeps.refl _ _
    · refine Keeps.via (record_keeps _ _ _ _ _ _ _) rfl ?_
      exact Keeps.refl _ _

theorem loadFail_keeps : ∀ a0 a1, Keeps 256081904 a0 (loadFail a0 a1) := by
  intro a0 a1
  unfold loadFail
  refine Keeps.via (loadReject_keeps _ _ _ _ _ _ _) rfl ?_
  exact Keeps.refl _ _

theorem blocksDone_keeps : ∀ a0 a1, Keeps 256081904 a0 (blocksDone a0 a1) := by
  intro a0 a1
  unfold blocksDone
  refine Keeps.ite ?_ ?_
  · refine Keeps.ite ?_ ?_
    · refine Keeps.via (setCfg_keeps _ _) rfl ?_
      refine Keeps.via (setCfg_keeps _ _) rfl ?_
      refine Keeps.via (dropKeyUse_keeps _) rfl ?_
      exact Keeps.refl _ _
    · refine Keeps.via (loadFail_keeps _ _) rfl ?_
      refine Keeps.via (setCfg_keeps _ _) rfl ?_
      refine Keeps.via (dropKeyUse_keeps _) rfl ?_
      exact Keeps.refl _ _
  · refine Keeps.ite ?_ ?_
    · refine Keeps.via (setCfg_keeps _ _) rfl ?_
      refine Keeps.via (setCfg_keeps _ _) rfl ?_
      refine Keeps.via (dropKeyUse_keeps _) rfl ?_
      exact Keeps.refl _ _
    · refine Keeps.via (loadFail_keeps _ _) rfl ?_
      refine Keeps.via (setCfg_keeps _ _) rfl ?_
      refine Keeps.via (dropKeyUse_keeps _) rfl ?_
      exact Keeps.refl _ _

theorem bootSlot_keeps : ∀ a0 a1, Keeps 1310720 a0 (bootSlot a0 a1) := by
  intro a0 a1
  unfold bootSlot
  refine Keeps.via (setUpd_keeps _ _) rfl ?_
  refine Keeps.foldl (fun x1 _ => ?_) ?_
  · refine Keeps.via (extendMeas_keeps _ _ _) rfl ?_
    exact Keeps.refl _ _
  · exact Keeps.refl _ _

theorem loaderRevoke_keeps : ∀ a0 a1, Keeps 4368 a0 (loaderRevoke a0 a1) := by
  intro a0 a1
  unfold loaderRevoke
  refine Keeps.ite ?_ ?_
  · refine Keeps.via (setCfg_keeps _ _) rfl ?_
    refine Keeps.via (dropKeyUse_keeps _) rfl ?_
    refine Keeps.via (setCfg_keeps _ _) rfl ?_
    refine Keeps.foldl (fun x1 _ => ?_) ?_
    · refine Keeps.via (cfgResult_keeps _ _ _) rfl ?_
      exact Keeps.refl _ _
    · exact Keeps.refl _ _
  · refine Keeps.via (setCfg_keeps _ _) rfl ?_
    refine Keeps.foldl (fun x2 _ => ?_) ?_
    · refine Keeps.via (cfgResult_keeps _ _ _) rfl ?_
      exact Keeps.refl _ _
    · exact Keeps.refl _ _

theorem wakeCore_keeps : ∀ a0 a1, Keeps 16384 a0 (wakeCore a0 a1) := by
  intro a0 a1
  unfold wakeCore
  refine Keeps.ite ?_ ?_
  · refine Keeps.via (setCore_keeps _ _ _) rfl ?_
    exact Keeps.refl _ _
  · exact Keeps.refl _ _

theorem coreRevoke_keeps : ∀ a0 a1 a2, Keeps 16384 a0 (coreRevoke a0 a1 a2) := by
  intro a0 a1 a2
  unfold coreRevoke
  refine Keeps.via (wakeCore_keeps _ _) rfl ?_
  refine Keeps.via (setCore_keeps _ _ _) rfl ?_
  exact Keeps.refl _ _

theorem fenRevoke_keeps : ∀ a0 a1 a2, Keeps 512 a0 (fenRevoke a0 a1 a2) := by
  intro a0 a1 a2
  unfold fenRevoke
  refine Keeps.via (setFen_keeps _ _ _) rfl ?_
  exact Keeps.refl _ _

theorem stationRevoke_keeps : ∀ a0 a1 a2 a3, Keeps 21392 a0 (stationRevoke a0 a1 a2 a3) := by
  intro a0 a1 a2 a3
  unfold stationRevoke
  try dsimp -proj only
  split
  · refine Keeps.via (fenRevoke_keeps _ _ _) rfl ?_
    refine Keeps.via (setInbox_keeps _ _ _) rfl ?_
    exact Keeps.refl _ _
  · refine Keeps.via (fenRevoke_keeps _ _ _) rfl ?_
    refine Keeps.via (setInbox_keeps _ _ _) rfl ?_
    exact Keeps.refl _ _
  · refine Keeps.ite ?_ ?_
    · refine Keeps.via (coreRevoke_keeps _ _ _) rfl ?_
      refine Keeps.via (setInbox_keeps _ _ _) rfl ?_
      exact Keeps.refl _ _
    · refine Keeps.via (setInbox_keeps _ _ _) rfl ?_
      exact Keeps.refl _ _
  · refine Keeps.ite ?_ ?_
    · refine Keeps.via (coreRevoke_keeps _ _ _) rfl ?_
      refine Keeps.via (setInbox_keeps _ _ _) rfl ?_
      exact Keeps.refl _ _
    · refine Keeps.via (setInbox_keeps _ _ _) rfl ?_
      exact Keeps.refl _ _
  · refine Keeps.via (loaderRevoke_keeps _ _) rfl ?_
    refine Keeps.via (setInbox_keeps _ _ _) rfl ?_
    exact Keeps.refl _ _
  · refine Keeps.via (engineCleared_keeps _ _ _ _) rfl ?_
    refine Keeps.via (setInbox_keeps _ _ _) rfl ?_
    exact Keeps.refl _ _
  · refine Keeps.via (engineCleared_keeps _ _ _ _) rfl ?_
    refine Keeps.via (setInbox_keeps _ _ _) rfl ?_
    exact Keeps.refl _ _
  · refine Keeps.via (engineCleared_keeps _ _ _ _) rfl ?_
    refine Keeps.via (setInbox_keeps _ _ _) rfl ?_
    exact Keeps.refl _ _
  · refine Keeps.via (setCtx_keeps _ _ _ _) rfl ?_
    refine Keeps.via (setInbox_keeps _ _ _) rfl ?_
    exact Keeps.refl _ _

theorem revokeAt_keeps : ∀ a0 a1 a2 a3, Keeps 256081880 a0 (revokeAt a0 a1 a2 a3) := by
  intro a0 a1 a2 a3
  unfold revokeAt
  split
  · exact Keeps.refl _ _
  · refine Keeps.ite ?_ ?_
    · refine Keeps.via (ackTicket_keeps _ _ _) rfl ?_
      refine Keeps.via (zeroWritten_keeps _ _ _) rfl ?_
      refine Keeps.via (stationRevoke_keeps _ _ _ _) rfl ?_
      refine Keeps.via (modEntry_keeps _ _ _) rfl ?_
      exact Keeps.refl _ _
    · refine Keeps.via (stationRevoke_keeps _ _ _ _) rfl ?_
      refine Keeps.via (sendToken_keeps _ _ _ _ _ _ _ _) rfl ?_
      refine Keeps.via (modEntry_keeps _ _ _) rfl ?_
      exact Keeps.refl _ _

theorem bounce_keeps : ∀ a0 a1, Keeps 256081880 a0 (bounce a0 a1) := by
  intro a0 a1
  unfold bounce
  try dsimp -proj only
  split
  · refine Keeps.via (park_keeps _ _) rfl ?_
    exact Keeps.refl _ _
  · refine Keeps.ite ?_ ?_
    · refine Keeps.via (revokeAt_keeps _ _ _ _) rfl ?_
      refine Keeps.via (park_keeps _ _) rfl ?_
      exact Keeps.refl _ _
    · refine Keeps.via (failAt_keeps _ _ _ _ _) rfl ?_
      refine Keeps.via (park_keeps _ _) rfl ?_
      exact Keeps.refl _ _

theorem boundsTrap_keeps : ∀ a0 a1, KeepsE 0 a1 (boundsTrap a0 a1) := by
  intro a0 a1
  unfold boundsTrap
  refine KeepsE.ite ?_ ?_
  · refine KeepsE.ok ?_
    exact Keeps.refl _ _
  · exact KeepsE.error _

theorem bulkLimits_keeps : ∀ a0 a1, Keeps 512 a0 (bulkLimits a0 a1) := by
  intro a0 a1
  unfold bulkLimits
  refine Keeps.foldl (fun x1 _ => ?_) ?_
  · refine Keeps.ite ?_ ?_
    · exact Keeps.refl _ _
    · refine Keeps.via (setFen_keeps _ _ _) rfl ?_
      exact Keeps.refl _ _
  · exact Keeps.refl _ _

theorem setLive64_keeps : ∀ a0 a1 a2, Keeps 16 a0 (setLive64 a0 a1 a2) := by
  intro a0 a1 a2
  unfold setLive64
  refine Keeps.via (setLive_keeps _ _ _ _ _) rfl ?_
  refine Keeps.via (setLive_keeps _ _ _ _ _) rfl ?_
  exact Keeps.refl _ _

theorem bump64_keeps : ∀ a0 a1 a2, Keeps 16 a0 (bump64 a0 a1 a2) := by
  intro a0 a1 a2
  unfold bump64
  refine Keeps.via (setLive64_keeps _ _ _) rfl ?_
  exact Keeps.refl _ _

theorem cacheKey_keeps : ∀ a0 a1 a2 a3 a4, Keeps 4096 a0 (cacheKey a0 a1 a2 a3 a4) := by
  intro a0 a1 a2 a3 a4
  unfold cacheKey
  refine Keeps.via (setKey_keeps _ _) rfl ?_
  exact Keeps.refl _ _

theorem capCredit_keeps : ∀ a0 a1, Keeps 64 a0 (capCredit a0 a1) := by
  intro a0 a1
  unfold capCredit
  refine Keeps.ite ?_ ?_
  · exact Keeps.refl _ _
  · refine Keeps.put_sbx ?_ rfl _
    exact Keeps.refl _ _

theorem setCur_keeps : ∀ a0 a1 a2 a3, Keeps 8388608 a0 (setCur a0 a1 a2 a3) := by
  intro a0 a1 a2 a3
  unfold setCur
  refine Keeps.via (setChan_keeps _ _ _) rfl ?_
  exact Keeps.refl _ _

theorem freeStaged_keeps : ∀ a0 a1, Keeps 16777280 a0 (freeStaged a0 a1) := by
  intro a0 a1
  unfold freeStaged
  split
  · exact Keeps.refl _ _
  · refine Keeps.put_sbx ?_ rfl _
    refine Keeps.via (setFtl_keeps _ _) rfl ?_
    exact Keeps.refl _ _

theorem unitDone_keeps : ∀ a0 a1, Keeps 222525120 a0 (unitDone a0 a1) := by
  intro a0 a1
  unfold unitDone
  split
  · exact Keeps.refl _ _
  · split
    · exact Keeps.refl _ _
    · refine Keeps.ite ?_ ?_
      · refine Keeps.via (ackTicket_keeps _ _ _) rfl ?_
        refine Keeps.via (setEntry_keeps _ _ _) rfl ?_
        exact Keeps.refl _ _
      · refine Keeps.via (setEntry_keeps _ _ _) rfl ?_
        exact Keeps.refl _ _

theorem slotGone_keeps : ∀ a0 a1, Keeps 222525120 a0 (slotGone a0 a1) := by
  intro a0 a1
  unfold slotGone
  refine Keeps.via (unitDone_keeps _ _) rfl ?_
  split
  · refine Keeps.via (freeStaged_keeps _ _) rfl ?_
    exact Keeps.refl _ _
  · exact Keeps.refl _ _

theorem notePresent_keeps : ∀ a0 a1 a2, Keeps 16777216 a0 (notePresent a0 a1 a2) := by
  intro a0 a1 a2
  unfold notePresent
  refine Keeps.via (setBg_keeps _ _ _) rfl ?_
  exact Keeps.refl _ _

theorem movePage_keeps : ∀ s ch pg, Keeps 25166848 s (movePage s ch pg).1 := by
  intro s ch pg
  unfold movePage
  split
  · split
    · rename_i h
      exact (allocPage_keeps _ _ _ _ _ _ _ _ h).mono rfl
    · exact Keeps.refl _ _
  · exact Keeps.refl _ _

theorem sealWith_keeps : ∀ a0 a1 a2, Keeps 230913728 a0 (sealWith a0 a1 a2) := by
  intro a0 a1 a2
  unfold sealWith
  refine Keeps.foldl (fun x1 _ => ?_) ?_
  · refine Keeps.via (slotGone_keeps _ _) rfl ?_
    exact Keeps.refl _ _
  · refine Keeps.via (setChan_keeps _ _ _) rfl ?_
    refine Keeps.via (notePresent_keeps _ _ _) rfl ?_
    refine Keeps.via (setFch_keeps _ _) rfl ?_
    refine Keeps.via (setFtl_keeps _ _) rfl ?_
    refine Keeps.via (movePage_keeps _ _ _) rfl ?_
    exact Keeps.refl _ _

theorem sealPage_keeps : ∀ a0 a1 a2, Keeps 230913728 a0 (sealPage a0 a1 a2) := by
  intro a0 a1 a2
  unfold sealPage
  split
  · exact Keeps.refl _ _
  · refine Keeps.via (sealWith_keeps _ _ _) rfl ?_
    refine Keeps.via (setCur_keeps _ _ _ _) rfl ?_
    exact Keeps.refl _ _

theorem placeSlot_keeps : ∀ s ch d x e, KeepsM 230913728 s (placeSlot s ch d x e) := by
  intro s ch d x e
  unfold placeSlot
  refine KeepsM.map ?_
  intro r hr
  have h0 : ∀ c : Bool, Keeps 230913728 s (if c = true then s else sealPage s ch d) := fun c =>
    Keeps.ite (Keeps.refl _ _) ((sealPage_keeps _ _ _).mono rfl)
  have h1 : Keeps 230913728 s r.2 := by
    try dsimp -proj only at hr
    split at hr
    · cases hr; exact h0 _
    · obtain ⟨q, hq, he⟩ := Option.map_eq_some_iff.1 hr
      cases he
      exact Keeps.via (allocPage_keeps _ _ _ _ _ _ _ _ hq) rfl (h0 _)
  refine Keeps.ite ?_ ?_
  · exact Keeps.via (sealWith_keeps _ _ _) rfl (Keeps.via (setCur_keeps _ _ _ _) rfl h1)
  · exact Keeps.via (setCur_keeps _ _ _ _) rfl h1

theorem placeAny_keeps : ∀ a0 a1 a2 a3 a4, KeepsM 230913728 a0 (placeAny a0 a1 a2 a3 a4) := by
  intro a0 a1 a2 a3 a4
  unfold placeAny
  refine KeepsM.findSome (fun z1 => ?_)
  refine KeepsM.via (placeSlot_keeps _ _ _ _ _) rfl ?_
  exact Keeps.refl _ _

theorem moveFill_keeps : ∀ a0 a1 a2, Keeps 230913728 a0 (moveFill a0 a1 a2) := by
  intro a0 a1 a2
  unfold moveFill
  refine Keeps.ite ?_ ?_
  · refine Keeps.foldl1 (fun x1 _ => ?_) ?_
    · split
      · rename_i y2_0 h2
        have k2 : Keeps 230913728 x1.1 y2_0 := by
          refine KeepsM.of h2 ?_
          refine KeepsM.via (placeAny_keeps _ _ _ _ _) rfl ?_
          exact Keeps.refl _ _
        exact k2
      · exact Keeps.refl _ _
    · exact Keeps.refl _ _
  · refine Keeps.via (setFch_keeps _ _) rfl ?_
    refine Keeps.foldl1 (fun x3 _ => ?_) ?_
    · split
      · rename_i y4_0 h4
        have k4 : Keeps 230913728 x3.1 y4_0 := by
          refine KeepsM.of h4 ?_
          refine KeepsM.via (placeAny_keeps _ _ _ _ _) rfl ?_
          exact Keeps.refl _ _
        exact k4
      · exact Keeps.refl _ _
    · exact Keeps.refl _ _

theorem leaveStripe_keeps : ∀ a0 a1 a2, Keeps 8388608 a0 (leaveStripe a0 a1 a2) := by
  intro a0 a1 a2
  unfold leaveStripe
  refine Keeps.via (setFch_keeps _ _) rfl ?_
  exact Keeps.refl _ _

theorem reissue_keeps : ∀ s ch pg, Keeps 230913728 s (reissue s ch pg) := by
  intro s ch pg
  unfold reissue
  dsimp -proj only
  split
  · rename_i k g p t h
    obtain ⟨a, -, ha⟩ := List.exists_of_findSome?_eq_some h
    obtain ⟨r, hr, hk⟩ := Option.map_eq_some_iff.1 ha
    cases hk
    refine Keeps.via (sealWith_keeps _ _ _) rfl ?_
    refine Keeps.via (notePresent_keeps _ _ _) rfl ?_
    exact (allocPage_keeps _ _ _ _ _ _ _ _ hr).mono rfl
  · exact (setFch_keeps _ _).mono rfl

theorem noteOffline_keeps : ∀ a0, Keeps 16777216 a0 (noteOffline a0) := by
  intro a0
  unfold noteOffline
  refine Keeps.ite ?_ ?_
  · exact Keeps.refl _ _
  · refine Keeps.via (setFtl_keeps _ _) rfl ?_
    exact Keeps.refl _ _

theorem channelLeaves_keeps : ∀ a0 a1 a2, Keeps 230913728 a0 (channelLeaves a0 a1 a2) := by
  intro a0 a1 a2
  unfold channelLeaves
  refine Keeps.foldl (fun x1 _ => ?_) ?_
  · refine Keeps.via (moveFill_keeps _ _ _) rfl ?_
    exact Keeps.refl _ _
  · refine Keeps.foldl (fun x2 _ => ?_) ?_
    · refine Keeps.via (reissue_keeps _ _ _) rfl ?_
      refine Keeps.via (leaveStripe_keeps _ _ _) rfl ?_
      exact Keeps.refl _ _
    · refine Keeps.via (noteOffline_keeps _) rfl ?_
      refine Keeps.via (setChan_keeps _ _ _) rfl ?_
      exact Keeps.refl _ _

theorem judgeDegraded_keeps : ∀ a0, Keeps 33556528 a0 (judgeDegraded a0) := by
  intro a0
  unfold judgeDegraded
  refine Keeps.via (setHealth_keeps _ _ _) rfl ?_
  exact Keeps.refl _ _

theorem clearLosses_keeps : ∀ a0, Keeps 41945136 a0 (clearLosses a0) := by
  intro a0
  unfold clearLosses
  refine Keeps.ite ?_ ?_
  · exact Keeps.refl _ _
  · refine Keeps.via (judgeDegraded_keeps _) rfl ?_
    refine Keeps.via (setFch_keeps _ _) rfl ?_
    exact Keeps.refl _ _

theorem channelOffline_keeps : ∀ a0 a1, Keeps 264470264 a0 (channelOffline a0 a1) := by
  intro a0 a1
  unfold channelOffline
  refine Keeps.ite ?_ ?_
  · refine Keeps.via (record_keeps _ _ _ _ _ _ _) rfl ?_
    refine Keeps.via (clearLosses_keeps _) rfl ?_
    refine Keeps.via (judgeDegraded_keeps _) rfl ?_
    refine Keeps.via (unitState_keeps _ _ _) rfl ?_
    refine Keeps.via (channelLeaves_keeps _ _ _) rfl ?_
    refine Keeps.via (setFch_keeps _ _) rfl ?_
    exact Keeps.refl _ _
  · refine Keeps.via (clearLosses_keeps _) rfl ?_
    refine Keeps.via (judgeDegraded_keeps _) rfl ?_
    refine Keeps.via (unitState_keeps _ _ _) rfl ?_
    refine Keeps.via (channelLeaves_keeps _ _ _) rfl ?_
    refine Keeps.via (setFch_keeps _ _) rfl ?_
    exact Keeps.refl _ _

theorem recordRom_keeps : ∀ a0 a1 a2 a3 a4 a5, Keeps 33556512 a0 (recordRom a0 a1 a2 a3 a4 a5) := by
  intro a0 a1 a2 a3 a4 a5
  unfold recordRom
  refine Keeps.via (writeRecord_keeps _ _) rfl ?_
  exact Keeps.refl _ _

theorem recordSlot_keeps : ∀ a0 a1, Keeps 33556512 a0 (recordSlot a0 a1) := by
  intro a0 a1
  unfold recordSlot
  refine Keeps.via (recordRom_keeps _ _ _ _ _ _) rfl ?_
  exact Keeps.refl _ _

theorem fallBackPtr_keeps : ∀ a0, Keeps 262144 a0 (fallBackPtr a0) := by
  intro a0
  unfold fallBackPtr
  refine Keeps.via (setUpd_keeps _ _) rfl ?_
  refine Keeps.via (writePtr_keeps _ _) rfl ?_
  exact Keeps.refl _ _

theorem fallBack_keeps : ∀ a0, Keeps 33818656 a0 (fallBack a0) := by
  intro a0
  unfold fallBack
  refine Keeps.via (recordRom_keeps _ _ _ _ _ _) rfl ?_
  refine Keeps.via (fallBackPtr_keeps _) rfl ?_
  exact Keeps.refl _ _

theorem chooseImage_keeps : ∀ a0, Keeps 34867232 a0 (chooseImage a0).1 := by
  intro a0
  unfold chooseImage
  refine Keeps.ite1 ?_ ?_
  · refine Keeps.via (bootSlot_keeps _ _) rfl ?_
    refine Keeps.ite ?_ ?_
    · refine Keeps.via (fallBack_keeps _) rfl ?_
      exact Keeps.refl _ _
    · refine Keeps.ite ?_ ?_
      · refine Keeps.via (writePtr_keeps _ _) rfl ?_
        exact Keeps.refl _ _
      · exact Keeps.refl _ _
  · refine Keeps.ite1 ?_ ?_
    · refine Keeps.via (bootSlot_keeps _ _) rfl ?_
      refine Keeps.via (writePtr_keeps _ _) rfl ?_
      refine Keeps.via (recordSlot_keeps _ _) rfl ?_
      refine Keeps.ite ?_ ?_
      · refine Keeps.via (fallBack_keeps _) rfl ?_
        exact Keeps.refl _ _
      · refine Keeps.ite ?_ ?_
        · refine Keeps.via (writePtr_keeps _ _) rfl ?_
          exact Keeps.refl _ _
        · exact Keeps.refl _ _
    · refine Keeps.via (recordSlot_keeps _ _) rfl ?_
      refine Keeps.via (recordSlot_keeps _ _) rfl ?_
      refine Keeps.ite ?_ ?_
      · refine Keeps.via (fallBack_keeps _) rfl ?_
        exact Keeps.refl _ _
      · refine Keeps.ite ?_ ?_
        · refine Keeps.via (writePtr_keeps _ _) rfl ?_
          exact Keeps.refl _ _
        · exact Keeps.refl _ _

theorem setHandle_keeps : ∀ a0 a1 a2 a3, Keeps 4096 a0 (setHandle a0 a1 a2 a3) := by
  intro a0 a1 a2 a3
  unfold setHandle
  refine Keeps.via (setKey_keeps _ _) rfl ?_
  exact Keeps.refl _ _

theorem cipBegin_keeps : ∀ a0 a1 a2 a3 a4 a5, KeepsE 4224 a0 (cipBegin a0 a1 a2 a3 a4 a5) := by
  intro a0 a1 a2 a3 a4 a5
  unfold cipBegin
  split
  · exact KeepsE.error _
  · refine KeepsE.ite ?_ ?_
    · refine KeepsE.ite ?_ ?_
      · refine KeepsE.ok ?_
        refine Keeps.via (cacheKey_keeps _ _ _ _ _) rfl ?_
        exact Keeps.refl _ _
      · exact KeepsE.error _
    · refine KeepsE.ite ?_ ?_
      · exact KeepsE.error _
      · split
        · exact KeepsE.error _
        · refine KeepsE.ite ?_ ?_
          · refine KeepsE.ok ?_
            refine Keeps.via (cacheKey_keeps _ _ _ _ _) rfl ?_
            exact Keeps.refl _ _
          · refine KeepsE.ok ?_
            refine Keeps.via (setHandle_keeps _ _ _ _) rfl ?_
            refine Keeps.via (setCtx_keeps _ _ _ _) rfl ?_
            refine Keeps.via (cacheKey_keeps _ _ _ _ _) rfl ?_
            exact Keeps.refl _ _

theorem cipCount_keeps : ∀ a0 a1 a2 a3 a4, Keeps 16 a0 (cipCount a0 a1 a2 a3 a4) := by
  intro a0 a1 a2 a3 a4
  unfold cipCount
  refine Keeps.via (bump64_keeps _ _ _) rfl ?_
  refine Keeps.via (bump64_keeps _ _ _) rfl ?_
  exact Keeps.refl _ _

theorem cipErr_keeps : ∀ a0 a1 a2 a3, Keeps 16 a0 (cipErr a0 a1 a2 a3) := by
  intro a0 a1 a2 a3
  unfold cipErr
  try dsimp -proj only
  split
  · refine Keeps.via (bump_keeps _ _ _ _ _) rfl ?_
    exact Keeps.refl _ _
  · refine Keeps.via (bump_keeps _ _ _ _ _) rfl ?_
    exact Keeps.refl _ _
  · refine Keeps.via (bump_keeps _ _ _ _ _) rfl ?_
    exact Keeps.refl _ _
  · refine Keeps.via (bump_keeps _ _ _ _ _) rfl ?_
    exact Keeps.refl _ _
  · refine Keeps.via (bump_keeps _ _ _ _ _) rfl ?_
    exact Keeps.refl _ _
  · exact Keeps.refl _ _

theorem cipFail_keeps : ∀ a0 a1 a2 a3 a4, Keeps 256081624 a0 (cipFail a0 a1 a2 a3 a4) := by
  intro a0 a1 a2 a3 a4
  unfold cipFail
  refine Keeps.via (failAt_keeps _ _ _ _ _) rfl ?_
  refine Keeps.via (cipErr_keeps _ _ _ _) rfl ?_
  exact Keeps.refl _ _

theorem countMismatch_keeps : ∀ a0 a1 a2 a3, Keeps 256605944 a0 (countMismatch a0 a1 a2 a3) := by
  intro a0 a1 a2 a3
  unfold countMismatch
  refine Keeps.ite ?_ ?_
  · refine Keeps.via (reportUnit_keeps _ _ _) rfl ?_
    refine Keeps.put_key ?_ rfl _
    exact Keeps.refl _ _
  · refine Keeps.put_key ?_ rfl _
    exact Keeps.refl _ _

theorem cipMismatch_keeps : ∀ a0 a1 a2 a3, Keeps 256605944 a0 (cipMismatch a0 a1 a2 a3) := by
  intro a0 a1 a2 a3
  unfold cipMismatch
  refine Keeps.via (countMismatch_keeps _ _ _ _) rfl ?_
  refine Keeps.via (cipFail_keeps _ _ _ _ _) rfl ?_
  exact Keeps.refl _ _

theorem countCtx_keeps : ∀ a0 a1 a2 a3 a4, Keeps 128 a0 (countCtx a0 a1 a2 a3 a4) := by
  intro a0 a1 a2 a3 a4
  unfold countCtx
  refine Keeps.via (setCtx_keeps _ _ _ _) rfl ?_
  exact Keeps.refl _ _

theorem sendData_keeps : ∀ a0 a1 a2 a3 a4 a5 a6 a7 a8, Keeps 8 a0 (sendData a0 a1 a2 a3 a4 a5 a6 a7 a8) := by
  intro a0 a1 a2 a3 a4 a5 a6 a7 a8
  unfold sendData
  split
  · exact Keeps.refl _ _
  · refine Keeps.ite ?_ ?_
    · exact Keeps.refl _ _
    · split
      · exact Keeps.refl _ _
      · refine Keeps.via (emit_keeps _ _) rfl ?_
        exact Keeps.refl _ _

theorem sendOut_keeps : ∀ a0 a1 a2 a3 a4 a5 a6, Keeps 136 a0 (sendOut a0 a1 a2 a3 a4 a5 a6) := by
  intro a0 a1 a2 a3 a4 a5 a6
  unfold sendOut
  refine Keeps.foldl (fun x1 _ => ?_) ?_
  · refine Keeps.via (countCtx_keeps _ _ _ _ _) rfl ?_
    refine Keeps.via (sendData_keeps _ _ _ _ _ _ _ _ _) rfl ?_
    exact Keeps.refl _ _
  · exact Keeps.refl _ _

theorem release_keeps : ∀ a0 a1 a2 a3 a4 a5 a6, Keeps 256605944 a0 (release a0 a1 a2 a3 a4 a5 a6) := by
  intro a0 a1 a2 a3 a4 a5 a6
  unfold release
  refine Keeps.ite ?_ ?_
  · refine Keeps.via (cipMismatch_keeps _ _ _ _) rfl ?_
    refine Keeps.via (cipCount_keeps _ _ _ _ _) rfl ?_
    refine Keeps.ite ?_ ?_
    · exact Keeps.refl _ _
    · refine Keeps.via (sendOut_keeps _ _ _ _ _ _ _) rfl ?_
      exact Keeps.refl _ _
  · refine Keeps.via (cipCount_keeps _ _ _ _ _) rfl ?_
    refine Keeps.ite ?_ ?_
    · exact Keeps.refl _ _
    · refine Keeps.via (sendOut_keeps _ _ _ _ _ _ _) rfl ?_
      exact Keeps.refl _ _

theorem xtsStream_keeps : ∀ a0 a1 a2 a3 a4 a5 a6 a7, Keeps 256605944 a0 (xtsStream a0 a1 a2 a3 a4 a5 a6 a7) := by
  intro a0 a1 a2 a3 a4 a5 a6 a7
  unfold xtsStream
  refine Keeps.via (release_keeps _ _ _ _ _ _ _) rfl ?_
  refine Keeps.via (cipCount_keeps _ _ _ _ _) rfl ?_
  refine Keeps.via (setCtx_keeps _ _ _ _) rfl ?_
  exact Keeps.refl _ _

theorem sendUnit_keeps : ∀ a0 a1 a2 a3 a4 a5 a6 a7, Keeps 136 a0 (sendUnit a0 a1 a2 a3 a4 a5 a6 a7) := by
  intro a0 a1 a2 a3 a4 a5 a6 a7
  unfold sendUnit
  refine Keeps.via (countCtx_keeps _ _ _ _ _) rfl ?_
  refine Keeps.via (sendData_keeps _ _ _ _ _ _ _ _ _) rfl ?_
  exact Keeps.refl _ _

theorem xtsPacket_keeps : ∀ a0 a1 a2 a3 a4 a5 a6 a7, Keeps 256605944 a0 (xtsPacket a0 a1 a2 a3 a4 a5 a6 a7) := by
  intro a0 a1 a2 a3 a4 a5 a6 a7
  unfold xtsPacket
  refine Keeps.ite ?_ ?_
  · refine Keeps.via (cipFail_keeps _ _ _ _ _) rfl ?_
    refine Keeps.via (cipCount_keeps _ _ _ _ _) rfl ?_
    exact Keeps.refl _ _
  · refine Keeps.ite ?_ ?_
    · refine Keeps.via (cipMismatch_keeps _ _ _ _) rfl ?_
      refine Keeps.via (cipCount_keeps _ _ _ _ _) rfl ?_
      refine Keeps.ite ?_ ?_
      · refine Keeps.via (countCtx_keeps _ _ _ _ _) rfl ?_
        exact Keeps.refl _ _
      · refine Keeps.via (sendUnit_keeps _ _ _ _ _ _ _ _) rfl ?_
        refine Keeps.via (countCtx_keeps _ _ _ _ _) rfl ?_
        exact Keeps.refl _ _
    · refine Keeps.via (cipCount_keeps _ _ _ _ _) rfl ?_
      refine Keeps.ite ?_ ?_
      · refine Keeps.via (countCtx_keeps _ _ _ _ _) rfl ?_
        exact Keeps.refl _ _
      · refine Keeps.via (sendUnit_keeps _ _ _ _ _ _ _ _) rfl ?_
        refine Keeps.via (countCtx_keeps _ _ _ _ _) rfl ?_
        exact Keeps.refl _ _

theorem gcmEmit_keeps : ∀ a0 a1 a2 a3 a4 a5 a6 a7, Keeps 256605944 a0 (gcmEmit a0 a1 a2 a3 a4 a5 a6 a7) := by
  intro a0 a1 a2 a3 a4 a5 a6 a7
  unfold gcmEmit
  refine Keeps.via (release_keeps _ _ _ _ _ _ _) rfl ?_
  exact Keeps.refl _ _

theorem gcmEncData_keeps : ∀ a0 a1 a2 a3 a4 a5 a6, Keeps 256605944 a0 (gcmEncData a0 a1 a2 a3 a4 a5 a6) := by
  intro a0 a1 a2 a3 a4 a5 a6
  unfold gcmEncData
  refine Keeps.ite ?_ ?_
  · refine Keeps.via (cipFail_keeps _ _ _ _ _) rfl ?_
    refine Keeps.via (cipCount_keeps _ _ _ _ _) rfl ?_
    refine Keeps.via (setCtx_keeps _ _ _ _) rfl ?_
    exact Keeps.refl _ _
  · refine Keeps.ite ?_ ?_
    · refine Keeps.via (cipCount_keeps _ _ _ _ _) rfl ?_
      refine Keeps.via (setCtx_keeps _ _ _ _) rfl ?_
      exact Keeps.refl _ _
    · refine Keeps.via (gcmEmit_keeps _ _ _ _ _ _ _ _) rfl ?_
      refine Keeps.via (cipCount_keeps _ _ _ _ _) rfl ?_
      refine Keeps.via (setCtx_keeps _ _ _ _) rfl ?_
      exact Keeps.refl _ _

theorem endProvisional_keeps : ∀ a0 a1 a2, Keeps 256081616 a0 (endProvisional a0 a1 a2) := by
  intro a0 a1 a2
  unfold endProvisional
  split
  · exact Keeps.refl _ _
  · refine Keeps.via (ackTicket_keeps _ _ _) rfl ?_
    refine Keeps.via (engineFailed_keeps _ _ _ _) rfl ?_
    refine Keeps.via (report_keeps _ _ _ _) rfl ?_
    refine Keeps.via (zeroWritten_keeps _ _ _) rfl ?_
    exact Keeps.refl _ _

theorem endOut_keeps : ∀ a0 a1 a2 a3 a4 a5, Keeps 256081624 a0 (endOut a0 a1 a2 a3 a4 a5) := by
  intro a0 a1 a2 a3 a4 a5
  unfold endOut
  split
  · exact Keeps.refl _ _
  · refine Keeps.ite ?_ ?_
    · refine Keeps.ite ?_ ?_
      · refine Keeps.via (endProvisional_keeps _ _ _) rfl ?_
        exact Keeps.refl _ _
      · refine Keeps.via (ackTicket_keeps _ _ _) rfl ?_
        exact Keeps.refl _ _
    · refine Keeps.via (setCtx_keeps _ _ _ _) rfl ?_
      refine Keeps.via (sendToken_keeps _ _ _ _ _ _ _ _) rfl ?_
      exact Keeps.refl _ _

theorem xtsEnd_keeps : ∀ a0 a1 a2 a3 a4 a5 a6 a7, Keeps 256605944 a0 (xtsEnd a0 a1 a2 a3 a4 a5 a6 a7) := by
  intro a0 a1 a2 a3 a4 a5 a6 a7
  unfold xtsEnd
  refine Keeps.ite ?_ ?_
  · refine Keeps.via (cipFail_keeps _ _ _ _ _) rfl ?_
    exact Keeps.refl _ _
  · refine Keeps.ite ?_ ?_
    · refine Keeps.via (endOut_keeps _ _ _ _ _ _) rfl ?_
      refine Keeps.via (release_keeps _ _ _ _ _ _ _) rfl ?_
      exact Keeps.refl _ _
    · refine Keeps.via (release_keeps _ _ _ _ _ _ _) rfl ?_
      exact Keeps.refl _ _

theorem gcmEncEnd_keeps : ∀ a0 a1 a2 a3 a4 a5 a6, Keeps 256605944 a0 (gcmEncEnd a0 a1 a2 a3 a4 a5 a6) := by
  intro a0 a1 a2 a3 a4 a5 a6
  unfold gcmEncEnd
  refine Keeps.ite ?_ ?_
  · refine Keeps.via (cipFail_keeps _ _ _ _ _) rfl ?_
    exact Keeps.refl _ _
  · refine Keeps.ite ?_ ?_
    · refine Keeps.via (gcmEmit_keeps _ _ _ _ _ _ _ _) rfl ?_
      exact Keeps.refl _ _
    · refine Keeps.via (endOut_keeps _ _ _ _ _ _) rfl ?_
      refine Keeps.ite ?_ ?_
      · refine Keeps.via (gcmEmit_keeps _ _ _ _ _ _ _ _) rfl ?_
        exact Keeps.refl _ _
      · refine Keeps.ite ?_ ?_
        · refine Keeps.via (setHandle_keeps _ _ _ _) rfl ?_
          refine Keeps.via (gcmEmit_keeps _ _ _ _ _ _ _ _) rfl ?_
          exact Keeps.refl _ _
        · refine Keeps.via (setHandle_keeps _ _ _ _) rfl ?_
          refine Keeps.via (gcmEmit_keeps _ _ _ _ _ _ _ _) rfl ?_
          exact Keeps.refl _ _

theorem gcmDecData_keeps : ∀ a0 a1 a2 a3 a4 a5 a6, Keeps 256605944 a0 (gcmDecData a0 a1 a2 a3 a4 a5 a6) := by
  intro a0 a1 a2 a3 a4 a5 a6
  unfold gcmDecData
  refine Keeps.ite ?_ ?_
  · refine Keeps.ite ?_ ?_
    · refine Keeps.via (cipMismatch_keeps _ _ _ _) rfl ?_
      refine Keeps.via (cipCount_keeps _ _ _ _ _) rfl ?_
      refine Keeps.via (setCtx_keeps _ _ _ _) rfl ?_
      exact Keeps.refl _ _
    · refine Keeps.via (cipCount_keeps _ _ _ _ _) rfl ?_
      refine Keeps.via (setCtx_keeps _ _ _ _) rfl ?_
      exact Keeps.refl _ _
  · refine Keeps.via (gcmEmit_keeps _ _ _ _ _ _ _ _) rfl ?_
    refine Keeps.ite ?_ ?_
    · refine Keeps.via (bump_keeps _ _ _ _ _) rfl ?_
      refine Keeps.via (cipCount_keeps _ _ _ _ _) rfl ?_
      refine Keeps.via (setCtx_keeps _ _ _ _) rfl ?_
      exact Keeps.refl _ _
    · refine Keeps.via (cipCount_keeps _ _ _ _ _) rfl ?_
      refine Keeps.via (setCtx_keeps _ _ _ _) rfl ?_
      exact Keeps.refl _ _

theorem reserveHold_keeps : ∀ a0 a1 a2 a3, Keeps 4096 a0 (reserveHold a0 a1 a2 a3) := by
  intro a0 a1 a2 a3
  unfold reserveHold
  refine Keeps.via (setKey_keeps _ _) rfl ?_
  exact Keeps.refl _ _

theorem gcmAdmit_keeps : ∀ a0 a1 a2 a3 a4, Keeps 4224 a0 (gcmAdmit a0 a1 a2 a3 a4) := by
  intro a0 a1 a2 a3 a4
  unfold gcmAdmit
  refine Keeps.ite ?_ ?_
  · exact Keeps.refl _ _
  · refine Keeps.ite ?_ ?_
    · refine Keeps.via (reserveHold_keeps _ _ _ _) rfl ?_
      exact Keeps.refl _ _
    · refine Keeps.via (setCtx_keeps _ _ _ _) rfl ?_
      refine Keeps.via (setKey_keeps _ _) rfl ?_
      exact Keeps.refl _ _

theorem gcmDecEnd_keeps : ∀ a0 a1 a2 a3 a4 a5 a6, Keeps 256605944 a0 (gcmDecEnd a0 a1 a2 a3 a4 a5 a6) := by
  intro a0 a1 a2 a3 a4 a5 a6
  unfold gcmDecEnd
  refine Keeps.ite ?_ ?_
  · refine Keeps.via (cipFail_keeps _ _ _ _ _) rfl ?_
    exact Keeps.refl _ _
  · refine Keeps.ite ?_ ?_
    · refine Keeps.via (cipMismatch_keeps _ _ _ _) rfl ?_
      exact Keeps.refl _ _
    · split
      · refine Keeps.via (cipFail_keeps _ _ _ _ _) rfl ?_
        exact Keeps.refl _ _
      · refine Keeps.via (endOut_keeps _ _ _ _ _ _) rfl ?_
        refine Keeps.ite ?_ ?_
        · refine Keeps.via (bump_keeps _ _ _ _ _) rfl ?_
          refine Keeps.via (gcmEmit_keeps _ _ _ _ _ _ _ _) rfl ?_
          exact Keeps.refl _ _
        · refine Keeps.via (gcmEmit_keeps _ _ _ _ _ _ _ _) rfl ?_
          exact Keeps.refl _ _

theorem gcmDecTake_keeps : ∀ a0 a1 a2 a3 a4 a5 a6, Keeps 256605944 a0 (gcmDecTake a0 a1 a2 a3 a4 a5 a6) := by
  intro a0 a1 a2 a3 a4 a5 a6
  unfold gcmDecTake
  refine Keeps.ite ?_ ?_
  · refine Keeps.via (setCtx_keeps _ _ _ _) rfl ?_
    exact Keeps.refl _ _
  · refine Keeps.ite ?_ ?_
    · refine Keeps.via (gcmDecEnd_keeps _ _ _ _ _ _ _) rfl ?_
      exact Keeps.refl _ _
    · refine Keeps.ite ?_ ?_
      · refine Keeps.via (cipFail_keeps _ _ _ _ _) rfl ?_
        refine Keeps.via (cipCount_keeps _ _ _ _ _) rfl ?_
        exact Keeps.refl _ _
      · refine Keeps.ite ?_ ?_
        · refine Keeps.via (setCtx_keeps _ _ _ _) rfl ?_
          refine Keeps.ite ?_ ?_
          · refine Keeps.via (gcmAdmit_keeps _ _ _ _ _) rfl ?_
            exact Keeps.refl _ _
          · exact Keeps.refl _ _
        · refine Keeps.via (gcmDecData_keeps _ _ _ _ _ _ _) rfl ?_
          refine Keeps.ite ?_ ?_
          · refine Keeps.via (gcmAdmit_keeps _ _ _ _ _) rfl ?_
            exact Keeps.refl _ _
          · exact Keeps.refl _ _

theorem cipTake_keeps : ∀ a0 a1 a2 a3 a4 a5 a6 a7, Keeps 256605944 a0 (cipTake a0 a1 a2 a3 a4 a5 a6 a7) := by
  intro a0 a1 a2 a3 a4 a5 a6 a7
  unfold cipTake
  try dsimp -proj only
  split
  · refine Keeps.via (cipFail_keeps _ _ _ _ _) rfl ?_
    refine Keeps.via (cipCount_keeps _ _ _ _ _) rfl ?_
    exact Keeps.refl _ _
  · rename_i y1_0 h1
    have k1 : Keeps 256605944 a0 y1_0 := by
      refine KeepsE.of h1 ?_
      refine KeepsE.ite ?_ ?_
      · refine KeepsE.via (cipBegin_keeps _ _ _ _ _ _) rfl ?_
        exact Keeps.refl _ _
      · refine KeepsE.ok ?_
        exact Keeps.refl _ _
    refine Keeps.ite ?_ ?_
    · refine Keeps.via (gcmDecTake_keeps _ _ _ _ _ _ _) rfl ?_
      exact k1
    · refine Keeps.ite ?_ ?_
      · refine Keeps.ite ?_ ?_
        · refine Keeps.via (gcmEncEnd_keeps _ _ _ _ _ _ _) rfl ?_
          exact k1
        · refine Keeps.via (xtsEnd_keeps _ _ _ _ _ _ _ _) rfl ?_
          exact k1
      · refine Keeps.ite ?_ ?_
        · refine Keeps.via (gcmEncData_keeps _ _ _ _ _ _ _) rfl ?_
          exact k1
        · refine Keeps.ite ?_ ?_
          · refine Keeps.via (xtsPacket_keeps _ _ _ _ _ _ _ _) rfl ?_
            exact k1
          · refine Keeps.via (xtsStream_keeps _ _ _ _ _ _ _ _) rfl ?_
            exact k1

theorem dequeue_keeps : ∀ s u w t, dequeue s u = some (w, t) → Keeps 128 s t := by
  intro s u w t h
  unfold dequeue at h
  split at h
  · cases h
  · cases h; exact Keeps.via (setInbox_keeps _ _ _) rfl (Keeps.refl _ _)

theorem cipServe_keeps : ∀ a0 a1 a2 a3, Keeps 256605944 a0 (cipServe a0 a1 a2 a3) := by
  intro a0 a1 a2 a3
  unfold cipServe
  unfold serveFront
  try dsimp -proj only
  unfold serveAt
  try dsimp -proj only
  try dsimp -proj only
  split
  · try dsimp -proj only
    exact Keeps.refl _ _
  · rename_i y1_0 y1_1 h1
    have k1 : Keeps 256605944 a0 y1_1 := by
      refine Keeps.via (dequeue_keeps _ _ _ _ h1) rfl ?_
      exact Keeps.refl _ _
    try dsimp -proj only
    try dsimp -proj only
    split
    · try dsimp -proj only
      exact k1
    · try dsimp -proj only
      refine Keeps.ite ?_ ?_
      · exact k1
      · split
        · try dsimp -proj only
          exact k1
        · try dsimp -proj only
          refine Keeps.ite ?_ ?_
          · split
            · try dsimp -proj only
              refine Keeps.via (failAt_keeps _ _ _ _ _) rfl ?_
              exact k1
            · try dsimp -proj only
              refine Keeps.ite ?_ ?_
              · refine Keeps.via (enqueue_keeps _ _ _) rfl ?_
                exact k1
              · refine Keeps.via (cipTake_keeps _ _ _ _ _ _ _ _) rfl ?_
                exact k1
          · exact Keeps.refl _ _

theorem setAsu_keeps : ∀ a0 a1, Keeps 4194304 a0 (setAsu a0 a1) := by
  intro a0 a1
  unfold setAsu
  refine Keeps.put_asu ?_ rfl _
  exact Keeps.refl _ _

theorem clearGroup_keeps : ∀ a0 a1, Keeps 4194304 a0 (clearGroup a0 a1) := by
  intro a0 a1
  unfold clearGroup
  refine Keeps.via (setAsu_keeps _ _) rfl ?_
  exact Keeps.refl _ _

theorem clearHw_keeps : ∀ a0 a1, Keeps 4096 a0 (clearHw a0 a1) := by
  intro a0 a1
  unfold clearHw
  refine Keeps.put_key ?_ rfl _
  exact Keeps.refl _ _

theorem messageOutcome_keeps : ∀ a0 a1 a2 a3, Keeps 222524112 a0 (messageOutcome a0 a1 a2 a3) := by
  intro a0 a1 a2 a3
  unfold messageOutcome
  split
  · exact Keeps.refl _ _
  · refine Keeps.via (finishPlain_keeps _ _) rfl ?_
    refine Keeps.via (modEntry_keeps _ _ _) rfl ?_
    refine Keeps.via (report_keeps _ _ _ _) rfl ?_
    refine Keeps.ite ?_ ?_
    · refine Keeps.via (bump_keeps _ _ _ _ _) rfl ?_
      refine Keeps.via (park_keeps _ _) rfl ?_
      exact Keeps.refl _ _
    · exact Keeps.refl _ _

theorem closeConn_keeps : ∀ a0 a1 a2, Keeps 222524112 a0 (closeConn a0 a1 a2) := by
  intro a0 a1 a2
  unfold closeConn
  split
  · exact Keeps.refl _ _
  · refine Keeps.foldl (fun x1 _ => ?_) ?_
    · refine Keeps.via (messageOutcome_keeps _ _ _ _) rfl ?_
      exact Keeps.refl _ _
    · refine Keeps.via (setJct_keeps _ _) rfl ?_
      exact Keeps.refl _ _

theorem writeSummary_keeps : ∀ a0 a1 a2, Keeps 8388608 a1 (writeSummary a0 a1 a2) := by
  intro a0 a1 a2
  unfold writeSummary
  refine Keeps.via (setFch_keeps _ _) rfl ?_
  exact Keeps.refl _ _

theorem closeGroup_keeps : ∀ a0 a1, Keeps 25165824 a0 (closeGroup a0 a1) := by
  intro a0 a1
  unfold closeGroup
  refine Keeps.via (setBg_keeps _ _ _) rfl ?_
  refine Keeps.foldl (fun x1 _ => ?_) ?_
  · refine Keeps.via (writeSummary_keeps _ _ _) rfl ?_
    exact Keeps.refl _ _
  · exact Keeps.refl _ _

theorem closeIfFull_keeps : ∀ a0 a1, Keeps 25165824 a0 (closeIfFull a0 a1) := by
  intro a0 a1
  unfold closeIfFull
  refine Keeps.ite ?_ ?_
  · refine Keeps.via (closeGroup_keeps _ _) rfl ?_
    exact Keeps.refl _ _
  · exact Keeps.refl _ _

theorem commitJournal_keeps : ∀ a0 a1, Keeps 222525120 a1 (commitJournal a0 a1) := by
  intro a0 a1
  induction a0 generalizing a1 with
  | zero =>
    rw [commitJournal.eq_1]
    exact Keeps.refl _ _
  | succ n ih =>
    rw [commitJournal.eq_2]
    split
    · exact Keeps.refl _ _
    · refine Keeps.ite ?_ ?_
      · refine Keeps.via (ih _) rfl ?_
        refine Keeps.foldl (fun x1 _ => ?_) ?_
        · refine Keeps.via (unitDone_keeps _ _) rfl ?_
          exact Keeps.refl _ _
        · refine Keeps.via (setFtl_keeps _ _) rfl ?_
          exact Keeps.refl _ _
      · exact Keeps.refl _ _

theorem formJournal_keeps : ∀ a0, Keeps 16777216 a0 (formJournal a0) := by
  intro a0
  unfold formJournal
  refine Keeps.via (setFtl_keeps _ _) rfl ?_
  exact Keeps.refl _ _

theorem commitAll_keeps : ∀ a0 a1, Keeps 222525120 a1 (commitAll a0 a1) := by
  intro a0 a1
  induction a0 generalizing a1 with
  | zero =>
    rw [commitAll.eq_1]
    exact Keeps.refl _ _
  | succ n ih =>
    rw [commitAll.eq_2]
    refine Keeps.ite ?_ ?_
    · refine Keeps.via (commitJournal_keeps _ _) rfl ?_
      refine Keeps.via (setFtl_keeps _ _) rfl ?_
      refine Keeps.ite ?_ ?_
      · exact Keeps.refl _ _
      · refine Keeps.via (formJournal_keeps _) rfl ?_
        exact Keeps.refl _ _
    · refine Keeps.via (ih _) rfl ?_
      refine Keeps.via (commitJournal_keeps _ _) rfl ?_
      refine Keeps.via (setFtl_keeps _ _) rfl ?_
      refine Keeps.ite ?_ ?_
      · exact Keeps.refl _ _
      · refine Keeps.via (formJournal_keeps _) rfl ?_
        exact Keeps.refl _ _

theorem commitHeld_keeps : ∀ a0, Keeps 222525120 a0 (commitHeld a0) := by
  intro a0
  unfold commitHeld
  refine Keeps.via (commitAll_keeps _ _) rfl ?_
  exact Keeps.refl _ _

theorem hold_keeps : ∀ a0 a1, Keeps 222525120 a0 (hold a0 a1) := by
  intro a0 a1
  unfold hold
  refine Keeps.via (setFtl_keeps _ _) rfl ?_
  refine Keeps.ite ?_ ?_
  · refine Keeps.via (commitHeld_keeps _) rfl ?_
    exact Keeps.refl _ _
  · exact Keeps.refl _ _

theorem closeJournal_keeps : ∀ a0, Keeps 222525120 a0 (closeJournal a0) := by
  intro a0
  unfold closeJournal
  refine Keeps.via (setFtl_keeps _ _) rfl ?_
  refine Keeps.via (commitHeld_keeps _) rfl ?_
  refine Keeps.via (hold_keeps _ _) rfl ?_
  refine Keeps.via (commitHeld_keeps _) rfl ?_
  exact Keeps.refl _ _

theorem closeTest_keeps : ∀ a0, Keeps 35129392 a0 (closeTest a0) := by
  intro a0
  unfold closeTest
  refine Keeps.ite ?_ ?_
  · exact Keeps.refl _ _
  · refine Keeps.via (setTst_keeps _ _) rfl ?_
    refine Keeps.via (cancelInjections_keeps _) rfl ?_
    refine Keeps.via (record_keeps _ _ _ _ _ _ _) rfl ?_
    refine Keeps.via (measSecurity_keeps _) rfl ?_
    refine Keeps.via (setTru_keeps _ _) rfl ?_
    exact Keeps.refl _ _

theorem cmpCount_keeps : ∀ a0 a1 a2 a3 a4, Keeps 16 a0 (cmpCount a0 a1 a2 a3 a4) := by
  intro a0 a1 a2 a3 a4
  unfold cmpCount
  refine Keeps.via (bump64_keeps _ _ _) rfl ?_
  refine Keeps.via (bump64_keeps _ _ _) rfl ?_
  exact Keeps.refl _ _

theorem cmpFail_keeps : ∀ a0 a1 a2 a3 a4, Keeps 256081624 a0 (cmpFail a0 a1 a2 a3 a4) := by
  intro a0 a1 a2 a3 a4
  unfold cmpFail
  refine Keeps.via (failAt_keeps _ _ _ _ _) rfl ?_
  split
  · refine Keeps.via (bump_keeps _ _ _ _ _) rfl ?_
    exact Keeps.refl _ _
  · refine Keeps.via (bump_keeps _ _ _ _ _) rfl ?_
    exact Keeps.refl _ _
  · refine Keeps.via (bump_keeps _ _ _ _ _) rfl ?_
    exact Keeps.refl _ _
  · exact Keeps.refl _ _

theorem cmpMismatch_keeps : ∀ a0 a1 a2 a3, Keeps 256605944 a0 (cmpMismatch a0 a1 a2 a3) := by
  intro a0 a1 a2 a3
  unfold cmpMismatch
  refine Keeps.via (countMismatch_keeps _ _ _ _) rfl ?_
  refine Keeps.via (cmpFail_keeps _ _ _ _ _) rfl ?_
  exact Keeps.refl _ _

theorem compressPiece_keeps : ∀ a0 a1 a2 a3 a4 a5 a6, Keeps 256605944 a0 (compressPiece a0 a1 a2 a3 a4 a5 a6) := by
  intro a0 a1 a2 a3 a4 a5 a6
  unfold compressPiece
  refine Keeps.ite ?_ ?_
  · refine Keeps.via (cmpMismatch_keeps _ _ _ _) rfl ?_
    exact Keeps.refl _ _
  · refine Keeps.ite ?_ ?_
    · refine Keeps.via (cmpFail_keeps _ _ _ _ _) rfl ?_
      exact Keeps.refl _ _
    · refine Keeps.via (cmpCount_keeps _ _ _ _ _) rfl ?_
      refine Keeps.via (sendOut_keeps _ _ _ _ _ _ _) rfl ?_
      exact Keeps.refl _ _

theorem cmpEnd_keeps : ∀ a0 a1 a2 a3 a4 a5 a6 a7, Keeps 256605944 a0 (cmpEnd a0 a1 a2 a3 a4 a5 a6 a7) := by
  intro a0 a1 a2 a3 a4 a5 a6 a7
  unfold cmpEnd
  try dsimp -proj only
  split
  · refine Keeps.ite ?_ ?_
    · refine Keeps.via (endOut_keeps _ _ _ _ _ _) rfl ?_
      exact Keeps.refl _ _
    · refine Keeps.via (cmpFail_keeps _ _ _ _ _) rfl ?_
      exact Keeps.refl _ _
  · refine Keeps.ite ?_ ?_
    · refine Keeps.via (endOut_keeps _ _ _ _ _ _) rfl ?_
      refine Keeps.ite ?_ ?_
      · exact Keeps.refl _ _
      · refine Keeps.via (compressPiece_keeps _ _ _ _ _ _ _) rfl ?_
        refine Keeps.via (setCtx_keeps _ _ _ _) rfl ?_
        exact Keeps.refl _ _
    · refine Keeps.ite ?_ ?_
      · exact Keeps.refl _ _
      · refine Keeps.via (compressPiece_keeps _ _ _ _ _ _ _) rfl ?_
        refine Keeps.via (setCtx_keeps _ _ _ _) rfl ?_
        exact Keeps.refl _ _
  · refine Keeps.ite ?_ ?_
    · refine Keeps.via (cmpFail_keeps _ _ _ _ _) rfl ?_
      exact Keeps.refl _ _
    · refine Keeps.ite ?_ ?_
      · refine Keeps.via (cmpFail_keeps _ _ _ _ _) rfl ?_
        exact Keeps.refl _ _
      · refine Keeps.via (endOut_keeps _ _ _ _ _ _) rfl ?_
        exact Keeps.refl _ _
  · refine Keeps.via (endOut_keeps _ _ _ _ _ _) rfl ?_
    exact Keeps.refl _ _

theorem decodeRecords_keeps : ∀ a0 a1 a2 a3 a4 a5 a6, Keeps 256605944 a1 (decodeRecords a0 a1 a2 a3 a4 a5 a6) := by
  intro a0 a1 a2 a3 a4 a5 a6
  induction a0 generalizing a1 a2 a3 a4 a5 a6 with
  | zero =>
    rw [decodeRecords.eq_1]
    exact Keeps.refl _ _
  | succ n ih =>
    rw [decodeRecords.eq_2]
    refine Keeps.ite ?_ ?_
    · exact Keeps.refl _ _
    · refine Keeps.ite ?_ ?_
      · refine Keeps.via (cmpFail_keeps _ _ _ _ _) rfl ?_
        exact Keeps.refl _ _
      · refine Keeps.ite ?_ ?_
        · exact Keeps.refl _ _
        · refine Keeps.ite ?_ ?_
          · refine Keeps.via (cmpFail_keeps _ _ _ _ _) rfl ?_
            refine Keeps.via (setCtx_keeps _ _ _ _) rfl ?_
            exact Keeps.refl _ _
          · split
            · refine Keeps.ite ?_ ?_
              · refine Keeps.via (cmpFail_keeps _ _ _ _ _) rfl ?_
                refine Keeps.ite ?_ ?_
                · refine Keeps.via (bump_keeps _ _ _ _ _) rfl ?_
                  refine Keeps.via (setCtx_keeps _ _ _ _) rfl ?_
                  exact Keeps.refl _ _
                · refine Keeps.via (setCtx_keeps _ _ _ _) rfl ?_
                  exact Keeps.refl _ _
              · refine Keeps.via (ih _ _ _ _ _ _) rfl ?_
                refine Keeps.via (cmpCount_keeps _ _ _ _ _) rfl ?_
                refine Keeps.via (sendOut_keeps _ _ _ _ _ _ _) rfl ?_
                refine Keeps.ite ?_ ?_
                · refine Keeps.via (bump_keeps _ _ _ _ _) rfl ?_
                  refine Keeps.via (setCtx_keeps _ _ _ _) rfl ?_
                  exact Keeps.refl _ _
                · refine Keeps.via (setCtx_keeps _ _ _ _) rfl ?_
                  exact Keeps.refl _ _
            · refine Keeps.via (cmpFail_keeps _ _ _ _ _) rfl ?_
              refine Keeps.via (setCtx_keeps _ _ _ _) rfl ?_
              exact Keeps.refl _ _
            · refine Keeps.via (cmpFail_keeps _ _ _ _ _) rfl ?_
              refine Keeps.via (setCtx_keeps _ _ _ _) rfl ?_
              exact Keeps.refl _ _
            · refine Keeps.via (cmpMismatch_keeps _ _ _ _) rfl ?_
              refine Keeps.via (setCtx_keeps _ _ _ _) rfl ?_
              exact Keeps.refl _ _

theorem streamDecompressData_keeps : ∀ a0 a1 a2 a3 a4 a5 a6, Keeps 256605944 a0 (streamDecompressData a0 a1 a2 a3 a4 a5 a6) := by
  intro a0 a1 a2 a3 a4 a5 a6
  unfold streamDecompressData
  refine Keeps.via (decodeRecords_keeps _ _ _ _ _ _ _) rfl ?_
  refine Keeps.via (cmpCount_keeps _ _ _ _ _) rfl ?_
  refine Keeps.via (setCtx_keeps _ _ _ _) rfl ?_
  exact Keeps.refl _ _

theorem streamCompressData_keeps : ∀ a0 a1 a2 a3 a4 a5 a6, Keeps 256605944 a0 (streamCompressData a0 a1 a2 a3 a4 a5 a6) := by
  intro a0 a1 a2 a3 a4 a5 a6
  unfold streamCompressData
  refine Keeps.foldl (fun x1 _ => ?_) ?_
  · refine Keeps.ite ?_ ?_
    · refine Keeps.via (compressPiece_keeps _ _ _ _ _ _ _) rfl ?_
      exact Keeps.refl _ _
    · exact Keeps.refl _ _
  · refine Keeps.via (cmpCount_keeps _ _ _ _ _) rfl ?_
    refine Keeps.via (setCtx_keeps _ _ _ _) rfl ?_
    exact Keeps.refl _ _

theorem slotDecompressData_keeps : ∀ a0 a1 a2 a3 a4 a5 a6, Keeps 256605944 a0 (slotDecompressData a0 a1 a2 a3 a4 a5 a6) := by
  intro a0 a1 a2 a3 a4 a5 a6
  unfold slotDecompressData
  refine Keeps.ite ?_ ?_
  · refine Keeps.via (cmpFail_keeps _ _ _ _ _) rfl ?_
    refine Keeps.via (cmpCount_keeps _ _ _ _ _) rfl ?_
    refine Keeps.via (countCtx_keeps _ _ _ _ _) rfl ?_
    exact Keeps.refl _ _
  · refine Keeps.ite ?_ ?_
    · refine Keeps.via (cmpCount_keeps _ _ _ _ _) rfl ?_
      refine Keeps.via (sendUnit_keeps _ _ _ _ _ _ _ _) rfl ?_
      refine Keeps.via (cmpCount_keeps _ _ _ _ _) rfl ?_
      refine Keeps.via (countCtx_keeps _ _ _ _ _) rfl ?_
      exact Keeps.refl _ _
    · refine Keeps.ite ?_ ?_
      · refine Keeps.via (cmpFail_keeps _ _ _ _ _) rfl ?_
        refine Keeps.via (cmpCount_keeps _ _ _ _ _) rfl ?_
        refine Keeps.via (countCtx_keeps _ _ _ _ _) rfl ?_
        exact Keeps.refl _ _
      · split
        · refine Keeps.via (cmpCount_keeps _ _ _ _ _) rfl ?_
          refine Keeps.via (sendUnit_keeps _ _ _ _ _ _ _ _) rfl ?_
          refine Keeps.ite ?_ ?_
          · refine Keeps.via (bump_keeps _ _ _ _ _) rfl ?_
            refine Keeps.via (cmpCount_keeps _ _ _ _ _) rfl ?_
            refine Keeps.via (countCtx_keeps _ _ _ _ _) rfl ?_
            exact Keeps.refl _ _
          · refine Keeps.via (cmpCount_keeps _ _ _ _ _) rfl ?_
            refine Keeps.via (countCtx_keeps _ _ _ _ _) rfl ?_
            exact Keeps.refl _ _
        · refine Keeps.via (cmpFail_keeps _ _ _ _ _) rfl ?_
          refine Keeps.via (cmpCount_keeps _ _ _ _ _) rfl ?_
          refine Keeps.via (countCtx_keeps _ _ _ _ _) rfl ?_
          exact Keeps.refl _ _
        · refine Keeps.via (cmpFail_keeps _ _ _ _ _) rfl ?_
          refine Keeps.via (recordLost_keeps _ _ _ _) rfl ?_
          refine Keeps.via (cmpCount_keeps _ _ _ _ _) rfl ?_
          refine Keeps.via (countCtx_keeps _ _ _ _ _) rfl ?_
          exact Keeps.refl _ _
        · refine Keeps.via (cmpMismatch_keeps _ _ _ _) rfl ?_
          refine Keeps.via (cmpCount_keeps _ _ _ _ _) rfl ?_
          refine Keeps.via (countCtx_keeps _ _ _ _ _) rfl ?_
          exact Keeps.refl _ _

theorem compressUnit_keeps : ∀ a0 a1 a2 a3 a4 a5 a6 a7 a8, Keeps 256605944 a0 (compressUnit a0 a1 a2 a3 a4 a5 a6 a7 a8) := by
  intro a0 a1 a2 a3 a4 a5 a6 a7 a8
  unfold compressUnit
  refine Keeps.ite ?_ ?_
  · refine Keeps.via (cmpCount_keeps _ _ _ _ _) rfl ?_
    refine Keeps.via (countCtx_keeps _ _ _ _ _) rfl ?_
    refine Keeps.via (sendData_keeps _ _ _ _ _ _ _ _ _) rfl ?_
    refine Keeps.ite ?_ ?_
    · refine Keeps.via (bump_keeps _ _ _ _ _) rfl ?_
      refine Keeps.via (bump_keeps _ _ _ _ _) rfl ?_
      refine Keeps.via (setCtx_keeps _ _ _ _) rfl ?_
      exact Keeps.refl _ _
    · refine Keeps.ite ?_ ?_
      · refine Keeps.via (bump_keeps _ _ _ _ _) rfl ?_
        refine Keeps.via (setCtx_keeps _ _ _ _) rfl ?_
        exact Keeps.refl _ _
      · refine Keeps.via (report_keeps _ _ _ _) rfl ?_
        refine Keeps.via (bump_keeps _ _ _ _ _) rfl ?_
        refine Keeps.via (setCtx_keeps _ _ _ _) rfl ?_
        exact Keeps.refl _ _
  · refine Keeps.ite ?_ ?_
    · refine Keeps.via (cmpMismatch_keeps _ _ _ _) rfl ?_
      refine Keeps.via (setCtx_keeps _ _ _ _) rfl ?_
      exact Keeps.refl _ _
    · refine Keeps.via (cmpCount_keeps _ _ _ _ _) rfl ?_
      refine Keeps.via (countCtx_keeps _ _ _ _ _) rfl ?_
      refine Keeps.via (sendData_keeps _ _ _ _ _ _ _ _ _) rfl ?_
      split
      · refine Keeps.via (bump_keeps _ _ _ _ _) rfl ?_
        refine Keeps.via (setCtx_keeps _ _ _ _) rfl ?_
        exact Keeps.refl _ _
      · refine Keeps.via (bump_keeps _ _ _ _ _) rfl ?_
        refine Keeps.via (setCtx_keeps _ _ _ _) rfl ?_
        exact Keeps.refl _ _
      · refine Keeps.via (bump_keeps _ _ _ _ _) rfl ?_
        refine Keeps.via (setCtx_keeps _ _ _ _) rfl ?_
        exact Keeps.refl _ _

theorem compressUnits_keeps : ∀ a0 a1 a2 a3 a4 a5 a6 a7, Keeps 256605944 a1 (compressUnits a0 a1 a2 a3 a4 a5 a6 a7) := by
  intro a0 a1 a2 a3 a4 a5 a6 a7
  induction a0 generalizing a1 a2 a3 a4 a5 a6 a7 with
  | zero =>
    rw [compressUnits.eq_1]
    exact Keeps.refl _ _
  | succ n ih =>
    rw [compressUnits.eq_2]
    refine Keeps.ite ?_ ?_
    · exact Keeps.refl _ _
    · refine Keeps.via (ih _ _ _ _ _ _ _) rfl ?_
      refine Keeps.via (compressUnit_keeps _ _ _ _ _ _ _ _ _) rfl ?_
      refine Keeps.via (setCtx_keeps _ _ _ _) rfl ?_
      exact Keeps.refl _ _

theorem slotCompressData_keeps : ∀ a0 a1 a2 a3 a4 a5 a6, Keeps 256605944 a0 (slotCompressData a0 a1 a2 a3 a4 a5 a6) := by
  intro a0 a1 a2 a3 a4 a5 a6
  unfold slotCompressData
  refine Keeps.via (compressUnits_keeps _ _ _ _ _ _ _ _) rfl ?_
  refine Keeps.via (cmpCount_keeps _ _ _ _ _) rfl ?_
  refine Keeps.via (setCtx_keeps _ _ _ _) rfl ?_
  exact Keeps.refl _ _

theorem cmpServe_keeps : ∀ a0 a1 a2 a3 a4, Keeps 256605944 a0 (cmpServe a0 a1 a2 a3 a4) := by
  intro a0 a1 a2 a3 a4
  unfold cmpServe
  unfold serveFront
  try dsimp -proj only
  unfold serveAt
  try dsimp -proj only
  try dsimp -proj only
  split
  · try dsimp -proj only
    exact Keeps.refl _ _
  · rename_i y1_0 y1_1 h1
    have k1 : Keeps 256605944 a0 y1_1 := by
      refine Keeps.via (dequeue_keeps _ _ _ _ h1) rfl ?_
      exact Keeps.refl _ _
    try dsimp -proj only
    try dsimp -proj only
    split
    · try dsimp -proj only
      exact k1
    · try dsimp -proj only
      refine Keeps.ite ?_ ?_
      · exact k1
      · split
        · try dsimp -proj only
          exact k1
        · try dsimp -proj only
          refine Keeps.ite ?_ ?_
          · split
            · try dsimp -proj only
              refine Keeps.via (failAt_keeps _ _ _ _ _) rfl ?_
              exact k1
            · try dsimp -proj only
              refine Keeps.ite ?_ ?_
              · refine Keeps.ite ?_ ?_
                · refine Keeps.via (cmpEnd_keeps _ _ _ _ _ _ _ _) rfl ?_
                  exact k1
                · refine Keeps.via (enqueue_keeps _ _ _) rfl ?_
                  exact k1
              · split
                · try dsimp -proj only
                  refine Keeps.via (slotCompressData_keeps _ _ _ _ _ _ _) rfl ?_
                  exact k1
                · try dsimp -proj only
                  refine Keeps.via (slotDecompressData_keeps _ _ _ _ _ _ _) rfl ?_
                  exact k1
                · try dsimp -proj only
                  refine Keeps.via (streamCompressData_keeps _ _ _ _ _ _ _) rfl ?_
                  exact k1
                · try dsimp -proj only
                  refine Keeps.via (streamDecompressData_keeps _ _ _ _ _ _ _) rfl ?_
                  exact k1
          · exact Keeps.refl _ _

theorem countSince_keeps : ∀ a0 a1 a2, Keeps 16777216 a0 (countSince a0 a1 a2) := by
  intro a0 a1 a2
  unfold countSince
  refine Keeps.via (setFtl_keeps _ _) rfl ?_
  exact Keeps.refl _ _

theorem countTier_keeps : ∀ a0 a1 a2 a3, Keeps 50333744 a0 (countTier a0 a1 a2 a3) := by
  intro a0 a1 a2 a3
  unfold countTier
  refine Keeps.ite ?_ ?_
  · refine Keeps.via (judgeDegraded_keeps _) rfl ?_
    refine Keeps.ite ?_ ?_
    · refine Keeps.via (setBg_keeps _ _ _) rfl ?_
      refine Keeps.ite ?_ ?_
      · split
        · refine Keeps.via (bump_keeps _ _ _ _ _) rfl ?_
          exact Keeps.refl _ _
        · refine Keeps.via (bump_keeps _ _ _ _ _) rfl ?_
          exact Keeps.refl _ _
        · refine Keeps.via (bump_keeps _ _ _ _ _) rfl ?_
          exact Keeps.refl _ _
        · refine Keeps.via (bump_keeps _ _ _ _ _) rfl ?_
          exact Keeps.refl _ _
        · exact Keeps.refl _ _
        · refine Keeps.via (bump_keeps _ _ _ _ _) rfl ?_
          exact Keeps.refl _ _
      · refine Keeps.via (countSince_keeps _ _ _) rfl ?_
        split
        · refine Keeps.via (bump_keeps _ _ _ _ _) rfl ?_
          exact Keeps.refl _ _
        · refine Keeps.via (bump_keeps _ _ _ _ _) rfl ?_
          exact Keeps.refl _ _
        · refine Keeps.via (bump_keeps _ _ _ _ _) rfl ?_
          exact Keeps.refl _ _
        · refine Keeps.via (bump_keeps _ _ _ _ _) rfl ?_
          exact Keeps.refl _ _
        · exact Keeps.refl _ _
        · refine Keeps.via (bump_keeps _ _ _ _ _) rfl ?_
          exact Keeps.refl _ _
    · refine Keeps.ite ?_ ?_
      · split
        · refine Keeps.via (bump_keeps _ _ _ _ _) rfl ?_
          exact Keeps.refl _ _
        · refine Keeps.via (bump_keeps _ _ _ _ _) rfl ?_
          exact Keeps.refl _ _
        · refine Keeps.via (bump_keeps _ _ _ _ _) rfl ?_
          exact Keeps.refl _ _
        · refine Keeps.via (bump_keeps _ _ _ _ _) rfl ?_
          exact Keeps.refl _ _
        · exact Keeps.refl _ _
        · refine Keeps.via (bump_keeps _ _ _ _ _) rfl ?_
          exact Keeps.refl _ _
      · refine Keeps.via (countSince_keeps _ _ _) rfl ?_
        split
        · refine Keeps.via (bump_keeps _ _ _ _ _) rfl ?_
          exact Keeps.refl _ _
        · refine Keeps.via (bump_keeps _ _ _ _ _) rfl ?_
          exact Keeps.refl _ _
        · refine Keeps.via (bump_keeps _ _ _ _ _) rfl ?_
          exact Keeps.refl _ _
        · refine Keeps.via (bump_keeps _ _ _ _ _) rfl ?_
          exact Keeps.refl _ _
        · exact Keeps.refl _ _
        · refine Keeps.via (bump_keeps _ _ _ _ _) rfl ?_
          exact Keeps.refl _ _
  · refine Keeps.ite ?_ ?_
    · refine Keeps.via (setBg_keeps _ _ _) rfl ?_
      refine Keeps.ite ?_ ?_
      · split
        · refine Keeps.via (bump_keeps _ _ _ _ _) rfl ?_
          exact Keeps.refl _ _
        · refine Keeps.via (bump_keeps _ _ _ _ _) rfl ?_
          exact Keeps.refl _ _
        · refine Keeps.via (bump_keeps _ _ _ _ _) rfl ?_
          exact Keeps.refl _ _
        · refine Keeps.via (bump_keeps _ _ _ _ _) rfl ?_
          exact Keeps.refl _ _
        · exact Keeps.refl _ _
        · refine Keeps.via (bump_keeps _ _ _ _ _) rfl ?_
          exact Keeps.refl _ _
      · refine Keeps.via (countSince_keeps _ _ _) rfl ?_
        split
        · refine Keeps.via (bump_keeps _ _ _ _ _) rfl ?_
          exact Keeps.refl _ _
        · refine Keeps.via (bump_keeps _ _ _ _ _) rfl ?_
          exact Keeps.refl _ _
        · refine Keeps.via (bump_keeps _ _ _ _ _) rfl ?_
          exact Keeps.refl _ _
        · refine Keeps.via (bump_keeps _ _ _ _ _) rfl ?_
          exact Keeps.refl _ _
        · exact Keeps.refl _ _
        · refine Keeps.via (bump_keeps _ _ _ _ _) rfl ?_
          exact Keeps.refl _ _
    · refine Keeps.ite ?_ ?_
      · split
        · refine Keeps.via (bump_keeps _ _ _ _ _) rfl ?_
          exact Keeps.refl _ _
        · refine Keeps.via (bump_keeps _ _ _ _ _) rfl ?_
          exact Keeps.refl _ _
        · refine Keeps.via (bump_keeps _ _ _ _ _) rfl ?_
          exact Keeps.refl _ _
        · refine Keeps.via (bump_keeps _ _ _ _ _) rfl ?_
          exact Keeps.refl _ _
        · exact Keeps.refl _ _
        · refine Keeps.via (bump_keeps _ _ _ _ _) rfl ?_
          exact Keeps.refl _ _
      · refine Keeps.via (countSince_keeps _ _ _) rfl ?_
        split
        · refine Keeps.via (bump_keeps _ _ _ _ _) rfl ?_
          exact Keeps.refl _ _
        · refine Keeps.via (bump_keeps _ _ _ _ _) rfl ?_
          exact Keeps.refl _ _
        · refine Keeps.via (bump_keeps _ _ _ _ _) rfl ?_
          exact Keeps.refl _ _
        · refine Keeps.via (bump_keeps _ _ _ _ _) rfl ?_
          exact Keeps.refl _ _
        · exact Keeps.refl _ _
        · refine Keeps.via (bump_keeps _ _ _ _ _) rfl ?_
          exact Keeps.refl _ _

theorem codewordLost_keeps : ∀ a0 a1 a2, Keeps 256081656 a0 (codewordLost a0 a1 a2) := by
  intro a0 a1 a2
  unfold codewordLost
  refine Keeps.via (failAt_keeps _ _ _ _ _) rfl ?_
  refine Keeps.via (recordLost_keeps _ _ _ _) rfl ?_
  refine Keeps.via (countTier_keeps _ _ _ _) rfl ?_
  exact Keeps.refl _ _

theorem commitEffect_keeps : ∀ a0 a1, Keeps 268402672 a0 (commitEffect a0 a1) := by
  intro a0 a1
  unfold commitEffect
  split
  · exact Keeps.refl _ _
  · refine Keeps.ite ?_ ?_
    · refine Keeps.via (judgeSet_keeps _ _ _) rfl ?_
      exact Keeps.refl _ _
    · exact Keeps.refl _ _

theorem unitWritten_keeps : ∀ a0 a1, Keeps 64 a0 (unitWritten a0 a1) := by
  intro a0 a1
  unfold unitWritten
  split
  · refine Keeps.via (modEntry_keeps _ _ _) rfl ?_
    exact Keeps.refl _ _
  · exact Keeps.refl _ _

theorem dirtyPage_keeps : ∀ a0 a1 a2, Keeps 16777216 a0 (dirtyPage a0 a1 a2) := by
  intro a0 a1 a2
  unfold dirtyPage
  refine Keeps.ite ?_ ?_
  · refine Keeps.via (setFtl_keeps _ _) rfl ?_
    exact Keeps.refl _ _
  · refine Keeps.via (cachePage_keeps _ _) rfl ?_
    refine Keeps.via (setFtl_keeps _ _) rfl ?_
    exact Keeps.refl _ _

theorem markDirty_keeps : ∀ a0 a1, Keeps 16777216 a0 (markDirty a0 a1) := by
  intro a0 a1
  unfold markDirty
  refine Keeps.via (dirtyPage_keeps _ _ _) rfl ?_
  refine Keeps.via (dirtyPage_keeps _ _ _) rfl ?_
  refine Keeps.via (dirtyPage_keeps _ _ _) rfl ?_
  exact Keeps.refl _ _

theorem mapSet_keeps : ∀ a0 a1 a2, Keeps 16777216 a0 (mapSet a0 a1 a2) := by
  intro a0 a1 a2
  unfold mapSet
  refine Keeps.via (markDirty_keeps _ _) rfl ?_
  refine Keeps.via (setFtl_keeps _ _) rfl ?_
  exact Keeps.refl _ _

theorem dropStaged_keeps : ∀ a0 a1 a2, Keeps 16777280 a0 (dropStaged a0 a1 a2) := by
  intro a0 a1 a2
  unfold dropStaged
  split
  · exact Keeps.refl _ _
  · try dsimp -proj only
    split
    · refine Keeps.via (setFtl_keeps _ _) rfl ?_
      exact Keeps.refl _ _
    · refine Keeps.ite ?_ ?_
      · refine Keeps.via (freeStaged_keeps _ _) rfl ?_
        refine Keeps.via (setFtl_keeps _ _) rfl ?_
        exact Keeps.refl _ _
      · refine Keeps.ite ?_ ?_
        · refine Keeps.put_sbx ?_ rfl _
          refine Keeps.via (setFtl_keeps _ _) rfl ?_
          refine Keeps.via (setFtl_keeps _ _) rfl ?_
          exact Keeps.refl _ _
        · refine Keeps.via (setFtl_keeps _ _) rfl ?_
          refine Keeps.via (setFtl_keeps _ _) rfl ?_
          exact Keeps.refl _ _

theorem mapPagePassed_keeps : ∀ a0 a1 a2, Keeps 16777280 a0 (mapPagePassed a0 a1 a2) := by
  intro a0 a1 a2
  unfold mapPagePassed
  refine Keeps.ite ?_ ?_
  · exact Keeps.refl _ _
  · refine Keeps.ite ?_ ?_
    · refine Keeps.via (dirtyPage_keeps _ _ _) rfl ?_
      refine Keeps.via (unitWritten_keeps _ _) rfl ?_
      refine Keeps.via (setFtl_keeps _ _) rfl ?_
      exact Keeps.refl _ _
    · refine Keeps.via (unitWritten_keeps _ _) rfl ?_
      refine Keeps.via (setFtl_keeps _ _) rfl ?_
      exact Keeps.refl _ _

theorem slotPassed_keeps : ∀ a0 a1 a2, Keeps 222525120 a0 (slotPassed a0 a1 a2) := by
  intro a0 a1 a2
  unfold slotPassed
  refine Keeps.ite ?_ ?_
  · exact Keeps.refl _ _
  · refine Keeps.ite ?_ ?_
    · refine Keeps.via (unitDone_keeps _ _) rfl ?_
      refine Keeps.via (mapPagePassed_keeps _ _ _) rfl ?_
      exact Keeps.refl _ _
    · split
      · split
        · refine Keeps.via (unitDone_keeps _ _) rfl ?_
          exact Keeps.refl _ _
        · refine Keeps.ite ?_ ?_
          · refine Keeps.via (unitDone_keeps _ _) rfl ?_
            refine Keeps.via (freeStaged_keeps _ _) rfl ?_
            exact Keeps.refl _ _
          · refine Keeps.via (hold_keeps _ _) rfl ?_
            refine Keeps.via (mapSet_keeps _ _ _) rfl ?_
            refine Keeps.via (unitWritten_keeps _ _) rfl ?_
            refine Keeps.ite ?_ ?_
            · refine Keeps.via (freeStaged_keeps _ _) rfl ?_
              exact Keeps.refl _ _
            · refine Keeps.ite ?_ ?_
              · refine Keeps.via (dropStaged_keeps _ _ _) rfl ?_
                refine Keeps.via (freeStaged_keeps _ _) rfl ?_
                exact Keeps.refl _ _
              · refine Keeps.via (setFtl_keeps _ _) rfl ?_
                refine Keeps.via (freeStaged_keeps _ _) rfl ?_
                exact Keeps.refl _ _
      · refine Keeps.ite ?_ ?_
        · refine Keeps.via (hold_keeps _ _) rfl ?_
          refine Keeps.via (mapSet_keeps _ _ _) rfl ?_
          refine Keeps.via (unitWritten_keeps _ _) rfl ?_
          exact Keeps.refl _ _
        · refine Keeps.via (unitDone_keeps _ _) rfl ?_
          exact Keeps.refl _ _
      · refine Keeps.via (hold_keeps _ _) rfl ?_
        refine Keeps.via (mapSet_keeps _ _ _) rfl ?_
        refine Keeps.via (dropStaged_keeps _ _ _) rfl ?_
        refine Keeps.via (unitWritten_keeps _ _) rfl ?_
        exact Keeps.refl _ _

theorem programPassed_keeps : ∀ a0 a1 a2, Keeps 230913728 a0 (programPassed a0 a1 a2) := by
  intro a0 a1 a2
  unfold programPassed
  refine Keeps.via (judgeFold_keeps _) rfl ?_
  refine Keeps.via (closeIfFull_keeps _ _) rfl ?_
  refine Keeps.ite ?_ ?_
  · refine Keeps.via (beginCkpt_keeps _) rfl ?_
    refine Keeps.via (setFtl_keeps _ _) rfl ?_
    refine Keeps.ite ?_ ?_
    · refine Keeps.foldl (fun x1 _ => ?_) ?_
      · refine Keeps.via (slotPassed_keeps _ _ _) rfl ?_
        exact Keeps.refl _ _
      · refine Keeps.via (setBg_keeps _ _ _) rfl ?_
        refine Keeps.via (setFch_keeps _ _) rfl ?_
        exact Keeps.refl _ _
    · refine Keeps.via (flushEnded_keeps _ _) rfl ?_
      refine Keeps.foldl (fun x2 _ => ?_) ?_
      · refine Keeps.via (slotPassed_keeps _ _ _) rfl ?_
        exact Keeps.refl _ _
      · refine Keeps.via (setBg_keeps _ _ _) rfl ?_
        refine Keeps.via (setFch_keeps _ _) rfl ?_
        exact Keeps.refl _ _
  · refine Keeps.via (setFtl_keeps _ _) rfl ?_
    refine Keeps.ite ?_ ?_
    · refine Keeps.foldl (fun x3 _ => ?_) ?_
      · refine Keeps.via (slotPassed_keeps _ _ _) rfl ?_
        exact Keeps.refl _ _
      · refine Keeps.via (setBg_keeps _ _ _) rfl ?_
        refine Keeps.via (setFch_keeps _ _) rfl ?_
        exact Keeps.refl _ _
    · refine Keeps.via (flushEnded_keeps _ _) rfl ?_
      refine Keeps.foldl (fun x4 _ => ?_) ?_
      · refine Keeps.via (slotPassed_keeps _ _ _) rfl ?_
        exact Keeps.refl _ _
      · refine Keeps.via (setBg_keeps _ _ _) rfl ?_
        refine Keeps.via (setFch_keeps _ _) rfl ?_
        exact Keeps.refl _ _

theorem placeRun_keeps : ∀ a0 a1 a2 a3, Keeps 230913728 a0 (placeRun a0 a1 a2 a3).1 := by
  intro a0 a1 a2 a3
  unfold placeRun
  refine Keeps.foldl1 (fun x1 _ => ?_) ?_
  · split
    · rename_i y2_0 h2
      have k2 : Keeps 230913728 x1.1 y2_0 := by
        refine KeepsM.of h2 ?_
        refine KeepsM.via (placeAny_keeps _ _ _ _ _) rfl ?_
        exact Keeps.refl _ _
      exact k2
    · exact Keeps.refl _ _
  · exact Keeps.refl _ _

theorem recopy_keeps : ∀ a0 a1 a2, Keeps 230913728 a0 (recopy a0 a1 a2) := by
  intro a0 a1 a2
  unfold recopy
  refine Keeps.via (placeRun_keeps _ _ _ _) rfl ?_
  exact Keeps.refl _ _

theorem poolGroup_keeps : ∀ a0 a1, Keeps 16777216 a0 (poolGroup a0 a1) := by
  intro a0 a1
  unfold poolGroup
  refine Keeps.via (setFtl_keeps _ _) rfl ?_
  exact Keeps.refl _ _

theorem retireBlock_keeps : ∀ a0 a1 a2 a3, Keeps 264470256 a0 (retireBlock a0 a1 a2 a3) := by
  intro a0 a1 a2 a3
  unfold retireBlock
  refine Keeps.ite ?_ ?_
  · exact Keeps.refl _ _
  · refine Keeps.via (judgeSpare_keeps _) rfl ?_
    refine Keeps.via (recopy_keeps _ _ _) rfl ?_
    split
    · refine Keeps.via (setBg_keeps _ _ _) rfl ?_
      refine Keeps.via (setFtl_keeps _ _) rfl ?_
      refine Keeps.via (setFtl_keeps _ _) rfl ?_
      refine Keeps.via (setFtl_keeps _ _) rfl ?_
      refine Keeps.via (bump_keeps _ _ _ _ _) rfl ?_
      refine Keeps.via (hold_keeps _ _) rfl ?_
      exact Keeps.refl _ _
    · refine Keeps.ite ?_ ?_
      · refine Keeps.via (setFtl_keeps _ _) rfl ?_
        refine Keeps.via (setFtl_keeps _ _) rfl ?_
        refine Keeps.via (bump_keeps _ _ _ _ _) rfl ?_
        refine Keeps.via (hold_keeps _ _) rfl ?_
        exact Keeps.refl _ _
      · refine Keeps.ite ?_ ?_
        · refine Keeps.via (poolGroup_keeps _ _) rfl ?_
          refine Keeps.via (setBg_keeps _ _ _) rfl ?_
          refine Keeps.via (bump_keeps _ _ _ _ _) rfl ?_
          refine Keeps.via (setFtl_keeps _ _) rfl ?_
          refine Keeps.via (setFtl_keeps _ _) rfl ?_
          refine Keeps.via (bump_keeps _ _ _ _ _) rfl ?_
          refine Keeps.via (hold_keeps _ _) rfl ?_
          exact Keeps.refl _ _
        · refine Keeps.via (setBg_keeps _ _ _) rfl ?_
          refine Keeps.via (bump_keeps _ _ _ _ _) rfl ?_
          refine Keeps.via (setFtl_keeps _ _) rfl ?_
          refine Keeps.via (setFtl_keeps _ _) rfl ?_
          refine Keeps.via (bump_keeps _ _ _ _ _) rfl ?_
          refine Keeps.via (hold_keeps _ _) rfl ?_
          exact Keeps.refl _ _

theorem programFailed_keeps : ∀ a0 a1 a2, Keeps 264470256 a0 (programFailed a0 a1 a2) := by
  intro a0 a1 a2
  unfold programFailed
  refine Keeps.via (judgeFold_keeps _) rfl ?_
  refine Keeps.foldl (fun x1 _ => ?_) ?_
  · refine Keeps.via (reissue_keeps _ _ _) rfl ?_
    exact Keeps.refl _ _
  · refine Keeps.via (retireBlock_keeps _ _ _ _) rfl ?_
    refine Keeps.foldl (fun x2 _ => ?_) ?_
    · refine Keeps.via (leaveStripe_keeps _ _ _) rfl ?_
      exact Keeps.refl _ _
    · refine Keeps.via (setChan_keeps _ _ _) rfl ?_
      exact Keeps.refl _ _

theorem endErase_keeps : ∀ a0 a1 a2 a3, Keeps 8388608 a0 (endErase a0 a1 a2 a3) := by
  intro a0 a1 a2 a3
  unfold endErase
  refine Keeps.via (setChan_keeps _ _ _) rfl ?_
  exact Keeps.refl _ _

theorem passOne_keeps : ∀ a0 a1 a2, Keeps 264470256 a1 (passOne a0 a1 a2) := by
  intro a0 a1 a2
  unfold passOne
  split
  · exact Keeps.refl _ _
  · refine Keeps.ite ?_ ?_
    · refine Keeps.via (programFailed_keeps _ _ _) rfl ?_
      refine Keeps.via (endErase_keeps _ _ _ _) rfl ?_
      refine Keeps.via (setChan_keeps _ _ _) rfl ?_
      exact Keeps.refl _ _
    · refine Keeps.via (programPassed_keeps _ _ _) rfl ?_
      refine Keeps.via (endErase_keeps _ _ _ _) rfl ?_
      refine Keeps.via (setChan_keeps _ _ _) rfl ?_
      exact Keeps.refl _ _

theorem passAll_keeps : ∀ a0 a1 a2, Keeps 264470256 a2 (passAll a0 a1 a2) := by
  intro a0 a1 a2
  induction a1 generalizing a0 a2 with
  | zero =>
    rw [passAll.eq_1]
    exact Keeps.refl _ _
  | succ n ih =>
    rw [passAll.eq_2]
    refine Keeps.ite ?_ ?_
    · exact Keeps.refl _ _
    · refine Keeps.via (ih _ _) rfl ?_
      refine Keeps.foldl (fun x1 _ => ?_) ?_
      · refine Keeps.via (passOne_keeps _ _ _) rfl ?_
        exact Keeps.refl _ _
      · exact Keeps.refl _ _

theorem sealShort_keeps : ∀ a0 a1 a2, Keeps 230913744 a0 (sealShort a0 a1 a2) := by
  intro a0 a1 a2
  unfold sealShort
  split
  · exact Keeps.refl _ _
  · refine Keeps.ite ?_ ?_
    · refine Keeps.via (sealPage_keeps _ _ _) rfl ?_
      exact Keeps.refl _ _
    · refine Keeps.via (bump_keeps _ _ _ _ _) rfl ?_
      refine Keeps.via (sealPage_keeps _ _ _) rfl ?_
      exact Keeps.refl _ _

theorem sealAll_keeps : ∀ a0 a1, Keeps 230913744 a0 (sealAll a0 a1) := by
  intro a0 a1
  unfold sealAll
  refine Keeps.foldl (fun x1 _ => ?_) ?_
  · refine Keeps.via (sealShort_keeps _ _ _) rfl ?_
    exact Keeps.refl _ _
  · exact Keeps.refl _ _

theorem flushPages_keeps : ∀ a0 a1 a2, Keeps 264470256 a0 (flushPages a0 a1 a2) := by
  intro a0 a1 a2
  unfold flushPages
  refine Keeps.via (passAll_keeps _ _ _) rfl ?_
  refine Keeps.via (sealAll_keeps _ _) rfl ?_
  exact Keeps.refl _ _

theorem countRead_keeps : ∀ a0 a1, Keeps 16777216 a0 (countRead a0 a1) := by
  intro a0 a1
  unfold countRead
  split
  · refine Keeps.via (setBg_keeps _ _ _) rfl ?_
    exact Keeps.refl _ _
  · exact Keeps.refl _ _

theorem readSource_keeps : ∀ a0 a1 a2, Keeps 50333744 a1 (readSource a0 a1 a2) := by
  intro a0 a1 a2
  unfold readSource
  split
  · exact Keeps.refl _ _
  · refine Keeps.ite ?_ ?_
    · refine Keeps.foldl (fun x1 _ => ?_) ?_
      · refine Keeps.via (countTier_keeps _ _ _ _) rfl ?_
        exact Keeps.refl _ _
      · refine Keeps.via (countRead_keeps _ _) rfl ?_
        exact Keeps.refl _ _
    · refine Keeps.ite ?_ ?_
      · refine Keeps.via (setFtl_keeps _ _) rfl ?_
        refine Keeps.via (recordLost_keeps _ _ _ _) rfl ?_
        refine Keeps.foldl (fun x2 _ => ?_) ?_
        · refine Keeps.via (countTier_keeps _ _ _ _) rfl ?_
          exact Keeps.refl _ _
        · refine Keeps.via (countRead_keeps _ _) rfl ?_
          exact Keeps.refl _ _
      · refine Keeps.via (dirtyPage_keeps _ _ _) rfl ?_
        refine Keeps.via (recordLost_keeps _ _ _ _) rfl ?_
        refine Keeps.foldl (fun x3 _ => ?_) ?_
        · refine Keeps.via (countTier_keeps _ _ _ _) rfl ?_
          exact Keeps.refl _ _
        · refine Keeps.via (countRead_keeps _ _) rfl ?_
          exact Keeps.refl _ _

theorem copyGroup_keeps : ∀ a0 a1 a2 a3, Keeps 264470256 a0 (copyGroup a0 a1 a2 a3) := by
  intro a0 a1 a2 a3
  unfold copyGroup
  refine Keeps.via (commitHeld_keeps _) rfl ?_
  refine Keeps.via (flushPages_keeps _ _ _) rfl ?_
  refine Keeps.via (placeRun_keeps _ _ _ _) rfl ?_
  refine Keeps.via (book_keeps _ _ _) rfl ?_
  refine Keeps.foldl (fun x1 _ => ?_) ?_
  · refine Keeps.via (readSource_keeps _ _ _) rfl ?_
    exact Keeps.refl _ _
  · exact Keeps.refl _ _

theorem coreHold_keeps : ∀ a0 a1, Keeps 16384 a0 (coreHold a0 a1) := by
  intro a0 a1
  unfold coreHold
  try dsimp -proj only
  split
  · refine Keeps.ite ?_ ?_
    · refine Keeps.via (setCore_keeps _ _ _) rfl ?_
      exact Keeps.refl _ _
    · refine Keeps.via (setCore_keeps _ _ _) rfl ?_
      exact Keeps.refl _ _
  · refine Keeps.via (setCore_keeps _ _ _) rfl ?_
    exact Keeps.refl _ _
  · refine Keeps.via (setCore_keeps _ _ _) rfl ?_
    exact Keeps.refl _ _
  · refine Keeps.via (setCore_keeps _ _ _) rfl ?_
    exact Keeps.refl _ _
  · exact Keeps.refl _ _

theorem regRead_keeps : ∀ a0 a1, Keeps 71196 a0 (regRead a0 a1).2 := by
  intro a0 a1
  unfold regRead
  split
  · refine Keeps.ite2 ?_ ?_
    · exact Keeps.refl _ _
    · exact Keeps.refl _ _
  · refine Keeps.via (barRead_keeps _ _) rfl ?_
    exact Keeps.refl _ _

theorem regLoad_keeps : ∀ a0 a1 a2, Keeps 71196 a0 (regLoad a0 a1 a2).2 := by
  intro a0 a1 a2
  unfold regLoad
  refine Keeps.ite2 ?_ ?_
  · refine Keeps.via (regRead_keeps _ _) rfl ?_
    exact Keeps.refl _ _
  · refine Keeps.ite2 ?_ ?_
    · refine Keeps.via (regRead_keeps _ _) rfl ?_
      refine Keeps.via (regRead_keeps _ _) rfl ?_
      exact Keeps.refl _ _
    · exact Keeps.refl _ _

theorem pageAccess_keeps : ∀ a0 a1 a2, Keeps 33554448 a0 (pageAccess a0 a1 a2) := by
  intro a0 a1 a2
  unfold pageAccess
  refine Keeps.ite ?_ ?_
  · refine Keeps.via (setDram_keeps _ _ _) rfl ?_
    exact Keeps.refl _ _
  · refine Keeps.ite ?_ ?_
    · refine Keeps.via (bump_keeps _ _ _ _ _) rfl ?_
      refine Keeps.via (setDram_keeps _ _ _) rfl ?_
      exact Keeps.refl _ _
    · refine Keeps.via (bump_keeps _ _ _ _ _) rfl ?_
      refine Keeps.via (setDram_keeps _ _ _) rfl ?_
      exact Keeps.refl _ _

theorem groupAccess_keeps : ∀ a0 a1 a2, Keeps 33554448 a0 (groupAccess a0 a1 a2) := by
  intro a0 a1 a2
  unfold groupAccess
  refine Keeps.ite ?_ ?_
  · refine Keeps.via (pageAccess_keeps _ _ _) rfl ?_
    exact Keeps.refl _ _
  · refine Keeps.via (pageAccess_keeps _ _ _) rfl ?_
    refine Keeps.via (pageAccess_keeps _ _ _) rfl ?_
    exact Keeps.refl _ _

theorem rangeAccess_keeps : ∀ a0 a1 a2 a3, Keeps 33554448 a0 (rangeAccess a0 a1 a2 a3) := by
  intro a0 a1 a2 a3
  unfold rangeAccess
  refine Keeps.foldl (fun x1 _ => ?_) ?_
  · refine Keeps.ite ?_ ?_
    · refine Keeps.via (groupAccess_keeps _ _ _) rfl ?_
      exact Keeps.refl _ _
    · exact Keeps.refl _ _
  · exact Keeps.refl _ _

theorem countUncorr_keeps : ∀ a0 a1 a2, Keeps 16 a0 (countUncorr a0 a1 a2) := by
  intro a0 a1 a2
  unfold countUncorr
  refine Keeps.via (bump_keeps _ _ _ _ _) rfl ?_
  exact Keeps.refl _ _

theorem setMark_keeps : ∀ a0 a1 a2 a3, Keeps 33554432 a0 (setMark a0 a1 a2 a3) := by
  intro a0 a1 a2 a3
  unfold setMark
  refine Keeps.via (setDrc_keeps _ _) rfl ?_
  exact Keeps.refl _ _

theorem symbolRead_keeps : ∀ a0 a1, Keeps 4 a0 (symbolRead a0 a1).2 := by
  intro a0 a1
  unfold symbolRead
  refine Keeps.ite2 ?_ ?_
  · exact Keeps.refl _ _
  · refine Keeps.via (drawn_keeps _) rfl ?_
    exact Keeps.refl _ _

theorem readWord_keeps : ∀ a0 a1 a2 a3 a4 a5, Keeps 256605948 a0 (readWord a0 a1 a2 a3 a4 a5).2 := by
  intro a0 a1 a2 a3 a4 a5
  unfold readWord
  try dsimp -proj only
  split
  · exact Keeps.refl _ _
  · refine Keeps.via (countCorrected_keeps _ _ _ _) rfl ?_
    refine Keeps.via (bump_keeps _ _ _ _ _) rfl ?_
    refine Keeps.via (setMark_keeps _ _ _ _) rfl ?_
    exact Keeps.refl _ _
  · refine Keeps.via (recordLost_keeps _ _ _ _) rfl ?_
    refine Keeps.via (countUncorr_keeps _ _ _) rfl ?_
    refine Keeps.via (bump_keeps _ _ _ _ _) rfl ?_
    refine Keeps.via (setMark_keeps _ _ _ _) rfl ?_
    refine Keeps.via (symbolRead_keeps _ _) rfl ?_
    exact Keeps.refl _ _
  · refine Keeps.put_lmem ?_ rfl _
    refine Keeps.via (setMark_keeps _ _ _ _) rfl ?_
    refine Keeps.via (symbolRead_keeps _ _) rfl ?_
    exact Keeps.refl _ _

theorem readWords_keeps : ∀ a0 a1 a2 a3 a4, Keeps 256605948 a0 (readWords a0 a1 a2 a3 a4).2 := by
  intro a0 a1 a2 a3 a4
  unfold readWords
  refine Keeps.foldl2 (fun x1 _ => ?_) ?_
  · refine Keeps.ite2 ?_ ?_
    · exact Keeps.refl _ _
    · refine Keeps.via (readWord_keeps _ _ _ _ _ _) rfl ?_
      exact Keeps.refl _ _
  · exact Keeps.refl _ _

theorem lmemTake_keeps : ∀ a0 a1 a2 a3 a4, Keeps 256605948 a0 (lmemTake a0 a1 a2 a3 a4).2 := by
  intro a0 a1 a2 a3 a4
  unfold lmemTake
  split
  · refine Keeps.via (recordLost_keeps _ _ _ _) rfl ?_
    exact Keeps.refl _ _
  · refine Keeps.via (readWords_keeps _ _ _ _ _) rfl ?_
    refine Keeps.via (rangeAccess_keeps _ _ _ _) rfl ?_
    exact Keeps.refl _ _

theorem homeLoad_keeps : ∀ a0 a1 a2, Keeps 256605948 a0 (homeLoad a0 a1 a2).2 := by
  intro a0 a1 a2
  unfold homeLoad
  refine Keeps.via (lmemTake_keeps _ _ _ _ _) rfl ?_
  exact Keeps.refl _ _

theorem setCoreMark_keeps : ∀ a0 a1 a2 a3, Keeps 16384 a0 (setCoreMark a0 a1 a2 a3) := by
  intro a0 a1 a2 a3
  unfold setCoreMark
  refine Keeps.via (setCore_keeps _ _ _) rfl ?_
  exact Keeps.refl _ _

theorem readCoreWord_keeps : ∀ a0 a1 a2 a3, Keeps 256605948 a0 (readCoreWord a0 a1 a2 a3).2 := by
  intro a0 a1 a2 a3
  unfold readCoreWord
  try dsimp -proj only
  split
  · exact Keeps.refl _ _
  · refine Keeps.via (countCorrected_keeps _ _ _ _) rfl ?_
    refine Keeps.via (setCoreMark_keeps _ _ _ _) rfl ?_
    exact Keeps.refl _ _
  · refine Keeps.via (recordLost_keeps _ _ _ _) rfl ?_
    refine Keeps.via (countUncorr_keeps _ _ _) rfl ?_
    refine Keeps.via (setCoreMark_keeps _ _ _ _) rfl ?_
    refine Keeps.via (symbolRead_keeps _ _) rfl ?_
    exact Keeps.refl _ _
  · refine Keeps.via (coreMemWrite_keeps _ _ _ _) rfl ?_
    refine Keeps.via (setCoreMark_keeps _ _ _ _) rfl ?_
    refine Keeps.via (symbolRead_keeps _ _) rfl ?_
    exact Keeps.refl _ _

theorem readCore_keeps : ∀ a0 a1 a2 a3, Keeps 256605948 a0 (readCore a0 a1 a2 a3).2 := by
  intro a0 a1 a2 a3
  unfold readCore
  refine Keeps.foldl2 (fun x1 _ => ?_) ?_
  · refine Keeps.ite2 ?_ ?_
    · exact Keeps.refl _ _
    · refine Keeps.via (readCoreWord_keeps _ _ _ _) rfl ?_
      exact Keeps.refl _ _
  · exact Keeps.refl _ _

theorem regionLoad_keeps : ∀ a0 a1 a2 a3, Keeps 256605948 a0 (regionLoad a0 a1 a2 a3).2 := by
  intro a0 a1 a2 a3
  unfold regionLoad
  split
  · refine Keeps.via (readCore_keeps _ _ _ _) rfl ?_
    exact Keeps.refl _ _
  · refine Keeps.via (homeLoad_keeps _ _ _) rfl ?_
    exact Keeps.refl _ _
  · refine Keeps.via (regLoad_keeps _ _ _) rfl ?_
    exact Keeps.refl _ _
  · split
    · refine Keeps.via (homeLoad_keeps _ _ _) rfl ?_
      exact Keeps.refl _ _
    · exact Keeps.refl _ _
  · exact Keeps.refl _ _

theorem coreLoad_keeps : ∀ a0 a1 a2 a3, Keeps 256605948 a0 (coreLoad a0 a1 a2 a3).2 := by
  intro a0 a1 a2 a3
  unfold coreLoad
  refine Keeps.ite2 ?_ ?_
  · refine Keeps.put_freeCount ?_ rfl _
    refine Keeps.via (setCore_keeps _ _ _) rfl ?_
    refine Keeps.via (regionLoad_keeps _ _ _ _) rfl ?_
    exact Keeps.refl _ _
  · refine Keeps.via (regionLoad_keeps _ _ _ _) rfl ?_
    exact Keeps.refl _ _

theorem coreScrub_keeps : ∀ a0 a1, Keeps 16384 a0 (coreScrub a0 a1) := by
  intro a0 a1
  unfold coreScrub
  refine Keeps.ite ?_ ?_
  · exact Keeps.refl _ _
  · refine Keeps.via (setCore_keeps _ _ _) rfl ?_
    exact Keeps.refl _ _

theorem flushStaging_keeps : ∀ a0, Keeps 264470256 a0 (flushStaging a0) := by
  intro a0
  unfold flushStaging
  refine Keeps.via (flushPages_keeps _ _ _) rfl ?_
  refine Keeps.via (placeRun_keeps _ _ _ _) rfl ?_
  exact Keeps.refl _ _

theorem saveFlushNj_keeps : ∀ a0, Keeps 1024 a0 (saveFlushNj a0) := by
  intro a0
  unfold saveFlushNj
  refine Keeps.via (setPwr_keeps _ _) rfl ?_
  exact Keeps.refl _ _

theorem saveCounts_keeps : ∀ a0, Keeps 16777248 a0 (saveCounts a0) := by
  intro a0
  unfold saveCounts
  refine Keeps.via (setFtl_keeps _ _) rfl ?_
  refine Keeps.put_evr ?_ rfl _
  exact Keeps.refl _ _

theorem setAnchor_keeps : ∀ a0 a1 a2 a3, Keeps 16778272 a0 (setAnchor a0 a1 a2 a3) := by
  intro a0 a1 a2 a3
  unfold setAnchor
  refine Keeps.via (setFtl_keeps _ _) rfl ?_
  refine Keeps.via (saveCounts_keeps _) rfl ?_
  refine Keeps.via (saveFlushNj_keeps _) rfl ?_
  exact Keeps.refl _ _

theorem writePages_keeps : ∀ s l, Keeps 264470256 s (writePages s l).1 := by
  intro s l
  unfold writePages
  generalize hr : List.foldl _ _ _ = r
  dsimp only
  refine Keeps.via (flushPages_keeps r.1 false []) rfl ?_
  rw [← hr]
  refine Keeps.foldl1 (fun x1 _ => ?_) ?_
  · split
    · rename_i t h
      refine Keeps.via (setFtl_keeps _ _) rfl ?_
      refine KeepsM.of h ?_
      refine KeepsM.via (placeAny_keeps _ _ _ _ _) rfl ?_
      exact Keeps.refl _ _
    · exact Keeps.refl _ _
  · exact Keeps.refl _ _

theorem writeMap_keeps : ∀ s, Keeps 264470256 s (writeMap s).1 := by
  intro s
  unfold writeMap
  extract_lets a b c
  have h1 : Keeps 264470256 s a.1 := writePages_keeps s _
  have h2 : Keeps 264470256 a.1 b.1 := writePages_keeps a.1 _
  have h3 : Keeps 264470256 b.1 c.1 := writePages_keeps b.1 _
  have h := h1.trans (h2.trans h3)
  clear_value c
  exact h

theorem runCkpt_keeps : ∀ a0 a1, Keeps 264470256 a0 (runCkpt a0 a1) := by
  intro a0 a1
  unfold runCkpt
  try dsimp -proj only
  split
  · refine Keeps.via (commitHeld_keeps _) rfl ?_
    refine Keeps.via (writeMap_keeps _) rfl ?_
    refine Keeps.via (beginCkpt_keeps _) rfl ?_
    exact Keeps.refl _ _
  · refine Keeps.ite ?_ ?_
    · refine Keeps.via (commitHeld_keeps _) rfl ?_
      refine Keeps.via (writeMap_keeps _) rfl ?_
      refine Keeps.via (beginCkpt_keeps _) rfl ?_
      exact Keeps.refl _ _
    · refine Keeps.ite ?_ ?_
      · refine Keeps.via (closeJournal_keeps _) rfl ?_
        refine Keeps.via (setAnchor_keeps _ _ _ _) rfl ?_
        refine Keeps.via (commitHeld_keeps _) rfl ?_
        refine Keeps.via (writeMap_keeps _) rfl ?_
        refine Keeps.via (beginCkpt_keeps _) rfl ?_
        exact Keeps.refl _ _
      · refine Keeps.via (setAnchor_keeps _ _ _ _) rfl ?_
        refine Keeps.via (commitHeld_keeps _) rfl ?_
        refine Keeps.via (writeMap_keeps _) rfl ?_
        refine Keeps.via (beginCkpt_keeps _) rfl ?_
        exact Keeps.refl _ _

theorem nvmeShutdown_keeps : ∀ a0, Keeps 264470256 a0 (nvmeShutdown a0) := by
  intro a0
  unfold nvmeShutdown
  refine Keeps.ite ?_ ?_
  · refine Keeps.via (setBoot_keeps _ _) rfl ?_
    refine Keeps.via (runCkpt_keeps _ _) rfl ?_
    refine Keeps.via (flushStaging_keeps _) rfl ?_
    exact Keeps.refl _ _
  · refine Keeps.via (runCkpt_keeps _ _) rfl ?_
    refine Keeps.via (flushStaging_keeps _) rfl ?_
    exact Keeps.refl _ _

theorem dropController_keeps : ∀ a0 a1 a2, Keeps 67108864 a0 (dropController a0 a1 a2) := by
  intro a0 a1 a2
  unfold dropController
  refine Keeps.via (setCtrl_keeps _ _ _) rfl ?_
  refine Keeps.via (setHif_keeps _ _) rfl ?_
  exact Keeps.refl _ _

theorem fenHold_keeps : ∀ a0 a1, Keeps 512 a0 (fenHold a0 a1) := by
  intro a0 a1
  unfold fenHold
  refine Keeps.ite ?_ ?_
  · refine Keeps.via (setFen_keeps _ _ _) rfl ?_
    exact Keeps.refl _ _
  · exact Keeps.refl _ _

theorem holdInstance_keeps : ∀ a0 a1, Keeps 16896 a0 (holdInstance a0 a1) := by
  intro a0 a1
  unfold holdInstance
  refine Keeps.foldl (fun x1 _ => ?_) ?_
  · refine Keeps.via (coreHold_keeps _ _) rfl ?_
    exact Keeps.refl _ _
  · refine Keeps.foldl (fun x2 _ => ?_) ?_
    · refine Keeps.via (fenHold_keeps _ _) rfl ?_
      exact Keeps.refl _ _
    · exact Keeps.refl _ _

theorem endInstance_keeps : ∀ a0 a1, Keeps 256080600 a0 (endInstance a0 a1) := by
  intro a0 a1
  unfold endInstance
  refine Keeps.foldl (fun x1 _ => ?_) ?_
  · refine Keeps.via (finishTicket_keeps _ _) rfl ?_
    refine Keeps.via (fenceTicket_keeps _ _ _ _) rfl ?_
    exact Keeps.refl _ _
  · exact Keeps.refl _ _

theorem loaderReset_keeps : ∀ a0 a1, Keeps 222525392 a0 (loaderReset a0 a1) := by
  intro a0 a1
  unfold loaderReset
  try dsimp -proj only
  split
  · refine Keeps.ite ?_ ?_
    · refine Keeps.foldl (fun x1 _ => ?_) ?_
      · refine Keeps.via (loadResult_keeps _ _ _) rfl ?_
        exact Keeps.refl _ _
      · refine Keeps.via (setCfg_keeps _ _) rfl ?_
        exact Keeps.refl _ _
    · refine Keeps.via (loadEnd_keeps _ _) rfl ?_
      refine Keeps.ite ?_ ?_
      · refine Keeps.via (setFen_keeps _ _ _) rfl ?_
        refine Keeps.foldl (fun x2 _ => ?_) ?_
        · refine Keeps.via (loadResult_keeps _ _ _) rfl ?_
          exact Keeps.refl _ _
        · refine Keeps.via (setCfg_keeps _ _) rfl ?_
          exact Keeps.refl _ _
      · refine Keeps.foldl (fun x3 _ => ?_) ?_
        · refine Keeps.via (loadResult_keeps _ _ _) rfl ?_
          exact Keeps.refl _ _
        · refine Keeps.via (setCfg_keeps _ _) rfl ?_
          exact Keeps.refl _ _
  · refine Keeps.foldl (fun x4 _ => ?_) ?_
    · refine Keeps.via (loadResult_keeps _ _ _) rfl ?_
      exact Keeps.refl _ _
    · refine Keeps.via (setCfg_keeps _ _) rfl ?_
      exact Keeps.refl _ _

theorem dropKeyReqs_keeps : ∀ a0 a1, Keeps 4096 a0 (dropKeyReqs a0 a1) := by
  intro a0 a1
  unfold dropKeyReqs
  refine Keeps.via (setKey_keeps _ _) rfl ?_
  exact Keeps.refl _ _

theorem resetInstance_keeps : ∀ a0 a1 a2, Keeps 257130456 a0 (resetInstance a0 a1 a2) := by
  intro a0 a1 a2
  unfold resetInstance
  refine Keeps.via (setInst_keeps _ _ _) rfl ?_
  refine Keeps.ite ?_ ?_
  · refine Keeps.put_tru ?_ rfl _
    refine Keeps.via (dropController_keeps _ _ _) rfl ?_
    refine Keeps.put_sbx ?_ rfl _
    refine Keeps.via (setKey_keeps _ _) rfl ?_
    refine Keeps.via (endInstance_keeps _ _) rfl ?_
    refine Keeps.via (holdInstance_keeps _ _) rfl ?_
    refine Keeps.via (loaderReset_keeps _ _) rfl ?_
    refine Keeps.via (dropKeyReqs_keeps _ _) rfl ?_
    refine Keeps.via (setInst_keeps _ _ _) rfl ?_
    exact Keeps.refl _ _
  · refine Keeps.via (dropController_keeps _ _ _) rfl ?_
    refine Keeps.put_sbx ?_ rfl _
    refine Keeps.via (setKey_keeps _ _) rfl ?_
    refine Keeps.via (endInstance_keeps _ _) rfl ?_
    refine Keeps.via (holdInstance_keeps _ _) rfl ?_
    refine Keeps.via (loaderReset_keeps _ _) rfl ?_
    refine Keeps.via (dropKeyReqs_keeps _ _) rfl ?_
    refine Keeps.via (setInst_keeps _ _ _) rfl ?_
    exact Keeps.refl _ _

theorem instanceReset_keeps : ∀ a0 a1 a2, Keeps 257130456 a0 (instanceReset a0 a1 a2) := by
  intro a0 a1 a2
  unfold instanceReset
  refine Keeps.ite ?_ ?_
  · exact Keeps.refl _ _
  · refine Keeps.via (resetInstance_keeps _ _ _) rfl ?_
    exact Keeps.refl _ _

theorem nvmeDisable_keeps : ∀ a0 a1, Keeps 257130456 a0 (nvmeDisable a0 a1) := by
  intro a0 a1
  unfold nvmeDisable
  refine Keeps.ite ?_ ?_
  · refine Keeps.via (dropController_keeps _ _ _) rfl ?_
    exact Keeps.refl _ _
  · refine Keeps.via (instanceReset_keeps _ _ _) rfl ?_
    exact Keeps.refl _ _

theorem nvmeEnable_keeps : ∀ a0 a1, Keeps 67108864 a0 (nvmeEnable a0 a1) := by
  intro a0 a1
  unfold nvmeEnable
  refine Keeps.via (setCtrl_keeps _ _ _) rfl ?_
  exact Keeps.refl _ _

theorem nvmeConfigure_keeps : ∀ a0 a1 a2, Keeps 265519096 a0 (nvmeConfigure a0 a1 a2) := by
  intro a0 a1 a2
  unfold nvmeConfigure
  refine Keeps.ite ?_ ?_
  · refine Keeps.via (nvmeShutdown_keeps _) rfl ?_
    refine Keeps.via (setCtrl_keeps _ _ _) rfl ?_
    refine Keeps.ite ?_ ?_
    · refine Keeps.via (nvmeEnable_keeps _ _) rfl ?_
      exact Keeps.refl _ _
    · refine Keeps.ite ?_ ?_
      · refine Keeps.via (nvmeDisable_keeps _ _) rfl ?_
        exact Keeps.refl _ _
      · exact Keeps.refl _ _
  · refine Keeps.via (setCtrl_keeps _ _ _) rfl ?_
    refine Keeps.ite ?_ ?_
    · refine Keeps.via (nvmeEnable_keeps _ _) rfl ?_
      exact Keeps.refl _ _
    · refine Keeps.ite ?_ ?_
      · refine Keeps.via (nvmeDisable_keeps _ _) rfl ?_
        exact Keeps.refl _ _
      · exact Keeps.refl _ _

theorem nvmeWrite_keeps : ∀ a0 a1 a2 a3, Keeps 265519096 a0 (nvmeWrite a0 a1 a2 a3) := by
  intro a0 a1 a2 a3
  unfold nvmeWrite
  refine Keeps.ite ?_ ?_
  · exact Keeps.refl _ _
  · split
    · refine Keeps.via (nvmeConfigure_keeps _ _ _) rfl ?_
      exact Keeps.refl _ _
    · refine Keeps.via (setCtrl_keeps _ _ _) rfl ?_
      exact Keeps.refl _ _
    · refine Keeps.via (setCtrl_keeps _ _ _) rfl ?_
      exact Keeps.refl _ _
    · refine Keeps.via (setCtrl_keeps _ _ _) rfl ?_
      exact Keeps.refl _ _
    · refine Keeps.via (setCtrl_keeps _ _ _) rfl ?_
      exact Keeps.refl _ _
    · refine Keeps.via (setCtrl_keeps _ _ _) rfl ?_
      exact Keeps.refl _ _
    · exact Keeps.refl _ _

theorem regWrite_keeps : ∀ a0 a1 a2, Keeps 268402684 a0 (regWrite a0 a1 a2) := by
  intro a0 a1 a2
  unfold regWrite
  split
  · refine Keeps.ite ?_ ?_
    · refine Keeps.via (nvmeWrite_keeps _ _ _ _) rfl ?_
      exact Keeps.refl _ _
    · exact Keeps.refl _ _
  · refine Keeps.via (barWrite_keeps _ _ _) rfl ?_
    exact Keeps.refl _ _

theorem regStore_keeps : ∀ a0 a1 a2 a3, Keeps 268402684 a0 (regStore a0 a1 a2 a3) := by
  intro a0 a1 a2 a3
  unfold regStore
  refine Keeps.ite ?_ ?_
  · refine Keeps.via (regWrite_keeps _ _ _) rfl ?_
    exact Keeps.refl _ _
  · refine Keeps.ite ?_ ?_
    · refine Keeps.via (regWrite_keeps _ _ _) rfl ?_
      refine Keeps.via (regWrite_keeps _ _ _) rfl ?_
      exact Keeps.refl _ _
    · exact Keeps.refl _ _

theorem useInj_keeps : ∀ a0 a1, Keeps 524288 a0 (useInj a0 a1) := by
  intro a0 a1
  unfold useInj
  refine Keeps.via (setTst_keeps _ _) rfl ?_
  exact Keeps.refl _ _

theorem injectedSymbols_keeps : ∀ a0 a1 a2, Keeps 524288 a0 (injectedSymbols a0 a1 a2).2 := by
  intro a0 a1 a2
  unfold injectedSymbols
  split
  · refine Keeps.via (useInj_keeps _ _) rfl ?_
    exact Keeps.refl _ _
  · exact Keeps.refl _ _

theorem writeWords_keeps : ∀ a0 a1 a2 a3, Keeps 34078720 a0 (writeWords a0 a1 a2 a3) := by
  intro a0 a1 a2 a3
  unfold writeWords
  refine Keeps.foldl (fun x1 _ => ?_) ?_
  · refine Keeps.ite ?_ ?_
    · exact Keeps.refl _ _
    · refine Keeps.via (setMark_keeps _ _ _ _) rfl ?_
      refine Keeps.via (injectedSymbols_keeps _ _ _) rfl ?_
      exact Keeps.refl _ _
  · exact Keeps.refl _ _

theorem lmemPut_keeps : ∀ a0 a1 a2 a3, Keeps 34080784 a0 (lmemPut a0 a1 a2 a3) := by
  intro a0 a1 a2 a3
  unfold lmemPut
  refine Keeps.via (rangeAccess_keeps _ _ _ _) rfl ?_
  refine Keeps.via (writeWords_keeps _ _ _ _) rfl ?_
  refine Keeps.via (lmemWrite_keeps _ _ _ _) rfl ?_
  exact Keeps.refl _ _

theorem writeCore_keeps : ∀ a0 a1 a2 a3, Keeps 540672 a0 (writeCore a0 a1 a2 a3) := by
  intro a0 a1 a2 a3
  unfold writeCore
  refine Keeps.foldl (fun x1 _ => ?_) ?_
  · refine Keeps.ite ?_ ?_
    · exact Keeps.refl _ _
    · refine Keeps.via (setCoreMark_keeps _ _ _ _) rfl ?_
      refine Keeps.via (injectedSymbols_keeps _ _ _) rfl ?_
      exact Keeps.refl _ _
  · refine Keeps.via (coreMemWrite_keeps _ _ _ _) rfl ?_
    exact Keeps.refl _ _

theorem coreStore_keeps : ∀ a0 a1 a2 a3 a4, Keeps 268435452 a0 (coreStore a0 a1 a2 a3 a4) := by
  intro a0 a1 a2 a3 a4
  unfold coreStore
  split
  · refine Keeps.via (writeCore_keeps _ _ _ _) rfl ?_
    exact Keeps.refl _ _
  · refine Keeps.via (lmemPut_keeps _ _ _ _) rfl ?_
    exact Keeps.refl _ _
  · refine Keeps.via (regStore_keeps _ _ _ _) rfl ?_
    exact Keeps.refl _ _
  · split
    · refine Keeps.via (lmemPut_keeps _ _ _ _) rfl ?_
      exact Keeps.refl _ _
    · refine Keeps.put_dram ?_ rfl _
      exact Keeps.refl _ _
  · exact Keeps.refl _ _

theorem useSlot_keeps : ∀ a0 a1, Keeps 4096 a0 (useSlot a0 a1) := by
  intro a0 a1
  unfold useSlot
  refine Keeps.via (setSlot_keeps _ _ _) rfl ?_
  exact Keeps.refl _ _

theorem endWaiting_keeps : ∀ a0 a1 a2, Keeps 222524096 a0 (endWaiting a0 a1 a2) := by
  intro a0 a1 a2
  unfold endWaiting
  refine Keeps.via (finishTicket_keeps _ _) rfl ?_
  refine Keeps.via (report_keeps _ _ _ _) rfl ?_
  exact Keeps.refl _ _

theorem submitTicket_keeps : ∀ a0 a1 a2, Keeps 222524096 a0 (submitTicket a0 a1 a2).2 := by
  intro a0 a1 a2
  unfold submitTicket
  try dsimp -proj only
  split
  · exact Keeps.refl _ _
  · try dsimp -proj only
    split
    · refine Keeps.via (finishTicket_keeps _ _) rfl ?_
      refine Keeps.via (setEntry_keeps _ _ _) rfl ?_
      refine Keeps.put_sbx ?_ rfl _
      exact Keeps.refl _ _
    · refine Keeps.via (finishTicket_keeps _ _) rfl ?_
      refine Keeps.via (setEntry_keeps _ _ _) rfl ?_
      refine Keeps.put_sbx ?_ rfl _
      exact Keeps.refl _ _
    · split
      · refine Keeps.via (endWaiting_keeps _ _ _) rfl ?_
        refine Keeps.via (setEntry_keeps _ _ _) rfl ?_
        refine Keeps.put_sbx ?_ rfl _
        exact Keeps.refl _ _
      · refine Keeps.ite2 ?_ ?_
        · refine Keeps.via (setEntry_keeps _ _ _) rfl ?_
          refine Keeps.put_sbx ?_ rfl _
          exact Keeps.refl _ _
        · refine Keeps.via (setEntry_keeps _ _ _) rfl ?_
          refine Keeps.via (useSlot_keeps _ _) rfl ?_
          refine Keeps.put_sbx ?_ rfl _
          exact Keeps.refl _ _

theorem coreSubmit_keeps : ∀ a0 a1 a2, KeepsE 256605948 a0 (coreSubmit a0 a1 a2) := by
  intro a0 a1 a2
  unfold coreSubmit
  refine KeepsE.ite ?_ ?_
  · exact KeepsE.error _
  · refine KeepsE.ok ?_
    refine Keeps.via (setCore_keeps _ _ _) rfl ?_
    refine Keeps.via (submitTicket_keeps _ _ _) rfl ?_
    refine Keeps.via (readCore_keeps _ _ _ _) rfl ?_
    exact Keeps.refl _ _

theorem countCycles_keeps : ∀ a0, Keeps 16384 a0 (countCycles a0) := by
  intro a0
  unfold countCycles
  refine Keeps.put_cores ?_ rfl _
  exact Keeps.refl _ _

theorem countFinding_keeps : ∀ a0 a1, Keeps 524288 a0 (countFinding a0 a1) := by
  intro a0 a1
  unfold countFinding
  refine Keeps.ite ?_ ?_
  · refine Keeps.via (setTst_keeps _ _) rfl ?_
    exact Keeps.refl _ _
  · refine Keeps.via (queueReport_keeps _ _) rfl ?_
    refine Keeps.via (setTst_keeps _ _) rfl ?_
    exact Keeps.refl _ _

theorem countIdle_keeps : ∀ a0, Keeps 17408 a0 (countIdle a0) := by
  intro a0
  unfold countIdle
  refine Keeps.via (setPwr_keeps _ _) rfl ?_
  refine Keeps.put_cores ?_ rfl _
  exact Keeps.refl _ _

theorem countSlotFence_keeps : ∀ a0 a1, Keeps 16 a0 (countSlotFence a0 a1) := by
  intro a0 a1
  unfold countSlotFence
  split
  · exact Keeps.refl _ _
  · refine Keeps.foldl (fun x1 _ => ?_) ?_
    · refine Keeps.foldl (fun x2 _ => ?_) ?_
      · refine Keeps.ite ?_ ?_
        · refine Keeps.via (bump_keeps _ _ _ _ _) rfl ?_
          exact Keeps.refl _ _
        · exact Keeps.refl _ _
      · exact Keeps.refl _ _
    · exact Keeps.refl _ _

theorem countTaken_keeps : ∀ a0 a1 a2, Keeps 64 a0 (countTaken a0 a1 a2) := by
  intro a0 a1 a2
  unfold countTaken
  refine Keeps.via (modEntry_keeps _ _ _) rfl ?_
  exact Keeps.refl _ _

theorem countWords_keeps : ∀ a0 a1 a2 a3 a4, Keeps 256605944 a0 (countWords a0 a1 a2 a3 a4) := by
  intro a0 a1 a2 a3 a4
  unfold countWords
  refine Keeps.ite ?_ ?_
  · refine Keeps.via (recordLost_keeps _ _ _ _) rfl ?_
    refine Keeps.via (countUncorr_keeps _ _ _) rfl ?_
    refine Keeps.via (countCorrected_keeps _ _ _ _) rfl ?_
    exact Keeps.refl _ _
  · refine Keeps.via (countCorrected_keeps _ _ _ _) rfl ?_
    exact Keeps.refl _ _

theorem cqeOk_keeps : ∀ a0 a1, Keeps 67313664 a0 (cqeOk a0 a1) := by
  intro a0 a1
  unfold cqeOk
  refine Keeps.via (cqe_keeps _ _ _ _ _) rfl ?_
  exact Keeps.refl _ _

theorem crRead_keeps : ∀ a0 a1 a2, Keeps 16384 a0 (crRead a0 a1 a2).2 := by
  intro a0 a1 a2
  unfold crRead
  refine Keeps.ite2 ?_ ?_
  · exact Keeps.refl _ _
  · split
    · exact Keeps.refl _ _
    · exact Keeps.refl _ _
    · exact Keeps.refl _ _
    · split
      · exact Keeps.refl _ _
      · refine Keeps.via (setCore_keeps _ _ _) rfl ?_
        exact Keeps.refl _ _
    · exact Keeps.refl _ _
    · exact Keeps.refl _ _
    · exact Keeps.refl _ _
    · exact Keeps.refl _ _
    · exact Keeps.refl _ _
    · exact Keeps.refl _ _
    · exact Keeps.refl _ _

theorem drainBacklog_keeps : ∀ a0 a1 a2, Keeps 155210432 a1 (drainBacklog a0 a1 a2) := by
  intro a0 a1 a2
  induction a0 generalizing a1 a2 with
  | zero =>
    rw [drainBacklog.eq_1]
    exact Keeps.refl _ _
  | succ n ih =>
    rw [drainBacklog.eq_2]
    split
    · exact Keeps.refl _ _
    · refine Keeps.ite ?_ ?_
      · exact Keeps.refl _ _
      · refine Keeps.via (ih _ _) rfl ?_
        split
        · refine Keeps.via (freeTicket_keeps _ _ _) rfl ?_
          refine Keeps.via (cqWrite_keeps _ _ _) rfl ?_
          refine Keeps.via (setCore_keeps _ _ _) rfl ?_
          exact Keeps.refl _ _
        · refine Keeps.via (cqWrite_keeps _ _ _) rfl ?_
          refine Keeps.via (setCore_keeps _ _ _) rfl ?_
          exact Keeps.refl _ _

theorem crWrite_keeps : ∀ a0 a1 a2 a3, KeepsE 256605948 a0 (crWrite a0 a1 a2 a3) := by
  intro a0 a1 a2 a3
  unfold crWrite
  try dsimp -proj only
  split
  · refine KeepsE.ok ?_
    refine Keeps.via (setCore_keeps _ _ _) rfl ?_
    exact Keeps.refl _ _
  · refine KeepsE.ok ?_
    refine Keeps.via (setCore_keeps _ _ _) rfl ?_
    exact Keeps.refl _ _
  · refine KeepsE.ite ?_ ?_
    · exact KeepsE.error _
    · refine KeepsE.ok ?_
      refine Keeps.via (setCore_keeps _ _ _) rfl ?_
      exact Keeps.refl _ _
  · refine KeepsE.ok ?_
    refine Keeps.via (setCore_keeps _ _ _) rfl ?_
    exact Keeps.refl _ _
  · refine KeepsE.ite ?_ ?_
    · refine KeepsE.ok ?_
      refine Keeps.via (setCore_keeps _ _ _) rfl ?_
      exact Keeps.refl _ _
    · exact KeepsE.error _
  · refine KeepsE.ite ?_ ?_
    · exact KeepsE.error _
    · refine KeepsE.ok ?_
      refine Keeps.via (drainBacklog_keeps _ _ _) rfl ?_
      refine Keeps.via (setCore_keeps _ _ _) rfl ?_
      exact Keeps.refl _ _
  · refine KeepsE.ok ?_
    refine Keeps.via (drainBacklog_keeps _ _ _) rfl ?_
    refine Keeps.via (setCore_keeps _ _ _) rfl ?_
    exact Keeps.refl _ _
  · refine KeepsE.via (coreSubmit_keeps _ _ _) rfl ?_
    exact Keeps.refl _ _
  · refine KeepsE.ok ?_
    refine Keeps.via (setCore_keeps _ _ _) rfl ?_
    exact Keeps.refl _ _

theorem setIncoming_keeps : ∀ a0 a1, Keeps 134217728 a0 (setIncoming a0 a1) := by
  intro a0 a1
  unfold setIncoming
  refine Keeps.via (setJct_keeps _ _) rfl ?_
  exact Keeps.refl _ _

theorem drainStored_keeps : ∀ a0 a1 a2, Keeps 134217728 a1 (drainStored a0 a1 a2) := by
  intro a0 a1 a2
  induction a0 generalizing a1 a2 with
  | zero =>
    rw [drainStored.eq_1]
    exact Keeps.refl _ _
  | succ n ih =>
    rw [drainStored.eq_2]
    split
    · exact Keeps.refl _ _
    · split
      · exact Keeps.refl _ _
      · refine Keeps.via (ih _ _) rfl ?_
        refine Keeps.via (addRecv_keeps _ _ _) rfl ?_
        refine Keeps.via (setIncoming_keeps _ _) rfl ?_
        exact Keeps.refl _ _

theorem submitRecv_keeps : ∀ a0 a1, Keeps 222524096 a0 (submitRecv a0 a1) := by
  intro a0 a1
  unfold submitRecv
  try dsimp -proj only
  split
  · refine Keeps.via (recvStatus_keeps _ _ _ _) rfl ?_
    exact Keeps.refl _ _
  · refine Keeps.ite ?_ ?_
    · refine Keeps.via (recvStatus_keeps _ _ _ _) rfl ?_
      exact Keeps.refl _ _
    · refine Keeps.ite ?_ ?_
      · refine Keeps.via (recvStatus_keeps _ _ _ _) rfl ?_
        exact Keeps.refl _ _
      · refine Keeps.ite ?_ ?_
        · refine Keeps.via (recvStatus_keeps _ _ _ _) rfl ?_
          exact Keeps.refl _ _
        · refine Keeps.ite ?_ ?_
          · exact Keeps.refl _ _
          · split
            · rename_i y1_0 y1_1 h1
              have k1 : Keeps 222524096 a0 y1_1 := by
                refine Keeps.snd h1 ?_
                refine Keeps.via (submitTicket_keeps _ _ _) rfl ?_
                refine Keeps.via (modRecv_keeps _ _ _) rfl ?_
                exact Keeps.refl _ _
              refine Keeps.via (modRecv_keeps _ _ _) rfl ?_
              exact k1
            · rename_i y2_0 h2
              have k2 : Keeps 222524096 a0 y2_0 := by
                refine Keeps.snd h2 ?_
                refine Keeps.via (submitTicket_keeps _ _ _) rfl ?_
                refine Keeps.via (modRecv_keeps _ _ _) rfl ?_
                exact Keeps.refl _ _
              exact k2

theorem submitRecvs_keeps : ∀ a0, Keeps 222524096 a0 (submitRecvs a0) := by
  intro a0
  unfold submitRecvs
  refine Keeps.foldl (fun x1 _ => ?_) ?_
  · split
    · exact Keeps.refl _ _
    · refine Keeps.ite ?_ ?_
      · exact Keeps.refl _ _
      · refine Keeps.via (submitRecv_keeps _ _) rfl ?_
        exact Keeps.refl _ _
  · exact Keeps.refl _ _

theorem sendAck_keeps : ∀ a0 a1 a2, Keeps 134217728 a0 (sendAck a0 a1 a2) := by
  intro a0 a1 a2
  unfold sendAck
  refine Keeps.via (sendFrame_keeps _ _) rfl ?_
  exact Keeps.refl _ _

theorem dataArrives_keeps : ∀ a0 a1, Keeps 222524096 a0 (dataArrives a0 a1) := by
  intro a0 a1
  unfold dataArrives
  try dsimp -proj only
  split
  · exact Keeps.refl _ _
  · refine Keeps.ite ?_ ?_
    · refine Keeps.via (sendAck_keeps _ _ _) rfl ?_
      refine Keeps.via (setIncoming_keeps _ _) rfl ?_
      exact Keeps.refl _ _
    · refine Keeps.ite ?_ ?_
      · refine Keeps.via (sendAck_keeps _ _ _) rfl ?_
        refine Keeps.via (setIncoming_keeps _ _) rfl ?_
        exact Keeps.refl _ _
      · refine Keeps.ite ?_ ?_
        · refine Keeps.via (submitRecvs_keeps _) rfl ?_
          refine Keeps.via (sendAck_keeps _ _ _) rfl ?_
          refine Keeps.via (drainStored_keeps _ _ _) rfl ?_
          refine Keeps.via (addRecv_keeps _ _ _) rfl ?_
          refine Keeps.via (setIncoming_keeps _ _) rfl ?_
          exact Keeps.refl _ _
        · refine Keeps.ite ?_ ?_
          · refine Keeps.via (sendAck_keeps _ _ _) rfl ?_
            refine Keeps.via (setIncoming_keeps _ _) rfl ?_
            exact Keeps.refl _ _
          · refine Keeps.via (sendAck_keeps _ _ _) rfl ?_
            refine Keeps.via (setIncoming_keeps _ _) rfl ?_
            exact Keeps.refl _ _

theorem dropThrough_keeps : ∀ a0 a1, Keeps 16777280 a0 (dropThrough a0 a1) := by
  intro a0 a1
  unfold dropThrough
  refine Keeps.foldl (fun x1 _ => ?_) ?_
  · split
    · refine Keeps.ite ?_ ?_
      · refine Keeps.via (setFtl_keeps _ _) rfl ?_
        exact Keeps.refl _ _
      · refine Keeps.via (freeStaged_keeps _ _) rfl ?_
        exact Keeps.refl _ _
    · exact Keeps.refl _ _
  · exact Keeps.refl _ _

theorem deallocUnit_keeps : ∀ a0 a1, Keeps 222525120 a0 (deallocUnit a0 a1) := by
  intro a0 a1
  unfold deallocUnit
  refine Keeps.via (hold_keeps _ _) rfl ?_
  refine Keeps.via (mapSet_keeps _ _ _) rfl ?_
  refine Keeps.via (dropThrough_keeps _ _) rfl ?_
  refine Keeps.via (dropStaged_keeps _ _ _) rfl ?_
  exact Keeps.refl _ _

theorem deallocRange_keeps : ∀ a0 a1 a2 a3, Keeps 222525120 a0 (deallocRange a0 a1 a2 a3) := by
  intro a0 a1 a2 a3
  unfold deallocRange
  refine Keeps.foldl (fun x1 _ => ?_) ?_
  · refine Keeps.via (deallocUnit_keeps _ _) rfl ?_
    exact Keeps.refl _ _
  · exact Keeps.refl _ _

theorem declareLoss_keeps : ∀ a0, Keeps 256605916 a0 (declareLoss a0) := by
  intro a0
  unfold declareLoss
  refine Keeps.ite ?_ ?_
  · exact Keeps.refl _ _
  · refine Keeps.via (dropOutside_keeps _) rfl ?_
    refine Keeps.via (enterFlush_keeps _) rfl ?_
    refine Keeps.ite ?_ ?_
    · refine Keeps.via (bump_keeps _ _ _ _ _) rfl ?_
      refine Keeps.via (setBoot_keeps _ _) rfl ?_
      refine Keeps.via (setPwr_keeps _ _) rfl ?_
      exact Keeps.refl _ _
    · refine Keeps.via (setPwr_keeps _ _) rfl ?_
      exact Keeps.refl _ _

theorem deleteNs_keeps : ∀ a0 a1, Keeps 256081648 a0 (deleteNs a0 a1) := by
  intro a0 a1
  unfold deleteNs
  split
  · exact Keeps.refl _ _
  · refine Keeps.via (judgeSpare_keeps _) rfl ?_
    refine Keeps.foldl (fun x1 _ => ?_) ?_
    · refine Keeps.via (nsChanged_keeps _ _ _) rfl ?_
      exact Keeps.refl _ _
    · refine Keeps.via (setFtl_keeps _ _) rfl ?_
      refine Keeps.foldl (fun x2 _ => ?_) ?_
      · refine Keeps.via (deallocUnit_keeps _ _) rfl ?_
        exact Keeps.refl _ _
      · exact Keeps.refl _ _

theorem loadTicket_keeps : ∀ a0 a1 a2, Keeps 222525392 a0 (loadTicket a0 a1 a2) := by
  intro a0 a1 a2
  unfold loadTicket
  refine Keeps.ite ?_ ?_
  · refine Keeps.via (loaderAsk_keeps _ _) rfl ?_
    refine Keeps.via (setCtx_keeps _ _ _ _) rfl ?_
    exact Keeps.refl _ _
  · refine Keeps.via (setCtx_keeps _ _ _ _) rfl ?_
    exact Keeps.refl _ _

theorem fenInput_keeps : ∀ a0 a1 a2 a3, Keeps 640 a0 (fenInput a0 a1 a2 a3) := by
  intro a0 a1 a2 a3
  unfold fenInput
  refine Keeps.via (countCtx_keeps _ _ _ _ _) rfl ?_
  refine Keeps.via (setFen_keeps _ _ _) rfl ?_
  exact Keeps.refl _ _

theorem deliverPkt_keeps : ∀ a0 a1 a2, Keeps 222525392 a0 (deliverPkt a0 a1 a2) := by
  intro a0 a1 a2
  unfold deliverPkt
  split
  · refine Keeps.via (fenInput_keeps _ _ _ _) rfl ?_
    exact Keeps.refl _ _
  · refine Keeps.via (fenInput_keeps _ _ _ _) rfl ?_
    exact Keeps.refl _ _
  · refine Keeps.via (loadTicket_keeps _ _ _) rfl ?_
    exact Keeps.refl _ _
  · refine Keeps.via (enqueue_keeps _ _ _) rfl ?_
    exact Keeps.refl _ _

theorem demoteAll_keeps : ∀ a0, Keeps 134217728 a0 (demoteAll a0) := by
  intro a0
  unfold demoteAll
  refine Keeps.via (setJct_keeps _ _) rfl ?_
  exact Keeps.refl _ _

theorem dropAlias_keeps : ∀ a0 a1, Keeps 16 a0 (dropAlias a0 a1) := by
  intro a0 a1
  unfold dropAlias
  refine Keeps.foldl (fun x1 _ => ?_) ?_
  · refine Keeps.ite ?_ ?_
    · refine Keeps.via (setEff_keeps _ _ _ _ _) rfl ?_
      exact Keeps.refl _ _
    · exact Keeps.refl _ _
  · exact Keeps.refl _ _

theorem fenScrub_keeps : ∀ a0 a1, Keeps 33557048 a0 (fenScrub a0 a1) := by
  intro a0 a1
  unfold fenScrub
  refine Keeps.ite ?_ ?_
  · exact Keeps.refl _ _
  · refine Keeps.ite ?_ ?_
    · refine Keeps.via (unitState_keeps _ _ _) rfl ?_
      refine Keeps.via (setFen_keeps _ _ _) rfl ?_
      exact Keeps.refl _ _
    · refine Keeps.via (setFen_keeps _ _ _) rfl ?_
      exact Keeps.refl _ _

theorem giveUnit_keeps : ∀ a0 a1 a2 a3, Keeps 37767736 a0 (giveUnit a0 a1 a2 a3) := by
  intro a0 a1 a2 a3
  unfold giveUnit
  refine Keeps.ite ?_ ?_
  · refine Keeps.via (fenScrub_keeps _ _) rfl ?_
    refine Keeps.via (changeUnit_keeps _ _ _) rfl ?_
    exact Keeps.refl _ _
  · refine Keeps.ite ?_ ?_
    · refine Keeps.via (coreScrub_keeps _ _) rfl ?_
      refine Keeps.via (changeUnit_keeps _ _ _) rfl ?_
      exact Keeps.refl _ _
    · refine Keeps.ite ?_ ?_
      · refine Keeps.via (clearGroup_keeps _ _) rfl ?_
        refine Keeps.via (changeUnit_keeps _ _ _) rfl ?_
        exact Keeps.refl _ _
      · refine Keeps.via (changeUnit_keeps _ _ _) rfl ?_
        exact Keeps.refl _ _

theorem destroyGive_keeps : ∀ a0 a1, Keeps 37767736 a0 (destroyGive a0 a1) := by
  intro a0 a1
  unfold destroyGive
  refine Keeps.foldl (fun x1 _ => ?_) ?_
  · refine Keeps.ite ?_ ?_
    · refine Keeps.via (giveUnit_keeps _ _ _ _) rfl ?_
      refine Keeps.via (dropAlias_keeps _ _) rfl ?_
      exact Keeps.refl _ _
    · exact Keeps.refl _ _
  · exact Keeps.refl _ _

theorem detachNs_keeps : ∀ a0 a1 a2, Keeps 85139456 a0 (detachNs a0 a1 a2) := by
  intro a0 a1 a2
  unfold detachNs
  split
  · exact Keeps.refl _ _
  · refine Keeps.via (nsChanged_keeps _ _ _) rfl ?_
    refine Keeps.ite ?_ ?_
    · refine Keeps.via (tdiDisturb_keeps _ _) rfl ?_
      refine Keeps.via (setFtl_keeps _ _) rfl ?_
      exact Keeps.refl _ _
    · refine Keeps.via (setFtl_keeps _ _) rfl ?_
      exact Keeps.refl _ _

theorem hmacUse_keeps : ∀ a0 a1 a2, Keeps 4096 a0 (hmacUse a0 a1 a2).1 := by
  intro a0 a1 a2
  unfold hmacUse
  refine Keeps.ite1 ?_ ?_
  · refine Keeps.via (setKey_keeps _ _) rfl ?_
    exact Keeps.refl _ _
  · split
    · refine Keeps.via (setKey_keeps _ _) rfl ?_
      exact Keeps.refl _ _
    · exact Keeps.refl _ _

theorem dgtBegin_keeps : ∀ a0 a1 a2 a3 a4 a5, KeepsE 4240 a0 (dgtBegin a0 a1 a2 a3 a4 a5) := by
  intro a0 a1 a2 a3 a4 a5
  unfold dgtBegin
  split
  · exact KeepsE.error _
  · refine KeepsE.ite ?_ ?_
    · refine KeepsE.ok ?_
      exact Keeps.refl _ _
    · refine KeepsE.ite ?_ ?_
      · refine KeepsE.ok ?_
        refine Keeps.via (setCtx_keeps _ _ _ _) rfl ?_
        refine Keeps.via (bump_keeps _ _ _ _ _) rfl ?_
        refine Keeps.via (hmacUse_keeps _ _ _) rfl ?_
        exact Keeps.refl _ _
      · refine KeepsE.ok ?_
        refine Keeps.via (hmacUse_keeps _ _ _) rfl ?_
        exact Keeps.refl _ _

theorem dgtData_keeps : ∀ a0 a1 a2 a3 a4 a5 a6, Keeps 136 a0 (dgtData a0 a1 a2 a3 a4 a5 a6) := by
  intro a0 a1 a2 a3 a4 a5 a6
  unfold dgtData
  refine Keeps.ite ?_ ?_
  · refine Keeps.via (sendUnit_keeps _ _ _ _ _ _ _ _) rfl ?_
    refine Keeps.via (setCtx_keeps _ _ _ _) rfl ?_
    exact Keeps.refl _ _
  · refine Keeps.via (setCtx_keeps _ _ _ _) rfl ?_
    exact Keeps.refl _ _

theorem writeResult_keeps : ∀ a0 a1 a2 a3, Keeps 33556480 a0 (writeResult a0 a1 a2 a3) := by
  intro a0 a1 a2 a3
  unfold writeResult
  refine Keeps.via (lmemWrite_keeps _ _ _ _) rfl ?_
  exact Keeps.refl _ _

theorem dgtFail_keeps : ∀ a0 a1 a2 a3 a4, Keeps 256081624 a0 (dgtFail a0 a1 a2 a3 a4) := by
  intro a0 a1 a2 a3 a4
  unfold dgtFail
  refine Keeps.via (failAt_keeps _ _ _ _ _) rfl ?_
  refine Keeps.ite ?_ ?_
  · refine Keeps.via (bump_keeps _ _ _ _ _) rfl ?_
    exact Keeps.refl _ _
  · exact Keeps.refl _ _

theorem dgtEnd_keeps : ∀ a0 a1 a2 a3 a4 a5 a6, Keeps 256081624 a0 (dgtEnd a0 a1 a2 a3 a4 a5 a6) := by
  intro a0 a1 a2 a3 a4 a5 a6
  unfold dgtEnd
  refine Keeps.ite ?_ ?_
  · refine Keeps.via (endProvisional_keeps _ _ _) rfl ?_
    exact Keeps.refl _ _
  · refine Keeps.ite ?_ ?_
    · refine Keeps.via (dgtFail_keeps _ _ _ _ _) rfl ?_
      exact Keeps.refl _ _
    · refine Keeps.ite ?_ ?_
      · refine Keeps.via (endOut_keeps _ _ _ _ _ _) rfl ?_
        refine Keeps.ite ?_ ?_
        · refine Keeps.ite ?_ ?_
          · refine Keeps.via (report_keeps _ _ _ _) rfl ?_
            refine Keeps.via (bump_keeps _ _ _ _ _) rfl ?_
            exact Keeps.refl _ _
          · exact Keeps.refl _ _
        · refine Keeps.via (writeResult_keeps _ _ _ _) rfl ?_
          refine Keeps.ite ?_ ?_
          · refine Keeps.via (report_keeps _ _ _ _) rfl ?_
            refine Keeps.via (bump_keeps _ _ _ _ _) rfl ?_
            exact Keeps.refl _ _
          · exact Keeps.refl _ _
      · refine Keeps.via (endOut_keeps _ _ _ _ _ _) rfl ?_
        refine Keeps.via (sendOut_keeps _ _ _ _ _ _ _) rfl ?_
        refine Keeps.ite ?_ ?_
        · refine Keeps.via (report_keeps _ _ _ _) rfl ?_
          refine Keeps.via (bump_keeps _ _ _ _ _) rfl ?_
          exact Keeps.refl _ _
        · exact Keeps.refl _ _

theorem dgtServe_keeps : ∀ a0 a1 a2, Keeps 256081624 a0 (dgtServe a0 a1 a2) := by
  intro a0 a1 a2
  unfold dgtServe
  unfold serveFront
  try dsimp -proj only
  unfold serveAt
  try dsimp -proj only
  try dsimp -proj only
  split
  · try dsimp -proj only
    exact Keeps.refl _ _
  · rename_i y1_0 y1_1 h1
    have k1 : Keeps 256081624 a0 y1_1 := by
      refine Keeps.via (dequeue_keeps _ _ _ _ h1) rfl ?_
      exact Keeps.refl _ _
    try dsimp -proj only
    try dsimp -proj only
    split
    · try dsimp -proj only
      exact k1
    · try dsimp -proj only
      refine Keeps.ite ?_ ?_
      · exact k1
      · split
        · try dsimp -proj only
          exact k1
        · try dsimp -proj only
          refine Keeps.ite ?_ ?_
          · split
            · try dsimp -proj only
              refine Keeps.via (failAt_keeps _ _ _ _ _) rfl ?_
              exact k1
            · try dsimp -proj only
              refine Keeps.ite ?_ ?_
              · refine Keeps.via (enqueue_keeps _ _ _) rfl ?_
                exact k1
              · try dsimp -proj only
                split
                · try dsimp -proj only
                  refine Keeps.via (dgtFail_keeps _ _ _ _ _) rfl ?_
                  exact k1
                · rename_i y2_0 h2
                  have k2 : Keeps 256081624 a0 y2_0 := by
                    refine KeepsE.of h2 ?_
                    refine KeepsE.ite ?_ ?_
                    · refine KeepsE.via (dgtBegin_keeps _ _ _ _ _ _) rfl ?_
                      exact k1
                    · refine KeepsE.ok ?_
                      exact k1
                  try dsimp -proj only
                  refine Keeps.ite ?_ ?_
                  · refine Keeps.via (dgtEnd_keeps _ _ _ _ _ _ _) rfl ?_
                    exact k2
                  · refine Keeps.via (dgtData_keeps _ _ _ _ _ _ _) rfl ?_
                    exact k2
          · exact Keeps.refl _ _

theorem takeEmit_keeps : ∀ a0 a1 a2, Keeps 256605948 a0 (takeEmit a0 a1 a2) := by
  intro a0 a1 a2
  unfold takeEmit
  try dsimp -proj only
  split
  · refine Keeps.via (bump_keeps _ _ _ _ _) rfl ?_
    exact Keeps.refl _ _
  · refine Keeps.ite ?_ ?_
    · exact Keeps.refl _ _
    · refine Keeps.ite ?_ ?_
      · refine Keeps.via (failAt_keeps _ _ _ _ _) rfl ?_
        refine Keeps.via (readCore_keeps _ _ _ _) rfl ?_
        exact Keeps.refl _ _
      · refine Keeps.ite ?_ ?_
        · refine Keeps.via (setCore_keeps _ _ _) rfl ?_
          refine Keeps.ite ?_ ?_
          · refine Keeps.via (readCore_keeps _ _ _ _) rfl ?_
            exact Keeps.refl _ _
          · refine Keeps.via (sendOut_keeps _ _ _ _ _ _ _) rfl ?_
            refine Keeps.via (readCore_keeps _ _ _ _) rfl ?_
            exact Keeps.refl _ _
        · refine Keeps.ite ?_ ?_
          · refine Keeps.via (endOut_keeps _ _ _ _ _ _) rfl ?_
            refine Keeps.via (setCore_keeps _ _ _) rfl ?_
            refine Keeps.ite ?_ ?_
            · refine Keeps.via (setCore_keeps _ _ _) rfl ?_
              refine Keeps.ite ?_ ?_
              · refine Keeps.via (readCore_keeps _ _ _ _) rfl ?_
                exact Keeps.refl _ _
              · refine Keeps.via (sendOut_keeps _ _ _ _ _ _ _) rfl ?_
                refine Keeps.via (readCore_keeps _ _ _ _) rfl ?_
                exact Keeps.refl _ _
            · refine Keeps.via (bump_keeps _ _ _ _ _) rfl ?_
              refine Keeps.via (setCore_keeps _ _ _) rfl ?_
              refine Keeps.ite ?_ ?_
              · refine Keeps.via (readCore_keeps _ _ _ _) rfl ?_
                exact Keeps.refl _ _
              · refine Keeps.via (sendOut_keeps _ _ _ _ _ _ _) rfl ?_
                refine Keeps.via (readCore_keeps _ _ _ _) rfl ?_
                exact Keeps.refl _ _
          · refine Keeps.via (failAt_keeps _ _ _ _ _) rfl ?_
            refine Keeps.via (setCore_keeps _ _ _) rfl ?_
            refine Keeps.ite ?_ ?_
            · refine Keeps.via (setCore_keeps _ _ _) rfl ?_
              refine Keeps.ite ?_ ?_
              · refine Keeps.via (readCore_keeps _ _ _ _) rfl ?_
                exact Keeps.refl _ _
              · refine Keeps.via (sendOut_keeps _ _ _ _ _ _ _) rfl ?_
                refine Keeps.via (readCore_keeps _ _ _ _) rfl ?_
                exact Keeps.refl _ _
            · refine Keeps.via (bump_keeps _ _ _ _ _) rfl ?_
              refine Keeps.via (setCore_keeps _ _ _) rfl ?_
              refine Keeps.ite ?_ ?_
              · refine Keeps.via (readCore_keeps _ _ _ _) rfl ?_
                exact Keeps.refl _ _
              · refine Keeps.via (sendOut_keeps _ _ _ _ _ _ _) rfl ?_
                refine Keeps.via (readCore_keeps _ _ _ _) rfl ?_
                exact Keeps.refl _ _

theorem drainEmit_keeps : ∀ a0 a1 a2, Keeps 256605948 a1 (drainEmit a0 a1 a2) := by
  intro a0 a1 a2
  induction a0 generalizing a1 a2 with
  | zero =>
    rw [drainEmit.eq_1]
    exact Keeps.refl _ _
  | succ n ih =>
    rw [drainEmit.eq_2]
    split
    · exact Keeps.refl _ _
    · refine Keeps.via (ih _ _) rfl ?_
      refine Keeps.via (takeEmit_keeps _ _ _) rfl ?_
      refine Keeps.via (setCore_keeps _ _ _) rfl ?_
      exact Keeps.refl _ _

theorem drainEmits_keeps : ∀ a0, Keeps 256605948 a0 (drainEmits a0) := by
  intro a0
  unfold drainEmits
  refine Keeps.foldl (fun x1 _ => ?_) ?_
  · refine Keeps.via (drainEmit_keeps _ _ _) rfl ?_
    exact Keeps.refl _ _
  · exact Keeps.refl _ _

theorem dramHealth_keeps : ∀ a0 a1 a2, Keeps 33556528 a0 (dramHealth a0 a1 a2) := by
  intro a0 a1 a2
  unfold dramHealth
  refine Keeps.via (record_keeps _ _ _ _ _ _ _) rfl ?_
  exact Keeps.refl _ _

theorem dramDead_keeps : ∀ a0 a1, Keeps 50333752 a0 (dramDead a0 a1) := by
  intro a0 a1
  unfold dramDead
  refine Keeps.ite ?_ ?_
  · refine Keeps.via (setHealth_keeps _ _ _) rfl ?_
    refine Keeps.via (setFtl_keeps _ _) rfl ?_
    refine Keeps.via (dramHealth_keeps _ _ _) rfl ?_
    refine Keeps.via (unitState_keeps _ _ _) rfl ?_
    exact Keeps.refl _ _
  · refine Keeps.via (dramHealth_keeps _ _ _) rfl ?_
    refine Keeps.via (unitState_keeps _ _ _) rfl ?_
    exact Keeps.refl _ _

theorem dramDrift_keeps : ∀ a0 a1, Keeps 33554432 a0 (dramDrift a0 a1) := by
  intro a0 a1
  unfold dramDrift
  refine Keeps.ite ?_ ?_
  · refine Keeps.via (setDram_keeps _ _ _) rfl ?_
    exact Keeps.refl _ _
  · exact Keeps.refl _ _

theorem dramFetch_keeps : ∀ a0 a1 a2 a3 a4 a5 a6 a7, Keeps 256605948 a0 (dramFetch a0 a1 a2 a3 a4 a5 a6 a7) := by
  intro a0 a1 a2 a3 a4 a5 a6 a7
  unfold dramFetch
  refine Keeps.ite ?_ ?_
  · refine Keeps.via (failAt_keeps _ _ _ _ _) rfl ?_
    exact Keeps.refl _ _
  · refine Keeps.ite ?_ ?_
    · refine Keeps.via (failAt_keeps _ _ _ _ _) rfl ?_
      exact Keeps.refl _ _
    · refine Keeps.ite ?_ ?_
      · refine Keeps.via (failAt_keeps _ _ _ _ _) rfl ?_
        refine Keeps.via (lmemTake_keeps _ _ _ _ _) rfl ?_
        refine Keeps.via (bump_keeps _ _ _ _ _) rfl ?_
        exact Keeps.refl _ _
      · try dsimp -proj only
        split
        · refine Keeps.via (countTaken_keeps _ _ _) rfl ?_
          refine Keeps.via (countCtx_keeps _ _ _ _ _) rfl ?_
          refine Keeps.via (sendData_keeps _ _ _ _ _ _ _ _ _) rfl ?_
          refine Keeps.ite ?_ ?_
          · refine Keeps.via (setInbox_keeps _ _ _) rfl ?_
            refine Keeps.via (lmemTake_keeps _ _ _ _ _) rfl ?_
            refine Keeps.via (bump_keeps _ _ _ _ _) rfl ?_
            exact Keeps.refl _ _
          · refine Keeps.via (lmemTake_keeps _ _ _ _ _) rfl ?_
            refine Keeps.via (bump_keeps _ _ _ _ _) rfl ?_
            exact Keeps.refl _ _
        · refine Keeps.ite ?_ ?_
          · refine Keeps.via (endOut_keeps _ _ _ _ _ _) rfl ?_
            refine Keeps.via (countTaken_keeps _ _ _) rfl ?_
            refine Keeps.via (countCtx_keeps _ _ _ _ _) rfl ?_
            refine Keeps.via (sendData_keeps _ _ _ _ _ _ _ _ _) rfl ?_
            refine Keeps.ite ?_ ?_
            · refine Keeps.via (setInbox_keeps _ _ _) rfl ?_
              refine Keeps.via (lmemTake_keeps _ _ _ _ _) rfl ?_
              refine Keeps.via (bump_keeps _ _ _ _ _) rfl ?_
              exact Keeps.refl _ _
            · refine Keeps.via (lmemTake_keeps _ _ _ _ _) rfl ?_
              refine Keeps.via (bump_keeps _ _ _ _ _) rfl ?_
              exact Keeps.refl _ _
          · refine Keeps.via (countTaken_keeps _ _ _) rfl ?_
            refine Keeps.via (countCtx_keeps _ _ _ _ _) rfl ?_
            refine Keeps.via (sendData_keeps _ _ _ _ _ _ _ _ _) rfl ?_
            refine Keeps.ite ?_ ?_
            · refine Keeps.via (setInbox_keeps _ _ _) rfl ?_
              refine Keeps.via (lmemTake_keeps _ _ _ _ _) rfl ?_
              refine Keeps.via (bump_keeps _ _ _ _ _) rfl ?_
              exact Keeps.refl _ _
            · refine Keeps.via (lmemTake_keeps _ _ _ _ _) rfl ?_
              refine Keeps.via (bump_keeps _ _ _ _ _) rfl ?_
              exact Keeps.refl _ _

theorem shadowGone_keeps : ∀ a0, Keeps 4194304 a0 (shadowGone a0) := by
  intro a0
  unfold shadowGone
  refine Keeps.ite ?_ ?_
  · refine Keeps.put_asu ?_ rfl _
    exact Keeps.refl _ _
  · exact Keeps.refl _ _

theorem shadowMoves_keeps : ∀ a0 a1, Keeps 4194304 a0 (shadowMoves a0 a1) := by
  intro a0 a1
  unfold shadowMoves
  refine Keeps.via (shadowGone_keeps _) rfl ?_
  refine Keeps.put_asu ?_ rfl _
  exact Keeps.refl _ _

theorem loadLosesRegion_keeps : ∀ a0, Keeps 256 a0 (loadLosesRegion a0) := by
  intro a0
  unfold loadLosesRegion
  refine Keeps.put_cfg ?_ rfl _
  exact Keeps.refl _ _

theorem losePage_keeps : ∀ a0 a1 a2, Keeps 65536 a0 (losePage a0 a1 a2) := by
  intro a0 a1 a2
  unfold losePage
  refine Keeps.ite ?_ ?_
  · refine Keeps.via (setInst_keeps _ _ _) rfl ?_
    exact Keeps.refl _ _
  · refine Keeps.via (setInst_keeps _ _ _) rfl ?_
    exact Keeps.refl _ _

theorem loseChannel_keeps : ∀ a0 a1 a2, Keeps 67313664 a0 (loseChannel a0 a1 a2) := by
  intro a0 a1 a2
  unfold loseChannel
  refine Keeps.ite ?_ ?_
  · exact Keeps.refl _ _
  · refine Keeps.via (asyncEvent_keeps _ _ _ _ _) rfl ?_
    refine Keeps.foldl (fun x1 _ => ?_) ?_
    · refine Keeps.via (losePage_keeps _ _ _) rfl ?_
      exact Keeps.refl _ _
    · exact Keeps.refl _ _

theorem writeStaged_keeps : ∀ a0 a1, Keeps 264470256 a0 (writeStaged a0 a1) := by
  intro a0 a1
  unfold writeStaged
  refine Keeps.via (flushPages_keeps _ _ _) rfl ?_
  refine Keeps.foldl (fun x1 _ => ?_) ?_
  · split
    · split
      · rename_i y2_0 h2
        have k2 : Keeps 264470256 x1 y2_0 := by
          refine KeepsM.of h2 ?_
          refine KeepsM.via (placeAny_keeps _ _ _ _ _) rfl ?_
          exact Keeps.refl _ _
        exact k2
      · exact Keeps.refl _ _
    · exact Keeps.refl _ _
  · exact Keeps.refl _ _

theorem writeFrames_keeps : ∀ a0 a1, Keeps 264470256 a0 (writeFrames a0 a1) := by
  intro a0 a1
  unfold writeFrames
  refine Keeps.via (flushPages_keeps _ _ _) rfl ?_
  refine Keeps.foldl (fun x1 _ => ?_) ?_
  · split
    · rename_i y2_0 h2
      have k2 : Keeps 264470256 x1 y2_0 := by
        refine KeepsM.of h2 ?_
        refine KeepsM.via (placeAny_keeps _ _ _ _ _) rfl ?_
        exact Keeps.refl _ _
      refine Keeps.via (setFtl_keeps _ _) rfl ?_
      exact k2
    · exact Keeps.refl _ _
  · exact Keeps.refl _ _

theorem tierLoses_keeps : ∀ a0 a1, Keeps 264470256 a0 (tierLoses a0 a1) := by
  intro a0 a1
  unfold tierLoses
  refine Keeps.ite ?_ ?_
  · refine Keeps.via (setFtl_keeps _ _) rfl ?_
    exact Keeps.refl _ _
  · refine Keeps.ite ?_ ?_
    · refine Keeps.via (setFtl_keeps _ _) rfl ?_
      refine Keeps.via (writeStaged_keeps _ _) rfl ?_
      refine Keeps.via (writeFrames_keeps _ _) rfl ?_
      refine Keeps.via (setFtl_keeps _ _) rfl ?_
      refine Keeps.via (setFtl_keeps _ _) rfl ?_
      exact Keeps.refl _ _
    · refine Keeps.via (writeStaged_keeps _ _) rfl ?_
      refine Keeps.via (writeFrames_keeps _ _) rfl ?_
      refine Keeps.via (setFtl_keeps _ _) rfl ?_
      refine Keeps.via (setFtl_keeps _ _) rfl ?_
      exact Keeps.refl _ _

theorem dramLeaves_keeps : ∀ a0 a1 a2, Keeps 264470512 a0 (dramLeaves a0 a1 a2) := by
  intro a0 a1 a2
  unfold dramLeaves
  refine Keeps.via (loadLosesRegion_keeps _) rfl ?_
  refine Keeps.via (shadowMoves_keeps _ _) rfl ?_
  refine Keeps.foldl (fun x1 _ => ?_) ?_
  · refine Keeps.via (loseChannel_keeps _ _ _) rfl ?_
    exact Keeps.refl _ _
  · refine Keeps.via (tierLoses_keeps _ _) rfl ?_
    refine Keeps.via (setDram_keeps _ _ _) rfl ?_
    exact Keeps.refl _ _

theorem dramOffline_keeps : ∀ a0 a1, Keeps 264470520 a0 (dramOffline a0 a1) := by
  intro a0 a1
  unfold dramOffline
  refine Keeps.via (dramDead_keeps _ _) rfl ?_
  refine Keeps.via (dramLeaves_keeps _ _ _) rfl ?_
  exact Keeps.refl _ _

theorem dramPut_keeps : ∀ a0 a1 a2 a3 a4 a5 a6, Keeps 256605912 a0 (dramPut a0 a1 a2 a3 a4 a5 a6) := by
  intro a0 a1 a2 a3 a4 a5 a6
  unfold dramPut
  refine Keeps.ite ?_ ?_
  · refine Keeps.ite ?_ ?_
    · refine Keeps.via (enqueue_keeps _ _ _) rfl ?_
      exact Keeps.refl _ _
    · refine Keeps.ite ?_ ?_
      · refine Keeps.via (endProvisional_keeps _ _ _) rfl ?_
        exact Keeps.refl _ _
      · refine Keeps.via (endOut_keeps _ _ _ _ _ _) rfl ?_
        exact Keeps.refl _ _
  · refine Keeps.ite ?_ ?_
    · refine Keeps.via (failAt_keeps _ _ _ _ _) rfl ?_
      exact Keeps.refl _ _
    · refine Keeps.ite ?_ ?_
      · refine Keeps.via (failAt_keeps _ _ _ _ _) rfl ?_
        exact Keeps.refl _ _
      · refine Keeps.ite ?_ ?_
        · refine Keeps.via (failAt_keeps _ _ _ _ _) rfl ?_
          exact Keeps.refl _ _
        · refine Keeps.via (setCtx_keeps _ _ _ _) rfl ?_
          refine Keeps.via (lmemPut_keeps _ _ _ _) rfl ?_
          refine Keeps.via (bump_keeps _ _ _ _ _) rfl ?_
          exact Keeps.refl _ _

theorem dropKeyCopies_keeps : ∀ a0 a1, Keeps 4096 a0 (dropKeyCopies a0 a1) := by
  intro a0 a1
  unfold dropKeyCopies
  refine Keeps.via (setKey_keeps _ _) rfl ?_
  exact Keeps.refl _ _

theorem dropPage_keeps : ∀ a0 a1, Keeps 16 a0 (dropPage a0 a1) := by
  intro a0 a1
  unfold dropPage
  refine Keeps.put_regs ?_ rfl _
  exact Keeps.refl _ _

theorem dropTaking_keeps : ∀ a0 a1, Keeps 524288 a0 (dropTaking a0 a1) := by
  intro a0 a1
  unfold dropTaking
  refine Keeps.via (setTst_keeps _ _) rfl ?_
  exact Keeps.refl _ _

theorem dropTest_keeps : ∀ a0 a1, Keeps 524288 a0 (dropTest a0 a1) := by
  intro a0 a1
  unfold dropTest
  refine Keeps.via (setTst_keeps _ _) rfl ?_
  exact Keeps.refl _ _

theorem holdPacket_keeps : ∀ a0 a1 a2 a3, Keeps 128 a0 (holdPacket a0 a1 a2 a3) := by
  intro a0 a1 a2 a3
  unfold holdPacket
  refine Keeps.via (setCtx_keeps _ _ _ _) rfl ?_
  exact Keeps.refl _ _

theorem durableData_keeps : ∀ a0 a1 a2 a3 a4, Keeps 256081624 a0 (durableData a0 a1 a2 a3 a4) := by
  intro a0 a1 a2 a3 a4
  unfold durableData
  refine Keeps.ite ?_ ?_
  · refine Keeps.via (failAt_keeps _ _ _ _ _) rfl ?_
    exact Keeps.refl _ _
  · refine Keeps.ite ?_ ?_
    · refine Keeps.via (failAt_keeps _ _ _ _ _) rfl ?_
      exact Keeps.refl _ _
    · refine Keeps.via (holdPacket_keeps _ _ _ _) rfl ?_
      exact Keeps.refl _ _

theorem endSess_keeps : ∀ a0 a1, Keeps 35129392 a0 (endSess a0 a1) := by
  intro a0 a1
  unfold endSess
  refine Keeps.ite ?_ ?_
  · refine Keeps.via (closeTest_keeps _) rfl ?_
    refine Keeps.via (setTru_keeps _ _) rfl ?_
    exact Keeps.refl _ _
  · refine Keeps.via (setTru_keeps _ _) rfl ?_
    exact Keeps.refl _ _

theorem endTestSession_keeps : ∀ a0 a1, Keeps 33556528 a1 (endTestSession a0 a1) := by
  intro a0 a1
  unfold endTestSession
  refine Keeps.ite ?_ ?_
  · refine Keeps.via (record_keeps _ _ _ _ _ _ _) rfl ?_
    exact Keeps.refl _ _
  · exact Keeps.refl _ _

theorem enterRamp_keeps : ∀ a0, Keeps 1024 a0 (enterRamp a0) := by
  intro a0
  unfold enterRamp
  refine Keeps.via (setPwr_keeps _ _) rfl ?_
  exact Keeps.refl _ _

theorem refill_keeps : ∀ a0 a1, Keeps 64 a0 (refill a0 a1) := by
  intro a0 a1
  unfold refill
  refine Keeps.put_sbx ?_ rfl _
  exact Keeps.refl _ _

theorem epochRefill_keeps : ∀ a0, Keeps 64 a0 (epochRefill a0) := by
  intro a0
  unfold epochRefill
  refine Keeps.foldl (fun x1 _ => ?_) ?_
  · refine Keeps.ite ?_ ?_
    · exact Keeps.refl _ _
    · refine Keeps.via (refill_keeps _ _) rfl ?_
      exact Keeps.refl _ _
  · exact Keeps.refl _ _

theorem epochSets_keeps : ∀ a0, Keeps 268402672 a0 (epochSets a0) := by
  intro a0
  unfold epochSets
  refine Keeps.foldl (fun x1 _ => ?_) ?_
  · refine Keeps.via (capCredit_keeps _ _) rfl ?_
    exact Keeps.refl _ _
  · refine Keeps.via (commitEffect_keeps _ _) rfl ?_
    refine Keeps.via (commitEffect_keeps _ _) rfl ?_
    exact Keeps.refl _ _

theorem eraseGroup_keeps : ∀ a0 a1 a2, Keeps 264470256 a0 (eraseGroup a0 a1 a2) := by
  intro a0 a1 a2
  unfold eraseGroup
  refine Keeps.via (judgeSpare_keeps _) rfl ?_
  refine Keeps.via (judgeFold_keeps _) rfl ?_
  refine Keeps.ite ?_ ?_
  · refine Keeps.via (poolGroup_keeps _ _) rfl ?_
    refine Keeps.foldl (fun x1 _ => ?_) ?_
    · refine Keeps.via (retireBlock_keeps _ _ _ _) rfl ?_
      exact Keeps.refl _ _
    · refine Keeps.via (setBg_keeps _ _ _) rfl ?_
      refine Keeps.via (setFtl_keeps _ _) rfl ?_
      refine Keeps.via (setFch_keeps _ _) rfl ?_
      refine Keeps.ite ?_ ?_
      · exact Keeps.refl _ _
      · refine Keeps.via (book_keeps _ _ _) rfl ?_
        exact Keeps.refl _ _
  · refine Keeps.foldl (fun x2 _ => ?_) ?_
    · refine Keeps.via (retireBlock_keeps _ _ _ _) rfl ?_
      exact Keeps.refl _ _
    · refine Keeps.via (setBg_keeps _ _ _) rfl ?_
      refine Keeps.via (setFtl_keeps _ _) rfl ?_
      refine Keeps.via (setFch_keeps _ _) rfl ?_
      refine Keeps.ite ?_ ?_
      · exact Keeps.refl _ _
      · refine Keeps.via (book_keeps _ _ _) rfl ?_
        exact Keeps.refl _ _

theorem execTestPortInstruction_keeps : ∀ a0 a1, KeepsO 131072 a1 (execTestPortInstruction a0 a1) := by
  intro a0 a1
  unfold execTestPortInstruction
  refine KeepsO.next ?_
  refine Keeps.put_boot ?_ rfl _
  exact Keeps.refl _ _

theorem execUaserLinkUp_keeps : ∀ a0 a1 a2, KeepsO 134217728 a2 (execUaserLinkUp a0 a1 a2) := by
  intro a0 a1 a2
  unfold execUaserLinkUp
  refine KeepsO.next ?_
  refine Keeps.via (setJct_keeps _ _) rfl ?_
  exact Keeps.refl _ _

theorem mediaRead_keeps : ∀ a0 a1 a2, Keeps 256605948 a0 (mediaRead a0 a1 a2) := by
  intro a0 a1 a2
  unfold mediaRead
  split
  · exact Keeps.refl _ _
  · refine Keeps.ite ?_ ?_
    · refine Keeps.via (readCore_keeps _ _ _ _) rfl ?_
      exact Keeps.refl _ _
    · refine Keeps.ite ?_ ?_
      · refine Keeps.via (setCore_keeps _ _ _) rfl ?_
        exact Keeps.refl _ _
      · split
        · refine Keeps.via (lmemTake_keeps _ _ _ _ _) rfl ?_
          exact Keeps.refl _ _
        · exact Keeps.refl _ _

theorem faultCore_keeps : ∀ a0 a1 a2, Keeps 16400 a0 (faultCore a0 a1 a2) := by
  intro a0 a1 a2
  unfold faultCore
  refine Keeps.via (setCore_keeps _ _ _) rfl ?_
  refine Keeps.via (setLive_keeps _ _ _ _ _) rfl ?_
  exact Keeps.refl _ _

theorem takeTrap_keeps : ∀ a0 a1 a2 a3 a4 a5, Keeps 16400 a0 (takeTrap a0 a1 a2 a3 a4 a5) := by
  intro a0 a1 a2 a3 a4 a5
  unfold takeTrap
  refine Keeps.ite ?_ ?_
  · refine Keeps.via (faultCore_keeps _ _ _) rfl ?_
    exact Keeps.refl _ _
  · refine Keeps.ite ?_ ?_
    · refine Keeps.via (faultCore_keeps _ _ _) rfl ?_
      refine Keeps.via (setCore_keeps _ _ _) rfl ?_
      refine Keeps.ite ?_ ?_
      · exact Keeps.refl _ _
      · refine Keeps.via (bump_keeps _ _ _ _ _) rfl ?_
        exact Keeps.refl _ _
    · refine Keeps.via (setCore_keeps _ _ _) rfl ?_
      refine Keeps.ite ?_ ?_
      · exact Keeps.refl _ _
      · refine Keeps.via (bump_keeps _ _ _ _ _) rfl ?_
        exact Keeps.refl _ _

theorem trapNow_keeps : ∀ a0 a1 a2 a3, Keeps 256605948 a0 (trapNow a0 a1 a2 a3) := by
  intro a0 a1 a2 a3
  unfold trapNow
  refine Keeps.ite ?_ ?_
  · refine Keeps.foldl (fun x1 _ => ?_) ?_
    · refine Keeps.via (failAt_keeps _ _ _ _ _) rfl ?_
      exact Keeps.refl _ _
    · refine Keeps.via (setCore_keeps _ _ _) rfl ?_
      refine Keeps.via (takeTrap_keeps _ _ _ _ _ _) rfl ?_
      refine Keeps.via (mediaRead_keeps _ _ _) rfl ?_
      exact Keeps.refl _ _
  · refine Keeps.via (takeTrap_keeps _ _ _ _ _ _) rfl ?_
    refine Keeps.via (mediaRead_keeps _ _ _) rfl ?_
    exact Keeps.refl _ _

theorem settle_keeps : ∀ a0 a1, Keeps 16384 a0 (settle a0 a1) := by
  intro a0 a1
  unfold settle
  refine Keeps.ite ?_ ?_
  · refine Keeps.via (setCore_keeps _ _ _) rfl ?_
    exact Keeps.refl _ _
  · exact Keeps.refl _ _

theorem execUndefinedEncoding_keeps : ∀ a0 a1 a2, KeepsO 256605948 a2 (execUndefinedEncoding a0 a1 a2) := by
  intro a0 a1 a2
  unfold execUndefinedEncoding
  refine KeepsO.ite ?_ ?_
  · refine KeepsO.next ?_
    exact Keeps.refl _ _
  · split
    · refine KeepsO.next ?_
      refine Keeps.via (settle_keeps _ _) rfl ?_
      refine Keeps.via (trapNow_keeps _ _ _ _) rfl ?_
      exact Keeps.refl _ _
    · split
      · refine KeepsO.next ?_
        refine Keeps.via (settle_keeps _ _) rfl ?_
        refine Keeps.via (trapNow_keeps _ _ _ _) rfl ?_
        exact Keeps.refl _ _
      · refine KeepsO.next ?_
        exact Keeps.refl _ _

theorem execEraseStatus_keeps : ∀ a0 a1 a2 a3 a4, KeepsO 264994544 a4 (execEraseStatus a0 a1 a2 a3 a4) := by
  intro a0 a1 a2 a3 a4
  unfold execEraseStatus
  refine KeepsO.ite ?_ ?_
  · refine KeepsO.ite ?_ ?_
    · refine KeepsO.next ?_
      refine Keeps.via (endErase_keeps _ _ _ _) rfl ?_
      split
      · refine Keeps.via (useInj_keeps _ _) rfl ?_
        exact Keeps.refl _ _
      · exact Keeps.refl _ _
    · refine KeepsO.next ?_
      refine Keeps.via (setFch_keeps _ _) rfl ?_
      refine Keeps.via (endErase_keeps _ _ _ _) rfl ?_
      split
      · refine Keeps.via (useInj_keeps _ _) rfl ?_
        exact Keeps.refl _ _
      · exact Keeps.refl _ _
  · refine KeepsO.next ?_
    refine Keeps.via (retireBlock_keeps _ _ _ _) rfl ?_
    refine Keeps.via (endErase_keeps _ _ _ _) rfl ?_
    split
    · refine Keeps.via (useInj_keeps _ _) rfl ?_
      exact Keeps.refl _ _
    · exact Keeps.refl _ _

theorem execSmbusTimeout_keeps : ∀ a0, KeepsO 67108864 a0 (execSmbusTimeout a0) := by
  intro a0
  unfold execSmbusTimeout
  refine KeepsO.next ?_
  refine Keeps.via (setHif_keeps _ _) rfl ?_
  exact Keeps.refl _ _

theorem execStop_keeps : ∀ a0, KeepsO 524288 a0 (execStop a0) := by
  intro a0
  unfold execStop
  refine KeepsO.next ?_
  refine Keeps.via (cancelInjections_keeps _) rfl ?_
  exact Keeps.refl _ _

theorem execInjectionWindowEnd_keeps : ∀ a0 a1 a2, KeepsO 524288 a2 (execInjectionWindowEnd a0 a1 a2) := by
  intro a0 a1 a2
  unfold execInjectionWindowEnd
  split
  · refine KeepsO.next ?_
    exact Keeps.refl _ _
  · try dsimp -proj only
    split
    · refine KeepsO.next ?_
      refine Keeps.via (setTst_keeps _ _) rfl ?_
      exact Keeps.refl _ _
    · refine KeepsO.next ?_
      refine Keeps.via (setTst_keeps _ _) rfl ?_
      exact Keeps.refl _ _

theorem injectNow_keeps : ∀ a0 a1, Keeps 34080816 a0 (injectNow a0 a1) := by
  intro a0 a1
  unfold injectNow
  split
  · exact Keeps.refl _ _
  · refine Keeps.via (record_keeps _ _ _ _ _ _ _) rfl ?_
    refine Keeps.via (setTst_keeps _ _) rfl ?_
    exact Keeps.refl _ _

theorem execClock_keeps : ∀ a0, KeepsO 34080816 a0 (execClock a0) := by
  intro a0
  unfold execClock
  refine KeepsO.next ?_
  refine Keeps.via (injectNow_keeps _ _) rfl ?_
  exact Keeps.refl _ _

theorem execBackpressure_keeps : ∀ a0, KeepsO 34080816 a0 (execBackpressure a0) := by
  intro a0
  unfold execBackpressure
  refine KeepsO.next ?_
  refine Keeps.via (injectNow_keeps _ _) rfl ?_
  exact Keeps.refl _ _

theorem execCausewayDelay_keeps : ∀ a0, KeepsO 34080816 a0 (execCausewayDelay a0) := by
  intro a0
  unfold execCausewayDelay
  refine KeepsO.next ?_
  refine Keeps.via (injectNow_keeps _ _) rfl ?_
  exact Keeps.refl _ _

theorem execFlashFail_keeps : ∀ a0, KeepsO 34080816 a0 (execFlashFail a0) := by
  intro a0
  unfold execFlashFail
  refine KeepsO.next ?_
  refine Keeps.via (injectNow_keeps _ _) rfl ?_
  exact Keeps.refl _ _

theorem execFlashBits_keeps : ∀ a0, KeepsO 34080816 a0 (execFlashBits a0) := by
  intro a0
  unfold execFlashBits
  refine KeepsO.next ?_
  refine Keeps.via (injectNow_keeps _ _) rfl ?_
  exact Keeps.refl _ _

theorem execDramSymbol_keeps : ∀ a0, KeepsO 34080816 a0 (execDramSymbol a0) := by
  intro a0
  unfold execDramSymbol
  refine KeepsO.next ?_
  refine Keeps.via (injectNow_keeps _ _) rfl ?_
  exact Keeps.refl _ _

theorem execTrunkSymbol_keeps : ∀ a0, KeepsO 34080816 a0 (execTrunkSymbol a0) := by
  intro a0
  unfold execTrunkSymbol
  refine KeepsO.next ?_
  refine Keeps.via (injectNow_keeps _ _) rfl ?_
  exact Keeps.refl _ _

theorem execSramSymbol_keeps : ∀ a0, KeepsO 34080816 a0 (execSramSymbol a0) := by
  intro a0
  unfold execSramSymbol
  refine KeepsO.next ?_
  refine Keeps.via (injectNow_keeps _ _) rfl ?_
  exact Keeps.refl _ _

theorem selfSettle_keeps : ∀ a0, Keeps 524288 a0 (selfSettle a0) := by
  intro a0
  unfold selfSettle
  refine Keeps.ite ?_ ?_
  · exact Keeps.refl _ _
  · refine Keeps.via (setTst_keeps _ _) rfl ?_
    exact Keeps.refl _ _

theorem reportTest_keeps : ∀ a0 a1 a2, Keeps 16 a0 (reportTest a0 a1 a2) := by
  intro a0 a1 a2
  unfold reportTest
  refine Keeps.via (setLive_keeps _ _ _ _ _) rfl ?_
  refine Keeps.via (setLive_keeps _ _ _ _ _) rfl ?_
  refine Keeps.via (setLive_keeps _ _ _ _ _) rfl ?_
  exact Keeps.refl _ _

theorem testOutcome_keeps : ∀ a0 a1 a2 a3, Keeps 524304 a0 (testOutcome a0 a1 a2 a3) := by
  intro a0 a1 a2 a3
  unfold testOutcome
  refine Keeps.ite ?_ ?_
  · refine Keeps.via (reportTest_keeps _ _ _) rfl ?_
    exact Keeps.refl _ _
  · refine Keeps.ite ?_ ?_
    · refine Keeps.via (selfSettle_keeps _) rfl ?_
      refine Keeps.via (setTst_keeps _ _) rfl ?_
      exact Keeps.refl _ _
    · exact Keeps.refl _ _

theorem nextBank_keeps : ∀ a0 a1 a2, Keeps 524288 a0 (nextBank a0 a1 a2).1 := by
  intro a0 a1 a2
  unfold nextBank
  refine Keeps.ite1 ?_ ?_
  · refine Keeps.via (setTst_keeps _ _) rfl ?_
    exact Keeps.refl _ _
  · exact Keeps.refl _ _

theorem setBank_keeps : ∀ a0 a1 a2, Keeps 4194304 a0 (setBank a0 a1 a2) := by
  intro a0 a1 a2
  unfold setBank
  refine Keeps.via (setAsu_keeps _ _) rfl ?_
  exact Keeps.refl _ _

theorem testFailed_keeps : ∀ a0 a1, Keeps 264994552 a0 (testFailed a0 a1) := by
  intro a0 a1
  unfold testFailed
  try dsimp -proj only
  split
  · refine Keeps.via (unitState_keeps _ _ _) rfl ?_
    refine Keeps.via (setFen_keeps _ _ _) rfl ?_
    refine Keeps.via (dropTest_keeps _ _) rfl ?_
    exact Keeps.refl _ _
  · refine Keeps.via (unitState_keeps _ _ _) rfl ?_
    refine Keeps.via (setFen_keeps _ _ _) rfl ?_
    refine Keeps.via (dropTest_keeps _ _) rfl ?_
    exact Keeps.refl _ _
  · refine Keeps.via (channelOffline_keeps _ _) rfl ?_
    refine Keeps.via (dropTest_keeps _ _) rfl ?_
    exact Keeps.refl _ _
  · refine Keeps.via (dramDead_keeps _ _) rfl ?_
    refine Keeps.via (setDram_keeps _ _ _) rfl ?_
    refine Keeps.via (dropTest_keeps _ _) rfl ?_
    exact Keeps.refl _ _
  · refine Keeps.via (setBank_keeps _ _ _) rfl ?_
    refine Keeps.via (dropTest_keeps _ _) rfl ?_
    exact Keeps.refl _ _
  · refine Keeps.ite ?_ ?_
    · refine Keeps.via (dropTest_keeps _ _) rfl ?_
      exact Keeps.refl _ _
    · refine Keeps.via (unitState_keeps _ _ _) rfl ?_
      refine Keeps.via (setCore_keeps _ _ _) rfl ?_
      refine Keeps.via (dropTest_keeps _ _) rfl ?_
      exact Keeps.refl _ _
  · refine Keeps.ite ?_ ?_
    · refine Keeps.via (dropTest_keeps _ _) rfl ?_
      exact Keeps.refl _ _
    · refine Keeps.via (unitState_keeps _ _ _) rfl ?_
      refine Keeps.via (setCore_keeps _ _ _) rfl ?_
      refine Keeps.via (dropTest_keeps _ _) rfl ?_
      exact Keeps.refl _ _
  · refine Keeps.ite ?_ ?_
    · refine Keeps.via (dropTest_keeps _ _) rfl ?_
      exact Keeps.refl _ _
    · refine Keeps.via (unitState_keeps _ _ _) rfl ?_
      refine Keeps.via (dropTest_keeps _ _) rfl ?_
      exact Keeps.refl _ _

theorem setTest_keeps : ∀ a0 a1, Keeps 524288 a0 (setTest a0 a1) := by
  intro a0 a1
  unfold setTest
  refine Keeps.via (setTst_keeps _ _) rfl ?_
  exact Keeps.refl _ _

theorem freeSpare_keeps : ∀ a0 a1, Keeps 4104 a0 (freeSpare a0 a1) := by
  intro a0 a1
  unfold freeSpare
  refine Keeps.via (clearHw_keeps _ _) rfl ?_
  refine Keeps.via (setUnit_keeps _ _ _) rfl ?_
  exact Keeps.refl _ _

theorem giveBack_keeps : ∀ a0 a1, Keeps 544776 a0 (giveBack a0 a1) := by
  intro a0 a1
  unfold giveBack
  split
  · exact Keeps.refl _ _
  · refine Keeps.ite ?_ ?_
    · refine Keeps.ite ?_ ?_
      · refine Keeps.via (dropTest_keeps _ _) rfl ?_
        refine Keeps.via (freeSpare_keeps _ _) rfl ?_
        exact Keeps.refl _ _
      · exact Keeps.refl _ _
    · refine Keeps.ite ?_ ?_
      · refine Keeps.via (dropTest_keeps _ _) rfl ?_
        refine Keeps.via (freeSpare_keeps _ _) rfl ?_
        refine Keeps.via (setCore_keeps _ _ _) rfl ?_
        refine Keeps.via (setCore_keeps _ _ _) rfl ?_
        exact Keeps.refl _ _
      · exact Keeps.refl _ _

theorem takeEngine_keeps : ∀ a0 a1, Keeps 33556536 a0 (takeEngine a0 a1) := by
  intro a0 a1
  unfold takeEngine
  split
  · refine Keeps.via (bindSpare_keeps _ _ _) rfl ?_
    exact Keeps.refl _ _
  · refine Keeps.via (unitState_keeps _ _ _) rfl ?_
    exact Keeps.refl _ _

theorem takeCore_keeps : ∀ a0 a1, Keeps 33572920 a0 (takeCore a0 a1) := by
  intro a0 a1
  unfold takeCore
  try dsimp -proj only
  split
  · refine Keeps.via (bindSpare_keeps _ _ _) rfl ?_
    refine Keeps.via (setCore_keeps _ _ _) rfl ?_
    refine Keeps.via (setCore_keeps _ _ _) rfl ?_
    exact Keeps.refl _ _
  · refine Keeps.via (unitState_keeps _ _ _) rfl ?_
    refine Keeps.via (setCore_keeps _ _ _) rfl ?_
    exact Keeps.refl _ _

theorem takeBank_keeps : ∀ a0 a1, Keeps 4194304 a0 (takeBank a0 a1) := by
  intro a0 a1
  unfold takeBank
  split
  · refine Keeps.ite ?_ ?_
    · refine Keeps.via (setBank_keeps _ _ _) rfl ?_
      exact Keeps.refl _ _
    · refine Keeps.via (setBank_keeps _ _ _) rfl ?_
      exact Keeps.refl _ _
  · refine Keeps.via (setBank_keeps _ _ _) rfl ?_
    exact Keeps.refl _ _

theorem takeOut_keeps : ∀ a0 a1, Keeps 264994808 a0 (takeOut a0 a1) := by
  intro a0 a1
  unfold takeOut
  refine Keeps.ite ?_ ?_
  · refine Keeps.via (takeBank_keeps _ _) rfl ?_
    exact Keeps.refl _ _
  · try dsimp -proj only
    split
    · refine Keeps.via (takeBank_keeps _ _) rfl ?_
      refine Keeps.via (setTst_keeps _ _) rfl ?_
      exact Keeps.refl _ _
    · refine Keeps.via (takeCore_keeps _ _) rfl ?_
      refine Keeps.via (setTst_keeps _ _) rfl ?_
      exact Keeps.refl _ _
    · refine Keeps.via (takeCore_keeps _ _) rfl ?_
      refine Keeps.via (setTst_keeps _ _) rfl ?_
      exact Keeps.refl _ _
    · refine Keeps.via (unitState_keeps _ _ _) rfl ?_
      refine Keeps.via (setFen_keeps _ _ _) rfl ?_
      refine Keeps.via (setTst_keeps _ _) rfl ?_
      exact Keeps.refl _ _
    · refine Keeps.via (unitState_keeps _ _ _) rfl ?_
      refine Keeps.via (setFen_keeps _ _ _) rfl ?_
      refine Keeps.via (setTst_keeps _ _) rfl ?_
      exact Keeps.refl _ _
    · refine Keeps.via (unitState_keeps _ _ _) rfl ?_
      refine Keeps.via (channelLeaves_keeps _ _ _) rfl ?_
      refine Keeps.via (setTst_keeps _ _) rfl ?_
      exact Keeps.refl _ _
    · refine Keeps.via (unitState_keeps _ _ _) rfl ?_
      refine Keeps.via (dramLeaves_keeps _ _ _) rfl ?_
      refine Keeps.via (setTst_keeps _ _) rfl ?_
      exact Keeps.refl _ _
    · refine Keeps.via (takeEngine_keeps _ _) rfl ?_
      refine Keeps.ite ?_ ?_
      · refine Keeps.via (endInside_keeps _ _ _) rfl ?_
        refine Keeps.via (setTst_keeps _ _) rfl ?_
        exact Keeps.refl _ _
      · refine Keeps.via (setTst_keeps _ _) rfl ?_
        exact Keeps.refl _ _

theorem takeUrgent_keeps : ∀ a0, Keeps 264994808 a0 (takeUrgent a0) := by
  intro a0
  unfold takeUrgent
  refine Keeps.foldl (fun x1 _ => ?_) ?_
  · refine Keeps.ite ?_ ?_
    · refine Keeps.via (takeOut_keeps _ _) rfl ?_
      refine Keeps.via (setTst_keeps _ _) rfl ?_
      exact Keeps.refl _ _
    · exact Keeps.refl _ _
  · exact Keeps.refl _ _

theorem tstSettle_keeps : ∀ a0, Keeps 264994808 a0 (tstSettle a0) := by
  intro a0
  unfold tstSettle
  refine Keeps.foldl (fun x1 _ => ?_) ?_
  · refine Keeps.ite ?_ ?_
    · refine Keeps.via (giveBack_keeps _ _) rfl ?_
      refine Keeps.ite ?_ ?_
      · refine Keeps.via (setTest_keeps _ _) rfl ?_
        exact Keeps.refl _ _
      · exact Keeps.refl _ _
    · refine Keeps.ite ?_ ?_
      · refine Keeps.via (setTest_keeps _ _) rfl ?_
        exact Keeps.refl _ _
      · exact Keeps.refl _ _
  · refine Keeps.ite ?_ ?_
    · exact Keeps.refl _ _
    · refine Keeps.via (takeUrgent_keeps _) rfl ?_
      exact Keeps.refl _ _

theorem testPassed_keeps : ∀ a0 a1, Keeps 264994808 a0 (testPassed a0 a1) := by
  intro a0 a1
  unfold testPassed
  try dsimp -proj only
  split
  · refine Keeps.via (dropTest_keeps _ _) rfl ?_
    refine Keeps.via (unitState_keeps _ _ _) rfl ?_
    refine Keeps.via (setFen_keeps _ _ _) rfl ?_
    exact Keeps.refl _ _
  · refine Keeps.via (dropTest_keeps _ _) rfl ?_
    refine Keeps.via (unitState_keeps _ _ _) rfl ?_
    refine Keeps.via (setFen_keeps _ _ _) rfl ?_
    exact Keeps.refl _ _
  · refine Keeps.via (dropTest_keeps _ _) rfl ?_
    refine Keeps.via (unitState_keeps _ _ _) rfl ?_
    refine Keeps.via (noteOffline_keeps _) rfl ?_
    refine Keeps.via (setChan_keeps _ _ _) rfl ?_
    exact Keeps.refl _ _
  · refine Keeps.via (dropTest_keeps _ _) rfl ?_
    refine Keeps.via (unitState_keeps _ _ _) rfl ?_
    refine Keeps.via (setDram_keeps _ _ _) rfl ?_
    exact Keeps.refl _ _
  · refine Keeps.via (dropTest_keeps _ _) rfl ?_
    refine Keeps.via (setBank_keeps _ _ _) rfl ?_
    exact Keeps.refl _ _
  · refine Keeps.ite ?_ ?_
    · refine Keeps.via (tstSettle_keeps _) rfl ?_
      refine Keeps.via (setTest_keeps _ _) rfl ?_
      exact Keeps.refl _ _
    · refine Keeps.via (dropTest_keeps _ _) rfl ?_
      refine Keeps.via (backInService_keeps _ _) rfl ?_
      refine Keeps.via (setCore_keeps _ _ _) rfl ?_
      exact Keeps.refl _ _
  · refine Keeps.ite ?_ ?_
    · refine Keeps.via (tstSettle_keeps _) rfl ?_
      refine Keeps.via (setTest_keeps _ _) rfl ?_
      exact Keeps.refl _ _
    · refine Keeps.via (dropTest_keeps _ _) rfl ?_
      refine Keeps.via (backInService_keeps _ _) rfl ?_
      refine Keeps.via (setCore_keeps _ _ _) rfl ?_
      exact Keeps.refl _ _
  · refine Keeps.ite ?_ ?_
    · refine Keeps.via (tstSettle_keeps _) rfl ?_
      refine Keeps.via (setTest_keeps _ _) rfl ?_
      refine Keeps.via (clearHw_keeps _ _) rfl ?_
      exact Keeps.refl _ _
    · refine Keeps.via (dropTest_keeps _ _) rfl ?_
      refine Keeps.via (backInService_keeps _ _) rfl ?_
      refine Keeps.via (clearHw_keeps _ _) rfl ?_
      exact Keeps.refl _ _

theorem tilesFound_keeps : ∀ a0 a1 a2, Keeps 512 a0 (tilesFound a0 a1 a2) := by
  intro a0 a1 a2
  unfold tilesFound
  refine Keeps.ite ?_ ?_
  · refine Keeps.via (setFen_keeps _ _ _) rfl ?_
    exact Keeps.refl _ _
  · exact Keeps.refl _ _

theorem unitTested_keeps : ∀ a0 a1 a2 a3, Keeps 264994808 a0 (unitTested a0 a1 a2 a3) := by
  intro a0 a1 a2 a3
  unfold unitTested
  split
  · exact Keeps.refl _ _
  · refine Keeps.ite ?_ ?_
    · exact Keeps.refl _ _
    · refine Keeps.ite ?_ ?_
      · refine Keeps.via (testOutcome_keeps _ _ _ _) rfl ?_
        refine Keeps.via (nextBank_keeps _ _ _) rfl ?_
        refine Keeps.ite ?_ ?_
        · refine Keeps.via (testPassed_keeps _ _) rfl ?_
          refine Keeps.via (setLive_keeps _ _ _ _ _) rfl ?_
          refine Keeps.via (bump_keeps _ _ _ _ _) rfl ?_
          refine Keeps.via (tilesFound_keeps _ _ _) rfl ?_
          exact Keeps.refl _ _
        · refine Keeps.via (testFailed_keeps _ _) rfl ?_
          refine Keeps.via (setLive_keeps _ _ _ _ _) rfl ?_
          refine Keeps.via (bump_keeps _ _ _ _ _) rfl ?_
          refine Keeps.via (tilesFound_keeps _ _ _) rfl ?_
          exact Keeps.refl _ _
      · refine Keeps.via (nextBank_keeps _ _ _) rfl ?_
        refine Keeps.ite ?_ ?_
        · refine Keeps.via (testPassed_keeps _ _) rfl ?_
          refine Keeps.via (setLive_keeps _ _ _ _ _) rfl ?_
          refine Keeps.via (bump_keeps _ _ _ _ _) rfl ?_
          refine Keeps.via (tilesFound_keeps _ _ _) rfl ?_
          exact Keeps.refl _ _
        · refine Keeps.via (testFailed_keeps _ _) rfl ?_
          refine Keeps.via (setLive_keeps _ _ _ _ _) rfl ?_
          refine Keeps.via (bump_keeps _ _ _ _ _) rfl ?_
          refine Keeps.via (tilesFound_keeps _ _ _) rfl ?_
          exact Keeps.refl _ _

theorem execUnitTestDone_keeps : ∀ a0 a1 a2, KeepsO 268402680 a2 (execUnitTestDone a0 a1 a2) := by
  intro a0 a1 a2
  unfold execUnitTestDone
  refine KeepsO.next ?_
  refine Keeps.via (backSets_keeps _ _) rfl ?_
  refine Keeps.via (unitTested_keeps _ _ _ _) rfl ?_
  exact Keeps.refl _ _

theorem execTestDrainTimeout_keeps : ∀ a0 a1, KeepsO 264994808 a1 (execTestDrainTimeout a0 a1) := by
  intro a0 a1
  unfold execTestDrainTimeout
  split
  · refine KeepsO.ite ?_ ?_
    · refine KeepsO.next ?_
      refine Keeps.via (tstSettle_keeps _) rfl ?_
      refine Keeps.via (setTest_keeps _ _) rfl ?_
      refine Keeps.via (endInside_keeps _ _ _) rfl ?_
      exact Keeps.refl _ _
    · refine KeepsO.next ?_
      exact Keeps.refl _ _
  · refine KeepsO.next ?_
    exact Keeps.refl _ _

theorem execRotate_keeps : ∀ a0, KeepsO 524288 a0 (execRotate a0) := by
  intro a0
  unfold execRotate
  refine KeepsO.ite ?_ ?_
  · refine KeepsO.next ?_
    exact Keeps.refl _ _
  · refine KeepsO.next ?_
    refine Keeps.via (setTst_keeps _ _) rfl ?_
    exact Keeps.refl _ _

theorem feedQueue_keeps : ∀ a0, Keeps 524288 a0 (feedQueue a0) := by
  intro a0
  unfold feedQueue
  refine Keeps.via (setTst_keeps _ _) rfl ?_
  exact Keeps.refl _ _

theorem execUnitTestRequest_keeps : ∀ a0, KeepsO 264994808 a0 (execUnitTestRequest a0) := by
  intro a0
  unfold execUnitTestRequest
  refine KeepsO.ite ?_ ?_
  · refine KeepsO.next ?_
    exact Keeps.refl _ _
  · try dsimp -proj only
    split
    · refine KeepsO.next ?_
      refine Keeps.via (feedQueue_keeps _) rfl ?_
      refine Keeps.via (takeUrgent_keeps _) rfl ?_
      exact Keeps.refl _ _
    · split
      · refine KeepsO.next ?_
        refine Keeps.via (feedQueue_keeps _) rfl ?_
        refine Keeps.via (takeUrgent_keeps _) rfl ?_
        exact Keeps.refl _ _
      · refine KeepsO.next ?_
        refine Keeps.ite ?_ ?_
        · refine Keeps.via (takeOut_keeps _ _) rfl ?_
          refine Keeps.via (dropTaking_keeps _ _) rfl ?_
          refine Keeps.via (feedQueue_keeps _) rfl ?_
          refine Keeps.via (takeUrgent_keeps _) rfl ?_
          exact Keeps.refl _ _
        · refine Keeps.via (testOutcome_keeps _ _ _ _) rfl ?_
          refine Keeps.via (dropTaking_keeps _ _) rfl ?_
          refine Keeps.via (feedQueue_keeps _) rfl ?_
          refine Keeps.via (takeUrgent_keeps _) rfl ?_
          exact Keeps.refl _ _

theorem writeCleared_keeps : ∀ a0 a1, Keeps 33556512 a0 (writeCleared a0 a1) := by
  intro a0 a1
  unfold writeCleared
  refine Keeps.via (flushMirror_keeps _) rfl ?_
  refine Keeps.foldl (fun x1 _ => ?_) ?_
  · refine Keeps.via (writeRecord_keeps _ _) rfl ?_
    exact Keeps.refl _ _
  · refine Keeps.via (writeRecord_keeps _ _) rfl ?_
    refine Keeps.via (setEvr_keeps _ _) rfl ?_
    exact Keeps.refl _ _

theorem useNor_keeps : ∀ a0, Keeps 36 a0 (useNor a0) := by
  intro a0
  unfold useNor
  refine Keeps.via (drawn_keeps _) rfl ?_
  refine Keeps.via (setEvr_keeps _ _) rfl ?_
  exact Keeps.refl _ _

theorem execEvrClear_keeps : ∀ a0, KeepsO 33556516 a0 (execEvrClear a0) := by
  intro a0
  unfold execEvrClear
  split
  · refine KeepsO.next ?_
    exact Keeps.refl _ _
  · split
    · refine KeepsO.next ?_
      refine Keeps.via (setEvr_keeps _ _) rfl ?_
      exact Keeps.refl _ _
    · refine KeepsO.next ?_
      refine Keeps.via (setEvr_keeps _ _) rfl ?_
      refine Keeps.via (useNor_keeps _) rfl ?_
      exact Keeps.refl _ _
    · refine KeepsO.next ?_
      refine Keeps.via (setEvr_keeps _ _) rfl ?_
      refine Keeps.via (writeCleared_keeps _ _) rfl ?_
      exact Keeps.refl _ _
    · refine KeepsO.next ?_
      refine Keeps.foldl (fun x1 _ => ?_) ?_
      · refine Keeps.via (writeRecord_keeps _ _) rfl ?_
        exact Keeps.refl _ _
      · refine Keeps.via (setEvr_keeps _ _) rfl ?_
        exact Keeps.refl _ _

theorem execEvrRead_keeps : ∀ a0, KeepsO 32 a0 (execEvrRead a0) := by
  intro a0
  unfold execEvrRead
  refine KeepsO.ite ?_ ?_
  · refine KeepsO.next ?_
    exact Keeps.refl _ _
  · refine KeepsO.next ?_
    refine Keeps.via (setEvr_keeps _ _) rfl ?_
    exact Keeps.refl _ _

theorem execSuppressed_keeps : ∀ a0, KeepsO 33556528 a0 (execSuppressed a0) := by
  intro a0
  unfold execSuppressed
  refine KeepsO.next ?_
  refine Keeps.via (setEvr_keeps _ _) rfl ?_
  refine Keeps.via (endSecond_keeps _) rfl ?_
  exact Keeps.refl _ _

theorem execMirrorPageFlush_keeps : ∀ a0, KeepsO 36 a0 (execMirrorPageFlush a0) := by
  intro a0
  unfold execMirrorPageFlush
  refine KeepsO.next ?_
  refine Keeps.ite ?_ ?_
  · exact Keeps.refl _ _
  · refine Keeps.via (flushMirror_keeps _) rfl ?_
    refine Keeps.via (useNor_keeps _) rfl ?_
    exact Keeps.refl _ _

theorem execConfirm_keeps : ∀ a0, KeepsO 262144 a0 (execConfirm a0) := by
  intro a0
  unfold execConfirm
  refine KeepsO.next ?_
  refine Keeps.via (confirmImage_keeps _) rfl ?_
  refine Keeps.via (setUpd_keeps _ _) rfl ?_
  exact Keeps.refl _ _

theorem execActivate_keeps : ∀ a0, KeepsO 256604892 a0 (execActivate a0) := by
  intro a0
  unfold execActivate
  refine KeepsO.next ?_
  refine Keeps.via (activateNow_keeps _) rfl ?_
  exact Keeps.refl _ _

theorem updDone_keeps : ∀ a0 a1, Keeps 262160 a0 (updDone a0 a1) := by
  intro a0 a1
  unfold updDone
  refine Keeps.via (setLive_keeps _ _ _ _ _) rfl ?_
  refine Keeps.via (setLive_keeps _ _ _ _ _) rfl ?_
  refine Keeps.via (setUpd_keeps _ _) rfl ?_
  exact Keeps.refl _ _

theorem updDoneFree_keeps : ∀ a0, Keeps 262164 a0 (updDoneFree a0) := by
  intro a0
  unfold updDoneFree
  refine Keeps.via (updDone_keeps _ _) rfl ?_
  refine Keeps.via (drawn_keeps _) rfl ?_
  exact Keeps.refl _ _

theorem execUpdActivateSlot_keeps : ∀ a0, KeepsO 262164 a0 (execUpdActivateSlot a0) := by
  intro a0
  unfold execUpdActivateSlot
  unfold slotOp
  try dsimp -proj only
  try dsimp -proj only
  split
  · try dsimp -proj only
    refine KeepsO.next ?_
    exact Keeps.refl _ _
  · try dsimp -proj only
    refine KeepsO.ite ?_ ?_
    · refine KeepsO.next ?_
      exact Keeps.refl _ _
    · refine KeepsO.ite ?_ ?_
      · refine KeepsO.next ?_
        refine Keeps.via (updDone_keeps _ _) rfl ?_
        exact Keeps.refl _ _
      · refine KeepsO.ite ?_ ?_
        · refine KeepsO.next ?_
          refine Keeps.via (updDoneFree_keeps _) rfl ?_
          exact Keeps.refl _ _
        · refine KeepsO.next ?_
          split
          · try dsimp -proj only
            refine Keeps.via (updDone_keeps _ _) rfl ?_
            exact Keeps.refl _ _
          · try dsimp -proj only
            refine Keeps.ite ?_ ?_
            · refine Keeps.via (updDone_keeps _ _) rfl ?_
              refine Keeps.via (activateSlot_keeps _ _) rfl ?_
              exact Keeps.refl _ _
            · refine Keeps.via (updDoneFree_keeps _) rfl ?_
              exact Keeps.refl _ _

theorem setSlotFw_keeps : ∀ a0 a1 a2, Keeps 262144 a0 (setSlotFw a0 a1 a2) := by
  intro a0 a1 a2
  unfold setSlotFw
  refine Keeps.via (setUpd_keeps _ _) rfl ?_
  exact Keeps.refl _ _

theorem writeSlot_keeps : ∀ a0 a1, Keeps 262144 a0 (writeSlot a0 a1).1 := by
  intro a0 a1
  unfold writeSlot
  try dsimp -proj only
  split
  · exact Keeps.refl _ _
  · refine Keeps.via (setSlotFw_keeps _ _ _) rfl ?_
    refine Keeps.via (setSlotFw_keeps _ _ _) rfl ?_
    exact Keeps.refl _ _

theorem execUpdWriteActivate_keeps : ∀ a0, KeepsO 262164 a0 (execUpdWriteActivate a0) := by
  intro a0
  unfold execUpdWriteActivate
  unfold slotOp
  try dsimp -proj only
  try dsimp -proj only
  split
  · try dsimp -proj only
    refine KeepsO.next ?_
    exact Keeps.refl _ _
  · try dsimp -proj only
    refine KeepsO.ite ?_ ?_
    · refine KeepsO.next ?_
      exact Keeps.refl _ _
    · refine KeepsO.ite ?_ ?_
      · refine KeepsO.next ?_
        refine Keeps.via (updDone_keeps _ _) rfl ?_
        exact Keeps.refl _ _
      · refine KeepsO.ite ?_ ?_
        · refine KeepsO.next ?_
          refine Keeps.via (updDoneFree_keeps _) rfl ?_
          exact Keeps.refl _ _
        · refine KeepsO.next ?_
          split
          · rename_i y1_0 y1_1 h1
            have k1 : Keeps 262164 a0 y1_0 := by
              refine Keeps.fst h1 ?_
              refine Keeps.via (writeSlot_keeps _ _) rfl ?_
              exact Keeps.refl _ _
            try dsimp -proj only
            refine Keeps.via (updDone_keeps _ _) rfl ?_
            exact k1
          · rename_i y2_0 h2
            have k2 : Keeps 262164 a0 y2_0 := by
              refine Keeps.fst h2 ?_
              refine Keeps.via (writeSlot_keeps _ _) rfl ?_
              exact Keeps.refl _ _
            try dsimp -proj only
            refine Keeps.via (updDone_keeps _ _) rfl ?_
            refine Keeps.via (activateSlot_keeps _ _) rfl ?_
            exact k2

theorem execUpdWriteSlot_keeps : ∀ a0, KeepsO 262164 a0 (execUpdWriteSlot a0) := by
  intro a0
  unfold execUpdWriteSlot
  unfold slotOp
  try dsimp -proj only
  try dsimp -proj only
  split
  · try dsimp -proj only
    refine KeepsO.next ?_
    exact Keeps.refl _ _
  · try dsimp -proj only
    refine KeepsO.ite ?_ ?_
    · refine KeepsO.next ?_
      exact Keeps.refl _ _
    · refine KeepsO.ite ?_ ?_
      · refine KeepsO.next ?_
        refine Keeps.via (updDone_keeps _ _) rfl ?_
        exact Keeps.refl _ _
      · refine KeepsO.ite ?_ ?_
        · refine KeepsO.next ?_
          refine Keeps.via (updDoneFree_keeps _) rfl ?_
          exact Keeps.refl _ _
        · refine KeepsO.next ?_
          refine Keeps.via (updDone_keeps _ _) rfl ?_
          refine Keeps.via (writeSlot_keeps _ _) rfl ?_
          exact Keeps.refl _ _

theorem toRom_keeps : ∀ a0 a1 a2, Keeps 131072 a0 (toRom a0 a1 a2) := by
  intro a0 a1 a2
  unfold toRom
  refine Keeps.via (setBoot_keeps _ _) rfl ?_
  exact Keeps.refl _ _

theorem haltedStage_keeps : ∀ a0 a1, Keeps 393232 a0 (haltedStage a0 a1) := by
  intro a0 a1
  unfold haltedStage
  try dsimp -proj only
  split
  · refine Keeps.via (updDone_keeps _ _) rfl ?_
    refine Keeps.via (setSlotFw_keeps _ _ _) rfl ?_
    exact Keeps.refl _ _
  · refine Keeps.via (toRom_keeps _ _ _) rfl ?_
    refine Keeps.via (setBoot_keeps _ _) rfl ?_
    refine Keeps.via (updDone_keeps _ _) rfl ?_
    refine Keeps.via (writePtr_keeps _ _) rfl ?_
    refine Keeps.via (setSlotFw_keeps _ _ _) rfl ?_
    refine Keeps.via (setSlotFw_keeps _ _ _) rfl ?_
    exact Keeps.refl _ _

theorem execStage_keeps : ∀ a0 a1 a2, KeepsO 393232 a2 (execStage a0 a1 a2) := by
  intro a0 a1 a2
  unfold execStage
  split
  · refine KeepsO.next ?_
    exact Keeps.refl _ _
  · refine KeepsO.ite ?_ ?_
    · refine KeepsO.next ?_
      exact Keeps.refl _ _
    · refine KeepsO.ite ?_ ?_
      · refine KeepsO.next ?_
        refine Keeps.via (updDone_keeps _ _) rfl ?_
        exact Keeps.refl _ _
      · refine KeepsO.ite ?_ ?_
        · refine KeepsO.next ?_
          refine Keeps.via (updDone_keeps _ _) rfl ?_
          exact Keeps.refl _ _
        · refine KeepsO.ite ?_ ?_
          · refine KeepsO.next ?_
            refine Keeps.via (updDone_keeps _ _) rfl ?_
            exact Keeps.refl _ _
          · split
            · refine KeepsO.next ?_
              refine Keeps.via (updDone_keeps _ _) rfl ?_
              refine Keeps.via (badStaging_keeps _ _) rfl ?_
              exact Keeps.refl _ _
            · refine KeepsO.ite ?_ ?_
              · refine KeepsO.next ?_
                refine Keeps.via (haltedStage_keeps _ _) rfl ?_
                exact Keeps.refl _ _
              · refine KeepsO.next ?_
                refine Keeps.via (updDone_keeps _ _) rfl ?_
                refine Keeps.via (setUpd_keeps _ _) rfl ?_
                exact Keeps.refl _ _

theorem execConfirmTimeout_keeps : ∀ a0, KeepsO 256867068 a0 (execConfirmTimeout a0) := by
  intro a0
  unfold execConfirmTimeout
  refine KeepsO.ite ?_ ?_
  · refine KeepsO.next ?_
    refine Keeps.via (beginEntry_keeps _ _) rfl ?_
    refine Keeps.via (record_keeps _ _ _ _ _ _ _) rfl ?_
    refine Keeps.via (fallBackPtr_keeps _) rfl ?_
    exact Keeps.refl _ _
  · refine KeepsO.next ?_
    exact Keeps.refl _ _

theorem execSelfOk_keeps : ∀ a0, KeepsO 262144 a0 (execSelfOk a0) := by
  intro a0
  unfold execSelfOk
  refine KeepsO.ite ?_ ?_
  · refine KeepsO.next ?_
    refine Keeps.via (confirmImage_keeps _) rfl ?_
    refine Keeps.via (setUpd_keeps _ _) rfl ?_
    exact Keeps.refl _ _
  · refine KeepsO.next ?_
    exact Keeps.refl _ _

theorem execPerstRelease_keeps : ∀ a0 a1, KeepsO 131072 a1 (execPerstRelease a0 a1) := by
  intro a0 a1
  unfold execPerstRelease
  refine KeepsO.next ?_
  refine Keeps.via (setBoot_keeps _ _) rfl ?_
  exact Keeps.refl _ _

theorem portReset_keeps : ∀ a0 a1, Keeps 257130456 a0 (portReset a0 a1) := by
  intro a0 a1
  unfold portReset
  refine Keeps.via (dropController_keeps _ _ _) rfl ?_
  refine Keeps.foldl (fun x1 _ => ?_) ?_
  · refine Keeps.via (instanceReset_keeps _ _ _) rfl ?_
    exact Keeps.refl _ _
  · exact Keeps.refl _ _

theorem linkLost_keeps : ∀ a0 a1, Keeps 257130456 a0 (linkLost a0 a1) := by
  intro a0 a1
  unfold linkLost
  refine Keeps.ite ?_ ?_
  · refine Keeps.via (portReset_keeps _ _) rfl ?_
    refine Keeps.via (setLink_keeps _ _ _) rfl ?_
    exact Keeps.refl _ _
  · exact Keeps.refl _ _

theorem execPerstAssert_keeps : ∀ a0 a1, KeepsO 257130456 a1 (execPerstAssert a0 a1) := by
  intro a0 a1
  unfold execPerstAssert
  refine KeepsO.ite ?_ ?_
  · refine KeepsO.next ?_
    refine Keeps.via (setBoot_keeps _ _) rfl ?_
    exact Keeps.refl _ _
  · refine KeepsO.ite ?_ ?_
    · refine KeepsO.ite ?_ ?_
      · refine KeepsO.next ?_
        refine Keeps.via (toRom_keeps _ _ _) rfl ?_
        refine Keeps.via (setBoot_keeps _ _) rfl ?_
        refine Keeps.ite ?_ ?_
        · refine Keeps.via (enterRamp_keeps _) rfl ?_
          refine Keeps.via (setPwr_keeps _ _) rfl ?_
          refine Keeps.via (setFtl_keeps _ _) rfl ?_
          refine Keeps.via (setBoot_keeps _ _) rfl ?_
          exact Keeps.refl _ _
        · refine Keeps.via (setPwr_keeps _ _) rfl ?_
          refine Keeps.via (setFtl_keeps _ _) rfl ?_
          refine Keeps.via (setBoot_keeps _ _) rfl ?_
          exact Keeps.refl _ _
      · refine KeepsO.next ?_
        refine Keeps.via (setBoot_keeps _ _) rfl ?_
        exact Keeps.refl _ _
    · refine KeepsO.ite ?_ ?_
      · refine KeepsO.next ?_
        refine Keeps.via (setBoot_keeps _ _) rfl ?_
        exact Keeps.refl _ _
      · refine KeepsO.ite ?_ ?_
        · refine KeepsO.next ?_
          refine Keeps.via (linkLost_keeps _ _) rfl ?_
          refine Keeps.via (setBoot_keeps _ _) rfl ?_
          exact Keeps.refl _ _
        · refine KeepsO.next ?_
          refine Keeps.via (setLink_keeps _ _ _) rfl ?_
          refine Keeps.via (setBoot_keeps _ _) rfl ?_
          exact Keeps.refl _ _

theorem secureBegin_keeps : ∀ a0 a1 a2 a3, Keeps 264470256 a0 (secureBegin a0 a1 a2 a3) := by
  intro a0 a1 a2 a3
  unfold secureBegin
  refine Keeps.via (setFtl_keeps _ _) rfl ?_
  refine Keeps.via (runCkpt_keeps _ _) rfl ?_
  refine Keeps.foldl (fun x1 _ => ?_) ?_
  · refine Keeps.via (copyGroup_keeps _ _ _ _) rfl ?_
    exact Keeps.refl _ _
  · refine Keeps.foldl (fun x2 _ => ?_) ?_
    · refine Keeps.ite ?_ ?_
      · refine Keeps.via (closeGroup_keeps _ _) rfl ?_
        exact Keeps.refl _ _
      · exact Keeps.refl _ _
    · refine Keeps.via (flushPages_keeps _ _ _) rfl ?_
      refine Keeps.via (flushPages_keeps _ _ _) rfl ?_
      exact Keeps.refl _ _

theorem retryStalled_keeps : ∀ a0, Keeps 230913728 a0 (retryStalled a0) := by
  intro a0
  unfold retryStalled
  refine Keeps.foldl (fun x1 _ => ?_) ?_
  · refine Keeps.via (reissue_keeps _ _ _) rfl ?_
    exact Keeps.refl _ _
  · refine Keeps.via (setFch_keeps _ _) rfl ?_
    exact Keeps.refl _ _

theorem secureRetired_keeps : ∀ a0 a1 a2 a3, Keeps 41946160 a0 (secureRetired a0 a1 a2 a3).1 := by
  intro a0 a1 a2 a3
  unfold secureRetired
  refine Keeps.foldl (fun x1 _ => ?_) ?_
  · refine Keeps.via (recordLost_keeps _ _ _ _) rfl ?_
    exact Keeps.refl _ _
  · refine Keeps.via (setFch_keeps _ _) rfl ?_
    refine Keeps.ite ?_ ?_
    · exact Keeps.refl _ _
    · refine Keeps.via (book_keeps _ _ _) rfl ?_
      exact Keeps.refl _ _

theorem secureEraseGroup_keeps : ∀ a0 a1 a2, Keeps 264470256 a1 (secureEraseGroup a0 a1 a2) := by
  intro a0 a1 a2
  unfold secureEraseGroup
  refine Keeps.via (beginErase_keeps _ _ _) rfl ?_
  refine Keeps.via (eraseGroup_keeps _ _ _) rfl ?_
  exact Keeps.refl _ _

theorem secureErase_keeps : ∀ a0 a1, Keeps 264470264 a0 (secureErase a0 a1) := by
  intro a0 a1
  unfold secureErase
  refine Keeps.ite ?_ ?_
  · try dsimp -proj only
    split
    · refine Keeps.via (retryStalled_keeps _) rfl ?_
      refine Keeps.via (setFtl_keeps _ _) rfl ?_
      refine Keeps.via (secureRetired_keeps _ _ _ _) rfl ?_
      refine Keeps.foldl (fun x1 _ => ?_) ?_
      · refine Keeps.via (secureEraseGroup_keeps _ _ _) rfl ?_
        exact Keeps.refl _ _
      · exact Keeps.refl _ _
    · split
      · refine Keeps.via (retryStalled_keeps _) rfl ?_
        refine Keeps.via (setFtl_keeps _ _) rfl ?_
        refine Keeps.via (secureRetired_keeps _ _ _ _) rfl ?_
        refine Keeps.foldl (fun x2 _ => ?_) ?_
        · refine Keeps.via (secureEraseGroup_keeps _ _ _) rfl ?_
          exact Keeps.refl _ _
        · exact Keeps.refl _ _
      · split
        · refine Keeps.via (failAt_keeps _ _ _ _ _) rfl ?_
          refine Keeps.via (retryStalled_keeps _) rfl ?_
          refine Keeps.via (setFtl_keeps _ _) rfl ?_
          refine Keeps.via (secureRetired_keeps _ _ _ _) rfl ?_
          refine Keeps.foldl (fun x3 _ => ?_) ?_
          · refine Keeps.via (secureEraseGroup_keeps _ _ _) rfl ?_
            exact Keeps.refl _ _
          · exact Keeps.refl _ _
        · refine Keeps.via (endOut_keeps _ _ _ _ _ _) rfl ?_
          refine Keeps.via (retryStalled_keeps _) rfl ?_
          refine Keeps.via (setFtl_keeps _ _) rfl ?_
          refine Keeps.via (secureRetired_keeps _ _ _ _) rfl ?_
          refine Keeps.foldl (fun x4 _ => ?_) ?_
          · refine Keeps.via (secureEraseGroup_keeps _ _ _) rfl ?_
            exact Keeps.refl _ _
          · exact Keeps.refl _ _
  · exact Keeps.refl _ _

theorem resumeSecures_keeps : ∀ a0, Keeps 264470264 a0 (resumeSecures a0) := by
  intro a0
  unfold resumeSecures
  refine Keeps.foldl (fun x1 _ => ?_) ?_
  · refine Keeps.via (secureErase_keeps _ _) rfl ?_
    exact Keeps.refl _ _
  · exact Keeps.refl _ _

theorem takeCandidate_keeps : ∀ a0, Keeps 256 a0 (takeCandidate a0) := by
  intro a0
  unfold takeCandidate
  split
  · refine Keeps.put_cfg ?_ rfl _
    exact Keeps.refl _ _
  · exact Keeps.refl _ _

theorem fedJoin_keeps : ∀ a0, Keeps 134217728 a0 (fedJoin a0) := by
  intro a0
  unfold fedJoin
  refine Keeps.ite ?_ ?_
  · refine Keeps.via (setJct_keeps _ _) rfl ?_
    exact Keeps.refl _ _
  · exact Keeps.refl _ _

theorem execStartReady_keeps : ∀ a0, KeepsO 264470520 a0 (execStartReady a0) := by
  intro a0
  unfold execStartReady
  refine KeepsO.ite ?_ ?_
  · refine KeepsO.next ?_
    exact Keeps.refl _ _
  · refine KeepsO.next ?_
    refine Keeps.via (record_keeps _ _ _ _ _ _ _) rfl ?_
    refine Keeps.via (resumeSecures_keeps _) rfl ?_
    refine Keeps.foldl (fun x1 _ => ?_) ?_
    · refine Keeps.via (secureBegin_keeps _ _ _ _) rfl ?_
      exact Keeps.refl _ _
    · refine Keeps.via (fedJoin_keeps _) rfl ?_
      refine Keeps.via (takeCandidate_keeps _) rfl ?_
      refine Keeps.via (setBoot_keeps _ _) rfl ?_
      exact Keeps.refl _ _

theorem execWatchdogExpire_keeps : ∀ a0, KeepsO 256604892 a0 (execWatchdogExpire a0) := by
  intro a0
  unfold execWatchdogExpire
  refine KeepsO.ite ?_ ?_
  · refine KeepsO.next ?_
    refine Keeps.via (beginEntry_keeps _ _) rfl ?_
    exact Keeps.refl _ _
  · refine KeepsO.next ?_
    exact Keeps.refl _ _

theorem gateOff_keeps : ∀ a0 a1, Keeps 1024 a0 (gateOff a0 a1) := by
  intro a0 a1
  unfold gateOff
  refine Keeps.via (setPwr_keeps _ _) rfl ?_
  exact Keeps.refl _ _

theorem selfRefresh_keeps : ∀ a0, Keeps 33554432 a0 (selfRefresh a0) := by
  intro a0
  unfold selfRefresh
  refine Keeps.foldl (fun x1 _ => ?_) ?_
  · refine Keeps.via (setDram_keeps _ _ _) rfl ?_
    exact Keeps.refl _ _
  · exact Keeps.refl _ _

theorem gateAll_keeps : ∀ a0, Keeps 33555456 a0 (gateAll a0) := by
  intro a0
  unfold gateAll
  refine Keeps.via (selfRefresh_keeps _) rfl ?_
  refine Keeps.via (gateOff_keeps _ _) rfl ?_
  exact Keeps.refl _ _

theorem gateStep4_keeps : ∀ a0, Keeps 1024 a0 (gateStep4 a0) := by
  intro a0
  unfold gateStep4
  refine Keeps.via (gateOff_keeps _ _) rfl ?_
  exact Keeps.refl _ _

theorem fenceDirty_keeps : ∀ a0, Keeps 256080604 a0 (fenceDirty a0) := by
  intro a0
  unfold fenceDirty
  refine Keeps.foldl (fun x1 _ => ?_) ?_
  · refine Keeps.via (flushFence_keeps _ _) rfl ?_
    exact Keeps.refl _ _
  · exact Keeps.refl _ _

theorem partialParity_keeps : ∀ s g p, Keeps 230913728 s (partialParity s g p) := by
  intro s g p
  unfold partialParity
  try dsimp -proj only
  split
  · exact Keeps.refl _ _
  · try dsimp -proj only
    split
    · exact Keeps.refl _ _
    · rename_i k h q t e
      obtain ⟨k', -, hk⟩ := List.exists_of_findSome?_eq_some e
      obtain ⟨r, hr, he⟩ := Option.map_eq_some_iff.1 hk
      cases he
      refine Keeps.via (sealWith_keeps _ _ _) rfl ?_
      refine Keeps.via (notePresent_keeps _ _ _) rfl ?_
      refine Keeps.via (setFch_keeps _ _) rfl ?_
      exact (allocPage_keeps _ _ _ _ _ _ _ _ hr).mono rfl

theorem flushClose_keeps : ∀ a0, Keeps 264470264 a0 (flushClose a0) := by
  intro a0
  unfold flushClose
  refine Keeps.put_key ?_ rfl _
  refine Keeps.put_dev ?_ rfl _
  refine Keeps.via (saveFlushNj_keeps _) rfl ?_
  refine Keeps.via (closeJournal_keeps _) rfl ?_
  refine Keeps.via (flushPages_keeps _ _ _) rfl ?_
  refine Keeps.foldl (fun x1 _ => ?_) ?_
  · refine Keeps.via (partialParity_keeps _ _ _) rfl ?_
    exact Keeps.refl _ _
  · exact Keeps.refl _ _

theorem flushRecord_keeps : ∀ a0 a1, Keeps 33687600 a0 (flushRecord a0 a1) := by
  intro a0 a1
  unfold flushRecord
  refine Keeps.via (setBoot_keeps _ _) rfl ?_
  refine Keeps.via (flushMirror_keeps _) rfl ?_
  refine Keeps.via (record_keeps _ _ _ _ _ _ _) rfl ?_
  exact Keeps.refl _ _

theorem flushAll_keeps : ∀ a0 a1, Keeps 264470268 a0 (flushAll a0 a1) := by
  intro a0 a1
  unfold flushAll
  refine Keeps.via (flushRecord_keeps _ _) rfl ?_
  refine Keeps.via (flushClose_keeps _) rfl ?_
  refine Keeps.via (flushStaging_keeps _) rfl ?_
  refine Keeps.via (fenceDirty_keeps _) rfl ?_
  exact Keeps.refl _ _

theorem finishEntry_keeps : ∀ a0 a1, Keeps 264470268 a0 (finishEntry a0 a1) := by
  intro a0 a1
  unfold finishEntry
  refine Keeps.via (toRom_keeps _ _ _) rfl ?_
  refine Keeps.via (setBoot_keeps _ _) rfl ?_
  refine Keeps.via (gateAll_keeps _) rfl ?_
  refine Keeps.via (setFtl_keeps _ _) rfl ?_
  refine Keeps.via (saveCounts_keeps _) rfl ?_
  refine Keeps.via (flushAll_keeps _ _) rfl ?_
  refine Keeps.via (gateStep4_keeps _) rfl ?_
  exact Keeps.refl _ _

theorem execEntryCutoff_keeps : ∀ a0, KeepsO 264470268 a0 (execEntryCutoff a0) := by
  intro a0
  unfold execEntryCutoff
  refine KeepsO.ite ?_ ?_
  · refine KeepsO.next ?_
    refine Keeps.via (finishEntry_keeps _ _) rfl ?_
    exact Keeps.refl _ _
  · refine KeepsO.next ?_
    exact Keeps.refl _ _

theorem execWarm_keeps : ∀ a0, KeepsO 256604892 a0 (execWarm a0) := by
  intro a0
  unfold execWarm
  refine KeepsO.next ?_
  refine Keeps.via (beginEntry_keeps _ _) rfl ?_
  exact Keeps.refl _ _

theorem recordStream_keeps : ∀ a0 a1, Keeps 33556528 a0 (recordStream a0 a1) := by
  intro a0 a1
  unfold recordStream
  refine Keeps.via (record_keeps _ _ _ _ _ _ _) rfl ?_
  exact Keeps.refl _ _

theorem streamPhase_keeps : ∀ a0 a1, Keeps 34606392 a1 (streamPhase a0 a1) := by
  intro a0 a1
  unfold streamPhase
  try dsimp -proj only
  split
  · split
    · refine Keeps.ite ?_ ?_
      · refine Keeps.via (applyStream_keeps _ _ _) rfl ?_
        exact Keeps.refl _ _
      · refine Keeps.via (recordStream_keeps _ _) rfl ?_
        exact Keeps.refl _ _
    · exact Keeps.refl _ _
  · refine Keeps.ite ?_ ?_
    · split
      · refine Keeps.ite ?_ ?_
        · refine Keeps.via (applyStream_keeps _ _ _) rfl ?_
          exact Keeps.refl _ _
        · refine Keeps.via (recordStream_keeps _ _) rfl ?_
          exact Keeps.refl _ _
      · exact Keeps.refl _ _
    · refine Keeps.ite ?_ ?_
      · refine Keeps.via (applyStream_keeps _ _ _) rfl ?_
        exact Keeps.refl _ _
      · split
        · refine Keeps.ite ?_ ?_
          · refine Keeps.via (applyStream_keeps _ _ _) rfl ?_
            refine Keeps.via (recordStream_keeps _ _) rfl ?_
            exact Keeps.refl _ _
          · refine Keeps.via (recordStream_keeps _ _) rfl ?_
            refine Keeps.via (recordStream_keeps _ _) rfl ?_
            exact Keeps.refl _ _
        · refine Keeps.via (recordStream_keeps _ _) rfl ?_
          exact Keeps.refl _ _

theorem rebuildMap_keeps : ∀ a0, Keeps 222525120 a0 (rebuildMap a0) := by
  intro a0
  unfold rebuildMap
  refine Keeps.via (beginCkpt_keeps _) rfl ?_
  refine Keeps.via (setFtl_keeps _ _) rfl ?_
  refine Keeps.foldl (fun x1 _ => ?_) ?_
  · refine Keeps.via (hold_keeps _ _) rfl ?_
    refine Keeps.via (mapSet_keeps _ _ _) rfl ?_
    exact Keeps.refl _ _
  · refine Keeps.via (setFtl_keeps _ _) rfl ?_
    exact Keeps.refl _ _

theorem formatMedia_keeps : ∀ a0 a1, Keeps 16777216 a0 (formatMedia a0 a1) := by
  intro a0 a1
  unfold formatMedia
  refine Keeps.via (setFtl_keeps _ _) rfl ?_
  refine Keeps.via (setFtl_keeps _ _) rfl ?_
  exact Keeps.refl _ _

theorem recoverPhase_keeps : ∀ a0 a1 a2 a3, Keeps 222525120 a3 (recoverPhase a0 a1 a2 a3) := by
  intro a0 a1 a2 a3
  unfold recoverPhase
  refine Keeps.ite ?_ ?_
  · refine Keeps.via (setFtl_keeps _ _) rfl ?_
    split
    · refine Keeps.via (setBoot_keeps _ _) rfl ?_
      refine Keeps.via (setFtl_keeps _ _) rfl ?_
      refine Keeps.via (setFtl_keeps _ _) rfl ?_
      refine Keeps.ite ?_ ?_
      · refine Keeps.via (setFtl_keeps _ _) rfl ?_
        exact Keeps.refl _ _
      · exact Keeps.refl _ _
    · refine Keeps.via (formatMedia_keeps _ _) rfl ?_
      refine Keeps.via (setFtl_keeps _ _) rfl ?_
      refine Keeps.ite ?_ ?_
      · refine Keeps.via (setFtl_keeps _ _) rfl ?_
        exact Keeps.refl _ _
      · exact Keeps.refl _ _
    · refine Keeps.via (setFtl_keeps _ _) rfl ?_
      refine Keeps.via (setFtl_keeps _ _) rfl ?_
      refine Keeps.ite ?_ ?_
      · refine Keeps.via (setFtl_keeps _ _) rfl ?_
        exact Keeps.refl _ _
      · exact Keeps.refl _ _
    · refine Keeps.foldl (fun x1 _ => ?_) ?_
      · refine Keeps.ite ?_ ?_
        · refine Keeps.via (markDirty_keeps _ _) rfl ?_
          exact Keeps.refl _ _
        · exact Keeps.refl _ _
      · refine Keeps.via (setFtl_keeps _ _) rfl ?_
        refine Keeps.via (setFtl_keeps _ _) rfl ?_
        refine Keeps.ite ?_ ?_
        · refine Keeps.via (setFtl_keeps _ _) rfl ?_
          exact Keeps.refl _ _
        · exact Keeps.refl _ _
    · refine Keeps.via (rebuildMap_keeps _) rfl ?_
      refine Keeps.via (setFtl_keeps _ _) rfl ?_
      refine Keeps.via (setFtl_keeps _ _) rfl ?_
      refine Keeps.ite ?_ ?_
      · refine Keeps.via (setFtl_keeps _ _) rfl ?_
        exact Keeps.refl _ _
      · exact Keeps.refl _ _
  · split
    · refine Keeps.via (setBoot_keeps _ _) rfl ?_
      refine Keeps.via (setFtl_keeps _ _) rfl ?_
      refine Keeps.via (setFtl_keeps _ _) rfl ?_
      refine Keeps.ite ?_ ?_
      · refine Keeps.via (setFtl_keeps _ _) rfl ?_
        exact Keeps.refl _ _
      · exact Keeps.refl _ _
    · refine Keeps.via (formatMedia_keeps _ _) rfl ?_
      refine Keeps.via (setFtl_keeps _ _) rfl ?_
      refine Keeps.ite ?_ ?_
      · refine Keeps.via (setFtl_keeps _ _) rfl ?_
        exact Keeps.refl _ _
      · exact Keeps.refl _ _
    · refine Keeps.via (setFtl_keeps _ _) rfl ?_
      refine Keeps.via (setFtl_keeps _ _) rfl ?_
      refine Keeps.ite ?_ ?_
      · refine Keeps.via (setFtl_keeps _ _) rfl ?_
        exact Keeps.refl _ _
      · exact Keeps.refl _ _
    · refine Keeps.foldl (fun x2 _ => ?_) ?_
      · refine Keeps.ite ?_ ?_
        · refine Keeps.via (markDirty_keeps _ _) rfl ?_
          exact Keeps.refl _ _
        · exact Keeps.refl _ _
      · refine Keeps.via (setFtl_keeps _ _) rfl ?_
        refine Keeps.via (setFtl_keeps _ _) rfl ?_
        refine Keeps.ite ?_ ?_
        · refine Keeps.via (setFtl_keeps _ _) rfl ?_
          exact Keeps.refl _ _
        · exact Keeps.refl _ _
    · refine Keeps.via (rebuildMap_keeps _) rfl ?_
      refine Keeps.via (setFtl_keeps _ _) rfl ?_
      refine Keeps.via (setFtl_keeps _ _) rfl ?_
      refine Keeps.ite ?_ ?_
      · refine Keeps.via (setFtl_keeps _ _) rfl ?_
        exact Keeps.refl _ _
      · exact Keeps.refl _ _

theorem restoreBanks_keeps : ∀ a0 a1, Keeps 4194304 a0 (restoreBanks a0 a1) := by
  intro a0 a1
  unfold restoreBanks
  refine Keeps.foldl (fun x1 _ => ?_) ?_
  · refine Keeps.ite ?_ ?_
    · refine Keeps.put_asu ?_ rfl _
      exact Keeps.refl _ _
    · exact Keeps.refl _ _
  · exact Keeps.refl _ _

theorem restoreStates_keeps : ∀ a0 a1, Keeps 33556536 a0 (restoreStates a0 a1) := by
  intro a0 a1
  unfold restoreStates
  refine Keeps.foldl (fun x1 _ => ?_) ?_
  · refine Keeps.ite ?_ ?_
    · refine Keeps.via (record_keeps _ _ _ _ _ _ _) rfl ?_
      refine Keeps.via (startUnit_keeps _ _ _) rfl ?_
      exact Keeps.refl _ _
    · refine Keeps.via (startUnit_keeps _ _ _) rfl ?_
      exact Keeps.refl _ _
  · exact Keeps.refl _ _

theorem restoreSettings_keeps : ∀ a0, Keeps 42207280 a0 (restoreSettings a0) := by
  intro a0
  unfold restoreSettings
  split
  · exact Keeps.refl _ _
  · refine Keeps.ite ?_ ?_
    · refine Keeps.via (recordRom_keeps _ _ _ _ _ _) rfl ?_
      refine Keeps.via (setUpd_keeps _ _) rfl ?_
      exact Keeps.refl _ _
    · refine Keeps.foldl (fun x1 _ => ?_) ?_
      · refine Keeps.via (rateChange_keeps _ _) rfl ?_
        exact Keeps.refl _ _
      · refine Keeps.foldl (fun x2 _ => ?_) ?_
        · refine Keeps.ite ?_ ?_
          · refine Keeps.via (setChan_keeps _ _ _) rfl ?_
            exact Keeps.refl _ _
          · exact Keeps.refl _ _
        · refine Keeps.put_regs ?_ rfl _
          exact Keeps.refl _ _

theorem startSets_keeps : ∀ a0 a1, Keeps 33687600 a1 (startSets a0 a1) := by
  intro a0 a1
  unfold startSets
  refine Keeps.foldl (fun x1 _ => ?_) ?_
  · split
    · exact Keeps.refl _ _
    · refine Keeps.ite ?_ ?_
      · refine Keeps.via (recordRefused_keeps _ _ _) rfl ?_
        refine Keeps.via (setGroup_keeps _ _ _) rfl ?_
        exact Keeps.refl _ _
      · refine Keeps.ite ?_ ?_
        · refine Keeps.via (saveSettings_keeps _) rfl ?_
          refine Keeps.put_regs ?_ rfl _
          exact Keeps.refl _ _
        · refine Keeps.put_regs ?_ rfl _
          exact Keeps.refl _ _
  · exact Keeps.refl _ _

theorem reduceCache_keeps : ∀ a0, Keeps 16777232 a0 (reduceCache a0) := by
  intro a0
  unfold reduceCache
  refine Keeps.via (setFtl_keeps _ _) rfl ?_
  refine Keeps.via (setEff_keeps _ _ _ _ _) rfl ?_
  refine Keeps.via (setEff_keeps _ _ _ _ _) rfl ?_
  exact Keeps.refl _ _

theorem grantWindows_keeps : ∀ a0 a1 a2 a3, Keeps 16 a0 (grantWindows a0 a1 a2 a3) := by
  intro a0 a1 a2 a3
  unfold grantWindows
  refine Keeps.foldl (fun x1 _ => ?_) ?_
  · refine Keeps.via (setEff_keeps _ _ _ _ _) rfl ?_
    exact Keeps.refl _ _
  · refine Keeps.via (setEff_keeps _ _ _ _ _) rfl ?_
    refine Keeps.via (setEff_keeps _ _ _ _ _) rfl ?_
    refine Keeps.via (setEff_keeps _ _ _ _ _) rfl ?_
    refine Keeps.via (setEff_keeps _ _ _ _ _) rfl ?_
    exact Keeps.refl _ _

theorem restoreWindows_keeps : ∀ a0 a1, Keeps 16 a1 (restoreWindows a0 a1) := by
  intro a0 a1
  unfold restoreWindows
  refine Keeps.foldl (fun x1 _ => ?_) ?_
  · refine Keeps.ite ?_ ?_
    · exact Keeps.refl _ _
    · refine Keeps.via (grantWindows_keeps _ _ _ _) rfl ?_
      exact Keeps.refl _ _
  · exact Keeps.refl _ _

theorem restoreKeys_keeps : ∀ a0, Keeps 4096 a0 (restoreKeys a0) := by
  intro a0
  unfold restoreKeys
  refine Keeps.ite ?_ ?_
  · exact Keeps.refl _ _
  · refine Keeps.foldl (fun x1 _ => ?_) ?_
    · refine Keeps.ite ?_ ?_
      · exact Keeps.refl _ _
      · refine Keeps.via (setSlot_keeps _ _ _) rfl ?_
        exact Keeps.refl _ _
    · exact Keeps.refl _ _

theorem restoreGrants_keeps : ∀ a0 a1, Keeps 8 a1 (restoreGrants a0 a1) := by
  intro a0 a1
  unfold restoreGrants
  refine Keeps.foldl (fun x1 _ => ?_) ?_
  · refine Keeps.ite ?_ ?_
    · refine Keeps.via (startUnit_keeps _ _ _) rfl ?_
      exact Keeps.refl _ _
    · exact Keeps.refl _ _
  · exact Keeps.refl _ _

theorem startCores_keeps : ∀ a0 a1, Keeps 16384 a0 (startCores a0 a1) := by
  intro a0 a1
  unfold startCores
  refine Keeps.put_cores ?_ rfl _
  exact Keeps.refl _ _

theorem trainFlash_keeps : ∀ a0 a1 a2 a3 a4, Keeps 42076208 a3 (trainFlash a0 a1 a2 a3 a4) := by
  intro a0 a1 a2 a3 a4
  unfold trainFlash
  try dsimp -proj only
  split
  · refine Keeps.via (setChan_keeps _ _ _) rfl ?_
    exact Keeps.refl _ _
  · refine Keeps.ite ?_ ?_
    · refine Keeps.via (setChan_keeps _ _ _) rfl ?_
      exact Keeps.refl _ _
    · refine Keeps.ite ?_ ?_
      · refine Keeps.via (record_keeps _ _ _ _ _ _ _) rfl ?_
        refine Keeps.ite ?_ ?_
        · refine Keeps.via (setChan_keeps _ _ _) rfl ?_
          exact Keeps.refl _ _
        · refine Keeps.via (setFch_keeps _ _) rfl ?_
          refine Keeps.via (setChan_keeps _ _ _) rfl ?_
          exact Keeps.refl _ _
      · refine Keeps.ite ?_ ?_
        · refine Keeps.via (setLive_keeps _ _ _ _ _) rfl ?_
          refine Keeps.via (setBoot_keeps _ _) rfl ?_
          refine Keeps.via (setChan_keeps _ _ _) rfl ?_
          exact Keeps.refl _ _
        · refine Keeps.ite ?_ ?_
          · refine Keeps.via (setChan_keeps _ _ _) rfl ?_
            exact Keeps.refl _ _
          · refine Keeps.ite ?_ ?_
            · refine Keeps.via (record_keeps _ _ _ _ _ _ _) rfl ?_
              refine Keeps.ite ?_ ?_
              · refine Keeps.via (setChan_keeps _ _ _) rfl ?_
                refine Keeps.foldl (fun x1 _ => ?_) ?_
                · refine Keeps.ite ?_ ?_
                  · exact Keeps.refl _ _
                  · refine Keeps.via (setFch_keeps _ _) rfl ?_
                    exact Keeps.refl _ _
                · refine Keeps.via (setChan_keeps _ _ _) rfl ?_
                  exact Keeps.refl _ _
              · refine Keeps.via (setFch_keeps _ _) rfl ?_
                refine Keeps.via (setChan_keeps _ _ _) rfl ?_
                refine Keeps.foldl (fun x2 _ => ?_) ?_
                · refine Keeps.ite ?_ ?_
                  · exact Keeps.refl _ _
                  · refine Keeps.via (setFch_keeps _ _) rfl ?_
                    exact Keeps.refl _ _
                · refine Keeps.via (setChan_keeps _ _ _) rfl ?_
                  exact Keeps.refl _ _
            · split
              · refine Keeps.via (record_keeps _ _ _ _ _ _ _) rfl ?_
                refine Keeps.ite ?_ ?_
                · refine Keeps.via (setChan_keeps _ _ _) rfl ?_
                  refine Keeps.via (bump_keeps _ _ _ _ _) rfl ?_
                  refine Keeps.foldl (fun x3 _ => ?_) ?_
                  · refine Keeps.ite ?_ ?_
                    · exact Keeps.refl _ _
                    · refine Keeps.via (setFch_keeps _ _) rfl ?_
                      exact Keeps.refl _ _
                  · refine Keeps.via (setChan_keeps _ _ _) rfl ?_
                    exact Keeps.refl _ _
                · refine Keeps.via (setFch_keeps _ _) rfl ?_
                  refine Keeps.via (setChan_keeps _ _ _) rfl ?_
                  refine Keeps.via (bump_keeps _ _ _ _ _) rfl ?_
                  refine Keeps.foldl (fun x4 _ => ?_) ?_
                  · refine Keeps.ite ?_ ?_
                    · exact Keeps.refl _ _
                    · refine Keeps.via (setFch_keeps _ _) rfl ?_
                      exact Keeps.refl _ _
                  · refine Keeps.via (setChan_keeps _ _ _) rfl ?_
                    exact Keeps.refl _ _
              · refine Keeps.ite ?_ ?_
                · refine Keeps.via (record_keeps _ _ _ _ _ _ _) rfl ?_
                  refine Keeps.via (setLive_keeps _ _ _ _ _) rfl ?_
                  refine Keeps.via (bump_keeps _ _ _ _ _) rfl ?_
                  refine Keeps.via (setChan_keeps _ _ _) rfl ?_
                  refine Keeps.foldl (fun x5 _ => ?_) ?_
                  · refine Keeps.ite ?_ ?_
                    · exact Keeps.refl _ _
                    · refine Keeps.via (setFch_keeps _ _) rfl ?_
                      exact Keeps.refl _ _
                  · refine Keeps.via (setChan_keeps _ _ _) rfl ?_
                    exact Keeps.refl _ _
                · refine Keeps.via (setLive_keeps _ _ _ _ _) rfl ?_
                  refine Keeps.via (bump_keeps _ _ _ _ _) rfl ?_
                  refine Keeps.via (setChan_keeps _ _ _) rfl ?_
                  refine Keeps.foldl (fun x6 _ => ?_) ?_
                  · refine Keeps.ite ?_ ?_
                    · exact Keeps.refl _ _
                    · refine Keeps.via (setFch_keeps _ _) rfl ?_
                      exact Keeps.refl _ _
                  · refine Keeps.via (setChan_keeps _ _ _) rfl ?_
                    exact Keeps.refl _ _

theorem trainDram_keeps : ∀ a0 a1 a2 a3 a4, Keeps 33687600 a3 (trainDram a0 a1 a2 a3 a4) := by
  intro a0 a1 a2 a3 a4
  unfold trainDram
  refine Keeps.ite ?_ ?_
  · refine Keeps.via (setLive_keeps _ _ _ _ _) rfl ?_
    refine Keeps.via (setLive_keeps _ _ _ _ _) rfl ?_
    refine Keeps.via (setBoot_keeps _ _) rfl ?_
    refine Keeps.via (setDram_keeps _ _ _) rfl ?_
    exact Keeps.refl _ _
  · refine Keeps.ite ?_ ?_
    · refine Keeps.via (setDram_keeps _ _ _) rfl ?_
      exact Keeps.refl _ _
    · refine Keeps.ite ?_ ?_
      · refine Keeps.via (dramHealth_keeps _ _ _) rfl ?_
        refine Keeps.via (setDram_keeps _ _ _) rfl ?_
        exact Keeps.refl _ _
      · try dsimp -proj only
        split
        · refine Keeps.via (dramHealth_keeps _ _ _) rfl ?_
          refine Keeps.via (setDram_keeps _ _ _) rfl ?_
          refine Keeps.via (bump_keeps _ _ _ _ _) rfl ?_
          refine Keeps.via (setLive_keeps _ _ _ _ _) rfl ?_
          refine Keeps.via (setDram_keeps _ _ _) rfl ?_
          exact Keeps.refl _ _
        · refine Keeps.ite ?_ ?_
          · refine Keeps.via (dramHealth_keeps _ _ _) rfl ?_
            refine Keeps.via (setLive_keeps _ _ _ _ _) rfl ?_
            refine Keeps.via (bump_keeps _ _ _ _ _) rfl ?_
            refine Keeps.via (setDram_keeps _ _ _) rfl ?_
            refine Keeps.via (setLive_keeps _ _ _ _ _) rfl ?_
            refine Keeps.via (setDram_keeps _ _ _) rfl ?_
            exact Keeps.refl _ _
          · refine Keeps.via (setLive_keeps _ _ _ _ _) rfl ?_
            refine Keeps.via (bump_keeps _ _ _ _ _) rfl ?_
            refine Keeps.via (setDram_keeps _ _ _) rfl ?_
            refine Keeps.via (setLive_keeps _ _ _ _ _) rfl ?_
            refine Keeps.via (setDram_keeps _ _ _) rfl ?_
            exact Keeps.refl _ _

theorem trainPhase_keeps : ∀ a0 a1 a2 a3, Keeps 197265456 a3 (trainPhase a0 a1 a2 a3) := by
  intro a0 a1 a2 a3
  unfold trainPhase
  refine Keeps.put_asu ?_ rfl _
  refine Keeps.via (setJct_keeps _ _) rfl ?_
  refine Keeps.via (noteOffline_keeps _) rfl ?_
  refine Keeps.foldl (fun x1 _ => ?_) ?_
  · refine Keeps.via (trainFlash_keeps _ _ _ _ _) rfl ?_
    exact Keeps.refl _ _
  · refine Keeps.foldl (fun x2 _ => ?_) ?_
    · refine Keeps.via (trainDram_keeps _ _ _ _ _) rfl ?_
      exact Keeps.refl _ _
    · exact Keeps.refl _ _

theorem startFens_keeps : ∀ a0 a1, Keeps 512 a0 (startFens a0 a1) := by
  intro a0 a1
  unfold startFens
  refine Keeps.put_fab ?_ rfl _
  exact Keeps.refl _ _

theorem haltStart_keeps : ∀ a0 a1, Keeps 131072 a0 (haltStart a0 a1) := by
  intro a0 a1
  unfold haltStart
  refine Keeps.via (setBoot_keeps _ _) rfl ?_
  exact Keeps.refl _ _

theorem romPhase_keeps : ∀ a0 a1 a2, Keeps 34606128 a0 (romPhase a0 a1 a2) := by
  intro a0 a1 a2
  unfold romPhase
  refine Keeps.via (measSecurity_keeps _) rfl ?_
  refine Keeps.via (extendMeas_keeps _ _ _) rfl ?_
  refine Keeps.via (setTru_keeps _ _) rfl ?_
  refine Keeps.ite ?_ ?_
  · refine Keeps.via (setHealth_keeps _ _ _) rfl ?_
    refine Keeps.ite ?_ ?_
    · exact Keeps.refl _ _
    · refine Keeps.ite ?_ ?_
      · refine Keeps.via (enterRamp_keeps _) rfl ?_
        exact Keeps.refl _ _
      · refine Keeps.via (setPwr_keeps _ _) rfl ?_
        exact Keeps.refl _ _
  · refine Keeps.via (setPwr_keeps _ _) rfl ?_
    refine Keeps.via (setHealth_keeps _ _ _) rfl ?_
    refine Keeps.ite ?_ ?_
    · exact Keeps.refl _ _
    · refine Keeps.ite ?_ ?_
      · refine Keeps.via (enterRamp_keeps _) rfl ?_
        exact Keeps.refl _ _
      · refine Keeps.via (setPwr_keeps _ _) rfl ?_
        exact Keeps.refl _ _

theorem execPowerOn_keeps : ∀ a0, KeepsO 132096 a0 (execPowerOn a0) := by
  intro a0
  unfold execPowerOn
  refine KeepsO.ite ?_ ?_
  · refine KeepsO.next ?_
    exact Keeps.refl _ _
  · refine KeepsO.ite ?_ ?_
    · refine KeepsO.next ?_
      refine Keeps.via (setBoot_keeps _ _) rfl ?_
      refine Keeps.via (setPwr_keeps _ _) rfl ?_
      exact Keeps.refl _ _
    · refine KeepsO.next ?_
      exact Keeps.refl _ _

theorem execMeasSelect_keeps : ∀ a0 a1, KeepsO 1048592 a1 (execMeasSelect a0 a1) := by
  intro a0 a1
  unfold execMeasSelect
  refine KeepsO.next ?_
  refine Keeps.via (measSelect_keeps _ _) rfl ?_
  exact Keeps.refl _ _

theorem respond_keeps : ∀ a0 a1 a2 a3 a4, Keeps 1048576 a0 (respond a0 a1 a2 a3 a4) := by
  intro a0 a1 a2 a3 a4
  unfold respond
  refine Keeps.via (setTru_keeps _ _) rfl ?_
  exact Keeps.refl _ _

theorem respondVendor_keeps : ∀ a0 a1 a2 a3 a4, Keeps 1048576 a0 (respondVendor a0 a1 a2 a3 a4) := by
  intro a0 a1 a2 a3 a4
  unfold respondVendor
  refine Keeps.via (respond_keeps _ _ _ _ _) rfl ?_
  exact Keeps.refl _ _

theorem respondErr_keeps : ∀ a0 a1 a2, Keeps 1048576 a0 (respondErr a0 a1 a2) := by
  intro a0 a1 a2
  unfold respondErr
  refine Keeps.via (setTru_keeps _ _) rfl ?_
  exact Keeps.refl _ _

theorem execTdispMessage_keeps : ∀ a0 a1 a2 a3 a4, KeepsO 1048576 a4 (execTdispMessage a0 a1 a2 a3 a4) := by
  intro a0 a1 a2 a3 a4
  unfold execTdispMessage
  unfold onFn
  try dsimp -proj only
  refine KeepsO.next ?_
  refine Keeps.ite ?_ ?_
  · refine Keeps.via (respondErr_keeps _ _ _) rfl ?_
    exact Keeps.refl _ _
  · refine Keeps.ite ?_ ?_
    · refine Keeps.via (respondVendor_keeps _ _ _ _ _) rfl ?_
      exact Keeps.refl _ _
    · split
      · try dsimp -proj only
        refine Keeps.via (respondVendor_keeps _ _ _ _ _) rfl ?_
        exact Keeps.refl _ _
      · try dsimp -proj only
        refine Keeps.via (respondVendor_keeps _ _ _ _ _) rfl ?_
        exact Keeps.refl _ _
      · try dsimp -proj only
        refine Keeps.ite ?_ ?_
        · refine Keeps.via (respondVendor_keeps _ _ _ _ _) rfl ?_
          exact Keeps.refl _ _
        · refine Keeps.via (respondVendor_keeps _ _ _ _ _) rfl ?_
          refine Keeps.via (setTru_keeps _ _) rfl ?_
          refine Keeps.via (setTru_keeps _ _) rfl ?_
          exact Keeps.refl _ _
      · try dsimp -proj only
        refine Keeps.ite ?_ ?_
        · refine Keeps.via (respondVendor_keeps _ _ _ _ _) rfl ?_
          exact Keeps.refl _ _
        · refine Keeps.via (respondVendor_keeps _ _ _ _ _) rfl ?_
          exact Keeps.refl _ _
      · try dsimp -proj only
        refine Keeps.via (respondVendor_keeps _ _ _ _ _) rfl ?_
        exact Keeps.refl _ _
      · try dsimp -proj only
        refine Keeps.ite ?_ ?_
        · refine Keeps.via (respondVendor_keeps _ _ _ _ _) rfl ?_
          refine Keeps.via (setTru_keeps _ _) rfl ?_
          exact Keeps.refl _ _
        · refine Keeps.via (respondVendor_keeps _ _ _ _ _) rfl ?_
          exact Keeps.refl _ _
      · try dsimp -proj only
        refine Keeps.via (respondVendor_keeps _ _ _ _ _) rfl ?_
        refine Keeps.via (setTru_keeps _ _) rfl ?_
        refine Keeps.via (setTru_keeps _ _) rfl ?_
        exact Keeps.refl _ _

theorem judgeIde_keeps : ∀ a0 a1, Keeps 67108864 a0 (judgeIde a0 a1) := by
  intro a0 a1
  unfold judgeIde
  refine Keeps.via (setHif_keeps _ _) rfl ?_
  exact Keeps.refl _ _

theorem execIdeIntegrityFailure_keeps : ∀ a0 a1 a2, KeepsO 101713968 a2 (execIdeIntegrityFailure a0 a1 a2) := by
  intro a0 a1 a2
  unfold execIdeIntegrityFailure
  refine KeepsO.ite ?_ ?_
  · refine KeepsO.next ?_
    exact Keeps.refl _ _
  · refine KeepsO.next ?_
    refine Keeps.via (record_keeps _ _ _ _ _ _ _) rfl ?_
    refine Keeps.via (judgeIde_keeps _ _) rfl ?_
    refine Keeps.via (setTru_keeps _ _) rfl ?_
    exact Keeps.refl _ _

theorem execIdeKm_keeps : ∀ a0 a1 a2 a3 a4, KeepsO 68157440 a4 (execIdeKm a0 a1 a2 a3 a4) := by
  intro a0 a1 a2 a3 a4
  unfold execIdeKm
  unfold onFn
  try dsimp -proj only
  refine KeepsO.next ?_
  refine Keeps.ite ?_ ?_
  · refine Keeps.via (respondErr_keeps _ _ _) rfl ?_
    exact Keeps.refl _ _
  · refine Keeps.ite ?_ ?_
    · refine Keeps.via (respondVendor_keeps _ _ _ _ _) rfl ?_
      exact Keeps.refl _ _
    · refine Keeps.ite ?_ ?_
      · refine Keeps.via (respondVendor_keeps _ _ _ _ _) rfl ?_
        exact Keeps.refl _ _
      · refine Keeps.via (respondVendor_keeps _ _ _ _ _) rfl ?_
        refine Keeps.via (judgeIde_keeps _ _) rfl ?_
        refine Keeps.via (setTru_keeps _ _) rfl ?_
        exact Keeps.refl _ _

theorem execDecommission_keeps : ∀ a0 a1 a2, KeepsO 1048576 a2 (execDecommission a0 a1 a2) := by
  intro a0 a1 a2
  unfold execDecommission
  unfold attested
  try dsimp -proj only
  unfold onFn
  try dsimp -proj only
  refine KeepsO.next ?_
  refine Keeps.ite ?_ ?_
  · refine Keeps.via (respondErr_keeps _ _ _) rfl ?_
    exact Keeps.refl _ _
  · refine Keeps.ite ?_ ?_
    · refine Keeps.via (respondVendor_keeps _ _ _ _ _) rfl ?_
      refine Keeps.via (measSecurity_keeps _) rfl ?_
      refine Keeps.via (setTru_keeps _ _) rfl ?_
      exact Keeps.refl _ _
    · refine Keeps.via (respondVendor_keeps _ _ _ _ _) rfl ?_
      exact Keeps.refl _ _

theorem execTestClose_keeps : ∀ a0 a1 a2, KeepsO 35129392 a2 (execTestClose a0 a1 a2) := by
  intro a0 a1 a2
  unfold execTestClose
  unfold attested
  try dsimp -proj only
  unfold onFn
  try dsimp -proj only
  refine KeepsO.next ?_
  refine Keeps.ite ?_ ?_
  · refine Keeps.via (respondErr_keeps _ _ _) rfl ?_
    exact Keeps.refl _ _
  · refine Keeps.ite ?_ ?_
    · refine Keeps.via (respondVendor_keeps _ _ _ _ _) rfl ?_
      refine Keeps.via (closeTest_keeps _) rfl ?_
      exact Keeps.refl _ _
    · refine Keeps.via (respondVendor_keeps _ _ _ _ _) rfl ?_
      exact Keeps.refl _ _

theorem execTestOpen_keeps : ∀ a0 a1 a2, KeepsO 34605104 a2 (execTestOpen a0 a1 a2) := by
  intro a0 a1 a2
  unfold execTestOpen
  unfold attested
  try dsimp -proj only
  unfold onFn
  try dsimp -proj only
  refine KeepsO.next ?_
  refine Keeps.ite ?_ ?_
  · refine Keeps.via (respondErr_keeps _ _ _) rfl ?_
    exact Keeps.refl _ _
  · refine Keeps.ite ?_ ?_
    · refine Keeps.ite ?_ ?_
      · refine Keeps.via (respondVendor_keeps _ _ _ _ _) rfl ?_
        exact Keeps.refl _ _
      · refine Keeps.via (respondVendor_keeps _ _ _ _ _) rfl ?_
        refine Keeps.via (record_keeps _ _ _ _ _ _ _) rfl ?_
        refine Keeps.via (measSecurity_keeps _) rfl ?_
        refine Keeps.via (setTru_keeps _ _) rfl ?_
        exact Keeps.refl _ _
    · refine Keeps.via (respondVendor_keeps _ _ _ _ _) rfl ?_
      exact Keeps.refl _ _

theorem execRelease_keeps : ∀ a0 a1 a2, KeepsO 1048580 a2 (execRelease a0 a1 a2) := by
  intro a0 a1 a2
  unfold execRelease
  unfold attested
  try dsimp -proj only
  unfold onFn
  try dsimp -proj only
  refine KeepsO.next ?_
  refine Keeps.ite ?_ ?_
  · refine Keeps.via (respondErr_keeps _ _ _) rfl ?_
    exact Keeps.refl _ _
  · refine Keeps.ite ?_ ?_
    · refine Keeps.ite ?_ ?_
      · refine Keeps.via (respondVendor_keeps _ _ _ _ _) rfl ?_
        refine Keeps.via (drawn_keeps _) rfl ?_
        exact Keeps.refl _ _
      · refine Keeps.via (respondVendor_keeps _ _ _ _ _) rfl ?_
        refine Keeps.via (setTru_keeps _ _) rfl ?_
        exact Keeps.refl _ _
    · refine Keeps.via (respondVendor_keeps _ _ _ _ _) rfl ?_
      exact Keeps.refl _ _

theorem execRegUpdate_keeps : ∀ a0 a1 a2 a3 a4 a5 a6 a7, KeepsO 1048592 a7 (execRegUpdate a0 a1 a2 a3 a4 a5 a6 a7) := by
  intro a0 a1 a2 a3 a4 a5 a6 a7
  unfold execRegUpdate
  unfold onFn
  try dsimp -proj only
  refine KeepsO.next ?_
  refine Keeps.ite ?_ ?_
  · refine Keeps.via (respondErr_keeps _ _ _) rfl ?_
    exact Keeps.refl _ _
  · try dsimp -proj only
    split
    · try dsimp -proj only
      refine Keeps.via (respondVendor_keeps _ _ _ _ _) rfl ?_
      exact Keeps.refl _ _
    · try dsimp -proj only
      refine Keeps.ite ?_ ?_
      · refine Keeps.via (respondVendor_keeps _ _ _ _ _) rfl ?_
        exact Keeps.refl _ _
      · refine Keeps.ite ?_ ?_
        · refine Keeps.via (respondVendor_keeps _ _ _ _ _) rfl ?_
          exact Keeps.refl _ _
        · refine Keeps.via (respondVendor_keeps _ _ _ _ _) rfl ?_
          refine Keeps.via (bump_keeps _ _ _ _ _) rfl ?_
          refine Keeps.via (setTru_keeps _ _) rfl ?_
          exact Keeps.refl _ _

theorem modSess_keeps : ∀ a0 a1 a2, Keeps 1048576 a0 (modSess a0 a1 a2) := by
  intro a0 a1 a2
  unfold modSess
  refine Keeps.via (setTru_keeps _ _) rfl ?_
  exact Keeps.refl _ _

theorem execBind_keeps : ∀ a0 a1 a2 a3, KeepsO 1048592 a3 (execBind a0 a1 a2 a3) := by
  intro a0 a1 a2 a3
  unfold execBind
  unfold onFn
  try dsimp -proj only
  refine KeepsO.next ?_
  refine Keeps.ite ?_ ?_
  · refine Keeps.via (respondErr_keeps _ _ _) rfl ?_
    exact Keeps.refl _ _
  · split
    · try dsimp -proj only
      refine Keeps.via (respondVendor_keeps _ _ _ _ _) rfl ?_
      exact Keeps.refl _ _
    · try dsimp -proj only
      refine Keeps.ite ?_ ?_
      · refine Keeps.via (respondVendor_keeps _ _ _ _ _) rfl ?_
        refine Keeps.via (bump_keeps _ _ _ _ _) rfl ?_
        exact Keeps.refl _ _
      · refine Keeps.ite ?_ ?_
        · refine Keeps.via (respondVendor_keeps _ _ _ _ _) rfl ?_
          refine Keeps.via (bump_keeps _ _ _ _ _) rfl ?_
          exact Keeps.refl _ _
        · refine Keeps.via (respondVendor_keeps _ _ _ _ _) rfl ?_
          refine Keeps.via (modSess_keeps _ _ _) rfl ?_
          exact Keeps.refl _ _

theorem execPqQuote_keeps : ∀ a0 a1 a2 a3, KeepsO 1048576 a3 (execPqQuote a0 a1 a2 a3) := by
  intro a0 a1 a2 a3
  unfold execPqQuote
  unfold onFn
  try dsimp -proj only
  refine KeepsO.next ?_
  refine Keeps.ite ?_ ?_
  · refine Keeps.via (respondErr_keeps _ _ _) rfl ?_
    exact Keeps.refl _ _
  · unfold signing
    try dsimp -proj only
    refine Keeps.ite ?_ ?_
    · refine Keeps.via (respondVendor_keeps _ _ _ _ _) rfl ?_
      exact Keeps.refl _ _
    · refine Keeps.via (respondErr_keeps _ _ _) rfl ?_
      exact Keeps.refl _ _

theorem execPqChain_keeps : ∀ a0 a1 a2, KeepsO 1048576 a2 (execPqChain a0 a1 a2) := by
  intro a0 a1 a2
  unfold execPqChain
  unfold onFn
  try dsimp -proj only
  refine KeepsO.next ?_
  refine Keeps.ite ?_ ?_
  · refine Keeps.via (respondErr_keeps _ _ _) rfl ?_
    exact Keeps.refl _ _
  · refine Keeps.via (respondVendor_keeps _ _ _ _ _) rfl ?_
    exact Keeps.refl _ _

theorem execUnsupportedRequest_keeps : ∀ a0 a1, KeepsO 1048576 a1 (execUnsupportedRequest a0 a1) := by
  intro a0 a1
  unfold execUnsupportedRequest
  unfold onFn
  try dsimp -proj only
  refine KeepsO.next ?_
  refine Keeps.ite ?_ ?_
  · refine Keeps.via (respondErr_keeps _ _ _) rfl ?_
    exact Keeps.refl _ _
  · refine Keeps.via (respondErr_keeps _ _ _) rfl ?_
    exact Keeps.refl _ _

theorem execEndSession_keeps : ∀ a0 a1 a2, KeepsO 35129392 a2 (execEndSession a0 a1 a2) := by
  intro a0 a1 a2
  unfold execEndSession
  unfold inSession
  try dsimp -proj only
  unfold onFn
  try dsimp -proj only
  refine KeepsO.next ?_
  refine Keeps.ite ?_ ?_
  · refine Keeps.via (respondErr_keeps _ _ _) rfl ?_
    exact Keeps.refl _ _
  · refine Keeps.ite ?_ ?_
    · refine Keeps.via (respond_keeps _ _ _ _ _) rfl ?_
      refine Keeps.via (endSess_keeps _ _) rfl ?_
      exact Keeps.refl _ _
    · refine Keeps.via (respondErr_keeps _ _ _) rfl ?_
      exact Keeps.refl _ _

theorem execKeyUpdate_keeps : ∀ a0 a1 a2, KeepsO 1048576 a2 (execKeyUpdate a0 a1 a2) := by
  intro a0 a1 a2
  unfold execKeyUpdate
  unfold inSession
  try dsimp -proj only
  unfold onFn
  try dsimp -proj only
  refine KeepsO.next ?_
  refine Keeps.ite ?_ ?_
  · refine Keeps.via (respondErr_keeps _ _ _) rfl ?_
    exact Keeps.refl _ _
  · refine Keeps.ite ?_ ?_
    · refine Keeps.via (respond_keeps _ _ _ _ _) rfl ?_
      exact Keeps.refl _ _
    · refine Keeps.via (respondErr_keeps _ _ _) rfl ?_
      exact Keeps.refl _ _

theorem execSpdmHeartbeat_keeps : ∀ a0 a1 a2, KeepsO 1048576 a2 (execSpdmHeartbeat a0 a1 a2) := by
  intro a0 a1 a2
  unfold execSpdmHeartbeat
  unfold inSession
  try dsimp -proj only
  unfold onFn
  try dsimp -proj only
  refine KeepsO.next ?_
  refine Keeps.ite ?_ ?_
  · refine Keeps.via (respondErr_keeps _ _ _) rfl ?_
    exact Keeps.refl _ _
  · refine Keeps.ite ?_ ?_
    · refine Keeps.via (respond_keeps _ _ _ _ _) rfl ?_
      exact Keeps.refl _ _
    · refine Keeps.via (respondErr_keeps _ _ _) rfl ?_
      exact Keeps.refl _ _

theorem execFinish_keeps : ∀ a0 a1 a2 a3 a4 a5, KeepsO 35129392 a5 (execFinish a0 a1 a2 a3 a4 a5) := by
  intro a0 a1 a2 a3 a4 a5
  unfold execFinish
  unfold onFn
  try dsimp -proj only
  refine KeepsO.next ?_
  refine Keeps.ite ?_ ?_
  · refine Keeps.via (respondErr_keeps _ _ _) rfl ?_
    exact Keeps.refl _ _
  · split
    · try dsimp -proj only
      refine Keeps.via (respondErr_keeps _ _ _) rfl ?_
      exact Keeps.refl _ _
    · try dsimp -proj only
      refine Keeps.ite ?_ ?_
      · refine Keeps.via (respond_keeps _ _ _ _ _) rfl ?_
        refine Keeps.via (modSess_keeps _ _ _) rfl ?_
        exact Keeps.refl _ _
      · refine Keeps.via (respondErr_keeps _ _ _) rfl ?_
        refine Keeps.via (endSess_keeps _ _) rfl ?_
        refine Keeps.ite ?_ ?_
        · refine Keeps.via (bump_keeps _ _ _ _ _) rfl ?_
          exact Keeps.refl _ _
        · exact Keeps.refl _ _

theorem execKeyExchange_keeps : ∀ a0 a1 a2, KeepsO 1048576 a2 (execKeyExchange a0 a1 a2) := by
  intro a0 a1 a2
  unfold execKeyExchange
  unfold onFn
  try dsimp -proj only
  refine KeepsO.next ?_
  refine Keeps.ite ?_ ?_
  · refine Keeps.via (respondErr_keeps _ _ _) rfl ?_
    exact Keeps.refl _ _
  · refine Keeps.ite ?_ ?_
    · refine Keeps.via (respondErr_keeps _ _ _) rfl ?_
      exact Keeps.refl _ _
    · unfold signing
      try dsimp -proj only
      refine Keeps.ite ?_ ?_
      · refine Keeps.via (respond_keeps _ _ _ _ _) rfl ?_
        refine Keeps.via (setTru_keeps _ _) rfl ?_
        exact Keeps.refl _ _
      · refine Keeps.via (respondErr_keeps _ _ _) rfl ?_
        exact Keeps.refl _ _

theorem execGetMeasurements_keeps : ∀ a0 a1 a2 a3 a4, KeepsO 1048576 a4 (execGetMeasurements a0 a1 a2 a3 a4) := by
  intro a0 a1 a2 a3 a4
  unfold execGetMeasurements
  unfold onFn
  try dsimp -proj only
  refine KeepsO.next ?_
  refine Keeps.ite ?_ ?_
  · refine Keeps.via (respondErr_keeps _ _ _) rfl ?_
    exact Keeps.refl _ _
  · refine Keeps.ite ?_ ?_
    · refine Keeps.via (respondErr_keeps _ _ _) rfl ?_
      exact Keeps.refl _ _
    · refine Keeps.ite ?_ ?_
      · refine Keeps.via (respond_keeps _ _ _ _ _) rfl ?_
        exact Keeps.refl _ _
      · refine Keeps.ite ?_ ?_
        · refine Keeps.via (respond_keeps _ _ _ _ _) rfl ?_
          exact Keeps.refl _ _
        · refine Keeps.ite ?_ ?_
          · refine Keeps.via (respond_keeps _ _ _ _ _) rfl ?_
            exact Keeps.refl _ _
          · refine Keeps.via (respondErr_keeps _ _ _) rfl ?_
            exact Keeps.refl _ _

theorem execChallenge_keeps : ∀ a0 a1 a2 a3, KeepsO 1048576 a3 (execChallenge a0 a1 a2 a3) := by
  intro a0 a1 a2 a3
  unfold execChallenge
  unfold onFn
  try dsimp -proj only
  refine KeepsO.next ?_
  refine Keeps.ite ?_ ?_
  · refine Keeps.via (respondErr_keeps _ _ _) rfl ?_
    exact Keeps.refl _ _
  · refine Keeps.ite ?_ ?_
    · refine Keeps.via (respondErr_keeps _ _ _) rfl ?_
      exact Keeps.refl _ _
    · unfold signing
      try dsimp -proj only
      refine Keeps.ite ?_ ?_
      · refine Keeps.via (respond_keeps _ _ _ _ _) rfl ?_
        exact Keeps.refl _ _
      · refine Keeps.via (respondErr_keeps _ _ _) rfl ?_
        exact Keeps.refl _ _

theorem execGetCertificate_keeps : ∀ a0 a1 a2 a3 a4, KeepsO 1048576 a4 (execGetCertificate a0 a1 a2 a3 a4) := by
  intro a0 a1 a2 a3 a4
  unfold execGetCertificate
  unfold onFn
  try dsimp -proj only
  refine KeepsO.next ?_
  refine Keeps.ite ?_ ?_
  · refine Keeps.via (respondErr_keeps _ _ _) rfl ?_
    exact Keeps.refl _ _
  · refine Keeps.ite ?_ ?_
    · refine Keeps.via (respondErr_keeps _ _ _) rfl ?_
      exact Keeps.refl _ _
    · refine Keeps.via (respond_keeps _ _ _ _ _) rfl ?_
      exact Keeps.refl _ _

theorem execGetDigests_keeps : ∀ a0 a1, KeepsO 1048576 a1 (execGetDigests a0 a1) := by
  intro a0 a1
  unfold execGetDigests
  unfold onFn
  try dsimp -proj only
  refine KeepsO.next ?_
  refine Keeps.ite ?_ ?_
  · refine Keeps.via (respondErr_keeps _ _ _) rfl ?_
    exact Keeps.refl _ _
  · refine Keeps.via (respond_keeps _ _ _ _ _) rfl ?_
    exact Keeps.refl _ _

theorem execNegotiateAlgorithms_keeps : ∀ a0 a1 a2 a3 a4 a5 a6, KeepsO 1048576 a6 (execNegotiateAlgorithms a0 a1 a2 a3 a4 a5 a6) := by
  intro a0 a1 a2 a3 a4 a5 a6
  unfold execNegotiateAlgorithms
  refine KeepsO.next ?_
  refine Keeps.via (respond_keeps _ _ _ _ _) rfl ?_
  exact Keeps.refl _ _

theorem execGetCapabilities_keeps : ∀ a0 a1, KeepsO 1048576 a1 (execGetCapabilities a0 a1) := by
  intro a0 a1
  unfold execGetCapabilities
  refine KeepsO.next ?_
  refine Keeps.via (respond_keeps _ _ _ _ _) rfl ?_
  exact Keeps.refl _ _

theorem execGetVersion_keeps : ∀ a0 a1, KeepsO 1048576 a1 (execGetVersion a0 a1) := by
  intro a0 a1
  unfold execGetVersion
  refine KeepsO.next ?_
  refine Keeps.via (respond_keeps _ _ _ _ _) rfl ?_
  exact Keeps.refl _ _

theorem execFedTableLoad_keeps : ∀ a0 a1, KeepsO 167774256 a1 (execFedTableLoad a0 a1) := by
  intro a0 a1
  unfold execFedTableLoad
  try dsimp -proj only
  split
  · refine KeepsO.next ?_
    exact Keeps.refl _ _
  · refine KeepsO.ite ?_ ?_
    · refine KeepsO.next ?_
      refine Keeps.via (refuseSet_keeps _ _ _) rfl ?_
      exact Keeps.refl _ _
    · refine KeepsO.ite ?_ ?_
      · refine KeepsO.next ?_
        refine Keeps.via (setJct_keeps _ _) rfl ?_
        refine Keeps.via (takeSet_keeps _ _) rfl ?_
        exact Keeps.refl _ _
      · refine KeepsO.ite ?_ ?_
        · refine KeepsO.next ?_
          exact Keeps.refl _ _
        · refine KeepsO.ite ?_ ?_
          · refine KeepsO.next ?_
            refine Keeps.via (refuseSet_keeps _ _ _) rfl ?_
            exact Keeps.refl _ _
          · refine KeepsO.next ?_
            refine Keeps.via (bump_keeps _ _ _ _ _) rfl ?_
            refine Keeps.via (setJct_keeps _ _) rfl ?_
            refine Keeps.via (takeSet_keeps _ _) rfl ?_
            exact Keeps.refl _ _

theorem execPrimaryClaimTimeout_keeps : ∀ a0, KeepsO 134217728 a0 (execPrimaryClaimTimeout a0) := by
  intro a0
  unfold execPrimaryClaimTimeout
  refine KeepsO.next ?_
  refine Keeps.ite ?_ ?_
  · refine Keeps.via (setJct_keeps _ _) rfl ?_
    exact Keeps.refl _ _
  · exact Keeps.refl _ _

theorem execConnectionIdleClose_keeps : ∀ a0 a1 a2, KeepsO 134217728 a2 (execConnectionIdleClose a0 a1 a2) := by
  intro a0 a1 a2
  unfold execConnectionIdleClose
  split
  · refine KeepsO.next ?_
    exact Keeps.refl _ _
  · refine KeepsO.next ?_
    refine Keeps.ite ?_ ?_
    · refine Keeps.via (setJct_keeps _ _) rfl ?_
      exact Keeps.refl _ _
    · exact Keeps.refl _ _

theorem msgOutcome_keeps : ∀ a0 a1 a2 a3 a4, Keeps 222524112 a0 (msgOutcome a0 a1 a2 a3 a4) := by
  intro a0 a1 a2 a3 a4
  unfold msgOutcome
  split
  · exact Keeps.refl _ _
  · refine Keeps.via (pumpConn_keeps _ _ _ _) rfl ?_
    refine Keeps.foldl (fun x1 _ => ?_) ?_
    · refine Keeps.via (messageOutcome_keeps _ _ _ _) rfl ?_
      exact Keeps.refl _ _
    · refine Keeps.via (setConn_keeps _ _) rfl ?_
      exact Keeps.refl _ _

theorem execRetransmitTimeout_keeps : ∀ a0 a1 a2 a3, KeepsO 222524112 a3 (execRetransmitTimeout a0 a1 a2 a3) := by
  intro a0 a1 a2 a3
  unfold execRetransmitTimeout
  split
  · refine KeepsO.next ?_
    exact Keeps.refl _ _
  · split
    · refine KeepsO.next ?_
      exact Keeps.refl _ _
    · refine KeepsO.ite ?_ ?_
      · refine KeepsO.next ?_
        refine Keeps.via (msgOutcome_keeps _ _ _ _ _) rfl ?_
        exact Keeps.refl _ _
      · refine KeepsO.next ?_
        refine Keeps.via (setConn_keeps _ _) rfl ?_
        refine Keeps.via (sendFrame_keeps _ _) rfl ?_
        refine Keeps.ite ?_ ?_
        · refine Keeps.via (bump_keeps _ _ _ _ _) rfl ?_
          exact Keeps.refl _ _
        · exact Keeps.refl _ _

theorem learnLoss_keeps : ∀ a0 a1 a2, Keeps 222524112 a0 (learnLoss a0 a1 a2) := by
  intro a0 a1 a2
  unfold learnLoss
  refine Keeps.ite ?_ ?_
  · refine Keeps.foldl (fun x1 _ => ?_) ?_
    · refine Keeps.via (closeConn_keeps _ _ _) rfl ?_
      exact Keeps.refl _ _
    · refine Keeps.via (setJct_keeps _ _) rfl ?_
      exact Keeps.refl _ _
  · refine Keeps.via (beginPromotions_keeps _ _) rfl ?_
    refine Keeps.via (setJct_keeps _ _) rfl ?_
    refine Keeps.foldl (fun x2 _ => ?_) ?_
    · refine Keeps.via (closeConn_keeps _ _ _) rfl ?_
      exact Keeps.refl _ _
    · refine Keeps.via (setJct_keeps _ _) rfl ?_
      exact Keeps.refl _ _

theorem loseNeighbour_keeps : ∀ a0 a1, Keeps 222524112 a0 (loseNeighbour a0 a1) := by
  intro a0 a1
  unfold loseNeighbour
  refine Keeps.ite ?_ ?_
  · refine Keeps.via (demoteAll_keeps _) rfl ?_
    refine Keeps.via (learnLoss_keeps _ _ _) rfl ?_
    refine Keeps.ite ?_ ?_
    · refine Keeps.via (floodFrame_keeps _ _) rfl ?_
      refine Keeps.via (setJct_keeps _ _) rfl ?_
      exact Keeps.refl _ _
    · refine Keeps.via (setJct_keeps _ _) rfl ?_
      exact Keeps.refl _ _
  · refine Keeps.via (learnLoss_keeps _ _ _) rfl ?_
    refine Keeps.ite ?_ ?_
    · refine Keeps.via (floodFrame_keeps _ _) rfl ?_
      refine Keeps.via (setJct_keeps _ _) rfl ?_
      exact Keeps.refl _ _
    · refine Keeps.via (setJct_keeps _ _) rfl ?_
      exact Keeps.refl _ _

theorem execUaserLinkDown_keeps : ∀ a0 a1, KeepsO 222524112 a1 (execUaserLinkDown a0 a1) := by
  intro a0 a1
  unfold execUaserLinkDown
  refine KeepsO.next ?_
  refine Keeps.foldl (fun x1 _ => ?_) ?_
  · refine Keeps.via (loseNeighbour_keeps _ _) rfl ?_
    exact Keeps.refl _ _
  · refine Keeps.via (setJct_keeps _ _) rfl ?_
    exact Keeps.refl _ _

theorem execNeighbourTimeout_keeps : ∀ a0 a1, KeepsO 222524112 a1 (execNeighbourTimeout a0 a1) := by
  intro a0 a1
  unfold execNeighbourTimeout
  split
  · refine KeepsO.next ?_
    exact Keeps.refl _ _
  · refine KeepsO.next ?_
    refine Keeps.via (loseNeighbour_keeps _ _) rfl ?_
    exact Keeps.refl _ _

theorem execHeartbeatTick_keeps : ∀ a0, KeepsO 134217728 a0 (execHeartbeatTick a0) := by
  intro a0
  unfold execHeartbeatTick
  refine KeepsO.next ?_
  refine Keeps.ite ?_ ?_
  · refine Keeps.via (sendHeartbeats_keeps _ _) rfl ?_
    exact Keeps.refl _ _
  · exact Keeps.refl _ _

theorem forward_keeps : ∀ a0 a1, Keeps 134217744 a0 (forward a0 a1) := by
  intro a0 a1
  unfold forward
  refine Keeps.ite ?_ ?_
  · refine Keeps.via (bump_keeps _ _ _ _ _) rfl ?_
    exact Keeps.refl _ _
  · split
    · exact Keeps.refl _ _
    · refine Keeps.ite ?_ ?_
      · refine Keeps.via (bump_keeps _ _ _ _ _) rfl ?_
        exact Keeps.refl _ _
      · refine Keeps.via (sendFrame_keeps _ _) rfl ?_
        exact Keeps.refl _ _

theorem frameIn_keeps : ∀ a0 a1, Keeps 16 a0 (frameIn a0 a1).2 := by
  intro a0 a1
  unfold frameIn
  refine Keeps.ite2 ?_ ?_
  · refine Keeps.via (bump_keeps _ _ _ _ _) rfl ?_
    refine Keeps.via (bump_keeps _ _ _ _ _) rfl ?_
    exact Keeps.refl _ _
  · refine Keeps.ite2 ?_ ?_
    · refine Keeps.via (bump_keeps _ _ _ _ _) rfl ?_
      refine Keeps.via (bump_keeps _ _ _ _ _) rfl ?_
      refine Keeps.via (bump_keeps _ _ _ _ _) rfl ?_
      exact Keeps.refl _ _
    · refine Keeps.ite2 ?_ ?_
      · refine Keeps.via (bump_keeps _ _ _ _ _) rfl ?_
        refine Keeps.via (bump_keeps _ _ _ _ _) rfl ?_
        refine Keeps.via (bump_keeps _ _ _ _ _) rfl ?_
        exact Keeps.refl _ _
      · refine Keeps.ite2 ?_ ?_
        · refine Keeps.via (bump_keeps _ _ _ _ _) rfl ?_
          refine Keeps.via (bump_keeps _ _ _ _ _) rfl ?_
          refine Keeps.via (bump_keeps _ _ _ _ _) rfl ?_
          exact Keeps.refl _ _
        · refine Keeps.via (bump_keeps _ _ _ _ _) rfl ?_
          refine Keeps.via (bump_keeps _ _ _ _ _) rfl ?_
          exact Keeps.refl _ _

theorem execFrameForward_keeps : ∀ a0 a1, KeepsO 134217744 a1 (execFrameForward a0 a1) := by
  intro a0 a1
  unfold execFrameForward
  split
  · rename_i y1_0 y1_1 h1
    have k1 : Keeps 134217744 a1 y1_1 := by
      refine Keeps.snd h1 ?_
      refine Keeps.via (frameIn_keeps _ _) rfl ?_
      exact Keeps.refl _ _
    refine KeepsO.next ?_
    refine Keeps.ite ?_ ?_
    · refine Keeps.via (forward_keeps _ _) rfl ?_
      exact k1
    · exact k1
  · rename_i y2_0 h2
    have k2 : Keeps 134217744 a1 y2_0 := by
      refine Keeps.snd h2 ?_
      refine Keeps.via (frameIn_keeps _ _) rfl ?_
      exact Keeps.refl _ _
    refine KeepsO.next ?_
    exact k2

theorem execStalePeer_keeps : ∀ a0 a1, KeepsO 222524112 a1 (execStalePeer a0 a1) := by
  intro a0 a1
  unfold execStalePeer
  refine KeepsO.next ?_
  unfold onOwn
  try dsimp -proj only
  unfold onFrame
  try dsimp -proj only
  try dsimp -proj only
  split
  · rename_i y1_0 y1_1 h1
    have k1 : Keeps 222524112 a1 y1_1 := by
      refine Keeps.snd h1 ?_
      refine Keeps.via (frameIn_keeps _ _) rfl ?_
      exact Keeps.refl _ _
    try dsimp -proj only
    refine Keeps.ite ?_ ?_
    · refine Keeps.ite ?_ ?_
      · exact k1
      · refine Keeps.ite ?_ ?_
        · refine Keeps.via (sendFrame_keeps _ _) rfl ?_
          exact k1
        · refine Keeps.ite ?_ ?_
          · exact k1
          · refine Keeps.via (closeConn_keeps _ _ _) rfl ?_
            exact k1
    · exact k1
  · rename_i y2_0 h2
    have k2 : Keeps 222524112 a1 y2_0 := by
      refine Keeps.snd h2 ?_
      refine Keeps.via (frameIn_keeps _ _) rfl ?_
      exact Keeps.refl _ _
    try dsimp -proj only
    exact k2

theorem floodOn_keeps : ∀ a0 a1, Keeps 134217728 a0 (floodOn a0 a1) := by
  intro a0 a1
  unfold floodOn
  refine Keeps.ite ?_ ?_
  · exact Keeps.refl _ _
  · refine Keeps.via (floodFrame_keeps _ _) rfl ?_
    exact Keeps.refl _ _

theorem execPromoted_keeps : ∀ a0 a1, KeepsO 134217744 a1 (execPromoted a0 a1) := by
  intro a0 a1
  unfold execPromoted
  refine KeepsO.next ?_
  unfold onFrame
  try dsimp -proj only
  try dsimp -proj only
  split
  · rename_i y1_0 y1_1 h1
    have k1 : Keeps 134217744 a1 y1_1 := by
      refine Keeps.snd h1 ?_
      refine Keeps.via (frameIn_keeps _ _) rfl ?_
      exact Keeps.refl _ _
    try dsimp -proj only
    refine Keeps.ite ?_ ?_
    · try dsimp -proj only
      split
      · try dsimp -proj only
        refine Keeps.ite ?_ ?_
        · exact k1
        · refine Keeps.via (floodOn_keeps _ _) rfl ?_
          refine Keeps.via (setJct_keeps _ _) rfl ?_
          exact k1
      · try dsimp -proj only
        refine Keeps.ite ?_ ?_
        · refine Keeps.via (setJct_keeps _ _) rfl ?_
          refine Keeps.via (modGroup_keeps _ _ _) rfl ?_
          refine Keeps.ite ?_ ?_
          · exact k1
          · refine Keeps.via (floodOn_keeps _ _) rfl ?_
            refine Keeps.via (setJct_keeps _ _) rfl ?_
            exact k1
        · refine Keeps.ite ?_ ?_
          · exact k1
          · refine Keeps.via (floodOn_keeps _ _) rfl ?_
            refine Keeps.via (setJct_keeps _ _) rfl ?_
            exact k1
    · exact k1
  · rename_i y2_0 h2
    have k2 : Keeps 134217744 a1 y2_0 := by
      refine Keeps.snd h2 ?_
      refine Keeps.via (frameIn_keeps _ _) rfl ?_
      exact Keeps.refl _ _
    try dsimp -proj only
    exact k2

theorem execLoss_keeps : ∀ a0 a1, KeepsO 222524112 a1 (execLoss a0 a1) := by
  intro a0 a1
  unfold execLoss
  refine KeepsO.next ?_
  unfold onFrame
  try dsimp -proj only
  try dsimp -proj only
  split
  · rename_i y1_0 y1_1 h1
    have k1 : Keeps 222524112 a1 y1_1 := by
      refine Keeps.snd h1 ?_
      refine Keeps.via (frameIn_keeps _ _) rfl ?_
      exact Keeps.refl _ _
    try dsimp -proj only
    refine Keeps.ite ?_ ?_
    · refine Keeps.ite ?_ ?_
      · exact k1
      · refine Keeps.via (learnLoss_keeps _ _ _) rfl ?_
        refine Keeps.via (floodOn_keeps _ _) rfl ?_
        refine Keeps.via (setJct_keeps _ _) rfl ?_
        exact k1
    · exact k1
  · rename_i y2_0 h2
    have k2 : Keeps 222524112 a1 y2_0 := by
      refine Keeps.snd h2 ?_
      refine Keeps.via (frameIn_keeps _ _) rfl ?_
      exact Keeps.refl _ _
    try dsimp -proj only
    exact k2

theorem newNeighbour_keeps : ∀ a0 a1, Keeps 134217744 a0 (newNeighbour a0 a1) := by
  intro a0 a1
  unfold newNeighbour
  refine Keeps.ite ?_ ?_
  · refine Keeps.via (bump_keeps _ _ _ _ _) rfl ?_
    exact Keeps.refl _ _
  · refine Keeps.ite ?_ ?_
    · refine Keeps.via (setJct_keeps _ _) rfl ?_
      exact Keeps.refl _ _
    · split
      · refine Keeps.via (setJct_keeps _ _) rfl ?_
        exact Keeps.refl _ _
      · refine Keeps.via (setJct_keeps _ _) rfl ?_
        refine Keeps.via (setJct_keeps _ _) rfl ?_
        exact Keeps.refl _ _

theorem execHeartbeat_keeps : ∀ a0 a1, KeepsO 256080624 a1 (execHeartbeat a0 a1) := by
  intro a0 a1
  unfold execHeartbeat
  refine KeepsO.next ?_
  unfold onFrame
  try dsimp -proj only
  try dsimp -proj only
  split
  · rename_i y1_0 y1_1 h1
    have k1 : Keeps 256080624 a1 y1_1 := by
      refine Keeps.snd h1 ?_
      refine Keeps.via (frameIn_keeps _ _) rfl ?_
      exact Keeps.refl _ _
    try dsimp -proj only
    refine Keeps.ite ?_ ?_
    · refine Keeps.ite ?_ ?_
      · refine Keeps.ite ?_ ?_
        · exact k1
        · refine Keeps.via (record_keeps _ _ _ _ _ _ _) rfl ?_
          refine Keeps.via (setJct_keeps _ _) rfl ?_
          exact k1
      · split
        · try dsimp -proj only
          refine Keeps.ite ?_ ?_
          · exact k1
          · refine Keeps.via (newNeighbour_keeps _ _) rfl ?_
            exact k1
        · try dsimp -proj only
          refine Keeps.ite ?_ ?_
          · refine Keeps.ite ?_ ?_
            · refine Keeps.via (loseNeighbour_keeps _ _) rfl ?_
              exact k1
            · refine Keeps.via (newNeighbour_keeps _ _) rfl ?_
              refine Keeps.via (loseNeighbour_keeps _ _) rfl ?_
              exact k1
          · refine Keeps.ite ?_ ?_
            · refine Keeps.via (loseNeighbour_keeps _ _) rfl ?_
              exact k1
            · refine Keeps.via (setJct_keeps _ _) rfl ?_
              exact k1
    · exact k1
  · rename_i y2_0 h2
    have k2 : Keeps 256080624 a1 y2_0 := by
      refine Keeps.snd h2 ?_
      refine Keeps.via (frameIn_keeps _ _) rfl ?_
      exact Keeps.refl _ _
    try dsimp -proj only
    exact k2

theorem execOutcome_keeps : ∀ a0 a1, KeepsO 222524112 a1 (execOutcome a0 a1) := by
  intro a0 a1
  unfold execOutcome
  refine KeepsO.next ?_
  unfold onOwn
  try dsimp -proj only
  unfold onFrame
  try dsimp -proj only
  try dsimp -proj only
  split
  · rename_i y1_0 y1_1 h1
    have k1 : Keeps 222524112 a1 y1_1 := by
      refine Keeps.snd h1 ?_
      refine Keeps.via (frameIn_keeps _ _) rfl ?_
      exact Keeps.refl _ _
    try dsimp -proj only
    refine Keeps.ite ?_ ?_
    · refine Keeps.ite ?_ ?_
      · exact k1
      · refine Keeps.ite ?_ ?_
        · refine Keeps.via (sendFrame_keeps _ _) rfl ?_
          exact k1
        · refine Keeps.ite ?_ ?_
          · refine Keeps.via (msgOutcome_keeps _ _ _ _ _) rfl ?_
            exact k1
          · exact k1
    · exact k1
  · rename_i y2_0 h2
    have k2 : Keeps 222524112 a1 y2_0 := by
      refine Keeps.snd h2 ?_
      refine Keeps.via (frameIn_keeps _ _) rfl ?_
      exact Keeps.refl _ _
    try dsimp -proj only
    exact k2

theorem execAck_keeps : ∀ a0 a1, KeepsO 134217744 a1 (execAck a0 a1) := by
  intro a0 a1
  unfold execAck
  refine KeepsO.next ?_
  unfold onOwn
  try dsimp -proj only
  unfold onFrame
  try dsimp -proj only
  try dsimp -proj only
  split
  · rename_i y1_0 y1_1 h1
    have k1 : Keeps 134217744 a1 y1_1 := by
      refine Keeps.snd h1 ?_
      refine Keeps.via (frameIn_keeps _ _) rfl ?_
      exact Keeps.refl _ _
    try dsimp -proj only
    refine Keeps.ite ?_ ?_
    · refine Keeps.ite ?_ ?_
      · exact k1
      · refine Keeps.ite ?_ ?_
        · refine Keeps.via (sendFrame_keeps _ _) rfl ?_
          exact k1
        · refine Keeps.via (ackUpTo_keeps _ _ _ _ _ _) rfl ?_
          exact k1
    · exact k1
  · rename_i y2_0 h2
    have k2 : Keeps 134217744 a1 y2_0 := by
      refine Keeps.snd h2 ?_
      refine Keeps.via (frameIn_keeps _ _) rfl ?_
      exact Keeps.refl _ _
    try dsimp -proj only
    exact k2

theorem execData_keeps : ∀ a0 a1, KeepsO 222524112 a1 (execData a0 a1) := by
  intro a0 a1
  unfold execData
  refine KeepsO.next ?_
  unfold onOwn
  try dsimp -proj only
  unfold onFrame
  try dsimp -proj only
  try dsimp -proj only
  split
  · rename_i y1_0 y1_1 h1
    have k1 : Keeps 222524112 a1 y1_1 := by
      refine Keeps.snd h1 ?_
      refine Keeps.via (frameIn_keeps _ _) rfl ?_
      exact Keeps.refl _ _
    try dsimp -proj only
    refine Keeps.ite ?_ ?_
    · refine Keeps.ite ?_ ?_
      · exact k1
      · refine Keeps.ite ?_ ?_
        · refine Keeps.via (sendFrame_keeps _ _) rfl ?_
          exact k1
        · refine Keeps.via (dataArrives_keeps _ _) rfl ?_
          refine Keeps.via (ackUpTo_keeps _ _ _ _ _ _) rfl ?_
          exact k1
    · exact k1
  · rename_i y2_0 h2
    have k2 : Keeps 222524112 a1 y2_0 := by
      refine Keeps.snd h2 ?_
      refine Keeps.via (frameIn_keeps _ _) rfl ?_
      exact Keeps.refl _ _
    try dsimp -proj only
    exact k2

theorem execLmemLostPop_keeps : ∀ a0 a1, KeepsO 65552 a1 (execLmemLostPop a0 a1) := by
  intro a0 a1
  unfold execLmemLostPop
  unfold onPage
  try dsimp -proj only
  refine KeepsO.next ?_
  refine Keeps.ite ?_ ?_
  · split
    · try dsimp -proj only
      refine Keeps.put_regs ?_ rfl _
      exact Keeps.refl _ _
    · try dsimp -proj only
      refine Keeps.put_regs ?_ rfl _
      exact Keeps.refl _ _
    · try dsimp -proj only
      refine Keeps.put_regs ?_ rfl _
      refine Keeps.via (popLost_keeps _ _) rfl ?_
      exact Keeps.refl _ _
  · exact Keeps.refl _ _

theorem execLogSwitch_keeps : ∀ a0 a1, KeepsO 73728 a1 (execLogSwitch a0 a1) := by
  intro a0 a1
  unfold execLogSwitch
  refine KeepsO.next ?_
  refine Keeps.via (logSwitch_keeps _ _) rfl ?_
  exact Keeps.refl _ _

theorem execInstanceReset_keeps : ∀ a0 a1 a2, KeepsO 257130456 a2 (execInstanceReset a0 a1 a2) := by
  intro a0 a1 a2
  unfold execInstanceReset
  refine KeepsO.next ?_
  refine Keeps.via (instanceReset_keeps _ _ _) rfl ?_
  exact Keeps.refl _ _

theorem freeInstance_keeps : ∀ a0 a1, Keeps 34678896 a0 (freeInstance a0 a1) := by
  intro a0 a1
  unfold freeInstance
  refine Keeps.via (setInst_keeps _ _ _) rfl ?_
  refine Keeps.via (logStop_keeps _ _) rfl ?_
  refine Keeps.via (dropPage_keeps _ _) rfl ?_
  refine Keeps.via (setEff_keeps _ _ _ _ _) rfl ?_
  refine Keeps.via (setEff_keeps _ _ _ _ _) rfl ?_
  refine Keeps.via (setEff_keeps _ _ _ _ _) rfl ?_
  refine Keeps.via (setEff_keeps _ _ _ _ _) rfl ?_
  refine Keeps.via (setEff_keeps _ _ _ _ _) rfl ?_
  refine Keeps.put_evr (Keeps.put_sbx (Keeps.put_lmem (Keeps.put_tru (Keeps.put_drc ?_ rfl _) rfl _) rfl _) rfl _) rfl _
  exact Keeps.refl _ _

theorem tenDone_keeps : ∀ a0 a1 a2, Keeps 65552 a0 (tenDone a0 a1 a2) := by
  intro a0 a1 a2
  unfold tenDone
  refine Keeps.via (setLive_keeps _ _ _ _ _) rfl ?_
  refine Keeps.via (setLive_keeps _ _ _ _ _) rfl ?_
  refine Keeps.via (setLive_keeps _ _ _ _ _) rfl ?_
  refine Keeps.via (setTen_keeps _ _) rfl ?_
  exact Keeps.refl _ _

theorem tenGive_keeps : ∀ a0 a1, Keeps 37833272 a0 (tenGive a0 a1) := by
  intro a0 a1
  unfold tenGive
  try dsimp -proj only
  split
  · refine Keeps.via (giveUnit_keeps _ _ _ _) rfl ?_
    refine Keeps.via (dropAlias_keeps _ _) rfl ?_
    refine Keeps.via (setTen_keeps _ _) rfl ?_
    exact Keeps.refl _ _
  · refine Keeps.via (giveUnit_keeps _ _ _ _) rfl ?_
    refine Keeps.via (dropAlias_keeps _ _) rfl ?_
    refine Keeps.via (setTen_keeps _ _) rfl ?_
    exact Keeps.refl _ _
  · refine Keeps.via (grantWindows_keeps _ _ _ _) rfl ?_
    refine Keeps.via (giveUnit_keeps _ _ _ _) rfl ?_
    refine Keeps.via (setTen_keeps _ _) rfl ?_
    exact Keeps.refl _ _
  · refine Keeps.via (giveUnit_keeps _ _ _ _) rfl ?_
    refine Keeps.via (setTen_keeps _ _) rfl ?_
    exact Keeps.refl _ _
  · refine Keeps.via (giveUnit_keeps _ _ _ _) rfl ?_
    refine Keeps.via (setTen_keeps _ _) rfl ?_
    exact Keeps.refl _ _
  · refine Keeps.via (giveUnit_keeps _ _ _ _) rfl ?_
    refine Keeps.via (setTen_keeps _ _) rfl ?_
    exact Keeps.refl _ _
  · refine Keeps.via (setTen_keeps _ _) rfl ?_
    exact Keeps.refl _ _

theorem tenSettle_keeps : ∀ a0, Keeps 38890104 a0 (tenSettle a0) := by
  intro a0
  unfold tenSettle
  split
  · exact Keeps.refl _ _
  · try dsimp -proj only
    split
    · refine Keeps.ite ?_ ?_
      · refine Keeps.ite ?_ ?_
        · refine Keeps.via (tenStage_keeps _ _) rfl ?_
          refine Keeps.via (tenGive_keeps _ _) rfl ?_
          refine Keeps.ite ?_ ?_
          · refine Keeps.via (destroyGive_keeps _ _) rfl ?_
            exact Keeps.refl _ _
          · exact Keeps.refl _ _
        · refine Keeps.ite ?_ ?_
          · refine Keeps.via (destroyGive_keeps _ _) rfl ?_
            exact Keeps.refl _ _
          · exact Keeps.refl _ _
      · refine Keeps.ite ?_ ?_
        · refine Keeps.ite ?_ ?_
          · refine Keeps.via (tenDone_keeps _ _ _) rfl ?_
            refine Keeps.via (freeInstance_keeps _ _) rfl ?_
            refine Keeps.via (setTen_keeps _ _) rfl ?_
            refine Keeps.ite ?_ ?_
            · refine Keeps.via (tenStage_keeps _ _) rfl ?_
              refine Keeps.via (tenGive_keeps _ _) rfl ?_
              refine Keeps.ite ?_ ?_
              · refine Keeps.via (destroyGive_keeps _ _) rfl ?_
                exact Keeps.refl _ _
              · exact Keeps.refl _ _
            · refine Keeps.ite ?_ ?_
              · refine Keeps.via (destroyGive_keeps _ _) rfl ?_
                exact Keeps.refl _ _
              · exact Keeps.refl _ _
          · refine Keeps.ite ?_ ?_
            · refine Keeps.via (tenStage_keeps _ _) rfl ?_
              refine Keeps.via (tenGive_keeps _ _) rfl ?_
              refine Keeps.ite ?_ ?_
              · refine Keeps.via (destroyGive_keeps _ _) rfl ?_
                exact Keeps.refl _ _
              · exact Keeps.refl _ _
            · refine Keeps.ite ?_ ?_
              · refine Keeps.via (destroyGive_keeps _ _) rfl ?_
                exact Keeps.refl _ _
              · exact Keeps.refl _ _
        · refine Keeps.ite ?_ ?_
          · refine Keeps.via (tenDone_keeps _ _ _) rfl ?_
            refine Keeps.ite ?_ ?_
            · refine Keeps.via (tenStage_keeps _ _) rfl ?_
              refine Keeps.via (tenGive_keeps _ _) rfl ?_
              refine Keeps.ite ?_ ?_
              · refine Keeps.via (destroyGive_keeps _ _) rfl ?_
                exact Keeps.refl _ _
              · exact Keeps.refl _ _
            · refine Keeps.ite ?_ ?_
              · refine Keeps.via (destroyGive_keeps _ _) rfl ?_
                exact Keeps.refl _ _
              · exact Keeps.refl _ _
          · refine Keeps.ite ?_ ?_
            · refine Keeps.via (tenStage_keeps _ _) rfl ?_
              refine Keeps.via (tenGive_keeps _ _) rfl ?_
              refine Keeps.ite ?_ ?_
              · refine Keeps.via (destroyGive_keeps _ _) rfl ?_
                exact Keeps.refl _ _
              · exact Keeps.refl _ _
            · refine Keeps.ite ?_ ?_
              · refine Keeps.via (destroyGive_keeps _ _) rfl ?_
                exact Keeps.refl _ _
              · exact Keeps.refl _ _
    · refine Keeps.ite ?_ ?_
      · refine Keeps.via (tenStage_keeps _ _) rfl ?_
        refine Keeps.via (tenGive_keeps _ _) rfl ?_
        refine Keeps.ite ?_ ?_
        · refine Keeps.via (destroyGive_keeps _ _) rfl ?_
          exact Keeps.refl _ _
        · exact Keeps.refl _ _
      · refine Keeps.ite ?_ ?_
        · refine Keeps.via (destroyGive_keeps _ _) rfl ?_
          exact Keeps.refl _ _
        · exact Keeps.refl _ _

theorem execWithdrawDrainTimeout_keeps : ∀ a0 a1, KeepsO 257130232 a1 (execWithdrawDrainTimeout a0 a1) := by
  intro a0 a1
  unfold execWithdrawDrainTimeout
  split
  · refine KeepsO.ite ?_ ?_
    · refine KeepsO.next ?_
      refine Keeps.via (tenSettle_keeps _) rfl ?_
      refine Keeps.via (endInside_keeps _ _ _) rfl ?_
      exact Keeps.refl _ _
    · refine KeepsO.next ?_
      exact Keeps.refl _ _
  · refine KeepsO.next ?_
    exact Keeps.refl _ _

theorem execUndedicate_keeps : ∀ a0, KeepsO 38890104 a0 (execUndedicate a0) := by
  intro a0
  unfold execUndedicate
  unfold tenRun
  try dsimp -proj only
  try dsimp -proj only
  split
  · try dsimp -proj only
    refine KeepsO.next ?_
    exact Keeps.refl _ _
  · try dsimp -proj only
    refine KeepsO.ite ?_ ?_
    · refine KeepsO.next ?_
      exact Keeps.refl _ _
    · refine KeepsO.ite ?_ ?_
      · refine KeepsO.next ?_
        refine Keeps.via (tenSettle_keeps _) rfl ?_
        exact Keeps.refl _ _
      · refine KeepsO.ite ?_ ?_
        · refine KeepsO.next ?_
          exact Keeps.refl _ _
        · refine KeepsO.next ?_
          refine Keeps.via (tenSettle_keeps _) rfl ?_
          refine Keeps.ite ?_ ?_
          · refine Keeps.via (tenDone_keeps _ _ _) rfl ?_
            refine Keeps.via (tdiDisturb_keeps _ _) rfl ?_
            exact Keeps.refl _ _
          · refine Keeps.ite ?_ ?_
            · refine Keeps.via (tenDone_keeps _ _ _) rfl ?_
              refine Keeps.via (tdiDisturb_keeps _ _) rfl ?_
              exact Keeps.refl _ _
            · refine Keeps.via (beginDrain_keeps _ _) rfl ?_
              refine Keeps.via (tdiDisturb_keeps _ _) rfl ?_
              exact Keeps.refl _ _

theorem execDedicate_keeps : ∀ a0, KeepsO 38890104 a0 (execDedicate a0) := by
  intro a0
  unfold execDedicate
  unfold tenRun
  try dsimp -proj only
  try dsimp -proj only
  split
  · try dsimp -proj only
    refine KeepsO.next ?_
    exact Keeps.refl _ _
  · try dsimp -proj only
    refine KeepsO.ite ?_ ?_
    · refine KeepsO.next ?_
      exact Keeps.refl _ _
    · refine KeepsO.ite ?_ ?_
      · refine KeepsO.next ?_
        refine Keeps.via (tenSettle_keeps _) rfl ?_
        exact Keeps.refl _ _
      · refine KeepsO.ite ?_ ?_
        · refine KeepsO.next ?_
          exact Keeps.refl _ _
        · refine KeepsO.next ?_
          refine Keeps.via (tenSettle_keeps _) rfl ?_
          refine Keeps.ite ?_ ?_
          · refine Keeps.via (tenDone_keeps _ _ _) rfl ?_
            refine Keeps.via (tdiDisturb_keeps _ _) rfl ?_
            exact Keeps.refl _ _
          · refine Keeps.ite ?_ ?_
            · refine Keeps.via (tenDone_keeps _ _ _) rfl ?_
              refine Keeps.via (tdiDisturb_keeps _ _) rfl ?_
              exact Keeps.refl _ _
            · refine Keeps.ite ?_ ?_
              · refine Keeps.via (tenDone_keeps _ _ _) rfl ?_
                refine Keeps.via (tdiDisturb_keeps _ _) rfl ?_
                exact Keeps.refl _ _
              · refine Keeps.via (beginDrain_keeps _ _) rfl ?_
                refine Keeps.via (tdiDisturb_keeps _ _) rfl ?_
                exact Keeps.refl _ _

theorem execWithdrawCore_keeps : ∀ a0, KeepsO 38890104 a0 (execWithdrawCore a0) := by
  intro a0
  unfold execWithdrawCore
  unfold tenRun
  try dsimp -proj only
  try dsimp -proj only
  split
  · try dsimp -proj only
    refine KeepsO.next ?_
    exact Keeps.refl _ _
  · try dsimp -proj only
    refine KeepsO.ite ?_ ?_
    · refine KeepsO.next ?_
      exact Keeps.refl _ _
    · refine KeepsO.ite ?_ ?_
      · refine KeepsO.next ?_
        refine Keeps.via (tenSettle_keeps _) rfl ?_
        exact Keeps.refl _ _
      · refine KeepsO.ite ?_ ?_
        · refine KeepsO.next ?_
          exact Keeps.refl _ _
        · refine KeepsO.next ?_
          refine Keeps.via (tenSettle_keeps _) rfl ?_
          refine Keeps.ite ?_ ?_
          · refine Keeps.via (tenDone_keeps _ _ _) rfl ?_
            refine Keeps.via (tdiDisturb_keeps _ _) rfl ?_
            exact Keeps.refl _ _
          · refine Keeps.ite ?_ ?_
            · refine Keeps.via (tenDone_keeps _ _ _) rfl ?_
              refine Keeps.via (tdiDisturb_keeps _ _) rfl ?_
              exact Keeps.refl _ _
            · refine Keeps.via (beginDrain_keeps _ _) rfl ?_
              refine Keeps.via (coreStopOp_keeps _ _) rfl ?_
              refine Keeps.via (tdiDisturb_keeps _ _) rfl ?_
              exact Keeps.refl _ _

theorem execGrantCore_keeps : ∀ a0, KeepsO 38890104 a0 (execGrantCore a0) := by
  intro a0
  unfold execGrantCore
  unfold tenRun
  try dsimp -proj only
  try dsimp -proj only
  split
  · try dsimp -proj only
    refine KeepsO.next ?_
    exact Keeps.refl _ _
  · try dsimp -proj only
    refine KeepsO.ite ?_ ?_
    · refine KeepsO.next ?_
      exact Keeps.refl _ _
    · refine KeepsO.ite ?_ ?_
      · refine KeepsO.next ?_
        refine Keeps.via (tenSettle_keeps _) rfl ?_
        exact Keeps.refl _ _
      · refine KeepsO.ite ?_ ?_
        · refine KeepsO.next ?_
          exact Keeps.refl _ _
        · refine KeepsO.next ?_
          refine Keeps.via (tenSettle_keeps _) rfl ?_
          refine Keeps.ite ?_ ?_
          · refine Keeps.via (tenDone_keeps _ _ _) rfl ?_
            refine Keeps.via (tdiDisturb_keeps _ _) rfl ?_
            exact Keeps.refl _ _
          · refine Keeps.ite ?_ ?_
            · refine Keeps.via (tenDone_keeps _ _ _) rfl ?_
              refine Keeps.via (tdiDisturb_keeps _ _) rfl ?_
              exact Keeps.refl _ _
            · refine Keeps.via (tenStage_keeps _ _) rfl ?_
              refine Keeps.via (tdiDisturb_keeps _ _) rfl ?_
              exact Keeps.refl _ _

theorem execWithdrawFen_keeps : ∀ a0, KeepsO 38890104 a0 (execWithdrawFen a0) := by
  intro a0
  unfold execWithdrawFen
  unfold tenRun
  try dsimp -proj only
  try dsimp -proj only
  split
  · try dsimp -proj only
    refine KeepsO.next ?_
    exact Keeps.refl _ _
  · try dsimp -proj only
    refine KeepsO.ite ?_ ?_
    · refine KeepsO.next ?_
      exact Keeps.refl _ _
    · refine KeepsO.ite ?_ ?_
      · refine KeepsO.next ?_
        refine Keeps.via (tenSettle_keeps _) rfl ?_
        exact Keeps.refl _ _
      · refine KeepsO.ite ?_ ?_
        · refine KeepsO.next ?_
          exact Keeps.refl _ _
        · refine KeepsO.next ?_
          refine Keeps.via (tenSettle_keeps _) rfl ?_
          refine Keeps.ite ?_ ?_
          · refine Keeps.via (tenDone_keeps _ _ _) rfl ?_
            refine Keeps.via (tdiDisturb_keeps _ _) rfl ?_
            exact Keeps.refl _ _
          · refine Keeps.ite ?_ ?_
            · refine Keeps.via (tenDone_keeps _ _ _) rfl ?_
              refine Keeps.via (tdiDisturb_keeps _ _) rfl ?_
              exact Keeps.refl _ _
            · refine Keeps.via (beginDrain_keeps _ _) rfl ?_
              refine Keeps.via (tdiDisturb_keeps _ _) rfl ?_
              exact Keeps.refl _ _

theorem execGrantFen_keeps : ∀ a0, KeepsO 38890104 a0 (execGrantFen a0) := by
  intro a0
  unfold execGrantFen
  unfold tenRun
  try dsimp -proj only
  try dsimp -proj only
  split
  · try dsimp -proj only
    refine KeepsO.next ?_
    exact Keeps.refl _ _
  · try dsimp -proj only
    refine KeepsO.ite ?_ ?_
    · refine KeepsO.next ?_
      exact Keeps.refl _ _
    · refine KeepsO.ite ?_ ?_
      · refine KeepsO.next ?_
        refine Keeps.via (tenSettle_keeps _) rfl ?_
        exact Keeps.refl _ _
      · refine KeepsO.ite ?_ ?_
        · refine KeepsO.next ?_
          exact Keeps.refl _ _
        · refine KeepsO.next ?_
          refine Keeps.via (tenSettle_keeps _) rfl ?_
          refine Keeps.ite ?_ ?_
          · refine Keeps.via (tenDone_keeps _ _ _) rfl ?_
            refine Keeps.via (tdiDisturb_keeps _ _) rfl ?_
            exact Keeps.refl _ _
          · refine Keeps.ite ?_ ?_
            · refine Keeps.via (tenDone_keeps _ _ _) rfl ?_
              refine Keeps.via (tdiDisturb_keeps _ _) rfl ?_
              exact Keeps.refl _ _
            · refine Keeps.via (tenStage_keeps _ _) rfl ?_
              refine Keeps.via (tdiDisturb_keeps _ _) rfl ?_
              exact Keeps.refl _ _

theorem execDestroy_keeps : ∀ a0, KeepsO 257130488 a0 (execDestroy a0) := by
  intro a0
  unfold execDestroy
  unfold tenRun
  try dsimp -proj only
  try dsimp -proj only
  split
  · try dsimp -proj only
    refine KeepsO.next ?_
    exact Keeps.refl _ _
  · try dsimp -proj only
    refine KeepsO.ite ?_ ?_
    · refine KeepsO.next ?_
      exact Keeps.refl _ _
    · refine KeepsO.ite ?_ ?_
      · refine KeepsO.next ?_
        refine Keeps.via (tenSettle_keeps _) rfl ?_
        exact Keeps.refl _ _
      · refine KeepsO.ite ?_ ?_
        · refine KeepsO.next ?_
          exact Keeps.refl _ _
        · refine KeepsO.next ?_
          refine Keeps.via (tenSettle_keeps _) rfl ?_
          refine Keeps.ite ?_ ?_
          · refine Keeps.via (tenDone_keeps _ _ _) rfl ?_
            refine Keeps.via (tdiDisturb_keeps _ _) rfl ?_
            exact Keeps.refl _ _
          · refine Keeps.via (tenStage_keeps _ _) rfl ?_
            refine Keeps.foldl (fun x1 _ => ?_) ?_
            · refine Keeps.via (keyAsk_keeps _ _) rfl ?_
              exact Keeps.refl _ _
            · refine Keeps.via (setTen_keeps _ _) rfl ?_
              refine Keeps.via (setInst_keeps _ _ _) rfl ?_
              refine Keeps.via (resetInstance_keeps _ _ _) rfl ?_
              refine Keeps.via (tdiDisturb_keeps _ _) rfl ?_
              exact Keeps.refl _ _

theorem execCreate_keeps : ∀ a0 a1, KeepsO 105998968 a1 (execCreate a0 a1) := by
  intro a0 a1
  unfold execCreate
  unfold tenRun
  try dsimp -proj only
  try dsimp -proj only
  split
  · try dsimp -proj only
    refine KeepsO.next ?_
    exact Keeps.refl _ _
  · try dsimp -proj only
    refine KeepsO.ite ?_ ?_
    · refine KeepsO.next ?_
      exact Keeps.refl _ _
    · refine KeepsO.ite ?_ ?_
      · refine KeepsO.next ?_
        refine Keeps.via (tenSettle_keeps _) rfl ?_
        exact Keeps.refl _ _
      · refine KeepsO.ite ?_ ?_
        · refine KeepsO.next ?_
          exact Keeps.refl _ _
        · refine KeepsO.next ?_
          refine Keeps.via (tenSettle_keeps _) rfl ?_
          refine Keeps.ite ?_ ?_
          · refine Keeps.via (tenDone_keeps _ _ _) rfl ?_
            refine Keeps.via (tdiDisturb_keeps _ _) rfl ?_
            exact Keeps.refl _ _
          · refine Keeps.ite ?_ ?_
            · refine Keeps.via (tenDone_keeps _ _ _) rfl ?_
              refine Keeps.via (tdiDisturb_keeps _ _) rfl ?_
              exact Keeps.refl _ _
            · refine Keeps.via (tenDone_keeps _ _ _) rfl ?_
              refine Keeps.via (setCtrl_keeps _ _ _) rfl ?_
              refine Keeps.put_tru ?_ rfl _
              refine Keeps.via (setInst_keeps _ _ _) rfl ?_
              refine Keeps.via (tdiDisturb_keeps _ _) rfl ?_
              exact Keeps.refl _ _

theorem miAdmin_keeps : ∀ a0 a1 a2 a3 a4, Keeps 4 a0 (miAdmin a0 a1 a2 a3 a4).2 := by
  intro a0 a1 a2 a3 a4
  unfold miAdmin
  split
  · refine Keeps.via (drawn_keeps _) rfl ?_
    exact Keeps.refl _ _
  · split
    · exact Keeps.refl _ _
    · exact Keeps.refl _ _
  · refine Keeps.ite2 ?_ ?_
    · refine Keeps.via (drawn_keeps _) rfl ?_
      exact Keeps.refl _ _
    · exact Keeps.refl _ _
  · exact Keeps.refl _ _

theorem miAnswer_keeps : ∀ a0 a1 a2 a3, Keeps 67108868 a0 (miAnswer a0 a1 a2 a3).2 := by
  intro a0 a1 a2 a3
  unfold miAnswer
  try dsimp -proj only
  split
  · refine Keeps.via (drawn_keeps _) rfl ?_
    exact Keeps.refl _ _
  · refine Keeps.via (drawn_keeps _) rfl ?_
    exact Keeps.refl _ _
  · refine Keeps.via (drawn_keeps _) rfl ?_
    exact Keeps.refl _ _
  · refine Keeps.via (setHif_keeps _ _) rfl ?_
    exact Keeps.refl _ _
  · exact Keeps.refl _ _
  · refine Keeps.via (drawn_keeps _) rfl ?_
    exact Keeps.refl _ _
  · exact Keeps.refl _ _

theorem execNvmeMiCommand_keeps : ∀ a0 a1 a2 a3 a4 a5, KeepsO 67108868 a5 (execNvmeMiCommand a0 a1 a2 a3 a4 a5) := by
  intro a0 a1 a2 a3 a4 a5
  unfold execNvmeMiCommand
  refine KeepsO.ite ?_ ?_
  · refine KeepsO.next ?_
    exact Keeps.refl _ _
  · refine KeepsO.next ?_
    refine Keeps.via (setHif_keeps _ _) rfl ?_
    refine Keeps.ite2 ?_ ?_
    · refine Keeps.via (miAnswer_keeps _ _ _ _) rfl ?_
      exact Keeps.refl _ _
    · refine Keeps.ite2 ?_ ?_
      · refine Keeps.via (miAdmin_keeps _ _ _ _ _) rfl ?_
        exact Keeps.refl _ _
      · refine Keeps.via (miAnswer_keeps _ _ _ _) rfl ?_
        exact Keeps.refl _ _

theorem execLinkRetrain_keeps : ∀ a0 a1 a2 a3, KeepsO 257130456 a3 (execLinkRetrain a0 a1 a2 a3) := by
  intro a0 a1 a2 a3
  unfold execLinkRetrain
  refine KeepsO.next ?_
  refine Keeps.ite ?_ ?_
  · exact Keeps.refl _ _
  · refine Keeps.ite ?_ ?_
    · refine Keeps.via (linkLost_keeps _ _) rfl ?_
      exact Keeps.refl _ _
    · refine Keeps.via (setLink_keeps _ _ _) rfl ?_
      exact Keeps.refl _ _

theorem execLinkDown_keeps : ∀ a0 a1, KeepsO 257130456 a1 (execLinkDown a0 a1) := by
  intro a0 a1
  unfold execLinkDown
  refine KeepsO.next ?_
  refine Keeps.via (linkLost_keeps _ _) rfl ?_
  exact Keeps.refl _ _

theorem execFunctionLevelReset_keeps : ∀ a0 a1 a2, KeepsO 257130456 a2 (execFunctionLevelReset a0 a1 a2) := by
  intro a0 a1 a2
  unfold execFunctionLevelReset
  refine KeepsO.next ?_
  refine Keeps.ite ?_ ?_
  · refine Keeps.via (dropController_keeps _ _ _) rfl ?_
    exact Keeps.refl _ _
  · refine Keeps.via (instanceReset_keeps _ _ _) rfl ?_
    exact Keeps.refl _ _

theorem submitOne_keeps : ∀ a0 a1 a2, Keeps 222524112 a0 (submitOne a0 a1 a2) := by
  intro a0 a1 a2
  unfold submitOne
  refine Keeps.ite ?_ ?_
  · refine Keeps.via (badField_keeps _ _) rfl ?_
    exact Keeps.refl _ _
  · refine Keeps.ite ?_ ?_
    · refine Keeps.via (cqe_keeps _ _ _ _ _) rfl ?_
      refine Keeps.via (bump_keeps _ _ _ _ _) rfl ?_
      exact Keeps.refl _ _
    · refine Keeps.via (submitTicket_keeps _ _ _) rfl ?_
      refine Keeps.via (addCmd_keeps _ _) rfl ?_
      exact Keeps.refl _ _

theorem notReadyNs_keeps : ∀ a0 a1, Keeps 67313664 a0 (notReadyNs a0 a1) := by
  intro a0 a1
  unfold notReadyNs
  refine Keeps.via (cqe_keeps _ _ _ _ _) rfl ?_
  exact Keeps.refl _ _

theorem setSq_keeps : ∀ a0 a1 a2 a3, Keeps 67108864 a0 (setSq a0 a1 a2 a3) := by
  intro a0 a1 a2 a3
  unfold setSq
  refine Keeps.via (setCtrl_keeps _ _ _) rfl ?_
  exact Keeps.refl _ _

theorem execMemoryCopy_keeps : ∀ a0 a1 a2 a3 a4 a5 a6, KeepsO 222524112 a6 (execMemoryCopy a0 a1 a2 a3 a4 a5 a6) := by
  intro a0 a1 a2 a3 a4 a5 a6
  unfold execMemoryCopy
  unfold nvmeCmd
  try dsimp -proj only
  try dsimp -proj only
  split
  · try dsimp -proj only
    refine KeepsO.next ?_
    exact Keeps.refl _ _
  · try dsimp -proj only
    refine KeepsO.ite ?_ ?_
    · refine KeepsO.next ?_
      exact Keeps.refl _ _
    · refine KeepsO.next ?_
      unfold withNs
      try dsimp -proj only
      try dsimp -proj only
      split
      · try dsimp -proj only
        refine Keeps.ite ?_ ?_
        · refine Keeps.via (notReadyNs_keeps _ _) rfl ?_
          refine Keeps.via (setSq_keeps _ _ _ _) rfl ?_
          exact Keeps.refl _ _
        · refine Keeps.via (submitOne_keeps _ _ _) rfl ?_
          refine Keeps.via (setSq_keeps _ _ _ _) rfl ?_
          exact Keeps.refl _ _
      · try dsimp -proj only
        refine Keeps.via (badNs_keeps _ _) rfl ?_
        refine Keeps.via (setSq_keeps _ _ _ _) rfl ?_
        exact Keeps.refl _ _

theorem execMemoryRead_keeps : ∀ a0 a1 a2 a3 a4, KeepsO 222524112 a4 (execMemoryRead a0 a1 a2 a3 a4) := by
  intro a0 a1 a2 a3 a4
  unfold execMemoryRead
  unfold nvmeCmd
  try dsimp -proj only
  try dsimp -proj only
  split
  · try dsimp -proj only
    refine KeepsO.next ?_
    exact Keeps.refl _ _
  · try dsimp -proj only
    refine KeepsO.ite ?_ ?_
    · refine KeepsO.next ?_
      exact Keeps.refl _ _
    · refine KeepsO.next ?_
      refine Keeps.via (submitOne_keeps _ _ _) rfl ?_
      refine Keeps.via (setSq_keeps _ _ _ _) rfl ?_
      exact Keeps.refl _ _

theorem execMemoryWrite_keeps : ∀ a0 a1 a2 a3 a4, KeepsO 222524112 a4 (execMemoryWrite a0 a1 a2 a3 a4) := by
  intro a0 a1 a2 a3 a4
  unfold execMemoryWrite
  unfold nvmeCmd
  try dsimp -proj only
  try dsimp -proj only
  split
  · try dsimp -proj only
    refine KeepsO.next ?_
    exact Keeps.refl _ _
  · try dsimp -proj only
    refine KeepsO.ite ?_ ?_
    · refine KeepsO.next ?_
      exact Keeps.refl _ _
    · refine KeepsO.next ?_
      refine Keeps.via (submitOne_keeps _ _ _) rfl ?_
      refine Keeps.via (setSq_keeps _ _ _ _) rfl ?_
      exact Keeps.refl _ _

theorem execExecuteProgram_keeps : ∀ a0 a1 a2 a3, KeepsO 222524112 a3 (execExecuteProgram a0 a1 a2 a3) := by
  intro a0 a1 a2 a3
  unfold execExecuteProgram
  unfold nvmeCmd
  try dsimp -proj only
  try dsimp -proj only
  split
  · try dsimp -proj only
    refine KeepsO.next ?_
    exact Keeps.refl _ _
  · try dsimp -proj only
    refine KeepsO.ite ?_ ?_
    · refine KeepsO.next ?_
      exact Keeps.refl _ _
    · refine KeepsO.next ?_
      refine Keeps.ite ?_ ?_
      · refine Keeps.via (cqe_keeps _ _ _ _ _) rfl ?_
        refine Keeps.via (setSq_keeps _ _ _ _) rfl ?_
        exact Keeps.refl _ _
      · refine Keeps.ite ?_ ?_
        · refine Keeps.via (cqe_keeps _ _ _ _ _) rfl ?_
          refine Keeps.via (bump_keeps _ _ _ _ _) rfl ?_
          refine Keeps.via (setSq_keeps _ _ _ _) rfl ?_
          exact Keeps.refl _ _
        · refine Keeps.via (submitTicket_keeps _ _ _) rfl ?_
          refine Keeps.via (addCmd_keeps _ _) rfl ?_
          refine Keeps.via (setSq_keeps _ _ _ _) rfl ?_
          exact Keeps.refl _ _

theorem execProgramActivation_keeps : ∀ a0 a1 a2 a3, KeepsO 67330048 a3 (execProgramActivation a0 a1 a2 a3) := by
  intro a0 a1 a2 a3
  unfold execProgramActivation
  unfold nvmeCmd
  try dsimp -proj only
  try dsimp -proj only
  split
  · try dsimp -proj only
    refine KeepsO.next ?_
    exact Keeps.refl _ _
  · try dsimp -proj only
    refine KeepsO.ite ?_ ?_
    · refine KeepsO.next ?_
      exact Keeps.refl _ _
    · refine KeepsO.next ?_
      refine Keeps.ite ?_ ?_
      · refine Keeps.via (badField_keeps _ _) rfl ?_
        refine Keeps.via (setSq_keeps _ _ _ _) rfl ?_
        exact Keeps.refl _ _
      · refine Keeps.ite ?_ ?_
        · refine Keeps.via (cqeOk_keeps _ _) rfl ?_
          refine Keeps.via (setSq_keeps _ _ _ _) rfl ?_
          exact Keeps.refl _ _
        · refine Keeps.ite ?_ ?_
          · refine Keeps.via (badField_keeps _ _) rfl ?_
            refine Keeps.via (setSq_keeps _ _ _ _) rfl ?_
            exact Keeps.refl _ _
          · refine Keeps.via (cqeOk_keeps _ _) rfl ?_
            refine Keeps.via (coreStartOp_keeps _ _ _) rfl ?_
            refine Keeps.via (setSq_keeps _ _ _ _) rfl ?_
            exact Keeps.refl _ _

theorem execLoadProgram_keeps : ∀ a0 a1 a2 a3 a4 a5 a6, KeepsO 222525392 a6 (execLoadProgram a0 a1 a2 a3 a4 a5 a6) := by
  intro a0 a1 a2 a3 a4 a5 a6
  unfold execLoadProgram
  unfold nvmeCmd
  try dsimp -proj only
  try dsimp -proj only
  split
  · try dsimp -proj only
    refine KeepsO.next ?_
    exact Keeps.refl _ _
  · try dsimp -proj only
    refine KeepsO.ite ?_ ?_
    · refine KeepsO.next ?_
      exact Keeps.refl _ _
    · refine KeepsO.next ?_
      refine Keeps.ite ?_ ?_
      · refine Keeps.via (badField_keeps _ _) rfl ?_
        refine Keeps.via (setSq_keeps _ _ _ _) rfl ?_
        exact Keeps.refl _ _
      · refine Keeps.ite ?_ ?_
        · refine Keeps.via (loaderAsk_keeps _ _) rfl ?_
          refine Keeps.via (addCmd_keeps _ _) rfl ?_
          refine Keeps.via (setSq_keeps _ _ _ _) rfl ?_
          exact Keeps.refl _ _
        · refine Keeps.ite ?_ ?_
          · refine Keeps.ite ?_ ?_
            · refine Keeps.via (badField_keeps _ _) rfl ?_
              refine Keeps.via (setSq_keeps _ _ _ _) rfl ?_
              exact Keeps.refl _ _
            · refine Keeps.via (submitOne_keeps _ _ _) rfl ?_
              refine Keeps.via (setSq_keeps _ _ _ _) rfl ?_
              exact Keeps.refl _ _
          · refine Keeps.via (badField_keeps _ _) rfl ?_
            refine Keeps.via (setSq_keeps _ _ _ _) rfl ?_
            exact Keeps.refl _ _

theorem putPieces_keeps : ∀ a0 a1 a2 a3, Keeps 73728 a0 (putPieces a0 a1 a2 a3) := by
  intro a0 a1 a2 a3
  induction a2 generalizing a0 a1 a3 with
  | nil =>
    rw [putPieces.eq_1]
    exact Keeps.refl _ _
  | cons a l ih =>
    rw [putPieces.eq_2]
    refine Keeps.ite ?_ ?_
    · exact Keeps.refl _ _
    · refine Keeps.via (ih _ _ _) rfl ?_
      refine Keeps.via (hostWrite_keeps _ _ _ _ _) rfl ?_
      exact Keeps.refl _ _

theorem hostPut_keeps : ∀ a0 a1 a2, Keeps 73728 a0 (hostPut a0 a1 a2) := by
  intro a0 a1 a2
  unfold hostPut
  refine Keeps.via (putPieces_keeps _ _ _ _) rfl ?_
  exact Keeps.refl _ _

theorem execReportZones_keeps : ∀ a0 a1 a2, KeepsO 67313664 a2 (execReportZones a0 a1 a2) := by
  intro a0 a1 a2
  unfold execReportZones
  unfold nvmeCmd
  try dsimp -proj only
  try dsimp -proj only
  split
  · try dsimp -proj only
    refine KeepsO.next ?_
    exact Keeps.refl _ _
  · try dsimp -proj only
    refine KeepsO.ite ?_ ?_
    · refine KeepsO.next ?_
      exact Keeps.refl _ _
    · refine KeepsO.next ?_
      unfold withNs
      try dsimp -proj only
      try dsimp -proj only
      split
      · try dsimp -proj only
        refine Keeps.ite ?_ ?_
        · refine Keeps.via (badOpcode_keeps _ _) rfl ?_
          refine Keeps.via (setSq_keeps _ _ _ _) rfl ?_
          exact Keeps.refl _ _
        · refine Keeps.ite ?_ ?_
          · refine Keeps.via (badField_keeps _ _) rfl ?_
            refine Keeps.via (setSq_keeps _ _ _ _) rfl ?_
            exact Keeps.refl _ _
          · refine Keeps.via (cqeOk_keeps _ _) rfl ?_
            refine Keeps.via (hostPut_keeps _ _ _) rfl ?_
            refine Keeps.via (setSq_keeps _ _ _ _) rfl ?_
            exact Keeps.refl _ _
      · try dsimp -proj only
        refine Keeps.via (badNs_keeps _ _) rfl ?_
        refine Keeps.via (setSq_keeps _ _ _ _) rfl ?_
        exact Keeps.refl _ _

theorem formTodo_keeps : ∀ a0 a1 a2 a3 a4, Keeps 222524096 a1 (formTodo a0 a1 a2 a3 a4) := by
  intro a0 a1 a2 a3 a4
  induction a0 generalizing a1 a2 a3 a4 with
  | zero =>
    rw [formTodo.eq_1]
    exact Keeps.refl _ _
  | succ n ih =>
    rw [formTodo.eq_2]
    split
    · exact Keeps.refl _ _
    · split
      · exact Keeps.refl _ _
      · refine Keeps.ite ?_ ?_
        · exact Keeps.refl _ _
        · refine Keeps.via (ih _ _ _ _) rfl ?_
          refine Keeps.via (submitTicket_keeps _ _ _) rfl ?_
          refine Keeps.via (setCmd_keeps _ _ _ _ _) rfl ?_
          exact Keeps.refl _ _

theorem submitAll_keeps : ∀ a0 a1 a2, Keeps 222524112 a0 (submitAll a0 a1 a2) := by
  intro a0 a1 a2
  unfold submitAll
  refine Keeps.ite ?_ ?_
  · refine Keeps.via (cqeOk_keeps _ _) rfl ?_
    exact Keeps.refl _ _
  · refine Keeps.ite ?_ ?_
    · refine Keeps.via (badField_keeps _ _) rfl ?_
      exact Keeps.refl _ _
    · refine Keeps.ite ?_ ?_
      · refine Keeps.via (cqe_keeps _ _ _ _ _) rfl ?_
        refine Keeps.via (bump_keeps _ _ _ _ _) rfl ?_
        exact Keeps.refl _ _
      · refine Keeps.via (formTodo_keeps _ _ _ _ _) rfl ?_
        refine Keeps.via (addCmd_keeps _ _) rfl ?_
        exact Keeps.refl _ _

theorem execZoneReset_keeps : ∀ a0 a1 a2, KeepsO 222524112 a2 (execZoneReset a0 a1 a2) := by
  intro a0 a1 a2
  unfold execZoneReset
  unfold zoneSend
  try dsimp -proj only
  unfold nvmeCmd
  try dsimp -proj only
  try dsimp -proj only
  split
  · try dsimp -proj only
    refine KeepsO.next ?_
    exact Keeps.refl _ _
  · try dsimp -proj only
    refine KeepsO.ite ?_ ?_
    · refine KeepsO.next ?_
      exact Keeps.refl _ _
    · refine KeepsO.next ?_
      unfold withNs
      try dsimp -proj only
      try dsimp -proj only
      split
      · try dsimp -proj only
        refine Keeps.ite ?_ ?_
        · refine Keeps.via (badOpcode_keeps _ _) rfl ?_
          refine Keeps.via (setSq_keeps _ _ _ _) rfl ?_
          exact Keeps.refl _ _
        · refine Keeps.ite ?_ ?_
          · refine Keeps.via (badField_keeps _ _) rfl ?_
            refine Keeps.via (setSq_keeps _ _ _ _) rfl ?_
            exact Keeps.refl _ _
          · refine Keeps.ite ?_ ?_
            · refine Keeps.ite ?_ ?_
              · refine Keeps.via (notReadyNs_keeps _ _) rfl ?_
                refine Keeps.via (setSq_keeps _ _ _ _) rfl ?_
                exact Keeps.refl _ _
              · refine Keeps.via (submitAll_keeps _ _ _) rfl ?_
                refine Keeps.via (setSq_keeps _ _ _ _) rfl ?_
                exact Keeps.refl _ _
            · refine Keeps.ite ?_ ?_
              · refine Keeps.via (badField_keeps _ _) rfl ?_
                refine Keeps.via (setSq_keeps _ _ _ _) rfl ?_
                exact Keeps.refl _ _
              · refine Keeps.ite ?_ ?_
                · refine Keeps.via (notReadyNs_keeps _ _) rfl ?_
                  refine Keeps.via (setSq_keeps _ _ _ _) rfl ?_
                  exact Keeps.refl _ _
                · refine Keeps.via (submitAll_keeps _ _ _) rfl ?_
                  refine Keeps.via (setSq_keeps _ _ _ _) rfl ?_
                  exact Keeps.refl _ _
      · try dsimp -proj only
        refine Keeps.via (badNs_keeps _ _) rfl ?_
        refine Keeps.via (setSq_keeps _ _ _ _) rfl ?_
        exact Keeps.refl _ _

theorem execZoneFinish_keeps : ∀ a0 a1 a2, KeepsO 84090880 a2 (execZoneFinish a0 a1 a2) := by
  intro a0 a1 a2
  unfold execZoneFinish
  unfold zoneSend
  try dsimp -proj only
  unfold nvmeCmd
  try dsimp -proj only
  try dsimp -proj only
  split
  · try dsimp -proj only
    refine KeepsO.next ?_
    exact Keeps.refl _ _
  · try dsimp -proj only
    refine KeepsO.ite ?_ ?_
    · refine KeepsO.next ?_
      exact Keeps.refl _ _
    · refine KeepsO.next ?_
      unfold withNs
      try dsimp -proj only
      try dsimp -proj only
      split
      · try dsimp -proj only
        refine Keeps.ite ?_ ?_
        · refine Keeps.via (badOpcode_keeps _ _) rfl ?_
          refine Keeps.via (setSq_keeps _ _ _ _) rfl ?_
          exact Keeps.refl _ _
        · refine Keeps.ite ?_ ?_
          · refine Keeps.via (badField_keeps _ _) rfl ?_
            refine Keeps.via (setSq_keeps _ _ _ _) rfl ?_
            exact Keeps.refl _ _
          · refine Keeps.ite ?_ ?_
            · refine Keeps.via (cqeOk_keeps _ _) rfl ?_
              refine Keeps.via (saveZones_keeps _ _) rfl ?_
              refine Keeps.foldl (fun x1 _ => ?_) ?_
              · refine Keeps.via (setZone_keeps _ _ _ _) rfl ?_
                exact Keeps.refl _ _
              · refine Keeps.via (setSq_keeps _ _ _ _) rfl ?_
                exact Keeps.refl _ _
            · refine Keeps.ite ?_ ?_
              · refine Keeps.via (badField_keeps _ _) rfl ?_
                refine Keeps.via (setSq_keeps _ _ _ _) rfl ?_
                exact Keeps.refl _ _
              · refine Keeps.via (cqeOk_keeps _ _) rfl ?_
                refine Keeps.via (saveZones_keeps _ _) rfl ?_
                refine Keeps.foldl (fun x2 _ => ?_) ?_
                · refine Keeps.via (setZone_keeps _ _ _ _) rfl ?_
                  exact Keeps.refl _ _
                · refine Keeps.via (setSq_keeps _ _ _ _) rfl ?_
                  exact Keeps.refl _ _
      · try dsimp -proj only
        refine Keeps.via (badNs_keeps _ _) rfl ?_
        refine Keeps.via (setSq_keeps _ _ _ _) rfl ?_
        exact Keeps.refl _ _

theorem execZoneClose_keeps : ∀ a0 a1 a2, KeepsO 84090880 a2 (execZoneClose a0 a1 a2) := by
  intro a0 a1 a2
  unfold execZoneClose
  unfold zoneSend
  try dsimp -proj only
  unfold nvmeCmd
  try dsimp -proj only
  try dsimp -proj only
  split
  · try dsimp -proj only
    refine KeepsO.next ?_
    exact Keeps.refl _ _
  · try dsimp -proj only
    refine KeepsO.ite ?_ ?_
    · refine KeepsO.next ?_
      exact Keeps.refl _ _
    · refine KeepsO.next ?_
      unfold withNs
      try dsimp -proj only
      try dsimp -proj only
      split
      · try dsimp -proj only
        refine Keeps.ite ?_ ?_
        · refine Keeps.via (badOpcode_keeps _ _) rfl ?_
          refine Keeps.via (setSq_keeps _ _ _ _) rfl ?_
          exact Keeps.refl _ _
        · refine Keeps.ite ?_ ?_
          · refine Keeps.via (badField_keeps _ _) rfl ?_
            refine Keeps.via (setSq_keeps _ _ _ _) rfl ?_
            exact Keeps.refl _ _
          · refine Keeps.ite ?_ ?_
            · refine Keeps.ite ?_ ?_
              · refine Keeps.via (badTransition_keeps _ _) rfl ?_
                refine Keeps.via (setSq_keeps _ _ _ _) rfl ?_
                exact Keeps.refl _ _
              · refine Keeps.via (cqeOk_keeps _ _) rfl ?_
                refine Keeps.foldl (fun x1 _ => ?_) ?_
                · refine Keeps.via (setZone_keeps _ _ _ _) rfl ?_
                  exact Keeps.refl _ _
                · refine Keeps.via (setSq_keeps _ _ _ _) rfl ?_
                  exact Keeps.refl _ _
            · refine Keeps.ite ?_ ?_
              · refine Keeps.via (badField_keeps _ _) rfl ?_
                refine Keeps.via (setSq_keeps _ _ _ _) rfl ?_
                exact Keeps.refl _ _
              · refine Keeps.ite ?_ ?_
                · refine Keeps.via (badTransition_keeps _ _) rfl ?_
                  refine Keeps.via (setSq_keeps _ _ _ _) rfl ?_
                  exact Keeps.refl _ _
                · refine Keeps.via (cqeOk_keeps _ _) rfl ?_
                  refine Keeps.foldl (fun x2 _ => ?_) ?_
                  · refine Keeps.via (setZone_keeps _ _ _ _) rfl ?_
                    exact Keeps.refl _ _
                  · refine Keeps.via (setSq_keeps _ _ _ _) rfl ?_
                    exact Keeps.refl _ _
      · try dsimp -proj only
        refine Keeps.via (badNs_keeps _ _) rfl ?_
        refine Keeps.via (setSq_keeps _ _ _ _) rfl ?_
        exact Keeps.refl _ _

theorem execZoneOpen_keeps : ∀ a0 a1 a2, KeepsO 84090880 a2 (execZoneOpen a0 a1 a2) := by
  intro a0 a1 a2
  unfold execZoneOpen
  unfold zoneSend
  try dsimp -proj only
  unfold nvmeCmd
  try dsimp -proj only
  try dsimp -proj only
  split
  · try dsimp -proj only
    refine KeepsO.next ?_
    exact Keeps.refl _ _
  · try dsimp -proj only
    refine KeepsO.ite ?_ ?_
    · refine KeepsO.next ?_
      exact Keeps.refl _ _
    · refine KeepsO.next ?_
      unfold withNs
      try dsimp -proj only
      try dsimp -proj only
      split
      · try dsimp -proj only
        refine Keeps.ite ?_ ?_
        · refine Keeps.via (badOpcode_keeps _ _) rfl ?_
          refine Keeps.via (setSq_keeps _ _ _ _) rfl ?_
          exact Keeps.refl _ _
        · refine Keeps.ite ?_ ?_
          · refine Keeps.via (badField_keeps _ _) rfl ?_
            refine Keeps.via (setSq_keeps _ _ _ _) rfl ?_
            exact Keeps.refl _ _
          · refine Keeps.ite ?_ ?_
            · refine Keeps.ite ?_ ?_
              · refine Keeps.via (badTransition_keeps _ _) rfl ?_
                refine Keeps.via (setSq_keeps _ _ _ _) rfl ?_
                exact Keeps.refl _ _
              · refine Keeps.ite ?_ ?_
                · refine Keeps.via (cqe_keeps _ _ _ _ _) rfl ?_
                  refine Keeps.via (setSq_keeps _ _ _ _) rfl ?_
                  exact Keeps.refl _ _
                · refine Keeps.ite ?_ ?_
                  · refine Keeps.via (cqe_keeps _ _ _ _ _) rfl ?_
                    refine Keeps.via (setSq_keeps _ _ _ _) rfl ?_
                    exact Keeps.refl _ _
                  · refine Keeps.via (cqeOk_keeps _ _) rfl ?_
                    refine Keeps.foldl (fun x1 _ => ?_) ?_
                    · refine Keeps.via (setZone_keeps _ _ _ _) rfl ?_
                      exact Keeps.refl _ _
                    · refine Keeps.via (setSq_keeps _ _ _ _) rfl ?_
                      exact Keeps.refl _ _
            · refine Keeps.ite ?_ ?_
              · refine Keeps.via (badField_keeps _ _) rfl ?_
                refine Keeps.via (setSq_keeps _ _ _ _) rfl ?_
                exact Keeps.refl _ _
              · refine Keeps.ite ?_ ?_
                · refine Keeps.via (badTransition_keeps _ _) rfl ?_
                  refine Keeps.via (setSq_keeps _ _ _ _) rfl ?_
                  exact Keeps.refl _ _
                · refine Keeps.ite ?_ ?_
                  · refine Keeps.via (cqe_keeps _ _ _ _ _) rfl ?_
                    refine Keeps.via (setSq_keeps _ _ _ _) rfl ?_
                    exact Keeps.refl _ _
                  · refine Keeps.ite ?_ ?_
                    · refine Keeps.via (cqe_keeps _ _ _ _ _) rfl ?_
                      refine Keeps.via (setSq_keeps _ _ _ _) rfl ?_
                      exact Keeps.refl _ _
                    · refine Keeps.via (cqeOk_keeps _ _) rfl ?_
                      refine Keeps.foldl (fun x2 _ => ?_) ?_
                      · refine Keeps.via (setZone_keeps _ _ _ _) rfl ?_
                        exact Keeps.refl _ _
                      · refine Keeps.via (setSq_keeps _ _ _ _) rfl ?_
                        exact Keeps.refl _ _
      · try dsimp -proj only
        refine Keeps.via (badNs_keeps _ _) rfl ?_
        refine Keeps.via (setSq_keeps _ _ _ _) rfl ?_
        exact Keeps.refl _ _

theorem submitWrite_keeps : ∀ a0 a1 a2 a3 a4, Keeps 222524112 a0 (submitWrite a0 a1 a2 a3 a4) := by
  intro a0 a1 a2 a3 a4
  unfold submitWrite
  refine Keeps.via (submitOne_keeps _ _ _) rfl ?_
  exact Keeps.refl _ _

theorem zoneWrite_keeps : ∀ a0 a1 a2 a3 a4, Keeps 222524112 a0 (zoneWrite a0 a1 a2 a3 a4) := by
  intro a0 a1 a2 a3 a4
  unfold zoneWrite
  try dsimp -proj only
  split
  · refine Keeps.via (cqe_keeps _ _ _ _ _) rfl ?_
    exact Keeps.refl _ _
  · refine Keeps.via (submitWrite_keeps _ _ _ _ _) rfl ?_
    refine Keeps.ite ?_ ?_
    · refine Keeps.via (advanceZone_keeps _ _ _ _ _) rfl ?_
      exact Keeps.refl _ _
    · exact Keeps.refl _ _

theorem execZoneAppend_keeps : ∀ a0 a1 a2, KeepsO 222524112 a2 (execZoneAppend a0 a1 a2) := by
  intro a0 a1 a2
  unfold execZoneAppend
  unfold nvmeCmd
  try dsimp -proj only
  try dsimp -proj only
  split
  · try dsimp -proj only
    refine KeepsO.next ?_
    exact Keeps.refl _ _
  · try dsimp -proj only
    refine KeepsO.ite ?_ ?_
    · refine KeepsO.next ?_
      exact Keeps.refl _ _
    · refine KeepsO.next ?_
      unfold withWrite
      try dsimp -proj only
      unfold withNs
      try dsimp -proj only
      try dsimp -proj only
      split
      · try dsimp -proj only
        refine Keeps.ite ?_ ?_
        · refine Keeps.via (notReadyNs_keeps _ _) rfl ?_
          refine Keeps.via (setSq_keeps _ _ _ _) rfl ?_
          exact Keeps.refl _ _
        · refine Keeps.ite ?_ ?_
          · refine Keeps.via (badOpcode_keeps _ _) rfl ?_
            refine Keeps.via (setSq_keeps _ _ _ _) rfl ?_
            exact Keeps.refl _ _
          · refine Keeps.ite ?_ ?_
            · refine Keeps.via (badField_keeps _ _) rfl ?_
              refine Keeps.via (setSq_keeps _ _ _ _) rfl ?_
              exact Keeps.refl _ _
            · refine Keeps.ite ?_ ?_
              · refine Keeps.via (cqe_keeps _ _ _ _ _) rfl ?_
                refine Keeps.via (setSq_keeps _ _ _ _) rfl ?_
                exact Keeps.refl _ _
              · refine Keeps.ite ?_ ?_
                · refine Keeps.via (cqe_keeps _ _ _ _ _) rfl ?_
                  refine Keeps.via (setSq_keeps _ _ _ _) rfl ?_
                  exact Keeps.refl _ _
                · refine Keeps.via (zoneWrite_keeps _ _ _ _ _) rfl ?_
                  refine Keeps.via (setSq_keeps _ _ _ _) rfl ?_
                  exact Keeps.refl _ _
      · try dsimp -proj only
        refine Keeps.via (badNs_keeps _ _) rfl ?_
        refine Keeps.via (setSq_keeps _ _ _ _) rfl ?_
        exact Keeps.refl _ _

theorem execDatasetManagement_keeps : ∀ a0 a1 a2 a3, KeepsO 222524112 a3 (execDatasetManagement a0 a1 a2 a3) := by
  intro a0 a1 a2 a3
  unfold execDatasetManagement
  unfold nvmeCmd
  try dsimp -proj only
  try dsimp -proj only
  split
  · try dsimp -proj only
    refine KeepsO.next ?_
    exact Keeps.refl _ _
  · try dsimp -proj only
    refine KeepsO.ite ?_ ?_
    · refine KeepsO.next ?_
      exact Keeps.refl _ _
    · refine KeepsO.next ?_
      unfold withWrite
      try dsimp -proj only
      unfold withNs
      try dsimp -proj only
      try dsimp -proj only
      split
      · try dsimp -proj only
        refine Keeps.ite ?_ ?_
        · refine Keeps.via (notReadyNs_keeps _ _) rfl ?_
          refine Keeps.via (setSq_keeps _ _ _ _) rfl ?_
          exact Keeps.refl _ _
        · refine Keeps.ite ?_ ?_
          · refine Keeps.via (badOpcode_keeps _ _) rfl ?_
            refine Keeps.via (setSq_keeps _ _ _ _) rfl ?_
            exact Keeps.refl _ _
          · refine Keeps.ite ?_ ?_
            · refine Keeps.via (cqeOk_keeps _ _) rfl ?_
              refine Keeps.via (setSq_keeps _ _ _ _) rfl ?_
              exact Keeps.refl _ _
            · refine Keeps.via (submitAll_keeps _ _ _) rfl ?_
              refine Keeps.via (setSq_keeps _ _ _ _) rfl ?_
              exact Keeps.refl _ _
      · try dsimp -proj only
        refine Keeps.via (badNs_keeps _ _) rfl ?_
        refine Keeps.via (setSq_keeps _ _ _ _) rfl ?_
        exact Keeps.refl _ _

theorem execWriteZeroes_keeps : ∀ a0 a1 a2, KeepsO 222524112 a2 (execWriteZeroes a0 a1 a2) := by
  intro a0 a1 a2
  unfold execWriteZeroes
  unfold nvmeCmd
  try dsimp -proj only
  try dsimp -proj only
  split
  · try dsimp -proj only
    refine KeepsO.next ?_
    exact Keeps.refl _ _
  · try dsimp -proj only
    refine KeepsO.ite ?_ ?_
    · refine KeepsO.next ?_
      exact Keeps.refl _ _
    · refine KeepsO.next ?_
      unfold withWrite
      try dsimp -proj only
      unfold withNs
      try dsimp -proj only
      try dsimp -proj only
      split
      · try dsimp -proj only
        refine Keeps.ite ?_ ?_
        · refine Keeps.via (notReadyNs_keeps _ _) rfl ?_
          refine Keeps.via (setSq_keeps _ _ _ _) rfl ?_
          exact Keeps.refl _ _
        · refine Keeps.ite ?_ ?_
          · refine Keeps.via (badOpcode_keeps _ _) rfl ?_
            refine Keeps.via (setSq_keeps _ _ _ _) rfl ?_
            exact Keeps.refl _ _
          · refine Keeps.via (submitOne_keeps _ _ _) rfl ?_
            refine Keeps.via (setSq_keeps _ _ _ _) rfl ?_
            exact Keeps.refl _ _
      · try dsimp -proj only
        refine Keeps.via (badNs_keeps _ _) rfl ?_
        refine Keeps.via (setSq_keeps _ _ _ _) rfl ?_
        exact Keeps.refl _ _

theorem execFlush_keeps : ∀ a0 a1 a2, KeepsO 222524112 a2 (execFlush a0 a1 a2) := by
  intro a0 a1 a2
  unfold execFlush
  unfold nvmeCmd
  try dsimp -proj only
  try dsimp -proj only
  split
  · try dsimp -proj only
    refine KeepsO.next ?_
    exact Keeps.refl _ _
  · try dsimp -proj only
    refine KeepsO.ite ?_ ?_
    · refine KeepsO.next ?_
      exact Keeps.refl _ _
    · refine KeepsO.next ?_
      unfold withNs
      try dsimp -proj only
      try dsimp -proj only
      split
      · try dsimp -proj only
        refine Keeps.via (submitOne_keeps _ _ _) rfl ?_
        refine Keeps.via (setSq_keeps _ _ _ _) rfl ?_
        exact Keeps.refl _ _
      · try dsimp -proj only
        refine Keeps.via (badNs_keeps _ _) rfl ?_
        refine Keeps.via (setSq_keeps _ _ _ _) rfl ?_
        exact Keeps.refl _ _

theorem execNvmeWrite_keeps : ∀ a0 a1 a2, KeepsO 222524112 a2 (execNvmeWrite a0 a1 a2) := by
  intro a0 a1 a2
  unfold execNvmeWrite
  unfold nvmeCmd
  try dsimp -proj only
  try dsimp -proj only
  split
  · try dsimp -proj only
    refine KeepsO.next ?_
    exact Keeps.refl _ _
  · try dsimp -proj only
    refine KeepsO.ite ?_ ?_
    · refine KeepsO.next ?_
      exact Keeps.refl _ _
    · refine KeepsO.next ?_
      unfold withWrite
      try dsimp -proj only
      unfold withNs
      try dsimp -proj only
      try dsimp -proj only
      split
      · try dsimp -proj only
        refine Keeps.ite ?_ ?_
        · refine Keeps.via (notReadyNs_keeps _ _) rfl ?_
          refine Keeps.via (setSq_keeps _ _ _ _) rfl ?_
          exact Keeps.refl _ _
        · refine Keeps.ite ?_ ?_
          · refine Keeps.via (badField_keeps _ _) rfl ?_
            refine Keeps.via (setSq_keeps _ _ _ _) rfl ?_
            exact Keeps.refl _ _
          · refine Keeps.ite ?_ ?_
            · refine Keeps.via (submitWrite_keeps _ _ _ _ _) rfl ?_
              refine Keeps.via (setSq_keeps _ _ _ _) rfl ?_
              exact Keeps.refl _ _
            · refine Keeps.ite ?_ ?_
              · refine Keeps.via (cqe_keeps _ _ _ _ _) rfl ?_
                refine Keeps.via (setSq_keeps _ _ _ _) rfl ?_
                exact Keeps.refl _ _
              · refine Keeps.via (zoneWrite_keeps _ _ _ _ _) rfl ?_
                refine Keeps.via (setSq_keeps _ _ _ _) rfl ?_
                exact Keeps.refl _ _
      · try dsimp -proj only
        refine Keeps.via (badNs_keeps _ _) rfl ?_
        refine Keeps.via (setSq_keeps _ _ _ _) rfl ?_
        exact Keeps.refl _ _

theorem execNvmeRead_keeps : ∀ a0 a1 a2, KeepsO 222524112 a2 (execNvmeRead a0 a1 a2) := by
  intro a0 a1 a2
  unfold execNvmeRead
  unfold nvmeCmd
  try dsimp -proj only
  try dsimp -proj only
  split
  · try dsimp -proj only
    refine KeepsO.next ?_
    exact Keeps.refl _ _
  · try dsimp -proj only
    refine KeepsO.ite ?_ ?_
    · refine KeepsO.next ?_
      exact Keeps.refl _ _
    · refine KeepsO.next ?_
      unfold withNs
      try dsimp -proj only
      try dsimp -proj only
      split
      · try dsimp -proj only
        refine Keeps.ite ?_ ?_
        · refine Keeps.via (badField_keeps _ _) rfl ?_
          refine Keeps.via (setSq_keeps _ _ _ _) rfl ?_
          exact Keeps.refl _ _
        · refine Keeps.via (submitOne_keeps _ _ _) rfl ?_
          refine Keeps.via (setSq_keeps _ _ _ _) rfl ?_
          exact Keeps.refl _ _
      · try dsimp -proj only
        refine Keeps.via (badNs_keeps _ _) rfl ?_
        refine Keeps.via (setSq_keeps _ _ _ _) rfl ?_
        exact Keeps.refl _ _

theorem execInvalidCommandOpcode_keeps : ∀ a0 a1 a2, KeepsO 67313664 a2 (execInvalidCommandOpcode a0 a1 a2) := by
  intro a0 a1 a2
  unfold execInvalidCommandOpcode
  unfold nvmeCmd
  try dsimp -proj only
  try dsimp -proj only
  split
  · try dsimp -proj only
    refine KeepsO.next ?_
    exact Keeps.refl _ _
  · try dsimp -proj only
    refine KeepsO.ite ?_ ?_
    · refine KeepsO.next ?_
      exact Keeps.refl _ _
    · refine KeepsO.next ?_
      refine Keeps.via (badOpcode_keeps _ _) rfl ?_
      refine Keeps.via (setSq_keeps _ _ _ _) rfl ?_
      exact Keeps.refl _ _

theorem execSanitize_keeps : ∀ a0 a1, KeepsO 222524112 a1 (execSanitize a0 a1) := by
  intro a0 a1
  unfold execSanitize
  unfold adminCmd
  try dsimp -proj only
  unfold nvmeCmd
  try dsimp -proj only
  try dsimp -proj only
  split
  · try dsimp -proj only
    refine KeepsO.next ?_
    exact Keeps.refl _ _
  · try dsimp -proj only
    refine KeepsO.ite ?_ ?_
    · refine KeepsO.next ?_
      exact Keeps.refl _ _
    · refine KeepsO.next ?_
      refine Keeps.ite ?_ ?_
      · refine Keeps.via (badOpcode_keeps _ _) rfl ?_
        refine Keeps.via (setSq_keeps _ _ _ _) rfl ?_
        exact Keeps.refl _ _
      · split
        · try dsimp -proj only
          refine Keeps.via (cqeOk_keeps _ _) rfl ?_
          refine Keeps.via (setSq_keeps _ _ _ _) rfl ?_
          exact Keeps.refl _ _
        · try dsimp -proj only
          refine Keeps.via (submitAll_keeps _ _ _) rfl ?_
          refine Keeps.via (setSq_keeps _ _ _ _) rfl ?_
          exact Keeps.refl _ _
        · try dsimp -proj only
          refine Keeps.ite ?_ ?_
          · refine Keeps.via (cqeOk_keeps _ _) rfl ?_
            refine Keeps.via (setSq_keeps _ _ _ _) rfl ?_
            exact Keeps.refl _ _
          · refine Keeps.foldl (fun x1 _ => ?_) ?_
            · refine Keeps.via (keyAsk_keeps _ _) rfl ?_
              exact Keeps.refl _ _
            · refine Keeps.via (addCmd_keeps _ _) rfl ?_
              refine Keeps.via (setSq_keeps _ _ _ _) rfl ?_
              exact Keeps.refl _ _
        · try dsimp -proj only
          refine Keeps.via (badField_keeps _ _) rfl ?_
          refine Keeps.via (setSq_keeps _ _ _ _) rfl ?_
          exact Keeps.refl _ _

theorem execFormatNvm_keeps : ∀ a0 a1, KeepsO 222524112 a1 (execFormatNvm a0 a1) := by
  intro a0 a1
  unfold execFormatNvm
  unfold adminCmd
  try dsimp -proj only
  unfold nvmeCmd
  try dsimp -proj only
  try dsimp -proj only
  split
  · try dsimp -proj only
    refine KeepsO.next ?_
    exact Keeps.refl _ _
  · try dsimp -proj only
    refine KeepsO.ite ?_ ?_
    · refine KeepsO.next ?_
      exact Keeps.refl _ _
    · refine KeepsO.next ?_
      refine Keeps.ite ?_ ?_
      · refine Keeps.via (badOpcode_keeps _ _) rfl ?_
        refine Keeps.via (setSq_keeps _ _ _ _) rfl ?_
        exact Keeps.refl _ _
      · refine Keeps.ite ?_ ?_
        · refine Keeps.via (cqe_keeps _ _ _ _ _) rfl ?_
          refine Keeps.via (setSq_keeps _ _ _ _) rfl ?_
          exact Keeps.refl _ _
        · refine Keeps.ite ?_ ?_
          · refine Keeps.via (badField_keeps _ _) rfl ?_
            refine Keeps.via (setSq_keeps _ _ _ _) rfl ?_
            exact Keeps.refl _ _
          · refine Keeps.ite ?_ ?_
            · refine Keeps.via (badNs_keeps _ _) rfl ?_
              refine Keeps.via (setSq_keeps _ _ _ _) rfl ?_
              exact Keeps.refl _ _
            · refine Keeps.ite ?_ ?_
              · refine Keeps.via (submitAll_keeps _ _ _) rfl ?_
                refine Keeps.via (setSq_keeps _ _ _ _) rfl ?_
                exact Keeps.refl _ _
              · refine Keeps.ite ?_ ?_
                · refine Keeps.via (badField_keeps _ _) rfl ?_
                  refine Keeps.via (setSq_keeps _ _ _ _) rfl ?_
                  exact Keeps.refl _ _
                · refine Keeps.foldl (fun x1 _ => ?_) ?_
                  · refine Keeps.via (keyAsk_keeps _ _) rfl ?_
                    exact Keeps.refl _ _
                  · refine Keeps.via (addCmd_keeps _ _) rfl ?_
                    refine Keeps.via (setSq_keeps _ _ _ _) rfl ?_
                    exact Keeps.refl _ _

theorem execNvmeMiReceive_keeps : ∀ a0 a1, KeepsO 67313668 a1 (execNvmeMiReceive a0 a1) := by
  intro a0 a1
  unfold execNvmeMiReceive
  unfold adminCmd
  try dsimp -proj only
  unfold nvmeCmd
  try dsimp -proj only
  try dsimp -proj only
  split
  · try dsimp -proj only
    refine KeepsO.next ?_
    exact Keeps.refl _ _
  · try dsimp -proj only
    refine KeepsO.ite ?_ ?_
    · refine KeepsO.next ?_
      exact Keeps.refl _ _
    · refine KeepsO.next ?_
      refine Keeps.ite ?_ ?_
      · refine Keeps.via (badOpcode_keeps _ _) rfl ?_
        refine Keeps.via (setSq_keeps _ _ _ _) rfl ?_
        exact Keeps.refl _ _
      · refine Keeps.via (cqe_keeps _ _ _ _ _) rfl ?_
        refine Keeps.via (hostPut_keeps _ _ _) rfl ?_
        refine Keeps.via (setHif_keeps _ _) rfl ?_
        refine Keeps.via (miAnswer_keeps _ _ _ _) rfl ?_
        refine Keeps.via (setSq_keeps _ _ _ _) rfl ?_
        exact Keeps.refl _ _

theorem execNvmeMiSend_keeps : ∀ a0 a1, KeepsO 67313668 a1 (execNvmeMiSend a0 a1) := by
  intro a0 a1
  unfold execNvmeMiSend
  unfold adminCmd
  try dsimp -proj only
  unfold nvmeCmd
  try dsimp -proj only
  try dsimp -proj only
  split
  · try dsimp -proj only
    refine KeepsO.next ?_
    exact Keeps.refl _ _
  · try dsimp -proj only
    refine KeepsO.ite ?_ ?_
    · refine KeepsO.next ?_
      exact Keeps.refl _ _
    · refine KeepsO.next ?_
      refine Keeps.ite ?_ ?_
      · refine Keeps.via (badOpcode_keeps _ _) rfl ?_
        refine Keeps.via (setSq_keeps _ _ _ _) rfl ?_
        exact Keeps.refl _ _
      · refine Keeps.via (cqe_keeps _ _ _ _ _) rfl ?_
        refine Keeps.via (setHif_keeps _ _) rfl ?_
        refine Keeps.via (miAnswer_keeps _ _ _ _) rfl ?_
        refine Keeps.via (setSq_keeps _ _ _ _) rfl ?_
        exact Keeps.refl _ _

theorem execVirtualizationManagement_keeps : ∀ a0 a1, KeepsO 67313664 a1 (execVirtualizationManagement a0 a1) := by
  intro a0 a1
  unfold execVirtualizationManagement
  unfold adminCmd
  try dsimp -proj only
  unfold nvmeCmd
  try dsimp -proj only
  try dsimp -proj only
  split
  · try dsimp -proj only
    refine KeepsO.next ?_
    exact Keeps.refl _ _
  · try dsimp -proj only
    refine KeepsO.ite ?_ ?_
    · refine KeepsO.next ?_
      exact Keeps.refl _ _
    · refine KeepsO.next ?_
      refine Keeps.ite ?_ ?_
      · refine Keeps.via (badOpcode_keeps _ _) rfl ?_
        refine Keeps.via (setSq_keeps _ _ _ _) rfl ?_
        exact Keeps.refl _ _
      · try dsimp -proj only
        split
        · try dsimp -proj only
          refine Keeps.via (cqe_keeps _ _ _ _ _) rfl ?_
          refine Keeps.via (setSq_keeps _ _ _ _) rfl ?_
          exact Keeps.refl _ _
        · try dsimp -proj only
          refine Keeps.ite ?_ ?_
          · refine Keeps.via (cqeOk_keeps _ _) rfl ?_
            refine Keeps.via (setCtrl_keeps _ _ _) rfl ?_
            refine Keeps.via (setSq_keeps _ _ _ _) rfl ?_
            exact Keeps.refl _ _
          · refine Keeps.via (cqe_keeps _ _ _ _ _) rfl ?_
            refine Keeps.via (setSq_keeps _ _ _ _) rfl ?_
            exact Keeps.refl _ _
        · try dsimp -proj only
          refine Keeps.ite ?_ ?_
          · refine Keeps.via (cqe_keeps _ _ _ _ _) rfl ?_
            refine Keeps.via (setSq_keeps _ _ _ _) rfl ?_
            exact Keeps.refl _ _
          · refine Keeps.ite ?_ ?_
            · refine Keeps.via (cqe_keeps _ _ _ _ _) rfl ?_
              refine Keeps.via (setSq_keeps _ _ _ _) rfl ?_
              exact Keeps.refl _ _
            · refine Keeps.ite ?_ ?_
              · refine Keeps.ite ?_ ?_
                · refine Keeps.via (cqe_keeps _ _ _ _ _) rfl ?_
                  refine Keeps.via (setSq_keeps _ _ _ _) rfl ?_
                  exact Keeps.refl _ _
                · refine Keeps.via (cqe_keeps _ _ _ _ _) rfl ?_
                  refine Keeps.via (setCtrl_keeps _ _ _) rfl ?_
                  refine Keeps.via (setSq_keeps _ _ _ _) rfl ?_
                  exact Keeps.refl _ _
              · refine Keeps.ite ?_ ?_
                · refine Keeps.ite ?_ ?_
                  · refine Keeps.via (cqe_keeps _ _ _ _ _) rfl ?_
                    refine Keeps.via (setSq_keeps _ _ _ _) rfl ?_
                    exact Keeps.refl _ _
                  · refine Keeps.via (cqe_keeps _ _ _ _ _) rfl ?_
                    refine Keeps.via (setSq_keeps _ _ _ _) rfl ?_
                    exact Keeps.refl _ _
                · refine Keeps.via (cqe_keeps _ _ _ _ _) rfl ?_
                  refine Keeps.via (setSq_keeps _ _ _ _) rfl ?_
                  exact Keeps.refl _ _
        · try dsimp -proj only
          refine Keeps.ite ?_ ?_
          · refine Keeps.via (cqeOk_keeps _ _) rfl ?_
            refine Keeps.via (setCtrl_keeps _ _ _) rfl ?_
            refine Keeps.via (setSq_keeps _ _ _ _) rfl ?_
            exact Keeps.refl _ _
          · refine Keeps.via (cqe_keeps _ _ _ _ _) rfl ?_
            refine Keeps.via (setSq_keeps _ _ _ _) rfl ?_
            exact Keeps.refl _ _
        · try dsimp -proj only
          refine Keeps.via (badField_keeps _ _) rfl ?_
          refine Keeps.via (setSq_keeps _ _ _ _) rfl ?_
          exact Keeps.refl _ _

theorem execDeviceSelfTest_keeps : ∀ a0 a1, KeepsO 67837952 a1 (execDeviceSelfTest a0 a1) := by
  intro a0 a1
  unfold execDeviceSelfTest
  unfold adminCmd
  try dsimp -proj only
  unfold nvmeCmd
  try dsimp -proj only
  try dsimp -proj only
  split
  · try dsimp -proj only
    refine KeepsO.next ?_
    exact Keeps.refl _ _
  · try dsimp -proj only
    refine KeepsO.ite ?_ ?_
    · refine KeepsO.next ?_
      exact Keeps.refl _ _
    · refine KeepsO.next ?_
      refine Keeps.ite ?_ ?_
      · refine Keeps.via (badOpcode_keeps _ _) rfl ?_
        refine Keeps.via (setSq_keeps _ _ _ _) rfl ?_
        exact Keeps.refl _ _
      · refine Keeps.ite ?_ ?_
        · refine Keeps.ite ?_ ?_
          · refine Keeps.via (cqe_keeps _ _ _ _ _) rfl ?_
            refine Keeps.via (setSq_keeps _ _ _ _) rfl ?_
            exact Keeps.refl _ _
          · refine Keeps.via (cqeOk_keeps _ _) rfl ?_
            refine Keeps.via (feedQueue_keeps _) rfl ?_
            refine Keeps.via (setTst_keeps _ _) rfl ?_
            refine Keeps.via (setSq_keeps _ _ _ _) rfl ?_
            exact Keeps.refl _ _
        · refine Keeps.ite ?_ ?_
          · refine Keeps.via (cqeOk_keeps _ _) rfl ?_
            refine Keeps.via (setTst_keeps _ _) rfl ?_
            refine Keeps.via (setSq_keeps _ _ _ _) rfl ?_
            exact Keeps.refl _ _
          · refine Keeps.via (badField_keeps _ _) rfl ?_
            refine Keeps.via (setSq_keeps _ _ _ _) rfl ?_
            exact Keeps.refl _ _

theorem execFirmwareImageDownload_keeps : ∀ a0 a1 a2, KeepsO 67575824 a2 (execFirmwareImageDownload a0 a1 a2) := by
  intro a0 a1 a2
  unfold execFirmwareImageDownload
  unfold adminCmd
  try dsimp -proj only
  unfold nvmeCmd
  try dsimp -proj only
  try dsimp -proj only
  split
  · try dsimp -proj only
    refine KeepsO.next ?_
    exact Keeps.refl _ _
  · try dsimp -proj only
    refine KeepsO.ite ?_ ?_
    · refine KeepsO.next ?_
      exact Keeps.refl _ _
    · refine KeepsO.next ?_
      refine Keeps.ite ?_ ?_
      · refine Keeps.via (badOpcode_keeps _ _) rfl ?_
        refine Keeps.via (setSq_keeps _ _ _ _) rfl ?_
        exact Keeps.refl _ _
      · refine Keeps.ite ?_ ?_
        · refine Keeps.via (badField_keeps _ _) rfl ?_
          refine Keeps.via (setSq_keeps _ _ _ _) rfl ?_
          exact Keeps.refl _ _
        · refine Keeps.ite ?_ ?_
          · refine Keeps.via (cqe_keeps _ _ _ _ _) rfl ?_
            refine Keeps.via (setSq_keeps _ _ _ _) rfl ?_
            exact Keeps.refl _ _
          · refine Keeps.ite ?_ ?_
            · refine Keeps.via (badField_keeps _ _) rfl ?_
              refine Keeps.via (setSq_keeps _ _ _ _) rfl ?_
              exact Keeps.refl _ _
            · try dsimp -proj only
              split
              · try dsimp -proj only
                refine Keeps.via (cqe_keeps _ _ _ _ _) rfl ?_
                refine Keeps.via (badStaging_keeps _ _) rfl ?_
                refine Keeps.via (setSq_keeps _ _ _ _) rfl ?_
                exact Keeps.refl _ _
              · try dsimp -proj only
                refine Keeps.via (cqeOk_keeps _ _) rfl ?_
                refine Keeps.via (setUpd_keeps _ _) rfl ?_
                refine Keeps.via (setSq_keeps _ _ _ _) rfl ?_
                exact Keeps.refl _ _

theorem execFirmwareCommit_keeps : ∀ a0 a1, KeepsO 67575808 a1 (execFirmwareCommit a0 a1) := by
  intro a0 a1
  unfold execFirmwareCommit
  unfold adminCmd
  try dsimp -proj only
  unfold nvmeCmd
  try dsimp -proj only
  try dsimp -proj only
  split
  · try dsimp -proj only
    refine KeepsO.next ?_
    exact Keeps.refl _ _
  · try dsimp -proj only
    refine KeepsO.ite ?_ ?_
    · refine KeepsO.next ?_
      exact Keeps.refl _ _
    · refine KeepsO.next ?_
      refine Keeps.ite ?_ ?_
      · refine Keeps.via (badOpcode_keeps _ _) rfl ?_
        refine Keeps.via (setSq_keeps _ _ _ _) rfl ?_
        exact Keeps.refl _ _
      · refine Keeps.ite ?_ ?_
        · refine Keeps.via (badField_keeps _ _) rfl ?_
          refine Keeps.via (setSq_keeps _ _ _ _) rfl ?_
          exact Keeps.refl _ _
        · refine Keeps.ite ?_ ?_
          · refine Keeps.via (cqe_keeps _ _ _ _ _) rfl ?_
            refine Keeps.via (setSq_keeps _ _ _ _) rfl ?_
            exact Keeps.refl _ _
          · refine Keeps.ite ?_ ?_
            · refine Keeps.via (cqe_keeps _ _ _ _ _) rfl ?_
              refine Keeps.via (setSq_keeps _ _ _ _) rfl ?_
              exact Keeps.refl _ _
            · refine Keeps.ite ?_ ?_
              · refine Keeps.via (cqe_keeps _ _ _ _ _) rfl ?_
                refine Keeps.via (setSq_keeps _ _ _ _) rfl ?_
                exact Keeps.refl _ _
              · refine Keeps.ite ?_ ?_
                · refine Keeps.ite ?_ ?_
                  · refine Keeps.via (cqeOk_keeps _ _) rfl ?_
                    refine Keeps.via (activateSlot_keeps _ _) rfl ?_
                    refine Keeps.via (setSq_keeps _ _ _ _) rfl ?_
                    exact Keeps.refl _ _
                  · refine Keeps.via (cqe_keeps _ _ _ _ _) rfl ?_
                    refine Keeps.via (setSq_keeps _ _ _ _) rfl ?_
                    exact Keeps.refl _ _
                · split
                  · rename_i y1_0 y1_1 h1
                    have k1 : Keeps 67575808 a1 y1_0 := by
                      refine Keeps.fst h1 ?_
                      refine Keeps.via (writeSlot_keeps _ _) rfl ?_
                      refine Keeps.via (setSq_keeps _ _ _ _) rfl ?_
                      exact Keeps.refl _ _
                    try dsimp -proj only
                    refine Keeps.via (cqe_keeps _ _ _ _ _) rfl ?_
                    exact k1
                  · rename_i y2_0 h2
                    have k2 : Keeps 67575808 a1 y2_0 := by
                      refine Keeps.fst h2 ?_
                      refine Keeps.via (writeSlot_keeps _ _) rfl ?_
                      refine Keeps.via (setSq_keeps _ _ _ _) rfl ?_
                      exact Keeps.refl _ _
                    try dsimp -proj only
                    refine Keeps.via (cqeOk_keeps _ _) rfl ?_
                    refine Keeps.ite ?_ ?_
                    · refine Keeps.via (activateSlot_keeps _ _) rfl ?_
                      exact k2
                    · exact k2

theorem execNamespaceAttachment_keeps : ∀ a0 a1 a2, KeepsO 85139456 a2 (execNamespaceAttachment a0 a1 a2) := by
  intro a0 a1 a2
  unfold execNamespaceAttachment
  unfold adminCmd
  try dsimp -proj only
  unfold nvmeCmd
  try dsimp -proj only
  try dsimp -proj only
  split
  · try dsimp -proj only
    refine KeepsO.next ?_
    exact Keeps.refl _ _
  · try dsimp -proj only
    refine KeepsO.ite ?_ ?_
    · refine KeepsO.next ?_
      exact Keeps.refl _ _
    · refine KeepsO.next ?_
      refine Keeps.ite ?_ ?_
      · refine Keeps.via (badOpcode_keeps _ _) rfl ?_
        refine Keeps.via (setSq_keeps _ _ _ _) rfl ?_
        exact Keeps.refl _ _
      · try dsimp -proj only
        split
        · try dsimp -proj only
          refine Keeps.via (badNs_keeps _ _) rfl ?_
          refine Keeps.via (setSq_keeps _ _ _ _) rfl ?_
          exact Keeps.refl _ _
        · try dsimp -proj only
          refine Keeps.ite ?_ ?_
          · refine Keeps.via (cqe_keeps _ _ _ _ _) rfl ?_
            refine Keeps.via (setSq_keeps _ _ _ _) rfl ?_
            exact Keeps.refl _ _
          · refine Keeps.ite ?_ ?_
            · refine Keeps.ite ?_ ?_
              · refine Keeps.via (cqe_keeps _ _ _ _ _) rfl ?_
                refine Keeps.via (setSq_keeps _ _ _ _) rfl ?_
                exact Keeps.refl _ _
              · refine Keeps.via (cqeOk_keeps _ _) rfl ?_
                refine Keeps.foldl (fun x1 _ => ?_) ?_
                · refine Keeps.via (attachNs_keeps _ _ _) rfl ?_
                  exact Keeps.refl _ _
                · refine Keeps.via (setSq_keeps _ _ _ _) rfl ?_
                  exact Keeps.refl _ _
            · refine Keeps.ite ?_ ?_
              · refine Keeps.ite ?_ ?_
                · refine Keeps.via (cqe_keeps _ _ _ _ _) rfl ?_
                  refine Keeps.via (setSq_keeps _ _ _ _) rfl ?_
                  exact Keeps.refl _ _
                · refine Keeps.via (cqeOk_keeps _ _) rfl ?_
                  refine Keeps.foldl (fun x2 _ => ?_) ?_
                  · refine Keeps.via (detachNs_keeps _ _ _) rfl ?_
                    exact Keeps.refl _ _
                  · refine Keeps.via (setSq_keeps _ _ _ _) rfl ?_
                    exact Keeps.refl _ _
              · refine Keeps.via (badField_keeps _ _) rfl ?_
                refine Keeps.via (setSq_keeps _ _ _ _) rfl ?_
                exact Keeps.refl _ _

theorem execNamespaceManagement_keeps : ∀ a0 a1 a2, KeepsO 256081648 a2 (execNamespaceManagement a0 a1 a2) := by
  intro a0 a1 a2
  unfold execNamespaceManagement
  unfold adminCmd
  try dsimp -proj only
  unfold nvmeCmd
  try dsimp -proj only
  try dsimp -proj only
  split
  · try dsimp -proj only
    refine KeepsO.next ?_
    exact Keeps.refl _ _
  · try dsimp -proj only
    refine KeepsO.ite ?_ ?_
    · refine KeepsO.next ?_
      exact Keeps.refl _ _
    · refine KeepsO.next ?_
      refine Keeps.ite ?_ ?_
      · refine Keeps.via (badOpcode_keeps _ _) rfl ?_
        refine Keeps.via (setSq_keeps _ _ _ _) rfl ?_
        exact Keeps.refl _ _
      · refine Keeps.ite ?_ ?_
        · refine Keeps.ite ?_ ?_
          · refine Keeps.via (cqe_keeps _ _ _ _ _) rfl ?_
            refine Keeps.via (setSq_keeps _ _ _ _) rfl ?_
            exact Keeps.refl _ _
          · refine Keeps.ite ?_ ?_
            · refine Keeps.via (badField_keeps _ _) rfl ?_
              refine Keeps.via (setSq_keeps _ _ _ _) rfl ?_
              exact Keeps.refl _ _
            · split
              · try dsimp -proj only
                refine Keeps.via (cqe_keeps _ _ _ _ _) rfl ?_
                refine Keeps.via (setSq_keeps _ _ _ _) rfl ?_
                exact Keeps.refl _ _
              · try dsimp -proj only
                refine Keeps.via (cqe_keeps _ _ _ _ _) rfl ?_
                refine Keeps.via (setSq_keeps _ _ _ _) rfl ?_
                exact Keeps.refl _ _
              · try dsimp -proj only
                refine Keeps.via (cqe_keeps _ _ _ _ _) rfl ?_
                refine Keeps.via (judgeSpare_keeps _) rfl ?_
                refine Keeps.via (setFtl_keeps _ _) rfl ?_
                refine Keeps.via (setSq_keeps _ _ _ _) rfl ?_
                exact Keeps.refl _ _
        · refine Keeps.ite ?_ ?_
          · refine Keeps.ite ?_ ?_
            · refine Keeps.via (cqeOk_keeps _ _) rfl ?_
              refine Keeps.foldl (fun x1 _ => ?_) ?_
              · refine Keeps.via (deleteNs_keeps _ _) rfl ?_
                exact Keeps.refl _ _
              · refine Keeps.via (setSq_keeps _ _ _ _) rfl ?_
                exact Keeps.refl _ _
            · refine Keeps.ite ?_ ?_
              · refine Keeps.via (badNs_keeps _ _) rfl ?_
                refine Keeps.via (setSq_keeps _ _ _ _) rfl ?_
                exact Keeps.refl _ _
              · refine Keeps.via (cqeOk_keeps _ _) rfl ?_
                refine Keeps.via (deleteNs_keeps _ _) rfl ?_
                refine Keeps.via (setSq_keeps _ _ _ _) rfl ?_
                exact Keeps.refl _ _
          · refine Keeps.via (badField_keeps _ _) rfl ?_
            refine Keeps.via (setSq_keeps _ _ _ _) rfl ?_
            exact Keeps.refl _ _

theorem execAsynchronousEventRequest_keeps : ∀ a0 a1, KeepsO 67313664 a1 (execAsynchronousEventRequest a0 a1) := by
  intro a0 a1
  unfold execAsynchronousEventRequest
  unfold adminCmd
  try dsimp -proj only
  unfold nvmeCmd
  try dsimp -proj only
  try dsimp -proj only
  split
  · try dsimp -proj only
    refine KeepsO.next ?_
    exact Keeps.refl _ _
  · try dsimp -proj only
    refine KeepsO.ite ?_ ?_
    · refine KeepsO.next ?_
      exact Keeps.refl _ _
    · refine KeepsO.next ?_
      refine Keeps.ite ?_ ?_
      · refine Keeps.via (badOpcode_keeps _ _) rfl ?_
        refine Keeps.via (setSq_keeps _ _ _ _) rfl ?_
        exact Keeps.refl _ _
      · refine Keeps.ite ?_ ?_
        · refine Keeps.via (cqe_keeps _ _ _ _ _) rfl ?_
          refine Keeps.via (setSq_keeps _ _ _ _) rfl ?_
          exact Keeps.refl _ _
        · refine Keeps.via (setCtrl_keeps _ _ _) rfl ?_
          refine Keeps.via (setSq_keeps _ _ _ _) rfl ?_
          exact Keeps.refl _ _

theorem execGetFeatures_keeps : ∀ a0 a1, KeepsO 67313664 a1 (execGetFeatures a0 a1) := by
  intro a0 a1
  unfold execGetFeatures
  unfold adminCmd
  try dsimp -proj only
  unfold nvmeCmd
  try dsimp -proj only
  try dsimp -proj only
  split
  · try dsimp -proj only
    refine KeepsO.next ?_
    exact Keeps.refl _ _
  · try dsimp -proj only
    refine KeepsO.ite ?_ ?_
    · refine KeepsO.next ?_
      exact Keeps.refl _ _
    · refine KeepsO.next ?_
      refine Keeps.ite ?_ ?_
      · refine Keeps.via (badOpcode_keeps _ _) rfl ?_
        refine Keeps.via (setSq_keeps _ _ _ _) rfl ?_
        exact Keeps.refl _ _
      · split
        · try dsimp -proj only
          refine Keeps.via (badField_keeps _ _) rfl ?_
          refine Keeps.via (setSq_keeps _ _ _ _) rfl ?_
          exact Keeps.refl _ _
        · try dsimp -proj only
          refine Keeps.via (cqe_keeps _ _ _ _ _) rfl ?_
          refine Keeps.ite ?_ ?_
          · refine Keeps.via (setSq_keeps _ _ _ _) rfl ?_
            exact Keeps.refl _ _
          · refine Keeps.via (hostPut_keeps _ _ _) rfl ?_
            refine Keeps.via (setSq_keeps _ _ _ _) rfl ?_
            exact Keeps.refl _ _

theorem setStamp_keeps : ∀ a0 a1 a2, Keeps 67108896 a0 (setStamp a0 a1 a2) := by
  intro a0 a1 a2
  unfold setStamp
  refine Keeps.ite ?_ ?_
  · refine Keeps.put_evr ?_ rfl _
    refine Keeps.via (setCtrl_keeps _ _ _) rfl ?_
    exact Keeps.refl _ _
  · refine Keeps.via (setCtrl_keeps _ _ _) rfl ?_
    exact Keeps.refl _ _

theorem execSetFeatures_keeps : ∀ a0 a1 a2, KeepsO 67313712 a2 (execSetFeatures a0 a1 a2) := by
  intro a0 a1 a2
  unfold execSetFeatures
  unfold adminCmd
  try dsimp -proj only
  unfold nvmeCmd
  try dsimp -proj only
  try dsimp -proj only
  split
  · try dsimp -proj only
    refine KeepsO.next ?_
    exact Keeps.refl _ _
  · try dsimp -proj only
    refine KeepsO.ite ?_ ?_
    · refine KeepsO.next ?_
      exact Keeps.refl _ _
    · refine KeepsO.next ?_
      refine Keeps.ite ?_ ?_
      · refine Keeps.via (badOpcode_keeps _ _) rfl ?_
        refine Keeps.via (setSq_keeps _ _ _ _) rfl ?_
        exact Keeps.refl _ _
      · refine Keeps.ite ?_ ?_
        · refine Keeps.via (cqeOk_keeps _ _) rfl ?_
          refine Keeps.via (setCtrl_keeps _ _ _) rfl ?_
          refine Keeps.via (setSq_keeps _ _ _ _) rfl ?_
          exact Keeps.refl _ _
        · refine Keeps.ite ?_ ?_
          · refine Keeps.ite ?_ ?_
            · refine Keeps.via (cqe_keeps _ _ _ _ _) rfl ?_
              refine Keeps.via (setSq_keeps _ _ _ _) rfl ?_
              exact Keeps.refl _ _
            · refine Keeps.ite ?_ ?_
              · refine Keeps.via (badField_keeps _ _) rfl ?_
                refine Keeps.via (setSq_keeps _ _ _ _) rfl ?_
                exact Keeps.refl _ _
              · refine Keeps.via (groupGo_keeps _ _) rfl ?_
                refine Keeps.via (stageReg_keeps _ _ _) rfl ?_
                refine Keeps.via (addCmd_keeps _ _) rfl ?_
                refine Keeps.via (setSq_keeps _ _ _ _) rfl ?_
                exact Keeps.refl _ _
          · refine Keeps.ite ?_ ?_
            · refine Keeps.via (cqeOk_keeps _ _) rfl ?_
              refine Keeps.via (setHif_keeps _ _) rfl ?_
              refine Keeps.via (setSq_keeps _ _ _ _) rfl ?_
              exact Keeps.refl _ _
            · refine Keeps.ite ?_ ?_
              · refine Keeps.via (cqeOk_keeps _ _) rfl ?_
                refine Keeps.via (setCtrl_keeps _ _ _) rfl ?_
                refine Keeps.via (setSq_keeps _ _ _ _) rfl ?_
                exact Keeps.refl _ _
              · refine Keeps.ite ?_ ?_
                · refine Keeps.via (cqe_keeps _ _ _ _ _) rfl ?_
                  refine Keeps.via (setCtrl_keeps _ _ _) rfl ?_
                  refine Keeps.via (setSq_keeps _ _ _ _) rfl ?_
                  exact Keeps.refl _ _
                · refine Keeps.ite ?_ ?_
                  · refine Keeps.via (cqeOk_keeps _ _) rfl ?_
                    refine Keeps.via (setStamp_keeps _ _ _) rfl ?_
                    refine Keeps.via (setSq_keeps _ _ _ _) rfl ?_
                    exact Keeps.refl _ _
                  · refine Keeps.via (badField_keeps _ _) rfl ?_
                    refine Keeps.via (setSq_keeps _ _ _ _) rfl ?_
                    exact Keeps.refl _ _

theorem execAbort_keeps : ∀ a0 a1, KeepsO 222524112 a1 (execAbort a0 a1) := by
  intro a0 a1
  unfold execAbort
  unfold adminCmd
  try dsimp -proj only
  unfold nvmeCmd
  try dsimp -proj only
  try dsimp -proj only
  split
  · try dsimp -proj only
    refine KeepsO.next ?_
    exact Keeps.refl _ _
  · try dsimp -proj only
    refine KeepsO.ite ?_ ?_
    · refine KeepsO.next ?_
      exact Keeps.refl _ _
    · refine KeepsO.next ?_
      refine Keeps.ite ?_ ?_
      · refine Keeps.via (badOpcode_keeps _ _) rfl ?_
        refine Keeps.via (setSq_keeps _ _ _ _) rfl ?_
        exact Keeps.refl _ _
      · refine Keeps.ite ?_ ?_
        · refine Keeps.via (cqe_keeps _ _ _ _ _) rfl ?_
          refine Keeps.via (postCqe_keeps _ _ _ _ _ _ _ _ _ _) rfl ?_
          refine Keeps.via (bump_keeps _ _ _ _ _) rfl ?_
          refine Keeps.via (setSq_keeps _ _ _ _) rfl ?_
          refine Keeps.via (setSq_keeps _ _ _ _) rfl ?_
          exact Keeps.refl _ _
        · split
          · try dsimp -proj only
            refine Keeps.via (cqe_keeps _ _ _ _ _) rfl ?_
            refine Keeps.via (setSq_keeps _ _ _ _) rfl ?_
            exact Keeps.refl _ _
          · try dsimp -proj only
            try dsimp -proj only
            split
            · rename_i y1_0 h1
              have k1 : Keeps 222524112 a1 y1_0 := by
                refine KeepsM.of h1 ?_
                refine KeepsM.via (abortCmd_keeps _ _) rfl ?_
                refine Keeps.via (setSq_keeps _ _ _ _) rfl ?_
                exact Keeps.refl _ _
              try dsimp -proj only
              refine Keeps.via (cqe_keeps _ _ _ _ _) rfl ?_
              refine Keeps.via (postCqe_keeps _ _ _ _ _ _ _ _ _ _) rfl ?_
              refine Keeps.via (bump_keeps _ _ _ _ _) rfl ?_
              exact k1
            · try dsimp -proj only
              refine Keeps.via (cqe_keeps _ _ _ _ _) rfl ?_
              refine Keeps.via (setSq_keeps _ _ _ _) rfl ?_
              exact Keeps.refl _ _

theorem execIdentify_keeps : ∀ a0 a1, KeepsO 67313668 a1 (execIdentify a0 a1) := by
  intro a0 a1
  unfold execIdentify
  unfold adminCmd
  try dsimp -proj only
  unfold nvmeCmd
  try dsimp -proj only
  try dsimp -proj only
  split
  · try dsimp -proj only
    refine KeepsO.next ?_
    exact Keeps.refl _ _
  · try dsimp -proj only
    refine KeepsO.ite ?_ ?_
    · refine KeepsO.next ?_
      exact Keeps.refl _ _
    · refine KeepsO.next ?_
      refine Keeps.ite ?_ ?_
      · refine Keeps.via (badOpcode_keeps _ _) rfl ?_
        refine Keeps.via (setSq_keeps _ _ _ _) rfl ?_
        exact Keeps.refl _ _
      · refine Keeps.via (cqeOk_keeps _ _) rfl ?_
        refine Keeps.via (hostPut_keeps _ _ _) rfl ?_
        refine Keeps.via (drawn_keeps _) rfl ?_
        refine Keeps.via (setSq_keeps _ _ _ _) rfl ?_
        exact Keeps.refl _ _

theorem logRead_keeps : ∀ a0 a1 a2 a3, Keeps 67108864 a0 (logRead a0 a1 a2 a3) := by
  intro a0 a1 a2 a3
  unfold logRead
  try dsimp -proj only
  split
  · refine Keeps.via (setCtrl_keeps _ _ _) rfl ?_
    exact Keeps.refl _ _
  · refine Keeps.via (setCtrl_keeps _ _ _) rfl ?_
    exact Keeps.refl _ _
  · exact Keeps.refl _ _

theorem execGetLogPage_keeps : ∀ a0 a1, KeepsO 67313668 a1 (execGetLogPage a0 a1) := by
  intro a0 a1
  unfold execGetLogPage
  unfold adminCmd
  try dsimp -proj only
  unfold nvmeCmd
  try dsimp -proj only
  try dsimp -proj only
  split
  · try dsimp -proj only
    refine KeepsO.next ?_
    exact Keeps.refl _ _
  · try dsimp -proj only
    refine KeepsO.ite ?_ ?_
    · refine KeepsO.next ?_
      exact Keeps.refl _ _
    · refine KeepsO.next ?_
      refine Keeps.ite ?_ ?_
      · refine Keeps.via (badOpcode_keeps _ _) rfl ?_
        refine Keeps.via (setSq_keeps _ _ _ _) rfl ?_
        exact Keeps.refl _ _
      · try dsimp -proj only
        split
        · try dsimp -proj only
          refine Keeps.via (cqe_keeps _ _ _ _ _) rfl ?_
          refine Keeps.via (setSq_keeps _ _ _ _) rfl ?_
          exact Keeps.refl _ _
        · try dsimp -proj only
          refine Keeps.via (cqeOk_keeps _ _) rfl ?_
          refine Keeps.via (hostPut_keeps _ _ _) rfl ?_
          refine Keeps.via (logRead_keeps _ _ _ _) rfl ?_
          refine Keeps.via (drawn_keeps _) rfl ?_
          refine Keeps.via (setSq_keeps _ _ _ _) rfl ?_
          exact Keeps.refl _ _

theorem execDeleteIoCq_keeps : ∀ a0 a1, KeepsO 67313664 a1 (execDeleteIoCq a0 a1) := by
  intro a0 a1
  unfold execDeleteIoCq
  unfold adminCmd
  try dsimp -proj only
  unfold nvmeCmd
  try dsimp -proj only
  try dsimp -proj only
  split
  · try dsimp -proj only
    refine KeepsO.next ?_
    exact Keeps.refl _ _
  · try dsimp -proj only
    refine KeepsO.ite ?_ ?_
    · refine KeepsO.next ?_
      exact Keeps.refl _ _
    · refine KeepsO.next ?_
      refine Keeps.ite ?_ ?_
      · refine Keeps.via (badOpcode_keeps _ _) rfl ?_
        refine Keeps.via (setSq_keeps _ _ _ _) rfl ?_
        exact Keeps.refl _ _
      · refine Keeps.ite ?_ ?_
        · refine Keeps.via (cqe_keeps _ _ _ _ _) rfl ?_
          refine Keeps.via (setSq_keeps _ _ _ _) rfl ?_
          exact Keeps.refl _ _
        · refine Keeps.ite ?_ ?_
          · refine Keeps.via (cqe_keeps _ _ _ _ _) rfl ?_
            refine Keeps.via (setSq_keeps _ _ _ _) rfl ?_
            exact Keeps.refl _ _
          · refine Keeps.via (cqeOk_keeps _ _) rfl ?_
            refine Keeps.via (setCtrl_keeps _ _ _) rfl ?_
            refine Keeps.via (setSq_keeps _ _ _ _) rfl ?_
            exact Keeps.refl _ _

theorem execCreateIoCq_keeps : ∀ a0 a1, KeepsO 67313664 a1 (execCreateIoCq a0 a1) := by
  intro a0 a1
  unfold execCreateIoCq
  unfold adminCmd
  try dsimp -proj only
  unfold nvmeCmd
  try dsimp -proj only
  try dsimp -proj only
  split
  · try dsimp -proj only
    refine KeepsO.next ?_
    exact Keeps.refl _ _
  · try dsimp -proj only
    refine KeepsO.ite ?_ ?_
    · refine KeepsO.next ?_
      exact Keeps.refl _ _
    · refine KeepsO.next ?_
      refine Keeps.ite ?_ ?_
      · refine Keeps.via (badOpcode_keeps _ _) rfl ?_
        refine Keeps.via (setSq_keeps _ _ _ _) rfl ?_
        exact Keeps.refl _ _
      · refine Keeps.ite ?_ ?_
        · refine Keeps.via (cqe_keeps _ _ _ _ _) rfl ?_
          refine Keeps.via (setSq_keeps _ _ _ _) rfl ?_
          exact Keeps.refl _ _
        · refine Keeps.ite ?_ ?_
          · refine Keeps.via (cqe_keeps _ _ _ _ _) rfl ?_
            refine Keeps.via (setSq_keeps _ _ _ _) rfl ?_
            exact Keeps.refl _ _
          · refine Keeps.ite ?_ ?_
            · refine Keeps.via (cqe_keeps _ _ _ _ _) rfl ?_
              refine Keeps.via (setSq_keeps _ _ _ _) rfl ?_
              exact Keeps.refl _ _
            · refine Keeps.via (cqeOk_keeps _ _) rfl ?_
              refine Keeps.via (setCtrl_keeps _ _ _) rfl ?_
              refine Keeps.via (setSq_keeps _ _ _ _) rfl ?_
              exact Keeps.refl _ _

theorem execDeleteIoSq_keeps : ∀ a0 a1, KeepsO 67313664 a1 (execDeleteIoSq a0 a1) := by
  intro a0 a1
  unfold execDeleteIoSq
  unfold adminCmd
  try dsimp -proj only
  unfold nvmeCmd
  try dsimp -proj only
  try dsimp -proj only
  split
  · try dsimp -proj only
    refine KeepsO.next ?_
    exact Keeps.refl _ _
  · try dsimp -proj only
    refine KeepsO.ite ?_ ?_
    · refine KeepsO.next ?_
      exact Keeps.refl _ _
    · refine KeepsO.next ?_
      refine Keeps.ite ?_ ?_
      · refine Keeps.via (badOpcode_keeps _ _) rfl ?_
        refine Keeps.via (setSq_keeps _ _ _ _) rfl ?_
        exact Keeps.refl _ _
      · refine Keeps.ite ?_ ?_
        · refine Keeps.via (cqe_keeps _ _ _ _ _) rfl ?_
          refine Keeps.via (setSq_keeps _ _ _ _) rfl ?_
          exact Keeps.refl _ _
        · refine Keeps.via (cqeOk_keeps _ _) rfl ?_
          refine Keeps.via (setCtrl_keeps _ _ _) rfl ?_
          refine Keeps.via (setHif_keeps _ _) rfl ?_
          refine Keeps.via (setSq_keeps _ _ _ _) rfl ?_
          exact Keeps.refl _ _

theorem execCreateIoSq_keeps : ∀ a0 a1, KeepsO 67313664 a1 (execCreateIoSq a0 a1) := by
  intro a0 a1
  unfold execCreateIoSq
  unfold adminCmd
  try dsimp -proj only
  unfold nvmeCmd
  try dsimp -proj only
  try dsimp -proj only
  split
  · try dsimp -proj only
    refine KeepsO.next ?_
    exact Keeps.refl _ _
  · try dsimp -proj only
    refine KeepsO.ite ?_ ?_
    · refine KeepsO.next ?_
      exact Keeps.refl _ _
    · refine KeepsO.next ?_
      refine Keeps.ite ?_ ?_
      · refine Keeps.via (badOpcode_keeps _ _) rfl ?_
        refine Keeps.via (setSq_keeps _ _ _ _) rfl ?_
        exact Keeps.refl _ _
      · refine Keeps.ite ?_ ?_
        · refine Keeps.via (cqe_keeps _ _ _ _ _) rfl ?_
          refine Keeps.via (setSq_keeps _ _ _ _) rfl ?_
          exact Keeps.refl _ _
        · refine Keeps.ite ?_ ?_
          · refine Keeps.via (cqe_keeps _ _ _ _ _) rfl ?_
            refine Keeps.via (setSq_keeps _ _ _ _) rfl ?_
            exact Keeps.refl _ _
          · refine Keeps.ite ?_ ?_
            · refine Keeps.via (cqe_keeps _ _ _ _ _) rfl ?_
              refine Keeps.via (setSq_keeps _ _ _ _) rfl ?_
              exact Keeps.refl _ _
            · refine Keeps.via (cqeOk_keeps _ _) rfl ?_
              refine Keeps.via (setSq_keeps _ _ _ _) rfl ?_
              refine Keeps.via (setSq_keeps _ _ _ _) rfl ?_
              exact Keeps.refl _ _

theorem execSqDoorbell_keeps : ∀ a0 a1 a2 a3 a4, KeepsO 67313664 a4 (execSqDoorbell a0 a1 a2 a3 a4) := by
  intro a0 a1 a2 a3 a4
  unfold execSqDoorbell
  refine KeepsO.ite ?_ ?_
  · refine KeepsO.next ?_
    exact Keeps.refl _ _
  · refine KeepsO.ite ?_ ?_
    · refine KeepsO.next ?_
      refine Keeps.via (asyncEvent_keeps _ _ _ _ _) rfl ?_
      exact Keeps.refl _ _
    · refine KeepsO.ite ?_ ?_
      · refine KeepsO.next ?_
        refine Keeps.via (asyncEvent_keeps _ _ _ _ _) rfl ?_
        exact Keeps.refl _ _
      · refine KeepsO.next ?_
        refine Keeps.via (setSq_keeps _ _ _ _) rfl ?_
        exact Keeps.refl _ _

theorem execDramTrainWindowEnd_keeps : ∀ a0 a1, KeepsO 33554432 a1 (execDramTrainWindowEnd a0 a1) := by
  intro a0 a1
  unfold execDramTrainWindowEnd
  refine KeepsO.ite ?_ ?_
  · refine KeepsO.next ?_
    exact Keeps.refl _ _
  · refine KeepsO.ite ?_ ?_
    · refine KeepsO.next ?_
      refine Keeps.via (applyRate_keeps _ _) rfl ?_
      exact Keeps.refl _ _
    · refine KeepsO.next ?_
      refine Keeps.via (setDram_keeps _ _ _) rfl ?_
      exact Keeps.refl _ _

theorem shadowReturns_keeps : ∀ a0 a1, Keeps 4194304 a0 (shadowReturns a0 a1) := by
  intro a0 a1
  unfold shadowReturns
  refine Keeps.ite ?_ ?_
  · refine Keeps.put_asu ?_ rfl _
    exact Keeps.refl _ _
  · exact Keeps.refl _ _

theorem execDramTrainPassDone_keeps : ∀ a0 a1 a2 a3, KeepsO 264470520 a3 (execDramTrainPassDone a0 a1 a2 a3) := by
  intro a0 a1 a2 a3
  unfold execDramTrainPassDone
  refine KeepsO.ite ?_ ?_
  · refine KeepsO.next ?_
    exact Keeps.refl _ _
  · refine KeepsO.ite ?_ ?_
    · refine KeepsO.next ?_
      refine Keeps.ite ?_ ?_
      · refine Keeps.via (dramHealth_keeps _ _ _) rfl ?_
        refine Keeps.ite ?_ ?_
        · refine Keeps.via (applyRate_keeps _ _) rfl ?_
          refine Keeps.ite ?_ ?_
          · refine Keeps.via (unitState_keeps _ _ _) rfl ?_
            refine Keeps.via (setLive_keeps _ _ _ _ _) rfl ?_
            refine Keeps.via (bump_keeps _ _ _ _ _) rfl ?_
            refine Keeps.via (shadowReturns_keeps _ _) rfl ?_
            refine Keeps.via (setDram_keeps _ _ _) rfl ?_
            exact Keeps.refl _ _
          · refine Keeps.via (setLive_keeps _ _ _ _ _) rfl ?_
            refine Keeps.via (bump_keeps _ _ _ _ _) rfl ?_
            refine Keeps.via (shadowReturns_keeps _ _) rfl ?_
            refine Keeps.via (setDram_keeps _ _ _) rfl ?_
            exact Keeps.refl _ _
        · refine Keeps.ite ?_ ?_
          · refine Keeps.via (unitState_keeps _ _ _) rfl ?_
            refine Keeps.via (setLive_keeps _ _ _ _ _) rfl ?_
            refine Keeps.via (bump_keeps _ _ _ _ _) rfl ?_
            refine Keeps.via (shadowReturns_keeps _ _) rfl ?_
            refine Keeps.via (setDram_keeps _ _ _) rfl ?_
            exact Keeps.refl _ _
          · refine Keeps.via (setLive_keeps _ _ _ _ _) rfl ?_
            refine Keeps.via (bump_keeps _ _ _ _ _) rfl ?_
            refine Keeps.via (shadowReturns_keeps _ _) rfl ?_
            refine Keeps.via (setDram_keeps _ _ _) rfl ?_
            exact Keeps.refl _ _
      · refine Keeps.ite ?_ ?_
        · refine Keeps.via (applyRate_keeps _ _) rfl ?_
          refine Keeps.ite ?_ ?_
          · refine Keeps.via (unitState_keeps _ _ _) rfl ?_
            refine Keeps.via (setLive_keeps _ _ _ _ _) rfl ?_
            refine Keeps.via (bump_keeps _ _ _ _ _) rfl ?_
            refine Keeps.via (shadowReturns_keeps _ _) rfl ?_
            refine Keeps.via (setDram_keeps _ _ _) rfl ?_
            exact Keeps.refl _ _
          · refine Keeps.via (setLive_keeps _ _ _ _ _) rfl ?_
            refine Keeps.via (bump_keeps _ _ _ _ _) rfl ?_
            refine Keeps.via (shadowReturns_keeps _ _) rfl ?_
            refine Keeps.via (setDram_keeps _ _ _) rfl ?_
            exact Keeps.refl _ _
        · refine Keeps.ite ?_ ?_
          · refine Keeps.via (unitState_keeps _ _ _) rfl ?_
            refine Keeps.via (setLive_keeps _ _ _ _ _) rfl ?_
            refine Keeps.via (bump_keeps _ _ _ _ _) rfl ?_
            refine Keeps.via (shadowReturns_keeps _ _) rfl ?_
            refine Keeps.via (setDram_keeps _ _ _) rfl ?_
            exact Keeps.refl _ _
          · refine Keeps.via (setLive_keeps _ _ _ _ _) rfl ?_
            refine Keeps.via (bump_keeps _ _ _ _ _) rfl ?_
            refine Keeps.via (shadowReturns_keeps _ _) rfl ?_
            refine Keeps.via (setDram_keeps _ _ _) rfl ?_
            exact Keeps.refl _ _
    · refine KeepsO.ite ?_ ?_
      · refine KeepsO.next ?_
        refine Keeps.via (dramOffline_keeps _ _) rfl ?_
        refine Keeps.via (bump_keeps _ _ _ _ _) rfl ?_
        exact Keeps.refl _ _
      · refine KeepsO.next ?_
        refine Keeps.via (setDram_keeps _ _ _) rfl ?_
        exact Keeps.refl _ _

theorem execDramPatrol_keeps : ∀ a0 a1 a2 a3 a4, KeepsO 256605948 a4 (execDramPatrol a0 a1 a2 a3 a4) := by
  intro a0 a1 a2 a3 a4
  unfold execDramPatrol
  refine KeepsO.ite ?_ ?_
  · refine KeepsO.next ?_
    refine Keeps.via (readWord_keeps _ _ _ _ _ _) rfl ?_
    exact Keeps.refl _ _
  · refine KeepsO.next ?_
    exact Keeps.refl _ _

theorem execDramTempRead_keeps : ∀ a0 a1 a2, KeepsO 33554432 a2 (execDramTempRead a0 a1 a2) := by
  intro a0 a1 a2
  unfold execDramTempRead
  refine KeepsO.ite ?_ ?_
  · refine KeepsO.next ?_
    refine Keeps.via (setDram_keeps _ _ _) rfl ?_
    exact Keeps.refl _ _
  · refine KeepsO.next ?_
    exact Keeps.refl _ _

theorem execDramRefresh_keeps : ∀ a0 a1 a2 a3, KeepsO 33554448 a3 (execDramRefresh a0 a1 a2 a3) := by
  intro a0 a1 a2 a3
  unfold execDramRefresh
  refine KeepsO.ite ?_ ?_
  · refine KeepsO.next ?_
    exact Keeps.refl _ _
  · refine KeepsO.ite ?_ ?_
    · refine KeepsO.next ?_
      refine Keeps.via (bump_keeps _ _ _ _ _) rfl ?_
      refine Keeps.via (setDram_keeps _ _ _) rfl ?_
      exact Keeps.refl _ _
    · refine KeepsO.next ?_
      refine Keeps.via (setDram_keeps _ _ _) rfl ?_
      exact Keeps.refl _ _

theorem execCoreIdleSlowdown_keeps : ∀ a0 a1, KeepsO 17408 a1 (execCoreIdleSlowdown a0 a1) := by
  intro a0 a1
  unfold execCoreIdleSlowdown
  refine KeepsO.ite ?_ ?_
  · refine KeepsO.next ?_
    refine Keeps.via (setIsland_keeps _ _ _) rfl ?_
    refine Keeps.via (setCore_keeps _ _ _) rfl ?_
    exact Keeps.refl _ _
  · refine KeepsO.next ?_
    exact Keeps.refl _ _

theorem execCoreScrubDone_keeps : ∀ a0 a1, KeepsO 155210448 a1 (execCoreScrubDone a0 a1) := by
  intro a0 a1
  unfold execCoreScrubDone
  refine KeepsO.ite ?_ ?_
  · refine KeepsO.next ?_
    refine Keeps.via (setLive_keeps _ _ _ _ _) rfl ?_
    refine Keeps.via (setCore_keeps _ _ _) rfl ?_
    refine Keeps.foldl (fun x1 _ => ?_) ?_
    · split
      · refine Keeps.via (freeTicket_keeps _ _ _) rfl ?_
        exact Keeps.refl _ _
      · exact Keeps.refl _ _
    · exact Keeps.refl _ _
  · refine KeepsO.next ?_
    exact Keeps.refl _ _

theorem execCoreStop_keeps : ∀ a0 a1, KeepsO 16384 a1 (execCoreStop a0 a1) := by
  intro a0 a1
  unfold execCoreStop
  refine KeepsO.next ?_
  refine Keeps.via (coreStopOp_keeps _ _) rfl ?_
  exact Keeps.refl _ _

theorem execCoreStart_keeps : ∀ a0 a1 a2, KeepsO 16384 a2 (execCoreStart a0 a1 a2) := by
  intro a0 a1 a2
  unfold execCoreStart
  refine KeepsO.next ?_
  refine Keeps.via (coreStartOp_keeps _ _ _) rfl ?_
  exact Keeps.refl _ _

theorem runIns_keeps {s : State} {c : Nat} {i : GIns} {x : Option Trap} {f : State → GRes} {m : Nat}
    (hf : KeepsE m s (f s)) (hm : 256605948 ||| m = m) : KeepsO m s (runIns s c i x f) := by
  have b : ∀ {n : Nat}, n ||| 256605948 = 256605948 → n ||| m = m := by
    intro n hn
    rw [← hm, ← Nat.or_assoc, hn]
  unfold runIns
  dsimp -proj only
  refine KeepsO.ite (KeepsO.next (Keeps.refl _ _)) ?_
  split
  · exact KeepsO.next (Keeps.via (settle_keeps _ _) (b rfl) ((trapNow_keeps _ _ _ _).mono (b rfl)))
  · refine KeepsO.ite (KeepsO.next ((setCore_keeps _ _ _).mono (b rfl))) ?_
    split
    · exact KeepsO.next (Keeps.via (settle_keeps _ _) (b rfl) ((trapNow_keeps _ _ _ _).mono (b rfl)))
    · rename_i t h
      have ht : Keeps m s t := by
        split at h
        · cases h
        · exact hf t h
      exact KeepsO.next (Keeps.via (settle_keeps _ _) (b rfl) (Keeps.via (setCore_keeps _ _ _) (b rfl) ht))

theorem execGChki_keeps : ∀ a0 a1 a2 a3 a4 a5 a6, KeepsO 256605948 a6 (execGChki a0 a1 a2 a3 a4 a5 a6) := by
  intro a0 a1 a2 a3 a4 a5 a6
  unfold execGChki
  refine runIns_keeps ?_ rfl
  refine KeepsE.via (boundsTrap_keeps _ _) rfl ?_
  exact Keeps.refl _ _

theorem execGChku_keeps : ∀ a0 a1 a2 a3 a4 a5, KeepsO 256605948 a5 (execGChku a0 a1 a2 a3 a4 a5) := by
  intro a0 a1 a2 a3 a4 a5
  unfold execGChku
  refine runIns_keeps ?_ rfl
  refine KeepsE.via (boundsTrap_keeps _ _) rfl ?_
  exact Keeps.refl _ _

theorem execGChk_keeps : ∀ a0 a1 a2 a3 a4 a5, KeepsO 256605948 a5 (execGChk a0 a1 a2 a3 a4 a5) := by
  intro a0 a1 a2 a3 a4 a5
  unfold execGChk
  refine runIns_keeps ?_ rfl
  refine KeepsE.via (boundsTrap_keeps _ _) rfl ?_
  exact Keeps.refl _ _

theorem putG_keeps : ∀ a0 a1 a2 a3, Keeps 16384 a0 (putG a0 a1 a2 a3) := by
  intro a0 a1 a2 a3
  unfold putG
  refine Keeps.via (setCore_keeps _ _ _) rfl ?_
  exact Keeps.refl _ _

theorem execGCpx_keeps : ∀ a0 a1 a2 a3 a4 a5 a6, KeepsO 268435452 a6 (execGCpx a0 a1 a2 a3 a4 a5 a6) := by
  intro a0 a1 a2 a3 a4 a5 a6
  unfold execGCpx
  refine runIns_keeps ?_ rfl
  try dsimp -proj only
  split
  · exact KeepsE.error _
  · exact KeepsE.error _
  · exact KeepsE.error _
  · exact KeepsE.error _
  · split
    · exact KeepsE.error _
    · refine KeepsE.ok ?_
      refine Keeps.via (putG_keeps _ _ _ _) rfl ?_
      refine Keeps.via (putG_keeps _ _ _ _) rfl ?_
      refine Keeps.via (coreStore_keeps _ _ _ _ _) rfl ?_
      refine Keeps.via (coreLoad_keeps _ _ _ _) rfl ?_
      exact Keeps.refl _ _

theorem execGFenceInstruction_keeps : ∀ a0 a1 a2, KeepsO 256605948 a2 (execGFenceInstruction a0 a1 a2) := by
  intro a0 a1 a2
  unfold execGFenceInstruction
  refine runIns_keeps ?_ rfl
  refine KeepsE.ok ?_
  exact Keeps.refl _ _

theorem execGCas_keeps : ∀ a0 a1 a2 a3 a4 a5, KeepsO 268435452 a5 (execGCas a0 a1 a2 a3 a4 a5) := by
  intro a0 a1 a2 a3 a4 a5
  unfold execGCas
  refine runIns_keeps ?_ rfl
  try dsimp -proj only
  split
  · exact KeepsE.error _
  · split
    · exact KeepsE.error _
    · refine KeepsE.ok ?_
      refine Keeps.via (putG_keeps _ _ _ _) rfl ?_
      refine Keeps.ite ?_ ?_
      · refine Keeps.via (coreStore_keeps _ _ _ _ _) rfl ?_
        refine Keeps.via (coreLoad_keeps _ _ _ _) rfl ?_
        exact Keeps.refl _ _
      · refine Keeps.via (coreLoad_keeps _ _ _ _) rfl ?_
        exact Keeps.refl _ _

theorem runStore_keeps : ∀ a0 a1 a2 a3 a4 a5 a6 a7, KeepsO 268435452 a7 (runStore a0 a1 a2 a3 a4 a5 a6 a7) := by
  intro a0 a1 a2 a3 a4 a5 a6 a7
  unfold runStore
  refine runIns_keeps ?_ rfl
  try dsimp -proj only
  split
  · exact KeepsE.error _
  · refine KeepsE.ok ?_
    refine Keeps.ite ?_ ?_
    · refine Keeps.via (putG_keeps _ _ _ _) rfl ?_
      refine Keeps.via (coreStore_keeps _ _ _ _ _) rfl ?_
      exact Keeps.refl _ _
    · refine Keeps.via (coreStore_keeps _ _ _ _ _) rfl ?_
      exact Keeps.refl _ _

theorem execGStdU_keeps : ∀ a0 a1 a2 a3 a4 a5 a6, KeepsO 268435452 a6 (execGStdU a0 a1 a2 a3 a4 a5 a6) := by
  intro a0 a1 a2 a3 a4 a5 a6
  unfold execGStdU
  refine KeepsO.via (runStore_keeps _ _ _ _ _ _ _ _) rfl ?_
  exact Keeps.refl _ _

theorem execGStwU_keeps : ∀ a0 a1 a2 a3 a4 a5 a6, KeepsO 268435452 a6 (execGStwU a0 a1 a2 a3 a4 a5 a6) := by
  intro a0 a1 a2 a3 a4 a5 a6
  unfold execGStwU
  refine KeepsO.via (runStore_keeps _ _ _ _ _ _ _ _) rfl ?_
  exact Keeps.refl _ _

theorem execGSthU_keeps : ∀ a0 a1 a2 a3 a4 a5 a6, KeepsO 268435452 a6 (execGSthU a0 a1 a2 a3 a4 a5 a6) := by
  intro a0 a1 a2 a3 a4 a5 a6
  unfold execGSthU
  refine KeepsO.via (runStore_keeps _ _ _ _ _ _ _ _) rfl ?_
  exact Keeps.refl _ _

theorem execGStbU_keeps : ∀ a0 a1 a2 a3 a4 a5 a6, KeepsO 268435452 a6 (execGStbU a0 a1 a2 a3 a4 a5 a6) := by
  intro a0 a1 a2 a3 a4 a5 a6
  unfold execGStbU
  refine KeepsO.via (runStore_keeps _ _ _ _ _ _ _ _) rfl ?_
  exact Keeps.refl _ _

theorem runLoad_keeps : ∀ a0 a1 a2 a3 a4 a5 a6 a7, KeepsO 256605948 a7 (runLoad a0 a1 a2 a3 a4 a5 a6 a7) := by
  intro a0 a1 a2 a3 a4 a5 a6 a7
  unfold runLoad
  refine runIns_keeps ?_ rfl
  try dsimp -proj only
  split
  · exact KeepsE.error _
  · refine KeepsE.ok ?_
    refine Keeps.ite ?_ ?_
    · refine Keeps.via (putG_keeps _ _ _ _) rfl ?_
      refine Keeps.via (putG_keeps _ _ _ _) rfl ?_
      refine Keeps.via (coreLoad_keeps _ _ _ _) rfl ?_
      exact Keeps.refl _ _
    · refine Keeps.via (putG_keeps _ _ _ _) rfl ?_
      refine Keeps.via (coreLoad_keeps _ _ _ _) rfl ?_
      exact Keeps.refl _ _

theorem execGLddU_keeps : ∀ a0 a1 a2 a3 a4 a5 a6, KeepsO 256605948 a6 (execGLddU a0 a1 a2 a3 a4 a5 a6) := by
  intro a0 a1 a2 a3 a4 a5 a6
  unfold execGLddU
  refine KeepsO.via (runLoad_keeps _ _ _ _ _ _ _ _) rfl ?_
  exact Keeps.refl _ _

theorem execGLdwuU_keeps : ∀ a0 a1 a2 a3 a4 a5 a6, KeepsO 256605948 a6 (execGLdwuU a0 a1 a2 a3 a4 a5 a6) := by
  intro a0 a1 a2 a3 a4 a5 a6
  unfold execGLdwuU
  refine KeepsO.via (runLoad_keeps _ _ _ _ _ _ _ _) rfl ?_
  exact Keeps.refl _ _

theorem execGLdwU_keeps : ∀ a0 a1 a2 a3 a4 a5 a6, KeepsO 256605948 a6 (execGLdwU a0 a1 a2 a3 a4 a5 a6) := by
  intro a0 a1 a2 a3 a4 a5 a6
  unfold execGLdwU
  refine KeepsO.via (runLoad_keeps _ _ _ _ _ _ _ _) rfl ?_
  exact Keeps.refl _ _

theorem execGLdhuU_keeps : ∀ a0 a1 a2 a3 a4 a5 a6, KeepsO 256605948 a6 (execGLdhuU a0 a1 a2 a3 a4 a5 a6) := by
  intro a0 a1 a2 a3 a4 a5 a6
  unfold execGLdhuU
  refine KeepsO.via (runLoad_keeps _ _ _ _ _ _ _ _) rfl ?_
  exact Keeps.refl _ _

theorem execGLdhU_keeps : ∀ a0 a1 a2 a3 a4 a5 a6, KeepsO 256605948 a6 (execGLdhU a0 a1 a2 a3 a4 a5 a6) := by
  intro a0 a1 a2 a3 a4 a5 a6
  unfold execGLdhU
  refine KeepsO.via (runLoad_keeps _ _ _ _ _ _ _ _) rfl ?_
  exact Keeps.refl _ _

theorem execGLdbuU_keeps : ∀ a0 a1 a2 a3 a4 a5 a6, KeepsO 256605948 a6 (execGLdbuU a0 a1 a2 a3 a4 a5 a6) := by
  intro a0 a1 a2 a3 a4 a5 a6
  unfold execGLdbuU
  refine KeepsO.via (runLoad_keeps _ _ _ _ _ _ _ _) rfl ?_
  exact Keeps.refl _ _

theorem execGLdbU_keeps : ∀ a0 a1 a2 a3 a4 a5 a6, KeepsO 256605948 a6 (execGLdbU a0 a1 a2 a3 a4 a5 a6) := by
  intro a0 a1 a2 a3 a4 a5 a6
  unfold execGLdbU
  refine KeepsO.via (runLoad_keeps _ _ _ _ _ _ _ _) rfl ?_
  exact Keeps.refl _ _

theorem execGStd_keeps : ∀ a0 a1 a2 a3 a4 a5 a6, KeepsO 268435452 a6 (execGStd a0 a1 a2 a3 a4 a5 a6) := by
  intro a0 a1 a2 a3 a4 a5 a6
  unfold execGStd
  refine KeepsO.via (runStore_keeps _ _ _ _ _ _ _ _) rfl ?_
  exact Keeps.refl _ _

theorem execGStw_keeps : ∀ a0 a1 a2 a3 a4 a5 a6, KeepsO 268435452 a6 (execGStw a0 a1 a2 a3 a4 a5 a6) := by
  intro a0 a1 a2 a3 a4 a5 a6
  unfold execGStw
  refine KeepsO.via (runStore_keeps _ _ _ _ _ _ _ _) rfl ?_
  exact Keeps.refl _ _

theorem execGSth_keeps : ∀ a0 a1 a2 a3 a4 a5 a6, KeepsO 268435452 a6 (execGSth a0 a1 a2 a3 a4 a5 a6) := by
  intro a0 a1 a2 a3 a4 a5 a6
  unfold execGSth
  refine KeepsO.via (runStore_keeps _ _ _ _ _ _ _ _) rfl ?_
  exact Keeps.refl _ _

theorem execGStb_keeps : ∀ a0 a1 a2 a3 a4 a5 a6, KeepsO 268435452 a6 (execGStb a0 a1 a2 a3 a4 a5 a6) := by
  intro a0 a1 a2 a3 a4 a5 a6
  unfold execGStb
  refine KeepsO.via (runStore_keeps _ _ _ _ _ _ _ _) rfl ?_
  exact Keeps.refl _ _

theorem execGLdd_keeps : ∀ a0 a1 a2 a3 a4 a5 a6, KeepsO 256605948 a6 (execGLdd a0 a1 a2 a3 a4 a5 a6) := by
  intro a0 a1 a2 a3 a4 a5 a6
  unfold execGLdd
  refine KeepsO.via (runLoad_keeps _ _ _ _ _ _ _ _) rfl ?_
  exact Keeps.refl _ _

theorem execGLdwu_keeps : ∀ a0 a1 a2 a3 a4 a5 a6, KeepsO 256605948 a6 (execGLdwu a0 a1 a2 a3 a4 a5 a6) := by
  intro a0 a1 a2 a3 a4 a5 a6
  unfold execGLdwu
  refine KeepsO.via (runLoad_keeps _ _ _ _ _ _ _ _) rfl ?_
  exact Keeps.refl _ _

theorem execGLdw_keeps : ∀ a0 a1 a2 a3 a4 a5 a6, KeepsO 256605948 a6 (execGLdw a0 a1 a2 a3 a4 a5 a6) := by
  intro a0 a1 a2 a3 a4 a5 a6
  unfold execGLdw
  refine KeepsO.via (runLoad_keeps _ _ _ _ _ _ _ _) rfl ?_
  exact Keeps.refl _ _

theorem execGLdhu_keeps : ∀ a0 a1 a2 a3 a4 a5 a6, KeepsO 256605948 a6 (execGLdhu a0 a1 a2 a3 a4 a5 a6) := by
  intro a0 a1 a2 a3 a4 a5 a6
  unfold execGLdhu
  refine KeepsO.via (runLoad_keeps _ _ _ _ _ _ _ _) rfl ?_
  exact Keeps.refl _ _

theorem execGLdh_keeps : ∀ a0 a1 a2 a3 a4 a5 a6, KeepsO 256605948 a6 (execGLdh a0 a1 a2 a3 a4 a5 a6) := by
  intro a0 a1 a2 a3 a4 a5 a6
  unfold execGLdh
  refine KeepsO.via (runLoad_keeps _ _ _ _ _ _ _ _) rfl ?_
  exact Keeps.refl _ _

theorem execGLdbu_keeps : ∀ a0 a1 a2 a3 a4 a5 a6, KeepsO 256605948 a6 (execGLdbu a0 a1 a2 a3 a4 a5 a6) := by
  intro a0 a1 a2 a3 a4 a5 a6
  unfold execGLdbu
  refine KeepsO.via (runLoad_keeps _ _ _ _ _ _ _ _) rfl ?_
  exact Keeps.refl _ _

theorem execGLdb_keeps : ∀ a0 a1 a2 a3 a4 a5 a6, KeepsO 256605948 a6 (execGLdb a0 a1 a2 a3 a4 a5 a6) := by
  intro a0 a1 a2 a3 a4 a5 a6
  unfold execGLdb
  refine KeepsO.via (runLoad_keeps _ _ _ _ _ _ _ _) rfl ?_
  exact Keeps.refl _ _

theorem execGLi_keeps : ∀ a0 a1 a2 a3 a4 a5, KeepsO 256605948 a5 (execGLi a0 a1 a2 a3 a4 a5) := by
  intro a0 a1 a2 a3 a4 a5
  unfold execGLi
  refine runIns_keeps ?_ rfl
  refine KeepsE.ok ?_
  refine Keeps.via (putG_keeps _ _ _ _) rfl ?_
  exact Keeps.refl _ _

theorem runSetI_keeps : ∀ a0 a1 a2 a3 a4 a5 a6 a7, KeepsO 256605948 a7 (runSetI a0 a1 a2 a3 a4 a5 a6 a7) := by
  intro a0 a1 a2 a3 a4 a5 a6 a7
  unfold runSetI
  refine runIns_keeps ?_ rfl
  refine KeepsE.ok ?_
  refine Keeps.via (putG_keeps _ _ _ _) rfl ?_
  exact Keeps.refl _ _

theorem execGSgeui_keeps : ∀ a0 a1 a2 a3 a4 a5 a6, KeepsO 256605948 a6 (execGSgeui a0 a1 a2 a3 a4 a5 a6) := by
  intro a0 a1 a2 a3 a4 a5 a6
  unfold execGSgeui
  refine KeepsO.via (runSetI_keeps _ _ _ _ _ _ _ _) rfl ?_
  exact Keeps.refl _ _

theorem execGSgei_keeps : ∀ a0 a1 a2 a3 a4 a5 a6, KeepsO 256605948 a6 (execGSgei a0 a1 a2 a3 a4 a5 a6) := by
  intro a0 a1 a2 a3 a4 a5 a6
  unfold execGSgei
  refine KeepsO.via (runSetI_keeps _ _ _ _ _ _ _ _) rfl ?_
  exact Keeps.refl _ _

theorem execGSltui_keeps : ∀ a0 a1 a2 a3 a4 a5 a6, KeepsO 256605948 a6 (execGSltui a0 a1 a2 a3 a4 a5 a6) := by
  intro a0 a1 a2 a3 a4 a5 a6
  unfold execGSltui
  refine KeepsO.via (runSetI_keeps _ _ _ _ _ _ _ _) rfl ?_
  exact Keeps.refl _ _

theorem execGSlti_keeps : ∀ a0 a1 a2 a3 a4 a5 a6, KeepsO 256605948 a6 (execGSlti a0 a1 a2 a3 a4 a5 a6) := by
  intro a0 a1 a2 a3 a4 a5 a6
  unfold execGSlti
  refine KeepsO.via (runSetI_keeps _ _ _ _ _ _ _ _) rfl ?_
  exact Keeps.refl _ _

theorem execGSnei_keeps : ∀ a0 a1 a2 a3 a4 a5 a6, KeepsO 256605948 a6 (execGSnei a0 a1 a2 a3 a4 a5 a6) := by
  intro a0 a1 a2 a3 a4 a5 a6
  unfold execGSnei
  refine KeepsO.via (runSetI_keeps _ _ _ _ _ _ _ _) rfl ?_
  exact Keeps.refl _ _

theorem execGSeqi_keeps : ∀ a0 a1 a2 a3 a4 a5 a6, KeepsO 256605948 a6 (execGSeqi a0 a1 a2 a3 a4 a5 a6) := by
  intro a0 a1 a2 a3 a4 a5 a6
  unfold execGSeqi
  refine KeepsO.via (runSetI_keeps _ _ _ _ _ _ _ _) rfl ?_
  exact Keeps.refl _ _

theorem runAluI_keeps : ∀ a0 a1 a2 a3 a4 a5 a6 a7, KeepsO 256605948 a7 (runAluI a0 a1 a2 a3 a4 a5 a6 a7) := by
  intro a0 a1 a2 a3 a4 a5 a6 a7
  unfold runAluI
  refine runIns_keeps ?_ rfl
  refine KeepsE.ok ?_
  refine Keeps.via (putG_keeps _ _ _ _) rfl ?_
  exact Keeps.refl _ _

theorem execGMuli_keeps : ∀ a0 a1 a2 a3 a4 a5 a6, KeepsO 256605948 a6 (execGMuli a0 a1 a2 a3 a4 a5 a6) := by
  intro a0 a1 a2 a3 a4 a5 a6
  unfold execGMuli
  refine KeepsO.via (runAluI_keeps _ _ _ _ _ _ _ _) rfl ?_
  exact Keeps.refl _ _

theorem execGSari_keeps : ∀ a0 a1 a2 a3 a4 a5 a6, KeepsO 256605948 a6 (execGSari a0 a1 a2 a3 a4 a5 a6) := by
  intro a0 a1 a2 a3 a4 a5 a6
  unfold execGSari
  refine KeepsO.via (runAluI_keeps _ _ _ _ _ _ _ _) rfl ?_
  exact Keeps.refl _ _

theorem execGShri_keeps : ∀ a0 a1 a2 a3 a4 a5 a6, KeepsO 256605948 a6 (execGShri a0 a1 a2 a3 a4 a5 a6) := by
  intro a0 a1 a2 a3 a4 a5 a6
  unfold execGShri
  refine KeepsO.via (runAluI_keeps _ _ _ _ _ _ _ _) rfl ?_
  exact Keeps.refl _ _

theorem execGShli_keeps : ∀ a0 a1 a2 a3 a4 a5 a6, KeepsO 256605948 a6 (execGShli a0 a1 a2 a3 a4 a5 a6) := by
  intro a0 a1 a2 a3 a4 a5 a6
  unfold execGShli
  refine KeepsO.via (runAluI_keeps _ _ _ _ _ _ _ _) rfl ?_
  exact Keeps.refl _ _

theorem execGXori_keeps : ∀ a0 a1 a2 a3 a4 a5 a6, KeepsO 256605948 a6 (execGXori a0 a1 a2 a3 a4 a5 a6) := by
  intro a0 a1 a2 a3 a4 a5 a6
  unfold execGXori
  refine KeepsO.via (runAluI_keeps _ _ _ _ _ _ _ _) rfl ?_
  exact Keeps.refl _ _

theorem execGOri_keeps : ∀ a0 a1 a2 a3 a4 a5 a6, KeepsO 256605948 a6 (execGOri a0 a1 a2 a3 a4 a5 a6) := by
  intro a0 a1 a2 a3 a4 a5 a6
  unfold execGOri
  refine KeepsO.via (runAluI_keeps _ _ _ _ _ _ _ _) rfl ?_
  exact Keeps.refl _ _

theorem execGAndi_keeps : ∀ a0 a1 a2 a3 a4 a5 a6, KeepsO 256605948 a6 (execGAndi a0 a1 a2 a3 a4 a5 a6) := by
  intro a0 a1 a2 a3 a4 a5 a6
  unfold execGAndi
  refine KeepsO.via (runAluI_keeps _ _ _ _ _ _ _ _) rfl ?_
  exact Keeps.refl _ _

theorem execGAddi_keeps : ∀ a0 a1 a2 a3 a4 a5 a6, KeepsO 256605948 a6 (execGAddi a0 a1 a2 a3 a4 a5 a6) := by
  intro a0 a1 a2 a3 a4 a5 a6
  unfold execGAddi
  refine KeepsO.via (runAluI_keeps _ _ _ _ _ _ _ _) rfl ?_
  exact Keeps.refl _ _

theorem runSet3_keeps : ∀ a0 a1 a2 a3 a4 a5 a6, KeepsO 256605948 a6 (runSet3 a0 a1 a2 a3 a4 a5 a6) := by
  intro a0 a1 a2 a3 a4 a5 a6
  unfold runSet3
  refine runIns_keeps ?_ rfl
  refine KeepsE.ok ?_
  refine Keeps.via (putG_keeps _ _ _ _) rfl ?_
  exact Keeps.refl _ _

theorem execGSgeu_keeps : ∀ a0 a1 a2 a3 a4 a5, KeepsO 256605948 a5 (execGSgeu a0 a1 a2 a3 a4 a5) := by
  intro a0 a1 a2 a3 a4 a5
  unfold execGSgeu
  refine KeepsO.via (runSet3_keeps _ _ _ _ _ _ _) rfl ?_
  exact Keeps.refl _ _

theorem execGSge_keeps : ∀ a0 a1 a2 a3 a4 a5, KeepsO 256605948 a5 (execGSge a0 a1 a2 a3 a4 a5) := by
  intro a0 a1 a2 a3 a4 a5
  unfold execGSge
  refine KeepsO.via (runSet3_keeps _ _ _ _ _ _ _) rfl ?_
  exact Keeps.refl _ _

theorem execGSltu_keeps : ∀ a0 a1 a2 a3 a4 a5, KeepsO 256605948 a5 (execGSltu a0 a1 a2 a3 a4 a5) := by
  intro a0 a1 a2 a3 a4 a5
  unfold execGSltu
  refine KeepsO.via (runSet3_keeps _ _ _ _ _ _ _) rfl ?_
  exact Keeps.refl _ _

theorem execGSlt_keeps : ∀ a0 a1 a2 a3 a4 a5, KeepsO 256605948 a5 (execGSlt a0 a1 a2 a3 a4 a5) := by
  intro a0 a1 a2 a3 a4 a5
  unfold execGSlt
  refine KeepsO.via (runSet3_keeps _ _ _ _ _ _ _) rfl ?_
  exact Keeps.refl _ _

theorem execGSne_keeps : ∀ a0 a1 a2 a3 a4 a5, KeepsO 256605948 a5 (execGSne a0 a1 a2 a3 a4 a5) := by
  intro a0 a1 a2 a3 a4 a5
  unfold execGSne
  refine KeepsO.via (runSet3_keeps _ _ _ _ _ _ _) rfl ?_
  exact Keeps.refl _ _

theorem execGSeq_keeps : ∀ a0 a1 a2 a3 a4 a5, KeepsO 256605948 a5 (execGSeq a0 a1 a2 a3 a4 a5) := by
  intro a0 a1 a2 a3 a4 a5
  unfold execGSeq
  refine KeepsO.via (runSet3_keeps _ _ _ _ _ _ _) rfl ?_
  exact Keeps.refl _ _

theorem runAlu2_keeps : ∀ a0 a1 a2 a3 a4 a5, KeepsO 256605948 a5 (runAlu2 a0 a1 a2 a3 a4 a5) := by
  intro a0 a1 a2 a3 a4 a5
  unfold runAlu2
  refine runIns_keeps ?_ rfl
  refine KeepsE.ok ?_
  refine Keeps.via (putG_keeps _ _ _ _) rfl ?_
  exact Keeps.refl _ _

theorem execGBswap_keeps : ∀ a0 a1 a2 a3 a4, KeepsO 256605948 a4 (execGBswap a0 a1 a2 a3 a4) := by
  intro a0 a1 a2 a3 a4
  unfold execGBswap
  refine KeepsO.via (runAlu2_keeps _ _ _ _ _ _) rfl ?_
  exact Keeps.refl _ _

theorem execGPopc_keeps : ∀ a0 a1 a2 a3 a4, KeepsO 256605948 a4 (execGPopc a0 a1 a2 a3 a4) := by
  intro a0 a1 a2 a3 a4
  unfold execGPopc
  refine KeepsO.via (runAlu2_keeps _ _ _ _ _ _) rfl ?_
  exact Keeps.refl _ _

theorem execGCtz_keeps : ∀ a0 a1 a2 a3 a4, KeepsO 256605948 a4 (execGCtz a0 a1 a2 a3 a4) := by
  intro a0 a1 a2 a3 a4
  unfold execGCtz
  refine KeepsO.via (runAlu2_keeps _ _ _ _ _ _) rfl ?_
  exact Keeps.refl _ _

theorem execGClz_keeps : ∀ a0 a1 a2 a3 a4, KeepsO 256605948 a4 (execGClz a0 a1 a2 a3 a4) := by
  intro a0 a1 a2 a3 a4
  unfold execGClz
  refine KeepsO.via (runAlu2_keeps _ _ _ _ _ _) rfl ?_
  exact Keeps.refl _ _

theorem execGNot_keeps : ∀ a0 a1 a2 a3 a4, KeepsO 256605948 a4 (execGNot a0 a1 a2 a3 a4) := by
  intro a0 a1 a2 a3 a4
  unfold execGNot
  refine KeepsO.via (runAlu2_keeps _ _ _ _ _ _) rfl ?_
  exact Keeps.refl _ _

theorem execGNeg_keeps : ∀ a0 a1 a2 a3 a4, KeepsO 256605948 a4 (execGNeg a0 a1 a2 a3 a4) := by
  intro a0 a1 a2 a3 a4
  unfold execGNeg
  refine KeepsO.via (runAlu2_keeps _ _ _ _ _ _) rfl ?_
  exact Keeps.refl _ _

theorem runDiv_keeps : ∀ a0 a1 a2 a3 a4 a5 a6 a7, KeepsO 256605948 a7 (runDiv a0 a1 a2 a3 a4 a5 a6 a7) := by
  intro a0 a1 a2 a3 a4 a5 a6 a7
  unfold runDiv
  refine runIns_keeps ?_ rfl
  split
  · exact KeepsE.error _
  · refine KeepsE.ok ?_
    refine Keeps.via (putG_keeps _ _ _ _) rfl ?_
    refine Keeps.via (putG_keeps _ _ _ _) rfl ?_
    exact Keeps.refl _ _

theorem execGDivn_keeps : ∀ a0 a1 a2 a3 a4 a5 a6, KeepsO 256605948 a6 (execGDivn a0 a1 a2 a3 a4 a5 a6) := by
  intro a0 a1 a2 a3 a4 a5 a6
  unfold execGDivn
  refine KeepsO.via (runDiv_keeps _ _ _ _ _ _ _ _) rfl ?_
  exact Keeps.refl _ _

theorem execGDivu_keeps : ∀ a0 a1 a2 a3 a4 a5 a6, KeepsO 256605948 a6 (execGDivu a0 a1 a2 a3 a4 a5 a6) := by
  intro a0 a1 a2 a3 a4 a5 a6
  unfold execGDivu
  refine KeepsO.via (runDiv_keeps _ _ _ _ _ _ _ _) rfl ?_
  exact Keeps.refl _ _

theorem execGDiv_keeps : ∀ a0 a1 a2 a3 a4 a5 a6, KeepsO 256605948 a6 (execGDiv a0 a1 a2 a3 a4 a5 a6) := by
  intro a0 a1 a2 a3 a4 a5 a6
  unfold execGDiv
  refine KeepsO.via (runDiv_keeps _ _ _ _ _ _ _ _) rfl ?_
  exact Keeps.refl _ _

theorem runAlu3_keeps : ∀ a0 a1 a2 a3 a4 a5 a6, KeepsO 256605948 a6 (runAlu3 a0 a1 a2 a3 a4 a5 a6) := by
  intro a0 a1 a2 a3 a4 a5 a6
  unfold runAlu3
  refine runIns_keeps ?_ rfl
  refine KeepsE.ok ?_
  refine Keeps.via (putG_keeps _ _ _ _) rfl ?_
  exact Keeps.refl _ _

theorem execGMulhu_keeps : ∀ a0 a1 a2 a3 a4 a5, KeepsO 256605948 a5 (execGMulhu a0 a1 a2 a3 a4 a5) := by
  intro a0 a1 a2 a3 a4 a5
  unfold execGMulhu
  refine KeepsO.via (runAlu3_keeps _ _ _ _ _ _ _) rfl ?_
  exact Keeps.refl _ _

theorem execGMulh_keeps : ∀ a0 a1 a2 a3 a4 a5, KeepsO 256605948 a5 (execGMulh a0 a1 a2 a3 a4 a5) := by
  intro a0 a1 a2 a3 a4 a5
  unfold execGMulh
  refine KeepsO.via (runAlu3_keeps _ _ _ _ _ _ _) rfl ?_
  exact Keeps.refl _ _

theorem execGMul_keeps : ∀ a0 a1 a2 a3 a4 a5, KeepsO 256605948 a5 (execGMul a0 a1 a2 a3 a4 a5) := by
  intro a0 a1 a2 a3 a4 a5
  unfold execGMul
  refine KeepsO.via (runAlu3_keeps _ _ _ _ _ _ _) rfl ?_
  exact Keeps.refl _ _

theorem execGSar_keeps : ∀ a0 a1 a2 a3 a4 a5, KeepsO 256605948 a5 (execGSar a0 a1 a2 a3 a4 a5) := by
  intro a0 a1 a2 a3 a4 a5
  unfold execGSar
  refine KeepsO.via (runAlu3_keeps _ _ _ _ _ _ _) rfl ?_
  exact Keeps.refl _ _

theorem execGShr_keeps : ∀ a0 a1 a2 a3 a4 a5, KeepsO 256605948 a5 (execGShr a0 a1 a2 a3 a4 a5) := by
  intro a0 a1 a2 a3 a4 a5
  unfold execGShr
  refine KeepsO.via (runAlu3_keeps _ _ _ _ _ _ _) rfl ?_
  exact Keeps.refl _ _

theorem execGShl_keeps : ∀ a0 a1 a2 a3 a4 a5, KeepsO 256605948 a5 (execGShl a0 a1 a2 a3 a4 a5) := by
  intro a0 a1 a2 a3 a4 a5
  unfold execGShl
  refine KeepsO.via (runAlu3_keeps _ _ _ _ _ _ _) rfl ?_
  exact Keeps.refl _ _

theorem execGXor_keeps : ∀ a0 a1 a2 a3 a4 a5, KeepsO 256605948 a5 (execGXor a0 a1 a2 a3 a4 a5) := by
  intro a0 a1 a2 a3 a4 a5
  unfold execGXor
  refine KeepsO.via (runAlu3_keeps _ _ _ _ _ _ _) rfl ?_
  exact Keeps.refl _ _

theorem execGOr_keeps : ∀ a0 a1 a2 a3 a4 a5, KeepsO 256605948 a5 (execGOr a0 a1 a2 a3 a4 a5) := by
  intro a0 a1 a2 a3 a4 a5
  unfold execGOr
  refine KeepsO.via (runAlu3_keeps _ _ _ _ _ _ _) rfl ?_
  exact Keeps.refl _ _

theorem execGAnd_keeps : ∀ a0 a1 a2 a3 a4 a5, KeepsO 256605948 a5 (execGAnd a0 a1 a2 a3 a4 a5) := by
  intro a0 a1 a2 a3 a4 a5
  unfold execGAnd
  refine KeepsO.via (runAlu3_keeps _ _ _ _ _ _ _) rfl ?_
  exact Keeps.refl _ _

theorem execGSub_keeps : ∀ a0 a1 a2 a3 a4 a5, KeepsO 256605948 a5 (execGSub a0 a1 a2 a3 a4 a5) := by
  intro a0 a1 a2 a3 a4 a5
  unfold execGSub
  refine KeepsO.via (runAlu3_keeps _ _ _ _ _ _ _) rfl ?_
  exact Keeps.refl _ _

theorem execGAdd_keeps : ∀ a0 a1 a2 a3 a4 a5, KeepsO 256605948 a5 (execGAdd a0 a1 a2 a3 a4 a5) := by
  intro a0 a1 a2 a3 a4 a5
  unfold execGAdd
  refine KeepsO.via (runAlu3_keeps _ _ _ _ _ _ _) rfl ?_
  exact Keeps.refl _ _

theorem execInterrupt_keeps : ∀ a0 a1, KeepsO 256605948 a1 (execInterrupt a0 a1) := by
  intro a0 a1
  unfold execInterrupt
  refine KeepsO.ite ?_ ?_
  · refine KeepsO.next ?_
    refine Keeps.via (trapNow_keeps _ _ _ _) rfl ?_
    refine Keeps.via (setCore_keeps _ _ _) rfl ?_
    exact Keeps.refl _ _
  · refine KeepsO.next ?_
    exact Keeps.refl _ _

theorem execTimerRaise_keeps : ∀ a0 a1, KeepsO 16384 a1 (execTimerRaise a0 a1) := by
  intro a0 a1
  unfold execTimerRaise
  refine KeepsO.ite ?_ ?_
  · refine KeepsO.next ?_
    refine Keeps.via (wakeCore_keeps _ _) rfl ?_
    refine Keeps.via (setCore_keeps _ _ _) rfl ?_
    exact Keeps.refl _ _
  · refine KeepsO.next ?_
    exact Keeps.refl _ _

theorem runCrw_keeps : ∀ a0 a1 a2 a3 a4, KeepsO 256605948 a4 (runCrw a0 a1 a2 a3 a4) := by
  intro a0 a1 a2 a3 a4
  unfold runCrw
  refine KeepsO.ite ?_ ?_
  · refine KeepsO.next ?_
    exact Keeps.refl _ _
  · refine runIns_keeps ?_ rfl
    refine KeepsE.via (crWrite_keeps _ _ _ _) rfl ?_
    exact Keeps.refl _ _

theorem execSubmit_keeps : ∀ a0 a1 a2, KeepsO 256605948 a2 (execSubmit a0 a1 a2) := by
  intro a0 a1 a2
  unfold execSubmit
  refine KeepsO.via (runCrw_keeps _ _ _ _ _) rfl ?_
  exact Keeps.refl _ _

theorem execEmit_keeps : ∀ a0 a1 a2, KeepsO 256605948 a2 (execEmit a0 a1 a2) := by
  intro a0 a1 a2
  unfold execEmit
  refine KeepsO.via (runCrw_keeps _ _ _ _ _) rfl ?_
  exact Keeps.refl _ _

theorem execInqFree_keeps : ∀ a0 a1 a2, KeepsO 256605948 a2 (execInqFree a0 a1 a2) := by
  intro a0 a1 a2
  unfold execInqFree
  refine KeepsO.via (runCrw_keeps _ _ _ _ _) rfl ?_
  exact Keeps.refl _ _

theorem runCrr_keeps : ∀ a0 a1 a2 a3 a4, KeepsO 256605948 a4 (runCrr a0 a1 a2 a3 a4) := by
  intro a0 a1 a2 a3 a4
  unfold runCrr
  refine runIns_keeps ?_ rfl
  refine KeepsE.ok ?_
  refine Keeps.via (putG_keeps _ _ _ _) rfl ?_
  refine Keeps.via (crRead_keeps _ _ _) rfl ?_
  exact Keeps.refl _ _

theorem execInqPop_keeps : ∀ a0 a1 a2, KeepsO 256605948 a2 (execInqPop a0 a1 a2) := by
  intro a0 a1 a2
  unfold execInqPop
  refine KeepsO.via (runCrr_keeps _ _ _ _ _) rfl ?_
  exact Keeps.refl _ _

theorem execGCrw_keeps : ∀ a0 a1 a2 a3 a4, KeepsO 256605948 a4 (execGCrw a0 a1 a2 a3 a4) := by
  intro a0 a1 a2 a3 a4
  unfold execGCrw
  refine KeepsO.via (runCrw_keeps _ _ _ _ _) rfl ?_
  exact Keeps.refl _ _

theorem execGCrr_keeps : ∀ a0 a1 a2 a3 a4, KeepsO 256605948 a4 (execGCrr a0 a1 a2 a3 a4) := by
  intro a0 a1 a2 a3 a4
  unfold execGCrr
  refine KeepsO.via (runCrr_keeps _ _ _ _ _) rfl ?_
  exact Keeps.refl _ _

theorem execGWait_keeps : ∀ a0 a1 a2, KeepsO 256605948 a2 (execGWait a0 a1 a2) := by
  intro a0 a1 a2
  unfold execGWait
  refine runIns_keeps ?_ rfl
  refine KeepsE.ok ?_
  refine Keeps.ite ?_ ?_
  · exact Keeps.refl _ _
  · refine Keeps.via (setCore_keeps _ _ _) rfl ?_
    exact Keeps.refl _ _

theorem execGRft_keeps : ∀ a0 a1 a2, KeepsO 256605948 a2 (execGRft a0 a1 a2) := by
  intro a0 a1 a2
  unfold execGRft
  refine KeepsO.ite ?_ ?_
  · refine KeepsO.next ?_
    refine Keeps.via (setCore_keeps _ _ _) rfl ?_
    exact Keeps.refl _ _
  · refine runIns_keeps ?_ rfl
    refine KeepsE.ok ?_
    exact Keeps.refl _ _

theorem execGBreak_keeps : ∀ a0 a1 a2, KeepsO 256605948 a2 (execGBreak a0 a1 a2) := by
  intro a0 a1 a2
  unfold execGBreak
  refine runIns_keeps ?_ rfl
  exact KeepsE.error _

theorem execGSyscall_keeps : ∀ a0 a1 a2, KeepsO 256605948 a2 (execGSyscall a0 a1 a2) := by
  intro a0 a1 a2
  unfold execGSyscall
  refine runIns_keeps ?_ rfl
  exact KeepsE.error _

theorem execGNop_keeps : ∀ a0 a1 a2, KeepsO 256605948 a2 (execGNop a0 a1 a2) := by
  intro a0 a1 a2
  unfold execGNop
  refine runIns_keeps ?_ rfl
  refine KeepsE.ok ?_
  exact Keeps.refl _ _

theorem execFeedLast_keeps : ∀ a0 a1 a2, KeepsO 2101264 a2 (execFeedLast a0 a1 a2) := by
  intro a0 a1 a2
  unfold execFeedLast
  refine KeepsO.next ?_
  refine Keeps.via (feedLast_keeps _ _ _) rfl ?_
  exact Keeps.refl _ _

theorem execFeedW1_keeps : ∀ a0 a1 a2, KeepsO 2101264 a2 (execFeedW1 a0 a1 a2) := by
  intro a0 a1 a2
  unfold execFeedW1
  refine KeepsO.next ?_
  refine Keeps.via (feedW1_keeps _ _ _) rfl ?_
  exact Keeps.refl _ _

theorem execFeedW0_keeps : ∀ a0 a1 a2, KeepsO 2097168 a2 (execFeedW0 a0 a1 a2) := by
  intro a0 a1 a2
  unfold execFeedW0
  refine KeepsO.next ?_
  refine Keeps.via (feedW0_keeps _ _ _) rfl ?_
  exact Keeps.refl _ _

theorem execAbandon_keeps : ∀ a0 a1, KeepsO 2101264 a1 (execAbandon a0 a1) := by
  intro a0 a1
  unfold execAbandon
  refine KeepsO.ite ?_ ?_
  · refine KeepsO.next ?_
    exact Keeps.refl _ _
  · refine KeepsO.next ?_
    refine Keeps.via (feedDone_keeps _ _ _) rfl ?_
    refine Keeps.via (feedClose_keeps _ _) rfl ?_
    exact Keeps.refl _ _

theorem execRestore_keeps : ∀ a0 a1 a2, KeepsO 2101264 a2 (execRestore a0 a1 a2) := by
  intro a0 a1 a2
  unfold execRestore
  refine KeepsO.ite ?_ ?_
  · refine KeepsO.next ?_
    exact Keeps.refl _ _
  · split
    · refine KeepsO.next ?_
      refine Keeps.via (feedDone_keeps _ _ _) rfl ?_
      exact Keeps.refl _ _
    · refine KeepsO.next ?_
      refine Keeps.via (feedDone_keeps _ _ _) rfl ?_
      refine Keeps.via (setFeed_keeps _ _ _) rfl ?_
      split
      · refine Keeps.via (useSlot_keeps _ _) rfl ?_
        exact Keeps.refl _ _
      · exact Keeps.refl _ _

theorem execSave_keeps : ∀ a0 a1, KeepsO 2174996 a1 (execSave a0 a1) := by
  intro a0 a1
  unfold execSave
  refine KeepsO.ite ?_ ?_
  · refine KeepsO.next ?_
    exact Keeps.refl _ _
  · split
    · refine KeepsO.next ?_
      refine Keeps.via (feedDone_keeps _ _ _) rfl ?_
      refine Keeps.via (drawn_keeps _) rfl ?_
      exact Keeps.refl _ _
    · refine KeepsO.next ?_
      refine Keeps.via (feedDone_keeps _ _ _) rfl ?_
      refine Keeps.via (feedClose_keeps _ _) rfl ?_
      refine Keeps.via (hostWrite_keeps _ _ _ _ _) rfl ?_
      refine Keeps.via (drawn_keeps _) rfl ?_
      exact Keeps.refl _ _

theorem execFeedStart_keeps : ∀ a0 a1, KeepsO 2101264 a1 (execFeedStart a0 a1) := by
  intro a0 a1
  unfold execFeedStart
  refine KeepsO.ite ?_ ?_
  · refine KeepsO.next ?_
    exact Keeps.refl _ _
  · refine KeepsO.ite ?_ ?_
    · refine KeepsO.next ?_
      refine Keeps.via (feedDone_keeps _ _ _) rfl ?_
      exact Keeps.refl _ _
    · refine KeepsO.ite ?_ ?_
      · refine KeepsO.next ?_
        refine Keeps.via (feedDone_keeps _ _ _) rfl ?_
        refine Keeps.via (setFeed_keeps _ _ _) rfl ?_
        exact Keeps.refl _ _
      · refine KeepsO.ite ?_ ?_
        · refine KeepsO.next ?_
          refine Keeps.via (feedDone_keeps _ _ _) rfl ?_
          exact Keeps.refl _ _
        · refine KeepsO.ite ?_ ?_
          · refine KeepsO.next ?_
            refine Keeps.via (feedDone_keeps _ _ _) rfl ?_
            exact Keeps.refl _ _
          · refine KeepsO.ite ?_ ?_
            · refine KeepsO.next ?_
              refine Keeps.via (feedDone_keeps _ _ _) rfl ?_
              exact Keeps.refl _ _
            · refine KeepsO.next ?_
              refine Keeps.via (feedDone_keeps _ _ _) rfl ?_
              refine Keeps.via (setFeed_keeps _ _ _) rfl ?_
              refine Keeps.via (useSlot_keeps _ _) rfl ?_
              refine Keeps.via (hmacUse_keeps _ _ _) rfl ?_
              exact Keeps.refl _ _

theorem keyDone_keeps : ∀ a0 a1 a2, Keeps 84111376 a0 (keyDone a0 a1 a2) := by
  intro a0 a1 a2
  unfold keyDone
  refine Keeps.via (keyAnswer_keeps _ _ _) rfl ?_
  refine Keeps.via (setKey_keeps _ _) rfl ?_
  exact Keeps.refl _ _

theorem writeTable_keeps : ∀ a0, Keeps 4096 a0 (writeTable a0) := by
  intro a0
  unfold writeTable
  refine Keeps.via (setKey_keeps _ _) rfl ?_
  exact Keeps.refl _ _

theorem keyEffect_keeps : ∀ a0 a1 a2, Keeps 84111376 a0 (keyEffect a0 a1 a2) := by
  intro a0 a1 a2
  unfold keyEffect
  refine Keeps.via (keyDone_keeps _ _ _) rfl ?_
  refine Keeps.ite ?_ ?_
  · refine Keeps.via (writeTable_keeps _) rfl ?_
    refine Keeps.via (setSlot_keeps _ _ _) rfl ?_
    refine Keeps.via (dropKeyCopies_keeps _ _) rfl ?_
    exact Keeps.refl _ _
  · refine Keeps.via (setSlot_keeps _ _ _) rfl ?_
    refine Keeps.via (dropKeyCopies_keeps _ _) rfl ?_
    exact Keeps.refl _ _

theorem execKeyFenceComplete_keeps : ∀ a0 a1, KeepsO 222524368 a1 (execKeyFenceComplete a0 a1) := by
  intro a0 a1
  unfold execKeyFenceComplete
  try dsimp -proj only
  split
  · refine KeepsO.ite ?_ ?_
    · refine KeepsO.next ?_
      refine Keeps.via (keyEffect_keeps _ _ _) rfl ?_
      refine Keeps.ite ?_ ?_
      · refine Keeps.put_cfg ?_ rfl _
        refine Keeps.via (releaseSlot_keeps _ _) rfl ?_
        refine Keeps.put_sbx ?_ rfl _
        refine Keeps.foldl (fun x1 _ => ?_) ?_
        · refine Keeps.via (finishTicket_keeps _ _) rfl ?_
          exact Keeps.refl _ _
        · exact Keeps.refl _ _
      · refine Keeps.put_sbx ?_ rfl _
        refine Keeps.foldl (fun x2 _ => ?_) ?_
        · refine Keeps.via (finishTicket_keeps _ _) rfl ?_
          exact Keeps.refl _ _
        · exact Keeps.refl _ _
    · refine KeepsO.next ?_
      exact Keeps.refl _ _
  · refine KeepsO.next ?_
    exact Keeps.refl _ _

theorem parkHeld_keeps : ∀ a0 a1 a2, Keeps 80 a0 (parkHeld a0 a1 a2) := by
  intro a0 a1 a2
  unfold parkHeld
  split
  · exact Keeps.refl _ _
  · refine Keeps.foldl (fun x1 _ => ?_) ?_
    · refine Keeps.via (park_keeps _ _) rfl ?_
      exact Keeps.refl _ _
    · exact Keeps.refl _ _

theorem revokeFeeds_keeps : ∀ a0 a1, Keeps 2101264 a0 (revokeFeeds a0 a1) := by
  intro a0 a1
  unfold revokeFeeds
  refine Keeps.foldl (fun x1 _ => ?_) ?_
  · refine Keeps.ite ?_ ?_
    · refine Keeps.via (setLive_keeps _ _ _ _ _) rfl ?_
      refine Keeps.via (setLive_keeps _ _ _ _ _) rfl ?_
      refine Keeps.put_dgt ?_ rfl _
      refine Keeps.via (releaseSlot_keeps _ _) rfl ?_
      exact Keeps.refl _ _
    · exact Keeps.refl _ _
  · exact Keeps.refl _ _

theorem execKeyFenceTimeout_keeps : ∀ a0 a1, KeepsO 258177784 a1 (execKeyFenceTimeout a0 a1) := by
  intro a0 a1
  unfold execKeyFenceTimeout
  refine KeepsO.ite ?_ ?_
  · refine KeepsO.next ?_
    exact Keeps.refl _ _
  · refine KeepsO.next ?_
    refine Keeps.foldl (fun x1 _ => ?_) ?_
    · refine Keeps.ite ?_ ?_
      · refine Keeps.via (finishTicket_keeps _ _) rfl ?_
        refine Keeps.via (fenceTicket_keeps _ _ _ _) rfl ?_
        refine Keeps.via (parkHeld_keeps _ _ _) rfl ?_
        refine Keeps.via (countSlotFence_keeps _ _) rfl ?_
        exact Keeps.refl _ _
      · refine Keeps.via (fenceTicket_keeps _ _ _ _) rfl ?_
        refine Keeps.via (parkHeld_keeps _ _ _) rfl ?_
        refine Keeps.via (countSlotFence_keeps _ _) rfl ?_
        exact Keeps.refl _ _
    · refine Keeps.via (revokeFeeds_keeps _ _) rfl ?_
      refine Keeps.via (record_keeps _ _ _ _ _ _ _) rfl ?_
      refine Keeps.put_sbx ?_ rfl _
      refine Keeps.via (setSlot_keeps _ _ _) rfl ?_
      exact Keeps.refl _ _

theorem execKeyUseZero_keeps : ∀ a0 a1, KeepsO 84111376 a1 (execKeyUseZero a0 a1) := by
  intro a0 a1
  unfold execKeyUseZero
  try dsimp -proj only
  split
  · refine KeepsO.ite ?_ ?_
    · refine KeepsO.next ?_
      refine Keeps.via (keyEffect_keeps _ _ _) rfl ?_
      exact Keeps.refl _ _
    · refine KeepsO.next ?_
      exact Keeps.refl _ _
  · refine KeepsO.next ?_
    exact Keeps.refl _ _

theorem execCtxFree_keeps : ∀ a0, KeepsO 84111376 a0 (execCtxFree a0) := by
  intro a0
  unfold execCtxFree
  split
  · refine KeepsO.next ?_
    exact Keeps.refl _ _
  · split
    · refine KeepsO.next ?_
      refine Keeps.via (keyDone_keeps _ _ _) rfl ?_
      exact Keeps.refl _ _
    · refine KeepsO.next ?_
      refine Keeps.via (keyDone_keeps _ _ _) rfl ?_
      refine Keeps.via (setHandle_keeps _ _ _ _) rfl ?_
      exact Keeps.refl _ _

theorem execCtxImport_keeps : ∀ a0 a1, KeepsO 84111376 a1 (execCtxImport a0 a1) := by
  intro a0 a1
  unfold execCtxImport
  split
  · refine KeepsO.next ?_
    exact Keeps.refl _ _
  · split
    · refine KeepsO.next ?_
      refine Keeps.via (keyDone_keeps _ _ _) rfl ?_
      exact Keeps.refl _ _
    · refine KeepsO.ite ?_ ?_
      · refine KeepsO.next ?_
        refine Keeps.via (keyDone_keeps _ _ _) rfl ?_
        exact Keeps.refl _ _
      · split
        · refine KeepsO.next ?_
          refine Keeps.via (keyDone_keeps _ _ _) rfl ?_
          exact Keeps.refl _ _
        · refine KeepsO.next ?_
          refine Keeps.via (keyDone_keeps _ _ _) rfl ?_
          refine Keeps.via (setHandle_keeps _ _ _ _) rfl ?_
          exact Keeps.refl _ _

theorem execCtxExport_keeps : ∀ a0, KeepsO 84111380 a0 (execCtxExport a0) := by
  intro a0
  unfold execCtxExport
  split
  · refine KeepsO.next ?_
    exact Keeps.refl _ _
  · split
    · refine KeepsO.next ?_
      refine Keeps.via (keyDone_keeps _ _ _) rfl ?_
      exact Keeps.refl _ _
    · split
      · refine KeepsO.next ?_
        refine Keeps.via (keyDone_keeps _ _ _) rfl ?_
        exact Keeps.refl _ _
      · split
        · refine KeepsO.next ?_
          refine Keeps.via (keyDone_keeps _ _ _) rfl ?_
          refine Keeps.via (drawn_keeps _) rfl ?_
          exact Keeps.refl _ _
        · refine KeepsO.next ?_
          refine Keeps.via (keyDone_keeps _ _ _) rfl ?_
          refine Keeps.via (hostWrite_keeps _ _ _ _ _) rfl ?_
          refine Keeps.via (drawn_keeps _) rfl ?_
          exact Keeps.refl _ _

theorem keyRewrite_keeps : ∀ a0 a1 a2, Keeps 84111376 a0 (keyRewrite a0 a1 a2) := by
  intro a0 a1 a2
  unfold keyRewrite
  refine Keeps.ite ?_ ?_
  · refine Keeps.via (keyEffect_keeps _ _ _) rfl ?_
    exact Keeps.refl _ _
  · refine Keeps.via (setSlot_keeps _ _ _) rfl ?_
    exact Keeps.refl _ _

theorem execKeyWithdraw_keeps : ∀ a0, KeepsO 85159952 a0 (execKeyWithdraw a0) := by
  intro a0
  unfold execKeyWithdraw
  split
  · refine KeepsO.next ?_
    exact Keeps.refl _ _
  · refine KeepsO.ite ?_ ?_
    · refine KeepsO.next ?_
      exact Keeps.refl _ _
    · split
      · refine KeepsO.next ?_
        refine Keeps.via (keyDone_keeps _ _ _) rfl ?_
        exact Keeps.refl _ _
      · refine KeepsO.next ?_
        refine Keeps.via (keyRewrite_keeps _ _ _) rfl ?_
        refine Keeps.via (tdiDisturb_keeps _ _) rfl ?_
        exact Keeps.refl _ _

theorem execKeyErase_keeps : ∀ a0, KeepsO 84111376 a0 (execKeyErase a0) := by
  intro a0
  unfold execKeyErase
  split
  · refine KeepsO.next ?_
    exact Keeps.refl _ _
  · refine KeepsO.ite ?_ ?_
    · refine KeepsO.next ?_
      exact Keeps.refl _ _
    · split
      · refine KeepsO.next ?_
        refine Keeps.via (keyDone_keeps _ _ _) rfl ?_
        exact Keeps.refl _ _
      · refine KeepsO.next ?_
        refine Keeps.via (keyRewrite_keeps _ _ _) rfl ?_
        exact Keeps.refl _ _

theorem execKeyLoad_keeps : ∀ a0 a1, KeepsO 84111376 a1 (execKeyLoad a0 a1) := by
  intro a0 a1
  unfold execKeyLoad
  split
  · refine KeepsO.next ?_
    exact Keeps.refl _ _
  · refine KeepsO.ite ?_ ?_
    · refine KeepsO.next ?_
      exact Keeps.refl _ _
    · split
      · refine KeepsO.next ?_
        refine Keeps.via (keyDone_keeps _ _ _) rfl ?_
        exact Keeps.refl _ _
      · refine KeepsO.ite ?_ ?_
        · refine KeepsO.next ?_
          refine Keeps.via (keyDone_keeps _ _ _) rfl ?_
          exact Keeps.refl _ _
        · split
          · refine KeepsO.next ?_
            refine Keeps.via (keyDone_keeps _ _ _) rfl ?_
            refine Keeps.via (bump_keeps _ _ _ _ _) rfl ?_
            exact Keeps.refl _ _
          · refine KeepsO.ite ?_ ?_
            · refine KeepsO.next ?_
              refine Keeps.via (keyRewrite_keeps _ _ _) rfl ?_
              exact Keeps.refl _ _
            · refine KeepsO.next ?_
              refine Keeps.via (keyDone_keeps _ _ _) rfl ?_
              exact Keeps.refl _ _

theorem execKeyGrant_keeps : ∀ a0, KeepsO 85159952 a0 (execKeyGrant a0) := by
  intro a0
  unfold execKeyGrant
  split
  · refine KeepsO.next ?_
    exact Keeps.refl _ _
  · split
    · refine KeepsO.next ?_
      refine Keeps.via (keyDone_keeps _ _ _) rfl ?_
      exact Keeps.refl _ _
    · refine KeepsO.ite ?_ ?_
      · refine KeepsO.next ?_
        refine Keeps.via (keyDone_keeps _ _ _) rfl ?_
        exact Keeps.refl _ _
      · refine KeepsO.next ?_
        refine Keeps.via (keyDone_keeps _ _ _) rfl ?_
        refine Keeps.via (writeTable_keeps _) rfl ?_
        refine Keeps.via (tdiDisturb_keeps _ _) rfl ?_
        refine Keeps.via (setSlot_keeps _ _ _) rfl ?_
        exact Keeps.refl _ _

theorem execLoad_keeps : ∀ a0 a1, KeepsO 256605912 a1 (execLoad a0 a1) := by
  intro a0 a1
  unfold execLoad
  refine KeepsO.next ?_
  unfold serveAt
  try dsimp -proj only
  try dsimp -proj only
  split
  · try dsimp -proj only
    exact Keeps.refl _ _
  · rename_i y1_0 y1_1 h1
    have k1 : Keeps 256605912 a1 y1_1 := by
      refine Keeps.via (dequeue_keeps _ _ _ _ h1) rfl ?_
      exact Keeps.refl _ _
    try dsimp -proj only
    try dsimp -proj only
    split
    · try dsimp -proj only
      exact k1
    · try dsimp -proj only
      refine Keeps.ite ?_ ?_
      · exact k1
      · split
        · try dsimp -proj only
          exact k1
        · try dsimp -proj only
          refine Keeps.ite ?_ ?_
          · split
            · try dsimp -proj only
              refine Keeps.via (failAt_keeps _ _ _ _ _) rfl ?_
              exact k1
            · try dsimp -proj only
              refine Keeps.ite ?_ ?_
              · refine Keeps.ite ?_ ?_
                · refine Keeps.via (enqueue_keeps _ _ _) rfl ?_
                  exact k1
                · refine Keeps.ite ?_ ?_
                  · refine Keeps.via (failAt_keeps _ _ _ _ _) rfl ?_
                    exact k1
                  · refine Keeps.ite ?_ ?_
                    · refine Keeps.via (endProvisional_keeps _ _ _) rfl ?_
                      exact k1
                    · refine Keeps.via (endOut_keeps _ _ _ _ _ _) rfl ?_
                      exact k1
              · refine Keeps.ite ?_ ?_
                · refine Keeps.via (failAt_keeps _ _ _ _ _) rfl ?_
                  exact k1
                · refine Keeps.ite ?_ ?_
                  · refine Keeps.via (failAt_keeps _ _ _ _ _) rfl ?_
                    exact k1
                  · refine Keeps.via (setCtx_keeps _ _ _ _) rfl ?_
                    refine Keeps.via (writeCore_keeps _ _ _ _) rfl ?_
                    exact k1
          · exact Keeps.refl _ _

theorem unslow_keeps : ∀ a0 a1, Keeps 17408 a0 (unslow a0 a1) := by
  intro a0 a1
  unfold unslow
  refine Keeps.ite ?_ ?_
  · exact Keeps.refl _ _
  · refine Keeps.via (setIsland_keeps _ _ _) rfl ?_
    refine Keeps.via (setCore_keeps _ _ _) rfl ?_
    exact Keeps.refl _ _

theorem ringPut_keeps : ∀ a0 a1 a2 a3 a4, KeepsM 541696 a0 (ringPut a0 a1 a2 a3 a4) := by
  intro a0 a1 a2 a3 a4
  unfold ringPut
  try dsimp -proj only
  split
  · exact KeepsM.none
  · refine KeepsM.some ?_
    refine Keeps.via (wakeCore_keeps _ _) rfl ?_
    refine Keeps.via (writeCore_keeps _ _ _ _) rfl ?_
    refine Keeps.via (setCore_keeps _ _ _) rfl ?_
    refine Keeps.via (unslow_keeps _ _) rfl ?_
    exact Keeps.refl _ _

theorem ringEnd_keeps : ∀ a0 a1 a2 a3 a4, Keeps 17408 a0 (ringEnd a0 a1 a2 a3 a4) := by
  intro a0 a1 a2 a3 a4
  unfold ringEnd
  refine Keeps.via (wakeCore_keeps _ _) rfl ?_
  refine Keeps.via (setCore_keeps _ _ _) rfl ?_
  refine Keeps.via (unslow_keeps _ _) rfl ?_
  exact Keeps.refl _ _

theorem execProgram_keeps : ∀ a0 a1, KeepsO 256605912 a1 (execProgram a0 a1) := by
  intro a0 a1
  unfold execProgram
  refine KeepsO.next ?_
  unfold serveAt
  try dsimp -proj only
  try dsimp -proj only
  split
  · try dsimp -proj only
    exact Keeps.refl _ _
  · rename_i y1_0 y1_1 h1
    have k1 : Keeps 256605912 a1 y1_1 := by
      refine Keeps.via (dequeue_keeps _ _ _ _ h1) rfl ?_
      exact Keeps.refl _ _
    try dsimp -proj only
    try dsimp -proj only
    split
    · try dsimp -proj only
      exact k1
    · try dsimp -proj only
      refine Keeps.ite ?_ ?_
      · exact k1
      · split
        · try dsimp -proj only
          exact k1
        · try dsimp -proj only
          refine Keeps.ite ?_ ?_
          · split
            · try dsimp -proj only
              refine Keeps.via (failAt_keeps _ _ _ _ _) rfl ?_
              exact k1
            · try dsimp -proj only
              refine Keeps.ite ?_ ?_
              · refine Keeps.ite ?_ ?_
                · refine Keeps.via (ringEnd_keeps _ _ _ _ _) rfl ?_
                  exact k1
                · refine Keeps.via (enqueue_keeps _ _ _) rfl ?_
                  exact k1
              · split
                · rename_i y2_0 h2
                  have k2 : Keeps 256605912 a1 y2_0 := by
                    refine KeepsM.of h2 ?_
                    refine KeepsM.via (ringPut_keeps _ _ _ _ _) rfl ?_
                    exact k1
                  try dsimp -proj only
                  refine Keeps.via (setCtx_keeps _ _ _ _) rfl ?_
                  exact k2
                · try dsimp -proj only
                  refine Keeps.via (setInbox_keeps _ _ _) rfl ?_
                  exact k1
          · exact Keeps.refl _ _

theorem execDramStation_keeps : ∀ a0 a1 a2, KeepsO 256605948 a2 (execDramStation a0 a1 a2) := by
  intro a0 a1 a2
  unfold execDramStation
  refine KeepsO.next ?_
  unfold serveFront
  try dsimp -proj only
  unfold serveAt
  try dsimp -proj only
  try dsimp -proj only
  split
  · try dsimp -proj only
    exact Keeps.refl _ _
  · rename_i y1_0 y1_1 h1
    have k1 : Keeps 256605948 a2 y1_1 := by
      refine Keeps.via (dequeue_keeps _ _ _ _ h1) rfl ?_
      exact Keeps.refl _ _
    try dsimp -proj only
    try dsimp -proj only
    split
    · try dsimp -proj only
      exact k1
    · try dsimp -proj only
      refine Keeps.ite ?_ ?_
      · exact k1
      · split
        · try dsimp -proj only
          exact k1
        · try dsimp -proj only
          refine Keeps.ite ?_ ?_
          · refine Keeps.ite ?_ ?_
            · refine Keeps.via (setInbox_keeps _ _ _) rfl ?_
              exact k1
            · split
              · try dsimp -proj only
                refine Keeps.via (dramFetch_keeps _ _ _ _ _ _ _ _) rfl ?_
                exact k1
              · try dsimp -proj only
                refine Keeps.via (dramPut_keeps _ _ _ _ _ _ _) rfl ?_
                exact k1
          · exact Keeps.refl _ _

theorem portWrite_keeps : ∀ a0 a1 a2 a3, Keeps 73728 a0 (portWrite a0 a1 a2 a3) := by
  intro a0 a1 a2 a3
  induction a2 generalizing a0 a1 a3 with
  | nil =>
    rw [portWrite.eq_1]
    exact Keeps.refl _ _
  | cons a l ih =>
    rw [portWrite.eq_2]
    refine Keeps.via (ih _ _ _) rfl ?_
    refine Keeps.via (hostWrite_keeps _ _ _ _ _) rfl ?_
    exact Keeps.refl _ _

theorem portPut_keeps : ∀ a0 a1 a2 a3 a4 a5 a6, Keeps 256081624 a0 (portPut a0 a1 a2 a3 a4 a5 a6) := by
  intro a0 a1 a2 a3 a4 a5 a6
  unfold portPut
  refine Keeps.ite ?_ ?_
  · refine Keeps.ite ?_ ?_
    · refine Keeps.via (enqueue_keeps _ _ _) rfl ?_
      exact Keeps.refl _ _
    · refine Keeps.ite ?_ ?_
      · refine Keeps.via (endProvisional_keeps _ _ _) rfl ?_
        exact Keeps.refl _ _
      · refine Keeps.via (endOut_keeps _ _ _ _ _ _) rfl ?_
        exact Keeps.refl _ _
  · refine Keeps.ite ?_ ?_
    · refine Keeps.via (setCtx_keeps _ _ _ _) rfl ?_
      refine Keeps.via (portWrite_keeps _ _ _ _) rfl ?_
      exact Keeps.refl _ _
    · refine Keeps.ite ?_ ?_
      · refine Keeps.via (failAt_keeps _ _ _ _ _) rfl ?_
        exact Keeps.refl _ _
      · refine Keeps.ite ?_ ?_
        · refine Keeps.via (failAt_keeps _ _ _ _ _) rfl ?_
          exact Keeps.refl _ _
        · refine Keeps.ite ?_ ?_
          · refine Keeps.via (setCtx_keeps _ _ _ _) rfl ?_
            refine Keeps.via (portWrite_keeps _ _ _ _) rfl ?_
            exact Keeps.refl _ _
          · refine Keeps.ite ?_ ?_
            · refine Keeps.via (failAt_keeps _ _ _ _ _) rfl ?_
              exact Keeps.refl _ _
            · refine Keeps.via (failAt_keeps _ _ _ _ _) rfl ?_
              refine Keeps.via (modEntry_keeps _ _ _) rfl ?_
              exact Keeps.refl _ _

theorem execHostPortWrite_keeps : ∀ a0 a1 a2, KeepsO 256081624 a2 (execHostPortWrite a0 a1 a2) := by
  intro a0 a1 a2
  unfold execHostPortWrite
  refine KeepsO.next ?_
  unfold serveFront
  try dsimp -proj only
  unfold serveAt
  try dsimp -proj only
  try dsimp -proj only
  split
  · try dsimp -proj only
    exact Keeps.refl _ _
  · rename_i y1_0 y1_1 h1
    have k1 : Keeps 256081624 a2 y1_1 := by
      refine Keeps.via (dequeue_keeps _ _ _ _ h1) rfl ?_
      exact Keeps.refl _ _
    try dsimp -proj only
    try dsimp -proj only
    split
    · try dsimp -proj only
      exact k1
    · try dsimp -proj only
      refine Keeps.ite ?_ ?_
      · exact k1
      · split
        · try dsimp -proj only
          exact k1
        · try dsimp -proj only
          refine Keeps.ite ?_ ?_
          · split
            · try dsimp -proj only
              refine Keeps.via (portPut_keeps _ _ _ _ _ _ _) rfl ?_
              exact k1
            · try dsimp -proj only
              refine Keeps.via (setInbox_keeps _ _ _) rfl ?_
              exact k1
          · exact Keeps.refl _ _

theorem portShort_keeps : ∀ a0 a1 a2 a3 a4, Keeps 256081624 a0 (portShort a0 a1 a2 a3 a4) := by
  intro a0 a1 a2 a3 a4
  unfold portShort
  refine Keeps.via (failAt_keeps _ _ _ _ _) rfl ?_
  refine Keeps.via (modEntry_keeps _ _ _) rfl ?_
  refine Keeps.via (bump_keeps _ _ _ _ _) rfl ?_
  exact Keeps.refl _ _

theorem portTake_keeps : ∀ a0 a1 a2 a3 a4 a5 a6 a7, Keeps 256081624 a0 (portTake a0 a1 a2 a3 a4 a5 a6 a7) := by
  intro a0 a1 a2 a3 a4 a5 a6 a7
  unfold portTake
  refine Keeps.ite ?_ ?_
  · refine Keeps.via (portShort_keeps _ _ _ _ _) rfl ?_
    refine Keeps.via (countTaken_keeps _ _ _) rfl ?_
    refine Keeps.via (countCtx_keeps _ _ _ _ _) rfl ?_
    refine Keeps.ite ?_ ?_
    · refine Keeps.ite ?_ ?_
      · refine Keeps.via (setInbox_keeps _ _ _) rfl ?_
        exact Keeps.refl _ _
      · exact Keeps.refl _ _
    · refine Keeps.via (sendData_keeps _ _ _ _ _ _ _ _ _) rfl ?_
      refine Keeps.ite ?_ ?_
      · refine Keeps.via (setInbox_keeps _ _ _) rfl ?_
        exact Keeps.refl _ _
      · exact Keeps.refl _ _
  · split
    · refine Keeps.via (countTaken_keeps _ _ _) rfl ?_
      refine Keeps.via (countCtx_keeps _ _ _ _ _) rfl ?_
      refine Keeps.ite ?_ ?_
      · refine Keeps.ite ?_ ?_
        · refine Keeps.via (setInbox_keeps _ _ _) rfl ?_
          exact Keeps.refl _ _
        · exact Keeps.refl _ _
      · refine Keeps.via (sendData_keeps _ _ _ _ _ _ _ _ _) rfl ?_
        refine Keeps.ite ?_ ?_
        · refine Keeps.via (setInbox_keeps _ _ _) rfl ?_
          exact Keeps.refl _ _
        · exact Keeps.refl _ _
    · refine Keeps.ite ?_ ?_
      · refine Keeps.via (endOut_keeps _ _ _ _ _ _) rfl ?_
        refine Keeps.via (countTaken_keeps _ _ _) rfl ?_
        refine Keeps.via (countCtx_keeps _ _ _ _ _) rfl ?_
        refine Keeps.ite ?_ ?_
        · refine Keeps.ite ?_ ?_
          · refine Keeps.via (setInbox_keeps _ _ _) rfl ?_
            exact Keeps.refl _ _
          · exact Keeps.refl _ _
        · refine Keeps.via (sendData_keeps _ _ _ _ _ _ _ _ _) rfl ?_
          refine Keeps.ite ?_ ?_
          · refine Keeps.via (setInbox_keeps _ _ _) rfl ?_
            exact Keeps.refl _ _
          · exact Keeps.refl _ _
      · refine Keeps.via (countTaken_keeps _ _ _) rfl ?_
        refine Keeps.via (countCtx_keeps _ _ _ _ _) rfl ?_
        refine Keeps.ite ?_ ?_
        · refine Keeps.ite ?_ ?_
          · refine Keeps.via (setInbox_keeps _ _ _) rfl ?_
            exact Keeps.refl _ _
          · exact Keeps.refl _ _
        · refine Keeps.via (sendData_keeps _ _ _ _ _ _ _ _ _) rfl ?_
          refine Keeps.ite ?_ ?_
          · refine Keeps.via (setInbox_keeps _ _ _) rfl ?_
            exact Keeps.refl _ _
          · exact Keeps.refl _ _

theorem portFetch_keeps : ∀ a0 a1 a2 a3 a4 a5 a6 a7 a8, Keeps 256081624 a0 (portFetch a0 a1 a2 a3 a4 a5 a6 a7 a8) := by
  intro a0 a1 a2 a3 a4 a5 a6 a7 a8
  unfold portFetch
  refine Keeps.ite ?_ ?_
  · refine Keeps.via (portTake_keeps _ _ _ _ _ _ _ _) rfl ?_
    exact Keeps.refl _ _
  · refine Keeps.ite ?_ ?_
    · refine Keeps.via (failAt_keeps _ _ _ _ _) rfl ?_
      exact Keeps.refl _ _
    · refine Keeps.ite ?_ ?_
      · refine Keeps.via (portTake_keeps _ _ _ _ _ _ _ _) rfl ?_
        exact Keeps.refl _ _
      · refine Keeps.ite ?_ ?_
        · refine Keeps.via (failAt_keeps _ _ _ _ _) rfl ?_
          exact Keeps.refl _ _
        · refine Keeps.ite ?_ ?_
          · refine Keeps.via (portShort_keeps _ _ _ _ _) rfl ?_
            exact Keeps.refl _ _
          · refine Keeps.via (portTake_keeps _ _ _ _ _ _ _ _) rfl ?_
            refine Keeps.ite ?_ ?_
            · refine Keeps.via (report_keeps _ _ _ _) rfl ?_
              refine Keeps.via (bump_keeps _ _ _ _ _) rfl ?_
              exact Keeps.refl _ _
            · exact Keeps.refl _ _

theorem execHostPortFetch_keeps : ∀ a0 a1 a2 a3, KeepsO 256081624 a3 (execHostPortFetch a0 a1 a2 a3) := by
  intro a0 a1 a2 a3
  unfold execHostPortFetch
  refine KeepsO.next ?_
  unfold serveFront
  try dsimp -proj only
  unfold serveAt
  try dsimp -proj only
  try dsimp -proj only
  split
  · try dsimp -proj only
    exact Keeps.refl _ _
  · rename_i y1_0 y1_1 h1
    have k1 : Keeps 256081624 a3 y1_1 := by
      refine Keeps.via (dequeue_keeps _ _ _ _ h1) rfl ?_
      exact Keeps.refl _ _
    try dsimp -proj only
    try dsimp -proj only
    split
    · try dsimp -proj only
      exact k1
    · try dsimp -proj only
      refine Keeps.ite ?_ ?_
      · exact k1
      · split
        · try dsimp -proj only
          exact k1
        · try dsimp -proj only
          refine Keeps.ite ?_ ?_
          · split
            · try dsimp -proj only
              refine Keeps.via (portFetch_keeps _ _ _ _ _ _ _ _ _) rfl ?_
              exact k1
            · try dsimp -proj only
              refine Keeps.via (setInbox_keeps _ _ _) rfl ?_
              exact k1
          · exact Keeps.refl _ _

theorem execReceive_keeps : ∀ a0 a1, KeepsO 256081624 a1 (execReceive a0 a1) := by
  intro a0 a1
  unfold execReceive
  refine KeepsO.next ?_
  unfold serveFront
  try dsimp -proj only
  unfold serveAt
  try dsimp -proj only
  try dsimp -proj only
  split
  · try dsimp -proj only
    exact Keeps.refl _ _
  · rename_i y1_0 y1_1 h1
    have k1 : Keeps 256081624 a1 y1_1 := by
      refine Keeps.via (dequeue_keeps _ _ _ _ h1) rfl ?_
      exact Keeps.refl _ _
    try dsimp -proj only
    try dsimp -proj only
    split
    · try dsimp -proj only
      exact k1
    · try dsimp -proj only
      refine Keeps.ite ?_ ?_
      · exact k1
      · split
        · try dsimp -proj only
          exact k1
        · try dsimp -proj only
          refine Keeps.ite ?_ ?_
          · split
            · try dsimp -proj only
              try dsimp -proj only
              split
              · try dsimp -proj only
                refine Keeps.via (failAt_keeps _ _ _ _ _) rfl ?_
                exact k1
              · try dsimp -proj only
                refine Keeps.ite ?_ ?_
                · refine Keeps.via (endOut_keeps _ _ _ _ _ _) rfl ?_
                  refine Keeps.via (sendOut_keeps _ _ _ _ _ _ _) rfl ?_
                  refine Keeps.via (countTaken_keeps _ _ _) rfl ?_
                  refine Keeps.via (countCtx_keeps _ _ _ _ _) rfl ?_
                  exact k1
                · refine Keeps.via (sendOut_keeps _ _ _ _ _ _ _) rfl ?_
                  refine Keeps.via (countTaken_keeps _ _ _) rfl ?_
                  refine Keeps.via (countCtx_keeps _ _ _ _ _) rfl ?_
                  exact k1
            · try dsimp -proj only
              refine Keeps.via (failAt_keeps _ _ _ _ _) rfl ?_
              exact k1
            · try dsimp -proj only
              refine Keeps.via (failAt_keeps _ _ _ _ _) rfl ?_
              exact k1
          · exact Keeps.refl _ _

theorem takeMessage_keeps : ∀ a0 a1 a2 a3 a4, KeepsM 222524096 a0 (takeMessage a0 a1 a2 a3 a4) := by
  intro a0 a1 a2 a3 a4
  unfold takeMessage
  refine KeepsM.ite ?_ ?_
  · refine KeepsM.ite ?_ ?_
    · exact KeepsM.none
    · refine KeepsM.some ?_
      refine Keeps.via (submitRecvs_keeps _) rfl ?_
      refine Keeps.via (addRecv_keeps _ _ _) rfl ?_
      exact Keeps.refl _ _
  · refine KeepsM.ite ?_ ?_
    · exact KeepsM.none
    · split
      · refine KeepsM.some ?_
        refine Keeps.via (pumpConn_keeps _ _ _ _) rfl ?_
        refine Keeps.via (setConn_keeps _ _) rfl ?_
        exact Keeps.refl _ _
      · refine KeepsM.ite ?_ ?_
        · exact KeepsM.none
        · refine KeepsM.some ?_
          refine Keeps.via (pumpConn_keeps _ _ _ _) rfl ?_
          refine Keeps.via (setJct_keeps _ _) rfl ?_
          exact Keeps.refl _ _

theorem execBankCopyDone_keeps : ∀ a0 a1, KeepsO 4194312 a1 (execBankCopyDone a0 a1) := by
  intro a0 a1
  unfold execBankCopyDone
  refine KeepsO.ite ?_ ?_
  · refine KeepsO.next ?_
    exact Keeps.refl _ _
  · split
    · refine KeepsO.next ?_
      refine Keeps.via (setUnit_keeps _ _ _) rfl ?_
      refine Keeps.via (setBank_keeps _ _ _) rfl ?_
      exact Keeps.refl _ _
    · refine KeepsO.next ?_
      refine Keeps.via (setUnit_keeps _ _ _) rfl ?_
      refine Keeps.via (setBank_keeps _ _ _) rfl ?_
      exact Keeps.refl _ _
    · refine KeepsO.next ?_
      exact Keeps.refl _ _

theorem recordScrub_keeps : ∀ a0 a1 a2, Keeps 33556528 a0 (recordScrub a0 a1 a2) := by
  intro a0 a1 a2
  unfold recordScrub
  refine Keeps.via (record_keeps _ _ _ _ _ _ _) rfl ?_
  exact Keeps.refl _ _

theorem scrubPass_keeps : ∀ a0 a1, Keeps 4194304 a0 (scrubPass a0 a1) := by
  intro a0 a1
  unfold scrubPass
  refine Keeps.ite ?_ ?_
  · refine Keeps.via (setAsu_keeps _ _) rfl ?_
    exact Keeps.refl _ _
  · refine Keeps.ite ?_ ?_
    · split
      · refine Keeps.via (setAsu_keeps _ _) rfl ?_
        exact Keeps.refl _ _
      · exact Keeps.refl _ _
    · exact Keeps.refl _ _

theorem execScrubRead_keeps : ∀ a0 a1 a2 a3 a4 a5, KeepsO 38275120 a5 (execScrubRead a0 a1 a2 a3 a4 a5) := by
  intro a0 a1 a2 a3 a4 a5
  unfold execScrubRead
  refine KeepsO.ite ?_ ?_
  · refine KeepsO.next ?_
    refine Keeps.ite ?_ ?_
    · refine Keeps.via (scrubPass_keeps _ _) rfl ?_
      exact Keeps.refl _ _
    · exact Keeps.refl _ _
  · refine KeepsO.ite ?_ ?_
    · refine KeepsO.next ?_
      refine Keeps.via (recordScrub_keeps _ _ _) rfl ?_
      refine Keeps.via (bump_keeps _ _ _ _ _) rfl ?_
      refine Keeps.via (setAsu_keeps _ _) rfl ?_
      refine Keeps.ite ?_ ?_
      · refine Keeps.via (scrubPass_keeps _ _) rfl ?_
        exact Keeps.refl _ _
      · exact Keeps.refl _ _
    · refine KeepsO.ite ?_ ?_
      · refine KeepsO.next ?_
        refine Keeps.via (countFinding_keeps _ _) rfl ?_
        refine Keeps.via (recordScrub_keeps _ _ _) rfl ?_
        refine Keeps.via (bump_keeps _ _ _ _ _) rfl ?_
        refine Keeps.via (setAsu_keeps _ _) rfl ?_
        refine Keeps.ite ?_ ?_
        · refine Keeps.via (scrubPass_keeps _ _) rfl ?_
          exact Keeps.refl _ _
        · exact Keeps.refl _ _
      · refine KeepsO.ite ?_ ?_
        · refine KeepsO.next ?_
          refine Keeps.via (countFinding_keeps _ _) rfl ?_
          refine Keeps.via (recordScrub_keeps _ _ _) rfl ?_
          refine Keeps.via (bump_keeps _ _ _ _ _) rfl ?_
          refine Keeps.via (setAsu_keeps _ _) rfl ?_
          refine Keeps.ite ?_ ?_
          · refine Keeps.via (scrubPass_keeps _ _) rfl ?_
            exact Keeps.refl _ _
          · exact Keeps.refl _ _
        · refine KeepsO.ite ?_ ?_
          · refine KeepsO.next ?_
            refine Keeps.via (recordScrub_keeps _ _ _) rfl ?_
            refine Keeps.via (bump_keeps _ _ _ _ _) rfl ?_
            refine Keeps.via (setAsu_keeps _ _) rfl ?_
            refine Keeps.ite ?_ ?_
            · refine Keeps.via (scrubPass_keeps _ _) rfl ?_
              exact Keeps.refl _ _
            · exact Keeps.refl _ _
          · refine KeepsO.next ?_
            refine Keeps.via (setAsu_keeps _ _) rfl ?_
            refine Keeps.ite ?_ ?_
            · refine Keeps.via (scrubPass_keeps _ _) rfl ?_
              exact Keeps.refl _ _
            · exact Keeps.refl _ _

theorem execAsuHoldRoomFree_keeps : ∀ a0 a1, KeepsO 4194432 a1 (execAsuHoldRoomFree a0 a1) := by
  intro a0 a1
  unfold execAsuHoldRoomFree
  split
  · refine KeepsO.next ?_
    exact Keeps.refl _ _
  · split
    · refine KeepsO.next ?_
      refine Keeps.via (setAsu_keeps _ _) rfl ?_
      exact Keeps.refl _ _
    · try dsimp -proj only
      split
      · refine KeepsO.next ?_
        refine Keeps.via (setAsu_keeps _ _) rfl ?_
        exact Keeps.refl _ _
      · refine KeepsO.ite ?_ ?_
        · refine KeepsO.next ?_
          exact Keeps.refl _ _
        · refine KeepsO.next ?_
          refine Keeps.via (setCtx_keeps _ _ _ _) rfl ?_
          refine Keeps.via (setAsu_keeps _ _) rfl ?_
          exact Keeps.refl _ _

theorem presentKeys_keeps : ∀ a0 a1 a2, Keeps 4194304 a0 (presentKeys a0 a1 a2) := by
  intro a0 a1 a2
  unfold presentKeys
  refine Keeps.via (setAsu_keeps _ _) rfl ?_
  exact Keeps.refl _ _

theorem storeEntry_keeps : ∀ a0 a1 a2, Keeps 4194304 a0 (storeEntry a0 a1 a2) := by
  intro a0 a1 a2
  unfold storeEntry
  refine Keeps.via (setAsu_keeps _ _) rfl ?_
  exact Keeps.refl _ _

theorem presentUpdates_keeps : ∀ a0 a1, Keeps 4194304 a0 (presentUpdates a0 a1) := by
  intro a0 a1
  unfold presentUpdates
  refine Keeps.via (setAsu_keeps _ _) rfl ?_
  exact Keeps.refl _ _

theorem searchPacket_keeps : ∀ a0 a1 a2 a3 a4 a5 a6, Keeps 256605944 a0 (searchPacket a0 a1 a2 a3 a4 a5 a6) := by
  intro a0 a1 a2 a3 a4 a5 a6
  unfold searchPacket
  split
  · exact Keeps.refl _ _
  · split
    · refine Keeps.via (failAt_keeps _ _ _ _ _) rfl ?_
      exact Keeps.refl _ _
    · refine Keeps.ite ?_ ?_
      · refine Keeps.via (setCtx_keeps _ _ _ _) rfl ?_
        refine Keeps.foldl (fun x1 _ => ?_) ?_
        · refine Keeps.via (storeEntry_keeps _ _ _) rfl ?_
          exact Keeps.refl _ _
        · refine Keeps.via (presentUpdates_keeps _ _) rfl ?_
          refine Keeps.via (setEntry_keeps _ _ _) rfl ?_
          exact Keeps.refl _ _
      · refine Keeps.ite ?_ ?_
        · refine Keeps.via (failAt_keeps _ _ _ _ _) rfl ?_
          refine Keeps.via (countWords_keeps _ _ _ _ _) rfl ?_
          refine Keeps.via (bump_keeps _ _ _ _ _) rfl ?_
          refine Keeps.via (bump_keeps _ _ _ _ _) rfl ?_
          refine Keeps.via (presentKeys_keeps _ _ _) rfl ?_
          refine Keeps.via (setEntry_keeps _ _ _) rfl ?_
          exact Keeps.refl _ _
        · refine Keeps.via (sendOut_keeps _ _ _ _ _ _ _) rfl ?_
          refine Keeps.via (countWords_keeps _ _ _ _ _) rfl ?_
          refine Keeps.via (bump_keeps _ _ _ _ _) rfl ?_
          refine Keeps.via (bump_keeps _ _ _ _ _) rfl ?_
          refine Keeps.via (presentKeys_keeps _ _ _) rfl ?_
          refine Keeps.via (setEntry_keeps _ _ _) rfl ?_
          exact Keeps.refl _ _

theorem searchHold_keeps : ∀ a0 a1 a2 a3 a4 a5, Keeps 256081624 a0 (searchHold a0 a1 a2 a3 a4 a5) := by
  intro a0 a1 a2 a3 a4 a5
  unfold searchHold
  refine Keeps.ite ?_ ?_
  · exact Keeps.refl _ _
  · refine Keeps.ite ?_ ?_
    · refine Keeps.via (failAt_keeps _ _ _ _ _) rfl ?_
      exact Keeps.refl _ _
    · refine Keeps.ite ?_ ?_
      · refine Keeps.via (setAsu_keeps _ _) rfl ?_
        exact Keeps.refl _ _
      · refine Keeps.via (setCtx_keeps _ _ _ _) rfl ?_
        refine Keeps.via (setAsu_keeps _ _) rfl ?_
        exact Keeps.refl _ _

theorem searchHeld_keeps : ∀ a0 a1 a2 a3 a4 a5 a6, Keeps 256605944 a0 (searchHeld a0 a1 a2 a3 a4 a5 a6) := by
  intro a0 a1 a2 a3 a4 a5 a6
  unfold searchHeld
  refine Keeps.foldl1 (fun x1 _ => ?_) ?_
  · refine Keeps.ite ?_ ?_
    · refine Keeps.via (searchPacket_keeps _ _ _ _ _ _ _) rfl ?_
      exact Keeps.refl _ _
    · exact Keeps.refl _ _
  · exact Keeps.refl _ _

theorem searchEnd_keeps : ∀ a0 a1 a2 a3 a4 a5 a6, Keeps 256605944 a0 (searchEnd a0 a1 a2 a3 a4 a5 a6) := by
  intro a0 a1 a2 a3 a4 a5 a6
  unfold searchEnd
  try dsimp -proj only
  split
  · refine Keeps.ite ?_ ?_
    · refine Keeps.via (setCtx_keeps _ _ _ _) rfl ?_
      exact Keeps.refl _ _
    · refine Keeps.via (searchHeld_keeps _ _ _ _ _ _ _) rfl ?_
      refine Keeps.via (setCtx_keeps _ _ _ _) rfl ?_
      exact Keeps.refl _ _
  · refine Keeps.ite ?_ ?_
    · refine Keeps.ite ?_ ?_
      · refine Keeps.via (setCtx_keeps _ _ _ _) rfl ?_
        exact Keeps.refl _ _
      · refine Keeps.via (searchHeld_keeps _ _ _ _ _ _ _) rfl ?_
        refine Keeps.via (setCtx_keeps _ _ _ _) rfl ?_
        exact Keeps.refl _ _
    · refine Keeps.ite ?_ ?_
      · refine Keeps.via (endProvisional_keeps _ _ _) rfl ?_
        refine Keeps.ite ?_ ?_
        · refine Keeps.via (setCtx_keeps _ _ _ _) rfl ?_
          exact Keeps.refl _ _
        · refine Keeps.via (searchHeld_keeps _ _ _ _ _ _ _) rfl ?_
          refine Keeps.via (setCtx_keeps _ _ _ _) rfl ?_
          exact Keeps.refl _ _
      · refine Keeps.via (endOut_keeps _ _ _ _ _ _) rfl ?_
        refine Keeps.ite ?_ ?_
        · refine Keeps.via (setCtx_keeps _ _ _ _) rfl ?_
          exact Keeps.refl _ _
        · refine Keeps.via (searchHeld_keeps _ _ _ _ _ _ _) rfl ?_
          refine Keeps.via (setCtx_keeps _ _ _ _) rfl ?_
          exact Keeps.refl _ _

theorem ternaryFaults_keeps : ∀ a0 a1, Keeps 4194304 a0 (ternaryFaults a0 a1) := by
  intro a0 a1
  unfold ternaryFaults
  refine Keeps.via (setAsu_keeps _ _) rfl ?_
  exact Keeps.refl _ _

theorem searchServe_keeps : ∀ a0 a1 a2 a3, Keeps 256605944 a0 (searchServe a0 a1 a2 a3) := by
  intro a0 a1 a2 a3
  unfold searchServe
  unfold serveFront
  try dsimp -proj only
  unfold serveAt
  try dsimp -proj only
  try dsimp -proj only
  split
  · try dsimp -proj only
    refine Keeps.via (ternaryFaults_keeps _ _) rfl ?_
    exact Keeps.refl _ _
  · rename_i y1_0 y1_1 h1
    have k1 : Keeps 256605944 a0 y1_1 := by
      refine Keeps.via (dequeue_keeps _ _ _ _ h1) rfl ?_
      refine Keeps.via (ternaryFaults_keeps _ _) rfl ?_
      exact Keeps.refl _ _
    try dsimp -proj only
    try dsimp -proj only
    split
    · try dsimp -proj only
      exact k1
    · try dsimp -proj only
      refine Keeps.ite ?_ ?_
      · exact k1
      · split
        · try dsimp -proj only
          exact k1
        · try dsimp -proj only
          refine Keeps.ite ?_ ?_
          · split
            · try dsimp -proj only
              refine Keeps.via (failAt_keeps _ _ _ _ _) rfl ?_
              exact k1
            · try dsimp -proj only
              refine Keeps.ite ?_ ?_
              · refine Keeps.ite ?_ ?_
                · refine Keeps.via (enqueue_keeps _ _ _) rfl ?_
                  exact k1
                · refine Keeps.via (searchEnd_keeps _ _ _ _ _ _ _) rfl ?_
                  exact k1
              · refine Keeps.ite ?_ ?_
                · refine Keeps.ite ?_ ?_
                  · refine Keeps.via (setCtx_keeps _ _ _ _) rfl ?_
                    refine Keeps.via (searchHold_keeps _ _ _ _ _ _) rfl ?_
                    refine Keeps.via (countCtx_keeps _ _ _ _ _) rfl ?_
                    exact k1
                  · refine Keeps.via (searchHold_keeps _ _ _ _ _ _) rfl ?_
                    refine Keeps.via (countCtx_keeps _ _ _ _ _) rfl ?_
                    exact k1
                · refine Keeps.via (searchPacket_keeps _ _ _ _ _ _ _) rfl ?_
                  refine Keeps.via (countCtx_keeps _ _ _ _ _) rfl ?_
                  exact k1
          · refine Keeps.via (ternaryFaults_keeps _ _) rfl ?_
            exact Keeps.refl _ _

theorem execUpdate_keeps : ∀ a0 a1, KeepsO 256605944 a1 (execUpdate a0 a1) := by
  intro a0 a1
  unfold execUpdate
  refine KeepsO.next ?_
  refine Keeps.via (searchServe_keeps _ _ _ _) rfl ?_
  exact Keeps.refl _ _

theorem execSearch64_keeps : ∀ a0 a1, KeepsO 256605944 a1 (execSearch64 a0 a1) := by
  intro a0 a1
  unfold execSearch64
  refine KeepsO.next ?_
  refine Keeps.via (searchServe_keeps _ _ _ _) rfl ?_
  exact Keeps.refl _ _

theorem execSearch16_keeps : ∀ a0 a1, KeepsO 256605944 a1 (execSearch16 a0 a1) := by
  intro a0 a1
  unfold execSearch16
  refine KeepsO.next ?_
  refine Keeps.via (searchServe_keeps _ _ _ _) rfl ?_
  exact Keeps.refl _ _

theorem execSearch4_keeps : ∀ a0 a1, KeepsO 256605944 a1 (execSearch4 a0 a1) := by
  intro a0 a1
  unfold execSearch4
  refine KeepsO.next ?_
  refine Keeps.via (searchServe_keeps _ _ _ _) rfl ?_
  exact Keeps.refl _ _

theorem execSink_keeps : ∀ a0 a1, KeepsO 256081624 a1 (execSink a0 a1) := by
  intro a0 a1
  unfold execSink
  refine KeepsO.next ?_
  refine Keeps.via (dgtServe_keeps _ _ _) rfl ?_
  exact Keeps.refl _ _

theorem execPass_keeps : ∀ a0 a1, KeepsO 256081624 a1 (execPass a0 a1) := by
  intro a0 a1
  unfold execPass
  refine KeepsO.next ?_
  refine Keeps.via (dgtServe_keeps _ _ _) rfl ?_
  exact Keeps.refl _ _

theorem holdRoomFree_keeps : ∀ a0 a1 a2, Keeps 4224 a1 (holdRoomFree a0 a1 a2) := by
  intro a0 a1 a2
  unfold holdRoomFree
  split
  · exact Keeps.refl _ _
  · split
    · refine Keeps.ite ?_ ?_
      · exact Keeps.refl _ _
      · refine Keeps.via (setInbox_keeps _ _ _) rfl ?_
        refine Keeps.via (setCtx_keeps _ _ _ _) rfl ?_
        refine Keeps.via (reserveHold_keeps _ _ _ _) rfl ?_
        refine Keeps.via (setKey_keeps _ _) rfl ?_
        exact Keeps.refl _ _
    · refine Keeps.via (setKey_keeps _ _) rfl ?_
      exact Keeps.refl _ _

theorem execGcmHoldRoomFree_keeps : ∀ a0 a1, KeepsO 4224 a1 (execGcmHoldRoomFree a0 a1) := by
  intro a0 a1
  unfold execGcmHoldRoomFree
  refine KeepsO.next ?_
  refine Keeps.foldl (fun x1 _ => ?_) ?_
  · refine Keeps.via (holdRoomFree_keeps _ _ _) rfl ?_
    exact Keeps.refl _ _
  · exact Keeps.refl _ _

theorem execGcmDec_keeps : ∀ a0 a1 a2, KeepsO 256605944 a2 (execGcmDec a0 a1 a2) := by
  intro a0 a1 a2
  unfold execGcmDec
  refine KeepsO.next ?_
  refine Keeps.via (cipServe_keeps _ _ _ _) rfl ?_
  exact Keeps.refl _ _

theorem execGcmEnc_keeps : ∀ a0 a1 a2, KeepsO 256605944 a2 (execGcmEnc a0 a1 a2) := by
  intro a0 a1 a2
  unfold execGcmEnc
  refine KeepsO.next ?_
  refine Keeps.via (cipServe_keeps _ _ _ _) rfl ?_
  exact Keeps.refl _ _

theorem execXtsDec_keeps : ∀ a0 a1 a2, KeepsO 256605944 a2 (execXtsDec a0 a1 a2) := by
  intro a0 a1 a2
  unfold execXtsDec
  refine KeepsO.next ?_
  refine Keeps.via (cipServe_keeps _ _ _ _) rfl ?_
  exact Keeps.refl _ _

theorem execXtsEnc_keeps : ∀ a0 a1 a2, KeepsO 256605944 a2 (execXtsEnc a0 a1 a2) := by
  intro a0 a1 a2
  unfold execXtsEnc
  refine KeepsO.next ?_
  refine Keeps.via (cipServe_keeps _ _ _ _) rfl ?_
  exact Keeps.refl _ _

theorem execStreamDecompress_keeps : ∀ a0 a1 a2 a3, KeepsO 256605944 a3 (execStreamDecompress a0 a1 a2 a3) := by
  intro a0 a1 a2 a3
  unfold execStreamDecompress
  refine KeepsO.next ?_
  refine Keeps.via (cmpServe_keeps _ _ _ _ _) rfl ?_
  exact Keeps.refl _ _

theorem execStreamCompress_keeps : ∀ a0 a1 a2, KeepsO 256605944 a2 (execStreamCompress a0 a1 a2) := by
  intro a0 a1 a2
  unfold execStreamCompress
  refine KeepsO.next ?_
  refine Keeps.via (cmpServe_keeps _ _ _ _ _) rfl ?_
  exact Keeps.refl _ _

theorem execSlotDecompress_keeps : ∀ a0 a1 a2 a3, KeepsO 256605944 a3 (execSlotDecompress a0 a1 a2 a3) := by
  intro a0 a1 a2 a3
  unfold execSlotDecompress
  refine KeepsO.next ?_
  refine Keeps.via (cmpServe_keeps _ _ _ _ _) rfl ?_
  exact Keeps.refl _ _

theorem execSlotCompress_keeps : ∀ a0 a1 a2, KeepsO 256605944 a2 (execSlotCompress a0 a1 a2) := by
  intro a0 a1 a2
  unfold execSlotCompress
  refine KeepsO.next ?_
  refine Keeps.via (cmpServe_keeps _ _ _ _ _) rfl ?_
  exact Keeps.refl _ _

theorem sendHeld_keeps : ∀ a0 a1 a2 a3, Keeps 136 a0 (sendHeld a0 a1 a2 a3) := by
  intro a0 a1 a2 a3
  unfold sendHeld
  refine Keeps.foldl (fun x1 _ => ?_) ?_
  · refine Keeps.via (sendUnit_keeps _ _ _ _ _ _ _ _) rfl ?_
    exact Keeps.refl _ _
  · refine Keeps.via (setCtx_keeps _ _ _ _) rfl ?_
    exact Keeps.refl _ _

theorem parityWork_keeps : ∀ a0 a1 a2 a3 a4, Keeps 256081624 a0 (parityWork a0 a1 a2 a3 a4) := by
  intro a0 a1 a2 a3 a4
  unfold parityWork
  split
  · refine Keeps.via (failAt_keeps _ _ _ _ _) rfl ?_
    exact Keeps.refl _ _
  · refine Keeps.ite ?_ ?_
    · refine Keeps.ite ?_ ?_
      · refine Keeps.via (enqueue_keeps _ _ _) rfl ?_
        exact Keeps.refl _ _
      · split
        · refine Keeps.via (endOut_keeps _ _ _ _ _ _) rfl ?_
          refine Keeps.ite ?_ ?_
          · exact Keeps.refl _ _
          · refine Keeps.via (sendHeld_keeps _ _ _ _) rfl ?_
            exact Keeps.refl _ _
        · exact Keeps.refl _ _
    · refine Keeps.ite ?_ ?_
      · refine Keeps.via (setCtx_keeps _ _ _ _) rfl ?_
        refine Keeps.via (setCtx_keeps _ _ _ _) rfl ?_
        exact Keeps.refl _ _
      · refine Keeps.via (sendUnit_keeps _ _ _ _ _ _ _ _) rfl ?_
        refine Keeps.via (setCtx_keeps _ _ _ _) rfl ?_
        exact Keeps.refl _ _

theorem finishStripe_keeps : ∀ a0 a1 a2, Keeps 8388608 a0 (finishStripe a0 a1 a2) := by
  intro a0 a1 a2
  unfold finishStripe
  try dsimp -proj only
  split
  · exact Keeps.refl _ _
  · refine Keeps.ite ?_ ?_
    · refine Keeps.ite ?_ ?_
      · refine Keeps.via (setFch_keeps _ _) rfl ?_
        refine Keeps.via (setFch_keeps _ _) rfl ?_
        exact Keeps.refl _ _
      · refine Keeps.via (setFch_keeps _ _) rfl ?_
        exact Keeps.refl _ _
    · exact Keeps.refl _ _

theorem sumMember_keeps : ∀ a0 a1 a2 a3, Keeps 8389632 a0 (sumMember a0 a1 a2 a3) := by
  intro a0 a1 a2 a3
  unfold sumMember
  try dsimp -proj only
  split
  · refine Keeps.ite ?_ ?_
    · exact Keeps.refl _ _
    · refine Keeps.via (finishStripe_keeps _ _ _) rfl ?_
      refine Keeps.via (book_keeps _ _ _) rfl ?_
      refine Keeps.via (setFch_keeps _ _) rfl ?_
      exact Keeps.refl _ _
  · exact Keeps.refl _ _

theorem execParityEngineStep_keeps : ∀ a0 a1 a2, KeepsO 264470232 a2 (execParityEngineStep a0 a1 a2) := by
  intro a0 a1 a2
  unfold execParityEngineStep
  split
  · refine KeepsO.ite ?_ ?_
    · refine KeepsO.next ?_
      refine Keeps.via (sumMember_keeps _ _ _ _) rfl ?_
      exact Keeps.refl _ _
    · refine KeepsO.next ?_
      exact Keeps.refl _ _
  · refine KeepsO.next ?_
    unfold serveFront
    try dsimp -proj only
    unfold serveAt
    try dsimp -proj only
    try dsimp -proj only
    split
    · try dsimp -proj only
      exact Keeps.refl _ _
    · rename_i y1_0 y1_1 h1
      have k1 : Keeps 264470232 a2 y1_1 := by
        refine Keeps.via (dequeue_keeps _ _ _ _ h1) rfl ?_
        exact Keeps.refl _ _
      try dsimp -proj only
      try dsimp -proj only
      split
      · try dsimp -proj only
        exact k1
      · try dsimp -proj only
        refine Keeps.ite ?_ ?_
        · exact k1
        · split
          · try dsimp -proj only
            exact k1
          · try dsimp -proj only
            refine Keeps.ite ?_ ?_
            · refine Keeps.via (parityWork_keeps _ _ _ _ _) rfl ?_
              exact k1
            · exact Keeps.refl _ _

theorem readOut_keeps : ∀ a0 a1 a2 a3 a4 a5 a6, Keeps 256081624 a0 (readOut a0 a1 a2 a3 a4 a5 a6) := by
  intro a0 a1 a2 a3 a4 a5 a6
  unfold readOut
  try dsimp -proj only
  split
  · refine Keeps.via (countTaken_keeps _ _ _) rfl ?_
    refine Keeps.via (countCtx_keeps _ _ _ _ _) rfl ?_
    refine Keeps.via (sendData_keeps _ _ _ _ _ _ _ _ _) rfl ?_
    exact Keeps.refl _ _
  · refine Keeps.ite ?_ ?_
    · refine Keeps.via (endOut_keeps _ _ _ _ _ _) rfl ?_
      refine Keeps.via (countTaken_keeps _ _ _) rfl ?_
      refine Keeps.via (countCtx_keeps _ _ _ _ _) rfl ?_
      refine Keeps.via (sendData_keeps _ _ _ _ _ _ _ _ _) rfl ?_
      exact Keeps.refl _ _
    · refine Keeps.via (countTaken_keeps _ _ _) rfl ?_
      refine Keeps.via (countCtx_keeps _ _ _ _ _) rfl ?_
      refine Keeps.via (sendData_keeps _ _ _ _ _ _ _ _ _) rfl ?_
      exact Keeps.refl _ _

theorem execReadRaw_keeps : ∀ a0 a1 a2, KeepsO 256081624 a2 (execReadRaw a0 a1 a2) := by
  intro a0 a1 a2
  unfold execReadRaw
  refine KeepsO.next ?_
  unfold serveAt
  try dsimp -proj only
  try dsimp -proj only
  split
  · try dsimp -proj only
    exact Keeps.refl _ _
  · rename_i y1_0 y1_1 h1
    have k1 : Keeps 256081624 a2 y1_1 := by
      refine Keeps.via (dequeue_keeps _ _ _ _ h1) rfl ?_
      exact Keeps.refl _ _
    try dsimp -proj only
    try dsimp -proj only
    split
    · try dsimp -proj only
      exact k1
    · try dsimp -proj only
      refine Keeps.ite ?_ ?_
      · exact k1
      · split
        · try dsimp -proj only
          exact k1
        · try dsimp -proj only
          refine Keeps.ite ?_ ?_
          · split
            · try dsimp -proj only
              refine Keeps.via (failAt_keeps _ _ _ _ _) rfl ?_
              exact k1
            · try dsimp -proj only
              try dsimp -proj only
              split
              · try dsimp -proj only
                refine Keeps.via (failAt_keeps _ _ _ _ _) rfl ?_
                exact k1
              · try dsimp -proj only
                refine Keeps.via (readOut_keeps _ _ _ _ _ _ _) rfl ?_
                refine Keeps.foldl (fun x2 _ => ?_) ?_
                · refine Keeps.via (countCtx_keeps _ _ _ _ _) rfl ?_
                  refine Keeps.via (sendData_keeps _ _ _ _ _ _ _ _ _) rfl ?_
                  exact Keeps.refl _ _
                · refine Keeps.via (countRead_keeps _ _) rfl ?_
                  exact k1
              · try dsimp -proj only
                refine Keeps.via (readOut_keeps _ _ _ _ _ _ _) rfl ?_
                exact k1
              · try dsimp -proj only
                refine Keeps.via (readOut_keeps _ _ _ _ _ _ _) rfl ?_
                exact k1
          · exact Keeps.refl _ _

theorem placeHeld_keeps : ∀ a0 a1 a2 a3 a4 a5, Keeps 230913728 a3 (placeHeld a0 a1 a2 a3 a4 a5) := by
  intro a0 a1 a2 a3 a4 a5
  induction a2 generalizing a0 a1 a3 a4 a5 with
  | zero =>
    rw [placeHeld.eq_1]
    exact Keeps.refl _ _
  | succ n ih =>
    rw [placeHeld.eq_2]
    split
    · try dsimp -proj only
      split
      · exact Keeps.refl _ _
      · rename_i y1_0 h1
        have k1 : Keeps 230913728 a3 y1_0 := by
          refine KeepsM.of h1 ?_
          split
          · refine KeepsM.some ?_
            exact Keeps.refl _ _
          · refine KeepsM.via (placeSlot_keeps _ _ _ _ _) rfl ?_
            refine Keeps.via (setEntry_keeps _ _ _) rfl ?_
            exact Keeps.refl _ _
        refine Keeps.via (ih _ _ _ _ _) rfl ?_
        refine Keeps.via (setCtx_keeps _ _ _ _) rfl ?_
        exact k1
    · exact Keeps.refl _ _

theorem writeEnd_keeps : ∀ a0 a1 a2 a3 a4 a5, Keeps 230913728 a0 (writeEnd a0 a1 a2 a3 a4 a5) := by
  intro a0 a1 a2 a3 a4 a5
  unfold writeEnd
  refine Keeps.ite ?_ ?_
  · refine Keeps.via (enqueue_keeps _ _ _) rfl ?_
    refine Keeps.via (placeHeld_keeps _ _ _ _ _ _) rfl ?_
    exact Keeps.refl _ _
  · try dsimp -proj only
    split
    · refine Keeps.via (setCtx_keeps _ _ _ _) rfl ?_
      refine Keeps.via (placeHeld_keeps _ _ _ _ _ _) rfl ?_
      exact Keeps.refl _ _
    · refine Keeps.ite ?_ ?_
      · refine Keeps.ite ?_ ?_
        · refine Keeps.via (ackTicket_keeps _ _ _) rfl ?_
          refine Keeps.via (setEntry_keeps _ _ _) rfl ?_
          refine Keeps.via (setCtx_keeps _ _ _ _) rfl ?_
          refine Keeps.via (placeHeld_keeps _ _ _ _ _ _) rfl ?_
          exact Keeps.refl _ _
        · refine Keeps.via (setEntry_keeps _ _ _) rfl ?_
          refine Keeps.via (setCtx_keeps _ _ _ _) rfl ?_
          refine Keeps.via (placeHeld_keeps _ _ _ _ _ _) rfl ?_
          exact Keeps.refl _ _
      · refine Keeps.via (setCtx_keeps _ _ _ _) rfl ?_
        refine Keeps.via (placeHeld_keeps _ _ _ _ _ _) rfl ?_
        exact Keeps.refl _ _

theorem writeServe_keeps : ∀ a0 a1 a2, Keeps 264470232 a0 (writeServe a0 a1 a2) := by
  intro a0 a1 a2
  unfold writeServe
  unfold serveAt
  try dsimp -proj only
  try dsimp -proj only
  split
  · try dsimp -proj only
    exact Keeps.refl _ _
  · rename_i y1_0 y1_1 h1
    have k1 : Keeps 264470232 a0 y1_1 := by
      refine Keeps.via (dequeue_keeps _ _ _ _ h1) rfl ?_
      exact Keeps.refl _ _
    try dsimp -proj only
    try dsimp -proj only
    split
    · try dsimp -proj only
      exact k1
    · try dsimp -proj only
      refine Keeps.ite ?_ ?_
      · exact k1
      · split
        · try dsimp -proj only
          exact k1
        · try dsimp -proj only
          refine Keeps.ite ?_ ?_
          · split
            · try dsimp -proj only
              refine Keeps.via (failAt_keeps _ _ _ _ _) rfl ?_
              exact k1
            · try dsimp -proj only
              refine Keeps.ite ?_ ?_
              · refine Keeps.via (durableData_keeps _ _ _ _ _) rfl ?_
                exact k1
              · refine Keeps.ite ?_ ?_
                · refine Keeps.via (enqueue_keeps _ _ _) rfl ?_
                  exact k1
                · refine Keeps.ite ?_ ?_
                  · refine Keeps.via (endProvisional_keeps _ _ _) rfl ?_
                    exact k1
                  · refine Keeps.via (writeEnd_keeps _ _ _ _ _ _) rfl ?_
                    exact k1
          · exact Keeps.refl _ _

theorem execWriteDense_keeps : ∀ a0 a1, KeepsO 264470232 a1 (execWriteDense a0 a1) := by
  intro a0 a1
  unfold execWriteDense
  refine KeepsO.next ?_
  refine Keeps.via (writeServe_keeps _ _ _) rfl ?_
  exact Keeps.refl _ _

theorem execWriteSluice_keeps : ∀ a0 a1, KeepsO 264470232 a1 (execWriteSluice a0 a1) := by
  intro a0 a1
  unfold execWriteSluice
  refine KeepsO.next ?_
  refine Keeps.via (writeServe_keeps _ _ _) rfl ?_
  exact Keeps.refl _ _

theorem issueRead_keeps : ∀ a0 a1 a2, KeepsM 8388608 a0 (issueRead a0 a1 a2) := by
  intro a0 a1 a2
  unfold issueRead
  refine KeepsM.ite ?_ ?_
  · exact KeepsM.none
  · refine KeepsM.some ?_
    refine Keeps.via (setChan_keeps _ _ _) rfl ?_
    exact Keeps.refl _ _

theorem readUnit_keeps : ∀ a0 a1 a2 a3 a4 a5 a6, Keeps 264470232 a0 (readUnit a0 a1 a2 a3 a4 a5 a6) := by
  intro a0 a1 a2 a3 a4 a5 a6
  unfold readUnit
  split
  · refine Keeps.via (failAt_keeps _ _ _ _ _) rfl ?_
    exact Keeps.refl _ _
  · refine Keeps.via (readOut_keeps _ _ _ _ _ _ _) rfl ?_
    exact Keeps.refl _ _
  · refine Keeps.via (readOut_keeps _ _ _ _ _ _ _) rfl ?_
    exact Keeps.refl _ _
  · refine Keeps.via (failAt_keeps _ _ _ _ _) rfl ?_
    exact Keeps.refl _ _
  · try dsimp -proj only
    split
    · rename_i y1_0 h1
      have k1 : Keeps 264470232 a0 y1_0 := by
        refine KeepsM.of h1 ?_
        refine KeepsM.via (issueRead_keeps _ _ _) rfl ?_
        exact Keeps.refl _ _
      exact k1
    · refine Keeps.via (setInbox_keeps _ _ _) rfl ?_
      exact Keeps.refl _ _

theorem execRead_keeps : ∀ a0 a1, KeepsO 264470232 a1 (execRead a0 a1) := by
  intro a0 a1
  unfold execRead
  refine KeepsO.next ?_
  unfold serveAt
  try dsimp -proj only
  try dsimp -proj only
  split
  · try dsimp -proj only
    exact Keeps.refl _ _
  · rename_i y1_0 y1_1 h1
    have k1 : Keeps 264470232 a1 y1_1 := by
      refine Keeps.via (dequeue_keeps _ _ _ _ h1) rfl ?_
      exact Keeps.refl _ _
    try dsimp -proj only
    try dsimp -proj only
    split
    · try dsimp -proj only
      exact k1
    · try dsimp -proj only
      refine Keeps.ite ?_ ?_
      · exact k1
      · split
        · try dsimp -proj only
          exact k1
        · try dsimp -proj only
          refine Keeps.ite ?_ ?_
          · split
            · try dsimp -proj only
              refine Keeps.via (readUnit_keeps _ _ _ _ _ _ _) rfl ?_
              exact k1
            · try dsimp -proj only
              refine Keeps.via (failAt_keeps _ _ _ _ _) rfl ?_
              exact k1
          · exact Keeps.refl _ _

theorem execMapWrite_keeps : ∀ a0, KeepsO 256081624 a0 (execMapWrite a0) := by
  intro a0
  unfold execMapWrite
  refine KeepsO.next ?_
  unfold serveFront
  try dsimp -proj only
  unfold serveAt
  try dsimp -proj only
  try dsimp -proj only
  split
  · try dsimp -proj only
    exact Keeps.refl _ _
  · rename_i y1_0 y1_1 h1
    have k1 : Keeps 256081624 a0 y1_1 := by
      refine Keeps.via (dequeue_keeps _ _ _ _ h1) rfl ?_
      exact Keeps.refl _ _
    try dsimp -proj only
    try dsimp -proj only
    split
    · try dsimp -proj only
      exact k1
    · try dsimp -proj only
      refine Keeps.ite ?_ ?_
      · exact k1
      · split
        · try dsimp -proj only
          exact k1
        · try dsimp -proj only
          refine Keeps.ite ?_ ?_
          · split
            · try dsimp -proj only
              refine Keeps.via (failAt_keeps _ _ _ _ _) rfl ?_
              exact k1
            · try dsimp -proj only
              refine Keeps.ite ?_ ?_
              · refine Keeps.via (failAt_keeps _ _ _ _ _) rfl ?_
                exact k1
              · refine Keeps.foldl (fun x2 _ => ?_) ?_
                · split
                  · try dsimp -proj only
                    exact Keeps.refl _ _
                  · try dsimp -proj only
                    refine Keeps.via (readOut_keeps _ _ _ _ _ _ _) rfl ?_
                    refine Keeps.via (modEntry_keeps _ _ _) rfl ?_
                    refine Keeps.via (setFtl_keeps _ _) rfl ?_
                    exact Keeps.refl _ _
                · exact k1
          · exact Keeps.refl _ _

theorem execDurable_keeps : ∀ a0, KeepsO 256081624 a0 (execDurable a0) := by
  intro a0
  unfold execDurable
  refine KeepsO.next ?_
  unfold serveFront
  try dsimp -proj only
  unfold serveAt
  try dsimp -proj only
  try dsimp -proj only
  split
  · try dsimp -proj only
    exact Keeps.refl _ _
  · rename_i y1_0 y1_1 h1
    have k1 : Keeps 256081624 a0 y1_1 := by
      refine Keeps.via (dequeue_keeps _ _ _ _ h1) rfl ?_
      exact Keeps.refl _ _
    try dsimp -proj only
    try dsimp -proj only
    split
    · try dsimp -proj only
      exact k1
    · try dsimp -proj only
      refine Keeps.ite ?_ ?_
      · exact k1
      · split
        · try dsimp -proj only
          exact k1
        · try dsimp -proj only
          refine Keeps.ite ?_ ?_
          · refine Keeps.ite ?_ ?_
            · unfold mapStep
              try dsimp -proj only
              try dsimp -proj only
              split
              · try dsimp -proj only
                refine Keeps.ite ?_ ?_
                · refine Keeps.via (endOut_keeps _ _ _ _ _ _) rfl ?_
                  refine Keeps.via (countTaken_keeps _ _ _) rfl ?_
                  refine Keeps.via (countCtx_keeps _ _ _ _ _) rfl ?_
                  exact k1
                · refine Keeps.via (countTaken_keeps _ _ _) rfl ?_
                  refine Keeps.via (countCtx_keeps _ _ _ _ _) rfl ?_
                  exact k1
              · try dsimp -proj only
                refine Keeps.ite ?_ ?_
                · refine Keeps.via (countCtx_keeps _ _ _ _ _) rfl ?_
                  exact k1
                · refine Keeps.ite ?_ ?_
                  · refine Keeps.via (enqueue_keeps _ _ _) rfl ?_
                    exact k1
                  · refine Keeps.ite ?_ ?_
                    · refine Keeps.ite ?_ ?_
                      · refine Keeps.via (endProvisional_keeps _ _ _) rfl ?_
                        exact k1
                      · refine Keeps.via (endOut_keeps _ _ _ _ _ _) rfl ?_
                        exact k1
                    · refine Keeps.via (endOut_keeps _ _ _ _ _ _) rfl ?_
                      refine Keeps.ite ?_ ?_
                      · exact k1
                      · exact k1
            · refine Keeps.via (enqueue_keeps _ _ _) rfl ?_
              exact k1
          · exact Keeps.refl _ _

theorem execSecureDeallocate_keeps : ∀ a0 a1 a2, KeepsO 264470264 a2 (execSecureDeallocate a0 a1 a2) := by
  intro a0 a1 a2
  unfold execSecureDeallocate
  refine KeepsO.next ?_
  unfold serveFront
  try dsimp -proj only
  unfold serveAt
  try dsimp -proj only
  try dsimp -proj only
  split
  · try dsimp -proj only
    exact Keeps.refl _ _
  · rename_i y1_0 y1_1 h1
    have k1 : Keeps 264470264 a2 y1_1 := by
      refine Keeps.via (dequeue_keeps _ _ _ _ h1) rfl ?_
      exact Keeps.refl _ _
    try dsimp -proj only
    try dsimp -proj only
    split
    · try dsimp -proj only
      exact k1
    · try dsimp -proj only
      refine Keeps.ite ?_ ?_
      · exact k1
      · split
        · try dsimp -proj only
          exact k1
        · try dsimp -proj only
          refine Keeps.ite ?_ ?_
          · unfold mapStep
            try dsimp -proj only
            try dsimp -proj only
            split
            · try dsimp -proj only
              refine Keeps.ite ?_ ?_
              · refine Keeps.ite ?_ ?_
                · refine Keeps.via (failAt_keeps _ _ _ _ _) rfl ?_
                  refine Keeps.via (setFtl_keeps _ _) rfl ?_
                  refine Keeps.via (commitHeld_keeps _) rfl ?_
                  refine Keeps.via (countTaken_keeps _ _ _) rfl ?_
                  refine Keeps.via (countCtx_keeps _ _ _ _ _) rfl ?_
                  refine Keeps.via (deallocRange_keeps _ _ _ _) rfl ?_
                  exact k1
                · refine Keeps.via (resumeSecures_keeps _) rfl ?_
                  refine Keeps.via (secureBegin_keeps _ _ _ _) rfl ?_
                  refine Keeps.via (setFtl_keeps _ _) rfl ?_
                  refine Keeps.via (commitHeld_keeps _) rfl ?_
                  refine Keeps.via (countTaken_keeps _ _ _) rfl ?_
                  refine Keeps.via (countCtx_keeps _ _ _ _ _) rfl ?_
                  refine Keeps.via (deallocRange_keeps _ _ _ _) rfl ?_
                  exact k1
              · refine Keeps.via (countTaken_keeps _ _ _) rfl ?_
                refine Keeps.via (countCtx_keeps _ _ _ _ _) rfl ?_
                refine Keeps.via (deallocRange_keeps _ _ _ _) rfl ?_
                exact k1
            · try dsimp -proj only
              refine Keeps.ite ?_ ?_
              · refine Keeps.via (countCtx_keeps _ _ _ _ _) rfl ?_
                exact k1
              · refine Keeps.ite ?_ ?_
                · refine Keeps.via (enqueue_keeps _ _ _) rfl ?_
                  exact k1
                · refine Keeps.ite ?_ ?_
                  · refine Keeps.ite ?_ ?_
                    · refine Keeps.via (endProvisional_keeps _ _ _) rfl ?_
                      exact k1
                    · refine Keeps.via (endOut_keeps _ _ _ _ _ _) rfl ?_
                      exact k1
                  · refine Keeps.ite ?_ ?_
                    · refine Keeps.via (failAt_keeps _ _ _ _ _) rfl ?_
                      refine Keeps.via (setFtl_keeps _ _) rfl ?_
                      refine Keeps.via (commitHeld_keeps _) rfl ?_
                      refine Keeps.ite ?_ ?_
                      · exact k1
                      · refine Keeps.via (deallocRange_keeps _ _ _ _) rfl ?_
                        exact k1
                    · refine Keeps.via (resumeSecures_keeps _) rfl ?_
                      refine Keeps.via (secureBegin_keeps _ _ _ _) rfl ?_
                      refine Keeps.via (setFtl_keeps _ _) rfl ?_
                      refine Keeps.via (commitHeld_keeps _) rfl ?_
                      refine Keeps.ite ?_ ?_
                      · exact k1
                      · refine Keeps.via (deallocRange_keeps _ _ _ _) rfl ?_
                        exact k1
          · exact Keeps.refl _ _

theorem execDeallocate_keeps : ∀ a0, KeepsO 264470264 a0 (execDeallocate a0) := by
  intro a0
  unfold execDeallocate
  refine KeepsO.next ?_
  unfold serveFront
  try dsimp -proj only
  unfold serveAt
  try dsimp -proj only
  try dsimp -proj only
  split
  · try dsimp -proj only
    exact Keeps.refl _ _
  · rename_i y1_0 y1_1 h1
    have k1 : Keeps 264470264 a0 y1_1 := by
      refine Keeps.via (dequeue_keeps _ _ _ _ h1) rfl ?_
      exact Keeps.refl _ _
    try dsimp -proj only
    try dsimp -proj only
    split
    · try dsimp -proj only
      exact k1
    · try dsimp -proj only
      refine Keeps.ite ?_ ?_
      · exact k1
      · split
        · try dsimp -proj only
          exact k1
        · try dsimp -proj only
          refine Keeps.ite ?_ ?_
          · unfold mapStep
            try dsimp -proj only
            try dsimp -proj only
            split
            · try dsimp -proj only
              refine Keeps.ite ?_ ?_
              · refine Keeps.via (endOut_keeps _ _ _ _ _ _) rfl ?_
                refine Keeps.via (clearLosses_keeps _) rfl ?_
                refine Keeps.via (countTaken_keeps _ _ _) rfl ?_
                refine Keeps.via (countCtx_keeps _ _ _ _ _) rfl ?_
                refine Keeps.via (deallocRange_keeps _ _ _ _) rfl ?_
                exact k1
              · refine Keeps.via (countTaken_keeps _ _ _) rfl ?_
                refine Keeps.via (countCtx_keeps _ _ _ _ _) rfl ?_
                refine Keeps.via (deallocRange_keeps _ _ _ _) rfl ?_
                exact k1
            · try dsimp -proj only
              refine Keeps.ite ?_ ?_
              · refine Keeps.via (countCtx_keeps _ _ _ _ _) rfl ?_
                exact k1
              · refine Keeps.ite ?_ ?_
                · refine Keeps.via (enqueue_keeps _ _ _) rfl ?_
                  exact k1
                · refine Keeps.ite ?_ ?_
                  · refine Keeps.ite ?_ ?_
                    · refine Keeps.via (endProvisional_keeps _ _ _) rfl ?_
                      exact k1
                    · refine Keeps.via (endOut_keeps _ _ _ _ _ _) rfl ?_
                      exact k1
                  · refine Keeps.via (endOut_keeps _ _ _ _ _ _) rfl ?_
                    refine Keeps.via (clearLosses_keeps _) rfl ?_
                    refine Keeps.ite ?_ ?_
                    · exact k1
                    · refine Keeps.via (deallocRange_keeps _ _ _ _) rfl ?_
                      exact k1
          · exact Keeps.refl _ _

theorem execDrain_keeps : ∀ a0 a1, KeepsO 256081624 a1 (execDrain a0 a1) := by
  intro a0 a1
  unfold execDrain
  refine KeepsO.next ?_
  unfold serveFront
  try dsimp -proj only
  unfold serveAt
  try dsimp -proj only
  try dsimp -proj only
  split
  · try dsimp -proj only
    exact Keeps.refl _ _
  · rename_i y1_0 y1_1 h1
    have k1 : Keeps 256081624 a1 y1_1 := by
      refine Keeps.via (dequeue_keeps _ _ _ _ h1) rfl ?_
      exact Keeps.refl _ _
    try dsimp -proj only
    try dsimp -proj only
    split
    · try dsimp -proj only
      exact k1
    · try dsimp -proj only
      refine Keeps.ite ?_ ?_
      · exact k1
      · split
        · try dsimp -proj only
          exact k1
        · try dsimp -proj only
          refine Keeps.ite ?_ ?_
          · split
            · try dsimp -proj only
              refine Keeps.via (failAt_keeps _ _ _ _ _) rfl ?_
              exact k1
            · try dsimp -proj only
              refine Keeps.ite ?_ ?_
              · refine Keeps.via (failAt_keeps _ _ _ _ _) rfl ?_
                exact k1
              · refine Keeps.foldl (fun x2 _ => ?_) ?_
                · split
                  · try dsimp -proj only
                    exact Keeps.refl _ _
                  · try dsimp -proj only
                    refine Keeps.via (readOut_keeps _ _ _ _ _ _ _) rfl ?_
                    refine Keeps.via (modEntry_keeps _ _ _) rfl ?_
                    refine Keeps.via (setFtl_keeps _ _) rfl ?_
                    exact Keeps.refl _ _
                · exact k1
          · exact Keeps.refl _ _

theorem throughUnit_keeps : ∀ a0 a1 a2 a3 a4, Keeps 16777352 a0 (throughUnit a0 a1 a2 a3 a4) := by
  intro a0 a1 a2 a3 a4
  unfold throughUnit
  refine Keeps.via (sendUnit_keeps _ _ _ _ _ _ _ _) rfl ?_
  refine Keeps.via (setFtl_keeps _ _) rfl ?_
  exact Keeps.refl _ _

theorem execWriteThrough_keeps : ∀ a0 a1, KeepsO 256081624 a1 (execWriteThrough a0 a1) := by
  intro a0 a1
  unfold execWriteThrough
  refine KeepsO.next ?_
  unfold serveFront
  try dsimp -proj only
  unfold serveAt
  try dsimp -proj only
  try dsimp -proj only
  split
  · try dsimp -proj only
    exact Keeps.refl _ _
  · rename_i y1_0 y1_1 h1
    have k1 : Keeps 256081624 a1 y1_1 := by
      refine Keeps.via (dequeue_keeps _ _ _ _ h1) rfl ?_
      exact Keeps.refl _ _
    try dsimp -proj only
    try dsimp -proj only
    split
    · try dsimp -proj only
      exact k1
    · try dsimp -proj only
      refine Keeps.ite ?_ ?_
      · exact k1
      · split
        · try dsimp -proj only
          exact k1
        · try dsimp -proj only
          refine Keeps.ite ?_ ?_
          · split
            · try dsimp -proj only
              refine Keeps.via (failAt_keeps _ _ _ _ _) rfl ?_
              exact k1
            · try dsimp -proj only
              refine Keeps.ite ?_ ?_
              · refine Keeps.ite ?_ ?_
                · refine Keeps.via (enqueue_keeps _ _ _) rfl ?_
                  exact k1
                · refine Keeps.via (endOut_keeps _ _ _ _ _ _) rfl ?_
                  refine Keeps.ite ?_ ?_
                  · exact k1
                  · refine Keeps.foldl (fun x2 _ => ?_) ?_
                    · refine Keeps.via (throughUnit_keeps _ _ _ _ _) rfl ?_
                      exact Keeps.refl _ _
                    · refine Keeps.via (setCtx_keeps _ _ _ _) rfl ?_
                      exact k1
              · refine Keeps.ite ?_ ?_
                · refine Keeps.via (failAt_keeps _ _ _ _ _) rfl ?_
                  exact k1
                · refine Keeps.ite ?_ ?_
                  · refine Keeps.via (failAt_keeps _ _ _ _ _) rfl ?_
                    exact k1
                  · refine Keeps.ite ?_ ?_
                    · refine Keeps.via (setCtx_keeps _ _ _ _) rfl ?_
                      refine Keeps.via (countCtx_keeps _ _ _ _ _) rfl ?_
                      exact k1
                    · refine Keeps.via (throughUnit_keeps _ _ _ _ _) rfl ?_
                      refine Keeps.via (countCtx_keeps _ _ _ _ _) rfl ?_
                      exact k1
          · exact Keeps.refl _ _

theorem stageUnit_keeps : ∀ a0 a1 a2 a3 a4 a5 a6, Keeps 16777280 a0 (stageUnit a0 a1 a2 a3 a4 a5 a6) := by
  intro a0 a1 a2 a3 a4 a5 a6
  unfold stageUnit
  refine Keeps.via (setFtl_keeps _ _) rfl ?_
  refine Keeps.via (dropStaged_keeps _ _ _) rfl ?_
  exact Keeps.refl _ _

theorem stageCached_keeps : ∀ a0 a1 a2 a3 a4 a5 a6, Keeps 16777280 a0 (stageCached a0 a1 a2 a3 a4 a5 a6) := by
  intro a0 a1 a2 a3 a4 a5 a6
  unfold stageCached
  refine Keeps.via (cachePage_keeps _ _) rfl ?_
  refine Keeps.via (stageUnit_keeps _ _ _ _ _ _ _) rfl ?_
  exact Keeps.refl _ _

theorem stageHeld_keeps : ∀ a0 a1 a2 a3, Keeps 16777280 a0 (stageHeld a0 a1 a2 a3) := by
  intro a0 a1 a2 a3
  unfold stageHeld
  split
  · exact Keeps.refl _ _
  · refine Keeps.via (setEntry_keeps _ _ _) rfl ?_
    refine Keeps.foldl (fun x1 _ => ?_) ?_
    · refine Keeps.via (stageCached_keeps _ _ _ _ _ _ _) rfl ?_
      exact Keeps.refl _ _
    · exact Keeps.refl _ _

theorem execReadWriteBack_keeps : ∀ a0 a1, KeepsO 256081624 a1 (execReadWriteBack a0 a1) := by
  intro a0 a1
  unfold execReadWriteBack
  refine KeepsO.next ?_
  unfold serveFront
  try dsimp -proj only
  unfold serveAt
  try dsimp -proj only
  try dsimp -proj only
  split
  · try dsimp -proj only
    exact Keeps.refl _ _
  · rename_i y1_0 y1_1 h1
    have k1 : Keeps 256081624 a1 y1_1 := by
      refine Keeps.via (dequeue_keeps _ _ _ _ h1) rfl ?_
      exact Keeps.refl _ _
    try dsimp -proj only
    try dsimp -proj only
    split
    · try dsimp -proj only
      exact k1
    · try dsimp -proj only
      refine Keeps.ite ?_ ?_
      · exact k1
      · split
        · try dsimp -proj only
          exact k1
        · try dsimp -proj only
          refine Keeps.ite ?_ ?_
          · split
            · try dsimp -proj only
              refine Keeps.via (failAt_keeps _ _ _ _ _) rfl ?_
              exact k1
            · try dsimp -proj only
              refine Keeps.ite ?_ ?_
              · refine Keeps.via (durableData_keeps _ _ _ _ _) rfl ?_
                exact k1
              · refine Keeps.ite ?_ ?_
                · refine Keeps.via (enqueue_keeps _ _ _) rfl ?_
                  exact k1
                · refine Keeps.ite ?_ ?_
                  · refine Keeps.ite ?_ ?_
                    · refine Keeps.via (endProvisional_keeps _ _ _) rfl ?_
                      exact k1
                    · refine Keeps.via (endOut_keeps _ _ _ _ _ _) rfl ?_
                      exact k1
                  · refine Keeps.via (endOut_keeps _ _ _ _ _ _) rfl ?_
                    refine Keeps.via (stageHeld_keeps _ _ _ _) rfl ?_
                    exact k1
          · exact Keeps.refl _ _

theorem execMinuteTick_keeps : ∀ a0, KeepsO 16777216 a0 (execMinuteTick a0) := by
  intro a0
  unfold execMinuteTick
  refine KeepsO.next ?_
  refine Keeps.via (countSince_keeps _ _ _) rfl ?_
  refine Keeps.via (setFtl_keeps _ _) rfl ?_
  exact Keeps.refl _ _

theorem execStaticLevelling_keeps : ∀ a0, KeepsO 16777216 a0 (execStaticLevelling a0) := by
  intro a0
  unfold execStaticLevelling
  try dsimp -proj only
  split
  · refine KeepsO.next ?_
    exact Keeps.refl _ _
  · refine KeepsO.ite ?_ ?_
    · refine KeepsO.next ?_
      refine Keeps.via (setBg_keeps _ _ _) rfl ?_
      refine Keeps.via (setFtl_keeps _ _) rfl ?_
      exact Keeps.refl _ _
    · refine KeepsO.next ?_
      exact Keeps.refl _ _

theorem patrolled_keeps : ∀ a0 a1 a2 a3, Keeps 16777216 a0 (patrolled a0 a1 a2 a3) := by
  intro a0 a1 a2 a3
  unfold patrolled
  refine Keeps.ite ?_ ?_
  · refine Keeps.via (setBg_keeps _ _ _) rfl ?_
    exact Keeps.refl _ _
  · exact Keeps.refl _ _

theorem execPatrolRead_keeps : ∀ a0 a1 a2 a3 a4, KeepsO 50334768 a4 (execPatrolRead a0 a1 a2 a3 a4) := by
  intro a0 a1 a2 a3 a4
  unfold execPatrolRead
  refine KeepsO.ite ?_ ?_
  · refine KeepsO.next ?_
    exact Keeps.refl _ _
  · refine KeepsO.ite ?_ ?_
    · refine KeepsO.next ?_
      refine Keeps.via (recordLost_keeps _ _ _ _) rfl ?_
      refine Keeps.via (patrolled_keeps _ _ _ _) rfl ?_
      refine Keeps.via (countTier_keeps _ _ _ _) rfl ?_
      refine Keeps.via (countRead_keeps _ _) rfl ?_
      refine Keeps.via (book_keeps _ _ _) rfl ?_
      exact Keeps.refl _ _
    · refine KeepsO.next ?_
      refine Keeps.via (patrolled_keeps _ _ _ _) rfl ?_
      refine Keeps.via (countTier_keeps _ _ _ _) rfl ?_
      refine Keeps.via (countRead_keeps _ _) rfl ?_
      refine Keeps.via (book_keeps _ _ _) rfl ?_
      exact Keeps.refl _ _

theorem execRelocateGroup_keeps : ∀ a0 a1 a2 a3, KeepsO 264470256 a3 (execRelocateGroup a0 a1 a2 a3) := by
  intro a0 a1 a2 a3
  unfold execRelocateGroup
  refine KeepsO.ite ?_ ?_
  · refine KeepsO.ite ?_ ?_
    · refine KeepsO.next ?_
      refine Keeps.via (retryStalled_keeps _) rfl ?_
      refine Keeps.via (beginErase_keeps _ _ _) rfl ?_
      refine Keeps.via (eraseGroup_keeps _ _ _) rfl ?_
      refine Keeps.via (clearLosses_keeps _) rfl ?_
      refine Keeps.via (copyGroup_keeps _ _ _ _) rfl ?_
      exact Keeps.refl _ _
    · refine KeepsO.next ?_
      refine Keeps.via (setBg_keeps _ _ _) rfl ?_
      refine Keeps.via (clearLosses_keeps _) rfl ?_
      refine Keeps.via (copyGroup_keeps _ _ _ _) rfl ?_
      exact Keeps.refl _ _
  · refine KeepsO.next ?_
    exact Keeps.refl _ _

theorem execCkptSecondsExpire_keeps : ∀ a0, KeepsO 16777216 a0 (execCkptSecondsExpire a0) := by
  intro a0
  unfold execCkptSecondsExpire
  refine KeepsO.next ?_
  refine Keeps.via (beginCkpt_keeps _) rfl ?_
  exact Keeps.refl _ _

theorem execCkptRequest_keeps : ∀ a0, KeepsO 16777216 a0 (execCkptRequest a0) := by
  intro a0
  unfold execCkptRequest
  refine KeepsO.next ?_
  refine Keeps.via (beginCkpt_keeps _) rfl ?_
  exact Keeps.refl _ _

theorem execCheckpointBegin_keeps : ∀ a0, KeepsO 264470264 a0 (execCheckpointBegin a0) := by
  intro a0
  unfold execCheckpointBegin
  refine KeepsO.next ?_
  refine Keeps.via (resumeSecures_keeps _) rfl ?_
  refine Keeps.via (runCkpt_keeps _ _) rfl ?_
  exact Keeps.refl _ _

theorem execJournalPageProgrammed_keeps : ∀ a0 a1 a2, KeepsO 222525120 a2 (execJournalPageProgrammed a0 a1 a2) := by
  intro a0 a1 a2
  unfold execJournalPageProgrammed
  refine KeepsO.next ?_
  refine Keeps.via (commitJournal_keeps _ _) rfl ?_
  refine Keeps.via (setFtl_keeps _ _) rfl ?_
  refine Keeps.ite ?_ ?_
  · refine Keeps.via (formJournal_keeps _) rfl ?_
    exact Keeps.refl _ _
  · exact Keeps.refl _ _

theorem execPageSealTimeout_keeps : ∀ a0 a1 a2, KeepsO 230913744 a2 (execPageSealTimeout a0 a1 a2) := by
  intro a0 a1 a2
  unfold execPageSealTimeout
  refine KeepsO.ite ?_ ?_
  · refine KeepsO.next ?_
    refine Keeps.via (sealShort_keeps _ _ _) rfl ?_
    exact Keeps.refl _ _
  · refine KeepsO.next ?_
    exact Keeps.refl _ _

theorem execProgramStatus_keeps : ∀ a0 a1 a2, KeepsO 264994544 a2 (execProgramStatus a0 a1 a2) := by
  intro a0 a1 a2
  unfold execProgramStatus
  try dsimp -proj only
  split
  · refine KeepsO.next ?_
    exact Keeps.refl _ _
  · refine KeepsO.ite ?_ ?_
    · refine KeepsO.next ?_
      exact Keeps.refl _ _
    · refine KeepsO.ite ?_ ?_
      · refine KeepsO.next ?_
        refine Keeps.via (clearLosses_keeps _) rfl ?_
        refine Keeps.via (retryStalled_keeps _) rfl ?_
        refine Keeps.via (programPassed_keeps _ _ _) rfl ?_
        refine Keeps.via (setChan_keeps _ _ _) rfl ?_
        split
        · refine Keeps.via (useInj_keeps _ _) rfl ?_
          exact Keeps.refl _ _
        · exact Keeps.refl _ _
      · refine KeepsO.next ?_
        refine Keeps.via (programFailed_keeps _ _ _) rfl ?_
        refine Keeps.via (setChan_keeps _ _ _) rfl ?_
        split
        · refine Keeps.via (useInj_keeps _ _) rfl ?_
          exact Keeps.refl _ _
        · exact Keeps.refl _ _

theorem execPartialParityTimeout_keeps : ∀ a0 a1 a2, KeepsO 230913728 a2 (execPartialParityTimeout a0 a1 a2) := by
  intro a0 a1 a2
  unfold execPartialParityTimeout
  refine KeepsO.next ?_
  refine Keeps.via (partialParity_keeps _ _ _) rfl ?_
  exact Keeps.refl _ _

theorem finishRead_keeps : ∀ a0 a1 a2, Keeps 256081656 a0 (finishRead a0 a1 a2) := by
  intro a0 a1 a2
  unfold finishRead
  try dsimp -proj only
  split
  · refine Keeps.via (readOut_keeps _ _ _ _ _ _ _) rfl ?_
    refine Keeps.via (countRead_keeps _ _) rfl ?_
    exact Keeps.refl _ _
  · refine Keeps.ite ?_ ?_
    · refine Keeps.via (readOut_keeps _ _ _ _ _ _ _) rfl ?_
      refine Keeps.via (hold_keeps _ _) rfl ?_
      refine Keeps.via (mapSet_keeps _ _ _) rfl ?_
      refine Keeps.via (recordLost_keeps _ _ _ _) rfl ?_
      refine Keeps.via (bump_keeps _ _ _ _ _) rfl ?_
      refine Keeps.via (countRead_keeps _ _) rfl ?_
      exact Keeps.refl _ _
    · refine Keeps.via (failAt_keeps _ _ _ _ _) rfl ?_
      refine Keeps.via (recordLost_keeps _ _ _ _) rfl ?_
      refine Keeps.via (bump_keeps _ _ _ _ _) rfl ?_
      refine Keeps.via (countRead_keeps _ _) rfl ?_
      exact Keeps.refl _ _

theorem execCodewordDecode_keeps : ∀ a0 a1 a2 a3, KeepsO 264994552 a3 (execCodewordDecode a0 a1 a2 a3) := by
  intro a0 a1 a2 a3
  unfold execCodewordDecode
  try dsimp -proj only
  split
  · refine KeepsO.next ?_
    exact Keeps.refl _ _
  · refine KeepsO.ite ?_ ?_
    · refine KeepsO.next ?_
      refine Keeps.via (setChan_keeps _ _ _) rfl ?_
      exact Keeps.refl _ _
    · refine KeepsO.ite ?_ ?_
      · refine KeepsO.ite ?_ ?_
        · refine KeepsO.next ?_
          refine Keeps.via (resumeSecures_keeps _) rfl ?_
          refine Keeps.via (finishRead_keeps _ _ _) rfl ?_
          refine Keeps.via (setChan_keeps _ _ _) rfl ?_
          refine Keeps.via (countTier_keeps _ _ _ _) rfl ?_
          split
          · refine Keeps.via (useInj_keeps _ _) rfl ?_
            exact Keeps.refl _ _
          · exact Keeps.refl _ _
        · refine KeepsO.next ?_
          refine Keeps.via (setChan_keeps _ _ _) rfl ?_
          refine Keeps.via (countTier_keeps _ _ _ _) rfl ?_
          split
          · refine Keeps.via (useInj_keeps _ _) rfl ?_
            exact Keeps.refl _ _
          · exact Keeps.refl _ _
      · refine KeepsO.ite ?_ ?_
        · refine KeepsO.next ?_
          refine Keeps.via (codewordLost_keeps _ _ _) rfl ?_
          refine Keeps.via (setChan_keeps _ _ _) rfl ?_
          split
          · refine Keeps.via (useInj_keeps _ _) rfl ?_
            exact Keeps.refl _ _
          · exact Keeps.refl _ _
        · refine KeepsO.ite ?_ ?_
          · refine KeepsO.next ?_
            refine Keeps.via (setChan_keeps _ _ _) rfl ?_
            split
            · refine Keeps.via (useInj_keeps _ _) rfl ?_
              exact Keeps.refl _ _
            · exact Keeps.refl _ _
          · refine KeepsO.ite ?_ ?_
            · refine KeepsO.next ?_
              refine Keeps.via (setChan_keeps _ _ _) rfl ?_
              split
              · refine Keeps.via (useInj_keeps _ _) rfl ?_
                exact Keeps.refl _ _
              · exact Keeps.refl _ _
            · refine KeepsO.ite ?_ ?_
              · refine KeepsO.next ?_
                split
                · refine Keeps.via (useInj_keeps _ _) rfl ?_
                  exact Keeps.refl _ _
                · exact Keeps.refl _ _
              · refine KeepsO.next ?_
                refine Keeps.via (setChan_keeps _ _ _) rfl ?_
                split
                · refine Keeps.via (useInj_keeps _ _) rfl ?_
                  exact Keeps.refl _ _
                · exact Keeps.refl _ _

theorem execFlashRetrainBegin_keeps : ∀ a0 a1, KeepsO 8388608 a1 (execFlashRetrainBegin a0 a1) := by
  intro a0 a1
  unfold execFlashRetrainBegin
  refine KeepsO.ite ?_ ?_
  · refine KeepsO.next ?_
    refine Keeps.via (setChan_keeps _ _ _) rfl ?_
    exact Keeps.refl _ _
  · refine KeepsO.next ?_
    exact Keeps.refl _ _

theorem execFlashTrainPassDone_keeps : ∀ a0 a1 a2 a3, KeepsO 264470264 a3 (execFlashTrainPassDone a0 a1 a2 a3) := by
  intro a0 a1 a2 a3
  unfold execFlashTrainPassDone
  refine KeepsO.ite ?_ ?_
  · refine KeepsO.next ?_
    exact Keeps.refl _ _
  · refine KeepsO.ite ?_ ?_
    · refine KeepsO.next ?_
      refine Keeps.ite ?_ ?_
      · refine Keeps.via (record_keeps _ _ _ _ _ _ _) rfl ?_
        refine Keeps.via (noteOffline_keeps _) rfl ?_
        refine Keeps.ite ?_ ?_
        · refine Keeps.via (unitState_keeps _ _ _) rfl ?_
          refine Keeps.via (setLive_keeps _ _ _ _ _) rfl ?_
          refine Keeps.via (bump_keeps _ _ _ _ _) rfl ?_
          refine Keeps.via (setChan_keeps _ _ _) rfl ?_
          exact Keeps.refl _ _
        · refine Keeps.via (setLive_keeps _ _ _ _ _) rfl ?_
          refine Keeps.via (bump_keeps _ _ _ _ _) rfl ?_
          refine Keeps.via (setChan_keeps _ _ _) rfl ?_
          exact Keeps.refl _ _
      · refine Keeps.via (noteOffline_keeps _) rfl ?_
        refine Keeps.ite ?_ ?_
        · refine Keeps.via (unitState_keeps _ _ _) rfl ?_
          refine Keeps.via (setLive_keeps _ _ _ _ _) rfl ?_
          refine Keeps.via (bump_keeps _ _ _ _ _) rfl ?_
          refine Keeps.via (setChan_keeps _ _ _) rfl ?_
          exact Keeps.refl _ _
        · refine Keeps.via (setLive_keeps _ _ _ _ _) rfl ?_
          refine Keeps.via (bump_keeps _ _ _ _ _) rfl ?_
          refine Keeps.via (setChan_keeps _ _ _) rfl ?_
          exact Keeps.refl _ _
    · refine KeepsO.ite ?_ ?_
      · refine KeepsO.next ?_
        refine Keeps.via (channelOffline_keeps _ _) rfl ?_
        refine Keeps.via (bump_keeps _ _ _ _ _) rfl ?_
        exact Keeps.refl _ _
      · refine KeepsO.next ?_
        refine Keeps.via (setChan_keeps _ _ _) rfl ?_
        exact Keeps.refl _ _

theorem flashDrift_keeps : ∀ a0, Keeps 8388608 a0 (flashDrift a0) := by
  intro a0
  unfold flashDrift
  refine Keeps.foldl (fun x1 _ => ?_) ?_
  · refine Keeps.ite ?_ ?_
    · refine Keeps.via (setChan_keeps _ _ _) rfl ?_
      exact Keeps.refl _ _
    · exact Keeps.refl _ _
  · exact Keeps.refl _ _

theorem takeSample_keeps : ∀ a0 a1, Keeps 58723888 a0 (takeSample a0 a1) := by
  intro a0 a1
  unfold takeSample
  refine Keeps.via (flashDrift_keeps _) rfl ?_
  refine Keeps.foldl (fun x1 _ => ?_) ?_
  · refine Keeps.via (dramDrift_keeps _ _) rfl ?_
    exact Keeps.refl _ _
  · refine Keeps.ite ?_ ?_
    · refine Keeps.via (bulkLimits_keeps _ _) rfl ?_
      refine Keeps.via (setHealth_keeps _ _ _) rfl ?_
      refine Keeps.via (setFtl_keeps _ _) rfl ?_
      refine Keeps.via (setPwr_keeps _ _) rfl ?_
      exact Keeps.refl _ _
    · refine Keeps.foldl (fun x2 _ => ?_) ?_
      · refine Keeps.via (rateChange_keeps _ _) rfl ?_
        exact Keeps.refl _ _
      · refine Keeps.via (bulkLimits_keeps _ _) rfl ?_
        refine Keeps.via (setHealth_keeps _ _ _) rfl ?_
        refine Keeps.via (setFtl_keeps _ _) rfl ?_
        refine Keeps.via (setPwr_keeps _ _) rfl ?_
        exact Keeps.refl _ _

theorem stopClocks_keeps : ∀ a0, Keeps 1024 a0 (stopClocks a0) := by
  intro a0
  unfold stopClocks
  refine Keeps.via (setPwr_keeps _ _) rfl ?_
  exact Keeps.refl _ _

theorem turnOff_keeps : ∀ a0, Keeps 33686528 a0 (turnOff a0) := by
  intro a0
  unfold turnOff
  refine Keeps.via (setBoot_keeps _ _) rfl ?_
  refine Keeps.foldl (fun x1 _ => ?_) ?_
  · refine Keeps.via (setDram_keeps _ _ _) rfl ?_
    exact Keeps.refl _ _
  · refine Keeps.via (stopClocks_keeps _) rfl ?_
    refine Keeps.via (gateOff_keeps _ _) rfl ?_
    refine Keeps.via (setPwr_keeps _ _) rfl ?_
    exact Keeps.refl _ _

theorem execSensorSample_keeps : ∀ a0 a1, KeepsO 264994556 a1 (execSensorSample a0 a1) := by
  intro a0 a1
  unfold execSensorSample
  refine KeepsO.ite ?_ ?_
  · refine KeepsO.next ?_
    refine Keeps.via (setPwr_keeps _ _) rfl ?_
    exact Keeps.refl _ _
  · refine KeepsO.ite ?_ ?_
    · refine KeepsO.next ?_
      refine Keeps.via (turnOff_keeps _) rfl ?_
      refine Keeps.via (setPwr_keeps _ _) rfl ?_
      refine Keeps.ite ?_ ?_
      · refine Keeps.via (bump_keeps _ _ _ _ _) rfl ?_
        refine Keeps.via (setBoot_keeps _ _) rfl ?_
        refine Keeps.via (setJct_keeps _ _) rfl ?_
        exact Keeps.refl _ _
      · refine Keeps.via (setJct_keeps _ _) rfl ?_
        exact Keeps.refl _ _
    · refine KeepsO.ite ?_ ?_
      · refine KeepsO.next ?_
        refine Keeps.ite ?_ ?_
        · refine Keeps.via (gateAll_keeps _) rfl ?_
          refine Keeps.via (declareLoss_keeps _) rfl ?_
          refine Keeps.via (setPwr_keeps _ _) rfl ?_
          refine Keeps.via (takeSample_keeps _ _) rfl ?_
          exact Keeps.refl _ _
        · refine Keeps.via (declareLoss_keeps _) rfl ?_
          refine Keeps.via (setPwr_keeps _ _) rfl ?_
          refine Keeps.via (takeSample_keeps _ _) rfl ?_
          exact Keeps.refl _ _
      · refine KeepsO.next ?_
        refine Keeps.via (takeSample_keeps _ _) rfl ?_
        exact Keeps.refl _ _

theorem execBrownOut_keeps : ∀ a0, KeepsO 167904272 a0 (execBrownOut a0) := by
  intro a0
  unfold execBrownOut
  refine KeepsO.next ?_
  refine Keeps.via (turnOff_keeps _) rfl ?_
  refine Keeps.via (setPwr_keeps _ _) rfl ?_
  refine Keeps.ite ?_ ?_
  · refine Keeps.via (bump_keeps _ _ _ _ _) rfl ?_
    refine Keeps.via (setBoot_keeps _ _) rfl ?_
    refine Keeps.via (setJct_keeps _ _) rfl ?_
    exact Keeps.refl _ _
  · refine Keeps.via (setJct_keeps _ _) rfl ?_
    exact Keeps.refl _ _

theorem execInputReturn_keeps : ∀ a0, KeepsO 16909312 a0 (execInputReturn a0) := by
  intro a0
  unfold execInputReturn
  refine KeepsO.ite ?_ ?_
  · refine KeepsO.next ?_
    exact Keeps.refl _ _
  · refine KeepsO.next ?_
    refine Keeps.via (toRom_keeps _ _ _) rfl ?_
    refine Keeps.ite ?_ ?_
    · refine Keeps.via (enterRamp_keeps _) rfl ?_
      refine Keeps.via (setPwr_keeps _ _) rfl ?_
      refine Keeps.via (setBoot_keeps _ _) rfl ?_
      refine Keeps.via (setFtl_keeps _ _) rfl ?_
      exact Keeps.refl _ _
    · refine Keeps.via (setPwr_keeps _ _) rfl ?_
      refine Keeps.via (setBoot_keeps _ _) rfl ?_
      refine Keeps.via (setFtl_keeps _ _) rfl ?_
      exact Keeps.refl _ _

theorem execFlushEnd_keeps : ∀ a0 a1, KeepsO 264470268 a1 (execFlushEnd a0 a1) := by
  intro a0 a1
  unfold execFlushEnd
  refine KeepsO.ite ?_ ?_
  · refine KeepsO.next ?_
    exact Keeps.refl _ _
  · refine KeepsO.next ?_
    refine Keeps.via (setPwr_keeps _ _) rfl ?_
    refine Keeps.ite ?_ ?_
    · refine Keeps.via (setBoot_keeps _ _) rfl ?_
      refine Keeps.via (gateAll_keeps _) rfl ?_
      refine Keeps.via (flushAll_keeps _ _) rfl ?_
      refine Keeps.via (gateStep4_keeps _) rfl ?_
      exact Keeps.refl _ _
    · refine Keeps.via (gateAll_keeps _) rfl ?_
      refine Keeps.via (flushAll_keeps _ _) rfl ?_
      refine Keeps.via (gateStep4_keeps _) rfl ?_
      exact Keeps.refl _ _

theorem execFlushDirtyFenceTimeout_keeps : ∀ a0, KeepsO 256081628 a0 (execFlushDirtyFenceTimeout a0) := by
  intro a0
  unfold execFlushDirtyFenceTimeout
  refine KeepsO.ite ?_ ?_
  · refine KeepsO.next ?_
    refine Keeps.via (gateStep4_keeps _) rfl ?_
    refine Keeps.via (setPwr_keeps _ _) rfl ?_
    refine Keeps.via (fenceDirty_keeps _) rfl ?_
    exact Keeps.refl _ _
  · refine KeepsO.ite ?_ ?_
    · refine KeepsO.next ?_
      refine Keeps.via (gateStep4_keeps _) rfl ?_
      refine Keeps.via (fenceDirty_keeps _) rfl ?_
      exact Keeps.refl _ _
    · refine KeepsO.next ?_
      exact Keeps.refl _ _

theorem execPwrdisAssert_keeps : ∀ a0, KeepsO 256605916 a0 (execPwrdisAssert a0) := by
  intro a0
  unfold execPwrdisAssert
  refine KeepsO.next ?_
  refine Keeps.via (declareLoss_keeps _) rfl ?_
  refine Keeps.via (setBoot_keeps _ _) rfl ?_
  exact Keeps.refl _ _

theorem execVin12Low_keeps : ∀ a0 a1, KeepsO 256605916 a1 (execVin12Low a0 a1) := by
  intro a0 a1
  unfold execVin12Low
  refine KeepsO.next ?_
  refine Keeps.ite ?_ ?_
  · refine Keeps.via (declareLoss_keeps _) rfl ?_
    refine Keeps.via (setBoot_keeps _ _) rfl ?_
    refine Keeps.via (setPwr_keeps _ _) rfl ?_
    exact Keeps.refl _ _
  · refine Keeps.via (setPwr_keeps _ _) rfl ?_
    exact Keeps.refl _ _

theorem execMeasurementTimeout_keeps : ∀ a0, KeepsO 1040 a0 (execMeasurementTimeout a0) := by
  intro a0
  unfold execMeasurementTimeout
  refine KeepsO.ite ?_ ?_
  · refine KeepsO.next ?_
    refine Keeps.via (setLive_keeps _ _ _ _ _) rfl ?_
    refine Keeps.via (setPwr_keeps _ _) rfl ?_
    exact Keeps.refl _ _
  · refine KeepsO.next ?_
    exact Keeps.refl _ _

theorem peatFault_keeps : ∀ a0, Keeps 33557552 a0 (peatFault a0) := by
  intro a0
  unfold peatFault
  refine Keeps.via (setHealth_keeps _ _ _) rfl ?_
  refine Keeps.via (setPwr_keeps _ _) rfl ?_
  exact Keeps.refl _ _

theorem execMeasurementDone_keeps : ∀ a0 a1 a2, KeepsO 33557552 a2 (execMeasurementDone a0 a1 a2) := by
  intro a0 a1 a2
  unfold execMeasurementDone
  refine KeepsO.ite ?_ ?_
  · refine KeepsO.ite ?_ ?_
    · refine KeepsO.next ?_
      refine Keeps.via (peatFault_keeps _) rfl ?_
      refine Keeps.via (setPwr_keeps _ _) rfl ?_
      refine Keeps.via (setLive_keeps _ _ _ _ _) rfl ?_
      refine Keeps.via (setPwr_keeps _ _) rfl ?_
      exact Keeps.refl _ _
    · refine KeepsO.next ?_
      refine Keeps.via (setPwr_keeps _ _) rfl ?_
      refine Keeps.via (setLive_keeps _ _ _ _ _) rfl ?_
      refine Keeps.via (setPwr_keeps _ _) rfl ?_
      exact Keeps.refl _ _
  · refine KeepsO.next ?_
    exact Keeps.refl _ _

theorem execMeasurementDue_keeps : ∀ a0, KeepsO 1040 a0 (execMeasurementDue a0) := by
  intro a0
  unfold execMeasurementDue
  refine KeepsO.ite ?_ ?_
  · refine KeepsO.next ?_
    refine Keeps.via (setPwr_keeps _ _) rfl ?_
    exact Keeps.refl _ _
  · refine KeepsO.next ?_
    refine Keeps.via (bump_keeps _ _ _ _ _) rfl ?_
    refine Keeps.via (setPwr_keeps _ _) rfl ?_
    exact Keeps.refl _ _

theorem execMeasRequest_keeps : ∀ a0, KeepsO 1024 a0 (execMeasRequest a0) := by
  intro a0
  unfold execMeasRequest
  refine KeepsO.next ?_
  refine Keeps.via (askMeasurement_keeps _) rfl ?_
  exact Keeps.refl _ _

theorem execPeatFloorTimeout_keeps : ∀ a0 a1, KeepsO 33557552 a1 (execPeatFloorTimeout a0 a1) := by
  intro a0 a1
  unfold execPeatFloorTimeout
  refine KeepsO.ite ?_ ?_
  · refine KeepsO.next ?_
    refine Keeps.via (peatFault_keeps _) rfl ?_
    refine Keeps.via (setPwr_keeps _ _) rfl ?_
    exact Keeps.refl _ _
  · refine KeepsO.next ?_
    exact Keeps.refl _ _

theorem execPeatOvervoltage_keeps : ∀ a0 a1, KeepsO 33557552 a1 (execPeatOvervoltage a0 a1) := by
  intro a0 a1
  unfold execPeatOvervoltage
  refine KeepsO.ite ?_ ?_
  · refine KeepsO.next ?_
    refine Keeps.via (peatFault_keeps _) rfl ?_
    refine Keeps.via (setPwr_keeps _ _) rfl ?_
    exact Keeps.refl _ _
  · refine KeepsO.next ?_
    refine Keeps.via (setPwr_keeps _ _) rfl ?_
    exact Keeps.refl _ _

theorem execPeatTargetReached_keeps : ∀ a0 a1, KeepsO 1024 a1 (execPeatTargetReached a0 a1) := by
  intro a0 a1
  unfold execPeatTargetReached
  refine KeepsO.ite ?_ ?_
  · refine KeepsO.next ?_
    refine Keeps.via (setPwr_keeps _ _) rfl ?_
    exact Keeps.refl _ _
  · refine KeepsO.next ?_
    exact Keeps.refl _ _

theorem execPeatRampElapsed_keeps : ∀ a0, KeepsO 1024 a0 (execPeatRampElapsed a0) := by
  intro a0
  unfold execPeatRampElapsed
  refine KeepsO.ite ?_ ?_
  · refine KeepsO.next ?_
    refine Keeps.via (setPwr_keeps _ _) rfl ?_
    exact Keeps.refl _ _
  · refine KeepsO.next ?_
    exact Keeps.refl _ _

theorem execOperatingPointChange_keeps : ∀ a0 a1 a2 a3, KeepsO 1024 a3 (execOperatingPointChange a0 a1 a2 a3) := by
  intro a0 a1 a2 a3
  unfold execOperatingPointChange
  refine KeepsO.ite ?_ ?_
  · refine KeepsO.next ?_
    refine Keeps.foldl (fun x1 _ => ?_) ?_
    · refine Keeps.ite ?_ ?_
      · refine Keeps.via (setIsland_keeps _ _ _) rfl ?_
        exact Keeps.refl _ _
      · exact Keeps.refl _ _
    · exact Keeps.refl _ _
  · refine KeepsO.next ?_
    exact Keeps.refl _ _

theorem execDomainWake_keeps : ∀ a0 a1 a2, KeepsO 8389632 a2 (execDomainWake a0 a1 a2) := by
  intro a0 a1 a2
  unfold execDomainWake
  refine KeepsO.ite ?_ ?_
  · refine KeepsO.next ?_
    exact Keeps.refl _ _
  · refine KeepsO.next ?_
    refine Keeps.ite ?_ ?_
    · refine Keeps.via (wakeIsland_keeps _ _) rfl ?_
      exact Keeps.refl _ _
    · refine Keeps.foldl (fun x1 _ => ?_) ?_
      · refine Keeps.via (setChan_keeps _ _ _) rfl ?_
        exact Keeps.refl _ _
      · refine Keeps.via (wakeIsland_keeps _ _) rfl ?_
        exact Keeps.refl _ _

theorem execDomainGateOff_keeps : ∀ a0 a1, KeepsO 1024 a1 (execDomainGateOff a0 a1) := by
  intro a0 a1
  unfold execDomainGateOff
  refine KeepsO.ite ?_ ?_
  · refine KeepsO.next ?_
    refine Keeps.via (setGroupDom_keeps _ _ _) rfl ?_
    exact Keeps.refl _ _
  · refine KeepsO.next ?_
    exact Keeps.refl _ _

theorem execDomainRetention_keeps : ∀ a0 a1, KeepsO 1024 a1 (execDomainRetention a0 a1) := by
  intro a0 a1
  unfold execDomainRetention
  refine KeepsO.ite ?_ ?_
  · refine KeepsO.next ?_
    refine Keeps.via (setGroupDom_keeps _ _ _) rfl ?_
    exact Keeps.refl _ _
  · refine KeepsO.next ?_
    exact Keeps.refl _ _

theorem execBaseMwUpdate_keeps : ∀ a0 a1 a2, KeepsO 1024 a2 (execBaseMwUpdate a0 a1 a2) := by
  intro a0 a1 a2
  unfold execBaseMwUpdate
  refine KeepsO.next ?_
  refine Keeps.via (setPwr_keeps _ _) rfl ?_
  exact Keeps.refl _ _

theorem execSidingPop_keeps : ∀ a0 a1, KeepsO 64 a1 (execSidingPop a0 a1) := by
  intro a0 a1
  unfold execSidingPop
  refine KeepsO.next ?_
  refine Keeps.via (popSiding_keeps _ _) rfl ?_
  exact Keeps.refl _ _

theorem offTrunk_keeps : ∀ a0 a1, Keeps 8 a0 (offTrunk a0 a1) := by
  intro a0 a1
  unfold offTrunk
  refine Keeps.put_dev ?_ rfl _
  exact Keeps.refl _ _

theorem wakePath_keeps : ∀ a0 a1, Keeps 1024 a0 (wakePath a0 a1) := by
  intro a0 a1
  unfold wakePath
  refine Keeps.foldl (fun x1 _ => ?_) ?_
  · refine Keeps.via (wakeIsland_keeps _ _) rfl ?_
    exact Keeps.refl _ _
  · exact Keeps.refl _ _

theorem execRevokeTokenArrive_keeps : ∀ a0 a1 a2 a3, KeepsO 256081880 a3 (execRevokeTokenArrive a0 a1 a2 a3) := by
  intro a0 a1 a2 a3
  unfold execRevokeTokenArrive
  split
  · refine KeepsO.next ?_
    exact Keeps.refl _ _
  · refine KeepsO.ite ?_ ?_
    · refine KeepsO.next ?_
      exact Keeps.refl _ _
    · refine KeepsO.ite ?_ ?_
      · refine KeepsO.next ?_
        refine Keeps.via (bounce_keeps _ _) rfl ?_
        refine Keeps.via (offTrunk_keeps _ _) rfl ?_
        refine Keeps.via (wakePath_keeps _ _) rfl ?_
        exact Keeps.refl _ _
      · refine KeepsO.next ?_
        refine Keeps.via (revokeAt_keeps _ _ _ _) rfl ?_
        refine Keeps.ite ?_ ?_
        · refine Keeps.via (report_keeps _ _ _ _) rfl ?_
          refine Keeps.via (offTrunk_keeps _ _) rfl ?_
          refine Keeps.via (wakePath_keeps _ _) rfl ?_
          exact Keeps.refl _ _
        · refine Keeps.via (offTrunk_keeps _ _) rfl ?_
          refine Keeps.via (wakePath_keeps _ _) rfl ?_
          exact Keeps.refl _ _

theorem loadEnds_keeps : ∀ a0 a1, Keeps 256081872 a0 (loadEnds a0 a1) := by
  intro a0 a1
  unfold loadEnds
  refine Keeps.ite ?_ ?_
  · split
    · refine Keeps.via (ackTicket_keeps _ _ _) rfl ?_
      refine Keeps.via (zeroWritten_keeps _ _ _) rfl ?_
      refine Keeps.via (stationRevoke_keeps _ _ _ _) rfl ?_
      refine Keeps.via (report_keeps _ _ _ _) rfl ?_
      exact Keeps.refl _ _
    · exact Keeps.refl _ _
  · refine Keeps.via (setCtx_keeps _ _ _ _) rfl ?_
    exact Keeps.refl _ _

theorem execDeadlineExpire_keeps : ∀ a0 a1, KeepsO 222524112 a1 (execDeadlineExpire a0 a1) := by
  intro a0 a1
  unfold execDeadlineExpire
  split
  · refine KeepsO.ite ?_ ?_
    · refine KeepsO.next ?_
      refine Keeps.via (endWaiting_keeps _ _ _) rfl ?_
      refine Keeps.via (bump_keeps _ _ _ _ _) rfl ?_
      exact Keeps.refl _ _
    · refine KeepsO.next ?_
      exact Keeps.refl _ _
  · refine KeepsO.next ?_
    exact Keeps.refl _ _

theorem execPortionConsider_keeps : ∀ a0 a1, KeepsO 256081624 a1 (execPortionConsider a0 a1) := by
  intro a0 a1
  unfold execPortionConsider
  split
  · refine KeepsO.next ?_
    exact Keeps.refl _ _
  · refine KeepsO.next ?_
    refine Keeps.put_sbx ?_ rfl _
    refine Keeps.via (admitOne_keeps _ _ _) rfl ?_
    exact Keeps.refl _ _

theorem staleWaiting_keeps : ∀ a0, Keeps 256081624 a0 (staleWaiting a0) := by
  intro a0
  unfold staleWaiting
  refine Keeps.foldl (fun x1 _ => ?_) ?_
  · split
    · exact Keeps.refl _ _
    · refine Keeps.ite ?_ ?_
      · refine Keeps.via (endAtAdmission_keeps _ _ _ _ _) rfl ?_
        exact Keeps.refl _ _
      · exact Keeps.refl _ _
  · exact Keeps.refl _ _

theorem scan_keeps : ∀ a0, Keeps 256081624 a0 (scan a0) := by
  intro a0
  unfold scan
  refine Keeps.put_sbx ?_ rfl _
  refine Keeps.via (admitGroup_keeps _ _ _) rfl ?_
  refine Keeps.via (admitGroup_keeps _ _ _) rfl ?_
  refine Keeps.via (admitGroup_keeps _ _ _) rfl ?_
  exact Keeps.refl _ _

theorem markDue_keeps : ∀ a0, Keeps 16 a0 (markDue a0) := by
  intro a0
  unfold markDue
  refine Keeps.put_regs ?_ rfl _
  exact Keeps.refl _ _

theorem rollEpoch_keeps : ∀ a0, Keeps 1088 a0 (rollEpoch a0) := by
  intro a0
  unfold rollEpoch
  refine Keeps.via (setPwr_keeps _ _) rfl ?_
  refine Keeps.put_sbx ?_ rfl _
  exact Keeps.refl _ _

theorem measureFen_keeps : ∀ a0 a1 a2, Keeps 528 a0 (measureFen a0 a1 a2) := by
  intro a0 a1 a2
  unfold measureFen
  refine Keeps.ite ?_ ?_
  · refine Keeps.via (setFen_keeps _ _ _) rfl ?_
    refine Keeps.via (setLive_keeps _ _ _ _ _) rfl ?_
    exact Keeps.refl _ _
  · refine Keeps.via (setLive_keeps _ _ _ _ _) rfl ?_
    exact Keeps.refl _ _

theorem measureFens_keeps : ∀ a0 a1, Keeps 528 a0 (measureFens a0 a1) := by
  intro a0 a1
  unfold measureFens
  refine Keeps.foldl (fun x1 _ => ?_) ?_
  · refine Keeps.via (measureFen_keeps _ _ _) rfl ?_
    exact Keeps.refl _ _
  · exact Keeps.refl _ _

theorem ledger_keeps : ∀ a0, Keeps 1088 a0 (ledger a0) := by
  intro a0
  unfold ledger
  refine Keeps.via (setPwr_keeps _ _) rfl ?_
  refine Keeps.put_sbx ?_ rfl _
  exact Keeps.refl _ _

theorem publish_keeps : ∀ a0 a1, Keeps 1088 a0 (publish a0 a1) := by
  intro a0 a1
  unfold publish
  refine Keeps.put_sbx ?_ rfl _
  refine Keeps.via (setPwr_keeps _ _) rfl ?_
  refine Keeps.via (ledger_keeps _) rfl ?_
  refine Keeps.via (setPwr_keeps _ _) rfl ?_
  exact Keeps.refl _ _

theorem execEpochStart_keeps : ∀ a0 a1, KeepsO 268402680 a1 (execEpochStart a0 a1) := by
  intro a0 a1
  unfold execEpochStart
  refine KeepsO.next ?_
  refine Keeps.via (scan_keeps _) rfl ?_
  refine Keeps.via (epochSets_keeps _) rfl ?_
  refine Keeps.via (ageWaiting_keeps _) rfl ?_
  refine Keeps.via (staleWaiting_keeps _) rfl ?_
  refine Keeps.via (epochRefill_keeps _) rfl ?_
  refine Keeps.via (publish_keeps _ _) rfl ?_
  refine Keeps.via (measureFens_keeps _ _) rfl ?_
  refine Keeps.via (countIdle_keeps _) rfl ?_
  refine Keeps.via (rollEpoch_keeps _) rfl ?_
  refine Keeps.via (markDue_keeps _) rfl ?_
  exact Keeps.refl _ _

theorem execTicketSubmit_keeps : ∀ a0 a1 a2, KeepsO 222524096 a2 (execTicketSubmit a0 a1 a2) := by
  intro a0 a1 a2
  unfold execTicketSubmit
  refine KeepsO.ite ?_ ?_
  · refine KeepsO.ite ?_ ?_
    · refine KeepsO.next ?_
      refine Keeps.via (submitTicket_keeps _ _ _) rfl ?_
      refine Keeps.ite ?_ ?_
      · refine Keeps.via (setFtl_keeps _ _) rfl ?_
        exact Keeps.refl _ _
      · exact Keeps.refl _ _
    · refine KeepsO.next ?_
      exact Keeps.refl _ _
  · refine KeepsO.next ?_
    refine Keeps.via (submitTicket_keeps _ _ _) rfl ?_
    exact Keeps.refl _ _

theorem zeroMeas_keeps : ∀ a0 a1, Keeps 1048576 a0 (zeroMeas a0 a1) := by
  intro a0 a1
  unfold zeroMeas
  refine Keeps.via (setTru_keeps _ _) rfl ?_
  exact Keeps.refl _ _

theorem execFenScrubDone_keeps : ∀ a0 a1, KeepsO 1049088 a1 (execFenScrubDone a0 a1) := by
  intro a0 a1
  unfold execFenScrubDone
  refine KeepsO.ite ?_ ?_
  · refine KeepsO.next ?_
    refine Keeps.via (zeroMeas_keeps _ _) rfl ?_
    refine Keeps.via (setFen_keeps _ _ _) rfl ?_
    exact Keeps.refl _ _
  · refine KeepsO.next ?_
    exact Keeps.refl _ _

theorem execFenOverpower_keeps : ∀ a0 a1 a2, KeepsO 33557040 a2 (execFenOverpower a0 a1 a2) := by
  intro a0 a1 a2
  unfold execFenOverpower
  try dsimp -proj only
  split
  · refine KeepsO.next ?_
    refine Keeps.via (setLive_keeps _ _ _ _ _) rfl ?_
    exact Keeps.refl _ _
  · refine KeepsO.ite ?_ ?_
    · refine KeepsO.next ?_
      refine Keeps.via (record_keeps _ _ _ _ _ _ _) rfl ?_
      refine Keeps.via (setFen_keeps _ _ _) rfl ?_
      refine Keeps.via (setLive_keeps _ _ _ _ _) rfl ?_
      exact Keeps.refl _ _
    · refine KeepsO.next ?_
      refine Keeps.via (setLive_keeps _ _ _ _ _) rfl ?_
      exact Keeps.refl _ _

theorem execHoldRelease_keeps : ∀ a0 a1, KeepsO 16896 a1 (execHoldRelease a0 a1) := by
  intro a0 a1
  unfold execHoldRelease
  refine KeepsO.next ?_
  refine Keeps.via (releaseHolds_keeps _ _) rfl ?_
  exact Keeps.refl _ _

theorem fenHeld_keeps : ∀ a0 a1, Keeps 512 a0 (fenHeld a0 a1) := by
  intro a0 a1
  unfold fenHeld
  refine Keeps.ite ?_ ?_
  · refine Keeps.via (setFen_keeps _ _ _) rfl ?_
    exact Keeps.refl _ _
  · exact Keeps.refl _ _

theorem execFencingTimeout_keeps : ∀ a0 a1, KeepsO 256080600 a1 (execFencingTimeout a0 a1) := by
  intro a0 a1
  unfold execFencingTimeout
  refine KeepsO.ite ?_ ?_
  · refine KeepsO.next ?_
    exact Keeps.refl _ _
  · refine KeepsO.next ?_
    refine Keeps.foldl (fun x1 _ => ?_) ?_
    · refine Keeps.via (finishTicket_keeps _ _) rfl ?_
      refine Keeps.via (fenceTicket_keeps _ _ _ _) rfl ?_
      exact Keeps.refl _ _
    · refine Keeps.via (fenHeld_keeps _ _) rfl ?_
      refine Keeps.via (setFen_keeps _ _ _) rfl ?_
      exact Keeps.refl _ _

theorem execFenFencingDone_keeps : ∀ a0 a1, KeepsO 512 a1 (execFenFencingDone a0 a1) := by
  intro a0 a1
  unfold execFenFencingDone
  refine KeepsO.next ?_
  refine Keeps.via (fenHeld_keeps _ _) rfl ?_
  exact Keeps.refl _ _

theorem execCtlwinTimeout_keeps : ∀ a0 a1 a2, KeepsO 16 a2 (execCtlwinTimeout a0 a1 a2) := by
  intro a0 a1 a2
  unfold execCtlwinTimeout
  refine KeepsO.next ?_
  refine Keeps.ite ?_ ?_
  · refine Keeps.ite ?_ ?_
    · refine Keeps.via (bump_keeps _ _ _ _ _) rfl ?_
      exact Keeps.refl _ _
    · exact Keeps.refl _ _
  · refine Keeps.put_regs ?_ rfl _
    refine Keeps.ite ?_ ?_
    · refine Keeps.via (bump_keeps _ _ _ _ _) rfl ?_
      exact Keeps.refl _ _
    · exact Keeps.refl _ _

theorem execFenCtlwinAccess_keeps : ∀ a0 a1 a2 a3 a4 a5, KeepsO 528 a5 (execFenCtlwinAccess a0 a1 a2 a3 a4 a5) := by
  intro a0 a1 a2 a3 a4 a5
  unfold execFenCtlwinAccess
  unfold onPage
  try dsimp -proj only
  refine KeepsO.next ?_
  refine Keeps.ite ?_ ?_
  · refine Keeps.ite ?_ ?_
    · refine Keeps.put_regs ?_ rfl _
      refine Keeps.via (winAccess_keeps _ _ _ _ _ _) rfl ?_
      exact Keeps.refl _ _
    · refine Keeps.via (winAccess_keeps _ _ _ _ _ _) rfl ?_
      exact Keeps.refl _ _
  · exact Keeps.refl _ _

theorem execFenLast_keeps : ∀ a0 a1 a2 a3 a4, KeepsO 256081624 a4 (execFenLast a0 a1 a2 a3 a4) := by
  intro a0 a1 a2 a3 a4
  unfold execFenLast
  refine KeepsO.ite ?_ ?_
  · refine KeepsO.next ?_
    exact Keeps.refl _ _
  · split
    · refine KeepsO.next ?_
      refine Keeps.via (bump_keeps _ _ _ _ _) rfl ?_
      exact Keeps.refl _ _
    · refine KeepsO.ite ?_ ?_
      · refine KeepsO.next ?_
        refine Keeps.ite ?_ ?_
        · refine Keeps.via (setFen_keeps _ _ _) rfl ?_
          exact Keeps.refl _ _
        · refine Keeps.via (bump_keeps _ _ _ _ _) rfl ?_
          refine Keeps.via (setFen_keeps _ _ _) rfl ?_
          exact Keeps.refl _ _
      · refine KeepsO.ite ?_ ?_
        · refine KeepsO.next ?_
          refine Keeps.via (endOut_keeps _ _ _ _ _ _) rfl ?_
          refine Keeps.ite ?_ ?_
          · refine Keeps.via (setFen_keeps _ _ _) rfl ?_
            exact Keeps.refl _ _
          · refine Keeps.via (bump_keeps _ _ _ _ _) rfl ?_
            refine Keeps.via (setFen_keeps _ _ _) rfl ?_
            exact Keeps.refl _ _
        · refine KeepsO.next ?_
          refine Keeps.via (failAt_keeps _ _ _ _ _) rfl ?_
          refine Keeps.ite ?_ ?_
          · refine Keeps.via (setFen_keeps _ _ _) rfl ?_
            exact Keeps.refl _ _
          · refine Keeps.via (bump_keeps _ _ _ _ _) rfl ?_
            refine Keeps.via (setFen_keeps _ _ _) rfl ?_
            exact Keeps.refl _ _

theorem execFenOutputBeat_keeps : ∀ a0 a1 a2 a3 a4 a5, KeepsO 664 a5 (execFenOutputBeat a0 a1 a2 a3 a4 a5) := by
  intro a0 a1 a2 a3 a4 a5
  unfold execFenOutputBeat
  refine KeepsO.ite ?_ ?_
  · refine KeepsO.next ?_
    exact Keeps.refl _ _
  · split
    · refine KeepsO.next ?_
      refine Keeps.via (bump_keeps _ _ _ _ _) rfl ?_
      exact Keeps.refl _ _
    · refine KeepsO.ite ?_ ?_
      · refine KeepsO.next ?_
        exact Keeps.refl _ _
      · refine KeepsO.next ?_
        refine Keeps.via (setFen_keeps _ _ _) rfl ?_
        refine Keeps.via (countCtx_keeps _ _ _ _ _) rfl ?_
        refine Keeps.via (sendData_keeps _ _ _ _ _ _ _ _ _) rfl ?_
        exact Keeps.refl _ _

theorem execStructureStreamStored_keeps : ∀ a0, KeepsO 256081908 a0 (execStructureStreamStored a0) := by
  intro a0
  unfold execStructureStreamStored
  unfold inState
  try dsimp -proj only
  try dsimp -proj only
  split
  · try dsimp -proj only
    refine KeepsO.next ?_
    exact Keeps.refl _ _
  · try dsimp -proj only
    refine KeepsO.ite ?_ ?_
    · refine KeepsO.next ?_
      exact Keeps.refl _ _
    · refine KeepsO.ite ?_ ?_
      · refine KeepsO.next ?_
        refine Keeps.via (loadEnd_keeps _ _) rfl ?_
        exact Keeps.refl _ _
      · refine KeepsO.ite ?_ ?_
        · refine KeepsO.next ?_
          refine Keeps.via (loadEnd_keeps _ _) rfl ?_
          exact Keeps.refl _ _
        · refine KeepsO.ite ?_ ?_
          · refine KeepsO.next ?_
            refine Keeps.via (loadEnd_keeps _ _) rfl ?_
            exact Keeps.refl _ _
          · refine KeepsO.next ?_
            refine Keeps.ite ?_ ?_
            · refine Keeps.via (loadFail_keeps _ _) rfl ?_
              refine Keeps.via (drawn_keeps _) rfl ?_
              refine Keeps.via (drawn_keeps _) rfl ?_
              exact Keeps.refl _ _
            · refine Keeps.via (loadEnd_keeps _ _) rfl ?_
              refine Keeps.via (setCfg_keeps _ _) rfl ?_
              refine Keeps.via (drawn_keeps _) rfl ?_
              exact Keeps.refl _ _

theorem execLoaderKeyRevoked_keeps : ∀ a0, KeepsO 222525392 a0 (execLoaderKeyRevoked a0) := by
  intro a0
  unfold execLoaderKeyRevoked
  split
  · refine KeepsO.ite ?_ ?_
    · refine KeepsO.next ?_
      refine Keeps.via (loadEnd_keeps _ _) rfl ?_
      exact Keeps.refl _ _
    · refine KeepsO.next ?_
      exact Keeps.refl _ _
  · refine KeepsO.next ?_
    exact Keeps.refl _ _

theorem loadBook_keeps : ∀ a0 a1 a2, Keeps 1024 a0 (loadBook a0 a1 a2) := by
  intro a0 a1 a2
  unfold loadBook
  refine Keeps.ite ?_ ?_
  · refine Keeps.via (book_keeps _ _ _) rfl ?_
    exact Keeps.refl _ _
  · exact Keeps.refl _ _

theorem execFenSafePointB_keeps : ∀ a0, KeepsO 257130488 a0 (execFenSafePointB a0) := by
  intro a0
  unfold execFenSafePointB
  unfold inState
  try dsimp -proj only
  try dsimp -proj only
  split
  · try dsimp -proj only
    refine KeepsO.next ?_
    exact Keeps.refl _ _
  · try dsimp -proj only
    refine KeepsO.ite ?_ ?_
    · refine KeepsO.next ?_
      exact Keeps.refl _ _
    · refine KeepsO.ite ?_ ?_
      · refine KeepsO.next ?_
        refine Keeps.via (loadEnd_keeps _ _) rfl ?_
        exact Keeps.refl _ _
      · refine KeepsO.ite ?_ ?_
        · refine KeepsO.next ?_
          refine Keeps.via (loadEnd_keeps _ _) rfl ?_
          exact Keeps.refl _ _
        · refine KeepsO.ite ?_ ?_
          · refine KeepsO.next ?_
            refine Keeps.via (loadEnd_keeps _ _) rfl ?_
            exact Keeps.refl _ _
          · refine KeepsO.next ?_
            refine Keeps.ite ?_ ?_
            · exact Keeps.refl _ _
            · refine Keeps.via (loadEnd_keeps _ _) rfl ?_
              refine Keeps.via (loadBook_keeps _ _ _) rfl ?_
              refine Keeps.via (extendMeas_keeps _ _ _) rfl ?_
              refine Keeps.via (changeUnit_keeps _ _ _) rfl ?_
              refine Keeps.via (setFen_keeps _ _ _) rfl ?_
              exact Keeps.refl _ _

theorem execFenSafePointA_keeps : ∀ a0, KeepsO 256081912 a0 (execFenSafePointA a0) := by
  intro a0
  unfold execFenSafePointA
  unfold inState
  try dsimp -proj only
  try dsimp -proj only
  split
  · try dsimp -proj only
    refine KeepsO.next ?_
    exact Keeps.refl _ _
  · try dsimp -proj only
    refine KeepsO.ite ?_ ?_
    · refine KeepsO.next ?_
      exact Keeps.refl _ _
    · refine KeepsO.ite ?_ ?_
      · refine KeepsO.next ?_
        refine Keeps.via (loadEnd_keeps _ _) rfl ?_
        exact Keeps.refl _ _
      · refine KeepsO.ite ?_ ?_
        · refine KeepsO.next ?_
          refine Keeps.via (loadEnd_keeps _ _) rfl ?_
          exact Keeps.refl _ _
        · refine KeepsO.ite ?_ ?_
          · refine KeepsO.next ?_
            refine Keeps.via (loadEnd_keeps _ _) rfl ?_
            exact Keeps.refl _ _
          · refine KeepsO.next ?_
            refine Keeps.ite ?_ ?_
            · refine Keeps.via (unitState_keeps _ _ _) rfl ?_
              refine Keeps.via (setCfg_keeps _ _) rfl ?_
              refine Keeps.via (setFen_keeps _ _ _) rfl ?_
              exact Keeps.refl _ _
            · exact Keeps.refl _ _

theorem execFenDrainTimeout_keeps : ∀ a0, KeepsO 256081880 a0 (execFenDrainTimeout a0) := by
  intro a0
  unfold execFenDrainTimeout
  unfold inState
  try dsimp -proj only
  try dsimp -proj only
  split
  · try dsimp -proj only
    refine KeepsO.next ?_
    exact Keeps.refl _ _
  · try dsimp -proj only
    refine KeepsO.ite ?_ ?_
    · refine KeepsO.next ?_
      exact Keeps.refl _ _
    · refine KeepsO.ite ?_ ?_
      · refine KeepsO.next ?_
        refine Keeps.via (loadEnd_keeps _ _) rfl ?_
        exact Keeps.refl _ _
      · refine KeepsO.ite ?_ ?_
        · refine KeepsO.next ?_
          refine Keeps.via (loadEnd_keeps _ _) rfl ?_
          exact Keeps.refl _ _
        · refine KeepsO.ite ?_ ?_
          · refine KeepsO.next ?_
            refine Keeps.via (loadEnd_keeps _ _) rfl ?_
            exact Keeps.refl _ _
          · refine KeepsO.next ?_
            refine Keeps.ite ?_ ?_
            · exact Keeps.refl _ _
            · refine Keeps.foldl (fun x1 _ => ?_) ?_
              · refine Keeps.via (failAt_keeps _ _ _ _ _) rfl ?_
                exact Keeps.refl _ _
              · refine Keeps.via (setFen_keeps _ _ _) rfl ?_
                exact Keeps.refl _ _

theorem execFenApplyStart_keeps : ∀ a0, KeepsO 256081904 a0 (execFenApplyStart a0) := by
  intro a0
  unfold execFenApplyStart
  unfold inState
  try dsimp -proj only
  try dsimp -proj only
  split
  · try dsimp -proj only
    refine KeepsO.next ?_
    exact Keeps.refl _ _
  · try dsimp -proj only
    refine KeepsO.ite ?_ ?_
    · refine KeepsO.next ?_
      exact Keeps.refl _ _
    · refine KeepsO.ite ?_ ?_
      · refine KeepsO.next ?_
        refine Keeps.via (loadEnd_keeps _ _) rfl ?_
        exact Keeps.refl _ _
      · refine KeepsO.ite ?_ ?_
        · refine KeepsO.next ?_
          refine Keeps.via (loadEnd_keeps _ _) rfl ?_
          exact Keeps.refl _ _
        · refine KeepsO.ite ?_ ?_
          · refine KeepsO.next ?_
            refine Keeps.via (loadEnd_keeps _ _) rfl ?_
            exact Keeps.refl _ _
          · refine KeepsO.next ?_
            refine Keeps.ite ?_ ?_
            · exact Keeps.refl _ _
            · refine Keeps.ite ?_ ?_
              · refine Keeps.via (loadFail_keeps _ _) rfl ?_
                exact Keeps.refl _ _
              · split
                · try dsimp -proj only
                  refine Keeps.ite ?_ ?_
                  · refine Keeps.via (loadFail_keeps _ _) rfl ?_
                    exact Keeps.refl _ _
                  · refine Keeps.ite ?_ ?_
                    · refine Keeps.via (setCfg_keeps _ _) rfl ?_
                      refine Keeps.via (setFen_keeps _ _ _) rfl ?_
                      exact Keeps.refl _ _
                    · refine Keeps.via (setCfg_keeps _ _) rfl ?_
                      refine Keeps.via (setFen_keeps _ _ _) rfl ?_
                      exact Keeps.refl _ _
                · try dsimp -proj only
                  refine Keeps.ite ?_ ?_
                  · refine Keeps.via (loadFail_keeps _ _) rfl ?_
                    exact Keeps.refl _ _
                  · refine Keeps.ite ?_ ?_
                    · refine Keeps.via (setCfg_keeps _ _) rfl ?_
                      refine Keeps.via (setFen_keeps _ _ _) rfl ?_
                      exact Keeps.refl _ _
                    · refine Keeps.via (setCfg_keeps _ _) rfl ?_
                      refine Keeps.via (setFen_keeps _ _ _) rfl ?_
                      exact Keeps.refl _ _
                · try dsimp -proj only
                  refine Keeps.via (loadFail_keeps _ _) rfl ?_
                  exact Keeps.refl _ _

theorem execScreenComplete_keeps : ∀ a0 a1, KeepsO 256081904 a1 (execScreenComplete a0 a1) := by
  intro a0 a1
  unfold execScreenComplete
  unfold inState
  try dsimp -proj only
  try dsimp -proj only
  split
  · try dsimp -proj only
    refine KeepsO.next ?_
    exact Keeps.refl _ _
  · try dsimp -proj only
    refine KeepsO.ite ?_ ?_
    · refine KeepsO.next ?_
      exact Keeps.refl _ _
    · refine KeepsO.ite ?_ ?_
      · refine KeepsO.next ?_
        refine Keeps.via (loadEnd_keeps _ _) rfl ?_
        exact Keeps.refl _ _
      · refine KeepsO.ite ?_ ?_
        · refine KeepsO.next ?_
          refine Keeps.via (loadEnd_keeps _ _) rfl ?_
          exact Keeps.refl _ _
        · refine KeepsO.ite ?_ ?_
          · refine KeepsO.next ?_
            refine Keeps.via (loadEnd_keeps _ _) rfl ?_
            exact Keeps.refl _ _
          · refine KeepsO.next ?_
            try dsimp -proj only
            split
            · try dsimp -proj only
              refine Keeps.via (setCfg_keeps _ _) rfl ?_
              exact Keeps.refl _ _
            · try dsimp -proj only
              refine Keeps.via (loadReject_keeps _ _ _ _ _ _ _) rfl ?_
              exact Keeps.refl _ _

theorem execLoaderBlockArrived_keeps : ∀ a0 a1 a2, KeepsO 256081904 a2 (execLoaderBlockArrived a0 a1 a2) := by
  intro a0 a1 a2
  unfold execLoaderBlockArrived
  unfold inState
  try dsimp -proj only
  try dsimp -proj only
  split
  · try dsimp -proj only
    refine KeepsO.next ?_
    exact Keeps.refl _ _
  · try dsimp -proj only
    refine KeepsO.ite ?_ ?_
    · refine KeepsO.next ?_
      exact Keeps.refl _ _
    · refine KeepsO.ite ?_ ?_
      · refine KeepsO.next ?_
        refine Keeps.via (loadEnd_keeps _ _) rfl ?_
        exact Keeps.refl _ _
      · refine KeepsO.ite ?_ ?_
        · refine KeepsO.next ?_
          refine Keeps.via (loadEnd_keeps _ _) rfl ?_
          exact Keeps.refl _ _
        · refine KeepsO.ite ?_ ?_
          · refine KeepsO.next ?_
            refine Keeps.via (loadEnd_keeps _ _) rfl ?_
            exact Keeps.refl _ _
          · refine KeepsO.next ?_
            refine Keeps.ite ?_ ?_
            · exact Keeps.refl _ _
            · refine Keeps.ite ?_ ?_
              · refine Keeps.via (loadFail_keeps _ _) rfl ?_
                exact Keeps.refl _ _
              · split
                · try dsimp -proj only
                  refine Keeps.via (loadReject_keeps _ _ _ _ _ _ _) rfl ?_
                  exact Keeps.refl _ _
                · try dsimp -proj only
                  refine Keeps.ite ?_ ?_
                  · refine Keeps.via (setCfg_keeps _ _) rfl ?_
                    refine Keeps.via (loadBook_keeps _ _ _) rfl ?_
                    exact Keeps.refl _ _
                  · refine Keeps.via (blocksDone_keeps _ _) rfl ?_
                    refine Keeps.via (setCfg_keeps _ _) rfl ?_
                    refine Keeps.via (loadBook_keeps _ _ _) rfl ?_
                    exact Keeps.refl _ _

theorem execLoaderAuthenticate_keeps : ∀ a0 a1 a2, KeepsO 256081904 a2 (execLoaderAuthenticate a0 a1 a2) := by
  intro a0 a1 a2
  unfold execLoaderAuthenticate
  unfold inState
  try dsimp -proj only
  try dsimp -proj only
  split
  · try dsimp -proj only
    refine KeepsO.next ?_
    exact Keeps.refl _ _
  · try dsimp -proj only
    refine KeepsO.ite ?_ ?_
    · refine KeepsO.next ?_
      exact Keeps.refl _ _
    · refine KeepsO.ite ?_ ?_
      · refine KeepsO.next ?_
        refine Keeps.via (loadEnd_keeps _ _) rfl ?_
        exact Keeps.refl _ _
      · refine KeepsO.ite ?_ ?_
        · refine KeepsO.next ?_
          refine Keeps.via (loadEnd_keeps _ _) rfl ?_
          exact Keeps.refl _ _
        · refine KeepsO.ite ?_ ?_
          · refine KeepsO.next ?_
            refine Keeps.via (loadEnd_keeps _ _) rfl ?_
            exact Keeps.refl _ _
          · refine KeepsO.next ?_
            refine Keeps.ite ?_ ?_
            · exact Keeps.refl _ _
            · refine Keeps.ite ?_ ?_
              · refine Keeps.via (loadFail_keeps _ _) rfl ?_
                exact Keeps.refl _ _
              · refine Keeps.ite ?_ ?_
                · refine Keeps.via (loadFail_keeps _ _) rfl ?_
                  exact Keeps.refl _ _
                · refine Keeps.ite ?_ ?_
                  · refine Keeps.via (loadFail_keeps _ _) rfl ?_
                    exact Keeps.refl _ _
                  · refine Keeps.ite ?_ ?_
                    · refine Keeps.via (loadFail_keeps _ _) rfl ?_
                      exact Keeps.refl _ _
                    · refine Keeps.ite ?_ ?_
                      · refine Keeps.via (setCfg_keeps _ _) rfl ?_
                        exact Keeps.refl _ _
                      · split
                        · try dsimp -proj only
                          refine Keeps.via (loadFail_keeps _ _) rfl ?_
                          exact Keeps.refl _ _
                        · try dsimp -proj only
                          try dsimp -proj only
                          split
                          · try dsimp -proj only
                            refine Keeps.via (loadFail_keeps _ _) rfl ?_
                            exact Keeps.refl _ _
                          · try dsimp -proj only
                            refine Keeps.via (setCfg_keeps _ _) rfl ?_
                            split
                            · try dsimp -proj only
                              refine Keeps.via (useSlot_keeps _ _) rfl ?_
                              exact Keeps.refl _ _
                            · try dsimp -proj only
                              exact Keeps.refl _ _

theorem execLoaderHeaderArrived_keeps : ∀ a0 a1 a2, KeepsO 256081904 a2 (execLoaderHeaderArrived a0 a1 a2) := by
  intro a0 a1 a2
  unfold execLoaderHeaderArrived
  unfold inState
  try dsimp -proj only
  try dsimp -proj only
  split
  · try dsimp -proj only
    refine KeepsO.next ?_
    exact Keeps.refl _ _
  · try dsimp -proj only
    refine KeepsO.ite ?_ ?_
    · refine KeepsO.next ?_
      exact Keeps.refl _ _
    · refine KeepsO.ite ?_ ?_
      · refine KeepsO.next ?_
        refine Keeps.via (loadEnd_keeps _ _) rfl ?_
        exact Keeps.refl _ _
      · refine KeepsO.ite ?_ ?_
        · refine KeepsO.next ?_
          refine Keeps.via (loadEnd_keeps _ _) rfl ?_
          exact Keeps.refl _ _
        · refine KeepsO.ite ?_ ?_
          · refine KeepsO.next ?_
            refine Keeps.via (loadEnd_keeps _ _) rfl ?_
            exact Keeps.refl _ _
          · refine KeepsO.next ?_
            refine Keeps.ite ?_ ?_
            · exact Keeps.refl _ _
            · refine Keeps.ite ?_ ?_
              · refine Keeps.via (loadFail_keeps _ _) rfl ?_
                exact Keeps.refl _ _
              · refine Keeps.ite ?_ ?_
                · refine Keeps.via (loadFail_keeps _ _) rfl ?_
                  exact Keeps.refl _ _
                · refine Keeps.ite ?_ ?_
                  · exact Keeps.refl _ _
                  · refine Keeps.ite ?_ ?_
                    · refine Keeps.via (loadFail_keeps _ _) rfl ?_
                      exact Keeps.refl _ _
                    · refine Keeps.via (setCfg_keeps _ _) rfl ?_
                      exact Keeps.refl _ _

theorem execLoaderFetchHead_keeps : ∀ a0, KeepsO 222525392 a0 (execLoaderFetchHead a0) := by
  intro a0
  unfold execLoaderFetchHead
  split
  · refine KeepsO.next ?_
    exact Keeps.refl _ _
  · refine KeepsO.ite ?_ ?_
    · refine KeepsO.next ?_
      exact Keeps.refl _ _
    · refine KeepsO.ite ?_ ?_
      · refine KeepsO.next ?_
        refine Keeps.via (loadResult_keeps _ _ _) rfl ?_
        refine Keeps.via (setCfg_keeps _ _) rfl ?_
        exact Keeps.refl _ _
      · refine KeepsO.ite ?_ ?_
        · refine KeepsO.next ?_
          refine Keeps.via (setLive_keeps _ _ _ _ _) rfl ?_
          refine Keeps.via (setLive_keeps _ _ _ _ _) rfl ?_
          refine Keeps.via (setCfg_keeps _ _) rfl ?_
          exact Keeps.refl _ _
        · refine KeepsO.next ?_
          refine Keeps.via (setCfg_keeps _ _) rfl ?_
          exact Keeps.refl _ _

theorem execCfgLoadRequest_keeps : ∀ a0, KeepsO 268402672 a0 (execCfgLoadRequest a0) := by
  intro a0
  unfold execCfgLoadRequest
  refine KeepsO.next ?_
  refine Keeps.via (commitEffect_keeps _ _) rfl ?_
  exact Keeps.refl _ _

theorem execGenHeldEventApply_keeps : ∀ a0 a1, KeepsO 268402680 a1 (execGenHeldEventApply a0 a1) := by
  intro a0 a1
  unfold execGenHeldEventApply
  try dsimp -proj only
  split
  · refine KeepsO.next ?_
    exact Keeps.refl _ _
  · refine KeepsO.ite ?_ ?_
    · refine KeepsO.next ?_
      exact Keeps.refl _ _
    · refine KeepsO.next ?_
      refine Keeps.ite ?_ ?_
      · refine Keeps.via (backSets_keeps _ _) rfl ?_
        refine Keeps.via (doChange_keeps _ _ _) rfl ?_
        refine Keeps.via (setUnit_keeps _ _ _) rfl ?_
        exact Keeps.refl _ _
      · refine Keeps.via (doChange_keeps _ _ _) rfl ?_
        refine Keeps.via (setUnit_keeps _ _ _) rfl ?_
        exact Keeps.refl _ _

theorem setPacket_keeps : ∀ a0 a1 a2, Keeps 8 a0 (setPacket a0 a1 a2) := by
  intro a0 a1 a2
  unfold setPacket
  refine Keeps.put_dev ?_ rfl _
  exact Keeps.refl _ _

theorem execFlitArrive_keeps : ∀ a0 a1 a2 a3 a4 a5 a6 a7 a8 a9 a10, KeepsO 256605948 a10 (execFlitArrive a0 a1 a2 a3 a4 a5 a6 a7 a8 a9 a10) := by
  intro a0 a1 a2 a3 a4 a5 a6 a7 a8 a9 a10
  unfold execFlitArrive
  try dsimp -proj only
  split
  · refine KeepsO.next ?_
    split
    · exact Keeps.refl _ _
    · refine Keeps.ite ?_ ?_
      · exact Keeps.refl _ _
      · refine Keeps.via (accessFlitArrive_keeps _ _ _ _ _ _ _ _) rfl ?_
        exact Keeps.refl _ _
  · refine KeepsO.ite ?_ ?_
    · refine KeepsO.next ?_
      exact Keeps.refl _ _
    · split
      · rename_i y1_0 h1
        have k1 : Keeps 256605948 a10 y1_0 := by
          refine Keeps.snd h1 ?_
          refine Keeps.via (flitTries_keeps _ _ _ _ _ _ _ _) rfl ?_
          refine Keeps.via (wakeIsland_keeps _ _) rfl ?_
          exact Keeps.refl _ _
        refine KeepsO.next ?_
        exact k1
      · rename_i y2_0 h2
        have k2 : Keeps 256605948 a10 y2_0 := by
          refine Keeps.snd h2 ?_
          refine Keeps.via (flitTries_keeps _ _ _ _ _ _ _ _) rfl ?_
          refine Keeps.via (wakeIsland_keeps _ _) rfl ?_
          exact Keeps.refl _ _
        refine KeepsO.next ?_
        refine Keeps.via (setPacket_keeps _ _ _) rfl ?_
        refine Keeps.via (drawn_keeps _) rfl ?_
        exact k2
      · rename_i y3_0 h3
        have k3 : Keeps 256605948 a10 y3_0 := by
          refine Keeps.snd h3 ?_
          refine Keeps.via (flitTries_keeps _ _ _ _ _ _ _ _) rfl ?_
          refine Keeps.via (wakeIsland_keeps _ _) rfl ?_
          exact Keeps.refl _ _
        refine KeepsO.next ?_
        refine Keeps.via (setPacket_keeps _ _ _) rfl ?_
        refine Keeps.via (recordLost_keeps _ _ _ _) rfl ?_
        refine Keeps.via (routerCount_keeps _ _ _ _ _) rfl ?_
        exact k3

theorem storeWords_keeps : ∀ a0 a1, Keeps 256605948 a0 (storeWords a0 a1).2 := by
  intro a0 a1
  unfold storeWords
  split
  · exact Keeps.refl _ _
  · refine Keeps.ite2 ?_ ?_
    · exact Keeps.refl _ _
    · split
      · rename_i y1_0 y1_1 h1
        have k1 : Keeps 256605948 a0 y1_1 := by
          refine Keeps.snd h1 ?_
          refine Keeps.via (useInjs_keeps _ _ _) rfl ?_
          exact Keeps.refl _ _
        split
        · refine Keeps.via (countCorrected_keeps _ _ _ _) rfl ?_
          exact k1
        · refine Keeps.ite2 ?_ ?_
          · refine Keeps.via (countUncorr_keeps _ _ _) rfl ?_
            refine Keeps.via (drawn_keeps _) rfl ?_
            exact k1
          · refine Keeps.via (drawn_keeps _) rfl ?_
            exact k1
        · refine Keeps.via (countUncorr_keeps _ _ _) rfl ?_
          exact k1

theorem takeArrival_keeps : ∀ a0 a1, Keeps 256606204 a0 (takeArrival a0 a1) := by
  intro a0 a1
  unfold takeArrival
  split
  · exact Keeps.refl _ _
  · refine Keeps.ite ?_ ?_
    · refine Keeps.via (arriveFenced_keeps _ _ _) rfl ?_
      exact Keeps.refl _ _
    · refine Keeps.ite ?_ ?_
      · exact Keeps.refl _ _
      · refine Keeps.ite ?_ ?_
        · refine Keeps.via (failAt_keeps _ _ _ _ _) rfl ?_
          exact Keeps.refl _ _
        · refine Keeps.ite ?_ ?_
          · refine Keeps.via (failAt_keeps _ _ _ _ _) rfl ?_
            exact Keeps.refl _ _
          · split
            · rename_i y1_0 y1_1 h1
              have k1 : Keeps 256606204 a0 y1_1 := by
                refine Keeps.snd h1 ?_
                refine Keeps.via (storeWords_keeps _ _) rfl ?_
                exact Keeps.refl _ _
              refine Keeps.via (deliverPkt_keeps _ _ _) rfl ?_
              exact k1
            · rename_i y2_0 h2
              have k2 : Keeps 256606204 a0 y2_0 := by
                refine Keeps.snd h2 ?_
                refine Keeps.via (storeWords_keeps _ _) rfl ?_
                exact Keeps.refl _ _
              refine Keeps.via (failAt_keeps _ _ _ _ _) rfl ?_
              refine Keeps.via (recordLost_keeps _ _ _ _) rfl ?_
              exact k2

theorem execPacketArrive_keeps : ∀ a0 a1 a2 a3 a4, KeepsO 256606204 a4 (execPacketArrive a0 a1 a2 a3 a4) := by
  intro a0 a1 a2 a3 a4
  unfold execPacketArrive
  split
  · refine KeepsO.next ?_
    exact Keeps.refl _ _
  · refine KeepsO.ite ?_ ?_
    · refine KeepsO.next ?_
      exact Keeps.refl _ _
    · refine KeepsO.ite ?_ ?_
      · refine KeepsO.next ?_
        refine Keeps.via (bounce_keeps _ _) rfl ?_
        refine Keeps.via (offTrunk_keeps _ _) rfl ?_
        refine Keeps.via (wakePath_keeps _ _) rfl ?_
        exact Keeps.refl _ _
      · refine KeepsO.ite ?_ ?_
        · refine KeepsO.next ?_
          refine Keeps.via (wakePath_keeps _ _) rfl ?_
          exact Keeps.refl _ _
        · refine KeepsO.next ?_
          refine Keeps.via (takeArrival_keeps _ _) rfl ?_
          refine Keeps.via (offTrunk_keeps _ _) rfl ?_
          refine Keeps.via (wakePath_keeps _ _) rfl ?_
          exact Keeps.refl _ _

theorem execCommitTakesEffect_keeps : ∀ a0 a1, KeepsO 268402672 a1 (execCommitTakesEffect a0 a1) := by
  intro a0 a1
  unfold execCommitTakesEffect
  refine KeepsO.next ?_
  refine Keeps.via (commitEffect_keeps _ _) rfl ?_
  exact Keeps.refl _ _

theorem execCommitDiscard_keeps : ∀ a0 a1 a2, KeepsO 260013788 a2 (execCommitDiscard a0 a1 a2) := by
  intro a0 a1 a2
  unfold execCommitDiscard
  unfold onPage
  try dsimp -proj only
  refine KeepsO.next ?_
  refine Keeps.ite ?_ ?_
  · refine Keeps.ite ?_ ?_
    · refine Keeps.via (barWrite_keeps _ _ _) rfl ?_
      exact Keeps.refl _ _
    · exact Keeps.refl _ _
  · exact Keeps.refl _ _

theorem execCommitGo_keeps : ∀ a0 a1 a2, KeepsO 260013788 a2 (execCommitGo a0 a1 a2) := by
  intro a0 a1 a2
  unfold execCommitGo
  unfold onPage
  try dsimp -proj only
  refine KeepsO.next ?_
  refine Keeps.ite ?_ ?_
  · refine Keeps.ite ?_ ?_
    · refine Keeps.via (barWrite_keeps _ _ _) rfl ?_
      exact Keeps.refl _ _
    · exact Keeps.refl _ _
  · exact Keeps.refl _ _

theorem readReg_keeps : ∀ a0 a1, Keeps 71196 a0 (readReg a0 a1) := by
  intro a0 a1
  unfold readReg
  refine Keeps.put_regs ?_ rfl _
  refine Keeps.via (regRead_keeps _ _) rfl ?_
  exact Keeps.refl _ _

theorem execKeySlotStatusRead_keeps : ∀ a0 a1, KeepsO 71196 a1 (execKeySlotStatusRead a0 a1) := by
  intro a0 a1
  unfold execKeySlotStatusRead
  refine KeepsO.next ?_
  refine Keeps.via (readReg_keeps _ _) rfl ?_
  exact Keeps.refl _ _

theorem execReadClear_keeps : ∀ a0 a1, KeepsO 71196 a1 (execReadClear a0 a1) := by
  intro a0 a1
  unfold execReadClear
  unfold onPage
  try dsimp -proj only
  refine KeepsO.next ?_
  refine Keeps.ite ?_ ?_
  · refine Keeps.via (readReg_keeps _ _) rfl ?_
    exact Keeps.refl _ _
  · exact Keeps.refl _ _

theorem execUnitRoleRead_keeps : ∀ a0 a1, KeepsO 71196 a1 (execUnitRoleRead a0 a1) := by
  intro a0 a1
  unfold execUnitRoleRead
  refine KeepsO.next ?_
  refine Keeps.via (readReg_keeps _ _) rfl ?_
  exact Keeps.refl _ _

theorem execReadLoLatch_keeps : ∀ a0 a1, KeepsO 71196 a1 (execReadLoLatch a0 a1) := by
  intro a0 a1
  unfold execReadLoLatch
  unfold onPage
  try dsimp -proj only
  refine KeepsO.next ?_
  refine Keeps.ite ?_ ?_
  · refine Keeps.via (readReg_keeps _ _) rfl ?_
    exact Keeps.refl _ _
  · exact Keeps.refl _ _

theorem execRegisterWrite_keeps : ∀ a0 a1 a2 a3, KeepsO 268402684 a3 (execRegisterWrite a0 a1 a2 a3) := by
  intro a0 a1 a2 a3
  unfold execRegisterWrite
  unfold onPage
  try dsimp -proj only
  refine KeepsO.next ?_
  refine Keeps.ite ?_ ?_
  · refine Keeps.via (regStore_keeps _ _ _ _) rfl ?_
    exact Keeps.refl _ _
  · exact Keeps.refl _ _

theorem localOutcomes_keeps : ∀ a0, Keeps 222524112 a0 (localOutcomes a0) := by
  intro a0
  unfold localOutcomes
  refine Keeps.foldl (fun x1 _ => ?_) ?_
  · split
    · exact Keeps.refl _ _
    · refine Keeps.via (messageOutcome_keeps _ _ _ _) rfl ?_
      exact Keeps.refl _ _
  · refine Keeps.via (setJct_keeps _ _) rfl ?_
    exact Keeps.refl _ _

theorem fedSettle_keeps : ∀ a0, Keeps 222524112 a0 (fedSettle a0) := by
  intro a0
  unfold fedSettle
  refine Keeps.via (setJct_keeps _ _) rfl ?_
  refine Keeps.via (settlePromotions_keeps _) rfl ?_
  refine Keeps.via (submitRecvs_keeps _) rfl ?_
  refine Keeps.via (localOutcomes_keeps _) rfl ?_
  exact Keeps.refl _ _

theorem openWindows_keeps : ∀ a0, Keeps 33554432 a0 (openWindows a0) := by
  intro a0
  unfold openWindows
  refine Keeps.foldl (fun x1 _ => ?_) ?_
  · refine Keeps.ite ?_ ?_
    · refine Keeps.via (setDram_keeps _ _ _) rfl ?_
      exact Keeps.refl _ _
    · exact Keeps.refl _ _
  · exact Keeps.refl _ _

theorem passSlots_keeps : ∀ a0, Keeps 4194320 a0 (passSlots a0) := by
  intro a0
  unfold passSlots
  refine Keeps.ite ?_ ?_
  · exact Keeps.refl _ _
  · refine Keeps.foldl (fun x1 _ => ?_) ?_
    · refine Keeps.via (bump_keeps _ _ _ _ _) rfl ?_
      exact Keeps.refl _ _
    · refine Keeps.via (setAsu_keeps _ _) rfl ?_
      exact Keeps.refl _ _

theorem pumpCmds_keeps : ∀ a0, Keeps 222524096 a0 (pumpCmds a0) := by
  intro a0
  unfold pumpCmds
  refine Keeps.foldl (fun x1 _ => ?_) ?_
  · refine Keeps.via (formTodo_keeps _ _ _ _ _) rfl ?_
    exact Keeps.refl _ _
  · exact Keeps.refl _ _

theorem wakeCores_keeps : ∀ a0, Keeps 16384 a0 (wakeCores a0) := by
  intro a0
  unfold wakeCores
  refine Keeps.foldl (fun x1 _ => ?_) ?_
  · refine Keeps.via (wakeCore_keeps _ _) rfl ?_
    exact Keeps.refl _ _
  · exact Keeps.refl _ _

theorem tickCores_keeps : ∀ a0, Keeps 256605948 a0 (tickCores a0) := by
  intro a0
  unfold tickCores
  refine Keeps.via (drainEmits_keeps _) rfl ?_
  refine Keeps.via (wakeCores_keeps _) rfl ?_
  exact Keeps.refl _ _

theorem tickQueues_keeps : ∀ a0, Keeps 266043384 a0 (tickQueues a0) := by
  intro a0
  unfold tickQueues
  refine Keeps.via (tstSettle_keeps _) rfl ?_
  refine Keeps.via (fedSettle_keeps _) rfl ?_
  refine Keeps.via (tenSettle_keeps _) rfl ?_
  refine Keeps.via (pumpCmds_keeps _) rfl ?_
  exact Keeps.refl _ _

theorem tickClock_keeps : ∀ a0, Keeps 16386 a0 (tickClock a0) := by
  intro a0
  unfold tickClock
  refine Keeps.via (countCycles_keeps _) rfl ?_
  refine Keeps.put_now ?_ rfl _
  exact Keeps.refl _ _

theorem tick_keeps : ∀ a0, Keeps 266043390 a0 (tick a0) := by
  intro a0
  unfold tick
  refine Keeps.ite ?_ ?_
  · refine Keeps.via (tickClock_keeps _) rfl ?_
    exact Keeps.refl _ _
  · refine Keeps.via (tickQueues_keeps _) rfl ?_
    refine Keeps.via (tickCores_keeps _) rfl ?_
    refine Keeps.via (openWindows_keeps _) rfl ?_
    refine Keeps.via (passSlots_keeps _) rfl ?_
    refine Keeps.via (tickClock_keeps _) rfl ?_
    exact Keeps.refl _ _

end Sys2Proof.Machine
end

