-- ==== Sys2Proof/Tests/Slice0.lean ====
section
/-! SUPPORT. Tests: ill-formed commands that the check refuses, Goley words written out from the encoding of R501 to R507,
single steps whose results come from the spec's rules, and for each obligation states and operands that meet its premises. -/

namespace Sys2Proof.Tests

set_option Elab.async false

open Sys2Proof
open Sys2Proof.Machine

/-- The step answers a next state with `p`. -/
def ok (o : Out) (p : State → Bool) : Bool := nextsB o p

/-- A unit in service in ROLE `r` for instance `o`. -/
def inRole (s : State) (u r o : Nat) : State := setUnit s u { unitOf s u with role := r, owner := o, state := .active }

/-- Ticket 7 of the device on line 5: its steps' units, and its length. -/
def tk (units : Tab Nat) (len : Nat) : Entry := {
  t := { inst := 0, line := 5, len := len }, sub := .device, admitted := 1, waiting := false, units := units }

/-- A packet of ticket 7 for step `j`, from unit 0 to unit `u`. -/
def pk (u j : Nat) (data : Bytes) : Packet := {
  dest := u, destGen := 0, src := 0, inst := 0, tag := 7, step := j, data := data, flits := ceilDiv data.length 32 }

/-- Ticket 7 runs on line 5 of these steps, and `w` stands at the front of unit `u`'s queue. -/
def at7 (s : State) (steps : List LStep) (e : Entry) (u : Nat) (w : Work) : State := {
  s with
    cfg := { s.cfg with lines := [(5, { steps := steps })] }
    sbx := { s.sbx with store := [(7, e)] }
    stn := { s.stn with inbox := [(u, [w])] } }

/-- A device in READY. -/
def sReady : State := { State.reset with boot := { phase := .ready } }

/-! ## Well-formed commands -/

/-- One ill-formed command for each check of `Instr.wf`, and well-formed ones at the limits. -/
theorem test_wf_refuses_out_of_range :
    [Instr.timerRaise 50, .packetArrive 218 0 0 0, .packetArrive 0 0 0 2, .ideIntegrityFailure 0 4, .createIoCq 513, .holdRelease 512, .fenScrubDone 40, .feedStart 8,
      .deadlineExpire 65536, .flashRetrainBegin 32, .dramTrainWindowEnd 4, .keyUseZero 4096, .getCertificate 0 8 0 0,
      .getDigests 513, .fenLast 0 6 0 0, .linkDown 2, .uaserLinkDown 4, .asuHoldRoomFree 4, .bankCopyDone 64,
      .scrubRead 0 8192 0 none [], .registerWrite ⟨0, none⟩ 3 0, .readClear ⟨2 ^ 32, none⟩, .flitArrive 0 0 0 0 0 0 0 5 0 [],
      .operatingPointChange 0xF0 2 0, .journalPageProgrammed 0 2, .fenCtlwinAccess 0 ⟨1024, none⟩ none none 0,
      .retransmitTimeout 65536 0 0, .nvmeRead 0 65536, .regUpdate 0 none 8 [] 0 0 ⟨[], [], [], []⟩].all (fun c => !c.wf) = true ∧
    [Instr.timerRaise 49, .packetArrive 217 0 0 0, .createIoCq 512, .fenScrubDone 39, .keyUseZero 4095, .getDigests 0xFFFF].all
      (fun c => c.wf) = true := by decide

/-- Immediates that their size code cannot carry, and a reserved condition, are ill-formed (R507, R525). -/
theorem test_wf_refuses_immediates :
    [Instr.gAddi 0 {} 1 2 1 128, .gLi 0 {} 1 7 0, .gLdb 0 {} 1 2 1 (-129), .gChki 0 {} 1 4 0 0, .gBc 0 {} 1 6 2 1 4,
      .gJal 0 {} 1 1 128].all (fun c => !c.wf) = true ∧
    [Instr.gAddi 0 {} 1 2 1 127, .gLdb 0 {} 1 2 1 (-128), .gBc 0 {} 1 5 2 1 4].all (fun c => c.wf) = true := by decide

/-! ## Goley cores (O1 to O16) -/

/-- Core 0, RUNNING with its pc at 0x100: g1 = 5, g2 = 3, g4 = 0x2000, g5 = −1, g29 = 2. -/
def core0 : Core := {
  state := .running, gpr := [(1, 5), (2, 3), (4, 0x2000), (5, -1), (29, 2)], pc := 0x100, mem := [(0x2000, 0x80), (0x2007, 0x7F)] }

/-- A machine with that core. -/
def sGo : State := setCore State.reset 0 core0

/-- g`r` of core 0 after the step. -/
def gIs (o : Out) (r : Nat) (v : DWord) : Bool := ok o (fun t => (coreOf t 0).g r == v)

theorem witness_GoleyArithmetic :
    ([⟨{}, 0x10, .g3 3 1 2⟩, ⟨{}, 0x11, .g3 3 1 2⟩, ⟨{}, 0x12, .g3 3 1 2⟩, ⟨{}, 0x13, .g3 3 1 2⟩, ⟨{}, 0x14, .g3 3 1 2⟩,
      ⟨{}, 0x15, .g3 3 1 2⟩, ⟨{}, 0x16, .g3 3 1 2⟩, ⟨{ w32 := true }, 0x17, .g3 3 1 2⟩, ⟨{ rep := true }, 0x18, .g3 3 1 2⟩,
      ⟨{}, 0x19, .g3 0 5 5⟩, ⟨{}, 0x1A, .g3 3 5 5⟩, ⟨{}, 0x1E, .g2 3 1⟩, ⟨{}, 0x1F, .g2 3 1⟩, ⟨{}, 0xE001, .g2 3 1⟩,
      ⟨{}, 0xE002, .g2 3 1⟩, ⟨{}, 0xE003, .g2 3 1⟩, ⟨{}, 0xE004, .g2 3 1⟩] : List GIns).all
        (fun i => decide (issues sGo 0 i)) = true := by decide

/-- R514, R515 by hand: 5 + 3, 3 − 5 under W32, the high halves of −1 × −1, 5 bytes swapped, and the pc past 4 bytes. -/
theorem test_arithmetic :
    gIs (exec (.gAdd 0 {} 3 1 2) sGo) 3 8 = true ∧ gIs (exec (.gSub 0 { w32 := true } 3 2 1) sGo) 3 (-2) = true ∧
    gIs (exec (.gMulh 0 {} 3 5 5) sGo) 3 0 = true ∧ gIs (exec (.gMulhu 0 {} 3 5 5) sGo) 3 (-2) = true ∧
    gIs (exec (.gBswap 0 {} 3 1) sGo) 3 0x0500000000000000 = true ∧ gIs (exec (.gSar 0 {} 3 5 2) sGo) 3 (-1) = true ∧
    gIs (exec (.gShr 0 { w32 := true } 3 5 2) sGo) 3 0x1FFFFFFF = true ∧ gIs (exec (.gClz 0 {} 3 1) sGo) 3 61 = true ∧
    gIs (exec (.gAdd 0 {} 0 1 2) sGo) 0 0 = true ∧
    ok (exec (.gAdd 0 {} 3 1 2) sGo) (fun t => (coreOf t 0).pc == 0x104) = true := by decide

theorem witness_GoleyDivision :
    issues sGo 0 ⟨{}, 0x1B, .g4 3 6 1 2⟩ ∧ issues sGo 0 ⟨{}, 0x1B, .g4 3 6 1 0⟩ ∧ issues sGo 0 ⟨{}, 0x1C, .g4 3 6 1 2⟩ ∧
    issues sGo 0 ⟨{}, 0x1C, .g4 3 6 1 0⟩ ∧ issues sGo 0 ⟨{}, 0x1D, .g4 3 6 1 0⟩ ∧ issues sGo 0 ⟨{}, 0x1D, .g4 3 6 1 2⟩ := by
  decide

/-- R516: 5 ÷ 3; DIVN by 0 writes −1 and the dividend; DIV by 0 traps with code 6. -/
theorem test_division :
    gIs (exec (.gDiv 0 {} 3 6 1 2) sGo) 3 1 = true ∧ gIs (exec (.gDiv 0 {} 3 6 1 2) sGo) 6 2 = true ∧
    gIs (exec (.gDivn 0 {} 3 6 1 0) sGo) 3 (-1) = true ∧ gIs (exec (.gDivn 0 {} 3 6 1 0) sGo) 6 5 = true ∧
    ok (exec (.gDiv 0 {} 3 6 1 0) sGo) (fun t => (coreOf t 0).cr 0x04 == 6 && (coreOf t 0).pc == 0x180) = true := by decide

theorem witness_GoleyComparesAndImmediates :
    ([⟨{}, 0x30, .g3 3 1 2⟩, ⟨{}, 0x31, .g3 3 1 2⟩, ⟨{}, 0x32, .g3 3 5 1⟩, ⟨{}, 0x33, .g3 3 5 1⟩, ⟨{}, 0x34, .g3 3 1 1⟩,
      ⟨{}, 0x35, .g3 3 1 1⟩, ⟨{}, 0x48, .gi 3 1 1 5⟩, ⟨{}, 0x49, .gi 3 1 1 5⟩, ⟨{}, 0x4A, .gi 3 1 1 5⟩,
      ⟨{}, 0x4B, .gi 3 1 1 5⟩, ⟨{}, 0x4C, .gi 3 1 1 5⟩, ⟨{}, 0x4D, .gi 3 1 1 5⟩, ⟨{}, 0x40, .gi 3 1 1 127⟩,
      ⟨{}, 0x41, .gi 3 1 0 0⟩, ⟨{}, 0x42, .gi 3 1 1 (-128)⟩, ⟨{}, 0x43, .gi 3 1 1 5⟩, ⟨{}, 0x44, .gi 3 1 1 63⟩,
      ⟨{}, 0x45, .gi 3 1 1 5⟩, ⟨{}, 0x46, .gi 3 1 1 5⟩, ⟨{}, 0x47, .gi 3 1 1 5⟩, ⟨{}, 0x4E, .i 3 4 0x123456789ABCDEF⟩]
      : List GIns).all (fun i => decide (issues sGo 0 i)) = true := by decide

/-- R518, R519: −1 < 5 signed and not unsigned; immediates are sign-extended. -/
theorem test_compares :
    gIs (exec (.gSlt 0 {} 3 5 1) sGo) 3 1 = true ∧ gIs (exec (.gSltu 0 {} 3 5 1) sGo) 3 0 = true ∧
    gIs (exec (.gAddi 0 {} 3 1 1 (-6)) sGo) 3 (-1) = true ∧ gIs (exec (.gSgei 0 {} 3 1 1 5) sGo) 3 1 = true := by decide

theorem witness_GoleyLoads :
    ([0x60, 0x70, 0x61, 0x71, 0x62, 0x72, 0x63, 0x73, 0x64, 0x74, 0x65, 0x75, 0x66, 0x76] : List Nat).all (fun op =>
      decide (issues sGo 0 ⟨{}, op, .m 3 4 1 0⟩ ∧ dataTrap sGo 0 28 0x2000 (accessBytes op) = none)) = true := by decide

theorem witness_GoleyStores :
    ([0x68, 0x78, 0x69, 0x79, 0x6A, 0x7A, 0x6B, 0x7B] : List Nat).all (fun op =>
      decide (issues sGo 0 ⟨{}, op, .m 5 4 1 8⟩ ∧ dataTrap sGo 0 29 0x2008 (accessBytes op) = none)) = true := by decide

/-- R520, R521: bytes 0x80 and 0 … 0x7F at 0x2000; update forms write EA into the base. -/
theorem test_memory_forms :
    gIs (exec (.gLdb 0 {} 3 4 1 0) sGo) 3 (-128) = true ∧ gIs (exec (.gLdbu 0 {} 3 4 1 0) sGo) 3 0x80 = true ∧
    gIs (exec (.gLdd 0 {} 3 4 0 0) sGo) 3 0x7F00000000000080 = true ∧
    gIs (exec (.gLdwU 0 {} 3 4 1 4) sGo) 4 0x2004 = true ∧ gIs (exec (.gLdwU 0 {} 3 4 1 4) sGo) 3 0x7F000000 = true ∧
    ok (exec (.gStw 0 {} 5 4 1 8) sGo) (fun t => memRead (coreOf t 0).mem 0x2008 5 == [0xFF, 0xFF, 0xFF, 0xFF, 0]) = true ∧
    ok (exec (.gLdd 0 {} 3 4 1 4) sGo) (fun t => (coreOf t 0).cr 0x04 == 5 && (coreOf t 0).cr 0x05 == 0x2004) = true := by
  decide

/-- Tenant core 16 serves unit 88 of instance 1, whose local memory is 64 MiB; device DRAM is 1 MiB large. -/
def sRegions : State :=
  setLive { setUnit (setCore sGo 16 {}) 88 { role := 6, owner := 1 } with
    ten := { insts := [(1, { state := .ready, lmem64 := 1 })] } } Reg.DRC_CH_USABLE 31 0 1

/-- Where a byte of device DRAM lies rests on the opaque layout: for every layout one of the two clauses of region 4 applies. -/
theorem witness_CoreAccesses :
    0x7FFF8 + 8 ≤ 0x80000 ∧ regionOf sRegions 16 0x1000000000 = 2 ∧ regionOf sRegions 16 0x1003FFFFFF = 2 ∧
    regionOf sRegions 16 0x1004000000 = 0 ∧ regionOf sRegions 0 0x4000000000 = 4 ∧ regionOf sRegions 0 0x40000FFFFF = 4 ∧
    regionOf sRegions 0 0x4000100000 = 0 ∧ (coreOf sRegions 0).flit ≠ .altered ∧ (coreOf sRegions 16).flit ≠ .altered := by decide

theorem witness_GoleyCasCpxAndFence :
    issues sGo 0 ⟨{}, 0xE010, .g3 3 1 4⟩ ∧ dataTrap sGo 0 28 0x2000 8 = none ∧ dataTrap sGo 0 29 0x2000 8 = none ∧
    issues sGo 0 ⟨{}, 0xE011, .n⟩ ∧ issues sGo 0 ⟨{}, 0xE012, .m 4 6 1 8⟩ ∧ dataTrap sGo 0 29 8 8 = none := by decide

/-- R522: CAS leaves memory as it was when g3 does not hold the old value, and writes it back into g3. -/
theorem test_cas :
    gIs (exec (.gCas 0 {} 3 1 4) sGo) 3 0x7F00000000000080 = true ∧
    ok (exec (.gCas 0 {} 3 1 4) sGo) (fun t => memRead (coreOf t 0).mem 0x2000 1 == [0x80]) = true := by decide

theorem witness_GoleyChecksAndBranches :
    issues sGo 0 ⟨{}, 0x80, .g3 1 2 1⟩ ∧ issues sGo 0 ⟨{}, 0x81, .g3 1 2 1⟩ ∧ issues sGo 0 ⟨{}, 0x82, .k 1 1 5 5⟩ ∧
    issues sGo 0 ⟨{}, 0x90, .b 1 0 1 1 16⟩ ∧ issues sGo 0 ⟨{}, 0x91, .j 31 1 16⟩ ∧ issues sGo 0 ⟨{}, 0x92, .g2 31 4⟩ ∧
    (coreOf sGo 0).rep = none := by decide

/-- R524: CHKI passes 5 in 5 to 5, and traps with BOUNDS on 5 in 6 to 7. -/
theorem test_chki :
    ok (exec (.gChki 0 {} 1 1 5 5) sGo) (fun t => (coreOf t 0).pc == 0x104) = true ∧
    ok (exec (.gChki 0 {} 1 1 6 7) sGo) (fun t => (coreOf t 0).cr 0x04 == 4) = true := by decide

/-- R525, R526: the delay slot runs, then the branch is taken and the link is the address after the slot. -/
theorem test_delay_slot :
    ok (exec (.gJal 0 {} 31 1 0x40) sGo) (fun t => (coreOf t 0).pc == 0x103 &&
      ok (exec (.gNop 0 {}) t) (fun t => (coreOf t 0).pc == 0x140 && (coreOf t 0).g 31 == 0x104)) = true := by decide

theorem witness_RetirementStepsThePc :
    (1 ≠ 0 ∧ core0.delay = none) ∧ ({ core0 with delay := some ⟨0xFC, some 0x200, some 31⟩ } : Core).delay =
      some ⟨0xFC, some 0x200, some 31⟩ := by decide

theorem witness_TakingATrap :
    0 < 50 ∧ 0x16 < 256 ∧ ((coreOf sGo 0).cr 0x01).toNat.testBit 1 = false ∧
    firstRefused sGo 0 30 (((coreOf sGo 0).cr 0x02).toNat + 64 * 255) 1 = none := by decide

/-- The same core inside a handler. -/
def sTrap : State := setCore sGo 0 { core0 with ctrl := [(1, 2)] }

theorem witness_ATrapInAHandler :
    ((coreOf sTrap 0).cr 0x01).toNat.testBit 1 = true ∧
    ((coreOf (setCore sGo 0 { core0 with ctrl := [(2, 0x80000)] }) 0).cr 0x01).toNat.testBit 1 = false ∧
    (firstRefused (setCore sGo 0 { core0 with ctrl := [(2, 0x80000)] }) 0 30 (0x80000 + 64 * 6) 1).isSome = true := by decide

/-- R479: a trap in a handler faults the core, with the code in LAST_TRAP. -/
theorem test_trap_in_handler :
    ok (exec (.gDiv 0 {} 3 6 1 0) sTrap) (fun t => (coreOf t 0).state == .faulted &&
      live t Reg.GLY_CORE_STATUS 23 16 == 6) = true := by decide

theorem witness_GoleyControl :
    issues sGo 0 ⟨{}, 0x01, .n⟩ ∧ issues sGo 0 ⟨{}, 0x02, .n⟩ ∧ issues sGo 0 ⟨{}, 0x03, .n⟩ ∧ issues sTrap 0 ⟨{}, 0x04, .n⟩ ∧
    issues sGo 0 ⟨{}, 0x05, .n⟩ ∧ issues sGo 0 ⟨{}, 0x06, .c 3 0x0B⟩ ∧ crTrap sGo 0 0x0B false = none ∧
    issues sGo 0 ⟨{}, 0x07, .c 1 0x09⟩ ∧ crTrap sGo 0 0x09 true = none ∧
    (crWrite sGo 0 0x09 5).toOption.isSome = true := by decide

/-- A core with an input announced, its ring and emit queue as a program finds them. -/
def sQueue : State := setCore sGo 0 { core0 with inq := [0x77], slots := [(2, 9)], ctrl := [(0x20, 1)] }

theorem witness_CoreQueues :
    issues sQueue 0 ⟨{}, 0x06, .c 1 0x21⟩ ∧ issues sQueue 0 ⟨{}, 0x07, .c 1 0x22⟩ ∧ issues sQueue 0 ⟨{}, 0x07, .c 1 0x26⟩ ∧
    (coreOf sQueue 0).emitq.length < 8 ∧ issues sQueue 0 ⟨{}, 0x07, .c 4 0x2B⟩ ∧ poisoned sQueue 0 0x2000 64 = false := by
  decide

/-- Cores in the states from which R487's commands act. -/
def inState (c : Nat) (k : Core) : State := setCore State.reset c k

theorem witness_CoreStates :
    ((coreOf (inState 0 { state := .stopped }) 0).state = .stopped ∧ isTenantCore (inState 0 { state := .stopped }) 0 = false) ∧
    (let s := setUnit (inState 16 { state := .stopped }) 88 { role := 6, owner := 1 }
     (coreOf s 16).state = .stopped ∧ isTenantCore s 16 = true ∧ (unitOf s (coreUnit s 16)).role = 6) ∧
    (coreOf sGo 0).delay = none ∧ (coreOf State.reset 0).state = .scrubbing ∧
    (((coreOf (setCore sGo 0 { core0 with ctrl := [(0x0C, 1)] }) 0).cr 0x0C).toNat ≤
      timeUs { setCore sGo 0 { core0 with ctrl := [(0x0C, 1)] } with now := 1 }) ∧
    (let k := coreOf (setCore sGo 0 { core0 with ctrl := [(0x01, 1), (0x0E, 8)] }) 0
     (k.cr 0x01).toNat.testBit 0 = true ∧ k.ipend &&& ((k.cr 0x0E).toNat % 16) ≠ 0) ∧
    (let s := setEff (setUnit (setCore State.reset 16 { state := .running, idle := 3 }) 88 { role := 6, owner := 1 })
       (Reg.GLY_CORE_CFG + 0x40 * 16) 31 24 3
     isTenantCore s 16 = true ∧ eff s (coreRegs s Reg.GLY_CORE_CFG 16) 31 24 = 3 ∧ (coreOf s 16).idle = 3 ∧
       (coreOf s 16).inside = [] ∧ (coreOf s 16).slowed = false) ∧
    fetchTrap sGo 0 0x100 1 = none ∧ gDecode (fit 16 [0]) false = .trap 1 := by decide

/-- R491: STOP and then the scrub leave a core stopped with every register and byte 0. -/
theorem test_core_scrub :
    ok (exec (.coreScrubDone 0) (inState 0 { core0 with state := .scrubbing })) (fun t =>
      (coreOf t 0).state == .stopped && (coreOf t 0).gpr == [] && (coreOf t 0).mem == []) = true := by decide

/-- A packet for core 0 (unit 72) at step 1 of a line that goes on to unit 136; and a load, core 0 being last. -/
def sProg : State := at7 (setCore State.reset 0 { core0 with ctrl := [(0x20, 0x101)] })
  [⟨0, 172, 16, 0⟩, ⟨0, 72, 16, 0⟩, ⟨0, 136, 16, 0⟩] (tk [(0, 172), (1, 72), (2, 136)] 4096) 72 (.pkt (pk 72 1 [1, 2, 3]))

def sLoad : State := at7 (setCore State.reset 0 { core0 with state := .stopped }) [⟨0, 172, 16, 0⟩, ⟨0, 72, 16, 1⟩]
  { tk [(0, 172), (1, 72)] 4096 with t := { inst := 0, line := 5, len := 4096, dest := ⟨5, 72, 524285⟩ } } 72
  (.pkt (pk 72 1 [1, 2, 3]))

theorem witness_CoreStation :
    (let e := tk [(0, 172), (1, 72), (2, 136)] 4096
     inboxOf sProg 72 = .pkt (pk 72 1 [1, 2, 3]) :: [] ∧ entryOf sProg 7 = some e ∧ e.fenced = false ∧ e.revoking = false ∧
       (stepsOf sProg e)[1]? = some ⟨0, 72, 16, 0⟩ ∧ isCoreKind ⟨0, 72, 16, 0⟩ = true ∧
       coreIndex (setInbox sProg 72 []) 72 = 0 ∧ freeSlot (coreOf sProg 0) = some 0 ∧ (coreOf sProg 0).slowed = false) ∧
    (coreOf sLoad 0).state = .stopped ∧ (entryOf sLoad 7).all (fun e => isLast sLoad e 1) = true ∧
      524285 + 0 + 3 ≤ 524288 ∧ coreIndex (setInbox sLoad 72 []) 72 = 0 := by decide

/-- R482: the packet's bytes stand in slot 0 of the ring, and the front of the queue is taken. R483: a load. -/
theorem test_core_station :
    ok (exec (.program 72) sProg) (fun t => memRead (coreOf t 0).mem 0x1000 3 == [1, 2, 3] &&
      (coreOf t 0).slots == [(0, 7)] && (coreOf t 0).inq.length == 1 && inboxOf t 72 == []) = true ∧
    ok (exec (.load 72) sLoad) (fun t => memRead (coreOf t 0).mem 524284 4 == [0, 1, 2, 3]) = true := by decide

theorem witness_GoleyDecodeOfEncode :
    gDecodeTrap ⟨{}, 0x90, .b 1 5 2 1 (-2)⟩ false = none ∧ gFmt 0x90 = some .b ∧ gImmFits 1 (-2) = true ∧
    gDecodeTrap ⟨{ w32 := true }, 0x82, .k 1 3 (-0x80000000) 0x7FFFFFFF⟩ false = none ∧
    gDecode (gEncode ⟨{}, 0x90, .b 1 5 2 1 (-2)⟩) false = .ok ⟨{}, 0x90, .b 1 5 2 1 (-2)⟩ 4 := by decide

/-- Words of R501 to R507 beside those of O18: an operand at each end of its field, and a reserved opcode byte. -/
theorem test_goley_words :
    gDecode [0x11, 31, 0, 31] false = .ok ⟨{}, 0x11, .g3 31 0 31⟩ 4 ∧
    gDecode [0x6B, 1, 0x02] false = .ok ⟨{}, 0x6B, .m 1 2 0 0⟩ 3 ∧
    gDecode [0x10, 32, 1, 2] false = .trap 0x01 := by decide

/-! ## Registers, the trunk and the loader -/

/-- `a` names a plain register whose row and indexes satisfy `p`. -/
def regIs (s : State) (a : Nat) (p : RegRow → Nat → Nat → Bool) : Bool :=
  match findReg a with
  | some (r, i, j) => decide (plainReg s a r i j) && p r i j
  | none => false

theorem witness_RegisterWrite :
    regIs sReady 0x400024 (fun r _ _ => r.fields.all (fun f => decide (f.acc = .rws ∨ f.acc = .ro ∨ f.acc = .rc))) = true ∧
    regIs sReady 0x300034 (fun r _ _ => r.fields.all (fun f => decide (f.acc = .w1c ∨ f.acc = .ro ∨ f.acc = .rc))) = true ∧
    regIs sReady 0x100030 (fun r _ _ => r.fields.all (fun f => decide (f.acc = .w1c ∨ f.acc = .ro ∨ f.acc = .rc))) = true ∧
    pageInst 0x100030 = none ∧ coversPair 0x100010 = true ∧ mmioTravels sReady (pageInst 0x100010) none = true ∧
    (let a := Reg.VFP_KEY_RESULT + pageOf 1
     pageInst a = some 1 ∧ mmioTravels { sReady with tru := { tdi := [(1, .run)], tdiStream := [(1, 2)] } } (pageInst a) none = false) := by
  decide

/-- R9: a write stages an RWS field, and the effective value stays; CFG_RESULT.VALID is cleared by a 1. -/
theorem test_register_write :
    ok (exec (.registerWrite ⟨0x301004, none⟩ 4 0x1234) sReady) (fun t =>
      stagedWord t 0x301004 == 0x1234 && effWord t 0x301004 == 0) = true ∧
    ok (exec (.registerWrite ⟨0x100030, none⟩ 4 0x100) (setLive sReady 0x100030 8 0 0x105)) (fun t =>
      live t 0x100030 8 8 == 0 && live t 0x100030 7 0 == 5) = true := by decide

theorem witness_Reads :
    regIs sReady 0x300010 (fun r _ _ => isLo 0x300010 && (findReg 0x300014).isSome && r.base != Reg.EVR_OLDEST_SEQ_LO &&
      r.fields.all (fun f => decide (f.acc = .ro ∨ f.acc = .rws))) = true ∧
    regAnswers sReady (Reg.DEV_UNIT_ROLE + 8 * 217) = true ∧ regAnswers sReady (Reg.KEY_SLOT_STATUS + 0x10 * 4095) = true ∧
    regIs sReady 0x300034 (fun r _ j => j == 0 && pageInst 0x300034 == none && !isLo 0x300034 &&
      r.fields.all (fun f => decide (f.acc = .rc ∨ f.acc = .ro)) && r.base != Reg.PWR_CLASS_MJ) = true := by decide

/-- R7: the read of _LO holds _HI. R9: a read clears SBX_EVENTS. -/
theorem test_reads :
    ok (exec (.readLoLatch ⟨0x300010, none⟩) { sReady with sbx := { epochs := 0x500000007 } }) (fun t =>
      t.regs.readData == 7 && shownAt { t with sbx := {} } 0x300014 == 5) = true ∧
    ok (exec (.readClear ⟨0x300034, none⟩) (bump sReady 0x300034 15 0 3)) (fun t =>
      t.regs.readData == 3 && live t 0x300034 15 0 == 0) = true := by decide

/-- The SHARE group with one staged value, committed and not committed. -/
def sStaged : State := { sReady with regs := { staged := [(0x301000, 0x800), (0x600014, 0)] } }

theorem witness_Commit :
    commitReg sReady 0x30000C ∧ mmioTravels sReady (pageInst 0x30000C) none = true ∧ (0x19 : Nat).testBit 1 = false ∧ (0x02 : Nat).testBit 0 = false ∧
    (let s := setGroup sReady 0x30000C { pending := some [(0x301000, 0x800)], due := true }
     (groupAt s 0x30000C).pending = some [(0x301000, 0x800)] ∧ atSafePoint s 0x30000C = true ∧
       setRefused s 0x30000C [(0x301000, 0x800)] = true) ∧
    (let s := setUnit (setGroup sReady 0x100024 { pending := some [] }) 191 { state := .test }
     (groupAt s 0x100024).pending = some [] ∧ atSafePoint s 0x100024 = false) ∧
    (let s := setGroup sReady 0x600014 { pending := some [(0x600004, 0)], due := true }
     atSafePoint s 0x600014 = true ∧ setRefused s 0x600014 [(0x600004, 0)] = false ∧ (Tab.keys [(0x600004, 0)]).Nodup) := by
  decide

/-- R13, R16: GO makes the staged set pending; a SHARE of instance 0 below 4096 is refused at the safe point. -/
theorem test_commit :
    ok (exec (.commitGo ⟨0x30000C, none⟩ 1) sStaged) (fun t => ((groupAt t 0x30000C).pending.map (inSet · 0x301000)) == some 0x800 &&
      !atSafePoint t 0x30000C &&
      ok (exec (.commitTakesEffect 0x30000C) (setGroup t 0x30000C { groupAt t 0x30000C with due := true })) (fun t =>
        (groupAt t 0x30000C).rejected && effWord t 0x301000 == 0x10000)) =
      true := by decide

/-- Ticket 7 on line 5 with the packets `l` on the trunk. -/
def onTrunk (steps : List LStep) (e : Entry) (l : List Packet) : State := {
  sReady with
    cfg := { lines := [(5, { steps := steps })] }
    sbx := { store := [(7, e)] }
    dev := { trunk := l } }

/-- Host port 172 to compression engine 120, then staging buffer 186. -/
def line3 : List LStep := [⟨0, 172, 16, 0⟩, ⟨0, 120, 16, 0⟩, ⟨0, 186, 16, 0⟩]

def e3 : Entry := tk [(0, 172), (1, 120), (2, 186)] 4096

/-- A packet from 172 to 120, and the two tokens that can follow it. -/
def pk3 : Packet := { pk 120 1 [1, 2, 3] with src := 172 }

/-- The packet before an engine whose domain a thermal shutdown holds OFF, as it holds the quadrant of router (1, 6). -/
def sBarred : State := { onTrunk line3 e3 [pk3] with pwr := {
  thermHold := true, islands := [(islandOf 120, { dom := .off }), (0xE2, { dom := .off })] } }

theorem witness_Trunk :
    oldest State.reset 172 120 0 0 = none ∧
    (let s := onTrunk line3 e3 [pk3]
     oldest s 172 120 0 0 = some pk3 ∧ pk3.endTok = false ∧ pk3.revoke = false ∧ (unitOf s 120).gen = pk3.destGen ∧
       entryOf s pk3.tag = some e3 ∧ e3.fenced = false ∧ e3.revoking = false ∧ pk3.flits ≤ 128 ∧ pk3.poison = false ∧
       s.tst.injections = [] ∧ kindOf 120 ≠ 0x02 ∧ kindOf 120 ≠ 0x03 ∧ kindOf 120 ≠ 0x13 ∧ pathBarred s pk3 = false ∧
       canTake (wakePath s pk3) pk3 = true ∧ isLast s e3 1 = false ∧ s.sbx.siding = []) ∧
    (let s := setUnit (onTrunk line3 e3 [pk3]) 120 { gen := 1 }
     oldest s 172 120 0 0 = some pk3 ∧ (unitOf s 120).gen ≠ pk3.destGen ∧ pathBarred s pk3 = false) ∧
    (oldest sBarred 172 120 0 0 = some pk3 ∧ pathBarred sBarred pk3 = true) := by decide +kernel

/-- R222: a domain held OFF lets no packet in. R32: a packet with another DEST_GEN goes to the siding, and its ticket ends with ROLE_STALE. R41: 129 flits fail. -/
theorem test_packet_arrive :
    ok (exec (.packetArrive 172 120 0 0) (onTrunk line3 e3 [pk3])) (fun t => inboxOf t 120 == [.pkt pk3]) = true ∧
    ok (exec (.packetArrive 172 120 0 0) (setUnit (onTrunk line3 e3 [pk3]) 120 { gen := 1 })) (fun t =>
      t.sbx.siding.map (·.status) == [0x0B] && (entryOf t 7).map (·.fail) == some (some (0x0B, 120))) = true ∧
    ok (exec (.packetArrive 172 120 0 0) (onTrunk line3 e3 [{ pk3 with flits := 129 }])) (fun t =>
      (entryOf t 7).map (·.fail) == some (some (0x10, 120))) = true ∧
    ok (exec (.packetArrive 172 120 0 0) sBarred) (· == sBarred) = true := by decide +kernel

theorem witness_Routers : oldest (onTrunk line3 e3 [pk3]) 172 120 0 0 = some pk3 ∧
    (onTrunk line3 e3 [pk3]).tst.injections = [] ∧
    onRoute (onTrunk line3 e3 [pk3]) pk3 (1, 6) = true ∧ onRoute (onTrunk line3 e3 [pk3]) pk3 (3, 3) = false ∧
    wakeBarred (onTrunk line3 e3 [pk3]) (0xE0 + quadOf 1 6) = false ∧ wakeBarred sBarred (0xE0 + quadOf 1 6) = true ∧
    oldest sBarred 172 120 0 0 = some pk3 := by decide +kernel

/-- R44: two symbols in error at each of four arrivals poison the flit. -/
theorem test_flit_arrive :
    ok (exec (.flitArrive 172 120 0 0 1 6 0 1 0 [2, 2, 2, 2]) (onTrunk line3 e3 [pk3])) (fun t =>
      t.dev.trunk == [{ pk3 with poison := true }]) = true ∧
    ok (exec (.flitArrive 172 120 0 0 3 3 0 1 0 [2, 2, 2, 2]) (onTrunk line3 e3 [pk3])) (· == onTrunk line3 e3 [pk3]) = true ∧
    ok (exec (.flitArrive 172 120 0 0 1 6 0 1 0 [2, 0]) (onTrunk line3 e3 [pk3])) (fun t => t.dev.trunk == [pk3]) = true := by
  decide

/-- Unit 120 with two increments in the last millisecond, and with one. -/
def sHeld (incs : List Nat) : State :=
  setUnit { sReady with now := 5 } 120 { state := .active, incs := incs, held := [{ state := some .test }] }

theorem witness_HeldEvents :
    (unitOf sReady 120).held = [] ∧ (recentIncs sReady (unitOf sReady 120)).length < 2 ∧
    ({ state := some .test } : UnitChange).isEvent (unitOf (sHeld [3, 2]) 120) = true ∧
    2 ≤ (recentIncs (sHeld [3, 2]) (unitOf (sHeld [3, 2]) 120)).length ∧
    (unitOf (sHeld [3, 2]) 120).held = { state := some .test } :: [] ∧
    (recentIncs (sHeld [3]) (unitOf (sHeld [3]) 120)).length < 2 ∧ inService (sHeld [3]) 120 = true := by decide

/-- R31: the held change waits while two increments lie within 1 ms, and counts GEN when it takes effect. -/
theorem test_held_event :
    ok (exec (.genHeldEventApply 120) (sHeld [3, 2])) (fun t => (unitOf t 120).state == .active) = true ∧
    ok (exec (.genHeldEventApply 120) (sHeld [3])) (fun t => (unitOf t 120).state == .test && (unitOf t 120).gen == 1) = true := by
  decide

theorem witness_Tokens :
    (let p := { pk3 with data := [], flits := 0, endTok := true, off := 3 }
     let s := { onTrunk line3 e3 [p] with stn := { inbox := [(120, [.pkt pk3])] } }
     kindOf 120 ≠ 0x02 ∧ kindOf 120 ≠ 0x03 ∧ kindOf 120 ≠ 0x13 ∧ (unitOf s 120).gen = p.destGen ∧ entryOf s 7 = some e3 ∧
       arriving s (fun q => q.src == 172 && q.dest == 120 && q.tag == 7 && q.endTok) = some p ∧ e3.fenced = false ∧
       e3.revoking = false ∧ p.dest = 120 ∧ p.tag = 7 ∧ p.poison = false ∧ pathBarred s p = false ∧ inboxOf s 120 ≠ []) ∧
    (let p := { pk3 with data := [], flits := 0, revoke := true }
     let s := onTrunk line3 e3 [p]
     arriving s (fun q => q.src == 172 && q.dest == 120 && q.tag == 7 && q.revoke) = some p ∧ kindOf 120 ≠ 0x04 ∧
       kindOf 120 ≠ 0x05 ∧ isLast s e3 p.step = false ∧ pathBarred s p = false) := by decide

/-- R173: a revoke token goes on to the next station. -/
theorem test_revoke_token :
    ok (exec (.revokeTokenArrive 172 120 7) (onTrunk line3 e3 [{ pk3 with data := [], flits := 0, revoke := true }]))
      (fun t => t.dev.trunk.map (fun q => (q.dest, q.revoke)) == [(186, true)]) = true := by decide

/-- The loader in a state, with a request of instance 0 for fen 32. -/
def req0 : LoadReq := { inst := 0, kind := 2, target := 32, gen := 0, offered := 12288 }

def sLoader (st : LState) : State := { sReady with cfg := { state := st, cur := some req0 }, drc := { chans := [(0, { state := .ready })] } }

/-- A fixed header whose TOTAL_LENGTH is `n`. -/
def headOf (n : Nat) : Bytes := zeros 8 ++ natLe 8 n ++ zeros 240

theorem witness_Loader :
    (let s := setGroup (setEff { sLoader .idle with cfg := {} } Reg.CFG_LOAD_TARGET 1 0 1) 0x100024 { pending := some [
        (Reg.CFG_LOAD_TARGET, 1), (Reg.CFG_LOAD_LEN, 0x20000)] }
     (groupAt s 0x100024).pending = some [(Reg.CFG_LOAD_TARGET, 1), (Reg.CFG_LOAD_LEN, 0x20000)] ∧
       atSafePoint s 0x100024 = true ∧ setRefused s 0x100024 [(Reg.CFG_LOAD_TARGET, 1), (Reg.CFG_LOAD_LEN, 0x20000)] = false ∧
       dramLive s ≠ []) ∧
    (let s := { sLoader .idle with cfg := { queue := [req0] } }
     s.cfg.queue = req0 :: [] ∧ s.cfg.state = .idle ∧ dramLive s ≠ []) ∧
    loaderAt (sLoader .fetchHead) .fetchHead req0 ∧ (sLoader .fetchHead).cfg.keyUse = none ∧
      hTotal (fit 256 (headOf 12288)) = req0.offered ∧ req0.offered < hTotal (fit 256 (headOf 12289)) ∧
      hTotal (fit 256 (headOf 12287)) < req0.offered ∧
    loaderAt (sLoader .authenticate) .authenticate req0 ∧ headerOk (zeros 256) = false ∧
    loaderAt (sLoader .fetchBlocks) .fetchBlocks req0 ∧ hEnc (zeros 256) = false := by decide

/-- R77: TOTAL_LENGTH above the bytes offered is SHORT, below them FORMAT. -/
theorem test_loader_header :
    ok (exec (.loaderHeaderArrived (headOf 12289) false) (sLoader .fetchHead)) (fun t => live t Reg.CFG_RESULT 8 0 == 0x101) = true ∧
    ok (exec (.loaderHeaderArrived (headOf 12287) false) (sLoader .fetchHead)) (fun t => live t Reg.CFG_RESULT 8 0 == 0x110) = true ∧
    ok (exec (.loaderHeaderArrived (headOf 12288) false) (sLoader .fetchHead)) (fun t => t.cfg.state == .authenticate) = true := by
  decide

/-- The head of a fen image of two blocks for a small fen, unsigned: the layout of R55 to R58 written out. -/
def fenHead : Bytes :=
  [0x48, 0x52, 0x41, 0x59, 1, 0, 2, 0] ++ natLe 8 143360 ++ natLe 8 1 ++ [0x32, 0x96, 0xB0, 2] ++ natLe 2 2 ++ natLe 2 1 ++
    natLe 4 2 ++ natLe 4 12288 ++ zeros 216 ++
    (natLe 2 0x101 ++ zeros 2 ++ natLe 4 0 ++ natLe 4 1 ++ zeros 4 ++ natLe 8 192 ++ zeros 8) ++
    (natLe 2 0x102 ++ zeros 2 ++ natLe 4 1 ++ natLe 4 1 ++ zeros 4 ++ natLe 8 64 ++ zeros 8) ++
    (natLe 2 0 ++ zeros 2 ++ natLe 4 192 ++ zeros 72) ++ (natLe 2 1 ++ zeros 2 ++ natLe 4 64 ++ zeros 72)

/-- R57, R58, R63: its sections and blocks pass, and one block less in BLOCK_COUNT does not. -/
theorem test_container_chain :
    typesOk fenHead = true ∧ chainOk fenHead = true ∧ hOffset fenHead = ceilDiv (sigAt fenHead + 8192) 4096 * 4096 ∧
    chainOk (fenHead.set 32 1) = false ∧ validLen fenHead 0 = 192 := by decide

/-- What a block's clauses of O26 ask beside the comparison of hashes: a first block, its padding zero. -/
theorem witness_Loader_blocks :
    (let s := { sLoader .fetchBlocks with cfg := { state := .fetchBlocks, cur := some req0, head := fenHead } }
     loaderAt s .fetchBlocks req0 ∧ hEnc s.cfg.head = false ∧ s.cfg.blocks.length + 1 < hBlocks s.cfg.head ∧
       s.cfg.keyUse = none ∧ hKind s.cfg.head ≠ 1) := by decide

/-! ## Fens, tickets and the signal box -/

/-- Fen 32 in a state, with a small image, its unit DEVICE_FEN. -/
def img0 : FImage := { fmax := 400, power := 100, ports := [⟨1, 1, true⟩, ⟨5, 4, false⟩] }

def fen0 (st : FState) : Fen := { state := st, image := some img0, inside := [{ tag := 7, step := 1, port := 1 }] }

def sFen (st : FState) : State := inRole { sReady with fab := { fens := [(0, fen0 st)] } } 32 3 0

/-- The loader at APPLY or another state, with fen 32 in a state. -/
def sApply (l : LState) (g : ApplyStage) (x : Fen) : State := {
  sFen .running with
    cfg := { state := l, stage := g, cur := some req0, head := zeros 27 ++ [2] }, fab := { fens := [(0, x)] } }

theorem witness_FenImages :
    loaderAt (sApply .screen .none {}) .screen req0 ∧ screen 2 [] [] [] [] = [] ∧
    (let s := sApply .apply .none (fen0 .running)
     loaderAt s .apply req0 ∧ s.cfg.stage = .none ∧ (unitOf s 32).gen = req0.gen ∧ (unitOf s 32).role = 3 ∧
       (fenOf s 0).state = .running ∧ s.cfg.keyUse = none) ∧
    (fenOf (sApply .apply .none {}) 0).state = .empty ∧
    (let s := setUnit (sApply .apply .none {}) 32 { gen := 1 }
     loaderAt s .apply req0 ∧ (unitOf s 32).gen ≠ req0.gen) ∧
    (let s := sApply .apply .draining { fen0 .draining with inside := [] }
     loaderAt s .apply req0 ∧ (fenOf s 0).state = .draining ∧ (fenOf s 0).inside = [] ∧ (unitOf s 32).state = .active ∧
       (unitOf s 32).held = [] ∧ (recentIncs s (unitOf s 32)).length < 2) := by decide

theorem witness_FenImages_end :
    (let s := sApply .apply .loading { state := .loading }
     loaderAt s .apply req0 ∧ s.cfg.keyUse = none ∧ s.cfg.stage = .loading ∧ s.cfg.resetMet = false ∧
       (fenOf s 0).state = .loading) ∧
    (let s := { sApply .fetchBlocks .none {} with
       cfg := { state := .fetchBlocks, cur := some req0, keyUse := some 3 }, key := { slots := [(3, { state := .pending })] } }
     loaderAt s .fetchBlocks req0 ∧ s.cfg.keyUse = some 3 ∧ (slotOf s 3).state = .pending) ∧
    loaderAt (sApply .store .none {}) .store req0 := by decide

/-- R82: a RUNNING target drains, 1 ms later its ticket has failed, and safe point A counts GEN; R83: safe point B. -/
theorem test_fen_apply :
    ok (exec .fenApplyStart (sApply .apply .none (fen0 .running))) (fun t => (fenOf t 0).state == .draining &&
      ok (exec .fenDrainTimeout t) (fun t => (fenOf t 0).inside == [] &&
        ok (exec .fenSafePointA t) (fun t => (fenOf t 0).state == .loading && (unitOf t 32).gen == 1 &&
          (unitOf t 32).state == .idle))) = true ∧
    ok (exec .fenSafePointB (sApply .apply .loading { state := .loading })) (fun t => (fenOf t 0).state == .running &&
      (unitOf t 32).gen == 1 && (unitOf t 32).state == .active && t.cfg.state == .idle) = true := by decide

/-- Ticket 7 inside fen 32 on a line from host port 172 over fen 32 to engine 120. -/
def sPort : State := { sFen .running with
  cfg := { lines := [(5, { steps := [⟨0, 172, 16, 0⟩, ⟨0, 32, 16, 0⟩, ⟨0, 120, 16, 0⟩] })] }
  sbx := { store := [(7, tk [(0, 172), (1, 32), (2, 120)] 4096)] } }

theorem witness_FenPorts :
    (let e := tk [(0, 172), (1, 32), (2, 120)] 4096
     fenClocked (fenOf sPort 0) = true ∧ fenTicket (fenOf sPort 0) 1 7 = some { tag := 7, step := 1, port := 1 } ∧
       entryOf sPort 7 = some e ∧ e.fenced = false ∧ e.revoking = false ∧ unitAt sPort e 2 0 = some 120 ∧
       fenTicket (fenOf sPort 0) 2 7 = none ∧ isLast sPort e 1 = false ∧ winPath sPort 0 none = true ∧
       winAnswers (fenOf sPort 0) = true ∧ winPath sPort 0 (some 1) = false ∧ mmioTravels sPort none none = true ∧
       mmioTravels sPort (some 1) none = true ∧ (fenOf sPort 0).image = some img0 ∧
       5 * img0.power < 4 * 126) ∧
    (fenOf (sFen .fencing) 0).state = .fencing ∧ (fenOf (sFen .scrubbing) 0).state = .scrubbing ∧
    (let s := { inRole (sFen .held) 32 5 1 with ten := { insts := [(1, { state := .ready })] } }
     instState s 1 = .ready ∧ (unitOf s 32).owner = 1 ∧ (fenOf s 0).state = .held) := by decide

/-- R109: a beat goes to the next station; one of another port is counted. R111: window C. R128: at 126 mW of 100. -/
theorem test_fen_ports :
    ok (exec (.fenOutputBeat 0 1 7 0 [9]) sPort) (fun t => t.dev.trunk.map (fun q => (q.dest, q.data)) == [(120, [9])]) = true ∧
    ok (exec (.fenOutputBeat 0 2 7 0 [9]) sPort) (fun t => t.dev.trunk == [] && live t Reg.FAB_FEN_PORTERR 15 0 == 1) = true ∧
    ok (exec (.fenCtlwinAccess 0 ⟨3, none⟩ none none 0x55) sPort) (fun t => t.regs.readData == 0x55) = true ∧
    ok (exec (.fenCtlwinAccess 0 ⟨3, none⟩ (some 1) none 0x55) sPort) (fun t => t.regs.readData == 0) = true ∧
    ok (exec (.fenOverpower 0 126) sPort) (fun t => (fenOf t 0).overpower == false) = true ∧
    ok (exec (.fenOverpower 0 125) (setFen sPort 0 { fenOf sPort 0 with hot := 3 })) (fun t => (fenOf t 0).overpower == false) = true ∧
    ok (exec (.fenOverpower 0 126) (setFen sPort 0 { fenOf sPort 0 with hot := 3 })) (fun t => (fenOf t 0).overpower == true) = true ∧
    ok (exec (.fenScrubDone 0) (sFen .scrubbing)) (fun t => (fenOf t 0).state == .empty) = true := by decide

/-- A line of two steps, host port 172 and digest engine 144 (SINK), open to instance 0, and a ticket of `n` bytes. -/
def sLine (n : Nat) : State × Bytes :=
  (inRole (inRole { sReady with
    cfg := { lines := [(5, { cls := 3, steps := [⟨0, 172, 16, 0⟩, ⟨0, 144, 16, 1⟩] })] } } 172 1 0) 144 1 0,
   natLe 2 0 ++ natLe 2 5 ++ natLe 4 n ++ [0xFF, 0xFF, 0, 0] ++ zeros 12 ++ ([1] ++ zeros 15) ++ zeros 24)

/-- A ticket of the map engine's form, of no bytes. -/
def engineTicket : Bytes := natLe 2 0 ++ natLe 2 4095 ++ natLe 4 0 ++ [0xFF, 0xFF] ++ zeros 54

theorem witness_Tickets :
    (let s := (sLine 0).1
     engineForm (fit 64 engineTicket) = true ∧ engineOffers s (parseTicket (fit 64 engineTicket)).line = true ∧ entryFree s 0 = some 0 ∧
       acceptance s (fit 64 engineTicket) (mayActFor s .device 0) = some 0x10 ∧
       (engineForm (fit 64 (sLine 0).2) && engineOffers s 5) = false) ∧
    (let s := (sLine 4096).1
     let bs := (sLine 4096).2
     entryFree s 0 = some 0 ∧ instState s 0 = .ready ∧ acceptance s (fit 64 bs) (mayActFor s (.core 72) 0) = none ∧
       acceptance s (fit 64 bs) (mayActFor s .device 0) = none ∧ (parseTicket (fit 64 bs)).inst = 0) ∧
    (sLine 0).1.sbx.flushMode = false ∧
    writesHeld (sLine 0).1 = false ∧
    entryFree { sReady with regs := { eff := [(Reg.SBX_TICKET_LIMIT + 4, 0)] } } 1 = none := by decide

/-- R148: an accepted ticket waits under tag 0; one of no bytes completes with FORMAT. -/
theorem test_ticket_submit :
    ok (exec (.ticketSubmit 72 (sLine 4096).2) (sLine 4096).1) (fun t => (entryOf t 0).map (·.waiting) == some true) = true ∧
    ok (exec (.ticketSubmit 189 (sLine 0).2) (sLine 0).1) (· == (sLine 0).1) = true ∧
    ok (exec (.ticketSubmit 189 engineTicket) (sLine 0).1) (fun t => entryOf t 0 == none &&
      t.sbx.posted.map (fun x => (x.tag, x.status, x.unit)) == [(0, 0x10, 0xFF)]) = true := by decide

/-- That ticket in the store under tag 7, with an allowance. -/
def sAdmit (left : Int) : State := { (sLine 4096).1 with
  sbx := { store := [(7, { t := { inst := 0, line := 5, len := 4096, source := ⟨1, 0, 0⟩ }, sub := .device })], gates := 0xFFFE, allowance := 100000,
           remaining := left, credit := [(0, 100000)] } }

theorem witness_Portions :
    (let s := sAdmit 100000
     let e0 : Entry := { t := { inst := 0, line := 5, len := 4096, source := ⟨1, 0, 0⟩ }, sub := .device }
     let e := { e0 with units := [(0, 172), (1, 144)] }
     s.sbx.flushMode = false ∧ entryOf s 7 = some e0 ∧ e0.waiting = true ∧ 0 < e0.t.len ∧
       resolve s e0 0 = some e ∧ budgetHolds s e ((estimate s e 0).map (·.2)).sum 0 = false ∧ firstRoom s e 0 = true ∧
       orderHolds s e = false ∧ s.sbx.stagingRoom + stagingNeed s e ≤ stagingBytes s ∧ testHolds s e (reached s e 0) = false ∧
       (∀ u ∈ reached s e 0, fenBusy s u = false) ∧ (∀ u ∈ reached s e 0, serves s u e.t.inst = true) ∧ e.captured = [] ∧
       logicalCheck s e.t 0 = none ∧ e.refs = [] ∧ (stepsOf s e).head? = some ⟨0, 172, 16, 0⟩ ∧
       budgetHolds (sAdmit 0) e ((estimate (sAdmit 0) e 0).map (·.2)).sum 0 = true ∧
       resolve (sAdmit 0) e0 0 = some e) := by decide

/-- R162, R164: the portion is admitted and its estimate taken from the budget; with no budget it has been passed. -/
theorem test_portion_consider :
    ok (exec (.portionConsider 7) (sAdmit 100000)) (fun t => (entryOf t 7).map (·.admitted) == some 1 &&
      inboxOf t 172 == [.start 7 0 0 4096] && t.sbx.remaining < 100000) = true ∧
    ok (exec (.portionConsider 7) (sAdmit 0)) (fun t => (entryOf t 7).map (fun e => (e.admitted, e.passed)) ==
      some (0, true)) = true := by decide

theorem witness_Epochs :
    sReady.sbx.store = [] ∧ 511 < 512 ∧ eff sReady Reg.SBX_SHARE 16 0 ≠ 0 ∧
    (let e : Entry := { t := { inst := 0, line := 5, len := 4096, deadline := 3 }, sub := .device, budget := 3 }
     let s := { sReady with sbx := { store := [(7, e)] } }
     entryOf s 7 = some e ∧ e.waiting = true ∧ e.admitted = 0 ∧ e.t.deadline ≠ 0 ∧ e.t.deadline ≤ e.budget ∧
       s.sbx.flushMode = false ∧ e.fail = none ∧ e.instReset = false ∧ e.keyRevoked = false) := by decide

/-- R168: three budget epochs of three have passed. R190: POP of the device takes the oldest entry. -/
theorem test_deadline_and_pop :
    (let e : Entry := { t := { inst := 0, line := 5, len := 4096, deadline := 3 }, sub := .device, budget := 3 }
     ok (exec (.deadlineExpire 7) { sReady with sbx := { store := [(7, e)] } }) (fun t =>
       t.sbx.posted.map (·.status) == [0x0D]) = true) ∧
    (let x : Siding := { inst := 1, disp := 1, status := 0x0B, unit := 0, src := 0, tag := 1, destGen := 0 }
     let y : Siding := { x with inst := 2 }
     ok (exec (.sidingPop 2) { sReady with sbx := { siding := [x, y] } }) (fun t => t.sbx.siding == [x]) = true ∧
     ok (exec (.sidingPop 0) { sReady with sbx := { siding := [x, y] } }) (fun t => t.sbx.siding == [y]) = true) := by decide

/-! ## Power and heat -/

/-- A peat bank of 27.0 V at most, in a state. -/
def sPeat (st : PeatState) : State :=
  { sReady with pwr := { peat := st, ceilQj := 250, vmaxDv := 270, cmaxMf := 100, cMeas := 80000, vMv := 26000 } }

theorem witness_Peat :
    (sPeat .ramp).pwr.peat = .ramp ∧ vTarget (sPeat .charging).pwr ≤ 27000 ∧ 0 < (sPeat .ready).pwr.vmaxDv ∧
    270 * 100 * 105 < 28351 * 100 ∧ 28350 * 100 ≤ 270 * 100 * 105 ∧ vTarget (sPeat .ready).pwr * 102 < 28350 * 100 ∧
    0 < vfloorMv (sPeat .charging) ∧ reserveMj (sPeat .ready) * 100 ≤ usableAt (sPeat .ready) 26000 * 92 ∧
    usableAt (sPeat .ready) 5000 * 92 < reserveMj (sPeat .ready) * 100 := by decide +kernel

/-- R206, R209, R210: overvoltage above 105 % of VMAX is a FAULT; a measurement of 1 C over 10 V is 100 mF. -/
theorem test_peat :
    ok (exec (.peatOvervoltage 28351) (sPeat .ready)) (fun t => t.pwr.peat == .fault) = true ∧
    ok (exec (.peatOvervoltage 28350) (sPeat .ready)) (fun t => t.pwr.peat == .ready && !t.pwr.chgEn) = true ∧
    ok (exec .measurementDue (sPeat .ready)) (fun t => t.pwr.peat == .measuring && t.pwr.disEn &&
      ok (exec (.measurementDone 1000000 10000) t) (fun t => t.pwr.cMeas == 100000 && t.pwr.peat == .charging)) = true ∧
    ok (exec (.baseMwUpdate 0 0) sReady) (fun t => t.pwr.baseMw == 2000) = true := by decide +kernel

/-- Islands 0 and 1 in domain group 3. -/
def sIslands (d : DomState) (i : Nat) : State := { sReady with
  pwr := { islands := [(0, { dom := d, group := 3, idleLimit := 5, gateMs := 2, idle := i, planMhz := 900 }),
    (1, { dom := d, group := 3, idleLimit := 5, gateMs := 2, idle := i, planMhz := 900 })] } }

/-- A power loss at a step of its flush. -/
def sLoss (n : Nat) : State :=
  { sReady with pwr := { peat := .holdup, powerLoss := true, flushStep := n, islands := [(0, {}), (120, {}), (0xE8, {})] } }

theorem witness_Domains :
    (1 ∈ groupIslands (sIslands .on 5) 3 ∧ ∀ j ∈ groupIslands (sIslands .on 5) 3, (islandAt (sIslands .on 5) j).dom = .on ∧
      (islandAt (sIslands .on 5) j).idleLimit ≠ 0 ∧ (islandAt (sIslands .on 5) j).idleLimit ≤ (islandAt (sIslands .on 5) j).idle) ∧
    (∀ j ∈ groupIslands (sIslands .ret 5) 3, (islandAt (sIslands .ret 5) j).dom = .ret ∧
      (islandAt (sIslands .ret 5) j).gateMs ≠ 0 ∧ ∀ v ∈ islandUnits j, (unitOf (sIslands .ret 5) v).state = .idle ∨
        (unitOf (sIslands .ret 5) v).state = .absent ∨ (unitOf (sIslands .ret 5) v).state = .offline) ∧
    (islandOf (hwUnit (sIslands .off 0) 1) = 1 ∧ (islandAt (sIslands .off 0) 1).dom ≠ .on ∧ 1 ∈ groupIslands (sIslands .off 0) 3 ∧
      wakeBarred (sIslands .off 0) 1 = false ∧ searchIslands.contains 1 = false) ∧
    wakeBarred (sLoss 8) (islandOf (hwUnit (sLoss 8) 1)) = true ∧
    (isIslandKey 1 = true ∧ (islandAt (sIslands .on 0) 1).minPoint ≤ 4 ∧ 1200 ≤ pointMhz 1 4) ∧
    (∀ r ∈ (List.replicate 16 129 : List Int), r < 130) ∧
    (∀ n < 16, (List.replicate 16 119 : List Int).getD n 0 + (sReady.pwr.offsets.getD n 0 : Nat) < 120) ∧
    (∃ n < 16, 120 ≤ (List.replicate 16 129 : List Int).getD n 0 + (sReady.pwr.offsets.getD n 0 : Nat)) ∧
    (∃ r ∈ ([130] : List Int), 130 ≤ r) := by decide +kernel

/-- R221, R222: 105 + 3 °C is stage 1, + 6 stage 2; 120 °C shuts down, 130 °C trips. -/
theorem test_heat :
    ok (exec (.sensorSample (List.replicate 16 108)) sReady) (fun t => t.pwr.thermStage == 1) = true ∧
    ok (exec (.sensorSample (List.replicate 16 111)) sReady) (fun t => t.pwr.thermStage == 2) = true ∧
    ok (exec (.sensorSample (List.replicate 16 120)) sReady) (fun t => t.pwr.thermHold && t.pwr.powerLoss) = true ∧
    ok (exec (.sensorSample (List.replicate 16 130)) sReady) (fun t => t.pwr.thermTrip && t.boot.off) = true ∧
    ok (exec (.operatingPointChange 1 4 1201) (sIslands .on 0)) (fun t => (islandAt t 1).point == 0) = true := by decide +kernel

theorem witness_PowerLoss :
    (sReady.boot.off = false ∧ sReady.pwr.powerLoss = false ∧ 10199 < 10200) ∧
    ((sLoss 3).pwr.powerLoss = true ∧ (sLoss 3).pwr.flushStep = 3 ∧ 120 < 0xE8 ∧ step4Unit (sLoss 3) 120 = true ∧
      (Tab.get? (sLoss 3).pwr.islands 120).isSome = true) ∧
    ((sLoss 7).pwr.flushStep < 8 ∧ (sLoss 7).boot.off = false ∧ (sLoss 7).boot.abandoned = false) ∧
    ((sLoss 8).pwr.flushStep = 8 ∧ (sLoss 8).pwr.thermHold = false) := by decide +kernel

/-- R223: the power loss is declared below 10.2 V; the flush's end leaves the power-loss mark; the input's return starts. -/
theorem test_power_loss :
    ok (exec (.vin12Low 10199) sReady) (fun t => t.pwr.powerLoss && t.sbx.flushMode && t.pwr.holdupEn) = true ∧
    ok (exec (.flushEnd 20000) (sLoss 7)) (fun t => t.boot.mark == 2 && t.pwr.flushStep == 8) = true ∧
    ok (exec .inputReturn (sLoss 8)) (fun t => t.boot.kind == 2 && t.boot.cause == 0x10 && t.pwr.peat == .ramp) = true := by
  decide +kernel

/-! ## Flash and translation -/

/-- Flash channel 3 as given, with ticket 7 on a line that reads it and goes on to engine 120. -/
def sFlash (c : FChan) : State := { sReady with
  fch := { chans := [(3, c)] }
  cfg := { lines := [(5, { steps := [⟨2, 0, 16, 0⟩, ⟨0, 120, 16, 0⟩] })] }
  sbx := { store := [(7, { tk [(1, 120)] 4096 with places := [(0, 3)] })] } }

/-- A read of class 3 (four codewords left) at a tier. -/
def rd (tier left : Nat) : RdOp := {
  tag := 7, step := 0, n := 0, idx := 9, page := pageKey 3 0 5 1, quarter := 0, cls := 3, seqTail := 1, tier := tier, left := left }

/-- A host unit staged under number 11, and the page of group 5 that carries it. -/
def unit11 : FSlot := { cls := 0, idx := 9, seq := 70000, bytes := [1, 2], stg := some 11 }

def pg11 : OPage := { group := 5, page := 1, used := 1, slots := [unit11] }

def sPage (c : FChan) : State := { sFlash c with ftl := {
  map := [(8, { page := pageKey 3 0 6 1, quarter := 0, cls := 0, seqTail := 1 })], stagedAt := [(9, 11)], staging := [(11, { idx := 9, buffer := 0, cls := 0, bytes := [1, 2] })], nextSeq := 70000, nextStaged := 12, densePages := 100, sluicePages := 50 } }

theorem witness_FlashTraining :
    (chanOf (sFlash { state := .training, tryRate := 6 }) 3).state = .training ∧
    (chanOf (sFlash { state := .training, tryRate := 6 }) 3).tryRate ≠ 0 ∧
    (let s := sFlash { state := .retraining, tryRate := 0 }
     (chanOf s 3).tryRate = 0 ∧ (chanOf s 3).programs = [] ∧ (chanOf s 3).sluicePage = none ∧ (chanOf s 3).densePage = none ∧
       (unitOf s 3).held = [] ∧ (recentIncs s (unitOf s 3)).length < 2) ∧
    (let c := chanOf (sFlash { state := .ready, due := true }) 3
     c.state = .ready ∧ c.due = true ∧ c.reads = [] ∧ c.programs = [] ∧ c.erasing = [] ∧ c.drift = false) ∧
    (let s := sPage { state := .retraining, tryRate := 0 }
     unitsOn s ((s.fch.losses ++ [(3, 32)]).headD (3, 32)) ≠ []) ∧
    (unitOf (setUnit (sFlash { state := .training }) 3 { state := .active }) 3).state = .active := by decide +kernel

theorem witness_FlashReadsAndPrograms :
    (let s := sFlash { state := .ready, reads := [rd 3 2] }
     (chanOf s 3).reads[0]? = some (rd 3 2) ∧ stillRuns s 7 = true ∧ s.tst.injections = [] ∧ (rd 3 2).tier < 4 ∧
       pageLost s (rd 3 2).page = false ∧ (rd 3 2).tier ≠ 1 ∧ 1 < (rd 3 2).left ∧
       (rd 1 2).retries + 1 < eff s (Reg.FCH_CH_CFG + 0x40 * 3) 11 8) ∧
    (let s := sFlash { state := .ready, reads := [rd 4 1] }
     (rd 4 1).tier = 4 ∧ (entryOf s 7).any (fun e => !isLast s e 0) = true) ∧
    (let s := sPage { state := .ready, densePage := some { pg11 with dense := true } }
     curPage s 3 true = some { pg11 with dense := true } ∧ mayIssue (chanOf s 3) = true ∧ parityCh s 5 1 ≠ 3 ∧
       s.pwr.powerLoss = false ∧ ∀ x ∈ pg11.slots, stillWanted s x = true) ∧
    (let s := sPage { state := .ready, programs := [pg11] }
     (chanOf s 3).programs = pg11 :: [] ∧ pg11.slots = [unit11] ∧ unit11.kind = 1 ∧ unit11.stg = some 11 ∧
       (chanOf s 3).erasing.contains (0, memberBlock s 5 3) = false ∧ s.tst.injections = [] ∧ s.fch.stalled = [] ∧
       pg11.page < dataPages s (bgOf s 5).dense ∧ dataPages s (bgOf s 5).dense < 4096 ∧
       s.ftl.jpages.length + ceilDiv (s.ftl.held.length + 1) 252 ≤ 2048 ∧ Tab.get? s.ftl.stagedAt 9 = some 11 ∧
       Tab.get? s.ftl.staging 11 = some { idx := 9, buffer := 0, cls := 0, bytes := [1, 2] }) ∧
    (let s := sPage { state := .ready, programs := [pg11], erasing := [(0, 5)] }
     (chanOf s 3).programs = pg11 :: [] ∧ (chanOf s 3).erasing.contains (0, memberBlock s 5 3) = true) ∧
    (let s := { sReady with
       ftl := { groups := [(5, { state := .closed })] }, fch := { pages := [(pageKey 3 0 5 1, [unit11])] } }
     (bgOf s 5).isClosed = true ∧ (Tab.get? s.fch.pages (groupPage s 5 3 1)).isSome = true) ∧
    (sFlash {}).ftl.map = [] ∧ 1 ≤ 4 ∧ 4 ≤ 4 := by decide +kernel

/-- R242, R249, R252, R275, R291: a failed training pass tries a lower rate; a codeword goes to the next tier, and after tier 4
its ticket fails with MEDIA; a sealed page is programmed; its program ends in the map entry and a record held. -/
theorem test_flash :
    ok (exec (.flashTrainPassDone 3 false 0) (sFlash { state := .training, tryRate := 6 })) (fun t =>
      (chanOf t 3).tryRate == 5) = true ∧
    ok (exec (.flashTrainPassDone 3 false 0) (sFlash { state := .training, tryRate := 0 })) (fun t =>
      (chanOf t 3).state == .offline && (unitOf t 3).state == .offline && t.fch.losses == []) = true ∧
    ok (exec (.flashTrainPassDone 3 false 0) (sPage { state := .training, tryRate := 0 })) (fun t =>
      t.fch.losses == [(3, 32)]) = true ∧
    ok (exec (.codewordDecode 3 0 false) (sFlash { state := .ready, reads := [rd 3 2] })) (fun t =>
      (chanOf t 3).reads == [rd 4 2]) = true ∧
    ok (exec (.codewordDecode 3 0 false) (sFlash { state := .ready, reads := [rd 4 1] })) (fun t =>
      (entryOf t 7).map (·.fail) == some (some (0x0F, 3)) && (chanOf t 3).reads == []) = true ∧
    ok (exec (.pageSealTimeout 3 true) (sPage { state := .ready, densePage := some { pg11 with dense := true } })) (fun t =>
      (chanOf t 3).programs.map (·.slots.map (·.seq)) == [[70000]] && t.ftl.nextSeq == 70001) = true ∧
    ok (exec (.programStatus 3 true) (sPage { state := .ready, programs := [pg11] })) (fun t =>
      Tab.get? t.ftl.map 9 == some { page := pageKey 3 0 5 1, quarter := 0, cls := 0, seqTail := 4464 } &&
      t.ftl.stagedAt == [] && t.ftl.held.map (·.idx) == [9]) = true ∧
    ok (exec (.eraseStatus 3 0 5 false) (sFlash {})) (fun t => t.ftl.retired == [(3, 0, 5)]) = true := by decide +kernel

/-- A journal page of one record, JSEQ 4, whose first die has its status. -/
def sJournal : State := { sReady with ftl := { jpages := [{ jseq := 4, recs := [{ type := 3, idx := 9 }], first := true }], nextJseq := 5 } }

/-- Group 5, closed and empty; and dense groups of unlike wear. -/
def sGroups : State := { sReady with now := 100000, ftl := { groups := [(5, { state := .closed, takeFirst := 2 }), (6, { state := .closed, ecDense := 60000 })], lastLevel := 0 } }

/-- A stripe of group 5, page 1, and channel 3's member of it. -/
def sStripe (summed : List Nat) : State := { sReady with
  fch := { chans := [(3, { state := .ready, programs := [pg11] })], stripes := [(5 * 4096 + 1, { members := [3], summed := summed })] } }

theorem witness_MapEngine :
    (sJournal.ftl.jpages = [{ jseq := 4, recs := [{ type := 3, idx := 9 }], first := true }] ∧ 4 ≠ sJournal.ftl.nextJseq) ∧
    ({ sReady with ftl := { held := [{ type := 3, idx := 9 }] } } : State).ftl.held ≠ [] ∧
    sReady.ftl.ckpt = none ∧ (∀ y ∈ sReady.fch.chans, y.2.programs = []) ∧
    ({ sReady with ftl := { ckpt := some (1, 2) } } : State).ftl.ckpt ≠ none ∧
    (let w := writeMap (beginCkpt sReady)
     let u := commitHeld w.1
     u.ftl.ckpt = some (0, 0) ∧ w.2 = [] ∧ u.fch.stalled = [] ∧ u.ftl.secures = []) ∧
    (mayRelocate sGroups 5 = true ∧ eraseReady (clearLosses (copyGroup sGroups 5 [] [])) 5 = true ∧
      (clearLosses (copyGroup sGroups 5 [] [])).fch.stalled = [] ∧ mayRelocate sGroups 7 = false) ∧
    (let s := { sGroups with fch := { chans := [(3, { state := .ready, reads := [rd 0 1] })] } }
     mayRelocate s 5 = true ∧ eraseReady (clearLosses (copyGroup s 5 [] [])) 5 = false) ∧
    (let closed := Tab.keep sGroups.ftl.groups (fun _ x => x.isClosed && x.dense)
     leastBy (fun p => wearOf sGroups p.2) closed = some (5, { state := .closed, takeFirst := 2 }) ∧
       sGroups.ftl.lastLevel + 100000 ≤ sGroups.now ∧
       wearSpreads sGroups = true) ∧
    sReady.ftl.hist.length = 16 ∧ sReady.ftl.since.length = 7 := by decide +kernel

theorem witness_Parity :
    (let s := sStripe []
     Tab.get? s.fch.stripes (5 * 4096 + 1) = some { members := [3], summed := [] } ∧ memberSlots s 5 1 3 = some [unit11] ∧
       3 ∈ [3] ∧ ((membersOf s 5 1).all (fun k => k == parityCh s 5 1 || [3].contains k || !(groupChans s 5).contains k)) = false) ∧
    (let l := (List.range 32).filter (fun k => k != 3 && k != 6)
     let s := sStripe l
     ((membersOf s 5 1).all (fun k => k == parityCh s 5 1 || (l ++ [3]).contains k || !(groupChans s 5).contains k)) = true ∧
       (groupChans s 5).contains (parityCh s 5 1) = true ∧ 3 ∉ l ∧ memberSlots (sStripe l) 5 1 3 = some [unit11]) ∧
    (let s := { sStripe [] with ftl := { groups := [(6, { state := .opened, dense := false })], sluicePages := 100 } }
     ((chansFrom s 5).findSome? (fun k => (allocPage s k false [] 256).map (fun r => (k, r)))).any (fun r =>
       r.2.1 * 4096 + r.2.2.1 != 5 * 4096 + 1 && parityCh r.2.2.2 r.2.1 r.2.2.1 != r.1) = true) := by
  decide +kernel

/-- R302: the second die's status ends a journal page. R294: an empty closed group is erased and is free. R327: a minute. -/
theorem test_map_engine :
    ok (exec (.journalPageProgrammed 4 1) sJournal) (fun t => t.ftl.jpages == [] && t.ftl.journal == [(4, { type := 3, idx := 9 })]) =
      true ∧
    ok (exec (.relocateGroup 5 [] {}) sGroups) (fun t => (bgOf t 5).state == .free && (bgOf t 5).ecDense == 1) = true ∧
    ok (exec .checkpointBegin sReady) (fun t => t.ftl.anchor.map (·.num) == some 1 && t.ftl.ckpt == none) = true ∧
    ok (exec .minuteTick { sReady with ftl := { maxTemp := some 41 } }) (fun t => t.ftl.hist.getD 5 0 == 1 && t.ftl.since.getD 6 0 == 1) =
      true := by decide +kernel

/-- A read line: its mapped step in mode `m`, then engine 120. The ticket reads unit 0 from unit `u`, resolved to `r`. -/
def sRead (u m : Nat) (r : Ref) : State :=
  at7 { sReady with fch := { chans := [(3, { state := .ready })] } } [⟨2, 0, 16, m⟩, ⟨0, 120, 16, 0⟩]
    { tk [(1, 120)] 4096 with places := [(0, u)], refs := [(0, r)] } u (.start 7 0 0 4096)

theorem witness_FlashReads :
    (let s := sRead 189 0 (.unmapped 9)
     let e := { tk [(1, 120)] 4096 with places := [(0, 189)], refs := [(0, Ref.unmapped 9)] }
     startWaits s 189 7 0 0 4096 e ⟨2, 0, 16, 0⟩ [] ∧ stepKind ⟨2, 0, 16, 0⟩ = 0x01 ∧ readsNow s 189 = true ∧ 0 / 4096 = 0 ∧
       unitAt s e 1 0 = some 120 ∧ Tab.get? e.refs 0 = some (.unmapped 9)) ∧
    (let s := sRead 186 0 (.staged 9 0 [1])
     readsNow s 186 = true ∧ (entryOf s 7).any (fun e => Tab.get? e.refs 0 == some (.staged 9 0 [1])) = true) ∧
    (let s := sRead 3 0 (.flash 9 77 0 3 1)
     readsNow s 3 = true ∧ (chanOf s 3).programs = [] ∧ (chanOf s 3).erasing = [] ∧
       (entryOf s 7).any (fun e => Tab.get? e.refs 0 == some (.flash 9 77 0 3 1)) = true) ∧
    (let s := sRead 3 3 (.flash 9 77 0 3 1)
     stepsOf s (tk [] 4096) = [⟨2, 0, 16, 3⟩, ⟨0, 120, 16, 0⟩] ∧ readsNow s 3 = true) := by decide +kernel

/-- R246, R278: an unmapped unit reads as 4 KiB of zeros; a unit in flash is read by its channel. -/
theorem test_flash_read :
    ok (exec (.read 189) (sRead 189 0 (.unmapped 9))) (fun t => t.dev.trunk.any (fun q => q.dest == 120 && q.data == zeros 4096)) =
      true ∧
    ok (exec (.read 3) (sRead 3 0 (.flash 9 77 0 3 1))) (fun t => (chanOf t 3).reads.map (·.page) == [77] && inboxOf t 3 == []) =
      true := by decide +kernel

/-- A unit of ticket 7 in class 0 form, with the end token that follows it. -/
def slotPk (u : Nat) : Packet := { pk u 1 (zeros (classBytes 0)) with station := slotStation 9 0 true false }

def endPk (u : Nat) : Packet := { pk u 1 [] with endTok := true, off := 4096 }

/-- A durable line that ends in unit `u` at step `st`: a packet waits, or the token with the packet held. -/
def sWrite (u : Nat) (st : LStep) (held : Bool) : State :=
  let s := at7 { sReady with
      fch := { chans := [(3, { state := .ready, sluicePage := some { group := 5, page := 1 }, densePage := some { group := 6, page := 2 } })] } }
    [⟨0, 172, 16, 0⟩, st] { tk [(0, 172), (1, u)] 4096 with places := [(131072, u)] } u (if held then .pkt (endPk u) else .pkt (slotPk u))
  if held then setCtx s 7 1 { inBytes := 4096, held := [slotPk u] } else s

theorem witness_FlashWrites :
    ([(3, (⟨2, 0, 16, 1⟩ : LStep)), (3, ⟨2, 0, 16, 2⟩), (186, ⟨0, 186, 16, 0⟩)] : List (Nat × LStep)).all (fun x =>
      let e := { tk [(0, 172), (1, x.1)] 4096 with places := [(131072, x.1)] }
      let s := sWrite x.1 x.2 false
      decide (packetWaits s x.1 (slotPk x.1) e x.2 []) && (x.1 == 186 && worksNow s 186 || mayIssue (chanOf s 3)) &&
        decide (s.ftl.state ≠ .readOnly) && packetFits (slotPk x.1)) = true ∧
    ([(3, (⟨2, 0, 16, 1⟩ : LStep)), (3, ⟨2, 0, 16, 2⟩), (186, ⟨0, 186, 16, 0⟩)] : List (Nat × LStep)).all (fun x =>
      let e := { tk [(0, 172), (1, x.1)] 4096 with places := [(131072, x.1)] }
      let s := sWrite x.1 x.2 true
      inboxOf s x.1 == [.pkt (endPk x.1)] && entryOf s 7 == some e && tokenReady s (endPk x.1) 1 && isLast s e 1 &&
        (ctxOf s 7 1).held == [slotPk x.1] && (slotPk x.1).dest == x.1 &&
        (x.1 == 186 || mayIssue (chanOf s 3) && ((slotOfPacket s e (slotPk x.1)).any (fun y => y.kind != 4)) && (match curPage s 3 (x.2.mode == 2) with | some p => decide (p.used + packetClass (slotPk 3) + 1 < 16) | none => false)) &&
        decide (cleanTicket s e)) = true := by decide +kernel

/-- R246, R289: the unit joins the channel's page; the buffer stages it, and its ticket ends. -/
theorem test_flash_write :
    ok (exec (.writeDense 3) (sWrite 3 ⟨2, 0, 16, 2⟩ true)) (fun t =>
      (curPage t 3 true).map (fun p => (p.used, p.slots.map (·.idx))) == some (1, [9])) = true ∧
    ok (exec (.readWriteBack 186) (sWrite 186 ⟨0, 186, 16, 0⟩ true)) (fun t => entryOf t 7 == none &&
      Tab.get? t.ftl.stagedAt 9 == some 0 && t.sbx.posted.map (fun x => (x.status, x.outLen)) == [(0, 4096)]) = true := by
  decide +kernel

/-- Staging buffer 186 passes on (WRITE_THROUGH) or starts (DRAIN); the map engine starts a step in mode `m`. -/
def sThrough : State := at7 sReady [⟨0, 172, 16, 0⟩, ⟨0, 186, 16, 1⟩, ⟨2, 0, 16, 1⟩]
  { tk [(0, 172), (1, 186)] 4096 with places := [(262144, 3)] } 186 (.pkt (slotPk 186))

def sDrain : State := { at7 sReady [⟨0, 186, 16, 2⟩, ⟨2, 0, 16, 1⟩] { tk [(0, 186)] 4096 with places := [(131072, 3)] } 186 (.start 7 0 0 4096) with
  ftl := { staging := [(2, { idx := 9, buffer := 0, cls := 0, bytes := [5] })], stagedAt := [(9, 2)] } }

/-- A ticket over `n` bytes of namespace 1 whose portion of `k` bytes starts at the map engine; map page 0 is dirty. -/
def sMap (m n k : Nat) : State × Entry :=
  let e : Entry := { tk [(0, 189), (1, 3)] n with
    t := { inst := 0, line := 5, len := n, source := ⟨3, 2 ^ 24, 0⟩ }, places := [(131072, 3)] }
  ({ at7 sReady (if m = 3 then [⟨0, 189, 16, 3⟩, ⟨2, 0, 16, 1⟩] else [⟨0, 189, 16, m⟩]) e 189 (.start 7 0 0 k) with
      ftl := { ns := [(1, { base := 0, units := 8 })], mapDirty := [(2, 0)] } }, e)

theorem witness_MapEngineSteps :
    (let e := { tk [(0, 172), (1, 186)] 4096 with places := [(262144, 3)] }
     packetWaits sThrough 186 (slotPk 186) e ⟨0, 186, 16, 1⟩ [] ∧ worksNow sThrough 186 = true ∧ sThrough.ftl.state ≠ .readOnly ∧
       packetFits (slotPk 186) = true ∧ unitAt sThrough e 2 0 = some 3 ∧ (ctxOf sThrough 7 1).held = []) ∧
    (let e := { tk [(0, 186)] 4096 with places := [(131072, 3)] }
     startWaits sDrain 186 7 0 0 4096 e ⟨0, 186, 16, 2⟩ [] ∧ unitAt sDrain e 1 0 = some 3 ∧
       Tab.keep sDrain.ftl.staging (fun _ x => !x.superseded && !x.isSealed && x.sent.isNone && x.tag.isNone) =
         (2, { idx := 9, buffer := 0, cls := 0, bytes := [5] }) :: []) := by decide +kernel

theorem witness_MapEngineTickets :
    (startWaits (sMap 0 4096 4096).1 189 7 0 0 4096 (sMap 0 4096 4096).2 ⟨0, 189, 16, 0⟩ [] ∧ worksNow (sMap 0 4096 4096).1 189 = true ∧
      (sMap 0 4096 4096).1.ftl.jpages.length + ceilDiv ((sMap 0 4096 4096).1.ftl.held.length + ceilDiv 4096 4096) 252 ≤ 2048) ∧
    (startWaits (sMap 1 8192 4096).1 189 7 0 0 4096 (sMap 1 8192 4096).2 ⟨0, 189, 16, 1⟩ [] ∧
      (ctxOf (sMap 1 8192 4096).1 7 0).inBytes + 4096 < (sMap 1 8192 4096).2.t.len) ∧
    (portionsOf (sMap 1 4096 4096).2.t ≤ (sMap 1 4096 4096).2.admitted ∧ (sMap 1 4096 4096).2.t.len ≤ (ctxOf (sMap 1 4096 4096).1 7 0).inBytes + 4096 ∧
      (sMap 1 4096 4096).1.ftl.state ≠ .readOnly ∧ (sMap 1 4096 4096).1.ftl.secures = []) ∧
    (startWaits (sMap 2 4096 4096).1 189 7 0 0 4096 (sMap 2 4096 4096).2 ⟨0, 189, 16, 2⟩ [] ∧
      durableTo (sMap 2 4096 4096).1 0 = true ∧ isLast (sMap 2 4096 4096).1 (sMap 2 4096 4096).2 0 = true ∧
      cleanTicket (sMap 2 4096 4096).1 (sMap 2 4096 4096).2 ∧ durableTo sDrain 3 = false) ∧
    (startWaits (sMap 3 4096 4096).1 189 7 0 0 4096 (sMap 3 4096 4096).2 ⟨0, 189, 16, 3⟩ [] ∧
      unitAt (sMap 3 4096 4096).1 (sMap 3 4096 4096).2 1 0 = some 3 ∧ dirtyPages (sMap 3 4096 4096).1 = (2, 0) :: []) := by decide +kernel

/-- R289: DRAIN sends the oldest staged slot; DEALLOCATE leaves record type 3; DURABLE completes. -/
theorem test_map_engine_steps :
    ok (exec (.drain 186) sDrain) (fun t => t.dev.trunk.any (fun q => q.dest == 3 && q.data == [5])) = true ∧
    ok (exec .deallocate (sMap 0 4096 4096).1) (fun t => t.ftl.held.map (fun r => (r.type, r.idx)) == [(3, 0)]) = true ∧
    ok (exec .durable (sMap 2 4096 4096).1) (fun t => entryOf t 7 == none && t.sbx.posted.map (·.status) == [0]) = true ∧
    ok (exec (.secureDeallocate [] {}) (sMap 1 4096 4096).1) (fun t => t.ftl.secures == []) = true := by decide +kernel

/-- A station `u` at step 1 of three, its packet in front: engine stations and parity engine 178. -/
def sEng (st : LStep) (u : Nat) (p : Packet) : State :=
  at7 sReady [⟨0, 172, 16, 0⟩, st, ⟨0, 186, 16, 0⟩] (tk [(0, 172), (1, u), (2, 186)] 4096) u (.pkt p)

theorem witness_ParityStation :
    (let e := tk [(0, 172), (1, 178), (2, 186)] 4096
     let s := sEng ⟨0, 178, 16, 0⟩ 178 (pk 178 1 [1])
     packetWaits s 178 (pk 178 1 [1]) e ⟨0, 178, 16, 0⟩ [] ∧ stepKind ⟨0, 178, 16, 0⟩ = 0x0D ∧ worksNow s 178 = true ∧
       unitAt s e 2 0 = some 186) := by decide +kernel

/-- Engine 120 of a line: a slot packet of class 3 for mode 1, a whole unit for modes 0 and 2. -/
def slot3 : Packet := { pk 120 1 (zeros 4096) with station := slotStation 9 3 true true }

/-- A METHOD 0 record of two bytes (R354), and one whose OLEN is 0. -/
def plainRecord : Bytes := natLe 2 2 ++ natLe 2 2 ++ zeros 4 ++ natLe 4 (crc32c [1, 2]).toNat ++ zeros 4 ++ [1, 2] ++ zeros 46

/-- The clauses for classes 0 to 2 and their opposites rest on what the opaque LZ coder answers: for every answer one applies. -/
theorem witness_Compression :
    (∀ x ∈ [((⟨0, 120, 16, 1⟩ : LStep), pk 120 1 [1]), (⟨0, 120, 16, 3⟩, pk 120 1 plainRecord), (⟨0, 120, 16, 3⟩, pk 120 1 (zeros 64))],
      let e := tk [(0, 172), (1, 120), (2, 186)] 4096
      let s := sEng x.1 120 x.2
      packetWaits s 120 x.2 e x.1 [] ∧ stepKind x.1 = 0x06 ∧ worksNow s 120 = true ∧ isLast s e 1 = false ∧
        (ctxOf s 7 1).buf = []) ∧
    stSlot slot3.station = true ∧ stClass slot3.station = 3 ∧ slot3.data.length = 4096 := by decide +kernel

theorem witness_CompressionOfUnits (m : Nat) :
    let e := tk [(0, 172), (1, 120), (2, 186)] 4096
    let s := sEng ⟨0, 120, 16, m⟩ 120 slot3
    packetWaits s 120 slot3 e ⟨0, 120, 16, m⟩ [] ∧ (∀ n, unitAt s e 2 n = some 186) ∧ slot3.data.length = 4096 := by
  exact ⟨⟨rfl, rfl, rfl, rfl, rfl, rfl⟩, fun _ => rfl, by decide +kernel⟩

theorem witness_StreamDecompress :
    16 ≤ plainRecord.length ∧ recordHeadOk plainRecord = true ∧ plainRecord.length = recordSize plainRecord ∧
      isZero plainRecord (16 + leAt plainRecord 2 2) (plainRecord.length - 16 - leAt plainRecord 2 2) = true ∧
      (match decodeRecord plainRecord (none, none) with | .ok bs r => bs == [1, 2] && !r | _ => false) = true ∧
      2 ≤ streamBound (tk [] 4096) 64 ∧ recordHeadOk (zeros 64) = false := by decide +kernel

/-- R353, R358: a class 3 slot opens to its unit; a wrong length ends with FORMAT; a METHOD 0 record gives its bytes. -/
theorem test_decompression :
    ok (exec (.slotDecompress 120 none none) (sEng ⟨0, 120, 16, 1⟩ 120 slot3)) (fun t =>
      t.dev.trunk.map (fun q => (q.dest, q.data == zeros 4096, stIndex q.station, stSlot q.station)) == [(186, true, 9, false)]) = true ∧
    ok (exec (.slotDecompress 120 none none) (sEng ⟨0, 120, 16, 1⟩ 120 (pk 120 1 [1]))) (fun t =>
      (entryOf t 7).any (fun e => e.revoking && e.fail == some (0x10, 120))) = true ∧
    ok (exec (.streamDecompress 120 [] []) (sEng ⟨0, 120, 16, 3⟩ 120 (pk 120 1 plainRecord))) (fun t =>
      t.dev.trunk.map (fun q => (q.dest, q.data, q.prov)) == [(186, [1, 2], true)]) = true := by decide +kernel

/-! ## Cipher and digest engines -/

/-- Slot 5 holds a key of instance 0: kind `k`, encrypt and decrypt allowed. -/
def keyed (s : State) (k : Nat) : State := setSlot s 5 { kind := k, attr := 12, state := .loaded, gen := 3, key := zeros 64 }

/-- A ticket under key slot `n` through cipher engine 136. -/
def cipE (n : Nat) : Entry := { tk [(0, 172), (1, 136), (2, 186)] 4096 with
  t := { inst := 0, line := 5, len := 4096, keySlot := n, param := 0xFFFF } }

/-- Packet or token `p` at cipher engine 136 in mode `m`, the key in slot 5. -/
def sCip (m n : Nat) (p : Packet) : State :=
  keyed (at7 sReady [⟨0, 172, 16, 0⟩, ⟨0, 136, 16, m⟩, ⟨0, 186, 16, 0⟩]
    { cipE n with t := { (cipE n).t with param := if m < 2 then 0 else 0xFFFF } } 136 (.pkt p)) (if m < 2 then 1 else 2)

def xtsE (n : Nat) : Entry := { cipE n with t := { (cipE n).t with param := 0 } }

def unit512 : Packet := pk 136 1 (zeros 512)

theorem xts_ne_nil (e : Bool) (k : Bytes) (n : Nat) (bs : Bytes) (h : 512 ≤ bs.length) : xts e k n bs ≠ [] := by
  unfold xts xtsBlocks
  have h1 : ¬ bs = [] := by intro h2; subst h2; simp at h
  have h2 : ¬ bs.length < 32 := by omega
  simp only [List.isEmpty_iff, h1, h2]
  intro h3
  have := congrArg List.length h3
  cases e <;> simp [xtsBlock, aesE, aesD] at this

theorem witness_Xts : ∀ m ∈ [0, 1],
    (let s := sCip m 5 unit512
     packetWaits s 136 unit512 (xtsE 5) ⟨0, 136, 16, m⟩ [] ∧ stepKind ⟨0, 136, 16, m⟩ = 0x07 ∧ worksNow s 136 = true ∧
       isLast s (xtsE 5) 1 = false ∧ ctxOf s 7 1 = {} ∧ cipCheck s (xtsE 5) m = none ∧ duLen (xtsE 5) = 0 ∧
       512 ≤ unit512.data.length) ∧
    (let s := sCip m 6 unit512
     packetWaits s 136 unit512 (xtsE 6) ⟨0, 136, 16, m⟩ [] ∧ cipCheck s (xtsE 6) m = some 0x0A) := by decide +kernel

theorem witness_XtsNext (m n : Nat) : ∀ k, unitAt (sCip m n unit512) (xtsE n) 2 k = some 186 := fun _ => rfl

/-- A GCM message: 12 bytes of IV, no associated data, 16 bytes of text (R391); in mode 3 a tag follows. -/
def gcmMsg (tag : Bytes) : Bytes := zeros 24 ++ natLe 8 16 ++ zeros 16 ++ tag

def gcmEnd : Packet := { pk 136 1 [] with endTok := true, off := 48 }

def sGcm (m : Nat) (tag : Bytes) : State := setCtx (sCip m 5 gcmEnd) 7 1 { inBytes := 64, acc := gcmMsg tag }

/-- Whether the tag is right rests on the opaque AES: for every AES, one of the two clauses of GCM_DEC applies. -/
theorem witness_Gcm : ∀ x ∈ [(2, []), (3, zeros 16)],
    let s := sGcm x.1 x.2
    let c := ctxOf s 7 1
    inboxOf s 136 = .pkt gcmEnd :: [] ∧ entryOf s 7 = some (cipE 5) ∧ (stepsOf s (cipE 5))[1]? = some ⟨0, 136, 16, x.1⟩ ∧
      worksNow s 136 = true ∧ isLast s (cipE 5) 1 = false ∧ tokenReady s gcmEnd 1 = true ∧ c.waitsHold = false ∧
      c.outBytes = 0 ∧ gcmPart (cipE 5) = 0 ∧ 32 ≤ c.acc.length ∧ unitAt s (cipE 5) 2 0 = some 186 ∧
      c.acc.length = 32 + gcmAadLen c.acc + gcmTextLen c.acc + x.2.length ∧ gcmHeld c.acc = true := by decide +kernel

/-- Ticket 7 waits for hold room at engine 136. -/
def sHold : State := setKey (setCtx (sCip 3 5 gcmEnd) 7 1 { inBytes := 64, acc := gcmMsg [], waitsHold := true })
  { (keyed sReady 2).key with holdWait := [(136, [7])] }

theorem witness_GcmHold :
    Tab.getD sHold.key.holdWait 136 [] = 7 :: [] ∧ entryOf sHold 7 = some (cipE 5) ∧ stepInside sHold 136 7 = some 1 ∧
      (ctxOf sHold 7 1).held = [] ∧ holdUsed sHold 136 + holdNeed (gcmTextLen (ctxOf sHold 7 1).acc) ≤ 262144 ∧
      Tab.getD sReady.key.holdWait 136 [] = [] ∧ (unitOf sHold 181).state ≠ .bound ∧ (unitOf sReady 181).state ≠ .bound := by
  decide +kernel

/-- R386, R396: a slot that is not held ends the ticket with KEY_REVOKED; the first ticket that waits takes its room. -/
theorem test_cipher :
    ok (exec (.xtsEnc 136 none) (sCip 0 6 unit512)) (fun t => (entryOf t 7).any (fun e => e.fail == some (0x0A, 136))) = true ∧
    ok (exec (.gcmHoldRoomFree 136) sHold) (fun t => Tab.getD t.key.hold 136 [] == [(7, 4096)]) = true := by decide +kernel

/-- SHA-384 at digest engine 144, mode `m`, of the whole input or (n > 0) its first n bytes. -/
def dgtE (n : Nat) (units : Tab Nat) : Entry := { tk units 4096 with
  t := { inst := 0, line := 5, len := 4096, param := 2 * 2 ^ 32 + n } }

def sDgt (m n : Nat) (steps : List LStep) (units : Tab Nat) (p : Packet) : State :=
  setCtx (at7 sReady (⟨0, 172, 16, 0⟩ :: ⟨0, 144, 16, m⟩ :: steps) (dgtE n units) 144 (.pkt p)) 7 1 { inBytes := 4096, acc := [9] }

theorem witness_Digest :
    (∀ m ∈ [0, 1],
      let us := [(0, 172), (1, 144), (2, 186)]
      let s := sDgt m 2 [⟨0, 186, 16, 0⟩] us (pk 144 1 [1, 2])
      packetWaits s 144 (pk 144 1 [1, 2]) (dgtE 2 us) ⟨0, 144, 16, m⟩ [] ∧ stepKind ⟨0, 144, 16, m⟩ = 0x08 ∧
        worksNow s 144 = true ∧ ctxOf s 7 1 ≠ {} ∧ unitAt s (dgtE 2 us) 2 0 = some 186) ∧
    (let us := [(0, 172), (1, 144)]
     let p := endPk 144
     let s := sDgt 1 0 [] us p
     inboxOf s 144 = .pkt p :: [] ∧ p.endTok = true ∧ p.prov = false ∧ entryOf s 7 = some (dgtE 0 us) ∧
       (stepsOf s (dgtE 0 us))[1]? = some ⟨0, 144, 16, 1⟩ ∧ isLast s (dgtE 0 us) 1 = true ∧ tokenReady s p 1 = true ∧
       ctxOf s 7 1 ≠ {} ∧ dgtLen (dgtE 0 us) = 0 ∧ cleanTicket s (dgtE 0 us)) := by decide +kernel

/-- R418: only MSG_LEN bytes are hashed; R416: PASS sends its packet on and SINK keeps it. -/
theorem test_digest :
    ok (exec (.pass 144) (sDgt 0 2 [⟨0, 186, 16, 0⟩] [(0, 172), (1, 144), (2, 186)] (pk 144 1 [1, 2]))) (fun t =>
      (ctxOf t 7 1).acc == [9, 1] && t.dev.trunk.map (fun q => (q.dest, q.data)) == [(186, [1, 2])]) = true ∧
    ok (exec (.sink 144) (sDgt 1 2 [⟨0, 186, 16, 0⟩] [(0, 172), (1, 144), (2, 186)] (pk 144 1 [1, 2]))) (fun t =>
      (ctxOf t 7 1).acc == [9, 1] && t.dev.trunk == []) = true := by decide +kernel

/-- Feed context 0 of SHA-384, whose word 0 is staged. -/
def opened : Feed := { opened := true, alg := 2, w0 := 0x04030201 }

/-- A clear save record of a SHA-384 computation (R427). -/
def savedFeed : Bytes := fit 512 ([2#8, 2#8, 0xFF#8, 0xFF#8] ++ zeros 508)

theorem witness_Feed :
    (algSizes (fld (feedReg { sReady with regs := { eff := [(Reg.DGT_FEED_CTL, 0x200)] } } 0 Reg.DGT_FEED_CTL) 15 8)).1 ≠ 0 ∧
      isHmac (fld (feedReg { sReady with regs := { eff := [(Reg.DGT_FEED_CTL, 0x200)] } } 0 Reg.DGT_FEED_CTL) 15 8) = false ∧
      (algSizes (fld (feedReg sReady 0 Reg.DGT_FEED_CTL) 15 8)).1 = 0 ∧
    (feedOf (setFeed sReady 0 { op := 1 }) 0).op = 1 ∧ opened.key = none ∧ opened.len = 0 ∧ opened.last = none ∧
      isHmac opened.alg = false ∧ Tab.getD sReady.tru.tdi 0 .unlocked ≠ .error ∧
      (match restoreParse sReady (fit 512 savedFeed) with | .ok g => g.alg == 2 && g.opened | .error _ => false) = true := by
  decide +kernel

/-- R425: FEED_W1 pushes the eight bytes of both words; a write with no computation is only counted. -/
theorem test_feed :
    ok (exec (.feedW1 0 0x08070605) (setFeed sReady 0 opened)) (fun t => (feedOf t 0).buf == [1, 2, 3, 4, 5, 6, 7, 8] &&
      (feedOf t 0).done == 8) = true ∧
    ok (exec (.feedLast 0 4) (setFeed sReady 0 opened)) (fun t => (feedOf t 0).last == some 4) = true ∧
    ok (exec (.feedW0 0 1) sReady) (fun t => live t Reg.DGT_ENG_COUNTS 7 0 == 1) = true ∧
    ok (exec (.restore 0 savedFeed) (setFeed sReady 0 { op := 3 })) (fun t => (feedOf t 0).alg == 2 &&
      live t Reg.DGT_FEED_RESULT 8 0 == 0x100) = true := by decide +kernel

/-! ## Search, host ports, DRAM and the key store -/

/-- A key record that asks bank 0 for key 7, and an entry record for bank 0, entry 1 (R442, R438). -/
def keyRec : Bytes := natLe 16 7 ++ natLe 8 1 ++ [1, 2, 3, 4] ++ zeros 4
def entryRec : Bytes := natLe 16 5 ++ natLe 16 5 ++ [9, 0, 1, 0] ++ natLe 4 77 ++ natLe 4 1 ++ zeros 20

def asuE : Entry := tk [(0, 172), (1, 152), (2, 186)] 4096

/-- Two entries of bank 0 match key 7; group 152 is in ROLE `r`. -/
def sAsu (r m : Nat) (p : Packet) : State :=
  inRole { at7 sReady [⟨0, 172, 16, 0⟩, ⟨0, 152, 16, m⟩, ⟨0, 186, 16, 0⟩] asuE 152 (.pkt p) with
    asu := { entries := [(0, ⟨7, 7, 1, 10⟩), (1, ⟨5, 5, 2, 20⟩)] } } 152 r 0

def asuRec (m : Nat) : Bytes := if m = 3 then entryRec else keyRec

theorem witness_Search :
    (∀ m ∈ [0, 1, 2, 3], let p := pk 152 1 (asuRec m)
      let s := sAsu 1 m p
      packetWaits s 152 p asuE ⟨0, 152, 16, m⟩ [] ∧ stepKind ⟨0, 152, 16, m⟩ = 0x09 ∧ worksNow s 152 = true ∧ p.prov = false ∧
        (ctxOf s 7 1).held = [] ∧ (searchCheck s asuE m p.data).toBool = true ∧ p.data.length = (if m = 3 then 64 else 32) ∧
        unitAt s asuE 2 ((ctxOf s 7 1).outBytes / 4096) = some 186) ∧
    (∀ m ∈ [0, 1, 2, 3], let p := pk 152 1 (asuRec m)
      let s := sAsu 0 m p
      packetWaits s 152 p asuE ⟨0, 152, 16, m⟩ [] ∧ worksNow s 152 = true ∧ isLast s asuE 1 = false ∧
        (match searchCheck s asuE m p.data with | .error st => st == 0x11 | .ok _ => false) = true) := by decide +kernel

theorem witness_Winner :
    (matching (sAsu 1 0 (pk 152 1 keyRec)) 1 7).Pairwise (fun x z => x.1 < z.1) ∧
      winner (matching (sAsu 1 0 (pk 152 1 keyRec)) 1 7) = some (1, ⟨5, 5, 2, 20⟩) ∧ winner [] = none := by decide +kernel

/-- Ticket 7 waits for hold-region room at port 0; banks 0 and 4 are being copied to and from spare 184. -/
def sAsuHold : State :=
  let s := setCtx (sAsu 1 3 (pk 152 1 entryRec)) 7 1 { waitsHold := true }
  { s with
    asu := { s.asu with
      holdWait := [(0, [7])], copies := [0], shadow := [(1, ⟨5, 5, 2, 20⟩)],
      banks := [(0, { state := .copying, spare := some 184 }), (4, { state := .returning, spare := some 184 })] } }

theorem witness_SearchHold :
    Tab.getD sAsuHold.asu.holdWait 0 [] = 7 :: [] ∧ entryOf sAsuHold 7 = some asuE ∧
      (stepsOf sAsuHold asuE)[1]? = some ⟨0, 152, 16, 3⟩ ∧
      (List.range (stepsOf sAsuHold asuE).length).find? (fun j => (ctxOf sAsuHold 7 j).waitsHold) = some 1 ∧
      searchHoldUsed sAsuHold 0 + searchHoldNeed asuE ⟨0, 152, 16, 3⟩ ≤ 4194304 ∧ 1 ∉ sAsuHold.asu.lost ∧
      updateInFlight sAsuHold 1 = false ∧ cleanShadow sAsuHold 1 none [(true, none)] = some (some ⟨5, 5, 2, 20⟩) ∧
      cleanShadow sAsuHold 1 none [(false, none)] = none ∧
      cleanShadow sAsuHold 1 (some (entryOfRecord entryRec)) [(true, none)] = some (some ⟨5, 5, 2, 20⟩) ∧
      cleanShadow sAsuHold 1 (some (entryOfRecord entryRec)) [] = none ∧
      (true, (none : Option Bytes)) ∈ [(true, none)].take sAsuHold.asu.copies.length ∧ sAsuHold.asu.copies ≠ [] ∧ (sAsu 1 3 (pk 152 1 entryRec)).asu.copies = [] ∧
      (bankOf sAsuHold 0).state = .copying ∧ (bankOf sAsuHold 0).spare = some 184 ∧
      (bankOf sAsuHold 4).state = .returning ∧ (bankOf sAsuHold 4).spare = some 184 := by decide +kernel

/-- R440, R443: the higher PRIORITY wins and the result carries bank and entry; R451: UPDATE stores the entry; R454: an
uncorrectable word with a clean shadow is rewritten, without one it is LOST. -/
theorem test_search :
    ok (exec (.search4 ⟨152, {}⟩) (sAsu 1 0 (pk 152 1 keyRec))) (fun t => t.dev.trunk.map (·.data) ==
      [[20, 0, 0, 0, 2, 0, 1, 0, 1, 0, 0, 0, 1, 2, 3, 4]]) = true ∧
    ok (exec (.update 152) (sAsu 1 3 (pk 152 1 entryRec))) (fun t => Tab.get? t.asu.entries 1 == some ⟨5, 5, 9, 77⟩) = true ∧
    ok (exec (.scrubRead 0 1 2 none [(true, none)]) sAsuHold) (fun t => t.asu.lost == [] &&
      Tab.get? t.asu.entries 1 == some ⟨5, 5, 2, 20⟩) = true ∧
    ok (exec (.scrubRead 0 1 2 none []) (sAsu 1 3 (pk 152 1 entryRec))) (fun t => t.asu.lost == [1]) = true := by
  decide +kernel

/-- Instance 3 has 64 MiB of local memory on channel 0, which runs. -/
def sLocal : State := { sReady with
  ten := { insts := [(3, { lmem64 := 1, chans := [0] })] }, drc := { chans := [(0, { state := .ready })] } }

/-- A ticket of instance `i` from `src` to `dst` whose first station is `u`, or (`j` = 1) its last. -/
def ioE (i u j : Nat) (src dst : Desc) : Entry := { tk (if j = 0 then [(0, u), (1, 120)] else [(0, 120), (1, u)]) 64 with
  t := { inst := i, line := 5, len := 64, source := src, dest := dst } }

def sIo (i u j : Nat) (src dst : Desc) (w : Work) : State :=
  at7 sLocal (if j = 0 then [⟨0, u, 16, 0⟩, ⟨0, 120, 16, 0⟩] else [⟨0, 120, 16, 0⟩, ⟨0, u, 16, 0⟩]) (ioE i u j src dst) u w

def ioStep (u : Nat) : LStep := ⟨0, u, 16, 0⟩

theorem witness_HostPort :
    (let s := sIo 0 172 0 ⟨1, 0, 64⟩ ⟨4, 0, 0⟩ (.start 7 0 0 64)
     let e := ioE 0 172 0 ⟨1, 0, 64⟩ ⟨4, 0, 0⟩
     startWaits s 172 7 0 0 64 e (ioStep 172) [] ∧ stepKind (ioStep 172) = 0x0B ∧ worksNow s 172 = true ∧ e.t.source.kind = 1 ∧
       e.t.dest.kind ≠ 3 ∧ unitAt s e 1 0 = some 120 ∧ isLast s e 0 = false ∧ 64 ≤ (zeros 64).length ∧ ([] : Bytes).length < 64) ∧
    (let p := pk 172 1 [1, 2]
     let s := sIo 0 172 1 ⟨4, 0, 64⟩ ⟨1, 0, 64⟩ (.pkt p)
     let e := ioE 0 172 1 ⟨4, 0, 64⟩ ⟨1, 0, 64⟩
     packetWaits s 172 p e (ioStep 172) [] ∧ e.t.dest.kind = 1 ∧ Tab.getD s.tru.tdi 0 .unlocked ≠ .error) := by decide +kernel

theorem witness_DramStation :
    (let s := sIo 3 168 0 ⟨4, 0, 64⟩ ⟨1, 0, 0⟩ (.start 7 0 0 64)
     let e := ioE 3 168 0 ⟨4, 0, 64⟩ ⟨1, 0, 0⟩
     startWaits s 168 7 0 0 64 e (ioStep 168) [] ∧ stepKind (ioStep 168) = 0x0A ∧ worksNow s 168 = true ∧ e.t.source.kind = 4 ∧
       e.t.dest.kind ≠ 3 ∧ unitAt s e 1 0 = some 120 ∧ localOk s 3 64 64 = true ∧
       (∀ q ∈ pageSpan 64 64, pageGone s 3 q = false) ∧ (∀ w ∈ wordSpan 64 64, Tab.getD s.drc.marks (lword 3 w) 0 = 0)) ∧
    (let a := 67108860
     let s := sIo 3 168 0 ⟨4, 0, a⟩ ⟨1, 0, 0⟩ (.start 7 0 0 64)
     let e := ioE 3 168 0 ⟨4, 0, a⟩ ⟨1, 0, 0⟩
     startWaits s 168 7 0 0 64 e (ioStep 168) [] ∧ localOk s 3 a 64 = false ∧ isLast s e 0 = false) ∧
    (let p := pk 168 1 [1, 2]
     let s := sIo 3 168 1 ⟨1, 0, 0⟩ ⟨4, 0, 64⟩ (.pkt p)
     let e := ioE 3 168 1 ⟨1, 0, 0⟩ ⟨4, 0, 64⟩
     packetWaits s 168 p e (ioStep 168) [] ∧ e.t.dest.kind = 4 ∧ localOk s 3 64 2 = true ∧
       (pageSpan 64 2).any (pageGone (placePages s 3 64 2) 3) = false) := by decide +kernel

/-- Local memory that lies on channel 1, which is OFFLINE or still trains; `more`: the DRAM step is not the last. -/
def sLost (st : DState) (more : Bool) : State × Entry :=
  let e := { ioE 3 168 1 ⟨1, 0, 0⟩ ⟨4, 0, 64⟩ with units := [(0, 120), (1, 168), (2, 186)] }
  ({ at7 sLocal (⟨0, 120, 16, 0⟩ :: ioStep 168 :: if more then [⟨0, 186, 16, 0⟩] else []) e 168 (.pkt (pk 168 1 [1, 2])) with
      ten := { insts := [(3, { lmem64 := 1, chans := [1] })] }
      drc := { chans := [(0, { state := .ready }), (1, { state := st })] } }, e)

theorem witness_DramLost :
    (∀ more ∈ [true, false], let r := sLost .offline more
      packetWaits r.1 168 (pk 168 1 [1, 2]) r.2 (ioStep 168) [] ∧ stepKind (ioStep 168) = 0x0A ∧ worksNow r.1 168 = true ∧
        r.2.t.dest.kind = 4 ∧ localOk r.1 3 64 2 = true ∧ (∀ q ∈ pageSpan 64 2, dramStalled r.1 (pageChan r.1 3 q) = false) ∧
        (pageSpan 64 2).any (pageGone (placePages r.1 3 64 2) 3) = true ∧ isLast r.1 r.2 1 = !more ∧ cleanTicket r.1 r.2 ∧
        r.1.stn.ctx = []) ∧
    (let r := sLost .training false
     let s := setInbox r.1 168 [.start 7 1 0 64]
     startWaits s 168 7 1 0 64 r.2 (ioStep 168) [] ∧
       ¬ ∀ q ∈ pageSpan (r.2.t.source.addr + 0) 64, dramStalled s (pageChan s 3 q) = false) := by decide +kernel

/-- R563, R574: 64 bytes are fetched and sent on, fewer end the ticket with SHORT; R142: a read outside local memory ends with BOUNDS. -/
theorem test_host_and_dram_stations :
    ok (exec (.hostPortFetch 172 [] (zeros 64)) (sIo 0 172 0 ⟨1, 0, 64⟩ ⟨4, 0, 0⟩ (.start 7 0 0 64))) (fun t =>
      (t.dev.trunk.take 1).map (fun q => (q.dest, q.data.length)) == [(120, 64)]) = true ∧
    ok (exec (.hostPortFetch 172 [] []) (sIo 0 172 0 ⟨1, 0, 64⟩ ⟨4, 0, 0⟩ (.start 7 0 0 64))) (fun t =>
      (entryOf t 7).any (fun e => e.fail == some (1, 172))) = true ∧
    ok (exec (.dramStation 168 0) (sIo 3 168 0 ⟨4, 0, 67108860⟩ ⟨1, 0, 0⟩ (.start 7 0 0 64))) (fun t =>
      (entryOf t 7).any (fun e => e.fail == some (0x0E, 168))) = true := by decide +kernel

theorem witness_Dram :
    dramIn sLocal 0 = true ∧ Tab.getD (dramOf sLocal 0).postponed 5 0 < 8 ∧ pageChan sLocal 3 (9 / 128) = 0 ∧
      Tab.getD sLocal.drc.marks (lword 3 9) 0 = 0 ∧ (dramOf sReady 1).state = .training ∧ (dramOf sReady 1).heldRate = false ∧
      (dramOf sReady 1).tryRate = 0 ∧ (unitOf sReady 169).held = [] ∧ (recentIncs sReady (unitOf sReady 169)).length < 2 ∧
      (dramOf (setDram sReady 1 { tryRate := 2, window := true }) 1).tryRate ≠ 0 ∧
      (dramOf (setDram sReady 1 { tryRate := 2, window := true }) 1).window = true ∧ (dramOf sReady 1).window = false := by
  decide +kernel

/-- R541: a refresh with a read waiting is postponed; R536: one symbol is corrected; R545: no rate works at code 0. -/
theorem test_dram :
    ok (exec (.dramRefresh 0 5 true) sLocal) (fun t => Tab.getD (dramOf t 0).postponed 5 0 == 1) = true ∧
    ok (exec (.dramPatrol 0 3 9 1) sLocal) (fun t => live t (drcReg Reg.DRC_CH_ERR 0) 31 16 == 1) = true ∧
    ok (exec (.dramTrainPassDone 1 false 0) sReady) (fun t => (dramOf t 1).state == .offline &&
      (unitOf t 169).state == .offline) = true := by decide +kernel

/-- Instance 0's request `op` on slot 5 is in progress; the slot is in state `st` with `n` users. -/
def keyR (op : Nat) : KeyReq := { inst := 0, op := op, slot := 5, kind := 1, grantee := 3, len := 64 }

def sKey (op : Nat) (st : KState) (n : Nat) (h : Handle) : State :=
  setHandle (setSlot (setKey sReady { reqs := [keyR op] }) 5 { kind := 1, attr := 2, state := st, users := n, key := [1] }) 0 0 h

/-- The blob clauses of KEY_LOAD rest on the opaque unwrap of R666: for every answer one of them applies. -/
theorem witness_KeyRequests :
    (∀ op ∈ [1, 2, 3, 4, 5, 6, 7], let s := sKey op .pending 0 {}
      keyHead s op = some (keyR op) ∧ keyStarted s (keyR op) = false ∧ (keyR op).via = none ∧ instState s 0 ≠ .resetting ∧
        (op ≠ 7 → keyStateCheck s (keyR op) = some 0x09)) ∧
    keyStateCheck (setSlot (sKey 7 .pending 0 {}) 5 { owner := 3 }) (keyR 7) = some 0x11 ∧
    keyStateCheck (sKey 1 .free 0 {}) (keyR 1) = none ∧
    (∀ op ∈ [2, 3, 4, 5, 6, 7], ∀ n ∈ [0, 1], keyStateCheck (sKey op .loaded n {}) (keyR op) = none) ∧
    (let s := sKey 5 .loaded 0 { save := some { slot := 5, gen := 0 } }
     ((handleOf s 0 0).save = some { slot := 5, gen := 0 }) ∧ bitOf (slotOf s 5).attr 1 = true ∧
       Tab.getD s.tru.tdi 0 .unlocked ≠ .error) ∧
    (let s := sKey 6 .loaded 0 {}
     (handleOf s 0 0).save = none ∧ (handleOf s 0 0).user = none ∧ (keyR 6).silent = false ∧ (keyR 6).slot < 4096 ∧
       (ctxParse s 0 (fit 128 (ctxHead 2 0 { slot := 5, gen := 0 } ++ ctxBody { slot := 5, gen := 0 }))).toBool = true) := by
  decide +kernel

/-- Slot 5 is PENDING for an ERASE; its fence stands or not. -/
def sPending (f : Bool) : State :=
  setSlot (sKey 3 .pending 0 {}) 5 { kind := 1, state := .pending, waits := some (keyR 3, []), fencing := f, key := [1] }

theorem witness_KeyPending : ∀ f ∈ [false, true],
    (slotOf (sPending f) 5).state = .pending ∧ (slotOf (sPending f) 5).users = 0 ∧
      (slotOf (sPending f) 5).waits = some (keyR 3, []) ∧ (keyR 3).slot = 5 ∧ (slotOf (sPending f) 5).fencing = f := by
  decide +kernel

/-- R376: a GRANT empties the slot; R379: an ERASE of a slot in use waits PENDING, and takes effect at USE 0. -/
theorem test_key_store :
    ok (exec .keyGrant (sKey 1 .free 0 {})) (fun t => (slotOf t 5).owner == 3 && (slotOf t 5).state == .empty && live t Reg.KEY_RESULT 8 0 == 0x100) = true ∧
    ok (exec .keyErase (sKey 3 .loaded 1 {})) (fun t => (slotOf t 5).state == .pending && (slotOf t 5).key == [1]) = true ∧
    ok (exec (.keyUseZero 5) (sPending false)) (fun t => (slotOf t 5).state == .empty && (slotOf t 5).key == [] &&
      (slotOf t 5).gen == 1) = true := by decide +kernel

/-! ## NVMe -/

/-- A submission queue entry of opcode `op`, command identifier 9, for namespace `ns`, its data an SGL: then its Dwords. -/
def ent (op ns : Nat) (l : List (Nat × Nat)) : Bytes :=
  l.foldl (fun b p => patch b (4 * p.1) (natLe 4 p.2)) (natLe 2 (op + 0x4000) ++ natLe 2 9 ++ natLe 4 ns ++ zeros 56)

/-- Controller `c` serves queue `q`, whose front entry 0 is `e`. Line 5 takes every ticket; namespace 1 is bound to it. -/
def sNv (c q : Nat) (e : Bytes) : State :=
  let s : State := { sReady with
    cfg := { lines := [(5, { steps := [⟨0, 189, 16, 2⟩] }), (6, { steps := [⟨0, 189, 16, 0⟩] })] }
    regs := { eff := [(Reg.HIF_NS_LINES0, 0x50005), (Reg.HIF_NS_LINES1, 0x50005), (Reg.HIF_NS_LINES2, 0x60006),
      (Reg.SBX_TICKET_LIMIT + 12, 16), (Reg.HIF_NS_LINES3, 0x50005), (Reg.HIF_MEM_LINES, 0x50005), (Reg.HIF_MEM_LINES + 12, 0x50005)] }
    ten := { insts := [(3, { state := .ready, lmem64 := 1, chans := [0] })] }
    drc := { chans := [(0, { state := .ready })] }
    ftl := { ns := [(1, { base := 0, units := 2048, attached := [0, 4] })] }
    hif := { ctrls := [(c, {
      cc := 1, cqs := [(0, { base := 4096, size := 4 })],
      sqs := if q = 0 then [(0, { size := 4, fetched := [(0, e)] })]
        else [(0, { size := 4 }), (q, { size := 4, fetched := [(0, e)] })] })] } }
  inRole s 189 1 0

/-- `e` waits at the front of queue `q` of controller `c`. -/
def asked (c q : Nat) (e : Bytes) (op : Nat) : Bool :=
  decide (cmdWaits (sNv c q e) c q 0 e [] ∧ eOp e = op ∧ (cmdOf (sNv c q e) c q (leAt e 2 2)) = none)

/-- The same state with the controller or namespace 1 changed. -/
def withCtrl (s : State) (c : Nat) (f : NCtrl → NCtrl) : State := setCtrl s c (f (ctrlOf s c))
def withNs1 (s : State) (f : Ns → Ns) : State :=
  { s with ftl := { s.ftl with ns := [(1, f ((Tab.get? s.ftl.ns 1).getD { base := 0, units := 0 }))] } }

theorem witness_NvmeQueues :
    asked 0 0 (ent 5 0 [(10, 0x30001), (11, 3)]) 5 = true ∧ asked 0 0 (ent 1 0 [(10, 0x30001), (11, 0x10000)]) 1 = true ∧
    asked 0 0 (ent 0 0 [(10, 1)]) 0 = true ∧ asked 0 0 (ent 4 0 [(10, 1)]) 4 = true ∧ asked 0 0 (ent 0x0C 0 []) 0x0C = true ∧
    asked 0 0 (ent 8 0 [(10, 0x70001)]) 8 = true ∧ asked 0 0 (ent 0x1C 0 [(10, 0x40008), (11, 16)]) 0x1C = true ∧
    asked 0 0 (ent 0x1D 0 []) 0x1D = true ∧ asked 0 0 (ent 0x1E 0 []) 0x1E = true ∧ asked 0 0 (ent 0x7F 0 []) 0x7F = true ∧
    asked 4 0 (ent 0x1C 0 []) 0x1C = true ∧ asked 0 1 (ent 0x7F 0 []) 0x7F = true ∧
    0x7F ∉ adminOps 0 ∧ 0x7F ∉ ioOps ∧ (sqOf (sNv 0 0 []) 0 0).cq = 0 ∧
    queueLimit (sNv 0 0 []) 0 = 64 ∧ vectors 0 = 65 ∧ (ctrlOf (sNv 0 0 []) 4).online = false := by decide +kernel

theorem witness_NvmeQueuesHeld :
    (let s := withCtrl (sNv 0 0 []) 0 (fun x => { x with
       cqs := x.cqs ++ [(1, {})], sqs := x.sqs ++ [(1, { cq := 1, fetched := [(0, ent 2 1 [])] })], aer := List.replicate 8 3 })
     let t := withCtrl (sNv 0 0 []) 0 (fun x => { x with cqs := x.cqs ++ [(1, {})] })
     (Tab.get? (ctrlOf s 0).cqs 1).isSome = true ∧ (Tab.get? (ctrlOf s 0).sqs 1).isSome = true ∧ 8 ≤ (ctrlOf s 0).aer.length ∧
       (Tab.get? (ctrlOf s 0).sqs 1).map (·.cq) = some 1 ∧
       (sqOf s 0 1).fetched.any (fun p => leAt p.2 2 2 == 9) = true ∧ (sqOf t 0 1).fetched.any (fun p => leAt p.2 2 2 == 9) = false ∧
       (ctrlOf t 0).sqs.all (fun p => p.2.cq != 1) = true ∧ (ctrlOf t 0).aer.length < 8 ∧ ctrlRuns s 0 = true ∧
       2 < (sqOf s 0 0).size) ∧
    miReaches { sReady with regs := { eff := [(Reg.HIF_MI, 0x100)] } } 1 = true ∧ portExists sReady 0 = true := by decide +kernel

/-- R565: the queue is made; identifier 0 gives Invalid Queue Identifier, seen in the completion entry's status. -/
theorem test_nvme_queues :
    ok (exec (.createIoCq 0) (sNv 0 0 (ent 5 0 [(10, 0x30001), (11, 3)]))) (fun t =>
      Tab.get? (ctrlOf t 0).cqs 1 == some { base := 0, size := 4, iv := some 0 }) = true ∧
    ok (exec (.createIoCq 0) (sNv 0 0 (ent 5 0 [(10, 0x30000)]))) (fun t =>
      memRead (Tab.getD t.host 0 []) 4096 16 == zeros 8 ++ [1, 0, 0, 0, 9, 0, 0x03, 0x82]) = true ∧
    ok (exec (.linkRetrain 0 9 ⟨5, false⟩) sReady) (fun t => (linkOf t 0).width == 8 && (linkOf t 0).up) = true := by decide +kernel

/-- What Namespace Management reads: 1,024 units, no zones; and a controller list of controller 0. -/
def nsData : Bytes := natLe 8 1024 ++ natLe 8 1024 ++ zeros 4080
def listData : Bytes := natLe 2 1 ++ natLe 2 0 ++ zeros 60

theorem witness_NvmeAdmin :
    asked 0 0 (ent 6 1 [(10, 1)]) 6 = true ∧ asked 0 0 (ent 2 0 [(10, 0x10003)]) 2 = true ∧
    asked 0 0 (ent 2 0 [(10, 0x77)]) 2 = true ∧ asked 0 0 (ent 9 0 [(10, 1), (11, 7)]) 9 = true ∧
    asked 0 0 (ent 0x0A 0 [(10, 6)]) 0x0A = true ∧ asked 0 0 (ent 0x0A 0 [(10, 0x77)]) 0x0A = true ∧
    asked 0 0 (ent 0x0D 0 []) 0x0D = true ∧ asked 0 0 (ent 0x0D 1 [(10, 1)]) 0x0D = true ∧
    asked 0 0 (ent 0x15 1 []) 0x15 = true ∧ asked 0 0 (ent 0x80 1 [(10, 0x200)]) 0x80 = true ∧
    asked 0 0 (ent 0x84 0 [(10, 2)]) 0x84 = true ∧ (logPage (sNv 0 0 []) 0 3 0).isSome = true ∧
    logPage (sNv 0 0 []) 0 0x77 0 = none ∧ featureNow (sNv 0 0 []) 0 6 0 = some (1, []) ∧
    featureNow (sNv 0 0 []) 0 0x77 0 = none := by decide +kernel

theorem witness_NvmeNamespaces :
    (let s := sNv 0 0 (ent 0x0D 0 [])
     leAt nsData 26 1 % 16 = 0 ∧ leAt nsData 0 8 ≠ 0 ∧ leAt nsData 8 8 = leAt nsData 0 8 ∧ leAt nsData 29 1 = 0 ∧
       Tab.freeKey s.ftl.ns 1 1024 = some 2 ∧ freeExtent s (nsPages 1024) = some 4) ∧
    (let s := withNs1 (sNv 0 0 (ent 0x0D 1 [(10, 1)])) (fun n => { n with attached := [] })
     Tab.get? s.ftl.ns 1 = some { base := 0, units := 2048 }) ∧
    leAt listData 0 2 = 1 ∧ leAt listData 2 2 = 0 ∧ 0 ∈ allCtrls (sNv 0 0 []) ∧
    (let s := sNv 0 0 (ent 0x80 1 [(10, 0x200)])
     let y := cmdRec 0 0 0 (ent 0x80 1 [(10, 0x200)])
     1 ∈ nsSeen s 0 true ∧ (formatItems s 1 { base := 0, units := 2048 } true).map (fun z => (z.line, z.first, z.bytes)) =
         [(6, 0, 2048 * 4096), (6, 0, 4096)] ∧ lineDefined s 6 = true ∧ notReady s 6 = false ∧
       mayMake s 0 0 (formTicket s y 6 1 (2048 * 4096) false (logicalDesc 1 0) {})) ∧
    Tab.keys (Tab.keep (keyed sReady 1).key.slots (fun _ k => decide (k.state = .loaded))) = [5] := by decide +kernel

/-- R565, R568: a namespace is made with the lowest identifier; a Format becomes a ticket; features are kept. -/
theorem test_nvme_admin :
    ok (exec (.namespaceManagement 0 nsData) (sNv 0 0 (ent 0x0D 0 []))) (fun t =>
      (Tab.get? t.ftl.ns 2).map (fun n => (n.base, n.units)) == some (4, 1024)) = true ∧
    ok (exec (.formatNvm 0) (sNv 0 0 (ent 0x80 1 [(10, 0x200)]))) (fun t =>
      (entryOf t 0).map (fun e => (e.t.line, e.t.len, e.t.source.kind)) == some (6, 8388608, 3)) = true ∧
    ok (exec (.setFeatures 0 []) (sNv 0 0 (ent 9 0 [(10, 6), (11, 0)]))) (fun t => !(ctrlOf t 0).vwc) = true := by
  decide +kernel

/-- Fen 20 and the stopped core of unit 100 are instance 3's engines. -/
def sEngines : State := setCore (inRole (inRole (sNv 4 1 (ent 0 0 [])) 20 5 3) 100 6 3) 28 { state := .stopped }

/-- Line 5 with other steps; a host port, a reading and a writing flash channel, a DRAM channel. -/
def onSteps (s : State) (l : List LStep) : State := inRole { s with cfg := { s.cfg with lines := [(5, { steps := l })] } } 172 1 0
def atHost : LStep := ⟨0, 172, 16, 0⟩
def fromFlash : LStep := ⟨2, 0, 16, 0⟩
def toFlash : LStep := ⟨2, 0, 16, 1⟩
def atDram (m : Nat) : LStep := ⟨1, 0x0A, 16, m⟩

/-- Premises of a command that becomes one ticket, on a line of the given steps. -/
def makesOn (l : List LStep) (c q : Nat) (e : Bytes) (line ns len : Nat) (a b : Desc) : Bool :=
  decide (mayMake (onSteps (sNv c q e) l) c 0 (formTicket (onSteps (sNv c q e) l) (cmdRec c q 0 e) line ns len false a b))

/-- The same on the map engine's line. -/
def makes (c q : Nat) (e : Bytes) (line ns len : Nat) (a b : Desc) : Bool :=
  decide (mayMake (sNv c q e) c 0 (formTicket (sNv c q e) (cmdRec c q 0 e) line ns len false a b))

theorem witness_NvmeIo :
    ([0, 1, 2, 8, 9] : List Nat).all (fun op => asked 0 1 (ent op 1 [(12, 7)]) op) = true ∧
    (let e := ent 2 1 [(10, 64), (12, 7)]
     let s := sNv 0 1 e
     nsFor s 0 1 = some { base := 0, units := 2048, attached := [0, 4] } ∧ replicaNs s 1 = false ∧
       (entryFree s 0).isSome = true ∧ lineDefined s 5 = true ∧
       makesOn [fromFlash, atHost] 0 1 e 5 1 32768 (logicalDesc 1 64) (hostDesc s (cmdRec 0 1 0 e)) ∧
       makesOn [atHost, toFlash] 0 1 e 5 1 32768 (hostDesc s (cmdRec 0 1 0 e)) (logicalDesc 1 64)) ∧
    makes 0 1 (ent 0 1 []) 5 1 1 {} {} = true ∧ makes 0 1 (ent 8 1 [(12, 7)]) 6 1 32768 (logicalDesc 1 0) {} = true ∧
    makes 0 1 (ent 9 1 [(11, 4)]) 6 1 4096 (logicalDesc 1 8) {} = true ∧
    (let e := ent 2 2 []
     lineDefined (sNv 0 1 e) (readLine (sNv 0 1 e) 2) = false) := by decide +kernel

theorem witness_ComputePrograms :
    makesOn [fromFlash, atDram 1] 4 1 (ent 0 1 []) 5 1 4096 (logicalDesc 1 8) (localDesc 64) = true ∧
    makesOn [atDram 0, toFlash] 4 1 (ent 0 1 []) 5 1 4096 (localDesc 64) (logicalDesc 1 8) = true ∧
    (let e := ent 0 0 []
     let h := hostDesc (sNv 4 1 e) (cmdRec 4 1 0 e)
     makesOn [atHost, atDram 1] 4 1 e 5 0 100 h (localDesc 64) = true ∧
     makesOn [atDram 0, atHost] 4 1 e 5 0 100 (localDesc 64) h = true ∧ asked 4 1 e 0 = true) ∧
    (let t : Ticket := { inst := 3, line := 5, len := 4096, keySlot := 0xFFFF }
     parseTicket (fit 64 (ticketBytes t)) = t ∧ leAt (fit 64 (ticketBytes t)) 0 2 = ctrlInst 4 ∧
       acceptance (sNv 4 1 []) (fit 64 (ticketBytes t)) true = none ∧ entryFree (sNv 4 1 []) 3 = some 0) ∧
    (let s := sEngines
     engineOf s 4 20 = true ∧ engineOf s 4 100 = true ∧ engineOf s 4 21 = false ∧ dramLive s ≠ [] ∧ s.cfg.queue = [] ∧
       s.cfg.cur = none ∧ (unitOf s 100).role = 6 ∧ (coreOf s (coreIndex s 100)).state = .stopped ∧
       coreUnit s (coreIndex s 100) = 100) ∧
    (let h := [0x47#8, 0x4F#8, 0x4C#8, 0x59#8] ++ natLe 4 64 ++ natLe 8 4096 ++ zeros 48
     leAt (fit 64 h) 4 4 = 64 ∧ leAt (fit 64 h) 8 8 = 4096 ∧ slice (fit 64 h) 0 4 = [0x47#8, 0x4F#8, 0x4C#8, 0x59#8] ∧
       isZero (fit 64 h) 24 40 = true) := by decide +kernel

/-- R569: READ and WRITE become tickets with the data on the right side; R581: an activation starts a stopped core. -/
theorem test_nvme_io :
    ok (exec (.nvmeRead 0 1) (onSteps (sNv 0 1 (ent 2 1 [(10, 64), (12, 7)])) [fromFlash, atHost])) (fun t =>
      (entryOf t 0).map (fun e => (e.t.len, e.t.source.kind, e.t.source.addr, e.t.dest.kind)) == some (32768, 3, 64, 2)) = true ∧
    ok (exec (.nvmeWrite 0 1) (onSteps (sNv 0 1 (ent 1 1 [(10, 64), (12, 7)])) [atHost, toFlash])) (fun t =>
      (entryOf t 0).map (fun e => (e.t.source.kind, e.t.dest.kind, e.t.cookie)) == some (2, 3, 9 + 65536)) = true ∧
    ok (exec (.programActivation 4 1 100) sEngines) (fun t =>
      (coreOf t 28).state == .running) = true := by decide +kernel

/-- Namespace 1 has zones of 1,024 units; zone 1 is `x`. -/
def sZone (x : Zone) (e : Bytes) : State := withNs1 (sNv 0 1 e) (fun n => { n with zoneUnits := 1024, zones := [(1, x)] })

def zns (x : Zone) : Ns := { base := 0, units := 2048, attached := [0, 4], zoneUnits := 1024, zones := [(1, x)] }

/-- At unit `lba`, 8 units, in the entry of opcode `op`; the send action in Dword 13. -/
def zent (op lba act : Nat) : Bytes := ent op 1 [(10, lba), (12, 7), (13, act)]

theorem witness_Zones :
    ([(0x01, 1024 + 5, 0, ({ state := 1, wp := 5 } : Zone)), (0x01, 1024, 0, { state := 4, wp := 1024 }), (0x01, 1024, 0, { wp := 5 }),
        (0x7D, 1024, 0, { state := 3, wp := 5 }), (0x7D, 1024, 0, { state := 4, wp := 1024 }), (0x79, 1024, 3, { state := 3 }),
        (0x79, 1024, 1, { state := 2 }), (0x79, 1024, 1, {}), (0x79, 1024, 2, {}), (0x79, 1024, 4, {}), (0x7A, 1024, 0, {})] :
      List (Nat × Nat × Nat × Zone)).all (fun x =>
        let e := zent x.1 x.2.1 x.2.2.1
        let s := sZone x.2.2.2 e
        decide (cmdWaits s 0 1 0 e [] ∧ eOp e = x.1 ∧ cmdOf s 0 1 (leAt e 2 2) = none ∧ nsFor s 0 1 = some (zns x.2.2.2) ∧
          replicaNs s 1 = false ∧ (entryFree s 0).isSome = true ∧ zoneOf (zns x.2.2.2) 1 = x.2.2.2 ∧ eQw e 10 = x.2.1 ∧
          eDw e 13 % 256 = x.2.2.1 ∧ bitOf (eDw e 13) 8 = false)) = true := by decide +kernel

theorem witness_ZoneTickets :
    (let e := zent 0x01 (1024 + 5) 0
     let s := onSteps (sZone { state := 1, wp := 5 } e) [atHost, toFlash]
     mayMake s 0 0 (formTicket s (cmdRec 0 1 0 e) 5 1 32768 true (hostDesc s (cmdRec 0 1 0 e)) (logicalDesc 1 1029))) ∧
    (let e := zent 0x7D 1024 0
     let s := onSteps (sZone { state := 3, wp := 5 } e) [atHost, toFlash]
     mayMake s 0 0 (formTicket s (cmdRec 0 1 0 e) 5 1 32768 true (hostDesc s (cmdRec 0 1 0 e)) (logicalDesc 1 1029))) ∧
    (let e := zent 0x79 1024 4
     let s := sZone {} e
     mayMake s 0 0 (formTicket s (cmdRec 0 1 0 e) 6 1 (1024 * 4096) false (logicalDesc 1 1024) {})) ∧
    openLimit (zns { state := 3 }) { state := 3 } = none ∧ openZones (zns { state := 3 }) < 1024 := by decide +kernel

/-- R577, R578: an append moves the write pointer and answers where it wrote; a full zone is refused; Finish fills. -/
theorem test_zones :
    ok (exec (.zoneAppend 0 1) (onSteps (sZone { state := 3, wp := 5 } (zent 0x7D 1024 0)) [atHost, toFlash])) (fun t =>
      (Tab.get? t.ftl.ns 1).map (fun n => zoneOf n 1) == some { state := 1, wp := 13 } &&
        (cmdOf t 0 1 9).map (·.dw0) == some 1029) = true ∧
    ok (exec (.nvmeWrite 0 1) (sZone { state := 4, wp := 1024 } (zent 0x01 1024 0))) (fun t =>
      memRead (Tab.getD t.host 0 []) 4110 2 == [0x73, 0x83]) = true ∧
    ok (exec (.zoneFinish 0 1) (sZone {} (zent 0x79 1024 2))) (fun t =>
      (Tab.get? t.ftl.ns 1).map (fun n => zoneOf n 1) == some { state := 4, wp := 1024 }) = true := by decide +kernel

/-! ## Tenancy and the junction -/

/-- Request `op` for instance 3 and unit `u` is the one in progress; instance 3 is in state `st`, unit `u` in ROLE `r`. -/
def tenR (op u : Nat) : TenReq := { op := op, inst := 3, unit := u, vf := 2, lmem64 := 2 }

def sTen (op u r : Nat) (st : IState) : State :=
  inRole { sReady with
    ten := { reqs := [tenR op u], insts := [(3, { state := st })] }
    regs := { live := [(Reg.DRC_CH_USABLE, 131072)] }, drc := { chans := [(0, { state := .ready })] } } u r
    (if r = 5 ∨ r = 6 ∨ r = 7 then 3 else 0)

theorem witness_TenancyCreate :
    (let s := sTen 1 0 3 .free
     s.ten.reqs = [tenR 1 0] ∧ (tenR 1 0).op = 1 ∧ (tenR 1 0).stage = 0 ∧ (tenR 1 0).inst = 3 ∧ (instOf s 3).state = .free ∧
       (tenR 1 0).port = 0 ∧ 64 * (tenR 1 0).lmem64 ≤ lmemLeft s ∧
       (∀ q ∈ s.ten.insts, q.1 = 0 ∨ q.2.state = .free ∨ q.2.port ≠ 0 ∨ q.2.vf ≠ 2)) ∧
    (instOf (sTen 1 0 3 .ready) 3).state = .ready ∧
    (let s := sTen 2 0 3 .ready
     (tenR 2 0).op = 2 ∧ (instOf s 3).state = .ready ∧ (∀ q ∈ s.ftl.ns, 4 ∉ q.2.attached)) := by decide +kernel

theorem witness_TenancyGrants :
    (∀ x ∈ [(3, 40, 4), (3, 40, 5), (5, 100, 4), (4, 40, 5), (6, 100, 6), (8, 144, 7), (4, 40, 4), (6, 100, 4), (8, 144, 1), (7, 144, 1)],
      let s := sTen x.1 x.2.1 x.2.2 .ready
      s.ten.reqs = [tenR x.1 x.2.1] ∧ (instOf s 3).state = .ready ∧ (unitOf s x.2.1).role = x.2.2 ∧ (unitOf s x.2.1).held = [] ∧
        (recentIncs s (unitOf s x.2.1)).length < 2 ∧ candidateBars s x.2.1 = false ∧ insideOf s x.2.1 = [] ∧
        usersOf s x.2.1 = []) ∧
    isAliased (sTen 3 40 4 .ready) 8 = false ∧ (fenOf (sTen 3 40 4 .ready) 8).state ≠ .offline ∧ dedicable 144 = true ∧
    (unitOf (sTen 4 40 5 .ready) 40).owner = 3 ∧ (unitOf (sTen 4 40 4 .ready) 40).owner ≠ 3 ∧
    kindOf 145 = kindOf 144 ∧ (unitOf (inRole (sTen 7 144 1 .ready) 145 1 0) 145).role = 1 := by decide +kernel

/-- A withdrawal of fen 40 that finds ticket 7 inside, and one that drains; logs and lost pages of instance 3. -/
def sInside : State :=
  setCtx { sTen 4 40 5 .ready with
    cfg := { lines := [(5, { steps := [⟨0, 40, 16, 0⟩] })] }, sbx := { store := [(7, tk [(0, 40)] 64)] } } 7 0 { inBytes := 1 }

def sTenDrain : State := { sInside with ten := { sInside.ten with reqs := [{ tenR 4 40 with stage := 1 }] } }

def sLog (en : Bool) (lost : List Nat) : State :=
  { sReady with ten := { insts := [(3, { state := .ready, lost := lost, log := { en := en } })] } }

theorem witness_TenancyDrain :
    insideOf sInside 40 ≠ [] ∧ (unitOf sInside 40).role = 5 ∧ (unitOf sInside 40).owner = 3 ∧
      sTenDrain.ten.reqs = [{ tenR 4 40 with stage := 1 }] ∧ (instOf (sLog true [5]) 3).log.en = true ∧
      (instOf (sLog false []) 3).log.en = false ∧ (instOf (sLog true [5]) 3).state = .ready ∧
      (instOf (sLog true [5]) 3).lost = 5 :: [] ∧ (instOf (sLog false []) 3).lost = [] := by decide +kernel

/-- R596, R597: a grant scrubs the fen for its instance; a withdrawal with a ticket inside drains; R603: a reset of a
READY instance is counted; R599: the oldest lost page is read once. -/
theorem test_tenancy :
    ok (exec .grantFen (sTen 3 40 4 .ready)) (fun t => (unitOf t 40).role == 5 && (unitOf t 40).owner == 3 &&
      (fenOf t 8).state == .scrubbing) = true ∧
    ok (exec .withdrawFen sInside) (fun t => t.ten.reqs.map (·.stage) == [1] && t.ten.withdrawing == [(40, 3)]) = true ∧
    ok (exec (.instanceReset 3 false) (sLog true [5])) (fun t => (instOf t 3).resets == 1) = true ∧
    ok (exec (.lmemLostPop ⟨3, none⟩) (sLog true [5])) (fun t => t.regs.readData == 5 && (instOf t 3).lost == []) = true := by
  decide +kernel

/-- Node 1 is joined, port 1 is up, neighbour 2 was heard there. -/
def sFed (j : Jct) : State := { sReady with
  regs := { eff := [(Reg.FED_NODE_CFG, 0x80000001), (Reg.FED_ETHERTYPE, 0x88B5), (Reg.FED_LINK_CFG, 0x80000)] }
  drc := { chans := [(0, { state := .ready })] }
  jct := { j with
    joined := true, inc := 7, links := [0, 2, 0, 0], neighbours := [{ node := 2, inc := 5, heard := [(1, 0)] }] } }

/-- Frame `f` arrives on port 1. -/
def onWire (f : Frame) : WireFrame :=
  { port := 1, fcsOk := true, bytes := zeros 6 ++ [0, 0, 0, 0, 0, 9] ++ [0x88, 0xB5] ++ frameBytes f }

/-- A frame of type `t` from node 2 to node 1, with SEQ `q`. -/
def fr (t q : Nat) : Frame := { type := t, hops := 4, dest := 1, src := 2, srcInc := 5, destInc := 7, seq := q, payload := [1, 2] }

/-- A message 0 that ticket 7 has sent to node 2. -/
def fmsg : FMsg := { seq := 0, sent := true, tag := 7, inst := 0, cookie := 0, destUnit := 174, srcUnit := 174, destGen := 0, param := 0, payload := [1] }

def fconn (w r : Nat) : FConn := { node := 2, tenant := 0, msgs := [{ fmsg with retries := r }], nextSeq := 1, window := w }

/-- Ticket 7 ends at Uaser port 174 with a message to node 2. -/
def sendE : Entry := { tk [(0, 168), (1, 174)] 64 with
  t := { inst := 0, line := 5, len := 64, dest := { kind := 6, mid := 2 * 256 + 174 * 2 ^ 24 } } }

def sSend (w : Work) : State :=
  let s := sFed {}
  { at7 s [⟨0, 168, 16, 0⟩, ⟨0, 174, 16, 0⟩] sendE 174 w with drc := s.drc, jct := s.jct, regs := s.regs }

def sendEnd : Packet := { pk 174 1 [] with endTok := true, off := 2 }

theorem witness_Send :
    (let p := pk 174 1 [1, 2]
     let s := sSend (.pkt p)
     packetWaits s 174 p sendE ⟨0, 174, 16, 0⟩ [] ∧ stepKind ⟨0, 174, 16, 0⟩ = 0x0C ∧ worksNow s 174 = true ∧
       (ctxOf s 7 1).buf.length + 2 ≤ 8192) ∧
    (let s := setCtx (sSend (.pkt sendEnd)) 7 1 { inBytes := 2, buf := [1, 2] }
     inboxOf s 174 = .pkt sendEnd :: [] ∧ entryOf s 7 = some sendE ∧ tokenReady s sendEnd 1 = true ∧ (ctxOf s 7 1).buf ≠ [] ∧
       fld sendE.t.dest.mid 23 8 = 2 ∧ 2 ≠ nodeOf s ∧ connOf s 2 0 = none ∧ s.jct.conns.length < 1024 ∧
       sendUse s + 2 ≤ 67108864) ∧
    (let e : Entry := { tk [(0, 174), (1, 168)] 2 with sub := .junction 3 }
     let r : FRecv := { id := 3, frame := fr 1 0 }
     let s := { at7 sReady [⟨0, 174, 16, 1⟩, ⟨0, 168, 16, 0⟩] e 174 (.start 7 0 0 2) with jct := { recv := [r] } }
     startWaits s 174 7 0 0 2 e ⟨0, 174, 16, 1⟩ [] ∧ worksNow s 174 = true ∧ e.sub = .junction r.id ∧
       s.jct.recv.find? (fun z => z.id == r.id) = some r ∧ 0 + 2 ≤ r.frame.payload.length ∧ unitAt s e 1 0 = some 168) := by
  decide +kernel

/-- The frame reaches node 1 as a frame of type `t`. -/
def arrives (s : State) (f : Frame) : Bool :=
  (frameIn s (onWire f)).1 == some f && f.dest == nodeOf s && f.destInc == s.jct.inc

theorem witness_Frames :
    (let s := sFed { incoming := [{ node := 2, inc := 5, tenant := 0, expect := 4 }] }
     arrives s (fr 1 4) = true ∧ arrives s (fr 1 3) = true ∧ arrives s (fr 1 6) = true ∧
       incomingOf s (2, 5, 0) = some { node := 2, inc := 5, tenant := 0, expect := 4 } ∧ 2 ≤ recvRoom s (2, 5, 0)) ∧
    (let s := sFed { conns := [fconn 64 0] }
     arrives s (fr 2 0) = true ∧ arrives s (fr 3 0) = true ∧ arrives s (fr 7 0) = true ∧ connOf s 2 0 = some (fconn 64 0) ∧ (fconn 64 0).inc = none ∧
       canSend s 2 = true) ∧
    (let c := { fconn 64 0 with inc := some 4 }
     let s := sFed { conns := [c] }
     arrives s (fr 7 0) = true ∧ connOf s 2 0 = some c ∧ c.inc ≠ none ∧ c.inc ≠ some (fr 7 0).srcInc) ∧
    (let e := { sendE with admitted := 1 }
     let s := { sFed { conns := [fconn 64 8] } with sbx := { store := [(7, e)] } }
     entryOf s 7 = some e ∧ cleanTicket s e ∧ (fconn 64 8).msgs.find? (fun z => z.sent && !z.acked && z.seq == 0) =
       some { fmsg with retries := 8 } ∧ eff s Reg.FED_LINK_CFG 19 16 ≤ 8) ∧
    (let f := { fr 1 0 with dest := 2, src := 3 }
     let s := sFed {}
     (frameIn s (onWire f)).1 = some f ∧ nextHop s 2 = some 2 ∧ portOf s 2 = some 1 ∧ mayFrame s = true ∧
       portQueue s 1 + wireLen f ≤ 4194304) := by decide +kernel

/-- R623: a DATA frame in order is received and the next expected; R628: a forwarded frame has one hop less; a frame with
a wrong CHECK is dropped and counted (R618). -/
theorem test_frames :
    ok (exec (.data (onWire (fr 1 4))) (sFed { incoming := [{ node := 2, inc := 5, tenant := 0, expect := 4 }] })) (fun t =>
      (incomingOf t (2, 5, 0)).map (·.expect) == some 5 && t.jct.nextRecv == 1) = true ∧
    ok (exec (.frameForward (onWire { fr 1 0 with dest := 2, src := 3 })) (sFed {})) (fun t =>
      t.jct.out.map (fun x => (x.1, x.2.1, x.2.2.hops)) == [(1, 2, 3)]) = true ∧
    ok (exec (.ack { onWire (fr 2 0) with bytes := patch (onWire (fr 2 0)).bytes 62 [0] }) (sFed {})) (fun t =>
      live t Reg.FED_DROPS 15 8 == 1) = true := by decide +kernel

/-- Group 6, whose first node is this one; a table that gives it to nodes 1 and 2. -/
def grp : FGroup := { group := 6, term := 3, nsid := 2, nodes := [1, 2, 0xFFFF, 0xFFFF] }

def grpTable : Bytes := natLe 4 6 ++ natLe 2 3 ++ natLe 2 2 ++ natLe 2 1 ++ natLe 2 2 ++ natLe 2 0xFFFF ++ natLe 2 0xFFFF

theorem witness_Membership :
    (let s := sFed {}
     (frameIn s (onWire { fr 4 0 with src := 9 })).1 = some { fr 4 0 with src := 9 } ∧ neighbourOf s 9 = none ∧
       s.jct.neighbours.length < 64 ∧ (frameIn s (onWire { fr 4 0 with flags := 2 })).1 = some { fr 4 0 with flags := 2 } ∧
       neighbourOf s 2 = some { node := 2, inc := 5, heard := [(1, 0)] } ∧
       (frameIn s (onWire { fr 4 0 with src := 1, param := 4 })).1 = some { fr 4 0 with src := 1, param := 4 } ∧
       4 ≠ s.dev.serial ∧ 2 ≠ nodeOf s ∧ s.jct.joined = true ∧ s.jct.left = false ∧ s.jct.duplicate = false ∧ sReady.jct.joined = false) ∧
    (let f := { fr 5 0 with param := 9 + 4 * 65536 }
     (frameIn (sFed {}) (onWire f)).1 = some f ∧ (9, 4) ∉ (sFed {}).jct.losses ∧ (9, 4) ∈ (sFed { losses := [(9, 4)] }).jct.losses) ∧
    (let f := { fr 6 0 with param := 6 + 5 * 2 ^ 32 }
     let s := sFed { groups := [grp] }
     (frameIn s (onWire f)).1 = some f ∧ s.jct.groups = [grp] ∧ grp.term < 5) ∧
    (sFed {}).jct.links.length = 4 ∧ (sFed {}).jct.neighbours = [{ node := 2, inc := 5, heard := [(1, 0)] }] := by
  decide +kernel

/-- The TABLE set of type `t` and length `n` is pending. -/
def sTable (t n : Nat) : State :=
  setGroup (sFed {}) (commitOf Reg.FED_TABLE_CTL) { pending := some [(Reg.FED_TABLE_CTL, t), (Reg.FED_TABLE_LEN, n)] }

theorem witness_Tables :
    (∀ x ∈ [(1, 262144), (2, 16), (2, 24)],
      (groupAt (sTable x.1 x.2) (commitOf Reg.FED_TABLE_CTL)).pending =
          some [(Reg.FED_TABLE_CTL, x.1), (Reg.FED_TABLE_LEN, x.2)] ∧
        tableCtlOk [(Reg.FED_TABLE_CTL, x.1), (Reg.FED_TABLE_LEN, x.2)] = (x.2 != 24)) ∧
    groupsOk (sTable 2 16) (parseGroups grpTable) = true := by decide +kernel

/-- R635, R636: the table's group is taken, and claimed once its time has come; R630: a LEAVING heartbeat loses its node. -/
theorem test_membership :
    ok (exec (.fedTableLoad grpTable) (sTable 2 16)) (fun t => t.jct.groups == [grp] && ok (exec .primaryClaimTimeout t) (fun r =>
      r.jct.groups.map (·.primary) == [true])) = true ∧
    ok (exec (.heartbeat (onWire { fr 4 0 with flags := 2 })) (sFed {})) (fun t => t.jct.neighbours == [] && t.jct.lost == [2]) =
      true := by decide +kernel

/-! ## Trust, starts, firmware, the recorder and tests -/

/-- Function 0 has session 1, established where `est` and attested where `att`: bound to the key that the registry holds; instance 3 is READY with its TDI in `st`. -/
def sTru (est att : Bool) (st : TdiState) : State := { sReady with
  ten := { insts := [(3, { state := .ready })] }
  tru := {
    sessions := [{ id := 1, fn := 0, established := est, reqKey := some [2], bound := if att then some ([1], [2]) else none }]
    nextSess := 2, registries := if att then [(0, { version := 1, entries := [1] :: List.replicate 7 [] })] else [], tdi := [(3, st)],
    ide := [(2, [7])], lifecycle := 1 } }

theorem witness_Spdm :
    fnBusy sReady 9 = true ∧ fnBusy (sTru true true .unlocked) 0 = false ∧
      (let s := sTru true true .unlocked
       sessOf s 0 1 = some { id := 1, fn := 0, established := true, reqKey := some [2], bound := some ([1], [2]) } ∧
         secureSess s 0 (some 1) = sessOf s 0 1 ∧ s.tru.sessions.length < 64 ∧ derives s = true ∧
         derives { s with tru := { s.tru with lifecycle := 2 } } = false ∧
         secureSess s 0 (some 4) = none ∧ sessOf s 0 4 = none ∧ 1 ∈ coveredIndices s 0 ∧ 7 ∉ coveredIndices s 0 ∧
         (s.tru.sessions.filter (fun y => y.fn == 0)).length < 2) ∧
      (let s := { sReady with tru := { sessions := [{ id := 1, fn := 0 }, { id := 2, fn := 0 }] } }
       2 ≤ (s.tru.sessions.filter (fun y => y.fn == 0)).length) ∧
      bitOf 2 1 = true ∧ bitOf 128 7 = true ∧ bitOf 16 4 = true := by decide +kernel

/-- R655, R657, R661: versions, a heartbeat in a session, and the errors Busy, InvalidSession and UnsupportedRequest. -/
theorem test_spdm :
    ok (exec (.getVersion 0) sReady) (fun t => t.tru.reply == some { code := 0x04, fn := 0, data := [0x12, 0x13] }) = true ∧
    ok (exec (.spdmHeartbeat 0 1) (sTru true true .unlocked)) (fun t => t.tru.reply == some { code := 0x68, fn := 0, session := some 1 }) = true ∧
    ok (exec (.spdmHeartbeat 0 1) (sTru false false .unlocked)) (fun t => (t.tru.reply.map (·.err)) == some 2) = true ∧
    ok (exec (.unsupportedRequest 9) sReady) (fun t => (t.tru.reply.map (·.err)) == some 3) = true ∧
    ok (exec (.endSession 0 1) (sTru true true .unlocked)) (fun t => t.tru.sessions == []) = true := by decide +kernel

def regKeys : KeySigs := { mldsaPub := zeros 2592, ecdsaPub := zeros 97, mldsaSig := [] }

/-- The clauses of a signature that verifies, and of one that does not, rest on the opaque ML-DSA and ECDSA: one applies. -/
theorem witness_Vendor :
    regKeys.mldsaPub.length = 2592 ∧ regKeys.ecdsaPub.length = 97 ∧ secureSess (sTru false false .unlocked) 0 (some 1) = none ∧
      (secureSess (sTru true false .unlocked) 0 (some 1)).isSome = true ∧
      (registryOf (sTru true false .unlocked) 0).version + 1 = 1 ∧
      (registryOf (sTru true false .unlocked) 0).entries.all (·.isEmpty) = true ∧
      ((registryOf (sTru true false .unlocked) 0).entries.set 2 (List.replicate 48 1#8)).all (·.isEmpty) = false ∧
      operatorAttested (sTru true true .unlocked) 0 (some 1) = true ∧ operatorAttested (sTru true false .unlocked) 0 (some 1) = false ∧
      testActive (sTru true true .unlocked) = false ∧
      testActive { sReady with tru := { testBy := some 1 } } = true ∧
      (∃ q ∈ (sTru true true .unlocked).ten.insts, q.1 ≠ 0 ∧ q.2.state ≠ .free) ∧
      (∀ q ∈ sReady.ten.insts, q.1 = 0 ∨ q.2.state = .free) := by decide +kernel

theorem witness_Tdisp : ∀ st ∈ [TdiState.unlocked, .locked, .run],
    (let s := sTru true true st
     fnBusy s 0 = false ∧ (secureSess s 0 (some 1)).isSome = true ∧ (instOf s 3).state ≠ .free ∧ (instOf s 3).port = 0 ∧
       Tab.getD s.tru.tdi 3 .unlocked = st ∧ (Tab.get? s.tru.ide (0 * 4 + 2)).isSome = true ∧ Tab.get? s.tru.ide (0 * 4 + 1) = none ∧
       (secureSess s 0 none).isNone = true) := by decide +kernel

/-- R670: LOCK_INTERFACE, START_INTERFACE and a request in the wrong state; R669: a failed stream falls; R667: an
operation without an attested session is refused. -/
theorem test_vendor :
    ok (exec (.tdispMessage 0 (some 1) 3 (.lockInterface 2)) (sTru true true .unlocked)) (fun t => Tab.get? t.tru.tdi 3 == some .locked &&
      Tab.get? t.tru.tdiStream 3 == some 2) = true ∧
    ok (exec (.tdispMessage 0 (some 1) 3 .startInterface) (sTru true true .locked)) (fun t => Tab.get? t.tru.tdi 3 == some .run) = true ∧
    ok (exec (.tdispMessage 0 (some 1) 3 .startInterface) (sTru true true .unlocked)) (fun t =>
      (t.tru.reply.map (·.data)) == some [0x10]) = true ∧
    ok (exec (.ideIntegrityFailure 0 2) (sTru true true .run)) (fun t => t.tru.ide == []) = true ∧
    ok (exec (.decommission 0 (some 1)) (sTru true false .unlocked)) (fun t => t.tru.lifecycle == 1) = true := by decide +kernel

/-- A device in phase `p`. -/
def inPhase (p : Phase) (b : Boot) : State := { State.reset with boot := { b with phase := p } }

theorem witness_Starts :
    (inPhase .ready { wdt := some 0 }).boot.wdt.isSome = true ∧ (inPhase .ready {}).boot.off = false ∧
      (inPhase .ready {}).pwr.powerLoss = false ∧ (inPhase .rom {}).boot.begun = false ∧
      (inPhase .restore {}).pwr.peat ≠ .ramp ∧
      (let s := { inPhase .ready { vinOk := true } with pwr := { thermHold := true, tModel := 90, flushStep := 8 } }
       s.boot.off = false ∧ s.boot.vinOk = true ∧ s.pwr.thermHold = true ∧ s.pwr.tModel < 100 ∧ s.pwr.flushStep = 8) ∧
      (∀ k ∈ [1, 2], (inPhase .rom { kind := k, begun := true }).boot.kind = k) ∧ portExists (inPhase .ready {}) 0 = true := by
  decide +kernel

/-- R680, R682, R691, R695: a warm trigger enters ENTRY with its cause, the cut-off leads to ROM; a power-on gives CLEAN
after the checkpoint of a closed map, and POWER_LOSS after a power-loss record. -/
theorem test_starts :
    ok (exec .warm (inPhase .ready {})) (fun t => t.boot.phase == .entry && t.boot.entryCause == 0x11 && t.sbx.flushMode) = true ∧
    ok (exec .entryCutoff (inPhase .entry { entryCause := 0x12 })) (fun t => t.boot.phase == .rom && t.boot.cause == 0x12) = true ∧
    ok (exec .powerOn (inPhase .rom { mark := 2 })) (fun t => t.boot.cause == 2 && t.boot.kind == 1) = true ∧
    ok (exec .startReady (inPhase .restore {})) (fun t => t.boot.phase == .ready && t.boot.sbReady) = true := by decide +kernel

/-- A trial record of slot B at its first boot, slot A active before; SELF_OK has been found. -/
def sTrial (boots : Nat) (selfOk : Bool) : State := { sReady with
  upd := { ptrs := (none, some { count := 1, active := 1, trial := true, boots := boots }), running := 1, selfOk := selfOk } }

def stopped16 (s : State) (st : CState) : State := { s with cores := (List.range 16).map (fun k => (k, { state := st })) }

/-- An update request. An image that passes its checks rests on the opaque hashes and signatures; one that fails is shown. -/
def sUpd (op : Nat) : State := { sReady with upd := { req := some { op := op, slot := 2, len := 64 } }, ftl := { state := .ready } }

def shortImage : Bytes := zeros 8 ++ natLe 8 64 ++ zeros 48

theorem witness_Firmware :
    (∀ o ∈ [1, 2, 3, 4], (sUpd o).upd.req = some { op := o, slot := 2, len := 64 } ∧ (sUpd o).boot.phase ≠ .halted ∧
      namedSlot (sUpd o) 2 = 1 ∧ (fwPtr (sUpd o)).trial = false ∧ 1 ≠ (fwPtr (sUpd o)).active) ∧
    hTotal shortImage = 64 ∧ failingBlock shortImage 0 = none ∧ imageCheck (sUpd 2) (sUpd 2).upd.staging 0 true = some 0x10 ∧
    (fwPtr (sTrial 0 false)).trial = true ∧ (fwPtr (sTrial 0 false)).boots = 0 ∧ onTrial (sTrial 1 true) = true ∧
    onTrial (sUpd 1) = false ∧ (sTrial 1 true).upd.selfOk = true ∧ eff (sTrial 1 false) Reg.UPD_CFG 0 0 = 0 ∧
    (∀ a ∈ (sTrial 1 true).upd.ptrs.2, a.count % 2 = 1) ∧
    (∀ k < 16, (coreOf (stopped16 (sTrial 1 false) .running) k).state = .running) ∧
    asked 0 0 (ent 0x10 0 [(10, 2)]) 0x10 = true ∧ asked 0 0 (ent 0x11 0 [(10, 15)]) 0x11 = true ∧
    ([] : Bytes).length % 4096 = 0 ∧ failingBlock (fit 64 []) 0 = none := by decide +kernel

/-- R708: an image shorter than its TOTAL ends with SHORT, a whole one is staged; R709: SELF_OK confirms a trial image;
R710: its timeout falls back to the other slot. -/
theorem test_firmware :
    ok (exec (.stage shortImage false) (sUpd 1)) (fun t => t.upd.staging == shortImage && live t Reg.UPD_RESULT 8 0 == 0x100) = true ∧
    ok (exec (.stage [] true) (sUpd 1)) (fun t => live t Reg.UPD_RESULT 8 0 == 0x101) = true ∧
    ok (exec .selfOk (stopped16 (sTrial 1 false) .running)) (fun t => !(fwPtr t).trial && (fwPtr t).active == 1) = true ∧
    ok (exec .confirmTimeout (sTrial 1 true)) (fun t => (fwPtr t).active == 0 && t.upd.fellBack && t.boot.phase == .entry) = true := by
  decide +kernel

/-- The recorder holds record `r`; a clear is at step `n`. -/
def rcd1 : EventRec := { seq := 4, opTime := 0, event := 0x10 }

def sEvr (n : Nat) : State := { sReady with evr := { clear := some { first := 4, last := 4, step := n }, nor := [rcd1], page := [rcd1], nextSeq := 5 } }

theorem witness_Recorder :
    (sEvr 1).evr.page ≠ [] ∧ sReady.evr.page = [] ∧ (sEvr 1).evr.norFail = false ∧ sReady.evr.clear = none ∧
      (∀ n ∈ [1, 2, 3, 4], (sEvr n).evr.clear = some { first := 4, last := 4, step := n } ∧ (sEvr n).evr.waiting = []) ∧
      (∀ q ∈ sReady.evr.second, q.2 ≤ 64) ∧ sReady.evr.reading = false := by decide +kernel

/-- R724: 66 records of one event and unit in a second are 2 too many; R727: after step 1 no record of the range is read. -/
theorem test_recorder :
    ok (exec .suppressed { sReady with evr := { second := [(0x1078, 66)] } }) (fun t =>
      t.evr.nor.map (fun r => (r.event, r.unit, r.detail)) == [(5, 0x78, [0x10, 0, 2, 0, 0, 0])]) = true ∧
    ok (exec (.evrClear) (sEvr 1)) (fun t => (recordOf (sEvr 1) 4).isSome && (recordOf t 4).isNone) = true ∧
    ok (exec (.testPortInstruction 2) sReady) (fun t => t.boot.testIr == 2) = true := by decide +kernel

/-- A taking of unit `u` is alone in the queue. -/
def sTake (u cause : Nat) : State :=
  let s := setCore sReady 28 { state := .stopped }
  { inRole (setFen s 8 { state := .empty }) u 1 0 with tst := { queue := [{ unit := u, cause := cause }] } }

/-- Unit `u` is in test. -/
def sTest (x : InTest) : State := { sReady with tst := { inTest := [x] } }

theorem witness_UnitTests :
    (∀ u ∈ [120, 144, 100, 40], (sTake u 1).tst.queue = [{ unit := u, cause := 1 }] ∧ mustWait (sTake u 1) { unit := u, cause := 1 } = false ∧
      mayTake (sTake u 1) { unit := u, cause := 1 } = true ∧ (sTake u 1).tst.selfLeft = [] ∧ (unitOf (sTake u 1) u).held = [] ∧
      (recentIncs (sTake u 1) (unitOf (sTake u 1) u)).length < 2) ∧
    spareFree (sTake 120 1) 120 0 = some 180 ∧ spareFree (sTake 100 1) 100 0 = some 182 ∧
    (let s := setFen { sReady with tst := { queue := [{ unit := 40, cause := 1 }] } } 8 { state := .running }
     mayTake s { unit := 40, cause := 1 } = false ∧ mustWait s { unit := 40, cause := 1 } = false) ∧
    eff { sReady with regs := { eff := [(Reg.TST_CFG, 1)] } } Reg.TST_CFG 7 0 ≠ 0 ∧
    (∀ x ∈ [({ unit := 120, cause := 1, spare := some 180 } : InTest), { unit := 144, cause := 1 }, { unit := 40, cause := 2 },
        { unit := 120, cause := 1, draining := true }], testEntry (sTest x) x.unit = some x) ∧
    testEntry sReady 120 = none ∧ asked 0 0 (ent 0x14 0 [(10, 1)]) 0x14 = true ∧ asked 0 0 (ent 0x14 0 [(10, 15)]) 0x14 = true ∧
    sReady.tst.selfTest = 0 := by decide +kernel

/-- R735: the spare is bound for a requested engine; R736: a failed test leaves it bound; R739: a self-test in progress. -/
theorem test_unit_tests :
    ok (exec .unitTestRequest (sTake 120 1)) (fun t => (unitOf t 180).state == .bound && (unitOf t 180).serves == 120) = true ∧
    ok (exec (.unitTestDone 144 { passed := false }) (sTest { unit := 144, cause := 1 })) (fun t => (unitOf t 144).state == .offline &&
      live t Reg.TST_UNIT_RESULT 1 0 == 2) = true ∧
    ok (exec (.deviceSelfTest 0) { sNv 0 0 (ent 0x14 0 [(10, 1)]) with tst := { selfTest := 2 } }) (fun t =>
      memRead (Tab.getD t.host 0 []) 4110 2 == [0x3B, 0x82]) = true := by decide +kernel

/-- An asked and an active injection of a kind. -/
def inj (k c w : Nat) (h : Bool) : Inj := { kind := k, target := 3, param := 0, count := c, windowUs := w, holding := h }

theorem witness_Injections :
    (∀ k ∈ [1, 2, 3, 4, 5, 6, 7, 8], ({ sReady with tst := { injAsked := [(inj k 1 0 true, false)] } } : State).tst.injAsked.find?
        (fun q => q.1.kind == k) = some (inj k 1 0 true, false)) ∧
    (∀ x ∈ [(6, 5, true), (8, 0, true), (7, 0, false), (7, 0, true)], ({ sReady with tst := { injections := [inj x.1 1 x.2.1 x.2.2] } } : State).tst.injections.find?
        (fun j => j.kind == x.1 && j.target == 3) = some (inj x.1 1 x.2.1 x.2.2)) ∧
    sReady.tst.injections.find? (fun j => j.kind == 6 && j.target == 3) = none := by decide +kernel

/-- R740: an asked injection becomes active and its window ends it; STOP cancels everything. -/
theorem test_injections :
    ok (exec .flashBits { sReady with tst := { injAsked := [(inj 4 1 0 true, true)] } }) (fun t =>
      t.tst.injections == [inj 4 1 0 true] && t.tst.autoHeld) = true ∧
    ok (exec (.injectionWindowEnd 6 3) { sReady with tst := { injections := [inj 6 1 5 true] } }) (fun t => t.tst.injections == []) = true ∧
    ok (exec .stop { sReady with tst := { injections := [inj 4 1 0 true] } }) (fun t => t.tst.injections == []) = true := by
  decide +kernel

/-! ## The machine -/

/-- A step runs the command at the front; a tick moves the clock. Memory is canonical at reset, and the life cycle is 0. -/
theorem test_step :
    ok (step { sReady with pending := [.powerOn, .warm] }) (fun t => t.pending == [.warm]) = true ∧
    ok (step sReady) (fun t => t.now == 1) = true ∧ memsWf State.reset = true ∧ State.reset.tru.lifecycle ≤ 2 ∧
    ok (step State.reset) (fun t => memsWf t) = true := by decide +kernel

/-! ## Premises that name a safe moment, a clean word, or work that is left -/

/-- Its channel is in training. -/
def sBusy : State := { sLocal with drc := { chans := [(0, { state := .training })] } }

theorem witness_CleanMemory :
    (∀ w, Tab.getD (coreOf sRegions 0).marks w 0 = 0) ∧ (∀ p, pageGone sRegions 0 p = false) ∧
    (∀ w, Tab.getD sRegions.drc.marks (lword 0 w) 0 = 0) ∧
    (∀ q ∈ pageSpan 0 64, dramStalled sLocal (pageChan sLocal 3 q) = false) ∧
    (¬ ∀ q ∈ pageSpan 0 64, dramStalled sBusy (pageChan sBusy 3 q) = false) :=
  ⟨fun _ => rfl, fun _ => rfl, fun _ => rfl, by decide, by decide⟩

theorem witness_CorePort : coreTakes (coreOf sProg 0) = true ∧ (coreOf sProg 0).slowed = false ∧ (coreOf sProg 0).inq = [] := by
  decide

theorem witness_LoaderKinds :
    req0.kind ≠ 0 ∧ loaderAt (sLoader .fetchHead) .fetchHead req0 ∧ (sLoader .store).cfg.keyUse = none ∧
    fenTicket (fenOf sPort 0) 2 7 = none ∧ (fenOf (setFen sPort 0 { fenOf sPort 0 with hot := 3 }) 0).hot = 3 := by decide

/-- A SHARE set of instance 1 is pending. -/
def sShare : State := setGroup sReady 0x30000C { pending := some [(0x301004, 0x1000)] }

set_option maxRecDepth 20000 in
theorem witness_EpochSets :
    (groupAt sReady 0x300008).pending = none ∧ (groupAt sReady 0x30000C).pending = none ∧
    (groupAt sShare 0x300008).pending = none ∧ (groupAt sShare 0x30000C).pending = some [(0x301004, 0x1000)] ∧
    (Tab.keys [(0x301004, 0x1000)]).Nodup ∧ setRefused sShare 0x30000C [(0x301004, 0x1000)] = false ∧
    sShare.sbx.store = [] := by decide +kernel

set_option maxRecDepth 20000 in
/-- R169, R160: the pending shares take effect as the epoch starts. -/
theorem test_epoch_takes_the_set :
    ok (exec (.epochStart { vMv := 0, vinMv := 0, iinMa := 0, inMw := 0, chgMw := 0, dieMw := 0, fenMw := [7] }) sShare) (fun t =>
      eff t 0x301004 16 0 == 0x1000 &&
      (groupAt t 0x30000C).pending == none && live t Reg.FAB_FEN_POWER 31 16 == 7) = true := by decide +kernel

theorem witness_Islands :
    (let s := sIslands .on 0
     isIslandKey 1 = true ∧ (islandAt s 1).dom = .on ∧ 4 = pointFor 1 (islandAt s 1).minPoint 1200 ∧ 1200 ≤ pointMhz 1 4 ∧
       1 ∈ changesWith 1) ∧
    (let s := { sReady with boot := { phase := .rom, begun := false }, pwr := { thermHold := true, tModel := 100 } }
     s.pwr.thermHold = true ∧ 100 ≤ s.pwr.tModel ∧ s.boot.begun = false) ∧
    (let s := { sReady with boot := { phase := .rom, begun := false }, pwr := { thermHold := true, tModel := 99 } }
     s.pwr.tModel < 100 ∧ s.boot.begun = false) := by decide

/-- R222: under a thermal hold POWER_ON acts below 100 degrees only. -/
theorem test_thermal_hold :
    (let s (t : Int) : State := { sReady with boot := { phase := .rom, begun := false }, pwr := { thermHold := true, tModel := t } }
     ok (exec .powerOn (s 100)) (· == s 100) = true ∧
     ok (exec .powerOn (s 99)) (fun t => t.boot.begun && !t.pwr.thermHold) = true) := by decide

theorem witness_FlashMoments :
    (let s := sFlash { state := .ready, reads := [rd 1 2] }
     (rd 1 2).retries + 1 < eff s (Reg.FCH_CH_CFG + 0x40 * 3) 11 8 ∧ (rd 1 2).tier = 1 ∧ pageLost s (rd 1 2).page = false) := by decide +kernel

theorem witness_Relocation :
    mayRelocate sGroups 5 = true ∧ mayRelocate sGroups 7 = false ∧
    (clearLosses (copyGroup sGroups 5 [] [])).fch.stalled = [] ∧
    (∃ p, (membersOf (sStripe []) 5 p).isEmpty = false) := by
  refine ⟨by decide +kernel, by decide +kernel, by decide +kernel, 1, by decide +kernel⟩

theorem witness_HeldPackets :
    (pk 178 1 [1]).prov = false ∧ (ctxOf (sEng ⟨0, 178, 16, 0⟩ 178 (pk 178 1 [1])) 7 1).held = [] ∧
    (slotPk 186).prov = false ∧ (ctxOf sThrough 7 1).held = [] ∧
    (chanOf (sFlash { state := .ready }) 3).erasing = [] ∧ mayIssue (chanOf (sFlash { state := .ready }) 3) = true := by decide

/-- A slot book in which ports 0 and 2 want bank 4, and one in which an update of bank 1 has waited `n` slots. -/
def sPorts : SlotBook := { ports := [(0, [16]), (2, [16])] }
def sUpdate (n : Nat) : SlotBook := { ports := [(0, [2])], updates := [(1, [n])] }

theorem witness_SlotBook :
    (0 < 2 ∧ 2 < 4 ∧ (16 &&& 16 : Nat) ≠ 0 ∧ sPorts.updates = [] ∧ sPorts.ports = [(0, 16 :: []), (2, 16 :: [])]) ∧
    (bitOf 2 1 = true ∧ (sUpdate 3).ports = [(0, 2 :: [])] ∧ (sUpdate 3).updates = [(1, [3])] ∧ 2 ≤ 3 ∧ 3 < 8) := by decide

/-- R448: one bank serves one port a slot; an update passes the searches once it has waited UPD_WAIT slots. -/
theorem test_slot_step :
    (slotStep 8 sPorts).2 = [2] ∧ (slotStep 8 (sUpdate 8)).2 = [0] ∧ (slotStep 8 (sUpdate 7)).2 = [] ∧
    (slotStep 8 (sUpdate 7)).1.updates = [(1, [8])] := by decide

theorem witness_KeyRequestsKept : (keyR 1).silent = false ∧ (keyR 1).via = none := by decide

theorem witness_Giving :
    (let s := sTen 3 40 4 .ready
     givable s 40 = true ∧ insideOf s 40 = [] ∧ (fenOf s 8).state ≠ .test ∧ (fenOf s 8).state ≠ .offline) ∧
    (let s := { sTenDrain with ten := { sTenDrain.ten with
       reqs := [{ tenR 2 0 with stage := 2 }], withdrawing := [(40, 3)] } }
     insideOf s 40 ≠ [] ∧ s.ten.reqs = [{ tenR 2 0 with stage := 2 }] ∧ (40, 3) ∈ s.ten.withdrawing ∧ (unitOf s 40).owner = 3) := by decide

/-- R603: a DESTROY whose drain has timed out goes on. -/
theorem test_destroy_drain :
    ok (exec (.withdrawDrainTimeout 40) { sTenDrain with ten := { sTenDrain.ten with
      reqs := [{ tenR 2 0 with stage := 2 }], withdrawing := [(40, 3)] } }) (fun t => insideOf t 40 == []) = true := by
  decide +kernel

theorem witness_SpdmSigning :
    derives sReady = true ∧ derives { sReady with tru := { lifecycle := 2 } } = false ∧
    1 ∈ coveredIndices sReady 0 ∧ (measValue sReady 0 1).isSome = true ∧
    ({ regKeys with ecdsaPub := [] } : KeySigs).ecdsaPub.length ≠ 97 ∧
    isAttested (sTru true true .unlocked) { id := 1, fn := 0, established := true, reqKey := some [2], bound := some ([1], [2]) } = true ∧
    isAttested (sTru true false .unlocked) { id := 1, fn := 0, established := true, reqKey := some [2], bound := some ([1], [2]) } =
      false := by decide

/-- R652: a decommissioned device signs nothing; R662: BIND of a key of the wrong length is refused. -/
theorem test_signing :
    ok (exec (.challenge 0 0 []) { sReady with tru := { lifecycle := 2 } }) (fun t => t.tru.reply.map (·.err) == some 5) = true ∧
    ok (exec (.bind 0 (some 1) { regKeys with ecdsaPub := [] }) (sTru true false .unlocked)) (fun t =>
      t.tru.reply.map (·.data) == some [0x10] && live t Reg.TRU_COUNTS 7 0 == 1) = true := by decide +kernel

theorem witness_TilesAndUrgency :
    (let s := sTest { unit := 40, cause := 2 }
     s.tst.urgent = [] ∧ pendingOf s 40 = [] ∧ (32 ≤ 40 → 40 < 72 → 1 ≤ 1) ∧ ¬ 2 ≤ 1) ∧
    (sTake 120 1).tst.urgent = [] ∧ ({ unit := 120, cause := 1 } : Taking).atOnce = false := by decide

/-- R103: one failed tile of fen 40 is spared, two take it out of service. -/
theorem test_fen_tiles :
    ok (exec (.unitTestDone 40 { passed := true, tiles := 1 }) (sTest { unit := 40, cause := 2 })) (fun t =>
      (fenOf t 8).failedTiles == 1 && live t Reg.TST_UNIT_RESULT 1 0 == 0) = true ∧
    ok (exec (.unitTestDone 40 { passed := true, tiles := 2 }) (sTest { unit := 40, cause := 2 })) (fun t => (fenOf t 8).state == .offline) = true := by
  decide +kernel

end Sys2Proof.Tests
end

section
/-! SUPPORT. Registers: sparse collections after a run of writes, single bits, and the register map as a list of rows. -/

namespace Sys2Proof.Tab

variable {α : Type}

/-- Writing at each key of a list a value that depends on the key alone. -/
theorem get?_foldl_set_keys (f : Nat → α) (l : List Nat) (t : Tab α) (k : Nat) :
    get? (l.foldl (fun t a => set t a (f a)) t) k = if k ∈ l then some (f k) else get? t k := by
  induction l generalizing t with
  | nil => simp
  | cons a l ih =>
    rw [List.foldl_cons, ih, get?_set]
    by_cases hl : k ∈ l
    · simp [hl]
    · by_cases ha : k = a <;> simp [hl, ha]

/-- Writing the entries of a collection whose keys differ: each wins over what stood at its key. -/
theorem get?_foldl_set_entries {l : Tab α} (hl : (keys l).Nodup) (t : Tab α) (k : Nat) :
    get? (l.foldl (fun t p => set t p.1 p.2) t) k = (get? l k).or (get? t k) := by
  induction l generalizing t with
  | nil => simp
  | cons p l ih =>
    obtain ⟨hp, hl⟩ := List.nodup_cons.mp hl
    rw [List.foldl_cons, ih hl, get?_set, get?]
    by_cases h : p.1 = k
    · subst h
      have hnone : get? l p.1 = none := by
        rw [← Option.not_isSome_iff_eq_none, ← mem_keys_iff]
        exact hp
      simp [hnone]
    · simp [h, Ne.symm h]

/-- A cut by key alone keeps the keys that pass and drops the others. -/
theorem get?_keep_key (p : Nat → Bool) (t : Tab α) (k : Nat) :
    get? (keep t (fun a _ => p a)) k = if p k then get? t k else none := by
  induction t with
  | nil => simp [keep]
  | cons e t ih =>
    have hk : keep (e :: t) (fun a _ => p a) = if p e.1 then e :: keep t (fun a _ => p a) else keep t (fun a _ => p a) := by
      simp [keep, List.filter_cons]
    rw [hk, get?]
    by_cases h : e.1 = k
    · subst h
      by_cases hp : p e.1 <;> simp [hp, get?, ih]
    · by_cases hp : p e.1 <;> simp [hp, get?, ih, h]

theorem get?_eq_none_iff (t : Tab α) (k : Nat) : get? t k = none ↔ k ∉ keys t := by
  rw [mem_keys_iff, Option.not_isSome_iff_eq_none]

end Sys2Proof.Tab

namespace Sys2Proof

/-! ## Single bits of a word that is written -/

/-- A bit is the field of width one at its place. -/
theorem bitOf_eq_fld (n k : Nat) : bitOf n k = decide (fld n k k = 1) := by
  simp [bitOf, fld, Nat.testBit_eq_decide_div_mod_eq]

theorem bitOf_setFld_same (n k : Nat) : bitOf (setFld n k k 1) k = true := by
  simp [bitOf_eq_fld, fld_setFld_same n (Nat.le_refl k)]

theorem bitOf_setFld_other (n v : Nat) {j k : Nat} (h : j ≠ k) : bitOf (setFld n k k v) j = bitOf n j := by
  rw [bitOf_eq_fld, bitOf_eq_fld, fld_setFld_apart n (Nat.le_refl k) (Nat.le_refl j) (by omega)]

/-- A write of `w` bits carries every bit below `w`. -/
theorem bitOf_mod_two_pow (n : Nat) {k w : Nat} (h : k < w) : bitOf (n % 2 ^ w) k = bitOf n k := by
  simp [bitOf, Nat.testBit_mod_two_pow, h]

/-! ## The register map -/

/-- Every row of the register map. -/
def regRows : List RegRow := (List.range 22).flatMap regBlock ++ regRowsVfp

theorem mem_regRows_of_mem_regBlock {k : Nat} {r : RegRow} (h : r ∈ regBlock k) : r ∈ regRows := by
  by_cases hk : k < 22
  · exact List.mem_append_left _ (List.mem_flatMap.mpr ⟨k, List.mem_range.mpr hk, h⟩)
  · obtain ⟨m, rfl⟩ := Nat.exists_eq_add_of_le' (Nat.le_of_not_lt hk)
    rw [show regBlock (m + 22) = if m + 22 < 256 then [] else regRowsVfp from rfl] at h
    split at h
    · cases h
    · exact List.mem_append_right _ h

theorem findReg_some {a i j : Nat} {r : RegRow} (h : findReg a = some (r, i, j)) :
    r ∈ regRows ∧ r.index a = some (i, j) := by
  obtain ⟨q, hq, hqa⟩ := List.exists_of_findSome?_eq_some h
  obtain ⟨ij, hij, he⟩ := Option.map_eq_some_iff.mp hqa
  cases he
  exact ⟨mem_regRows_of_mem_regBlock hq, hij⟩

/-- An element of a row stands at or above the row's base. -/
theorem RegRow.base_le_of_index {r : RegRow} {a : Nat} {ij : Nat × Nat} (h : r.index a = some ij) : r.base ≤ a := by
  by_contra hlt
  simp [RegRow.index, Nat.lt_of_not_le hlt] at h

/-- The fields of a row lie within 32 bits, from the top down, and none overlaps another. -/
abbrev RegRow.fieldsApart (r : RegRow) : Prop :=
  (∀ f ∈ r.fields, f.lo ≤ f.hi ∧ f.hi < 32) ∧ r.fields.Pairwise (fun f g => g.hi < f.lo)

theorem fieldsApart_of_mem_regRows : ∀ r ∈ regRows, r.fieldsApart := by decide +kernel

/-- The registers that act when they are written, whatever they stage or clear. -/
def actingBases : List Nat := [
  0x300044, 0x400048, 0x600028, 0xA01018, 0xA0101C, 0xA01020, 0xC01004, 0xF01068, 0x1100010, 0x1100080, 0x1200004, 0x1300038,
  0x1500054, Reg.VFP_HOLD, Reg.VFP_FEN_APERTURE]

/-- A register acts through an RW or a WO field. -/
theorem not_acting_of_access : ∀ r ∈ regRows, (∀ f ∈ r.fields, f.acc ≠ .rw ∧ f.acc ≠ .wo) → r.base ∉ actingBases := by
  decide +kernel

theorem base_ne_VFP_LMEM_of_access : ∀ r ∈ regRows, (∀ f ∈ r.fields, f.acc ≠ .w1c) → r.base ≠ Reg.VFP_LMEM := by
  decide +kernel

/-! ## Elements of the register map -/

theorem RegRow.index_of_lone {r : RegRow} {a : Nat} (hs : r.stride = 0) (hs2 : r.stride2 = 0) (ha : r.base < a) :
    r.index a = none := by
  have hd : a - r.base ≠ 0 := by omega
  simp [RegRow.index, hs, hs2, hd]

theorem RegRow.index_element {r : RegRow} {i : Nat} (hs : 0 < r.stride) (hi : i < r.count) (hj : 0 < r.count2) :
    r.index (r.base + r.stride * i) = some (i, 0) := by
  have hlt : ¬ r.base + r.stride * i < r.base := by omega
  simp [RegRow.index, hlt, hs.ne', Nat.mul_div_cancel_left i hs, Nat.mul_comm i, hi, hj]

/-- An array that stands behind lone registers of its block at lower addresses is found at each of its elements. -/
theorem findReg_element {pre post : List RegRow} {r : RegRow} {i : Nat}
    (hblk : regBlock ((r.base + r.stride * i) / 0x100000) = pre ++ r :: post)
    (hpre : ∀ q ∈ pre, q.stride = 0 ∧ q.stride2 = 0 ∧ q.base < r.base) (hs : 0 < r.stride) (hi : i < r.count)
    (hj : 0 < r.count2) : findReg (r.base + r.stride * i) = some (r, i, 0) := by
  have hnone : pre.findSome? (fun q => (q.index (r.base + r.stride * i)).map fun ij => (q, ij.1, ij.2)) = none := by
    refine List.findSome?_eq_none_iff.mpr fun q hq => ?_
    obtain ⟨hq1, hq2, hlt⟩ := hpre q hq
    rw [RegRow.index_of_lone hq1 hq2 (by omega), Option.map_none]
  rw [findReg, hblk, List.findSome?_append, hnone, Option.none_or, List.findSome?_cons, RegRow.index_element hs hi hj]
  rfl

theorem findReg_unitRole {n : Nat} (hn : n < 218) :
    ∃ r, r.base = Reg.DEV_UNIT_ROLE ∧ findReg (Reg.DEV_UNIT_ROLE + 8 * n) = some (r, n, 0) := by
  have hbase : Reg.DEV_UNIT_ROLE = 0x1000 := rfl
  have hblk : (Reg.DEV_UNIT_ROLE + 8 * n) / 0x100000 = 0 := by omega
  exact ⟨regRowsDev[0], rfl, findReg_element (r := regRowsDev[0]) (pre := []) (post := regRowsDev.drop 1)
    (congrArg regBlock hblk) (by simp) (by decide) hn (by decide)⟩

theorem findReg_keySlotStatus {n : Nat} (hn : n < 4096) :
    ∃ r, r.base = Reg.KEY_SLOT_STATUS ∧ findReg (Reg.KEY_SLOT_STATUS + 0x10 * n) = some (r, n, 0) := by
  have hbase : Reg.KEY_SLOT_STATUS = 0x901000 := rfl
  have hblk : (Reg.KEY_SLOT_STATUS + 0x10 * n) / 0x100000 = 9 := by omega
  exact ⟨regRowsKey[9], rfl, findReg_element (r := regRowsKey[9]) (pre := regRowsKey.take 9) (post := regRowsKey.drop 10)
    (congrArg regBlock hblk) (by decide) (by decide) hn (by decide)⟩

end Sys2Proof
end

section
/-! SUPPORT. Registers: what a read and a write of a plain register do (00_scope.md, R6–R12). -/

namespace Sys2Proof.Machine

variable {s t u : State} {a i j : Nat} {r : RegRow} {ide : Option Nat}

/-! ## States that differ in their registers alone -/

theorem onlyRegs_refl (s : State) : onlyRegs s s := rfl

theorem onlyRegs_trans (h : onlyRegs s t) (k : onlyRegs t u) : onlyRegs s u := by
  have hu : u = { t with regs := u.regs } :=
    calc u = { { u with regs := t.regs } with regs := u.regs } := rfl
      _ = { t with regs := u.regs } := by rw [show { u with regs := t.regs } = t from k]
  rw [hu]
  exact h

theorem setLive_onlyRegs (s : State) (a hi lo v : Nat) : onlyRegs s (setLive s a hi lo v) := rfl

/-! ## Clearing fields of one register -/

/-- The device zeroes some fields of the register at `a` in turn, as W1C writes and RC reads do (R9). -/
def zeroFields (s : State) (a : Nat) (fs : List RegField) : State :=
  fs.foldl (fun s f => setLive s a f.hi f.lo 0) s

@[simp] theorem zeroFields_nil (s : State) (a : Nat) : zeroFields s a [] = s := rfl

theorem zeroFields_cons (s : State) (a : Nat) (f : RegField) (fs : List RegField) :
    zeroFields s a (f :: fs) = zeroFields (setLive s a f.hi f.lo 0) a fs := rfl

theorem zeroFields_onlyRegs (s : State) (a : Nat) (fs : List RegField) : onlyRegs s (zeroFields s a fs) := by
  induction fs generalizing s with
  | nil => exact onlyRegs_refl s
  | cons f fs ih => exact onlyRegs_trans (setLive_onlyRegs s a f.hi f.lo 0) (ih _)

@[simp] theorem stagedWord_zeroFields (s : State) (a b : Nat) (fs : List RegField) :
    stagedWord (zeroFields s a fs) b = stagedWord s b := by
  induction fs generalizing s with
  | nil => rfl
  | cons f fs ih => rw [zeroFields_cons, ih, stagedWord_setLive]

@[simp] theorem effWord_zeroFields (s : State) (a b : Nat) (fs : List RegField) :
    effWord (zeroFields s a fs) b = effWord s b := by
  induction fs generalizing s with
  | nil => rfl
  | cons f fs ih => rw [zeroFields_cons, ih, effWord_setLive]

theorem liveWord_zeroFields_other (s : State) {a b : Nat} (h : b ≠ a) (fs : List RegField) :
    liveWord (zeroFields s a fs) b = liveWord s b := by
  induction fs generalizing s with
  | nil => rfl
  | cons f fs ih => rw [zeroFields_cons, ih, liveWord_setLive, if_neg h]

/-- A field above all those cleared keeps its value. -/
theorem live_zeroFields_above (s : State) (a : Nat) {fs : List RegField} {h l : Nat} (hl : l ≤ h)
    (hfs : ∀ f ∈ fs, f.lo ≤ f.hi ∧ f.hi < l) : live (zeroFields s a fs) a h l = live s a h l := by
  induction fs generalizing s with
  | nil => rfl
  | cons f fs ih =>
    obtain ⟨hf, hfs⟩ := List.forall_mem_cons.mp hfs
    rw [zeroFields_cons, ih _ hfs, live_setLive_apart s a f.hi f.lo 0 hf.1 hl (.inr hf.2)]

/-- Each field cleared reads 0. -/
theorem live_zeroFields_mem (s : State) (a : Nat) {fs : List RegField} {f : RegField}
    (hw : ∀ f ∈ fs, f.lo ≤ f.hi) (ha : fs.Pairwise (fun f g => g.hi < f.lo)) (hf : f ∈ fs) :
    live (zeroFields s a fs) a f.hi f.lo = 0 := by
  induction fs generalizing s with
  | nil => cases hf
  | cons g fs ih =>
    obtain ⟨hg, hws⟩ := List.forall_mem_cons.mp hw
    obtain ⟨hgs, has⟩ := List.pairwise_cons.mp ha
    rw [zeroFields_cons]
    rcases List.mem_cons.mp hf with rfl | hf
    · rw [live_zeroFields_above _ a hg (fun x hx => ⟨hws x hx, hgs x hx⟩), live_setLive_same s a _ _ 0 hg, Nat.zero_mod]
    · exact ih _ hws has hf

/-- Of the fields of one row, each that a filter picks reads 0 once the picked ones are cleared. -/
theorem live_zeroFields_filter (s : State) (a : Nat) {f : RegField} (p : RegField → Bool) (hr : r ∈ regRows)
    (hf : f ∈ r.fields) (hp : p f = true) : live (zeroFields s a (r.fields.filter p)) a f.hi f.lo = 0 := by
  obtain ⟨hw, ha⟩ := fieldsApart_of_mem_regRows r hr
  exact live_zeroFields_mem s a (fun f hf => (hw f (List.mem_of_mem_filter hf)).1) (ha.filter p)
    (List.mem_filter.mpr ⟨hf, hp⟩)

/-! ## What a write does, one part after another (R9, R12) -/

theorem putFields_of_none {acc : Access} (h : ∀ f ∈ r.fields, f.acc ≠ acc) (old v : Nat) : putFields r acc old v = old := by
  have hnil : r.fields.filter (fun f => f.acc = acc) = [] := List.filter_eq_nil_iff.mpr (by simpa using h)
  rw [putFields, hnil, List.foldl_nil]

/-- A write that stages changes staged values alone. -/
theorem stageReg_eq (s : State) (a v : Nat) : ∃ st, stageReg s a v = { s with regs := { s.regs with staged := st } } := by
  unfold stageReg
  split
  · exact ⟨s.regs.staged, rfl⟩
  · dsimp only
    split
    · exact ⟨s.regs.staged, rfl⟩
    · exact ⟨_, rfl⟩

theorem stageReg_onlyRegs (s : State) (a v : Nat) : onlyRegs s (stageReg s a v) := by
  obtain ⟨st, h⟩ := stageReg_eq s a v
  rw [h]
  rfl

@[simp] theorem effWord_stageReg (s : State) (a b v : Nat) : effWord (stageReg s a v) b = effWord s b := by
  obtain ⟨st, h⟩ := stageReg_eq s a v
  rw [h]
  rfl

@[simp] theorem liveWord_stageReg (s : State) (a b v : Nat) : liveWord (stageReg s a v) b = liveWord s b := by
  obtain ⟨st, h⟩ := stageReg_eq s a v
  rw [h]
  rfl

/-- What a write stages: the RWS fields at its own address. -/
theorem stagedWord_stageReg (h : findReg a = some (r, i, j)) (s : State) (b v : Nat) :
    stagedWord (stageReg s a v) b = if b = a then putFields r .rws (stagedWord s a) v else stagedWord s b := by
  by_cases hw : putFields r .rws (stagedWord s a) v = stagedWord s a
  · have hself : stageReg s a v = s := by simp [stageReg, h, hw]
    rw [hself]
    split
    · next hb => rw [hb, hw]
    · rfl
  · have hset : stageReg s a v =
        { s with regs := { s.regs with staged := Tab.set s.regs.staged a (putFields r .rws (stagedWord s a) v) } } := by
      simp [stageReg, h, hw]
    rw [hset, stagedWord, Tab.get?_set]
    split <;> rfl

theorem stageReg_of_no_rws (h : findReg a = some (r, i, j)) (hacc : ∀ f ∈ r.fields, f.acc ≠ .rws) (s : State) (v : Nat) :
    stageReg s a v = s := by
  simp [stageReg, h, putFields_of_none hacc]

/-- The W1C fields of a row that a write of `v` clears. -/
def onesOf (r : RegRow) (v : Nat) : List RegField := r.fields.filter (fun f => bitOf v f.lo && decide (f.acc = .w1c))

theorem clearOnes_eq (hb : r.base ≠ Reg.VFP_LMEM) (s : State) (i a v : Nat) :
    clearOnes s r i a v = zeroFields s a (onesOf r v) := by
  rw [clearOnes, if_neg hb, zeroFields, onesOf, ← List.filter_filter]
  exact (List.foldl_filter ..).symm

theorem onesOf_of_no_w1c (h : ∀ f ∈ r.fields, f.acc ≠ .w1c) (v : Nat) : onesOf r v = [] :=
  List.filter_eq_nil_iff.mpr (fun f hf => by simp [h f hf])

theorem writeNow_of_not_acting (h : r.base ∉ actingBases) (s : State) (i a v : Nat) : writeNow s r i a v = s := by
  unfold writeNow
  split <;> simp_all [actingBases]

theorem pageNow_of_not_acting (h : r.base ∉ actingBases) (s : State) (i j v : Nat) : pageNow s r i j v = s := by
  have hold : r.base ≠ Reg.VFP_HOLD := fun e => h (by rw [e]; decide)
  have haperture : r.base ≠ Reg.VFP_FEN_APERTURE := fun e => h (by rw [e]; decide)
  rw [pageNow, if_neg hold, if_neg haperture]

/-- A register without RW and WO fields stages, then clears, and does nothing else. -/
theorem writeReg_of_not_acting (h : r.base ∉ actingBases) (hb : r.base ≠ Reg.VFP_LMEM) (s : State) (i j a v : Nat) :
    writeReg s r i j a v = zeroFields (stageReg s a v) a (onesOf r v) := by
  rw [writeReg, clearOnes_eq hb]
  split
  · exact pageNow_of_not_acting h _ i j v
  · exact writeNow_of_not_acting h _ i a v

/-- The 32-bit write of a plain register. -/
theorem regWrite_of_plainReg (h : plainReg s a r i j) (v : Nat) : regWrite s a v = writeReg s r i j a (v % 2 ^ 32) := by
  obtain ⟨hnvme, halign, -, hans, hwin, hcommit, hfind⟩ := h
  simp [regWrite, barWrite, hnvme, halign, hans, hwin, hcommit, hfind]

theorem mem_regRows_of_plainReg (h : plainReg s a r i j) : r ∈ regRows := by
  obtain ⟨-, -, -, -, -, -, hfind⟩ := h
  exact (findReg_some hfind).1

theorem exec_registerWrite (s : State) (a n : Nat) (v : BitVec 64) (ide : Option Nat) :
    exec (.registerWrite ⟨a, ide⟩ n v) s =
      .next (if mmioTravels s (pageInst a) ide then regStore s a n v.toNat else s) := rfl

/-! ## What a read does, one part after another (R7, R9) -/

/-- The state with what a register read returned (log 10). -/
def withReadData (s : State) (n : Nat) : State := { s with regs := { s.regs with readData := n } }

theorem withReadData_onlyRegs (s : State) (n : Nat) : onlyRegs s (withReadData s n) := rfl

theorem readReg_eq (s : State) (a : Nat) : readReg s a = withReadData (regRead s a).2 (regRead s a).1 := rfl

/-- The read of an aligned register that answers. -/
theorem readReg_of_findReg (hnvme : nvmeReg a = none) (halign : a % 4 = 0) (hans : regAnswers s a = true)
    (hwin : windowAt s a = none) (hfind : findReg a = some (r, i, j)) :
    readReg s a = withReadData (readEffect s r i j a) (shownAt s a) := by
  rw [readReg_eq]
  simp [regRead, barRead, hnvme, halign, hans, hwin, hfind]

theorem readReg_of_plainReg (h : plainReg s a r i j) : readReg s a = withReadData (readEffect s r i j a) (shownAt s a) := by
  obtain ⟨hnvme, halign, -, hans, hwin, -, hfind⟩ := h
  exact readReg_of_findReg hnvme halign hans hwin hfind

/-- An address of an operator block is no register of a controller and of no page. -/
theorem nvmeReg_of_lt (h : a < 0x10000000) : nvmeReg a = none := by
  have hbar2 : bar2 = 0x30000000 := rfl
  rw [nvmeReg, if_neg (by omega), if_neg (by omega)]

theorem pageInst_of_lt (h : a < 0x10000000) : pageInst a = none := if_neg (by omega)

theorem windowAt_of_lt (h : a < 0x10000000) (hw : a < 0x208000 ∨ 0x230000 ≤ a) (s : State) : windowAt s a = none := by
  rw [windowAt, if_neg (by omega), pageInst_of_lt h]

/-- The RC fields of a row. -/
def rcOf (r : RegRow) : List RegField := r.fields.filter (fun f => f.acc = .rc)

theorem clearRc_eq (h1 : r.base ≠ Reg.PWR_CLASS_MJ) (h2 : r.base ≠ Reg.VFP_LMEM_LOST) (s : State) (i a : Nat) :
    clearRc s r i a = zeroFields s a (rcOf r) := by
  rw [clearRc, if_neg h1, if_neg h2]
  rfl

theorem clearRc_of_no_rc (h1 : r.base ≠ Reg.PWR_CLASS_MJ) (h2 : r.base ≠ Reg.VFP_LMEM_LOST)
    (hacc : ∀ f ∈ r.fields, f.acc ≠ .rc) (s : State) (i a : Nat) : clearRc s r i a = s := by
  have hnil : rcOf r = [] := List.filter_eq_nil_iff.mpr (by simpa using hacc)
  rw [clearRc_eq h1 h2, hnil, zeroFields_nil]

/-- R29: what the read of DEV_UNIT_ROLE leaves behind. -/
theorem readEffect_unitRole (hb : r.base = Reg.DEV_UNIT_ROLE) (s : State) (i j a : Nat) : readEffect s r i j a =
    { s with dev := { s.dev with genLatch := Tab.set s.dev.genLatch i (unitGenWord s i) } } := if_pos hb

/-- R408: what the read of KEY_SLOT_STATUS leaves behind. -/
theorem readEffect_keySlotStatus (hb : r.base = Reg.KEY_SLOT_STATUS) (s : State) (i j a : Nat) :
    readEffect s r i j a = latchSlot s i := by
  rw [readEffect, if_neg (by rw [hb]; decide), if_pos hb]

/-- R7: what the read of the _LO half of a pair without RC fields leaves behind. -/
theorem readEffect_lo {h : RegRow} {i' j' : Nat} (hlo : isLo a = true) (hhi : findReg (a + 4) = some (h, i', j'))
    (hacc : ∀ f ∈ r.fields, f.acc ≠ .rc) (hrole : r.base ≠ Reg.DEV_UNIT_ROLE) (hslot : r.base ≠ Reg.KEY_SLOT_STATUS)
    (hevr : r.base ≠ Reg.EVR_OLDEST_SEQ_LO) (hmj : r.base ≠ Reg.PWR_CLASS_MJ) (hlost : r.base ≠ Reg.VFP_LMEM_LOST)
    (s : State) (i j : Nat) : readEffect s r i j a =
      { s with regs := { s.regs with loLatch := Tab.set s.regs.loLatch a (shownWord s h i' j' (a + 4)) } } := by
  simp [readEffect, hrole, hslot, hlo, hhi, hevr, clearRc_of_no_rc hmj hlost hacc]

/-- R9: what the read of a register that is no _LO half leaves behind. -/
theorem readEffect_rc (hlo : isLo a = false) (hrole : r.base ≠ Reg.DEV_UNIT_ROLE) (hslot : r.base ≠ Reg.KEY_SLOT_STATUS)
    (hevr : r.base ≠ Reg.EVR_OLDEST_SEQ_LO) (hmj : r.base ≠ Reg.PWR_CLASS_MJ) (hlost : r.base ≠ Reg.VFP_LMEM_LOST)
    (s : State) (i : Nat) : readEffect s r i 0 a = zeroFields s a (rcOf r) := by
  simp [readEffect, hrole, hslot, hlo, hevr, clearRc_eq hmj hlost]

/-- A _HI half shows what the last read of its _LO latched (R7). -/
theorem shownAt_hi (hlo : isLo a = true) (s : State) : shownAt s (a + 4) = Tab.getD s.regs.loLatch a 0 := by
  rw [shownAt, Nat.add_sub_cancel, if_pos ⟨by omega, hlo⟩]

end Sys2Proof.Machine
end

section
/-! SUPPORT. Commit groups: sets, the writes of a COMMIT register, and a pending set at its safe point (00_scope.md,
R12–R16). -/

namespace Sys2Proof.Machine

variable {s t u : State} {a c : Nat} {w : Word} {set : Tab Nat} {ide : Option Nat}

/-! ## Sets and staged values (R12, R13) -/

theorem stagedWord_of_not_listed (h : a ∉ Tab.keys s.regs.staged) : stagedWord s a = resetOf a := by
  rw [stagedWord, (Tab.get?_eq_none_iff _ a).mpr h, Option.getD_none]

theorem effWord_of_not_listed (h : a ∉ Tab.keys s.regs.eff) : effWord s a = resetOf a := by
  rw [effWord, (Tab.get?_eq_none_iff _ a).mpr h, Option.getD_none]

/-- The registers of the group at `c` that are listed as staged or as effective. -/
def listedIn (s : State) (c : Nat) : List Nat :=
  (Tab.keys s.regs.staged ++ Tab.keys s.regs.eff).filter (fun a => commitOf a == c)

theorem not_listed_of_not_mem_listedIn (hc : commitOf a = c) (h : a ∉ listedIn s c) :
    a ∉ Tab.keys s.regs.staged ∧ a ∉ Tab.keys s.regs.eff := by
  simpa [listedIn, hc] using h

theorem get?_stagedSet (s : State) (c a : Nat) :
    Tab.get? (stagedSet s c) a = if a ∈ listedIn s c then some (stagedWord s a) else none := by
  rw [stagedSet]
  exact Tab.get?_foldl_set_keys (stagedWord s) (listedIn s c) [] a

/-- GO takes every staged value of the group, listed or not. -/
theorem inSet_stagedSet (hc : commitOf a = c) : inSet (stagedSet s c) a = stagedWord s a := by
  rw [inSet, get?_stagedSet]
  by_cases h : a ∈ listedIn s c
  · simp [h]
  · obtain ⟨hstaged, -⟩ := not_listed_of_not_mem_listedIn hc h
    simp [h, stagedWord_of_not_listed hstaged]

theorem mem_keys_stagedSet (s : State) (c a : Nat) : a ∈ Tab.keys (stagedSet s c) ↔ a ∈ listedIn s c := by
  rw [Tab.mem_keys_iff, get?_stagedSet]
  split <;> simp [*]

/-- DISCARD sets every staged value of the group back to its effective value, listed or not. -/
theorem stagedWord_groupDiscard (hc : commitOf a = c) : stagedWord (groupDiscard s c) a = effWord s a := by
  have hget : Tab.get? (groupDiscard s c).regs.staged a =
      if a ∈ Tab.keys (stagedSet s c) then some (effWord s a) else Tab.get? s.regs.staged a := by
    rw [← Tab.get?_foldl_set_keys (effWord s), Tab.keys, List.foldl_map]
    rfl
  rw [stagedWord, hget]
  by_cases h : a ∈ listedIn s c
  · rw [if_pos ((mem_keys_stagedSet s c a).mpr h), Option.getD_some]
  · obtain ⟨hstaged, heff⟩ := not_listed_of_not_mem_listedIn hc h
    rw [if_neg (mt (mem_keys_stagedSet s c a).mp h), effWord_of_not_listed heff]
    exact stagedWord_of_not_listed hstaged

/-! ## Writes of a COMMIT register (R13–R15) -/

/-- The state once a write of `v` has cleared the bits SUPERSEDED and REJECTED of the group at `c` that it writes as 1. -/
def commitCleared (s : State) (c v : Nat) : State :=
  setGroup s c { groupAt s c with
    superseded := (groupAt s c).superseded && !bitOf v 4, rejected := (groupAt s c).rejected && !bitOf v 3 }

theorem commitWrite_go (s : State) (c : Nat) {v : Nat} (h : bitOf v 1 = false) :
    commitWrite s c (setFld v 0 0 1) = groupGo (commitCleared s c v) c := by
  simp [commitWrite, bitOf_setFld_same, bitOf_setFld_other, h, commitCleared]

theorem commitWrite_discard (s : State) (c : Nat) {v : Nat} (h : bitOf v 0 = false) :
    commitWrite s c (setFld v 1 1 1) = groupDiscard (commitCleared s c v) c := by
  simp [commitWrite, bitOf_setFld_same, bitOf_setFld_other, h, commitCleared]

/-- R14. -/
theorem commitWrite_both (s : State) (c : Nat) {v : Nat} (h0 : bitOf v 0 = true) (h1 : bitOf v 1 = true) :
    commitWrite s c v = s := by
  simp [commitWrite, h0, h1]

theorem barWrite_of_commitReg (h : commitReg s c) (v : Nat) : barWrite s c v = commitWrite s c v := by
  obtain ⟨hcommit, halign, hans, hwin⟩ := h
  simp [barWrite, halign, hans, hwin, hcommit]

theorem exec_commitGo (h : commitReg s c) (w : Word) (ide : Option Nat) : exec (.commitGo ⟨c, ide⟩ w) s =
    .next (if mmioTravels s (pageInst c) ide then commitWrite s c (setFld w.toNat 0 0 1) else s) := by
  rw [← barWrite_of_commitReg h]
  exact congrArg (fun x => Host.Outcome.next (if mmioTravels s (pageInst c) ide then x else s)) (if_pos h.1)

theorem exec_commitDiscard (h : commitReg s c) (w : Word) (ide : Option Nat) : exec (.commitDiscard ⟨c, ide⟩ w) s =
    .next (if mmioTravels s (pageInst c) ide then commitWrite s c (setFld w.toNat 1 1 1) else s) := by
  rw [← barWrite_of_commitReg h]
  exact congrArg (fun x => Host.Outcome.next (if mmioTravels s (pageInst c) ide then x else s)) (if_pos h.1)

/-! ## Operations that leave every commit group alone -/

/-- `t` has the staged values, the effective values and the groups of `s`. -/
def SameCommits (s t : State) : Prop :=
  t.regs.staged = s.regs.staged ∧ t.regs.eff = s.regs.eff ∧ t.regs.groups = s.regs.groups

namespace SameCommits

theorem refl (s : State) : SameCommits s s := ⟨rfl, rfl, rfl⟩

theorem trans (h : SameCommits s t) (k : SameCommits t u) : SameCommits s u := by
  obtain ⟨hs, he, hg⟩ := h
  obtain ⟨ks, ke, kg⟩ := k
  exact ⟨ks.trans hs, ke.trans he, kg.trans hg⟩

theorem of_regs (h : t.regs = s.regs) : SameCommits s t := by
  rw [SameCommits, h]
  exact ⟨rfl, rfl, rfl⟩

theorem stagedWord (h : SameCommits s t) (a : Nat) : stagedWord t a = stagedWord s a := by
  obtain ⟨hs, -, -⟩ := h
  rw [Machine.stagedWord, hs, Machine.stagedWord]

theorem effWord (h : SameCommits s t) (a : Nat) : effWord t a = effWord s a := by
  obtain ⟨-, he, -⟩ := h
  rw [Machine.effWord, he, Machine.effWord]

theorem groupAt (h : SameCommits s t) (c : Nat) : groupAt t c = groupAt s c := by
  obtain ⟨-, -, hg⟩ := h
  rw [Machine.groupAt, hg, Machine.groupAt]

theorem ite {p : Prop} [Decidable p] (h : SameCommits s t) (k : SameCommits s u) : SameCommits s (if p then t else u) := by
  split <;> assumption

theorem setLive (s : State) (a hi lo v : Nat) : SameCommits s (setLive s a hi lo v) := ⟨rfl, rfl, rfl⟩

theorem bump (s : State) (a hi lo k : Nat) : SameCommits s (bump s a hi lo k) := ⟨rfl, rfl, rfl⟩

theorem writeRecord (s : State) (r : EventRec) : SameCommits s (writeRecord s r) :=
  of_regs ((writeRecord_keeps s r).regs rfl)

theorem putRecord (s : State) (r : EventRec) : SameCommits s (putRecord s r) := by
  unfold Machine.putRecord
  split
  · split
    · exact refl s
    · exact bump s _ _ _ _
  · exact writeRecord s r

theorem foldl {α : Type} {f : State → α → State} (hf : ∀ s x, SameCommits s (f s x)) (l : List α) (s : State) :
    SameCommits s (l.foldl f s) := by
  induction l generalizing s with
  | nil => exact refl s
  | cons x l ih => exact (hf s x).trans (ih _)

theorem endSecond (s : State) : SameCommits s (endSecond s) :=
  (of_regs rfl).trans (foldl (fun s _ => (bump s _ _ _ _).trans (putRecord _ _)) _ _)

/-- Recording an event changes no commit group: of the registers it touches the recorder's counters alone. -/
theorem record (s : State) (event sev status unit inst : Nat) (detail : Bytes) :
    SameCommits s (record s event sev status unit inst detail) := by
  have hput (fresh : Prop) [Decidable fresh] (e : Evr) :
      SameCommits s { (if fresh then Machine.endSecond s else s) with evr := e } := by
    split
    · exact (endSecond s).trans (of_regs rfl)
    · exact of_regs rfl
  unfold Machine.record
  dsimp only
  split
  · exact putRecord s _
  · exact ite ((hput _ _).trans (writeRecord _ _)) (hput _ _)

theorem setHealth (s : State) (b : Nat) (on : Bool) : SameCommits s (setHealth s b on) := by
  unfold Machine.setHealth
  dsimp only
  split
  · exact refl s
  · split
    · exact (setLive s _ _ _ _).trans (record _ _ _ _ _ _ _)
    · exact setLive s _ _ _ _

theorem judgeSpare (s : State) : SameCommits s (judgeSpare s) := by
  unfold Machine.judgeSpare
  exact ite (((setHealth s _ _).trans (of_regs rfl)).trans (setHealth _ _ _)) (setHealth s _ _)

theorem judgeFold (s : State) : SameCommits s (judgeFold s) := of_regs rfl

theorem saveSettings (s : State) : SameCommits s (saveSettings s) := of_regs rfl

end SameCommits

/-! ## A pending set at its safe point (R12, R16) -/

theorem exec_commitTakesEffect (s : State) (c : Nat) : exec (.commitTakesEffect c) s = .next (commitEffect s c) := rfl

theorem commitEffect_of_pending (h : (groupAt s c).pending = some set) :
    commitEffect s c = if atSafePoint s c then judgeSet s c set else s := by
  rw [commitEffect, h]

/-- R16: of the commit groups a refusal changes the flags of its own. -/
theorem refuseSet_sameCommits (s : State) (c unit : Nat) : SameCommits
    (setGroup s c { groupAt s c with pending := none, rejected := true, due := false }) (refuseSet s c unit) :=
  SameCommits.record ..

/-- The effective values once a set has been taken. -/
theorem takeSet_eff (h : (groupAt s c).pending = some set) :
    (takeSet s c).regs.eff =
      set.foldl (fun t p => Tab.set t p.1 p.2) (Tab.keep s.regs.eff (fun a _ => commitOf a != c)) := by
  rw [takeSet, h]

theorem groupAt_takeSet (h : (groupAt s c).pending = some set) :
    (groupAt (takeSet s c) c).pending = none := by
  have hgroup : groupAt (takeSet s c) c = { groupAt s c with pending := none, due := false } := by
    rw [takeSet, h]
    exact groupAt_setGroup_same ..
  rw [hgroup]

/-- R12: every register of the group takes its value in the set. -/
theorem effWord_takeSet_of_group (h : (groupAt s c).pending = some set) (hset : (Tab.keys set).Nodup)
    (hc : commitOf a = c) : effWord (takeSet s c) a = inSet set a := by
  have hkeep : Tab.get? (Tab.keep s.regs.eff (fun a _ => commitOf a != c)) a = none := by
    simp [Tab.get?_keep_key, hc]
  rw [effWord, takeSet_eff h, Tab.get?_foldl_set_entries hset, hkeep, Option.or_none, inSet]

/-- R12: no register outside the group and the set changes. -/
theorem effWord_takeSet_other (h : (groupAt s c).pending = some set) (hset : (Tab.keys set).Nodup)
    (hc : commitOf a ≠ c) (ha : Tab.get? set a = none) : effWord (takeSet s c) a = effWord s a := by
  have hkeep : Tab.get? (Tab.keep s.regs.eff (fun a _ => commitOf a != c)) a = Tab.get? s.regs.eff a := by
    simp [Tab.get?_keep_key, hc]
  rw [effWord, takeSet_eff h, Tab.get?_foldl_set_entries hset, ha, Option.none_or, hkeep, effWord]

/-- The groups whose values bring nothing with them beyond the folding and the spare judgement of the map engine. -/
def plainGroups : List Nat := [
  0x300008, 0x30000C, 0x400018, 0x40002C, 0x40003C, 0x400044, 0x600014, 0x60001C, 0x600108, 0x700014, 0x800014, 0xB00014,
  0x120000C, 0xE00048]

/-- No plain group is one of an array. -/
theorem arrayEffect_of_plain (hc : c ∈ plainGroups) (o s : State) : arrayEffect o s c = s := by
  have hnone : ∀ c ∈ plainGroups, groupIndex c 0xA01014 0x80 8 = none ∧ groupIndex c 0xD01008 0x40 4 = none ∧
      groupIndex c 0x501008 0x40 32 = none ∧ groupIndex c 0xF01064 0x40 511 = none ∧ pageGroup c 0x2028 = none ∧
      pageGroup c 0x2084 = none ∧ pageGroup c 0x209C = none := by decide
  obtain ⟨h1, h2, h3, h4, h5, h6, h7⟩ := hnone c hc
  simp only [arrayEffect, h1, h2, h3, h4, h5, h6, h7]

theorem blockEffect_of_plain (hc : c ∈ plainGroups) (o s : State) : SameCommits s (blockEffect o s c) := by
  by_cases hfold : c = 0x600014
  · subst hfold
    exact SameCommits.judgeFold s
  by_cases hspare : c = 0x600108
  · subst hspare
    exact SameCommits.judgeSpare s
  have hself : blockEffect o s c = s := by
    unfold blockEffect
    split <;> simp_all [plainGroups]
  rw [hself]
  exact SameCommits.refl s

/-- An accepted set of a plain group changes the commit groups as `takeSet` does. -/
theorem judgeSet_of_plain (hc : c ∈ plainGroups) (hok : setRefused s c set = false) :
    SameCommits (takeSet s c) (judgeSet s c set) := by
  have hsave : SameCommits (takeSet s c) (if isSetting c then saveSettings (takeSet s c) else takeSet s c) :=
    SameCommits.ite (SameCommits.saveSettings _) (SameCommits.refl _)
  rw [judgeSet, if_neg (by rw [hok]; decide), arrayEffect_of_plain hc]
  exact hsave.trans (blockEffect_of_plain hc s _)

end Sys2Proof.Machine
end

section
/-! The obligations of 00_scope.md: first the clauses of each, then the theorems that settle them. -/

namespace Sys2Proof.Machine

section
variable {s : State} {a i j : Nat} {r : RegRow} {v : BitVec 64} {ide : Option Nat}

/-! ## Writes by access type -/

theorem exec_registerWrite_plain (h : plainReg s a r i j) (ht : mmioTravels s (pageInst a) ide = true) :
    exec (.registerWrite ⟨a, ide⟩ 4 v) s = .next (writeReg s r i j a (v.toNat % 2 ^ 32)) := by
  rw [exec_registerWrite, if_pos ht, regStore, if_pos rfl, regWrite_of_plainReg h, Nat.mod_mod]

/-- A register whose fields are RWS, RO and RC only stages (R9, R12). -/
theorem writeReg_of_rws_ro_rc (hr : r ∈ regRows) (hacc : ∀ f ∈ r.fields, f.acc = .rws ∨ f.acc = .ro ∨ f.acc = .rc)
    (s : State) (i j a v : Nat) : writeReg s r i j a v = stageReg s a v := by
  have hact := not_acting_of_access r hr (fun f hf => by rcases hacc f hf with e | e | e <;> simp [e])
  have hw1c : ∀ f ∈ r.fields, f.acc ≠ .w1c := fun f hf => by rcases hacc f hf with e | e | e <;> simp [e]
  rw [writeReg_of_not_acting hact (base_ne_VFP_LMEM_of_access r hr hw1c), onesOf_of_no_w1c hw1c, zeroFields_nil]

/-- A register of the operator whose fields are W1C, RO and RC only clears the ones written (R9). -/
theorem writeReg_of_w1c_ro_rc (hr : r ∈ regRows) (hfind : findReg a = some (r, i, j)) (hlow : a < 0x10000000)
    (hacc : ∀ f ∈ r.fields, f.acc = .w1c ∨ f.acc = .ro ∨ f.acc = .rc) (s : State) (v : Nat) :
    writeReg s r i j a v = zeroFields s a (onesOf r v) := by
  have hact := not_acting_of_access r hr (fun f hf => by rcases hacc f hf with e | e | e <;> simp [e])
  have hrws : ∀ f ∈ r.fields, f.acc ≠ .rws := fun f hf => by rcases hacc f hf with e | e | e <;> simp [e]
  have hlmem : r.base ≠ Reg.VFP_LMEM := by
    have hbase := RegRow.base_le_of_index (findReg_some hfind).2
    have hpage : 0x10000000 ≤ Reg.VFP_LMEM := by decide
    omega
  rw [writeReg_of_not_acting hact hlmem, stageReg_of_no_rws hfind hrws]

/-- An operator register that answers lies in BAR0. -/
theorem lt_bar0_of_regAnswers (h : regAnswers s a = true) (hp : pageInst a = none) : a < 0x10000000 := by
  simp only [regAnswers, hp, Bool.and_eq_true, decide_eq_true_eq] at h
  obtain ⟨-, hlow, -⟩ := h
  exact hlow

/-- R12: an RWS field is staged, and nothing else changes. -/
theorem registerWrite_stages (h : plainReg s a r i j) (ht : mmioTravels s (pageInst a) ide = true)
    (hacc : ∀ f ∈ r.fields, f.acc = .rws ∨ f.acc = .ro ∨ f.acc = .rc) :
    Nexts (exec (.registerWrite ⟨a, ide⟩ 4 v) s) (fun t =>
      stagedWord t a = putFields r .rws (stagedWord s a) (v.toNat % 2 ^ 32) ∧
      (∀ b, b ≠ a → stagedWord t b = stagedWord s b) ∧ (∀ b, effWord t b = effWord s b) ∧
      (∀ b, liveWord t b = liveWord s b) ∧ onlyRegs s t) := by
  have hwrite := exec_registerWrite_plain (v := v) h ht
  rw [writeReg_of_rws_ro_rc (mem_regRows_of_plainReg h) hacc] at hwrite
  obtain ⟨-, -, -, -, -, -, hfind⟩ := h
  refine ⟨_, hwrite, ?_, fun b hb => ?_, fun b => effWord_stageReg s a b _,
    fun b => liveWord_stageReg s a b _, stageReg_onlyRegs s a _⟩
  · rw [stagedWord_stageReg hfind, if_pos rfl]
  · rw [stagedWord_stageReg hfind, if_neg hb]

/-- R9: each 1 written to a W1C field clears it. -/
theorem registerWrite_clearsOnes (h : plainReg s a r i j) (hp : pageInst a = none)
    (hacc : ∀ f ∈ r.fields, f.acc = .w1c ∨ f.acc = .ro ∨ f.acc = .rc) :
    Nexts (exec (.registerWrite ⟨a, ide⟩ 4 v) s) (fun t =>
      (∀ f ∈ r.fields, f.acc = .w1c → v.toNat.testBit f.lo = true → live t a f.hi f.lo = 0) ∧
      (∀ b, stagedWord t b = stagedWord s b ∧ effWord t b = effWord s b) ∧
      (∀ b, b ≠ a → liveWord t b = liveWord s b) ∧ onlyRegs s t) := by
  have hr := mem_regRows_of_plainReg h
  have hwrite := exec_registerWrite_plain (v := v) (ide := ide) h (by rw [hp]; rfl)
  obtain ⟨-, -, -, hans, -, -, hfind⟩ := h
  rw [writeReg_of_w1c_ro_rc hr hfind (lt_bar0_of_regAnswers hans hp) hacc] at hwrite
  refine ⟨_, hwrite, fun f hf hw hv => ?_, fun b => ⟨stagedWord_zeroFields s a b _, effWord_zeroFields s a b _⟩,
    fun b hb => liveWord_zeroFields_other s hb _, zeroFields_onlyRegs s a _⟩
  have hlo : f.lo < 32 := by
    obtain ⟨hfields, -⟩ := fieldsApart_of_mem_regRows r hr
    have := hfields f hf
    omega
  refine live_zeroFields_filter s a _ hr hf ?_
  rw [bitOf_mod_two_pow _ hlo]
  simp [hw, bitOf, hv]

/-- R6: an access of another width has no effect. -/
theorem registerWrite_otherWidth (s : State) (a : Nat) (v : BitVec 64) (ide : Option Nat) {n : Nat} (h4 : n ≠ 4)
    (h8 : n ≠ 8) : exec (.registerWrite ⟨a, ide⟩ n v) s = .next s := by
  rw [exec_registerWrite, regStore, if_neg h4, if_neg (fun h : n = 8 ∧ _ => h8 h.1), ite_self]

/-- R6: an aligned 64-bit write of a pair is a write to _LO, then one to _HI. -/
theorem registerWrite_pair (ht : mmioTravels s (pageInst a) ide = true) (hpair : coversPair a = true) :
    exec (.registerWrite ⟨a, ide⟩ 8 v) s =
      .next (regWrite (regWrite s a (v.toNat % 2 ^ 32)) (a + 4) (v.toNat / 2 ^ 32 % 2 ^ 32)) := by
  rw [exec_registerWrite, if_pos ht, regStore, if_neg (by decide), if_pos ⟨rfl, hpair⟩]

/-! ## Reads with an effect -/

theorem exec_readLoLatch (ht : mmioTravels s (pageInst a) ide = true) :
    exec (.readLoLatch ⟨a, ide⟩) s = .next (readReg s a) := congrArg Host.Outcome.next (if_pos ht)

theorem exec_readClear (ht : mmioTravels s (pageInst a) ide = true) :
    exec (.readClear ⟨a, ide⟩) s = .next (readReg s a) := congrArg Host.Outcome.next (if_pos ht)

end

section
variable {s : State} {c : Nat} {w : Word} {set : Tab Nat} {ide : Option Nat}

/-! ## The commands of a commit group -/

/-- R13, R15. -/
theorem commitGo_pends (h : commitReg s c) (ht : mmioTravels s (pageInst c) ide = true)
    (hw : w.toNat.testBit 1 = false) : Nexts (exec (.commitGo ⟨c, ide⟩ w) s) (fun t =>
      (groupAt t c).pending = some (stagedSet s c) ∧
      (∀ a, commitOf a = c → inSet (stagedSet s c) a = stagedWord s a) ∧
      (groupAt t c).superseded = (((groupAt s c).superseded && !w.toNat.testBit 4) || (groupAt s c).pending.isSome) ∧
      (groupAt t c).rejected = ((groupAt s c).rejected && !w.toNat.testBit 3) ∧
      (∀ a, effWord t a = effWord s a ∧ stagedWord t a = stagedWord s a) ∧ onlyRegs s t) := by
  have hgroup : groupAt (groupGo (commitCleared s c w.toNat) c) c = { groupAt s c with
      pending := some (stagedSet s c)
      superseded := (groupAt s c).superseded && !bitOf w.toNat 4 || (groupAt s c).pending.isSome
      rejected := (groupAt s c).rejected && !bitOf w.toNat 3
      due := false } := by
    rw [groupGo, groupAt_setGroup_same, commitCleared, groupAt_setGroup_same]
    rfl
  rw [exec_commitGo h, if_pos ht, commitWrite_go s c hw]
  refine ⟨_, rfl, ?_, fun a => inSet_stagedSet, ?_, ?_, fun a => ⟨rfl, rfl⟩, rfl⟩ <;> rw [hgroup] <;> rfl

/-- R13: DISCARD. -/
theorem commitDiscard_restores (h : commitReg s c) (ht : mmioTravels s (pageInst c) ide = true)
    (hw : w.toNat.testBit 0 = false) : Nexts (exec (.commitDiscard ⟨c, ide⟩ w) s) (fun t =>
      (groupAt t c).pending = (groupAt s c).pending ∧ (∀ a, commitOf a = c → stagedWord t a = effWord s a) ∧
      (∀ a, effWord t a = effWord s a) ∧ onlyRegs s t) := by
  have hgroup : groupAt (groupDiscard (commitCleared s c w.toNat) c) c = groupAt (commitCleared s c w.toNat) c := rfl
  rw [exec_commitDiscard h, if_pos ht, commitWrite_discard s c hw]
  refine ⟨_, rfl, ?_, fun a => stagedWord_groupDiscard, fun a => rfl, rfl⟩
  rw [hgroup, commitCleared, groupAt_setGroup_same]

/-- R14, whichever of the two bits the command stands for. -/
theorem commitGo_both (h : commitReg s c) (hw : w.toNat.testBit 1 = true) :
    exec (.commitGo ⟨c, ide⟩ w) s = .next s := by
  have h1 : bitOf (setFld w.toNat 0 0 1) 1 = true := (bitOf_setFld_other _ _ (by decide)).trans hw
  rw [exec_commitGo h, commitWrite_both s c (bitOf_setFld_same ..) h1, ite_self]

theorem commitDiscard_both (h : commitReg s c) (hw : w.toNat.testBit 0 = true) :
    exec (.commitDiscard ⟨c, ide⟩ w) s = .next s := by
  have h0 : bitOf (setFld w.toNat 1 1 1) 0 = true := (bitOf_setFld_other _ _ (by decide)).trans hw
  rw [exec_commitDiscard h, commitWrite_both s c h0 (bitOf_setFld_same ..), ite_self]

/-- R16. -/
theorem commitTakesEffect_refused (hpend : (groupAt s c).pending = some set)
    (hsafe : atSafePoint s c = true) (hbad : setRefused s c set = true) :
    Nexts (exec (.commitTakesEffect c) s) (fun t => (groupAt t c).pending = none ∧ (groupAt t c).rejected = true ∧
      ∀ a, effWord t a = effWord s a ∧ stagedWord t a = stagedWord s a) := by
  have hsame := refuseSet_sameCommits s c (commitUnit c)
  rw [exec_commitTakesEffect, commitEffect_of_pending hpend, if_pos hsafe, judgeSet, if_pos hbad]
  refine ⟨_, rfl, ?_, ?_, fun a => ⟨?_, ?_⟩⟩
  · rw [hsame.groupAt, groupAt_setGroup_same]
  · rw [hsame.groupAt, groupAt_setGroup_same]
  · rw [hsame.effWord, effWord_setGroup]
  · rw [hsame.stagedWord, stagedWord_setGroup]

/-- R12: the set takes effect whole. -/
theorem commitTakesEffect_whole (hpend : (groupAt s c).pending = some set)
    (hsafe : atSafePoint s c = true) (hok : setRefused s c set = false) (hset : (Tab.keys set).Nodup)
    (hc : c ∈ plainGroups) : Nexts (exec (.commitTakesEffect c) s) (fun t => (groupAt t c).pending = none ∧
      (∀ a, commitOf a = c → effWord t a = inSet set a) ∧
      (∀ a, commitOf a ≠ c → Tab.get? set a = none → effWord t a = effWord s a)) := by
  have hsame := judgeSet_of_plain hc hok
  rw [exec_commitTakesEffect, commitEffect_of_pending hpend, if_pos hsafe]
  refine ⟨_, rfl, ?_, fun a ha => ?_, fun a ha hnone => ?_⟩
  · rw [hsame.groupAt, groupAt_takeSet hpend]
  · rw [hsame.effWord, effWord_takeSet_of_group hpend hset ha]
  · rw [hsame.effWord, effWord_takeSet_other hpend hset ha hnone]

end

/-- Settles O19, one lemma for each clause. -/
theorem registerWriteStagesAndClearsByAccessType : Obligations.RegisterWriteStagesAndClearsByAccessType := by
  intro s a r i j v ide
  refine ⟨registerWrite_stages, registerWrite_clearsOnes, fun n => registerWrite_otherWidth s a v ide, fun ht n => ?_,
    registerWrite_pair⟩
  rw [exec_registerWrite, if_neg (by rw [ht]; decide)]

/-- Settles O20, by the effect of each of the four reads. -/
theorem readsLatchAndClearWhatTheirRulesSay : Obligations.ReadsLatchAndClearWhatTheirRulesSay := by
  intro s a n r h i j i' j' ide
  refine ⟨?lo, ?role, ?slot, ?rc⟩
  case lo =>
    intro hplain ht hlo hhi hevr hacc hrole hslot hmj hlost
    refine ⟨_, exec_readLoLatch ht, ?_⟩
    rw [readReg_of_plainReg hplain,
      readEffect_lo hlo hhi (fun f hf => by rcases hacc f hf with e | e <;> simp [e]) hrole hslot hevr hmj hlost]
    refine ⟨rfl, ?_, rfl⟩
    rw [shownAt_hi hlo]
    exact Tab.getD_set_same ..
  case role =>
    intro hn hans
    obtain ⟨r, hb, hfind⟩ := findReg_unitRole hn
    have hbase : Reg.DEV_UNIT_ROLE = 0x1000 := rfl
    refine ⟨_, rfl, ?_⟩
    rw [readReg_of_findReg (nvmeReg_of_lt (by omega)) (by omega) hans (windowAt_of_lt (by omega) (.inl (by omega)) s) hfind,
      readEffect_unitRole hb]
    exact ⟨rfl, Tab.get?_set_same .., rfl⟩
  case slot =>
    intro hn hans
    obtain ⟨r, hb, hfind⟩ := findReg_keySlotStatus hn
    have hbase : Reg.KEY_SLOT_STATUS = 0x901000 := rfl
    refine ⟨_, rfl, ?_⟩
    rw [readReg_of_findReg (nvmeReg_of_lt (by omega)) (by omega) hans (windowAt_of_lt (by omega) (.inr (by omega)) s) hfind,
      readEffect_keySlotStatus hb]
    exact ⟨rfl, Tab.get?_set_same .., rfl⟩
  case rc =>
    intro hplain hp hlo hacc hmj hrole hslot hevr hlost
    refine ⟨_, exec_readClear (by rw [hp]; rfl), ?_⟩
    rw [readReg_of_plainReg hplain, readEffect_rc hlo hrole hslot hevr hmj hlost]
    refine ⟨rfl, fun f hf hrc => ?_, onlyRegs_trans (zeroFields_onlyRegs s a _) (withReadData_onlyRegs _ _)⟩
    exact live_zeroFields_filter s a _ (mem_regRows_of_plainReg hplain) hf (by simp [hrc])

/-- Settles O21: the writes of a COMMIT register, then the fates of a pending set. -/
theorem commitGroupsPendDiscardAndTakeEffectWhole : Obligations.CommitGroupsPendDiscardAndTakeEffectWhole := by
  intro s c w set ide
  refine ⟨commitGo_pends, commitDiscard_restores, commitGo_both, commitDiscard_both, fun hpend hnot => ?_,
    commitTakesEffect_refused, commitTakesEffect_whole⟩
  rw [exec_commitTakesEffect, commitEffect_of_pending hpend, if_neg (by rw [hnot]; decide)]

end Sys2Proof.Machine
end

section
/-! SUPPORT and O23. Flits at a router (01_architecture.md, R36–R45). -/

namespace Sys2Proof.Machine

variable {s t : State} {src dest cls route x y up link flit : Nat} {p : Packet} {tag : Option Nat}

/-! ## Arrivals of one flit (R44) -/

theorem linkSymbols_of_no_injection (h : s.tst.injections = []) (up link n : Nat) : linkSymbols s up link n = (n, s) := by
  simp [linkSymbols, injOf, h]

theorem flitTries_no_symbol (h : s.tst.injections = []) (f : Nat) :
    flitTries x y up link tag (f + 1) [] s = (.good, s) := by
  simp [flitTries, linkSymbols_of_no_injection h]

theorem flitTries_one_symbol (h : s.tst.injections = []) (f : Nat) (errs : List Nat) :
    flitTries x y up link tag (f + 1) (1 :: errs) s = (.good, routerFixes s x y tag) := by
  simp [flitTries, linkSymbols_of_no_injection h]

/-- Two symbols in error ask for a replay; while one is left, the router counts it. -/
theorem flitTries_two_symbols (h : s.tst.injections = []) (f : Nat) (errs : List Nat) :
    flitTries x y up link tag (f + 1) (2 :: errs) s =
      flitTries x y up link tag f errs (if f = 0 then s else routerCount s x y 7 0) := by
  simp [flitTries, linkSymbols_of_no_injection h]

/-- A flit with two symbols in error at every arrival is given up: only the counts of its replays, registers, have changed. -/
theorem flitTries_two_symbols_always (h : s.tst.injections = []) (n : Nat) :
    ∃ t, flitTries x y up link tag n (List.replicate n 2) s = (.poisoned, t) ∧ Keeps 16 s t := by
  induction n generalizing s with
  | zero => exact ⟨s, rfl, Keeps.refl _ _⟩
  | succ n ih =>
    have hcount : Keeps 16 s (if n = 0 then s else routerCount s x y 7 0) :=
      Keeps.ite (Keeps.refl _ _) (routerCount_keeps ..)
    obtain ⟨t, ht, hkeeps⟩ := ih ((congrArg Tst.injections (hcount.tst rfl)).trans h)
    exact ⟨t, by rw [List.replicate_succ, flitTries_two_symbols h, ht], hcount.trans hkeeps⟩

/-! ## The router's place on the route (R36) -/

theorem exec_flitArrive_unseen (hp : oldest s src dest cls route = some p)
    (h : onRoute s p (x, y) = false ∨ wakeBarred s (0xE0 + quadOf x y) = true) (errs : List Nat) :
    exec (.flitArrive src dest cls route x y up link flit errs) s = .next s := by
  have hif : (!onRoute s p (x, y) || wakeBarred s (0xE0 + quadOf x y)) = true := by simpa using h
  change execFlitArrive src dest cls route x y up link flit errs s = _
  simp only [execFlitArrive, hp]
  exact if_pos hif

/-- The arrivals are tried once the router's quadrant is awake (R36). -/
theorem exec_flitArrive_good (hp : oldest s src dest cls route = some p) (hr : onRoute s p (x, y) = true)
    (hb : wakeBarred s (0xE0 + quadOf x y) = false) {errs : List Nat}
    (h : flitTries x y up link (some p.tag) 4 errs (wakeIsland s (0xE0 + quadOf x y)) = (.good, t)) :
    exec (.flitArrive src dest cls route x y up link flit errs) s = .next t := by
  change execFlitArrive src dest cls route x y up link flit errs s = _
  simp [execFlitArrive, hp, hr, hb, h]

/-- The state once a flit of `p` is given up: the router counts it, the recorder logs it, and `p` has its poison mark (R44, R45). -/
def givenUp (s : State) (x y : Nat) (p : Packet) : State :=
  setPacket (recordLost (routerCount s x y 15 8) ((routerUnit x y).getD 0xFF) p.inst lostUnknown) p { p with poison := true }

theorem exec_flitArrive_poisoned (hp : oldest s src dest cls route = some p) (hr : onRoute s p (x, y) = true)
    (hb : wakeBarred s (0xE0 + quadOf x y) = false) {errs : List Nat}
    (h : flitTries x y up link (some p.tag) 4 errs (wakeIsland s (0xE0 + quadOf x y)) = (.poisoned, t)) :
    exec (.flitArrive src dest cls route x y up link flit errs) s = .next (givenUp t x y p) := by
  change execFlitArrive src dest cls route x y up link flit errs s = _
  simp [execFlitArrive, hp, hr, hb, h, givenUp]

/-- The count and the record of a flit given up touch neither the trunk nor the signal box nor the stations. -/
theorem givenUp_frame (s : State) (x y : Nat) (p : Packet) :
    (givenUp s x y p).dev.trunk = s.dev.trunk.map (fun q => if q = p then { p with poison := true } else q) ∧
      (givenUp s x y p).sbx = s.sbx ∧ (givenUp s x y p).stn = s.stn := by
  have hkeeps : Keeps 33556528 s
      (recordLost (routerCount s x y 15 8) ((routerUnit x y).getD 0xFF) p.inst lostUnknown) :=
    (recordLost_keeps ..).via rfl ((routerCount_keeps ..).mono rfl)
  exact ⟨by rw [← hkeeps.dev rfl]; rfl, hkeeps.sbx rfl, hkeeps.stn rfl⟩

/-- Settles O23: the flit that the router does not see, then the outcomes of the arrivals of one that it sees. -/
theorem routersCorrectReplayAndPoisonFlits : Obligations.RoutersCorrectReplayAndPoisonFlits := by
  intro s src dest cls route x y up link flit p q s1 hp
  refine ⟨exec_flitArrive_unseen hp, fun hr hb hinj => ?_⟩
  have hwake : Keeps 1024 s s1 := wakeIsland_keeps ..
  have hinj1 : s1.tst.injections = [] := (congrArg Tst.injections (hwake.tst rfl)).trans hinj
  refine ⟨exec_flitArrive_good hp hr hb (flitTries_no_symbol hinj1 3),
    exec_flitArrive_good hp hr hb (flitTries_one_symbol hinj1 3 []), ?_⟩
  obtain ⟨t, ht, hcounts⟩ := flitTries_two_symbols_always hinj1 4
  obtain ⟨htrunk, hsbx, hstn⟩ := givenUp_frame t x y p
  have hkeeps : Keeps 1040 s t := hcounts.via rfl (hwake.mono rfl)
  refine ⟨_, exec_flitArrive_poisoned hp hr hb ht, ?_, ?_, ?_⟩
  · rw [htrunk, hkeeps.dev rfl]
  · rw [hsbx, hkeeps.sbx rfl]
  · rw [hstn, hkeeps.stn rfl]

end Sys2Proof.Machine
end

section
/-! SUPPORT and O58. The state after reset: the register tables, the units (R26) and the rest of the machine. -/

namespace Sys2Proof.Machine

/-- Nothing is written at reset: every value of a register is the table's. -/
theorem eff_reset (a hi lo : Nat) : eff State.reset a hi lo = fld (resetOf a) hi lo := rfl

/-- R26: unit numbers from 197 on are reserved. -/
theorem unitOf_reset_state (n : Nat) : (unitOf State.reset n).state = if n < 197 then .idle else .absent := by
  change (initialUnit n).state = _
  unfold initialUnit
  split <;> rfl

/-- Settles O58: no register is written, the values of the tables are computed, no unit has changed, nothing waits. -/
theorem resetLeavesTheSpecsValues : Obligations.ResetLeavesTheSpecsValues := by
  refine ⟨fun a => ⟨rfl, rfl, rfl⟩, ?_⟩
  simp only [hopLimit, eff_reset]
  iterate 17 refine ⟨by decide +kernel, ?_⟩
  exact ⟨fun n _ => unitOf_reset_state n, fun _ => rfl, rfl, rfl, rfl, rfl, rfl, rfl, rfl, rfl, rfl⟩

end Sys2Proof.Machine
end

section
/-! SUPPORT. Tickets in a fen and on the trunk: what a station sends, and what the end of a ticket takes out of a fen
(03_fabric_and_fens.md, R107–R110; 04_lines_and_signal_box.md, R172). -/

namespace Sys2Proof.Machine

variable {s : State} {e : Entry} {tag step src off d f : Nat} {data : Bytes} {station : Nat} {prov : Bool}

/-! ## Packets and tokens of a running ticket -/

theorem stillRuns_of_entry (he : entryOf s tag = some e) (hf : e.fenced = false) (hr : e.revoking = false) :
    stillRuns s tag = true := by
  simp [stillRuns, he, hf, hr]

theorem sendData_of_unitAt (he : entryOf s tag = some e) (hf : e.fenced = false) (hr : e.revoking = false) {n : Nat}
    (hd : unitAt s e (step + 1) n = some d) :
    sendData s tag step src n off data station prov = emit s (sentTo s e tag step src d off data station prov) := by
  simp [sendData, he, hf, hr, hd, sentTo]

/-- The header-only token that unit `src`, which serves `step`, sends to unit `d` (R172, R173). -/
def tokenTo (s : State) (e : Entry) (tag step src total : Nat) (prov revoke : Bool) (d : Nat) : Packet := {
  dest := d, destGen := Tab.getD e.captured d 0, src := src, inst := e.t.inst, route := routeOf s src d,
  prov := prov, revoke := revoke, tag := tag, off := total, endTok := !revoke, step := step + 1 }

/-- Packets that do not depend on what is on the trunk already go onto it one behind another. -/
theorem trunk_foldl_emit {p : State → Nat → Packet} (hp : ∀ x q d, p (emit x q) d = p x d) (l : List Nat) (s : State) :
    (l.foldl (fun x d => emit x (p x d)) s).dev.trunk = s.dev.trunk ++ l.map (p s) := by
  induction l generalizing s with
  | nil => simp
  | cons d l ih =>
    have hsame : p (emit s (p s d)) = p s := funext (hp s _)
    rw [List.foldl_cons, ih, hsame, List.map_cons]
    exact List.append_assoc s.dev.trunk [p s d] _

theorem trunk_sendToken (s : State) (e : Entry) (tag step src total : Nat) (prov revoke : Bool) :
    (sendToken s e tag step src total prov revoke).dev.trunk =
      s.dev.trunk ++ (unitsAt s e (step + 1)).map (tokenTo s e tag step src total prov revoke) :=
  trunk_foldl_emit (p := fun x d => tokenTo x e tag step src total prov revoke d) (fun _ _ _ => rfl) _ s

/-- A station that is not the last ends its output with a token to every unit of the next step (R172). -/
theorem endOut_of_not_last (he : entryOf s tag = some e) (hl : isLast s e step = false) (out : Nat) :
    endOut s tag step src out prov =
      setCtx (sendToken s e tag step src (ctxOf s tag step).outBytes prov false) tag step {} := by
  simp [endOut, he, hl]

/-! ## The end of a ticket takes it out of every fen -/

/-- The fen without ticket `tag`. -/
def Fen.without (x : Fen) (tag : Nat) : Fen := { x with inside := x.inside.filter (fun t => t.tag != tag) }

theorem Fen.mem_without {x : Fen} {z : FIn} (hz : z ∈ (x.without tag).inside) : z.tag ≠ tag :=
  bne_iff_ne.mp (List.mem_filter.mp hz).2

theorem Fen.without_of_empty {x : Fen} (h : x.inside = []) (tag : Nat) : x.without tag = x := by
  cases x
  subst h
  rfl

theorem fenOf_leaveInside (s : State) (tag : Nat) (fenced : Bool) (f : Nat) :
    fenOf (leaveInside s tag fenced) f = (fenOf s f).without tag := by
  change (Tab.get? (Tab.mapVals s.fab.fens (fun _ x => Fen.without x tag)) f).getD {} =
    ((Tab.get? s.fab.fens f).getD {}).without tag
  rw [Tab.get?_mapVals']
  cases Tab.get? s.fab.fens f <;> rfl

theorem fenOf_freeTicket (s : State) (tag : Nat) (e : Entry) (f : Nat) :
    fenOf (freeTicket s tag e) f = (fenOf s f).without tag := by
  refine (fenOf_leaveInside _ tag e.fenced f).trans (congrArg (Fen.without · tag) (fenOf_congr ?_ f))
  change (ite _ _ _ : State).fab = _
  split <;> rfl

/-- A ticket's end leaves a fen with nothing inside as it was. -/
theorem fenOf_finishTicket_of_empty (h : (fenOf s f).inside = []) : fenOf (finishTicket s tag) f = fenOf s f := by
  have hfree : ∀ {t : State} (e : Entry), t.fab = s.fab → fenOf (freeTicket t tag e) f = fenOf s f := fun e ht => by
    rw [fenOf_freeTicket, fenOf_congr ht, Fen.without_of_empty h]
  unfold finishTicket finishPlain
  split
  · rfl
  · next e he =>
    dsimp only
    split
    · exact hfree e rfl
    · split
      · split
        · exact hfree e rfl
        · split
          · rfl
          · exact hfree e ((cqWrite_keeps ..).fab rfl)
      · exact (fenOf_congr ((nvmeTicketDone_keeps ..).fab rfl) f).trans (hfree e rfl)
      · exact (fenOf_congr ((junctionDone_keeps ..).fab rfl) f).trans (hfree e rfl)
      · exact hfree e rfl

end Sys2Proof.Machine
end

section
/-! SUPPORT and O28. Fens: ports, the control window, holds, overpower and scrubbing (03_fabric_and_fens.md, R107–R128). -/

namespace Sys2Proof.Machine

section
variable {s : State} {e : Entry} {f port tag off reg i mw d : Nat} {data : Bytes} {y : FIn} {im : FImage} {v ans : Word}
  {via ide : Option Nat}

/-! ## Output ports (R107–R110) -/

theorem fenOutputBeat_sends (hc : fenClocked (fenOf s f) = true) (ht : fenTicket (fenOf s f) port tag = some y)
    (hy : y.revoked = false) (he : entryOf s tag = some e) (hf : e.fenced = false) (hr : e.revoking = false)
    (hd : unitAt s e (y.step + 1) (off / 4096) = some d) :
    Nexts (exec (.fenOutputBeat f port tag off data) s) (fun t => t.dev.trunk = s.dev.trunk ++
      [sentTo s e tag y.step (32 + f) d off (data.take 4096) (stationFor y.ranges off) y.prov]) := by
  change Nexts (execFenOutputBeat f port tag off data s) _
  simp only [execFenOutputBeat, hc, ht, hy, stillRuns_of_entry he hf hr, sendData_of_unitAt he hf hr hd]
  exact ⟨_, rfl, rfl⟩

theorem fenOutputBeat_foreign (hc : fenClocked (fenOf s f) = true) (ht : fenTicket (fenOf s f) port tag = none) :
    exec (.fenOutputBeat f port tag off data) s = .next (bump s (fenReg Reg.FAB_FEN_PORTERR f) 15 0
      (max 1 (ceilDiv (data.length * 8) (beatBits (fenOf s f) port)))) := by
  change execFenOutputBeat f port tag off data s = _
  simp [execFenOutputBeat, hc, ht]

theorem fenLast_foreign (hc : fenClocked (fenOf s f) = true) (ht : fenTicket (fenOf s f) port tag = none) :
    exec (.fenLast f port tag 0) s = .next (bump s (fenReg Reg.FAB_FEN_PORTERR f) 15 0 1) := by
  change execFenLast f port tag 0 s = _
  simp [execFenLast, hc, ht]

/-- LAST with DONE of a ticket that runs: it leaves the fen, then its output ends (R108). -/
theorem exec_fenLast_done (hc : fenClocked (fenOf s f) = true) (ht : fenTicket (fenOf s f) port tag = some y)
    (hy : y.revoked = false) (hrun : stillRuns s tag = true) :
    exec (.fenLast f port tag 0) s = .next (endOut (setFen s f ((fenOf s f).without tag)) tag y.step (32 + f)
      (ctxOf s tag y.step).inBytes (y.ended.getD y.prov)) := by
  change execFenLast f port tag 0 s = _
  have hstill : stillRuns (setFen s f ((fenOf s f).without tag)) tag = true := hrun
  have hctx : ctxOf (setFen s f ((fenOf s f).without tag)) = ctxOf s := rfl
  rw [Fen.without] at hstill hctx
  simp [execFenLast, hc, ht, hy, hstill, hctx, Fen.without]

theorem fenLast_ends (hc : fenClocked (fenOf s f) = true) (ht : fenTicket (fenOf s f) port tag = some y)
    (hy : y.revoked = false) (he : entryOf s tag = some e) (hf : e.fenced = false) (hr : e.revoking = false)
    (hl : isLast s e y.step = false) : Nexts (exec (.fenLast f port tag 0) s) (fun t =>
      (∀ z ∈ (fenOf t f).inside, z.tag ≠ tag) ∧ ∀ d ∈ unitsAt s e (y.step + 1), ∃ q ∈ t.dev.trunk,
        q.dest = d ∧ q.tag = tag ∧ q.endTok = true ∧ q.off = (ctxOf s tag y.step).outBytes) := by
  have hend := endOut_of_not_last (s := setFen s f ((fenOf s f).without tag)) (src := 32 + f)
    (prov := y.ended.getD y.prov) he hl (ctxOf s tag y.step).inBytes
  rw [exec_fenLast_done hc ht hy (stillRuns_of_entry he hf hr), hend]
  refine ⟨_, rfl, fun z hz => ?_, fun d hd => ?_⟩
  · rw [fenOf_congr (setCtx_fab ..), fenOf_congr ((sendToken_keeps ..).fab rfl), fenOf_setFen_same] at hz
    exact Fen.mem_without hz
  · refine ⟨tokenTo s e tag y.step (32 + f) (ctxOf s tag y.step).outBytes (y.ended.getD y.prov) false d, ?_,
      rfl, rfl, rfl, rfl⟩
    rw [setCtx_dev, trunk_sendToken]
    exact List.mem_append_right _ (List.mem_map_of_mem hd)

/-! ## The control window (R111) -/

theorem winAccess_write (hp : winPath s f via = true) (ha : winAnswers (fenOf s f) = true) (n : Nat) :
    winAccess s f reg via (some v) n =
      (0, setFen s f { fenOf s f with window := Tab.set (fenOf s f).window (reg % 1024) v.toNat }) := by
  simp [winAccess, hp, ha]

theorem winAccess_read (hp : winPath s f via = true) (ha : winAnswers (fenOf s f) = true) (n : Nat) :
    winAccess s f reg via none n = (n % 2 ^ 32,
      setFen s f { fenOf s f with window := Tab.set (fenOf s f).window (reg % 1024) (n % 2 ^ 32) }) := by
  simp [winAccess, hp, ha]

theorem winAccess_unanswered (h : winPath s f via = false ∨ winAnswers (fenOf s f) = false) (w : Option Word) (n : Nat) :
    winAccess s f reg via w n = (0, s) := by
  have hno : (!winPath s f via || !winAnswers (fenOf s f)) = true := by simpa using h
  exact if_pos hno

theorem exec_fenCtlwinWrite (ht : mmioTravels s via ide = true) :
    exec (.fenCtlwinAccess f ⟨reg, ide⟩ via (some v) ans) s = .next (winAccess s f reg via (some v) ans.toNat).2 :=
  congrArg Host.Outcome.next (if_pos ht)

theorem exec_fenCtlwinRead (ht : mmioTravels s via ide = true) :
    exec (.fenCtlwinAccess f ⟨reg, ide⟩ via none ans) s =
      .next (let r := winAccess s f reg via none ans.toNat
        { r.2 with regs := { r.2.regs with readData := r.1 } }) :=
  congrArg Host.Outcome.next (if_pos ht)

theorem fenCtlwinWrite_stores (ht : mmioTravels s via ide = true) (hp : winPath s f via = true)
    (ha : winAnswers (fenOf s f) = true) : Nexts (exec (.fenCtlwinAccess f ⟨reg, ide⟩ via (some v) ans) s) (fun t =>
      Tab.get? (fenOf t f).window (reg % 1024) = some v.toNat ∧ t.regs = s.regs) := by
  rw [exec_fenCtlwinWrite ht, winAccess_write hp ha]
  refine ⟨_, rfl, ?_, rfl⟩
  rw [fenOf_setFen_same]
  exact Tab.get?_set_same ..

theorem fenCtlwinRead_answers (ht : mmioTravels s via ide = true) (hp : winPath s f via = true)
    (ha : winAnswers (fenOf s f) = true) : Nexts (exec (.fenCtlwinAccess f ⟨reg, ide⟩ via none ans) s) (fun t =>
      t.regs.readData = ans.toNat) := by
  rw [exec_fenCtlwinRead ht, winAccess_read hp ha]
  exact ⟨_, rfl, Nat.mod_eq_of_lt ans.isLt⟩

theorem fenCtlwinRead_unanswered (ht : mmioTravels s via ide = true)
    (h : winPath s f via = false ∨ winAnswers (fenOf s f) = false) :
    Nexts (exec (.fenCtlwinAccess f ⟨reg, ide⟩ via none ans) s) (fun t => t.regs.readData = 0 ∧ t.fab = s.fab) := by
  rw [exec_fenCtlwinRead ht, winAccess_unanswered h]
  exact ⟨_, rfl, rfl, rfl⟩

theorem ctlwinTimeout_counts (ha : winAnswers (fenOf s f) = true) :
    Nexts (exec (.ctlwinTimeout f false) s) (fun t => t.regs.readData = 0 ∧
      live t (fenReg Reg.FAB_FEN_PORTERR f) 23 16 = min (live s (fenReg Reg.FAB_FEN_PORTERR f) 23 16 + 1) 255 ∧
      t.fab = s.fab) := by
  change Nexts (execCtlwinTimeout f false s) _
  rw [execCtlwinTimeout, if_pos ha]
  exact ⟨_, rfl, rfl, live_bump_same s _ 23 16 1 (by decide), rfl⟩

/-! ## Holds (R125, R126) -/

theorem fenOf_fenHeld (h : (fenOf s f).state = .fencing) : fenOf (fenHeld s f) f = { fenOf s f with state := .held } := by
  rw [fenHeld, if_pos h, fenOf_setFen_same]

theorem fenFencingDone_holds (h : (fenOf s f).state = .fencing) :
    Nexts (exec (.fenFencingDone f) s) (fun t => (fenOf t f).state = .held ∧
      (fenOf t f).image = (fenOf s f).image ∧ (fenOf t f).mem = (fenOf s f).mem) := by
  refine ⟨_, rfl, ?_⟩
  simp only [fenOf_fenHeld h, and_self]

/-- Tickets that are fenced and ended one after another leave a fen with nothing inside as it was. -/
theorem fenOf_foldl_fenceTicket (h : (fenOf s f).inside = []) (status : Nat) (mark : Entry → Entry) (l : List FIn) :
    fenOf (l.foldl (fun s t => finishTicket (fenceTicket s t.tag status mark) t.tag) s) f = fenOf s f := by
  induction l generalizing s with
  | nil => rfl
  | cons t l ih =>
    have hfence : fenOf (fenceTicket s t.tag status mark) f = fenOf s f := fenOf_congr ((fenceTicket_keeps ..).fab rfl) f
    have hend : fenOf (finishTicket (fenceTicket s t.tag status mark) t.tag) f = fenOf s f :=
      (fenOf_finishTicket_of_empty (hfence ▸ h)).trans hfence
    rw [List.foldl_cons, ih (hend ▸ h), hend]

theorem fencingTimeout_holds (h : (fenOf s f).state = .fencing) :
    Nexts (exec (.fencingTimeout f) s) (fun t => (fenOf t f).state = .held ∧ (fenOf t f).inside = []) := by
  have hheld : fenOf (fenHeld (setFen s f { fenOf s f with inside := [] }) f) f =
      { fenOf s f with inside := [], state := .held } := by
    rw [fenOf_fenHeld (by rw [fenOf_setFen_same]; exact h), fenOf_setFen_same]
  change Nexts (execFencingTimeout f s) _
  rw [execFencingTimeout, if_neg (not_not_intro h)]
  refine ⟨_, rfl, ?_⟩
  simp only [fenOf_foldl_fenceTicket (congrArg Fen.inside hheld), hheld, and_self]

/-- A HELD fen as its release starts it (R126). -/
def releasedFen (s : State) (f : Nat) : Fen := { fenOf s f with
  state := .running, inside := [], window := []
  mem := if eff s (fenReg Reg.FAB_FEN_CFG f) 16 16 = 1 then [] else (fenOf s f).mem }

theorem fenRelease_of_held (h : (fenOf s f).state = .held) : fenRelease s f = setFen s f (releasedFen s f) := by
  rw [fenRelease, if_neg (not_not_intro h)]
  rfl

theorem fenOf_fenRelease_other (s : State) {f g : Nat} (h : f ≠ g) : fenOf (fenRelease s g) f = fenOf s f := by
  unfold fenRelease
  dsimp only
  split
  · rfl
  · exact fenOf_setFen_other s _ h

theorem fenOf_foldl_fenRelease_other {l : List Nat} (h : f ∉ l) (s : State) : fenOf (l.foldl fenRelease s) f = fenOf s f := by
  induction l generalizing s with
  | nil => rfl
  | cons g l ih =>
    rw [List.foldl_cons, ih (List.not_mem_of_not_mem_cons h), fenOf_fenRelease_other s (List.ne_of_not_mem_cons h)]

/-- Of fens that are released one after another, each HELD one starts. -/
theorem fenOf_foldl_fenRelease {l : List Nat} (hl : l.Nodup) (hf : f ∈ l) (h : (fenOf s f).state = .held) :
    fenOf (l.foldl fenRelease s) f = releasedFen s f := by
  induction l generalizing s with
  | nil => cases hf
  | cons g l ih =>
    obtain ⟨hg, hl⟩ := List.nodup_cons.mp hl
    rw [List.foldl_cons]
    rcases List.mem_cons.mp hf with rfl | hmem
    · rw [fenOf_foldl_fenRelease_other hg, fenRelease_of_held h, fenOf_setFen_same]
    · have hfen : fenOf (fenRelease s g) f = fenOf s f := fenOf_fenRelease_other s (fun heq => hg (heq ▸ hmem))
      have hregs : (fenRelease s g).regs = s.regs := (fenRelease_keeps ..).regs rfl
      rw [ih hl hmem (by rw [hfen]; exact h), releasedFen, releasedFen, hfen, eff_congr hregs]

theorem holdRelease_starts (hi : i ≠ 0) (hready : instState s i = .ready) (hf : f < 40)
    (howner : (unitOf s (32 + f)).owner = i) (h : (fenOf s f).state = .held) :
    Nexts (exec (.holdRelease i) s) (fun t => (fenOf t f).state = .running ∧ (fenOf t f).inside = [] ∧
      (fenOf t f).image = (fenOf s f).image ∧
      (fenOf t f).mem = if eff s (fenReg Reg.FAB_FEN_CFG f) 16 16 = 1 then [] else (fenOf s f).mem) := by
  have hmem : f ∈ (List.range 40).filter (fun g => (unitOf s (32 + g)).owner == i) :=
    List.mem_filter.mpr ⟨List.mem_range.mpr hf, beq_iff_eq.mpr howner⟩
  change Nexts (.next (releaseHolds s i)) _
  rw [releaseHolds, if_neg (not_or_intro (not_not_intro hready) hi)]
  have hcores : ∀ (l : List Nat) (t : State),
      fenOf (l.foldl (fun x c => coreRelease x (coreIndex x (88 + c))) t) f = fenOf t f := fun l t =>
    fenOf_congr ((Keeps.foldl (fun _ _ => coreRelease_keeps ..) (Keeps.refl _ t)).fab rfl) f
  refine ⟨_, rfl, ?_⟩
  simp only [hcores, fenOf_foldl_fenRelease (List.nodup_range.filter _) hmem h, releasedFen, and_self]

/-! ## Overpower and scrubbing (R123, R128) -/

theorem fenOverpower_halves (hc : fenClocked (fenOf s f) = true) (him : (fenOf s f).image = some im)
    (hhot : 3 ≤ (fenOf s f).hot) (hmw : 5 * im.power < 4 * mw) :
    Nexts (exec (.fenOverpower f mw) s) (fun t =>
      (fenOf t f).halved = some (max 25 (runMhz s f / 2)) ∧ (fenOf t f).overpower = true) := by
  change Nexts (execFenOverpower f mw s) _
  simp only [execFenOverpower, him]
  rw [if_pos ⟨hc, hhot, hmw⟩]
  refine ⟨_, rfl, ?_⟩
  simp only [fenOf_congr ((record_keeps ..).fab rfl), fenOf_setFen_same, and_true]
  rfl

theorem fenScrubDone_empties (h : (fenOf s f).state = .scrubbing) :
    Nexts (exec (.fenScrubDone f) s) (fun t => (fenOf t f).state = .empty ∧
      (fenOf t f).image = none ∧ (fenOf t f).mem = [] ∧ (fenOf t f).window = []) := by
  change Nexts (execFenScrubDone f s) _
  rw [execFenScrubDone, if_pos h]
  refine ⟨_, rfl, ?_⟩
  simp only [fenOf_congr (zeroMeas_fab ..), fenOf_setFen_same, and_self]

end

/-- Settles O28, one lemma for each clause. -/
theorem fenPortsHoldsAndWindowsAct : Obligations.FenPortsHoldsAndWindowsAct := by
  intro s f port tag off reg i mw d via ide data v ans y e im x
  exact ⟨fenOutputBeat_sends, fenOutputBeat_foreign, fenLast_foreign, fenLast_ends, fenCtlwinWrite_stores,
    fenCtlwinRead_answers, fenCtlwinRead_unanswered, ctlwinTimeout_counts, fenFencingDone_holds, fencingTimeout_holds,
    holdRelease_starts, fenOverpower_halves, fenScrubDone_empties⟩

end Sys2Proof.Machine
end

section
/-! SUPPORT and O25. End tokens and revoke tokens at a station (04_lines_and_signal_box.md, R172, R173). -/

namespace Sys2Proof.Machine

section
variable {s : State} {src dest tag u step : Nat} {p : Packet} {e : Entry}

/-! ## The token leaves the trunk -/

theorem arriving_satisfies {q : Packet → Bool} (h : arriving s q = some p) : q p = true := by
  have hfound := List.find?_some h
  rw [Bool.and_eq_true] at hfound
  exact hfound.1

/-- The state in which the station acts on the token: the domains on its way are awake (R36), and it is off the trunk. -/
def tokenOff (s : State) (p : Packet) : State := offTrunk (wakePath s p) p

theorem tokenOff_keeps (s : State) (p : Packet) : Keeps 1032 s (tokenOff s p) :=
  (offTrunk_keeps ..).via rfl ((wakePath_keeps ..).mono rfl)

theorem trunk_tokenOff (s : State) (p : Packet) : (tokenOff s p).dev.trunk = dropFirst (· == p) s.dev.trunk := by
  rw [← (wakePath_keeps s p).dev rfl]
  rfl

theorem unitOf_wakePath (s : State) (p : Packet) (n : Nat) : unitOf (wakePath s p) n = unitOf s n :=
  unitOf_congr ((wakePath_keeps ..).dev rfl) n

theorem entryOf_wakePath (s : State) (p : Packet) (tag : Nat) : entryOf (wakePath s p) tag = entryOf s tag :=
  entryOf_congr ((wakePath_keeps ..).sbx rfl) tag

/-! ## End tokens (R172) -/

/-- Unit `u` serves its tokens from an input queue: a fen takes them on its port, and the loader only notes them. -/
def Queues (u : Nat) : Prop := kindOf u ≠ 0x02 ∧ kindOf u ≠ 0x03 ∧ kindOf u ≠ 0x13

/-- An end token needs no entry of the queue (R157). -/
theorem canTake_endTok (hu : Queues p.dest) (hend : p.endTok = true) : canTake s p = true := by
  obtain ⟨h2, h3, -⟩ := hu
  have hroom : hasRoom s p = true := by
    unfold hasRoom
    dsimp only
    split
    · exact absurd ‹_› h2
    · exact absurd ‹_› h3
    · rfl
    · simp [hend]
  rw [canTake, hroom, Bool.true_and]
  split
  · exact absurd ‹_› h2
  · exact absurd ‹_› h3
  · rfl

theorem tokenDue_of_queues (hu : Queues p.dest) : tokenDue s p = true := by
  obtain ⟨h2, h3, h13⟩ := hu
  unfold tokenDue
  split
  · exact absurd ‹_› h2
  · exact absurd ‹_› h3
  · exact absurd ‹_› h13
  · rfl

/-- Behind other work the token only waits. -/
theorem takeToken_of_queue (hu : Queues p.dest) (hq : inboxOf s p.dest ≠ []) :
    takeToken s e p = enqueue s p.dest (.pkt p) := by
  obtain ⟨h2, h3, h13⟩ := hu
  unfold takeToken
  split
  · exact absurd ‹_› h2
  · exact absurd ‹_› h3
  · exact absurd ‹_› h13
  · exact if_neg (by simpa [enqueue] using hq)

theorem dest_of_arriving_endTok
    (ha : arriving s (fun q => q.src == src && q.dest == dest && q.tag == tag && q.endTok) = some p) :
    p.dest = dest ∧ p.endTok = true := by
  have hp := arriving_satisfies ha
  simp only [Bool.and_eq_true, beq_iff_eq] at hp
  obtain ⟨⟨⟨-, hdest⟩, -⟩, hend⟩ := hp
  exact ⟨hdest, hend⟩

theorem exec_endTokenArrive_taken
    (ha : arriving s (fun q => q.src == src && q.dest == dest && q.tag == tag && q.endTok) = some p)
    (hu : Queues dest) (hg : (unitOf s dest).gen = p.destGen) (he : entryOf s tag = some e) (hf : e.fenced = false)
    (hr : e.revoking = false) (hp : p.poison = false) (hb : pathBarred s p = false) :
    exec (.endTokenArrive src dest tag) s = .next (takeToken (tokenOff s p) e p) := by
  obtain ⟨rfl, hend⟩ := dest_of_arriving_endTok ha
  change execEndTokenArrive _ _ _ s = _
  simp [execEndTokenArrive, ha, hb, unitOf_wakePath, hg, entryOf_wakePath, he, hf, hr, hp, canTake_endTok hu hend,
    tokenDue_of_queues hu, tokenOff]

theorem endTokenArrive_waitsInTurn (hu : Queues dest) (hg : (unitOf s dest).gen = p.destGen)
    (he : entryOf s tag = some e)
    (ha : arriving s (fun q => q.src == src && q.dest == dest && q.tag == tag && q.endTok) = some p)
    (hf : e.fenced = false) (hr : e.revoking = false) (hp : p.poison = false) (hb : pathBarred s p = false)
    (hq : inboxOf s dest ≠ []) :
    Nexts (exec (.endTokenArrive src dest tag) s) (fun t =>
      inboxOf t dest = inboxOf s dest ++ [.pkt p] ∧ t.dev.trunk = dropFirst (· == p) s.dev.trunk) := by
  obtain ⟨rfl, -⟩ := dest_of_arriving_endTok ha
  have hbox : inboxOf (tokenOff s p) p.dest = inboxOf s p.dest :=
    inboxOf_congr ((tokenOff_keeps s p).stn rfl) p.dest
  refine ⟨_, exec_endTokenArrive_taken ha hu hg he hf hr hp hb, ?_⟩
  rw [takeToken_of_queue hu (by rwa [hbox])]
  exact ⟨by rw [enqueue, inboxOf_setInbox_same, hbox], trunk_tokenOff s p⟩

/-! ## Revoke tokens (R173) -/

theorem modEntry_of_entry (he : entryOf s tag = some e) (f : Entry → Entry) :
    modEntry s tag f = setEntry s tag (f e) := by
  simp [modEntry, he]

/-- A report changes nothing of the entry but the statuses that it holds. -/
theorem entryOf_report (he : entryOf s tag = some e) (unit status : Nat) :
    ∃ fail warn, entryOf (report s tag unit status) tag = some { e with fail := fail, warn := warn } := by
  unfold report
  generalize (if status < 0x12 then status else 0x10) = st
  dsimp only
  split
  · exact ⟨e.fail, e.warn, he⟩
  · rw [modEntry_of_entry he, entryOf_setEntry_same]
    split
    · split
      · exact ⟨e.fail, _, rfl⟩
      · exact ⟨e.fail, e.warn, rfl⟩
    · split
      · exact ⟨_, e.warn, rfl⟩
      · exact ⟨e.fail, e.warn, rfl⟩

/-- A station that is no fen, no core and not the loader drops what it holds of the ticket, in its queue and in its context. -/
theorem stationRevoke_drops (hu : Queues u) (h4 : kindOf u ≠ 0x04) (h5 : kindOf u ≠ 0x05) (s : State) (tag step : Nat) :
    ∃ c : Ctx, c.buf = [] ∧ c.held = [] ∧ stationRevoke s u tag step =
      setCtx (setInbox s u ((inboxOf s u).filter (fun w => w.tag != tag))) tag step c := by
  obtain ⟨h2, h3, h13⟩ := hu
  unfold stationRevoke
  dsimp only
  split
  · exact absurd ‹_› h2
  · exact absurd ‹_› h3
  · exact absurd ‹_› h4
  · exact absurd ‹_› h5
  · exact absurd ‹_› h13
  · next h => exact ⟨{}, rfl, rfl, by simp only [engineCleared, h]⟩
  · next h => exact ⟨{}, rfl, rfl, by simp only [engineCleared, h]⟩
  · next h => exact ⟨{}, rfl, rfl, by simp only [engineCleared, h]⟩
  · exact ⟨_, rfl, rfl, rfl⟩

theorem revokeAt_of_not_last (he : entryOf s tag = some e) (hl : isLast s e step = false) :
    revokeAt s u tag step = stationRevoke (sendToken (setEntry s tag { e with revoking := true, waiting := false })
      e tag step u 0 false true) u tag step := by
  have hl' : isLast (setEntry s tag { e with revoking := true, waiting := false }) e step = false := hl
  simp only [revokeAt, he, modEntry_of_entry he, hl']
  rfl

/-- What a revoke token leaves at unit `u`, from which it goes on to the units of the next step. -/
def RevokePassed (s : State) (e : Entry) (u tag step : Nat) (t : State) : Prop :=
  (∃ e', entryOf t tag = some e' ∧ e'.revoking = true ∧ e'.waiting = false) ∧
  (∀ d ∈ unitsAt s e (step + 1), ∃ q ∈ t.dev.trunk, q.dest = d ∧ q.tag = tag ∧ q.revoke = true ∧ q.data = []) ∧
  (∀ w ∈ inboxOf t u, w.tag ≠ tag) ∧ (ctxOf t tag step).buf = [] ∧ (ctxOf t tag step).held = []

theorem revokeAt_passes (hu : Queues u) (h4 : kindOf u ≠ 0x04) (h5 : kindOf u ≠ 0x05) (he : entryOf s tag = some e)
    (hl : isLast s e step = false) : RevokePassed s e u tag step (revokeAt s u tag step) := by
  rw [revokeAt_of_not_last he hl]
  generalize hmark : setEntry s tag { e with revoking := true, waiting := false } = marked
  obtain ⟨c, hbuf, hheld, hdrop⟩ :=
    stationRevoke_drops hu h4 h5 (sendToken marked e tag step u 0 false true) tag step
  rw [hdrop]
  refine ⟨⟨{ e with revoking := true, waiting := false }, ?_, rfl, rfl⟩, fun d hd => ?_, fun w hw => ?_, ?_, ?_⟩
  · change entryOf (sendToken marked e tag step u 0 false true) tag = _
    rw [entryOf_congr ((sendToken_keeps ..).sbx rfl), ← hmark, entryOf_setEntry_same]
  · refine ⟨tokenTo marked e tag step u 0 false true d, ?_, rfl, rfl, rfl, rfl⟩
    change _ ∈ (sendToken marked e tag step u 0 false true).dev.trunk
    rw [trunk_sendToken]
    refine List.mem_append_right _ (List.mem_map_of_mem ?_)
    rw [← hmark]
    exact hd
  · rw [inboxOf_setCtx, inboxOf_setInbox_same] at hw
    exact bne_iff_ne.mp (List.mem_filter.mp hw).2
  · rw [ctxOf_setCtx_same, hbuf]
  · rw [ctxOf_setCtx_same, hheld]

/-- The state in which the station acts on a revoke token; MEDIA_LOST is reported of a poisoned one (R45). -/
def revokeOff (s : State) (dest tag : Nat) (p : Packet) : State :=
  if p.poison then report (tokenOff s p) tag dest 0x0F else tokenOff s p

theorem revokeOff_keeps (s : State) (dest tag : Nat) (p : Packet) : Keeps 1096 s (revokeOff s dest tag p) :=
  Keeps.ite ((report_keeps ..).via rfl ((tokenOff_keeps s p).mono rfl)) ((tokenOff_keeps s p).mono rfl)

theorem entryOf_revokeOff (he : entryOf s tag = some e) (dest : Nat) (p : Packet) :
    ∃ fail warn, entryOf (revokeOff s dest tag p) tag = some { e with fail := fail, warn := warn } := by
  have hoff : entryOf (tokenOff s p) tag = some e := (entryOf_congr ((tokenOff_keeps s p).sbx rfl) tag).trans he
  unfold revokeOff
  split
  · exact entryOf_report hoff dest 0x0F
  · exact ⟨e.fail, e.warn, hoff⟩

theorem exec_revokeTokenArrive_taken
    (ha : arriving s (fun q => q.src == src && q.dest == dest && q.tag == tag && q.revoke) = some p)
    (hg : (unitOf s dest).gen = p.destGen) (hb : pathBarred s p = false) :
    exec (.revokeTokenArrive src dest tag) s = .next (revokeAt (revokeOff s dest tag p) dest tag p.step) := by
  change execRevokeTokenArrive _ _ _ s = _
  simp [execRevokeTokenArrive, ha, hb, unitOf_wakePath, hg, revokeOff, tokenOff]

theorem revokeTokenArrive_passes (hu : Queues dest) (hg : (unitOf s dest).gen = p.destGen)
    (he : entryOf s tag = some e)
    (ha : arriving s (fun q => q.src == src && q.dest == dest && q.tag == tag && q.revoke) = some p)
    (h4 : kindOf dest ≠ 0x04) (h5 : kindOf dest ≠ 0x05) (hl : isLast s e p.step = false)
    (hb : pathBarred s p = false) :
    Nexts (exec (.revokeTokenArrive src dest tag) s) (RevokePassed s e dest tag p.step) := by
  obtain ⟨fail, warn, he'⟩ := entryOf_revokeOff he dest p
  have hcfg : (revokeOff s dest tag p).cfg = s.cfg := (revokeOff_keeps ..).cfg rfl
  have hsteps : stepsOf (revokeOff s dest tag p) { e with fail := fail, warn := warn } = stepsOf s e :=
    stepsOf_congr hcfg e
  have hunits : unitsAt (revokeOff s dest tag p) { e with fail := fail, warn := warn } (p.step + 1) =
      unitsAt s e (p.step + 1) := by
    simp only [unitsAt, hsteps]
  refine ⟨_, exec_revokeTokenArrive_taken ha hg hb, ?_⟩
  have hpass := revokeAt_passes hu h4 h5 he' (by rw [isLast, hsteps]; exact hl)
  rwa [RevokePassed, hunits] at hpass

end

/-- Settles O25: the end token that only joins the queue, then the revoke token that goes on from the station. -/
theorem endAndRevokeTokensTravelTheLine : Obligations.EndAndRevokeTokensTravelTheLine := by
  intro s src dest tag p e h2 h3 h13 hg he
  exact ⟨endTokenArrive_waitsInTurn ⟨h2, h3, h13⟩ hg he, revokeTokenArrive_passes ⟨h2, h3, h13⟩ hg he⟩

end Sys2Proof.Machine
end

section
/-! SUPPORT and O29. Tickets offered: entries, acceptance and refusal (04_lines_and_signal_box.md, R147, R148, R780). -/

namespace Sys2Proof.Machine

section
variable {s : State} {u tag st : Nat} {bs : Bytes} {e : Entry} {sub : Submitter}

/-! ## The end of a ticket of the device itself (R148, R175) -/

/-- What a ticket's end does to the signal box: the entry is free, and what the ticket held there is given back. -/
theorem freeTicket_sbx (s : State) (tag : Nat) (e : Entry) :
    (freeTicket s tag e).sbx = { s.sbx with
      store := Tab.erase s.sbx.store tag, stagingRoom := s.sbx.stagingRoom - e.room, dirty := s.sbx.dirty - e.dirtyKib } := by
  rw [freeTicket, (dropCtx_keeps ..).sbx rfl, (releaseHandles_keeps ..).sbx rfl, (leaveInside_keeps ..).sbx rfl,
    (dropMessages_keeps ..).sbx rfl]
  split <;> rfl

/-- A failure that is the ticket's first stands (R181). -/
theorem report_first_failure (he : entryOf s tag = some e) (hnone : e.fail = none) (h4 : 4 < st) (h : st < 0x12)
    (unit : Nat) : report s tag unit st = setEntry s tag { e with fail := some (st, unit) } := by
  have hwarn : ¬(st = 2 ∨ st = 3 ∨ st = 4) := by omega
  have hpos : st ≠ 0 := by omega
  simp [report, h, hpos, hwarn, modEntry_of_entry he, hnone]

/-- The device's own ticket leaves the store at its end, with one completion more to post. -/
theorem finishTicket_device (he : entryOf s tag = some e) (hsub : e.sub = .device) (hflush : s.sbx.flushMode = false)
    (hreset : e.instReset = false) :
    entryOf (finishTicket s tag) tag = none ∧
      (finishTicket s tag).sbx.posted = s.sbx.posted ++ [completionOf tag e] := by
  have hposts : posts (countEnd s e) e = true := by simp [posts, countEnd, hflush, hreset]
  have hend : (finishTicket s tag).sbx =
      (freeTicket { countEnd s e with sbx := { s.sbx with posted := s.sbx.posted ++ [completionOf tag e] } } tag e).sbx := by
    simp only [finishTicket, finishPlain, he, hposts, hsub, Bool.not_true, Bool.false_eq_true, if_false]
    rfl
  rw [entryOf, hend, freeTicket_sbx]
  exact ⟨Tab.get?_erase_same .., rfl⟩

/-- The device's own ticket that has waited completes with the status of the check that it failed (R148). -/
theorem endWaiting_device (he : entryOf s tag = some e) (hsub : e.sub = .device) (hflush : s.sbx.flushMode = false)
    (hreset : e.instReset = false) (hkey : e.keyRevoked = false) (hnone : e.fail = none) (h4 : 4 < st) (h : st < 0x12) :
    entryOf (endWaiting s tag st) tag = none ∧ ∃ x, (endWaiting s tag st).sbx.posted = s.sbx.posted ++ [x] ∧
      x.tag = tag ∧ x.cookie = e.t.cookie ∧ x.outLen = 0 ∧ x.status = st ∧ x.unit = 0xFF := by
  have hstatus : finalStatus { e with fail := some (st, 0xFF) } = (st, 0xFF) := by simp [finalStatus, hreset, hkey]
  have hlen : st ∉ [0, 2, 3, 4] := by simp; omega
  rw [endWaiting, report_first_failure he hnone h4 h]
  obtain ⟨hgone, hposted⟩ := finishTicket_device (entryOf_setEntry_same s tag { e with fail := some (st, 0xFF) })
    hsub hflush hreset
  refine ⟨hgone, _, hposted, rfl, rfl, ?_, congrArg Prod.fst hstatus, congrArg Prod.snd hstatus⟩
  simp [completionOf, hstatus, hlen]

/-! ## Acceptance (R147, R148) -/

/-- A ticket that fails acceptance does so with FORMAT, NOT_AUTHORISED or KEY_PENDING. -/
theorem status_of_acceptance {allowed : Bool} (h : acceptance s bs allowed = some st) :
    st = 0x10 ∨ st = 0x11 ∨ st = 0x09 := by
  unfold acceptance at h
  dsimp only at h
  split_ifs at h <;> cases h <;> decide

/-- The signal box has counted one arrival more. -/
def arrived (s : State) : State := { s with sbx := { s.sbx with arrivals := s.sbx.arrivals + 1 } }

/-- The entry of a ticket that has just been taken. -/
def takenEntry (s : State) (sub : Submitter) (t : Ticket) : Entry := { t := t, sub := sub, order := s.sbx.arrivals }

theorem submitTicket_of_no_entry (h : entryFree s (parseTicket bs).inst = none) : (submitTicket s sub bs).2 = s := by
  simp [submitTicket, h]

/-- The ticket's use of its key slot is counted, where it names one (R374). -/
def keySlotUsed (s : State) (t : Ticket) : State := if t.keySlot = 0xFFFF then s else useSlot s t.keySlot

theorem keySlotUsed_keeps (s : State) (t : Ticket) : Keeps 4096 s (keySlotUsed s t) :=
  Keeps.ite (Keeps.refl _ s) (useSlot_keeps ..)

theorem users_keySlotUsed (s : State) {t : Ticket} (h : t.keySlot ≠ 0xFFFF) :
    (slotOf (keySlotUsed s t) t.keySlot).users = (slotOf s t.keySlot).users + 1 := by
  rw [keySlotUsed, if_neg h, useSlot, slotOf_setSlot_same]

theorem submitTicket_of_accepted (h : entryFree s (parseTicket bs).inst = some tag)
    (hi : instState s (parseTicket bs).inst = .ready)
    (ha : acceptance s bs (mayActFor s sub (parseTicket bs).inst) = none) :
    (submitTicket s sub bs).2 = setEntry (keySlotUsed (arrived s) (parseTicket bs)) tag
      { takenEntry s sub (parseTicket bs) with keyUsed := decide ((parseTicket bs).keySlot ≠ 0xFFFF) } := by
  have hi' : instState (arrived s) (parseTicket bs).inst = .ready := hi
  have ha' : acceptance (arrived s) bs (mayActFor (arrived s) sub (parseTicket bs).inst) = none := ha
  simp only [arrived] at hi' ha'
  simp only [submitTicket, h, hi', ha', keySlotUsed]
  by_cases hkey : (parseTicket bs).keySlot = 0xFFFF <;> simp [hkey] <;> rfl

theorem submitTicket_of_failing (h : entryFree s (parseTicket bs).inst = some tag)
    (hi : instState s (parseTicket bs).inst = .ready)
    (ha : acceptance s bs (mayActFor s sub (parseTicket bs).inst) = some st) :
    (submitTicket s sub bs).2 =
      endWaiting (setEntry (arrived s) tag (takenEntry s sub (parseTicket bs))) tag st := by
  have hi' : instState (arrived s) (parseTicket bs).inst = .ready := hi
  have ha' : acceptance (arrived s) bs (mayActFor (arrived s) sub (parseTicket bs).inst) = some st := ha
  simp only [arrived] at hi' ha'
  simp only [submitTicket, h, hi', ha']
  rfl

/-- A ticket that passes every check waits in the store, and nothing is queued at a station. -/
theorem submitTicket_waits (h : entryFree s (parseTicket bs).inst = some tag)
    (hi : instState s (parseTicket bs).inst = .ready)
    (ha : acceptance s bs (mayActFor s sub (parseTicket bs).inst) = none) :
    Nexts (.next (submitTicket s sub bs).2) (fun r =>
      (∃ e, entryOf r tag = some e ∧ e.t = parseTicket bs ∧ e.sub = sub ∧ e.waiting = true ∧ e.admitted = 0 ∧
        e.order = s.sbx.arrivals ∧ e.keyUsed = decide ((parseTicket bs).keySlot ≠ 0xFFFF)) ∧
      ((parseTicket bs).keySlot ≠ 0xFFFF →
        (slotOf r (parseTicket bs).keySlot).users = (slotOf s (parseTicket bs).keySlot).users + 1) ∧
      (∀ g, g ≠ tag → entryOf r g = entryOf s g) ∧ r.stn = s.stn ∧ r.dev = s.dev) := by
  have hslot := keySlotUsed_keeps (arrived s) (parseTicket bs)
  refine ⟨_, rfl, ?_⟩
  rw [submitTicket_of_accepted h hi ha]
  refine ⟨⟨_, entryOf_setEntry_same .., rfl, rfl, rfl, rfl, rfl, rfl⟩, users_keySlotUsed (arrived s), fun g hg => ?_,
    hslot.stn rfl, hslot.dev rfl⟩
  rw [entryOf_setEntry, if_neg hg]
  exact entryOf_congr (hslot.sbx rfl) g

/-- The device's own ticket that fails a check completes at once with its status. -/
theorem submitTicket_refused (h : entryFree s (parseTicket bs).inst = some tag)
    (hi : instState s (parseTicket bs).inst = .ready) (hsub : sub = .device) (hflush : s.sbx.flushMode = false)
    (ha : acceptance s bs (mayActFor s sub (parseTicket bs).inst) = some st) :
    Nexts (.next (submitTicket s sub bs).2) (fun r =>
      entryOf r tag = none ∧ ∃ x, r.sbx.posted = s.sbx.posted ++ [x] ∧ x.tag = tag ∧ x.cookie = (parseTicket bs).cookie ∧
        x.outLen = 0 ∧ x.status = st ∧ x.unit = 0xFF) := by
  obtain ⟨h4, h12⟩ : 4 < st ∧ st < 0x12 := by rcases status_of_acceptance ha with rfl | rfl | rfl <;> decide
  refine ⟨_, rfl, ?_⟩
  rw [submitTicket_of_failing h hi ha]
  exact endWaiting_device (entryOf_setEntry_same ..) hsub hflush rfl rfl rfl h4 h12

/-! ## Who offers a ticket -/

/-- The submitter that unit `u` is (R147). -/
def submitterOf (u : Nat) : Submitter := if u = 189 then .device else if u = 190 then .junction 0xFFFFFFFF else .core u

/-- The ticket goes to the signal box; of the rest only the map engine may have noted its fold ticket (R293). -/
theorem exec_ticketSubmit_offered
    (h : u ≠ 189 ∨ (engineForm (fit 64 bs) && engineOffers s (parseTicket (fit 64 bs)).line) = true) :
    ∃ f, exec (.ticketSubmit u bs) s = .next (submitTicket (setFtl s f) (submitterOf u) (fit 64 bs)).2 := by
  change ∃ f, execTicketSubmit u bs s = _
  by_cases hu : u = 189
  · have hform := h.resolve_left (not_not_intro hu)
    simp only [execTicketSubmit, if_pos hu, if_pos hform, submitterOf]
    split
    · exact ⟨_, rfl⟩
    · exact ⟨s.ftl, rfl⟩
  · refine ⟨s.ftl, ?_⟩
    simp only [execTicketSubmit, if_neg hu, submitterOf]
    rfl

theorem exec_ticketSubmit_withheld (hu : u = 189)
    (h : (engineForm (fit 64 bs) && engineOffers s (parseTicket (fit 64 bs)).line) = false) :
    exec (.ticketSubmit u bs) s = .next s := by
  change execTicketSubmit u bs s = _
  simp [execTicketSubmit, hu, h]

end

/-- Settles O29: the map engine that has nothing to offer, then the fates of a ticket that is offered. -/
theorem ticketsAreTakenCheckedAndRefused : Obligations.TicketsAreTakenCheckedAndRefused := by
  intro s u tag st bs t sub
  refine ⟨exec_ticketSubmit_withheld, fun hoffer => ?_⟩
  obtain ⟨f, hexec⟩ := exec_ticketSubmit_offered hoffer
  rw [hexec]
  refine ⟨fun hfull => ⟨_, rfl, ?_⟩, submitTicket_waits (s := setFtl s f), fun hfree hready hu =>
    submitTicket_refused (s := setFtl s f) hfree hready (if_pos hu)⟩
  rw [submitTicket_of_no_entry (s := setFtl s f) (sub := submitterOf u) hfull]
  rfl

end Sys2Proof.Machine
end

section
/-! SUPPORT and O30. The admission of a ticket's first portion (04_lines_and_signal_box.md, R150–R154, R162–R164). -/

namespace Sys2Proof.Machine

section
variable {s : State} {tag : Nat} {e0 e e' : Entry} {st : LStep}

/-! ## The units that a portion reaches (R150, R154) -/

/-- `e'` is an entry of the same ticket and submitter. -/
def SameTicket (e e' : Entry) : Prop := e'.t = e.t ∧ e'.sub = e.sub

theorem SameTicket.foldl {α : Type} {f : Entry → α → Entry} (hf : ∀ x a, SameTicket x (f x a)) (l : List α) (e : Entry) :
    SameTicket e (l.foldl f e) := by
  induction l generalizing e with
  | nil => exact ⟨rfl, rfl⟩
  | cons a l ih =>
    obtain ⟨ht, hsub⟩ := hf e a
    obtain ⟨ht', hsub'⟩ := ih (f e a)
    exact ⟨ht'.trans ht, hsub'.trans hsub⟩

theorem resolveStep_sameTicket (s : State) (e : Entry) (j n0 len : Nat) : SameTicket e (resolveStep s e j n0 len) := by
  refine SameTicket.foldl (fun x i => ?_) _ e
  dsimp only
  split
  · exact ⟨rfl, rfl⟩
  · split <;> exact ⟨rfl, rfl⟩

/-- To resolve a portion's units changes neither the ticket nor its submitter. -/
theorem resolve_sameTicket {k : Nat} (h : resolve s e0 k = some e) : SameTicket e0 e := by
  obtain ⟨us, -, rfl⟩ := Option.map_eq_some_iff.mp h
  refine SameTicket.foldl (fun x j => ?_) _ { e0 with units := us }
  split
  · exact resolveStep_sameTicket ..
  · exact ⟨rfl, rfl⟩

/-- The units that were chosen are among those that the portion reaches (R151). -/
theorem reached_of_chosen {k u : Nat} (h : u ∈ chosen s e k) : u ∈ reached s e k := by
  obtain ⟨j, hj, hu⟩ := List.mem_flatMap.mp (List.mem_eraseDups.mp h)
  refine List.mem_eraseDups.mpr (List.mem_flatMap.mpr ⟨j, hj, ?_⟩)
  split at hu
  · cases hu
  · exact hu

/-! ## A first portion that waits -/

/-- The first portion of a ticket waits for admission outside flush mode, and its units are known: `e` is its entry `e0` with them. -/
structure FirstWaits (s : State) (tag : Nat) (e0 e : Entry) : Prop where
  flush : s.sbx.flushMode = false
  entry : entryOf s tag = some e0
  waiting : e0.waiting = true
  fenced : e0.fenced = false
  revoking : e0.revoking = false
  admitted : e0.admitted = 0
  len : 0 < e0.t.len
  deadline : e0.t.deadline = 0
  share : e0.t.inst = 0 ∨ eff s (Reg.SBX_SHARE + 4 * e0.t.inst) 16 0 ≠ 0
  resolved : resolve s e0 0 = some e

/-- The estimate of the first portion (R161). -/
def firstEst (s : State) (e : Entry) : Nat := ((estimate s e 0).map (·.2)).sum

/-- The dirty KiB of the first portion (R163). -/
def firstDirty (s : State) (e0 e : Entry) : Nat :=
  if (lineOf s e0.t.line).dirty then ceilDiv (portionLen e.t 0) 4096 * 4 else 0

theorem portionsOf_pos {t : Ticket} (h : 0 < t.len) : 0 < portionsOf t := by
  unfold portionsOf ceilDiv portionBytes
  omega

/-- None of the grounds on which a portion is left out of consideration holds. -/
theorem FirstWaits.considered (h : FirstWaits s tag e0 e) :
    ¬(!e0.waiting || e0.fenced || e0.revoking || decide (portionsOf e0.t ≤ e0.admitted) ||
      s.sbx.flushMode && !(lineOf s e0.t.line).flush ||
      !s.sbx.flushMode && decide (e0.t.inst ≠ 0) && eff s (Reg.SBX_SHARE + 4 * e0.t.inst) 16 0 == 0 ||
      e0.admitted == 0 && e0.t.deadline != 0 && decide (e0.t.deadline ≤ e0.budget)) = true := by
  have hportions : portionsOf e0.t ≠ 0 := Nat.pos_iff_ne_zero.mp (portionsOf_pos h.len)
  have hshare : e0.t.inst ≠ 0 → eff s (Reg.SBX_SHARE + 4 * e0.t.inst) 16 0 ≠ 0 := h.share.resolve_left
  simpa [h.waiting, h.fenced, h.revoking, h.admitted, h.flush, h.deadline, hportions] using hshare

/-- A portion that the budget holds back stays, marked as passed over (R162). -/
theorem tryAdmit_passedOver (h : FirstWaits s tag e0 e)
    (hb : budgetHolds s e (firstEst s e) (firstDirty s e0 e) = true) :
    tryAdmit s tag = setEntry s tag { e0 with passed := true } := by
  unfold tryAdmit
  rw [h.entry]
  refine (if_neg h.considered).trans ?_
  rw [h.admitted, h.resolved]
  refine if_pos ?_
  rw [h.flush]
  exact hb

/-! ## Admission (R151–R154, R156) -/

/-- Every condition of the admission of a first portion holds, but for the budget. -/
structure Admissible (s : State) (e : Entry) : Prop where
  room : firstRoom s e 0 = true
  order : orderHolds s e = false
  staging : s.sbx.stagingRoom + stagingNeed s e ≤ stagingBytes s
  calm : ∀ u ∈ reached s e 0, fenBusy s u = false
  untested : testHolds s e (reached s e 0) = false
  served : ∀ u ∈ reached s e 0, serves s u e.t.inst = true
  captured : e.captured = []
  logical : logicalCheck s e.t 0 = none

/-- What the power manager, the counters and the map engine note of an admitted first portion. -/
def admissionNoted (s : State) (e : Entry) : State :=
  let t := (estimate s e 0).foldl (fun t p => book t p.1 p.2) (payErases s e)
  let t := if decide (s.sbx.allowance < firstEst s e) && !s.sbx.flushMode then bump t Reg.SBX_EVENTS 31 16 1 else t
  (Tab.keep e.refs (fun n _ => decide (0 * portionBytes / 4096 ≤ n))).foldl (fun t p => resolveMap t p.2.index) t

theorem admissionNoted_keeps (s : State) (e : Entry) : Keeps 16778256 s (admissionNoted s e) := by
  refine Keeps.foldl (fun t p => (resolveMap_keeps ..).mono rfl) ?_
  have hbook : Keeps 16778256 s ((estimate s e 0).foldl (fun t p => book t p.1 p.2) (payErases s e)) :=
    Keeps.foldl (fun t p => (book_keeps ..).mono rfl) ((payErases_keeps ..).mono rfl)
  exact Keeps.ite ((bump_keeps ..).via rfl hbook) hbook

/-- The state once an admitted first portion is charged (R152, R163, R164). -/
def admissionCharged (s : State) (e0 e : Entry) : State :=
  let t := admissionNoted s e
  { t with sbx := { t.sbx with
    remaining := t.sbx.remaining - firstEst s e
    credit := Tab.put 0 t.sbx.credit e.t.inst (Tab.getD t.sbx.credit e.t.inst 0 - firstEst s e)
    dirty := t.sbx.dirty + firstDirty s e0 e
    stagingRoom := t.sbx.stagingRoom + stagingNeed s e
    firstDone := true
    arrivals := s.sbx.arrivals + 1 } }

/-- The entry of a ticket whose first portion is admitted (R153, R154). -/
def admittedEntry (s : State) (e0 e : Entry) : Entry := { e with
  admitted := 1
  captured := (reached s e 0).foldl (fun t u => Tab.set t u (unitOf s u).gen) e.captured
  room := e.room + stagingNeed s e
  dirtyKib := e.dirtyKib + firstDirty s e0 e
  mark := (admissionCharged s e0 e).ftl.nextStaged
  waiting := decide (1 < portionsOf e.t)
  order := s.sbx.arrivals
  age := 0
  passed := false }

/-- Portion `k` goes to its first station, or to each one that a mapped first step reaches (R36, R154). -/
def sendPortion (s : State) (tag : Nat) (e : Entry) (k : Nat) : State :=
  let first := k * portionBytes
  match (stepsOf s e).head? with
  | none => s
  | some st =>
    if st.sel = 2 then
      (List.range (ceilDiv (portionLen e.t k) 4096)).foldl (fun s n =>
        startAt s (Tab.getD e.places (placeKey 0 (first / 4096 + n)) 0) (.start tag 0 (first + 4096 * n) 4096)) s
    else startAt s (Tab.getD e.units 0 0) (.start tag 0 first (portionLen e.t k))

theorem sendPortion_of_unit (hst : (stepsOf s e).head? = some st) (hsel : st.sel ≠ 2) (tag k : Nat) :
    sendPortion s tag e k = startAt s (Tab.getD e.units 0 0) (.start tag 0 (k * portionBytes) (portionLen e.t k)) := by
  simp [sendPortion, hst, hsel]

/-- A portion that nothing holds back is charged and sent to its first station. -/
theorem tryAdmit_admits (h : FirstWaits s tag e0 e) (hb : budgetHolds s e (firstEst s e) (firstDirty s e0 e) = false)
    (ha : Admissible s e) :
    tryAdmit s tag = sendPortion (admitJunction (setEntry (admissionCharged s e0 e) tag (admittedEntry s e0 e))
      (admittedEntry s e0 e)) tag (admittedEntry s e0 e) 0 := by
  unfold tryAdmit
  rw [h.entry]
  refine (if_neg h.considered).trans ?_
  rw [h.admitted, h.resolved]
  refine (if_neg ?budget).trans <| (if_neg ?room).trans <| (if_neg ?busy).trans <|
    (if_neg ?served).trans <| (if_neg ?gens).trans <| (if_neg ?logical).trans rfl
  case budget =>
    rw [h.flush]
    exact Bool.eq_false_iff.mp hb
  case room => simpa [ha.room, ha.order] using ha.staging
  case busy => simpa [ha.untested] using ha.calm
  case served => simpa using fun u hu => ha.served u (reached_of_chosen hu)
  case gens => simp [ha.captured]
  case logical => simp [ha.logical]

/-! ## What an admission leaves -/

/-- The signal box once the charged ticket's entry `x` is put and its portion is under way (R152, R163, R164). -/
theorem started_sbx (s : State) (tag : Nat) (e0 e x : Entry) (u : Nat) (w : Work) :
    (startAt (setEntry (admissionCharged s e0 e) tag x) u w).sbx = { s.sbx with
      store := Tab.set s.sbx.store tag x
      remaining := s.sbx.remaining - firstEst s e
      credit := Tab.put 0 s.sbx.credit e.t.inst (Tab.getD s.sbx.credit e.t.inst 0 - firstEst s e)
      dirty := s.sbx.dirty + firstDirty s e0 e
      stagingRoom := s.sbx.stagingRoom + stagingNeed s e
      firstDone := true
      arrivals := s.sbx.arrivals + 1 } := by
  have hnoted : (admissionNoted s e).sbx = s.sbx := (admissionNoted_keeps s e).sbx rfl
  rw [(startAt_keeps ..).sbx rfl]
  simp only [setEntry, admissionCharged, hnoted]

theorem inboxOf_startAt (s : State) (u : Nat) (w : Work) : inboxOf (startAt s u w) u = inboxOf s u ++ [w] := by
  rw [startAt, inboxOf_congr ((wakeFor_keeps ..).stn rfl), enqueue, inboxOf_setInbox_same]

/-- The GEN of every unit that the portion reaches is captured (R154). -/
theorem captured_admittedEntry {u : Nat} (hu : u ∈ reached s e 0) :
    Tab.get? (admittedEntry s e0 e).captured u = some (unitOf s u).gen := by
  rw [admittedEntry, Tab.get?_foldl_set_keys (fun u => (unitOf s u).gen), if_pos hu]

theorem admitJunction_device (h : e.sub = .device) : admitJunction s e = s := by
  rw [admitJunction, h]

/-- A portion of the device whose first step is one unit is last in that unit's queue. -/
theorem tryAdmit_starts (h : FirstWaits s tag e0 e) (hb : budgetHolds s e (firstEst s e) (firstDirty s e0 e) = false)
    (ha : Admissible s e) (hsub : e.sub = .device) (hst : (stepsOf s e).head? = some st) (hsel : st.sel ≠ 2) :
    tryAdmit s tag = startAt (setEntry (admissionCharged s e0 e) tag (admittedEntry s e0 e)) (Tab.getD e.units 0 0)
      (.start tag 0 0 (portionLen e.t 0)) := by
  have hcfg : (setEntry (admissionCharged s e0 e) tag (admittedEntry s e0 e)).cfg = s.cfg :=
    (admissionNoted_keeps s e).cfg rfl
  have hhead : (stepsOf (setEntry (admissionCharged s e0 e) tag (admittedEntry s e0 e)) (admittedEntry s e0 e)).head? =
      some st := by
    rw [stepsOf_congr hcfg]
    exact hst
  rw [tryAdmit_admits h hb ha, admitJunction_device (e := admittedEntry s e0 e) hsub, sendPortion_of_unit hhead hsel,
    Nat.zero_mul]
  rfl

/-! ## PORTION_CONSIDER (R160, R162) -/

/-- A portion that is tried and not admitted does not move the round of its group. -/
theorem admitOne_of_unadmitted (he : entryOf s tag = some e0)
    (h : (entryOf (tryAdmit s tag) tag).map (·.admitted) = some e0.admitted) (last : Nat) :
    admitOne s last tag = (tryAdmit s tag, last) := by
  simp [admitOne, he, h]

/-- The portion is tried; of the rest only the rounds of R162 may change, and none does where it was not admitted. -/
theorem exec_portionConsider (he : entryOf s tag = some e0) :
    ∃ l, exec (.portionConsider tag) s =
        .next { tryAdmit s tag with sbx := { (tryAdmit s tag).sbx with lastServed := l } } ∧
      ((entryOf (tryAdmit s tag) tag).map (·.admitted) = some e0.admitted → l = s.sbx.lastServed) := by
  change ∃ l, execPortionConsider tag s = _ ∧ _
  simp only [execPortionConsider, he]
  refine ⟨_, rfl, fun h => ?_⟩
  simp only [admitOne_of_unadmitted he h]
  generalize (if isAged s e0 then 0 else if isSmall s e0 then 1 else 2) = g
  by_cases h0 : g = 0
  · simp [h0]
  · by_cases h1 : g = 1 <;> simp [h0, h1]

end

/-- Settles O30: the portion that the budget holds back, then the one that is admitted. -/
theorem portionsAreAdmittedWithinTheBudget : Obligations.PortionsAreAdmittedWithinTheBudget := by
  intro s tag e0 e st est dirty hflush he hwait hfence hrevoke hadm hlen hdead hshare hres
  have hw : FirstWaits s tag e0 e := ⟨hflush, he, hwait, hfence, hrevoke, hadm, hlen, hdead, hshare, hres⟩
  obtain ⟨l, hexec, hround⟩ := exec_portionConsider he
  rw [hexec]
  refine ⟨fun hb => ?held, fun hb hroom horder hstaging hcalm htest hserves hcap hlogical hsub _ hst hsel =>
    ⟨_, rfl, ?admitted⟩⟩
  case held =>
    rw [tryAdmit_passedOver hw hb] at hround ⊢
    rw [hround (by rw [entryOf_setEntry_same]; rfl)]
    rfl
  case admitted =>
    obtain ⟨ht, hsame⟩ := resolve_sameTicket hres
    have ha : Admissible s e := ⟨hroom, horder, hstaging, hcalm, htest, hserves, hcap, hlogical⟩
    have hsel2 : st.sel ≠ 2 := by omega
    have hsbx := started_sbx s tag e0 e (admittedEntry s e0 e) (Tab.getD e.units 0 0) (.start tag 0 0 (portionLen e.t 0))
    rw [tryAdmit_starts hw hb ha (hsame.trans hsub) hst hsel2, hsbx]
    refine ⟨⟨admittedEntry s e0 e, Tab.get?_set_same .., rfl, ht, ?_, fun u => captured_admittedEntry⟩, rfl,
      Tab.getD_put_same .., rfl, ?_⟩
    · rw [← ht]
      rfl
    · refine (inboxOf_startAt ..).trans (congrArg (· ++ _) (inboxOf_congr ?_ _))
      exact (admissionNoted_keeps s e).stn rfl

end Sys2Proof.Machine
end

section
/-! SUPPORT and O32. The peat bank: its states, its charger and its measurement (05_energy_and_heat.md, R206–R210, R219). -/

namespace Sys2Proof.Machine

section
variable {s : State} {b : Nat}

/-! ## A record changes no stored register but the recorder's counters (R724, R727) -/

theorem liveWord_writeRecord (s : State) (r : EventRec) (b : Nat) : liveWord (writeRecord s r) b = liveWord s b := by
  rw [liveWord, (writeRecord_keeps s r).regs rfl, liveWord]

theorem liveWord_bump_other (s : State) {a b : Nat} (h : b ≠ a) (hi lo k : Nat) :
    liveWord (bump s a hi lo k) b = liveWord s b := by
  rw [bump, liveWord_setLive, if_neg h]

theorem liveWord_putRecord (hb : b ≠ Reg.EVR_COUNTS) (s : State) (r : EventRec) :
    liveWord (putRecord s r) b = liveWord s b := by
  unfold putRecord
  split
  · split
    · rfl
    · exact liveWord_bump_other s hb _ _ _
  · exact liveWord_writeRecord s r b

theorem liveWord_endSecond (hb : b ≠ Reg.EVR_COUNTS) (s : State) : liveWord (endSecond s) b = liveWord s b := by
  unfold endSecond
  dsimp only
  refine List.foldlRecOn (motive := fun t => liveWord t b = liveWord s b) _ _ rfl fun t ht p _ => ?_
  rw [liveWord_putRecord hb, liveWord_bump_other t hb, ht]

theorem liveWord_record (hb : b ≠ Reg.EVR_COUNTS) (s : State) (event sev status unit inst : Nat) (detail : Bytes) :
    liveWord (record s event sev status unit inst detail) b = liveWord s b := by
  have hfresh (fresh : Prop) [Decidable fresh] (e : Evr) :
      liveWord { (if fresh then endSecond s else s) with evr := e } b = liveWord s b := by
    split
    · exact liveWord_endSecond hb s
    · rfl
  have hite {written : Prop} [Decidable written] {t u : State} (ht : liveWord t b = liveWord s b)
      (hu : liveWord u b = liveWord s b) : liveWord (if written then t else u) b = liveWord s b := by
    split <;> assumption
  unfold record
  dsimp only
  split
  · exact liveWord_putRecord hb s _
  · exact hite ((liveWord_writeRecord _ _ b).trans (hfresh _ _)) (hfresh _ _)

theorem live_record (hb : b ≠ Reg.EVR_COUNTS) (s : State) (event sev status unit inst : Nat) (detail : Bytes) (hi lo : Nat) :
    live (record s event sev status unit inst detail) b hi lo = live s b hi lo := by
  rw [live, liveWord_record hb, live]

/-! ## Health bits and FAULT (R209, R328) -/

/-- A critical warning bit that is set reads 1, whether or not it stood before. -/
theorem testBit_setHealth {k : Nat} (hk : k < 8) (s : State) :
    (live (setHealth s k true) Reg.FTL_HEALTH 23 16).testBit k = true := by
  have hwidth : 2 ^ (23 - 16 + 1) = 2 ^ 8 := rfl
  by_cases hold : bitOf (live s Reg.FTL_HEALTH 23 16) k = true
  · rw [setHealth, if_pos hold]
    exact hold
  · have hclear : (live s Reg.FTL_HEALTH 23 16).testBit k = false := eq_false_of_ne_true hold
    rw [setHealth, if_neg hold]
    simp only [if_true]
    rw [live_record (by decide), live_setLive_same _ _ _ _ _ (by decide), hwidth, Nat.testBit_mod_two_pow,
      Nat.add_comm, Nat.testBit_two_pow_add_eq, hclear]
    simp [hk]

theorem setHealth_pwr (s : State) (k : Nat) (on : Bool) : (setHealth s k on).pwr = s.pwr := (setHealth_keeps s k on).pwr rfl

/-- R209: what FAULT does to the power manager. -/
theorem peatFault_pwr (s : State) :
    (peatFault s).pwr = { s.pwr with peat := .fault, chgEn := false, disEn := false } := setHealth_pwr ..

end

section
variable {s : State} {mv q fall : Nat}

/-! ## Charging (R206, R207, R209) -/

theorem peatRampElapsed_charges (h : s.pwr.peat = .ramp) :
    Nexts (exec .peatRampElapsed s) (fun t => t.pwr.peat = .charging ∧ t.pwr.chgEn = true) :=
  ⟨_, if_pos h, rfl, rfl⟩

theorem peatTargetReached_ready (h : s.pwr.peat = .charging) (hv : vTarget s.pwr ≤ mv) :
    Nexts (exec (.peatTargetReached mv) s) (fun t => t.pwr.peat = .ready ∧
      t.pwr.measAsked = (s.pwr.measAsked || s.pwr.cMeas == 0)) :=
  ⟨_, if_pos ⟨h, hv⟩, rfl, rfl⟩

/-- R209: above VMAX × 105 % the state is FAULT. -/
theorem peatOvervoltage_faults (hp : s.pwr.peat ≠ .unfused) (hmax : 0 < s.pwr.vmaxDv)
    (hv : s.pwr.vmaxDv * 100 * 105 < mv * 100) : Nexts (exec (.peatOvervoltage mv) s) (fun t =>
      t.pwr.peat = .fault ∧ t.pwr.chgEn = false ∧ (live t Reg.FTL_HEALTH 23 16).testBit 4 = true) := by
  refine ⟨_, if_pos ⟨hmax.ne', hv, hp⟩, ?_, ?_, testBit_setHealth (by decide) _⟩ <;> rw [peatFault_pwr]

/-- R206: 2 % above v_t the comparator stops the charger. -/
theorem peatOvervoltage_stopsCharger (hmax : mv * 100 ≤ s.pwr.vmaxDv * 100 * 105) (hv : vTarget s.pwr * 102 < mv * 100) :
    Nexts (exec (.peatOvervoltage mv) s) (fun t => t.pwr.peat = s.pwr.peat ∧ t.pwr.chgEn = false) := by
  refine ⟨_, if_neg fun ⟨_, hover, _⟩ => by omega, rfl, ?_⟩
  simp [hv]

theorem peatFloorTimeout_faults (h : s.pwr.peat = .charging) (hv : mv < vfloorMv s) :
    Nexts (exec (.peatFloorTimeout mv) s) (fun t => t.pwr.peat = .fault ∧ t.pwr.chgEn = false) := by
  refine ⟨_, if_pos ⟨h, hv⟩, ?_, ?_⟩ <;> rw [peatFault_pwr]

/-! ## The measurement (R210, R231) -/

theorem measurementDue_starts (h : s.pwr.peat = .ready) (hr : reserveMj s * 100 ≤ usableAt s s.pwr.vMv * 92) :
    Nexts (exec .measurementDue s) (fun t => t.pwr.peat = .measuring ∧ t.pwr.chgEn = false ∧ t.pwr.disEn = true) :=
  ⟨_, if_pos ⟨h, hr⟩, rfl, rfl, rfl⟩

/-- R210: a measurement that may not start stays asked for, and the postponement is counted. -/
theorem measurementDue_postpones (h : s.pwr.peat ≠ .ready ∨ usableAt s s.pwr.vMv * 92 < reserveMj s * 100) :
    Nexts (exec .measurementDue s) (fun t => t.pwr.peat = s.pwr.peat ∧ t.pwr.measAsked = true ∧
      live t Reg.PWR_MEAS_STATUS 23 16 = min (live s Reg.PWR_MEAS_STATUS 23 16 + 1) 255) := by
  have hnot : ¬(s.pwr.peat = .ready ∧ reserveMj s * 100 ≤ usableAt s s.pwr.vMv * 92) := by
    rintro ⟨hready, hle⟩
    exact h.elim (· hready) (by omega)
  exact ⟨_, if_neg hnot, rfl, rfl, live_bump_same _ _ _ _ _ (by decide)⟩

/-- R209: a bank that is full and cannot cover zero dirty data is in FAULT. -/
theorem fullBank_judged {t : State} (hp : t.pwr.peat = .charging) (hd : t.pwr.disEn = false) :
    Nexts (if t.pwr.full * 100 / 125 ≤ fixedMj t then .next (peatFault t) else .next t) (fun r =>
      r.pwr.cMeas = t.pwr.cMeas ∧ r.pwr.disEn = false ∧
      r.pwr.peat = if r.pwr.full * 100 / 125 ≤ fixedMj t then .fault else .charging) := by
  by_cases hfull : t.pwr.full * 100 / 125 ≤ fixedMj t
  · refine ⟨_, if_pos hfull, ?_⟩
    dsimp only
    rw [peatFault_pwr]
    exact ⟨rfl, rfl, (if_pos hfull).symm⟩
  · exact ⟨_, if_neg hfull, rfl, hd, hp.trans (if_neg hfull).symm⟩

/-- R209, R210: the capacitance measured, and the judgement of the full bank that follows it. -/
theorem measurementDone_judges (h : s.pwr.peat = .measuring) (hfall : 0 < fall) :
    Nexts (exec (.measurementDone q fall) s) (fun t => t.pwr.cMeas = q * 1000 / fall ∧ t.pwr.disEn = false ∧
      t.pwr.peat = if t.pwr.full * 100 / 125 ≤ fixedMj s then .fault else .charging) := by
  change Nexts (execMeasurementDone q fall s) _
  rw [execMeasurementDone, if_pos ⟨h, hfall.ne'⟩]
  exact fullBank_judged rfl rfl

theorem measurementTimeout_invalid (h : s.pwr.peat = .measuring) :
    Nexts (exec .measurementTimeout s) (fun t => t.pwr.peat = .charging ∧ t.pwr.cMeas = s.pwr.cMeas ∧
      t.pwr.disEn = false ∧ live t Reg.PWR_MEAS_STATUS 25 24 = 2) :=
  ⟨_, if_pos h, rfl, rfl, rfl, live_setLive_same _ _ _ _ _ (by decide)⟩

/-- R219: the filter, and its floor. -/
theorem baseMwUpdate_filters (s : State) (eIn eCh : Nat) :
    Nexts (exec (.baseMwUpdate eIn eCh) s) (fun t => 2000 ≤ t.pwr.baseMw ∧ (t.pwr.baseMw : Int) =
      max 2000 ((7 * (s.pwr.baseMw : Int) + ((eIn : Int) - eCh - ((s.pwr.ests.drop 1).sum / 1000 : Nat))) / 8)) := by
  refine ⟨_, rfl, ?_⟩
  simp only [setPwr_pwr]
  generalize (7 * (s.pwr.baseMw : Int) + ((eIn : Int) - eCh - ((s.pwr.ests.drop 1).sum / 1000 : Nat))) / 8 = filtered
  omega

end

/-- Settles O32, one lemma for each row of the state table. -/
theorem thePeatBankMovesAsItsStateTableSays : Obligations.ThePeatBankMovesAsItsStateTableSays := by
  intro s mv q fall eIn eCh p
  exact ⟨peatRampElapsed_charges, peatTargetReached_ready, peatOvervoltage_faults, peatOvervoltage_stopsCharger,
    peatFloorTimeout_faults, ⟨_, rfl, rfl⟩, measurementDue_starts, measurementDue_postpones, measurementDone_judges,
    measurementTimeout_invalid, baseMwUpdate_filters s eIn eCh⟩

end Sys2Proof.Machine
end

section
/-! SUPPORT. Power loss is declared, and the device is off: what the power manager is left with (R208, R222, R766). -/

namespace Sys2Proof.Machine

section
variable {s : State}

/-- The power manager once power loss is declared (R208): the peat outputs, HOLDUP from states 1 to 4, and the flush at step 3. -/
def lossPwr (p : Pwr) : Pwr :=
  { p with
    powerLoss := true, rbGate := false, chgEn := false, disEn := false, holdupEn := true,
    peat := if !peatDown p.peat then .holdup else p.peat, flushStep := 3 }

@[simp] theorem lossPwr_flushStep (p : Pwr) : (lossPwr p).flushStep = 3 := rfl

/-- A start that power loss finds in progress is abandoned and counted (R692). -/
def startAbandoned (s : State) : State :=
  if s.boot.begun then bump (setBoot s { s.boot with abandoned := true }) Reg.BOOT_WARM 31 16 1 else s

theorem startAbandoned_keeps (s : State) : Keeps 131088 s (startAbandoned s) :=
  Keeps.ite (Keeps.via (bump_keeps ..) rfl (Keeps.via (setBoot_keeps ..) rfl (Keeps.refl _ _))) (Keeps.refl _ _)

/-- The declaration of R208 on a device that is on, where none stands yet. -/
theorem declareLoss_of_on (hoff : s.boot.off = false) (hloss : s.pwr.powerLoss = false) :
    declareLoss s = dropOutside (enterFlush (startAbandoned (setPwr s (lossPwr s.pwr)))) := by
  rw [declareLoss, hoff, hloss]
  rfl

theorem declareLoss_pwr (hoff : s.boot.off = false) (hloss : s.pwr.powerLoss = false) :
    (declareLoss s).pwr = lossPwr s.pwr := by
  rw [declareLoss_of_on hoff hloss, (dropOutside_keeps _).pwr rfl, (enterFlush_keeps _).pwr rfl,
    (startAbandoned_keeps _).pwr rfl, setPwr_pwr]

/-- R766: the outputs of a device that is off, and its domains. -/
theorem turnOff_pwr (s : State) : (turnOff s).pwr = (stopClocks (gateOff (setPwr s { s.pwr with
    rbGate := false, chgEn := false, disEn := false, holdupEn := false, flushStep := 0, powerLoss := false })
      (fun _ => true))).pwr :=
  (Keeps.foldl (m := 33554432) (fun _ _ => setDram_keeps ..) (Keeps.refl _ _)).pwr rfl

end

end Sys2Proof.Machine
end

section
/-! SUPPORT and O33. Power domains, operating points and heat (05_energy_and_heat.md, R199–R201, R220–R222). -/

namespace Sys2Proof.Machine

section
variable {s : State} {g k u point mhz : Nat} {ok : List Nat}

/-! ## Islands that change one after another -/

/-- Islands that are changed in turn, each by a change that is the same when it is done again. -/
theorem islandAt_foldl {step : State → Nat → State} {f : Nat → Island → Island}
    (hstep : ∀ t k j, islandAt (step t k) j = if j = k then f k (islandAt t k) else islandAt t j)
    (hf : ∀ k i, f k (f k i) = f k i) (l : List Nat) (s : State) (j : Nat) :
    islandAt (l.foldl step s) j = if j ∈ l then f j (islandAt s j) else islandAt s j := by
  induction l generalizing s with
  | nil => rfl
  | cons k l ih =>
    rw [List.foldl_cons, ih, hstep]
    by_cases hjk : j = k
    · subst hjk
      by_cases hl : j ∈ l <;> simp [hl, hf]
    · simp [hjk]

theorem islandAt_setGroupDom {f : Nat → Island → Island} (hf : ∀ k i, f k (f k i) = f k i) (s : State) (g j : Nat) :
    islandAt (setGroupDom s g f) j = if j ∈ groupIslands s g then f j (islandAt s j) else islandAt s j :=
  islandAt_foldl (fun t k j => islandAt_setIsland t k j _) hf (groupIslands s g) s j

/-! ## RET, OFF and waking (R201) -/

theorem domainRetention_enters (hk : k ∈ groupIslands s g)
    (hidle : ∀ j ∈ groupIslands s g, (islandAt s j).dom = .on ∧ (islandAt s j).idleLimit ≠ 0 ∧
      (islandAt s j).idleLimit ≤ (islandAt s j).idle) :
    Nexts (exec (.domainRetention g) s) (fun t => (islandAt t k).dom = .ret ∧ (islandAt t k).mhz = 0 ∧
      (islandAt t k).retSince = s.now) := by
  refine ⟨_, if_pos (List.all_eq_true.mpr fun j hj => ?_), ?_⟩
  · obtain ⟨hon, hlimit, hle⟩ := hidle j hj
    simp [hon, hlimit, hle]
  · beta_reduce
    rw [islandAt_setGroupDom, if_pos hk]
    · exact ⟨rfl, rfl, rfl⟩
    · exact fun _ _ => rfl

theorem domainGateOff_gates (hk : k ∈ groupIslands s g)
    (hquiet : ∀ j ∈ groupIslands s g, (islandAt s j).dom = .ret ∧ (islandAt s j).gateMs ≠ 0 ∧
      ∀ v ∈ islandUnits j, (unitOf s v).state = .idle ∨ (unitOf s v).state = .absent ∨ (unitOf s v).state = .offline) :
    Nexts (exec (.domainGateOff g) s) (fun t => (islandAt t k).dom = .off ∧ (islandAt t k).mhz = 0) := by
  refine ⟨_, if_pos (List.all_eq_true.mpr fun j hj => ?_), ?_⟩
  · obtain ⟨hret, hgate, hunits⟩ := hquiet j hj
    simp only [hret, hgate, ne_eq, not_false_iff, decide_true, Bool.true_and]
    refine List.all_eq_true.mpr fun v hv => ?_
    rcases hunits v hv with h | h | h <;> rw [h]
  · beta_reduce
    rw [islandAt_setGroupDom, if_pos hk]
    · exact ⟨rfl, rfl⟩
    · exact fun _ _ => rfl

/-- The domain of island `k` once it is awake. -/
def wokenIsland (s : State) (k : Nat) (i : Island) : Island :=
  { i with dom := .on, idle := 0, point := (wakePoint s k i).1, mhz := (wakePoint s k i).2 }

theorem islandAt_wakeIsland (hk : (islandAt s k).dom ≠ .on) (j : Nat) :
    islandAt (wakeIsland s k) j =
      if j ∈ groupIslands s (islandAt s k).group then wokenIsland s j (islandAt s j) else islandAt s j := by
  rw [wakeIsland, if_neg hk]
  exact islandAt_setGroupDom (f := wokenIsland s) (fun _ _ => rfl) s _ j

/-- An island that is no search island wakes at its planned frequency. -/
theorem wakePoint_of_not_search (h : searchIslands.contains k = false) (s : State) (i : Island) :
    wakePoint s k i = (pointFor k i.minPoint i.planMhz, i.planMhz) := by
  have hnone : searchIslands.find? (fun j => searchIslands.contains k && decide ((islandAt s j).dom = .on)) = none := by
    rw [h]
    exact List.find?_eq_none.mpr fun j _ => by simp
  rw [wakePoint, hnone]

theorem domainWake_wakes (hunit : islandOf (hwUnit s u) = k) (hk : (islandAt s k).dom ≠ .on)
    (hbar : wakeBarred s k = false) :
    Nexts (exec (.domainWake u ok) s) (fun t => ∀ j ∈ groupIslands s (islandAt s k).group, (islandAt t j).dom = .on ∧
      (searchIslands.contains j = false → (islandAt t j).mhz = (islandAt s j).planMhz)) := by
  subst hunit
  refine ⟨_, if_neg (by simp [hbar]), fun j hj => ?_⟩
  have hpwr (woken : Bool) (l : List Nat) (t : State) : (if !woken then t else
      l.foldl (fun s j => setChan s j { chanOf s j with due := true }) t).pwr = t.pwr :=
    (Keeps.ite (Keeps.refl _ _) (Keeps.foldl (fun _ _ => setChan_keeps ..) (Keeps.refl _ _))).pwr rfl
  rw [islandAt_congr (hpwr ..), islandAt_wakeIsland hk, if_pos hj]
  exact ⟨rfl, fun h => congrArg Prod.snd (wakePoint_of_not_search h s _)⟩

theorem domainWake_barred (hbar : wakeBarred s (islandOf (hwUnit s u)) = true) :
    exec (.domainWake u ok) s = .next s := if_pos hbar

/-! ## Operating points (R199, R437) -/

/-- An island at a new point and frequency, where its domain is ON. -/
def atPoint (point mhz : Nat) (i : Island) : Island := if i.dom = .on then { i with point := point, mhz := mhz } else i

theorem atPoint_atPoint (point mhz : Nat) (i : Island) : atPoint point mhz (atPoint point mhz i) = atPoint point mhz i := by
  unfold atPoint
  split <;> simp [*]

theorem operatingPointChange_moves (hkey : isIslandKey k = true) (hon : (islandAt s k).dom = .on)
    (hpoint : point = pointFor k (islandAt s k).minPoint mhz) (hmhz : mhz ≤ pointMhz k point) :
    Nexts (exec (.operatingPointChange k point mhz) s) (fun t =>
      (∀ j ∈ changesWith k, (islandAt s j).dom = .on → (islandAt t j).point = point ∧ (islandAt t j).mhz = mhz) ∧
      ∀ j, j ∉ changesWith k → islandAt t j = islandAt s j) := by
  have hstep : ∀ (t : State) (k j : Nat), islandAt
      (if (islandAt t k).dom = .on then setIsland t k { islandAt t k with point := point, mhz := mhz } else t) j =
        if j = k then atPoint point mhz (islandAt t k) else islandAt t j := by
    intro t k j
    by_cases hjk : j = k
    · subst hjk
      by_cases h : (islandAt t j).dom = .on <;> simp [h, atPoint]
    · by_cases h : (islandAt t k).dom = .on <;> simp [h, hjk, islandAt_setIsland_other]
  have hislands := islandAt_foldl hstep (fun _ => atPoint_atPoint point mhz) (changesWith k) s
  refine ⟨_, if_pos (by simp [hkey, hon, ← hpoint, hmhz]), fun j hj hjon => ?_, fun j hj => ?_⟩
  · rw [hislands, if_pos hj, atPoint, if_pos hjon]
    exact ⟨rfl, rfl⟩
  · rw [hislands, if_neg hj]

end

section
variable {s : State} {temps : List Int}

/-! ## The sensors (R220–R222) -/

/-- The reading of sensor `n` with its fused offset (R220). -/
def corrected (s : State) (temps : List Int) (n : Nat) : Int := temps.getD n 0 + (s.pwr.offsets.getD n 0 : Nat)

theorem le_foldl_max (l : List Int) (b : Int) : b ≤ l.foldl max b ∧ ∀ x ∈ l, x ≤ l.foldl max b := by
  induction l generalizing b with
  | nil => simp
  | cons x l ih =>
    obtain ⟨hb, hl⟩ := ih (max b x)
    refine ⟨(le_max_left b x).trans hb, List.forall_mem_cons.mpr ⟨(le_max_right b x).trans hb, hl⟩⟩

theorem foldl_max_mem (l : List Int) (b : Int) : l.foldl max b = b ∨ l.foldl max b ∈ l := by
  induction l generalizing b with
  | nil => exact .inl rfl
  | cons x l ih =>
    rcases ih (max b x) with h | h
    · rcases max_choice b x with hm | hm
      · exact .inl (h.trans hm)
      · exact .inr (List.mem_cons.mpr (.inl (h.trans hm)))
    · exact .inr (List.mem_cons_of_mem x h)

/-- t_model is the highest corrected reading (R220). -/
theorem modelTemp_is_highest (s : State) (temps : List Int) :
    (∀ n < 16, corrected s temps n ≤ modelTemp s temps) ∧ ∃ n < 16, modelTemp s temps = corrected s temps n := by
  refine ⟨fun n hn => ?_, ?_⟩
  · exact (le_foldl_max _ _).2 _ (List.mem_map.mpr ⟨n, List.mem_range.mpr hn, rfl⟩)
  · rcases foldl_max_mem ((List.range 16).map (corrected s temps)) (corrected s temps 0) with h | h
    · exact ⟨0, by decide, h⟩
    · obtain ⟨n, hn, hval⟩ := List.mem_map.mp h
      exact ⟨n, List.mem_range.mp hn, hval.symm⟩

/-- R221: the stage of a temperature, by the limit of PWR_THERM_CFG. -/
theorem stageAfter_of_hot {t : Int} (h : (eff s Reg.PWR_THERM_CFG 7 0 : Int) + 6 ≤ t) : stageAfter s t = 2 := by
  simp [stageAfter, h]

theorem stageAfter_of_warm {t : Int} (h : (eff s Reg.PWR_THERM_CFG 7 0 : Int) + 3 ≤ t) : 1 ≤ stageAfter s t := by
  unfold stageAfter
  dsimp only
  split
  · decide
  · simp [h]

theorem stageAfter_of_cool {t : Int} (h : t ≤ (eff s Reg.PWR_THERM_CFG 7 0 : Int) + 1) : stageAfter s t = 0 := by
  have hmeets : ∀ k : Nat, 0 < k → ¬((eff s Reg.PWR_THERM_CFG 7 0 : Int) + 3 * k ≤ t) ∧
      ¬((eff s Reg.PWR_THERM_CFG 7 0 : Int) + 3 * k - 2 < t) := fun k hk => by omega
  obtain ⟨h1, h1'⟩ := hmeets 1 (by decide)
  obtain ⟨h2, h2'⟩ := hmeets 2 (by decide)
  simp only [stageAfter, h1, h1', h2, h2', decide_false, Bool.and_false, Bool.or_false, Bool.false_eq_true, if_false]

/-- What a sample leaves the power manager with. -/
theorem takeSample_pwr (s : State) (temps : List Int) : (takeSample s temps).pwr =
    { sampled s.pwr temps with tModel := modelTemp s temps, thermStage := stageAfter s (modelTemp s temps) } := by
  have hdram : ∀ t : State, ((List.range 4).foldl dramDrift t).pwr = t.pwr :=
    fun t => (Keeps.foldl dramDrift_keeps (Keeps.refl _ t)).pwr rfl
  have hrate : ∀ (c : Prop) [Decidable c] (t : State), (if c then t else (List.range 4).foldl rateChange t).pwr = t.pwr :=
    fun c _ t => (Keeps.ite (Keeps.refl _ t) (Keeps.foldl rateChange_keeps (Keeps.refl _ t))).pwr rfl
  rw [takeSample, (flashDrift_keeps _).pwr rfl, hdram, hrate, (bulkLimits_keeps _ _).pwr rfl, setHealth_pwr]
  rfl

/-- Every switched domain is to be held OFF after the flush (R222). -/
def thermHeld (t : State) : State := setPwr t { t.pwr with thermHold := true }

/-- What a sample's t_model brings with it: from 120 °C power loss (R222). -/
def heatJudged (t : State) : Out :=
  if 120 ≤ t.pwr.tModel then
    .next (if (declareLoss (thermHeld t)).pwr.flushStep = 8 then gateAll (declareLoss (thermHeld t))
      else declareLoss (thermHeld t))
  else .next t

theorem exec_sensorSample_below (hoff : s.boot.off = false) (hlow : ∀ r ∈ temps, r < 130) :
    exec (.sensorSample temps) s = heatJudged (takeSample s temps) := by
  have hany : temps.any (fun r => decide (130 ≤ r)) = false :=
    List.any_eq_false.mpr fun r hr => by simpa using hlow r hr
  change execSensorSample temps s = _
  rw [execSensorSample, if_neg (ne_true_of_eq_false hoff), if_neg (ne_true_of_eq_false hany)]
  generalize takeSample s temps = t
  rfl

theorem heatJudged_hot {t : State} (h : 120 ≤ t.pwr.tModel) (hoff : t.boot.off = false) (hloss : t.pwr.powerLoss = false) :
    Nexts (heatJudged t) (fun r => r.pwr.powerLoss = true ∧ r.pwr.thermHold = true) := by
  have hpwr : (declareLoss (thermHeld t)).pwr = lossPwr (thermHeld t).pwr := declareLoss_pwr hoff hloss
  rw [heatJudged, if_pos h, if_neg (by rw [hpwr, lossPwr_flushStep]; decide)]
  refine ⟨_, rfl, ?_⟩
  beta_reduce
  rw [hpwr]
  exact ⟨rfl, rfl⟩

/-- R220, R221. -/
theorem sensorSample_setsStage (hoff : s.boot.off = false) (hlow : ∀ r ∈ temps, r < 130)
    (hcool : ∀ n < 16, corrected s temps n < 120) :
    Nexts (exec (.sensorSample temps) s) (fun t =>
      (∀ n < 16, corrected s temps n ≤ t.pwr.tModel) ∧ (∃ n < 16, t.pwr.tModel = corrected s temps n) ∧
      ((eff s Reg.PWR_THERM_CFG 7 0 : Int) + 6 ≤ t.pwr.tModel → t.pwr.thermStage = 2) ∧
      ((eff s Reg.PWR_THERM_CFG 7 0 : Int) + 3 ≤ t.pwr.tModel → 1 ≤ t.pwr.thermStage) ∧
      (t.pwr.tModel ≤ (eff s Reg.PWR_THERM_CFG 7 0 : Int) + 1 → t.pwr.thermStage = 0) ∧
      t.pwr.powerLoss = s.pwr.powerLoss) := by
  obtain ⟨hmax, n, hn, hval⟩ := modelTemp_is_highest s temps
  have hbelow : ¬120 ≤ (takeSample s temps).pwr.tModel := by
    have := hcool n hn
    rw [takeSample_pwr]
    change ¬120 ≤ modelTemp s temps
    omega
  refine ⟨_, (exec_sensorSample_below hoff hlow).trans (if_neg hbelow), ?_⟩
  beta_reduce
  rw [takeSample_pwr]
  exact ⟨hmax, ⟨n, hn, hval⟩, stageAfter_of_hot, stageAfter_of_warm, stageAfter_of_cool, rfl⟩

/-- R222: power loss from 120 °C. -/
theorem sensorSample_declaresLoss (hoff : s.boot.off = false) (hloss : s.pwr.powerLoss = false)
    (hlow : ∀ r ∈ temps, r < 130) (hhot : ∃ n < 16, 120 ≤ corrected s temps n) :
    Nexts (exec (.sensorSample temps) s) (fun t => t.pwr.powerLoss = true ∧ t.pwr.thermHold = true) := by
  have habove : 120 ≤ (takeSample s temps).pwr.tModel := by
    obtain ⟨n, hn, hge⟩ := hhot
    have := (modelTemp_is_highest s temps).1 n hn
    rw [takeSample_pwr]
    change 120 ≤ modelTemp s temps
    omega
  have hoff' : (takeSample s temps).boot.off = false := by rw [(takeSample_keeps s temps).boot rfl, hoff]
  have hloss' : (takeSample s temps).pwr.powerLoss = false := by rw [takeSample_pwr]; exact hloss
  rw [exec_sensorSample_below hoff hlow]
  exact heatJudged_hot habove hoff' hloss'

/-- R222: the thermal trip at 130 °C. -/
theorem sensorSample_trips (hoff : s.boot.off = false) (hhot : ∃ r ∈ temps, 130 ≤ r) :
    Nexts (exec (.sensorSample temps) s) (fun t =>
      t.boot.off = true ∧ t.pwr.thermTrip = true ∧ t.pwr.holdupEn = false) := by
  have hany : temps.any (fun r => decide (130 ≤ r)) = true := by simpa using hhot
  change Nexts (execSensorSample temps s) _
  rw [execSensorSample, hoff, hany]
  refine ⟨_, rfl, rfl, ?_, ?_⟩ <;> rw [turnOff_pwr] <;> rfl

end

/-- Settles O33, one lemma for each command and outcome. -/
theorem domainsPointsAndTheThermalStageFollowTheirRules : Obligations.DomainsPointsAndTheThermalStageFollowTheirRules := by
  intro s g k u point mhz ok temps i limit hot
  exact ⟨domainRetention_enters, domainGateOff_gates, fun hunit hk _ => domainWake_wakes hunit hk, domainWake_barred,
    operatingPointChange_moves, sensorSample_setsStage, sensorSample_declaresLoss, sensorSample_trips⟩

end Sys2Proof.Machine
end

section
/-! SUPPORT and O31. The start of an epoch, deadlines and the siding (04_lines_and_signal_box.md, R160, R165, R168, R169, R190;
05_energy_and_heat.md, R218, R219). -/

namespace Sys2Proof.Machine

section
variable {s t : State} {i tag : Nat} {env : EpochEnv} {set : Tab Nat} {e : Entry}

/-! ## The allowance (R218, R219) -/

/-- A of R219, where the last 100 completed epochs drew `tick` mW by their estimates. -/
def epochAllowance (s : State) (env : EpochEnv) (tick : Nat) : Nat :=
  if capMw s < env.inMw ∨ 58000 < env.dieMw then 0
  else 10 * (max 0 (min ((capMw s : Int) - env.chgMw - s.pwr.baseMw)
    ((tick : Int) + ((eff s Reg.PWR_THERM_CFG 7 0 : Int) - s.pwr.tModel) * (eff s Reg.PWR_THERM_CFG 23 8 : Int)))).toNat

theorem epochAllowance_congr (heff : ∀ a, effWord t a = effWord s a) (hbase : t.pwr.baseMw = s.pwr.baseMw)
    (htemp : t.pwr.tModel = s.pwr.tModel) (env : EpochEnv) (tick : Nat) :
    epochAllowance t env tick = epochAllowance s env tick := by
  have hfield (a hi lo : Nat) : eff t a hi lo = eff s a hi lo := congrArg (fld · hi lo) (heff a)
  have hcap : capMw t = capMw s := by rw [capMw, hfield, capMw]
  simp only [epochAllowance, hcap, hfield, hbase, htemp]

/-- What the power manager publishes of an epoch to the signal box. -/
theorem publish_sbx (s : State) (env : EpochEnv) : ∃ w g, (publish s env).sbx = { s.sbx with
    wbLimit := w, gates := g, firstDone := false,
    allowance := epochAllowance s env ((s.pwr.ests.drop 1).sum / 1000),
    remaining := epochAllowance s env ((s.pwr.ests.drop 1).sum / 1000) } := by
  simp only [publish, epochAllowance, Bool.or_eq_true, decide_eq_true_eq]
  exact ⟨_, _, rfl⟩

/-! ## The fens' measured power (R128, R141) -/

/-- Of the registers a measurement changes MEASURED_MW of its fen. -/
theorem measureFen_regs (s : State) (f mw : Nat) :
    (measureFen s f mw).regs = (setLive s (fenReg Reg.FAB_FEN_POWER f) 31 16 (min mw 65535)).regs :=
  (Keeps.ite (m := 512) (setFen_keeps ..) (Keeps.refl _ _)).regs rfl

theorem liveWord_measureFen_other {f mw b : Nat} (h : b ≠ fenReg Reg.FAB_FEN_POWER f) (s : State) :
    liveWord (measureFen s f mw) b = liveWord s b := by
  rw [liveWord, measureFen_regs]
  exact (liveWord_setLive ..).trans (if_neg h)

theorem live_measureFen (s : State) (f mw : Nat) :
    live (measureFen s f mw) (fenReg Reg.FAB_FEN_POWER f) 31 16 = min mw 65535 := by
  rw [live_congr (measureFen_regs s f mw), live_setLive_same _ _ _ _ _ (by decide)]
  exact Nat.mod_eq_of_lt (by omega)

/-- The first `n` fens measured in turn: MEASURED_MW of each. -/
theorem live_measureFens (mw : List Nat) (s : State) {n : Nat} (h : i < n) :
    live ((List.range n).foldl (fun s f => measureFen s f (mw.getD f 0)) s) (fenReg Reg.FAB_FEN_POWER i) 31 16 =
      min (mw.getD i 0) 65535 := by
  induction n with
  | zero => omega
  | succ n ih =>
    rw [List.range_succ, List.foldl_append, List.foldl_cons, List.foldl_nil]
    by_cases hin : i = n
    · rw [hin, live_measureFen]
    · have hother : fenReg Reg.FAB_FEN_POWER i ≠ fenReg Reg.FAB_FEN_POWER n := by
        unfold fenReg
        omega
      rw [live, liveWord_measureFen_other hother]
      exact ih (by omega)

theorem measureFens_sameCommits (s : State) (mw : List Nat) : SameCommits s (measureFens s mw) :=
  SameCommits.foldl (fun s f =>
    (SameCommits.setLive s _ 31 16 _).trans (SameCommits.of_regs (measureFen_regs s f (mw.getD f 0)))) _ s

/-! ## Credit (R165, R169, R170) -/

/-- The SHARE that `i` has in force. -/
def shareOf (s : State) (i : Nat) : Nat := eff s (Reg.SBX_SHARE + 4 * i) 16 0

/-- The cap of a share under the allowance `a` (R165). -/
def creditCap (share a : Nat) : Int := ((16 * share * a / 65536 : Nat) : Int)

/-- A credit after its refill (R165, R170). -/
def refilled (share a : Nat) (c : Int) : Int :=
  if share = 0 then min c 0 else min (c + (share * a / 65536 : Nat)) (creditCap share a)

/-- The state with other credits. -/
def withCredit (s : State) (c : Tab Int) : State := { s with sbx := { s.sbx with credit := c } }

theorem withCredit_self (s : State) : withCredit s s.sbx.credit = s := rfl

theorem withCredit_sbx (s : State) (c : Tab Int) : (withCredit s c).sbx = { s.sbx with credit := c } := rfl

theorem withCredit_withCredit (s : State) (c d : Tab Int) : withCredit (withCredit s c) d = withCredit s d := rfl

/-- Credits that are changed in turn, each by a rule `g` of its own that no credit enters. -/
theorem foldl_credit {step : State → Nat → State} {g : State → Nat → Int → Int}
    (hstep : ∀ t i, ∃ c, step t i = withCredit t c ∧
      ∀ j, Tab.getD c j 0 = if j = i then g t i (Tab.getD t.sbx.credit i 0) else Tab.getD t.sbx.credit j 0)
    (hg : ∀ t c, g (withCredit t c) = g t) {l : List Nat} (hl : l.Nodup) (s : State) :
    ∃ c, l.foldl step s = withCredit s c ∧
      ∀ j ∈ l, Tab.getD c j 0 = g s j (Tab.getD s.sbx.credit j 0) := by
  have hall : ∃ c, l.foldl step s = withCredit s c ∧ ∀ j, Tab.getD c j 0 =
      if j ∈ l then g s j (Tab.getD s.sbx.credit j 0) else Tab.getD s.sbx.credit j 0 := by
    induction l generalizing s with
    | nil => exact ⟨s.sbx.credit, rfl, fun j => by simp⟩
    | cons i l ih =>
      obtain ⟨hi, hl⟩ := List.nodup_cons.mp hl
      obtain ⟨c, hc, hcredit⟩ := hstep s i
      obtain ⟨d, hd, hrest⟩ := ih hl (withCredit s c)
      refine ⟨d, by rw [List.foldl_cons, hc, hd, withCredit_withCredit], fun j => ?_⟩
      have hj := hrest j
      rw [hg, show (withCredit s c).sbx.credit = c from rfl, hcredit] at hj
      rw [hj]
      by_cases hji : j = i
      · subst hji
        simp [hi]
      · simp [hji]
  obtain ⟨c, hc, hcredit⟩ := hall
  exact ⟨c, hc, fun j hj => by rw [hcredit, if_pos hj]⟩

theorem refill_credit (s : State) (i : Nat) : refill s i = withCredit s (Tab.put 0 s.sbx.credit i
    (refilled (shareOf s i) s.sbx.allowance (Tab.getD s.sbx.credit i 0))) := rfl

/-- One turn in the refill; a share of 0 whose credit is spent is passed by. -/
def refillTurn (s : State) (i : Nat) : State :=
  if eff s (Reg.SBX_SHARE + 4 * i) 16 0 = 0 ∧ Tab.getD s.sbx.credit i 0 ≤ 0 then s else refill s i

theorem refillTurn_credit (s : State) (i : Nat) : ∃ c, refillTurn s i = withCredit s c ∧ ∀ j, Tab.getD c j 0 =
    if j = i then refilled (shareOf s i) s.sbx.allowance (Tab.getD s.sbx.credit i 0) else Tab.getD s.sbx.credit j 0 := by
  by_cases hspent : eff s (Reg.SBX_SHARE + 4 * i) 16 0 = 0 ∧ Tab.getD s.sbx.credit i 0 ≤ 0
  · refine ⟨_, (if_pos hspent).trans (withCredit_self s).symm, fun j => ?_⟩
    obtain ⟨hshare, hle⟩ := hspent
    by_cases hji : j = i
    · rw [if_pos hji, refilled, shareOf, if_pos hshare, min_eq_left hle, hji]
    · rw [if_neg hji]
  · exact ⟨_, (if_neg hspent).trans (refill_credit s i), fun j => Tab.getD_put ..⟩

theorem capCredit_credit (s : State) (i : Nat) : ∃ c, capCredit s i = withCredit s c ∧ ∀ j, Tab.getD c j 0 =
    if j = i then min (Tab.getD s.sbx.credit i 0) (creditCap (shareOf s i) s.sbx.allowance)
    else Tab.getD s.sbx.credit j 0 := by
  by_cases hle : Tab.getD s.sbx.credit i 0 ≤ creditCap (shareOf s i) s.sbx.allowance
  · refine ⟨_, (if_pos hle).trans (withCredit_self s).symm, fun j => ?_⟩
    by_cases hji : j = i
    · rw [if_pos hji, min_eq_left hle, hji]
    · rw [if_neg hji]
  · refine ⟨_, if_neg hle, fun j => ?_⟩
    rw [Tab.getD_put, min_eq_right (le_of_not_ge hle)]
    rfl

theorem epochRefill_credit (s : State) : ∃ c, epochRefill s = withCredit s c ∧
    ∀ i < 512, Tab.getD c i 0 = refilled (shareOf s i) s.sbx.allowance (Tab.getD s.sbx.credit i 0) := by
  obtain ⟨c, hc, hcredit⟩ := foldl_credit (g := fun t i => refilled (shareOf t i) t.sbx.allowance) refillTurn_credit
    (fun _ _ => rfl) (List.nodup_range (n := 512)) s
  exact ⟨c, hc, fun i hi => hcredit i (List.mem_range.mpr hi)⟩

theorem capCredits_credit (s : State) : ∃ c, (List.range 512).foldl capCredit s = withCredit s c ∧
    ∀ i < 512, Tab.getD c i 0 = min (Tab.getD s.sbx.credit i 0) (creditCap (shareOf s i) s.sbx.allowance) := by
  obtain ⟨c, hc, hcredit⟩ := foldl_credit (g := fun t i x => min x (creditCap (shareOf t i) t.sbx.allowance))
    capCredit_credit (fun _ _ => rfl) (List.nodup_range (n := 512)) s
  exact ⟨c, hc, fun i hi => hcredit i (List.mem_range.mpr hi)⟩

/-! ## The signal box's own sets (R100, R169) -/

/-- An epoch begins: the set of a group of kind EPOCH has come to its safe point. -/
theorem groupAt_markDue (s : State) (c : Nat) : groupAt (markDue s) c =
    if epochKind c && (groupAt s c).pending.isSome then { groupAt s c with due := true } else groupAt s c := by
  rw [groupAt, Tab.getD, markDue, Tab.get?_mapVals', groupAt, Tab.getD]
  cases Tab.get? s.regs.groups c <;> simp

theorem groupAt_markDue_pending (s : State) (c : Nat) : (groupAt (markDue s) c).pending = (groupAt s c).pending := by
  rw [groupAt_markDue]
  split <;> rfl

theorem groupAt_markDue_share (h : (groupAt s 0x30000C).pending = some set) :
    (groupAt (markDue s) 0x30000C).due = true := by
  rw [groupAt_markDue, if_pos (by rw [h, Option.isSome_some, Bool.and_true]; decide)]

/-- The safe point of the group of shares and limits is an epoch's start alone (R100). -/
theorem atSafePoint_share (h : (groupAt s 0x30000C).due = true) : atSafePoint s 0x30000C = true := by
  have hunit : commitUnit 0x30000C = 0xFF := by decide
  have harray : arrayPoint s 0x30000C = true := by
    have hnone : groupIndex 0x30000C 0xA01014 0x80 8 = none ∧ groupIndex 0x30000C 0xC01030 0x40 50 = none ∧
      groupIndex 0x30000C 0xD01008 0x40 4 = none ∧ groupIndex 0x30000C 0x501008 0x40 32 = none ∧
      pageGroup 0x30000C 0x2028 = none := by decide
    obtain ⟨h1, h2, h3, h4, h5⟩ := hnone
    simp only [arrayPoint, h1, h2, h3, h4, h5]
  have hblock : blockPoint s 0x30000C = true := by
    have hstart : isStartGroup 0x30000C = false := by decide
    simp [blockPoint, hstart]
  simp only [atSafePoint, hunit, harray, hblock, h, Bool.or_true, Bool.and_true, Bool.not_eq_true']
  split <;> rfl

/-- The set of shares and limits is judged by its values alone (R186). -/
theorem setRefused_share (s t : State) (set : Tab Nat) : setRefused t 0x30000C set = setRefused s 0x30000C set := by
  have hnone : groupIndex 0x30000C 0x201008 0x40 40 = none ∧ groupIndex 0x30000C 0xA01014 0x80 8 = none ∧
      groupIndex 0x30000C 0xC01030 0x40 50 = none ∧ groupIndex 0x30000C 0xE04034 0x20 1024 = none ∧
      groupIndex 0x30000C 0xF01064 0x40 511 = none ∧ pageGroup 0x30000C 0x2028 = none ∧
      pageGroup 0x30000C 0x2084 = none ∧ pageGroup 0x30000C 0x209C = none := by decide
  obtain ⟨h1, h2, h3, h4, h5, h6, h7, h8⟩ := hnone
  simp only [setRefused, blockRefused, arrayRefused, h1, h2, h3, h4, h5, h6, h7, h8]

/-- `t` has the signal box of `s`, and its stored registers but for the recorder's counters. -/
def BoxKept (s t : State) : Prop := t.sbx = s.sbx ∧ ∀ b, b ≠ Reg.EVR_COUNTS → liveWord t b = liveWord s b

theorem BoxKept.refl (s : State) : BoxKept s s := ⟨rfl, fun _ _ => rfl⟩

theorem BoxKept.trans {u : State} (h : BoxKept s t) (k : BoxKept t u) : BoxKept s u := by
  obtain ⟨hs, hl⟩ := h
  obtain ⟨ks, kl⟩ := k
  exact ⟨ks.trans hs, fun b hb => (kl b hb).trans (hl b hb)⟩

theorem takeSet_boxKept (s : State) (c : Nat) : BoxKept s (takeSet s c) := by
  unfold takeSet
  split
  · exact BoxKept.refl s
  · exact ⟨rfl, fun _ _ => rfl⟩

/-- The signal box's own sets change effective values and nothing else of it. -/
theorem commitEffect_boxKept {c : Nat} (hc : c = 0x300008 ∨ c = 0x30000C) (s : State) :
    BoxKept s (commitEffect s c) := by
  have hplain : c ∈ plainGroups := by rcases hc with rfl | rfl <;> decide
  have hblock (o t : State) : blockEffect o t c = t := by rcases hc with rfl | rfl <;> rfl
  have hjudge (set : Tab Nat) : BoxKept s (judgeSet s c set) := by
    rw [judgeSet]
    split
    · exact ⟨(record_keeps ..).sbx rfl, fun b hb => liveWord_record hb ..⟩
    · dsimp only
      rw [arrayEffect_of_plain hplain, hblock]
      refine (takeSet_boxKept s c).trans ?_
      split
      · exact ⟨rfl, fun _ _ => rfl⟩
      · exact BoxKept.refl _
  unfold commitEffect
  split
  · exact BoxKept.refl s
  · split
    · exact hjudge _
    · exact BoxKept.refl s

/-! ## An epoch without tickets (R160) -/

theorem tagsWhere_of_empty (h : s.sbx.store = []) (p : Entry → Bool) : tagsWhere s p = [] := by
  rw [tagsWhere, h]
  rfl

theorem staleWaiting_of_empty (h : s.sbx.store = []) : staleWaiting s = s := by
  rw [staleWaiting, tagsWhere_of_empty h]
  rfl

theorem ageWaiting_of_empty (h : s.sbx.store = []) : ageWaiting s = s := by
  have hsbx : { s.sbx with store := ([] : Tab Entry) } = s.sbx := by rw [← h]
  rw [ageWaiting, h]
  exact congrArg (fun x => { s with sbx := x }) hsbx

theorem scan_of_empty (h : s.sbx.store = []) :
    ∃ l, scan s = { s with sbx := { s.sbx with lastServed := l } } := by
  have hgroup (last : Nat) : admitGroup s last [] = (s, last) := rfl
  refine ⟨s.sbx.lastServed, ?_⟩
  simp only [scan, tagsWhere_of_empty h, List.filter_nil, hgroup]

/-- The end of an epoch's start: the credits are cut to their caps, and there is no ticket to admit. -/
theorem scan_capCredits_of_empty (h : s.sbx.store = []) : ∃ c l,
    (scan ((List.range 512).foldl capCredit s)).regs = s.regs ∧
    (scan ((List.range 512).foldl capCredit s)).sbx = { s.sbx with credit := c, lastServed := l } ∧
    ∀ i < 512, Tab.getD c i 0 = min (Tab.getD s.sbx.credit i 0) (creditCap (shareOf s i) s.sbx.allowance) := by
  obtain ⟨c, hc, hcredit⟩ := capCredits_credit s
  obtain ⟨l, hscan⟩ := scan_of_empty (s := withCredit s c) h
  rw [hc, hscan]
  exact ⟨c, l, rfl, rfl, hcredit⟩

/-- The epoch's measurements, before the allowance is published. -/
def epochMeasured (s : State) (env : EpochEnv) : State := measureFens (countIdle (rollEpoch (markDue s))) env.fenMw

theorem epochMeasured_sameCommits (s : State) (env : EpochEnv) : SameCommits (markDue s) (epochMeasured s env) :=
  (SameCommits.of_regs (((countIdle_keeps _).regs rfl).trans ((rollEpoch_keeps _).regs rfl))).trans
    (measureFens_sameCommits _ _)

theorem effWord_epochMeasured (s : State) (env : EpochEnv) (a : Nat) : effWord (epochMeasured s env) a = effWord s a :=
  (epochMeasured_sameCommits s env).effWord a

theorem epochMeasured_pwr (s : State) (env : EpochEnv) : (epochMeasured s env).pwr = (countIdle (rollEpoch (markDue s))).pwr :=
  (measureFens_keeps ..).pwr rfl

theorem epochMeasured_sbx (s : State) (env : EpochEnv) :
    (epochMeasured s env).sbx = { s.sbx with epochs := s.sbx.epochs + 1 } := by
  rw [epochMeasured, (measureFens_keeps ..).sbx rfl, (countIdle_keeps _).sbx rfl]
  rfl

/-- A of this epoch. -/
def allowanceNow (s : State) (env : EpochEnv) : Nat := epochAllowance s env ((s.pwr.ests.take 100).sum / 1000)

/-- The last 100 completed epochs are the 100 newest sums once a new one has begun (R218). -/
theorem allowance_epochMeasured (s : State) (env : EpochEnv) : epochAllowance (epochMeasured s env) env
    (((epochMeasured s env).pwr.ests.drop 1).sum / 1000) = allowanceNow s env := by
  rw [epochAllowance_congr (effWord_epochMeasured s env) (by rw [epochMeasured_pwr]; rfl) (by rw [epochMeasured_pwr]; rfl),
    epochMeasured_pwr]
  rfl

/-- The state at which the signal box's own sets fall due: measured, published and refilled. -/
def epochRefilled (s : State) (env : EpochEnv) : State := epochRefill (publish (epochMeasured s env) env)

/-- What the refill leaves: the allowance, the counts, the registers as measured, and the credits. -/
theorem epochRefilled_spec (s : State) (env : EpochEnv) :
    (epochRefilled s env).regs = (epochMeasured s env).regs ∧
    (epochRefilled s env).sbx.store = s.sbx.store ∧ (epochRefilled s env).sbx.epochs = s.sbx.epochs + 1 ∧
    (epochRefilled s env).sbx.allowance = allowanceNow s env ∧
    (epochRefilled s env).sbx.remaining = allowanceNow s env ∧
    ∀ i < 512, Tab.getD (epochRefilled s env).sbx.credit i 0 =
      refilled (shareOf s i) (allowanceNow s env) (Tab.getD s.sbx.credit i 0) := by
  obtain ⟨w, g, hbox⟩ := publish_sbx (epochMeasured s env) env
  obtain ⟨c, hc, hcredit⟩ := epochRefill_credit (publish (epochMeasured s env) env)
  have hregs := (publish_keeps (epochMeasured s env) env).regs rfl
  rw [allowance_epochMeasured, epochMeasured_sbx] at hbox
  have hshare (i : Nat) : shareOf (publish (epochMeasured s env) env) i = shareOf s i := by
    rw [shareOf, eff_congr hregs, eff, effWord_epochMeasured, shareOf, eff]
  rw [epochRefilled, hc]
  refine ⟨hregs, by rw [withCredit_sbx, hbox], by rw [withCredit_sbx, hbox], by rw [withCredit_sbx, hbox],
    by rw [withCredit_sbx, hbox], fun i hi => (hcredit i hi).trans ?_⟩
  rw [hshare, hbox]

/-- The state once the signal box's own sets have taken effect, before the credits are cut to their caps. -/
def epochCommitted (s : State) (env : EpochEnv) : State :=
  commitEffect (commitEffect (epochRefilled s env) 0x300008) 0x30000C

theorem epochCommitted_boxKept (s : State) (env : EpochEnv) : BoxKept (epochRefilled s env) (epochCommitted s env) :=
  (commitEffect_boxKept (.inl rfl) _).trans (commitEffect_boxKept (.inr rfl) _)

theorem exec_epochStart (s : State) (env : EpochEnv) : exec (.epochStart env) s =
    .next (scan (epochSets (ageWaiting (staleWaiting (epochRefilled s env))))) := by
  change execEpochStart env s = _
  rw [execEpochStart, epochRefilled, epochMeasured]

/-- With no ticket in the store, an epoch's start does nothing after the sets but cut the credits. -/
theorem exec_epochStart_of_empty (h : s.sbx.store = []) (env : EpochEnv) :
    exec (.epochStart env) s = .next (scan ((List.range 512).foldl capCredit (epochCommitted s env))) := by
  obtain ⟨-, hstore, -⟩ := epochRefilled_spec s env
  have hempty : (epochRefilled s env).sbx.store = [] := hstore.trans h
  rw [exec_epochStart, staleWaiting_of_empty hempty, ageWaiting_of_empty hempty, epochSets, epochCommitted]

theorem groupAt_epochRefilled (s : State) (env : EpochEnv) (c : Nat) :
    groupAt (epochRefilled s env) c = groupAt (markDue s) c := by
  obtain ⟨hregs, -⟩ := epochRefilled_spec s env
  rw [groupAt_congr hregs, (epochMeasured_sameCommits s env).groupAt]

theorem commitEffect_of_none {c : Nat} (h : (groupAt s c).pending = none) : commitEffect s c = s := by
  rw [commitEffect, h]

/-- Where no set of the signal box is pending, no share changes. -/
theorem epochCommitted_of_none (h1 : (groupAt s 0x300008).pending = none) (h2 : (groupAt s 0x30000C).pending = none)
    (env : EpochEnv) : epochCommitted s env = epochRefilled s env := by
  have hnone {c : Nat} (h : (groupAt s c).pending = none) : (groupAt (epochRefilled s env) c).pending = none := by
    rw [groupAt_epochRefilled, groupAt_markDue_pending, h]
  rw [epochCommitted, commitEffect_of_none (hnone h1), commitEffect_of_none (hnone h2)]

theorem shareOf_epochRefilled (s : State) (env : EpochEnv) (i : Nat) : shareOf (epochRefilled s env) i = shareOf s i := by
  obtain ⟨hregs, -⟩ := epochRefilled_spec s env
  rw [shareOf, eff_congr hregs, eff, effWord_epochMeasured, shareOf, eff]

/-- The pending set of shares and limits takes effect at the epoch's start (R100, R169). -/
theorem epochCommitted_takes (h1 : (groupAt s 0x300008).pending = none) (h2 : (groupAt s 0x30000C).pending = some set)
    (hset : (Tab.keys set).Nodup) (hok : setRefused s 0x30000C set = false) (env : EpochEnv) :
    (groupAt (epochCommitted s env) 0x30000C).pending = none ∧
      ∀ b, commitOf b = 0x30000C → effWord (epochCommitted s env) b = inSet set b := by
  have hnone : (groupAt (epochRefilled s env) 0x300008).pending = none := by
    rw [groupAt_epochRefilled, groupAt_markDue_pending, h1]
  have hpend : (groupAt (epochRefilled s env) 0x30000C).pending = some set := by
    rw [groupAt_epochRefilled, groupAt_markDue_pending, h2]
  have hdue : (groupAt (epochRefilled s env) 0x30000C).due = true := by
    rw [groupAt_epochRefilled, groupAt_markDue_share h2]
  have hsame := judgeSet_of_plain (c := 0x30000C) (by decide) ((setRefused_share s (epochRefilled s env) set).trans hok)
  rw [epochCommitted, commitEffect_of_none hnone, commitEffect_of_pending hpend, if_pos (atSafePoint_share hdue)]
  refine ⟨?_, fun b hb => ?_⟩
  · rw [hsame.groupAt, groupAt_takeSet hpend]
  · rw [hsame.effWord, effWord_takeSet_of_group hpend hset hb]

/-- MEASURED_MW of a fen is the epoch's measurement (R141). -/
theorem live_epochCommitted (hi : i < 40) (hmw : i < env.fenMw.length) (s : State) :
    live (epochCommitted s env) (fenReg Reg.FAB_FEN_POWER i) 31 16 = min (env.fenMw.getD i 0) 65535 := by
  have hne : fenReg Reg.FAB_FEN_POWER i ≠ Reg.EVR_COUNTS := by
    have hpower : fenReg Reg.FAB_FEN_POWER i = 0x20101C + 0x40 * i := rfl
    have hcounts : Reg.EVR_COUNTS = 0x1400088 := rfl
    omega
  obtain ⟨hregs, -⟩ := epochRefilled_spec s env
  obtain ⟨-, hlive⟩ := epochCommitted_boxKept s env
  rw [live, hlive _ hne]
  exact (live_congr hregs ..).trans (live_measureFens env.fenMw _ (lt_min hi hmw))

/-- A credit that has just been refilled stands below the cap of the same share. -/
theorem min_refilled_cap {share a : Nat} (h : share ≠ 0) (c : Int) :
    min (refilled share a c) (creditCap share a) = min (c + ((share * a / 65536 : Nat) : Int)) (creditCap share a) := by
  rw [refilled, if_neg h, min_assoc, min_self]

/-! ## Deadlines (R168) -/

theorem deadlineExpire_ends (he : entryOf s tag = some e) (hwait : e.waiting = true) (hadm : e.admitted = 0)
    (hdead : e.t.deadline ≠ 0) (hspent : e.t.deadline ≤ e.budget) (hflush : s.sbx.flushMode = false)
    (hsub : e.sub = .device) (hfail : e.fail = none) (hreset : e.instReset = false) (hkey : e.keyRevoked = false) :
    Nexts (exec (.deadlineExpire tag) s) (fun t => entryOf t tag = none ∧
      ∃ x, t.sbx.posted = s.sbx.posted ++ [x] ∧ x.tag = tag ∧ x.status = 0x0D ∧ x.outLen = 0) := by
  change Nexts (execDeadlineExpire tag s) _
  simp only [execDeadlineExpire, he]
  rw [if_pos ⟨hwait, hadm, hdead, hspent, by rw [hflush]; rfl⟩]
  obtain ⟨hgone, x, hposted, htag, -, hlen, hstatus, -⟩ := endWaiting_device (s := bump s Reg.SBX_EVENTS 15 0 1) (st := 0x0D)
    he hsub hflush hreset hkey hfail (by decide) (by decide)
  exact ⟨_, rfl, hgone, x, hposted, htag, hstatus, hlen⟩

end

/-- Settles O31: the epoch by what its stages leave, the deadline, and the siding. -/
theorem epochsPublishTheAllowanceAndRefillCredit : Obligations.EpochsPublishTheAllowanceAndRefillCredit := by
  intro s env i tag e tick pCap pHeat a share top
  refine ⟨fun hstore hi => ?epoch, deadlineExpire_ends, ⟨_, rfl, rfl, rfl⟩⟩
  obtain ⟨-, hempty, hepochs, hallow, hremaining, hcredit⟩ := epochRefilled_spec s env
  obtain ⟨hkept, -⟩ := epochCommitted_boxKept s env
  rw [← hkept] at hempty hepochs hallow hremaining hcredit
  obtain ⟨c, l, hregs, hbox, hcut⟩ := scan_capCredits_of_empty (hempty.trans hstore)
  rw [exec_epochStart_of_empty hstore env]
  generalize scan ((List.range 512).foldl capCredit (epochCommitted s env)) = t at hregs hbox
  rw [hallow] at hcut
  have hallow' : t.sbx.allowance = allowanceNow s env := by simp only [hbox, hallow]
  have hremaining' : t.sbx.remaining = allowanceNow s env := by simp only [hbox, hremaining]
  have hepochs' : t.sbx.epochs = s.sbx.epochs + 1 := by simp only [hbox, hepochs]
  have htaken : Tab.getD t.sbx.credit i 0 = Tab.getD c i 0 := by rw [hbox]
  refine ⟨t, rfl, hallow', hremaining', hepochs', fun hfen hmw => ?fens, ?refilled, ?capped, ?sets⟩
  case fens =>
    rw [live_congr hregs]
    exact live_epochCommitted hfen hmw s
  case refilled =>
    intro hshare h1 h2
    rw [htaken, hcut i hi, hcredit i hi, epochCommitted_of_none h1 h2, shareOf_epochRefilled]
    exact min_refilled_cap hshare _
  case capped =>
    rw [htaken, hcut i hi, eff_congr hregs]
    exact min_le_right _ _
  case sets =>
    intro set h1 h2 hset hok
    obtain ⟨hpend, heff⟩ := epochCommitted_takes h1 h2 hset hok env
    exact ⟨by rw [groupAt_congr hregs, hpend], fun b hb => by rw [effWord_congr hregs, heff b hb]⟩

end Sys2Proof.Machine
end

section
/-! SUPPORT. What the flush writes touches no domain (05_energy_and_heat.md, R223 steps 3 to 6): of the power manager it
books energy and of the start it lights the activity LED, whatever pages, journal records and tickets it ends. -/

namespace Sys2Proof.Machine

/-- `t` has the domains of `s`, and its start is abandoned as that of `s`. -/
def SameDomains (s t : State) : Prop :=
  t.pwr.islands = s.pwr.islands ∧ t.boot.abandoned = s.boot.abandoned

namespace SameDomains

variable {s t u : State}

theorem refl (s : State) : SameDomains s s := ⟨rfl, rfl⟩

/-- One more operation, the outermost first. -/
theorem after (k : SameDomains t u) (h : SameDomains s t) : SameDomains s u := by
  obtain ⟨hp, hb⟩ := h
  obtain ⟨kp, kb⟩ := k
  exact ⟨kp.trans hp, kb.trans hb⟩

/-- One more operation that keeps the power manager and the start. -/
theorem via {m : Nat} (k : Keeps m t u) (hp : m.testBit 10 = false) (hb : m.testBit 17 = false)
    (h : SameDomains s t) : SameDomains s u := by
  refine after ?_ h
  rw [SameDomains, k.pwr hp, k.boot hb]
  exact ⟨rfl, rfl⟩

theorem of_keeps {m : Nat} (k : Keeps m s t) (hp : m.testBit 10 = false) (hb : m.testBit 17 = false) : SameDomains s t :=
  via k hp hb (refl s)

theorem put_sbx (h : SameDomains s t) (b : Sbx) : SameDomains s { t with sbx := b } := h

theorem put_ftl (h : SameDomains s t) (f : Ftl) : SameDomains s { t with ftl := f } := h

theorem put_dev (h : SameDomains s t) (d : Dev) : SameDomains s { t with dev := d } := h

theorem put_key (h : SameDomains s t) (k : Key) : SameDomains s { t with key := k } := h

theorem ite {p : Prop} [Decidable p] (h : SameDomains s t) (k : SameDomains s u) : SameDomains s (if p then t else u) := by
  split <;> assumption

theorem foldl {α : Type} {f : State → α → State} {l : List α} (hf : ∀ t x, SameDomains t (f t x)) (h : SameDomains s t) :
    SameDomains s (l.foldl f t) := by
  induction l generalizing t with
  | nil => exact h
  | cons x l ih => exact ih ((hf t x).after h)

/-! ### The end of a ticket -/

theorem postCqe (s : State) (c sq cid st dw0 dw1 nsid dev unit : Nat) :
    SameDomains s (postCqe s c sq cid st dw0 dw1 nsid dev unit) := by
  have hwrite (p i a : Nat) (bs : Bytes) : SameDomains s (hostWrite s p i a bs) := of_keeps (hostWrite_keeps ..) rfl rfl
  unfold Machine.postCqe
  split
  · exact refl s
  · dsimp only
    split <;> exact after ⟨rfl, rfl⟩ (hwrite ..)

theorem endCmd (s : State) (y : NCmd) : SameDomains s (endCmd s y) := by
  unfold Machine.endCmd
  dsimp only
  split <;> exact after (postCqe ..) (of_keeps (setCmd_keeps ..) rfl rfl)

theorem nvmeTicketDone (s : State) (e : Entry) (x : Completion) : SameDomains s (nvmeTicketDone s e x) := by
  unfold Machine.nvmeTicketDone
  split
  · unfold cmdPart
    split
    · exact refl s
    · refine ite (of_keeps (setCmd_keeps ..) rfl rfl) (after (endCmd _ _) (put_ftl ?_ _))
      refine ite (via (setCore_keeps ..) rfl rfl ?_) ?_ <;>
        exact ite (via (saveZones_keeps ..) rfl rfl
          (foldl (fun t _ => of_keeps (setZone_keeps t _ _ _) rfl rfl) (refl s))) (refl s)
  · exact refl s

theorem finishTicket (s : State) (tag : Nat) : SameDomains s (finishTicket s tag) := by
  have hended (e : Entry) : SameDomains s (countEnd s e) := of_keeps (countEnd_keeps ..) rfl rfl
  have hfree {t : State} (e : Entry) (h : SameDomains s t) : SameDomains s (freeTicket t tag e) :=
    via (freeTicket_keeps ..) rfl rfl h
  unfold Machine.finishTicket finishPlain
  split
  · exact refl s
  · refine ite (hfree _ (hended _)) ?_
    dsimp -proj only
    split
    · refine ite (hfree _ (put_sbx (hended _) _)) (ite ?_ (hfree _ (via (cqWrite_keeps ..) rfl rfl (put_sbx (hended _) _))))
      exact via (setCore_keeps ..) rfl rfl (via (setEntry_keeps ..) rfl rfl (put_sbx (put_sbx (hended _) _) _))
    · exact after (nvmeTicketDone _ _ _) (hfree _ (put_sbx (hended _) _))
    · exact via (junctionDone_keeps ..) rfl rfl (hfree _ (put_sbx (hended _) _))
    · exact hfree _ (put_sbx (hended _) _)

theorem ackTicket (s : State) (tag out : Nat) : SameDomains s (ackTicket s tag out) := by
  unfold Machine.ackTicket
  refine after (finishTicket _ tag) (via (modEntry_keeps ..) rfl rfl ?_)
  split
  · exact ite ⟨rfl, rfl⟩ (refl s)
  · exact refl s

theorem unitDone (s : State) (tag : Option Nat) : SameDomains s (unitDone s tag) := by
  have hset (n : Nat) (e : Entry) : SameDomains s (setEntry s n e) := of_keeps (setEntry_keeps ..) rfl rfl
  unfold Machine.unitDone
  split
  · exact refl s
  · split
    · exact refl s
    · exact ite (after (ackTicket _ _ _) (hset _ _)) (hset _ _)

/-! ### The journal -/

theorem commitJournal (n : Nat) (s : State) : SameDomains s (commitJournal n s) := by
  induction n generalizing s with
  | zero => exact refl s
  | succ n ih =>
    rw [Machine.commitJournal]
    split
    · exact refl s
    · refine ite (after (ih _) (foldl (fun t r => unitDone t r.tag) ?_)) (refl s)
      exact of_keeps (setFtl_keeps ..) rfl rfl

theorem commitAll (n : Nat) (s : State) : SameDomains s (commitAll n s) := by
  induction n generalizing s with
  | zero => exact refl s
  | succ n ih =>
    have hform : SameDomains s (if s.ftl.held.isEmpty || decide (8 ≤ s.ftl.jpages.length) then s else formJournal s) :=
      ite (refl s) (of_keeps (formJournal_keeps _) rfl rfl)
    have hround (k : Nat) (f : Ftl) := after (commitJournal k _) (via (setFtl_keeps _ f) rfl rfl hform)
    rw [Machine.commitAll]
    exact ite (hround _ _) (after (ih _) (hround _ _))

theorem hold (s : State) (r : JRec) : SameDomains s (hold s r) :=
  via (setFtl_keeps ..) rfl rfl (ite (commitAll _ s) (refl s))

theorem closeJournal (s : State) : SameDomains s (closeJournal s) :=
  via (setFtl_keeps ..) rfl rfl (after (commitAll _ _) (after (hold _ _) (commitAll _ s)))

/-! ### Pages -/

theorem eraseAgain (s : State) (g : Nat) : SameDomains s (eraseAgain s g) :=
  ite (via (setBg_keeps ..) rfl rfl (via (beginErase_keeps ..) rfl rfl ⟨rfl, rfl⟩)) (refl s)

theorem openGroup (s : State) (dense : Bool) (except : List Nat) : SameDomains s (openGroup s dense except) := by
  unfold Machine.openGroup
  refine ite (refl s) ?_
  dsimp -proj only
  split
  · exact refl s
  · exact via (judgeFold_keeps _) rfl rfl (via (setBg_keeps ..) rfl rfl (eraseAgain s _))

theorem allocPage {ch g p most : Nat} {dense : Bool} {except : List Nat}
    (h : allocPage s ch dense except most = some (g, p, t)) : SameDomains s t := by
  unfold Machine.allocPage at h
  obtain ⟨k, -, hk⟩ := Option.map_eq_some_iff.mp h
  cases hk
  exact via (setFtl_keeps ..) rfl rfl (ite (refl s) (openGroup s dense except))

theorem movePage (s : State) (ch : Nat) (pg : OPage) : SameDomains s (movePage s ch pg).1 := by
  unfold Machine.movePage
  split
  · split
    · next h => exact allocPage h
    · exact refl s
  · exact refl s

theorem slotGone (s : State) (x : FSlot) : SameDomains s (slotGone s x) := by
  unfold Machine.slotGone
  refine after (unitDone _ _) ?_
  split
  · exact of_keeps (freeStaged_keeps ..) rfl rfl
  · exact refl s

theorem sealWith (s : State) (ch : Nat) (pg : OPage) : SameDomains s (sealWith s ch pg) := by
  unfold Machine.sealWith
  dsimp -proj only
  refine foldl slotGone (via (setChan_keeps ..) rfl rfl (via (notePresent_keeps ..) rfl rfl ?_))
  exact via (setFch_keeps ..) rfl rfl (via (setFtl_keeps ..) rfl rfl (movePage s ch pg))

theorem sealPage (s : State) (ch : Nat) (dense : Bool) : SameDomains s (sealPage s ch dense) := by
  unfold Machine.sealPage
  split
  · exact refl s
  · exact after (sealWith _ _ _) (of_keeps (setCur_keeps ..) rfl rfl)

theorem placeSlot {ch : Nat} {dense : Bool} {x : FSlot} {except : List Nat}
    (h : placeSlot s ch dense x except = some t) : SameDomains s t := by
  have hsealed (fits : Bool) : SameDomains s (if fits then s else Machine.sealPage s ch dense) :=
    ite (refl s) (sealPage s ch dense)
  unfold Machine.placeSlot at h
  obtain ⟨r, hr, rfl⟩ := Option.map_eq_some_iff.mp h
  have hpage : SameDomains s r.2 := by
    dsimp only at hr
    split at hr
    · cases hr
      exact hsealed _
    · obtain ⟨q, hq, rfl⟩ := Option.map_eq_some_iff.mp hr
      exact after (allocPage hq) (hsealed _)
  have hcur (pg : Option OPage) : SameDomains s (setCur r.2 ch dense pg) := via (setCur_keeps ..) rfl rfl hpage
  exact ite (after (sealWith _ _ _) (hcur none)) (hcur _)

theorem placeAny {i : Nat} {dense : Bool} {x : FSlot} {except : List Nat}
    (h : placeAny s i dense x except = some t) : SameDomains s t := by
  obtain ⟨ch, -, hch⟩ := List.exists_of_findSome?_eq_some h
  exact placeSlot hch

theorem placeRun (s : State) (dense : Bool) (l : List FSlot) (except : List Nat) :
    SameDomains s (placeRun s dense l except).1 := by
  refine List.foldlRecOn (motive := fun r : State × Nat => SameDomains s r.1) l _ (refl s) fun r hr x _ => ?_
  split
  · next h => exact after (placeAny h) hr
  · exact hr

theorem reissue (s : State) (ch : Nat) (pg : OPage) : SameDomains s (reissue s ch pg) := by
  unfold Machine.reissue
  dsimp only
  split
  · next h =>
    obtain ⟨k, -, hk⟩ := List.exists_of_findSome?_eq_some h
    obtain ⟨r, hr, he⟩ := Option.map_eq_some_iff.mp hk
    cases he
    exact after (sealWith _ _ _) (via (notePresent_keeps ..) rfl rfl (allocPage hr))
  · exact of_keeps (setFch_keeps ..) rfl rfl

theorem partialParity (s : State) (g p : Nat) : SameDomains s (partialParity s g p) := by
  unfold Machine.partialParity
  dsimp only
  split
  · exact refl s
  · split
    · exact refl s
    · next h =>
      obtain ⟨k, -, hk⟩ := List.exists_of_findSome?_eq_some h
      obtain ⟨r, hr, he⟩ := Option.map_eq_some_iff.mp hk
      cases he
      exact after (sealWith _ _ _) (via (notePresent_keeps ..) rfl rfl (via (setFch_keeps ..) rfl rfl (allocPage hr)))

/-! ### Program status -/

theorem retireBlock (s : State) (ch die block : Nat) : SameDomains s (retireBlock s ch die block) := by
  have hheld (r : JRec) (a hi lo n : Nat) (f g : Ftl) :
      SameDomains s (setFtl (setFtl (bump (Machine.hold s r) a hi lo n) f) g) :=
    via (setFtl_keeps ..) rfl rfl (via (setFtl_keeps ..) rfl rfl (via (bump_keeps ..) rfl rfl (hold s r)))
  unfold Machine.retireBlock
  refine ite (refl s) (via (judgeSpare_keeps _) rfl rfl (after (placeRun _ _ _ _) ?_))
  dsimp -proj only
  split
  · exact via (setBg_keeps ..) rfl rfl (via (setFtl_keeps ..) rfl rfl (hheld ..))
  · refine ite (hheld ..) (ite (via (poolGroup_keeps ..) rfl rfl ?_) ?_) <;>
      exact via (setBg_keeps ..) rfl rfl (via (bump_keeps ..) rfl rfl (hheld ..))

theorem slotPassed (s : State) (key : Nat) (x : FSlot) : SameDomains s (slotPassed s key x) := by
  have hheld {t : State} (m : Option MEntry) (r : JRec) (h : SameDomains s t) :
      SameDomains s (Machine.hold (mapSet t x.idx m) r) := after (hold _ _) (via (mapSet_keeps ..) rfl rfl h)
  have hwritten {t : State} (h : SameDomains s t) : SameDomains s (unitWritten t x.tag) := via (unitWritten_keeps ..) rfl rfl h
  have hfreed (n : Nat) : SameDomains s (freeStaged s n) := of_keeps (freeStaged_keeps ..) rfl rfl
  unfold Machine.slotPassed
  refine ite (refl s) (ite (after (unitDone _ _) (of_keeps (mapPagePassed_keeps ..) rfl rfl)) ?_)
  dsimp -proj only
  split
  · split
    · exact unitDone s _
    · refine ite (after (unitDone _ _) (hfreed _)) (hheld _ _ (hwritten ?_))
      exact ite (hfreed _) (ite (via (dropStaged_keeps ..) rfl rfl (hfreed _)) (via (setFtl_keeps ..) rfl rfl (hfreed _)))
  · exact ite (hheld _ _ (hwritten (refl s))) (unitDone s _)
  · exact hheld _ _ (via (dropStaged_keeps ..) rfl rfl (hwritten (refl s)))

theorem flushEnded (s : State) (n : Nat) : SameDomains s (flushEnded s n) := ⟨rfl, rfl⟩

theorem programPassed (s : State) (ch : Nat) (pg : OPage) : SameDomains s (programPassed s ch pg) := by
  have hslots (key : Nat) (f : Fch) (g : Nat) (x : BGroup) :
      SameDomains s (pg.slots.foldl (fun s y => Machine.slotPassed s key y) (setBg (setFch s f) g x)) :=
    foldl (fun t y => slotPassed t key y) (via (setBg_keeps ..) rfl rfl (of_keeps (setFch_keeps ..) rfl rfl))
  have hcounted {t : State} (h : SameDomains s t) (f : Ftl) :
      SameDomains s (setFtl (if pg.dense then t else Machine.flushEnded t pg.slots.length) f) :=
    via (setFtl_keeps ..) rfl rfl (ite h (after (flushEnded _ _) h))
  unfold Machine.programPassed
  dsimp -proj only
  refine via (judgeFold_keeps _) rfl rfl (via (closeIfFull_keeps ..) rfl rfl ?_)
  exact ite (via (beginCkpt_keeps _) rfl rfl (hcounted (hslots ..) _)) (hcounted (hslots ..) _)

theorem programFailed (s : State) (ch : Nat) (pg : OPage) : SameDomains s (programFailed s ch pg) := by
  unfold Machine.programFailed
  dsimp -proj only
  refine via (judgeFold_keeps _) rfl rfl (foldl (fun t p => reissue t ch p) (after (retireBlock _ _ _ _) ?_))
  exact foldl (fun t p => of_keeps (leaveStripe_keeps t ch p) rfl rfl) (of_keeps (setChan_keeps ..) rfl rfl)

theorem sealAll (s : State) (dense : Bool) : SameDomains s (sealAll s dense) := by
  refine foldl (fun t ch => ?_) (refl s)
  unfold sealShort
  split
  · exact refl t
  · exact ite (sealPage t ch dense) (via (bump_keeps ..) rfl rfl (sealPage t ch dense))

theorem passOne (bad : List Nat) (s : State) (ch : Nat) : SameDomains s (passOne bad s ch) := by
  have hended (c : FChan) (die block : Nat) : SameDomains s (endErase (setChan s ch c) ch die block) :=
    via (endErase_keeps ..) rfl rfl (of_keeps (setChan_keeps ..) rfl rfl)
  unfold Machine.passOne
  split
  · exact refl s
  · exact ite (after (programFailed _ _ _) (hended ..)) (after (programPassed _ _ _) (hended ..))

theorem passAll (bad : List Nat) (n : Nat) (s : State) : SameDomains s (passAll bad n s) := by
  induction n generalizing s with
  | zero => exact refl s
  | succ n ih =>
    rw [Machine.passAll]
    exact ite (refl s) (after (ih _) (foldl (passOne bad) (refl s)))

theorem flushPages (s : State) (dense : Bool) (bad : List Nat) : SameDomains s (flushPages s dense bad) :=
  after (passAll bad _ _) (sealAll s dense)

/-! ### The steps of the flush -/

theorem flushFence (s : State) (tag : Nat) : SameDomains s (flushFence s tag) :=
  after (finishTicket _ tag) (via (fenceTicket_keeps ..) rfl rfl ⟨rfl, rfl⟩)

theorem fenceDirty (s : State) : SameDomains s (fenceDirty s) := foldl flushFence (refl s)

theorem flushStaging (s : State) : SameDomains s (flushStaging s) := after (flushPages _ _ _) (placeRun s _ _ _)

theorem flushClose (s : State) : SameDomains s (flushClose s) := by
  have hsaved (t : State) : SameDomains t (saveFlushNj t) := ⟨rfl, rfl⟩
  refine put_key (put_dev (after (hsaved _) (after (closeJournal _) (after (flushPages _ _ _) ?_))) _) _
  exact foldl (fun t k => partialParity t (k / 4096) (k % 4096)) (refl s)

theorem flushRecord (s : State) (mv : Nat) : SameDomains s (flushRecord s mv) :=
  have hmarked (t : State) : SameDomains t (setBoot t { t.boot with mark := 2 }) := ⟨rfl, rfl⟩
  after (hmarked _) (via (flushMirror_keeps _) rfl rfl (of_keeps (record_keeps ..) rfl rfl))

theorem flushAll (s : State) (mv : Nat) : SameDomains s (flushAll s mv) :=
  after (flushRecord _ mv) (after (flushClose _) (after (flushStaging _) (fenceDirty s)))

end SameDomains

end Sys2Proof.Machine
end

section
/-! SUPPORT and O34. The power-loss flush (05_energy_and_heat.md, R208, R223; 24_package_and_electrical.md, R766). -/

namespace Sys2Proof.Machine

section
variable {s : State} {k c mv : Nat}

/-! ## A fence of the flush: no unit changes, and flush mode stays -/

theorem park_flushMode (s : State) (e : Siding) : (park s e).sbx.flushMode = s.sbx.flushMode := by
  have hcounted (l : List Siding) (t : State) : (l.foldl (fun s x =>
      bump (if x.inst = 0 then s else bump s (pageSiding x.inst) 31 16 1) Reg.SBX_SIDING_STATUS 31 16 1) t).sbx = t.sbx :=
    (Keeps.foldl (m := 16) (fun _ _ => Keeps.via (bump_keeps ..) rfl
      (Keeps.ite (Keeps.refl _ _) (Keeps.via (bump_keeps ..) rfl (Keeps.refl _ _)))) (Keeps.refl _ _)).sbx rfl
  unfold park
  dsimp -proj only
  rw [hcounted]

/-- What parks packets one after another parks them with flush mode as it was, and touches no unit. -/
theorem foldl_park {α : Type} {p : α → Bool} {f : State → α → Siding} (l : List α) (s : State) :
    (l.foldl (fun s x => if p x then s else park s (f s x)) s).sbx.flushMode = s.sbx.flushMode ∧
      (l.foldl (fun s x => if p x then s else park s (f s x)) s).dev = s.dev := by
  induction l generalizing s with
  | nil => exact ⟨rfl, rfl⟩
  | cons x l ih =>
    obtain ⟨hmode, hdev⟩ := ih (if p x then s else park s (f s x))
    rw [List.foldl_cons, hmode, hdev]
    split
    · exact ⟨rfl, rfl⟩
    · exact ⟨park_flushMode _ _, (park_keeps _ _).dev rfl⟩

theorem quarantine_keeps_mode_and_units (s : State) (tag status : Nat) :
    (quarantine s tag status).sbx.flushMode = s.sbx.flushMode ∧ (quarantine s tag status).dev.units = s.dev.units := by
  unfold quarantine
  split
  · exact ⟨rfl, rfl⟩
  · dsimp -proj only
    obtain ⟨hmode, hdev⟩ := foldl_park (p := fun p : Packet => p.data.isEmpty) _ _
    rw [hmode, hdev]
    exact ⟨rfl, rfl⟩

theorem modEntry_flushMode (s : State) (tag : Nat) (f : Entry → Entry) :
    (modEntry s tag f).sbx.flushMode = s.sbx.flushMode := by
  obtain ⟨x, hx⟩ := modEntry_eq s tag f
  rw [hx]

theorem fenceTicket_keeps_mode_and_units (s : State) (tag status : Nat) (mark : Entry → Entry) :
    (fenceTicket s tag status mark).sbx.flushMode = s.sbx.flushMode ∧
      (fenceTicket s tag status mark).dev.units = s.dev.units := by
  unfold fenceTicket
  split
  · exact ⟨rfl, rfl⟩
  · dsimp -proj only
    obtain ⟨hmode, hunits⟩ := quarantine_keeps_mode_and_units (zeroWritten s tag _) tag status
    rw [(dropCtx_keeps ..).sbx rfl, (dropCtx_keeps ..).dev rfl, modEntry_flushMode, (modEntry_keeps ..).dev rfl, hmode, hunits,
      (zeroWritten_keeps ..).sbx rfl, (zeroWritten_keeps ..).dev rfl]
    exact ⟨rfl, rfl⟩

/-- In flush mode a ticket ends with no completion (R167, R223 step 2). -/
theorem finishTicket_flushMode (h : s.sbx.flushMode = true) (tag : Nat) : (finishTicket s tag).sbx.flushMode = true := by
  unfold finishTicket finishPlain
  split
  · exact h
  · next e _ =>
    have hmode : (countEnd s e).sbx.flushMode = true := h
    have hsilent : (!posts (countEnd s e) e) = true := by simp [posts, hmode]
    rw [if_pos hsilent, freeTicket_sbx]
    exact hmode

theorem flushFence_flushMode (h : s.sbx.flushMode = true) (tag : Nat) : (flushFence s tag).sbx.flushMode = true :=
  finishTicket_flushMode ((fenceTicket_keeps_mode_and_units (drawn s) tag (freeFailure s) id).1.trans h) tag

theorem flushFence_units (s : State) (tag : Nat) : (flushFence s tag).dev.units = s.dev.units := by
  rw [flushFence, (finishTicket_keeps ..).dev rfl, (fenceTicket_keeps_mode_and_units ..).2]
  rfl

theorem enterFlush_flushMode (s : State) : (enterFlush s).sbx.flushMode = true :=
  List.foldlRecOn (motive := fun t : State => t.sbx.flushMode = true) _ _ rfl
    fun _ h tag _ => flushFence_flushMode h tag

theorem fenceDirty_units (s : State) : (fenceDirty s).dev.units = s.dev.units :=
  List.foldlRecOn (motive := fun t : State => t.dev.units = s.dev.units) _ _ rfl
    fun t h tag _ => (flushFence_units t tag).trans h

/-! ## The declaration (R208) -/

theorem dropOutside_drops_links (s : State) :
    (linkOf (dropOutside s) 0).up = false ∧ (linkOf (dropOutside s) 1).up = false := by
  unfold dropOutside
  dsimp -proj only
  rw [linkOf_setLink_other _ _ (by decide), linkOf_setLink_same, linkOf_setLink_same]
  exact ⟨rfl, rfl⟩

/-- R208, R223 steps 1 and 2: what a declaration leaves, whatever noted the loss before it. -/
theorem declareLoss_declares (hoff : s.boot.off = false) (hloss : s.pwr.powerLoss = false) :
    (declareLoss s).pwr = lossPwr s.pwr ∧ (declareLoss s).sbx.flushMode = true ∧
      (linkOf (declareLoss s) 0).up = false ∧ (linkOf (declareLoss s) 1).up = false := by
  refine ⟨declareLoss_pwr hoff hloss, ?_⟩
  rw [declareLoss_of_on hoff hloss]
  exact ⟨((dropOutside_keeps _).sbx rfl).symm ▸ enterFlush_flushMode _, dropOutside_drops_links _⟩

/-- The outputs of a declared loss (R208): a peat bank that is not down is in HOLDUP. -/
theorem declareLoss_outputs (hoff : s.boot.off = false) (hloss : s.pwr.powerLoss = false) :
    (declareLoss s).pwr.powerLoss = true ∧ (declareLoss s).pwr.rbGate = false ∧ (declareLoss s).pwr.chgEn = false ∧
      (declareLoss s).pwr.holdupEn = true ∧ (peatDown s.pwr.peat = false → (declareLoss s).pwr.peat = .holdup) ∧
      (declareLoss s).sbx.flushMode = true ∧ (linkOf (declareLoss s) 0).up = false ∧
      (linkOf (declareLoss s) 1).up = false := by
  obtain ⟨hpwr, hmode, hlinks⟩ := declareLoss_declares hoff hloss
  rw [hpwr]
  exact ⟨rfl, rfl, rfl, rfl, fun h => by simp [lossPwr, h], hmode, hlinks⟩

/-! ## Domains that go OFF (R200, R223 steps 4 and 8) -/

theorem islandAt_of_get {i : Island} (h : Tab.get? s.pwr.islands k = some i) : islandAt s k = i := by
  simp [islandAt, Tab.getD, h]

/-- Island `k` after a gating of the domains that satisfy `p`. -/
def gatedIsland (p : Nat → Bool) (k : Nat) (i : Island) : Island :=
  if p k && decide (k < 0xE8) then { i with dom := .off, point := 0, mhz := 0 } else i

theorem gateOff_get (s : State) (p : Nat → Bool) (k : Nat) :
    Tab.get? (gateOff s p).pwr.islands k = (Tab.get? s.pwr.islands k).map (gatedIsland p k) :=
  Tab.get?_mapVals' s.pwr.islands (gatedIsland p) k

theorem gateOff_isSome (s : State) (p : Nat → Bool) (k : Nat) :
    (Tab.get? (gateOff s p).pwr.islands k).isSome = (Tab.get? s.pwr.islands k).isSome := by
  rw [gateOff_get, Option.isSome_map]

theorem gateOff_off {p : Nat → Bool} (hk : k < 0xE8) (hp : p k = true) (h : (Tab.get? s.pwr.islands k).isSome = true) :
    (islandAt (gateOff s p) k).dom = .off := by
  obtain ⟨i, hi⟩ := Option.isSome_iff_exists.mp h
  have hget : Tab.get? (gateOff s p).pwr.islands k = some (gatedIsland p k i) := by rw [gateOff_get, hi, Option.map_some]
  rw [islandAt_of_get hget, gatedIsland, hp, if_pos (by simpa using hk)]

/-- Island `k` once the clocks are stopped (R222). -/
def stoppedIsland (k : Nat) (i : Island) : Island := if decide (0xE8 ≤ k) && k != 0xE9 then { i with mhz := 0 } else i

theorem stoppedIsland_dom (k : Nat) (i : Island) : (stoppedIsland k i).dom = i.dom := by
  unfold stoppedIsland
  split <;> rfl

theorem stopClocks_dom (h : (Tab.get? s.pwr.islands k).isSome = true) :
    (islandAt (stopClocks s) k).dom = (islandAt s k).dom := by
  obtain ⟨i, hi⟩ := Option.isSome_iff_exists.mp h
  have hget : Tab.get? (stopClocks s).pwr.islands k = some (stoppedIsland k i) :=
    (Tab.get?_mapVals' s.pwr.islands stoppedIsland k).trans (congrArg _ hi)
  rw [islandAt_of_get hget, islandAt_of_get hi, stoppedIsland_dom]

/-! ## The dirty fence (R223 steps 3 and 4) -/

theorem step4Unit_congr {s t : State} (h : t.dev.units = s.dev.units) : step4Unit t = step4Unit s := by
  funext u
  rw [step4Unit, step4Unit, unitOf, unitOf, h]

theorem dirtyFence_reaches_step4 (hloss : s.pwr.powerLoss = true) (hstep : s.pwr.flushStep = 3) :
    Nexts (exec .flushDirtyFenceTimeout s) (fun t => t.pwr.flushStep = 4 ∧
      (k < 0xE8 → step4Unit s k = true → (Tab.get? s.pwr.islands k).isSome = true → (islandAt t k).dom = .off)) := by
  refine ⟨_, if_pos ⟨hloss, hstep⟩, rfl, fun hk hunit hsome => gateOff_off hk ?_ ?_⟩
  · rw [← hunit]
    exact congrFun (step4Unit_congr (fenceDirty_units s)) k
  · rw [← hsome, ← (SameDomains.fenceDirty s).1]
    rfl

/-! ## The flush and its end (R223 steps 5 to 8) -/

/-- No DRAM channel stays in service once the channels go to self-refresh. -/
theorem dramOf_selfRefresh (l : List Nat) (s : State) (c : Nat) :
    (dramOf (l.foldl (fun s c =>
      setDram s c { dramOf s c with state := .selfRefresh, window := false, drift := false }) s) c).state =
        if c ∈ l then .selfRefresh else (dramOf s c).state := by
  induction l generalizing s with
  | nil => rfl
  | cons d l ih =>
    rw [List.foldl_cons, ih, dramOf_setDram]
    by_cases hl : c ∈ l
    · simp [hl]
    · by_cases hcd : c = d <;> simp [hl, hcd]

theorem selfRefresh_dramIn (hc : c < 4) : dramIn (selfRefresh s) c = false := by
  have hmem : c ∈ dramLive s ↔ dramIn s c = true := by simp [dramLive, hc]
  unfold dramIn selfRefresh
  rw [dramOf_selfRefresh]
  by_cases h : dramIn s c = true
  · rw [if_pos (hmem.mpr h)]
  · rw [if_neg (mt hmem.mp h)]
    exact eq_false_of_ne_true h

theorem gateAll_dramIn (hc : c < 4) : dramIn (gateAll s) c = false := selfRefresh_dramIn hc

theorem gateAll_channel0_off (h : (Tab.get? s.pwr.islands 0).isSome = true) : (islandAt (gateAll s) 0).dom = .off := by
  rw [gateAll, islandAt_congr ((selfRefresh_keeps _).pwr rfl)]
  exact gateOff_off (by decide) (by simp) h

theorem gateAll_boot (s : State) : (gateAll s).boot = s.boot := (gateAll_keeps s).boot rfl

theorem flushRecord_mark (s : State) (mv : Nat) : (flushRecord s mv).boot.mark = 2 := rfl

theorem flushClose_closed (s : State) : (flushClose s).ftl.closed = true := rfl

/-- Step 6 records the GEN of every unit (R31). -/
theorem flushClose_units (s : State) :
    ∃ l : Tab UnitRec, (flushClose s).dev.units = Tab.mapVals l (fun _ r => { r with recordedGen := r.gen }) := ⟨_, rfl⟩

theorem flushClose_recordedGen {u : Nat} {r : UnitRec} (h : Tab.get? (flushClose s).dev.units u = some r) :
    r.recordedGen = r.gen := by
  obtain ⟨l, hl⟩ := flushClose_units s
  rw [hl, Tab.get?_mapVals'] at h
  obtain ⟨x, -, rfl⟩ := Option.map_eq_some_iff.mp h
  rfl

theorem flushRecord_ftl (s : State) (mv : Nat) : (flushRecord s mv).ftl = s.ftl := by
  rw [flushRecord, setBoot_ftl, (flushMirror_keeps _).ftl rfl, (record_keeps ..).ftl rfl]

theorem flushRecord_dev (s : State) (mv : Nat) : (flushRecord s mv).dev = s.dev := by
  rw [flushRecord, setBoot_dev, (flushMirror_keeps _).dev rfl, (record_keeps ..).dev rfl]

/-- Steps 4 to 8 together: the state that FLUSH_END leaves, but for its voltage and step number. -/
def flushed (s : State) (mv : Nat) : State := gateAll (flushAll (gateStep4 s) mv)

theorem flushed_boot (s : State) (mv : Nat) :
    (flushed s mv).boot.mark = 2 ∧ (flushed s mv).boot.abandoned = s.boot.abandoned := by
  rw [flushed, gateAll_boot]
  exact ⟨flushRecord_mark _ mv, (SameDomains.flushAll _ mv).2⟩

theorem flushed_closed (s : State) (mv : Nat) : (flushed s mv).ftl.closed = true := by
  rw [flushed, (gateAll_keeps _).ftl rfl, flushAll, flushRecord_ftl, flushClose_closed]

theorem flushed_recordedGen {u : Nat} {r : UnitRec} (h : Tab.get? (flushed s mv).dev.units u = some r) :
    r.recordedGen = r.gen := by
  rw [flushed, (gateAll_keeps _).dev rfl, flushAll, flushRecord_dev] at h
  exact flushClose_recordedGen h

theorem flushed_channel0_off (h : (Tab.get? s.pwr.islands 0).isSome = true) : (islandAt (flushed s mv) 0).dom = .off := by
  refine gateAll_channel0_off ?_
  rw [(SameDomains.flushAll _ mv).1, gateStep4, gateOff_isSome, h]

/-- What FLUSH_END still notes of a flushed state: an abandoned start has the mark of before (R696). -/
def atStep8 (t : State) (mark mv : Nat) : State :=
  let u := if t.boot.abandoned then setBoot t { t.boot with mark := mark } else t
  setPwr u { u.pwr with vMv := mv, flushStep := 8 }

theorem atStep8_of_started {t : State} (h : t.boot.abandoned = false) (mark mv : Nat) :
    atStep8 t mark mv = setPwr t { t.pwr with vMv := mv, flushStep := 8 } := by
  rw [atStep8, h]
  rfl

theorem flushEnd_reaches_step8 (hloss : s.pwr.powerLoss = true) (hstep : s.pwr.flushStep < 8) (hoff : s.boot.off = false)
    (hstart : s.boot.abandoned = false) :
    exec (.flushEnd mv) s = .next (setPwr (flushed s mv) { (flushed s mv).pwr with vMv := mv, flushStep := 8 }) := by
  have hacts : ¬(!s.pwr.powerLoss || decide (8 ≤ s.pwr.flushStep) || s.boot.off) = true := by simp [hloss, hstep, hoff]
  rw [← atStep8_of_started ((flushed_boot s mv).2.trans hstart) s.boot.mark]
  exact if_neg hacts

theorem flushEnd_flushes (hloss : s.pwr.powerLoss = true) (hstep : s.pwr.flushStep < 8) (hoff : s.boot.off = false)
    (hstart : s.boot.abandoned = false) :
    Nexts (exec (.flushEnd mv) s) (fun t => t.pwr.flushStep = 8 ∧ t.boot.mark = 2 ∧ t.ftl.closed = true ∧
      (∀ u r, Tab.get? t.dev.units u = some r → r.recordedGen = r.gen) ∧
      (c < 4 → dramIn t c = false) ∧ ((Tab.get? s.pwr.islands 0).isSome = true → (islandAt t 0).dom = .off)) :=
  ⟨_, flushEnd_reaches_step8 hloss hstep hoff hstart, rfl, (flushed_boot s mv).1, flushed_closed s mv,
    fun _ _ h => flushed_recordedGen h, gateAll_dramIn, flushed_channel0_off⟩

/-! ## The input comes back (R223, R208) -/

theorem inputReturn_starts_warm (hloss : s.pwr.powerLoss = true) (hstep : s.pwr.flushStep = 8)
    (hheat : s.pwr.thermHold = false) (hoff : s.boot.off = false) (hstart : s.boot.abandoned = false) :
    Nexts (exec .inputReturn s) (fun t => t.pwr.powerLoss = false ∧ t.boot.phase = .rom ∧
      t.boot.kind = 2 ∧ t.boot.cause = 0x10 ∧ (s.pwr.peat = .holdup → t.pwr.peat = .ramp)) := by
  refine ⟨_, if_neg (by simp [hloss, hstep, hheat, hoff]), ?_⟩
  by_cases hpeat : s.pwr.peat = .holdup <;> simp [hpeat, hstart, enterRamp, toRom]

/-! ## Brown-out (R766) -/

/-- R766: the outputs and domains of a device that has been turned off, whatever else changed before with no domain moved. -/
theorem turnOff_leaves {t : State} (ht : t.pwr.islands = s.pwr.islands) :
    (turnOff t).boot.off = true ∧ (turnOff t).pwr.holdupEn = false ∧ (turnOff t).pwr.rbGate = false ∧
      (turnOff t).pwr.chgEn = false ∧ (turnOff t).pwr.disEn = false ∧ (turnOff t).boot.sbReady = false ∧
      (k < 0xE8 → (Tab.get? s.pwr.islands k).isSome = true → (islandAt (turnOff t) k).dom = .off) := by
  rw [turnOff_pwr]
  refine ⟨rfl, rfl, rfl, rfl, rfl, rfl, fun hk h => ?_⟩
  rw [← ht] at h
  rw [islandAt_congr (turnOff_pwr t), stopClocks_dom]
  · exact gateOff_off hk rfl h
  · rw [gateOff_isSome]
    exact h

theorem brownOut_turns_off : Nexts (exec .brownOut s) (fun t => t.boot.off = true ∧ t.pwr.holdupEn = false ∧
    t.pwr.rbGate = false ∧ t.pwr.chgEn = false ∧ t.pwr.disEn = false ∧ t.boot.sbReady = false ∧
    (k < 0xE8 → (Tab.get? s.pwr.islands k).isSome = true → (islandAt t k).dom = .off)) := by
  refine ⟨_, rfl, turnOff_leaves ?_⟩
  change (ite _ _ _ : State).pwr.islands = _
  split <;> rfl

end

/-- Settles O34: the declaration by VIN12 and PWRDIS, the dirty fence, the flush and its end, the input's return, and
brown-out. -/
theorem powerLossRunsItsFlushInOrder : Obligations.PowerLossRunsItsFlushInOrder := by
  unfold Obligations.PowerLossRunsItsFlushInOrder
  intro s mv k c declared
  refine ⟨fun hoff hloss hmv => ?_, fun hoff hloss => ?_, dirtyFence_reaches_step4, flushEnd_flushes,
    inputReturn_starts_warm, brownOut_turns_off⟩
  · exact ⟨_, congrArg Host.Outcome.next (if_pos hmv), declareLoss_outputs hoff hloss⟩
  · exact ⟨_, rfl, declareLoss_outputs hoff hloss⟩

end Sys2Proof.Machine
end

section
/-! SUPPORT. What a ticket's end leaves of the map engine's state (04_lines_and_signal_box.md, R175, R179): its counts, the
staged slots that the ticket held and the zones of its namespace change, and nothing else. -/

namespace Sys2Proof.Machine

variable {s t : State} {tag : Nat} {e : Entry}

/-- The map engine's state without the parts that the end of a ticket may change: the counts of R326 and R329, the staged
slots, and the namespaces with their zones. -/
def Ftl.lasting (f : Ftl) : Ftl := { f with
  since := [], mediaErrors := [], reads := [], writes := [], readCmds := [], writeCmds := [], staging := [], ns := [] }

/-- The staged slots once ticket `tag` has ended (R291): those that it alone held are gone, and those that it drained wait
again. -/
def releasedSlots (l : Tab Staged) (tag : Nat) : Tab Staged :=
  Tab.mapVals (Tab.keep l (fun _ x => x.tag != some tag || x.isSealed))
    (fun _ x => if x.sent = some tag ∧ !x.isSealed then { x with sent := none } else x)

theorem freeTicket_ftl (s : State) (tag : Nat) (e : Entry) :
    (freeTicket s tag e).ftl = { s.ftl with staging := releasedSlots s.ftl.staging tag } := by
  rw [freeTicket, (dropCtx_keeps ..).ftl, (releaseHandles_keeps ..).ftl rfl, (leaveInside_keeps ..).ftl rfl,
    (dropMessages_keeps ..).ftl rfl]
  · split <;> rfl
  · rfl

/-- `t` has the value `p` of the map engine's state that `s` has. -/
def SameFtl {α : Type} (p : Ftl → α) (s t : State) : Prop := p t.ftl = p s.ftl

namespace SameFtl

variable {α β : Type} {p : Ftl → α} {s t u : State}

theorem refl (s : State) : SameFtl p s s := rfl

/-- One more operation, the outermost first. -/
theorem after (k : SameFtl p t u) (h : SameFtl p s t) : SameFtl p s u := Eq.trans k h

theorem of_ftl (h : t.ftl = s.ftl) : SameFtl p s t := congrArg p h

/-- One more operation that leaves the map engine alone. -/
theorem via {m : Nat} (k : Keeps m t u) (hm : m.testBit 24 = false) (h : SameFtl p s t) : SameFtl p s u :=
  after (of_ftl (k.ftl hm)) h

theorem of_keeps {m : Nat} (k : Keeps m s t) (hm : m.testBit 24 = false) : SameFtl p s t := of_ftl (k.ftl hm)

theorem ite {c : Prop} [Decidable c] (h : SameFtl p s t) (k : SameFtl p s u) : SameFtl p s (if c then t else u) := by
  split <;> assumption

theorem foldl {f : State → β → State} {l : List β} (hf : ∀ t x, SameFtl p t (f t x)) (h : SameFtl p s t) :
    SameFtl p s (l.foldl f t) := by
  induction l generalizing t with
  | nil => exact h
  | cons x l ih => exact ih ((hf t x).after h)

/-- What reads only parts that `p` leaves in place is the same, too. -/
theorem coarser {γ : Type} {r : Ftl → Ftl} (h : SameFtl r s t) (q : Ftl → γ) (hq : ∀ f, q (r f) = q f) :
    SameFtl q s t := by
  rw [SameFtl, ← hq, ← hq s.ftl]
  exact congrArg q h

end SameFtl

open SameFtl

theorem setZone_lasting (s : State) (n z : Nat) (x : Zone) : SameFtl Ftl.lasting s (setZone s n z x) := by
  unfold setZone
  split
  · exact refl s
  · rfl

theorem saveZones_lasting (s : State) (n : Nat) : SameFtl Ftl.lasting s (saveZones s n) := rfl

theorem nvmeTicketDone_lasting (s : State) (e : Entry) (x : Completion) :
    SameFtl Ftl.lasting s (nvmeTicketDone s e x) := by
  have hcounted {t : State} (h : SameFtl Ftl.lasting s t) (r w : Tab Nat) :
      SameFtl Ftl.lasting s { t with ftl := { t.ftl with readCmds := r, writeCmds := w } } := h
  unfold nvmeTicketDone
  split
  · unfold cmdPart
    split
    · exact refl s
    · refine ite (of_keeps (setCmd_keeps ..) rfl) (via (endCmd_keeps ..) rfl (hcounted ?_ _ _))
      refine ite (via (setCore_keeps ..) rfl ?_) ?_ <;>
        exact ite (after (saveZones_lasting ..) (foldl (fun t z => setZone_lasting t _ z _) (refl s))) (refl s)
  · exact refl s

theorem finishTicket_lasting (s : State) (tag : Nat) : SameFtl Ftl.lasting s (finishTicket s tag) := by
  have hended (e : Entry) (b : Sbx) : SameFtl Ftl.lasting s { countEnd s e with sbx := b } := rfl
  have hfree {t : State} (e : Entry) (h : SameFtl Ftl.lasting s t) : SameFtl Ftl.lasting s (freeTicket t tag e) := by
    rw [SameFtl, freeTicket_ftl]
    exact h
  unfold finishTicket finishPlain
  split
  · exact refl s
  · refine ite (hfree _ (hended _ _)) ?_
    dsimp -proj only
    split
    · refine ite (hfree _ (hended _ _)) (ite ?_ (hfree _ (via (cqWrite_keeps ..) rfl (hended _ _))))
      exact via (setCore_keeps ..) rfl (via (setEntry_keeps ..) rfl (hended _ _))
    · exact after (nvmeTicketDone_lasting _ _ _) (hfree _ (hended _ _))
    · exact via (junctionDone_keeps ..) rfl (hfree _ (hended _ _))
    · exact hfree _ (hended _ _)

theorem ackTicket_lasting (s : State) (tag out : Nat) : SameFtl Ftl.lasting s (ackTicket s tag out) := by
  unfold ackTicket
  refine after (finishTicket_lasting _ tag) (via (modEntry_keeps ..) rfl ?_)
  split
  · exact ite (refl s) (refl s)
  · exact refl s

theorem unitDone_lasting (s : State) (tag : Option Nat) : SameFtl Ftl.lasting s (unitDone s tag) := by
  have hset (n : Nat) (e : Entry) : SameFtl Ftl.lasting s (setEntry s n e) := of_keeps (setEntry_keeps ..) rfl
  unfold unitDone
  split
  · exact refl s
  · split
    · exact refl s
    · exact ite (after (ackTicket_lasting _ _ _) (hset _ _)) (hset _ _)

theorem endOut_lasting (s : State) (tag step u out : Nat) (prov : Bool) :
    SameFtl Ftl.lasting s (endOut s tag step u out prov) := by
  unfold endOut
  split
  · exact refl s
  · refine ite (ite ?_ (ackTicket_lasting ..)) (via (setCtx_keeps ..) rfl (of_keeps (sendToken_keeps ..) rfl))
    unfold endProvisional
    split
    · exact refl s
    · exact after (ackTicket_lasting ..) (via (engineFailed_keeps ..) rfl (via (report_keeps ..) rfl
        (of_keeps (zeroWritten_keeps ..) rfl)))

theorem failAt_lasting (s : State) (tag step unit status : Nat) :
    SameFtl Ftl.lasting s (failAt s tag step unit status) := by
  have hfailed : SameFtl Ftl.lasting s (engineFailed (report s tag unit status) unit tag status) :=
    via (engineFailed_keeps ..) rfl (of_keeps (report_keeps ..) rfl)
  have hmarked (last : Bool) (e : Entry) (f : Entry → Entry) : SameFtl Ftl.lasting s (modEntry
      (if last then engineFailed (report s tag unit status) unit tag status
        else engineCleared (sendToken (engineFailed (report s tag unit status) unit tag status) e tag step unit 0 false true)
          unit tag step) tag f) :=
    via (modEntry_keeps ..) rfl (ite hfailed (via (engineCleared_keeps ..) rfl (via (sendToken_keeps ..) rfl hfailed)))
  unfold failAt
  split
  · exact refl s
  · exact ite (refl s) (ite (after (ackTicket_lasting ..) (via (zeroWritten_keeps ..) rfl (hmarked _ _ _))) (hmarked _ _ _))

end Sys2Proof.Machine
end

section
/-! SUPPORT. The front of a station's queue and what the station sends on (04_lines_and_signal_box.md, R156–R159, R172). -/

namespace Sys2Proof.Machine

variable {s : State} {e : Entry} {y : LStep} {rest : List Work} {p : Packet} {u tag j first len : Nat}
  {fits : LStep → Bool} {ok : Nat → Bool} {kind : Nat} {f : State → Nat → Entry → Nat → LStep → Work → State}

/-! ## Taking the front of the queue -/

theorem serveAt_start (h : startWaits s u tag j first len e y rest) (hfits : fits y = true) :
    serveAt s u fits f = f (setInbox s u rest) tag e j y (.start tag j first len) := by
  obtain ⟨hq, he, hf, hr, hy⟩ := h
  simp [serveAt, dequeue, hq, Work.tag, he, hf, hr, hy, hfits]

theorem serveAt_packet (hq : inboxOf s u = .pkt p :: rest) (he : entryOf s p.tag = some e) (hf : e.fenced = false)
    (hr : e.revoking = false) (hy : (stepsOf s e)[p.step]? = some y) (hfits : fits y = true) :
    serveAt s u fits f = f (setInbox s u rest) p.tag e p.step y (.pkt p) := by
  simp [serveAt, dequeue, hq, Work.tag, he, hf, hr, hy, hfits]

theorem serveFront_start (h : startWaits s u tag j first len e y rest) (hk : stepKind y = kind) (hm : ok y.mode = true)
    (hw : worksNow s u = true) :
    serveFront s u kind ok f = f (setInbox s u rest) tag e j y (.start tag j first len) :=
  serveAt_start h (by simp [hk, hm, hw])

theorem serveFront_packet (hq : inboxOf s u = .pkt p :: rest) (he : entryOf s p.tag = some e) (hf : e.fenced = false)
    (hr : e.revoking = false) (hy : (stepsOf s e)[p.step]? = some y) (hk : stepKind y = kind) (hm : ok y.mode = true)
    (hw : worksNow s u = true) :
    serveFront s u kind ok f = f (setInbox s u rest) p.tag e p.step y (.pkt p) :=
  serveAt_packet hq he hf hr hy (by simp [hk, hm, hw])

/-! ## What it sends -/

section
variable {t : State} {pk : Packet} {d step src n off : Nat} {data : Bytes} {station : Nat} {prov : Bool}

theorem unitAt_congr (h : t.cfg = s.cfg) (e : Entry) (step n : Nat) : unitAt t e step n = unitAt s e step n := by
  rw [unitAt, unitAt, stepsOf_congr h]

/-- What a unit sends in a state with the configuration of `s`. -/
theorem sendData_of_cfg (hcfg : t.cfg = s.cfg) (he : entryOf t tag = some e) (hf : e.fenced = false) (hr : e.revoking = false)
    (hd : unitAt s e (step + 1) n = some d) :
    sendData t tag step src n off data station prov = emit t (sentTo s e tag step src d off data station prov) := by
  rw [sendData_of_unitAt he hf hr ((unitAt_congr hcfg ..).trans hd), sentTo, routeOf, hcfg]
  rfl

theorem sendUnit_of_cfg (hcfg : t.cfg = s.cfg) (he : entryOf t tag = some e) (hf : e.fenced = false) (hr : e.revoking = false)
    (hd : unitAt s e (step + 1) (pk.off / 4096) = some d) :
    sendUnit t tag step u pk data station prov =
      countCtx (emit t (sentTo s e tag step u d pk.off data station prov)) tag step 0 data.length := by
  rw [sendUnit, sendData_of_cfg hcfg he hf hr hd]

end

end Sys2Proof.Machine
end

section
/-! SUPPORT and O36. The map engine and the parity engines: journal pages, checkpoints, relocation, wear and parity
(06_flash_channels.md, R256, R258; 07_translation_and_recovery.md, R294–R304; 08_media_health_and_discard.md, R320–R327). -/

namespace Sys2Proof.Machine

section
variable {s : State} {q : JPage} {j g p ch : Nat}

/-! ## Journal pages (R301, R302) -/

theorem commitJournal_of_nil (h : s.ftl.jpages = []) (n : Nat) : commitJournal n s = s := by
  cases n <;> simp [commitJournal, h]

theorem commitJournal_of_waiting {l : List JPage} (h : s.ftl.jpages = q :: l) (hq : (q.first && q.second) = false) (n : Nat) :
    commitJournal n s = s := by
  cases n <;> simp [commitJournal, h, hq]

/-- A page that has passed on both dies is committed; the units of its records are done. -/
theorem commitJournal_of_passed (h : s.ftl.jpages = [q]) (hq : (q.first && q.second) = true) (n : Nat) :
    (commitJournal (n + 1) s).ftl.jpages = [] ∧
      (commitJournal (n + 1) s).ftl.journal = s.ftl.journal ++ q.recs.map (fun r => (q.jseq, r)) := by
  let t := setFtl s { s.ftl with jpages := [], journal := s.ftl.journal ++ q.recs.map (fun r => (q.jseq, r)) }
  have hdone : SameFtl Ftl.lasting t (q.recs.foldl (fun s r => unitDone s r.tag) t) :=
    SameFtl.foldl (fun s r => unitDone_lasting s r.tag) (SameFtl.refl t)
  have hnil : (q.recs.foldl (fun s r => unitDone s r.tag) t).ftl.jpages = [] := congrArg Ftl.jpages hdone
  have hrun : commitJournal (n + 1) s = q.recs.foldl (fun s r => unitDone s r.tag) t := by
    rw [commitJournal, h]
    exact (if_pos hq).trans (commitJournal_of_nil hnil n)
  rw [hrun]
  exact ⟨hnil, congrArg Ftl.journal hdone⟩

theorem journalPageProgrammed_commits (hpage : s.ftl.jpages = [q]) (hj : q.jseq = j) (hnew : j ≠ s.ftl.nextJseq)
    (hfirst : q.first = true) :
    Nexts (exec (.journalPageProgrammed j 1) s) (fun t => t.ftl.jpages = [] ∧
      t.ftl.journal = s.ftl.journal ++ q.recs.map (fun r => (j, r))) := by
  change Nexts (execJournalPageProgrammed j 1 s) _
  simp only [execJournalPageProgrammed, hnew, false_and, if_false, hpage, List.map_cons, List.map_nil, hj]
  refine ⟨_, rfl, ?_⟩
  obtain ⟨hpages, hjournal⟩ := commitJournal_of_passed (s := setFtl s { s.ftl with
    jpages := [{ q with first := q.first || (1 == 0), second := q.second || (1 == 1) }] }) rfl (by simp [hfirst]) 1
  rw [← hj]
  exact ⟨hpages, hjournal⟩

theorem journalPageProgrammed_forms (hpages : s.ftl.jpages = []) (hheld : s.ftl.held ≠ []) :
    Nexts (exec (.journalPageProgrammed s.ftl.nextJseq 0) s) (fun t =>
      t.ftl.jpages = [{ jseq := s.ftl.nextJseq, recs := s.ftl.held.take 252, first := true }] ∧
      t.ftl.held = s.ftl.held.drop 252 ∧ t.ftl.nextJseq = s.ftl.nextJseq + 1 ∧ t.ftl.journal = s.ftl.journal) := by
  have hform : (s.ftl.nextJseq = s.ftl.nextJseq ∧ (!s.ftl.held.isEmpty) = true ∧ s.ftl.jpages.length < 8) := by
    simp [hpages, hheld]
  change Nexts (execJournalPageProgrammed s.ftl.nextJseq 0 s) _
  rw [execJournalPageProgrammed, if_pos hform]
  simp only [formJournal, hpages]
  refine ⟨_, congrArg Host.Outcome.next (commitJournal_of_waiting (l := []) rfl ?_ _), ?_⟩
  · simp
  · simp
end

section
variable {s : State} {q : JPage} {j g p ch : Nat} {bad fails : List Nat} {tiers : List (Nat × Nat)} {x : BGroup}

/-! ## Checkpoints (R303–R305, R316) -/

/-- With nothing being programmed S0 is the next sequence number (R304 step 1). -/
theorem beginCkpt_of_idle (h : s.ftl.ckpt = none) (hprog : ∀ y ∈ s.fch.chans, y.2.programs = []) :
    (beginCkpt s).ftl.ckpt = some (s.ftl.nextSeq, s.ftl.nextJseq) ∧ (beginCkpt s).ftl.ckptSince = s.now := by
  have hseqs : s.fch.chans.flatMap (fun p => p.2.programs.flatMap (fun g => g.slots.map (·.seq))) = [] :=
    List.flatMap_eq_nil_iff.mpr (fun y hy => by rw [hprog y hy, List.flatMap_nil])
  rw [beginCkpt, if_neg (by simp [h]), hseqs]
  exact ⟨rfl, rfl⟩

theorem beginCkpt_of_running (h : s.ftl.ckpt ≠ none) : beginCkpt s = s :=
  if_pos (Option.isSome_iff_ne_none.mpr h)

theorem beginCkpt_map (s : State) : (beginCkpt s).ftl.map = s.ftl.map := by
  unfold beginCkpt
  split <;> rfl

theorem resumeSecures_of_nil (h : s.ftl.secures = []) : resumeSecures s = s := by
  rw [resumeSecures, h, List.foldl_nil]

/-- The end of a checkpoint (R304 steps 5 and 6): `left` are the pages that found no place. -/
def ckptEnd (clean : Bool) (map : Tab MEntry) (left : List (Nat × Nat)) (u : State) : State :=
  match u.ftl.ckpt with
  | none => u
  | some (s0, j0) =>
    if !left.isEmpty || u.fch.stalled.any (fun p => p.2.slots.any (fun x => x.kind != 1)) then u
    else if clean then closeJournal (setAnchor u s0 j0 map) else setAnchor u s0 j0 map

/-- A checkpoint is written, then it ends. The operations are generalised before the equation is closed: the kernel would
otherwise evaluate the whole writing to learn whether a checkpoint still runs. -/
theorem runCkpt_eq (s : State) (clean : Bool) : runCkpt s clean =
    ckptEnd clean s.ftl.map (writeMap (beginCkpt s)).2 (commitHeld (writeMap (beginCkpt s)).1) := by
  obtain ⟨b, hb⟩ : ∃ b, b = beginCkpt := ⟨_, rfl⟩
  obtain ⟨w, hw⟩ : ∃ w, w = writeMap := ⟨_, rfl⟩
  obtain ⟨c, hc⟩ : ∃ c, c = commitHeld := ⟨_, rfl⟩
  have hmap : s.ftl.map = (b s).ftl.map := hb ▸ (beginCkpt_map s).symm
  rewrite [hmap, show @runCkpt = _ from by delta runCkpt; rfl, show @ckptEnd = _ from by delta ckptEnd; rfl, ← hb, ← hw,
    ← hc]
  rfl
theorem runCkpt_of_written {u : State} {s0 j0 : Nat} (hu : u = commitHeld (writeMap (beginCkpt s)).1)
    (h : u.ftl.ckpt = some (s0, j0)) (hplaced : (writeMap (beginCkpt s)).2 = []) (hstalled : u.fch.stalled = []) :
    runCkpt s false = setAnchor u s0 j0 s.ftl.map := by
  rw [runCkpt_eq, ← hu, ckptEnd, h, hplaced]
  dsimp only
  rw [hstalled]
  rfl

/-- What the anchor says and what its writing leaves (R304 steps 5 and 6, R305). -/
def Anchored (u : State) (s0 j0 : Nat) (map : Tab MEntry) (t : State) : Prop :=
  t.ftl.anchor = some {
    num := (u.ftl.anchor.map (·.num)).getD 0 + 1, s0 := s0, j0 := j0, jend := u.ftl.nextJseq, map := map,
    places := u.ftl.mapAt } ∧
  t.ftl.ckpt = none ∧ t.ftl.journal = u.ftl.journal.filter (fun r => decide (j0 ≤ r.1)) ∧
  t.ftl.map = u.ftl.map ∧ t.ftl.histSaved = u.ftl.hist

theorem setAnchor_anchored (u : State) (s0 j0 : Nat) (map : Tab MEntry) :
    Anchored u s0 j0 map (setAnchor u s0 j0 map) := ⟨rfl, rfl, rfl, rfl, rfl⟩

theorem setAnchor_secures (u : State) (s0 j0 : Nat) (map : Tab MEntry) :
    SameFtl Ftl.secures u (setAnchor u s0 j0 map) := rfl

theorem checkpointBegin_anchors {u : State} {s0 j0 : Nat} (hu : u = commitHeld (writeMap (beginCkpt s)).1)
    (h : u.ftl.ckpt = some (s0, j0)) (hplaced : (writeMap (beginCkpt s)).2 = []) (hstalled : u.fch.stalled = [])
    (hsecures : u.ftl.secures = []) : Nexts (exec .checkpointBegin s) (Anchored u s0 j0 s.ftl.map) := by
  refine ⟨resumeSecures (runCkpt s false), rfl, ?_⟩
  rw [runCkpt_of_written hu h hplaced hstalled, resumeSecures_of_nil ((setAnchor_secures ..).trans hsecures)]
  exact setAnchor_anchored ..

/-! ## Relocation (R294–R296) -/

/-- The map engine's state without its mode. -/
def Ftl.modeless (f : Ftl) : Ftl := { f with state := .ready }

theorem judgeSpare_modeless (s : State) : SameFtl Ftl.modeless s (judgeSpare s) := by
  have hjudged (t : State) (b : Nat) (on : Bool) : SameFtl Ftl.modeless t (setHealth t b on) :=
    .of_keeps (setHealth_keeps ..) rfl
  have hmode {t : State} (h : SameFtl Ftl.modeless s t) (m : TState) :
      SameFtl Ftl.modeless s (setFtl t { t.ftl with state := m }) := h
  exact .ite (.after (hjudged ..) (hmode (hjudged ..) _)) (hjudged ..)

theorem retryStalled_of_nil (h : s.fch.stalled = []) : retryStalled s = s := by
  have hfch : ({ s.fch with stalled := [] } : Fch) = s.fch := by rw [← h]
  rw [retryStalled, h, List.foldl_nil, hfch]
  rfl

theorem beginErase_pages (s : State) (g : Nat) (fails : List Nat) :
    (beginErase s g fails).fch.pages = s.fch.pages ∧ (beginErase s g fails).fch.stalled = s.fch.stalled :=
  List.foldlRecOn (motive := fun t : State => t.fch.pages = s.fch.pages ∧ t.fch.stalled = s.fch.stalled) _ _ ⟨rfl, rfl⟩
    (fun _ h _ _ => h)

/-- Group `x` after its erase, in the mode `dense` (R294 step 4, R320, R332). -/
def BGroup.erased (x : BGroup) (dense : Bool) : BGroup := { x with
  state := if x.state = .retired then .retired else .free
  dense := dense, reads := 0, present := [], takeFirst := 0, crossed := false, lastSeq := 0, stale := false, erasePaid := false
  ecDense := x.ecDense + b2n x.dense, ecSluice := x.ecSluice + b2n !x.dense }

theorem BGroup.erased_count (x : BGroup) (dense : Bool) :
    (x.erased dense).ecDense + (x.erased dense).ecSluice = x.ecDense + x.ecSluice + 1 := by
  change x.ecDense + b2n x.dense + (x.ecSluice + b2n !x.dense) = _
  cases x.dense <;> simp [b2n] <;> omega

/-- What follows the erase leaves the groups and the flash alone (R292, R324, R325). -/
theorem judged_groups (t : State) (g : Nat) (c : Prop) [Decidable c] :
    SameFtl Ftl.groups t (judgeSpare (judgeFold (if c then poolGroup t g else t))) := by
  refine .after ((judgeSpare_modeless _).coarser Ftl.groups (fun _ => rfl))
    (.after (t := if c then poolGroup t g else t) rfl ?_)
  exact .ite rfl rfl

theorem judged_fch (t : State) (g : Nat) (c : Prop) [Decidable c] :
    (judgeSpare (judgeFold (if c then poolGroup t g else t))).fch = t.fch := by
  rw [(judgeSpare_keeps _).fch rfl, (judgeFold_keeps _).fch rfl]
  split <;> rfl

theorem eraseGroup_group (s : State) (g : Nat) : ∃ dense, bgOf (eraseGroup s g []) g = (bgOf s g).erased dense := by
  unfold eraseGroup
  exact ⟨_, (congrArg (Tab.getD · g _) (judged_groups _ g _)).trans (bgOf_setBg_same _ g _)⟩

theorem eraseGroup_fch (s : State) (g : Nat) : (eraseGroup s g []).fch = { s.fch with
    pages := Tab.keep s.fch.pages (fun k _ => groupOf s k != g || blockRetired s k)
    stripes := Tab.keep s.fch.stripes (fun k _ => k / 4096 != g) } := by
  unfold eraseGroup
  refine (judged_fch _ g _).trans ?_
  split <;> simp [setBg, setFtl, setFch, groupOf, blockRetired, book, setPwr]

/-- Group `g` is erased in `t`: its pages in `u` are gone, those of its retired blocks apart (R294 step 4). -/
def Erased (u : State) (g : Nat) (t : State) : Prop :=
  t.fch.pages = Tab.keep u.fch.pages (fun k _ => groupOf u k != g || blockRetired u k) ∧
    (bgOf t g).reads = 0 ∧ (bgOf t g).present = [] ∧
    (bgOf t g).state = (if (bgOf u g).state = .retired then .retired else .free) ∧
    (bgOf t g).ecDense + (bgOf t g).ecSluice = (bgOf u g).ecDense + (bgOf u g).ecSluice + 1

theorem eraseGroup_erased {u : State} (h : u.fch.stalled = []) (g : Nat) :
    Erased u g (retryStalled (beginErase (eraseGroup u g []) g [])) := by
  obtain ⟨hpages, hstalled⟩ := beginErase_pages (eraseGroup u g []) g []
  rw [eraseGroup_fch] at hpages hstalled
  rw [retryStalled_of_nil (hstalled.trans h)]
  obtain ⟨dense, hbg⟩ := eraseGroup_group u g
  have hg : bgOf (beginErase (eraseGroup u g []) g []) g = (bgOf u g).erased dense :=
    (bgOf_congr ((beginErase_keeps _ _ _).ftl rfl) g).trans hbg
  rw [Erased, hg]
  exact ⟨hpages, rfl, rfl, rfl, BGroup.erased_count ..⟩

theorem relocateGroup_erases (hmay : mayRelocate s g = true)
    (hready : eraseReady (clearLosses (copyGroup s g bad tiers)) g = true)
    (hstalled : (clearLosses (copyGroup s g bad tiers)).fch.stalled = []) :
    Nexts (exec (.relocateGroup g bad { tiers := tiers }) s) (Erased (clearLosses (copyGroup s g bad tiers)) g) := by
  refine ⟨_, ?_, eraseGroup_erased hstalled g⟩
  change execRelocateGroup g bad { tiers := tiers } s = _
  rw [execRelocateGroup, if_pos hmay]
  exact if_pos hready

theorem relocateGroup_waits (hmay : mayRelocate s g = true)
    (hready : eraseReady (clearLosses (copyGroup s g bad tiers)) g = false) :
    exec (.relocateGroup g bad { eraseFails := fails, tiers := tiers }) s =
      .next (setBg (clearLosses (copyGroup s g bad tiers)) g { bgOf (clearLosses (copyGroup s g bad tiers)) g with
        takeFirst := max 2 (bgOf (clearLosses (copyGroup s g bad tiers)) g).takeFirst }) := by
  change execRelocateGroup g bad { eraseFails := fails, tiers := tiers } s = _
  rw [execRelocateGroup, if_pos hmay]
  exact if_neg (Bool.eq_false_iff.mp hready)

theorem relocateGroup_of_not_due (hmay : mayRelocate s g = false) (answer : SourceEnv) :
    exec (.relocateGroup g bad answer) s = .next s := if_neg (Bool.eq_false_iff.mp hmay)

/-! ## Wear and the minute tick (R321, R327) -/

theorem staticLevelling_marks
    (hleast : leastBy (fun p => wearOf s p.2) (Tab.keep s.ftl.groups (fun _ x => x.isClosed && x.dense)) = some (g, x))
    (htime : s.ftl.lastLevel + 100000 ≤ s.now) (hwear : wearSpreads s = true) :
    Nexts (exec .staticLevelling s) (fun t => bgOf t g = { x with takeFirst := max 1 x.takeFirst } ∧
      t.ftl.lastLevel = s.now) := by
  change Nexts (execStaticLevelling s) _
  simp only [execStaticLevelling, hleast, hwear, htime, and_self, if_true]
  exact ⟨_, rfl, bgOf_setBg_same .., rfl⟩

theorem minuteTick_counts (hsince : s.ftl.since.length = 7) :
    Nexts (exec .minuteTick s) (fun t =>
      t.ftl.hist = s.ftl.hist.set (tempBin (s.ftl.maxTemp.getD s.pwr.tModel))
        (min 0xFFFFFFFF (s.ftl.hist.getD (tempBin (s.ftl.maxTemp.getD s.pwr.tModel)) 0 + 1)) ∧
      t.ftl.since.getD 6 0 = s.ftl.since.getD 6 0 + 1 ∧ t.ftl.maxTemp = none ∧
      t.ftl.minutesUnsaved = (if 60 ≤ s.ftl.minutesUnsaved + 1 then 0 else s.ftl.minutesUnsaved + 1)) := by
  refine ⟨_, rfl, rfl, ?_, rfl, ?_⟩
  · simp [countSince, setFtl, hsince]
  · simp [countSince, setFtl]
end

section
variable {s t : State} {g p ch k h n : Nat} {st : Stripe} {l : List FSlot}

/-! ## The parity engine (R256, R258) -/

theorem groupChans_congr (h : t.fch.chans = s.fch.chans) (g : Nat) : groupChans t g = groupChans s g := by
  have hin : inStripes t = inStripes s := funext (fun k => by simp only [inStripes, chanOf, h])
  simp only [groupChans, stripeChans, hin, chanOf, h]

theorem membersOf_of_stripe (h : Tab.get? s.fch.stripes (g * 4096 + p) = some st) :
    membersOf s g p = if st.chans.isEmpty then groupChans s g else st.chans := by
  rw [membersOf, h]

theorem parityCh_of_membersOf (h : membersOf t g p = membersOf s g p) : parityCh t g p = parityCh s g p := by
  rw [parityCh, parityCh, h]

theorem parityCh_congr (hfch : t.fch.chans = s.fch.chans ∧ t.fch.pages = s.fch.pages)
    (hstripe : Tab.get? t.fch.stripes (g * 4096 + p) = Tab.get? s.fch.stripes (g * 4096 + p))
    (hftl : t.ftl.members = s.ftl.members ∧ t.ftl.offlineSets = s.ftl.offlineSets) : parityCh t g p = parityCh s g p := by
  obtain ⟨hchans, hpages⟩ := hfch
  obtain ⟨hmembers, hoff⟩ := hftl
  apply parityCh_of_membersOf
  simp only [membersOf, hstripe, groupChans_congr hchans, stripeSeq, hpages, groupPage, memberBlock, hmembers, hoff]

/-- Every member of the stripe `st` of page `p` of group `g` is in its parity, has failed or is out of service. -/
def stripeWhole (s : State) (g p : Nat) (st : Stripe) : Bool :=
  (membersOf s g p).all (fun k =>
    k == parityCh s g p || st.summed.contains k || st.failed.contains k || !(groupChans s g).contains k)

theorem finishStripe_of_whole (hst : Tab.get? s.fch.stripes (g * 4096 + p) = some st) (hwhole : stripeWhole s g p st = true)
    (hpar : (groupChans s g).contains (parityCh s g p) = true) : finishStripe s g p = setFch s { s.fch with
      stripes := Tab.erase s.fch.stripes (g * 4096 + p)
      pages := Tab.set s.fch.pages (groupPage s g (parityCh s g p) p)
        [{ cls := 3, kind := 0, idx := 0, bytes := st.parity }] } := by
  rw [finishStripe, hst]
  exact (if_pos hwhole).trans (if_pos hpar)

theorem finishStripe_of_part (hst : Tab.get? s.fch.stripes (g * 4096 + p) = some st) (hwhole : stripeWhole s g p st = false) :
    finishStripe s g p = s := by
  rw [finishStripe, hst]
  exact if_neg (Bool.eq_false_iff.mp hwhole)

/-- The stripe `st` once the parity engine has taken the slots `l` of member `ch` (R258). -/
def summedStripe (s : State) (ch : Nat) (l : List FSlot) (st : Stripe) : Stripe := { st with
  summed := st.summed ++ [ch]
  parity := if st.parity.isEmpty then fit 19264 (pageCodewords (chanOf s ch).code l)
    else xorBytes st.parity (fit 19264 (pageCodewords (chanOf s ch).code l)) }

/-- The state in which that stripe may be whole. -/
def afterSum (s : State) (g p : Nat) (st : Stripe) : State :=
  book (setFch s { s.fch with stripes := Tab.set s.fch.stripes (g * 4096 + p) st }) 2 600

theorem sumMember_of_member (hst : Tab.get? s.fch.stripes (g * 4096 + p) = some st) (hl : memberSlots s g p ch = some l)
    (hmem : ch ∈ st.members) (hnew : ch ∉ st.summed) :
    sumMember s g p ch = finishStripe (afterSum s g p (summedStripe s ch l st)) g p := by
  rw [sumMember, hst, hl]
  exact if_neg (by simp [hmem, hnew])

theorem stripe_afterSum (s : State) (g p : Nat) (st : Stripe) :
    Tab.get? (afterSum s g p st).fch.stripes (g * 4096 + p) = some st := Tab.get?_set_same ..

theorem membersOf_afterSum {st' : Stripe} (hst : Tab.get? s.fch.stripes (g * 4096 + p) = some st) (hc : st'.chans = st.chans) :
    membersOf (afterSum s g p st') g p = membersOf s g p := by
  rw [membersOf_of_stripe (stripe_afterSum ..), membersOf_of_stripe hst, hc]
  exact congrArg (ite _ · _) (groupChans_congr rfl g)

theorem stripeWhole_afterSum {st' : Stripe} (hst : Tab.get? s.fch.stripes (g * 4096 + p) = some st)
    (hc : st'.chans = st.chans) :
    stripeWhole (afterSum s g p st') g p st' = stripeWhole s g p st' := by
  have hmembers := membersOf_afterSum hst hc
  rw [stripeWhole, hmembers, parityCh_of_membersOf hmembers, groupChans_congr rfl]
  rfl

/-- The command of R258 for the parity engine of the stripe. -/
theorem exec_parityEngineStep (s : State) (g p ch : Nat) :
    exec (.parityEngineStep (178 + stripeNo g p % 2) (some (g, p, ch))) s = .next (sumMember s g p ch) := if_pos rfl

theorem sumMember_whole (hst : Tab.get? s.fch.stripes (g * 4096 + p) = some st) (hl : memberSlots s g p ch = some l)
    (hmem : ch ∈ st.members) (hnew : ch ∉ st.summed) (hwhole : stripeWhole s g p (summedStripe s ch l st) = true)
    (hpar : (groupChans s g).contains (parityCh s g p) = true) :
    Tab.get? (sumMember s g p ch).fch.stripes (g * 4096 + p) = none ∧
      Tab.get? (sumMember s g p ch).fch.pages (groupPage s g (parityCh s g p) p) =
        some [{ cls := 3, kind := 0, idx := 0, bytes := (summedStripe s ch l st).parity }] := by
  have hmembers : membersOf (afterSum s g p (summedStripe s ch l st)) g p = membersOf s g p := membersOf_afterSum hst rfl
  have hparity := parityCh_of_membersOf hmembers
  rw [sumMember_of_member hst hl hmem hnew, finishStripe_of_whole (stripe_afterSum ..)
    ((stripeWhole_afterSum (st' := summedStripe s ch l st) hst rfl).trans hwhole)
    (by rw [hparity, groupChans_congr rfl]; exact hpar), hparity]
  exact ⟨Tab.get?_erase_same .., Tab.get?_set_same ..⟩

theorem sumMember_part (hst : Tab.get? s.fch.stripes (g * 4096 + p) = some st) (hl : memberSlots s g p ch = some l)
    (hmem : ch ∈ st.members) (hnew : ch ∉ st.summed) (hwhole : stripeWhole s g p (summedStripe s ch l st) = false) :
    Tab.get? (sumMember s g p ch).fch.stripes (g * 4096 + p) = some (summedStripe s ch l st) ∧
      (sumMember s g p ch).fch.pages = s.fch.pages := by
  rw [sumMember_of_member hst hl hmem hnew,
    finishStripe_of_part (stripe_afterSum ..) ((stripeWhole_afterSum (st' := summedStripe s ch l st) hst rfl).trans hwhole)]
  exact ⟨stripe_afterSum .., rfl⟩

/-! ## Partial parity (R258) -/

theorem sealWith_of_wanted {pg : OPage} {x : FSlot} (hpar : parityCh s pg.group pg.page ≠ ch) (hslots : pg.slots = [x])
    (hwanted : stillWanted s x = true) :
    (chanOf (sealWith s ch pg) ch).programs =
        (chanOf s ch).programs ++ [{ pg with slots := [{ x with seq := s.ftl.nextSeq }] }] ∧
      ∀ key ≠ pg.group * 4096 + pg.page, Tab.get? (sealWith s ch pg).fch.stripes key = Tab.get? s.fch.stripes key := by
  have hmove : movePage s ch pg = (s, pg) := if_neg hpar
  simp only [sealWith, hmove, hslots, List.filter_cons, List.filter_nil, hwanted, Bool.not_true, if_true, Bool.false_eq_true,
    if_false, List.foldl_nil]
  exact ⟨congrArg FChan.programs (chanOf_setChan_same ..), fun key hkey => Tab.get?_set_other _ _ hkey⟩

theorem partialParity_seals {s1 : State} (hst : Tab.get? s.fch.stripes (g * 4096 + p) = some st)
    (hpage : (chansFrom s g).findSome? (fun k => (allocPage s k false [] 256).map (fun r => (k, r))) = some (k, h, n, s1))
    (hother : h * 4096 + n ≠ g * 4096 + p) (hpar : parityCh s1 h n ≠ k) :
    (∃ pg, (chanOf (partialParity s g p) k).programs = (chanOf s1 k).programs ++ [pg] ∧ pg.group = h ∧ pg.page = n ∧
        pg.slots.map (fun x => (x.kind, x.bytes)) = [(7, st.parity)]) ∧
      Tab.get? (partialParity s g p).fch.stripes (g * 4096 + p) = some { st with since := s.now } := by
  have hnow : s1.now = s.now := by
    obtain ⟨c, -, hc⟩ := List.exists_of_findSome?_eq_some hpage
    obtain ⟨r, hr, hkr⟩ := Option.map_eq_some_iff.mp hc
    cases hkr
    exact (allocPage_keeps _ _ _ _ _ _ _ _ hr).now rfl
  let kept := setFch s1 { s1.fch with stripes := Tab.set s1.fch.stripes (g * 4096 + p) { st with since := s1.now } }
  let pg : OPage := { group := h, page := n, slots := [{ cls := 3, kind := 7, idx := 0, bytes := st.parity }] }
  let noted := notePresent kept h (namesOf s (st.members.filterMap (memberSlots s g p)).flatten)
  have hrun : partialParity s g p = sealWith noted k pg := by
    rw [partialParity, hst, hpage]
  have hsame : parityCh noted h n = parityCh s1 h n :=
    parityCh_congr ⟨rfl, rfl⟩ (Tab.get?_set_other _ _ hother) ⟨rfl, rfl⟩
  obtain ⟨hprograms, hstripes⟩ := sealWith_of_wanted (s := noted) (ch := k) (pg := pg) (by rwa [hsame]) rfl rfl
  rw [hrun, hprograms, hstripes _ (Ne.symm hother), ← hnow]
  exact ⟨⟨_, rfl, rfl, rfl, rfl⟩, Tab.get?_set_same ..⟩

end

section
variable {s : State} {e : Entry} {y : LStep} {rest : List Work} {pk : Packet} {u d tag step : Nat}

theorem parityWork_sends (hend : pk.endTok = false) (hprov : pk.prov = false) (hheld : (ctxOf s tag step).held = []) :
    ∃ c, parityWork s u tag step (.pkt pk) = sendUnit (setCtx s tag step c) tag step u pk pk.data pk.station false := by
  refine ⟨_, (if_neg (by simp [hend])).trans (if_neg ?_)⟩
  simp [hprov, hheld]

theorem parityEngineStep_passes (h : packetWaits s u pk e y rest) (hk : stepKind y = 0x0D) (hm : y.mode = 0)
    (hw : worksNow s u = true) (hprov : pk.prov = false) (hheld : (ctxOf s pk.tag pk.step).held = [])
    (hd : unitAt s e (pk.step + 1) (pk.off / 4096) = some d) :
    Nexts (exec (.parityEngineStep u none) s) (fun t => inboxOf t u = rest ∧
      t.dev.trunk = s.dev.trunk ++ [sentTo s e pk.tag pk.step u d pk.off pk.data pk.station pk.prov]) := by
  obtain ⟨hq, hend, he, hf, hr, hy⟩ := h
  obtain ⟨c, hc⟩ := parityWork_sends (s := setInbox s u rest) (u := u) hend hprov hheld
  refine ⟨serveFront s u 0x0D (· == 0) (fun s tag _ j _ w => parityWork s u tag j w), rfl, ?_⟩
  rw [serveFront_packet hq he hf hr hy hk (by simp [hm]) hw, hc,
    sendUnit_of_cfg (t := setCtx (setInbox s u rest) pk.tag pk.step c) rfl he hf hr hd, hprov]
  exact ⟨inboxOf_setInbox_same .., rfl⟩

end

/-- Settles O36: journal pages, checkpoints, relocation, levelling, the minute tick, the parity engine and partial parity,
one lemma for each clause. -/
theorem mapEngineJournalsCheckpointsAndRelocates : Obligations.MapEngineJournalsCheckpointsAndRelocates := by
  unfold Obligations.MapEngineJournalsCheckpointsAndRelocates
  intro s j g p ch q bad fails tiers st l x
  refine ⟨fun hpage hj hnew hfirst _ => journalPageProgrammed_commits hpage hj hnew hfirst, journalPageProgrammed_forms,
    ⟨fun hidle hprog => ⟨⟨_, rfl, beginCkpt_of_idle hidle hprog⟩, ⟨_, rfl, beginCkpt_of_idle hidle hprog⟩⟩,
      fun hruns => ⟨congrArg Host.Outcome.next (beginCkpt_of_running hruns),
        congrArg Host.Outcome.next (beginCkpt_of_running hruns)⟩⟩,
    fun s0 j0 => checkpointBegin_anchors rfl, relocateGroup_erases, relocateGroup_waits,
    fun hmay => relocateGroup_of_not_due hmay _, staticLevelling_marks, fun _ hsince => minuteTick_counts hsince,
    fun hst hl hmem hnew => ⟨fun hwhole hpar => ?_, fun hwhole => ?_⟩,
    fun k h n s1 hst hpage hother hpar => ⟨_, rfl, partialParity_seals hst hpage hother hpar⟩,
    fun u d pk e y rest => parityEngineStep_passes⟩
  · exact ⟨_, exec_parityEngineStep .., sumMember_whole hst hl hmem hnew hwhole hpar⟩
  · exact ⟨_, exec_parityEngineStep .., sumMember_part hst hl hmem hnew hwhole⟩

end Sys2Proof.Machine
end

section
/-! SUPPORT. What the map engine keeps when it caches a page, and when staged slots go (07_translation_and_recovery.md, R278,
R285, R289, R291). -/

namespace Sys2Proof.Machine

variable {s : State} {idx : Nat}

open SameFtl

/-- The map engine's state without the map pages that are cached and those that are dirty. -/
def Ftl.uncached (f : Ftl) : Ftl := { f with cached := [], dramTier := [], mapDirty := [] }

/-- The map engine's state without the staged slots. -/
def Ftl.unstaged (f : Ftl) : Ftl := { f with staging := [] }

/-- The same without their places. -/
def Ftl.unplaced (f : Ftl) : Ftl := { f with staging := [], stagedAt := [] }

theorem cachePage_uncached (s : State) (k : Nat) : SameFtl Ftl.uncached s (cachePage s k) := by
  refine foldl (fun t _ => ?_) rfl
  unfold evictOne
  split
  · exact refl t
  · exact ite (after (t := setFtl t _) rfl rfl) rfl

theorem dirtyPage_uncached (s : State) (kind n : Nat) : SameFtl Ftl.uncached s (dirtyPage s kind n) :=
  ite rfl (after (cachePage_uncached ..) rfl)

theorem markDirty_uncached (s : State) (idx : Nat) : SameFtl Ftl.uncached s (markDirty s idx) :=
  after (dirtyPage_uncached ..) (after (dirtyPage_uncached ..) (dirtyPage_uncached ..))

theorem freeStaged_unstaged (s : State) (n : Nat) : SameFtl Ftl.unstaged s (freeStaged s n) := by
  unfold freeStaged
  split
  · exact refl s
  · rfl

theorem dropThrough_unstaged (s : State) (idx : Nat) : SameFtl Ftl.unstaged s (dropThrough s idx) := by
  refine foldl (fun t n => ?_) (refl s)
  split
  · exact ite rfl (freeStaged_unstaged t n)
  · exact refl t

/-- The place of unit `idx` is dropped; the slot that it named may go. -/
theorem dropStaged_unstaged (s : State) {n : Nat} (discard : Bool) (h : Tab.get? s.ftl.stagedAt idx = some n) :
    SameFtl Ftl.unstaged (setFtl s { s.ftl with stagedAt := Tab.erase s.ftl.stagedAt idx }) (dropStaged s idx discard) := by
  rw [dropStaged, h]
  dsimp -proj only
  split
  · exact refl _
  · exact ite (freeStaged_unstaged ..) (ite rfl rfl)

theorem dropStaged_of_none (discard : Bool) (h : Tab.get? s.ftl.stagedAt idx = none) : dropStaged s idx discard = s := by
  rw [dropStaged, h]

theorem dropStaged_unplaced (s : State) (idx : Nat) (discard : Bool) : SameFtl Ftl.unplaced s (dropStaged s idx discard) := by
  cases h : Tab.get? s.ftl.stagedAt idx with
  | none => rw [dropStaged_of_none discard h]; exact refl s
  | some n => exact congrArg (fun f : Ftl => { f with stagedAt := [] }) (dropStaged_unstaged s discard h)

theorem stagedAt_dropStaged (s : State) (idx : Nat) (discard : Bool) (k : Nat) :
    Tab.get? (dropStaged s idx discard).ftl.stagedAt k = if k = idx then none else Tab.get? s.ftl.stagedAt k := by
  cases h : Tab.get? s.ftl.stagedAt idx with
  | none =>
    rw [dropStaged_of_none discard h]
    split
    · next hk => rw [hk, h]
    · rfl
  | some n =>
    have hplaces : (dropStaged s idx discard).ftl.stagedAt = Tab.erase s.ftl.stagedAt idx :=
      congrArg Ftl.stagedAt (dropStaged_unstaged s discard h)
    rw [hplaces]
    exact Tab.get?_erase ..

theorem mapSet_uncached (s : State) (idx : Nat) : SameFtl Ftl.uncached
    (setFtl s { s.ftl with map := Tab.erase s.ftl.map idx, lostUnits := s.ftl.lostUnits.filter (· != idx) })
    (mapSet s idx none) := markDirty_uncached ..

end Sys2Proof.Machine
end

section
/-! SUPPORT. What the map engine does on its own leaves the pending secure discards alone (08_media_health_and_discard.md,
R333): only SECURE_DEALLOCATE adds one, and only its last step takes it away. -/

namespace Sys2Proof.Machine

open SameFtl

variable {s t : State}

/-- Whether the device is read-only, and its pending secure discards. -/
def Ftl.settled (f : Ftl) : TState × List Secure := (f.state, f.secures)

/-! ## The journal -/

theorem unitDone_settled (s : State) (tag : Option Nat) : SameFtl Ftl.settled s (unitDone s tag) :=
  (unitDone_lasting s tag).coarser Ftl.settled (fun _ => rfl)

theorem commitJournal_settled (n : Nat) (s : State) : SameFtl Ftl.settled s (commitJournal n s) := by
  induction n generalizing s with
  | zero => exact refl s
  | succ n ih =>
    rw [commitJournal]
    split
    · exact refl s
    · exact ite (after (ih _) (foldl (fun t r => unitDone_settled t r.tag) rfl)) (refl s)

theorem commitAll_settled (n : Nat) (s : State) : SameFtl Ftl.settled s (commitAll n s) := by
  induction n generalizing s with
  | zero => exact refl s
  | succ n ih =>
    have hform : SameFtl Ftl.settled s
        (if s.ftl.held.isEmpty || decide (8 ≤ s.ftl.jpages.length) then s else formJournal s) :=
      ite (refl s) rfl
    have hround (k : Nat) (l : List JPage) {t : State} (h : SameFtl Ftl.settled s t) :
        SameFtl Ftl.settled s (commitJournal k (setFtl t { t.ftl with jpages := l })) :=
      after (commitJournal_settled k _) h
    rw [commitAll]
    exact ite (hround _ _ hform) (after (ih _) (hround _ _ hform))

theorem hold_settled (s : State) (r : JRec) : SameFtl Ftl.settled s (hold s r) :=
  after (t := if 2048 < s.ftl.jpages.length + ceilDiv (s.ftl.held.length + 1) 252 then commitHeld s else s) rfl
    (ite (commitAll_settled _ s) (refl s))

theorem deallocRange_settled (s : State) (e : Entry) (u n : Nat) : SameFtl Ftl.settled s (deallocRange s e u n) := by
  refine foldl (fun t i => ?_) (refl s)
  refine after (hold_settled _ _) (after ((mapSet_uncached _ _).coarser Ftl.settled (fun _ => rfl)) ?_)
  exact after ((dropThrough_unstaged _ _).coarser Ftl.settled (fun _ => rfl))
    ((dropStaged_unplaced t _ true).coarser Ftl.settled (fun _ => rfl))

theorem unitDone_secures (s : State) (tag : Option Nat) : SameFtl Ftl.secures s (unitDone s tag) :=
  congrArg Prod.snd (unitDone_settled s tag)

theorem commitHeld_secures (s : State) : SameFtl Ftl.secures s (commitHeld s) := congrArg Prod.snd (commitAll_settled _ s)

theorem hold_secures (s : State) (r : JRec) : SameFtl Ftl.secures s (hold s r) := congrArg Prod.snd (hold_settled s r)

theorem failAt_secures (s : State) (tag step unit status : Nat) : SameFtl Ftl.secures s (failAt s tag step unit status) :=
  (failAt_lasting s tag step unit status).coarser Ftl.secures (fun _ => rfl)

theorem endOut_secures (s : State) (tag step u out : Nat) (prov : Bool) :
    SameFtl Ftl.secures s (endOut s tag step u out prov) :=
  (endOut_lasting s tag step u out prov).coarser Ftl.secures (fun _ => rfl)

theorem freeStaged_secures (s : State) (n : Nat) : SameFtl Ftl.secures s (freeStaged s n) :=
  (freeStaged_unstaged s n).coarser Ftl.secures (fun _ => rfl)

theorem dropStaged_secures (s : State) (idx : Nat) (discard : Bool) : SameFtl Ftl.secures s (dropStaged s idx discard) :=
  (dropStaged_unplaced s idx discard).coarser Ftl.secures (fun _ => rfl)

theorem dirtyPage_secures (s : State) (kind n : Nat) : SameFtl Ftl.secures s (dirtyPage s kind n) :=
  (dirtyPage_uncached s kind n).coarser Ftl.secures (fun _ => rfl)

theorem mapSet_secures (s : State) (idx : Nat) (m : Option MEntry) : SameFtl Ftl.secures s (mapSet s idx m) :=
  after ((markDirty_uncached _ idx).coarser Ftl.secures (fun _ => rfl)) rfl

theorem setFtl_secures {f : Ftl} (h : f.secures = s.ftl.secures) : SameFtl Ftl.secures s (setFtl s f) := h

theorem setBg_secures (s : State) (g : Nat) (x : BGroup) : SameFtl Ftl.secures s (setBg s g x) := rfl

theorem notePresent_secures (s : State) (g : Nat) (l : List Nat) : SameFtl Ftl.secures s (notePresent s g l) := rfl

/-! ## Pages -/

theorem openGroup_secures (s : State) (dense : Bool) (except : List Nat) :
    SameFtl Ftl.secures s (openGroup s dense except) := by
  have herased (g : Nat) : SameFtl Ftl.secures s (eraseAgain s g) :=
    ite (after (t := beginErase (book s 2 _) g []) rfl (via (beginErase_keeps ..) rfl rfl)) (refl s)
  unfold openGroup
  refine ite (refl s) ?_
  dsimp -proj only
  split
  · exact refl s
  · exact after (t := eraseAgain s _) rfl (herased _)

theorem allocPage_secures {ch g p most : Nat} {dense : Bool} {except : List Nat}
    (h : allocPage s ch dense except most = some (g, p, t)) : SameFtl Ftl.secures s t := by
  unfold allocPage at h
  obtain ⟨k, -, hk⟩ := Option.map_eq_some_iff.mp h
  cases hk
  have hopened (c : Prop) [Decidable c] : SameFtl Ftl.secures s (if c then s else openGroup s dense except) :=
    ite (refl s) (openGroup_secures s dense except)
  exact hopened _

theorem movePage_secures (s : State) (ch : Nat) (pg : OPage) : SameFtl Ftl.secures s (movePage s ch pg).1 := by
  unfold movePage
  split
  · split
    · next h => exact allocPage_secures h
    · exact refl s
  · exact refl s

theorem slotGone_secures (s : State) (x : FSlot) : SameFtl Ftl.secures s (slotGone s x) := by
  unfold slotGone
  refine after (unitDone_secures _ _) ?_
  split
  · exact freeStaged_secures ..
  · exact refl s

theorem sealWith_secures (s : State) (ch : Nat) (pg : OPage) : SameFtl Ftl.secures s (sealWith s ch pg) := by
  unfold sealWith
  exact foldl slotGone_secures (after (t := (movePage s ch pg).1) rfl (movePage_secures s ch pg))

theorem sealPage_secures (s : State) (ch : Nat) (dense : Bool) : SameFtl Ftl.secures s (sealPage s ch dense) := by
  unfold sealPage
  split
  · exact refl s
  · exact after (sealWith_secures _ _ _) (of_keeps (setCur_keeps ..) rfl)

theorem placeSlot_secures {ch : Nat} {dense : Bool} {x : FSlot} {except : List Nat}
    (h : placeSlot s ch dense x except = some t) : SameFtl Ftl.secures s t := by
  have hsealed (fits : Bool) : SameFtl Ftl.secures s (if fits then s else sealPage s ch dense) :=
    ite (refl s) (sealPage_secures s ch dense)
  unfold placeSlot at h
  obtain ⟨r, hr, rfl⟩ := Option.map_eq_some_iff.mp h
  have hpage : SameFtl Ftl.secures s r.2 := by
    dsimp only at hr
    split at hr
    · cases hr
      exact hsealed _
    · obtain ⟨q, hq, rfl⟩ := Option.map_eq_some_iff.mp hr
      exact after (allocPage_secures hq) (hsealed _)
  have hcur (pg : Option OPage) : SameFtl Ftl.secures s (setCur r.2 ch dense pg) := via (setCur_keeps ..) rfl hpage
  exact ite (after (sealWith_secures _ _ _) (hcur none)) (hcur _)

theorem placeAny_secures {i : Nat} {dense : Bool} {x : FSlot} {except : List Nat}
    (h : placeAny s i dense x except = some t) : SameFtl Ftl.secures s t := by
  obtain ⟨ch, -, hch⟩ := List.exists_of_findSome?_eq_some h
  exact placeSlot_secures hch

theorem placeRun_secures (s : State) (dense : Bool) (l : List FSlot) (except : List Nat) :
    SameFtl Ftl.secures s (placeRun s dense l except).1 := by
  refine List.foldlRecOn (motive := fun r : State × Nat => SameFtl Ftl.secures s r.1) l _ (refl s) fun r hr x _ => ?_
  split
  · next h => exact after (placeAny_secures h) hr
  · exact hr

theorem reissue_secures (s : State) (ch : Nat) (pg : OPage) : SameFtl Ftl.secures s (reissue s ch pg) := by
  unfold reissue
  dsimp only
  split
  · next h =>
    obtain ⟨k, -, hk⟩ := List.exists_of_findSome?_eq_some h
    obtain ⟨r, hr, he⟩ := Option.map_eq_some_iff.mp hk
    cases he
    exact after (sealWith_secures _ _ _) (after (notePresent_secures ..) (allocPage_secures hr))
  · rfl

/-! ## Program and erase status -/

theorem judgeSpare_secures (s : State) : SameFtl Ftl.secures s (judgeSpare s) :=
  (judgeSpare_modeless s).coarser Ftl.secures (fun _ => rfl)

theorem poolGroup_secures (s : State) (g : Nat) : SameFtl Ftl.secures s (poolGroup s g) := rfl

theorem retireBlock_secures (s : State) (ch die block : Nat) : SameFtl Ftl.secures s (retireBlock s ch die block) := by
  have hheld (r : JRec) (a hi lo n : Nat) : SameFtl Ftl.secures s (bump (hold s r) a hi lo n) :=
    via (bump_keeps ..) rfl (hold_secures s r)
  unfold retireBlock
  refine ite (refl s) (after (judgeSpare_secures _) (after (placeRun_secures _ _ _ _) ?_))
  dsimp -proj only
  split
  · refine after (setBg_secures ..) (after (setFtl_secures rfl) ?_)
    exact after (setFtl_secures rfl) (after (setFtl_secures rfl) (hheld ..))
  · refine ite ?_ (ite (after (poolGroup_secures ..) (after (setBg_secures ..) (via (bump_keeps ..) rfl ?_)))
      (after (setBg_secures ..) (via (bump_keeps ..) rfl ?_))) <;>
    exact after (setFtl_secures rfl) (after (setFtl_secures rfl) (hheld ..))

theorem unitWritten_secures (s : State) (tag : Option Nat) : SameFtl Ftl.secures s (unitWritten s tag) :=
  of_keeps (unitWritten_keeps ..) rfl

theorem mapPagePassed_secures (s : State) (x : FSlot) (m : MEntry) : SameFtl Ftl.secures s (mapPagePassed s x m) := by
  unfold mapPagePassed
  refine ite (refl s) (ite (after (dirtyPage_secures ..) ?_) ?_) <;>
    exact after (unitWritten_secures ..) (setFtl_secures rfl)

theorem slotPassed_secures (s : State) (key : Nat) (x : FSlot) : SameFtl Ftl.secures s (slotPassed s key x) := by
  have hheld {t : State} (m : Option MEntry) (r : JRec) (h : SameFtl Ftl.secures s t) :
      SameFtl Ftl.secures s (hold (mapSet t x.idx m) r) := after (hold_secures _ _) (after (mapSet_secures ..) h)
  have hwritten {t : State} (h : SameFtl Ftl.secures s t) : SameFtl Ftl.secures s (unitWritten t x.tag) :=
    after (unitWritten_secures ..) h
  have hfreed (n : Nat) : SameFtl Ftl.secures s (freeStaged s n) := freeStaged_secures s n
  unfold slotPassed
  refine ite (refl s) (ite (after (unitDone_secures _ _) (mapPagePassed_secures ..)) ?_)
  dsimp -proj only
  split
  · split
    · exact unitDone_secures s _
    · refine ite (after (unitDone_secures _ _) (hfreed _)) (hheld _ _ (hwritten ?_))
      exact ite (hfreed _) (ite (after (dropStaged_secures ..) (hfreed _)) (after (setFtl_secures rfl) (hfreed _)))
  · exact ite (hheld _ _ (hwritten (refl s))) (unitDone_secures s _)
  · exact hheld _ _ (after (dropStaged_secures ..) (hwritten (refl s)))

theorem closeGroup_secures (s : State) (g : Nat) : SameFtl Ftl.secures s (closeGroup s g) :=
  after (setBg_secures ..) (foldl (fun _ _ => of_keeps (writeSummary_keeps ..) rfl) (refl s))

theorem beginCkpt_secures (s : State) : SameFtl Ftl.secures s (beginCkpt s) := by
  unfold beginCkpt
  split <;> rfl

theorem judgeFold_secures (s : State) : SameFtl Ftl.secures s (judgeFold s) := rfl

theorem programPassed_secures (s : State) (ch : Nat) (pg : OPage) : SameFtl Ftl.secures s (programPassed s ch pg) := by
  have hslots (key : Nat) (f : Fch) (g : Nat) (x : BGroup) :
      SameFtl Ftl.secures s (pg.slots.foldl (fun s y => slotPassed s key y) (setBg (setFch s f) g x)) :=
    foldl (fun t y => slotPassed_secures t key y) rfl
  have hended {t : State} (h : SameFtl Ftl.secures s t) :
      SameFtl Ftl.secures s (if pg.dense then t else flushEnded t pg.slots.length) := ite h (after (t := t) rfl h)
  have hclosed (t : State) (g : Nat) : SameFtl Ftl.secures t (closeIfFull t g) := ite (closeGroup_secures t g) (refl t)
  unfold programPassed
  dsimp -proj only
  refine after (judgeFold_secures _) (after (hclosed _ _) ?_)
  refine ite (after (beginCkpt_secures _) ?_) ?_ <;> exact after (setFtl_secures rfl) (hended (hslots ..))

theorem programFailed_secures (s : State) (ch : Nat) (pg : OPage) : SameFtl Ftl.secures s (programFailed s ch pg) := by
  unfold programFailed
  dsimp -proj only
  refine after (judgeFold_secures _) (foldl (fun t p => reissue_secures t ch p) (after (retireBlock_secures _ _ _ _) ?_))
  exact foldl (fun t p => of_keeps (leaveStripe_keeps t ch p) rfl) (of_keeps (setChan_keeps ..) rfl)

theorem sealAll_secures (s : State) (dense : Bool) : SameFtl Ftl.secures s (sealAll s dense) := by
  refine foldl (fun t ch => ?_) (refl s)
  unfold sealShort
  split
  · exact refl t
  · exact ite (sealPage_secures t ch dense) (via (bump_keeps ..) rfl (sealPage_secures t ch dense))

theorem passOne_secures (bad : List Nat) (s : State) (ch : Nat) : SameFtl Ftl.secures s (passOne bad s ch) := by
  have hended (c : FChan) (die block : Nat) : SameFtl Ftl.secures s (endErase (setChan s ch c) ch die block) :=
    via (endErase_keeps ..) rfl (of_keeps (setChan_keeps ..) rfl)
  unfold passOne
  split
  · exact refl s
  · exact ite (after (programFailed_secures _ _ _) (hended ..)) (after (programPassed_secures _ _ _) (hended ..))

theorem passAll_secures (bad : List Nat) (n : Nat) (s : State) : SameFtl Ftl.secures s (passAll bad n s) := by
  induction n generalizing s with
  | zero => exact refl s
  | succ n ih =>
    rw [passAll]
    exact ite (refl s) (after (ih _) (foldl (passOne_secures bad) (refl s)))

theorem flushPages_secures (s : State) (dense : Bool) (bad : List Nat) : SameFtl Ftl.secures s (flushPages s dense bad) :=
  after (passAll_secures bad _ _) (sealAll_secures s dense)

theorem retryStalled_secures (s : State) : SameFtl Ftl.secures s (retryStalled s) :=
  foldl (fun t p => reissue_secures t p.1 p.2) rfl

/-! ## Relocation, checkpoints and erases -/

theorem countTier_secures (s : State) (ch key tier : Nat) : SameFtl Ftl.secures s (countTier s ch key tier) := by
  have hcounted {t : State} (h : SameFtl Ftl.secures s t) :
      SameFtl Ftl.secures s (if tier = 0 then t else countSince t (min 4 (tier - 1)) 1) := ite h (after (setFtl_secures rfl) h)
  have htaken {t : State} (h : SameFtl Ftl.secures s t) (c : Prop) [Decidable c] (g : Nat) (x : BGroup) :
      SameFtl Ftl.secures s (if c then setBg t g x else t) := ite (after (setBg_secures ..) h) h
  unfold countTier
  dsimp -proj only
  refine ite (via (judgeDegraded_keeps _) rfl (htaken (hcounted ?_) ..)) (htaken (hcounted ?_) ..) <;>
    split <;> exact refl s

theorem readSource_secures (tiers : List (Nat × Nat)) (s : State) (x : FSlot) :
    SameFtl Ftl.secures s (readSource tiers s x) := by
  have hread (g : Nat) : SameFtl Ftl.secures s (countRead s g) := by
    unfold countRead
    split
    · exact setBg_secures ..
    · exact refl s
  have htiers (l : List Nat) (g ch key n : Nat) :
      SameFtl Ftl.secures s (l.foldl (fun s _ => countTier s ch key n) (countRead s g)) :=
    foldl (fun t _ => countTier_secures t ch key n) (hread g)
  unfold readSource
  split
  · exact refl s
  · exact ite (htiers ..) (ite (after (setFtl_secures rfl) (via (recordLost_keeps ..) rfl (htiers ..)))
      (after (dirtyPage_secures ..) (via (recordLost_keeps ..) rfl (htiers ..))))

theorem copyGroup_secures (s : State) (g : Nat) (bad : List Nat) (tiers : List (Nat × Nat)) :
    SameFtl Ftl.secures s (copyGroup s g bad tiers) := by
  refine after (commitHeld_secures _) (after (flushPages_secures _ _ _) (after (placeRun_secures _ _ _ _) ?_))
  exact via (book_keeps ..) rfl (foldl (readSource_secures tiers) (refl s))

theorem writePages_secures (s : State) (l : List (Nat × Nat)) : SameFtl Ftl.secures s (writePages s l).1 := by
  unfold writePages
  dsimp only
  refine after (flushPages_secures _ _ _) ?_
  refine List.foldlRecOn (motive := fun r : State × List (Nat × Nat) => SameFtl Ftl.secures s r.1) l _ (refl s)
    fun r hr p _ => ?_
  split
  · next h => exact after (setFtl_secures rfl) (after (placeAny_secures h) hr)
  · exact hr

theorem writeMap_secures (s : State) : SameFtl Ftl.secures s (writeMap s).1 := by
  unfold writeMap
  dsimp only
  exact after (writePages_secures _ _) (after (writePages_secures _ _) (writePages_secures s _))

theorem runCkpt_secures (s : State) : SameFtl Ftl.secures s (runCkpt s false) := by
  have hwritten : SameFtl Ftl.secures s (commitHeld (writeMap (beginCkpt s)).1) :=
    after (commitHeld_secures _) (after (writeMap_secures _) (beginCkpt_secures s))
  rw [runCkpt_eq, ckptEnd]
  split
  · exact hwritten
  · exact ite hwritten (after (setAnchor_secures ..) hwritten)

theorem eraseGroup_secures (s : State) (g : Nat) (fails : List Nat) : SameFtl Ftl.secures s (eraseGroup s g fails) := by
  have hpaid (c : Prop) [Decidable c] (n : Nat) : SameFtl Ftl.secures s (if c then s else book s 2 n) :=
    ite (refl s) (of_keeps (book_keeps ..) rfl)
  unfold eraseGroup
  dsimp -proj only
  refine after (judgeSpare_secures _) (after (judgeFold_secures _) ?_)
  refine ite (after (poolGroup_secures ..) ?_) ?_ <;>
    refine foldl (fun t ch => retireBlock_secures t ch _ _) (after (setBg_secures ..) (after (setFtl_secures rfl) ?_)) <;>
    exact hpaid _ _

theorem secureEraseGroup_secures (x : Secure) (s : State) (g : Nat) : SameFtl Ftl.secures s (secureEraseGroup x s g) :=
  via (beginErase_keeps ..) rfl (eraseGroup_secures s g _)

theorem secureRetired_secures (s : State) (groups lost : List Nat) (paid : Bool) :
    SameFtl Ftl.secures s (secureRetired s groups lost paid).1 := by
  have hpaid (n : Nat) : SameFtl Ftl.secures s (if paid then s else book s 2 n) := ite (refl s) (of_keeps (book_keeps ..) rfl)
  exact foldl (fun t _ => of_keeps (recordLost_keeps ..) rfl) (hpaid _)

end Sys2Proof.Machine
end

section
/-! SUPPORT and O37. The flash channels, the staging buffers and the map engine as stations (06_flash_channels.md, R246;
07_translation_and_recovery.md, R278, R279, R289–R291; 08_media_health_and_discard.md, R330–R333). -/

namespace Sys2Proof.Machine

section
variable {s t : State} {e : Entry} {y : LStep} {rest : List Work} {u d tag step j n first len off station idx q cls tail : Nat}
  {bs data raw : Bytes} {out : Nat} {prov : Bool}

/-! ## What a station sends -/

/-- A ticket with a unit at the next step has a next step. -/
theorem isLast_of_unitAt (h : unitAt s e (step + 1) n = some d) : isLast s e step = false := by
  by_contra hlast
  rw [isLast, Bool.not_eq_false, decide_eq_true_eq] at hlast
  rw [unitAt, List.getElem?_eq_none hlast] at h
  exact nomatch h

theorem isLast_congr (h : t.cfg = s.cfg) (e : Entry) (step : Nat) : isLast t e step = isLast s e step := by
  rw [isLast, isLast, stepsOf_congr h]

theorem entryOf_modEntry_of_entry (he : entryOf s tag = some e) (f : Entry → Entry) :
    entryOf (modEntry s tag f) tag = some (f e) := by
  rw [modEntry_of_entry he]
  exact entryOf_setEntry_same ..

/-- A station that is not the last sends nothing but end tokens when its output ends (R172). -/
theorem endOut_sends (he : entryOf s tag = some e) (hlast : isLast s e step = false) :
    ∃ l, (endOut s tag step u out prov).dev.trunk = s.dev.trunk ++ l ∧ ∀ x ∈ l, x.endTok = true := by
  rw [endOut_of_not_last he hlast, setCtx_dev, trunk_sendToken]
  exact ⟨_, rfl, by simp [tokenTo]⟩

/-- The unit that a station has read goes to the next step; only end tokens may follow it (R172). -/
theorem readOut_sends (hcfg : t.cfg = s.cfg) (he : entryOf t tag = some e) (hf : e.fenced = false) (hr : e.revoking = false)
    (hd : unitAt s e (step + 1) n = some d) :
    ∃ l, (readOut t u tag step n station bs).dev.trunk =
        t.dev.trunk ++ sentTo s e tag step u d (4096 * n) bs station false :: l ∧ ∀ x ∈ l, x.endTok = true := by
  let p := sentTo s e tag step u d (4096 * n) bs station false
  obtain ⟨t1, ht1⟩ : ∃ t1, t1 = countTaken (countCtx (emit t p) tag step 4096 bs.length) tag 4096 := ⟨_, rfl⟩
  have hcfg1 : t1.cfg = s.cfg := ht1 ▸ ((modEntry_keeps _ _ _).cfg rfl).trans hcfg
  have htrunk : t1.dev.trunk = t.dev.trunk ++ [p] := ht1 ▸ congrArg (·.trunk) ((modEntry_keeps _ _ _).dev rfl)
  have he1 : entryOf t1 tag = some { e with taken := e.taken + 4096 } :=
    ht1 ▸ entryOf_modEntry_of_entry (s := countCtx (emit t p) tag step 4096 bs.length) he _
  have hlast : isLast t1 { e with taken := e.taken + 4096 } step = false :=
    (isLast_congr hcfg1 ..).trans (isLast_of_unitAt (e := e) hd)
  rw [readOut, sendData_of_cfg hcfg he hf hr hd, ← ht1, he1]
  dsimp only
  split
  · obtain ⟨l, hl, htok⟩ := endOut_sends (u := u) (out := (ctxOf t1 tag step).outBytes) (prov := false) he1 hlast
    exact ⟨l, by rw [hl, htrunk, List.append_assoc]; rfl, htok⟩
  · exact ⟨[], htrunk, fun _ h => nomatch h⟩


theorem sends_readOut (hcfg : t.cfg = s.cfg) (htrunk : t.dev.trunk = s.dev.trunk) (he : entryOf t tag = some e)
    (hf : e.fenced = false) (hr : e.revoking = false) (hd : unitAt s e (step + 1) n = some d) :
    sends s (readOut t u tag step n station bs) (sentTo s e tag step u d (4096 * n) bs station false) := by
  obtain ⟨l, hl, -⟩ := readOut_sends (u := u) (station := station) (bs := bs) hcfg he hf hr hd
  exact ⟨l, htrunk ▸ hl⟩

/-- The entry of ticket `tag` with the reference `r` for its unit `n`. -/
def withRef (s : State) (tag n : Nat) (r : Ref) : State := modEntry s tag (fun e => { e with refs := Tab.set e.refs n r })

theorem sends_readOut_withRef (hcfg : t.cfg = s.cfg) (htrunk : t.dev.trunk = s.dev.trunk) (he : entryOf t tag = some e)
    (hf : e.fenced = false) (hr : e.revoking = false) (hd : unitAt s e (step + 1) n = some d) (r : Ref) :
    sends s (readOut (withRef t tag n r) u tag step n station bs) (sentTo s e tag step u d (4096 * n) bs station false) := by
  have hkeeps : Keeps _ t (withRef t tag n r) := modEntry_keeps ..
  exact sends_readOut (e := { e with refs := Tab.set e.refs n r }) ((hkeeps.cfg rfl).trans hcfg)
    ((congrArg (·.trunk) (hkeeps.dev rfl)).trans htrunk) (entryOf_modEntry_of_entry he _) hf hr hd

/-! ## READ (R246, R278, R279) -/

/-- READ takes the first portion that waits at a station that reads now. -/
theorem exec_read (h : startWaits s u tag j first len e y rest) (hk : stepKind y = 0x01) (hm : y.mode = 0)
    (hw : readsNow s u = true) :
    exec (.read u) s = .next (readUnit (setInbox s u rest) u tag e j (first / 4096) (.start tag j first len)) := by
  change execRead u s = _
  rw [execRead, serveAt_start h (by simp [hk, hm, hw])]

theorem read_unmapped (h : startWaits s u tag j first len e y rest) (hk : stepKind y = 0x01) (hm : y.mode = 0)
    (hw : readsNow s u = true) (hd : unitAt s e (j + 1) (first / 4096) = some d)
    (href : Tab.get? e.refs (first / 4096) = some (.unmapped idx)) :
    Nexts (exec (.read u) s) (fun t => sends s t
      (sentTo s e tag j u d (4096 * (first / 4096)) (zeros 4096) (slotStation idx 3 true false) false)) := by
  refine ⟨_, exec_read h hk hm hw, ?_⟩
  obtain ⟨-, he, hf, hr, -⟩ := h
  rw [readUnit, href]
  exact sends_readOut rfl rfl he hf hr hd

theorem read_staged (h : startWaits s u tag j first len e y rest) (hk : stepKind y = 0x01) (hm : y.mode = 0)
    (hw : readsNow s u = true) (hd : unitAt s e (j + 1) (first / 4096) = some d)
    (href : Tab.get? e.refs (first / 4096) = some (.staged idx cls bs)) :
    Nexts (exec (.read u) s) (fun t => sends s t
      (sentTo s e tag j u d (4096 * (first / 4096)) bs (slotStation idx cls true false) false)) := by
  refine ⟨_, exec_read h hk hm hw, ?_⟩
  obtain ⟨-, he, hf, hr, -⟩ := h
  rw [readUnit, href]
  exact sends_readOut rfl rfl he hf hr hd

/-- Nothing of a channel that neither programs nor erases is suspended for a read. -/
theorem issueRead_of_idle (hprog : (chanOf s u).programs = []) (herase : (chanOf s u).erasing = []) (r : RdOp) :
    issueRead s u r = some (setChan s u { chanOf s u with reads := (chanOf s u).reads ++ [r] }) := by
  simp [issueRead, hprog, herase]

theorem read_flash (h : startWaits s u tag j first len e y rest) (hk : stepKind y = 0x01) (hm : y.mode = 0)
    (hw : readsNow s u = true) (href : Tab.get? e.refs (first / 4096) = some (.flash idx q 0 cls tail))
    (hprog : (chanOf s u).programs = []) (herase : (chanOf s u).erasing = []) :
    Nexts (exec (.read u) s) (fun t => inboxOf t u = rest ∧ (chanOf t u).reads = (chanOf s u).reads ++ [{
      tag := tag, step := j, n := first / 4096, idx := idx, page := q, quarter := 0, cls := cls, seqTail := tail,
      left := codewordsOf 0 cls, tier := if pageLost s q then 4 else 0 }]) := by
  refine ⟨_, exec_read h hk hm hw, ?_⟩
  rw [readUnit, href]
  dsimp only
  rw [issueRead_of_idle (s := setInbox s u rest) hprog herase]
  exact ⟨inboxOf_setInbox_same .., congrArg FChan.reads (chanOf_setChan_same ..)⟩

/-! ## READ_RAW (R246) -/

theorem chunks_flatten {n : Nat} (fuel : Nat) (h : bs.length ≤ n * fuel) : (chunks n fuel bs).flatten = bs := by
  induction fuel generalizing bs with
  | zero => exact (List.length_eq_zero_iff.mp (Nat.le_zero.mp h)).symm
  | succ fuel ih =>
    rw [chunks]
    split
    · next hbs => exact (List.isEmpty_iff.mp hbs).symm
    · rw [List.flatten_cons, ih (by rw [List.length_drop]; rw [Nat.mul_succ] at h; omega), List.take_append_drop]

/-- The data of packets other than end tokens, joined. -/
def dataOf (l : List Packet) : Bytes := ((l.filter (fun x => !x.endTok)).map (·.data)).flatten

theorem dataOf_append (l m : List Packet) : dataOf (l ++ m) = dataOf l ++ dataOf m := by simp [dataOf]

/-- One piece of a read unit is sent. -/
def sendPiece (s : State) (tag step u n : Nat) (p : Bytes) : State :=
  countCtx (sendData s tag step u n (ctxOf s tag step).outBytes p 0 false) tag step 0 p.length

/-- The pieces go onto the trunk one behind another, and the ticket stays as it was. -/
theorem sendPieces_trunk (hcfg : t.cfg = s.cfg) (he : entryOf t tag = some e) (hf : e.fenced = false) (hr : e.revoking = false)
    (hd : unitAt s e (step + 1) n = some d) (ps : List Bytes) :
    (ps.foldl (fun t p => sendPiece t tag step u n p) t).cfg = s.cfg ∧
      entryOf (ps.foldl (fun t p => sendPiece t tag step u n p) t) tag = some e ∧
      ∃ l, (ps.foldl (fun t p => sendPiece t tag step u n p) t).dev.trunk = t.dev.trunk ++ l ∧ dataOf l = ps.flatten := by
  induction ps generalizing t with
  | nil => exact ⟨hcfg, he, [], (List.append_nil _).symm, rfl⟩
  | cons p ps ih =>
    let q := sentTo s e tag step u d (ctxOf t tag step).outBytes p 0 false
    have hpiece : sendPiece t tag step u n p = countCtx (emit t q) tag step 0 p.length := by
      rw [sendPiece, sendData_of_cfg hcfg he hf hr hd]
    obtain ⟨hcfg', he', l, hl, hdata⟩ := ih (t := countCtx (emit t q) tag step 0 p.length) hcfg he
    rw [List.foldl_cons, hpiece]
    refine ⟨hcfg', he', q :: l, hl.trans (List.append_assoc t.dev.trunk [q] l), ?_⟩
    exact (dataOf_append [q] l).trans (by rw [hdata]; simp [dataOf, q, sentTo])

/-- READ_RAW sends the codewords of a unit in flash, cut into packets. -/
def rawOut (s : State) (u tag step n : Nat) (bs : Bytes) : State :=
  let cuts := chunks 4096 (bs.length / 4096 + 1) bs
  readOut (cuts.dropLast.foldl (fun s p => sendPiece s tag step u n p) s) u tag step n 0 (cuts.getLastD [])

theorem rawOut_trunk (hcfg : t.cfg = s.cfg) (he : entryOf t tag = some e) (hf : e.fenced = false) (hr : e.revoking = false)
    (hd : unitAt s e (step + 1) n = some d) :
    ∃ l, (rawOut t u tag step n bs).dev.trunk = t.dev.trunk ++ l ∧ dataOf l = bs := by
  let cuts := chunks 4096 (bs.length / 4096 + 1) bs
  obtain ⟨hcfg', he', l, hl, hdata⟩ := sendPieces_trunk (u := u) hcfg he hf hr hd cuts.dropLast
  obtain ⟨m, hm, htok⟩ := readOut_sends (u := u) (station := 0) (bs := cuts.getLastD []) hcfg' he' hf hr hd
  refine ⟨_, hm.trans (by rw [hl, List.append_assoc]), ?_⟩
  have hcuts : cuts.dropLast.flatten ++ cuts.getLastD [] = bs := by
    rw [← chunks_flatten (bs := bs) (n := 4096) (bs.length / 4096 + 1) (by omega)]
    change cuts.dropLast.flatten ++ cuts.getLastD [] = cuts.flatten
    rcases List.eq_nil_or_concat cuts with hnil | ⟨cs, c, hcs⟩
    · simp [hnil]
    · simp [hcs]
  have htokens : dataOf m = [] := by
    rw [dataOf, List.filter_eq_nil_iff.mpr (fun x hx => by simp [htok x hx])]
    rfl
  rw [dataOf_append, hdata, ← List.singleton_append, dataOf_append, htokens, List.append_nil]
  conv_rhs => rw [← hcuts]
  simp [dataOf, sentTo]

theorem readRaw_sends (h : startWaits s u tag j first len e y rest) (hk : stepKind y = 0x01) (hm : y.mode = 3)
    (hw : readsNow s u = true) (hd : unitAt s e (j + 1) (first / 4096) = some d)
    (href : Tab.get? e.refs (first / 4096) = some (.flash idx q 0 cls tail)) :
    Nexts (exec (.readRaw u raw) s) (fun t => ∃ l, t.dev.trunk = s.dev.trunk ++ l ∧
      dataOf l = fit (codewordBytes (chanOf s u).code * codewordsOf 0 cls) raw) := by
  let t := countRead (setInbox s u rest) (groupOf (setInbox s u rest) q)
  have hkeeps : Keeps _ (setInbox s u rest) t := countRead_keeps ..
  have hrun : exec (.readRaw u raw) s =
      .next (rawOut t u tag j (first / 4096) (fit (codewordBytes (chanOf t u).code * codewordsOf 0 cls) raw)) := by
    change execReadRaw u raw s = _
    rw [execReadRaw, serveAt_start h (by simp [hk, hm, hw])]
    dsimp only
    rw [href]
    rfl
  rw [hrun, chanOf_congr (hkeeps.fch rfl)]
  refine ⟨_, rfl, ?_⟩
  obtain ⟨-, he, hf, hr, -⟩ := h
  obtain ⟨l, hl, hdata⟩ := rawOut_trunk (s := s) (t := t) (u := u) (hkeeps.cfg rfl)
    ((entryOf_congr (hkeeps.sbx rfl) tag).trans he) hf hr hd
  exact ⟨l, hl.trans (by rw [hkeeps.dev rfl]; rfl), hdata⟩

end

section
variable {s t : State} {e : Entry} {y : LStep} {rest : List Work} {u ch d tag step j first len : Nat} {pk h : Packet}
  {x : FSlot} {pg : OPage} {dense : Bool}

/-! ## A durable step holds its packets (R289) -/

theorem durableData_holds (hro : s.ftl.state ≠ .readOnly) (hfits : packetFits pk = true) :
    durableData s u tag step pk = holdPacket s tag step pk :=
  (if_neg hro).trans (if_neg (by simp [hfits]))

/-- The packet is held, and the rest of the queue waits. -/
theorem holdPacket_holds (s : State) (ch : Nat) (rest : List Work) (pk : Packet) :
    inboxOf (holdPacket (setInbox s ch rest) pk.tag pk.step pk) ch = rest ∧
      (ctxOf (holdPacket (setInbox s ch rest) pk.tag pk.step pk) pk.tag pk.step).held =
        (ctxOf s pk.tag pk.step).held ++ [pk] :=
  ⟨inboxOf_setInbox_same .., congrArg Ctx.held (ctxOf_setCtx_same ..)⟩

theorem writeServe_packet {mode : Nat} (hq : inboxOf s ch = .pkt pk :: rest) (he : entryOf s pk.tag = some e)
    (hf : e.fenced = false) (hr : e.revoking = false) (hy : (stepsOf s e)[pk.step]? = some y) (hk : stepKind y = 0x01)
    (hm : y.mode = mode) (hw : mayIssue (chanOf s ch) = true) : writeServe s ch mode =
      if !pk.endTok then durableData (setInbox s ch rest) ch pk.tag pk.step pk
      else if !tokenReady s pk pk.step then enqueue (setInbox s ch rest) ch (.pkt pk)
      else if pk.prov then endProvisional (setInbox s ch rest) pk.tag ch
      else writeEnd (setInbox s ch rest) ch pk.tag pk.step (mode == 2) (.pkt pk) :=
  serveAt_packet hq he hf hr hy (by simp [hk, hm, hw])

theorem writeServe_holds {mode : Nat} (hp : packetWaits s ch pk e y rest) (hro : s.ftl.state ≠ .readOnly)
    (hfits : packetFits pk = true) (hk : stepKind y = 0x01) (hm : y.mode = mode) (hw : mayIssue (chanOf s ch) = true) :
    writeServe s ch mode = holdPacket (setInbox s ch rest) pk.tag pk.step pk := by
  obtain ⟨hq, hend, he, hf, hr, hy⟩ := hp
  rw [writeServe_packet hq he hf hr hy hk hm hw, if_pos (by simp [hend])]
  exact durableData_holds hro hfits

theorem readWriteBack_holds (hp : packetWaits s ch pk e y rest) (hro : s.ftl.state ≠ .readOnly)
    (hfits : packetFits pk = true) (hk : stepKind y = 0x0F) (hm : y.mode = 0) (hw : worksNow s ch = true) :
    exec (.readWriteBack ch) s = .next (holdPacket (setInbox s ch rest) pk.tag pk.step pk) := by
  obtain ⟨hq, hend, he, hf, hr, hy⟩ := hp
  change execReadWriteBack ch s = _
  rw [execReadWriteBack, serveFront_packet hq he hf hr hy hk (by simp [hm]) hw]
  dsimp only
  rw [if_pos (by simp [hend])]
  exact congrArg Host.Outcome.next (durableData_holds hro hfits)

/-! ## A writing channel places what it holds (R246, R255) -/

/-- The page `pg` with `x` in its next place. -/
def OPage.withSlot (pg : OPage) (x : FSlot) (now : Nat) : OPage := { pg with
  slots := pg.slots ++ [{ x with quarter := pg.used }], used := pg.used + x.cls + 1, since := now }

theorem placeSlot_of_room (hpage : curPage s ch dense = some pg) (hkind : x.kind ≠ 4) (hroom : pg.used + x.cls + 1 < 16) :
    placeSlot s ch dense x = some (setCur s ch dense (some (pg.withSlot x s.now))) := by
  have hfits : (decide (pg.used + x.cls + 1 ≤ 16) && !(x.kind == 4 && decide (252 ≤ rootsIn s ch pg.group))) = true := by
    simp [hkind]; omega
  simp only [placeSlot, hpage, hfits, if_true, Option.map_some]
  exact congrArg some (if_neg (Nat.ne_of_lt hroom))

theorem curPage_setCur (s : State) (ch : Nat) (dense : Bool) (p : Option OPage) :
    curPage (setCur s ch dense p) ch dense = p := by
  cases dense <;> simp [curPage, setCur]

/-- The one packet that is held for a channel is placed. -/
theorem placeHeld_of_one (hheld : (ctxOf s tag step).held = [h]) (hdest : h.dest = ch) (he : entryOf s tag = some e)
    (hx : slotOfPacket s e h = some x) (hpage : curPage s ch dense = some pg) (hkind : x.kind ≠ 4)
    (hroom : pg.used + x.cls + 1 < 16) : placeHeld ch dense 2 s tag step =
      setCtx (setCur (setEntry s tag { e with left := e.left + 1 }) ch dense (some (pg.withSlot x s.now))) tag step
        { ctxOf s tag step with held := [] } := by
  have hplace := placeSlot_of_room (s := setEntry s tag { e with left := e.left + 1 }) (dense := dense) hpage hkind hroom
  have hnone (t : State) (c : Ctx) (hc : c.held = []) :
      placeHeld ch dense 1 (setCtx t tag step c) tag step = setCtx t tag step c := by
    simp [placeHeld, hc]
  have hfind : (ctxOf s tag step).held.find? (fun p => p.dest == ch) = some h := by simp [hheld, hdest]
  have hctx (p : Option OPage) :
      ctxOf (setCur (setEntry s tag { e with left := e.left + 1 }) ch dense p) tag step = ctxOf s tag step := by
    cases dense <;> rfl
  rw [placeHeld]
  simp only [hfind, he, hx, hplace]
  have hdrop : dropFirst (fun x => x.dest == ch) (ctxOf s tag step).held = [] := by simp [hheld, hdest, dropFirst]
  rw [hctx, hdrop, hnone _ _ rfl]
  rfl

theorem writeEnd_places {w : Work} (hheld : (ctxOf s tag step).held = [h]) (hdest : h.dest = ch) (he : entryOf s tag = some e)
    (hx : slotOfPacket s e h = some x) (hpage : curPage s ch dense = some pg) (hkind : x.kind ≠ 4)
    (hroom : pg.used + x.cls + 1 < 16) :
    curPage (writeEnd s ch tag step dense w) ch dense = some (pg.withSlot x s.now) ∧
      ∃ e', entryOf (writeEnd s ch tag step dense w) tag = some e' ∧ e'.left = e.left + 1 ∧ e'.out = e.out := by
  have hplaced := placeHeld_of_one hheld hdest he hx hpage hkind hroom
  obtain ⟨t, ht⟩ : ∃ t, t = setCtx (setCur (setEntry s tag { e with left := e.left + 1 }) ch dense
    (some (pg.withSlot x s.now))) tag step { ctxOf s tag step with held := [] } := ⟨_, rfl⟩
  have hcur : curPage t ch dense = some (pg.withSlot x s.now) := ht ▸ curPage_setCur ..
  have hentry : entryOf t tag = some { e with left := e.left + 1 } := by
    rw [ht, entryOf_congr ((setCtx_sbx ..).trans ((setCur_keeps ..).sbx rfl)), entryOf_setEntry_same]
  have hempty : (ctxOf t tag step).held = [] := ht ▸ congrArg Ctx.held (ctxOf_setCtx_same ..)
  have hlen : (ctxOf s tag step).held.length + 1 = 2 := by rw [hheld]; rfl
  rw [writeEnd, hlen, hplaced, ← ht]
  dsimp only
  rw [if_neg (by simp [hempty])]
  change _ ∧ ∃ e', entryOf _ tag = some e' ∧ _
  rw [show entryOf (setCtx t tag step _) tag = _ from hentry]
  dsimp only
  split
  · refine ⟨hcur, _, (congrArg (entryOf · tag) (if_neg (Nat.succ_ne_zero _))).trans (entryOf_setEntry_same ..), rfl, rfl⟩
  · exact ⟨hcur, _, hentry, rfl, rfl⟩

theorem writeServe_places {mode : Nat} (hq : inboxOf s ch = .pkt pk :: rest) (hend : pk.endTok = true) (hprov : pk.prov = false)
    (he : entryOf s pk.tag = some e) (hf : e.fenced = false) (hr : e.revoking = false)
    (hy : (stepsOf s e)[pk.step]? = some y) (hk : stepKind y = 0x01) (hm : y.mode = mode) (hw : mayIssue (chanOf s ch) = true)
    (htok : tokenReady s pk pk.step = true) (hheld : (ctxOf s pk.tag pk.step).held = [h]) (hdest : h.dest = ch)
    (hx : slotOfPacket s e h = some x) (hkind : x.kind ≠ 4) (hroom : pg.used + x.cls + 1 < 16)
    (hpage : curPage s ch (mode == 2) = some pg) :
    curPage (writeServe s ch mode) ch (mode == 2) = some (pg.withSlot x s.now) ∧
      ∃ e', entryOf (writeServe s ch mode) pk.tag = some e' ∧ e'.left = e.left + 1 ∧ e'.out = e.out := by
  rw [writeServe_packet hq he hf hr hy hk hm hw, if_neg (by simp [hend]), if_neg (by simp [htok]), if_neg (by simp [hprov])]
  exact writeEnd_places (s := setInbox s ch rest) hheld hdest he hx hpage hkind hroom

/-! ## WRITE_THROUGH and DRAIN (R289, R291) -/

/-- The map engine once WRITE_THROUGH keeps a copy of packet `p` (R289). -/
def Ftl.through (f : Ftl) (u : Nat) (p : Packet) : Ftl := { f with
  staging := Tab.set f.staging f.nextStaged {
    idx := stIndex p.station, buffer := u - 186, cls := packetClass p, bytes := p.data, dirty := false, tag := some p.tag }
  nextStaged := f.nextStaged + 1 }

theorem throughUnit_passes (hcfg : t.cfg = s.cfg) (he : entryOf t pk.tag = some e) (hf : e.fenced = false)
    (hr : e.revoking = false) (hd : unitAt s e (step + 1) (pk.off / 4096) = some d) :
    throughUnit t u pk.tag step pk = countCtx (emit (setFtl t (t.ftl.through u pk))
      (sentTo s e pk.tag step u d pk.off pk.data pk.station false)) pk.tag step 0 pk.data.length :=
  sendUnit_of_cfg (t := setFtl t (t.ftl.through u pk)) hcfg he hf hr hd

theorem writeThrough_passes (hp : packetWaits s u pk e y rest) (hk : stepKind y = 0x0F) (hm : y.mode = 1)
    (hw : worksNow s u = true) (hro : s.ftl.state ≠ .readOnly) (hfits : packetFits pk = true) (hprov : pk.prov = false)
    (hheld : (ctxOf s pk.tag pk.step).held = []) (hd : unitAt s e (pk.step + 1) (pk.off / 4096) = some d) :
    Nexts (exec (.writeThrough u) s) (fun t =>
      t.dev.trunk = s.dev.trunk ++ [sentTo s e pk.tag pk.step u d pk.off pk.data pk.station pk.prov] ∧
      Tab.get? t.ftl.staging s.ftl.nextStaged = some {
        idx := stIndex pk.station, buffer := u - 186, cls := packetClass pk, bytes := pk.data, dirty := false,
        tag := some pk.tag }) := by
  obtain ⟨hq, hend, he, hf, hr, hy⟩ := hp
  have hrun : exec (.writeThrough u) s =
      .next (throughUnit (countCtx (setInbox s u rest) pk.tag pk.step pk.data.length 0) u pk.tag pk.step pk) := by
    change execWriteThrough u s = _
    rw [execWriteThrough, serveFront_packet hq he hf hr hy hk (by simp [hm]) hw]
    have hnow : (pk.prov || !(ctxOf (setInbox s u rest) pk.tag pk.step).held.isEmpty) = false := by
      rw [hprov, show (ctxOf (setInbox s u rest) pk.tag pk.step).held = [] from hheld]
      rfl
    dsimp only
    rw [if_neg (by simp [hend])]
    exact congrArg Host.Outcome.next ((if_neg hro).trans ((if_neg (by simp [hfits])).trans
      (if_neg (Bool.eq_false_iff.mp hnow))))
  refine ⟨_, hrun, ?_⟩
  rw [throughUnit_passes (s := s) (t := countCtx (setInbox s u rest) pk.tag pk.step pk.data.length 0) rfl he hf hr hd, hprov]
  exact ⟨rfl, Tab.get?_set_same ..⟩

theorem ceilDiv_one_page (hpos : 0 < len) (hlen : len ≤ 4096) : ceilDiv len 4096 = 1 := by
  rw [ceilDiv]; omega

theorem drain_sends {k : Nat} {x : Staged} {l : Tab Staged} (hs : startWaits s u tag j first len e y rest)
    (hk : stepKind y = 0x0F) (hm : y.mode = 2) (hw : worksNow s u = true) (hpos : 0 < len) (hlen : len ≤ 4096)
    (hd : unitAt s e (j + 1) (first / 4096) = some d)
    (hstaged : Tab.keep s.ftl.staging (fun _ x => !x.superseded && !x.isSealed && x.sent.isNone && x.tag.isNone) =
      (k, x) :: l) :
    Nexts (exec (.drain u) s) (fun t => sends s t
      (sentTo s e tag j u d (4096 * (first / 4096)) x.bytes (slotStation x.idx x.cls true false) false)) := by
  let t := setFtl (setInbox s u rest) { s.ftl with staging := Tab.set s.ftl.staging k { x with sent := some tag } }
  have hrun : exec (.drain u) s = .next (readOut (withRef t tag (first / 4096) (.staged x.idx x.cls x.bytes)) u tag j
      (first / 4096) (slotStation x.idx x.cls true false) x.bytes) := by
    change execDrain u s = _
    rw [execDrain, serveFront_start hs hk (by simp [hm]) hw]
    dsimp only
    rw [ceilDiv_one_page hpos hlen, setInbox_ftl, hstaged]
    rfl
  obtain ⟨-, he, hf, hr, -⟩ := hs
  rw [hrun]
  exact ⟨_, rfl, sends_readOut_withRef (t := t) rfl rfl he hf hr hd _⟩

/-! ## MAP_WRITE (R246) -/

theorem mapWrite_sends {kind page : Nat} {l : List (Nat × Nat)} (hs : startWaits s 189 tag j first len e y rest)
    (hk : stepKind y = 0x11) (hm : y.mode = 3) (hw : worksNow s 189 = true) (hpos : 0 < len) (hlen : len ≤ 4096)
    (hd : unitAt s e (j + 1) (first / 4096) = some d) (hdirty : dirtyPages s = (kind, page) :: l) :
    Nexts (exec .mapWrite s) (fun t => sends s t
      (sentTo s e tag j 189 d (4096 * (first / 4096)) (mapPageBytes s kind page) (slotStation page 3 true false) false)) := by
  let t := setFtl (setInbox s 189 rest) { s.ftl with mapDirty := s.ftl.mapDirty.filter (· != (kind, page)) }
  have hbytes : mapPageBytes (withRef t tag (first / 4096) (.page kind page)) kind page = mapPageBytes s kind page := by
    rw [mapPageBytes, withRef, (modEntry_keeps _ _ _).ftl rfl]
    rfl
  have hrun : exec .mapWrite s =
      .next (readOut (withRef t tag (first / 4096) (.page kind page)) 189 tag j (first / 4096)
      (slotStation page 3 true false) (mapPageBytes s kind page)) := by
    change execMapWrite s = _
    rw [execMapWrite, serveFront_start hs hk (by simp [hm]) hw]
    dsimp only
    rw [ceilDiv_one_page hpos hlen, show dirtyPages (setInbox s 189 rest) = (kind, page) :: l from hdirty, ← hbytes]
    rfl
  obtain ⟨-, he, hf, hr, -⟩ := hs
  rw [hrun]
  exact ⟨_, rfl, sends_readOut_withRef (t := t) rfl rfl he hf hr hd _⟩

end

section
variable {s t : State} {e : Entry} {y : LStep} {rest : List Work} {u tag step j first len idx n out k : Nat} {pk h : Packet}

/-! ## DEALLOCATE (R330) -/

/-- The journal buffer has room for `n` more records (log 215). -/
def roomFor (s : State) (n : Nat) : Prop := s.ftl.jpages.length + ceilDiv (s.ftl.held.length + n) 252 ≤ 2048

theorem hold_of_room (h : roomFor s 1) (r : JRec) : hold s r = setFtl s { s.ftl with held := s.ftl.held ++ [r] } := by
  rw [hold, if_neg (Nat.not_lt.mpr h)]

/-- The records that wait to be written, the journal pages that do, and the namespaces. -/
def Ftl.waiting (f : Ftl) : List JRec × List JPage × Tab Ns := (f.held, f.jpages, f.ns)

/-- The units `gone` are unmapped, and `recs` are held for them; nothing else of the journal has changed. -/
structure Discarded (s t : State) (gone : List Nat) : Prop where
  map : ∀ k, Tab.get? t.ftl.map k = if k ∈ gone then none else Tab.get? s.ftl.map k
  stagedAt : ∀ k, Tab.get? t.ftl.stagedAt k = if k ∈ gone then none else Tab.get? s.ftl.stagedAt k
  held : t.ftl.held = s.ftl.held ++ gone.map (fun k => { type := 3, idx := k })
  jpages : t.ftl.jpages = s.ftl.jpages
  ns : t.ftl.ns = s.ftl.ns
  stn : t.stn = s.stn

theorem Discarded.refl (s : State) : Discarded s s [] :=
  ⟨fun _ => rfl, fun _ => rfl, (List.append_nil _).symm, rfl, rfl, rfl⟩

theorem Discarded.after {l : List Nat} (h : Discarded s t l) {u : State} (k : Discarded t u [idx]) :
    Discarded s u (l ++ [idx]) where
  map i := by rw [k.map, h.map]; by_cases hi : i = idx <;> simp [hi]
  stagedAt i := by rw [k.stagedAt, h.stagedAt]; by_cases hi : i = idx <;> simp [hi]
  held := by rw [k.held, h.held]; simp
  jpages := k.jpages.trans h.jpages
  ns := k.ns.trans h.ns
  stn := k.stn.trans h.stn

/-- A unit whose place (in `a`), slots (in `b`) and map entry (in `c`) have gone is discarded once its record is held. -/
theorem Discarded.of_steps {a b c : State} (hroom : roomFor s 1) (ha : SameFtl Ftl.unplaced s a)
    (hplace : ∀ k, Tab.get? a.ftl.stagedAt k = if k = idx then none else Tab.get? s.ftl.stagedAt k)
    (hb : SameFtl Ftl.unstaged a b) (hc : SameFtl Ftl.uncached
      (setFtl b { b.ftl with map := Tab.erase b.ftl.map idx, lostUnits := b.ftl.lostUnits.filter (· != idx) }) c)
    (hstn : c.stn = s.stn) : Discarded s (hold c { type := 3, idx := idx }) [idx] := by
  have hwaiting : SameFtl Ftl.waiting s c := (hc.coarser Ftl.waiting (fun _ => rfl)).after
    ((hb.coarser Ftl.waiting (fun _ => rfl)).after (ha.coarser Ftl.waiting (fun _ => rfl)))
  have hheld : c.ftl.held = s.ftl.held := congrArg (·.1) hwaiting
  have hjpages : c.ftl.jpages = s.ftl.jpages := congrArg (·.2.1) hwaiting
  have hmap : c.ftl.map = Tab.erase s.ftl.map idx := (hc.coarser Ftl.map (fun _ => rfl)).trans
    (congrArg (Tab.erase · idx) ((hb.coarser Ftl.map (fun _ => rfl)).trans (ha.coarser Ftl.map (fun _ => rfl))))
  have hplaces : c.ftl.stagedAt = a.ftl.stagedAt :=
    (hc.coarser Ftl.stagedAt (fun _ => rfl)).trans (hb.coarser Ftl.stagedAt (fun _ => rfl))
  rw [hold_of_room (by rw [roomFor, hheld, hjpages]; exact hroom)]
  exact {
    map k := by rw [setFtl_ftl, hmap]; simpa using Tab.get?_erase ..
    stagedAt k := by rw [setFtl_ftl, hplaces]; simpa using hplace k
    held := congrArg (· ++ _) hheld
    jpages := hjpages
    ns := congrArg (·.2.2) hwaiting
    stn := hstn }

theorem deallocUnit_discards (h : roomFor s 1) (idx : Nat) : Discarded s (deallocUnit s idx) [idx] :=
  .of_steps h (dropStaged_unplaced s idx true) (stagedAt_dropStaged s idx true) (dropThrough_unstaged _ idx)
    (mapSet_uncached _ idx)
    (((mapSet_keeps ..).stn rfl).trans (((dropThrough_keeps ..).stn rfl).trans ((dropStaged_keeps ..).stn rfl)))

theorem descIndex_congr (h : t.ftl.ns = s.ftl.ns) (a : Desc) (n : Nat) : descIndex t a n = descIndex s a n := by
  rw [descIndex, descIndex, h]

/-- The units of a portion that begins at unit `u` of the ticket's source. -/
def unitsOf (s : State) (e : Entry) (u n : Nat) : List Nat := (List.range n).map (fun i => descIndex s e.t.source (u + i))

theorem deallocRange_discards (h : roomFor s n) (e : Entry) (u : Nat) :
    Discarded s (deallocRange s e u n) (unitsOf s e u n) := by
  induction n with
  | zero => exact Discarded.refl s
  | succ n ih =>
    have hn := ih (by rw [roomFor, ceilDiv] at *; omega)
    have hroom : roomFor (deallocRange s e u n) 1 := by
      rw [roomFor, hn.jpages, hn.held, List.length_append, List.length_map, unitsOf, List.length_map, List.length_range]
      exact h
    have hsplit : deallocRange s e u (n + 1) =
        deallocUnit (deallocRange s e u n) (descIndex (deallocRange s e u n) e.t.source (u + n)) := by
      rw [deallocRange, List.range_succ, List.foldl_append]
      rfl
    rw [hsplit, descIndex_congr hn.ns, unitsOf, List.range_succ, List.map_append]
    exact hn.after (deallocUnit_discards hroom _)

/-- The units of a portion are unmapped, and a record waits for each. -/
def Unmapped (s : State) (e : Entry) (u n : Nat) (t : State) : Prop :=
  (∀ i < n, Tab.get? t.ftl.map (descIndex s e.t.source (u + i)) = none ∧
    Tab.get? t.ftl.stagedAt (descIndex s e.t.source (u + i)) = none) ∧
  t.ftl.held = s.ftl.held ++ (List.range n).map (fun i => { type := 3, idx := descIndex s e.t.source (u + i) })

theorem Discarded.unmapped {t' : State} (h : Discarded s t (unitsOf s e u n)) (ht : SameFtl Ftl.lasting t t') :
    Unmapped s e u n t' := by
  have hmap : t'.ftl.map = t.ftl.map := ht.coarser Ftl.map (fun _ => rfl)
  have hplaces : t'.ftl.stagedAt = t.ftl.stagedAt := ht.coarser Ftl.stagedAt (fun _ => rfl)
  have hheld : t'.ftl.held = t.ftl.held := ht.coarser Ftl.held (fun _ => rfl)
  refine ⟨fun i hi => ?_, ?_⟩
  · have hmem : descIndex s e.t.source (u + i) ∈ unitsOf s e u n := List.mem_map.mpr ⟨i, List.mem_range.mpr hi, rfl⟩
    rw [hmap, hplaces, h.map, h.stagedAt, if_pos hmem, if_pos hmem]
    exact ⟨rfl, rfl⟩
  · rw [hheld, h.held, unitsOf, List.map_map]
    rfl

/-- A portion of a map command has been taken: its bytes count for the step and for the ticket. -/
def portionTaken (s : State) (tag step len : Nat) : State := countTaken (countCtx s tag step len 0) tag len

theorem portionTaken_ftl (s : State) (tag step len : Nat) : (portionTaken s tag step len).ftl = s.ftl :=
  ((modEntry_keeps ..).ftl rfl).trans ((countCtx_keeps ..).ftl rfl)

theorem inBytes_portionTaken (s : State) (tag step len : Nat) :
    (ctxOf (portionTaken s tag step len) tag step).inBytes = (ctxOf s tag step).inBytes + len := by
  rw [portionTaken, countTaken, ctxOf_congr ((modEntry_keeps ..).stn rfl)]
  exact congrArg Ctx.inBytes (ctxOf_setCtx_same ..)

theorem portionTaken_of_entry (he : entryOf s tag = some e) (step len : Nat) :
    portionTaken s tag step len = setEntry (countCtx s tag step len 0) tag { e with taken := e.taken + len } :=
  modEntry_of_entry (s := countCtx s tag step len 0) he _

theorem mapStep_start (s : State) (act : State → Nat → Nat → State) (fin : State → State) :
    mapStep s tag e step (.start tag j first len) act fin =
      if allTaken (portionTaken (act s (first / 4096) (ceilDiv len 4096)) tag step len) e tag step then
        fin (portionTaken (act s (first / 4096) (ceilDiv len 4096)) tag step len)
      else portionTaken (act s (first / 4096) (ceilDiv len 4096)) tag step len := rfl

theorem deallocate_unmaps (hs : startWaits s 189 tag j first len e y rest) (hk : stepKind y = 0x11)
    (hw : worksNow s 189 = true) (hroom : roomFor s (ceilDiv len 4096)) (hm : y.mode = 0) :
    Nexts (exec .deallocate s) (Unmapped s e (first / 4096) (ceilDiv len 4096)) := by
  have hrun : exec .deallocate s = .next (mapStep (setInbox s 189 rest) tag e j (.start tag j first len)
      (fun s u n => deallocRange s e u n)
      (fun s => endOut (clearLosses s) tag j 189 (4096 * ceilDiv e.t.len 4096) false)) := by
    change execDeallocate s = _
    rw [execDeallocate, serveFront_start hs hk (by simp [hm]) hw]
  refine ⟨_, hrun, ?_⟩
  have hgone := deallocRange_discards (s := setInbox s 189 rest) hroom e (first / 4096)
  have htaken := portionTaken_ftl (deallocRange (setInbox s 189 rest) e (first / 4096) (ceilDiv len 4096)) tag j len
  rw [mapStep_start]
  refine hgone.unmapped (s := setInbox s 189 rest) ?_
  exact .ite ((endOut_lasting ..).after ((SameFtl.of_keeps (clearLosses_keeps _) rfl).after (.of_ftl htaken))) (.of_ftl htaken)

theorem secureDeallocate_unmaps {failing : List Nat} {answer : SecureEnv}
    (hs : startWaits s 189 tag j first len e y rest) (hk : stepKind y = 0x11)
    (hw : worksNow s 189 = true) (hroom : roomFor s (ceilDiv len 4096)) (hm : y.mode = 1)
    (hpart : (ctxOf s tag j).inBytes + len < e.t.len) :
    Nexts (exec (.secureDeallocate failing answer) s) (Unmapped s e (first / 4096) (ceilDiv len 4096)) := by
  let act := fun s u n => deallocRange s e u n
  have hgone := deallocRange_discards (s := setInbox s 189 rest) hroom e (first / 4096)
  have hmore : allTaken (portionTaken (act (setInbox s 189 rest) (first / 4096) (ceilDiv len 4096)) tag j len) e tag j =
      false := by
    rw [allTaken, inBytes_portionTaken, ctxOf_congr hgone.stn, Bool.and_eq_false_iff]
    exact .inr (decide_eq_false (Nat.not_le.mpr hpart))
  refine ⟨portionTaken (act (setInbox s 189 rest) (first / 4096) (ceilDiv len 4096)) tag j len, ?_, ?_⟩
  · change execSecureDeallocate failing answer s = _
    rw [execSecureDeallocate, serveFront_start hs hk (by simp [hm]) hw, mapStep_start]
    exact congrArg Host.Outcome.next (if_neg (Bool.eq_false_iff.mp hmore))
  · exact hgone.unmapped (s := setInbox s 189 rest) (.of_ftl (portionTaken_ftl ..))

/-! ## DURABLE (R246) -/

/-- The end of a ticket is counted, where its line flushes; then the ticket ends. -/
theorem ackTicket_finishes (he : entryOf s tag = some e) (out : Nat) :
    ∃ t, ackTicket s tag out = finishTicket (setEntry t tag { e with acked := true, out := out }) tag ∧ t.sbx = s.sbx ∧
      t.ftl = s.ftl := by
  obtain ⟨t, ht⟩ : ∃ t, t = if (lineOf s e.t.line).flush then flushEnded s (ceilDiv e.t.len 4096) else s := ⟨_, rfl⟩
  have hkeeps : Keeps 1024 s t := ht ▸ .ite (flushEnded_keeps ..) (Keeps.refl _ _)
  refine ⟨t, ?_, hkeeps.sbx rfl, hkeeps.ftl rfl⟩
  rw [ackTicket, he]
  dsimp only
  rw [← ht, modEntry_of_entry ((entryOf_congr (hkeeps.sbx rfl) tag).trans he)]

theorem ackTicket_ends (he : entryOf s tag = some e) (hr : e.revoking = false) (hclean : cleanTicket s e) :
    endedWith s (ackTicket s tag out) tag 0 out := by
  obtain ⟨hsub, hfail, hwarn, hreset, hkey, hflush⟩ := hclean
  obtain ⟨t, hrun, hsbx, -⟩ := ackTicket_finishes he out
  obtain ⟨hgone, hposted⟩ := finishTicket_device (s := setEntry t tag { e with acked := true, out := out })
    (entryOf_setEntry_same ..) hsub ((congrArg Sbx.flushMode hsbx).trans hflush) hreset
  rw [hrun]
  refine ⟨hgone, _, hposted.trans (congrArg (·.posted ++ _) hsbx), rfl, ?_, ?_⟩ <;>
    simp [completionOf, finalStatus, hreset, hkey, hfail, hwarn, hr]

theorem endOut_of_last (he : entryOf s tag = some e) (hlast : isLast s e step = true) :
    endOut s tag step u out false = ackTicket s tag out := by
  simp [endOut, he, hlast]

theorem durable_ends (hs : startWaits s 189 tag j first len e y rest) (hk : stepKind y = 0x11) (hm : y.mode = 2)
    (hw : worksNow s 189 = true) (hdur : durableTo s e.mark = true) (hall : portionsOf e.t ≤ e.admitted)
    (hlen : e.t.len ≤ (ctxOf s tag j).inBytes + len) (hlast : isLast s e j = true) (hclean : cleanTicket s e) :
    Nexts (exec .durable s) (fun t => endedWith s t tag 0 0) := by
  let t := portionTaken (setInbox s 189 rest) tag j len
  have htaken : allTaken t e tag j = true := by
    rw [allTaken, inBytes_portionTaken, Bool.and_eq_true_iff]
    exact ⟨decide_eq_true hall, decide_eq_true hlen⟩
  have hrun : exec .durable s = .next (endOut t tag j 189 0 false) := by
    change execDurable s = _
    rw [execDurable, serveFront_start hs hk (by simp [hm]) hw]
    exact congrArg Host.Outcome.next ((if_pos hdur).trans (if_pos htaken))
  obtain ⟨-, he, -, hr, -⟩ := hs
  refine ⟨_, hrun, ?_⟩
  change endedWith s (endOut (portionTaken (setInbox s 189 rest) tag j len) tag j 189 0 false) tag 0 0
  rw [portionTaken_of_entry (s := setInbox s 189 rest) he, endOut_of_last (entryOf_setEntry_same ..)]
  · exact ackTicket_ends (entryOf_setEntry_same ..) hr hclean
  · exact hlast

theorem durable_waits (hs : startWaits s 189 tag j first len e y rest) (hk : stepKind y = 0x11) (hm : y.mode = 2)
    (hw : worksNow s 189 = true) (hdur : durableTo s e.mark = false) :
    Nexts (exec .durable s) (fun t => entryOf t tag = some e ∧ inboxOf t 189 = rest ++ [.start tag j first len]) := by
  refine ⟨enqueue (setInbox s 189 rest) 189 (.start tag j first len), ?_, ?_⟩
  · change execDurable s = _
    rw [execDurable, serveFront_start hs hk (by simp [hm]) hw]
    exact congrArg Host.Outcome.next (if_neg (Bool.eq_false_iff.mp hdur))
  · obtain ⟨-, he, -⟩ := hs
    refine ⟨he, ?_⟩
    rw [enqueue, inboxOf_setInbox_same, inboxOf_setInbox_same]

/-! ## READ_WRITE_BACK (R289, R291) -/

/-- The signal box without what the staged slots count in (R152, R163). -/
def Sbx.lasting (b : Sbx) : Sbx := { b with stagingRoom := 0, dirty := 0 }

theorem freeStaged_sbx (s : State) (n : Nat) : (freeStaged s n).sbx.lasting = s.sbx.lasting := by
  unfold freeStaged
  split <;> rfl

theorem dropStaged_sbx (s : State) (idx : Nat) (discard : Bool) : (dropStaged s idx discard).sbx.lasting = s.sbx.lasting := by
  unfold dropStaged
  split
  · rfl
  · dsimp -proj only
    split
    · rfl
    · split
      · exact freeStaged_sbx ..
      · split <;> rfl

/-- Slot `n`, which a ticket has just staged, holds the unit (R289). -/
theorem stageCached_stages (s : State) (b idx cls : Nat) (bs : Bytes) (room : Nat) (dirty : Bool) :
    (stageCached s b idx cls bs room dirty).sbx.lasting = s.sbx.lasting ∧
      Tab.get? (stageCached s b idx cls bs room dirty).ftl.stagedAt idx = some s.ftl.nextStaged ∧
      ∃ kib, Tab.get? (stageCached s b idx cls bs room dirty).ftl.staging s.ftl.nextStaged =
        some { idx := idx, buffer := b, cls := cls, bytes := bs, room := room, dirty := dirty, kib := kib } := by
  have hnext : (dropStaged s idx false).ftl.nextStaged = s.ftl.nextStaged :=
    (dropStaged_unplaced s idx false).coarser Ftl.nextStaged (fun _ => rfl)
  have hcached := cachePage_uncached (stageUnit s b idx cls bs room dirty) (mapKey 2 (idx / 512))
  have hplaces : (stageCached s b idx cls bs room dirty).ftl.stagedAt = (stageUnit s b idx cls bs room dirty).ftl.stagedAt :=
    hcached.coarser Ftl.stagedAt (fun _ => rfl)
  have hslots : (stageCached s b idx cls bs room dirty).ftl.staging = (stageUnit s b idx cls bs room dirty).ftl.staging :=
    hcached.coarser Ftl.staging (fun _ => rfl)
  rw [hplaces, hslots, ← hnext]
  refine ⟨?_, Tab.get?_set_same .., _, Tab.get?_set_same ..⟩
  rw [stageCached, (cachePage_keeps ..).sbx rfl]
  exact dropStaged_sbx s idx false

/-- A row that `p` lets stay is found again. -/
theorem get?_keep_of_get? {α : Type} {l : Tab α} {p : Nat → α → Bool} {v : α} (h : Tab.get? l k = some v)
    (hp : p k v = true) :
    Tab.get? (Tab.keep l p) k = some v := by
  induction l with
  | nil => exact nomatch h
  | cons r l ih =>
    obtain ⟨i, w⟩ := r
    rw [Tab.get?] at h
    rw [Tab.keep, List.filter_cons]
    by_cases hik : i = k
    · obtain rfl : w = v := by simpa [hik] using h
      simp [hik, hp, Tab.get?]
    · have hl := ih (by simpa [hik] using h)
      split <;> simpa [Tab.get?, Tab.keep, hik] using hl

/-- A staged slot that no ticket holds stays when a ticket ends. -/
theorem get?_releasedSlots {l : Tab Staged} {x : Staged} (h : Tab.get? l n = some x) (htag : x.tag = none)
    (hsent : x.sent = none) :
    Tab.get? (releasedSlots l tag) n = some x := by
  rw [releasedSlots, Tab.get?_mapVals', get?_keep_of_get? h (by simp [htag])]
  simp [hsent]

theorem finishTicket_staging (he : entryOf s tag = some e) (hsub : e.sub = .device) (hflush : s.sbx.flushMode = false)
    (hreset : e.instReset = false) : (finishTicket s tag).ftl.staging = releasedSlots s.ftl.staging tag := by
  have hposts : posts (countEnd s e) e = true := by simp [posts, countEnd, hflush, hreset]
  have hend : finishTicket s tag =
      freeTicket { countEnd s e with sbx := { s.sbx with posted := s.sbx.posted ++ [completionOf tag e] } } tag e := by
    simp only [finishTicket, finishPlain, he, hposts, hsub, Bool.not_true, Bool.false_eq_true, if_false]
    rfl
  rw [hend, freeTicket_ftl]
  rfl

theorem ackTicket_staging (he : entryOf s tag = some e) (hclean : cleanTicket s e) :
    (ackTicket s tag out).ftl.staging = releasedSlots s.ftl.staging tag := by
  obtain ⟨hsub, -, -, hreset, -, hflush⟩ := hclean
  obtain ⟨t, hrun, hsbx, hftl⟩ := ackTicket_finishes he out
  rw [hrun, finishTicket_staging (s := setEntry t tag { e with acked := true, out := out }) (entryOf_setEntry_same ..) hsub
    ((congrArg Sbx.flushMode hsbx).trans hflush) hreset]
  exact congrArg (releasedSlots ·.staging tag) hftl

/-- The unit that a WRITE_BACK step holds is staged in buffer `u - 186` (R289). -/
def Staged.Holds (x : Staged) (u : Nat) (h : Packet) (dirty : Bool) : Prop :=
  x.idx = stIndex h.station ∧ x.buffer = u - 186 ∧ x.cls = packetClass h ∧ x.bytes = h.data ∧ x.dirty = dirty

theorem stageHeld_of_one (he : entryOf s tag = some e) (hheld : (ctxOf s tag step).held = [h]) :
    ∃ t room kib x, stageHeld s u tag step = setEntry t tag { e with room := room, dirtyKib := kib, out := 4096 } ∧
      t.sbx.lasting = s.sbx.lasting ∧ Tab.get? t.ftl.stagedAt (stIndex h.station) = some s.ftl.nextStaged ∧
      Tab.get? t.ftl.staging s.ftl.nextStaged = some x ∧ x.Holds u h (lineOf s e.t.line).dirty ∧
      x.tag = none ∧ x.sent = none := by
  obtain ⟨hsbx, hplace, kib, hslot⟩ := stageCached_stages s (u - 186) (stIndex h.station) (packetClass h) h.data
    (e.room / max 1 (ceilDiv e.t.len 4096)) (lineOf s e.t.line).dirty
  rw [stageHeld, he, hheld]
  dsimp only
  rw [List.foldl_cons, List.foldl_nil, List.length_singleton, Nat.mul_one]
  exact ⟨_, _, _, _, rfl, hsbx, hplace, hslot, ⟨rfl, rfl, rfl, rfl, rfl⟩, rfl, rfl⟩

/-- The ticket of the last step ends with DONE, and what it has staged stays. -/
theorem endOut_keeps_staged {x : Staged} (he : entryOf s tag = some e) (hlast : isLast s e step = true)
    (hr : e.revoking = false) (hclean : cleanTicket s e) (hplace : Tab.get? s.ftl.stagedAt k = some n)
    (hslot : Tab.get? s.ftl.staging n = some x) (htag : x.tag = none) (hsent : x.sent = none) :
    endedWith s (endOut s tag step u out false) tag 0 out ∧
      Tab.get? (endOut s tag step u out false).ftl.stagedAt k = some n ∧
      Tab.get? (endOut s tag step u out false).ftl.staging n = some x := by
  rw [endOut_of_last he hlast, ackTicket_staging he hclean,
    (ackTicket_lasting s tag out).coarser Ftl.stagedAt (fun _ => rfl)]
  exact ⟨ackTicket_ends he hr hclean, hplace, get?_releasedSlots hslot htag hsent⟩

theorem readWriteBack_stages (hq : inboxOf s u = .pkt pk :: rest) (hend : pk.endTok = true) (hprov : pk.prov = false)
    (he : entryOf s pk.tag = some e) (hf : e.fenced = false) (hr : e.revoking = false)
    (hy : (stepsOf s e)[pk.step]? = some y) (hk : stepKind y = 0x0F) (hm : y.mode = 0) (hw : worksNow s u = true)
    (hlast : isLast s e pk.step = true) (htok : tokenReady s pk pk.step = true) (hheld : (ctxOf s pk.tag pk.step).held = [h])
    (hclean : cleanTicket s e) :
    Nexts (exec (.readWriteBack u) s) (fun t => endedWith s t pk.tag 0 4096 ∧
      Tab.get? t.ftl.stagedAt (stIndex h.station) = some s.ftl.nextStaged ∧
      ∃ x, Tab.get? t.ftl.staging s.ftl.nextStaged = some x ∧ x.Holds u h (lineOf s e.t.line).dirty) := by
  have hrun : exec (.readWriteBack u) s =
      .next (endOut (stageHeld (setInbox s u rest) u pk.tag pk.step) pk.tag pk.step u 4096 false) := by
    change execReadWriteBack u s = _
    rw [execReadWriteBack, serveFront_packet hq he hf hr hy hk (by simp [hm]) hw]
    dsimp only
    rw [if_neg (by simp [hend]), show (ctxOf (setInbox s u rest) pk.tag pk.step).held = [h] from hheld]
    exact congrArg Host.Outcome.next ((if_neg (ne_true_of_eq_false (congrArg (!·) htok))).trans (if_neg (by simp [hprov])))
  obtain ⟨t, room, kib, x, hstage, hsbx, hplace, hslot, hx, htag, hsent⟩ :=
    stageHeld_of_one (s := setInbox s u rest) (u := u) he hheld
  obtain ⟨v, hv⟩ : ∃ v, v = setEntry t pk.tag { e with room := room, dirtyKib := kib, out := 4096 } := ⟨_, rfl⟩
  have hcfg : v.cfg = s.cfg := by rw [hv, ← hstage, (stageHeld_keeps ..).cfg rfl]; rfl
  have hboxes := congrArg Sbx.posted hsbx
  have hmodes := congrArg Sbx.flushMode hsbx
  have hposted' : v.sbx.posted = s.sbx.posted := by rw [hv]; exact hboxes
  have hflush' : v.sbx.flushMode = s.sbx.flushMode := by rw [hv]; exact hmodes
  have hftl : v.ftl = t.ftl := hv ▸ rfl
  have hentry : entryOf v pk.tag = some { e with room := room, dirtyKib := kib, out := 4096 } := hv ▸ entryOf_setEntry_same ..
  obtain ⟨hsub, hfail, hwarn, hreset, hkey, hflush⟩ := hclean
  rw [← hftl] at hplace hslot
  obtain ⟨⟨hgone, y, hposted, hy⟩, hplace', hslot'⟩ := endOut_keeps_staged (u := u) (out := 4096) hentry
    ((isLast_congr hcfg ..).trans hlast) hr ⟨hsub, hfail, hwarn, hreset, hkey, hflush'.trans hflush⟩ hplace hslot htag hsent
  refine ⟨_, hrun, ?_⟩
  rw [hstage, ← hv]
  exact ⟨⟨hgone, y, hposted.trans (congrArg (· ++ _) hposted'), hy⟩, hplace', x, hslot', hx⟩

end

section
variable {s t : State} {e : Entry} {y : LStep} {rest : List Work} {tag j first len : Nat} {x : Secure} {failing : List Nat}
  {answer : SecureEnv}

open SameFtl

/-! ## SECURE_DEALLOCATE (R331, R333) -/

/-- The secure discard `x` is at step 5 with the groups of its set; nothing else is pending. -/
theorem secureBegin_secures (h : s.ftl.secures = [x]) (failing : List Nat) (tiers : List (Nat × Nat)) :
    ∃ groups, (secureBegin s x failing tiers).ftl.secures = [{ x with step := 5, groups := groups }] := by
  have hflushed : SameFtl Ftl.secures s (flushPages (flushPages s false []) true []) :=
    after (flushPages_secures _ _ _) (flushPages_secures s _ _)
  have hclosed (t : State) (g : Nat) :
      SameFtl Ftl.secures t (if (bgOf t g).state = .opened then closeGroup t g else t) := ite (closeGroup_secures t g) (refl t)
  have hcopied (l : List Nat) : SameFtl Ftl.secures s (runCkpt (l.foldl (fun s g => copyGroup s g failing tiers)
      (l.foldl (fun s g => if (bgOf s g).state = .opened then closeGroup s g else s)
        (flushPages (flushPages s false []) true []))) false) :=
    after (runCkpt_secures _) (foldl (fun t g => copyGroup_secures t g _ _) (foldl hclosed hflushed))
  refine ⟨secureGroups (flushPages (flushPages s false []) true []) x.ns, ?_⟩
  unfold secureBegin
  dsimp -proj only
  rw [setFtl_ftl]
  dsimp only
  rw [(hcopied _).trans h, List.map_singleton, if_pos rfl]

/-- The one pending discard either ends, or waits for a group that may not yet be erased. -/
theorem secureErase_secures (h : s.ftl.secures = [x]) (hx : x.step = 5) :
    ∀ z ∈ (secureErase s x).ftl.secures, z = x ∧ x.groups.all (eraseReady (secureErase s x)) = false := by
  by_cases hready : x.groups.all (eraseReady s) = true
  · have hgone : (secureErase s x).ftl.secures = [] := by
      have herased (lost : List Nat) (paid : Bool) : (secureRetired (x.groups.foldl (secureEraseGroup x) s) x.groups lost
          paid).1.ftl.secures = [x] :=
        (after (secureRetired_secures ..) (foldl (secureEraseGroup_secures x) (refl s))).trans h
      have hdone {t : State} (ht : t.ftl.secures = [x]) :
          (retryStalled (setFtl t { t.ftl with secures := t.ftl.secures.filter (· != x) })).ftl.secures = [] :=
        (retryStalled_secures _).trans (by simp [setFtl, ht])
      unfold secureErase
      rw [if_pos ⟨hx, hready⟩]
      dsimp -proj only
      split
      · exact hdone (herased ..)
      · split
        · exact hdone (herased ..)
        · split
          · exact (failAt_secures ..).trans (hdone (herased ..))
          · exact (endOut_secures ..).trans (hdone (herased ..))
    rw [hgone]
    exact fun z hz => nomatch hz
  · have hwaits : secureErase s x = s := if_neg (fun hall => hready hall.2)
    rw [hwaits, h]
    exact fun z hz => ⟨List.mem_singleton.mp hz, Bool.eq_false_iff.mpr hready⟩

theorem resumeSecures_secures (h : s.ftl.secures = [x]) (hx : x.step = 5) :
    ∀ z ∈ (resumeSecures s).ftl.secures, z = x ∧ x.groups.all (eraseReady (resumeSecures s)) = false := by
  rw [resumeSecures, h]
  exact secureErase_secures h hx

/-- The secure discard of a ticket whose last portion has come (R331 step 2). -/
def secureOf (e : Entry) (tag : Nat) (answer : SecureEnv) : Secure := {
  ns := e.t.source.ns, first := e.t.source.addr, units := ceilDiv e.t.len 4096, step := 2, tag := some tag,
  lost := answer.lost, eraseFails := answer.eraseFails }

theorem secureDeallocate_waits (hs : startWaits s 189 tag j first len e y rest) (hk : stepKind y = 0x11) (hm : y.mode = 1)
    (hw : worksNow s 189 = true) (hro : s.ftl.state ≠ .readOnly) (hnone : s.ftl.secures = []) :
    Nexts (exec (.secureDeallocate failing answer) s) (fun t => ∀ z ∈ t.ftl.secures,
      z.ns = e.t.source.ns ∧ z.tag = some tag ∧ z.step = 5 ∧ z.groups.all (eraseReady t) = false) := by
  let t := portionTaken (deallocRange (setInbox s 189 rest) e (first / 4096) (ceilDiv len 4096)) tag j len
  let v := setFtl (commitHeld t) { (commitHeld t).ftl with secures := (commitHeld t).ftl.secures ++ [secureOf e tag answer] }
  have hsettled : SameFtl Ftl.settled s t :=
    after (of_ftl (portionTaken_ftl ..)) (deallocRange_settled (setInbox s 189 rest) e _ _)
  have hheld : SameFtl Ftl.settled s (commitHeld t) := after (commitAll_settled _ t) hsettled
  have hstate : v.ftl.state ≠ .readOnly := fun hv => hro ((congrArg Prod.fst hheld).symm.trans hv)
  have hsecures : v.ftl.secures = [secureOf e tag answer] :=
    congrArg (· ++ [secureOf e tag answer]) ((congrArg Prod.snd hheld).trans hnone)
  have hrun : exec (.secureDeallocate failing answer) s = .next (if allTaken t e tag j then
      resumeSecures (secureBegin v (secureOf e tag answer) failing answer.tiers) else t) := by
    change execSecureDeallocate failing answer s = _
    rw [execSecureDeallocate, serveFront_start hs hk (by simp [hm]) hw, mapStep_start]
    exact congrArg Host.Outcome.next (if_congr Iff.rfl (if_neg (fun hfull => hstate hfull.1)) rfl)
  refine ⟨_, hrun, ?_⟩
  split
  · obtain ⟨groups, hbegun⟩ := secureBegin_secures hsecures failing answer.tiers
    intro z hz
    obtain ⟨rfl, hwaits⟩ := resumeSecures_secures hbegun rfl z hz
    exact ⟨rfl, rfl, rfl, hwaits⟩
  · have hempty : t.ftl.secures = [] := (congrArg Prod.snd hsettled).trans hnone
    rw [hempty]
    exact fun z hz => nomatch hz

end

/-- Settles O37: READ, READ_RAW, held packets and their placing, READ_WRITE_BACK, WRITE_THROUGH, DRAIN, DEALLOCATE and
SECURE_DEALLOCATE, DURABLE and MAP_WRITE, one lemma for each clause. -/
theorem flashStationsReadStageWriteAndDiscard : Obligations.FlashStationsReadStageWriteAndDiscard := by
  unfold Obligations.FlashStationsReadStageWriteAndDiscard
  intro s u ch tag j n first len d idx q cls tail e y rest pk raw bs failing lost
  refine ⟨fun hs hk hm hw hn hd => ?_, fun hs hk hm hw hn href hprog herase => ?_, fun hs hk hm hw hn hd href => ?_,
    fun hp hro hfits => ?_, fun pg h x hq hend hprov he hf hr hy hk hw htok hheld hdest hx hkind hroom => ?_,
    fun h _ hq hend hprov he hf hr hy hk hm hw hlast htok hheld hclean =>
      readWriteBack_stages hq hend hprov he hf hr hy hk hm hw hlast htok hheld hclean,
    writeThrough_passes, fun k x l => drain_sends, fun hs hk hw hroom => ?_,
    fun hs hk hm hw hro _ _ hnone => secureDeallocate_waits hs hk hm hw hro hnone, fun hs hk hm hw => ?_,
    fun kind page l => mapWrite_sends⟩
  · subst hn
    exact ⟨read_unmapped hs hk hm hw hd, read_staged hs hk hm hw hd⟩
  · subst hn
    exact read_flash hs hk hm hw href hprog herase
  · subst hn
    exact readRaw_sends hs hk hm hw hd href
  · have hheld {mode : Nat} (hk : stepKind y = 0x01) (hm : y.mode = mode) (hw : mayIssue (chanOf s ch) = true) :
        (.next (writeServe s ch mode) : Out) = .next (holdPacket (setInbox s ch rest) pk.tag pk.step pk) :=
      congrArg Host.Outcome.next (writeServe_holds hp hro hfits hk hm hw)
    exact ⟨fun hk hm hw => ⟨_, hheld hk hm hw, holdPacket_holds ..⟩,
      fun hk hm hw => ⟨_, hheld hk hm hw, holdPacket_holds ..⟩,
      fun hk hm hw => ⟨_, readWriteBack_holds hp hro hfits hk hm hw, holdPacket_holds ..⟩⟩
  · have hplaced {mode : Nat} (hm : y.mode = mode) (hpage : curPage s ch (mode == 2) = some pg) :=
      writeServe_places hq hend hprov he hf hr hy hk hm hw htok hheld hdest hx hkind hroom hpage
    exact ⟨fun hm hpage => ⟨_, rfl, hplaced hm hpage⟩, fun hm hpage => ⟨_, rfl, hplaced hm hpage⟩⟩
  · exact ⟨deallocate_unmaps hs hk hw hroom, secureDeallocate_unmaps hs hk hw hroom⟩
  · exact ⟨durable_ends hs hk hm hw, durable_waits hs hk hm hw⟩

end Sys2Proof.Machine
end

section
/-! SUPPORT. A ticket that its station fails, and what the ends of other tickets leave of it (04_lines_and_signal_box.md, R173,
R175; 23_test_and_availability.md, R735). -/

namespace Sys2Proof.Machine

variable {s : State} {e : Entry} {tag other step u status : Nat}

/-! ## The end of one ticket leaves every other in the store -/

theorem entryOf_modEntry_other (h : tag ≠ other) (f : Entry → Entry) :
    entryOf (modEntry s other f) tag = entryOf s tag := by
  rw [entryOf_modEntry, if_neg h]

theorem entryOf_report_other (h : tag ≠ other) (unit status : Nat) :
    entryOf (report s other unit status) tag = entryOf s tag := by
  unfold report
  generalize (if status < 0x12 then status else 0x10) = st
  dsimp only
  split
  · rfl
  · exact entryOf_modEntry_other h _

theorem entryOf_freeTicket_other (h : tag ≠ other) (e : Entry) :
    entryOf (freeTicket s other e) tag = entryOf s tag := by
  rw [entryOf, freeTicket_sbx]
  exact (Tab.get?_erase ..).trans (if_neg h)

theorem entryOf_finishTicket_other (h : tag ≠ other) : entryOf (finishTicket s other) tag = entryOf s tag := by
  have hfree {t : State} (x : Entry) (ht : t.sbx.store = s.sbx.store) :
      entryOf (freeTicket t other x) tag = entryOf s tag :=
    (entryOf_freeTicket_other h x).trans (congrArg (Tab.get? · tag) ht)
  unfold finishTicket finishPlain
  split
  · rfl
  · next x _ =>
    dsimp only
    split
    · exact hfree x rfl
    · split
      · split
        · exact hfree x rfl
        · split
          · exact (entryOf_setEntry ..).trans (if_neg h)
          · exact hfree x (by rw [(cqWrite_keeps ..).sbx rfl]; rfl)
      · exact (entryOf_congr ((nvmeTicketDone_keeps ..).sbx rfl) tag).trans (hfree x rfl)
      · exact (entryOf_congr ((junctionDone_keeps ..).sbx rfl) tag).trans (hfree x rfl)
      · exact hfree x rfl

theorem entryOf_ackTicket_other (h : tag ≠ other) (out : Nat) :
    entryOf (ackTicket s other out) tag = entryOf s tag := by
  unfold ackTicket
  refine (entryOf_finishTicket_other h).trans ((entryOf_modEntry_other h _).trans ?_)
  split
  · split <;> rfl
  · rfl

theorem entryOf_failAt_other (h : tag ≠ other) : entryOf (failAt s other step u status) tag = entryOf s tag := by
  have hfailed : entryOf (engineFailed (report s other u status) u other status) tag = entryOf s tag :=
    (entryOf_congr ((engineFailed_keeps ..).sbx rfl) tag).trans (entryOf_report_other h ..)
  unfold failAt
  split
  · rfl
  · split
    · rfl
    · dsimp only
      split
      · exact (entryOf_ackTicket_other h _).trans ((entryOf_congr ((zeroWritten_keeps ..).sbx rfl) tag).trans
          ((entryOf_modEntry_other h _).trans hfailed))
      · exact (entryOf_modEntry_other h _).trans ((entryOf_congr ((engineCleared_keeps ..).sbx rfl) tag).trans
          ((entryOf_congr ((sendToken_keeps ..).sbx rfl) tag).trans hfailed))

/-! ## An engine that is reported for test spares the ticket of the report (R735) -/

theorem entryOf_endInside_except (s : State) (u tag : Nat) : entryOf (endInside s u (some tag)) tag = entryOf s tag := by
  unfold endInside
  refine List.foldlRecOn (motive := fun t => entryOf t tag = entryOf s tag) _ _ rfl (fun t ht other hmem => ?_)
  have hother : tag ≠ other := fun heq => by simp [heq] at hmem
  split
  · exact (entryOf_failAt_other hother).trans ht
  · exact ht

theorem entryOf_reportUnit (s : State) (u tag : Nat) : entryOf (reportUnit s u (some tag)) tag = entryOf s tag := by
  unfold reportUnit
  dsimp only
  split
  · rfl
  · split
    · exact (entryOf_congr ((unitState_keeps ..).sbx rfl) tag).trans (entryOf_endInside_except ..)
    · exact entryOf_congr ((queueReport_keeps ..).sbx rfl) tag

theorem entryOf_countMismatch (s : State) (u limit tag : Nat) :
    entryOf (countMismatch s u limit (some tag)) tag = entryOf s tag := by
  unfold countMismatch
  dsimp only
  split
  · exact entryOf_reportUnit ..
  · rfl

/-! ## A failure at a station that is not the last (R173, R181) -/

/-- The entry of a ticket that fails with `status`: a failure stands where it is the first. -/
def Entry.failing (e : Entry) (status unit : Nat) : Entry :=
  if e.fail.isNone then { e with fail := some (status, unit) } else e

theorem report_failure (he : entryOf s tag = some e) (h4 : 4 < status) (h : status < 0x12) (unit : Nat) :
    report s tag unit status = setEntry s tag (e.failing status unit) := by
  have hwarn : ¬(status = 2 ∨ status = 3 ∨ status = 4) := by omega
  have hpos : status ≠ 0 := by omega
  simp [report, h, hpos, hwarn, modEntry_of_entry he, Entry.failing]

/-- What a failure leaves: the ticket is being revoked with its status, and revoke tokens alone have been sent. -/
def Failed (s : State) (e : Entry) (tag status unit : Nat) (t : State) : Prop :=
  failedWith t e tag status unit ∧ ∃ l, t.dev.trunk = s.dev.trunk ++ l ∧ ∀ q ∈ l, q.revoke = true

theorem failAt_fails (he : entryOf s tag = some e) (hr : e.revoking = false) (hlast : isLast s e step = false)
    (h4 : 4 < status) (h : status < 0x12) : Failed s e tag status u (failAt s tag step u status) := by
  obtain ⟨t, ht⟩ : ∃ t, t = engineFailed (setEntry s tag (e.failing status u)) u tag status := ⟨_, rfl⟩
  have hkeeps : Keeps 16 (setEntry s tag (e.failing status u)) t := ht ▸ engineFailed_keeps ..
  have hlast' : isLast t e step = false := (isLast_congr (hkeeps.cfg rfl) e step).trans hlast
  have hrun : failAt s tag step u status =
      modEntry (engineCleared (sendToken t e tag step u 0 false true) u tag step) tag
        (fun e => { e with revoking := true, waiting := false }) := by
    simp only [failAt, he, hr, report_failure he h4 h, ← ht, hlast', Bool.false_eq_true, if_false]
  have hentry : entryOf (engineCleared (sendToken t e tag step u 0 false true) u tag step) tag = some (e.failing status u) := by
    rw [entryOf_congr ((engineCleared_keeps ..).sbx rfl), entryOf_congr ((sendToken_keeps ..).sbx rfl),
      entryOf_congr (hkeeps.sbx rfl), entryOf_setEntry_same]
  rw [hrun]
  refine ⟨⟨_, entryOf_modEntry_of_entry hentry _, rfl, ?_⟩,
    (unitsAt t e (step + 1)).map (tokenTo t e tag step u 0 false true), ?_, fun q hq => ?_⟩
  · dsimp only [Entry.failing]
    split <;> rfl
  · rw [(modEntry_keeps ..).dev rfl, (engineCleared_keeps ..).dev rfl, trunk_sendToken, hkeeps.dev rfl]
    rfl
  · obtain ⟨d, -, rfl⟩ := List.mem_map.mp hq
    rfl

/-- Nothing but revoke tokens has joined the trunk. -/
theorem Failed.trunk_data {t : State} (h : Failed s e tag status u t) :
    t.dev.trunk.filter (fun q => !q.revoke) = s.dev.trunk.filter (fun q => !q.revoke) := by
  obtain ⟨-, l, hl, hrevoke⟩ := h
  have hnone : l.filter (fun q => !q.revoke) = [] := List.filter_eq_nil_iff.mpr (fun q hq => by simp [hrevoke q hq])
  rw [hl, List.filter_append, hnone, List.append_nil]

end Sys2Proof.Machine
end

section
/-! SUPPORT and O38. The compression engines (07_translation_and_recovery.md, R272–R274; 09_compression.md, R348–R358). -/

namespace Sys2Proof.Machine

section
variable {s t r : State} {e : Entry} {y : LStep} {rest : List Work} {p : Packet} {u d tag step n mode status : Nat}
  {ok prov : Bool} {bs : Bytes} {answers : List (Option Bytes × Option Bytes)} {station : Nat}

/-! ## An engine takes a data packet -/

/-- What an engine in `mode` does with a data packet. -/
def cmpData (s : State) (u mode tag step : Nat) (e : Entry) (p : Packet) (ok : Bool)
    (answers : List (Option Bytes × Option Bytes)) : State :=
  match mode with
  | 0 => slotCompressData s u tag step e p ok
  | 1 => slotDecompressData s u tag step e p (answers.headD (none, none))
  | 2 => streamCompressData s u tag step e p ok
  | _ => streamDecompressData s u tag step e p answers

theorem cmpServe_packet (hp : packetWaits s u p e y rest) (hk : stepKind y = 0x06) (hw : worksNow s u = true)
    (hm : y.mode = mode) (ok : Bool) (answers : List (Option Bytes × Option Bytes)) :
    cmpServe s u mode ok answers = cmpData (setInbox s u rest) u mode p.tag p.step e p ok answers := by
  obtain ⟨hq, hend, he, hf, hr, hy⟩ := hp
  rw [cmpServe, serveFront_packet hq he hf hr hy hk (by simp [hm]) hw]
  dsimp only
  rw [if_neg (by simp [hend])]
  rfl

/-- `t` is `s` with an engine's queue advanced to `rest`, and perhaps with other counters and contexts: the ticket that the
engine serves has entry `e`, and nothing has been sent. -/
structure Serving (s : State) (u tag : Nat) (e : Entry) (rest : List Work) (t : State) : Prop where
  cfg : t.cfg = s.cfg
  dev : t.dev = s.dev
  queue : inboxOf t u = rest
  entry : entryOf t tag = some e

namespace Serving

theorem taken (he : entryOf s tag = some e) : Serving s u tag e rest (setInbox s u rest) :=
  ⟨rfl, rfl, inboxOf_setInbox_same .., he⟩

theorem withCtx (h : Serving s u tag e rest t) (c : Ctx) : Serving s u tag e rest (setCtx t tag step c) :=
  ⟨h.cfg, h.dev, h.queue, h.entry⟩

/-- Registers make no difference. -/
theorem counted (h : Serving s u tag e rest t) (k : Keeps 16 t r) : Serving s u tag e rest r :=
  ⟨(k.cfg rfl).trans h.cfg, (k.dev rfl).trans h.dev, (inboxOf_congr (k.stn rfl) u).trans h.queue,
    (entryOf_congr (k.sbx rfl) tag).trans h.entry⟩

/-- A report may change the statuses that the ticket's entry holds. -/
theorem reported (h : Serving s u tag e rest t) (unit status : Nat) :
    ∃ fail warn, Serving s u tag { e with fail := fail, warn := warn } rest (report t tag unit status) := by
  obtain ⟨fail, warn, hentry⟩ := entryOf_report h.entry unit status
  have hkeeps : Keeps 64 t (report t tag unit status) := report_keeps ..
  exact ⟨fail, warn, (hkeeps.cfg rfl).trans h.cfg, (hkeeps.dev rfl).trans h.dev,
    (inboxOf_congr (hkeeps.stn rfl) u).trans h.queue, hentry⟩

end Serving

/-! ## Failures (R368) -/

/-- An engine's failure is counted in its registers, if at all. -/
theorem cmpFail_counts (s : State) (u tag step status : Nat) :
    ∃ r, Keeps 16 s r ∧ cmpFail s u tag step status = failAt r tag step u status := by
  refine ⟨_, ?_, rfl⟩
  split
  · exact bump_keeps ..
  · exact bump_keeps ..
  · exact bump_keeps ..
  · exact Keeps.refl ..

theorem Serving.cmpFail_fails (h : Serving s u tag e rest t) (hr : e.revoking = false) (hlast : isLast s e step = false)
    (h4 : 4 < status) (h12 : status < 0x12) : Failed s e tag status u (cmpFail t u tag step status) := by
  obtain ⟨r, hkeeps, hrun⟩ := cmpFail_counts t u tag step status
  have hserving := h.counted hkeeps
  have hfails := failAt_fails (u := u) hserving.entry hr ((isLast_congr hserving.cfg ..).trans hlast) h4 h12
  rw [Failed, hserving.dev] at hfails
  rw [hrun]
  exact hfails

/-- The ticket of a disagreement stays failed when the engine is reported for it (R349). -/
theorem Serving.cmpMismatch_fails (h : Serving s u tag e rest t) (hr : e.revoking = false)
    (hlast : isLast s e step = false) : failedWith (cmpMismatch t u tag step) e tag 0x07 u := by
  obtain ⟨⟨e', hentry, hfailed⟩, -⟩ := h.cmpFail_fails (status := 0x07) hr hlast (by omega) (by omega)
  exact ⟨e', (entryOf_countMismatch ..).trans hentry, hfailed⟩

/-! ## Mode 0: slots from units (R348–R350) -/

theorem buf_countCtx (s : State) (tag step inB outB : Nat) :
    (ctxOf (countCtx s tag step inB outB) tag step).buf = (ctxOf s tag step).buf :=
  (congrArg Ctx.buf (ctxOf_setCtx_same ..)).trans rfl

/-- Slot number `n` of the ticket is sent and counted. -/
def slotOut (s : State) (u tag step n : Nat) (bs : Bytes) (station : Nat) (prov : Bool) : State :=
  cmpCount (countCtx (sendData s tag step u n (4096 * n) bs station prov) tag step 0 bs.length) u tag 0 bs.length

/-- The context of an engine that has made one more slot. -/
def Ctx.nextSlot (c : Ctx) : Ctx := { c with count := c.count + 1 }

/-- `o` is what is left of `t` once the engine has made the next slot: its bytes `bs` go out with STATION `station`. The entry
of the ticket may have got a status besides. -/
def MakesSlot (s : State) (u tag step : Nat) (e : Entry) (rest : List Work) (t : State) (bs : Bytes) (station : Nat)
    (prov : Bool) (o : State) : Prop :=
  ∃ r fail warn, Serving s u tag { e with fail := fail, warn := warn } rest r ∧
    ctxOf r tag step = (ctxOf t tag step).nextSlot ∧ o = slotOut r u tag step (ctxOf t tag step).count bs station prov

theorem MakesSlot.sends {o : State} (h : MakesSlot s u tag step e rest t bs station prov o) (hf : e.fenced = false)
    (hr : e.revoking = false) (hd : ∀ n, unitAt s e (step + 1) n = some d) :
    inboxOf o u = rest ∧ (ctxOf o tag step).buf = (ctxOf t tag step).buf ∧ o.dev.trunk = s.dev.trunk ++
      [sentTo s e tag step u d (4096 * (ctxOf t tag step).count) bs station prov] := by
  obtain ⟨r, fail, warn, hr', hctx, rfl⟩ := h
  rw [slotOut, sendData_of_cfg (e := { e with fail := fail, warn := warn }) hr'.cfg hr'.entry hf hr (hd _)]
  exact ⟨hr'.queue, (buf_countCtx ..).trans ((congrArg Ctx.buf hctx).trans rfl), congrArg (·.trunk ++ _) hr'.dev⟩

theorem MakesSlot.of_counted (h : Serving s u tag e rest t)
    (k : Keeps 16 (setCtx t tag step (ctxOf t tag step).nextSlot) r) : MakesSlot s u tag step e rest t bs station prov
      (slotOut r u tag step (ctxOf t tag step).count bs station prov) :=
  ⟨r, e.fail, e.warn, (h.withCtx _).counted k, (ctxOf_congr (k.stn rfl) ..).trans (ctxOf_setCtx_same ..), rfl⟩

theorem compressUnit_of_fit {unit : Bytes} (h : Serving s u tag e rest t)
    (hcls : classFor (Config.lzCode unit).length ≠ 3) (hv : Config.lzDecode (Config.lzCode unit) = unit) :
    MakesSlot s u tag step e rest t (slotBytes (classFor (Config.lzCode unit).length) (Config.lzCode unit) unit)
      (slotStation (stIndex station) (classFor (Config.lzCode unit).length) true false) prov
      (compressUnit t u tag step e unit station prov true) := by
  rw [compressUnit]
  dsimp only
  rw [if_neg hcls, if_neg (by simp [verifies, hv])]
  refine MakesSlot.of_counted h ?_
  split <;> exact bump_keeps ..

/-- Whether a unit that does not fit is counted in the staging buffer, was noted before, or is reported, it is stored. -/
theorem compressUnit_of_noFit {unit : Bytes} (h : Serving s u tag e rest t)
    (hcls : classFor (Config.lzCode unit).length = 3) :
    MakesSlot s u tag step e rest t unit (slotStation (stIndex station) 3 true true) prov
      (compressUnit t u tag step e unit station prov ok) := by
  rw [compressUnit]
  dsimp only
  rw [if_pos hcls]
  split
  · exact MakesSlot.of_counted h ((bump_keeps ..).trans (bump_keeps ..))
  · split
    · exact MakesSlot.of_counted h (bump_keeps ..)
    · obtain ⟨fail, warn, hserving⟩ := ((h.withCtx (ctxOf t tag step).nextSlot).counted (bump_keeps _
        (cmpReg (setCtx t tag step (ctxOf t tag step).nextSlot) u tag Reg.CMP_ENG_CLASS23) 31 16 1)).reported u 0x04
      exact ⟨_, fail, warn, hserving,
        (ctxOf_congr ((report_keeps ..).stn rfl) ..).trans (ctxOf_setCtx_same t tag step _), rfl⟩

theorem compressUnit_of_mismatch {unit : Bytes} (h : Serving s u tag e rest t) (hr : e.revoking = false)
    (hlast : isLast s e step = false) (hcls : classFor (Config.lzCode unit).length ≠ 3)
    (hv : verifies (Config.lzCode unit) unit ok = false) :
    failedWith (compressUnit t u tag step e unit station prov ok) e tag 0x07 u := by
  rw [compressUnit]
  dsimp only
  rw [if_neg hcls, if_pos (by rw [hv]; rfl)]
  exact (h.withCtx _).cmpMismatch_fails hr hlast

/-- The context of an engine that has taken packet `p` and keeps `buf` of what it then has. -/
def Ctx.buffered (c : Ctx) (p : Packet) (buf : Bytes) : Ctx := { c with
  inBytes := c.inBytes + p.data.length, buf := buf, prov := c.prov || p.prov }

theorem compressUnits_of_rest (fuel : Nat) (h : (ctxOf s tag step).buf.length < 4096 ∨ stillRuns s tag = false) :
    compressUnits fuel s u tag step e p ok = s := by
  cases fuel with
  | zero => rfl
  | succ fuel =>
    rw [compressUnits]
    exact if_pos (h.imp_right (by simp [·]))

/-- A whole unit that comes to an empty buffer is compressed alone (R348). -/
theorem Serving.slotCompressData_whole (h : Serving s u tag e rest t) (hf : e.fenced = false) (hr : e.revoking = false)
    (hbuf : (ctxOf t tag step).buf = []) (hlen : p.data.length = 4096) :
    ∃ r, Serving s u tag e rest r ∧ (ctxOf r tag step).buf = [] ∧ (ctxOf r tag step).count = (ctxOf t tag step).count ∧
      slotCompressData t u tag step e p ok = compressUnits 2 (compressUnit r u tag step e p.data p.station
        ((ctxOf t tag step).prov || p.prov) ok) u tag step e p ok := by
  let c' : Ctx := { (ctxOf t tag step).buffered p p.data with station := p.station }
  let t' := cmpCount (setCtx t tag step c') u tag p.data.length 0
  have ht' : Serving s u tag e rest t' := (h.withCtx c').counted (cmpCount_keeps ..)
  have hctx : ctxOf t' tag step = c' := ctxOf_setCtx_same ..
  have hdrop : p.data.drop 4096 = [] := List.drop_eq_nil_of_le hlen.le
  have htake : p.data.take 4096 = p.data := List.take_of_length_le hlen.le
  refine ⟨setCtx t' tag step { c' with buf := p.data.drop 4096 }, ht'.withCtx _, ?_, ?_, ?_⟩
  · rw [ctxOf_setCtx_same]
    exact hdrop
  · rw [ctxOf_setCtx_same]
    rfl
  · have hstart : slotCompressData t u tag step e p ok = compressUnits 3 t' u tag step e p ok := by
      simp only [slotCompressData, hbuf, List.nil_append, List.isEmpty_nil, if_true]
      rfl
    rw [hstart, compressUnits, hctx, if_neg (by simp [c', Ctx.buffered, hlen, stillRuns_of_entry ht'.entry hf hr])]
    dsimp only [c', Ctx.buffered]
    rw [htake]

theorem stillRuns_of_failedWith (h : failedWith s e tag status u) : stillRuns s tag = false := by
  obtain ⟨e', he, hr, -⟩ := h
  simp [stillRuns, he, hr]

theorem slotCompress_takes (hp : packetWaits s u p e y rest) (hk : stepKind y = 0x06) (hm : y.mode = 0)
    (hw : worksNow s u = true) (hbuf : (ctxOf s p.tag p.step).buf = []) (hlen : p.data.length = 4096) (ok : Bool) :
    ∃ t, Serving s u p.tag e rest t ∧ (ctxOf t p.tag p.step).buf = [] ∧
      (ctxOf t p.tag p.step).count = (ctxOf s p.tag p.step).count ∧ exec (.slotCompress u ok) s =
        .next (compressUnits 2 (compressUnit t u p.tag p.step e p.data p.station ((ctxOf s p.tag p.step).prov || p.prov) ok)
          u p.tag p.step e p ok) := by
  obtain ⟨hq, hend, he, hf, hr, hy⟩ := hp
  obtain ⟨t, ht, hbuf', hcount, hrun⟩ := (Serving.taken (u := u) (rest := rest) he).slotCompressData_whole
    (step := p.step) (ok := ok) hf hr hbuf hlen
  exact ⟨t, ht, hbuf', hcount, congrArg Host.Outcome.next
    ((cmpServe_packet ⟨hq, hend, he, hf, hr, hy⟩ hk hw hm ok []).trans hrun)⟩

/-- SLOT_COMPRESS sends the slot that a whole unit becomes. -/
theorem slotCompress_sends (hp : packetWaits s u p e y rest) (hk : stepKind y = 0x06) (hm : y.mode = 0)
    (hw : worksNow s u = true) (hd : ∀ n, unitAt s e (p.step + 1) n = some d) (hbuf : (ctxOf s p.tag p.step).buf = [])
    (hlen : p.data.length = 4096)
    (hslot : ∀ t prov, Serving s u p.tag e rest t → MakesSlot s u p.tag p.step e rest t bs station prov
      (compressUnit t u p.tag p.step e p.data p.station prov ok)) :
    Nexts (exec (.slotCompress u ok) s) (fun t => inboxOf t u = rest ∧ t.dev.trunk = s.dev.trunk ++
      [sentTo s e p.tag p.step u d (4096 * (ctxOf s p.tag p.step).count) bs station
        ((ctxOf s p.tag p.step).prov || p.prov)]) := by
  obtain ⟨t, ht, hbuf', hcount, hrun⟩ := slotCompress_takes hp hk hm hw hbuf hlen ok
  obtain ⟨-, -, he, hf, hr, -⟩ := hp
  obtain ⟨hqueue, hrest, hsent⟩ := (hslot t _ ht).sends hf hr hd
  refine ⟨_, hrun, ?_⟩
  rw [compressUnits_of_rest 2 (Or.inl (by rw [hrest, hbuf']; decide)), ← hcount]
  exact ⟨hqueue, hsent⟩

theorem slotCompress_mismatch (hp : packetWaits s u p e y rest) (hk : stepKind y = 0x06) (hm : y.mode = 0)
    (hw : worksNow s u = true) (hlast : isLast s e p.step = false) (hbuf : (ctxOf s p.tag p.step).buf = [])
    (hlen : p.data.length = 4096) (hcls : classFor (Config.lzCode p.data).length ≠ 3)
    (hv : ok = false ∨ Config.lzDecode (Config.lzCode p.data) ≠ p.data) :
    Nexts (exec (.slotCompress u ok) s) (fun t => failedWith t e p.tag 0x07 u) := by
  obtain ⟨t, ht, -, -, hrun⟩ := slotCompress_takes hp hk hm hw hbuf hlen ok
  obtain ⟨-, -, he, hf, hr, -⟩ := hp
  have hfails := compressUnit_of_mismatch (station := p.station) (prov := (ctxOf s p.tag p.step).prov || p.prov) ht hr hlast
    hcls (show verifies (Config.lzCode p.data) p.data ok = false by rcases hv with hv | hv <;> simp [verifies, hv])
  refine ⟨_, hrun, ?_⟩
  rwa [compressUnits_of_rest 2 (Or.inr (stillRuns_of_failedWith hfails))]

/-! ## Mode 1: units from slots (R352, R353) -/

/-- The counts of a packet that a decompressing engine has taken. -/
def slotTaken (s : State) (u : Nat) (p : Packet) : State :=
  cmpCount (countCtx s p.tag p.step p.data.length 0) u p.tag p.data.length 0

theorem Serving.withSlotTaken (h : Serving s u p.tag e rest t) : Serving s u p.tag e rest (slotTaken t u p) :=
  (h.withCtx _).counted (cmpCount_keeps ..)

/-- The unit `bs` of slot packet `p` is sent and counted. -/
def slotOpened (s : State) (u : Nat) (p : Packet) (bs : Bytes) : State :=
  cmpCount (sendUnit s p.tag p.step u p bs (slotStation (stIndex p.station) 0 false false) p.prov) u p.tag 0 bs.length

theorem Serving.slotOpened_sends (h : Serving s u p.tag e rest t) (hf : e.fenced = false) (hr : e.revoking = false)
    (hd : unitAt s e (p.step + 1) (p.off / 4096) = some d) : (slotOpened t u p bs).dev.trunk = s.dev.trunk ++
      [sentTo s e p.tag p.step u d p.off bs (slotStation (stIndex p.station) 0 false false) p.prov] := by
  rw [slotOpened, sendUnit_of_cfg h.cfg h.entry hf hr hd]
  exact congrArg (·.trunk ++ _) h.dev

/-- Both decoders give what the data decodes to: it is good when its length and CHECK agree (R352, R353). -/
theorem decodeData_of_good {data : Bytes} {check : Nat} (hlen : (Config.lzDecode data).length = n)
    (hcheck : (crc32c (Config.lzDecode data)).toNat = check) :
    decodeData data n check (none, none) = .ok (Config.lzDecode data) false := by
  simp [decodeData, hlen, hcheck]

theorem slotDecompressData_class3 (hslot : stSlot p.station = true) (hcls : stClass p.station = 3)
    (hlen : p.data.length = 4096) (s : State) (u : Nat) (e : Entry) (faults : Option Bytes × Option Bytes) :
    slotDecompressData s u p.tag p.step e p faults = slotOpened (slotTaken s u p) u p p.data := by
  rw [slotDecompressData]
  dsimp only
  rw [if_neg (by simp [hslot, hcls, hlen, classBytes]), if_pos hcls]
  rfl

/-- The header of a slot of class 0 to 2 is well formed (R273). -/
def SlotHeadOk (p : Packet) : Prop :=
  leAt p.data 2 1 = 1 ∧ leAt p.data 3 1 = 0 ∧ 1 ≤ leAt p.data 0 2 ∧ 8 + leAt p.data 0 2 ≤ classBytes (stClass p.station)

theorem slotDecompressData_decodes {faults : Option Bytes × Option Bytes} (hslot : stSlot p.station = true)
    (hcls : stClass p.station ≠ 3) (hlen : p.data.length = classBytes (stClass p.station)) (hhead : SlotHeadOk p)
    (hdec : decodeData (slice p.data 8 (leAt p.data 0 2)) 4096 (leAt p.data 4 4) faults = .ok bs false) (s : State) (u : Nat)
    (e : Entry) : slotDecompressData s u p.tag p.step e p faults = slotOpened (slotTaken s u p) u p bs := by
  obtain ⟨hmethod, hzero, hmin, hmax⟩ := hhead
  rw [slotDecompressData]
  dsimp only
  rw [if_neg (by simp [hslot, hlen]), if_neg hcls, if_neg (by omega), hdec]
  rfl

theorem slotDecompressData_of_length (hlen : p.data.length ≠ classBytes (stClass p.station)) (s : State) (u : Nat)
    (e : Entry) (faults : Option Bytes × Option Bytes) :
    slotDecompressData s u p.tag p.step e p faults = cmpFail (slotTaken s u p) u p.tag p.step 0x10 :=
  if_pos (by simp [hlen])

theorem exec_slotDecompress (hp : packetWaits s u p e y rest) (hk : stepKind y = 0x06) (hm : y.mode = 1)
    (hw : worksNow s u = true) (first second : Option Bytes) : exec (.slotDecompress u first second) s =
      .next (slotDecompressData (setInbox s u rest) u p.tag p.step e p (first, second)) :=
  congrArg Host.Outcome.next (cmpServe_packet hp hk hw hm true [(first, second)])

/-- SLOT_DECOMPRESS sends the unit that a slot packet opens to. -/
theorem slotDecompress_sends (hp : packetWaits s u p e y rest) (hk : stepKind y = 0x06) (hm : y.mode = 1)
    (hw : worksNow s u = true) (hd : ∀ n, unitAt s e (p.step + 1) n = some d)
    (hopen : slotDecompressData (setInbox s u rest) u p.tag p.step e p (none, none) =
      slotOpened (slotTaken (setInbox s u rest) u p) u p bs) :
    Nexts (exec (.slotDecompress u none none) s) (fun t => t.dev.trunk = s.dev.trunk ++
      [sentTo s e p.tag p.step u d p.off bs (slotStation (stIndex p.station) 0 false false) p.prov]) := by
  refine ⟨_, (exec_slotDecompress hp hk hm hw none none).trans (congrArg Host.Outcome.next hopen), ?_⟩
  obtain ⟨-, -, he, hf, hr, -⟩ := hp
  exact (Serving.taken he).withSlotTaken.slotOpened_sends hf hr (hd _)

theorem slotDecompress_length_fails (hp : packetWaits s u p e y rest) (hk : stepKind y = 0x06) (hm : y.mode = 1)
    (hw : worksNow s u = true) (hlast : isLast s e p.step = false) (hlen : p.data.length ≠ classBytes (stClass p.station)) :
    Nexts (exec (.slotDecompress u none none) s) (Failed s e p.tag 0x10 u) := by
  refine ⟨_, exec_slotDecompress hp hk hm hw none none, ?_⟩
  obtain ⟨-, -, he, hf, hr, -⟩ := hp
  rw [slotDecompressData_of_length hlen]
  exact (Serving.taken he).withSlotTaken.cmpFail_fails hr hlast (by omega) (by omega)

/-! ## Output in packets (R158) -/

/-- The bytes `bs` of the ticket have joined the trunk, in packets of unit `u` to unit `d` with PROV set. -/
def SendsAll (s : State) (u d tag : Nat) (bs : Bytes) (t : State) : Prop :=
  ∃ l, t.dev.trunk = s.dev.trunk ++ l ∧ (l.map (·.data)).flatten = bs ∧
    ∀ q ∈ l, q.dest = d ∧ q.src = u ∧ q.tag = tag ∧ q.prov = true

/-- One packet of a stream's output goes out. -/
def sendChunk (s : State) (tag step u : Nat) (bs : Bytes) : State :=
  countCtx (sendData s tag step u ((ctxOf s tag step).outBytes / 4096) (ctxOf s tag step).outBytes bs 0 true) tag step 0 bs.length

theorem sendChunks_sends (hcfg : t.cfg = s.cfg) (he : entryOf t tag = some e) (hf : e.fenced = false) (hr : e.revoking = false)
    (hd : ∀ n, unitAt s e (step + 1) n = some d) (cs : List Bytes) :
    SendsAll t u d tag cs.flatten (cs.foldl (fun t c => sendChunk t tag step u c) t) ∧
      (ctxOf (cs.foldl (fun t c => sendChunk t tag step u c) t) tag step).buf = (ctxOf t tag step).buf := by
  induction cs generalizing t with
  | nil => exact ⟨⟨[], (List.append_nil _).symm, rfl, fun _ h => nomatch h⟩, rfl⟩
  | cons c cs ih =>
    let q := sentTo s e tag step u d (ctxOf t tag step).outBytes c 0 true
    have hchunk : sendChunk t tag step u c = countCtx (emit t q) tag step 0 c.length := by
      rw [sendChunk, sendData_of_cfg hcfg he hf hr (hd _)]
    obtain ⟨⟨l, hl, hdata, hall⟩, hbuf⟩ := ih (t := countCtx (emit t q) tag step 0 c.length) hcfg he
    rw [List.foldl_cons, hchunk]
    refine ⟨⟨q :: l, hl.trans (List.append_assoc t.dev.trunk [q] l), ?_, ?_⟩, hbuf.trans ?_⟩
    · rw [List.map_cons, List.flatten_cons, hdata]
      rfl
    · exact List.forall_mem_cons.mpr ⟨⟨rfl, rfl, rfl, rfl⟩, hall⟩
    · exact buf_countCtx ..

theorem Serving.sendOut_sends (h : Serving s u tag e rest t) (hf : e.fenced = false) (hr : e.revoking = false)
    (hd : ∀ n, unitAt s e (step + 1) n = some d) (bs : Bytes) :
    SendsAll s u d tag bs (sendOut t tag step u bs 0 true) ∧
      (ctxOf (sendOut t tag step u bs 0 true) tag step).buf = (ctxOf t tag step).buf := by
  have hsends := sendChunks_sends (u := u) h.cfg h.entry hf hr hd (chunks 4096 (bs.length / 4096 + 1) bs)
  rw [chunks_flatten _ (by omega), SendsAll, h.dev] at hsends
  exact hsends

/-! ## Mode 2: stream records from bytes (R354–R356) -/

theorem Serving.compressPiece_sends {piece : Bytes} (h : Serving s u tag e rest t) (hf : e.fenced = false)
    (hr : e.revoking = false) (hd : ∀ n, unitAt s e (step + 1) n = some d)
    (hv : Config.lzDecode (Config.lzCode piece) = piece)
    (hlimit : limitOf e = 0 ∨ (ctxOf t tag step).outBytes + (streamRecord piece).1.length ≤ limitOf e) :
    SendsAll s u d tag (streamRecord piece).1 (compressPiece t u tag step e piece true) := by
  rw [compressPiece, if_neg (by simp [verifies, hv]), if_neg (by omega)]
  exact (h.sendOut_sends hf hr hd _).1

/-- A whole piece that comes to an empty buffer becomes a record alone (R355). -/
theorem Serving.streamCompressData_whole (h : Serving s u tag e rest t) (hf : e.fenced = false) (hr : e.revoking = false)
    (hbuf : (ctxOf t tag step).buf = []) (hlen : p.data.length = 4096) :
    ∃ r, Serving s u tag e rest r ∧ (ctxOf r tag step).outBytes = (ctxOf t tag step).outBytes ∧
      streamCompressData t u tag step e p ok = compressPiece r u tag step e p.data ok := by
  let c' := (ctxOf t tag step).buffered p (p.data.drop (4096 * (p.data.length / 4096)))
  have hr' : Serving s u tag e rest (cmpCount (setCtx t tag step c') u tag p.data.length 0) :=
    (h.withCtx c').counted (cmpCount_keeps ..)
  have hpiece : chunks 4096 (p.data.length / 4096) p.data = [p.data] := by
    have hne : p.data ≠ [] := List.ne_nil_of_length_pos (by omega)
    simp [hlen, chunks, hne, List.take_of_length_le hlen.le]
  refine ⟨_, hr', (congrArg Ctx.outBytes (ctxOf_setCtx_same t tag step c')).trans rfl, ?_⟩
  rw [streamCompressData, hbuf, List.nil_append, hpiece]
  exact if_pos (stillRuns_of_entry hr'.entry hf hr)

/-- STREAM_COMPRESS sends the record of a whole piece. -/
theorem streamCompress_sends (hp : packetWaits s u p e y rest) (hk : stepKind y = 0x06) (hm : y.mode = 2)
    (hw : worksNow s u = true) (hd : ∀ n, unitAt s e (p.step + 1) n = some d) (hbuf : (ctxOf s p.tag p.step).buf = [])
    (hlen : p.data.length = 4096) (hv : Config.lzDecode (Config.lzCode p.data) = p.data)
    (hlimit : limitOf e = 0 ∨ (ctxOf s p.tag p.step).outBytes + (streamRecord p.data).1.length ≤ limitOf e) :
    Nexts (exec (.streamCompress u true) s) (SendsAll s u d p.tag (streamRecord p.data).1) := by
  refine ⟨_, congrArg Host.Outcome.next (cmpServe_packet hp hk hw hm true []), ?_⟩
  obtain ⟨-, -, he, hf, hr, -⟩ := hp
  obtain ⟨t, ht, hout, hrun⟩ := (Serving.taken (u := u) (rest := rest) he).streamCompressData_whole (step := p.step)
    (ok := true) hf hr hbuf hlen
  rw [show cmpData (setInbox s u rest) u 2 p.tag p.step e p true [] = _ from hrun]
  exact ht.compressPiece_sends hf hr hd hv (by rw [hout]; exact hlimit)

/-! ## Mode 3: bytes from stream records (R357, R358) -/

theorem decodeRecords_of_short (fuel : Nat) (h : (ctxOf s tag step).buf.length < 16) :
    decodeRecords fuel s u tag step e answers = s := by
  cases fuel with
  | zero => rfl
  | succ fuel =>
    rw [decodeRecords]
    exact if_pos (Or.inl h)

theorem decodeRecords_badHead {fuel : Nat} (hruns : stillRuns s tag = true) (hlen : 16 ≤ (ctxOf s tag step).buf.length)
    (hhead : recordHeadOk (ctxOf s tag step).buf = false) :
    decodeRecords (fuel + 1) s u tag step e answers = cmpFail s u tag step 0x10 := by
  rw [decodeRecords]
  dsimp only
  rw [if_neg (by simp [hruns, hlen]), if_pos (by simp [hhead])]

/-- `rcd` is one whole record, well formed, that decodes to `bs` (R358). -/
structure RecordOf (rcd bs : Bytes) : Prop where
  head : recordHeadOk rcd = true
  whole : rcd.length = recordSize rcd
  tail : isZero rcd (16 + leAt rcd 2 2) (rcd.length - 16 - leAt rcd 2 2) = true
  decodes : decodeRecord rcd (none, none) = .ok bs false

/-- A buffer that holds one whole record is decoded to its end. -/
theorem decodeRecords_one {fuel : Nat} {rcd : Bytes} (h : RecordOf rcd bs) (hruns : stillRuns s tag = true)
    (hbuf : (ctxOf s tag step).buf = rcd) (hlen : 16 ≤ rcd.length)
    (hbound : (ctxOf s tag step).outBytes + bs.length ≤ streamBound e (ctxOf s tag step).inBytes) :
    decodeRecords (fuel + 1) s u tag step e [] = decodeRecords fuel
      (cmpCount (sendOut (setCtx s tag step { ctxOf s tag step with buf := [] }) tag step u bs 0 true) u tag 0 bs.length)
      u tag step e [] := by
  obtain ⟨hhead, hwhole, htail, hdec⟩ := h
  rw [decodeRecords]
  dsimp only
  rw [hbuf, if_neg (by simp [hruns, hlen]), if_neg (by simp [hhead]), ← hwhole, if_neg (lt_irrefl _), List.take_length,
    List.drop_length, if_neg (by simp [htail]), List.headD_nil, hdec]
  dsimp only
  exact (if_neg (Nat.not_lt.mpr hbound)).trans rfl

/-- A packet that comes to an empty buffer is decoded as it stands. -/
theorem streamDecompress_takes (hp : packetWaits s u p e y rest) (hk : stepKind y = 0x06) (hm : y.mode = 3)
    (hw : worksNow s u = true) (hbuf : (ctxOf s p.tag p.step).buf = []) :
    ∃ t, Serving s u p.tag e rest t ∧ ctxOf t p.tag p.step = (ctxOf s p.tag p.step).buffered p p.data ∧
      exec (.streamDecompress u [] []) s = .next (decodeRecords p.data.length t u p.tag p.step e []) := by
  have hserve : exec (.streamDecompress u [] []) s = .next (streamDecompressData (setInbox s u rest) u p.tag p.step e p []) :=
    congrArg Host.Outcome.next (cmpServe_packet hp hk hw hm true [])
  obtain ⟨-, -, he, -⟩ := hp
  let t := setCtx (setInbox s u rest) p.tag p.step ((ctxOf s p.tag p.step).buffered p p.data)
  refine ⟨cmpCount t u p.tag p.data.length 0, ((Serving.taken he).withCtx _).counted (cmpCount_keeps ..),
    ctxOf_setCtx_same (setInbox s u rest) .., hserve.trans ?_⟩
  rw [streamDecompressData, ctxOf_setInbox, hbuf, List.nil_append, List.length_nil, Nat.zero_add]
  rfl

theorem streamDecompress_sends (hp : packetWaits s u p e y rest) (hk : stepKind y = 0x06) (hm : y.mode = 3)
    (hw : worksNow s u = true) (hd : ∀ n, unitAt s e (p.step + 1) n = some d) (hbuf : (ctxOf s p.tag p.step).buf = [])
    (hlen : 16 ≤ p.data.length) (hrcd : RecordOf p.data bs) (hbound : (ctxOf s p.tag p.step).outBytes + bs.length ≤
      streamBound e ((ctxOf s p.tag p.step).inBytes + p.data.length)) :
    Nexts (exec (.streamDecompress u [] []) s) (SendsAll s u d p.tag bs) := by
  obtain ⟨t, ht, hctx, hrun⟩ := streamDecompress_takes hp hk hm hw hbuf
  obtain ⟨-, -, he, hf, hr, -⟩ := hp
  obtain ⟨fuel, hfuel⟩ : ∃ fuel, p.data.length = fuel + 1 := ⟨p.data.length - 1, by omega⟩
  obtain ⟨hsends, hempty⟩ := (ht.withCtx { ctxOf t p.tag p.step with buf := [] }).sendOut_sends hf hr hd bs
  rw [ctxOf_setCtx_same] at hempty
  refine ⟨_, hrun, ?_⟩
  rw [hfuel, decodeRecords_one hrcd (stillRuns_of_entry ht.entry hf hr) (by rw [hctx]; rfl) hlen (by rw [hctx]; exact hbound),
    decodeRecords_of_short]
  · exact hsends
  · exact (congrArg List.length hempty).trans_lt (Nat.zero_lt_succ 15)

theorem streamDecompress_badHead (hp : packetWaits s u p e y rest) (hk : stepKind y = 0x06) (hm : y.mode = 3)
    (hw : worksNow s u = true) (hlast : isLast s e p.step = false) (hbuf : (ctxOf s p.tag p.step).buf = [])
    (hlen : 16 ≤ p.data.length) (hhead : recordHeadOk p.data = false) :
    Nexts (exec (.streamDecompress u [] []) s) (Failed s e p.tag 0x10 u) := by
  obtain ⟨t, ht, hctx, hrun⟩ := streamDecompress_takes hp hk hm hw hbuf
  obtain ⟨-, -, he, hf, hr, -⟩ := hp
  obtain ⟨fuel, hfuel⟩ : ∃ fuel, p.data.length = fuel + 1 := ⟨p.data.length - 1, by omega⟩
  refine ⟨_, hrun, ?_⟩
  rw [hfuel, decodeRecords_badHead (stillRuns_of_entry ht.entry hf hr) (by rw [hctx]; exact hlen) (by rw [hctx]; exact hhead)]
  exact ht.cmpFail_fails hr hlast (by omega) (by omega)

end

/-- Settles O38, mode by mode: slots from units, units from slots, records from pieces, bytes from records. -/
theorem compressionEnginesMakeAndOpenSlotsAndRecords : Obligations.CompressionEnginesMakeAndOpenSlotsAndRecords := by
  unfold Obligations.CompressionEnginesMakeAndOpenSlotsAndRecords
  intro s u d p e y rest ok c code cls idx all hp hk hw hlast hd hbuf
  refine ⟨fun hm hlen hcls hv => ?_, fun hm hlen hcls => ?_, fun hm hlen hcls hv => ?_, fun hm hslot hcls hlen => ?_,
    fun hm hslot hcls hlen hmethod hzero hmin hmax hbs hcheck => ?_, fun hm hlen => ?_,
    fun hm hlen hv hlimit => ?_, fun bs hm hlen hhead hwhole htail hdec hbound => ?_, fun hm hlen hhead => ?_⟩
  · exact slotCompress_sends hp hk hm hw hd hbuf hlen (fun t prov ht => compressUnit_of_fit ht hcls hv)
  · obtain ⟨t, hrun, -, hsent⟩ := slotCompress_sends hp hk hm hw hd hbuf hlen
      (fun t prov ht => compressUnit_of_noFit (ok := ok) ht hcls)
    exact ⟨t, hrun, hsent⟩
  · exact slotCompress_mismatch hp hk hm hw hlast hbuf hlen hcls hv
  · exact slotDecompress_sends hp hk hm hw hd (slotDecompressData_class3 hslot hcls hlen _ _ _ _)
  · exact slotDecompress_sends hp hk hm hw hd (slotDecompressData_decodes hslot hcls hlen ⟨hmethod, hzero, hmin, hmax⟩
      (decodeData_of_good hbs hcheck) _ _ _)
  · obtain ⟨t, hrun, hfails⟩ := slotDecompress_length_fails hp hk hm hw hlast hlen
    exact ⟨t, hrun, hfails.1, hfails.trunk_data⟩
  · exact streamCompress_sends hp hk hm hw hd hbuf hlen hv hlimit
  · exact streamDecompress_sends hp hk hm hw hd hbuf hlen ⟨hhead, hwhole, htail, hdec⟩ hbound
  · obtain ⟨t, hrun, hfails⟩ := streamDecompress_badHead hp hk hm hw hlast hbuf hlen hhead
    exact ⟨t, hrun, hfails.1⟩

end Sys2Proof.Machine
end

section
/-! SUPPORT. The slots of the key store after the end of a ticket and under a fence (10_keys_and_cipher.md, R374, R379, R380;
04_lines_and_signal_box.md, R171): their numbers of users change, and nothing else of them. -/

namespace Sys2Proof.Machine

variable {s t : State} {e : Entry} {tag slot status : Nat} {mark : Entry → Entry}

/-- A slot but for its number of users. -/
def KeySlot.lasting (k : KeySlot) : KeySlot := { k with users := 0 }

/-- `t` has the slots that `s` has, but for their numbers of users. -/
def SameSlots (s t : State) : Prop := ∀ n, (slotOf t n).lasting = (slotOf s n).lasting

namespace SameSlots

variable {u : State} {α : Type} {c : Prop} [Decidable c]

theorem refl (s : State) : SameSlots s s := fun _ => rfl

/-- One more operation, the outermost first. -/
theorem after (k : SameSlots t u) (h : SameSlots s t) : SameSlots s u := fun n => (k n).trans (h n)

theorem of_slots (h : t.key.slots = s.key.slots) : SameSlots s t := fun n =>
  congrArg (fun l => (Tab.getD l n {}).lasting) h

/-- One more operation that leaves the key store alone. -/
theorem via {m : Nat} (k : Keeps m t u) (hm : m.testBit 12 = false) (h : SameSlots s t) : SameSlots s u :=
  after (of_slots (congrArg Key.slots (k.key hm))) h

theorem ite (h : SameSlots s t) (k : SameSlots s u) : SameSlots s (if c then t else u) := by
  split <;> assumption

theorem foldl {f : State → α → State} {l : List α} (hf : ∀ t x, SameSlots t (f t x)) (h : SameSlots s t) :
    SameSlots s (l.foldl f t) :=
  List.foldlRecOn (motive := SameSlots s) l f h fun t ht x _ => (hf t x).after ht

/-- A property of a slot that does not look at its users is the same, too. -/
theorem prop {β : Type} (h : SameSlots s t) (q : KeySlot → β) (hq : ∀ k, q k.lasting = q k) (n : Nat) :
    q (slotOf t n) = q (slotOf s n) := by
  rw [← hq, h n, hq]

end SameSlots

open SameSlots

theorem releaseSlot_slots (s : State) (n : Nat) : SameSlots s (releaseSlot s n) := by
  intro m
  rw [releaseSlot, slotOf_setSlot]
  split
  · next h => rw [h]; rfl
  · rfl

/-! ## The end of a ticket (R175, R374) -/

theorem freeTicket_slots (s : State) (tag : Nat) (e : Entry) : SameSlots s (freeTicket s tag e) := by
  have hkey (t : State) : SameSlots t (dropCtx (releaseHandles t tag) tag) := of_slots rfl
  unfold freeTicket
  refine after (hkey _) (via (leaveInside_keeps ..) rfl (via (dropMessages_keeps ..) rfl (ite ?_ (of_slots rfl))))
  exact after (releaseSlot_slots _ _) (of_slots rfl)

theorem finishTicket_slots (s : State) (tag : Nat) : SameSlots s (finishTicket s tag) := by
  have hfree (t : State) (e : Entry) (h : t.key = s.key) : SameSlots s (freeTicket t tag e) :=
    (freeTicket_slots t tag e).after (of_slots (congrArg Key.slots h))
  unfold finishTicket finishPlain
  split
  · exact refl s
  · refine ite (hfree _ _ rfl) ?_
    dsimp -proj only
    split
    · refine ite (hfree _ _ rfl) (ite ?_ (hfree _ _ ((cqWrite_keeps ..).key rfl)))
      exact via (setCore_keeps ..) rfl (via (setEntry_keeps ..) rfl (of_slots rfl))
    · exact via (nvmeTicketDone_keeps ..) rfl (hfree _ _ rfl)
    · exact via (junctionDone_keeps ..) rfl (hfree _ _ rfl)
    · exact hfree _ _ rfl

/-! ## A fence (R171, R380) -/

theorem fenceTicket_slots (s : State) (tag status : Nat) (mark : Entry → Entry) :
    SameSlots s (fenceTicket s tag status mark) := by
  have hdrop (t : State) : SameSlots t (dropCtx t tag) := of_slots rfl
  unfold fenceTicket
  split
  · exact refl s
  · exact after (hdrop _) (via (modEntry_keeps ..) rfl (via (quarantine_keeps ..) rfl
      (via (zeroWritten_keeps ..) rfl (refl s))))

theorem revokeFeeds_slots (s : State) (slot : Nat) : SameSlots s (revokeFeeds s slot) := by
  refine foldl (fun t i => ite ?_ (refl t)) (refl s)
  exact via (setLive_keeps ..) rfl (via (setLive_keeps ..) rfl (after (of_slots rfl) (releaseSlot_slots t slot)))

/-! ## The entries of fenced tickets -/

theorem store_park (s : State) (x : Siding) : (park s x).sbx.store = s.sbx.store := by
  have hcounted (l : List Siding) (t : State) : (l.foldl (fun s x =>
      bump (if x.inst = 0 then s else bump s (pageSiding x.inst) 31 16 1) Reg.SBX_SIDING_STATUS 31 16 1) t).sbx = t.sbx :=
    (Keeps.foldl (m := 16) (fun _ _ => Keeps.via (bump_keeps ..) rfl
      (Keeps.ite (Keeps.refl _ _) (Keeps.via (bump_keeps ..) rfl (Keeps.refl _ _)))) (Keeps.refl _ _)).sbx rfl
  unfold park
  dsimp -proj only
  rw [hcounted]

theorem entryOf_park (s : State) (x : Siding) (tag : Nat) : entryOf (park s x) tag = entryOf s tag :=
  congrArg (Tab.get? · tag) (store_park s x)

theorem entryOf_parkHeld (s : State) (other status tag : Nat) : entryOf (parkHeld s other status) tag = entryOf s tag := by
  unfold parkHeld
  split
  · rfl
  · exact List.foldlRecOn (motive := fun t => entryOf t tag = entryOf s tag) _ _ rfl
      fun t ht x _ => (entryOf_park t x tag).trans ht

theorem entryOf_quarantine (s : State) (other status tag : Nat) :
    entryOf (quarantine s other status) tag = entryOf s tag := by
  unfold quarantine
  split
  · rfl
  · refine List.foldlRecOn (motive := fun t => entryOf t tag = entryOf s tag) _ _ rfl fun t ht x _ => ?_
    split
    · exact ht
    · exact (entryOf_park ..).trans ht

/-- A fence changes the entry of its ticket alone. -/
theorem entryOf_fenceTicket (s : State) (other status : Nat) (mark : Entry → Entry) (tag : Nat) :
    entryOf (fenceTicket s other status mark) tag = if tag = other then
      (entryOf s other).map (fun e => { mark e with fenced := true, waiting := false }) else entryOf s tag := by
  unfold fenceTicket
  split
  · next h => split <;> simp_all
  · next e h =>
    have hsame (n : Nat) : entryOf (quarantine (zeroWritten s other e) other status) n = entryOf s n :=
      (entryOf_quarantine ..).trans (entryOf_congr ((zeroWritten_keeps ..).sbx rfl) n)
    rw [entryOf_congr ((dropCtx_keeps ..).sbx rfl), entryOf_modEntry, hsame, hsame]

/-- A fenced ticket whose completion waits for room is still fenced (R486). -/
theorem fenced_finishTicket (h : ∀ e, entryOf s tag = some e → e.fenced = true) :
    ∀ e, entryOf (finishTicket s tag) tag = some e → e.fenced = true := by
  have hfree (t : State) (x : Entry) : entryOf (freeTicket t tag x) tag = none := by
    rw [entryOf, freeTicket_sbx]
    exact Tab.get?_erase_same ..
  have hgone {t : State} (ht : entryOf t tag = none) : ∀ e, entryOf t tag = some e → e.fenced = true :=
    fun e he => nomatch ht.symm.trans he
  unfold finishTicket finishPlain
  split
  · exact h
  · next x hx =>
    dsimp only
    split
    · exact hgone (hfree _ _)
    · split
      · split
        · exact hgone (hfree _ _)
        · split
          · intro e he
            obtain rfl := Option.some.inj ((entryOf_setEntry_same _ tag _).symm.trans he)
            exact h x hx
          · exact hgone (hfree _ _)
      · exact hgone ((entryOf_congr ((nvmeTicketDone_keeps ..).sbx rfl) tag).trans (hfree _ _))
      · exact hgone ((entryOf_congr ((junctionDone_keeps ..).sbx rfl) tag).trans (hfree _ _))
      · exact hgone (hfree _ _)

theorem mem_tagsWhere {p : Entry → Bool} (he : entryOf s tag = some e) (hp : p e = true) : tag ∈ tagsWhere s p :=
  List.mem_map.mpr ⟨(tag, e), List.mem_filter.mpr ⟨Tab.mem_of_get? he, hp⟩, rfl⟩

end Sys2Proof.Machine
end

section
/-! SUPPORT and O43. Requests to the key store and context handles (10_keys_and_cipher.md, R375 to R380, R399, R400). -/

namespace Sys2Proof.Machine

section
variable {s t : State} {r : KeyReq} {st slot kind : Nat} {key new blob : Bytes} {g : GcmSave} {i : Instr}

/-! ## A request completes (R377) -/

/-- The register that holds the result of a request made through registers (R376). -/
def keyResultReg (i : Nat) : Nat := if i = 0 then Reg.KEY_RESULT else Reg.VFP_KEY_RESULT + pageOf i

/-- The result of the request goes to registers (R382). -/
def ToRegs (s : State) (r : KeyReq) : Prop := r.via = none ∧ r.silent = false ∧ instState s r.inst ≠ .resetting

/-- The request in progress of `s` has completed with status `st`. -/
def Answered (s : State) (r : KeyReq) (st : Nat) (t : State) : Prop :=
  t.key.reqs = s.key.reqs.drop 1 ∧ live t (keyResultReg r.inst) 7 0 = st ∧ live t (keyResultReg r.inst) 8 8 = 1

theorem keyDone_key (s : State) (r : KeyReq) (st : Nat) : (keyDone s r st).key = { s.key with reqs := s.key.reqs.drop 1 } :=
  (keyAnswer_keeps ..).key rfl

theorem slotOf_keyDone (s : State) (r : KeyReq) (st n : Nat) : slotOf (keyDone s r st) n = slotOf s n := by
  rw [slotOf, keyDone_key]
  rfl

theorem handleOf_keyDone (s : State) (r : KeyReq) (st i h : Nat) : handleOf (keyDone s r st) i h = handleOf s i h := by
  rw [handleOf, keyDone_key]
  rfl

theorem keyDone_answers (h : ToRegs t r) (hst : st < 256) (hreqs : t.key.reqs = s.key.reqs) :
    Answered s r st (keyDone t r st) := by
  obtain ⟨hvia, hsilent, hinst⟩ := h
  let q := setLive (setKey t { t.key with reqs := t.key.reqs.drop 1 }) (keyResultReg r.inst) 8 8 1
  have hrun : keyDone t r st =
      setLive (setLive q (keyResultReg r.inst) 7 0 st) (keyResultReg r.inst + 4) 31 0 r.cookie := by
    simp only [keyDone, keyAnswer, hvia, hsilent, Bool.false_eq_true, if_false, keyResult]
    exact if_neg hinst
  have hother : keyResultReg r.inst ≠ keyResultReg r.inst + 4 := by omega
  refine ⟨?_, ?_, ?_⟩
  · rw [keyDone_key, hreqs]
  · rw [hrun, live_setLive_other _ _ _ _ _ _ hother, live_setLive_same _ _ _ _ _ (by omega)]
    exact Nat.mod_eq_of_lt hst
  · rw [hrun, live_setLive_other _ _ _ _ _ _ hother, live_setLive_apart _ _ _ _ _ (by omega) (by omega) (by omega),
      live_setLive_same _ _ _ _ _ (by omega)]
    rfl

/-- What a state with the tenancy of `s` answers goes to the same registers. -/
theorem ToRegs.congr (h : ToRegs s r) (hten : t.ten = s.ten) : ToRegs t r := by
  rwa [ToRegs, instState, hten]

theorem keyStateCheck_lt (h : keyStateCheck s r = some st) : st < 256 := by
  unfold keyStateCheck at h
  extract_lets k issuer state at h
  split_ifs at h <;> cases h <;> decide

/-- A request that fails a check completes and changes no slot. -/
theorem refused_answers (hrun : exec i s = .next (keyDone t r st)) (h : ToRegs t r) (hst : st < 256) (hkey : t.key = s.key) :
    Nexts (exec i s) (fun t => Answered s r st t ∧ t.key.slots = s.key.slots ∧ t.key.handles = s.key.handles) :=
  ⟨_, hrun, keyDone_answers h hst (by rw [hkey]), by rw [keyDone_key, hkey], by rw [keyDone_key, hkey]⟩

/-! ## Issuer and state (R376): what each command does with a request that fails them -/

theorem keyGrant_refused (hr : keyHead s 1 = some r) (hc : keyStateCheck s r = some st) :
    exec .keyGrant s = .next (keyDone s r st) := by
  change execKeyGrant s = _
  simp only [execKeyGrant, hr, hc]

theorem keyLoad_refused (hr : keyHead s 2 = some r) (hstart : keyStarted s r = false) (hc : keyStateCheck s r = some st) :
    exec (.keyLoad blob) s = .next (keyDone s r st) := by
  change execKeyLoad blob s = _
  simp only [execKeyLoad, hr, hstart, hc, Bool.false_eq_true, if_false]

theorem keyErase_refused (hr : keyHead s 3 = some r) (hstart : keyStarted s r = false) (hc : keyStateCheck s r = some st) :
    exec .keyErase s = .next (keyDone s r st) := by
  change execKeyErase s = _
  simp only [execKeyErase, hr, hstart, hc, Bool.false_eq_true, if_false]

theorem keyWithdraw_refused (hr : keyHead s 4 = some r) (hstart : keyStarted s r = false)
    (hc : keyStateCheck s r = some st) : exec .keyWithdraw s = .next (keyDone s r st) := by
  change execKeyWithdraw s = _
  simp only [execKeyWithdraw, hr, hstart, hc, Bool.false_eq_true, if_false]

theorem ctxExport_refused (hr : keyHead s 5 = some r) (hc : keyStateCheck s r = some st) :
    exec .ctxExport s = .next (keyDone s r st) := by
  change execCtxExport s = _
  simp only [execCtxExport, hr, hc]

theorem ctxImport_refused (hr : keyHead s 6 = some r) (hc : keyStateCheck s r = some st) :
    exec (.ctxImport blob) s = .next (keyDone s r st) := by
  change execCtxImport blob s = _
  simp only [execCtxImport, hr, hc]

theorem ctxFree_refused (hr : keyHead s 7 = some r) (hc : keyStateCheck s r = some st) :
    exec .ctxFree s = .next (keyDone s r st) := by
  change execCtxFree s = _
  simp only [execCtxFree, hr, hc]

/-! ## A request takes effect (R375, R379 step 4) -/

/-- The slot that a request has rewritten. -/
def KeySlot.rewritten (k : KeySlot) (r : KeyReq) (new : Bytes) : KeySlot := { nextGen k with
  key := if r.op = 2 then new else [], waits := none, fencing := false,
  state := if r.op = 2 then .loaded else if r.op = 3 then .empty else .free }

/-- The rewriting of its slot completes the request. -/
theorem keyEffect_done (s : State) (r : KeyReq) (new : Bytes) : ∃ u, Keeps 4096 s u ∧ u.key.reqs = s.key.reqs ∧
    slotOf u r.slot = (slotOf s r.slot).rewritten r new ∧ keyEffect s r new = keyDone u r 0 := by
  let u := setSlot (dropKeyCopies s r.slot) r.slot ((slotOf s r.slot).rewritten r new)
  have hu : Keeps 4096 s u := Keeps.via (setSlot_keeps ..) rfl (dropKeyCopies_keeps ..)
  have hslot : slotOf u r.slot = (slotOf s r.slot).rewritten r new := slotOf_setSlot_same ..
  have hwritten (c : Prop) [Decidable c] : Keeps 4096 s (if c then writeTable u else u) ∧
      (if c then writeTable u else u).key.reqs = s.key.reqs ∧
      slotOf (if c then writeTable u else u) r.slot = (slotOf s r.slot).rewritten r new := by
    split
    · exact ⟨Keeps.via (writeTable_keeps _) rfl hu, rfl, hslot⟩
    · exact ⟨hu, rfl, hslot⟩
  obtain ⟨hkeeps, hreqs, hslot'⟩ := hwritten (r.op = 4 ∨ bitOf ((slotOf s r.slot).rewritten r new).attr 0)
  exact ⟨_, hkeeps, hreqs, hslot', rfl⟩

/-- The request has taken effect on its slot: the generation counts it (R375), and nothing waits any more. -/
def Taken (s : State) (r : KeyReq) (new : Bytes) (t : State) : Prop :=
  (slotOf t r.slot).state = (if r.op = 2 then .loaded else if r.op = 3 then .empty else .free) ∧
    (slotOf t r.slot).key = (if r.op = 2 then new else []) ∧ (slotOf t r.slot).gen = (slotOf s r.slot).gen + 1 ∧
    (slotOf t r.slot).waits = none

/-- Users that have left the slot before make no difference. -/
theorem keyEffect_takes (h : SameSlots s t) (r : KeyReq) (new : Bytes) :
    Taken s r new (keyEffect t r new) ∧ (slotOf (keyEffect t r new) r.slot).fencing = false := by
  obtain ⟨u, -, -, hslot, hrun⟩ := keyEffect_done t r new
  have hgen : (slotOf t r.slot).gen = (slotOf s r.slot).gen := h.prop KeySlot.gen (fun _ => rfl) r.slot
  rw [Taken, hrun, slotOf_keyDone, hslot, ← hgen]
  exact ⟨⟨rfl, rfl, rfl, rfl⟩, rfl⟩

theorem keyEffect_answers (h : ToRegs s r) (new : Bytes) : Answered s r 0 (keyEffect s r new) := by
  obtain ⟨u, hkeeps, hreqs, -, hrun⟩ := keyEffect_done s r new
  rw [hrun]
  exact keyDone_answers (h.congr (hkeeps.ten rfl)) (by decide) hreqs

/-! ## GRANT (R376) -/

theorem keyGrant_grants (h : ToRegs s r) (hr : keyHead s 1 = some r) (hc : keyStateCheck s r = none) (h1 : 1 ≤ r.kind)
    (h4 : r.kind ≤ 4) (hg : r.grantee ≠ 0) : Nexts (exec .keyGrant s) (fun t => Answered s r 0 t ∧ slotOf t r.slot =
      { nextGen (slotOf s r.slot) with owner := r.grantee, kind := r.kind, attr := r.attr, state := .empty }) := by
  let u := setSlot s r.slot { nextGen (slotOf s r.slot) with
    owner := r.grantee, kind := r.kind, attr := r.attr, state := .empty }
  let v := tdiDisturb u r.grantee
  have hv : Keeps 1048576 u v := tdiDisturb_keeps ..
  have hreqs : v.key.reqs = s.key.reqs := (congrArg Key.reqs (hv.key rfl)).trans rfl
  have hkind : ¬(r.kind < 1 ∨ 4 < r.kind ∨ r.grantee = 0) := by omega
  have hrun : exec .keyGrant s = .next (keyDone (writeTable v) r 0) := by
    change execKeyGrant s = _
    simp only [execKeyGrant, hr, hc, if_neg hkind]
    rfl
  refine ⟨_, hrun, keyDone_answers (h.congr (hv.ten rfl)) (by decide) hreqs, ?_⟩
  rw [slotOf_keyDone]
  exact (slotOf_congr (hv.key rfl) r.slot).trans (slotOf_setSlot_same ..)

/-! ## LOAD, ERASE and WITHDRAW (R378, R379) -/

/-- The request waits at its slot, which is PENDING with its key as before. -/
def Waiting (s : State) (r : KeyReq) (new : Bytes) (t : State) : Prop :=
  (slotOf t r.slot).state = .pending ∧ (slotOf t r.slot).waits = some (r, new) ∧
    (slotOf t r.slot).key = (slotOf s r.slot).key ∧ t.key.reqs = s.key.reqs

theorem keyRewrite_takes (h : ToRegs t r) (hkey : t.key = s.key)
    (hfree : (slotOf s r.slot).users = 0 ∨ (slotOf s r.slot).state ≠ .loaded) (new : Bytes) :
    Answered s r 0 (keyRewrite t r new) ∧ Taken s r new (keyRewrite t r new) := by
  have hrun : keyRewrite t r new = keyEffect t r new := if_pos (by rwa [slotOf_congr hkey])
  have hanswered : Answered t r 0 (keyEffect t r new) := keyEffect_answers h new
  rw [hrun]
  rw [Answered, hkey] at hanswered
  exact ⟨hanswered, (keyEffect_takes (SameSlots.of_slots (congrArg Key.slots hkey)) r new).1⟩

theorem keyRewrite_waits (hkey : t.key = s.key) (hused : (slotOf s r.slot).users ≠ 0)
    (hstate : (slotOf s r.slot).state = .loaded) (new : Bytes) : Waiting s r new (keyRewrite t r new) := by
  have hslot : slotOf t r.slot = slotOf s r.slot := slotOf_congr hkey r.slot
  have hrun : keyRewrite t r new =
      setSlot t r.slot { slotOf t r.slot with state := .pending, waits := some (r, new) } :=
    if_neg (by simp [hslot, hused, hstate])
  rw [Waiting, hrun, slotOf_setSlot_same]
  have hold : (slotOf t r.slot).key = (slotOf s r.slot).key := by rw [hslot]
  have hreqs : t.key.reqs = s.key.reqs := by rw [hkey]
  exact ⟨rfl, rfl, hold, hreqs⟩

theorem keyLoad_rewrites (hr : keyHead s 2 = some r) (hstart : keyStarted s r = false) (hc : keyStateCheck s r = none)
    (h64 : 64 ≤ r.len) (h4096 : r.len ≤ 4096) (hblob : blobUnwrap s r.inst r.slot (fit r.len blob) = some (kind, key))
    (hfits : keyFits (slotOf s r.slot).kind kind key = true) :
    exec (.keyLoad blob) s = .next (keyRewrite s r key) := by
  have hlen : ¬(r.len < 64 ∨ 4096 < r.len) := by omega
  change execKeyLoad blob s = _
  simp only [execKeyLoad, hr, hstart, hc, if_neg hlen, hblob, hfits, Bool.false_eq_true, if_false, if_true]

theorem keyLoad_unwrap_fails (h : ToRegs s r) (hr : keyHead s 2 = some r) (hstart : keyStarted s r = false)
    (hc : keyStateCheck s r = none) (h64 : 64 ≤ r.len) (h4096 : r.len ≤ 4096)
    (hblob : blobUnwrap s r.inst r.slot (fit r.len blob) = none) : Nexts (exec (.keyLoad blob) s) (fun t =>
      Answered s r 0x08 t ∧ t.key.slots = s.key.slots ∧ t.key.handles = s.key.handles) := by
  have hlen : ¬(r.len < 64 ∨ 4096 < r.len) := by omega
  have hrun : exec (.keyLoad blob) s = .next (keyDone (bump s Reg.TRU_COUNTS 31 16 1) r 0x08) := by
    change execKeyLoad blob s = _
    simp only [execKeyLoad, hr, hstart, hc, if_neg hlen, hblob, Bool.false_eq_true, if_false]
  exact refused_answers hrun (h.congr rfl) (by decide) rfl

theorem keyErase_rewrites (hr : keyHead s 3 = some r) (hstart : keyStarted s r = false) (hc : keyStateCheck s r = none) :
    exec .keyErase s = .next (keyRewrite s r []) := by
  change execKeyErase s = _
  simp only [execKeyErase, hr, hstart, hc, Bool.false_eq_true, if_false]

theorem keyWithdraw_rewrites (hr : keyHead s 4 = some r) (hstart : keyStarted s r = false) (hc : keyStateCheck s r = none) :
    exec .keyWithdraw s = .next (keyRewrite (tdiDisturb s (slotOf s r.slot).owner) r []) := by
  change execKeyWithdraw s = _
  simp only [execKeyWithdraw, hr, hstart, hc, Bool.false_eq_true, if_false]

/-! ## Context handles (R399, R400) -/

theorem clearRecord_length (i : Nat) (g : GcmSave) : (ctxHead 2 i g ++ ctxBody g ++ zeros 48).length = 128 := by
  simp [ctxHead, ctxBody, zeros]

theorem handleOf_setHandle_same (s : State) (i h : Nat) (x : Handle) : handleOf (setHandle s i h x) i h = x :=
  Tab.getD_put_same ..

/-- The dirty-page log of R610 is all of the tenancy that a write to host memory touches. -/
theorem instState_hostWrite (s : State) (port inst a : Nat) (bs : Bytes) (i : Nat) :
    instState (hostWrite s port inst a bs) i = instState s i := by
  have hlog (l : DLog) : instState (setInst s inst { instOf s inst with log := l }) i = instState s i := by
    have hstate (t : State) : instState t i = if i = 0 then .ready else (instOf t i).state := rfl
    rw [hstate, hstate, instOf_setInst]
    by_cases hi : i = inst <;> simp [hi]
  unfold hostWrite
  split
  · rfl
  · dsimp only
    split
    · rfl
    · exact hlog _

theorem memRead_hostWrite (port a : Nat) (bs : Bytes) {inst : Nat} (h : Tab.getD s.tru.tdi inst .unlocked ≠ .error) :
    memRead (Tab.getD (hostWrite s port inst a bs).host (hostKey port inst) []) a bs.length = bs := by
  rw [hostWrite, if_neg h]
  exact (congrArg (memRead · a bs.length) (Tab.getD_set_same ..)).trans (memRead_memStore ..)

theorem ctxExport_writes (h : ToRegs s r) (hr : keyHead s 5 = some r) (hc : keyStateCheck s r = none)
    (hg : (handleOf s r.inst r.handle).save = some g) (hclear : bitOf (slotOf s g.slot).attr 1 = true)
    (htdi : Tab.getD s.tru.tdi r.inst .unlocked ≠ .error) : Nexts (exec .ctxExport s) (fun t => Answered s r 0 t ∧
      memRead (Tab.getD t.host (hostKey (portOfInst s r.inst) r.inst) []) r.addr 128 =
        ctxHead 2 r.inst g ++ ctxBody g ++ zeros 48) := by
  let bs := ctxHead 2 r.inst g ++ ctxBody g ++ zeros 48
  let u := hostWrite (drawn s) (portOfInst s r.inst) r.inst r.addr bs
  have hrun : exec .ctxExport s = .next (keyDone u r 0) := by
    change execCtxExport s = _
    simp only [execCtxExport, hr, hc, hg, hclear, ctxRecord, if_true]
    rfl
  have hkey : u.key = s.key := (hostWrite_keeps ..).key rfl
  obtain ⟨hvia, hsilent, hinst⟩ := h
  refine ⟨_, hrun, keyDone_answers ⟨hvia, hsilent, ?_⟩ (by decide) (congrArg Key.reqs hkey), ?_⟩
  · rw [instState_hostWrite]
    exact hinst
  · have hhost : (keyDone u r 0).host = u.host := by
      rw [keyDone, keyAnswer, hvia]
      dsimp only
      rw [if_neg (by simp [hsilent])]
      exact (keyResult_keeps ..).host rfl
    have hread := memRead_hostWrite (s := drawn s) (portOfInst s r.inst) r.addr bs htdi
    rw [clearRecord_length] at hread
    rw [hhost]
    exact hread

theorem ctxImport_takes (h : ToRegs s r) (hr : keyHead s 6 = some r) (hc : keyStateCheck s r = none)
    (hsave : (handleOf s r.inst r.handle).save = none) (huser : (handleOf s r.inst r.handle).user = none)
    (hparse : ctxParse s r.inst (fit 128 blob) = .ok g) : Nexts (exec (.ctxImport blob) s) (fun t => Answered s r 0 t ∧
      handleOf t r.inst r.handle = { save := some g }) := by
  have hrun : exec (.ctxImport blob) s = .next (keyDone (setHandle s r.inst r.handle { save := some g }) r 0) := by
    change execCtxImport blob s = _
    simp only [execCtxImport, hr, hc, hsave, huser, hparse, Option.isSome_none, Bool.or_self, Bool.false_eq_true, if_false]
  refine ⟨_, hrun, keyDone_answers (h.congr rfl) (by decide) rfl, ?_⟩
  rw [handleOf_keyDone, handleOf_setHandle_same]

theorem ctxFree_frees (h : ToRegs s r) (hr : keyHead s 7 = some r) (hc : keyStateCheck s r = none) :
    Nexts (exec .ctxFree s) (fun t => Answered s r 0 t ∧ handleOf t r.inst r.handle = {}) := by
  have hrun : exec .ctxFree s = .next (keyDone (setHandle s r.inst r.handle {}) r 0) := by
    change execCtxFree s = _
    simp only [execCtxFree, hr, hc]
  refine ⟨_, hrun, keyDone_answers (h.congr rfl) (by decide) rfl, ?_⟩
  rw [handleOf_keyDone, handleOf_setHandle_same]

/-! ## A PENDING slot (R379 steps 3 and 4, R380) -/

theorem keyUseZero_takes (hstate : (slotOf s r.slot).state = .pending) (husers : (slotOf s r.slot).users = 0)
    (hwaits : (slotOf s r.slot).waits = some (r, new)) : Nexts (exec (.keyUseZero r.slot) s) (Taken s r new) := by
  have hrun : exec (.keyUseZero r.slot) s = .next (keyEffect s r new) := by
    change execKeyUseZero r.slot s = _
    simp only [execKeyUseZero, hwaits, hstate, husers, and_self, if_true]
  exact ⟨_, hrun, (keyEffect_takes (SameSlots.refl s) r new).1⟩

/-- The fence of a slot stops ticket `tag`, and ends it where it only waited. -/
def fenceUser (s : State) (tag : Nat) : State :=
  let s := fenceTicket (parkHeld (countSlotFence s tag) tag 0x0A) tag 0x0A
    (fun e => { e with keyRevoked := true, fail := some (0x0A, 188) })
  if ((entryOf s tag).map (·.admitted)).getD 0 = 0 then finishTicket s tag else s

theorem fenceUser_slots (s : State) (tag : Nat) : SameSlots s (fenceUser s tag) := by
  have hfenced (mark : Entry → Entry) : SameSlots s (fenceTicket (parkHeld (countSlotFence s tag) tag 0x0A) tag 0x0A mark) :=
    SameSlots.after (fenceTicket_slots _ _ _ _) (SameSlots.via (parkHeld_keeps ..) rfl
      (SameSlots.via (countSlotFence_keeps ..) rfl (SameSlots.refl s)))
  exact SameSlots.ite (SameSlots.after (finishTicket_slots _ _) (hfenced _)) (hfenced _)

/-- Every ticket that uses slot `slot` is fenced, or its tag is in `l`. -/
def UsersFenced (slot : Nat) (l : List Nat) (s : State) : Prop :=
  ∀ tag e, entryOf s tag = some e → e.keyUsed = true → e.t.keySlot = slot → tag ∈ l ∨ e.fenced = true

theorem fenceUser_fences {tag : Nat} {l : List Nat} (h : UsersFenced slot (tag :: l) s) :
    UsersFenced slot l (fenceUser s tag) := by
  let u := fenceTicket (parkHeld (countSlotFence s tag) tag 0x0A) tag 0x0A
    (fun e => { e with keyRevoked := true, fail := some (0x0A, 188) })
  have hown : ∀ e, entryOf u tag = some e → e.fenced = true := by
    intro e he
    rw [entryOf_fenceTicket, if_pos rfl] at he
    obtain ⟨x, -, rfl⟩ := Option.map_eq_some_iff.mp he
    rfl
  have hother {n : Nat} (hn : n ≠ tag) : entryOf u n = entryOf s n := by
    rw [entryOf_fenceTicket, if_neg hn, entryOf_parkHeld, entryOf_congr ((countSlotFence_keeps ..).sbx rfl)]
  have hrun : fenceUser s tag = if ((entryOf u tag).map (·.admitted)).getD 0 = 0 then finishTicket u tag else u := rfl
  intro n e he hused hslot
  by_cases hn : n = tag
  · subst hn
    refine Or.inr ?_
    rw [hrun] at he
    split at he
    · exact fenced_finishTicket hown e he
    · exact hown e he
  · have he' : entryOf s n = some e := by
      rw [← hother hn, ← he, hrun]
      split
      · exact (entryOf_finishTicket_other hn).symm
      · rfl
    exact (h n e he' hused hslot).imp_left fun hmem => (List.mem_cons.mp hmem).resolve_left hn

theorem foldl_fenceUser_fences (l : List Nat) (s : State) (h : UsersFenced slot l s) :
    UsersFenced slot [] (l.foldl fenceUser s) := by
  induction l generalizing s with
  | nil => exact h
  | cons tag l ih => exact ih _ (fenceUser_fences h)

/-- The fence of slot `slot` is raised: it is recorded, and open feeds that use the slot are abandoned. -/
def fenceRaised (s : State) (slot : Nat) : State :=
  let k := slotOf s slot
  let s := setSlot s slot { k with fencing := true }
  let s := { s with sbx := { s.sbx with fences := s.sbx.fences ++ [.slot slot] } }
  revokeFeeds (record s 0x0030 sevFree 0 188 k.owner (natLe 2 slot ++ natLe 4 k.gen)) slot

theorem fenceRaised_slots (s : State) (slot : Nat) :
    SameSlots (setSlot s slot { slotOf s slot with fencing := true }) (fenceRaised s slot) :=
  SameSlots.after (revokeFeeds_slots _ _) (SameSlots.via (record_keeps ..) rfl (SameSlots.of_slots rfl))

theorem entryOf_fenceRaised (s : State) (slot tag : Nat) : entryOf (fenceRaised s slot) tag = entryOf s tag := by
  rw [fenceRaised, entryOf_congr ((revokeFeeds_keeps ..).sbx rfl), entryOf_congr ((record_keeps ..).sbx rfl)]
  rfl

/-- The fence is raised, and then it stops the tickets that use the slot. -/
theorem exec_keyFenceTimeout (hstate : (slotOf s slot).state = .pending) (hfence : (slotOf s slot).fencing = false) :
    exec (.keyFenceTimeout slot) s =
      .next ((tagsWhere s (fun e => e.keyUsed && e.t.keySlot == slot)).foldl fenceUser (fenceRaised s slot)) := by
  change execKeyFenceTimeout slot s = _
  rw [execKeyFenceTimeout]
  dsimp only
  rw [if_neg (by simp [hstate, hfence])]
  rfl

theorem keyFenceTimeout_fences (hstate : (slotOf s slot).state = .pending) (hfence : (slotOf s slot).fencing = false) :
    Nexts (exec (.keyFenceTimeout slot) s) (fun t => (slotOf t slot).fencing = true ∧ (slotOf t slot).state = .pending ∧
      ∀ tag e, entryOf t tag = some e → e.keyUsed = true → e.t.keySlot = slot → e.fenced = true) := by
  have hslots := SameSlots.foldl (l := tagsWhere s (fun e => e.keyUsed && e.t.keySlot == slot)) fenceUser_slots
    (fenceRaised_slots s slot)
  have hstart : UsersFenced slot (tagsWhere s (fun e => e.keyUsed && e.t.keySlot == slot)) (fenceRaised s slot) :=
    fun tag e he hused hkey =>
      Or.inl (mem_tagsWhere ((entryOf_fenceRaised s slot tag).symm.trans he) (by simp [hused, hkey]))
  refine ⟨_, exec_keyFenceTimeout hstate hfence, ?_, ?_, fun tag e he hused hkey => ?_⟩
  · rw [hslots.prop KeySlot.fencing (fun _ => rfl), slotOf_setSlot_same]
  · rw [hslots.prop KeySlot.state (fun _ => rfl), slotOf_setSlot_same]
    exact hstate
  · exact (foldl_fenceUser_fences _ _ hstart tag e he hused hkey).resolve_left List.not_mem_nil

/-- The fence of slot `slot` is complete: its tickets have ended, and a load that unwraps under the slot has lost its key
(R86). -/
def fenceEnded (s : State) (slot : Nat) : State :=
  let s := (tagsWhere s (fun e => e.keyRevoked && e.t.keySlot == slot)).foldl finishTicket s
  let s := { s with sbx := { s.sbx with fences := s.sbx.fences.filter (fun f => f ≠ .slot slot) } }
  if s.cfg.keyUse = some slot then
    let s := releaseSlot s slot
    { s with cfg := { s.cfg with keyUse := none, content := [], keyLost := true } }
  else s

theorem fenceEnded_slots (s : State) (slot : Nat) : SameSlots s (fenceEnded s slot) := by
  have hended (l : List Nat) (b : Sbx) : SameSlots s { l.foldl finishTicket s with sbx := b } :=
    SameSlots.after (SameSlots.of_slots rfl) (SameSlots.foldl finishTicket_slots (SameSlots.refl s))
  exact SameSlots.ite (SameSlots.after (SameSlots.of_slots rfl) (SameSlots.after (releaseSlot_slots _ slot) (hended _ _)))
    (hended _ _)

theorem keyFenceComplete_takes (hfence : (slotOf s r.slot).fencing = true)
    (hwaits : (slotOf s r.slot).waits = some (r, new)) : Nexts (exec (.keyFenceComplete r.slot) s) (fun t =>
      Taken s r new t ∧ (slotOf t r.slot).fencing = false) := by
  have hrun : exec (.keyFenceComplete r.slot) s = .next (keyEffect (fenceEnded s r.slot) r new) := by
    change execKeyFenceComplete r.slot s = _
    simp only [execKeyFenceComplete, hwaits, hfence, if_true]
    rfl
  exact ⟨_, hrun, keyEffect_takes (fenceEnded_slots s r.slot) r new⟩

end

/-- Settles O43: requests that are refused, GRANT, LOAD, ERASE, WITHDRAW, the context handles, then the fates of a PENDING
slot. -/
theorem theKeyStoreGrantsLoadsErasesFencesAndKeepsContexts :
    Obligations.TheKeyStoreGrantsLoadsErasesFencesAndKeepsContexts := by
  unfold Obligations.TheKeyStoreGrantsLoadsErasesFencesAndKeepsContexts
  intro s r k st kind key blob g x res done taken waits heads kept empties used
  refine ⟨fun hvia hsilent hinst _ => ?_, fun hstate husers hwaits hk => ?_, keyFenceTimeout_fences,
    fun hfence hwaits hk => ?_⟩
  · have h : ToRegs s r := ⟨hvia, hsilent, hinst⟩
    have hfree (hu : ¬used) : x.users = 0 ∨ x.state ≠ .loaded := by
      simpa only [used, not_and_or, not_not] using hu
    refine ⟨fun hc => ?_, fun hr hc h1 h4 hg => ?_, fun hr hstart hc h64 h4096 hblob hfits => ?_,
      fun hr hstart hc h64 h4096 hblob => ?_, fun ⟨⟨hr, hstart⟩, hc⟩ hu => ?_, fun ⟨⟨hr, hstart⟩, hc⟩ hu => ?_,
      fun ⟨⟨hr, hstart⟩, hc⟩ ⟨hu, hl⟩ => ?_, fun ⟨⟨hr, hstart⟩, hc⟩ ⟨hu, hl⟩ => ?_, ctxExport_writes h, ctxImport_takes h,
      ctxFree_frees h⟩
    · have hkept {i : Instr} (hrun : exec i s = .next (keyDone s r st)) : Nexts (exec i s) kept :=
        refused_answers hrun h (keyStateCheck_lt hc) rfl
      exact ⟨fun ⟨hr, _⟩ => hkept (keyGrant_refused hr hc), fun ⟨hr, hstart⟩ => hkept (keyLoad_refused hr hstart hc),
        fun ⟨hr, hstart⟩ => hkept (keyErase_refused hr hstart hc),
        fun ⟨hr, hstart⟩ => hkept (keyWithdraw_refused hr hstart hc), fun ⟨hr, _⟩ => hkept (ctxExport_refused hr hc),
        fun ⟨hr, _⟩ => hkept (ctxImport_refused hr hc), fun ⟨hr, _⟩ => hkept (ctxFree_refused hr hc)⟩
    · obtain ⟨t, hrun, hdone, hslot⟩ := keyGrant_grants h hr hc h1 h4 hg
      refine ⟨t, hrun, hdone, ?_⟩
      rw [hslot]
      exact ⟨rfl, rfl, rfl, rfl, rfl⟩
    · have hrun := keyLoad_rewrites hr hstart hc h64 h4096 hblob hfits
      exact ⟨fun hu => ⟨_, hrun, keyRewrite_takes h rfl hu key⟩, fun hu hl => ⟨_, hrun, keyRewrite_waits rfl hu hl key⟩⟩
    · obtain ⟨t, hrun, hdone, hslots, -⟩ := keyLoad_unwrap_fails h hr hstart hc h64 h4096 hblob
      exact ⟨t, hrun, hdone, hslots⟩
    · exact ⟨_, keyErase_rewrites hr hstart hc, keyRewrite_takes h rfl (hfree hu) []⟩
    · have htdi : Keeps 1048576 s (tdiDisturb s x.owner) := tdiDisturb_keeps ..
      exact ⟨_, keyWithdraw_rewrites hr hstart hc, keyRewrite_takes (h.congr (htdi.ten rfl)) (htdi.key rfl) (hfree hu) []⟩
    · exact ⟨_, keyErase_rewrites hr hstart hc, keyRewrite_waits rfl hu hl []⟩
    · exact ⟨_, keyWithdraw_rewrites hr hstart hc, keyRewrite_waits ((tdiDisturb_keeps ..).key rfl) hu hl []⟩
  · subst hk
    exact keyUseZero_takes hstate husers hwaits
  · subst hk
    exact keyFenceComplete_takes hfence hwaits

end Sys2Proof.Machine
end

section
/-! SUPPORT and O39. The cipher engines (10_keys_and_cipher.md, R386 to R396). -/

namespace Sys2Proof.Machine

section
variable {s t : State} {e : Entry} {y : LStep} {rest : List Work} {p : Packet} {u d tag step mode st : Nat} {enc prov : Bool}
  {bs text : Bytes} {waiting : List Nat} {mm : Option Nat}

/-! ## An engine takes the front of its queue -/

/-- An end token that is not ready waits; everything else is taken (R172). -/
theorem cipServe_takes (hq : inboxOf s u = .pkt p :: rest) (he : entryOf s p.tag = some e) (hf : e.fenced = false)
    (hr : e.revoking = false) (hy : (stepsOf s e)[p.step]? = some y) (hk : stepKind y = 0x07) (hm : y.mode = mode)
    (hw : worksNow s u = true) (hready : p.endTok = false ∨ tokenReady s p p.step = true) :
    cipServe s u mode none = cipTake (setInbox s u rest) u p.tag e p.step mode p none := by
  have htoken : tokenReady (setInbox s u rest) p p.step = tokenReady s p p.step := rfl
  rw [cipServe, serveFront_packet hq he hf hr hy hk (by simp [hm]) hw]
  dsimp only
  rw [htoken]
  exact if_neg (by rcases hready with h | h <;> simp [h])

/-! ## Failures (R386, R393, R396) -/

theorem Serving.cipFail_fails (h : Serving s u tag e rest t) (hr : e.revoking = false) (hlast : isLast s e step = false)
    (h4 : 4 < st) (h12 : st < 0x12) : Failed s e tag st u (cipFail t u tag step st) := by
  have hserving := h.counted (cipErr_keeps t u tag st)
  have hfails := failAt_fails (u := u) hserving.entry hr ((isLast_congr hserving.cfg ..).trans hlast) h4 h12
  rwa [Failed, hserving.dev] at hfails

theorem cipCheck_failure (h : cipCheck s e mode = some st) : 4 < st ∧ st < 0x12 := by
  unfold cipCheck at h
  extract_lets k held at h
  split_ifs at h <;> cases h <;> decide

theorem cipTake_refused (hctx : ctxOf s tag step = {}) (hc : cipCheck s e mode = some st) :
    cipTake s u tag e step mode p mm = cipFail (cipCount s u tag p.data.length 0) u tag step st := by
  simp [cipTake, firstData, hctx, cipBegin, hc]

/-- The first packet of a ticket that fails a check ends it (R386). -/
theorem cipServe_refuses (hp : packetWaits s u p e y rest) (hk : stepKind y = 0x07) (hm : y.mode = mode)
    (hw : worksNow s u = true) (hlast : isLast s e p.step = false) (hctx : ctxOf s p.tag p.step = {})
    (hc : cipCheck s e mode = some st) : failedWith (cipServe s u mode none) e p.tag st u := by
  obtain ⟨hq, hend, he, hf, hr, hy⟩ := hp
  obtain ⟨h4, h12⟩ := cipCheck_failure hc
  rw [cipServe_takes hq he hf hr hy hk hm hw (Or.inl hend), cipTake_refused (s := setInbox s u rest) hctx hc]
  exact (((Serving.taken he).counted (cipCount_keeps ..)).cipFail_fails hr hlast h4 h12).1

/-! ## XTS, the index form (R388) -/

theorem cipTake_unit (hctx : ctxOf s tag step = {}) (hmode : mode ≤ 1) (hc : cipCheck s e mode = none) (hdu : duLen e = 0)
    (hend : p.endTok = false) : cipTake s u tag e step mode p mm =
      xtsPacket (cacheKey s u tag e.t.keySlot (slotOf s e.t.keySlot).gen) u tag step e (mode == 0) p mm := by
  have h2 : mode ≠ 2 := by omega
  have h3 : mode ≠ 3 := by omega
  simp [cipTake, firstData, hctx, cipBegin, hc, hmode, hdu, hend, h2, h3]

theorem Serving.xtsPacket_sends (h : Serving s u p.tag e rest t) (hf : e.fenced = false) (hr : e.revoking = false)
    (hd : unitAt s e (p.step + 1) (p.off / 4096) = some d) (hlen : 512 ≤ p.data.length)
    (hbs : xts enc (keyOf t e) (fld p.station 39 0) p.data = bs) (hne : bs ≠ []) :
    inboxOf (xtsPacket t u p.tag p.step e enc p none) u = rest ∧
      (xtsPacket t u p.tag p.step e enc p none).dev.trunk =
        s.dev.trunk ++ [sentTo s e p.tag p.step u d p.off bs p.station p.prov] := by
  let t' := countCtx t p.tag p.step p.data.length 0
  let sent := sendUnit t' p.tag p.step u p bs p.station p.prov
  have hrun : xtsPacket t u p.tag p.step e enc p none = cipCount sent u p.tag p.data.length bs.length := by
    rw [xtsPacket, hbs]
    dsimp only
    rw [if_neg (by omega)]
    simp only [List.isEmpty_eq_false_iff.mpr hne, Option.isSome_none, Bool.false_eq_true, if_false]
    rfl
  have hsent : sent = countCtx (emit t' (sentTo s e p.tag p.step u d p.off bs p.station p.prov)) p.tag p.step 0 bs.length :=
    sendUnit_of_cfg (t := t') h.cfg h.entry hf hr hd
  rw [hrun, inboxOf_congr ((cipCount_keeps ..).stn rfl), (cipCount_keeps ..).dev rfl, hsent]
  exact ⟨h.queue, congrArg (·.trunk ++ _) h.dev⟩

/-- The first packet of a ticket leaves, encrypted or decrypted, as one data unit. -/
theorem cipServe_unit (hp : packetWaits s u p e y rest) (hk : stepKind y = 0x07) (hm : y.mode = mode) (hmode : mode ≤ 1)
    (hw : worksNow s u = true) (hd : ∀ n, unitAt s e (p.step + 1) n = some d) (hctx : ctxOf s p.tag p.step = {})
    (hc : cipCheck s e mode = none) (hdu : duLen e = 0) (hlen : 512 ≤ p.data.length)
    (hbs : xts (mode == 0) (keyOf s e) (fld p.station 39 0) p.data = bs) (hne : bs ≠ []) :
    inboxOf (cipServe s u mode none) u = rest ∧ (cipServe s u mode none).dev.trunk =
      s.dev.trunk ++ [sentTo s e p.tag p.step u d p.off bs p.station p.prov] := by
  obtain ⟨hq, hend, he, hf, hr, hy⟩ := hp
  have hcached (slot gen : Nat) : Serving s u p.tag e rest (cacheKey (setInbox s u rest) u p.tag slot gen) :=
    ⟨rfl, rfl, inboxOf_setInbox_same .., he⟩
  rw [cipServe_takes hq he hf hr hy hk hm hw (Or.inl hend), cipTake_unit (s := setInbox s u rest) hctx hmode hc hdu hend]
  exact (hcached _ _).xtsPacket_sends hf hr (hd _) hlen hbs hne

/-! ## Output of a message (R158, R392, R396) -/

/-- The data of packets that are no tokens, joined. -/
def textOf (l : List Packet) : Bytes := ((l.filter (fun q => !q.endTok && !q.revoke)).map (·.data)).flatten

theorem textOf_append (l m : List Packet) : textOf (l ++ m) = textOf l ++ textOf m := by simp [textOf]

theorem textOf_of_tokens {l : List Packet} (h : ∀ q ∈ l, q.endTok = true ∨ q.revoke = true) : textOf l = [] := by
  have hnone : l.filter (fun q => !q.endTok && !q.revoke) = [] :=
    List.filter_eq_nil_iff.mpr fun q hq => by rcases h q hq with h | h <;> simp [h]
  rw [textOf, hnone]
  rfl

/-- The bytes `bs` have joined the trunk, in packets with PROV `prov`; besides them perhaps end tokens. -/
def Released (s : State) (bs : Bytes) (prov : Bool) (t : State) : Prop :=
  ∃ l, t.dev.trunk = s.dev.trunk ++ l ∧ textOf l = bs ∧ ∀ q ∈ l, q.endTok = false → q.prov = prov

namespace Released

variable {r : State} {cs : Bytes}

theorem nothing (prov : Bool) (h : t.dev = s.dev) : Released s [] prov t :=
  ⟨[], by rw [h, List.append_nil], rfl, fun _ hq => nomatch hq⟩

theorem append (h : Released s bs prov t) (k : Released t cs prov r) : Released s (bs ++ cs) prov r := by
  obtain ⟨l, hl, hbs, hprov⟩ := h
  obtain ⟨m, hm, hcs, hprov'⟩ := k
  exact ⟨l ++ m, by rw [hm, hl, List.append_assoc], by rw [textOf_append, hbs, hcs],
    fun q hq => (List.mem_append.mp hq).elim (hprov q) (hprov' q)⟩

/-- Operations that leave the trunk alone. -/
theorem of_dev (h : Released s bs prov t) (k : r.dev = t.dev) : Released s bs prov r := by rwa [Released, k]

end Released

/-- A station that is not the last ends its output with tokens alone (R172). -/
theorem endOut_releases (he : entryOf s tag = some e) (hlast : isLast s e step = false) (out : Nat) (tokenProv prov : Bool) :
    Released s [] prov (endOut s tag step u out tokenProv) := by
  obtain ⟨l, hl, htokens⟩ := endOut_sends (u := u) (out := out) (prov := tokenProv) he hlast
  exact ⟨l, hl, textOf_of_tokens fun q hq => Or.inl (htokens q hq), fun q hq hdata => by simp [htokens q hq] at hdata⟩

/-- One packet of the output goes out. -/
def sendText (s : State) (tag step u : Nat) (prov : Bool) (bs : Bytes) : State :=
  let off := (ctxOf s tag step).outBytes
  countCtx (sendData s tag step u (off / 4096) off bs 0 prov) tag step 0 bs.length

theorem sendTexts_release (hcfg : t.cfg = s.cfg) (he : entryOf t tag = some e) (hf : e.fenced = false) (hr : e.revoking = false)
    (hd : ∀ n, unitAt s e (step + 1) n = some d) (prov : Bool) (cs : List Bytes) :
    Released t cs.flatten prov (cs.foldl (fun t c => sendText t tag step u prov c) t) := by
  induction cs generalizing t with
  | nil => exact .nothing prov rfl
  | cons c cs ih =>
    let q := sentTo s e tag step u d (ctxOf t tag step).outBytes c 0 prov
    have hsent : sendText t tag step u prov c = countCtx (emit t q) tag step 0 c.length := by
      rw [sendText, sendData_of_cfg hcfg he hf hr (hd _)]
    have hfirst : Released t c prov (sendText t tag step u prov c) := by
      rw [hsent]
      exact ⟨[q], rfl, List.append_nil c, fun x hx _ => by rw [List.mem_singleton.mp hx]; rfl⟩
    refine hfirst.append (ih ?_ ?_)
    · rw [hsent]
      exact hcfg
    · rw [hsent]
      exact he

/-- Output without a disagreement leaves whole. -/
theorem release_sends (s : State) (u tag step : Nat) (out : Bytes) (prov : Bool) :
    release s u tag step out prov none = cipCount (sendOut s tag step u out 0 prov) u tag 0 out.length := by
  cases out <;> rfl

/-- The message that ends here leaves whole, where nothing of it has left before. -/
theorem gcmEmit_all (h : (ctxOf s tag step).outBytes = 0) (u : Nat) (out : Bytes) (prov : Bool) :
    gcmEmit s u tag step out true prov none = cipCount (sendOut s tag step u out 0 prov) u tag 0 out.length := by
  rw [gcmEmit, h, Bool.true_or, if_pos rfl, List.take_length, List.drop_zero, release_sends]

/-- The output of a whole message leaves, is counted or not (`r`), and the end token follows. -/
theorem Serving.whole_releases {r : State} (h : Serving s u tag e rest t) (hf : e.fenced = false) (hr : e.revoking = false)
    (hlast : isLast s e step = false) (hd : ∀ n, unitAt s e (step + 1) n = some d) (h0 : (ctxOf t tag step).outBytes = 0)
    (k : Keeps 16 (gcmEmit t u tag step bs true prov none) r) (out : Nat) (tokenProv : Bool) :
    Released s bs prov (endOut r tag step u out tokenProv) := by
  have hkeeps : Keeps 136 t (sendOut t tag step u bs 0 prov) := sendOut_keeps ..
  have hcounted : Keeps 16 (sendOut t tag step u bs 0 prov) r := by
    rw [gcmEmit_all h0] at k
    exact (cipCount_keeps ..).trans k
  have hsent : Released t bs prov (sendOut t tag step u bs 0 prov) := by
    have hpieces := sendTexts_release (u := u) h.cfg h.entry hf hr hd prov (chunks 4096 (bs.length / 4096 + 1) bs)
    rwa [chunks_flatten _ (by omega)] at hpieces
  have hentry : entryOf r tag = some e :=
    (entryOf_congr ((hcounted.sbx rfl).trans (hkeeps.sbx rfl)) tag).trans h.entry
  have hlast' : isLast r e step = false :=
    (isLast_congr ((hcounted.cfg rfl).trans ((hkeeps.cfg rfl).trans h.cfg)) e step).trans hlast
  have hall := (hsent.of_dev (hcounted.dev rfl)).append (endOut_releases (u := u) hentry hlast' out tokenProv prov)
  rwa [List.append_nil, Released, h.dev] at hall

/-! ## GCM: the end token of a whole message (R391 to R393, R396) -/

/-- Once data of the ticket has come, nothing begins (R386). -/
theorem firstData_of_acc (h : 32 ≤ (ctxOf s tag step).acc.length) : firstData s tag step = false := by
  rw [firstData, beq_eq_false_iff_ne]
  intro hctx
  rw [hctx] at h
  exact absurd h (by decide)

theorem cipTake_gcmEncEnd (h : 32 ≤ (ctxOf s tag step).acc.length) (hend : p.endTok = true) :
    cipTake s u tag e step 2 p none = gcmEncEnd s u tag step e p.prov none := by
  simp [cipTake, firstData_of_acc h, hend]

theorem cipTake_gcmDecEnd (h : 32 ≤ (ctxOf s tag step).acc.length) (hend : p.endTok = true)
    (hwaits : (ctxOf s tag step).waitsHold = false) :
    cipTake s u tag e step 3 p none = gcmDecEnd s u tag step e p.prov none := by
  simp [cipTake, firstData_of_acc h, hend, gcmDecTake, hwaits]

theorem drop_eq_slice {acc : Bytes} {n k : Nat} (h : acc.length = n + k) : acc.drop n = slice acc n k := by
  have hlen : (acc.drop n).length = k := by rw [List.length_drop]; omega
  simp [slice, List.take_of_length_le hlen.le, hlen]

theorem gcmSkip_whole (h : gcmPart e = 0) (acc : Bytes) : gcmSkip e acc = 32 + gcmAadLen acc := by
  simp [gcmSkip, gcmHasHeader, h]

/-- The output `out` of a whole message leaves, and its end token. -/
def sendWhole (s : State) (u tag step : Nat) (out : Bytes) (tokenProv prov : Bool) : State :=
  let r := gcmEmit s u tag step out true prov none
  endOut r tag step u (ctxOf r tag step).inBytes tokenProv

/-- What a whole message becomes (R392): its header and additional data, the ciphertext of `text`, and the tag. -/
def gcmSealed (key acc text : Bytes) : Bytes :=
  let j0 := gcmJ0 (slice acc 0 12)
  let ct := gctr key (text.length / 16 + 1) (ctrAdd j0 1) text
  let tag := gcmTag key j0 (ghash (gcmH key) (beNat (natBe 16 (ghash (gcmH key) 0 (slice acc 32 (gcmAadLen acc))))) ct)
    (gcmAadLen acc) text.length
  acc.take (32 + gcmAadLen acc) ++ ct ++ fit tag.length tag

theorem gcmEncEnd_whole (hpart : gcmPart e = 0) (hlen : (ctxOf s tag step).acc.length =
      32 + gcmAadLen (ctxOf s tag step).acc + gcmTextLen (ctxOf s tag step).acc)
    (htext : slice (ctxOf s tag step).acc (32 + gcmAadLen (ctxOf s tag step).acc) (gcmTextLen (ctxOf s tag step).acc) = text)
    (prov : Bool) : gcmEncEnd s u tag step e prov none =
      sendWhole s u tag step (gcmSealed (keyOf s e) (ctxOf s tag step).acc text) prov (ctxOf s tag step).prov := by
  have hheader : gcmHasHeader e = true := by simp [gcmHasHeader, hpart]
  have hdrop := (drop_eq_slice hlen).trans htext
  have htextLen : text.length = gcmTextLen (ctxOf s tag step).acc := by rw [← htext, slice_length]
  have htake : ((ctxOf s tag step).acc.take (32 + gcmAadLen (ctxOf s tag step).acc)).length =
      32 + gcmAadLen (ctxOf s tag step).acc := List.length_take_of_le (by omega)
  rw [gcmEncEnd]
  simp only [hpart, hheader, gcmStart, gcmEncOut, gcmSkip_whole hpart, hdrop, htextLen]
  rw [if_neg (by simp; omega)]
  simp only [sendWhole, gcmSealed, htextLen, List.drop_left' htake, Nat.zero_add, true_or, if_true, Option.isSome_none,
    Bool.false_eq_true, if_false]

/-- The text that a whole message opens to, if its tag is right (R392). -/
def gcmOpened (key acc : Bytes) : Option Bytes :=
  gcmOpen key (slice acc 0 12) (slice acc 32 (gcmAadLen acc)) (slice acc (32 + gcmAadLen acc) (gcmTextLen acc))
    (slice acc (32 + gcmAadLen acc + gcmTextLen acc) 16)

/-- The end of a whole message to be decrypted, whose lengths agree, turns on its tag. -/
theorem gcmDecEnd_whole (hpart : gcmPart e = 0) (h32 : 32 ≤ (ctxOf s tag step).acc.length)
    (hlen : (ctxOf s tag step).acc.length =
      32 + gcmAadLen (ctxOf s tag step).acc + gcmTextLen (ctxOf s tag step).acc + 16) (tokenProv : Bool) :
    gcmDecEnd s u tag step e tokenProv none = match gcmOpened (keyOf s e) (ctxOf s tag step).acc with
      | none => cipFail s u tag step 0x08
      | some text =>
        let held := gcmHeld (ctxOf s tag step).acc
        let s := gcmEmit s u tag step text true (if held then (ctxOf s tag step).prov else true) none
        let s := if held then bump s (Reg.CIP_ENG_RELEASE + 0x40 * cipIndex s u tag) 15 0 1 else s
        endOut s tag step u (ctxOf s tag step).inBytes tokenProv := by
  rw [gcmDecEnd, gcmSkip_whole hpart]
  exact (if_neg (by omega)).trans rfl

/-- The end token of a whole message stands at the front of engine `u`'s queue, which works on the step. -/
structure WholeEnds (s : State) (u d : Nat) (p : Packet) (e : Entry) (y : LStep) (rest : List Work) : Prop where
  queue : inboxOf s u = .pkt p :: rest
  token : p.endTok = true
  entry : entryOf s p.tag = some e
  unfenced : e.fenced = false
  running : e.revoking = false
  line : (stepsOf s e)[p.step]? = some y
  kind : stepKind y = 0x07
  works : worksNow s u = true
  notLast : isLast s e p.step = false
  dest : ∀ n, unitAt s e (p.step + 1) n = some d
  ready : tokenReady s p p.step = true
  flows : (ctxOf s p.tag p.step).waitsHold = false
  fresh : (ctxOf s p.tag p.step).outBytes = 0
  whole : gcmPart e = 0
  header : 32 ≤ (ctxOf s p.tag p.step).acc.length

namespace WholeEnds

theorem taken (h : WholeEnds s u d p e y rest) (hm : y.mode = mode) :
    cipServe s u mode none = cipTake (setInbox s u rest) u p.tag e p.step mode p none :=
  cipServe_takes h.queue h.entry h.unfenced h.running h.line h.kind hm h.works (Or.inr h.ready)

theorem gcmEnc (h : WholeEnds s u d p e y rest) (hm : y.mode = 2) (hlen : (ctxOf s p.tag p.step).acc.length =
      32 + gcmAadLen (ctxOf s p.tag p.step).acc + gcmTextLen (ctxOf s p.tag p.step).acc) :
    Nexts (exec (.gcmEnc u none) s) (Released s (gcmSealed (keyOf s e) (ctxOf s p.tag p.step).acc
      (slice (ctxOf s p.tag p.step).acc (32 + gcmAadLen (ctxOf s p.tag p.step).acc)
        (gcmTextLen (ctxOf s p.tag p.step).acc))) (ctxOf s p.tag p.step).prov) := by
  refine ⟨_, congrArg Host.Outcome.next (h.taken hm), ?_⟩
  rw [cipTake_gcmEncEnd (s := setInbox s u rest) h.header h.token,
    gcmEncEnd_whole (s := setInbox s u rest) h.whole hlen rfl]
  exact (Serving.taken h.entry).whole_releases h.unfenced h.running h.notLast h.dest h.fresh (Keeps.refl ..) _ _

theorem gcmDec (h : WholeEnds s u d p e y rest) (hm : y.mode = 3) (hlen : (ctxOf s p.tag p.step).acc.length =
      32 + gcmAadLen (ctxOf s p.tag p.step).acc + gcmTextLen (ctxOf s p.tag p.step).acc + 16)
    (hheld : gcmHeld (ctxOf s p.tag p.step).acc = true)
    (hopen : gcmOpened (keyOf s e) (ctxOf s p.tag p.step).acc = some text) :
    Nexts (exec (.gcmDec u none) s) (Released s text (ctxOf s p.tag p.step).prov) := by
  have hopen' : gcmOpened (keyOf (setInbox s u rest) e) (ctxOf (setInbox s u rest) p.tag p.step).acc = some text := hopen
  refine ⟨_, congrArg Host.Outcome.next (h.taken hm), ?_⟩
  rw [cipTake_gcmDecEnd (s := setInbox s u rest) h.header h.token h.flows,
    gcmDecEnd_whole (s := setInbox s u rest) h.whole h.header hlen, hopen']
  simp only [ctxOf_setInbox, hheld, if_true]
  exact (Serving.taken h.entry).whole_releases h.unfenced h.running h.notLast h.dest h.fresh (bump_keeps ..) _ _

theorem gcmDec_fails (h : WholeEnds s u d p e y rest) (hm : y.mode = 3) (hlen : (ctxOf s p.tag p.step).acc.length =
      32 + gcmAadLen (ctxOf s p.tag p.step).acc + gcmTextLen (ctxOf s p.tag p.step).acc + 16)
    (hopen : gcmOpened (keyOf s e) (ctxOf s p.tag p.step).acc = none) :
    Nexts (exec (.gcmDec u none) s) (Failed s e p.tag 0x08 u) := by
  have hopen' : gcmOpened (keyOf (setInbox s u rest) e) (ctxOf (setInbox s u rest) p.tag p.step).acc = none := hopen
  refine ⟨_, congrArg Host.Outcome.next (h.taken hm), ?_⟩
  rw [cipTake_gcmDecEnd (s := setInbox s u rest) h.header h.token h.flows,
    gcmDecEnd_whole (s := setInbox s u rest) h.whole h.header hlen, hopen']
  exact (Serving.taken h.entry).cipFail_fails h.running h.notLast (by omega) (by omega)

end WholeEnds

/-! ## Room in the hold buffer (R396) -/

/-- Without a spare bound, GCM_HOLD_ROOM_FREE is about the engine's own hardware. -/
theorem exec_gcmHoldRoomFree (h : (unitOf s 181).state ≠ .bound) (u : Nat) :
    exec (.gcmHoldRoomFree u) s = .next (holdRoomFree u s u) := by
  change execGcmHoldRoomFree u s = _
  rw [execGcmHoldRoomFree, if_neg (fun hspare => h hspare.1)]
  rfl

theorem holdRoomFree_takes (hwait : Tab.getD s.key.holdWait u [] = tag :: waiting) (he : entryOf s tag = some e)
    (hstep : stepInside s u tag = some step) (hheld : (ctxOf s tag step).held = [])
    (hroom : holdUsed s u + holdNeed (gcmTextLen (ctxOf s tag step).acc) ≤ 262144) :
    Tab.getD (holdRoomFree u s u).key.holdWait u [] = waiting ∧
      Tab.get? (Tab.getD (holdRoomFree u s u).key.hold u []) tag = some (holdNeed (gcmTextLen (ctxOf s tag step).acc)) ∧
      (ctxOf (holdRoomFree u s u) tag step).waitsHold = false := by
  let next := setKey s { s.key with holdWait := Tab.put [] s.key.holdWait u waiting }
  let reserved := reserveHold next u tag (holdNeed (gcmTextLen (ctxOf s tag step).acc))
  have hrun : holdRoomFree u s u =
      setInbox (setCtx reserved tag step { ctxOf s tag step with waitsHold := false, held := [] }) u (inboxOf s u) := by
    simp only [holdRoomFree, hwait, he, hstep, hheld, List.flatMap_nil, List.append_nil, if_neg (Nat.not_lt.mpr hroom),
      List.map_nil, List.nil_append]
    rfl
  have hhold : Tab.getD reserved.key.hold u [] =
      Tab.set (Tab.getD s.key.hold u []) tag (holdNeed (gcmTextLen (ctxOf s tag step).acc)) := Tab.getD_set_same ..
  rw [hrun]
  refine ⟨Tab.getD_put_same .., ?_, ?_⟩
  · exact (congrArg (Tab.get? · tag) hhold).trans (Tab.get?_set_same ..)
  · rw [ctxOf_setInbox, ctxOf_setCtx_same]

end

/-- Settles O39: the first packet of a ticket in the index form of XTS, the end token of a whole GCM message, then hold room
that comes free. -/
theorem cipherEnginesEncryptDecryptAndAuthenticate : Obligations.CipherEnginesEncryptDecryptAndAuthenticate := by
  unfold Obligations.CipherEnginesEncryptDecryptAndAuthenticate
  intro s u d tag j st p e y rest waiting c key bs turned data
  refine ⟨fun hp hk hw hlast hd hctx => ?_,
    fun hq hend he hf hr hy hk hw hlast hd hready hflows hfresh hpart h32 => ?_,
    fun hspare hwait he hstep hheld hroom => ?_, fun hspare hwait => ?_⟩
  · refine ⟨fun hm hc hdu hlen hne => ?_, fun hm hc hdu hlen hne => ?_, fun hm hc => ?_, fun hm hc => ?_⟩
    · exact ⟨_, rfl, cipServe_unit hp hk hm (by omega) hw hd hctx hc hdu hlen (by simp only [bs, hm]; rfl) hne⟩
    · exact ⟨_, rfl, cipServe_unit hp hk hm (by omega) hw hd hctx hc hdu hlen (by simp only [bs, hm]; rfl) hne⟩
    · exact ⟨_, rfl, cipServe_refuses hp hk hm hw hlast hctx hc⟩
    · exact ⟨_, rfl, cipServe_refuses hp hk hm hw hlast hctx hc⟩
  · have h : WholeEnds s u d p e y rest :=
      ⟨hq, hend, he, hf, hr, hy, hk, hw, hlast, hd, hready, hflows, hfresh, hpart, h32⟩
    refine ⟨fun hm hlen => ?_, fun out hm hlen hheld hopen => ?_, fun hm hlen hopen => ?_⟩
    · obtain ⟨t, hrun, l, htrunk, htext, -⟩ := h.gcmEnc hm hlen
      exact ⟨t, hrun, l, htrunk, htext⟩
    · exact h.gcmDec hm hlen hheld hopen
    · obtain ⟨t, hrun, hfails, l, htrunk, hrevoke⟩ := h.gcmDec_fails hm hlen hopen
      exact ⟨t, hrun, hfails, l, htrunk, textOf_of_tokens fun q hq => Or.inr (hrevoke q hq)⟩
  · exact ⟨_, exec_gcmHoldRoomFree hspare u, holdRoomFree_takes hwait he hstep hheld hroom⟩
  · rw [exec_gcmHoldRoomFree hspare, holdRoomFree, hwait]

end Sys2Proof.Machine
end

section
/-! SUPPORT and O40. The digest engines: line tickets and the feed port (11_digest.md, R416 to R428, R434). -/

namespace Sys2Proof.Machine

section
variable {s t : State} {e : Entry} {y : LStep} {rest : List Work} {p : Packet} {u d tag step mode : Nat}

/-! ## An engine takes the front of its queue (R416) -/

/-- Once a ticket's hashing has begun, nothing is checked again (R417): a packet is hashed, and an end token that is due ends
the input. -/
theorem dgtServe_of_begun (hq : inboxOf s u = .pkt p :: rest) (he : entryOf s p.tag = some e) (hf : e.fenced = false)
    (hr : e.revoking = false) (hy : (stepsOf s e)[p.step]? = some y) (hk : stepKind y = 0x08) (hm : y.mode = mode)
    (hw : worksNow s u = true) (hctx : ctxOf s p.tag p.step ≠ {}) (hready : p.endTok = false ∨ tokenReady s p p.step = true) :
    dgtServe s u mode =
      if p.endTok then dgtEnd (setInbox s u rest) u p.tag p.step e mode p.prov
      else dgtData (setInbox s u rest) u p.tag p.step e mode p := by
  have hbegun : (ctxOf (setInbox s u rest) p.tag p.step == {}) = false := beq_eq_false_iff_ne.mpr hctx
  have hdue : (p.endTok && !tokenReady (setInbox s u rest) p p.step) = false := by
    rcases hready with hdata | hready
    · rw [hdata, Bool.false_and]
    · rw [show tokenReady (setInbox s u rest) p p.step = true from hready, Bool.not_true, Bool.and_false]
  rw [dgtServe, serveFront_packet hq he hf hr hy hk (by simp [hm]) hw]
  simp only [hdue, hbegun, Bool.false_eq_true, if_false]

theorem dgtServe_packet (hp : packetWaits s u p e y rest) (hk : stepKind y = 0x08) (hm : y.mode = mode)
    (hw : worksNow s u = true) (hctx : ctxOf s p.tag p.step ≠ {}) :
    dgtServe s u mode = dgtData (setInbox s u rest) u p.tag p.step e mode p := by
  obtain ⟨hq, hdata, he, hf, hr, hy⟩ := hp
  rw [dgtServe_of_begun hq he hf hr hy hk hm hw hctx (Or.inl hdata), hdata]
  rfl

/-! ## A packet is hashed (R416, R418) -/

/-- The context of a ticket after one more packet: at most MSG_LEN bytes of the message are kept. -/
def Ctx.hashed (c : Ctx) (e : Entry) (p : Packet) : Ctx := { c with
  inBytes := c.inBytes + p.data.length
  acc := if dgtLen e = 0 then c.acc ++ p.data else (c.acc ++ p.data).take (dgtLen e)
  prov := c.prov || p.prov }

theorem dgtData_sink (s : State) (u tag step : Nat) (e : Entry) (p : Packet) :
    dgtData s u tag step e 1 p = setCtx s tag step ((ctxOf s tag step).hashed e p) := rfl

theorem dgtData_pass (hcfg : t.cfg = s.cfg) (he : entryOf t tag = some e) (hf : e.fenced = false) (hr : e.revoking = false)
    (hd : unitAt s e (step + 1) (p.off / 4096) = some d) :
    dgtData t u tag step e 0 p = countCtx (emit (setCtx t tag step ((ctxOf t tag step).hashed e p))
      (sentTo s e tag step u d p.off p.data p.station p.prov)) tag step 0 p.data.length :=
  sendUnit_of_cfg (t := setCtx t tag step ((ctxOf t tag step).hashed e p)) hcfg he hf hr hd

theorem acc_countCtx (s : State) (tag step inB outB : Nat) :
    (ctxOf (countCtx s tag step inB outB) tag step).acc = (ctxOf s tag step).acc :=
  (congrArg Ctx.acc (ctxOf_setCtx_same ..)).trans rfl

/-- PASS hashes the packet and sends it on. -/
theorem pass_hashes (hp : packetWaits s u p e y rest) (hk : stepKind y = 0x08) (hm : y.mode = 0) (hw : worksNow s u = true)
    (hctx : ctxOf s p.tag p.step ≠ {}) (hd : unitAt s e (p.step + 1) (p.off / 4096) = some d) :
    Nexts (exec (.pass u) s) (fun t => inboxOf t u = rest ∧
      (ctxOf t p.tag p.step).acc = ((ctxOf s p.tag p.step).hashed e p).acc ∧
      t.dev.trunk = s.dev.trunk ++ [sentTo s e p.tag p.step u d p.off p.data p.station p.prov]) := by
  refine ⟨_, congrArg Host.Outcome.next (dgtServe_packet hp hk hm hw hctx), ?_⟩
  obtain ⟨-, -, he, hf, hr, -⟩ := hp
  rw [dgtData_pass (s := s) (t := setInbox s u rest) rfl he hf hr hd]
  exact ⟨inboxOf_setInbox_same .., (acc_countCtx ..).trans (congrArg Ctx.acc (ctxOf_setCtx_same (setInbox s u rest) ..)), rfl⟩

/-- SINK hashes the packet and sends nothing. -/
theorem sink_hashes (hp : packetWaits s u p e y rest) (hk : stepKind y = 0x08) (hm : y.mode = 1) (hw : worksNow s u = true)
    (hctx : ctxOf s p.tag p.step ≠ {}) : Nexts (exec (.sink u) s) (fun t => inboxOf t u = rest ∧
      (ctxOf t p.tag p.step).acc = ((ctxOf s p.tag p.step).hashed e p).acc ∧ t.dev.trunk = s.dev.trunk) := by
  refine ⟨_, congrArg Host.Outcome.next (dgtServe_packet hp hk hm hw hctx), ?_⟩
  rw [dgtData_sink]
  exact ⟨inboxOf_setInbox_same .., congrArg Ctx.acc (ctxOf_setCtx_same (setInbox s u rest) ..), rfl⟩

/-! ## The result (R418 to R420) -/

theorem resultRecord_length (tag : Nat) (e : Entry) (status hashed : Nat) (fallback : Bool) (digest : Bytes) :
    (resultRecord tag e status hashed fallback digest).length = 128 := by
  simp [resultRecord, zeros]

/-- Local memory reads back what was written to it. -/
theorem lmemRead_lmemWrite (s : State) (i a : Nat) (bs : Bytes) : lmemRead (lmemWrite s i a bs) i a bs.length = bs :=
  (congrArg (memRead · a bs.length) (Tab.getD_put_same ..)).trans (memRead_memWrite ..)

/-- The record of a ticket of which every byte has been hashed (R418, R419). -/
def doneRecord (s : State) (tag step : Nat) (e : Entry) : Bytes :=
  resultRecord tag e 0 (ctxOf s tag step).acc.length ((ctxOf s tag step).count == 1) (dgtDigest s e (ctxOf s tag step).acc)

/-- A last SINK step whose message has its declared length writes its record and acknowledges (R420, R782). -/
theorem dgtEnd_sink (hlast : isLast s e step = true) (hlen : dgtLen e = 0 ∨ dgtLen e = (ctxOf s tag step).inBytes) :
    dgtEnd s u tag step e 1 false = endOut (writeResult s tag e (doneRecord s tag step e)) tag step u 128 false := by
  have hshort : ¬(dgtLen e ≠ 0 ∧ (ctxOf s tag step).inBytes < dgtLen e) := by omega
  have htrunc : ¬(dgtLen e ≠ 0 ∧ dgtLen e < (ctxOf s tag step).inBytes) := by omega
  simp only [dgtEnd, hlast, Bool.and_false, Bool.false_eq_true, if_neg hshort, decide_eq_false htrunc, if_false, if_true,
    or_true]
  rfl

/-- The record that the end of a ticket has written stays in the result area. -/
theorem writeResult_ends (he : entryOf s tag = some e) (hr : e.revoking = false) (hlast : isLast s e step = true)
    (hclean : cleanTicket s e) {bs : Bytes} (hlen : bs.length = 128) :
    endedWith s (endOut (writeResult s tag e bs) tag step u 128 false) tag 0 128 ∧
      lmemRead (endOut (writeResult s tag e bs) tag step u 128 false) e.t.inst
        (fld (resultArea s e.t.inst) 27 0 * 4096 + 128 * tag) 128 = bs := by
  have hkeeps : Keeps 33556480 s (writeResult s tag e bs) := writeResult_keeps ..
  have hsbx : (writeResult s tag e bs).sbx = s.sbx := hkeeps.sbx rfl
  have he' : entryOf (writeResult s tag e bs) tag = some e := (entryOf_congr hsbx tag).trans he
  have hclean' : cleanTicket (writeResult s tag e bs) e := by rwa [cleanTicket, hsbx]
  rw [endOut_of_last he' ((isLast_congr (hkeeps.cfg rfl) e step).trans hlast)]
  constructor
  · have hends := ackTicket_ends (out := 128) he' hr hclean'
    rwa [endedWith, hsbx] at hends
  · have hread := lmemRead_lmemWrite s e.t.inst (fld (resultArea s e.t.inst) 27 0 * 4096 + 128 * tag) bs
    rw [hlen] at hread
    rw [lmemRead, (ackTicket_keeps ..).lmem rfl]
    exact hread

theorem sink_ends (hq : inboxOf s u = .pkt p :: rest) (hend : p.endTok = true) (hprov : p.prov = false)
    (he : entryOf s p.tag = some e) (hf : e.fenced = false) (hr : e.revoking = false)
    (hy : (stepsOf s e)[p.step]? = some y) (hk : stepKind y = 0x08) (hm : y.mode = 1) (hw : worksNow s u = true)
    (hlast : isLast s e p.step = true) (hready : tokenReady s p p.step = true) (hctx : ctxOf s p.tag p.step ≠ {})
    (hlen : dgtLen e = 0 ∨ dgtLen e = (ctxOf s p.tag p.step).inBytes) (hclean : cleanTicket s e) :
    Nexts (exec (.sink u) s) (fun t => endedWith s t p.tag 0 128 ∧
      lmemRead t e.t.inst (fld (resultArea s e.t.inst) 27 0 * 4096 + 128 * p.tag) 128 = doneRecord s p.tag p.step e) := by
  refine ⟨_, congrArg Host.Outcome.next (dgtServe_of_begun hq he hf hr hy hk hm hw hctx (Or.inr hready)), ?_⟩
  rw [hend, hprov, if_pos rfl, dgtEnd_sink (s := setInbox s u rest) hlast hlen]
  exact writeResult_ends (s := setInbox s u rest) he hr hlast hclean (resultRecord_length ..)

end

section
variable {s : State} {i st : Nat} {v : Word} {rcd : Bytes} {g : Feed}

/-! ## An operation of the feed port completes (R424, R434) -/

/-- The operation in progress of engine `i` has completed with status `st`. -/
def FeedCompleted (i st : Nat) (t : State) : Prop :=
  live t (Reg.DGT_FEED_RESULT + 0x80 * i) 7 0 = st ∧ live t (Reg.DGT_FEED_RESULT + 0x80 * i) 8 8 = 1 ∧ (feedOf t i).op = 0

@[simp] theorem feedOf_feedDone (s : State) (i st : Nat) : feedOf (feedDone s i st) i = { feedOf s i with op := 0 } :=
  feedOf_setFeed_same ..

theorem feedDone_completes (s : State) (i : Nat) (h : st < 256) : FeedCompleted i st (feedDone s i st) := by
  refine ⟨?_, ?_, ?_⟩
  · exact (live_setLive_same _ _ _ _ _ (by omega)).trans (Nat.mod_eq_of_lt h)
  · exact (live_setLive_apart _ _ _ _ _ (by omega) (by omega) (by omega)).trans (live_setLive_same _ _ _ _ _ (by omega))
  · rw [feedOf_feedDone]

/-- The context is free, and DIGEST stays (R426). -/
@[simp] theorem feedOf_feedClose (s : State) (i : Nat) :
    feedOf (feedClose s i) i = { op := (feedOf s i).op, digest := (feedOf s i).digest } :=
  feedOf_setFeed_same ..

/-! ## START (R424) -/

/-- ALG of the FEED group (R433). -/
def feedAlg (s : State) (i : Nat) : Nat := fld (feedReg s i Reg.DGT_FEED_CTL) 15 8

theorem feedStart_opens (hop : (feedOf s i).op = 1) (hfree : (feedOf s i).opened = false)
    (halg : (algSizes (feedAlg s i)).1 ≠ 0) (hplain : isHmac (feedAlg s i) = false) :
    Nexts (exec (.feedStart i) s) (fun t => FeedCompleted i 0 t ∧ (feedOf t i).opened = true ∧
      (feedOf t i).alg = feedAlg s i ∧ (feedOf t i).done = 0 ∧ (feedOf t i).st = hashSeed (feedAlg s i) ∧
      (feedOf t i).buf = []) := by
  have hrun : ∃ len, exec (.feedStart i) s = .next (feedDone (setFeed s i
      { opened := true, alg := feedAlg s i, len := len, st := hashSeed (feedAlg s i) }) i 0) := by
    change ∃ len, execFeedStart i s = _
    exact ⟨_, (if_neg (by simp [hop, hfree])).trans ((if_neg halg).trans (if_pos (by rw [← feedAlg, hplain]; rfl)))⟩
  obtain ⟨len, hrun⟩ := hrun
  refine ⟨_, hrun, feedDone_completes _ _ (by omega), ?_⟩
  simp

theorem feedStart_refuses (hop : (feedOf s i).op = 1) (hfree : (feedOf s i).opened = false)
    (halg : (algSizes (feedAlg s i)).1 = 0) :
    Nexts (exec (.feedStart i) s) (fun t => FeedCompleted i 0x10 t ∧ (feedOf t i).opened = false) := by
  refine ⟨feedDone s i 0x10, ?_, feedDone_completes _ _ (by omega), by simp [hfree]⟩
  change execFeedStart i s = _
  exact (if_neg (by simp [hop, hfree])).trans (if_pos halg)

/-! ## Words (R425, R426) -/

theorem exec_feedW0_opened (hopen : (feedOf s i).opened = true) :
    exec (.feedW0 i v) s = .next (setFeed s i { feedOf s i with w0 := v.toNat }) := by
  change Host.Outcome.next (feedW0 s i v.toNat) = _
  rw [feedW0, if_pos hopen]

theorem exec_feedW1_opened (hopen : (feedOf s i).opened = true) (hlast : (feedOf s i).last = none) :
    exec (.feedW1 i v) s =
      .next (setFeed s i (feedPush (feedOf s i) (natLe 4 (feedOf s i).w0 ++ natLe 4 v.toNat))) := by
  change Host.Outcome.next (feedW1 s i v.toNat) = _
  simp only [feedW1, hopen, hlast, Bool.not_true, Bool.false_eq_true, if_false]

theorem exec_feedLast_marks (hopen : (feedOf s i).opened = true) (h1 : 1 ≤ v.toNat % 16) (h8 : v.toNat % 16 ≤ 8) :
    exec (.feedLast i v) s = .next (setFeed s i { feedOf s i with last := some (v.toNat % 16) }) := by
  change Host.Outcome.next (feedLast s i v.toNat) = _
  have hpos : ¬v.toNat % 16 = 0 := by omega
  simp only [feedLast, hopen, Nat.not_lt.mpr h8, hpos, Bool.not_true, Bool.false_eq_true, or_false, if_false]

/-- VALID 0 ends the message (R425). -/
theorem exec_feedLast_ends (hopen : (feedOf s i).opened = true) (h0 : v.toNat % 16 = 0) :
    exec (.feedLast i v) s = .next (feedEnd s i) := by
  change Host.Outcome.next (feedLast s i v.toNat) = _
  simp [feedLast, hopen, h0]

/-- Each write to a context that is not open is counted and ignored (R425). -/
theorem feedWrites_ignored (hfree : (feedOf s i).opened = false) :
    ∀ x ∈ [Instr.feedW0 i v, Instr.feedW1 i v, Instr.feedLast i v], exec x s = .next (feedIgnored s i) := by
  have hw0 : feedW0 s i v.toNat = feedIgnored s i := by simp [feedW0, hfree]
  have hw1 : feedW1 s i v.toNat = feedIgnored s i := by simp [feedW1, hfree]
  have hlast : feedLast s i v.toNat = feedIgnored s i := by simp [feedLast, hfree]
  simp only [List.forall_mem_cons]
  exact ⟨congrArg Host.Outcome.next hw0, congrArg Host.Outcome.next hw1, congrArg Host.Outcome.next hlast,
    fun _ h => nomatch h⟩

/-- The digest of a plain computation of no declared length. -/
def feedDigest (f : Feed) : Bytes := fit (algSizes f.alg).1 (Config.hashFinal (algBase f.alg) f.st f.buf f.done)

theorem feedEnd_plain (hlen : (feedOf s i).len = 0) (hplain : isHmac (feedOf s i).alg = false) :
    feedEnd s i =
      feedDone (feedClose (setFeed s i { feedOf s i with digest := feedDigest (feedOf s i) }) i) i 0 := by
  simp only [feedEnd, hlen, hplain, ne_eq, not_true_eq_false, false_and, decide_false, Bool.false_eq_true, if_false, if_true,
    Nat.zero_add, feedDigest]

theorem feedLast_completes (hopen : (feedOf s i).opened = true) (hlen : (feedOf s i).len = 0) (h0 : v.toNat % 16 = 0)
    (hplain : isHmac (feedOf s i).alg = false) : Nexts (exec (.feedLast i v) s) (fun t => FeedCompleted i 0 t ∧
      (feedOf t i).opened = false ∧ (feedOf t i).digest = feedDigest (feedOf s i)) := by
  refine ⟨_, exec_feedLast_ends hopen h0, ?_⟩
  rw [feedEnd_plain hlen hplain]
  exact ⟨feedDone_completes _ _ (by omega), by simp, by simp⟩

/-! ## SAVE, RESTORE, ABANDON (R424, R427, R428) -/

/-- The save record of a plain computation (R427). -/
def clearSave (f : Feed) : Bytes := saveHead 2 f ++ saveBody f ++ zeros 80

theorem clearSave_length (f : Feed) : (clearSave f).length = 512 := by
  simp [clearSave, saveHead, saveBody, zeros]

theorem saveRecord_plain {f : Feed} (hkey : f.key = none) (s : State) (iv : Bytes) : saveRecord s f iv = some (clearSave f) := by
  simp only [saveRecord, hkey, Option.isNone_none, if_true, clearSave]

theorem save_writes (hop : (feedOf s i).op = 2) (hopen : (feedOf s i).opened = true) (hkey : (feedOf s i).key = none)
    (htdi : Tab.getD s.tru.tdi 0 .unlocked ≠ .error) : Nexts (exec (.save i) s) (fun t => FeedCompleted i 0 t ∧
      (feedOf t i).opened = false ∧ memRead (Tab.getD t.host 0 []) (feedAddr s i) 512 = clearSave (feedOf s i)) := by
  let u := hostWrite (drawn s) 0 0 (feedAddr s i) (clearSave (feedOf s i))
  have hrun : exec (.save i) s = .next (feedDone (feedClose u i) i 0) := by
    change execSave i s = _
    rw [execSave, saveRecord_plain hkey]
    exact if_neg (by simp [hop, hopen])
  have hhost : (feedDone (feedClose u i) i 0).host = u.host :=
    ((feedDone_keeps ..).host rfl).trans ((feedClose_keeps ..).host rfl)
  refine ⟨_, hrun, feedDone_completes _ _ (by omega), by simp, ?_⟩
  rw [hhost, ← clearSave_length (feedOf s i)]
  exact memRead_hostWrite (s := drawn s) 0 (feedAddr s i) (clearSave (feedOf s i)) htdi

/-- A good record reopens the computation, which uses its slot again, if it has one (R374). -/
theorem restore_reopens (hop : (feedOf s i).op = 3) (hfree : (feedOf s i).opened = false)
    (hgood : restoreParse s (fit 512 rcd) = .ok g) :
    Nexts (exec (.restore i rcd) s) (fun t => FeedCompleted i 0 t ∧ feedOf t i = { g with op := 0 }) := by
  have hrun : ∃ u, exec (.restore i rcd) s = .next (feedDone (setFeed u i g) i 0) := by
    change ∃ u, execRestore i rcd s = _
    rw [execRestore, hgood]
    exact ⟨_, if_neg (by simp [hop, hfree])⟩
  obtain ⟨u, hrun⟩ := hrun
  exact ⟨_, hrun, feedDone_completes _ _ (by omega), by simp⟩

theorem abandon_frees (hop : (feedOf s i).op = 4) (hopen : (feedOf s i).opened = true) :
    Nexts (exec (.abandon i) s) (fun t => FeedCompleted i 0 t ∧ (feedOf t i).opened = false ∧ (feedOf t i).st = [] ∧
      (feedOf t i).buf = []) := by
  have hrun : exec (.abandon i) s = .next (feedDone (feedClose s i) i 0) := by
    change execAbandon i s = _
    exact if_neg (by simp [hop, hopen])
  exact ⟨_, hrun, feedDone_completes _ _ (by omega), by simp⟩

end

/-- Settles O40: the packets of a ticket and the end of a last SINK step, then the feed port's operations one after another. -/
theorem digestStationsAndTheFeedPortHash : Obligations.DigestStationsAndTheFeedPortHash := by
  unfold Obligations.DigestStationsAndTheFeedPortHash
  intro s u d i p e y rest v rcd g c f r done hashed
  refine ⟨fun hp hk hw hctx => ⟨fun hm hd => pass_hashes hp hk hm hw hctx hd, fun hm => sink_hashes hp hk hm hw hctx⟩,
    sink_ends, feedStart_opens, feedStart_refuses, exec_feedW0_opened, exec_feedW1_opened, exec_feedLast_marks,
    fun hopen _ hlen h0 hplain => feedLast_completes hopen hlen h0 hplain, feedWrites_ignored, save_writes, restore_reopens,
    abandon_frees⟩

end Sys2Proof.Machine
end

section
/-! SUPPORT and O41. The associative search unit (12_associative_search.md, R439 to R448, R451 to R458). -/

namespace Sys2Proof.Machine

section
variable {l : List (Nat × SEntry)} {w x : Nat × SEntry}

/-! ## The winner (R440) -/

/-- Entry `w` beats `x`, or is it: its PRIORITY is higher, or its index is no higher at the same PRIORITY (R440). -/
def AtLeast (w x : Nat × SEntry) : Prop := x.2.prio < w.2.prio ∨ x.2.prio = w.2.prio ∧ w.1 ≤ x.1

theorem winner_concat_of_none (h : winner l = none) : winner (l ++ [x]) = some x := by
  rw [winner, List.foldl_append, ← winner, h]
  rfl

theorem winner_concat_of_some (h : winner l = some w) :
    winner (l ++ [x]) = if w.2.prio < x.2.prio then some x else some w := by
  rw [winner, List.foldl_append, ← winner, h]
  rfl

theorem eq_nil_of_winner (h : winner l = none) : l = [] := by
  induction l using List.reverseRecOn with
  | nil => rfl
  | append_singleton l x _ =>
    cases hl : winner l with
    | none => rw [winner_concat_of_none hl] at h; cases h
    | some v => rw [winner_concat_of_some hl] at h; split at h <;> cases h

/-- In a list of rising indexes a later entry wins by a higher PRIORITY alone. -/
theorem winner_wins (hrising : l.Pairwise (fun x z => x.1 < z.1)) (h : winner l = some w) :
    w ∈ l ∧ ∀ x ∈ l, AtLeast w x := by
  induction l using List.reverseRecOn generalizing w with
  | nil => cases h
  | append_singleton l z ih =>
    obtain ⟨hrising, -, hz⟩ := List.pairwise_append.mp hrising
    have hlast : ∀ x ∈ l, x.1 < z.1 := fun x hx => hz x hx z (List.mem_singleton_self z)
    cases hl : winner l with
    | none =>
      obtain rfl := eq_nil_of_winner hl
      rw [winner_concat_of_none hl] at h
      cases h
      simp [AtLeast]
    | some v =>
      obtain ⟨hv, hbest⟩ := ih hrising hl
      have hvz := hlast v hv
      rw [winner_concat_of_some hl] at h
      split at h <;> cases h
      · have hnew : ∀ x ∈ l, AtLeast z x := fun x hx => by
          have hvx := hbest x hx
          unfold AtLeast at *
          omega
        exact ⟨List.mem_concat_self,
          List.forall_mem_append.mpr ⟨hnew, List.forall_mem_singleton.mpr (Or.inr ⟨rfl, le_rfl⟩)⟩⟩
      · have hold : AtLeast w z := by
          unfold AtLeast
          omega
        exact ⟨List.mem_append_left _ hv,
          List.forall_mem_append.mpr ⟨hbest, List.forall_mem_singleton.mpr hold⟩⟩

end

section
variable {q : SlotBook} {a : Nat × Tab (List Nat) × List Nat} {urgent wait m n p k b old : Nat} {r : List Nat}

/-! ## One slot (R446, R448) -/

/-- Port `p` asks for the banks of its next slot: the banks taken, what the ports still need, and the ports that lost a bank. -/
def servePort (q : SlotBook) (a : Nat × Tab (List Nat) × List Nat) (p : Nat) : Nat × Tab (List Nat) × List Nat :=
  let x := askBanks a.1 (Tab.getD q.ports p [])
  (x.1, Tab.put [] a.2.1 p x.2.1, if x.2.2 then a.2.2 ++ [p] else a.2.2)

/-- The ports below `n` have asked, the banks `urgent` being taken before them. -/
def servePorts (q : SlotBook) (urgent n : Nat) : Nat × Tab (List Nat) × List Nat :=
  (List.range n).foldl (servePort q) (urgent, q.ports, [])

theorem servePorts_succ (q : SlotBook) (urgent n : Nat) :
    servePorts q urgent (n + 1) = servePort q (servePorts q urgent n) n := by
  rw [servePorts, List.range_succ, List.foldl_append]
  rfl

/-- What is left of the updates `l` that wait for bank `b`, once the searches have taken the banks `taken` (R448). -/
def updatesLeft (urgent taken b : Nat) (l : List Nat) : List Nat :=
  (if bitOf urgent b || !bitOf taken b then l.drop 1 else l).map (· + 1)

theorem slotStep_eq (wait : Nat) (q : SlotBook) : slotStep wait q =
    ({ ports := (servePorts q (urgentBanks wait q) 4).2.1
       updates := (Tab.mapVals q.updates (updatesLeft (urgentBanks wait q) (servePorts q (urgentBanks wait q) 4).1)).filter
        (fun p => !p.2.isEmpty) },
      (servePorts q (urgentBanks wait q) 4).2.2) := rfl

theorem servePort_idle (h : Tab.getD q.ports p [] = []) : servePort q a p = (a.1, Tab.put [] a.2.1 p [], a.2.2) := by
  simp [servePort, askBanks, h]

theorem servePort_granted (h : Tab.getD q.ports p [] = m :: r) (hfree : m &&& a.1 = 0) :
    servePort q a p = (a.1 ||| m, Tab.put [] a.2.1 p r, a.2.2) := by
  simp [servePort, askBanks, h, hfree]

theorem servePort_lost (h : Tab.getD q.ports p [] = m :: r) (htaken : m &&& a.1 ≠ 0) :
    servePort q a p = (a.1, Tab.put [] a.2.1 p (m :: r), a.2.2 ++ [p]) := by
  simp [servePort, askBanks, h, htaken]

/-- The first `k` ports have asked as `a` says; what is said of the ports from `k` on is of no account. -/
def Asked (k : Nat) (a c : Nat × Tab (List Nat) × List Nat) : Prop :=
  c.1 = a.1 ∧ c.2.2 = a.2.2 ∧ ∀ p < k, Tab.getD c.2.1 p [] = Tab.getD a.2.1 p []

/-- Ports that need nothing change nothing. -/
theorem servePorts_idle (hk : k ≤ n) (h : ∀ p, k ≤ p → p < n → Tab.getD q.ports p [] = []) :
    Asked k (servePorts q urgent k) (servePorts q urgent n) := by
  induction n, hk using Nat.le_induction with
  | base => exact ⟨rfl, rfl, fun _ _ => rfl⟩
  | succ n hk ih =>
    obtain ⟨htaken, hlost, hports⟩ := ih fun p hp hn => h p hp (by omega)
    rw [servePorts_succ, servePort_idle (h n hk (by omega))]
    exact ⟨htaken, hlost, fun p hp => (Tab.getD_put_other (k := n) _ [] _ (by omega)).trans (hports p hp)⟩

/-- Port `p` gets its banks, and no port after it needs any. -/
theorem servePorts_granted (hp : p < n) (h : Tab.getD q.ports p [] = m :: r) (hfree : m &&& (servePorts q urgent p).1 = 0)
    (hidle : ∀ p', p < p' → p' < n → Tab.getD q.ports p' [] = []) :
    Asked (p + 1) ((servePorts q urgent p).1 ||| m, Tab.put [] (servePorts q urgent p).2.1 p r, (servePorts q urgent p).2.2)
      (servePorts q urgent n) := by
  have hrest := servePorts_idle (urgent := urgent) (Nat.succ_le_of_lt hp) hidle
  rwa [Nat.succ_eq_add_one, servePorts_succ, servePort_granted h hfree] at hrest

/-- Port `p` loses a bank and waits with the whole group, and no port after it needs any. -/
theorem servePorts_lost (hp : p < n) (h : Tab.getD q.ports p [] = m :: r) (htaken : m &&& (servePorts q urgent p).1 ≠ 0)
    (hidle : ∀ p', p < p' → p' < n → Tab.getD q.ports p' [] = []) :
    Asked (p + 1)
      ((servePorts q urgent p).1, Tab.put [] (servePorts q urgent p).2.1 p (m :: r), (servePorts q urgent p).2.2 ++ [p])
      (servePorts q urgent n) := by
  have hrest := servePorts_idle (urgent := urgent) (Nat.succ_le_of_lt hp) hidle
  rwa [Nat.succ_eq_add_one, servePorts_succ, servePort_lost h htaken] at hrest

/-- Of two ports that need a bank, the lower is served and the other waits (R448). -/
theorem slotStep_lowerPort_first {p1 p2 m' : Nat} {r1 r2 : List Nat} (h12 : p1 < p2) (h4 : p2 < 4) (hshared : m &&& m' ≠ 0)
    (hupdates : q.updates = []) (hq : q.ports = [(p1, m :: r1), (p2, m' :: r2)]) (wait : Nat) :
    (slotStep wait q).2 = [p2] ∧ Tab.getD (slotStep wait q).1.ports p1 [] = r1 ∧
      Tab.getD (slotStep wait q).1.ports p2 [] = m' :: r2 := by
  have hidle (p : Nat) (h1 : p ≠ p1) (h2 : p ≠ p2) : Tab.getD q.ports p [] = [] := by
    simp [hq, Tab.getD, Tab.get?, h1.symm, h2.symm]
  have hneed1 : Tab.getD q.ports p1 [] = m :: r1 := by simp [hq, Tab.getD, Tab.get?]
  have hneed2 : Tab.getD q.ports p2 [] = m' :: r2 := by simp [hq, Tab.getD, Tab.get?, h12.ne]
  have hurgent : urgentBanks wait q = 0 := by simp [urgentBanks, hupdates, bankMask]
  obtain ⟨htaken, hlost, -⟩ : Asked 0 (0, q.ports, []) (servePorts q 0 p1) :=
    servePorts_idle (Nat.zero_le p1) fun p _ hp => hidle p (by omega) (by omega)
  obtain ⟨htaken1, hlost1, hports1⟩ := servePorts_granted h12 hneed1 (urgent := 0) (by rw [htaken, Nat.and_zero])
    fun p hp hp' => hidle p (by omega) (by omega)
  obtain ⟨-, hlost2, hports2⟩ := servePorts_lost h4 hneed2 (urgent := 0)
    (by rwa [htaken1, htaken, Nat.zero_or, Nat.and_comm]) fun p hp hp' => hidle p (by omega) (by omega)
  rw [slotStep_eq, hurgent]
  refine ⟨?_, ?_, ?_⟩
  · rw [hlost2, hlost1, hlost, List.nil_append]
  · rw [hports2 p1 (by omega), Tab.getD_put_other _ _ _ h12.ne, hports1 p1 (by omega), Tab.getD_put_same]
  · rw [hports2 p2 (by omega), Tab.getD_put_same]

theorem urgentBanks_single (wait : Nat) (h : q.updates = [(b, [old])]) :
    urgentBanks wait q = if wait ≤ old then 2 ^ b else 0 := by
  by_cases hold : wait ≤ old <;> simp [urgentBanks, h, hold, bankMask]

theorem updates_slotStep_single (wait : Nat) (h : q.updates = [(b, [old])]) : (slotStep wait q).1.updates =
    if bitOf (urgentBanks wait q) b || !bitOf (servePorts q (urgentBanks wait q) 4).1 b then [] else [(b, [old + 1])] := by
  rw [slotStep_eq, h]
  split <;> simp_all [Tab.mapVals, updatesLeft]

/-- Before a search, an update gets its bank once it has waited `wait` slots; until then it waits (R448). -/
theorem slotStep_update_first (hp : p < 4) (hbank : bitOf m b = true) (hq : q.ports = [(p, m :: r)])
    (hupdates : q.updates = [(b, [old])]) :
    (wait ≤ old → (slotStep wait q).2 = [p] ∧ (slotStep wait q).1.updates = [] ∧
      Tab.getD (slotStep wait q).1.ports p [] = m :: r) ∧
    (old < wait → (slotStep wait q).2 = [] ∧ (slotStep wait q).1.updates = [(b, [old + 1])] ∧
      Tab.getD (slotStep wait q).1.ports p [] = r) := by
  have hidle (p' : Nat) (h : p' ≠ p) : Tab.getD q.ports p' [] = [] := by simp [hq, Tab.getD, Tab.get?, h.symm]
  have hneed : Tab.getD q.ports p [] = m :: r := by simp [hq, Tab.getD, Tab.get?]
  have hbefore (urgent : Nat) : Asked 0 (urgent, q.ports, []) (servePorts q urgent p) :=
    servePorts_idle (Nat.zero_le p) fun p' _ hp' => hidle p' (by omega)
  rw [updates_slotStep_single wait hupdates, slotStep_eq, urgentBanks_single wait hupdates]
  refine ⟨fun hold => ?_, fun hold => ?_⟩
  · rw [if_pos hold]
    obtain ⟨htaken, hlost, -⟩ := hbefore (2 ^ b)
    obtain ⟨-, hlost1, hports1⟩ := servePorts_lost hp hneed (urgent := 2 ^ b)
      (by rw [htaken, Nat.and_two_pow]; rw [bitOf] at hbank; simp [hbank]) fun p' hp' _ => hidle p' (by omega)
    refine ⟨by rw [hlost1, hlost, List.nil_append], by simp [bitOf], ?_⟩
    rw [hports1 p (by omega), Tab.getD_put_same]
  · rw [if_neg (Nat.not_le.mpr hold)]
    obtain ⟨htaken, hlost, -⟩ := hbefore 0
    obtain ⟨htaken1, hlost1, hports1⟩ := servePorts_granted hp hneed (urgent := 0) (by rw [htaken, Nat.and_zero])
      fun p' hp' _ => hidle p' (by omega)
    refine ⟨by rw [hlost1, hlost], ?_, ?_⟩
    · rw [htaken1, htaken, Nat.zero_or, hbank, bitOf, Nat.zero_testBit]
      rfl
    · rw [hports1 p (by omega), Tab.getD_put_same]

end

section
variable {s : State} {e e' : Entry} {y : LStep} {rest : List Work} {p : Packet} {u d tag step mode st n : Nat} {bs : Bytes}

/-! ## The checks of a packet (R444, R445) -/

/-- A packet that passes captures GENs in the ticket's entry, which changes nothing else of it. -/
theorem entry_of_searchCheck (h : searchCheck s e mode bs = .ok e') :
    e'.fenced = e.fenced ∧ e'.revoking = e.revoking ∧ ∀ step n, unitAt s e' step n = unitAt s e step n := by
  unfold searchCheck at h
  extract_lets at h
  split_ifs at h <;> cases h <;> exact ⟨rfl, rfl, fun _ _ => rfl⟩

theorem status_of_searchCheck (h : searchCheck s e mode bs = .error st) : 4 < st ∧ st < 0x12 := by
  unfold searchCheck at h
  extract_lets at h
  split_ifs at h <;> cases h <;> decide

/-! ## The port takes a packet (R441) -/

theorem outBytes_countCtx (s : State) (tag step inB outB : Nat) :
    (ctxOf (countCtx s tag step inB outB) tag step).outBytes = (ctxOf s tag step).outBytes + outB :=
  (congrArg Ctx.outBytes (ctxOf_setCtx_same ..)).trans rfl

/-- The port has taken packet `p` from its queue, of which `rest` is left. -/
def portTaken (s : State) (u : Nat) (p : Packet) (rest : List Work) : State :=
  countCtx (setInbox s u rest) p.tag p.step p.data.length 0

theorem portTaken_serving (he : entryOf s p.tag = some e) : Serving s u p.tag e rest (portTaken s u p rest) :=
  (Serving.taken he).withCtx _

theorem searchCheck_portTaken (s : State) (u : Nat) (p : Packet) (rest : List Work) (e : Entry) (mode : Nat) (bs : Bytes) :
    searchCheck (portTaken s u p rest) e mode bs = searchCheck s e mode bs := rfl

/-- A packet for `mode` that is not provisional, of a ticket that holds none back, is at the front of the port's queue. -/
abbrev searchComes (s : State) (u mode : Nat) (p : Packet) (e : Entry) (y : LStep) (rest : List Work) : Prop :=
  packetWaits s u p e y rest ∧ stepKind y = 0x09 ∧ y.mode = mode ∧ worksNow s u = true ∧ p.prov = false ∧
    (ctxOf s p.tag p.step).held = []

/-- Such a packet is acted on at once. -/
theorem searchServe_packet (h : searchComes s u mode p e y rest) :
    searchServe s u mode {} = searchPacket (portTaken s u p rest) u p.tag p.step mode [] p := by
  obtain ⟨⟨hq, hend, he, hf, hr, hy⟩, hk, hm, hw, hprov, hheld⟩ := h
  rw [searchServe, show ternaryFaults s ({} : SearchEnv).ternary = s from rfl,
    serveFront_packet hq he hf hr hy hk (by simp [hm]) hw]
  dsimp only
  rw [if_neg (by simp [hend])]
  exact if_neg (by simp [hprov, hheld])

/-! ## A packet that fails its checks (R444) -/

/-- A failure at a station that is not the last leaves the array as it is. -/
theorem asu_failAt (hlast : isLast s e step = false) (he : entryOf s tag = some e) (u status : Nat) :
    (failAt s tag step u status).asu = s.asu := by
  have hreport : Keeps 80 s (engineFailed (report s tag u status) u tag status) :=
    (engineFailed_keeps ..).via rfl ((report_keeps ..).mono rfl)
  have hlast' := (isLast_congr (hreport.cfg rfl) e step).trans hlast
  simp only [failAt, he, hlast', Bool.false_eq_true, if_false]
  split
  · rfl
  · rw [(modEntry_keeps ..).asu rfl, (engineCleared_keeps ..).asu rfl, (sendToken_keeps ..).asu rfl, hreport.asu rfl]

theorem searchServe_refuses (h : searchComes s u mode p e y rest)
    (hlast : isLast s e p.step = false) (hc : searchCheck s e mode p.data = .error st) :
    failedWith (searchServe s u mode {}) e p.tag st u ∧ (searchServe s u mode {}).asu.entries = s.asu.entries := by
  obtain ⟨h4, h12⟩ := status_of_searchCheck hc
  rw [searchServe_packet h]
  obtain ⟨⟨hq, hend, he, hf, hr, hy⟩, -⟩ := h
  have ht : Serving s u p.tag e rest (portTaken s u p rest) := portTaken_serving he
  have hrun : searchPacket (portTaken s u p rest) u p.tag p.step mode [] p =
      failAt (portTaken s u p rest) p.tag p.step u st := by
    simp only [searchPacket, ht.entry, searchCheck_portTaken, hc]
  have hlast' := (isLast_congr ht.cfg e p.step).trans hlast
  rw [hrun]
  exact ⟨(failAt_fails ht.entry hr hlast' h4 h12).1, congrArg Asu.entries (asu_failAt hlast' ht.entry ..)⟩

/-! ## A search (R440, R442, R443) -/

theorem chunks_of_le (hne : bs ≠ []) (hlen : bs.length ≤ n) (fuel : Nat) : chunks n (fuel + 1) bs = [bs] := by
  have hnil : chunks n fuel [] = [] := by cases fuel <;> rfl
  rw [chunks, if_neg (by simpa using hne), List.take_of_length_le hlen, List.drop_eq_nil_of_le hlen, hnil]

/-- A packet of one record. -/
theorem recordsOf_single (h : bs.length = if mode = 3 then 64 else 32) : recordsOf mode bs = [bs] := by
  refine chunks_of_le (fun hnil => ?_) h.le 127
  rw [hnil] at h
  split at h <;> cases h

theorem resultOf_length (s : State) (rcd : Bytes) : (resultOf s rcd).length = 16 := by
  simp only [resultOf]
  split <;> simp [zeros]

theorem resultOf_portTaken (s : State) (u : Nat) (p : Packet) (rest : List Work) (rcd : Bytes) :
    resultOf (portTaken s u p rest) rcd = resultOf s rcd := rfl

theorem sendOut_single (hne : bs ≠ []) (hlen : bs.length ≤ 4096) (s : State) (tag step u station : Nat) (prov : Bool) :
    sendOut s tag step u bs station prov = countCtx (sendData s tag step u ((ctxOf s tag step).outBytes / 4096)
      (ctxOf s tag step).outBytes bs station prov) tag step 0 bs.length := by
  rw [sendOut, chunks_of_le hne hlen]
  rfl

theorem not_mem_winnerWords_nil (s : State) (rs : List Bytes) {k : Nat} (h : k ≠ 0) : k ∉ winnerWords s rs [] := by
  intro hmem
  obtain ⟨_, _, rfl⟩ := List.mem_map.mp hmem
  exact h rfl

theorem winnerWords_nil_good (s : State) (rs : List Bytes) : (winnerWords s rs []).contains 2 = false := by
  simpa using not_mem_winnerWords_nil s rs (by decide : 2 ≠ 0)

/-- Where the array shows no fault, nothing is counted (R455). -/
theorem countWords_winnerWords_nil (s t : State) (u inst tag : Nat) (rs : List Bytes) :
    countWords s u inst tag (winnerWords t rs []) = s := by
  simp only [countWords, winnerWords_nil_good, Bool.false_eq_true, if_false,
    List.count_eq_zero_of_not_mem (not_mem_winnerWords_nil t rs (by decide : 1 ≠ 0))]
  rfl

/-- The ticket's GENs are captured and the banks of the key need their slots (R444, R446). -/
def keyPresented (s : State) (u tag : Nat) (e : Entry) (rcd : Bytes) : State :=
  presentKeys (setEntry s tag e) (asuPort u) [leAt rcd 16 8]

theorem searchPacket_answers (he : entryOf s tag = some e) (hc : searchCheck s e mode p.data = .ok e') (hmode : mode ≠ 3)
    (hlen : p.data.length = 32) : ∃ r, Keeps 16 (keyPresented s u tag e' p.data) r ∧
      searchPacket s u tag step mode [] p = sendOut r tag step u (resultOf s p.data) 0 false := by
  have hone : recordsOf mode p.data = [p.data] := recordsOf_single (by rw [if_neg hmode, hlen])
  simp only [searchPacket, he, hc, if_neg hmode, hone, List.map_cons, List.map_nil, List.flatMap_cons, List.flatMap_nil,
    List.append_nil, countWords_winnerWords_nil, winnerWords_nil_good, Bool.false_eq_true, if_false]
  exact ⟨_, (bump_keeps ..).trans (bump_keeps ..), rfl⟩

/-- The result of key record `p` is sent to unit `d`, in one packet, and the key needs its slots. -/
def AnswersKey (s : State) (u d : Nat) (p : Packet) (rest : List Work) (t : State) : Prop :=
  inboxOf t u = rest ∧ t.asu.entries = s.asu.entries ∧
    Tab.getD t.asu.slots.ports (asuPort u) [] =
      Tab.getD s.asu.slots.ports (asuPort u) [] ++ keySlots (leAt p.data 16 8) ∧
    ∃ q, t.dev.trunk = s.dev.trunk ++ [q] ∧ q.dest = d ∧ q.src = u ∧ q.tag = p.tag ∧
      q.off = (ctxOf s p.tag p.step).outBytes ∧ q.data = resultOf s p.data

theorem searchServe_answers (h : searchComes s u mode p e y rest) (hmode : mode ≠ 3)
    (hc : searchCheck s e mode p.data = .ok e') (hlen : p.data.length = 32)
    (hd : unitAt s e (p.step + 1) ((ctxOf s p.tag p.step).outBytes / 4096) = some d) :
    AnswersKey s u d p rest (searchServe s u mode {}) := by
  obtain ⟨hfenced, hrevoking, hunit⟩ := entry_of_searchCheck hc
  rw [searchServe_packet h]
  obtain ⟨⟨hq, hend, he, hf, hr, hy⟩, -⟩ := h
  have ht : Serving s u p.tag e rest (portTaken s u p rest) := portTaken_serving he
  obtain ⟨r, hkeeps, hrun⟩ := searchPacket_answers (u := u) (step := p.step) ht.entry
    ((searchCheck_portTaken ..).trans hc) hmode hlen
  have hpresented : Serving s u p.tag e' rest (keyPresented (portTaken s u p rest) u p.tag e' p.data) :=
    ⟨rfl, rfl, ht.queue, entryOf_setEntry_same ..⟩
  have hcounted := hpresented.counted hkeeps
  have hasu : r.asu = (keyPresented (portTaken s u p rest) u p.tag e' p.data).asu := hkeeps.asu rfl
  have hout : (ctxOf r p.tag p.step).outBytes = (ctxOf s p.tag p.step).outBytes :=
    (congrArg Ctx.outBytes (ctxOf_congr (hkeeps.stn rfl) ..)).trans (outBytes_countCtx ..)
  have h16 : (resultOf s p.data).length = 16 := resultOf_length ..
  have hne : resultOf s p.data ≠ [] := fun hnil => by rw [hnil] at h16; cases h16
  let sent := sentTo s e' p.tag p.step u d (ctxOf s p.tag p.step).outBytes (resultOf s p.data) 0 false
  have hsent : searchPacket (portTaken s u p rest) u p.tag p.step mode [] p = countCtx (emit r sent) p.tag p.step 0 16 := by
    rw [hrun, resultOf_portTaken, sendOut_single hne (by omega), hout, sendData_of_cfg hcounted.cfg hcounted.entry
      (hfenced.trans hf) (hrevoking.trans hr) ((hunit ..).trans hd), h16]
  have hports : Tab.getD r.asu.slots.ports (asuPort u) [] =
      Tab.getD s.asu.slots.ports (asuPort u) [] ++ [leAt p.data 16 8].flatMap keySlots := by
    rw [hasu]
    exact Tab.getD_put_same ..
  rw [hsent]
  refine ⟨hcounted.queue, ?_, ?_, sent, by rw [← hcounted.dev]; rfl, rfl, rfl, rfl, rfl, rfl⟩
  · change r.asu.entries = _
    rw [hasu]
    rfl
  · rwa [List.flatMap_singleton] at hports

/-! ## An update (R451) -/

theorem get?_putEntry (l : Tab SEntry) (g g' : Nat) (x : Option SEntry) :
    Tab.get? (putEntry l g x) g' = if g' = g then x else Tab.get? l g' := by
  cases x with
  | none => exact Tab.get?_erase ..
  | some x => exact Tab.get?_set ..

theorem get?_putEntry_same (l : Tab SEntry) (g : Nat) (x : Option SEntry) : Tab.get? (putEntry l g x) g = x :=
  (get?_putEntry ..).trans (if_pos rfl)

theorem searchServe_stores (h : searchComes s u 3 p e y rest)
    (hc : searchCheck s e 3 p.data = .ok e') (hlen : p.data.length = 64) :
    Tab.get? (searchServe s u 3 {}).asu.entries (locationOf p.data) = entryOfRecord p.data ∧
      (∀ g', g' ≠ locationOf p.data →
        Tab.get? (searchServe s u 3 {}).asu.entries g' = Tab.get? s.asu.entries g') ∧
      locationOf p.data ∉ (searchServe s u 3 {}).asu.lost := by
  rw [searchServe_packet h]
  obtain ⟨⟨hq, hend, he, hf, hr, hy⟩, -⟩ := h
  have ht : Serving s u p.tag e rest (portTaken s u p rest) := portTaken_serving he
  have hone : recordsOf 3 p.data = [p.data] := recordsOf_single hlen
  have hasu : (searchPacket (portTaken s u p rest) u p.tag p.step 3 [] p).asu =
      (storeEntry (presentUpdates s [locationOf p.data / 8192]) (locationOf p.data) (entryOfRecord p.data)).asu := by
    simp only [searchPacket, ht.entry, searchCheck_portTaken, hc, hone, if_true]
    rfl
  rw [hasu]
  refine ⟨get?_putEntry_same .., fun g' hg => (get?_putEntry ..).trans (if_neg hg), fun hlost => ?_⟩
  simpa using (List.mem_filter.mp hlost).2

end

section
variable {s : State} {e : Entry} {y : LStep} {tag n j : Nat} {waiting : List Nat}

/-! ## Room in the hold region (R458) -/

/-- The earliest waiting ticket takes its reservation, which fits. -/
theorem asuHoldRoomFree_takes (hwait : Tab.getD s.asu.holdWait n [] = tag :: waiting) (he : entryOf s tag = some e)
    (hy : (stepsOf s e)[j]? = some y)
    (hstep : (List.range (stepsOf s e).length).find? (fun j => (ctxOf s tag j).waitsHold) = some j)
    (hroom : searchHoldUsed s n + searchHoldNeed e y ≤ 4194304) : Nexts (exec (.asuHoldRoomFree n) s) (fun t =>
      Tab.getD t.asu.holdWait n [] = waiting ∧
        Tab.get? (Tab.getD t.asu.hold n []) tag = some (searchHoldNeed e y) ∧ (ctxOf t tag j).waitsHold = false) := by
  let reserved := setAsu s { s.asu with
    holdWait := Tab.put [] s.asu.holdWait n waiting
    hold := Tab.set s.asu.hold n (Tab.set (Tab.getD s.asu.hold n []) tag (searchHoldNeed e y)) }
  have hrun : exec (.asuHoldRoomFree n) s =
      .next (setCtx reserved tag j { ctxOf s tag j with waitsHold := false }) := by
    change execAsuHoldRoomFree n s = _
    simp only [execAsuHoldRoomFree, hwait, he, hstep, hy, Option.map_some, Option.getD_some, if_neg (Nat.not_lt.mpr hroom)]
    rfl
  have hhold : Tab.getD reserved.asu.hold n [] = Tab.set (Tab.getD s.asu.hold n []) tag (searchHoldNeed e y) :=
    Tab.getD_set_same ..
  refine ⟨_, hrun, Tab.getD_put_same .., ?_, ?_⟩
  · exact (congrArg (Tab.get? · tag) hhold).trans (Tab.get?_set_same ..)
  · rw [ctxOf_setCtx_same]

end

section
variable {s : State} {b n g word sp : Nat} {found : Option Bytes} {copies : List (Bool × Option Bytes)} {v : Option SEntry}

/-! ## The scrubber (R454) -/

theorem cleanShadow_of_no_copies (h : s.asu.copies = []) (g : Nat) (a : Option (Option SEntry))
    (copies : List (Bool × Option Bytes)) : cleanShadow s g a copies = none := by
  cases a <;> simp [cleanShadow, h]

/-- The copy that equals the array is taken (R454). -/
theorem cleanShadow_of_equal {a : Option SEntry} (h : (true, none) ∈ copies.take s.asu.copies.length)
    (ha : a = Tab.get? s.asu.shadow g) : cleanShadow s g (some a) copies = some a := by
  refine if_pos (List.contains_iff_mem.mpr ?_)
  exact List.mem_map.mpr ⟨(true, none), List.mem_filter.mpr ⟨h, rfl⟩, ha.symm⟩

/-- `t` is `s` but for the time of the scrub pass (R465). -/
def PassNoted (s t : State) : Prop := ∃ since last, t = setAsu s { s.asu with passSince := since, lastPass := last }

theorem scrubPass_notes (s : State) (g : Nat) : PassNoted s (scrubPass s g) := by
  unfold scrubPass
  split
  · exact ⟨_, _, rfl⟩
  · split
    · split
      · exact ⟨_, _, rfl⟩
      · exact ⟨s.asu.passSince, s.asu.lastPass, rfl⟩
    · exact ⟨s.asu.passSince, s.asu.lastPass, rfl⟩

/-- What the array gives at entry `g` (R454). -/
def arrayWord (s : State) (g : Nat) (found : Option Bytes) : Option SEntry :=
  match found with
  | some rcd => entryOfRecord rcd
  | none => Tab.get? s.asu.entries g

/-- What the scrubber takes as the shadow of entry `g`: a word that cannot be corrected says nothing (R454). -/
def shadowTaken (s : State) (g word : Nat) (found : Option Bytes) (copies : List (Bool × Option Bytes)) :
    Option (Option SEntry) :=
  cleanShadow s g (if word = 2 then none else some (arrayWord s g found)) copies

/-- The word cannot be corrected, and no copy is clean. -/
def wordLost (s : State) (g : Nat) : State :=
  recordScrub (bump (setAsu s { s.asu with lost := s.asu.lost ++ [g] }) Reg.ASU_SCRUB_COUNTS 7 0 1) 4 g

/-- Entry `g` takes the value `v` in the array and in the shadow. -/
def wordRewritten (s : State) (b g : Nat) (v : Option SEntry) : State :=
  countFinding (recordScrub (bump (setAsu s { s.asu with
    entries := putEntry s.asu.entries g v, shadow := putEntry s.asu.shadow g v }) Reg.ASU_SCRUB_COUNTS 23 16 1) 2 g) b

/-- Entry `g` stays what the array gives, which the shadow takes where a copy is left; a corrected symbol and a shadow without a
clean copy are findings. -/
def wordKept (s : State) (b g word : Nat) (array : Option SEntry) (shadow : Option (Option SEntry)) : State :=
  let s := setAsu s { s.asu with
    entries := putEntry s.asu.entries g array
    shadow := if s.asu.copies.isEmpty then s.asu.shadow else putEntry s.asu.shadow g array }
  if word = 1 then countFinding (recordScrub (bump s Reg.ASU_SCRUB_COUNTS 31 24 1) 1 g) b
  else if !s.asu.copies.isEmpty ∧ shadow = none then recordScrub (bump s Reg.ASU_SCRUB_COUNTS 15 8 1) 3 g
  else s

theorem asu_wordLost (s : State) (g : Nat) : (wordLost s g).asu = { s.asu with lost := s.asu.lost ++ [g] } :=
  (recordScrub_keeps ..).asu rfl

theorem asu_wordRewritten (s : State) (b g : Nat) (v : Option SEntry) : (wordRewritten s b g v).asu =
    { s.asu with entries := putEntry s.asu.entries g v, shadow := putEntry s.asu.shadow g v } :=
  ((countFinding_keeps ..).asu rfl).trans ((recordScrub_keeps ..).asu rfl)

theorem entries_wordKept (s : State) (b g word : Nat) (array : Option SEntry) (shadow : Option (Option SEntry)) :
    (wordKept s b g word array shadow).asu.entries = putEntry s.asu.entries g array := by
  unfold wordKept
  extract_lets t
  split
  · rw [(countFinding_keeps ..).asu rfl, (recordScrub_keeps ..).asu rfl]
    rfl
  · split
    · rw [(recordScrub_keeps ..).asu rfl]
      rfl
    · rfl

section
variable (hb : b < 64) (hn : n < 8192) (hg : g = 8192 * b + n) (hlost : g ∉ s.asu.lost)
    (hflight : updateInFlight s g = false)
include hb hn hg hlost hflight

/-- The scrubber compares an entry that is not LOST and has no update in flight: it finds the word lost, rewrites it, or keeps
it (R454). -/
theorem exec_scrubRead (word : Nat) (found : Option Bytes) (copies : List (Bool × Option Bytes)) :
    let array := arrayWord s g found
    let shadow := shadowTaken s g word found copies
    ∃ t, PassNoted s t ∧ exec (.scrubRead b n word found copies) s = .next (
      if word = 2 ∧ shadow = none then wordLost t g
      else if shadow ≠ none ∧ (word = 2 ∨ shadow ≠ some array) then wordRewritten t b g shadow.join
      else wordKept t b g word array shadow) := by
  obtain ⟨t, hpass, hnoted⟩ : ∃ t, scrubPass s g = t ∧ PassNoted s t := ⟨_, rfl, scrubPass_notes s g⟩
  refine ⟨t, hnoted, ?_⟩
  obtain ⟨since, last, rfl⟩ := hnoted
  have hcompared : ¬(64 ≤ b ∨ 8192 ≤ n ∨ s.asu.lost.contains g ∨ updateInFlight s g) := by
    simp [hlost, hflight, hb, hn]
  change execScrubRead b n word found copies s = _
  simp only [execScrubRead, hb, hn, and_self, if_true, ← hg, hpass, wordKept, apply_ite Host.Outcome.next]
  exact if_neg hcompared

/-- A word that cannot be corrected is LOST where no copy is clean, and the array stays. -/
theorem scrubRead_loses (hshadow : shadowTaken s g 2 found copies = none) :
    Nexts (exec (.scrubRead b n 2 found copies) s) (fun t =>
      t.asu.lost = s.asu.lost ++ [g] ∧ t.asu.entries = s.asu.entries) := by
  obtain ⟨t, ⟨since, last, rfl⟩, hrun⟩ := exec_scrubRead hb hn hg hlost hflight 2 found copies
  rw [if_pos ⟨rfl, hshadow⟩] at hrun
  refine ⟨_, hrun, ?_⟩
  beta_reduce
  rw [asu_wordLost]
  exact ⟨rfl, rfl⟩

/-- A word that cannot be corrected, or that differs from the shadow, takes the value of the shadow. -/
theorem scrubRead_rewrites (hshadow : shadowTaken s g word found copies = some v)
    (hwrong : word = 2 ∨ v ≠ arrayWord s g found) :
    Nexts (exec (.scrubRead b n word found copies) s) (fun t =>
      Tab.get? t.asu.entries g = v ∧ Tab.get? t.asu.shadow g = v ∧ t.asu.lost = s.asu.lost) := by
  obtain ⟨t, ⟨since, last, rfl⟩, hrun⟩ := exec_scrubRead hb hn hg hlost hflight word found copies
  have hdiffers : word = 2 ∨ some v ≠ some (arrayWord s g found) := hwrong.imp_right (mt Option.some.inj)
  rw [hshadow, if_neg (fun h => nomatch h.2), if_pos ⟨Option.some_ne_none v, hdiffers⟩] at hrun
  refine ⟨_, hrun, ?_⟩
  beta_reduce
  rw [asu_wordRewritten]
  exact ⟨get?_putEntry_same .., get?_putEntry_same .., rfl⟩

/-- A word that equals the shadow, or that no clean copy is there to compare with, stays what the array gives. -/
theorem scrubRead_keeps (hword : word ≠ 2)
    (hshadow : shadowTaken s g word found copies = none ∨
      shadowTaken s g word found copies = some (arrayWord s g found)) :
    Nexts (exec (.scrubRead b n word found copies) s) (fun t =>
      Tab.get? t.asu.entries g = arrayWord s g found) := by
  obtain ⟨t, ⟨since, last, rfl⟩, hrun⟩ := exec_scrubRead hb hn hg hlost hflight word found copies
  have hagrees : ¬(shadowTaken s g word found copies ≠ none ∧
      (word = 2 ∨ shadowTaken s g word found copies ≠ some (arrayWord s g found))) := by
    rintro ⟨hsome, hwrong⟩
    exact (hwrong.resolve_left hword) (hshadow.resolve_left hsome)
  rw [if_neg (fun h => hword h.1), if_neg hagrees] at hrun
  refine ⟨_, hrun, ?_⟩
  beta_reduce
  rw [entries_wordKept]
  exact get?_putEntry_same ..

/-- A word that can be read comes to equal the shadow. -/
theorem scrubRead_agrees (hword : word ≠ 2) (hshadow : shadowTaken s g word found copies = some v) :
    Nexts (exec (.scrubRead b n word found copies) s) (fun t => Tab.get? t.asu.entries g = v) := by
  by_cases hsame : v = arrayWord s g found
  · obtain ⟨t, hrun, hentry⟩ := scrubRead_keeps hb hn hg hlost hflight hword
      (Or.inr (hshadow.trans (congrArg some hsame)))
    exact ⟨t, hrun, hentry.trans hsame.symm⟩
  · obtain ⟨t, hrun, hentry, -⟩ := scrubRead_rewrites hb hn hg hlost hflight hshadow (Or.inr hsame)
    exact ⟨t, hrun, hentry⟩

end

/-! ## Bank copies (R456, R457) -/

theorem bankCopyDone_binds (hcopies : s.asu.copies ≠ []) (hstate : (bankOf s b).state = .copying)
    (hspare : (bankOf s b).spare = some sp) : Nexts (exec (.bankCopyDone b) s) (fun t =>
      (bankOf t b).state = (if (bankOf s b).failed then .spared else .test) ∧ (unitOf t sp).state = .bound ∧
        (unitOf t sp).serves = 152 + b / 4) := by
  let copied := setBank s b { bankOf s b with state := if (bankOf s b).failed then .spared else .test }
  have hrun : exec (.bankCopyDone b) s =
      .next (setUnit copied sp { unitOf copied sp with state := .bound, serves := 152 + b / 4 }) := by
    change execBankCopyDone b s = _
    simp only [execBankCopyDone, List.isEmpty_eq_false_iff.mpr hcopies, hstate, hspare, Bool.false_eq_true, if_false, copied]
  refine ⟨_, hrun, congrArg Bank.state (bankOf_setBank_same ..), ?_, ?_⟩
  · rw [unitOf_setUnit_same]
  · rw [unitOf_setUnit_same]

theorem bankCopyDone_frees (hcopies : s.asu.copies ≠ []) (hstate : (bankOf s b).state = .returning)
    (hspare : (bankOf s b).spare = some sp) : Nexts (exec (.bankCopyDone b) s) (fun t =>
      bankOf t b = {} ∧ (unitOf t sp).state = .idle ∧ (unitOf t sp).serves = 0xFF) := by
  let returned := setBank s b {}
  have hrun : exec (.bankCopyDone b) s =
      .next (setUnit returned sp { unitOf returned sp with state := .idle, serves := 0xFF }) := by
    change execBankCopyDone b s = _
    simp only [execBankCopyDone, List.isEmpty_eq_false_iff.mpr hcopies, hstate, hspare, Bool.false_eq_true, if_false]
    rfl
  refine ⟨_, hrun, bankOf_setBank_same .., ?_, ?_⟩
  · rw [unitOf_setUnit_same]
  · rw [unitOf_setUnit_same]

end

/-- Settles O41: the winner of a list, the packets of the four modes, the slots of ports and updates, hold room that comes free,
then the scrubber and the bank copies. -/
theorem searchMatchesUpdatesScrubsAndCopies : Obligations.SearchMatchesUpdatesScrubsAndCopies := by
  unfold Obligations.SearchMatchesUpdatesScrubsAndCopies
  intro s u d b n tag j g p e e' y rest l w waiting sp st rcd copies q m m' p1 p2 wait old r1 r2 c port comes asks answers bad
    fails
  have hanswers (mode : Nat) (hmode : mode ≠ 3) : asks mode → answers (searchServe s u mode {}) := by
    rintro ⟨h, hc, hlen, hd⟩
    exact searchServe_answers h hmode hc hlen hd
  have hfails (mode : Nat) : bad mode → fails (searchServe s u mode {}) := by
    rintro ⟨h, hlast, hc⟩
    exact searchServe_refuses h hlast hc
  refine ⟨winner_wins, eq_nil_of_winner, fun h => ⟨_, rfl, hanswers 0 (by decide) h⟩,
    fun h => ⟨_, rfl, hanswers 1 (by decide) h⟩, fun h => ⟨_, rfl, hanswers 2 (by decide) h⟩,
    fun h hc hlen => ⟨_, rfl, searchServe_stores h hc hlen⟩,
    fun h => ⟨_, rfl, hfails 0 h⟩, fun h => ⟨_, rfl, hfails 1 h⟩, fun h => ⟨_, rfl, hfails 2 h⟩,
    fun h => ⟨_, rfl, hfails 3 h⟩,
    fun h12 h4 hshared hupdates hq => slotStep_lowerPort_first h12 h4 hshared hupdates hq wait,
    slotStep_update_first, asuHoldRoomFree_takes, fun hb hn hg hlost hflight => ?_,
    fun hcopies a => cleanShadow_of_no_copies hcopies g a copies, fun _ => cleanShadow_of_equal, bankCopyDone_binds,
    bankCopyDone_frees⟩
  exact ⟨fun v hshadow => scrubRead_rewrites hb hn hg hlost hflight hshadow (Or.inl rfl),
    scrubRead_loses hb hn hg hlost hflight, fun v hshadow => scrubRead_agrees hb hn hg hlost hflight (by decide) hshadow,
    fun hshadow => scrubRead_keeps hb hn hg hlost hflight (by decide) (Or.inl hshadow)⟩

end Sys2Proof.Machine
end

section
/-! SUPPORT. The invariant of O59: every byte memory of the machine is canonical. `MemsWf` says it of a state; each operation that
touches a memory keeps it (`memsWf_<op>`), and one that `Keeps` all three memories does too (`Keeps.wf`). -/

namespace Sys2Proof.Machine

variable {s t : State}

/-- `memsWf` as a predicate: each memory listed is canonical, and the instances' memories stand in rising order. -/
structure MemsWf (s : State) : Prop where
  dram : memWf s.dram = true
  sorted : Tab.sorted s.lmem = true
  lmem : ∀ p ∈ s.lmem, memWf p.2 = true
  cores : ∀ p ∈ s.cores, memWf p.2.mem = true

theorem memsWf_iff : memsWf s = true ↔ MemsWf s := by
  simp only [memsWf, Bool.and_eq_true, List.all_eq_true]
  exact ⟨fun ⟨⟨⟨hd, hs⟩, hl⟩, hc⟩ => ⟨hd, hs, hl, hc⟩, fun ⟨hd, hs, hl, hc⟩ => ⟨⟨⟨hd, hs⟩, hl⟩, hc⟩⟩

/-- An operation that may touch none of the memories (`lmem`, `cores` and `dram` are the bits 11, 14 and 15). -/
theorem Keeps.wf {m : Nat} (k : Keeps m s t) (hm : m &&& 0xC800 = 0) (h : MemsWf s) : MemsWf t := by
  have hbit (j : Nat) (hj : Nat.testBit 0xC800 j = true) : m.testBit j = false := by
    have := congrArg (Nat.testBit · j) hm
    simpa [Nat.testBit_and, hj] using this
  obtain ⟨hd, hs, hl, hc⟩ := h
  constructor
  · rwa [k.dram (hbit 15 rfl)]
  · rwa [k.lmem (hbit 11 rfl)]
  · rwa [k.lmem (hbit 11 rfl)]
  · rwa [k.cores (hbit 14 rfl)]

namespace MemsWf

theorem core (h : MemsWf s) (c : Nat) : memWf (coreOf s c).mem = true :=
  Tab.all_getD (P := fun k : Core => memWf k.mem = true) c h.cores rfl

theorem inst (h : MemsWf s) (i : Nat) : memWf (Tab.getD s.lmem i []) = true :=
  Tab.all_getD (P := fun m => memWf m = true) i h.lmem rfl

theorem ite {c : Prop} [Decidable c] (h : MemsWf s) (k : MemsWf t) : MemsWf (if c then s else t) := by
  split <;> assumption

theorem foldl {α : Type} {f : State → α → State} {l : List α} (hf : ∀ x a, MemsWf x → MemsWf (f x a)) (h : MemsWf s) :
    MemsWf (l.foldl f s) := by
  induction l generalizing s with
  | nil => exact h
  | cons a l ih => exact ih (hf s a h)

theorem snd {α : Type} {p : α × State} {a : α} (h : p = (a, s)) (k : MemsWf p.2) : MemsWf s := by
  subst h; exact k

theorem fst {α : Type} {p : State × α} {a : α} (h : p = (s, a)) (k : MemsWf p.1) : MemsWf s := by
  subst h; exact k

theorem ite2 {α : Type} {c : Prop} [Decidable c] {p q : α × State} (h : MemsWf p.2) (k : MemsWf q.2) :
    MemsWf (if c then p else q).2 := by
  split <;> assumption

theorem ite1 {α : Type} {c : Prop} [Decidable c] {p q : State × α} (h : MemsWf p.1) (k : MemsWf q.1) :
    MemsWf (if c then p else q).1 := by
  split <;> assumption

theorem foldl1 {α β : Type} {f : State × β → α → State × β} {l : List α} (hf : ∀ x a, MemsWf x.1 → MemsWf (f x a).1)
    {p : State × β} (h : MemsWf p.1) : MemsWf (l.foldl f p).1 := by
  induction l generalizing p with
  | nil => exact h
  | cons a l ih => exact ih (hf p a h)

theorem foldl2 {α β : Type} {f : β × State → α → β × State} {l : List α} (hf : ∀ x a, MemsWf x.2 → MemsWf (f x a).2)
    {p : β × State} (h : MemsWf p.2) : MemsWf (l.foldl f p).2 := by
  induction l generalizing p with
  | nil => exact h
  | cons a l ih => exact ih (hf p a h)

/-- A state made from another that keeps its three memories. -/
theorem put (h : MemsWf s) {pending now freeCount dev regs evr sbx stn cfg fab pwr key host ten boot upd tst tru dgt asu fch ftl
    drc hif jct} : MemsWf { s with
      pending := pending, now := now, freeCount := freeCount, dev := dev, regs := regs, evr := evr, sbx := sbx, stn := stn,
      cfg := cfg, fab := fab, pwr := pwr, key := key, host := host, ten := ten, boot := boot, upd := upd, tst := tst,
      tru := tru, dgt := dgt, asu := asu, fch := fch, ftl := ftl, drc := drc, hif := hif, jct := jct } :=
  ⟨h.dram, h.sorted, h.lmem, h.cores⟩

end MemsWf

/-- The next state, where the outcome is one, has canonical memories. -/
def NextWf (o : Out) : Prop := ∀ t, o = .next t → MemsWf t

/-- The state of a result, where it is one, has canonical memories. -/
def OkWf {ε : Type} (o : Except ε State) : Prop := ∀ t, o = .ok t → MemsWf t

/-- The state that is answered, if one is, has canonical memories. -/
def SomeWf (o : Option State) : Prop := ∀ t, o = some t → MemsWf t

namespace NextWf

variable {o p : Out}

theorem next (h : MemsWf t) : NextWf (.next t) := by intro u k; cases k; exact h

theorem ite {c : Prop} [Decidable c] (h : NextWf o) (k : NextWf p) : NextWf (if c then o else p) := by
  split <;> assumption

theorem of (e : o = .next t) (h : NextWf o) : MemsWf t := h t e

end NextWf

theorem KeepsO.wf {m : Nat} {o : Out} (k : KeepsO m s o) (hm : m &&& 0xC800 = 0) (h : MemsWf s) : NextWf o :=
  fun t e => (k t e).wf hm h

namespace OkWf

variable {ε : Type} {o p : Except ε State}

theorem error (e : ε) : OkWf (.error e : Except ε State) := by intro t h; cases h

theorem ok (h : MemsWf t) : OkWf (.ok t : Except ε State) := by intro u k; cases k; exact h

theorem ite {c : Prop} [Decidable c] (h : OkWf o) (k : OkWf p) : OkWf (if c then o else p) := by
  split <;> assumption

theorem of (e : o = .ok t) (h : OkWf o) : MemsWf t := h t e

end OkWf

theorem KeepsE.wf {ε : Type} {m : Nat} {o : Except ε State} (k : KeepsE m s o) (hm : m &&& 0xC800 = 0) (h : MemsWf s) :
    OkWf o :=
  fun t e => (k t e).wf hm h

namespace SomeWf

variable {o p : Option State}

theorem none : SomeWf none := by intro t h; cases h

theorem some (h : MemsWf t) : SomeWf (some t) := by intro u k; cases k; exact h

theorem ite {c : Prop} [Decidable c] (h : SomeWf o) (k : SomeWf p) : SomeWf (if c then o else p) := by
  split <;> assumption

theorem of (e : o = .some t) (h : SomeWf o) : MemsWf t := h t e

theorem map {α : Type} {x : Option α} {f : α → State} (h : ∀ a, x = .some a → MemsWf (f a)) : SomeWf (x.map f) := by
  intro t k
  obtain ⟨a, ha, rfl⟩ := Option.map_eq_some_iff.mp k
  exact h a ha

theorem findSome {α : Type} {l : List α} {f : α → Option State} (h : ∀ a, SomeWf (f a)) : SomeWf (l.findSome? f) := by
  intro t k
  obtain ⟨a, -, hf⟩ := List.exists_of_findSome?_eq_some k
  exact h a t hf

end SomeWf

theorem KeepsM.wf {m : Nat} {o : Option State} (k : KeepsM m s o) (hm : m &&& 0xC800 = 0) (h : MemsWf s) : SomeWf o :=
  fun t e => (k t e).wf hm h

/-! ## The writes themselves -/

/-- A write of DRAM. -/
theorem MemsWf.putDram (h : MemsWf s) {m : Tab Byte} (hm : memWf m = true) : MemsWf { s with dram := m } :=
  ⟨hm, h.sorted, h.lmem, h.cores⟩

/-- A write of the local memory of one tenant. -/
theorem MemsWf.putLmem (h : MemsWf s) {i : Nat} {m : Tab Byte} (hm : memWf m = true) :
    MemsWf { s with lmem := Tab.put [] s.lmem i m } := by
  refine ⟨h.dram, Tab.sorted_put [] i m h.sorted, fun p hp => ?_, h.cores⟩
  rcases Tab.mem_put hp with rfl | hp
  · exact hm
  · exact h.lmem p hp

/-- Other cores, each with a canonical memory. -/
theorem MemsWf.putCores (h : MemsWf s) {cores : Tab Core} (hc : ∀ p ∈ cores, memWf p.2.mem = true) :
    MemsWf { s with cores := cores } :=
  ⟨h.dram, h.sorted, h.lmem, hc⟩

/-- Every core changed, none of them in its memory's form. -/
theorem MemsWf.mapCores (h : MemsWf s) {f : Nat → Core → Core} (hf : ∀ c k, memWf k.mem = true → memWf (f c k).mem = true) :
    MemsWf { s with cores := Tab.mapVals s.cores f } := by
  refine h.putCores fun p hp => ?_
  obtain ⟨q, hq, rfl⟩ := List.mem_map.mp hp
  exact hf _ _ (h.cores q hq)

theorem memsWf_setCore {c : Nat} {k : Core} (hk : memWf k.mem = true) (h : MemsWf s) : MemsWf (setCore s c k) := by
  refine h.putCores fun p hp => ?_
  rcases Tab.mem_set hp with rfl | hp
  · exact hk
  · exact h.cores p hp

theorem memsWf_setCore_of_mem {c c' : Nat} {k : Core} (hk : k.mem = (coreOf s c').mem) (h : MemsWf s) :
    MemsWf (setCore s c k) :=
  memsWf_setCore (hk ▸ h.core c') h

theorem memsWf_coreMemWrite {c a bs} (h : MemsWf s) : MemsWf (coreMemWrite s c a bs) :=
  memsWf_setCore (memWf_memWrite bs a (h.core c)) h

theorem memsWf_lmemWrite {i a bs} (h : MemsWf s) : MemsWf (lmemWrite s i a bs) :=
  have h' : MemsWf (placePages s i a bs.length) := (placePages_keeps ..).wf rfl h
  h'.putLmem (memWf_memWrite bs a (h'.inst i))

theorem memWf_foldl {α : Type} {f : Tab Byte → α → Tab Byte} {l : List α} (hf : ∀ m x, memWf m = true → memWf (f m x) = true)
    {m : Tab Byte} (h : memWf m = true) : memWf (l.foldl f m) = true := by
  induction l generalizing m with
  | nil => exact h
  | cons x l ih => exact ih (hf m x h)

/-- The ring slots of a ticket are zeroed. -/
theorem memWf_dropSlots {k : Core} (h : memWf k.mem = true) (tag : Nat) : memWf (dropSlots k tag).mem = true := by
  unfold dropSlots
  refine memWf_foldl (fun m x hm => ?_) h
  exact memWf_memWrite _ _ hm

theorem memsWf_leaveInside {tag fenced} (h : MemsWf s) : MemsWf (leaveInside s tag fenced) := by
  refine ⟨h.dram, h.sorted, h.lmem, (h.mapCores fun _ k hk => ?_).cores⟩
  dsimp only
  split
  · exact memWf_dropSlots hk tag
  · exact hk

theorem memsWf_countCycles (h : MemsWf s) : MemsWf (countCycles s) :=
  h.mapCores fun _ k hk => by split <;> exact hk

theorem memsWf_countIdle (h : MemsWf s) : MemsWf (countIdle s) :=
  (setPwr_keeps ..).wf rfl (h.mapCores fun _ _ hk => hk)

theorem memsWf_startCores {env} (h : MemsWf s) : MemsWf (startCores s env) := by
  refine h.putCores fun p hp => ?_
  obtain ⟨c, -, rfl⟩ := List.mem_map.mp hp
  rfl

/-! ## The updates of a core that leave its memory -/

theorem Core.mem_setG (k : Core) (r : Nat) (v : DWord) : (k.setG r v).mem = k.mem := by
  unfold Core.setG
  split <;> rfl

theorem Core.mem_setCr (k : Core) (n : Nat) (v : DWord) : (k.setCr n v).mem = k.mem := rfl

theorem mem_retire (k : Core) (len left : Nat) : (retire k len left).mem = k.mem := by
  unfold retire
  split
  · rfl
  · dsimp only
    split
    · rfl
    · dsimp only
      split
      · exact Core.mem_setG ..
      · rfl

theorem mem_enterCore (k : Core) (tag step : Nat) : (enterCore k tag step).mem = k.mem := by
  unfold enterCore
  split <;> rfl

/-! ## What runs under the station's, the junction's, NVMe's and SPDM's common checks -/

theorem memsWf_serveAt {u fits} {f : State → Nat → Entry → Nat → LStep → Work → State}
    (hf : ∀ s tag e j st w, MemsWf s → MemsWf (f s tag e j st w)) (h : MemsWf s) : MemsWf (serveAt s u fits f) := by
  unfold serveAt
  split
  · exact h
  · next w s' hd =>
    have h' : MemsWf s' := (dequeue_keeps _ _ _ _ hd).wf rfl h
    split
    · exact h'
    · refine .ite h' ?_
      split
      · exact h'
      · exact .ite (hf _ _ _ _ _ _ h') h

theorem memsWf_onFrame {w t} {g : State → Frame → State} (hg : ∀ s f, MemsWf s → MemsWf (g s f)) (h : MemsWf s) :
    MemsWf (onFrame s w t g) := by
  have hframe : MemsWf (frameIn s w).2 := (frameIn_keeps ..).wf rfl h
  unfold onFrame
  split
  · next e => exact .ite (hg _ _ (.snd e hframe)) (.snd e hframe)
  · next e => exact .snd e hframe

theorem memsWf_onOwn {w t} {g : State → Frame → State} (hg : ∀ s f, MemsWf s → MemsWf (g s f)) (h : MemsWf s) :
    MemsWf (onOwn s w t g) :=
  memsWf_onFrame (fun s f hs => .ite hs (.ite ((sendFrame_keeps ..).wf rfl hs) (hg s f hs))) h

theorem nextWf_onFn {fn} {f : State → State} (hf : MemsWf (f s)) (h : MemsWf s) : NextWf (onFn s fn f) :=
  .next (.ite ((respondErr_keeps ..).wf rfl h) hf)

theorem memsWf_withNs {y} {f : Ns → State} (hf : ∀ n, MemsWf (f n)) (h : MemsWf s) : MemsWf (withNs s y f) := by
  unfold withNs
  split
  · exact hf _
  · exact (badNs_keeps ..).wf rfl h

theorem memsWf_withWrite {y} {f : Ns → State} (hf : ∀ n, MemsWf (f n)) (h : MemsWf s) : MemsWf (withWrite s y f) :=
  memsWf_withNs (fun n => .ite ((notReadyNs_keeps ..).wf rfl h) (hf n)) h

theorem nextWf_nvmeCmd {c q admin ticket ok} {f : State → NCmd → State} (hf : ∀ s y, MemsWf s → MemsWf (f s y))
    (h : MemsWf s) : NextWf (nvmeCmd s c q admin ticket ok f) := by
  unfold nvmeCmd
  split
  · exact .next h
  · exact .ite (.next h) (.next (hf _ _ ((setSq_keeps ..).wf rfl h)))

end Sys2Proof.Machine
end

section
/-! SUPPORT. The operations that reach a memory, callees first; each command's own operation; then the step (O59). -/

namespace Sys2Proof.Machine

variable {s t : State}

theorem memsWf_freeTicket {tag e} (h : MemsWf s) : MemsWf (freeTicket s tag e) :=
  (dropCtx_keeps ..).wf rfl <| (releaseHandles_keeps ..).wf rfl <| memsWf_leaveInside <|
      (dropMessages_keeps ..).wf rfl <| .ite ((releaseSlot_keeps ..).wf rfl <| .put <| .put h) (.put <| .put h)

theorem someWf_abortCmd {z} (h : MemsWf s) : SomeWf (abortCmd s z) := by
  unfold abortCmd
  refine .ite ?_ .none
  refine .some <| (setCmd_keeps ..).wf rfl <| .foldl (fun _ _ hx => ?_) h
  split
  · exact memsWf_freeTicket hx
  · exact hx

theorem memsWf_deliver {i bs} (h : MemsWf s) : MemsWf (deliver s i bs) :=
  .ite h (memsWf_lmemWrite <| .put <| memsWf_lmemWrite h)

theorem memsWf_writeRecord {r} (h : MemsWf s) : MemsWf (writeRecord s r) :=
  memsWf_deliver <| .ite ((flushMirror_keeps ..).wf rfl <| .put h) (.put h)

theorem memsWf_putRecord {r} (h : MemsWf s) : MemsWf (putRecord s r) := by
  unfold putRecord
  split
  · exact .ite (.put h) ((bump_keeps ..).wf rfl h)
  · exact memsWf_writeRecord h

theorem memsWf_endSecond (h : MemsWf s) : MemsWf (endSecond s) :=
  .foldl (fun _ _ hx => memsWf_putRecord <| (bump_keeps ..).wf rfl hx) (.put h)

theorem memsWf_record {event sev status unit inst detail} (h : MemsWf s) :
    MemsWf (record s event sev status unit inst detail) := by
  unfold record
  split
  · exact memsWf_putRecord h
  · exact .ite (memsWf_writeRecord <| .put <| .ite (memsWf_endSecond h) h) (.put <| .ite (memsWf_endSecond h) h)

theorem memsWf_recordLost {u inst detail} (h : MemsWf s) : MemsWf (recordLost s u inst detail) := memsWf_record h

theorem memsWf_doChange {n c} (h : MemsWf s) : MemsWf (doChange s n c) :=
  .ite (memsWf_record <| (setUnit_keeps ..).wf rfl h) ((setUnit_keeps ..).wf rfl h)

theorem memsWf_changeUnit {n c} (h : MemsWf s) : MemsWf (changeUnit s n c) :=
  .ite (memsWf_doChange h) ((setUnit_keeps ..).wf rfl h)

theorem memsWf_unitState {n st} (h : MemsWf s) : MemsWf (unitState s n st) := memsWf_changeUnit h

theorem memsWf_zeroDest {e r} (h : MemsWf s) : MemsWf (zeroDest s e r) := by
  unfold zeroDest
  split
  · exact (hostWrite_keeps ..).wf rfl h
  · exact (hostWrite_keeps ..).wf rfl h
  · exact memsWf_lmemWrite h
  · exact memsWf_coreMemWrite h
  · exact h

theorem memsWf_zeroWritten {tag e} (h : MemsWf s) : MemsWf (zeroWritten s tag e) :=
  .foldl (fun _ _ => memsWf_zeroDest) h

theorem memsWf_cmdPart {c sq cid status unit out sglShort} (h : MemsWf s) :
    MemsWf (cmdPart s c sq cid status unit out sglShort) := by
  unfold cmdPart
  split
  · exact h
  · next y _ =>
    have hzones {p : Prop} [Decidable p] {x : State} (hx : MemsWf x) {c e} :
        MemsWf (if p then setCore x c { coreOf x c with entry := e } else x) := .ite (memsWf_setCore (hx.core _) hx) hx
    exact .ite ((setCmd_keeps ..).wf rfl h) <| (endCmd_keeps ..).wf rfl <| .put <| hzones <|
      .ite ((saveZones_keeps ..).wf rfl <| .foldl (fun _ _ => (setZone_keeps ..).wf rfl) h) h

theorem memsWf_nvmeTicketDone {e x} (h : MemsWf s) : MemsWf (nvmeTicketDone s e x) := by
  unfold nvmeTicketDone
  split
  · exact memsWf_cmdPart h
  · exact h

theorem memsWf_cqWrite {c x} (h : MemsWf s) : MemsWf (cqWrite s c x) :=
  have hwritten {a bs} : MemsWf (coreMemWrite s c a bs) := memsWf_coreMemWrite h
  memsWf_setCore (hwritten.core c) hwritten

theorem memsWf_finishPlain {tag} (h : MemsWf s) : MemsWf (finishPlain s tag) := by
  unfold finishPlain
  split
  · exact h
  · refine .ite (memsWf_freeTicket <| (countEnd_keeps ..).wf rfl h) ?_
    split
    · exact .ite (memsWf_freeTicket <| .put <| (countEnd_keeps ..).wf rfl h) (.ite (memsWf_setCore (h.core _) <|
          (setEntry_keeps ..).wf rfl <| .put <| .put <| (countEnd_keeps ..).wf rfl h) (memsWf_freeTicket <|
          memsWf_cqWrite <| .put <| (countEnd_keeps ..).wf rfl h))
    · exact memsWf_nvmeTicketDone <| memsWf_freeTicket <| .put <| (countEnd_keeps ..).wf rfl h
    · exact (junctionDone_keeps ..).wf rfl <| memsWf_freeTicket <| .put <| (countEnd_keeps ..).wf rfl h
    · exact memsWf_freeTicket <| .put <| (countEnd_keeps ..).wf rfl h

theorem memsWf_finishTicket {tag} (h : MemsWf s) : MemsWf (finishTicket s tag) := memsWf_finishPlain h

theorem memsWf_ackTicket {tag out} (h : MemsWf s) : MemsWf (ackTicket s tag out) := by
  unfold ackTicket
  refine memsWf_finishTicket <| (modEntry_keeps ..).wf rfl <| ?_
  split
  · exact .ite ((flushEnded_keeps ..).wf rfl h) h
  · exact h

theorem memsWf_failAt {tag step unit status} (h : MemsWf s) : MemsWf (failAt s tag step unit status) := by
  unfold failAt
  split
  · exact h
  · exact .ite h (.ite (memsWf_ackTicket <| memsWf_zeroWritten <| (modEntry_keeps ..).wf rfl <| .ite
        ((engineFailed_keeps ..).wf rfl <| (report_keeps ..).wf rfl h) ((engineCleared_keeps ..).wf rfl <|
        (sendToken_keeps ..).wf rfl <| (engineFailed_keeps ..).wf rfl <| (report_keeps ..).wf rfl h))
        ((modEntry_keeps ..).wf rfl <| .ite ((engineFailed_keeps ..).wf rfl <| (report_keeps ..).wf rfl h)
        ((engineCleared_keeps ..).wf rfl <| (sendToken_keeps ..).wf rfl <| (engineFailed_keeps ..).wf rfl <|
        (report_keeps ..).wf rfl h)))

theorem memsWf_endInside {u except} (h : MemsWf s) : MemsWf (endInside s u except) := by
  unfold endInside
  refine .foldl (fun _ _ hx => ?_) h
  split
  · exact memsWf_failAt hx
  · exact hx

theorem memsWf_reportUnit {u tag} (h : MemsWf s) : MemsWf (reportUnit s u tag) :=
  .ite h (.ite (memsWf_unitState <| memsWf_endInside <| (setTst_keeps ..).wf rfl h) ((queueReport_keeps ..).wf rfl h))

theorem memsWf_countCorrected {u k tag} (h : MemsWf s) : MemsWf (countCorrected s u k tag) :=
  .ite h (.ite ((setTst_keeps ..).wf rfl <| (bump_keeps ..).wf rfl h) (.ite (memsWf_reportUnit <|
      (setTst_keeps ..).wf rfl <| (bump_keeps ..).wf rfl h) (memsWf_record <| (setTst_keeps ..).wf rfl <|
      (bump_keeps ..).wf rfl h)))

theorem memsWf_routerFixes {x y tag} (h : MemsWf s) : MemsWf (routerFixes s x y tag) := by
  unfold routerFixes
  split
  · exact memsWf_countCorrected h
  · exact (routerCount_keeps ..).wf rfl h

theorem memsWf_flitTries {x y up link tag left errs} (h : MemsWf s) :
    MemsWf (flitTries x y up link tag left errs s).2 := by
  induction left generalizing errs s with
  | zero => exact h
  | succ f ih =>
    have hlink : MemsWf (linkSymbols s up link (errs.headD 0)).2 := (linkSymbols_keeps ..).wf rfl h
    have hdrawn := (drawn_keeps _).wf rfl hlink
    rw [flitTries]
    split
    · exact hlink
    · exact memsWf_routerFixes hlink
    · exact .ite2 hdrawn (ih (.ite (.ite hdrawn hlink) ((routerCount_keeps ..).wf rfl (.ite hdrawn hlink))))

theorem memsWf_accessFlitArrive {c p x y up link errors} (h : MemsWf s) :
    MemsWf (accessFlitArrive s c p x y up link errors) := by
  have htries : MemsWf (flitTries x y up link none 4 errors (wakeIsland s (0xE0 + quadOf x y))).2 :=
    memsWf_flitTries ((wakeIsland_keeps ..).wf rfl h)
  unfold accessFlitArrive
  split
  · next e => exact .snd e htries
  · next e =>
    have ht := MemsWf.snd e htries
    exact memsWf_setCore (ht.core c) ht
  · next t e =>
    have ht {u} := memsWf_recordLost (u := u) (inst := p.inst) (detail := lostUnknown)
      ((routerCount_keeps t x y 15 8).wf rfl (.snd e htries))
    exact memsWf_setCore (ht.core c) ht

theorem memsWf_fenceTicket {tag status mark} (h : MemsWf s) : MemsWf (fenceTicket s tag status mark) := by
  unfold fenceTicket
  split
  · exact h
  · exact (dropCtx_keeps ..).wf rfl <| (modEntry_keeps ..).wf rfl <| (quarantine_keeps ..).wf rfl <|
        memsWf_zeroWritten h

theorem memsWf_flushFence {tag} (h : MemsWf s) : MemsWf (flushFence s tag) :=
  memsWf_finishTicket <| memsWf_fenceTicket <| (drawn_keeps ..).wf rfl h

theorem memsWf_enterFlush (h : MemsWf s) : MemsWf (enterFlush s) :=
  .foldl (fun _ _ => memsWf_flushFence) ((cancelInjections_keeps ..).wf rfl <| .put h)

theorem memsWf_beginEntry {cause} (h : MemsWf s) : MemsWf (beginEntry s cause) :=
  .ite h ((dropOutside_keeps ..).wf rfl <| memsWf_enterFlush <| (setBoot_keeps ..).wf rfl h)

theorem memsWf_activateNow (h : MemsWf s) : MemsWf (activateNow s) := .ite (memsWf_beginEntry h) h

theorem memsWf_endAtAdmission {tag e unit status} (h : MemsWf s) : MemsWf (endAtAdmission s tag e unit status) :=
  .ite (memsWf_finishTicket <| (report_keeps ..).wf rfl h) (memsWf_failAt <| (report_keeps ..).wf rfl h)

theorem memsWf_tryAdmit {tag} (h : MemsWf s) : MemsWf (tryAdmit s tag) := by
  unfold tryAdmit
  split
  · exact h
  · refine .ite h ?_
    split
    · exact h
    · refine .ite ((setEntry_keeps ..).wf rfl h) ?_
      refine .ite h ?_
      refine .ite h ?_
      refine .ite (memsWf_endAtAdmission h) ?_
      refine .ite (memsWf_endAtAdmission h) ?_
      refine .ite (memsWf_endAtAdmission h) ?_
      dsimp -proj only
      split
      · exact (admitJunction_keeps ..).wf rfl <| (setEntry_keeps ..).wf rfl <| .put <| .foldl (fun _ _ hx =>
            (resolveMap_keeps ..).wf rfl hx) (.ite ((bump_keeps ..).wf rfl <| .foldl (fun _ _ hx =>
            (book_keeps ..).wf rfl hx) (.ite ((payErases_keeps ..).wf rfl h) h)) (.foldl (fun _ _ hx =>
            (book_keeps ..).wf rfl hx) (.ite ((payErases_keeps ..).wf rfl h) h)))
      · exact .ite (.foldl (fun _ _ hx => (startAt_keeps ..).wf rfl hx) ((admitJunction_keeps ..).wf rfl <|
            (setEntry_keeps ..).wf rfl <| .put <| .foldl (fun _ _ hx => (resolveMap_keeps ..).wf rfl hx) (.ite
            ((bump_keeps ..).wf rfl <| .foldl (fun _ _ hx => (book_keeps ..).wf rfl hx) (.ite
            ((payErases_keeps ..).wf rfl h) h)) (.foldl (fun _ _ hx => (book_keeps ..).wf rfl hx) (.ite
            ((payErases_keeps ..).wf rfl h) h))))) ((startAt_keeps ..).wf rfl <| (admitJunction_keeps ..).wf rfl <|
            (setEntry_keeps ..).wf rfl <| .put <| .foldl (fun _ _ hx => (resolveMap_keeps ..).wf rfl hx) (.ite
            ((bump_keeps ..).wf rfl <| .foldl (fun _ _ hx => (book_keeps ..).wf rfl hx) (.ite
            ((payErases_keeps ..).wf rfl h) h)) (.foldl (fun _ _ hx => (book_keeps ..).wf rfl hx) (.ite
            ((payErases_keeps ..).wf rfl h) h))))

theorem memsWf_admitOne {last tag} (h : MemsWf s) : MemsWf (admitOne s last tag).1 := memsWf_tryAdmit h

theorem memsWf_admitGroup {last tags} (h : MemsWf s) : MemsWf (admitGroup s last tags).1 :=
  .foldl1 (fun _ _ => memsWf_admitOne) h

theorem memsWf_redeliver {i} (h : MemsWf s) : MemsWf (redeliver s i) := .foldl (fun _ _ => memsWf_deliver) (.put h)

theorem memsWf_areasBegin {o} (h : MemsWf s) : MemsWf (areasBegin o s) :=
  .foldl (fun _ _ hx => .ite (memsWf_redeliver hx) hx) h

theorem memsWf_coreStopOp {c} (h : MemsWf s) : MemsWf (coreStopOp s c) := by
  unfold coreStopOp
  dsimp -proj only
  split
  · exact .ite (memsWf_setCore (h.core _) h) (memsWf_setCore (h.core _) h)
  · exact memsWf_setCore (h.core _) h
  · exact memsWf_setCore (h.core _) h
  · exact h

theorem memsWf_coreStartOp {c entry} (h : MemsWf s) : MemsWf (coreStartOp s c entry) :=
  .ite (memsWf_setCore (h.core _) h) h

theorem memsWf_coreCommand {i} (h : MemsWf s) : MemsWf (coreCommand s i) :=
  .ite (memsWf_coreStartOp h) (memsWf_coreStopOp h)

theorem memsWf_keyAnswer {r status} (h : MemsWf s) : MemsWf (keyAnswer s r status) := by
  unfold keyAnswer
  split
  · exact .ite h ((keyResult_keeps ..).wf rfl h)
  · exact memsWf_cmdPart h
  · exact h

theorem memsWf_keyAsk {r} (h : MemsWf s) : MemsWf (keyAsk s r) :=
  .ite (memsWf_keyAnswer h) (.ite (memsWf_keyAnswer h) ((setKey_keeps ..).wf rfl h))

theorem memsWf_arrayEffect {o c} (h : MemsWf s) : MemsWf (arrayEffect o s c) := by
  unfold arrayEffect
  split
  · exact (setFeed_keeps ..).wf rfl h
  · exact .ite h ((rateChange_keeps ..).wf rfl h)
  · exact .ite h ((setChan_keeps ..).wf rfl h)
  · exact (logTurn_keeps ..).wf rfl h
  · split
    · exact memsWf_keyAsk h
    · exact (setEff_keeps ..).wf rfl h
    · exact memsWf_coreCommand h
    · exact h

theorem memsWf_backInService {u} (h : MemsWf s) : MemsWf (backInService s u) := memsWf_unitState h

theorem memsWf_setHealth {b on} (h : MemsWf s) : MemsWf (setHealth s b on) :=
  .ite h (.ite (memsWf_record <| (setLive_keeps ..).wf rfl h) ((setLive_keeps ..).wf rfl h))

theorem memsWf_judgeSpare (h : MemsWf s) : MemsWf (judgeSpare s) :=
  .ite (memsWf_setHealth <| (setFtl_keeps ..).wf rfl <| memsWf_setHealth h) (memsWf_setHealth h)

theorem memsWf_loadResult {r status} (h : MemsWf s) : MemsWf (loadResult s r status) := by
  unfold loadResult
  split
  · split
    · exact memsWf_ackTicket <| (report_keeps ..).wf rfl <| (cfgResult_keeps ..).wf rfl h
    · exact (cfgResult_keeps ..).wf rfl h
  · refine .ite h ?_
    split
    · exact (cmdStatus_keeps ..).wf rfl h
    · exact (cfgResult_keeps ..).wf rfl h

theorem memsWf_loaderAsk {r} (h : MemsWf s) : MemsWf (loaderAsk s r) :=
  .ite (memsWf_loadResult h) ((setCfg_keeps ..).wf rfl h)

theorem memsWf_cfgRequest (h : MemsWf s) : MemsWf (cfgRequest s) := memsWf_loaderAsk h

theorem memsWf_blockEffect {o c} (h : MemsWf s) : MemsWf (blockEffect o s c) := by
  unfold blockEffect
  split
  · exact memsWf_cfgRequest h
  · exact (captureAliases_keeps ..).wf rfl h
  · exact (powerCmdsDone_keeps ..).wf rfl h
  · exact (judgeFold_keeps ..).wf rfl h
  · exact memsWf_judgeSpare h
  · exact memsWf_keyAsk h
  · exact (sameResults_keeps ..).wf rfl h
  · exact (tenRequest_keeps ..).wf rfl h
  · exact (tagsDisturb_keeps ..).wf rfl h
  · exact (rxDisturb_keeps ..).wf rfl h
  · exact (burnFuses_keeps ..).wf rfl h
  · exact (stageRequest_keeps ..).wf rfl h
  · exact (confirmImage_keeps ..).wf rfl h
  · exact (setEvr_keeps ..).wf rfl h
  · exact (startClear_keeps ..).wf rfl h
  · exact memsWf_areasBegin h
  · exact (setTst_keeps ..).wf rfl h
  · exact (injRequest_keeps ..).wf rfl h
  · exact h

theorem memsWf_recordRefused {c unit} (h : MemsWf s) : MemsWf (recordRefused s c unit) := memsWf_record h

theorem memsWf_refuseSet {c unit} (h : MemsWf s) : MemsWf (refuseSet s c unit) :=
  memsWf_recordRefused <| (setGroup_keeps ..).wf rfl h

theorem memsWf_judgeSet {c set} (h : MemsWf s) : MemsWf (judgeSet s c set) :=
  .ite (memsWf_refuseSet h) (memsWf_arrayEffect <| memsWf_blockEffect <| .ite ((saveSettings_keeps ..).wf rfl <|
      (takeSet_keeps ..).wf rfl h) ((takeSet_keeps ..).wf rfl h))

theorem memsWf_backSets {u} (h : MemsWf s) : MemsWf (backSets s u) := by
  unfold backSets
  refine .ite ?_ h
  refine .foldl (fun _ _ hx => ?_) h
  split
  · exact memsWf_judgeSet hx
  · exact hx

theorem memsWf_updCtl {v} (h : MemsWf s) : MemsWf (updCtl s v) :=
  .ite (memsWf_activateNow <| .ite ((confirmImage_keeps ..).wf rfl <| (setUpd_keeps ..).wf rfl h) h) (.ite
      ((confirmImage_keeps ..).wf rfl <| (setUpd_keeps ..).wf rfl h) h)

theorem memsWf_writeNow {r i a v} (h : MemsWf s) : MemsWf (writeNow s r i a v) := by
  unfold writeNow
  split
  · exact .ite ((popSiding_keeps ..).wf rfl h) h
  · exact .ite ((askMeasurement_keeps ..).wf rfl h) h
  · exact .ite ((beginCkpt_keeps ..).wf rfl h) h
  · exact (feedW0_keeps ..).wf rfl h
  · exact (feedW1_keeps ..).wf rfl h
  · exact (feedLast_keeps ..).wf rfl h
  · exact .ite (memsWf_coreStopOp h) h
  · exact .ite ((logSwitch_keeps ..).wf rfl h) h
  · exact (measSelect_keeps ..).wf rfl h
  · exact (setLive_keeps ..).wf rfl <| (setLive_keeps ..).wf rfl h
  · exact .ite (memsWf_beginEntry h) h
  · exact memsWf_updCtl h
  · exact .ite ((cancelInjections_keeps ..).wf rfl h) h
  · exact h

theorem memsWf_coreRelease {c} (h : MemsWf s) : MemsWf (coreRelease s c) :=
  .ite (memsWf_setCore (h.core _) h) (.ite (memsWf_setCore (h.core _) h) h)

theorem memsWf_releaseHolds {i} (h : MemsWf s) : MemsWf (releaseHolds s i) :=
  .ite h (.foldl (fun _ _ => memsWf_coreRelease) (.foldl (fun _ _ hx => (fenRelease_keeps ..).wf rfl hx) h))

theorem memsWf_pageNow {r i j v} (h : MemsWf s) : MemsWf (pageNow s r i j v) :=
  .ite (.ite (memsWf_releaseHolds h) h) (.ite ((setInst_keeps ..).wf rfl h) h)

theorem memsWf_writeReg {r i j a v} (h : MemsWf s) : MemsWf (writeReg s r i j a v) := by
  unfold writeReg
  split
  · exact memsWf_pageNow <| (clearOnes_keeps ..).wf rfl <| (stageReg_keeps ..).wf rfl h
  · exact memsWf_writeNow <| (clearOnes_keeps ..).wf rfl <| (stageReg_keeps ..).wf rfl h

theorem memsWf_barWrite {a v} (h : MemsWf s) : MemsWf (barWrite s a v) := by
  unfold barWrite
  refine .ite h ?_
  split
  · exact (winAccess_keeps ..).wf rfl h
  · refine .ite ((commitWrite_keeps ..).wf rfl h) ?_
    split
    · exact memsWf_writeReg h
    · split
      · exact .ite ((popSiding_keeps ..).wf rfl h) h
      · exact h

theorem memsWf_loadEnd {status} (h : MemsWf s) : MemsWf (loadEnd s status) := by
  unfold loadEnd
  split
  · exact h
  · exact memsWf_loadResult <| (setCfg_keeps ..).wf rfl <| (dropKeyUse_keeps ..).wf rfl h

theorem memsWf_loadReject {status rule x y count detail} (h : MemsWf s) :
    MemsWf (loadReject s status rule x y count detail) := by
  unfold loadReject
  split
  · exact h
  · exact memsWf_loadEnd <| .ite ((setLive_keeps ..).wf rfl <| (setLive_keeps ..).wf rfl h) (memsWf_record h)

theorem memsWf_loadFail {status} (h : MemsWf s) : MemsWf (loadFail s status) := memsWf_loadReject h

theorem memsWf_blocksDone {r} (h : MemsWf s) : MemsWf (blocksDone s r) :=
  .ite (.ite ((setCfg_keeps ..).wf rfl <| (setCfg_keeps ..).wf rfl <| (dropKeyUse_keeps ..).wf rfl h)
      (memsWf_loadFail <| (setCfg_keeps ..).wf rfl <| (dropKeyUse_keeps ..).wf rfl h)) (.ite
      ((setCfg_keeps ..).wf rfl <| (setCfg_keeps ..).wf rfl <| (dropKeyUse_keeps ..).wf rfl h) (memsWf_loadFail <|
      (setCfg_keeps ..).wf rfl <| (dropKeyUse_keeps ..).wf rfl h))

theorem memsWf_wakeCore {c} (h : MemsWf s) : MemsWf (wakeCore s c) := .ite (memsWf_setCore (h.core _) h) h

theorem memsWf_coreRevoke {c tag} (h : MemsWf s) : MemsWf (coreRevoke s c tag) :=
  memsWf_wakeCore (memsWf_setCore (memWf_dropSlots (h.core c) tag) h)

theorem memsWf_stationRevoke {u tag step} (h : MemsWf s) : MemsWf (stationRevoke s u tag step) := by
  unfold stationRevoke
  split
  · exact (fenRevoke_keeps ..).wf rfl <| (setInbox_keeps ..).wf rfl h
  · exact (fenRevoke_keeps ..).wf rfl <| (setInbox_keeps ..).wf rfl h
  · exact .ite (memsWf_coreRevoke <| (setInbox_keeps ..).wf rfl h) ((setInbox_keeps ..).wf rfl h)
  · exact .ite (memsWf_coreRevoke <| (setInbox_keeps ..).wf rfl h) ((setInbox_keeps ..).wf rfl h)
  · exact (loaderRevoke_keeps ..).wf rfl <| (setInbox_keeps ..).wf rfl h
  · exact (engineCleared_keeps ..).wf rfl <| (setInbox_keeps ..).wf rfl h
  · exact (engineCleared_keeps ..).wf rfl <| (setInbox_keeps ..).wf rfl h
  · exact (engineCleared_keeps ..).wf rfl <| (setInbox_keeps ..).wf rfl h
  · exact (setCtx_keeps ..).wf rfl <| (setInbox_keeps ..).wf rfl h

theorem memsWf_revokeAt {u tag step} (h : MemsWf s) : MemsWf (revokeAt s u tag step) := by
  unfold revokeAt
  split
  · exact h
  · exact .ite (memsWf_ackTicket <| memsWf_zeroWritten <| memsWf_stationRevoke <| (modEntry_keeps ..).wf rfl h)
        (memsWf_stationRevoke <| (sendToken_keeps ..).wf rfl <| (modEntry_keeps ..).wf rfl h)

theorem memsWf_bounce {p} (h : MemsWf s) : MemsWf (bounce s p) := by
  unfold bounce
  dsimp -proj only
  split
  · exact (park_keeps ..).wf rfl h
  · exact .ite (memsWf_revokeAt <| (park_keeps ..).wf rfl h) (memsWf_failAt <| (park_keeps ..).wf rfl h)

theorem memsWf_unitDone {tag} (h : MemsWf s) : MemsWf (unitDone s tag) := by
  unfold unitDone
  split
  · exact h
  · split
    · exact h
    · exact .ite (memsWf_ackTicket <| (setEntry_keeps ..).wf rfl h) ((setEntry_keeps ..).wf rfl h)

theorem memsWf_slotGone {x} (h : MemsWf s) : MemsWf (slotGone s x) := by
  unfold slotGone
  refine memsWf_unitDone <| ?_
  split
  · exact (freeStaged_keeps ..).wf rfl h
  · exact h

theorem memsWf_sealWith {ch pg} (h : MemsWf s) : MemsWf (sealWith s ch pg) :=
  .foldl (fun _ _ => memsWf_slotGone) ((setChan_keeps ..).wf rfl <| (notePresent_keeps ..).wf rfl <|
      (setFch_keeps ..).wf rfl <| (setFtl_keeps ..).wf rfl <| (movePage_keeps ..).wf rfl h)

theorem memsWf_sealPage {ch dense} (h : MemsWf s) : MemsWf (sealPage s ch dense) := by
  unfold sealPage
  split
  · exact h
  · exact memsWf_sealWith <| (setCur_keeps ..).wf rfl h

theorem someWf_placeSlot {ch dense x except} (h : MemsWf s) : SomeWf (placeSlot s ch dense x except) := by
  unfold placeSlot
  refine .map fun r hr => ?_
  have hsealed (c : Bool) : MemsWf (if c then s else sealPage s ch dense) := .ite h (memsWf_sealPage h)
  have hr' : MemsWf r.2 := by
    split at hr
    · cases hr
      exact hsealed _
    · obtain ⟨q, hq, rfl⟩ := Option.map_eq_some_iff.mp hr
      exact (allocPage_keeps _ _ _ _ _ _ _ _ hq).wf rfl (hsealed _)
  have hcur {pg} : MemsWf (setCur r.2 ch dense pg) := (setCur_keeps ..).wf rfl hr'
  exact .ite (memsWf_sealWith hcur) hcur

theorem someWf_placeAny {i dense x except} (h : MemsWf s) : SomeWf (placeAny s i dense x except) :=
  .findSome fun _ => someWf_placeSlot h

theorem memsWf_moveFill {k pg} (h : MemsWf s) : MemsWf (moveFill s k pg) := by
  unfold moveFill
  refine .ite ?_ ?_
  · refine .foldl1 (fun _ _ hx => ?_) h
    split
    · rename_i x e
      exact SomeWf.of e <| someWf_placeAny hx
    · exact hx
  · refine (setFch_keeps ..).wf rfl <| .foldl1 (fun _ _ hx => ?_) h
    split
    · rename_i x e
      exact SomeWf.of e <| someWf_placeAny hx
    · exact hx

theorem memsWf_reissue {ch pg} (h : MemsWf s) : MemsWf (reissue s ch pg) := by
  unfold reissue
  dsimp -proj only
  split
  · next k g p t ht =>
    obtain ⟨a, -, ha⟩ := List.exists_of_findSome?_eq_some ht
    obtain ⟨r, hr, hk⟩ := Option.map_eq_some_iff.mp ha
    cases hk
    exact memsWf_sealWith <| (notePresent_keeps ..).wf rfl <| (allocPage_keeps _ _ _ _ _ _ _ _ hr).wf rfl h
  · exact (setFch_keeps ..).wf rfl h

theorem memsWf_channelLeaves {k st} (h : MemsWf s) : MemsWf (channelLeaves s k st) :=
  .foldl (fun _ _ => memsWf_moveFill) (.foldl (fun _ _ hx => memsWf_reissue <| (leaveStripe_keeps ..).wf rfl hx)
      ((noteOffline_keeps ..).wf rfl <| (setChan_keeps ..).wf rfl h))

theorem memsWf_judgeDegraded (h : MemsWf s) : MemsWf (judgeDegraded s) := memsWf_setHealth h

theorem memsWf_clearLosses (h : MemsWf s) : MemsWf (clearLosses s) :=
  .ite h (memsWf_judgeDegraded <| (setFch_keeps ..).wf rfl h)

theorem memsWf_channelOffline {k} (h : MemsWf s) : MemsWf (channelOffline s k) :=
  .ite (memsWf_record <| memsWf_clearLosses <| memsWf_judgeDegraded <| memsWf_unitState <| memsWf_channelLeaves <|
      (setFch_keeps ..).wf rfl h) (memsWf_clearLosses <| memsWf_judgeDegraded <| memsWf_unitState <|
      memsWf_channelLeaves <| (setFch_keeps ..).wf rfl h)

theorem memsWf_recordRom {event sev status unit detail} (h : MemsWf s) :
    MemsWf (recordRom s event sev status unit detail) :=
  memsWf_writeRecord h

theorem memsWf_recordSlot {n} (h : MemsWf s) : MemsWf (recordSlot s n) := memsWf_recordRom h

theorem memsWf_fallBack (h : MemsWf s) : MemsWf (fallBack s) := memsWf_recordRom <| (fallBackPtr_keeps ..).wf rfl h

theorem memsWf_chooseImage (h : MemsWf s) : MemsWf (chooseImage s).1 := by
  unfold chooseImage
  extract_lets _ tried _ _ recorded
  have htried : MemsWf tried := .ite (memsWf_fallBack h) (.ite ((writePtr_keeps ..).wf rfl h) h)
  have hrecorded : MemsWf recorded := memsWf_recordSlot htried
  clear_value tried recorded
  exact .ite1 ((bootSlot_keeps ..).wf rfl htried) (.ite1
    ((bootSlot_keeps ..).wf rfl <| (writePtr_keeps ..).wf rfl hrecorded) (memsWf_recordSlot hrecorded))

theorem memsWf_cipFail {u tag step status} (h : MemsWf s) : MemsWf (cipFail s u tag step status) :=
  memsWf_failAt <| (cipErr_keeps ..).wf rfl h

theorem memsWf_countMismatch {u limit tag} (h : MemsWf s) : MemsWf (countMismatch s u limit tag) :=
  .ite (memsWf_reportUnit <| .put h) (.put h)

theorem memsWf_cipMismatch {u tag step} (h : MemsWf s) : MemsWf (cipMismatch s u tag step) :=
  memsWf_countMismatch <| memsWf_cipFail h

theorem memsWf_release {u tag step out prov mm} (h : MemsWf s) : MemsWf (release s u tag step out prov mm) :=
  .ite (memsWf_cipMismatch <| (cipCount_keeps ..).wf rfl <| .ite h ((sendOut_keeps ..).wf rfl h))
      ((cipCount_keeps ..).wf rfl <| .ite h ((sendOut_keeps ..).wf rfl h))

theorem memsWf_xtsStream {u tag step e enc p mm} (h : MemsWf s) : MemsWf (xtsStream s u tag step e enc p mm) :=
  memsWf_release <| (cipCount_keeps ..).wf rfl <| (setCtx_keeps ..).wf rfl h

theorem memsWf_xtsPacket {u tag step e enc p mm} (h : MemsWf s) : MemsWf (xtsPacket s u tag step e enc p mm) :=
  .ite (memsWf_cipFail <| (cipCount_keeps ..).wf rfl h) (.ite (memsWf_cipMismatch <| (cipCount_keeps ..).wf rfl <|
      .ite ((countCtx_keeps ..).wf rfl h) ((sendUnit_keeps ..).wf rfl <| (countCtx_keeps ..).wf rfl h))
      ((cipCount_keeps ..).wf rfl <| .ite ((countCtx_keeps ..).wf rfl h) ((sendUnit_keeps ..).wf rfl <|
      (countCtx_keeps ..).wf rfl h)))

theorem memsWf_gcmEmit {u tag step out all prov mm} (h : MemsWf s) : MemsWf (gcmEmit s u tag step out all prov mm) :=
  memsWf_release h

theorem memsWf_gcmEncData {u tag step e p mm} (h : MemsWf s) : MemsWf (gcmEncData s u tag step e p mm) :=
  .ite (memsWf_cipFail <| (cipCount_keeps ..).wf rfl <| (setCtx_keeps ..).wf rfl h) (.ite
      ((cipCount_keeps ..).wf rfl <| (setCtx_keeps ..).wf rfl h) (memsWf_gcmEmit <| (cipCount_keeps ..).wf rfl <|
      (setCtx_keeps ..).wf rfl h))

theorem memsWf_endProvisional {tag u} (h : MemsWf s) : MemsWf (endProvisional s tag u) := by
  unfold endProvisional
  split
  · exact h
  · exact memsWf_ackTicket <| (engineFailed_keeps ..).wf rfl <| (report_keeps ..).wf rfl <| memsWf_zeroWritten h

theorem memsWf_endOut {tag step u out prov} (h : MemsWf s) : MemsWf (endOut s tag step u out prov) := by
  unfold endOut
  split
  · exact h
  · exact .ite (.ite (memsWf_endProvisional h) (memsWf_ackTicket h)) ((setCtx_keeps ..).wf rfl <|
        (sendToken_keeps ..).wf rfl h)

theorem memsWf_xtsEnd {u tag step e enc prov mm} (h : MemsWf s) : MemsWf (xtsEnd s u tag step e enc prov mm) :=
  .ite (memsWf_cipFail h) (.ite (memsWf_endOut <| memsWf_release h) (memsWf_release h))

theorem memsWf_gcmEncEnd {u tag step e prov mm} (h : MemsWf s) : MemsWf (gcmEncEnd s u tag step e prov mm) :=
  .ite (memsWf_cipFail h) (.ite (memsWf_gcmEmit h) (memsWf_endOut <| .ite (memsWf_gcmEmit h) (.ite
      ((setHandle_keeps ..).wf rfl <| memsWf_gcmEmit h) ((setHandle_keeps ..).wf rfl <| memsWf_gcmEmit h))))

theorem memsWf_gcmDecData {u tag step e p mm} (h : MemsWf s) : MemsWf (gcmDecData s u tag step e p mm) :=
  .ite (.ite (memsWf_cipMismatch <| (cipCount_keeps ..).wf rfl <| (setCtx_keeps ..).wf rfl h)
      ((cipCount_keeps ..).wf rfl <| (setCtx_keeps ..).wf rfl h)) (memsWf_gcmEmit <| .ite ((bump_keeps ..).wf rfl <|
      (cipCount_keeps ..).wf rfl <| (setCtx_keeps ..).wf rfl h) ((cipCount_keeps ..).wf rfl <|
      (setCtx_keeps ..).wf rfl h))

theorem memsWf_gcmDecEnd {u tag step e prov mm} (h : MemsWf s) : MemsWf (gcmDecEnd s u tag step e prov mm) := by
  unfold gcmDecEnd
  refine .ite (memsWf_cipFail h) ?_
  refine .ite (memsWf_cipMismatch h) ?_
  split
  · exact memsWf_cipFail h
  · exact memsWf_endOut <| .ite ((bump_keeps ..).wf rfl <| memsWf_gcmEmit h) (memsWf_gcmEmit h)

theorem memsWf_gcmDecTake {u tag step e p mm} (h : MemsWf s) : MemsWf (gcmDecTake s u tag step e p mm) :=
  .ite ((setCtx_keeps ..).wf rfl h) (.ite (memsWf_gcmDecEnd h) (.ite (memsWf_cipFail <|
      (cipCount_keeps ..).wf rfl h) (.ite ((setCtx_keeps ..).wf rfl <| .ite ((gcmAdmit_keeps ..).wf rfl h) h)
      (memsWf_gcmDecData <| .ite ((gcmAdmit_keeps ..).wf rfl h) h))))

theorem memsWf_cipTake {u tag e step mode p mm} (h : MemsWf s) : MemsWf (cipTake s u tag e step mode p mm) := by
  unfold cipTake
  dsimp -proj only
  split
  · exact memsWf_cipFail <| (cipCount_keeps ..).wf rfl h
  · rename_i x e
    have k : MemsWf x := OkWf.of e <| .ite ((cipBegin_keeps _ _ _ _ _ _).wf rfl h) (.ok h)
    exact .ite (memsWf_gcmDecTake k) (.ite (.ite (memsWf_gcmEncEnd k) (memsWf_xtsEnd k)) (.ite
        (memsWf_gcmEncData k) (.ite (memsWf_xtsPacket k) (memsWf_xtsStream k))))

theorem memsWf_cipServe {u mode mm} (h : MemsWf s) : MemsWf (cipServe s u mode mm) := by
  unfold cipServe
  refine memsWf_serveAt (fun _ _ _ _ _ _ hs => ?_) h
  split
  · exact memsWf_failAt hs
  · exact .ite ((enqueue_keeps ..).wf rfl hs) (memsWf_cipTake hs)

theorem memsWf_messageOutcome {node m status} (h : MemsWf s) : MemsWf (messageOutcome s node m status) := by
  unfold messageOutcome
  split
  · exact h
  · exact memsWf_finishPlain <| (modEntry_keeps ..).wf rfl <| (report_keeps ..).wf rfl <| .ite
        ((bump_keeps ..).wf rfl <| (park_keeps ..).wf rfl h) h

theorem memsWf_closeConn {node tenant} (h : MemsWf s) : MemsWf (closeConn s node tenant) := by
  unfold closeConn
  split
  · exact h
  · exact .foldl (fun _ _ => memsWf_messageOutcome) ((setJct_keeps ..).wf rfl h)

theorem memsWf_commitJournal {f} (h : MemsWf s) : MemsWf (commitJournal f s) := by
  induction f generalizing s with
  | zero => exact h
  | succ f ih =>
    rw [commitJournal]
    split
    · exact h
    · exact .ite (ih (.foldl (fun _ _ => memsWf_unitDone) ((setFtl_keeps ..).wf rfl h))) h

theorem memsWf_commitAll {f} (h : MemsWf s) : MemsWf (commitAll f s) := by
  induction f generalizing s with
  | zero => exact h
  | succ f ih =>
    rw [commitAll]
    refine .ite ?_ (ih ?_) <;>
    exact memsWf_commitJournal ((setFtl_keeps ..).wf rfl (.ite h ((formJournal_keeps s).wf rfl h)))

theorem memsWf_commitHeld (h : MemsWf s) : MemsWf (commitHeld s) := memsWf_commitAll h

theorem memsWf_hold {r} (h : MemsWf s) : MemsWf (hold s r) := (setFtl_keeps ..).wf rfl <| .ite (memsWf_commitHeld h) h

theorem memsWf_closeJournal (h : MemsWf s) : MemsWf (closeJournal s) :=
  (setFtl_keeps ..).wf rfl <| memsWf_commitHeld <| memsWf_hold <| memsWf_commitHeld h

theorem memsWf_closeTest (h : MemsWf s) : MemsWf (closeTest s) :=
  .ite h ((setTst_keeps ..).wf rfl <| (cancelInjections_keeps ..).wf rfl <| memsWf_record <|
      (measSecurity_keeps ..).wf rfl <| (setTru_keeps ..).wf rfl h)

theorem memsWf_cmpFail {u tag step status} (h : MemsWf s) : MemsWf (cmpFail s u tag step status) := by
  unfold cmpFail
  refine memsWf_failAt <| ?_
  split
  · exact (bump_keeps ..).wf rfl h
  · exact (bump_keeps ..).wf rfl h
  · exact (bump_keeps ..).wf rfl h
  · exact h

theorem memsWf_cmpMismatch {u tag step} (h : MemsWf s) : MemsWf (cmpMismatch s u tag step) :=
  memsWf_countMismatch <| memsWf_cmpFail h

theorem memsWf_compressPiece {u tag step e piece ok} (h : MemsWf s) :
    MemsWf (compressPiece s u tag step e piece ok) :=
  .ite (memsWf_cmpMismatch h) (.ite (memsWf_cmpFail h) ((cmpCount_keeps ..).wf rfl <| (sendOut_keeps ..).wf rfl h))

theorem memsWf_cmpEnd {u tag step e mode prov ok} (h : MemsWf s) : MemsWf (cmpEnd s u tag step e mode prov ok) := by
  unfold cmpEnd
  split
  · exact .ite (memsWf_endOut h) (memsWf_cmpFail h)
  · exact .ite (memsWf_endOut <| .ite h (memsWf_compressPiece <| (setCtx_keeps ..).wf rfl h)) (.ite h
        (memsWf_compressPiece <| (setCtx_keeps ..).wf rfl h))
  · exact .ite (memsWf_cmpFail h) (.ite (memsWf_cmpFail h) (memsWf_endOut h))
  · exact memsWf_endOut h

theorem memsWf_decodeRecords {f u tag step e answers} (h : MemsWf s) :
    MemsWf (decodeRecords f s u tag step e answers) := by
  induction f generalizing s answers with
  | zero => exact h
  | succ f ih =>
    have hcut {c} : MemsWf (setCtx s tag step c) := (setCtx_keeps ..).wf rfl h
    have hcounted {p : Prop} [Decidable p] {c a} :
        MemsWf (if p then bump (setCtx s tag step c) a 23 16 1 else setCtx s tag step c) :=
      .ite ((bump_keeps ..).wf rfl hcut) hcut
    rw [decodeRecords]
    refine .ite h (.ite (memsWf_cmpFail h) (.ite h (.ite (memsWf_cmpFail hcut) ?_)))
    split
    · exact .ite (memsWf_cmpFail hcounted)
        (ih ((cmpCount_keeps ..).wf rfl ((sendOut_keeps ..).wf rfl hcounted)))
    · exact memsWf_cmpFail hcut
    · exact memsWf_cmpFail hcut
    · exact memsWf_cmpMismatch hcut

theorem memsWf_streamDecompressData {u tag step e p answers} (h : MemsWf s) :
    MemsWf (streamDecompressData s u tag step e p answers) :=
  memsWf_decodeRecords <| (cmpCount_keeps ..).wf rfl <| (setCtx_keeps ..).wf rfl h

theorem memsWf_streamCompressData {u tag step e p ok} (h : MemsWf s) :
    MemsWf (streamCompressData s u tag step e p ok) :=
  .foldl (fun _ _ hx => .ite (memsWf_compressPiece hx) hx) ((cmpCount_keeps ..).wf rfl <| (setCtx_keeps ..).wf rfl h)

theorem memsWf_slotDecompressData {u tag step e p faults} (h : MemsWf s) :
    MemsWf (slotDecompressData s u tag step e p faults) := by
  unfold slotDecompressData
  refine .ite (memsWf_cmpFail <| (cmpCount_keeps ..).wf rfl <| (countCtx_keeps ..).wf rfl h) ?_
  refine .ite ((cmpCount_keeps ..).wf rfl <| (sendUnit_keeps ..).wf rfl <| (cmpCount_keeps ..).wf rfl <|
      (countCtx_keeps ..).wf rfl h) ?_
  refine .ite (memsWf_cmpFail <| (cmpCount_keeps ..).wf rfl <| (countCtx_keeps ..).wf rfl h) ?_
  split
  · exact (cmpCount_keeps ..).wf rfl <| (sendUnit_keeps ..).wf rfl <| .ite ((bump_keeps ..).wf rfl <|
        (cmpCount_keeps ..).wf rfl <| (countCtx_keeps ..).wf rfl h) ((cmpCount_keeps ..).wf rfl <|
        (countCtx_keeps ..).wf rfl h)
  · exact memsWf_cmpFail <| (cmpCount_keeps ..).wf rfl <| (countCtx_keeps ..).wf rfl h
  · exact memsWf_cmpFail <| memsWf_recordLost <| (cmpCount_keeps ..).wf rfl <| (countCtx_keeps ..).wf rfl h
  · exact memsWf_cmpMismatch <| (cmpCount_keeps ..).wf rfl <| (countCtx_keeps ..).wf rfl h

theorem memsWf_compressUnit {u tag step e unit station prov ok} (h : MemsWf s) :
    MemsWf (compressUnit s u tag step e unit station prov ok) := by
  unfold compressUnit
  refine .ite ((cmpCount_keeps ..).wf rfl <| (countCtx_keeps ..).wf rfl <| (sendData_keeps ..).wf rfl <| .ite
      ((bump_keeps ..).wf rfl <| (bump_keeps ..).wf rfl <| (setCtx_keeps ..).wf rfl h) (.ite
      ((bump_keeps ..).wf rfl <| (setCtx_keeps ..).wf rfl h) ((report_keeps ..).wf rfl <| (bump_keeps ..).wf rfl <|
      (setCtx_keeps ..).wf rfl h))) ?_
  refine .ite (memsWf_cmpMismatch <| (setCtx_keeps ..).wf rfl h) ?_
  refine (cmpCount_keeps ..).wf rfl <| (countCtx_keeps ..).wf rfl <| (sendData_keeps ..).wf rfl <| ?_
  split <;> exact (bump_keeps ..).wf rfl <| (setCtx_keeps ..).wf rfl h

theorem memsWf_compressUnits {f u tag step e p ok} (h : MemsWf s) :
    MemsWf (compressUnits f s u tag step e p ok) := by
  induction f generalizing s with
  | zero => exact h
  | succ f ih =>
    rw [compressUnits]
    exact .ite h (ih (memsWf_compressUnit ((setCtx_keeps ..).wf rfl h)))

theorem memsWf_slotCompressData {u tag step e p ok} (h : MemsWf s) : MemsWf (slotCompressData s u tag step e p ok) :=
  memsWf_compressUnits <| (cmpCount_keeps ..).wf rfl <| (setCtx_keeps ..).wf rfl h

theorem memsWf_cmpServe {u mode ok answers} (h : MemsWf s) : MemsWf (cmpServe s u mode ok answers) := by
  unfold cmpServe
  refine memsWf_serveAt (fun _ _ _ _ _ _ hs => ?_) h
  split
  · exact memsWf_failAt hs
  · refine .ite (.ite (memsWf_cmpEnd hs) ((enqueue_keeps ..).wf rfl hs)) ?_
    split
    · exact memsWf_slotCompressData hs
    · exact memsWf_slotDecompressData hs
    · exact memsWf_streamCompressData hs
    · exact memsWf_streamDecompressData hs

theorem memsWf_countTier {ch key tier} (h : MemsWf s) : MemsWf (countTier s ch key tier) := by
  unfold countTier
  refine .ite ?_ ?_
  · refine memsWf_judgeDegraded <| .ite ?_ ?_
    · refine (setBg_keeps ..).wf rfl <| .ite ?_ ?_
      · split
        · exact (bump_keeps ..).wf rfl h
        · exact (bump_keeps ..).wf rfl h
        · exact (bump_keeps ..).wf rfl h
        · exact (bump_keeps ..).wf rfl h
        · exact h
        · exact (bump_keeps ..).wf rfl h
      · refine (countSince_keeps ..).wf rfl <| ?_
        split
        · exact (bump_keeps ..).wf rfl h
        · exact (bump_keeps ..).wf rfl h
        · exact (bump_keeps ..).wf rfl h
        · exact (bump_keeps ..).wf rfl h
        · exact h
        · exact (bump_keeps ..).wf rfl h
    · refine .ite ?_ ?_
      · split
        · exact (bump_keeps ..).wf rfl h
        · exact (bump_keeps ..).wf rfl h
        · exact (bump_keeps ..).wf rfl h
        · exact (bump_keeps ..).wf rfl h
        · exact h
        · exact (bump_keeps ..).wf rfl h
      · refine (countSince_keeps ..).wf rfl <| ?_
        split
        · exact (bump_keeps ..).wf rfl h
        · exact (bump_keeps ..).wf rfl h
        · exact (bump_keeps ..).wf rfl h
        · exact (bump_keeps ..).wf rfl h
        · exact h
        · exact (bump_keeps ..).wf rfl h
  · refine .ite ?_ ?_
    · refine (setBg_keeps ..).wf rfl <| .ite ?_ ?_
      · split
        · exact (bump_keeps ..).wf rfl h
        · exact (bump_keeps ..).wf rfl h
        · exact (bump_keeps ..).wf rfl h
        · exact (bump_keeps ..).wf rfl h
        · exact h
        · exact (bump_keeps ..).wf rfl h
      · refine (countSince_keeps ..).wf rfl <| ?_
        split
        · exact (bump_keeps ..).wf rfl h
        · exact (bump_keeps ..).wf rfl h
        · exact (bump_keeps ..).wf rfl h
        · exact (bump_keeps ..).wf rfl h
        · exact h
        · exact (bump_keeps ..).wf rfl h
    · refine .ite ?_ ?_
      · split
        · exact (bump_keeps ..).wf rfl h
        · exact (bump_keeps ..).wf rfl h
        · exact (bump_keeps ..).wf rfl h
        · exact (bump_keeps ..).wf rfl h
        · exact h
        · exact (bump_keeps ..).wf rfl h
      · refine (countSince_keeps ..).wf rfl <| ?_
        split
        · exact (bump_keeps ..).wf rfl h
        · exact (bump_keeps ..).wf rfl h
        · exact (bump_keeps ..).wf rfl h
        · exact (bump_keeps ..).wf rfl h
        · exact h
        · exact (bump_keeps ..).wf rfl h

theorem memsWf_codewordLost {ch r} (h : MemsWf s) : MemsWf (codewordLost s ch r) :=
  memsWf_failAt <| memsWf_recordLost <| memsWf_countTier h

theorem memsWf_commitEffect {c} (h : MemsWf s) : MemsWf (commitEffect s c) := by
  unfold commitEffect
  split
  · exact h
  · exact .ite (memsWf_judgeSet h) h

theorem memsWf_slotPassed {key x} (h : MemsWf s) : MemsWf (slotPassed s key x) := by
  unfold slotPassed
  refine .ite h ?_
  refine .ite (memsWf_unitDone <| (mapPagePassed_keeps ..).wf rfl h) ?_
  split
  · split
    · exact memsWf_unitDone h
    · exact .ite (memsWf_unitDone <| (freeStaged_keeps ..).wf rfl h) (memsWf_hold <| (mapSet_keeps ..).wf rfl <|
          (unitWritten_keeps ..).wf rfl <| .ite ((freeStaged_keeps ..).wf rfl h) (.ite
          ((dropStaged_keeps ..).wf rfl <| (freeStaged_keeps ..).wf rfl h) ((setFtl_keeps ..).wf rfl <|
          (freeStaged_keeps ..).wf rfl h)))
  · exact .ite (memsWf_hold <| (mapSet_keeps ..).wf rfl <| (unitWritten_keeps ..).wf rfl h) (memsWf_unitDone h)
  · exact memsWf_hold <| (mapSet_keeps ..).wf rfl <| (dropStaged_keeps ..).wf rfl <| (unitWritten_keeps ..).wf rfl h

theorem memsWf_programPassed {ch pg} (h : MemsWf s) : MemsWf (programPassed s ch pg) :=
  (judgeFold_keeps ..).wf rfl <| (closeIfFull_keeps ..).wf rfl <| .ite ((beginCkpt_keeps ..).wf rfl <|
      (setFtl_keeps ..).wf rfl <| .ite (.foldl (fun _ _ => memsWf_slotPassed) ((setBg_keeps ..).wf rfl <|
      (setFch_keeps ..).wf rfl h)) ((flushEnded_keeps ..).wf rfl <| .foldl (fun _ _ => memsWf_slotPassed)
      ((setBg_keeps ..).wf rfl <| (setFch_keeps ..).wf rfl h))) ((setFtl_keeps ..).wf rfl <| .ite (.foldl
      (fun _ _ => memsWf_slotPassed) ((setBg_keeps ..).wf rfl <| (setFch_keeps ..).wf rfl h))
      ((flushEnded_keeps ..).wf rfl <| .foldl (fun _ _ => memsWf_slotPassed) ((setBg_keeps ..).wf rfl <|
      (setFch_keeps ..).wf rfl h)))

theorem memsWf_placeRun {dense l except} (h : MemsWf s) : MemsWf (placeRun s dense l except).1 := by
  unfold placeRun
  refine .foldl1 (fun _ _ hx => ?_) h
  split
  · rename_i x e
    exact SomeWf.of e <| someWf_placeAny hx
  · exact hx

theorem memsWf_recopy {g b} (h : MemsWf s) : MemsWf (recopy s g b) := memsWf_placeRun h

theorem memsWf_retireBlock {ch die block} (h : MemsWf s) : MemsWf (retireBlock s ch die block) := by
  unfold retireBlock
  refine .ite h ?_
  refine memsWf_judgeSpare <| memsWf_recopy <| ?_
  split
  · exact (setBg_keeps ..).wf rfl <| (setFtl_keeps ..).wf rfl <| (setFtl_keeps ..).wf rfl <|
        (setFtl_keeps ..).wf rfl <| (bump_keeps ..).wf rfl <| memsWf_hold h
  · exact .ite ((setFtl_keeps ..).wf rfl <| (setFtl_keeps ..).wf rfl <| (bump_keeps ..).wf rfl <| memsWf_hold h)
        (.ite ((poolGroup_keeps ..).wf rfl <| (setBg_keeps ..).wf rfl <| (bump_keeps ..).wf rfl <|
        (setFtl_keeps ..).wf rfl <| (setFtl_keeps ..).wf rfl <| (bump_keeps ..).wf rfl <| memsWf_hold h)
        ((setBg_keeps ..).wf rfl <| (bump_keeps ..).wf rfl <| (setFtl_keeps ..).wf rfl <|
        (setFtl_keeps ..).wf rfl <| (bump_keeps ..).wf rfl <| memsWf_hold h))

theorem memsWf_programFailed {ch pg} (h : MemsWf s) : MemsWf (programFailed s ch pg) :=
  (judgeFold_keeps ..).wf rfl <| .foldl (fun _ _ => memsWf_reissue) (memsWf_retireBlock <| .foldl (fun _ _ hx =>
      (leaveStripe_keeps ..).wf rfl hx) ((setChan_keeps ..).wf rfl h))

theorem memsWf_passOne {bad ch} (h : MemsWf s) : MemsWf (passOne bad s ch) := by
  unfold passOne
  split
  · exact h
  · exact .ite (memsWf_programFailed <| (endErase_keeps ..).wf rfl <| (setChan_keeps ..).wf rfl h)
        (memsWf_programPassed <| (endErase_keeps ..).wf rfl <| (setChan_keeps ..).wf rfl h)

theorem memsWf_passAll {bad f} (h : MemsWf s) : MemsWf (passAll bad f s) := by
  induction f generalizing s with
  | zero => exact h
  | succ f ih =>
    rw [passAll]
    exact .ite h (ih (.foldl (fun _ _ => memsWf_passOne) h))

theorem memsWf_sealShort {ch dense} (h : MemsWf s) : MemsWf (sealShort s ch dense) := by
  unfold sealShort
  split
  · exact h
  · exact .ite (memsWf_sealPage h) ((bump_keeps ..).wf rfl <| memsWf_sealPage h)

theorem memsWf_sealAll {dense} (h : MemsWf s) : MemsWf (sealAll s dense) := .foldl (fun _ _ => memsWf_sealShort) h

theorem memsWf_flushPages {dense bad} (h : MemsWf s) : MemsWf (flushPages s dense bad) :=
  memsWf_passAll <| memsWf_sealAll h

theorem memsWf_readSource {tiers x} (h : MemsWf s) : MemsWf (readSource tiers s x) := by
  unfold readSource
  split
  · exact h
  · exact .ite (.foldl (fun _ _ => memsWf_countTier) ((countRead_keeps ..).wf rfl h)) (.ite
        ((setFtl_keeps ..).wf rfl <| memsWf_recordLost <| .foldl (fun _ _ => memsWf_countTier)
        ((countRead_keeps ..).wf rfl h)) ((dirtyPage_keeps ..).wf rfl <| memsWf_recordLost <| .foldl
        (fun _ _ => memsWf_countTier) ((countRead_keeps ..).wf rfl h)))

theorem memsWf_copyGroup {g bad tiers} (h : MemsWf s) : MemsWf (copyGroup s g bad tiers) :=
  memsWf_commitHeld <| memsWf_flushPages <| memsWf_placeRun <| (book_keeps ..).wf rfl <| .foldl
      (fun _ _ => memsWf_readSource) h

theorem memsWf_coreHold {c} (h : MemsWf s) : MemsWf (coreHold s c) := by
  unfold coreHold
  dsimp -proj only
  split
  · exact .ite (memsWf_setCore (h.core _) h) (memsWf_setCore (h.core _) h)
  · exact memsWf_setCore (h.core _) h
  · exact memsWf_setCore (h.core _) h
  · exact memsWf_setCore (h.core _) h
  · exact h

theorem memsWf_readWord {c i w n tag} (h : MemsWf s) : MemsWf (readWord s c i w n tag).2 := by
  have hread : MemsWf (symbolRead s n).2 := (symbolRead_keeps ..).wf rfl h
  have hmark {t i w n} (ht : MemsWf t) : MemsWf (setMark t i w n) := (setMark_keeps ..).wf rfl ht
  unfold readWord
  dsimp -proj only
  split <;> dsimp only
  · exact h
  · exact memsWf_countCorrected ((bump_keeps ..).wf rfl (hmark h))
  · exact memsWf_recordLost ((countUncorr_keeps ..).wf rfl ((bump_keeps ..).wf rfl (hmark hread)))
  · exact (hmark hread).putLmem (memWf_memWrite _ _ ((hmark hread).inst i))

theorem memsWf_readWords {i a n tag} (h : MemsWf s) : MemsWf (readWords s i a n tag).2 := by
  refine MemsWf.foldl2 (p := (true, s)) (fun _ _ hx => ?_) h
  dsimp only
  split
  · exact hx
  · exact memsWf_readWord hx

theorem memsWf_lmemTake {i a n tag} (h : MemsWf s) : MemsWf (lmemTake s i a n tag).2 := by
  unfold lmemTake
  split
  · exact memsWf_recordLost h
  · exact memsWf_readWords <| (rangeAccess_keeps ..).wf rfl h

theorem memsWf_homeLoad {h' n} (h : MemsWf s) : MemsWf (homeLoad s h' n).2 := memsWf_lmemTake h

theorem memsWf_setCoreMark {c w n} (h : MemsWf s) : MemsWf (setCoreMark s c w n) := memsWf_setCore (h.core _) h

theorem memsWf_readCoreWord {c w n} (h : MemsWf s) : MemsWf (readCoreWord s c w n).2 := by
  have hread : MemsWf (symbolRead s n).2 := (symbolRead_keeps ..).wf rfl h
  unfold readCoreWord
  dsimp -proj only
  split <;> dsimp only
  · exact h
  · exact memsWf_countCorrected (memsWf_setCoreMark h)
  · exact memsWf_recordLost ((countUncorr_keeps ..).wf rfl (memsWf_setCoreMark hread))
  · exact memsWf_coreMemWrite (memsWf_setCoreMark hread)

theorem memsWf_readCore {c a n} (h : MemsWf s) : MemsWf (readCore s c a n).2 := by
  refine MemsWf.foldl2 (p := (true, s)) (fun _ _ hx => ?_) h
  dsimp only
  split
  · exact hx
  · exact memsWf_readCoreWord hx

theorem memsWf_regionLoad {c a n} (h : MemsWf s) : MemsWf (regionLoad s c a n).2 := by
  unfold regionLoad
  split
  · exact memsWf_readCore h
  · exact memsWf_homeLoad h
  · exact (regLoad_keeps ..).wf rfl h
  · split
    · exact memsWf_homeLoad h
    · exact h
  · exact h

theorem memsWf_coreLoad {c a n} (h : MemsWf s) : MemsWf (coreLoad s c a n).2 := by
  have hload : MemsWf (regionLoad s c a n).2 := memsWf_regionLoad h
  unfold coreLoad
  dsimp only
  split
  · exact (memsWf_setCore (k := { coreOf _ c with flit := .good }) (hload.core c) hload).put
  · exact hload

theorem memsWf_coreScrub {c} (h : MemsWf s) : MemsWf (coreScrub s c) := .ite h (memsWf_setCore (h.core _) h)

theorem memsWf_flushStaging (h : MemsWf s) : MemsWf (flushStaging s) := memsWf_flushPages <| memsWf_placeRun h

theorem memsWf_writePages {l} (h : MemsWf s) : MemsWf (writePages s l).1 := by
  unfold writePages
  generalize hr : List.foldl _ _ _ = r
  have hplaced : MemsWf r.1 := by
    rw [← hr]
    refine .foldl1 (fun x p hx => ?_) h
    split
    · next ht => exact (setFtl_keeps ..).wf rfl (SomeWf.of ht (someWf_placeAny hx))
    · exact hx
  dsimp only
  exact memsWf_flushPages hplaced

theorem memsWf_writeMap (h : MemsWf s) : MemsWf (writeMap s).1 := by
  unfold writeMap
  extract_lets a b c
  have hc : MemsWf c.1 := memsWf_writePages (memsWf_writePages (memsWf_writePages h))
  clear_value c
  exact hc

/-- The definition is unfolded as a function: unfolded at `s` it would make the kernel evaluate the checkpoint's `match`. -/
theorem memsWf_runCkpt {clean} (h : MemsWf s) : MemsWf (runCkpt s clean) := by
  suffices hdef : ∀ f, f = runCkpt → MemsWf (f s clean) from hdef _ rfl
  intro f hf
  delta runCkpt at hf
  subst hf
  beta_reduce
  extract_lets begun _ written held
  have hheld : MemsWf held := memsWf_commitHeld (memsWf_writeMap ((beginCkpt_keeps ..).wf rfl h))
  clear_value held
  split
  · exact hheld
  · have hanchored {a b c} : MemsWf (setAnchor held a b c) := (setAnchor_keeps ..).wf rfl hheld
    exact .ite hheld (.ite (memsWf_closeJournal hanchored) hanchored)

theorem memsWf_nvmeShutdown (h : MemsWf s) : MemsWf (nvmeShutdown s) := by
  have hrun := memsWf_runCkpt (clean := true) (memsWf_flushStaging h)
  unfold nvmeShutdown
  exact .ite ((setBoot_keeps ..).wf rfl hrun) hrun

theorem memsWf_holdInstance {i} (h : MemsWf s) : MemsWf (holdInstance s i) :=
  .foldl (fun _ _ => memsWf_coreHold) (.foldl (fun _ _ hx => (fenHold_keeps ..).wf rfl hx) h)

theorem memsWf_endInstance {i} (h : MemsWf s) : MemsWf (endInstance s i) :=
  .foldl (fun _ _ hx => memsWf_finishTicket <| memsWf_fenceTicket hx) h

theorem memsWf_loaderReset {i} (h : MemsWf s) : MemsWf (loaderReset s i) := by
  unfold loaderReset
  dsimp -proj only
  split
  · exact .ite (.foldl (fun _ _ => memsWf_loadResult) ((setCfg_keeps ..).wf rfl h)) (memsWf_loadEnd <| .ite
        ((setFen_keeps ..).wf rfl <| .foldl (fun _ _ => memsWf_loadResult) ((setCfg_keeps ..).wf rfl h)) (.foldl
        (fun _ _ => memsWf_loadResult) ((setCfg_keeps ..).wf rfl h)))
  · exact .foldl (fun _ _ => memsWf_loadResult) ((setCfg_keeps ..).wf rfl h)

theorem memsWf_resetInstance {i flr} (h : MemsWf s) : MemsWf (resetInstance s i flr) :=
  (setInst_keeps ..).wf rfl <| .ite (.put <| (dropController_keeps ..).wf rfl <| .put <|
      (setKey_keeps ..).wf rfl <| memsWf_endInstance <| memsWf_holdInstance <| memsWf_loaderReset <|
      (dropKeyReqs_keeps ..).wf rfl <| (setInst_keeps ..).wf rfl h) ((dropController_keeps ..).wf rfl <| .put <|
      (setKey_keeps ..).wf rfl <| memsWf_endInstance <| memsWf_holdInstance <| memsWf_loaderReset <|
      (dropKeyReqs_keeps ..).wf rfl <| (setInst_keeps ..).wf rfl h)

theorem memsWf_instanceReset {i flr} (h : MemsWf s) : MemsWf (instanceReset s i flr) :=
  .ite h (memsWf_resetInstance h)

theorem memsWf_nvmeDisable {c} (h : MemsWf s) : MemsWf (nvmeDisable s c) :=
  .ite ((dropController_keeps ..).wf rfl h) (memsWf_instanceReset h)

theorem memsWf_nvmeConfigure {c v} (h : MemsWf s) : MemsWf (nvmeConfigure s c v) :=
  .ite (memsWf_nvmeShutdown <| (setCtrl_keeps ..).wf rfl <| .ite ((nvmeEnable_keeps ..).wf rfl h) (.ite
      (memsWf_nvmeDisable h) h)) ((setCtrl_keeps ..).wf rfl <| .ite ((nvmeEnable_keeps ..).wf rfl h) (.ite
      (memsWf_nvmeDisable h) h))

theorem memsWf_nvmeWrite {c off v} (h : MemsWf s) : MemsWf (nvmeWrite s c off v) := by
  unfold nvmeWrite
  refine .ite h ?_
  split
  · exact memsWf_nvmeConfigure h
  · exact (setCtrl_keeps ..).wf rfl h
  · exact (setCtrl_keeps ..).wf rfl h
  · exact (setCtrl_keeps ..).wf rfl h
  · exact (setCtrl_keeps ..).wf rfl h
  · exact (setCtrl_keeps ..).wf rfl h
  · exact h

theorem memsWf_regWrite {a v} (h : MemsWf s) : MemsWf (regWrite s a v) := by
  unfold regWrite
  split
  · exact .ite (memsWf_nvmeWrite h) h
  · exact memsWf_barWrite h

theorem memsWf_regStore {a n v} (h : MemsWf s) : MemsWf (regStore s a n v) :=
  .ite (memsWf_regWrite h) (.ite (memsWf_regWrite <| memsWf_regWrite h) h)

theorem memsWf_lmemPut {i a bs} (h : MemsWf s) : MemsWf (lmemPut s i a bs) :=
  (rangeAccess_keeps ..).wf rfl <| (writeWords_keeps ..).wf rfl <| memsWf_lmemWrite h

theorem memsWf_writeCore {c a bs} (h : MemsWf s) : MemsWf (writeCore s c a bs) :=
  .foldl (fun _ _ hx => .ite hx (memsWf_setCoreMark <| (injectedSymbols_keeps ..).wf rfl hx)) (memsWf_coreMemWrite h)

theorem memsWf_coreStore {c a n v} (h : MemsWf s) : MemsWf (coreStore s c a n v) := by
  unfold coreStore
  split
  · exact memsWf_writeCore h
  · exact memsWf_lmemPut h
  · exact memsWf_regStore h
  · split
    · exact memsWf_lmemPut h
    · exact h.putDram (memWf_memWrite _ _ h.dram)
  · exact h

theorem memsWf_endWaiting {tag status} (h : MemsWf s) : MemsWf (endWaiting s tag status) :=
  memsWf_finishTicket <| (report_keeps ..).wf rfl h

theorem memsWf_submitTicket {sub bs} (h : MemsWf s) : MemsWf (submitTicket s sub bs).2 := by
  unfold submitTicket
  dsimp -proj only
  split
  · exact h
  · split
    · exact memsWf_finishTicket <| (setEntry_keeps ..).wf rfl <| .put h
    · exact memsWf_finishTicket <| (setEntry_keeps ..).wf rfl <| .put h
    · split
      · exact memsWf_endWaiting <| (setEntry_keeps ..).wf rfl <| .put h
      · exact .ite2 ((setEntry_keeps ..).wf rfl <| .put h) ((setEntry_keeps ..).wf rfl <|
            (useSlot_keeps ..).wf rfl <| .put h)

theorem okWf_coreSubmit {c v} (h : MemsWf s) : OkWf (coreSubmit s c v) := by
  have hsubmitted {a sub bs} : MemsWf (submitTicket (readCore s c a 64).2 sub bs).2 :=
    memsWf_submitTicket (memsWf_readCore h)
  exact .ite (.error _) (.ok (memsWf_setCore (hsubmitted.core c) hsubmitted))

theorem memsWf_countWords {u inst tag words} (h : MemsWf s) : MemsWf (countWords s u inst tag words) :=
  .ite (memsWf_recordLost <| (countUncorr_keeps ..).wf rfl <| memsWf_countCorrected h) (memsWf_countCorrected h)

theorem memsWf_crRead {c n} (h : MemsWf s) : MemsWf (crRead s c n).2 := by
  unfold crRead
  refine .ite2 h ?_
  split
  · exact h
  · exact h
  · exact h
  · split
    · exact h
    · exact memsWf_setCore (h.core _) h
  · exact h
  · exact h
  · exact h
  · exact h
  · exact h
  · exact h
  · exact h

theorem memsWf_drainBacklog {f c} (h : MemsWf s) : MemsWf (drainBacklog f s c) := by
  induction f generalizing s with
  | zero => exact h
  | succ f ih =>
    rw [drainBacklog]
    split
    · exact h
    · refine .ite h (ih ?_)
      split
      · exact memsWf_freeTicket (memsWf_cqWrite (memsWf_setCore (h.core c) h))
      · exact memsWf_cqWrite (memsWf_setCore (h.core c) h)

theorem okWf_crWrite {c n v} (h : MemsWf s) : OkWf (crWrite s c n v) := by
  unfold crWrite
  split
  · exact .ok <| memsWf_setCore (h.core _) h
  · exact .ok <| memsWf_setCore (h.core _) h
  · exact .ite (.error _) (.ok <| memsWf_setCore (h.core _) h)
  · exact .ok <| memsWf_setCore (h.core _) h
  · exact .ite (.ok <| memsWf_setCore (h.core _) h) (.error _)
  · exact .ite (.error _) (.ok <| memsWf_drainBacklog <| memsWf_setCore (h.core _) h)
  · exact .ok <| memsWf_drainBacklog <| memsWf_setCore (h.core _) h
  · exact okWf_coreSubmit h
  · exact .ok <| memsWf_setCore (h.core _) h

theorem memsWf_submitRecv {r} (h : MemsWf s) : MemsWf (submitRecv s r) := by
  unfold submitRecv
  dsimp -proj only
  split
  · exact (recvStatus_keeps ..).wf rfl h
  · refine .ite ((recvStatus_keeps ..).wf rfl h) ?_
    refine .ite ((recvStatus_keeps ..).wf rfl h) ?_
    refine .ite ((recvStatus_keeps ..).wf rfl h) ?_
    refine .ite h ?_
    split
    · rename_i _ x e
      have k : MemsWf x := .snd e <| memsWf_submitTicket <| (modRecv_keeps ..).wf rfl h
      exact (modRecv_keeps ..).wf rfl k
    · rename_i x e
      exact .snd e <| memsWf_submitTicket <| (modRecv_keeps ..).wf rfl h

theorem memsWf_submitRecvs (h : MemsWf s) : MemsWf (submitRecvs s) := by
  unfold submitRecvs
  refine .foldl (fun _ _ hx => ?_) h
  split
  · exact hx
  · exact .ite hx (memsWf_submitRecv hx)

theorem memsWf_dataArrives {f} (h : MemsWf s) : MemsWf (dataArrives s f) := by
  unfold dataArrives
  dsimp -proj only
  split
  · exact h
  · exact .ite ((sendAck_keeps ..).wf rfl <| (setIncoming_keeps ..).wf rfl h) (.ite ((sendAck_keeps ..).wf rfl <|
        (setIncoming_keeps ..).wf rfl h) (.ite (memsWf_submitRecvs <| (sendAck_keeps ..).wf rfl <|
        (drainStored_keeps ..).wf rfl <| (addRecv_keeps ..).wf rfl <| (setIncoming_keeps ..).wf rfl h) (.ite
        ((sendAck_keeps ..).wf rfl <| (setIncoming_keeps ..).wf rfl h) ((sendAck_keeps ..).wf rfl <|
        (setIncoming_keeps ..).wf rfl h))))

theorem memsWf_deallocUnit {idx} (h : MemsWf s) : MemsWf (deallocUnit s idx) :=
  memsWf_hold <| (mapSet_keeps ..).wf rfl <| (dropThrough_keeps ..).wf rfl <| (dropStaged_keeps ..).wf rfl h

theorem memsWf_deallocRange {e u n} (h : MemsWf s) : MemsWf (deallocRange s e u n) :=
  .foldl (fun _ _ => memsWf_deallocUnit) h

theorem memsWf_declareLoss (h : MemsWf s) : MemsWf (declareLoss s) :=
  .ite h ((dropOutside_keeps ..).wf rfl <| memsWf_enterFlush <| .ite ((bump_keeps ..).wf rfl <|
      (setBoot_keeps ..).wf rfl <| (setPwr_keeps ..).wf rfl h) ((setPwr_keeps ..).wf rfl h))

theorem memsWf_deleteNs {n} (h : MemsWf s) : MemsWf (deleteNs s n) := by
  unfold deleteNs
  split
  · exact h
  · exact memsWf_judgeSpare <| .foldl (fun _ _ hx => (nsChanged_keeps ..).wf rfl hx) ((setFtl_keeps ..).wf rfl <|
        .foldl (fun _ _ => memsWf_deallocUnit) h)

theorem memsWf_loadTicket {e p} (h : MemsWf s) : MemsWf (loadTicket s e p) :=
  .ite (memsWf_loaderAsk <| (setCtx_keeps ..).wf rfl h) ((setCtx_keeps ..).wf rfl h)

theorem memsWf_deliverPkt {e p} (h : MemsWf s) : MemsWf (deliverPkt s e p) := by
  unfold deliverPkt
  split
  · exact (fenInput_keeps ..).wf rfl h
  · exact (fenInput_keeps ..).wf rfl h
  · exact memsWf_loadTicket h
  · exact (enqueue_keeps ..).wf rfl h

theorem memsWf_fenScrub {f} (h : MemsWf s) : MemsWf (fenScrub s f) :=
  .ite h (.ite (memsWf_unitState <| (setFen_keeps ..).wf rfl h) ((setFen_keeps ..).wf rfl h))

theorem memsWf_giveUnit {u role owner} (h : MemsWf s) : MemsWf (giveUnit s u role owner) :=
  .ite (memsWf_fenScrub <| memsWf_changeUnit h) (.ite (memsWf_coreScrub <| memsWf_changeUnit h) (.ite
      ((clearGroup_keeps ..).wf rfl <| memsWf_changeUnit h) (memsWf_changeUnit h)))

theorem memsWf_destroyGive {i} (h : MemsWf s) : MemsWf (destroyGive s i) :=
  .foldl (fun _ _ hx => .ite (memsWf_giveUnit <| (dropAlias_keeps ..).wf rfl hx) hx) h

theorem memsWf_writeResult {tag e bs} (h : MemsWf s) : MemsWf (writeResult s tag e bs) := memsWf_lmemWrite h

theorem memsWf_dgtFail {u tag step status} (h : MemsWf s) : MemsWf (dgtFail s u tag step status) :=
  memsWf_failAt <| .ite ((bump_keeps ..).wf rfl h) h

theorem memsWf_dgtEnd {u tag step e mode prov} (h : MemsWf s) : MemsWf (dgtEnd s u tag step e mode prov) :=
  .ite (memsWf_endProvisional h) (.ite (memsWf_dgtFail h) (.ite (memsWf_endOut <| .ite (.ite
      ((report_keeps ..).wf rfl <| (bump_keeps ..).wf rfl h) h) (memsWf_writeResult <| .ite
      ((report_keeps ..).wf rfl <| (bump_keeps ..).wf rfl h) h)) (memsWf_endOut <| (sendOut_keeps ..).wf rfl <| .ite
      ((report_keeps ..).wf rfl <| (bump_keeps ..).wf rfl h) h)))

theorem memsWf_dgtServe {u mode} (h : MemsWf s) : MemsWf (dgtServe s u mode) := by
  unfold dgtServe
  refine memsWf_serveAt (fun _ _ _ _ _ _ hs => ?_) h
  split
  · exact memsWf_failAt hs
  · refine .ite ((enqueue_keeps ..).wf rfl hs) ?_
    dsimp -proj only
    split
    · exact memsWf_dgtFail hs
    · next hbegun =>
      have hb := OkWf.of hbegun <| .ite ((dgtBegin_keeps _ _ _ _ _ _).wf rfl hs) (.ok hs)
      exact .ite (memsWf_dgtEnd hb) ((dgtData_keeps ..).wf rfl hb)

theorem memsWf_takeEmit {c v} (h : MemsWf s) : MemsWf (takeEmit s c v) := by
  have hread {a n} : MemsWf (readCore s c a n).2 := memsWf_readCore h
  unfold takeEmit
  dsimp -proj only
  split
  · exact (bump_keeps ..).wf rfl h
  · next t _ =>
    refine .ite h (.ite (memsWf_failAt hread) ?_)
    generalize hsent : (if fld v 28 16 = 0 then _ else _ : State) = x
    have hx : MemsWf x := by
      rw [← hsent]
      exact .ite hread ((sendOut_keeps ..).wf rfl hread)
    generalize hout : setCore x c _ = y
    have hy : MemsWf y := by
      rw [← hout]
      exact memsWf_setCore_of_mem rfl hx
    generalize hcounted : (if coreStatusOk _ then y else _ : State) = z
    have hz : MemsWf z := by
      rw [← hcounted]
      exact .ite hy ((bump_keeps ..).wf rfl hy)
    exact .ite hy (.ite (memsWf_endOut (memsWf_setCore_of_mem rfl hz)) (memsWf_failAt (memsWf_setCore_of_mem rfl hz)))

theorem memsWf_drainEmit {f c} (h : MemsWf s) : MemsWf (drainEmit f s c) := by
  induction f generalizing s with
  | zero => exact h
  | succ f ih =>
    rw [drainEmit]
    split
    · exact h
    · exact ih (memsWf_takeEmit (memsWf_setCore (h.core c) h))

theorem memsWf_drainEmits (h : MemsWf s) : MemsWf (drainEmits s) := .foldl (fun _ _ => memsWf_drainEmit) h

theorem memsWf_dramHealth {c sev} (h : MemsWf s) : MemsWf (dramHealth s c sev) := memsWf_record h

theorem memsWf_dramDead {c} (h : MemsWf s) : MemsWf (dramDead s c) :=
  .ite (memsWf_setHealth <| (setFtl_keeps ..).wf rfl <| memsWf_dramHealth <| memsWf_unitState h)
      (memsWf_dramHealth <| memsWf_unitState h)

theorem memsWf_dramFetch {u tag e step first len raw} (h : MemsWf s) :
    MemsWf (dramFetch s u tag e step first len raw) := by
  unfold dramFetch
  refine .ite (memsWf_failAt h) ?_
  refine .ite (memsWf_failAt h) ?_
  refine .ite (memsWf_failAt <| memsWf_lmemTake <| (bump_keeps ..).wf rfl h) ?_
  dsimp -proj only
  split
  · exact (countTaken_keeps ..).wf rfl <| (countCtx_keeps ..).wf rfl <| (sendData_keeps ..).wf rfl <| .ite
        ((setInbox_keeps ..).wf rfl <| memsWf_lmemTake <| (bump_keeps ..).wf rfl h) (memsWf_lmemTake <|
        (bump_keeps ..).wf rfl h)
  · exact .ite (memsWf_endOut <| (countTaken_keeps ..).wf rfl <| (countCtx_keeps ..).wf rfl <|
        (sendData_keeps ..).wf rfl <| .ite ((setInbox_keeps ..).wf rfl <| memsWf_lmemTake <|
        (bump_keeps ..).wf rfl h) (memsWf_lmemTake <| (bump_keeps ..).wf rfl h)) ((countTaken_keeps ..).wf rfl <|
        (countCtx_keeps ..).wf rfl <| (sendData_keeps ..).wf rfl <| .ite ((setInbox_keeps ..).wf rfl <|
        memsWf_lmemTake <| (bump_keeps ..).wf rfl h) (memsWf_lmemTake <| (bump_keeps ..).wf rfl h))

theorem memsWf_writeStaged {l} (h : MemsWf s) : MemsWf (writeStaged s l) := by
  unfold writeStaged
  refine memsWf_flushPages <| .foldl (fun _ _ hx => ?_) h
  split
  · split
    · rename_i x e
      exact SomeWf.of e <| someWf_placeAny hx
    · exact hx
  · exact hx

theorem memsWf_writeFrames {l} (h : MemsWf s) : MemsWf (writeFrames s l) := by
  unfold writeFrames
  refine memsWf_flushPages <| .foldl (fun _ _ hx => ?_) h
  split
  · rename_i x e
    have k : MemsWf x := SomeWf.of e <| someWf_placeAny hx
    exact (setFtl_keeps ..).wf rfl k
  · exact hx

theorem memsWf_tierLoses {c} (h : MemsWf s) : MemsWf (tierLoses s c) :=
  .ite ((setFtl_keeps ..).wf rfl h) (.ite ((setFtl_keeps ..).wf rfl <| memsWf_writeStaged <| memsWf_writeFrames <|
      (setFtl_keeps ..).wf rfl <| (setFtl_keeps ..).wf rfl h) (memsWf_writeStaged <| memsWf_writeFrames <|
      (setFtl_keeps ..).wf rfl <| (setFtl_keeps ..).wf rfl h))

theorem memsWf_dramLeaves {c st} (h : MemsWf s) : MemsWf (dramLeaves s c st) :=
  (loadLosesRegion_keeps ..).wf rfl <| (shadowMoves_keeps ..).wf rfl <| .foldl (fun _ _ hx =>
      (loseChannel_keeps ..).wf rfl hx) (memsWf_tierLoses <| (setDram_keeps ..).wf rfl h)

theorem memsWf_dramOffline {c} (h : MemsWf s) : MemsWf (dramOffline s c) := memsWf_dramDead <| memsWf_dramLeaves h

theorem memsWf_dramPut {u tag e step raw p} (h : MemsWf s) : MemsWf (dramPut s u tag e step raw p) :=
  .ite (.ite ((enqueue_keeps ..).wf rfl h) (.ite (memsWf_endProvisional h) (memsWf_endOut h))) (.ite
      (memsWf_failAt h) (.ite (memsWf_failAt h) (.ite (memsWf_failAt h) ((setCtx_keeps ..).wf rfl <|
      memsWf_lmemPut <| (bump_keeps ..).wf rfl h))))

theorem memsWf_durableData {u tag step p} (h : MemsWf s) : MemsWf (durableData s u tag step p) :=
  .ite (memsWf_failAt h) (.ite (memsWf_failAt h) ((holdPacket_keeps ..).wf rfl h))

theorem memsWf_endSess {id} (h : MemsWf s) : MemsWf (endSess s id) :=
  .ite (memsWf_closeTest <| (setTru_keeps ..).wf rfl h) ((setTru_keeps ..).wf rfl h)

theorem memsWf_endTestSession {o} (h : MemsWf s) : MemsWf (endTestSession o s) := .ite (memsWf_record h) h

theorem memsWf_epochSets (h : MemsWf s) : MemsWf (epochSets s) :=
  .foldl (fun _ _ hx => (capCredit_keeps ..).wf rfl hx) (memsWf_commitEffect <| memsWf_commitEffect h)

theorem memsWf_eraseGroup {g fails} (h : MemsWf s) : MemsWf (eraseGroup s g fails) :=
  memsWf_judgeSpare <| (judgeFold_keeps ..).wf rfl <| .ite ((poolGroup_keeps ..).wf rfl <| .foldl
      (fun _ _ => memsWf_retireBlock) ((setBg_keeps ..).wf rfl <| (setFtl_keeps ..).wf rfl <|
      (setFch_keeps ..).wf rfl <| .ite h ((book_keeps ..).wf rfl h))) (.foldl (fun _ _ => memsWf_retireBlock)
      ((setBg_keeps ..).wf rfl <| (setFtl_keeps ..).wf rfl <| (setFch_keeps ..).wf rfl <| .ite h
      ((book_keeps ..).wf rfl h)))

theorem memsWf_mediaRead {c t} (h : MemsWf s) : MemsWf (mediaRead s c t) := by
  unfold mediaRead
  split
  · exact h
  · refine .ite (memsWf_readCore h) ?_
    refine .ite (memsWf_setCore (h.core _) h) ?_
    split
    · exact memsWf_lmemTake h
    · exact h

theorem memsWf_faultCore {c code} (h : MemsWf s) : MemsWf (faultCore s c code) :=
  memsWf_setCore (h.core _) <| (setLive_keeps ..).wf rfl h

theorem memsWf_takeTrap {c t epc ds rep} (h : MemsWf s) : MemsWf (takeTrap s c t epc ds rep) := by
  have htaken {k : Core} (hk : k.mem = (coreOf s c).mem) :
      MemsWf (setCore (if t.code = 0x10 then s else bump s (coreRegs s Reg.GLY_CORE_COUNTS c) 31 16 1) c k) :=
    memsWf_setCore (hk ▸ h.core c) (.ite h ((bump_keeps ..).wf rfl h))
  unfold takeTrap
  dsimp -proj only
  refine .ite (memsWf_faultCore h) (.ite (memsWf_faultCore (htaken ?_)) (htaken ?_)) <;>
    cases rep <;> simp only [Core.mem_setCr]

theorem memsWf_trapNow {c t rep} (h : MemsWf s) : MemsWf (trapNow s c t rep) := by
  have htaken {epc ds} : MemsWf (takeTrap (mediaRead s c t) c t epc ds rep) :=
    memsWf_takeTrap (memsWf_mediaRead h)
  exact .ite (.foldl (fun _ _ => memsWf_failAt) (memsWf_setCore (htaken.core c) htaken)) htaken

theorem memsWf_settle {c} (h : MemsWf s) : MemsWf (settle s c) := .ite (memsWf_setCore (h.core _) h) h

theorem nextWf_execUndefinedEncoding {core bytes} (h : MemsWf s) : NextWf (execUndefinedEncoding core bytes s) := by
  unfold execUndefinedEncoding
  refine .ite (.next h) ?_
  split
  · exact .next <| memsWf_settle <| memsWf_trapNow h
  · split
    · exact .next <| memsWf_settle <| memsWf_trapNow h
    · exact .next h

theorem nextWf_execEraseStatus {channel die block pass} (h : MemsWf s) :
    NextWf (execEraseStatus channel die block pass s) := by
  unfold execEraseStatus
  refine .ite ?_ ?_
  · refine .ite ?_ ?_
    · refine .next <| (endErase_keeps ..).wf rfl <| ?_
      split
      · exact (useInj_keeps ..).wf rfl h
      · exact h
    · refine .next <| (setFch_keeps ..).wf rfl <| (endErase_keeps ..).wf rfl <| ?_
      split
      · exact (useInj_keeps ..).wf rfl h
      · exact h
  · refine .next <| memsWf_retireBlock <| (endErase_keeps ..).wf rfl <| ?_
    split
    · exact (useInj_keeps ..).wf rfl h
    · exact h

theorem memsWf_injectNow {kind} (h : MemsWf s) : MemsWf (injectNow s kind) := by
  unfold injectNow
  split
  · exact h
  · exact memsWf_record <| (setTst_keeps ..).wf rfl h

theorem memsWf_testFailed {x} (h : MemsWf s) : MemsWf (testFailed s x) := by
  unfold testFailed
  dsimp -proj only
  split
  · exact memsWf_unitState <| (setFen_keeps ..).wf rfl <| (dropTest_keeps ..).wf rfl h
  · exact memsWf_unitState <| (setFen_keeps ..).wf rfl <| (dropTest_keeps ..).wf rfl h
  · exact memsWf_channelOffline <| (dropTest_keeps ..).wf rfl h
  · exact memsWf_dramDead <| (setDram_keeps ..).wf rfl <| (dropTest_keeps ..).wf rfl h
  · exact (setBank_keeps ..).wf rfl <| (dropTest_keeps ..).wf rfl h
  · exact .ite ((dropTest_keeps ..).wf rfl h) (memsWf_unitState <| memsWf_setCore (h.core _) <|
        (dropTest_keeps ..).wf rfl h)
  · exact .ite ((dropTest_keeps ..).wf rfl h) (memsWf_unitState <| memsWf_setCore (h.core _) <|
        (dropTest_keeps ..).wf rfl h)
  · exact .ite ((dropTest_keeps ..).wf rfl h) (memsWf_unitState <| (dropTest_keeps ..).wf rfl h)

theorem memsWf_giveBack {x} (h : MemsWf s) : MemsWf (giveBack s x) := by
  have hcopied {n} : MemsWf (setCore s (x.unit - 72) (coreOf s n)) := memsWf_setCore (h.core n) h
  unfold giveBack
  split
  · exact h
  · exact .ite (.ite ((dropTest_keeps ..).wf rfl ((freeSpare_keeps ..).wf rfl h)) h)
      (.ite ((dropTest_keeps ..).wf rfl ((freeSpare_keeps ..).wf rfl (memsWf_setCore (hcopied.core _) hcopied))) h)

theorem memsWf_takeEngine {t} (h : MemsWf s) : MemsWf (takeEngine s t) := by
  unfold takeEngine
  split
  · exact (bindSpare_keeps ..).wf rfl h
  · exact memsWf_unitState h

theorem memsWf_takeCore {t} (h : MemsWf s) : MemsWf (takeCore s t) := by
  unfold takeCore
  dsimp -proj only
  split
  · exact (bindSpare_keeps ..).wf rfl (memsWf_setCore rfl (memsWf_setCore (h.core _) h))
  · exact memsWf_unitState (memsWf_setCore (k := { coreOf s _ with state := _ }) (h.core _) h)

theorem memsWf_takeOut {t} (h : MemsWf s) : MemsWf (takeOut s t) := by
  unfold takeOut
  refine .ite ((takeBank_keeps ..).wf rfl h) ?_
  dsimp -proj only
  split
  · exact (takeBank_keeps ..).wf rfl <| (setTst_keeps ..).wf rfl h
  · exact memsWf_takeCore <| (setTst_keeps ..).wf rfl h
  · exact memsWf_takeCore <| (setTst_keeps ..).wf rfl h
  · exact memsWf_unitState <| (setFen_keeps ..).wf rfl <| (setTst_keeps ..).wf rfl h
  · exact memsWf_unitState <| (setFen_keeps ..).wf rfl <| (setTst_keeps ..).wf rfl h
  · exact memsWf_unitState <| memsWf_channelLeaves <| (setTst_keeps ..).wf rfl h
  · exact memsWf_unitState <| memsWf_dramLeaves <| (setTst_keeps ..).wf rfl h
  · exact memsWf_takeEngine <| .ite (memsWf_endInside <| (setTst_keeps ..).wf rfl h) ((setTst_keeps ..).wf rfl h)

theorem memsWf_takeUrgent (h : MemsWf s) : MemsWf (takeUrgent s) :=
  .foldl (fun _ _ hx => .ite (memsWf_takeOut <| (setTst_keeps ..).wf rfl hx) hx) h

theorem memsWf_tstSettle (h : MemsWf s) : MemsWf (tstSettle s) :=
  .foldl (fun _ _ hx => .ite (memsWf_giveBack <| .ite ((setTest_keeps ..).wf rfl hx) hx) (.ite
      ((setTest_keeps ..).wf rfl hx) hx)) (.ite h (memsWf_takeUrgent h))

theorem memsWf_testPassed {x} (h : MemsWf s) : MemsWf (testPassed s x) := by
  unfold testPassed
  dsimp -proj only
  split
  · exact (dropTest_keeps ..).wf rfl <| memsWf_unitState <| (setFen_keeps ..).wf rfl h
  · exact (dropTest_keeps ..).wf rfl <| memsWf_unitState <| (setFen_keeps ..).wf rfl h
  · exact (dropTest_keeps ..).wf rfl <| memsWf_unitState <| (noteOffline_keeps ..).wf rfl <|
        (setChan_keeps ..).wf rfl h
  · exact (dropTest_keeps ..).wf rfl <| memsWf_unitState <| (setDram_keeps ..).wf rfl h
  · exact (dropTest_keeps ..).wf rfl <| (setBank_keeps ..).wf rfl h
  · exact .ite (memsWf_tstSettle <| (setTest_keeps ..).wf rfl h) ((dropTest_keeps ..).wf rfl <|
        memsWf_backInService <| memsWf_setCore (h.core _) h)
  · exact .ite (memsWf_tstSettle <| (setTest_keeps ..).wf rfl h) ((dropTest_keeps ..).wf rfl <|
        memsWf_backInService <| memsWf_setCore (h.core _) h)
  · exact .ite (memsWf_tstSettle <| (setTest_keeps ..).wf rfl <| (clearHw_keeps ..).wf rfl h)
        ((dropTest_keeps ..).wf rfl <| memsWf_backInService <| (clearHw_keeps ..).wf rfl h)

theorem memsWf_unitTested {unit passed tiles} (h : MemsWf s) : MemsWf (unitTested s unit passed tiles) := by
  unfold unitTested
  split
  · exact h
  · exact .ite h (.ite ((testOutcome_keeps ..).wf rfl <| (nextBank_keeps ..).wf rfl <| .ite (memsWf_testPassed <|
        (setLive_keeps ..).wf rfl <| (bump_keeps ..).wf rfl <| (tilesFound_keeps ..).wf rfl h) (memsWf_testFailed <|
        (setLive_keeps ..).wf rfl <| (bump_keeps ..).wf rfl <| (tilesFound_keeps ..).wf rfl h))
        ((nextBank_keeps ..).wf rfl <| .ite (memsWf_testPassed <| (setLive_keeps ..).wf rfl <|
        (bump_keeps ..).wf rfl <| (tilesFound_keeps ..).wf rfl h) (memsWf_testFailed <| (setLive_keeps ..).wf rfl <|
        (bump_keeps ..).wf rfl <| (tilesFound_keeps ..).wf rfl h)))

theorem nextWf_execTestDrainTimeout {unit} (h : MemsWf s) : NextWf (execTestDrainTimeout unit s) := by
  unfold execTestDrainTimeout
  split
  · exact .ite (.next <| memsWf_tstSettle <| (setTest_keeps ..).wf rfl <| memsWf_endInside h) (.next h)
  · exact .next h

theorem nextWf_execUnitTestRequest (h : MemsWf s) : NextWf (execUnitTestRequest s) := by
  unfold execUnitTestRequest
  refine .ite (.next h) ?_
  dsimp -proj only
  split
  · exact .next <| (feedQueue_keeps ..).wf rfl <| memsWf_takeUrgent h
  · split
    · exact .next <| (feedQueue_keeps ..).wf rfl <| memsWf_takeUrgent h
    · exact .next <| .ite (memsWf_takeOut <| (dropTaking_keeps ..).wf rfl <| (feedQueue_keeps ..).wf rfl <|
          memsWf_takeUrgent h) ((testOutcome_keeps ..).wf rfl <| (dropTaking_keeps ..).wf rfl <|
          (feedQueue_keeps ..).wf rfl <| memsWf_takeUrgent h)

theorem memsWf_writeCleared {c} (h : MemsWf s) : MemsWf (writeCleared s c) :=
  (flushMirror_keeps ..).wf rfl <| .foldl (fun _ _ => memsWf_writeRecord) (memsWf_writeRecord <|
      (setEvr_keeps ..).wf rfl h)

theorem nextWf_execEvrClear (h : MemsWf s) : NextWf (execEvrClear s) := by
  unfold execEvrClear
  split
  · exact .next h
  · split
    · exact .next <| (setEvr_keeps ..).wf rfl h
    · exact .next <| (setEvr_keeps ..).wf rfl <| (useNor_keeps ..).wf rfl h
    · exact .next <| (setEvr_keeps ..).wf rfl <| memsWf_writeCleared h
    · exact .next <| .foldl (fun _ _ => memsWf_writeRecord) ((setEvr_keeps ..).wf rfl h)

theorem nextWf_execConfirmTimeout (h : MemsWf s) : NextWf (execConfirmTimeout s) :=
  .ite (.next <| memsWf_beginEntry <| memsWf_record <| (fallBackPtr_keeps ..).wf rfl h) (.next h)

theorem memsWf_portReset {p} (h : MemsWf s) : MemsWf (portReset s p) :=
  (dropController_keeps ..).wf rfl <| .foldl (fun _ _ => memsWf_instanceReset) h

theorem memsWf_linkLost {p} (h : MemsWf s) : MemsWf (linkLost s p) :=
  .ite (memsWf_portReset <| (setLink_keeps ..).wf rfl h) h

theorem nextWf_execPerstAssert {port} (h : MemsWf s) : NextWf (execPerstAssert port s) :=
  .ite (.next <| (setBoot_keeps ..).wf rfl h) (.ite (.ite (.next <| (toRom_keeps ..).wf rfl <|
      (setBoot_keeps ..).wf rfl <| .ite ((enterRamp_keeps ..).wf rfl <| (setPwr_keeps ..).wf rfl <|
      (setFtl_keeps ..).wf rfl <| (setBoot_keeps ..).wf rfl h) ((setPwr_keeps ..).wf rfl <|
      (setFtl_keeps ..).wf rfl <| (setBoot_keeps ..).wf rfl h)) (.next <| (setBoot_keeps ..).wf rfl h)) (.ite
      (.next <| (setBoot_keeps ..).wf rfl h) (.ite (.next <| memsWf_linkLost <| (setBoot_keeps ..).wf rfl h)
      (.next <| (setLink_keeps ..).wf rfl <| (setBoot_keeps ..).wf rfl h))))

theorem memsWf_secureBegin {x failing tiers} (h : MemsWf s) : MemsWf (secureBegin s x failing tiers) :=
  (setFtl_keeps ..).wf rfl <| memsWf_runCkpt <| .foldl (fun _ _ => memsWf_copyGroup) (.foldl (fun _ _ hx => .ite
      ((closeGroup_keeps ..).wf rfl hx) hx) (memsWf_flushPages <| memsWf_flushPages h))

theorem memsWf_retryStalled (h : MemsWf s) : MemsWf (retryStalled s) :=
  .foldl (fun _ _ => memsWf_reissue) ((setFch_keeps ..).wf rfl h)

theorem memsWf_secureRetired {groups lost paid} (h : MemsWf s) : MemsWf (secureRetired s groups lost paid).1 :=
  .foldl (fun _ _ => memsWf_recordLost) ((setFch_keeps ..).wf rfl <| .ite h ((book_keeps ..).wf rfl h))

theorem memsWf_secureEraseGroup {x g} (h : MemsWf s) : MemsWf (secureEraseGroup x s g) :=
  (beginErase_keeps ..).wf rfl <| memsWf_eraseGroup h

theorem memsWf_secureErase {x} (h : MemsWf s) : MemsWf (secureErase s x) := by
  unfold secureErase
  refine .ite ?_ h
  dsimp -proj only
  split
  · exact memsWf_retryStalled <| (setFtl_keeps ..).wf rfl <| memsWf_secureRetired <| .foldl
        (fun _ _ => memsWf_secureEraseGroup) h
  · split
    · exact memsWf_retryStalled <| (setFtl_keeps ..).wf rfl <| memsWf_secureRetired <| .foldl
          (fun _ _ => memsWf_secureEraseGroup) h
    · split
      · exact memsWf_failAt <| memsWf_retryStalled <| (setFtl_keeps ..).wf rfl <| memsWf_secureRetired <| .foldl
            (fun _ _ => memsWf_secureEraseGroup) h
      · exact memsWf_endOut <| memsWf_retryStalled <| (setFtl_keeps ..).wf rfl <| memsWf_secureRetired <| .foldl
            (fun _ _ => memsWf_secureEraseGroup) h

theorem memsWf_resumeSecures (h : MemsWf s) : MemsWf (resumeSecures s) := .foldl (fun _ _ => memsWf_secureErase) h

theorem nextWf_execStartReady (h : MemsWf s) : NextWf (execStartReady s) :=
  .ite (.next h) (.next <| memsWf_record <| memsWf_resumeSecures <| .foldl (fun _ _ => memsWf_secureBegin)
      ((fedJoin_keeps ..).wf rfl <| (takeCandidate_keeps ..).wf rfl <| (setBoot_keeps ..).wf rfl h))

theorem memsWf_fenceDirty (h : MemsWf s) : MemsWf (fenceDirty s) := .foldl (fun _ _ => memsWf_flushFence) h

theorem memsWf_partialParity {g p} (h : MemsWf s) : MemsWf (partialParity s g p) := by
  unfold partialParity
  dsimp -proj only
  split
  · exact h
  · split
    · exact h
    · next k h' q t e =>
      obtain ⟨k', -, hk⟩ := List.exists_of_findSome?_eq_some e
      obtain ⟨r, hr, he⟩ := Option.map_eq_some_iff.mp hk
      cases he
      exact memsWf_sealWith <| (notePresent_keeps ..).wf rfl <| (setFch_keeps ..).wf rfl <|
        (allocPage_keeps _ _ _ _ _ _ _ _ hr).wf rfl h

theorem memsWf_flushClose (h : MemsWf s) : MemsWf (flushClose s) :=
  .put <| .put <| (saveFlushNj_keeps ..).wf rfl <| memsWf_closeJournal <| memsWf_flushPages <| .foldl
      (fun _ _ => memsWf_partialParity) h

theorem memsWf_flushRecord {mv} (h : MemsWf s) : MemsWf (flushRecord s mv) :=
  (setBoot_keeps ..).wf rfl <| (flushMirror_keeps ..).wf rfl <| memsWf_record h

theorem memsWf_flushAll {mv} (h : MemsWf s) : MemsWf (flushAll s mv) :=
  memsWf_flushRecord <| memsWf_flushClose <| memsWf_flushStaging <| memsWf_fenceDirty h

theorem memsWf_finishEntry {save} (h : MemsWf s) : MemsWf (finishEntry s save) :=
  (toRom_keeps ..).wf rfl <| (setBoot_keeps ..).wf rfl <| (gateAll_keeps ..).wf rfl <| (setFtl_keeps ..).wf rfl <|
      (saveCounts_keeps ..).wf rfl <| memsWf_flushAll <| (gateStep4_keeps ..).wf rfl h

theorem memsWf_recordStream {st} (h : MemsWf s) : MemsWf (recordStream s st) := memsWf_record h

theorem memsWf_streamPhase {o} (h : MemsWf s) : MemsWf (streamPhase o s) := by
  unfold streamPhase
  dsimp -proj only
  split
  · split
    · exact .ite ((applyStream_keeps ..).wf rfl h) (memsWf_recordStream h)
    · exact h
  · refine .ite ?_ ?_
    · split
      · exact .ite ((applyStream_keeps ..).wf rfl h) (memsWf_recordStream h)
      · exact h
    · refine .ite ((applyStream_keeps ..).wf rfl h) ?_
      split
      · exact .ite ((applyStream_keeps ..).wf rfl <| memsWf_recordStream h) (memsWf_recordStream <|
            memsWf_recordStream h)
      · exact memsWf_recordStream h

theorem memsWf_rebuildMap (h : MemsWf s) : MemsWf (rebuildMap s) :=
  (beginCkpt_keeps ..).wf rfl <| (setFtl_keeps ..).wf rfl <| .foldl (fun _ _ hx => memsWf_hold <|
      (mapSet_keeps ..).wf rfl hx) ((setFtl_keeps ..).wf rfl h)

theorem memsWf_recoverPhase {o env warm} (h : MemsWf s) : MemsWf (recoverPhase o env warm s) := by
  unfold recoverPhase
  refine .ite ?_ ?_
  · refine (setFtl_keeps ..).wf rfl <| ?_
    split
    · exact (setBoot_keeps ..).wf rfl <| (setFtl_keeps ..).wf rfl <| (setFtl_keeps ..).wf rfl <| .ite
          ((setFtl_keeps ..).wf rfl h) h
    · exact (formatMedia_keeps ..).wf rfl <| (setFtl_keeps ..).wf rfl <| .ite ((setFtl_keeps ..).wf rfl h) h
    · exact (setFtl_keeps ..).wf rfl <| (setFtl_keeps ..).wf rfl <| .ite ((setFtl_keeps ..).wf rfl h) h
    · exact .foldl (fun _ _ hx => .ite ((markDirty_keeps ..).wf rfl hx) hx) ((setFtl_keeps ..).wf rfl <|
          (setFtl_keeps ..).wf rfl <| .ite ((setFtl_keeps ..).wf rfl h) h)
    · exact memsWf_rebuildMap <| (setFtl_keeps ..).wf rfl <| (setFtl_keeps ..).wf rfl <| .ite
          ((setFtl_keeps ..).wf rfl h) h
  · split
    · exact (setBoot_keeps ..).wf rfl <| (setFtl_keeps ..).wf rfl <| (setFtl_keeps ..).wf rfl <| .ite
          ((setFtl_keeps ..).wf rfl h) h
    · exact (formatMedia_keeps ..).wf rfl <| (setFtl_keeps ..).wf rfl <| .ite ((setFtl_keeps ..).wf rfl h) h
    · exact (setFtl_keeps ..).wf rfl <| (setFtl_keeps ..).wf rfl <| .ite ((setFtl_keeps ..).wf rfl h) h
    · exact .foldl (fun _ _ hx => .ite ((markDirty_keeps ..).wf rfl hx) hx) ((setFtl_keeps ..).wf rfl <|
          (setFtl_keeps ..).wf rfl <| .ite ((setFtl_keeps ..).wf rfl h) h)
    · exact memsWf_rebuildMap <| (setFtl_keeps ..).wf rfl <| (setFtl_keeps ..).wf rfl <| .ite
          ((setFtl_keeps ..).wf rfl h) h

theorem memsWf_restoreStates {env} (h : MemsWf s) : MemsWf (restoreStates s env) :=
  .foldl (fun _ _ hx => .ite (memsWf_record <| (startUnit_keeps ..).wf rfl hx) ((startUnit_keeps ..).wf rfl hx)) h

theorem memsWf_restoreSettings (h : MemsWf s) : MemsWf (restoreSettings s) := by
  unfold restoreSettings
  split
  · exact h
  · exact .ite (memsWf_recordRom <| (setUpd_keeps ..).wf rfl h) (.foldl (fun _ _ hx =>
        (rateChange_keeps ..).wf rfl hx) (.foldl (fun _ _ hx => .ite ((setChan_keeps ..).wf rfl hx) hx) (.put h)))

theorem memsWf_startSets {o} (h : MemsWf s) : MemsWf (startSets o s) := by
  unfold startSets
  refine .foldl (fun _ _ hx => ?_) h
  split
  · exact hx
  · exact .ite (memsWf_recordRefused <| (setGroup_keeps ..).wf rfl hx) (.ite ((saveSettings_keeps ..).wf rfl <|
        .put hx) (.put hx))

theorem memsWf_trainFlash {o env warm k} (h : MemsWf s) : MemsWf (trainFlash o env warm s k) := by
  unfold trainFlash
  split
  · exact (setChan_keeps ..).wf rfl h
  · refine .ite ((setChan_keeps ..).wf rfl h) ?_
    refine .ite (memsWf_record <| .ite ((setChan_keeps ..).wf rfl h) ((setFch_keeps ..).wf rfl <|
        (setChan_keeps ..).wf rfl h)) ?_
    refine .ite ((setLive_keeps ..).wf rfl <| (setBoot_keeps ..).wf rfl <| (setChan_keeps ..).wf rfl h) ?_
    refine .ite ((setChan_keeps ..).wf rfl h) ?_
    refine .ite (memsWf_record <| .ite ((setChan_keeps ..).wf rfl <| .foldl (fun _ _ hx => .ite hx
        ((setFch_keeps ..).wf rfl hx)) ((setChan_keeps ..).wf rfl h)) ((setFch_keeps ..).wf rfl <|
        (setChan_keeps ..).wf rfl <| .foldl (fun _ _ hx => .ite hx ((setFch_keeps ..).wf rfl hx))
        ((setChan_keeps ..).wf rfl h))) ?_
    split
    · exact memsWf_record <| .ite ((setChan_keeps ..).wf rfl <| (bump_keeps ..).wf rfl <| .foldl
          (fun _ _ hx => .ite hx ((setFch_keeps ..).wf rfl hx)) ((setChan_keeps ..).wf rfl h))
          ((setFch_keeps ..).wf rfl <| (setChan_keeps ..).wf rfl <| (bump_keeps ..).wf rfl <| .foldl
          (fun _ _ hx => .ite hx ((setFch_keeps ..).wf rfl hx)) ((setChan_keeps ..).wf rfl h))
    · exact .ite (memsWf_record <| (setLive_keeps ..).wf rfl <| (bump_keeps ..).wf rfl <|
          (setChan_keeps ..).wf rfl <| .foldl (fun _ _ hx => .ite hx ((setFch_keeps ..).wf rfl hx))
          ((setChan_keeps ..).wf rfl h)) ((setLive_keeps ..).wf rfl <| (bump_keeps ..).wf rfl <|
          (setChan_keeps ..).wf rfl <| .foldl (fun _ _ hx => .ite hx ((setFch_keeps ..).wf rfl hx))
          ((setChan_keeps ..).wf rfl h))

theorem memsWf_trainDram {o env warm c} (h : MemsWf s) : MemsWf (trainDram o env warm s c) := by
  unfold trainDram
  refine .ite ((setLive_keeps ..).wf rfl <| (setLive_keeps ..).wf rfl <| (setBoot_keeps ..).wf rfl <|
      (setDram_keeps ..).wf rfl h) ?_
  refine .ite ((setDram_keeps ..).wf rfl h) ?_
  refine .ite (memsWf_dramHealth <| (setDram_keeps ..).wf rfl h) ?_
  dsimp -proj only
  split
  · exact memsWf_dramHealth <| (setDram_keeps ..).wf rfl <| (bump_keeps ..).wf rfl <| (setLive_keeps ..).wf rfl <|
        (setDram_keeps ..).wf rfl h
  · exact .ite (memsWf_dramHealth <| (setLive_keeps ..).wf rfl <| (bump_keeps ..).wf rfl <|
        (setDram_keeps ..).wf rfl <| (setLive_keeps ..).wf rfl <| (setDram_keeps ..).wf rfl h)
        ((setLive_keeps ..).wf rfl <| (bump_keeps ..).wf rfl <| (setDram_keeps ..).wf rfl <|
        (setLive_keeps ..).wf rfl <| (setDram_keeps ..).wf rfl h)

theorem memsWf_trainPhase {o env warm} (h : MemsWf s) : MemsWf (trainPhase o env warm s) :=
  .put <| (setJct_keeps ..).wf rfl <| (noteOffline_keeps ..).wf rfl <| .foldl (fun _ _ => memsWf_trainFlash) (.foldl
      (fun _ _ => memsWf_trainDram) h)

theorem memsWf_romPhase {env warm} (h : MemsWf s) : MemsWf (romPhase s env warm) :=
  (measSecurity_keeps ..).wf rfl <| (extendMeas_keeps ..).wf rfl <| (setTru_keeps ..).wf rfl <| .ite
      (memsWf_setHealth <| .ite h (.ite ((enterRamp_keeps ..).wf rfl h) ((setPwr_keeps ..).wf rfl h)))
      ((setPwr_keeps ..).wf rfl <| memsWf_setHealth <| .ite h (.ite ((enterRamp_keeps ..).wf rfl h)
      ((setPwr_keeps ..).wf rfl h)))

theorem nextWf_execIdeIntegrityFailure {port stream} (h : MemsWf s) :
    NextWf (execIdeIntegrityFailure port stream s) :=
  .ite (.next h) (.next <| memsWf_record <| (judgeIde_keeps ..).wf rfl <| (setTru_keeps ..).wf rfl h)

theorem nextWf_execTestClose {fn session} (h : MemsWf s) : NextWf (execTestClose fn session s) := by
  unfold execTestClose
  exact nextWf_onFn (.ite ((respondVendor_keeps ..).wf rfl <| memsWf_closeTest h)
      ((respondVendor_keeps ..).wf rfl h)) h

theorem nextWf_execTestOpen {fn session} (h : MemsWf s) : NextWf (execTestOpen fn session s) := by
  unfold execTestOpen
  exact nextWf_onFn (.ite (.ite ((respondVendor_keeps ..).wf rfl h) ((respondVendor_keeps ..).wf rfl <|
      memsWf_record <| (measSecurity_keeps ..).wf rfl <| (setTru_keeps ..).wf rfl h))
      ((respondVendor_keeps ..).wf rfl h)) h

theorem nextWf_execEndSession {fn session} (h : MemsWf s) : NextWf (execEndSession fn session s) := by
  unfold execEndSession
  unfold inSession
  exact nextWf_onFn (.ite ((respond_keeps ..).wf rfl <| memsWf_endSess h) ((respondErr_keeps ..).wf rfl h)) h

theorem nextWf_execFinish {fn session reqKey ok th} (h : MemsWf s) :
    NextWf (execFinish fn session reqKey ok th s) := by
  unfold execFinish
  refine nextWf_onFn (?_) h
  split
  · exact (respondErr_keeps ..).wf rfl h
  · exact .ite ((respond_keeps ..).wf rfl <| (modSess_keeps ..).wf rfl h) ((respondErr_keeps ..).wf rfl <|
        memsWf_endSess <| .ite ((bump_keeps ..).wf rfl h) h)

theorem nextWf_execFedTableLoad {table} (h : MemsWf s) : NextWf (execFedTableLoad table s) := by
  unfold execFedTableLoad
  dsimp -proj only
  split
  · exact .next h
  · exact .ite (.next <| memsWf_refuseSet h) (.ite (.next <| (setJct_keeps ..).wf rfl <|
        (takeSet_keeps ..).wf rfl h) (.ite (.next h) (.ite (.next <| memsWf_refuseSet h) (.next <|
        (bump_keeps ..).wf rfl <| (setJct_keeps ..).wf rfl <| (takeSet_keeps ..).wf rfl h))))

theorem memsWf_msgOutcome {node tenant p status} (h : MemsWf s) : MemsWf (msgOutcome s node tenant p status) := by
  unfold msgOutcome
  split
  · exact h
  · exact (pumpConn_keeps ..).wf rfl <| .foldl (fun _ _ => memsWf_messageOutcome) ((setConn_keeps ..).wf rfl h)

theorem nextWf_execRetransmitTimeout {node tenant seq} (h : MemsWf s) :
    NextWf (execRetransmitTimeout node tenant seq s) := by
  unfold execRetransmitTimeout
  split
  · exact .next h
  · split
    · exact .next h
    · exact .ite (.next <| memsWf_msgOutcome h) (.next <| (setConn_keeps ..).wf rfl <|
          (sendFrame_keeps ..).wf rfl <| .ite ((bump_keeps ..).wf rfl h) h)

theorem memsWf_learnLoss {node inc} (h : MemsWf s) : MemsWf (learnLoss s node inc) :=
  .ite (.foldl (fun _ _ => memsWf_closeConn) ((setJct_keeps ..).wf rfl h)) ((beginPromotions_keeps ..).wf rfl <|
      (setJct_keeps ..).wf rfl <| .foldl (fun _ _ => memsWf_closeConn) ((setJct_keeps ..).wf rfl h))

theorem memsWf_loseNeighbour {n} (h : MemsWf s) : MemsWf (loseNeighbour s n) :=
  .ite ((demoteAll_keeps ..).wf rfl <| memsWf_learnLoss <| .ite ((floodFrame_keeps ..).wf rfl <|
      (setJct_keeps ..).wf rfl h) ((setJct_keeps ..).wf rfl h)) (memsWf_learnLoss <| .ite
      ((floodFrame_keeps ..).wf rfl <| (setJct_keeps ..).wf rfl h) ((setJct_keeps ..).wf rfl h))

theorem nextWf_execUaserLinkDown {port} (h : MemsWf s) : NextWf (execUaserLinkDown port s) :=
  .next <| .foldl (fun _ _ => memsWf_loseNeighbour) ((setJct_keeps ..).wf rfl h)

theorem nextWf_execNeighbourTimeout {node} (h : MemsWf s) : NextWf (execNeighbourTimeout node s) := by
  unfold execNeighbourTimeout
  split
  · exact .next h
  · exact .next <| memsWf_loseNeighbour h

theorem nextWf_execStalePeer {wire} (h : MemsWf s) : NextWf (execStalePeer wire s) :=
  .next (memsWf_onOwn (fun _ _ hs => .ite hs (memsWf_closeConn hs)) h)

theorem nextWf_execLoss {wire} (h : MemsWf s) : NextWf (execLoss wire s) :=
  .next (memsWf_onFrame (fun _ _ hs => .ite hs (memsWf_learnLoss <| (floodOn_keeps ..).wf rfl <|
      (setJct_keeps ..).wf rfl hs)) h)

theorem nextWf_execHeartbeat {wire} (h : MemsWf s) : NextWf (execHeartbeat wire s) := by
  unfold execHeartbeat
  refine .next <| memsWf_onFrame (fun _ _ hs => ?_) h
  refine .ite (.ite hs (memsWf_record <| (setJct_keeps ..).wf rfl hs)) ?_
  split
  · exact .ite hs ((newNeighbour_keeps ..).wf rfl hs)
  · exact .ite (.ite (memsWf_loseNeighbour hs) ((newNeighbour_keeps ..).wf rfl <| memsWf_loseNeighbour hs)) (.ite
        (memsWf_loseNeighbour hs) ((setJct_keeps ..).wf rfl hs))

theorem nextWf_execOutcome {wire} (h : MemsWf s) : NextWf (execOutcome wire s) :=
  .next (memsWf_onOwn (fun _ _ hs => .ite (memsWf_msgOutcome hs) hs) h)

theorem nextWf_execData {wire} (h : MemsWf s) : NextWf (execData wire s) :=
  .next (memsWf_onOwn (fun _ _ hs => memsWf_dataArrives <| (ackUpTo_keeps ..).wf rfl hs) h)

theorem memsWf_freeInstance {i} (h : MemsWf s) : MemsWf (freeInstance s i) := by
  have herased : MemsWf { s with lmem := Tab.erase s.lmem i } :=
    ⟨h.dram, Tab.sorted_erase i h.sorted, fun p hp => h.lmem p (Tab.mem_erase hp), h.cores⟩
  exact (setInst_keeps ..).wf rfl <| (logStop_keeps ..).wf rfl <| (dropPage_keeps ..).wf rfl <|
    (setEff_keeps ..).wf rfl <| (setEff_keeps ..).wf rfl <| (setEff_keeps ..).wf rfl <| (setEff_keeps ..).wf rfl <|
    (setEff_keeps ..).wf rfl herased.put

theorem memsWf_tenGive {r} (h : MemsWf s) : MemsWf (tenGive s r) := by
  unfold tenGive
  split
  · exact memsWf_giveUnit <| (dropAlias_keeps ..).wf rfl <| (setTen_keeps ..).wf rfl h
  · exact memsWf_giveUnit <| (dropAlias_keeps ..).wf rfl <| (setTen_keeps ..).wf rfl h
  · exact (grantWindows_keeps ..).wf rfl <| memsWf_giveUnit <| (setTen_keeps ..).wf rfl h
  · exact memsWf_giveUnit <| (setTen_keeps ..).wf rfl h
  · exact memsWf_giveUnit <| (setTen_keeps ..).wf rfl h
  · exact memsWf_giveUnit <| (setTen_keeps ..).wf rfl h
  · exact (setTen_keeps ..).wf rfl h

theorem memsWf_tenSettle (h : MemsWf s) : MemsWf (tenSettle s) := by
  unfold tenSettle
  split
  · exact h
  · dsimp -proj only
    split
    · exact .ite (.ite ((tenStage_keeps ..).wf rfl <| memsWf_tenGive <| .ite (memsWf_destroyGive h) h) (.ite
          (memsWf_destroyGive h) h)) (.ite (.ite ((tenDone_keeps ..).wf rfl <| memsWf_freeInstance <|
          (setTen_keeps ..).wf rfl <| .ite ((tenStage_keeps ..).wf rfl <| memsWf_tenGive <| .ite
          (memsWf_destroyGive h) h) (.ite (memsWf_destroyGive h) h)) (.ite ((tenStage_keeps ..).wf rfl <|
          memsWf_tenGive <| .ite (memsWf_destroyGive h) h) (.ite (memsWf_destroyGive h) h))) (.ite
          ((tenDone_keeps ..).wf rfl <| .ite ((tenStage_keeps ..).wf rfl <| memsWf_tenGive <| .ite
          (memsWf_destroyGive h) h) (.ite (memsWf_destroyGive h) h)) (.ite ((tenStage_keeps ..).wf rfl <|
          memsWf_tenGive <| .ite (memsWf_destroyGive h) h) (.ite (memsWf_destroyGive h) h))))
    · exact .ite ((tenStage_keeps ..).wf rfl <| memsWf_tenGive <| .ite (memsWf_destroyGive h) h) (.ite
          (memsWf_destroyGive h) h)

theorem nextWf_execWithdrawDrainTimeout {unit} (h : MemsWf s) : NextWf (execWithdrawDrainTimeout unit s) := by
  unfold execWithdrawDrainTimeout
  split
  · exact .ite (.next <| memsWf_tenSettle <| memsWf_endInside h) (.next h)
  · exact .next h

theorem nextWf_tenRun {op} {f : State → TenReq → State} (hf : ∀ s r, MemsWf s → MemsWf (f s r)) (h : MemsWf s) :
    NextWf (tenRun s op f) := by
  unfold tenRun
  split
  · exact .next h
  · exact .ite (.next h) (.ite (.next (memsWf_tenSettle h)) (.ite (.next h)
      (.next (memsWf_tenSettle (hf _ _ ((tdiDisturb_keeps ..).wf rfl h))))))

theorem nextWf_execUndedicate (h : MemsWf s) : NextWf (execUndedicate s) :=
  nextWf_tenRun (fun _ _ hs => .ite ((tenDone_keeps ..).wf rfl hs) (.ite ((tenDone_keeps ..).wf rfl hs)
      ((beginDrain_keeps ..).wf rfl hs))) h

theorem nextWf_execDedicate (h : MemsWf s) : NextWf (execDedicate s) :=
  nextWf_tenRun (fun _ _ hs => .ite ((tenDone_keeps ..).wf rfl hs) (.ite ((tenDone_keeps ..).wf rfl hs) (.ite
      ((tenDone_keeps ..).wf rfl hs) ((beginDrain_keeps ..).wf rfl hs)))) h

theorem nextWf_execWithdrawCore (h : MemsWf s) : NextWf (execWithdrawCore s) :=
  nextWf_tenRun (fun _ _ hs => .ite ((tenDone_keeps ..).wf rfl hs) (.ite ((tenDone_keeps ..).wf rfl hs)
      ((beginDrain_keeps ..).wf rfl <| memsWf_coreStopOp hs))) h

theorem nextWf_execGrantCore (h : MemsWf s) : NextWf (execGrantCore s) :=
  nextWf_tenRun (fun _ _ hs => .ite ((tenDone_keeps ..).wf rfl hs) (.ite ((tenDone_keeps ..).wf rfl hs)
      ((tenStage_keeps ..).wf rfl hs))) h

theorem nextWf_execWithdrawFen (h : MemsWf s) : NextWf (execWithdrawFen s) :=
  nextWf_tenRun (fun _ _ hs => .ite ((tenDone_keeps ..).wf rfl hs) (.ite ((tenDone_keeps ..).wf rfl hs)
      ((beginDrain_keeps ..).wf rfl hs))) h

theorem nextWf_execGrantFen (h : MemsWf s) : NextWf (execGrantFen s) :=
  nextWf_tenRun (fun _ _ hs => .ite ((tenDone_keeps ..).wf rfl hs) (.ite ((tenDone_keeps ..).wf rfl hs)
      ((tenStage_keeps ..).wf rfl hs))) h

theorem nextWf_execDestroy (h : MemsWf s) : NextWf (execDestroy s) :=
  nextWf_tenRun (fun _ _ hs => .ite ((tenDone_keeps ..).wf rfl hs) ((tenStage_keeps ..).wf rfl <| .foldl
      (fun _ _ => memsWf_keyAsk) ((setTen_keeps ..).wf rfl <| (setInst_keeps ..).wf rfl <|
      memsWf_resetInstance hs))) h

theorem nextWf_execCreate {vfEnabled} (h : MemsWf s) : NextWf (execCreate vfEnabled s) :=
  nextWf_tenRun (fun _ _ hs => .ite ((tenDone_keeps ..).wf rfl hs) (.ite ((tenDone_keeps ..).wf rfl hs)
      ((tenDone_keeps ..).wf rfl <| (setCtrl_keeps ..).wf rfl <| .put <| (setInst_keeps ..).wf rfl hs))) h

theorem memsWf_submitOne {y t} (h : MemsWf s) : MemsWf (submitOne s y t) :=
  .ite ((badField_keeps ..).wf rfl h) (.ite ((cqe_keeps ..).wf rfl <| (bump_keeps ..).wf rfl h)
      (memsWf_submitTicket <| (addCmd_keeps ..).wf rfl h))

theorem nextWf_execMemoryCopy {ctrl sq toLocal slba units offset} (h : MemsWf s) :
    NextWf (execMemoryCopy ctrl sq toLocal slba units offset s) :=
  nextWf_nvmeCmd (fun _ _ hs => memsWf_withNs (fun _ => .ite ((notReadyNs_keeps ..).wf rfl hs)
      (memsWf_submitOne hs)) hs) h

theorem nextWf_execMemoryRead {ctrl sq offset length} (h : MemsWf s) :
    NextWf (execMemoryRead ctrl sq offset length s) :=
  nextWf_nvmeCmd (fun _ _ hs => memsWf_submitOne hs) h

theorem nextWf_execMemoryWrite {ctrl sq offset length} (h : MemsWf s) :
    NextWf (execMemoryWrite ctrl sq offset length s) :=
  nextWf_nvmeCmd (fun _ _ hs => memsWf_submitOne hs) h

theorem nextWf_execExecuteProgram {ctrl sq ticket} (h : MemsWf s) : NextWf (execExecuteProgram ctrl sq ticket s) :=
  nextWf_nvmeCmd (fun _ _ hs => .ite ((cqe_keeps ..).wf rfl hs) (.ite ((cqe_keeps ..).wf rfl <|
      (bump_keeps ..).wf rfl hs) (memsWf_submitTicket <| (addCmd_keeps ..).wf rfl hs))) h

theorem nextWf_execProgramActivation {ctrl sq unit} (h : MemsWf s) : NextWf (execProgramActivation ctrl sq unit s) :=
  nextWf_nvmeCmd (fun _ _ hs => .ite ((badField_keeps ..).wf rfl hs) (.ite ((cqeOk_keeps ..).wf rfl hs) (.ite
      ((badField_keeps ..).wf rfl hs) ((cqeOk_keeps ..).wf rfl <| memsWf_coreStartOp hs)))) h

theorem nextWf_execLoadProgram {ctrl sq unit type offered head} (h : MemsWf s) :
    NextWf (execLoadProgram ctrl sq unit type offered head s) :=
  nextWf_nvmeCmd (fun _ _ hs => .ite ((badField_keeps ..).wf rfl hs) (.ite (memsWf_loaderAsk <|
      (addCmd_keeps ..).wf rfl hs) (.ite (.ite ((badField_keeps ..).wf rfl hs) (memsWf_submitOne hs))
      ((badField_keeps ..).wf rfl hs)))) h

theorem memsWf_formTodo {f c q cid} (h : MemsWf s) : MemsWf (formTodo f s c q cid) := by
  induction f generalizing s with
  | zero => exact h
  | succ f ih =>
    rw [formTodo]
    split
    · exact h
    · split
      · exact h
      · exact .ite h (ih (memsWf_submitTicket ((setCmd_keeps ..).wf rfl h)))

theorem memsWf_submitAll {y items} (h : MemsWf s) : MemsWf (submitAll s y items) :=
  .ite ((cqeOk_keeps ..).wf rfl h) (.ite ((badField_keeps ..).wf rfl h) (.ite ((cqe_keeps ..).wf rfl <|
      (bump_keeps ..).wf rfl h) (memsWf_formTodo <| (addCmd_keeps ..).wf rfl h)))

theorem nextWf_execZoneReset {ctrl sq} (h : MemsWf s) : NextWf (execZoneReset ctrl sq s) := by
  unfold execZoneReset
  refine nextWf_nvmeCmd (fun _ _ hs => ?_) h
  refine memsWf_withNs (fun _ => ?_) hs
  dsimp -proj only
  exact .ite ((badOpcode_keeps ..).wf rfl hs) (.ite ((badField_keeps ..).wf rfl hs) (.ite (.ite
      ((notReadyNs_keeps ..).wf rfl hs) (memsWf_submitAll hs)) (.ite ((badField_keeps ..).wf rfl hs) (.ite
      ((notReadyNs_keeps ..).wf rfl hs) (memsWf_submitAll hs)))))

theorem memsWf_submitWrite {y first n ordered} (h : MemsWf s) : MemsWf (submitWrite s y first n ordered) :=
  memsWf_submitOne h

theorem memsWf_zoneWrite {y n slba cnt} (h : MemsWf s) : MemsWf (zoneWrite s y n slba cnt) := by
  unfold zoneWrite
  split
  · exact (cqe_keeps ..).wf rfl h
  · exact memsWf_submitWrite <| .ite ((advanceZone_keeps ..).wf rfl h) h

theorem nextWf_execZoneAppend {ctrl sq} (h : MemsWf s) : NextWf (execZoneAppend ctrl sq s) :=
  nextWf_nvmeCmd (fun _ _ hs => memsWf_withWrite (fun _ => .ite ((badOpcode_keeps ..).wf rfl hs) (.ite
      ((badField_keeps ..).wf rfl hs) (.ite ((cqe_keeps ..).wf rfl hs) (.ite ((cqe_keeps ..).wf rfl hs)
      (memsWf_zoneWrite hs))))) hs) h

theorem nextWf_execDatasetManagement {ctrl sq ranges} (h : MemsWf s) :
    NextWf (execDatasetManagement ctrl sq ranges s) :=
  nextWf_nvmeCmd (fun _ _ hs => memsWf_withWrite (fun _ => .ite ((badOpcode_keeps ..).wf rfl hs) (.ite
      ((cqeOk_keeps ..).wf rfl hs) (memsWf_submitAll hs))) hs) h

theorem nextWf_execWriteZeroes {ctrl sq} (h : MemsWf s) : NextWf (execWriteZeroes ctrl sq s) :=
  nextWf_nvmeCmd (fun _ _ hs => memsWf_withWrite (fun _ => .ite ((badOpcode_keeps ..).wf rfl hs)
      (memsWf_submitOne hs)) hs) h

theorem nextWf_execFlush {ctrl sq} (h : MemsWf s) : NextWf (execFlush ctrl sq s) :=
  nextWf_nvmeCmd (fun _ _ hs => memsWf_withNs (fun _ => memsWf_submitOne hs) hs) h

theorem nextWf_execNvmeWrite {ctrl sq} (h : MemsWf s) : NextWf (execNvmeWrite ctrl sq s) :=
  nextWf_nvmeCmd (fun _ _ hs => memsWf_withWrite (fun _ => .ite ((badField_keeps ..).wf rfl hs) (.ite
      (memsWf_submitWrite hs) (.ite ((cqe_keeps ..).wf rfl hs) (memsWf_zoneWrite hs)))) hs) h

theorem nextWf_execNvmeRead {ctrl sq} (h : MemsWf s) : NextWf (execNvmeRead ctrl sq s) :=
  nextWf_nvmeCmd (fun _ _ hs => memsWf_withNs (fun _ => .ite ((badField_keeps ..).wf rfl hs)
      (memsWf_submitOne hs)) hs) h

theorem nextWf_execSanitize {ctrl} (h : MemsWf s) : NextWf (execSanitize ctrl s) := by
  unfold execSanitize
  refine nextWf_nvmeCmd (fun _ _ hs => ?_) h
  refine .ite ((badOpcode_keeps ..).wf rfl hs) ?_
  dsimp -proj only
  split
  · exact (cqeOk_keeps ..).wf rfl hs
  · exact memsWf_submitAll hs
  · exact .ite ((cqeOk_keeps ..).wf rfl hs) (.foldl (fun _ _ => memsWf_keyAsk) ((addCmd_keeps ..).wf rfl hs))
  · exact (badField_keeps ..).wf rfl hs

theorem nextWf_execFormatNvm {ctrl} (h : MemsWf s) : NextWf (execFormatNvm ctrl s) := by
  unfold execFormatNvm
  refine nextWf_nvmeCmd (fun _ _ hs => ?_) h
  refine .ite ((badOpcode_keeps ..).wf rfl hs) ?_
  exact .ite ((cqe_keeps ..).wf rfl hs) (.ite ((badField_keeps ..).wf rfl hs) (.ite ((badNs_keeps ..).wf rfl hs)
    (.ite (memsWf_submitAll hs) (.ite ((badField_keeps ..).wf rfl hs)
      (.foldl (fun _ _ => memsWf_keyAsk) ((addCmd_keeps ..).wf rfl hs))))))

theorem nextWf_execNamespaceManagement {ctrl data} (h : MemsWf s) : NextWf (execNamespaceManagement ctrl data s) := by
  unfold execNamespaceManagement
  refine nextWf_nvmeCmd (fun _ _ hs => ?_) h
  refine .ite ((badOpcode_keeps ..).wf rfl hs) ?_
  refine .ite ?_ (.ite (.ite ((cqeOk_keeps ..).wf rfl <| .foldl (fun _ _ => memsWf_deleteNs) hs) (.ite
      ((badNs_keeps ..).wf rfl hs) ((cqeOk_keeps ..).wf rfl <| memsWf_deleteNs hs))) ((badField_keeps ..).wf rfl hs))
  refine .ite ((cqe_keeps ..).wf rfl hs) ?_
  refine .ite ((badField_keeps ..).wf rfl hs) ?_
  split
  · exact (cqe_keeps ..).wf rfl hs
  · exact (cqe_keeps ..).wf rfl hs
  · exact (cqe_keeps ..).wf rfl <| memsWf_judgeSpare <| (setFtl_keeps ..).wf rfl hs

theorem nextWf_execAbort {ctrl} (h : MemsWf s) : NextWf (execAbort ctrl s) := by
  unfold execAbort
  refine nextWf_nvmeCmd (fun _ _ hs => ?_) h
  refine .ite ((badOpcode_keeps ..).wf rfl hs) ?_
  refine .ite ((cqe_keeps ..).wf rfl <| (postCqe_keeps ..).wf rfl <| (bump_keeps ..).wf rfl <|
      (setSq_keeps ..).wf rfl hs) ?_
  split
  · exact (cqe_keeps ..).wf rfl hs
  · split
    · rename_i x e
      have k : MemsWf x := SomeWf.of e <| someWf_abortCmd hs
      exact (cqe_keeps ..).wf rfl <| (postCqe_keeps ..).wf rfl <| (bump_keeps ..).wf rfl k
    · exact (cqe_keeps ..).wf rfl hs

theorem nextWf_execDramTrainPassDone {channel ok settings} (h : MemsWf s) :
    NextWf (execDramTrainPassDone channel ok settings s) :=
  .ite (.next h) (.ite (.next <| .ite (memsWf_dramHealth <| .ite ((applyRate_keeps ..).wf rfl <| .ite
      (memsWf_unitState <| (setLive_keeps ..).wf rfl <| (bump_keeps ..).wf rfl <| (shadowReturns_keeps ..).wf rfl <|
      (setDram_keeps ..).wf rfl h) ((setLive_keeps ..).wf rfl <| (bump_keeps ..).wf rfl <|
      (shadowReturns_keeps ..).wf rfl <| (setDram_keeps ..).wf rfl h)) (.ite (memsWf_unitState <|
      (setLive_keeps ..).wf rfl <| (bump_keeps ..).wf rfl <| (shadowReturns_keeps ..).wf rfl <|
      (setDram_keeps ..).wf rfl h) ((setLive_keeps ..).wf rfl <| (bump_keeps ..).wf rfl <|
      (shadowReturns_keeps ..).wf rfl <| (setDram_keeps ..).wf rfl h))) (.ite ((applyRate_keeps ..).wf rfl <| .ite
      (memsWf_unitState <| (setLive_keeps ..).wf rfl <| (bump_keeps ..).wf rfl <| (shadowReturns_keeps ..).wf rfl <|
      (setDram_keeps ..).wf rfl h) ((setLive_keeps ..).wf rfl <| (bump_keeps ..).wf rfl <|
      (shadowReturns_keeps ..).wf rfl <| (setDram_keeps ..).wf rfl h)) (.ite (memsWf_unitState <|
      (setLive_keeps ..).wf rfl <| (bump_keeps ..).wf rfl <| (shadowReturns_keeps ..).wf rfl <|
      (setDram_keeps ..).wf rfl h) ((setLive_keeps ..).wf rfl <| (bump_keeps ..).wf rfl <|
      (shadowReturns_keeps ..).wf rfl <| (setDram_keeps ..).wf rfl h)))) (.ite (.next <| memsWf_dramOffline <|
      (bump_keeps ..).wf rfl h) (.next <| (setDram_keeps ..).wf rfl h)))

theorem nextWf_execCoreScrubDone {core} (h : MemsWf s) : NextWf (execCoreScrubDone core s) := by
  refine .ite (.next ((setLive_keeps ..).wf rfl (memsWf_setCore rfl (.foldl (fun _ _ hx => ?_) h)))) (.next h)
  split
  · exact memsWf_freeTicket hx
  · exact hx

theorem nextWf_runIns {c i trap} {f : State → GRes} (hf : OkWf (f s)) (h : MemsWf s) :
    NextWf (runIns s c i trap f) := by
  have hretire {t left} (ht : MemsWf t) : MemsWf (setCore t c (retire (coreOf t c) (gLen i) left)) :=
    memsWf_setCore_of_mem (mem_retire ..) ht
  unfold runIns
  dsimp -proj only
  refine .ite (.next h) ?_
  split
  · exact .next (memsWf_settle (memsWf_trapNow h))
  · refine .ite (.next (hretire h)) ?_
    split
    · exact .next (memsWf_settle (memsWf_trapNow h))
    · next t ht =>
      have hdone : MemsWf t := by
        split at ht
        · cases ht
        · exact hf t ht
      exact .next (memsWf_settle (hretire hdone))

theorem nextWf_execGChki {core pre a size lo hi} (h : MemsWf s) : NextWf (execGChki core pre a size lo hi s) := by
  unfold execGChki
  exact nextWf_runIns ((boundsTrap_keeps _ _).wf rfl h) h

theorem nextWf_execGChku {core pre d a b} (h : MemsWf s) : NextWf (execGChku core pre d a b s) := by
  unfold execGChku
  exact nextWf_runIns ((boundsTrap_keeps _ _).wf rfl h) h

theorem nextWf_execGChk {core pre d a b} (h : MemsWf s) : NextWf (execGChk core pre d a b s) := by
  unfold execGChk
  exact nextWf_runIns ((boundsTrap_keeps _ _).wf rfl h) h

theorem memsWf_putG {c d v} (h : MemsWf s) : MemsWf (putG s c d v) := memsWf_setCore_of_mem (Core.mem_setG ..) h

theorem nextWf_execGCpx {core pre d b size disp} (h : MemsWf s) : NextWf (execGCpx core pre d b size disp s) := by
  refine nextWf_runIns ?_ h
  dsimp only
  split
  any_goals exact .error _
  split
  · exact .error _
  · exact .ok (memsWf_putG (memsWf_putG (memsWf_coreStore (memsWf_coreLoad h))))

theorem nextWf_execGFenceInstruction {core pre} (h : MemsWf s) : NextWf (execGFenceInstruction core pre s) :=
  nextWf_runIns (.ok h) h

theorem nextWf_execGCas {core pre d a b} (h : MemsWf s) : NextWf (execGCas core pre d a b s) := by
  refine nextWf_runIns ?_ h
  dsimp only
  split
  · exact .error _
  · split
    · exact .error _
    · exact .ok (memsWf_putG (.ite (memsWf_coreStore (memsWf_coreLoad h)) (memsWf_coreLoad h)))

theorem nextWf_runStore {op c p d b z v} (h : MemsWf s) : NextWf (runStore op c p d b z v s) := by
  refine nextWf_runIns ?_ h
  dsimp only
  split
  · exact .error _
  · exact .ok (.ite (memsWf_putG (memsWf_coreStore h)) (memsWf_coreStore h))

theorem nextWf_runLoad {op c p d b z v} (h : MemsWf s) : NextWf (runLoad op c p d b z v s) := by
  refine nextWf_runIns ?_ h
  dsimp only
  split
  · exact .error _
  · exact .ok (.ite (memsWf_putG (memsWf_putG (memsWf_coreLoad h))) (memsWf_putG (memsWf_coreLoad h)))

theorem nextWf_execGLi {core pre d size imm} (h : MemsWf s) : NextWf (execGLi core pre d size imm s) :=
  nextWf_runIns (.ok <| memsWf_putG h) h

theorem nextWf_runSetI {op c p d a z v} (h : MemsWf s) : NextWf (runSetI op c p d a z v s) :=
  nextWf_runIns (.ok <| memsWf_putG h) h

theorem nextWf_runAluI {op c p d a z v} (h : MemsWf s) : NextWf (runAluI op c p d a z v s) :=
  nextWf_runIns (.ok <| memsWf_putG h) h

theorem nextWf_runSet3 {op c p d a b} (h : MemsWf s) : NextWf (runSet3 op c p d a b s) :=
  nextWf_runIns (.ok <| memsWf_putG h) h

theorem nextWf_runAlu2 {op c p d a} (h : MemsWf s) : NextWf (runAlu2 op c p d a s) :=
  nextWf_runIns (.ok <| memsWf_putG h) h

theorem nextWf_runDiv {op c p d e a b} (h : MemsWf s) : NextWf (runDiv op c p d e a b s) := by
  unfold runDiv
  refine nextWf_runIns ?_ h
  split
  · exact .error _
  · exact .ok <| memsWf_putG <| memsWf_putG h

theorem nextWf_runAlu3 {op c p d a b} (h : MemsWf s) : NextWf (runAlu3 op c p d a b s) :=
  nextWf_runIns (.ok <| memsWf_putG h) h

theorem nextWf_runCrw {c pre a n} (h : MemsWf s) : NextWf (runCrw c pre a n s) :=
  .ite (.next h) (nextWf_runIns (okWf_crWrite h) h)

theorem nextWf_execSubmit {core a} (h : MemsWf s) : NextWf (execSubmit core a s) := nextWf_runCrw h

theorem nextWf_execEmit {core a} (h : MemsWf s) : NextWf (execEmit core a s) := nextWf_runCrw h

theorem nextWf_execInqFree {core a} (h : MemsWf s) : NextWf (execInqFree core a s) := nextWf_runCrw h

theorem nextWf_runCrr {c pre d n} (h : MemsWf s) : NextWf (runCrr c pre d n s) :=
  nextWf_runIns (.ok <| memsWf_putG <| memsWf_crRead h) h

theorem nextWf_execGCrw {core pre r crn} (h : MemsWf s) : NextWf (execGCrw core pre r crn s) := nextWf_runCrw h

theorem nextWf_execGWait {core pre} (h : MemsWf s) : NextWf (execGWait core pre s) :=
  nextWf_runIns (.ok <| .ite h (memsWf_setCore (h.core _) h)) h

theorem nextWf_execGRft {core pre} (h : MemsWf s) : NextWf (execGRft core pre s) :=
  .ite (.next <| memsWf_setCore (h.core _) h) (nextWf_runIns (.ok h) h)

theorem nextWf_execGBreak {core pre} (h : MemsWf s) : NextWf (execGBreak core pre s) := nextWf_runIns (.error _) h

theorem nextWf_execGSyscall {core pre} (h : MemsWf s) : NextWf (execGSyscall core pre s) := nextWf_runIns (.error _) h

theorem nextWf_execGNop {core pre} (h : MemsWf s) : NextWf (execGNop core pre s) := nextWf_runIns (.ok h) h

theorem memsWf_keyDone {r status} (h : MemsWf s) : MemsWf (keyDone s r status) :=
  memsWf_keyAnswer <| (setKey_keeps ..).wf rfl h

theorem memsWf_keyEffect {r new} (h : MemsWf s) : MemsWf (keyEffect s r new) :=
  memsWf_keyDone <| .ite ((writeTable_keeps ..).wf rfl <| (setSlot_keeps ..).wf rfl <|
      (dropKeyCopies_keeps ..).wf rfl h) ((setSlot_keeps ..).wf rfl <| (dropKeyCopies_keeps ..).wf rfl h)

theorem nextWf_execKeyFenceComplete {slot} (h : MemsWf s) : NextWf (execKeyFenceComplete slot s) := by
  unfold execKeyFenceComplete
  dsimp -proj only
  split
  · exact .ite (.next <| memsWf_keyEffect <| .ite (.put <| (releaseSlot_keeps ..).wf rfl <| .put <| .foldl
        (fun _ _ => memsWf_finishTicket) h) (.put <| .foldl (fun _ _ => memsWf_finishTicket) h)) (.next h)
  · exact .next h

theorem nextWf_execKeyFenceTimeout {slot} (h : MemsWf s) : NextWf (execKeyFenceTimeout slot s) :=
  .ite (.next h) (.next <| .foldl (fun _ _ hx => .ite (memsWf_finishTicket <| memsWf_fenceTicket <|
      (parkHeld_keeps ..).wf rfl <| (countSlotFence_keeps ..).wf rfl hx) (memsWf_fenceTicket <|
      (parkHeld_keeps ..).wf rfl <| (countSlotFence_keeps ..).wf rfl hx)) ((revokeFeeds_keeps ..).wf rfl <|
      memsWf_record <| .put <| (setSlot_keeps ..).wf rfl h))

theorem nextWf_execKeyUseZero {slot} (h : MemsWf s) : NextWf (execKeyUseZero slot s) := by
  unfold execKeyUseZero
  dsimp -proj only
  split
  · exact .ite (.next <| memsWf_keyEffect h) (.next h)
  · exact .next h

theorem nextWf_execCtxFree (h : MemsWf s) : NextWf (execCtxFree s) := by
  unfold execCtxFree
  split
  · exact .next h
  · split
    · exact .next <| memsWf_keyDone h
    · exact .next <| memsWf_keyDone <| (setHandle_keeps ..).wf rfl h

theorem nextWf_execCtxImport {rec} (h : MemsWf s) : NextWf (execCtxImport rec s) := by
  unfold execCtxImport
  split
  · exact .next h
  · split
    · exact .next <| memsWf_keyDone h
    · refine .ite (.next <| memsWf_keyDone h) ?_
      split
      · exact .next <| memsWf_keyDone h
      · exact .next <| memsWf_keyDone <| (setHandle_keeps ..).wf rfl h

theorem nextWf_execCtxExport (h : MemsWf s) : NextWf (execCtxExport s) := by
  unfold execCtxExport
  split
  · exact .next h
  · split
    · exact .next <| memsWf_keyDone h
    · split
      · exact .next <| memsWf_keyDone h
      · split
        · exact .next <| memsWf_keyDone <| (drawn_keeps ..).wf rfl h
        · exact .next <| memsWf_keyDone <| (hostWrite_keeps ..).wf rfl <| (drawn_keeps ..).wf rfl h

theorem memsWf_keyRewrite {r new} (h : MemsWf s) : MemsWf (keyRewrite s r new) :=
  .ite (memsWf_keyEffect h) ((setSlot_keeps ..).wf rfl h)

theorem nextWf_execKeyWithdraw (h : MemsWf s) : NextWf (execKeyWithdraw s) := by
  unfold execKeyWithdraw
  split
  · exact .next h
  · refine .ite (.next h) ?_
    split
    · exact .next <| memsWf_keyDone h
    · exact .next <| memsWf_keyRewrite <| (tdiDisturb_keeps ..).wf rfl h

theorem nextWf_execKeyErase (h : MemsWf s) : NextWf (execKeyErase s) := by
  unfold execKeyErase
  split
  · exact .next h
  · refine .ite (.next h) ?_
    split
    · exact .next <| memsWf_keyDone h
    · exact .next <| memsWf_keyRewrite h

theorem nextWf_execKeyLoad {blob} (h : MemsWf s) : NextWf (execKeyLoad blob s) := by
  unfold execKeyLoad
  split
  · exact .next h
  · refine .ite (.next h) ?_
    split
    · exact .next <| memsWf_keyDone h
    · refine .ite (.next <| memsWf_keyDone h) ?_
      split
      · exact .next <| memsWf_keyDone <| (bump_keeps ..).wf rfl h
      · exact .ite (.next <| memsWf_keyRewrite h) (.next <| memsWf_keyDone h)

theorem nextWf_execKeyGrant (h : MemsWf s) : NextWf (execKeyGrant s) := by
  unfold execKeyGrant
  split
  · exact .next h
  · split
    · exact .next <| memsWf_keyDone h
    · exact .ite (.next <| memsWf_keyDone h) (.next <| memsWf_keyDone <| (writeTable_keeps ..).wf rfl <|
          (tdiDisturb_keeps ..).wf rfl <| (setSlot_keeps ..).wf rfl h)

theorem nextWf_execLoad {unit} (h : MemsWf s) : NextWf (execLoad unit s) := by
  unfold execLoad
  refine .next <| memsWf_serveAt (fun _ _ _ _ _ _ hs => ?_) h
  split
  · exact memsWf_failAt hs
  · exact .ite (.ite ((enqueue_keeps ..).wf rfl hs) (.ite (memsWf_failAt hs) (.ite (memsWf_endProvisional hs)
        (memsWf_endOut hs)))) (.ite (memsWf_failAt hs) (.ite (memsWf_failAt hs) ((setCtx_keeps ..).wf rfl <|
        memsWf_writeCore hs)))

theorem memsWf_unslow {c} (h : MemsWf s) : MemsWf (unslow s c) :=
  .ite h ((setIsland_keeps ..).wf rfl <| memsWf_setCore (h.core _) h)

theorem someWf_ringPut {c tag step p} (h : MemsWf s) : SomeWf (ringPut s c tag step p) := by
  have hunslow : MemsWf (unslow s c) := memsWf_unslow h
  unfold ringPut
  dsimp -proj only
  split
  · exact .none
  · exact .some (memsWf_wakeCore (memsWf_writeCore
      (memsWf_setCore_of_mem (mem_enterCore (coreOf (unslow s c) c) tag step) hunslow)))

theorem memsWf_ringEnd {c tag step prov} (h : MemsWf s) : MemsWf (ringEnd s c tag step prov) :=
  have hunslow : MemsWf (unslow s c) := memsWf_unslow h
  memsWf_wakeCore (memsWf_setCore_of_mem (mem_enterCore (coreOf (unslow s c) c) tag step) hunslow)

theorem nextWf_execProgram {unit} (h : MemsWf s) : NextWf (execProgram unit s) := by
  unfold execProgram
  refine .next <| memsWf_serveAt (fun _ _ _ _ _ _ hs => ?_) h
  split
  · exact memsWf_failAt hs
  · refine .ite (.ite (memsWf_ringEnd hs) ((enqueue_keeps ..).wf rfl hs)) ?_
    split
    · rename_i x e
      have k : MemsWf x := SomeWf.of e <| someWf_ringPut hs
      exact (setCtx_keeps ..).wf rfl k
    · exact (setInbox_keeps ..).wf rfl hs

theorem nextWf_execDramStation {unit raw} (h : MemsWf s) : NextWf (execDramStation unit raw s) := by
  unfold execDramStation
  refine .next <| memsWf_serveAt (fun _ _ _ _ _ _ hs => ?_) h
  refine .ite ((setInbox_keeps ..).wf rfl hs) ?_
  split
  · exact memsWf_dramFetch hs
  · exact memsWf_dramPut hs

theorem memsWf_portPut {u tag e step sgl p} (h : MemsWf s) : MemsWf (portPut s u tag e step sgl p) :=
  .ite (.ite ((enqueue_keeps ..).wf rfl h) (.ite (memsWf_endProvisional h) (memsWf_endOut h))) (.ite
      ((setCtx_keeps ..).wf rfl <| (portWrite_keeps ..).wf rfl h) (.ite (memsWf_failAt h) (.ite (memsWf_failAt h)
      (.ite ((setCtx_keeps ..).wf rfl <| (portWrite_keeps ..).wf rfl h) (.ite (memsWf_failAt h) (memsWf_failAt <|
      (modEntry_keeps ..).wf rfl h))))))

theorem nextWf_execHostPortWrite {unit sgl} (h : MemsWf s) : NextWf (execHostPortWrite unit sgl s) := by
  unfold execHostPortWrite
  refine .next <| memsWf_serveAt (fun _ _ _ _ _ _ hs => ?_) h
  split
  · exact memsWf_portPut hs
  · exact (setInbox_keeps ..).wf rfl hs

theorem memsWf_portShort {u tag step sgl} (h : MemsWf s) : MemsWf (portShort s u tag step sgl) :=
  memsWf_failAt <| (modEntry_keeps ..).wf rfl <| (bump_keeps ..).wf rfl h

theorem memsWf_portTake {u tag e step first len data} (h : MemsWf s) :
    MemsWf (portTake s u tag e step first len data) := by
  unfold portTake
  refine .ite (memsWf_portShort <| (countTaken_keeps ..).wf rfl <| (countCtx_keeps ..).wf rfl <| .ite (.ite
      ((setInbox_keeps ..).wf rfl h) h) ((sendData_keeps ..).wf rfl <| .ite ((setInbox_keeps ..).wf rfl h) h)) ?_
  split
  · exact (countTaken_keeps ..).wf rfl <| (countCtx_keeps ..).wf rfl <| .ite (.ite ((setInbox_keeps ..).wf rfl h) h)
        ((sendData_keeps ..).wf rfl <| .ite ((setInbox_keeps ..).wf rfl h) h)
  · exact .ite (memsWf_endOut <| (countTaken_keeps ..).wf rfl <| (countCtx_keeps ..).wf rfl <| .ite (.ite
        ((setInbox_keeps ..).wf rfl h) h) ((sendData_keeps ..).wf rfl <| .ite ((setInbox_keeps ..).wf rfl h) h))
        ((countTaken_keeps ..).wf rfl <| (countCtx_keeps ..).wf rfl <| .ite (.ite ((setInbox_keeps ..).wf rfl h) h)
        ((sendData_keeps ..).wf rfl <| .ite ((setInbox_keeps ..).wf rfl h) h))

theorem memsWf_portFetch {u tag e step first len sgl data} (h : MemsWf s) :
    MemsWf (portFetch s u tag e step first len sgl data) :=
  .ite (memsWf_portTake h) (.ite (memsWf_failAt h) (.ite (memsWf_portTake h) (.ite (memsWf_failAt h) (.ite
      (memsWf_portShort h) (memsWf_portTake <| .ite ((report_keeps ..).wf rfl <| (bump_keeps ..).wf rfl h) h)))))

theorem nextWf_execHostPortFetch {unit sgl data} (h : MemsWf s) : NextWf (execHostPortFetch unit sgl data s) := by
  unfold execHostPortFetch
  refine .next <| memsWf_serveAt (fun _ _ _ _ _ _ hs => ?_) h
  split
  · exact memsWf_portFetch hs
  · exact (setInbox_keeps ..).wf rfl hs

theorem nextWf_execReceive {unit} (h : MemsWf s) : NextWf (execReceive unit s) := by
  unfold execReceive
  refine .next <| memsWf_serveAt (fun _ _ _ _ _ _ hs => ?_) h
  split
  · split
    · exact memsWf_failAt hs
    · exact .ite (memsWf_endOut <| (sendOut_keeps ..).wf rfl <| (countTaken_keeps ..).wf rfl <|
          (countCtx_keeps ..).wf rfl hs) ((sendOut_keeps ..).wf rfl <| (countTaken_keeps ..).wf rfl <|
          (countCtx_keeps ..).wf rfl hs)
  · exact memsWf_failAt hs
  · exact memsWf_failAt hs

theorem someWf_takeMessage {tag e u payload} (h : MemsWf s) : SomeWf (takeMessage s tag e u payload) := by
  unfold takeMessage
  refine .ite (.ite .none (.some <| memsWf_submitRecvs <| (addRecv_keeps ..).wf rfl h)) ?_
  refine .ite .none ?_
  split
  · exact .some <| (pumpConn_keeps ..).wf rfl <| (setConn_keeps ..).wf rfl h
  · exact .ite .none (.some <| (pumpConn_keeps ..).wf rfl <| (setJct_keeps ..).wf rfl h)

theorem memsWf_recordScrub {finding g} (h : MemsWf s) : MemsWf (recordScrub s finding g) := memsWf_record h

theorem nextWf_execScrubRead {bank entry word found copies} (h : MemsWf s) :
    NextWf (execScrubRead bank entry word found copies s) :=
  .ite (.next <| .ite ((scrubPass_keeps ..).wf rfl h) h) (.ite (.next <| memsWf_recordScrub <|
      (bump_keeps ..).wf rfl <| (setAsu_keeps ..).wf rfl <| .ite ((scrubPass_keeps ..).wf rfl h) h) (.ite (.next <|
      (countFinding_keeps ..).wf rfl <| memsWf_recordScrub <| (bump_keeps ..).wf rfl <|
      (setAsu_keeps ..).wf rfl <| .ite ((scrubPass_keeps ..).wf rfl h) h) (.ite (.next <|
      (countFinding_keeps ..).wf rfl <| memsWf_recordScrub <| (bump_keeps ..).wf rfl <|
      (setAsu_keeps ..).wf rfl <| .ite ((scrubPass_keeps ..).wf rfl h) h) (.ite (.next <| memsWf_recordScrub <|
      (bump_keeps ..).wf rfl <| (setAsu_keeps ..).wf rfl <| .ite ((scrubPass_keeps ..).wf rfl h) h) (.next <|
      (setAsu_keeps ..).wf rfl <| .ite ((scrubPass_keeps ..).wf rfl h) h)))))

theorem memsWf_searchPacket {u tag step mode sram p} (h : MemsWf s) :
    MemsWf (searchPacket s u tag step mode sram p) := by
  unfold searchPacket
  split
  · exact h
  · split
    · exact memsWf_failAt h
    · exact .ite ((setCtx_keeps ..).wf rfl <| .foldl (fun _ _ hx => (storeEntry_keeps ..).wf rfl hx)
          ((presentUpdates_keeps ..).wf rfl <| (setEntry_keeps ..).wf rfl h)) (.ite (memsWf_failAt <|
          memsWf_countWords <| (bump_keeps ..).wf rfl <| (bump_keeps ..).wf rfl <| (presentKeys_keeps ..).wf rfl <|
          (setEntry_keeps ..).wf rfl h) ((sendOut_keeps ..).wf rfl <| memsWf_countWords <| (bump_keeps ..).wf rfl <|
          (bump_keeps ..).wf rfl <| (presentKeys_keeps ..).wf rfl <| (setEntry_keeps ..).wf rfl h))

theorem memsWf_searchHold {u tag step e st} (h : MemsWf s) : MemsWf (searchHold s u tag step e st) :=
  .ite h (.ite (memsWf_failAt h) (.ite ((setAsu_keeps ..).wf rfl h) ((setCtx_keeps ..).wf rfl <|
      (setAsu_keeps ..).wf rfl h)))

theorem memsWf_searchHeld {u tag step mode sram l} (h : MemsWf s) : MemsWf (searchHeld s u tag step mode sram l) :=
  .foldl1 (fun _ _ hx => .ite (memsWf_searchPacket hx) hx) h

theorem memsWf_searchEnd {u tag step mode sram prov} (h : MemsWf s) :
    MemsWf (searchEnd s u tag step mode sram prov) := by
  unfold searchEnd
  dsimp -proj only
  split
  · exact .ite ((setCtx_keeps ..).wf rfl h) (memsWf_searchHeld <| (setCtx_keeps ..).wf rfl h)
  · exact .ite (.ite ((setCtx_keeps ..).wf rfl h) (memsWf_searchHeld <| (setCtx_keeps ..).wf rfl h)) (.ite
        (memsWf_endProvisional <| .ite ((setCtx_keeps ..).wf rfl h) (memsWf_searchHeld <|
        (setCtx_keeps ..).wf rfl h)) (memsWf_endOut <| .ite ((setCtx_keeps ..).wf rfl h) (memsWf_searchHeld <|
        (setCtx_keeps ..).wf rfl h)))

theorem memsWf_searchServe {u mode env} (h : MemsWf s) : MemsWf (searchServe s u mode env) := by
  unfold searchServe
  refine memsWf_serveAt (fun _ _ _ _ _ w hs => ?_) ((ternaryFaults_keeps ..).wf rfl h)
  have hcounted {tag j n} := (countCtx_keeps _ tag j n 0).wf rfl hs
  split
  · exact memsWf_failAt hs
  · exact .ite (.ite ((enqueue_keeps ..).wf rfl hs) (memsWf_searchEnd hs))
      (.ite (.ite ((setCtx_keeps ..).wf rfl (memsWf_searchHold hcounted)) (memsWf_searchHold hcounted))
        (memsWf_searchPacket hcounted))

theorem memsWf_parityWork {u tag step w} (h : MemsWf s) : MemsWf (parityWork s u tag step w) := by
  unfold parityWork
  split
  · exact memsWf_failAt h
  · refine .ite ?_ (.ite ((setCtx_keeps ..).wf rfl <| (setCtx_keeps ..).wf rfl h) ((sendUnit_keeps ..).wf rfl <|
        (setCtx_keeps ..).wf rfl h))
    refine .ite ((enqueue_keeps ..).wf rfl h) ?_
    split
    · exact memsWf_endOut <| .ite h ((sendHeld_keeps ..).wf rfl h)
    · exact h

theorem nextWf_execParityEngineStep {unit member} (h : MemsWf s) : NextWf (execParityEngineStep unit member s) := by
  unfold execParityEngineStep
  split
  · exact .ite (.next <| (sumMember_keeps ..).wf rfl h) (.next h)
  · exact .next (memsWf_serveAt (fun _ _ _ _ _ _ hs => memsWf_parityWork hs) h)

theorem memsWf_readOut {u tag step n station bs} (h : MemsWf s) : MemsWf (readOut s u tag step n station bs) := by
  unfold readOut
  dsimp -proj only
  split
  · exact (countTaken_keeps ..).wf rfl <| (countCtx_keeps ..).wf rfl <| (sendData_keeps ..).wf rfl h
  · exact .ite (memsWf_endOut <| (countTaken_keeps ..).wf rfl <| (countCtx_keeps ..).wf rfl <|
        (sendData_keeps ..).wf rfl h) ((countTaken_keeps ..).wf rfl <| (countCtx_keeps ..).wf rfl <|
        (sendData_keeps ..).wf rfl h)

theorem nextWf_execReadRaw {unit raw} (h : MemsWf s) : NextWf (execReadRaw unit raw s) := by
  unfold execReadRaw
  refine .next <| memsWf_serveAt (fun _ _ _ _ _ _ hs => ?_) h
  split
  · exact memsWf_failAt hs
  · split
    · exact memsWf_failAt hs
    · exact memsWf_readOut <| .foldl (fun _ _ hx => (countCtx_keeps ..).wf rfl <| (sendData_keeps ..).wf rfl hx)
          ((countRead_keeps ..).wf rfl hs)
    · exact memsWf_readOut hs
    · exact memsWf_readOut hs

theorem memsWf_placeHeld {ch dense f tag step} (h : MemsWf s) : MemsWf (placeHeld ch dense f s tag step) := by
  induction f generalizing s with
  | zero => exact h
  | succ f ih =>
    rw [placeHeld]
    split
    · dsimp -proj only
      split
      · exact h
      · next t ht =>
        refine ih ((setCtx_keeps ..).wf rfl (SomeWf.of ht ?_))
        split
        · exact .some h
        · exact someWf_placeSlot ((setEntry_keeps ..).wf rfl h)
    · exact h

theorem memsWf_writeEnd {ch tag step dense w} (h : MemsWf s) : MemsWf (writeEnd s ch tag step dense w) := by
  unfold writeEnd
  refine .ite ((enqueue_keeps ..).wf rfl <| memsWf_placeHeld h) ?_
  dsimp -proj only
  split
  · exact (setCtx_keeps ..).wf rfl <| memsWf_placeHeld h
  · exact .ite (.ite (memsWf_ackTicket <| (setEntry_keeps ..).wf rfl <| (setCtx_keeps ..).wf rfl <|
        memsWf_placeHeld h) ((setEntry_keeps ..).wf rfl <| (setCtx_keeps ..).wf rfl <| memsWf_placeHeld h))
        ((setCtx_keeps ..).wf rfl <| memsWf_placeHeld h)

theorem memsWf_writeServe {ch mode} (h : MemsWf s) : MemsWf (writeServe s ch mode) := by
  unfold writeServe
  refine memsWf_serveAt (fun _ _ _ _ _ _ hs => ?_) h
  split
  · exact memsWf_failAt hs
  · exact .ite (memsWf_durableData hs) (.ite ((enqueue_keeps ..).wf rfl hs) (.ite (memsWf_endProvisional hs)
        (memsWf_writeEnd hs)))

theorem memsWf_readUnit {u tag e step n w} (h : MemsWf s) : MemsWf (readUnit s u tag e step n w) := by
  unfold readUnit
  split
  · exact memsWf_failAt h
  · exact memsWf_readOut h
  · exact memsWf_readOut h
  · exact memsWf_failAt h
  · dsimp -proj only
    split
    · rename_i x e
      exact SomeWf.of e <| (issueRead_keeps _ _ _).wf rfl h
    · exact (setInbox_keeps ..).wf rfl h

theorem nextWf_execRead {unit} (h : MemsWf s) : NextWf (execRead unit s) := by
  unfold execRead
  refine .next <| memsWf_serveAt (fun _ _ _ _ _ _ hs => ?_) h
  split
  · exact memsWf_readUnit hs
  · exact memsWf_failAt hs

theorem nextWf_execMapWrite (h : MemsWf s) : NextWf (execMapWrite s) := by
  unfold execMapWrite
  refine .next <| memsWf_serveAt (fun _ _ _ _ _ _ hs => ?_) h
  split
  · exact memsWf_failAt hs
  · refine .ite (memsWf_failAt hs) ?_
    refine .foldl (fun _ _ hx => ?_) hs
    split
    · exact hx
    · exact memsWf_readOut <| (modEntry_keeps ..).wf rfl <| (setFtl_keeps ..).wf rfl hx

theorem nextWf_execDurable (h : MemsWf s) : NextWf (execDurable s) := by
  unfold execDurable
  refine .next <| memsWf_serveAt (fun _ _ _ _ _ _ hs => ?_) h
  refine .ite ?_ ((enqueue_keeps ..).wf rfl hs)
  unfold mapStep
  split
  · exact .ite (memsWf_endOut <| (countTaken_keeps ..).wf rfl <| (countCtx_keeps ..).wf rfl hs)
        ((countTaken_keeps ..).wf rfl <| (countCtx_keeps ..).wf rfl hs)
  · exact .ite ((countCtx_keeps ..).wf rfl hs) (.ite ((enqueue_keeps ..).wf rfl hs) (.ite (.ite
        (memsWf_endProvisional hs) (memsWf_endOut hs)) (memsWf_endOut <| .ite hs hs)))

theorem nextWf_execSecureDeallocate {failing answer} (h : MemsWf s) :
    NextWf (execSecureDeallocate failing answer s) := by
  unfold execSecureDeallocate
  refine .next <| memsWf_serveAt (fun _ _ _ _ _ _ hs => ?_) h
  unfold mapStep
  split
  · exact .ite (.ite (memsWf_failAt <| (setFtl_keeps ..).wf rfl <| memsWf_commitHeld <|
        (countTaken_keeps ..).wf rfl <| (countCtx_keeps ..).wf rfl <| memsWf_deallocRange hs)
        (memsWf_resumeSecures <| memsWf_secureBegin <| (setFtl_keeps ..).wf rfl <| memsWf_commitHeld <|
        (countTaken_keeps ..).wf rfl <| (countCtx_keeps ..).wf rfl <| memsWf_deallocRange hs))
        ((countTaken_keeps ..).wf rfl <| (countCtx_keeps ..).wf rfl <| memsWf_deallocRange hs)
  · exact .ite ((countCtx_keeps ..).wf rfl hs) (.ite ((enqueue_keeps ..).wf rfl hs) (.ite (.ite
        (memsWf_endProvisional hs) (memsWf_endOut hs)) (.ite (memsWf_failAt <| (setFtl_keeps ..).wf rfl <|
        memsWf_commitHeld <| .ite hs (memsWf_deallocRange hs)) (memsWf_resumeSecures <| memsWf_secureBegin <|
        (setFtl_keeps ..).wf rfl <| memsWf_commitHeld <| .ite hs (memsWf_deallocRange hs)))))

theorem nextWf_execDeallocate (h : MemsWf s) : NextWf (execDeallocate s) := by
  unfold execDeallocate
  refine .next <| memsWf_serveAt (fun _ _ _ _ _ _ hs => ?_) h
  unfold mapStep
  split
  · exact .ite (memsWf_endOut <| memsWf_clearLosses <| (countTaken_keeps ..).wf rfl <|
        (countCtx_keeps ..).wf rfl <| memsWf_deallocRange hs) ((countTaken_keeps ..).wf rfl <|
        (countCtx_keeps ..).wf rfl <| memsWf_deallocRange hs)
  · exact .ite ((countCtx_keeps ..).wf rfl hs) (.ite ((enqueue_keeps ..).wf rfl hs) (.ite (.ite
        (memsWf_endProvisional hs) (memsWf_endOut hs)) (memsWf_endOut <| memsWf_clearLosses <| .ite hs
        (memsWf_deallocRange hs))))

theorem nextWf_execDrain {unit} (h : MemsWf s) : NextWf (execDrain unit s) := by
  unfold execDrain
  refine .next <| memsWf_serveAt (fun _ _ _ _ _ _ hs => ?_) h
  split
  · exact memsWf_failAt hs
  · refine .ite (memsWf_failAt hs) ?_
    refine .foldl (fun _ _ hx => ?_) hs
    split
    · exact hx
    · exact memsWf_readOut <| (modEntry_keeps ..).wf rfl <| (setFtl_keeps ..).wf rfl hx

theorem nextWf_execWriteThrough {unit} (h : MemsWf s) : NextWf (execWriteThrough unit s) := by
  unfold execWriteThrough
  refine .next <| memsWf_serveAt (fun _ _ _ _ _ _ hs => ?_) h
  split
  · exact memsWf_failAt hs
  · exact .ite (.ite ((enqueue_keeps ..).wf rfl hs) (memsWf_endOut <| .ite hs (.foldl (fun _ _ hx =>
        (throughUnit_keeps ..).wf rfl hx) ((setCtx_keeps ..).wf rfl hs)))) (.ite (memsWf_failAt hs) (.ite
        (memsWf_failAt hs) (.ite ((setCtx_keeps ..).wf rfl <| (countCtx_keeps ..).wf rfl hs)
        ((throughUnit_keeps ..).wf rfl <| (countCtx_keeps ..).wf rfl hs))))

theorem nextWf_execReadWriteBack {unit} (h : MemsWf s) : NextWf (execReadWriteBack unit s) := by
  unfold execReadWriteBack
  refine .next <| memsWf_serveAt (fun _ _ _ _ _ _ hs => ?_) h
  split
  · exact memsWf_failAt hs
  · exact .ite (memsWf_durableData hs) (.ite ((enqueue_keeps ..).wf rfl hs) (.ite (.ite (memsWf_endProvisional hs)
        (memsWf_endOut hs)) (memsWf_endOut <| (stageHeld_keeps ..).wf rfl hs)))

theorem nextWf_execPatrolRead {channel group page tier} (h : MemsWf s) :
    NextWf (execPatrolRead channel group page tier s) :=
  .ite (.next h) (.ite (.next <| memsWf_recordLost <| (patrolled_keeps ..).wf rfl <| memsWf_countTier <|
      (countRead_keeps ..).wf rfl <| (book_keeps ..).wf rfl h) (.next <| (patrolled_keeps ..).wf rfl <|
      memsWf_countTier <| (countRead_keeps ..).wf rfl <| (book_keeps ..).wf rfl h))

theorem nextWf_execRelocateGroup {source failing answer} (h : MemsWf s) :
    NextWf (execRelocateGroup source failing answer s) :=
  .ite (.ite (.next <| memsWf_retryStalled <| (beginErase_keeps ..).wf rfl <| memsWf_eraseGroup <|
      memsWf_clearLosses <| memsWf_copyGroup h) (.next <| (setBg_keeps ..).wf rfl <| memsWf_clearLosses <|
      memsWf_copyGroup h)) (.next h)

theorem nextWf_execJournalPageProgrammed {jseq die} (h : MemsWf s) : NextWf (execJournalPageProgrammed jseq die s) :=
  .next <| memsWf_commitJournal <| (setFtl_keeps ..).wf rfl <| .ite ((formJournal_keeps ..).wf rfl h) h

theorem nextWf_execProgramStatus {channel pass} (h : MemsWf s) : NextWf (execProgramStatus channel pass s) := by
  unfold execProgramStatus
  dsimp -proj only
  split
  · exact .next h
  · refine .ite (.next h) ?_
    refine .ite ?_ ?_
    · refine .next <| memsWf_clearLosses <| memsWf_retryStalled <| memsWf_programPassed <|
          (setChan_keeps ..).wf rfl <| ?_
      split
      · exact (useInj_keeps ..).wf rfl h
      · exact h
    · refine .next <| memsWf_programFailed <| (setChan_keeps ..).wf rfl <| ?_
      split
      · exact (useInj_keeps ..).wf rfl h
      · exact h

theorem memsWf_finishRead {ch r} (h : MemsWf s) : MemsWf (finishRead s ch r) := by
  unfold finishRead
  dsimp -proj only
  split
  · exact memsWf_readOut <| (countRead_keeps ..).wf rfl h
  · exact .ite (memsWf_readOut <| memsWf_hold <| (mapSet_keeps ..).wf rfl <| memsWf_recordLost <|
        (bump_keeps ..).wf rfl <| (countRead_keeps ..).wf rfl h) (memsWf_failAt <| memsWf_recordLost <|
        (bump_keeps ..).wf rfl <| (countRead_keeps ..).wf rfl h)

theorem nextWf_execCodewordDecode {channel op ok} (h : MemsWf s) : NextWf (execCodewordDecode channel op ok s) := by
  unfold execCodewordDecode
  dsimp -proj only
  split
  · exact .next h
  · refine .ite (.next <| (setChan_keeps ..).wf rfl h) ?_
    refine .ite ?_ ?_
    · refine .ite ?_ ?_
      · refine .next <| memsWf_resumeSecures <| memsWf_finishRead <| (setChan_keeps ..).wf rfl <|
            memsWf_countTier <| ?_
        split
        · exact (useInj_keeps ..).wf rfl h
        · exact h
      · refine .next <| (setChan_keeps ..).wf rfl <| memsWf_countTier <| ?_
        split
        · exact (useInj_keeps ..).wf rfl h
        · exact h
    · refine .ite ?_ ?_
      · refine .next <| memsWf_codewordLost <| (setChan_keeps ..).wf rfl <| ?_
        split
        · exact (useInj_keeps ..).wf rfl h
        · exact h
      · refine .ite ?_ ?_
        · refine .next <| (setChan_keeps ..).wf rfl <| ?_
          split
          · exact (useInj_keeps ..).wf rfl h
          · exact h
        · refine .ite ?_ ?_
          · refine .next <| (setChan_keeps ..).wf rfl <| ?_
            split
            · exact (useInj_keeps ..).wf rfl h
            · exact h
          · refine .ite ?_ ?_
            · refine .next <| ?_
              split
              · exact (useInj_keeps ..).wf rfl h
              · exact h
            · refine .next <| (setChan_keeps ..).wf rfl <| ?_
              split
              · exact (useInj_keeps ..).wf rfl h
              · exact h

theorem nextWf_execFlashTrainPassDone {channel ok settings} (h : MemsWf s) :
    NextWf (execFlashTrainPassDone channel ok settings s) :=
  .ite (.next h) (.ite (.next <| .ite (memsWf_record <| (noteOffline_keeps ..).wf rfl <| .ite (memsWf_unitState <|
      (setLive_keeps ..).wf rfl <| (bump_keeps ..).wf rfl <| (setChan_keeps ..).wf rfl h)
      ((setLive_keeps ..).wf rfl <| (bump_keeps ..).wf rfl <| (setChan_keeps ..).wf rfl h))
      ((noteOffline_keeps ..).wf rfl <| .ite (memsWf_unitState <| (setLive_keeps ..).wf rfl <|
      (bump_keeps ..).wf rfl <| (setChan_keeps ..).wf rfl h) ((setLive_keeps ..).wf rfl <| (bump_keeps ..).wf rfl <|
      (setChan_keeps ..).wf rfl h))) (.ite (.next <| memsWf_channelOffline <| (bump_keeps ..).wf rfl h) (.next <|
      (setChan_keeps ..).wf rfl h)))

theorem memsWf_takeSample {readings} (h : MemsWf s) : MemsWf (takeSample s readings) :=
  (flashDrift_keeps ..).wf rfl <| .foldl (fun _ _ hx => (dramDrift_keeps ..).wf rfl hx) (.ite
      ((bulkLimits_keeps ..).wf rfl <| memsWf_setHealth <| (setFtl_keeps ..).wf rfl <| (setPwr_keeps ..).wf rfl h)
      (.foldl (fun _ _ hx => (rateChange_keeps ..).wf rfl hx) ((bulkLimits_keeps ..).wf rfl <| memsWf_setHealth <|
      (setFtl_keeps ..).wf rfl <| (setPwr_keeps ..).wf rfl h)))

theorem nextWf_execSensorSample {readings} (h : MemsWf s) : NextWf (execSensorSample readings s) :=
  .ite (.next <| (setPwr_keeps ..).wf rfl h) (.ite (.next <| (turnOff_keeps ..).wf rfl <|
      (setPwr_keeps ..).wf rfl <| .ite ((bump_keeps ..).wf rfl <| (setBoot_keeps ..).wf rfl <|
      (setJct_keeps ..).wf rfl h) ((setJct_keeps ..).wf rfl h)) (.ite (.next <| .ite ((gateAll_keeps ..).wf rfl <|
      memsWf_declareLoss <| (setPwr_keeps ..).wf rfl <| memsWf_takeSample h) (memsWf_declareLoss <|
      (setPwr_keeps ..).wf rfl <| memsWf_takeSample h)) (.next <| memsWf_takeSample h)))

theorem nextWf_execFlushEnd {mv} (h : MemsWf s) : NextWf (execFlushEnd mv s) :=
  .ite (.next h) (.next <| (setPwr_keeps ..).wf rfl <| .ite ((setBoot_keeps ..).wf rfl <|
      (gateAll_keeps ..).wf rfl <| memsWf_flushAll <| (gateStep4_keeps ..).wf rfl h) ((gateAll_keeps ..).wf rfl <|
      memsWf_flushAll <| (gateStep4_keeps ..).wf rfl h))

theorem nextWf_execFlushDirtyFenceTimeout (h : MemsWf s) : NextWf (execFlushDirtyFenceTimeout s) :=
  .ite (.next <| (gateStep4_keeps ..).wf rfl <| (setPwr_keeps ..).wf rfl <| memsWf_fenceDirty h) (.ite (.next <|
      (gateStep4_keeps ..).wf rfl <| memsWf_fenceDirty h) (.next h))

theorem nextWf_execVin12Low {mv} (h : MemsWf s) : NextWf (execVin12Low mv s) :=
  .next <| .ite (memsWf_declareLoss <| (setBoot_keeps ..).wf rfl <| (setPwr_keeps ..).wf rfl h)
      ((setPwr_keeps ..).wf rfl h)

theorem memsWf_peatFault (h : MemsWf s) : MemsWf (peatFault s) := memsWf_setHealth <| (setPwr_keeps ..).wf rfl h

theorem nextWf_execMeasurementDone {chargeUc fallMv} (h : MemsWf s) :
    NextWf (execMeasurementDone chargeUc fallMv s) :=
  .ite (.ite (.next <| memsWf_peatFault <| (setPwr_keeps ..).wf rfl <| (setLive_keeps ..).wf rfl <|
      (setPwr_keeps ..).wf rfl h) (.next <| (setPwr_keeps ..).wf rfl <| (setLive_keeps ..).wf rfl <|
      (setPwr_keeps ..).wf rfl h)) (.next h)

theorem nextWf_execPeatOvervoltage {mv} (h : MemsWf s) : NextWf (execPeatOvervoltage mv s) :=
  .ite (.next <| memsWf_peatFault <| (setPwr_keeps ..).wf rfl h) (.next <| (setPwr_keeps ..).wf rfl h)

theorem nextWf_execRevokeTokenArrive {src dest tag} (h : MemsWf s) :
    NextWf (execRevokeTokenArrive src dest tag s) := by
  unfold execRevokeTokenArrive
  split
  · exact .next h
  · exact .ite (.next h) (.ite (.next <| memsWf_bounce <| (offTrunk_keeps ..).wf rfl <|
        (wakePath_keeps ..).wf rfl h) (.next <| memsWf_revokeAt <| .ite ((report_keeps ..).wf rfl <|
        (offTrunk_keeps ..).wf rfl <| (wakePath_keeps ..).wf rfl h) ((offTrunk_keeps ..).wf rfl <|
        (wakePath_keeps ..).wf rfl h)))

theorem memsWf_loadEnds {p} (h : MemsWf s) : MemsWf (loadEnds s p) := by
  unfold loadEnds
  refine .ite ?_ ((setCtx_keeps ..).wf rfl h)
  split
  · exact memsWf_ackTicket <| memsWf_zeroWritten <| memsWf_stationRevoke <| (report_keeps ..).wf rfl h
  · exact h

theorem nextWf_execDeadlineExpire {tag} (h : MemsWf s) : NextWf (execDeadlineExpire tag s) := by
  unfold execDeadlineExpire
  split
  · exact .ite (.next <| memsWf_endWaiting <| (bump_keeps ..).wf rfl h) (.next h)
  · exact .next h

theorem nextWf_execPortionConsider {tag} (h : MemsWf s) : NextWf (execPortionConsider tag s) := by
  unfold execPortionConsider
  split
  · exact .next h
  · exact .next <| .put <| memsWf_admitOne h

theorem memsWf_staleWaiting (h : MemsWf s) : MemsWf (staleWaiting s) := by
  unfold staleWaiting
  refine .foldl (fun _ _ hx => ?_) h
  split
  · exact hx
  · exact .ite (memsWf_endAtAdmission hx) hx

theorem memsWf_scan (h : MemsWf s) : MemsWf (scan s) :=
  .put <| memsWf_admitGroup <| memsWf_admitGroup <| memsWf_admitGroup h

theorem nextWf_execEpochStart {env} (h : MemsWf s) : NextWf (execEpochStart env s) :=
  .next <| memsWf_scan <| memsWf_epochSets <| (ageWaiting_keeps ..).wf rfl <| memsWf_staleWaiting <|
      (epochRefill_keeps ..).wf rfl <| (publish_keeps ..).wf rfl <| (measureFens_keeps ..).wf rfl <|
      memsWf_countIdle <| (rollEpoch_keeps ..).wf rfl <| (markDue_keeps ..).wf rfl h

theorem nextWf_execTicketSubmit {unit ticket} (h : MemsWf s) : NextWf (execTicketSubmit unit ticket s) :=
  .ite (.ite (.next <| memsWf_submitTicket <| .ite ((setFtl_keeps ..).wf rfl h) h) (.next h)) (.next <|
      memsWf_submitTicket h)

theorem nextWf_execFenOverpower {fen milliwatts} (h : MemsWf s) : NextWf (execFenOverpower fen milliwatts s) := by
  unfold execFenOverpower
  dsimp -proj only
  split
  · exact .next <| (setLive_keeps ..).wf rfl h
  · exact .ite (.next <| memsWf_record <| (setFen_keeps ..).wf rfl <| (setLive_keeps ..).wf rfl h) (.next <|
        (setLive_keeps ..).wf rfl h)

theorem nextWf_execFencingTimeout {fen} (h : MemsWf s) : NextWf (execFencingTimeout fen s) :=
  .ite (.next h) (.next <| .foldl (fun _ _ hx => memsWf_finishTicket <| memsWf_fenceTicket hx)
      ((fenHeld_keeps ..).wf rfl <| (setFen_keeps ..).wf rfl h))

theorem nextWf_execFenLast {fen port tag status} (h : MemsWf s) : NextWf (execFenLast fen port tag status s) := by
  unfold execFenLast
  refine .ite (.next h) ?_
  split
  · exact .next <| (bump_keeps ..).wf rfl h
  · exact .ite (.next <| .ite ((setFen_keeps ..).wf rfl h) ((bump_keeps ..).wf rfl <| (setFen_keeps ..).wf rfl h))
        (.ite (.next <| memsWf_endOut <| .ite ((setFen_keeps ..).wf rfl h) ((bump_keeps ..).wf rfl <|
        (setFen_keeps ..).wf rfl h)) (.next <| memsWf_failAt <| .ite ((setFen_keeps ..).wf rfl h)
        ((bump_keeps ..).wf rfl <| (setFen_keeps ..).wf rfl h)))

theorem nextWf_inState {st} {f : LoadReq → State} (hf : ∀ r, MemsWf (f r)) (h : MemsWf s) : NextWf (inState s st f) := by
  have hend {status} : NextWf (.next (loadEnd s status)) := .next (memsWf_loadEnd h)
  unfold inState
  split
  · exact .next h
  · exact .ite (.next h) (.ite hend (.ite hend (.ite hend (.next (hf _)))))

theorem nextWf_execStructureStreamStored (h : MemsWf s) : NextWf (execStructureStreamStored s) :=
  nextWf_inState (fun _ => .ite (memsWf_loadFail <| (drawn_keeps ..).wf rfl <| (drawn_keeps ..).wf rfl h)
      (memsWf_loadEnd <| (setCfg_keeps ..).wf rfl <| (drawn_keeps ..).wf rfl h)) h

theorem nextWf_execLoaderKeyRevoked (h : MemsWf s) : NextWf (execLoaderKeyRevoked s) := by
  unfold execLoaderKeyRevoked
  split
  · exact .ite (.next <| memsWf_loadEnd h) (.next h)
  · exact .next h

theorem nextWf_execFenSafePointB (h : MemsWf s) : NextWf (execFenSafePointB s) :=
  nextWf_inState (fun _ => .ite h (memsWf_loadEnd <| (loadBook_keeps ..).wf rfl <| (extendMeas_keeps ..).wf rfl <|
      memsWf_changeUnit <| (setFen_keeps ..).wf rfl h)) h

theorem nextWf_execFenSafePointA (h : MemsWf s) : NextWf (execFenSafePointA s) :=
  nextWf_inState (fun _ => .ite (memsWf_unitState <| (setCfg_keeps ..).wf rfl <| (setFen_keeps ..).wf rfl h) h) h

theorem nextWf_execFenDrainTimeout (h : MemsWf s) : NextWf (execFenDrainTimeout s) :=
  nextWf_inState (fun _ => .ite h (.foldl (fun _ _ => memsWf_failAt) ((setFen_keeps ..).wf rfl h))) h

theorem nextWf_execFenApplyStart (h : MemsWf s) : NextWf (execFenApplyStart s) := by
  unfold execFenApplyStart
  refine nextWf_inState (fun _ => ?_) h
  refine .ite h ?_
  refine .ite (memsWf_loadFail h) ?_
  split
  · exact .ite (memsWf_loadFail h) (.ite ((setCfg_keeps ..).wf rfl <| (setFen_keeps ..).wf rfl h)
        ((setCfg_keeps ..).wf rfl <| (setFen_keeps ..).wf rfl h))
  · exact .ite (memsWf_loadFail h) (.ite ((setCfg_keeps ..).wf rfl <| (setFen_keeps ..).wf rfl h)
        ((setCfg_keeps ..).wf rfl <| (setFen_keeps ..).wf rfl h))
  · exact memsWf_loadFail h

theorem nextWf_execScreenComplete {netlist} (h : MemsWf s) : NextWf (execScreenComplete netlist s) := by
  refine nextWf_inState (fun _ => ?_) h
  dsimp -proj only
  split
  · exact (setCfg_keeps ..).wf rfl h
  · exact memsWf_loadReject h

theorem nextWf_execLoaderBlockArrived {block undelivered} (h : MemsWf s) :
    NextWf (execLoaderBlockArrived block undelivered s) := by
  unfold execLoaderBlockArrived
  refine nextWf_inState (fun _ => ?_) h
  refine .ite h ?_
  refine .ite (memsWf_loadFail h) ?_
  split
  · exact memsWf_loadReject h
  · exact .ite ((setCfg_keeps ..).wf rfl <| (loadBook_keeps ..).wf rfl h) (memsWf_blocksDone <|
        (setCfg_keeps ..).wf rfl <| (loadBook_keeps ..).wf rfl h)

theorem nextWf_execLoaderAuthenticate {rest undelivered} (h : MemsWf s) :
    NextWf (execLoaderAuthenticate rest undelivered s) := by
  unfold execLoaderAuthenticate
  refine nextWf_inState (fun _ => ?_) h
  refine .ite h ?_
  refine .ite (memsWf_loadFail h) ?_
  refine .ite (memsWf_loadFail h) ?_
  refine .ite (memsWf_loadFail h) ?_
  refine .ite (memsWf_loadFail h) ?_
  refine .ite ((setCfg_keeps ..).wf rfl h) ?_
  split
  · exact memsWf_loadFail h
  · split
    · exact memsWf_loadFail h
    · refine (setCfg_keeps ..).wf rfl <| ?_
      split
      · exact (useSlot_keeps ..).wf rfl h
      · exact h

theorem nextWf_execLoaderHeaderArrived {head undelivered} (h : MemsWf s) :
    NextWf (execLoaderHeaderArrived head undelivered s) :=
  nextWf_inState (fun _ => .ite h (.ite (memsWf_loadFail h) (.ite (memsWf_loadFail h) (.ite h (.ite
      (memsWf_loadFail h) ((setCfg_keeps ..).wf rfl h)))))) h

theorem nextWf_execLoaderFetchHead (h : MemsWf s) : NextWf (execLoaderFetchHead s) := by
  unfold execLoaderFetchHead
  split
  · exact .next h
  · exact .ite (.next h) (.ite (.next <| memsWf_loadResult <| (setCfg_keeps ..).wf rfl h) (.ite (.next <|
        (setLive_keeps ..).wf rfl <| (setLive_keeps ..).wf rfl <| (setCfg_keeps ..).wf rfl h) (.next <|
        (setCfg_keeps ..).wf rfl h)))

theorem nextWf_execGenHeldEventApply {unit} (h : MemsWf s) : NextWf (execGenHeldEventApply unit s) := by
  unfold execGenHeldEventApply
  dsimp -proj only
  split
  · exact .next h
  · exact .ite (.next h) (.next <| .ite (memsWf_backSets <| memsWf_doChange <| (setUnit_keeps ..).wf rfl h)
        (memsWf_doChange <| (setUnit_keeps ..).wf rfl h))

theorem nextWf_execFlitArrive {src dest cls route x y up link flit errors} (h : MemsWf s) :
    NextWf (execFlitArrive src dest cls route x y up link flit errors s) := by
  unfold execFlitArrive
  split
  · refine .next <| ?_
    split
    · exact h
    · exact .ite h (memsWf_accessFlitArrive h)
  · refine .ite (.next h) ?_
    split
    · rename_i x e
      have k : MemsWf x := .snd e <| memsWf_flitTries <| (wakeIsland_keeps ..).wf rfl h
      exact .next k
    · rename_i x e
      have k : MemsWf x := .snd e <| memsWf_flitTries <| (wakeIsland_keeps ..).wf rfl h
      exact .next <| (setPacket_keeps ..).wf rfl <| (drawn_keeps ..).wf rfl k
    · rename_i x e
      have k : MemsWf x := .snd e <| memsWf_flitTries <| (wakeIsland_keeps ..).wf rfl h
      exact .next <| (setPacket_keeps ..).wf rfl <| memsWf_recordLost <| (routerCount_keeps ..).wf rfl k

theorem memsWf_storeWords {p} (h : MemsWf s) : MemsWf (storeWords s p).2 := by
  unfold storeWords
  split
  · exact h
  · refine .ite2 h ?_
    split
    · rename_i _ x e
      have k : MemsWf x := .snd e <| (useInjs_keeps ..).wf rfl h
      split
      · exact memsWf_countCorrected k
      · exact .ite2 ((countUncorr_keeps ..).wf rfl <| (drawn_keeps ..).wf rfl k) ((drawn_keeps ..).wf rfl k)
      · exact (countUncorr_keeps ..).wf rfl k

theorem memsWf_takeArrival {p} (h : MemsWf s) : MemsWf (takeArrival s p) := by
  unfold takeArrival
  split
  · exact h
  · refine .ite ((arriveFenced_keeps ..).wf rfl h) ?_
    refine .ite h ?_
    refine .ite (memsWf_failAt h) ?_
    refine .ite (memsWf_failAt h) ?_
    split
    · rename_i _ x e
      have k : MemsWf x := .snd e <| memsWf_storeWords h
      exact memsWf_deliverPkt k
    · rename_i x e
      have k : MemsWf x := .snd e <| memsWf_storeWords h
      exact memsWf_failAt <| memsWf_recordLost k

theorem nextWf_execPacketArrive {src dest cls route} (h : MemsWf s) :
    NextWf (execPacketArrive src dest cls route s) := by
  unfold execPacketArrive
  split
  · exact .next h
  · exact .ite (.next h) (.ite (.next <| memsWf_bounce <| (offTrunk_keeps ..).wf rfl <|
        (wakePath_keeps ..).wf rfl h) (.ite (.next <| (wakePath_keeps ..).wf rfl h) (.next <| memsWf_takeArrival <|
        (offTrunk_keeps ..).wf rfl <| (wakePath_keeps ..).wf rfl h)))

theorem nextWf_execCommitDiscard {addr value} (h : MemsWf s) : NextWf (execCommitDiscard addr value s) := by
  unfold execCommitDiscard
  unfold onPage
  exact .next <| .ite (.ite (memsWf_barWrite h) h) h

theorem nextWf_execCommitGo {addr value} (h : MemsWf s) : NextWf (execCommitGo addr value s) := by
  unfold execCommitGo
  unfold onPage
  exact .next <| .ite (.ite (memsWf_barWrite h) h) h

theorem nextWf_execRegisterWrite {addr size value} (h : MemsWf s) : NextWf (execRegisterWrite addr size value s) := by
  unfold execRegisterWrite
  unfold onPage
  exact .next <| .ite (memsWf_regStore h) h

theorem memsWf_localOutcomes (h : MemsWf s) : MemsWf (localOutcomes s) := by
  unfold localOutcomes
  refine .foldl (fun _ _ hx => ?_) ((setJct_keeps ..).wf rfl h)
  split
  · exact hx
  · exact memsWf_messageOutcome hx

theorem memsWf_fedSettle (h : MemsWf s) : MemsWf (fedSettle s) :=
  (setJct_keeps ..).wf rfl <| (settlePromotions_keeps ..).wf rfl <| memsWf_submitRecvs <| memsWf_localOutcomes h

theorem memsWf_pumpCmds (h : MemsWf s) : MemsWf (pumpCmds s) := .foldl (fun _ _ => memsWf_formTodo) h

theorem memsWf_wakeCores (h : MemsWf s) : MemsWf (wakeCores s) := .foldl (fun _ _ => memsWf_wakeCore) h

theorem memsWf_tickCores (h : MemsWf s) : MemsWf (tickCores s) := memsWf_drainEmits <| memsWf_wakeCores h

theorem memsWf_tickQueues (h : MemsWf s) : MemsWf (tickQueues s) :=
  memsWf_tstSettle <| memsWf_fedSettle <| memsWf_tenSettle <| memsWf_pumpCmds h

theorem memsWf_tickClock (h : MemsWf s) : MemsWf (tickClock s) := memsWf_countCycles <| .put h

theorem memsWf_tick (h : MemsWf s) : MemsWf (tick s) :=
  .ite (memsWf_tickClock h) (memsWf_tickQueues <| memsWf_tickCores <| (openWindows_keeps ..).wf rfl <|
      (passSlots_keeps ..).wf rfl <| memsWf_tickClock h)

/-! ## Branches, SEND, tokens and the starts -/

theorem nextWf_runBranch {c i target link} (h : MemsWf s) : NextWf (runBranch c i target link s) := by
  have hrun : NextWf (runIns s c i none (fun s => .ok s)) := nextWf_runIns (.ok h) h
  unfold runBranch
  dsimp -proj only
  split
  · next e =>
    have ht := NextWf.of e hrun
    exact .ite (.next (memsWf_setCore_of_mem rfl ht)) (.next ht)
  · exact hrun

theorem nextWf_execGJal {c p d size disp} (h : MemsWf s) : NextWf (execGJal c p d size disp s) :=
  nextWf_runBranch h

theorem nextWf_execGJalr {c p d a} (h : MemsWf s) : NextWf (execGJalr c p d a s) :=
  nextWf_runBranch h

theorem nextWf_execGBc {c p a cc b size disp} (h : MemsWf s) : NextWf (execGBc c p a cc b size disp s) :=
  nextWf_runBranch h

theorem memsWf_sendWork {s₀ u tag e j w} (h₀ : MemsWf s₀) (h : MemsWf s) : MemsWf (sendWork s₀ u s tag e j w) := by
  unfold sendWork
  split
  · exact memsWf_failAt h
  · refine .ite (.ite (memsWf_failAt h) ((setCtx_keeps ..).wf rfl h)) (.ite h₀ (.ite (memsWf_endProvisional h) ?_))
    refine .ite (memsWf_failAt h) (.ite (memsWf_failAt h) ?_)
    cases ht : takeMessage s tag e u (ctxOf s tag j).buf with
    | none => exact h₀
    | some t => exact SomeWf.of ht (someWf_takeMessage h)

theorem nextWf_execSend {unit} (h : MemsWf s) : NextWf (execSend unit s) :=
  .next (memsWf_serveAt (fun _ _ _ _ _ _ => memsWf_sendWork h) h)

theorem memsWf_answered {o} (ho : NextWf o) (h : MemsWf s) : MemsWf (answered s o) := by
  unfold answered
  split
  · exact ho _ rfl
  · exact h

theorem memsWf_serveToken {u mode} (h : MemsWf s) : MemsWf (serveToken s u mode) := by
  unfold serveToken
  split
  · exact memsWf_writeServe h
  · exact memsWf_writeServe h
  · exact memsWf_answered (nextWf_execProgram h) h
  · exact memsWf_answered (nextWf_execProgram h) h
  · exact memsWf_answered (nextWf_execLoad h) h
  · exact memsWf_answered (nextWf_execLoad h) h
  · exact h
  · exact h
  · exact memsWf_cmpServe h
  · exact memsWf_dgtServe h
  · exact memsWf_searchServe h
  · exact memsWf_answered (nextWf_execDramStation h) h
  · exact memsWf_answered (nextWf_execHostPortWrite h) h
  · exact memsWf_answered (nextWf_execSend h) h
  · exact memsWf_answered (nextWf_execParityEngineStep h) h
  · exact memsWf_answered (nextWf_execReadWriteBack h) h
  · exact memsWf_answered (nextWf_execWriteThrough h) h
  · exact memsWf_answered (nextWf_execDeallocate h) h
  · exact memsWf_answered (nextWf_execDurable h) h
  · exact memsWf_answered (nextWf_execMapWrite h) h
  · exact h

theorem memsWf_takeToken {e p} (h : MemsWf s) : MemsWf (takeToken s e p) := by
  have hqueued : MemsWf (enqueue s p.dest (.pkt p)) := (enqueue_keeps ..).wf rfl h
  unfold takeToken
  split
  · exact (fenInput_keeps ..).wf rfl h
  · exact (fenInput_keeps ..).wf rfl h
  · exact memsWf_loadEnds h
  · exact .ite (memsWf_serveToken hqueued) hqueued

theorem nextWf_execEndTokenArrive {src dest tag} (h : MemsWf s) : NextWf (execEndTokenArrive src dest tag s) := by
  unfold execEndTokenArrive
  split
  · exact .next h
  · next p _ =>
    refine .ite (.next h) ?_
    extract_lets woken
    have hwoken : MemsWf woken := (wakePath_keeps ..).wf rfl h
    clear_value woken
    have hoff : MemsWf (offTrunk woken p) := (offTrunk_keeps ..).wf rfl hwoken
    refine .ite (.next (memsWf_bounce hoff)) ?_
    split
    · exact .next hoff
    · exact .ite (.next hoff) (.ite (.next (memsWf_failAt hoff)) (.ite (.next hwoken) (.next (memsWf_takeToken hoff))))

/-- After a start every memory reads as zero (R688). -/
theorem memsWf_again {o env warm} : MemsWf (again o env warm) := by
  constructor <;> simp only [again]
  · rfl
  · rfl
  · exact List.forall_mem_nil _
  · exact List.forall_mem_nil _

/-- Local memory is kept whole from before a warm start, or is not there (R600). -/
theorem memsWf_restoreLmem {o warm} (ho : MemsWf o) (h : MemsWf s) : MemsWf (restoreLmem o s warm) := by
  unfold restoreLmem
  extract_lets _ _ _ _ t
  have ht : MemsWf t := (setInst_keeps ..).wf rfl h
  clear_value t
  exact .ite ⟨ho.dram, ho.sorted, ho.lmem, ht.cores⟩ ht.put

theorem memsWf_restorePhase {o env warm} (ho : MemsWf o) (h : MemsWf s) : MemsWf (restorePhase o env warm s) := by
  unfold restorePhase
  extract_lets granted homed windowed _ zoned cached _ aliased found redelivered warned _ judged healthy _ mapped
  have hhomed : MemsWf homed :=
    memsWf_restoreLmem ho ((restoreGrants_keeps ..).wf rfl ((restoreKeys_keeps ..).wf rfl h))
  have hzoned : MemsWf zoned := (setFtl_keeps ..).wf rfl ((restoreWindows_keeps ..).wf rfl hhomed)
  have hcached : MemsWf cached := (reduceCache_keeps ..).wf rfl (memsWf_startSets (memsWf_restoreSettings hzoned))
  have hfound : MemsWf found := memsWf_restoreStates ((restoreBanks_keeps ..).wf rfl hcached.put)
  have hredelivered : MemsWf redelivered := .foldl (fun _ _ hx => .ite (memsWf_redeliver hx) hx) hfound
  have hwarned : MemsWf warned := .ite (memsWf_record hredelivered) hredelivered
  have hjudged : MemsWf judged := (judgeFold_keeps ..).wf rfl (memsWf_judgeSpare ((setFtl_keeps ..).wf rfl hwarned))
  have hhealthy : MemsWf healthy := memsWf_setHealth (memsWf_clearLosses (memsWf_judgeDegraded hjudged))
  have hmapped : MemsWf mapped := .ite (memsWf_setHealth ((setFtl_keeps ..).wf rfl hhealthy)) hhealthy
  exact (setBoot_keeps ..).wf rfl hmapped

theorem memsWf_runStart {o env warm} (ho : MemsWf o) : MemsWf (runStart o env warm) := by
  unfold runStart
  extract_lets rom _ powered fens chosen trained
  have hrom : MemsWf rom := memsWf_romPhase memsWf_again
  refine .ite ((haltStart_keeps ..).wf rfl (memsWf_recordRom hrom)) ?_
  have hfens : MemsWf fens := (startFens_keeps ..).wf rfl ((setBoot_keeps ..).wf rfl hrom)
  have hchosen : MemsWf chosen.1 := memsWf_chooseImage hfens
  have htrained : MemsWf trained := memsWf_trainPhase (memsWf_startCores hchosen)
  exact .ite ((haltStart_keeps ..).wf rfl hfens) (.ite ((haltStart_keeps ..).wf rfl hchosen)
    (memsWf_restorePhase ho (memsWf_recoverPhase (memsWf_streamPhase htrained))))

theorem nextWf_execColdStart {env} (h : MemsWf s) : NextWf (execColdStart env s) :=
  .ite (.next (memsWf_endTestSession (memsWf_runStart h))) (.next h)

theorem nextWf_execWarmStart {env} (h : MemsWf s) : NextWf (execWarmStart env s) := by
  have hentered : MemsWf (if s.boot.phase = .entry then finishEntry s true else s) := .ite (memsWf_finishEntry h) h
  exact .ite (.next (memsWf_endTestSession (memsWf_runStart hentered))) (.next hentered)

/-- Every command keeps the memories canonical. -/
theorem nextWf_exec (h : MemsWf s) (i : Instr) : NextWf (exec i s) := by
  cases i with
  | registerWrite => exact nextWf_execRegisterWrite h
  | readLoLatch => exact (execReadLoLatch_keeps _ _).wf rfl h
  | unitRoleRead => exact (execUnitRoleRead_keeps _ _).wf rfl h
  | readClear => exact (execReadClear_keeps _ _).wf rfl h
  | keySlotStatusRead => exact (execKeySlotStatusRead_keeps _ _).wf rfl h
  | commitGo => exact nextWf_execCommitGo h
  | commitDiscard => exact nextWf_execCommitDiscard h
  | commitTakesEffect => exact .next <| memsWf_commitEffect h
  | packetArrive => exact nextWf_execPacketArrive h
  | flitArrive => exact nextWf_execFlitArrive h
  | genHeldEventApply => exact nextWf_execGenHeldEventApply h
  | cfgLoadRequest => exact .next <| memsWf_commitEffect h
  | loaderFetchHead => exact nextWf_execLoaderFetchHead h
  | loaderHeaderArrived => exact nextWf_execLoaderHeaderArrived h
  | loaderAuthenticate => exact nextWf_execLoaderAuthenticate h
  | loaderBlockArrived => exact nextWf_execLoaderBlockArrived h
  | screenComplete netlist => exact show NextWf (execScreenComplete netlist s) from nextWf_execScreenComplete h
  | fenApplyStart => exact nextWf_execFenApplyStart h
  | fenDrainTimeout => exact nextWf_execFenDrainTimeout h
  | fenSafePointA => exact nextWf_execFenSafePointA h
  | fenSafePointB => exact nextWf_execFenSafePointB h
  | loaderKeyRevoked => exact nextWf_execLoaderKeyRevoked h
  | structureStreamStored => exact nextWf_execStructureStreamStored h
  | fenOutputBeat => exact (execFenOutputBeat_keeps _ _ _ _ _ _).wf rfl h
  | fenLast => exact nextWf_execFenLast h
  | fenCtlwinAccess => exact (execFenCtlwinAccess_keeps _ _ _ _ _ _).wf rfl h
  | ctlwinTimeout => exact (execCtlwinTimeout_keeps _ _ _).wf rfl h
  | fenFencingDone => exact (execFenFencingDone_keeps _ _).wf rfl h
  | fencingTimeout => exact nextWf_execFencingTimeout h
  | holdRelease => exact .next <| memsWf_releaseHolds h
  | fenOverpower => exact nextWf_execFenOverpower h
  | fenScrubDone => exact (execFenScrubDone_keeps _ _).wf rfl h
  | ticketSubmit => exact nextWf_execTicketSubmit h
  | epochStart => exact nextWf_execEpochStart h
  | portionConsider => exact nextWf_execPortionConsider h
  | deadlineExpire => exact nextWf_execDeadlineExpire h
  | endTokenArrive => exact nextWf_execEndTokenArrive h
  | revokeTokenArrive => exact nextWf_execRevokeTokenArrive h
  | sidingPop => exact (execSidingPop_keeps _ _).wf rfl h
  | baseMwUpdate => exact (execBaseMwUpdate_keeps _ _ _).wf rfl h
  | domainRetention => exact (execDomainRetention_keeps _ _).wf rfl h
  | domainGateOff => exact (execDomainGateOff_keeps _ _).wf rfl h
  | domainWake => exact (execDomainWake_keeps _ _ _).wf rfl h
  | operatingPointChange => exact (execOperatingPointChange_keeps _ _ _ _).wf rfl h
  | peatRampElapsed => exact (execPeatRampElapsed_keeps _).wf rfl h
  | peatTargetReached => exact (execPeatTargetReached_keeps _ _).wf rfl h
  | peatOvervoltage => exact nextWf_execPeatOvervoltage h
  | peatFloorTimeout => exact .ite (.next <| memsWf_peatFault <| (setPwr_keeps ..).wf rfl h) (.next h)
  | measRequest => exact (execMeasRequest_keeps _).wf rfl h
  | measurementDue => exact (execMeasurementDue_keeps _).wf rfl h
  | measurementDone => exact nextWf_execMeasurementDone h
  | measurementTimeout => exact (execMeasurementTimeout_keeps _).wf rfl h
  | vin12Low => exact nextWf_execVin12Low h
  | pwrdisAssert => exact .next <| memsWf_declareLoss <| (setBoot_keeps ..).wf rfl h
  | flushDirtyFenceTimeout => exact nextWf_execFlushDirtyFenceTimeout h
  | flushEnd => exact nextWf_execFlushEnd h
  | inputReturn => exact (execInputReturn_keeps _).wf rfl h
  | brownOut => exact (execBrownOut_keeps _).wf rfl h
  | sensorSample => exact nextWf_execSensorSample h
  | flashTrainPassDone => exact nextWf_execFlashTrainPassDone h
  | flashRetrainBegin => exact (execFlashRetrainBegin_keeps _ _).wf rfl h
  | codewordDecode => exact nextWf_execCodewordDecode h
  | partialParityTimeout => exact .next <| memsWf_partialParity h
  | programStatus => exact nextWf_execProgramStatus h
  | pageSealTimeout => exact .ite (.next <| memsWf_sealShort h) (.next h)
  | journalPageProgrammed => exact nextWf_execJournalPageProgrammed h
  | checkpointBegin => exact .next <| memsWf_resumeSecures <| memsWf_runCkpt h
  | ckptRequest => exact (execCkptRequest_keeps _).wf rfl h
  | ckptSecondsExpire => exact (execCkptSecondsExpire_keeps _).wf rfl h
  | relocateGroup => exact nextWf_execRelocateGroup h
  | patrolRead => exact nextWf_execPatrolRead h
  | staticLevelling => exact (execStaticLevelling_keeps _).wf rfl h
  | minuteTick => exact (execMinuteTick_keeps _).wf rfl h
  | readWriteBack => exact nextWf_execReadWriteBack h
  | writeThrough => exact nextWf_execWriteThrough h
  | drain => exact nextWf_execDrain h
  | deallocate => exact nextWf_execDeallocate h
  | secureDeallocate => exact nextWf_execSecureDeallocate h
  | durable => exact nextWf_execDurable h
  | mapWrite => exact nextWf_execMapWrite h
  | read => exact nextWf_execRead h
  | writeSluice => exact .next <| memsWf_writeServe h
  | writeDense => exact .next <| memsWf_writeServe h
  | readRaw => exact nextWf_execReadRaw h
  | parityEngineStep => exact nextWf_execParityEngineStep h
  | slotCompress => exact .next <| memsWf_cmpServe h
  | slotDecompress => exact .next <| memsWf_cmpServe h
  | streamCompress => exact .next <| memsWf_cmpServe h
  | streamDecompress => exact .next <| memsWf_cmpServe h
  | xtsEnc => exact .next <| memsWf_cipServe h
  | xtsDec => exact .next <| memsWf_cipServe h
  | gcmEnc => exact .next <| memsWf_cipServe h
  | gcmDec => exact .next <| memsWf_cipServe h
  | gcmHoldRoomFree => exact (execGcmHoldRoomFree_keeps _ _).wf rfl h
  | pass => exact .next <| memsWf_dgtServe h
  | sink => exact .next <| memsWf_dgtServe h
  | search4 => exact .next <| memsWf_searchServe h
  | search16 => exact .next <| memsWf_searchServe h
  | search64 => exact .next <| memsWf_searchServe h
  | update => exact .next <| memsWf_searchServe h
  | asuHoldRoomFree => exact (execAsuHoldRoomFree_keeps _ _).wf rfl h
  | scrubRead => exact nextWf_execScrubRead h
  | bankCopyDone => exact (execBankCopyDone_keeps _ _).wf rfl h
  | send => exact nextWf_execSend h
  | receive => exact nextWf_execReceive h
  | hostPortFetch => exact nextWf_execHostPortFetch h
  | hostPortWrite => exact nextWf_execHostPortWrite h
  | dramStation => exact nextWf_execDramStation h
  | program => exact nextWf_execProgram h
  | load => exact nextWf_execLoad h
  | keyGrant => exact nextWf_execKeyGrant h
  | keyLoad => exact nextWf_execKeyLoad h
  | keyErase => exact nextWf_execKeyErase h
  | keyWithdraw => exact nextWf_execKeyWithdraw h
  | ctxExport => exact nextWf_execCtxExport h
  | ctxImport => exact nextWf_execCtxImport h
  | ctxFree => exact nextWf_execCtxFree h
  | keyUseZero => exact nextWf_execKeyUseZero h
  | keyFenceTimeout => exact nextWf_execKeyFenceTimeout h
  | keyFenceComplete => exact nextWf_execKeyFenceComplete h
  | feedStart => exact (execFeedStart_keeps _ _).wf rfl h
  | save => exact (execSave_keeps _ _).wf rfl h
  | restore => exact (execRestore_keeps _ _ _).wf rfl h
  | abandon => exact (execAbandon_keeps _ _).wf rfl h
  | feedW0 => exact (execFeedW0_keeps _ _ _).wf rfl h
  | feedW1 => exact (execFeedW1_keeps _ _ _).wf rfl h
  | feedLast => exact (execFeedLast_keeps _ _ _).wf rfl h
  | gNop => exact nextWf_execGNop h
  | gSyscall => exact nextWf_execGSyscall h
  | gBreak => exact nextWf_execGBreak h
  | gRft => exact nextWf_execGRft h
  | gWait => exact nextWf_execGWait h
  | gCrr => exact nextWf_runCrr h
  | gCrw => exact nextWf_execGCrw h
  | inqPop => exact nextWf_runCrr h
  | inqFree => exact nextWf_execInqFree h
  | emit => exact nextWf_execEmit h
  | submit => exact nextWf_execSubmit h
  | timerRaise => exact .ite (.next <| memsWf_wakeCore <| memsWf_setCore (h.core _) h) (.next h)
  | interrupt => exact .ite (.next <| memsWf_trapNow <| memsWf_setCore (h.core _) h) (.next h)
  | gAdd => exact nextWf_runAlu3 h
  | gSub => exact nextWf_runAlu3 h
  | gAnd => exact nextWf_runAlu3 h
  | gOr => exact nextWf_runAlu3 h
  | gXor => exact nextWf_runAlu3 h
  | gShl => exact nextWf_runAlu3 h
  | gShr => exact nextWf_runAlu3 h
  | gSar => exact nextWf_runAlu3 h
  | gMul => exact nextWf_runAlu3 h
  | gMulh => exact nextWf_runAlu3 h
  | gMulhu => exact nextWf_runAlu3 h
  | gDiv => exact nextWf_runDiv h
  | gDivu => exact nextWf_runDiv h
  | gDivn => exact nextWf_runDiv h
  | gNeg => exact nextWf_runAlu2 h
  | gNot => exact nextWf_runAlu2 h
  | gClz => exact nextWf_runAlu2 h
  | gCtz => exact nextWf_runAlu2 h
  | gPopc => exact nextWf_runAlu2 h
  | gBswap => exact nextWf_runAlu2 h
  | gSeq => exact nextWf_runSet3 h
  | gSne => exact nextWf_runSet3 h
  | gSlt => exact nextWf_runSet3 h
  | gSltu => exact nextWf_runSet3 h
  | gSge => exact nextWf_runSet3 h
  | gSgeu => exact nextWf_runSet3 h
  | gAddi => exact nextWf_runAluI h
  | gAndi => exact nextWf_runAluI h
  | gOri => exact nextWf_runAluI h
  | gXori => exact nextWf_runAluI h
  | gShli => exact nextWf_runAluI h
  | gShri => exact nextWf_runAluI h
  | gSari => exact nextWf_runAluI h
  | gMuli => exact nextWf_runAluI h
  | gSeqi => exact nextWf_runSetI h
  | gSnei => exact nextWf_runSetI h
  | gSlti => exact nextWf_runSetI h
  | gSltui => exact nextWf_runSetI h
  | gSgei => exact nextWf_runSetI h
  | gSgeui => exact nextWf_runSetI h
  | gLi => exact nextWf_execGLi h
  | gLdb => exact nextWf_runLoad h
  | gLdbu => exact nextWf_runLoad h
  | gLdh => exact nextWf_runLoad h
  | gLdhu => exact nextWf_runLoad h
  | gLdw => exact nextWf_runLoad h
  | gLdwu => exact nextWf_runLoad h
  | gLdd => exact nextWf_runLoad h
  | gStb => exact nextWf_runStore h
  | gSth => exact nextWf_runStore h
  | gStw => exact nextWf_runStore h
  | gStd => exact nextWf_runStore h
  | gLdbU => exact nextWf_runLoad h
  | gLdbuU => exact nextWf_runLoad h
  | gLdhU => exact nextWf_runLoad h
  | gLdhuU => exact nextWf_runLoad h
  | gLdwU => exact nextWf_runLoad h
  | gLdwuU => exact nextWf_runLoad h
  | gLddU => exact nextWf_runLoad h
  | gStbU => exact nextWf_runStore h
  | gSthU => exact nextWf_runStore h
  | gStwU => exact nextWf_runStore h
  | gStdU => exact nextWf_runStore h
  | gCas => exact nextWf_execGCas h
  | gFenceInstruction => exact nextWf_execGFenceInstruction h
  | gCpx => exact nextWf_execGCpx h
  | gChk => exact nextWf_execGChk h
  | gChku => exact nextWf_execGChku h
  | gChki => exact nextWf_execGChki h
  | gBc => exact nextWf_execGBc h
  | gJal => exact nextWf_execGJal h
  | gJalr => exact nextWf_execGJalr h
  | coreStart => exact .next <| memsWf_coreStartOp h
  | coreStop => exact .next <| memsWf_coreStopOp h
  | coreScrubDone => exact nextWf_execCoreScrubDone h
  | coreIdleSlowdown => exact .ite (.next <| (setIsland_keeps ..).wf rfl <| memsWf_setCore (h.core _) h) (.next h)
  | dramRefresh => exact (execDramRefresh_keeps _ _ _ _).wf rfl h
  | dramTempRead => exact (execDramTempRead_keeps _ _ _).wf rfl h
  | dramPatrol => exact .ite (.next <| memsWf_readWord h) (.next h)
  | dramTrainPassDone => exact nextWf_execDramTrainPassDone h
  | dramTrainWindowEnd => exact (execDramTrainWindowEnd_keeps _ _).wf rfl h
  | sqDoorbell => exact (execSqDoorbell_keeps _ _ _ _ _).wf rfl h
  | createIoSq => exact (execCreateIoSq_keeps _ _).wf rfl h
  | deleteIoSq => exact (execDeleteIoSq_keeps _ _).wf rfl h
  | createIoCq => exact (execCreateIoCq_keeps _ _).wf rfl h
  | deleteIoCq => exact (execDeleteIoCq_keeps _ _).wf rfl h
  | getLogPage => exact (execGetLogPage_keeps _ _).wf rfl h
  | identify => exact (execIdentify_keeps _ _).wf rfl h
  | abort => exact nextWf_execAbort h
  | setFeatures => exact (execSetFeatures_keeps _ _ _).wf rfl h
  | getFeatures => exact (execGetFeatures_keeps _ _).wf rfl h
  | asynchronousEventRequest => exact (execAsynchronousEventRequest_keeps _ _).wf rfl h
  | namespaceManagement => exact nextWf_execNamespaceManagement h
  | namespaceAttachment => exact (execNamespaceAttachment_keeps _ _ _).wf rfl h
  | firmwareCommit => exact (execFirmwareCommit_keeps _ _).wf rfl h
  | firmwareImageDownload => exact (execFirmwareImageDownload_keeps _ _ _).wf rfl h
  | deviceSelfTest => exact (execDeviceSelfTest_keeps _ _).wf rfl h
  | virtualizationManagement => exact (execVirtualizationManagement_keeps _ _).wf rfl h
  | nvmeMiSend => exact (execNvmeMiSend_keeps _ _).wf rfl h
  | nvmeMiReceive => exact (execNvmeMiReceive_keeps _ _).wf rfl h
  | formatNvm => exact nextWf_execFormatNvm h
  | sanitize => exact nextWf_execSanitize h
  | invalidCommandOpcode => exact (execInvalidCommandOpcode_keeps _ _ _).wf rfl h
  | nvmeRead => exact nextWf_execNvmeRead h
  | nvmeWrite => exact nextWf_execNvmeWrite h
  | flush => exact nextWf_execFlush h
  | writeZeroes => exact nextWf_execWriteZeroes h
  | datasetManagement => exact nextWf_execDatasetManagement h
  | zoneAppend => exact nextWf_execZoneAppend h
  | zoneOpen => exact (execZoneOpen_keeps _ _ _).wf rfl h
  | zoneClose => exact (execZoneClose_keeps _ _ _).wf rfl h
  | zoneFinish => exact (execZoneFinish_keeps _ _ _).wf rfl h
  | zoneReset => exact nextWf_execZoneReset h
  | reportZones => exact (execReportZones_keeps _ _ _).wf rfl h
  | loadProgram => exact nextWf_execLoadProgram h
  | programActivation => exact nextWf_execProgramActivation h
  | executeProgram => exact nextWf_execExecuteProgram h
  | memoryWrite => exact nextWf_execMemoryWrite h
  | memoryRead => exact nextWf_execMemoryRead h
  | memoryCopy => exact nextWf_execMemoryCopy h
  | functionLevelReset => exact .next <| .ite ((dropController_keeps ..).wf rfl h) (memsWf_instanceReset h)
  | linkDown => exact .next <| memsWf_linkLost h
  | linkRetrain => exact .next <| .ite h (.ite (memsWf_linkLost h) ((setLink_keeps ..).wf rfl h))
  | nvmeMiCommand => exact (execNvmeMiCommand_keeps _ _ _ _ _ _).wf rfl h
  | create => exact nextWf_execCreate h
  | destroy => exact nextWf_execDestroy h
  | grantFen => exact nextWf_execGrantFen h
  | withdrawFen => exact nextWf_execWithdrawFen h
  | grantCore => exact nextWf_execGrantCore h
  | withdrawCore => exact nextWf_execWithdrawCore h
  | dedicate => exact nextWf_execDedicate h
  | undedicate => exact nextWf_execUndedicate h
  | withdrawDrainTimeout => exact nextWf_execWithdrawDrainTimeout h
  | instanceReset => exact .next <| memsWf_instanceReset h
  | logSwitch => exact (execLogSwitch_keeps _ _).wf rfl h
  | lmemLostPop => exact (execLmemLostPop_keeps _ _).wf rfl h
  | data => exact nextWf_execData h
  | ack => exact (execAck_keeps _ _).wf rfl h
  | outcome => exact nextWf_execOutcome h
  | heartbeat => exact nextWf_execHeartbeat h
  | loss => exact nextWf_execLoss h
  | promoted => exact (execPromoted_keeps _ _).wf rfl h
  | stalePeer => exact nextWf_execStalePeer h
  | frameForward => exact (execFrameForward_keeps _ _).wf rfl h
  | heartbeatTick => exact (execHeartbeatTick_keeps _).wf rfl h
  | neighbourTimeout => exact nextWf_execNeighbourTimeout h
  | uaserLinkDown => exact nextWf_execUaserLinkDown h
  | retransmitTimeout => exact nextWf_execRetransmitTimeout h
  | connectionIdleClose => exact (execConnectionIdleClose_keeps _ _ _).wf rfl h
  | primaryClaimTimeout => exact (execPrimaryClaimTimeout_keeps _).wf rfl h
  | fedTableLoad => exact nextWf_execFedTableLoad h
  | getVersion => exact (execGetVersion_keeps _ _).wf rfl h
  | getCapabilities => exact (execGetCapabilities_keeps _ _).wf rfl h
  | negotiateAlgorithms => exact (execNegotiateAlgorithms_keeps _ _ _ _ _ _ _).wf rfl h
  | getDigests => exact (execGetDigests_keeps _ _).wf rfl h
  | getCertificate => exact (execGetCertificate_keeps _ _ _ _ _).wf rfl h
  | challenge => exact (execChallenge_keeps _ _ _ _).wf rfl h
  | getMeasurements => exact (execGetMeasurements_keeps _ _ _ _ _).wf rfl h
  | keyExchange => exact (execKeyExchange_keeps _ _ _).wf rfl h
  | finish => exact nextWf_execFinish h
  | spdmHeartbeat => exact (execSpdmHeartbeat_keeps _ _ _).wf rfl h
  | keyUpdate => exact (execKeyUpdate_keeps _ _ _).wf rfl h
  | endSession => exact nextWf_execEndSession h
  | unsupportedRequest => exact (execUnsupportedRequest_keeps _ _).wf rfl h
  | pqChain => exact (execPqChain_keeps _ _ _).wf rfl h
  | pqQuote => exact (execPqQuote_keeps _ _ _ _).wf rfl h
  | bind => exact (execBind_keeps _ _ _ _).wf rfl h
  | regUpdate => exact (execRegUpdate_keeps _ _ _ _ _ _ _ _).wf rfl h
  | release => exact (execRelease_keeps _ _ _).wf rfl h
  | testOpen => exact nextWf_execTestOpen h
  | testClose => exact nextWf_execTestClose h
  | decommission => exact (execDecommission_keeps _ _ _).wf rfl h
  | ideKm => exact (execIdeKm_keeps _ _ _ _ _).wf rfl h
  | ideIntegrityFailure => exact nextWf_execIdeIntegrityFailure h
  | tdispMessage => exact (execTdispMessage_keeps _ _ _ _ _).wf rfl h
  | measSelect => exact (execMeasSelect_keeps _ _).wf rfl h
  | powerOn => exact (execPowerOn_keeps _).wf rfl h
  | coldStart => exact nextWf_execColdStart h
  | warmStart => exact nextWf_execWarmStart h
  | warm => exact .next <| memsWf_beginEntry h
  | entryCutoff => exact .ite (.next <| memsWf_finishEntry h) (.next h)
  | watchdogExpire => exact .ite (.next <| memsWf_beginEntry h) (.next h)
  | startReady => exact nextWf_execStartReady h
  | perstAssert => exact nextWf_execPerstAssert h
  | perstRelease => exact (execPerstRelease_keeps _ _).wf rfl h
  | selfOk => exact (execSelfOk_keeps _).wf rfl h
  | confirmTimeout => exact nextWf_execConfirmTimeout h
  | stage => exact (execStage_keeps _ _ _).wf rfl h
  | updWriteSlot => exact (execUpdWriteSlot_keeps _).wf rfl h
  | updWriteActivate => exact (execUpdWriteActivate_keeps _).wf rfl h
  | updActivateSlot => exact (execUpdActivateSlot_keeps _).wf rfl h
  | activate => exact .next <| memsWf_activateNow h
  | confirm => exact (execConfirm_keeps _).wf rfl h
  | mirrorPageFlush => exact (execMirrorPageFlush_keeps _).wf rfl h
  | suppressed => exact .next <| (setEvr_keeps ..).wf rfl <| memsWf_endSecond h
  | evrRead => exact (execEvrRead_keeps _).wf rfl h
  | evrClear => exact nextWf_execEvrClear h
  | unitTestRequest => exact nextWf_execUnitTestRequest h
  | rotate => exact (execRotate_keeps _).wf rfl h
  | testDrainTimeout => exact nextWf_execTestDrainTimeout h
  | unitTestDone => exact .next <| memsWf_backSets <| memsWf_unitTested h
  | sramSymbol => exact .next <| memsWf_injectNow h
  | trunkSymbol => exact .next <| memsWf_injectNow h
  | dramSymbol => exact .next <| memsWf_injectNow h
  | flashBits => exact .next <| memsWf_injectNow h
  | flashFail => exact .next <| memsWf_injectNow h
  | causewayDelay => exact .next <| memsWf_injectNow h
  | backpressure => exact .next <| memsWf_injectNow h
  | clock => exact .next <| memsWf_injectNow h
  | injectionWindowEnd => exact (execInjectionWindowEnd_keeps _ _ _).wf rfl h
  | stop => exact (execStop_keeps _).wf rfl h
  | smbusTimeout => exact (execSmbusTimeout_keeps _).wf rfl h
  | eraseStatus => exact nextWf_execEraseStatus h
  | undefinedEncoding => exact nextWf_execUndefinedEncoding h
  | uaserLinkUp => exact (execUaserLinkUp_keeps _ _ _).wf rfl h
  | testPortInstruction => exact (execTestPortInstruction_keeps _ _).wf rfl h

theorem nextWf_step (h : MemsWf s) : NextWf (step s) := by
  unfold step
  split
  · exact .next (memsWf_tick h)
  · exact nextWf_exec h.put _

/-- Settles O59: a step runs a command, or the tick, on a state whose memories are canonical. -/
theorem everyStepKeepsTheMemoriesCanonical : Obligations.EveryStepKeepsTheMemoriesCanonical := by
  intro s t hs hstep
  exact memsWf_iff.mpr (nextWf_step (memsWf_iff.mp hs) t hstep)

end Sys2Proof.Machine
end

section
/-! SUPPORT. Taking a trap (R478, R479): what is saved, and what a fault leaves (O10, O11). -/

namespace Sys2Proof.Machine

variable {s : State} {c code : Nat} {k : Core} {t : Trap} {epc : DWord} {ds : Bool} {rep : Option Nat}

/-! ## The control registers -/

theorem Core.cr_setCr (k : Core) (n m : Nat) (v : DWord) : (k.setCr n v).cr m = if m = n then v else k.cr m :=
  Tab.getD_put ..

@[simp] theorem Core.g_setCr (k : Core) (n r : Nat) (v : DWord) : (k.setCr n v).g r = k.g r := rfl

@[simp] theorem Core.pc_setCr (k : Core) (n : Nat) (v : DWord) : (k.setCr n v).pc = k.pc := rfl

@[simp] theorem Core.state_setCr (k : Core) (n : Nat) (v : DWord) : (k.setCr n v).state = k.state := rfl

/-! ## What a trap saves -/

/-- ECAUSE of a trap: its code, DS at bit 8 and REP at bit 9 (R478). -/
def causeOf (t : Trap) (ds : Bool) (rep : Option Nat) : Nat := t.code + 256 * b2n ds + 512 * b2n rep.isSome

/-- The core as a trap leaves it, once its registers are saved (R478). -/
def trappedCore (k : Core) (t : Trap) (epc : DWord) (ds : Bool) (rep : Option Nat) : Core :=
  let k₁ := ((k.setCr 0x03 epc).setCr 0x04 (BitVec.ofNat 64 (causeOf t ds rep))).setCr 0x05 t.eaddr
  let k₂ := match rep with
    | some n => k₁.setCr 0x06 (BitVec.ofNat 64 n)
    | none => k₁
  { (k₂.setCr 0x07 (k.cr 0x01)).setCr 0x01 2 with
    pc := BitVec.ofNat 64 ((k.cr 0x02).toNat + 64 * t.code), delay := none, rep := none }

theorem cr_trappedCore (m : Nat) : (trappedCore k t epc ds rep).cr m =
    if m = 0x01 then 2 else if m = 0x07 then k.cr 0x01
    else if m = 0x06 then (rep.map (BitVec.ofNat 64)).getD (k.cr 0x06)
    else if m = 0x05 then t.eaddr else if m = 0x04 then BitVec.ofNat 64 (causeOf t ds rep)
    else if m = 0x03 then epc else k.cr m := by
  change ((Core.setCr (Core.setCr _ 0x07 (k.cr 0x01)) 0x01 2)).cr m = _
  cases rep <;> simp only [Core.cr_setCr, Option.map_none, Option.map_some, Option.getD_none, Option.getD_some]
  · by_cases h6 : m = 0x06 <;> simp [h6]

theorem g_trappedCore (r : Nat) : (trappedCore k t epc ds rep).g r = k.g r := by
  cases rep <;> simp only [trappedCore, Core.g, Core.setCr]

theorem mem_trappedCore : (trappedCore k t epc ds rep).mem = k.mem := by
  cases rep <;> simp only [trappedCore, Core.mem_setCr]

theorem state_trappedCore : (trappedCore k t epc ds rep).state = k.state := by
  cases rep <;> simp only [trappedCore, Core.state_setCr]

/-- ECAUSE keeps REP at its bit 9: the code and DS stand below it. -/
theorem causeOf_rep (hcode : t.code < 256) : bitOf (BitVec.ofNat 64 (causeOf t ds rep)).toNat 9 = rep.isSome := by
  cases ds <;> cases rep <;> simp [bitOf, causeOf, b2n, Nat.testBit, Nat.shiftRight_eq_div_pow] <;> omega

theorem cr_returnFromTrap_status : (returnFromTrap k).cr 0x01 = k.cr 0x07 &&& 3 :=
  (Core.cr_setCr ..).trans (if_pos rfl)

/-- The return resumes the repetition that the trap broke off, from EREP (R478). -/
theorem rep_returnFromTrap_trappedCore (hcode : t.code < 256) :
    (returnFromTrap (trappedCore k t epc ds rep)).rep =
      if rep.isSome then some ((trappedCore k t epc ds rep).cr 0x06).toNat else none := by
  have hcause : (trappedCore k t epc ds rep).cr 0x04 = BitVec.ofNat 64 (causeOf t ds rep) := cr_trappedCore _
  rw [returnFromTrap, hcause, causeOf_rep hcode]

/-! ## The two ends of a trap -/

theorem coreOf_faultCore : coreOf (faultCore s c code) c = { coreOf s c with state := .faulted, rep := none, delay := none } :=
  coreOf_setCore_same ..

/-- The core has taken the trap: its state with the count of R479 and the registers saved. -/
theorem coreOf_takeTrap (hin : ((coreOf s c).cr 0x01).toNat.testBit 1 = false)
    (hvector : firstRefused s c 30 (((coreOf s c).cr 0x02).toNat + 64 * t.code) 1 = none) :
    coreOf (takeTrap s c t epc ds rep) c = trappedCore (coreOf s c) t epc ds rep := by
  unfold takeTrap
  simp only [bitOf, hin, hvector, Option.isSome_none, Bool.false_eq_true, if_false, coreOf_setCore_same]
  rfl

theorem takeTrap_in_handler (hin : ((coreOf s c).cr 0x01).toNat.testBit 1 = true) :
    takeTrap s c t epc ds rep = faultCore s c t.code := by
  unfold takeTrap
  simp only [bitOf, hin, if_true]

/-- Where the vector may not be fetched, the core faults with its registers saved (log 223). -/
theorem takeTrap_refused_vector (hin : ((coreOf s c).cr 0x01).toNat.testBit 1 = false)
    (hvector : (firstRefused s c 30 (((coreOf s c).cr 0x02).toNat + 64 * t.code) 1).isSome = true) :
    ∃ u, takeTrap s c t epc ds rep = faultCore u c t.code ∧ coreOf u c = trappedCore (coreOf s c) t epc ds rep ∧
      coreRegs u = coreRegs s := by
  unfold takeTrap
  simp only [bitOf, hin, hvector, Bool.false_eq_true, if_false, if_true]
  refine ⟨_, rfl, coreOf_setCore_same .., ?_⟩
  split <;> rfl

/-- A trap that faults the core leaves its general registers and its memory, whichever way it comes. -/
theorem takeTrap_faults (h : ((coreOf s c).cr 0x01).toNat.testBit 1 = true ∨
      (firstRefused s c 30 (((coreOf s c).cr 0x02).toNat + 64 * t.code) 1).isSome = true) :
    ∃ u, takeTrap s c t epc ds rep = faultCore u c t.code ∧ (∀ r, (coreOf u c).g r = (coreOf s c).g r) ∧
      (coreOf u c).mem = (coreOf s c).mem ∧ coreRegs u = coreRegs s := by
  cases hin : ((coreOf s c).cr 0x01).toNat.testBit 1 with
  | true => exact ⟨s, takeTrap_in_handler hin, fun _ => rfl, rfl, rfl⟩
  | false =>
    obtain ⟨u, htaken, hcore, hregs⟩ := takeTrap_refused_vector (epc := epc) (ds := ds) (rep := rep) hin
      (h.resolve_left (by simp [hin]))
    exact ⟨u, htaken, fun r => hcore ▸ g_trappedCore r, hcore ▸ mem_trappedCore, hregs⟩

theorem live_faultCore (hcode : code < 256) :
    live (faultCore s c code) (coreRegs s Reg.GLY_CORE_STATUS c) 23 16 = code :=
  (live_setLive_same s _ 23 16 code (by decide)).trans (Nat.mod_eq_of_lt hcode)

end Sys2Proof.Machine
end

section
/-! Settles O10 and O11. -/

namespace Sys2Proof.Machine

/-- Settles O10: the core after the trap is `trappedCore`, and the return reads back what that saved. -/
theorem takingATrapSavesWhatR478Says : Obligations.TakingATrapSavesWhatR478Says := by
  intro s c t epc ds rep _ hcode hin hvector
  dsimp only
  rw [coreOf_takeTrap hin hvector]
  refine ⟨cr_trappedCore _, cr_trappedCore _, cr_trappedCore _, ?_, ?_, cr_trappedCore _, cr_trappedCore _, rfl, rfl, rfl,
    g_trappedCore, mem_trappedCore, state_trappedCore, cr_trappedCore _, ?_, ?_, ?_⟩
  · rintro n rfl
    exact cr_trappedCore _
  · rintro rfl
    exact cr_trappedCore _
  · rw [cr_returnFromTrap_status, cr_trappedCore]
    rfl
  · rintro n rfl hn
    rw [rep_returnFromTrap_trappedCore hcode, cr_trappedCore]
    simpa using hn
  · rintro rfl
    exact rep_returnFromTrap_trappedCore hcode

/-- Settles O11: within a handler the core faults as it stands; where the vector is refused, with its registers saved. -/
theorem aTrapInAHandlerFaultsTheCore : Obligations.ATrapInAHandlerFaultsTheCore := by
  intro s c t epc ds rep _ hcode
  refine ⟨fun hin => ?_, fun hin hvector => ?_, fun hfaults => ?_, fun n => rfl⟩
  · rw [takeTrap_in_handler hin, coreOf_faultCore]
    exact ⟨rfl, fun _ => rfl⟩
  · obtain ⟨u, htaken, hcore, -⟩ := takeTrap_refused_vector (epc := epc) (ds := ds) (rep := rep) hin hvector
    rw [htaken, coreOf_faultCore, hcore]
    exact ⟨rfl, cr_trappedCore _, cr_trappedCore _, cr_trappedCore _, cr_trappedCore _, cr_trappedCore _⟩
  · obtain ⟨u, htaken, hg, hmem, hregs⟩ := takeTrap_faults (epc := epc) (ds := ds) (rep := rep) hfaults
    rw [htaken, coreOf_faultCore, ← hregs]
    exact ⟨rfl, rfl, rfl, hg, hmem, live_faultCore hcode⟩

end Sys2Proof.Machine
end

section
/-! SUPPORT. The run of one Goley instruction that issues (R508 steps 1 to 7 passed): it retires, or its own effect traps. -/

namespace Sys2Proof.Tab

/-- The later of two writes at one key stands. -/
theorem set_set {α : Type} (m : Tab α) (n : Nat) (x y : α) : set (set m n x) n y = set m n y := by
  induction m with
  | nil => simp [set]
  | cons p m ih =>
    rcases lt_trichotomy n p.1 with h | h | h
    · simp [set, h]
    · simp [set, h]
    · simp [set, ih, h.not_gt, h.ne']

end Sys2Proof.Tab

namespace Sys2Proof.Machine

variable {s u : State} {c : Nat} {i : GIns} {t : Trap} {f : State → GRes} {a : Fin 32} {n : BitVec 8} {p : GPre}

theorem decodeTrap_of_issueTrap (h : issueTrap s c i none = none) : decodeTrap s c i = none := by
  unfold issueTrap at h
  split at h
  · cases h
  · assumption

theorem runIns_retires (h : issues s c i) (hf : f s = .ok u) : runIns s c i none f = .next (retired s c i u) := by
  obtain ⟨hrun, hissue, hleft⟩ := h
  unfold rounds at hleft
  simp only [runIns, hrun, decodeTrap_of_issueTrap hissue, hissue, hf, retired, rounds, if_neg hleft, ne_eq,
    not_true_eq_false, if_false]

theorem runIns_traps (h : issues s c i) (hf : f s = .error t) : runIns s c i none f = .next (trapped s c i t) := by
  obtain ⟨hrun, hissue, hleft⟩ := h
  unfold rounds at hleft
  simp only [runIns, hrun, decodeTrap_of_issueTrap hissue, hissue, hf, trapped, rounds, if_neg hleft, ne_eq,
    not_true_eq_false, if_false]

theorem runCrr_retires (h : issues s c ⟨p, 0x06, .c a n⟩) (hcr : crTrap s c n.toNat false = none) :
    runCrr c p a n s =
      .next (retired s c ⟨p, 0x06, .c a n⟩ (putG (crRead s c n.toNat).2 c a (crRead s c n.toNat).1)) := by
  unfold runCrr
  rw [hcr]
  exact runIns_retires h rfl

/-- A control register that may be written is written, unless the write waits for room for an EMIT (R484). -/
theorem runCrw_eq (hcr : crTrap s c n.toNat true = none) (hroom : n ≠ 0x26 ∨ (coreOf s c).emitq.length < 8) :
    runCrw c p a n s = runIns s c ⟨p, 0x07, .c a n⟩ none (fun s' => crWrite s' c n.toNat ((coreOf s c).g a.val)) := by
  have hwaits : ¬ (n = 0x26 ∧ (coreOf s c).state = .running ∧ 8 ≤ (coreOf s c).emitq.length ∧
      emitOk ((coreOf s c).g a.val).toNat ∧ (issueTrap s c ⟨p, 0x07, .c a n⟩ none).isNone) :=
    fun ⟨hn, _, hfull, _⟩ => hroom.elim (· hn) (Nat.not_lt.mpr hfull)
  unfold runCrw
  rw [if_neg hwaits, hcr]

theorem runCrw_retires (h : issues s c ⟨p, 0x07, .c a n⟩) (hcr : crTrap s c n.toNat true = none)
    (hroom : n ≠ 0x26 ∨ (coreOf s c).emitq.length < 8) (hw : crWrite s c n.toNat ((coreOf s c).g a.val) = .ok u) :
    runCrw c p a n s = .next (retired s c ⟨p, 0x07, .c a n⟩ u) :=
  (runCrw_eq hcr hroom).trans (runIns_retires h hw)

theorem runCrw_traps (h : issues s c ⟨p, 0x07, .c a n⟩) (hcr : crTrap s c n.toNat true = none)
    (hroom : n ≠ 0x26 ∨ (coreOf s c).emitq.length < 8) (hw : crWrite s c n.toNat ((coreOf s c).g a.val) = .error t) :
    runCrw c p a n s = .next (trapped s c ⟨p, 0x07, .c a n⟩ t) :=
  (runCrw_eq hcr hroom).trans (runIns_traps h hw)

/-! ## The registers of the queues (R482 to R485) -/

theorem setCore_setCore (s : State) (c : Nat) (x y : Core) : setCore (setCore s c x) c y = setCore s c y := by
  simp only [setCore, Tab.set_set]

/-- INQ_POP reads the oldest entry, or 0, and leaves the rest (R482). -/
theorem putG_crRead_inq (s : State) (c : Nat) (a : Fin 32) :
    putG (crRead s c 0x21).2 c a (crRead s c 0x21).1 =
      putG (setCore s c { coreOf s c with inq := (coreOf s c).inq.tail }) c a (BitVec.ofNat 64 ((coreOf s c).inq.headD 0)) := by
  cases hq : (coreOf s c).inq with
  | nil =>
    have hread : crRead s c 0x21 = (0, s) := by simp [crRead, hq]
    have hsame : { coreOf s c with inq := [] } = coreOf s c := by rw [← hq]
    rw [hread]
    simp only [List.tail_nil, hsame, putG, setCore_setCore, coreOf_setCore_same]
    rfl
  | cons x l =>
    have hread : crRead s c 0x21 = (BitVec.ofNat 64 x, setCore s c { coreOf s c with inq := l }) := by simp [crRead, hq]
    rw [hread]
    rfl

/-- EMIT queues a value that the spec allows and refuses any other (R484). -/
theorem execEmit_eq (h : issues s c ⟨{}, 0x07, .c a 0x26⟩) (hroom : (coreOf s c).emitq.length < 8) :
    exec (.emit c a) s = .next (if emitOk ((coreOf s c).g a.val).toNat then
      retired s c ⟨{}, 0x07, .c a 0x26⟩
        (setCore s c { coreOf s c with emitq := (coreOf s c).emitq ++ [((coreOf s c).g a.val).toNat] })
      else trapped s c ⟨{}, 0x07, .c a 0x26⟩ { code := 0x01 }) := by
  have hwrite (v : DWord) : crWrite s c 0x26 v = if emitOk v.toNat
      then .ok (setCore s c { coreOf s c with emitq := (coreOf s c).emitq ++ [v.toNat] }) else .error { code := 0x01 } := rfl
  split
  · next hok => exact runCrw_retires h rfl (.inr hroom) ((hwrite _).trans (if_pos hok))
  · next hok => exact runCrw_traps h rfl (.inr hroom) ((hwrite _).trans (if_neg hok))

/-- SUBMIT offers the 64 bytes at its offset as a ticket of the core (R485). -/
theorem coreSubmit_of_data {v : Nat} (h : poisoned s c (v % 524288 / 64 * 64) 64 = false) :
    let s1 := (readCore s c (v % 524288 / 64 * 64) 64).2
    let r := submitTicket s1 (.core (coreUnit s1 c)) (memRead (coreOf s1 c).mem (v % 524288 / 64 * 64) 64)
    let res := match r.1 with
      | some tag => tag + 65536
      | none => 131072
    coreSubmit s c v = .ok (setCore r.2 c ((coreOf r.2 c).setCr 0x2C (BitVec.ofNat 64 res))) := by
  exact if_neg (by simp [h])

/-- Settles O13: INQ_POP, INQ_FREE, EMIT and SUBMIT are reads and writes of control registers 0x21, 0x22, 0x26 and 0x2B. -/
theorem coreQueuesAndTicketsThroughControlRegisters : Obligations.CoreQueuesAndTicketsThroughControlRegisters := by
  intro s c a
  refine ⟨fun h => ?_, fun h => ?_, execEmit_eq, fun h hdata => ?_⟩
  · rw [← putG_crRead_inq]
    exact runCrr_retires h rfl
  · exact runCrw_retires h rfl (.inl (by decide)) rfl
  · exact runCrw_retires h rfl (.inl (by decide)) (coreSubmit_of_data hdata)

end Sys2Proof.Machine
end

section
/-! O14 fails: the end of a scrub frees the tickets whose completions it drops, and a fenced one takes its ring slots with it. -/

namespace Sys2Proof.Machine

/-- The entry of the ticket, which is fenced. -/
def fencedEntry : Entry where
  t := { inst := 1, line := 0, len := 64 }
  sub := .core 88
  fenced := true

/-- A completion of the ticket, of another tenant than core 16's owner, that waits for room. -/
def strandedCompletion : Completion where
  cookie := 0
  outLen := 0
  tag := 0
  status := 0
  unit := 0
  inst := 1
  line := 0
  sub := .core 88

/-- A held core with ring slot 0 of the ticket, and a byte 1 in it. -/
def heldCore : Core where
  state := .held
  mem := [(0, 1#8)]
  slots := [(0, 0)]

/-- Core 16 is scrubbed, with the completion; core 17 is held, with the slot. -/
def scrubWithFencedTicket : State where
  cores := [(16, { state := .scrubbing, backlog := [strandedCompletion] }), (17, heldCore)]
  sbx := { store := [(0, fencedEntry)] }

theorem memByte_memWrite_zeros (m : Tab Byte) (a n x : Nat) :
    memByte (memWrite m a (List.replicate n 0#8)) x = if a ≤ x ∧ x < a + n then 0#8 else memByte m x := by
  rw [memByte_memWrite, List.length_replicate]
  split
  · exact List.getD_replicate _ (by omega)
  · rfl

/-- Pages that are zeroed one after the other: a byte of any of them reads as zero, and so does one that read so before. -/
theorem memByte_foldl_zeros {α : Type} (g : α → Nat) (n : Nat) {x : Nat} (l : List α) : ∀ m : Tab Byte,
    (memByte m x = 0#8 ∨ ∃ y ∈ l, g y ≤ x ∧ x < g y + n) →
    memByte (l.foldl (fun m y => memWrite m (g y) (List.replicate n 0#8)) m) x = 0#8 := by
  induction l with
  | nil => exact fun m h => h.resolve_right (by simp)
  | cons y l ih =>
    refine fun m h => ih _ ?_
    rw [memByte_memWrite_zeros]
    rcases h with hm | ⟨z, hz, hx⟩
    · exact .inl (by split <;> simp [hm])
    · rcases List.mem_cons.mp hz with rfl | hz
      · exact .inl (if_pos hx)
      · exact .inr ⟨z, hz, hx⟩

theorem mem_dropSlots (k : Core) (tag : Nat) : (dropSlots k tag).mem = (k.slots.filter (fun y => y.2 == tag)).foldl
    (fun m y => memWrite m (k.slotAddr y.1) (List.replicate 4096 0#8)) k.mem := rfl

/-- The page of a slot that is held for the ticket reads as zero once the slots are dropped (R483, R491). -/
theorem memByte_dropSlots {k : Core} {slot tag x : Nat} (hslot : (slot, tag) ∈ k.slots)
    (hx : k.slotAddr slot ≤ x ∧ x < k.slotAddr slot + 4096) : memByte (dropSlots k tag).mem x = 0#8 := by
  have hmine : (slot, tag) ∈ k.slots.filter (fun y => y.2 == tag) := List.mem_filter.mpr ⟨hslot, beq_self_eq_true tag⟩
  rw [mem_dropSlots]
  exact memByte_foldl_zeros (fun y : Nat × Nat => k.slotAddr y.1) 4096 _ _ (.inr ⟨_, hmine, hx⟩)

/-- The end of the scrub frees the fenced ticket, which takes its slots of the held core with it (R491). -/
theorem coreOf_freeTicket_fenced : coreOf (freeTicket scrubWithFencedTicket 0 fencedEntry) 17 = dropSlots heldCore 0 := rfl

theorem execCoreScrubDone_heldCore :
    Nexts (exec (.coreScrubDone 16) scrubWithFencedTicket) (fun t => coreOf t 17 = dropSlots heldCore 0) :=
  ⟨_, rfl, coreOf_freeTicket_fenced⟩

/-- Refutes O14: the scrub clause says that the memory of every other core stays, and the ring slot of a fenced ticket
does not when the end of the scrub frees the ticket. -/
theorem not_coreStatesMoveAsR487 : ¬ Obligations.CoreStatesMoveAsR487 := by
  intro h
  obtain ⟨-, -, hscrub, -⟩ := h scrubWithFencedTicket 16 0 []
  obtain ⟨t, ht, -, -, -, -, hothers⟩ := hscrub rfl
  obtain ⟨t', ht', hheld⟩ := execCoreScrubDone_heldCore
  obtain rfl : t = t' := Host.Outcome.next.inj (ht.symm.trans ht')
  have hkept : memByte (coreOf t 17).mem 0 = 1#8 := congrArg (memByte · 0) (hothers 17 (by decide)).2
  rw [hheld, memByte_dropSlots (List.mem_singleton.mpr rfl) ⟨Nat.le_refl 0, by decide⟩] at hkept
  exact absurd hkept (by decide)

end Sys2Proof.Machine
end

section
/-! SUPPORT. What a write of a core's local memory and the queueing of an input entry change (R45, R482, R483). -/

namespace Sys2Proof.Machine

variable {s t : State} {c c' : Nat}

/-! ## Local memory -/

/-- A core that differs from `k` in its error marks alone. -/
def SameButMarks (k k' : Core) : Prop := ∃ m, k' = { k with marks := m }

theorem SameButMarks.refl (k : Core) : SameButMarks k k := ⟨k.marks, rfl⟩

theorem coreOf_injectedSymbols (s : State) (kind u c : Nat) : coreOf (injectedSymbols s kind u).2 c = coreOf s c :=
  coreOf_congr ((injectedSymbols_keeps s kind u).cores rfl) c

theorem SameButMarks.setCoreMark {k : Core} (h : SameButMarks k (coreOf s c)) (w n : Nat) :
    SameButMarks k (coreOf (setCoreMark s c w n) c) := by
  obtain ⟨m, hm⟩ := h
  exact ⟨Tab.put 0 (coreOf s c).marks w n, (coreOf_setCore_same ..).trans (by rw [hm])⟩

/-- A core's local memory after a write holds the bytes; beside it only the error marks change. -/
theorem coreOf_writeCore (s : State) (c a : Nat) (bs : Bytes) :
    SameButMarks { coreOf s c with mem := memWrite (coreOf s c).mem a bs } (coreOf (writeCore s c a bs) c) := by
  unfold writeCore
  refine List.foldlRecOn (motive := fun t => SameButMarks _ (coreOf t c)) _ _ ?_ fun t ht w _ => ?_
  · rw [coreMemWrite, coreOf_setCore_same]
    exact .refl _
  · dsimp only
    split
    · exact ht
    · refine SameButMarks.setCoreMark ?_ _ _
      rwa [coreOf_injectedSymbols]

theorem coreOf_writeCore_other (a : Nat) (bs : Bytes) (h : c' ≠ c) : coreOf (writeCore s c a bs) c' = coreOf s c' := by
  unfold writeCore
  refine List.foldlRecOn (motive := fun t => coreOf t c' = coreOf s c') _ _ (coreOf_setCore_other _ _ h) fun t ht w _ => ?_
  dsimp only
  split
  · exact ht
  · exact (coreOf_setCore_other _ _ h).trans ((coreOf_injectedSymbols ..).trans ht)

theorem mem_writeCore (s : State) (c a : Nat) (bs : Bytes) :
    (coreOf (writeCore s c a bs) c).mem = memWrite (coreOf s c).mem a bs := by
  obtain ⟨m, hm⟩ := coreOf_writeCore s c a bs
  rw [hm]

/-! ## The input queue -/

theorem coreOf_wakeCore (s : State) (c : Nat) : ∃ st, coreOf (wakeCore s c) c = { coreOf s c with state := st } := by
  unfold wakeCore
  dsimp only
  split
  · exact ⟨_, coreOf_setCore_same ..⟩
  · exact ⟨(coreOf s c).state, rfl⟩

/-- The core with ring slot `slot` held for the ticket and its entry queued (R482). -/
def queuedCore (k : Core) (tag step slot : Nat) (p : Packet) : Core :=
  let x := modCoreTicket (enterCore k tag step) tag (fun t => { t with
    prov := t.prov || p.prov, ranges := t.ranges ++ [(p.off, p.data.length, p.station)] })
  { x with
    slots := x.slots ++ [(slot, tag)],
    inq := x.inq ++ [inqEntry (!k.entered.contains tag) false p.prov false slot p.data.length tag] }

variable {k : Core} {tag step slot : Nat} {p : Packet}

theorem queuedCore_eq : ∃ ins ent idle slow, queuedCore k tag step slot p = { k with
    slots := k.slots ++ [(slot, tag)],
    inq := k.inq ++ [inqEntry (!k.entered.contains tag) false p.prov false slot p.data.length tag],
    inside := ins, entered := ent, idle := idle, slowed := slow } := by
  unfold queuedCore enterCore
  split <;> exact ⟨_, _, _, _, rfl⟩

/-- A packet enters a free slot of a core that is not slowed. -/
theorem ringPut_of_freeSlot (hslot : freeSlot (coreOf s c) = some slot) (hslow : (coreOf s c).slowed = false) :
    ringPut s c tag step p = some (wakeCore (writeCore (setCore s c (queuedCore (coreOf s c) tag step slot p)) c
      ((coreOf s c).slotAddr slot) p.data) c) := by
  have hunslow : unslow s c = s := by simp [unslow, hslow]
  obtain ⟨ins, ent, idle, slow, hq⟩ := queuedCore_eq (k := coreOf s c) (tag := tag) (step := step) (slot := slot) (p := p)
  have haddr : (queuedCore (coreOf s c) tag step slot p).slotAddr slot = (coreOf s c).slotAddr slot := by rw [hq]; rfl
  rw [← haddr]
  unfold ringPut
  simp only [hslot, hunslow]
  rfl

/-- Its bytes stand at the slot, the slot is held for the ticket, and its entry is the last of the queue. -/
theorem ringPut_puts (hslot : freeSlot (coreOf s c) = some slot) (hslow : (coreOf s c).slowed = false) :
    ∃ t, ringPut s c tag step p = some t ∧
      memRead (coreOf t c).mem ((coreOf s c).slotAddr slot) p.data.length = p.data ∧ (slot, tag) ∈ (coreOf t c).slots ∧
      (coreOf t c).inq = (coreOf s c).inq ++
        [inqEntry (!(coreOf s c).entered.contains tag) false p.prov false slot p.data.length tag] ∧
      t.stn = s.stn := by
  refine ⟨_, ringPut_of_freeSlot hslot hslow, ?_⟩
  obtain ⟨ins, ent, idle, slow, hq⟩ := queuedCore_eq (k := coreOf s c) (tag := tag) (step := step) (slot := slot) (p := p)
  generalize hput : setCore s c (queuedCore (coreOf s c) tag step slot p) = u
  have hu : coreOf u c = queuedCore (coreOf s c) tag step slot p := hput ▸ coreOf_setCore_same ..
  have hstn : u.stn = s.stn := hput ▸ rfl
  obtain ⟨st, hwoken⟩ := coreOf_wakeCore (writeCore u c ((coreOf s c).slotAddr slot) p.data) c
  obtain ⟨m, hwritten⟩ := coreOf_writeCore u c ((coreOf s c).slotAddr slot) p.data
  rw [hwoken, hwritten, hu, hq]
  refine ⟨memRead_memWrite .., List.mem_append_right _ (List.mem_singleton.mpr rfl), rfl, ?_⟩
  rw [(wakeCore_keeps _ _).stn rfl, (writeCore_keeps _ _ _ _).stn rfl, hstn]

end Sys2Proof.Machine
end

section
/-! Settles O15. -/

namespace Sys2Proof.Machine

variable {s t : State} {u tag slot : Nat} {e : Entry} {st : LStep} {p : Packet} {rest : List Work}

/-- A packet of a running ticket stands at the front of station `u`'s queue. -/
structure PacketWaits (s : State) (u : Nat) (e : Entry) (st : LStep) (p : Packet) (rest : List Work) : Prop where
  queue : inboxOf s u = .pkt p :: rest
  data : p.endTok = false
  entry : entryOf s p.tag = some e
  notFenced : e.fenced = false
  notRevoked : e.revoking = false
  step : (stepsOf s e)[p.step]? = some st
  kind : isCoreKind st = true

theorem inboxOf_setCtx_of_stn {step : Nat} {x : Ctx} (h : t.stn = (setInbox s u rest).stn) :
    inboxOf (setCtx t tag step x) u = rest :=
  ((inboxOf_setCtx ..).trans (inboxOf_congr h u)).trans (inboxOf_setInbox_same ..)

theorem loadOk_setInbox (s : State) (u : Nat) (l : List Work) (e : Entry) (c unit step : Nat) :
    loadOk (setInbox s u l) e c unit step = loadOk s e c unit step := rfl

/-- PROGRAM puts the packet into the ring and counts its bytes. -/
theorem execProgram_of_ringPut (h : PacketWaits s u e st p rest) (hmode : st.mode = 0)
    (htakes : coreTakes (coreOf s (coreIndex s u)) = true)
    (hput : ringPut (setInbox s u rest) (coreIndex s u) p.tag p.step p = some t) :
    exec (.program u) s = .next (setCtx t p.tag p.step { ctxOf s p.tag p.step with
      inBytes := (ctxOf s p.tag p.step).inBytes + p.data.length }) := by
  refine congrArg Host.Outcome.next ((serveAt_packet h.queue h.entry h.notFenced h.notRevoked h.step
    (by simp [h.kind, hmode, htakes])).trans ?_)
  simp only [h.data, hput]
  rfl

/-- LOAD writes the packet at DEST's offset plus its own and counts its bytes. -/
theorem execLoad_of_room (h : PacketWaits s u e st p rest) (hmode : st.mode = 1)
    (hok : loadOk (setInbox s u rest) e (coreIndex s u) u p.step = true)
    (hfits : e.t.dest.addr + p.off + p.data.length ≤ 524288) :
    let x := ctxOf s p.tag p.step
    let a := e.t.dest.addr + p.off
    exec (.load u) s = .next (setCtx (writeCore (setInbox s u rest) (coreIndex s u) a p.data) p.tag p.step { x with
      inBytes := x.inBytes + p.data.length, outBytes := x.outBytes + p.data.length,
      wrote := x.wrote ++ [(a, p.data.length)] }) := by
  refine congrArg Host.Outcome.next ((serveAt_packet h.queue h.entry h.notFenced h.notRevoked h.step
    (by simp [h.kind, hmode])).trans ?_)
  simp only [h.data, hok, Nat.not_lt.mpr hfits]
  rfl

/-- Settles O15. -/
theorem coreStationTakesTransfers : Obligations.CoreStationTakesTransfers := by
  intro s u tag e st p rest c hqueue hdata htag hentry hfenced hrevoked hstep hkind _
  subst htag
  have hwaits : PacketWaits s u e st p rest := ⟨hqueue, hdata, hentry, hfenced, hrevoked, hstep, hkind⟩
  refine ⟨fun slot hmode hslot htakes hslow => ?_, fun hmode hstopped hdest hmid hlast hfits => ?_⟩
  · obtain ⟨t, hput, hmem, hheld, hinq, hstn⟩ := ringPut_puts (s := setInbox s u rest) (tag := p.tag) (step := p.step)
      (p := p) hslot hslow
    exact ⟨_, execProgram_of_ringPut hwaits hmode htakes hput, hmem, hheld, ⟨_, hinq⟩, inboxOf_setCtx_of_stn hstn⟩
  · have hok : loadOk (setInbox s u rest) e c u p.step = true :=
      (loadOk_setInbox ..).trans (by simp [loadOk, hstopped, hdest, hmid, hlast])
    have hmem := mem_writeCore (setInbox s u rest) c (e.t.dest.addr + p.off) p.data
    refine ⟨_, execLoad_of_room hwaits hmode hok hfits, ?_, inboxOf_setCtx_of_stn ((writeCore_keeps ..).stn rfl), fun x hx => ?_⟩
    · exact (congrArg (memRead · _ _) hmem).trans (memRead_memWrite ..)
    · exact (congrArg (memByte · x) hmem).trans (memByte_memWrite_other hx)

end Sys2Proof.Machine
end

section
/-! SUPPORT. What one access of a core reads and writes, memory by memory (R472, R520). -/

namespace Sys2Proof.Machine

variable {s : State} {c a n v i b j : Nat}

/-! ## Code words without symbols in error -/

theorem marks_pageAccess (s : State) (c p : Nat) : (pageAccess s c p).drc.marks = s.drc.marks := by
  unfold pageAccess
  dsimp only
  split
  · rfl
  · split <;> rfl

theorem marks_groupAccess (s : State) (c d : Nat) : (groupAccess s c d).drc.marks = s.drc.marks := by
  unfold groupAccess
  dsimp only
  split
  · exact marks_pageAccess ..
  · exact (marks_pageAccess ..).trans (marks_pageAccess ..)

/-- An access of DRAM moves its rows and counters, never a code word. -/
theorem marks_rangeAccess (s : State) (i a n : Nat) : (rangeAccess s i a n).drc.marks = s.drc.marks := by
  unfold rangeAccess
  refine List.foldlRecOn (motive := fun t : State => t.drc.marks = s.drc.marks) _ _ rfl fun t ht k _ => ?_
  dsimp only
  split
  · exact (marks_groupAccess ..).trans ht
  · exact ht

theorem readWords_of_clean {tag : Option Nat} (h : ∀ w, Tab.getD s.drc.marks (lword i w) 0 = 0) :
    readWords s i a n tag = (true, s) := by
  unfold readWords
  refine List.foldlRecOn (motive := fun r => r = (true, s)) _ _ rfl ?_
  rintro _ rfl w _
  exact if_pos (h w)

theorem readCore_of_clean (h : ∀ w, Tab.getD (coreOf s c).marks w 0 = 0) : readCore s c a n = (true, s) := by
  unfold readCore
  refine List.foldlRecOn (motive := fun r => r = (true, s)) _ _ rfl ?_
  rintro _ rfl w _
  exact if_pos (h w)

theorem lmemTake_of_clean {tag : Option Nat} (hpages : ∀ p, pageGone s i p = false)
    (hmarks : ∀ w, Tab.getD s.drc.marks (lword i w) 0 = 0) : lmemTake s i a n tag = (true, rangeAccess s i a n) := by
  have hfound : (pageSpan a n).find? (pageGone s i) = none := List.find?_eq_none.mpr fun p _ => by simp [hpages p]
  unfold lmemTake
  rw [hfound]
  exact readWords_of_clean (by rwa [marks_rangeAccess])

/-! ## Loads -/

theorem regionOf_local (h : a < 0x80000) : regionOf s c a = 1 := if_pos h

theorem coreLoad_local (h : a < 0x80000) (hclean : ∀ w, Tab.getD (coreOf s c).marks w 0 = 0) :
    coreLoad s c a n = (leNat (memRead (coreOf s c).mem a n), s) := by
  simp only [coreLoad, regionLoad, regionOf_local h, readCore_of_clean hclean, ne_eq, not_true_eq_false, false_and, if_false]

theorem coreLoad_of_flit (h : (coreOf s c).flit ≠ .altered) : coreLoad s c a n = regionLoad s c a n :=
  if_neg fun ⟨_, hflit⟩ => h hflit

/-- A load of clean local memory reads its bytes and leaves every memory. -/
theorem homeLoad_of_clean (hpages : ∀ p, pageGone s i p = false) (hmarks : ∀ w, Tab.getD s.drc.marks (lword i w) 0 = 0) :
    (homeLoad s (i, b) n).1 = leNat (memRead (Tab.getD s.lmem i []) b n) ∧ (homeLoad s (i, b) n).2.lmem = s.lmem ∧
      (homeLoad s (i, b) n).2.cores = s.cores ∧ (homeLoad s (i, b) n).2.dram = s.dram := by
  have hkept := rangeAccess_keeps s i b n
  have hload : homeLoad s (i, b) n =
      (leNat (lmemRead (rangeAccess s i b n) i b n), rangeAccess s i b n) := by
    simp only [homeLoad, lmemTake_of_clean hpages hmarks]
  rw [hload]
  refine ⟨?_, hkept.lmem rfl, hkept.cores rfl, hkept.dram rfl⟩
  rw [lmemRead, hkept.lmem rfl]

theorem coreLoad_lmem (hregion : regionOf s c a = 2) (hflit : (coreOf s c).flit ≠ .altered) :
    coreLoad s c a n = homeLoad s ((unitOf s (coreUnit s c)).owner, a - 0x1000000000) n := by
  rw [coreLoad_of_flit hflit]
  simp only [regionLoad, hregion]

theorem coreLoad_home (hregion : regionOf s c a = 4) (hhome : dramHome s (a - 0x4000000000) = some (i, b))
    (hflit : (coreOf s c).flit ≠ .altered) : coreLoad s c a n = homeLoad s (i, b) n := by
  rw [coreLoad_of_flit hflit]
  simp only [regionLoad, hregion, hhome]

theorem coreLoad_dram (hregion : regionOf s c a = 4) (hhome : dramHome s (a - 0x4000000000) = none)
    (hflit : (coreOf s c).flit ≠ .altered) :
    coreLoad s c a n = (leNat (memRead s.dram (a - 0x4000000000) n), s) := by
  rw [coreLoad_of_flit hflit]
  simp only [regionLoad, hregion, hhome]

/-! ## Stores -/

theorem coreStore_local (h : a < 0x80000) : coreStore s c a n v = writeCore s c a (natLe n v) := by
  simp only [coreStore, regionOf_local h]

theorem coreStore_lmem (hregion : regionOf s c a = 2) :
    coreStore s c a n v = lmemPut s (unitOf s (coreUnit s c)).owner (a - 0x1000000000) (natLe n v) := by
  simp only [coreStore, hregion]

theorem coreStore_home (hregion : regionOf s c a = 4) (hhome : dramHome s (a - 0x4000000000) = some (i, b)) :
    coreStore s c a n v = lmemPut s i b (natLe n v) := by
  simp only [coreStore, hregion, hhome]

theorem coreStore_dram (hregion : regionOf s c a = 4) (hhome : dramHome s (a - 0x4000000000) = none) :
    coreStore s c a n v = { s with dram := memWrite s.dram (a - 0x4000000000) (natLe n v) } := by
  simp only [coreStore, hregion, hhome]

theorem lmem_lmemPut (s : State) (i a : Nat) (bs : Bytes) :
    (lmemPut s i a bs).lmem = Tab.put [] s.lmem i (memWrite (Tab.getD s.lmem i []) a bs) := by
  have hplaced : (placePages s i a bs.length).lmem = s.lmem := (placePages_keeps ..).lmem rfl
  unfold lmemPut
  rw [(rangeAccess_keeps ..).lmem rfl, (writeWords_keeps ..).lmem rfl]
  simp only [lmemWrite, hplaced]

theorem memRead_memWrite_natLe (m : Tab Byte) (a n v : Nat) : memRead (memWrite m a (natLe n v)) a n = natLe n v := by
  simpa using memRead_memWrite m a (natLe n v)

theorem memByte_memWrite_natLe_other {m : Tab Byte} {x : Nat} (h : x < a ∨ a + n ≤ x) :
    memByte (memWrite m a (natLe n v)) x = memByte m x :=
  memByte_memWrite_other (by rwa [natLe_length])

/-- A store to local memory changes its bytes there, no other byte and no other memory. -/
theorem lmemPut_writes (s : State) (i b n v : Nat) :
    memRead (Tab.getD (lmemPut s i b (natLe n v)).lmem i []) b n = natLe n v ∧
      (∀ x, x < b ∨ b + n ≤ x →
        memByte (Tab.getD (lmemPut s i b (natLe n v)).lmem i []) x = memByte (Tab.getD s.lmem i []) x) ∧
      (∀ j, j ≠ i → Tab.getD (lmemPut s i b (natLe n v)).lmem j [] = Tab.getD s.lmem j []) ∧
      (lmemPut s i b (natLe n v)).cores = s.cores ∧ (lmemPut s i b (natLe n v)).dram = s.dram := by
  have hkept := lmemPut_keeps s i b (natLe n v)
  refine ⟨?_, fun x hx => ?_, fun j hj => ?_, hkept.cores rfl, hkept.dram rfl⟩
  · rw [lmem_lmemPut, Tab.getD_put_same]
    exact memRead_memWrite_natLe ..
  · rw [lmem_lmemPut, Tab.getD_put_same]
    exact memByte_memWrite_natLe_other hx
  · rw [lmem_lmemPut, Tab.getD_put_other _ _ _ hj]

/-- A store to a core's own memory changes its bytes there, no other byte, no other core and no other memory. -/
theorem writeCore_writes (s : State) (c a n v : Nat) :
    memRead (coreOf (writeCore s c a (natLe n v)) c).mem a n = natLe n v ∧
      (∀ x, x < a ∨ a + n ≤ x →
        memByte (coreOf (writeCore s c a (natLe n v)) c).mem x = memByte (coreOf s c).mem x) ∧
      (∀ c', c' ≠ c → (coreOf (writeCore s c a (natLe n v)) c').mem = (coreOf s c').mem) ∧
      (writeCore s c a (natLe n v)).lmem = s.lmem ∧ (writeCore s c a (natLe n v)).dram = s.dram := by
  have hkept := writeCore_keeps s c a (natLe n v)
  refine ⟨?_, fun x hx => ?_, fun c' hc => ?_, hkept.lmem rfl, hkept.dram rfl⟩
  · rw [mem_writeCore]
    exact memRead_memWrite_natLe ..
  · rw [mem_writeCore]
    exact memByte_memWrite_natLe_other hx
  · rw [coreOf_writeCore_other _ _ hc]

end Sys2Proof.Machine
end

section
/-! Settles O6. -/

namespace Sys2Proof.Machine

/-- Settles O6, region by region: LOCAL, LMEM, DRAM that holds a local memory, and the rest of DRAM. -/
theorem coreAccessesReachOneMemoryAndNoOtherByte : Obligations.CoreAccessesReachOneMemoryAndNoOtherByte := by
  intro s c a n v
  refine ⟨fun hfits hn => ?_, fun hregion => ?_, fun i b hregion hhome => ?_, fun hregion hhome => ?_⟩
  · have hlocal : a < 0x80000 := by omega
    rw [coreStore_local hlocal]
    exact ⟨coreLoad_local hlocal, writeCore_writes ..⟩
  · rw [coreStore_lmem hregion]
    refine ⟨fun hpages hmarks hflit => ?_, lmemPut_writes ..⟩
    rw [coreLoad_lmem hregion hflit]
    exact homeLoad_of_clean hpages hmarks
  · rw [coreStore_home hregion hhome]
    refine ⟨fun hpages hmarks hflit => ?_, lmemPut_writes ..⟩
    rw [coreLoad_home hregion hhome hflit]
    exact homeLoad_of_clean hpages hmarks
  · rw [coreStore_dram hregion hhome]
    exact ⟨coreLoad_dram hregion hhome, memRead_memWrite_natLe .., fun x => memByte_memWrite_natLe_other, rfl, rfl⟩

end Sys2Proof.Machine
end

section
/-! SUPPORT and O17. The decoder reads back what the encoder writes (14_goley_instructions.md, R501 to R508). -/

namespace Sys2Proof

variable {p : GPre} {bs : Bytes} {op : Nat}

/-! ## Slices and immediates (R507) -/

theorem slice_one (bs : Bytes) (k : Nat) : slice bs k 1 = [bs.getD k 0#8] := by
  have hhead : (bs.drop k)[0]? = bs[k]? := by simp only [List.getElem?_drop, Nat.add_zero]
  rw [List.getD_eq_getElem?_getD, ← hhead]
  cases h : bs.drop k <;> simp [slice, h]

theorem leAt_append_of_length (l more : Bytes) : leAt (l ++ more) 0 l.length = leNat l := by
  simp [leAt, slice]

theorem leAt_self (l : Bytes) : leAt l 0 l.length = leNat l := by
  simp [leAt, slice]

/-- An immediate reads only the bytes of its own size. -/
theorem gImm_append (l more : Bytes) : gImm l.length (l ++ more) = gImm l.length l := by
  unfold gImm
  simp only [leAt_append_of_length, leAt_self]

/-- An immediate that fits its size code is read back, whatever bytes follow it. -/
theorem gImm_natLe_append {z : Nat} {v : BitVec 64} (h : gImmFits z v = true) (more : Bytes) :
    gImm (gImmBytes z) (natLe (gImmBytes z) v.toNat ++ more) = v := by
  have hread := gImm_append (natLe (gImmBytes z) v.toNat) more
  rw [natLe_length] at hread
  exact hread.trans (eq_of_beq h)

theorem gImmBytes_le_eight {z : Nat} (h : z ≤ 4) : gImmBytes z ≤ 8 := by
  interval_cases z <;> decide

theorem gImmBytes_le_four {z : Nat} (h : z ≤ 3) : gImmBytes z ≤ 4 := by
  interval_cases z <;> decide

/-! ## Register bytes (R506) -/

@[simp] theorem gReg_toNat (r : Fin 32) : (gReg r).toNat = r.val := by
  simp only [gReg, BitVec.toNat_ofNat]; omega

@[simp] theorem gRegZ_toNat (r : Fin 32) (z : Fin 8) : (gRegZ r z).toNat = r.val + 32 * z.val := by
  simp only [gRegZ, BitVec.toNat_ofNat]; omega

@[simp] theorem gRegOf_gReg (r : Fin 32) : gRegOf (gReg r) = r := by
  apply Fin.ext; simp only [gRegOf, gReg_toNat]; omega

@[simp] theorem gRegOf_gRegZ (r : Fin 32) (z : Fin 8) : gRegOf (gRegZ r z) = r := by
  apply Fin.ext; simp only [gRegOf, gRegZ_toNat]; omega

@[simp] theorem gZOf_gRegZ (r : Fin 32) (z : Fin 8) : gZOf (gRegZ r z) = z := by
  apply Fin.ext; simp only [gZOf, gRegZ_toNat]; omega

/-! ## Prefixes (R502, R503) -/

theorem gPrefixes_rep (f : Nat) (p : GPre) (twice : Bool) (bs : Bytes) :
    gPrefixes (f + 1) p twice (0xF0#8 :: bs) = gPrefixes f { p with rep := true } (twice || p.rep) bs := rfl

theorem gPrefixes_w32 (f : Nat) (p : GPre) (twice : Bool) (bs : Bytes) :
    gPrefixes (f + 1) p twice (0xF1#8 :: bs) = gPrefixes f { p with w32 := true } (twice || p.w32) bs := rfl

theorem gPrefixes_rev (f : Nat) (p : GPre) (twice : Bool) (bs : Bytes) :
    gPrefixes (f + 1) p twice (0xF2#8 :: bs) = gPrefixes f { p with rev := true } (twice || p.rev) bs := rfl

theorem gPrefixes_mod (f : Nat) (p : GPre) (twice : Bool) (n : Fin 4) (bs : Bytes) :
    gPrefixes (f + 1) p twice (BitVec.ofNat 8 (0xF4 + n.val) :: bs) =
      gPrefixes f { p with mod := some n } (twice || p.mod.isSome) bs := by
  fin_cases n <;> rfl

/-- A byte that is none of the prefixes ends the prefixes. -/
theorem gPrefixes_opcode {b : Byte} (hb : b.toNat < 0xF0) (f : Nat) (p : GPre) (twice : Bool) (bs : Bytes) :
    gPrefixes f p twice (b :: bs) = some (p, twice, b :: bs) := by
  cases f <;> simp [gPrefixes, hb]

/-- The prefixes are read back, and none of them stands twice. -/
theorem gPrefixes_gPreBytes {b : Byte} (hb : b.toNat < 0xF0) (p : GPre) (bs : Bytes) :
    gPrefixes 4 {} false (gPreBytes p ++ b :: bs) = some (p, false, b :: bs) := by
  obtain ⟨rep, w32, rev, mod⟩ := p
  cases rep <;> cases w32 <;> cases rev <;> cases mod <;>
    simp [gPreBytes, gPrefixes_rep, gPrefixes_w32, gPrefixes_rev, gPrefixes_mod, gPrefixes_opcode hb]

theorem gPreBytes_length_le (p : GPre) :
    (gPreBytes p).length ≤ 3 + b2n p.w32 := by
  obtain ⟨rep, w32, rev, mod⟩ := p
  cases rep <;> cases w32 <;> cases rev <;> cases mod <;> simp [gPreBytes, b2n]

/-! ## Opcodes (R504, R505) -/

/-- A defined opcode is one byte below the escape, or an escaped byte. -/
theorem op_range_of_gFmt {f : GFmt} (h : gFmt op = some f) : op < 0xE0 ∨ 0xE000 ≤ op ∧ op ≤ 0xE012 := by
  by_contra hout
  have : gFmt op = none := by
    unfold gFmt
    simp (disch := omega) only [if_neg, ite_self]
  simp [this] at h

/-- An escaped opcode takes an immediate only in CPX (R505). -/
theorem fmt_of_escaped {f : GFmt} (h : gFmt op = some f) (hlo : 0xE000 ≤ op) :
    op = 0xE012 ∨ f = .n ∨ f = .g2 ∨ f = .g3 := by
  have hhi : op ≤ 0xE012 := (op_range_of_gFmt h).elim (fun hlt => by omega) And.right
  interval_cases op <;> simp_all [gFmt]

/-- The opcode bytes: the escape and its second byte, or one byte that is none of the prefixes. -/
theorem gOpBytes_of_gFmt {f : GFmt} (h : gFmt op = some f) :
    (∃ b, gOpBytes op = [b] ∧ b.toNat = op ∧ op < 0xE0) ∨
      ∃ b, gOpBytes op = [0xE0#8, b] ∧ 0xE000 + b.toNat = op ∧ op ≤ 0xE012 := by
  rcases op_range_of_gFmt h with hlt | ⟨hlo, hhi⟩
  · refine .inl ⟨BitVec.ofNat 8 op, if_neg (by omega), ?_, hlt⟩
    simp only [BitVec.toNat_ofNat]; omega
  · refine .inr ⟨BitVec.ofNat 8 (op - 0xE000), if_pos hlo, ?_, hhi⟩
    simp only [BitVec.toNat_ofNat]; omega

/-! ## Operands (R506) -/

/-- The operands stand in the format `f`, with every immediate one that its size code spells (R506, R507). -/
def GArgs.spelled : GArgs → GFmt → Prop
  | .n, f => f = .n
  | .g2 _ _, f => f = .g2
  | .g3 _ _ _, f => f = .g3
  | .g4 _ _ _ _, f => f = .g4
  | .i _ z v, f => f = .i ∧ gImmFits z.val v = true
  | .gi _ _ z v, f => f = .gi ∧ gImmFits z.val v = true
  | .m _ _ z v, f => f = .m ∧ gImmFits z.val v = true
  | .c _ _, f => f = .c
  | .k _ z lo hi, f => f = .k ∧ gImmFits z.val lo = true ∧ gImmFits z.val hi = true
  | .b _ _ _ z v, f => f = .b ∧ gImmFits z.val v = true
  | .j _ z v, f => f = .j ∧ gImmFits z.val v = true

/-- The operands are read back, whatever bytes follow. -/
theorem gArgs_gArgBytes {a : GArgs} {f : GFmt} (h : a.spelled f) (more : Bytes) :
    gArgs f (gArgBytes a ++ more) = some a := by
  cases a with
  | n => obtain rfl := h; rfl
  | g2 d a => obtain rfl := h; simp [gArgs, gArgBytes, slice_one]
  | g3 d a b => obtain rfl := h; simp [gArgs, gArgBytes, slice_one]
  | g4 d e a b => obtain rfl := h; simp [gArgs, gArgBytes, slice_one]
  | i d z v => obtain ⟨rfl, hv⟩ := h; simp [gArgs, gArgBytes, slice_one, gImm_natLe_append hv]
  | gi d a z v => obtain ⟨rfl, hv⟩ := h; simp [gArgs, gArgBytes, slice_one, gImm_natLe_append hv]
  | m d b z v => obtain ⟨rfl, hv⟩ := h; simp [gArgs, gArgBytes, slice_one, gImm_natLe_append hv]
  | c r n => obtain rfl := h; simp [gArgs, gArgBytes, slice_one]
  | k a z lo hi =>
    obtain ⟨rfl, hlo, hhi⟩ := h
    have hdrop : (natLe (gImmBytes z.val) lo.toNat ++ (natLe (gImmBytes z.val) hi.toNat ++ more)).drop
        (gImmBytes z.val) = natLe (gImmBytes z.val) hi.toNat ++ more := List.drop_left' (natLe_length ..)
    simp [gArgs, gArgBytes, slice_one, gImm_natLe_append hlo, Nat.add_comm 1, hdrop, gImm_natLe_append hhi]
  | b a cc b z v => obtain ⟨rfl, hv⟩ := h; simp [gArgs, gArgBytes, slice_one, gImm_natLe_append hv]
  | j d z v => obtain ⟨rfl, hv⟩ := h; simp [gArgs, gArgBytes, slice_one, gImm_natLe_append hv]

/-- Operands of an allowed size code take at most ten bytes. -/
theorem gArgBytes_length_le {a : GArgs} (h : gSizeOk a = true) : (gArgBytes a).length ≤ 10 := by
  cases a with
  | n | g2 | g3 | g4 | c => simp [gArgBytes]
  | i _ z _ | gi _ _ z _ | m _ _ z _ =>
    have := gImmBytes_le_eight (of_decide_eq_true h)
    simp only [gArgBytes, List.length_cons, natLe_length]
    omega
  | k _ z _ _ =>
    have := gImmBytes_le_four (of_decide_eq_true h)
    simp only [gArgBytes, List.length_cons, List.length_append, natLe_length]
    omega
  | b _ _ _ z _ | j _ z _ =>
    simp only [gSizeOk, Bool.and_eq_true, decide_eq_true_eq] at h
    have := gImmBytes_le_four h.2
    simp only [gArgBytes, List.length_cons, natLe_length]
    omega

theorem gArgBytes_length_le_three {a : GArgs} {f : GFmt} (ha : a.spelled f) (hf : f = .n ∨ f = .g2 ∨ f = .g3) :
    (gArgBytes a).length ≤ 3 := by
  cases a with
  | n | g2 | g3 | c => simp [gArgBytes]
  | g4 => obtain rfl := ha; simp at hf
  | i | gi | m | k | b | j => obtain ⟨rfl, -⟩ := ha; simp at hf

/-! ## The instruction (R501, R508) -/

theorem checks_of_gDecodeTrap {i : GIns} {inSlot : Bool} (h : gDecodeTrap i inSlot = none) :
    gSizeOk i.args = true ∧ gSameBase i = false ∧ gPrefixOk i.op i.pre = true := by
  unfold gDecodeTrap at h
  split at h
  · cases h
  · next hsize =>
    split at h
    · cases h
    · next hbase =>
      split at h
      · cases h
      · next hprefix =>
        simp only [Bool.or_eq_true, not_or, Bool.not_eq_true, Bool.not_eq_false'] at hsize hbase hprefix
        exact ⟨hsize.2, hbase, hprefix⟩

theorem gDecode_gEncode {i : GIns} {f : GFmt} {inSlot : Bool} (hf : gFmt i.op = some f) (ha : i.args.spelled f)
    (h : gDecodeTrap i inSlot = none) (more : Bytes) : gDecode (gEncode i ++ more) inSlot = .ok i (gLen i) := by
  obtain ⟨hsize, hbase, -⟩ := checks_of_gDecodeTrap h
  rcases gOpBytes_of_gFmt hf with ⟨b, hbytes, hb, hlt⟩ | ⟨b, hbytes, hb, -⟩
  · have hesc : i.op ≠ 0xE0 := by omega
    have hpre := gPrefixes_gPreBytes (b := b) (by omega) i.pre (gArgBytes i.args ++ more)
    simp [gDecode, gEncode, hbytes, hpre, hb, hesc, hf, gArgs_gArgBytes ha, hsize, hbase, h]
  · have hpre := gPrefixes_gPreBytes (b := 0xE0#8) (by decide) i.pre (b :: (gArgBytes i.args ++ more))
    have hop : 0xE000 + leAt (b :: (gArgBytes i.args ++ more)) 0 1 = i.op := by simp [leAt, slice, leNat, hb]
    simp [gDecode, gEncode, hbytes, hpre, hop, hf, gArgs_gArgBytes ha, hsize, hbase, h]

theorem gLen_le_fifteen {i : GIns} {f : GFmt} (hf : gFmt i.op = some f) (ha : i.args.spelled f)
    (hsize : gSizeOk i.args = true) (hp : gPrefixOk i.op i.pre = true) : gLen i ≤ 15 := by
  have hlen : gLen i = (gPreBytes i.pre).length + (gOpBytes i.op).length + (gArgBytes i.args).length := by
    simp only [gLen, gEncode, List.length_append]
  have hpre := gPreBytes_length_le i.pre
  have hw32 : b2n i.pre.w32 ≤ 1 := by cases i.pre.w32 <;> decide
  have hargs := gArgBytes_length_le hsize
  rcases gOpBytes_of_gFmt hf with ⟨b, hbytes, -⟩ | ⟨b, hbytes, hb, -⟩
  · simp only [hlen, hbytes, List.length_singleton]
    omega
  · simp only [hlen, hbytes, List.length_cons, List.length_nil]
    rcases fmt_of_escaped hf (by omega) with hcpx | hshort
    · have : i.pre.w32 = false := by
        rw [hcpx] at hp
        exact (by simpa [gPrefixOk] using hp : _ ∧ _).1
      simp only [this, b2n, Bool.false_eq_true, if_false] at hpre
      omega
    · have := gArgBytes_length_le_three ha hshort
      omega

/-- Settles O17: the prefixes, the opcode and the operands are each read back. -/
theorem goleyDecodeOfEncodeIsTheInstruction : Obligations.GoleyDecodeOfEncodeIsTheInstruction := by
  intro i inSlot more hspelled htrap
  have hargs : ∃ f, gFmt i.op = some f ∧ i.args.spelled f := by
    obtain ⟨pre, op, args⟩ := i
    cases args with
    | n => exact ⟨_, hspelled, rfl⟩
    | g2 | g3 | g4 | c => exact ⟨_, hspelled, rfl⟩
    | i | gi | m | k | b | j => exact ⟨_, hspelled.1, rfl, hspelled.2⟩
  obtain ⟨f, hf, ha⟩ := hargs
  obtain ⟨hsize, -, hprefix⟩ := checks_of_gDecodeTrap htrap
  exact ⟨gDecode_gEncode hf ha htrap more, gLen_le_fifteen hf ha hsize hprefix⟩

end Sys2Proof
end

section
/-! SUPPORT. Goley arithmetic is bit-vector arithmetic (14_goley_instructions.md, R514 to R519): the model computes with
numbers, and here each operation is the one on vectors of the operation width. -/

namespace Sys2Proof.Machine

variable {w : Nat} {p : GPre} {x y : DWord} {op : Nat}

/-! ## Sources and results of the operation width (R515) -/

theorem gResult_eq (p : GPre) (v : Int) : gResult p v = byWidth p (BitVec.ofInt 32 v) (BitVec.ofInt 64 v) := by
  unfold gResult byWidth gWidth
  cases p.w32
  · exact BitVec.ofInt_toInt
  · rfl

theorem gSrc_eq (p : GPre) (x : DWord) : gSrc p x = if p.w32 then (x.setWidth 32).toNat else x.toNat := by
  unfold gSrc gWidth
  cases p.w32
  · exact Nat.mod_eq_of_lt x.isLt
  · exact (BitVec.toNat_setWidth ..).symm

theorem gSigned_eq (p : GPre) (x : DWord) : gSigned p x = if p.w32 then (x.setWidth 32).toInt else x.toInt := by
  unfold gSigned
  rw [gSrc_eq]
  unfold gWidth
  cases p.w32
  · exact congrArg BitVec.toInt ((BitVec.ofNat_toNat ..).trans (BitVec.setWidth_eq x))
  · exact congrArg BitVec.toInt ((BitVec.ofNat_toNat ..).trans (BitVec.setWidth_eq (x.setWidth 32)))

/-! ## Two sources (R514) -/

theorem ofInt_toNat_add (a b : BitVec w) : BitVec.ofInt w ((a.toNat : Int) + b.toNat) = a + b := by
  rw [BitVec.ofInt_add, BitVec.ofInt_natCast, BitVec.ofInt_natCast, BitVec.ofNat_toNat, BitVec.ofNat_toNat,
    BitVec.setWidth_eq, BitVec.setWidth_eq]

theorem ofInt_toNat_sub (a b : BitVec w) : BitVec.ofInt w ((a.toNat : Int) - b.toNat) = a - b := by
  rw [Int.sub_eq_add_neg, BitVec.ofInt_add, BitVec.ofInt_neg, BitVec.ofInt_natCast, BitVec.ofInt_natCast,
    BitVec.ofNat_toNat, BitVec.ofNat_toNat, BitVec.setWidth_eq, BitVec.setWidth_eq, BitVec.sub_eq_add_neg]

theorem ofInt_toNat_and (a b : BitVec w) : BitVec.ofInt w ((a.toNat &&& b.toNat : Nat) : Int) = a &&& b := by
  rw [← BitVec.toNat_and, BitVec.ofInt_natCast, BitVec.ofNat_toNat, BitVec.setWidth_eq]

theorem ofInt_toNat_or (a b : BitVec w) : BitVec.ofInt w ((a.toNat ||| b.toNat : Nat) : Int) = a ||| b := by
  rw [← BitVec.toNat_or, BitVec.ofInt_natCast, BitVec.ofNat_toNat, BitVec.setWidth_eq]

theorem ofInt_toNat_xor (a b : BitVec w) : BitVec.ofInt w ((a.toNat ^^^ b.toNat : Nat) : Int) = a ^^^ b := by
  rw [← BitVec.toNat_xor, BitVec.ofInt_natCast, BitVec.ofNat_toNat, BitVec.setWidth_eq]

theorem ofInt_toNat_shiftLeft (a : BitVec w) (n : Nat) :
    BitVec.ofInt w (if w ≤ n then 0 else ((a.toNat * 2 ^ n : Nat) : Int)) = a <<< n := by
  split
  · next h => rw [BitVec.shiftLeft_eq_zero h]; rfl
  · rw [BitVec.ofInt_natCast]
    exact BitVec.eq_of_toNat_eq (by simp [Nat.shiftLeft_eq])

theorem ofInt_toNat_ushiftRight (a : BitVec w) (n : Nat) :
    BitVec.ofInt w (if w ≤ n then 0 else ((a.toNat / 2 ^ n : Nat) : Int)) = a >>> n := by
  split
  · next h => rw [BitVec.ushiftRight_eq_zero h]; rfl
  · rw [← Nat.shiftRight_eq_div_pow, ← BitVec.toNat_ushiftRight, BitVec.ofInt_natCast, BitVec.ofNat_toNat,
      BitVec.setWidth_eq]

/-- A shift by the width or more leaves copies of the sign. -/
theorem ofInt_toInt_sshiftRight (a : BitVec w) (n : Nat) :
    BitVec.ofInt w (if w ≤ n then (if a.toInt < 0 then -1 else 0) else a.toInt / 2 ^ n) = a.sshiftRight n := by
  rw [BitVec.sshiftRight_eq, Int.shiftRight_eq_div_pow]
  split
  · next h =>
    have hpow : (2 : Int) ^ w ≤ ((2 ^ n : Nat) : Int) := by
      push_cast
      exact pow_le_pow_right₀ (by decide) h
    have hlo := BitVec.le_two_mul_toInt (x := a)
    have hhi := BitVec.two_mul_toInt_lt (x := a)
    congr 1
    split
    · next hneg => exact (Int.ediv_eq_neg_one_of_neg_of_le hneg (by omega)).symm
    · next hneg => exact (Int.ediv_eq_zero_of_lt (by omega) (by omega)).symm
  · push_cast; rfl

theorem ofInt_toNat_mul (a b : BitVec w) : BitVec.ofInt w ((a.toNat * b.toNat : Nat) : Int) = a * b := by
  rw [BitVec.ofInt_natCast, BitVec.ofNat_mul, BitVec.ofNat_toNat, BitVec.ofNat_toNat, BitVec.setWidth_eq,
    BitVec.setWidth_eq]

/-- Of a number cut to twice the width, the high half is the quotient cut to the width. -/
theorem emod_mul_self_ediv (z : Int) {m : Int} (hm : 0 < m) : z % (m * m) / m = z / m % m := by
  have hsplit : z % (m * m) = z + m * (-(m * (z / m / m))) := by
    rw [Int.emod_def, Int.ediv_ediv_of_nonneg hm.le]
    ring
  rw [hsplit, Int.add_mul_ediv_left _ _ hm.ne', Int.emod_def]
  ring

theorem ofInt_toInt_mulHigh (a b : BitVec w) (v : Nat) (hv : v = 2 * w) :
    BitVec.ofInt w (a.toInt * b.toInt / 2 ^ w) = ((a.signExtend v * b.signExtend v) >>> w).setWidth w := by
  subst hv
  have hprod : a.signExtend (2 * w) * b.signExtend (2 * w) = BitVec.ofInt (2 * w) (a.toInt * b.toInt) :=
    (BitVec.ofInt_mul ..).symm
  apply BitVec.eq_of_toNat_eq
  rw [hprod, BitVec.toNat_setWidth, BitVec.toNat_ushiftRight, BitVec.toNat_ofInt, BitVec.toNat_ofInt,
    Nat.shiftRight_eq_div_pow]
  have hhigh := emod_mul_self_ediv (a.toInt * b.toInt) (m := 2 ^ w) (by positivity)
  rw [← pow_add, ← two_mul] at hhigh
  zify
  rw [Int.toNat_of_nonneg (Int.emod_nonneg _ (by positivity)), Int.toNat_of_nonneg (Int.emod_nonneg _ (by positivity))]
  rw [hhigh, Int.emod_emod_of_dvd _ (dvd_refl _)]

theorem ofInt_toNat_mulHigh (a b : BitVec w) (v : Nat) (hv : v = 2 * w) :
    BitVec.ofInt w ((a.toNat * b.toNat / 2 ^ w : Nat) : Int) = ((a.setWidth v * b.setWidth v) >>> w).setWidth w := by
  subst hv
  have hlt : a.toNat * b.toNat < 2 ^ (2 * w) := by
    rw [two_mul, pow_add]
    exact Nat.mul_lt_mul'' a.isLt b.isLt
  have ha : a.toNat % 2 ^ (2 * w) = a.toNat := Nat.mod_eq_of_lt (a.isLt.trans_le (Nat.pow_le_pow_right (by decide) (by omega)))
  have hb : b.toNat % 2 ^ (2 * w) = b.toNat := Nat.mod_eq_of_lt (b.isLt.trans_le (Nat.pow_le_pow_right (by decide) (by omega)))
  rw [BitVec.ofInt_natCast]
  apply BitVec.eq_of_toNat_eq
  rw [BitVec.toNat_ofNat, BitVec.toNat_setWidth, BitVec.toNat_ushiftRight, BitVec.toNat_mul, BitVec.toNat_setWidth,
    BitVec.toNat_setWidth, ha, hb, Nat.mod_eq_of_lt hlt, Nat.shiftRight_eq_div_pow]

theorem gAlu_eq (h : 0x10 ≤ op ∧ op ≤ 0x1A) (p : GPre) (x y : DWord) : gAlu op p x y = aluResult op p x y := by
  obtain ⟨hlo, hhi⟩ := h
  unfold gAlu aluResult
  interval_cases op <;> simp only [gResult_eq, gSrc_eq, gSigned_eq, gWidth, byWidth] <;> cases p.w32 <;>
    simp only [if_true, if_false, Bool.false_eq_true, ofInt_toNat_add, ofInt_toNat_sub, ofInt_toNat_and, ofInt_toNat_or,
      ofInt_toNat_xor, ofInt_toNat_shiftLeft, ofInt_toNat_ushiftRight, ofInt_toInt_sshiftRight, ofInt_toNat_mul,
      ofInt_toInt_mulHigh (w := 32) _ _ 64 rfl, ofInt_toInt_mulHigh (w := 64) _ _ 128 rfl,
      ofInt_toNat_mulHigh (w := 32) _ _ 64 rfl, ofInt_toNat_mulHigh (w := 64) _ _ 128 rfl]

/-! ## One source (R514) -/

theorem ofInt_neg_toNat (a : BitVec w) : BitVec.ofInt w (0 - (a.toNat : Int)) = -a := by
  rw [Int.zero_sub, BitVec.ofInt_neg, BitVec.ofInt_natCast, BitVec.ofNat_toNat, BitVec.setWidth_eq]

theorem ofInt_not_toNat (a : BitVec w) : BitVec.ofInt w (2 ^ w - 1 - (a.toNat : Int)) = ~~~a := by
  have hlt := a.isLt
  have hcast : (2 ^ w - 1 - (a.toNat : Int)) = ((2 ^ w - 1 - a.toNat : Nat) : Int) := by
    have : (2 : Int) ^ w = ((2 ^ w : Nat) : Int) := by push_cast; rfl
    omega
  rw [hcast, ← BitVec.toNat_not, BitVec.ofInt_natCast, BitVec.ofNat_toNat, BitVec.setWidth_eq]

/-- The count from bit `n` down. -/
theorem clzAuxRec_eq_gClz (a : BitVec w) : ∀ n, n < w → a.clzAuxRec n = BitVec.ofNat w (w - 1 - n + gClz (n + 1) a.toNat)
  | 0, hn => by
    rw [BitVec.clzAuxRec_zero, BitVec.getLsbD]
    split
    · next h => simp [gClz, h]
    · next h => simp [gClz, h, show w - 1 + 1 = w by omega]
  | n + 1, hn => by
    have hstep : gClz (n + 1 + 1) a.toNat = if a.toNat.testBit (n + 1) then 0 else 1 + gClz (n + 1) a.toNat := rfl
    rw [BitVec.clzAuxRec_succ, BitVec.getLsbD, clzAuxRec_eq_gClz a n (by omega), hstep]
    split
    · rfl
    · rw [show w - 1 - n = w - 1 - (n + 1) + 1 by omega, Nat.add_assoc]

theorem gClz_eq_clz (hw : 0 < w) (a : BitVec w) : BitVec.ofNat w (gClz w a.toNat) = a.clz := by
  obtain ⟨n, rfl⟩ : ∃ n, w = n + 1 := ⟨w - 1, by omega⟩
  rw [BitVec.clz, clzAuxRec_eq_gClz a _ (by omega)]
  simp

theorem getLsbD_reverse_eq (a : BitVec w) {n : Nat} (hn : n < w) :
    a.reverse.getLsbD n = decide (a.toNat / 2 ^ (w - 1 - n) % 2 = 1) := by
  rw [BitVec.getLsbD_reverse, BitVec.getMsbD, BitVec.getLsbD, Nat.testBit_eq_decide_div_mod_eq]
  simp [hn]

/-- The count from bit `w - 1 - n` up: the reversed vector holds that bit at `n`. -/
theorem clzAuxRec_reverse_eq_gCtz (a : BitVec w) : ∀ n, n < w →
    a.reverse.clzAuxRec n = BitVec.ofNat w (w - 1 - n + gCtz (n + 1) (a.toNat / 2 ^ (w - 1 - n)))
  | 0, hn => by
    rw [BitVec.clzAuxRec_zero, getLsbD_reverse_eq a hn]
    by_cases h : a.toNat / 2 ^ (w - 1) % 2 = 1
    · simp [gCtz, h]
    · simp [gCtz, h, show w - 1 + 1 = w by omega]
  | n + 1, hn => by
    have hstep (v : Nat) : gCtz (n + 1 + 1) v = if v % 2 = 1 then 0 else 1 + gCtz (n + 1) (v / 2) := rfl
    have hhalf : a.toNat / 2 ^ (w - 1 - (n + 1)) / 2 = a.toNat / 2 ^ (w - 1 - n) := by
      rw [Nat.div_div_eq_div_mul, ← pow_succ, show w - 1 - (n + 1) + 1 = w - 1 - n by omega]
    rw [BitVec.clzAuxRec_succ, getLsbD_reverse_eq a hn, clzAuxRec_reverse_eq_gCtz a n (by omega), hstep, hhalf]
    by_cases h : a.toNat / 2 ^ (w - 1 - (n + 1)) % 2 = 1
    · simp [h]
    · simp only [h, decide_false, Bool.false_eq_true, if_false]
      rw [show w - 1 - n = w - 1 - (n + 1) + 1 by omega, Nat.add_assoc]

theorem gCtz_eq_ctz (hw : 0 < w) (a : BitVec w) : BitVec.ofNat w (gCtz w a.toNat) = a.ctz := by
  obtain ⟨n, rfl⟩ : ∃ n, w = n + 1 := ⟨w - 1, by omega⟩
  rw [BitVec.ctz, BitVec.clz, clzAuxRec_reverse_eq_gCtz a _ (by omega)]
  simp

theorem gPopc_succ_top : ∀ n v : Nat, gPopc (n + 1) v = gPopc n v + (v.testBit n).toNat
  | 0, v => by rcases Nat.mod_two_eq_zero_or_one v with h | h <;> simp [gPopc, h]
  | n + 1, v => by rw [gPopc, gPopc_succ_top n, gPopc, Nat.testBit_succ, Nat.add_assoc]

theorem cpopNatRec_eq_gPopc (a : BitVec w) : ∀ n, a.cpopNatRec n 0 = gPopc n a.toNat
  | 0 => rfl
  | n + 1 => by
    rw [BitVec.cpopNatRec_succ, BitVec.cpopNatRec_eq, cpopNatRec_eq_gPopc a n, gPopc_succ_top, Nat.zero_add]
    rfl

theorem gPopc_eq_cpop (a : BitVec w) : BitVec.ofNat w (gPopc w a.toNat) = a.cpop := by
  rw [BitVec.cpop, cpopNatRec_eq_gPopc]

theorem toNat_append_byte {n : Nat} (a : BitVec n) (b : BitVec 8) : (a ++ b).toNat = b.toNat + 256 * a.toNat := by
  rw [BitVec.toNat_append, ← Nat.shiftLeft_add_eq_or_of_lt b.isLt, Nat.shiftLeft_eq, Nat.add_comm, Nat.mul_comm]

theorem natLe_four (a : BitVec w) : natLe 4 a.toNat =
    [a.extractLsb' 0 8, a.extractLsb' 8 8, a.extractLsb' 16 8, a.extractLsb' 24 8] := by
  simp [natLe, BitVec.extractLsb', Nat.shiftRight_eq_div_pow, Nat.div_div_eq_div_mul]

theorem natLe_eight (a : BitVec w) : natLe 8 a.toNat =
    [a.extractLsb' 0 8, a.extractLsb' 8 8, a.extractLsb' 16 8, a.extractLsb' 24 8, a.extractLsb' 32 8,
      a.extractLsb' 40 8, a.extractLsb' 48 8, a.extractLsb' 56 8] := by
  simp [natLe, BitVec.extractLsb', Nat.shiftRight_eq_div_pow, Nat.div_div_eq_div_mul]

theorem ofNat_eq_of_toNat {n : Nat} {b : BitVec w} (h : n = b.toNat) : BitVec.ofNat w n = b := by
  rw [h, BitVec.ofNat_toNat, BitVec.setWidth_eq]

/-- The bytes of a word, spelled from the other end. -/
theorem ofNat_reversed_bytes_32 (x : DWord) :
    BitVec.ofNat 32 (leNat (natLe 4 (x.setWidth 32).toNat).reverse) =
      x.extractLsb' 0 8 ++ x.extractLsb' 8 8 ++ x.extractLsb' 16 8 ++ x.extractLsb' 24 8 := by
  have hbyte {k : Nat} (h : k + 8 ≤ 32) := BitVec.extractLsb'_setWidth_of_le (b := x) h
  rw [natLe_four, hbyte (by decide), hbyte (by decide), hbyte (by decide), hbyte (by decide)]
  refine ofNat_eq_of_toNat ?_
  simp only [toNat_append_byte]
  rfl

theorem ofNat_reversed_bytes_64 (x : DWord) :
    BitVec.ofNat 64 (leNat (natLe 8 x.toNat).reverse) =
      x.extractLsb' 0 8 ++ x.extractLsb' 8 8 ++ x.extractLsb' 16 8 ++ x.extractLsb' 24 8 ++ x.extractLsb' 32 8 ++
        x.extractLsb' 40 8 ++ x.extractLsb' 48 8 ++ x.extractLsb' 56 8 := by
  rw [natLe_eight]
  refine ofNat_eq_of_toNat ?_
  simp only [toNat_append_byte]
  rfl

/-- An operation with one source is given by what it does at either width. -/
theorem gResult_of_widths {f : Nat → Nat → Int} {v32 : BitVec 32} {v64 : BitVec 64} (p : GPre) (x : DWord)
    (h32 : BitVec.ofInt 32 (f 32 (x.setWidth 32).toNat) = v32) (h64 : BitVec.ofInt 64 (f 64 x.toNat) = v64) :
    gResult p (f (gWidth p) (gSrc p x)) = byWidth p v32 v64 := by
  rw [gResult_eq, gSrc_eq, ← h32, ← h64]
  unfold byWidth gWidth
  cases p.w32 <;> simp only [if_true, if_false, Bool.false_eq_true]

theorem gUnary_neg (p : GPre) (x : DWord) : gUnary 0x1E p x = byWidth p (-x.setWidth 32) (-x) :=
  gResult_of_widths (f := fun _ n => 0 - (n : Int)) p x (ofInt_neg_toNat _) (ofInt_neg_toNat _)

theorem gUnary_not (p : GPre) (x : DWord) : gUnary 0x1F p x = byWidth p (~~~x.setWidth 32) (~~~x) :=
  gResult_of_widths (f := fun w n => 2 ^ w - 1 - (n : Int)) p x (ofInt_not_toNat _) (ofInt_not_toNat _)

theorem gUnary_clz (p : GPre) (x : DWord) : gUnary 0xE001 p x = byWidth p (x.setWidth 32).clz x.clz :=
  gResult_of_widths (f := fun w n => (gClz w n : Nat)) p x
    ((BitVec.ofInt_natCast ..).trans (gClz_eq_clz (by decide) _)) ((BitVec.ofInt_natCast ..).trans (gClz_eq_clz (by decide) _))

theorem gUnary_ctz (p : GPre) (x : DWord) : gUnary 0xE002 p x = byWidth p (x.setWidth 32).ctz x.ctz :=
  gResult_of_widths (f := fun w n => (gCtz w n : Nat)) p x
    ((BitVec.ofInt_natCast ..).trans (gCtz_eq_ctz (by decide) _)) ((BitVec.ofInt_natCast ..).trans (gCtz_eq_ctz (by decide) _))

theorem gUnary_popc (p : GPre) (x : DWord) : gUnary 0xE003 p x = byWidth p (x.setWidth 32).cpop x.cpop :=
  gResult_of_widths (f := fun w n => (gPopc w n : Nat)) p x
    ((BitVec.ofInt_natCast ..).trans (gPopc_eq_cpop _)) ((BitVec.ofInt_natCast ..).trans (gPopc_eq_cpop _))

theorem gUnary_bswap (p : GPre) (x : DWord) : gUnary 0xE004 p x = byWidth p
    (x.extractLsb' 0 8 ++ x.extractLsb' 8 8 ++ x.extractLsb' 16 8 ++ x.extractLsb' 24 8)
    (x.extractLsb' 0 8 ++ x.extractLsb' 8 8 ++ x.extractLsb' 16 8 ++ x.extractLsb' 24 8 ++ x.extractLsb' 32 8 ++
      x.extractLsb' 40 8 ++ x.extractLsb' 48 8 ++ x.extractLsb' 56 8) :=
  gResult_of_widths (f := fun w n => (leNat (natLe (w / 8) n).reverse : Nat)) p x
    ((BitVec.ofInt_natCast ..).trans (ofNat_reversed_bytes_32 x)) ((BitVec.ofInt_natCast ..).trans (ofNat_reversed_bytes_64 x))

/-! ## Comparisons (R518) -/

theorem gCond_eq {n : Nat} (h : n ≤ 5) (p : GPre) (x y : DWord) : gCond n p x y = setHolds n p x y := by
  unfold gCond setHolds
  interval_cases n <;> simp only [gSrc_eq, gSigned_eq] <;> cases p.w32 <;>
    simp only [if_true, if_false, Bool.false_eq_true, BitVec.slt, BitVec.ult, BitVec.sle, BitVec.ule, bne, beq_eq_decide,
      BitVec.toNat_inj]

/-! ## Division (R516) -/

theorem ofInt_tdiv (a b : BitVec w) : BitVec.ofInt w (a.toInt.tdiv b.toInt) = a.sdiv b :=
  BitVec.eq_of_toInt_eq (by rw [BitVec.toInt_ofInt, BitVec.toInt_sdiv])

theorem ofInt_tmod (a b : BitVec w) : BitVec.ofInt w (a.toInt.tmod b.toInt) = a.srem b := by
  rw [← BitVec.toInt_srem, BitVec.ofInt_toInt]

theorem ofInt_toNat_div (a b : BitVec w) : BitVec.ofInt w ((a.toNat / b.toNat : Nat) : Int) = a / b := by
  rw [← BitVec.toNat_udiv, BitVec.ofInt_natCast, BitVec.ofNat_toNat, BitVec.setWidth_eq]

theorem ofInt_toNat_mod (a b : BitVec w) : BitVec.ofInt w ((a.toNat % b.toNat : Nat) : Int) = a % b := by
  rw [← BitVec.toNat_umod, BitVec.ofInt_natCast, BitVec.ofNat_toNat, BitVec.setWidth_eq]

theorem gSrc_eq_zero (p : GPre) (y : DWord) :
    (gSrc p y = 0) ↔ (if p.w32 then y.setWidth 32 == 0 else y == 0) = true := by
  rw [gSrc_eq]
  cases p.w32 <;> simp only [if_true, if_false, Bool.false_eq_true, beq_iff_eq, ← BitVec.toNat_inj] <;> rfl

theorem gDivide_signed (hop : op ≠ 0x1C) (h : gSrc p y ≠ 0) : gDivide op p x y =
    .ok (byWidth p ((x.setWidth 32).sdiv (y.setWidth 32)) (x.sdiv y), byWidth p ((x.setWidth 32).srem (y.setWidth 32)) (x.srem y)) := by
  simp only [gDivide, if_neg h, if_neg hop, gResult_eq, gSigned_eq, byWidth]
  cases p.w32 <;> simp only [if_true, if_false, Bool.false_eq_true, ofInt_tdiv, ofInt_tmod]

theorem gDivide_unsigned (h : gSrc p y ≠ 0) : gDivide 0x1C p x y =
    .ok (byWidth p (x.setWidth 32 / y.setWidth 32) (x / y), byWidth p (x.setWidth 32 % y.setWidth 32) (x % y)) := by
  rw [gDivide, if_neg h, if_pos rfl]
  simp only [gResult_eq, gSrc_eq, byWidth]
  cases p.w32 <;> simp only [if_true, if_false, Bool.false_eq_true, ofInt_toNat_div, ofInt_toNat_mod]

theorem gDivide_zero (hop : op ≠ 0x1D) (h : gSrc p y = 0) : gDivide op p x y = .error { code := 0x06 } := by
  simp only [gDivide, if_pos h, if_neg hop]

theorem gResult_signed (p : GPre) (x : DWord) : gResult p (gSigned p x) = byWidth p (x.setWidth 32) x := by
  simp only [gResult_eq, gSigned_eq, byWidth]
  cases p.w32 <;> simp only [if_true, if_false, Bool.false_eq_true, BitVec.ofInt_toInt]

/-- DIVN by zero (R516): the quotient is all ones, the remainder the dividend. -/
theorem gDivide_divn_zero (h : gSrc p y = 0) : gDivide 0x1D p x y = .ok (-1, byWidth p (x.setWidth 32) x) := by
  have hones : gResult p (-1) = -1 := by
    rw [gResult_eq, byWidth]
    cases p.w32 <;> rfl
  simp only [gDivide, if_pos h, if_true, gResult_signed, hones]

end Sys2Proof.Machine
end

section
/-! Settles O1, O2, O3 and O18: results of the Goley register and immediate forms (14_goley_instructions.md, R501 to R507, R514 to
R519). -/

namespace Sys2Proof.Machine

variable {s : State} {c op n : Nat} {p : GPre} {d e a b : Fin 32} {z : Fin 8} {v : DWord}

/-- Settles O18: each word, read byte by byte. -/
theorem goleyWordsDecodeAsTheSpecWritesThem : Obligations.GoleyWordsDecodeAsTheSpecWritesThem := by
  unfold Obligations.GoleyWordsDecodeAsTheSpecWritesThem
  decide

/-! ## The classes of instructions -/

theorem runAlu3_retires (hop : 0x10 ≤ op ∧ op ≤ 0x1A) (h : issues s c ⟨p, op, .g3 d a b⟩) :
    runAlu3 op c p d a b s = .next (retired s c ⟨p, op, .g3 d a b⟩
      (putG s c d (aluResult op p ((coreOf s c).g a.val) ((coreOf s c).g b.val)))) := by
  rw [← gAlu_eq hop]
  exact runIns_retires h rfl

theorem runAlu2_retires {r : DWord} (h : issues s c ⟨p, op, .g2 d a⟩) (hr : gUnary op p ((coreOf s c).g a.val) = r) :
    runAlu2 op c p d a s = .next (retired s c ⟨p, op, .g2 d a⟩ (putG s c d r)) := by
  rw [← hr]
  exact runIns_retires h rfl

theorem runAluI_retires (hop : 0x10 ≤ gImmAs op ∧ gImmAs op ≤ 0x1A) (h : issues s c ⟨p, op, .gi d a z v⟩) :
    runAluI op c p d a z v s = .next (retired s c ⟨p, op, .gi d a z v⟩
      (putG s c d (aluResult (gImmAs op) p ((coreOf s c).g a.val) v))) := by
  rw [← gAlu_eq hop]
  exact runIns_retires h rfl

theorem setResult_eq (hn : n ≤ 5) (p : GPre) (x y : DWord) : setResult n p x y = BitVec.ofNat 64 (b2n (gCond n p x y)) := by
  rw [setResult, ← gCond_eq hn]
  cases gCond n p x y <;> rfl

theorem runSet3_retires (hn : n ≤ 5) (h : issues s c ⟨p, 0x30 + n, .g3 d a b⟩) :
    runSet3 (0x30 + n) c p d a b s = .next (retired s c ⟨p, 0x30 + n, .g3 d a b⟩
      (putG s c d (setResult n p ((coreOf s c).g a.val) ((coreOf s c).g b.val)))) := by
  rw [setResult_eq hn]
  exact runIns_retires h (by rw [Nat.add_sub_cancel_left])

theorem runSetI_retires (hn : n ≤ 5) (h : issues s c ⟨p, 0x48 + n, .gi d a z v⟩) :
    runSetI (0x48 + n) c p d a z v s = .next (retired s c ⟨p, 0x48 + n, .gi d a z v⟩
      (putG s c d (setResult n p ((coreOf s c).g a.val) v))) := by
  rw [setResult_eq hn]
  exact runIns_retires h (by rw [Nat.add_sub_cancel_left])

theorem runDiv_retires {q r : DWord} (h : issues s c ⟨p, op, .g4 d e a b⟩)
    (hq : gDivide op p ((coreOf s c).g a.val) ((coreOf s c).g b.val) = .ok (q, r)) :
    runDiv op c p d e a b s = .next (retired s c ⟨p, op, .g4 d e a b⟩ (putG (putG s c d q) c e r)) :=
  runIns_retires h (by simp only [hq])

theorem runDiv_traps (h : issues s c ⟨p, op, .g4 d e a b⟩)
    (hq : gDivide op p ((coreOf s c).g a.val) ((coreOf s c).g b.val) = .error { code := 0x06 }) :
    runDiv op c p d e a b s = .next (trapped s c ⟨p, op, .g4 d e a b⟩ { code := 0x06 }) :=
  runIns_traps h (by simp only [hq])

/-! ## The statements -/

/-- Settles O1: every form writes what its operation on bit vectors gives. -/
theorem goleyArithmeticWritesTheSpecsResult : Obligations.GoleyArithmeticWritesTheSpecsResult := by
  intro s c p d a b x y
  exact ⟨runAlu3_retires (by decide), runAlu3_retires (by decide), runAlu3_retires (by decide), runAlu3_retires (by decide),
    runAlu3_retires (by decide), runAlu3_retires (by decide), runAlu3_retires (by decide), runAlu3_retires (by decide),
    runAlu3_retires (by decide), runAlu3_retires (by decide), runAlu3_retires (by decide),
    (runAlu2_retires · (gUnary_neg p x)), (runAlu2_retires · (gUnary_not p x)), (runAlu2_retires · (gUnary_clz p x)),
    (runAlu2_retires · (gUnary_ctz p x)), (runAlu2_retires · (gUnary_popc p x)), (runAlu2_retires · (gUnary_bswap p x))⟩

/-- Settles O2: the divisor is judged in the operation width; then the quotient and the remainder are those of the vectors. -/
theorem goleyDivisionFollowsItsEdges : Obligations.GoleyDivisionFollowsItsEdges := by
  intro s c p d e a b x y zero done sq sr
  by_cases hzero : zero = true
  · have hy : gSrc p y = 0 := (gSrc_eq_zero p y).mpr hzero
    simp only [hzero, if_true]
    exact ⟨(runDiv_traps · (gDivide_zero (by decide) hy)), (runDiv_traps · (gDivide_zero (by decide) hy)),
      (runDiv_retires · (gDivide_divn_zero hy))⟩
  · have hy : gSrc p y ≠ 0 := fun hy => hzero ((gSrc_eq_zero p y).mp hy)
    simp only [hzero, Bool.false_eq_true, if_false]
    exact ⟨(runDiv_retires · (gDivide_signed (by decide) hy)), (runDiv_retires · (gDivide_unsigned hy)),
      (runDiv_retires · (gDivide_signed (by decide) hy))⟩

/-- Settles O3: the immediate forms act as the register forms, and LI as a move of the operation width. -/
theorem goleyComparesAndImmediatesWriteTheSpecsResult : Obligations.GoleyComparesAndImmediatesWriteTheSpecsResult := by
  intro s c p d a b z v x y
  refine ⟨runSet3_retires (n := 0) (by decide), runSet3_retires (n := 1) (by decide), runSet3_retires (n := 2) (by decide),
    runSet3_retires (n := 3) (by decide), runSet3_retires (n := 4) (by decide), runSet3_retires (n := 5) (by decide),
    runSetI_retires (n := 0) (by decide), runSetI_retires (n := 1) (by decide), runSetI_retires (n := 2) (by decide),
    runSetI_retires (n := 3) (by decide), runSetI_retires (n := 4) (by decide), runSetI_retires (n := 5) (by decide),
    runAluI_retires (by decide), runAluI_retires (by decide), runAluI_retires (by decide), runAluI_retires (by decide),
    runAluI_retires (by decide), runAluI_retires (by decide), runAluI_retires (by decide), runAluI_retires (by decide),
    fun h => ?_⟩
  rw [← gResult_signed]
  exact runIns_retires (f := fun s => .ok (putG s c d (gResult p (gSigned p v)))) h rfl

end Sys2Proof.Machine
end

section
/-! SUPPORT, O9 and O16. What follows an instruction that ran, and its frame (R526, R530; R509, R514 to R519). -/

namespace Sys2Proof.Machine

variable {s : State} {c n left : Nat} {k k' : Core} {i : GIns} {d : Fin 32} {v : DWord}

/-! ## General registers and what stands beside them -/

@[simp] theorem Core.g_zero (k : Core) : k.g 0 = 0 := rfl

theorem Core.g_setG (k : Core) (n m : Nat) (v : DWord) : (k.setG n v).g m = if m = n ∧ m ≠ 0 then v else k.g m := by
  unfold Core.setG Core.g
  by_cases hn : n = 0 <;> by_cases hm : m = 0 <;> simp_all [Tab.getD_put, eq_comm]

/-- What no instruction of R514 to R519 touches: the core but for its general registers, pc, repetition, delay slot and run
state. -/
def Core.still (k : Core) : Core := { k with
  gpr := [], pc := 0, rep := none, delay := none, state := .stopped, stopAsked := false, holdAsked := false }

theorem Core.still_setG (k : Core) (n : Nat) (v : DWord) : (k.setG n v).still = k.still := by
  unfold Core.setG
  split <;> rfl

theorem Core.eq_of_still (h : k'.still = k.still) : { k' with
    gpr := k.gpr, pc := k.pc, rep := k.rep, delay := k.delay, state := k.state, stopAsked := k.stopAsked,
    holdAsked := k.holdAsked } = k :=
  congrArg (fun x : Core => { x with
    gpr := k.gpr, pc := k.pc, rep := k.rep, delay := k.delay, state := k.state, stopAsked := k.stopAsked,
    holdAsked := k.holdAsked }) h

/-! ## What follows an instruction (R526, R530) -/

/-- The core once the link of a branch is written (R526). -/
def Core.linked (k : Core) (link : Option Nat) (v : DWord) : Core := link.elim k (fun r => k.setG r v)

theorem Core.still_linked (k : Core) (link : Option Nat) (v : DWord) : (k.linked link v).still = k.still := by
  cases link with
  | none => rfl
  | some r => exact k.still_setG r v

theorem Core.g_linked (k : Core) (link : Option Nat) (v : DWord) (n : Nat) :
    (k.linked link v).g n = if link = some n ∧ n ≠ 0 then v else k.g n := by
  cases link with
  | none => rfl
  | some r =>
    rw [Core.linked, Option.elim_some, Core.g_setG]
    simp only [Option.some.injEq, eq_comm]

theorem retire_repeats (h : left ≠ 0) (k : Core) (len : Nat) : retire k len left = { k with rep := some left } :=
  if_pos h

theorem retire_passes (h : k.delay = none) (len : Nat) :
    retire k len 0 = { k with rep := none, pc := k.pc + BitVec.ofNat 64 len } := by
  simp only [retire, ne_eq, not_true_eq_false, if_false, h]

theorem retire_slot {b : Delay} (h : k.delay = some b) (len : Nat) :
    retire k len 0 = { k.linked b.link (k.pc + BitVec.ofNat 64 len) with
      rep := none, pc := b.target.getD (k.pc + BitVec.ofNat 64 len), delay := none } := by
  obtain ⟨branch, target, link⟩ := b
  cases link with
  | none => simp only [retire, ne_eq, not_true_eq_false, if_false, h, Core.linked, Option.elim_none]
  | some r =>
    simp only [retire, ne_eq, not_true_eq_false, if_false, h, Core.linked, Option.elim_some, Core.setG]
    split <;> rfl

theorem still_retire (k : Core) (len left : Nat) : (retire k len left).still = k.still := by
  by_cases h : left = 0
  · subst h
    cases hd : k.delay with
    | none => rw [retire_passes hd]; rfl
    | some b => rw [retire_slot hd]; exact k.still_linked ..
  · rw [retire_repeats h]; rfl

/-- Only the link of a branch in whose delay slot the instruction stands is written. -/
theorem g_retire (h : ∀ b, k.delay = some b → b.link ≠ some n) (len left : Nat) : (retire k len left).g n = k.g n := by
  by_cases hleft : left = 0
  · subst hleft
    cases hd : k.delay with
    | none => rw [retire_passes hd]; rfl
    | some b => rw [retire_slot hd]; exact (k.g_linked ..).trans (if_neg fun hl => h b hd hl.1)
  · rw [retire_repeats hleft]; rfl

/-- Settles O9: an iteration is left, or the pc passes the instruction, or a delay slot ends. -/
theorem retirementStepsThePc : Obligations.RetirementStepsThePc := by
  intro k len left
  have hstill := still_retire k len left
  refine ⟨fun h => ?_, ?_, ?_, ?_⟩
  · rw [retire_repeats h]
    exact ⟨rfl, rfl, fun _ => rfl, rfl⟩
  · rintro rfl
    have hmem : (retire k len 0).still.mem = k.still.mem := congrArg (·.mem) hstill
    have hctrl : (retire k len 0).still.ctrl = k.still.ctrl := congrArg (·.ctrl) hstill
    cases h : k.delay with
    | none => exact ⟨by rw [retire_passes h], by rw [retire_passes h, h], hmem, hctrl⟩
    | some b => exact ⟨by rw [retire_slot h], by rw [retire_slot h], hmem, hctrl⟩
  · rintro rfl h
    rw [retire_passes h]
    exact ⟨rfl, fun _ => rfl⟩
  · rintro b rfl h
    rw [retire_slot h]
    refine ⟨rfl, fun r hr h0 => ?_, fun r hr => ?_⟩
    · exact (k.g_linked ..).trans (if_pos ⟨hr, h0⟩)
    · exact (k.g_linked ..).trans (if_neg fun hl => hr.elim (· hl.1) hl.2)

/-! ## The frame of an instruction that writes general registers alone -/

/-- A STOP or hold that waited changes the run state alone (R480). -/
theorem settle_cases (s : State) (c : Nat) : settle s c = s ∨ ∃ st, settle s c = setCore s c { coreOf s c with
    state := st, stopAsked := false, holdAsked := false, rep := none } := by
  unfold settle
  dsimp only
  split
  · exact .inr ⟨_, rfl⟩
  · exact .inl rfl

theorem still_settle (s : State) (c : Nat) : (coreOf (settle s c) c).still = (coreOf s c).still := by
  rcases settle_cases s c with h | ⟨st, h⟩ <;> rw [h]
  rw [coreOf_setCore_same]; rfl

theorem g_settle (s : State) (c n : Nat) : (coreOf (settle s c) c).g n = (coreOf s c).g n := by
  rcases settle_cases s c with h | ⟨st, h⟩ <;> rw [h]
  rw [coreOf_setCore_same]; rfl

theorem onlyCore_refl (s : State) (c : Nat) : onlyCore s s c := ⟨rfl, fun _ _ => rfl⟩

theorem onlyCore_setCore {t : State} (h : onlyCore s t c) (k : Core) : onlyCore s (setCore t c k) c :=
  ⟨h.1, fun c' hc => (coreOf_setCore_other _ _ hc).trans (h.2 c' hc)⟩

theorem onlyCore_settle {t : State} (h : onlyCore s t c) : onlyCore s (settle t c) c := by
  rcases settle_cases t c with ht | ⟨st, ht⟩ <;> rw [ht]
  · exact h
  · exact onlyCore_setCore h _

theorem onlyCore_retired {t : State} (h : onlyCore s t c) (i : GIns) : onlyCore s (retired s c i t) c :=
  onlyCore_settle (onlyCore_setCore h _)

theorem still_retired (s t : State) (c : Nat) (i : GIns) : (coreOf (retired s c i t) c).still = (coreOf t c).still := by
  rw [retired, still_settle, coreOf_setCore_same, still_retire]

theorem g_retired {t : State} (h : ∀ b, (coreOf t c).delay = some b → b.link ≠ some n) (i : GIns) :
    (coreOf (retired s c i t) c).g n = (coreOf t c).g n := by
  rw [retired, g_settle, coreOf_setCore_same, g_retire h]

theorem coreOf_putG (s : State) (c : Nat) (d : Fin 32) (v : DWord) : coreOf (putG s c d v) c = (coreOf s c).setG d.val v :=
  coreOf_setCore_same ..

theorem delay_setG (k : Core) (n : Nat) (v : DWord) : (k.setG n v).delay = k.delay := by
  unfold Core.setG
  split <;> rfl

/-- Settles O16: the writes reach one core, and there the general registers; what follows the instruction moves the rest. -/
theorem goleyRegisterFormsTouchNothingElse : Obligations.GoleyRegisterFormsTouchNothingElse := by
  intro s c i d e q r t
  have hcore : coreOf (putG (putG s c d q) c e r) c = ((coreOf s c).setG d.val q).setG e.val r := by
    rw [coreOf_putG, coreOf_putG]
  have hdelay : (coreOf (putG (putG s c d q) c e r) c).delay = (coreOf s c).delay := by
    rw [hcore, delay_setG, delay_setG]
  have hlink {n : Nat} (h : ∀ b, (coreOf s c).delay = some b → b.link ≠ some n) :
      (coreOf t c).g n = (((coreOf s c).setG d.val q).setG e.val r).g n := by
    rw [← hcore]
    exact g_retired (by rwa [hdelay]) i
  refine ⟨onlyCore_retired (onlyCore_setCore (onlyCore_setCore (onlyCore_refl s c) _) _) i, Core.eq_of_still ?_, ?_, ?_, rfl⟩
  · rw [still_retired, hcore, Core.still_setG, Core.still_setG]
  · intro n hd he h
    rw [hlink h, Core.g_setG, if_neg (fun hn => he hn.1), Core.g_setG, if_neg (fun hn => hd hn.1)]
  · intro h h0
    rw [hlink h, Core.g_setG, if_pos ⟨rfl, h0⟩]

end Sys2Proof.Machine
end

section
/-! SUPPORT, O5, O7, O8 and O12. Stores, CAS, CPX and FENCE, checks and branches, control instructions (R510 to R513, R520 to R526). -/

namespace Sys2Proof.Machine

variable {s u : State} {c op : Nat} {p : GPre} {d a b r : Fin 32} {z : Fin 8} {v : DWord} {i : GIns} {t : Trap}

/-! ## Stores (R520, R521) -/

theorem runStore_retires (hop : gBytes op = accessBytes op) (hup : gUpdates op = false)
    (h : issues s c ⟨p, op, .m r b z v⟩ ∧
      dataTrap s c 29 (effAddr (coreOf s c) p ((coreOf s c).g b.val) v).toNat (accessBytes op) = none) :
    runStore op c p r b z v s = .next (retired s c ⟨p, op, .m r b z v⟩
      (coreStore s c (effAddr (coreOf s c) p ((coreOf s c).g b.val) v).toNat (accessBytes op) ((coreOf s c).g r.val).toNat)) := by
  obtain ⟨hissue, hdata⟩ := h
  rw [← hop] at hdata ⊢
  refine runIns_retires hissue ?_
  simp only [hdata, hup, Bool.false_eq_true, if_false]

theorem runStore_updates (hop : gBytes op = accessBytes op) (hup : gUpdates op = true)
    (h : issues s c ⟨p, op, .m r b z v⟩ ∧
      dataTrap s c 29 (effAddr (coreOf s c) p ((coreOf s c).g b.val) v).toNat (accessBytes op) = none) :
    runStore op c p r b z v s = .next (retired s c ⟨p, op, .m r b z v⟩
      (putG (coreStore s c (effAddr (coreOf s c) p ((coreOf s c).g b.val) v).toNat (accessBytes op)
        ((coreOf s c).g r.val).toNat) c b (effAddr (coreOf s c) p ((coreOf s c).g b.val) v))) := by
  obtain ⟨hissue, hdata⟩ := h
  rw [← hop] at hdata ⊢
  refine runIns_retires hissue ?_
  simp only [hdata, hup, if_true]

/-- Settles O5: the plain forms store, the update forms then write the base register. -/
theorem goleyStoresPutTheOldRegisterAtEa : Obligations.GoleyStoresPutTheOldRegisterAtEa := by
  intro s c p r b z v
  exact ⟨runStore_retires rfl rfl, runStore_updates rfl rfl, runStore_retires rfl rfl, runStore_updates rfl rfl,
    runStore_retires rfl rfl, runStore_updates rfl rfl, runStore_retires rfl rfl, runStore_updates rfl rfl⟩

/-! ## CAS, FENCE and CPX (R522, R523) -/

/-- The checks that a data access has passed. -/
theorem checks_of_dataTrap {right x n : Nat} (h : dataTrap s c right x n = none) :
    checkAlign x n = none ∧ checkAccess s c right x n = none ∧ (right = 28 → mediaTrap s c x n = none) := by
  unfold dataTrap at h
  split at h
  · cases h
  · next halign =>
    split at h
    · cases h
    · next haccess => exact ⟨halign, haccess, fun hr => by rwa [if_pos hr] at h⟩

/-- Settles O7: the accesses that each instruction makes have passed their checks. -/
theorem goleyCasCpxAndFenceActAsR522 : Obligations.GoleyCasCpxAndFenceActAsR522 := by
  intro s c p d a b z v
  refine ⟨fun h hread hwrite => ?_, fun h => ?_, fun h hread hwrite => ?_⟩
  · change execGCas c p d a b s = _
    unfold execGCas
    refine runIns_retires h ?_
    simp only [hread, hwrite]
  · exact runIns_retires (f := .ok) h rfl
  · obtain ⟨hsrcAlign, hsrcAccess, hmedia⟩ := checks_of_dataTrap hread
    obtain ⟨hdstAlign, hdstAccess, -⟩ := checks_of_dataTrap hwrite
    change execGCpx c p d b z v s = _
    unfold execGCpx
    refine runIns_retires h ?_
    simp only [hsrcAlign, hsrcAccess, hmedia rfl, hdstAlign, hdstAccess]

/-! ## Bounds checks (R524) -/

theorem runIns_bounds {inside : State → Bool} (h : issues s c i) :
    runIns s c i none (fun s => boundsTrap (inside s) s) =
      .next (if inside s then retired s c i s else trapped s c i { code := 0x04, eaddr := 0 }) := by
  cases hin : inside s with
  | true => exact runIns_retires h (by simp only [hin, boundsTrap, if_true])
  | false => exact runIns_traps h (by simp only [hin, boundsTrap, Bool.false_eq_true, if_false])

/-! ## Branches (R525, R526) -/

theorem runBranch_steps {target : Core → Option DWord} {link : Option (Fin 32)} (h : issues s c i) :
    runBranch c i target link s = .next (setCore (retired s c i s) c { coreOf (retired s c i s) c with
      delay := some { branch := (coreOf s c).pc, target := target (coreOf s c), link := link.map (·.val) } }) := by
  obtain ⟨hrun, hissue, -⟩ := id h
  simp only [runBranch, runIns_retires (f := .ok) h rfl, hrun, hissue, Option.isNone_none, and_self, if_true]

/-- Only a condition code of R525 issues. -/
theorem cc_le_of_issues {cc : Fin 8} (h : issues s c ⟨p, 0x90, .b a cc b z v⟩) : cc.val ≤ 5 := by
  have hdecode := decodeTrap_of_issueTrap h.2.1
  unfold decodeTrap at hdecode
  dsimp only at hdecode
  split at hdecode
  · cases hdecode
  · split at hdecode
    · cases hdecode
    · next htrap =>
      have hsize := (checks_of_gDecodeTrap htrap).1
      simp only [gSizeOk, Bool.and_eq_true, decide_eq_true_eq] at hsize
      exact hsize.1.1

/-- The condition of a branch, by its code (R525). -/
def ccHolds (cc : Nat) (x y : DWord) : Bool :=
  match cc with
  | 0 => x == y
  | 1 => x != y
  | 2 => x.slt y
  | 3 => y.sle x
  | 4 => x.ult y
  | _ => y.ule x

theorem gCc_eq {cc : Nat} (h : cc ≤ 5) (x y : DWord) : gCc cc x y = ccHolds cc x y := by
  unfold gCc
  interval_cases cc <;> rw [gCond_eq (by decide)] <;> rfl

/-- Settles O8: a check passes or traps; a branch leaves its outcome to the delay slot. -/
theorem goleyChecksAndBranchesAct : Obligations.GoleyChecksAndBranchesAct := by
  intro s c p x a b z lo hi v cc
  refine ⟨fun h => ?_, fun h => ?_, fun h => ?_, fun h => ?_,
    runBranch_steps (target := fun k => some (k.pc + v)) (link := some x),
    runBranch_steps (target := fun k => some (k.g a.val)) (link := some x)⟩
  · dsimp only
    rw [← gCond_eq (by decide), ← gCond_eq (by decide)]
    exact runIns_bounds (inside := fun s => gCond 4 p ((coreOf s c).g x.val) ((coreOf s c).g a.val) &&
      gCond 4 p ((coreOf s c).g b.val) ((coreOf s c).g x.val)) h
  · dsimp only
    rw [← gCond_eq (by decide), ← gCond_eq (by decide)]
    exact runIns_bounds (inside := fun s => gCond 5 p ((coreOf s c).g x.val) ((coreOf s c).g a.val) &&
      gCond 5 p ((coreOf s c).g b.val) ((coreOf s c).g x.val)) h
  · dsimp only
    rw [← gCond_eq (by decide), ← gCond_eq (by decide)]
    exact runIns_bounds (inside := fun s => gCond 4 p ((coreOf s c).g x.val) lo && gCond 4 p hi ((coreOf s c).g x.val)) h
  · have hcc := gCc_eq (cc_le_of_issues h) ((coreOf s c).g a.val) ((coreOf s c).g b.val)
    have hbranch := runBranch_steps (link := none)
      (target := fun k => if gCc cc.val (k.g a.val) (k.g b.val) then some (k.pc + v) else none) h
    dsimp only at hbranch
    rw [hcc] at hbranch
    exact hbranch

/-! ## Control instructions (R510 to R513) -/

/-- Settles O12: each control instruction has one effect when it issues. -/
theorem goleyControlInstructionsAct : Obligations.GoleyControlInstructionsAct := by
  intro s c p r n
  refine ⟨fun h => ?_, fun h => ?_, fun h => ?_, fun h => ?_, fun h => ?_, fun h hcr => runCrr_retires h hcr,
    fun t h hcr hroom hw => runCrw_retires h hcr hroom hw⟩
  · exact runIns_retires (f := .ok) h rfl
  · exact runIns_traps (f := fun _ => .error { code := 0x09 }) h rfl
  · exact runIns_traps (f := fun _ => .error { code := 0x0A }) h rfl
  · obtain ⟨hrun, hissue, -⟩ := h
    exact if_pos ⟨hrun, Option.isNone_iff_eq_none.mpr hissue⟩
  · change execGWait c p s = _
    unfold execGWait
    refine runIns_retires h ?_
    simp only [Core.irq, decide_eq_true_eq]

end Sys2Proof.Machine
end

section
/-! O4 fails: the latch of a _HI register is not bounded in every state, and LDWU writes what it holds whole. -/

namespace Sys2Proof.Machine

/-- Core 0, a system core, runs; g1 holds the address of register 0xC, the _HI half of the pair at 8. -/
def hiReader : Core where
  state := .running
  gpr := [(1, 0x300000000C#64)]

/-- A READY device whose latch of the pair at 8 holds 2 to the 32. -/
def wideLatch : State where
  boot := { phase := .ready }
  regs := { loLatch := [(8, 2 ^ 32)] }
  cores := [(0, hiReader)]

/-- LDWU g2, [g1]. -/
def loadHi : GIns := ⟨{}, 0x65, .m 2 1 0 0⟩

theorem issues_wideLatch : issues wideLatch 0 loadHi := by
  refine ⟨by decide, by decide, by decide⟩

theorem dataTrap_wideLatch : dataTrap wideLatch 0 28 0x300000000C 4 = none := by decide

/-- The load reads the whole latch and leaves no branch open. -/
theorem coreLoad_wideLatch : (coreLoad wideLatch 0 0x300000000C 4).1 = 2 ^ 32 ∧
    (coreOf (coreLoad wideLatch 0 0x300000000C 4).2 0).delay = none := by decide

/-- A load writes what the model extends of the bytes read (R520). -/
theorem runLoad_retires {s : State} {op c : Nat} {p : GPre} {d b : Fin 32} {z : Fin 8} {v : DWord} (hup : gUpdates op = false)
    (h : issues s c ⟨p, op, .m d b z v⟩)
    (hdata : dataTrap s c 28 (effAddr (coreOf s c) p ((coreOf s c).g b.val) v).toNat (gBytes op) = none) :
    runLoad op c p d b z v s = .next (retired s c ⟨p, op, .m d b z v⟩
      (putG (coreLoad s c (effAddr (coreOf s c) p ((coreOf s c).g b.val) v).toNat (gBytes op)).2 c d
        (gExtend op (coreLoad s c (effAddr (coreOf s c) p ((coreOf s c).g b.val) v).toNat (gBytes op)).1))) := by
  refine runIns_retires h ?_
  simp only [hdata, hup, Bool.false_eq_true, if_false]

/-- A register that a load has written is read back, where no branch waits. -/
theorem g_retired_putG {s t : State} {c : Nat} {d : Fin 32} (i : GIns) (v : DWord) (h : (coreOf t c).delay = none)
    (hd : d ≠ 0) : (coreOf (retired s c i (putG t c d v)) c).g d.val = v := by
  rw [g_retired (by rw [coreOf_putG, delay_setG, h]; simp), coreOf_putG, Core.g_setG]
  exact if_pos ⟨rfl, fun h0 => hd (Fin.ext h0)⟩

/-- Refutes O4: its LDWU clause keeps 32 bits of what was read, and the model writes all that the latch of a _HI register holds. -/
theorem not_goleyLoadsWriteWhatMemoryHolds : ¬ Obligations.GoleyLoadsWriteWhatMemoryHolds := by
  intro h
  obtain ⟨-, -, -, -, -, -, -, -, -, -, hldwu, -⟩ := h wideLatch 0 {} 2 1 0 0
  have hsame : retired wideLatch 0 loadHi (putG (coreLoad wideLatch 0 0x300000000C 4).2 0 2
        (loadedValue 0x65 (coreLoad wideLatch 0 0x300000000C 4).1)) =
      retired wideLatch 0 loadHi (putG (coreLoad wideLatch 0 0x300000000C 4).2 0 2
        (gExtend 0x65 (coreLoad wideLatch 0 0x300000000C 4).1)) :=
    Host.Outcome.next.inj ((hldwu ⟨issues_wideLatch, dataTrap_wideLatch⟩).symm.trans
      (runLoad_retires rfl issues_wideLatch dataTrap_wideLatch))
  obtain ⟨hread, hdelay⟩ := coreLoad_wideLatch
  have hwritten := congrArg (fun t => (coreOf t 0).g (2 : Fin 32).val) hsame
  simp only [g_retired_putG loadHi _ hdelay (by decide : (2 : Fin 32) ≠ 0), hread] at hwritten
  exact absurd hwritten (by decide)

end Sys2Proof.Machine
end


section
/-! SUPPORT and O57. Every command answers a next state, with the queue of commands as it was: no command raises a fault of
the model or is refused, and only a step takes the command at the front off its queue (95_what_each_step_holds.md). -/

namespace Sys2Proof.Machine

variable {s : State}

/-! ### Commands without a lemma of their own above: what they leave alone -/

/-- Of a waiting message, whatever the junction does with it from the state before its turn. -/
theorem sendWork_keeps {s₀ t : State} {u tag e j w} (h : Keeps 267386878 s₀ t) :
    Keeps 267386878 s₀ (sendWork s₀ u t tag e j w) := by
  have hfail (st : Nat) : Keeps 267386878 s₀ (failAt t tag j u st) := .via (failAt_keeps ..) rfl h
  unfold sendWork
  split
  · exact hfail _
  · refine .ite (.ite (hfail _) (.via (setCtx_keeps ..) rfl h)) (.ite (.refl _ _) ?_)
    refine .ite (.via (endProvisional_keeps ..) rfl h) (.ite (hfail _) (.ite (hfail _) ?_))
    cases htaken : takeMessage t tag e u (ctxOf t tag j).buf with
    | none => exact .refl _ _
    | some taken => exact .via (takeMessage_keeps _ _ _ _ _ _ htaken) rfl h

theorem serveAt_keeps {u fits} {f : State → Nat → Entry → Nat → LStep → Work → State} {m : Nat} (hm : 128 ||| m = m)
    (hf : ∀ t tag e j st w, Keeps m s t → Keeps m s (f t tag e j st w)) : Keeps m s (serveAt s u fits f) := by
  unfold serveAt
  split
  · exact .refl _ _
  · next w t hd =>
    have ht : Keeps m s t := (dequeue_keeps _ _ _ _ hd).mono hm
    split
    · exact ht
    · refine .ite ht ?_
      split
      · exact ht
      · exact .ite (hf _ _ _ _ _ _ ht) (.refl _ _)

theorem execSend_keeps {unit} : KeepsO 267386878 s (execSend unit s) :=
  .next (serveAt_keeps rfl (fun _ _ _ _ _ _ => sendWork_keeps))

theorem answered_keeps {m : Nat} {o : Out} (h : KeepsO m s o) : Keeps m s (answered s o) := by
  unfold answered
  split
  · exact h _ rfl
  · exact .refl _ _

theorem serveToken_keeps {u mode} : Keeps 267386878 s (serveToken s u mode) := by
  have served {m : Nat} {o : Out} (h : KeepsO m s o) (hm : m ||| 267386878 = 267386878) :
      Keeps 267386878 s (answered s o) := (answered_keeps h).mono hm
  unfold serveToken
  split
  · exact (writeServe_keeps ..).mono rfl
  · exact (writeServe_keeps ..).mono rfl
  · exact served (execProgram_keeps _ _) rfl
  · exact served (execProgram_keeps _ _) rfl
  · exact served (execLoad_keeps _ _) rfl
  · exact served (execLoad_keeps _ _) rfl
  · exact .refl _ _
  · exact .refl _ _
  · exact (cmpServe_keeps ..).mono rfl
  · exact (dgtServe_keeps ..).mono rfl
  · exact (searchServe_keeps ..).mono rfl
  · exact served (execDramStation_keeps _ _ _) rfl
  · exact served (execHostPortWrite_keeps _ _ _) rfl
  · exact served execSend_keeps rfl
  · exact served (execParityEngineStep_keeps _ _ _) rfl
  · exact served (execReadWriteBack_keeps _ _) rfl
  · exact served (execWriteThrough_keeps _ _) rfl
  · exact served (execDeallocate_keeps _) rfl
  · exact served (execDurable_keeps _) rfl
  · exact served (execMapWrite_keeps _) rfl
  · exact .refl _ _

theorem takeToken_keeps {e p} : Keeps 267386878 s (takeToken s e p) := by
  have hqueued : Keeps 267386878 s (enqueue s p.dest (.pkt p)) := (enqueue_keeps ..).mono rfl
  unfold takeToken
  split
  · exact (fenInput_keeps ..).mono rfl
  · exact (fenInput_keeps ..).mono rfl
  · exact (loadEnds_keeps ..).mono rfl
  · exact .ite (.via serveToken_keeps rfl hqueued) hqueued

theorem execEndTokenArrive_keeps {src dest tag} : KeepsO 267386878 s (execEndTokenArrive src dest tag s) := by
  unfold execEndTokenArrive
  split
  · exact .next (.refl _ _)
  · next p _ =>
    refine .ite (.next (.refl _ _)) ?_
    extract_lets woken
    have hwoken : Keeps 267386878 s woken := (wakePath_keeps ..).mono rfl
    clear_value woken
    have hoff : Keeps 267386878 s (offTrunk woken p) := .via (offTrunk_keeps ..) rfl hwoken
    refine .ite (.next (.via (bounce_keeps ..) rfl hoff)) ?_
    split
    · exact .next hoff
    · exact .ite (.next hoff) (.ite (.next (.via (failAt_keeps ..) rfl hoff))
        (.ite (.next hwoken) (.next (.via takeToken_keeps rfl hoff))))

theorem runBranch_keeps {c i target link} : KeepsO 267386878 s (runBranch c i target link s) := by
  have hins : KeepsO 267386878 s (runIns s c i none (fun s => .ok s)) := runIns_keeps (.ok (.refl _ _)) rfl
  unfold runBranch
  extract_lets pc
  split
  · next t ht =>
    have hran : Keeps 267386878 s t := hins t ht
    exact .ite (.next (.via (setCore_keeps ..) rfl hran)) (.next hran)
  · exact hins

theorem execGBc_keeps {core pre a cc b size disp} : KeepsO 267386878 s (execGBc core pre a cc b size disp s) :=
  runBranch_keeps

theorem execGJal_keeps {core pre d size disp} : KeepsO 267386878 s (execGJal core pre d size disp s) := runBranch_keeps

theorem execGJalr_keeps {core pre d a} : KeepsO 267386878 s (execGJalr core pre d a s) := runBranch_keeps

/-- The memories that a warm start finds whole again are those of before it. -/
theorem restoreLmem_keeps {o warm} : Keeps 34179072 s (restoreLmem o s warm) := by
  unfold restoreLmem
  extract_lets _ _ _ _ t
  have ht : Keeps 34179072 s t := (setInst_keeps ..).mono rfl
  clear_value t
  exact .ite (((ht.put_lmem rfl _).put_dram rfl _).put_drc rfl _) (ht.put_ten rfl _)

theorem restorePhase_keeps {o env warm} : Keeps 267386878 s (restorePhase o env warm s) := by
  unfold restorePhase
  extract_lets granted homed windowed _ zoned cached _ aliased found redelivered warned _ judged healthy _ mapped
  have hhomed : Keeps 267386878 s homed :=
    .via restoreLmem_keeps rfl (.via (restoreGrants_keeps ..) rfl ((restoreKeys_keeps ..).mono rfl))
  have hzoned : Keeps 267386878 s zoned := .via (setFtl_keeps ..) rfl (.via (restoreWindows_keeps ..) rfl hhomed)
  have hcached : Keeps 267386878 s cached :=
    .via (reduceCache_keeps ..) rfl (.via (startSets_keeps ..) rfl (.via (restoreSettings_keeps ..) rfl hzoned))
  have hfound : Keeps 267386878 s found :=
    .via (restoreStates_keeps ..) rfl (.via (restoreBanks_keeps ..) rfl (hcached.put_fab rfl _))
  have hredelivered : Keeps 267386878 s redelivered :=
    .foldl (fun t _ => .ite ((redeliver_keeps ..).mono rfl) (.refl _ t)) hfound
  have hwarned : Keeps 267386878 s warned := .ite (.via (record_keeps ..) rfl hredelivered) hredelivered
  have hjudged : Keeps 267386878 s judged :=
    .via (judgeFold_keeps ..) rfl (.via (judgeSpare_keeps ..) rfl (.via (setFtl_keeps ..) rfl hwarned))
  have hhealthy : Keeps 267386878 s healthy :=
    .via (setHealth_keeps ..) rfl (.via (clearLosses_keeps ..) rfl (.via (judgeDegraded_keeps ..) rfl hjudged))
  have hmapped : Keeps 267386878 s mapped :=
    .ite (.via (setHealth_keeps ..) rfl (.via (setFtl_keeps ..) rfl hhealthy)) hhealthy
  exact .via (setBoot_keeps ..) rfl hmapped

/-- The phases of a start, from what is kept of the state before it. -/
theorem runStart_keeps {o env warm} : Keeps 268435454 (again o env warm) (runStart o env warm) := by
  unfold runStart
  extract_lets rom _ powered fens chosen trained
  have hrom : Keeps 268435454 (again o env warm) rom := (romPhase_keeps ..).mono rfl
  have hfens : Keeps 268435454 (again o env warm) fens := .via (startFens_keeps ..) rfl (.via (setBoot_keeps ..) rfl hrom)
  have hchosen : Keeps 268435454 (again o env warm) chosen.1 := .via (chooseImage_keeps ..) rfl hfens
  have htrained : Keeps 268435454 (again o env warm) trained :=
    .via (trainPhase_keeps ..) rfl (.via (startCores_keeps ..) rfl hchosen)
  refine .ite (.via (haltStart_keeps ..) rfl (.via (recordRom_keeps ..) rfl hrom)) ?_
  exact .ite (.via (haltStart_keeps ..) rfl hfens) (.ite (.via (haltStart_keeps ..) rfl hchosen)
    (.via restorePhase_keeps rfl (.via (recoverPhase_keeps ..) rfl (.via (streamPhase_keeps ..) rfl htrained))))

/-- A start begins with an empty machine, but the commands that wait still wait (log 110). -/
theorem pending_runStart {o env warm} : (runStart o env warm).pending = o.pending := runStart_keeps.pending rfl

/-! ### What a command answers -/

/-- A next state: no fault of the model, and no refusal. -/
def Answers (o : Out) : Prop := ∃ t, o = .next t

theorem Answers.next {t : State} : Answers (.next t) := ⟨t, rfl⟩

theorem Answers.ite {c : Prop} [Decidable c] {o p : Out} (h : Answers o) (k : Answers p) : Answers (if c then o else p) := by
  split <;> assumption

/-- A next state with the same queue of commands. -/
def Runs (s : State) (o : Out) : Prop := ∃ t, o = .next t ∧ t.pending = s.pending

theorem Runs.of {m : Nat} {o : Out} (k : KeepsO m s o) (hm : m.testBit 0 = false) (h : Answers o) : Runs s o := by
  obtain ⟨t, ht⟩ := h
  exact ⟨t, ht, (k t ht).pending hm⟩

theorem answers_nvmeCmd {c q admin ticket ok f} : Answers (nvmeCmd s c q admin ticket ok f) := by
  unfold nvmeCmd
  split
  · exact .next
  · split <;> exact .next

theorem answers_adminCmd {c op pfOnly f} : Answers (adminCmd s c op pfOnly f) := answers_nvmeCmd

theorem answers_zoneSend {c q act all f} : Answers (zoneSend s c q act all f) := answers_nvmeCmd

theorem answers_inState {st f} : Answers (inState s st f) := by
  unfold inState
  repeat' split
  all_goals exact .next

theorem answers_tenRun {op f} : Answers (tenRun s op f) := by
  unfold tenRun
  repeat' split
  all_goals exact .next

theorem answers_slotOp {op f} : Answers (slotOp s op f) := by
  unfold slotOp
  dsimp only
  repeat' split
  all_goals exact .next

theorem answers_runIns {c i tr f} : Answers (runIns s c i tr f) := by
  unfold runIns
  extract_lets
  refine .ite .next ?_
  split
  · exact .next
  · refine .ite .next ?_
    split <;> exact .next

theorem answers_runCrw {c pre a n} : Answers (runCrw c pre a n s) := by
  unfold runCrw
  dsimp only
  split
  · exact .next
  · exact answers_runIns

theorem answers_runCrr {c pre d n} : Answers (runCrr c pre d n s) := answers_runIns

theorem answers_runAlu3 {op c p d a b} : Answers (runAlu3 op c p d a b s) := answers_runIns

theorem answers_runDiv {op c p d e a b} : Answers (runDiv op c p d e a b s) := answers_runIns

theorem answers_runAlu2 {op c p d a} : Answers (runAlu2 op c p d a s) := answers_runIns

theorem answers_runSet3 {op c p d a b} : Answers (runSet3 op c p d a b s) := answers_runIns

theorem answers_runAluI {op c p d a z v} : Answers (runAluI op c p d a z v s) := answers_runIns

theorem answers_runSetI {op c p d a z v} : Answers (runSetI op c p d a z v s) := answers_runIns

theorem answers_runLoad {op c p d b z v} : Answers (runLoad op c p d b z v s) := answers_runIns

theorem answers_runStore {op c p d b z v} : Answers (runStore op c p d b z v s) := answers_runIns

theorem answers_execGRft {core pre} : Answers (execGRft core pre s) := .ite .next answers_runIns

theorem answers_runBranch {c i target link} : Answers (runBranch c i target link s) := by
  obtain ⟨t, ht⟩ : Answers (runIns s c i none (fun s => .ok s)) := answers_runIns
  unfold runBranch
  rw [ht]
  dsimp only
  split <;> exact .next

theorem answers_execPacketArrive {src dest cls route} : Answers (execPacketArrive src dest cls route s) := by
  unfold execPacketArrive
  dsimp only
  repeat' split
  all_goals exact .next

theorem answers_execFlitArrive {src dest cls route x y up link flit errors} : Answers (execFlitArrive src dest cls route x y up link flit errors s) := by
  unfold execFlitArrive
  dsimp only
  repeat' split
  all_goals exact .next

theorem answers_execGenHeldEventApply {unit} : Answers (execGenHeldEventApply unit s) := by
  unfold execGenHeldEventApply
  dsimp only
  repeat' split
  all_goals exact .next

theorem answers_execLoaderFetchHead : Answers (execLoaderFetchHead s) := by
  unfold execLoaderFetchHead
  dsimp only
  repeat' split
  all_goals exact .next

theorem answers_execLoaderHeaderArrived {head undelivered} : Answers (execLoaderHeaderArrived head undelivered s) := answers_inState

theorem answers_execLoaderAuthenticate {rest undelivered} : Answers (execLoaderAuthenticate rest undelivered s) := answers_inState

theorem answers_execLoaderBlockArrived {block undelivered} : Answers (execLoaderBlockArrived block undelivered s) := answers_inState

theorem answers_execScreenComplete {netlist} : Answers (execScreenComplete netlist s) := answers_inState

theorem answers_execFenApplyStart : Answers (execFenApplyStart s) := answers_inState

theorem answers_execFenDrainTimeout : Answers (execFenDrainTimeout s) := answers_inState

theorem answers_execFenSafePointA : Answers (execFenSafePointA s) := answers_inState

theorem answers_execFenSafePointB : Answers (execFenSafePointB s) := answers_inState

theorem answers_execLoaderKeyRevoked : Answers (execLoaderKeyRevoked s) := by
  unfold execLoaderKeyRevoked
  repeat' split
  all_goals exact .next

theorem answers_execStructureStreamStored : Answers (execStructureStreamStored s) := answers_inState

theorem answers_execFenOutputBeat {fen port tag offset data} : Answers (execFenOutputBeat fen port tag offset data s) := by
  unfold execFenOutputBeat
  dsimp only
  repeat' split
  all_goals exact .next

theorem answers_execFenLast {fen port tag status} : Answers (execFenLast fen port tag status s) := by
  unfold execFenLast
  dsimp only
  repeat' split
  all_goals exact .next

theorem answers_execFencingTimeout {fen} : Answers (execFencingTimeout fen s) := by
  unfold execFencingTimeout
  dsimp only
  repeat' split
  all_goals exact .next

theorem answers_execFenOverpower {fen milliwatts} : Answers (execFenOverpower fen milliwatts s) := by
  unfold execFenOverpower
  dsimp only
  repeat' split
  all_goals exact .next

theorem answers_execFenScrubDone {fen} : Answers (execFenScrubDone fen s) := by
  unfold execFenScrubDone
  dsimp only
  repeat' split
  all_goals exact .next

theorem answers_execTicketSubmit {unit ticket} : Answers (execTicketSubmit unit ticket s) := by
  unfold execTicketSubmit
  dsimp only
  repeat' split
  all_goals exact .next

theorem answers_execPortionConsider {tag} : Answers (execPortionConsider tag s) := by
  unfold execPortionConsider
  dsimp only
  repeat' split
  all_goals exact .next

theorem answers_execDeadlineExpire {tag} : Answers (execDeadlineExpire tag s) := by
  unfold execDeadlineExpire
  repeat' split
  all_goals exact .next

theorem answers_execEndTokenArrive {src dest tag} : Answers (execEndTokenArrive src dest tag s) := by
  unfold execEndTokenArrive
  dsimp only
  repeat' split
  all_goals exact .next

theorem answers_execRevokeTokenArrive {src dest tag} : Answers (execRevokeTokenArrive src dest tag s) := by
  unfold execRevokeTokenArrive
  dsimp only
  repeat' split
  all_goals exact .next

theorem answers_execDomainRetention {group} : Answers (execDomainRetention group s) := by
  unfold execDomainRetention
  dsimp only
  repeat' split
  all_goals exact .next

theorem answers_execDomainGateOff {group} : Answers (execDomainGateOff group s) := by
  unfold execDomainGateOff
  dsimp only
  repeat' split
  all_goals exact .next

theorem answers_execDomainWake {unit failed} : Answers (execDomainWake unit failed s) := by
  unfold execDomainWake
  dsimp only
  repeat' split
  all_goals exact .next

theorem answers_execOperatingPointChange {island point mhz} : Answers (execOperatingPointChange island point mhz s) := by
  unfold execOperatingPointChange
  dsimp only
  repeat' split
  all_goals exact .next

theorem answers_execPeatRampElapsed : Answers (execPeatRampElapsed s) := by
  unfold execPeatRampElapsed
  dsimp only
  repeat' split
  all_goals exact .next

theorem answers_execPeatTargetReached {mv} : Answers (execPeatTargetReached mv s) := by
  unfold execPeatTargetReached
  dsimp only
  repeat' split
  all_goals exact .next

theorem answers_execPeatOvervoltage {mv} : Answers (execPeatOvervoltage mv s) := by
  unfold execPeatOvervoltage
  dsimp only
  repeat' split
  all_goals exact .next

theorem answers_execPeatFloorTimeout {mv} : Answers (execPeatFloorTimeout mv s) := by
  unfold execPeatFloorTimeout
  dsimp only
  repeat' split
  all_goals exact .next

theorem answers_execMeasurementDue : Answers (execMeasurementDue s) := by
  unfold execMeasurementDue
  dsimp only
  repeat' split
  all_goals exact .next

theorem answers_execMeasurementDone {chargeUc fallMv} : Answers (execMeasurementDone chargeUc fallMv s) := by
  unfold execMeasurementDone
  dsimp only
  repeat' split
  all_goals exact .next

theorem answers_execMeasurementTimeout : Answers (execMeasurementTimeout s) := by
  unfold execMeasurementTimeout
  dsimp only
  repeat' split
  all_goals exact .next

theorem answers_execFlushDirtyFenceTimeout : Answers (execFlushDirtyFenceTimeout s) := by
  unfold execFlushDirtyFenceTimeout
  dsimp only
  repeat' split
  all_goals exact .next

theorem answers_execFlushEnd {mv} : Answers (execFlushEnd mv s) := by
  unfold execFlushEnd
  dsimp only
  repeat' split
  all_goals exact .next

theorem answers_execInputReturn : Answers (execInputReturn s) := by
  unfold execInputReturn
  dsimp only
  repeat' split
  all_goals exact .next

theorem answers_execSensorSample {readings} : Answers (execSensorSample readings s) := by
  unfold execSensorSample
  dsimp only
  repeat' split
  all_goals exact .next

theorem answers_execFlashTrainPassDone {channel ok settings} : Answers (execFlashTrainPassDone channel ok settings s) := by
  unfold execFlashTrainPassDone
  dsimp only
  repeat' split
  all_goals exact .next

theorem answers_execFlashRetrainBegin {channel} : Answers (execFlashRetrainBegin channel s) := by
  unfold execFlashRetrainBegin
  dsimp only
  repeat' split
  all_goals exact .next

theorem answers_execCodewordDecode {channel op ok} : Answers (execCodewordDecode channel op ok s) := by
  unfold execCodewordDecode
  dsimp only
  repeat' split
  all_goals exact .next

theorem answers_execProgramStatus {channel pass} : Answers (execProgramStatus channel pass s) := by
  unfold execProgramStatus
  dsimp only
  repeat' split
  all_goals exact .next

theorem answers_execPageSealTimeout {channel dense} : Answers (execPageSealTimeout channel dense s) := by
  unfold execPageSealTimeout
  repeat' split
  all_goals exact .next

theorem answers_execRelocateGroup {source failing answer} : Answers (execRelocateGroup source failing answer s) := by
  unfold execRelocateGroup
  dsimp only
  repeat' split
  all_goals exact .next

theorem answers_execPatrolRead {channel group page tier} : Answers (execPatrolRead channel group page tier s) := by
  unfold execPatrolRead
  dsimp only
  repeat' split
  all_goals exact .next

theorem answers_execStaticLevelling : Answers (execStaticLevelling s) := by
  unfold execStaticLevelling
  dsimp only
  repeat' split
  all_goals exact .next

theorem answers_execParityEngineStep {unit member} : Answers (execParityEngineStep unit member s) := by
  unfold execParityEngineStep
  repeat' split
  all_goals exact .next

theorem answers_execAsuHoldRoomFree {port} : Answers (execAsuHoldRoomFree port s) := by
  unfold execAsuHoldRoomFree
  dsimp only
  repeat' split
  all_goals exact .next

theorem answers_execScrubRead {bank entry word found copies} : Answers (execScrubRead bank entry word found copies s) := by
  unfold execScrubRead
  dsimp only
  repeat' split
  all_goals exact .next

theorem answers_execBankCopyDone {bank} : Answers (execBankCopyDone bank s) := by
  unfold execBankCopyDone
  dsimp only
  repeat' split
  all_goals exact .next

theorem answers_execKeyGrant : Answers (execKeyGrant s) := by
  unfold execKeyGrant
  dsimp only
  repeat' split
  all_goals exact .next

theorem answers_execKeyLoad {blob} : Answers (execKeyLoad blob s) := by
  unfold execKeyLoad
  repeat' split
  all_goals exact .next

theorem answers_execKeyErase : Answers (execKeyErase s) := by
  unfold execKeyErase
  repeat' split
  all_goals exact .next

theorem answers_execKeyWithdraw : Answers (execKeyWithdraw s) := by
  unfold execKeyWithdraw
  repeat' split
  all_goals exact .next

theorem answers_execCtxExport : Answers (execCtxExport s) := by
  unfold execCtxExport
  repeat' split
  all_goals exact .next

theorem answers_execCtxImport {record} : Answers (execCtxImport record s) := by
  unfold execCtxImport
  dsimp only
  repeat' split
  all_goals exact .next

theorem answers_execCtxFree : Answers (execCtxFree s) := by
  unfold execCtxFree
  repeat' split
  all_goals exact .next

theorem answers_execKeyUseZero {slot} : Answers (execKeyUseZero slot s) := by
  unfold execKeyUseZero
  dsimp only
  repeat' split
  all_goals exact .next

theorem answers_execKeyFenceTimeout {slot} : Answers (execKeyFenceTimeout slot s) := by
  unfold execKeyFenceTimeout
  dsimp only
  repeat' split
  all_goals exact .next

theorem answers_execKeyFenceComplete {slot} : Answers (execKeyFenceComplete slot s) := by
  unfold execKeyFenceComplete
  dsimp only
  repeat' split
  all_goals exact .next

theorem answers_execFeedStart {engine} : Answers (execFeedStart engine s) := by
  unfold execFeedStart
  dsimp only
  repeat' split
  all_goals exact .next

theorem answers_execSave {engine} : Answers (execSave engine s) := by
  unfold execSave
  dsimp only
  repeat' split
  all_goals exact .next

theorem answers_execRestore {engine rcd} : Answers (execRestore engine rcd s) := by
  unfold execRestore
  dsimp only
  repeat' split
  all_goals exact .next

theorem answers_execAbandon {engine} : Answers (execAbandon engine s) := by
  unfold execAbandon
  dsimp only
  repeat' split
  all_goals exact .next

theorem answers_execInqPop {core d} : Answers (execInqPop core d s) := answers_runCrr

theorem answers_execInqFree {core a} : Answers (execInqFree core a s) := answers_runCrw

theorem answers_execEmit {core a} : Answers (execEmit core a s) := answers_runCrw

theorem answers_execSubmit {core a} : Answers (execSubmit core a s) := answers_runCrw

theorem answers_execTimerRaise {core} : Answers (execTimerRaise core s) := by
  unfold execTimerRaise
  dsimp only
  repeat' split
  all_goals exact .next

theorem answers_execInterrupt {core} : Answers (execInterrupt core s) := by
  unfold execInterrupt
  dsimp only
  repeat' split
  all_goals exact .next

theorem answers_execCoreScrubDone {core} : Answers (execCoreScrubDone core s) := by
  unfold execCoreScrubDone
  dsimp only
  repeat' split
  all_goals exact .next

theorem answers_execCoreIdleSlowdown {core} : Answers (execCoreIdleSlowdown core s) := by
  unfold execCoreIdleSlowdown
  dsimp only
  repeat' split
  all_goals exact .next

theorem answers_execDramRefresh {channel bank waiting} : Answers (execDramRefresh channel bank waiting s) := by
  unfold execDramRefresh
  dsimp only
  repeat' split
  all_goals exact .next

theorem answers_execDramTempRead {channel intervalNs} : Answers (execDramTempRead channel intervalNs s) := by
  unfold execDramTempRead
  dsimp only
  repeat' split
  all_goals exact .next

theorem answers_execDramPatrol {channel inst word symbols} : Answers (execDramPatrol channel inst word symbols s) := by
  unfold execDramPatrol
  repeat' split
  all_goals exact .next

theorem answers_execDramTrainPassDone {channel ok settings} : Answers (execDramTrainPassDone channel ok settings s) := by
  unfold execDramTrainPassDone
  dsimp only
  repeat' split
  all_goals exact .next

theorem answers_execDramTrainWindowEnd {channel} : Answers (execDramTrainWindowEnd channel s) := by
  unfold execDramTrainWindowEnd
  dsimp only
  repeat' split
  all_goals exact .next

theorem answers_execSqDoorbell {ctrl sq tail entries} : Answers (execSqDoorbell ctrl sq tail entries s) := by
  unfold execSqDoorbell
  dsimp only
  repeat' split
  all_goals exact .next

theorem answers_execCreateIoSq {ctrl} : Answers (execCreateIoSq ctrl s) := answers_adminCmd

theorem answers_execDeleteIoSq {ctrl} : Answers (execDeleteIoSq ctrl s) := answers_adminCmd

theorem answers_execCreateIoCq {ctrl} : Answers (execCreateIoCq ctrl s) := answers_adminCmd

theorem answers_execDeleteIoCq {ctrl} : Answers (execDeleteIoCq ctrl s) := answers_adminCmd

theorem answers_execGetLogPage {ctrl} : Answers (execGetLogPage ctrl s) := answers_adminCmd

theorem answers_execIdentify {ctrl} : Answers (execIdentify ctrl s) := answers_adminCmd

theorem answers_execAbort {ctrl} : Answers (execAbort ctrl s) := answers_adminCmd

theorem answers_execSetFeatures {ctrl data} : Answers (execSetFeatures ctrl data s) := answers_adminCmd

theorem answers_execGetFeatures {ctrl} : Answers (execGetFeatures ctrl s) := answers_adminCmd

theorem answers_execAsynchronousEventRequest {ctrl} : Answers (execAsynchronousEventRequest ctrl s) := answers_adminCmd

theorem answers_execNamespaceManagement {ctrl data} : Answers (execNamespaceManagement ctrl data s) := answers_adminCmd

theorem answers_execNamespaceAttachment {ctrl data} : Answers (execNamespaceAttachment ctrl data s) := answers_adminCmd

theorem answers_execFirmwareCommit {ctrl} : Answers (execFirmwareCommit ctrl s) := answers_adminCmd

theorem answers_execFirmwareImageDownload {ctrl data} : Answers (execFirmwareImageDownload ctrl data s) := answers_adminCmd

theorem answers_execDeviceSelfTest {ctrl} : Answers (execDeviceSelfTest ctrl s) := answers_adminCmd

theorem answers_execVirtualizationManagement {ctrl} : Answers (execVirtualizationManagement ctrl s) := answers_adminCmd

theorem answers_execNvmeMiSend {ctrl} : Answers (execNvmeMiSend ctrl s) := answers_adminCmd

theorem answers_execNvmeMiReceive {ctrl} : Answers (execNvmeMiReceive ctrl s) := answers_adminCmd

theorem answers_execFormatNvm {ctrl} : Answers (execFormatNvm ctrl s) := answers_adminCmd

theorem answers_execSanitize {ctrl} : Answers (execSanitize ctrl s) := answers_adminCmd

theorem answers_execInvalidCommandOpcode {ctrl sq} : Answers (execInvalidCommandOpcode ctrl sq s) := answers_nvmeCmd

theorem answers_execNvmeRead {ctrl sq} : Answers (execNvmeRead ctrl sq s) := answers_nvmeCmd

theorem answers_execNvmeWrite {ctrl sq} : Answers (execNvmeWrite ctrl sq s) := answers_nvmeCmd

theorem answers_execFlush {ctrl sq} : Answers (execFlush ctrl sq s) := answers_nvmeCmd

theorem answers_execWriteZeroes {ctrl sq} : Answers (execWriteZeroes ctrl sq s) := answers_nvmeCmd

theorem answers_execDatasetManagement {ctrl sq ranges} : Answers (execDatasetManagement ctrl sq ranges s) := answers_nvmeCmd

theorem answers_execZoneAppend {ctrl sq} : Answers (execZoneAppend ctrl sq s) := answers_nvmeCmd

theorem answers_execZoneOpen {ctrl sq} : Answers (execZoneOpen ctrl sq s) := answers_zoneSend

theorem answers_execZoneClose {ctrl sq} : Answers (execZoneClose ctrl sq s) := answers_zoneSend

theorem answers_execZoneFinish {ctrl sq} : Answers (execZoneFinish ctrl sq s) := answers_zoneSend

theorem answers_execZoneReset {ctrl sq} : Answers (execZoneReset ctrl sq s) := answers_zoneSend

theorem answers_execReportZones {ctrl sq} : Answers (execReportZones ctrl sq s) := answers_nvmeCmd

theorem answers_execLoadProgram {ctrl sq unit type offered head} : Answers (execLoadProgram ctrl sq unit type offered head s) := answers_nvmeCmd

theorem answers_execProgramActivation {ctrl sq unit} : Answers (execProgramActivation ctrl sq unit s) := answers_nvmeCmd

theorem answers_execExecuteProgram {ctrl sq ticket} : Answers (execExecuteProgram ctrl sq ticket s) := answers_nvmeCmd

theorem answers_execMemoryWrite {ctrl sq offset length} : Answers (execMemoryWrite ctrl sq offset length s) := answers_nvmeCmd

theorem answers_execMemoryRead {ctrl sq offset length} : Answers (execMemoryRead ctrl sq offset length s) := answers_nvmeCmd

theorem answers_execMemoryCopy {ctrl sq toLocal slba units offset} : Answers (execMemoryCopy ctrl sq toLocal slba units offset s) := answers_nvmeCmd

theorem answers_execNvmeMiCommand {transport op dword0 dword1 admin} : Answers (execNvmeMiCommand transport op dword0 dword1 admin s) := by
  unfold execNvmeMiCommand
  dsimp only
  repeat' split
  all_goals exact .next

theorem answers_execCreate {vfEnabled} : Answers (execCreate vfEnabled s) := answers_tenRun

theorem answers_execDestroy : Answers (execDestroy s) := answers_tenRun

theorem answers_execGrantFen : Answers (execGrantFen s) := answers_tenRun

theorem answers_execWithdrawFen : Answers (execWithdrawFen s) := answers_tenRun

theorem answers_execGrantCore : Answers (execGrantCore s) := answers_tenRun

theorem answers_execWithdrawCore : Answers (execWithdrawCore s) := answers_tenRun

theorem answers_execDedicate : Answers (execDedicate s) := answers_tenRun

theorem answers_execUndedicate : Answers (execUndedicate s) := answers_tenRun

theorem answers_execWithdrawDrainTimeout {unit} : Answers (execWithdrawDrainTimeout unit s) := by
  unfold execWithdrawDrainTimeout
  repeat' split
  all_goals exact .next

theorem answers_execFrameForward {wire} : Answers (execFrameForward wire s) := by
  unfold execFrameForward
  repeat' split
  all_goals exact .next

theorem answers_execNeighbourTimeout {node} : Answers (execNeighbourTimeout node s) := by
  unfold execNeighbourTimeout
  repeat' split
  all_goals exact .next

theorem answers_execRetransmitTimeout {node tenant seq} : Answers (execRetransmitTimeout node tenant seq s) := by
  unfold execRetransmitTimeout
  dsimp only
  repeat' split
  all_goals exact .next

theorem answers_execConnectionIdleClose {node tenant} : Answers (execConnectionIdleClose node tenant s) := by
  unfold execConnectionIdleClose
  dsimp only
  repeat' split
  all_goals exact .next

theorem answers_execFedTableLoad {table} : Answers (execFedTableLoad table s) := by
  unfold execFedTableLoad
  dsimp only
  repeat' split
  all_goals exact .next

theorem answers_execIdeIntegrityFailure {port stream} : Answers (execIdeIntegrityFailure port stream s) := by
  unfold execIdeIntegrityFailure
  dsimp only
  repeat' split
  all_goals exact .next

theorem answers_execPowerOn : Answers (execPowerOn s) := by
  unfold execPowerOn
  dsimp only
  repeat' split
  all_goals exact .next

theorem answers_execColdStart {env} : Answers (execColdStart env s) := by
  unfold execColdStart
  repeat' split
  all_goals exact .next

theorem answers_execWarmStart {env} : Answers (execWarmStart env s) := by
  unfold execWarmStart
  dsimp only
  repeat' split
  all_goals exact .next

theorem answers_execEntryCutoff : Answers (execEntryCutoff s) := by
  unfold execEntryCutoff
  repeat' split
  all_goals exact .next

theorem answers_execWatchdogExpire : Answers (execWatchdogExpire s) := by
  unfold execWatchdogExpire
  repeat' split
  all_goals exact .next

theorem answers_execStartReady : Answers (execStartReady s) := by
  unfold execStartReady
  dsimp only
  repeat' split
  all_goals exact .next

theorem answers_execPerstAssert {port} : Answers (execPerstAssert port s) := by
  unfold execPerstAssert
  dsimp only
  repeat' split
  all_goals exact .next

theorem answers_execSelfOk : Answers (execSelfOk s) := by
  unfold execSelfOk
  dsimp only
  repeat' split
  all_goals exact .next

theorem answers_execConfirmTimeout : Answers (execConfirmTimeout s) := by
  unfold execConfirmTimeout
  dsimp only
  repeat' split
  all_goals exact .next

theorem answers_execStage {data undelivered} : Answers (execStage data undelivered s) := by
  unfold execStage
  dsimp only
  repeat' split
  all_goals exact .next

theorem answers_execUpdWriteSlot : Answers (execUpdWriteSlot s) := answers_slotOp

theorem answers_execUpdWriteActivate : Answers (execUpdWriteActivate s) := answers_slotOp

theorem answers_execUpdActivateSlot : Answers (execUpdActivateSlot s) := answers_slotOp

theorem answers_execEvrRead : Answers (execEvrRead s) := by
  unfold execEvrRead
  dsimp only
  repeat' split
  all_goals exact .next

theorem answers_execEvrClear : Answers (execEvrClear s) := by
  unfold execEvrClear
  dsimp only
  repeat' split
  all_goals exact .next

theorem answers_execUnitTestRequest : Answers (execUnitTestRequest s) := by
  unfold execUnitTestRequest
  dsimp only
  repeat' split
  all_goals exact .next

theorem answers_execRotate : Answers (execRotate s) := by
  unfold execRotate
  dsimp only
  repeat' split
  all_goals exact .next

theorem answers_execTestDrainTimeout {unit} : Answers (execTestDrainTimeout unit s) := by
  unfold execTestDrainTimeout
  repeat' split
  all_goals exact .next

theorem answers_execInjectionWindowEnd {kind target} : Answers (execInjectionWindowEnd kind target s) := by
  unfold execInjectionWindowEnd
  dsimp only
  repeat' split
  all_goals exact .next

theorem answers_execEraseStatus {channel die block pass} : Answers (execEraseStatus channel die block pass s) := by
  unfold execEraseStatus
  dsimp only
  repeat' split
  all_goals exact .next

theorem answers_execUndefinedEncoding {core bytes} : Answers (execUndefinedEncoding core bytes s) := by
  unfold execUndefinedEncoding
  dsimp only
  repeat' split
  all_goals exact .next

theorem answers_execGNop {core pre} : Answers (execGNop core pre s) := answers_runIns

theorem answers_execGSyscall {core pre} : Answers (execGSyscall core pre s) := answers_runIns

theorem answers_execGBreak {core pre} : Answers (execGBreak core pre s) := answers_runIns

theorem answers_execGWait {core pre} : Answers (execGWait core pre s) := answers_runIns

theorem answers_execGCrw {core pre r crn} : Answers (execGCrw core pre r crn s) := answers_runCrw

theorem answers_execGLi {core pre d size imm} : Answers (execGLi core pre d size imm s) := answers_runIns

theorem answers_execGCas {core pre d a b} : Answers (execGCas core pre d a b s) := answers_runIns

theorem answers_execGFenceInstruction {core pre} : Answers (execGFenceInstruction core pre s) := answers_runIns

theorem answers_execGCpx {core pre d b size disp} : Answers (execGCpx core pre d b size disp s) := answers_runIns

theorem answers_execGChk {core pre d a b} : Answers (execGChk core pre d a b s) := answers_runIns

theorem answers_execGChku {core pre d a b} : Answers (execGChku core pre d a b s) := answers_runIns

theorem answers_execGChki {core pre a size lo hi} : Answers (execGChki core pre a size lo hi s) := answers_runIns

theorem answers_execGBc {core pre a cc b size disp} : Answers (execGBc core pre a cc b size disp s) := answers_runBranch

theorem answers_execGJal {core pre d size disp} : Answers (execGJal core pre d size disp s) := answers_runBranch

theorem answers_execGJalr {core pre d a} : Answers (execGJalr core pre d a s) := answers_runBranch

theorem runs_execColdStart {env} : Runs s (execColdStart env s) := by
  unfold execColdStart
  split
  · exact ⟨_, rfl, ((endTestSession_keeps ..).pending rfl).trans pending_runStart⟩
  · exact ⟨_, rfl, rfl⟩

theorem runs_execWarmStart {env} : Runs s (execWarmStart env s) := by
  unfold execWarmStart
  extract_lets entered
  have hentered : entered.pending = s.pending :=
    (Keeps.ite (finishEntry_keeps ..) (.refl _ _) : Keeps 264470268 s entered).pending rfl
  clear_value entered
  split
  · exact ⟨_, rfl, (((endTestSession_keeps ..).pending rfl).trans pending_runStart).trans hentered⟩
  · exact ⟨_, rfl, hentered⟩

/-- Every command answers a next state and leaves the queue of commands to the step. -/
theorem runs_exec (i : Instr) : Runs s (exec i s) := by
  cases i with
  | registerWrite => exact .of (execRegisterWrite_keeps _ _ _ _) rfl .next
  | readLoLatch => exact .of (execReadLoLatch_keeps _ _) rfl .next
  | unitRoleRead => exact .of (execUnitRoleRead_keeps _ _) rfl .next
  | readClear => exact .of (execReadClear_keeps _ _) rfl .next
  | keySlotStatusRead => exact .of (execKeySlotStatusRead_keeps _ _) rfl .next
  | commitGo => exact .of (execCommitGo_keeps _ _ _) rfl .next
  | commitDiscard => exact .of (execCommitDiscard_keeps _ _ _) rfl .next
  | commitTakesEffect => exact .of (execCommitTakesEffect_keeps _ _) rfl .next
  | packetArrive => exact .of (execPacketArrive_keeps _ _ _ _ _) rfl answers_execPacketArrive
  | flitArrive => exact .of (execFlitArrive_keeps _ _ _ _ _ _ _ _ _ _ _) rfl answers_execFlitArrive
  | genHeldEventApply => exact .of (execGenHeldEventApply_keeps _ _) rfl answers_execGenHeldEventApply
  | cfgLoadRequest => exact .of (execCfgLoadRequest_keeps _) rfl .next
  | loaderFetchHead => exact .of (execLoaderFetchHead_keeps _) rfl answers_execLoaderFetchHead
  | loaderHeaderArrived => exact .of (execLoaderHeaderArrived_keeps _ _ _) rfl answers_execLoaderHeaderArrived
  | loaderAuthenticate => exact .of (execLoaderAuthenticate_keeps _ _ _) rfl answers_execLoaderAuthenticate
  | loaderBlockArrived => exact .of (execLoaderBlockArrived_keeps _ _ _) rfl answers_execLoaderBlockArrived
  | screenComplete netlist =>
    exact show Runs s (execScreenComplete netlist s) from .of (execScreenComplete_keeps _ _) rfl answers_inState
  | fenApplyStart => exact .of (execFenApplyStart_keeps _) rfl answers_execFenApplyStart
  | fenDrainTimeout => exact .of (execFenDrainTimeout_keeps _) rfl answers_execFenDrainTimeout
  | fenSafePointA => exact .of (execFenSafePointA_keeps _) rfl answers_execFenSafePointA
  | fenSafePointB => exact .of (execFenSafePointB_keeps _) rfl answers_execFenSafePointB
  | loaderKeyRevoked => exact .of (execLoaderKeyRevoked_keeps _) rfl answers_execLoaderKeyRevoked
  | structureStreamStored => exact .of (execStructureStreamStored_keeps _) rfl answers_execStructureStreamStored
  | fenOutputBeat => exact .of (execFenOutputBeat_keeps _ _ _ _ _ _) rfl answers_execFenOutputBeat
  | fenLast => exact .of (execFenLast_keeps _ _ _ _ _) rfl answers_execFenLast
  | fenCtlwinAccess => exact .of (execFenCtlwinAccess_keeps _ _ _ _ _ _) rfl .next
  | ctlwinTimeout => exact .of (execCtlwinTimeout_keeps _ _ _) rfl .next
  | fenFencingDone => exact .of (execFenFencingDone_keeps _ _) rfl .next
  | fencingTimeout => exact .of (execFencingTimeout_keeps _ _) rfl answers_execFencingTimeout
  | holdRelease => exact .of (execHoldRelease_keeps _ _) rfl .next
  | fenOverpower => exact .of (execFenOverpower_keeps _ _ _) rfl answers_execFenOverpower
  | fenScrubDone => exact .of (execFenScrubDone_keeps _ _) rfl answers_execFenScrubDone
  | ticketSubmit => exact .of (execTicketSubmit_keeps _ _ _) rfl answers_execTicketSubmit
  | epochStart => exact .of (execEpochStart_keeps _ _) rfl .next
  | portionConsider => exact .of (execPortionConsider_keeps _ _) rfl answers_execPortionConsider
  | deadlineExpire => exact .of (execDeadlineExpire_keeps _ _) rfl answers_execDeadlineExpire
  | endTokenArrive => exact .of execEndTokenArrive_keeps rfl answers_execEndTokenArrive
  | revokeTokenArrive => exact .of (execRevokeTokenArrive_keeps _ _ _ _) rfl answers_execRevokeTokenArrive
  | sidingPop => exact .of (execSidingPop_keeps _ _) rfl .next
  | baseMwUpdate => exact .of (execBaseMwUpdate_keeps _ _ _) rfl .next
  | domainRetention => exact .of (execDomainRetention_keeps _ _) rfl answers_execDomainRetention
  | domainGateOff => exact .of (execDomainGateOff_keeps _ _) rfl answers_execDomainGateOff
  | domainWake => exact .of (execDomainWake_keeps _ _ _) rfl answers_execDomainWake
  | operatingPointChange => exact .of (execOperatingPointChange_keeps _ _ _ _) rfl answers_execOperatingPointChange
  | peatRampElapsed => exact .of (execPeatRampElapsed_keeps _) rfl answers_execPeatRampElapsed
  | peatTargetReached => exact .of (execPeatTargetReached_keeps _ _) rfl answers_execPeatTargetReached
  | peatOvervoltage => exact .of (execPeatOvervoltage_keeps _ _) rfl answers_execPeatOvervoltage
  | peatFloorTimeout => exact .of (execPeatFloorTimeout_keeps _ _) rfl answers_execPeatFloorTimeout
  | measRequest => exact .of (execMeasRequest_keeps _) rfl .next
  | measurementDue => exact .of (execMeasurementDue_keeps _) rfl answers_execMeasurementDue
  | measurementDone => exact .of (execMeasurementDone_keeps _ _ _) rfl answers_execMeasurementDone
  | measurementTimeout => exact .of (execMeasurementTimeout_keeps _) rfl answers_execMeasurementTimeout
  | vin12Low => exact .of (execVin12Low_keeps _ _) rfl .next
  | pwrdisAssert => exact .of (execPwrdisAssert_keeps _) rfl .next
  | flushDirtyFenceTimeout => exact .of (execFlushDirtyFenceTimeout_keeps _) rfl answers_execFlushDirtyFenceTimeout
  | flushEnd => exact .of (execFlushEnd_keeps _ _) rfl answers_execFlushEnd
  | inputReturn => exact .of (execInputReturn_keeps _) rfl answers_execInputReturn
  | brownOut => exact .of (execBrownOut_keeps _) rfl .next
  | sensorSample => exact .of (execSensorSample_keeps _ _) rfl answers_execSensorSample
  | flashTrainPassDone => exact .of (execFlashTrainPassDone_keeps _ _ _ _) rfl answers_execFlashTrainPassDone
  | flashRetrainBegin => exact .of (execFlashRetrainBegin_keeps _ _) rfl answers_execFlashRetrainBegin
  | codewordDecode => exact .of (execCodewordDecode_keeps _ _ _ _) rfl answers_execCodewordDecode
  | partialParityTimeout => exact .of (execPartialParityTimeout_keeps _ _ _) rfl .next
  | programStatus => exact .of (execProgramStatus_keeps _ _ _) rfl answers_execProgramStatus
  | pageSealTimeout => exact .of (execPageSealTimeout_keeps _ _ _) rfl answers_execPageSealTimeout
  | journalPageProgrammed => exact .of (execJournalPageProgrammed_keeps _ _ _) rfl .next
  | checkpointBegin => exact .of (execCheckpointBegin_keeps _) rfl .next
  | ckptRequest => exact .of (execCkptRequest_keeps _) rfl .next
  | ckptSecondsExpire => exact .of (execCkptSecondsExpire_keeps _) rfl .next
  | relocateGroup => exact .of (execRelocateGroup_keeps _ _ _ _) rfl answers_execRelocateGroup
  | patrolRead => exact .of (execPatrolRead_keeps _ _ _ _ _) rfl answers_execPatrolRead
  | staticLevelling => exact .of (execStaticLevelling_keeps _) rfl answers_execStaticLevelling
  | minuteTick => exact .of (execMinuteTick_keeps _) rfl .next
  | readWriteBack => exact .of (execReadWriteBack_keeps _ _) rfl .next
  | writeThrough => exact .of (execWriteThrough_keeps _ _) rfl .next
  | drain => exact .of (execDrain_keeps _ _) rfl .next
  | deallocate => exact .of (execDeallocate_keeps _) rfl .next
  | secureDeallocate => exact .of (execSecureDeallocate_keeps _ _ _) rfl .next
  | durable => exact .of (execDurable_keeps _) rfl .next
  | mapWrite => exact .of (execMapWrite_keeps _) rfl .next
  | read => exact .of (execRead_keeps _ _) rfl .next
  | writeSluice => exact .of (execWriteSluice_keeps _ _) rfl .next
  | writeDense => exact .of (execWriteDense_keeps _ _) rfl .next
  | readRaw => exact .of (execReadRaw_keeps _ _ _) rfl .next
  | parityEngineStep => exact .of (execParityEngineStep_keeps _ _ _) rfl answers_execParityEngineStep
  | slotCompress => exact .of (execSlotCompress_keeps _ _ _) rfl .next
  | slotDecompress => exact .of (execSlotDecompress_keeps _ _ _ _) rfl .next
  | streamCompress => exact .of (execStreamCompress_keeps _ _ _) rfl .next
  | streamDecompress => exact .of (execStreamDecompress_keeps _ _ _ _) rfl .next
  | xtsEnc => exact .of (execXtsEnc_keeps _ _ _) rfl .next
  | xtsDec => exact .of (execXtsDec_keeps _ _ _) rfl .next
  | gcmEnc => exact .of (execGcmEnc_keeps _ _ _) rfl .next
  | gcmDec => exact .of (execGcmDec_keeps _ _ _) rfl .next
  | gcmHoldRoomFree => exact .of (execGcmHoldRoomFree_keeps _ _) rfl .next
  | pass => exact .of (execPass_keeps _ _) rfl .next
  | sink => exact .of (execSink_keeps _ _) rfl .next
  | search4 => exact .of (execSearch4_keeps _ _) rfl .next
  | search16 => exact .of (execSearch16_keeps _ _) rfl .next
  | search64 => exact .of (execSearch64_keeps _ _) rfl .next
  | update => exact .of (execUpdate_keeps _ _) rfl .next
  | asuHoldRoomFree => exact .of (execAsuHoldRoomFree_keeps _ _) rfl answers_execAsuHoldRoomFree
  | scrubRead => exact .of (execScrubRead_keeps _ _ _ _ _ _) rfl answers_execScrubRead
  | bankCopyDone => exact .of (execBankCopyDone_keeps _ _) rfl answers_execBankCopyDone
  | send => exact .of execSend_keeps rfl .next
  | receive => exact .of (execReceive_keeps _ _) rfl .next
  | hostPortFetch => exact .of (execHostPortFetch_keeps _ _ _ _) rfl .next
  | hostPortWrite => exact .of (execHostPortWrite_keeps _ _ _) rfl .next
  | dramStation => exact .of (execDramStation_keeps _ _ _) rfl .next
  | program => exact .of (execProgram_keeps _ _) rfl .next
  | load => exact .of (execLoad_keeps _ _) rfl .next
  | keyGrant => exact .of (execKeyGrant_keeps _) rfl answers_execKeyGrant
  | keyLoad => exact .of (execKeyLoad_keeps _ _) rfl answers_execKeyLoad
  | keyErase => exact .of (execKeyErase_keeps _) rfl answers_execKeyErase
  | keyWithdraw => exact .of (execKeyWithdraw_keeps _) rfl answers_execKeyWithdraw
  | ctxExport => exact .of (execCtxExport_keeps _) rfl answers_execCtxExport
  | ctxImport => exact .of (execCtxImport_keeps _ _) rfl answers_execCtxImport
  | ctxFree => exact .of (execCtxFree_keeps _) rfl answers_execCtxFree
  | keyUseZero => exact .of (execKeyUseZero_keeps _ _) rfl answers_execKeyUseZero
  | keyFenceTimeout => exact .of (execKeyFenceTimeout_keeps _ _) rfl answers_execKeyFenceTimeout
  | keyFenceComplete => exact .of (execKeyFenceComplete_keeps _ _) rfl answers_execKeyFenceComplete
  | feedStart => exact .of (execFeedStart_keeps _ _) rfl answers_execFeedStart
  | save => exact .of (execSave_keeps _ _) rfl answers_execSave
  | restore => exact .of (execRestore_keeps _ _ _) rfl answers_execRestore
  | abandon => exact .of (execAbandon_keeps _ _) rfl answers_execAbandon
  | feedW0 => exact .of (execFeedW0_keeps _ _ _) rfl .next
  | feedW1 => exact .of (execFeedW1_keeps _ _ _) rfl .next
  | feedLast => exact .of (execFeedLast_keeps _ _ _) rfl .next
  | gNop => exact .of (execGNop_keeps _ _ _) rfl answers_execGNop
  | gSyscall => exact .of (execGSyscall_keeps _ _ _) rfl answers_execGSyscall
  | gBreak => exact .of (execGBreak_keeps _ _ _) rfl answers_execGBreak
  | gRft => exact .of (execGRft_keeps _ _ _) rfl answers_execGRft
  | gWait => exact .of (execGWait_keeps _ _ _) rfl answers_execGWait
  | gCrr => exact .of (execGCrr_keeps _ _ _ _ _) rfl answers_runCrr
  | gCrw => exact .of (execGCrw_keeps _ _ _ _ _) rfl answers_execGCrw
  | inqPop => exact .of (execInqPop_keeps _ _ _) rfl answers_execInqPop
  | inqFree => exact .of (execInqFree_keeps _ _ _) rfl answers_execInqFree
  | emit => exact .of (execEmit_keeps _ _ _) rfl answers_execEmit
  | submit => exact .of (execSubmit_keeps _ _ _) rfl answers_execSubmit
  | timerRaise => exact .of (execTimerRaise_keeps _ _) rfl answers_execTimerRaise
  | interrupt => exact .of (execInterrupt_keeps _ _) rfl answers_execInterrupt
  | gAdd => exact .of (execGAdd_keeps _ _ _ _ _ _) rfl answers_runAlu3
  | gSub => exact .of (execGSub_keeps _ _ _ _ _ _) rfl answers_runAlu3
  | gAnd => exact .of (execGAnd_keeps _ _ _ _ _ _) rfl answers_runAlu3
  | gOr => exact .of (execGOr_keeps _ _ _ _ _ _) rfl answers_runAlu3
  | gXor => exact .of (execGXor_keeps _ _ _ _ _ _) rfl answers_runAlu3
  | gShl => exact .of (execGShl_keeps _ _ _ _ _ _) rfl answers_runAlu3
  | gShr => exact .of (execGShr_keeps _ _ _ _ _ _) rfl answers_runAlu3
  | gSar => exact .of (execGSar_keeps _ _ _ _ _ _) rfl answers_runAlu3
  | gMul => exact .of (execGMul_keeps _ _ _ _ _ _) rfl answers_runAlu3
  | gMulh => exact .of (execGMulh_keeps _ _ _ _ _ _) rfl answers_runAlu3
  | gMulhu => exact .of (execGMulhu_keeps _ _ _ _ _ _) rfl answers_runAlu3
  | gDiv => exact .of (execGDiv_keeps _ _ _ _ _ _ _) rfl answers_runDiv
  | gDivu => exact .of (execGDivu_keeps _ _ _ _ _ _ _) rfl answers_runDiv
  | gDivn => exact .of (execGDivn_keeps _ _ _ _ _ _ _) rfl answers_runDiv
  | gNeg => exact .of (execGNeg_keeps _ _ _ _ _) rfl answers_runAlu2
  | gNot => exact .of (execGNot_keeps _ _ _ _ _) rfl answers_runAlu2
  | gClz => exact .of (execGClz_keeps _ _ _ _ _) rfl answers_runAlu2
  | gCtz => exact .of (execGCtz_keeps _ _ _ _ _) rfl answers_runAlu2
  | gPopc => exact .of (execGPopc_keeps _ _ _ _ _) rfl answers_runAlu2
  | gBswap => exact .of (execGBswap_keeps _ _ _ _ _) rfl answers_runAlu2
  | gSeq => exact .of (execGSeq_keeps _ _ _ _ _ _) rfl answers_runSet3
  | gSne => exact .of (execGSne_keeps _ _ _ _ _ _) rfl answers_runSet3
  | gSlt => exact .of (execGSlt_keeps _ _ _ _ _ _) rfl answers_runSet3
  | gSltu => exact .of (execGSltu_keeps _ _ _ _ _ _) rfl answers_runSet3
  | gSge => exact .of (execGSge_keeps _ _ _ _ _ _) rfl answers_runSet3
  | gSgeu => exact .of (execGSgeu_keeps _ _ _ _ _ _) rfl answers_runSet3
  | gAddi => exact .of (execGAddi_keeps _ _ _ _ _ _ _) rfl answers_runAluI
  | gAndi => exact .of (execGAndi_keeps _ _ _ _ _ _ _) rfl answers_runAluI
  | gOri => exact .of (execGOri_keeps _ _ _ _ _ _ _) rfl answers_runAluI
  | gXori => exact .of (execGXori_keeps _ _ _ _ _ _ _) rfl answers_runAluI
  | gShli => exact .of (execGShli_keeps _ _ _ _ _ _ _) rfl answers_runAluI
  | gShri => exact .of (execGShri_keeps _ _ _ _ _ _ _) rfl answers_runAluI
  | gSari => exact .of (execGSari_keeps _ _ _ _ _ _ _) rfl answers_runAluI
  | gMuli => exact .of (execGMuli_keeps _ _ _ _ _ _ _) rfl answers_runAluI
  | gSeqi => exact .of (execGSeqi_keeps _ _ _ _ _ _ _) rfl answers_runSetI
  | gSnei => exact .of (execGSnei_keeps _ _ _ _ _ _ _) rfl answers_runSetI
  | gSlti => exact .of (execGSlti_keeps _ _ _ _ _ _ _) rfl answers_runSetI
  | gSltui => exact .of (execGSltui_keeps _ _ _ _ _ _ _) rfl answers_runSetI
  | gSgei => exact .of (execGSgei_keeps _ _ _ _ _ _ _) rfl answers_runSetI
  | gSgeui => exact .of (execGSgeui_keeps _ _ _ _ _ _ _) rfl answers_runSetI
  | gLi => exact .of (execGLi_keeps _ _ _ _ _ _) rfl answers_execGLi
  | gLdb => exact .of (execGLdb_keeps _ _ _ _ _ _ _) rfl answers_runLoad
  | gLdbu => exact .of (execGLdbu_keeps _ _ _ _ _ _ _) rfl answers_runLoad
  | gLdh => exact .of (execGLdh_keeps _ _ _ _ _ _ _) rfl answers_runLoad
  | gLdhu => exact .of (execGLdhu_keeps _ _ _ _ _ _ _) rfl answers_runLoad
  | gLdw => exact .of (execGLdw_keeps _ _ _ _ _ _ _) rfl answers_runLoad
  | gLdwu => exact .of (execGLdwu_keeps _ _ _ _ _ _ _) rfl answers_runLoad
  | gLdd => exact .of (execGLdd_keeps _ _ _ _ _ _ _) rfl answers_runLoad
  | gStb => exact .of (execGStb_keeps _ _ _ _ _ _ _) rfl answers_runStore
  | gSth => exact .of (execGSth_keeps _ _ _ _ _ _ _) rfl answers_runStore
  | gStw => exact .of (execGStw_keeps _ _ _ _ _ _ _) rfl answers_runStore
  | gStd => exact .of (execGStd_keeps _ _ _ _ _ _ _) rfl answers_runStore
  | gLdbU => exact .of (execGLdbU_keeps _ _ _ _ _ _ _) rfl answers_runLoad
  | gLdbuU => exact .of (execGLdbuU_keeps _ _ _ _ _ _ _) rfl answers_runLoad
  | gLdhU => exact .of (execGLdhU_keeps _ _ _ _ _ _ _) rfl answers_runLoad
  | gLdhuU => exact .of (execGLdhuU_keeps _ _ _ _ _ _ _) rfl answers_runLoad
  | gLdwU => exact .of (execGLdwU_keeps _ _ _ _ _ _ _) rfl answers_runLoad
  | gLdwuU => exact .of (execGLdwuU_keeps _ _ _ _ _ _ _) rfl answers_runLoad
  | gLddU => exact .of (execGLddU_keeps _ _ _ _ _ _ _) rfl answers_runLoad
  | gStbU => exact .of (execGStbU_keeps _ _ _ _ _ _ _) rfl answers_runStore
  | gSthU => exact .of (execGSthU_keeps _ _ _ _ _ _ _) rfl answers_runStore
  | gStwU => exact .of (execGStwU_keeps _ _ _ _ _ _ _) rfl answers_runStore
  | gStdU => exact .of (execGStdU_keeps _ _ _ _ _ _ _) rfl answers_runStore
  | gCas => exact .of (execGCas_keeps _ _ _ _ _ _) rfl answers_execGCas
  | gFenceInstruction => exact .of (execGFenceInstruction_keeps _ _ _) rfl answers_execGFenceInstruction
  | gCpx => exact .of (execGCpx_keeps _ _ _ _ _ _ _) rfl answers_execGCpx
  | gChk => exact .of (execGChk_keeps _ _ _ _ _ _) rfl answers_execGChk
  | gChku => exact .of (execGChku_keeps _ _ _ _ _ _) rfl answers_execGChku
  | gChki => exact .of (execGChki_keeps _ _ _ _ _ _ _) rfl answers_execGChki
  | gBc => exact .of execGBc_keeps rfl answers_execGBc
  | gJal => exact .of execGJal_keeps rfl answers_execGJal
  | gJalr => exact .of execGJalr_keeps rfl answers_execGJalr
  | coreStart => exact .of (execCoreStart_keeps _ _ _) rfl .next
  | coreStop => exact .of (execCoreStop_keeps _ _) rfl .next
  | coreScrubDone => exact .of (execCoreScrubDone_keeps _ _) rfl answers_execCoreScrubDone
  | coreIdleSlowdown => exact .of (execCoreIdleSlowdown_keeps _ _) rfl answers_execCoreIdleSlowdown
  | dramRefresh => exact .of (execDramRefresh_keeps _ _ _ _) rfl answers_execDramRefresh
  | dramTempRead => exact .of (execDramTempRead_keeps _ _ _) rfl answers_execDramTempRead
  | dramPatrol => exact .of (execDramPatrol_keeps _ _ _ _ _) rfl answers_execDramPatrol
  | dramTrainPassDone => exact .of (execDramTrainPassDone_keeps _ _ _ _) rfl answers_execDramTrainPassDone
  | dramTrainWindowEnd => exact .of (execDramTrainWindowEnd_keeps _ _) rfl answers_execDramTrainWindowEnd
  | sqDoorbell => exact .of (execSqDoorbell_keeps _ _ _ _ _) rfl answers_execSqDoorbell
  | createIoSq => exact .of (execCreateIoSq_keeps _ _) rfl answers_execCreateIoSq
  | deleteIoSq => exact .of (execDeleteIoSq_keeps _ _) rfl answers_execDeleteIoSq
  | createIoCq => exact .of (execCreateIoCq_keeps _ _) rfl answers_execCreateIoCq
  | deleteIoCq => exact .of (execDeleteIoCq_keeps _ _) rfl answers_execDeleteIoCq
  | getLogPage => exact .of (execGetLogPage_keeps _ _) rfl answers_execGetLogPage
  | identify => exact .of (execIdentify_keeps _ _) rfl answers_execIdentify
  | abort => exact .of (execAbort_keeps _ _) rfl answers_execAbort
  | setFeatures => exact .of (execSetFeatures_keeps _ _ _) rfl answers_execSetFeatures
  | getFeatures => exact .of (execGetFeatures_keeps _ _) rfl answers_execGetFeatures
  | asynchronousEventRequest => exact .of (execAsynchronousEventRequest_keeps _ _) rfl answers_execAsynchronousEventRequest
  | namespaceManagement => exact .of (execNamespaceManagement_keeps _ _ _) rfl answers_execNamespaceManagement
  | namespaceAttachment => exact .of (execNamespaceAttachment_keeps _ _ _) rfl answers_execNamespaceAttachment
  | firmwareCommit => exact .of (execFirmwareCommit_keeps _ _) rfl answers_execFirmwareCommit
  | firmwareImageDownload => exact .of (execFirmwareImageDownload_keeps _ _ _) rfl answers_execFirmwareImageDownload
  | deviceSelfTest => exact .of (execDeviceSelfTest_keeps _ _) rfl answers_execDeviceSelfTest
  | virtualizationManagement => exact .of (execVirtualizationManagement_keeps _ _) rfl answers_execVirtualizationManagement
  | nvmeMiSend => exact .of (execNvmeMiSend_keeps _ _) rfl answers_execNvmeMiSend
  | nvmeMiReceive => exact .of (execNvmeMiReceive_keeps _ _) rfl answers_execNvmeMiReceive
  | formatNvm => exact .of (execFormatNvm_keeps _ _) rfl answers_execFormatNvm
  | sanitize => exact .of (execSanitize_keeps _ _) rfl answers_execSanitize
  | invalidCommandOpcode => exact .of (execInvalidCommandOpcode_keeps _ _ _) rfl answers_execInvalidCommandOpcode
  | nvmeRead => exact .of (execNvmeRead_keeps _ _ _) rfl answers_execNvmeRead
  | nvmeWrite => exact .of (execNvmeWrite_keeps _ _ _) rfl answers_execNvmeWrite
  | flush => exact .of (execFlush_keeps _ _ _) rfl answers_execFlush
  | writeZeroes => exact .of (execWriteZeroes_keeps _ _ _) rfl answers_execWriteZeroes
  | datasetManagement => exact .of (execDatasetManagement_keeps _ _ _ _) rfl answers_execDatasetManagement
  | zoneAppend => exact .of (execZoneAppend_keeps _ _ _) rfl answers_execZoneAppend
  | zoneOpen => exact .of (execZoneOpen_keeps _ _ _) rfl answers_execZoneOpen
  | zoneClose => exact .of (execZoneClose_keeps _ _ _) rfl answers_execZoneClose
  | zoneFinish => exact .of (execZoneFinish_keeps _ _ _) rfl answers_execZoneFinish
  | zoneReset => exact .of (execZoneReset_keeps _ _ _) rfl answers_execZoneReset
  | reportZones => exact .of (execReportZones_keeps _ _ _) rfl answers_execReportZones
  | loadProgram => exact .of (execLoadProgram_keeps _ _ _ _ _ _ _) rfl answers_execLoadProgram
  | programActivation => exact .of (execProgramActivation_keeps _ _ _ _) rfl answers_execProgramActivation
  | executeProgram => exact .of (execExecuteProgram_keeps _ _ _ _) rfl answers_execExecuteProgram
  | memoryWrite => exact .of (execMemoryWrite_keeps _ _ _ _ _) rfl answers_execMemoryWrite
  | memoryRead => exact .of (execMemoryRead_keeps _ _ _ _ _) rfl answers_execMemoryRead
  | memoryCopy => exact .of (execMemoryCopy_keeps _ _ _ _ _ _ _) rfl answers_execMemoryCopy
  | functionLevelReset => exact .of (execFunctionLevelReset_keeps _ _ _) rfl .next
  | linkDown => exact .of (execLinkDown_keeps _ _) rfl .next
  | linkRetrain => exact .of (execLinkRetrain_keeps _ _ _ _) rfl .next
  | nvmeMiCommand => exact .of (execNvmeMiCommand_keeps _ _ _ _ _ _) rfl answers_execNvmeMiCommand
  | create => exact .of (execCreate_keeps _ _) rfl answers_execCreate
  | destroy => exact .of (execDestroy_keeps _) rfl answers_execDestroy
  | grantFen => exact .of (execGrantFen_keeps _) rfl answers_execGrantFen
  | withdrawFen => exact .of (execWithdrawFen_keeps _) rfl answers_execWithdrawFen
  | grantCore => exact .of (execGrantCore_keeps _) rfl answers_execGrantCore
  | withdrawCore => exact .of (execWithdrawCore_keeps _) rfl answers_execWithdrawCore
  | dedicate => exact .of (execDedicate_keeps _) rfl answers_execDedicate
  | undedicate => exact .of (execUndedicate_keeps _) rfl answers_execUndedicate
  | withdrawDrainTimeout => exact .of (execWithdrawDrainTimeout_keeps _ _) rfl answers_execWithdrawDrainTimeout
  | instanceReset => exact .of (execInstanceReset_keeps _ _ _) rfl .next
  | logSwitch => exact .of (execLogSwitch_keeps _ _) rfl .next
  | lmemLostPop => exact .of (execLmemLostPop_keeps _ _) rfl .next
  | data => exact .of (execData_keeps _ _) rfl .next
  | ack => exact .of (execAck_keeps _ _) rfl .next
  | outcome => exact .of (execOutcome_keeps _ _) rfl .next
  | heartbeat => exact .of (execHeartbeat_keeps _ _) rfl .next
  | loss => exact .of (execLoss_keeps _ _) rfl .next
  | promoted => exact .of (execPromoted_keeps _ _) rfl .next
  | stalePeer => exact .of (execStalePeer_keeps _ _) rfl .next
  | frameForward => exact .of (execFrameForward_keeps _ _) rfl answers_execFrameForward
  | heartbeatTick => exact .of (execHeartbeatTick_keeps _) rfl .next
  | neighbourTimeout => exact .of (execNeighbourTimeout_keeps _ _) rfl answers_execNeighbourTimeout
  | uaserLinkDown => exact .of (execUaserLinkDown_keeps _ _) rfl .next
  | retransmitTimeout => exact .of (execRetransmitTimeout_keeps _ _ _ _) rfl answers_execRetransmitTimeout
  | connectionIdleClose => exact .of (execConnectionIdleClose_keeps _ _ _) rfl answers_execConnectionIdleClose
  | primaryClaimTimeout => exact .of (execPrimaryClaimTimeout_keeps _) rfl .next
  | fedTableLoad => exact .of (execFedTableLoad_keeps _ _) rfl answers_execFedTableLoad
  | getVersion => exact .of (execGetVersion_keeps _ _) rfl .next
  | getCapabilities => exact .of (execGetCapabilities_keeps _ _) rfl .next
  | negotiateAlgorithms => exact .of (execNegotiateAlgorithms_keeps _ _ _ _ _ _ _) rfl .next
  | getDigests => exact .of (execGetDigests_keeps _ _) rfl .next
  | getCertificate => exact .of (execGetCertificate_keeps _ _ _ _ _) rfl .next
  | challenge => exact .of (execChallenge_keeps _ _ _ _) rfl .next
  | getMeasurements => exact .of (execGetMeasurements_keeps _ _ _ _ _) rfl .next
  | keyExchange => exact .of (execKeyExchange_keeps _ _ _) rfl .next
  | finish => exact .of (execFinish_keeps _ _ _ _ _ _) rfl .next
  | spdmHeartbeat => exact .of (execSpdmHeartbeat_keeps _ _ _) rfl .next
  | keyUpdate => exact .of (execKeyUpdate_keeps _ _ _) rfl .next
  | endSession => exact .of (execEndSession_keeps _ _ _) rfl .next
  | unsupportedRequest => exact .of (execUnsupportedRequest_keeps _ _) rfl .next
  | pqChain => exact .of (execPqChain_keeps _ _ _) rfl .next
  | pqQuote => exact .of (execPqQuote_keeps _ _ _ _) rfl .next
  | bind => exact .of (execBind_keeps _ _ _ _) rfl .next
  | regUpdate => exact .of (execRegUpdate_keeps _ _ _ _ _ _ _ _) rfl .next
  | release => exact .of (execRelease_keeps _ _ _) rfl .next
  | testOpen => exact .of (execTestOpen_keeps _ _ _) rfl .next
  | testClose => exact .of (execTestClose_keeps _ _ _) rfl .next
  | decommission => exact .of (execDecommission_keeps _ _ _) rfl .next
  | ideKm => exact .of (execIdeKm_keeps _ _ _ _ _) rfl .next
  | ideIntegrityFailure => exact .of (execIdeIntegrityFailure_keeps _ _ _) rfl answers_execIdeIntegrityFailure
  | tdispMessage => exact .of (execTdispMessage_keeps _ _ _ _ _) rfl .next
  | measSelect => exact .of (execMeasSelect_keeps _ _) rfl .next
  | powerOn => exact .of (execPowerOn_keeps _) rfl answers_execPowerOn
  | coldStart => exact runs_execColdStart
  | warmStart => exact runs_execWarmStart
  | warm => exact .of (execWarm_keeps _) rfl .next
  | entryCutoff => exact .of (execEntryCutoff_keeps _) rfl answers_execEntryCutoff
  | watchdogExpire => exact .of (execWatchdogExpire_keeps _) rfl answers_execWatchdogExpire
  | startReady => exact .of (execStartReady_keeps _) rfl answers_execStartReady
  | perstAssert => exact .of (execPerstAssert_keeps _ _) rfl answers_execPerstAssert
  | perstRelease => exact .of (execPerstRelease_keeps _ _) rfl .next
  | selfOk => exact .of (execSelfOk_keeps _) rfl answers_execSelfOk
  | confirmTimeout => exact .of (execConfirmTimeout_keeps _) rfl answers_execConfirmTimeout
  | stage => exact .of (execStage_keeps _ _ _) rfl answers_execStage
  | updWriteSlot => exact .of (execUpdWriteSlot_keeps _) rfl answers_execUpdWriteSlot
  | updWriteActivate => exact .of (execUpdWriteActivate_keeps _) rfl answers_execUpdWriteActivate
  | updActivateSlot => exact .of (execUpdActivateSlot_keeps _) rfl answers_execUpdActivateSlot
  | activate => exact .of (execActivate_keeps _) rfl .next
  | confirm => exact .of (execConfirm_keeps _) rfl .next
  | mirrorPageFlush => exact .of (execMirrorPageFlush_keeps _) rfl .next
  | suppressed => exact .of (execSuppressed_keeps _) rfl .next
  | evrRead => exact .of (execEvrRead_keeps _) rfl answers_execEvrRead
  | evrClear => exact .of (execEvrClear_keeps _) rfl answers_execEvrClear
  | unitTestRequest => exact .of (execUnitTestRequest_keeps _) rfl answers_execUnitTestRequest
  | rotate => exact .of (execRotate_keeps _) rfl answers_execRotate
  | testDrainTimeout => exact .of (execTestDrainTimeout_keeps _ _) rfl answers_execTestDrainTimeout
  | unitTestDone => exact .of (execUnitTestDone_keeps _ _ _) rfl .next
  | sramSymbol => exact .of (execSramSymbol_keeps _) rfl .next
  | trunkSymbol => exact .of (execTrunkSymbol_keeps _) rfl .next
  | dramSymbol => exact .of (execDramSymbol_keeps _) rfl .next
  | flashBits => exact .of (execFlashBits_keeps _) rfl .next
  | flashFail => exact .of (execFlashFail_keeps _) rfl .next
  | causewayDelay => exact .of (execCausewayDelay_keeps _) rfl .next
  | backpressure => exact .of (execBackpressure_keeps _) rfl .next
  | clock => exact .of (execClock_keeps _) rfl .next
  | injectionWindowEnd => exact .of (execInjectionWindowEnd_keeps _ _ _) rfl answers_execInjectionWindowEnd
  | stop => exact .of (execStop_keeps _) rfl .next
  | smbusTimeout => exact .of (execSmbusTimeout_keeps _) rfl .next
  | eraseStatus => exact .of (execEraseStatus_keeps _ _ _ _ _) rfl answers_execEraseStatus
  | undefinedEncoding => exact .of (execUndefinedEncoding_keeps _ _ _) rfl answers_execUndefinedEncoding
  | uaserLinkUp => exact .of (execUaserLinkUp_keeps _ _ _) rfl .next
  | testPortInstruction => exact .of (execTestPortInstruction_keeps _ _) rfl .next

/-- The table gives no row bits of a word, so a word placed spells no command. -/
theorem withFetchWord_eq {nbits w : Nat} : s.withFetchWord nbits w = s := rfl

/-- Settles O57: each command answers a next state with its queue as it was, which the step gives as the queue's rest. -/
theorem aStepRunsTheCommandAtTheFront : Obligations.AStepRunsTheCommandAtTheFront := by
  intro c s rest nbits w
  refine ⟨rfl, runs_exec c, fun hempty => ?_, withFetchWord_eq⟩
  unfold step
  rw [hempty]

end Sys2Proof.Machine
end


section
/-! SUPPORT and O60. LIFECYCLE only advances (19_trust_and_attestation.md, R652): of all the operations of the model, two write
it. Burning the fuses takes a device from MANUFACTURE to DEPLOYED, and a register set that asks for it is refused elsewhere;
the vendor request DECOMMISSION takes it to DECOMMISSIONED. -/

namespace Sys2Proof.Machine

/-- `t` has the life cycle of `s`, or the fuses of a device in MANUFACTURE were burned. -/
def Onward (s t : State) : Prop :=
  t.tru.lifecycle = s.tru.lifecycle ∨ s.tru.lifecycle = 0 ∧ t.tru.lifecycle = 1

/-- The next state, where there is one. -/
def OnwardO (s : State) (o : Out) : Prop := ∀ t, o = .next t → Onward s t

namespace Onward

variable {s t u : State}

theorem refl (s : State) : Onward s s := .inl rfl

/-- One more operation, the outermost first. -/
theorem after (k : Onward t u) (h : Onward s t) : Onward s u := by
  unfold Onward at *
  omega

theorem via {m : Nat} (k : Keeps m t u) (hm : m.testBit 20 = false) (h : Onward s t) : Onward s u :=
  after (.inl (by rw [k.tru hm])) h

theorem of_keeps {m : Nat} (k : Keeps m s t) (hm : m.testBit 20 = false) : Onward s t := via k hm (refl s)

theorem put_instEpoch (h : Onward s t) (n : Tab Nat) :
    Onward s { t with tru := { t.tru with instEpoch := n } } := h

theorem ite {p : Prop} [Decidable p] (h : Onward s t) (k : Onward s u) : Onward s (if p then t else u) := by
  split <;> assumption

theorem foldl {α : Type} {f : State → α → State} {l : List α} (hf : ∀ t x, Onward t (f t x)) (h : Onward s t) :
    Onward s (l.foldl f t) := by
  induction l generalizing t with
  | nil => exact h
  | cons x l ih => exact ih ((hf t x).after h)

end Onward

namespace OnwardO

variable {s t : State} {o p : Out}

theorem next (h : Onward s t) : OnwardO s (.next t) := by
  intro u hu
  cases hu
  exact h

theorem of_keeps {m : Nat} (k : KeepsO m s o) (hm : m.testBit 20 = false) : OnwardO s o :=
  fun t ht => .of_keeps (k t ht) hm

theorem ite {c : Prop} [Decidable c] (h : OnwardO s o) (k : OnwardO s p) : OnwardO s (if c then o else p) := by
  split <;> assumption

end OnwardO

variable {s : State}

/-! ### Measurements, sessions and TDIs -/

theorem onward_measSecurity : Onward s (measSecurity s) := .inl rfl

theorem onward_tdiDisturb {i} : Onward s (tdiDisturb s i) := by
  unfold tdiDisturb
  split <;> exact .inl rfl

theorem onward_closeTest : Onward s (closeTest s) := by
  unfold closeTest
  refine .ite (.refl s) (.via (setTst_keeps ..) rfl (.via (cancelInjections_keeps ..) rfl (.via (record_keeps ..) rfl ?_)))
  exact .inl rfl

theorem onward_endSess {id} : Onward s (endSess s id) := by
  unfold endSess
  exact .ite (onward_closeTest.after (.inl rfl)) (.inl rfl)

/-- A reply says nothing of the life cycle. -/
theorem onward_respondVendor {t fn ses st data} (h : Onward s t) : Onward s (respondVendor t fn ses st data) :=
  .after (.inl rfl) h

theorem onward_onFn {fn f} (h : Onward s (f s)) : OnwardO s (onFn s fn f) := .next (.ite (.inl rfl) h)

theorem onward_attested {fn ses f} (h : Onward s (f s)) : OnwardO s (attested s fn ses f) :=
  onward_onFn (.ite h (.inl rfl))

theorem onward_inSession {fn id f} (h : Onward s (f s)) : OnwardO s (inSession s fn id f) :=
  onward_onFn (.ite h (.inl rfl))

theorem onward_execGetDigests {fn} : OnwardO s (execGetDigests fn s) := onward_onFn (.inl rfl)

theorem onward_execGetCertificate {fn slot off len} : OnwardO s (execGetCertificate fn slot off len s) :=
  onward_onFn (.ite (.inl rfl) (.inl rfl))

theorem onward_execChallenge {fn slot tr} : OnwardO s (execChallenge fn slot tr s) :=
  onward_onFn (.ite (.inl rfl) (.ite (.inl rfl) (.inl rfl)))

theorem onward_execGetMeasurements {fn index sign tr} : OnwardO s (execGetMeasurements fn index sign tr s) :=
  onward_onFn (.ite (.inl rfl) (.ite (.inl rfl) (.ite (.inl rfl) (.ite (.inl rfl) (.inl rfl)))))

theorem onward_execKeyExchange {fn tr} : OnwardO s (execKeyExchange fn tr s) :=
  onward_onFn (.ite (.inl rfl) (.ite (.inl rfl) (.inl rfl)))

theorem onward_execFinish {fn ses key ok th} : OnwardO s (execFinish fn ses key ok th s) := by
  refine onward_onFn ?_
  split
  · exact .inl rfl
  · refine .ite (.inl rfl) ?_
    exact .after (.inl rfl) (onward_endSess.after (.ite (.inl rfl) (.refl s)))

theorem onward_execEndSession {fn ses} : OnwardO s (execEndSession fn ses s) :=
  onward_inSession (.after (.inl rfl) onward_endSess)

theorem onward_execPqQuote {fn ses tr} : OnwardO s (execPqQuote fn ses tr s) :=
  onward_onFn (.ite (.inl rfl) (.inl rfl))

theorem onward_execBind {fn ses keys} : OnwardO s (execBind fn ses keys s) := by
  refine onward_onFn ?_
  split
  · exact .inl rfl
  · exact .ite (.inl rfl) (.ite (.inl rfl) (.inl rfl))

theorem onward_execRegUpdate {fn ses key hash version signer keys} :
    OnwardO s (execRegUpdate fn ses key hash version signer keys s) := by
  refine onward_onFn ?_
  dsimp only
  split
  · exact .inl rfl
  · exact .ite (.inl rfl) (.ite (.inl rfl) (.inl rfl))

theorem onward_execRelease {fn ses} : OnwardO s (execRelease fn ses s) := onward_attested (.ite (.inl rfl) (.inl rfl))

theorem onward_execTestOpen {fn ses} : OnwardO s (execTestOpen fn ses s) := by
  refine onward_attested (.ite (.inl rfl) (onward_respondVendor ?_))
  exact .via (record_keeps ..) rfl (.inl rfl)

theorem onward_execTestClose {fn ses} : OnwardO s (execTestClose fn ses s) :=
  onward_attested (onward_respondVendor onward_closeTest)

theorem onward_execIdeKm {fn ses stream key} : OnwardO s (execIdeKm fn ses stream key s) := by
  refine onward_onFn (.ite (.inl rfl) (.ite (.inl rfl) (onward_respondVendor ?_)))
  exact .via (judgeIde_keeps ..) rfl (.inl rfl)

theorem onward_execIdeIntegrityFailure {port stream} : OnwardO s (execIdeIntegrityFailure port stream s) :=
  .ite (.next (.refl s)) (.next (.via (record_keeps ..) rfl (.via (judgeIde_keeps ..) rfl (.inl rfl))))

theorem onward_execTdispMessage {fn ses inst msg} : OnwardO s (execTdispMessage fn ses inst msg s) := by
  refine onward_onFn (.ite (.inl rfl) ?_)
  split
  · exact .inl rfl
  · exact .inl rfl
  · exact .ite (.inl rfl) (.inl rfl)
  · exact .ite (.inl rfl) (.inl rfl)
  · exact .inl rfl
  · exact .ite (.inl rfl) (.inl rfl)
  · exact .inl rfl

/-! ### The sets of the commit groups -/

theorem onward_arrayEffect {o c} : Onward s (arrayEffect o s c) := by
  unfold arrayEffect
  split
  · exact .of_keeps (setFeed_keeps ..) rfl
  · exact .ite (.refl s) (.of_keeps (rateChange_keeps ..) rfl)
  · exact .ite (.refl s) (.of_keeps (setChan_keeps ..) rfl)
  · exact .ite (.via (setInst_keeps ..) rfl onward_tdiDisturb) (.ite (.of_keeps (logStop_keeps ..) rfl) (.refl s))
  · split
    · exact .of_keeps (keyAsk_keeps ..) rfl
    · exact .of_keeps (setEff_keeps ..) rfl
    · exact .of_keeps (coreCommand_keeps ..) rfl
    · exact .refl s

theorem onward_burnFuses (h : s.tru.lifecycle = 0) : Onward s (burnFuses s) := by
  unfold burnFuses
  extract_lets f _ t
  have ht : t.tru.lifecycle = s.tru.lifecycle := by
    unfold t
    split <;> rfl
  clear_value t
  exact .ite (.inr ⟨h, rfl⟩) (.inl ht)

/-- What a set brings with it once it is taken: only the group of the fuses can move the life cycle, and only from 0. -/
theorem onward_blockEffect {o c} (hfuse : c = 0x1100108 → s.tru.lifecycle = 0) : Onward s (blockEffect o s c) := by
  unfold blockEffect
  split
  · exact .of_keeps (cfgRequest_keeps ..) rfl
  · exact .of_keeps (captureAliases_keeps ..) rfl
  · exact .of_keeps (powerCmdsDone_keeps ..) rfl
  · exact .of_keeps (judgeFold_keeps ..) rfl
  · exact .of_keeps (judgeSpare_keeps ..) rfl
  · exact .of_keeps (keyAsk_keeps ..) rfl
  · exact .of_keeps (sameResults_keeps ..) rfl
  · exact .of_keeps (tenRequest_keeps ..) rfl
  · exact .foldl (fun t _ => .ite onward_tdiDisturb (.refl t)) (.refl s)
  · exact .foldl (fun t _ => .ite onward_tdiDisturb (.refl t)) (.refl s)
  · exact onward_burnFuses (hfuse rfl)
  · exact .of_keeps (stageRequest_keeps ..) rfl
  · exact .of_keeps (confirmImage_keeps ..) rfl
  · exact .inl rfl
  · exact .of_keeps (startClear_keeps ..) rfl
  · exact .of_keeps (areasBegin_keeps ..) rfl
  · exact .inl rfl
  · exact .of_keeps (injRequest_keeps ..) rfl
  · exact .refl s

/-- A set of the fuse group is refused unless the device is in MANUFACTURE. -/
theorem lifecycle_of_setTaken {set} (h : setRefused s 0x1100108 set = false) : s.tru.lifecycle = 0 := by
  simp only [setRefused, Bool.or_eq_false_iff] at h
  obtain ⟨⟨-, hblock⟩, -⟩ := h
  have hfuse : fuseRefused s set = false := hblock
  simp only [fuseRefused, Bool.or_eq_false_iff, decide_eq_false_iff_not, not_not] at hfuse
  exact hfuse.1

theorem onward_judgeSet {c set} : Onward s (judgeSet s c set) := by
  unfold judgeSet
  split
  · exact .of_keeps (refuseSet_keeps ..) rfl
  · next hset =>
    have htaken : Keeps 131088 s (if isSetting c then saveSettings (takeSet s c) else takeSet s c) :=
      .ite (.via (saveSettings_keeps ..) rfl ((takeSet_keeps ..).mono rfl)) ((takeSet_keeps ..).mono rfl)
    refine onward_arrayEffect.after ((onward_blockEffect fun hc => ?_).after (.of_keeps htaken rfl))
    subst hc
    rw [htaken.tru rfl]
    exact lifecycle_of_setTaken (Bool.eq_false_iff.mpr hset)

theorem onward_commitEffect {c} : Onward s (commitEffect s c) := by
  unfold commitEffect
  split
  · exact .refl s
  · exact .ite onward_judgeSet (.refl s)

theorem onward_backSets {u} : Onward s (backSets s u) := by
  refine .ite (.foldl (fun t c => ?_) (.refl s)) (.refl s)
  split
  · exact onward_judgeSet
  · exact .refl t

theorem onward_execGenHeldEventApply {unit} : OnwardO s (execGenHeldEventApply unit s) := by
  unfold execGenHeldEventApply
  extract_lets r away
  split
  · exact .next (.refl s)
  · next c l _ =>
    extract_lets held
    have hheld : Onward s held := .via (doChange_keeps ..) rfl (.of_keeps (setUnit_keeps ..) rfl)
    exact .ite (.next (.refl s)) (.next (.ite (onward_backSets.after hheld) hheld))

theorem onward_execUnitTestDone {unit result} : OnwardO s (execUnitTestDone unit result s) :=
  .next (onward_backSets.after (.of_keeps (unitTested_keeps ..) rfl))

theorem onward_execEpochStart {env} : OnwardO s (execEpochStart env s) := by
  refine .next (.via (scan_keeps ..) rfl (.foldl (fun _ _ => .of_keeps (capCredit_keeps ..) rfl) ?_))
  refine onward_commitEffect.after (onward_commitEffect.after ?_)
  refine .via (ageWaiting_keeps ..) rfl (.via (staleWaiting_keeps ..) rfl (.via (epochRefill_keeps ..) rfl ?_))
  refine .via (publish_keeps ..) rfl (.via (measureFens_keeps ..) rfl (.via (countIdle_keeps ..) rfl ?_))
  exact .via (rollEpoch_keeps ..) rfl (.of_keeps (markDue_keeps ..) rfl)

/-! ### Resets of functions and instances -/

theorem onward_resetInstance {i flr} : Onward s (resetInstance s i flr) := by
  unfold resetInstance
  extract_lets _ marked asked loaded ended _ forgotten _ emptied dropped _ cleared _
  have hended : Onward s ended := by
    refine .via (endInstance_keeps ..) rfl (.via (holdInstance_keeps ..) rfl (.via (loaderReset_keeps ..) rfl ?_))
    exact .via (dropKeyReqs_keeps ..) rfl (.of_keeps (setInst_keeps ..) rfl)
  clear_value ended
  have hemptied : Onward s emptied := .after (.inl rfl) hended
  clear_value emptied
  have hdropped : Onward s dropped := .via (dropController_keeps ..) rfl hemptied
  clear_value dropped
  exact .via (setInst_keeps ..) rfl (.ite (.after (.inl rfl) hdropped) hdropped)

theorem onward_instanceReset {i flr} : Onward s (instanceReset s i flr) := .ite (.refl s) onward_resetInstance

theorem onward_linkLost {p} : Onward s (linkLost s p) := by
  refine .ite (.via (dropController_keeps ..) rfl (.foldl (fun _ _ => onward_instanceReset) ?_)) (.refl s)
  exact .of_keeps (setLink_keeps ..) rfl

theorem onward_execFunctionLevelReset {ctrl flr} : OnwardO s (execFunctionLevelReset ctrl flr s) :=
  .next (.ite (.of_keeps (dropController_keeps ..) rfl) onward_instanceReset)

theorem onward_execLinkRetrain {port lanes rate} : OnwardO s (execLinkRetrain port lanes rate s) :=
  .next (.ite (.refl s) (.ite onward_linkLost (.of_keeps (setLink_keeps ..) rfl)))

theorem onward_execPerstAssert {port} : OnwardO s (execPerstAssert port s) := by
  unfold execPerstAssert
  extract_lets _ noted p _ unsaved charged started _ _
  have hnoted : Onward s noted := .of_keeps (setBoot_keeps ..) rfl
  have hcharged : Onward s charged := .via (setPwr_keeps ..) rfl (.via (setFtl_keeps ..) rfl hnoted)
  have hstarted : Onward s started := .ite (.via (enterRamp_keeps ..) rfl hcharged) hcharged
  clear_value noted started
  refine .ite (.next hnoted) (.ite (.ite (.next ?_) (.next hnoted)) (.ite (.next hnoted) (.ite (.next ?_) (.next ?_))))
  · exact .via (toRom_keeps ..) rfl (.via (setBoot_keeps ..) rfl hstarted)
  · exact onward_linkLost.after hnoted
  · exact .via (setLink_keeps ..) rfl hnoted

/-! ### Register writes and the stores of a core -/

theorem onward_writeNow {r i a v} : Onward s (writeNow s r i a v) := by
  unfold writeNow
  split
  · exact .ite (.of_keeps (popSiding_keeps ..) rfl) (.refl s)
  · exact .ite (.of_keeps (askMeasurement_keeps ..) rfl) (.refl s)
  · exact .ite (.of_keeps (beginCkpt_keeps ..) rfl) (.refl s)
  · exact .of_keeps (feedW0_keeps ..) rfl
  · exact .of_keeps (feedW1_keeps ..) rfl
  · exact .of_keeps (feedLast_keeps ..) rfl
  · exact .ite (.of_keeps (coreStopOp_keeps ..) rfl) (.refl s)
  · exact .ite (.of_keeps (logSwitch_keeps ..) rfl) (.refl s)
  · exact .inl rfl
  · exact .inl rfl
  · exact .ite (.of_keeps (beginEntry_keeps ..) rfl) (.refl s)
  · exact .of_keeps (updCtl_keeps ..) rfl
  · exact .ite (.of_keeps (cancelInjections_keeps ..) rfl) (.refl s)
  · exact .refl s

theorem onward_writeReg {r i j a v} : Onward s (writeReg s r i j a v) := by
  unfold writeReg
  extract_lets staged cleared
  have hcleared : Onward s cleared := .via (clearOnes_keeps ..) rfl (.of_keeps (stageReg_keeps ..) rfl)
  split
  · exact .via (pageNow_keeps ..) rfl hcleared
  · exact onward_writeNow.after hcleared

theorem onward_barWrite {a v} : Onward s (barWrite s a v) := by
  unfold barWrite
  refine .ite (.refl s) ?_
  split
  · exact .of_keeps (winAccess_keeps ..) rfl
  · refine .ite (.of_keeps (commitWrite_keeps ..) rfl) ?_
    split
    · exact onward_writeReg
    · split
      · exact .ite (.of_keeps (popSiding_keeps ..) rfl) (.refl s)
      · exact .refl s

theorem onward_nvmeDisable {c} : Onward s (nvmeDisable s c) :=
  .ite (.of_keeps (dropController_keeps ..) rfl) onward_instanceReset

theorem onward_nvmeConfigure {c v} : Onward s (nvmeConfigure s c v) := by
  unfold nvmeConfigure
  extract_lets old enabled _ held
  have henabled : Onward s enabled :=
    .ite (.of_keeps (nvmeEnable_keeps ..) rfl) (.ite onward_nvmeDisable (.refl s))
  have hheld : Onward s held := .via (setCtrl_keeps ..) rfl henabled
  exact .ite (.via (nvmeShutdown_keeps ..) rfl hheld) hheld

theorem onward_nvmeWrite {c off v} : Onward s (nvmeWrite s c off v) := by
  have hset {x : NCtrl} : Onward s (setCtrl s c x) := .of_keeps (setCtrl_keeps ..) rfl
  refine .ite (.refl s) ?_
  split
  · exact onward_nvmeConfigure
  · exact hset
  · exact hset
  · exact hset
  · exact hset
  · exact hset
  · exact .refl s

theorem onward_regWrite {a v} : Onward s (regWrite s a v) := by
  unfold regWrite
  split
  · exact .ite onward_nvmeWrite (.refl s)
  · exact onward_barWrite

theorem onward_regStore {a n v} : Onward s (regStore s a n v) :=
  .ite onward_regWrite (.ite (onward_regWrite.after onward_regWrite) (.refl s))

theorem onward_onPage {inst ide f} (h : Onward s (f s)) : OnwardO s (onPage s inst ide f) :=
  .next (.ite h (.refl s))

theorem onward_execRegisterWrite {addr size value} : OnwardO s (execRegisterWrite addr size value s) :=
  onward_onPage onward_regStore

theorem onward_execCommitGo {addr value} : OnwardO s (execCommitGo addr value s) :=
  onward_onPage (.ite onward_barWrite (.refl s))

theorem onward_execCommitDiscard {addr value} : OnwardO s (execCommitDiscard addr value s) :=
  onward_onPage (.ite onward_barWrite (.refl s))

theorem onward_coreStore {c a n v} : Onward s (coreStore s c a n v) := by
  unfold coreStore
  split
  · exact .of_keeps (writeCore_keeps ..) rfl
  · exact .of_keeps (lmemPut_keeps ..) rfl
  · exact onward_regStore
  · split
    · exact .of_keeps (lmemPut_keeps ..) rfl
    · exact .inl rfl
  · exact .refl s

/-- A Goley instruction whose effect goes onward: what is around the effect is the core's own. -/
theorem onward_runIns {c i tr f} (h : ∀ t, f s = .ok t → Onward s t) : OnwardO s (runIns s c i tr f) := by
  have htrapped {t : Trap} {rep} : Onward s (settle (trapNow s c t rep) c) :=
    .via (settle_keeps ..) rfl (.of_keeps (trapNow_keeps ..) rfl)
  unfold runIns
  extract_lets k left rep
  refine .ite (.next (.refl s)) ?_
  split
  · exact .next htrapped
  · refine .ite (.next (.of_keeps (setCore_keeps ..) rfl)) ?_
    split
    · exact .next htrapped
    · next t hf =>
      refine .next (.via (settle_keeps ..) rfl (.via (setCore_keeps ..) rfl (h t ?_)))
      split at hf
      · cases hf
      · exact hf

theorem onward_runStore {op c p d b z v} : OnwardO s (runStore op c p d b z v s) := by
  refine onward_runIns fun t ht => ?_
  dsimp only at ht
  split at ht
  · cases ht
  · cases ht
    exact .ite (.via (putG_keeps ..) rfl onward_coreStore) onward_coreStore

theorem onward_execGCas {core pre d a b} : OnwardO s (execGCas core pre d a b s) := by
  refine onward_runIns fun t ht => ?_
  dsimp only at ht
  split at ht
  · cases ht
  · split at ht
    · cases ht
    · cases ht
      have hread {ea n} : Onward s (coreLoad s core ea n).2 := .of_keeps (coreLoad_keeps ..) rfl
      exact .via (putG_keeps ..) rfl (.ite (onward_coreStore.after hread) hread)

theorem onward_execGCpx {core pre d b size disp} : OnwardO s (execGCpx core pre d b size disp s) := by
  refine onward_runIns fun t ht => ?_
  dsimp only at ht
  split at ht
  · cases ht
  · cases ht
  · cases ht
  · cases ht
  · split at ht
    · cases ht
    · cases ht
      have hread {ea n} : Onward s (coreLoad s core ea n).2 := .of_keeps (coreLoad_keeps ..) rfl
      exact .via (putG_keeps ..) rfl (.via (putG_keeps ..) rfl (onward_coreStore.after hread))

/-! ### Tenancy requests and namespaces -/

theorem onward_freeInstance {i} : Onward s (freeInstance s i) := by
  unfold freeInstance
  extract_lets _ _ _ _ _ erased
  refine .via (setInst_keeps ..) rfl (.via (logStop_keeps ..) rfl (.via (dropPage_keeps ..) rfl ?_))
  exact .via (setEff_keeps ..) rfl (.via (setEff_keeps ..) rfl (.via (setEff_keeps ..) rfl
    (.via (setEff_keeps ..) rfl (.via (setEff_keeps ..) rfl (.inl rfl)))))

theorem onward_tenSettle : Onward s (tenSettle s) := by
  unfold tenSettle
  split
  · exact .refl s
  · next r _ _ =>
    extract_lets freed given
    have hfreed : Onward s freed := .ite (.of_keeps (destroyGive_keeps ..) rfl) (.refl s)
    have hgiven : Onward s given := .ite (.via (tenStage_keeps ..) rfl (.via (tenGive_keeps ..) rfl hfreed)) hfreed
    clear_value given
    split
    · refine .ite hgiven (.ite (.ite ?_ hgiven) (.ite (.via (tenDone_keeps ..) rfl hgiven) hgiven))
      exact .via (tenDone_keeps ..) rfl (onward_freeInstance.after (.via (setTen_keeps ..) rfl hgiven))
    · exact hgiven

/-- A tenancy request at the front of its queue whose own effect goes onward. -/
theorem onward_tenRun {op f} (h : ∀ t r, Onward t (f t r)) : OnwardO s (tenRun s op f) := by
  unfold tenRun
  split
  · exact .next (.refl s)
  · refine .ite (.next (.refl s)) (.ite (.next onward_tenSettle) (.ite (.next (.refl s)) (.next ?_)))
    exact onward_tenSettle.after ((h _ _).after onward_tdiDisturb)

theorem onward_tenDone {r st} : Onward s (tenDone s r st) := .of_keeps (tenDone_keeps ..) rfl

theorem onward_beginDrain {r} : Onward s (beginDrain s r) := .of_keeps (beginDrain_keeps ..) rfl

theorem onward_execCreate {vf} : OnwardO s (execCreate vf s) := by
  refine onward_tenRun fun t r => .ite onward_tenDone (.ite onward_tenDone ?_)
  exact onward_tenDone.after (.via (setCtrl_keeps ..) rfl (.put_instEpoch (.of_keeps (setInst_keeps ..) rfl) _))

theorem onward_execDestroy : OnwardO s (execDestroy s) := by
  refine onward_tenRun fun t r => .ite onward_tenDone (.via (tenStage_keeps ..) rfl ?_)
  refine .foldl (fun _ _ => .of_keeps (keyAsk_keeps ..) rfl) ?_
  exact .via (setTen_keeps ..) rfl (.via (setInst_keeps ..) rfl onward_resetInstance)

theorem onward_execGrantFen : OnwardO s (execGrantFen s) :=
  onward_tenRun fun _ _ => .ite onward_tenDone (.ite onward_tenDone (.of_keeps (tenStage_keeps ..) rfl))

theorem onward_execWithdrawFen : OnwardO s (execWithdrawFen s) :=
  onward_tenRun fun _ _ => .ite onward_tenDone (.ite onward_tenDone onward_beginDrain)

theorem onward_execGrantCore : OnwardO s (execGrantCore s) :=
  onward_tenRun fun _ _ => .ite onward_tenDone (.ite onward_tenDone (.of_keeps (tenStage_keeps ..) rfl))

theorem onward_execWithdrawCore : OnwardO s (execWithdrawCore s) :=
  onward_tenRun fun _ _ => .ite onward_tenDone (.ite onward_tenDone
    (.via (beginDrain_keeps ..) rfl (.of_keeps (coreStopOp_keeps ..) rfl)))

theorem onward_execDedicate : OnwardO s (execDedicate s) :=
  onward_tenRun fun _ _ => .ite onward_tenDone (.ite onward_tenDone (.ite onward_tenDone onward_beginDrain))

theorem onward_execUndedicate : OnwardO s (execUndedicate s) :=
  onward_tenRun fun _ _ => .ite onward_tenDone (.ite onward_tenDone onward_beginDrain)

theorem onward_execWithdrawDrainTimeout {unit} : OnwardO s (execWithdrawDrainTimeout unit s) := by
  unfold execWithdrawDrainTimeout
  split
  · exact .ite (.next (onward_tenSettle.after (.of_keeps (endInside_keeps ..) rfl))) (.next (.refl s))
  · exact .next (.refl s)

theorem onward_nsTaken {n c : Nat} {x : Ns} :
    Onward s (nsChanged (if 2 ≤ c then tdiDisturb (setFtl s { s.ftl with ns := Tab.set s.ftl.ns n x }) (ctrlInst c)
      else setFtl s { s.ftl with ns := Tab.set s.ftl.ns n x }) c n) :=
  .via (nsChanged_keeps ..) rfl (.ite (onward_tdiDisturb.after (.inl rfl)) (.inl rfl))

theorem onward_attachNs {n c} : Onward s (attachNs s n c) := by
  unfold attachNs
  split
  · exact .refl s
  · exact onward_nsTaken

theorem onward_detachNs {n c} : Onward s (detachNs s n c) := by
  unfold detachNs
  split
  · exact .refl s
  · exact onward_nsTaken

/-- An NVMe command at the front of its queue whose own effect goes onward. -/
theorem onward_nvmeCmd {c q admin ticket ok f} (h : ∀ t y, Onward t (f t y)) : OnwardO s (nvmeCmd s c q admin ticket ok f) := by
  unfold nvmeCmd
  split
  · exact .next (.refl s)
  · exact .ite (.next (.refl s)) (.next ((h _ _).after (.of_keeps (setSq_keeps ..) rfl)))

theorem onward_cqe {t : State} {y st dw0 dw1} (h : Onward s t) : Onward s (cqe t y st dw0 dw1) :=
  .via (cqe_keeps ..) rfl h

theorem onward_adminCmd {c op pfOnly f} (h : ∀ t y, Onward t (f t y)) : OnwardO s (adminCmd s c op pfOnly f) :=
  onward_nvmeCmd fun t y => .ite (onward_cqe (.refl t)) (h t y)

theorem onward_execNamespaceAttachment {ctrl data} : OnwardO s (execNamespaceAttachment ctrl data s) := by
  have hrefused {t : State} {y st} : Onward t (cqe t y st 0 0) := onward_cqe (.refl t)
  refine onward_adminCmd fun t y => ?_
  dsimp only
  split
  · exact hrefused
  · refine .ite hrefused (.ite (.ite hrefused (onward_cqe ?_)) (.ite (.ite hrefused (onward_cqe ?_)) hrefused))
    · exact .foldl (fun _ _ => onward_attachNs) (.refl t)
    · exact .foldl (fun _ _ => onward_detachNs) (.refl t)

/-! ### Keys, fens and the clock -/

theorem onward_execKeyGrant : OnwardO s (execKeyGrant s) := by
  have hdone {t : State} {r st} (h : Onward s t) : Onward s (keyDone t r st) := .via (keyDone_keeps ..) rfl h
  unfold execKeyGrant
  split
  · exact .next (.refl s)
  · split
    · exact .next (hdone (.refl s))
    · refine .ite (.next (hdone (.refl s))) (.next (hdone ?_))
      exact .via (writeTable_keeps ..) rfl (onward_tdiDisturb.after (.of_keeps (setSlot_keeps ..) rfl))

theorem onward_execKeyWithdraw : OnwardO s (execKeyWithdraw s) := by
  unfold execKeyWithdraw
  split
  · exact .next (.refl s)
  · refine .ite (.next (.refl s)) ?_
    split
    · exact .next (.of_keeps (keyDone_keeps ..) rfl)
    · exact .next (.via (keyRewrite_keeps ..) rfl onward_tdiDisturb)

theorem onward_execFenScrubDone {fen} : OnwardO s (execFenScrubDone fen s) :=
  .ite (.next (.after (t := setFen s fen _) (.inl rfl) (.of_keeps (setFen_keeps ..) rfl))) (.next (.refl s))

/-- A loader step in its state whose own effect goes onward. -/
theorem onward_inState {st f} (h : ∀ r, Onward s (f r)) : OnwardO s (inState s st f) := by
  have hend (status : Nat) : OnwardO s (.next (loadEnd s status)) := .next (.of_keeps (loadEnd_keeps ..) rfl)
  unfold inState
  split
  · exact .next (.refl s)
  · exact .ite (.next (.refl s)) (.ite (hend _) (.ite (hend _) (.ite (hend _) (.next (h _)))))

theorem onward_execFenSafePointB : OnwardO s (execFenSafePointB s) := by
  refine onward_inState fun r => ?_
  extract_lets f x h l met loaded active u b measured
  have hactive : Onward s active := .via (changeUnit_keeps ..) rfl (.of_keeps (setFen_keeps ..) rfl)
  have hmeasured : Onward s measured := hactive
  clear_value measured
  exact .ite (.refl s) (.via (loadEnd_keeps ..) rfl (.via (loadBook_keeps ..) rfl hmeasured))

theorem onward_tick : Onward s (tick s) := by
  have hclock : Onward s (tickClock s) := .of_keeps (tickClock_keeps ..) rfl
  refine .ite hclock (.via (tstSettle_keeps ..) rfl (.via (fedSettle_keeps ..) rfl (onward_tenSettle.after ?_)))
  refine .via (pumpCmds_keeps ..) rfl (.via (tickCores_keeps ..) rfl (.via (openWindows_keeps ..) rfl ?_))
  exact .via (passSlots_keeps ..) rfl hclock

end Sys2Proof.Machine
end


section
/-! SUPPORT and O60. A start keeps who owns the device (20_start_and_reset.md, R684): the phases measure and draw, but they
touch no registry, no epoch, no session and not the life cycle. Every command but DECOMMISSION then goes onward. -/

namespace Sys2Proof.Machine

/-- `t` has the life cycle, the registries, the epochs and the sessions of `s`. -/
def SameTrust (s t : State) : Prop :=
  t.tru.lifecycle = s.tru.lifecycle ∧ t.tru.registries = s.tru.registries ∧ t.tru.instEpoch = s.tru.instEpoch ∧
    t.tru.sessions = s.tru.sessions ∧ t.tru.testBy = s.tru.testBy

namespace SameTrust

variable {s t u : State}

theorem of_eq (h : t.tru = s.tru) : SameTrust s t := by simp only [SameTrust, h, and_self]

theorem refl (s : State) : SameTrust s s := of_eq rfl

/-- One more operation, the outermost first. -/
theorem after (k : SameTrust t u) (h : SameTrust s t) : SameTrust s u := by
  obtain ⟨hlife, hregs, hepoch, hsess, htest⟩ := h
  obtain ⟨klife, kregs, kepoch, ksess, ktest⟩ := k
  exact ⟨klife.trans hlife, kregs.trans hregs, kepoch.trans hepoch, ksess.trans hsess, ktest.trans htest⟩

theorem via {m : Nat} (k : Keeps m t u) (hm : m.testBit 20 = false) (h : SameTrust s t) : SameTrust s u :=
  after (of_eq (k.tru hm)) h

theorem of_keeps {m : Nat} (k : Keeps m s t) (hm : m.testBit 20 = false) : SameTrust s t := via k hm (refl s)

theorem ite {p : Prop} [Decidable p] (h : SameTrust s t) (k : SameTrust s u) : SameTrust s (if p then t else u) := by
  split <;> assumption

theorem foldl {α : Type} {f : State → α → State} {l : List α} (hf : ∀ t x, SameTrust t (f t x)) (h : SameTrust s t) :
    SameTrust s (l.foldl f t) := by
  induction l generalizing t with
  | nil => exact h
  | cons x l ih => exact ih ((hf t x).after h)

end SameTrust

variable {s : State}

theorem sameTrust_extendMeas {i r} : SameTrust s (extendMeas s i r) := ⟨rfl, rfl, rfl, rfl, rfl⟩

theorem sameTrust_romPhase {env warm} : SameTrust s (romPhase s env warm) := by
  unfold romPhase
  extract_lets p charged judged t _ sensed _ told
  have hcharged : SameTrust s charged :=
    .ite (.refl s) (.ite (.of_keeps (enterRamp_keeps ..) rfl) (.of_keeps (setPwr_keeps ..) rfl))
  have hjudged : SameTrust s judged := .via (setHealth_keeps ..) rfl hcharged
  have hsensed : SameTrust s sensed := .ite hjudged (.via (setPwr_keeps ..) rfl hjudged)
  clear_value sensed
  exact sameTrust_extendMeas.after (sameTrust_extendMeas.after hsensed)

theorem sameTrust_bootSlot {n} : SameTrust s (bootSlot s n) :=
  .via (setUpd_keeps ..) rfl (.foldl (fun _ _ => sameTrust_extendMeas) (.refl s))

theorem sameTrust_chooseImage : SameTrust s (chooseImage s).1 := by
  unfold chooseImage
  extract_lets p counted q other noted
  have hcounted : SameTrust s counted :=
    .ite (.of_keeps (fallBack_keeps ..) rfl) (.ite (.of_keeps (writePtr_keeps ..) rfl) (.refl s))
  have hnoted : SameTrust s noted := .via (recordSlot_keeps ..) rfl hcounted
  clear_value counted noted
  split
  · exact sameTrust_bootSlot.after hcounted
  · split
    · exact sameTrust_bootSlot.after (.via (writePtr_keeps ..) rfl hnoted)
    · exact .via (recordSlot_keeps ..) rfl hnoted

/-- An applied stream gives the units their roles, sets the islands and the lines, and extends index 3. -/
theorem applyStream_steps (s : State) (st : Stream) (candidate : Bool) : ∃ given p c bs,
    given = (List.range 218).foldl
      (fun s n => startUnit s n (fun r => { r with role := leAt (payloadOf st.sections 4) (8 * n) 1 })) s ∧
      applyStream s st candidate = extendMeas { setPwr given p with cfg := c } 3 bs := ⟨_, _, _, _, rfl, rfl⟩

theorem sameTrust_applyStream {st candidate} : SameTrust s (applyStream s st candidate) := by
  obtain ⟨given, p, c, bs, hgiven, hrun⟩ := applyStream_steps s st candidate
  have hroles : SameTrust s given := hgiven ▸ .foldl (fun _ _ => .of_keeps (startUnit_keeps ..) rfl) (.refl s)
  have hplaced : SameTrust given { setPwr given p with cfg := c } := .of_eq rfl
  rw [hrun]
  exact sameTrust_extendMeas.after (hplaced.after hroles)

theorem sameTrust_streamPhase {o} : SameTrust s (streamPhase o s) := by
  unfold streamPhase
  extract_lets active
  have hactive {t : State} (h : SameTrust s t) : SameTrust s (active t) := by
    dsimp only [active]
    split
    · exact .ite (sameTrust_applyStream.after h) (.via (recordStream_keeps ..) rfl h)
    · exact h
  split
  · exact hactive (.refl s)
  · exact .ite (hactive (.refl s)) (.ite sameTrust_applyStream (hactive (.of_keeps (recordStream_keeps ..) rfl)))

/-- Whatever a start finds, who owns the device is as what is kept of the state before it says. -/
theorem sameTrust_runStart {o env warm} : SameTrust (again o env warm) (runStart o env warm) := by
  unfold runStart
  extract_lets rom _ powered fens chosen trained
  have hrom : SameTrust (again o env warm) rom := sameTrust_romPhase
  have hfens : SameTrust (again o env warm) fens := .via (startFens_keeps ..) rfl (.via (setBoot_keeps ..) rfl hrom)
  have hchosen : SameTrust (again o env warm) chosen.1 := sameTrust_chooseImage.after hfens
  have htrained : SameTrust (again o env warm) trained :=
    .via (trainPhase_keeps ..) rfl (.via (startCores_keeps ..) rfl hchosen)
  refine .ite (.via (haltStart_keeps ..) rfl (.via (recordRom_keeps ..) rfl hrom)) ?_
  exact .ite (.via (haltStart_keeps ..) rfl hfens) (.ite (.via (haltStart_keeps ..) rfl hchosen)
    (.via restorePhase_keeps rfl (.via (recoverPhase_keeps ..) rfl (sameTrust_streamPhase.after htrained))))

theorem onward_runStart {o env warm} : Onward o (runStart o env warm) := by
  obtain ⟨hlife, -⟩ := sameTrust_runStart (o := o) (env := env) (warm := warm)
  exact .inl hlife

theorem onward_execColdStart {env} : OnwardO s (execColdStart env s) :=
  .ite (.next (.via (endTestSession_keeps ..) rfl onward_runStart)) (.next (.refl s))

theorem onward_execWarmStart {env} : OnwardO s (execWarmStart env s) := by
  unfold execWarmStart
  extract_lets entered
  have hentered : Onward s entered := .ite (.of_keeps (finishEntry_keeps ..) rfl) (.refl s)
  exact .ite (.next (.via (endTestSession_keeps ..) rfl (onward_runStart.after hentered))) (.next hentered)

theorem onward_execKeyUpdate {fn ses} : OnwardO s (execKeyUpdate fn ses s) := onward_inSession (.inl rfl)

theorem onward_execSpdmHeartbeat {fn ses} : OnwardO s (execSpdmHeartbeat fn ses s) := onward_inSession (.inl rfl)

theorem onward_execUnsupportedRequest {fn} : OnwardO s (execUnsupportedRequest fn s) := onward_onFn (.inl rfl)

theorem onward_execPqChain {fn ses} : OnwardO s (execPqChain fn ses s) := onward_onFn (.inl rfl)

/-- Every command but DECOMMISSION goes onward. -/
theorem onward_exec (i : Instr) (hkept : ∀ fn ses, i ≠ .decommission fn ses) : OnwardO s (exec i s) := by
  cases i with
  | registerWrite => exact onward_execRegisterWrite
  | readLoLatch => exact .of_keeps (execReadLoLatch_keeps _ _) rfl
  | unitRoleRead => exact .of_keeps (execUnitRoleRead_keeps _ _) rfl
  | readClear => exact .of_keeps (execReadClear_keeps _ _) rfl
  | keySlotStatusRead => exact .of_keeps (execKeySlotStatusRead_keeps _ _) rfl
  | commitGo => exact onward_execCommitGo
  | commitDiscard => exact onward_execCommitDiscard
  | commitTakesEffect => exact .next onward_commitEffect
  | packetArrive => exact .of_keeps (execPacketArrive_keeps _ _ _ _ _) rfl
  | flitArrive => exact .of_keeps (execFlitArrive_keeps _ _ _ _ _ _ _ _ _ _ _) rfl
  | genHeldEventApply => exact onward_execGenHeldEventApply
  | cfgLoadRequest => exact .next onward_commitEffect
  | loaderFetchHead => exact .of_keeps (execLoaderFetchHead_keeps _) rfl
  | loaderHeaderArrived => exact .of_keeps (execLoaderHeaderArrived_keeps _ _ _) rfl
  | loaderAuthenticate => exact .of_keeps (execLoaderAuthenticate_keeps _ _ _) rfl
  | loaderBlockArrived => exact .of_keeps (execLoaderBlockArrived_keeps _ _ _) rfl
  | screenComplete netlist => exact show OnwardO s (execScreenComplete netlist s) from .of_keeps (execScreenComplete_keeps _ _) rfl
  | fenApplyStart => exact .of_keeps (execFenApplyStart_keeps _) rfl
  | fenDrainTimeout => exact .of_keeps (execFenDrainTimeout_keeps _) rfl
  | fenSafePointA => exact .of_keeps (execFenSafePointA_keeps _) rfl
  | fenSafePointB => exact onward_execFenSafePointB
  | loaderKeyRevoked => exact .of_keeps (execLoaderKeyRevoked_keeps _) rfl
  | structureStreamStored => exact .of_keeps (execStructureStreamStored_keeps _) rfl
  | fenOutputBeat => exact .of_keeps (execFenOutputBeat_keeps _ _ _ _ _ _) rfl
  | fenLast => exact .of_keeps (execFenLast_keeps _ _ _ _ _) rfl
  | fenCtlwinAccess => exact .of_keeps (execFenCtlwinAccess_keeps _ _ _ _ _ _) rfl
  | ctlwinTimeout => exact .of_keeps (execCtlwinTimeout_keeps _ _ _) rfl
  | fenFencingDone => exact .of_keeps (execFenFencingDone_keeps _ _) rfl
  | fencingTimeout => exact .of_keeps (execFencingTimeout_keeps _ _) rfl
  | holdRelease => exact .of_keeps (execHoldRelease_keeps _ _) rfl
  | fenOverpower => exact .of_keeps (execFenOverpower_keeps _ _ _) rfl
  | fenScrubDone => exact onward_execFenScrubDone
  | ticketSubmit => exact .of_keeps (execTicketSubmit_keeps _ _ _) rfl
  | epochStart => exact onward_execEpochStart
  | portionConsider => exact .of_keeps (execPortionConsider_keeps _ _) rfl
  | deadlineExpire => exact .of_keeps (execDeadlineExpire_keeps _ _) rfl
  | endTokenArrive => exact .of_keeps execEndTokenArrive_keeps rfl
  | revokeTokenArrive => exact .of_keeps (execRevokeTokenArrive_keeps _ _ _ _) rfl
  | sidingPop => exact .of_keeps (execSidingPop_keeps _ _) rfl
  | baseMwUpdate => exact .of_keeps (execBaseMwUpdate_keeps _ _ _) rfl
  | domainRetention => exact .of_keeps (execDomainRetention_keeps _ _) rfl
  | domainGateOff => exact .of_keeps (execDomainGateOff_keeps _ _) rfl
  | domainWake => exact .of_keeps (execDomainWake_keeps _ _ _) rfl
  | operatingPointChange => exact .of_keeps (execOperatingPointChange_keeps _ _ _ _) rfl
  | peatRampElapsed => exact .of_keeps (execPeatRampElapsed_keeps _) rfl
  | peatTargetReached => exact .of_keeps (execPeatTargetReached_keeps _ _) rfl
  | peatOvervoltage => exact .of_keeps (execPeatOvervoltage_keeps _ _) rfl
  | peatFloorTimeout => exact .of_keeps (execPeatFloorTimeout_keeps _ _) rfl
  | measRequest => exact .of_keeps (execMeasRequest_keeps _) rfl
  | measurementDue => exact .of_keeps (execMeasurementDue_keeps _) rfl
  | measurementDone => exact .of_keeps (execMeasurementDone_keeps _ _ _) rfl
  | measurementTimeout => exact .of_keeps (execMeasurementTimeout_keeps _) rfl
  | vin12Low => exact .of_keeps (execVin12Low_keeps _ _) rfl
  | pwrdisAssert => exact .of_keeps (execPwrdisAssert_keeps _) rfl
  | flushDirtyFenceTimeout => exact .of_keeps (execFlushDirtyFenceTimeout_keeps _) rfl
  | flushEnd => exact .of_keeps (execFlushEnd_keeps _ _) rfl
  | inputReturn => exact .of_keeps (execInputReturn_keeps _) rfl
  | brownOut => exact .of_keeps (execBrownOut_keeps _) rfl
  | sensorSample => exact .of_keeps (execSensorSample_keeps _ _) rfl
  | flashTrainPassDone => exact .of_keeps (execFlashTrainPassDone_keeps _ _ _ _) rfl
  | flashRetrainBegin => exact .of_keeps (execFlashRetrainBegin_keeps _ _) rfl
  | codewordDecode => exact .of_keeps (execCodewordDecode_keeps _ _ _ _) rfl
  | partialParityTimeout => exact .of_keeps (execPartialParityTimeout_keeps _ _ _) rfl
  | programStatus => exact .of_keeps (execProgramStatus_keeps _ _ _) rfl
  | pageSealTimeout => exact .of_keeps (execPageSealTimeout_keeps _ _ _) rfl
  | journalPageProgrammed => exact .of_keeps (execJournalPageProgrammed_keeps _ _ _) rfl
  | checkpointBegin => exact .of_keeps (execCheckpointBegin_keeps _) rfl
  | ckptRequest => exact .of_keeps (execCkptRequest_keeps _) rfl
  | ckptSecondsExpire => exact .of_keeps (execCkptSecondsExpire_keeps _) rfl
  | relocateGroup => exact .of_keeps (execRelocateGroup_keeps _ _ _ _) rfl
  | patrolRead => exact .of_keeps (execPatrolRead_keeps _ _ _ _ _) rfl
  | staticLevelling => exact .of_keeps (execStaticLevelling_keeps _) rfl
  | minuteTick => exact .of_keeps (execMinuteTick_keeps _) rfl
  | readWriteBack => exact .of_keeps (execReadWriteBack_keeps _ _) rfl
  | writeThrough => exact .of_keeps (execWriteThrough_keeps _ _) rfl
  | drain => exact .of_keeps (execDrain_keeps _ _) rfl
  | deallocate => exact .of_keeps (execDeallocate_keeps _) rfl
  | secureDeallocate => exact .of_keeps (execSecureDeallocate_keeps _ _ _) rfl
  | durable => exact .of_keeps (execDurable_keeps _) rfl
  | mapWrite => exact .of_keeps (execMapWrite_keeps _) rfl
  | read => exact .of_keeps (execRead_keeps _ _) rfl
  | writeSluice => exact .of_keeps (execWriteSluice_keeps _ _) rfl
  | writeDense => exact .of_keeps (execWriteDense_keeps _ _) rfl
  | readRaw => exact .of_keeps (execReadRaw_keeps _ _ _) rfl
  | parityEngineStep => exact .of_keeps (execParityEngineStep_keeps _ _ _) rfl
  | slotCompress => exact .of_keeps (execSlotCompress_keeps _ _ _) rfl
  | slotDecompress => exact .of_keeps (execSlotDecompress_keeps _ _ _ _) rfl
  | streamCompress => exact .of_keeps (execStreamCompress_keeps _ _ _) rfl
  | streamDecompress => exact .of_keeps (execStreamDecompress_keeps _ _ _ _) rfl
  | xtsEnc => exact .of_keeps (execXtsEnc_keeps _ _ _) rfl
  | xtsDec => exact .of_keeps (execXtsDec_keeps _ _ _) rfl
  | gcmEnc => exact .of_keeps (execGcmEnc_keeps _ _ _) rfl
  | gcmDec => exact .of_keeps (execGcmDec_keeps _ _ _) rfl
  | gcmHoldRoomFree => exact .of_keeps (execGcmHoldRoomFree_keeps _ _) rfl
  | pass => exact .of_keeps (execPass_keeps _ _) rfl
  | sink => exact .of_keeps (execSink_keeps _ _) rfl
  | search4 => exact .of_keeps (execSearch4_keeps _ _) rfl
  | search16 => exact .of_keeps (execSearch16_keeps _ _) rfl
  | search64 => exact .of_keeps (execSearch64_keeps _ _) rfl
  | update => exact .of_keeps (execUpdate_keeps _ _) rfl
  | asuHoldRoomFree => exact .of_keeps (execAsuHoldRoomFree_keeps _ _) rfl
  | scrubRead => exact .of_keeps (execScrubRead_keeps _ _ _ _ _ _) rfl
  | bankCopyDone => exact .of_keeps (execBankCopyDone_keeps _ _) rfl
  | send => exact .of_keeps execSend_keeps rfl
  | receive => exact .of_keeps (execReceive_keeps _ _) rfl
  | hostPortFetch => exact .of_keeps (execHostPortFetch_keeps _ _ _ _) rfl
  | hostPortWrite => exact .of_keeps (execHostPortWrite_keeps _ _ _) rfl
  | dramStation => exact .of_keeps (execDramStation_keeps _ _ _) rfl
  | program => exact .of_keeps (execProgram_keeps _ _) rfl
  | load => exact .of_keeps (execLoad_keeps _ _) rfl
  | keyGrant => exact onward_execKeyGrant
  | keyLoad => exact .of_keeps (execKeyLoad_keeps _ _) rfl
  | keyErase => exact .of_keeps (execKeyErase_keeps _) rfl
  | keyWithdraw => exact onward_execKeyWithdraw
  | ctxExport => exact .of_keeps (execCtxExport_keeps _) rfl
  | ctxImport => exact .of_keeps (execCtxImport_keeps _ _) rfl
  | ctxFree => exact .of_keeps (execCtxFree_keeps _) rfl
  | keyUseZero => exact .of_keeps (execKeyUseZero_keeps _ _) rfl
  | keyFenceTimeout => exact .of_keeps (execKeyFenceTimeout_keeps _ _) rfl
  | keyFenceComplete => exact .of_keeps (execKeyFenceComplete_keeps _ _) rfl
  | feedStart => exact .of_keeps (execFeedStart_keeps _ _) rfl
  | save => exact .of_keeps (execSave_keeps _ _) rfl
  | restore => exact .of_keeps (execRestore_keeps _ _ _) rfl
  | abandon => exact .of_keeps (execAbandon_keeps _ _) rfl
  | feedW0 => exact .of_keeps (execFeedW0_keeps _ _ _) rfl
  | feedW1 => exact .of_keeps (execFeedW1_keeps _ _ _) rfl
  | feedLast => exact .of_keeps (execFeedLast_keeps _ _ _) rfl
  | gNop => exact .of_keeps (execGNop_keeps _ _ _) rfl
  | gSyscall => exact .of_keeps (execGSyscall_keeps _ _ _) rfl
  | gBreak => exact .of_keeps (execGBreak_keeps _ _ _) rfl
  | gRft => exact .of_keeps (execGRft_keeps _ _ _) rfl
  | gWait => exact .of_keeps (execGWait_keeps _ _ _) rfl
  | gCrr => exact .of_keeps (execGCrr_keeps _ _ _ _ _) rfl
  | gCrw => exact .of_keeps (execGCrw_keeps _ _ _ _ _) rfl
  | inqPop => exact .of_keeps (execInqPop_keeps _ _ _) rfl
  | inqFree => exact .of_keeps (execInqFree_keeps _ _ _) rfl
  | emit => exact .of_keeps (execEmit_keeps _ _ _) rfl
  | submit => exact .of_keeps (execSubmit_keeps _ _ _) rfl
  | timerRaise => exact .of_keeps (execTimerRaise_keeps _ _) rfl
  | interrupt => exact .of_keeps (execInterrupt_keeps _ _) rfl
  | gAdd => exact .of_keeps (execGAdd_keeps _ _ _ _ _ _) rfl
  | gSub => exact .of_keeps (execGSub_keeps _ _ _ _ _ _) rfl
  | gAnd => exact .of_keeps (execGAnd_keeps _ _ _ _ _ _) rfl
  | gOr => exact .of_keeps (execGOr_keeps _ _ _ _ _ _) rfl
  | gXor => exact .of_keeps (execGXor_keeps _ _ _ _ _ _) rfl
  | gShl => exact .of_keeps (execGShl_keeps _ _ _ _ _ _) rfl
  | gShr => exact .of_keeps (execGShr_keeps _ _ _ _ _ _) rfl
  | gSar => exact .of_keeps (execGSar_keeps _ _ _ _ _ _) rfl
  | gMul => exact .of_keeps (execGMul_keeps _ _ _ _ _ _) rfl
  | gMulh => exact .of_keeps (execGMulh_keeps _ _ _ _ _ _) rfl
  | gMulhu => exact .of_keeps (execGMulhu_keeps _ _ _ _ _ _) rfl
  | gDiv => exact .of_keeps (execGDiv_keeps _ _ _ _ _ _ _) rfl
  | gDivu => exact .of_keeps (execGDivu_keeps _ _ _ _ _ _ _) rfl
  | gDivn => exact .of_keeps (execGDivn_keeps _ _ _ _ _ _ _) rfl
  | gNeg => exact .of_keeps (execGNeg_keeps _ _ _ _ _) rfl
  | gNot => exact .of_keeps (execGNot_keeps _ _ _ _ _) rfl
  | gClz => exact .of_keeps (execGClz_keeps _ _ _ _ _) rfl
  | gCtz => exact .of_keeps (execGCtz_keeps _ _ _ _ _) rfl
  | gPopc => exact .of_keeps (execGPopc_keeps _ _ _ _ _) rfl
  | gBswap => exact .of_keeps (execGBswap_keeps _ _ _ _ _) rfl
  | gSeq => exact .of_keeps (execGSeq_keeps _ _ _ _ _ _) rfl
  | gSne => exact .of_keeps (execGSne_keeps _ _ _ _ _ _) rfl
  | gSlt => exact .of_keeps (execGSlt_keeps _ _ _ _ _ _) rfl
  | gSltu => exact .of_keeps (execGSltu_keeps _ _ _ _ _ _) rfl
  | gSge => exact .of_keeps (execGSge_keeps _ _ _ _ _ _) rfl
  | gSgeu => exact .of_keeps (execGSgeu_keeps _ _ _ _ _ _) rfl
  | gAddi => exact .of_keeps (execGAddi_keeps _ _ _ _ _ _ _) rfl
  | gAndi => exact .of_keeps (execGAndi_keeps _ _ _ _ _ _ _) rfl
  | gOri => exact .of_keeps (execGOri_keeps _ _ _ _ _ _ _) rfl
  | gXori => exact .of_keeps (execGXori_keeps _ _ _ _ _ _ _) rfl
  | gShli => exact .of_keeps (execGShli_keeps _ _ _ _ _ _ _) rfl
  | gShri => exact .of_keeps (execGShri_keeps _ _ _ _ _ _ _) rfl
  | gSari => exact .of_keeps (execGSari_keeps _ _ _ _ _ _ _) rfl
  | gMuli => exact .of_keeps (execGMuli_keeps _ _ _ _ _ _ _) rfl
  | gSeqi => exact .of_keeps (execGSeqi_keeps _ _ _ _ _ _ _) rfl
  | gSnei => exact .of_keeps (execGSnei_keeps _ _ _ _ _ _ _) rfl
  | gSlti => exact .of_keeps (execGSlti_keeps _ _ _ _ _ _ _) rfl
  | gSltui => exact .of_keeps (execGSltui_keeps _ _ _ _ _ _ _) rfl
  | gSgei => exact .of_keeps (execGSgei_keeps _ _ _ _ _ _ _) rfl
  | gSgeui => exact .of_keeps (execGSgeui_keeps _ _ _ _ _ _ _) rfl
  | gLi => exact .of_keeps (execGLi_keeps _ _ _ _ _ _) rfl
  | gLdb => exact .of_keeps (execGLdb_keeps _ _ _ _ _ _ _) rfl
  | gLdbu => exact .of_keeps (execGLdbu_keeps _ _ _ _ _ _ _) rfl
  | gLdh => exact .of_keeps (execGLdh_keeps _ _ _ _ _ _ _) rfl
  | gLdhu => exact .of_keeps (execGLdhu_keeps _ _ _ _ _ _ _) rfl
  | gLdw => exact .of_keeps (execGLdw_keeps _ _ _ _ _ _ _) rfl
  | gLdwu => exact .of_keeps (execGLdwu_keeps _ _ _ _ _ _ _) rfl
  | gLdd => exact .of_keeps (execGLdd_keeps _ _ _ _ _ _ _) rfl
  | gStb => exact onward_runStore
  | gSth => exact onward_runStore
  | gStw => exact onward_runStore
  | gStd => exact onward_runStore
  | gLdbU => exact .of_keeps (execGLdbU_keeps _ _ _ _ _ _ _) rfl
  | gLdbuU => exact .of_keeps (execGLdbuU_keeps _ _ _ _ _ _ _) rfl
  | gLdhU => exact .of_keeps (execGLdhU_keeps _ _ _ _ _ _ _) rfl
  | gLdhuU => exact .of_keeps (execGLdhuU_keeps _ _ _ _ _ _ _) rfl
  | gLdwU => exact .of_keeps (execGLdwU_keeps _ _ _ _ _ _ _) rfl
  | gLdwuU => exact .of_keeps (execGLdwuU_keeps _ _ _ _ _ _ _) rfl
  | gLddU => exact .of_keeps (execGLddU_keeps _ _ _ _ _ _ _) rfl
  | gStbU => exact onward_runStore
  | gSthU => exact onward_runStore
  | gStwU => exact onward_runStore
  | gStdU => exact onward_runStore
  | gCas => exact onward_execGCas
  | gFenceInstruction => exact .of_keeps (execGFenceInstruction_keeps _ _ _) rfl
  | gCpx => exact onward_execGCpx
  | gChk => exact .of_keeps (execGChk_keeps _ _ _ _ _ _) rfl
  | gChku => exact .of_keeps (execGChku_keeps _ _ _ _ _ _) rfl
  | gChki => exact .of_keeps (execGChki_keeps _ _ _ _ _ _ _) rfl
  | gBc => exact .of_keeps execGBc_keeps rfl
  | gJal => exact .of_keeps execGJal_keeps rfl
  | gJalr => exact .of_keeps execGJalr_keeps rfl
  | coreStart => exact .of_keeps (execCoreStart_keeps _ _ _) rfl
  | coreStop => exact .of_keeps (execCoreStop_keeps _ _) rfl
  | coreScrubDone => exact .of_keeps (execCoreScrubDone_keeps _ _) rfl
  | coreIdleSlowdown => exact .of_keeps (execCoreIdleSlowdown_keeps _ _) rfl
  | dramRefresh => exact .of_keeps (execDramRefresh_keeps _ _ _ _) rfl
  | dramTempRead => exact .of_keeps (execDramTempRead_keeps _ _ _) rfl
  | dramPatrol => exact .of_keeps (execDramPatrol_keeps _ _ _ _ _) rfl
  | dramTrainPassDone => exact .of_keeps (execDramTrainPassDone_keeps _ _ _ _) rfl
  | dramTrainWindowEnd => exact .of_keeps (execDramTrainWindowEnd_keeps _ _) rfl
  | sqDoorbell => exact .of_keeps (execSqDoorbell_keeps _ _ _ _ _) rfl
  | createIoSq => exact .of_keeps (execCreateIoSq_keeps _ _) rfl
  | deleteIoSq => exact .of_keeps (execDeleteIoSq_keeps _ _) rfl
  | createIoCq => exact .of_keeps (execCreateIoCq_keeps _ _) rfl
  | deleteIoCq => exact .of_keeps (execDeleteIoCq_keeps _ _) rfl
  | getLogPage => exact .of_keeps (execGetLogPage_keeps _ _) rfl
  | identify => exact .of_keeps (execIdentify_keeps _ _) rfl
  | abort => exact .of_keeps (execAbort_keeps _ _) rfl
  | setFeatures => exact .of_keeps (execSetFeatures_keeps _ _ _) rfl
  | getFeatures => exact .of_keeps (execGetFeatures_keeps _ _) rfl
  | asynchronousEventRequest => exact .of_keeps (execAsynchronousEventRequest_keeps _ _) rfl
  | namespaceManagement => exact .of_keeps (execNamespaceManagement_keeps _ _ _) rfl
  | namespaceAttachment => exact onward_execNamespaceAttachment
  | firmwareCommit => exact .of_keeps (execFirmwareCommit_keeps _ _) rfl
  | firmwareImageDownload => exact .of_keeps (execFirmwareImageDownload_keeps _ _ _) rfl
  | deviceSelfTest => exact .of_keeps (execDeviceSelfTest_keeps _ _) rfl
  | virtualizationManagement => exact .of_keeps (execVirtualizationManagement_keeps _ _) rfl
  | nvmeMiSend => exact .of_keeps (execNvmeMiSend_keeps _ _) rfl
  | nvmeMiReceive => exact .of_keeps (execNvmeMiReceive_keeps _ _) rfl
  | formatNvm => exact .of_keeps (execFormatNvm_keeps _ _) rfl
  | sanitize => exact .of_keeps (execSanitize_keeps _ _) rfl
  | invalidCommandOpcode => exact .of_keeps (execInvalidCommandOpcode_keeps _ _ _) rfl
  | nvmeRead => exact .of_keeps (execNvmeRead_keeps _ _ _) rfl
  | nvmeWrite => exact .of_keeps (execNvmeWrite_keeps _ _ _) rfl
  | flush => exact .of_keeps (execFlush_keeps _ _ _) rfl
  | writeZeroes => exact .of_keeps (execWriteZeroes_keeps _ _ _) rfl
  | datasetManagement => exact .of_keeps (execDatasetManagement_keeps _ _ _ _) rfl
  | zoneAppend => exact .of_keeps (execZoneAppend_keeps _ _ _) rfl
  | zoneOpen => exact .of_keeps (execZoneOpen_keeps _ _ _) rfl
  | zoneClose => exact .of_keeps (execZoneClose_keeps _ _ _) rfl
  | zoneFinish => exact .of_keeps (execZoneFinish_keeps _ _ _) rfl
  | zoneReset => exact .of_keeps (execZoneReset_keeps _ _ _) rfl
  | reportZones => exact .of_keeps (execReportZones_keeps _ _ _) rfl
  | loadProgram => exact .of_keeps (execLoadProgram_keeps _ _ _ _ _ _ _) rfl
  | programActivation => exact .of_keeps (execProgramActivation_keeps _ _ _ _) rfl
  | executeProgram => exact .of_keeps (execExecuteProgram_keeps _ _ _ _) rfl
  | memoryWrite => exact .of_keeps (execMemoryWrite_keeps _ _ _ _ _) rfl
  | memoryRead => exact .of_keeps (execMemoryRead_keeps _ _ _ _ _) rfl
  | memoryCopy => exact .of_keeps (execMemoryCopy_keeps _ _ _ _ _ _ _) rfl
  | functionLevelReset => exact onward_execFunctionLevelReset
  | linkDown => exact .next onward_linkLost
  | linkRetrain => exact onward_execLinkRetrain
  | nvmeMiCommand => exact .of_keeps (execNvmeMiCommand_keeps _ _ _ _ _ _) rfl
  | create => exact onward_execCreate
  | destroy => exact onward_execDestroy
  | grantFen => exact onward_execGrantFen
  | withdrawFen => exact onward_execWithdrawFen
  | grantCore => exact onward_execGrantCore
  | withdrawCore => exact onward_execWithdrawCore
  | dedicate => exact onward_execDedicate
  | undedicate => exact onward_execUndedicate
  | withdrawDrainTimeout => exact onward_execWithdrawDrainTimeout
  | instanceReset => exact .next onward_instanceReset
  | logSwitch => exact .of_keeps (execLogSwitch_keeps _ _) rfl
  | lmemLostPop => exact .of_keeps (execLmemLostPop_keeps _ _) rfl
  | data => exact .of_keeps (execData_keeps _ _) rfl
  | ack => exact .of_keeps (execAck_keeps _ _) rfl
  | outcome => exact .of_keeps (execOutcome_keeps _ _) rfl
  | heartbeat => exact .of_keeps (execHeartbeat_keeps _ _) rfl
  | loss => exact .of_keeps (execLoss_keeps _ _) rfl
  | promoted => exact .of_keeps (execPromoted_keeps _ _) rfl
  | stalePeer => exact .of_keeps (execStalePeer_keeps _ _) rfl
  | frameForward => exact .of_keeps (execFrameForward_keeps _ _) rfl
  | heartbeatTick => exact .of_keeps (execHeartbeatTick_keeps _) rfl
  | neighbourTimeout => exact .of_keeps (execNeighbourTimeout_keeps _ _) rfl
  | uaserLinkDown => exact .of_keeps (execUaserLinkDown_keeps _ _) rfl
  | retransmitTimeout => exact .of_keeps (execRetransmitTimeout_keeps _ _ _ _) rfl
  | connectionIdleClose => exact .of_keeps (execConnectionIdleClose_keeps _ _ _) rfl
  | primaryClaimTimeout => exact .of_keeps (execPrimaryClaimTimeout_keeps _) rfl
  | fedTableLoad => exact .of_keeps (execFedTableLoad_keeps _ _) rfl
  | getVersion => exact .next (.inl rfl)
  | getCapabilities => exact .next (.inl rfl)
  | negotiateAlgorithms => exact .next (.inl rfl)
  | getDigests => exact onward_execGetDigests
  | getCertificate => exact onward_execGetCertificate
  | challenge => exact onward_execChallenge
  | getMeasurements => exact onward_execGetMeasurements
  | keyExchange => exact onward_execKeyExchange
  | finish => exact onward_execFinish
  | spdmHeartbeat => exact onward_execSpdmHeartbeat
  | keyUpdate => exact onward_execKeyUpdate
  | endSession => exact onward_execEndSession
  | unsupportedRequest => exact onward_execUnsupportedRequest
  | pqChain => exact onward_execPqChain
  | pqQuote => exact onward_execPqQuote
  | bind => exact onward_execBind
  | regUpdate => exact onward_execRegUpdate
  | release => exact onward_execRelease
  | testOpen => exact onward_execTestOpen
  | testClose => exact onward_execTestClose
  | decommission fn ses => exact absurd rfl (hkept fn ses)
  | ideKm => exact onward_execIdeKm
  | ideIntegrityFailure => exact onward_execIdeIntegrityFailure
  | tdispMessage => exact onward_execTdispMessage
  | measSelect => exact .next (.inl rfl)
  | powerOn => exact .of_keeps (execPowerOn_keeps _) rfl
  | coldStart => exact onward_execColdStart
  | warmStart => exact onward_execWarmStart
  | warm => exact .of_keeps (execWarm_keeps _) rfl
  | entryCutoff => exact .of_keeps (execEntryCutoff_keeps _) rfl
  | watchdogExpire => exact .of_keeps (execWatchdogExpire_keeps _) rfl
  | startReady => exact .of_keeps (execStartReady_keeps _) rfl
  | perstAssert => exact onward_execPerstAssert
  | perstRelease => exact .of_keeps (execPerstRelease_keeps _ _) rfl
  | selfOk => exact .of_keeps (execSelfOk_keeps _) rfl
  | confirmTimeout => exact .of_keeps (execConfirmTimeout_keeps _) rfl
  | stage => exact .of_keeps (execStage_keeps _ _ _) rfl
  | updWriteSlot => exact .of_keeps (execUpdWriteSlot_keeps _) rfl
  | updWriteActivate => exact .of_keeps (execUpdWriteActivate_keeps _) rfl
  | updActivateSlot => exact .of_keeps (execUpdActivateSlot_keeps _) rfl
  | activate => exact .of_keeps (execActivate_keeps _) rfl
  | confirm => exact .of_keeps (execConfirm_keeps _) rfl
  | mirrorPageFlush => exact .of_keeps (execMirrorPageFlush_keeps _) rfl
  | suppressed => exact .of_keeps (execSuppressed_keeps _) rfl
  | evrRead => exact .of_keeps (execEvrRead_keeps _) rfl
  | evrClear => exact .of_keeps (execEvrClear_keeps _) rfl
  | unitTestRequest => exact .of_keeps (execUnitTestRequest_keeps _) rfl
  | rotate => exact .of_keeps (execRotate_keeps _) rfl
  | testDrainTimeout => exact .of_keeps (execTestDrainTimeout_keeps _ _) rfl
  | unitTestDone => exact onward_execUnitTestDone
  | sramSymbol => exact .of_keeps (execSramSymbol_keeps _) rfl
  | trunkSymbol => exact .of_keeps (execTrunkSymbol_keeps _) rfl
  | dramSymbol => exact .of_keeps (execDramSymbol_keeps _) rfl
  | flashBits => exact .of_keeps (execFlashBits_keeps _) rfl
  | flashFail => exact .of_keeps (execFlashFail_keeps _) rfl
  | causewayDelay => exact .of_keeps (execCausewayDelay_keeps _) rfl
  | backpressure => exact .of_keeps (execBackpressure_keeps _) rfl
  | clock => exact .of_keeps (execClock_keeps _) rfl
  | injectionWindowEnd => exact .of_keeps (execInjectionWindowEnd_keeps _ _ _) rfl
  | stop => exact .of_keeps (execStop_keeps _) rfl
  | smbusTimeout => exact .of_keeps (execSmbusTimeout_keeps _) rfl
  | eraseStatus => exact .of_keeps (execEraseStatus_keeps _ _ _ _ _) rfl
  | undefinedEncoding => exact .of_keeps (execUndefinedEncoding_keeps _ _ _) rfl
  | uaserLinkUp => exact .of_keeps (execUaserLinkUp_keeps _ _ _) rfl
  | testPortInstruction => exact .of_keeps (execTestPortInstruction_keeps _ _) rfl

/-- DECOMMISSION moves the life cycle to its end, or not at all. -/
theorem lifecycle_execDecommission {fn ses} {t : State} (h : execDecommission fn ses s = .next t) :
    t.tru.lifecycle = s.tru.lifecycle ∨ t.tru.lifecycle = 2 := by
  unfold execDecommission attested onFn at h
  cases h
  split
  · exact .inl rfl
  · dsimp only
    split
    · exact .inr rfl
    · exact .inl rfl

/-- Settles O60: DECOMMISSION ends the life cycle; the tick and every other command go onward. -/
theorem theLifeCycleOnlyAdvances : Obligations.TheLifeCycleOnlyAdvances := by
  intro s t hs hstep
  have honward (h : Onward s t) : s.tru.lifecycle ≤ t.tru.lifecycle ∧ t.tru.lifecycle ≤ 2 ∧
      (t.tru.lifecycle = 2 → s.tru.lifecycle = 2) ∧ (s.tru.lifecycle = 1 → t.tru.lifecycle = 1) := by
    unfold Onward at h
    omega
  unfold step at hstep
  split at hstep
  · cases hstep
    obtain ⟨hle, htop, hlast, hdeployed⟩ := honward onward_tick
    exact ⟨hle, htop, fun ht hne => absurd (hlast ht) hne, fun h1 => .inl (hdeployed h1)⟩
  · next c rest hqueue =>
    by_cases hdecommission : ∃ fn ses, c = .decommission fn ses
    · obtain ⟨fn, ses, rfl⟩ := hdecommission
      have hlife : t.tru.lifecycle = s.tru.lifecycle ∨ t.tru.lifecycle = 2 := 
        lifecycle_execDecommission (s := { s with pending := rest }) hstep
      exact ⟨by omega, by omega, fun _ _ => ⟨fn, ses, rest, hqueue⟩, fun _ => by omega⟩
    · have hkept (fn : Nat) (ses : Option Nat) : c ≠ .decommission fn ses := fun h => hdecommission ⟨fn, ses, h⟩
      have hran : Onward s t := onward_exec (s := { s with pending := rest }) c hkept t hstep
      obtain ⟨hle, htop, hlast, hdeployed⟩ := honward hran
      exact ⟨hle, htop, fun ht hne => absurd (hlast ht) hne, fun h1 => .inl (hdeployed h1)⟩

end Sys2Proof.Machine
end


section
/-! SUPPORT and O51. SPDM (19_trust_and_attestation.md, R655–R660): what a request answers, on a function that is busy and on
one that is not, and what the end of a session ends with it. -/

namespace Sys2Proof.Machine

section
variable {s : State} {fn id : Nat} {f : State → State} {x : Sess}

/-! ## Replies -/

/-- A state that differs from `s` in the reply alone, which is `r`. -/
def Replied (s : State) (r : SpdmReply) (t : State) : Prop :=
  { t with tru := { t.tru with reply := s.tru.reply } } = s ∧ t.tru.reply = some r

theorem onFn_of_busy (h : fnBusy s fn = true) : onFn s fn f = .next (respondErr s fn 0x03) := by rw [onFn, if_pos h]

theorem onFn_of_free (h : fnBusy s fn = false) : onFn s fn f = .next (f s) := by
  rw [onFn, if_neg (by rw [h]; exact Bool.false_ne_true)]

/-- R660: on a busy function every request but the first three is answered Busy. -/
theorem onFn_busy_replied (h : fnBusy s fn = true) :
    Nexts (onFn s fn f) (Replied s { code := 0x7F, err := 0x03, fn := fn }) := ⟨_, onFn_of_busy h, rfl, rfl⟩

/-- On a function that is not busy, a request that changes nothing but the reply. -/
theorem onFn_replied {r : SpdmReply} (hfree : fnBusy s fn = false) (h : f s = setTru s { s.tru with reply := some r }) :
    Nexts (onFn s fn f) (Replied s r) := ⟨_, (onFn_of_free hfree).trans (congrArg _ h), rfl, rfl⟩

theorem signing_of_derives (h : derives s = true) : signing s fn f = f s := by rw [signing, if_pos h]

theorem signing_of_decommissioned (h : derives s = false) : signing s fn f = respondErr s fn 0x05 := by
  rw [signing, if_neg (by rw [h]; exact Bool.false_ne_true)]

theorem inSession_of_secure (hfree : fnBusy s fn = false) (h : secureSess s fn (some id) = some x) :
    inSession s fn id f = .next (f s) := by
  rw [inSession, onFn_of_free hfree, h]
  rfl

theorem inSession_replied_of_none (hfree : fnBusy s fn = false) (h : secureSess s fn (some id) = none) :
    Nexts (inSession s fn id f) (Replied s { code := 0x7F, err := 0x02, fn := fn }) :=
  onFn_replied hfree (by rw [h]; rfl)

/-! ## Sessions (R658, R662, R668) -/

/-- A session that is changed without its name is found where it was. -/
theorem sessOf_modSess {g : Sess → Sess} (hid : ∀ y, (g y).id = y.id) (hfn : ∀ y, (g y).fn = y.fn)
    (h : sessOf s fn id = some x) : sessOf (modSess s id g) fn id = some (g x) := by
  have hx : x.id = id := by
    have hfound := List.find?_some h
    rw [Bool.and_eq_true, beq_iff_eq] at hfound
    exact hfound.1
  have hname : ((fun y : Sess => y.id == id && y.fn == fn) ∘ fun y => if y.id = id then g y else y) =
      fun y => y.id == id && y.fn == fn := by
    funext y
    by_cases hy : y.id = id <;> simp [hy, hid, hfn]
  change (s.tru.sessions.map _).find? _ = _
  rw [List.find?_map, hname]
  change (sessOf s fn id).map _ = _
  rw [h, Option.map_some, if_pos hx]

/-- Only TEST_OPEN opens a test session, and only its own end closes it. -/
theorem closeTest_tru : (closeTest s).tru = if testActive s then
    (measSecurity (setTru s { s.tru with testBy := none })).tru else s.tru := by
  unfold closeTest
  cases testActive s with
  | false => rfl
  | true =>
    change (cancelInjections _).tru = _
    exact ((cancelInjections_keeps _).tru rfl).trans ((record_keeps ..).tru rfl)

theorem closeTest_sessions : (closeTest s).tru.sessions = s.tru.sessions := by
  rw [closeTest_tru]
  split <;> rfl

theorem closeTest_injections (h : testActive s = true) : (closeTest s).tst.injections = [] := by
  unfold closeTest
  rw [h]
  rfl

theorem testActive_closeTest : testActive (closeTest s) = false := by
  rw [testActive, closeTest_tru]
  split
  · rfl
  · next h => exact Bool.not_eq_true _ ▸ h

theorem live_closeTest {a hi lo} (ha : a ≠ Reg.EVR_COUNTS) : live (closeTest s) a hi lo = live s a hi lo := by
  unfold closeTest
  cases testActive s with
  | false => rfl
  | true => exact live_record ha ..

theorem sessOf_endSess : sessOf (endSess s id) fn id = none := by
  have hgone : (endSess s id).tru.sessions = s.tru.sessions.filter (fun y => y.id != id) := by
    unfold endSess
    dsimp only
    split
    · exact closeTest_sessions
    · rfl
  rw [sessOf, hgone, List.find?_eq_none]
  intro y hy
  have hid : y.id ≠ id := by simpa using (List.mem_filter.mp hy).2
  simp [hid]

theorem live_endSess {a hi lo} (ha : a ≠ Reg.EVR_COUNTS) : live (endSess s id) a hi lo = live s a hi lo := by
  unfold endSess
  dsimp only
  split
  · exact live_closeTest ha
  · rfl

/-- The test session that the ended session opened closes, and with it every injection. -/
theorem endSess_closes (h : s.tru.testBy = some id) :
    testActive (endSess s id) = false ∧ (endSess s id).tst.injections = [] := by
  have hactive : testActive (setTru s { s.tru with sessions := s.tru.sessions.filter (fun y => y.id != id) }) = true := by
    simp [testActive, setTru, h]
  unfold endSess
  dsimp only
  rw [if_pos (by exact h)]
  exact ⟨testActive_closeTest, closeTest_injections hactive⟩

/-! ## Requests -/

theorem negotiateAlgorithms_replies {hash asym dhe aead req : Nat} (hhash : bitOf hash 1 = true) (hasym : bitOf asym 7 = true)
    (hdhe : bitOf dhe 4 = true) (haead : bitOf aead 1 = true) (hreq : bitOf req 7 = true) :
    Nexts (exec (.negotiateAlgorithms fn hash asym dhe aead req) s) (Replied s {
      code := 0x63, fn := fn
      data := natLe 4 2 ++ natLe 4 128 ++ natLe 2 16 ++ natLe 2 2 ++ natLe 2 128 ++ natLe 4 4 }) := by
  change Nexts (execNegotiateAlgorithms fn hash asym dhe aead req s) _
  simp only [execNegotiateAlgorithms, hhash, hasym, hdhe, haead, hreq, if_true]
  exact ⟨_, rfl, rfl, rfl⟩

section
variable {index : Nat} {sign ok : Bool} {tr th : Bytes} {key : Option Bytes}

/-- R660: what is reported of an index that the function covers, signed where asked. -/
theorem getMeasurements_replies {r : SpdmReply} (hfree : fnBusy s fn = false) (hsigned : sign = false ∨ derives s = true)
    (h : (if index = 0 then some (natLe 1 (coveredIndices s fn).length)
        else if index = 0xFF then some ((coveredIndices s fn).flatMap (measBlock s (fnInst fn)))
        else if (coveredIndices s fn).contains index ∧ (measValue s (fnInst fn) index).isSome then
          some (measBlock s (fnInst fn) index)
        else none).elim { code := 0x7F, err := 0x01, fn := fn } (fun bs => {
          code := 0x60, fn := fn
          data := bs ++ if sign then Config.ecdsaSign (aliasCtx s) (sha384 tr) else [] }) = r) :
    Nexts (exec (.getMeasurements fn index sign tr) s) (Replied s r) := by
  have hderived : ¬ (sign && !derives s) = true := by
    rcases hsigned with hs | hs <;> simp [hs]
  dsimp only [exec]
  refine onFn_replied hfree ?_
  dsimp only
  rw [if_neg hderived, ← h]
  split
  · rfl
  · split
    · rfl
    · split <;> rfl

theorem keyExchange_opens (hfree : fnBusy s fn = false)
    (hfn : (s.tru.sessions.filter (fun y => y.fn == fn)).length < 2) (hall : s.tru.sessions.length < 64)
    (hderives : derives s = true) : Nexts (exec (.keyExchange fn tr) s) (fun t =>
      t.tru.sessions = s.tru.sessions ++ [{ id := s.tru.nextSess, fn := fn }] ∧
      t.tru.reply = some { code := 0x64, fn := fn, session := none,
                           data := natLe 2 s.tru.nextSess ++ Config.ecdsaSign (aliasCtx s) (sha384 tr) }) := by
  change Nexts (execKeyExchange fn tr s) _
  rw [execKeyExchange, onFn_of_free hfree, if_neg (by omega), signing_of_derives hderives]
  exact ⟨_, rfl, rfl, rfl⟩

theorem finish_establishes (hfree : fnBusy s fn = false) (h : sessOf s fn id = some x) :
    Nexts (exec (.finish fn id key true th) s) (fun t =>
      sessOf t fn id = some { x with established := true, reqKey := key, th := th } ∧
      t.tru.reply = some { code := 0x65, fn := fn, session := some id, data := [] }) := by
  change Nexts (execFinish fn id key true th s) _
  rw [execFinish, onFn_of_free hfree, h]
  exact ⟨_, rfl, sessOf_modSess (g := fun y => { y with established := true, reqKey := key, th := th })
    (fun _ => rfl) (fun _ => rfl) h, rfl⟩

theorem finish_fails (hfree : fnBusy s fn = false) (h : sessOf s fn id = some x) :
    Nexts (exec (.finish fn id key false th) s) (fun t => sessOf t fn id = none ∧
      t.tru.reply = some { code := 0x7F, err := 0x06, fn := fn } ∧ live t Reg.TRU_COUNTS 7 0 =
        if key.isSome then satAdd 8 (live s Reg.TRU_COUNTS 7 0) 1 else live s Reg.TRU_COUNTS 7 0) := by
  change Nexts (execFinish fn id key false th s) _
  rw [execFinish, onFn_of_free hfree, h]
  refine ⟨_, rfl, sessOf_endSess, rfl, ?_⟩
  change live (endSess _ id) _ _ _ = _
  rw [live_endSess (by decide)]
  split
  · exact live_bump_same _ _ _ _ _ (by decide)
  · rfl

theorem endSession_ends (hfree : fnBusy s fn = false) (h : secureSess s fn (some id) = some x) :
    Nexts (exec (.endSession fn id) s) (fun t => sessOf t fn id = none ∧
      (s.tru.testBy = some id → testActive t = false ∧ t.tst.injections = []) ∧
      t.tru.reply = some { code := 0x6C, fn := fn, session := some id, data := [] }) := by
  change Nexts (execEndSession fn id s) _
  rw [execEndSession, inSession_of_secure hfree h]
  exact ⟨_, rfl, sessOf_endSess, endSess_closes, rfl⟩

end
end

/-- Settles O51: each request by its own lemma, on a busy function and on one that is not. -/
theorem spdmRequestsAreAnswered : Obligations.SpdmRequestsAreAnswered := by
  intro s fn slot off len index id hash asym dhe aead req sign ok tr th key x ses only replies errs chain sig covered
  refine ⟨⟨_, rfl, rfl, rfl⟩, ⟨_, rfl, rfl, rfl⟩, negotiateAlgorithms_replies, fun hbusy c hc => ?busy, fun hfree => ?free⟩
  case busy =>
    simp only [List.mem_cons, List.not_mem_nil, or_false] at hc
    obtain rfl | rfl | rfl | rfl | rfl | rfl | rfl | rfl | rfl | rfl | rfl | rfl := hc
    all_goals
      dsimp only [exec, execSpdmHeartbeat, execKeyUpdate, execEndSession, inSession]
      exact onFn_busy_replied hbusy
  case free =>
    dsimp only [exec]
    have hslot0 : ¬ (0 ≠ 0) := by decide
    refine ⟨onFn_replied hfree rfl, onFn_replied hfree (if_neg hslot0), fun hd => ?derived, fun hd => ?decommissioned,
      fun hslot => ⟨onFn_replied hfree (if_pos hslot), onFn_replied hfree (if_pos hslot)⟩, fun hsigned => ?measured,
      keyExchange_opens hfree, fun hfull => onFn_replied hfree (if_pos hfull), finish_establishes hfree, finish_fails hfree,
      fun hx => onFn_replied hfree (by rw [hx]; rfl), fun hx => ⟨?beat, ?update, endSession_ends hfree hx⟩, fun hx c hc => ?outside,
      onFn_replied hfree rfl, onFn_replied hfree rfl⟩
    case derived =>
      exact ⟨onFn_replied hfree ((if_neg hslot0).trans (signing_of_derives hd)), onFn_replied hfree (signing_of_derives hd)⟩
    case decommissioned =>
      refine ⟨onFn_replied hfree ((if_neg hslot0).trans (signing_of_decommissioned hd)), onFn_replied hfree ?_,
        onFn_replied hfree (signing_of_decommissioned hd)⟩
      exact if_pos (by rw [hd]; rfl)
    case measured =>
      refine ⟨getMeasurements_replies hfree hsigned rfl, getMeasurements_replies hfree hsigned rfl, fun h0 h1 hin hval =>
        getMeasurements_replies hfree hsigned ?_, fun h0 h1 hout => getMeasurements_replies hfree hsigned ?_⟩
      · rw [if_neg h0, if_neg h1, if_pos ⟨List.contains_iff_mem.mpr hin, hval⟩]
        rfl
      · rw [if_neg h0, if_neg h1, if_neg]
        · rfl
        · rintro ⟨hin, hval⟩
          rcases hout with hout | hout
          · exact hout (List.contains_iff_mem.mp hin)
          · rw [Option.isNone_iff_eq_none.mp hout] at hval
            cases hval
    case beat => exact ⟨_, inSession_of_secure hfree hx, rfl, rfl⟩
    case update => exact ⟨_, inSession_of_secure hfree hx, rfl, rfl⟩
    case outside =>
      simp only [List.mem_cons, List.not_mem_nil, or_false] at hc
      obtain rfl | rfl | rfl := hc
      all_goals
        dsimp only [exec]
        exact inSession_replied_of_none hfree hx

end Sys2Proof.Machine
end


section
/-! SUPPORT and O52. The vendor requests, IDE and TDISP (19_trust_and_attestation.md, R652, R655, R661–R675): what each does
under the authority that it needs, and what it leaves without it. -/

namespace Sys2Proof.Machine

section
variable {s t u : State} {fn id inst k : Nat} {f : State → State} {x : Sess} {ses : Option Nat} {keys : KeySigs}

/-! ## Vendor replies -/

/-- The trust unit tells a vendor response. -/
def Told (fn : Nat) (ses : Option Nat) (data : Bytes) (t : State) : Prop :=
  t.tru.reply = some { code := 0x7E, fn := fn, session := ses, data := data }

/-- A vendor response that carries its status alone. -/
theorem told_nil {status : Nat} : Told fn ses (natLe 1 status) (respondVendor t fn ses status []) :=
  congrArg (fun data => some ({ code := 0x7E, fn := fn, session := ses, data := data } : SpdmReply)) (List.append_nil _)

/-- A vendor request that changes nothing but the reply, which is a status. -/
theorem onFn_told {status : Nat} (hfree : fnBusy s fn = false) (h : f s = respondVendor s fn ses status []) :
    Nexts (onFn s fn f) (fun t => { t with tru := { t.tru with reply := s.tru.reply } } = s ∧
      Told fn ses (natLe 1 status) t) := ⟨_, (onFn_of_free hfree).trans (congrArg _ h), rfl, told_nil⟩

theorem secureSess_eq_some (h : secureSess s fn ses = some x) :
    ses = some x.id ∧ sessOf s fn x.id = some x ∧ x.established = true := by
  cases ses with
  | none => cases h
  | some id =>
    rw [secureSess, Option.bind_some] at h
    obtain ⟨y, hfound, hy⟩ := Option.bind_eq_some_iff.mp h
    split at hy
    · next hest =>
      cases hy
      have hid := List.find?_some hfound
      rw [Bool.and_eq_true, beq_iff_eq] at hid
      rw [hid.1]
      exact ⟨rfl, hfound, hest⟩
    · cases hy

theorem isSome_of_operatorAttested (h : operatorAttested s fn ses = true) : ses.isSome = true := by
  cases ses with
  | none => simp [operatorAttested, secureSess] at h
  | some id => rfl

theorem attested_of_operator (hfree : fnBusy s fn = false) (h : operatorAttested s fn ses = true) :
    attested s fn ses f = .next (f s) := by
  rw [attested, onFn_of_free hfree, if_pos h]

theorem attested_told_of_other (hfree : fnBusy s fn = false) (h : operatorAttested s fn ses = false) :
    Nexts (attested s fn ses f) (fun t => { t with tru := { t.tru with reply := s.tru.reply } } = s ∧
      Told fn ses (natLe 1 0x11) t) := by
  refine onFn_told hfree (if_neg ?_)
  rw [h]
  exact Bool.false_ne_true

/-! ## Index 4 (R655) -/

/-- The security state word is extended into index 4 whenever it changes, here before a vendor response. -/
theorem historyOf_respondVendor {v : State} {status : Nat} {data : Bytes} (hv : v.tru = (measSecurity u).tru)
    (hu : u.tru.history = s.tru.history) : historyOf (respondVendor v fn ses status data) 4 = sha384 (historyOf s 4 ++
      measRecord 4 4 0xFFFF 0 0 (secState (respondVendor v fn ses status data)) [] [] 0 0) := by
  have hword : secState (respondVendor v fn ses status data) = secState u := by
    change secState v = _
    simp only [secState, testActive, claimed, registryOf, hv]
    rfl
  have hhistory : historyOf u 4 = historyOf s 4 := by simp only [historyOf, hu]
  rw [hword, ← hhistory]
  change (Tab.get? v.tru.history 4).getD _ = _
  rw [hv]
  simp only [measSecurity, extendMeas, setTru, Tab.get?_set_same, Option.getD_some]

/-! ## BIND and the registries (R662–R664) -/

theorem isAttested_iff : isAttested s x = true ↔ x.established = true ∧ ∃ b, x.bound = some b ∧ x.reqKey = some b.2 ∧
    b.1 ∈ (registryOf s (fnInst x.fn)).entries := by
  unfold isAttested
  cases x.bound with
  | none => simp
  | some b => simp [and_assoc]

theorem bind_binds (hfree : fnBusy s fn = false) (hx : secureSess s fn ses = some x) (hm : keys.mldsaPub.length = 2592)
    (he : keys.ecdsaPub.length = 97) (hok : Config.mldsaOk keys.mldsaPub x.th keys.mldsaSig = true) :
    Nexts (execBind fn ses keys s) (fun t => Told fn ses (natLe 1 0) t ∧
      sessOf t fn x.id = some { x with bound := some (sha384 (keys.mldsaPub ++ keys.ecdsaPub), keys.ecdsaPub) }) := by
  obtain ⟨-, hfound, -⟩ := secureSess_eq_some hx
  rw [execBind, onFn_of_free hfree, hx]
  refine ⟨_, rfl, ?_⟩
  dsimp only
  rw [if_neg (by simp [hm, he]), if_neg (by simp [hok])]
  exact ⟨told_nil, sessOf_modSess
    (g := fun y => { y with bound := some (sha384 (keys.mldsaPub ++ keys.ecdsaPub), keys.ecdsaPub) })
    (fun _ => rfl) (fun _ => rfl) hfound⟩

/-- A BIND that fails is counted (R673). -/
theorem bind_fails {status : Nat} (hfree : fnBusy s fn = false) (hx : secureSess s fn ses = some x)
    (h : (if keys.mldsaPub.length ≠ 2592 ∨ keys.ecdsaPub.length ≠ 97 then some 0x10
      else if Config.mldsaOk keys.mldsaPub x.th keys.mldsaSig then none else some 0x11) = some status) :
    Nexts (execBind fn ses keys s) (fun t => Told fn ses (natLe 1 status) t ∧ t.tru.sessions = s.tru.sessions ∧
      live t Reg.TRU_COUNTS 7 0 = satAdd 8 (live s Reg.TRU_COUNTS 7 0) 1) := by
  have hfailed : execBind fn ses keys s =
      .next (respondVendor (bump s Reg.TRU_COUNTS 7 0 1) fn ses status []) := by
    rw [execBind, onFn_of_free hfree, hx]
    dsimp only
    split at h
    · next hlen =>
      cases h
      rw [if_pos hlen]
    · next hlen =>
      split at h
      · cases h
      · next hsig =>
        cases h
        rw [if_neg hlen, if_pos (by simpa using hsig)]
  exact ⟨_, hfailed, told_nil, rfl, live_bump_same s _ _ _ _ (by decide)⟩

section
variable {keyIndex version signer : Nat} {hash : Bytes}

/-- What the check of a REG_UPDATE refuses (R664, R667). -/
def RegRefused (s : State) (x : Sess) (fn keyIndex : Nat) (hash : Bytes) (version signer : Nat) (keys : KeySigs) : Prop :=
  let r := registryOf s (fnInst fn)
  version ≠ r.version + 1 ∨ (r.entries.set keyIndex (if isZero hash 0 48 then [] else hash)).all (·.isEmpty) = true ∨
    r.entries.all (·.isEmpty) = false ∧ (isAttested s x = false ∨ regSigned s (fnInst fn) keyIndex hash version signer keys = false)

theorem regUpdate_of_secure (hfree : fnBusy s fn = false) (hx : secureSess s fn ses = some x) (hk : keyIndex < 8)
    (hlen : hash.length = 48) (hs : signer < 8) [Decidable (RegRefused s x fn keyIndex hash version signer keys)] :
    execRegUpdate fn ses keyIndex hash version signer keys s = .next (
      if RegRefused s x fn keyIndex hash version signer keys then respondVendor s fn ses 0x11 []
      else respondVendor (bump (setTru s { s.tru with registries := Tab.set s.tru.registries (fnInst fn) {
        version := version
        entries := (registryOf s (fnInst fn)).entries.set keyIndex (if isZero hash 0 48 then [] else hash) } })
        Reg.TRU_COUNTS 15 8 1) fn ses 0 []) := by
  rw [execRegUpdate, onFn_of_free hfree, hx]
  dsimp only
  rw [if_neg (by omega)]
  congr 2
  simp only [RegRefused, eq_iff_iff, Bool.or_eq_true, Bool.and_eq_true, bne_iff_ne, Bool.not_eq_true', Bool.not_eq_true]
  tauto

theorem regUpdate_sets (hfree : fnBusy s fn = false) (hx : secureSess s fn ses = some x) (hk : keyIndex < 8)
    (hlen : hash.length = 48) (hs : signer < 8) (h : ¬ RegRefused s x fn keyIndex hash version signer keys) :
    Nexts (execRegUpdate fn ses keyIndex hash version signer keys s) (fun t => Told fn ses (natLe 1 0) t ∧
      registryOf t (fnInst fn) = { version := version, entries :=
        (registryOf s (fnInst fn)).entries.set keyIndex (if isZero hash 0 48 then [] else hash) } ∧
      (∀ j, j ≠ fnInst fn → registryOf t j = registryOf s j) ∧
      live t Reg.TRU_COUNTS 15 8 = satAdd 8 (live s Reg.TRU_COUNTS 15 8) 1) := by
  classical
  rw [regUpdate_of_secure hfree hx hk hlen hs, if_neg h]
  exact ⟨_, rfl, told_nil, Tab.getD_set_same .., fun j hj => Tab.getD_set_other _ _ _ hj,
    live_bump_same _ _ _ _ _ (by decide)⟩

theorem regUpdate_refused (hfree : fnBusy s fn = false) (hx : secureSess s fn ses = some x) (hk : keyIndex < 8)
    (hlen : hash.length = 48) (hs : signer < 8) (h : RegRefused s x fn keyIndex hash version signer keys) :
    Nexts (execRegUpdate fn ses keyIndex hash version signer keys s) (fun t =>
      { t with tru := { t.tru with reply := s.tru.reply } } = s ∧ Told fn ses (natLe 1 0x11) t) := by
  classical
  rw [regUpdate_of_secure hfree hx hk hlen hs, if_pos h]
  exact ⟨_, rfl, rfl, told_nil⟩

end

/-! ## Requests of the operator (R651, R652, R668) -/

theorem release_empties (hfree : fnBusy s fn = false) (hop : operatorAttested s fn ses = true)
    (h : ∀ q ∈ s.ten.insts, q.1 = 0 ∨ q.2.state = .free) : Nexts (execRelease fn ses s) (fun t =>
      Told fn ses (natLe 1 0) t ∧ claimed t = false ∧
        Tab.getD t.tru.instEpoch 0 0 = Tab.getD s.tru.instEpoch 0 0 + 1) := by
  have hnone : ¬ s.ten.insts.any (fun p => p.1 != 0 && decide (p.2.state ≠ .free)) = true := by
    rw [List.any_eq_true]
    rintro ⟨q, hq, hlives⟩
    rw [Bool.and_eq_true, bne_iff_ne, decide_eq_true_eq] at hlives
    exact (h q hq).elim hlives.1 hlives.2
  rw [execRelease, attested_of_operator hfree hop, if_neg hnone]
  refine ⟨_, rfl, told_nil, ?_, ?_⟩
  · change (Tab.getD (Tab.set s.tru.registries 0 _) 0 _).entries.any _ = _
    rw [Tab.getD_set_same]
    rfl
  · exact (Tab.getD_upd ..).trans (if_pos rfl)

theorem freeFailure_mem : freeFailure s ∈ failures := by
  unfold freeFailure
  have hlt : Config.freeNat s.freeCount % 14 < failures.length := Nat.mod_lt _ (by decide)
  rw [List.getD_eq_getElem _ _ hlt]
  exact List.getElem_mem hlt

theorem release_refused (hfree : fnBusy s fn = false) (hop : operatorAttested s fn ses = true)
    (h : ∃ q ∈ s.ten.insts, q.1 ≠ 0 ∧ q.2.state ≠ .free) : Nexts (execRelease fn ses s) (fun t =>
      (∃ n ∈ failures, Told fn ses (natLe 1 n) t) ∧ t.tru.registries = s.tru.registries ∧
        t.tru.instEpoch = s.tru.instEpoch) := by
  obtain ⟨q, hq, hinst, hlives⟩ := h
  rw [execRelease, attested_of_operator hfree hop, if_pos (List.any_eq_true.mpr ⟨q, hq, by simp [hinst, hlives]⟩)]
  exact ⟨_, rfl, ⟨freeFailure s, freeFailure_mem, told_nil⟩, rfl, rfl⟩

/-- The recorder keeps what the trust unit holds. -/
theorem record_tru {event sev status unit i : Nat} {detail : Bytes} :
    (record s event sev status unit i detail).tru = s.tru := (record_keeps ..).tru rfl

theorem testOpen_opens (hfree : fnBusy s fn = false) (hop : operatorAttested s fn ses = true) (h : testActive s = false) :
    Nexts (execTestOpen fn ses s) (fun t => Told fn ses (natLe 1 0) t ∧ t.tru.testBy = ses ∧ testActive t = true ∧
      historyOf t 4 = sha384 (historyOf s 4 ++ measRecord 4 4 0xFFFF 0 0 (secState t) [] [] 0 0)) := by
  rw [execTestOpen, attested_of_operator hfree hop, if_neg (by rw [h]; exact Bool.false_ne_true)]
  have htru : (record (measSecurity (setTru s { s.tru with testBy := ses })) 0x0040 sevFree 0 0xFF 0 [1#8]).tru =
      (measSecurity (setTru s { s.tru with testBy := ses })).tru := record_tru
  have hby : (record (measSecurity (setTru s { s.tru with testBy := ses })) 0x0040 sevFree 0 0xFF 0 [1#8]).tru.testBy = ses := by
    rw [htru]
    rfl
  exact ⟨_, rfl, told_nil, hby, (congrArg Option.isSome hby).trans (isSome_of_operatorAttested hop),
    historyOf_respondVendor htru rfl⟩

theorem testClose_closes (hfree : fnBusy s fn = false) (hop : operatorAttested s fn ses = true) (h : testActive s = true) :
    Nexts (execTestClose fn ses s) (fun t => Told fn ses (natLe 1 0) t ∧ testActive t = false ∧ t.tst.injections = [] ∧
      historyOf t 4 = sha384 (historyOf s 4 ++ measRecord 4 4 0xFFFF 0 0 (secState t) [] [] 0 0)) := by
  have htru : (closeTest s).tru = (measSecurity (setTru s { s.tru with testBy := none })).tru := by rw [closeTest_tru, if_pos h]
  rw [execTestClose, attested_of_operator hfree hop]
  exact ⟨_, rfl, told_nil, testActive_closeTest, closeTest_injections h, historyOf_respondVendor htru rfl⟩

theorem decommission_ends (hfree : fnBusy s fn = false) (hop : operatorAttested s fn ses = true) :
    Nexts (execDecommission fn ses s) (fun t => Told fn ses (natLe 1 0) t ∧ t.tru.lifecycle = 2 ∧
      historyOf t 4 = sha384 (historyOf s 4 ++ measRecord 4 4 0xFFFF 0 0 (secState t) [] [] 0 0) ∧
      ∀ n, deviceKey t n = none) := by
  rw [execDecommission, attested_of_operator hfree hop]
  exact ⟨_, rfl, told_nil, rfl, historyOf_respondVendor (u := setTru s { s.tru with lifecycle := 2 }) rfl rfl, fun _ => rfl⟩

/-! ## IDE (R669) -/

theorem judgeIde_active {b : Bytes} (hk : k < 4) (h : Tab.get? s.tru.ide (fn * 4 + k) = some b) :
    (Tab.getD (judgeIde s fn).hif.links fn {}).ide = true := by
  have hmem : fn * 4 + k ∈ Tab.keys s.tru.ide := by
    by_contra hout
    rw [(Tab.get?_eq_none_iff _ _).mpr hout] at h
    cases h
  change (Tab.getD (Tab.set s.hif.links fn _) fn ({} : Link)).ide = _
  rw [Tab.getD_set_same]
  exact List.any_eq_true.mpr ⟨_, hmem, by rw [beq_iff_eq]; omega⟩

theorem ideKm_of_secure {key : Option Bytes} (hfree : fnBusy s fn = false) (hfn : fn < 2)
    (hx : (secureSess s fn ses).isSome = true) (hk : k < 4) : execIdeKm fn ses k key s = .next (respondVendor (judgeIde (setTru s {
      s.tru with ide := match key with
        | some b => Tab.set s.tru.ide (fn * 4 + k) b
        | none => Tab.erase s.tru.ide (fn * 4 + k) }) fn) fn ses 0 []) := by
  have hsecure : ¬ (2 ≤ fn ∨ (secureSess s fn ses).isNone = true) := by
    rw [← Option.not_isSome, hx]
    simp [hfn]
  rw [execIdeKm, onFn_of_free hfree, if_neg hsecure]
  exact congrArg Host.Outcome.next (if_neg (by omega))

theorem ideIntegrityFailure_erases {port : Nat} (hk : k < 4) (h : (Tab.get? s.tru.ide (port * 4 + k)).isSome = true) :
    Nexts (execIdeIntegrityFailure port k s) (fun t => Tab.get? t.tru.ide (port * 4 + k) = none ∧
      ∀ n, n ≠ port * 4 + k → Tab.get? t.tru.ide n = Tab.get? s.tru.ide n) := by
  have htorn : ¬ (4 ≤ k ∨ (Tab.get? s.tru.ide (port * 4 + k)).isNone = true) := by
    rw [← Option.not_isSome, h]
    simp [hk]
  refine ⟨_, if_neg htorn, ?_⟩
  dsimp only
  rw [record_tru]
  exact ⟨Tab.get?_erase_same .., fun n hn => (Tab.get?_erase ..).trans (if_neg hn)⟩

/-! ## TDISP (R670) -/

/-- What a TDISP message needs: a secure session on the DOE of the PF of the VF's port, and a tenant that exists. -/
def TdiReached (s : State) (fn : Nat) (ses : Option Nat) (inst : Nat) : Prop :=
  fn < 2 ∧ (secureSess s fn ses).isSome = true ∧ inst ≠ 0 ∧ (instOf s inst).state ≠ .free ∧ (instOf s inst).port = fn

theorem tdiReached_iff : TdiReached s fn ses inst ↔
    ¬ (2 ≤ fn ∨ (secureSess s fn ses).isNone ∨ inst = 0 ∨ (instOf s inst).state = .free ∨ (instOf s inst).port ≠ fn) := by
  rw [← Option.not_isSome]
  simp only [TdiReached, not_or, not_le, Bool.not_eq_true', Bool.not_eq_false, ne_eq, not_not]

theorem tdispMessage_unreached {msg : TdispMsg} (hfree : fnBusy s fn = false) (h : ¬ TdiReached s fn ses inst) :
    Nexts (execTdispMessage fn ses inst msg s) (fun t => { t with tru := { t.tru with reply := s.tru.reply } } = s ∧
      Told fn ses (natLe 1 0x11) t) := by
  rw [tdiReached_iff, not_not] at h
  exact onFn_told hfree (if_pos h)

/-- What a TDISP message does once it has reached its TDI. -/
def tdiEffect (s : State) (fn : Nat) (ses : Option Nat) (inst : Nat) (msg : TdispMsg) : State :=
  let st := Tab.getD s.tru.tdi inst .unlocked
  let bad := respondVendor s fn ses 0x10 []
  let set : TdiState → State := fun t => setTru s { s.tru with tdi := Tab.put .unlocked s.tru.tdi inst t }
  match msg with
  | .getVersion => respondVendor s fn ses 0 [0x10#8]
  | .getCapabilities => respondVendor s fn ses 0 []
  | .lockInterface stream =>
    if st ≠ .unlocked ∨ (Tab.get? s.tru.ide (fn * 4 + stream)).isNone ∨ 4 ≤ stream then bad
    else respondVendor (setTru (set .locked) { (set .locked).tru with tdiStream := Tab.set s.tru.tdiStream inst stream }) fn ses 0 []
  | .getInterfaceReport => if st = .locked ∨ st = .run then respondVendor s fn ses 0 (natLe 4 1 ++ natLe 4 65536) else bad
  | .getInterfaceState => respondVendor s fn ses 0 (natLe 1 (tdiCode st))
  | .startInterface => if st = .locked then respondVendor (set .run) fn ses 0 [] else bad
  | .stopInterface => respondVendor (setTru (set .unlocked) { (set .unlocked).tru with
      tdiStream := Tab.erase s.tru.tdiStream inst }) fn ses 0 []

theorem tdispMessage_reached {msg : TdispMsg} (hfree : fnBusy s fn = false) (h : TdiReached s fn ses inst) :
    execTdispMessage fn ses inst msg s = .next (tdiEffect s fn ses inst msg) := by
  rw [tdiReached_iff] at h
  rw [execTdispMessage, onFn_of_free hfree, if_neg h]
  cases msg <;> rfl

end

/-- Settles O52: BIND and the registries, then the operator's requests, IDE, TDISP and the measurement registers. -/
theorem vendorRequestsAndTdispActUnderTheirAuthority : Obligations.VendorRequestsAndTdispActUnderTheirAuthority := by
  intro s fn inst k v keyIndex version signer port ses hash b keys x only told h i r empty failed new word st tdi tdiOk
  dsimp only [exec]
  refine ⟨fun hfree => ⟨fun hx hm he => ⟨bind_binds hfree hx hm he, fun hsig => bind_fails hfree hx ?_⟩,
    fun hx hlen => bind_fails hfree hx (if_pos hlen), isAttested_iff, fun hx c hc => ?noSession,
    fun hx hk hlen hs hversion hauth hnew => regUpdate_sets hfree hx hk hlen hs ?_,
    fun hx hk hlen hs hbad => regUpdate_refused hfree hx hk hlen hs hbad, fun hop => ⟨release_empties hfree hop,
      release_refused hfree hop, testOpen_opens hfree hop, testClose_closes hfree hop, decommission_ends hfree hop⟩,
    fun hop c hc => ?other, fun hfn hx hk => ⟨?km, ?kmErase⟩, fun hno => ?kmRefused, fun htdi => ?tdisp,
    tdispMessage_unreached hfree⟩, ideIntegrityFailure_erases, fun hnone => if_pos (.inr (by rw [hnone]; rfl)), ?select⟩
  · rw [if_neg (by simp [hm, he]), hsig]
    rfl
  case noSession =>
    simp only [List.mem_cons, List.not_mem_nil, or_false] at hc
    obtain rfl | rfl := hc
    all_goals
      dsimp only [exec]
      exact onFn_told hfree (by rw [hx])
  · rintro (hv | hall | ⟨hfull, hsigned⟩)
    · exact hv hversion
    · exact Bool.false_ne_true (hnew.symm.trans hall)
    · rcases hauth with hempty | ⟨hatt, hsig⟩
      · exact Bool.false_ne_true (hfull.symm.trans hempty)
      · rcases hsigned with hs | hs
        · exact Bool.false_ne_true (hs.symm.trans hatt)
        · exact Bool.false_ne_true (hs.symm.trans hsig)
  case other =>
    simp only [List.mem_cons, List.not_mem_nil, or_false] at hc
    obtain rfl | rfl | rfl | rfl := hc
    all_goals
      dsimp only [exec]
      exact attested_told_of_other hfree hop
  case km => exact ⟨_, ideKm_of_secure hfree hfn hx hk, told_nil, Tab.get?_set_same .., judgeIde_active hk (Tab.get?_set_same ..)⟩
  case kmErase => exact ⟨_, ideKm_of_secure hfree hfn hx hk, told_nil, Tab.get?_erase_same ..⟩
  case kmRefused => exact onFn_told hfree (if_pos hno)
  case tdisp =>
    refine ⟨fun hst hide hk => ?lock, fun hst => ?lockRefused, fun hst => ?start, fun hst => ?startRefused, ?stop, ?report, fun hst => ?interface⟩
    all_goals rw [tdispMessage_reached hfree htdi]
    case lock =>
      refine ⟨_, rfl, ?_⟩
      dsimp only [tdiEffect]
      rw [if_neg]
      · exact ⟨told_nil, Tab.getD_put_same s.tru.tdi inst .locked .unlocked, Tab.get?_set_same s.tru.tdiStream inst k⟩
      · rw [← Option.not_isSome, hide]
        simp only [Bool.not_true, Bool.false_eq_true, false_or, not_or, not_le, ne_eq, not_not]
        exact ⟨hst, hk⟩
    case lockRefused => exact ⟨_, rfl, by rw [tdiEffect, if_pos (.inl hst)]; exact ⟨rfl, told_nil⟩⟩
    case start => exact ⟨_, rfl, by rw [tdiEffect, if_pos hst]; exact ⟨told_nil, Tab.getD_put_same s.tru.tdi inst .run .unlocked⟩⟩
    case startRefused => exact ⟨_, rfl, by rw [tdiEffect, if_neg hst]; exact ⟨rfl, told_nil⟩⟩
    case stop => exact ⟨_, rfl, told_nil, Tab.getD_put_same s.tru.tdi inst .unlocked .unlocked, Tab.get?_erase_same ..⟩
    case report => exact ⟨_, rfl, rfl, rfl⟩
    case interface => exact ⟨_, rfl, by rw [tdiEffect, if_pos hst]; exact ⟨rfl, rfl⟩⟩
  case select =>
    have hfit (hi lo : Nat) : fld v hi lo < 2 ^ (hi - lo + 1) := Nat.mod_lt _ (Nat.two_pow_pos _)
    refine ⟨_, rfl, rfl, ?_, ?_⟩
    · exact (live_setLive_apart _ _ _ _ _ (by decide) (by decide) (by decide)).trans
        ((live_setLive_same _ _ _ _ _ (by decide)).trans (Nat.mod_eq_of_lt (hfit 24 16)))
    · exact (live_setLive_same _ _ _ _ _ (by decide)).trans (Nat.mod_eq_of_lt (hfit 7 0))

end Sys2Proof.Machine
end


section
/-! SUPPORT and O55. The recorder (22_event_recorder.md, R724–R730): the mirror page, the end of a second, a read, the steps of a
clear; the SMBus timeout and the test port (R775, R777). -/

namespace Sys2Proof.Machine

section
variable {s : State} {r : EventRec} {c : EvrClear}

/-! ## A record that is written (R724) -/

/-- Delivery to a tenant moves only what was written to its area (R726). -/
theorem deliver_evr {i : Nat} {bs : Bytes} : ∃ w, (deliver s i bs).evr = { s.evr with written := w } := by
  unfold deliver
  extract_lets a base n placed _ counted
  split
  · exact ⟨_, rfl⟩
  · have hplaced : placed.evr = s.evr := (lmemWrite_keeps ..).evr rfl
    exact ⟨Tab.set placed.evr.written i (n + 1), ((lmemWrite_keeps ..).evr rfl).trans
      (congrArg (fun e : Evr => { e with written := Tab.set placed.evr.written i (n + 1) }) hplaced)⟩

/-- The record with what the recorder stamps on it as it is written. -/
def stamped (s : State) (r : EventRec) : EventRec :=
  let wallMs := match s.evr.wall with
    | some (v, t0) => v + (r.opTime - t0)
    | none => 0
  let back := match s.evr.lastWall with
    | some w => s.evr.wall.isSome && decide (wallMs < w)
    | none => false
  { r with
    seq := s.evr.nextSeq, sev := if r.sev < 3 then r.sev else Config.freeSeverity s.evr.nextSeq % 3, wallMs
    flags := r.flags + b2n s.evr.wall.isSome + 2 * b2n back }

/-- A written record takes the next SEQ; it goes to the NOR ring while that holds, and what waits or is counted stays. -/
theorem writeRecord_evr : (writeRecord s r).evr.nextSeq = s.evr.nextSeq + 1 ∧
    (writeRecord s r).evr.nor = (if s.evr.norFail then s.evr.nor else ringPush s.evr.nor (stamped s r)) ∧
    (writeRecord s r).evr.waiting = s.evr.waiting ∧ (writeRecord s r).evr.clear = s.evr.clear ∧
    (writeRecord s r).evr.second = s.evr.second ∧ (writeRecord s r).evr.norFail = s.evr.norFail := by
  unfold writeRecord
  extract_lets e valid wallMs back sev stamp pushed filled
  obtain ⟨w, hdelivered⟩ := deliver_evr (s := filled) (i := stamp.inst) (bs := recordBytes stamp)
  rw [hdelivered]
  have hfilled : ∀ {α : Type} (f : Evr → α), (∀ v m p, f { v with mirror := m, page := p } = f v) → f filled.evr = f pushed.evr := by
    intro α f hf
    unfold filled
    split
    · exact hf ..
    · rfl
  exact ⟨hfilled Evr.nextSeq fun _ _ _ => rfl, hfilled Evr.nor fun _ _ _ => rfl, hfilled Evr.waiting fun _ _ _ => rfl,
    hfilled Evr.clear fun _ _ _ => rfl, hfilled Evr.second fun _ _ _ => rfl, hfilled Evr.norFail fun _ _ _ => rfl⟩

/-- The records that waited are written one after the other. -/
theorem foldl_writeRecord_evr (l : List EventRec) : (l.foldl writeRecord s).evr.nextSeq = s.evr.nextSeq + l.length ∧
    (l.foldl writeRecord s).evr.waiting = s.evr.waiting ∧ (l.foldl writeRecord s).evr.clear = s.evr.clear := by
  induction l generalizing s with
  | nil => exact ⟨rfl, rfl, rfl⟩
  | cons r l ih =>
    obtain ⟨hseq, -, hwait, hclear, -⟩ := writeRecord_evr (s := s) (r := r)
    obtain ⟨ihseq, ihwait, ihclear⟩ := ih (s := writeRecord s r)
    rw [List.foldl_cons, ihseq, ihwait, ihclear, hseq, List.length_cons]
    exact ⟨by omega, hwait, hclear⟩

/-! ## The mirror page and the end of a second (R724) -/

theorem mirrorPageFlush_of_page (h : s.evr.page ≠ []) : execMirrorPageFlush s = .next { s with
    freeCount := s.freeCount + 1
    evr := { s.evr with
      norFail := s.evr.norFail || Config.norFails s.freeCount
      mirror := s.evr.page.foldl ringPush s.evr.mirror
      page := [] } } := by
  rw [execMirrorPageFlush, if_neg (by simpa using h)]
  rfl

theorem mirrorPageFlush_of_empty (h : s.evr.page = []) : execMirrorPageFlush s = .next s := by
  rw [execMirrorPageFlush, h]
  rfl

theorem suppressed_of_few (h : ∀ q ∈ s.evr.second, q.2 ≤ 64) :
    execSuppressed s = .next { s with evr := { s.evr with second := [], secondSince := s.now } } := by
  have hnone : s.evr.second.filter (fun p => decide (64 < p.2)) = [] := by
    rw [List.filter_eq_nil_iff]
    intro q hq
    simpa using h q hq
  simp only [execSuppressed, endSecond, hnone, List.foldl_nil, setEvr]

/-- One EVENT and UNIT of which too many came: one SUPPRESSED record names both and the number left out. -/
theorem suppressed_of_many {k n : Nat} (h : s.evr.second = [(k, n)]) (hn : 64 < n) (hnor : s.evr.norFail = false)
    (hclear : s.evr.clear = none) : Nexts (execSuppressed s) (fun t => t.evr.second = [] ∧ t.evr.secondSince = s.now ∧
      t.evr.nextSeq = s.evr.nextSeq + 1 ∧ live t Reg.EVR_COUNTS 15 8 = satAdd 8 (live s Reg.EVR_COUNTS 15 8) 1 ∧
      ∃ r, t.evr.nor = ringPush s.evr.nor r ∧ r.seq = s.evr.nextSeq ∧ r.event = 0x0005 ∧ r.unit = k % 256 ∧
        r.detail = natLe 2 (k / 256) ++ natLe 4 (n - 64)) := by
  let counted := bump { s with evr := { s.evr with second := [] } } Reg.EVR_COUNTS 15 8 1
  let left : EventRec := {
    seq := 0, opTime := opTime counted, cycles := powerCycles counted, event := 0x0005, sev := sevFree, unit := k % 256
    detail := natLe 2 (k / 256) ++ natLe 4 (n - 64) }
  have hend : endSecond s = writeRecord counted left := by
    have hput : putRecord counted left = writeRecord counted left := by
      rw [putRecord]
      change (match s.evr.clear with | some _ => _ | none => _) = _
      rw [hclear]
    rw [← hput, endSecond, h]
    simp only [List.filter_cons, hn, decide_true, if_true, List.filter_nil, List.foldl_cons, List.foldl_nil]
    rfl
  obtain ⟨hseq, hring, -, -, hsecond, -⟩ := writeRecord_evr (s := counted) (r := left)
  have hfails : counted.evr.norFail = false := hnor
  rw [hfails] at hring
  refine ⟨_, rfl, ?_⟩
  rw [hend]
  refine ⟨hsecond, rfl, hseq, ?_, stamped counted left, hring, rfl, rfl, rfl, rfl⟩
  change live (writeRecord counted left) _ _ _ = _
  rw [live, liveWord_writeRecord]
  exact live_bump_same _ _ _ _ _ (by decide)

/-! ## Reading and clearing (R727, R730) -/

theorem evrRead_of_reading (h : s.evr.reading = true) : execEvrRead s = .next { s with evr := { s.evr with
    reading := false
    snap := (recordOf s (effWord s Reg.EVR_READ_SEL_LO + effWord s Reg.EVR_READ_SEL_HI * 2 ^ 32)).map recordBytes } } := by
  rw [execEvrRead, h]
  rfl

theorem evrRead_of_idle (h : s.evr.reading = false) : execEvrRead s = .next s := by
  rw [execEvrRead, h]
  rfl

theorem evrClear_of_none (h : s.evr.clear = none) : execEvrClear s = .next s := by rw [execEvrClear, h]

/-- Step 2 of a clear hides its range. -/
theorem recordOf_hidden {j : Nat} (h : s.evr.clear = some { c with step := 2 }) (hfirst : c.first ≤ j) (hlast : j ≤ c.last) :
    recordOf s j = none := by
  simp [recordOf, h, hfirst, hlast]

theorem evrClear_hides (h : s.evr.clear = some c) (hstep : c.step = 1) : Nexts (execEvrClear s) (fun t =>
    t.evr = { s.evr with clear := some { c with step := 2 } } ∧ ∀ j, c.first ≤ j → j ≤ c.last → recordOf t j = none) := by
  rw [execEvrClear, h]
  dsimp only
  rw [hstep]
  exact ⟨_, rfl, rfl, fun j => recordOf_hidden rfl⟩

theorem evrClear_erases (h : s.evr.clear = some c) (hstep : c.step = 2) : execEvrClear s = .next { s with
    freeCount := s.freeCount + 1
    evr := { s.evr with
      norFail := s.evr.norFail || Config.norFails s.freeCount, clear := some { c with step := 3 }, nor := [], mirror := []
      page := [] } } := by
  rw [execEvrClear, h]
  dsimp only
  rw [hstep]
  rfl

theorem evrClear_records (h : s.evr.clear = some c) (hstep : c.step = 3) : Nexts (execEvrClear s) (fun t =>
    t.evr.clear = some { c with step := 4 } ∧ t.evr.waiting = [] ∧ t.evr.page = [] ∧
    t.evr.nextSeq = s.evr.nextSeq + 1 + s.evr.waiting.length ∧
    (s.evr.waiting = [] → s.evr.norFail = false → ∃ r, t.evr.nor = ringPush s.evr.nor r ∧ r.event = 0x0004 ∧
      r.detail = natLe 8 c.first ++ natLe 8 c.last ++ natLe 2 c.session)) := by
  let emptied := setEvr s { s.evr with waiting := [] }
  let cleared : EventRec := {
    seq := 0, opTime := opTime emptied, cycles := powerCycles emptied, event := 0x0004, sev := sevFree
    detail := natLe 8 c.first ++ natLe 8 c.last ++ natLe 2 c.session }
  obtain ⟨hseq, hring, hwait, -⟩ := writeRecord_evr (s := emptied) (r := cleared)
  obtain ⟨lseq, lwait, -⟩ := foldl_writeRecord_evr (s := writeRecord emptied cleared) s.evr.waiting
  rw [execEvrClear, h]
  dsimp only
  rw [hstep]
  refine ⟨_, rfl, rfl, lwait.trans hwait, rfl, lseq.trans (congrArg (· + _) hseq), fun hnone hnor => ?_⟩
  refine ⟨stamped emptied cleared, ?_, rfl, rfl⟩
  change (s.evr.waiting.foldl writeRecord (writeRecord emptied cleared)).evr.nor = _
  have hfails : emptied.evr.norFail = false := hnor
  rw [hnone, List.foldl_nil, hring, hfails]
  rfl

theorem evrClear_ends (h : s.evr.clear = some c) (hstep : c.step = 4) : Nexts (execEvrClear s) (fun t =>
    t.evr.clear = none ∧ t.evr.waiting = [] ∧ t.evr.nextSeq = s.evr.nextSeq + s.evr.waiting.length ∧
    (s.evr.waiting = [] → t = { s with evr := { s.evr with clear := none } })) := by
  obtain ⟨hseq, hwait, hclear⟩ :=
    foldl_writeRecord_evr (s := setEvr s { s.evr with clear := none, waiting := [] }) s.evr.waiting
  rw [execEvrClear, h]
  dsimp only
  rw [hstep]
  refine ⟨_, rfl, hclear, hwait, hseq, fun hnone => ?_⟩
  rw [hnone, List.foldl_nil, setEvr, ← hnone]

end

/-- Settles O55: the mirror page, the end of the second, a read, the steps of a clear, the sideband and the test port. -/
theorem theRecorderMirrorsSuppressesReadsAndClears : Obligations.TheRecorderMirrorsSuppressesReadsAndClears := by
  intro s k n ir c b v seq
  dsimp only [exec]
  refine ⟨mirrorPageFlush_of_page, mirrorPageFlush_of_empty, suppressed_of_few, suppressed_of_many, evrRead_of_reading,
    evrRead_of_idle, evrClear_of_none, fun hc => ⟨evrClear_hides hc, evrClear_erases hc, evrClear_records hc,
    evrClear_ends hc⟩, rfl, _, rfl, rfl, fun h => ?one, fun h h0 => ?extest, fun h h0 => ?bypass, fun h1 h2 => ?other⟩
  case one => exact if_pos h
  case extest => exact (if_neg (by omega)).trans (if_pos ⟨h, h0⟩)
  case bypass => exact (if_neg (by omega)).trans (if_neg fun hex => h0 hex.2)
  case other => exact (if_neg h1).trans (if_neg fun hex => h2 hex.1)

end Sys2Proof.Machine
end


section
/-! SUPPORT. A command that waits at the front of its submission queue is taken, and its completion entry reaches host memory
(16_host_interface.md, R564, R572). -/

namespace Sys2Proof.Machine

section
variable {s u v : State} {c q idx st dw0 dw1 : Nat} {e : Bytes} {rest : List (Nat × Bytes)}

/-- The state once the front entry of a queue has been taken. -/
def cmdTaken (s : State) (c q idx : Nat) (rest : List (Nat × Bytes)) : State :=
  setSq s c q { sqOf s c q with fetched := rest, head := (idx + 1) % max 1 (sqOf s c q).size }

theorem cmdTaken_keeps : Keeps 67108864 s (cmdTaken s c q idx rest) := setSq_keeps ..

theorem ctrlOf_cmdTaken : ctrlOf (cmdTaken s c q idx rest) c = { ctrlOf s c with
    sqs := Tab.set (ctrlOf s c).sqs q { sqOf s c q with fetched := rest, head := (idx + 1) % max 1 (sqOf s c q).size } } :=
  Tab.getD_set_same ..

theorem ctrlPort_congr (h : u.ten = s.ten) : ctrlPort u c = ctrlPort s c := by rw [ctrlPort, ctrlPort, instOf, instOf, h]

theorem flushMode_of_ctrlRuns (h : ctrlRuns s c = true) : s.sbx.flushMode = false := by
  simp only [ctrlRuns, Bool.and_eq_true, Bool.not_eq_true'] at h
  exact h.1.1.1

theorem nvmeCmd_of_waits {admin ticket : Bool} {ok : Bytes → Bool} {f : State → NCmd → State} (h : cmdWaits s c q idx e rest)
    (hadmin : admin = (q == 0)) (hok : ok e = true) (hticket : ticket = true → (entryFree s (ctrlInst c)).isSome = true) :
    nvmeCmd s c q admin ticket ok f = .next (f (cmdTaken s c q idx rest) (cmdRec c q idx e)) := by
  obtain ⟨hfront, hruns, -⟩ := h
  have hfree : ¬ (ticket = true ∧ (entryFree s (ctrlInst c)).isNone = true) := by
    rintro ⟨ht, hn⟩
    rw [Option.isNone_iff_eq_none] at hn
    simpa [hn] using hticket ht
  rw [nvmeCmd, hfront]
  dsimp only
  rw [if_neg (by simpa only [hok, hruns, hadmin, ne_eq, not_true, Bool.not_true, Bool.false_eq_true, false_or] using hfree), hadmin]
  rfl

theorem adminCmd_of_waits {op : Nat} {pfOnly : Bool} {f : State → NCmd → State} (h : cmdWaits s c 0 idx e rest) (hop : eOp e = op)
    (hpf : pfOnly = true → c < 2) :
    adminCmd s c op pfOnly f = .next (f (cmdTaken s c 0 idx rest) (cmdRec c 0 idx e)) := by
  rw [adminCmd, nvmeCmd_of_waits (admin := true) h rfl (by simpa using hop) (by simp), if_neg (by rintro ⟨hp, hc⟩; exact absurd (hpf hp) (by omega))]

/-! ## The completion entry -/

/-- What a completion needs is in `u` as it was when the command was taken from `s`. -/
structure Fetched (s u : State) (c q idx : Nat) : Prop where
  head : (sqOf u c q).head = (idx + 1) % max 1 (sqOf s c q).size
  cq : (sqOf u c q).cq = (sqOf s c q).cq
  ring : Tab.getD (ctrlOf u c).cqs (sqOf s c q).cq {} = Tab.getD (ctrlOf s c).cqs (sqOf s c q).cq {}
  flush : u.sbx.flushMode = false
  tdi : Tab.getD u.tru.tdi (ctrlInst c) .unlocked ≠ .error
  port : ctrlPort u c = ctrlPort s c

theorem fetched_cmdTaken (h : cmdWaits s c q idx e rest) : Fetched s (cmdTaken s c q idx rest) c q idx := by
  obtain ⟨-, hruns, htdi⟩ := h
  have hsq : sqOf (cmdTaken s c q idx rest) c q =
      { sqOf s c q with fetched := rest, head := (idx + 1) % max 1 (sqOf s c q).size } := by
    rw [sqOf, ctrlOf_cmdTaken]
    exact Tab.getD_set_same ..
  have hflush : s.sbx.flushMode = false := flushMode_of_ctrlRuns hruns
  exact ⟨by rw [hsq], by rw [hsq], by rw [ctrlOf_cmdTaken], hflush, htdi,
    ctrlPort_congr (cmdTaken_keeps.ten rfl)⟩

namespace Fetched

/-- The controllers, the trust state and the tenancy are all that counts, beside flush mode. -/
theorem congr (h : Fetched s u c q idx) (hctrl : ctrlOf v c = ctrlOf u c) (hflush : v.sbx.flushMode = u.sbx.flushMode)
    (htdi : v.tru.tdi = u.tru.tdi) (hport : ctrlPort v c = ctrlPort u c) : Fetched s v c q idx where
  head := by rw [sqOf, hctrl]; exact h.head
  cq := by rw [sqOf, hctrl]; exact h.cq
  ring := by rw [hctrl]; exact h.ring
  flush := by rw [hflush]; exact h.flush
  tdi := by rw [htdi]; exact h.tdi
  port := by rw [hport]; exact h.port

/-- An operation that leaves the host interface, the signal box, the tenancy and the trust state alone. -/
theorem keep {m : Nat} (h : Fetched s u c q idx) (hk : Keeps m u v) (hm : m &&& 68223040 = 0 := by rfl) : Fetched s v c q idx := by
  have hbit (n : Nat) (hn : Nat.testBit 68223040 n = true) : m.testBit n = false := by
    have := congrArg (Nat.testBit · n) hm
    simpa [Nat.testBit_and, hn] using this
  have hhif : v.hif = u.hif := hk.hif (hbit 26 rfl)
  exact h.congr (by rw [ctrlOf, ctrlOf, hhif]) (by rw [hk.sbx (hbit 6 rfl)]) (by rw [hk.tru (hbit 20 rfl)])
    (ctrlPort_congr (hk.ten (hbit 16 rfl)))

theorem completed (h : Fetched s u c q idx) : completed s (cqe u (cmdRec c q idx e) st dw0 dw1) c q idx e st dw0 dw1 := by
  obtain ⟨hhead, hcq, hring, hflush, htdi, hport⟩ := h
  have hq : Tab.getD (ctrlOf u c).sqs q {} = sqOf u c q := rfl
  let bs := cqeBytes dw0 dw1 ((idx + 1) % max 1 (sqOf s c q).size) q (leAt e 2 2)
    (Tab.getD (ctrlOf s c).cqs (sqOf s c q).cq {}).phase st
  have hhost : (cqe u (cmdRec c q idx e) st dw0 dw1).host =
      (hostWrite u (ctrlPort s c) (ctrlInst c) (cqeAt s c q) bs).host := by
    rw [cqe, postCqe]
    dsimp only [cmdRec]
    rw [if_neg (by simp [hflush]), hq, hcq, hring, hhead, hport]
    split <;> rfl
  have hlen : bs.length = 16 := by simp [bs, cqeBytes]
  have hread := memRead_hostWrite (s := u) (ctrlPort s c) (cqeAt s c q) bs htdi
  rw [Machine.completed, hhost]
  rw [hlen] at hread
  exact hread

end Fetched

end

end Sys2Proof.Machine
end


section
/-! SUPPORT. The entry of a warm start (20_start_and_reset.md, R681): in flush mode tickets end with no completion, so that the
start's own state is as the entry set it. -/

namespace Sys2Proof.Machine

section
variable {s : State} {cause : Nat}

/-- In flush mode the end of a ticket posts nothing: the ticket leaves the store, and its staging and stations. -/
theorem finishTicket_keeps_of_flush (h : s.sbx.flushMode = true) (tag : Nat) : Keeps 155210432 s (finishTicket s tag) := by
  unfold finishTicket finishPlain
  split
  · exact Keeps.refl ..
  · next e _ =>
    have hmode : (countEnd s e).sbx.flushMode = true := h
    dsimp only
    rw [if_pos (by simp [posts, hmode])]
    exact Keeps.via (freeTicket_keeps ..) rfl (Keeps.via (countEnd_keeps ..) rfl (Keeps.refl ..))

/-- A fence of the flush, in flush mode, moves neither host queues nor the start. -/
theorem flushFence_keeps_of_flush (h : s.sbx.flushMode = true) (tag : Nat) : Keeps 188840668 s (flushFence s tag) := by
  refine Keeps.via (finishTicket_keeps_of_flush ?_ tag) rfl (Keeps.via (fenceTicket_keeps ..) rfl
    (Keeps.via (m := 4) (drawn_keeps s) rfl (Keeps.refl ..)))
  exact (fenceTicket_keeps_mode_and_units (drawn s) tag (freeFailure s) id).1.trans h

theorem enterFlush_keeps_outside (s : State) : Keeps 189364956 s (enterFlush s) := by
  let u := cancelInjections { s with sbx := { s.sbx with flushMode := true } }
  have hu : Keeps 189364956 s u := Keeps.via (cancelInjections_keeps _) rfl (rfl : Keeps 189364956 s { s with sbx := { s.sbx with flushMode := true } })
  refine (List.foldlRecOn (motive := fun t : State => t.sbx.flushMode = true ∧ Keeps 189364956 s t) _ _ ⟨rfl, hu⟩
    fun t h tag _ => ⟨flushFence_flushMode h.1 tag, ?_⟩).2
  exact Keeps.via (flushFence_keeps_of_flush h.1 tag) rfl h.2

theorem dropOutside_boot (s : State) : (dropOutside s).boot = { s.boot with sbReady := false, sbPresent := false, wdt := none } := by
  unfold dropOutside
  dsimp only
  rw [setLink_boot, setLink_boot, (leaveFed_keeps _).boot rfl, setBoot_boot]

/-- What an entry leaves of the start (R681). -/
theorem beginEntry_boot (hoff : s.boot.off = false) (hloss : s.pwr.powerLoss = false) (hready : s.boot.phase = .ready) :
    (beginEntry s cause).boot = { s.boot with
      phase := .entry, entryStep := 2, entryCause := cause, entrySince := s.now
      sbReady := false, sbPresent := false, wdt := none } := by
  rw [beginEntry, if_neg (by simp [hoff, hloss, hready]), dropOutside_boot, (enterFlush_keeps_outside _).boot rfl]
  rfl

theorem beginEntry_enters (hoff : s.boot.off = false) (hloss : s.pwr.powerLoss = false) (hready : s.boot.phase = .ready) :
    (beginEntry s cause).boot.phase = .entry ∧ (beginEntry s cause).boot.entryCause = cause := by
  rw [beginEntry_boot hoff hloss hready]
  exact ⟨rfl, rfl⟩

end

end Sys2Proof.Machine
end

section
/-! SUPPORT and O54. Firmware update (21_firmware_update.md): the pointer record, the stages of R708, confirmation and fall-back
(R709, R710), and the NVMe commands of R714. -/

namespace Sys2Proof.Machine

section
variable {s t u : State} {r : UpdReq} {n st : Nat} {p : FwPtr}

/-! ## The pointer record (R705) -/

/-- Each valid record stands in the sector that the parity of its COUNT names. -/
def PtrOk (s : State) : Prop :=
  (∀ a, s.upd.ptrs.1 = some a → a.count % 2 = 0) ∧ (∀ a, s.upd.ptrs.2 = some a → a.count % 2 = 1)

theorem fwPtr_writePtr (h : PtrOk s) : fwPtr (writePtr s p) = { p with count := (fwPtr s).count + 1 } := by
  obtain ⟨heven, hodd⟩ := h
  rcases hp : s.upd.ptrs with ⟨_ | a, _ | b⟩ <;> rw [hp] at heven hodd
  · simp [fwPtr, writePtr, setUpd, hp]
  · have hb := hodd b rfl
    simp [fwPtr, writePtr, setUpd, hp, show (b.count + 1) % 2 = 0 by omega]
  · have ha := heven a rfl
    simp [fwPtr, writePtr, setUpd, hp, show (a.count + 1) % 2 ≠ 0 by omega]
  · have ha := heven a rfl
    have hb := hodd b rfl
    by_cases hlt : a.count < b.count
    · simp [fwPtr, writePtr, setUpd, hp, hlt, show (b.count + 1) % 2 = 0 by omega]
    · simp [fwPtr, writePtr, setUpd, hp, hlt, show (a.count + 1) % 2 ≠ 0 by omega, show a.count < a.count + 1 by omega]

/-! ## The end of an operation (R718) -/

/-- The staged operation is over with status `st`, in UPD_RESULT. -/
def UpdEnded (st : Nat) (t : State) : Prop :=
  t.upd.req = none ∧ live t Reg.UPD_RESULT 7 0 = st ∧ live t Reg.UPD_RESULT 8 8 = 1

theorem updDone_ended (h : st < 256) : UpdEnded st (updDone s st) := by
  refine ⟨rfl, ?_, live_setLive_same _ _ _ _ _ (by decide)⟩
  rw [updDone, live_setLive_apart _ _ _ _ _ (by decide) (by decide) (by decide), live_setLive_same _ _ _ _ _ (by decide)]
  exact Nat.mod_eq_of_lt h

theorem live_updDone_other {a hi lo : Nat} (h : a ≠ Reg.UPD_RESULT) : live (updDone s st) a hi lo = live s a hi lo := by
  rw [updDone, live_setLive_other _ _ _ _ _ _ h, live_setLive_other _ _ _ _ _ _ h]
  rfl

/-! ## Staging (R707) -/

section
variable {data : Bytes}

/-- An image that is offered while the device can stage: one outcome of R707 each. -/
theorem execStage_of_ready {undelivered : Bool} (hreq : s.upd.req = some r) (hop : r.op = 1) (hhalt : s.boot.phase ≠ .halted)
    (hready : s.ftl.state = .ready) : execStage data undelivered s = .next (
      if undelivered = true ∨ r.len < hTotal (fit r.len data) then updDone s 0x01
      else if hTotal (fit r.len data) < r.len then updDone s 0x10
      else match failingBlock (fit r.len data) 0 with
        | some n => updDone (badStaging s n) 0x08
        | none => updDone (setUpd s { s.upd with staging := fit r.len data, loading := false }) 0) := by
  rw [execStage, hreq]
  dsimp only
  rw [if_neg (not_not_intro hop), if_neg (fun h => h.2 hready)]
  split
  · rfl
  · split
    · rfl
    · cases failingBlock (fit r.len data) 0 with
      | some n => rfl
      | none => simp only [if_neg hhalt]

theorem stage_takes (hreq : s.upd.req = some r) (hop : r.op = 1) (hhalt : s.boot.phase ≠ .halted) (hready : s.ftl.state = .ready)
    (htotal : hTotal (fit r.len data) = r.len) (hgood : failingBlock (fit r.len data) 0 = none) :
    exec (.stage data false) s = .next (updDone (setUpd s { s.upd with staging := fit r.len data, loading := false }) 0) := by
  change execStage data false s = _
  rw [execStage_of_ready hreq hop hhalt hready, htotal, hgood]
  simp

theorem stage_fails (hreq : s.upd.req = some r) (hop : r.op = 1) (hhalt : s.boot.phase ≠ .halted) (hready : s.ftl.state = .ready)
    (htotal : hTotal (fit r.len data) = r.len) (hbad : failingBlock (fit r.len data) 0 = some n) :
    exec (.stage data false) s = .next (updDone (badStaging s n) 0x08) := by
  change execStage data false s = _
  rw [execStage_of_ready hreq hop hhalt hready, htotal, hbad]
  simp

theorem stage_short {undelivered : Bool} (hreq : s.upd.req = some r) (hop : r.op = 1) (hhalt : s.boot.phase ≠ .halted)
    (hready : s.ftl.state = .ready) (h : undelivered = true ∨ r.len < hTotal (fit r.len data)) :
    exec (.stage data undelivered) s = .next (updDone s 0x01) := by
  change execStage data undelivered s = _
  rw [execStage_of_ready hreq hop hhalt hready, if_pos h]

end

/-! ## The stages of R708 -/

theorem slotOp_of_trial {op : Nat} {f : State → Nat → State} (hreq : s.upd.req = some r) (hop : r.op = op)
    (hhalt : s.boot.phase ≠ .halted) (htrial : (fwPtr s).trial = true) : slotOp s op f = .next (updDone s 0x11) := by
  rw [slotOp, hreq]
  dsimp only
  rw [if_neg (by simp [hop, hhalt]), if_pos htrial]

theorem slotOp_of_settled {op : Nat} {f : State → Nat → State} (hreq : s.upd.req = some r) (hop : r.op = op)
    (hhalt : s.boot.phase ≠ .halted) (hname : namedSlot s r.slot = n) (htrial : (fwPtr s).trial = false)
    (hn : n ≠ (fwPtr s).active) : slotOp s op f = .next (f s n) := by
  rw [slotOp, hreq]
  dsimp only
  rw [if_neg (by simp [hop, hhalt]), if_neg (by simp [htrial]), if_neg (by rw [hname]; exact hn), hname]

/-- Slot `n` with the staged image and its mark (R704). -/
def slotWritten (s : State) (n : Nat) : State :=
  setSlotFw (setSlotFw s n { image := s.upd.staging }) n { image := s.upd.staging, mark := some (markOf s.upd.staging) }

theorem writeSlot_of_refused (h : imageCheck s s.upd.staging (fwPtr s).floor true = some st) : writeSlot s n = (s, some st) := by
  delta writeSlot
  dsimp only
  rw [h]

theorem writeSlot_of_accepted (h : imageCheck s s.upd.staging (fwPtr s).floor true = none) :
    writeSlot s n = (slotWritten s n, none) := by
  delta writeSlot slotWritten
  dsimp only
  rw [h]

theorem fwPtr_congr (h : t.upd.ptrs = s.upd.ptrs) : fwPtr t = fwPtr s := by rw [fwPtr, fwPtr, h]

/-- Slot `n` holds the staged image of `s` with its mark; the other slot is as it was. -/
def ImageWritten (s : State) (n : Nat) (t : State) : Prop :=
  slotFw t n = { image := s.upd.staging, mark := some (markOf s.upd.staging) } ∧ slotFw t (1 - n) = slotFw s (1 - n)

/-- The pointer names slot `n` with TRIAL and BOOTS 0, and FELL_BACK is over (R708, R710). -/
def ImageTried (s : State) (n : Nat) (t : State) : Prop :=
  fwPtr t = { fwPtr s with count := (fwPtr s).count + 1, active := n, trial := true, boots := 0 } ∧ t.upd.fellBack = false

/-- The slots and pointer records are as they were. -/
def SlotsKept (s t : State) : Prop := t.upd.slotA = s.upd.slotA ∧ t.upd.slotB = s.upd.slotB ∧ t.upd.ptrs = s.upd.ptrs

theorem slotWritten_writes (hn : n < 2) : ImageWritten s n (slotWritten s n) ∧ (slotWritten s n).upd.ptrs = s.upd.ptrs := by
  obtain rfl | rfl : n = 0 ∨ n = 1 := by omega
  · exact ⟨⟨rfl, rfl⟩, rfl⟩
  · exact ⟨⟨rfl, rfl⟩, rfl⟩

theorem slotFw_of_slots (ha : t.upd.slotA = u.upd.slotA) (hb : t.upd.slotB = u.upd.slotB) (k : Nat) : slotFw t k = slotFw u k := by
  rw [slotFw, slotFw, ha, hb]

/-- Only the slots themselves count. -/
theorem ImageWritten.congr (h : ImageWritten s n u) (ha : t.upd.slotA = u.upd.slotA) (hb : t.upd.slotB = u.upd.slotB) :
    ImageWritten s n t := by
  rw [ImageWritten, slotFw_of_slots ha hb, slotFw_of_slots ha hb]
  exact h

/-- Only the pointer records and FELL_BACK count. -/
theorem ImageTried.congr (h : ImageTried s n u) (hp : t.upd.ptrs = u.upd.ptrs) (hb : t.upd.fellBack = u.upd.fellBack) :
    ImageTried s n t := by
  rw [ImageTried, fwPtr_congr hp, hb]
  exact h

theorem activateSlot_tries (h : PtrOk s) : ImageTried s n (activateSlot s n) := ⟨fwPtr_writePtr h, rfl⟩

theorem slotWritten_tries (h : PtrOk s) (hn : n < 2) : ImageTried s n (activateSlot (slotWritten s n) n) := by
  obtain ⟨-, hptrs⟩ := slotWritten_writes (s := s) hn
  obtain ⟨hptr, hback⟩ := activateSlot_tries (s := slotWritten s n) (n := n) (by rw [PtrOk, hptrs]; exact h)
  exact ⟨by rw [hptr, fwPtr_congr hptrs], hback⟩

section
variable (hreq : s.upd.req = some r) (hhalt : s.boot.phase ≠ .halted) (hname : namedSlot s r.slot = n)
  (htrial : (fwPtr s).trial = false) (hn : n ≠ (fwPtr s).active)
include hreq hhalt hname htrial hn

theorem updWriteSlot_refused (hop : r.op = 2) (h : imageCheck s s.upd.staging (fwPtr s).floor true = some st) (hst : st < 256) :
    Nexts (exec .updWriteSlot s) (fun t => UpdEnded st t ∧ SlotsKept s t) := by
  refine ⟨updDone s st, ?_, updDone_ended hst, rfl, rfl, rfl⟩
  change execUpdWriteSlot s = _
  rw [execUpdWriteSlot, slotOp_of_settled hreq hop hhalt hname htrial hn, writeSlot_of_refused h]
  rfl

theorem updWriteSlot_writes (hop : r.op = 2) (h : imageCheck s s.upd.staging (fwPtr s).floor true = none) (hn2 : n < 2) :
    Nexts (exec .updWriteSlot s) (fun t => UpdEnded 0 t ∧ ImageWritten s n t ∧ t.upd.ptrs = s.upd.ptrs) := by
  obtain ⟨himage, hptrs⟩ := slotWritten_writes (s := s) hn2
  refine ⟨updDone (slotWritten s n) 0, ?_, updDone_ended (by decide), himage.congr rfl rfl, hptrs⟩
  change execUpdWriteSlot s = _
  rw [execUpdWriteSlot, slotOp_of_settled hreq hop hhalt hname htrial hn, writeSlot_of_accepted h]
  rfl

theorem updWriteActivate_refused (hop : r.op = 3) (h : imageCheck s s.upd.staging (fwPtr s).floor true = some st)
    (hst : st < 256) : Nexts (exec .updWriteActivate s) (fun t => UpdEnded st t ∧ SlotsKept s t) := by
  refine ⟨updDone s st, ?_, updDone_ended hst, rfl, rfl, rfl⟩
  change execUpdWriteActivate s = _
  rw [execUpdWriteActivate, slotOp_of_settled hreq hop hhalt hname htrial hn, writeSlot_of_refused h]

theorem updWriteActivate_writes (hop : r.op = 3) (h : imageCheck s s.upd.staging (fwPtr s).floor true = none) (hok : PtrOk s)
    (hn2 : n < 2) : Nexts (exec .updWriteActivate s) (fun t => UpdEnded 0 t ∧ ImageWritten s n t ∧ ImageTried s n t) := by
  obtain ⟨himage, -⟩ := slotWritten_writes (s := s) hn2
  refine ⟨updDone (activateSlot (slotWritten s n) n) 0, ?_, updDone_ended (by decide), himage.congr rfl rfl,
    (slotWritten_tries hok hn2).congr rfl rfl⟩
  change execUpdWriteActivate s = _
  rw [execUpdWriteActivate, slotOp_of_settled hreq hop hhalt hname htrial hn, writeSlot_of_accepted h]

theorem updActivateSlot_activates (hop : r.op = 4) (h : imageCheck s (slotFw s n).image (fwPtr s).floor false = none)
    (hvalid : slotValid s n = true) (hok : PtrOk s) : Nexts (exec .updActivateSlot s) (fun t => UpdEnded 0 t ∧
      ImageTried s n t ∧ t.upd.slotA = s.upd.slotA ∧ t.upd.slotB = s.upd.slotB) := by
  refine ⟨updDone (activateSlot s n) 0, ?_, updDone_ended (by decide), (activateSlot_tries hok).congr rfl rfl, rfl, rfl⟩
  change execUpdActivateSlot s = _
  rw [execUpdActivateSlot, slotOp_of_settled hreq hop hhalt hname htrial hn, h]
  exact congrArg Host.Outcome.next (if_pos hvalid)

end

/-- While an image is on TRIAL no stage runs. -/
theorem slotOps_refused_on_trial {o : Instr × Nat} (ho : o ∈ [(Instr.updWriteSlot, 2), (.updWriteActivate, 3), (.updActivateSlot, 4)])
    (hreq : s.upd.req = some r) (hop : r.op = o.2) (hhalt : s.boot.phase ≠ .halted) (htrial : (fwPtr s).trial = true) :
    exec o.1 s = .next (updDone s 0x11) := by
  simp only [List.mem_cons, List.not_mem_nil, or_false] at ho
  obtain rfl | rfl | rfl := ho
  · change execUpdWriteSlot s = _
    exact slotOp_of_trial hreq hop hhalt htrial
  · change execUpdWriteActivate s = _
    exact slotOp_of_trial hreq hop hhalt htrial
  · change execUpdActivateSlot s = _
    exact slotOp_of_trial hreq hop hhalt htrial

/-! ## Confirmation and fall-back (R709, R710) -/

/-- The record of a confirmed image (R709, R712). -/
def confirmedPtr (s : State) : FwPtr :=
  let man := manifestOf (slotFw s (fwPtr s).active).image
  { fwPtr s with
    count := (fwPtr s).count + 1, trial := false, boots := 0, floor := if mRaise man then mSvn man else (fwPtr s).floor }

theorem confirmImage_confirms (hok : PtrOk s) (htrial : onTrial s = true) (hself : s.upd.selfOk = true)
    (hfree : eff s Reg.UPD_CFG 0 0 = 0 ∨ s.upd.confirm = true) :
    fwPtr (confirmImage s) = confirmedPtr s ∧ (confirmImage s).upd.selfOk = true ∧
      (confirmImage s).upd.confirm = s.upd.confirm := by
  rw [confirmImage, if_pos (by simpa [htrial, hself] using hfree)]
  exact ⟨fwPtr_writePtr hok, hself, rfl⟩

theorem confirmImage_waits (h : onTrial s = false ∨ s.upd.selfOk = false ∨ eff s Reg.UPD_CFG 0 0 ≠ 0 ∧ s.upd.confirm = false) :
    confirmImage s = s := by
  rw [confirmImage, if_neg]
  rcases h with h | h | ⟨heff, h⟩
  · simp [h]
  · simp [h]
  · simp [h, heff]

/-- Every system core that is not OFFLINE is RUNNING or WAITING (R709). -/
def Healthy (s : State) : Prop :=
  ∀ k < 16, (coreOf s k).state = .running ∨ (coreOf s k).state = .waiting ∨ (coreOf s k).state = .offline

theorem execSelfOk_of_healthy (hready : s.boot.phase = .ready) (h : Healthy s) :
    execSelfOk s = .next (confirmImage (setUpd s { s.upd with selfOk := true })) := by
  refine if_pos ⟨hready, List.all_eq_true.mpr fun k hk => ?_⟩
  obtain hs | hs | hs := h k (List.mem_range.mp hk) <;> rw [hs]

theorem execSelfOk_of_unhealthy (h : ¬ Healthy s) : execSelfOk s = .next s := by
  refine if_neg fun hall => h fun k hk => ?_
  have hcore := List.all_eq_true.mp hall.2 k (List.mem_range.mpr hk)
  revert hcore
  cases (coreOf s k).state <;> simp

theorem activate_ignored (h : (fwPtr s).trial = false ∨ (fwPtr s).boots ≠ 0) : exec .activate s = .next s := by
  refine congrArg Host.Outcome.next (if_neg ?_)
  rcases h with h | h
  · simp [h]
  · exact fun hb => h hb.2

theorem activate_enters (htrial : (fwPtr s).trial = true) (hboots : (fwPtr s).boots = 0) :
    exec .activate s = .next (beginEntry s 0x14) :=
  congrArg Host.Outcome.next (if_pos ⟨htrial, hboots⟩)

theorem confirmTimeout_fallsBack (hok : PtrOk s) (hready : s.boot.phase = .ready) (htrial : onTrial s = true)
    (hoff : s.boot.off = false) (hloss : s.pwr.powerLoss = false) :
    Nexts (exec .confirmTimeout s) (fun t => t.upd.fellBack = true ∧ t.boot.phase = .entry ∧ t.boot.entryCause = 0x14 ∧
      fwPtr t = { fwPtr s with
        count := (fwPtr s).count + 1, active := 1 - (fwPtr s).active, trial := false, boots := 0 }) := by
  let back := fallBackPtr s
  let noted := record back 0x0021 sevFree 0 0xFF 0 (natLe 1 1 ++ natLe 1 (fwPtr back).active)
  have hboot : noted.boot = s.boot := (record_keeps ..).boot rfl
  have hpwr : noted.pwr = s.pwr := (record_keeps ..).pwr rfl
  have hupd : (beginEntry noted 0x14).upd = back.upd := ((beginEntry_keeps ..).upd rfl).trans ((record_keeps ..).upd rfl)
  obtain ⟨hphase, hcause⟩ := beginEntry_enters (s := noted) (cause := 0x14) (by rw [hboot]; exact hoff)
    (by rw [hpwr]; exact hloss) (by rw [hboot]; exact hready)
  refine ⟨beginEntry noted 0x14, if_pos ⟨hready, htrial⟩, ?_, hphase, hcause, ?_⟩
  · rw [hupd]
    rfl
  · rw [fwPtr_congr (congrArg Upd.ptrs hupd)]
    exact fwPtr_writePtr hok

/-! ## NVMe (R707, R714) -/

section
variable {c idx : Nat} {e : Bytes} {rest : List (Nat × Bytes)}

/-- What a command of the update unit leaves once its completion entry is written. -/
theorem cqe_upd {y : NCmd} {dw0 dw1 : Nat} : (cqe u y st dw0 dw1).upd = u.upd := (cqe_keeps ..).upd rfl

theorem slotWritten_keeps : Keeps 262144 s (slotWritten s n) := rfl

theorem namedSlot_lt {raw : Nat} (hname : namedSlot s raw = n) (hraw : raw < 3) : n < 2 := by
  rw [namedSlot] at hname
  split at hname <;> omega

section
variable (hw : cmdWaits s c 0 idx e rest) (hc : c < 2) (hop : eOp e = 0x10) (hname : namedSlot s (eDw e 10 % 8) = n)
  (hslot : eDw e 10 % 8 < 3) (htrial : (fwPtr s).trial = false) (hn : n ≠ (fwPtr s).active)
  (hcheck : imageCheck s s.upd.staging (fwPtr s).floor true = none)
include hw hc hop hname hslot htrial hn hcheck

/-- A commit that R714 maps to a write puts the image into the slot, and with CA 001 names it. -/
theorem firmwareCommit_writes (hca : eDw e 10 / 8 % 8 < 2) : exec (.firmwareCommit c) s = .next (cqe
    (if eDw e 10 / 8 % 8 = 1 then activateSlot (slotWritten (cmdTaken s c 0 idx rest) n) n
      else slotWritten (cmdTaken s c 0 idx rest) n) (cmdRec c 0 idx e) 0 0 0) := by
  change execFirmwareCommit c s = _
  have htaken : imageCheck (cmdTaken s c 0 idx rest) (cmdTaken s c 0 idx rest).upd.staging
      (fwPtr (cmdTaken s c 0 idx rest)).floor true = none := hcheck
  have hnamed : namedSlot (cmdTaken s c 0 idx rest) (eDw e 10 % 8) = n := hname
  have hptr : fwPtr (cmdTaken s c 0 idx rest) = fwPtr s := rfl
  rw [execFirmwareCommit, adminCmd_of_waits hw hop (fun _ => hc)]
  dsimp only [cmdRec]
  rw [if_neg (by omega), if_neg (by omega), if_neg (by simp [hptr, htrial]), hnamed, if_neg (by rw [hptr]; exact hn),
    if_neg (by omega), writeSlot_of_accepted htaken]
  rfl

/-- CA 000. -/
theorem firmwareCommit_writesSlot (hca : eDw e 10 / 8 % 8 = 0) : Nexts (exec (.firmwareCommit c) s) (fun t =>
    completed s t c 0 idx e 0 0 0 ∧ ImageWritten s n t ∧ t.upd.ptrs = s.upd.ptrs) := by
  obtain ⟨himage, hptrs⟩ := slotWritten_writes (s := cmdTaken s c 0 idx rest) (namedSlot_lt hname hslot)
  have hexec := firmwareCommit_writes hw hc hop hname hslot htrial hn hcheck (by omega)
  rw [if_neg (by omega)] at hexec
  refine ⟨_, hexec, ((fetched_cmdTaken hw).keep slotWritten_keeps).completed, ?_⟩
  exact ⟨himage.congr (congrArg Upd.slotA cqe_upd) (congrArg Upd.slotB cqe_upd), (congrArg Upd.ptrs cqe_upd).trans hptrs⟩

/-- CA 001. -/
theorem firmwareCommit_writesAndActivates (hok : PtrOk s) (hca : eDw e 10 / 8 % 8 = 1) :
    Nexts (exec (.firmwareCommit c) s) (fun t => completed s t c 0 idx e 0 0 0 ∧ ImageWritten s n t ∧ ImageTried s n t) := by
  have hn2 := namedSlot_lt hname hslot
  obtain ⟨himage, -⟩ := slotWritten_writes (s := cmdTaken s c 0 idx rest) hn2
  have hexec := firmwareCommit_writes hw hc hop hname hslot htrial hn hcheck (by omega)
  rw [if_pos hca] at hexec
  refine ⟨_, hexec, ((fetched_cmdTaken hw).keep (Keeps.via (activateSlot_keeps ..) rfl slotWritten_keeps)).completed, ?_⟩
  have htried := slotWritten_tries (s := cmdTaken s c 0 idx rest) hok hn2
  have htook : ImageWritten s n (activateSlot (slotWritten (cmdTaken s c 0 idx rest) n) n) := himage.congr rfl rfl
  exact ⟨htook.congr (congrArg Upd.slotA cqe_upd) (congrArg Upd.slotB cqe_upd),
    htried.congr (congrArg Upd.ptrs cqe_upd) (congrArg Upd.fellBack cqe_upd)⟩

end

theorem firmwareImageDownload_joins {data : Bytes} (hw : cmdWaits s c 0 idx e rest) (hc : c < 2) (hop : eOp e = 0x11)
    (hready : s.ftl.state = .ready) {old : Bytes} (hold : old = if eDw e 11 * 4 = 0 then [] else s.upd.staging)
    (hoff : eDw e 11 * 4 = old.length) (hpage : eDw e 11 * 4 % 4096 = 0)
    (hmax : eDw e 11 * 4 + (eDw e 10 + 1) * 4 ≤ 33554432)
    (hgood : failingBlock (old ++ fit ((eDw e 10 + 1) * 4) data) (arrivedBlocks old) = none) :
    Nexts (exec (.firmwareImageDownload c data) s) (fun t => completed s t c 0 idx e 0 0 0 ∧
      t.upd.staging = old ++ fit ((eDw e 10 + 1) * 4) data ∧ SlotsKept s t) := by
  let all := old ++ fit ((eDw e 10 + 1) * 4) data
  let joined := setUpd (cmdTaken s c 0 idx rest) { s.upd with
    staging := all, loading := decide (all.length < 256) || decide (all.length < hTotal all) }
  have hupd : (cqe joined (cmdRec c 0 idx e) 0 0 0).upd = joined.upd := cqe_upd
  refine ⟨cqe joined (cmdRec c 0 idx e) 0 0 0, ?_, ((fetched_cmdTaken hw).keep (setUpd_keeps ..)).completed,
    by rw [hupd]; rfl, by rw [hupd]; rfl, by rw [hupd]; rfl, by rw [hupd]; rfl⟩
  have hstate : (cmdTaken s c 0 idx rest).ftl.state = .ready := hready
  have hstaging : (cmdTaken s c 0 idx rest).upd.staging = s.upd.staging := rfl
  change execFirmwareImageDownload c data s = _
  rw [execFirmwareImageDownload, adminCmd_of_waits hw hop (fun _ => hc)]
  dsimp only [cmdRec]
  rw [hstaging, ← hold, if_neg (not_not_intro hstate), if_neg (not_not_intro hoff), if_neg (by omega), hgood]
  rfl

end

end

/-- Settles O54: staging, the stages, the pointer record, confirmation, fall-back and the NVMe commands, clause by clause. -/
theorem firmwareIsStagedWrittenTriedAndConfirmed : Obligations.FirmwareIsStagedWrittenTriedAndConfirmed := by
  intro s data r c idx n e rest p u done same img check written tries ptrOk asks man floor confirmed healthy down off sends cqes
  have hdone : ∀ {st : Nat} (v : State), st < 256 → done st (updDone v st) := fun _ h => updDone_ended h
  refine ⟨fun hreq hop hhalt hready => ⟨fun htotal hgood => ?_, fun htotal hbad hn => ?_, fun hshort => ?_, ?_⟩,
    fun o ho hasks htrial => ?_, fun hok htrial hn => ⟨fun st hcheck hst => ⟨fun hasks => ?_, fun hasks => ?_⟩,
      fun hcheck => ⟨fun hasks => ?_, fun hasks => ?_⟩, fun hasks hcheck hvalid => ?_,
      fun hsends hname hfs hcheck => ⟨fun hca => ?_, fun hca => ?_⟩⟩,
    fun hsends hready hoff hpage hmax hgood => ?_, fun htrial hboots hoff hloss hready => ?_, activate_ignored,
    fun hok htrial hready hh hfree => ?_, fun hready hh hwait => ?_, execSelfOk_of_unhealthy,
    fun hok htrial hself => ?_, fun hwait => ?_, fun hok hready htrial hoff hloss => ?_, fun htrial => ?_⟩
  · exact ⟨_, stage_takes hreq hop hhalt hready htotal hgood, hdone _ (by decide), rfl, rfl, rfl, rfl, rfl⟩
  · refine ⟨_, stage_fails hreq hop hhalt hready htotal hbad, hdone _ (by decide), rfl, ?_, rfl, rfl, rfl⟩
    rw [live_updDone_other (by decide), badStaging, live_setLive_same _ _ _ _ _ (by decide)]
    exact Nat.mod_eq_of_lt hn
  · exact ⟨_, stage_short hreq hop hhalt hready (.inr hshort), hdone _ (by decide)⟩
  · exact ⟨_, stage_short hreq hop hhalt hready (.inl rfl), hdone _ (by decide)⟩
  · obtain ⟨hreq, hop, hhalt, -⟩ := hasks
    exact ⟨_, slotOps_refused_on_trial ho hreq hop hhalt htrial, hdone _ (by decide), rfl, rfl, rfl⟩
  · obtain ⟨hreq, hop, hhalt, hname, -⟩ := hasks
    exact updWriteSlot_refused hreq hhalt hname htrial hn hop hcheck hst
  · obtain ⟨hreq, hop, hhalt, hname, -⟩ := hasks
    exact updWriteActivate_refused hreq hhalt hname htrial hn hop hcheck hst
  · obtain ⟨hreq, hop, hhalt, hname, hn2⟩ := hasks
    exact updWriteSlot_writes hreq hhalt hname htrial hn hop hcheck hn2
  · obtain ⟨hreq, hop, hhalt, hname, hn2⟩ := hasks
    exact updWriteActivate_writes hreq hhalt hname htrial hn hop hcheck hok hn2
  · obtain ⟨hreq, hop, hhalt, hname, -⟩ := hasks
    exact updActivateSlot_activates hreq hhalt hname htrial hn hop hcheck hvalid hok
  · obtain ⟨hw, hc, hop⟩ := hsends
    exact firmwareCommit_writesSlot hw hc hop hname hfs htrial hn hcheck hca
  · obtain ⟨hw, hc, hop⟩ := hsends
    exact firmwareCommit_writesAndActivates hw hc hop hname hfs htrial hn hcheck hok hca
  · obtain ⟨hw, hc, hop⟩ := hsends
    exact firmwareImageDownload_joins hw hc hop hready rfl hoff hpage hmax hgood
  · exact ⟨_, activate_enters htrial hboots, beginEntry_enters hoff hloss hready⟩
  · obtain ⟨hptr, hself, -⟩ := confirmImage_confirms (s := setUpd s { s.upd with selfOk := true }) hok htrial rfl hfree
    exact ⟨_, execSelfOk_of_healthy hready hh, hself, hptr⟩
  · refine ⟨_, execSelfOk_of_healthy hready hh, ?_⟩
    rw [confirmImage_waits (s := setUpd s { s.upd with selfOk := true }) (hwait.imp_right .inr)]
    exact ⟨rfl, rfl⟩
  · obtain ⟨hptr, -, hconfirm⟩ := confirmImage_confirms (s := setUpd s { s.upd with confirm := true }) hok htrial hself (.inr rfl)
    exact ⟨_, rfl, hconfirm, hptr⟩
  · refine ⟨_, rfl, ?_⟩
    rw [confirmImage_waits (s := setUpd s { s.upd with confirm := true }) (hwait.imp_right .inl)]
    exact ⟨rfl, rfl⟩
  · exact confirmTimeout_fallsBack hok hready htrial hoff hloss
  · exact if_neg (by simp [htrial])

end Sys2Proof.Machine
end


section
/-! SUPPORT. What the ends of tickets, the journal, page programs and the flush leave of a start and of the federation (20_start_and_reset.md,
R681, R682, R687): the start lights the activity LED, and the junction keeps whether it has joined or left. -/

namespace Sys2Proof.Machine

/-- `t` has the start of `s`, but for the activity LED, and its junction has joined and left as that of `s`. -/
def SameStart (s t : State) : Prop :=
  t.boot = { s.boot with ledUntil := t.boot.ledUntil } ∧ t.jct.joined = s.jct.joined ∧ t.jct.left = s.jct.left

namespace SameStart

variable {s t u : State}

theorem refl (s : State) : SameStart s s := ⟨rfl, rfl, rfl⟩

/-- One more operation, the outermost first. -/
theorem after (k : SameStart t u) (h : SameStart s t) : SameStart s u := by
  obtain ⟨hb, hj, hl⟩ := h
  obtain ⟨kb, kj, kl⟩ := k
  exact ⟨by rw [kb, hb], kj.trans hj, kl.trans hl⟩

/-- One more operation that keeps the start and the junction. -/
theorem via {m : Nat} (k : Keeps m t u) (hb : m.testBit 17 = false) (hj : m.testBit 27 = false) (h : SameStart s t) :
    SameStart s u := by
  refine after ?_ h
  rw [SameStart, k.boot hb, k.jct hj]
  exact ⟨rfl, rfl, rfl⟩

theorem of_keeps {m : Nat} (k : Keeps m s t) (hb : m.testBit 17 = false) (hj : m.testBit 27 = false) : SameStart s t :=
  via k hb hj (refl s)

theorem put_sbx (h : SameStart s t) (b : Sbx) : SameStart s { t with sbx := b } := h

theorem put_ftl (h : SameStart s t) (f : Ftl) : SameStart s { t with ftl := f } := h

theorem put_dev (h : SameStart s t) (d : Dev) : SameStart s { t with dev := d } := h

theorem put_key (h : SameStart s t) (k : Key) : SameStart s { t with key := k } := h

theorem ite {p : Prop} [Decidable p] (h : SameStart s t) (k : SameStart s u) : SameStart s (if p then t else u) := by
  split <;> assumption

theorem foldl {α : Type} {f : State → α → State} {l : List α} (hf : ∀ t x, SameStart t (f t x)) (h : SameStart s t) :
    SameStart s (l.foldl f t) := by
  induction l generalizing t with
  | nil => exact h
  | cons x l ih => exact ih ((hf t x).after h)

/-! ### The end of a ticket -/

theorem postCqe (s : State) (c sq cid st dw0 dw1 nsid dev unit : Nat) :
    SameStart s (postCqe s c sq cid st dw0 dw1 nsid dev unit) := by
  have hwrite (p i a : Nat) (bs : Bytes) : SameStart s (hostWrite s p i a bs) := of_keeps (hostWrite_keeps ..) rfl rfl
  unfold Machine.postCqe
  split
  · exact refl s
  · dsimp only
    split <;> exact after ⟨rfl, rfl, rfl⟩ (hwrite ..)

theorem endCmd (s : State) (y : NCmd) : SameStart s (endCmd s y) := by
  unfold Machine.endCmd
  dsimp only
  split <;> exact after (postCqe ..) (of_keeps (setCmd_keeps ..) rfl rfl)

theorem nvmeTicketDone (s : State) (e : Entry) (x : Completion) : SameStart s (nvmeTicketDone s e x) := by
  unfold Machine.nvmeTicketDone
  split
  · unfold cmdPart
    split
    · exact refl s
    · refine ite (of_keeps (setCmd_keeps ..) rfl rfl) (after (endCmd _ _) (put_ftl ?_ _))
      refine ite (via (setCore_keeps ..) rfl rfl ?_) ?_ <;>
        exact ite (via (saveZones_keeps ..) rfl rfl
          (foldl (fun t _ => of_keeps (setZone_keeps t _ _ _) rfl rfl) (refl s))) (refl s)
  · exact refl s

theorem put_jct (h : SameStart s t) {j : Jct} (hj : j.joined = t.jct.joined) (hl : j.left = t.jct.left) :
    SameStart s (setJct t j) := by
  obtain ⟨hb, hj', hl'⟩ := h
  exact ⟨hb, hj.trans hj', hl.trans hl'⟩

theorem freeTicket (s : State) (tag : Nat) (e : Entry) : SameStart s (freeTicket s tag e) := by
  have hdropped {t : State} (h : SameStart s t) : SameStart s (dropMessages t tag) := put_jct h rfl rfl
  unfold Machine.freeTicket
  refine via (dropCtx_keeps ..) rfl rfl (via (releaseHandles_keeps ..) rfl rfl (via (leaveInside_keeps ..) rfl rfl (hdropped ?_)))
  exact ite (via (releaseSlot_keeps ..) rfl rfl (put_ftl (put_sbx (refl s) _) _)) (put_ftl (put_sbx (refl s) _) _)

theorem sendFrame (s : State) (f : Frame) : SameStart s (sendFrame s f) := by
  unfold Machine.sendFrame
  refine ite (refl s) ?_
  split
  · exact put_jct (refl s) rfl rfl
  · exact refl s

theorem flushOutcomes (s : State) (k : Nat × Nat × Nat) : SameStart s (flushOutcomes s k) := by
  unfold Machine.flushOutcomes
  dsimp only
  refine put_jct (foldl (fun t r => ?_) (refl s)) rfl rfl
  split
  · exact put_jct (refl t) rfl rfl
  · exact sendFrame t _

theorem junctionDone (s : State) (id status : Nat) : SameStart s (junctionDone s id status) := by
  have hmod (g : FRecv → FRecv) : SameStart s (modRecv s id g) := put_jct (refl s) rfl rfl
  unfold Machine.junctionDone
  split
  · exact refl s
  · refine ite (hmod _) ?_
    unfold recvStatus
    split
    · exact refl s
    · exact after (flushOutcomes _ _) (hmod _)

theorem finishTicket (s : State) (tag : Nat) : SameStart s (finishTicket s tag) := by
  have hended (e : Entry) : SameStart s (countEnd s e) := of_keeps (countEnd_keeps ..) rfl rfl
  have hfree {t : State} (e : Entry) (h : SameStart s t) : SameStart s (Machine.freeTicket t tag e) := after (freeTicket t tag e) h
  unfold Machine.finishTicket finishPlain
  split
  · exact refl s
  · refine ite (hfree _ (hended _)) ?_
    dsimp -proj only
    split
    · refine ite (hfree _ (put_sbx (hended _) _)) (ite ?_ (hfree _ (via (cqWrite_keeps ..) rfl rfl (put_sbx (hended _) _))))
      exact via (setCore_keeps ..) rfl rfl (via (setEntry_keeps ..) rfl rfl (put_sbx (put_sbx (hended _) _) _))
    · exact after (nvmeTicketDone _ _ _) (hfree _ (put_sbx (hended _) _))
    · exact after (junctionDone _ _ _) (hfree _ (put_sbx (hended _) _))
    · exact hfree _ (put_sbx (hended _) _)

theorem ackTicket (s : State) (tag out : Nat) : SameStart s (ackTicket s tag out) := by
  unfold Machine.ackTicket
  refine after (finishTicket _ tag) (via (modEntry_keeps ..) rfl rfl ?_)
  split
  · exact ite ⟨rfl, rfl, rfl⟩ (refl s)
  · exact refl s

theorem unitDone (s : State) (tag : Option Nat) : SameStart s (unitDone s tag) := by
  have hset (n : Nat) (e : Entry) : SameStart s (setEntry s n e) := of_keeps (setEntry_keeps ..) rfl rfl
  unfold Machine.unitDone
  split
  · exact refl s
  · split
    · exact refl s
    · exact ite (after (ackTicket _ _ _) (hset _ _)) (hset _ _)

/-! ### The journal -/

theorem commitJournal (n : Nat) (s : State) : SameStart s (commitJournal n s) := by
  induction n generalizing s with
  | zero => exact refl s
  | succ n ih =>
    rw [Machine.commitJournal]
    split
    · exact refl s
    · refine ite (after (ih _) (foldl (fun t r => unitDone t r.tag) ?_)) (refl s)
      exact of_keeps (setFtl_keeps ..) rfl rfl

theorem commitAll (n : Nat) (s : State) : SameStart s (commitAll n s) := by
  induction n generalizing s with
  | zero => exact refl s
  | succ n ih =>
    have hform : SameStart s (if s.ftl.held.isEmpty || decide (8 ≤ s.ftl.jpages.length) then s else formJournal s) :=
      ite (refl s) (of_keeps (formJournal_keeps _) rfl rfl)
    have hround (k : Nat) (f : Ftl) := after (commitJournal k _) (via (setFtl_keeps _ f) rfl rfl hform)
    rw [Machine.commitAll]
    exact ite (hround _ _) (after (ih _) (hround _ _))

theorem hold (s : State) (r : JRec) : SameStart s (hold s r) :=
  via (setFtl_keeps ..) rfl rfl (ite (commitAll _ s) (refl s))

theorem closeJournal (s : State) : SameStart s (closeJournal s) :=
  via (setFtl_keeps ..) rfl rfl (after (commitAll _ _) (after (hold _ _) (commitAll _ s)))

/-! ### Pages -/

theorem eraseAgain (s : State) (g : Nat) : SameStart s (eraseAgain s g) :=
  ite (via (setBg_keeps ..) rfl rfl (via (beginErase_keeps ..) rfl rfl ⟨rfl, rfl, rfl⟩)) (refl s)

theorem openGroup (s : State) (dense : Bool) (except : List Nat) : SameStart s (openGroup s dense except) := by
  unfold Machine.openGroup
  refine ite (refl s) ?_
  dsimp -proj only
  split
  · exact refl s
  · exact via (judgeFold_keeps _) rfl rfl (via (setBg_keeps ..) rfl rfl (eraseAgain s _))

theorem allocPage {ch g p most : Nat} {dense : Bool} {except : List Nat}
    (h : allocPage s ch dense except most = some (g, p, t)) : SameStart s t := by
  unfold Machine.allocPage at h
  obtain ⟨k, -, hk⟩ := Option.map_eq_some_iff.mp h
  cases hk
  exact via (setFtl_keeps ..) rfl rfl (ite (refl s) (openGroup s dense except))

theorem movePage (s : State) (ch : Nat) (pg : OPage) : SameStart s (movePage s ch pg).1 := by
  unfold Machine.movePage
  split
  · split
    · next h => exact allocPage h
    · exact refl s
  · exact refl s

theorem slotGone (s : State) (x : FSlot) : SameStart s (slotGone s x) := by
  unfold Machine.slotGone
  refine after (unitDone _ _) ?_
  split
  · exact of_keeps (freeStaged_keeps ..) rfl rfl
  · exact refl s

theorem sealWith (s : State) (ch : Nat) (pg : OPage) : SameStart s (sealWith s ch pg) := by
  unfold Machine.sealWith
  dsimp -proj only
  refine foldl slotGone (via (setChan_keeps ..) rfl rfl (via (notePresent_keeps ..) rfl rfl ?_))
  exact via (setFch_keeps ..) rfl rfl (via (setFtl_keeps ..) rfl rfl (movePage s ch pg))

theorem sealPage (s : State) (ch : Nat) (dense : Bool) : SameStart s (sealPage s ch dense) := by
  unfold Machine.sealPage
  split
  · exact refl s
  · exact after (sealWith _ _ _) (of_keeps (setCur_keeps ..) rfl rfl)

theorem placeSlot {ch : Nat} {dense : Bool} {x : FSlot} {except : List Nat}
    (h : placeSlot s ch dense x except = some t) : SameStart s t := by
  have hsealed (fits : Bool) : SameStart s (if fits then s else Machine.sealPage s ch dense) :=
    ite (refl s) (sealPage s ch dense)
  unfold Machine.placeSlot at h
  obtain ⟨r, hr, rfl⟩ := Option.map_eq_some_iff.mp h
  have hpage : SameStart s r.2 := by
    dsimp only at hr
    split at hr
    · cases hr
      exact hsealed _
    · obtain ⟨q, hq, rfl⟩ := Option.map_eq_some_iff.mp hr
      exact after (allocPage hq) (hsealed _)
  have hcur (pg : Option OPage) : SameStart s (setCur r.2 ch dense pg) := via (setCur_keeps ..) rfl rfl hpage
  exact ite (after (sealWith _ _ _) (hcur none)) (hcur _)

theorem placeAny {i : Nat} {dense : Bool} {x : FSlot} {except : List Nat}
    (h : placeAny s i dense x except = some t) : SameStart s t := by
  obtain ⟨ch, -, hch⟩ := List.exists_of_findSome?_eq_some h
  exact placeSlot hch

theorem placeRun (s : State) (dense : Bool) (l : List FSlot) (except : List Nat) :
    SameStart s (placeRun s dense l except).1 := by
  refine List.foldlRecOn (motive := fun r : State × Nat => SameStart s r.1) l _ (refl s) fun r hr x _ => ?_
  split
  · next h => exact after (placeAny h) hr
  · exact hr

theorem reissue (s : State) (ch : Nat) (pg : OPage) : SameStart s (reissue s ch pg) := by
  unfold Machine.reissue
  dsimp only
  split
  · next h =>
    obtain ⟨k, -, hk⟩ := List.exists_of_findSome?_eq_some h
    obtain ⟨r, hr, he⟩ := Option.map_eq_some_iff.mp hk
    cases he
    exact after (sealWith _ _ _) (via (notePresent_keeps ..) rfl rfl (allocPage hr))
  · exact of_keeps (setFch_keeps ..) rfl rfl

theorem partialParity (s : State) (g p : Nat) : SameStart s (partialParity s g p) := by
  unfold Machine.partialParity
  dsimp only
  split
  · exact refl s
  · split
    · exact refl s
    · next h =>
      obtain ⟨k, -, hk⟩ := List.exists_of_findSome?_eq_some h
      obtain ⟨r, hr, he⟩ := Option.map_eq_some_iff.mp hk
      cases he
      exact after (sealWith _ _ _) (via (notePresent_keeps ..) rfl rfl (via (setFch_keeps ..) rfl rfl (allocPage hr)))

/-! ### Program status -/

theorem retireBlock (s : State) (ch die block : Nat) : SameStart s (retireBlock s ch die block) := by
  have hheld (r : JRec) (a hi lo n : Nat) (f g : Ftl) :
      SameStart s (setFtl (setFtl (bump (Machine.hold s r) a hi lo n) f) g) :=
    via (setFtl_keeps ..) rfl rfl (via (setFtl_keeps ..) rfl rfl (via (bump_keeps ..) rfl rfl (hold s r)))
  unfold Machine.retireBlock
  refine ite (refl s) (via (judgeSpare_keeps _) rfl rfl (after (placeRun _ _ _ _) ?_))
  dsimp -proj only
  split
  · exact via (setBg_keeps ..) rfl rfl (via (setFtl_keeps ..) rfl rfl (hheld ..))
  · refine ite (hheld ..) (ite (via (poolGroup_keeps ..) rfl rfl ?_) ?_) <;>
      exact via (setBg_keeps ..) rfl rfl (via (bump_keeps ..) rfl rfl (hheld ..))

theorem slotPassed (s : State) (key : Nat) (x : FSlot) : SameStart s (slotPassed s key x) := by
  have hheld {t : State} (m : Option MEntry) (r : JRec) (h : SameStart s t) :
      SameStart s (Machine.hold (mapSet t x.idx m) r) := after (hold _ _) (via (mapSet_keeps ..) rfl rfl h)
  have hwritten {t : State} (h : SameStart s t) : SameStart s (unitWritten t x.tag) := via (unitWritten_keeps ..) rfl rfl h
  have hfreed (n : Nat) : SameStart s (freeStaged s n) := of_keeps (freeStaged_keeps ..) rfl rfl
  unfold Machine.slotPassed
  refine ite (refl s) (ite (after (unitDone _ _) (of_keeps (mapPagePassed_keeps ..) rfl rfl)) ?_)
  dsimp -proj only
  split
  · split
    · exact unitDone s _
    · refine ite (after (unitDone _ _) (hfreed _)) (hheld _ _ (hwritten ?_))
      exact ite (hfreed _) (ite (via (dropStaged_keeps ..) rfl rfl (hfreed _)) (via (setFtl_keeps ..) rfl rfl (hfreed _)))
  · exact ite (hheld _ _ (hwritten (refl s))) (unitDone s _)
  · exact hheld _ _ (via (dropStaged_keeps ..) rfl rfl (hwritten (refl s)))

theorem flushEnded (s : State) (n : Nat) : SameStart s (flushEnded s n) := ⟨rfl, rfl, rfl⟩

theorem programPassed (s : State) (ch : Nat) (pg : OPage) : SameStart s (programPassed s ch pg) := by
  have hslots (key : Nat) (f : Fch) (g : Nat) (x : BGroup) :
      SameStart s (pg.slots.foldl (fun s y => Machine.slotPassed s key y) (setBg (setFch s f) g x)) :=
    foldl (fun t y => slotPassed t key y) (via (setBg_keeps ..) rfl rfl (of_keeps (setFch_keeps ..) rfl rfl))
  have hcounted {t : State} (h : SameStart s t) (f : Ftl) :
      SameStart s (setFtl (if pg.dense then t else Machine.flushEnded t pg.slots.length) f) :=
    via (setFtl_keeps ..) rfl rfl (ite h (after (flushEnded _ _) h))
  unfold Machine.programPassed
  dsimp -proj only
  refine via (judgeFold_keeps _) rfl rfl (via (closeIfFull_keeps ..) rfl rfl ?_)
  exact ite (via (beginCkpt_keeps _) rfl rfl (hcounted (hslots ..) _)) (hcounted (hslots ..) _)

theorem programFailed (s : State) (ch : Nat) (pg : OPage) : SameStart s (programFailed s ch pg) := by
  unfold Machine.programFailed
  dsimp -proj only
  refine via (judgeFold_keeps _) rfl rfl (foldl (fun t p => reissue t ch p) (after (retireBlock _ _ _ _) ?_))
  exact foldl (fun t p => of_keeps (leaveStripe_keeps t ch p) rfl rfl) (of_keeps (setChan_keeps ..) rfl rfl)

theorem sealAll (s : State) (dense : Bool) : SameStart s (sealAll s dense) := by
  refine foldl (fun t ch => ?_) (refl s)
  unfold sealShort
  split
  · exact refl t
  · exact ite (sealPage t ch dense) (via (bump_keeps ..) rfl rfl (sealPage t ch dense))

theorem passOne (bad : List Nat) (s : State) (ch : Nat) : SameStart s (passOne bad s ch) := by
  have hended (c : FChan) (die block : Nat) : SameStart s (endErase (setChan s ch c) ch die block) :=
    via (endErase_keeps ..) rfl rfl (of_keeps (setChan_keeps ..) rfl rfl)
  unfold Machine.passOne
  split
  · exact refl s
  · exact ite (after (programFailed _ _ _) (hended ..)) (after (programPassed _ _ _) (hended ..))

theorem passAll (bad : List Nat) (n : Nat) (s : State) : SameStart s (passAll bad n s) := by
  induction n generalizing s with
  | zero => exact refl s
  | succ n ih =>
    rw [Machine.passAll]
    exact ite (refl s) (after (ih _) (foldl (passOne bad) (refl s)))

theorem flushPages (s : State) (dense : Bool) (bad : List Nat) : SameStart s (flushPages s dense bad) :=
  after (passAll bad _ _) (sealAll s dense)

/-! ### The steps of the flush -/

theorem flushFence (s : State) (tag : Nat) : SameStart s (flushFence s tag) :=
  after (finishTicket _ tag) (via (fenceTicket_keeps ..) rfl rfl ⟨rfl, rfl, rfl⟩)

theorem fenceDirty (s : State) : SameStart s (fenceDirty s) := foldl flushFence (refl s)

theorem flushStaging (s : State) : SameStart s (flushStaging s) := after (flushPages _ _ _) (placeRun s _ _ _)

theorem flushClose (s : State) : SameStart s (flushClose s) := by
  have hsaved (t : State) : SameStart t (saveFlushNj t) := ⟨rfl, rfl, rfl⟩
  refine put_key (put_dev (after (hsaved _) (after (closeJournal _) (after (flushPages _ _ _) ?_))) _) _
  exact foldl (fun t k => partialParity t (k / 4096) (k % 4096)) (refl s)

/-! ### The steps of a secure discard (R318, R319) -/

theorem commitHeld (s : State) : SameStart s (commitHeld s) := commitAll _ s

theorem writePages (s : State) (l : List (Nat × Nat)) : SameStart s (writePages s l).1 := by
  unfold Machine.writePages
  dsimp only
  refine after (flushPages _ _ _) ?_
  refine List.foldlRecOn (motive := fun r : State × List (Nat × Nat) => SameStart s r.1) l _ (refl s) fun r hr p _ => ?_
  split
  · next h => exact via (setFtl_keeps ..) rfl rfl (after (placeAny h) hr)
  · exact hr

theorem writeMap (s : State) : SameStart s (writeMap s).1 := by
  unfold Machine.writeMap
  dsimp only
  exact after (writePages _ _) (after (writePages _ _) (writePages s _))

/-- The function is replaced by its body before a state stands in it: of `runCkpt s clean` the kernel would run the checkpoint. -/
theorem runCkpt (s : State) (clean : Bool) : SameStart s (runCkpt s clean) := by
  have hbody (run : State → Bool → State) (hrun : run = Machine.runCkpt) : SameStart s (run s clean) := by
    delta Machine.runCkpt at hrun
    subst hrun
    beta_reduce
    extract_lets begun map written committed
    have hcommitted : SameStart s committed := after (commitHeld _) (after (writeMap _) (of_keeps (beginCkpt_keeps _) rfl rfl))
    clear_value committed written map begun
    split
    · exact hcommitted
    · refine ite hcommitted (ite (after (closeJournal _) ?_) ?_) <;> exact via (setAnchor_keeps ..) rfl rfl hcommitted
  exact hbody _ rfl

theorem copyGroup (s : State) (g : Nat) (bad : List Nat) (tiers : List (Nat × Nat)) : SameStart s (copyGroup s g bad tiers) := by
  unfold Machine.copyGroup
  refine after (commitHeld _) (after (flushPages _ _ _) (after (placeRun _ _ _ _) (via (book_keeps ..) rfl rfl ?_)))
  exact foldl (fun t x => of_keeps (readSource_keeps ..) rfl rfl) (refl s)

theorem retryStalled (s : State) : SameStart s (retryStalled s) :=
  foldl (fun t p => reissue t p.1 p.2) (of_keeps (setFch_keeps ..) rfl rfl)

theorem secureEraseGroup (x : Secure) (s : State) (g : Nat) : SameStart s (secureEraseGroup x s g) := by
  refine via (beginErase_keeps ..) rfl rfl ?_
  unfold eraseGroup
  refine via (judgeSpare_keeps _) rfl rfl (via (judgeFold_keeps _) rfl rfl ?_)
  have hretired {t : State} (h : SameStart s t) (l : List Nat) :
      SameStart s (l.foldl (fun s ch => Machine.retireBlock s ch (g / 65536) (memberBlock s g ch)) t) :=
    foldl (fun t ch => retireBlock t _ _ _) h
  have hbooked : SameStart s (if (bgOf s g).erasePaid then s else book s 2 (120000 * (groupChans s g).length)) :=
    ite (refl s) (of_keeps (book_keeps ..) rfl rfl)
  dsimp -proj only
  refine ite (via (poolGroup_keeps ..) rfl rfl (hretired ?_ _)) (hretired ?_ _) <;>
    exact via (setBg_keeps ..) rfl rfl (via (setFtl_keeps ..) rfl rfl (via (setFch_keeps ..) rfl rfl hbooked))

theorem endProvisional (s : State) (tag u : Nat) : SameStart s (endProvisional s tag u) := by
  unfold Machine.endProvisional
  split
  · exact refl s
  · exact after (ackTicket _ _ _) (via (engineFailed_keeps ..) rfl rfl (via (report_keeps ..) rfl rfl
      (of_keeps (zeroWritten_keeps ..) rfl rfl)))

theorem endOut (s : State) (tag step u out : Nat) (prov : Bool) : SameStart s (endOut s tag step u out prov) := by
  unfold Machine.endOut
  split
  · exact refl s
  · exact ite (ite (endProvisional s _ _) (ackTicket s _ _)) (via (setCtx_keeps ..) rfl rfl (of_keeps (sendToken_keeps ..) rfl rfl))

theorem failAt (s : State) (tag step unit status : Nat) : SameStart s (failAt s tag step unit status) := by
  unfold Machine.failAt
  split
  · exact refl s
  · refine ite (refl s) ?_
    dsimp -proj only
    have hfailed : SameStart s (engineFailed (report s tag unit status) unit tag status) :=
      via (engineFailed_keeps ..) rfl rfl (of_keeps (report_keeps ..) rfl rfl)
    have hsent (e : Entry) (last : Bool) : SameStart s (if last = true then engineFailed (report s tag unit status) unit tag status
        else engineCleared (sendToken (engineFailed (report s tag unit status) unit tag status) e tag step unit 0 false true) unit tag step) :=
      ite hfailed (via (engineCleared_keeps ..) rfl rfl (via (sendToken_keeps ..) rfl rfl hfailed))
    refine ite (after (ackTicket _ _ _) (via (zeroWritten_keeps ..) rfl rfl ?_)) ?_ <;>
      exact via (modEntry_keeps ..) rfl rfl (hsent _ _)

theorem secureErase (s : State) (x : Secure) : SameStart s (secureErase s x) := by
  unfold Machine.secureErase
  refine ite ?_ (refl s)
  dsimp -proj only
  have herased : SameStart s (Machine.retryStalled (setFtl (secureRetired (x.groups.foldl (Machine.secureEraseGroup x) s) x.groups x.lost x.tag.isSome).1
      { (secureRetired (x.groups.foldl (Machine.secureEraseGroup x) s) x.groups x.lost x.tag.isSome).1.ftl with
        secures := (secureRetired (x.groups.foldl (Machine.secureEraseGroup x) s) x.groups x.lost x.tag.isSome).1.ftl.secures.filter (· != x) })) :=
    after (retryStalled _) (via (setFtl_keeps ..) rfl rfl (via (secureRetired_keeps ..) rfl rfl
      (foldl (secureEraseGroup x) (refl s))))
  split
  · exact herased
  · split
    · exact herased
    · split
      · exact after (failAt _ _ _ _ _) herased
      · exact after (endOut _ _ _ _ _ _) herased

theorem resumeSecures (s : State) : SameStart s (resumeSecures s) := foldl secureErase (refl s)

theorem secureBegin (s : State) (x : Secure) (failing : List Nat) (tiers : List (Nat × Nat)) :
    SameStart s (secureBegin s x failing tiers) := by
  unfold Machine.secureBegin
  refine via (setFtl_keeps ..) rfl rfl (after (runCkpt _ _) (foldl (fun t g => copyGroup t g failing tiers) ?_))
  refine foldl (fun t g => ite (of_keeps (closeGroup_keeps ..) rfl rfl) (refl t)) ?_
  exact after (flushPages _ _ _) (flushPages s _ _)

end SameStart

end Sys2Proof.Machine
end


section
/-! SUPPORT. What the phases of a start leave as it began them (20_start_and_reset.md, R684, R686): the serial number, the GEN of every unit (R31),
the counts of power cycles and of warm starts (R699, R722), the ticket store and the stations' packets. -/

namespace Sys2Proof.Machine

/-- `t` has the serial number, the GEN of every unit, the start counts, the ticket store and the stations of `s`. -/
structure SameFound (s t : State) : Prop where
  serial : t.dev.serial = s.dev.serial
  gen : ∀ n, (unitOf t n).gen = (unitOf s n).gen
  cycles : liveWord t Reg.BOOT_CYCLES = liveWord s Reg.BOOT_CYCLES
  warm : liveWord t Reg.BOOT_WARM = liveWord s Reg.BOOT_WARM
  sbx : t.sbx = s.sbx
  stn : t.stn = s.stn

namespace SameFound

variable {s t u : State}

theorem refl (s : State) : SameFound s s := ⟨rfl, fun _ => rfl, rfl, rfl, rfl, rfl⟩

/-- One more operation, the outermost first. -/
theorem after (k : SameFound t u) (h : SameFound s t) : SameFound s u :=
  ⟨k.serial.trans h.serial, fun n => (k.gen n).trans (h.gen n), k.cycles.trans h.cycles, k.warm.trans h.warm, k.sbx.trans h.sbx, k.stn.trans h.stn⟩

theorem of_eq (hdev : t.dev = s.dev) (hregs : t.regs.live = s.regs.live) (hsbx : t.sbx = s.sbx) (hstn : t.stn = s.stn) :
    SameFound s t :=
  ⟨by rw [hdev], fun n => by rw [unitOf, unitOf, hdev], by rw [liveWord, liveWord, hregs], by rw [liveWord, liveWord, hregs], hsbx, hstn⟩

/-- One more operation that keeps the units, the registers, the signal box and the stations. -/
theorem via {m : Nat} (k : Keeps m t u) (hm : m &&& 216 = 0) (h : SameFound s t) : SameFound s u := by
  have hbit (n : Nat) (hn : Nat.testBit 216 n = true) : m.testBit n = false := by
    have := congrArg (Nat.testBit · n) hm
    simpa [Nat.testBit_and, hn] using this
  exact after (of_eq (k.dev (hbit 3 rfl)) (congrArg _ (k.regs (hbit 4 rfl))) (k.sbx (hbit 6 rfl)) (k.stn (hbit 7 rfl))) h

theorem of_keeps {m : Nat} (k : Keeps m s t) (hm : m &&& 216 = 0) : SameFound s t := via k hm (refl s)

/-- One more operation that keeps the units, the signal box and the stations, and whose register is neither count. -/
theorem via_live {m : Nat} (k : Keeps m t u) (hm : m &&& 200 = 0) (hcycles : liveWord u Reg.BOOT_CYCLES = liveWord t Reg.BOOT_CYCLES)
    (hwarm : liveWord u Reg.BOOT_WARM = liveWord t Reg.BOOT_WARM) (h : SameFound s t) : SameFound s u := by
  have hbit (n : Nat) (hn : Nat.testBit 200 n = true) : m.testBit n = false := by
    have := congrArg (Nat.testBit · n) hm
    simpa [Nat.testBit_and, hn] using this
  refine after ⟨by rw [k.dev (hbit 3 rfl)], fun n => ?_, hcycles, hwarm, k.sbx (hbit 6 rfl), k.stn (hbit 7 rfl)⟩ h
  rw [unitOf, unitOf, k.dev (hbit 3 rfl)]

theorem ite {p : Prop} [Decidable p] (h : SameFound s t) (k : SameFound s u) : SameFound s (if p then t else u) := by
  split <;> assumption

theorem foldl {α : Type} {f : State → α → State} {l : List α} (hf : ∀ t, ∀ x ∈ l, SameFound t (f t x)) (h : SameFound s t) :
    SameFound s (l.foldl f t) :=
  List.foldlRecOn (motive := SameFound s) l f h fun b hb a ha => (hf b a ha).after hb

theorem record (h : SameFound s t) {event sev status unit inst : Nat} {detail : Bytes} :
    SameFound s (record t event sev status unit inst detail) :=
  via_live (record_keeps ..) rfl (liveWord_record (by decide) ..) (liveWord_record (by decide) ..) h

theorem setLive (h : SameFound s t) {a hi lo v : Nat} (hc : Reg.BOOT_CYCLES ≠ a) (hw : Reg.BOOT_WARM ≠ a) :
    SameFound s (setLive t a hi lo v) :=
  via_live (setLive_keeps ..) rfl (by rw [liveWord_setLive, if_neg hc]) (by rw [liveWord_setLive, if_neg hw]) h

theorem bump (h : SameFound s t) {a hi lo k : Nat} (hc : Reg.BOOT_CYCLES ≠ a) (hw : Reg.BOOT_WARM ≠ a) :
    SameFound s (bump t a hi lo k) := h.setLive hc hw

theorem setHealth (h : SameFound s t) {b : Nat} {on : Bool} : SameFound s (setHealth t b on) := by
  have hset (v : Nat) : SameFound s (Machine.setLive t Reg.FTL_HEALTH 23 16 v) := h.setLive (by decide) (by decide)
  exact ite h (ite (hset _).record (hset _))

theorem setEff (h : SameFound s t) {a hi lo v : Nat} : SameFound s (setEff t a hi lo v) := after (of_eq (s := t) rfl rfl rfl rfl) h

theorem setGroup (h : SameFound s t) {c : Nat} {g : Group} : SameFound s (setGroup t c g) := after (of_eq (s := t) rfl rfl rfl rfl) h

/-- A start gives a unit its role, owner and STATE, and raises no GEN (R31). -/
theorem startUnit (h : SameFound s t) {n : Nat} {f : UnitRec → UnitRec} (hf : ∀ r, (f r).gen = r.gen) :
    SameFound s (startUnit t n f) := by
  refine after (t := t) ⟨rfl, fun k => ?_, rfl, rfl, rfl, rfl⟩ h
  rw [Machine.startUnit, unitOf_setUnit]
  split
  · next hk => rw [hk, hf]
  · rfl

/-! ## ROM and FIRMWARE -/

theorem romPhase {env : StartEnv} {warm : Bool} : SameFound s (romPhase s env warm) := by
  unfold Machine.romPhase
  extract_lets p charged judged t _ sensed _ told
  have hcharged : SameFound s charged :=
    .ite (.refl s) (.ite (.of_keeps (enterRamp_keeps ..) rfl) (.of_keeps (setPwr_keeps ..) rfl))
  have hjudged : SameFound s judged := hcharged.setHealth
  have hsensed : SameFound s sensed := .ite hjudged (.via (setPwr_keeps ..) rfl hjudged)
  clear_value sensed
  exact .via (measSecurity_keeps ..) rfl (.via (extendMeas_keeps ..) rfl (.via (setTru_keeps ..) rfl hsensed))

/-! ## TRAIN -/

theorem trainDram {o : State} {env : StartEnv} {warm : Bool} {c : Nat} : SameFound s (trainDram o env warm s c) := by
  have htrain : Reg.BOOT_CYCLES ≠ drcReg Reg.DRC_CH_TRAIN c ∧ Reg.BOOT_WARM ≠ drcReg Reg.DRC_CH_TRAIN c := by
    simp only [drcReg, Reg.BOOT_CYCLES, Reg.BOOT_WARM, Reg.DRC_CH_TRAIN]
    omega
  have husable : Reg.BOOT_CYCLES ≠ drcReg Reg.DRC_CH_USABLE c ∧ Reg.BOOT_WARM ≠ drcReg Reg.DRC_CH_USABLE c := by
    simp only [drcReg, Reg.BOOT_CYCLES, Reg.BOOT_WARM, Reg.DRC_CH_USABLE]
    omega
  have hset {t : State} (h : SameFound s t) (x : DChan) : SameFound s (setDram t c x) := .via (setDram_keeps ..) rfl h
  have hmib {t : State} (h : SameFound s t) (n : Nat) : SameFound s (Machine.setLive t (drcReg Reg.DRC_CH_USABLE c) 31 0 n) :=
    h.setLive husable.1 husable.2
  have hhealth {t : State} (h : SameFound s t) (sev : Nat) : SameFound s (dramHealth t c sev) := h.record
  unfold Machine.trainDram
  extract_lets old a p mib kept _ booted x sized target
  refine .ite (hmib (.setLive (.via (setBoot_keeps ..) rfl (hset (.refl s) _)) htrain.1 htrain.2) _) ?_
  refine .ite (hset (.refl s) _) (.ite (hhealth (hset (.refl s) _) _) ?_)
  have hsized : SameFound s sized := hmib (hset (.refl s) _) _
  clear_value sized
  split
  · exact hhealth (hset (hsized.bump htrain.1 htrain.2) _) _
  · extract_lets r trained rated
    have hrated : SameFound s rated := (SameFound.bump (hset hsized _) htrain.1 htrain.2).setLive htrain.1 htrain.2
    exact .ite (hhealth hrated _) hrated

theorem trainFlash {o : State} {env : StartEnv} {warm : Bool} {k : Nat} (hk : k < 32) : SameFound s (trainFlash o env warm s k) := by
  have htrain : Reg.BOOT_CYCLES ≠ Reg.FCH_CH_TRAIN + 0x40 * k ∧ Reg.BOOT_WARM ≠ Reg.FCH_CH_TRAIN + 0x40 * k := by
    simp only [Reg.BOOT_CYCLES, Reg.BOOT_WARM, Reg.FCH_CH_TRAIN]
    omega
  have hset {t : State} (h : SameFound s t) (x : FChan) : SameFound s (setChan t k x) := .via (setChan_keeps ..) rfl h
  unfold Machine.trainFlash
  extract_lets old kept a was lose u _
  have hlose {t : State} (h : SameFound s t) (d : Nat) : SameFound s (lose t d) := .ite h (.via (setFch_keeps ..) rfl h)
  split
  · exact hset (.refl s) _
  · next p _ =>
    extract_lets gone breaks offline usable fresh least x lost fail target
    have hlost : SameFound s lost := .foldl (fun t d _ => .ite (.refl t) (.of_keeps (setFch_keeps ..) rfl)) (hset (.refl s) _)
    have hfail {t : State} (h : SameFound s t) : SameFound s (fail t) := SameFound.record (hlose (hset h _) _)
    have hgone : SameFound s (gone s) := hset (.refl s) _
    clear_value gone fail lost lose
    refine .ite hgone (.ite (SameFound.record (hlose hgone _)) ?_)
    refine .ite (SameFound.setLive (.via (setBoot_keeps ..) rfl (hset (.refl s) _)) htrain.1 htrain.2) (.ite (hset (.refl s) _) ?_)
    refine .ite (hfail hlost) ?_
    split
    · exact hfail (hlost.bump htrain.1 htrain.2)
    · extract_lets r trained rated
      have hrated : SameFound s rated := (SameFound.bump (hset hlost _) htrain.1 htrain.2).setLive htrain.1 htrain.2
      exact .ite hrated.record hrated

theorem trainPhase {o : State} {env : StartEnv} {warm : Bool} : SameFound s (trainPhase o env warm s) := by
  unfold Machine.trainPhase
  extract_lets drams noted linked
  have hdrams : SameFound s drams := .foldl (fun t c _ => trainDram) (.refl s)
  have hnoted : SameFound s noted := .via (noteOffline_keeps ..) rfl
    (.foldl (fun t k hk => trainFlash (List.mem_range.mp hk)) hdrams)
  exact after (of_eq (s := noted) rfl rfl rfl rfl) hnoted

/-! ## STREAM -/

theorem applyStream {st : Stream} {candidate : Bool} : SameFound s (applyStream s st candidate) := by
  obtain ⟨given, p, c, bs, hgiven, hrun⟩ := applyStream_steps s st candidate
  have hroles : SameFound s given := hgiven ▸ .foldl (fun t n _ => startUnit (.refl t) fun _ => rfl) (.refl s)
  have hplaced : SameFound given { setPwr given p with cfg := c } := of_eq rfl rfl rfl rfl
  rw [hrun]
  exact .via (extendMeas_keeps ..) rfl (after hplaced hroles)

theorem streamPhase {o : State} : SameFound s (streamPhase o s) := by
  have hrefused {t : State} (h : SameFound s t) (a : Stream) : SameFound s (recordStream t a) := h.record
  unfold Machine.streamPhase
  extract_lets active
  have hactive {t : State} (h : SameFound s t) : SameFound s (active t) := by
    dsimp only [active]
    split
    · exact .ite (after applyStream h) (hrefused h _)
    · exact h
  split
  · exact hactive (.refl s)
  · exact .ite (hactive (.refl s)) (.ite applyStream (hactive (hrefused (.refl s) _)))

end SameFound

/-! ## RECOVER: with an empty ticket store the journal moves nothing but the map engine -/

section
variable {s : State}

theorem unitDone_of_empty (h : s.sbx.store = []) (tag : Option Nat) : unitDone s tag = s := by
  unfold unitDone
  split
  · rfl
  · rw [entryOf, h]
    rfl

theorem commitJournal_keeps_of_empty (h : s.sbx.store = []) (n : Nat) : Keeps 16777216 s (commitJournal n s) := by
  induction n generalizing s with
  | zero => exact Keeps.refl ..
  | succ n ih =>
    rw [commitJournal]
    split
    · exact Keeps.refl ..
    · next p t _ =>
      refine Keeps.ite ?_ (Keeps.refl ..)
      extract_lets _ committed
      have hsame (u : State) (hu : u.sbx.store = []) : p.recs.foldl (fun s r => unitDone s r.tag) u = u :=
        List.foldlRecOn (motive := fun v : State => v = u) _ _ rfl
          fun v hv r _ => by rw [hv, unitDone_of_empty hu]
      have hempty : committed.sbx.store = [] := h
      rw [hsame _ hempty]
      exact Keeps.via (ih hempty) rfl (setFtl_keeps ..)

theorem commitAll_keeps_of_empty (h : s.sbx.store = []) (n : Nat) : Keeps 16777216 s (commitAll n s) := by
  induction n generalizing s with
  | zero => exact Keeps.refl ..
  | succ n ih =>
    have hround (k : Nat) (f : Ftl) : Keeps 16777216 s (commitJournal k (setFtl
        (if s.ftl.held.isEmpty || decide (8 ≤ s.ftl.jpages.length) then s else formJournal s) f)) := by
      have hformed : Keeps 16777216 s (setFtl (if s.ftl.held.isEmpty || decide (8 ≤ s.ftl.jpages.length) then s else formJournal s) f) :=
        Keeps.via (setFtl_keeps ..) rfl (Keeps.ite (Keeps.refl ..) (formJournal_keeps _))
      exact Keeps.via (commitJournal_keeps_of_empty (by rw [hformed.sbx rfl, h]) k) rfl hformed
    rw [commitAll]
    exact Keeps.ite (hround _ _) (Keeps.via (ih (by rw [(hround _ _).sbx rfl, h])) rfl (hround _ _))

theorem hold_keeps_of_empty (h : s.sbx.store = []) (r : JRec) : Keeps 16777216 s (hold s r) :=
  Keeps.via (setFtl_keeps ..) rfl (Keeps.ite (commitAll_keeps_of_empty h _) (Keeps.refl ..))

theorem rebuildMap_keeps_of_empty (h : s.sbx.store = []) : Keeps 16777216 s (rebuildMap s) := by
  unfold rebuildMap
  extract_lets b _ based scanned _ found
  have hbased : Keeps 16777216 s based := setFtl_keeps ..
  have hscanned : Keeps 16777216 s scanned :=
    List.foldlRecOn (motive := Keeps 16777216 s) _ _ hbased fun t ht p _ =>
      have hset : Keeps 16777216 s (mapSet t p.1 (some p.2.2)) := Keeps.via (mapSet_keeps ..) rfl ht
      Keeps.via (hold_keeps_of_empty (by rw [hset.sbx rfl, h]) _) rfl hset
  exact Keeps.via (beginCkpt_keeps _) rfl (Keeps.via (setFtl_keeps ..) rfl hscanned)

theorem recoverPhase_keeps_of_empty (h : s.sbx.store = []) {o : State} {env : StartEnv} {warm : Bool} :
    Keeps 16908288 s (recoverPhase o env warm s) := by
  unfold recoverPhase
  extract_lets _ anchored path _ opened f last recs places _ rebased mapped _
  have hopened : Keeps 16908288 s opened :=
    Keeps.via (setFtl_keeps ..) rfl (Keeps.ite (Keeps.via (setFtl_keeps ..) rfl (Keeps.refl ..)) (Keeps.refl ..))
  have hset (g : Ftl) : Keeps 16908288 s (setFtl opened g) := Keeps.via (setFtl_keeps ..) rfl hopened
  have hmapped : Keeps 16908288 s mapped := by
    have hrebuilt (g : Ftl) : Keeps 16908288 s (rebuildMap (setFtl opened g)) :=
      Keeps.via (rebuildMap_keeps_of_empty (by rw [(hset g).sbx rfl, h])) rfl (hset g)
    unfold mapped
    clear_value path
    rcases path with _ | _ | _ | _ | _ | path
    · exact Keeps.via (formatMedia_keeps ..) rfl hopened
    · exact hset _
    · exact Keeps.foldl (fun t r => Keeps.ite (Keeps.via (markDirty_keeps ..) rfl (Keeps.refl ..)) (Keeps.refl ..)) (hset _)
    · exact hrebuilt _
    · exact Keeps.via (setBoot_keeps ..) rfl (hset _)
    · exact hrebuilt _
  exact Keeps.ite (Keeps.via (setFtl_keeps ..) rfl hmapped) hmapped

end

namespace SameFound

variable {s t u : State}

/-! ## RESTORE -/

theorem restoreSettings : SameFound s (restoreSettings s) := by
  unfold Machine.restoreSettings
  split
  · exact .refl s
  · split
    · exact .via (recordRom_keeps ..) rfl (.of_keeps (setUpd_keeps ..) rfl)
    · extract_lets before _ applied
      have happlied : SameFound s applied := of_eq rfl rfl rfl rfl
      clear_value applied
      refine .foldl (fun t c _ => .of_keeps (rateChange_keeps ..) rfl) (.foldl (fun t k _ => ?_) happlied)
      exact .ite (.of_keeps (setChan_keeps ..) rfl) (.refl t)

theorem startSets {o : State} : SameFound s (startSets o s) := by
  refine .foldl (fun t g _ => ?_) (.refl s)
  beta_reduce
  split
  · exact .refl t
  · refine .ite (SameFound.record (.setGroup (.refl t))) ?_
    extract_lets _ applied
    have happlied : SameFound t applied := of_eq rfl rfl rfl rfl
    clear_value applied
    exact .ite (.via (saveSettings_keeps ..) rfl happlied) happlied

theorem restoreStates {env : StartEnv} : SameFound s (restoreStates s env) := by
  refine .foldl (fun t n _ => ?_) (.refl s)
  have hfound : SameFound t (Machine.startUnit t n fun r => { r with
      state := foundState t env n, role := if decide (n = 173) && !t.hif.x8x8 then 0 else r.role }) :=
    startUnit (.refl t) fun _ => rfl
  exact .ite hfound.record hfound

theorem restoreGrants {o : State} : SameFound s (restoreGrants o s) :=
  .foldl (fun t n _ => .ite (startUnit (.refl t) fun _ => rfl) (.refl t)) (.refl s)

theorem restoreWindows {o : State} : SameFound s (restoreWindows o s) := by
  refine .foldl (fun t i _ => .ite (.refl t) ?_) (.refl s)
  unfold grantWindows
  extract_lets u a put low high
  exact .foldl (fun v k _ => setEff (.refl v)) (setEff (setEff (setEff (setEff (.refl t)))))

theorem judgeDegraded (h : SameFound s t) : SameFound s (judgeDegraded t) := h.setHealth

theorem judgeSpare (h : SameFound s t) : SameFound s (judgeSpare t) :=
  .ite (SameFound.setHealth (.via (setFtl_keeps ..) rfl h.setHealth)) h.setHealth

theorem clearLosses (h : SameFound s t) : SameFound s (clearLosses t) :=
  .ite h (judgeDegraded (.via (setFch_keeps ..) rfl h))

theorem restorePhase {o : State} {env : StartEnv} {warm : Bool} : SameFound s (restorePhase o env warm s) := by
  unfold Machine.restorePhase
  extract_lets granted homed windowed _ zoned cached _ aliased found redelivered warned _ judged healthy _ mapped
  have hhomed : SameFound s homed :=
    .via restoreLmem_keeps rfl (after restoreGrants (.of_keeps (restoreKeys_keeps ..) rfl))
  have hzoned : SameFound s zoned := .via (setFtl_keeps ..) rfl (after restoreWindows hhomed)
  have hset : SameFound s (Machine.startSets o (Machine.restoreSettings zoned)) := after startSets (after restoreSettings hzoned)
  have hcached : SameFound s cached := .via (setFtl_keeps ..) rfl (setEff (setEff hset))
  have haliased : SameFound s aliased := after (of_eq (s := cached) rfl rfl rfl rfl) hcached
  have hfound : SameFound s found := after restoreStates (.via (restoreBanks_keeps ..) rfl haliased)
  have hredelivered : SameFound s redelivered :=
    .foldl (fun t _ _ => .ite (.of_keeps (redeliver_keeps ..) rfl) (.refl t)) hfound
  have hwarned : SameFound s warned := .ite hredelivered.record hredelivered
  have hjudged : SameFound s judged := .via (judgeFold_keeps ..) rfl (judgeSpare (.via (setFtl_keeps ..) rfl hwarned))
  have hhealthy : SameFound s healthy := SameFound.setHealth (clearLosses (judgeDegraded hjudged))
  have hmapped : SameFound s mapped := .ite (SameFound.setHealth (.via (setFtl_keeps ..) rfl hhealthy)) hhealthy
  exact .via (setBoot_keeps ..) rfl hmapped

/-! ## The whole start -/

/-- Whatever a start finds, GEN, the counts, the store and the stations are as it began them. -/
theorem runStart {o : State} {env : StartEnv} {warm : Bool} : SameFound (again o env warm) (runStart o env warm) := by
  unfold Machine.runStart
  extract_lets rom _ powered fens chosen trained
  have hrom : SameFound (again o env warm) rom := romPhase
  have hfens : SameFound (again o env warm) fens := .via (startFens_keeps ..) rfl (.via (setBoot_keeps ..) rfl hrom)
  have hchosen : SameFound (again o env warm) chosen.1 := .via (chooseImage_keeps ..) rfl hfens
  have hstreamed : SameFound (again o env warm) (Machine.streamPhase o trained) :=
    after streamPhase (after trainPhase (.via (startCores_keeps ..) rfl hchosen))
  have hempty : (Machine.streamPhase o trained).sbx.store = [] := by rw [hstreamed.sbx]; rfl
  refine .ite (.via (haltStart_keeps ..) rfl (.via (recordRom_keeps ..) rfl hrom)) ?_
  exact .ite (.via (haltStart_keeps ..) rfl hfens) (.ite (.via (haltStart_keeps ..) rfl hchosen)
    (after restorePhase (.via (recoverPhase_keeps_of_empty hempty) rfl hstreamed)))

end SameFound

end Sys2Proof.Machine
end


section
/-! SUPPORT. A host link changes only where the link itself is set (16_host_interface.md, R559, R562): ending commands, tickets, loads
and instances leaves both links as they are. -/

namespace Sys2Proof.Machine

/-- `t` has the host links of `s`. -/
def SameLinks (s t : State) : Prop := t.hif.links = s.hif.links

namespace SameLinks

variable {s t u : State}

theorem refl (s : State) : SameLinks s s := rfl

/-- One more operation, the outermost first. -/
theorem after (k : SameLinks t u) (h : SameLinks s t) : SameLinks s u := Eq.trans k h

theorem via {m : Nat} (k : Keeps m t u) (hm : m.testBit 26 = false) (h : SameLinks s t) : SameLinks s u :=
  after (congrArg Hif.links (k.hif hm)) h

theorem of_keeps {m : Nat} (k : Keeps m s t) (hm : m.testBit 26 = false) : SameLinks s t := via k hm (refl s)

theorem ite {p : Prop} [Decidable p] (h : SameLinks s t) (k : SameLinks s u) : SameLinks s (if p then t else u) := by
  split <;> assumption

theorem foldl {α : Type} {f : State → α → State} {l : List α} (hf : ∀ t x, SameLinks t (f t x)) (h : SameLinks s t) :
    SameLinks s (l.foldl f t) :=
  List.foldlRecOn (motive := SameLinks s) l f h fun b hb a _ => (hf b a).after hb

theorem postCqe (s : State) (c sq cid st dw0 dw1 nsid dev unit : Nat) :
    SameLinks s (postCqe s c sq cid st dw0 dw1 nsid dev unit) := by
  have hwrite (p i a : Nat) (bs : Bytes) : SameLinks s (hostWrite s p i a bs) := of_keeps (hostWrite_keeps ..) rfl
  unfold Machine.postCqe
  split
  · exact refl s
  · dsimp only
    split <;> exact hwrite _ _ _ _

theorem endCmd (s : State) (y : NCmd) : SameLinks s (endCmd s y) := by
  unfold Machine.endCmd
  dsimp only
  split <;> exact after (postCqe ..) rfl

theorem nvmeTicketDone (s : State) (e : Entry) (x : Completion) : SameLinks s (nvmeTicketDone s e x) := by
  have hftl {t : State} (h : SameLinks s t) (f : Ftl) : SameLinks s { t with ftl := f } := h
  unfold Machine.nvmeTicketDone
  split
  · unfold cmdPart
    split
    · exact refl s
    · refine ite rfl (after (endCmd _ _) (hftl ?_ _))
      have hzones (p : Prop) [Decidable p] (l : List Nat) (n : Nat) :
          SameLinks s (if p then saveZones (l.foldl (fun s z => setZone s n z {}) s) n else s) :=
        ite (via (saveZones_keeps ..) rfl (foldl (fun t _ => of_keeps (setZone_keeps t _ _ _) rfl) (refl s))) (refl s)
      exact ite (via (setCore_keeps ..) rfl (hzones _ _ _)) (hzones _ _ _)
  · exact refl s

theorem finishTicket (s : State) (tag : Nat) : SameLinks s (finishTicket s tag) := by
  have hended (e : Entry) : SameLinks s (countEnd s e) := of_keeps (countEnd_keeps ..) rfl
  have hposted (e : Entry) (b : Sbx) : SameLinks s { countEnd s e with sbx := b } := hended e
  have hfree {t : State} (e : Entry) (h : SameLinks s t) : SameLinks s (freeTicket t tag e) := via (freeTicket_keeps ..) rfl h
  unfold Machine.finishTicket finishPlain
  split
  · exact refl s
  · refine ite (hfree _ (hended _)) ?_
    dsimp -proj only
    split
    · refine ite (hfree _ (hposted _ _)) (ite ?_ (hfree _ (via (cqWrite_keeps ..) rfl (hposted _ _))))
      exact via (setCore_keeps ..) rfl (via (setEntry_keeps ..) rfl (hposted _ _))
    · exact after (nvmeTicketDone _ _ _) (hfree _ (hposted _ _))
    · exact via (junctionDone_keeps ..) rfl (hfree _ (hposted _ _))
    · exact hfree _ (hposted _ _)

theorem ackTicket (s : State) (tag out : Nat) : SameLinks s (ackTicket s tag out) := by
  unfold Machine.ackTicket
  refine after (finishTicket _ tag) (via (modEntry_keeps ..) rfl ?_)
  split
  · exact ite rfl (refl s)
  · exact refl s

theorem loadResult (s : State) (r : LoadReq) (status : Nat) : SameLinks s (loadResult s r status) := by
  have hresult : SameLinks s (cfgResult s r status) := of_keeps (cfgResult_keeps ..) rfl
  unfold Machine.loadResult
  split
  · split
    · exact after (ackTicket _ _ _) (via (report_keeps ..) rfl hresult)
    · exact hresult
  · refine ite (refl s) ?_
    split
    · unfold cmdStatus
      split
      · exact refl s
      · exact endCmd s _
    · exact hresult

theorem loadEnd (s : State) (status : Nat) : SameLinks s (loadEnd s status) := by
  unfold Machine.loadEnd
  split
  · exact refl s
  · exact after (loadResult _ _ _) (via (setCfg_keeps ..) rfl (of_keeps (dropKeyUse_keeps _) rfl))

theorem loaderReset (s : State) (i : Nat) : SameLinks s (loaderReset s i) := by
  unfold Machine.loaderReset
  extract_lets gone _ noted quiet
  have hquiet : SameLinks s quiet := by
    unfold quiet
    exact foldl (fun t r => loadResult t r 0x0C) (of_keeps (setCfg_keeps ..) rfl)
  clear_value quiet
  split
  · refine ite hquiet (after (loadEnd _ _) (ite (via (setFen_keeps ..) rfl hquiet) hquiet))
  · exact hquiet

theorem holdInstance (s : State) (i : Nat) : SameLinks s (holdInstance s i) :=
  foldl (fun t k => of_keeps (coreHold_keeps ..) rfl) (foldl (fun t k => of_keeps (fenHold_keeps ..) rfl) (refl s))

theorem endInstance (s : State) (i : Nat) : SameLinks s (endInstance s i) :=
  foldl (fun t tag => after (finishTicket _ tag) (of_keeps (fenceTicket_keeps ..) rfl)) (refl s)

theorem dropController (s : State) (c : Nat) (admin : Bool) : SameLinks s (dropController s c admin) := rfl

theorem instanceReset (s : State) (i : Nat) (flr : Bool) : SameLinks s (instanceReset s i flr) := by
  unfold Machine.instanceReset resetInstance
  refine ite (refl s) ?_
  extract_lets _ resetting quiet loaded ended _ handles _ boxed dropped _ freed x _
  have hquiet : SameLinks s quiet := via (dropKeyReqs_keeps ..) rfl (of_keeps (setInst_keeps ..) rfl)
  have hended : SameLinks s ended := after (endInstance _ i) (after (holdInstance _ i) (after (loaderReset _ i) hquiet))
  have hsame : boxed.hif.links = ended.hif.links := rfl
  have hboxed : SameLinks s boxed := hsame.trans hended
  clear_value boxed ended
  have hdropped : SameLinks s dropped := after (dropController _ _ _) hboxed
  have htdi (r : Tru) : SameLinks s { dropped with tru := r } := hdropped
  have hfreed : SameLinks s freed := ite (htdi _) hdropped
  clear_value freed dropped
  exact via (setInst_keeps ..) rfl hfreed

end SameLinks

section
variable {s : State} {p : Nat}

/-- R562: a lost link is down with width 0, and the physical function of the port has lost its queues and its commands. -/
theorem linkLost_resets (h : portExists s p = true) :
    linkOf (linkLost s p) p = { linkOf s p with up := false, width := 0, l0p := false } ∧ (ctrlOf (linkLost s p) p).aer = [] ∧
      (ctrlOf (linkLost s p) p).cc = 0 := by
  let down := setLink s p { linkOf s p with up := false, width := 0, l0p := false }
  let quiet := (portInsts down p).foldl (fun s i => instanceReset s i false) down
  have hquiet : SameLinks down quiet := SameLinks.foldl (fun t i => SameLinks.instanceReset t i false) (SameLinks.refl _)
  have hlost : linkLost s p = dropController quiet p true := if_pos h
  have hlink : linkOf (linkLost s p) p = linkOf down p := by
    rw [hlost, linkOf, linkOf, SameLinks.dropController quiet p true, hquiet]
  refine ⟨by rw [hlink, linkOf_setLink_same], ?_, ?_⟩ <;> rw [hlost, dropController, ctrlOf_setCtrl_same]
  rfl

end

end Sys2Proof.Machine
end


section
/-! SUPPORT and O53. The start (20_start_and_reset.md): triggers and the entry (R681, R682), power on and its cause (R683, R696), the
phases (R684 to R686), READY (R687) and PERST (R680). -/

namespace Sys2Proof.Machine

section
variable {s t o : State} {env : StartEnv} {warm save : Bool} {cause port : Nat}

/-! ## The entry sequence (R681, R682) -/

theorem enterFlush_sameStart : SameStart s (enterFlush s) := by
  have hcancelled (b : Sbx) : SameStart s (cancelInjections { s with sbx := b }) := ⟨rfl, rfl, rfl⟩
  exact SameStart.foldl SameStart.flushFence (hcancelled _)

/-- In flush mode a ticket that ends is gone. -/
theorem entryOf_flushFence (h : s.sbx.flushMode = true) (tag n : Nat) :
    entryOf (flushFence s tag) n = if n = tag then none else entryOf s n := by
  let u := fenceTicket (drawn s) tag (freeFailure s) id
  have hmode : u.sbx.flushMode = true := (fenceTicket_keeps_mode_and_units (drawn s) tag (freeFailure s) id).1.trans h
  have hfenced : entryOf u n = if n = tag then (entryOf s tag).map (fun e => { e with fenced := true, waiting := false }) else entryOf s n :=
    entryOf_fenceTicket ..
  change entryOf (finishTicket u tag) n = _
  by_cases hn : n = tag
  · subst hn
    rw [if_pos rfl]
    unfold finishTicket finishPlain
    split
    · assumption
    · next e _ =>
      have hsilent : (!posts (countEnd u e) e) = true := by
        have hended : (countEnd u e).sbx.flushMode = true := hmode
        simp [posts, hended]
      dsimp only
      rw [if_pos hsilent, entryOf, freeTicket_sbx]
      exact Tab.get?_erase_same ..
  · rw [entryOf_finishTicket_other hn, hfenced, if_neg hn, if_neg hn]

theorem entryOf_foldl_flushFence (l : List Nat) (h : s.sbx.flushMode = true) (n : Nat) :
    entryOf (l.foldl flushFence s) n = if n ∈ l then none else entryOf s n := by
  induction l generalizing s with
  | nil => rfl
  | cons tag l ih =>
    rw [List.foldl_cons, ih (flushFence_flushMode h tag), entryOf_flushFence h]
    by_cases hl : n ∈ l <;> by_cases hn : n = tag <;> simp [hl, hn]

/-- R681: a ticket that has been admitted and is left is one of a DIRTY line. -/
theorem dirty_of_enterFlush {tag : Nat} {e : Entry} (he : entryOf (enterFlush s) tag = some e) (hadm : 0 < e.admitted) :
    (lineOf (enterFlush s) e.t.line).dirty = true := by
  let u := cancelInjections { s with sbx := { s.sbx with flushMode := true } }
  let l := tagsWhere u (fun e => decide (0 < e.admitted) && !(lineOf u e.t.line).dirty)
  have hrun : enterFlush s = l.foldl flushFence u := rfl
  have hleft := entryOf_foldl_flushFence (s := u) l rfl tag
  rw [← hrun, he] at hleft
  have hline : lineOf (enterFlush s) e.t.line = lineOf u e.t.line := by
    rw [lineOf, (enterFlush_keeps s).cfg rfl]
    rfl
  by_cases hl : tag ∈ l
  · rw [if_pos hl] at hleft
    exact nomatch hleft
  · rw [if_neg hl] at hleft
    rw [hline]
    by_contra hdirty
    exact hl (mem_tagsWhere hleft.symm (by rw [decide_eq_true hadm, eq_false_of_ne_true hdirty]; rfl))

theorem leaveFed_left (h : s.jct.joined = true) : (leaveFed s).jct.left = true := by
  unfold leaveFed
  rw [h, Bool.true_and]
  split
  · rfl
  · next hleft => simpa using hleft

/-- What the entry of a warm start leaves (R681). -/
def Entered (s : State) (cause : Nat) (t : State) : Prop :=
  t.boot.phase = .entry ∧ t.boot.entryCause = cause ∧ t.boot.entrySince = s.now ∧ t.boot.sbReady = false ∧
    t.sbx.flushMode = true ∧ t.tst.injections = [] ∧ (linkOf t 0).up = false ∧ (linkOf t 1).up = false ∧
    (s.jct.joined = true → t.jct.left = true) ∧
    ∀ tag e, entryOf t tag = some e → 0 < e.admitted → (lineOf t e.t.line).dirty = true

theorem beginEntry_entered (hoff : s.boot.off = false) (hloss : s.pwr.powerLoss = false) (hready : s.boot.phase = .ready) :
    Entered s cause (beginEntry s cause) := by
  let u := setBoot s { s.boot with phase := .entry, entryStep := 2, entryCause := cause, entrySince := s.now }
  have hrun : beginEntry s cause = dropOutside (enterFlush u) := if_neg (by simp [hoff, hloss, hready])
  have hboot := beginEntry_boot (cause := cause) hoff hloss hready
  have hsbx : (dropOutside (enterFlush u)).sbx = (enterFlush u).sbx := (dropOutside_keeps _).sbx rfl
  have htst : (enterFlush u).tst.injections = [] := by
    refine List.foldlRecOn (motive := fun t : State => t.sbx.flushMode = true ∧ t.tst.injections = []) _ _ ⟨rfl, rfl⟩
      (fun t h tag _ => ⟨flushFence_flushMode h.1 tag, ?_⟩) |>.2
    rw [(flushFence_keeps_of_flush h.1 tag).tst rfl, h.2]
  have hlinks := dropOutside_drops_links (enterFlush u)
  obtain ⟨-, hjoined, -⟩ := enterFlush_sameStart (s := u)
  rw [Entered, hrun]
  rw [hrun] at hboot
  refine ⟨by rw [hboot], by rw [hboot], by rw [hboot], by rw [hboot], by rw [hsbx]; exact enterFlush_flushMode u,
    by rw [(dropOutside_keeps _).tst rfl, htst], hlinks.1, hlinks.2, fun h => leaveFed_left (hjoined.trans h), fun tag e he hadm => ?_⟩
  rw [entryOf_congr hsbx] at he
  have hdirty := dirty_of_enterFlush he hadm
  rwa [lineOf, (dropOutside_keeps _).cfg rfl]

theorem beginEntry_elsewhere (h : s.boot.phase ≠ .ready) : beginEntry s cause = s := if_pos (by simp [h])

theorem flushRecord_boot (mv : Nat) : (flushRecord s mv).boot = { s.boot with mark := 2 } := by
  rw [flushRecord, setBoot_boot, (flushMirror_keeps _).boot rfl, (record_keeps ..).boot rfl]

/-- The phase ROM that the end of an entry reaches (R682). -/
theorem finishEntry_boot : ∃ led ms, (finishEntry s save).boot = { s.boot with
    ledUntil := led, mark := 2, entryMs := ms, phase := .rom, kind := 2, cause := s.boot.entryCause, begun := true, entryStep := 0
    prevAbandoned := s.boot.abandoned, abandoned := false } := by
  let closed := flushClose (flushStaging (fenceDirty (gateStep4 s)))
  let counted := saveCounts (flushRecord closed s.pwr.vMv)
  let gated := gateAll (setFtl counted { counted.ftl with warmImage := if save then some counted.ftl.map else none })
  have hclosed : SameStart s closed :=
    SameStart.after (SameStart.flushClose _) (SameStart.after (SameStart.flushStaging _) (SameStart.after (SameStart.fenceDirty _)
      ⟨rfl, rfl, rfl⟩))
  have hgated : gated.boot = { s.boot with ledUntil := closed.boot.ledUntil, mark := 2 } := by
    rw [gateAll_boot, setFtl_boot, (saveCounts_keeps _).boot rfl, flushRecord_boot, hclosed.1]
  have hrun : finishEntry s save = toRom (setBoot gated { gated.boot with
      entryMs := (gated.now - gated.boot.entrySince + 999) / 1000 }) 2 gated.boot.entryCause := rfl
  refine ⟨closed.boot.ledUntil, (gated.now - gated.boot.entrySince + 999) / 1000, ?_⟩
  rw [hrun, toRom, setBoot_boot, setBoot_boot, hgated]

theorem finishEntry_warmImage : (finishEntry s false).ftl.warmImage = none := by
  unfold finishEntry toRom
  dsimp only
  rw [setBoot_ftl, setBoot_ftl, (gateAll_keeps _).ftl rfl, setFtl_ftl]
  rfl

theorem entryCutoff_reaches_rom (h : s.boot.phase = .entry) : Nexts (exec .entryCutoff s) (fun t => t.boot.phase = .rom ∧
    t.boot.begun = true ∧ t.boot.kind = 2 ∧ t.boot.cause = s.boot.entryCause ∧ t.boot.mark = 2 ∧ t.ftl.warmImage = none) := by
  obtain ⟨led, ms, hboot⟩ := finishEntry_boot (s := s) (save := false)
  refine ⟨finishEntry s false, if_pos h, ?_⟩
  beta_reduce
  rw [hboot]
  exact ⟨rfl, rfl, rfl, rfl, rfl, finishEntry_warmImage⟩

/-! ## Power on (R683, R696) -/

theorem powerOnCause_eq : powerOnCause s = if s.boot.abandoned then 3 else if s.boot.mark = 2 then 2
    else if s.boot.mark = 3 ∨ s.boot.mark = 1 ∧ s.ftl.closed = true then 1 else 3 := by
  unfold powerOnCause
  dsimp only
  split
  · rfl
  · split
    · next hmark => simp [hmark]
    · next hmark => simp [hmark]
    · next hmark => simp [hmark]
    · next h1 h2 h3 =>
      rw [if_neg h2, if_neg]
      rintro (h | ⟨h, -⟩)
      · exact h3 h
      · exact h1 h

theorem powerOn_begins (hheat : s.pwr.thermHold = false ∨ s.pwr.tModel < 100)
    (hoff : s.boot.off = true ∨ s.boot.phase = .rom ∧ s.boot.begun = false) :
    Nexts (exec .powerOn s) (fun t => t.boot.phase = .rom ∧ t.pwr.thermHold = false ∧ t.boot.begun = true ∧ t.boot.kind = 1 ∧
      t.boot.off = false ∧ t.pwr.rbGate = true ∧ t.boot.cause = if s.boot.abandoned then 3 else if s.boot.mark = 2 then 2
        else if s.boot.mark = 3 ∨ s.boot.mark = 1 ∧ s.ftl.closed = true then 1 else 3) := by
  have hcool : ¬(s.pwr.thermHold = true ∧ 100 ≤ s.pwr.tModel) := by
    rintro ⟨hhold, htemp⟩
    rcases hheat with h | h
    · exact Bool.noConfusion (hhold.symm.trans h)
    · omega
  have hacts : (s.boot.off || (decide (s.boot.phase = .rom) && !s.boot.begun)) = true := by
    rcases hoff with h | ⟨h, hb⟩
    · simp [h]
    · simp [h, hb]
  refine ⟨_, (if_neg hcool).trans (if_pos hacts), rfl, rfl, rfl, rfl, rfl, rfl, ?_⟩
  exact powerOnCause_eq

theorem powerOn_held (hhold : s.pwr.thermHold = true) (htemp : 100 ≤ s.pwr.tModel) : exec .powerOn s = .next s :=
  if_pos ⟨hhold, htemp⟩

theorem powerOn_ignored (hoff : s.boot.off = false) (h : s.boot.phase ≠ .rom ∨ s.boot.begun = true) : exec .powerOn s = .next s := by
  have hidle : ¬(s.boot.off || (decide (s.boot.phase = .rom) && !s.boot.begun)) = true := by
    rcases h with h | h <;> simp [hoff, h]
  change execPowerOn s = _
  unfold execPowerOn
  dsimp only
  rw [if_neg hidle, ite_self]

/-! ## The phases (R684 to R686, R693) -/

/-- Where the phases of a start end (R693). -/
def StartEnds (env : StartEnv) (t : State) : Prop :=
  (env.dusOk = false → t.boot.phase = .halted ∧ t.boot.halt = 1) ∧
    (env.dusOk = true → env.systemFault = true → t.boot.phase = .halted ∧ t.boot.halt = 3) ∧
    (env.dusOk = true → env.systemFault = false → t.boot.phase = .restore ∨ t.boot.phase = .halted ∧ t.boot.halt = 2)

theorem restorePhase_phase : (restorePhase o env warm s).boot.phase = .restore := rfl

theorem runStart_ends : StartEnds env (runStart o env warm) := by
  refine ⟨fun hdus => ?_, fun hdus hfault => ?_, fun hdus hfault => ?_⟩ <;> unfold runStart <;>
    extract_lets rom _ powered fens chosen trained
  · rw [if_pos (by rw [hdus]; rfl)]
    exact ⟨rfl, rfl⟩
  · rw [if_neg (by rw [hdus]; decide), if_pos hfault]
    exact ⟨rfl, rfl⟩
  · rw [if_neg (by rw [hdus]; decide), if_neg (by rw [hfault]; decide)]
    split
    · exact .inr ⟨rfl, rfl⟩
    · exact .inl restorePhase_phase

/-! ## What a start keeps (R31, R652, R699, R722) -/

theorem get?_map_range {α : Type} (f : Nat → α) {n k : Nat} (h : n < k) :
    Tab.get? ((List.range k).map (fun n => (n, f n))) n = some (f n) := by
  have hdrop : ∀ (l : List Nat), n ∈ l → Tab.get? (l.map (fun n => (n, f n))) n = some (f n) := by
    intro l
    induction l with
    | nil => intro hn; exact nomatch hn
    | cons a l ih =>
      intro hn
      rw [List.map_cons, Tab.get?]
      by_cases ha : a = n
      · rw [if_pos ha, ha]
      · rw [if_neg ha, ih ((List.mem_cons.mp hn).resolve_left (Ne.symm ha))]
  exact hdrop _ (List.mem_range.mpr h)

theorem gen_again {n : Nat} (h : n < 218) : (unitOf (again o env warm) n).gen = ((unitOf o n).recordedGen + 256) % 65536 := by
  rw [unitOf, Tab.getD]
  have := get?_map_range (fun n => unitAgain o n) h
  change (Option.getD (Tab.get? ((List.range 218).map (fun n => (n, unitAgain o n))) n) _).gen = _
  rw [this]
  rfl

theorem liveWord_again_cycles : liveWord (again o env warm) Reg.BOOT_CYCLES =
    if warm then powerCycles o else topCycles o env.torn + 1 := rfl

theorem liveWord_again_warm : liveWord (again o env warm) Reg.BOOT_WARM = live o Reg.BOOT_WARM 31 16 * 65536 +
    (if warm then satAdd 16 (live o Reg.BOOT_WARM 15 0) 1 else 0) := rfl

/-- What a start keeps of the state before it, and what it empties. -/
def StartKept (s t : State) : Prop :=
  t.pending = s.pending ∧ t.sbx.store = [] ∧ t.stn.inbox = [] ∧ t.tru.sessions = [] ∧ t.tru.testBy = none ∧
    t.tru.lifecycle = s.tru.lifecycle ∧ t.tru.registries = s.tru.registries ∧ t.tru.instEpoch = s.tru.instEpoch ∧
    t.dev.serial = s.dev.serial ∧ ∀ n, n < 218 → (unitOf t n).gen = ((unitOf s n).recordedGen + 256) % 65536

/-- The start with the record of a test session that it ended (R668). -/
def started (s : State) (env : StartEnv) (warm : Bool) : State := endTestSession s (runStart s env warm)

theorem started_found : SameFound (again s env warm) (started s env warm) :=
  .ite (SameFound.record SameFound.runStart) SameFound.runStart

theorem started_boot : (started s env warm).boot = (runStart s env warm).boot := (endTestSession_keeps ..).boot rfl

theorem started_ends : StartEnds env (started s env warm) := by
  rw [StartEnds, started_boot]
  exact runStart_ends

theorem started_kept : StartKept s (started s env warm) := by
  obtain ⟨hserial, hgen, -, -, hsbx, hstn⟩ := started_found (s := s) (env := env) (warm := warm)
  obtain ⟨hlife, hregs, hepoch, hsess, htest⟩ := sameTrust_runStart (o := s) (env := env) (warm := warm)
  have htru : (started s env warm).tru = (runStart s env warm).tru := (endTestSession_keeps ..).tru rfl
  refine ⟨((endTestSession_keeps ..).pending rfl).trans pending_runStart, by rw [hsbx]; rfl, by rw [hstn]; rfl, ?_, ?_, ?_, ?_, ?_,
    hserial, fun n hn => (hgen n).trans (gen_again hn)⟩ <;> rw [htru]
  · exact hsess
  · exact htest
  · exact hlife
  · exact hregs
  · exact hepoch

theorem started_cold_cycles : live (started s env false) Reg.BOOT_CYCLES 31 0 = (topCycles s env.torn + 1) % 2 ^ 32 := by
  rw [live, started_found.cycles, liveWord_again_cycles, if_neg (by decide), fld, Nat.pow_zero, Nat.div_one]

theorem started_warm_cycles : live (started s env true) Reg.BOOT_CYCLES 31 0 = live s Reg.BOOT_CYCLES 31 0 := by
  rw [live, started_found.cycles, liveWord_again_cycles, if_pos rfl, fld, Nat.pow_zero, Nat.div_one]
  exact Nat.mod_eq_of_lt (fld_lt ..)

theorem started_warm_count : live (started s env true) Reg.BOOT_WARM 15 0 = satAdd 16 (live s Reg.BOOT_WARM 15 0) 1 := by
  have hlt := satAdd_lt 16 (live s Reg.BOOT_WARM 15 0) 1
  rw [live, started_found.warm, liveWord_again_warm, if_pos rfl, fld, Nat.pow_zero, Nat.div_one]
  omega

theorem coldStart_runs (hrom : s.boot.phase = .rom) (hbegun : s.boot.begun = true) (hoff : s.boot.off = false)
    (hkind : s.boot.kind = 1) : exec (.coldStart env) s = .next (started s env false) :=
  if_pos ⟨hrom, hbegun, hkind, by rw [hoff]; rfl⟩

theorem warmStart_runs (hrom : s.boot.phase = .rom) (hbegun : s.boot.begun = true) (hoff : s.boot.off = false)
    (hkind : s.boot.kind = 2) : exec (.warmStart env) s = .next (started s env true) := by
  change execWarmStart env s = _
  unfold execWarmStart
  rw [if_neg (show s.boot.phase ≠ .entry by rw [hrom]; decide)]
  exact if_pos ⟨hrom, hbegun, hkind, by rw [hoff]; rfl⟩

theorem warmStart_ends_entry (hentry : s.boot.phase = .entry) (hoff : s.boot.off = false) :
    exec (.warmStart env) s = .next (started (finishEntry s true) env true) := by
  obtain ⟨led, ms, hboot⟩ := finishEntry_boot (s := s) (save := true)
  change execWarmStart env s = _
  unfold execWarmStart
  rw [if_pos hentry]
  refine if_pos ?_
  rw [hboot]
  exact ⟨rfl, rfl, rfl, by rw [hoff]; rfl⟩

theorem coldStart_ignored (h : s.boot.phase ≠ .rom ∨ s.boot.begun = false) : exec (.coldStart env) s = .next s := by
  refine if_neg ?_
  rintro ⟨hrom, hbegun, -⟩
  rcases h with h | h
  · exact h hrom
  · simp [h] at hbegun

/-! ## READY (R687) -/

theorem startReady_readies (hphase : s.boot.phase = .restore) (hpeat : s.pwr.peat ≠ .ramp) (hloss : s.pwr.powerLoss = false) :
    Nexts (exec .startReady s) (fun t => t.boot.phase = .ready ∧ t.boot.begun = false ∧ t.boot.sbReady = true ∧
      t.boot.wdt = some s.now ∧ (eff s Reg.FED_NODE_CFG 31 31 = 1 → t.jct.joined = true)) := by
  let lit := setBoot s { s.boot with
    phase := .ready, begun := false, mark := 0, sbReady := true, readyAt := s.now, readyMs := sumMs s.boot.phaseMs, wdt := some s.now }
  let joined := fedJoin (takeCandidate lit)
  let resumed := resumeSecures (joined.ftl.secures.foldl (fun s x => secureBegin s x [] []) joined)
  obtain ⟨hboot, hjoined, -⟩ : SameStart joined resumed :=
    SameStart.after (SameStart.resumeSecures _) (SameStart.foldl (fun t x => SameStart.secureBegin t x [] []) (SameStart.refl _))
  have hlit : joined.boot = lit.boot := by rw [(fedJoin_keeps _).boot rfl, (takeCandidate_keeps _).boot rfl]
  refine ⟨record resumed 0x0001 sevFree 0 0xFF 0 (natLe 1 s.boot.cause ++ natLe 1 s.boot.kind ++
    (List.range 7).flatMap (fun p => natLe 2 (min 65535 (s.boot.phaseMs.getD p 0)))), if_neg (by simp [hphase, hpeat, hloss]), ?_⟩
  beta_reduce
  rw [(record_keeps ..).boot rfl, (record_keeps ..).jct rfl, hboot, hjoined, hlit]
  refine ⟨rfl, rfl, rfl, rfl, fun hon => ?_⟩
  have hregs : (takeCandidate lit).regs = s.regs := (takeCandidate_keeps _).regs rfl
  have heff : eff (takeCandidate lit) Reg.FED_NODE_CFG 31 31 = 1 := by rw [eff_congr hregs, hon]
  exact congrArg (fun t : State => t.jct.joined) (if_pos heff)

theorem startReady_waits (h : s.boot.phase ≠ .restore ∨ s.pwr.peat = .ramp) : exec .startReady s = .next s :=
  if_pos (by rcases h with h | h <;> simp [h])

/-! ## PERST (R222, R680, R683) -/

/-- The device with the pin of port `port` noted. -/
def perstNoted (s : State) (port : Nat) : State :=
  setBoot s { s.boot with perst := if port = 0 then (true, s.boot.perst.2) else (s.boot.perst.1, true) }

theorem perstNoted_notes : { perstNoted s port with boot := { (perstNoted s port).boot with perst := s.boot.perst } } = s ∧
    (if port = 0 then (perstNoted s port).boot.perst.1 else (perstNoted s port).boot.perst.2) = true := by
  refine ⟨rfl, ?_⟩
  unfold perstNoted
  split <;> simp [*]

theorem perstAssert_of_off (hoff : s.boot.off = true) : exec (.perstAssert port) s = .next (perstNoted s port) := if_pos hoff

theorem perstAssert_held (hoff : s.boot.off = false) (hhold : s.pwr.thermHold = true) (htemp : 100 ≤ s.pwr.tModel) :
    exec (.perstAssert port) s = .next (perstNoted s port) := by
  have hon : ¬s.boot.off = true := by rw [hoff]; decide
  change execPerstAssert port s = _
  unfold execPerstAssert
  extract_lets _ noted
  rw [if_neg (show ¬noted.boot.off = true from hon), if_pos (show noted.pwr.thermHold = true from hhold)]
  exact if_neg fun h => absurd h.1 (by change ¬s.pwr.tModel < 100; omega)

theorem perstAssert_restarts (hoff : s.boot.off = false) (hvin : s.boot.vinOk = true) (hhold : s.pwr.thermHold = true)
    (htemp : s.pwr.tModel < 100) (hstep : s.pwr.flushStep = 8) : Nexts (exec (.perstAssert port) s) (fun t =>
      t.boot.phase = .rom ∧ t.boot.kind = 2 ∧ t.boot.cause = 0x13 ∧ t.pwr.thermHold = false ∧ t.pwr.powerLoss = false) := by
  have hon : ¬s.boot.off = true := by rw [hoff]; decide
  let image := setFtl (perstNoted s port) { s.ftl with warmImage := none }
  let powered := setPwr image { s.pwr with
    thermHold := false, powerLoss := false, flushStep := 0, holdupEn := false, rbGate := true, chgEn := false }
  let ramped := if s.pwr.peat = .holdup then enterRamp powered else powered
  have hrun : exec (.perstAssert port) s = .next (toRom (setBoot ramped { ramped.boot with entryMs := 0 }) 2 0x13) := by
    change execPerstAssert port s = _
    unfold execPerstAssert
    extract_lets _ noted
    rw [if_neg (show ¬noted.boot.off = true from hon), if_pos (show noted.pwr.thermHold = true from hhold)]
    exact if_pos ⟨htemp, hstep, hvin⟩
  have hpwr : ramped.pwr.thermHold = false ∧ ramped.pwr.powerLoss = false := by
    unfold ramped
    split
    · exact ⟨rfl, rfl⟩
    · exact ⟨rfl, rfl⟩
  exact ⟨_, hrun, rfl, rfl, rfl, hpwr⟩

theorem perstAssert_resets (hoff : s.boot.off = false) (hhold : s.pwr.thermHold = false) (hloss : s.pwr.powerLoss = false)
    (hport : portExists s port = true) (hready : s.boot.phase = .ready) : Nexts (exec (.perstAssert port) s) (fun t =>
      (linkOf t port).up = false ∧ (ctrlOf t port).aer = [] ∧ (ctrlOf t port).cc = 0) := by
  have hon : ¬s.boot.off = true := by rw [hoff]; decide
  have hrun : exec (.perstAssert port) s = .next (linkLost (perstNoted s port) port) := by
    change execPerstAssert port s = _
    unfold execPerstAssert
    extract_lets _ noted
    have hexists : portExists noted port = true := hport
    have hpower : noted.pwr = s.pwr := rfl
    rw [if_neg (show ¬noted.boot.off = true from hon), if_neg (by rw [hpower, hhold]; decide),
      if_neg (by rw [hpower, hloss, hexists]; decide)]
    exact if_pos hready
  obtain ⟨hlink, haer, hcc⟩ := linkLost_resets (s := perstNoted s port) hport
  exact ⟨_, hrun, by rw [hlink], haer, hcc⟩

theorem perstRelease_notes : Nexts (exec (.perstRelease port) s) (fun t => { t with boot := { t.boot with perst := s.boot.perst } } = s ∧
    (if port = 0 then t.boot.perst.1 else t.boot.perst.2) = false) := by
  refine ⟨_, rfl, rfl, ?_⟩
  split <;> simp [*]

end

/-- Settles O53, clause by clause: the entry, power on, the phases, READY and PERST. -/
theorem startsBeginRunTheirPhasesAndReachReady : Obligations.StartsBeginRunTheirPhasesAndReachReady := by
  intro s env port b enters triggers ends keeps
  refine ⟨fun ⟨hoff, hloss, hready⟩ => ⟨_, rfl, beginEntry_entered hoff hloss hready⟩,
    fun ⟨hoff, hloss, hready⟩ hwdt => ⟨_, if_pos hwdt, beginEntry_entered hoff hloss hready⟩, fun h => ⟨?_, ?_⟩, fun h => ?_,
    entryCutoff_reaches_rom, fun h => if_neg h, powerOn_begins, powerOn_held, powerOn_ignored, fun hrom hbegun hoff => ⟨fun hkind => ?_,
      fun hkind => ?_⟩, fun hentry hoff => ⟨_, warmStart_ends_entry hentry hoff, started_ends⟩, coldStart_ignored, startReady_readies,
    startReady_waits, fun hoff => ⟨_, perstAssert_of_off hoff, perstNoted_notes⟩, perstAssert_restarts,
    fun hoff hhold htemp => ⟨_, perstAssert_held hoff hhold htemp, rfl⟩, perstAssert_resets, perstRelease_notes⟩
  · exact congrArg Host.Outcome.next (beginEntry_elsewhere h)
  · change execWatchdogExpire s = _
    rw [execWatchdogExpire, beginEntry_elsewhere h, ite_self]
  · exact if_neg (by rw [h]; decide)
  · exact ⟨_, coldStart_runs hrom hbegun hoff hkind, started_ends, started_kept, started_cold_cycles⟩
  · exact ⟨_, warmStart_runs hrom hbegun hoff hkind, started_ends, started_kept, started_warm_cycles, started_warm_count⟩

end Sys2Proof.Machine
end


section
/-! O56 fails: a context's key is 16 times the ticket's tag plus its step, so that on a line of more than 16 steps two tickets share
one; the first revocation of a drain timeout then hides the second ticket from it. -/

namespace Sys2Proof.Machine

/-- A line of 18 digest steps. -/
def longLine : Line where
  steps := List.replicate 18 { sel := 0, target := 144, scale := 0, mode := 0 }

/-- A ticket of that line, in unit 144 at step `j`. -/
def longEntry (j : Nat) : Entry where
  t := { inst := 0, line := 0, len := 4096 }
  sub := .device
  admitted := 1
  units := [(j, 144)]

/-- Unit 144 drains; ticket 1 is inside at its step 16 and ticket 2 at its step 0, where both have the context of key 32. -/
def sharedContext : State where
  cfg := { lines := [(0, longLine)] }
  sbx := { store := [(1, longEntry 16), (2, longEntry 0)] }
  stn := { ctx := [(32, { inBytes := 1 })] }
  tst := { inTest := [{ unit := 144, cause := 1, draining := true }] }

theorem insideOf_sharedContext : insideOf sharedContext 144 = [1, 2] := by decide

/-- The drain timeout leaves ticket 2 as it was. -/
theorem testDrainTimeout_sharedContext : ∃ t, exec (.testDrainTimeout 144) sharedContext = .next t ∧
    entryOf t 2 = some (longEntry 0) :=
  ⟨_, rfl, by decide⟩

/-- Refutes O56: its clause on the drain timeout revokes every ticket inside, and the model misses the second of two that share a
context. -/
theorem not_unitsAreTestedAndInjectionsBeginAndEnd : ¬ Obligations.UnitsAreTestedAndInjectionsBeginAndEnd := by
  intro h
  obtain ⟨-, -, -, -, -, hdrain, -⟩ := h sharedContext { unit := 144, cause := 0 } 144 0 0 0 0 0 0 false false
    { unit := 144, cause := 1, draining := true } { kind := 0, target := 0, param := 0, count := 0, windowUs := 0 } [] []
  obtain ⟨t, hrun, hrevoked, -⟩ := hdrain rfl rfl rfl
  obtain ⟨u, hrun', hleft⟩ := testDrainTimeout_sharedContext
  obtain rfl : t = u := Host.Outcome.next.inj (hrun.symm.trans hrun')
  exact absurd (hrevoked 2 (by rw [insideOf_sharedContext]; decide) _ hleft) (by decide)

end Sys2Proof.Machine
end


section
/-! O48 and O45 fail. The drain timeout of a withdrawal revokes what is inside as that of a test does, so the shared context of O56
hides a ticket from it too. A table of key slots may list one key twice, and a crypto erase then asks for a slot that is PENDING. -/

namespace Sys2Proof.Machine

/-! ## O48 -/

/-- Unit 144, dedicated, is being given back by tenant 1. -/
def givenBack : TenReq where
  op := 8
  inst := 1
  unit := 144
  stage := 1

/-- Unit 144 drains for that request; ticket 1 is inside at its step 16 and ticket 2 at its step 0, where both have the context of
key 32. -/
def sharedWithdrawal : State := { sharedContext with tst := {}, ten := { reqs := [givenBack] } }

theorem insideOf_sharedWithdrawal : insideOf sharedWithdrawal 144 = [1, 2] := by decide

/-- The drain timeout leaves ticket 2 as it was. -/
theorem withdrawDrainTimeout_sharedWithdrawal : ∃ t, exec (.withdrawDrainTimeout 144) sharedWithdrawal = .next t ∧
    entryOf t 2 = some (longEntry 0) :=
  ⟨_, rfl, by decide⟩

/-- Refutes O48: its clause on the drain timeout revokes every ticket inside, and the model misses the second of two that share a
context. -/
theorem not_tenancyRequestsGiveAndTakeUnits : ¬ Obligations.TenancyRequestsGiveAndTakeUnits := by
  intro h
  obtain ⟨-, -, -, hdrain, -⟩ := h sharedWithdrawal givenBack 0 false 144 [] none
  obtain ⟨t, hrun, hrevoked⟩ := hdrain rfl (.inl ⟨by decide, by decide, rfl, rfl⟩)
  obtain ⟨u, hrun', hleft⟩ := withdrawDrainTimeout_sharedWithdrawal
  obtain rfl : t = u := Host.Outcome.next.inj (hrun.symm.trans hrun')
  exact absurd (hrevoked 2 (by rw [insideOf_sharedWithdrawal]; decide) _ hleft) (by decide)

/-! ## O45 -/

/-- Sanitize with a crypto erase, as a submission queue entry. -/
def cryptoErase : Bytes := patch (natLe 64 0x84) 40 (natLe 4 4)

/-- Slot 5 is listed twice: PENDING, which is how it reads, and LOADED. The crypto erase waits at the front of the admin queue of a
controller that is served. -/
def slotTwice : State where
  boot := { phase := .ready }
  hif := { ctrls := [(0, { cc := 1, sqs := [(0, { fetched := [(0, cryptoErase)] })] })] }
  key := { slots := [(5, { state := .pending }), (5, { state := .loaded })] }

/-- The crypto erase asks the key store for nothing. -/
theorem sanitize_slotTwice : ∃ t, exec (.sanitize 0) slotTwice = .next t ∧ t.key.reqs = [] :=
  ⟨_, rfl, by decide⟩

/-- Refutes O45: its last clause has the key store asked to erase every slot listed as LOADED, and the model asks for none that
reads as PENDING. -/
theorem not_nvmeAdminDataFeaturesAndNamespacesAct : ¬ Obligations.NvmeAdminDataFeaturesAndNamespacesAct := by
  intro h
  obtain ⟨-, -, -, -, -, -, -, -, -, -, -, -, -, -, hcrypto⟩ := h slotTwice 0 0 0 0 0 0 cryptoErase [] [] { base := 0, units := 0 }
    { line := 0, ns := 0, first := 0, bytes := 0 } []
  obtain ⟨t, hrun, hasked⟩ := hcrypto ⟨⟨rfl, by decide, by decide⟩, by decide⟩ (by decide) (by decide) (by decide)
  obtain ⟨u, hrun', hnone⟩ := sanitize_slotTwice
  obtain rfl : t = u := Host.Outcome.next.inj (hrun.symm.trans hrun')
  exact absurd (hasked.symm.trans hnone) (by decide)

end Sys2Proof.Machine
end


section
/-! SUPPORT. What a completion and a controller's own change leave of the controllers (16_host_interface.md, R564, R572). -/

namespace Sys2Proof.Machine

section
variable {s u : State} {k c c' q sq cid idx st dw0 dw1 nsid dev unit id : Nat} {e : Bytes} {y : NCmd}
  {rest : List (Nat × Bytes)}

/-! ## A completion -/

/-- `x` once a completion has been put into its completion queue `n`. -/
def posted (x : NCtrl) (n : Nat) (k : NCq) (errors : List Bytes) (count : Nat) : NCtrl :=
  { x with cqs := Tab.set x.cqs n k, errors := errors, errCount := count }

theorem postCqe_hif (h : s.sbx.flushMode = false) : ∃ k errors n msix, (postCqe s c sq cid st dw0 dw1 nsid dev unit).hif =
    { s.hif with ctrls := Tab.set s.hif.ctrls c (posted (ctrlOf s c) (sqOf s c sq).cq k errors n), msix := msix } := by
  rw [postCqe, if_neg (by simp [h])]
  extract_lets x queue k written x' wrap errs _ lit done
  have hwritten : written.hif = s.hif := (hostWrite_keeps ..).hif rfl
  have hx : x' = ctrlOf s c := ctrlOf_congr hwritten c
  have hlit : lit.hif = s.hif := hwritten
  have hdone : done.hif = { lit.hif with ctrls := Tab.set lit.hif.ctrls c (posted x' queue.cq
      { k with tail := if wrap then 0 else k.tail + 1, phase := if wrap then !k.phase else k.phase } errs
      (if st % 65536 = 0 then x'.errCount else x'.errCount + 1)) } := rfl
  rw [hlit, hx] at hdone
  clear_value done
  split
  · next v _ => exact ⟨_, _, _, _, congrArg (fun f : Hif => { f with msix := done.hif.msix ++ [(c, v)] }) hdone⟩
  · exact ⟨_, _, _, _, hdone⟩

theorem ctrlOf_postCqe_same (h : s.sbx.flushMode = false) : ∃ k errors n,
    ctrlOf (postCqe s c sq cid st dw0 dw1 nsid dev unit) c = posted (ctrlOf s c) (sqOf s c sq).cq k errors n := by
  obtain ⟨k, errors, n, msix, hhif⟩ := postCqe_hif (c := c) (sq := sq) (cid := cid) (st := st) (dw0 := dw0) (dw1 := dw1)
    (nsid := nsid) (dev := dev) (unit := unit) h
  exact ⟨k, errors, n, by rw [ctrlOf, hhif]; exact Tab.getD_set_same ..⟩

theorem ctrlOf_postCqe_other (h : c' ≠ c) : ctrlOf (postCqe s c sq cid st dw0 dw1 nsid dev unit) c' = ctrlOf s c' := by
  cases hf : s.sbx.flushMode with
  | true => rw [postCqe, if_pos hf]
  | false =>
    obtain ⟨k, errors, n, msix, hhif⟩ := postCqe_hif (c := c) (sq := sq) (cid := cid) (st := st) (dw0 := dw0) (dw1 := dw1)
      (nsid := nsid) (dev := dev) (unit := unit) hf
    rw [ctrlOf, hhif]
    exact (Tab.getD_set_other _ _ _ h)

theorem cmds_postCqe : (postCqe s c sq cid st dw0 dw1 nsid dev unit).hif.cmds = s.hif.cmds := by
  cases hf : s.sbx.flushMode with
  | true => rw [postCqe, if_pos hf]
  | false =>
    obtain ⟨k, errors, n, msix, hhif⟩ := postCqe_hif (c := c) (sq := sq) (cid := cid) (st := st) (dw0 := dw0) (dw1 := dw1)
      (nsid := nsid) (dev := dev) (unit := unit) hf
    rw [hhif]

theorem miReply_postCqe : (postCqe s c sq cid st dw0 dw1 nsid dev unit).hif.miReply = s.hif.miReply := by
  cases hf : s.sbx.flushMode with
  | true => rw [postCqe, if_pos hf]
  | false =>
    obtain ⟨k, errors, n, msix, hhif⟩ := postCqe_hif (c := c) (sq := sq) (cid := cid) (st := st) (dw0 := dw0) (dw1 := dw1)
      (nsid := nsid) (dev := dev) (unit := unit) hf
    rw [hhif]

/-- What a completion leaves of a controller. -/
theorem ctrlOf_cqe {α : Type} (f : NCtrl → α) (hf : ∀ x n k errors count, f (posted x n k errors count) = f x) :
    f (ctrlOf (cqe u y st dw0 dw1) c) = f (ctrlOf u c) := by
  rw [cqe]
  by_cases h : c = y.ctrl
  · subst h
    cases hflush : u.sbx.flushMode with
    | true => rw [postCqe, if_pos hflush]
    | false =>
      obtain ⟨k, errors, n, hctrl⟩ := ctrlOf_postCqe_same (c := y.ctrl) (sq := y.sq) (cid := y.cid) (st := st) (dw0 := dw0)
        (dw1 := dw1) (nsid := y.nsid) (dev := 0) (unit := 0xFF) hflush
      rw [hctrl, hf]
  · rw [ctrlOf_postCqe_other h]

theorem sqs_cqe : (ctrlOf (cqe u y st dw0 dw1) c).sqs = (ctrlOf u c).sqs := ctrlOf_cqe NCtrl.sqs fun _ _ _ _ _ => rfl

theorem aer_cqe : (ctrlOf (cqe u y st dw0 dw1) c).aer = (ctrlOf u c).aer := ctrlOf_cqe NCtrl.aer fun _ _ _ _ _ => rfl

theorem queues_cqe : (ctrlOf (cqe u y st dw0 dw1) c).queues = (ctrlOf u c).queues :=
  ctrlOf_cqe NCtrl.queues fun _ _ _ _ _ => rfl

theorem cmds_cqe : (cqe u y st dw0 dw1).hif.cmds = u.hif.cmds := cmds_postCqe

theorem miReply_cqe : (cqe u y st dw0 dw1).hif.miReply = u.hif.miReply := miReply_postCqe

/-- A completion leaves every completion queue but its own as it was, and lists no queue less. -/
theorem cqs_cqe : ∀ id, ((sqOf u c y.sq).cq ≠ id → Tab.get? (ctrlOf (cqe u y st dw0 dw1) c).cqs id = Tab.get? (ctrlOf u c).cqs id) ∧
    ((Tab.get? (ctrlOf u c).cqs id).isSome = true → (Tab.get? (ctrlOf (cqe u y st dw0 dw1) c).cqs id).isSome = true) := by
  intro id
  rw [cqe]
  by_cases h : c = y.ctrl
  · subst h
    cases hflush : u.sbx.flushMode with
    | true => rw [postCqe, if_pos hflush]; exact ⟨fun _ => rfl, fun h => h⟩
    | false =>
      obtain ⟨k, errors, n, hctrl⟩ := ctrlOf_postCqe_same (c := y.ctrl) (sq := y.sq) (cid := y.cid) (st := st) (dw0 := dw0)
        (dw1 := dw1) (nsid := y.nsid) (dev := 0) (unit := 0xFF) hflush
      rw [hctrl, posted]
      refine ⟨fun h => Tab.get?_set_other _ _ (Ne.symm h), fun h => ?_⟩
      rw [Tab.get?_set]
      split
      · rfl
      · exact h
  · rw [ctrlOf_postCqe_other h]
    exact ⟨fun _ => rfl, fun h => h⟩

/-! ## The command taken -/

theorem cqs_cmdTaken : (ctrlOf (cmdTaken s c q idx rest) c).cqs = (ctrlOf s c).cqs := by rw [ctrlOf_cmdTaken]

theorem get?_sqs_cmdTaken (h : k ≠ q) :
    Tab.get? (ctrlOf (cmdTaken s c q idx rest) c).sqs k = Tab.get? (ctrlOf s c).sqs k := by
  rw [ctrlOf_cmdTaken]
  exact Tab.get?_set_other _ _ h

theorem sqOf_cmdTaken_other (h : k ≠ q) : sqOf (cmdTaken s c q idx rest) c k = sqOf s c k := by
  rw [sqOf, sqOf, Tab.getD, get?_sqs_cmdTaken h, ← Tab.getD]

theorem queueLimit_cmdTaken : queueLimit (cmdTaken s c q idx rest) c = queueLimit s c := by
  rw [queueLimit, queueLimit, ctrlOf_cmdTaken]

theorem cmdOf_cmdTaken {cid : Nat} : cmdOf (cmdTaken s c q idx rest) c' sq cid = cmdOf s c' sq cid := rfl

/-! ## Changes before the completion -/

theorem port_hostWrite {p i a : Nat} {bs : Bytes} : (instOf (hostWrite s p i a bs) k).port = (instOf s k).port := by
  rw [hostWrite]
  split
  · rfl
  · split
    · rfl
    · rw [hostRaw, instOf, setInst]
      dsimp only
      rw [Tab.getD_set]
      split
      · next h => rw [h]
      · rfl

namespace Fetched

/-- The controller itself is replaced, and the queues of the completion stay. -/
theorem setCtrl {x : NCtrl} (h : Fetched s u c q idx) (hsq : Tab.getD x.sqs q {} = sqOf u c q)
    (hring : Tab.getD x.cqs (sqOf s c q).cq {} = Tab.getD (ctrlOf u c).cqs (sqOf s c q).cq {}) :
    Fetched s (setCtrl u c x) c q idx where
  head := by rw [sqOf, ctrlOf_setCtrl_same, hsq]; exact h.head
  cq := by rw [sqOf, ctrlOf_setCtrl_same, hsq]; exact h.cq
  ring := by rw [ctrlOf_setCtrl_same, hring]; exact h.ring
  flush := h.flush
  tdi := h.tdi
  port := h.port

/-- Another controller is replaced. -/
theorem setCtrl_other {x : NCtrl} (h : Fetched s u c q idx) (hc : c ≠ c') : Fetched s (Machine.setCtrl u c' x) c q idx :=
  h.congr (ctrlOf_setCtrl_other u x hc) rfl rfl rfl

/-- The host interface changes but in its controllers. -/
theorem setHif {f : Hif} (h : Fetched s u c q idx) (hf : f.ctrls = u.hif.ctrls) : Fetched s (setHif u f) c q idx :=
  h.congr (by rw [ctrlOf, ctrlOf, Machine.setHif, hf]) rfl rfl rfl

/-- Data goes to host memory. -/
theorem hostWrite {p i a : Nat} {bs : Bytes} (h : Fetched s u c q idx) : Fetched s (hostWrite u p i a bs) c q idx :=
  h.congr (ctrlOf_congr ((hostWrite_keeps ..).hif rfl) c) (congrArg Sbx.flushMode ((hostWrite_keeps ..).sbx rfl))
    (congrArg Tru.tdi ((hostWrite_keeps ..).tru rfl)) (by rw [ctrlPort, ctrlPort, port_hostWrite])

theorem putPieces {l : List (Nat × Nat)} {bs : Bytes} (h : Fetched s u c q idx) : Fetched s (putPieces u c' l bs) c q idx := by
  induction l generalizing u bs with
  | nil => exact h
  | cons p l ih =>
    rw [Machine.putPieces]
    split
    · exact h
    · exact ih h.hostWrite

theorem hostPut {bs : Bytes} (h : Fetched s u c q idx) : Fetched s (hostPut u y bs) c q idx := h.putPieces

/-- The completion of the command leaves every completion queue but its own as it was. -/
theorem cqs (h : Fetched s u c q idx) (hid : id ≠ (sqOf s c q).cq) :
    Tab.get? (ctrlOf (cqe u (cmdRec c q idx e) st dw0 dw1) c).cqs id = Tab.get? (ctrlOf u c).cqs id :=
  (cqs_cqe id).1 (by rw [show (cmdRec c q idx e).sq = q from rfl, h.cq]; exact Ne.symm hid)

end Fetched

end
end Sys2Proof.Machine
end


section
/-! SUPPORT and O44. Queues, Abort, Virtualization Management, NVMe-MI, resets and links (16_host_interface.md, R559 to R584). -/

namespace Sys2Proof.Machine

section
variable {s : State} {c q idx k id n tail : Nat} {e : Bytes} {rest : List (Nat × Bytes)}

/-! ## Queues (R564, R565) -/

theorem sqDoorbell_fetches {es : List Bytes} {ide : Option Nat} (hruns : ctrlRuns s c = true)
    (htravels : mmioTravels s (if 2 ≤ c then some (ctrlInst c) else none) ide = true) (htail : tail < (sqOf s c q).size) :
    Nexts (exec (.sqDoorbell ⟨c, ide⟩ q tail es) s) (fun t => (sqOf t c q).tail = tail ∧
      (sqOf t c q).fetched = (sqOf s c q).fetched ++
        (List.range ((tail + (sqOf s c q).size - (sqOf s c q).tail) % (sqOf s c q).size)).map (fun i =>
          (((sqOf s c q).tail + i) % (sqOf s c q).size, fit 64 (es.getD i [])))) := by
  change Nexts (execSqDoorbell ⟨c, ide⟩ q tail es s) _
  rw [execSqDoorbell]
  dsimp only
  rw [htravels, hruns, if_neg (by decide), if_neg (by omega), if_neg (by omega)]
  exact ⟨_, rfl, by rw [sqOf, setSq, ctrlOf_setCtrl_same]; dsimp only; rw [Tab.getD_set_same],
    by rw [sqOf, setSq, ctrlOf_setCtrl_same]; dsimp only; rw [Tab.getD_set_same]⟩

/-- Taking a command from queue 0 brings no completion queue into use. -/
theorem any_cq_cmdTaken {id : Nat} (hadmin : (sqOf s c 0).cq = 0) (hid : id ≠ 0) :
    (ctrlOf (cmdTaken s c 0 idx rest) c).sqs.any (fun p => p.2.cq == id) = true →
      ∃ p ∈ (ctrlOf s c).sqs, p.2.cq = id := by
  rw [ctrlOf_cmdTaken, List.any_eq_true]
  rintro ⟨p, hp, hcq⟩
  rw [beq_iff_eq] at hcq
  obtain rfl | hp := Tab.mem_set hp
  · exact absurd (hcq.symm.trans hadmin) hid
  · exact ⟨p, hp, hcq⟩

section
variable (hw : cmdWaits s c 0 idx e rest)
include hw

theorem createIoCq_makes (hop : eOp e = 5) (hid : eDw e 10 % 65536 ≠ 0) (hlimit : eDw e 10 % 65536 ≤ queueLimit s c)
    (hnew : Tab.get? (ctrlOf s c).cqs (eDw e 10 % 65536) = none) (hmin : 2 ≤ eDw e 10 / 65536 + 1)
    (hmax : eDw e 10 / 65536 + 1 ≤ 4096) (hiv : bitOf (eDw e 11) 1 = true → eDw e 11 / 65536 < vectors c)
    (hadmin : (sqOf s c 0).cq = 0) :
    Nexts (exec (.createIoCq c) s) (fun t => completed s t c 0 idx e nOk 0 0 ∧
      Tab.get? (ctrlOf t c).cqs (eDw e 10 % 65536) = some {
        base := leAt e 24 8, size := eDw e 10 / 65536 + 1,
        iv := if bitOf (eDw e 11) 1 then some (eDw e 11 / 65536) else none }) := by
  have hrun : exec (.createIoCq c) s = .next (cqe (setCtrl (cmdTaken s c 0 idx rest) c
      { ctrlOf (cmdTaken s c 0 idx rest) c with
        cqs := Tab.set (ctrlOf (cmdTaken s c 0 idx rest) c).cqs (eDw e 10 % 65536) {
          base := leAt e 24 8, size := eDw e 10 / 65536 + 1,
          iv := if bitOf (eDw e 11) 1 then some (eDw e 11 / 65536) else none } }) (cmdRec c 0 idx e) nOk 0 0) := by
    change execCreateIoCq c s = _
    rw [execCreateIoCq, adminCmd_of_waits hw hop (by simp)]
    dsimp only [cmdRec]
    rw [if_neg (by rw [cqs_cmdTaken, hnew, queueLimit_cmdTaken]; simp; omega), if_neg (by omega), if_neg (fun h => by have := hiv h.1; omega)]
    rfl
  have hmade := (fetched_cmdTaken hw).setCtrl (x := { ctrlOf (cmdTaken s c 0 idx rest) c with
    cqs := Tab.set (ctrlOf (cmdTaken s c 0 idx rest) c).cqs (eDw e 10 % 65536) {
      base := leAt e 24 8, size := eDw e 10 / 65536 + 1,
      iv := if bitOf (eDw e 11) 1 then some (eDw e 11 / 65536) else none } })
    (by rw [sqOf]) (Tab.getD_set_other _ _ _ (by omega))
  exact ⟨_, hrun, hmade.completed, by rw [hmade.cqs (by omega), ctrlOf_setCtrl_same]; exact Tab.get?_set_same ..⟩

theorem createIoSq_makes (hop : eOp e = 1) (hid : eDw e 10 % 65536 ≠ 0) (hlimit : eDw e 10 % 65536 ≤ queueLimit s c)
    (hnew : Tab.get? (ctrlOf s c).sqs (eDw e 10 % 65536) = none) (hmin : 2 ≤ eDw e 10 / 65536 + 1)
    (hmax : eDw e 10 / 65536 + 1 ≤ 4096) (hcq : eDw e 11 / 65536 ≠ 0)
    (hring : (Tab.get? (ctrlOf s c).cqs (eDw e 11 / 65536)).isSome = true) :
    Nexts (exec (.createIoSq c) s) (fun t => completed s t c 0 idx e nOk 0 0 ∧
      Tab.get? (ctrlOf t c).sqs (eDw e 10 % 65536) = some {
        base := leAt e 24 8, size := eDw e 10 / 65536 + 1, cq := eDw e 11 / 65536 }) := by
  have hrun : exec (.createIoSq c) s = .next (cqe (setSq (cmdTaken s c 0 idx rest) c (eDw e 10 % 65536) {
      base := leAt e 24 8, size := eDw e 10 / 65536 + 1, cq := eDw e 11 / 65536 }) (cmdRec c 0 idx e) nOk 0 0) := by
    change execCreateIoSq c s = _
    rw [execCreateIoSq, adminCmd_of_waits hw hop (by simp)]
    dsimp only [cmdRec]
    rw [if_neg (by rw [get?_sqs_cmdTaken hid, hnew, queueLimit_cmdTaken]; simp; omega), if_neg (by omega),
      if_neg (by rw [cqs_cmdTaken]; simp [hcq, Option.isSome_iff_ne_none.mp hring])]
    rfl
  have hmade := (fetched_cmdTaken hw).setCtrl (x := { ctrlOf (cmdTaken s c 0 idx rest) c with
    sqs := Tab.set (ctrlOf (cmdTaken s c 0 idx rest) c).sqs (eDw e 10 % 65536) {
      base := leAt e 24 8, size := eDw e 10 / 65536 + 1, cq := eDw e 11 / 65536 } })
    (Tab.getD_set_other _ _ _ (Ne.symm hid)) rfl
  exact ⟨_, hrun, hmade.completed, by rw [sqs_cqe, setSq, ctrlOf_setCtrl_same]; exact Tab.get?_set_same ..⟩

theorem deleteIoSq_deletes (hop : eOp e = 0) (hid : eDw e 10 % 65536 ≠ 0)
    (hold : (Tab.get? (ctrlOf s c).sqs (eDw e 10 % 65536)).isSome = true) :
    Nexts (exec (.deleteIoSq c) s) (fun t => completed s t c 0 idx e nOk 0 0 ∧
      Tab.get? (ctrlOf t c).sqs (eDw e 10 % 65536) = none ∧ ∀ z ∈ t.hif.cmds, z.ctrl ≠ c ∨ z.sq ≠ eDw e 10 % 65536) := by
  let taken := cmdTaken s c 0 idx rest
  let dropped := setHif taken { taken.hif with
    cmds := taken.hif.cmds.filter (fun z => z.ctrl != c || z.sq != eDw e 10 % 65536) }
  have hrun : exec (.deleteIoSq c) s = .next (cqe (setCtrl dropped c { ctrlOf taken c with
      sqs := Tab.erase (ctrlOf taken c).sqs (eDw e 10 % 65536) }) (cmdRec c 0 idx e) nOk 0 0) := by
    change execDeleteIoSq c s = _
    rw [execDeleteIoSq, adminCmd_of_waits hw hop (by simp)]
    dsimp only [cmdRec]
    rw [if_neg (by rw [get?_sqs_cmdTaken hid]; simp [hid, Option.isSome_iff_ne_none.mp hold])]
    rfl
  have hdropped : Fetched s dropped c 0 idx := (fetched_cmdTaken hw).setHif rfl
  have hdeleted := hdropped.setCtrl (x := { ctrlOf taken c with sqs := Tab.erase (ctrlOf taken c).sqs (eDw e 10 % 65536) })
    (by rw [Tab.getD_erase, if_neg (Ne.symm hid)]; rfl) rfl
  refine ⟨_, hrun, hdeleted.completed, ?_, ?_⟩
  · rw [sqs_cqe, ctrlOf_setCtrl_same]
    exact Tab.get?_erase_same ..
  · intro z hz
    rw [cmds_cqe] at hz
    obtain ⟨-, hkept⟩ := List.mem_filter.mp hz
    simpa [or_iff_not_imp_left] using hkept

theorem deleteIoCq_deletes (hop : eOp e = 4) (hid : eDw e 10 % 65536 ≠ 0)
    (hold : (Tab.get? (ctrlOf s c).cqs (eDw e 10 % 65536)).isSome = true) (hadmin : (sqOf s c 0).cq = 0)
    (hunused : ∀ p ∈ (ctrlOf s c).sqs, p.2.cq ≠ eDw e 10 % 65536) :
    Nexts (exec (.deleteIoCq c) s) (fun t => completed s t c 0 idx e nOk 0 0 ∧
      Tab.get? (ctrlOf t c).cqs (eDw e 10 % 65536) = none) := by
  let taken := cmdTaken s c 0 idx rest
  have hfree : ¬ (ctrlOf taken c).sqs.any (fun p => p.2.cq == eDw e 10 % 65536) = true := fun h =>
    have ⟨p, hp, hcq⟩ := any_cq_cmdTaken hadmin hid h
    hunused p hp hcq
  have hrun : exec (.deleteIoCq c) s = .next (cqe (setCtrl taken c { ctrlOf taken c with
      cqs := Tab.erase (ctrlOf taken c).cqs (eDw e 10 % 65536) }) (cmdRec c 0 idx e) nOk 0 0) := by
    change execDeleteIoCq c s = _
    rw [execDeleteIoCq, adminCmd_of_waits hw hop (by simp)]
    dsimp only [cmdRec]
    rw [if_neg (by rw [cqs_cmdTaken]; simp [hid, Option.isSome_iff_ne_none.mp hold]), if_neg hfree]
    rfl
  have hdeleted := (fetched_cmdTaken hw).setCtrl (x := { ctrlOf taken c with cqs := Tab.erase (ctrlOf taken c).cqs (eDw e 10 % 65536) })
    rfl (by rw [Tab.getD_erase, if_neg (by omega)])
  exact ⟨_, hrun, hdeleted.completed, by rw [hdeleted.cqs (by omega), ctrlOf_setCtrl_same]; exact Tab.get?_erase_same ..⟩

theorem deleteIoCq_refused (hop : eOp e = 4) (hid : eDw e 10 % 65536 ≠ 0)
    (hold : (Tab.get? (ctrlOf s c).cqs (eDw e 10 % 65536)).isSome = true) {j : Nat} {x : NSq} (hj : j ≠ 0)
    (hx : Tab.get? (ctrlOf s c).sqs j = some x) (hcq : x.cq = eDw e 10 % 65536) :
    Nexts (exec (.deleteIoCq c) s) (fun t => completed s t c 0 idx e (nstat 1 0x0C true) 0 0 ∧
      (Tab.get? (ctrlOf t c).cqs (eDw e 10 % 65536)).isSome = true) := by
  have hused : (ctrlOf (cmdTaken s c 0 idx rest) c).sqs.any (fun p => p.2.cq == eDw e 10 % 65536) = true :=
    List.any_eq_true.mpr ⟨(j, x), Tab.mem_of_get? ((get?_sqs_cmdTaken hj).trans hx), beq_iff_eq.mpr hcq⟩
  have hrun : exec (.deleteIoCq c) s = .next (cqe (cmdTaken s c 0 idx rest) (cmdRec c 0 idx e) (nstat 1 0x0C true) 0 0) := by
    change execDeleteIoCq c s = _
    rw [execDeleteIoCq, adminCmd_of_waits hw hop (by simp)]
    dsimp only [cmdRec]
    rw [if_neg (by rw [cqs_cmdTaken]; simp [hid, Option.isSome_iff_ne_none.mp hold]), if_pos hused]
  exact ⟨_, hrun, (fetched_cmdTaken hw).completed, (cqs_cqe _).2 (by rw [cqs_cmdTaken]; exact hold)⟩

theorem queueZero_refused {i : Instr × Nat}
    (hi : i ∈ [(Instr.createIoCq c, 5), (Instr.createIoSq c, 1), (Instr.deleteIoSq c, 0), (Instr.deleteIoCq c, 4)])
    (hop : eOp e = i.2) (hid : eDw e 10 % 65536 = 0) :
    Nexts (exec i.1 s) (fun t => completed s t c 0 idx e (nstat 1 1 true) 0 0) := by
  refine ⟨cqe (cmdTaken s c 0 idx rest) (cmdRec c 0 idx e) (nstat 1 1 true) 0 0, ?_, (fetched_cmdTaken hw).completed⟩
  simp only [List.mem_cons, List.not_mem_nil, or_false] at hi
  obtain rfl | rfl | rfl | rfl := hi
  · change execCreateIoCq c s = _
    rw [execCreateIoCq, adminCmd_of_waits hw hop (by simp)]
    exact congrArg Host.Outcome.next (if_pos (.inl hid))
  · change execCreateIoSq c s = _
    rw [execCreateIoSq, adminCmd_of_waits hw hop (by simp)]
    exact congrArg Host.Outcome.next (if_pos (.inl hid))
  · change execDeleteIoSq c s = _
    rw [execDeleteIoSq, adminCmd_of_waits hw hop (by simp)]
    exact congrArg Host.Outcome.next (if_pos (.inl hid))
  · change execDeleteIoCq c s = _
    rw [execDeleteIoCq, adminCmd_of_waits hw hop (by simp)]
    exact congrArg Host.Outcome.next (if_pos (.inl hid))

/-! ## Events and Abort (R565, R572) -/

theorem asynchronousEventRequest_waits (hop : eOp e = 0x0C) (hroom : (ctrlOf s c).aer.length < 8) :
    Nexts (exec (.asynchronousEventRequest c) s) (fun t =>
      (ctrlOf t c).aer = (ctrlOf s c).aer ++ [leAt e 2 2] ∧ t.host = s.host) := by
  let taken := cmdTaken s c 0 idx rest
  have haer : (ctrlOf taken c).aer = (ctrlOf s c).aer := by rw [ctrlOf_cmdTaken]
  have hrun : exec (.asynchronousEventRequest c) s = .next (setCtrl taken c { ctrlOf taken c with
      aer := (ctrlOf taken c).aer ++ [leAt e 2 2] }) := by
    change execAsynchronousEventRequest c s = _
    rw [execAsynchronousEventRequest, adminCmd_of_waits hw hop (by simp)]
    exact congrArg Host.Outcome.next (if_neg (by rw [haer]; omega))
  exact ⟨_, hrun, by rw [ctrlOf_setCtrl_same, haer], rfl⟩

theorem asynchronousEventRequest_refused (hop : eOp e = 0x0C) (hfull : 8 ≤ (ctrlOf s c).aer.length) :
    Nexts (exec (.asynchronousEventRequest c) s) (fun t => completed s t c 0 idx e (nstat 1 5 true) 0 0) := by
  have haer : (ctrlOf (cmdTaken s c 0 idx rest) c).aer = (ctrlOf s c).aer := by rw [ctrlOf_cmdTaken]
  refine ⟨_, ?_, (fetched_cmdTaken hw).completed⟩
  change execAsynchronousEventRequest c s = _
  rw [execAsynchronousEventRequest, adminCmd_of_waits hw hop (by simp)]
  exact congrArg Host.Outcome.next (if_pos (by rw [haer]; exact hfull))

theorem abort_removes (hop : eOp e = 8) (hid : eDw e 10 % 65536 ≠ 0)
    (hthere : (sqOf s c (eDw e 10 % 65536)).fetched.any (fun p => leAt p.2 2 2 == eDw e 10 / 65536) = true) :
    Nexts (exec (.abort c) s) (fun t =>
      (sqOf t c (eDw e 10 % 65536)).fetched =
        dropFirst (fun p => leAt p.2 2 2 == eDw e 10 / 65536) (sqOf s c (eDw e 10 % 65536)).fetched ∧
      live t Reg.HIF_COUNTS2 15 0 = satAdd 16 (live s Reg.HIF_COUNTS2 15 0) 1) := by
  let taken := cmdTaken s c 0 idx rest
  let x := sqOf s c (eDw e 10 % 65536)
  let counted := bump (setSq taken c (eDw e 10 % 65536) { x with
    fetched := dropFirst (fun p => leAt p.2 2 2 == eDw e 10 / 65536) x.fetched }) Reg.HIF_COUNTS2 15 0 1
  let aborted : NCmd := { cmdRec c 0 idx e with sq := eDw e 10 % 65536, cid := eDw e 10 / 65536, nsid := 0 }
  let told := cqe counted aborted (nstat 0 0x07 false) 0 0
  have hrun : exec (.abort c) s = .next (cqe told (cmdRec c 0 idx e) nOk 0 0) := by
    change execAbort c s = _
    rw [execAbort, adminCmd_of_waits hw hop (by simp)]
    dsimp only [cmdRec]
    rw [sqOf_cmdTaken_other hid, if_pos hthere]
    rfl
  have hregs : (cqe told (cmdRec c 0 idx e) nOk 0 0).regs = counted.regs :=
    ((cqe_keeps ..).regs rfl).trans ((cqe_keeps ..).regs rfl)
  refine ⟨_, hrun, ?_, ?_⟩
  · rw [sqOf, sqs_cqe, sqs_cqe]
    change (Tab.getD (ctrlOf (setSq taken c _ _) c).sqs _ _).fetched = _
    rw [setSq, ctrlOf_setCtrl_same]
    dsimp only
    rw [Tab.getD_set_same]
  · rw [live_congr hregs, live_bump_same _ _ _ _ _ (by decide)]
    rfl

theorem abort_misses (hop : eOp e = 8) (hid : eDw e 10 % 65536 ≠ 0)
    (hnot : (sqOf s c (eDw e 10 % 65536)).fetched.any (fun p => leAt p.2 2 2 == eDw e 10 / 65536) = false)
    (hnone : cmdOf s c (eDw e 10 % 65536) (eDw e 10 / 65536) = none) :
    Nexts (exec (.abort c) s) (fun t => completed s t c 0 idx e nOk 1 0) := by
  refine ⟨_, ?_, (fetched_cmdTaken hw).completed⟩
  change execAbort c s = _
  rw [execAbort, adminCmd_of_waits hw hop (by simp)]
  dsimp only [cmdRec]
  rw [sqOf_cmdTaken_other hid, if_neg (by rw [hnot]; decide), cmdOf_cmdTaken, hnone]

/-! ## Virtualization Management and NVMe-MI (R565, R583, R584) -/

theorem virtualizationManagement_gives (hop : eOp e = 0x1C) (hc : c < 2) (hact : eDw e 10 % 16 = 8)
    (hkind : eDw e 10 / 256 % 8 = 0) (hlo : 2 ≤ eDw e 10 / 65536) (hhi : eDw e 10 / 65536 < 513)
    (hoff : (ctrlOf s (eDw e 10 / 65536)).online = false) (hn : eDw e 11 % 65536 ≤ 16) :
    Nexts (exec (.virtualizationManagement c) s) (fun t => completed s t c 0 idx e nOk (eDw e 11 % 65536) 0 ∧
      (ctrlOf t (eDw e 10 / 65536)).queues = eDw e 11 % 65536) := by
  let taken := cmdTaken s c 0 idx rest
  have hother : eDw e 10 / 65536 ≠ c := by omega
  have hvf : ctrlOf taken (eDw e 10 / 65536) = ctrlOf s (eDw e 10 / 65536) := ctrlOf_setCtrl_other s _ hother
  have hrun : exec (.virtualizationManagement c) s = .next (cqe (setCtrl taken (eDw e 10 / 65536)
      { ctrlOf s (eDw e 10 / 65536) with queues := eDw e 11 % 65536 }) (cmdRec c 0 idx e) nOk (eDw e 11 % 65536) 0) := by
    change execVirtualizationManagement c s = _
    rw [execVirtualizationManagement, adminCmd_of_waits hw hop (fun _ => hc)]
    dsimp only [cmdRec]
    rw [hact, hvf]
    exact congrArg Host.Outcome.next ((if_neg (by simp; omega)).trans ((if_neg (by simp [hoff])).trans
      ((if_pos hkind).trans (if_neg (by omega)))))
  exact ⟨_, hrun, ((fetched_cmdTaken hw).setCtrl_other (Ne.symm hother)).completed, by rw [queues_cqe, ctrlOf_setCtrl_same]⟩

end

/-- An answer of NVMe-MI leaves what the completion needs. -/
theorem Fetched.miAnswer {u : State} {op d0 d1 : Nat} (h : Fetched s u c q idx) :
    Fetched s (Machine.miAnswer u op d0 d1).2 c q idx := by
  unfold Machine.miAnswer
  dsimp only
  split
  · exact h.keep (drawn_keeps _)
  · exact h.keep (drawn_keeps _)
  · exact h.keep (drawn_keeps _)
  · exact h.setHif rfl
  · exact h
  · exact h.keep (drawn_keeps _)
  · exact h

section
variable (hw : cmdWaits s c 0 idx e rest)
include hw

theorem nvmeMiSend_answers (hop : eOp e = 0x1D) (hc : c < 2) : Nexts (exec (.nvmeMiSend c) s) (fun t =>
    ∃ a, t.hif.miReply = a ∧ completed s t c 0 idx e nOk (leAt a 0 1) 0) := by
  let r := miAnswer (cmdTaken s c 0 idx rest) (eDw e 11 % 256) (eDw e 12) (eDw e 13)
  have hrun : exec (.nvmeMiSend c) s = .next (cqe (setHif r.2 { r.2.hif with miReply := r.1 }) (cmdRec c 0 idx e) nOk
      (leAt r.1 0 1) 0) := by
    change execNvmeMiSend c s = _
    rw [execNvmeMiSend, adminCmd_of_waits hw hop (fun _ => hc)]
    rfl
  have hr : Fetched s (setHif r.2 { r.2.hif with miReply := r.1 }) c 0 idx := (fetched_cmdTaken hw).miAnswer.setHif rfl
  exact ⟨_, hrun, r.1, miReply_cqe, hr.completed⟩

theorem nvmeMiReceive_answers (hop : eOp e = 0x1E) (hc : c < 2) : Nexts (exec (.nvmeMiReceive c) s) (fun t =>
    ∃ a, t.hif.miReply = a ∧ completed s t c 0 idx e nOk (leAt a 0 1) 0) := by
  let r := miAnswer (cmdTaken s c 0 idx rest) (eDw e 11 % 256) (eDw e 12) (eDw e 13)
  let kept := setHif r.2 { r.2.hif with miReply := r.1 }
  let given := hostPut kept (cmdRec c 0 idx e) (r.1.drop 1)
  have hrun : exec (.nvmeMiReceive c) s = .next (cqe given (cmdRec c 0 idx e) nOk (leAt r.1 0 1) 0) := by
    change execNvmeMiReceive c s = _
    rw [execNvmeMiReceive, adminCmd_of_waits hw hop (fun _ => hc)]
    rfl
  have hkept : Fetched s kept c 0 idx := (fetched_cmdTaken hw).miAnswer.setHif rfl
  have hgiven : given.hif = kept.hif := (hostPut_keeps ..).hif rfl
  exact ⟨_, hrun, r.1, miReply_cqe.trans (congrArg Hif.miReply hgiven), hkept.hostPut.completed⟩

theorem pfCommand_refused {i : Instr × Nat}
    (hi : i ∈ [(Instr.virtualizationManagement c, 0x1C), (Instr.nvmeMiSend c, 0x1D), (Instr.nvmeMiReceive c, 0x1E)])
    (hop : eOp e = i.2) (hc : 2 ≤ c) :
    Nexts (exec i.1 s) (fun t => completed s t c 0 idx e (nstat 0 1 true) 0 0) := by
  have hrefused {op : Nat} {f : State → NCmd → State} (hop : eOp e = op) :
      adminCmd s c op true f = .next (cqe (cmdTaken s c 0 idx rest) (cmdRec c 0 idx e) (nstat 0 1 true) 0 0) := by
    rw [adminCmd, nvmeCmd_of_waits (admin := true) hw rfl (by simpa using hop) (by simp), if_pos ⟨rfl, hc⟩]
    rfl
  refine ⟨cqe (cmdTaken s c 0 idx rest) (cmdRec c 0 idx e) (nstat 0 1 true) 0 0, ?_, (fetched_cmdTaken hw).completed⟩
  simp only [List.mem_cons, List.not_mem_nil, or_false] at hi
  obtain rfl | rfl | rfl := hi
  · change execVirtualizationManagement c s = _
    exact hrefused hop
  · change execNvmeMiSend c s = _
    exact hrefused hop
  · change execNvmeMiReceive c s = _
    exact hrefused hop

end

theorem invalidCommandOpcode_refuses (hw : cmdWaits s c q idx e rest)
    (hop : eOp e ∉ if q = 0 then adminOps c else ioOps) :
    Nexts (exec (.invalidCommandOpcode c q) s) (fun t => completed s t c q idx e (nstat 0 1 true) 0 0) := by
  refine ⟨_, ?_, (fetched_cmdTaken hw).completed⟩
  change execInvalidCommandOpcode c q s = _
  rw [execInvalidCommandOpcode, nvmeCmd_of_waits hw rfl _ (by simp)]
  · rfl
  · by_cases hq : q = 0
    · rw [if_pos hq] at hop ⊢
      simpa using hop
    · rw [if_neg hq] at hop ⊢
      simpa using hop

theorem nvmeMiCommand_keepsAndShows {tr d0 d1 : Nat} (htr : tr = 1 ∨ tr = 2) (hreach : miReaches s tr = true) :
    Nexts (exec (.nvmeMiCommand tr 3 d0 d1 false) s) (fun t => t.hif.miOut = [0#8] ∧
        Tab.get? t.hif.miConf (d0 % 256) = some d1) ∧
      Nexts (exec (.nvmeMiCommand tr 4 d0 d1 false) s) (fun t =>
        t.hif.miOut = [0#8] ++ natLe 4 (Tab.getD s.hif.miConf (d0 % 256) 0)) := by
  have htr0 : tr ≠ 0 := by omega
  have hrun (op : Nat) : exec (.nvmeMiCommand tr op d0 d1 false) s =
      .next (setHif (miAnswer s op d0 d1).2 { (miAnswer s op d0 d1).2.hif with miOut := (miAnswer s op d0 d1).1 }) := by
    change execNvmeMiCommand tr op d0 d1 false s = _
    rw [execNvmeMiCommand, hreach, if_neg (by decide)]
    dsimp only
    rw [if_neg htr0, if_neg (by decide)]
  exact ⟨⟨_, hrun 3, rfl, Tab.get?_set_same ..⟩, ⟨_, hrun 4, rfl⟩⟩

/-! ## Resets and links (R559 to R562) -/

theorem dropController_empties :
    (ctrlOf (dropController s c true) c).sqs = [] ∧ (ctrlOf (dropController s c true) c).cqs = [] ∧
      (ctrlOf (dropController s c true) c).cc = 0 ∧ (ctrlOf (dropController s c true) c).aer = [] ∧
      ∀ z ∈ (dropController s c true).hif.cmds, z.ctrl ≠ c := by
  rw [dropController, ctrlOf_setCtrl_same]
  refine ⟨?_, ?_, rfl, rfl, fun z hz => ?_⟩
  · simp [Tab.keep, Tab.mapVals]
  · simp [Tab.keep, Tab.mapVals]
  · simpa using (List.mem_filter.mp hz).2

theorem functionLevelReset_empties (hc : c < 2) : Nexts (exec (.functionLevelReset c true) s) (fun t =>
    (ctrlOf t c).sqs = [] ∧ (ctrlOf t c).cqs = [] ∧ (ctrlOf t c).cc = 0 ∧ (ctrlOf t c).aer = [] ∧
      ∀ z ∈ t.hif.cmds, z.ctrl ≠ c) :=
  ⟨dropController s c true, congrArg Host.Outcome.next (if_pos hc), dropController_empties⟩

theorem linkDown_resets (hk : portExists s k = true) : Nexts (exec (.linkDown k) s) (fun t =>
    (linkOf t k).up = false ∧ (linkOf t k).width = 0 ∧ (ctrlOf t k).sqs = []) := by
  obtain ⟨hlink, -⟩ := linkLost_resets hk
  refine ⟨linkLost s k, rfl, by rw [hlink], by rw [hlink], ?_⟩
  rw [linkLost, if_pos hk, portReset]
  exact dropController_empties.1

theorem linkRetrain_trains {lanes r : Nat} {b : Bool} (hk : portExists s k = true) (hlanes : lanes ≠ 0) :
    Nexts (exec (.linkRetrain k lanes ⟨r, b⟩) s) (fun t =>
      (linkOf t k).up = true ∧ (linkOf t k).width = widthFor s lanes ∧
      (linkOf t k).rate = min r (min 5 (eff s (Reg.HIF_PORT_CFG + 8 * k) 2 0))) := by
  let x : Link := { linkOf s k with
    l0p := b && bitOf (effWord s (Reg.HIF_PORT_CFG + 8 * k)) 8, up := true, width := widthFor s lanes,
    rate := min r (min 5 (eff s (Reg.HIF_PORT_CFG + 8 * k) 2 0)) }
  have hrun : exec (.linkRetrain k lanes ⟨r, b⟩) s = .next (setLink s k x) := by
    change execLinkRetrain k lanes ⟨r, b⟩ s = _
    rw [execLinkRetrain, hk, if_neg (by decide), if_neg hlanes]
  exact ⟨_, hrun, by rw [linkOf_setLink_same], by rw [linkOf_setLink_same], by rw [linkOf_setLink_same]⟩

end

/-- Settles O44: queues, Abort, Virtualization Management, NVMe-MI, resets and links, clause by clause. -/
theorem nvmeQueuesResetsAndManagementAct : Obligations.NvmeQueuesResetsAndManagementAct := by
  intro s c q tail idx k e rest es ide x d id n ask done
  refine ⟨fun hruns htravels htail => sqDoorbell_fetches hruns htravels htail,
    fun ⟨hw, hop⟩ h0 hl hnew h2 hmax hiv hcq => createIoCq_makes hw hop h0 hl hnew h2 hmax hiv hcq,
    fun ⟨hw, hop⟩ h0 hl hnew h2 hmax hcq hring => createIoSq_makes hw hop h0 hl hnew h2 hmax hcq hring,
    fun ⟨hw, hop⟩ h0 hold => deleteIoSq_deletes hw hop h0 hold,
    fun ⟨hw, hop⟩ h0 hold hcq => ⟨fun hunused => deleteIoCq_deletes hw hop h0 hold hcq hunused,
      fun j y hj hy hused => deleteIoCq_refused hw hop h0 hold hj hy hused⟩,
    fun i hi ⟨hw, hop⟩ h0 => queueZero_refused hw hi hop h0,
    fun ⟨hw, hop⟩ hroom => asynchronousEventRequest_waits hw hop hroom,
    fun ⟨hw, hop⟩ hfull => asynchronousEventRequest_refused hw hop hfull,
    fun ⟨hw, hop⟩ h0 hthere => abort_removes hw hop h0 hthere,
    fun ⟨hw, hop⟩ h0 hnot hnone => abort_misses hw hop h0 hnot hnone,
    fun ⟨hw, hop⟩ hc hact hkind hlo hhi hoff hn => virtualizationManagement_gives hw hop hc hact hkind hlo hhi hoff hn,
    fun ⟨hw, hop⟩ hc => nvmeMiSend_answers hw hop hc, fun ⟨hw, hop⟩ hc => nvmeMiReceive_answers hw hop hc,
    fun i hi ⟨hw, hop⟩ hc => pfCommand_refused hw hi hop hc,
    fun hw hop => invalidCommandOpcode_refuses hw hop, fun hq hw hop => invalidCommandOpcode_refuses hw (by rwa [if_neg hq]),
    fun tr d0 d1 htr hreach => nvmeMiCommand_keepsAndShows htr hreach, functionLevelReset_empties, linkDown_resets,
    fun lanes r b hk hl => linkRetrain_trains hk hl⟩

end Sys2Proof.Machine
end


section
/-! SUPPORT. A command that forms one ticket which the signal box accepts waits for it (16_host_interface.md, R569 to R571). -/

namespace Sys2Proof.Machine

section
variable {s u v : State} {c q sq cid idx tag st : Nat} {e : Bytes} {y : NCmd} {rest : List (Nat × Bytes)} {tk : Ticket} {x : NTodo}

/-! ## What forming a ticket depends on -/

/-- `u` is `s` but for the flash translation and, the bifurcation aside, the host interface. -/
structure SameForm (s u : State) : Prop where
  keeps : Keeps 83886080 s u
  x8x8 : u.hif.x8x8 = s.hif.x8x8

theorem acceptance_congr {bs : Bytes} {allowed : Bool} (h : SameForm s u) : acceptance u bs allowed = acceptance s bs allowed := by
  have hcfg : u.cfg = s.cfg := h.keeps.cfg rfl
  have hdev : u.dev = s.dev := h.keeps.dev rfl
  have hkey : u.key = s.key := h.keeps.key rfl
  have hregs : u.regs = s.regs := h.keeps.regs rfl
  simp only [acceptance, lineOf, portOk, serves, unitOf, aliasTarget, eff, effWord, slotOf, hcfg, hdev, hkey, hregs, h.x8x8]
  rfl

theorem entryFree_congr {i : Nat} (h : SameForm s u) : entryFree u i = entryFree s i := by
  simp only [entryFree, entriesOf, eff, effWord, h.keeps.sbx rfl, h.keeps.regs rfl]
  rfl

theorem lineDefined_congr {l : Nat} (h : SameForm s u) : lineDefined u l = lineDefined s l := by
  rw [lineDefined, lineDefined, lineOf, lineOf, h.keeps.cfg rfl]

theorem notReady_congr {l : Nat} (h : SameForm s u) : notReady u l = notReady s l := by
  rw [notReady, notReady, lineOf, lineOf, h.keeps.cfg rfl, h.keeps.sbx rfl]

theorem instState_congr {i : Nat} (h : SameForm s u) : instState u i = instState s i := by
  rw [instState, instState, h.keeps.ten rfl]

namespace SameForm

theorem mayMake (h : SameForm s u) (hm : mayMake s c tag tk) : mayMake u c tag tk := by
  obtain ⟨hfree, hdef, hready, hacc, hinst⟩ := hm
  exact ⟨(entryFree_congr h).trans hfree, (lineDefined_congr h).trans hdef, (notReady_congr h).trans hready,
    (acceptance_congr h).trans hacc, hinst⟩

theorem cmdTaken : SameForm s (cmdTaken s c q idx rest) := ⟨cmdTaken_keeps.mono rfl, rfl⟩

theorem addCmd (h : SameForm s u) : SameForm s (addCmd u y) := ⟨.via (addCmd_keeps ..) rfl h.keeps, h.x8x8⟩

theorem setCmd {o : Option NCmd} (h : SameForm s u) : SameForm s (setCmd u c q cid o) :=
  ⟨.via (setCmd_keeps ..) rfl h.keeps, h.x8x8⟩

end SameForm

/-- A controller that is served belongs to a tenant that is READY (R604). -/
theorem instState_of_ctrlRuns (h : ctrlRuns s c = true) : instState s (ctrlInst c) = .ready := by
  simp only [ctrlRuns, Bool.and_eq_true, Bool.or_eq_true, decide_eq_true_eq] at h
  obtain ⟨-, hc | ⟨hready, -⟩⟩ := h
  · rw [ctrlInst, if_pos hc]; rfl
  · by_cases hc : c < 2
    · rw [ctrlInst, if_pos hc]; rfl
    · rw [ctrlInst, if_neg hc, instState, if_neg (by omega)]
      exact hready

/-! ## The command that waits -/

theorem cmdOf_addCmd (hnone : cmdOf u y.ctrl y.sq y.cid = none) : cmdOf (addCmd u y) y.ctrl y.sq y.cid = some y := by
  rw [cmdOf] at hnone ⊢
  rw [addCmd, setHif]
  dsimp only
  rw [List.find?_append, hnone]
  simp

theorem cmdOf_setCmd {z : NCmd} (h : cmdOf u y.ctrl y.sq y.cid = some z) :
    cmdOf (setCmd u y.ctrl y.sq y.cid (some y)) y.ctrl y.sq y.cid = some y := by
  rw [cmdOf] at h ⊢
  rw [setCmd, setHif]
  dsimp only
  generalize u.hif.cmds = l at h ⊢
  induction l with
  | nil => cases h
  | cons w l ih =>
    rw [List.map_cons]
    by_cases hw : (w.ctrl == y.ctrl && w.sq == y.sq && w.cid == y.cid) = true
    · rw [if_pos hw, List.find?_cons_of_pos (by simp)]
    · rw [if_neg hw, List.find?_cons_of_neg (by simpa using hw)]
      exact ih (by rwa [List.find?_cons_of_neg (by simpa using hw)] at h)

/-! ## The ticket -/

/-- A ticket that may be made waits in the store; commands and flash translation stay as they are. -/
theorem submitTicket_makes (hm : mayMake u c tag tk) (hi : instState u (ctrlInst c) = .ready) :
    let t := (submitTicket u (.nvme c q cid) (ticketBytes tk)).2
    (∃ x, entryOf t tag = some x ∧ x.t = parseTicket (ticketBytes tk) ∧ x.sub = .nvme c q cid ∧ x.waiting = true ∧
      x.admitted = 0) ∧ t.hif = u.hif ∧ t.ftl = u.ftl := by
  obtain ⟨hfree, -, -, hacc, hinst⟩ := hm
  have hslot := keySlotUsed_keeps (arrived u) (parseTicket (ticketBytes tk))
  have hhif : (keySlotUsed (arrived u) (parseTicket (ticketBytes tk))).hif = u.hif := hslot.hif rfl
  have hftl : (keySlotUsed (arrived u) (parseTicket (ticketBytes tk))).ftl = u.ftl := hslot.ftl rfl
  have ht := submitTicket_of_accepted (s := u) (sub := .nvme c q cid) (bs := ticketBytes tk) (by rw [hinst]; exact hfree)
    (by rw [hinst]; exact hi) hacc
  dsimp only
  rw [ht]
  exact ⟨⟨_, entryOf_setEntry_same .., rfl, rfl, rfl, rfl⟩, by rw [setEntry_hif, hhif], by rw [setEntry_ftl, hftl]⟩

/-- R569: a command that forms one ticket waits for it. -/
theorem submitOne_makes (hform : SameForm s u) (hm : mayMake s y.ctrl tag tk) (hi : instState s (ctrlInst y.ctrl) = .ready)
    (hnone : cmdOf u y.ctrl y.sq y.cid = none) (hcid : y.cid = leAt e 2 2) :
    ticketMade (submitOne u y tk) y.ctrl y.sq tag e tk ∧
      cmdOf (submitOne u y tk) y.ctrl y.sq y.cid = some { y with left := 1, formed := 1 } ∧ (submitOne u y tk).ftl = u.ftl := by
  let waiting := addCmd u { y with left := 1, formed := 1 }
  have hform' : SameForm s waiting := hform.addCmd
  have hcmd : cmdOf waiting y.ctrl y.sq y.cid = some { y with left := 1, formed := 1 } := cmdOf_addCmd hnone
  obtain ⟨hentry, hhif, hftl⟩ := submitTicket_makes (q := y.sq) (cid := y.cid) (hform'.mayMake hm) ((instState_congr hform').trans hi)
  have hrun : submitOne u y tk = (submitTicket waiting (.nvme y.ctrl y.sq y.cid) (ticketBytes tk)).2 := by
    obtain ⟨-, hdef, hready, -, -⟩ := hform.mayMake hm
    rw [submitOne, hdef, hready, if_neg (by decide), if_neg (by decide)]
  have hcmd' : cmdOf (submitOne u y tk) y.ctrl y.sq y.cid = some { y with left := 1, formed := 1 } := by
    rw [← hcmd, hrun, cmdOf, hhif]
    rfl
  refine ⟨⟨?_, ?_⟩, hcmd', by rw [hrun, hftl]; rfl⟩
  · rw [hrun, ← hcid]
    exact hentry
  · rw [← hcid, hcmd']
    rfl

/-- R571: a command that forms one ticket of its list waits for it. -/
theorem submitAll_makes (hform : SameForm s u)
    (hm : mayMake s y.ctrl tag (formTicket s y x.line x.ns x.bytes false (logicalDesc x.ns x.first) {}))
    (hi : instState s (ctrlInst y.ctrl) = .ready) (hnone : cmdOf u y.ctrl y.sq y.cid = none) (hcid : y.cid = leAt e 2 2)
    (hfail : y.fail = none) (hleft : y.left = 0) :
    ticketMade (submitAll u y [x]) y.ctrl y.sq tag e (formTicket s y x.line x.ns x.bytes false (logicalDesc x.ns x.first) {}) ∧
      (cmdOf (submitAll u y [x]) y.ctrl y.sq y.cid).map NCmd.zones = some y.zones := by
  let waiting := addCmd u { y with todo := [x] }
  let formed : NCmd := { y with todo := [], left := y.left + 1, formed := y.formed + 1 }
  let asked := setCmd waiting y.ctrl y.sq y.cid (some formed)
  have hwaiting : cmdOf waiting y.ctrl y.sq y.cid = some { y with todo := [x] } := cmdOf_addCmd hnone
  have hasked : cmdOf asked y.ctrl y.sq y.cid = some formed := cmdOf_setCmd (y := formed) hwaiting
  have hform' : SameForm s asked := hform.addCmd.setCmd
  obtain ⟨hentry, hhif, -⟩ := submitTicket_makes (q := y.sq) (cid := y.cid) (hform'.mayMake hm) ((instState_congr hform').trans hi)
  obtain ⟨hfree, hdef, hready, -, -⟩ := hform.mayMake hm
  have hslot : formTicket asked formed x.line x.ns x.bytes false (logicalDesc x.ns x.first) {} =
      formTicket s y x.line x.ns x.bytes false (logicalDesc x.ns x.first) {} := by
    simp only [formTicket, nsSlot, eff, effWord, hform'.keeps.regs rfl]
    rfl
  have hrun : submitAll u y [x] = (submitTicket asked (.nvme y.ctrl y.sq y.cid)
      (ticketBytes (formTicket s y x.line x.ns x.bytes false (logicalDesc x.ns x.first) {}))).2 := by
    have hany {p : Nat → Bool} (h : p x.line = false) : ¬ [x].any (fun z => p z.line) = true := by simp [h]
    have hgoes : ¬ (({ y with todo := [x] } : NCmd).fail.isSome = true ∨ (x.after = true ∧ y.left ≠ 0) ∨
        (entryFree waiting (ctrlInst y.ctrl)).isNone = true) := by
      have hroom : entryFree waiting (ctrlInst y.ctrl) = some tag :=
        (entryFree_congr hform.addCmd).trans ((entryFree_congr hform).symm.trans hfree)
      simp [hfail, hleft, hroom]
    rw [submitAll, if_neg (by simp), if_neg (hany (p := fun l => !lineDefined u l) (congrArg (! ·) hdef)),
      if_neg (hany (p := notReady u) hready)]
    change formTodo 1 waiting y.ctrl y.sq y.cid = _
    rw [formTodo, hwaiting]
    dsimp only
    rw [if_neg hgoes, formTodo, ← hslot]
    rfl
  have hcmd : cmdOf (submitAll u y [x]) y.ctrl y.sq y.cid = some formed := by
    rw [← hasked, hrun, cmdOf, hhif]
    rfl
  refine ⟨⟨?_, ?_⟩, by rw [hcmd]; rfl⟩
  · rw [hrun, ← hcid]
    exact hentry
  · rw [← hcid, hcmd]
    rfl

/-! ## What a ticket is made of, once the command is taken -/

theorem formTicket_cmdTaken {l n len : Nat} {o : Bool} {a b : Desc} :
    formTicket (cmdTaken s c q idx rest) y l n len o a b = formTicket s y l n len o a b := rfl

theorem hostDesc_cmdTaken : hostDesc (cmdTaken s c q idx rest) (cmdRec c q idx e) = hostDesc s (cmdRec c q idx e) := by
  have hbase : (sqOf (cmdTaken s c q idx rest) c q).base = (sqOf s c q).base := by
    rw [sqOf, ctrlOf_cmdTaken]
    dsimp only
    rw [Tab.getD_set_same]
  rw [hostDesc, hostDesc]
  dsimp only [cmdRec]
  rw [hbase]
  rfl

theorem lineOfWrite_cmdTaken : lineOfWrite (cmdTaken s c q idx rest) (cmdRec c q idx e) = lineOfWrite s (cmdRec c q idx e) := by
  have hvwc : (ctrlOf (cmdTaken s c q idx rest) c).vwc = (ctrlOf s c).vwc := by rw [ctrlOf_cmdTaken]
  rw [lineOfWrite, lineOfWrite, show (cmdRec c q idx e).ctrl = c from rfl, hvwc]
  rfl

end
end Sys2Proof.Machine
end


section
/-! SUPPORT and O47. Zones (16_host_interface.md, R576 to R578). -/

namespace Sys2Proof.Machine

section
variable {s u : State} {c q n z idx cnt slba tag : Nat} {e : Bytes} {rest : List (Nat × Bytes)} {ns : Ns} {x : Zone} {y : NCmd}

/-! ## Namespaces and zones -/

theorem get?_of_nsFor (h : nsFor s c n = some ns) : Tab.get? s.ftl.ns n = some ns := by
  rw [nsFor] at h
  split at h
  · next m hm =>
    split at h
    · rw [hm, h]
    · cases h
  · cases h

theorem withNs_of_nsFor {f : Ns → State} (h : nsFor s y.ctrl y.nsid = some ns) : withNs s y f = f ns := by rw [withNs, h]

theorem withWrite_of_nsFor {f : Ns → State} (h : nsFor s y.ctrl y.nsid = some ns) (hrep : replicaNs s y.nsid = false) :
    withWrite s y f = f ns := by
  rw [withWrite, withNs_of_nsFor h, hrep, if_neg (by decide)]

theorem setZone_of_get? (h : Tab.get? s.ftl.ns n = some ns) :
    setZone s n z x = setFtl s { s.ftl with ns := Tab.set s.ftl.ns n { ns with zones := Tab.set ns.zones z x } } := by
  rw [setZone, h]
  rfl

/-- Zone `z` of namespace `n`. -/
def zoneNow (t : State) (n z : Nat) : Option Zone := (Tab.get? t.ftl.ns n).map (fun m => zoneOf m z)

theorem zoneNow_setZone (h : Tab.get? s.ftl.ns n = some ns) : zoneNow (setZone s n z x) n z = some x := by
  rw [zoneNow, setZone_of_get? h, setFtl]
  dsimp only
  rw [Tab.get?_set_same, Option.map_some, zoneOf, Tab.getD_set_same]

theorem zoneNow_congr {t : State} (h : t.ftl = s.ftl) : zoneNow t n z = zoneNow s n z := by rw [zoneNow, zoneNow, h]

theorem zoneNow_saveZones : zoneNow (saveZones s n) n z = zoneNow s n z := by
  rw [zoneNow, zoneNow, saveZones]
  dsimp only
  rw [Tab.mod]
  split
  · next m hm => rw [Tab.get?_set_same, hm]; rfl
  · rfl

theorem cqe_ftl {st dw0 dw1 : Nat} : (cqe u y st dw0 dw1).ftl = u.ftl := (cqe_keeps ..).ftl rfl

/-! ## Writes and appends (R577) -/

theorem div_of_at {w u z : Nat} (h : w < u) : (z * u + w) / u = z := by
  rw [Nat.mul_comm, Nat.mul_add_div (by omega), Nat.div_eq_of_lt h, Nat.add_zero]

theorem mod_of_at {w u z : Nat} (h : w < u) : (z * u + w) % u = w := by
  rw [Nat.mul_comm, Nat.mul_add_mod, Nat.mod_eq_of_lt h]

/-- A write at the write pointer of a zone that may be opened is not refused. -/
theorem zoneRefuses_none (hfit : (zoneOf ns z).wp + cnt ≤ ns.zoneUnits) (hwp : (zoneOf ns z).wp < ns.zoneUnits)
    (hfull : (zoneOf ns z).state ≠ 4) (hopen : openLimit ns (zoneOf ns z) = none) :
    zoneRefuses ns (z * ns.zoneUnits + (zoneOf ns z).wp) cnt = none := by
  rw [zoneRefuses, div_of_at hwp, mod_of_at hwp, if_neg hfull, if_neg (by omega), if_neg (by simp)]
  exact hopen

/-- The zone after `cnt` units have been written at its write pointer. -/
def zoneMoved (ns : Ns) (z cnt : Nat) : Zone :=
  let x := zoneOf ns z
  { wp := x.wp + cnt, state := if ns.zoneUnits ≤ x.wp + cnt then 4 else if x.state = 0 ∨ x.state = 3 then 1 else x.state }

/-- The ticket of a zone write of command `e` at `lba`. -/
def zoneTicket (s : State) (c q idx cnt lba : Nat) (e : Bytes) : Ticket :=
  formTicket s (cmdRec c q idx e) (lineOfWrite s (cmdRec c q idx e)) (eDw e 1) (cnt * 4096) true (hostDesc s (cmdRec c q idx e))
    (logicalDesc (eDw e 1) lba)

/-- A zone write that nothing refuses advances the write pointer and makes its ticket. -/
theorem zoneWrite_makes {w0 w1 : Nat} (hw : cmdWaits s c q idx e rest) (hnone : cmdOf s c q (leAt e 2 2) = none)
    (hns : Tab.get? s.ftl.ns (eDw e 1) = some ns) (hwp : (zoneOf ns z).wp < ns.zoneUnits)
    (hgoes : zoneRefuses ns (z * ns.zoneUnits + (zoneOf ns z).wp) cnt = none)
    (hm : mayMake s c tag (zoneTicket s c q idx cnt (z * ns.zoneUnits + (zoneOf ns z).wp) e)) :
    let t := zoneWrite (cmdTaken s c q idx rest) { cmdRec c q idx e with dw0 := w0, dw1 := w1 } ns
      (z * ns.zoneUnits + (zoneOf ns z).wp) cnt
    zoneNow t (eDw e 1) z = some (zoneMoved ns z cnt) ∧
      ticketMade t c q tag e (zoneTicket s c q idx cnt (z * ns.zoneUnits + (zoneOf ns z).wp) e) ∧
      (cmdOf t c q (leAt e 2 2)).map (fun m => (m.dw0, m.dw1)) = some (w0, w1) := by
  let y : NCmd := { cmdRec c q idx e with dw0 := w0, dw1 := w1 }
  let taken := cmdTaken s c q idx rest
  let moved := setFtl taken { taken.ftl with
    ns := Tab.set taken.ftl.ns (eDw e 1) { ns with zones := Tab.set ns.zones z (zoneMoved ns z cnt) } }
  obtain ⟨-, hdef, hready, -, -⟩ := id hm
  have hmoved : advanceZone taken (eDw e 1) ns z cnt = moved := setZone_of_get? hns
  have hform : SameForm s moved := ⟨.via (setFtl_keeps ..) rfl SameForm.cmdTaken.keeps, rfl⟩
  have htk : formTicket moved y (lineOfWrite moved y) y.nsid (cnt * 4096) true (hostDesc moved y)
      (logicalDesc y.nsid (z * ns.zoneUnits + (zoneOf ns z).wp)) =
        zoneTicket s c q idx cnt (z * ns.zoneUnits + (zoneOf ns z).wp) e := by
    rw [zoneTicket, ← lineOfWrite_cmdTaken (rest := rest), ← hostDesc_cmdTaken (rest := rest)]
    rfl
  have hrun : zoneWrite taken y ns (z * ns.zoneUnits + (zoneOf ns z).wp) cnt =
      submitOne moved y (zoneTicket s c q idx cnt (z * ns.zoneUnits + (zoneOf ns z).wp) e) := by
    have hl : lineOfWrite taken y = (zoneTicket s c q idx cnt (z * ns.zoneUnits + (zoneOf ns z).wp) e).line :=
      lineOfWrite_cmdTaken
    rw [zoneWrite, hgoes]
    dsimp only
    rw [hl, (lineDefined_congr SameForm.cmdTaken).trans hdef, (notReady_congr SameForm.cmdTaken).trans hready,
      if_pos (by decide), div_of_at hwp, show y.nsid = eDw e 1 from rfl, hmoved, submitWrite]
    exact congrArg _ htk
  obtain ⟨hmade, hcmd, hftl⟩ := submitOne_makes (y := y) (e := e) hform hm (instState_of_ctrlRuns hw.2.1) hnone rfl
  intro t
  have ht : t = submitOne moved y (zoneTicket s c q idx cnt (z * ns.zoneUnits + (zoneOf ns z).wp) e) := hrun
  rw [ht]
  refine ⟨?_, hmade, congrArg (Option.map fun m => (m.dw0, m.dw1)) hcmd⟩
  rw [zoneNow_congr hftl, ← hmoved]
  exact zoneNow_setZone hns

/-! ## The commands -/

section
variable (hw : cmdWaits s c q idx e rest) (hq : q ≠ 0) (hns : nsFor s c (eDw e 1) = some ns)
  (hroom : (entryFree s (ctrlInst c)).isSome = true)
include hw hq hns

theorem nsFor_taken : nsFor (cmdTaken s c q idx rest) (cmdRec c q idx e).ctrl (cmdRec c q idx e).nsid = some ns := hns

section
variable (hzoned : 0 < ns.zoneUnits) (hrep : replicaNs s (eDw e 1) = false) (hn : eDw e 12 % 65536 + 1 ≤ 1024)
include hzoned hrep hn hroom

theorem nvmeWrite_zoned (hop : eOp e = 1) (hend : eQw e 10 + (eDw e 12 % 65536 + 1) ≤ ns.units) :
    exec (.nvmeWrite c q) s =
      .next (zoneWrite (cmdTaken s c q idx rest) (cmdRec c q idx e) ns (eQw e 10) (eDw e 12 % 65536 + 1)) := by
  change execNvmeWrite c q s = _
  rw [execNvmeWrite, nvmeCmd_of_waits hw (by simp [hq]) (by simp [hop]) (fun _ => hroom),
    withWrite_of_nsFor (nsFor_taken hw hq hns) hrep]
  dsimp only [cmdRec]
  rw [if_neg (by omega), if_neg (by omega), if_neg (by omega)]

theorem zoneAppend_zoned (hop : eOp e = 0x7D) (hat : eQw e 10 = z * ns.zoneUnits) (hstart : z * ns.zoneUnits < ns.units)
    (hfull : (zoneOf ns z).state ≠ 4) :
    exec (.zoneAppend c q) s = .next (zoneWrite (cmdTaken s c q idx rest) { cmdRec c q idx e with
      dw0 := (z * ns.zoneUnits + (zoneOf ns z).wp) % 2 ^ 32, dw1 := (z * ns.zoneUnits + (zoneOf ns z).wp) / 2 ^ 32 } ns
      (z * ns.zoneUnits + (zoneOf ns z).wp) (eDw e 12 % 65536 + 1)) := by
  change execZoneAppend c q s = _
  rw [execZoneAppend, nvmeCmd_of_waits hw (by simp [hq]) (by simp [hop]) (fun _ => hroom),
    withWrite_of_nsFor (nsFor_taken hw hq hns) hrep]
  dsimp only [cmdRec]
  rw [hat, Nat.mul_div_cancel _ hzoned, if_neg (by omega), if_neg (by rw [Nat.mul_mod_left]; omega), if_neg (by omega), if_neg hfull]

theorem zoneAppend_full (hop : eOp e = 0x7D) (hat : eQw e 10 = z * ns.zoneUnits) (hstart : z * ns.zoneUnits < ns.units)
    (hfull : (zoneOf ns z).state = 4) :
    exec (.zoneAppend c q) s = .next (cqe (cmdTaken s c q idx rest) (cmdRec c q idx e) (nstat 1 0xB9 true) 0 0) := by
  change execZoneAppend c q s = _
  rw [execZoneAppend, nvmeCmd_of_waits hw (by simp [hq]) (by simp [hop]) (fun _ => hroom),
    withWrite_of_nsFor (nsFor_taken hw hq hns) hrep]
  dsimp only [cmdRec]
  rw [hat, Nat.mul_div_cancel _ hzoned, if_neg (by omega), if_neg (by rw [Nat.mul_mod_left]; omega), if_neg (by omega), if_pos hfull]

end

/-- A command that completes at once leaves the flash translation alone. -/
theorem completes_at_once {i : Instr} {st : Nat}
    (hrun : exec i s = .next (cqe (cmdTaken s c q idx rest) (cmdRec c q idx e) st 0 0)) :
    Nexts (exec i s) (fun t => completed s t c q idx e st 0 0 ∧ t.ftl = s.ftl) :=
  ⟨_, hrun, (fetched_cmdTaken hw).completed, cqe_ftl⟩

section
variable (hop : eOp e = 0x79) (hall : bitOf (eDw e 13) 8 = false) (hat : eQw e 10 = z * ns.zoneUnits)
  (hzoned : 0 < ns.zoneUnits) (hstart : z * ns.zoneUnits < ns.units)
include hop hall hat hzoned hstart

/-- A Zone Management Send that names one zone. -/
theorem zoneSend_one {act : Nat} {all : List Nat} {f : State → NCmd → Ns → List Nat → State} (hact : eDw e 13 % 256 = act)
    (hticket : act = 4 → (entryFree s (ctrlInst c)).isSome = true) :
    zoneSend s c q act all f = .next (f (cmdTaken s c q idx rest) (cmdRec c q idx e) ns [z]) := by
  rw [zoneSend, nvmeCmd_of_waits hw (by simp [hq]) (by simp [hop, hact]) (fun h => hticket (by simpa using h)),
    withNs_of_nsFor (nsFor_taken hw hq hns)]
  dsimp only [cmdRec]
  have hin : ¬ (ns.units ≤ z * ns.zoneUnits ∨ z * ns.zoneUnits % ns.zoneUnits ≠ 0) := by rw [Nat.mul_mod_left]; omega
  rw [hat, Nat.mul_div_cancel _ hzoned]
  exact congrArg Host.Outcome.next ((if_neg (by omega)).trans ((if_neg (not_not_intro hact)).trans
    ((if_neg (by simp [hall])).trans (if_neg hin))))

theorem zoneOpen_opens (hact : eDw e 13 % 256 = 3) (hstate : (zoneOf ns z).state = 3) (hopen : openZones ns < 1024)
    (hactive : activeZones ns ≤ 1024) : Nexts (exec (.zoneOpen c q) s) (fun t => completed s t c q idx e nOk 0 0 ∧
      zoneNow t (eDw e 1) z = some { zoneOf ns z with state := 2 }) := by
  let opened := setZone (cmdTaken s c q idx rest) (eDw e 1) z { zoneOf ns z with state := 2 }
  have hrun : exec (.zoneOpen c q) s = .next (cqe opened (cmdRec c q idx e) nOk 0 0) := by
    change execZoneOpen c q s = _
    rw [execZoneOpen, zoneSend_one hw hq hns hop hall hat hzoned hstart hact (by omega)]
    dsimp only
    rw [if_neg (by simp [hstate]), if_neg (by simp [hstate]; omega), if_neg (by simp [hstate]; omega)]
    rfl
  exact ⟨_, hrun, ((fetched_cmdTaken hw).keep (setZone_keeps ..)).completed,
    (zoneNow_congr cqe_ftl).trans (zoneNow_setZone (get?_of_nsFor hns))⟩

theorem zoneClose_closes (hact : eDw e 13 % 256 = 1) (hstate : (zoneOf ns z).state = 1 ∨ (zoneOf ns z).state = 2) :
    Nexts (exec (.zoneClose c q) s) (fun t => completed s t c q idx e nOk 0 0 ∧
      zoneNow t (eDw e 1) z = some { zoneOf ns z with state := 3 }) := by
  let closed := setZone (cmdTaken s c q idx rest) (eDw e 1) z { zoneOf ns z with state := 3 }
  have hrun : exec (.zoneClose c q) s = .next (cqe closed (cmdRec c q idx e) nOk 0 0) := by
    change execZoneClose c q s = _
    rw [execZoneClose, zoneSend_one hw hq hns hop hall hat hzoned hstart hact (by omega)]
    dsimp only
    rw [if_neg (by simp; omega)]
    rfl
  exact ⟨_, hrun, ((fetched_cmdTaken hw).keep (setZone_keeps ..)).completed,
    (zoneNow_congr cqe_ftl).trans (zoneNow_setZone (get?_of_nsFor hns))⟩

theorem zoneClose_refused (hact : eDw e 13 % 256 = 1) (hstate : (zoneOf ns z).state = 0 ∨ (zoneOf ns z).state = 4) :
    exec (.zoneClose c q) s = .next (cqe (cmdTaken s c q idx rest) (cmdRec c q idx e) (nstat 1 0xBF true) 0 0) := by
  change execZoneClose c q s = _
  rw [execZoneClose, zoneSend_one hw hq hns hop hall hat hzoned hstart hact (by omega)]
  dsimp only
  rw [if_pos (by simpa using hstate)]
  rfl

theorem zoneFinish_fills (hact : eDw e 13 % 256 = 2) : Nexts (exec (.zoneFinish c q) s) (fun t =>
    completed s t c q idx e nOk 0 0 ∧ zoneNow t (eDw e 1) z = some { state := 4, wp := ns.zoneUnits }) := by
  let full := setZone (cmdTaken s c q idx rest) (eDw e 1) z { state := 4, wp := ns.zoneUnits }
  have hrun : exec (.zoneFinish c q) s = .next (cqe (saveZones full (eDw e 1)) (cmdRec c q idx e) nOk 0 0) := by
    change execZoneFinish c q s = _
    rw [execZoneFinish, zoneSend_one hw hq hns hop hall hat hzoned hstart hact (by omega)]
    rfl
  refine ⟨_, hrun, (((fetched_cmdTaken hw).keep (setZone_keeps ..)).keep (saveZones_keeps ..)).completed, ?_⟩
  rw [zoneNow_congr cqe_ftl, zoneNow_saveZones]
  exact zoneNow_setZone (get?_of_nsFor hns)

theorem zoneReset_makes (hnone : cmdOf s c q (leAt e 2 2) = none) (hact : eDw e 13 % 256 = 4)
    (hrep : replicaNs s (eDw e 1) = false) (hsize : ns.zoneUnits ≤ 65536)
    (hm : mayMake s c tag (formTicket s (cmdRec c q idx e) (discardLine s (eDw e 1)) (eDw e 1) (ns.zoneUnits * 4096) false
      (logicalDesc (eDw e 1) (z * ns.zoneUnits)) {})) :
    Nexts (exec (.zoneReset c q) s) (fun t => ticketMade t c q tag e (formTicket s (cmdRec c q idx e)
      (discardLine s (eDw e 1)) (eDw e 1) (ns.zoneUnits * 4096) false (logicalDesc (eDw e 1) (z * ns.zoneUnits)) {}) ∧
        (cmdOf t c q (leAt e 2 2)).map NCmd.zones = some [z]) := by
  let item : NTodo := { line := discardLine s (eDw e 1), ns := eDw e 1, first := z * ns.zoneUnits, bytes := ns.zoneUnits * 4096 }
  have hitems : splitRange (discardLine s (eDw e 1)) (eDw e 1) 2 (z * ns.zoneUnits) ns.zoneUnits = [item] := by
    rw [splitRange, if_neg (by omega), Nat.min_eq_left hsize, Nat.sub_self, splitRange, if_pos rfl]
  have hrun : exec (.zoneReset c q) s =
      .next (submitAll (cmdTaken s c q idx rest) { cmdRec c q idx e with zones := [z] } [item]) := by
    change execZoneReset c q s = _
    rw [execZoneReset, zoneSend_one hw hq hns hop hall hat hzoned hstart hact
      (fun _ => Option.isSome_iff_exists.mpr ⟨tag, hm.1⟩)]
    dsimp only
    rw [if_neg (by rw [show replicaNs (cmdTaken s c q idx rest) (cmdRec c q idx e).nsid = replicaNs s (eDw e 1) from rfl, hrep]; decide),
      List.flatMap_singleton]
    exact congrArg (fun l => Host.Outcome.next (submitAll _ _ l)) hitems
  exact ⟨_, hrun, submitAll_makes (y := { cmdRec c q idx e with zones := [z] }) (x := item) SameForm.cmdTaken hm
    (instState_of_ctrlRuns hw.2.1) hnone rfl rfl rfl⟩

end

theorem reportZones_completes (hop : eOp e = 0x7A) (hzoned : 0 < ns.zoneUnits) (hact : eDw e 13 % 256 = 0)
    (hwant : eDw e 13 / 256 % 256 ≤ 7) : Nexts (exec (.reportZones c q) s) (fun t =>
      completed s t c q idx e nOk 0 0 ∧ t.ftl = s.ftl) := by
  have hrun : ∃ bs, exec (.reportZones c q) s =
      .next (cqe (hostPut (cmdTaken s c q idx rest) (cmdRec c q idx e) bs) (cmdRec c q idx e) nOk 0 0) := by
    change ∃ bs, execReportZones c q s = _
    rw [execReportZones, nvmeCmd_of_waits hw (by simp [hq]) (by simp [hop]) (by simp), withNs_of_nsFor (nsFor_taken hw hq hns)]
    dsimp only [cmdRec]
    rw [if_neg (by omega), if_neg (by omega)]
    exact ⟨_, rfl⟩
  obtain ⟨bs, hrun⟩ := hrun
  have hput : (hostPut (cmdTaken s c q idx rest) (cmdRec c q idx e) bs).ftl = s.ftl := (hostPut_keeps ..).ftl rfl
  exact ⟨_, hrun, (fetched_cmdTaken hw).hostPut.completed, cqe_ftl.trans hput⟩

end
end

/-- Settles O47: writes, appends, Zone Management Send and Report Zones, clause by clause. -/
theorem zonesOpenCloseFinishResetAndAppend : Obligations.ZonesOpenCloseFinishResetAndAppend := by
  intro s c q idx tag z e rest ns n y x units at0 line zone tk moved refused hq hw hnone hns hrep hzoned hstart hroom
  have hget : Tab.get? s.ftl.ns n = some ns := get?_of_nsFor hns
  refine ⟨fun hop hn hat hfit hwp hend hfull hopen hm => ?_, fun hop hn hz hend hfull => ?_,
    fun hop hn hz hend hfull hfit hwp => ?_, fun hop hn hat hfit hwp hfull hopen hm => ?_, fun hop hn hat hfull => ?_,
    fun hop hall hat => ⟨zoneOpen_opens hw hq hns hop hall hat hzoned hstart, zoneClose_closes hw hq hns hop hall hat hzoned hstart,
      fun hact hstate => completes_at_once hw hq hns (zoneClose_refused hw hq hns hop hall hat hzoned hstart hact hstate),
      zoneFinish_fills hw hq hns hop hall hat hzoned hstart,
      fun hact hsize hm => zoneReset_makes hw hq hns hop hall hat hzoned hstart hnone hact hrep hsize hm⟩,
    fun hop hact hwant => reportZones_completes hw hq hns hop hzoned hact hwant⟩
  · obtain ⟨hzone, hmade, -⟩ := zoneWrite_makes (w0 := 0) (w1 := 0) hw hnone hget hwp (zoneRefuses_none hfit hwp hfull hopen) hm
    refine ⟨_, nvmeWrite_zoned hw hq hns hroom hzoned hrep hn hop hend, ?_⟩
    rw [hat]
    exact ⟨hzone, hmade⟩
  · refine completes_at_once hw hq hns ?_
    rw [nvmeWrite_zoned hw hq hns hroom hzoned hrep hn hop hend, zoneWrite, zoneRefuses, hz, if_pos hfull]
  · refine completes_at_once hw hq hns ?_
    rw [nvmeWrite_zoned hw hq hns hroom hzoned hrep hn hop hend, zoneWrite, zoneRefuses, hz, if_neg hfull, if_neg (by omega), if_pos hwp]
  · exact ⟨_, zoneAppend_zoned hw hq hns hroom hzoned hrep hn hop hat hstart hfull,
      zoneWrite_makes hw hnone hget hwp (zoneRefuses_none hfit hwp hfull hopen) hm⟩
  · exact completes_at_once hw hq hns (zoneAppend_full hw hq hns hroom hzoned hrep hn hop hat hstart hfull)

end Sys2Proof.Machine
end


section
/-! SUPPORT and O46. I/O commands, computational programs and local memory (16_host_interface.md, R564 to R581). -/

namespace Sys2Proof.Machine

section
variable {s : State} {c q idx tag unit len off first : Nat} {e bs head : Bytes} {rest : List (Nat × Bytes)} {ns : Ns}
  {tk tk' : Ticket} {y : NCmd} {i : Instr} {toLocal : Bool}

/-- A command that forms one ticket makes it. -/
theorem makes_of_submitOne (hw : cmdWaits s c q idx e rest) (hnone : cmdOf s c q (leAt e 2 2) = none) (hc : y.ctrl = c)
    (hsq : y.sq = q) (hcid : y.cid = leAt e 2 2) (hm : mayMake s c tag tk)
    (hrun : exec i s = .next (submitOne (cmdTaken s c q idx rest) y tk')) (htk : tk' = tk) :
    Nexts (exec i s) (fun t => ticketMade t c q tag e tk) := by
  subst hc hsq htk
  exact ⟨_, hrun, (submitOne_makes SameForm.cmdTaken hm (instState_of_ctrlRuns hw.2.1) (by rw [hcid]; exact hnone) hcid).1⟩

theorem submitOne_undefined (h : lineDefined s tk.line = false) : submitOne s y tk = badField s y := if_pos (by rw [h]; rfl)

theorem room_of_mayMake (hm : mayMake s c tag tk) : (entryFree s (ctrlInst c)).isSome = true :=
  Option.isSome_iff_exists.mpr ⟨tag, hm.1⟩

section
variable (hw : cmdWaits s c q idx e rest) (hq : q ≠ 0) (hns : nsFor s c (eDw e 1) = some ns)
  (hroom : (entryFree s (ctrlInst c)).isSome = true)
include hw hq hns hroom

/-! ## Reads, writes, flush, discard (R566) -/

theorem execNvmeRead_waits (hop : eOp e = 2) (hn : eDw e 12 % 65536 + 1 ≤ 1024) :
    exec (.nvmeRead c q) s = .next (submitOne (cmdTaken s c q idx rest) (cmdRec c q idx e)
      (formTicket (cmdTaken s c q idx rest) (cmdRec c q idx e) (readLine (cmdTaken s c q idx rest) (eDw e 1)) (eDw e 1)
        ((eDw e 12 % 65536 + 1) * 4096) false (logicalDesc (eDw e 1) (eQw e 10))
        (hostDesc (cmdTaken s c q idx rest) (cmdRec c q idx e)))) := by
  change execNvmeRead c q s = _
  rw [execNvmeRead, nvmeCmd_of_waits hw (by simp [hq]) (by simp [hop]) (fun _ => hroom), withNs_of_nsFor (nsFor_taken hw hq hns)]
  dsimp only [cmdRec]
  rw [if_neg (by omega)]

theorem nvmeRead_undefined (hop : eOp e = 2) (hn : eDw e 12 % 65536 + 1 ≤ 1024)
    (hundef : lineDefined s (readLine s (eDw e 1)) = false) :
    Nexts (exec (.nvmeRead c q) s) (fun t => completed s t c q idx e (nstat 0 2 true) 0 0) := by
  refine ⟨cqe (cmdTaken s c q idx rest) (cmdRec c q idx e) (nstat 0 2 true) 0 0, ?_, (fetched_cmdTaken hw).completed⟩
  rw [execNvmeRead_waits hw hq hns hroom hop hn, submitOne_undefined hundef]
  rfl

theorem execNvmeWrite_waits (hrep : replicaNs s (eDw e 1) = false) (hop : eOp e = 1) (hn : eDw e 12 % 65536 + 1 ≤ 1024)
    (hplain : ns.zoneUnits = 0) :
    exec (.nvmeWrite c q) s = .next (submitWrite (cmdTaken s c q idx rest) (cmdRec c q idx e) (eQw e 10)
      (eDw e 12 % 65536 + 1) false) := by
  change execNvmeWrite c q s = _
  rw [execNvmeWrite, nvmeCmd_of_waits hw (by simp [hq]) (by simp [hop]) (fun _ => hroom),
    withWrite_of_nsFor (nsFor_taken hw hq hns) hrep]
  dsimp only [cmdRec]
  rw [if_neg (by omega), if_pos hplain]

theorem execFlush_waits (hop : eOp e = 0) :
    exec (.flush c q) s = .next (submitOne (cmdTaken s c q idx rest) (cmdRec c q idx e)
      (formTicket (cmdTaken s c q idx rest) (cmdRec c q idx e) (flushLine (cmdTaken s c q idx rest) (eDw e 1)) (eDw e 1) 1 false {} {})) := by
  change execFlush c q s = _
  rw [execFlush, nvmeCmd_of_waits hw (by simp [hq]) (by simp [hop]) (fun _ => hroom), withNs_of_nsFor (nsFor_taken hw hq hns)]
  rfl

theorem execWriteZeroes_waits (hrep : replicaNs s (eDw e 1) = false) (hop : eOp e = 8) (hplain : ns.zoneUnits = 0) :
    exec (.writeZeroes c q) s = .next (submitOne (cmdTaken s c q idx rest) (cmdRec c q idx e)
      (formTicket (cmdTaken s c q idx rest) (cmdRec c q idx e) (discardLine (cmdTaken s c q idx rest) (eDw e 1)) (eDw e 1)
        ((eDw e 12 % 65536 + 1) * 4096) false (logicalDesc (eDw e 1) (eQw e 10)) {})) := by
  change execWriteZeroes c q s = _
  rw [execWriteZeroes, nvmeCmd_of_waits hw (by simp [hq]) (by simp [hop]) (fun _ => hroom),
    withWrite_of_nsFor (nsFor_taken hw hq hns) hrep]
  dsimp only [cmdRec]
  rw [if_neg (by omega)]

theorem execDatasetManagement_waits (hrep : replicaNs s (eDw e 1) = false) (hop : eOp e = 9) (hplain : ns.zoneUnits = 0)
    (hdealloc : bitOf (eDw e 11) 2 = true) (hone : eDw e 10 % 256 = 0) (h0 : 0 < leAt bs 4 4) (hmax : leAt bs 4 4 ≤ 65536) :
    exec (.datasetManagement c q bs) s = .next (submitAll (cmdTaken s c q idx rest) (cmdRec c q idx e)
      [{ line := discardLine s (eDw e 1), ns := eDw e 1, first := leAt bs 8 8, bytes := leAt bs 4 4 * 4096 }]) := by
  have hitems : (List.range (eDw e 10 % 256 + 1)).flatMap (fun i => splitRange (discardLine s (eDw e 1)) (eDw e 1) 65537
      (leAt bs (16 * i + 8) 8) (leAt bs (16 * i + 4) 4)) =
        [{ line := discardLine s (eDw e 1), ns := eDw e 1, first := leAt bs 8 8, bytes := leAt bs 4 4 * 4096 }] := by
    rw [hone, List.range_one, List.flatMap_singleton]
    change splitRange (discardLine s (eDw e 1)) (eDw e 1) 65537 (leAt bs 8 8) (leAt bs 4 4) = _
    rw [splitRange, if_neg (by omega), Nat.min_eq_left hmax, Nat.sub_self, splitRange, if_pos rfl]
  change execDatasetManagement c q bs s = _
  rw [execDatasetManagement, nvmeCmd_of_waits hw (by simp [hq]) (by simp [hop]) (fun _ => hroom),
    withWrite_of_nsFor (nsFor_taken hw hq hns) hrep]
  exact congrArg Host.Outcome.next ((if_neg (by omega)).trans ((if_neg (by simp [cmdRec, hdealloc])).trans
    (congrArg (submitAll _ _) hitems)))

omit hroom in
theorem datasetManagement_makes (hnone : cmdOf s c q (leAt e 2 2) = none) (hrep : replicaNs s (eDw e 1) = false) (hop : eOp e = 9)
    (hplain : ns.zoneUnits = 0) (hdealloc : bitOf (eDw e 11) 2 = true) (hone : eDw e 10 % 256 = 0) (h0 : 0 < leAt bs 4 4)
    (hmax : leAt bs 4 4 ≤ 65536) (hm : mayMake s c tag (formTicket s (cmdRec c q idx e) (discardLine s (eDw e 1)) (eDw e 1)
      (leAt bs 4 4 * 4096) false (logicalDesc (eDw e 1) (leAt bs 8 8)) {})) :
    Nexts (exec (.datasetManagement c q bs) s) (fun t => ticketMade t c q tag e (formTicket s (cmdRec c q idx e)
      (discardLine s (eDw e 1)) (eDw e 1) (leAt bs 4 4 * 4096) false (logicalDesc (eDw e 1) (leAt bs 8 8)) {})) := by
  have hmade := submitAll_makes (u := cmdTaken s c q idx rest) (y := cmdRec c q idx e) (e := e)
    (x := { line := discardLine s (eDw e 1), ns := eDw e 1, first := leAt bs 8 8, bytes := leAt bs 4 4 * 4096 })
    SameForm.cmdTaken hm (instState_of_ctrlRuns hw.2.1) hnone rfl rfl rfl
  exact ⟨_, execDatasetManagement_waits hw hq hns (room_of_mayMake hm) hrep hop hplain hdealloc hone h0 hmax, hmade.1⟩

theorem execDatasetManagement_ignores (hrep : replicaNs s (eDw e 1) = false) (hop : eOp e = 9) (hplain : ns.zoneUnits = 0)
    (hdealloc : bitOf (eDw e 11) 2 = false) :
    exec (.datasetManagement c q bs) s = .next (cqe (cmdTaken s c q idx rest) (cmdRec c q idx e) nOk 0 0) := by
  change execDatasetManagement c q bs s = _
  rw [execDatasetManagement, nvmeCmd_of_waits hw (by simp [hq]) (by simp [hop]) (fun _ => hroom),
    withWrite_of_nsFor (nsFor_taken hw hq hns) hrep]
  exact congrArg Host.Outcome.next ((if_neg (by omega)).trans (if_pos (by simp [cmdRec, hdealloc])))

/-! ## Local memory and programs (R579 to R581) -/

theorem execMemoryCopy_waits (hrep : replicaNs s (eDw e 1) = false) :
    exec (.memoryCopy c q toLocal len unit off) s =
      .next (submitOne (cmdTaken s c q idx rest) { cmdRec c q idx e with op := 0x1D2 }
        (formTicket s (cmdRec c q idx e) (if toLocal then localReadLine s (eDw e 1) else localWriteLine s (eDw e 1)) (eDw e 1)
          (unit * 4096) false (if toLocal then logicalDesc (eDw e 1) len else localDesc off)
          (if toLocal then localDesc off else logicalDesc (eDw e 1) len))) := by
  change execMemoryCopy c q toLocal len unit off s = _
  rw [execMemoryCopy, nvmeCmd_of_waits hw rfl rfl (fun _ => hroom), withNs_of_nsFor (nsFor_taken hw hq hns)]
  dsimp only
  rw [if_neg (by rw [show replicaNs (cmdTaken s c q idx rest) (cmdRec c q idx e).nsid = replicaNs s (eDw e 1) from rfl, hrep]; simp)]
  rfl

end

section
variable (hw : cmdWaits s c q idx e rest)
include hw

theorem execMemoryWrite_waits (hroom : (entryFree s (ctrlInst c)).isSome = true) :
    exec (.memoryWrite c q off len) s = .next (submitOne (cmdTaken s c q idx rest) { cmdRec c q idx e with op := 0x1D0 }
      (formTicket (cmdTaken s c q idx rest) (cmdRec c q idx e) (eff s (Reg.HIF_MEM_LINES + 4 * ctrlInst c) 11 0) 0 len false
        (hostDesc (cmdTaken s c q idx rest) (cmdRec c q idx e)) (localDesc off))) := by
  change execMemoryWrite c q off len s = _
  rw [execMemoryWrite, nvmeCmd_of_waits hw rfl rfl (fun _ => hroom)]
  rfl

theorem execMemoryRead_waits (hroom : (entryFree s (ctrlInst c)).isSome = true) :
    exec (.memoryRead c q off len) s = .next (submitOne (cmdTaken s c q idx rest) { cmdRec c q idx e with op := 0x1D1 }
      (formTicket (cmdTaken s c q idx rest) (cmdRec c q idx e) (eff s (Reg.HIF_MEM_LINES + 4 * ctrlInst c) 27 16) 0 len false
        (localDesc off) (hostDesc (cmdTaken s c q idx rest) (cmdRec c q idx e)))) := by
  change execMemoryRead c q off len s = _
  rw [execMemoryRead, nvmeCmd_of_waits hw rfl rfl (fun _ => hroom)]
  rfl

/-- R580: a ticket that a command carries and that the signal box accepts waits in the store. -/
theorem executeProgram_submits (hinst : leAt (fit 64 bs) 0 2 = ctrlInst c)
    (hfree : entryFree s (parseTicket (fit 64 bs)).inst = some tag) (hparse : (parseTicket (fit 64 bs)).inst = ctrlInst c)
    (hready : notReady s (parseTicket (fit 64 bs)).line = false) (hacc : acceptance s (fit 64 bs) true = none) :
    Nexts (exec (.executeProgram c q bs) s) (fun t => ∃ x, entryOf t tag = some x ∧ x.t = parseTicket (fit 64 bs) ∧
      x.sub = .nvme c q (leAt e 2 2) ∧ x.waiting = true) := by
  let waiting := addCmd (cmdTaken s c q idx rest) { cmdRec c q idx e with op := 0x101, left := 1, formed := 1 }
  have hform : SameForm s waiting := SameForm.cmdTaken.addCmd
  have hrun : exec (.executeProgram c q bs) s = .next (submitTicket waiting (.nvme c q (leAt e 2 2)) (fit 64 bs)).2 := by
    change execExecuteProgram c q bs s = _
    rw [execExecuteProgram, nvmeCmd_of_waits hw rfl rfl (fun _ => by rw [← hparse, hfree]; rfl)]
    exact congrArg Host.Outcome.next ((if_neg (not_not_intro hinst)).trans
      (if_neg (by simp [(notReady_congr SameForm.cmdTaken).trans hready])))
  have hi : instState waiting (parseTicket (fit 64 bs)).inst = .ready := by
    rw [instState_congr hform, hparse]
    exact instState_of_ctrlRuns hw.2.1
  have hsub := submitTicket_of_accepted (sub := .nvme c q (leAt e 2 2)) ((entryFree_congr hform).trans hfree) hi
    ((acceptance_congr hform).trans hacc)
  refine ⟨_, hrun, ?_⟩
  rw [hsub]
  exact ⟨_, entryOf_setEntry_same .., rfl, rfl, rfl⟩

section
variable (hengine : engineOf s c unit = true)
include hengine

/-- R579: a Goley image is written to local memory. -/
theorem execLoadProgram_waits (hroom : (entryFree s (ctrlInst c)).isSome = true) (hunit : 72 ≤ unit)
    (hlen : leAt (fit 64 head) 4 4 = len) (hoff : leAt (fit 64 head) 8 8 = off)
    (hmagic : slice (fit 64 head) 0 4 = [0x47#8, 0x4F#8, 0x4C#8, 0x59#8]) (hzero : isZero (fit 64 head) 24 40 = true)
    (halign : off % 4096 = 0) (h0 : 0 < len) (hmax : len ≤ 268435456) :
    exec (.loadProgram c q unit 0xC1 0 head) s = .next (submitOne (cmdTaken s c q idx rest)
      { cmdRec c q idx e with op := 0x1C1, arg := unit, prog := BitVec.ofNat 64 (leAt (fit 64 head) 16 8) }
      (formTicket s (cmdRec c q idx e) (eff s (Reg.HIF_MEM_LINES + 4 * ctrlInst c) 11 0) 0 len false
        { kind := 2, mid := ctrlPort s c, addr := Config.coreList (c * 4294967296 + q * 65536 + leAt e 2 2) % 2 ^ 62 * 4 }
        (localDesc off))) := by
  subst hlen hoff
  have hengine' : engineOf (cmdTaken s c q idx rest) c unit = true := hengine
  change execLoadProgram c q unit 0xC1 0 head s = _
  rw [execLoadProgram, nvmeCmd_of_waits hw rfl rfl (fun _ => hroom)]
  exact congrArg Host.Outcome.next ((if_neg (by rw [hengine']; decide)).trans ((if_neg (by omega)).trans ((if_pos ⟨rfl, hunit⟩).trans
    (if_neg (by simp [hmagic, hzero, halign]; omega)))))

/-- R579: a fen image goes to the configuration loader. -/
theorem loadProgram_asks (hunit : unit < 72) (hlive : dramLive s ≠ []) (hqueue : s.cfg.queue = []) (hcur : s.cfg.cur = none) :
    Nexts (exec (.loadProgram c q unit 0xC0 len head) s) (fun t => ∃ r, t.cfg.queue = [r] ∧ r.inst = ctrlInst c ∧
      r.kind = 2 ∧ r.target = unit ∧ r.gen = (unitOf s unit).gen ∧ r.offered = len) := by
  let waiting := addCmd (cmdTaken s c q idx rest) { cmdRec c q idx e with op := 0x1C0, left := 1, formed := 1, arg := unit }
  let r : LoadReq := {
    inst := ctrlInst c, kind := 2, target := unit, gen := (unitOf s unit).gen, offered := len,
    addr := (hostDesc (cmdTaken s c q idx rest) (cmdRec c q idx e)).addr, sub := .nvme c q (leAt e 2 2) }
  have hengine' : engineOf (cmdTaken s c q idx rest) c unit = true := hengine
  have hlive' : (dramLive waiting).isEmpty = false := List.isEmpty_eq_false_iff.mpr hlive
  have hqueue' : waiting.cfg.queue = [] := hqueue
  have hcur' : waiting.cfg.cur = none := hcur
  have hrun : exec (.loadProgram c q unit 0xC0 len head) s = .next (setCfg waiting { waiting.cfg with queue := [r] }) := by
    change execLoadProgram c q unit 0xC0 len head s = _
    rw [execLoadProgram, nvmeCmd_of_waits hw rfl rfl (by simp)]
    refine congrArg Host.Outcome.next ((if_neg (by rw [hengine']; decide)).trans ((if_pos ⟨rfl, hunit⟩).trans ?_))
    change loaderAsk waiting r = _
    rw [loaderAsk, hqueue', hcur', if_neg (by simp [hlive'])]
    rfl
  exact ⟨_, hrun, r, rfl, rfl, rfl, rfl, rfl, rfl⟩

theorem programActivation_ofFen (hunit : unit < 72) : Nexts (exec (.programActivation c q unit) s) (fun t =>
    completed s t c q idx e nOk 0 0) := by
  have hengine' : engineOf (cmdTaken s c q idx rest) c unit = true := hengine
  refine ⟨_, ?_, (fetched_cmdTaken hw).completed⟩
  change execProgramActivation c q unit s = _
  rw [execProgramActivation, nvmeCmd_of_waits hw rfl rfl (by simp)]
  exact congrArg Host.Outcome.next ((if_neg (by rw [hengine']; decide)).trans (if_pos hunit))

/-- R580: a stopped tenant core starts at the ENTRY of its image. -/
theorem programActivation_starts (hlo : 88 ≤ unit) (hhi : unit < 120) (hrole : (unitOf s unit).role = 6)
    (hstopped : (coreOf s (coreIndex s unit)).state = .stopped) (hown : coreUnit s (coreIndex s unit) = unit) :
    Nexts (exec (.programActivation c q unit) s) (fun t => completed s t c q idx e nOk 0 0 ∧
      (coreOf t (coreIndex s unit)).state = .running ∧
      (coreOf t (coreIndex s unit)).pc = BitVec.ofNat 64 (coreOf s (coreIndex s unit)).entry) := by
  let taken := cmdTaken s c q idx rest
  let k := coreIndex s unit
  let started := coreStartOp taken k (BitVec.ofNat 64 (coreOf s k).entry)
  have hengine' : engineOf taken c unit = true := hengine
  have hrun : exec (.programActivation c q unit) s = .next (cqe started (cmdRec c q idx e) nOk 0 0) := by
    change execProgramActivation c q unit s = _
    rw [execProgramActivation, nvmeCmd_of_waits hw rfl rfl (by simp)]
    exact congrArg Host.Outcome.next ((if_neg (by rw [hengine']; decide)).trans ((if_neg (by omega)).trans
      (if_neg (not_not_intro hstopped))))
  have hmay : (coreOf taken k).state = .stopped ∧ isTenantCore taken k = true ∧ (unitOf taken (coreUnit taken k)).role = 6 := by
    have hown' : coreUnit taken k = unit := hown
    rw [isTenantCore, hown']
    exact ⟨hstopped, by simp [hlo, hhi], hrole⟩
  have hcores : (cqe started (cmdRec c q idx e) nOk 0 0).cores = started.cores := (cqe_keeps ..).cores rfl
  have hcore : coreOf (cqe started (cmdRec c q idx e) nOk 0 0) k = { (((coreOf taken k).setCr 0x01 0).setCr 0x0A 0) with
      state := .running, pc := BitVec.ofNat 64 (coreOf s k).entry, delay := none, rep := none } := by
    rw [coreOf_congr hcores, show started = setCore taken k _ from if_pos hmay, coreOf_setCore_same]
  exact ⟨_, hrun, ((fetched_cmdTaken hw).keep (coreStartOp_keeps ..)).completed, by rw [hcore], by rw [hcore]⟩

end

theorem programActivation_refused (hengine : engineOf s c unit = false) :
    Nexts (exec (.programActivation c q unit) s) (fun t => completed s t c q idx e (nstat 0 2 true) 0 0) := by
  have hengine' : engineOf (cmdTaken s c q idx rest) c unit = false := hengine
  refine ⟨_, ?_, (fetched_cmdTaken hw).completed⟩
  change execProgramActivation c q unit s = _
  rw [execProgramActivation, nvmeCmd_of_waits hw rfl rfl (by simp)]
  exact congrArg Host.Outcome.next (if_pos (by rw [hengine']; decide))

end
end
/-- Settles O46: I/O commands, local memory and programs, clause by clause. -/
theorem nvmeIoCommandsBecomeTheirTickets : Obligations.NvmeIoCommandsBecomeTheirTickets := by
  intro s c q idx tag unit len off e head bs rest ns n y units lba here host mem tk may gives onCache read write flush zero range
    toLocal fromLocal memPut memGet list image
  refine ⟨fun ⟨hw, hnone⟩ hq hns hrep hn => ⟨fun hop hm => ?_, fun hop hplain hm => ?_, fun hop hm => ?_, fun hop hplain hm => ?_,
      fun hop hplain hd hone h0 hmax hm => ?_, fun hop hplain hd hroom => ?_, fun hop hundef hroom => nvmeRead_undefined hw hq hns hroom hop hn hundef,
      fun hm => ?_, fun hm => ?_⟩,
    fun ⟨hw, hnone⟩ hq => ⟨fun hm => ?_, fun hm => ?_⟩,
    fun ⟨hw, _⟩ hinst hfree hparse hready hacc => executeProgram_submits hw hinst hfree hparse hready hacc,
    fun ⟨hw, hnone⟩ hengine hunit hlen hoff hmagic hzero halign h0 hmax hm => ?_,
    fun ⟨hw, _⟩ hengine hunit hlive hqueue hcur => loadProgram_asks hw hengine hunit hlive hqueue hcur,
    fun ⟨hw, _⟩ hengine hunit => programActivation_ofFen hw hengine hunit,
    fun ⟨hw, _⟩ hengine hlo hhi hrole hstopped hown => programActivation_starts hw hengine hlo hhi hrole hstopped hown,
    fun ⟨hw, _⟩ hengine => programActivation_refused hw hengine⟩
  · exact makes_of_submitOne hw hnone rfl rfl rfl hm (execNvmeRead_waits hw hq hns (room_of_mayMake hm) hop hn)
      (by rw [hostDesc_cmdTaken]; rfl)
  · exact makes_of_submitOne hw hnone rfl rfl rfl hm (execNvmeWrite_waits hw hq hns (room_of_mayMake hm) hrep hop hn hplain)
      (by rw [hostDesc_cmdTaken, lineOfWrite_cmdTaken]; rfl)
  · exact makes_of_submitOne hw hnone rfl rfl rfl hm (execFlush_waits hw hq hns (room_of_mayMake hm) hop) rfl
  · exact makes_of_submitOne hw hnone rfl rfl rfl hm (execWriteZeroes_waits hw hq hns (room_of_mayMake hm) hrep hop hplain) rfl
  · exact datasetManagement_makes hw hq hns hnone hrep hop hplain hd hone h0 hmax hm
  · exact ⟨_, execDatasetManagement_ignores hw hq hns hroom hrep hop hplain hd, (fetched_cmdTaken hw).completed⟩
  · exact makes_of_submitOne hw hnone rfl rfl rfl hm (execMemoryCopy_waits (toLocal := true) hw hq hns (room_of_mayMake hm) hrep) rfl
  · exact makes_of_submitOne hw hnone rfl rfl rfl hm (execMemoryCopy_waits (toLocal := false) hw hq hns (room_of_mayMake hm) hrep) rfl
  · exact makes_of_submitOne hw hnone rfl rfl rfl hm (execMemoryWrite_waits hw (room_of_mayMake hm)) (by rw [hostDesc_cmdTaken]; rfl)
  · exact makes_of_submitOne hw hnone rfl rfl rfl hm (execMemoryRead_waits hw (room_of_mayMake hm)) (by rw [hostDesc_cmdTaken]; rfl)
  · exact makes_of_submitOne hw hnone rfl rfl rfl hm
      (execLoadProgram_waits hw hengine (room_of_mayMake hm) hunit hlen hoff hmagic hzero halign h0 hmax) rfl

end Sys2Proof.Machine
end


section
/-! SUPPORT. What the traffic of messages leaves of the junction (18_federation.md): a ticket that ends takes its messages with it, and
the members of the federation stay. -/

namespace Sys2Proof.Machine

/-- The junction without its messages: connections at the sender, the receive buffer, outcomes to this node and frames to send. -/
def standing (j : Jct) : Jct := { j with conns := [], recv := [], arrived := [], out := [] }

/-- `c'` is `c` with some of its messages. -/
structure Thinned (c c' : FConn) : Prop where
  node : c'.node = c.node
  tenant : c'.tenant = c.tenant
  msgs : ∀ m ∈ c'.msgs, m ∈ c.msgs

/-- `t` is `s` as to the junction and the effective registers, but for messages that have left. -/
structure SameFed (s t : State) : Prop where
  eff : t.regs.eff = s.regs.eff
  standing : standing t.jct = standing s.jct
  conns : ∃ f : FConn → FConn, (∀ c, Thinned c (f c)) ∧ t.jct.conns = s.jct.conns.map f

namespace SameFed

variable {s t u : State}

/-- The connections stay. -/
theorem of_jct (heff : t.regs.eff = s.regs.eff) (hst : Machine.standing t.jct = Machine.standing s.jct)
    (hconns : t.jct.conns = s.jct.conns) : SameFed s t :=
  ⟨heff, hst, id, fun _ => ⟨rfl, rfl, fun _ h => h⟩, by rw [hconns, List.map_id]⟩

theorem refl (s : State) : SameFed s s := of_jct rfl rfl rfl

/-- One more operation, the outermost first. -/
theorem after (k : SameFed t u) (h : SameFed s t) : SameFed s u := by
  obtain ⟨f, hf, hmap⟩ := h.conns
  obtain ⟨g, hg, hmap'⟩ := k.conns
  refine ⟨k.eff.trans h.eff, k.standing.trans h.standing, g ∘ f, fun c => ?_, by rw [hmap', hmap, List.map_map]⟩
  exact ⟨(hg _).node.trans (hf c).node, (hg _).tenant.trans (hf c).tenant, fun m hm => (hf c).msgs m ((hg _).msgs m hm)⟩

theorem of_keeps {m : Nat} (k : Keeps m s t) (hr : m.testBit 4 = false) (hj : m.testBit 27 = false) : SameFed s t := by
  have hjct : t.jct = s.jct := k.jct hj
  exact of_jct (congrArg Regs.eff (k.regs hr)) (congrArg _ hjct) (congrArg _ hjct)

theorem via {m : Nat} (k : Keeps m t u) (hr : m.testBit 4 = false) (hj : m.testBit 27 = false) (h : SameFed s t) : SameFed s u :=
  after (of_keeps k hr hj) h

theorem ite {p : Prop} [Decidable p] (h : SameFed s t) (k : SameFed s u) : SameFed s (if p then t else u) := by
  split <;> assumption

theorem foldl {α : Type} {f : State → α → State} {l : List α} (hf : ∀ t x, SameFed t (f t x)) (h : SameFed s t) :
    SameFed s (l.foldl f t) :=
  List.foldlRecOn (motive := SameFed s) l f h fun b hb a _ => (hf b a).after hb

theorem bump (s : State) (a hi lo k : Nat) : SameFed s (bump s a hi lo k) := of_jct rfl rfl rfl

theorem sendFrame (s : State) (f : Frame) : SameFed s (sendFrame s f) := by
  unfold Machine.sendFrame
  refine ite (refl s) ?_
  split
  · exact of_jct rfl rfl rfl
  · exact refl s

theorem modRecv (s : State) (id : Nat) (g : FRecv → FRecv) : SameFed s (modRecv s id g) := of_jct rfl rfl rfl

theorem flushOutcomes (s : State) (k : Nat × Nat × Nat) : SameFed s (flushOutcomes s k) := by
  unfold Machine.flushOutcomes
  extract_lets mine known told sent
  have htold : SameFed s told := by
    refine foldl (fun t r => ?_) (refl s)
    split
    · exact of_jct rfl rfl rfl
    · exact sendFrame _ _
  exact after (t := told) (of_jct rfl rfl rfl) htold

theorem recvStatus (s : State) (id status : Nat) (done : Bool) : SameFed s (recvStatus s id status done) := by
  unfold Machine.recvStatus
  split
  · exact refl s
  · exact after (flushOutcomes _ _) (modRecv _ _ _)

theorem junctionDone (s : State) (id status : Nat) : SameFed s (junctionDone s id status) := by
  unfold Machine.junctionDone
  split
  · exact refl s
  · exact ite (modRecv _ _ _) (recvStatus _ _ _ _)

theorem dropMessages (s : State) (tag : Nat) : SameFed s (dropMessages s tag) := by
  refine ⟨rfl, rfl, _, fun c => ?_, rfl⟩
  split
  · exact ⟨rfl, rfl, fun m hm => (List.mem_filter.mp hm).1⟩
  · exact ⟨rfl, rfl, fun m hm => hm⟩

theorem freeTicket (s : State) (tag : Nat) (e : Entry) : SameFed s (freeTicket s tag e) := by
  unfold Machine.freeTicket
  extract_lets _ freed kept staging _ staged released told inside
  have hreleased : SameFed s released := ite (via (releaseSlot_keeps ..) rfl rfl (of_jct rfl rfl rfl)) (of_jct rfl rfl rfl)
  have htold : SameFed s told := after (dropMessages _ _) hreleased
  exact via (dropCtx_keeps ..) rfl rfl (via (releaseHandles_keeps ..) rfl rfl (via (leaveInside_keeps ..) rfl rfl htold))

theorem finishPlain (s : State) (tag : Nat) : SameFed s (finishPlain s tag) := by
  have hended (e : Entry) : SameFed s (countEnd s e) := of_keeps (countEnd_keeps ..) rfl rfl
  have hposted (e : Entry) (b : Sbx) : SameFed s { countEnd s e with sbx := b } := after (t := countEnd s e) (of_jct rfl rfl rfl) (hended e)
  have hfree {t : State} (e : Entry) (h : SameFed s t) : SameFed s (Machine.freeTicket t tag e) := after (freeTicket _ _ _) h
  unfold Machine.finishPlain
  split
  · exact refl s
  · refine ite (hfree _ (hended _)) ?_
    dsimp -proj only
    split
    · refine ite (hfree _ (hposted _ _)) (ite ?_ (hfree _ (via (cqWrite_keeps ..) rfl rfl (hposted _ _))))
      exact via (setCore_keeps ..) rfl rfl (via (setEntry_keeps ..) rfl rfl (hposted _ _))
    · exact via (nvmeTicketDone_keeps ..) rfl rfl (hfree _ (hposted _ _))
    · exact after (junctionDone _ _ _) (hfree _ (hposted _ _))
    · exact hfree _ (hposted _ _)

theorem park (s : State) (x : Siding) : SameFed s (park s x) := by
  unfold Machine.park
  extract_lets l tooMany first l' r _ parked
  exact foldl (fun t x => after (bump _ _ _ _ _) (ite (refl t) (bump t _ _ _ _))) (of_jct rfl rfl rfl)

theorem messageOutcome (s : State) (node : Nat) (m : FMsg) (status : Nat) : SameFed s (messageOutcome s node m status) := by
  unfold Machine.messageOutcome
  split
  · exact refl s
  · extract_lets told out
    have htold : SameFed s told := ite (after (bump _ _ _ _ _) (park s _)) (refl s)
    exact after (finishPlain _ _) (via (modEntry_keeps ..) rfl rfl (via (report_keeps ..) rfl rfl htold))

end SameFed

end Sys2Proof.Machine
end


section
/-! SUPPORT and O50. Membership and placement (18_federation.md, R616, R619, R630 to R637, R641). -/

namespace Sys2Proof.Machine

section
variable {s t u : State} {w : WireFrame} {f : Frame} {n : FNeighbour} {node inc port g term k : Nat}

/-! ## Frames that are taken in (R617, R618) -/

/-- The state once a port has counted the FEC words of a frame. -/
def fecCounted (s : State) (w : WireFrame) : State :=
  bump (bump s (Reg.FED_PORT_FEC + 0x10 * w.port) 15 0 w.corrected) (Reg.FED_PORT_FEC + 0x10 * w.port) 31 16 w.uncorrected

theorem frameIn_taken (h : (frameIn s w).1 = some f) : frameIn s w = (some f, fecCounted s w) := by
  rw [frameIn] at h ⊢
  split_ifs at h ⊢
  · obtain rfl : frameOf w.bytes = f := Option.some.inj h
    rfl

theorem onFrame_of_taken {h : State → Frame → State} (hin : (frameIn s w).1 = some f) (ht : f.type = k) :
    onFrame s w k h = h (fecCounted s w) f := by
  rw [onFrame, frameIn_taken hin]
  exact if_pos ht

/-! ## What keeps the members -/

/-- The junction without its messages and its placement groups. -/
def members (j : Jct) : Jct :=
  { standing j with incoming := [], groups := [], terms := [], promotions := [], promoting := [] }

/-- `t` has the members, the lost nodes and the links of `s`, and its effective registers. -/
structure SameMembers (s t : State) : Prop where
  eff : t.regs.eff = s.regs.eff
  same : members t.jct = members s.jct

namespace SameMembers

theorem refl (s : State) : SameMembers s s := ⟨rfl, rfl⟩

theorem after (k : SameMembers t u) (h : SameMembers s t) : SameMembers s u := ⟨k.eff.trans h.eff, k.same.trans h.same⟩

theorem of_fed (h : SameFed s t) : SameMembers s t :=
  ⟨h.eff, congrArg (fun j => { j with incoming := [], groups := [], terms := [], promotions := [], promoting := [] }) h.standing⟩

theorem of_keeps {m : Nat} (k : Keeps m s t) (hr : m.testBit 4 = false) (hj : m.testBit 27 = false) : SameMembers s t :=
  of_fed (.of_keeps k hr hj)

theorem ite {p : Prop} [Decidable p] (h : SameMembers s t) (k : SameMembers s u) : SameMembers s (if p then t else u) := by
  split <;> assumption

theorem foldl {α : Type} {f : State → α → State} {l : List α} (hf : ∀ t x, SameMembers t (f t x)) (h : SameMembers s t) :
    SameMembers s (l.foldl f t) :=
  List.foldlRecOn (motive := SameMembers s) l f h fun b hb a _ => (hf b a).after hb

theorem neighbours (h : SameMembers s t) : t.jct.neighbours = s.jct.neighbours := by
  have hsame := congrArg Jct.neighbours h.same
  exact hsame
theorem lost (h : SameMembers s t) : t.jct.lost = s.jct.lost := by
  have hsame := congrArg Jct.lost h.same
  exact hsame
theorem losses (h : SameMembers s t) : t.jct.losses = s.jct.losses := by
  have hsame := congrArg Jct.losses h.same
  exact hsame
theorem links (h : SameMembers s t) : t.jct.links = s.jct.links := by
  have hsame := congrArg Jct.links h.same
  exact hsame

theorem closeConn (s : State) (node ten : Nat) : SameMembers s (closeConn s node ten) := by
  unfold Machine.closeConn
  split
  · exact refl s
  · exact foldl (fun t m => of_fed (.messageOutcome t _ _ _)) ⟨rfl, rfl⟩

theorem floodFrame (s : State) (f : Frame) : SameMembers s (floodFrame s f) := ⟨rfl, rfl⟩

theorem promote (s : State) (g : Nat) : SameMembers s (promote s g) := by
  unfold Machine.promote
  split
  · exact refl s
  · extract_lets term grouped _ noted counted at_ told
    have hcounted : SameMembers s counted := ⟨rfl, rfl⟩
    have htold : SameMembers s told := foldl (fun t c => of_keeps (nsChanged_keeps ..) rfl rfl) hcounted
    exact ite (after (floodFrame _ _) htold) htold

theorem settlePromotions (s : State) : SameMembers s (settlePromotions s) := by
  unfold Machine.settlePromotions
  exact ite (refl s) (foldl promote (refl s))

theorem beginPromotions (s : State) (node : Nat) : SameMembers s (beginPromotions s node) := by
  unfold Machine.beginPromotions
  exact after (settlePromotions _) ⟨rfl, rfl⟩

theorem neighbourOf (h : SameMembers s t) : neighbourOf t node = neighbourOf s node := by
  rw [Machine.neighbourOf, Machine.neighbourOf, h.neighbours]

theorem nodeOf (h : SameMembers s t) : nodeOf t = nodeOf s := by rw [Machine.nodeOf, Machine.nodeOf, Machine.eff, Machine.eff, effWord, effWord, h.eff]

end SameMembers

/-! ## Losses (R631, R633) -/

/-- Learning a loss leaves the members, the links and the losses noted; a node that is no neighbour is then held as lost. -/
theorem learnLoss_learns : (learnLoss s node inc).jct.neighbours = s.jct.neighbours ∧
    (learnLoss s node inc).jct.losses = s.jct.losses ∧ (learnLoss s node inc).jct.links = s.jct.links ∧
    (neighbourOf s node = none → node ≠ nodeOf s → node ∈ (learnLoss s node inc).jct.lost) := by
  unfold learnLoss
  extract_lets conns _ quiet closed newer lost
  have hclosed : SameMembers s closed := SameMembers.foldl (t := quiet) (fun t c => .closeConn t c.node c.tenant) ⟨rfl, rfl⟩
  have hnewer : newer = ((neighbourOf s node).map (fun n => n.inc != inc)).getD false := by unfold newer; rw [hclosed.neighbourOf]
  clear_value newer closed
  split
  · next h =>
    refine ⟨hclosed.neighbours, hclosed.losses, hclosed.links, fun hnone hnode => ?_⟩
    rw [hnewer, hnone, hclosed.nodeOf] at h
    exact absurd h (by simp [hnode])
  · have hlost := SameMembers.beginPromotions (setJct closed { closed.jct with lost := lost }) node
    refine ⟨hlost.neighbours.trans hclosed.neighbours, hlost.losses.trans hclosed.losses, hlost.links.trans hclosed.links,
      fun _ _ => ?_⟩
    rw [hlost.lost]
    change node ∈ (if closed.jct.lost.contains node then closed.jct.lost else closed.jct.lost ++ [node])
    split
    · next hin => exact List.contains_iff_mem.mp hin
    · simp

/-- A neighbour that is declared lost is gone and held as lost; with the last one every group is demoted. -/
theorem loseNeighbour_loses :
    (loseNeighbour s n).jct.neighbours = s.jct.neighbours.filter (fun x => x.node != n.node) ∧
      (n.node ≠ nodeOf s → n.node ∈ (loseNeighbour s n).jct.lost) ∧ (loseNeighbour s n).jct.links = s.jct.links ∧
      (s.jct.neighbours.filter (fun x => x.node != n.node) = [] → ∀ y ∈ (loseNeighbour s n).jct.groups, y.primary = false) := by
  unfold loseNeighbour
  extract_lets _ left _ told learnt
  have htold : SameMembers left told := .ite (.floodFrame _ _) (.refl _)
  obtain ⟨hneighbours, -, hlinks, hlost⟩ := learnLoss_learns (s := told) (node := n.node) (inc := n.inc)
  have hgone : neighbourOf left n.node = none := by
    rw [neighbourOf, List.find?_eq_none]
    intro x hx
    simpa using (List.mem_filter.mp hx).2
  have hin : n.node ≠ nodeOf s → n.node ∈ learnt.jct.lost := fun hnode =>
    hlost (htold.neighbourOf.trans hgone) (by rw [htold.nodeOf]; exact hnode)
  have hall : learnt.jct.neighbours = s.jct.neighbours.filter (fun x => x.node != n.node) := hneighbours.trans htold.neighbours
  have hports : learnt.jct.links = s.jct.links := hlinks.trans htold.links
  clear_value learnt
  split
  · refine ⟨hall, hin, hports, fun _ y hy => ?_⟩
    obtain ⟨x, -, rfl⟩ := List.mem_map.mp hy
    rfl
  · next hsome => exact ⟨hall, hin, hports, fun hempty => absurd (hall.trans hempty) (by simpa using hsome)⟩

end

section
variable {s : State} {w : WireFrame} {f : Frame} {n : FNeighbour} {x : FGroup} {node inc port g term : Nat} {cr1 : Bool}

theorem node_of_neighbourOf (h : neighbourOf s node = some n) : n.node = node := by
  rw [neighbourOf] at h
  simpa using List.find?_some h

theorem neighbourOf_loseNeighbour : neighbourOf (loseNeighbour s n) n.node = none := by
  rw [neighbourOf, loseNeighbour_loses.1, List.find?_eq_none]
  intro x hx
  simpa using (List.mem_filter.mp hx).2

/-! ## Heartbeats and losses (R619, R630 to R634) -/

theorem heartbeat_ofNew (hin : (frameIn s w).1 = some f) (ht : f.type = 4) (hsrc : f.src ≠ nodeOf s)
    (hnone : neighbourOf s f.src = none) (hstays : bitOf f.flags 1 = false) (hroom : s.jct.neighbours.length < 64) :
    Nexts (exec (.heartbeat w) s) (fun t => t.jct.lost = s.jct.lost.filter (· != f.src) ∧
      t.jct.neighbours = s.jct.neighbours ++ [{
        node := f.src, inc := f.srcInc, serial := f.param, heard := [(w.port, s.now)],
        macs := [(w.port, leNat (slice w.bytes 6 6).reverse)] }]) := by
  let fresh : FNeighbour := {
    node := f.src, inc := f.srcInc, serial := f.param, heard := [(w.port, s.now)],
    macs := [(w.port, leNat (slice w.bytes 6 6).reverse)] }
  have hsrc' : f.src ≠ nodeOf (fecCounted s w) := hsrc
  have hnone' : neighbourOf (fecCounted s w) f.src = none := hnone
  have hrun : exec (.heartbeat w) s = .next (newNeighbour (fecCounted s w) fresh) := by
    change execHeartbeat w s = _
    rw [execHeartbeat, onFrame_of_taken hin ht]
    dsimp only
    rw [if_neg hsrc', hnone', hstays]
    exact congrArg Host.Outcome.next (if_neg (by decide))
  refine ⟨_, hrun, ?_⟩
  unfold newNeighbour
  have hroom' : ¬ 64 ≤ (fecCounted s w).jct.neighbours.length := by
    change ¬ 64 ≤ s.jct.neighbours.length
    omega
  rw [if_neg hroom']
  extract_lets _ joined
  split
  · exact ⟨rfl, rfl⟩
  · split <;> exact ⟨rfl, rfl⟩

theorem heartbeat_leaving (hin : (frameIn s w).1 = some f) (ht : f.type = 4) (hsrc : f.src ≠ nodeOf s)
    (hsome : neighbourOf s f.src = some n) (hinc : n.inc = f.srcInc) (hleaves : bitOf f.flags 1 = true) :
    Nexts (exec (.heartbeat w) s) (fun t => neighbourOf t f.src = none ∧ f.src ∈ t.jct.lost) := by
  have hsrc' : f.src ≠ nodeOf (fecCounted s w) := hsrc
  have hsome' : neighbourOf (fecCounted s w) f.src = some n := hsome
  have hnode : n.node = f.src := node_of_neighbourOf hsome
  have hother : n.node ≠ nodeOf (fecCounted s w) := by rw [hnode]; exact hsrc
  have hrun : exec (.heartbeat w) s = .next (loseNeighbour (fecCounted s w) n) := by
    change execHeartbeat w s = _
    rw [execHeartbeat, onFrame_of_taken hin ht]
    dsimp only
    rw [if_neg hsrc', hsome']
    exact congrArg Host.Outcome.next ((if_neg (not_not_intro hinc)).trans (if_pos hleaves))
  refine ⟨_, hrun, ?_⟩
  rw [← hnode]
  exact ⟨neighbourOf_loseNeighbour, loseNeighbour_loses.2.1 hother⟩

theorem heartbeat_duplicate (hin : (frameIn s w).1 = some f) (ht : f.type = 4) (hsrc : f.src = nodeOf s)
    (hserial : f.param ≠ s.dev.serial) : Nexts (exec (.heartbeat w) s) (fun t => t.jct.duplicate = true) := by
  let noted := setJct (fecCounted s w) { s.jct with duplicate := true }
  have hrun : exec (.heartbeat w) s = .next (if s.jct.duplicate then fecCounted s w else
      record noted 0x0050 sevFree 0 190 0 [3#8]) := by
    change execHeartbeat w s = _
    rw [execHeartbeat, onFrame_of_taken hin ht]
    refine congrArg Host.Outcome.next ((if_pos hsrc).trans ?_)
    have hdup : (f.param = (fecCounted s w).dev.serial ∨ (fecCounted s w).jct.duplicate = true) ↔ s.jct.duplicate = true :=
      or_iff_right hserial
    exact if_congr hdup rfl rfl
  refine ⟨_, hrun, ?_⟩
  split
  · next h => exact h
  · exact congrArg Jct.duplicate ((record_keeps ..).jct rfl)

theorem loss_noted (hin : (frameIn s w).1 = some f) (ht : f.type = 5)
    (hnew : (f.param % 65536, f.param / 65536 % 2 ^ 32) ∉ s.jct.losses) : Nexts (exec (.loss w) s) (fun t =>
      (f.param % 65536, f.param / 65536 % 2 ^ 32) ∈ t.jct.losses) := by
  let noted := setJct (fecCounted s w) { s.jct with
    losses := s.jct.losses ++ [(f.param % 65536, f.param / 65536 % 2 ^ 32)] }
  have hrun : exec (.loss w) s = .next (learnLoss (floodOn noted f) (f.param % 65536) (f.param / 65536 % 2 ^ 32)) := by
    change execLoss w s = _
    rw [execLoss, onFrame_of_taken hin ht]
    have hnew' : (f.param % 65536, f.param / 65536 % 2 ^ 32) ∉ (fecCounted s w).jct.losses := hnew
    exact congrArg Host.Outcome.next (if_neg (by simpa using hnew'))
  have hon : SameMembers noted (floodOn noted f) := .ite (.refl _) (.floodFrame _ _)
  obtain ⟨-, hlosses, -⟩ := learnLoss_learns (s := floodOn noted f) (node := f.param % 65536) (inc := f.param / 65536 % 2 ^ 32)
  refine ⟨_, hrun, ?_⟩
  change _ ∈ (learnLoss _ _ _).jct.losses
  rw [hlosses, hon.losses]
  simp [noted, setJct]

theorem loss_known (hin : (frameIn s w).1 = some f) (ht : f.type = 5)
    (hold : (f.param % 65536, f.param / 65536 % 2 ^ 32) ∈ s.jct.losses) : Nexts (exec (.loss w) s) (fun t => t.jct = s.jct) := by
  refine ⟨fecCounted s w, ?_, rfl⟩
  change execLoss w s = _
  rw [execLoss, onFrame_of_taken hin ht]
  have hold' : (f.param % 65536, f.param / 65536 % 2 ^ 32) ∈ (fecCounted s w).jct.losses := hold
  exact congrArg Host.Outcome.next (if_pos (by simpa using hold'))

theorem neighbourTimeout_loses (hsome : neighbourOf s node = some n) (hnode : node ≠ nodeOf s) :
    Nexts (exec (.neighbourTimeout node) s) (fun t => neighbourOf t node = none ∧ node ∈ t.jct.lost ∧
      (s.jct.neighbours = [n] → ∀ y ∈ t.jct.groups, y.primary = false)) := by
  have hn : n.node = node := node_of_neighbourOf hsome
  have hother : n.node ≠ nodeOf s := by rwa [hn]
  obtain ⟨-, hlost, -, hdemoted⟩ := loseNeighbour_loses (s := s) (n := n)
  refine ⟨loseNeighbour s n, ?_, by rw [← hn]; exact neighbourOf_loseNeighbour, by rw [← hn]; exact hlost hother, fun hone => hdemoted ?_⟩
  · change execNeighbourTimeout node s = _
    rw [execNeighbourTimeout, hsome]
  · rw [hone]
    simp

theorem uaserLinkDown_loses (hport : port < 4) (hfour : s.jct.links.length = 4) (hone : s.jct.neighbours = [n])
    (hheard : n.heard = [(port, inc)]) :
    Nexts (exec (.uaserLinkDown port) s) (fun t => t.jct.links.getD port 0 = 0 ∧ t.jct.neighbours = []) := by
  let down := setJct s { s.jct with links := s.jct.links.set port 0, cr1 := s.jct.cr1.set port false }
  have hzero : (s.jct.links.set port 0).getD port 0 = 0 := by simp [List.getD, hfour, hport]
  obtain ⟨hneighbours, -, hlinks, -⟩ := loseNeighbour_loses (s := down) (n := n)
  refine ⟨loseNeighbour down n, ?_, by rw [hlinks]; exact hzero, ?_⟩
  · change execUaserLinkDown port s = _
    rw [execUaserLinkDown]
    have hgone : s.jct.neighbours.filter (fun n => (n.heard.filter (fun p => decide (s.now ≤ p.2 + 500))).all
        (fun p => (s.jct.links.set port 0).getD p.1 0 != 2)) = [n] := by
      rw [hone, List.filter_eq_self]
      intro y hy
      obtain rfl : y = n := by simpa using hy
      rw [hheard, List.all_eq_true]
      intro p hp
      obtain rfl : p = (port, inc) := by simpa using (List.mem_filter.mp hp).1
      rw [hzero]
      rfl
    exact congrArg (fun l => Host.Outcome.next (l.foldl loseNeighbour down)) hgone
  · rw [hneighbours]
    change s.jct.neighbours.filter _ = []
    rw [hone]
    simp

theorem uaserLinkUp_ups (hport : port < 4) (hfour : s.jct.links.length = 4) :
    Nexts (exec (.uaserLinkUp port cr1) s) (fun t => t.jct.links.getD port 0 = 2 ∧ t.jct.neighbours = s.jct.neighbours) := by
  refine ⟨_, rfl, ?_, rfl⟩
  change (s.jct.links.set port 2).getD port 0 = 2
  simp [List.getD, hfour, hport]

/-! ## Placement and promotion (R635 to R637) -/

theorem promoted_demotes (hin : (frameIn s w).1 = some f) (ht : f.type = 6) (hg : f.param % 2 ^ 32 = g)
    (hterm : f.param / 2 ^ 32 % 65536 = term) (hgroups : s.jct.groups = [x]) (hgroup : x.group = g) (hlater : x.term < term) :
    Nexts (exec (.promoted w) s) (fun t => t.jct.groups = [{ x with
      term := term, primary := false, claim := false, holder := some f.src }] ∧ Tab.get? t.jct.terms g = some term) := by
  let seen : State := if s.jct.promotions.contains (g, term) then fecCounted s w
    else floodOn (setJct (fecCounted s w) { s.jct with promotions := s.jct.promotions ++ [(g, term)] }) f
  have hseen : seen.jct.groups = [x] := by
    unfold seen floodOn
    split
    · exact hgroups
    · split <;> exact hgroups
  let demoted : State := modGroup seen g (fun x => { x with term := term, primary := false, claim := false, holder := some f.src })
  have hrun : exec (.promoted w) s = .next (setJct demoted { demoted.jct with
      terms := Tab.set demoted.jct.terms g term, promoting := demoted.jct.promoting.filter (· != g) }) := by
    change execPromoted w s = _
    rw [execPromoted, onFrame_of_taken hin ht]
    dsimp only
    rw [hg, hterm]
    change Host.Outcome.next (match seen.jct.groups.find? (fun x => x.group == g) with | none => _ | some x => _) = _
    rw [hseen, List.find?_cons_of_pos (by simpa using hgroup)]
    exact congrArg Host.Outcome.next (if_pos hlater)
  refine ⟨_, hrun, ?_, ?_⟩
  · change seen.jct.groups.map _ = _
    rw [hseen]
    simp [hgroup]
  · exact Tab.get?_set_same ..

theorem heartbeatTick_sends (hjoined : s.jct.joined = true) (hstays : s.jct.left = false) : exec .heartbeatTick s =
    .next (floodFrame s { ownFrame s 4 0xFFFF 0 with flags := 0, param := s.dev.serial }) := by
  change execHeartbeatTick s = _
  rw [execHeartbeatTick, hjoined, hstays]
  rfl

theorem heartbeatTick_waits (hjoined : s.jct.joined = false) : exec .heartbeatTick s = .next s := by
  change execHeartbeatTick s = _
  rw [execHeartbeatTick, hjoined]
  rfl

theorem primaryClaimTimeout_claims (hjoined : s.jct.joined = true) (hone : s.jct.duplicate = false) :
    Nexts (exec .primaryClaimTimeout s) (fun t => t.jct.groups = s.jct.groups.map (fun x =>
      if x.claim && x.nodes.head? == some (nodeOf s) && x.nsid != 0 then { x with primary := true, claim := false } else x)) := by
  refine ⟨setJct s { s.jct with groups := s.jct.groups.map (fun x =>
    if x.claim && x.nodes.head? == some (nodeOf s) && x.nsid != 0 then { x with primary := true, claim := false } else x) },
    ?_, rfl⟩
  change execPrimaryClaimTimeout s = _
  rw [execPrimaryClaimTimeout, hjoined, hone]
  rfl

/-! ## Tables (R641) -/

theorem fedTableLoad_of_pending {c : Nat} {set : Tab Nat} {table : Bytes} (hc : commitOf Reg.FED_TABLE_CTL = c)
    (hset : (groupAt s c).pending = some set) : exec (.fedTableLoad table) s =
      (let t := fld (inSet set Reg.FED_TABLE_CTL) 1 0
       let bs := fit (inSet set Reg.FED_TABLE_LEN) table
       if !tableCtlOk set then .next (refuseSet s c 190)
       else if t = 1 then .next (setJct (takeSet s c) { s.jct with routes := parseNextHops bs })
       else if !s.jct.promoting.isEmpty then .next s
       else if !groupsOk s (parseGroups bs) then .next (refuseSet s c 190)
       else
         let l := (parseGroups bs).map (loadGroup s)
         let terms := l.foldl (fun t x => Tab.set t x.1.group x.1.term) s.jct.terms
         let s := setJct (takeSet s c) { s.jct with groups := l.map (·.1), terms := terms }
         .next (bump s Reg.FED_PLACE 31 24 (l.filter (·.2)).length)) := by
  change execFedTableLoad table s = _
  subst hc
  rw [execFedTableLoad]
  dsimp only
  rw [hset]

theorem fedTableLoad_routes {c : Nat} {set : Tab Nat} {table : Bytes} {routes : Tab (Nat × Nat)} (hc : commitOf Reg.FED_TABLE_CTL = c)
    (hset : (groupAt s c).pending = some set)
    (hroutes : parseNextHops (fit (inSet set Reg.FED_TABLE_LEN) table) = routes) (hok : tableCtlOk set = true) (hkind : fld (inSet set Reg.FED_TABLE_CTL) 1 0 = 1) :
    Nexts (exec (.fedTableLoad table) s) (fun t =>
      t.jct.routes = routes ∧
        (groupAt t c).pending = none) := by
  refine ⟨setJct (takeSet s c) { s.jct with
    routes := routes }, ?_, rfl, ?_⟩
  · rw [fedTableLoad_of_pending hc hset]
    subst hroutes
    exact (if_neg (by simp [hok])).trans (if_pos hkind)
  · exact groupAt_takeSet (s := s) hset

theorem fedTableLoad_groups {c : Nat} {set : Tab Nat} {table : Bytes} (hc : commitOf Reg.FED_TABLE_CTL = c)
    (hset : (groupAt s c).pending = some set)
    (hok : tableCtlOk set = true) (hkind : fld (inSet set Reg.FED_TABLE_CTL) 1 0 = 2) (hquiet : s.jct.promoting = [])
    (hgroups : groupsOk s (parseGroups (fit (inSet set Reg.FED_TABLE_LEN) table)) = true) :
    Nexts (exec (.fedTableLoad table) s) (fun t =>
      t.jct.groups = (parseGroups (fit (inSet set Reg.FED_TABLE_LEN) table)).map (fun y => (loadGroup s y).1) ∧
        t.jct.routes = s.jct.routes) := by
  let loaded := (parseGroups (fit (inSet set Reg.FED_TABLE_LEN) table)).map (loadGroup s)
  let terms := loaded.foldl (fun t x => Tab.set t x.1.group x.1.term) s.jct.terms
  let held := setJct (takeSet s c) { s.jct with groups := loaded.map (·.1), terms := terms }
  refine ⟨bump held Reg.FED_PLACE 31 24 (loaded.filter (·.2)).length, ?_, List.map_map, rfl⟩
  rw [fedTableLoad_of_pending hc hset]
  have hwrong : ¬ fld (inSet set Reg.FED_TABLE_CTL) 1 0 = 1 := by omega
  have hidle : ¬ (!s.jct.promoting.isEmpty) = true := by simp [hquiet]
  have hgood : ¬ (!groupsOk s (parseGroups (fit (inSet set Reg.FED_TABLE_LEN) table))) = true := by simp [hgroups]
  exact (if_neg (by simp [hok])).trans ((if_neg hwrong).trans ((if_neg hidle).trans (if_neg hgood)))

theorem fedTableLoad_refused {c : Nat} {set : Tab Nat} {table : Bytes} (hc : commitOf Reg.FED_TABLE_CTL = c)
    (hset : (groupAt s c).pending = some set)
    (hbad : tableCtlOk set = false) :
    Nexts (exec (.fedTableLoad table) s) (fun t => t.jct = s.jct ∧
      (groupAt t c).pending = none ∧ (groupAt t c).rejected = true) := by
  have hgroup := (refuseSet_sameCommits s c 190).groupAt c
  rw [groupAt_setGroup_same] at hgroup
  refine ⟨refuseSet s c 190, ?_, (record_keeps ..).jct rfl, by rw [hgroup], by rw [hgroup]⟩
  rw [fedTableLoad_of_pending hc hset]
  exact if_pos (by simp [hbad])

end

/-- Settles O50, clause by clause: what heartbeats, losses, links, promotions and tables change of the junction. -/
theorem federationMembershipAndPlacementMove : Obligations.FederationMembershipAndPlacementMove := by
  unfold Obligations.FederationMembershipAndPlacementMove
  intro s port node g term inc cr1 w f n x set table
  dsimp only
  exact ⟨fun ⟨_, hin, ht⟩ hsrc hnone hstays hroom => heartbeat_ofNew hin ht hsrc hnone hstays hroom,
    fun ⟨_, hin, ht⟩ hsrc hsome hinc hleaves => heartbeat_leaving hin ht hsrc hsome hinc hleaves,
    fun ⟨_, hin, ht⟩ hsrc hserial => heartbeat_duplicate hin ht hsrc hserial,
    fun ⟨_, hin, ht⟩ hnew => loss_noted hin ht hnew,
    fun ⟨_, hin, ht⟩ hold => loss_known hin ht hold,
    fun ⟨_, hin, ht⟩ hg hterm hgroups hgroup hlater => promoted_demotes hin ht hg hterm hgroups hgroup hlater,
    heartbeatTick_sends, heartbeatTick_waits, neighbourTimeout_loses, uaserLinkDown_loses, uaserLinkUp_ups,
    primaryClaimTimeout_claims,
    fun hset => ⟨fedTableLoad_routes rfl hset rfl, fedTableLoad_groups rfl hset, fedTableLoad_refused rfl hset⟩⟩

end Sys2Proof.Machine
end


section
/-! SUPPORT. Connections of the junction (18_federation.md, R621 to R623): a connection at its sender while its messages are
transmitted, and a connection at its receiver. -/

namespace Sys2Proof.Machine

section
variable {s t u : State} {c c' : FConn} {m : FMsg} {x : FIncoming} {f : Frame} {w : WireFrame} {k : Nat × Nat × Nat}
  {node ten inc seq upTo : Nat} {window : Option Nat}

/-! ## Connections at the sender (R622) -/

theorem connOf_congr (h : t.jct.conns = s.jct.conns) (node ten : Nat) : connOf t node ten = connOf s node ten := by
  rw [connOf, connOf, h]

theorem node_of_connOf (h : connOf s node ten = some c) : c.node = node ∧ c.tenant = ten := by
  rw [connOf] at h
  simpa using List.find?_some h

/-- A connection read after the connections have been changed without their keys. -/
theorem connOf_map {g : FConn → FConn} (hg : ∀ c, (g c).node = c.node ∧ (g c).tenant = c.tenant)
    (h : t.jct.conns = s.jct.conns.map g) (node ten : Nat) : connOf t node ten = (connOf s node ten).map g := by
  have hkey : (fun c => c.node == node && c.tenant == ten) ∘ g = fun c : FConn => c.node == node && c.tenant == ten := by
    funext c
    simp [hg c]
  rw [connOf, connOf, h, List.find?_map, hkey]

theorem connOf_setConn (h : connOf s node ten = some c) (hnode : c'.node = node) (hten : c'.tenant = ten) :
    connOf (setConn s c') node ten = some c' := by
  obtain ⟨hnode', hten'⟩ := node_of_connOf h
  rw [connOf_map (s := s) (fun x => ?_) rfl, h, Option.map_some, if_pos ⟨hnode'.trans hnode.symm, hten'.trans hten.symm⟩]
  split
  · next hx => exact ⟨hx.1.symm, hx.2.symm⟩
  · exact ⟨rfl, rfl⟩

/-- A connection whose messages have ended is left, its messages among those it had. -/
theorem SameFed.connOf (h : SameFed s t) (hc : connOf s node ten = some c) :
    ∃ c', connOf t node ten = some c' ∧ Thinned c c' := by
  obtain ⟨g, hg, hmap⟩ := h.conns
  refine ⟨g c, ?_, hg c⟩
  rw [connOf_map (fun c => ⟨(hg c).node, (hg c).tenant⟩) hmap, hc, Option.map_some]

theorem SameFed.connOf_none (h : SameFed s t) (hc : Machine.connOf s node ten = none) : Machine.connOf t node ten = none := by
  obtain ⟨g, hg, hmap⟩ := h.conns
  rw [connOf_map (fun c => ⟨(hg c).node, (hg c).tenant⟩) hmap, hc, Option.map_none]

theorem conns_sendFrame (s : State) (f : Frame) : (sendFrame s f).jct.conns = s.jct.conns := by
  unfold sendFrame
  split
  · rfl
  · split <;> rfl

/-! ## Transmission (R622) -/

/-- A message without what its transmission changes. -/
def content (m : FMsg) : FMsg := { m with seq := 0, sent := false, sentAt := 0 }

/-- `c'` is `c` after some of its messages have been transmitted. -/
structure Pumped (c c' : FConn) : Prop where
  node : c'.node = c.node
  tenant : c'.tenant = c.tenant
  inc : c'.inc = c.inc
  window : c'.window = c.window
  length : c'.msgs.length = c.msgs.length
  content : ∀ m' ∈ c'.msgs, ∃ m ∈ c.msgs, content m' = content m
  stays : ∀ m ∈ c.msgs, m.sent = true → m ∈ c'.msgs

theorem Pumped.refl (c : FConn) : Pumped c c := ⟨rfl, rfl, rfl, rfl, rfl, fun m hm => ⟨m, hm, rfl⟩, fun _ hm _ => hm⟩

theorem Pumped.trans {c'' : FConn} (h : Pumped c c') (k : Pumped c' c'') : Pumped c c'' where
  node := k.node.trans h.node
  tenant := k.tenant.trans h.tenant
  inc := k.inc.trans h.inc
  window := k.window.trans h.window
  length := k.length.trans h.length
  content m hm := by
    obtain ⟨m', hm', heq'⟩ := k.content m hm
    obtain ⟨m'', hm'', heq''⟩ := h.content m' hm'
    exact ⟨m'', hm'', heq'.trans heq''⟩
  stays m hm hsent := k.stays m (h.stays m hm hsent) hsent

/-- The transmission of the first message that waits. -/
theorem Pumped.transmit {now : Nat} (hm : c.msgs.find? (fun m => !m.sent) = some m) :
    Pumped c { c with
      msgs := c.msgs.map (fun x => if x.tag = m.tag ∧ !x.sent then { m with seq := c.nextSeq, sent := true, sentAt := now } else x),
      nextSeq := c.nextSeq + 1 } where
  node := rfl
  tenant := rfl
  inc := rfl
  window := rfl
  length := List.length_map ..
  content m' hm' := by
    obtain ⟨x, hx, rfl⟩ := List.mem_map.mp hm'
    split
    · exact ⟨m, List.mem_of_find?_eq_some hm, rfl⟩
    · exact ⟨x, hx, rfl⟩
  stays x hx hsent := List.mem_map.mpr ⟨x, hx, by simp [hsent]⟩

/-- Transmission leaves the connection, with its messages. -/
theorem connOf_pumpConn (h : connOf s node ten = some c) (n : Nat) :
    ∃ c', connOf (pumpConn n s node ten) node ten = some c' ∧ Pumped c c' := by
  induction n generalizing s c with
  | zero => exact ⟨c, h, .refl c⟩
  | succ n ih =>
    rw [pumpConn, h]
    dsimp only
    split
    · exact ⟨c, h, .refl c⟩
    · next m hm =>
      split
      · exact ⟨c, h, .refl c⟩
      · obtain ⟨hnode, hten⟩ := node_of_connOf h
        have hpump := Pumped.transmit (now := s.now) hm
        have hsent := (connOf_congr (conns_sendFrame s (dataFrame s c { m with seq := c.nextSeq, sent := true, sentAt := s.now }))
          node ten).trans h
        obtain ⟨c', hc', hpump'⟩ := ih (connOf_setConn hsent (hpump.node.trans hnode) (hpump.tenant.trans hten))
        exact ⟨c', hc', hpump.trans hpump'⟩

/-- With every message transmitted, nothing is. -/
theorem pumpConn_of_sent (h : connOf s node ten = some c) (hsent : c.msgs = []) (n : Nat) : pumpConn n s node ten = s := by
  cases n with
  | zero => rfl
  | succ n => rw [pumpConn, h]; dsimp only; rw [hsent]; rfl

/-! ## What messages sent leave of the receiver -/

/-- The junction without the connections at the sender and the frames to send. -/
def received (j : Jct) : Jct := { j with conns := [], out := [] }

theorem received_sendFrame (s : State) (f : Frame) : received (sendFrame s f).jct = received s.jct := by
  unfold sendFrame
  split
  · rfl
  · split <;> rfl

theorem received_pumpConn (n : Nat) (s : State) (node ten : Nat) : received (pumpConn n s node ten).jct = received s.jct := by
  induction n generalizing s with
  | zero => rfl
  | succ n ih =>
    rw [pumpConn]
    split
    · rfl
    · dsimp only
      split
      · rfl
      · split
        · rfl
        · exact (ih _).trans (received_sendFrame ..)

theorem received_ackUpTo : received (ackUpTo s node inc ten upTo window).jct = received s.jct := by
  unfold ackUpTo
  split
  · rfl
  · split
    · rfl
    · exact received_pumpConn ..

/-- An acknowledgement of the incarnation that the connection leads to marks the messages before it. -/
theorem connOf_ackUpTo (h : connOf s node ten = some c) (hinc : c.inc = none ∨ c.inc = some inc) :
    ∃ c', connOf (ackUpTo s node inc ten upTo window) node ten = some c' ∧ c'.inc = some inc ∧
      c'.window = window.getD c.window ∧ ∀ m ∈ c.msgs, m.sent = true → m.seq < upTo →
        ∃ m' ∈ c'.msgs, m'.tag = m.tag ∧ m'.seq = m.seq ∧ m'.acked = true := by
  have hlive : ¬ (c.inc.isSome ∧ c.inc ≠ some inc) := by
    rcases hinc with h | h <;> simp [h]
  obtain ⟨hnode, hten⟩ := node_of_connOf h
  rw [ackUpTo, h]
  dsimp only
  rw [if_neg hlive]
  obtain ⟨c', hc', hpump⟩ := connOf_pumpConn (connOf_setConn h (c' := { c with
    inc := some inc, msgs := c.msgs.map (fun m => if m.sent ∧ m.seq < upTo then { m with acked := true } else m),
    window := window.getD c.window }) hnode hten) 64
  refine ⟨c', hc', hpump.inc, hpump.window, fun m hm hsent hseq => ?_⟩
  exact ⟨{ m with acked := true }, hpump.stays _ (List.mem_map.mpr ⟨m, hm, if_pos ⟨hsent, hseq⟩⟩) hsent, rfl, rfl, rfl⟩

/-! ## Connections at the receiver (R623) -/

theorem incomingOf_congr (h : t.jct.incoming = s.jct.incoming) (k : Nat × Nat × Nat) : incomingOf t k = incomingOf s k := by
  rw [incomingOf, incomingOf, h]

theorem key_of_incomingOf (h : incomingOf s k = some x) : (x.node, x.inc, x.tenant) = k := by
  rw [incomingOf] at h
  simpa using List.find?_some h

theorem incomingOf_setIncoming (h : (x.node, x.inc, x.tenant) = k) : incomingOf (setIncoming s x) k = some x := by
  have hothers : (s.jct.incoming.filter (fun y => (y.node, y.inc, y.tenant) != (x.node, x.inc, x.tenant))).find?
      (fun c => (c.node, c.inc, c.tenant) == k) = none := by
    rw [List.find?_eq_none]
    intro y hy
    simpa [h] using (List.mem_filter.mp hy).2
  rw [incomingOf]
  change List.find? _ (_ ++ [x]) = _
  rw [List.find?_append, hothers, Option.none_or, List.find?_cons_of_pos (by simpa using h)]

/-! ## Frames to this node (R623) -/

theorem onOwn_of_taken {h : State → Frame → State} {n : Nat} (hin : (frameIn s w).1 = some f) (ht : f.type = n)
    (hdest : f.dest = nodeOf s) (hinc : f.destInc = 0 ∨ f.destInc = s.jct.inc) : onOwn s w n h = h (fecCounted s w) f := by
  have hhere : ¬ f.dest ≠ nodeOf (fecCounted s w) := not_not_intro hdest
  have hnow : ¬ (f.destInc ≠ 0 ∧ f.destInc ≠ (fecCounted s w).jct.inc) := fun ⟨h0, h1⟩ => hinc.elim h0 h1
  rw [onOwn, onFrame_of_taken hin ht]
  exact (if_neg hhere).trans (if_neg hnow)

end
end Sys2Proof.Machine
end


section
/-! SUPPORT and O49. Messages of the federation (18_federation.md, R617, R618, R621 to R628, R633). -/

namespace Sys2Proof.Machine

section
variable {s t u : State} {c c' : FConn} {m : FMsg} {x : FIncoming} {f : Frame} {w : WireFrame} {k : Nat × Nat × Nat} {e : Entry}
  {node ten inc seq upTo tag status unit : Nat} {window : Option Nat} {p : FMsg → Bool}

/-! ## Outcomes (R626) -/

/-- An outcome that is reported to a clean ticket is its status. -/
theorem report_status (he : entryOf s tag = some e) (hclean : cleanTicket s e) (hstatus : status < 0x12) (unit : Nat) :
    ∃ e', entryOf (report s tag unit status) tag = some e' ∧ e'.sub = .device ∧ e'.instReset = false ∧
      e'.revoking = e.revoking ∧ (finalStatus e').1 = status := by
  obtain ⟨hsub, hfail, hwarn, hreset, hkey, -⟩ := hclean
  rw [report, if_pos hstatus]
  split
  · next h0 => exact ⟨e, he, hsub, hreset, rfl, by simp [finalStatus, hreset, hkey, hfail, hwarn, h0]⟩
  · refine ⟨_, entryOf_modEntry_of_entry he _, ?_⟩
    split
    · rw [if_pos (by simp [hwarn])]
      exact ⟨hsub, hreset, rfl, by simp [finalStatus, hreset, hkey, hfail]⟩
    · rw [if_pos (by simp [hfail])]
      exact ⟨hsub, hreset, rfl, by simp [finalStatus, hreset, hkey]⟩

theorem sbx_report_flags (s : State) (tag unit : Nat) (hstatus : status < 0x12) :
    (report s tag unit status).sbx.posted = s.sbx.posted ∧ (report s tag unit status).sbx.flushMode = s.sbx.flushMode := by
  rw [report, if_pos hstatus]
  split
  · exact ⟨rfl, rfl⟩
  · rw [modEntry]
    split <;> exact ⟨rfl, rfl⟩

/-- What is parked leaves the tickets and their completions as they were. -/
theorem sbx_park (s : State) (x : Siding) : ∃ l, (park s x).sbx = { s.sbx with siding := l } := by
  have hcounts (l : List Siding) (t : State) : (l.foldl (fun s x =>
      let s := if x.inst = 0 then s else bump s (pageSiding x.inst) 31 16 1
      bump s Reg.SBX_SIDING_STATUS 31 16 1) t).sbx = t.sbx := by
    induction l generalizing t with
    | nil => rfl
    | cons x l ih =>
      rw [List.foldl_cons, ih]
      dsimp only
      split <;> rfl
  exact ⟨_, hcounts _ _⟩

/-- A ticket with its outcome known ends with it. -/
theorem finishPlain_outcome {out : Nat} (he : entryOf s tag = some e) (hsub : e.sub = .device) (hreset : e.instReset = false)
    (hflush : s.sbx.flushMode = false) (hrevoking : e.revoking = false) (hstatus : (finalStatus e).1 = status)
    (hout : status ≠ 0 → out = 0) :
    endedWith s (finishPlain (modEntry s tag (fun e => { e with acked := true, out := out })) tag) tag status out := by
  rw [modEntry_of_entry he]
  obtain ⟨hgone, hposted⟩ := finishTicket_device (entryOf_setEntry_same s tag { e with acked := true, out := out }) hsub hflush hreset
  refine ⟨hgone, _, hposted, rfl, hstatus, ?_⟩
  have hfinal : (finalStatus { e with acked := true, out := out }).1 = status := hstatus
  change (if (finalStatus { e with acked := true, out := out }).1 ∈ [0, 2, 3, 4] && !e.revoking then out else 0) = out
  rw [hfinal, hrevoking]
  split
  · rfl
  · next h => exact (hout (fun h0 => h (by simp [h0]))).symm

theorem messageOutcome_ends (he : entryOf s m.tag = some e) (hclean : cleanTicket s e) (hrevoking : e.revoking = false)
    (hstatus : status < 0x12) : endedWith s (messageOutcome s node m status) m.tag status (if status = 0 then m.payload.length else 0) := by
  obtain ⟨told, htold, hrun⟩ : ∃ told, (∃ l, told.sbx = { s.sbx with siding := l }) ∧
      messageOutcome s node m status = finishPlain (modEntry (report told m.tag m.srcUnit status) m.tag
        (fun e => { e with acked := true, out := if status = 0 then m.payload.length else 0 })) m.tag := by
    refine ⟨if status = 0x0B then bump (park s {
        inst := m.inst, disp := 2, status := 0x0B, unit := m.destUnit, src := m.srcUnit, tag := 0xFFFF,
        destGen := m.destGen, cookie := m.cookie, time := opTime s, node := node, payload := m.payload })
        Reg.FED_COUNTS 15 0 1 else s, ?_, by rw [messageOutcome, he]⟩
    split
    · exact sbx_park s _
    · exact ⟨s.sbx.siding, rfl⟩
  obtain ⟨l, hsbx⟩ := htold
  have he' : entryOf told m.tag = some e := by rw [entryOf, hsbx]; exact he
  have hclean' : cleanTicket told e := by
    obtain ⟨h1, h2, h3, h4, h5, h6⟩ := hclean
    exact ⟨h1, h2, h3, h4, h5, by rw [hsbx]; exact h6⟩
  obtain ⟨e', hentry, hsub, hreset, hkept, hfinal⟩ := report_status he' hclean' hstatus m.srcUnit
  obtain ⟨hposted, hflush⟩ := sbx_report_flags told m.tag m.srcUnit hstatus
  have hposted' : (report told m.tag m.srcUnit status).sbx.posted = s.sbx.posted := by rw [hposted, hsbx]
  have hended := finishPlain_outcome hentry hsub hreset (hflush.trans hclean'.2.2.2.2.2) (hkept.trans hrevoking) hfinal
    (out := if status = 0 then m.payload.length else 0) (fun h => if_neg h)
  rw [hrun]
  obtain ⟨hgone, y, hy, hrest⟩ := hended
  exact ⟨hgone, y, hy.trans (by rw [hposted']), hrest⟩

/-- The only message of a connection leaves it, and its ticket ends. -/
theorem msgOutcome_ends (hc : connOf s node ten = some c) (hone : c.msgs = [m]) (hp : p m = true) (he : entryOf s m.tag = some e)
    (hclean : cleanTicket s e) (hrevoking : e.revoking = false) (hstatus : status < 0x12) :
    endedWith s (msgOutcome s node ten p status) m.tag status (if status = 0 then m.payload.length else 0) ∧
      (connOf (msgOutcome s node ten p status) node ten).map (·.msgs) = some [] := by
  let left := setConn s { c with msgs := [], since := s.now }
  obtain ⟨hnode, hten⟩ := node_of_connOf hc
  have hleft : connOf left node ten = some { c with msgs := [], since := s.now } := connOf_setConn hc hnode hten
  obtain ⟨c', hc', hthin⟩ := (SameFed.messageOutcome left node m status).connOf hleft
  have hnil : c'.msgs = [] := List.eq_nil_iff_forall_not_mem.mpr fun y hy => nomatch hthin.msgs y hy
  have hrun : msgOutcome s node ten p status = messageOutcome left node m status := by
    rw [msgOutcome, hc]
    dsimp only
    rw [hone, List.filter_cons_of_pos hp, List.filter_cons_of_neg (by simpa using hp)]
    exact pumpConn_of_sent hc' hnil 64
  rw [hrun, hc', Option.map_some, hnil]
  exact ⟨messageOutcome_ends (s := left) he hclean hrevoking hstatus, rfl⟩

end

section
variable {s t : State} {c : FConn} {m : FMsg} {x : FIncoming} {f : Frame} {w : WireFrame} {k : Nat × Nat × Nat} {e : Entry}
  {u d tag j first len node ten seq : Nat} {p : Packet} {y : LStep} {rest : List Work} {r : FRecv}

/-- A connection that has been removed is gone. -/
theorem connOf_removed (s : State) (node ten : Nat) : connOf (setJct s { s.jct with
    conns := s.jct.conns.filter (fun x => !(x.node == node && x.tenant == ten)) }) node ten = none := by
  refine List.find?_eq_none.mpr fun x hx => ?_
  have hleft := (List.mem_filter.mp hx).2
  rwa [Bool.not_eq_true', ← Bool.not_eq_true] at hleft

/-! ## Sending (R621, R622) -/

theorem send_collects (hs : packetWaits s u p e y rest) (hk : stepKind y = 0x0C) (hm : y.mode = 0) (hw : worksNow s u = true)
    (hroom : (ctxOf s p.tag p.step).buf.length + p.data.length ≤ 8192) :
    Nexts (exec (.send u) s) (fun t => inboxOf t u = rest ∧
      (ctxOf t p.tag p.step).buf = (ctxOf s p.tag p.step).buf ++ p.data) := by
  obtain ⟨hq, hend, he, hf, hr, hy⟩ := hs
  let held := ctxOf s p.tag p.step
  have hrun : exec (.send u) s = .next (setCtx (setInbox s u rest) p.tag p.step
      { held with buf := held.buf ++ p.data, inBytes := held.inBytes + p.data.length }) := by
    change execSend u s = _
    rw [execSend, serveFront_packet hq he hf hr hy hk (by simp [hm]) hw]
    have hfits : ¬ 8192 < (ctxOf (setInbox s u rest) p.tag p.step).buf.length + p.data.length := by
      rw [ctxOf_setInbox]
      omega
    exact congrArg Host.Outcome.next ((if_pos (by simp [hend])).trans (if_neg hfits))
  refine ⟨_, hrun, ?_, ?_⟩
  · rw [inboxOf_setCtx, inboxOf_setInbox_same]
  · rw [ctxOf_setCtx_same]

/-- A message that begins its connection is in it once it has been transmitted. -/
theorem connOf_begun {n : Nat} (hnone : connOf s node ten = none) (hnode : c.node = node) (hten : c.tenant = ten)
    (hone : c.msgs = [m]) : ∃ c', connOf (pumpConn n (setJct s { s.jct with conns := s.jct.conns ++ [c] }) node ten) node ten = some c' ∧
      ∃ m' ∈ c'.msgs, content m' = content m := by
  have hbegun : connOf (setJct s { s.jct with conns := s.jct.conns ++ [c] }) node ten = some c := by
    change (s.jct.conns ++ [c]).find? _ = _
    rw [List.find?_append]
    change (connOf s node ten).or _ = _
    rw [hnone, Option.none_or, List.find?_cons_of_pos (by simp [hnode, hten])]
  obtain ⟨c', hc', hpump⟩ := connOf_pumpConn hbegun n
  refine ⟨c', hc', ?_⟩
  obtain ⟨m', hm'⟩ : ∃ m', m' ∈ c'.msgs := List.exists_mem_of_length_pos (by simp [hpump.length, hone])
  obtain ⟨m'', hm'', heq⟩ := hpump.content m' hm'
  obtain rfl : m'' = m := by simpa [hone] using hm''
  exact ⟨m', hm', heq⟩

theorem send_ends (hq : inboxOf s u = .pkt p :: rest) (hend : p.endTok = true) (hprov : p.prov = false)
    (he : entryOf s p.tag = some e) (hf : e.fenced = false) (hr : e.revoking = false) (hy : (stepsOf s e)[p.step]? = some y)
    (hk : stepKind y = 0x0C) (hm : y.mode = 0) (hw : worksNow s u = true) (htoken : tokenReady s p p.step = true)
    (hbuf : (ctxOf s p.tag p.step).buf ≠ []) (hinst : e.t.inst = 0) (hnode : fld e.t.dest.mid 23 8 = node)
    (hother : node ≠ nodeOf s) (hnone : connOf s node 0 = none) (hconns : s.jct.conns.length < 1024)
    (hroom : sendUse s + (ctxOf s p.tag p.step).buf.length ≤ 67108864) : Nexts (exec (.send u) s) (fun t =>
      ∃ c', connOf t node 0 = some c' ∧ ∃ m ∈ c'.msgs, m.tag = p.tag ∧ m.payload = (ctxOf s p.tag p.step).buf ∧
        m.destUnit = fld e.t.dest.mid 31 24 ∧ m.destGen = fld e.t.dest.mid 47 32) := by
  let popped := setInbox s u rest
  let m : FMsg := {
    tag := p.tag, inst := e.t.inst, cookie := e.t.cookie, destUnit := fld e.t.dest.mid 31 24, srcUnit := u,
    destGen := fld e.t.dest.mid 47 32, param := e.t.dest.addr, payload := (ctxOf s p.tag p.step).buf }
  let c : FConn := { node := node, tenant := 0, msgs := [m], since := s.now }
  have htake : takeMessage popped p.tag e u (ctxOf s p.tag p.step).buf =
      some (pumpConn 64 (setJct popped { s.jct with conns := s.jct.conns ++ [c] }) node 0) := by
    have hother' : ¬ node = nodeOf popped := hother
    have hroom' : ¬ 67108864 < sendUse popped + (ctxOf s p.tag p.step).buf.length := by
      change ¬ 67108864 < sendUse s + _
      omega
    have hnone' : connOf popped node 0 = none := hnone
    have hconns' : ¬ 1024 ≤ popped.jct.conns.length := by
      change ¬ 1024 ≤ s.jct.conns.length
      omega
    rw [takeMessage]
    dsimp only
    rw [if_pos hinst, hnode, if_neg hother', if_neg hroom', hnone']
    exact if_neg hconns'
  have hrun : exec (.send u) s = .next (pumpConn 64 (setJct popped { s.jct with conns := s.jct.conns ++ [c] }) node 0) := by
    change execSend u s = _
    rw [execSend, serveFront_packet hq he hf hr hy hk (by simp [hm]) hw]
    dsimp only
    rw [sendWork]
    have hready : ¬ (!tokenReady popped p p.step) = true := by
      change ¬ (!tokenReady s p p.step) = true
      simp [htoken]
    have hprov' : ¬ p.prov = true := by simp [hprov]
    have hfull : ¬ (ctxOf popped p.tag p.step).buf.isEmpty = true := by
      change ¬ (ctxOf s p.tag p.step).buf.isEmpty = true
      simpa using hbuf
    have hdevice : ¬ (e.t.inst ≠ 0 ∧ eff popped (Reg.FED_INST_TAG + 4 * e.t.inst) 31 0 = 0) := fun h => h.1 hinst
    refine congrArg Host.Outcome.next ((if_neg (by simp [hend])).trans ((if_neg hready).trans ((if_neg hprov').trans
      ((if_neg hfull).trans ((if_neg hdevice).trans ?_)))))
    change (takeMessage popped p.tag e u (ctxOf s p.tag p.step).buf).getD s = _
    rw [htake]
    rfl
  refine ⟨_, hrun, ?_⟩
  have hnone' : connOf popped node 0 = none := hnone
  obtain ⟨c', hc', m', hm', heq⟩ := connOf_begun (n := 64) (c := c) (m := m) hnone' rfl rfl rfl
  refine ⟨c', hc', m', hm', ?_⟩
  exact ⟨congrArg FMsg.tag heq, congrArg FMsg.payload heq, congrArg FMsg.destUnit heq, congrArg FMsg.destGen heq⟩

/-! ## Receiving a message's payload (R625) -/

theorem chunks_of_short {bs : Bytes} (h0 : bs ≠ []) (h : bs.length ≤ 4096) (fuel : Nat) : chunks 4096 (fuel + 1) bs = [bs] := by
  have hrest : chunks 4096 fuel [] = [] := by cases fuel <;> rfl
  rw [chunks, if_neg (by simpa using h0), List.take_of_length_le h, List.drop_of_length_le h, hrest]

/-- A piece of output that fits one packet is sent as one. -/
theorem sendOut_of_short {bs : Bytes} (hcfg : t.cfg = s.cfg) (he : entryOf t tag = some e) (hf : e.fenced = false)
    (hr : e.revoking = false) (hd : unitAt s e (j + 1) ((ctxOf t tag j).outBytes / 4096) = some d) (h0 : bs ≠ [])
    (h : bs.length ≤ 4096) (station : Nat) (prov : Bool) : sendOut t tag j u bs station prov =
      countCtx (emit t (sentTo s e tag j u d (ctxOf t tag j).outBytes bs station prov)) tag j 0 bs.length := by
  rw [sendOut, chunks_of_short h0 h, List.foldl_cons, List.foldl_nil]
  dsimp only
  rw [sendData_of_cfg hcfg he hf hr hd]

theorem receive_sends (hs : startWaits s u tag j first len e y rest) (hk : stepKind y = 0x0C) (hm : y.mode = 1)
    (hw : worksNow s u = true) (hsub : e.sub = .junction r.id) (hrecv : s.jct.recv.find? (fun z => z.id == r.id) = some r)
    (hpos : 0 < len) (hlen : len ≤ 4096) (hfits : first + len ≤ r.frame.payload.length)
    (hd : unitAt s e (j + 1) ((ctxOf s tag j).outBytes / 4096) = some d) :
    Nexts (exec (.receive u) s) (fun t => ∃ q, sends s t q ∧ q.dest = d ∧ q.off = (ctxOf s tag j).outBytes ∧
      q.data = (r.frame.payload.drop first).take len) := by
  let bs := (r.frame.payload.drop first).take len
  have hbs : bs.length = len := by
    simp only [bs, List.length_take, List.length_drop]
    omega
  have hrecv' : (setInbox s u rest).jct.recv.find? (fun z => z.id == r.id) = some r := hrecv
  obtain ⟨taken, htaken⟩ : ∃ taken, taken = countTaken (countCtx (setInbox s u rest) tag j bs.length 0) tag bs.length := ⟨_, rfl⟩
  have hrun : exec (.receive u) s = .next (if allTaken (sendOut taken tag j u bs 0 false) e tag j then
      endOut (sendOut taken tag j u bs 0 false) tag j u (ctxOf (sendOut taken tag j u bs 0 false) tag j).outBytes false
      else sendOut taken tag j u bs 0 false) := by
    change execReceive u s = _
    rw [execReceive, serveFront_start hs hk (by simp [hm]) hw, htaken]
    dsimp only
    rw [hsub]
    dsimp only
    rw [hrecv']
  obtain ⟨-, he, hf, hr, -⟩ := hs
  have hkeeps : Keeps 64 (countCtx (setInbox s u rest) tag j bs.length 0) taken := by
    rw [htaken]
    exact modEntry_keeps ..
  have hcfg : taken.cfg = s.cfg := hkeeps.cfg rfl
  have htrunk : taken.dev.trunk = s.dev.trunk := congrArg (·.trunk) (hkeeps.dev rfl)
  have hentry : entryOf taken tag = some { e with taken := e.taken + bs.length } :=
    htaken ▸ entryOf_modEntry_of_entry (s := countCtx (setInbox s u rest) tag j bs.length 0) he _
  have hout : (ctxOf taken tag j).outBytes = (ctxOf s tag j).outBytes := by
    rw [ctxOf_congr (hkeeps.stn rfl), countCtx, ctxOf_setCtx_same]
    rfl
  have hd' : unitAt s { e with taken := e.taken + bs.length } (j + 1) ((ctxOf taken tag j).outBytes / 4096) = some d := by
    rw [hout]
    exact hd
  have hsent := sendOut_of_short (u := u) hcfg hentry hf hr hd' (List.ne_nil_of_length_pos (by omega)) (by omega) 0 false (bs := bs)
  rw [hrun, hsent]
  let q := sentTo s { e with taken := e.taken + bs.length } tag j u d (ctxOf taken tag j).outBytes bs 0 false
  refine ⟨_, rfl, q, ?_, rfl, hout, rfl⟩
  have hlast : isLast (countCtx (emit taken q) tag j 0 bs.length) { e with taken := e.taken + bs.length } j = false :=
    (isLast_congr (s := s) hcfg ..).trans (isLast_of_unitAt (e := e) hd)
  have hq : (countCtx (emit taken q) tag j 0 bs.length).dev.trunk = s.dev.trunk ++ [q] := htrunk ▸ rfl
  split
  · obtain ⟨l, hl, -⟩ := endOut_sends (s := countCtx (emit taken q) tag j 0 bs.length) (u := u)
      (out := (ctxOf (countCtx (emit taken q) tag j 0 bs.length) tag j).outBytes) (prov := false) hentry hlast
    exact ⟨l, hl.trans (by rw [hq, List.append_assoc]; rfl)⟩
  · exact ⟨[], hq⟩

/-! ## Frames of a connection (R622, R623, R626) -/

theorem ack_marks (hin : (frameIn s w).1 = some f) (ht : f.type = 2) (hdest : f.dest = nodeOf s)
    (hown : f.destInc = 0 ∨ f.destInc = s.jct.inc) (hc : connOf s f.src f.tenant = some c)
    (hinc : c.inc = none ∨ c.inc = some f.srcInc) :
    Nexts (exec (.ack w) s) (fun t => ∃ c', connOf t f.src f.tenant = some c' ∧ c'.inc = some f.srcInc ∧
      c'.window = f.window ∧ ∀ m ∈ c.msgs, m.sent = true → m.seq < f.ack →
        ∃ m' ∈ c'.msgs, m'.tag = m.tag ∧ m'.seq = m.seq ∧ m'.acked = true) := by
  have hc' : connOf (fecCounted s w) f.src f.tenant = some c := hc
  refine ⟨_, ?_, connOf_ackUpTo (upTo := f.ack) (window := some f.window) hc' hinc⟩
  change execAck w s = _
  rw [execAck, onOwn_of_taken hin ht hdest hown]

theorem fromPeer_of_connOf (hc : connOf s f.src f.tenant = some c) : fromPeer s f = true ↔ c.inc = none ∨ c.inc = some f.srcInc := by
  rw [fromPeer, hc, Option.bind_some]
  cases c.inc with
  | none => simp
  | some inc => exact beq_iff_eq.trans (by simp only [reduceCtorEq, false_or, Option.some_inj]; exact eq_comm)

theorem outcome_ends (hin : (frameIn s w).1 = some f) (ht : f.type = 3) (hdest : f.dest = nodeOf s)
    (hown : f.destInc = 0 ∨ f.destInc = s.jct.inc) (hc : connOf s f.src f.tenant = some c)
    (hinc : c.inc = none ∨ c.inc = some f.srcInc) (hone : c.msgs = [m]) (hsent : m.sent = true) (hseq : m.seq = f.seq)
    (hstatus : f.status < 0x12) (he : entryOf s m.tag = some e) (hclean : cleanTicket s e) (hrevoking : e.revoking = false) :
    Nexts (exec (.outcome w) s) (fun t => endedWith s t m.tag f.status (if f.status = 0 then m.payload.length else 0) ∧
      (connOf t f.src f.tenant).map (·.msgs) = some []) := by
  have hc' : connOf (fecCounted s w) f.src f.tenant = some c := hc
  refine ⟨_, ?_, msgOutcome_ends (s := fecCounted s w) (p := fun m => m.sent && m.seq == f.seq) hc' hone (by simp [hsent, hseq]) he hclean hrevoking hstatus⟩
  change execOutcome w s = _
  rw [execOutcome, onOwn_of_taken hin ht hdest hown]
  exact congrArg Host.Outcome.next (if_pos ((fromPeer_of_connOf hc').mpr hinc))

theorem stalePeer_closes (hin : (frameIn s w).1 = some f) (ht : f.type = 7) (hdest : f.dest = nodeOf s)
    (hown : f.destInc = 0 ∨ f.destInc = s.jct.inc) (hc : connOf s f.src f.tenant = some c)
    (hinc : c.inc ≠ none ∧ c.inc ≠ some f.srcInc) :
    Nexts (exec (.stalePeer w) s) (fun t => connOf t f.src f.tenant = none) := by
  have hc' : connOf (fecCounted s w) f.src f.tenant = some c := hc
  have hother : ¬ fromPeer (fecCounted s w) f = true := fun h => ((fromPeer_of_connOf hc').mp h).elim hinc.1 hinc.2
  refine ⟨closeConn (fecCounted s w) f.src f.tenant, ?_, ?_⟩
  · change execStalePeer w s = _
    rw [execStalePeer, onOwn_of_taken hin ht hdest hown]
    exact congrArg Host.Outcome.next (if_neg hother)
  · rw [closeConn, hc']
    refine (SameFed.foldl (fun t m => .messageOutcome t _ m _) (.refl _)).connOf_none ?_
    exact connOf_removed ..

end
end Sys2Proof.Machine
end


section
/-! SUPPORT and O49, continued. Messages that arrive, retransmissions and frames for other nodes (18_federation.md, R622 to R624, R628). -/

namespace Sys2Proof.Machine

section
variable {s t : State} {c : FConn} {m : FMsg} {x : FIncoming} {f : Frame} {w : WireFrame} {k : Nat × Nat × Nat} {e : Entry}
  {d node ten seq : Nat}

/-! ## Receive tickets (R624) -/

namespace SameFed

theorem incomingOf (h : SameFed s t) (k : Nat × Nat × Nat) : incomingOf t k = incomingOf s k := by
  have hsame := congrArg Jct.incoming h.standing
  exact incomingOf_congr hsame k

theorem nextRecv (h : SameFed s t) : t.jct.nextRecv = s.jct.nextRecv := by
  have hsame := congrArg Jct.nextRecv h.standing
  exact hsame

theorem submitTicket (s : State) (sub : Submitter) (bs : Bytes) : SameFed s (submitTicket s sub bs).2 := by
  unfold Machine.submitTicket
  extract_lets ticket
  split
  · exact refl s
  · next e _ counted _ tag _ =>
    have hcounted : SameFed s counted := of_jct rfl rfl rfl
    have hentry (t : State) (tag : Nat) (e : Entry) : SameFed t (setEntry t tag e) := of_keeps (setEntry_keeps ..) rfl rfl
    have hwaits (t : State) (tag st : Nat) : SameFed t (endWaiting t tag st) :=
      after (finishPlain _ _) (of_keeps (report_keeps ..) rfl rfl)
    split
    · exact after (finishPlain _ _) (after (hentry _ _ _) hcounted)
    · exact after (finishPlain _ _) (after (hentry _ _ _) hcounted)
    · split
      · exact after (hwaits _ _ _) (after (hentry _ _ _) hcounted)
      · split
        · exact after (hentry _ _ _) hcounted
        · exact after (hentry _ _ _) (via (useSlot_keeps ..) rfl rfl hcounted)

theorem submitRecv (s : State) (r : FRecv) : SameFed s (submitRecv s r) := by
  unfold Machine.submitRecv
  extract_lets f rx line
  split
  · exact recvStatus _ _ _ _
  · next i _ =>
    refine ite (recvStatus _ _ _ _) (ite (recvStatus _ _ _ _) (ite (recvStatus _ _ _ _) (ite (refl s) ?_)))
    have hmade := after (submitTicket (Machine.modRecv s r.id (fun r => { r with inst := i })) (.junction r.id) (receiveTicket i line f))
      (modRecv s _ _)
    split
    · next tag t htry =>
      rw [htry] at hmade
      exact after (modRecv _ _ _) hmade
    · next t htry =>
      rw [htry] at hmade
      exact hmade

theorem submitRecvs (s : State) : SameFed s (submitRecvs s) := by
  refine foldl (fun t id => ?_) (refl s)
  split
  · exact refl t
  · exact ite (refl t) (submitRecv t _)

end SameFed

/-! ## Messages that arrive (R623) -/

/-- What messages sent leave of the receiver is all that it holds. -/
theorem of_received {j j' : Jct} (h : received j = received j') :
    j.recv = j'.recv ∧ j.incoming = j'.incoming ∧ j.nextRecv = j'.nextRecv := by
  have hrecv := congrArg Jct.recv h
  have hincoming := congrArg Jct.incoming h
  have hnext := congrArg Jct.nextRecv h
  exact ⟨hrecv, hincoming, hnext⟩

theorem recvRoom_congr (hjct : received t.jct = received s.jct) (hdrc : t.drc = s.drc) (k : Nat × Nat × Nat) :
    recvRoom t k = recvRoom s k := by
  obtain ⟨hrecv, hincoming, -⟩ := of_received hjct
  have huse : recvUse t k = recvUse s k := by rw [recvUse, recvUse, hrecv, hincoming]
  have hlive : dramLive t = dramLive s := by
    have hin : dramIn t = dramIn s := funext fun c => by rw [dramIn, dramIn, dramOf, dramOf, hdrc]
    rw [dramLive, dramLive, hin]
  rw [recvRoom, recvRoom, huse, hlive]

/-- DATA of an open connection, at its destination. -/
theorem dataArrives_of_incoming (hx : incomingOf s (f.src, f.srcInc, f.tenant) = some x)
    (hopen : bitOf f.flags 0 = false ∨ s.now < x.since + 10000) :
    dataArrives s f =
      (let k := (f.src, f.srcInc, f.tenant)
       let c := { x with since := s.now }
       let room := decide (f.payload.length ≤ recvRoom s k)
       if f.seq < c.expect then sendAck (setIncoming s c) k false
       else if !room then sendAck (setIncoming s c) k true
       else if f.seq = c.expect then
         let s := addRecv (setIncoming s { c with expect := c.expect + 1 }) f none
         submitRecvs (sendAck (drainStored 64 s k) k false)
       else if f.seq < c.expect + 64 ∧ !c.stored.any (fun x => x.seq == f.seq) then
         sendAck (setIncoming s { c with stored := c.stored ++ [f] }) k false
       else sendAck (setIncoming s c) k false) := by
  have hkept : ¬ (bitOf f.flags 0 = true ∧ x.since + 10000 ≤ s.now) := by
    rintro ⟨h1, h2⟩
    rcases hopen with h | h
    · exact absurd (h.symm.trans h1) (by decide)
    · omega
  rw [dataArrives]
  dsimp only
  rw [hx]
  dsimp only
  rw [if_neg hkept]

/-- With nothing stored, nothing more is received. -/
theorem drainStored_of_nil (h : incomingOf s k = some x) (hnil : x.stored = []) (n : Nat) : drainStored n s k = s := by
  cases n with
  | zero => rfl
  | succ n => rw [drainStored, h]; dsimp only; rw [hnil]; rfl

theorem sendAck_received (s : State) (k : Nat × Nat × Nat) (full : Bool) : received (sendAck s k full).jct = received s.jct :=
  received_sendFrame ..

theorem dataArrives_inOrder (hx : incomingOf s (f.src, f.srcInc, f.tenant) = some x)
    (hopen : bitOf f.flags 0 = false ∨ s.now < x.since + 10000) (hroom : f.payload.length ≤ recvRoom s (f.src, f.srcInc, f.tenant))
    (hseq : f.seq = x.expect) (hnil : x.stored = []) :
    (incomingOf (dataArrives s f) (f.src, f.srcInc, f.tenant)).map (·.expect) = some (x.expect + 1) ∧
      (dataArrives s f).jct.nextRecv = s.jct.nextRecv + 1 := by
  let next : FIncoming := { x with since := s.now, expect := x.expect + 1 }
  let added := addRecv (setIncoming s next) f none
  have hkey := key_of_incomingOf hx
  have hadded : incomingOf added (f.src, f.srcInc, f.tenant) = some next :=
    incomingOf_setIncoming (s := s) (x := next) hkey
  have hrun : dataArrives s f = submitRecvs (sendAck added (f.src, f.srcInc, f.tenant) false) := by
    rw [dataArrives_of_incoming hx hopen]
    refine (if_neg (by simp [hseq])).trans ((if_neg (by simp [hroom])).trans ((if_pos hseq).trans ?_))
    exact congrArg (fun t => submitRecvs (sendAck t _ false)) (drainStored_of_nil hadded hnil 64)
  have hsame : SameFed added (submitRecvs (sendAck added (f.src, f.srcInc, f.tenant) false)) :=
    (SameFed.submitRecvs _).after (.sendFrame _ _)
  rw [hrun, hsame.incomingOf, hsame.nextRecv, hadded]
  exact ⟨rfl, rfl⟩

theorem dataArrives_again (hx : incomingOf s (f.src, f.srcInc, f.tenant) = some x)
    (hopen : bitOf f.flags 0 = false ∨ s.now < x.since + 10000) (hseq : f.seq < x.expect) :
    (dataArrives s f).jct.nextRecv = s.jct.nextRecv ∧ (dataArrives s f).jct.recv = s.jct.recv ∧
      (incomingOf (dataArrives s f) (f.src, f.srcInc, f.tenant)).map (·.expect) = some x.expect := by
  let kept := setIncoming s { x with since := s.now }
  have hkey := key_of_incomingOf hx
  have hkept : incomingOf kept (f.src, f.srcInc, f.tenant) = some { x with since := s.now } :=
    incomingOf_setIncoming hkey
  have hrun : dataArrives s f = sendAck kept (f.src, f.srcInc, f.tenant) false := by
    rw [dataArrives_of_incoming hx hopen]
    exact if_pos hseq
  have hsame : received (dataArrives s f).jct = received kept.jct := by rw [hrun, sendAck_received]
  obtain ⟨hrecv, hincoming, hnext⟩ := of_received hsame
  refine ⟨hnext, hrecv, ?_⟩
  rw [incomingOf_congr hincoming, hkept]
  rfl

theorem dataArrives_early (hx : incomingOf s (f.src, f.srcInc, f.tenant) = some x)
    (hopen : bitOf f.flags 0 = false ∨ s.now < x.since + 10000) (hroom : f.payload.length ≤ recvRoom s (f.src, f.srcInc, f.tenant))
    (hlater : x.expect < f.seq) (hwindow : f.seq < x.expect + 64) (hnew : ∀ z ∈ x.stored, z.seq ≠ f.seq) :
    (dataArrives s f).jct.recv = s.jct.recv ∧
      (incomingOf (dataArrives s f) (f.src, f.srcInc, f.tenant)).map (fun z => (z.expect, z.stored)) =
        some (x.expect, x.stored ++ [f]) := by
  let kept := setIncoming s { x with since := s.now, stored := x.stored ++ [f] }
  have hkey := key_of_incomingOf hx
  have hkept : incomingOf kept (f.src, f.srcInc, f.tenant) = some { x with since := s.now, stored := x.stored ++ [f] } :=
    incomingOf_setIncoming hkey
  have hrun : dataArrives s f = sendAck kept (f.src, f.srcInc, f.tenant) false := by
    rw [dataArrives_of_incoming hx hopen]
    have hseen : ¬ f.seq < x.expect := by omega
    have hnot : ¬ f.seq = x.expect := by omega
    have hstored : f.seq < x.expect + 64 ∧ (!x.stored.any (fun x => x.seq == f.seq)) = true :=
      ⟨hwindow, by simpa using hnew⟩
    exact (if_neg hseen).trans ((if_neg (by simp [hroom])).trans ((if_neg hnot).trans (if_pos hstored)))
  have hsame : received (dataArrives s f).jct = received kept.jct := by rw [hrun, sendAck_received]
  obtain ⟨hrecv, hincoming, -⟩ := of_received hsame
  refine ⟨hrecv, ?_⟩
  rw [incomingOf_congr hincoming, hkept]
  rfl

/-! ## DATA (R622, R623) -/

/-- What the acknowledgement in a DATA frame leaves of the receiver. -/
def ackedBy (s : State) (w : WireFrame) (f : Frame) : State := ackUpTo (fecCounted s w) f.src f.srcInc f.tenant f.ack none

theorem received_ackedBy : received (ackedBy s w f).jct = received s.jct := received_ackUpTo (s := fecCounted s w)

theorem exec_data_of_taken (hin : (frameIn s w).1 = some f) (ht : f.type = 1) (hdest : f.dest = nodeOf s)
    (hown : f.destInc = 0 ∨ f.destInc = s.jct.inc) : exec (.data w) s = .next (dataArrives (ackedBy s w f) f) := by
  change execData w s = _
  rw [execData, onOwn_of_taken hin ht hdest hown]
  rfl

theorem incomingOf_ackedBy (k : Nat × Nat × Nat) : incomingOf (ackedBy s w f) k = incomingOf s k :=
  incomingOf_congr (of_received received_ackedBy).2.1 k

theorem now_ackedBy : (ackedBy s w f).now = s.now := (ackUpTo_keeps ..).now rfl

theorem recvRoom_ackedBy (k : Nat × Nat × Nat) : recvRoom (ackedBy s w f) k = recvRoom s k :=
  recvRoom_congr received_ackedBy ((ackUpTo_keeps ..).drc rfl) k

/-! ## Retransmission and idle connections (R622, R623) -/

theorem retransmit_sends (hc : connOf s node ten = some c)
    (hm : c.msgs.find? (fun z => z.sent && !z.acked && z.seq == seq) = some m)
    (hmore : c.window = 0 ∨ m.retries < eff s Reg.FED_LINK_CFG 19 16) (hhop : canSend s node = true) :
    Nexts (exec (.retransmitTimeout node ten seq) s) (fun t =>
      live t Reg.FED_COUNTS 31 16 = satAdd 16 (live s Reg.FED_COUNTS 31 16) 1 ∧
      ∃ c', connOf t node ten = some c' ∧ ∃ m' ∈ c'.msgs, m'.seq = seq ∧ m'.sentAt = s.now ∧
        m'.retries = (if c.window = 0 then m.retries else m.retries + 1)) := by
  obtain ⟨hnode, hten⟩ := node_of_connOf hc
  let again : FMsg := { m with sentAt := s.now, retries := if c.window = 0 then m.retries else m.retries + 1 }
  let c' : FConn := { c with msgs := c.msgs.map (fun x => if x.sent ∧ x.seq = seq then again else x) }
  let sent := sendFrame (bump s Reg.FED_COUNTS 31 16 1) (dataFrame s c m)
  have hkeep : ¬ (c.window ≠ 0 ∧ eff s Reg.FED_LINK_CFG 19 16 ≤ m.retries) := by omega
  have hrun : exec (.retransmitTimeout node ten seq) s = .next (setConn sent c') := by
    change execRetransmitTimeout node ten seq s = _
    rw [execRetransmitTimeout, hc]
    dsimp only
    rw [hm]
    dsimp only
    rw [if_neg hkeep, if_pos hhop]
  obtain ⟨hsent, hseq⟩ : m.sent = true ∧ m.seq = seq := by
    have h := List.find?_some hm
    simp only [Bool.and_eq_true, beq_iff_eq] at h
    exact ⟨h.1.1, h.2⟩
  have hconn : connOf sent node ten = some c := (connOf_congr (conns_sendFrame _ _) node ten).trans hc
  refine ⟨_, hrun, ?_, c', connOf_setConn hconn hnode hten, again, ?_, hseq, rfl, rfl⟩
  · have hregs : (setConn sent c').regs = (bump s Reg.FED_COUNTS 31 16 1).regs := (sendFrame_keeps ..).regs rfl
    rw [live_congr hregs]
    exact live_bump_same _ _ _ _ _ (by decide)
  · exact List.mem_map.mpr ⟨m, List.mem_of_find?_eq_some hm, if_pos ⟨hsent, hseq⟩⟩

theorem retransmit_givesUp (hc : connOf s node ten = some c)
    (hm : c.msgs.find? (fun z => z.sent && !z.acked && z.seq == seq) = some m)
    (hwindow : c.window ≠ 0) (hover : eff s Reg.FED_LINK_CFG 19 16 ≤ m.retries) (hone : c.msgs = [m])
    (he : entryOf s m.tag = some e) (hclean : cleanTicket s e) (hrevoking : e.revoking = false) :
    Nexts (exec (.retransmitTimeout node ten seq) s) (fun t => endedWith s t m.tag 0x0B 0) := by
  have hp : (m.sent && m.seq == seq) = true := by
    have h := List.find?_some hm
    simp only [Bool.and_eq_true] at h ⊢
    exact ⟨h.1.1, h.2⟩
  refine ⟨_, ?_, (msgOutcome_ends (p := fun x => x.sent && x.seq == seq) hc hone hp he hclean hrevoking (by decide)).1⟩
  change execRetransmitTimeout node ten seq s = _
  rw [execRetransmitTimeout, hc]
  dsimp only
  rw [hm]
  exact if_pos ⟨hwindow, hover⟩

theorem idleClose_closes (hc : connOf s node ten = some c) (hnil : c.msgs = []) :
    Nexts (exec (.connectionIdleClose node ten) s) (fun t => connOf t node ten = none) := by
  refine ⟨_, ?_, connOf_removed s node ten⟩
  change execConnectionIdleClose node ten s = _
  rw [execConnectionIdleClose, hc]
  exact congrArg Host.Outcome.next (if_pos (by simp [hnil]))

theorem idleClose_keeps (hc : connOf s node ten = some c) (hsome : c.msgs ≠ []) :
    exec (.connectionIdleClose node ten) s = .next s := by
  change execConnectionIdleClose node ten s = _
  rw [execConnectionIdleClose, hc]
  exact congrArg Host.Outcome.next (if_neg (by simpa using hsome))

/-! ## Forwarding (R628) -/

theorem exec_frameForward_of_taken (hin : (frameIn s w).1 = some f) (hdest : f.dest ≠ nodeOf s) (ht : f.type ≤ 3) :
    exec (.frameForward w) s = .next (forward (fecCounted s w) f) := by
  have hother : f.dest ≠ nodeOf (fecCounted s w) := hdest
  change execFrameForward w s = _
  rw [execFrameForward, frameIn_taken hin]
  exact congrArg Host.Outcome.next (if_pos ⟨hother, .inl ht⟩)

theorem forward_goesOn (hhops : 1 < f.hops) (hnext : nextHop s f.dest = some node) (hport : portOf s node = some d)
    (hmay : mayFrame s = true) (hroom : portQueue s d + wireLen f ≤ 4194304) :
    forward s f = setJct s { s.jct with out := s.jct.out ++ [(d, node, { f with hops := f.hops - 1 })] } := by
  rw [forward]
  dsimp only
  rw [if_neg (by omega), hnext, Option.bind_some, hport]
  dsimp only
  rw [if_neg (by omega), sendFrame, hmay]
  dsimp only
  rw [hnext, Option.bind_some, hport]
  rfl

theorem forward_drops (hhops : f.hops ≤ 1) : forward s f = bump s Reg.FED_DROPS 31 16 1 := if_pos hhops

theorem live_fecCounted_drops (hport : w.port < 4) : live (fecCounted s w) Reg.FED_DROPS 31 16 = live s Reg.FED_DROPS 31 16 := by
  have hother : Reg.FED_DROPS ≠ Reg.FED_PORT_FEC + 0x10 * w.port := by
    simp only [Reg.FED_DROPS, Reg.FED_PORT_FEC]
    omega
  rw [fecCounted, live_bump_other _ _ _ _ _ _ hother, live_bump_other _ _ _ _ _ _ hother]

end

/-- Settles O49, clause by clause: what each message and timeout of the federation does to the connections, the receive buffer
and the tickets. -/
theorem federationMessagesTravelAndEndTheirTickets : Obligations.FederationMessagesTravelAndEndTheirTickets := by
  unfold Obligations.FederationMessagesTravelAndEndTheirTickets
  intro s u d tag j first len node ten seq w f p e y rest c x m r
  dsimp only
  refine ⟨send_collects, send_ends, receive_sends, ?_,
    fun ⟨_, hin, ht, hdest, hown⟩ hc hinc => ack_marks hin ht hdest hown hc hinc,
    fun ⟨_, hin, ht, hdest, hown⟩ hc hinc hone hsent hseq hstatus he hclean hrevoking =>
      outcome_ends hin ht hdest hown hc hinc hone hsent hseq hstatus he hclean hrevoking,
    fun ⟨_, hin, ht, hdest, hown⟩ hc hinc => stalePeer_closes hin ht hdest hown hc hinc,
    fun hc hm => ⟨retransmit_sends hc hm, retransmit_givesUp hc hm⟩, idleClose_closes, idleClose_keeps, ?_⟩
  · rintro ⟨-, hin, ht, hdest, hown⟩ hx hopen hroom
    rw [exec_data_of_taken hin ht hdest hown]
    have hx' := (incomingOf_ackedBy (w := w) (f := f) (s := s) _).trans hx
    rw [← now_ackedBy (w := w) (f := f)] at hopen
    rw [← recvRoom_ackedBy (w := w) (f := f)] at hroom
    obtain ⟨hrecv, -, hnext⟩ := of_received (received_ackedBy (s := s) (w := w) (f := f))
    rw [← hnext, ← hrecv]
    exact ⟨fun hseq hnil => ⟨_, rfl, dataArrives_inOrder hx' hopen hroom hseq hnil⟩,
      fun hseq => ⟨_, rfl, dataArrives_again hx' hopen hseq⟩,
      fun hlater hwindow hnew => ⟨_, rfl, dataArrives_early hx' hopen hroom hlater hwindow hnew⟩⟩
  · intro hport hin hdest ht
    rw [exec_frameForward_of_taken hin hdest ht]
    refine ⟨fun hhops hnext hportOf hmay hroom => ⟨_, congrArg _ (forward_goesOn (s := fecCounted s w) hhops hnext hportOf hmay hroom), rfl⟩,
      fun hhops => ⟨_, congrArg _ (forward_drops (s := fecCounted s w) hhops), rfl, ?_⟩⟩
    rw [live_bump_same _ _ _ _ _ (by decide), live_fecCounted_drops hport]

end Sys2Proof.Machine
end


section
/-! SUPPORT. The first and the last station of a ticket that moves bytes: what leaves a source station, what a failure there
leaves, and the host ports (04_lines_and_signal_box.md, R146, R172, R174; 16_host_interface.md, R563, R574). -/

namespace Sys2Proof.Machine

section
variable {s t : State} {e : Entry} {u d tag step first len n status : Nat} {bs data : Bytes} {sgl : List (List Bytes)} {y : LStep}
  {p : Packet} {rest : List Work}

/-! ## A source station -/

/-- What a station that reads SOURCE makes of the next bytes: they go to the next step, and the output ends once all have gone. -/
def sourceOut (s : State) (u tag step first : Nat) (bs : Bytes) : State :=
  let s := countTaken (countCtx (sendData s tag step u (first / 4096) first bs 0 false) tag step bs.length bs.length) tag bs.length
  match entryOf s tag with
  | none => s
  | some e => if allTaken s e tag step then endOut s tag step u (ctxOf s tag step).outBytes false else s

/-- The bytes are the first packet that the station sends; the queues and the local memory stay. -/
theorem sourceOut_sends (hcfg : t.cfg = s.cfg) (he : entryOf t tag = some e) (hf : e.fenced = false) (hr : e.revoking = false)
    (hd : unitAt s e (step + 1) (first / 4096) = some d) :
    (∃ l, (sourceOut t u tag step first bs).dev.trunk = t.dev.trunk ++ sentTo s e tag step u d first bs 0 false :: l) ∧
      (∀ v, inboxOf (sourceOut t u tag step first bs) v = inboxOf t v) ∧ (sourceOut t u tag step first bs).lmem = t.lmem := by
  let p := sentTo s e tag step u d first bs 0 false
  obtain ⟨t1, ht1⟩ : ∃ t1, t1 = countTaken (countCtx (emit t p) tag step bs.length bs.length) tag bs.length := ⟨_, rfl⟩
  have hkeeps : Keeps 64 (countCtx (emit t p) tag step bs.length bs.length) t1 := by
    rw [ht1]
    exact modEntry_keeps ..
  have hcfg1 : t1.cfg = s.cfg := (hkeeps.cfg rfl).trans hcfg
  have htrunk : t1.dev.trunk = t.dev.trunk ++ [p] := congrArg (·.trunk) (hkeeps.dev rfl)
  have hinbox (v : Nat) : inboxOf t1 v = inboxOf t v := inboxOf_congr (hkeeps.stn rfl) v
  have hlmem : t1.lmem = t.lmem := hkeeps.lmem rfl
  have he1 : entryOf t1 tag = some { e with taken := e.taken + bs.length } :=
    ht1 ▸ entryOf_modEntry_of_entry (s := countCtx (emit t p) tag step bs.length bs.length) he _
  have hlast : isLast t1 { e with taken := e.taken + bs.length } step = false :=
    (isLast_congr hcfg1 ..).trans (isLast_of_unitAt (e := e) hd)
  rw [sourceOut, sendData_of_cfg hcfg he hf hr hd, ← ht1, he1]
  dsimp only
  split
  · obtain ⟨l, hl, -⟩ := endOut_sends (u := u) (out := (ctxOf t1 tag step).outBytes) (prov := false) he1 hlast
    refine ⟨⟨l, by rw [hl, htrunk, List.append_assoc]; rfl⟩, fun v => ?_, ?_⟩
    · rw [endOut_of_not_last he1 hlast, inboxOf_setCtx, inboxOf_congr ((sendToken_keeps ..).stn rfl), hinbox]
    · rw [endOut_of_not_last he1 hlast]
      exact ((sendToken_keeps ..).lmem rfl).trans hlmem
  · exact ⟨⟨[], htrunk⟩, hinbox, hlmem⟩

/-! ## A failure before the last station (R173) -/

theorem report_short (he : entryOf s tag = some e) (unit : Nat) : report s tag unit 1 = setEntry s tag (e.failing 1 unit) := by
  simp [report, modEntry_of_entry he, Entry.failing]

/-- The ticket is being revoked with the status reported; the local memory stays. -/
theorem failAt_revokes (he : entryOf s tag = some e) (hr : e.revoking = false) (hlast : isLast s e step = false)
    (hreport : report s tag u status = setEntry s tag (e.failing status u)) :
    failedWith (failAt s tag step u status) e tag status u ∧ (failAt s tag step u status).lmem = s.lmem := by
  obtain ⟨t, ht⟩ : ∃ t, t = engineFailed (setEntry s tag (e.failing status u)) u tag status := ⟨_, rfl⟩
  have hkeeps : Keeps 16 (setEntry s tag (e.failing status u)) t := ht ▸ engineFailed_keeps ..
  have hlast' : isLast t e step = false := (isLast_congr (hkeeps.cfg rfl) e step).trans hlast
  have hrun : failAt s tag step u status =
      modEntry (engineCleared (sendToken t e tag step u 0 false true) u tag step) tag
        (fun e => { e with revoking := true, waiting := false }) := by
    simp only [failAt, he, hr, hreport, ← ht, hlast', Bool.false_eq_true, if_false]
  have hentry : entryOf (engineCleared (sendToken t e tag step u 0 false true) u tag step) tag = some (e.failing status u) := by
    rw [entryOf_congr ((engineCleared_keeps ..).sbx rfl), entryOf_congr ((sendToken_keeps ..).sbx rfl),
      entryOf_congr (hkeeps.sbx rfl), entryOf_setEntry_same]
  rw [hrun]
  refine ⟨⟨_, entryOf_modEntry_of_entry hentry _, rfl, ?_⟩, ?_⟩
  · dsimp only [Entry.failing]
    split <;> rfl
  · rw [(modEntry_keeps ..).lmem rfl, (engineCleared_keeps ..).lmem rfl, (sendToken_keeps ..).lmem rfl, hkeeps.lmem rfl]
    rfl

/-! ## The host port as the first station (R563, R574) -/

theorem hostPortFetch_runs (hs : startWaits s u tag step first len e y rest) (hk : stepKind y = 0x0B) (hm : y.mode = 0)
    (hw : worksNow s u = true) (hsource : e.t.source.kind = 1) :
    exec (.hostPortFetch u sgl data) s = .next (portTake (setInbox s u rest) u tag e step first len data) := by
  change execHostPortFetch u sgl data s = _
  rw [execHostPortFetch, serveFront_start hs hk (by simp [hm]) hw]
  exact congrArg Host.Outcome.next (if_pos hsource)

theorem hostPortFetch_sends (hs : startWaits s u tag step first len e y rest) (hk : stepKind y = 0x0B) (hm : y.mode = 0)
    (hw : worksNow s u = true) (hsource : e.t.source.kind = 1) (hdest : e.t.dest.kind ≠ 3) (hpos : 0 < len) (hlen : len ≤ 4096)
    (hall : len ≤ data.length) (hd : unitAt s e (step + 1) (first / 4096) = some d) :
    Nexts (exec (.hostPortFetch u sgl data) s) (fun t => inboxOf t u = rest ∧
      sends s t (sentTo s e tag step u d first (data.take len) 0 false)) := by
  have hbs : (data.take len).length = len := by rw [List.length_take]; omega
  have hrun : portTake (setInbox s u rest) u tag e step first len data =
      sourceOut (setInbox s u rest) u tag step first (data.take len) := by
    have hmin : min 4096 len = len := by omega
    have hsome : ¬ (data.take len).isEmpty = true := by
      rw [List.isEmpty_iff_length_eq_zero, hbs]
      omega
    rw [portTake, hmin, if_neg (Nat.lt_irrefl len), if_neg hdest, if_neg hsome, if_neg (by omega)]
    rfl
  rw [hostPortFetch_runs hs hk hm hw hsource, hrun]
  obtain ⟨-, he, hf, hr, -⟩ := hs
  obtain ⟨⟨l, hl⟩, hinbox, -⟩ := sourceOut_sends (s := s) (t := setInbox s u rest) (u := u) (bs := data.take len) rfl he hf hr hd
  exact ⟨_, rfl, (hinbox u).trans (inboxOf_setInbox_same ..), l, hl⟩

theorem portShort_fails {short : Bool} (he : entryOf s tag = some e) (hr : e.revoking = false)
    (hlast : isLast s e step = false) : failedWith (portShort s u tag step short) e tag 0x01 u := by
  obtain ⟨marked, hmarked⟩ : ∃ marked, marked =
      modEntry (bump s Reg.HIF_COUNTS 15 0 1) tag (fun e => { e with sglShort := e.sglShort || short }) := ⟨_, rfl⟩
  have hkeeps : Keeps 64 (bump s Reg.HIF_COUNTS 15 0 1) marked := by
    rw [hmarked]
    exact modEntry_keeps ..
  have hentry : entryOf marked tag = some { e with sglShort := e.sglShort || short } := by
    rw [hmarked]
    exact entryOf_modEntry_of_entry (s := bump s Reg.HIF_COUNTS 15 0 1) he _
  have hlast' : isLast marked { e with sglShort := e.sglShort || short } step = false :=
    (isLast_congr (hkeeps.cfg rfl) e step).trans hlast
  obtain ⟨hfailed, -⟩ := failAt_revokes hentry hr hlast' (report_short hentry u)
  rw [portShort, ← hmarked]
  exact hfailed

theorem hostPortFetch_short (hs : startWaits s u tag step first len e y rest) (hk : stepKind y = 0x0B) (hm : y.mode = 0)
    (hw : worksNow s u = true) (hsource : e.t.source.kind = 1) (hdest : e.t.dest.kind ≠ 3) (hlen : len ≤ 4096)
    (hshort : data.length < len) (hlast : isLast s e step = false) :
    Nexts (exec (.hostPortFetch u sgl data) s) (fun t => failedWith t e tag 0x01 u) := by
  obtain ⟨sent, hsent⟩ : ∃ sent, sent = if data.isEmpty then setInbox s u rest
    else sendData (setInbox s u rest) tag step u (first / 4096) first data 0 false := ⟨_, rfl⟩
  obtain ⟨taken, htaken⟩ : ∃ taken, taken = countTaken (countCtx sent tag step data.length data.length) tag data.length := ⟨_, rfl⟩
  have hrun : portTake (setInbox s u rest) u tag e step first len data = portShort taken u tag step false := by
    have hmin : min 4096 len = len := by omega
    have hbs : data.take len = data := List.take_of_length_le (by omega)
    rw [portTake, hmin, if_neg (Nat.lt_irrefl len), if_neg hdest, hbs, if_pos hshort, ← hsent, ← htaken]
  rw [hostPortFetch_runs hs hk hm hw hsource, hrun]
  obtain ⟨-, he, hf, hr, -⟩ := hs
  have hkeeps : Keeps 8 (setInbox s u rest) sent := by
    rw [hsent]
    exact .ite (Keeps.refl _ _) (sendData_keeps ..)
  have hentry : entryOf (countCtx sent tag step data.length data.length) tag = some e :=
    (entryOf_congr (hkeeps.sbx rfl) tag).trans he
  have hentry' : entryOf taken tag = some { e with taken := e.taken + data.length } := by
    rw [htaken]
    exact entryOf_modEntry_of_entry hentry _
  have hcfg : taken.cfg = s.cfg := by
    rw [htaken, (countTaken_keeps ..).cfg rfl]
    exact hkeeps.cfg rfl
  have hlast' : isLast taken { e with taken := e.taken + data.length } step = false := (isLast_congr hcfg e step).trans hlast
  have hfailed := portShort_fails (u := u) (short := false) hentry' hr hlast'
  exact ⟨_, rfl, hfailed⟩

/-! ## The host port as the last station (R563, R574) -/

theorem hostPortWrite_writes (hs : packetWaits s u p e y rest) (hk : stepKind y = 0x0B) (hm : y.mode = 0)
    (hw : worksNow s u = true) (hdest : e.t.dest.kind = 1) (htdi : Tab.getD s.tru.tdi e.t.inst .unlocked ≠ .error) :
    Nexts (exec (.hostPortWrite u sgl) s) (fun t =>
      memRead (Tab.getD t.host (hostKey (e.t.dest.mid % 2) e.t.inst) []) (e.t.dest.addr + p.off) p.data.length = p.data ∧
      (ctxOf t p.tag p.step).wrote = (ctxOf s p.tag p.step).wrote ++ [(e.t.dest.addr + p.off, p.data.length)] ∧
      (ctxOf t p.tag p.step).outBytes = (ctxOf s p.tag p.step).outBytes + p.data.length) := by
  obtain ⟨hq, hend, he, hf, hr, hy⟩ := hs
  let c := ctxOf s p.tag p.step
  let written := hostWrite (setInbox s u rest) (e.t.dest.mid % 2) e.t.inst (e.t.dest.addr + p.off) p.data
  have hrun : exec (.hostPortWrite u sgl) s = .next (setCtx written p.tag p.step { c with
      inBytes := c.inBytes + p.data.length, outBytes := c.outBytes + p.data.length,
      wrote := c.wrote ++ [(e.t.dest.addr + p.off, p.data.length)], prov := p.prov }) := by
    have hall : portWrite (setInbox s u rest) e [(e.t.dest.addr + p.off, p.data.length)] p.data = written := by
      rw [portWrite, portWrite, List.take_length]
    change execHostPortWrite u sgl s = _
    rw [execHostPortWrite, serveFront_packet hq he hf hr hy hk (by simp [hm]) hw]
    dsimp only
    rw [portPut]
    dsimp only
    rw [if_neg (by simp [hend]), if_pos hdest, hall, ctxOf_setInbox]
  refine ⟨_, hrun, memRead_hostWrite (s := setInbox s u rest) _ _ _ htdi, ?_, ?_⟩ <;> rw [ctxOf_setCtx_same]

end
end Sys2Proof.Machine
end


section
/-! SUPPORT. What leaves the channels of the DRAM controller and the marks of its code words as they are: records, the flash system's
own traffic, and what a channel loss takes with it (15_dram.md, R536, R548). -/

namespace Sys2Proof.Machine

/-- The channels and the marked code words stay; pages of local memory may have been placed. -/
structure SameChans (s t : State) : Prop where
  chans : t.drc.chans = s.drc.chans
  marks : t.drc.marks = s.drc.marks

namespace SameChans

variable {s t u : State}

theorem refl (s : State) : SameChans s s := ⟨rfl, rfl⟩

/-- One more operation, the outermost first. -/
theorem after (k : SameChans t u) (h : SameChans s t) : SameChans s u := ⟨k.chans.trans h.chans, k.marks.trans h.marks⟩

theorem of_drc (h : t.drc = s.drc) : SameChans s t := ⟨congrArg Drc.chans h, congrArg Drc.marks h⟩

theorem of_keeps {m : Nat} (k : Keeps m s t) (hd : m.testBit 25 = false) : SameChans s t := of_drc (k.drc hd)

theorem via {m : Nat} (k : Keeps m t u) (hd : m.testBit 25 = false) (h : SameChans s t) : SameChans s u := after (of_keeps k hd) h

theorem ite {p : Prop} [Decidable p] (h : SameChans s t) (k : SameChans s u) : SameChans s (if p then t else u) := by
  split <;> assumption

theorem foldl {α : Type} {f : State → α → State} {l : List α} (hf : ∀ t x, SameChans t (f t x)) (h : SameChans s t) :
    SameChans s (l.foldl f t) :=
  List.foldlRecOn (motive := SameChans s) l f h fun b hb a _ => (hf b a).after hb

theorem dramOf (h : SameChans s t) (k : Nat) : dramOf t k = dramOf s k := by rw [Machine.dramOf, Machine.dramOf, h.chans]

theorem bump (s : State) (a hi lo k : Nat) : SameChans s (bump s a hi lo k) := of_drc rfl

theorem placePages (s : State) (i a n : Nat) : SameChans s (placePages s i a n) := by
  unfold Machine.placePages
  refine foldl (fun t p => ?_) (refl s)
  split
  · dsimp only
    split
    · exact ⟨rfl, rfl⟩
    · exact refl t
  · exact refl t

theorem lmemWrite (s : State) (i a : Nat) (bs : Bytes) : SameChans s (lmemWrite s i a bs) :=
  after (t := Machine.placePages s i a bs.length) (of_drc rfl) (placePages s i a bs.length)

/-! ## Records (R724) -/

theorem deliver (s : State) (i : Nat) (bs : Bytes) : SameChans s (deliver s i bs) := by
  unfold Machine.deliver
  extract_lets a base n written _ counted
  refine ite (refl s) ?_
  have hwritten : SameChans s written := lmemWrite s i _ bs
  exact after (lmemWrite counted _ _ _) (after (t := written) (of_drc rfl) hwritten)

theorem writeRecord (s : State) (r : EventRec) : SameChans s (writeRecord s r) := by
  unfold Machine.writeRecord
  extract_lets e valid wallMs back sev r noted kept
  have hnoted : SameChans s noted := of_drc rfl
  exact after (deliver kept _ _) (ite (via (flushMirror_keeps _) rfl hnoted) hnoted)

theorem putRecord (s : State) (r : EventRec) : SameChans s (putRecord s r) := by
  unfold Machine.putRecord
  split
  · split
    · exact of_drc rfl
    · exact bump s _ _ _ _
  · exact writeRecord s r

theorem endSecond (s : State) : SameChans s (endSecond s) := by
  unfold Machine.endSecond
  extract_lets tooMany _ cleared
  have hcleared : SameChans s cleared := of_drc rfl
  exact foldl (fun t p => after (putRecord _ _) (bump t _ _ _ _)) hcleared

theorem record (s : State) (event sev status unit inst : Nat) (detail : Bytes) :
    SameChans s (record s event sev status unit inst detail) := by
  unfold Machine.record
  extract_lets r k fresh second n _ counted
  split
  · exact putRecord s _
  · have hsecond : SameChans s second := ite (endSecond s) (refl s)
    have hcounted : SameChans s counted := after (t := second) (of_drc rfl) hsecond
    exact ite (after (writeRecord _ _) hcounted) hcounted

theorem setHealth (s : State) (b : Nat) (on : Bool) : SameChans s (setHealth s b on) := by
  unfold Machine.setHealth
  extract_lets old new marked
  refine ite (refl s) ?_
  have hmarked : SameChans s marked := of_drc rfl
  exact ite (after (record _ _ _ _ _ _ _) hmarked) hmarked

theorem unitState (s : State) (n : Nat) (st : UState) : SameChans s (unitState s n st) := by
  unfold Machine.unitState Machine.changeUnit Machine.doChange
  refine ite (ite ?_ (of_drc rfl)) (of_drc rfl)
  exact after (record _ _ _ _ _ _ _) (of_drc rfl)

/-! ## The flash system (R287, R548) -/

theorem judgeSpare (s : State) : SameChans s (judgeSpare s) := by
  unfold Machine.judgeSpare
  extract_lets judged
  have hjudged : SameChans s judged := setHealth s _ _
  exact ite (after (setHealth _ _ _) (via (setFtl_keeps ..) rfl hjudged)) hjudged

theorem retireBlock (s : State) (ch die block : Nat) : SameChans s (retireBlock s ch die block) := by
  unfold Machine.retireBlock
  refine ite (refl s) ?_
  extract_lets key g committed noted _ kept pool _ pooled x y _ empty counted retired
  have hnoted : SameChans s noted := via (bump_keeps ..) rfl (of_keeps (hold_keeps ..) rfl)
  have hpooled : SameChans s pooled := via (setFtl_keeps ..) rfl (via (setFtl_keeps ..) rfl hnoted)
  have hretired : SameChans s retired := by
    unfold retired
    split
    · exact via (setBg_keeps ..) rfl (via (setFtl_keeps ..) rfl hpooled)
    · have hcounted : SameChans s counted := via (setBg_keeps ..) rfl (via (bump_keeps ..) rfl hpooled)
      exact ite hpooled (ite (via (poolGroup_keeps ..) rfl hcounted) hcounted)
  exact after (judgeSpare _) (via (recopy_keeps ..) rfl hretired)

theorem programFailed (s : State) (ch : Nat) (pg : OPage) : SameChans s (programFailed s ch pg) := by
  unfold Machine.programFailed
  extract_lets c pages taken left retired
  have hleft : SameChans s left := foldl (fun t p => of_keeps (leaveStripe_keeps t ch p) rfl) (of_keeps (setChan_keeps ..) rfl)
  have hretired : SameChans s retired := after (retireBlock _ _ _ _) hleft
  exact via (judgeFold_keeps _) rfl (foldl (fun t p => of_keeps (reissue_keeps t ch p) rfl) hretired)

theorem passOne (bad : List Nat) (s : State) (ch : Nat) : SameChans s (passOne bad s ch) := by
  have hended (c : FChan) (die block : Nat) : SameChans s (endErase (setChan s ch c) ch die block) :=
    via (endErase_keeps ..) rfl (of_keeps (setChan_keeps ..) rfl)
  unfold Machine.passOne
  split
  · exact refl s
  · exact ite (after (programFailed _ _ _) (hended _ _ _)) (via (programPassed_keeps ..) rfl (hended _ _ _))

theorem passAll (bad : List Nat) (n : Nat) (s : State) : SameChans s (passAll bad n s) := by
  induction n generalizing s with
  | zero => exact refl s
  | succ n ih =>
    rw [Machine.passAll]
    exact ite (refl s) (after (ih _) (foldl (passOne bad) (refl s)))

theorem flushPages (s : State) (dense : Bool) (bad : List Nat) : SameChans s (flushPages s dense bad) :=
  after (passAll bad _ _) (of_keeps (sealAll_keeps ..) rfl)

theorem placed {i : Nat} {dense : Bool} {x : FSlot} {except : List Nat} (h : placeAny s i dense x except = some t) :
    SameChans s t := of_keeps (placeAny_keeps s i dense x except t h) rfl

theorem writeFrames (s : State) (l : List Nat) : SameChans s (writeFrames s l) := by
  unfold Machine.writeFrames
  refine after (flushPages _ _ _) (foldl (fun t k => ?_) (refl s))
  split
  · next h => exact via (setFtl_keeps ..) rfl (placed h)
  · exact refl t

theorem writeStaged (s : State) (l : List Nat) : SameChans s (writeStaged s l) := by
  unfold Machine.writeStaged
  refine after (flushPages _ _ _) (foldl (fun t n => ?_) (refl s))
  split
  · split
    · next h => exact placed h
    · exact refl t
  · exact refl t

theorem tierLoses (s : State) (c : Nat) : SameChans s (tierLoses s c) := by
  unfold Machine.tierLoses
  extract_lets dirty _ cleaned _ frames staged
  have hcleaned : SameChans s cleaned := via (setFtl_keeps ..) rfl (refl s)
  refine ite hcleaned ?_
  have hstaged : SameChans s staged := after (writeStaged _ _) (after (writeFrames _ _) (via (setFtl_keeps ..) rfl hcleaned))
  exact ite (via (setFtl_keeps ..) rfl hstaged) hstaged

end SameChans

/-! ## The unit of a channel -/

section
variable {s : State} {n k : Nat} {st : UState}

/-- The unit's record is written at once where nothing is held back and GEN has not risen twice in the last millisecond (R31). -/
theorem unitState_takesEffect (hheld : (unitOf s n).held = []) (hroom : (recentIncs s (unitOf s n)).length < 2) :
    (unitOf (unitState s n st) n).state = st := by
  have hnow : ((unitOf s n).held.isEmpty && (!UnitChange.isEvent (unitOf s n) { state := some st } ||
      decide ((recentIncs s (unitOf s n)).length < 2))) = true := by simp [hheld, hroom]
  rw [unitState, changeUnit, if_pos hnow, doChange]
  dsimp only
  split
  · rw [unitOf_congr ((record_keeps ..).dev rfl), unitOf_setUnit_same]
    rfl
  · rw [unitOf_setUnit_same]
    rfl

end

/-! ## A channel that leaves service (R548) -/

section
variable {s : State} {k : Nat} {st : DState}

theorem dramLeaves_chans : SameChans (setDram s k { dramOf s k with state := st, window := false, heldRate := false })
    (dramLeaves s k st) := by
  have htier := SameChans.tierLoses (setDram s k { dramOf s k with state := st, window := false, heldRate := false }) k
  have hlost := SameChans.foldl (l := Tab.keys (tierLoses (setDram s k { dramOf s k with
    state := st, window := false, heldRate := false }) k).ten.insts) (fun t i => .of_keeps (loseChannel_keeps t k i) rfl) htier
  exact .via (loadLosesRegion_keeps _) rfl (.via (shadowMoves_keeps ..) rfl hlost)

theorem dramDead_chans (s : State) (k : Nat) : SameChans s (dramDead s k) := by
  have hhealth : SameChans s (dramHealth (unitState s (168 + k) .offline) k 2) := .after (.record _ _ _ _ _ _ _) (.unitState s _ _)
  unfold dramDead
  exact .ite (.after (.setHealth _ _ _) (.via (setFtl_keeps ..) rfl hhealth)) hhealth

theorem dramDead_offline (hheld : (unitOf s (168 + k)).held = []) (hroom : (recentIncs s (unitOf s (168 + k))).length < 2) :
    (unitOf (dramDead s k) (168 + k)).state = .offline := by
  have hhealth : (unitOf (dramHealth (unitState s (168 + k) .offline) k 2) (168 + k)).state = .offline := by
    rw [dramHealth, unitOf_congr ((record_keeps ..).dev rfl), unitState_takesEffect hheld hroom]
  rw [dramDead]
  split
  · rw [unitOf_congr ((setHealth_keeps ..).dev rfl)]
    exact hhealth
  · exact hhealth

theorem dramOffline_state (hheld : (unitOf s (168 + k)).held = []) (hroom : (recentIncs s (unitOf s (168 + k))).length < 2) :
    (dramOf (dramOffline s k) k).state = .offline ∧ (unitOf (dramOffline s k) (168 + k)).state = .offline := by
  have hkeeps := dramLeaves_keeps s k .offline
  have hchans := dramLeaves_chans (s := s) (k := k) (st := .offline)
  rw [dramOffline]
  generalize dramLeaves s k .offline = left at hkeeps hchans ⊢
  have hunit : unitOf left (168 + k) = unitOf s (168 + k) := unitOf_congr (hkeeps.dev rfl) _
  refine ⟨?_, dramDead_offline (by rw [hunit]; exact hheld) (by rw [recentIncs, hkeeps.now rfl, hunit]; exact hroom)⟩
  rw [(dramDead_chans _ k).dramOf, hchans.dramOf, dramOf_setDram_same]

end
end Sys2Proof.Machine
end


section
/-! SUPPORT. DRAM channels: refresh, temperature, patrol, training and windows (15_dram.md, R536, R541, R545 to R548). -/

namespace Sys2Proof.Machine

section
variable {s : State} {x : DChan} {k v bank i word b hi lo n : Nat} {tag : Option Nat}

/-! ## Refresh and temperature (R541) -/

theorem dramRefresh_postpones (hin : dramIn s k = true) (hfew : Tab.getD (dramOf s k).postponed bank 0 < 8) :
    Nexts (exec (.dramRefresh k bank true) s) (fun t =>
      Tab.getD (dramOf t k).postponed bank 0 = Tab.getD (dramOf s k).postponed bank 0 + 1 ∧ (dramOf t k).banks = (dramOf s k).banks) := by
  let waits : DChan := { dramOf s k with postponed := Tab.put 0 (dramOf s k).postponed bank (Tab.getD (dramOf s k).postponed bank 0 + 1) }
  have hrun : exec (.dramRefresh k bank true) s = .next (bump (setDram s k waits) (drcReg Reg.DRC_CH_WAITS k) 15 0 1) := by
    change execDramRefresh k bank true s = _
    rw [execDramRefresh]
    exact (if_neg (by simp [hin])).trans (if_pos ⟨rfl, hfew⟩)
  have hnow : dramOf (bump (setDram s k waits) (drcReg Reg.DRC_CH_WAITS k) 15 0 1) k = waits := dramOf_setDram_same ..
  refine ⟨_, hrun, ?_, ?_⟩
  · rw [hnow]
    exact Tab.getD_put_same (dramOf s k).postponed bank (Tab.getD (dramOf s k).postponed bank 0 + 1) 0
  · rw [hnow]

theorem dramRefresh_issues (waiting : Bool) (hin : dramIn s k = true)
    (hdue : waiting = false ∨ 8 ≤ Tab.getD (dramOf s k).postponed bank 0) :
    Nexts (exec (.dramRefresh k bank waiting) s) (fun t => Tab.getD (dramOf t k).postponed bank 0 = 0 ∧
      (Tab.getD (dramOf t k).banks bank {}).isOpen = false) := by
  have hnot : ¬ (waiting = true ∧ Tab.getD (dramOf s k).postponed bank 0 < 8) := by
    rintro ⟨h1, h2⟩
    rcases hdue with h | h
    · exact absurd (h.symm.trans h1) (by decide)
    · omega
  let issued : DChan := { dramOf s k with
    postponed := Tab.put 0 (dramOf s k).postponed bank 0
    banks := Tab.put {} (dramOf s k).banks bank { Tab.getD (dramOf s k).banks bank {} with isOpen := false } }
  have hrun : exec (.dramRefresh k bank waiting) s = .next (setDram s k issued) := by
    change execDramRefresh k bank waiting s = _
    rw [execDramRefresh]
    exact (if_neg (by simp [hin])).trans (if_neg hnot)
  refine ⟨_, hrun, ?_, ?_⟩
  · rw [dramOf_setDram_same]
    exact Tab.getD_put_same (dramOf s k).postponed bank 0 0
  · rw [dramOf_setDram_same]
    exact congrArg DBank.isOpen (Tab.getD_put_same ..)

theorem dramTempRead_sets (hin : dramIn s k = true) :
    Nexts (exec (.dramTempRead k v) s) (fun t => (dramOf t k).refreshNs = v) := by
  exact ⟨setDram s k { dramOf s k with refreshNs := v }, if_pos hin, congrArg DChan.refreshNs (dramOf_setDram_same ..)⟩

/-! ## Patrol (R536) -/

theorem dramPatrol_reads (hin : dramIn s k = true) (hchan : pageChan s i (word / 128) = k)
    (hgood : Tab.getD s.drc.marks (lword i word) 0 = 0) :
    exec (.dramPatrol k i word n) s = .next (readWord s k i word n none).2 := by
  change execDramPatrol k i word n s = _
  rw [execDramPatrol, if_pos ⟨hin, hchan⟩, hgood, Nat.max_zero]

/-- A unit that is no engine is queued for its test, and nothing else. -/
theorem reportUnit_queues {u : Nat} (h : isEngine u = false) :
    (reportUnit s u tag).regs = s.regs ∧ (reportUnit s u tag).drc = s.drc := by
  unfold reportUnit
  extract_lets t _ _
  split
  · exact ⟨rfl, rfl⟩
  · rw [if_neg (by simp [h]), queueReport]
    split <;> exact ⟨rfl, rfl⟩

/-- An error corrected on a DRAM channel is counted in the record of its unit. -/
theorem countCorrected_chan (hk : k < 4) (hb : b ≠ unitErr (168 + k)) :
    live (countCorrected s (168 + k) n tag) b hi lo = live s b hi lo ∧ (countCorrected s (168 + k) n tag).drc.marks = s.drc.marks := by
  have hengine : isEngine (168 + k) = false := by interval_cases k <;> rfl
  have htestable : testable (168 + k) = true := by interval_cases k <;> rfl
  unfold countCorrected
  split
  · exact ⟨rfl, rfl⟩
  · extract_lets counted times tooMany _ noted
    have hlive : live noted b hi lo = live s b hi lo := live_bump_other s _ _ _ _ _ hb
    split
    · exact ⟨hlive, rfl⟩
    · obtain ⟨hregs, hdrc⟩ := reportUnit_queues (s := noted) (tag := tag) hengine
      exact ⟨(live_congr hregs ..).trans hlive, congrArg Drc.marks hdrc⟩

theorem errReg_ne_unitErr (hk : k < 4) : drcReg Reg.DRC_CH_ERR k ≠ unitErr (168 + k) := by
  interval_cases k <;> decide

theorem errReg_ne_counts (hk : k < 4) : drcReg Reg.DRC_CH_ERR k ≠ Reg.EVR_COUNTS := by
  interval_cases k <;> decide

theorem dramPatrol_good (hin : dramIn s k = true) (hchan : pageChan s i (word / 128) = k)
    (hgood : Tab.getD s.drc.marks (lword i word) 0 = 0) : exec (.dramPatrol k i word 0) s = .next s := by
  rw [dramPatrol_reads hin hchan hgood]
  rfl

theorem dramPatrol_corrects (hk : k < 4) (hin : dramIn s k = true) (hchan : pageChan s i (word / 128) = k)
    (hgood : Tab.getD s.drc.marks (lword i word) 0 = 0) :
    Nexts (exec (.dramPatrol k i word 1) s) (fun t =>
      live t (drcReg Reg.DRC_CH_ERR k) 31 16 = satAdd 16 (live s (drcReg Reg.DRC_CH_ERR k) 31 16) 1 ∧
        Tab.getD t.drc.marks (lword i word) 0 = 0) := by
  let fixed := bump (setMark s i word 0) (drcReg Reg.DRC_CH_ERR k) 31 16 1
  obtain ⟨hlive, hmarks⟩ := countCorrected_chan (s := fixed) (n := 1) (tag := none) (hi := 31) (lo := 16) hk (errReg_ne_unitErr hk)
  rw [dramPatrol_reads hin hchan hgood]
  refine ⟨_, rfl, hlive.trans (live_bump_same _ _ _ _ _ (by decide)), ?_⟩
  change Tab.getD (countCorrected fixed (168 + k) 1 none).drc.marks _ _ = _
  rw [hmarks]
  exact Tab.getD_put_same s.drc.marks (lword i word) 0 0

theorem dramPatrol_marks (hk : k < 4) (hin : dramIn s k = true) (hchan : pageChan s i (word / 128) = k)
    (hgood : Tab.getD s.drc.marks (lword i word) 0 = 0) :
    Nexts (exec (.dramPatrol k i word 2) s) (fun t =>
      live t (drcReg Reg.DRC_CH_ERR k) 15 0 = satAdd 16 (live s (drcReg Reg.DRC_CH_ERR k) 15 0) 1 ∧
        Tab.getD t.drc.marks (lword i word) 0 = 2) := by
  let marked := bump (setMark s i word 2) (drcReg Reg.DRC_CH_ERR k) 15 0 1
  rw [dramPatrol_reads hin hchan hgood]
  refine ⟨recordLost (countUncorr marked (168 + k) 1) (168 + k) i lostUnknown, rfl, ?_, ?_⟩
  · rw [recordLost, live_record (errReg_ne_counts hk), countUncorr, live_bump_other _ _ _ _ _ _ (errReg_ne_unitErr hk)]
    exact live_bump_same _ _ _ _ _ (by decide)
  · rw [recordLost, (SameChans.record ..).marks]
    exact Tab.getD_put_same s.drc.marks (lword i word) 2 0

/-! ## Training and windows (R545 to R547) -/

theorem dramTrainPassDone_ready (htrains : (dramOf s k).state = .training ∨ (dramOf s k).state = .retraining)
    (hheld : (dramOf s k).heldRate = false) :
    Nexts (exec (.dramTrainPassDone k true v) s) (fun t => (dramOf t k).state = .ready ∧ (dramOf t k).rate = (dramOf s k).tryRate ∧
      (dramOf t k).trainTemp = s.pwr.tModel ∧
      Tab.get? (dramOf t k).saved (dramOf s k).tryRate = some (s.pwr.tModel, v)) := by
  let x := dramOf s k
  let trained : DChan := { x with
    state := .ready, rate := x.tryRate, saved := Tab.set x.saved x.tryRate (s.pwr.tModel, v),
    trainTemp := s.pwr.tModel, below := decide (x.tryRate < dramTarget s k), drift := false, window := false, heldRate := false }
  let a := drcReg Reg.DRC_CH_TRAIN k
  obtain ⟨counted, hcounted⟩ : ∃ t, t = setLive (bump (shadowReturns (setDram s k trained) k) a 15 8 1) a 2 0 x.tryRate := ⟨_, rfl⟩
  obtain ⟨active, hactive⟩ : ∃ t, t = if x.state = .training then unitState counted (168 + k) .active else counted := ⟨_, rfl⟩
  have hrun : exec (.dramTrainPassDone k true v) s =
      .next (if decide (x.tryRate < dramTarget s k) then dramHealth active k 1 else active) := by
    have htrain : ¬ ((dramOf s k).state ≠ .training ∧ (dramOf s k).state ≠ .retraining) := by tauto
    have hfree : ¬ (dramOf s k).heldRate = true := by simp [hheld]
    change execDramTrainPassDone k true v s = _
    rw [execDramTrainPassDone]
    dsimp only
    rw [if_neg htrain, if_pos rfl, if_neg hfree, hactive, hcounted]
  have hchan : dramOf counted k = trained := by
    have hshadow : (shadowReturns (setDram s k trained) k).drc = (setDram s k trained).drc := (shadowReturns_keeps ..).drc rfl
    rw [hcounted]
    exact (dramOf_congr hshadow k).trans (dramOf_setDram_same ..)
  have hsame : SameChans counted active := by
    rw [hactive]
    exact .ite (.unitState _ _ _) (.refl _)
  have hend : SameChans counted (if decide (x.tryRate < dramTarget s k) then dramHealth active k 1 else active) :=
    .ite (.after (.record _ _ _ _ _ _ _) hsame) hsame
  refine ⟨_, hrun, ?_⟩
  beta_reduce
  rw [hend.dramOf, hchan]
  exact ⟨rfl, rfl, rfl, Tab.get?_set_same ..⟩

theorem dramTrainPassDone_fails (htrains : (dramOf s k).state = .training ∨ (dramOf s k).state = .retraining) :
    exec (.dramTrainPassDone k false v) s = if (dramOf s k).tryRate = 0 then
      .next (dramOffline (bump s (drcReg Reg.DRC_CH_TRAIN k) 15 8 1) k)
      else .next (setDram s k { dramOf s k with tryRate := (dramOf s k).tryRate - 1 }) := by
  have htrain : ¬ ((dramOf s k).state ≠ .training ∧ (dramOf s k).state ≠ .retraining) := by tauto
  exact (if_neg htrain).trans (if_neg (by decide))

theorem dramTrainPassDone_offline (htrains : (dramOf s k).state = .training ∨ (dramOf s k).state = .retraining)
    (hlowest : (dramOf s k).tryRate = 0) (hheld : (unitOf s (168 + k)).held = [])
    (hroom : (recentIncs s (unitOf s (168 + k))).length < 2) :
    Nexts (exec (.dramTrainPassDone k false v) s) (fun t =>
      (dramOf t k).state = .offline ∧ (unitOf t (168 + k)).state = .offline) := by
  rw [dramTrainPassDone_fails htrains, if_pos hlowest]
  exact ⟨_, rfl, dramOffline_state (s := bump s (drcReg Reg.DRC_CH_TRAIN k) 15 8 1) hheld hroom⟩

theorem dramTrainWindowEnd_closes (hopen : (dramOf s k).window = true) (hheld : (dramOf s k).heldRate = false) :
    exec (.dramTrainWindowEnd k) s = .next (setDram s k { dramOf s k with window := false, windowAt := s.now + 40 }) := by
  change execDramTrainWindowEnd k s = _
  rw [execDramTrainWindowEnd]
  exact (if_neg (by simp [hopen])).trans (if_neg (by simp [hheld]))

theorem dramTrainWindowEnd_idle (hclosed : (dramOf s k).window = false) : exec (.dramTrainWindowEnd k) s = .next s := by
  change execDramTrainWindowEnd k s = _
  rw [execDramTrainWindowEnd]
  exact if_pos (by simp [hclosed])

end
end Sys2Proof.Machine
end


section
/-! SUPPORT and O42. The DRAM station (15_dram.md, R536, R542, R546, R548), and the obligation. -/

namespace Sys2Proof.Machine

section
variable {s : State} {e : Entry} {u tag step first len v i a n : Nat} {y : LStep} {p : Packet} {rest : List Work} {d : Nat}

/-! ## Reading local memory (R536, R548) -/

/-- A range that is in service and has no marked code word gives its data; only rows and their counters move. -/
theorem lmemTake_of_good {tag : Option Nat} (hpages : ∀ q ∈ pageSpan a n, pageGone s i q = false)
    (hmarks : ∀ w ∈ wordSpan a n, Tab.getD s.drc.marks (lword i w) 0 = 0) :
    lmemTake s i a n tag = (true, rangeAccess s i a n) := by
  have hfound : (pageSpan a n).find? (pageGone s i) = none := List.find?_eq_none.mpr fun q hq => by simp [hpages q hq]
  unfold lmemTake
  rw [hfound]
  unfold readWords
  refine List.foldlRecOn (motive := fun r => r = (true, rangeAccess s i a n)) _ _ rfl ?_
  rintro _ rfl w hw
  refine if_pos ?_
  rw [marks_rangeAccess]
  exact hmarks w hw

/-! ## A failure at the last station (R173, R181) -/

/-- A clean ticket that has written nothing ends at once. -/
theorem failAt_ends {status : Nat} (he : entryOf s tag = some e) (hr : e.revoking = false) (hlast : isLast s e step = true)
    (hclean : cleanTicket s e) (hwrote : ∀ n, (ctxOf s tag n).wrote = []) (h4 : 4 < status) (h : status < 0x12) :
    endedWith s (failAt s tag step u status) tag status 0 ∧ (failAt s tag step u status).lmem = s.lmem := by
  obtain ⟨hsub, hfail, hwarn, hreset, hkey, hflush⟩ := hclean
  obtain ⟨t, ht⟩ : ∃ t, t = engineFailed (setEntry s tag (e.failing status u)) u tag status := ⟨_, rfl⟩
  have hkeeps : Keeps 16 (setEntry s tag (e.failing status u)) t := ht ▸ engineFailed_keeps ..
  have hlast' : isLast t e step = true := (isLast_congr (hkeeps.cfg rfl) e step).trans hlast
  have hentry : entryOf t tag = some (e.failing status u) := by
    rw [entryOf_congr (hkeeps.sbx rfl), entryOf_setEntry_same]
  obtain ⟨e', he'⟩ : ∃ e', e' = { e.failing status u with revoking := true, waiting := false } := ⟨_, rfl⟩
  have hzero : zeroWritten (setEntry t tag e') tag e = setEntry t tag e' := by
    have hstn : (setEntry t tag e').stn = s.stn := hkeeps.stn rfl
    have hnone : (List.range 12).flatMap (fun st => (ctxOf (setEntry t tag e') tag st).wrote) = [] :=
      List.flatMap_eq_nil_iff.mpr fun st _ => by rw [ctxOf_congr hstn]; exact hwrote st
    rw [zeroWritten, hnone]
    rfl
  have hrun : failAt s tag step u status = ackTicket (setEntry t tag e') tag 0 := by
    simp only [failAt, he, hr, report_failure he h4 h, ← ht, hlast', Bool.false_eq_true, if_false, if_true,
      modEntry_of_entry hentry, ← he', hzero]
  have hfinal : finalStatus { e' with acked := true, out := 0 } = (status, u) := by
    simp [finalStatus, he', Entry.failing, hreset, hkey, hfail]
  have hsub' : e'.sub = .device := by simp [he', Entry.failing, hfail, hsub]
  have hreset' : e'.instReset = false := by simp [he', Entry.failing, hfail, hreset]
  have hsbx : t.sbx = (setEntry s tag (e.failing status u)).sbx := hkeeps.sbx rfl
  obtain ⟨r, hack, hrsbx, -⟩ := ackTicket_finishes (entryOf_setEntry_same t tag e') 0
  have hflush' : (setEntry r tag { e' with acked := true, out := 0 }).sbx.flushMode = false := by
    change r.sbx.flushMode = false
    rw [hrsbx]
    change t.sbx.flushMode = false
    rw [hsbx]
    exact hflush
  obtain ⟨hgone, hposted⟩ := finishTicket_device (entryOf_setEntry_same r tag { e' with acked := true, out := 0 }) hsub' hflush' hreset'
  have hposted' : (setEntry r tag { e' with acked := true, out := 0 }).sbx.posted = s.sbx.posted := by
    change r.sbx.posted = s.sbx.posted
    rw [hrsbx]
    change t.sbx.posted = s.sbx.posted
    rw [hsbx]
    rfl
  rw [hrun]
  refine ⟨⟨by rw [hack]; exact hgone, _, by rw [hack, hposted, hposted'], rfl, congrArg Prod.fst hfinal, ?_⟩, ?_⟩
  · simp [completionOf]
  · rw [(ackTicket_keeps ..).lmem rfl]
    exact hkeeps.lmem rfl

/-! ## The station (R542, R546) -/

/-- The pages that a transfer places do not depend on what waits in a queue. -/
theorem placePages_setInbox (s : State) (u : Nat) (l : List Work) (i a n : Nat) :
    placePages (setInbox s u l) i a n = setInbox (placePages s i a n) u l := by
  unfold placePages
  refine List.foldl_hom (fun s => setInbox s u l) fun t q => ?_
  dsimp only
  change (if pageGone t i q then _ else _) = _
  split
  · let room := ((dramLive t).drop (q % max 1 (dramLive t).length) ++ (dramLive t).take (q % max 1 (dramLive t).length)).filter (chanRoom t)
    have hroom (c : Option Nat) :
        (match c with
          | some c => { setInbox t u l with drc := { t.drc with placed := Tab.set t.drc.placed (lpage i q) c } }
          | none => setInbox t u l) =
        setInbox (match c with
          | some c => { t with drc := { t.drc with placed := Tab.set t.drc.placed (lpage i q) c } }
          | none => t) u l := by cases c <;> rfl
    exact hroom room.head?
  · rfl

/-- No page of the transfer lies on a stalled channel. -/
theorem flows_any {l : List Nat} (h : ∀ q ∈ l, dramStalled s (pageChan s i q) = false) :
    ¬ l.any (fun q => dramStalled s (pageChan s i q)) = true := by
  simpa using h

theorem dramStation_waits (hs : startWaits s u tag step first len e y rest) (hk : stepKind y = 0x0A) (hm : y.mode = 0)
    (hw : worksNow s u = true) (hlen : len ≤ 4096)
    (hstalled : ¬ ∀ q ∈ pageSpan (e.t.source.addr + first) len, dramStalled s (pageChan s e.t.inst q) = false) :
    Nexts (exec (.dramStation u v) s) (fun t => inboxOf t u = inboxOf s u ∧ t.lmem = s.lmem ∧ t.dev.trunk = s.dev.trunk) := by
  have hmin : min 4096 len = len := by omega
  have hany : (pageSpan (e.t.source.addr + first) (min 4096 len)).any
      (fun q => dramStalled (setInbox s u rest) (pageChan (setInbox s u rest) e.t.inst q)) = true := by
    rw [hmin]
    change (pageSpan (e.t.source.addr + first) len).any (fun q => dramStalled s (pageChan s e.t.inst q)) = true
    by_contra hnone
    exact hstalled (by simpa using hnone)
  have hrun : exec (.dramStation u v) s = .next (setInbox (setInbox s u rest) u
      (.start tag step first len :: inboxOf (setInbox s u rest) u)) := by
    change execDramStation u v s = _
    rw [execDramStation, serveFront_start hs hk (by simp [hm]) hw]
    exact congrArg Host.Outcome.next (if_pos hany)
  refine ⟨_, hrun, ?_, rfl, rfl⟩
  rw [inboxOf_setInbox_same, inboxOf_setInbox_same, hs.1]

theorem dramStation_fetches (hs : startWaits s u tag step first len e y rest) (hk : stepKind y = 0x0A) (hm : y.mode = 0)
    (hw : worksNow s u = true) (hlen : len ≤ 4096)
    (hflows : ∀ q ∈ pageSpan (e.t.source.addr + first) len, dramStalled s (pageChan s e.t.inst q) = false) :
    exec (.dramStation u v) s = .next (dramFetch (setInbox s u rest) u tag e step first len v) := by
  have hmin : min 4096 len = len := by omega
  have hany : ¬ (pageSpan (e.t.source.addr + first) (min 4096 len)).any
      (fun q => dramStalled (setInbox s u rest) (pageChan (setInbox s u rest) e.t.inst q)) = true := by
    rw [hmin]
    exact flows_any hflows
  change execDramStation u v s = _
  rw [execDramStation, serveFront_start hs hk (by simp [hm]) hw]
  exact congrArg Host.Outcome.next (if_neg hany)

theorem dramStation_sends (hs : startWaits s u tag step first len e y rest) (hk : stepKind y = 0x0A) (hm : y.mode = 0)
    (hw : worksNow s u = true) (hsource : e.t.source.kind = 4) (hdest : e.t.dest.kind ≠ 3) (hlen : len ≤ 4096)
    (hd : unitAt s e (step + 1) (first / 4096) = some d) (hlocal : localOk s e.t.inst (e.t.source.addr + first) len = true)
    (hflows : ∀ q ∈ pageSpan (e.t.source.addr + first) len, dramStalled s (pageChan s e.t.inst q) = false)
    (hpages : ∀ q ∈ pageSpan (e.t.source.addr + first) len, pageGone s e.t.inst q = false)
    (hmarks : ∀ w ∈ wordSpan (e.t.source.addr + first) len, Tab.getD s.drc.marks (lword e.t.inst w) 0 = 0) :
    Nexts (exec (.dramStation u v) s) (fun t => t.lmem = s.lmem ∧ sends s t
      (sentTo s e tag step u d first (lmemRead s e.t.inst (e.t.source.addr + first) len) 0 false)) := by
  let waits := bump (setInbox s u rest) (drcReg Reg.DRC_CH_WAITS (pageChan (setInbox s u rest) e.t.inst ((e.t.source.addr + first) / 4096)))
    31 16 v
  let data := lmemRead s e.t.inst (e.t.source.addr + first) len
  obtain ⟨read, hread⟩ : ∃ t, t = rangeAccess waits e.t.inst (e.t.source.addr + first) len := ⟨_, rfl⟩
  have hkeeps : Keeps 33554448 waits read := hread ▸ rangeAccess_keeps ..
  have hlmem : read.lmem = s.lmem := hkeeps.lmem rfl
  have hrun : dramFetch (setInbox s u rest) u tag e step first len v = sourceOut read u tag step first data := by
    have hmin : min 4096 len = len := by omega
    have htake : lmemTake waits e.t.inst (e.t.source.addr + first) len (some tag) = (true, read) :=
      hread ▸ lmemTake_of_good (s := waits) hpages hmarks
    have hdata : lmemRead read e.t.inst (e.t.source.addr + first) len = data := by rw [lmemRead, hlmem]; rfl
    have hlength : data.length = len := memRead_length ..
    have hlocal' : ¬ (!localOk (setInbox s u rest) e.t.inst (e.t.source.addr + first) len) = true := by
      change ¬ (!localOk s e.t.inst (e.t.source.addr + first) len) = true
      simp [hlocal]
    rw [dramFetch, hmin]
    dsimp only
    rw [if_neg (not_not_intro hsource), if_neg hlocal', htake]
    dsimp only
    rw [if_neg (by decide), if_neg (Nat.lt_irrefl len), if_neg hdest, hdata, sourceOut, hlength] <;> rfl
  rw [dramStation_fetches hs hk hm hw hlen hflows, hrun]
  obtain ⟨-, he, hf, hr, -⟩ := hs
  have hentry : entryOf read tag = some e := (entryOf_congr (hkeeps.sbx rfl) tag).trans he
  obtain ⟨⟨l, hl⟩, -, hout⟩ := sourceOut_sends (s := s) (t := read) (u := u) (bs := data) (hkeeps.cfg rfl) hentry hf hr hd
  exact ⟨_, rfl, hout.trans hlmem, l, hl.trans (by rw [hkeeps.dev rfl]; rfl)⟩

theorem dramStation_bounds (hs : startWaits s u tag step first len e y rest) (hk : stepKind y = 0x0A) (hm : y.mode = 0)
    (hw : worksNow s u = true) (hsource : e.t.source.kind = 4) (hlen : len ≤ 4096)
    (hflows : ∀ q ∈ pageSpan (e.t.source.addr + first) len, dramStalled s (pageChan s e.t.inst q) = false)
    (hlocal : localOk s e.t.inst (e.t.source.addr + first) len = false) (hlast : isLast s e step = false) :
    Nexts (exec (.dramStation u v) s) (fun t => failedWith t e tag 0x0E u ∧ t.lmem = s.lmem) := by
  have hmin : min 4096 len = len := by omega
  have hrun : dramFetch (setInbox s u rest) u tag e step first len v = failAt (setInbox s u rest) tag step u 0x0E := by
    have hlocal' : (!localOk (setInbox s u rest) e.t.inst (e.t.source.addr + first) len) = true := by
      change (!localOk s e.t.inst (e.t.source.addr + first) len) = true
      simp [hlocal]
    rw [dramFetch, hmin]
    exact (if_neg (not_not_intro hsource)).trans (if_pos hlocal')
  rw [dramStation_fetches hs hk hm hw hlen hflows, hrun]
  obtain ⟨-, he, hf, hr, -⟩ := hs
  have he' : entryOf (setInbox s u rest) tag = some e := he
  have hlast' : isLast (setInbox s u rest) e step = false := hlast
  exact ⟨_, rfl, failAt_revokes he' hr hlast' (report_failure he' (by decide) (by decide) u)⟩

/-! ## Packets for local memory -/

theorem dramStation_puts (hs : packetWaits s u p e y rest) (hk : stepKind y = 0x0A) (hm : y.mode = 0)
    (hw : worksNow s u = true) (hdest : e.t.dest.kind = 4)
    (hlocal : localOk s e.t.inst (e.t.dest.addr + p.off) p.data.length = true)
    (hflows : ∀ q ∈ pageSpan (e.t.dest.addr + p.off) p.data.length, dramStalled s (pageChan s e.t.inst q) = false) :
    exec (.dramStation u v) s = .next (
      if (pageSpan (e.t.dest.addr + p.off) p.data.length).any
          (pageGone (placePages s e.t.inst (e.t.dest.addr + p.off) p.data.length) e.t.inst) then
        failAt (setInbox s u rest) p.tag p.step u 0x05
      else
        setCtx (lmemPut (bump (setInbox s u rest) (drcReg Reg.DRC_CH_WAITS (pageChan s e.t.inst ((e.t.dest.addr + p.off) / 4096))) 31 16 v)
          e.t.inst (e.t.dest.addr + p.off) p.data) p.tag p.step { ctxOf s p.tag p.step with
            inBytes := (ctxOf s p.tag p.step).inBytes + p.data.length, outBytes := (ctxOf s p.tag p.step).outBytes + p.data.length,
            wrote := (ctxOf s p.tag p.step).wrote ++ [(e.t.dest.addr + p.off, p.data.length)], prov := p.prov }) := by
  obtain ⟨hq, hend, he, hf, hr, hy⟩ := hs
  have hany : ¬ (pageSpan (e.t.dest.addr + p.off) p.data.length).any
      (fun q => dramStalled (setInbox s u rest) (pageChan (setInbox s u rest) e.t.inst q)) = true := flows_any hflows
  have hlocal' : ¬ (!localOk (setInbox s u rest) e.t.inst (e.t.dest.addr + p.off) p.data.length) = true := by
    change ¬ (!localOk s e.t.inst (e.t.dest.addr + p.off) p.data.length) = true
    simp [hlocal]
  change execDramStation u v s = _
  rw [execDramStation, serveFront_packet hq he hf hr hy hk (by simp [hm]) hw]
  refine congrArg Host.Outcome.next ((if_neg hany).trans ?_)
  dsimp only
  rw [dramPut]
  dsimp only
  rw [if_neg (by simp [hend]), if_neg (not_not_intro hdest), if_neg hlocal', placePages_setInbox]
  rfl

end

section
variable {s : State} {e : Entry} {u v : Nat} {y : LStep} {p : Packet} {rest : List Work}

/-- The bytes stand in local memory, and no other tenant's memory changes. -/
theorem lmemRead_lmemPut (s : State) (i a : Nat) (bs : Bytes) :
    lmemRead (lmemPut s i a bs) i a bs.length = bs ∧ ∀ j, j ≠ i → Tab.getD (lmemPut s i a bs).lmem j [] = Tab.getD s.lmem j [] := by
  refine ⟨?_, fun j hj => ?_⟩
  · rw [lmemRead, lmem_lmemPut, Tab.getD_put_same]
    exact memRead_memWrite ..
  · rw [lmem_lmemPut, Tab.getD_put_other _ _ _ hj]

end

/-- Settles O42, clause by clause: what the host ports, the DRAM station and the commands of the DRAM channels do. -/
theorem hostPortsAndDramChannelsMoveTicketData : Obligations.HostPortsAndDramChannelsMoveTicketData := by
  unfold Obligations.HostPortsAndDramChannelsMoveTicketData
  intro s u d tag j first len k v bank i word p e y rest data sgl
  dsimp only
  refine ⟨fun hs hk hm hw hsource hdest hpos hlen =>
      ⟨fun hall hd => hostPortFetch_sends hs hk hm hw hsource hdest hpos hlen hall hd,
        fun hshort hlast => hostPortFetch_short hs hk hm hw hsource hdest hlen hshort hlast⟩,
    fun hs hk hm hw hdest htdi => hostPortWrite_writes hs hk hm hw hdest htdi,
    fun hs hk hm hw hsource hdest _ hlen hd hlocal hflows hpages hmarks =>
      dramStation_sends hs hk hm hw hsource hdest hlen hd hlocal hflows hpages hmarks,
    fun hs hk hm hw hsource hlen hflows hlocal hlast => dramStation_bounds hs hk hm hw hsource hlen hflows hlocal hlast,
    fun hs hk hm hw hdest hlocal hflows => ?_, fun hs hk hm hw hlen hstalled => dramStation_waits hs hk hm hw hlen hstalled,
    dramRefresh_postpones, fun waiting hin hdue => dramRefresh_issues waiting hin hdue, dramTempRead_sets,
    fun hk hin hchan hgood => ⟨dramPatrol_good hin hchan hgood, dramPatrol_corrects hk hin hchan hgood,
      dramPatrol_marks hk hin hchan hgood⟩,
    dramTrainPassDone_ready, fun htrains hrate => (dramTrainPassDone_fails htrains).trans (if_neg hrate),
    dramTrainPassDone_offline, dramTrainWindowEnd_closes, dramTrainWindowEnd_idle⟩
  rw [dramStation_puts hs hk hm hw hdest hlocal hflows]
  obtain ⟨-, -, he, -, hr, -⟩ := hs
  have he' : entryOf (setInbox s u rest) p.tag = some e := he
  refine ⟨fun hlost hlast hclean hwrote => ?_, fun hlost hlast => ?_, fun hplaced => ?_⟩
  · rw [if_pos hlost]
    have hwrote' : ∀ n, (ctxOf (setInbox s u rest) p.tag n).wrote = [] := hwrote
    exact ⟨_, rfl, failAt_ends he' hr hlast hclean hwrote' (by decide) (by decide)⟩
  · rw [if_pos hlost]
    exact ⟨_, rfl, failAt_revokes he' hr hlast (report_failure he' (by decide) (by decide) u)⟩
  · rw [if_neg (by rw [hplaced]; decide)]
    obtain ⟨hread, hothers⟩ := lmemRead_lmemPut (bump (setInbox s u rest)
      (drcReg Reg.DRC_CH_WAITS (pageChan s e.t.inst ((e.t.dest.addr + p.off) / 4096))) 31 16 v) e.t.inst (e.t.dest.addr + p.off) p.data
    exact ⟨_, rfl, hread, by rw [ctxOf_setCtx_same], hothers⟩

end Sys2Proof.Machine
end
